-- ==== Sys2Proof/Config.lean ====
section
/-! DEFINITION. The free values: what the spec leaves open and every implementation fixes for itself. Each is an opaque
constant with no body, so that a claim about the model holds whatever the value is. The assumption log names each. -/

namespace Sys2Proof.Config

/-- The bits of a NaN that an FP32 operation delivers, as a function of its operands' bits: R99 fixes the arithmetic and
no rule fixes a NaN's sign and payload. DESIGN CHOICE (log 3): free. -/
opaque nanBits : Nat → Nat → Nat → Nat

/-- FP32 constant v_i of the GELU table of the output stage (Table 03.6): the spec bounds the table's error and does not
list the constants. DESIGN CHOICE (log 4): free. -/
opaque geluV : Nat → Nat
/-- FP32 slope d_i of the GELU table of the output stage (Table 03.6). DESIGN CHOICE (log 4): free. -/
opaque geluD : Nat → Nat
/-- FP32 constant v_i of the SiLU table of the output stage (Table 03.6). DESIGN CHOICE (log 4): free. -/
opaque siluV : Nat → Nat
/-- FP32 slope d_i of the SiLU table of the output stage (Table 03.6). DESIGN CHOICE (log 4): free. -/
opaque siluD : Nat → Nat

/-- The order in which HMUL sums the K products of one element: R174 says only that it depends on M, N, K and HFMT. Given
M, N, K, HFMT and the step number, the index of the partial sum to fold next. DESIGN CHOICE (log 5): free. -/
opaque hmulPick : Nat → Nat → Nat → Nat → Nat → Nat

/-- The FP32 bits that an HVEC operation whose rounding the spec leaves open (EXP, SOFTMAX, LAYERNORM, RMSNORM, GELU,
SILU, ROWSUM of finite inputs) delivers, given the operation, its two scalars, the row, the parameter row and the
column. DESIGN CHOICE (log 6): free. -/
opaque hvecValue : Nat → Nat → Nat → List Nat → List Nat → Nat → Nat

/-- The fixed hash that chooses a hot-row set (R268), before reduction to the number of sets. DESIGN CHOICE (log 7): free. -/
opaque hotHash : Nat → Nat

/-- A byte of memory whose contents the spec leaves undefined after a change of a channel set (R436, R548), by the stamp of
the change and the address. DESIGN CHOICE (log 8): free. -/
opaque freeByte : Nat → Nat → BitVec 8

/-- The 32-bit CRC-32 of a list of bytes (Table 12.11, R608): the spec names no polynomial. DESIGN CHOICE (log 9): free. -/
opaque crc32 : List (BitVec 8) → BitVec 32

/-- The FP32 maximum of two operands where one is a NaN or both are zeros of different sign (Table 12.7): the spec does not say
which. DESIGN CHOICE (log 36): free. -/
opaque collMax : Nat → Nat → Nat

/-- SHA-384 of a pair of values, as a name for the digest (R565). DESIGN CHOICE (log 10): free. -/
opaque sha384 : Nat → Nat → Nat

/-- The values that customs draws: nonces, keys, signatures and random fields, by the number of the draw and what it is drawn
over. DESIGN CHOICE (log 11): free. -/
opaque drawn : Nat → Nat → Nat

/-- Bytes of certificates and of ML-DSA-87 signatures: what they are of (0 the identity chain, 1 the alias chain, 2 a signature), what
they are over, and the index of the byte. DESIGN CHOICE (log 11): free. -/
opaque cryptoByte : Nat → Nat → Nat → BitVec 8

/-- Bytes of the certificate chain of a slot. DESIGN CHOICE (log 11): free. -/
opaque certBytes : Nat → Nat

/-- The syndrome of a word in error, by address, and the bytes of a record's DETAIL that follow from no rule: the failing column and the
place of an HBM word in its channel, by address and byte. DESIGN CHOICE (log 130): free. -/
opaque syndrome : Nat → BitVec 64
opaque errorPlace : Nat → Nat → Nat

end Sys2Proof.Config
end

