-- ==== Sys2Proof/Machine/Tab.lean ====
section
/-! DEFINITION. Sparse tables in one canonical form: a list of (key, value) pairs with keys strictly rising and no entry
equal to what an unlisted key reads as. Memory, register fields and every numbered unit of the device are such tables. -/

namespace Sys2Proof.Machine

/-- A sparse table. What an unlisted key reads as is given to each operation. -/
abbrev Tab (α : Type) := List (Nat × α)

/-- The value listed at key k. -/
def Tab.find {α : Type} (k : Nat) : Tab α → Option α
  | [] => none
  | (j, v) :: t => if j = k then some v else Tab.find k t

/-- The value at key k; `d` is what an unlisted key reads as. -/
def Tab.get {α : Type} (d : Nat → α) (t : Tab α) (k : Nat) : α := (Tab.find k t).getD (d k)

/-- Put v at key k, in key order. -/
def Tab.insert {α : Type} (k : Nat) (v : α) : Tab α → Tab α
  | [] => [(k, v)]
  | (j, w) :: t => if k < j then (k, v) :: (j, w) :: t else if j = k then (k, v) :: t else (j, w) :: Tab.insert k v t

/-- Remove key k. -/
def Tab.erase {α : Type} (k : Nat) (t : Tab α) : Tab α := t.filter fun e => decide (e.1 ≠ k)

/-- Write v at key k: writing what an unlisted key reads as removes the entry. -/
def Tab.set {α : Type} [DecidableEq α] (d : Nat → α) (k : Nat) (v : α) (t : Tab α) : Tab α :=
  if v = d k then Tab.erase k t else Tab.insert k v t

/-- Remove every key in [lo, hi). -/
def Tab.dropRange {α : Type} (lo hi : Nat) (t : Tab α) : Tab α := t.filter fun e => !(decide (lo ≤ e.1) && decide (e.1 < hi))

/-- The entries with keys in [lo, hi), their keys moved so that lo becomes `dst`. -/
def Tab.slice {α : Type} (lo hi dst : Nat) (t : Tab α) : Tab α :=
  (t.filter fun e => decide (lo ≤ e.1) && decide (e.1 < hi)).map fun e => (e.1 - lo + dst, e.2)

/-- Replace the keys [dst, dst + n) by the entries of [src, src + n), moved. -/
def Tab.move {α : Type} (src dst n : Nat) (t : Tab α) : Tab α :=
  (t.filter fun e => decide (e.1 < dst)) ++ Tab.slice src (src + n) dst t ++ (t.filter fun e => decide (dst + n ≤ e.1))

/-- Keys strictly rising. -/
def Tab.rising {α : Type} : Tab α → Bool
  | [] => true
  | [_] => true
  | (j, _) :: (k, w) :: t => decide (j < k) && Tab.rising ((k, w) :: t)

/-- The canonical form: keys strictly rising, and no entry equal to what an unlisted key reads as. -/
def Tab.wf {α : Type} [DecidableEq α] (d : Nat → α) (t : Tab α) : Bool :=
  Tab.rising t && t.all fun e => decide (e.2 ≠ d e.1)

end Sys2Proof.Machine
end

