-- ==== Sys2Proof/Machine/Types.lean ====
section
/-! DEFINITION. The records that State is made of: kilns and task contexts (04), streams (05), tables, groups and cranes
(07), consignments (08), histories (09), jobs and models (10), rings (11), quays and the pod (12), faults (13), customs and
power (14), pilot and lighthouse (15). -/

namespace Sys2Proof.Machine

/-! ### Kilns (04) -/

/-- States of a context slot (Table 04.3). -/
inductive CtxState where
  | empty | ready | running | waitTile | waitBar | halted | frozen
  deriving DecidableEq, Repr

/-- The code of Table 04.3. -/
def CtxState.code : CtxState → Nat
  | .empty => 0 | .ready => 1 | .running => 2 | .waitTile => 3 | .waitBar => 4 | .halted => 5 | .frozen => 6

/-- The first tile, of each binding given as (owner task, binding), that holds data still needed (R227). -/
abbrev Tiles := List (Nat × Nat × Nat)

/-- Where a 256 B block of a berth came from: the job, the unit, the task that owns the binding and the binding, and the first
and the last tile written into it. -/
structure Origin where
  job : Nat
  unit : Nat
  task : Nat
  bind : Nat
  first : Nat
  last : Nat
  deriving DecidableEq, Repr

/-- One row whose outputs are written: the address of its LAYER, its outputs, the columns counted as clips, the clip page with
its first channel, whether its last write is acknowledged (R135, R138, R155), and the tiles its activations came in. -/
structure RowOut where
  layer : Nat
  row : Nat
  outs : Nat
  clips : List Nat
  page : Option (Nat × Nat)
  acked : Bool
  used : Tiles := []
  deriving DecidableEq, Repr

/-- A context slot (Table 04.2) with what restart and resume need (R116, R185, R477). -/
structure KCtx where
  st : CtxState := .empty
  /-- code of Table 04.13 -/
  reason : Nat := 0
  job : Nat := 0
  unit : Nat := 0
  task : Nat := 0
  /-- program address, and address of the current command -/
  prog : Nat := 0
  pc : Nat := 0
  /-- working half: false fore, true aft -/
  half : Bool := false
  /-- mooring: first slot and number of slots -/
  base : Nat := 0
  slots : Nat := 0
  rank : Nat := 0
  /-- column accumulators, FP32 bits, at row × N + column; unlisted +0 -/
  acc : Tab Nat := []
  /-- ROWS and N of the previous LAYER when it had ACC_OUT hold -/
  held : Option (Nat × Nat) := none
  /-- pin buffer, FP32 bits; unlisted +0 -/
  pins : Tab Nat := []
  /-- pin record: PIN_GROUPS and PIN_GSIZE -/
  pinRec : Option (Nat × Nat) := none
  /-- saved position: row, reduction group, lookup group -/
  row : Nat := 0
  group : Nat := 0
  lookup : Nat := 0
  /-- next weight tile of the group, and the accumulators that its earlier tiles give once the group is verified (R113, R165) -/
  strip : Nat := 0
  staged : Tab Nat := []
  /-- slots of the mooring that the task waits for (R157, R167) -/
  late : List Nat := []
  /-- the bits of the LAYER that runs -/
  cmd : Nat := 0
  /-- a LAYER that a restart computes again and the rows of it counted before (R137) -/
  counted : Option (Nat × Nat) := none
  /-- tiles that the LAYER in progress, with its carry chain, has read, and those that the last pin writer read (R227) -/
  used : Tiles := []
  pinUsed : Tiles := []
  /-- row watermark of the running LAYER -/
  watermark : Nat := 0
  clip : Nat := 0
  total : Nat := 0
  /-- rows written and not yet below the watermark -/
  rows : List RowOut := []
  /-- a command with NOSWITCH runs, and its DECL_LEN -/
  noswitch : Bool := false
  declLen : Nat := 0
  /-- halt generation of the slot's tasks (R477) -/
  gen : Nat := 0
  /-- address of the first LAYER of the carry chain in progress -/
  chain : Option Nat := none
  /-- address of the last LOADPIN or pin-writing LAYER -/
  pinWriter : Option Nat := none
  /-- after a restart at the pin writer: the LAYER to go to, and its row (Table 04.14) -/
  replay : Option (Nat × Nat) := none
  /-- the saved position lies within the LAYER at pc -/
  begun : Bool := false
  /-- slots of the working half that hold hearth results -/
  hearth : List Nat := []
  /-- halted through CUS_DBG_KILN while in this state (R578) -/
  dbgFrom : CtxState := .empty
  /-- a debug request waits for the next command or tile boundary: 1 halt, 2 one command, 3 to a tile boundary -/
  dbgReq : Nat := 0
  deriving DecidableEq, Repr

/-- One reduction group's tables in a bank of the table store (R84): the row, the group and, for C4, the column block, with the
stored entries of each lookup group in order, the exponent that the charger passes on, and the group sum S. -/
structure LutGroup where
  row : Nat
  group : Nat
  block : Nat
  tables : List (List Int)
  exp : Int
  sum : Int
  deriving DecidableEq, Repr

/-- A kiln's engines: the slot on the lookup path, the table store's two banks with the active one (R84, R85), whether the LAYER's
first bank is still to come (R88), the slot whose LAYER charged C4 tables on the multiply array (R79, R143), and the slots on
the multiply array and the vector unit (R171). -/
structure Kiln where
  path : Option Nat := none
  bank : Bool := false
  store0 : List LutGroup := []
  store1 : List LutGroup := []
  firstBank : Bool := true
  c4 : Option Nat := none
  mul : Option Nat := none
  vec : Option Nat := none
  deriving DecidableEq, Repr

/-- The bank that the fabric reads, and the bank that the charger writes. -/
def Kiln.active (q : Kiln) : List LutGroup := if q.bank then q.store1 else q.store0
def Kiln.idle (q : Kiln) : List LutGroup := if q.bank then q.store0 else q.store1

/-- Give the idle bank its contents. -/
def Kiln.setIdle (q : Kiln) (ts : List LutGroup) : Kiln := if q.bank then { q with store0 := ts } else { q with store1 := ts }

/-- The banks exchange roles; the one that the fabric has finished with is empty. -/
def Kiln.exchange (q : Kiln) : Kiln := { q with bank := !q.bank, firstBank := false }.setIdle []

/-- Empty banks, as a LAYER finds them that starts or comes back after a switch (R87, R88). -/
def Kiln.emptied (q : Kiln) : Kiln := { q with store0 := [], store1 := [], firstBank := true }

/-- A slot leaves a kiln's engines. -/
def Kiln.leave (q : Kiln) (c : Nat) : Kiln :=
  let q := if q.path == some c then { q.emptied with path := none } else q
  { q with c4 := if q.c4 == some c then none else q.c4, mul := if q.mul == some c then none else q.mul,
           vec := if q.vec == some c then none else q.vec }

/-! ### Streams (05) -/

/-- States of a stream context (Table 05.2). -/
inductive StreamState where
  | free | reserving | running | waiting | halted | aborted | frozen | draining
  deriving DecidableEq, Repr

/-- The code of Table 05.2. -/
def StreamState.code : StreamState → Nat
  | .free => 0 | .reserving => 1 | .running => 2 | .waiting => 3 | .halted => 4 | .aborted => 5 | .frozen => 6 | .draining => 7

/-- One receiver of a berth stream: its kiln and slot, the physical half it writes, its place in the list, whether it is
attached, the tiles it has accepted, and the slots of its mooring written into and not yet made ready, each with the age of
the last unit written there. `base` is the first slot of its mooring. -/
structure Rcv where
  kiln : Nat
  slot : Nat
  half : Bool
  base : Nat
  task : Nat
  attached : Bool
  accepted : Nat
  wrote : List (Nat × Nat)
  /-- age of the next unit to write to it -/
  next : Nat := 0
  deriving DecidableEq, Repr

/-- One open loop of a manifest (R196). -/
structure Loop where
  first : Nat
  last : Nat
  left : Nat
  deriving DecidableEq, Repr

/-- A position in a manifest: program counter, loop stack (innermost first), the three cursors, the tile count, the bytes
emitted of the tile in progress, and the offset within the instruction (R221). -/
structure Pos where
  pc : Nat := 0
  loops : List Loop := []
  src : Int := 0
  dst : Int := 0
  idx : Int := 0
  tile : Nat := 0
  tileBytes : Nat := 0
  off : Nat := 0
  deriving DecidableEq, Repr

/-- Where a 256 B unit stands: queued, in flight under a read tag, or landed in the hold. -/
inductive UnitState where
  | queued | inFlight | landed
  deriving DecidableEq, Repr

/-- One read unit of a queued transfer (R209): its source and destination, length, tile, the position it reissues from, its age
in the arbiter (R213), and its data once landed. `last` marks the last unit of its tile. -/
structure SUnit where
  st : UnitState
  src : Nat
  dst : Nat
  len : Nat
  tile : Nat
  last : Bool
  pos : Pos
  /-- position at the start of its tile (R217, R232) -/
  start : Pos
  seq : Nat
  data : List (BitVec 8)
  /-- the transfer it belongs to, by the age of its first unit -/
  xfer : Nat
  /-- dry instant that its request carries, in ns as numerator and denominator; denominator 0 for bulk (R212) -/
  dry : Nat × Nat := (0, 0)
  deriving DecidableEq, Repr

/-- What a stream waits for in a WAITSLOT. -/
inductive StreamWait where
  | none | slots | barrier
  deriving DecidableEq, Repr

/-- A stream context (05). -/
structure Stream where
  st : StreamState := .free
  /-- Table 05.9 REASON while HALTED -/
  reason : Nat := 0
  /-- halt generation (R220) -/
  gen : Nat := 0
  job : Nat := 0
  unit : Nat := 0
  /-- the task that it feeds, and the task among whose bindings its binding lies -/
  task : Nat := 0
  owner : Nat := 0
  manifest : Nat := 0
  dstKind : Nat := 0
  srcRemote : Bool := false
  cls : Nat := 0
  multicast : Bool := false
  /-- a catch-up stream (R217) -/
  catching : Bool := false
  loading : Bool := false
  /-- TILE_MAX as coded: tiles of up to value + 1 KiB -/
  tileMax : Nat := 0
  drain : Nat := 0
  device : Nat := 0
  grace : Nat := 0
  rank : Nat := 0
  rcv : List Rcv := []
  /-- initial position from the binding, for a restart from the manifest's start (R227) -/
  start : Pos := {}
  pos : Pos := {}
  units : List SUnit := []
  /-- tiles whose transfers are not issued while a restart fast-forwards (R227) -/
  skipTo : Nat := 0
  wait : StreamWait := .none
  /-- tide in which the stream started -/
  startTide : Nat := 0
  /-- pools held, by the order numbers of Table 05.10, each 4 × (TILE_MAX + 1) granules -/
  pools : List Nat := []
  /-- the local quay that carries a remote source -/
  quay : Nat := 0
  /-- the remote reservation is asked for; it is held; the tide since which the next reservation has been waited for -/
  asked : Bool := false
  remote : Bool := false
  waitSince : Option Nat := none
  /-- the manifest reached END, and every tile is closed -/
  ended : Bool := false
  /-- the manifest's instruction words up to its first END (R195) -/
  code : List Nat := []
  /-- position at the start of the tile in progress -/
  tileAt : Pos := {}
  /-- aborts since a tile was last accepted (R422) -/
  aborts : Nat := 0
  /-- its binding among those of its task -/
  bind : Nat := 0
  /-- halted before its binding and its manifest were read (R220, R647) -/
  fresh : Bool := false
  /-- slots of the mooring that the destination cursor has left, with the age of the next unit then (R203) -/
  left : List (Nat × Nat) := []
  /-- the model whose blocks the stream loads into the cache, and the image block in hand (R265) -/
  load : Option (Nat × Nat) := none
  deriving DecidableEq, Repr

/-- A catch-up stream that waits for a free context (R217): on a stevedore, or on any where none is named; for a task of a job's
unit, with a binding of the unit's. It begins where `stream` stands, or from its binding with a fast-forward to `tile` (R191). -/
structure CatchUp where
  stev : Option Nat
  job : Nat
  unit : Nat
  task : Nat
  owner : Nat
  bind : Nat
  tile : Nat
  stream : Option Stream
  /-- its receiver waits to be placed again (R191) -/
  unplaced : Bool
  deriving DecidableEq, Repr

/-! ### Tables, groups and cranes (07, 08) -/

/-- A live epoch of a table with its retire tide once known. -/
structure LiveEpoch where
  epoch : Nat
  retire : Option Nat
  deriving DecidableEq, Repr

/-- The device's copy of a table directory entry (Table 07.3) with its page-map roots and epochs (R337, R344). -/
structure Table where
  enabled : Bool := false
  /-- a disable waits for the table's users (R303) -/
  disabling : Bool := false
  gen : Nat := 0
  fmt : Nat := 0
  home : Nat := 0
  paritySlot : Nat := 0
  group : Nat := 0
  dim : Nat := 0
  rows : Nat := 0
  mapPages : Nat := 0
  rootCur : Nat := 0
  rootPrev : Option Nat := none
  rootChange : Nat := 0
  epoch : Nat := 0
  live : List LiveEpoch := []
  deriving DecidableEq, Repr

/-- States of a column group (Table 07.4). -/
inductive GroupState where
  | normal | degraded | lost
  deriving DecidableEq, Repr

/-- The code of Table 07.4. -/
def GroupState.code : GroupState → Nat
  | .normal => 0 | .degraded => 1 | .lost => 2

/-- The device's copy of a column-group record (Table 07.4). -/
structure Group where
  held : Bool := false
  d : Nat := 0
  state : GroupState := .normal
  lostSlot : Nat := 0
  master : Nat := 0
  slots : List Nat := []
  /-- the slot at which the record that host software wrote names this device (R549) -/
  claim : Option Nat := none
  deriving DecidableEq, Repr

/-- What a group master keeps of a table (R360). -/
structure MasterRec where
  known : Bool := false
  gen : Nat := 0
  epoch : Nat := 0
  live : List LiveEpoch := []
  deriving DecidableEq, Repr

/-- A lading part (Table 07.6). -/
structure Part where
  table : Nat
  gen : Nat
  mode : Nat
  outFmt : Nat
  idx64 : Bool
  contIn : Bool
  contOut : Bool
  attempt : Nat
  part : Nat
  firstBag : Nat
  bags : Nat
  requester : Nat
  cls : Nat
  jobRef : Nat
  epoch : Nat
  outPitch : Nat
  outAddr : Nat
  distinct : List Nat
  /-- bag entries: ordinal, count, LAST -/
  entries : List (Nat × Nat × Bool)
  /-- the reserved bits of the header and of the bag entries, as one number (R311) -/
  reserved : Nat := 0
  /-- tide in which the round that the part belongs to opened: no field of the message, but what its arrival is held against (R326) -/
  round : Nat := 0
  deriving DecidableEq, Repr

/-- Where a tally entry's record stands. -/
inductive RecState where
  | reading | rebuilding | ready | failed
  deriving DecidableEq, Repr

/-- A tally entry of a member crane (R313): its key, its total count, the units that hit, and the record. While a lost
slice is rebuilt, `copies` holds the slots whose raw copies are in and `record` the XOR so far. -/
structure Tally where
  table : Nat
  epoch : Nat
  index : Nat
  total : Nat
  st : RecState
  record : List (BitVec 8)
  /-- the record is a lost slice's, rebuilt from raw copies; the parity record is in, as read (R331) -/
  lost : Bool := false
  parityIn : Bool
  own : List (BitVec 8) := []
  copies : List Nat
  /-- devices that asked for a raw copy, with their entry numbers (R332) -/
  askers : List (Nat × Nat)
  /-- status of Table 07.9 or R323 when failed -/
  status : Nat
  cls : Nat
  /-- units of the record that missed when its read was issued, and the record where every unit hit (R269) -/
  missed : List Nat := []
  hot : Option (List (BitVec 8)) := none
  deriving DecidableEq, Repr

/-- A bag being pooled at a member: its ordinal in the part, the entries not yet added, the accumulator, the length so far. -/
structure Bag where
  ordinal : Nat
  /-- entries still to add: key of the tally entry (position in the part's distinct list) and count -/
  todo : List (Nat × Nat)
  acc : List Nat
  len : Nat
  /-- the bag goes on in the next part -/
  opened : Bool
  deriving DecidableEq, Repr

/-- A part in progress at a member crane. -/
structure MPart where
  hdr : Part
  bags : List Bag
  /-- distinct entries already inserted, and those among them that a flush has removed and a bag still needs (R316) -/
  inserted : Nat
  again : List Nat := []
  deriving DecidableEq, Repr

/-- An accumulator kept open for the part that follows part `part` of a section (CONT_OUT); with a status, that part failed. -/
structure OpenBag where
  requester : Nat
  jobRef : Nat
  table : Nat
  attempt : Nat
  part : Nat
  acc : List Nat
  len : Nat
  failed : Option Nat := none
  deriving DecidableEq, Repr

/-- A raw request that waits for room in the window (R313, R332). -/
structure RawWait where
  table : Nat
  epoch : Nat
  index : Nat
  device : Nat
  cls : Nat
  tag : Nat
  deriving DecidableEq, Repr

/-- A member crane: its window, the parts in progress and the raw requests that wait (R313 to R317). -/
structure Crane where
  window : List Tally := []
  parts : List MPart := []
  raws : List RawWait := []
  opened : List OpenBag := []
  fenced : Bool := false
  deriving DecidableEq, Repr

/-- A hot-row entry: the HBM unit it copies and its use count (R268, R270). -/
structure HotRow where
  unit : Nat
  use : Nat
  deriving DecidableEq, Repr

/-! ### Jobs, models and channel sets (10) -/

/-- A request section of a lookup block (Table 07.5) with its progress at the requester. -/
structure Section where
  table : Nat
  mode : Nat
  outFmt : Nat
  idx64 : Bool
  bags : Nat
  lenAddr : Nat
  idxAddr : Nat
  outAddr : Nat
  outPitch : Nat
  /-- tide of the exchange round the section is placed in -/
  round : Nat
  attempt : Nat
  /-- parts built by the tally, their entry-bearing bags as section bag numbers -/
  partBags : List (List Nat)
  tallied : Bool
  /-- it has been tallied, and its dropped indices counted, before (R307) -/
  counted : Bool := false
  /-- (data slot, part) pairs reported OK, by the slot or by the parity holder that stands in for it -/
  oks : List (Nat × Nat)
  /-- held under R543, and resent -/
  held : Bool
  resent : Bool
  /-- the device that served each data slot when the section was reissued -/
  servers : List (Nat × Nat)
  deriving DecidableEq, Repr

/-- Progress of one task of a unit: not yet placed, resident at (kiln, slot), evicted, or ended. -/
inductive TaskRun where
  | waiting
  | placed (kiln slot : Nat)
  | evicted
  | ended
  deriving DecidableEq, Repr

/-- A unit of an admitted job: its unit entry's fields (Table 10.5) and its tasks' progress. -/
structure UnitRun where
  /-- unit number in the image's unit table -/
  no : Nat
  after : Nat
  afterLookup : Bool
  kind : Nat
  noswitch : Bool
  program : Nat
  stride : Nat
  mooring : Nat
  binds : Nat
  firstBind : Nat
  kilnCost : Nat
  hearthCost : Nat
  dispatched : Bool
  tasks : List TaskRun
  /-- bindings whose streams have started: (task, binding) -/
  started : List (Nat × Nat) := []
  /-- multicast bindings whose streams have started -/
  shared : List (Nat × Nat) := []
  /-- first tile needed by a stream that restarts (R227) -/
  skips : Tiles := []
  deriving DecidableEq, Repr

/-- Work not yet done, per budgeted resource (R412): kiln-, hearth- and crane-cycles, HBM bytes per channel set, quay bytes
in and out. -/
structure Cost where
  kiln : Nat := 0
  hearth : Nat := 0
  crane : Nat := 0
  hbm : List (Nat × Nat) := []
  quayIn : Nat := 0
  quayOut : Nat := 0
  deriving DecidableEq, Repr

/-- The use a job makes of a history (R381 to R395): its section (Table 09.3), the stamp L0, and for an append the frames it
holds (chunk frames by chunk, and index pages added), the chunk steps not yet complete as (chunk, next layer, dispatched), and
whether the append is open. `begun` says that the section has taken its effect. -/
structure HistUse where
  hist : Nat
  gen : Nat
  op : Nat
  after : Bool
  optional : Bool
  locality : Nat
  n : Nat
  eventAddr : Nat
  trim : Nat
  begun : Bool := false
  l0 : Nat := 0
  taken : List (Nat × Nat) := []
  pages : List Nat := []
  steps : List (Nat × Nat × Bool) := []
  opened : Bool := false
  /-- the first tide in which its chunk steps may run (R390) -/
  since : Nat := 0
  /-- an index page that the section's effect reads is lost: its job ends with HISTORY_ERROR (R397) -/
  failed : Bool := false
  deriving DecidableEq, Repr

/-- Kinds of job (Table 11.6). -/
inductive JobKind where
  | run | consign
  deriving DecidableEq, Repr

/-- An admitted job. -/
structure Job where
  id : Nat
  ring : Nat
  sq : Nat
  jobRef : Nat
  kind : JobKind
  noIrq : Bool
  cls : Nat
  model : Nat
  version : Nat
  lane : Nat
  variant : Option Nat
  locality : Nat
  candidates : Nat
  indices : Nat
  admitTide : Nat
  deadline : Nat
  rank : Nat
  /-- table epochs stamped at admission (R338) -/
  stamps : List (Nat × Nat)
  sections : List Section
  lookupsDone : Bool
  hist : Option HistUse
  units : List UnitRun
  left : Cost
  clip : Nat
  total : Nat
  badIndex : Bool
  notAppended : Bool
  retried : Bool
  /-- the kiln whose fault gave the job its one kiln-fault restart (R187) -/
  kilnRestarted : Option Nat
  /-- the scoring record is written and an append with AFTER runs on (R390) -/
  scored : Bool
  cons : Option Nat
  /-- completion slots of the ring still reserved for the job (R464) -/
  slots : Nat
  /-- `DENSE_TIDES` of the variant (R411) -/
  denseTides : Nat
  /-- every unit has completed -/
  unitsDone : Bool
  deriving DecidableEq, Repr

/-- Model directory states (Table 10.11). -/
inductive ModelState where
  | absent | stored | loading | resident | removing
  deriving DecidableEq, Repr

/-- The code of Table 10.11. -/
def ModelState.code : ModelState → Nat
  | .absent => 0 | .stored => 1 | .loading => 2 | .resident => 3 | .removing => 4

/-- A registered model: its directory entry and the image header's fields (Tables 10.3 and 10.11), the class that its blocks
were placed for, and its pins. `blocks` maps a block of the image to a cache block; `oldBlocks` holds the
blocks that a retiring version still reads. -/
structure Model where
  st : ModelState := .absent
  image : Nat := 0
  version : Nat := 0
  lastAdmit : Nat := 0
  lanes : Nat := 0
  variants : Nat := 0
  locality : Nat := 0
  bytes : Nat := 0
  variantOff : Nat := 0
  unitOff : Nat := 0
  units : Nat := 0
  bindOff : Nat := 0
  binds : Nat := 0
  histOff : Nat := 0
  cls : Nat := 0
  blocks : List (Nat × Nat) := []
  pins : List Nat := []
  /-- image blocks still to load -/
  toLoad : List Nat := []
  /-- model-store copies of image blocks that a rescale swap wrote: (first version that reads it, image block, bytes) -/
  copies : List (Nat × Nat × List (BitVec 8)) := []
  retiring : Option Nat := none
  oldBlocks : List (Nat × Nat) := []
  deriving DecidableEq, Repr

/-- An evicted task: its saved context and the save frame that holds it (R428, R429). -/
structure Evicted where
  ctx : KCtx
  frame : Nat
  deriving DecidableEq, Repr

/-! ### Rings and the event ring (11) -/

/-- Ring states (Table 11.13). -/
inductive RingState where
  | stopped | running | stopping | frozen
  deriving DecidableEq, Repr

/-- The code of Table 11.13. -/
def RingState.code : RingState → Nat
  | .stopped => 0 | .running => 1 | .stopping => 2 | .frozen => 3

/-- A fetched descriptor that waits for its boundary (R40, R408): its submission index and its 64 bytes. -/
structure Desc where
  sq : Nat
  bytes : List (BitVec 8)
  deriving DecidableEq, Repr

/-- A ring (R457, R464): the four indices, the last valid producer, reserved completion slots, descriptor reads in flight,
fetched descriptors, and the unsignalled count (R479). -/
structure Ring where
  st : RingState := .stopped
  enabled : Bool := false
  prod : Nat := 0
  cons : Nat := 0
  cqProd : Nat := 0
  cqCons : Nat := 0
  reserved : Nat := 0
  /-- first index and count of each descriptor read in flight -/
  reads : List (Nat × Nat) := []
  /-- next submission index to read -/
  next : Nat := 0
  unsignalled : Nat := 0
  /-- records whose port may not send (R444, R446): 32 B each, in order, with NO_IRQ -/
  waiting : List (List (BitVec 8) × Bool) := []
  irqWaiting : Bool := false
  /-- debt not yet deducted, per engine: kiln and hearth cycles (R421) -/
  overKiln : Nat := 0
  overHearth : Nat := 0
  deriving DecidableEq, Repr

/-- The event ring (R474, R475). -/
structure EvtRing where
  prod : Nat := 0
  cons : Nat := 0
  queue : List (List (BitVec 8)) := []
  deriving DecidableEq, Repr

/-! ### Consignments (08) -/

/-- Consignment actions (Table 08.4). Addresses are byte addresses. -/
inductive Action where
  | pageWrite (big : Bool) (table lpage dst src : Nat)
  | parityDelta (big : Bool) (table lpage dst src : Nat)
  | rootSet (table root : Nat)
  | rescaleSwap (model offset count src : Nat)
  | pin (model first blocks : Nat)
  | unpin (model first blocks : Nat)
  deriving DecidableEq, Repr

/-- Where an open consignment stands at this device. -/
inductive ConsPhase where
  /-- admitted, its staging not yet judged (R350) -/
  | admitted
  | preparing
  /-- a copy stream halted under R220 (R354) -/
  | haltedCopy
  /-- every action done; a local consignment waits for its commit, a group one for its outcome -/
  | prepared
  /-- the commit tide is known, with the outcome that names it -/
  | committing (tc : Nat)
  /-- its prepare failed with a status of Table 08.6; it has rolled back and voted (R359) -/
  | failed (status : Nat)
  deriving DecidableEq, Repr

/-- A map entry or root that prepare changed, with its value before (R355). -/
inductive Undo where
  | entry (addr : Nat) (old : List (BitVec 8))
  | root (table cur : Nat) (prev : Option Nat) (change : Nat)
  deriving DecidableEq, Repr

/-- A map entry written by a prepare, kept until it retires (R369). -/
structure WroteEntry where
  table : Nat
  addr : Nat
  bytes : List (BitVec 8)
  change : Nat
  deriving DecidableEq, Repr

/-- An open consignment (R348). -/
structure Cons where
  id : Nat
  job : Nat
  scope : Bool
  group : Nat
  participants : Nat
  prepTides : Nat
  notBefore : Nat
  actions : List Action
  admitTide : Nat
  phase : ConsPhase
  /-- next action to perform -/
  next : Nat
  undo : List Undo
  wrote : List WroteEntry
  /-- blocks loaded for PIN and held (R349): (model, image block) -/
  heldBlocks : List (Nat × Nat)
  /-- blocks copied for RESCALE_SWAP (R349): model, image block, bytes, and the new cache block when the model is resident -/
  swaps : List (Nat × Nat × List (BitVec 8) × Option Nat)
  voteTide : Option Nat
  inDoubt : Bool
  deriving DecidableEq, Repr

/-- A committed consignment whose replaced pages and blocks have not all retired (R371). -/
structure Retiring where
  id : Nat
  job : Nat
  /-- tables whose superseded epoch has not retired, with that epoch -/
  tables : List (Nat × Nat)
  wrote : List WroteEntry
  /-- model versions that have not retired -/
  versions : List (Nat × Nat)
  tr : Option Nat
  deriving DecidableEq, Repr

/-- A VOTE (Table 08.7). -/
structure Vote where
  cons : Nat
  group : Nat
  sender : Nat
  slot : Nat
  status : Nat
  participants : Nat
  notBefore : Nat
  prepTides : Nat
  /-- table, TABLE_GEN and current epoch on the sender -/
  tables : List (Nat × Nat × Nat)
  deriving DecidableEq, Repr

/-- A DECISION (Table 08.7), with the new epoch of each table it names. -/
structure Decision where
  cons : Nat
  group : Nat
  status : Nat
  tc : Nat
  /-- table and new epoch -/
  tables : List (Nat × Nat)
  deriving DecidableEq, Repr

/-- Votes that a group master holds for one consignment (R360). -/
structure VoteBox where
  cons : Nat
  firstTide : Nat
  votes : List Vote
  /-- the decision, once made -/
  outcome : Option Decision
  /-- a voter was lost before the decision (Table 08.9) -/
  lost : Bool
  deriving DecidableEq, Repr

/-- A logged decision with what keeps it in the log (R361). -/
structure Logged where
  dec : Decision
  voters : List Nat
  acked : List Nat
  decided : Nat
  /-- devices whose acknowledgement of the NOTICE is outstanding, and Ta once complete -/
  noticeTo : List Nat
  tr : Option Nat
  deriving DecidableEq, Repr

/-! ### Quays and the pod (12) -/

/-- States of a quay (QUY_STATUS). -/
inductive QuayState where
  | down | training | keying | up | stopped | failed
  deriving DecidableEq, Repr

/-- The code of QUY_STATUS STATE. -/
def QuayState.code : QuayState → Nat
  | .down => 0 | .training => 1 | .keying => 2 | .up => 3 | .stopped => 4 | .failed => 5

/-- A quay: its state, whether link keys are set, and its stop in progress (R484 to R500). -/
structure Quay where
  st : QuayState := .down
  keyed : Bool := false
  /-- lanes out of use until reset (R495) -/
  dead : List Nat := []
  /-- frame counters per lane under the present keys, sent and received (R492) -/
  txFrames : Tab Nat := []
  rxFrames : Tab Nat := []
  /-- replays asked for of blocks not yet passed: lane, SEQ, replays (R486) -/
  replays : List (Nat × Nat × Nat) := []
  /-- verified frames that wait for an earlier block of their lane, by lane and the SEQ that closed them (R486), each with the
  destination and the virtual channel of its blocks for other devices (R491) -/
  held : List (Nat × Nat × List (Nat × Nat)) := []
  /-- blocks that pass through to this quay's peer and wait for a lane: what had been sent when they came, and virtual channel (R491) -/
  through : List (Nat × Nat) := []
  /-- data blocks sent for which the peer has not returned credit, by virtual channel (R487) -/
  spent : Tab Nat := []
  /-- blocks that a lane has sent since one of VC2, while one waited (R488) -/
  sinceVc2 : Tab Nat := []
  stopping : Bool := false
  deriving DecidableEq, Repr

/-- How far the output lanes have come with the messages in `out`: messages before `base` wait no more (those of before a reset), `sent`
lists those gone whole, and `part` the message, the quay and the blocks sent of those gone in part (R488, R499). -/
structure LaneOut where
  base : Nat := 0
  sent : List Nat := []
  part : List (Nat × Nat × Nat) := []
  deriving DecidableEq, Repr

/-- The quay number that stands for no alternate route. -/
def noQuay : Nat := 63

/-- A route table entry (R490). `alternate` is 63 where there is no other route. -/
structure Route where
  primary : Nat
  alternate : Nat
  hops : Nat
  altHops : Nat
  /-- the alternate is in use (R498, R500) -/
  useAlt : Bool
  deriving DecidableEq, Repr

/-- A collective channel entry (Table 12.7). -/
structure CollEntry where
  op : Nat
  scope : Nat
  group : Nat
  root : Nat
  dtype : Nat
  gate : Nat
  mask : Nat
  done : Nat
  doneBit : Nat
  bytes : Nat
  src : Nat
  dst : Nat
  list : List Nat
  deriving DecidableEq, Repr

/-- A collective channel in use: its entry, the running round and whether this device's part of it is sent, the children's
contributions by round and device, and results by round (R516 to R519). -/
structure Coll where
  entry : CollEntry
  round : Nat
  running : Bool
  sent : Bool
  disabling : Bool
  heard : List (Nat × Nat × List (BitVec 8))
  results : List (Nat × List (BitVec 8))
  /-- the device's scope in tree order (R510, R517) -/
  tree : List Nat
  deriving DecidableEq, Repr

/-- A peer frozen under R523, or on its way there: messages refused as malformed and stray answers in this tide. -/
structure Peer where
  frozen : Bool := false
  malformed : Nat := 0
  stray : Nat := 0
  lastHeard : Nat := 0
  silent : Bool := false
  deriving DecidableEq, Repr

/-- A snapshot request in progress (R521). -/
structure Snapshot where
  cut : Nat
  dest : Nat
  own : Option (List (BitVec 8))
  deriving DecidableEq, Repr

/-! ### Errors and recovery (13) -/

/-- An error in hand, in the log ring or waiting for an entry (R525, R531, R533). `job` is the job that the error touched. -/
structure Err where
  sev : Nat
  kind : Nat
  source : Nat
  unit : Nat
  addr : Nat
  syndrome : Nat
  /-- DETAIL, bytes 40 to 63 -/
  detail : List Nat
  job : Option Nat
  tide : Nat
  suspended : Bool
  /-- its unit was fenced when it was detected or at a full ring -/
  fenced : Bool
  deriving DecidableEq, Repr

/-- The count of errors of one class since reset (REPEATS), and the tide of its last severity 0 record (R526). -/
structure ErrClass where
  kind : Nat
  source : Nat
  unit : Nat
  count : Nat
  lastTide : Option Nat
  deriving DecidableEq, Repr

/-- The rebuild of a spare, on the spare (R549 to R553): the group, its lost slot, whether its pages are being copied (R550), the
page in hand, the slots whose pages are in, and their XOR so far. -/
structure Rebuild where
  group : Nat
  slot : Nat
  copying : Bool
  table : Nat
  page : Nat
  got : List Nat
  acc : List (BitVec 8)
  deriving DecidableEq, Repr

/-- The salvor (R530 to R535): the error in hand, the log ring in order of arrival, errors that wait for an entry (R533), the
counts per class, whether it is stopped by an escalation (R534), the real-time count of its last restart, and the
uncorrectable errors per HBM stack in the present tide (R545). -/
structure Salvor where
  inHand : Option Err := none
  ring : List Err := []
  waiting : List Err := []
  classes : List ErrClass := []
  stopped : Bool := false
  lastRestart : Option Nat := none
  stackErrs : List (Nat × Nat) := []
  deriving DecidableEq, Repr

/-! ### Dry dock (06, 13) -/

/-- One in-field repair entry (R283, R285). -/
structure Repair where
  kind : Nat
  unit : Nat
  macroNo : Nat
  column : Nat
  deriving DecidableEq, Repr

/-- The dry dock: destructive tests running per engine with their ways, engines stopped (Table
13.3), burned repair entries, the burn in progress, the error log (R558, oldest first), and the ways whose map entry changed
while stopped (R260, 16 × die + way). -/
structure Dock where
  destruct : List (Nat × List Nat) := []
  stopped : List Nat := []
  /-- factory entries of the fuse repair image, the in-field entries burned, and the entries in force since start-up (R283 to R285) -/
  factory : List Repair := []
  burned : List Repair := []
  inForce : List Repair := []
  /-- berth macros that failed at start-up (R288) -/
  berthsFailed : List Repair := []
  burn : Option Repair := none
  /-- rows whose pass was aborted, by engine and first address of the row (R279) -/
  retry : List (Nat × Nat) := []
  elog : List (List (BitVec 8)) := []
  changedWays : List Nat := []
  /-- ways held stopped by a fence until reset (Table 13.3) -/
  heldWays : List Nat := []
  deriving DecidableEq, Repr

/-! ### Customs, power, pilot and lighthouse (14, 15) -/

/-- An owner policy (Table 14.6). -/
structure Policy where
  ideRequired : Bool := false
  /-- bit per lifecycle value -/
  lifecycles : Nat := 0b01100
  noD2 : Bool := true
  minVersions : List Nat := [0, 0, 0, 0, 0]
  deriving DecidableEq, Repr

/-- A firmware image as customs judges it (Table 14.5, R564): its class, version, `COMMIT`, key pair, a name for its contents,
whether the header holds a reserved encoding, whether `DIGEST` matches and both signatures verify, and its policy fields when
it is an owner policy. -/
structure Image where
  cls : Nat
  secVersion : Nat
  commit : Bool
  keyIndex : Nat
  content : Nat
  reserved : Bool
  digestOk : Bool
  signedOk : Bool
  policy : Policy
  deriving DecidableEq, Repr

/-- A flash bank of an image class (R598): `verified` after a transfer whose image customs accepted, `pending` once activated. -/
inductive BankState where
  | empty | valid | verified | pending | invalid
  deriving DecidableEq, Repr

structure Bank where
  image : Option Image := none
  st : BankState := .empty
  deriving DecidableEq, Repr

/-- The two banks of a class and which one is active. -/
structure Flash where
  bank0 : Bank := {}
  bank1 : Bank := {}
  active : Bool := false
  deriving DecidableEq, Repr

/-- An SPDM session (R568): its number, the transport that opened it, whether FINISH completed it, and mutual authentication. -/
structure Session where
  id : Nat
  transport : Nat
  finished : Bool
  mutualAuth : Bool
  /-- key updates so far -/
  updates : Nat
  deriving DecidableEq, Repr

/-- Customs: fuses (lifecycle, tamper count, rollback counters, owner key hash, revoked key pairs), keys held, sessions, the
nonce in force, measurement slots, and what a requester has negotiated per transport. -/
structure Customs where
  lifecycle : Nat := 1
  tamper : Nat := 0
  counters : List Nat := [0, 0, 0, 0, 0, 0]
  ownerHash : Option Nat := none
  revoked : List Nat := []
  /-- identity and alias keys, and the DRBG's state, are held -/
  identity : Bool := false
  drbg : Bool := false
  /-- times the DRBG was seeded, and values drawn from it -/
  seeds : Nat := 0
  drawn : Nat := 0
  /-- ports that hold IDE keys -/
  ide : List Nat := []
  sessions : List Session := []
  nextSession : Nat := 1
  nonce : Option Nat := none
  slots : List Nat := [0, 0, 0, 0, 0, 0, 0]
  policy : Policy := {}
  /-- SPDM connection state per transport: 1 version, 2 capabilities, 3 algorithms negotiated -/
  spdm : List (Nat × Nat) := []
  /-- chunks of a large request held per transport, and of a large response not yet fetched -/
  chunksIn : List (Nat × List (List (BitVec 8))) := []
  chunksOut : List (Nat × List (List (BitVec 8))) := []
  deriving DecidableEq, Repr

/-- Where the device is powered (Table 14.12); Full and Damped differ by the clock step alone (R581). -/
inductive PowerMode where
  | run | banked | smoulder | off
  deriving DecidableEq, Repr

/-- Power and the lighthouse's latches: the mode, sites under a hot or shutdown trip, the forced 0.4 GHz step (R587), input
trips in force, the tamper latch (R563), the hot-swap switch, MOD_EN, `D2_SINCE_POWER`, the free tide that resumes at wake
(R580), and the registers mirrored at entry to Banked (R589) as (BAR0 offset, value). -/
structure Power where
  mode : PowerMode := .run
  hot : List Nat := []
  shut : List Nat := []
  forced : Bool := false
  uv : Bool := false
  ov : Bool := false
  tamperLatch : Bool := false
  switchClosed : Bool := true
  modEn : Bool := true
  d2SincePower : Bool := false
  tideResumes : Bool := false
  mirrors : List (Nat × Nat) := []
  /-- the quays are not yet at full rate after a wake (R580) -/
  warming : Bool := false
  /-- the lighthouse has input power (R583) -/
  lighthouse : Bool := true
  /-- the next start-up is a cold start (Table 15.8) -/
  cold : Bool := false
  /-- a release of MOD_EN waits for a fuse burn (Table 17.4) -/
  offWaits : Bool := false
  deriving DecidableEq, Repr

/-- Limits in force in the harbourmaster (R31, R593, R595). `kilns` is none until the pilot has written a limit. -/
structure Limits where
  step : Nat := 0
  kilns : Option (Nat × Nat) := none
  scale : Nat := 64
  deriving DecidableEq, Repr

/-- A join profile (R606). -/
structure Profile where
  podCfg : Nat
  peers : List Nat
  tideCfg : Nat
  epochCfg : Nat
  deriving DecidableEq, Repr

/-- A request that waits for the next tick's MCTP duty (R597): its transport, its kind, and its body. -/
structure MctpRequest where
  transport : Nat
  kind : Nat
  body : List Nat
  deriving DecidableEq, Repr

/-- The pilot: limits in force, ticks since a relax condition failed, real-time counts of its restarts, the real-time counts
of device resets for severity 3, the persistent log (oldest first), error records copied so far, the start-up log, the join
profile, firmware banks by class 1 to 6, a component transfer in progress, MCTP requests to serve, a severity 3 error to act
on, what the last tick measured, and the tide shadow's last copy (tide, real-time count). -/
structure Pilot where
  limits : Limits := {}
  relax : Nat := 0
  restarts : List Nat := []
  sev3Resets : List Nat := []
  log : List (List (BitVec 8)) := []
  copied : Nat := 0
  startLog : List (List (BitVec 8)) := []
  profile : Option Profile := none
  flash : Tab Flash := []
  transfer : Option Nat := none
  /-- a severity 3 error is to be acted on (R602) -/
  sev3 : Bool := false
  /-- tide and real-time count of the shadow's last copy (R585) -/
  shadowTide : Nat := 0
  shadowAt : Nat := 0
  /-- mean input power in mW, and the rails' power in W, over the last tick -/
  power : Nat := 0
  rails : List Nat := []
  requests : List MctpRequest := []
  /-- a limit was written and takes effect at the next boundary (R31) -/
  wrote : Bool := false
  /-- a device reset waits for a fuse burn (R612) -/
  resetWaits : Bool := false
  deriving DecidableEq, Repr

/-! ### Joining (12) -/

/-- A link of the pod: a device and its quay, and the peer device and quay (R490). -/
structure Link where
  dev : Nat
  quay : Nat
  peer : Nat
  peerQuay : Nat
  deriving DecidableEq, Repr

/-- A JOIN request with the device's links and its attestation evidence (R503, R567). -/
structure JoinRequest where
  device : Nat
  periodSteps : Nat
  grace : Nat
  podId : Nat
  standby : Bool
  standbyOk : Bool
  links : List Link
  signedOk : Bool
  ownerHash : Option Nat
  lifecycle : Nat
  d2 : Bool
  versions : List Nat
  deriving DecidableEq, Repr

/-- The pod master's answer to a JOIN request: a reason of Table 12.5, or 0 with the pod's tide, its size table, generation and
live devices. -/
structure JoinAnswer where
  code : Nat
  tide : Nat
  size : Nat
  gen : Nat
  members : List Nat
  deriving DecidableEq, Repr

/-! ### The pod (12) -/

/-- What the pod role of a device holds: members (on the master and its mirror), the collective tree in force and the one
before it with the boundary of the change (R510, R511), the present standby, losses and leaves to apply at the next boundary,
who reported silence about whom, devices ready for a tide stop, the hold's phase, refused joins to serve, and whether the
local tide still has markers. -/
structure Pod where
  members : List Nat := []
  tree : List Nat := []
  prevTree : List Nat := []
  treeTide : Nat := 0
  /-- devices to remove at the next boundary (R506) -/
  leaving : List Nat := []
  /-- devices admitted, to add to the pod at the next boundary (R503) -/
  arriving : List JoinRequest := []
  /-- links of the other devices, as they told at their join -/
  links : List Link := []
  /-- members that may be named standby (R508) -/
  standbys : List Nat := []
  /-- routes are to be computed again at the next boundary (R490, R498) -/
  reroute : Bool := false
  /-- (reporter, silent device) pairs on the pod master -/
  silence : List (Nat × Nat) := []
  /-- slot losses to apply at the next boundary: (device, group, slot) -/
  slotLosses : List (Nat × Nat × Nat) := []
  /-- slot replacements to apply at the next boundary: (group, slot, spare) -/
  replaces : List (Nat × Nat × Nat) := []
  /-- groups whose parts this device does not answer until a change of state applies (Table 13.6) -/
  muted : List Nat := []
  /-- a join is asked for, and its request is sent (R503) -/
  joining : Bool := false
  requested : Bool := false
  /-- heartbeats are withdrawn (R513) -/
  withdrawn : Bool := false
  /-- the device is leaving: waits for its jobs (R504) -/
  leave : Bool := false
  /-- consecutive tides without a marker, and the correction of the next period in ns (R513) -/
  noMarker : Nat := 0
  correction : Int := 0
  /-- hold arrived; ready reported; stop tide named; the tide is held (R613) -/
  hold : Bool := false
  held : Bool := false
  /-- the hold is to end as soon as the tide has stopped -/
  release : Bool := false
  readySent : Bool := false
  stopAt : Option Nat := none
  readies : List Nat := []
  stopSent : Bool := false
  snapshot : Option Snapshot := none
  /-- cut tides asked for at this device, with the destination on the master -/
  cuts : List (Nat × Nat) := []
  /-- neither pod master nor standby lives (R509) -/
  leaderless : Bool := false
  /-- decision log mirrored to the standby (R507) -/
  mirror : List Logged := []
  deriving DecidableEq, Repr

/-! ### Messages -/

/-- A message between devices, over the quays. -/
inductive Net where
  -- lookups (07)
  | ladingPart (p : Part)
  | pooledSlice (jobRef table part bag slot attempt : Nat) (data : List (BitVec 8))
  | partDone (jobRef table part slot status attempt : Nat) (pressure : Bool)
  | rawRequest (table gen epoch index slot cls tag : Nat)
  | rawCopy (table index tag status slot : Nat) (data : List (BitVec 8))
  -- consignments (08)
  | vote (v : Vote)
  | decision (d : Decision) (late : Bool)
  | notice (d : Decision)
  | retireAt (cons tr : Nat)
  | query (cons group device : Nat)
  | ack (cons group slot device : Nat)
  | epochRequest (table gen group epoch0 device : Nat)
  | epochAnswer (table epoch : Nat) (live : List LiveEpoch) (state lostSlot : Nat) (slots : List Nat)
  -- streams (05)
  | reserve (device stream granules : Nat)
  | reserveGrant (stream : Nat)
  | reserveRelease (device stream : Nat)
  | readRequest (stream unit addr len dry rate cls rank : Nat)
  | readData (stream unit dry rate cls rank : Nat) (data : List (BitVec 8))
  | writeUnit (stream unit addr dry rate cls rank : Nat) (data : List (BitVec 8))
  | writeAck (stream unit : Nat)
  | waitProbe (stream : Nat) (chain : List (Nat × Nat × Nat))
  -- pods (12)
  | join (device : Nat)
  | joinAnswer (a : JoinAnswer)
  | leave (device : Nat)
  | heartbeat (device tide gen : Nat)
  | silence (device reporter : Nat)
  | lost (device gen : Nat)
  | takeover (device : Nat)
  | marker (tide delay : Nat)
  | delayProbe (quay : Nat)
  | routes (device : Nat) (table : List (Nat × Route))
  | mirrored (log : List Logged) (members standbys : List Nat) (links : List Link) (size : Nat)
  | podSize (size : Nat)
  | collUp (channel round device : Nat) (data : List (BitVec 8))
  | collDown (channel round : Nat) (data : List (BitVec 8))
  | snapRequest (cut : Nat)
  | snapRecord (device : Nat) (bytes : List (BitVec 8))
  | podReset
  | hold (on : Bool)
  | ready (device : Nat)
  | stopAt (tide : Nat)
  | resume (tide steps grace : Nat)
  | quayFailed (device quay : Nat)
  -- recovery (13)
  | slotsLost (device group slot : Nat)
  | slotLoss (device group slot : Nat)
  | rebuildStart (group slot device : Nat)
  | rebuildDone (group slot device : Nat)
  | slotReplace (group slot device : Nat)
  | rebuildEnd (group : Nat)
  | pageRequest (table page slot device : Nat)
  | page (table page slot : Nat) (data : List (BitVec 8))
  deriving DecidableEq, Repr

/-- What the device sends out: interrupts and reads over PCIe, answers to accesses, messages to other devices (with their
virtual channel), link-control traffic of a quay lane, SPDM, PLDM and MCTP answers, and the sideband pins. -/
inductive Msg where
  | irq (port vector : Nat)
  | descRead (ring first count : Nat)
  | value (port : Nat) (v : Nat)
  | data (port : Nat) (bytes : List (BitVec 8))
  /-- good words of a read through the aperture, at a device address, beside poisoned ones -/
  | dataAt (port addr : Nat) (bytes : List (BitVec 8))
  | poisoned (addr : Nat)
  /-- the response to a warehouse read, and the refusal of a warehouse access -/
  | response (addr : Nat) (bytes : List (BitVec 8))
  | accessRefused (addr : Nat)
  | completerAbort (port : Nat)
  | allOnes (port : Nat)
  | net (dst vc : Nat) (m : Net)
  | broadcast (m : Net)
  | replayRequest (quay lane seq : Nat)
  | replayBlock (quay lane seq : Nat)
  | deliver (quay lane seq : Nat)
  /-- a lane sends a block: of the message at a place of what is sent, or of the traffic that passes through -/
  | block (quay lane vc : Nat) (message : Option Nat)
  | idleBlocks (quay lane count : Nat)
  | newKey (quay : Nat)
  | spdm (transport : Nat) (code : Nat) (body : List Nat)
  | pldmEvent (code arg : Nat)
  | mctp (transport : Nat) (body : List Nat)
  | dark (quay : Nat)
  /-- the metadata trace of the debug port (Table 14.10): 1 an admission, 2 a refusal, 3 a dispatch, 4 a halt, 5 an error; ring, `JOB_REF`,
  unit and tide -/
  | trace (kind ring jobRef unit tide : Nat)
  deriving DecidableEq, Repr

/-! ### Further parts of the state -/

/-- A cached window translation (R455): the window entry, the port, the host page, and whether writes are allowed. -/
structure WinPage where
  entry : Nat
  port : Nat
  page : Nat
  write : Bool
  deriving DecidableEq, Repr

/-- A fetched descriptor in order of fetch completion (R408). -/
structure Fetched where
  ring : Nat
  desc : Desc
  /-- its fetch was complete at the last boundary at which admission ran (R40) -/
  due : Bool := false
  deriving DecidableEq, Repr

/-- A VC0 message sent and not yet acknowledged end to end (Table 12.4). -/
structure Unacked where
  number : Nat
  dst : Nat
  msg : Net
  deriving DecidableEq, Repr

/-- A receive-buffer reservation that another device holds at a quay of this one (R229). -/
structure RemoteHold where
  quay : Nat
  device : Nat
  stream : Nat
  granules : Nat
  deriving DecidableEq, Repr

/-- History frames to return once no job of the list remains (R394). -/
structure Deferred where
  hist : Nat
  frames : List Nat
  /-- index pages dropped with them -/
  pages : List Nat
  readers : List Nat
  deriving DecidableEq, Repr

/-- An append whose last chunk step has completed, visible at the next boundary (R386). -/
structure Appended where
  hist : Nat
  events : Nat
  deriving DecidableEq, Repr

/-- An evicted task with the save frame that holds its context (R428). -/
structure EvictedTask where
  job : Nat
  unit : Nat
  task : Nat
  body : Evicted
  deriving DecidableEq, Repr

/-- The harbourmaster's counts of one tide: the allowance used (R415), member reads of C0 and C1 parts, consecutive quiet
tides, and pressure (R416, R417); kiln waits at the last boundary (R437); memory budget deductions per (class, engine) of the
tide (R421). -/
structure TideCounts where
  allowUsed : Nat := 0
  /-- descriptors tested at the tide's boundary (R408) -/
  tested : Nat := 0
  memberReads : Nat := 0
  quiet : Nat := 0
  pressureSent : Bool := false
  pressureSeen : Bool := false
  chargeWait : Nat := 0
  lookupWait : Nat := 0
  deducted : List (Nat × Nat × Nat) := []
  /-- `HMR_MODE` was written and the restart of R432 is to come -/
  modeWritten : Bool := false
  /-- the index cut of the tide's round has passed (R326) -/
  cut : Bool := false
  /-- rows that each march engine has visited in the tide (R278) -/
  rowsPort : Nat := 0
  rowsStbd : Nat := 0
  /-- bytes that passed through the device since the last boundary (R491) -/
  forwarded : Nat := 0
  /-- hearth-cycles of the C1 units and chunk steps dispatched in the tide (R391) -/
  hearthC1 : Nat := 0
  /-- the clock was stopped for a step change at this tide's boundary (R33) -/
  clockStop : Bool := false
  deriving DecidableEq, Repr

/-! ### Operands that commands carry -/

/-- What a group master answers about a table (R346). -/
structure EpochInfo where
  epoch : Nat
  live : List LiveEpoch
  state : Nat
  lostSlot : Nat
  slots : List Nat
  deriving DecidableEq, Repr

/-- An unlock token as customs judges it (Table 14.11, R575). `viaSession` is the session that carried it, none for the
debug port. -/
structure Token where
  reserved : Bool
  level : Nat
  lifecycle : Nat
  keyIndex : Nat
  deviceOk : Bool
  nonce : Option Nat
  signedOk : Bool
  viaSession : Option Nat
  deriving DecidableEq, Repr

/-- What the tests of one start-up find (Table 15.8): self-test results, the repair image, warehouse macros that fail after
repair, kilns, cranes and stevedores that fail per die, stacks that fail, the bin and stepping fused, the quays of a join profile that
train, a comparator trip on the way (step at which, 0 for none), and whether host software cleared `AUTO` of `DDK_REPAIR_CFG` between
steps 2 and 4 (R605, R286). -/
structure StartReport where
  bin : Nat
  stepping : Nat
  selfTestOk : Bool
  repairImageOk : Bool
  /-- factory entries of the fuse repair image (R283) -/
  factory : List Repair := []
  /-- failing columns: kind, unit, macro, column, and whether the macro passes once its entry is burned for it -/
  macros : List (Repair × Bool)
  kilnsFail : Nat × Nat
  cranesFail : Nat × Nat
  stevedoresFail : Nat × Nat
  stacksFail : List Nat
  quaysUp : List Nat
  trip : Nat
  autoOff : Bool := false
  deriving DecidableEq, Repr

/-! ### Operands of commands that belong together -/

/-- A stevedore's turn to grant a tag, and the time in ns at which it comes (R212). -/
structure TagTurn where
  stevedore : Nat
  now : Nat
  deriving DecidableEq, Repr

/-- A row of the LAYER at an address (R155). -/
structure RowAt where
  layer : Nat
  row : Nat
  deriving DecidableEq, Repr

/-- Who reads from the warehouse: a job's stream, or the debug port, which has no job (R257). -/
structure ReadBy where
  job : Nat
  debug : Bool
  deriving DecidableEq, Repr

/-- Who writes to the warehouse: a class, or the debug port, which no `CLASSES` bind (R257). -/
structure WriteBy where
  cls : Nat
  debug : Bool
  deriving DecidableEq, Repr

/-- A member of a group, by its slot and its device. -/
structure MemberAt where
  slot : Nat
  device : Nat
  deriving DecidableEq, Repr

/-- What an ACK names (Table 08.7): the consignment, the group, and the sender's slot, 63 for none. -/
structure AckOf where
  cons : Nat
  group : Nat
  slot : Nat
  deriving DecidableEq, Repr

/-- A chunk, and the unit of the image whose program its step runs (R387). -/
structure StepOf where
  chunk : Nat
  unit : Nat
  deriving DecidableEq, Repr

/-- A chunk, with the keys and values and the outputs that its step's program computed (R389). -/
structure StepResult where
  chunk : Nat
  kv : List (BitVec 8)
  out : List (BitVec 8)
  deriving DecidableEq, Repr

/-- What a block brings besides its data: whether it closes its frame, the destination and the virtual channel of the frame's blocks
for other devices (R491), and the credit that it returns, for one virtual channel (R487). -/
structure BlockEnd where
  closes : Bool
  through : List (Nat × Nat)
  crVc : Nat
  crBlocks : Nat
  deriving DecidableEq, Repr

/-- What the arbiters order a read by: its dry instant as numerator and denominator, denominator 0 for bulk, its class and its rank
(R212). -/
structure ReadOrder where
  dry : Nat
  rate : Nat
  cls : Nat
  rank : Nat
  deriving DecidableEq, Repr

end Sys2Proof.Machine
end

