-- ==== Sys2Proof/Word.lean ====
section
/-! DEFINITION. Bytes, little-endian numbers (R3) and bit fields of numbers. -/

namespace Sys2Proof

/-- A byte. -/
abbrev Byte := BitVec 8

/-- The number that a list of bytes spells, little-endian (R3). -/
def leNat : List Byte → Nat
  | [] => 0
  | b :: t => b.toNat + 256 * leNat t

/-- The n bytes of v, little-endian (R3). -/
def leBytes : Nat → Nat → List Byte
  | 0, _ => []
  | n + 1, v => BitVec.ofNat 8 v :: leBytes n (v / 256)

/-- Bits [lo + w − 1 : lo] of v. -/
def bits (v lo w : Nat) : Nat := v / 2 ^ lo % 2 ^ w

/-- Bit i of v. -/
def bit (v i : Nat) : Bool := v / 2 ^ i % 2 == 1

/-- 1 for true, 0 for false. -/
def b2n (b : Bool) : Nat := if b then 1 else 0

/-- The number n of `w` bits read as two's complement. -/
def toSigned (w n : Nat) : Int := if n % 2 ^ w < 2 ^ (w - 1) then (n % 2 ^ w : Nat) else (n % 2 ^ w : Nat) - (2 ^ w : Nat)

/-- v with bit i set to b. -/
def putBit (v i : Nat) (b : Bool) : Nat := if b then v ||| 2 ^ i else if bit v i then v - 2 ^ i else v

/-- The little-endian number in bytes [i, i + n) of a structure. -/
def fieldOf (bs : List Byte) (i n : Nat) : Nat := leNat ((bs.drop i).take n)

/-- The quotient rounded up. -/
def ceilDiv (a b : Nat) : Nat := (a + b - 1) / b

/-- a rounded up to a multiple of b. -/
def roundUp (a b : Nat) : Nat := ceilDiv a b * b

/-- Numbers whose bits are set among the low n bits of v, rising. -/
def bitsOf (n v : Nat) : List Nat := (List.range n).filter fun i => bit v i

end Sys2Proof
end

