-- ==== Sys2Proof/Syntax.lean ====
section
/-! DEFINITION. The commands: one constructor per row of the command table, in its order. The docstring of each is the
row's rule; what each does stands in Sys2Proof/Machine. Operands that carry what an outside party sends (a message, a value
written, the data of an access) or what time and physics decide (cycles waited, test outcomes) are named for it. -/

namespace Sys2Proof

open Sys2Proof.Machine

/-- A command of the block. -/
inductive Instr where
  /-- TIDE_BOUNDARY (R39) -/
  | tideBoundary (sat : Nat) (overruns : List (Nat × Nat × Nat))
  /-- EPOCH_RETIRE (R369) -/
  | epochRetire (cons : Nat)
  /-- MODEL_VERSION_RETIRE (R370) -/
  | modelVersionRetire (model version : Nat)
  /-- DESCRIPTOR_FETCH (R463) -/
  | descriptorFetch (ring : Nat)
  /-- DESCRIPTOR_READ_COMPLETE (R465) -/
  | descriptorReadComplete (ring : Nat) (ok : Bool)
  /-- RUN (R466) -/
  | run (ring sq : Nat)
  /-- CONSIGN (R466) -/
  | consign (ring sq : Nat)
  /-- NOP (R469) -/
  | nop (ring sq : Nat)
  /-- INTERRUPT_COALESCE_TIMEOUT (R479) -/
  | interruptCoalesceTimeout (ring : Nat)
  /-- MSIX_UNMASK (R480) -/
  | msixUnmask (port vector : Nat)
  /-- JOB_DEADLINE (R410) -/
  | jobDeadline (job : Nat)
  /-- UNIT_DISPATCH (R418) -/
  | unitDispatch (job unit : Nat)
  /-- STREAM_START (R189) -/
  | streamStart (stream job unit task bind : Nat)
  /-- RESERVATION_TAKE (R229) -/
  | reservationTake (stream : Nat)
  /-- REMOTE_RESERVATION_GRANT (R229) -/
  | remoteReservationGrant (quay device stream granules : Nat)
  /-- MANIFEST_END (R196) -/
  | manifestEnd (stream : Nat)
  /-- LOOP (R196) -/
  | loop (stream : Nat)
  /-- STRIDE (R196) -/
  | stride (stream : Nat)
  /-- EMIT (R198) -/
  | emit (stream : Nat)
  /-- GATHER (R196) -/
  | gather (stream : Nat)
  /-- ALIGN (R196) -/
  | align (stream : Nat)
  /-- WAITSLOT_SLOT (R199) -/
  | waitslotSlot (stream : Nat)
  /-- WAITSLOT_BARRIER (R199) -/
  | waitslotBarrier (stream : Nat)
  /-- WAITSLOT_REREAD (R199) -/
  | waitslotReread (stream : Nat)
  /-- SIGNAL (R200) -/
  | signal (stream : Nat)
  /-- TAG_GRANT (R212) -/
  | tagGrant (turn : TagTurn)
  /-- READY_BIT_SET (R203) -/
  | readyBitSet (stream receiver slot : Nat)
  /-- TILE_ACCEPT (R201) -/
  | tileAccept (stream receiver : Nat)
  /-- STREAM_END (R193) -/
  | streamEnd (stream : Nat)
  /-- RECEIVER_DETACH (R216) -/
  | receiverDetach (stream receiver : Nat)
  /-- CATCHUP_STREAM_START (R217) -/
  | catchupStreamStart (stevedore : Nat)
  /-- STREAM_FAULT (R220) -/
  | streamFault (stream unit reason : Nat)
  /-- RESUME_STREAM (R223) -/
  | resumeStream (word : Nat)
  /-- RESUME_KILN_TASK (R477) -/
  | resumeKilnTask (task reserved gen : Nat)
  /-- MUTUAL_WAIT_PROBE (R230) -/
  | mutualWaitProbe (stream : Nat) (chain : List (Nat × Nat × Nat))
  /-- LAYER (R150) -/
  | layer (kiln slot : Nat)
  /-- BANK_EXCHANGE (R85) -/
  | bankExchange (kiln chargeWait lookupWait : Nat)
  /-- TASK_SWITCH (R165) -/
  | taskSwitch (kiln cycles : Nat)
  /-- ROW_WATERMARK_ADVANCE (R155) -/
  | rowWatermarkAdvance (kiln slot : Nat) (row : RowAt)
  /-- LOADPIN (R178) -/
  | loadpin (kiln slot : Nat)
  /-- SWAP (R163) -/
  | swap (kiln slot : Nat)
  /-- ARRIVE (R180) -/
  | arrive (kiln slot : Nat)
  /-- WAITBAR (R181) -/
  | waitbar (kiln slot : Nat)
  /-- WAITBAR_REREAD (R181) -/
  | waitbarReread (kiln slot : Nat)
  /-- CLEARBAR (R182) -/
  | clearbar (kiln slot : Nat)
  /-- KILN_END (R142) -/
  | kilnEnd (kiln slot : Nat)
  /-- HMUL (R174) -/
  | hmul (kiln slot wait : Nat) (lost : List Nat)
  /-- HVEC (R176) -/
  | hvec (kiln slot : Nat) (lost : List Nat)
  /-- KILN_FAULT (R184) -/
  | kilnFault (kiln source : Nat)
  /-- KILN_PROGRESS_TIMEOUT (R184) -/
  | kilnProgressTimeout (kiln : Nat)
  /-- TASK_RESTART (R185) -/
  | taskRestart (job unit task kiln slot base slots : Nat)
  /-- NOSWITCH_VIOLATION (R422) -/
  | noswitchViolation (kiln slot : Nat)
  /-- TASK_EVICT (R428) -/
  | taskEvict (kiln : Nat)
  /-- EVICTED_TASK_RETURN (R429) -/
  | evictedTaskReturn (job unit task kiln slot base slots : Nat)
  /-- WAREHOUSE_READ (R241) -/
  | warehouseRead (addr len : Nat) (who : ReadBy) (upsets : List (Nat × Bool))
  /-- WAREHOUSE_WRITE (R240) -/
  | warehouseWrite (addr : Nat) (who : WriteBy) (data : List Byte)
  /-- BIT_SET_WRITE (R243) -/
  | bitSetWrite (addr : Nat) (who : WriteBy) (data : List Byte)
  /-- BIT_CLEAR_WRITE (R243) -/
  | bitClearWrite (addr : Nat) (who : WriteBy) (data : List Byte)
  /-- WAY_STOP (R258) -/
  | wayStop (die way : Nat)
  /-- WAY_STOPPED (R258) -/
  | wayStopped (die way : Nat)
  /-- MODEL_BLOCK_MOVE (R267) -/
  | modelBlockMove (die way : Nat)
  /-- WAY_RESTART (R260) -/
  | wayRestart (die way : Nat)
  /-- DESTRUCT_START (R276) -/
  | destructStart (engine : Nat)
  /-- DESTRUCTIVE_TEST_DONE (R277) -/
  | destructiveTestDone (engine : Nat) (fault : Bool)
  /-- PRESERVING_PASS (R278) -/
  | preservingPass (engine addr : Nat) (failed : Bool) (column : Nat) (lost : List Nat)
  /-- MARCH_PASS_ABORT (R279) -/
  | marchPassAbort (engine addr : Nat) (lost : List Nat)
  /-- REPAIR_BURN (R285) -/
  | repairBurn (kind unit macroNo column : Nat)
  /-- REPAIR_BURN_DONE (R285) -/
  | repairBurnDone
  /-- TABLE_ENABLE (R301) -/
  | tableEnable (table : Nat) (answer : Option EpochInfo)
  /-- TABLE_DISABLE (R303) -/
  | tableDisable (table : Nat)
  /-- TABLE_DISABLE_DONE (R303) -/
  | tableDisableDone (table : Nat)
  /-- SECTION_TALLY (R309) -/
  | sectionTally (job sect : Nat)
  /-- LADING_PART (R314) -/
  | ladingPart (part : Part)
  /-- INDEX_CUT (R326) -/
  | indexCut
  /-- RECORD_READ_RETURN (R318) -/
  | recordReadReturn (crane entry : Nat)
  /-- POOLED_SLICE (R322) -/
  | pooledSlice (jobRef table part bag slot attempt : Nat) (data : List Byte)
  /-- PART_DONE (R323) -/
  | partDone (jobRef table part slot status attempt : Nat) (pressure : Bool)
  /-- SLICE_PRESSURE_MARK (R416) -/
  | slicePressureMark
  /-- RAW_REQUEST (R332) -/
  | rawRequest (table gen epoch index device cls tag : Nat)
  /-- RAW_COPY (R333) -/
  | rawCopy (crane entry : Nat) (sender : MemberAt) (status : Nat) (data : List Byte)
  /-- CONSIGNMENT_PREPARE (R349) -/
  | consignmentPrepare (cons : Nat)
  /-- PAGE_WRITE (R349) -/
  | pageWrite (cons : Nat)
  /-- PARITY_DELTA (R352) -/
  | parityDelta (cons : Nat)
  /-- ROOT_SET (R349) -/
  | rootSet (cons : Nat)
  /-- RESCALE_SWAP (R349) -/
  | rescaleSwap (cons : Nat)
  /-- PIN (R349) -/
  | pin (cons : Nat)
  /-- UNPIN (R349) -/
  | unpin (cons : Nat)
  /-- PREPARE_DONE (R359) -/
  | prepareDone (cons : Nat)
  /-- PREPARE_TIMEOUT (R354) -/
  | prepareTimeout (cons : Nat)
  /-- VOTE (R358) -/
  | vote (vote : Vote)
  /-- VOTE_TIMEOUT (R360) -/
  | voteTimeout (cons : Nat)
  /-- DECISION_TO_POD_MASTER (R361) -/
  | decisionToPodMaster (decision : Decision) (voters : List Nat)
  /-- DECISION (R364) -/
  | decision (decision : Decision) (late : Bool)
  /-- NOTICE (R362) -/
  | notice (decision : Decision)
  /-- RETIRE_AT (R368) -/
  | retireAt (cons tr : Nat)
  /-- QUERY (R365) -/
  | query (cons group device : Nat)
  /-- ACK (R364) -/
  | ack (of : AckOf) (device : Nat)
  /-- IN_DOUBT_TIMEOUT (R364) -/
  | inDoubtTimeout (cons : Nat)
  /-- VC0_RESEND (R498) -/
  | vc0Resend
  /-- HISTORY_READ (R382) -/
  | historyRead (job : Nat)
  /-- HISTORY_APPEND (R383) -/
  | historyAppend (job : Nat)
  /-- HISTORY_CREATE (R383) -/
  | historyCreate (job : Nat)
  /-- HISTORY_TRIM (R392) -/
  | historyTrim (job : Nat)
  /-- HISTORY_RELEASE (R393) -/
  | historyRelease (job : Nat)
  /-- HISTORY_FREE (R393) -/
  | historyFree (hist : Nat)
  /-- FRAME_RETURN (R394) -/
  | frameReturn (hist : Nat)
  /-- CHUNK_STEP (R387) -/
  | chunkStep (job : Nat) (step : StepOf)
  /-- CHUNK_STEP_COMPLETE (R389) -/
  | chunkStepComplete (job : Nat) (result : StepResult)
  /-- HISTORY_APPEND_FAIL (R395) -/
  | historyAppendFail (job : Nat)
  /-- HISTORY_STOP (R398) -/
  | historyStop
  /-- HISTORY_STOPPED (R398) -/
  | historyStopped
  /-- HISTORY_START (R399) -/
  | historyStart
  /-- MODEL_ADD (R430) -/
  | modelAdd (model : Nat)
  /-- MODEL_REMOVE (R430) -/
  | modelRemove (model : Nat)
  /-- MODEL_REMOVED (R430) -/
  | modelRemoved (model : Nat)
  /-- MODEL_LOAD_DONE (R431) -/
  | modelLoadDone (model : Nat)
  /-- MODEL_BLOCK_RELOAD (R539) -/
  | modelBlockReload (model block job : Nat)
  /-- ADMISSION_STOP (R433) -/
  | admissionStop
  /-- ADMISSION_DRAINED (R433) -/
  | admissionDrained
  /-- ADMISSION_START (R433) -/
  | admissionStart
  /-- CHSET_STOP (R436) -/
  | chsetStop (set : Nat)
  /-- CHSET_RESTART (R436) -/
  | chsetRestart (set : Nat)
  /-- FREEZE_RESET_RING (R483) -/
  | freezeResetRing (ring : Nat)
  /-- FREEZE_RESET_STREAM (R424) -/
  | freezeResetStream (stream : Nat)
  /-- FREEZE_RESET_KILN_TASK (R424) -/
  | freezeResetKilnTask (task : Nat)
  /-- FREEZE_RESET_PEER (R524) -/
  | freezeResetPeer (device : Nat)
  /-- SQ_PRODUCER (R459) -/
  | sqProducer (ring value : Nat)
  /-- CQ_CONSUMER (R460) -/
  | cqConsumer (ring value : Nat)
  /-- EVENT_RING_CONSUMER (R474) -/
  | eventRingConsumer (value : Nat)
  /-- BAR2_BAD_WRITE (R458) -/
  | bar2BadWrite (offset size : Nat)
  /-- RING_ENABLE (R481) -/
  | ringEnable (ring : Nat)
  /-- RING_DISABLE (R481) -/
  | ringDisable (ring : Nat)
  /-- RING_STOPPED (R481) -/
  | ringStopped (ring : Nat)
  /-- EVENT_RING_ENABLE (R474) -/
  | eventRingEnable
  /-- EVENT_RING_DISABLE (R474) -/
  | eventRingDisable
  /-- EVENT_RECORD_WRITE (R475) -/
  | eventRecordWrite (record : List Byte)
  /-- WINDOW_INVALIDATE (R455) -/
  | windowInvalidate (entry : Nat)
  /-- WINDOW_INVALIDATE_ALL (R455) -/
  | windowInvalidateAll
  /-- APERTURE_MOVE (R452) -/
  | apertureMove (port base : Nat)
  /-- APERTURE_READ (R449) -/
  | apertureRead (port offset len : Nat)
  /-- APERTURE_WRITE (R449) -/
  | apertureWrite (port offset : Nat) (data : List Byte)
  /-- BAR0_BAD_ACCESS (R447) -/
  | bar0BadAccess (port offset size : Nat) (isRead : Bool)
  /-- PORT_RESET (R445) -/
  | portReset (port : Nat)
  /-- BUS_MASTER_ENABLE_CHANGE (R446) -/
  | busMasterEnableChange (port : Nat) (on : Bool)
  /-- IDE_LEAVES_SECURE (R444) -/
  | ideLeavesSecure (port : Nat)
  /-- BLOCK_RECEIVE (R486) -/
  | blockReceive (quay lane seq outcome : Nat) (last : BlockEnd)
  /-- REPLAY_REQUEST (R486) -/
  | replayRequest (quay lane seq : Nat)
  /-- FRAME_IDLE_CLOSE (R492) -/
  | frameIdleClose (quay lane frames blocks : Nat)
  /-- LINK_REKEY (R494) -/
  | linkRekey (quay : Nat) (sent : Bool)
  /-- LANE_FAIL (R495) -/
  | laneFail (quay lane source : Nat)
  /-- QUAY_FAIL (R497) -/
  | quayFail (quay cause : Nat)
  /-- REMOTE_READ_TIMEOUT (R498) -/
  | remoteReadTimeout (stream unit : Nat)
  /-- QUAY_STOP (R500) -/
  | quayStop (quay : Nat)
  /-- QUAY_TRAIN (R500) -/
  | quayTrain (quay : Nat) (keyed : Bool)
  /-- POD_JOIN (R502) -/
  | podJoin (answer : Option JoinAnswer)
  /-- JOIN_REQUEST (R503) -/
  | joinRequest (request : JoinRequest)
  /-- JOIN_RETRY (R503) -/
  | joinRetry (answer : Option JoinAnswer)
  /-- POD_LEAVE (R504) -/
  | podLeave
  /-- LEAVE (R504) -/
  | leave (device : Nat)
  /-- HEARTBEAT (R505) -/
  | heartbeat (device tide gen : Nat)
  /-- HEARTBEAT_SILENCE (R505) -/
  | heartbeatSilence (device reporter : Nat)
  /-- DEVICE_LOST (R506) -/
  | deviceLost (device : Nat)
  /-- LOST_NOTICE (R506) -/
  | lostNotice (device gen : Nat)
  /-- STANDBY_TAKEOVER (R507) -/
  | standbyTakeover (next : Option Nat)
  /-- TIME_MARKER (R512) -/
  | timeMarker (quay tide delay arrival residence : Nat)
  /-- MARKER_LOSS_LEAVE (R513) -/
  | markerLossLeave
  /-- DELAY_PROBE (R512) -/
  | delayProbe (quay roundTrip : Nat)
  /-- COLLECTIVE_CHANNEL_ENABLE (R515) -/
  | collectiveChannelEnable (channel : Nat)
  /-- COLLECTIVE_CHANNEL_DISABLE (R515) -/
  | collectiveChannelDisable (channel : Nat)
  /-- COLLECTIVE_ROUND_OPEN (R516) -/
  | collectiveRoundOpen (channel : Nat)
  /-- COLLECTIVE_MESSAGE (R518) -/
  | collectiveMessage (channel round device : Nat) (down agrees : Bool) (data : List Byte)
  /-- COLLECTIVE_ROUND_COMPLETE (R516) -/
  | collectiveRoundComplete (channel : Nat)
  /-- SNAPSHOT_REQUEST (R521) -/
  | snapshotRequest (cut dest : Nat)
  /-- SNAPSHOT_RECORDS_WRITTEN (R521) -/
  | snapshotRecordsWritten (records : List (Nat × List Byte))
  /-- RESET_POD (R522) -/
  | resetPod
  /-- PEER_VIOLATION (R523) -/
  | peerViolation (device cause : Nat)
  /-- ERROR_DETECT (R525) -/
  | errorDetect (err : Err)
  /-- SALVOR_HANDLE (R530) -/
  | salvorHandle
  /-- DEVICE_FAULT_STOP (R529) -/
  | deviceFaultStop (err : Err)
  /-- SALVOR_ESCALATE (R534) -/
  | salvorEscalate (source : Nat)
  /-- SALVOR_RESTART (R534) -/
  | salvorRestart
  /-- SCHEDULER_WATCHDOG (R556) -/
  | schedulerWatchdog
  /-- HBM_STACK_FAIL (R545) -/
  | hbmStackFail (stack cause : Nat)
  /-- SLOTS_LOST (R547) -/
  | slotsLost (device group slot : Nat)
  /-- SLOT_LOSS_NOTICE (R547) -/
  | slotLossNotice (device group slot : Nat)
  /-- REBUILD_GO (R549) -/
  | rebuildGo (group : Nat)
  /-- REBUILD_START (R550) -/
  | rebuildStart (group slot device : Nat)
  /-- REBUILD_PAGE (R551) -/
  | rebuildPage (table page slot : Nat) (data : List Byte)
  /-- REBUILD_DONE (R552) -/
  | rebuildDone (group slot device : Nat)
  /-- SLOT_REPLACE (R552) -/
  | slotReplace (group slot device : Nat)
  /-- REBUILD_END (R553) -/
  | rebuildEnd (group : Nat)
  /-- PATROL_SCRUB (R557) -/
  | patrolScrub (addr outcome : Nat)
  /-- TRNG_HEALTH_FAIL (R560) -/
  | trngHealthFail
  /-- CUSTOMS_WATCHDOG (R556) -/
  | customsWatchdog
  /-- CUS_ZEROISE (R562) -/
  | cusZeroise
  /-- TAMPER_TRIP (R563) -/
  | tamperTrip
  /-- GET_VERSION (R568) -/
  | getVersion (transport : Nat)
  /-- GET_CAPABILITIES (R568) -/
  | getCapabilities (transport : Nat)
  /-- NEGOTIATE_ALGORITHMS (R568) -/
  | negotiateAlgorithms (transport : Nat)
  /-- GET_DIGESTS (R568) -/
  | getDigests (transport : Nat)
  /-- GET_CERTIFICATE (R568) -/
  | getCertificate (transport slot offset len : Nat)
  /-- CHALLENGE (R568) -/
  | challenge (transport slot nonce : Nat)
  /-- GET_MEASUREMENTS (R569) -/
  | getMeasurements (transport index nonce : Nat) (signed : Bool)
  /-- KEY_EXCHANGE (R568) -/
  | keyExchange (transport : Nat) (mutualAuth : Bool)
  /-- FINISH (R568) -/
  | finish (transport session : Nat) (ok : Bool)
  /-- HEARTBEAT_SPDM (R568) -/
  | heartbeatSpdm (transport session : Nat)
  /-- KEY_UPDATE (R568) -/
  | keyUpdate (transport session : Nat)
  /-- END_SESSION (R568) -/
  | endSession (transport session : Nat)
  /-- CHUNK_SEND (R568) -/
  | chunkSend (transport seq : Nat) (last : Bool) (data : List Byte)
  /-- CHUNK_GET (R568) -/
  | chunkGet (transport seq : Nat)
  /-- IDE_KM (R442) -/
  | ideKm (session port : Nat) (go : Bool)
  /-- DEBUG_NONCE (R574) -/
  | debugNonce (session : Nat)
  /-- DEBUG_UNLOCK (R573) -/
  | debugUnlock (token : Token)
  /-- LIFECYCLE_TRANSITION (R571) -/
  | lifecycleTransition (session target signer ownerHash : Nat) (signedOk : Bool)
  /-- DEBUG_CLOSE (R573) -/
  | debugClose
  /-- DEBUG_HALT (R578) -/
  | debugHalt (kiln slot : Nat)
  /-- DEBUG_STEP_COMMAND (R578) -/
  | debugStepCommand (kiln slot : Nat)
  /-- DEBUG_STEP_TILE (R578) -/
  | debugStepTile (kiln slot : Nat)
  /-- DEBUG_RESUME (R578) -/
  | debugResume (kiln slot : Nat)
  /-- STATE_REQ_RUN (R580) -/
  | stateReqRun
  /-- STATE_REQ_BANKED (R580) -/
  | stateReqBanked
  /-- STATE_REQ_SMOULDER (R580) -/
  | stateReqSmoulder
  /-- LOW_POWER_ENTRY (R580) -/
  | lowPowerEntry
  /-- STEP_REQ (R581) -/
  | stepReq (step : Nat)
  /-- WAKE (R580) -/
  | wake (cause : Nat)
  /-- QUAYS_WARM (R580) -/
  | quaysWarm
  /-- UNDER_VOLTAGE_TRIP (R586) -/
  | underVoltageTrip
  /-- OVER_VOLTAGE_TRIP (R586) -/
  | overVoltageTrip
  /-- INPUT_RELEASE (R586) -/
  | inputRelease
  /-- HOT_TRIP (R587) -/
  | hotTrip (site : Nat)
  /-- HOT_TRIP_RELEASE (R587) -/
  | hotTripRelease (site : Nat)
  /-- SHUTDOWN_TRIP (R588) -/
  | shutdownTrip (site : Nat)
  /-- SHUTDOWN_TRIP_RELEASE (R588) -/
  | shutdownTripRelease (site : Nat)
  /-- MANAGEMENT_TICK (R590) -/
  | managementTick (power millivolts counts : Nat) (sites rails : List Nat)
  /-- PILOT_WATCHDOG (R590) -/
  | pilotWatchdog
  /-- SEVERITY3_RESET_POLICY (R602) -/
  | severity3ResetPolicy
  /-- PLT_CAP_WRITE (R592) -/
  | pltCapWrite (source value : Nat)
  /-- PLT_RESET (R612) -/
  | pltReset (source key : Nat)
  /-- PROFILE_SAVE (R606) -/
  | profileSave
  /-- PROFILE_ERASE (R606) -/
  | profileErase
  /-- MCTP_MESSAGE (R597) -/
  | mctpMessage (transport kind : Nat) (body : List Nat)
  /-- FIRMWARE_TRANSFER_END (R598) -/
  | firmwareTransferEnd (image : Image)
  /-- FIRMWARE_ACTIVATE (R598) -/
  | firmwareActivate
  /-- TIDE_HOLD (R613) -/
  | tideHold (heard : Bool)
  /-- HOLD_READY (R613) -/
  | holdReady (device : Nat)
  /-- TIDE_STOP_BROADCAST (R613) -/
  | tideStopBroadcast (tide : Nat) (heard : Bool)
  /-- TIDE_HOLD_RELEASE (R613) -/
  | tideHoldRelease (tide steps grace : Nat) (heard : Bool)
  /-- MOD_EN_RISE (R636) -/
  | modEnRise
  /-- MOD_EN_RELEASE (R635) -/
  | modEnRelease
  /-- RESET_IN (R625) -/
  | resetIn
  /-- DEVICE_RESET (R625) -/
  | deviceReset
  /-- START_UP (R603) -/
  | startUp (report : StartReport)
  /-- SETUP_LOCK (R630) -/
  | setupLock (source : Nat)
  /-- REGISTER_WRITE (R628) -/
  | registerWrite (source offset size value : Nat)
  /-- REGISTER_READ (R7) -/
  | registerRead (source offset size : Nat)
  /-- READ_DATA_LANDS (R206) -/
  | readDataLands (stream unit : Nat) (data : List Byte)
  /-- REMOTE_STREAM_READ (R498) -/
  | remoteStreamRead (device stream unit addr len : Nat) (order : ReadOrder)
  /-- REMOTE_STREAM_WRITE (R523) -/
  | remoteStreamWrite (device stream unit addr cls : Nat) (data : List Byte)
  /-- REBUILD_PAGE_REQUEST (R551) -/
  | rebuildPageRequest (table page slot device : Nat)
  /-- GROUP_MASTER_EPOCH_REQUEST (R346) -/
  | groupMasterEpochRequest (table gen group epoch0 device : Nat)
  /-- END_TO_END_ACK (R498) -/
  | endToEndAck (device number : Nat)
  /-- ROUTE_TABLES (R490) -/
  | routeTables (routes : List (Nat × Route))
  /-- MASTER_MIRROR (R507) -/
  | masterMirror (log : List Logged) (members standbys : List Nat) (links : List Link) (size : Nat)
  /-- LIGHTHOUSE_POWER_LOSS (R583) -/
  | lighthousePowerLoss
  /-- QUAY_RECONNECT (R643) -/
  | quayReconnect (quay : Nat) (keyed : Bool)
  deriving DecidableEq, Repr

end Sys2Proof
end

