-- ==== Sys2Proof/Decode.lean ====
section
/-! DEFINITION. Commands from words. The command table gives no row any bits: a command reaches the block as what an outside
party does or as what an engine of the device reports, and no word spells one. -/

namespace Sys2Proof

/-- The command that a word spells by the table's bits: no row has bits. -/
def decodeTableWord (_nbits _w : Nat) : Option Instr := none

end Sys2Proof
end

