-- ==== Sys2Proof/Machine/Registers.lean ====
section
/-! DEFINITION. The registers of BAR0, from the field tables of the chapters and Table 16.1: every stored field with its
width and reset value, and every register with its place, its access codes and its fields. A field's value is stored once,
under its ordinal and the number of its unit; a field that only mirrors another part of the state is marked with that part
and has no store. -/

namespace Sys2Proof.Machine

/-- A stored field: its ordinal among the stored fields, its width, and its reset value per unit. -/
structure Fld where
  ord : Nat
  width : Nat
  reset : Nat → Nat

/-- The key of a field of unit i in the store. -/
def Fld.key (f : Fld) (i : Nat) : Nat := f.ord + 512 * i

/-- The value of field f of unit i. -/
def fldGet (t : Tab Nat) (f : Fld) (i : Nat) : Nat := Tab.get (fun _ => f.reset i) t (f.key i)

/-- Set field f of unit i, cut to the field's width. -/
def fldSet (t : Tab Nat) (f : Fld) (i v : Nat) : Tab Nat := Tab.insert (f.key i) (v % 2 ^ f.width) t

/-- Access codes (Table 00.5). -/
inductive Acc where
  | ro | rw | wo | w1c | w1s | rc | rwl
  deriving DecidableEq, Repr

/-- Register fields that mirror structured state. -/
inductive Mirror where
  | admissionDrained | collIdle | consInDoubt | consOpen | ctxStateHi | ctxStateLo | ctxStatus | d2SincePower | dbgBusy | elogRecords
  | elogWord | eventRingStopped | evtProducer | evtQueued | histFree | histOpen | historyStopped | lifecycle | locked | lookupIdle
  | mooring | outOfPod | pltLogWord | powerState | profileStored | quayState | ringActive | ringCqProducer | ringFrozen | ringReserved
  | ringSqConsumer | ringState | salvorUsed | tamperCount | tideStopped
  deriving DecidableEq, Repr

/-- Where a field's value comes from: the store (with a unit offset added to the register's unit), or a mirror. -/
inductive Src where
  | fld (f : Fld) (off : Nat)
  | mirror (m : Mirror)

/-- One field of a register: lowest bit, width, access code and source. -/
structure Place where
  lo : Nat
  width : Nat
  acc : Acc
  src : Src

/-- The units whose pages R617 bounds. -/
inductive Paged where
  | no | kilns | hearths | stevedores | cranes | quays
  deriving DecidableEq, Repr

/-- A register row: block number (Table 16.1), block offset, step and number of its copies, width, set-up or live. -/
structure RegRow where
  block : Nat
  off : Nat
  stride : Nat
  count : Nat
  width : Nat
  setup : Bool
  paged : Paged
  places : List Place

/-! `HMR_TIDE_CFG` (spec/01_device_and_tide.md) -/
def HMR_TIDE_CFG_PERIOD_STEPS : Fld := ⟨0, 4, fun _ => 2⟩
def HMR_TIDE_CFG_SOURCE : Fld := ⟨1, 1, fun _ => 0⟩

/-! `HMR_TIDE_COUNT` (spec/01_device_and_tide.md) -/
def HMR_TIDE_COUNT_TIDE : Fld := ⟨2, 64, fun _ => 0⟩

/-! `HMR_TIDE_STATUS` (spec/01_device_and_tide.md) -/
def HMR_TIDE_STATUS_RUNNING : Fld := ⟨3, 1, fun _ => 0⟩
def HMR_TIDE_STATUS_LOCKED : Fld := ⟨4, 1, fun _ => 0⟩
def HMR_TIDE_STATUS_SLIP : Fld := ⟨5, 1, fun _ => 0⟩
def HMR_TIDE_STATUS_OFFSET_NS : Fld := ⟨6, 16, fun _ => 0⟩

/-! `HST_SIZE_ID` (spec/01_device_and_tide.md) -/
def HST_SIZE_ID_TABLE_VERSION : Fld := ⟨7, 8, fun _ => 0⟩
def HST_SIZE_ID_BIN : Fld := ⟨8, 8, fun _ => 0⟩
def HST_SIZE_ID_STEPPING : Fld := ⟨9, 8, fun _ => 0⟩
def HST_SIZE_ID_VALID : Fld := ⟨10, 1, fun _ => 0⟩

/-! `HST_SIZE_COMPUTE` (spec/01_device_and_tide.md) -/
def HST_SIZE_COMPUTE_KILNS_PORT : Fld := ⟨11, 8, fun _ => 0⟩
def HST_SIZE_COMPUTE_KILNS_STBD : Fld := ⟨12, 8, fun _ => 0⟩
def HST_SIZE_COMPUTE_HEARTHS_PORT : Fld := ⟨13, 8, fun _ => 0⟩
def HST_SIZE_COMPUTE_HEARTHS_STBD : Fld := ⟨14, 8, fun _ => 0⟩
def HST_SIZE_COMPUTE_CRANES_PORT : Fld := ⟨15, 8, fun _ => 0⟩
def HST_SIZE_COMPUTE_CRANES_STBD : Fld := ⟨16, 8, fun _ => 0⟩
def HST_SIZE_COMPUTE_STEVEDORES_PORT : Fld := ⟨17, 8, fun _ => 0⟩
def HST_SIZE_COMPUTE_STEVEDORES_STBD : Fld := ⟨18, 8, fun _ => 0⟩

/-! `HST_SIZE_MEMORY` (spec/01_device_and_tide.md) -/
def HST_SIZE_MEMORY_WHS_MIB_PORT : Fld := ⟨19, 16, fun _ => 0⟩
def HST_SIZE_MEMORY_WHS_MIB_STBD : Fld := ⟨20, 16, fun _ => 0⟩
def HST_SIZE_MEMORY_HBM_STACKS_PORT : Fld := ⟨21, 4, fun _ => 0⟩
def HST_SIZE_MEMORY_HBM_STACKS_STBD : Fld := ⟨22, 4, fun _ => 0⟩
def HST_SIZE_MEMORY_HBM_GB_PER_STACK : Fld := ⟨23, 8, fun _ => 0⟩
def HST_SIZE_MEMORY_WHS_WAYS : Fld := ⟨24, 8, fun _ => 0⟩

/-! `HST_SIZE_LINKS` (spec/01_device_and_tide.md) -/
def HST_SIZE_LINKS_QUAYS_UP : Fld := ⟨25, 16, fun _ => 0⟩
def HST_SIZE_LINKS_LANES_PER_QUAY : Fld := ⟨26, 8, fun _ => 0⟩
def HST_SIZE_LINKS_SPARE_LANES_PER_QUAY : Fld := ⟨27, 8, fun _ => 0⟩
def HST_SIZE_LINKS_SPARE_LANES_INTACT : Fld := ⟨28, 8, fun _ => 0⟩

/-! `HST_SIZE_CLOCK` (spec/01_device_and_tide.md) -/
def HST_SIZE_CLOCK_ARITH_MHZ : Fld := ⟨29, 16, fun _ => 0⟩
def HST_SIZE_CLOCK_TIDE_STEPS_MIN : Fld := ⟨30, 4, fun _ => 0⟩
def HST_SIZE_CLOCK_TIDE_STEPS_MAX : Fld := ⟨31, 4, fun _ => 0⟩

/-! `KLN_CHARGE_WAIT` (spec/02_lut_arithmetic.md) -/
def KLN_CHARGE_WAIT_CYCLES : Fld := ⟨32, 64, fun _ => 0⟩

/-! `KLN_LOOKUP_WAIT` (spec/02_lut_arithmetic.md) -/
def KLN_LOOKUP_WAIT_CYCLES : Fld := ⟨33, 64, fun _ => 0⟩

/-! `KLN_T3_RESERVED_CODES` (spec/02_lut_arithmetic.md) -/
def KLN_T3_RESERVED_CODES_COUNT : Fld := ⟨34, 32, fun _ => 0⟩

/-! `KLN_F8_SATURATIONS` (spec/03_quantisation_and_rescale.md) -/
def KLN_F8_SATURATIONS_COUNT : Fld := ⟨35, 32, fun _ => 0⟩

/-! `KLN_F8_NANS` (spec/03_quantisation_and_rescale.md) -/
def KLN_F8_NANS_COUNT : Fld := ⟨36, 32, fun _ => 0⟩

/-! `KLN_SLIP_LAST` (spec/03_quantisation_and_rescale.md) -/
def KLN_SLIP_LAST_EXPECTED : Fld := ⟨37, 8, fun _ => 0⟩
def KLN_SLIP_LAST_FOUND : Fld := ⟨38, 8, fun _ => 0⟩
def KLN_SLIP_LAST_SOURCE : Fld := ⟨39, 2, fun _ => 0⟩
def KLN_SLIP_LAST_VALID : Fld := ⟨40, 1, fun _ => 0⟩

/-! `KLN_OUTPUT_NANS` (spec/03_quantisation_and_rescale.md) -/
def KLN_OUTPUT_NANS_COUNT : Fld := ⟨41, 32, fun _ => 0⟩

/-! `KLN_RESCALE_RESERVED` (spec/03_quantisation_and_rescale.md) -/
def KLN_RESCALE_RESERVED_COUNT : Fld := ⟨42, 32, fun _ => 0⟩

/-! `KLN_SWITCHES` (spec/04_kilns_and_hearths.md) -/
def KLN_SWITCHES_COUNT : Fld := ⟨43, 64, fun _ => 0⟩

/-! `KLN_STARVE` (spec/04_kilns_and_hearths.md) -/
def KLN_STARVE_CYCLES : Fld := ⟨44, 64, fun _ => 0⟩

/-! `KLN_FAULT` (spec/04_kilns_and_hearths.md) -/
def KLN_FAULT_FENCED : Fld := ⟨45, 1, fun _ => 0⟩
def KLN_FAULT_SOURCE : Fld := ⟨46, 8, fun _ => 0⟩

/-! `HTH_MUL_WAIT` (spec/04_kilns_and_hearths.md) -/
def HTH_MUL_WAIT_CYCLES : Fld := ⟨47, 64, fun _ => 0⟩

/-! `HTH_SATURATIONS` (spec/04_kilns_and_hearths.md) -/
def HTH_SATURATIONS_COUNT : Fld := ⟨48, 32, fun _ => 0⟩

/-! `HTH_STATUS` (spec/04_kilns_and_hearths.md) -/
def HTH_STATUS_COLLISION : Fld := ⟨49, 1, fun _ => 0⟩
def HTH_STATUS_LOST_WRITES : Fld := ⟨50, 16, fun _ => 0⟩

/-! `STV_TAGS` (spec/05_stevedores_and_manifests.md) -/
def STV_TAGS_IN_USE : Fld := ⟨51, 11, fun _ => 0⟩
def STV_TAGS_PEAK : Fld := ⟨52, 11, fun _ => 0⟩

/-! `STV_SHORT_UNITS` (spec/05_stevedores_and_manifests.md) -/
def STV_SHORT_UNITS_COUNT : Fld := ⟨53, 64, fun _ => 0⟩

/-! `STV_DETACHES` (spec/05_stevedores_and_manifests.md) -/
def STV_DETACHES_COUNT : Fld := ⟨54, 32, fun _ => 0⟩

/-! `STV_DETACH_LAST` (spec/05_stevedores_and_manifests.md) -/
def STV_DETACH_LAST_CONTEXT : Fld := ⟨55, 5, fun _ => 0⟩
def STV_DETACH_LAST_KILN : Fld := ⟨56, 8, fun _ => 0⟩
def STV_DETACH_LAST_CTX : Fld := ⟨57, 2, fun _ => 0⟩
def STV_DETACH_LAST_VALID : Fld := ⟨58, 1, fun _ => 0⟩

/-! `STV_ABORTS` (spec/05_stevedores_and_manifests.md) -/
def STV_ABORTS_COUNT : Fld := ⟨59, 32, fun _ => 0⟩

/-! `STV_RESUME_IGNORED` (spec/05_stevedores_and_manifests.md) -/
def STV_RESUME_IGNORED_COUNT : Fld := ⟨60, 32, fun _ => 0⟩

/-! `WHS_WAY_MAP_PORT_LO` (spec/06_warehouse_and_berth_memory.md) -/
/-- USE of way `16 × die + way`, reset per Table 06.9. -/
def WHS_WAY_USE : Fld := ⟨61, 2, fun i => if i % 16 < 2 then 0 else if i % 16 < 8 then 1 else 2⟩
/-- CLASSES of way `16 × die + way`, reset per Table 06.9. -/
def WHS_WAY_CLASSES : Fld := ⟨62, 4, fun i => if i % 16 < 2 then 15 else 3⟩

/-! `WHS_WAY_STOP` (spec/06_warehouse_and_berth_memory.md) -/
def WHS_WAY_STOP_PORT : Fld := ⟨63, 16, fun _ => 0⟩
def WHS_WAY_STOP_STBD : Fld := ⟨64, 16, fun _ => 0⟩

/-! `WHS_WAY_STATUS` (spec/06_warehouse_and_berth_memory.md) -/
def WHS_WAY_STATUS_STOPPED_PORT : Fld := ⟨65, 16, fun _ => 0⟩
def WHS_WAY_STATUS_STOPPED_STBD : Fld := ⟨66, 16, fun _ => 0⟩
def WHS_WAY_STATUS_BLOCKED_PORT : Fld := ⟨67, 16, fun _ => 0⟩
def WHS_WAY_STATUS_BLOCKED_STBD : Fld := ⟨68, 16, fun _ => 0⟩

/-! `WHS_HOT_CFG` (spec/06_warehouse_and_berth_memory.md) -/
def WHS_HOT_CFG_ADMIT_MIN : Fld := ⟨69, 8, fun _ => 4⟩
def WHS_HOT_CFG_ADMIT_FLOOR : Fld := ⟨70, 8, fun _ => 2⟩
def WHS_HOT_CFG_AGE_TIDES : Fld := ⟨71, 4, fun _ => 8⟩
def WHS_HOT_CFG_EFFECTIVE : Fld := ⟨72, 8, fun _ => 4⟩

/-! `WHS_HOT_HITS` (spec/06_warehouse_and_berth_memory.md) -/
def WHS_HOT_HITS_COUNT : Fld := ⟨73, 64, fun _ => 0⟩

/-! `WHS_HOT_MISSES` (spec/06_warehouse_and_berth_memory.md) -/
def WHS_HOT_MISSES_COUNT : Fld := ⟨74, 64, fun _ => 0⟩

/-! `WHS_HOT_FILLS` (spec/06_warehouse_and_berth_memory.md) -/
def WHS_HOT_FILLS_COUNT : Fld := ⟨75, 64, fun _ => 0⟩

/-! `WHS_ECC_CORRECTED` (spec/06_warehouse_and_berth_memory.md) -/
def WHS_ECC_CORRECTED_COUNT : Fld := ⟨76, 32, fun _ => 0⟩

/-! `WHS_ECC_UNCORRECTED` (spec/06_warehouse_and_berth_memory.md) -/
def WHS_ECC_UNCORRECTED_COUNT : Fld := ⟨77, 32, fun _ => 0⟩

/-! `DDK_MARCH_CTRL` (spec/06_warehouse_and_berth_memory.md) -/
def DDK_MARCH_CTRL_DESTRUCT_START : Fld := ⟨78, 1, fun _ => 0⟩
def DDK_MARCH_CTRL_RETENTION : Fld := ⟨79, 1, fun _ => 0⟩
def DDK_MARCH_CTRL_ROWS_PER_TIDE : Fld := ⟨80, 8, fun _ => 64⟩
def DDK_MARCH_CTRL_DESTRUCT_WAYS : Fld := ⟨81, 16, fun _ => 0⟩

/-! `DDK_MARCH_STATUS` (spec/06_warehouse_and_berth_memory.md) -/
def DDK_MARCH_STATUS_DESTRUCT_BUSY : Fld := ⟨82, 1, fun _ => 0⟩
def DDK_MARCH_STATUS_DESTRUCT_REFUSED : Fld := ⟨83, 1, fun _ => 0⟩
def DDK_MARCH_STATUS_FAIL : Fld := ⟨84, 1, fun _ => 0⟩
def DDK_MARCH_STATUS_PASSES : Fld := ⟨85, 32, fun _ => 0⟩

/-! `DDK_MARCH_ABORTS` (spec/06_warehouse_and_berth_memory.md) -/
def DDK_MARCH_ABORTS_COUNT : Fld := ⟨86, 32, fun _ => 0⟩

/-! `DDK_REPAIR` (spec/06_warehouse_and_berth_memory.md) -/
def DDK_REPAIR_KIND : Fld := ⟨87, 4, fun _ => 0⟩
def DDK_REPAIR_UNIT : Fld := ⟨88, 8, fun _ => 0⟩
def DDK_REPAIR_MACRO : Fld := ⟨89, 4, fun _ => 0⟩
def DDK_REPAIR_COLUMN : Fld := ⟨90, 11, fun _ => 0⟩
def DDK_REPAIR_GO : Fld := ⟨91, 1, fun _ => 0⟩
def DDK_REPAIR_BUSY : Fld := ⟨92, 1, fun _ => 0⟩

/-! `DDK_REPAIR_STATUS` (spec/06_warehouse_and_berth_memory.md) -/
def DDK_REPAIR_STATUS_RESULT : Fld := ⟨93, 2, fun _ => 0⟩
def DDK_REPAIR_STATUS_DONE : Fld := ⟨94, 1, fun _ => 0⟩

/-! `DDK_REPAIR_CFG` (spec/06_warehouse_and_berth_memory.md) -/
def DDK_REPAIR_CFG_AUTO : Fld := ⟨95, 1, fun _ => 1⟩

/-! `CRN_TABLE_DIR` (spec/07_embedding_lookups.md) -/
def CRN_TABLE_DIR_BASE : Fld := ⟨96, 48, fun _ => 0⟩
def CRN_TABLE_DIR_TABLES : Fld := ⟨97, 12, fun _ => 0⟩

/-! `CRN_GROUP_DIR` (spec/07_embedding_lookups.md) -/
def CRN_GROUP_DIR_BASE : Fld := ⟨98, 48, fun _ => 0⟩
def CRN_GROUP_DIR_GROUPS : Fld := ⟨99, 10, fun _ => 0⟩

/-! `CRN_TABLE_CTL` (spec/07_embedding_lookups.md) -/
def CRN_TABLE_CTL_TABLE : Fld := ⟨100, 12, fun _ => 0⟩
def CRN_TABLE_CTL_OP : Fld := ⟨101, 2, fun _ => 0⟩
def CRN_TABLE_CTL_DONE : Fld := ⟨102, 1, fun _ => 0⟩
def CRN_TABLE_CTL_BUSY : Fld := ⟨103, 1, fun _ => 0⟩

/-! `CRN_TABLE_RESULT` (spec/07_embedding_lookups.md) -/
def CRN_TABLE_RESULT_RESULT : Fld := ⟨104, 3, fun _ => 0⟩

/-! `CRN_TALLY` (spec/07_embedding_lookups.md) -/
def CRN_TALLY_COUNT_SAT : Fld := ⟨105, 1, fun _ => 0⟩
def CRN_TALLY_FLUSHES : Fld := ⟨106, 16, fun _ => 0⟩

/-! `CRN_READS` (spec/07_embedding_lookups.md) -/
def CRN_READS_COUNT : Fld := ⟨107, 64, fun _ => 0⟩

/-! `CRN_RAW` (spec/07_embedding_lookups.md) -/
def CRN_RAW_RAW_SENT : Fld := ⟨108, 32, fun _ => 0⟩
def CRN_RAW_RAW_RECEIVED : Fld := ⟨109, 32, fun _ => 0⟩

/-! `CRN_BAD_INDEX` (spec/07_embedding_lookups.md) -/
def CRN_BAD_INDEX_COUNT : Fld := ⟨110, 32, fun _ => 0⟩

/-! `CRN_LATE_PARTS` (spec/07_embedding_lookups.md) -/
def CRN_LATE_PARTS_COUNT : Fld := ⟨111, 32, fun _ => 0⟩

/-! `CRN_OUT_SAT` (spec/07_embedding_lookups.md) -/
def CRN_OUT_SAT_COUNT : Fld := ⟨112, 32, fun _ => 0⟩

/-! `CRN_NONFINITE` (spec/07_embedding_lookups.md) -/
def CRN_NONFINITE_COUNT : Fld := ⟨113, 32, fun _ => 0⟩

/-! `HMR_EPOCH_CFG` (spec/08_consignments_and_table_versions.md) -/
def HMR_EPOCH_CFG_GRACE_TIDES : Fld := ⟨114, 13, fun _ => 64⟩

/-! `HMR_CONS_STATUS` (spec/08_consignments_and_table_versions.md) -/
def HMR_CONS_STATUS_LATE_NOTICES : Fld := ⟨115, 16, fun _ => 0⟩
def HMR_CONS_STATUS_COMMITS : Fld := ⟨116, 32, fun _ => 0⟩

/-! `HMR_CONS_ABORTS` (spec/08_consignments_and_table_versions.md) -/
def HMR_CONS_ABORTS_COUNT : Fld := ⟨117, 32, fun _ => 0⟩

/-! `CRN_UNMAPPED` (spec/08_consignments_and_table_versions.md) -/
def CRN_UNMAPPED_COUNT : Fld := ⟨118, 32, fun _ => 0⟩

/-! `HMR_HIST_POOL` (spec/09_history_encoders.md) -/
def HMR_HIST_POOL_BASE : Fld := ⟨119, 48, fun _ => 0⟩

/-! `HMR_HIST_DIR` (spec/09_history_encoders.md) -/
def HMR_HIST_DIR_BASE : Fld := ⟨120, 48, fun _ => 0⟩

/-! `HMR_HIST_SIZE` (spec/09_history_encoders.md) -/
def HMR_HIST_SIZE_FRAMES : Fld := ⟨121, 20, fun _ => 0⟩
def HMR_HIST_SIZE_ENTRIES : Fld := ⟨122, 24, fun _ => 0⟩

/-! `HMR_HIST_CTL` (spec/09_history_encoders.md) -/
def HMR_HIST_CTL_STOP : Fld := ⟨123, 1, fun _ => 1⟩
def HMR_HIST_CTL_STOPPED : Fld := ⟨124, 1, fun _ => 1⟩

/-! `HMR_HIST_FULL` (spec/09_history_encoders.md) -/
def HMR_HIST_FULL_COUNT : Fld := ⟨125, 32, fun _ => 0⟩

/-! `HMR_ADMIT_CTL` (spec/10_harbourmaster_scheduling.md) -/
def HMR_ADMIT_CTL_STOP : Fld := ⟨126, 1, fun _ => 1⟩
def HMR_ADMIT_CTL_DRAINED : Fld := ⟨127, 1, fun _ => 1⟩

/-! `HMR_MODE` (spec/10_harbourmaster_scheduling.md) -/
def HMR_MODE_SINGLE : Fld := ⟨128, 1, fun _ => 1⟩
def HMR_MODE_SINGLE_MODEL : Fld := ⟨129, 16, fun _ => 0⟩

/-! `HMR_CLASS_SHARE` (spec/10_harbourmaster_scheduling.md) -/
def HMR_CLASS_SHARE_SHARE_C0 : Fld := ⟨130, 6, fun _ => 40⟩
def HMR_CLASS_SHARE_SHARE_C1 : Fld := ⟨131, 6, fun _ => 16⟩
def HMR_CLASS_SHARE_SHARE_C2 : Fld := ⟨132, 6, fun _ => 6⟩
def HMR_CLASS_SHARE_SHARE_C3 : Fld := ⟨133, 6, fun _ => 2⟩

/-! `HMR_BUDGET_SLICE` (spec/10_harbourmaster_scheduling.md) -/
def HMR_BUDGET_SLICE_SLICE_PER_US : Fld := ⟨134, 20, fun _ => 92000⟩

/-! `HMR_LOOKUP_CFG` (spec/10_harbourmaster_scheduling.md) -/
def HMR_LOOKUP_CFG_LOOKUP_MAX : Fld := ⟨135, 24, fun _ => 0⟩

/-! `HMR_LOOKUP_STATUS` (spec/10_harbourmaster_scheduling.md) -/
def HMR_LOOKUP_STATUS_ALLOW : Fld := ⟨136, 24, fun _ => 0⟩

/-! `HMR_SAVE_AREA` (spec/10_harbourmaster_scheduling.md) -/
def HMR_SAVE_AREA_BASE : Fld := ⟨137, 48, fun _ => 0⟩
def HMR_SAVE_AREA_FRAMES : Fld := ⟨138, 8, fun _ => 0⟩

/-! `HMR_LOCALITY_OVERRIDES` (spec/10_harbourmaster_scheduling.md) -/
def HMR_LOCALITY_OVERRIDES_COUNT : Fld := ⟨139, 32, fun _ => 0⟩

/-! `HMR_REFUSALS` (spec/10_harbourmaster_scheduling.md) -/
def HMR_REFUSALS_COUNT : Fld := ⟨140, 32, fun _ => 0⟩

/-! `HMR_SCHED_EVENTS` (spec/10_harbourmaster_scheduling.md) -/
def HMR_SCHED_EVENTS_BROKEN : Fld := ⟨141, 16, fun _ => 0⟩
def HMR_SCHED_EVENTS_EVICTIONS : Fld := ⟨142, 16, fun _ => 0⟩
def HMR_SCHED_EVENTS_FREEZES : Fld := ⟨143, 16, fun _ => 0⟩
def HMR_SCHED_EVENTS_EVICT_NO_FRAME : Fld := ⟨144, 16, fun _ => 0⟩

/-! `HMR_FREEZE_RESET` (spec/10_harbourmaster_scheduling.md) -/
def HMR_FREEZE_RESET_KIND : Fld := ⟨145, 2, fun _ => 0⟩
def HMR_FREEZE_RESET_ID : Fld := ⟨146, 12, fun _ => 0⟩

/-! `HMR_SAT_COUNTS` (spec/10_harbourmaster_scheduling.md) -/
def HMR_SAT_COUNTS_TIDES : Fld := ⟨147, 32, fun _ => 0⟩

/-! `HMR_MODEL_DIR` (spec/10_harbourmaster_scheduling.md) -/
def HMR_MODEL_DIR_BASE : Fld := ⟨148, 48, fun _ => 0⟩
def HMR_MODEL_DIR_ENTRIES : Fld := ⟨149, 16, fun _ => 0⟩

/-! `HMR_MODEL_CTL` (spec/10_harbourmaster_scheduling.md) -/
def HMR_MODEL_CTL_MODEL : Fld := ⟨150, 16, fun _ => 0⟩
def HMR_MODEL_CTL_OP : Fld := ⟨151, 2, fun _ => 0⟩
def HMR_MODEL_CTL_RESULT : Fld := ⟨152, 2, fun _ => 0⟩
def HMR_MODEL_CTL_DONE : Fld := ⟨153, 1, fun _ => 0⟩
def HMR_MODEL_CTL_BUSY : Fld := ⟨154, 1, fun _ => 0⟩

/-! `HMR_RING_SCHED` (spec/10_harbourmaster_scheduling.md) -/
def HMR_RING_SCHED_CLASS : Fld := ⟨155, 2, fun _ => 0⟩
def HMR_RING_SCHED_DEBT_MAX : Fld := ⟨156, 16, fun _ => 250⟩

/-! `HMR_RING_STATE` (spec/10_harbourmaster_scheduling.md) -/
def HMR_RING_STATE_DEBT_NS : Fld := ⟨157, 32, fun _ => 0⟩

/-! `HBM_CHSET` (spec/10_harbourmaster_scheduling.md) -/
def HBM_CHSET_FIRST_CHANNEL : Fld := ⟨158, 9, fun _ => 0⟩
def HBM_CHSET_COUNT : Fld := ⟨159, 9, fun i => if i = 0 then 384 else 0⟩
def HBM_CHSET_USE : Fld := ⟨160, 2, fun _ => 0⟩
def HBM_CHSET_CLASSES : Fld := ⟨161, 4, fun i => if i = 0 then 15 else 0⟩
def HBM_CHSET_SHARE_C0 : Fld := ⟨162, 4, fun i => if i = 0 then 10 else 0⟩
def HBM_CHSET_SHARE_C1 : Fld := ⟨163, 4, fun i => if i = 0 then 3 else 0⟩
def HBM_CHSET_SHARE_C2 : Fld := ⟨164, 4, fun i => if i = 0 then 2 else 0⟩
def HBM_CHSET_SHARE_C3 : Fld := ⟨165, 4, fun i => if i = 0 then 1 else 0⟩

/-! `HBM_CHSET_STOP` (spec/10_harbourmaster_scheduling.md) -/
def HBM_CHSET_STOP_STOP : Fld := ⟨166, 32, fun _ => 0⟩

/-! `HBM_CHSET_STATUS` (spec/10_harbourmaster_scheduling.md) -/
def HBM_CHSET_STATUS_STOPPED : Fld := ⟨167, 32, fun _ => 0xFFFFFFFE⟩

/-! `HST_PORT_STATUS` (spec/11_host_rings_and_doorbells.md) -/
def HST_PORT_STATUS_SPEED : Fld := ⟨168, 4, fun _ => 0⟩
def HST_PORT_STATUS_WIDTH : Fld := ⟨169, 5, fun _ => 0⟩
def HST_PORT_STATUS_FLIT : Fld := ⟨170, 1, fun _ => 0⟩
def HST_PORT_STATUS_IDE_SECURE : Fld := ⟨171, 1, fun _ => 0⟩
def HST_PORT_STATUS_BME : Fld := ⟨172, 1, fun _ => 0⟩

/-! `HST_APERTURE` (spec/11_host_rings_and_doorbells.md) -/
def HST_APERTURE_BASE : Fld := ⟨173, 16, fun _ => 0⟩

/-! `HST_APERTURE_BAD` (spec/11_host_rings_and_doorbells.md) -/
def HST_APERTURE_BAD_APERTURE_BAD : Fld := ⟨174, 32, fun _ => 0⟩

/-! `HST_DB_STATUS` (spec/11_host_rings_and_doorbells.md) -/
def HST_DB_STATUS_BAD_WRITES : Fld := ⟨175, 16, fun _ => 0⟩
def HST_DB_STATUS_RESUME_IGNORED : Fld := ⟨176, 16, fun _ => 0⟩

/-! `HST_WIN_TABLE` (spec/11_host_rings_and_doorbells.md) -/
def HST_WIN_TABLE_ENTRIES : Fld := ⟨177, 8, fun _ => 0⟩
def HST_WIN_TABLE_PORT : Fld := ⟨178, 1, fun _ => 0⟩
def HST_WIN_TABLE_BASE : Fld := ⟨179, 52, fun _ => 0⟩

/-! `HST_WIN_INVAL` (spec/11_host_rings_and_doorbells.md) -/
def HST_WIN_INVAL_ENTRY : Fld := ⟨180, 8, fun _ => 0⟩
def HST_WIN_INVAL_ALL : Fld := ⟨181, 1, fun _ => 0⟩
def HST_WIN_INVAL_BUSY : Fld := ⟨182, 1, fun _ => 0⟩

/-! `HST_EVT_BASE` (spec/11_host_rings_and_doorbells.md) -/
def HST_EVT_BASE_BASE : Fld := ⟨183, 52, fun _ => 0⟩

/-! `HST_EVT_CFG` (spec/11_host_rings_and_doorbells.md) -/
def HST_EVT_CFG_LOG2 : Fld := ⟨184, 5, fun _ => 6⟩
def HST_EVT_CFG_PORT : Fld := ⟨185, 1, fun _ => 0⟩
def HST_EVT_CFG_VECTOR : Fld := ⟨186, 9, fun _ => 0⟩

/-! `HST_EVT_CTL` (spec/11_host_rings_and_doorbells.md) -/
def HST_EVT_CTL_ENABLE : Fld := ⟨187, 1, fun _ => 0⟩
def HST_EVT_CTL_STOPPED : Fld := ⟨188, 1, fun _ => 1⟩

/-! `HST_EVT_STATUS` (spec/11_host_rings_and_doorbells.md) -/
def HST_EVT_STATUS_OVERFLOW : Fld := ⟨189, 1, fun _ => 0⟩
def HST_EVT_STATUS_LOST : Fld := ⟨190, 16, fun _ => 0⟩

/-! `HST_SQ_BASE` (spec/11_host_rings_and_doorbells.md) -/
def HST_SQ_BASE_BASE : Fld := ⟨191, 52, fun _ => 0⟩

/-! `HST_CQ_BASE` (spec/11_host_rings_and_doorbells.md) -/
def HST_CQ_BASE_BASE : Fld := ⟨192, 52, fun _ => 0⟩

/-! `HST_RING_CFG` (spec/11_host_rings_and_doorbells.md) -/
def HST_RING_CFG_SQ_LOG2 : Fld := ⟨193, 5, fun _ => 6⟩
def HST_RING_CFG_CQ_LOG2 : Fld := ⟨194, 5, fun _ => 6⟩
def HST_RING_CFG_PORT : Fld := ⟨195, 1, fun _ => 0⟩
def HST_RING_CFG_IRQ_EN : Fld := ⟨196, 1, fun _ => 0⟩
def HST_RING_CFG_VECTOR : Fld := ⟨197, 9, fun _ => 0⟩
def HST_RING_CFG_COALESCE_RECORDS : Fld := ⟨198, 8, fun _ => 0⟩
def HST_RING_CFG_COALESCE_US : Fld := ⟨199, 8, fun _ => 0⟩

/-! `HST_RING_CTL` (spec/11_host_rings_and_doorbells.md) -/
def HST_RING_CTL_ENABLE : Fld := ⟨200, 1, fun _ => 0⟩

/-! `HST_RING_STATUS` (spec/11_host_rings_and_doorbells.md) -/
def HST_RING_STATUS_RESET_PENDING : Fld := ⟨201, 1, fun _ => 0⟩
def HST_RING_STATUS_IDE_BLOCKED : Fld := ⟨202, 1, fun _ => 0⟩
def HST_RING_STATUS_FREEZE_CAUSE : Fld := ⟨203, 4, fun _ => 0⟩

/-! `QUY_POD_SIZE` (spec/12_quays_and_pods.md) -/
def QUY_POD_SIZE_DEVICES : Fld := ⟨204, 13, fun _ => 0⟩
def QUY_POD_SIZE_LEVELS : Fld := ⟨205, 3, fun _ => 0⟩
def QUY_POD_SIZE_GROUPS : Fld := ⟨206, 11, fun _ => 0⟩
def QUY_POD_SIZE_NO_STANDBY : Fld := ⟨207, 1, fun _ => 0⟩
def QUY_POD_SIZE_MASTER : Fld := ⟨208, 12, fun _ => 0⟩
def QUY_POD_SIZE_STANDBY : Fld := ⟨209, 12, fun _ => 0⟩

/-! `QUY_POD_GEN` (spec/12_quays_and_pods.md) -/
def QUY_POD_GEN_GENERATION : Fld := ⟨210, 32, fun _ => 0⟩

/-! `QUY_POD_CFG` (spec/12_quays_and_pods.md) -/
def QUY_POD_CFG_DEVICE_ID : Fld := ⟨211, 12, fun _ => 0⟩
def QUY_POD_CFG_ROLE : Fld := ⟨212, 2, fun _ => 0⟩
def QUY_POD_CFG_STANDBY_OK : Fld := ⟨213, 1, fun _ => 0⟩
def QUY_POD_CFG_POD_ID : Fld := ⟨214, 16, fun _ => 0⟩
def QUY_POD_CFG_MASTER_ID : Fld := ⟨215, 12, fun _ => 0⟩

/-! `QUY_POD_CTL` (spec/12_quays_and_pods.md) -/
def QUY_POD_CTL_JOIN : Fld := ⟨216, 1, fun _ => 0⟩
def QUY_POD_CTL_RESET_POD : Fld := ⟨217, 1, fun _ => 0⟩
def QUY_POD_CTL_IN_POD : Fld := ⟨218, 1, fun _ => 0⟩
def QUY_POD_CTL_JOIN_RESULT : Fld := ⟨219, 4, fun _ => 0⟩

/-! `QUY_COLL_DIR` (spec/12_quays_and_pods.md) -/
def QUY_COLL_DIR_BASE : Fld := ⟨220, 48, fun _ => 0⟩

/-! `QUY_COLL_EN` (spec/12_quays_and_pods.md) -/
def QUY_COLL_EN_ENABLE : Fld := ⟨221, 64, fun _ => 0⟩

/-! `QUY_COLL_STATUS_LO` (spec/12_quays_and_pods.md) -/
def QUY_COLL_STATUS_LO_BAD : Fld := ⟨222, 64, fun _ => 0⟩

/-! `QUY_COLL_STATUS_HI` (spec/12_quays_and_pods.md) -/
def QUY_COLL_STATUS_HI_FAILED : Fld := ⟨223, 64, fun _ => 0⟩

/-! `QUY_SNAP_CTL_LO` (spec/12_quays_and_pods.md) -/
def QUY_SNAP_CTL_LO_CUT_TIDE : Fld := ⟨224, 64, fun _ => 0⟩

/-! `QUY_SNAP_CTL_HI` (spec/12_quays_and_pods.md) -/
def QUY_SNAP_CTL_HI_DEST : Fld := ⟨225, 48, fun _ => 0⟩
def QUY_SNAP_CTL_HI_LATE : Fld := ⟨226, 1, fun _ => 0⟩
def QUY_SNAP_CTL_HI_DONE : Fld := ⟨227, 1, fun _ => 0⟩

/-! `QUY_FREEZE_LAST` (spec/12_quays_and_pods.md) -/
def QUY_FREEZE_LAST_PEER : Fld := ⟨228, 12, fun _ => 0⟩
def QUY_FREEZE_LAST_CAUSE : Fld := ⟨229, 4, fun _ => 0⟩
def QUY_FREEZE_LAST_VALID : Fld := ⟨230, 1, fun _ => 0⟩

/-! `QUY_PEER` (spec/12_quays_and_pods.md) -/
def QUY_PEER_PEER_DEVICE : Fld := ⟨231, 12, fun _ => 0⟩
def QUY_PEER_PEER_QUAY : Fld := ⟨232, 4, fun _ => 0⟩
def QUY_PEER_UNUSED : Fld := ⟨233, 1, fun _ => 1⟩

/-! `QUY_CTL` (spec/12_quays_and_pods.md) -/
def QUY_CTL_STOP : Fld := ⟨234, 1, fun _ => 1⟩
def QUY_CTL_STOPPED : Fld := ⟨235, 1, fun _ => 1⟩

/-! `QUY_STATUS` (spec/12_quays_and_pods.md) -/
def QUY_STATUS_WIDTH : Fld := ⟨236, 6, fun _ => 0⟩
def QUY_STATUS_SPARES_LEFT : Fld := ⟨237, 2, fun _ => 0⟩
def QUY_STATUS_KEY_FAILS : Fld := ⟨238, 16, fun _ => 0⟩
def QUY_STATUS_DELAY_NS : Fld := ⟨239, 16, fun _ => 0⟩

/-! `QUY_BLOCKS_CORRECTED` (spec/12_quays_and_pods.md) -/
def QUY_BLOCKS_CORRECTED_COUNT : Fld := ⟨240, 64, fun _ => 0⟩

/-! `QUY_REPLAYS` (spec/12_quays_and_pods.md) -/
def QUY_REPLAYS_COUNT : Fld := ⟨241, 64, fun _ => 0⟩

/-! `HMR_SALVOR_STATUS` (spec/13_faults_and_recovery.md) -/
def HMR_SALVOR_STATUS_HANDLING : Fld := ⟨242, 2, fun _ => 0⟩
def HMR_SALVOR_STATUS_BUSY : Fld := ⟨243, 1, fun _ => 0⟩
def HMR_SALVOR_STATUS_ESCALATED : Fld := ⟨244, 1, fun _ => 0⟩
def HMR_SALVOR_STATUS_ESCALATIONS : Fld := ⟨245, 16, fun _ => 0⟩
def HMR_SALVOR_STATUS_RING_DROPS : Fld := ⟨246, 16, fun _ => 0⟩
def HMR_SALVOR_STATUS_RING_FENCES : Fld := ⟨247, 16, fun _ => 0⟩

/-! `HBM_STACK_STATUS` (spec/13_faults_and_recovery.md) -/
def HBM_STACK_STATUS_FENCED : Fld := ⟨248, 12, fun _ => 0⟩
def HBM_STACK_STATUS_CAUSE : Fld := ⟨249, 4, fun _ => 0⟩
def HBM_STACK_STATUS_LOST_SETS : Fld := ⟨250, 32, fun _ => 0⟩

/-! `CRN_REBUILD` (spec/13_faults_and_recovery.md) -/
def CRN_REBUILD_GROUP : Fld := ⟨251, 10, fun _ => 0⟩
def CRN_REBUILD_GO : Fld := ⟨252, 1, fun _ => 0⟩
def CRN_REBUILD_DONE : Fld := ⟨253, 1, fun _ => 0⟩
def CRN_REBUILD_BUSY : Fld := ⟨254, 1, fun _ => 0⟩

/-! `CRN_REBUILD_STATUS` (spec/13_faults_and_recovery.md) -/
def CRN_REBUILD_STATUS_RESULT : Fld := ⟨255, 3, fun _ => 0⟩
def CRN_REBUILD_STATUS_PAGES_DONE : Fld := ⟨256, 32, fun _ => 0⟩

/-! `DDK_ELOG_STATUS` (spec/13_faults_and_recovery.md) -/
def DDK_ELOG_STATUS_WRAPPED : Fld := ⟨257, 1, fun _ => 0⟩
def DDK_ELOG_STATUS_TOTAL : Fld := ⟨258, 32, fun _ => 0⟩

/-! `DDK_ELOG_INDEX` (spec/13_faults_and_recovery.md) -/
def DDK_ELOG_INDEX_INDEX : Fld := ⟨259, 12, fun _ => 0⟩

/-! `CUS_STATUS` (spec/14_customs_debug_power.md) -/
def CUS_STATUS_ERROR : Fld := ⟨260, 1, fun _ => 0⟩
def CUS_STATUS_VEILED : Fld := ⟨261, 1, fun _ => 0⟩
def CUS_STATUS_IDE_REQUIRED : Fld := ⟨262, 1, fun _ => 0⟩
def CUS_STATUS_OWNER_POLICY : Fld := ⟨263, 1, fun _ => 0⟩
def CUS_STATUS_ERROR_SOURCE : Fld := ⟨264, 8, fun _ => 0⟩
def CUS_STATUS_D2_COUNT : Fld := ⟨265, 16, fun _ => 0⟩

/-! `CUS_DEBUG_STATUS` (spec/14_customs_debug_power.md) -/
def CUS_DEBUG_STATUS_LEVEL : Fld := ⟨266, 2, fun _ => 0⟩
def CUS_DEBUG_STATUS_NARROWED : Fld := ⟨267, 1, fun _ => 0⟩
def CUS_DEBUG_STATUS_LAST_REFUSAL : Fld := ⟨268, 4, fun _ => 0⟩
def CUS_DEBUG_STATUS_CLOSE : Fld := ⟨269, 1, fun _ => 0⟩

/-! `CUS_DBG_KILN` (spec/14_customs_debug_power.md) -/
def CUS_DBG_KILN_KILN : Fld := ⟨270, 8, fun _ => 0⟩
def CUS_DBG_KILN_SLOT : Fld := ⟨271, 2, fun _ => 0⟩
def CUS_DBG_KILN_OP : Fld := ⟨272, 3, fun _ => 0⟩

/-! `CUS_ZEROISE` (spec/14_customs_debug_power.md) -/
def CUS_ZEROISE_GO : Fld := ⟨273, 1, fun _ => 0⟩
def CUS_ZEROISE_BUSY : Fld := ⟨274, 1, fun _ => 0⟩

/-! `HMR_POWER_CTL` (spec/14_customs_debug_power.md) -/
def HMR_POWER_CTL_STATE_REQ : Fld := ⟨275, 2, fun _ => 0⟩
def HMR_POWER_CTL_STEP_REQ : Fld := ⟨276, 2, fun _ => 0⟩

/-! `HMR_POWER_STATUS` (spec/14_customs_debug_power.md) -/
def HMR_POWER_STATUS_STEP : Fld := ⟨277, 2, fun _ => 0⟩
def HMR_POWER_STATUS_PENDING : Fld := ⟨278, 1, fun _ => 0⟩
def HMR_POWER_STATUS_QUAYS_WARM : Fld := ⟨279, 1, fun _ => 0⟩
def HMR_POWER_STATUS_WAKE_CAUSE : Fld := ⟨280, 8, fun _ => 0⟩
def HMR_POWER_STATUS_BANKED_ENTRIES : Fld := ⟨281, 32, fun _ => 0⟩

/-! `PLT_CAP` (spec/15_pilot_lighthouse_startup.md) -/
def PLT_CAP_CAP_W : Fld := ⟨282, 12, fun _ => 1800⟩

/-! `PLT_LIMIT` (spec/15_pilot_lighthouse_startup.md) -/
def PLT_LIMIT_RUNG : Fld := ⟨283, 4, fun _ => 0⟩
def PLT_LIMIT_STEP_LIMIT : Fld := ⟨284, 2, fun _ => 0⟩
def PLT_LIMIT_KILNS_PORT : Fld := ⟨285, 8, fun _ => 0⟩
def PLT_LIMIT_KILNS_STBD : Fld := ⟨286, 8, fun _ => 0⟩
def PLT_LIMIT_BUDGET_64THS : Fld := ⟨287, 7, fun _ => 64⟩
def PLT_LIMIT_CAP_UNMET : Fld := ⟨288, 1, fun _ => 0⟩

/-! `PLT_STATUS` (spec/15_pilot_lighthouse_startup.md) -/
def PLT_STATUS_RESTARTS : Fld := ⟨289, 16, fun _ => 0⟩
def PLT_STATUS_PILOT_DOWN : Fld := ⟨290, 1, fun _ => 0⟩
def PLT_STATUS_HELD_STOPPED : Fld := ⟨291, 1, fun _ => 0⟩

/-! `PLT_RESET` (spec/15_pilot_lighthouse_startup.md) -/
def PLT_RESET_KEY : Fld := ⟨292, 8, fun _ => 0⟩

/-! `PLT_POLICY` (spec/15_pilot_lighthouse_startup.md) -/
def PLT_POLICY_AUTO_RESET : Fld := ⟨293, 1, fun _ => 1⟩
def PLT_POLICY_HBM_FULL_WARM : Fld := ⟨294, 1, fun _ => 0⟩

/-! `PLT_PROFILE` (spec/15_pilot_lighthouse_startup.md) -/
def PLT_PROFILE_SAVE : Fld := ⟨295, 1, fun _ => 0⟩
def PLT_PROFILE_ERASE : Fld := ⟨296, 1, fun _ => 0⟩
def PLT_PROFILE_APPLIED : Fld := ⟨297, 1, fun _ => 0⟩
def PLT_PROFILE_BUSY : Fld := ⟨298, 1, fun _ => 0⟩

/-! `PLT_LOG_INDEX` (spec/15_pilot_lighthouse_startup.md) -/
def PLT_LOG_INDEX_INDEX : Fld := ⟨299, 14, fun _ => 0⟩
def PLT_LOG_INDEX_STARTUPS : Fld := ⟨300, 1, fun _ => 0⟩

/-! `HMR_TIDE_HOLD` (spec/15_pilot_lighthouse_startup.md) -/
def HMR_TIDE_HOLD_HOLD : Fld := ⟨301, 1, fun _ => 0⟩
def HMR_TIDE_HOLD_HELD : Fld := ⟨302, 1, fun _ => 0⟩

/-! `LHS_RTC` (spec/15_pilot_lighthouse_startup.md) -/
def LHS_RTC_COUNT : Fld := ⟨303, 64, fun _ => 0⟩

/-! `LHS_TIDE_SHADOW` (spec/15_pilot_lighthouse_startup.md) -/
def LHS_TIDE_SHADOW_TIDE : Fld := ⟨304, 64, fun _ => 0⟩

/-! `LHS_SENSE` (spec/15_pilot_lighthouse_startup.md) -/
def LHS_SENSE_INPUT_MV : Fld := ⟨305, 16, fun _ => 0⟩
def LHS_SENSE_SITE0 : Fld := ⟨306, 8, fun _ => 0⟩
def LHS_SENSE_SITE1 : Fld := ⟨307, 8, fun _ => 0⟩
def LHS_SENSE_SITE2 : Fld := ⟨308, 8, fun _ => 0⟩
def LHS_SENSE_SITE3 : Fld := ⟨309, 8, fun _ => 0⟩

/-! `LHS_TRIPS` (spec/15_pilot_lighthouse_startup.md) -/
def LHS_TRIPS_UV : Fld := ⟨310, 8, fun _ => 0⟩
def LHS_TRIPS_OV : Fld := ⟨311, 8, fun _ => 0⟩
def LHS_TRIPS_HOT : Fld := ⟨312, 8, fun _ => 0⟩
def LHS_TRIPS_SHUTDOWN : Fld := ⟨313, 8, fun _ => 0⟩
def LHS_TRIPS_LAST : Fld := ⟨314, 8, fun _ => 0⟩

/-! `LHS_START` (spec/15_pilot_lighthouse_startup.md) -/
def LHS_START_STEP : Fld := ⟨315, 3, fun _ => 0⟩
def LHS_START_FAILED : Fld := ⟨316, 1, fun _ => 0⟩
def LHS_START_COLD : Fld := ⟨317, 1, fun _ => 0⟩
def LHS_START_CAUSE : Fld := ⟨318, 8, fun _ => 0⟩

/-! `HST_SETUP_LOCK` (spec/16_register_summary.md) -/
def HST_SETUP_LOCK_SETUP_LOCK : Fld := ⟨319, 1, fun _ => 0⟩
def HST_SETUP_LOCK_BY_PILOT : Fld := ⟨320, 1, fun _ => 0⟩

/-! `HST_SETUP_LAST` (spec/16_register_summary.md) -/
def HST_SETUP_LAST_BLOCK : Fld := ⟨321, 4, fun _ => 0⟩
def HST_SETUP_LAST_CAUSE : Fld := ⟨322, 4, fun _ => 0⟩
def HST_SETUP_LAST_SOURCE : Fld := ⟨323, 2, fun _ => 0⟩
def HST_SETUP_LAST_OFFSET : Fld := ⟨324, 24, fun _ => 0⟩
def HST_SETUP_LAST_VALID : Fld := ⟨325, 1, fun _ => 0⟩

/-! `HST_SETUP_DISCARDS` (spec/16_register_summary.md) -/
def HST_SETUP_DISCARDS_COUNT : Fld := ⟨326, 32, fun _ => 0⟩

/-- The registers by name. -/
inductive Reg where
  | HMR_TIDE_CFG
  | HMR_TIDE_COUNT
  | HMR_TIDE_STATUS
  | HST_SIZE_ID
  | HST_SIZE_COMPUTE
  | HST_SIZE_MEMORY
  | HST_SIZE_LINKS
  | HST_SIZE_CLOCK
  | KLN_CHARGE_WAIT
  | KLN_LOOKUP_WAIT
  | KLN_T3_RESERVED_CODES
  | KLN_F8_SATURATIONS
  | KLN_F8_NANS
  | KLN_SLIP_LAST
  | KLN_OUTPUT_NANS
  | KLN_RESCALE_RESERVED
  | KLN_CTX_STATUS
  | KLN_MOORING
  | KLN_SWITCHES
  | KLN_STARVE
  | KLN_FAULT
  | HTH_MUL_WAIT
  | HTH_SATURATIONS
  | HTH_STATUS
  | STV_CTX_STATE_LO
  | STV_CTX_STATE_HI
  | STV_TAGS
  | STV_SHORT_UNITS
  | STV_DETACHES
  | STV_DETACH_LAST
  | STV_ABORTS
  | STV_RESUME_IGNORED
  | WHS_WAY_MAP_PORT_LO
  | WHS_WAY_MAP_PORT_HI
  | WHS_WAY_MAP_STBD_LO
  | WHS_WAY_MAP_STBD_HI
  | WHS_WAY_STOP
  | WHS_WAY_STATUS
  | WHS_HOT_CFG
  | WHS_HOT_HITS
  | WHS_HOT_MISSES
  | WHS_HOT_FILLS
  | WHS_ECC_CORRECTED
  | WHS_ECC_UNCORRECTED
  | DDK_MARCH_CTRL
  | DDK_MARCH_STATUS
  | DDK_MARCH_ABORTS
  | DDK_REPAIR
  | DDK_REPAIR_STATUS
  | DDK_REPAIR_CFG
  | CRN_TABLE_DIR
  | CRN_GROUP_DIR
  | CRN_TABLE_CTL
  | CRN_TABLE_RESULT
  | CRN_TALLY
  | CRN_READS
  | CRN_RAW
  | CRN_BAD_INDEX
  | CRN_LATE_PARTS
  | CRN_OUT_SAT
  | CRN_NONFINITE
  | HMR_EPOCH_CFG
  | HMR_CONS_STATUS
  | HMR_CONS_ABORTS
  | CRN_UNMAPPED
  | HMR_HIST_POOL
  | HMR_HIST_DIR
  | HMR_HIST_SIZE
  | HMR_HIST_CTL
  | HMR_HIST_STATUS
  | HMR_HIST_FULL
  | HMR_ADMIT_CTL
  | HMR_MODE
  | HMR_CLASS_SHARE
  | HMR_BUDGET_SLICE
  | HMR_LOOKUP_CFG
  | HMR_LOOKUP_STATUS
  | HMR_SAVE_AREA
  | HMR_LOCALITY_OVERRIDES
  | HMR_REFUSALS
  | HMR_SCHED_EVENTS
  | HMR_FREEZE_RESET
  | HMR_SAT_COUNTS
  | HMR_MODEL_DIR
  | HMR_MODEL_CTL
  | HMR_RING_SCHED
  | HMR_RING_STATE
  | HBM_CHSET
  | HBM_CHSET_STOP
  | HBM_CHSET_STATUS
  | HST_PORT_STATUS
  | HST_APERTURE
  | HST_APERTURE_BAD
  | HST_DB_STATUS
  | HST_WIN_TABLE
  | HST_WIN_INVAL
  | HST_EVT_BASE
  | HST_EVT_CFG
  | HST_EVT_CTL
  | HST_EVT_STATUS
  | HST_SQ_BASE
  | HST_CQ_BASE
  | HST_RING_CFG
  | HST_RING_CTL
  | HST_RING_STATUS
  | HST_RING_INDEX
  | QUY_POD_SIZE
  | QUY_POD_GEN
  | QUY_POD_CFG
  | QUY_POD_CTL
  | QUY_COLL_DIR
  | QUY_COLL_EN
  | QUY_COLL_STATUS_LO
  | QUY_COLL_STATUS_HI
  | QUY_SNAP_CTL_LO
  | QUY_SNAP_CTL_HI
  | QUY_FREEZE_LAST
  | QUY_PEER
  | QUY_CTL
  | QUY_STATUS
  | QUY_BLOCKS_CORRECTED
  | QUY_REPLAYS
  | HMR_SALVOR_STATUS
  | HBM_STACK_STATUS
  | CRN_REBUILD
  | CRN_REBUILD_STATUS
  | DDK_ELOG_STATUS
  | DDK_ELOG_INDEX
  | DDK_ELOG_DATA
  | CUS_STATUS
  | CUS_DEBUG_STATUS
  | CUS_DBG_KILN
  | CUS_ZEROISE
  | HMR_POWER_CTL
  | HMR_POWER_STATUS
  | PLT_CAP
  | PLT_LIMIT
  | PLT_STATUS
  | PLT_RESET
  | PLT_POLICY
  | PLT_PROFILE
  | PLT_LOG_INDEX
  | PLT_LOG_DATA
  | HMR_TIDE_HOLD
  | LHS_RTC
  | LHS_TIDE_SHADOW
  | LHS_SENSE
  | LHS_TRIPS
  | LHS_START
  | HST_SETUP_LOCK
  | HST_SETUP_STATUS
  | HST_SETUP_LAST
  | HST_SETUP_DISCARDS
  deriving DecidableEq, Repr

def row_HMR_TIDE_CFG : RegRow :=
  { block := 8, off := 0x40, stride := 0x0, count := 1, width := 32, setup := true, paged := .no, places :=
    [⟨0, 4, .rwl, .fld HMR_TIDE_CFG_PERIOD_STEPS 0⟩, ⟨16, 1, .rwl, .fld HMR_TIDE_CFG_SOURCE 0⟩] }
def row_HMR_TIDE_COUNT : RegRow :=
  { block := 8, off := 0x48, stride := 0x0, count := 1, width := 64, setup := false, paged := .no, places :=
    [⟨0, 64, .ro, .fld HMR_TIDE_COUNT_TIDE 0⟩] }
def row_HMR_TIDE_STATUS : RegRow :=
  { block := 8, off := 0x50, stride := 0x0, count := 1, width := 32, setup := false, paged := .no, places :=
    [⟨0, 1, .ro, .fld HMR_TIDE_STATUS_RUNNING 0⟩, ⟨1, 1, .ro, .fld HMR_TIDE_STATUS_LOCKED 0⟩,
     ⟨2, 1, .w1c, .fld HMR_TIDE_STATUS_SLIP 0⟩, ⟨16, 16, .ro, .fld HMR_TIDE_STATUS_OFFSET_NS 0⟩] }
def row_HST_SIZE_ID : RegRow :=
  { block := 7, off := 0x0, stride := 0x0, count := 1, width := 32, setup := false, paged := .no, places :=
    [⟨0, 8, .ro, .fld HST_SIZE_ID_TABLE_VERSION 0⟩, ⟨8, 8, .ro, .fld HST_SIZE_ID_BIN 0⟩,
     ⟨16, 8, .ro, .fld HST_SIZE_ID_STEPPING 0⟩, ⟨31, 1, .ro, .fld HST_SIZE_ID_VALID 0⟩] }
def row_HST_SIZE_COMPUTE : RegRow :=
  { block := 7, off := 0x8, stride := 0x0, count := 1, width := 64, setup := false, paged := .no, places :=
    [⟨0, 8, .ro, .fld HST_SIZE_COMPUTE_KILNS_PORT 0⟩, ⟨8, 8, .ro, .fld HST_SIZE_COMPUTE_KILNS_STBD 0⟩,
     ⟨16, 8, .ro, .fld HST_SIZE_COMPUTE_HEARTHS_PORT 0⟩, ⟨24, 8, .ro, .fld HST_SIZE_COMPUTE_HEARTHS_STBD 0⟩,
     ⟨32, 8, .ro, .fld HST_SIZE_COMPUTE_CRANES_PORT 0⟩, ⟨40, 8, .ro, .fld HST_SIZE_COMPUTE_CRANES_STBD 0⟩,
     ⟨48, 8, .ro, .fld HST_SIZE_COMPUTE_STEVEDORES_PORT 0⟩, ⟨56, 8, .ro, .fld HST_SIZE_COMPUTE_STEVEDORES_STBD 0⟩] }
def row_HST_SIZE_MEMORY : RegRow :=
  { block := 7, off := 0x10, stride := 0x0, count := 1, width := 64, setup := false, paged := .no, places :=
    [⟨0, 16, .ro, .fld HST_SIZE_MEMORY_WHS_MIB_PORT 0⟩, ⟨16, 16, .ro, .fld HST_SIZE_MEMORY_WHS_MIB_STBD 0⟩,
     ⟨32, 4, .ro, .fld HST_SIZE_MEMORY_HBM_STACKS_PORT 0⟩, ⟨36, 4, .ro, .fld HST_SIZE_MEMORY_HBM_STACKS_STBD 0⟩,
     ⟨40, 8, .ro, .fld HST_SIZE_MEMORY_HBM_GB_PER_STACK 0⟩, ⟨48, 8, .ro, .fld HST_SIZE_MEMORY_WHS_WAYS 0⟩] }
def row_HST_SIZE_LINKS : RegRow :=
  { block := 7, off := 0x18, stride := 0x0, count := 1, width := 64, setup := false, paged := .no, places :=
    [⟨0, 16, .ro, .fld HST_SIZE_LINKS_QUAYS_UP 0⟩, ⟨16, 8, .ro, .fld HST_SIZE_LINKS_LANES_PER_QUAY 0⟩,
     ⟨24, 8, .ro, .fld HST_SIZE_LINKS_SPARE_LANES_PER_QUAY 0⟩, ⟨32, 8, .ro, .fld HST_SIZE_LINKS_SPARE_LANES_INTACT 0⟩] }
def row_HST_SIZE_CLOCK : RegRow :=
  { block := 7, off := 0x20, stride := 0x0, count := 1, width := 32, setup := false, paged := .no, places :=
    [⟨0, 16, .ro, .fld HST_SIZE_CLOCK_ARITH_MHZ 0⟩, ⟨16, 4, .ro, .fld HST_SIZE_CLOCK_TIDE_STEPS_MIN 0⟩,
     ⟨20, 4, .ro, .fld HST_SIZE_CLOCK_TIDE_STEPS_MAX 0⟩] }
def row_KLN_CHARGE_WAIT : RegRow :=
  { block := 0, off := 0x300, stride := 0x1000, count := 256, width := 64, setup := false, paged := .kilns, places :=
    [⟨0, 64, .ro, .fld KLN_CHARGE_WAIT_CYCLES 0⟩] }
def row_KLN_LOOKUP_WAIT : RegRow :=
  { block := 0, off := 0x308, stride := 0x1000, count := 256, width := 64, setup := false, paged := .kilns, places :=
    [⟨0, 64, .ro, .fld KLN_LOOKUP_WAIT_CYCLES 0⟩] }
def row_KLN_T3_RESERVED_CODES : RegRow :=
  { block := 0, off := 0x310, stride := 0x1000, count := 256, width := 32, setup := false, paged := .kilns, places :=
    [⟨0, 32, .rc, .fld KLN_T3_RESERVED_CODES_COUNT 0⟩] }
def row_KLN_F8_SATURATIONS : RegRow :=
  { block := 0, off := 0x318, stride := 0x1000, count := 256, width := 32, setup := false, paged := .kilns, places :=
    [⟨0, 32, .rc, .fld KLN_F8_SATURATIONS_COUNT 0⟩] }
def row_KLN_F8_NANS : RegRow :=
  { block := 0, off := 0x31C, stride := 0x1000, count := 256, width := 32, setup := false, paged := .kilns, places :=
    [⟨0, 32, .rc, .fld KLN_F8_NANS_COUNT 0⟩] }
def row_KLN_SLIP_LAST : RegRow :=
  { block := 0, off := 0x328, stride := 0x1000, count := 256, width := 32, setup := false, paged := .kilns, places :=
    [⟨0, 8, .ro, .fld KLN_SLIP_LAST_EXPECTED 0⟩, ⟨8, 8, .ro, .fld KLN_SLIP_LAST_FOUND 0⟩,
     ⟨16, 2, .ro, .fld KLN_SLIP_LAST_SOURCE 0⟩, ⟨31, 1, .w1c, .fld KLN_SLIP_LAST_VALID 0⟩] }
def row_KLN_OUTPUT_NANS : RegRow :=
  { block := 0, off := 0x320, stride := 0x1000, count := 256, width := 32, setup := false, paged := .kilns, places :=
    [⟨0, 32, .rc, .fld KLN_OUTPUT_NANS_COUNT 0⟩] }
def row_KLN_RESCALE_RESERVED : RegRow :=
  { block := 0, off := 0x324, stride := 0x1000, count := 256, width := 32, setup := false, paged := .kilns, places :=
    [⟨0, 32, .rc, .fld KLN_RESCALE_RESERVED_COUNT 0⟩] }
def row_KLN_CTX_STATUS : RegRow :=
  { block := 0, off := 0x0, stride := 0x1000, count := 256, width := 64, setup := false, paged := .kilns, places :=
    [⟨0, 64, .ro, .mirror .ctxStatus⟩] }
def row_KLN_MOORING : RegRow :=
  { block := 0, off := 0x8, stride := 0x1000, count := 256, width := 64, setup := false, paged := .kilns, places :=
    [⟨0, 64, .ro, .mirror .mooring⟩] }
def row_KLN_SWITCHES : RegRow :=
  { block := 0, off := 0x330, stride := 0x1000, count := 256, width := 64, setup := false, paged := .kilns, places :=
    [⟨0, 64, .ro, .fld KLN_SWITCHES_COUNT 0⟩] }
def row_KLN_STARVE : RegRow :=
  { block := 0, off := 0x338, stride := 0x1000, count := 256, width := 64, setup := false, paged := .kilns, places :=
    [⟨0, 64, .ro, .fld KLN_STARVE_CYCLES 0⟩] }
def row_KLN_FAULT : RegRow :=
  { block := 0, off := 0x340, stride := 0x1000, count := 256, width := 32, setup := false, paged := .kilns, places :=
    [⟨0, 1, .ro, .fld KLN_FAULT_FENCED 0⟩, ⟨8, 8, .ro, .fld KLN_FAULT_SOURCE 0⟩] }
def row_HTH_MUL_WAIT : RegRow :=
  { block := 1, off := 0x0, stride := 0x1000, count := 256, width := 64, setup := false, paged := .hearths, places :=
    [⟨0, 64, .ro, .fld HTH_MUL_WAIT_CYCLES 0⟩] }
def row_HTH_SATURATIONS : RegRow :=
  { block := 1, off := 0x8, stride := 0x1000, count := 256, width := 32, setup := false, paged := .hearths, places :=
    [⟨0, 32, .rc, .fld HTH_SATURATIONS_COUNT 0⟩] }
def row_HTH_STATUS : RegRow :=
  { block := 1, off := 0xC, stride := 0x1000, count := 256, width := 32, setup := false, paged := .hearths, places :=
    [⟨0, 1, .w1c, .fld HTH_STATUS_COLLISION 0⟩, ⟨16, 16, .ro, .fld HTH_STATUS_LOST_WRITES 0⟩] }
def row_STV_CTX_STATE_LO : RegRow :=
  { block := 3, off := 0x0, stride := 0x1000, count := 256, width := 64, setup := false, paged := .stevedores, places :=
    [⟨0, 64, .ro, .mirror .ctxStateLo⟩] }
def row_STV_CTX_STATE_HI : RegRow :=
  { block := 3, off := 0x8, stride := 0x1000, count := 256, width := 64, setup := false, paged := .stevedores, places :=
    [⟨0, 64, .ro, .mirror .ctxStateHi⟩] }
def row_STV_TAGS : RegRow :=
  { block := 3, off := 0x10, stride := 0x1000, count := 256, width := 32, setup := false, paged := .stevedores, places :=
    [⟨0, 11, .ro, .fld STV_TAGS_IN_USE 0⟩, ⟨16, 11, .rc, .fld STV_TAGS_PEAK 0⟩] }
def row_STV_SHORT_UNITS : RegRow :=
  { block := 3, off := 0x18, stride := 0x1000, count := 256, width := 64, setup := false, paged := .stevedores, places :=
    [⟨0, 64, .ro, .fld STV_SHORT_UNITS_COUNT 0⟩] }
def row_STV_DETACHES : RegRow :=
  { block := 3, off := 0x20, stride := 0x1000, count := 256, width := 32, setup := false, paged := .stevedores, places :=
    [⟨0, 32, .rc, .fld STV_DETACHES_COUNT 0⟩] }
def row_STV_DETACH_LAST : RegRow :=
  { block := 3, off := 0x24, stride := 0x1000, count := 256, width := 32, setup := false, paged := .stevedores, places :=
    [⟨0, 5, .ro, .fld STV_DETACH_LAST_CONTEXT 0⟩, ⟨8, 8, .ro, .fld STV_DETACH_LAST_KILN 0⟩,
     ⟨16, 2, .ro, .fld STV_DETACH_LAST_CTX 0⟩, ⟨31, 1, .w1c, .fld STV_DETACH_LAST_VALID 0⟩] }
def row_STV_ABORTS : RegRow :=
  { block := 3, off := 0x28, stride := 0x1000, count := 256, width := 32, setup := false, paged := .stevedores, places :=
    [⟨0, 32, .rc, .fld STV_ABORTS_COUNT 0⟩] }
def row_STV_RESUME_IGNORED : RegRow :=
  { block := 3, off := 0x2C, stride := 0x1000, count := 256, width := 32, setup := false, paged := .stevedores, places :=
    [⟨0, 32, .rc, .fld STV_RESUME_IGNORED_COUNT 0⟩] }
def row_WHS_WAY_MAP_PORT_LO : RegRow :=
  { block := 4, off := 0x0, stride := 0x0, count := 1, width := 64, setup := true, paged := .no, places :=
    [⟨0, 2, .rw, .fld WHS_WAY_USE 0⟩, ⟨4, 4, .rw, .fld WHS_WAY_CLASSES 0⟩, ⟨8, 2, .rw, .fld WHS_WAY_USE 1⟩,
     ⟨12, 4, .rw, .fld WHS_WAY_CLASSES 1⟩, ⟨16, 2, .rw, .fld WHS_WAY_USE 2⟩, ⟨20, 4, .rw, .fld WHS_WAY_CLASSES 2⟩,
     ⟨24, 2, .rw, .fld WHS_WAY_USE 3⟩, ⟨28, 4, .rw, .fld WHS_WAY_CLASSES 3⟩, ⟨32, 2, .rw, .fld WHS_WAY_USE 4⟩,
     ⟨36, 4, .rw, .fld WHS_WAY_CLASSES 4⟩, ⟨40, 2, .rw, .fld WHS_WAY_USE 5⟩, ⟨44, 4, .rw, .fld WHS_WAY_CLASSES 5⟩,
     ⟨48, 2, .rw, .fld WHS_WAY_USE 6⟩, ⟨52, 4, .rw, .fld WHS_WAY_CLASSES 6⟩, ⟨56, 2, .rw, .fld WHS_WAY_USE 7⟩,
     ⟨60, 4, .rw, .fld WHS_WAY_CLASSES 7⟩] }
def row_WHS_WAY_MAP_PORT_HI : RegRow :=
  { block := 4, off := 0x8, stride := 0x0, count := 1, width := 64, setup := true, paged := .no, places :=
    [⟨0, 2, .rw, .fld WHS_WAY_USE 8⟩, ⟨4, 4, .rw, .fld WHS_WAY_CLASSES 8⟩, ⟨8, 2, .rw, .fld WHS_WAY_USE 9⟩,
     ⟨12, 4, .rw, .fld WHS_WAY_CLASSES 9⟩, ⟨16, 2, .rw, .fld WHS_WAY_USE 10⟩, ⟨20, 4, .rw, .fld WHS_WAY_CLASSES 10⟩,
     ⟨24, 2, .rw, .fld WHS_WAY_USE 11⟩, ⟨28, 4, .rw, .fld WHS_WAY_CLASSES 11⟩, ⟨32, 2, .rw, .fld WHS_WAY_USE 12⟩,
     ⟨36, 4, .rw, .fld WHS_WAY_CLASSES 12⟩, ⟨40, 2, .rw, .fld WHS_WAY_USE 13⟩, ⟨44, 4, .rw, .fld WHS_WAY_CLASSES 13⟩,
     ⟨48, 2, .rw, .fld WHS_WAY_USE 14⟩, ⟨52, 4, .rw, .fld WHS_WAY_CLASSES 14⟩, ⟨56, 2, .rw, .fld WHS_WAY_USE 15⟩,
     ⟨60, 4, .rw, .fld WHS_WAY_CLASSES 15⟩] }
def row_WHS_WAY_MAP_STBD_LO : RegRow :=
  { block := 4, off := 0x10, stride := 0x0, count := 1, width := 64, setup := true, paged := .no, places :=
    [⟨0, 2, .rw, .fld WHS_WAY_USE 16⟩, ⟨4, 4, .rw, .fld WHS_WAY_CLASSES 16⟩, ⟨8, 2, .rw, .fld WHS_WAY_USE 17⟩,
     ⟨12, 4, .rw, .fld WHS_WAY_CLASSES 17⟩, ⟨16, 2, .rw, .fld WHS_WAY_USE 18⟩, ⟨20, 4, .rw, .fld WHS_WAY_CLASSES 18⟩,
     ⟨24, 2, .rw, .fld WHS_WAY_USE 19⟩, ⟨28, 4, .rw, .fld WHS_WAY_CLASSES 19⟩, ⟨32, 2, .rw, .fld WHS_WAY_USE 20⟩,
     ⟨36, 4, .rw, .fld WHS_WAY_CLASSES 20⟩, ⟨40, 2, .rw, .fld WHS_WAY_USE 21⟩, ⟨44, 4, .rw, .fld WHS_WAY_CLASSES 21⟩,
     ⟨48, 2, .rw, .fld WHS_WAY_USE 22⟩, ⟨52, 4, .rw, .fld WHS_WAY_CLASSES 22⟩, ⟨56, 2, .rw, .fld WHS_WAY_USE 23⟩,
     ⟨60, 4, .rw, .fld WHS_WAY_CLASSES 23⟩] }
def row_WHS_WAY_MAP_STBD_HI : RegRow :=
  { block := 4, off := 0x18, stride := 0x0, count := 1, width := 64, setup := true, paged := .no, places :=
    [⟨0, 2, .rw, .fld WHS_WAY_USE 24⟩, ⟨4, 4, .rw, .fld WHS_WAY_CLASSES 24⟩, ⟨8, 2, .rw, .fld WHS_WAY_USE 25⟩,
     ⟨12, 4, .rw, .fld WHS_WAY_CLASSES 25⟩, ⟨16, 2, .rw, .fld WHS_WAY_USE 26⟩, ⟨20, 4, .rw, .fld WHS_WAY_CLASSES 26⟩,
     ⟨24, 2, .rw, .fld WHS_WAY_USE 27⟩, ⟨28, 4, .rw, .fld WHS_WAY_CLASSES 27⟩, ⟨32, 2, .rw, .fld WHS_WAY_USE 28⟩,
     ⟨36, 4, .rw, .fld WHS_WAY_CLASSES 28⟩, ⟨40, 2, .rw, .fld WHS_WAY_USE 29⟩, ⟨44, 4, .rw, .fld WHS_WAY_CLASSES 29⟩,
     ⟨48, 2, .rw, .fld WHS_WAY_USE 30⟩, ⟨52, 4, .rw, .fld WHS_WAY_CLASSES 30⟩, ⟨56, 2, .rw, .fld WHS_WAY_USE 31⟩,
     ⟨60, 4, .rw, .fld WHS_WAY_CLASSES 31⟩] }
def row_WHS_WAY_STOP : RegRow :=
  { block := 4, off := 0x20, stride := 0x0, count := 1, width := 32, setup := false, paged := .no, places :=
    [⟨0, 16, .rw, .fld WHS_WAY_STOP_PORT 0⟩, ⟨16, 16, .rw, .fld WHS_WAY_STOP_STBD 0⟩] }
def row_WHS_WAY_STATUS : RegRow :=
  { block := 4, off := 0x28, stride := 0x0, count := 1, width := 64, setup := false, paged := .no, places :=
    [⟨0, 16, .ro, .fld WHS_WAY_STATUS_STOPPED_PORT 0⟩, ⟨16, 16, .ro, .fld WHS_WAY_STATUS_STOPPED_STBD 0⟩,
     ⟨32, 16, .ro, .fld WHS_WAY_STATUS_BLOCKED_PORT 0⟩, ⟨48, 16, .ro, .fld WHS_WAY_STATUS_BLOCKED_STBD 0⟩] }
def row_WHS_HOT_CFG : RegRow :=
  { block := 4, off := 0x30, stride := 0x0, count := 1, width := 32, setup := false, paged := .no, places :=
    [⟨0, 8, .rw, .fld WHS_HOT_CFG_ADMIT_MIN 0⟩, ⟨8, 8, .rw, .fld WHS_HOT_CFG_ADMIT_FLOOR 0⟩,
     ⟨16, 4, .rw, .fld WHS_HOT_CFG_AGE_TIDES 0⟩, ⟨24, 8, .ro, .fld WHS_HOT_CFG_EFFECTIVE 0⟩] }
def row_WHS_HOT_HITS : RegRow :=
  { block := 4, off := 0x38, stride := 0x0, count := 1, width := 64, setup := false, paged := .no, places :=
    [⟨0, 64, .ro, .fld WHS_HOT_HITS_COUNT 0⟩] }
def row_WHS_HOT_MISSES : RegRow :=
  { block := 4, off := 0x40, stride := 0x0, count := 1, width := 64, setup := false, paged := .no, places :=
    [⟨0, 64, .ro, .fld WHS_HOT_MISSES_COUNT 0⟩] }
def row_WHS_HOT_FILLS : RegRow :=
  { block := 4, off := 0x48, stride := 0x0, count := 1, width := 64, setup := false, paged := .no, places :=
    [⟨0, 64, .ro, .fld WHS_HOT_FILLS_COUNT 0⟩] }
def row_WHS_ECC_CORRECTED : RegRow :=
  { block := 4, off := 0x50, stride := 0x0, count := 1, width := 32, setup := false, paged := .no, places :=
    [⟨0, 32, .rc, .fld WHS_ECC_CORRECTED_COUNT 0⟩] }
def row_WHS_ECC_UNCORRECTED : RegRow :=
  { block := 4, off := 0x54, stride := 0x0, count := 1, width := 32, setup := false, paged := .no, places :=
    [⟨0, 32, .rc, .fld WHS_ECC_UNCORRECTED_COUNT 0⟩] }
def row_DDK_MARCH_CTRL : RegRow :=
  { block := 12, off := 0x0, stride := 0x100, count := 2, width := 32, setup := false, paged := .no, places :=
    [⟨0, 1, .wo, .fld DDK_MARCH_CTRL_DESTRUCT_START 0⟩, ⟨1, 1, .rw, .fld DDK_MARCH_CTRL_RETENTION 0⟩,
     ⟨8, 8, .rw, .fld DDK_MARCH_CTRL_ROWS_PER_TIDE 0⟩, ⟨16, 16, .rw, .fld DDK_MARCH_CTRL_DESTRUCT_WAYS 0⟩] }
def row_DDK_MARCH_STATUS : RegRow :=
  { block := 12, off := 0x8, stride := 0x100, count := 2, width := 64, setup := false, paged := .no, places :=
    [⟨0, 1, .ro, .fld DDK_MARCH_STATUS_DESTRUCT_BUSY 0⟩, ⟨1, 1, .w1c, .fld DDK_MARCH_STATUS_DESTRUCT_REFUSED 0⟩,
     ⟨2, 1, .w1c, .fld DDK_MARCH_STATUS_FAIL 0⟩, ⟨32, 32, .ro, .fld DDK_MARCH_STATUS_PASSES 0⟩] }
def row_DDK_MARCH_ABORTS : RegRow :=
  { block := 12, off := 0x10, stride := 0x100, count := 2, width := 32, setup := false, paged := .no, places :=
    [⟨0, 32, .rc, .fld DDK_MARCH_ABORTS_COUNT 0⟩] }
def row_DDK_REPAIR : RegRow :=
  { block := 12, off := 0x200, stride := 0x0, count := 1, width := 32, setup := false, paged := .no, places :=
    [⟨0, 4, .rw, .fld DDK_REPAIR_KIND 0⟩, ⟨4, 8, .rw, .fld DDK_REPAIR_UNIT 0⟩, ⟨12, 4, .rw, .fld DDK_REPAIR_MACRO 0⟩,
     ⟨16, 11, .rw, .fld DDK_REPAIR_COLUMN 0⟩, ⟨30, 1, .wo, .fld DDK_REPAIR_GO 0⟩, ⟨31, 1, .ro, .fld DDK_REPAIR_BUSY 0⟩] }
def row_DDK_REPAIR_STATUS : RegRow :=
  { block := 12, off := 0x208, stride := 0x0, count := 1, width := 32, setup := false, paged := .no, places :=
    [⟨0, 2, .ro, .fld DDK_REPAIR_STATUS_RESULT 0⟩, ⟨31, 1, .w1c, .fld DDK_REPAIR_STATUS_DONE 0⟩] }
def row_DDK_REPAIR_CFG : RegRow :=
  { block := 12, off := 0x210, stride := 0x0, count := 1, width := 32, setup := true, paged := .no, places :=
    [⟨0, 1, .rwl, .fld DDK_REPAIR_CFG_AUTO 0⟩] }
def row_CRN_TABLE_DIR : RegRow :=
  { block := 2, off := 0x0, stride := 0x0, count := 1, width := 64, setup := true, paged := .no, places :=
    [⟨0, 48, .rwl, .fld CRN_TABLE_DIR_BASE 0⟩, ⟨48, 12, .rwl, .fld CRN_TABLE_DIR_TABLES 0⟩] }
def row_CRN_GROUP_DIR : RegRow :=
  { block := 2, off := 0x8, stride := 0x0, count := 1, width := 64, setup := true, paged := .no, places :=
    [⟨0, 48, .rwl, .fld CRN_GROUP_DIR_BASE 0⟩, ⟨48, 10, .rwl, .fld CRN_GROUP_DIR_GROUPS 0⟩] }
def row_CRN_TABLE_CTL : RegRow :=
  { block := 2, off := 0x10, stride := 0x0, count := 1, width := 32, setup := false, paged := .no, places :=
    [⟨0, 12, .wo, .fld CRN_TABLE_CTL_TABLE 0⟩, ⟨12, 2, .wo, .fld CRN_TABLE_CTL_OP 0⟩,
     ⟨30, 1, .w1c, .fld CRN_TABLE_CTL_DONE 0⟩, ⟨31, 1, .ro, .fld CRN_TABLE_CTL_BUSY 0⟩] }
def row_CRN_TABLE_RESULT : RegRow :=
  { block := 2, off := 0x14, stride := 0x0, count := 1, width := 32, setup := false, paged := .no, places :=
    [⟨0, 3, .ro, .fld CRN_TABLE_RESULT_RESULT 0⟩] }
def row_CRN_TALLY : RegRow :=
  { block := 2, off := 0x10000, stride := 0x1000, count := 240, width := 32, setup := false, paged := .cranes, places :=
    [⟨0, 1, .w1c, .fld CRN_TALLY_COUNT_SAT 0⟩, ⟨16, 16, .ro, .fld CRN_TALLY_FLUSHES 0⟩] }
def row_CRN_READS : RegRow :=
  { block := 2, off := 0x10008, stride := 0x1000, count := 240, width := 64, setup := false, paged := .cranes, places :=
    [⟨0, 64, .ro, .fld CRN_READS_COUNT 0⟩] }
def row_CRN_RAW : RegRow :=
  { block := 2, off := 0x10010, stride := 0x1000, count := 240, width := 64, setup := false, paged := .cranes, places :=
    [⟨0, 32, .ro, .fld CRN_RAW_RAW_SENT 0⟩, ⟨32, 32, .ro, .fld CRN_RAW_RAW_RECEIVED 0⟩] }
def row_CRN_BAD_INDEX : RegRow :=
  { block := 2, off := 0x10018, stride := 0x1000, count := 240, width := 32, setup := false, paged := .cranes, places :=
    [⟨0, 32, .rc, .fld CRN_BAD_INDEX_COUNT 0⟩] }
def row_CRN_LATE_PARTS : RegRow :=
  { block := 2, off := 0x1001C, stride := 0x1000, count := 240, width := 32, setup := false, paged := .cranes, places :=
    [⟨0, 32, .rc, .fld CRN_LATE_PARTS_COUNT 0⟩] }
def row_CRN_OUT_SAT : RegRow :=
  { block := 2, off := 0x10020, stride := 0x1000, count := 240, width := 32, setup := false, paged := .cranes, places :=
    [⟨0, 32, .rc, .fld CRN_OUT_SAT_COUNT 0⟩] }
def row_CRN_NONFINITE : RegRow :=
  { block := 2, off := 0x10024, stride := 0x1000, count := 240, width := 32, setup := false, paged := .cranes, places :=
    [⟨0, 32, .rc, .fld CRN_NONFINITE_COUNT 0⟩] }
def row_HMR_EPOCH_CFG : RegRow :=
  { block := 8, off := 0x300, stride := 0x0, count := 1, width := 32, setup := true, paged := .no, places :=
    [⟨0, 13, .rwl, .fld HMR_EPOCH_CFG_GRACE_TIDES 0⟩] }
def row_HMR_CONS_STATUS : RegRow :=
  { block := 8, off := 0x308, stride := 0x0, count := 1, width := 64, setup := false, paged := .no, places :=
    [⟨0, 5, .ro, .mirror .consOpen⟩, ⟨8, 5, .ro, .mirror .consInDoubt⟩,
     ⟨16, 16, .ro, .fld HMR_CONS_STATUS_LATE_NOTICES 0⟩, ⟨32, 32, .ro, .fld HMR_CONS_STATUS_COMMITS 0⟩] }
def row_HMR_CONS_ABORTS : RegRow :=
  { block := 8, off := 0x310, stride := 0x0, count := 1, width := 32, setup := false, paged := .no, places :=
    [⟨0, 32, .rc, .fld HMR_CONS_ABORTS_COUNT 0⟩] }
def row_CRN_UNMAPPED : RegRow :=
  { block := 2, off := 0x10028, stride := 0x1000, count := 240, width := 32, setup := false, paged := .cranes, places :=
    [⟨0, 32, .rc, .fld CRN_UNMAPPED_COUNT 0⟩] }
def row_HMR_HIST_POOL : RegRow :=
  { block := 8, off := 0x400, stride := 0x0, count := 1, width := 64, setup := true, paged := .no, places :=
    [⟨0, 48, .rwl, .fld HMR_HIST_POOL_BASE 0⟩] }
def row_HMR_HIST_DIR : RegRow :=
  { block := 8, off := 0x408, stride := 0x0, count := 1, width := 64, setup := true, paged := .no, places :=
    [⟨0, 48, .rwl, .fld HMR_HIST_DIR_BASE 0⟩] }
def row_HMR_HIST_SIZE : RegRow :=
  { block := 8, off := 0x410, stride := 0x0, count := 1, width := 64, setup := true, paged := .no, places :=
    [⟨0, 20, .rwl, .fld HMR_HIST_SIZE_FRAMES 0⟩, ⟨32, 24, .rwl, .fld HMR_HIST_SIZE_ENTRIES 0⟩] }
def row_HMR_HIST_CTL : RegRow :=
  { block := 8, off := 0x418, stride := 0x0, count := 1, width := 32, setup := false, paged := .no, places :=
    [⟨0, 1, .rw, .fld HMR_HIST_CTL_STOP 0⟩, ⟨1, 1, .ro, .fld HMR_HIST_CTL_STOPPED 0⟩] }
def row_HMR_HIST_STATUS : RegRow :=
  { block := 8, off := 0x420, stride := 0x0, count := 1, width := 64, setup := false, paged := .no, places :=
    [⟨0, 20, .ro, .mirror .histFree⟩, ⟨32, 24, .ro, .mirror .histOpen⟩] }
def row_HMR_HIST_FULL : RegRow :=
  { block := 8, off := 0x428, stride := 0x0, count := 1, width := 32, setup := false, paged := .no, places :=
    [⟨0, 32, .rc, .fld HMR_HIST_FULL_COUNT 0⟩] }
def row_HMR_ADMIT_CTL : RegRow :=
  { block := 8, off := 0x500, stride := 0x0, count := 1, width := 32, setup := false, paged := .no, places :=
    [⟨0, 1, .rw, .fld HMR_ADMIT_CTL_STOP 0⟩, ⟨1, 1, .ro, .fld HMR_ADMIT_CTL_DRAINED 0⟩] }
def row_HMR_MODE : RegRow :=
  { block := 8, off := 0x508, stride := 0x0, count := 1, width := 32, setup := true, paged := .no, places :=
    [⟨0, 1, .rwl, .fld HMR_MODE_SINGLE 0⟩, ⟨16, 16, .rwl, .fld HMR_MODE_SINGLE_MODEL 0⟩] }
def row_HMR_CLASS_SHARE : RegRow :=
  { block := 8, off := 0x510, stride := 0x0, count := 1, width := 32, setup := true, paged := .no, places :=
    [⟨0, 6, .rwl, .fld HMR_CLASS_SHARE_SHARE_C0 0⟩, ⟨8, 6, .rwl, .fld HMR_CLASS_SHARE_SHARE_C1 0⟩,
     ⟨16, 6, .rwl, .fld HMR_CLASS_SHARE_SHARE_C2 0⟩, ⟨24, 6, .rwl, .fld HMR_CLASS_SHARE_SHARE_C3 0⟩] }
def row_HMR_BUDGET_SLICE : RegRow :=
  { block := 8, off := 0x518, stride := 0x0, count := 1, width := 32, setup := true, paged := .no, places :=
    [⟨0, 20, .rwl, .fld HMR_BUDGET_SLICE_SLICE_PER_US 0⟩] }
def row_HMR_LOOKUP_CFG : RegRow :=
  { block := 8, off := 0x520, stride := 0x0, count := 1, width := 32, setup := true, paged := .no, places :=
    [⟨0, 24, .rwl, .fld HMR_LOOKUP_CFG_LOOKUP_MAX 0⟩] }
def row_HMR_LOOKUP_STATUS : RegRow :=
  { block := 8, off := 0x524, stride := 0x0, count := 1, width := 32, setup := false, paged := .no, places :=
    [⟨0, 24, .ro, .fld HMR_LOOKUP_STATUS_ALLOW 0⟩] }
def row_HMR_SAVE_AREA : RegRow :=
  { block := 8, off := 0x528, stride := 0x0, count := 1, width := 64, setup := true, paged := .no, places :=
    [⟨0, 48, .rwl, .fld HMR_SAVE_AREA_BASE 0⟩, ⟨48, 8, .rwl, .fld HMR_SAVE_AREA_FRAMES 0⟩] }
def row_HMR_LOCALITY_OVERRIDES : RegRow :=
  { block := 8, off := 0x530, stride := 0x0, count := 1, width := 32, setup := false, paged := .no, places :=
    [⟨0, 32, .rc, .fld HMR_LOCALITY_OVERRIDES_COUNT 0⟩] }
def row_HMR_REFUSALS : RegRow :=
  { block := 8, off := 0x538, stride := 0x0, count := 1, width := 32, setup := false, paged := .no, places :=
    [⟨0, 32, .rc, .fld HMR_REFUSALS_COUNT 0⟩] }
def row_HMR_SCHED_EVENTS : RegRow :=
  { block := 8, off := 0x540, stride := 0x0, count := 1, width := 64, setup := false, paged := .no, places :=
    [⟨0, 16, .rc, .fld HMR_SCHED_EVENTS_BROKEN 0⟩, ⟨16, 16, .rc, .fld HMR_SCHED_EVENTS_EVICTIONS 0⟩,
     ⟨32, 16, .rc, .fld HMR_SCHED_EVENTS_FREEZES 0⟩, ⟨48, 16, .rc, .fld HMR_SCHED_EVENTS_EVICT_NO_FRAME 0⟩] }
def row_HMR_FREEZE_RESET : RegRow :=
  { block := 8, off := 0x548, stride := 0x0, count := 1, width := 32, setup := false, paged := .no, places :=
    [⟨0, 2, .wo, .fld HMR_FREEZE_RESET_KIND 0⟩, ⟨16, 12, .wo, .fld HMR_FREEZE_RESET_ID 0⟩] }
def row_HMR_SAT_COUNTS : RegRow :=
  { block := 8, off := 0x580, stride := 0x4, count := 8, width := 32, setup := false, paged := .no, places :=
    [⟨0, 32, .rc, .fld HMR_SAT_COUNTS_TIDES 0⟩] }
def row_HMR_MODEL_DIR : RegRow :=
  { block := 8, off := 0x600, stride := 0x0, count := 1, width := 64, setup := true, paged := .no, places :=
    [⟨0, 48, .rwl, .fld HMR_MODEL_DIR_BASE 0⟩, ⟨48, 16, .rwl, .fld HMR_MODEL_DIR_ENTRIES 0⟩] }
def row_HMR_MODEL_CTL : RegRow :=
  { block := 8, off := 0x608, stride := 0x0, count := 1, width := 32, setup := false, paged := .no, places :=
    [⟨0, 16, .wo, .fld HMR_MODEL_CTL_MODEL 0⟩, ⟨16, 2, .wo, .fld HMR_MODEL_CTL_OP 0⟩,
     ⟨18, 2, .ro, .fld HMR_MODEL_CTL_RESULT 0⟩, ⟨30, 1, .w1c, .fld HMR_MODEL_CTL_DONE 0⟩,
     ⟨31, 1, .ro, .fld HMR_MODEL_CTL_BUSY 0⟩] }
def row_HMR_RING_SCHED : RegRow :=
  { block := 8, off := 0x1000, stride := 0x10, count := 256, width := 64, setup := true, paged := .no, places :=
    [⟨0, 2, .rwl, .fld HMR_RING_SCHED_CLASS 0⟩, ⟨16, 16, .rwl, .fld HMR_RING_SCHED_DEBT_MAX 0⟩] }
def row_HMR_RING_STATE : RegRow :=
  { block := 8, off := 0x1008, stride := 0x10, count := 256, width := 64, setup := false, paged := .no, places :=
    [⟨0, 32, .ro, .fld HMR_RING_STATE_DEBT_NS 0⟩, ⟨32, 1, .ro, .mirror .ringFrozen⟩] }
def row_HBM_CHSET : RegRow :=
  { block := 5, off := 0x0, stride := 0x8, count := 32, width := 64, setup := true, paged := .no, places :=
    [⟨0, 9, .rw, .fld HBM_CHSET_FIRST_CHANNEL 0⟩, ⟨16, 9, .rw, .fld HBM_CHSET_COUNT 0⟩,
     ⟨28, 2, .rw, .fld HBM_CHSET_USE 0⟩, ⟨32, 4, .rw, .fld HBM_CHSET_CLASSES 0⟩,
     ⟨40, 4, .rw, .fld HBM_CHSET_SHARE_C0 0⟩, ⟨44, 4, .rw, .fld HBM_CHSET_SHARE_C1 0⟩,
     ⟨48, 4, .rw, .fld HBM_CHSET_SHARE_C2 0⟩, ⟨52, 4, .rw, .fld HBM_CHSET_SHARE_C3 0⟩] }
def row_HBM_CHSET_STOP : RegRow :=
  { block := 5, off := 0x100, stride := 0x0, count := 1, width := 32, setup := false, paged := .no, places :=
    [⟨0, 32, .rw, .fld HBM_CHSET_STOP_STOP 0⟩] }
def row_HBM_CHSET_STATUS : RegRow :=
  { block := 5, off := 0x108, stride := 0x0, count := 1, width := 32, setup := false, paged := .no, places :=
    [⟨0, 32, .ro, .fld HBM_CHSET_STATUS_STOPPED 0⟩] }
def row_HST_PORT_STATUS : RegRow :=
  { block := 7, off := 0x40, stride := 0x8, count := 2, width := 32, setup := false, paged := .no, places :=
    [⟨0, 4, .ro, .fld HST_PORT_STATUS_SPEED 0⟩, ⟨4, 5, .ro, .fld HST_PORT_STATUS_WIDTH 0⟩,
     ⟨9, 1, .ro, .fld HST_PORT_STATUS_FLIT 0⟩, ⟨10, 1, .ro, .fld HST_PORT_STATUS_IDE_SECURE 0⟩,
     ⟨11, 1, .ro, .fld HST_PORT_STATUS_BME 0⟩] }
def row_HST_APERTURE : RegRow :=
  { block := 7, off := 0x60, stride := 0x8, count := 2, width := 64, setup := false, paged := .no, places :=
    [⟨32, 16, .rw, .fld HST_APERTURE_BASE 0⟩] }
def row_HST_APERTURE_BAD : RegRow :=
  { block := 7, off := 0x70, stride := 0x0, count := 1, width := 32, setup := false, paged := .no, places :=
    [⟨0, 32, .rc, .fld HST_APERTURE_BAD_APERTURE_BAD 0⟩] }
def row_HST_DB_STATUS : RegRow :=
  { block := 7, off := 0x78, stride := 0x0, count := 1, width := 32, setup := false, paged := .no, places :=
    [⟨0, 16, .rc, .fld HST_DB_STATUS_BAD_WRITES 0⟩, ⟨16, 16, .rc, .fld HST_DB_STATUS_RESUME_IGNORED 0⟩] }
def row_HST_WIN_TABLE : RegRow :=
  { block := 7, off := 0x80, stride := 0x0, count := 1, width := 64, setup := true, paged := .no, places :=
    [⟨0, 8, .rw, .fld HST_WIN_TABLE_ENTRIES 0⟩, ⟨11, 1, .rw, .fld HST_WIN_TABLE_PORT 0⟩,
     ⟨12, 52, .rw, .fld HST_WIN_TABLE_BASE 0⟩] }
def row_HST_WIN_INVAL : RegRow :=
  { block := 7, off := 0x88, stride := 0x0, count := 1, width := 32, setup := false, paged := .no, places :=
    [⟨0, 8, .wo, .fld HST_WIN_INVAL_ENTRY 0⟩, ⟨8, 1, .wo, .fld HST_WIN_INVAL_ALL 0⟩,
     ⟨31, 1, .ro, .fld HST_WIN_INVAL_BUSY 0⟩] }
def row_HST_EVT_BASE : RegRow :=
  { block := 7, off := 0x90, stride := 0x0, count := 1, width := 64, setup := true, paged := .no, places :=
    [⟨12, 52, .rw, .fld HST_EVT_BASE_BASE 0⟩] }
def row_HST_EVT_CFG : RegRow :=
  { block := 7, off := 0x98, stride := 0x0, count := 1, width := 32, setup := true, paged := .no, places :=
    [⟨0, 5, .rw, .fld HST_EVT_CFG_LOG2 0⟩, ⟨5, 1, .rw, .fld HST_EVT_CFG_PORT 0⟩,
     ⟨16, 9, .rw, .fld HST_EVT_CFG_VECTOR 0⟩] }
def row_HST_EVT_CTL : RegRow :=
  { block := 7, off := 0xA0, stride := 0x0, count := 1, width := 32, setup := false, paged := .no, places :=
    [⟨0, 1, .rw, .fld HST_EVT_CTL_ENABLE 0⟩, ⟨1, 1, .ro, .fld HST_EVT_CTL_STOPPED 0⟩] }
def row_HST_EVT_STATUS : RegRow :=
  { block := 7, off := 0xA8, stride := 0x0, count := 1, width := 64, setup := false, paged := .no, places :=
    [⟨0, 32, .ro, .mirror .evtProducer⟩, ⟨32, 9, .ro, .mirror .evtQueued⟩,
     ⟨41, 1, .w1c, .fld HST_EVT_STATUS_OVERFLOW 0⟩, ⟨48, 16, .rc, .fld HST_EVT_STATUS_LOST 0⟩] }
def row_HST_SQ_BASE : RegRow :=
  { block := 7, off := 0x10000, stride := 0x40, count := 256, width := 64, setup := true, paged := .no, places :=
    [⟨12, 52, .rw, .fld HST_SQ_BASE_BASE 0⟩] }
def row_HST_CQ_BASE : RegRow :=
  { block := 7, off := 0x10008, stride := 0x40, count := 256, width := 64, setup := true, paged := .no, places :=
    [⟨12, 52, .rw, .fld HST_CQ_BASE_BASE 0⟩] }
def row_HST_RING_CFG : RegRow :=
  { block := 7, off := 0x10010, stride := 0x40, count := 256, width := 64, setup := true, paged := .no, places :=
    [⟨0, 5, .rw, .fld HST_RING_CFG_SQ_LOG2 0⟩, ⟨8, 5, .rw, .fld HST_RING_CFG_CQ_LOG2 0⟩,
     ⟨16, 1, .rw, .fld HST_RING_CFG_PORT 0⟩, ⟨17, 1, .rw, .fld HST_RING_CFG_IRQ_EN 0⟩,
     ⟨20, 9, .rw, .fld HST_RING_CFG_VECTOR 0⟩, ⟨32, 8, .rw, .fld HST_RING_CFG_COALESCE_RECORDS 0⟩,
     ⟨40, 8, .rw, .fld HST_RING_CFG_COALESCE_US 0⟩] }
def row_HST_RING_CTL : RegRow :=
  { block := 7, off := 0x10018, stride := 0x40, count := 256, width := 32, setup := false, paged := .no, places :=
    [⟨0, 1, .rw, .fld HST_RING_CTL_ENABLE 0⟩] }
def row_HST_RING_STATUS : RegRow :=
  { block := 7, off := 0x10020, stride := 0x40, count := 256, width := 64, setup := false, paged := .no, places :=
    [⟨0, 2, .ro, .mirror .ringState⟩, ⟨2, 1, .ro, .fld HST_RING_STATUS_RESET_PENDING 0⟩,
     ⟨3, 1, .w1c, .fld HST_RING_STATUS_IDE_BLOCKED 0⟩, ⟨4, 4, .ro, .fld HST_RING_STATUS_FREEZE_CAUSE 0⟩,
     ⟨16, 16, .ro, .mirror .ringActive⟩, ⟨32, 17, .ro, .mirror .ringReserved⟩] }
def row_HST_RING_INDEX : RegRow :=
  { block := 7, off := 0x10028, stride := 0x40, count := 256, width := 64, setup := false, paged := .no, places :=
    [⟨0, 32, .ro, .mirror .ringSqConsumer⟩, ⟨32, 32, .ro, .mirror .ringCqProducer⟩] }
def row_QUY_POD_SIZE : RegRow :=
  { block := 6, off := 0x10, stride := 0x0, count := 1, width := 64, setup := false, paged := .no, places :=
    [⟨0, 13, .ro, .fld QUY_POD_SIZE_DEVICES 0⟩, ⟨13, 3, .ro, .fld QUY_POD_SIZE_LEVELS 0⟩,
     ⟨16, 11, .ro, .fld QUY_POD_SIZE_GROUPS 0⟩, ⟨27, 1, .ro, .fld QUY_POD_SIZE_NO_STANDBY 0⟩,
     ⟨32, 12, .ro, .fld QUY_POD_SIZE_MASTER 0⟩, ⟨48, 12, .ro, .fld QUY_POD_SIZE_STANDBY 0⟩] }
def row_QUY_POD_GEN : RegRow :=
  { block := 6, off := 0x18, stride := 0x0, count := 1, width := 32, setup := false, paged := .no, places :=
    [⟨0, 32, .ro, .fld QUY_POD_GEN_GENERATION 0⟩] }
def row_QUY_POD_CFG : RegRow :=
  { block := 6, off := 0x0, stride := 0x0, count := 1, width := 64, setup := true, paged := .no, places :=
    [⟨0, 12, .rwl, .fld QUY_POD_CFG_DEVICE_ID 0⟩, ⟨12, 2, .rwl, .fld QUY_POD_CFG_ROLE 0⟩,
     ⟨14, 1, .rwl, .fld QUY_POD_CFG_STANDBY_OK 0⟩, ⟨16, 16, .rwl, .fld QUY_POD_CFG_POD_ID 0⟩,
     ⟨32, 12, .rwl, .fld QUY_POD_CFG_MASTER_ID 0⟩] }
def row_QUY_POD_CTL : RegRow :=
  { block := 6, off := 0x8, stride := 0x0, count := 1, width := 32, setup := false, paged := .no, places :=
    [⟨0, 1, .rw, .fld QUY_POD_CTL_JOIN 0⟩, ⟨1, 1, .wo, .fld QUY_POD_CTL_RESET_POD 0⟩,
     ⟨2, 1, .ro, .fld QUY_POD_CTL_IN_POD 0⟩, ⟨8, 4, .ro, .fld QUY_POD_CTL_JOIN_RESULT 0⟩] }
def row_QUY_COLL_DIR : RegRow :=
  { block := 6, off := 0x20, stride := 0x0, count := 1, width := 64, setup := true, paged := .no, places :=
    [⟨0, 48, .rwl, .fld QUY_COLL_DIR_BASE 0⟩] }
def row_QUY_COLL_EN : RegRow :=
  { block := 6, off := 0x28, stride := 0x0, count := 1, width := 64, setup := false, paged := .no, places :=
    [⟨0, 64, .rw, .fld QUY_COLL_EN_ENABLE 0⟩] }
def row_QUY_COLL_STATUS_LO : RegRow :=
  { block := 6, off := 0x30, stride := 0x0, count := 1, width := 64, setup := false, paged := .no, places :=
    [⟨0, 64, .ro, .fld QUY_COLL_STATUS_LO_BAD 0⟩] }
def row_QUY_COLL_STATUS_HI : RegRow :=
  { block := 6, off := 0x38, stride := 0x0, count := 1, width := 64, setup := false, paged := .no, places :=
    [⟨0, 64, .ro, .fld QUY_COLL_STATUS_HI_FAILED 0⟩] }
def row_QUY_SNAP_CTL_LO : RegRow :=
  { block := 6, off := 0x40, stride := 0x0, count := 1, width := 64, setup := false, paged := .no, places :=
    [⟨0, 64, .rw, .fld QUY_SNAP_CTL_LO_CUT_TIDE 0⟩] }
def row_QUY_SNAP_CTL_HI : RegRow :=
  { block := 6, off := 0x48, stride := 0x0, count := 1, width := 64, setup := false, paged := .no, places :=
    [⟨0, 48, .rw, .fld QUY_SNAP_CTL_HI_DEST 0⟩, ⟨62, 1, .w1c, .fld QUY_SNAP_CTL_HI_LATE 0⟩,
     ⟨63, 1, .w1c, .fld QUY_SNAP_CTL_HI_DONE 0⟩] }
def row_QUY_FREEZE_LAST : RegRow :=
  { block := 6, off := 0x50, stride := 0x0, count := 1, width := 32, setup := false, paged := .no, places :=
    [⟨0, 12, .ro, .fld QUY_FREEZE_LAST_PEER 0⟩, ⟨12, 4, .ro, .fld QUY_FREEZE_LAST_CAUSE 0⟩,
     ⟨31, 1, .w1c, .fld QUY_FREEZE_LAST_VALID 0⟩] }
def row_QUY_PEER : RegRow :=
  { block := 6, off := 0x10000, stride := 0x1000, count := 240, width := 32, setup := true, paged := .quays, places :=
    [⟨0, 12, .rw, .fld QUY_PEER_PEER_DEVICE 0⟩, ⟨12, 4, .rw, .fld QUY_PEER_PEER_QUAY 0⟩,
     ⟨16, 1, .rw, .fld QUY_PEER_UNUSED 0⟩] }
def row_QUY_CTL : RegRow :=
  { block := 6, off := 0x10008, stride := 0x1000, count := 240, width := 32, setup := false, paged := .quays, places :=
    [⟨0, 1, .rw, .fld QUY_CTL_STOP 0⟩, ⟨1, 1, .ro, .fld QUY_CTL_STOPPED 0⟩] }
def row_QUY_STATUS : RegRow :=
  { block := 6, off := 0x10010, stride := 0x1000, count := 240, width := 64, setup := false, paged := .quays, places :=
    [⟨0, 3, .ro, .mirror .quayState⟩, ⟨8, 6, .ro, .fld QUY_STATUS_WIDTH 0⟩,
     ⟨14, 2, .ro, .fld QUY_STATUS_SPARES_LEFT 0⟩, ⟨16, 16, .rc, .fld QUY_STATUS_KEY_FAILS 0⟩,
     ⟨32, 16, .ro, .fld QUY_STATUS_DELAY_NS 0⟩] }
def row_QUY_BLOCKS_CORRECTED : RegRow :=
  { block := 6, off := 0x10018, stride := 0x1000, count := 240, width := 64, setup := false, paged := .quays, places :=
    [⟨0, 64, .ro, .fld QUY_BLOCKS_CORRECTED_COUNT 0⟩] }
def row_QUY_REPLAYS : RegRow :=
  { block := 6, off := 0x10020, stride := 0x1000, count := 240, width := 64, setup := false, paged := .quays, places :=
    [⟨0, 64, .ro, .fld QUY_REPLAYS_COUNT 0⟩] }
def row_HMR_SALVOR_STATUS : RegRow :=
  { block := 8, off := 0x700, stride := 0x0, count := 1, width := 64, setup := false, paged := .no, places :=
    [⟨0, 7, .ro, .mirror .salvorUsed⟩, ⟨8, 2, .ro, .fld HMR_SALVOR_STATUS_HANDLING 0⟩,
     ⟨10, 1, .ro, .fld HMR_SALVOR_STATUS_BUSY 0⟩, ⟨11, 1, .ro, .fld HMR_SALVOR_STATUS_ESCALATED 0⟩,
     ⟨16, 16, .ro, .fld HMR_SALVOR_STATUS_ESCALATIONS 0⟩, ⟨32, 16, .ro, .fld HMR_SALVOR_STATUS_RING_DROPS 0⟩,
     ⟨48, 16, .ro, .fld HMR_SALVOR_STATUS_RING_FENCES 0⟩] }
def row_HBM_STACK_STATUS : RegRow :=
  { block := 5, off := 0x200, stride := 0x0, count := 1, width := 64, setup := false, paged := .no, places :=
    [⟨0, 12, .ro, .fld HBM_STACK_STATUS_FENCED 0⟩, ⟨16, 4, .ro, .fld HBM_STACK_STATUS_CAUSE 0⟩,
     ⟨32, 32, .ro, .fld HBM_STACK_STATUS_LOST_SETS 0⟩] }
def row_CRN_REBUILD : RegRow :=
  { block := 2, off := 0x40, stride := 0x0, count := 1, width := 32, setup := false, paged := .no, places :=
    [⟨0, 10, .rw, .fld CRN_REBUILD_GROUP 0⟩, ⟨16, 1, .wo, .fld CRN_REBUILD_GO 0⟩,
     ⟨30, 1, .w1c, .fld CRN_REBUILD_DONE 0⟩, ⟨31, 1, .ro, .fld CRN_REBUILD_BUSY 0⟩] }
def row_CRN_REBUILD_STATUS : RegRow :=
  { block := 2, off := 0x48, stride := 0x0, count := 1, width := 64, setup := false, paged := .no, places :=
    [⟨0, 3, .ro, .fld CRN_REBUILD_STATUS_RESULT 0⟩, ⟨32, 32, .ro, .fld CRN_REBUILD_STATUS_PAGES_DONE 0⟩] }
def row_DDK_ELOG_STATUS : RegRow :=
  { block := 12, off := 0x300, stride := 0x0, count := 1, width := 64, setup := false, paged := .no, places :=
    [⟨0, 13, .ro, .mirror .elogRecords⟩, ⟨16, 1, .w1c, .fld DDK_ELOG_STATUS_WRAPPED 0⟩,
     ⟨32, 32, .ro, .fld DDK_ELOG_STATUS_TOTAL 0⟩] }
def row_DDK_ELOG_INDEX : RegRow :=
  { block := 12, off := 0x308, stride := 0x0, count := 1, width := 32, setup := false, paged := .no, places :=
    [⟨0, 12, .rw, .fld DDK_ELOG_INDEX_INDEX 0⟩] }
def row_DDK_ELOG_DATA : RegRow :=
  { block := 12, off := 0x340, stride := 0x8, count := 8, width := 64, setup := false, paged := .no, places :=
    [⟨0, 64, .ro, .mirror .elogWord⟩] }
def row_CUS_STATUS : RegRow :=
  { block := 9, off := 0x0, stride := 0x0, count := 1, width := 64, setup := false, paged := .no, places :=
    [⟨0, 3, .ro, .mirror .lifecycle⟩, ⟨3, 1, .ro, .fld CUS_STATUS_ERROR 0⟩, ⟨4, 1, .ro, .fld CUS_STATUS_VEILED 0⟩,
     ⟨5, 1, .ro, .mirror .d2SincePower⟩, ⟨6, 1, .ro, .fld CUS_STATUS_IDE_REQUIRED 0⟩,
     ⟨7, 1, .ro, .fld CUS_STATUS_OWNER_POLICY 0⟩, ⟨8, 4, .ro, .mirror .tamperCount⟩,
     ⟨16, 8, .ro, .fld CUS_STATUS_ERROR_SOURCE 0⟩, ⟨32, 16, .ro, .fld CUS_STATUS_D2_COUNT 0⟩] }
def row_CUS_DEBUG_STATUS : RegRow :=
  { block := 9, off := 0x8, stride := 0x0, count := 1, width := 32, setup := false, paged := .no, places :=
    [⟨0, 2, .ro, .fld CUS_DEBUG_STATUS_LEVEL 0⟩, ⟨2, 1, .ro, .fld CUS_DEBUG_STATUS_NARROWED 0⟩,
     ⟨8, 4, .ro, .fld CUS_DEBUG_STATUS_LAST_REFUSAL 0⟩, ⟨31, 1, .wo, .fld CUS_DEBUG_STATUS_CLOSE 0⟩] }
def row_CUS_DBG_KILN : RegRow :=
  { block := 9, off := 0x10, stride := 0x0, count := 1, width := 32, setup := false, paged := .no, places :=
    [⟨0, 8, .wo, .fld CUS_DBG_KILN_KILN 0⟩, ⟨8, 2, .wo, .fld CUS_DBG_KILN_SLOT 0⟩,
     ⟨12, 3, .wo, .fld CUS_DBG_KILN_OP 0⟩, ⟨31, 1, .ro, .mirror .dbgBusy⟩] }
def row_CUS_ZEROISE : RegRow :=
  { block := 9, off := 0x18, stride := 0x0, count := 1, width := 32, setup := false, paged := .no, places :=
    [⟨0, 1, .wo, .fld CUS_ZEROISE_GO 0⟩, ⟨31, 1, .ro, .fld CUS_ZEROISE_BUSY 0⟩] }
def row_HMR_POWER_CTL : RegRow :=
  { block := 8, off := 0x800, stride := 0x0, count := 1, width := 32, setup := false, paged := .no, places :=
    [⟨0, 2, .rw, .fld HMR_POWER_CTL_STATE_REQ 0⟩, ⟨4, 2, .rw, .fld HMR_POWER_CTL_STEP_REQ 0⟩] }
def row_HMR_POWER_STATUS : RegRow :=
  { block := 8, off := 0x808, stride := 0x0, count := 1, width := 64, setup := false, paged := .no, places :=
    [⟨0, 2, .ro, .mirror .powerState⟩, ⟨2, 2, .ro, .fld HMR_POWER_STATUS_STEP 0⟩,
     ⟨4, 1, .ro, .fld HMR_POWER_STATUS_PENDING 0⟩, ⟨5, 1, .ro, .fld HMR_POWER_STATUS_QUAYS_WARM 0⟩,
     ⟨8, 8, .ro, .fld HMR_POWER_STATUS_WAKE_CAUSE 0⟩, ⟨32, 32, .ro, .fld HMR_POWER_STATUS_BANKED_ENTRIES 0⟩] }
def row_PLT_CAP : RegRow :=
  { block := 10, off := 0x0, stride := 0x0, count := 1, width := 32, setup := false, paged := .no, places :=
    [⟨0, 12, .rw, .fld PLT_CAP_CAP_W 0⟩] }
def row_PLT_LIMIT : RegRow :=
  { block := 10, off := 0x8, stride := 0x0, count := 1, width := 32, setup := false, paged := .no, places :=
    [⟨0, 4, .ro, .fld PLT_LIMIT_RUNG 0⟩, ⟨4, 2, .ro, .fld PLT_LIMIT_STEP_LIMIT 0⟩,
     ⟨8, 8, .ro, .fld PLT_LIMIT_KILNS_PORT 0⟩, ⟨16, 8, .ro, .fld PLT_LIMIT_KILNS_STBD 0⟩,
     ⟨24, 7, .ro, .fld PLT_LIMIT_BUDGET_64THS 0⟩, ⟨31, 1, .w1c, .fld PLT_LIMIT_CAP_UNMET 0⟩] }
def row_PLT_STATUS : RegRow :=
  { block := 10, off := 0x10, stride := 0x0, count := 1, width := 32, setup := false, paged := .no, places :=
    [⟨0, 16, .ro, .fld PLT_STATUS_RESTARTS 0⟩, ⟨16, 1, .ro, .fld PLT_STATUS_PILOT_DOWN 0⟩,
     ⟨17, 1, .ro, .fld PLT_STATUS_HELD_STOPPED 0⟩] }
def row_PLT_RESET : RegRow :=
  { block := 10, off := 0x18, stride := 0x0, count := 1, width := 32, setup := false, paged := .no, places :=
    [⟨0, 8, .wo, .fld PLT_RESET_KEY 0⟩] }
def row_PLT_POLICY : RegRow :=
  { block := 10, off := 0x20, stride := 0x0, count := 1, width := 32, setup := false, paged := .no, places :=
    [⟨0, 1, .rw, .fld PLT_POLICY_AUTO_RESET 0⟩, ⟨1, 1, .rw, .fld PLT_POLICY_HBM_FULL_WARM 0⟩] }
def row_PLT_PROFILE : RegRow :=
  { block := 10, off := 0x28, stride := 0x0, count := 1, width := 32, setup := false, paged := .no, places :=
    [⟨0, 1, .wo, .fld PLT_PROFILE_SAVE 0⟩, ⟨1, 1, .wo, .fld PLT_PROFILE_ERASE 0⟩,
     ⟨2, 1, .ro, .mirror .profileStored⟩, ⟨3, 1, .ro, .fld PLT_PROFILE_APPLIED 0⟩,
     ⟨31, 1, .ro, .fld PLT_PROFILE_BUSY 0⟩] }
def row_PLT_LOG_INDEX : RegRow :=
  { block := 10, off := 0x30, stride := 0x0, count := 1, width := 32, setup := false, paged := .no, places :=
    [⟨0, 14, .rw, .fld PLT_LOG_INDEX_INDEX 0⟩, ⟨14, 1, .rw, .fld PLT_LOG_INDEX_STARTUPS 0⟩] }
def row_PLT_LOG_DATA : RegRow :=
  { block := 10, off := 0x40, stride := 0x8, count := 8, width := 64, setup := false, paged := .no, places :=
    [⟨0, 64, .ro, .mirror .pltLogWord⟩] }
def row_HMR_TIDE_HOLD : RegRow :=
  { block := 8, off := 0x58, stride := 0x0, count := 1, width := 32, setup := false, paged := .no, places :=
    [⟨0, 1, .rw, .fld HMR_TIDE_HOLD_HOLD 0⟩, ⟨1, 1, .ro, .fld HMR_TIDE_HOLD_HELD 0⟩] }
def row_LHS_RTC : RegRow :=
  { block := 11, off := 0x0, stride := 0x0, count := 1, width := 64, setup := false, paged := .no, places :=
    [⟨0, 64, .ro, .fld LHS_RTC_COUNT 0⟩] }
def row_LHS_TIDE_SHADOW : RegRow :=
  { block := 11, off := 0x8, stride := 0x0, count := 1, width := 64, setup := false, paged := .no, places :=
    [⟨0, 64, .ro, .fld LHS_TIDE_SHADOW_TIDE 0⟩] }
def row_LHS_SENSE : RegRow :=
  { block := 11, off := 0x10, stride := 0x0, count := 1, width := 64, setup := false, paged := .no, places :=
    [⟨0, 16, .ro, .fld LHS_SENSE_INPUT_MV 0⟩, ⟨16, 8, .ro, .fld LHS_SENSE_SITE0 0⟩,
     ⟨24, 8, .ro, .fld LHS_SENSE_SITE1 0⟩, ⟨32, 8, .ro, .fld LHS_SENSE_SITE2 0⟩, ⟨40, 8, .ro, .fld LHS_SENSE_SITE3 0⟩] }
def row_LHS_TRIPS : RegRow :=
  { block := 11, off := 0x18, stride := 0x0, count := 1, width := 64, setup := false, paged := .no, places :=
    [⟨0, 8, .ro, .fld LHS_TRIPS_UV 0⟩, ⟨8, 8, .ro, .fld LHS_TRIPS_OV 0⟩, ⟨16, 8, .ro, .fld LHS_TRIPS_HOT 0⟩,
     ⟨24, 8, .ro, .fld LHS_TRIPS_SHUTDOWN 0⟩, ⟨56, 8, .ro, .fld LHS_TRIPS_LAST 0⟩] }
def row_LHS_START : RegRow :=
  { block := 11, off := 0x20, stride := 0x0, count := 1, width := 32, setup := false, paged := .no, places :=
    [⟨0, 3, .ro, .fld LHS_START_STEP 0⟩, ⟨3, 1, .ro, .fld LHS_START_FAILED 0⟩, ⟨4, 1, .ro, .fld LHS_START_COLD 0⟩,
     ⟨8, 8, .ro, .fld LHS_START_CAUSE 0⟩] }
def row_HST_SETUP_LOCK : RegRow :=
  { block := 7, off := 0x100, stride := 0x0, count := 1, width := 32, setup := false, paged := .no, places :=
    [⟨0, 1, .w1s, .fld HST_SETUP_LOCK_SETUP_LOCK 0⟩, ⟨1, 1, .ro, .fld HST_SETUP_LOCK_BY_PILOT 0⟩] }
def row_HST_SETUP_STATUS : RegRow :=
  { block := 7, off := 0x104, stride := 0x0, count := 1, width := 32, setup := false, paged := .no, places :=
    [⟨0, 1, .ro, .mirror .tideStopped⟩, ⟨1, 1, .ro, .mirror .outOfPod⟩, ⟨2, 1, .ro, .mirror .admissionDrained⟩,
     ⟨3, 1, .ro, .mirror .historyStopped⟩, ⟨4, 1, .ro, .mirror .eventRingStopped⟩, ⟨5, 1, .ro, .mirror .lookupIdle⟩,
     ⟨6, 1, .ro, .mirror .collIdle⟩, ⟨7, 1, .ro, .mirror .locked⟩] }
def row_HST_SETUP_LAST : RegRow :=
  { block := 7, off := 0x108, stride := 0x0, count := 1, width := 64, setup := false, paged := .no, places :=
    [⟨0, 4, .ro, .fld HST_SETUP_LAST_BLOCK 0⟩, ⟨4, 4, .ro, .fld HST_SETUP_LAST_CAUSE 0⟩,
     ⟨8, 2, .ro, .fld HST_SETUP_LAST_SOURCE 0⟩, ⟨16, 24, .ro, .fld HST_SETUP_LAST_OFFSET 0⟩,
     ⟨63, 1, .w1c, .fld HST_SETUP_LAST_VALID 0⟩] }
def row_HST_SETUP_DISCARDS : RegRow :=
  { block := 7, off := 0x140, stride := 0x4, count := 13, width := 32, setup := false, paged := .no, places :=
    [⟨0, 32, .rc, .fld HST_SETUP_DISCARDS_COUNT 0⟩] }

/-- The row of a register. -/
def Reg.row : Reg → RegRow
  | .HMR_TIDE_CFG => row_HMR_TIDE_CFG
  | .HMR_TIDE_COUNT => row_HMR_TIDE_COUNT
  | .HMR_TIDE_STATUS => row_HMR_TIDE_STATUS
  | .HST_SIZE_ID => row_HST_SIZE_ID
  | .HST_SIZE_COMPUTE => row_HST_SIZE_COMPUTE
  | .HST_SIZE_MEMORY => row_HST_SIZE_MEMORY
  | .HST_SIZE_LINKS => row_HST_SIZE_LINKS
  | .HST_SIZE_CLOCK => row_HST_SIZE_CLOCK
  | .KLN_CHARGE_WAIT => row_KLN_CHARGE_WAIT
  | .KLN_LOOKUP_WAIT => row_KLN_LOOKUP_WAIT
  | .KLN_T3_RESERVED_CODES => row_KLN_T3_RESERVED_CODES
  | .KLN_F8_SATURATIONS => row_KLN_F8_SATURATIONS
  | .KLN_F8_NANS => row_KLN_F8_NANS
  | .KLN_SLIP_LAST => row_KLN_SLIP_LAST
  | .KLN_OUTPUT_NANS => row_KLN_OUTPUT_NANS
  | .KLN_RESCALE_RESERVED => row_KLN_RESCALE_RESERVED
  | .KLN_CTX_STATUS => row_KLN_CTX_STATUS
  | .KLN_MOORING => row_KLN_MOORING
  | .KLN_SWITCHES => row_KLN_SWITCHES
  | .KLN_STARVE => row_KLN_STARVE
  | .KLN_FAULT => row_KLN_FAULT
  | .HTH_MUL_WAIT => row_HTH_MUL_WAIT
  | .HTH_SATURATIONS => row_HTH_SATURATIONS
  | .HTH_STATUS => row_HTH_STATUS
  | .STV_CTX_STATE_LO => row_STV_CTX_STATE_LO
  | .STV_CTX_STATE_HI => row_STV_CTX_STATE_HI
  | .STV_TAGS => row_STV_TAGS
  | .STV_SHORT_UNITS => row_STV_SHORT_UNITS
  | .STV_DETACHES => row_STV_DETACHES
  | .STV_DETACH_LAST => row_STV_DETACH_LAST
  | .STV_ABORTS => row_STV_ABORTS
  | .STV_RESUME_IGNORED => row_STV_RESUME_IGNORED
  | .WHS_WAY_MAP_PORT_LO => row_WHS_WAY_MAP_PORT_LO
  | .WHS_WAY_MAP_PORT_HI => row_WHS_WAY_MAP_PORT_HI
  | .WHS_WAY_MAP_STBD_LO => row_WHS_WAY_MAP_STBD_LO
  | .WHS_WAY_MAP_STBD_HI => row_WHS_WAY_MAP_STBD_HI
  | .WHS_WAY_STOP => row_WHS_WAY_STOP
  | .WHS_WAY_STATUS => row_WHS_WAY_STATUS
  | .WHS_HOT_CFG => row_WHS_HOT_CFG
  | .WHS_HOT_HITS => row_WHS_HOT_HITS
  | .WHS_HOT_MISSES => row_WHS_HOT_MISSES
  | .WHS_HOT_FILLS => row_WHS_HOT_FILLS
  | .WHS_ECC_CORRECTED => row_WHS_ECC_CORRECTED
  | .WHS_ECC_UNCORRECTED => row_WHS_ECC_UNCORRECTED
  | .DDK_MARCH_CTRL => row_DDK_MARCH_CTRL
  | .DDK_MARCH_STATUS => row_DDK_MARCH_STATUS
  | .DDK_MARCH_ABORTS => row_DDK_MARCH_ABORTS
  | .DDK_REPAIR => row_DDK_REPAIR
  | .DDK_REPAIR_STATUS => row_DDK_REPAIR_STATUS
  | .DDK_REPAIR_CFG => row_DDK_REPAIR_CFG
  | .CRN_TABLE_DIR => row_CRN_TABLE_DIR
  | .CRN_GROUP_DIR => row_CRN_GROUP_DIR
  | .CRN_TABLE_CTL => row_CRN_TABLE_CTL
  | .CRN_TABLE_RESULT => row_CRN_TABLE_RESULT
  | .CRN_TALLY => row_CRN_TALLY
  | .CRN_READS => row_CRN_READS
  | .CRN_RAW => row_CRN_RAW
  | .CRN_BAD_INDEX => row_CRN_BAD_INDEX
  | .CRN_LATE_PARTS => row_CRN_LATE_PARTS
  | .CRN_OUT_SAT => row_CRN_OUT_SAT
  | .CRN_NONFINITE => row_CRN_NONFINITE
  | .HMR_EPOCH_CFG => row_HMR_EPOCH_CFG
  | .HMR_CONS_STATUS => row_HMR_CONS_STATUS
  | .HMR_CONS_ABORTS => row_HMR_CONS_ABORTS
  | .CRN_UNMAPPED => row_CRN_UNMAPPED
  | .HMR_HIST_POOL => row_HMR_HIST_POOL
  | .HMR_HIST_DIR => row_HMR_HIST_DIR
  | .HMR_HIST_SIZE => row_HMR_HIST_SIZE
  | .HMR_HIST_CTL => row_HMR_HIST_CTL
  | .HMR_HIST_STATUS => row_HMR_HIST_STATUS
  | .HMR_HIST_FULL => row_HMR_HIST_FULL
  | .HMR_ADMIT_CTL => row_HMR_ADMIT_CTL
  | .HMR_MODE => row_HMR_MODE
  | .HMR_CLASS_SHARE => row_HMR_CLASS_SHARE
  | .HMR_BUDGET_SLICE => row_HMR_BUDGET_SLICE
  | .HMR_LOOKUP_CFG => row_HMR_LOOKUP_CFG
  | .HMR_LOOKUP_STATUS => row_HMR_LOOKUP_STATUS
  | .HMR_SAVE_AREA => row_HMR_SAVE_AREA
  | .HMR_LOCALITY_OVERRIDES => row_HMR_LOCALITY_OVERRIDES
  | .HMR_REFUSALS => row_HMR_REFUSALS
  | .HMR_SCHED_EVENTS => row_HMR_SCHED_EVENTS
  | .HMR_FREEZE_RESET => row_HMR_FREEZE_RESET
  | .HMR_SAT_COUNTS => row_HMR_SAT_COUNTS
  | .HMR_MODEL_DIR => row_HMR_MODEL_DIR
  | .HMR_MODEL_CTL => row_HMR_MODEL_CTL
  | .HMR_RING_SCHED => row_HMR_RING_SCHED
  | .HMR_RING_STATE => row_HMR_RING_STATE
  | .HBM_CHSET => row_HBM_CHSET
  | .HBM_CHSET_STOP => row_HBM_CHSET_STOP
  | .HBM_CHSET_STATUS => row_HBM_CHSET_STATUS
  | .HST_PORT_STATUS => row_HST_PORT_STATUS
  | .HST_APERTURE => row_HST_APERTURE
  | .HST_APERTURE_BAD => row_HST_APERTURE_BAD
  | .HST_DB_STATUS => row_HST_DB_STATUS
  | .HST_WIN_TABLE => row_HST_WIN_TABLE
  | .HST_WIN_INVAL => row_HST_WIN_INVAL
  | .HST_EVT_BASE => row_HST_EVT_BASE
  | .HST_EVT_CFG => row_HST_EVT_CFG
  | .HST_EVT_CTL => row_HST_EVT_CTL
  | .HST_EVT_STATUS => row_HST_EVT_STATUS
  | .HST_SQ_BASE => row_HST_SQ_BASE
  | .HST_CQ_BASE => row_HST_CQ_BASE
  | .HST_RING_CFG => row_HST_RING_CFG
  | .HST_RING_CTL => row_HST_RING_CTL
  | .HST_RING_STATUS => row_HST_RING_STATUS
  | .HST_RING_INDEX => row_HST_RING_INDEX
  | .QUY_POD_SIZE => row_QUY_POD_SIZE
  | .QUY_POD_GEN => row_QUY_POD_GEN
  | .QUY_POD_CFG => row_QUY_POD_CFG
  | .QUY_POD_CTL => row_QUY_POD_CTL
  | .QUY_COLL_DIR => row_QUY_COLL_DIR
  | .QUY_COLL_EN => row_QUY_COLL_EN
  | .QUY_COLL_STATUS_LO => row_QUY_COLL_STATUS_LO
  | .QUY_COLL_STATUS_HI => row_QUY_COLL_STATUS_HI
  | .QUY_SNAP_CTL_LO => row_QUY_SNAP_CTL_LO
  | .QUY_SNAP_CTL_HI => row_QUY_SNAP_CTL_HI
  | .QUY_FREEZE_LAST => row_QUY_FREEZE_LAST
  | .QUY_PEER => row_QUY_PEER
  | .QUY_CTL => row_QUY_CTL
  | .QUY_STATUS => row_QUY_STATUS
  | .QUY_BLOCKS_CORRECTED => row_QUY_BLOCKS_CORRECTED
  | .QUY_REPLAYS => row_QUY_REPLAYS
  | .HMR_SALVOR_STATUS => row_HMR_SALVOR_STATUS
  | .HBM_STACK_STATUS => row_HBM_STACK_STATUS
  | .CRN_REBUILD => row_CRN_REBUILD
  | .CRN_REBUILD_STATUS => row_CRN_REBUILD_STATUS
  | .DDK_ELOG_STATUS => row_DDK_ELOG_STATUS
  | .DDK_ELOG_INDEX => row_DDK_ELOG_INDEX
  | .DDK_ELOG_DATA => row_DDK_ELOG_DATA
  | .CUS_STATUS => row_CUS_STATUS
  | .CUS_DEBUG_STATUS => row_CUS_DEBUG_STATUS
  | .CUS_DBG_KILN => row_CUS_DBG_KILN
  | .CUS_ZEROISE => row_CUS_ZEROISE
  | .HMR_POWER_CTL => row_HMR_POWER_CTL
  | .HMR_POWER_STATUS => row_HMR_POWER_STATUS
  | .PLT_CAP => row_PLT_CAP
  | .PLT_LIMIT => row_PLT_LIMIT
  | .PLT_STATUS => row_PLT_STATUS
  | .PLT_RESET => row_PLT_RESET
  | .PLT_POLICY => row_PLT_POLICY
  | .PLT_PROFILE => row_PLT_PROFILE
  | .PLT_LOG_INDEX => row_PLT_LOG_INDEX
  | .PLT_LOG_DATA => row_PLT_LOG_DATA
  | .HMR_TIDE_HOLD => row_HMR_TIDE_HOLD
  | .LHS_RTC => row_LHS_RTC
  | .LHS_TIDE_SHADOW => row_LHS_TIDE_SHADOW
  | .LHS_SENSE => row_LHS_SENSE
  | .LHS_TRIPS => row_LHS_TRIPS
  | .LHS_START => row_LHS_START
  | .HST_SETUP_LOCK => row_HST_SETUP_LOCK
  | .HST_SETUP_STATUS => row_HST_SETUP_STATUS
  | .HST_SETUP_LAST => row_HST_SETUP_LAST
  | .HST_SETUP_DISCARDS => row_HST_SETUP_DISCARDS

def regsPart0 : List Reg :=
  [.HMR_TIDE_CFG, .HMR_TIDE_COUNT, .HMR_TIDE_STATUS, .HST_SIZE_ID, .HST_SIZE_COMPUTE, .HST_SIZE_MEMORY, .HST_SIZE_LINKS, .HST_SIZE_CLOCK, .KLN_CHARGE_WAIT, .KLN_LOOKUP_WAIT, .KLN_T3_RESERVED_CODES, .KLN_F8_SATURATIONS, .KLN_F8_NANS, .KLN_SLIP_LAST, .KLN_OUTPUT_NANS, .KLN_RESCALE_RESERVED]
def regsPart1 : List Reg :=
  [.KLN_CTX_STATUS, .KLN_MOORING, .KLN_SWITCHES, .KLN_STARVE, .KLN_FAULT, .HTH_MUL_WAIT, .HTH_SATURATIONS, .HTH_STATUS, .STV_CTX_STATE_LO, .STV_CTX_STATE_HI, .STV_TAGS, .STV_SHORT_UNITS, .STV_DETACHES, .STV_DETACH_LAST, .STV_ABORTS, .STV_RESUME_IGNORED]
def regsPart2 : List Reg :=
  [.WHS_WAY_MAP_PORT_LO, .WHS_WAY_MAP_PORT_HI, .WHS_WAY_MAP_STBD_LO, .WHS_WAY_MAP_STBD_HI, .WHS_WAY_STOP, .WHS_WAY_STATUS, .WHS_HOT_CFG, .WHS_HOT_HITS, .WHS_HOT_MISSES, .WHS_HOT_FILLS, .WHS_ECC_CORRECTED, .WHS_ECC_UNCORRECTED, .DDK_MARCH_CTRL, .DDK_MARCH_STATUS, .DDK_MARCH_ABORTS, .DDK_REPAIR]
def regsPart3 : List Reg :=
  [.DDK_REPAIR_STATUS, .DDK_REPAIR_CFG, .CRN_TABLE_DIR, .CRN_GROUP_DIR, .CRN_TABLE_CTL, .CRN_TABLE_RESULT, .CRN_TALLY, .CRN_READS, .CRN_RAW, .CRN_BAD_INDEX, .CRN_LATE_PARTS, .CRN_OUT_SAT, .CRN_NONFINITE, .HMR_EPOCH_CFG, .HMR_CONS_STATUS, .HMR_CONS_ABORTS]
def regsPart4 : List Reg :=
  [.CRN_UNMAPPED, .HMR_HIST_POOL, .HMR_HIST_DIR, .HMR_HIST_SIZE, .HMR_HIST_CTL, .HMR_HIST_STATUS, .HMR_HIST_FULL, .HMR_ADMIT_CTL, .HMR_MODE, .HMR_CLASS_SHARE, .HMR_BUDGET_SLICE, .HMR_LOOKUP_CFG, .HMR_LOOKUP_STATUS, .HMR_SAVE_AREA, .HMR_LOCALITY_OVERRIDES, .HMR_REFUSALS]
def regsPart5 : List Reg :=
  [.HMR_SCHED_EVENTS, .HMR_FREEZE_RESET, .HMR_SAT_COUNTS, .HMR_MODEL_DIR, .HMR_MODEL_CTL, .HMR_RING_SCHED, .HMR_RING_STATE, .HBM_CHSET, .HBM_CHSET_STOP, .HBM_CHSET_STATUS, .HST_PORT_STATUS, .HST_APERTURE, .HST_APERTURE_BAD, .HST_DB_STATUS, .HST_WIN_TABLE, .HST_WIN_INVAL]
def regsPart6 : List Reg :=
  [.HST_EVT_BASE, .HST_EVT_CFG, .HST_EVT_CTL, .HST_EVT_STATUS, .HST_SQ_BASE, .HST_CQ_BASE, .HST_RING_CFG, .HST_RING_CTL, .HST_RING_STATUS, .HST_RING_INDEX, .QUY_POD_SIZE, .QUY_POD_GEN, .QUY_POD_CFG, .QUY_POD_CTL, .QUY_COLL_DIR, .QUY_COLL_EN]
def regsPart7 : List Reg :=
  [.QUY_COLL_STATUS_LO, .QUY_COLL_STATUS_HI, .QUY_SNAP_CTL_LO, .QUY_SNAP_CTL_HI, .QUY_FREEZE_LAST, .QUY_PEER, .QUY_CTL, .QUY_STATUS, .QUY_BLOCKS_CORRECTED, .QUY_REPLAYS, .HMR_SALVOR_STATUS, .HBM_STACK_STATUS, .CRN_REBUILD, .CRN_REBUILD_STATUS, .DDK_ELOG_STATUS, .DDK_ELOG_INDEX]
def regsPart8 : List Reg :=
  [.DDK_ELOG_DATA, .CUS_STATUS, .CUS_DEBUG_STATUS, .CUS_DBG_KILN, .CUS_ZEROISE, .HMR_POWER_CTL, .HMR_POWER_STATUS, .PLT_CAP, .PLT_LIMIT, .PLT_STATUS, .PLT_RESET, .PLT_POLICY, .PLT_PROFILE, .PLT_LOG_INDEX, .PLT_LOG_DATA, .HMR_TIDE_HOLD]
def regsPart9 : List Reg :=
  [.LHS_RTC, .LHS_TIDE_SHADOW, .LHS_SENSE, .LHS_TRIPS, .LHS_START, .HST_SETUP_LOCK, .HST_SETUP_STATUS, .HST_SETUP_LAST, .HST_SETUP_DISCARDS]

/-- Every register. -/
def Reg.all : List Reg :=
  regsPart0 ++ regsPart1 ++ regsPart2 ++ regsPart3 ++ regsPart4 ++ regsPart5 ++ regsPart6 ++ regsPart7 ++ regsPart8 ++ regsPart9

end Sys2Proof.Machine
end

