-- ==== Sys2Proof/Machine/State.lean ====
section
/-! DEFINITION. The state of the block: everything the spec gives the device, as plain data, with the queue of commands that
wait, and the reasons a command can stop. -/

namespace Sys2Proof.Machine

/-- Why the machine faults. Every effect the spec leaves without a value is a free value of Config, and every access to an
address outside the map has the outcome R448 gives, so no meaning raises a fault. -/
inductive Fault where
  /-- The one name the type needs. Raised by nobody: safe. -/
  | unreached
  deriving DecidableEq, Repr

/-- Why a command has no meaning. -/
inductive Refusal where
  /-- An arm of the dispatch that is not written yet, by its mnemonic; raised by Dispatch alone: safe, since the machine
  stops. -/
  | notModelled (mnemonic : String)
  deriving DecidableEq, Repr

/-- The state of the device. -/
structure State where
  /-- stored register fields, by `Fld.key` (16) -/
  flds : Tab Nat := []
  /-- high halves latched by a read of a low half, and low halves held by a write, by BAR0 offset of the register plus
  2^26 for each source before this one (R14) -/
  latchR : Tab Nat := []
  latchW : Tab Nat := []
  /-- device memory in one canonical form: HBM at its device address, the warehouse and the berths at their normal view -/
  mem : Tab Byte := []
  /-- ranges of device memory whose contents a change left undefined: (first, end, stamp) (R436, R548) -/
  undef : List (Nat × Nat × Nat) := []
  /-- stamp of the next free value -/
  stamp : Nat := 0
  /-- words in error, by address ÷ 8: true uncorrectable (poisoned), false correctable -/
  ecc : Tab Bool := []
  /-- host memory, by host bus address -/
  host : Tab Byte := []
  /-- cached window translations, by device page (R455) -/
  winCache : Tab WinPage := []
  /-- MSI-X table dwords, at port × 2048 + 4 × vector + dword, and pending bits, at port × 512 + vector -/
  msix : Tab Nat := []
  msixPend : Tab Bool := []
  /-- ports whose IDE stream left the Secure state and is not Secure again (R444) -/
  ideHeld : List Nat := []
  rings : Tab Ring := []
  /-- the ring whose turn to be read comes first (R463) -/
  ringTurn : Nat := 0
  evt : EvtRing := {}
  /-- stream tags of berth memory, by berth address ÷ 256 (R112), and ready bits at 256 × kiln + 128 × half + slot -/
  tags : Tab Nat := []
  ready : Tab Bool := []
  /-- where the blocks of the berths came from, by berth address ÷ 256 (R116, R227) -/
  origins : Tab Origin := []
  /-- context slots, at 4 × kiln + slot, and engines per kiln -/
  ctxs : Tab KCtx := []
  kilns : Tab Kiln := []
  /-- streams, at 32 × stevedore + context, waiting catch-up streams, bulk counters of the arbiters (R213), and the age of the
  next unit -/
  streams : Tab Stream := []
  catchUps : List CatchUp := []
  bulk : Tab Nat := []
  seq : Nat := 0
  /-- stevedores out of service (Table 13.3) -/
  fencedStevs : List Nat := []
  remoteHolds : List RemoteHold := []
  /-- reservations of other devices' streams that wait for room, in order of arrival (R229) -/
  remoteWaits : List RemoteHold := []
  tables : Tab Table := []
  groups : Tab Group := []
  masters : Tab MasterRec := []
  cranes : Tab Crane := []
  /-- hot rows, at (229,376 × die + set) × 16 + way (R268) -/
  hot : Tab HotRow := []
  jobs : List Job := []
  nextJob : Nat := 0
  /-- descriptors fetched and not yet tested, in order of fetch completion (R408) -/
  fetched : List Fetched := []
  models : Tab Model := []
  evicted : List EvictedTask := []
  counts : TideCounts := {}
  /-- jobs admitted since reset (Table 12.11) -/
  admitted : Nat := 0
  conss : List Cons := []
  retiring : List Retiring := []
  votes : List VoteBox := []
  decisions : List Logged := []
  /-- notices to apply at their commit tide (R362) -/
  notices : List Decision := []
  /-- notices applied, which name the tables of a RETIRE_AT -/
  noticesDone : List Decision := []
  unacked : List Unacked := []
  nextVc0 : Nat := 0
  /-- free history frames, and frames that wait for their last reader (R394) -/
  freeFrames : List Nat := []
  deferred : List Deferred := []
  /-- free index pages, and appends that become visible at the next boundary (R376, R386) -/
  indexPages : List Nat := []
  appended : List Appended := []
  quays : Tab Quay := []
  routes : Tab Route := []
  peers : Tab Peer := []
  pod : Pod := {}
  colls : Tab Coll := []
  salvor : Salvor := {}
  dock : Dock := {}
  rebuild : Option Rebuild := none
  /-- groups whose rebuild this group master has been told of (R550) -/
  rebuilding : List Nat := []
  cus : Customs := {}
  power : Power := {}
  pilot : Pilot := {}
  /-- channel sets under the veil (R577) -/
  veiled : List Nat := []
  /-- stopped by a severity 3 error until a device reset (R529) -/
  halted : Bool := false
  /-- what the device has sent, oldest first -/
  out : List Msg := []
  /-- how far the output lanes have come with it (R488) -/
  laneOut : LaneOut := {}
  /-- commands that wait, first in, first out -/
  pending : List Instr := []
  deriving DecidableEq, Repr

/-- The device right after a device reset, before START_UP has run: every field at its default. Registers hold the reset
values of their rows (`Fld.reset`); memory lists nothing; the queue is empty. -/
def State.reset : State := {}

end Sys2Proof.Machine
end

