-- ==== Sys2Proof/Machine/Ops.lean ====
section
/-! DEFINITION. The named operations over registers and memory that the commands share: stored fields and saturating
counters, the device address map (Table 11.3) with ways, channel sets, the model window and host windows, reads and writes
with their alias views and error marks, and messages out. -/

namespace Sys2Proof.Machine

/-! ### Outcomes and registers -/

/-- The next state. -/
abbrev ok (s : State) : Host.Outcome State Fault Refusal := .next s

/-- The value of field f of unit i. -/
def State.get (s : State) (f : Fld) (i : Nat) : Nat := fldGet s.flds f i

/-- Set field f of unit i. -/
def State.put (s : State) (f : Fld) (i v : Nat) : State := { s with flds := fldSet s.flds f i v }

/-- Field f of unit i is not 0. -/
def State.flag (s : State) (f : Fld) (i : Nat) : Bool := s.get f i != 0

/-- Add n to a counter, which holds at its largest value once it is reached. -/
def State.inc (s : State) (f : Fld) (i n : Nat) : State := s.put f i (min (s.get f i + n) (2 ^ f.width - 1))

/-- Set or clear one bit of a field that holds a bit per unit. -/
def State.putBitAt (s : State) (f : Fld) (i b : Nat) (v : Bool) : State := s.put f i (putBit (s.get f i) b v)

/-- Bit b of a field. -/
def State.bitAt (s : State) (f : Fld) (i b : Nat) : Bool := bit (s.get f i) b

/-- The current tide number. -/
def State.tide (s : State) : Nat := s.get HMR_TIDE_COUNT_TIDE 0

/-- The tide that stamps a record: the shadow while the tide is stopped (R585). -/
def State.stampTide (s : State) : Nat :=
  if s.flag HMR_TIDE_STATUS_RUNNING 0 then s.tide else s.get LHS_TIDE_SHADOW_TIDE 0

/-- A record of a peer device. -/
def State.peer (s : State) (n : Nat) : Peer := Tab.get (fun _ => {}) s.peers n
def State.putPeer (s : State) (n : Nat) (x : Peer) : State := { s with peers := Tab.insert n x s.peers }

/-- A message that the device does not send: VC1 and VC2 traffic to a frozen peer (R523). -/
def State.withheld (s : State) (m : Msg) : Bool :=
  match m with
  | .net d vc _ => vc != 0 && (s.peer d).frozen
  | _ => false

/-- Append a message to what the device has sent, unless it goes to a frozen peer (R523). -/
def State.send (s : State) (m : Msg) : State := if s.withheld m then s else { s with out := s.out ++ [m] }

/-- Append several messages. -/
def State.sendAll (s : State) (ms : List Msg) : State := { s with out := s.out ++ ms }

/-- The debug port streams the metadata trace: D1 or above is open, and not narrowed (Table 14.10, R582). -/
def State.traces (s : State) : Bool := s.flag CUS_DEBUG_STATUS_LEVEL 0 && !s.flag CUS_DEBUG_STATUS_NARROWED 0

/-- One entry of the trace. Units are numbered by kind: a kiln slot 4 × kiln + slot, a stream by its number, an error by its unit.
DESIGN CHOICE (log 131). -/
def State.trace (s : State) (kind ring jobRef unit : Nat) : State :=
  if s.traces then s.send (.trace kind ring jobRef unit s.stampTide) else s

/-- An entry that concerns an admitted job, or none (R474). -/
def State.traceJob (s : State) (kind : Nat) (job : Option Job) (unit : Nat) : State :=
  match job with
  | some j => s.trace kind j.ring j.jobRef unit
  | none => s.trace kind 0xFFFF 0 unit

/-- The stamp of a fresh free value, and the state after it is taken. -/
def State.fresh (s : State) : Nat × State := (s.stamp, { s with stamp := s.stamp + 1 })

/-! ### Sorting -/

/-- Insert into a sorted list. -/
def insertBy {α : Type} (le : α → α → Bool) (x : α) : List α → List α
  | [] => [x]
  | y :: t => if le x y then x :: y :: t else y :: insertBy le x t

/-- Sort a list; equal elements keep their order. -/
def sortBy {α : Type} (le : α → α → Bool) (l : List α) : List α := l.foldr (insertBy le) []

/-- Sort numbers, rising. -/
def sortNat (l : List Nat) : List Nat := sortBy (fun a b => decide (a ≤ b)) l

/-! ### Units of the device -/

/-- Units in service from the size table. -/
def State.kilnsPort (s : State) : Nat := s.get HST_SIZE_COMPUTE_KILNS_PORT 0
def State.kilnCount (s : State) : Nat := s.kilnsPort + s.get HST_SIZE_COMPUTE_KILNS_STBD 0
def State.craneCount (s : State) : Nat := s.get HST_SIZE_COMPUTE_CRANES_PORT 0 + s.get HST_SIZE_COMPUTE_CRANES_STBD 0
def State.stevedoreCount (s : State) : Nat :=
  s.get HST_SIZE_COMPUTE_STEVEDORES_PORT 0 + s.get HST_SIZE_COMPUTE_STEVEDORES_STBD 0

/-- The die of a kiln, a crane or a stevedore: the port die holds the lower indices (R19). -/
def State.kilnDie (s : State) (k : Nat) : Nat := if k < s.kilnsPort then 0 else 1
def State.craneDie (s : State) (c : Nat) : Nat := if c < s.get HST_SIZE_COMPUTE_CRANES_PORT 0 then 0 else 1
def State.stevedoreDie (s : State) (v : Nat) : Nat := if v < s.get HST_SIZE_COMPUTE_STEVEDORES_PORT 0 then 0 else 1

/-- A context slot. -/
def State.ctx (s : State) (k c : Nat) : KCtx := Tab.get (fun _ => {}) s.ctxs (4 * k + c)
def State.putCtx (s : State) (k c : Nat) (x : KCtx) : State := { s with ctxs := Tab.insert (4 * k + c) x s.ctxs }
/-- A kiln's engines. -/
def State.kiln (s : State) (k : Nat) : Kiln := Tab.get (fun _ => {}) s.kilns k
def State.putKiln (s : State) (k : Nat) (x : Kiln) : State := { s with kilns := Tab.insert k x s.kilns }
/-- A stream context. -/
def State.stream (s : State) (n : Nat) : Stream := Tab.get (fun _ => {}) s.streams n
def State.putStream (s : State) (n : Nat) (x : Stream) : State := { s with streams := Tab.insert n x s.streams }
def State.ring (s : State) (n : Nat) : Ring := Tab.get (fun _ => {}) s.rings n
def State.putRing (s : State) (n : Nat) (x : Ring) : State := { s with rings := Tab.insert n x s.rings }
def State.table (s : State) (n : Nat) : Table := Tab.get (fun _ => {}) s.tables n
def State.putTable (s : State) (n : Nat) (x : Table) : State := { s with tables := Tab.insert n x s.tables }
def State.group (s : State) (n : Nat) : Group := Tab.get (fun _ => {}) s.groups n
def State.putGroup (s : State) (n : Nat) (x : Group) : State := { s with groups := Tab.insert n x s.groups }
def State.master (s : State) (n : Nat) : MasterRec := Tab.get (fun _ => {}) s.masters n
def State.putMaster (s : State) (n : Nat) (x : MasterRec) : State := { s with masters := Tab.insert n x s.masters }
def State.crane (s : State) (n : Nat) : Crane := Tab.get (fun _ => {}) s.cranes n
def State.putCrane (s : State) (n : Nat) (x : Crane) : State := { s with cranes := Tab.insert n x s.cranes }
def State.model (s : State) (n : Nat) : Model := Tab.get (fun _ => {}) s.models n
def State.putModel (s : State) (n : Nat) (x : Model) : State := { s with models := Tab.insert n x s.models }
def State.quay (s : State) (n : Nat) : Quay := Tab.get (fun _ => {}) s.quays n
def State.putQuay (s : State) (n : Nat) (x : Quay) : State := { s with quays := Tab.insert n x s.quays }

/-! ### Lifecycle (Table 14.9) -/

/-- The lifecycle values of Table 14.9. -/
def lcBlank : Nat := 0
def lcManufacturing : Nat := 1
def lcProvisioned : Nat := 2
def lcDeployed : Nat := 3
def lcReturned : Nat := 4

/-- Service: none in Blank, and in Returned only with a free-running tide. -/
def State.serves (s : State) : Bool :=
  s.cus.lifecycle != lcBlank && (s.cus.lifecycle != lcReturned || s.flag HMR_TIDE_CFG_SOURCE 0)

/-- The device may join a pod: not without an identity, and never once Returned. -/
def lcJoins (lifecycle : Nat) : Bool := lifecycle != lcBlank && lifecycle != lcReturned

/-! ### Jobs -/

/-- The admitted job of a number. -/
def State.job (s : State) (j : Nat) : Option Job := s.jobs.find? fun x => x.id == j

/-- Replace an admitted job by its number. -/
def State.putJob (s : State) (x : Job) : State :=
  { s with jobs := s.jobs.map fun y => if y.id == x.id then x else y }

/-- The job's number appears among the admitted jobs. -/
def State.admittedJob (s : State) (j : Nat) : Bool := s.jobs.any fun x => x.id == j

/-! ### The device address map (Table 11.3) -/

/-- Bytes of one HBM channel (R434). -/
def channelBytes : Nat := 2000000000

/-- Bytes of channel set n. -/
def State.setBytes (s : State) (n : Nat) : Nat := channelBytes * s.get HBM_CHSET_COUNT n

/-- First device address of channel set n: the sets lie in set order (R434). -/
def State.setBase (s : State) (n : Nat) : Nat := ((List.range n).map fun k => s.setBytes k).sum

/-- The channel set that holds an HBM address. -/
def State.setOf (s : State) (a : Nat) : Option Nat :=
  (List.range 32).find? fun n => decide (s.setBase n ≤ a) && decide (a < s.setBase n + s.setBytes n)

/-- Bit n of `HBM_CHSET_STATUS`: the set is stopped, lost, or has no channels (R436, R546, R627). -/
def State.setStopped (s : State) (n : Nat) : Bool := s.bitAt HBM_CHSET_STATUS_STOPPED 0 n
def State.setLost (s : State) (n : Nat) : Bool := s.bitAt HBM_STACK_STATUS_LOST_SETS 0 n

/-- Base addresses of the windows. -/
def whsBase : Nat := 0x400000000000
def modelBase : Nat := 0x401000000000
def berthBase : Nat := 0x402000000000
def hostBase : Nat := 0x800000000000
def viewStep : Nat := 0x100000000
def whsBytes : Nat := 0x1C000000
def dieBytes : Nat := 0x0E000000
def wayBytes : Nat := 0x00E00000

/-- Normal-view address of byte `off` of a way. -/
def wayAddr (die way off : Nat) : Nat := whsBase + dieBytes * die + wayBytes * way + off

/-- Normal-view address of byte `off` of a berth half: the aft half sits at 0x8_0000 (R237). -/
def berthAddr (k : Nat) (half : Bool) (off : Nat) : Nat := berthBase + 0x100000 * k + (if half then 0x80000 else 0) + off

/-- Die and way of a warehouse offset (R238). -/
def wayOf (off : Nat) : Nat × Nat := (off / dieBytes, off % dieBytes / wayBytes)

/-- Logical bank and bank row of a warehouse offset (R238). -/
def bankOf (off : Nat) : Nat := 64 * (off / dieBytes) + off % dieBytes % wayBytes / 256 % 64
def bankRowOf (off : Nat) : Nat := 112 * (off % dieBytes / wayBytes) + off % dieBytes % wayBytes / 131072

/-- `USE` and `CLASSES` of a way, and whether it is stopped. -/
def State.wayUse (s : State) (d w : Nat) : Nat := s.get WHS_WAY_USE (16 * d + w)
def State.wayClasses (s : State) (d w : Nat) : Nat := s.get WHS_WAY_CLASSES (16 * d + w)
def State.wayStopped (s : State) (d w : Nat) : Bool :=
  if d == 0 then s.bitAt WHS_WAY_STATUS_STOPPED_PORT 0 w else s.bitAt WHS_WAY_STATUS_STOPPED_STBD 0 w
/-- The stop bit of a way is set (R258). -/
def State.wayStopping (s : State) (d w : Nat) : Bool :=
  if d == 0 then s.bitAt WHS_WAY_STOP_PORT 0 w else s.bitAt WHS_WAY_STOP_STBD 0 w

/-- The three views of the warehouse and the berths (R237). -/
inductive View where
  | normal | set | clear
  deriving DecidableEq, Repr

/-- The view a window number names. -/
def View.ofCode : Nat → View
  | 0 => .normal
  | 1 => .set
  | _ => .clear

/-- Where an address leads: device memory at a normal-view address, or host memory through a port. -/
inductive Loc where
  | dev (a : Nat) (v : View)
  | host (port bus : Nat)
  deriving DecidableEq, Repr

/-- What an access that met uncorrectable words did (R241, R242, R245): the addresses of those words, the words (address ÷ 8) that
it read and the words that it covered whole, the bytes that it wrote to words not in error, and for a read the bytes of the
words that are good, by address. -/
structure MemErr where
  bad : List Nat
  reads : List Nat := []
  whole : List Nat := []
  wrote : List (Nat × Byte) := []
  good : List (Nat × Byte) := []
  deriving DecidableEq, Repr

/-- Why an access is refused: outside the map or refused (R197, R256, R448), a window miss (R454), or uncorrectable words. -/
inductive AccErr where
  | bounds
  | hostMiss
  | memory (e : MemErr)
  /-- the address lies in a lost channel set (R546) -/
  | lost
  /-- the port that the access goes through sends nothing now: the access waits (R444, R446) -/
  | held
  /-- the block of the model window holds no page: a device page marked not present (R220) -/
  | absent
  deriving DecidableEq, Repr

/-- Who asks: the class its writes are bound by (none for host software and repair writes, R435, R450), the model and version
of its job (R261), and whether the debug exception of R257 applies. -/
structure Req where
  cls : Option Nat := none
  model : Option (Nat × Nat) := none
  debug : Bool := false
  deriving DecidableEq, Repr

/-- A class may write: no class, or its bit is set. -/
def Req.mayWrite (r : Req) (classes : Nat) : Bool :=
  match r.cls with
  | none => true
  | some c => bit classes c

/-- First warehouse offset of model-cache block n: 224 blocks a way, 16 ways a die (R261). -/
def blockOffset (n : Nat) : Nat := dieBytes * (n / 3584) + wayBytes * (n % 3584 / 224) + 65536 * (n % 224)

/-- The cache block that holds block b of a model's image, as version v of a job sees it: a version in retirement keeps its
old blocks (R370). -/
def Model.blockOf (m : Model) (v b : Nat) : Option Nat :=
  let old := (m.oldBlocks.find? fun p => p.1 == b).map (·.2)
  let cur := (m.blocks.find? fun p => p.1 == b).map (·.2)
  if v != m.version && old.isSome then old else cur

/-! ### Host windows (R453 to R455) -/

/-- A byte of host memory. -/
def State.hostByte (s : State) (b : Nat) : Byte := Tab.get (fun _ => 0) s.host b
/-- n bytes of host memory. -/
def State.hostBytes (s : State) (b n : Nat) : List Byte := (List.range n).map fun i => s.hostByte (b + i)
/-- A little-endian number of n bytes in host memory. -/
def State.hostNat (s : State) (b n : Nat) : Nat := leNat (s.hostBytes b n)
/-- Write bytes to host memory. -/
def State.hostWrite (s : State) (b : Nat) : List Byte → State
  | [] => s
  | x :: t => State.hostWrite { s with host := Tab.set (fun _ => 0) b x s.host } (b + 1) t

/-- The device may send through a port: Bus Master Enable is 1 (R446) and its IDE stream has not left Secure (R444). -/
def State.portSends (s : State) (p : Nat) : Bool := s.flag HST_PORT_STATUS_BME p && !(s.ideHeld.contains p)

/-- The translation of one device page through window entry i, when the entry is valid and contains it. -/
def State.winEntry (s : State) (page i : Nat) : Option (Option WinPage) :=
  let e := s.hostNat (4096 * s.get HST_WIN_TABLE_BASE 0 + 32 * i) 32
  let first := bits e 16 32
  if bit e 0 && decide (first ≤ page) && decide (page < first + bits e 64 32) then
    let p := s.hostNat (bits e 128 64 + 8 * (page - first)) 8
    some (if bit p 0 then some ⟨i, bits e 2 1, bits p 16 48, bit e 1⟩ else none)
  else none

/-- The translation of a device page: from the cache, or through the lowest-numbered valid entry that contains it (R454). -/
def State.winPage (s : State) (page : Nat) : Option WinPage :=
  match Tab.find page s.winCache with
  | some p => some p
  | none => ((List.range (s.get HST_WIN_TABLE_ENTRIES 0 + 1)).findSome? fun i => s.winEntry page i).join

/-- A translation that is not cached has to be read through a port that sends nothing now (R446, R453). -/
def State.winWaits (s : State) (page : Nat) : Bool := (Tab.find page s.winCache).isNone && !s.portSends (s.get HST_WIN_TABLE_PORT 0)

/-! ### Translation -/

/-- Where a warehouse offset in view v leads (R253 to R258). -/
def State.whsLoc (s : State) (r : Req) (wr : Bool) (off : Nat) (v : View) : Except AccErr Loc :=
  let (d, w) := wayOf off
  let u := s.wayUse d w
  let c := s.wayClasses d w
  if off ≥ whsBytes || s.wayStopped d w || c == 0 then .error .bounds
  else if u != 0 then (if r.debug && v == .normal then .ok (.dev (whsBase + off) v) else .error .bounds)
  else if wr && !r.mayWrite c then .error .bounds
  else .ok (.dev (whsBase + off) v)

/-- Where an address in the model window leads (R261, R263). -/
def State.modelLoc (s : State) (r : Req) (wr : Bool) (off : Nat) : Except AccErr Loc :=
  match r.model with
  | none => .error .bounds
  | some (m, v) =>
    let x := s.model m
    if wr || off ≥ x.bytes then .error .bounds
    else match x.blockOf v (off / 65536) with
      | none => .error .absent
      | some n => .ok (.dev (whsBase + blockOffset n + off % 65536) .normal)

/-- Where a device address leads (R448, R252, R435, R436, R546). -/
def State.locate (s : State) (r : Req) (wr : Bool) (a : Nat) : Except AccErr Loc :=
  if a < 0x10000000000 then
    match s.setOf a with
    | none => .error .bounds
    | some n =>
      if s.setLost n then .error .lost
      else if s.setStopped n then .error .bounds
      else if wr && !r.mayWrite (s.get HBM_CHSET_CLASSES n) then .error .bounds
      else .ok (.dev a .normal)
  else if a < whsBase then .error .bounds
  else if a < whsBase + 3 * viewStep then
    s.whsLoc r wr ((a - whsBase) % viewStep) (View.ofCode ((a - whsBase) / viewStep))
  else if a < modelBase then .error .bounds
  else if a < modelBase + 0x40000000 then s.modelLoc r wr (a - modelBase)
  else if a < berthBase then .error .bounds
  else if a < berthBase + 3 * viewStep then
    if r.debug && decide ((a - berthBase) % viewStep < 0xA00000 * 16) then
      .ok (.dev (berthBase + (a - berthBase) % viewStep) (View.ofCode ((a - berthBase) / viewStep)))
    else .error .bounds
  else if a < hostBase then .error .bounds
  else if a < 2 * hostBase then
    if s.winWaits (a / 65536) then .error .held
    else match s.winPage (a / 65536) with
    | none => .error .hostMiss
    | some p => if !s.portSends p.port then .error .held else if wr && !p.write then .error .bounds else .ok (.host p.port (65536 * p.page + a % 65536))
  else .error .bounds

/-! ### Bytes of device memory -/

/-- What an unlisted address reads as: 0 (R290, R604), but a free byte where a change left the contents undefined. -/
def memDefault (u : List (Nat × Nat × Nat)) (a : Nat) : Byte :=
  match u.find? fun e => decide (e.1 ≤ a) && decide (a < e.2.1) with
  | some e => Config.freeByte e.2.2 a
  | none => 0

/-- The byte at a normal-view address, or 0 in a veiled set (R577). -/
def State.byte (s : State) (a : Nat) : Byte :=
  match s.veiled.find? fun n => decide (s.setOf a = some n) with
  | some _ => 0
  | none => Tab.get (memDefault s.undef) s.mem a

/-- n bytes at a normal-view address. -/
def State.bytes (s : State) (a n : Nat) : List Byte := (List.range n).map fun i => s.byte (a + i)

/-- A little-endian number of n bytes. -/
def State.num (s : State) (a n : Nat) : Nat := leNat (s.bytes a n)

/-- The byte that a write of b through a view leaves where a byte holds x (R243). -/
def View.apply (v : View) (x b : Byte) : Byte :=
  match v with
  | .normal => b
  | .set => x ||| b
  | .clear => x &&& ~~~b

/-- Write one byte through a view; a veiled set discards it (R577). -/
def State.pokeByte (s : State) (v : View) (a : Nat) (b : Byte) : State :=
  match s.veiled.find? fun n => decide (s.setOf a = some n) with
  | some _ => s
  | none => { s with mem := Tab.set (memDefault s.undef) a (v.apply (s.byte a) b) s.mem }

/-- Write bytes through a view. -/
def State.pokeBytes (s : State) (v : View) (a : Nat) : List Byte → State
  | [] => s
  | b :: t => State.pokeBytes (s.pokeByte v a b) v (a + 1) t

/-- Write bytes through the normal view. -/
def State.poke (s : State) (a : Nat) (bs : List Byte) : State := s.pokeBytes .normal a bs

/-- Cut [a, b) out of a list of undefined ranges. -/
def cutUndef (a b : Nat) (u : List (Nat × Nat × Nat)) : List (Nat × Nat × Nat) :=
  u.flatMap fun e => [(e.1, min e.2.1 a, e.2.2), (max e.1 b, e.2.1, e.2.2)].filter fun x => decide (x.1 < x.2.1)

/-- Bytes a hot-row way holds as entries of one way: sets of a die (R268). -/
def hotSets : Nat := 229376

/-- Where the copy of a hot-row entry lies in its way: one 64 B place a set (R268). DEDUCED (log 81): a way's 14 MiB are its
229,376 entries. -/
def hotAddr (key : Nat) : Nat := wayAddr (key / 16 / hotSets) (key % 16) (64 * (key / 16 % hotSets))

/-- The key of the entry whose copy holds a warehouse address. -/
def hotKeyAt (a : Nat) : Nat :=
  let o := (a - whsBase) % viewStep
  (hotSets * (o / dieBytes) + o % dieBytes % wayBytes / 64) * 16 + o % dieBytes / wayBytes

/-- Hot-row entries of the 64 B units that a write touches are invalidated (R273). -/
def State.dropHot (s : State) (a n : Nat) : State :=
  if a < 0x10000000000 then
    { s with hot := s.hot.filter fun e => !(decide (a < e.2.unit + 64) && decide (e.2.unit < a + n)) }
  else s

/-- Zero a range of device memory with valid check bits. -/
def State.zero (s : State) (a n : Nat) : State :=
  let t := s.dropHot a n
  { t with mem := Tab.dropRange a (a + n) s.mem, ecc := Tab.dropRange (a / 8) (ceilDiv (a + n) 8) s.ecc,
           undef := cutUndef a (a + n) s.undef }

/-! ### Words in error (R239 to R242) -/

/-- The 64-bit words that [a, a + n) touches. -/
def wordsOf (a n : Nat) : List Nat := if n == 0 then [] else (List.range ((a + n - 1) / 8 - a / 8 + 1)).map (a / 8 + ·)

/-- A word is uncorrectable, or correctable. -/
def State.badWord (s : State) (w : Nat) : Bool := Tab.find w s.ecc == some true
def State.weakWord (s : State) (w : Nat) : Bool := Tab.find w s.ecc == some false

/-- The first uncorrectable word of a range, as an address. -/
def State.firstBad (s : State) (a n : Nat) : Option Nat := ((wordsOf a n).find? fun w => s.badWord w).map (8 * ·)

/-- The uncorrectable words of a range, as addresses. -/
def State.allBad (s : State) (a n : Nat) : List Nat := ((wordsOf a n).filter fun w => s.badWord w).map (8 * ·)

/-- The address lies in the warehouse or a berth. -/
def isSram (a : Nat) : Bool := decide (whsBase ≤ a) && decide (a < berthBase + viewStep)

/-! ### Copies -/

/-- A range holds undefined contents or lies under the veil. -/
def State.special (s : State) (a n : Nat) : Bool :=
  (s.undef.any fun e => decide (e.1 < a + n) && decide (a < e.2.1)) || !s.veiled.isEmpty

/-- Copy n bytes of device memory between normal-view addresses, marks of bad words included. -/
def State.copyMem (s : State) (src dst n : Nat) : State :=
  let t := s.dropHot dst n
  let t := { t with ecc := Tab.move (src / 8) (dst / 8) (n / 8) t.ecc }
  if s.special src n || s.special dst n then t.poke dst (s.bytes src n)
  else { t with mem := Tab.move src dst n t.mem }

/-- Mark a word uncorrectable. -/
def State.poison (s : State) (a : Nat) : State := { s with ecc := Tab.insert (a / 8) true s.ecc }

end Sys2Proof.Machine
end

