-- ==== Sys2Proof/Machine/Records.lean ====
section
/-! DEFINITION. Records to host software: interrupts (R478 to R480), completion records (Table 11.7, R464, R471, R472), and
the event ring (R474, R475). -/

namespace Sys2Proof.Machine

/-! ### Ports and interrupts -/

/-- A dword of the MSI-X table. The mask bit of a vector resets to 1, as PCIe gives. PRESUMED (log 12). -/
def State.msixDword (s : State) (i : Nat) : Nat := Tab.get (fun k => if k % 4 == 3 then 1 else 0) s.msix i

/-- A vector of a port is masked. -/
def State.masked (s : State) (port vector : Nat) : Bool := bit (s.msixDword (2048 * port + 4 * vector + 3)) 0

/-- Send an interrupt; one for a masked vector sets its pending bit (R480). -/
def State.irq (s : State) (port vector : Nat) : State :=
  if s.masked port vector then { s with msixPend := Tab.insert (port * 512 + vector) true s.msixPend }
  else s.send (.irq port vector)

/-- The interrupt of a ring, when `IRQ_EN` is 1 (R478); it waits while the port may not send (R446). -/
def State.ringIrq (s : State) (n : Nat) : State :=
  let p := s.get HST_RING_CFG_PORT n
  if !s.flag HST_RING_CFG_IRQ_EN n then s
  else if s.portSends p then s.irq p (s.get HST_RING_CFG_VECTOR n)
  else s.putRing n { s.ring n with irqWaiting := true }

/-! ### Completion records -/

/-- The 32 bytes of a completion record with `PHASE` 0 (Table 11.7). `w8` holds bytes 8 to 15. -/
def recordBytes (kind status reason b3 jobRef w8 tide winRing winRef : Nat) : List Byte :=
  [BitVec.ofNat 8 kind, BitVec.ofNat 8 status, BitVec.ofNat 8 reason, BitVec.ofNat 8 b3] ++ leBytes 4 jobRef ++ leBytes 8 w8 ++
  leBytes 8 tide ++ leBytes 2 winRing ++ [0, 0] ++ leBytes 4 winRef

/-- The first byte with `PHASE` in bit 7: the complement of bit `log2` of the index (R471). -/
def withPhase (log2 index : Nat) : List Byte → List Byte
  | [] => []
  | b :: t => (if bit index log2 then b else b ||| 0x80) :: t

/-- Write one record at the completion producer, release its slot, and count it towards the interrupt (R464, R471, R479). -/
def State.putRecord (s : State) (n : Nat) (bs : List Byte) (noIrq : Bool) : State :=
  let r := s.ring n
  let lg := s.get HST_RING_CFG_CQ_LOG2 n
  let s := s.hostWrite (4096 * s.get HST_CQ_BASE_BASE n + 32 * (r.cqProd % 2 ^ lg)) (withPhase lg r.cqProd bs)
  let r := { r with cqProd := (r.cqProd + 1) % 2 ^ 32, reserved := r.reserved - 1 }
  if noIrq then s.putRing n r
  else if r.unsignalled + 1 ≥ max 1 (s.get HST_RING_CFG_COALESCE_RECORDS n) then
    (s.putRing n { r with unsignalled := 0 }).ringIrq n
  else s.putRing n { r with unsignalled := r.unsignalled + 1 }

/-- A record whose outcome is decided: written in order (R473), or it waits while the port may not send (R444, R446). -/
def State.postRecord (s : State) (n : Nat) (bs : List Byte) (noIrq : Bool) : State :=
  let r := s.ring n
  if s.portSends (s.get HST_RING_CFG_PORT n) && r.waiting.isEmpty then s.putRecord n bs noIrq
  else s.putRing n { r with waiting := r.waiting ++ [(bs, noIrq)] }

/-- Write every waiting record of a ring, and send its waiting interrupt, once its port may send. -/
def State.flushRing (s : State) (n : Nat) : State :=
  if s.portSends (s.get HST_RING_CFG_PORT n) then
    let r := s.ring n
    let s := s.putRing n { r with waiting := [], irqWaiting := false }
    let s := r.waiting.foldl (fun t x => t.putRecord n x.1 x.2) s
    if r.irqWaiting then s.ringIrq n else s
  else s

/-! ### The event ring -/

/-- The event ring runs, has room (R460 with `LOG2`), and its port may send. -/
def State.evtRoom (s : State) : Bool :=
  s.flag HST_EVT_CTL_ENABLE 0 && !s.flag HST_EVT_CTL_STOPPED 0 && s.portSends (s.get HST_EVT_CFG_PORT 0) &&
  decide ((s.evt.prod + 2 ^ 32 - s.evt.cons) % 2 ^ 32 < 2 ^ s.get HST_EVT_CFG_LOG2 0)

/-- Write one event record and signal it at once (R474, R478). -/
def State.putEvent (s : State) (bs : List Byte) : State :=
  let lg := s.get HST_EVT_CFG_LOG2 0
  let i := s.evt.prod
  let s := s.hostWrite (4096 * s.get HST_EVT_BASE_BASE 0 + 64 * (i % 2 ^ lg)) (withPhase lg i bs)
  { s with evt := { s.evt with prod := (i + 1) % 2 ^ 32 } }.irq (s.get HST_EVT_CFG_PORT 0) (s.get HST_EVT_CFG_VECTOR 0)

/-- An event record: written, queued, or dropped (R475). -/
def State.postEvent (s : State) (bs : List Byte) : State :=
  if s.evt.queue.isEmpty && s.evtRoom then s.putEvent bs
  else if s.evt.queue.length < 256 then { s with evt := { s.evt with queue := s.evt.queue ++ [bs] } }
  else (s.inc HST_EVT_STATUS_LOST 0 1).put HST_EVT_STATUS_OVERFLOW 0 1

/-- Write queued event records in order while there is room. The list is the queue. -/
def State.drainEvents (s : State) : List (List Byte) → State
  | [] => { s with evt := { s.evt with queue := [] } }
  | b :: t =>
    if s.evtRoom then State.drainEvents (s.putEvent b) t
    else { s with evt := { s.evt with queue := b :: t } }

/-- Write queued event records while there is room. -/
def State.flushEvents (s : State) : State := s.drainEvents s.evt.queue

/-- Bytes 0 to 15 of an event record (Table 11.10), of a job or of none. -/
def State.eventHeader (s : State) (kind severity : Nat) (job : Option Job) (tide : Nat) : List Byte :=
  let (ring, ref) := match job with | some j => (j.ring, j.jobRef) | none => (0xFFFF, 0)
  [BitVec.ofNat 8 kind, BitVec.ofNat 8 severity] ++ leBytes 2 ring ++ leBytes 4 ref ++ leBytes 8 tide

end Sys2Proof.Machine
end

