-- ==== Sys2Proof/Machine/Errors.lean ====
section
/-! DEFINITION. Errors (13): severity, class and repeats, the log ring, fences by unit kind, the error log, and the stop of the
device. -/

namespace Sys2Proof.Machine

/-! ### Fences (Table 13.3) -/

/-- HBM stack of a channel: 32 channels a stack (Table 01.1). -/
def stackOf (channel : Nat) : Nat := channel / 32

/-- Channel sets with a channel on a stack. -/
def State.setsOn (s : State) (stack : Nat) : List Nat :=
  (List.range 32).filter fun n =>
    let f := s.get HBM_CHSET_FIRST_CHANNEL n
    let c := s.get HBM_CHSET_COUNT n
    decide (c > 0) && decide (f < 32 * stack + 32) && decide (32 * stack < f + c)

/-- A failed stack: fenced, its cause, and every channel set with a channel on it lost and stopped (R546). -/
def State.fenceStack (s : State) (stack cause : Nat) : State :=
  let s := (s.putBitAt HBM_STACK_STATUS_FENCED 0 stack true).put HBM_STACK_STATUS_CAUSE 0 cause
  (s.setsOn stack).foldl
    (fun t n => (t.putBitAt HBM_STACK_STATUS_LOST_SETS 0 n true).putBitAt HBM_CHSET_STATUS_STOPPED 0 n true) s

/-- Set a way's stop bit, and its stopped bit. -/
def State.putWayStop (s : State) (d w : Nat) (b : Bool) : State :=
  if d == 0 then s.putBitAt WHS_WAY_STOP_PORT 0 w b else s.putBitAt WHS_WAY_STOP_STBD 0 w b
def State.putWayStopped (s : State) (d w : Nat) (b : Bool) : State :=
  if d == 0 then s.putBitAt WHS_WAY_STATUS_STOPPED_PORT 0 w b else s.putBitAt WHS_WAY_STATUS_STOPPED_STBD 0 w b
def State.putWayBlocked (s : State) (d w : Nat) (b : Bool) : State :=
  if d == 0 then s.putBitAt WHS_WAY_STATUS_BLOCKED_PORT 0 w b else s.putBitAt WHS_WAY_STATUS_BLOCKED_STBD 0 w b

/-- Set a way's stop bit; a scratch way is stopped at once (R258, Table 06.4). -/
def State.stopWay (s : State) (d w : Nat) : State :=
  let s := s.putWayStop d w true
  if s.wayUse d w == 0 then s.putWayStopped d w true else s

/-- A kiln is fenced (R184), a crane (R537), a stevedore (R538). -/
def State.kilnFenced (s : State) (k : Nat) : Bool := s.flag KLN_FAULT_FENCED k

/-- Fence the unit of an error. A quay has failed by itself at detection (R497); the kinds 0x0B to 0x0F and 0x11 have no fence. -/
def State.fenceUnit (s : State) (kind source unit addr : Nat) : State :=
  if kind == 0x01 || kind == 0x02 || kind == 0x06 then
    if s.kilnFenced unit then s
    else (s.put KLN_FAULT_FENCED unit 1).put KLN_FAULT_SOURCE unit (if kind == 0x01 then source else 4)
  else if kind == 0x03 then s.putCrane unit { s.crane unit with fenced := true }
  else if kind == 0x04 then { s with fencedStevs := unit :: s.fencedStevs.erase unit }
  else if kind == 0x05 then
    let (d, w) := wayOf ((addr - whsBase) % viewStep)
    let s := s.stopWay d w
    { s with dock := { s.dock with heldWays := (16 * d + w) :: s.dock.heldWays.erase (16 * d + w) } }
  else if kind == 0x07 then s.fenceStack (stackOf unit) 5
  else if kind == 0x08 then s.fenceStack unit source
  else if kind == 0x0A then s.putQuay (unit / 64) { s.quay (unit / 64) with dead := (unit % 64) :: (s.quay (unit / 64)).dead.erase (unit % 64) }
  else if kind == 0x10 then { s with dock := { s.dock with stopped := unit :: s.dock.stopped.erase unit } }
  else s

/-- The unit of an error is fenced already (Table 13.9). -/
def State.unitFenced (s : State) (kind unit addr : Nat) : Bool :=
  if kind == 0x01 || kind == 0x02 || kind == 0x06 then s.kilnFenced unit
  else if kind == 0x03 then (s.crane unit).fenced
  else if kind == 0x04 then s.fencedStevs.contains unit
  else if kind == 0x05 then
    let (d, w) := wayOf ((addr - whsBase) % viewStep)
    s.dock.heldWays.contains (16 * d + w)
  else if kind == 0x07 then s.bitAt HBM_STACK_STATUS_FENCED 0 (stackOf unit)
  else if kind == 0x08 then s.bitAt HBM_STACK_STATUS_FENCED 0 unit
  else if kind == 0x09 then (s.quay unit).st == .failed
  else if kind == 0x0A then (s.quay (unit / 64)).dead.contains (unit % 64)
  else if kind == 0x10 then s.dock.stopped.contains unit
  else false

/-- The unit kind has a fence (Table 13.3). -/
def hasFence (kind : Nat) : Bool := decide (1 ≤ kind ∧ kind ≤ 0x0A) || kind == 0x10

/-! ### Classes and records -/

/-- Two errors are of one class when kind, source and unit agree (R525, R646). -/
def Err.sameClass (e f : Err) : Bool := e.kind == f.kind && e.source == f.source && e.unit == f.unit

/-- The count of a class since reset. -/
def Salvor.repeats (v : Salvor) (e : Err) : Nat :=
  match v.classes.find? fun c => c.kind == e.kind && c.source == e.source && c.unit == e.unit with
  | some c => c.count
  | none => 0

/-- The tide of the last severity 0 record of a class. -/
def Salvor.lastTide (v : Salvor) (e : Err) : Option Nat :=
  (v.classes.find? fun c => c.kind == e.kind && c.source == e.source && c.unit == e.unit).bind (·.lastTide)

/-- Count an error in its class, and note the tide when it is a severity 0 record (R526). -/
def Salvor.count (v : Salvor) (e : Err) (mark : Option Nat) : Salvor :=
  let c : ErrClass := ⟨e.kind, e.source, e.unit, min (v.repeats e + 1) 0xFFFF, if mark.isSome then mark else v.lastTide e⟩
  { v with classes := c :: v.classes.filter fun x => !(x.kind == e.kind && x.source == e.source && x.unit == e.unit) }

/-- The 64 bytes of an error record (Table 11.12). -/
def State.errorBytes (s : State) (e : Err) : List Byte :=
  let poison := decide (e.sev ≥ 1) && (e.kind == 5 || e.kind == 6 || e.kind == 7)
  let escalated := e.kind == 0x0D && (e.source == 4 || e.source == 5)
  let flags := b2n e.fenced + 2 * b2n escalated + 4 * b2n poison
  s.eventHeader 0x10 e.sev (e.job.bind s.job) e.tide ++
  [BitVec.ofNat 8 e.kind, BitVec.ofNat 8 e.source] ++ leBytes 2 e.unit ++ [BitVec.ofNat 8 flags, 0] ++
  leBytes 2 (s.salvor.repeats e) ++ leBytes 8 e.addr ++ leBytes 8 e.syndrome ++
  ((e.detail ++ List.replicate 24 0).take 24).map (BitVec.ofNat 8)

/-- The severity of a stored error record. -/
def recordSev (bs : List Byte) : Nat := (bs.getD 1 0).toNat

/-- The list without its first severity 0 record, or without its first record when none is severity 0 (R558). -/
def dropOldest (l : List (List Byte)) : List (List Byte) :=
  match l.findIdx? fun b => recordSev b == 0 with
  | some i => l.eraseIdx i
  | none => l.drop 1

/-- Store a record in the error log (R558). -/
def State.elogPush (s : State) (bs : List Byte) : State :=
  let s := s.inc DDK_ELOG_STATUS_TOTAL 0 1
  if s.dock.elog.length < 4096 then { s with dock := { s.dock with elog := s.dock.elog ++ [bs] } }
  else { s with dock := { s.dock with elog := dropOldest s.dock.elog ++ [bs] } }.put DDK_ELOG_STATUS_WRAPPED 0 1

/-- An error record goes to the error log and the event ring (R530), and to the trace. -/
def State.record (s : State) (e : Err) (bs : List Byte) : State := ((s.elogPush bs).postEvent bs).traceJob 5 (e.job.bind s.job) e.unit

/-- Write the error record of an error. -/
def State.logError (s : State) (e : Err) : State :=
  s.record e (s.errorBytes e)

/-! ### Records of jobs -/

/-- Byte 3 of a job's record: RESOURCE and the flags (Table 11.7). -/
def Job.flags (j : Job) (resource : Nat) : Nat :=
  resource % 16 + 16 * b2n j.badIndex + 32 * b2n j.notAppended + 64 * b2n j.retried

/-- Write a JOB record of a job (Table 11.7); `win` is the winner's ring and reference for GUARANTEE_BROKEN. -/
def State.jobRecord (s : State) (j : Job) (status resource : Nat) (win : Option (Nat × Nat)) : State :=
  let (wr, wf) := win.getD (0, 0)
  s.postRecord j.ring (recordBytes 0x01 status 0 (j.flags resource) j.jobRef (j.clip % 2 ^ 32 + 2 ^ 32 * (j.total % 2 ^ 32))
    s.stampTide wr wf) j.noIrq

/-! ### The device stops (R529) -/

/-- A severity 3 error: admission, dispatch and every engine stop, the error record and a FAULT record for each admitted job are
written through the ports that still can, nothing is sent on the quays, and the pilot is told. -/
def State.deviceStop (s : State) (e : Err) : State :=
  if s.halted then s
  else
    let s := s.logError e
    let s := s.jobs.foldl (fun t j => if t.portSends (t.get HST_RING_CFG_PORT j.ring) then t.jobRecord j 0x11 0 none else t) s
    let s := { s with halted := true, jobs := [], pilot := { s.pilot with sev3 := true } }
    (((s.put HMR_TIDE_STATUS_RUNNING 0 0).put HMR_SALVOR_STATUS_BUSY 0 0).send (.pldmEvent 3 e.source))

/-! ### The log ring (R531 to R533) -/

/-- Take an error in hand. -/
def State.takeInHand (s : State) (e : Err) : State :=
  ({ s with salvor := { s.salvor with inHand := some e } }.put HMR_SALVOR_STATUS_HANDLING 0 e.sev).put HMR_SALVOR_STATUS_BUSY 0 1

/-- An error that arrives at a full ring (R533). -/
def State.ringFull (s : State) (e : Err) : State :=
  if e.sev == 0 then (s.logError e).inc HMR_SALVOR_STATUS_RING_DROPS 0 1
  else
    let s := (s.fenceUnit e.kind e.source e.unit e.addr).inc HMR_SALVOR_STATUS_RING_FENCES 0 1
    { s with salvor := { s.salvor with waiting := s.salvor.waiting ++ [{ e with sev := 2, fenced := true }] } }

/-- An error that is to be handled: in hand when the salvor is free, else in the ring, preempting a lower severity (R531). -/
def State.queueError (s : State) (e : Err) : State :=
  match s.salvor.inHand with
  | none =>
    if !s.salvor.stopped then s.takeInHand e
    else if s.salvor.ring.length ≥ 64 then s.ringFull e
    else { s with salvor := { s.salvor with ring := s.salvor.ring ++ [e] } }
  | some h =>
    if s.salvor.ring.length ≥ 64 then s.ringFull e
    else if e.sev > h.sev && !s.salvor.stopped then
      ({ s with salvor := { s.salvor with ring := s.salvor.ring ++ [{ h with suspended := true }] } }).takeInHand e
    else { s with salvor := { s.salvor with ring := s.salvor.ring ++ [e] } }

/-- The class of an error matches one in the ring or in hand (R532). -/
def Salvor.matches (v : Salvor) (e : Err) : Bool :=
  (v.ring.any fun f => f.sameClass e) || (match v.inHand with | some f => f.sameClass e | none => false)

/-- A detected error of a unit: counted, promoted when it repeats a class still in the ring (R532), dropped when its unit is fenced
already (Table 13.9) or when it is a later severity 0 error of its class in the tide (R526), and otherwise queued for the
salvor; severity 3 stops the device. -/
def State.detectOne (s : State) (e : Err) : State :=
  let first := decide (s.salvor.lastTide e ≠ some e.tide)
  let fenced := s.unitFenced e.kind e.unit e.addr
  let rep := s.salvor.matches e && (e.sev == 1 || e.sev == 2)
  let s := { s with salvor := s.salvor.count e (if e.sev == 0 && first then some e.tide else none) }
  let e := if rep then { e with sev := if hasFence e.kind then 2 else 3 } else e
  if s.halted || fenced then s
  else if e.sev ≥ 3 then s.deviceStop e
  else if e.sev == 0 && !first then s
  else s.queueError e

/-- An error of a unit, with no syndrome and no detail. -/
def mkErr (s : State) (sev kind source unit addr : Nat) (job : Option Nat) (detail : List Nat) : Err :=
  ⟨sev, kind, source, unit, addr, 0, detail, job, s.stampTide, false, false⟩

/-- An HBM stack is declared failed with a cause (R545): the severity 2 error, and the fence at once (R546). -/
def State.failStack (s : State) (stack cause : Nat) : State :=
  if s.bitAt HBM_STACK_STATUS_FENCED 0 stack then s
  else
    let s := s.detectOne { mkErr s 2 0x08 cause stack 0 none [stack, cause] with fenced := true }
    if s.halted then s else s.fenceStack stack cause

/-- Uncorrectable errors on a stack in the present tide. -/
def Salvor.errsOn (v : Salvor) (stack : Nat) : Nat := ((v.stackErrs.find? fun p => p.1 == stack).map (·.2)).getD 0

/-- Count an uncorrectable error of a channel; the sixteenth in a tide fails its stack (R545). -/
def State.countStack (s : State) (stack : Nat) : State :=
  let n := s.salvor.errsOn stack + 1
  let s := { s with salvor := { s.salvor with stackErrs := (stack, n) :: s.salvor.stackErrs.filter fun p => p.1 != stack } }
  if n ≥ 16 then s.failStack stack 2 else s

/-- A detected error. -/
def State.detect (s : State) (e : Err) : State :=
  let s := s.detectOne e
  if e.kind == 0x07 && e.sev ≥ 1 && !s.halted then s.countStack (stackOf e.unit) else s

/-- Unit kind and unit of the memory at an address: a warehouse bank, a berth, or an HBM channel. -/
def State.memUnit (s : State) (a : Nat) : Nat × Nat :=
  if a < 0x10000000000 then
    match s.setOf a with
    | some n => (0x07, s.get HBM_CHSET_FIRST_CHANNEL n + (a - s.setBase n) / 256 % max 1 (s.get HBM_CHSET_COUNT n))
    | none => (0x07, 0)
  else if a < berthBase then (0x05, bankOf ((a - whsBase) % viewStep))
  else (0x06, (a - berthBase) % viewStep / 0x100000)

/-- The macro of a row (R283): a warehouse macro holds two ways of its bank, and a berth's four are the halves of its halves. -/
def macroAt (a : Nat) : Nat := if a < berthBase then (wayOf (a - whsBase)).2 / 2 else (a - berthBase) % 0x100000 / 0x40000

/-- The DETAIL of a word in error (Table 13.3). The failing column, and the place in a channel, follow from no rule: free (log 130). -/
def wordDetail (kind a : Nat) : List Nat :=
  let free := fun i => Config.errorPlace a i % 256
  if kind == 5 then
    let o := (a - whsBase) % viewStep
    [bankRowOf o % 256, bankRowOf o / 256, (wayOf o).2, macroAt (whsBase + o), free 4, free 5]
  else if kind == 6 then [macroAt a, free 1, free 2]
  else (List.range 9).map free

/-- An error of a 64-bit word; the syndrome of its code is free (log 130). -/
def State.mkWordErr (s : State) (sev source a : Nat) (job : Option Nat) : Err :=
  let (k, u) := s.memUnit a
  { mkErr s sev k source u a job (wordDetail k a) with syndrome := (Config.syndrome a).toNat }

/-- An uncorrectable word at an address met by a job's access: counted for the warehouse and the berths (R242), and detected as a
severity 1 error. -/
def State.wordError (s : State) (a : Nat) (job : Option Nat) : State :=
  (if isSram a then s.inc WHS_ECC_UNCORRECTED_COUNT 0 1 else s).detect (s.mkWordErr 1 2 a job)

/-- Correctable words are corrected: written back, counted for the warehouse and the berths, and each a severity 0 error (R241,
R526). -/
def State.correctWords (s : State) (ws : List Nat) : State :=
  let weak := (ws.filter fun w => s.weakWord w).dedup
  let t := { s with ecc := s.ecc.filter fun e => !(weak.contains e.1) }
  let t := if weak.any fun w => isSram (8 * w) then t.inc WHS_ECC_CORRECTED_COUNT 0 (weak.countP fun w => isSram (8 * w)) else t
  weak.foldl (fun u w => u.detect (u.mkWordErr 0 1 (8 * w) none)) t

/-- Correct the correctable words of a range (R241). -/
def State.correct (s : State) (a n : Nat) : State := s.correctWords (wordsOf a n)

end Sys2Proof.Machine
end

