-- ==== Sys2Proof/Machine/Words.lean ====
section
/-! DEFINITION. Reads and writes by device address (05, 06): an access in 256 B pieces, with corrections and uncorrectable words. -/

namespace Sys2Proof.Machine

/-! ### Reads and writes by device address -/

/-- A range cut at 256 B boundaries, as (address, length) pieces. `fuel` bounds the number of pieces. -/
def pieces : Nat → Nat → Nat → List (Nat × Nat)
  | 0, _, _ => []
  | fuel + 1, a, n =>
    if n == 0 then []
    else
      let k := min n (256 - a % 256)
      (a, k) :: pieces fuel (a + k) (n - k)

/-- The pieces of [a, a + n). -/
def piecesOf (a n : Nat) : List (Nat × Nat) := pieces (n / 256 + 2) a n

/-- The first refusal among the pieces of an access. -/
def State.accessErr (s : State) (r : Req) (wr : Bool) (a n : Nat) : Option AccErr :=
  (piecesOf a n).findSome? fun p => match s.locate r wr p.1 with | .error e => some e | .ok _ => none

/-- Fill the translation cache for an access to host windows (R455). -/
def State.fillWin (s : State) (a : Nat) : State :=
  if a < hostBase then s
  else match s.winPage (a / 65536) with
    | some p => { s with winCache := Tab.insert (a / 65536) p s.winCache }
    | none => s

/-- Where the pieces of an access lead, or its first refusal. -/
def State.places (s : State) (r : Req) (wr : Bool) : List (Nat × Nat) → Except AccErr (List (Loc × Nat))
  | [] => .ok []
  | p :: t =>
    match s.locate r wr p.1, State.places s r wr t with
    | .error e, _ => .error e
    | .ok _, .error e => .error e
    | .ok l, .ok ls => .ok ((l, p.2) :: ls)

/-- Fill the translation cache for the pieces of an access. -/
def State.fillWins (s : State) (ps : List (Nat × Nat)) : State := ps.foldl (fun t p => t.fillWin p.1) s

/-- The words of device memory in a place. -/
def Loc.words (l : Loc) (n : Nat) : List Nat :=
  match l with
  | .dev a _ => wordsOf a n
  | .host _ _ => []

/-- The bytes in a place. -/
def State.placeBytes (s : State) (l : Loc) (n : Nat) : List Byte :=
  match l with
  | .dev a _ => s.bytes a n
  | .host _ b => s.hostBytes b n

/-- Bytes of the words of a place that are not in error, by address. -/
def State.goodBytes (s : State) (l : Loc) (n : Nat) : List (Nat × Byte) :=
  match l with
  | .dev a _ => ((List.range n).filter fun i => !s.badWord ((a + i) / 8)).map fun i => (a + i, s.byte (a + i))
  | .host _ _ => []

/-- Read n bytes at a device address: the correctable words are corrected, and an uncorrectable one makes the access fail with what
it did and what it returns of the other words (R241, R242). -/
def State.read (s : State) (r : Req) (a n : Nat) : Except AccErr (List Byte × State) :=
  match s.places r false (piecesOf a n) with
  | .error e => .error e
  | .ok ls =>
    let ws := ls.flatMap fun p => p.1.words p.2
    if ws.any fun w => s.badWord w then
      .error (.memory { bad := (ws.filter fun w => s.badWord w).map (8 * ·), reads := ws, good := ls.flatMap fun p => s.goodBytes p.1 p.2 })
    else .ok (ls.flatMap fun p => s.placeBytes p.1 p.2, (s.correctWords ws).fillWins (piecesOf a n))

/-- The words of a write that it covers whole, which become valid. -/
def wholeWords (a n : Nat) : List Nat := (wordsOf a n).filter fun w => decide (a ≤ 8 * w) && decide (8 * w + 8 ≤ a + n)

/-- Words that a write reads because it does not replace them: those of an alias operation, or covered in part (R240, R247). -/
def Loc.readWords (l : Loc) (n : Nat) : List Nat :=
  match l with
  | .dev a .normal => (wordsOf a n).filter fun w => !((wholeWords a n).contains w)
  | .dev a _ => wordsOf a n
  | .host _ _ => []

/-- Words that a write replaces without reading them. -/
def Loc.newWords (l : Loc) (n : Nat) : List Nat :=
  match l with
  | .dev a .normal => wholeWords a n
  | _ => []

/-- What a write makes of the bytes of the words it need not read, or reads without error, by address (R245). -/
def State.wrote (s : State) (l : Loc) (bs : List Byte) : List (Nat × Byte) :=
  match l with
  | .dev a v =>
    let bad := (l.readWords bs.length).filter fun w => s.badWord w
    (bs.zipIdx.filter fun e => !(bad.contains ((a + e.2) / 8))).map fun e => (a + e.2, v.apply (s.byte (a + e.2)) e.1)
  | .host _ _ => []

/-- Words written whole hold valid check bits again. -/
def State.renew (s : State) (ws : List Nat) : State := { s with ecc := s.ecc.filter fun e => !(ws.contains e.1) }

/-- Write one place: the words read are corrected, those replaced are valid, and hot rows of the units written go (R240, R241, R273). -/
def State.writeLoc (s : State) (l : Loc) (bs : List Byte) : State :=
  match l with
  | .host _ b => s.hostWrite b bs
  | .dev a v => (((s.dropHot a bs.length).correctWords (l.readWords bs.length)).renew (l.newWords bs.length)).pokeBytes v a bs

/-- Write places in order. -/
def State.writePlaces (s : State) : List (Loc × Nat) → List Byte → State
  | [], _ => s
  | p :: t, bs => State.writePlaces (s.writeLoc p.1 (bs.take p.2)) t (bs.drop p.2)

/-- What a write of places did when some word that it must read is in error: that word is left, the others are written (R242, R245,
R247). -/
def State.writeErr (s : State) : List (Loc × Nat) → List Byte → MemErr
  | [], _ => { bad := [] }
  | p :: t, bs =>
    let e := State.writeErr s t (bs.drop p.2)
    let ws := p.1.readWords p.2
    { bad := (ws.filter fun w => s.badWord w).map (8 * ·) ++ e.bad, reads := ws ++ e.reads, whole := p.1.newWords p.2 ++ e.whole,
      wrote := s.wrote p.1 (bs.take p.2) ++ e.wrote }

/-- Write bytes at a device address. An access that any piece refuses writes nothing (R256). -/
def State.write (s : State) (r : Req) (a : Nat) (bs : List Byte) : Except AccErr State :=
  match s.places r true (piecesOf a bs.length) with
  | .error e => .error e
  | .ok ls =>
    if (ls.flatMap fun p => p.1.readWords p.2).any fun w => s.badWord w then .error (.memory (s.writeErr ls bs))
    else .ok ((s.fillWins (piecesOf a bs.length)).writePlaces ls bs)

/-- Bytes by address as runs of consecutive addresses. -/
def runsOf : List (Nat × Byte) → List (Nat × List Byte)
  | [] => []
  | p :: t =>
    match runsOf t with
    | [] => [(p.1, [p.2])]
    | q :: r => if q.1 == p.1 + 1 then (p.1, p.2 :: q.2) :: r else (p.1, [p.2]) :: q :: r

/-- What an access with uncorrectable words did to the words not in error: corrected, or written (R241, R245). -/
def State.memDone (s : State) (e : MemErr) : State :=
  e.wrote.foldl (fun t p => (t.dropHot p.1 1).pokeByte .normal p.1 p.2) ((s.correctWords e.reads).renew e.whole)

/-- An access met uncorrectable words: what it did stands, and each word is an error of its own (R242). -/
def State.memError (s : State) (e : MemErr) (job : Option Nat) : State := e.bad.foldl (fun t a => t.wordError a job) (s.memDone e)

end Sys2Proof.Machine
end

