-- ==== Sys2Proof/Machine/Histories.lean ====
section
/-! DEFINITION. Histories (09): directory entries, frames and index pages, the tests of a history section, and its effect. -/

namespace Sys2Proof.Machine

/-- A history directory entry (Table 09.2). -/
structure HEntry where
  gen : Nat
  st : Nat
  locality : Nat
  model : Nat
  events : Nat
  first : Nat
  frames : Nat
  index : Nat
  deriving DecidableEq, Repr

/-- STATE codes of Table 09.2. -/
def hFree : Nat := 0
def hLive : Nat := 1
def hAppending : Nat := 2
def hDamaged : Nat := 3
def hReleasing : Nat := 4

/-- Address of directory entry h (R378). -/
def State.histAddr (s : State) (h : Nat) : Nat := s.get HMR_HIST_DIR_BASE 0 + 32 * h

/-- Read a directory entry. -/
def State.hist (s : State) (h : Nat) : HEntry :=
  let w := s.num (s.histAddr h) 32
  ⟨bits w 0 32, bits w 32 8, bits w 40 2, bits w 48 16, bits w 64 40, bits w 128 32, bits w 160 32, bits w 192 48⟩

/-- Write a directory entry. -/
def State.putHist (s : State) (h : Nat) (e : HEntry) : State :=
  s.poke (s.histAddr h) (leBytes 4 e.gen ++ leBytes 1 e.st ++ leBytes 1 e.locality ++ leBytes 2 e.model ++
    leBytes 8 e.events ++ leBytes 4 e.first ++ leBytes 4 e.frames ++ leBytes 8 e.index)

/-- Address of pool frame f. -/
def State.frameAddr (s : State) (f : Nat) : Nat := s.get HMR_HIST_POOL_BASE 0 + 0x200000 * f

/-- The pool frame at an address. -/
def State.frameOf (s : State) (a : Nat) : Nat := (a - s.get HMR_HIST_POOL_BASE 0) / 0x200000

/-- The die of a frame: that of the channel that holds its first byte. DEDUCED (log 13). -/
def State.frameDie (s : State) (f : Nat) : Nat :=
  if (s.memUnit (s.frameAddr f)).2 < 192 then 0 else 1

/-- Take one free frame, from the preferred die first; a frame of the other die counts an override (R379). `die` is none for
ANY. -/
def State.takeFrame (s : State) (die : Option Nat) : Option (Nat × State) :=
  let near := match die with
    | some d => s.freeFrames.find? fun f => s.frameDie f == d
    | none => s.freeFrames.head?
  match near with
  | some f => some (f, { s with freeFrames := s.freeFrames.erase f })
  | none =>
    match s.freeFrames.head? with
    | some f => some (f, { s with freeFrames := s.freeFrames.erase f }.inc HMR_LOCALITY_OVERRIDES_COUNT 0 1)
    | none => none

/-- The die a `LOCALITY` names, with the die of a ring's port for HOME (Table 01.2). -/
def localityDie (loc port : Nat) : Option Nat :=
  if loc == 1 then some 0 else if loc == 2 then some 1 else if loc == 3 then some port else none

/-- Take an index page: a free one, or one of the 32 of a newly set aside frame (R376). -/
def State.takePage (s : State) (die : Option Nat) : Option (Nat × State) :=
  match s.indexPages with
  | p :: t => some (p, { s with indexPages := t }.zero p 0x10000)
  | [] =>
    match s.takeFrame die with
    | some (f, s') =>
      let a := s'.frameAddr f
      some (a, { s' with indexPages := (List.range 31).map fun i => a + 0x10000 * (i + 1) }.zero a 0x10000)
    | none => none

/-- Follow k links of an index chain (entry 8,191). -/
def State.indexPage (s : State) : Nat → Nat → Nat
  | 0, p => p
  | k + 1, p => State.indexPage s k (bits (s.num (p + 8 * 8191) 8) 0 48)

/-- Address of the index entry of a chunk, from the entry's first index page. -/
def State.indexEntry (s : State) (e : HEntry) (chunk : Nat) : Nat :=
  s.indexPage (chunk / 8191 - e.first / 8191) e.index + 8 * (chunk % 8191)

/-- The words that a walk to the index entry of a chunk reads: the links it passes, then the entry (R376). -/
def State.indexWalk (s : State) (e : HEntry) (chunk : Nat) : List Nat :=
  ((List.range (chunk / 8191 - e.first / 8191)).map fun i => s.indexPage i e.index + 8 * 8191) ++ [s.indexEntry e chunk]

/-- The uncorrectable words among index words. -/
def State.badIndexWords (s : State) (ws : List Nat) : List Nat := (ws.flatMap fun a => s.allBad a 8).dedup

/-- New frames that n events after L0 need (R383). -/
def newFrames (l0 n : Nat) : Nat := ceilDiv (l0 + n) 512 - ceilDiv l0 512

/-- The append reaches a chunk that no index page covers (R383). -/
def needsPage (l0 n : Nat) : Bool :=
  decide (newFrames l0 n > 0) &&
  (l0 == 0 || decide ((ceilDiv (l0 + n) 512 - 1) / 8191 > (ceilDiv l0 512 - 1) / 8191))

/-- Frames that admission must find free (R383). -/
def framesToReserve (l0 n : Nat) : Nat := newFrames l0 n + b2n (needsPage l0 n)

/-- The tests of R381, in order, on a state in which every section admitted before has taken effect: the refusal reason of Table 10.6, or whether the job runs as a READ for want of frames. -/
def State.histTest (s : State) (u : HistUse) (model : Nat) : Except Nat Bool :=
  let e := s.hist u.hist
  let l0 := if u.op == 2 then 0 else e.events
  if u.hist > s.get HMR_HIST_SIZE_ENTRIES 0 || s.flag HMR_HIST_CTL_STOP 0 then .error 0x10
  else if u.op == 2 && e.st != hFree then .error 0x10
  else if u.op != 2 && (e.st == hFree || e.st == hReleasing) then .error 0x10
  else if u.op != 2 && e.gen != u.gen then .error 0x11
  else if e.st == hDamaged && u.op != 4 then .error 0x12
  else if (u.op == 1 || u.op == 3 || u.op == 4) && e.st == hAppending then .error 0x13
  else if u.op != 2 && e.model != model then .error 0x10
  else if (u.op == 1 || u.op == 2) && s.freeFrames.length < framesToReserve l0 u.n then
    (if u.optional then .ok true else .error 0x14)
  else .ok false

/-- Take frames for chunks [c, c + k) and write their index entries. Returns the frames with their chunks, and the pages. A history of no
event has no page before its first frame. -/
def State.growIndex (s : State) (h : Nat) (die : Option Nat) : Nat → Nat → List (Nat × Nat) → List Nat →
    List (Nat × Nat) × List Nat × State
  | 0, _, fs, ps => (fs, ps, s)
  | k + 1, c, fs, ps =>
    match s.takeFrame die with
    | none => (fs, ps, s)
    | some (f, s1) =>
      let e := s1.hist h
      let r :=
        if e.events == 0 && fs.isEmpty then
          match s1.takePage die with
          | some (p, s2) => (s2.putHist h { s2.hist h with index := p }, ps ++ [p])
          | none => (s1, ps)
        else if c % 8191 == 0 then
          match s1.takePage die with
          | some (p, s2) =>
            let last := s2.indexPage (c / 8191 - 1 - e.first / 8191) e.index
            (s2.poke (last + 8 * 8191) (leBytes 8 (p + 2 ^ 63)), ps ++ [p])
          | none => (s1, ps)
        else (s1, ps)
      let s3 := r.1.poke (r.1.indexEntry (r.1.hist h) c) (leBytes 8 (r.1.frameAddr f + 2 ^ 63))
      State.growIndex s3 h die k (c + 1) (fs ++ [(c, f)]) r.2

/-- Chunk steps of n new events after L0 (R387): one entry per touched chunk, at layer 0. -/
def chunkSteps (l0 n : Nat) : List (Nat × Nat × Bool) :=
  if n == 0 then []
  else (List.range ((l0 + n - 1) / 512 - l0 / 512 + 1)).map fun i => (l0 / 512 + i, 0, false)

/-- Address of the frame of a chunk (R375, R376). -/
def State.chunkAddr (s : State) (e : HEntry) (c : Nat) : Nat := bits (s.num (s.indexEntry e c) 8) 0 48

/-- Frames of chunks [c, c + k) of a history, those that a readable index names. -/
def State.chunkFrames (s : State) (e : HEntry) (c k : Nat) : List Nat :=
  ((List.range k).filter fun i => (s.badIndexWords (s.indexWalk e (c + i))).isEmpty).map fun i => s.frameOf (s.chunkAddr e (c + i))

/-- Index frames all of whose pages are free return to the pool (R376, R394, R395). -/
def State.gatherPages (s : State) : State :=
  let whole := ((s.indexPages.map fun p => s.frameOf p).dedup).filter fun f =>
    decide ((s.indexPages.filter fun p => s.frameOf p == f).length ≥ 32)
  { s with freeFrames := s.freeFrames ++ whole, indexPages := s.indexPages.filter fun p => !whole.contains (s.frameOf p) }

/-- Jobs stamped on a history. -/
def State.histReaders (s : State) (h : Nat) : List Nat :=
  (s.jobs.filter fun j => match j.hist with | some u => u.hist == h && u.begun | none => false).map (·.id)

/-- Begin an append of n events after L0 (R383, R384): the entry is APPENDING, frames are taken, the chunk steps stand. An
append of no events ends at once. -/
def State.beginAppend (s : State) (u : HistUse) (l0 : Nat) (die : Option Nat) : HistUse × State :=
  let s := s.putHist u.hist { s.hist u.hist with st := hAppending }
  let (fs, ps, s) := s.growIndex u.hist die (newFrames l0 u.n) (ceilDiv l0 512) [] []
  let e := s.hist u.hist
  let s := s.putHist u.hist { e with frames := e.frames + fs.length }
  let steps := chunkSteps l0 u.n
  ({ u with begun := true, l0 := l0, taken := fs, pages := ps, steps := steps, opened := decide (u.n > 0) },
   if u.n == 0 then { s with appended := s.appended ++ [⟨u.hist, l0⟩] } else s)

/-- HISTORY_READ's effect: the stamp (R382). A CREATE that runs as a READ finds the entry FREE, and its stamp is 0. -/
def State.histRead (s : State) (u : HistUse) : HistUse × State :=
  let e := s.hist u.hist
  ({ u with begun := true, l0 := if e.st == hFree then 0 else e.events }, s)

/-- APPEND (R383, R384). -/
def State.histAppend (s : State) (u : HistUse) (port : Nat) : HistUse × State :=
  let e := s.hist u.hist
  s.beginAppend u e.events (localityDie e.locality port)

/-- CREATE (R383, R384): a new entry, then its initial events. -/
def State.histCreate (s : State) (u : HistUse) (model port : Nat) : HistUse × State :=
  let s := s.putHist u.hist ⟨u.gen, hAppending, u.locality, model, 0, 0, 0, 0⟩
  s.beginAppend u 0 (localityDie u.locality port)

/-- Chunks that a TRIM drops: never the one that holds the last event (R392). -/
def HEntry.trimmed (e : HEntry) (n : Nat) : Nat := min n ((if e.events == 0 then e.first else (e.events - 1) / 512) - e.first)

/-- TRIM (R392, R394): `FIRST_CHUNK` advances, never past the chunk of the last event; the dropped frames, and index pages
that cover only dropped chunks, wait for the jobs admitted before. -/
def State.histTrim (s : State) (u : HistUse) : HistUse × State :=
  let e := s.hist u.hist
  let k := e.trimmed u.trim
  let first := e.first + k
  let links := first / 8191 - e.first / 8191
  let pages := (List.range links).map fun i => s.indexPage i e.index
  let d : Deferred := ⟨u.hist, s.chunkFrames e e.first k, pages, s.histReaders u.hist⟩
  let s1 := s.putHist u.hist { e with first := first, frames := e.frames - k, index := s.indexPage links e.index }
  ({ u with begun := true, l0 := e.events },
   { s1 with deferred := s1.deferred ++ [d] })

/-- RELEASE (R393). -/
def State.histRelease (s : State) (u : HistUse) : HistUse × State :=
  let e := s.hist u.hist
  ({ u with begun := true, l0 := e.events }, s.putHist u.hist { e with st := hReleasing })

/-- The index words that a section's effect reads: the links to the last page for new frames, the entries that a TRIM drops. -/
def State.sectionReads (s : State) (u : HistUse) : List Nat :=
  let e := s.hist u.hist
  match u.op with
  | 1 =>
    if newFrames e.events u.n == 0 || e.events == 0 then []
    else (List.range ((e.events - 1) / 512 / 8191 - e.first / 8191)).map fun i => s.indexPage i e.index + 8 * 8191
  | 3 => (List.range (e.trimmed u.trim)).flatMap fun i => s.indexWalk e (e.first + i)
  | _ => []

/-- The effect of a history section at admission. An uncorrectable word of an index page that it reads leaves the entry DAMAGED (R397). -/
def State.histBegin (s : State) (u : HistUse) (model port : Nat) : HistUse × State :=
  let bad := s.badIndexWords (s.sectionReads u)
  if !bad.isEmpty then
    ({ u with begun := true, l0 := (s.hist u.hist).events, failed := true },
     (s.memError { bad := bad } none).putHist u.hist { s.hist u.hist with st := hDamaged })
  else match u.op with
  | 0 => s.histRead u
  | 1 => s.histAppend u port
  | 2 => s.histCreate u model port
  | 3 => s.histTrim u
  | _ => s.histRelease u

/-- A failed append (R395): its frames, its index pages and a newly taken index frame return, the index entries and the link that it
wrote are cleared, and the entry returns to LIVE with `EVENTS` unchanged. -/
def State.histFail (s : State) (u : HistUse) : State :=
  let e := s.hist u.hist
  let s := u.taken.foldl (fun t p => t.poke (t.indexEntry (t.hist u.hist) p.1) (leBytes 8 0)) s
  let s := if u.pages.isEmpty || u.l0 == 0 then s
    else s.poke (s.indexPage ((u.l0 - 1) / 512 / 8191 - e.first / 8191) e.index + 8 * 8191) (leBytes 8 0)
  let s := s.putHist u.hist
    { e with st := if e.st == hAppending then hLive else e.st, frames := e.frames - u.taken.length,
             index := if u.l0 == 0 && !u.pages.isEmpty then 0 else e.index }
  { s with freeFrames := s.freeFrames ++ u.taken.map (fun (p : Nat × Nat) => p.2), indexPages := s.indexPages ++ u.pages }.gatherPages

/-- An uncorrectable error in a history (R397). -/
def State.histDamage (s : State) (h : Nat) : State := s.putHist h { s.hist h with st := hDamaged }

end Sys2Proof.Machine
end

