-- ==== Sys2Proof/Machine/Jobs.lean ====
section
/-! DEFINITION. Jobs in flight: stopping a job's streams and tasks, completing it with its record, halting and freezing masters,
and the retry after a failure (R410, R423, R541, R542). -/

namespace Sys2Proof.Machine

/-- The device runs: no severity 3 stop, no failed start-up (R603), and in Full or Damped. -/
def State.live (s : State) : Bool := !s.halted && !s.flag LHS_START_FAILED 0 && s.power.mode == .run

/-- A VC1 or VC2 message of a device is taken: the device runs, and the sender is not a frozen peer (R523). -/
def State.hears (s : State) (device : Nat) : Bool := s.live && !(s.peer device).frozen

/-! ### STATUS codes (Table 11.9) -/

def stOk : Nat := 0x00
def stMalformed : Nat := 0x01
def stBounds : Nat := 0x02
def stHostMiss : Nat := 0x03
def stStreamFault : Nat := 0x04
def stKilnFault : Nat := 0x05
def stDeadline : Nat := 0x06
def stViolation : Nat := 0x07
def stBroken : Nat := 0x08
def stLookupLate : Nat := 0x09
def stIndices : Nat := 0x0A
def stTableMismatch : Nat := 0x0B
def stEpochGone : Nat := 0x0C
def stTableLost : Nat := 0x0D
def stHistoryLate : Nat := 0x0E
def stHistoryError : Nat := 0x0F
def stMemoryError : Nat := 0x10
def stFault : Nat := 0x11

/-- STATUS of a job whose access was refused (R448, R454, Table 13.4); one that is held waits and ends no job. -/
def AccErr.status : AccErr → Nat
  | .bounds => stBounds
  | .hostMiss => stHostMiss
  | .memory _ => stMemoryError
  | .lost => stMemoryError
  | .absent => stBounds
  | .held => stHostMiss

/-! ### Streams and slots -/

/-- Read tags held by a stream: units in flight. -/
def Stream.inFlight (x : Stream) : Nat := (x.units.filter fun u => u.st == .inFlight).length

/-- The stevedore of a stream number. -/
def stevedoreOf (n : Nat) : Nat := n / 32

/-- Free the read tags of a stream's units in flight. -/
def State.freeTags (s : State) (n k : Nat) : State :=
  s.put STV_TAGS_IN_USE (stevedoreOf n) (s.get STV_TAGS_IN_USE (stevedoreOf n) - k)

/-- Free a stream's context: its tags and its reservations, remote ones included, are released; its halt generation stays. -/
def State.freeStream (s : State) (n : Nat) : State :=
  let x := s.stream n
  let s := s.freeTags n x.inFlight
  let s := if x.remote || x.asked then s.send (.net x.device (if x.cls < 2 then 1 else 2) (.reserveRelease (s.get QUY_POD_CFG_DEVICE_ID 0) n)) else s
  s.putStream n { gen := x.gen }

/-- Streams of a job that are neither free nor frozen. -/
def State.streamsOf (s : State) (j : Nat) : List Nat :=
  (s.streams.filter fun e => e.2.job == j && e.2.load.isNone && e.2.st != .free && e.2.st != .frozen).map (·.1)

/-- Free a context slot; its engines are released and its halt generation stays. -/
def State.freeSlot (s : State) (k c : Nat) : State :=
  let x := s.ctx k c
  (s.putKiln k ((s.kiln k).leave c)).putCtx k c { gen := x.gen }

/-- Slots that hold tasks of a job and are not frozen. -/
def State.slotsOf (s : State) (j : Nat) : List Nat :=
  (s.ctxs.filter fun e => e.2.job == j && e.2.st != .empty && e.2.st != .frozen).map (·.1)

/-- Stop a job's work: its streams and tasks, resident or evicted (R410, R423, R426). -/
def State.stopWork (s : State) (j : Nat) : State :=
  let s := (s.streamsOf j).foldl (fun t n => t.freeStream n) s
  let s := (s.slotsOf j).foldl (fun t i => t.freeSlot (i / 4) (i % 4)) s
  { s with evicted := s.evicted.filter fun e => e.job != j,
           catchUps := s.catchUps.filter fun c => c.job != j }

/-! ### Ends of jobs -/

/-- Release k completion slots reserved for a ring (R464). -/
def State.releaseSlots (s : State) (n k : Nat) : State :=
  let r := s.ring n
  s.putRing n { r with reserved := r.reserved - k }

/-- Take a job off the list of admitted jobs, releasing the slots still reserved for it. -/
def State.dropJob (s : State) (j : Job) (left : Nat) : State :=
  { s with jobs := s.jobs.filter fun x => x.id != j.id }.releaseSlots j.ring left

/-- Write a HISTORY record (R390). -/
def State.historyRecord (s : State) (j : Job) (status : Nat) : State :=
  s.postRecord j.ring (recordBytes 0x05 status 0 (j.flags 0) j.jobRef 0 s.stampTide 0 0) j.noIrq

/-- The append that a job still has open. -/
def Job.openAppend (j : Job) : Option HistUse :=
  match j.hist with
  | some u => if u.opened then some u else none
  | none => none

/-- The job owes a HISTORY record: an append with `AFTER` (R464). -/
def Job.owesHistory (j : Job) : Bool :=
  match j.hist with
  | some u => u.after && (u.op == 1 || u.op == 2) && !j.notAppended
  | none => false

/-- Let a job's history section take the effect of its admission, when it has not yet (R382, R384). -/
def State.beginHist (s : State) (j : Job) : State :=
  match j.hist with
  | some u =>
    if u.begun then s
    else
      let r := s.histBegin u j.model (s.get HST_RING_CFG_PORT j.ring)
      r.2.putJob { j with hist := some r.1 }
  | none => s

/-- Admitted jobs whose history section has not yet taken effect, in admission order. -/
def State.pendingHists (s : State) : List Job :=
  s.jobs.filter fun j => match j.hist with | some u => !u.begun | none => false

/-- The state once every pending history section has taken effect. -/
def State.withHists (s : State) : State := s.pendingHists.foldl (fun t j => t.beginHist j) s

/-- The deadline rank of a unit's tasks and streams: chunk steps run as C1 (R387, R401, R414). -/
def Job.unitRank (j : Job) (no : Nat) : Nat :=
  if j.units.any fun u => u.no == no && u.kind == 2 then j.rank / 4 * 4 + 1 else j.rank

/-- End a job with a STATUS: its work is stopped, an open append fails (R395), its JOB record is written (unless its scoring
already wrote it) and its HISTORY record when it owes one, and its lane and slots are freed. -/
def State.endJob (s : State) (j : Job) (status resource : Nat) (win : Option (Nat × Nat)) : State :=
  let s := (s.beginHist j).stopWork j.id
  let j := (s.job j.id).getD j
  let s := match j.openAppend with
    | some u => s.histFail u
    | none => s
  let s := if j.scored then s else s.jobRecord j status resource win
  let s := if j.owesHistory then s.historyRecord j status else s
  s.dropJob j (j.slots - b2n (!j.scored) - b2n j.owesHistory)

/-- End the jobs whose history section met an uncorrectable index page (R397). -/
def State.endFailedHists (s : State) : State :=
  (s.jobs.filter fun j => j.hist.any (·.failed)).foldl (fun t j => t.endJob j stHistoryError 0 none) s

/-- End the job of a number with a STATUS, when it is admitted. -/
def State.endJobOf (s : State) (j status : Nat) : State :=
  match s.job j with
  | some x => s.endJob x status 0 none
  | none => s

/-! ### Freezing (R423) -/

/-- Freeze a ring with a cause (R482): it fetches nothing more; its admitted jobs run on. -/
def State.freezeRing (s : State) (n cause : Nat) : State :=
  let r := s.ring n
  ((s.putRing n { r with st := .frozen }).put HST_RING_STATUS_FREEZE_CAUSE n cause).inc HMR_SCHED_EVENTS_FREEZES 0 1

/-- Freeze a stream: it keeps its reservations; its job ends with VIOLATION. -/
def State.freezeStream (s : State) (n : Nat) : State :=
  let x := s.stream n
  ((s.putStream n { x with st := .frozen }).inc HMR_SCHED_EVENTS_FREEZES 0 1).endJobOf x.job stViolation

/-- Freeze a kiln task: its engine stops and is released, its slot stays FROZEN; its job ends with VIOLATION. -/
def State.freezeTask (s : State) (k c : Nat) : State :=
  let x := s.ctx k c
  (((s.putKiln k ((s.kiln k).leave c)).putCtx k c { x with st := .frozen, reason := 5, noswitch := false }).inc HMR_SCHED_EVENTS_FREEZES 0 1).endJobOf x.job stViolation

/-- Freeze a peer device (R523, R524). -/
def State.freezePeer (s : State) (d cause : Nat) : State :=
  let s := s.putPeer d { s.peer d with frozen := true }
  let s := ((s.put QUY_FREEZE_LAST_PEER 0 d).put QUY_FREEZE_LAST_CAUSE 0 cause).put QUY_FREEZE_LAST_VALID 0 1
  s.inc HMR_SCHED_EVENTS_FREEZES 0 1

/-- A message of a device is refused as malformed: the sixteenth in a tide freezes the peer (R523). -/
def State.malformedFrom (s : State) (d : Nat) : State :=
  let s := s.putPeer d { s.peer d with malformed := (s.peer d).malformed + 1 }
  if (s.peer d).malformed ≥ 16 then s.freezePeer d 3 else s

/-- A device answers a read whose tag was not issued to it: the sixteenth such answer in a tide freezes the peer (R523). -/
def State.strayFrom (s : State) (d : Nat) : State :=
  let s := s.putPeer d { s.peer d with stray := (s.peer d).stray + 1 }
  if (s.peer d).stray ≥ 16 then s.freezePeer d 4 else s

/-! ### Halts of kiln tasks and streams -/

/-- Halt a kiln task with a reason of Table 04.13: the slot is HALTED and its generation rises (R476); for SCALE_SLIP,
CODEBOOK_NONFINITE and MALFORMED the kiln halt record is written (Table 11.11). The lookup path and the charging of C4 tables
are released. -/
def State.haltTask (s : State) (k c reason : Nat) : State :=
  let x := s.ctx k c
  let x := { x with st := .halted, reason := reason, gen := (x.gen + 1) % 2 ^ 16, noswitch := false }
  let s := ((s.putKiln k ((s.kiln k).leave c)).putCtx k c x).traceJob 4 (s.job x.job) (4 * k + c)
  let token := if reason == 3 then 0 else 4 * k + c + 2 ^ 15 + 2 ^ 16 * x.gen
  let slip := if reason == 1 then
      s.get KLN_SLIP_LAST_EXPECTED k + 2 ^ 8 * s.get KLN_SLIP_LAST_FOUND k + 2 ^ 16 * s.get KLN_SLIP_LAST_SOURCE k +
      2 ^ 31 * s.get KLN_SLIP_LAST_VALID k
    else 0
  if reason > 3 then s
  else s.postEvent (s.eventHeader 0x02 0 (s.job x.job) s.stampTide ++ leBytes 2 k ++
    [BitVec.ofNat 8 c, BitVec.ofNat 8 reason] ++ leBytes 4 token ++ leBytes 4 (x.pc - x.prog) ++ leBytes 2 x.row ++ [0, 0] ++
    leBytes 4 x.group ++ leBytes 4 slip ++ List.replicate 24 0)

/-- The first rank is earlier than the second (R414): serial-number order of the upper 14 bits, then the class bits. -/
def rankBefore (a b : Nat) : Bool :=
  if a / 4 % 16384 == b / 4 % 16384 then decide (a % 4 < b % 4) else decide ((b / 4 + 16384 - a / 4 % 16384) % 16384 < 8192)

/-! ### Retry (R541, R542) -/

/-- Remaining critical path of an admitted job, in tides (R411): one for lookups not complete, and the variant's tides, counted whole
while its units have not all completed: the spec does not say how `DENSE_TIDES` shrinks. DESIGN CHOICE (log 118). -/
def Job.pathLeft (j : Job) : Nat :=
  (if !j.sections.isEmpty && !j.lookupsDone then 1 else 0) + (if j.unitsDone then 0 else j.denseTides)

/-- The remaining critical path of a job fits before its deadline (R411). -/
def State.pathFits (s : State) (j : Job) : Bool := decide (s.tide + j.pathLeft ≤ j.deadline)

/-- The job may be retried: its one retry is unused and its remaining path fits before its deadline. -/
def State.mayRetry (s : State) (j : Job) : Bool := !j.retried && s.pathFits j

/-- Mark the retry of a job as used. -/
def State.useRetry (s : State) (j : Job) : State := s.putJob { j with retried := true }

end Sys2Proof.Machine
end

