-- ==== Sys2Proof/Machine/Wake.lean ====
section
/-! DEFINITION. Waking from Banked (R580, R623, Table 14.13), which every access from the host can cause, and the debug
exception of the aperture (R257, R449). -/

namespace Sys2Proof.Machine

/-- A wake with a cause of Table 14.13 while Banked: the logic runs, the cause is noted, a narrowed session is whole again (R582), the
unlock nonce expires (R574), and the free tide resumes with its number unchanged. After a tamper trip every wake source is ignored
(R563). -/
def State.wakeFor (s : State) (cause : Nat) : State :=
  if s.power.mode == .banked && !s.power.tamperLatch then
    let t := (s.put HMR_POWER_STATUS_WAKE_CAUSE 0 cause).put HMR_POWER_STATUS_QUAYS_WARM 0 0
    let t := t.put CUS_DEBUG_STATUS_NARROWED 0 0
    let t := if s.power.tideResumes then t.put HMR_TIDE_STATUS_RUNNING 0 1 else t
    { t with power := { s.power with mode := .run, tideResumes := false, mirrors := [], warming := true },
             cus := { s.cus with nonce := none } }
  else s

/-- The ports answer: the logic runs, and the second step of start-up has ended (R605). -/
def State.answers (s : State) : Bool := s.power.mode == .run && decide (3 ≤ s.get LHS_START_STEP 0)

/-- An access from the host through BAR0, BAR2 or BAR4: it wakes a Banked device, and reaches nothing in Smoulder or Off. -/
def State.hostDo (s : State) (f : State → State) : State :=
  let t := s.wakeFor 0x02
  if t.answers then f t else t

/-- D2 or D3 is open (Table 14.10). -/
def State.debugDeep (s : State) : Bool := decide (s.get CUS_DEBUG_STATUS_LEVEL 0 ≥ 2)

end Sys2Proof.Machine
end

