-- ==== Sys2Proof/Machine/Operands.lean ====
section
/-! DEFINITION. The structures that commands read from memory, parsed and judged under R13: job descriptors (Table 11.6),
request sections (Table 07.5), history sections (Table 09.3), consignment blocks (Tables 08.3 and 08.4), table and group
records (Tables 07.3, 07.4 and 08.2) and model images (Tables 10.3 to 10.5). -/

namespace Sys2Proof.Machine

/-- Bytes [i, i + n) are zero. -/
def zeroAt (bs : List Byte) (i n : Nat) : Bool := ((bs.drop i).take n).all fun b => b == 0

/-- Byte i as a number. -/
def byteAt (bs : List Byte) (i : Nat) : Nat := (bs.getD i 0).toNat

/-- An 8 B field that holds a 48-bit address aligned to `align`. -/
def addrOk (bs : List Byte) (i align : Nat) : Bool := zeroAt bs (i + 6) 2 && fieldOf bs i 8 % align == 0

/-! ### Job descriptors (Table 11.6, R466) -/

/-- A job descriptor's fields. -/
structure Described where
  kind : Nat
  noIrq : Bool
  locality : Nat
  lane : Nat
  jobRef : Nat
  model : Nat
  candidates : Nat
  deadline : Nat
  sections : Nat
  lookup : Nat
  indices : Nat
  pathLen : Nat
  hist : Nat
  cons : Nat
  deriving DecidableEq, Repr

/-- The fields of a descriptor; `pathLen` is `PREFIX_LEN`. -/
def describe (bs : List Byte) : Described :=
  { kind := byteAt bs 0, noIrq := bit (byteAt bs 1) 0, locality := bits (byteAt bs 1) 1 2, lane := fieldOf bs 2 2,
    jobRef := fieldOf bs 4 4, model := fieldOf bs 8 2, candidates := fieldOf bs 10 2, deadline := fieldOf bs 12 2,
    sections := fieldOf bs 14 2, lookup := fieldOf bs 16 8, indices := fieldOf bs 24 4, pathLen := fieldOf bs 28 2,
    hist := fieldOf bs 32 8, cons := fieldOf bs 40 8 }

/-- Every field but `KIND`, `NO_IRQ`, `JOB_REF` and the consignment address is 0. -/
def Described.bare (d : Described) : Bool :=
  d.locality == 0 && d.lane == 0 && d.model == 0 && d.candidates == 0 && d.deadline == 0 && d.sections == 0 && d.lookup == 0 &&
  d.indices == 0 && d.pathLen == 0 && d.hist == 0

/-- The descriptor meets the field rules of Table 11.6 and R466. -/
def descriptorOk (bs : List Byte) : Bool :=
  let d := describe bs
  let fields := bits (byteAt bs 1) 3 5 == 0 && addrOk bs 16 64 && zeroAt bs 30 2 && addrOk bs 32 64 && addrOk bs 40 64 && zeroAt bs 48 16
  fields && match d.kind with
    | 1 => d.cons == 0 && decide (d.deadline ≥ 1) && (d.sections != 0 || (d.lookup == 0 && d.indices == 0)) &&
        (d.candidates != 0 || (d.hist != 0 && d.pathLen == 0))
    | 2 => d.cons != 0 && d.bare
    | 3 => d.cons == 0 && d.bare
    | _ => false

/-! ### Request sections (Table 07.5, R306) -/

/-- Output element size. -/
def outBytes (fmt : Nat) : Nat := if fmt == 0 then 4 else 2

/-- A section's fields, not yet placed in a round. -/
def sectionOf (bs : List Byte) : Section :=
  { table := fieldOf bs 0 2, mode := bits (byteAt bs 2) 0 2, outFmt := bits (byteAt bs 2) 2 2, idx64 := bit (byteAt bs 2) 4,
    bags := fieldOf bs 4 4, lenAddr := fieldOf bs 8 8, idxAddr := fieldOf bs 16 8, outAddr := fieldOf bs 24 8,
    outPitch := fieldOf bs 32 4, round := 0, attempt := 0, partBags := [], tallied := false, oks := [], held := false,
    resent := false, servers := [] }

/-- The section meets Table 07.5, but for the rules that need its table. -/
def sectionOk (bs : List Byte) : Bool :=
  let x := sectionOf bs
  decide (x.table < 4096) && decide (x.mode < 2) && decide (x.outFmt < 3) && bits (byteAt bs 2) 5 3 == 0 && byteAt bs 3 == 0 &&
  decide (1 ≤ x.bags) && decide (x.bags ≤ 2 ^ 24) && addrOk bs 8 1 && addrOk bs 16 1 && addrOk bs 24 1 && x.outPitch % 64 == 0 &&
  zeroAt bs 36 28

/-! ### History sections (Table 09.3, R380) -/

/-- A history section's fields. -/
def histSectionOf (bs : List Byte) : HistUse :=
  { hist := fieldOf bs 0 3, gen := fieldOf bs 4 4, op := bits (byteAt bs 8) 0 3, after := bit (byteAt bs 8) 3,
    optional := bit (byteAt bs 8) 4, locality := bits (byteAt bs 8) 5 2, n := fieldOf bs 12 4, eventAddr := fieldOf bs 16 8,
    trim := fieldOf bs 24 4 }

/-- The section meets Table 09.3. -/
def histSectionOk (bs : List Byte) : Bool :=
  let u := histSectionOf bs
  byteAt bs 3 == 0 && decide (u.op ≤ 4) && !bit (byteAt bs 8) 7 && zeroAt bs 9 3 && addrOk bs 16 64 && zeroAt bs 28 36 &&
  (if u.op == 1 then decide (1 ≤ u.n ∧ u.n ≤ 65536) else if u.op == 2 then decide (u.n ≤ 65536) else u.n == 0) &&
  (if u.op == 3 then decide (u.trim ≥ 1) else u.trim == 0)

/-! ### Consignment blocks (Tables 08.3 and 08.4) -/

/-- A consignment header. -/
structure ConsHeader where
  id : Nat
  scope : Bool
  actions : Nat
  group : Nat
  prepTides : Nat
  participants : Nat
  notBefore : Nat
  deriving DecidableEq, Repr

def consHeaderOf (bs : List Byte) : ConsHeader :=
  { id := fieldOf bs 0 8, scope := bit (byteAt bs 8) 0, actions := fieldOf bs 10 2, group := fieldOf bs 12 2,
    prepTides := fieldOf bs 14 2, participants := byteAt bs 16, notBefore := fieldOf bs 24 8 }

/-- The header meets Table 08.3. -/
def consHeaderOk (bs : List Byte) : Bool :=
  let h := consHeaderOf bs
  bits (byteAt bs 8) 1 7 == 0 && byteAt bs 9 == 0 && decide (h.actions ≤ 256) && decide (h.group < 1024) &&
  decide (1 ≤ h.prepTides ∧ h.prepTides ≤ 4096) && zeroAt bs 17 7 && zeroAt bs 32 32 &&
  (if h.scope then decide (1 ≤ h.participants ∧ h.participants ≤ 33)
   else decide (1 ≤ h.actions) && h.group == 0 && h.participants == 0)

/-- An action entry, or none where it holds a reserved encoding or a reserved bit. -/
def actionOf (bs : List Byte) : Option Action :=
  let w := leNat (bs.take 16)
  let table := bits w 8 12
  let page (f : Bool → Nat → Nat → Nat → Nat → Action) : Option Action :=
    if bits w 5 3 == 0 && bits w 46 2 == 0 && bits w 112 16 == 0 then
      some (f (bit w 4) table (bits w 20 26) (bits w 48 32 * 65536) (bits w 80 32 * 65536))
    else none
  let pinned (f : Nat → Nat → Nat → Action) : Option Action :=
    if bits w 4 4 == 0 && bits w 24 8 == 0 && bits w 96 32 == 0 && bits w 64 32 != 0 then
      some (f (bits w 8 16) (bits w 32 32) (bits w 64 32))
    else none
  match bits w 0 4 with
  | 1 => page .pageWrite
  | 2 => page .parityDelta
  | 3 => if bits w 4 4 == 0 && bits w 20 44 == 0 && bits w 96 32 == 0 then some (.rootSet table (bits w 64 32 * 65536)) else none
  | 4 => if bits w 4 4 == 0 && bits w 24 8 == 0 then
      some (.rescaleSwap (bits w 8 16) (bits w 32 32 * 16) (bits w 64 16 + 1) (bits w 80 48)) else none
  | 5 => pinned .pin
  | 6 => pinned .unpin
  | _ => none

/-! ### Table directory entries and group records (Tables 07.3, 07.4, 08.2) -/

/-- Bytes of a record's payload: E elements of a row format (R293). -/
def payloadBytes (fmt e : Nat) : Nat := if fmt == 1 then e / 2 else if fmt == 4 then 2 * e else e

/-- The record pitch (R294). -/
def pitchOf (fmt e : Nat) : Nat := roundUp (payloadBytes fmt e + (if fmt ≤ 1 then 4 else 0)) 4

/-- Fields of a directory entry; the group's D is not in it. -/
structure TableEntry where
  gen : Nat
  fmt : Nat
  home : Nat
  paritySlot : Nat
  group : Nat
  dim : Nat
  rows : Nat
  mapRoot : Nat
  mapPages : Nat
  epoch0 : Nat
  deriving DecidableEq, Repr

def tableEntryOf (bs : List Byte) : TableEntry :=
  { gen := fieldOf bs 0 2, fmt := bits (byteAt bs 2) 0 3, home := bits (byteAt bs 2) 3 1, paritySlot := byteAt bs 3,
    group := fieldOf bs 4 2, dim := fieldOf bs 6 2, rows := fieldOf bs 8 8, mapRoot := fieldOf bs 16 8,
    mapPages := fieldOf bs 24 4, epoch0 := fieldOf bs 28 4 }

/-- The entry holds no reserved encoding and no reserved bit (Tables 07.3 and 08.2), given its group's D. -/
def tableEntryOk (bs : List Byte) (d : Nat) : Bool :=
  let e := tableEntryOf bs
  decide (e.fmt ≤ 4) && bits (byteAt bs 2) 4 4 == 0 && decide (e.paritySlot ≤ d) && decide (e.group < 1024) && decide (2 ≤ e.dim) &&
  decide (1 ≤ e.rows ∧ e.rows ≤ 2 ^ 40) && zeroAt bs 22 2 && decide (1 ≤ e.mapPages ∧ e.mapPages ≤ 2 ^ 26) &&
  zeroAt bs 32 16 && bits (byteAt bs 48) 1 7 == 0 && zeroAt bs 49 15

/-- R292 and R294 hold of an entry in a group of D data members. -/
def tableShapeOk (e : TableEntry) (d : Nat) : Bool :=
  let p := payloadBytes e.fmt (e.dim / d)
  e.dim % d == 0 && (e.fmt != 1 || e.dim % (2 * d) == 0) && decide (4 ≤ p ∧ p ≤ 256)

/-- Records in a page (R295). -/
def recordsPerPage (fmt e : Nat) : Nat := 65536 / pitchOf fmt e

/-- A group record's fields: slots 0 to D. -/
def groupOf (bs : List Byte) : Group :=
  let d := byteAt bs 0
  let w := leNat ((bs.drop 8).take 50)
  { held := true, d := d, state := match byteAt bs 1 with | 1 => .degraded | 2 => .lost | _ => .normal, lostSlot := byteAt bs 2,
    master := bits (fieldOf bs 4 2) 0 12, slots := (List.range (d + 1)).map fun i => bits w (12 * i) 12 }

/-- The record holds no reserved encoding and no reserved bit (Table 07.4). -/
def groupOk (bs : List Byte) : Bool :=
  let d := byteAt bs 0
  decide (2 ≤ d ∧ d ≤ 32) && decide (byteAt bs 1 ≤ 2) && (byteAt bs 1 != 1 || decide (byteAt bs 2 ≤ d)) && byteAt bs 3 == 0 &&
  decide (fieldOf bs 4 2 < 4096) && zeroAt bs 6 2 && zeroAt bs 58 6

/-! ### Model images (R406) -/

/-- A model image header (Table 10.3). -/
structure ImageHeader where
  lanes : Nat
  variants : Nat
  locality : Nat
  bytes : Nat
  variantOff : Nat
  unitOff : Nat
  units : Nat
  bindOff : Nat
  binds : Nat
  histOff : Nat
  deriving DecidableEq, Repr

def imageHeaderOf (bs : List Byte) : ImageHeader :=
  { lanes := byteAt bs 1, variants := byteAt bs 2, locality := bits (byteAt bs 3) 0 2, bytes := fieldOf bs 4 4,
    variantOff := fieldOf bs 8 4, unitOff := fieldOf bs 12 4, units := fieldOf bs 16 2, bindOff := fieldOf bs 20 4,
    binds := fieldOf bs 24 4, histOff := fieldOf bs 28 4 }

/-- The header meets Table 10.3: its tables lie inside the image, each aligned to its item. -/
def imageHeaderOk (bs : List Byte) : Bool :=
  let h := imageHeaderOf bs
  byteAt bs 0 == 1 && decide (1 ≤ h.lanes ∧ h.lanes ≤ 64) && decide (1 ≤ h.variants ∧ h.variants ≤ 8) &&
  bits (byteAt bs 3) 2 6 == 0 && decide (65536 ≤ h.bytes) && h.bytes % 65536 == 0 && decide (h.bytes ≤ 2 ^ 30) &&
  h.variantOff % 64 == 0 && decide (h.variantOff + 64 * (h.lanes * h.variants) ≤ h.bytes) &&
  h.unitOff % 32 == 0 && decide (1 ≤ h.units) && decide (h.unitOff + 32 * h.units ≤ h.bytes) && zeroAt bs 18 2 &&
  h.bindOff % 64 == 0 && decide (1 ≤ h.binds ∧ h.binds ≤ 2 ^ 20) && decide (h.bindOff + 64 * h.binds ≤ h.bytes) &&
  h.histOff % 16 == 0 && decide (h.histOff + 16 ≤ h.bytes) && zeroAt bs 32 224

/-- A variant entry (Table 10.4). -/
structure Variant where
  rows : Nat
  firstUnit : Nat
  unitCount : Nat
  denseTides : Nat
  kiln : Nat
  hearth : Nat
  crane : Nat
  hbm : Nat
  quay : Nat
  deriving DecidableEq, Repr

def variantOf (bs : List Byte) : Variant :=
  { rows := fieldOf bs 0 2, firstUnit := fieldOf bs 2 2, unitCount := fieldOf bs 4 2, denseTides := byteAt bs 6,
    kiln := fieldOf bs 16 8, hearth := fieldOf bs 24 8, crane := fieldOf bs 32 8, hbm := fieldOf bs 40 8, quay := fieldOf bs 48 8 }

/-- The entry meets Table 10.4 in an image of so many units. -/
def variantOk (bs : List Byte) (units : Nat) : Bool :=
  let v := variantOf bs
  decide (1 ≤ v.rows) && decide (v.firstUnit + v.unitCount ≤ units) && decide (1 ≤ v.denseTides ∧ v.denseTides ≤ 64) &&
  zeroAt bs 7 9 && zeroAt bs 56 8

/-- A unit entry's fields (Table 10.5), with unit number `no` and no task placed. -/
def unitOf (no : Nat) (bs : List Byte) : UnitRun :=
  { no := no, after := fieldOf bs 8 2, afterLookup := bit (byteAt bs 7) 2, kind := bits (byteAt bs 7) 0 2,
    noswitch := bit (byteAt bs 7) 3, program := fieldOf bs 0 4, stride := fieldOf bs 24 4, mooring := byteAt bs 6,
    binds := fieldOf bs 10 2, firstBind := fieldOf bs 12 4, kilnCost := fieldOf bs 16 4, hearthCost := fieldOf bs 20 4,
    dispatched := false, tasks := List.replicate (fieldOf bs 4 2) .waiting }

/-- The entry meets Table 10.5 in an image of so many units, bindings and bytes. -/
def unitOk (bs : List Byte) (units binds bytes : Nat) : Bool :=
  let u := unitOf 0 bs
  let n := fieldOf bs 4 2
  decide (1 ≤ n ∧ n ≤ 160) && decide (1 ≤ u.mooring ∧ u.mooring ≤ 128) && decide (u.kind ≤ 2) && bits (byteAt bs 7) 4 4 == 0 &&
  (u.after == 0xFFFF || decide (u.after < units)) && decide (u.firstBind + n * u.binds ≤ binds) && u.stride % 32 == 0 &&
  u.program % 32 == 0 && decide (u.program + (n - 1) * u.stride < bytes) && zeroAt bs 28 4

/-- The history geometry of an image (after Table 10.3), and the limits of Table 09.1. -/
structure HistGeometry where
  layers : Nat
  kvBytes : Nat
  outBytes : Nat
  inBytes : Nat
  kiln : Nat
  hearth : Nat
  deriving DecidableEq, Repr

def histGeometryOf (bs : List Byte) : HistGeometry :=
  { layers := byteAt bs 0, kvBytes := fieldOf bs 2 2, outBytes := fieldOf bs 4 2, inBytes := fieldOf bs 6 2,
    kiln := fieldOf bs 8 4, hearth := fieldOf bs 12 4 }

/-- The geometry meets Table 09.1. -/
def histGeometryOk (bs : List Byte) : Bool :=
  let g := histGeometryOf bs
  decide (1 ≤ g.layers ∧ g.layers ≤ 16) && byteAt bs 1 == 0 && decide (128 ≤ g.kvBytes ∧ g.kvBytes ≤ 2048) && g.kvBytes % 128 == 0 &&
  decide (64 ≤ g.outBytes ∧ g.outBytes ≤ 2048) && g.outBytes % 64 == 0 && decide (64 ≤ g.inBytes ∧ g.inBytes ≤ 4096) &&
  g.inBytes % 64 == 0 && decide (g.layers * g.kvBytes + g.outBytes ≤ 4096)

end Sys2Proof.Machine
end

