-- ==== Sys2Proof/Machine/Float.lean ====
section
/-! DEFINITION. Floating point of the arithmetic chapters: exact dyadic values, the stored formats, and rounding to nearest
with ties to even (R99, R104, R130, R131, R174, R296, R318, R321). -/

namespace Sys2Proof.Machine

/-- A floating-point value: NaN, an infinity, or the exact number (−1)^neg × m × 2^e. A zero keeps its sign. -/
inductive FVal where
  | nan
  | inf (neg : Bool)
  | fin (neg : Bool) (m : Nat) (e : Int)
  deriving DecidableEq, Repr

/-- A stored format: exponent bits, fraction bits, and whether the all-ones exponent is kept for infinities and NaNs. E4M3
keeps only its all-ones code as NaN and has no infinity (its largest finite value is 448, R130). -/
structure Fmt where
  eb : Nat
  mb : Nat
  ieee : Bool
  deriving DecidableEq, Repr

def Fmt.fp32 : Fmt := ⟨8, 23, true⟩
def Fmt.fp16 : Fmt := ⟨5, 10, true⟩
def Fmt.bf16 : Fmt := ⟨8, 7, true⟩
def Fmt.e4m3 : Fmt := ⟨4, 3, false⟩
def Fmt.e5m2 : Fmt := ⟨5, 2, true⟩

/-- Exponent bias of a format. -/
def Fmt.bias (f : Fmt) : Int := 2 ^ (f.eb - 1) - 1
/-- Smallest normal exponent: −126 for FP32, −6 for E4M3, −14 for E5M2 (03, "F8 and block exponent alignment"). -/
def Fmt.emin (f : Fmt) : Int := 1 - f.bias
/-- Exponent of the least subnormal: −9 for E4M3 and −16 for E5M2 (R131). -/
def Fmt.qmin (f : Fmt) : Int := f.emin - f.mb
/-- Width of a code in bits. -/
def Fmt.bits (f : Fmt) : Nat := f.eb + f.mb + 1
/-- Bytes of a code. -/
def Fmt.bytes (f : Fmt) : Nat := (f.bits + 7) / 8
/-- The first code magnitude that is not finite. -/
def Fmt.overCode (f : Fmt) : Nat := if f.ieee then (2 ^ f.eb - 1) * 2 ^ f.mb else 2 ^ (f.eb + f.mb) - 1
/-- The largest finite code magnitude. -/
def Fmt.maxCode (f : Fmt) : Nat := f.overCode - 1
/-- The sign bit's weight. -/
def Fmt.signBit (f : Fmt) : Nat := 2 ^ (f.eb + f.mb)

/-- The value of a stored code. Subnormals are kept (R99). -/
def Fmt.decode (f : Fmt) (w : Nat) : FVal :=
  let m := w % 2 ^ f.mb
  let e := w / 2 ^ f.mb % 2 ^ f.eb
  let s := w / f.signBit % 2 == 1
  if f.ieee && e == 2 ^ f.eb - 1 then (if m == 0 then .inf s else .nan)
  else if !f.ieee && e == 2 ^ f.eb - 1 && m == 2 ^ f.mb - 1 then .nan
  else if e == 0 then .fin s m f.qmin
  else .fin s (m + 2 ^ f.mb) (f.qmin + (e : Int) - 1)

/-- `n ÷ 2^k` rounded to the nearest integer, ties to the even integer. -/
def rneShift (n : Int) (k : Nat) : Int :=
  let p : Int := 2 ^ k
  let q := n / p
  let r := n % p
  if 2 * r > p || (2 * r == p && q % 2 == 1) then q + 1 else q

/-- The exact number s × 2^e as the nearest integer, ties to even. -/
def rneInt (s : Int) (e : Int) : Int :=
  if e ≥ 0 then s * 2 ^ e.toNat else rneShift s (-e).toNat

/-- The magnitude code of m × 2^e in format f, rounded to nearest even as if the format had no upper exponent limit: the
code may lie at or beyond `overCode`. -/
def Fmt.roundMag (f : Fmt) (m : Nat) (e : Int) : Nat :=
  if m == 0 then 0
  else
    let q := max ((Nat.log2 m : Int) + e - f.mb) f.qmin
    let n := rneInt m (e - q)
    (q - f.qmin).toNat * 2 ^ f.mb + n.toNat

/-- A NaN code of FP32 with free sign and payload (log 3). -/
def nan32 (a b c : Nat) : Nat :=
  let x := Config.nanBits a b c
  x % 2 * 2 ^ 31 + 0x7F800000 + (1 + x / 2 % (2 ^ 23 - 1))

/-- A finite or infinite exact value as FP32 bits, rounded to nearest even (R99); a magnitude beyond the largest finite
value becomes an infinity, as IEEE 754 gives. `a b c` are the operands, for a NaN's free bits. -/
def toF32 (a b c : Nat) (v : FVal) : Nat :=
  match v with
  | .nan => nan32 a b c
  | .inf s => (if s then 2 ^ 31 else 0) + 0x7F800000
  | .fin s m e => (if s then 2 ^ 31 else 0) + min (Fmt.fp32.roundMag m e) 0x7F800000

/-- The value of FP32 bits. -/
def f32 (w : Nat) : FVal := Fmt.fp32.decode w

/-- Signed integer magnitude of a finite value. -/
def signed (neg : Bool) (m : Nat) : Int := if neg then -(m : Int) else m

/-- The value s × 2^e with the sign of s; `zneg` is the sign an exact zero takes. -/
def ofSigned (s : Int) (e : Int) (zneg : Bool) : FVal :=
  if s == 0 then .fin zneg 0 e else .fin (s < 0) s.natAbs e

def FVal.isNaN : FVal → Bool
  | .nan => true
  | _ => false

def FVal.isFinite : FVal → Bool
  | .fin _ _ _ => true
  | _ => false

def FVal.neg? : FVal → Bool
  | .nan => false
  | .inf s => s
  | .fin s _ _ => s

/-- Exact sum. An exact zero sum of opposite signs is +0 (round to nearest). -/
def FVal.add : FVal → FVal → FVal
  | .nan, _ => .nan
  | _, .nan => .nan
  | .inf s, .inf t => if s == t then .inf s else .nan
  | .inf s, .fin _ _ _ => .inf s
  | .fin _ _ _, .inf t => .inf t
  | .fin s m e, .fin t n g =>
    let q := min e g
    let x := signed s m * 2 ^ (e - q).toNat + signed t n * 2 ^ (g - q).toNat
    ofSigned x q (s && t)

/-- Exact product. -/
def FVal.mul : FVal → FVal → FVal
  | .nan, _ => .nan
  | _, .nan => .nan
  | .inf s, .inf t => .inf (s != t)
  | .inf s, .fin t n _ => if n == 0 then .nan else .inf (s != t)
  | .fin s m _, .inf t => if m == 0 then .nan else .inf (s != t)
  | .fin s m e, .fin t n g => .fin (s != t) (m * n) (e + g)

/-- Quotient with enough bits and a sticky bit for one correct rounding to any format of this file. -/
def FVal.div : FVal → FVal → FVal
  | .nan, _ => .nan
  | _, .nan => .nan
  | .inf _, .inf _ => .nan
  | .inf s, .fin t _ _ => .inf (s != t)
  | .fin s _ _, .inf t => .fin (s != t) 0 0
  | .fin s m e, .fin t n g =>
    if n == 0 then (if m == 0 then .nan else .inf (s != t))
    else
      let k := Nat.log2 n + 40
      let x := m * 2 ^ k
      .fin (s != t) (2 * (x / n) + (if x % n == 0 then 0 else 1)) (e - g - k - 1)

/-- add_rne32 -/
def add32 (a b : Nat) : Nat := toF32 a b 0 ((f32 a).add (f32 b))
/-- mul_rne32 -/
def mul32 (a b : Nat) : Nat := toF32 a b 0 ((f32 a).mul (f32 b))
/-- fma_rne32: a × b + c with one rounding. -/
def fma32 (a b c : Nat) : Nat := toF32 a b c (((f32 a).mul (f32 b)).add (f32 c))
/-- div_rne32 -/
def div32 (a b : Nat) : Nat := toF32 a b 0 ((f32 a).div (f32 b))
/-- ldexp_rne32: a × 2^e with one rounding. -/
def ldexp32 (a : Nat) (e : Int) : Nat :=
  toF32 a e.toNat (-e).toNat (match f32 a with | .fin s m g => .fin s m (g + e) | v => v)
/-- An integer as FP32, rounded to nearest even; exact below 2^24 (R122, R320). -/
def int32f (x : Int) : Nat := toF32 0 0 0 (ofSigned x 0 false)
/-- A code of another format widened to FP32 exactly (R99). -/
def widen (f : Fmt) (w : Nat) : Nat := toF32 w 0 0 (f.decode w)

/-- Whether value a is greater than value b; false when either is NaN. -/
def FVal.gt : FVal → FVal → Bool
  | .nan, _ => false
  | _, .nan => false
  | .inf s, .inf t => !s && t
  | .inf s, .fin _ _ _ => !s
  | .fin _ _ _, .inf t => t
  | .fin s m e, .fin t n g =>
    let q := min e g
    decide (signed s m * 2 ^ (e - q).toNat > signed t n * 2 ^ (g - q).toNat)

/-- A value written in an F8 or BF16 format under R130 and R131: rounded to nearest even, saturated at the largest finite
value, a NaN written as +0 (R132, R175). The Bool says that the result was saturated or a NaN. -/
def Fmt.saturate (f : Fmt) (v : FVal) : Nat × Bool :=
  match v with
  | .nan => (0, true)
  | .inf s => ((if s then f.signBit else 0) + f.maxCode, true)
  | .fin s m e =>
    let c := f.roundMag m e
    ((if s then f.signBit else 0) + min c f.maxCode, decide (c > f.maxCode))

/-- A value rounded to a 16-bit output format under R321: saturated at the largest finite value, a NaN written as the
canonical quiet NaN given. The two Bools say saturated, and NaN. -/
def Fmt.output16 (f : Fmt) (canon : Nat) (v : FVal) : Nat × Bool × Bool :=
  match v with
  | .nan => (canon, false, true)
  | _ => let r := f.saturate v; (r.1, r.2, false)

end Sys2Proof.Machine
end

