-- ==== Sys2Proof/Machine/Exact.lean ====
section
/-! DEFINITION. The functions that the output stage tabulates (Table 03.6) and the hearth computes (R176), in fixed point far finer than
FP32: e^x, Φ(x), GELU and SiLU, and values kept near an exact one. -/

namespace Sys2Proof.Machine

/-- x × 2^e rounded towards minus infinity. -/
def floorInt (x : Int) (e : Int) : Int := if e ≥ 0 then x * 2 ^ e.toNat else x / 2 ^ (-e).toNat

/-- The unit of the fixed point in which the functions are formed. -/
def fx : Int := 2 ^ 512

/-- Product in fixed point. -/
def fxMul (a b : Int) : Int := a * b / fx

/-- The exponential series of a small r, k terms from term i on (Horner). -/
def fxSeries (r : Int) : Nat → Nat → Int
  | 0, _ => fx
  | k + 1, i => fx + fxMul r (fxSeries r k (i + 1)) / i

/-- k squarings. -/
def fxSquare : Nat → Int → Int
  | 0, x => x
  | k + 1, x => fxSquare k (fxMul x x)

/-- e^x, for x between −200 and 200; beyond, the value at the bound, which lies outside the range of FP32. -/
def fxExp (x : Int) : Int := fxSquare 20 (fxSeries (max (-200 * fx) (min (200 * fx) x) / 2 ^ 20) 40 1)

/-- 1 + x²/i(1 + x²/(i + 2)(…)), k terms. -/
def fxOdd (xx : Int) : Nat → Nat → Int
  | 0, _ => fx
  | k + 1, i => fx + fxMul xx (fxOdd xx k (i + 2)) / i

/-- √(2π) in fixed point. -/
def fxRoot2Pi : Int := 
  0x281b263fec4e0b2caf9483f5ce459dc5f19f3ea6416000b50dc2f412ddeeb948b5068337b65698726847d560b8818fb98307f0f37d42a17c1c2b86baec9ffa598

/-- Φ(x), for x between −16 and 16; 0 or 1 beyond. -/
def fxPhi (x : Int) : Int :=
  if x < -16 * fx then 0
  else if x > 16 * fx then fx
  else
    let xx := fxMul x x
    let dens := fxExp (-(xx / 2)) * fx / fxRoot2Pi
    fx / 2 + fxMul dens (fxMul x (fxOdd xx 600 3))

/-- An FP32 value in fixed point; exact for every magnitude at or above 2^-363. -/
def toFx (w : Nat) : Int :=
  match f32 w with
  | .fin s m e => floorInt (signed s m) (e + 512)
  | _ => 0

/-- A fixed-point value rounded to FP32. -/
def ofFx (v : Int) : Nat := toF32 0 0 0 (ofSigned v (-512) false)

/-- GELU(x) = x × Φ(x) (Table 03.8). -/
def exactGelu (x : Int) : Int := fxMul x (fxPhi x)

/-- SiLU(x) = x ÷ (1 + e^(−x)) (Table 03.8). -/
def exactSilu (x : Int) : Int := x * fx / (fx + fxExp (-x))

/-- One unit in the last place of FP32 at a fixed-point value. -/
def ulpFx (v : Int) : Int := 2 ^ (max (Nat.log2 v.natAbs) 386 - 23)

/-- A free FP32 value where it lies within `tol` of the exact value and FP32 holds that value's magnitude, else the exact value
rounded. -/
def nearFx (exact tol : Int) (free : Nat) : Nat :=
  if (f32 free).isFinite && (f32 (ofFx exact)).isFinite && decide ((toFx free - exact).natAbs ≤ tol.natAbs) then free else ofFx exact

/-- The exact EXP, GELU or SILU of a finite value, in fixed point (R176). -/
def exactFn (op w : Nat) : Int :=
  let x := toFx w
  if op == 2 then fxExp x else if op == 6 then exactGelu x else exactSilu x

end Sys2Proof.Machine
end

