-- ==== Sys2Proof/Machine/Lut.lean ====
section
/-! DEFINITION. The look-up-table arithmetic of a kiln (02): weight formats, weight tiles in memory, the stored tables, the
integer group product P and group sum S. Everything here is exact (R83). -/

namespace Sys2Proof.Machine

/-- Sum of `f i` for i below n. -/
def sumTo (n : Nat) (f : Nat → Int) : Int := ((List.range n).map f).sum

/-- Weight formats (Tables 02.1 and 02.2). -/
inductive WFmt where
  | w (planes : Nat)
  | t3
  | c4Int8
  | c4E4M3
  | c4E5M2
  deriving DecidableEq, Repr

/-- `WFMT` (Table 02.1); 0x8 to 0xF are reserved. -/
def WFmt.ofCode : Nat → Option WFmt
  | 0 => some (.w 1)
  | 1 => some (.w 2)
  | 2 => some (.w 3)
  | 3 => some (.w 4)
  | 4 => some .t3
  | 5 => some .c4Int8
  | 6 => some .c4E4M3
  | 7 => some .c4E5M2
  | _ => none

def WFmt.isC4 : WFmt → Bool
  | .c4Int8 | .c4E4M3 | .c4E5M2 => true
  | _ => false

/-- The FP8 format of an FP8 codebook. -/
def WFmt.codebookFmt : WFmt → Option Fmt
  | .c4E4M3 => some .e4m3
  | .c4E5M2 => some .e5m2
  | _ => none

/-- Lookup group g (R50). -/
def WFmt.lookupGroup : WFmt → Nat
  | .w _ => 4
  | .t3 => 3
  | _ => 1

/-- Columns of a weight tile: 64, or 256 for C4 (R63). -/
def WFmt.stripCols (f : WFmt) : Nat := if f.isC4 then 256 else 64

/-- `GSIZE` (Table 02.1). -/
def groupSize : Nat → Option Nat
  | 0 => some 32
  | 1 => some 64
  | 2 => some 128
  | _ => none

/-- 16-bit words of one T3 column: three triples a word (R65). -/
def t3Words (G : Nat) : Nat := ((G + 2) / 3 + 2) / 3

/-- Bytes of one weight tile (Table 02.4). -/
def WFmt.tileBytes (f : WFmt) (G : Nat) : Nat :=
  match f with
  | .w b => b * 64 * (G / 8)
  | .t3 => 64 * (2 * t3Words G)
  | _ => 256 * (G / 2)

/-- Bytes of one weight scale block (Table 03.3). -/
def WFmt.scaleBytes (f : WFmt) : Nat := if f.isC4 then 2048 else 512

/-- The bit of plane j at position i of the group for column n of a W tile (R64); `rd` reads a byte of the tile. -/
def wBit (rd : Nat → Nat) (G n j i : Nat) : Bool :=
  (rd ((j * 64 + n) * (G / 8) + i / 8)).testBit (i % 8)

/-- The level of a W code whose bit in plane j is `u j` (R55). -/
def wLevel (b : Nat) (u : Nat → Bool) : Int :=
  sumTo b fun j => 2 ^ j * (if u j then 1 else -1)

/-- T[p] of four charged activations (R69). -/
def wTable (a : Nat → Int) (p : Nat) : Int :=
  sumTo 4 fun i => (if p.testBit i then 1 else -1) * a i

/-- Stored entry E[t] = T[0b1000 + t] (R70). -/
def wEntry (a : Nat → Int) (t : Nat) : Int := wTable a (8 + t)

/-- The eight stored entries of a W table (R70). -/
def wStored (a : Nat → Int) : List Int := (List.range 8).map (wEntry a)

/-- A lookup for plane pattern p reads only stored entries (R72). -/
def wLookup (E : List Int) (p : Nat) : Int :=
  if p.testBit 3 then E.getD (p % 8) 0 else -E.getD ((15 - p) % 8) 0

/-- The 4-bit pattern of four plane bits. -/
def pattern4 (u : Nat → Bool) : Nat :=
  (if u 0 then 1 else 0) + (if u 1 then 2 else 0) + (if u 2 then 4 else 0) + (if u 3 then 8 else 0)

/-- One lookup group's contribution for one column: the planes combined (R72). -/
def wGroup (b : Nat) (E : List Int) (u : Nat → Nat → Bool) : Int :=
  sumTo b fun j => 2 ^ j * wLookup E (pattern4 (u j))

/-- The tables of a W reduction group: lookup groups of four positions (R50, R70). -/
def wTables (G : Nat) (a : Nat → Int) : List (List Int) := (List.range (G / 4)).map fun l => wStored fun i => a (4 * l + i)

/-- Group product P of a W-format column from its tables; `u j i` is the plane-j bit of position i. -/
def wProduct (b : Nat) (Es : List (List Int)) (u : Nat → Nat → Bool) : Int :=
  (Es.zipIdx.map fun e => wGroup b e.1 fun j i => u j (4 * e.2 + i)).sum

/-- Group sum S from the all-ones entries (R71). -/
def wSum (Es : List (List Int)) : Int := (Es.map fun E => E.getD 7 0).sum

/-- The 5-bit code of triple u of column n of a T3 tile (R65). -/
def t3Code (rd : Nat → Nat) (G n u : Nat) : Nat :=
  let o := (n * t3Words G + u / 3) * 2
  (rd o + 256 * rd (o + 1)) / 2 ^ (5 * (u % 3)) % 32

/-- The three weights of T3 code c (R56). -/
def t3Weight (c i : Nat) : Int := ((c / 3 ^ i % 3 : Nat) : Int) - 1

/-- T[c] of a T3 lookup group (R73). -/
def t3Table (a : Nat → Int) (c : Nat) : Int := sumTo 3 fun i => t3Weight c i * a i

/-- Stored entry E[t] = T[13 + t] (R74). -/
def t3Entry (a : Nat → Int) (t : Nat) : Int := t3Table a (13 + t)

/-- The fourteen stored entries of a T3 table (R74). -/
def t3Stored (a : Nat → Int) : List Int := (List.range 14).map (t3Entry a)

/-- A T3 lookup (R75); a reserved code is looked up as code 13 (R58). -/
def t3Lookup (E : List Int) (c : Nat) : Int :=
  let c' := if c ≥ 27 then 13 else c
  if c' ≥ 13 then E.getD (c' - 13) 0 else -E.getD (13 - c') 0

/-- The activation at a place of a T3 lookup group: places beyond the reduction group are 0 (R51). -/
def t3Act (G : Nat) (a : Nat → Int) (i : Nat) : Int := if i < G then a i else 0

/-- The tables of a T3 reduction group: lookup groups of three positions (R50, R51, R74). -/
def t3Tables (G : Nat) (a : Nat → Int) : List (List Int) :=
  (List.range ((G + 2) / 3)).map fun l => t3Stored fun i => t3Act G a (3 * l + i)

/-- Group product P of a T3 column from its tables; `code l` is the code of lookup group l. -/
def t3Product (Es : List (List Int)) (code : Nat → Nat) : Int := (Es.zipIdx.map fun e => t3Lookup e.1 (code e.2)).sum

/-- Group sum S of T3 from entries E[13] (R75). -/
def t3Sum (Es : List (List Int)) : Int := (Es.map fun E => E.getD 13 0).sum

/-- Reserved T3 codes among the lookup groups of one column (R58). -/
def t3Reserved (G : Nat) (code : Nat → Nat) : Nat :=
  ((List.range ((G + 2) / 3)).filter fun l => decide (code l ≥ 27)).length

/-- The codebook index at position i of column n of a C4 tile (R66). -/
def c4Index (rd : Nat → Nat) (G n i : Nat) : Nat :=
  rd (n * (G / 2) + i / 2) / 16 ^ (i % 2) % 16

/-- The largest magnitude among the first n values. -/
def maxAbs (n : Nat) (f : Nat → Int) : Nat := ((List.range n).map fun i => (f i).natAbs).foldl max 0

/-- The C4 shift s: the smallest for which max|a| × max|c| ≤ 2,047 × 2^s (R76). The bound of 6 tries is never reached for
legal inputs, where s is at most 5. -/
def c4Shift (maxA maxC : Nat) : Nat :=
  ((List.range 6).find? fun s => decide (maxA * maxC ≤ 2047 * 2 ^ s)).getD 6

/-- C4 table entry E[v] = a × c_v ÷ 2^s, rounded to nearest even (R77). -/
def c4Entry (a c : Int) (s : Nat) : Int := rneShift (a * c) s

/-- The tables of a C4 reduction group for one column block: sixteen entries for each activation (R77). -/
def c4Tables (G : Nat) (a : Nat → Int) (book : List Int) (s : Nat) : List (List Int) :=
  (List.range G).map fun i => (List.range 16).map fun v => c4Entry (a i) (book.getD v 0) s

/-- Group product P of a C4 column from its tables; `idx i` is the codebook index at position i. -/
def c4Product (Es : List (List Int)) (idx : Nat → Nat) : Int := (Es.zipIdx.map fun e => e.1.getD (idx e.2) 0).sum

/-- Group sum S where the format stores no all-ones entry (R81: S is formed for every group). -/
def plainSum (G : Nat) (a : Nat → Int) : Int := sumTo G a

/-- Tables of one reduction group (R50), and the most that a bank holds (R84). -/
def WFmt.groupTables (f : WFmt) (G : Nat) : Nat :=
  match f with
  | .w _ => G / 4
  | .t3 => (G + 2) / 3
  | _ => G

def WFmt.bankTables (f : WFmt) : Nat := if f.isC4 then 512 else 1024

end Sys2Proof.Machine
end

