-- ==== Sys2Proof/Machine/Quant.lean ====
section
/-! DEFINITION. Quantisation (03): the charger's entry of activations and FP8 codebooks, the group rescale, and the output
stage with its clip rules. -/

namespace Sys2Proof.Machine

/-- `AFMT` (Table 03.1). -/
inductive AFmt where
  | s8
  | u8
  | f8 (f : Fmt)
  deriving DecidableEq, Repr

def AFmt.ofCode : Nat → AFmt
  | 0 => .s8
  | 1 => .u8
  | 2 => .f8 .e4m3
  | _ => .f8 .e5m2

/-- `OFMT` (Table 03.1); 0x5 to 0x7 are reserved. -/
inductive OFmt where
  | s8
  | u8
  | f8 (f : Fmt)
  | fp32
  deriving DecidableEq, Repr

def OFmt.ofCode : Nat → Option OFmt
  | 0 => some .s8
  | 1 => some .u8
  | 2 => some (.f8 .e4m3)
  | 3 => some (.f8 .e5m2)
  | 4 => some .fp32
  | _ => none

/-- Bytes of one output (R154). -/
def OFmt.bytes : OFmt → Nat
  | .fp32 => 4
  | _ => 1

/-- A byte read as two's complement. -/
def s8 (x : Nat) : Int := if x < 128 then x else (x : Int) - 256

/-- One A8 activation charged: x − z, both signed or both unsigned (R100). -/
def chargeA8 (f : AFmt) (x z : Nat) : Int :=
  match f with
  | .s8 => s8 x - s8 z
  | _ => (x : Int) - z

/-- Exponent of a finite FP8 value for alignment: zero and subnormals take the smallest normal exponent (03, "F8 and block
exponent alignment"). -/
def alignExp (f : Fmt) (w : Nat) : Int :=
  match f.decode w with
  | .fin _ _ e => e + f.mb
  | _ => f.emin

/-- The largest exponent among the finite values of the first n codes, never below e_min (R103, R107). -/
def maxExp (f : Fmt) (n : Nat) (x : Nat → Nat) : Int :=
  ((List.range n).map fun i => alignExp f (x i)).foldl max f.emin

/-- One FP8 code as fixed point with unit 2^xa (R103, R106, R107, R108). -/
def alignF8 (f : Fmt) (xa : Int) (w : Nat) : Int :=
  match f.decode w with
  | .nan => 0
  | .inf s => if s then -255 else 255
  | .fin s m e => rneInt (signed s m) (e - xa)

/-- What the charger makes of one row's reduction group: the charged activations, the group exponent X_a, and what it
counted. -/
structure Charged where
  a : List Int
  xa : Int
  sats : Nat
  nans : Nat
  deriving DecidableEq, Repr

/-- Charging one reduction group: `n` real positions of G, codes `x`, zero point z. Positions n to G − 1 charge as 0 (R49). -/
def charge (f : AFmt) (G n : Nat) (x : Nat → Nat) (z : Nat) : Charged :=
  match f with
  | .f8 g =>
    let xa := maxExp g n x - 7
    { a := (List.range G).map fun i => if i < n then alignF8 g xa (x i) else 0
      xa := xa
      sats := ((List.range n).filter fun i => match g.decode (x i) with | .inf _ => true | _ => false).length
      nans := ((List.range n).filter fun i => (g.decode (x i)).isNaN).length }
  | f =>
    { a := (List.range G).map fun i => if i < n then chargeA8 f (x i) z else 0
      xa := 0, sats := 0, nans := 0 }

/-- A codebook as integers with its exponent X_cb (R60, R61); none when an FP8 entry is a NaN or an infinity (R62). -/
def codebook (w : WFmt) (x : Nat → Nat) : Option (List Int × Int) :=
  match w.codebookFmt with
  | none => some ((List.range 16).map fun i => s8 (x i), 0)
  | some f =>
    if (List.range 16).all fun i => (f.decode (x i)).isFinite then
      let xcb := maxExp f 16 x - 7
      some ((List.range 16).map fun i => alignF8 f xcb (x i), xcb)
    else none

/-- The group rescaler (R121): one group's P and S added to the accumulator. `beta` is none when `BETA` is 0. -/
def groupRescale (sw sa : Nat) (e : Int) (beta : Option Nat) (p s : Int) (acc : Nat) : Nat :=
  let c := ldexp32 (mul32 sw sa) e
  let u := match beta with
    | some b => fma32 b (int32f s) (int32f p)
    | none => int32f p
  fma32 u c acc

/-- A rescale entry (03, "Rescale entry — 16 B"), with `ACT` none when its encoding or a reserved field is not as laid down
(R127). -/
structure RescaleEntry where
  scale : Nat
  bias : Nat
  clipLo : Nat
  clipHi : Nat
  zp : Nat
  act : Nat
  reserved : Bool
  deriving DecidableEq, Repr

/-- The 128 bits of a rescale entry. -/
def RescaleEntry.ofBits (w : Nat) : RescaleEntry :=
  let act := w / 2 ^ 104 % 8
  let bad := decide (act ≥ 5) || decide (w / 2 ^ 107 % 2 ^ 21 ≠ 0)
  { scale := w % 2 ^ 32, bias := w / 2 ^ 32 % 2 ^ 32, clipLo := w / 2 ^ 64 % 2 ^ 16, clipHi := w / 2 ^ 80 % 2 ^ 16,
    zp := w / 2 ^ 96 % 256, act := if bad then 0 else act, reserved := bad }

/-- Start x_i of a segment of a table function, in fixed point: −16 + i ÷ 16 (Table 03.6). -/
def segStart (i : Nat) : Int := ((i : Int) - 256) * (fx / 16)

/-- Constant v_i: the function's value at x_i as an FP32 constant (Table 03.6). Its rounding is not stated: a free value within one unit
in the last place, where the implementation's constant lies there. DESIGN CHOICE (log 4). -/
def tableV (fn : Int → Int) (free : Nat → Nat) (i : Nat) : Nat := nearFx (fn (segStart i)) (ulpFx (fn (segStart i))) (free i % 2 ^ 32)

/-- Constant d_i: the slope from x_i to the next segment's start as an FP32 constant (Table 03.6), within 2^−14, which Table 03.8's bounds
leave room for. DESIGN CHOICE (log 4). -/
def tableD (fn : Int → Int) (free : Nat → Nat) (i : Nat) : Nat :=
  nearFx (16 * (fn (segStart (i + 1)) - fn (segStart i))) (fx / 2 ^ 14) (free i % 2 ^ 32)

/-- A table function of the output stage: interpolated on [−16, +16), h at and above 16, +0 below −16 (Table 03.6). The three
operations are FP32 operations of R99, in the order written. -/
def tableAct (v d : Nat → Nat) (h : Nat) : Nat :=
  match f32 h with
  | .nan => h
  | .inf s => if s then 0 else h
  | .fin s m e =>
    let seg := floorInt (signed s m) (e + 4) + 256
    if seg ≥ 512 then h
    else if seg < 0 then 0
    else
      let i := seg.toNat
      let xi := toF32 0 0 0 (ofSigned (seg - 256) (-4) false)
      add32 (v i) (mul32 (add32 h (xi ^^^ 2 ^ 31)) (d i))

/-- The clamp selector: max with `CLIP_LO` first, then min with `CLIP_HI`; a step whose bound is NaN is skipped
(Table 03.6). Where a value and a bound are zeros of different sign, which the spec does not order, the value before the step
stays. DESIGN CHOICE (log 107). -/
def clampAct (lo hi h : Nat) : Nat :=
  let l := widen .fp16 lo
  let u := widen .fp16 hi
  let x := if !(f32 l).isNaN && (f32 l).gt (f32 h) then l else h
  if !(f32 u).isNaN && (f32 x).gt (f32 u) then u else x

/-- f = act(h) (Table 03.6). -/
def activation (r : RescaleEntry) (h : Nat) : Nat :=
  if (f32 h).isNaN then h
  else match r.act with
    | 1 => if (f32 h).gt (.fin false 0 0) then h else 0
    | 2 => tableAct (tableV exactGelu Config.geluV) (tableD exactGelu Config.geluD) h
    | 3 => tableAct (tableV exactSilu Config.siluV) (tableD exactSilu Config.siluD) h
    | 4 => clampAct r.clipLo r.clipHi h
    | _ => h

/-- y of the output stage (R128). -/
def outputReal (r : RescaleEntry) (acc : Nat) : Nat := mul32 (activation r (add32 acc r.bias)) r.scale

/-- One quantised output: its code, whether it counts as a clip, and whether y was a NaN. -/
structure Quantised where
  code : Nat
  clip : Bool
  nan : Bool
  deriving DecidableEq, Repr

/-- An integer clamped to [lo, hi], and whether it moved. -/
def clampInt (lo hi x : Int) : Int × Bool :=
  if x < lo then (lo, true) else if x > hi then (hi, true) else (x, false)

/-- A8 output (R129, R132): y + ZP formed exactly, rounded to nearest even, clipped to the code range. -/
def quantA8 (isSigned : Bool) (zp : Nat) (y : Nat) : Quantised :=
  let z : Int := if isSigned then s8 zp else zp
  let lo : Int := if isSigned then -128 else 0
  let hi : Int := if isSigned then 127 else 255
  let enc : Int → Nat := fun c => (c % 256).toNat
  match f32 y with
  | .nan => ⟨zp % 256, true, true⟩
  | .inf s => ⟨enc (if s then lo else hi), true, false⟩
  | .fin s m e =>
    let q := min e 0
    let r := clampInt lo hi (rneInt (signed s m * 2 ^ (e - q).toNat + z * 2 ^ (-q).toNat) q)
    ⟨enc r.1, r.2, false⟩

/-- Quantisation of y per `OFMT` (R129 to R133). -/
def quantise (o : OFmt) (zp : Nat) (y : Nat) : Quantised :=
  match o with
  | .s8 => quantA8 true zp y
  | .u8 => quantA8 false zp y
  | .f8 f => let r := f.saturate (f32 y); ⟨r.1, r.2, (f32 y).isNaN⟩
  | .fp32 => ⟨y, !(f32 y).isFinite, (f32 y).isNaN⟩

end Sys2Proof.Machine
end

