-- ==== Sys2Proof/Machine/Crane.lean ====
section
/-! DEFINITION. Cranes as members (07): where a table's slices and records lie, the window, record reads with the hot-row
cache, rebuilding from parity, pooling and the answers. -/

namespace Sys2Proof.Machine

/-! ### Tables, slots and records -/

/-- This device's number. -/
def State.me (s : State) : Nat := s.get QUY_POD_CFG_DEVICE_ID 0

/-- Send a message to a device on VC1. -/
def State.tell (s : State) (dst : Nat) (m : Net) : State := s.send (.net dst 1 m)

/-- The crane that serves a table: crane t mod C of its home die (R305), or the next in service there (R537). -/
def State.craneFor (s : State) (t : Nat) : Nat :=
  let cp := s.get HST_SIZE_COMPUTE_CRANES_PORT 0
  let cs := s.get HST_SIZE_COMPUTE_CRANES_STBD 0
  let (base, c) := if (s.table t).home == 0 then (0, cp) else (cp, cs)
  match ((List.range c).map fun i => base + (t + i) % max 1 c).find? fun k => !(s.crane k).fenced with
  | some k => k
  | none => base

/-- Elements per slice of a table (R292). -/
def State.elems (s : State) (t : Nat) : Nat := (s.table t).dim / max 1 (s.group (s.table t).group).d

/-- The record pitch of a table (R294). -/
def State.pitch (s : State) (t : Nat) : Nat := pitchOf (s.table t).fmt (s.elems t)

/-- The data slice that a slot holds of a table (R300); D for the parity slot. -/
def sliceOf (d parity slot : Nat) : Nat := (slot + d - parity) % (d + 1)

/-- The device at a slot of a table's group. -/
def State.slotDevice (s : State) (t slot : Nat) : Nat := (s.group (s.table t).group).slots.getD slot s.me

/-- This device's slot in a group. -/
def State.mySlot (s : State) (g : Nat) : Option Nat :=
  let i := (s.group g).slots.findIdx fun x => x == s.me
  if i < (s.group g).slots.length then some i else none

/-- How this device serves a table (R330, R334, R546, R648): as a data member, as the parity holder that rebuilds the lost slot's
slice, or not at all, which holds of a slot of its own that is lost. DEDUCED (log 38). -/
inductive Serving where
  | data | rebuilt | no
  deriving DecidableEq, Repr

def State.serving (s : State) (t : Nat) : Serving :=
  let tb := s.table t
  let g := s.group tb.group
  match s.mySlot tb.group with
  | none => .no
  | some k =>
    if s.pod.muted.contains tb.group || (g.state == .degraded && g.lostSlot == k) then .no
    else if k != tb.paritySlot then .data
    else if g.state == .degraded && g.lostSlot != tb.paritySlot then .rebuilt
    else .no

/-- Data slots of a table's group. -/
def dataSlots (g : Group) (parity : Nat) : List Nat := (List.range (g.d + 1)).filter fun i => i != parity

/-- The slot that serves a data slot's parts: itself, or the parity slot in its place (R330). -/
def serverSlot (g : Group) (parity k : Nat) : Nat := if g.state == .degraded && k == g.lostSlot then parity else k

/-- Slots that serve a table's parts (R312, R330): every data slot, the parity slot standing in for a lost one. -/
def servedSlots (g : Group) (parity : Nat) : List Nat := (dataSlots g parity).map fun k => serverSlot g parity k

/-- The data slot whose parts a slot's messages concern: the lost one's, when they come from the parity holder (R333). -/
def dataSlot (g : Group) (parity slot : Nat) : Nat := if slot == parity then g.lostSlot else slot

/-- The epoch is live on this device (R341). -/
def Table.holds (t : Table) (e : Nat) : Bool := t.live.any fun l => l.epoch == e

/-- A page map entry's fields (Table 08.1). -/
structure MapEntry where
  valid : Bool
  prevValid : Bool
  prevMapped : Bool
  cur : Nat
  prev : Nat
  change : Nat
  deriving DecidableEq, Repr

def mapEntryOf (w : Nat) : MapEntry :=
  ⟨bit w 0, bit w 1, bit w 2, bits w 16 32 * 65536, bits w 48 32 * 65536, bits w 80 32⟩

/-- The 16 bytes of a map entry. -/
def MapEntry.bytes (e : MapEntry) : List Byte :=
  leBytes 16 (b2n e.valid + 2 * b2n e.prevValid + 4 * b2n e.prevMapped + e.cur / 65536 * 2 ^ 16 + e.prev / 65536 * 2 ^ 48 +
    e.change % 2 ^ 32 * 2 ^ 80)

/-- The page that an entry gives epoch e, none for unmapped (R341). -/
def MapEntry.page (m : MapEntry) (e : Nat) : Option Nat :=
  if e ≥ m.change then (if m.valid then some m.cur else none)
  else if m.prevValid && m.prevMapped then some m.prev else none

/-- The map root that epoch e reads through (R344). -/
def Table.root (t : Table) (e : Nat) : Option Nat := if e ≥ t.rootChange then some t.rootCur else t.rootPrev

/-- Address of the record of a row as epoch e sees it: none for unmapped (R295, R341, R342), or the failed read of the map. -/
def State.recordAddr (s : State) (t e row : Nat) : Except AccErr (Option Nat) :=
  let tb := s.table t
  let rp := recordsPerPage tb.fmt (s.elems t)
  match tb.root e with
  | none => .ok none
  | some root =>
    match s.read {} (root + 16 * (row / max 1 rp)) 16 with
    | .error x => .error x
    | .ok (bs, _) => .ok (((mapEntryOf (leNat bs)).page e).map fun p => p + row % max 1 rp * s.pitch t)

/-! ### The hot-row cache (R268 to R274) -/

/-- 64 B units that a record touches. -/
def unitsOf (a n : Nat) : List Nat := (List.range ((a + max 1 n - 1) / 64 - a / 64 + 1)).map fun i => (a / 64 + i) * 64

/-- Die and set of a unit. -/
def State.hotSet (s : State) (u : Nat) : Nat := 229376 * (if (s.memUnit u).2 < 192 then 0 else 1) + Config.hotHash u % 229376

/-- The key of the entry that holds a unit. -/
def State.hotFind (s : State) (u : Nat) : Option Nat :=
  (s.hot.find? fun e => e.1 / 16 == s.hotSet u && e.2.unit == u).map (·.1)

/-- Check one unit: a hit raises its entry's use count by the tally count and gives the copy (R269, R270); an entry whose copy shows an
uncorrectable word is invalidated and gives none, its words counted (R274). The state follows, and whether the tag missed. -/
def State.hotCheck (s : State) (total u : Nat) : Option (List Byte) × Bool × State :=
  match s.hotFind u with
  | none => (none, true, s.inc WHS_HOT_MISSES_COUNT 0 1)
  | some k =>
    let s := s.inc WHS_HOT_HITS_COUNT 0 1
    let bad := s.allBad (hotAddr k) 64
    if bad.isEmpty then
      let e := Tab.get (fun _ => ⟨u, 0⟩) s.hot k
      (some (s.bytes (hotAddr k) 64), false,
       { s with hot := Tab.insert k { e with use := min 255 (e.use + total) } s.hot }.correct (hotAddr k) 64)
    else (none, false, { s with hot := Tab.erase k s.hot }.inc WHS_ECC_UNCORRECTED_COUNT 0 bad.length)

/-- Check the units of a record in order: their copies where every one hit, and those that missed. -/
def State.hotChecks (s : State) (total : Nat) : List Nat → Option (List Byte) × List Nat × State
  | [] => (some [], [], s)
  | u :: us =>
    let (c, miss, s) := s.hotCheck total u
    let (cs, ms, s) := State.hotChecks s total us
    (match c, cs with
      | some a, some b => some (a ++ b)
      | _, _ => none, if miss then u :: ms else ms, s)

/-- Hot-row ways of a die that a class may fill (R253). -/
def State.hotWays (s : State) (die cls : Nat) : List Nat :=
  (List.range 16).filter fun w => s.wayUse die w == 2 && bit (s.wayClasses die w) cls && !s.wayStopped die w && !s.wayStopping die w

/-- The way with the least use count, a tie going to the lower way. -/
def leastUse : List (Nat × Nat) → Option (Nat × Nat)
  | [] => none
  | p :: t =>
    match leastUse t with
    | none => some p
    | some q => if q.2 < p.2 then some q else some p

/-- Fill one missed unit with the data that the miss has read (R271). A way of the set that holds no entry ranks as one of use count 0.
DESIGN CHOICE (log 121). -/
def State.hotFill (s : State) (total cls u : Nat) : State :=
  let st := s.hotSet u
  let ways := (s.hotWays (st / 229376) cls).map fun w => (w, (Tab.get (fun _ => ⟨0, 0⟩) s.hot (16 * st + w)).use)
  match leastUse ways with
  | none => s
  | some (w, use) =>
    if decide (total ≥ s.get WHS_HOT_CFG_EFFECTIVE 0) && decide (total > use) then
      let t := s.writeLoc (.dev (hotAddr (16 * st + w)) .normal) (s.bytes u 64)
      { t with hot := Tab.insert (16 * st + w) ⟨u, min 255 total⟩ t.hot }.inc WHS_HOT_FILLS_COUNT 0 1
    else s

/-- The fills after a record's read: the units that missed, where no other read has filled them since and no word of theirs is bad. -/
def State.hotFills (s : State) (total cls : Nat) (missed : List Nat) : State :=
  missed.foldl (fun t u => if (t.hotFind u).isNone && (t.firstBad u 64).isNone then t.hotFill total cls u else t) s

/-! ### Pooling (R296, R318 to R321) -/

/-- FP32 values of a record's elements (R296). -/
def recordElems (fmt e : Nat) (rec : List Byte) : List Nat :=
  let p := payloadBytes fmt e
  let scale := widen .fp16 (fieldOf rec p 2)
  let bias := widen .fp16 (fieldOf rec (p + 2) 2)
  (List.range e).map fun i =>
    match fmt with
    | 0 => fma32 scale (int32f (toSigned 8 (byteAt rec i))) bias
    | 1 => fma32 scale (int32f (toSigned 4 (byteAt rec (i / 2) / (if i % 2 == 0 then 1 else 16)))) bias
    | 2 => widen .e4m3 (byteAt rec i)
    | 3 => widen .e5m2 (byteAt rec i)
    | _ => widen .fp16 (fieldOf rec (2 * i) 2)

/-- Add count copies of a record to an accumulator (R318, R320). -/
def poolAdd (count : Nat) (elems acc : List Nat) : List Nat :=
  List.zipWith (fun x a => fma32 (int32f count) x a) elems acc

/-- One output element: its bytes, and whether it counts as saturated or as non-finite (R321). -/
def outElem (fmt a : Nat) : List Byte × Bool × Bool :=
  match fmt with
  | 0 => (leBytes 4 a, false, !(f32 a).isFinite)
  | 1 => let r := Fmt.bf16.output16 0x7FC0 (f32 a); (leBytes 2 r.1, r.2.1, r.2.2)
  | _ => let r := Fmt.fp16.output16 0x7E00 (f32 a); (leBytes 2 r.1, r.2.1, r.2.2)

/-! ### The window (R313 to R317) -/

/-- The tally entry of a key. -/
def Crane.findKey (c : Crane) (t e i : Nat) : Option Nat :=
  let n := c.window.findIdx fun x => x.table == t && x.epoch == e && x.index == i
  if n < c.window.length then some n else none

/-- Cells in use: ⌈pitch ÷ 68⌉ per entry (R313). -/
def State.cells (s : State) (c : Crane) : Nat := (c.window.map fun x => ceilDiv (s.pitch x.table) 68).sum

/-- One more entry of a table fits. -/
def State.windowRoom (s : State) (c : Crane) (t : Nat) : Bool :=
  decide (c.window.length < 65536) && decide (s.cells c + ceilDiv (s.pitch t) 68 ≤ 65536)

/-- Sum of the counts that a part's bags still have for an ordinal. -/
def MPart.countOf (p : MPart) (o : Nat) : Nat :=
  (p.bags.map fun b => ((b.todo.filter fun x => x.1 == o).map (·.2)).sum).sum

/-- Ordinals of a part still to insert: those after the insertion point, then those that a flush has removed and a bag still needs. -/
def MPart.pending (p : MPart) : List Nat := ((List.range p.hdr.distinct.length).drop p.inserted) ++ p.again

/-- An ordinal of a part is inserted. -/
def MPart.insert (p : MPart) (o : Nat) : MPart := { p with inserted := max p.inserted (o + 1), again := p.again.filter fun x => x != o }

/-- A part after a flush: the keys that its bags still need are read again. -/
def MPart.flushed (p : MPart) : MPart :=
  { p with again := ((p.bags.flatMap fun b => b.todo.map (·.1)).filter fun o => decide (o < p.inserted)).dedup }

/-- Raw requests for a key to the given slots (R331, R540). -/
def State.askRaw (s : State) (t e index cls entry : Nat) (slots : List Nat) : State :=
  let g := s.group (s.table t).group
  slots.foldl (fun u k => u.tell (g.slots.getD k 0) (.rawRequest t (s.table t).gen e index s.me cls entry)) s

/-- Slots other than this device's and, in DEGRADED state, the lost one. -/
def State.otherSlots (s : State) (t : Nat) : List Nat :=
  let g := s.group (s.table t).group
  (List.range (g.d + 1)).filter fun k => some k != s.mySlot (s.table t).group && !(g.state == .degraded && k == g.lostSlot)

/-- Change one tally entry. -/
def State.setTally (s : State) (c n : Nat) (f : Tally → Tally) : State :=
  s.putCrane c { s.crane c with window := (s.crane c).window.modify n f }

/-- Issue the record read of a new key: counted, and checked against the hot rows, which serve it where every unit hits (R269, R314,
R416). -/
def State.craneRead (s : State) (c t e index total cls entry : Nat) (forPart : Bool) : State :=
  let s := s.inc CRN_READS_COUNT c 1
  let s := if forPart && cls < 2 then { s with counts := { s.counts with memberReads := s.counts.memberReads + 1 } } else s
  match s.recordAddr t e index with
  | .ok (some a) =>
    let (hot, missed, s) := s.hotChecks total (unitsOf a (s.pitch t))
    s.setTally c entry fun y => { y with missed := missed, hot := hot.map fun b => (b.drop (a % 64)).take (s.pitch t) }
  | _ => s

/-- A key that a part needs is of a slice that this device rebuilds: raw copies are asked for (R331). The record read so far is the
device's own. -/
def State.askLost (s : State) (c n cls : Nat) (y : Tally) : State :=
  if s.serving y.table == .rebuilt && !y.lost then
    let s := s.setTally c n fun z => { z with lost := true, own := z.record, parityIn := z.st == .ready, copies := [],
                                              st := if z.st == .ready then .reading else z.st }
    s.askRaw y.table y.epoch y.index cls n (s.otherSlots y.table)
  else s

/-- Add to an entry's total, which saturates (R315). -/
def State.addTotal (s : State) (c n k : Nat) : State :=
  let x := s.crane c
  let x' := { x with window := x.window.modify n fun y => { y with total := min (y.total + k) (2 ^ 32 - 1) } }
  let s' := s.putCrane c x'
  match x.window[n]? with
  | some y => if y.total + k > 2 ^ 32 - 1 then s'.put CRN_TALLY_COUNT_SAT c 1 else s'
  | none => s'

/-- A new entry of a crane's window. -/
def newTally (t e index cls : Nat) (askers : List (Nat × Nat)) : Tally :=
  { table := t, epoch := e, index := index, total := 0, st := .reading, record := [], parityIn := false, copies := [], askers := askers, status := 0,
    cls := cls }

/-- Insert one ordinal of a part: an existing key, or a new entry with its read (R314). None when the window is full. -/
def State.insertOne (s : State) (c : Nat) (p : MPart) (o : Nat) : Option State :=
  let x := s.crane c
  let i := p.hdr.distinct.getD o 0
  let k := p.countOf o
  match x.findKey p.hdr.table p.hdr.epoch i with
  | some n =>
    let t := s.addTotal c n k
    some (match (t.crane c).window[n]? with
      | some y => t.askLost c n p.hdr.cls y
      | none => t)
  | none =>
    if s.windowRoom x p.hdr.table then
      let n := x.window.length
      let y := newTally p.hdr.table p.hdr.epoch i p.hdr.cls []
      let s := (s.putCrane c { x with window := x.window ++ [y] }).addTotal c n k
      some ((s.craneRead c p.hdr.table p.hdr.epoch i (min k (2 ^ 32 - 1)) p.hdr.cls n true).askLost c n p.hdr.cls y)
    else none

/-- Insert a list of ordinals of part number q until one does not fit. -/
def State.insertAll (s : State) (c q : Nat) : List Nat → State
  | [] => s
  | o :: rest =>
    match (s.crane c).parts[q]? with
    | none => s
    | some p =>
      match s.insertOne c p o with
      | none => s
      | some t =>
        let y := t.crane c
        State.insertAll (t.putCrane c { y with parts := y.parts.modify q fun r => r.insert o }) c q rest

/-- Insert what fits of every part, in order of arrival. -/
def State.insertParts (s : State) (c : Nat) : State :=
  (List.range (s.crane c).parts.length).foldl (fun t q =>
    match (t.crane c).parts[q]? with
    | none => t
    | some p => t.insertAll c q p.pending) s

/-! ### Raw copies out (R332) -/

/-- Send a raw copy; every one sent counts. -/
def State.sendRaw (s : State) (c : Nat) (t index : Nat) (asker : Nat × Nat) (status : Nat) (rec : List Byte) : State :=
  (s.inc CRN_RAW_RAW_SENT c 1).tell asker.1
    (.rawCopy t index asker.2 status ((s.mySlot (s.table t).group).getD 63) (if status == 0 then rec else []))

/-- A raw request meets an entry of its key: answered with this device's own record, or kept until that is read. -/
def State.rawFrom (s : State) (c n : Nat) (y : Tally) (w : RawWait) : State :=
  let a := (w.device, w.tag)
  if y.lost && y.parityIn then s.sendRaw c w.table w.index a 0 y.own
  else if y.st == .ready then s.sendRaw c w.table w.index a 0 y.record
  else if y.st == .reading then s.setTally c n fun z => { z with askers := z.askers ++ [a] }
  else s.sendRaw c w.table w.index a 3 []

/-- Take a raw request in: the entry of its key, or a new one with its read. None when the window is full. -/
def State.rawOne (s : State) (c : Nat) (w : RawWait) : Option State :=
  let x := s.crane c
  match x.findKey w.table w.epoch w.index with
  | some n => x.window[n]?.map fun y => s.rawFrom c n y w
  | none =>
    if s.windowRoom x w.table then
      let n := x.window.length
      let y := newTally w.table w.epoch w.index w.cls [(w.device, w.tag)]
      some ((s.putCrane c { x with window := x.window ++ [y] }).craneRead c w.table w.epoch w.index 0 w.cls n false)
    else none

/-- Take raw requests in, in order of arrival, until one does not fit. -/
def State.insertRaws (s : State) (c : Nat) : List RawWait → State
  | [] => s
  | w :: rest =>
    match s.rawOne c w with
    | none => s
    | some t => State.insertRaws (t.putCrane c { t.crane c with raws := (t.crane c).raws.erase w }) c rest

/-! ### Pooling the bags of a part -/

/-- A key of a part as its window entry. -/
def MPart.entry (p : MPart) (c : Crane) (o : Nat) : Option Tally :=
  (c.findKey p.hdr.table p.hdr.epoch (p.hdr.distinct.getD o 0)).bind fun n => c.window[n]?

/-- Every key a bag still needs lies in the window. -/
def MPart.present (p : MPart) (c : Crane) (b : Bag) : Bool := b.todo.all fun x => (p.entry c x.1).isSome

/-- The accumulator is the one that a part's first bag goes on from: it is of the same section and attempt, and of the part before. -/
def OpenBag.before (o : OpenBag) (h : Part) : Bool :=
  h.contIn && o.requester == h.requester && o.jobRef == h.jobRef && o.table == h.table && o.attempt == h.attempt && o.part + 1 == h.part

/-- The bag's accumulator, opened at +0 or taken over from the part before (R310, R319). None while that is not there. -/
def MPart.accOf (p : MPart) (c : Crane) (e : Nat) (b : Bag) : Option (List Nat × Nat) :=
  if !b.acc.isEmpty then some (b.acc, b.len)
  else if p.hdr.contIn && b.ordinal == 0 then
    (c.opened.find? fun o => o.before p.hdr && o.failed.isNone).map fun o => (o.acc, o.len)
  else some (List.replicate e 0, 0)

/-- Add what is available to a bag's accumulator. -/
def MPart.poolBag (p : MPart) (c : Crane) (fmt e : Nat) (b : Bag) : Bag :=
  match p.accOf c e b with
  | none => b
  | some (acc, len) =>
    b.todo.foldl (fun (d : Bag) x =>
      match p.entry c x.1 with
      | some t => if t.st == .ready then { d with acc := poolAdd x.2 (recordElems fmt e t.record) d.acc, len := d.len + x.2 }
          else { d with todo := d.todo ++ [x] }
      | none => { d with todo := d.todo ++ [x] }) { b with todo := [], acc := acc, len := len }

/-- Pool the bags of a part: those whose keys all lie in the window, and the first that does not as far as its keys go
(R316). -/
def MPart.pool (p : MPart) (c : Crane) (fmt e : Nat) : MPart :=
  let first := (p.bags.find? fun b => !p.present c b).map (·.ordinal)
  { p with bags := p.bags.map fun b => if p.present c b || some b.ordinal == first then p.poolBag c fmt e b else b }

/-- The status of a failed key that a part needs. -/
def MPart.failure (p : MPart) (c : Crane) : Option Nat :=
  (p.bags.flatMap fun b => b.todo).findSome? fun x =>
    match p.entry c x.1 with
    | some t => if t.st == .failed then some t.status else none
    | none => none

/-- Reads for C0 and C1 parts in a tide at which a member marks pressure (R416). -/
def State.pressureLimit (s : State) : Nat :=
  s.get HMR_BUDGET_SLICE_SLICE_PER_US 0 * (s.get HMR_TIDE_CFG_PERIOD_STEPS 0 * 125) / 2 *
    (s.get HMR_CLASS_SHARE_SHARE_C0 0 + s.get HMR_CLASS_SHARE_SHARE_C1 0) / 64

/-- Part-done messages of this tide carry the pressure mark (R416). -/
def State.pressure (s : State) : Bool := s.counts.pressureSent || decide (s.counts.memberReads ≥ s.pressureLimit)

/-- Answer a part (R323). -/
def State.answer (s : State) (h : Part) (status : Nat) : State :=
  let slot := (s.mySlot (s.table h.table).group).getD 63
  s.tell h.requester (.partDone h.jobRef h.table h.part slot status h.attempt s.pressure)

/-- Send the slice of a finished bag (R318, R321, R322). -/
def State.sendSlice (s : State) (c : Nat) (h : Part) (b : Bag) : State :=
  let acc := if h.mode == 1 then b.acc.map fun a => div32 a (int32f b.len) else b.acc
  let outs := acc.map (outElem h.outFmt)
  let s := s.inc CRN_OUT_SAT_COUNT c (outs.countP fun o => o.2.1)
  let s := s.inc CRN_NONFINITE_COUNT c (outs.countP fun o => o.2.2)
  s.tell h.requester (.pooledSlice h.jobRef h.table h.part b.ordinal ((s.mySlot (s.table h.table).group).getD 63) h.attempt
    (outs.flatMap fun o => o.1))

/-- The bag goes on in the next part: the part's last bag where `CONT_OUT` is 1. -/
def MPart.goesOn (p : MPart) (b : Bag) : Bool := p.hdr.contOut && b.ordinal + 1 == p.hdr.bags

/-- Keep what part `p` leaves to the part after it: an accumulator, or the status with which it failed. What it took itself goes. -/
def State.leaveOpen (s : State) (c : Nat) (p : Part) (acc : List Nat) (len : Nat) (failed : Option Nat) : State :=
  let x := s.crane c
  let o : OpenBag := ⟨p.requester, p.jobRef, p.table, p.attempt, p.part, acc, len, failed⟩
  s.putCrane c { x with opened := o :: x.opened.filter fun y => !y.before p }

/-- The first bag of a part has taken over the accumulator of the part before: it is no longer kept. -/
def State.dropTaken (s : State) (c : Nat) (p : MPart) : State :=
  if p.hdr.contIn && !(p.bags.any fun b => b.ordinal == 0 && b.acc.isEmpty) then
    s.putCrane c { s.crane c with opened := (s.crane c).opened.filter fun o => !o.before p.hdr }
  else s

/-- Finish the bags of a part that have nothing left: send their slices, or keep their accumulator open. -/
def State.finishBags (s : State) (c q : Nat) (p : MPart) : State :=
  let done := p.bags.filter fun b => b.todo.isEmpty && !b.acc.isEmpty
  let s := s.dropTaken c p
  let s := done.foldl (fun t b =>
    if p.goesOn b then t.leaveOpen c p.hdr b.acc b.len none
    else t.sendSlice c p.hdr b) s
  let x := s.crane c
  s.putCrane c { x with parts := x.parts.set q { p with bags := p.bags.filter fun b => !(b.todo.isEmpty && !b.acc.isEmpty) } }

/-- Pool every part and send what is finished. -/
def State.poolParts (s : State) (c : Nat) : State :=
  (List.range (s.crane c).parts.length).foldl (fun t q =>
    match (t.crane c).parts[q]? with
    | none => t
    | some p => t.finishBags c q (p.pool (t.crane c) (t.table p.hdr.table).fmt (t.elems p.hdr.table))) s

/-- How a part ends, if it does: with the status of a key, or of the part before that its first bag goes on from, or done. A part whose
predecessor failed fails with it. DESIGN CHOICE (log 124). -/
def MPart.verdict (p : MPart) (x : Crane) : Option Nat :=
  match p.failure x, (x.opened.find? fun o => o.before p.hdr).bind (·.failed) with
  | some st, _ => some st
  | none, some st => some st
  | none, none => if p.bags.isEmpty && decide (p.inserted ≥ p.hdr.distinct.length) then some stOk else none

/-- A part ends with a status: it is answered (R323), and the part that would go on from it learns of a failure. -/
def State.endPart (s : State) (c : Nat) (p : MPart) (st : Nat) : State :=
  let s := (s.answer p.hdr st).putCrane c { s.crane c with parts := (s.crane c).parts.erase p }
  if st != stOk && p.hdr.contOut then s.leaveOpen c p.hdr [] 0 (some st)
  else s.putCrane c { s.crane c with opened := (s.crane c).opened.filter fun o => !o.before p.hdr }

/-- End the parts that are finished or have failed, in order of arrival. -/
def State.closeParts (s : State) (c : Nat) : State :=
  (s.crane c).parts.foldl (fun t p => match p.verdict (t.crane c) with
    | some st => t.endPart c p st
    | none => t) s

/-- Empty a full window whose entries have all settled (R316), or end it with no part and no raw request in progress (R317); entries
that a raw request still waits for stay. -/
def State.endWindow (s : State) (c : Nat) : State :=
  let x := s.crane c
  let settled := x.window.all fun y => y.st == .ready || y.st == .failed
  if x.parts.isEmpty && x.raws.isEmpty then s.putCrane c { x with window := x.window.filter fun y => !y.askers.isEmpty }
  else if settled && ((x.parts.any fun p => !p.pending.isEmpty) || !x.raws.isEmpty) then
    let t := (s.putCrane c { x with window := [], parts := x.parts.map (·.flushed) }).inc CRN_TALLY_FLUSHES c 1
    (t.insertParts c).insertRaws c x.raws
  else s

/-- Everything a crane can do with what it holds. -/
def State.runCrane (s : State) (c : Nat) : State :=
  let s := s.insertParts c
  ((((s.insertRaws c (s.crane c).raws).poolParts c).closeParts c).endWindow c)

/-- Every part for a group's tables is answered TABLE_LOST (R335). -/
def State.loseParts (s : State) (g : Nat) : State :=
  (s.cranes.map (·.1)).foldl (fun t c =>
    let lost := (t.crane c).parts.filter fun p => (t.table p.hdr.table).group == g
    if lost.isEmpty then t else (lost.foldl (fun u p => u.endPart c p stTableLost) t).runCrane c) s

/-! ### Parts in (R311, R314, R323, R326, R648) -/

/-- The part's header and bag entries meet Table 07.6. -/
def Part.ok (p : Part) : Bool :=
  decide (p.mode < 2) && decide (p.outFmt < 3) && decide (p.attempt < 2) && decide (1 ≤ p.distinct.length) &&
  p.reserved == 0 && decide (p.distinct.length ≤ 65536) && decide (p.requester < 4096) && decide (p.cls < 4) &&
  p.entries.all fun e => decide (e.1 < p.distinct.length) && decide (1 ≤ e.2.1) && decide (e.2.1 < 2 ^ 32)

/-- Split bag entries at their `LAST` flags. -/
def splitBags : List (Nat × Nat × Bool) → List (Nat × Nat) → List (List (Nat × Nat))
  | [], [] => []
  | [], b => [b]
  | (o, k, last) :: t, b => if last then (b ++ [(o, k)]) :: splitBags t [] else splitBags t (b ++ [(o, k)])

/-- The bags of a part, numbered from 0. -/
def Part.bagList (p : Part) : List Bag :=
  (splitBags p.entries []).zipIdx.map fun x => ⟨x.2, x.1, [], 0, false⟩

/-- Why a member refuses a part, if it does (R323, R335). -/
def State.partRefusal (s : State) (p : Part) : Option Nat :=
  let t := s.table p.table
  if !p.ok then some stMalformed
  else if !t.enabled || t.gen != p.gen then some stTableMismatch
  else if (s.group t.group).state == .lost then some stTableLost
  else if !t.holds p.epoch then some stEpochGone
  else none

/-- A part refused as malformed counts against the device that sent it (R523). -/
def State.partRefused (s : State) (d status : Nat) : State := if status == stMalformed && d != s.me then s.malformedFrom d else s

/-- A part arrives after the cut of its round (R326): that of the tide's own round, or an earlier one's. The part does not carry its
round: the command says it. DESIGN CHOICE (log 125). -/
def State.lateFor (s : State) (p : Part) : Bool := decide (p.round < s.tide) || (p.round == s.tide && s.counts.cut)

/-- A lading part arrives. -/
def State.takePart (s : State) (p : Part) : State :=
  let c := s.craneFor p.table
  let s := if s.lateFor p then s.inc CRN_LATE_PARTS_COUNT c 1 else s
  match s.partRefusal p with
  | some st =>
    let t := (s.answer p st).partRefused p.requester st
    if p.contOut then t.leaveOpen c p [] 0 (some st) else t
  | none =>
    if s.serving p.table == .no then s
    else
      let x := s.crane c
      (s.putCrane c { x with parts := x.parts ++ [{ hdr := p, bags := p.bagList, inserted := 0 }] }).runCrane c

/-- LADING_PART (R314). -/
def execLadingPart (part : Part) (s : State) : Host.Outcome State Fault Refusal :=
  if s.hears part.requester then ok (s.takePart part) else ok s

/-- INDEX_CUT (R326): parts that arrive from here on, until the next boundary, are late. -/
def execIndexCut (s : State) : Host.Outcome State Fault Refusal :=
  if s.live then ok { s with counts := { s.counts with cut := true } } else ok s

/-- SLICE_PRESSURE_MARK (R416): the reads for C0 and C1 parts reach their share of the slice budget. -/
def execSlicePressureMark (s : State) : Host.Outcome State Fault Refusal :=
  if s.live && s.counts.memberReads ≥ s.pressureLimit then ok { s with counts := { s.counts with pressureSent := true } } else ok s

/-! ### Records in (R318, R331 to R333, R540) -/

/-- Byte-wise XOR, as long as the first. -/
def xorBytes (a b : List Byte) : List Byte := a.zipIdx.map fun x => x.1 ^^^ b.getD x.2 0

/-- Answer everyone who asked for a raw copy of an entry, with this device's own record where there is one. -/
def State.answerAskers (s : State) (c n status : Nat) (rec : List Byte) : State :=
  match (s.crane c).window[n]? with
  | none => s
  | some y =>
    let t := y.askers.foldl (fun u a => u.sendRaw c y.table y.index a status rec) s
    t.setTally c n fun z => { z with askers := [] }

/-- The first part in progress that needs a key. -/
def Crane.neededBy (x : Crane) (y : Tally) : Option MPart :=
  x.parts.find? fun p => p.hdr.table == y.table && p.hdr.epoch == y.epoch && p.hdr.distinct.contains y.index

/-- The copies and the parity record that make an entry's record complete: D − 1 and the parity in DEGRADED state (R333), else
the D copies of a rebuild (R540). -/
def State.rebuilt (s : State) (y : Tally) : Bool :=
  let d := (s.group (s.table y.table).group).d
  if y.st == .rebuilding then decide (y.copies.length ≥ d) else y.parityIn && decide (y.copies.length + 1 ≥ d)

/-- The record is there: bags that name it are pooled. -/
def State.recordReady (s : State) (c n : Nat) : State := (s.setTally c n fun y => { y with st := .ready }).runCrane c

/-- The read meets an uncorrectable word. Raw requests get MEMORY_ERROR; a part's key is rebuilt from the other slots with the class of
that part (R271), unless the group is DEGRADED (R540). -/
def State.recordLost (s : State) (c n : Nat) (y : Tally) : State :=
  let s := s.answerAskers c n 3 []
  match (s.crane c).neededBy y with
  | some p =>
    if (s.group (s.table y.table).group).state == .normal then
      let s := s.setTally c n fun z => { z with st := .rebuilding, record := List.replicate (s.pitch y.table) 0, copies := [], cls := p.hdr.cls }
      s.askRaw y.table y.epoch y.index p.hdr.cls n (s.otherSlots y.table)
    else (s.setTally c n fun z => { z with st := .failed, status := stMemoryError }).runCrane c
  | none => (s.setTally c n fun z => { z with st := .failed, status := stMemoryError }).runCrane c

/-- The record as read, with zero bytes for an unmapped one (R342): raw requests get it, and for a lost slice it is the parity. -/
def State.recordGot (s : State) (c n : Nat) (y : Tally) (rec : List Byte) : State :=
  let s := s.answerAskers c n 0 rec
  if y.lost then
    let s := s.setTally c n fun z => { z with record := xorBytes rec z.record, parityIn := true, own := rec }
    match (s.crane c).window[n]? with
    | some z => if s.rebuilt z then s.recordReady c n else s
    | none => s
  else (s.setTally c n fun z => { z with record := rec }).recordReady c n

/-- A record read returns: from the hot rows where every unit hit, else from HBM, with the fills of the units that missed (R269, R271). -/
def State.recordReturns (s : State) (c n : Nat) (y : Tally) : State :=
  match y.hot with
  | some bs => s.recordGot c n y bs
  | none =>
    match s.recordAddr y.table y.epoch y.index with
    | .error (.memory w) => (s.memError w none).recordLost c n y
    | .error .held => s
    | .error _ => s.recordLost c n y
    | .ok none => (s.inc CRN_UNMAPPED_COUNT c 1).recordGot c n y (List.replicate (s.pitch y.table) 0)
    | .ok (some a) =>
      match s.read {} a (s.pitch y.table) with
      | .ok (bs, t) => (t.hotFills y.total y.cls y.missed).recordGot c n y bs
      | .error (.memory w) => (s.memError w none).recordLost c n y
      | .error .held => s
      | .error _ => s.recordLost c n y

/-- RECORD_READ_RETURN (R318). -/
def execRecordReadReturn (crane entry : Nat) (s : State) : Host.Outcome State Fault Refusal :=
  match (s.crane crane).window[entry]? with
  | some y => if s.live && y.st == .reading && !y.parityIn then ok (s.recordReturns crane entry y) else ok s
  | none => ok s

/-- A raw request arrives (R332, R339): it is refused, or taken in like any key. -/
def State.takeRaw (s : State) (t gen e index device cls tag : Nat) : State :=
  let tb := s.table t
  let c := s.craneFor t
  if !tb.enabled || tb.gen != gen then s.sendRaw c t index (device, tag) 1 []
  else if !tb.holds e then s.sendRaw c t index (device, tag) 2 []
  else (s.putCrane c { s.crane c with raws := (s.crane c).raws ++ [⟨t, e, index, device, cls, tag⟩] }).runCrane c

/-- RAW_REQUEST (R332). -/
def execRawRequest (table gen epoch index device cls tag : Nat) (s : State) : Host.Outcome State Fault Refusal :=
  if s.hears device then ok (s.takeRaw table gen epoch index device cls tag) else ok s

/-- Write back a rebuilt record (R540): the words that lie within it, and those at its edges that can be read. -/
def State.writeBack (s : State) (a : Nat) (rec : List Byte) : State :=
  let inside := wholeWords a rec.length
  let edges := (wordsOf a rec.length).filter fun w => !(inside.contains w)
  let lost := edges.filter fun w => s.badWord w
  let s := s.dropHot a rec.length
  let s := { s with ecc := s.ecc.filter fun e => !(inside.contains e.1) }
  let s := (rec.zipIdx).foldl (fun t x => if lost.contains ((a + x.2) / 8) then t else t.pokeByte .normal (a + x.2) x.1) s
  lost.foldl (fun t w => t.wordError (8 * w) none) s

/-- The status of a failed raw copy as a part's status (R333, Table 11.9). -/
def rawStatus (st : Nat) : Nat := if st == 1 then stTableMismatch else if st == 2 then stEpochGone else stMemoryError

/-- A raw copy of a key's rebuild is taken (R333). -/
def State.takeCopy (s : State) (c n slot status : Nat) (data : List Byte) (y : Tally) : State :=
  if y.copies.contains slot then s
  else if status != 0 then (s.setTally c n fun z => { z with st := .failed, status := rawStatus status }).runCrane c
  else
    let zero := List.replicate (s.pitch y.table) (0 : Byte)
    let s := s.setTally c n fun z =>
      { z with record := xorBytes (if z.record.isEmpty then zero else z.record) data, copies := slot :: z.copies }
    match (s.crane c).window[n]? with
    | none => s
    | some z =>
      if !s.rebuilt z then s
      else if z.st == .rebuilding then
        let t := match s.recordAddr z.table z.epoch z.index with
          | .ok (some a) => (s.writeBack a z.record).hotFills z.total z.cls z.missed
          | _ => s
        t.recordReady c n
      else s.recordReady c n

/-- RAW_COPY (R333): every one that a device of the pod sends counts at the crane that asked; one for a key whose rebuild has ended, or
that is not of it, does no more. -/
def execRawCopy (crane entry : Nat) (sender : MemberAt) (status : Nat) (data : List Byte) (s : State) : Host.Outcome State Fault Refusal :=
  if s.hears sender.device && decide (crane < 32) then
    let t := s.inc CRN_RAW_RAW_RECEIVED crane 1
    match (s.crane crane).window[entry]? with
    | some y =>
      if s.slotDevice y.table sender.slot == sender.device && (y.st == .rebuilding || (y.st == .reading && y.lost)) then
        ok (t.takeCopy crane entry sender.slot status data y)
      else ok t
    | none => ok t
  else ok s

end Sys2Proof.Machine
end

