-- ==== Sys2Proof/Machine/Lookup.lean ====
section
/-! DEFINITION. Cranes as requesters (07): the tally of a section into lading parts, the pooled slices that come back, and the
part-done messages. -/

namespace Sys2Proof.Machine

/-! ### Failed accesses of a job -/

/-- An access for a job fails: an uncorrectable word goes to the salvor, which ends or retries the job (Table 13.4); one that a port
holds back waits (R446), and any other failure ends the job with its STATUS (R448, R454). -/
def State.accessFailed (s : State) (j : Nat) (e : AccErr) : State :=
  match e with
  | .memory a => s.memError a (some j)
  | .held => s
  | _ => s.endJobOf j e.status

/-- What a job's streams and kiln commands ask as, and its cranes, which the model window does not serve (Table 06.2). -/
def Job.req (j : Job) : Req := { cls := some j.cls, model := some (j.model, j.version) }
def Job.craneReq (j : Job) : Req := { cls := some j.cls }

/-! ### Sections (R306 to R312) -/

/-- Section k of a job. -/
def Job.sect (j : Job) (k : Nat) : Option Section := j.sections[k]?

/-- Replace section k of a job. -/
def Job.setSect (j : Job) (k : Nat) (x : Section) : Job := { j with sections := j.sections.set k x }

/-- The bag lengths of a section. -/
def State.bagLengths (s : State) (r : Req) (x : Section) : Except AccErr (List Nat × State) :=
  match s.read r x.lenAddr (4 * x.bags) with
  | .error e => .error e
  | .ok (bs, t) => .ok ((List.range x.bags).map fun b => fieldOf bs (4 * b) 4, t)

/-- The indices of a section, in bag order. -/
def State.sectIndices (s : State) (r : Req) (x : Section) (n : Nat) : Except AccErr (List Nat × State) :=
  let w := if x.idx64 then 8 else 4
  match s.read r x.idxAddr (w * n) with
  | .error e => .error e
  | .ok (bs, t) => .ok ((List.range n).map fun i => fieldOf bs (w * i) w, t)

/-- Indices that a job's sections hold, by the lengths that can be read (R413). -/
def State.indicesFound (s : State) (j : Job) : Nat :=
  (j.sections.map fun x => match s.bagLengths j.craneReq x with | .ok (ls, _) => ls.sum | .error _ => 0).sum

/-- A part while the tally builds it: its distinct list, finished bag entries, the bags that have entries, and whether its first
bag goes on from the part before. -/
structure Building where
  distinct : List Nat := []
  entries : List (Nat × Nat × Bool) := []
  bagNos : List Nat := []
  contIn : Bool := false
  contOut : Bool := false
  deriving DecidableEq, Repr

/-- The tally of a section: parts closed, the part in progress, and the entries of the bag in progress as (index, count). -/
structure TallyRun where
  closed : List Building := []
  now : Building := {}
  bag : List (Nat × Nat) := []
  deriving DecidableEq, Repr

/-- Move the bag in progress into the part, `LAST` on its last entry (R309). -/
def TallyRun.flushBag (t : TallyRun) (b : Nat) : TallyRun :=
  if t.bag.isEmpty then t
  else
    let n := t.bag.length
    let es := t.bag.zipIdx.map fun x => (t.now.distinct.findIdx (· == x.1.1), x.1.2, decide (x.2 + 1 = n))
    { t with now := { t.now with entries := t.now.entries ++ es, bagNos := t.now.bagNos ++ [b] }, bag := [] }

/-- One more occurrence of an index in bag b (R309, R310). -/
def TallyRun.count (t : TallyRun) (b index : Nat) : TallyRun :=
  if t.now.distinct.contains index then
    if t.bag.any fun x => x.1 == index then
      { t with bag := t.bag.map fun x => if x.1 == index then (x.1, x.2 + 1) else x }
    else { t with bag := t.bag ++ [(index, 1)] }
  else if t.now.distinct.length < 65536 then
    { t with now := { t.now with distinct := t.now.distinct ++ [index] }, bag := t.bag ++ [(index, 1)] }
  else
    let goes := !t.bag.isEmpty
    let u := t.flushBag b
    { closed := u.closed ++ [{ u.now with contOut := goes }], now := { distinct := [index], contIn := goes }, bag := [(index, 1)] }

/-- Tally bag after bag: each bag's number and its kept indices. -/
def tallyBags : List (Nat × List Nat) → TallyRun → TallyRun
  | [], t => t
  | (b, is) :: rest, t => tallyBags rest ((is.foldl (fun u i => u.count b i) t).flushBag b)

/-- The parts of a section's bags, in order. -/
def tallyParts (bags : List (Nat × List Nat)) : List Building :=
  let t := tallyBags bags {}
  if t.now.entries.isEmpty then t.closed else t.closed ++ [t.now]

/-- Cut a list into runs of the given lengths. -/
def cutRuns : List Nat → List Nat → List (List Nat)
  | [], _ => []
  | n :: ns, xs => xs.take n :: cutRuns ns (xs.drop n)

/-- The requester's reference in the parts of section k of a job: 32 bits that name the job and the section, so that every
message about a part names its section (R322). DESIGN CHOICE (log 53). -/
def sectRef (j k : Nat) : Nat := j % 65536 * 65536 + k

/-- The lading part of a built part (Table 07.6). -/
def State.partOf (s : State) (j : Job) (k : Nat) (x : Section) (n : Nat) (b : Building) : Part :=
  { table := x.table, gen := (s.table x.table).gen, mode := x.mode, outFmt := x.outFmt, idx64 := x.idx64, contIn := b.contIn,
    contOut := b.contOut, attempt := x.attempt, part := n, firstBag := b.bagNos.headD 0, bags := b.bagNos.length,
    requester := s.me, cls := j.cls, jobRef := sectRef j.id k,
    epoch := ((j.stamps.find? fun p => p.1 == x.table).map (·.2)).getD (s.table x.table).epoch,
    outPitch := x.outPitch, outAddr := x.outAddr, distinct := b.distinct, entries := b.entries, round := x.round }

/-- Multicast parts to slots of the table's group (R312). -/
def State.sendParts (s : State) (t : Nat) (slots : List Nat) (ps : List Part) : State :=
  let g := s.group (s.table t).group
  ps.foldl (fun u p => slots.foldl (fun v k => v.tell (g.slots.getD k 0) (.ladingPart p)) u) s

/-- Zeros for the bags that pool to +0 (R308). -/
def State.writeZeroBags (s : State) (r : Req) (x : Section) : List Nat → Except AccErr State
  | [] => .ok s
  | b :: rest =>
    match s.write r (x.outAddr + b * x.outPitch) (List.replicate ((s.table x.table).dim * outBytes x.outFmt) 0) with
    | .error e => .error e
    | .ok t => State.writeZeroBags t r x rest

/-- A section's tally from its lengths and indices: drops are counted at the first tally alone (R307), empty bags are written
(R308), and the parts go to the given slots. -/
def State.tallied (s : State) (j : Job) (k : Nat) (x : Section) (lens idx slots : List Nat) : State :=
  let c := s.craneFor x.table
  let rows := (s.table x.table).rows
  let runs := (cutRuns lens idx).map fun r => r.filter fun i => decide (i < rows)
  let dropped := (idx.filter fun i => decide (i ≥ rows)).length
  let s := if x.counted then s else s.inc CRN_BAD_INDEX_COUNT c dropped
  let j := { j with badIndex := j.badIndex || decide (dropped > 0) }
  let s := s.putJob j
  let empty := (runs.zipIdx.filter fun r => r.1.isEmpty).map (·.2)
  match s.writeZeroBags j.craneReq x empty with
  | .error e => s.accessFailed j.id e
  | .ok s =>
    let parts := tallyParts (runs.zipIdx.map fun r => (r.2, r.1))
    let s := s.inc CRN_TALLY_FLUSHES c (parts.length - 1)
    let x' := { x with tallied := true, counted := true, partBags := parts.map (·.bagNos) }
    let s := s.putJob (j.setSect k x')
    s.sendParts x.table slots (parts.zipIdx.map fun p => s.partOf j k x p.2 p.1)

/-- The tally of section k of a job, its parts going to the given slots. -/
def State.tallySection (s : State) (j : Job) (k : Nat) (x : Section) (slots : List Nat) : State :=
  match s.bagLengths j.craneReq x with
  | .error e => s.accessFailed j.id e
  | .ok (lens, s) =>
    if s.indicesFound j > j.indices then s.endJob j stIndices 0 none
    else match s.sectIndices j.craneReq x lens.sum with
      | .error e => s.accessFailed j.id e
      | .ok (idx, s) => s.tallied j k x lens idx slots

/-- Data slots that have not reported every part of a section; all of them before its first tally. -/
def State.sectMissing (s : State) (x : Section) : List Nat :=
  (dataSlots (s.group (s.table x.table).group) (s.table x.table).paritySlot).filter fun k =>
    (!x.tallied && x.partBags.isEmpty) || !((List.range x.partBags.length).all fun p => x.oks.contains (k, p))

/-- Slots that a section's parts go to: every served slot at first and at its reissue, and the servers of the slots that missed
parts at a resend (R312, R328, R541, R543). DEDUCED (log 51). -/
def State.sectSlots (s : State) (x : Section) : List Nat :=
  let g := s.group (s.table x.table).group
  let p := (s.table x.table).paritySlot
  if x.resent then (s.sectMissing x).map fun k => serverSlot g p k else servedSlots g p

/-- SECTION_TALLY (R309): the section's round has opened and it is not tallied yet. -/
def execSectionTally (job sect : Nat) (s : State) : Host.Outcome State Fault Refusal :=
  match s.job job with
  | none => ok s
  | some j =>
    match j.sect sect with
    | none => ok s
    | some x =>
      if s.live && !x.tallied && x.round ≤ s.tide then ok (s.tallySection j sect x (s.sectSlots x)) else ok s

/-! ### Slices and answers (R322, R323) -/

/-- The data slot whose parts of a table a slot's messages concern. -/
def State.slotFor (s : State) (t slot : Nat) : Nat := dataSlot (s.group (s.table t).group) (s.table t).paritySlot slot

/-- The job, the section's number and the section that a message about a part concerns: the section is on that table, has that
part, and the data slot has not reported it done. -/
def State.sectFor (s : State) (ref table part slot : Nat) : Option (Job × Nat × Section) :=
  (s.jobs.find? fun j => j.id % 65536 == ref / 65536).bind fun j => (j.sect (ref % 65536)).bind fun x =>
    if x.table == table && decide (part < x.partBags.length) && !(x.oks.contains (slot, part)) then some (j, ref % 65536, x) else none

/-- The data slice that a sender's slot carries: the lost slot's when it is the parity holder (R322, R333). -/
def State.sliceFrom (s : State) (t slot : Nat) : Nat :=
  sliceOf (s.group (s.table t).group).d (s.table t).paritySlot (s.slotFor t slot)

/-- A pooled slice arrives: written at its place in the bag's vector; one of an older attempt is dropped. -/
def State.takeSlice (s : State) (j : Job) (x : Section) (part bag slot attempt : Nat) (data : List Byte) : State :=
  let nos := x.partBags.getD part []
  if attempt < x.attempt || bag ≥ nos.length then s
  else
    let a := x.outAddr + nos.getD bag 0 * x.outPitch + s.sliceFrom x.table slot * s.elems x.table * outBytes x.outFmt
    match s.write j.craneReq a data with
    | .ok t => t
    | .error e => s.accessFailed j.id e

/-- POOLED_SLICE (R322). -/
def execPooledSlice (jobRef table part bag slot attempt : Nat) (data : List Byte) (s : State) : Host.Outcome State Fault Refusal :=
  match s.sectFor jobRef table part (s.slotFor table slot) with
  | none => ok s
  | some (j, _, x) => if s.hears (s.slotDevice table slot) then ok (s.takeSlice j x part bag slot attempt data) else ok s

/-- Every data slot's parts are all reported (R323). -/
def State.sectDone (s : State) (x : Section) : Bool := x.tallied && (s.sectMissing x).isEmpty

/-- A part-done message: OK is noted, any other status ends the job (R323). The pressure mark is noted whatever it says
(R417). -/
def State.takeDone (s : State) (jobRef table part slot status attempt : Nat) (pressure : Bool) : State :=
  let s := if pressure then { s with counts := { s.counts with pressureSeen := true } } else s
  match s.sectFor jobRef table part (s.slotFor table slot) with
  | none => s
  | some (j, k, x) =>
    if attempt < x.attempt then s
    else if status == stOk then s.putJob (j.setSect k { x with oks := (s.slotFor table slot, part) :: x.oks })
    else s.endJob j status 0 none

/-- PART_DONE (R323). -/
def execPartDone (jobRef table part slot status attempt : Nat) (pressure : Bool) (s : State) : Host.Outcome State Fault Refusal :=
  if s.hears (s.slotDevice table slot) then ok (s.takeDone jobRef table part slot status attempt pressure) else ok s

end Sys2Proof.Machine
end

