-- ==== Sys2Proof/Machine/Models.lean ====
section
/-! DEFINITION. Models and the model cache (10, 06): registering and removing a model, placing, loading and evicting its blocks,
and the commands that stop and start admission. -/

namespace Sys2Proof.Machine

/-! ### The directory (Table 10.11) -/

/-- Address of a model's directory entry. -/
def State.modelDir (s : State) (m : Nat) : Nat := s.get HMR_MODEL_DIR_BASE 0 + 32 * m

/-- The device writes bytes of its own in device memory; an address it cannot write keeps what it holds. -/
def State.devWrite (s : State) (a : Nat) (bs : List Byte) : State :=
  match s.write {} a bs with
  | .ok t => t
  | .error _ => s

/-- Store a model's record and write the fields of its directory entry that the device writes. -/
def State.setModel (s : State) (m : Nat) (x : Model) : State :=
  (((s.putModel m x).devWrite (s.modelDir m + 8) (leBytes 1 x.st.code)).devWrite (s.modelDir m + 12) (leBytes 4 x.version)).devWrite
    (s.modelDir m + 16) (leBytes 8 x.lastAdmit)

/-- Read from an image in the model store, an unreadable item reading as none. -/
def State.imageRead (s : State) (image off n : Nat) : Option (List Byte) :=
  match s.read {} (image + off) n with
  | .ok (bs, _) => some bs
  | .error _ => none

/-- The image's tables meet R406 and Table 09.1. -/
def State.imageOk (s : State) (image : Nat) : Bool :=
  match s.imageRead image 0 256 with
  | none => false
  | some bs =>
    let h := imageHeaderOf bs
    imageHeaderOk bs &&
    ((List.range (h.lanes * h.variants)).all fun i => match s.imageRead image (h.variantOff + 64 * i) 64 with
      | some v => variantOk v h.units
      | none => false) &&
    ((List.range h.units).all fun i => match s.imageRead image (h.unitOff + 32 * i) 32 with
      | some u => unitOk u h.units h.binds h.bytes
      | none => false) &&
    (h.histOff == 0 || match s.imageRead image h.histOff 16 with
      | some g => histGeometryOk g
      | none => false)

/-- The image lies whole in one model-store set. -/
def State.imagePlaced (s : State) (image n : Nat) : Bool :=
  match s.setOf image with
  | none => false
  | some k => s.get HBM_CHSET_USE k == 2 && decide (image + n ≤ s.setBase k + s.setBytes k)

/-- The directory entry's fields that host software writes: none where a reserved bit is set. -/
def State.modelImage (s : State) (m : Nat) : Option Nat :=
  match s.read {} (s.modelDir m) 32 with
  | .error _ => none
  | .ok (bs, _) => if addrOk bs 0 65536 && zeroAt bs 9 3 && zeroAt bs 24 8 then some (fieldOf bs 0 8) else none

/-- End an operation of `HMR_MODEL_CTL`. -/
def State.modelResult (s : State) (r : Nat) : State := (s.put HMR_MODEL_CTL_RESULT 0 r).put HMR_MODEL_CTL_DONE 0 1

/-- The record of a newly registered model. -/
def newModel (image : Nat) (h : ImageHeader) : Model :=
  { st := .stored, image := image, lanes := h.lanes, variants := h.variants, locality := h.locality, bytes := h.bytes,
    variantOff := h.variantOff, unitOff := h.unitOff, units := h.units, bindOff := h.bindOff, binds := h.binds, histOff := h.histOff }

/-- `OP` ADD (R430). -/
def State.addModel (s : State) (m : Nat) : State :=
  if m > s.get HMR_MODEL_DIR_ENTRIES 0 then s.modelResult 3
  else if (s.model m).st != .absent then s.modelResult 2
  else match s.modelImage m with
    | none => s.modelResult 2
    | some image =>
      match s.imageRead image 0 256 with
      | none => s.modelResult 2
      | some bs =>
        if s.imageOk image && s.imagePlaced image (imageHeaderOf bs).bytes then
          (s.setModel m (newModel image (imageHeaderOf bs))).modelResult 1
        else s.modelResult 2

/-- `OP` REMOVE (R430). -/
def State.removeModel (s : State) (m : Nat) : State :=
  if m > s.get HMR_MODEL_DIR_ENTRIES 0 then s.modelResult 3
  else
    let x := s.model m
    if x.st == .absent || x.st == .removing then s.modelResult 1
    else (s.setModel m { x with st := .removing }).modelResult 1

/-- MODEL_ADD (R430). -/
def execModelAdd (model : Nat) (s : State) : Host.Outcome State Fault Refusal := ok (s.hostDo fun t => t.addModel model)

/-- MODEL_REMOVE (R430). -/
def execModelRemove (model : Nat) (s : State) : Host.Outcome State Fault Refusal := ok (s.hostDo fun t => t.removeModel model)

/-- A job of the model is admitted. -/
def State.modelInUse (s : State) (m : Nat) : Bool := s.jobs.any fun j => j.kind == .run && j.model == m

/-- A job of the model is dispatched: a unit of it, or a chunk step (R264). -/
def State.modelRuns (s : State) (m : Nat) : Bool :=
  s.jobs.any fun j => j.kind == .run && j.model == m && ((j.units.any (·.dispatched)) || j.hist.any fun u => u.steps.any (·.2.2))

/-- The stream that loads blocks of a model (R265). -/
def State.loader (s : State) (m : Nat) : Option Nat := (s.streams.find? fun e => e.2.st != .free && e.2.load.any fun l => l.1 == m).map (·.1)

/-- End the load of a model: its stream is freed. -/
def State.endLoad (s : State) (m : Nat) : State :=
  match s.loader m with
  | some n => s.freeStream n
  | none => s

/-- MODEL_REMOVED (R430): the last job of a REMOVING model has retired. -/
def execModelRemoved (model : Nat) (s : State) : Host.Outcome State Fault Refusal :=
  if (s.model model).st == .removing && !s.modelInUse model then ok ((s.endLoad model).setModel model {}) else ok s

/-! ### Cache blocks (R261, R262) -/

/-- Cache blocks in use by any model or by an open consignment. -/
def State.usedBlocks (s : State) : List Nat :=
  (s.models.flatMap fun e => e.2.blocks.map (·.2) ++ e.2.oldBlocks.map (·.2)) ++
  (s.conss.flatMap fun c => c.swaps.filterMap fun w => w.2.2.2)

/-- Model-cache ways of a die that a class may use (R253). -/
def State.cacheWays (s : State) (die cls : Nat) : List Nat :=
  (List.range 16).filter fun w => s.wayUse die w == 1 && bit (s.wayClasses die w) cls && !s.wayStopped die w && !s.wayStopping die w

/-- Free cache blocks of a die open to a class, given the blocks in use. -/
def State.freeBlocks (s : State) (die cls : Nat) (used : List Nat) : List Nat :=
  ((s.cacheWays die cls).flatMap fun w => (List.range 224).map fun i => die * 3584 + w * 224 + i).filter fun n => !(used.contains n)

/-- The first die for a model's blocks (R262). -/
def State.firstDie (s : State) (loc cls : Nat) (used : List Nat) : Nat :=
  if loc == 1 then 0 else if loc == 2 then 1
  else if (s.freeBlocks 1 cls used).length > (s.freeBlocks 0 cls used).length then 1 else 0

/-- Places for n blocks, the first die's first; none where room lacks. The Bool says that some went to the other die. -/
def State.placeBlocks (s : State) (loc cls n : Nat) (used : List Nat) : Option (List Nat × Bool) :=
  let d := s.firstDie loc cls used
  let here := s.freeBlocks d cls used
  let both := here ++ s.freeBlocks (1 - d) cls used
  if n ≤ both.length then some (both.take n, decide (n > here.length)) else none

/-- Blocks of a model's image. -/
def Model.imageBlocks (x : Model) : List Nat := List.range (x.bytes / 65536)

/-- Image blocks that hold no cache block. -/
def Model.missing (x : Model) : List Nat := x.imageBlocks.filter fun b => !(x.blocks.any fun p => p.1 == b)

/-- Image blocks of a model that stay in the cache: pinned, or held by an open consignment's PIN (R264, R349). -/
def State.keptBlocks (s : State) (m : Nat) : List Nat :=
  (s.model m).pins ++ ((s.conss.flatMap (·.heldBlocks)).filter fun h => h.1 == m).map (·.2)

/-- Cache blocks that evicting a model gives back: all but those kept. -/
def State.evictable (s : State) (m : Nat) : List Nat :=
  ((s.model m).blocks.filter fun p => !((s.keptBlocks m).contains p.1)).map (·.2)

/-- The state of a model that loses blocks: no longer resident or loading. -/
def ModelState.lost (x : ModelState) : ModelState := if x == .resident || x == .loading then .stored else x

/-- Blocks of a model leave the cache, but for those that `keep` holds; what was still to be loaded goes too. -/
def State.loseBlocks (s : State) (m : Nat) (keep : Nat × Nat → Bool) : State :=
  let x := s.model m
  (s.endLoad m).setModel m { x with st := x.st.lost, blocks := x.blocks.filter fun p => keep p && !x.toLoad.contains p.1, toLoad := [] }

/-- Evict a model: its blocks go, but for those kept; it is stored. -/
def State.evictModel (s : State) (m : Nat) : State := s.loseBlocks m fun p => (s.keptBlocks m).contains p.1

/-- A model that eviction can take something from: it is resident, or a way stop left it some blocks (Table 06.4). -/
def State.holdsCache (s : State) (m : Nat) (x : Model) : Bool := x.st == .resident || (x.st == .stored && !(s.evictable m).isEmpty)

/-- Such models with no admitted job, oldest `LAST_ADMIT` first, ties to the lower number (R431). -/
def State.evictionOrder (s : State) (not : Nat) : List Nat :=
  let ms := (s.models.filter fun e => s.holdsCache e.1 e.2 && e.1 != not && !s.modelInUse e.1).map fun e => (e.2.lastAdmit, e.1)
  (sortBy (fun a b => decide (a.1 < b.1) || (a.1 == b.1 && decide (a.2 ≤ b.2))) ms).map (·.2)

/-- Models resident or loading, but for one. -/
def State.residentCount (s : State) (but : Nat) : Nat :=
  (s.models.filter fun e => e.1 != but && (e.2.st == .resident || e.2.st == .loading)).length

/-- Evictions and places for a model's missing blocks: evict in order until the image fits, and at most 128 models are resident
(R261, R431). `left` counts the models that stay. -/
def State.makeRoom (s : State) (loc cls n left : Nat) : List Nat → List Nat → List Nat → Option (List Nat × List Nat × Bool)
  | order, used, gone =>
    match if left < 128 then s.placeBlocks loc cls n used else none with
    | some (bs, far) => some (gone, bs, far)
    | none =>
      match order with
      | [] => none
      | m :: rest =>
        let back := s.evictable m
        State.makeRoom s loc cls n (left - b2n ((s.model m).st == .resident)) rest (used.filter fun b => !(back.contains b)) (gone ++ [m])

/-- A job is stamped with a version of a model (R338, R370). -/
def State.versionUsed (s : State) (m v : Nat) : Bool := s.jobs.any fun j => j.kind == .run && j.model == m && j.version == v

/-- Blocks that jobs of a retiring version need beside those of the current one, and that the cache does not hold (R339). -/
def State.oldMissing (s : State) (m : Nat) : List Nat :=
  let x := s.model m
  if x.retiring.any fun v => s.versionUsed m v then
    ((x.copies.filter fun c => c.1 == x.version).map (·.2.1)).filter fun b => !(x.oldBlocks.any fun p => p.1 == b)
  else []

/-- The room chosen for a job's model, none where room lacks (R431, test 13). -/
def State.roomFor (s : State) (m cls : Nat) : Option (List Nat × List Nat × Bool) :=
  let x := s.model m
  s.makeRoom x.locality cls (x.missing.length + (s.oldMissing m).length) (s.residentCount m) (s.evictionOrder m) s.usedBlocks []

/-- The model is resident, or its load is under way. -/
def State.modelReady (s : State) (m : Nat) : Bool := (s.model m).st == .resident || (s.model m).st == .loading

/-- Every block of a model is in the cache, so that its jobs may be dispatched (R264); those of a REMOVING model go on (R430). -/
def State.modelWhole (s : State) (m : Nat) : Bool :=
  let x := s.model m
  (x.st == .resident || (x.st == .removing && x.missing.isEmpty)) && x.toLoad.isEmpty

/-! ### Loads by stevedore streams (R265) -/

/-- Bytes of an image block as a version reads them in the model store: the latest copy at or before the version, else the image
(R349, R370). -/
def State.storeBytes (s : State) (x : Model) (v b off n : Nat) : Except AccErr (List Byte × State) :=
  match (x.copies.filter fun c => c.2.1 == b && decide (c.1 ≤ v)).getLast? with
  | some c => .ok ((c.2.2.drop off).take n, s)
  | none => s.read {} (x.image + 65536 * b + off) n

/-- An image block whole. -/
def State.storeBlock (s : State) (x : Model) (v b : Nat) : Except AccErr (List Byte × State) := s.storeBytes x v b 0 65536

/-- Warehouse address of a cache block. -/
def cacheAddr (n : Nat) : Nat := whsBase + blockOffset n

/-- Write a cache block whole; its words become valid. -/
def State.writeBlock (s : State) (n : Nat) (bs : List Byte) : State := (s.zero (cacheAddr n) 65536).poke (cacheAddr n) bs

/-- Write the blocks that a retiring version reads from the store into places, at once. DESIGN CHOICE (log 123). -/
def State.loadOld (s : State) (m v : Nat) : List (Nat × Nat) → State
  | [] => s
  | (b, n) :: rest =>
    match s.storeBlock (s.model m) v b with
    | .ok (bs, t) => State.loadOld ((t.writeBlock n bs).putModel m { t.model m with oldBlocks := (t.model m).oldBlocks ++ [(b, n)] }) m v rest
    | .error _ => State.loadOld s m v rest

/-- A stevedore in service. -/
def State.stevedoreOk (s : State) (v : Nat) : Bool := decide (v < s.stevedoreCount) && !s.fencedStevs.contains v

/-- A free context of a stevedore, and the first of any in service. -/
def State.freeContext (s : State) (v : Nat) : Option Nat :=
  ((List.range 32).map fun i => 32 * v + i).find? fun n => (s.stream n).st == .free
def State.anyContext (s : State) : Option Nat :=
  ((List.range s.stevedoreCount).filter fun v => s.stevedoreOk v).findSome? fun v => s.freeContext v

/-- The job of a stream that serves none. -/
def noJob : Nat := 2 ^ 64

/-- The reads that load one block: 256 B each, in tiles of 4 KiB, from an address; they go to the block's place by offset. -/
def blockUnits (src seq : Nat) : List SUnit :=
  (List.range 256).map fun i =>
    { st := .queued, src := src + 256 * i, dst := 256 * i, len := 256, tile := i / 16, last := i % 16 == 15, pos := {}, start := {}, seq := seq + i,
      data := [], xfer := seq + i }

/-- The load stream n of a model takes its next block, or ends. -/
def State.loadNext (s : State) (n m : Nat) : State :=
  let x := s.model m
  match x.toLoad with
  | [] => s.freeStream n
  | b :: _ =>
    { s with seq := s.seq + 256 }.putStream n { s.stream n with
      load := some (m, b), units := blockUnits (x.image + 65536 * b) s.seq,
      rcv := [⟨0, 0, false, 0, 0, true, 0, [], s.seq⟩] }

/-- Start the stream that loads what a model lacks, of the model's class, on the first free context: it is bulk, and has the rank 0.
Where no context is free it starts at a later boundary. DESIGN CHOICE (log 123). -/
def State.startLoader (s : State) (m : Nat) : State :=
  if (s.loader m).isSome || (s.model m).toLoad.isEmpty then s
  else match s.anyContext with
    | none => s
    | some n =>
      (s.putStream n { st := .reserving, gen := (s.stream n).gen, job := noJob, dstKind := 1, cls := (s.model m).cls, tileMax := 3,
                       startTide := s.tide, waitSince := some s.tide, load := some (m, 0) }).loadNext n m

/-- Start every load that waits for a context. -/
def State.startLoaders (s : State) : State := (s.models.map (·.1)).foldl (fun t m => t.startLoader m) s

/-- Start the load of an admitted job's model: the chosen models are evicted and the blocks assigned (R431). -/
def State.startLoad (s : State) (m cls : Nat) : State :=
  match s.roomFor m cls with
  | none => s
  | some (gone, bs, far) =>
    let s := gone.foldl (fun t g => t.evictModel g) s
    let s := s.loadOld m ((s.model m).retiring.getD 0) ((s.oldMissing m).zip (bs.drop (s.model m).missing.length))
    let x := s.model m
    let s := if far && (x.locality == 1 || x.locality == 2) then s.inc HMR_LOCALITY_OVERRIDES_COUNT 0 1 else s
    (s.setModel m { x with st := if x.st == .removing then .removing else .loading, cls := cls, blocks := x.blocks ++ x.missing.zip bs,
                           toLoad := x.missing }).startLoader m

/-- Models of admitted jobs that lost blocks to a way stop are loaded again, in admission order, as room allows. DESIGN CHOICE (log 28). -/
def State.loadAgain (s : State) : State :=
  s.jobs.foldl (fun t j =>
    let x := t.model j.model
    if j.kind == .run && (x.st == .stored || x.st == .removing) && x.toLoad.isEmpty && !x.missing.isEmpty then t.startLoad j.model j.cls else t) s

/-- Jobs that wait for a model. -/
def State.jobsOfModel (s : State) (m : Nat) : List Job := s.jobs.filter fun j => j.kind == .run && j.model == m

/-- A load fails: the model returns to STORED and its jobs end with MEMORY_ERROR (Table 13.4). -/
def State.loadFails (s : State) (m : Nat) (e : AccErr) : State :=
  let s := match e with
    | .memory a => s.memError a none
    | _ => s
  let s := (s.jobsOfModel m).foldl (fun u j => u.endJob j stMemoryError 0 none) s
  s.loseBlocks m fun _ => true

/-- The place of the block that a load stream has in hand. -/
def State.loadPlace (s : State) (l : Nat × Nat) : Option Nat := (((s.model l.1).blocks.find? fun p => p.1 == l.2).map (·.2)).map cacheAddr

/-- The block of a model that its load stream has in hand is written. -/
def State.blockIn (s : State) (m b : Nat) : Bool :=
  match s.loader m with
  | some n => (s.stream n).load == some (m, b) && (s.stream n).units.isEmpty
  | none => false

/-- The load stream goes on to its model's next block. The last block of a load waits for MODEL_LOAD_DONE, and one loaded again for
MODEL_BLOCK_RELOAD. -/
def State.loadOn (s : State) (n : Nat) : State :=
  match (s.stream n).load with
  | none => s
  | some (m, b) =>
    let x := s.model m
    if (s.stream n).units.isEmpty && x.st != .resident && decide (x.toLoad.length ≥ 2) then
      (s.putModel m { x with toLoad := x.toLoad.erase b }).loadNext n m
    else s

/-- MODEL_LOAD_DONE (R431, R265): the last block of a load is in. -/
def execModelLoadDone (model : Nat) (s : State) : Host.Outcome State Fault Refusal :=
  let x := s.model model
  if s.live && (x.st == .loading || x.st == .removing) && decide (x.toLoad.length ≤ 1) && x.toLoad.all (fun b => s.blockIn model b) then
    ok ((s.endLoad model).setModel model { x with st := if x.st == .loading then .resident else x.st, toLoad := [] })
  else ok s

/-! ### Stopping and starting admission (R433) -/

/-- Admission is stopped and no admitted job remains. -/
def State.drained (s : State) : Bool := s.flag HMR_ADMIT_CTL_STOP 0 && s.jobs.isEmpty

/-- Set or clear `STOP`: admission that stops leaves the descriptors to the next boundary at which it runs (R433). -/
def State.admissionCtl (s : State) (stop : Bool) : State :=
  if !stop && !s.serves then s
  else
  let t := { s with fetched := s.fetched.map fun (f : Fetched) => { f with due := f.due && !stop } }.put HMR_ADMIT_CTL_STOP 0 (b2n stop)
  t.put HMR_ADMIT_CTL_DRAINED 0 (b2n t.drained)

/-- ADMISSION_STOP (R433). -/
def execAdmissionStop (s : State) : Host.Outcome State Fault Refusal := ok (s.hostDo fun t => t.admissionCtl true)

/-- ADMISSION_DRAINED (R433). -/
def execAdmissionDrained (s : State) : Host.Outcome State Fault Refusal :=
  if s.drained then ok (s.put HMR_ADMIT_CTL_DRAINED 0 1) else ok s

/-- ADMISSION_START (R433, R432), where the lifecycle state has service (Table 14.9). -/
def execAdmissionStart (s : State) : Host.Outcome State Fault Refusal :=
  ok (s.hostDo fun t => t.admissionCtl false)

end Sys2Proof.Machine
end

