-- ==== Sys2Proof/Machine/Manifest.lean ====
section
/-! DEFINITION. Manifests and stream bindings (05): the instructions of Table 05.3, the check of R195, the loops of R196 and the
fields of a binding (Table 05.1). -/

namespace Sys2Proof.Machine

/-! ### Instructions (Table 05.3) -/

/-- A manifest instruction. -/
inductive MInsn where
  | fin
  | loop (body count : Nat)
  | stride (cur : Nat) (set : Bool) (value : Nat)
  | emit (tile noadv : Bool) (len : Nat)
  | gather (tile idx64 : Bool) (rowBytes count pitchLog2 : Nat)
  | align (cur log2 : Nat)
  | waitSlot (slots : Nat)
  | waitBar (first count addr : Nat)
  | signal (sigBit addr : Nat)
  deriving DecidableEq, Repr

/-- `BAR_ADDR` names a word of the device's own warehouse through the normal view (R195). -/
def barOk (a : Nat) : Bool := decide (whsBase ≤ a) && decide (a < whsBase + whsBytes)

/-- LOOP of Table 05.3. -/
def decodeLoop (w : Nat) : Option MInsn :=
  if bits w 4 4 == 0 && decide (1 ≤ bits w 8 8 ∧ bits w 8 8 ≤ 30) && bits w 48 16 == 0 then
    some (.loop (bits w 8 8) (bits w 16 32)) else none

/-- STRIDE of Table 05.3. -/
def decodeStride (w : Nat) : Option MInsn :=
  if decide (bits w 4 2 < 3) && decide (bits w 6 2 < 2) && bits w 8 8 == 0 then
    some (.stride (bits w 4 2) (bits w 6 2 == 1) (bits w 16 48)) else none

/-- EMIT of Table 05.3. -/
def decodeEmit (w : Nat) : Option MInsn :=
  if !bit w 5 && !bit w 7 && bits w 8 24 != 0 && bits w 32 32 == 0 then some (.emit (bit w 4) (bit w 6) (bits w 8 24)) else none

/-- GATHER of Table 05.3. -/
def decodeGather (w : Nat) : Option MInsn :=
  if bits w 6 2 == 0 && bits w 8 16 != 0 && decide (bits w 48 6 ≤ 40) && bits w 54 10 == 0 then
    some (.gather (bit w 4) (bit w 5) (bits w 8 16) (bits w 24 24) (bits w 48 6)) else none

/-- ALIGN of Table 05.3. -/
def decodeAlign (w : Nat) : Option MInsn :=
  if decide (bits w 4 2 < 3) && bits w 6 2 == 0 && decide (bits w 8 6 ≤ 40) && bits w 14 50 == 0 then
    some (.align (bits w 4 2) (bits w 8 6)) else none

/-- WAITSLOT of Table 05.3, in either mode. -/
def decodeWait (w : Nat) : Option MInsn :=
  if bit w 4 then
    if !bit w 5 && decide (bits w 6 6 + bits w 12 6 + 1 ≤ 64) && !bit w 18 && barOk (8 * bits w 19 45) then
      some (.waitBar (bits w 6 6) (bits w 12 6 + 1) (8 * bits w 19 45)) else none
  else if bits w 5 11 == 0 && decide (1 ≤ bits w 16 8 ∧ bits w 16 8 ≤ 128) && bits w 24 40 == 0 then some (.waitSlot (bits w 16 8))
  else none

/-- SIGNAL of Table 05.3. -/
def decodeSignal (w : Nat) : Option MInsn :=
  if bits w 10 9 == 0 && barOk (8 * bits w 19 45) then some (.signal (bits w 4 6) (8 * bits w 19 45)) else none

/-- An instruction word, or none where it holds a reserved encoding or a reserved bit (R195). -/
def decodeInsn (w : Nat) : Option MInsn :=
  match w % 16 with
  | 0 => if w == 0 then some .fin else none
  | 1 => decodeLoop w
  | 2 => decodeStride w
  | 3 => decodeEmit w
  | 4 => decodeGather w
  | 5 => decodeAlign w
  | 6 => decodeWait w
  | 7 => decodeSignal w
  | _ => none

/-! ### The check of R195 -/

/-- Last instructions of the loop bodies open at pc, innermost first. -/
def openAt (pc : Nat) (open' : List Nat) : List Nat := open'.dropWhile fun l => decide (l < pc)

/-- Every instruction from pc on decodes, bodies nest within one another and end at `last` at the latest, and at most six
levels nest. -/
def checkFrom (last : Nat) : Nat → List Nat → List Nat → Bool
  | _, _, [] => true
  | pc, opened, w :: t =>
    let o := openAt pc opened
    match decodeInsn w with
    | none => false
    | some (.loop body _) =>
      decide (o.length < 6) && decide (pc + body ≤ o.headD last) && checkFrom last (pc + 1) ((pc + body) :: o) t
    | some _ => checkFrom last (pc + 1) o t

/-- The words of a manifest, up to and including its first END, are well formed (R195). -/
def manifestOk (ws : List Nat) : Bool :=
  decide (ws.length ≤ 32) && ws.getLast?.map (· % 16) == some 0 && checkFrom (ws.length - 1) 0 [] ws

/-- Read a manifest up to its first END, or 32 words where none comes. -/
def State.manifestWords (s : State) (r : Req) (a : Nat) : Nat → Except AccErr (List Nat × State)
  | 0 => .ok ([], s)
  | k + 1 =>
    match s.read r a 8 with
    | .error e => .error e
    | .ok (bs, t) =>
      let w := leNat bs
      if w % 16 == 0 then .ok ([w], t)
      else match State.manifestWords t r (a + 8) k with
        | .error e => .error e
        | .ok (ws, u) => .ok (w :: ws, u)

/-! ### Loops and cursors (R196, R197) -/

/-- End the bodies that end at pc: the loops left, and the next instruction. -/
def closeLoops (pc next : Nat) : List Loop → List Loop × Nat
  | [] => ([], next)
  | l :: t =>
    if pc == l.last then if l.left > 1 then ({ l with left := l.left - 1 } :: t, l.first) else closeLoops pc next t
    else (l :: t, next)

/-- Go to the instruction after the one at pc, with `next` in place of pc + 1. -/
def Pos.goto (p : Pos) (next : Nat) : Pos :=
  let r := closeLoops p.pc next p.loops
  { p with pc := r.2, loops := r.1, off := 0 }

/-- The instruction after the one at pc. -/
def Pos.step (p : Pos) : Pos := p.goto (p.pc + 1)

/-- LOOP (R196): a level is opened, or the body is skipped. -/
def Pos.enter (p : Pos) (body count : Nat) : Pos :=
  if count == 0 then p.goto (p.pc + body + 1)
  else ({ p with loops := ⟨p.pc + 1, p.pc + body, count⟩ :: p.loops }).goto (p.pc + 1)

/-- A cursor of Table 05.3. -/
def Pos.cursor (p : Pos) : Nat → Int
  | 0 => p.src
  | 1 => p.dst
  | _ => p.idx

/-- Set a cursor. -/
def Pos.setCursor (p : Pos) (c : Nat) (v : Int) : Pos :=
  match c with
  | 0 => { p with src := v }
  | 1 => { p with dst := v }
  | _ => { p with idx := v }

/-- The range of a cursor (R197). -/
def inRange (v : Int) : Bool := decide (0 ≤ v) && decide (v < 2 ^ 48)

/-! ### Bindings (Table 05.1) -/

/-- A stream binding's fields. -/
structure Binding where
  manifest : Nat
  dstKind : Nat
  srcRemote : Bool
  cls : Nat
  multicast : Bool
  halfSel : Bool
  tileMax : Nat
  drain : Nat
  src : Nat
  dst : Nat
  idx : Nat
  device : Nat
  rcvList : Nat
  rcvCount : Nat
  grace : Nat
  deriving DecidableEq, Repr

def bindingOf (bs : List Byte) : Binding :=
  let w := leNat bs
  { manifest := bits w 0 40 * 256, dstKind := bits w 40 2, srcRemote := bit w 42, cls := bits w 43 2, multicast := bit w 45,
    halfSel := bit w 46, tileMax := bits w 48 4, drain := bits w 52 12, src := bits w 64 48, dst := bits w 128 48,
    idx := bits w 192 48, device := bits w 256 12, rcvList := bits w 288 40 * 256, rcvCount := bits w 328 6 + 1,
    grace := bits w 336 8 }

/-- The binding meets Table 05.1, given the mooring's size in bytes. -/
def bindingOk (bs : List Byte) (mooring : Nat) : Bool :=
  let w := leNat bs
  let b := bindingOf bs
  decide (b.dstKind < 3) && !(b.srcRemote && b.dstKind == 2) && !(b.multicast && b.dstKind != 0) && !bit w 47 && bits w 112 16 == 0 &&
  bits w 176 16 == 0 && bits w 240 16 == 0 && bits w 268 4 == 0 && bits w 282 6 == 0 && bits w 334 2 == 0 && bits w 344 8 == 0 &&
  bits w 368 144 == 0 && (b.dstKind != 0 || decide (b.dst < mooring))

/-- The entries of a receiver list name tasks of the unit, each once, with reserved bits 0 (R190, R191). -/
def receiversOk (es : List Nat) (tasks : Nat) : Bool := (es.all fun e => decide (e < tasks)) && decide es.Nodup

end Sys2Proof.Machine
end

