-- ==== Sys2Proof/Machine/Stream.lean ====
section
/-! DEFINITION. Streams (05): starting, reservations, executing a manifest, tags, landing, accepting tiles and ready bits. -/

namespace Sys2Proof.Machine

/-! ### What a stream is -/

/-- Change one stream. -/
def State.setStream (s : State) (n : Nat) (f : Stream → Stream) : State := s.putStream n (f (s.stream n))

/-- What a stream's accesses ask as: its own class, and the model and version of its job. -/
def State.streamReq (s : State) (x : Stream) : Req :=
  { cls := some x.cls, model := (s.job x.job).bind fun j => if j.kind == .run then some (j.model, j.version) else none }

/-- A receiver still has to write a unit. -/
def Rcv.needs (r : Rcv) (u : SUnit) : Bool := r.attached && decide (r.next ≤ u.seq) && decide (r.accepted ≤ u.tile)

/-- Tiles that the slowest attached receiver has accepted. -/
def Stream.slowest (x : Stream) : Nat :=
  match (x.rcv.filter (·.attached)).map (·.accepted) with
  | [] => 0
  | a :: t => t.foldl min a

/-- Drop the units of tiles that every attached receiver has accepted (R210, R215). -/
def Stream.dropDone (x : Stream) : Stream :=
  { x with units := x.units.filter fun u => x.rcv.any fun r => r.attached && decide (r.accepted ≤ u.tile) }

/-- Every unit is written for every attached receiver, and acknowledged. -/
def Stream.allWritten (x : Stream) : Bool := x.units.all fun u => x.rcv.all fun r => !r.needs u

/-- The virtual channel of a class's stream traffic (Table 12.3). -/
def classVc (c : Nat) : Nat := if c < 2 then 1 else 2

/-- Granules that a stream reserves in each pool it needs (R205, R228). -/
def Stream.granules (x : Stream) : Nat := 4 * (x.tileMax + 1)

/-- The quay that a device is reached through (R490, R498). -/
def State.quayTo (s : State) (d : Nat) : Nat :=
  match Tab.find d s.routes with
  | some r => if r.useAlt then r.alternate else r.primary
  | none => 63

/-- Local pools that stream n needs, in the order of Table 05.10. -/
def State.poolsNeeded (s : State) (n : Nat) (x : Stream) : List Nat :=
  [s.stevedoreDie (stevedoreOf n)] ++ (if x.srcRemote then [2 + x.quay] else [])

/-- Granules of a pool in use. -/
def State.poolUsed (s : State) (p : Nat) : Nat :=
  ((s.streams.filter fun e => e.2.pools.contains p).map fun e => e.2.granules).sum +
  ((s.remoteHolds.filter fun h => decide (h.quay + 2 = p)).map (·.granules)).sum

/-- A ready bit, by kiln, half and slot of the half. -/
def readyKey (k : Nat) (half : Bool) (slot : Nat) : Nat := 256 * k + 128 * b2n half + slot
def State.isReady (s : State) (k : Nat) (half : Bool) (slot : Nat) : Bool := Tab.get (fun _ => false) s.ready (readyKey k half slot)
def State.setReady (s : State) (k : Nat) (half : Bool) (slot : Nat) (b : Bool) : State :=
  { s with ready := Tab.set (fun _ => false) (readyKey k half slot) b s.ready }

/-- Slots of a mooring that [d, d + k) touches. -/
def slotsIn (d k : Nat) : List Nat := if k == 0 then [] else (List.range ((d + k - 1) / 4096 - d / 4096 + 1)).map (d / 4096 + ·)

/-! ### Halts (R220 to R222) -/

/-- Bytes 16 to 63 of a stream fault record (Table 05.9). -/
def streamFaultBytes (n gen reason addr : Nat) (p : Pos) : List Byte :=
  leBytes 8 (addr % 2 ^ 48) ++ leBytes 4 (n + 2 ^ 16 * gen) ++ leBytes 1 reason ++ leBytes 1 (p.pc + 32 * p.loops.length) ++ [0, 0] ++
  ((List.range 6).flatMap fun i => leBytes 4 ((p.loops.reverse.map (·.left)).getD i 0)) ++ leBytes 4 p.off ++ leBytes 4 p.tile

/-- Slots of the mooring that a manifest writes from a position on. `fuel` bounds the instructions followed. -/
def futureSlots (code : List Nat) : Nat → Pos → List Nat
  | 0, _ => []
  | k + 1, p =>
    match (code[p.pc]?).bind decodeInsn with
    | none => []
    | some .fin => []
    | some (.loop body count) => futureSlots code k (p.enter body count)
    | some (.stride cur set v) => futureSlots code k (p.setCursor cur (if set then v else p.cursor cur + toSigned 48 v)).step
    | some (.align cur lg) => futureSlots code k (p.setCursor cur (roundUp (p.cursor cur).toNat (2 ^ lg) : Nat)).step
    | some (.emit _ noadv len) =>
      slotsIn p.dst.toNat len ++
        futureSlots code k (if noadv then p else { p with src := p.src + len, dst := p.dst + len }).step
    | some (.gather _ _ rowBytes count _) =>
      let n := rowBytes * (count - p.off)
      slotsIn p.dst.toNat n ++ futureSlots code k { p with dst := p.dst + n }.step
    | some (.waitSlot _) => futureSlots code k p.step
    | some (.waitBar _ _ _) => futureSlots code k p.step
    | some (.signal _ _) => futureSlots code k p.step

/-- The stream still has to fill a slot of a receiver's mooring: one it has begun to write, or one that its manifest goes on to. The
manifest is followed for 4,096 instructions. DESIGN CHOICE (log 108). -/
def Stream.fills (x : Stream) (r : Rcv) (slots : List Nat) : Bool :=
  slots.any fun i => (r.wrote.any fun w => w.1 == i) || (futureSlots x.code 4096 x.pos).contains i

/-- A HALTED stream feeds one of the slots that a task waits for in its working half (R222). -/
def State.fedByHalted (s : State) (k c : Nat) (slots : List Nat) : Bool :=
  s.streams.any fun e => e.2.st == .halted && e.2.dstKind == 0 && e.2.rcv.any fun r =>
    r.attached && r.kiln == k && r.slot == c && r.half == (s.ctx k c).half && e.2.fills r slots

/-- A BOUNDS stream whose earlier units are all written ends its job (R197, R221). -/
def State.endBounded (s : State) (n : Nat) : State :=
  let x := s.stream n
  if x.st == .halted && x.reason == 3 && x.allWritten then s.endJobOf x.job stBounds else s

/-- Halt a stream: units from age `from'` on are discarded, the position saved, the generation raised and the record written, and
the tasks that wait for its tiles halt (R220 to R222). The units before the fault still land. -/
def State.haltStream (s : State) (n reason : Nat) (p : Pos) (from' addr : Nat) : State :=
  let x := s.stream n
  let gone := (x.units.filter fun u => decide (from' ≤ u.seq) && u.st == .inFlight).length
  let g := (x.gen + 1) % 2 ^ 16
  let s := (s.freeTags n gone).putStream n
    { x with st := .halted, reason := reason, gen := g, pos := p, wait := .none, ended := false, units := x.units.filter fun u => decide (u.seq < from'),
             left := x.left.filter fun l => decide (l.2 ≤ from') }
  let s := (s.postEvent (s.eventHeader 0x01 0 (s.job x.job) s.stampTide ++ streamFaultBytes n g reason addr p)).traceJob 4 (s.job x.job) n
  let s := x.rcv.foldl (fun t r =>
    if r.attached && (t.ctx r.kiln r.slot).st == .waitTile && t.fedByHalted r.kiln r.slot (t.ctx r.kiln r.slot).late then t.haltTask r.kiln r.slot 4
    else t) s
  s.endBounded n

/-- REASON of Table 05.9 for a refused access, none where the access fails otherwise. -/
def AccErr.reason : AccErr → Option Nat
  | .hostMiss => some 1
  | .absent => some 2
  | .bounds => some 3
  | _ => none

/-- A stream's access fails: the stream halts (R220), or the job meets an uncorrectable word or lost memory. -/
def State.streamAccess (s : State) (n : Nat) (e : AccErr) (p : Pos) (from' addr : Nat) : State :=
  match e.reason with
  | some r => s.haltStream n r p from' addr
  | none => s.accessFailed (s.stream n).job e

/-! ### Starting (R189 to R192) -/

/-- The slot where a task of a job's unit is placed. -/
def Job.placed (j : Job) (unit task : Nat) : Option (Nat × Nat) :=
  match j.units.find? fun u => u.no == unit with
  | some u => match u.tasks[task]? with
    | some (.placed k c) => some (k, c)
    | _ => none
  | none => none

/-- The receiver for a placed task: the physical half is resolved now (R192). -/
def State.receiver (s : State) (halfSel : Bool) (task first : Nat) (at' : Nat × Nat) : Rcv :=
  let x := s.ctx at'.1 at'.2
  ⟨at'.1, at'.2, x.half != halfSel, x.base, task, true, first, [], s.seq⟩

/-- A binding of a unit, for the stream that feeds `task` with it: the task among whose bindings it lies and its number there, whether
the stream is a catch-up, and the first tile that it needs (R217, R227). -/
structure BindRef where
  task : Nat
  owner : Nat
  bind : Nat
  catching : Bool := false
  tile : Nat := 0
  deriving DecidableEq, Repr

/-- A stream as its binding and its job make it, not yet holding any reservation. -/
def State.newStream (s : State) (j : Job) (unit : Nat) (f : BindRef) (b : Binding) (rcv : List Rcv) (ws : List Nat) : Stream :=
  let p : Pos := { src := b.src, dst := b.dst, idx := b.idx }
  { st := .reserving, gen := 0, job := j.id, unit := unit, task := f.task, owner := f.owner, manifest := b.manifest, dstKind := b.dstKind,
    srcRemote := b.srcRemote, cls := b.cls, multicast := b.multicast && !f.catching, catching := f.catching, loading := b.halfSel,
    tileMax := b.tileMax, drain := b.drain, device := b.device, grace := b.grace, rank := j.unitRank unit, rcv := rcv, start := p, pos := p,
    skipTo := f.tile, startTide := s.tide, quay := s.quayTo b.device, waitSince := some s.tide, code := ws, tileAt := p, bind := f.bind }

/-- Tasks that a binding's stream feeds: its own, or those of its receiver list; none where the list is malformed. A catch-up stream
feeds its one receiver. -/
def State.receiverTasks (s : State) (r : Req) (b : Binding) (f : BindRef) (tasks : Nat) : Except AccErr (Option (List Nat) × State) :=
  if b.multicast && !f.catching then
    match s.read r b.rcvList (2 * b.rcvCount) with
    | .error e => .error e
    | .ok (bs, t) =>
      let es := (List.range b.rcvCount).map fun i => fieldOf bs (2 * i) 2
      .ok (if receiversOk es tasks then some es else none, t)
  else .ok (some [f.task], s)

/-- The first tile that a restarting stream needs (R227); 0 for one that starts. -/
def UnitRun.skipOf (u : UnitRun) (task bind : Nat) : Nat :=
  match u.skips.find? fun k => k.1 == task && k.2.1 == bind with
  | some k => k.2.2
  | none => 0

/-- Change a unit of a job. -/
def Job.setUnit (j : Job) (no : Nat) (f : UnitRun → UnitRun) : Job :=
  { j with units := j.units.map fun u => if u.no == no then f u else u }

/-- Mark a binding's stream as started, and as shared when it is a multicast. -/
def Job.startedBind (j : Job) (no : Nat) (f : BindRef) (multicast : Bool) : Job :=
  j.setUnit no fun v => { v with started := (f.owner, f.bind) :: v.started.erase (f.owner, f.bind),
                                 shared := if multicast then (f.owner, f.bind) :: v.shared.erase (f.owner, f.bind) else v.shared }

/-- A read of a binding, a receiver list or a manifest fails: the stream halts at its first instruction (R647, R220), or the job meets
an uncorrectable word or lost memory. -/
def State.haltStart (s : State) (n : Nat) (j : Job) (u : UnitRun) (f : BindRef) (e : AccErr) (addr : Nat) : State :=
  match e.reason with
  | none => s.accessFailed j.id e
  | some r =>
    let g := ((s.stream n).gen + 1) % 2 ^ 16
    let s := s.putStream n { st := .halted, reason := r, gen := g, job := j.id, unit := u.no, task := f.task, owner := f.owner, bind := f.bind,
                             catching := f.catching, skipTo := f.tile, rank := j.unitRank u.no, startTide := s.tide, fresh := true }
    let s := if f.catching then s else s.putJob (j.startedBind u.no f false)
    let s := (s.postEvent (s.eventHeader 0x01 0 (some j) s.stampTide ++ streamFaultBytes n g r addr {})).traceJob 4 (some j) n
    s.endBounded n

/-- Read a binding's manifest, and where it fails the address. -/
def State.bindingManifest (s : State) (r : Req) (a : Nat) : Except (AccErr × Nat) (List Nat × State) :=
  match s.manifestWords r a 32 with
  | .ok p => .ok p
  | .error e => .error (e, ((List.range 32).map fun i => a + 8 * i).find? (fun b => (s.accessErr r false b 8).isSome) |>.getD a)

/-- Load a stream for a binding of a unit's task (R189 to R191, R195, R647): malformed bindings and manifests complete the job,
and a multicast waits until every task of its list is placed. -/
def State.loadStream (s : State) (n : Nat) (j : Job) (u : UnitRun) (f : BindRef) : State :=
  let x := s.model j.model
  let a := x.image + x.bindOff + 64 * (u.firstBind + f.owner * u.binds + f.bind)
  match s.read {} a 64 with
  | .error e => s.haltStart n j u f e a
  | .ok (bs, s) =>
    let b := bindingOf bs
    let r : Req := { cls := some b.cls, model := some (j.model, j.version) }
    if !bindingOk bs (4096 * u.mooring) then s.endJob j stMalformed 0 none
    else match s.receiverTasks r b f u.tasks.length with
      | .error e => s.haltStart n j u f e b.rcvList
      | .ok (none, s) => s.endJob j stMalformed 0 none
      | .ok (some ts, s) =>
        match s.bindingManifest r b.manifest with
        | .error e => s.haltStart n j u f e.1 e.2
        | .ok (ws, s) =>
          if !manifestOk ws then s.endJob j stMalformed 0 none
          else
            let places := ts.filterMap fun t => (j.placed u.no t).map fun p => (t, p)
            if places.length < ts.length then s
            else
              let rcv := places.map fun p => s.receiver b.halfSel p.1 f.tile p.2
              let y := s.newStream j u.no f b rcv ws
              let s := s.putStream n { y with gen := (s.stream n).gen }
              if f.catching then s else s.putJob (j.startedBind u.no f b.multicast)

/-- STREAM_START (R189): the harbourmaster loads a binding of a placed task into a free context, while every block of the model is
resident (R264). -/
def execStreamStart (stream job unit task bind : Nat) (s : State) : Host.Outcome State Fault Refusal :=
  if s.live && s.stevedoreOk (stevedoreOf stream) && (s.stream stream).st == .free then
    match s.job job with
    | some j =>
      match j.units.find? fun u => u.no == unit with
      | some u =>
        if u.dispatched && s.modelWhole j.model && decide (bind < u.binds) && (j.placed unit task).isSome && !u.started.contains (task, bind) then
          ok (s.loadStream stream j u { task := task, owner := task, bind := bind, tile := u.skipOf task bind })
        else ok s
      | none => ok s
    | none => ok s
  else ok s

/-! ### Reservations (R228, R229) -/

/-- A stream that holds everything it needs runs. -/
def State.runIfReserved (s : State) (n : Nat) : State :=
  let x := s.stream n
  if x.st == .reserving && decide (x.pools.length ≥ (s.poolsNeeded n x).length) && (x.dstKind != 2 || x.remote) then
    s.putStream n { x with st := .running, waitSince := none }
  else s

/-- Take the next local reservation of a starting stream; after the last, ask for the remote one. -/
def State.takeReservation (s : State) (n : Nat) : State :=
  let x := s.stream n
  match (s.poolsNeeded n x)[x.pools.length]? with
  | none => s
  | some p =>
    if s.poolUsed p + x.granules ≤ 8192 then
      let y := { x with pools := x.pools ++ [p], waitSince := some s.tide }
      let asks := y.dstKind == 2 && y.pools.length == (s.poolsNeeded n x).length
      let t := s.putStream n { y with asked := asks }
      let t := if asks then t.send (.net x.device (classVc x.cls) (.reserve s.me n x.granules)) else t
      t.runIfReserved n
    else s

/-- RESERVATION_TAKE (R229). -/
def execReservationTake (stream : Nat) (s : State) : Host.Outcome State Fault Refusal :=
  if s.live && (s.stream stream).st == .reserving then ok (s.takeReservation stream) else ok s

/-- Grant the reservations that wait at a quay, in order of arrival, while each has room (R229). -/
def State.serveRemote (s : State) (q : Nat) : List RemoteHold → State
  | [] => s
  | h :: t =>
    if h.quay != q then State.serveRemote s q t
    else if s.poolUsed (q + 2) + h.granules ≤ 8192 then
      State.serveRemote ({ s with remoteHolds := s.remoteHolds ++ [h], remoteWaits := s.remoteWaits.erase h }.send
        (.net h.device 1 (.reserveGrant h.stream))) q t
    else s

/-- A reservation of another device's stream at a quay of this one is asked for, or given back with 0 granules (R229). -/
def State.grantRemote (s : State) (q d n g : Nat) : State :=
  let theirs := fun (h : RemoteHold) => h.device == d && h.stream == n
  let s :=
    if g == 0 then { s with remoteHolds := s.remoteHolds.filter fun h => !theirs h, remoteWaits := s.remoteWaits.filter fun h => !theirs h }
    else if s.remoteHolds.any theirs || s.remoteWaits.any theirs then s
    else { s with remoteWaits := s.remoteWaits ++ [⟨q, d, n, g⟩] }
  s.serveRemote q s.remoteWaits

/-- The grant of a stream's remote reservation arrives; one that the stream no longer waits for is given back (R232). -/
def State.takeGrant (s : State) (n : Nat) : State :=
  let x := s.stream n
  if x.remote then s
  else if x.st == .reserving && x.asked then (s.putStream n { x with remote := true }).runIfReserved n
  else if x.dstKind == 2 && x.st != .free then s.send (.net x.device (classVc x.cls) (.reserveRelease s.me n))
  else s

/-- REMOTE_RESERVATION_GRANT (R229): for a stream of this device the grant arrives; for another device's, the quay grants it. -/
def execRemoteReservationGrant (quay device stream granules : Nat) (s : State) : Host.Outcome State Fault Refusal :=
  if !s.hears device then ok s
  else if device == s.me then ok (s.takeGrant stream)
  else ok (s.grantRemote quay device stream granules)

/-! ### Executing a manifest (R196 to R200) -/

/-- A stream executes: it runs, and no WAITSLOT holds it. -/
def Stream.executes (x : Stream) : Bool := x.st == .running && x.wait == .none

/-- The instruction a stream executes next. -/
def State.insnOf (s : State) (n : Nat) : Option MInsn :=
  let x := s.stream n
  if s.live && x.executes then (x.code[x.pos.pc]?).bind decodeInsn else none

/-- The destination cursor has moved: slots that it passed are left (R203). `touched` are those a transfer reached. -/
def State.leaveSlots (s : State) (x : Stream) (old new : Int) (touched : List Nat) : Stream :=
  if x.dstKind == 0 && old != new then
    let gone := ((old.toNat / 4096) :: touched).dedup.filter fun k => k != new.toNat / 4096
    { x with left := gone.map (fun k => (k, s.seq)) ++ x.left }
  else x

/-- An attached receiver's mooring ends before byte `past` (R197). -/
def State.pastMooring (s : State) (x : Stream) (past : Nat) : Bool :=
  x.dstKind == 0 && x.rcv.any fun r => r.attached && decide (past > 4096 * (s.ctx r.kiln r.slot).slots)

/-- The first unit of a transfer that breaks a bound (R197, R198): a cursor's range, a mooring, or the tile's size. -/
def State.unitPast (s : State) (x : Stream) (src dst : Nat) (ps : List (Nat × Nat)) : Option Nat :=
  ps.findIdx? fun p =>
    let e := p.1 + p.2 - src
    decide (src + e > 2 ^ 48) || decide (dst + e > 2 ^ 48) || s.pastMooring x (dst + e) || decide (x.pos.tileBytes + e > 1024 * (x.tileMax + 1))

/-- Queue the units [k, m) of one transfer of `len` bytes (R198, R201, R209), each with the position it reissues from. `at'` is the
position of a unit. While a restart fast-forwards no unit is queued (R227). -/
def State.queueTransfer (s : State) (x : Stream) (src dst len k m : Nat) (tileEnd : Bool) (at' : Nat → Pos) : Stream × State :=
  let p := x.pos
  let start := if p.tileBytes == 0 then at' 0 else x.tileAt
  let ps := piecesOf src len
  let us := ((ps.zipIdx.filter fun e => decide (k ≤ e.2) && decide (e.2 < m)).zipIdx).map fun e =>
    let a := e.1.1.1
    ({ st := .queued, src := a, dst := dst + (a - src), len := e.1.1.2, tile := p.tile, last := tileEnd && decide (e.1.2 + 1 = ps.length),
       pos := at' e.1.2, start := start, seq := s.seq + e.2, data := [], xfer := s.seq } : SUnit)
  let us := if p.tile < x.skipTo then [] else us
  let x := { x with units := x.units ++ us, tileAt := start }
  let x := if tileEnd then { x with pos := { p with tile := p.tile + 1, tileBytes := 0 } }
    else { x with pos := { p with tileBytes := p.tileBytes + len } }
  (x, { s with seq := s.seq + us.length })

/-- One transfer of a stream from unit k on: where a unit breaks a bound, or the cursors leave their range after it, the units before
are queued and the stream halts with BOUNDS (R197, R198, R221); else the transfer is queued and `go` gives the stream after it. -/
def State.transfer (s : State) (n src dst len k : Nat) (tileEnd out : Bool) (at' : Nat → Pos) (go : Stream → State → State) : State :=
  let x := s.stream n
  let ps := piecesOf src len
  match (s.unitPast x src dst ps).or (if out then some ps.length else none) with
  | some m =>
    let (y, t) := s.queueTransfer x src dst len k m false at'
    (t.putStream n { y with pos := x.pos }).haltStream n 3 (at' m) t.seq ((ps.map (·.1)).getD m (src + len))
  | none =>
    let (y, t) := s.queueTransfer x src dst len k ps.length tileEnd at'
    go y t

/-- EMIT (R196 to R198). `OFFSET` counts 256 for each unit. DESIGN CHOICE (log 87). -/
def State.runEmit (s : State) (n : Nat) (tile noadv : Bool) (len : Nat) : State :=
  let p := (s.stream n).pos
  let moved := if noadv then p else { p with src := p.src + len, dst := p.dst + len }
  s.transfer n p.src.toNat p.dst.toNat len (p.off / 256) tile (!(inRange moved.src && inRange moved.dst)) (fun i => { p with off := 256 * i })
    fun y t =>
      let y := { y with pos := { y.pos with src := moved.src, dst := moved.dst }.step }
      t.putStream n (t.leaveSlots y p.dst moved.dst (if noadv then [] else slotsIn p.dst.toNat len))

/-- The state after one row of a GATHER, and whether it goes on. -/
def State.runRow (s : State) (n : Nat) (tile idx64 : Bool) (rowBytes pitch : Nat) : Bool × State :=
  let x := s.stream n
  let p := x.pos
  let w : Nat := if idx64 then 8 else 4
  match s.read (s.streamReq x) p.idx.toNat w with
  | .error e => (false, s.streamAccess n e p s.seq p.idx.toNat)
  | .ok (bs, s) =>
    let src := p.src.toNat + leNat bs * 2 ^ pitch
    if src ≥ 2 ^ 48 then (false, s.haltStream n 3 p s.seq (src % 2 ^ 48))
    else
      let t := s.transfer n src p.dst.toNat rowBytes 0 tile (!(inRange (p.idx + w) && inRange (p.dst + rowBytes))) (fun _ => p) fun y t =>
        let q := { y.pos with idx := p.idx + w, dst := p.dst + rowBytes, off := p.off + 1 }
        t.putStream n (t.leaveSlots { y with pos := q } p.dst q.dst (slotsIn p.dst.toNat rowBytes))
      ((t.stream n).st == .running, t)

/-- Rows of a GATHER from the position on, `k` of them. -/
def State.runRows (s : State) (n : Nat) (tile idx64 : Bool) (rowBytes pitch : Nat) : Nat → State
  | 0 => s.setStream n fun x => { x with pos := x.pos.step }
  | k + 1 =>
    match s.runRow n tile idx64 rowBytes pitch with
    | (true, t) => State.runRows t n tile idx64 rowBytes pitch k
    | (false, t) => t

/-- A cursor takes a new value (STRIDE, ALIGN). -/
def State.moveCursor (s : State) (n c : Nat) (v : Int) : State :=
  let x := s.stream n
  if !inRange v then s.haltStream n 3 x.pos s.seq (x.pos.cursor c).toNat
  else
    let y := { x with pos := (x.pos.setCursor c v).step }
    s.putStream n (if c == 1 then s.leaveSlots y x.pos.dst v [] else y)

/-! ### Slow receivers (R215, R216) and what a stream waits for -/

/-- A slot that a receiver is about to write is taken: its ready bit is set, or it has been left and is still to be made ready
(R202, R203). -/
def State.slotTaken (s : State) (x : Stream) (r : Rcv) (seq slot : Nat) : Bool :=
  s.isReady r.kiln r.half (r.base + slot) ||
  x.left.any fun l => l.1 == slot && decide (l.2 ≤ seq) && r.wrote.any fun w => w.1 == slot && decide (w.2 < l.2)

/-- A receiver is ready to accept a tile: the tile's next unit for it can be written where it goes. -/
def State.readyFor (s : State) (x : Stream) (r : Rcv) (tile : Nat) : Bool :=
  match x.units.find? fun u => r.needs u && u.tile == tile with
  | some u => x.dstKind != 0 || !((slotsIn u.dst u.len).any fun k => s.slotTaken x r u.seq k)
  | none => false

/-- A receiver is more than four tiles behind: another attached receiver is ready to accept a tile more than four beyond it (R216). -/
def State.tooSlow (s : State) (x : Stream) (r : Rcv) : Bool :=
  x.multicast && r.attached && x.rcv.any fun q => q.attached && decide (r.accepted + 4 ≤ q.accepted) && s.readyFor x q q.accepted

/-- A stream that runs is held: the next unit to write meets a set ready bit, or a slow receiver keeps it from reading on (R192). -/
def State.streamHeld (s : State) (x : Stream) : Bool :=
  x.st == .running &&
  ((x.dstKind == 0 && x.rcv.any fun r => r.attached && match x.units.find? fun u => r.needs u with
      | some u => u.st == .landed && (slotsIn u.dst u.len).any fun k => s.slotTaken x r u.seq k
      | none => false) ||
   ((x.rcv.any fun r => r.attached && decide (x.slowest < r.accepted)) &&
      x.units.any fun u => u.st == .queued && decide (x.slowest + 4 ≤ u.tile)))

/-- STATE of a stream as its register shows it (Table 05.2). -/
def State.streamCode (s : State) (x : Stream) : Nat := if s.streamHeld x then StreamState.waiting.code else x.st.code

/-- Position at the start of a receiver's first unaccepted tile. -/
def Stream.posOf (x : Stream) (tile : Nat) : Pos :=
  match x.units.find? fun u => u.tile == tile with
  | some u => { u.start with tile := tile, tileBytes := 0 }
  | none => if x.pos.tileBytes == 0 then x.pos else { x.tileAt with tile := tile, tileBytes := 0 }

/-- The catch-up stream of a receiver (R217), not yet started. -/
def Stream.catchUp (x : Stream) (r : Rcv) : Stream :=
  { x with st := .reserving, multicast := false, catching := true, task := r.task, rcv := [{ r with attached := true }], pos := x.posOf r.accepted,
           tileAt := x.posOf r.accepted, units := [], skipTo := 0, wait := .none, pools := [], asked := false, remote := false, ended := false,
           left := [], aborts := 0, reason := 0 }

/-- The stream that waits to catch up for a receiver: from where the stream stands, or from its binding where the receiver lost what it
had (R191, R217). -/
def Stream.waits (x : Stream) (v : Nat) (r : Rcv) (lost : Bool) : CatchUp :=
  { stev := some v, job := x.job, unit := x.unit, task := r.task, owner := x.owner, bind := x.bind, tile := r.accepted,
    stream := if lost then none else some (x.catchUp r), unplaced := lost }

/-- Detach a receiver (R217, R218): its catch-up stream waits for a context, and for a place where the receiver lost its own.
With no receiver left the stream ends. -/
def State.detach (s : State) (n i : Nat) (lost : Bool) : State :=
  let x := s.stream n
  let v := stevedoreOf n
  match x.rcv[i]? with
  | none => s
  | some r =>
    let s := s.inc STV_DETACHES_COUNT v 1
    let s := (s.put STV_DETACH_LAST_CONTEXT v (n % 32)).put STV_DETACH_LAST_KILN v r.kiln
    let s := (s.put STV_DETACH_LAST_CTX v r.slot).put STV_DETACH_LAST_VALID v 1
    let s := { s with catchUps := s.catchUps ++ [x.waits v r lost] }
    let y := { x with rcv := x.rcv.set i { r with attached := false } }
    let z := y.dropDone
    let s := (s.freeTags n (x.inFlight - z.inFlight)).putStream n z
    if y.rcv.any (·.attached) then s else s.freeStream n

/-- With `DETACH_GRACE` 0 every receiver too far behind is detached at once (R216, R218). -/
def State.detachSlow (s : State) (n : Nat) : State :=
  let x := s.stream n
  if x.grace == 0 then ((List.range x.rcv.length).filter fun i => x.rcv[i]?.any fun r => s.tooSlow x r).foldl (fun t i => t.detach n i false) s
  else s

/-- A stream's reads may issue: it has its reservations. A halted stream still reads what came before its fault (R221). -/
def Stream.mayRead (x : Stream) : Bool := x.st == .running || x.st == .waiting || x.st == .draining || x.st == .halted

/-- RECEIVER_DETACH (R216): the grace of a receiver that is more than four tiles behind has run out. -/
def execReceiverDetach (stream receiver : Nat) (s : State) : Host.Outcome State Fault Refusal :=
  let x := s.stream stream
  match x.rcv[receiver]? with
  | some r => if s.live && x.mayRead && s.tooSlow x r then ok (s.detach stream receiver false) else ok s
  | none => ok s

/-! ### Manifest commands -/

/-- EMIT (R198). -/
def execEmit (stream : Nat) (s : State) : Host.Outcome State Fault Refusal :=
  match s.insnOf stream with
  | some (.emit tile noadv len) => ok ((s.runEmit stream tile noadv len).detachSlow stream)
  | _ => ok s

/-- GATHER (R196). -/
def execGather (stream : Nat) (s : State) : Host.Outcome State Fault Refusal :=
  match s.insnOf stream with
  | some (.gather tile idx64 rowBytes count pitch) =>
    ok ((s.runRows stream tile idx64 rowBytes pitch (count - (s.stream stream).pos.off)).detachSlow stream)
  | _ => ok s

/-- LOOP (R196). -/
def execLoop (stream : Nat) (s : State) : Host.Outcome State Fault Refusal :=
  match s.insnOf stream with
  | some (.loop body count) => ok (s.setStream stream fun x => { x with pos := x.pos.enter body count })
  | _ => ok s

/-- STRIDE (R196): add a signed amount, or set. -/
def execStride (stream : Nat) (s : State) : Host.Outcome State Fault Refusal :=
  match s.insnOf stream with
  | some (.stride cur set value) =>
    ok (s.moveCursor stream cur (if set then value else (s.stream stream).pos.cursor cur + toSigned 48 value))
  | _ => ok s

/-- ALIGN (R196): round up. -/
def execAlign (stream : Nat) (s : State) : Host.Outcome State Fault Refusal :=
  match s.insnOf stream with
  | some (.align cur lg) => ok (s.moveCursor stream cur (roundUp ((s.stream stream).pos.cursor cur).toNat (2 ^ lg) : Nat))
  | _ => ok s

/-- WAITSLOT in slot mode is met (R199). Slots counted past the mooring or past slot 127 of the half are the next ready bits in their
order, of another task, half or kiln. DESIGN CHOICE (log 109). -/
def State.slotsClear (s : State) (x : Stream) (slots : Nat) : Bool :=
  if x.dstKind == 0 then
    (x.rcv.filter (·.attached)).all fun r => (List.range slots).all fun i => !s.isReady r.kiln r.half (r.base + x.pos.dst.toNat / 4096 + i)
  else x.allWritten

/-- Go on after a WAITSLOT that is met, or wait. -/
def State.waitSlotted (s : State) (n : Nat) (w : StreamWait) (met : Bool) : State :=
  s.setStream n fun x => if met then { x with st := .running, wait := .none, pos := x.pos.step } else { x with st := .waiting, wait := w }

/-- The instruction of a stream that a WAITSLOT holds. -/
def State.heldInsn (s : State) (n : Nat) : Option MInsn :=
  let x := s.stream n
  if s.live && (x.executes || x.st == .waiting) then (x.code[x.pos.pc]?).bind decodeInsn else none

/-- WAITSLOT in slot mode (R199); a stream that waits goes on once the slots are clear. -/
def execWaitslotSlot (stream : Nat) (s : State) : Host.Outcome State Fault Refusal :=
  match s.heldInsn stream with
  | some (.waitSlot slots) => ok (s.waitSlotted stream .slots (s.slotsClear (s.stream stream) slots))
  | _ => ok s

/-- The barrier word's bits are all set, or the failed read. -/
def State.barrierMet (s : State) (x : Stream) (first count addr : Nat) : Except AccErr (Bool × State) :=
  match s.read (s.streamReq x) addr 8 with
  | .error e => .error e
  | .ok (bs, t) => .ok (bits (leNat bs) first count == 2 ^ count - 1, t)

/-- Read a WAITSLOT's barrier word, and go on or wait. -/
def State.waitBarrier (s : State) (n first count addr : Nat) : State :=
  match s.barrierMet (s.stream n) first count addr with
  | .ok (met, t) => t.waitSlotted n .barrier met
  | .error e => s.streamAccess n e (s.stream n).pos s.seq addr

/-- WAITSLOT in barrier mode (R199). -/
def execWaitslotBarrier (stream : Nat) (s : State) : Host.Outcome State Fault Refusal :=
  match s.insnOf stream with
  | some (.waitBar first count addr) => ok (s.waitBarrier stream first count addr)
  | _ => ok s

/-- WAITSLOT_REREAD (R199): the word is read again. -/
def execWaitslotReread (stream : Nat) (s : State) : Host.Outcome State Fault Refusal :=
  if (s.stream stream).wait == .barrier then
    match s.heldInsn stream with
    | some (.waitBar first count addr) => ok (s.waitBarrier stream first count addr)
    | _ => ok s
  else ok s

/-- Set or clear bits of a barrier word through an alias view, or the failed access (R180, R182, R200). -/
def State.barrierWrite (s : State) (r : Req) (v : Nat) (addr mask : Nat) : Except AccErr State :=
  s.write r (viewStep * v + addr) (leBytes 8 mask)

/-- SIGNAL (R200): once every earlier write is acknowledged, the bit is set. While a restart fast-forwards it does so too, and a
WAITSLOT waits: R227 leaves out transfers alone. DESIGN CHOICE (log 110). -/
def execSignal (stream : Nat) (s : State) : Host.Outcome State Fault Refusal :=
  match s.insnOf stream with
  | some (.signal b addr) =>
    let x := s.stream stream
    if x.allWritten then
      match s.barrierWrite (s.streamReq x) 1 addr (2 ^ b) with
      | .ok t => ok (t.setStream stream fun y => { y with pos := y.pos.step })
      | .error e => ok (s.streamAccess stream e x.pos s.seq addr)
    else ok s
  | _ => ok s

/-- Close the tile in progress at END (R198): its last unit ends the tile, and a receiver that has written all its units has
accepted it. -/
def Stream.closeTile (x : Stream) : Stream :=
  if x.pos.tileBytes == 0 then x
  else
    let t := x.pos.tile
    let x := { x with pos := { x.pos with tile := t + 1, tileBytes := 0 } }
    match (x.units.filter fun u => u.tile == t).getLast? with
    | some l => { x with
        units := x.units.map fun u => if u.seq == l.seq then { u with last := true } else u,
        rcv := x.rcv.map fun r => if r.attached && r.accepted == t && !r.needs l then { r with accepted := t + 1 } else r }
    | none => { x with rcv := x.rcv.map fun r => if r.accepted == t then { r with accepted := t + 1 } else r }

/-- MANIFEST_END (R196, R203): the last tile is closed, every slot is left, and the stream drains. -/
def execManifestEnd (stream : Nat) (s : State) : Host.Outcome State Fault Refusal :=
  match s.insnOf stream with
  | some .fin =>
    ok (s.setStream stream fun x =>
      { x.closeTile.dropDone with st := .draining, ended := true, left := (List.range 128).map (fun k => (k, s.seq)) ++ x.left })
  | _ => ok s

/-! ### Arbitration (R204, R206, R210 to R214) -/

/-- Bytes read or landed and not yet accepted by the slowest attached receiver, at 256 B a unit (R209, R210). -/
def Stream.heldBytes (x : Stream) : Nat := 256 * x.units.countP fun u => u.st != .queued && decide (x.slowest ≤ u.tile)

/-- A stream counts as bulk: no rate, or its receivers' half is a loading half (R211). -/
def State.isBulk (s : State) (x : Stream) : Bool :=
  x.drain == 0 || (x.dstKind == 0 && (x.rcv.filter (·.attached)).all fun r => r.half != (s.ctx r.kiln r.slot).half)

/-- The dry instant of a stream's next request at a time in ns, as numerator and denominator; none for bulk (R210 to R212). -/
def State.dryAt (s : State) (x : Stream) (now : Nat) : Nat × Nat :=
  if s.isBulk x then (0, 0) else (now * x.drain + x.heldBytes, x.drain)

/-- A request at an arbiter: its dry instant, class, rank, stream and device, its age, and what it asks for (R212). -/
structure Request where
  dry : Nat × Nat
  cls : Nat
  rank : Nat
  stream : Nat
  device : Nat
  seq : Nat
  deriving DecidableEq, Repr

def Request.bulk (r : Request) : Bool := r.dry.2 == 0

/-- The first request runs dry before the second: the dry instant, then class, rank, stream number and device number (R212). -/
def Request.before (a b : Request) : Bool :=
  let (l, r) := (a.dry.1 * b.dry.2, b.dry.1 * a.dry.2)
  if l != r then decide (l < r) else if a.cls != b.cls then decide (a.cls < b.cls)
  else if a.rank != b.rank then rankBefore a.rank b.rank
  else if a.stream != b.stream then decide (a.stream < b.stream) else decide (a.device < b.device)

/-- The best of a list under an order. -/
def pickBy {α : Type} (better : α → α → Bool) : List α → Option α
  | [] => none
  | a :: t => match pickBy better t with
    | none => some a
    | some b => some (if better b a then b else a)

/-- The request that an arbiter serves, and its count of grants since the last bulk one while bulk requests wait: the earliest to run
dry, but the oldest bulk request at least once in 16 and where no other waits (R212, R213). `c` is the count so far. -/
def choose (c : Nat) (rs : List Request) : Option (Request × Nat) :=
  let bulk := pickBy (fun a b => decide (a.seq < b.seq)) (rs.filter (·.bulk))
  let dry := pickBy Request.before (rs.filter fun r => !r.bulk)
  match bulk, dry with
  | none, none => none
  | some b, none => some (b, 0)
  | none, some d => some (d, 0)
  | some b, some d => if c ≥ 15 then some (b, 0) else some (d, c + 1)

/-- The request of a stream's unit, with a dry instant. -/
def State.request (s : State) (n : Nat) (x : Stream) (u : SUnit) (dry : Nat × Nat) : Request := ⟨dry, x.cls, x.rank, n, s.me, u.seq⟩

/-- Units in flight through a quay (R206). -/
def State.quayTags (s : State) (q : Nat) : Nat := ((s.streams.filter fun e => e.2.srcRemote && e.2.quay == q).map fun e => e.2.inFlight).sum

/-- The next unit to read, within four tiles of the slowest attached receiver (R204), with a tag of its quay free where it comes from
another device (R206). -/
def State.nextRead (s : State) (x : Stream) : Option SUnit :=
  if x.srcRemote && decide (s.quayTags x.quay ≥ 8192) then none
  else x.units.find? fun u => u.st == .queued && decide (u.tile < x.slowest + 4)

/-- Requests of a stevedore's streams for a tag, at a time. -/
def State.readers (s : State) (v now : Nat) : List Request :=
  ((List.range 32).map fun i => 32 * v + i).filterMap fun n =>
    let x := s.stream n
    if x.mayRead then (s.nextRead x).map fun u => s.request n x u (s.dryAt x now) else none

/-- Change a unit of a stream, by its age. -/
def Stream.setUnit (x : Stream) (seq : Nat) (f : SUnit → SUnit) : Stream :=
  { x with units := x.units.map fun u => if u.seq == seq then f u else u }

/-- Unit of a stream by its age. -/
def Stream.unitAt (x : Stream) (seq : Nat) : Option SUnit := x.units.find? fun u => u.seq == seq

/-- The request for a remote unit's data, with what the remote arbiters order it by. -/
def Stream.ask (x : Stream) (n : Nat) (u : SUnit) : Net := .readRequest n u.seq u.src u.len u.dry.1 u.dry.2 x.cls x.rank

/-- Grant a free tag of a stevedore, at a time in ns (R206, R209, R212, R213). -/
def State.grantTag (s : State) (v now : Nat) : State :=
  match choose (Tab.get (fun _ => 0) s.bulk v) (s.readers v now) with
  | none => s
  | some (r, c) =>
    let used := s.get STV_TAGS_IN_USE v + 1
    let s := { s with bulk := Tab.insert v c s.bulk }
    let s := (s.put STV_TAGS_IN_USE v used).put STV_TAGS_PEAK v (max used (s.get STV_TAGS_PEAK v))
    let s := s.setStream r.stream fun x => x.setUnit r.seq fun w => { w with st := .inFlight, dry := r.dry }
    let x := s.stream r.stream
    match x.unitAt r.seq with
    | none => s
    | some u =>
      let s := if u.len < 256 then s.inc STV_SHORT_UNITS_COUNT v 1 else s
      if x.srcRemote then s.send (.net x.device (classVc x.cls) (x.ask r.stream u)) else s

/-- TAG_GRANT (R212). -/
def execTagGrant (turn : TagTurn) (s : State) : Host.Outcome State Fault Refusal :=
  if s.live && s.stevedoreOk turn.stevedore && decide (s.get STV_TAGS_IN_USE turn.stevedore < 1024) then ok (s.grantTag turn.stevedore turn.now) else ok s

/-- The queue of a memory address that requests wait in, as the key of its arbiter: an HBM channel or a warehouse bank; and the die of
that memory (Table 01.1). Keys 0 to 63 are the stevedores' tag grants. -/
def State.queueOf (s : State) (a : Nat) : Option (Nat × Nat) :=
  match s.memUnit a with
  | (7, c) => some (1000 + c, if c < 192 then 0 else 1)
  | (5, b) => some (2000 + b, if b < 64 then 0 else 1)
  | _ => none

/-- The causeway's arbiter (R27). -/
def causewayKey : Nat := 3000

/-- Where a unit's read goes, when it is a read of this device's memory: queue and die. -/
def State.unitQueue (s : State) (x : Stream) (u : SUnit) : Option (Nat × Nat) :=
  match s.locate (s.streamReq x) false u.src with
  | .ok (.dev a _) => s.queueOf a
  | _ => none

/-- Requests in flight at the memory queues: the queue, whether the data crosses the causeway, and the request. -/
def State.flying (s : State) : List (Nat × Bool × Request) :=
  s.streams.flatMap fun e => if e.2.srcRemote then [] else (e.2.units.filter fun u => u.st == .inFlight).filterMap fun u =>
    (s.unitQueue e.2 u).map fun q => (q.1, q.2 != s.stevedoreDie (stevedoreOf e.1), s.request e.1 e.2 u u.dry)

/-- The request that a queue serves next among those given. -/
def State.headOf (s : State) (q : Nat) (fs : List (Nat × Bool × Request)) : Option (Request × Nat) :=
  choose (Tab.get (fun _ => 0) s.bulk q) ((fs.filter fun f => f.1 == q).map (·.2.2))

/-- Requests that cross the causeway and are next at their queues. -/
def State.crossing (s : State) (fs : List (Nat × Bool × Request)) : List Request :=
  (fs.filter fun f => f.2.1 && (s.headOf f.1 fs).map (·.1) == some f.2.2).map (·.2.2)

/-- Serve a request at its queue and, where it crosses, at the causeway: none where an arbiter serves another first (R212, R213). The
requests that contend are `fs`. -/
def State.arbitrate (s : State) (fs : List (Nat × Bool × Request)) (q : Nat) (cross : Bool) (r : Request) : Option State :=
  match s.headOf q fs with
  | some (h, c) =>
    if h != r then none
    else
      let t := { s with bulk := Tab.insert q c s.bulk }
      if !cross then some t
      else match choose (Tab.get (fun _ => 0) s.bulk causewayKey) (s.crossing fs) with
        | some (k, d) => if k == r then some { t with bulk := Tab.insert causewayKey d t.bulk } else none
        | none => none
  | none => none

/-! ### Landing and writing (R201 to R203) -/

/-- Another unit of the same transfer is listed before, or after, a unit. -/
def Stream.hasBefore (x : Stream) (u : SUnit) : Bool := x.units.any fun w => w.xfer == u.xfer && decide (w.seq < u.seq)
def Stream.hasAfter (x : Stream) (u : SUnit) : Bool := x.units.any fun w => w.xfer == u.xfer && decide (u.seq < w.seq)

/-- The part of the destination that is written once a unit has landed, as first byte and length: whole 256 B blocks, and the ends of
the transfer (R209). -/
def Stream.writeRange (x : Stream) (u : SUnit) : Nat × Nat :=
  let a := if x.hasBefore u then u.dst / 256 * 256 else u.dst
  let e := if x.hasAfter u then (u.dst + u.len) / 256 * 256 else u.dst + u.len
  (a, e - a)

/-- The data of that part, from the unit and those of its transfer before it. -/
def Stream.writeData (x : Stream) (u : SUnit) : List Byte :=
  let us := x.units.filter fun w => w.xfer == u.xfer && decide (w.seq ≤ u.seq)
  let first := ((us.map (·.dst)).head?).getD u.dst
  let (a, n) := x.writeRange u
  ((us.flatMap (·.data)).drop (a - first)).take n

/-- Write units of fewer than 256 bytes are counted (R209). -/
def State.shortWrites (s : State) (n : Nat) (x : Stream) (u : SUnit) : State :=
  let (d, k) := x.writeRange u
  let short := (piecesOf d k).countP fun p => decide (p.2 < 256)
  if short == 0 then s else s.inc STV_SHORT_UNITS_COUNT (stevedoreOf n) short

/-- The messages with the write units that a landed unit completes, for a remote device; each names that unit. -/
def Stream.writeMsgs (x : Stream) (n : Nat) (u : SUnit) : List Msg :=
  let w := x.writeRange u
  let bs := x.writeData u
  (piecesOf w.1 w.2).map fun p => .net x.device (classVc x.cls) (.writeUnit n u.seq p.1 u.dry.1 u.dry.2 x.cls x.rank ((bs.drop (p.1 - w.1)).take p.2))

/-- Write units go out to a remote device once every unit of their transfer before them has landed. -/
def State.sendLanded (s : State) (n : Nat) (u : SUnit) : State :=
  let x := s.stream n
  let us := x.units.filter fun w => w.xfer == u.xfer
  if (us.filter fun w => decide (w.seq < u.seq)).all fun w => w.st == .landed then
    ((us.filter fun w => decide (u.seq ≤ w.seq)).takeWhile fun w => w.st == .landed).foldl
      (fun t w => (x.writeMsgs n w).foldl (fun t m => t.send m) (t.shortWrites n x w)) s
  else s

/-- The data of a unit in flight lands, freeing its tag (R206); what it completes for a remote destination goes out. -/
def State.landed (s : State) (n : Nat) (u : SUnit) (bs : List Byte) : State :=
  let s := (s.freeTags n 1).setStream n fun x => x.setUnit u.seq fun w => { w with st := .landed, data := bs }
  if (s.stream n).dstKind == 2 then s.sendLanded n u else s

/-- The read of a unit in flight completes. One that a fault meets waits for STREAM_FAULT; an uncorrectable word gives the tag
back and goes to the salvor. -/
def State.landUnit (s : State) (n : Nat) (x : Stream) (u : SUnit) (data : List Byte) : State :=
  if x.srcRemote then s.landed n u data
  else if let some (m, b) := x.load then
    match s.storeBytes (s.model m) (s.model m).version b u.dst u.len with
    | .ok (bs, t) => t.landed n u bs
    | .error e => s.loadFails m e
  else match s.read (s.streamReq x) u.src u.len with
    | .ok (bs, t) => t.landed n u bs
    | .error e =>
      if e.reason.isSome || e == .held then s
      else ((s.freeTags n 1).setStream n fun y => y.setUnit u.seq fun w => { w with st := .queued }).accessFailed x.job e

/-- The state once the arbiters that a unit's read meets have served it, none while they serve others first. -/
def State.serveUnit (s : State) (n : Nat) (x : Stream) (u : SUnit) : Option State :=
  if x.srcRemote then some s
  else match s.unitQueue x u with
    | some q => s.arbitrate s.flying q.1 (q.2 != s.stevedoreDie (stevedoreOf n)) (s.request n x u u.dry)
    | none => some s

/-- READ_DATA_LANDS (R206): service by the arbiters and landing are one event. DESIGN CHOICE (log 111). -/
def execReadDataLands (stream unit : Nat) (data : List Byte) (s : State) : Host.Outcome State Fault Refusal :=
  let x := s.stream stream
  match x.unitAt unit with
  | some u =>
    if s.live && u.st == .inFlight && (!x.srcRemote || (data.length == u.len && s.hears x.device)) then
      match s.serveUnit stream x u with
      | some t => ok (t.landUnit stream x u data)
      | none => ok s
    else ok s
  | none => if s.hears x.device && x.srcRemote && unit ≥ s.seq then ok (s.strayFrom x.device) else ok s

/-- Tag the 256 B blocks of a berth range with a tile's ordinal modulo 256 (R112, R201). -/
def State.tagBlocks (s : State) (a n tile : Nat) : State :=
  { s with tags := (piecesOf a n).foldl (fun t p => Tab.insert (p.1 / 256) (tile % 256) t) s.tags }

/-- Note where the blocks of a berth range came from. A tile that goes on in a block that another tile of the binding began leaves the
block's first tile. -/
def State.noteOrigin (s : State) (x : Stream) (a n tile : Nat) : State :=
  let put := fun (t : Tab Origin) (p : Nat × Nat) =>
    let f := match Tab.find (p.1 / 256) t with
      | some o => if p.1 % 256 != 0 && o.job == x.job && o.unit == x.unit && o.task == x.owner && o.bind == x.bind then o.first else tile
      | none => tile
    Tab.insert (p.1 / 256) ⟨x.job, x.unit, x.owner, x.bind, f, tile⟩ t
  { s with origins := (piecesOf a n).foldl put s.origins }

/-- Where a byte of the destination goes for a receiver. -/
def Stream.target (x : Stream) (r : Rcv) (dst : Nat) : Nat := if x.dstKind == 0 then berthAddr r.kiln r.half (4096 * r.base) + dst else dst

/-- Write the units that a landed unit completes, for a receiver: the state after it, or why they cannot be written. -/
def State.writeUnit (s : State) (x : Stream) (r : Rcv) (u : SUnit) : Except AccErr State :=
  let (d, n) := x.writeRange u
  if x.dstKind == 0 then
    let a := x.target r d
    .ok (((s.writeLoc (.dev a .normal) (x.writeData u)).tagBlocks a n u.tile).noteOrigin x a n u.tile)
  else if x.dstKind == 1 then match x.load with
    | none => s.write (s.streamReq x) d (x.writeData u)
    | some l => .ok (match s.loadPlace l with
      | some a => s.writeLoc (.dev (a + d) .normal) (x.writeData u)
      | none => s)
  else .ok s

/-- The receiver after a unit is written. -/
def Rcv.wroteUnit (r : Rcv) (x : Stream) (u : SUnit) : Rcv :=
  let w := x.writeRange u
  let ks := if x.dstKind == 0 then slotsIn w.1 w.2 else []
  { r with next := u.seq + 1, accepted := if u.last then u.tile + 1 else r.accepted,
           wrote := ks.map (fun k => (k, u.seq)) ++ r.wrote.filter fun w => !ks.contains w.1 }

/-- The stream after a receiver has written a unit. -/
def Stream.wroteUnit (x : Stream) (i : Nat) (r : Rcv) (u : SUnit) : Stream :=
  { x with rcv := x.rcv.set i (r.wroteUnit x u), aborts := if u.last then 0 else x.aborts }.dropDone

/-- Write the landed units of one tile, in order, while nothing holds them. The list is the units still to write. -/
def State.writeTile (s : State) (n i : Nat) : List SUnit → State
  | [] => s
  | u :: rest =>
    let x := s.stream n
    match x.rcv[i]? with
    | none => s
    | some r =>
      let w := x.writeRange u
      if u.st != .landed || u.tile != r.accepted then s
      else if x.dstKind == 0 && (slotsIn w.1 w.2).any fun k => s.slotTaken x r u.seq k then s
      else match s.writeUnit x r u with
        | .error (.memory a) => s.memError a (some x.job)
        | .error _ => s
        | .ok t => State.writeTile ((if x.dstKind == 2 then t else t.shortWrites n x u).putStream n (x.wroteUnit i r u)) n i rest

/-- TILE_ACCEPT (R201, R202): the units of a receiver's next tile that have landed are written; the tile is accepted with its
last one. A unit for a remote device counts as written with its acknowledgement. -/
def execTileAccept (stream receiver : Nat) (s : State) : Host.Outcome State Fault Refusal :=
  let x := s.stream stream
  match x.rcv[receiver]? with
  | some r =>
    if s.live && r.attached && x.mayRead then
      ok ((((s.writeTile stream receiver (x.units.filter fun u => r.needs u)).detachSlow stream).endBounded stream).loadOn stream)
    else ok s
  | none => ok s

/-- A slot can be made ready for a receiver: the cursor has left it since the last write into it, and no earlier unit for it is
still to be written (R203). -/
def Stream.slotDone (x : Stream) (r : Rcv) (slot : Nat) : Bool :=
  x.left.any fun l => l.1 == slot && (r.wrote.any fun w => w.1 == slot && decide (w.2 < l.2)) &&
    !(x.units.any fun u => r.needs u && decide (u.seq < l.2) && (slotsIn u.dst u.len).contains slot)

/-- A waiting task becomes READY once every slot that it waits for is ready (R167). -/
def State.rouse (s : State) (k c : Nat) : State :=
  let t := s.ctx k c
  if t.st == .waitTile && t.late.all (fun i => t.hearth.contains i || s.isReady k t.half (t.base + i)) then s.putCtx k c { t with st := .ready, late := [] }
  else s

/-- Make a slot ready. -/
def State.makeReady (s : State) (n i slot : Nat) : State :=
  let x := s.stream n
  match x.rcv[i]? with
  | none => s
  | some r =>
    let r' := { r with wrote := r.wrote.filter fun w => w.1 != slot }
    let y := { x with rcv := x.rcv.set i r' }
    let y := { y with left := y.left.filter fun l => y.rcv.any fun q =>
      q.attached && (decide (q.next < l.2) || q.wrote.any fun w => w.1 == l.1 && decide (w.2 < l.2)) }
    ((s.putStream n y).setReady r.kiln r.half (r.base + slot) true).rouse r.kiln r.slot

/-- READY_BIT_SET (R203). -/
def execReadyBitSet (stream receiver slot : Nat) (s : State) : Host.Outcome State Fault Refusal :=
  let x := s.stream stream
  match x.rcv[receiver]? with
  | some r => if s.live && x.dstKind == 0 && r.attached && x.slotDone r slot then ok (s.makeReady stream receiver slot) else ok s
  | none => ok s

/-- Make every slot ready that the receivers of an ended stream have written. -/
def State.readyAll (s : State) (n : Nat) : State :=
  ((s.stream n).rcv.zipIdx.flatMap fun e => if e.1.attached then e.1.wrote.map fun w => (e.2, w.1) else []).foldl
    (fun t p => t.makeReady n p.1 p.2) s

/-- STREAM_END (R193): the last write of a draining stream is acknowledged. -/
def execStreamEnd (stream : Nat) (s : State) : Host.Outcome State Fault Refusal :=
  let x := s.stream stream
  if s.live && x.st == .draining && x.allWritten then
    ok ((if x.dstKind == 0 then s.readyAll stream else s).freeStream stream)
  else ok s

end Sys2Proof.Machine
end

