-- ==== Sys2Proof/Machine/Multicast.lean ====
section
/-! DEFINITION. Streams that start again (05): catch-up streams, restarts of a task's streams, faults and resumes, mutual waits and
aborts. -/

namespace Sys2Proof.Machine

/-! ### Catch-up streams (R217 to R219, R191) -/

/-- A waiting catch-up stream may start on a stevedore: its own, or any of the die while its own is fenced (R538). -/
def State.mayCatchUp (s : State) (v : Nat) (c : CatchUp) : Bool :=
  !c.unplaced && match c.stev with
    | some w => w == v || (s.fencedStevs.contains w && s.stevedoreDie w == s.stevedoreDie v)
    | none => true

/-- Start a waiting catch-up stream in a free context: from where it stands, or from its binding. -/
def State.startCatchUp (s : State) (n : Nat) (c : CatchUp) : State :=
  match c.stream with
  | some x => s.putStream n { x with gen := (s.stream n).gen, startTide := if x.catching then s.tide else x.startTide, waitSince := some s.tide }
  | none =>
    match s.job c.job with
    | some j =>
      match j.units.find? fun u => u.no == c.unit with
      | some u => s.loadStream n j u { task := c.task, owner := c.owner, bind := c.bind, catching := true, tile := c.tile }
      | none => s
    | none => s

/-- CATCHUP_STREAM_START (R217, R538). -/
def execCatchupStreamStart (stevedore : Nat) (s : State) : Host.Outcome State Fault Refusal :=
  if !(s.live && s.stevedoreOk stevedore) then ok s
  else
    let i := s.catchUps.findIdx fun c => s.mayCatchUp stevedore c
    match s.catchUps[i]?, s.freeContext stevedore with
    | some c, some n => ok ({ s with catchUps := s.catchUps.eraseIdx i }.startCatchUp n c)
    | _, _ => ok s

/-! ### Restarts (R116, R191, R227) -/

/-- A stream of a task of its own: neither a multicast nor a catch-up. -/
def Stream.ownOf (x : Stream) (job unit task : Nat) : Bool :=
  x.job == job && x.unit == unit && x.task == task && !x.multicast && !x.catching && x.st != .free && x.st != .frozen

/-- A catch-up stream of a task. -/
def Stream.catchesUp (x : Stream) (job unit task : Nat) : Bool :=
  x.job == job && x.unit == unit && x.task == task && x.catching && x.st != .free && x.st != .frozen

/-- Detach a task from every multicast that feeds it (R191); one that waits for a context of another stevedore loses it too. -/
def State.detachTask (s : State) (job unit task : Nat) : State :=
  let hits := s.streams.flatMap fun e =>
    if e.2.multicast && e.2.job == job && e.2.unit == unit && e.2.st != .free && e.2.st != .frozen then
      (e.2.rcv.zipIdx.filter fun r => r.1.attached && r.1.task == task).map fun r => (e.1, r.2)
    else []
  let s := hits.foldl (fun t h => t.detach h.1 h.2 true) s
  let leave := fun (c : CatchUp) =>
    match c.stream with
    | some x => if x.multicast && c.job == job && c.unit == unit && x.rcv.any (fun r => r.attached && r.task == task) then
        [{ c with stream := some { x with rcv := x.rcv.map fun r => if r.task == task then { r with attached := false } else r } }] ++
          (x.rcv.filter fun r => r.attached && r.task == task).map fun r => x.waits (c.stev.getD 0) r true
      else [c]
    | none => [c]
  let cs := s.catchUps.flatMap leave
  { s with catchUps := cs.filter fun c => match c.stream with | some x => x.rcv.any (·.attached) | none => true }

/-- The first tile that a binding starts from among those given. -/
def Tiles.tileOf (ts : Tiles) (owner bind : Nat) : Option Nat := (ts.find? fun t => t.1 == owner && t.2.1 == bind).map (·.2.2)

/-- Restart the streams of a task at the tiles given, one for each binding (R116, R191, R227): its own streams are freed and start
again under R189, fast-forwarding; what a multicast brought comes again through a catch-up stream from its binding, which waits for the
task's place where `unplaced`. The task is detached from its multicasts at once. -/
def State.restartStreams (s : State) (job unit task : Nat) (tiles : Tiles) (unplaced : Bool) : State :=
  let s := s.detachTask job unit task
  let own := (s.streams.filter fun e => e.2.ownOf job unit task && (tiles.tileOf e.2.owner e.2.bind).isSome).map (·.1)
  let catching := (s.streams.filter fun e => e.2.catchesUp job unit task && (tiles.tileOf e.2.owner e.2.bind).isSome).map (·.1)
  let known := fun (t : Nat × Nat × Nat) =>
    ((s.catchUps.find? fun c => c.job == job && c.unit == unit && c.task == task && c.owner == t.1 && c.bind == t.2.1).bind (·.stev)).or
      ((catching.find? fun n => (s.stream n).owner == t.1 && (s.stream n).bind == t.2.1).map stevedoreOf)
  match s.job job with
  | none => s
  | some j =>
    let shared := fun (t : Nat × Nat × Nat) => j.units.any fun u => u.no == unit && (t.1 != task || u.shared.contains (t.1, t.2.1))
    let again := (tiles.filter shared).map fun t =>
      (⟨known t, job, unit, task, t.1, t.2.1, t.2.2, none, unplaced⟩ : CatchUp)
    let mine := tiles.filter fun t => !shared t
    let s := (own ++ catching).foldl (fun t n => t.freeStream n) s
    let kept := s.catchUps.filter fun (c : CatchUp) =>
      !(c.job == job && c.unit == unit && c.task == task && (tiles.tileOf c.owner c.bind).isSome)
    let s := { s with catchUps := kept ++ again }
    match s.job job with
    | none => s
    | some j => s.putJob (j.setUnit unit fun u => { u with
        started := u.started.filter fun p => !(mine.any fun t => (t.1, t.2.1) == p),
        skips := mine ++ u.skips.filter fun k => !(mine.any fun t => t.1 == k.1 && t.2.1 == k.2.1) })

/-- Catch-up streams of a task that is placed again may start (R191). -/
def State.placeCatchUps (s : State) (job unit task : Nat) : State :=
  { s with catchUps := s.catchUps.map fun c => if c.job == job && c.unit == unit && c.task == task then { c with unplaced := false } else c }

/-- The stream's next tile for a task: the tiles that its receiver there has accepted. -/
def Stream.nextFor (x : Stream) (task : Nat) : Nat := ((x.rcv.find? fun r => r.task == task).map (·.accepted)).getD x.slowest

/-- The tile that each running or waiting stream of a task would go on with. -/
def State.goingOn (s : State) (job unit task : Nat) : Tiles :=
  (s.streams.filterMap fun e =>
    if e.2.ownOf job unit task || e.2.catchesUp job unit task then some (e.2.owner, e.2.bind, e.2.nextFor task)
    else if e.2.multicast && e.2.job == job && e.2.unit == unit && e.2.st != .free && e.2.st != .frozen && e.2.rcv.any (fun r => r.attached && r.task == task)
      then some (e.2.owner, e.2.bind, e.2.nextFor task)
    else none) ++
  s.catchUps.filterMap fun (c : CatchUp) =>
    if c.job == job && c.unit == unit && c.task == task then some (c.owner, c.bind, c.tile) else none

/-! ### Faults and resumes (R220 to R226) -/

/-- The refusal that a unit's access meets: its read in flight, or its write once landed. -/
def State.unitErr (s : State) (x : Stream) (u : SUnit) : Option AccErr :=
  match u.st with
  | .inFlight => if x.srcRemote then none else
      match s.read (s.streamReq x) u.src u.len with
      | .error e => if e == .held then none else some e
      | .ok _ => none
  | .landed => if x.dstKind == 1 then
      (s.accessErr (s.streamReq x) true (x.writeRange u).1 (x.writeRange u).2).filter fun e => e != .held else none
  | .queued => none

/-- STREAM_FAULT (R220): the stream halts on a unit whose access is refused for that reason. -/
def execStreamFault (stream unit reason : Nat) (s : State) : Host.Outcome State Fault Refusal :=
  let x := s.stream stream
  match x.unitAt unit with
  | some u =>
    if s.live && x.mayRead && x.load.isNone && (s.unitErr x u).bind AccErr.reason == some reason then
      ok (s.haltStream stream reason u.pos u.seq (if u.st == .inFlight then u.src else (x.writeRange u).1))
    else ok s
  | none => ok s

/-- Tasks fed by a stream that halted for it are ready again (Table 04.13). -/
def State.rouseFed (s : State) (x : Stream) : State :=
  x.rcv.foldl (fun t r =>
    let c := t.ctx r.kiln r.slot
    if r.attached && c.st == .halted && c.reason == 4 then t.putCtx r.kiln r.slot { c with st := .ready, reason := 0 } else t) s

/-- Read a halted stream's binding and manifest again, and start it (R223, R647). -/
def State.reload (s : State) (n : Nat) : State :=
  let x := s.stream n
  match s.job x.job with
  | some j =>
    match j.units.find? fun u => u.no == x.unit with
    | some u =>
      let f : BindRef := { task := x.task, owner := x.owner, bind := x.bind, catching := x.catching, tile := x.skipTo }
      let j := if x.catching then j else j.setUnit u.no fun v => { v with started := v.started.erase (x.owner, x.bind) }
      ((s.freeStream n).putJob j).loadStream n j u f
    | none => s
  | none => s

/-- A consignment's copy that halted goes on with its prepare (R354). -/
def State.resumeCopy (s : State) (n : Nat) : State :=
  let x := s.stream n
  { s.freeStream n with conss := s.conss.map fun c => if c.job == x.job && c.phase == .haltedCopy then { c with phase := .preparing } else c }

/-- A stream's resume word (R223, R224). -/
def State.resumeStream (s : State) (word : Nat) : State :=
  let n := bits word 0 11
  let x := s.stream n
  if bits word 11 5 == 0 && x.st == .halted && x.gen == bits word 16 16 && x.reason != 3 then
    if x.fresh then s.reload n
    else if x.code.isEmpty then s.resumeCopy n
    else (s.putStream n { x with st := .running, reason := 0 }).rouseFed x
  else s.inc STV_RESUME_IGNORED_COUNT (stevedoreOf n) 1

/-! ### Aborts (R230 to R232) -/

/-- Put a stream back to the start of the slowest receiver's first unaccepted tile, with its later data discarded and every
reservation released or withdrawn (R232, R538). -/
def State.rewind (s : State) (n : Nat) : State :=
  let x := s.stream n
  let k := x.slowest
  let cut := ((x.units.find? fun u => decide (k ≤ u.tile)).map (·.seq)).getD s.seq
  let s := s.freeTags n x.inFlight
  let s := if x.remote || x.asked then s.send (.net x.device (classVc x.cls) (.reserveRelease s.me n)) else s
  s.putStream n { x with pos := x.posOf k, units := [], wait := .none, pools := [], asked := false, remote := false, waitSince := none,
                         ended := false, tileAt := x.posOf k, left := x.left.filter fun l => decide (l.2 ≤ cut) }

/-- Abort a stream to break a mutual wait; a fourth abort without an accepted tile is a violation (R232, R422). -/
def State.abortStream (s : State) (n : Nat) : State :=
  let s := (s.rewind n).inc STV_ABORTS_COUNT (stevedoreOf n) 1
  let x := s.stream n
  let s := s.putStream n { x with st := .aborted, aborts := x.aborts + 1 }
  if x.aborts + 1 ≥ 4 then s.freezeStream n else s

/-- Of two streams of a cycle, given as device, stream and start tide, the first is the younger (R231). -/
def younger (a b : Nat × Nat × Nat) : Bool :=
  if a.2.2 != b.2.2 then decide (a.2.2 > b.2.2) else if a.1 != b.1 then decide (a.1 > b.1) else decide (a.2.1 > b.2.1)

/-- A stream that waits for a reservation: for a local pool, or for its remote one. -/
def State.waitsFor (s : State) (n : Nat) : Option (Option Nat) :=
  let x := s.stream n
  if x.st == .reserving then
    match (s.poolsNeeded n x)[x.pools.length]? with
    | some p => some (some p)
    | none => if x.asked && !x.remote then some none else none
  else none

/-- Stream number of a probe that is meant for the holders of the reservation that the last of its chain waits for. -/
def anyHolder : Nat := 4095

/-- Holders of a pool of this device: streams of its own and of others, by device. -/
def State.holders (s : State) (p : Nat) : List (Nat × Nat) :=
  (s.streams.filter fun e => e.2.pools.contains p && e.2.st != .free).map (fun e => (s.me, e.1)) ++
  (s.remoteHolds.filter fun h => h.quay + 2 == p).map fun h => (h.device, h.stream)

/-- A probe travels along the chain of holders (R230): at a stream that waits it goes on to the holders of what that stream waits for,
over the quays where they are on other devices. One that comes back to its sender has found a cycle; where the sender is the cycle's
youngest stream it is aborted (R231), which the youngest alone finds of itself. `fuel` bounds the streams of this device on the way. -/
def State.probe (fuel : Nat) (s : State) (n : Nat) (chain : List (Nat × Nat × Nat)) : State :=
  match fuel with
  | 0 => s
  | k + 1 =>
    let x := s.stream n
    let me := (s.me, n, x.startTide)
    if x.st != .reserving then s
    else if chain.head? == some me then
      (if pickBy younger chain == some me then s.abortStream n else s)
    else if chain.contains me then s
    else
      let chain' := chain ++ [me]
      match s.waitsFor n with
      | none => s
      | some none => s.send (.net x.device 1 (.waitProbe anyHolder chain'))
      | some (some p) => (s.holders p).foldl (fun t h =>
          if h.1 == s.me then State.probe k t h.2 chain' else t.send (.net h.1 1 (.waitProbe h.2 chain'))) s

/-- A probe arrives: for a stream of this device, or for the holders of the buffer that the last of its chain waits for here. -/
def State.takeProbe (s : State) (n : Nat) (chain : List (Nat × Nat × Nat)) : State :=
  if n != anyHolder then s.probe 64 n chain
  else match chain.getLast? with
    | none => s
    | some w =>
      match s.remoteWaits.find? fun h => h.device == w.1 && h.stream == w.2.1 with
      | none => s
      | some r => (s.holders (r.quay + 2)).foldl (fun t h =>
          if h.1 == s.me then t.probe 64 h.2 chain else t.send (.net h.1 1 (.waitProbe h.2 chain))) s

/-- MUTUAL_WAIT_PROBE (R230, R231). -/
def execMutualWaitProbe (stream : Nat) (chain : List (Nat × Nat × Nat)) (s : State) : Host.Outcome State Fault Refusal :=
  if s.live then ok (s.takeProbe stream chain) else ok s

/-- At a tide boundary every stream that has waited for a reservation since the previous boundary sends a probe (R230). -/
def State.sendProbes (s : State) : State :=
  ((s.streams.filter fun e => e.2.st == .reserving && match e.2.waitSince with | some w => decide (w + 1 < s.tide) | none => false).map (·.1)).foldl
    (fun t n => t.probe 64 n []) s

end Sys2Proof.Machine
end

