-- ==== Sys2Proof/Machine/Kiln.lean ====
section
/-! DEFINITION. Kilns (04): the command header, tiles and ready bits, LAYER with the table store and the check of R113, the output
stage, and the commands of the command unit. -/

namespace Sys2Proof.Machine

/-! ### Accesses of a task -/

/-- What a task's accesses ask as. -/
def State.taskReq (s : State) (x : KCtx) : Req :=
  match s.job x.job with
  | some j => j.req
  | none => {}

/-- A malformed command halts its task, and its job completes (R149). -/
def State.malformed (s : State) (k c : Nat) : State := (s.haltTask k c 3).endJobOf (s.ctx k c).job stMalformed

/-- The address lies in the berth views (Table 11.3); a kiln command that names one is malformed (R252). -/
def inBerthView (a : Nat) : Bool := decide (berthBase ≤ a ∧ a < 0x40220A000000)

/-- The address lies within a range of Table 11.3, host windows apart. -/
def State.inMap (s : State) (a : Nat) : Bool :=
  (s.setOf a).isSome || decide (whsBase ≤ a ∧ a < 0x40021C000000) || decide (0x401000000000 ≤ a ∧ a < 0x401040000000) ||
    inBerthView a

/-- A kiln command's access fails: one that a way, a set or a view refuses is malformed (R252, R256); any other completes the
job (R448, R454). -/
def State.kilnAccess (s : State) (k c : Nat) (e : AccErr) (a : Nat) : State :=
  match e with
  | .bounds => if s.inMap a then s.malformed k c else s.endJobOf (s.ctx k c).job stBounds
  | .absent => s.malformed k c
  | e => s.accessFailed (s.ctx k c).job e

/-- Change a context slot. -/
def State.setCtx (s : State) (k c : Nat) (f : KCtx → KCtx) : State := s.putCtx k c (f (s.ctx k c))

/-- Halt a task for debug (R578): no record, and the generation stays. -/
def State.dbgStop (s : State) (k c : Nat) : State :=
  ((s.putKiln k ((s.kiln k).leave c)).setCtx k c fun x => { x with st := .halted, reason := 7, dbgFrom := .ready, dbgReq := 0, noswitch := false }).traceJob
    4 (s.job (s.ctx k c).job) (4 * k + c)

/-! ### Commands (Tables 04.4 and 04.5) -/

/-- Opcodes of Table 04.5. -/
def opLayer : Nat := 0x01
def opLoadpin : Nat := 0x02
def opSwap : Nat := 0x03
def opArrive : Nat := 0x04
def opWaitbar : Nat := 0x05
def opClearbar : Nat := 0x06
def opHmul : Nat := 0x10
def opHvec : Nat := 0x11
def opEnd : Nat := 0x3F

/-- The opcode is one of Table 04.5. -/
def opKnown (o : Nat) : Bool := [opLayer, opLoadpin, opSwap, opArrive, opWaitbar, opClearbar, opHmul, opHvec, opEnd].contains o

/-- The header meets Table 04.4 and R148. -/
def headerOk (w : Nat) : Bool :=
  let o := w % 256
  bits w 9 7 == 0 &&
  (if bit w 8 then (o == opLayer || o == opHmul || o == opHvec) && decide (1 ≤ bits w 16 8 ∧ bits w 16 8 ≤ 200) else bits w 16 8 == 0)

/-- The bits of w outside the ranges (first, width) are 0. -/
def onlyBits (w : Nat) (rs : List (Nat × Nat)) : Bool := w == (rs.map fun r => bits w r.1 r.2 * 2 ^ r.1).sum

/-- The task at a slot can start or go on with its command. -/
def State.canStart (s : State) (k c : Nat) : Bool :=
  s.live && decide (k < s.kilnCount) && decide (c < 4) && !s.kilnFenced k && (s.ctx k c).st == .ready

/-- Run the command at a slot's program counter, of `n` bytes, when its opcode is `op`: a reserved opcode or a header that
breaks R148 is malformed, and a debug halt takes effect here (R578). -/
def State.command (s : State) (k c op n : Nat) (run : Nat → State → State) : State :=
  let x := s.ctx k c
  if s.canStart k c then
    match s.read (s.taskReq x) x.pc 32 with
    | .error e => s.kilnAccess k c e x.pc
    | .ok (bs, _) =>
      let w := leNat bs
      if !opKnown (w % 256) then s.malformed k c
      else if w % 256 != op then s
      else if x.dbgReq == 1 && !x.begun then s.dbgStop k c
      else if !headerOk w then s.malformed k c
      else match s.read (s.taskReq x) x.pc n with
        | .error e => s.kilnAccess k c e x.pc
        | .ok (bs, t) => run (leNat bs) t
  else s

/-- The command is done: the next one follows, or the LAYER that a restart goes back to (Table 04.14); a debug step ends. -/
def State.commandDone (s : State) (k c n : Nat) (pinWriter : Bool) : State :=
  let x := s.ctx k c
  let back := if pinWriter then x.replay else none
  let y := match back with
    | some (pc, row) => { x with pc := pc, row := row, replay := none }
    | none => { x with pc := x.pc + n, row := 0 }
  let y := { y with st := .ready, begun := false, group := 0, lookup := 0, strip := 0, staged := [], late := [], noswitch := false, declLen := 0,
                    pinWriter := if pinWriter then some x.pc else x.pinWriter }
  let s := s.putCtx k c y
  if x.dbgReq == 1 || x.dbgReq == 2 then s.dbgStop k c else s

/-! ### LAYER (R150 to R160) -/

/-- A LAYER's fields. `pinned` is the number of reduction groups that pins cover. -/
structure LayerCmd where
  wf : WFmt
  G : Nat
  gsize : Nat
  beta : Bool
  wscale : Bool
  af : AFmt
  ofmt : Nat
  clipPage : Bool
  accIn : Nat
  accOut : Nat
  release : Bool
  rows : Nat
  K : Nat
  N : Nat
  pinned : Nat
  clipBase : Nat
  pinCol : Nat
  wSlot : Nat
  sSlot : Nat
  aSlot : Nat
  aSlots : Nat
  out : Nat
  rescale : Nat
  clip : Nat
  deriving DecidableEq, Repr

/-- The 512 bits of a LAYER; none for a reserved encoding or a reserved bit (R53, R54, R96, R98). -/
def layerOf (w : Nat) : Option LayerCmd :=
  match WFmt.ofCode (bits w 24 4), groupSize (bits w 28 2) with
  | some f, some g =>
    if (bit w 30 && f.isC4) || bits w 38 2 == 3 || bits w 40 2 == 3 || (bits w 40 2 == 0 && (OFmt.ofCode (bits w 34 3)).isNone) ||
       bits w 43 5 != 0 || bits w 48 16 == 0 || bits w 64 21 == 0 || decide (bits w 64 21 > 1048576) || bits w 85 17 == 0 ||
       decide (bits w 85 17 > 65536) || bits w 155 7 == 0 || bits w 162 94 != 0 || bits w 296 24 != 0 || bits w 360 24 != 0 ||
       bits w 384 5 != 0 || bits w 424 88 != 0 then none
    else some
      { wf := f, G := g, gsize := bits w 28 2, beta := bit w 30, wscale := bit w 31, af := AFmt.ofCode (bits w 32 2), ofmt := bits w 34 3,
        clipPage := bit w 37, accIn := bits w 38 2, accOut := bits w 40 2, release := bit w 42, rows := bits w 48 16, K := bits w 64 21,
        N := bits w 85 17, pinned := bits w 102 16, clipBase := 4096 * bits w 118 4, pinCol := bits w 122 12, wSlot := bits w 134 7,
        sSlot := bits w 141 7, aSlot := bits w 148 7, aSlots := bits w 155 7, out := 256 * bits w 256 40,
        rescale := 256 * bits w 320 40, clip := 256 * bits w 384 40 }
  | _, _ => none

/-- Reduction groups, those computed, and column strips. -/
def LayerCmd.groups (l : LayerCmd) : Nat := ceilDiv l.K l.G
def LayerCmd.computed (l : LayerCmd) : Nat := l.groups - l.pinned
def LayerCmd.strips (l : LayerCmd) : Nat := ceilDiv l.N l.wf.stripCols
/-- Tiles of the LAYER, and bytes of its weight tiles and of its weight scale blocks. -/
def LayerCmd.tiles (l : LayerCmd) : Nat := l.computed * l.strips
def LayerCmd.weightBytes (l : LayerCmd) : Nat := l.tiles * l.wf.tileBytes l.G
def LayerCmd.scaleBytes (l : LayerCmd) : Nat := l.tiles * l.wf.scaleBytes
/-- The first activation scale block, and how many are read. -/
def LayerCmd.firstBlock (l : LayerCmd) : Nat := l.pinned / 48
def LayerCmd.blocks (l : LayerCmd) : Nat := if l.computed == 0 then 0 else (l.groups - 1) / 48 - l.firstBlock + 1
/-- Bytes of one activation row. -/
def LayerCmd.rowBytes (l : LayerCmd) : Nat := roundUp (l.computed * l.G) 64
def LayerCmd.ringBytes (l : LayerCmd) : Nat := 4096 * l.aSlots
/-- Slots of the weight and the scale region. -/
def LayerCmd.wSlots (l : LayerCmd) : Nat := ceilDiv l.weightBytes 4096
def LayerCmd.sSlots (l : LayerCmd) : Nat := ceilDiv (roundUp l.scaleBytes 4096 + 256 * l.blocks) 4096

/-- Two slot ranges share no slot. -/
def apart (a n b m : Nat) : Bool := n == 0 || m == 0 || decide (a + n ≤ b) || decide (b + m ≤ a)

/-- The LAYER's regions meet R159 in a mooring of so many slots. -/
def LayerCmd.placed (l : LayerCmd) (slots : Nat) : Bool :=
  decide (l.wSlot + l.wSlots ≤ slots) && decide (l.sSlot + l.sSlots ≤ slots) && decide (l.aSlot + l.aSlots ≤ slots) &&
  apart l.wSlot l.wSlots l.sSlot l.sSlots && apart l.wSlot l.wSlots l.aSlot l.aSlots && apart l.sSlot l.sSlots l.aSlot l.aSlots &&
  decide (l.rowBytes ≤ l.ringBytes) && decide (l.rowBytes ≤ 508 * 1024)

/-- The accumulator modes meet Table 04.6, given the slot. -/
def LayerCmd.accOk (l : LayerCmd) (x : KCtx) : Bool :=
  (if l.accIn == 1 then
     decide (1 ≤ l.pinned) && decide (l.pinned * l.G ≤ l.K) && x.pinRec == some (l.pinned, l.gsize) && decide (l.pinCol + l.N ≤ 4096)
   else l.pinned == 0) &&
  (l.accIn != 2 || x.held == some (l.rows, l.N)) &&
  (l.accOut != 1 || decide (l.rows * l.N ≤ 4096)) &&
  (l.accOut != 2 || (l.rows == 1 && l.K % l.G == 0 && decide (l.pinCol + l.N ≤ 4096)))

/-- Key of an accumulator: by row where accumulators are carried or held, else the row in progress. -/
def LayerCmd.accKey (l : LayerCmd) (row n : Nat) : Nat := if l.accIn == 2 || l.accOut == 1 then row * l.N + n else n

/-- The first byte of the task's mooring in its working half. -/
def KCtx.origin (x : KCtx) (k : Nat) : Nat := berthAddr k x.half (4096 * x.base)

/-- Addresses: a weight tile, a weight scale block, an activation scale block (R158). Tiles follow one another with no gap; those of T3 at
G = 128 are 1,920 B (Table 02.4), so that not each can be aligned to 256 B as R67 also says: a tile's stream tag is that of the block
that holds its first byte. DESIGN CHOICE (log 112). -/
def LayerCmd.tileAddr (l : LayerCmd) (o t : Nat) : Nat := o + 4096 * l.wSlot + t * l.wf.tileBytes l.G
def LayerCmd.scaleAddr (l : LayerCmd) (o t : Nat) : Nat := o + 4096 * l.sSlot + t * l.wf.scaleBytes
def LayerCmd.blockAddr (l : LayerCmd) (o γ : Nat) : Nat :=
  o + 4096 * l.sSlot + roundUp l.scaleBytes 4096 + 256 * (γ / 48 - l.firstBlock)
/-- Address of byte i of a row: rows wrap in the ring. -/
def LayerCmd.rowAddr (l : LayerCmd) (o row i : Nat) : Nat := o + 4096 * l.aSlot + (row * l.rowBytes + i) % l.ringBytes

/-- Ordinal of the first tile of a group (R110, R151). -/
def LayerCmd.firstTile (l : LayerCmd) (γ : Nat) : Nat := (γ - l.pinned) * l.strips

/-- Slots of the mooring that hold a row. -/
def LayerCmd.rowSlots (l : LayerCmd) (row : Nat) : List Nat :=
  (slotsIn (row * l.rowBytes) l.rowBytes).map fun p => l.aSlot + p % max 1 l.aSlots

/-- Slots that the charger reads for one group of a row: the row, its activation scale block and, for C4, the block's codebook (R157). -/
def LayerCmd.chargeSlots (l : LayerCmd) (u : Nat × Nat × Nat) : List Nat :=
  l.rowSlots u.1 ++ slotsIn (l.blockAddr 0 u.2.1) 256 ++
    (if l.wf.isC4 then slotsIn (l.scaleAddr 0 (l.firstTile u.2.1 + u.2.2)) l.wf.scaleBytes else [])

/-- Slots that one weight tile of a group of a row reads (R157, R165). -/
def LayerCmd.needs (l : LayerCmd) (row γ strip : Nat) : List Nat :=
  let t := l.firstTile γ + strip
  slotsIn (l.tileAddr 0 t) (l.wf.tileBytes l.G) ++ slotsIn (l.scaleAddr 0 t) l.wf.scaleBytes ++ slotsIn (l.blockAddr 0 γ) 256 ++ l.rowSlots row

/-- Every slot of the working half in a list is ready. -/
def State.allReady (s : State) (k : Nat) (x : KCtx) (slots : List Nat) : Bool := slots.all fun i => s.isReady k x.half (x.base + i)

/-- A task's data is late in some slots: it waits, or it halts where a stream that feeds one of them is halted (R165, R222). -/
def State.dataLate (s : State) (k c : Nat) (late : List Nat) : State :=
  if s.fedByHalted k c late then s.haltTask k c 4 else s.setCtx k c fun x => { x with st := .waitTile, late := late }

/-- Slots of a list that are not ready in a task's working half. -/
def State.notReady (s : State) (k : Nat) (x : KCtx) (slots : List Nat) : List Nat :=
  (slots.filter fun i => !s.isReady k x.half (x.base + i)).dedup

/-- Bytes of a row that a group reads, as (address, length): two ranges where they wrap in the ring. -/
def LayerCmd.rowReads (l : LayerCmd) (o row γ : Nat) : List (Nat × Nat) :=
  let a := (row * l.rowBytes + (γ - l.pinned) * l.G) % max 1 l.ringBytes
  let n := min l.G (l.ringBytes - a)
  [(o + 4096 * l.aSlot + a, n), (o + 4096 * l.aSlot, l.G - n)]

/-- Bytes that one weight tile of a group of a row reads, as (address, length). -/
def LayerCmd.reads (l : LayerCmd) (o row γ strip : Nat) : List (Nat × Nat) :=
  let t := l.firstTile γ + strip
  [(l.tileAddr o t, l.wf.tileBytes l.G), (l.scaleAddr o t, l.wf.scaleBytes), (l.blockAddr o γ, 256)] ++ l.rowReads o row γ

/-- Read ranges through port B: the correctable words are corrected, or the uncorrectable ones make the read fail (R241, R242). -/
def State.touch (s : State) (rs : List (Nat × Nat)) : Except MemErr State :=
  let ws := rs.flatMap fun r => wordsOf r.1 r.2
  if ws.any fun w => s.badWord w then .error { bad := ((ws.filter fun w => s.badWord w).dedup).map (8 * ·), reads := ws }
  else .ok (s.correctWords ws)

/-- Note a tile of a binding: the first one counts. -/
def Tiles.note (ts : Tiles) (t : Nat × Nat × Nat) : Tiles :=
  match ts.tileOf t.1 t.2.1 with
  | some v => (t.1, t.2.1, min v t.2.2) :: ts.filter fun u => !(u.1 == t.1 && u.2.1 == t.2.1)
  | none => t :: ts

def Tiles.merge (a b : Tiles) : Tiles := b.foldl Tiles.note a

/-- The tiles that brought the blocks of some ranges to a task. -/
def State.tilesOf (s : State) (x : KCtx) (rs : List (Nat × Nat)) : Tiles :=
  (rs.flatMap fun r => piecesOf r.1 r.2).foldl (fun ts p =>
    match Tab.find (p.1 / 256) s.origins with
    | some o => if o.job == x.job && o.unit == x.unit then Tiles.note ts (o.task, o.bind, o.first) else ts
    | none => ts) []

/-! ### The check (R113 to R118) -/

/-- A scale slip: the expected and the found value, and `SOURCE`. -/
abbrev Slip := Nat × Nat × Nat

/-- Header byte 1 that a weight scale block must hold. -/
def LayerCmd.wantHeader (l : LayerCmd) : Nat := (if l.wf.isC4 then 2 else 1) + 16 * b2n l.beta + 32 * b2n l.wscale

/-- The first failing comparison of one tile of a group, in the order of R113. -/
def State.slipOf (s : State) (l : LayerCmd) (o γ t : Nat) : Option Slip :=
  let tag := Tab.get (fun _ => 0) s.tags (l.tileAddr o t / 256)
  let w := l.scaleAddr o t
  let a := l.blockAddr o γ
  let wt := (s.byte w).toNat
  let wh := (s.byte (w + 1)).toNat
  let at' := (s.byte a).toNat
  let ah := (s.byte (a + 1)).toNat
  if tag != t % 256 then some (t % 256, tag, 0)
  else if wt != t % 256 then some (t % 256, wt, 1)
  else if wh % 64 != l.wantHeader then some (l.wantHeader, wh, 3)
  else if at' != γ / 48 % 256 then some (γ / 48 % 256, at', 2)
  else if ah % 16 != 3 then some (3, ah, 3)
  else none

/-- The group in progress starts again from its first lookup group, with nothing of it added (R114, R116, R97). -/
def State.regroup (s : State) (k c : Nat) : State := s.setCtx k c fun x => { x with strip := 0, staged := [] }

/-- Fill `KLN_SLIP_LAST` and halt (R114). -/
def State.slipHalt (s : State) (k c : Nat) (p : Slip) : State :=
  let s := s.regroup k c
  let s := (s.put KLN_SLIP_LAST_EXPECTED k (p.1 % 256)).put KLN_SLIP_LAST_FOUND k (p.2.1 % 256)
  ((s.put KLN_SLIP_LAST_SOURCE k p.2.2).put KLN_SLIP_LAST_VALID k 1).haltTask k c 1

/-! ### One group of one row (R48 to R81, R100 to R123) -/

/-- Codebook of a C4 tile. -/
def State.codebookAt (s : State) (l : LayerCmd) (o t : Nat) : Option (List Int × Int) :=
  codebook l.wf fun i => (s.byte (l.scaleAddr o t + 16 + i)).toNat

/-- A tile's codebook has an entry that is not finite (R62). -/
def State.badCodebook (s : State) (l : LayerCmd) (o t : Nat) : Bool := l.wf.isC4 && (s.codebookAt l o t).isNone

/-- What one group of a row is charged as (R100 to R108). -/
def State.chargeRow (s : State) (l : LayerCmd) (o row γ : Nat) : Charged :=
  let z := (s.byte (l.blockAddr o γ + 208 + γ % 48)).toNat
  charge l.af l.G (min l.G (l.K - γ * l.G)) (fun i => (s.byte (l.rowAddr o row ((γ - l.pinned) * l.G + i))).toNat) z

/-! The table store: a unit of charging is a reduction group of a row and, for C4, one column block, written (row, group, block). -/

/-- The unit that the position of a LAYER looks up. -/
def LayerCmd.unitAt (l : LayerCmd) (x : KCtx) : Nat × Nat × Nat := (x.row, x.group, if l.wf.isC4 then x.strip else 0)

/-- The unit after one, in the order of lookups. -/
def LayerCmd.nextUnit (l : LayerCmd) (u : Nat × Nat × Nat) : Option (Nat × Nat × Nat) :=
  if l.wf.isC4 && decide (u.2.2 + 1 < l.strips) then some (u.1, u.2.1, u.2.2 + 1)
  else if u.2.1 + 1 < l.groups then some (u.1, u.2.1 + 1, 0)
  else if u.1 + 1 < l.rows then some (u.1 + 1, l.pinned, 0)
  else none

def LutGroup.unit (g : LutGroup) : Nat × Nat × Nat := (g.row, g.group, g.block)

/-- Tables held by a bank. -/
def bankCount (ts : List LutGroup) : Nat := (ts.map fun g => g.tables.length).sum

/-- The tables of a unit, with the exponent that goes with them and S (R69 to R78, R81). -/
def State.tablesOf (s : State) (l : LayerCmd) (o : Nat) (u : Nat × Nat × Nat) (ch : Charged) : LutGroup :=
  let a := fun i => ch.a.getD i 0
  match l.wf with
  | .w _ => let Es := wTables l.G a; ⟨u.1, u.2.1, u.2.2, Es, ch.xa, wSum Es⟩
  | .t3 => let Es := t3Tables l.G a; ⟨u.1, u.2.1, u.2.2, Es, ch.xa, t3Sum Es⟩
  | _ =>
    let (book, xcb) := (s.codebookAt l o (l.firstTile u.2.1 + u.2.2)).getD ([], 0)
    let sh := c4Shift (maxAbs l.G a) (maxAbs 16 fun i => book.getD i 0)
    ⟨u.1, u.2.1, u.2.2, c4Tables l.G a book sh, ch.xa + xcb + sh, plainSum l.G a⟩

/-- The charger can charge a unit: its data is ready and good, and its codebook is finite. -/
def State.canCharge (s : State) (k : Nat) (x : KCtx) (l : LayerCmd) (u : Nat × Nat × Nat) : Bool :=
  let o := x.origin k
  let t := l.firstTile u.2.1 + u.2.2
  (s.notReady k x (l.chargeSlots u)).isEmpty && !s.badCodebook l o t &&
  ((l.rowReads o u.1 u.2.1 ++ [(l.blockAddr o u.2.1, 256)] ++ (if l.wf.isC4 then [(l.scaleAddr o t, l.wf.scaleBytes)] else [])).all
    fun r => (s.firstBad r.1 r.2).isNone)

/-- The unit that the charger takes next: after the last of the idle bank, of the active bank, or the one at the position. -/
def LayerCmd.nextCharge (l : LayerCmd) (q : Kiln) (x : KCtx) : Option (Nat × Nat × Nat) :=
  match q.idle.getLast?, q.active.getLast? with
  | some g, _ => l.nextUnit g.unit
  | none, some g => l.nextUnit g.unit
  | none, none => some (l.unitAt x)

/-- Charge the idle bank with whole groups while it holds them and their data is there (R84, R91). Saturations and NaNs of F8
activations count as they are charged (R106, R107); C4 tables take the multiply array (R79). DESIGN CHOICE (log 113). -/
def State.chargeIdle (s : State) (k c : Nat) (l : LayerCmd) : Nat → State
  | 0 => s
  | fuel + 1 =>
    let x := s.ctx k c
    let q := s.kiln k
    match l.nextCharge q x with
    | none => s
    | some u =>
      if bankCount q.idle + l.wf.groupTables l.G > l.wf.bankTables || !s.canCharge k x l u then s
      else
        let o := x.origin k
        let ch := s.chargeRow l o u.1 u.2.1
        let g := s.tablesOf l o u ch
        let q := q.setIdle (q.idle ++ [g])
        let t := s.putKiln k { q with c4 := if l.wf.isC4 then some c else q.c4 }
        let t := if u.2.2 == 0 then (t.inc KLN_F8_SATURATIONS_COUNT k ch.sats).inc KLN_F8_NANS_COUNT k ch.nans else t
        State.chargeIdle t k c l fuel

/-- P of one column from the tables of its unit, and the column's reserved T3 codes (R58, R72, R75, R77). -/
def State.product (s : State) (l : LayerCmd) (o t col : Nat) (g : LutGroup) : Int × Nat :=
  let rd := fun i => (s.byte (l.tileAddr o t + i)).toNat
  match l.wf with
  | .w b => (wProduct b g.tables fun j i => wBit rd l.G col j i, 0)
  | .t3 => let code := t3Code rd l.G col; (t3Product g.tables code, t3Reserved l.G code)
  | _ => (c4Product g.tables (c4Index rd l.G col), 0)

/-- The weight scale and offset of a column in a scale block (Table 03.4). -/
def State.columnScale (s : State) (l : LayerCmd) (w col : Nat) : Nat × Option Nat :=
  (if l.wscale then widen .fp16 (s.num (w + 64 + 2 * col) 2) else s.num (w + 64 + 4 * col) 4,
   if l.beta then some (widen .fp16 (s.num (w + 320 + 2 * col) 2)) else none)

/-- Columns of a weight tile below N (R68). -/
def LayerCmd.columns (l : LayerCmd) (strip : Nat) : List Nat :=
  (List.range (min l.wf.stripCols (l.N - strip * l.wf.stripCols))).map (strip * l.wf.stripCols + ·)

/-- Column n's accumulator with a group's contribution added (R121), and the reserved T3 codes met. -/
def State.addColumn (s : State) (l : LayerCmd) (o row γ strip : Nat) (g : LutGroup) (acc : Tab Nat) (n : Nat) : Nat × Nat :=
  let t := l.firstTile γ + strip
  let col := n % l.wf.stripCols
  let (p, bad) := s.product l o t col g
  let (sw, beta) := s.columnScale l (l.scaleAddr o t) col
  let sa := s.num (l.blockAddr o γ + 16 + 4 * (γ % 48)) 4
  (groupRescale sw sa g.exp beta p g.sum (Tab.get (fun _ => 0) acc (l.accKey row n)), bad)

/-- The lookups of one weight tile of a group of a row: its columns' new accumulators are kept until every tile of the group is
verified, and then enter (R113, R114). -/
def State.addTile (s : State) (k c : Nat) (l : LayerCmd) (g : LutGroup) : State :=
  let x := s.ctx k c
  let o := x.origin k
  let cs := (l.columns x.strip).map fun n => (l.accKey x.row n, s.addColumn l o x.row x.group x.strip g x.acc n)
  let staged := x.staged ++ cs.map fun e => (e.1, e.2.1)
  let used := x.used.merge (s.tilesOf x (l.reads o x.row x.group x.strip))
  let y := if x.strip + 1 < l.strips then { x with strip := x.strip + 1, staged := staged, used := used }
    else { x with strip := 0, staged := [], group := x.group + 1, acc := staged.foldl (fun a e => Tab.insert e.1 e.2 a) x.acc, used := used }
  (s.putCtx k c y).inc KLN_T3_RESERVED_CODES_COUNT k (cs.map fun e => e.2.2).sum

/-- The starting values of a row's accumulators (R123, R150). -/
def LayerCmd.startRow (l : LayerCmd) (x : KCtx) (row : Nat) : Tab Nat :=
  if l.accIn == 2 then x.acc
  else (List.range l.N).foldl (fun a n =>
    Tab.insert (l.accKey row n) (if l.accIn == 1 then Tab.get (fun _ => 0) x.pins (l.pinCol + n) else 0) a) x.acc

/-! ### Row ends: output stage, pins, ring (R128 to R139, R153, R154, R160) -/

/-- Quantised outputs of a row with their rescale entries. -/
def LayerCmd.outputs (l : LayerCmd) (o : OFmt) (acc : Tab Nat) (row : Nat) (tbl : List Byte) : List (RescaleEntry × Quantised) :=
  (List.range l.N).map fun n =>
    let r := RescaleEntry.ofBits (fieldOf tbl (16 * n) 16)
    (r, quantise o r.zp (outputReal r (Tab.get (fun _ => 0) acc (l.accKey row n))))

/-- A row's outputs as bytes. -/
def outputBytes (o : OFmt) (qs : List (RescaleEntry × Quantised)) : List Byte := qs.flatMap fun q => leBytes o.bytes q.2.code

/-- The bytes of a row in the ring, as (address, length). -/
def LayerCmd.rowRanges (l : LayerCmd) (o row : Nat) : List (Nat × Nat) :=
  let a := row * l.rowBytes % max 1 l.ringBytes
  let n := min l.rowBytes (l.ringBytes - a)
  [(o + 4096 * l.aSlot + a, n), (o + 4096 * l.aSlot, l.rowBytes - n)]

/-- Write one row through the output stage; none where an access failed and the task is gone. -/
def State.outputRow (s : State) (k c : Nat) (l : LayerCmd) (row : Nat) : Option State × State :=
  let x := s.ctx k c
  let r := s.taskReq x
  let o := (OFmt.ofCode l.ofmt).getD .fp32
  match s.read r l.rescale (16 * l.N) with
  | .error e => (none, s.kilnAccess k c e l.rescale)
  | .ok (tbl, s) =>
    let qs := l.outputs o x.acc row tbl
    let a := l.out + row * roundUp (l.N * o.bytes) 64
    match s.write r a (outputBytes o qs) with
    | .error e => (none, s.kilnAccess k c e a)
    | .ok s =>
      let s := s.inc KLN_OUTPUT_NANS_COUNT k (qs.countP fun q => q.2.nan)
      let s := s.inc KLN_RESCALE_RESERVED_COUNT k (qs.countP fun q => q.1.reserved)
      let clips := (qs.zipIdx.filter fun q => q.1.2.clip).map (·.2)
      let page := if l.clipPage then some (l.clip, l.clipBase) else none
      let used := s.tilesOf x (l.rowRanges (x.origin k) row)
      (some (s.setCtx k c fun y => { y with rows := y.rows ++ [⟨y.pc, row, l.N, clips, page, false, used⟩] }), s)

/-- Write the pins of the one row of a pin-writing LAYER (R153). -/
def State.pinRow (s : State) (k c : Nat) (l : LayerCmd) : Option State × State :=
  let x := s.ctx k c
  let vs := (List.range l.N).map fun n => Tab.get (fun _ => 0) x.acc n
  let pins := (vs.zipIdx).foldl (fun p v => Tab.insert (l.pinCol + v.2) v.1 p) x.pins
  let s := s.putCtx k c { x with pins := pins, pinRec := some (l.K / l.G, l.gsize) }
  if l.out == 0 then (some s, s)
  else match s.write (s.taskReq x) l.out (vs.flatMap fun v => leBytes 4 v) with
    | .error e => (none, s.kilnAccess k c e l.out)
    | .ok s => (some (s.setCtx k c fun y => { y with rows := y.rows ++ [⟨y.pc, 0, 0, [], none, false, []⟩] }), s)

/-- Clear the ring slots whose rows are all done after a row (R160). -/
def State.freeRing (s : State) (k c : Nat) (l : LayerCmd) (row : Nat) : State :=
  let x := s.ctx k c
  let done := (row + 1) * l.rowBytes
  let ps := (slotsIn (row * l.rowBytes) l.rowBytes).filter fun p => decide (4096 * (p + 1) ≤ done) || row + 1 == l.rows
  ps.foldl (fun t p => t.setReady k x.half (x.base + l.aSlot + p % max 1 l.aSlots) false) s

/-- End one row. -/
def State.endRow (s : State) (k c : Nat) (l : LayerCmd) (row : Nat) : Option State × State :=
  let r := if l.accOut == 0 then s.outputRow k c l row else if l.accOut == 2 then s.pinRow k c l else (some s, s)
  match r with
  | (none, t) => (none, t)
  | (some t, _) =>
    let t := t.freeRing k c l row
    let t := t.setCtx k c fun x =>
      { x with row := row + 1, group := l.pinned, acc := if l.accIn == 2 || l.accOut == 1 then x.acc else [] }
    (some t, t)

/-! ### Running a LAYER -/

/-- The LAYER has computed every row: regions are released, the path is free, and the next command follows (R160, R166). -/
def State.layerEnds (s : State) (k c : Nat) (l : LayerCmd) : State :=
  let x := s.ctx k c
  let s := if l.release then
      ((List.range l.wSlots).map (l.wSlot + ·) ++ (List.range l.sSlots).map (l.sSlot + ·)).foldl
        (fun t i => t.setReady k x.half (x.base + i) false) s
    else s
  let s := s.setCtx k c fun y => { y with held := if l.accOut == 1 then some (l.rows, l.N) else none,
                                          chain := if l.accOut == 1 then y.chain else none, acc := if l.accOut == 1 then y.acc else [],
                                          used := if l.accOut == 1 then y.used else [], pinUsed := if l.accOut == 2 then y.used else y.pinUsed }
  (s.putKiln k { (s.kiln k).emptied with path := none }).commandDone k c 64 (l.accOut == 2)

/-- Run a LAYER from its saved position, weight tile after weight tile, group after group and row after row, until it ends, waits,
halts, or has finished the active bank of the table store, which BANK_EXCHANGE then exchanges. The first bank of a LAYER, or of one
that comes back, is charged and exchanged on the way (R85, R88). DESIGN CHOICE (log 113). -/
def State.runLayer (s : State) (k c : Nat) (l : LayerCmd) : Nat → State
  | 0 => s
  | fuel + 1 =>
    let x := s.ctx k c
    if x.row ≥ l.rows then s.layerEnds k c l
    else if x.group ≥ l.groups then
      match (if l.computed == 0 then s.putCtx k c { x with acc := l.startRow x x.row } else s).endRow k c l x.row with
      | (none, t) => t
      | (some t, _) => State.runLayer t k c l fuel
    else
      let s := if x.group == l.pinned && x.strip == 0 then s.putCtx k c { x with acc := l.startRow x x.row } else s
      let o := x.origin k
      let t := l.firstTile x.group + x.strip
      let late := s.notReady k x (l.needs x.row x.group x.strip)
      if !late.isEmpty then s.dataLate k c late
      else match s.touch (l.reads o x.row x.group x.strip) with
        | .error e => s.memError e (some x.job)
        | .ok s =>
          match s.slipOf l o x.group t with
          | some p => s.slipHalt k c p
          | none =>
            if s.badCodebook l o t then (s.regroup k c).haltTask k c 2
            else match (s.kiln k).active.find? fun g => g.unit == l.unitAt x with
              | some g =>
                let t := s.addTile k c l g
                if x.dbgReq == 3 then t.dbgStop k c else State.runLayer t k c l fuel
              | none =>
                let t := s.chargeIdle k c l 1024
                if (s.kiln k).firstBank then State.runLayer (t.putKiln k (t.kiln k).exchange) k c l fuel else t

/-- Steps that a LAYER's run can take: a bank or a tile each, and the row ends. -/
def LayerCmd.fuel (l : LayerCmd) : Nat := l.rows * (2 * l.groups * l.strips + 1) + 1

/-- Start or go on with a LAYER. A fresh one begins at its first computed group, at the row that the slot gives. The table store holds
what it held while the path stayed with the task, and is empty where the task takes the path (R86 to R88). -/
def State.startLayer (s : State) (k c w : Nat) : State :=
  let x := s.ctx k c
  match layerOf w with
  | none => s.malformed k c
  | some l =>
    if !(x.begun || (l.accOk x && l.placed x.slots && !inBerthView l.out && !inBerthView l.rescale && !(l.clipPage && inBerthView l.clip))) then
      s.malformed k c
    else
      let x := if x.begun then x
        else { x with begun := true, group := l.pinned, strip := 0, staged := [], watermark := x.row,
                      chain := if l.accIn == 2 then x.chain else some x.pc, used := if l.accIn == 2 then x.used else [] }
      let q := s.kiln k
      let s := (s.putCtx k c { x with st := .running, late := [], cmd := w, noswitch := bit w 8, declLen := bits w 16 8 }).putKiln k
        (if q.path == some c then q else { q.emptied with path := some c })
      s.runLayer k c l l.fuel

/-- The opcode at a slot's program counter, when it can be read. -/
def State.opcodeAt (s : State) (x : KCtx) : Option Nat :=
  match s.read (s.taskReq x) x.pc 1 with
  | .ok (bs, _) => some (leNat bs)
  | .error _ => none

/-- The slot whose command an engine takes next: the READY one of earliest rank with that opcode, ties to the lower slot (R166, R171). -/
def State.nextOn (s : State) (k op : Nat) : Option Nat :=
  pickBy (fun a b => rankBefore (s.ctx k a).rank (s.ctx k b).rank)
    ((List.range 4).filter fun c => (s.ctx k c).st == .ready && s.opcodeAt (s.ctx k c) == some op)

/-- A slot's command may run on an engine that `holder` holds: it is its own, or free for it (R166, R167, R171). -/
def State.mayUse (s : State) (k c op : Nat) (holder : Option Nat) : Bool :=
  holder == some c || (holder == none && s.nextOn k op == some c)

/-- LAYER (R150): it runs when the lookup path is its own or free for it (R166, R167). -/
def execLayer (kiln slot : Nat) (s : State) : Host.Outcome State Fault Refusal :=
  if s.mayUse kiln slot opLayer (s.kiln kiln).path then
    ok (s.command kiln slot opLayer 64 fun w t => t.startLayer kiln slot w)
  else ok s

/-- The LAYER that runs on a kiln's lookup path, when the fabric has finished the active bank's lookups and the charger has the unit
that comes next in the idle bank (R85). -/
def State.exchanges (s : State) (k : Nat) : Option (Nat × LayerCmd) :=
  let q := s.kiln k
  match q.path with
  | none => none
  | some c =>
    let x := s.ctx k c
    if x.st != .running then none
    else match layerOf x.cmd with
      | none => none
      | some l =>
        let u := l.unitAt x
        if (q.active.all fun g => g.unit != u) && q.idle.any fun g => g.unit == u then some (c, l) else none

/-- BANK_EXCHANGE (R85, R86, R88): the banks exchange roles, the waits count, and the LAYER goes on. -/
def execBankExchange (kiln chargeWait lookupWait : Nat) (s : State) : Host.Outcome State Fault Refusal :=
  if s.live && decide (kiln < s.kilnCount) && !s.kilnFenced kiln && (chargeWait == 0 || lookupWait == 0) then
    match s.exchanges kiln with
    | some (c, l) =>
      let t := s.putKiln kiln (s.kiln kiln).exchange
      ok (((t.inc KLN_CHARGE_WAIT_CYCLES kiln chargeWait).inc KLN_LOOKUP_WAIT_CYCLES kiln lookupWait).runLayer kiln c l l.fuel)
    | none => ok s
  else ok s

/-- Some task of a kiln waits for a tile on a LAYER, or on a command of the hearth (R170, R171). DEDUCED (log 114). -/
def State.starved (s : State) (k : Nat) : Bool :=
  (List.range 4).any fun c => (s.ctx k c).st == .waitTile

/-- An engine leaves a waiting task for the next READY one (R165, R171), unless the waiting command has `NOSWITCH` (R169). -/
def State.switchTo (s : State) (k op : Nat) (holder : Option Nat) : Option Nat :=
  match holder with
  | some c => if (s.ctx k c).st == .waitTile && !(s.ctx k c).noswitch then s.nextOn k op else none
  | none => none

/-- Give an engine to a slot, with the switch counted (R168); `f` says which. -/
def State.switched (s : State) (k : Nat) (d : Option Nat) (f : Nat → Kiln → Kiln) : State :=
  match d with
  | some d => (s.putKiln k (f d (s.kiln k))).inc KLN_SWITCHES_COUNT k 1
  | none => s

/-- TASK_SWITCH (R165, R168, R170, R171, R87): the cycles that an engine idled while a task waited count; the lookup path and the
hearth's engines leave waiting tasks for READY ones. The table store's contents are discarded. -/
def execTaskSwitch (kiln cycles : Nat) (s : State) : Host.Outcome State Fault Refusal :=
  if s.live && decide (kiln < s.kilnCount) && !s.kilnFenced kiln then
    let t := if s.starved kiln then s.inc KLN_STARVE_CYCLES kiln cycles else s
    let q := s.kiln kiln
    let t := t.switched kiln (s.switchTo kiln opLayer q.path) fun d q => { q.emptied with path := some d }
    let t := t.switched kiln (s.switchTo kiln opHmul q.mul) fun d q => { q with mul := some d }
    ok (t.switched kiln (s.switchTo kiln opHvec q.vec) fun d q => { q with vec := some d })
  else ok s

/-! ### The row watermark (R135, R137, R155) -/

/-- Add clips to a clip page: counters of 16 bits that hold at the top (R138, R139). A counter that cannot be read or written gives its
address. -/
def State.clipPage (s : State) (r : Req) (page first : Nat) : List Nat → Except (AccErr × Nat) State
  | [] => .ok s
  | n :: t =>
    if first ≤ n ∧ n < first + 4096 then
      let a := page + 2 * (n - first)
      match s.read r a 2 with
      | .error e => .error (e, a)
      | .ok (bs, u) => match u.write r a (leBytes 2 (min (leNat bs + 1) 0xFFFF)) with
        | .error e => .error (e, a)
        | .ok v => State.clipPage v r page first t
    else State.clipPage s r page first t

/-- The row was counted before a restart that computes it again (R137). -/
def KCtx.countedRow (x : KCtx) (r : RowOut) : Bool :=
  match x.counted with
  | some (a, w) => a == r.layer && decide (r.row < w)
  | none => false

/-- The watermark passes a row: its outputs and clips are counted, and its clip page (R135, R137, R138, R155). An access to the clip page
that is refused halts the task as any of a kiln command does (R252, R256, R448, R454), and an uncorrectable word is an error (R242); none
then. -/
def State.passRow (s : State) (k c : Nat) (r : RowOut) : Option State × State :=
  let x := s.ctx k c
  let s := s.putCtx k c { x with watermark := if x.begun && x.pc == r.layer then r.row + 1 else x.watermark }
  if x.countedRow r then (some s, s)
  else
    let s := s.setCtx k c fun y => { y with clip := y.clip + r.clips.length, total := y.total + r.outs }
    let s := match s.job x.job with
      | some j => s.putJob { j with clip := min (j.clip + r.clips.length) 0xFFFFFFFF, total := min (j.total + r.outs) 0xFFFFFFFF }
      | none => s
    match r.page with
    | none => (some s, s)
    | some p =>
      match s.clipPage (s.taskReq x) p.1 p.2 r.clips with
      | .ok t => (some t, t)
      | .error (.memory e, _) => (none, s.memError e (some x.job))
      | .error (e, a) => (none, s.kilnAccess k c e a)

/-- Pass the acknowledged rows in order, each unless a lower row of its LAYER is still outstanding (R155). `kept` are rows that stay, and
`held` their LAYERs. -/
def State.passRows (s : State) (k c : Nat) (held : List Nat) (kept : List RowOut) : List RowOut → State
  | [] => s.setCtx k c fun x => { x with rows := kept }
  | r :: t =>
    if r.acked && !held.contains r.layer then
      match (s.setCtx k c fun x => { x with rows := kept ++ t }).passRow k c r with
      | (none, u) => u
      | (some u, _) => State.passRows u k c held kept t
    else State.passRows s k c (r.layer :: held) (kept ++ [r]) t

/-- Mark a row of a LAYER as acknowledged. -/
def ackRow (layer row : Nat) : List RowOut → List RowOut
  | [] => []
  | r :: t => if r.layer == layer && r.row == row && !r.acked then { r with acked := true } :: t else r :: ackRow layer row t

/-- ROW_WATERMARK_ADVANCE (R155). -/
def execRowWatermarkAdvance (kiln slot : Nat) (row : RowAt) (s : State) : Host.Outcome State Fault Refusal :=
  if s.live && (s.ctx kiln slot).rows.any fun r => r.layer == row.layer && r.row == row.row && !r.acked then
    ok (s.passRows kiln slot [] [] (ackRow row.layer row.row (s.ctx kiln slot).rows))
  else ok s

/-! ### The command unit -/

/-- LOADPIN (R178, R179). -/
def State.runLoadpin (s : State) (k c w : Nat) : State :=
  let x := s.ctx k c
  let n := bits w 32 12 + 1
  let col := bits w 44 12
  let src := 256 * bits w 128 40
  if !onlyBits w [(0, 24), (32, 12), (44, 12), (56, 16), (72, 2), (128, 40)] || bits w 72 2 == 3 || decide (col + n > 4096) then s.malformed k c
  else match s.read (s.taskReq x) src (4 * n) with
    | .error e => s.kilnAccess k c e src
    | .ok (bs, t) =>
      let pins := (List.range n).foldl (fun p i => Tab.insert (col + i) (fieldOf bs (4 * i) 4) p) x.pins
      (t.putCtx k c { x with pins := pins, pinRec := some (bits w 56 16, bits w 72 2), pinUsed := [] }).commandDone k c 32 true

/-- LOADPIN (R178). -/
def execLoadpin (kiln slot : Nat) (s : State) : Host.Outcome State Fault Refusal :=
  ok (s.command kiln slot opLoadpin 32 fun w t => t.runLoadpin kiln slot w)

/-- Every write of the task's earlier commands is acknowledged. -/
def KCtx.settled (x : KCtx) : Bool := x.rows.isEmpty

/-- SWAP (R162, R163). -/
def State.runSwap (s : State) (k c w : Nat) : State :=
  let x := s.ctx k c
  if !onlyBits w [(0, 24)] then s.malformed k c
  else if x.settled then
    let s := (List.range x.slots).foldl (fun t i => t.setReady k x.half (x.base + i) false) s
    (s.putCtx k c { x with half := !x.half, hearth := [] }).commandDone k c 32 false
  else s

/-- SWAP (R163). -/
def execSwap (kiln slot : Nat) (s : State) : Host.Outcome State Fault Refusal :=
  ok (s.command kiln slot opSwap 32 fun w t => t.runSwap kiln slot w)

/-- A barrier word lies in a scratch way of the device's own warehouse, in the normal view (R183). -/
def State.barrierOk (s : State) (a : Nat) : Bool :=
  let (d, w) := wayOf (a - whsBase)
  barOk a && a % 8 == 0 && s.wayUse d w == 0 && s.wayClasses d w != 0

/-- ARRIVE (R180). -/
def State.runArrive (s : State) (k c w : Nat) : State :=
  let x := s.ctx k c
  let a := bits w 32 48
  if !onlyBits w [(0, 24), (24, 6), (32, 48)] || !s.barrierOk a then s.malformed k c
  else if x.settled then
    match s.barrierWrite (s.taskReq x) 1 a (2 ^ bits w 24 6) with
    | .ok t => t.commandDone k c 32 false
    | .error e => s.kilnAccess k c e a
  else s

/-- ARRIVE (R180). -/
def execArrive (kiln slot : Nat) (s : State) : Host.Outcome State Fault Refusal :=
  ok (s.command kiln slot opArrive 32 fun w t => t.runArrive kiln slot w)

/-- WAITBAR (R181): satisfied, or the task waits. -/
def State.runWaitbar (s : State) (k c w : Nat) : State :=
  let x := s.ctx k c
  let a := bits w 32 48
  let m := bits w 128 64
  if !onlyBits w [(0, 24), (32, 48), (128, 64)] || !s.barrierOk a then s.malformed k c
  else match s.read (s.taskReq x) a 8 with
    | .error e => s.kilnAccess k c e a
    | .ok (bs, t) => if leNat bs &&& m == m then t.commandDone k c 32 false else t.putCtx k c { x with st := .waitBar }

/-- WAITBAR (R181). -/
def execWaitbar (kiln slot : Nat) (s : State) : Host.Outcome State Fault Refusal :=
  ok (s.command kiln slot opWaitbar 32 fun w t => t.runWaitbar kiln slot w)

/-- WAITBAR_REREAD (R181): a waiting task reads the word again. -/
def execWaitbarReread (kiln slot : Nat) (s : State) : Host.Outcome State Fault Refusal :=
  let x := s.ctx kiln slot
  if x.st == .waitBar then
    ok (State.command (s.putCtx kiln slot { x with st := .ready }) kiln slot opWaitbar 32 fun w t => t.runWaitbar kiln slot w)
  else ok s

/-- CLEARBAR (R182). -/
def State.runClearbar (s : State) (k c w : Nat) : State :=
  let x := s.ctx k c
  let a := bits w 32 48
  if !onlyBits w [(0, 24), (32, 48), (128, 64)] || !s.barrierOk a then s.malformed k c
  else match s.barrierWrite (s.taskReq x) 2 a (bits w 128 64) with
    | .ok t => t.commandDone k c 32 false
    | .error e => s.kilnAccess k c e a

/-- CLEARBAR (R182). -/
def execClearbar (kiln slot : Nat) (s : State) : Host.Outcome State Fault Refusal :=
  ok (s.command kiln slot opClearbar 32 fun w t => t.runClearbar kiln slot w)

/-- Every task of a unit has ended. -/
def UnitRun.finished (u : UnitRun) : Bool := u.dispatched && u.tasks.all fun t => t == .ended

/-- The number of the unit that runs the step of a layer of a chunk (R387): beyond those of an image. A layer is below 16 (Table 09.1).
DESIGN CHOICE (log 126). -/
def stepUnit (chunk layer : Nat) : Nat := 0x10000 + 16 * chunk + layer

/-- A job's chunk steps are over: it appends nothing, its append has ended, or the append follows its scoring (R390). -/
def Job.stepsOver (j : Job) : Bool :=
  match j.hist with
  | some u => u.after || !(u.opened || (!u.begun && (u.op == 1 || u.op == 2)))
  | none => true

/-- A unit of a job's variant is complete: one of KIND chunk step with the job's last chunk step. DESIGN CHOICE (log 126). -/
def Job.unitOver (j : Job) (u : UnitRun) : Bool := if u.kind == 2 && decide (u.no < 0x10000) then j.stepsOver else u.finished

/-- Every unit of a job's variant is complete. -/
def Job.settle (j : Job) : Job := { j with unitsDone := (j.units.filter fun u => decide (u.no < 0x10000)).all fun u => j.unitOver u }

/-- A task of a job has ended: its unit may complete, with its cost done (R142, R412, R418). -/
def Job.taskEnded (j : Job) (unit task : Nat) : Job :=
  let j := j.setUnit unit fun u => { u with tasks := u.tasks.set task .ended }
  match j.units.find? fun u => u.no == unit with
  | none => j
  | some u =>
    if u.finished then
      let n := u.tasks.length
      let j := j.settle
      { j with left := { j.left with kiln := j.left.kiln - u.kilnCost * n, hearth := j.left.hearth - u.hearthCost * n,
                                     hbm := if j.unitsDone then [] else j.left.hbm } }
    else j

/-- A task leaves its slot with its program done: nothing more is written to its berth for it. Its receivers detach for good, and a
berth stream with none left ends. DEDUCED (log 55). -/
def State.stopFeeding (s : State) (k c : Nat) : State :=
  let fed := fun (r : Rcv) => r.attached && r.kiln == k && r.slot == c
  let hits := (s.streams.filter fun e => e.2.dstKind == 0 && e.2.st != .free && e.2.st != .frozen && e.2.rcv.any fed).map (·.1)
  let s := hits.foldl (fun t n =>
    let x := t.stream n
    let y := { x with rcv := x.rcv.map fun r => if fed r then { r with attached := false } else r }
    let z := y.dropDone
    let t := (t.freeTags n (x.inFlight - z.inFlight)).putStream n z
    if z.rcv.any (·.attached) then t else t.freeStream n) s
  let t := s.ctx k c
  { s with catchUps := s.catchUps.filter fun e => !(e.job == t.job && e.unit == t.unit && e.task == t.task) }

/-- END (R142): once every write is acknowledged the task leaves its slot. -/
def State.runEnd (s : State) (k c w : Nat) : State :=
  let x := s.ctx k c
  if !onlyBits w [(0, 24)] then s.malformed k c
  else if x.settled then
    let s := (s.stopFeeding k c).freeSlot k c
    match s.job x.job with
    | some j => s.putJob (j.taskEnded x.unit x.task)
    | none => s
  else s

/-- KILN_END (R142). -/
def execKilnEnd (kiln slot : Nat) (s : State) : Host.Outcome State Fault Refusal :=
  ok (s.command kiln slot opEnd 32 fun w t => t.runEnd kiln slot w)

/-! ### Resuming a task (R97, R116, R476, R477) -/

/-- The LAYER at a slot's program counter. -/
def State.layerAt (s : State) (x : KCtx) : Option LayerCmd :=
  if s.opcodeAt x == some opLayer then
    match s.read (s.taskReq x) x.pc 64 with
    | .ok (bs, _) => layerOf (leNat bs)
    | .error _ => none
  else none

/-- The tiles at which a halted LAYER's streams restart: those of the group at its position. The weight tiles' ordinals are the tiles of
their stream (R110, R112); for the scale blocks and the row they are the tiles that brought them (R116). DEDUCED (log 82). -/
def State.groupTiles (s : State) (k : Nat) (x : KCtx) (l : LayerCmd) : Tiles :=
  let o := x.origin k
  let t := l.firstTile x.group
  let weights := s.tilesOf x [(l.tileAddr o t, l.strips * l.wf.tileBytes l.G)]
  Tiles.merge (weights.map fun w => (w.1, w.2.1, t))
    (s.tilesOf x ([(l.scaleAddr o t, l.strips * l.wf.scaleBytes), (l.blockAddr o x.group, 256)] ++ l.rowReads o x.row x.group))

/-- The ready bits of the slots that the restarted streams fill again are cleared. -/
def State.clearRefilled (s : State) (k : Nat) (x : KCtx) (tiles : Tiles) : State :=
  let again := fun (h : Bool) (i : Nat) => (List.range 16).any fun b =>
    match Tab.find ((berthAddr k h (4096 * (x.base + i)) / 256) + b) s.origins with
    | some o => o.job == x.job && o.unit == x.unit && (tiles.tileOf o.task o.bind).any fun t => decide (t ≤ o.last)
    | none => false
  ([false, true].flatMap fun h => ((List.range x.slots).filter (again h)).map fun i => (h, i)).foldl
    (fun t p => t.setReady k p.1 (x.base + p.2) false) s

/-- A kiln task's resume word (R97, R116, R476, R477): the task is READY, and its weight, scale and activation streams restart at the
tiles of the failing group. -/
def State.resumeTask (s : State) (word : Nat) : State :=
  let (k, c) := (bits word 0 10 / 4, word % 4)
  let x := s.ctx k c
  if bits word 10 5 == 0 && x.st == .halted && (x.reason == 1 || x.reason == 2) && x.gen == bits word 16 16 then
    let tiles := match layerOf x.cmd with
      | some l => s.groupTiles k x l
      | none => []
    ((s.clearRefilled k x tiles).putCtx k c { x with st := .ready, reason := 0 }).restartStreams x.job x.unit x.task tiles false
  else s.inc HST_DB_STATUS_RESUME_IGNORED 0 1

/-- A write of the resume word at 0x008 of a doorbell page (R476). -/
def State.resumeWord (s : State) (word : Nat) : State := if bit word 15 then s.resumeTask word else s.resumeStream word

/-- RESUME_STREAM (R223). -/
def execResumeStream (word : Nat) (s : State) : Host.Outcome State Fault Refusal := ok (s.hostDo fun t => t.resumeWord word)

/-- RESUME_KILN_TASK (R477, R97, R116): a resume word with bit 15 at 1, by its fields. -/
def execResumeKilnTask (task reserved gen : Nat) (s : State) : Host.Outcome State Fault Refusal :=
  ok (s.hostDo fun t => t.resumeTask (task % 1024 + 1024 * (reserved % 32) + 2 ^ 15 + 2 ^ 16 * (gen % 2 ^ 16)))

end Sys2Proof.Machine
end

