-- ==== Sys2Proof/Machine/Hearth.lean ====
section
/-! DEFINITION. Hearths (04): HMUL and HVEC over operands in the task's mooring, their layout, rounding, blocks and lost writes. -/

namespace Sys2Proof.Machine

/-- A free value kept within two units in the last place of FP32 of the exact one (R176). -/
def nearUlp (exact : Int) (free : Nat) : Nat := nearFx exact (2 * ulpFx exact) free

/-! ### Matrices in the mooring -/

/-- The format of a hearth code: FP32, BF16, E4M3, E5M2. -/
def hearthFmt (c : Nat) : Fmt := if c == 0 then .fp32 else if c == 1 then .bf16 else if c == 2 then .e4m3 else .e5m2

/-- A matrix in the mooring: its first byte, format, rows and columns. Rows are padded to 64 B. -/
structure Mat where
  off : Nat
  fmt : Fmt
  rows : Nat
  cols : Nat
  deriving DecidableEq, Repr

def Mat.pitch (m : Mat) : Nat := roundUp (m.cols * m.fmt.bytes) 64
def Mat.bytes (m : Mat) : Nat := m.rows * m.pitch
def Mat.at' (m : Mat) (r c : Nat) : Nat := m.off + r * m.pitch + c * m.fmt.bytes

/-- The matrix lies within a mooring of so many slots. -/
def Mat.fits (m : Mat) (slots : Nat) : Bool := decide (m.off + m.bytes ≤ 4096 * slots)

/-- Two matrices share a byte. -/
def Mat.meets (a b : Mat) : Bool := decide (a.off < b.off + b.bytes) && decide (b.off < a.off + a.bytes)

/-- An element as FP32 bits. `o` is the mooring's first byte. -/
def State.elem (s : State) (o : Nat) (m : Mat) (r c : Nat) : Nat := widen m.fmt (s.num (o + m.at' r c) m.fmt.bytes)

/-- The code of a result and whether it counts in `HTH_SATURATIONS` (R175). -/
def Fmt.store (f : Fmt) (v : Nat) : Nat × Bool := if f == .fp32 then (v, false) else f.saturate (f32 v)

/-- Rows [r, r + n) of a matrix. -/
def Mat.part (m : Mat) (r n : Nat) : Mat := { m with off := m.off + r * m.pitch, rows := min n (m.rows - r) }

/-- Rows of a block of the A operand, or of the source: the tile boundary of a hearth command (R171). -/
def blockRows : Nat := 64

/-- Slots that hold no data for a hearth command: neither ready nor written by the task's hearth. DEDUCED (log 15). -/
def State.hearthLate (s : State) (k : Nat) (x : KCtx) (ms : List Mat) : List Nat :=
  s.notReady k x ((ms.flatMap fun m => slotsIn m.off m.bytes).filter fun i => !x.hearth.contains i)

/-- Write a row of results, but for the 8 B words of the result that lost to a stevedore write (R161). -/
def State.hearthRow (s : State) (o : Nat) (m : Mat) (row : Nat) (lost : List Nat) (bs : List Byte) : State :=
  bs.zipIdx.foldl (fun t e =>
    let a := row * m.pitch + e.2
    if lost.contains (a / 8) then t else t.pokeByte .normal (o + m.off + a) e.1) s

/-- Write the rows of a block of a result given by its elements: saturations are counted, lost words noted, the slots marked
(R161, R175). -/
def State.hearthWrite (s : State) (k c o : Nat) (m : Mat) (rows : List Nat) (lost : List Nat) (f : Nat → Nat → Nat) : State :=
  let lost := (lost.filter fun w => rows.contains (8 * w / max 1 m.pitch) && decide (8 * w < m.bytes)).dedup
  let cells := fun r => (List.range m.cols).map fun j => m.fmt.store (f r j)
  let s := rows.foldl (fun t r => t.hearthRow o m r lost ((cells r).flatMap fun v => leBytes m.fmt.bytes v.1)) s
  let s := s.inc HTH_SATURATIONS_COUNT k (rows.map fun r => (cells r).countP fun v => v.2).sum
  let s := if lost.isEmpty then s else (s.put HTH_STATUS_COLLISION k 1).inc HTH_STATUS_LOST_WRITES k lost.length
  s.setCtx k c fun x => { x with hearth := (x.hearth ++ slotsIn m.off m.bytes).dedup }

/-- Run a hearth command block after block from the row that the slot saves (R171): `rows` of the A operand or the source, `ops` what a
block reads, `block` its work, `done` the end. -/
def State.hearthBlocks (k c rows : Nat) (ops : Nat → List Mat) (block : Nat → State → State) (done : State → State) : Nat → State → State
  | 0, s => s
  | fuel + 1, s =>
    let x := s.ctx k c
    let o := x.origin k
    if x.row ≥ rows then done s
    else
      let late := s.hearthLate k x (ops x.row)
      if !late.isEmpty then s.dataLate k c late
      else match s.touch ((ops x.row).map fun m => (o + m.off, m.bytes)) with
        | .error e => s.memError e (some x.job)
        | .ok s =>
          let t := (block x.row s).setCtx k c fun y => { y with row := x.row + blockRows }
          if x.dbgReq == 3 && decide (x.row + blockRows < rows) then t.dbgStop k c
          else State.hearthBlocks k c rows ops block done fuel t

/-- A hearth command starts or goes on: the slot runs it, on its engine. -/
def State.hearthStart (s : State) (k c w : Nat) (f : Kiln → Kiln) : State :=
  (s.setCtx k c fun x => { x with st := .running, begun := true, late := [], noswitch := bit w 8, declLen := bits w 16 8 }).putKiln k (f (s.kiln k))

/-! ### HMUL (R173 to R175) -/

/-- An HMUL's operands and result, with `ACCUM`. -/
structure HmulCmd where
  a : Mat
  b : Mat
  c : Mat
  bt : Bool
  accum : Bool
  k : Nat
  hfmt : Nat
  deriving DecidableEq, Repr

/-- The 256 bits of an HMUL; none for a reserved encoding or bit. -/
def hmulOf (w : Nat) : Option HmulCmd :=
  let (m, n, k) := (bits w 65 12 + 1, bits w 77 12 + 1, bits w 89 12 + 1)
  if !onlyBits w [(0, 30), (32, 69)] || bits w 24 2 == 3 || (bit w 29 && bits w 26 2 != 0) then none
  else
    let f := if bits w 24 2 == 0 then Fmt.e4m3 else if bits w 24 2 == 1 then .e5m2 else .bf16
    some { a := ⟨256 * bits w 32 11, f, m, k⟩, b := if bit w 28 then ⟨256 * bits w 43 11, f, n, k⟩ else ⟨256 * bits w 43 11, f, k, n⟩,
           c := ⟨256 * bits w 54 11, hearthFmt (bits w 26 2), m, n⟩, bt := bit w 28, accum := bit w 29, k := k, hfmt := bits w 24 2 }

/-- Fold a list of FP32 values in the order that R174 leaves to the hearth: step by step, two of the values left are added. -/
def foldSum (M N K f : Nat) : Nat → List Nat → Nat
  | 0, l => l.headD 0
  | n + 1, l =>
    if l.length ≤ 1 then l.headD 0
    else
      let i := Config.hmulPick M N K f (2 * n) % l.length
      let r := l.eraseIdx i
      let j := Config.hmulPick M N K f (2 * n + 1) % r.length
      foldSum M N K f n (add32 (l.getD i 0) (r.getD j 0) :: r.eraseIdx j)

/-- One element of A × B. -/
def State.hmulCell (s : State) (o : Nat) (h : HmulCmd) (r j : Nat) : Nat :=
  foldSum h.c.rows h.c.cols h.k h.hfmt h.k ((List.range h.k).map fun i =>
    mul32 (s.elem o h.a r i) (if h.bt then s.elem o h.b j i else s.elem o h.b i j))

/-- The HMUL's operands lie in the mooring and its result meets neither (R173). -/
def HmulCmd.ok (h : HmulCmd) (slots : Nat) : Bool :=
  h.a.fits slots && h.b.fits slots && h.c.fits slots && !h.c.meets h.a && !h.c.meets h.b

/-- What the block of an HMUL at a row reads. -/
def HmulCmd.ops (h : HmulCmd) (r : Nat) : List Mat :=
  [h.a.part r blockRows, h.b] ++ (if h.accum then [h.c.part r blockRows] else [])

/-- The rows of a block. -/
def rowsOf (rows r : Nat) : List Nat := (List.range (min blockRows (rows - r))).map (r + ·)

/-- The cycles that an HMUL waited for the C4 charging of another task's LAYER on its multiply array (R143). -/
def State.mulWait (s : State) (k c wait : Nat) : State :=
  let q := s.kiln k
  match q.c4 with
  | some d => let s := s.putKiln k { q with c4 := none }
    if d != c then s.inc HTH_MUL_WAIT_CYCLES k wait else s
  | none => s

/-- Run an HMUL from its saved row. -/
def State.runHmul (s : State) (k c wait : Nat) (lost : List Nat) (w : Nat) : State :=
  let x := s.ctx k c
  match hmulOf w with
  | none => s.malformed k c
  | some h =>
    if !h.ok x.slots then s.malformed k c
    else
      let o := x.origin k
      State.hearthBlocks k c h.c.rows h.ops
        (fun r t => t.hearthWrite k c o h.c (rowsOf h.c.rows r) lost fun r j =>
          if h.accum then add32 (t.elem o h.c r j) (t.hmulCell o h r j) else t.hmulCell o h r j)
        (fun t => (t.putKiln k { t.kiln k with mul := none }).commandDone k c 32 false)
        (h.c.rows + 1) (((s.mulWait k c wait).hearthStart k c w) fun q => { q with mul := some c })

/-- HMUL (R174, R143, R171): it runs when the multiply array is its own or free for it. -/
def execHmul (kiln slot wait : Nat) (lost : List Nat) (s : State) : Host.Outcome State Fault Refusal :=
  if s.mayUse kiln slot opHmul (s.kiln kiln).mul then
    ok (s.command kiln slot opHmul 32 fun w t => t.runHmul kiln slot wait lost w)
  else ok s

/-! ### HVEC (R173, R175 to R177) -/

/-- An HVEC's operation, source, result, parameters, scalars and mask. -/
structure HvecCmd where
  op : Nat
  src : Mat
  dst : Mat
  param : Mat
  a : Nat
  b : Nat
  mask : Bool
  diag : Int
  deriving DecidableEq, Repr

/-- Parameters of an operation: γ and β for LAYERNORM, γ for RMSNORM. -/
def paramRows (op : Nat) : Nat := if op == 4 then 2 else if op == 5 then 1 else 0

/-- The 256 bits of an HVEC; none for a reserved encoding or bit. β follows γ directly, 4 × COLS bytes on. DESIGN CHOICE (log 116). ROWSUM and
ROWMAX write an FP32 matrix of one column, each row padded to 64 B, whatever `OUTF` says. DESIGN CHOICE (log 117). -/
def hvecOf (w : Nat) : Option HvecCmd :=
  let op := bits w 24 4
  let (m, n) := (bits w 65 12 + 1, bits w 77 12 + 1)
  if !onlyBits w [(0, 103), (128, 64)] || decide (op ≥ 10) then none
  else
    let dst := if op ≥ 8 then (⟨256 * bits w 43 11, .fp32, m, 1⟩ : Mat) else ⟨256 * bits w 43 11, hearthFmt (bits w 30 2), m, n⟩
    some { op := op, src := ⟨256 * bits w 32 11, hearthFmt (bits w 28 2), m, n⟩, dst := dst,
           param := ⟨256 * bits w 54 11, .fp32, if paramRows op == 0 then 0 else 1, paramRows op * n⟩,
           a := bits w 128 32, b := bits w 160 32, mask := bit w 89, diag := toSigned 13 (bits w 90 13) }

/-- An input element, with `MASK` applied. -/
def State.hvecIn (s : State) (o : Nat) (h : HvecCmd) (r c : Nat) : Nat :=
  if h.mask && decide ((c : Int) > r + h.diag) then 0xFF800000 else s.elem o h.src r c

/-- Infinities of one sign in a row. -/
def infs (neg : Bool) (row : List Nat) : Nat := row.countP fun v => v == (if neg then 0xFF800000 else 0x7F800000)

/-- One element of a SOFTMAX row (R177); the value of a finite row is free. -/
def softmaxCell (h : HvecCmd) (row : List Nat) (c : Nat) : Nat :=
  if row.any fun v => (f32 v).isNaN then nan32 (row.getD c 0) h.a c
  else if infs true row == row.length then 0
  else if infs false row == 1 then (if row.getD c 0 == 0x7F800000 then 0x3F800000 else 0)
  else if infs false row ≥ 2 then nan32 (row.getD c 0) h.a c
  else Config.hvecValue h.op h.a h.b row [] c % 2 ^ 32

/-- The largest of a row: free where it holds a NaN, or zeros of both signs and nothing greater. -/
def rowMax (h : HvecCmd) (row : List Nat) : Nat :=
  match pickBy (fun a b => (f32 a).gt (f32 b)) row with
  | none => 0
  | some v =>
    if (row.any fun x => (f32 x).isNaN) || (v % 2 ^ 31 == 0 && row.contains 0 && row.contains 0x80000000) then
      Config.hvecValue h.op h.a h.b row [] 0 % 2 ^ 32
    else v

/-- SCALAR_A × x + SCALAR_B: fixed where one and two roundings agree, else free. -/
def affineCell (h : HvecCmd) (row : List Nat) (c : Nat) : Nat :=
  let x := row.getD c 0
  let v := fma32 h.a x h.b
  if add32 (mul32 h.a x) h.b == v then v else Config.hvecValue h.op h.a h.b row [] c % 2 ^ 32

/-- One result element of Table 04.10, given its input row and the parameter row. -/
def hvecCell (h : HvecCmd) (row par : List Nat) (c : Nat) : Nat :=
  let free := Config.hvecValue h.op h.a h.b row par c % 2 ^ 32
  match h.op with
  | 0 => row.getD c 0
  | 1 => affineCell h row c
  | 3 => softmaxCell h row c
  | 4 => free
  | 5 => free
  | 8 => if row.length == 1 then row.headD 0 else free
  | 9 => rowMax h row
  | op => if (f32 (row.getD c 0)).isFinite then nearUlp (exactFn op (row.getD c 0)) free else free

/-- The HVEC's matrices lie in the mooring, and its result meets no operand but a source at the same offset; the parameters count where
the operation has some (R173). -/
def HvecCmd.ok (h : HvecCmd) (slots : Nat) : Bool :=
  h.src.fits slots && h.dst.fits slots && (!h.dst.meets h.src || h.dst.off == h.src.off) &&
  (paramRows h.op == 0 || (h.param.fits slots && !h.dst.meets h.param))

/-- What the block of an HVEC at a row reads. -/
def HvecCmd.ops (h : HvecCmd) (r : Nat) : List Mat := h.src.part r blockRows :: (if paramRows h.op == 0 then [] else [h.param])

/-- Run an HVEC from its saved row. A block reads what the blocks before it left: with the result over the source and rows of another size
that is their result. DESIGN CHOICE (log 115). -/
def State.runHvec (s : State) (k c : Nat) (lost : List Nat) (w : Nat) : State :=
  let x := s.ctx k c
  match hvecOf w with
  | none => s.malformed k c
  | some h =>
    if !h.ok x.slots then s.malformed k c
    else
      let o := x.origin k
      State.hearthBlocks k c h.src.rows h.ops
        (fun r t =>
          let par := (List.range h.param.cols).map fun i => t.elem o h.param 0 i
          t.hearthWrite k c o h.dst (rowsOf h.dst.rows r) lost fun r j =>
            hvecCell h ((List.range h.src.cols).map fun i => t.hvecIn o h r i) par j)
        (fun t => (t.putKiln k { t.kiln k with vec := none }).commandDone k c 32 false)
        (h.src.rows + 1) (s.hearthStart k c w fun q => { q with vec := some c })

/-- HVEC (R176, R171): it runs when the vector unit is its own or free for it. -/
def execHvec (kiln slot : Nat) (lost : List Nat) (s : State) : Host.Outcome State Fault Refusal :=
  if s.mayUse kiln slot opHvec (s.kiln kiln).vec then
    ok (s.command kiln slot opHvec 32 fun w t => t.runHvec kiln slot lost w)
  else ok s

end Sys2Proof.Machine
end

