-- ==== Sys2Proof/Machine/Tasks.lean ====
section
/-! DEFINITION. Placing tasks (10): dispatching a unit, loading, restarting after a kiln fault (04), evicting and returning, and
violations of a running command. -/

namespace Sys2Proof.Machine

/-! ### Where a task fits (R156, R419, R429, R595) -/

/-- A kiln is within the limit in force on its die. -/
def State.withinLimit (s : State) (k : Nat) : Bool :=
  match s.pilot.limits.kilns with
  | none => true
  | some (p, t) => if k < s.kilnsPort then decide (k < p) else decide (k - s.kilnsPort < t)

/-- An EMPTY slot of a kiln, the lowest. -/
def State.emptySlot (s : State) (k : Nat) : Option Nat := (List.range 4).find? fun c => (s.ctx k c).st == .empty

/-- Slots [b, b + n) of a kiln's halves belong to no resident task. -/
def State.mooringFree (s : State) (k b n : Nat) : Bool :=
  decide (b + n ≤ 128) && (List.range 4).all fun c =>
    let x := s.ctx k c
    x.st == .empty || apart b n x.base x.slots

/-- The lowest place for a mooring of n slots. -/
def State.mooringFor (s : State) (k n : Nat) : Option Nat := (List.range 128).find? fun b => s.mooringFree k b n

/-- An evicted task of earlier rank could return to the kiln (R429). -/
def State.keptForReturn (s : State) (k rank : Nat) : Bool :=
  s.evicted.any fun e => rankBefore e.body.ctx.rank rank && (s.mooringFor k e.body.ctx.slots).isSome

/-- Tasks of a unit that wait for a place. -/
def UnitRun.waiting (u : UnitRun) : List Nat := (u.tasks.zipIdx.filter fun t => t.1 == .waiting).map (·.2)

/-- Dispatched tasks that wait for a place, in rank order. -/
def State.waitingTasks (s : State) : List (Job × UnitRun × Nat) :=
  sortBy (fun a b => !rankBefore (b.1.unitRank b.2.1.no) (a.1.unitRank a.2.1.no))
    (s.jobs.flatMap fun j => j.units.flatMap fun u => if u.dispatched then u.waiting.map fun t => (j, u, t) else [])

/-- A waiting task of earlier rank fits a kiln's room and is placed there first (R419). DEDUCED (log 132). -/
def State.keptForWaiting (s : State) (k rank : Nat) : Bool :=
  s.waitingTasks.any fun w => rankBefore (w.1.unitRank w.2.1.no) rank && (s.mooringFor k w.2.1.mooring).isSome

/-- A kiln can take a task with a mooring of n slots: it is in service, within the limit, with a free slot and room that no task of earlier
rank takes. -/
def State.kilnOpen (s : State) (k n rank : Nat) : Bool :=
  !s.kilnFenced k && s.withinLimit k && (s.emptySlot k).isSome && (s.mooringFor k n).isSome && !s.keptForReturn k rank && !s.keptForWaiting k rank

/-- Kilns of a die. -/
def State.kilnsOf (s : State) (d : Nat) : List Nat :=
  if d == 0 then List.range s.kilnsPort else (List.range (s.kilnCount - s.kilnsPort)).map (s.kilnsPort + ·)

/-- Resident tasks of a kiln. -/
def State.residents (s : State) (k : Nat) : Nat := ((List.range 4).filter fun c => (s.ctx k c).st != .empty).length

/-- The kiln for a task (R25, R419, R467): on the hinted die first, else on the die with more such kilns; the fewest resident tasks, then
the lower kiln. -/
def State.chooseKiln (s : State) (hint : Option Nat) (n rank : Nat) : Option Nat :=
  let free := fun d => (s.kilnsOf d).filter fun k => s.kilnOpen k n rank
  let first := match hint with
    | some d => d
    | none => if (free 1).length > (free 0).length then 1 else 0
  let best := fun d => pickBy (fun a b => decide (s.residents a < s.residents b) || (s.residents a == s.residents b && decide (a < b))) (free d)
  (best first).or (best (1 - first))

/-- The die that a job's `LOCALITY` names, its model's where the job says ANY (R23, R467). -/
def State.hintOf (s : State) (j : Job) : Option Nat :=
  if j.locality == 0 then localityDie (if (s.model j.model).locality == 3 then 0 else (s.model j.model).locality) 0
  else localityDie j.locality (s.get HST_RING_CFG_PORT j.ring)

/-! ### Loading (R144, Table 04.2) -/

/-- Clear the ready bits of a mooring in both halves. DEDUCED (log 16). -/
def State.clearMooring (s : State) (k b n : Nat) : State :=
  (List.range n).foldl (fun t i => (t.setReady k false (b + i) false).setReady k true (b + i) false) s

/-- Load a task of a job's unit into a slot at a mooring. -/
def State.loadTask (s : State) (j : Job) (u : UnitRun) (task k c b : Nat) : State :=
  let a := modelBase + u.program + task * u.stride
  let x : KCtx := { st := .ready, job := j.id, unit := u.no, task := task, prog := a, pc := a, base := b, slots := u.mooring, rank := j.unitRank u.no,
                    gen := (s.ctx k c).gen }
  let s := (s.clearMooring k b u.mooring).putCtx k c x
  match s.job j.id with
  | some y => s.putJob (y.setUnit u.no fun v => { v with tasks := v.tasks.set task (.placed k c) })
  | none => s

/-- A placement on the other die than the hinted one is counted (R25). -/
def State.countFar (s : State) (j : Job) (k : Nat) : State :=
  match s.hintOf j with
  | some d => if s.kilnDie k != d then s.inc HMR_LOCALITY_OVERRIDES_COUNT 0 1 else s
  | none => s

/-- Place one waiting task where R419 puts it, if any kiln takes it. -/
def State.placeTask (s : State) (j : Job) (u : UnitRun) (task : Nat) : State :=
  match s.chooseKiln (s.hintOf j) u.mooring (j.unitRank u.no) with
  | none => s
  | some k =>
    match s.emptySlot k, s.mooringFor k u.mooring with
    | some c, some b => (s.countFar j k).loadTask j u task k c b
    | _, _ => s

/-- Place every waiting task of a unit. -/
def State.placeUnit (s : State) (j : Job) (u : UnitRun) : State := u.waiting.foldl (fun t i => t.placeTask j u i) s

/-- A unit is ready (R418): its `AFTER` unit has completed and, where it asks, the lookups are complete. -/
def Job.unitReady (j : Job) (u : UnitRun) : Bool :=
  (u.after == 0xFFFF || j.units.any fun v => v.no == u.after && j.unitOver v) && (!u.afterLookup || j.lookupsDone)

/-- Count the hearth-cycles of C1 work dispatched in the tide (R391). -/
def State.chargeC1 (s : State) (cls cycles : Nat) : State :=
  if cls == 1 then { s with counts := { s.counts with hearthC1 := s.counts.hearthC1 + cycles } } else s

/-- Dispatch a unit of an admitted job: it is dispatched and its tasks are placed (R264, R418, R419). One already dispatched has
its waiting tasks placed. A unit of KIND chunk step runs by CHUNK_STEP alone (R387). -/
def State.dispatchUnit (s : State) (j : Job) (no : Nat) : State :=
  match j.units.find? fun u => u.no == no with
  | none => s
  | some u =>
    if s.modelWhole j.model && (u.dispatched || (u.kind != 2 && j.unitReady u)) then
      let s := if u.dispatched then s else (s.chargeC1 j.cls (u.hearthCost * u.tasks.length)).traceJob 3 (some j) no
      (s.putJob (j.setUnit no fun v => { v with dispatched := true })).placeUnit j u
    else s

/-- A unit may be dispatched: the job's model is whole, it is ready, and no CHUNK_STEP runs it (R264, R387, R418). -/
def State.mayDispatch (s : State) (j : Job) (u : UnitRun) : Bool :=
  s.modelWhole j.model && !u.dispatched && u.kind != 2 && j.unitReady u

/-- A ready unit of earlier rank is to be dispatched first (R419). -/
def State.dispatchFirst (s : State) (rank : Nat) : Bool :=
  s.jobs.any fun j => j.units.any fun u => rankBefore (j.unitRank u.no) rank && s.mayDispatch j u

/-- UNIT_DISPATCH (R418, R419), within a tide. -/
def execUnitDispatch (job unit : Nat) (s : State) : Host.Outcome State Fault Refusal :=
  match s.job job with
  | some j => if s.live && s.flag HMR_TIDE_STATUS_RUNNING 0 && !s.dispatchFirst (j.unitRank unit) then ok (s.dispatchUnit j unit) else ok s
  | none => ok s

/-! ### Kiln faults (R184 to R187) -/

/-- Stop every resident task of a kiln (R184). -/
def State.stopKiln (s : State) (k : Nat) : State :=
  let s := (List.range 4).foldl (fun t c =>
    let x := t.ctx k c
    if x.st == .empty || x.st == .frozen then t
    else t.putCtx k c { x with st := .halted, reason := 6, gen := (x.gen + 1) % 2 ^ 16, noswitch := false }) s
  s.putKiln k { (s.kiln k).emptied with path := none, c4 := none, mul := none, vec := none }

/-- The kiln's error as Table 13.3 describes it: the program of the lowest resident slot, and the mask of resident slots. -/
def State.kilnError (s : State) (k source : Nat) : Err :=
  let rs := (List.range 4).filter fun c => (s.ctx k c).st != .empty
  let a := match rs.head? with | some c => (s.ctx k c).prog | none => 0
  mkErr s 2 0x01 source k a none [(rs.map fun c => 2 ^ c).sum]

/-- A kiln fault: the error is reported, the kiln fences itself and its tasks stop (R184). -/
def State.kilnFails (s : State) (k source : Nat) : State :=
  ((s.detect { s.kilnError k source with fenced := true }).fenceUnit 0x01 source k 0).stopKiln k

/-- A READY task's data is ready: every slot that the next tile or block of its command reads (R184). A command that reads no slot of
the mooring has its data. -/
def State.dataReady (s : State) (k c : Nat) : Bool :=
  let x := s.ctx k c
  x.st == .ready &&
  match s.opcodeAt x with
  | none => false
  | some op =>
    match s.read (s.taskReq x) x.pc (if op == opLayer then 64 else 32) with
    | .error _ => false
    | .ok (bs, _) =>
      let w := leNat bs
      if op == opLayer then (layerOf w).any fun l =>
        (s.notReady k x (if x.begun then l.needs x.row x.group x.strip else l.needs x.row l.pinned 0)).isEmpty
      else if op == opHmul then (hmulOf w).any fun h => (s.hearthLate k x (h.ops x.row)).isEmpty
      else if op == opHvec then (hvecOf w).any fun h => (s.hearthLate k x (h.ops x.row)).isEmpty
      else true

/-- A READY task's data is ready on a kiln. -/
def State.stalls (s : State) (k : Nat) : Bool := (List.range 4).any fun c => s.dataReady k c

/-- KILN_FAULT (R184); source 5, no progress, needs a READY task whose data is ready. -/
def execKilnFault (kiln source : Nat) (s : State) : Host.Outcome State Fault Refusal :=
  if s.live && decide (kiln < s.kilnCount) && !s.kilnFenced kiln && decide (1 ≤ source ∧ source ≤ 5) && (source != 5 || s.stalls kiln) then
    ok (s.kilnFails kiln source)
  else ok s

/-- KILN_PROGRESS_TIMEOUT (R184): 4,096 cycles without progress while a READY task's data is ready. -/
def execKilnProgressTimeout (kiln : Nat) (s : State) : Host.Outcome State Fault Refusal :=
  if s.live && decide (kiln < s.kilnCount) && !s.kilnFenced kiln && s.stalls kiln then
    ok (s.kilnFails kiln 5)
  else ok s

/-! ### Restart (Table 04.14) -/

/-- The slot of a kiln that holds a task of a job's unit. -/
def State.slotHolding (s : State) (job unit task : Nat) : Option (Nat × Nat) :=
  (s.ctxs.find? fun e => e.2.st != .empty && e.2.st != .frozen && e.2.job == job && e.2.unit == unit && e.2.task == task).map
    fun e => (e.1 / 4, e.1 % 4)

/-- The saved position after a kiln fault, given the fields of a LAYER at the program counter and of the first LAYER of its carry
chain: address, row, and the LAYER to go back to (Table 04.14). A chain that starts from pins goes back to the pins' writer first.
DEDUCED (log 56). -/
def KCtx.restartAt (x : KCtx) (layer first : Option LayerCmd) : Nat × Nat × Option (Nat × Nat) :=
  match layer with
  | none => (x.pc, 0, none)
  | some l =>
    let w := if x.begun then x.watermark else x.row
    if l.accIn == 2 || l.accOut == 1 then
      let a := x.chain.getD x.pc
      if first.any fun f => f.accIn == 1 then (x.pinWriter.getD a, 0, x.pinWriter.map fun _ => (a, 0)) else (a, 0, none)
    else if l.accIn == 1 then (x.pinWriter.getD x.pc, if x.pinWriter.isSome then 0 else w, x.pinWriter.map fun _ => (x.pc, w))
    else if l.accOut == 2 then (x.pc, 0, none)
    else (x.pc, w, none)

/-- A slot of a mooring holds data of its task: it is ready, or a stream is writing it. -/
def State.holdsData (s : State) (k c : Nat) (x : KCtx) (h : Bool) (i : Nat) : Bool :=
  s.isReady k h (x.base + i) ||
  s.streams.any fun e => e.2.st != .free && e.2.rcv.any fun r => r.attached && r.kiln == k && r.slot == c && r.half == h && r.wrote.any fun w => w.1 == i

/-- A 256 B block of the running LAYER's ring lies wholly in rows below `row` (R160). -/
def LayerCmd.behind (l : LayerCmd) (at' row off : Nat) : Bool :=
  let q := off - 4096 * l.aSlot
  let b := 4096 * (at' * l.rowBytes / 4096)
  let p := b + (q + l.ringBytes - b % max 1 l.ringBytes) % max 1 l.ringBytes
  decide (4096 * l.aSlot ≤ off) && decide (off < 4096 * l.aSlot + l.ringBytes) && decide (p + 256 ≤ row * l.rowBytes)

/-- The tiles that brought what a task holds in its mooring and still needs: rows of the running LAYER below `row` are done. -/
def State.heldTiles (s : State) (k c : Nat) (x : KCtx) (row : Nat) : Tiles :=
  let done := fun (h : Bool) (off : Nat) => x.begun && h == x.half && (layerOf x.cmd).any fun l => l.behind x.row row off
  Tiles.merge [] ([false, true].flatMap fun h => (List.range x.slots).flatMap fun i =>
    if s.holdsData k c x h i then
      s.tilesOf x (((List.range 16).filter fun b => !done h (4096 * i + 256 * b)).map fun b => (berthAddr k h (4096 * (x.base + i) + 256 * b), 256))
    else [])

/-- The first tiles needed at a task's restart point after a kiln fault (R185, R227): those of what it holds, of rows done and not yet
below the watermark, of a carry chain from its first LAYER, and of the pins' writer; a stream of which it holds nothing goes on.
DEDUCED (log 82). -/
def State.restartTiles (s : State) (k c : Nat) (x : KCtx) (layer : Option LayerCmd) (row : Nat) (pins : Bool) : Tiles :=
  let chain := layer.any fun l => l.accIn == 2 || l.accOut == 1
  let rows := (x.rows.filter fun r => r.layer == x.pc && decide (row ≤ r.row)).flatMap (·.used)
  let held := Tiles.merge (s.heldTiles k c x row) (rows ++ (if chain || (row == 0 && x.begun) then x.used else []) ++ (if pins then x.pinUsed else []))
  Tiles.merge held ((s.goingOn x.job x.unit x.task).filter fun t => (held.tileOf t.1 t.2.1).isNone)

/-- Where a restarted or returning task goes: the slot is EMPTY on a kiln in service, with room at the mooring given; placements wait while
the tide is stopped (Table 13.9). -/
def State.canPlaceAt (s : State) (k c b n : Nat) : Bool :=
  s.flag HMR_TIDE_STATUS_RUNNING 0 && decide (k < s.kilnCount) && decide (c < 4) && !s.kilnFenced k && (s.ctx k c).st == .empty &&
  s.mooringFree k b n

/-- Mark where a task of a unit stands. -/
def State.setRun (s : State) (job unit task : Nat) (r : TaskRun) : State :=
  match s.job job with
  | some j => s.putJob (j.setUnit unit fun u => { u with tasks := u.tasks.set task r })
  | none => s

/-- Rows of a LAYER counted already, when a restart goes back to the first link of its carry chain (R137). -/
def KCtx.countedAfter (x : KCtx) (layer : Option LayerCmd) : Option (Nat × Nat) :=
  match layer with
  | some l =>
    if l.accIn == 2 && l.accOut == 0 && x.begun then
      some (x.pc, max x.watermark (match x.counted with | some (a, w) => if a == x.pc then w else 0 | none => 0))
    else if l.accIn == 2 || l.accOut == 1 then x.counted else none
  | none => none

/-- A stopped task at its restart point, placed at a slot and a mooring (Table 04.14). -/
def KCtx.restarted (x : KCtx) (layer first : Option LayerCmd) (base gen : Nat) : KCtx :=
  let (pc, row, replay) := x.restartAt layer first
  { x with st := .ready, reason := 0, half := false, base := base, acc := [], held := none, pins := [], pinRec := none, pc := pc, row := row, group := 0,
           strip := 0, staged := [], late := [], begun := false, rows := x.rows.filter fun r => r.layer != x.pc, counted := x.countedAfter layer, used := [],
           replay := replay, hearth := [], gen := gen, dbgReq := 0 }

/-- Move a stopped task to another kiln at its restart point; its streams start again at the tiles needed there. -/
def State.moveTask (s : State) (j : Job) (u : UnitRun) (task k c b ok' oc : Nat) : State :=
  let x := s.ctx ok' oc
  let layer := s.layerAt x
  let first := s.layerAt { x with pc := x.chain.getD x.pc }
  let row := match x.restartAt layer first with
    | (pc, row, none) => if pc == x.pc then row else 0
    | (_, _, some r) => r.2
  let pins := (x.restartAt layer first).2.2.isSome
  let tiles := s.restartTiles ok' oc x layer row pins
  let s := ((s.freeSlot ok' oc).clearMooring k b u.mooring).putCtx k c (x.restarted layer first b (s.ctx k c).gen)
  ((s.setRun j.id u.no task (.placed k c)).countFar j k).restartStreams j.id u.no task tiles false

/-- The job may have this restart (R187, R541): within its deadline, and after a kiln fault its first, or one of the same fault. A berth
error has used the job's retry already. -/
def State.mayRestart (s : State) (j : Job) (k : Nat) : Bool :=
  s.pathFits j && (!s.kilnFenced k || j.kilnRestarted == some k || !j.retried)

/-- TASK_RESTART (R185, R187): a task that a kiln fault stopped restarts elsewhere, or its job ends with KILN_FAULT. `base` and `slots` are
its new mooring, of as many slots as its unit's. -/
def execTaskRestart (job unit task kiln slot base slots : Nat) (s : State) : Host.Outcome State Fault Refusal :=
  match s.job job, s.slotHolding job unit task with
  | some j, some (k, c) =>
    let x := s.ctx k c
    match j.units.find? fun u => u.no == unit with
    | some u =>
      if s.live && (s.kilnFenced k || (x.st == .halted && x.reason == 6)) then
        if !s.mayRestart j k then ok (s.endJob j stKilnFault 0 none)
        else if kiln != k && slots == u.mooring && s.canPlaceAt kiln slot base slots then
          let j := { j with retried := true, kilnRestarted := if s.kilnFenced k then some k else j.kilnRestarted }
          ok ((s.putJob j).moveTask j u task kiln slot base k c)
        else ok s
      else ok s
    | none => ok s
  | _, _ => ok s

/-! ### Violations (R422) -/

/-- NOSWITCH_VIOLATION (R422, R423): a command with `NOSWITCH` has run for twice its declared length. -/
def execNoswitchViolation (kiln slot : Nat) (s : State) : Host.Outcome State Fault Refusal :=
  let x := s.ctx kiln slot
  if s.live && x.noswitch && (x.st == .running || x.st == .waitTile || x.st == .ready) then ok (s.freezeTask kiln slot) else ok s

/-! ### Eviction (R427 to R429) -/

/-- A stream holds its consumers up: HALTED, ABORTED, or waiting in a barrier-mode WAITSLOT. -/
def Stream.stuck (x : Stream) : Bool := x.st == .halted || x.st == .aborted || (x.st == .waiting && x.wait == .barrier)

/-- A resident task is blocked (R427). -/
def State.isBlocked (s : State) (k c : Nat) : Bool :=
  let x := s.ctx k c
  x.st == .waitBar || x.st == .halted ||
  (x.st == .waitTile && s.streams.any fun e => e.2.stuck && e.2.rcv.any fun r => r.attached && r.kiln == k && r.slot == c)

/-- A free save frame. -/
def State.saveFrame (s : State) : Option Nat :=
  (List.range (s.get HMR_SAVE_AREA_FRAMES 0)).find? fun f => !(s.evicted.any fun e => e.body.frame == f)

/-- Contents of a range become undefined: each byte is a free value. -/
def State.scramble (s : State) (a n : Nat) : State :=
  { s with mem := Tab.dropRange a (a + n) s.mem, undef := (a, a + n, s.stamp) :: s.undef, stamp := s.stamp + 1 }

/-- The victim of a kiln: the blocked task of latest rank, ties to the higher slot. -/
def State.victim (s : State) (k : Nat) : Option Nat :=
  pickBy (fun a b => rankBefore (s.ctx k b).rank (s.ctx k a).rank || ((s.ctx k a).rank == (s.ctx k b).rank && decide (a > b)))
    ((List.range 4).filter fun c => s.isBlocked k c && !(s.ctx k c).noswitch)

/-- The first tiles that an evicted task needs at its saved position (R429, R227): those of what it holds and has not done. -/
def State.evictTiles (s : State) (k c : Nat) (x : KCtx) : Tiles :=
  let held := s.heldTiles k c x x.row
  Tiles.merge held ((s.goingOn x.job x.unit x.task).filter fun t => (held.tileOf t.1 t.2.1).isNone)

/-- Evict the task of a slot into a save frame: its streams stop, to start again once it returns, and its context is saved. -/
def State.evictTask (s : State) (k c f : Nat) : State :=
  let x := s.ctx k c
  let s := s.restartStreams x.job x.unit x.task (s.evictTiles k c x) true
  let s := (s.scramble (s.get HMR_SAVE_AREA_BASE 0 + 36864 * f) 36864).freeSlot k c
  let s := { s with evicted := s.evicted ++ [(⟨x.job, x.unit, x.task, ⟨x, f⟩⟩ : EvictedTask)] }
  (s.setRun x.job x.unit x.task .evicted).inc HMR_SCHED_EVENTS_EVICTIONS 0 1

/-- Load the waiting task of earliest rank that has room there into a slot that an eviction freed, unless a task evicted before returns
first (R428, R429). `past` holds the tasks evicted before the victim. -/
def State.loadWaiting (s : State) (past : List EvictedTask) (k c : Nat) : State :=
  match s.waitingTasks.find? fun w => (s.mooringFor k w.2.1.mooring).isSome with
  | none => s
  | some (j, u, t) =>
    match s.mooringFor k u.mooring with
    | some b =>
      if past.any fun e => rankBefore e.body.ctx.rank (j.unitRank u.no) && (s.mooringFor k e.body.ctx.slots).isSome then s
      else (s.countFar j k).loadTask j u t k c b
    | none => s

/-- TASK_EVICT (R427, R428): every slot of the kiln has held a blocked task for 1,024 cycles while another waits. What
waits: DEDUCED (log 137). -/
def execTaskEvict (kiln : Nat) (s : State) : Host.Outcome State Fault Refusal :=
  if s.live && decide (kiln < s.kilnCount) && !s.kilnFenced kiln && s.withinLimit kiln && s.flag HMR_TIDE_STATUS_RUNNING 0 &&
     ((List.range 4).all fun c => s.isBlocked kiln c) && !s.waitingTasks.isEmpty && decide (s.get HMR_SAVE_AREA_FRAMES 0 > 0) then
    match s.victim kiln, s.saveFrame with
    | some c, some f => ok ((s.evictTask kiln c f).loadWaiting s.evicted kiln c)
    | some _, none => ok (s.inc HMR_SCHED_EVENTS_EVICT_NO_FRAME 0 1)
    | none, _ => ok s
  else ok s

/-- Restore an evicted task at a slot and a mooring; its streams start again. -/
def State.restoreTask (s : State) (e : EvictedTask) (k c b : Nat) : State :=
  let x := e.body.ctx
  let s := { s with evicted := s.evicted.filter fun y => !(y.job == e.job && y.unit == e.unit && y.task == e.task) }
  let s := (s.clearMooring k b x.slots).putCtx k c { x with base := b, st := if x.st == .waitTile then .ready else x.st, late := [], hearth := [] }
  let s := match s.job e.job with
    | some j => s.countFar j k
    | none => s
  (s.setRun e.job e.unit e.task (.placed k c)).placeCatchUps e.job e.unit e.task

/-- EVICTED_TASK_RETURN (R429, R227): the context is restored on a kiln with room; `base` and `slots` are its new mooring. -/
def execEvictedTaskReturn (job unit task kiln slot base slots : Nat) (s : State) : Host.Outcome State Fault Refusal :=
  match s.evicted.find? fun e => e.job == job && e.unit == unit && e.task == task with
  | some e =>
    if s.live && slots == e.body.ctx.slots && s.canPlaceAt kiln slot base slots && s.withinLimit kiln then ok (s.restoreTask e kiln slot base) else ok s
  | none => ok s

end Sys2Proof.Machine
end

