-- ==== Sys2Proof/Machine/Budget.lean ====
section
/-! DEFINITION. The budgets of a tide and the shares of the classes (R403, R404, R421, R595). -/

namespace Sys2Proof.Machine

/-- Clock in MHz of a step (R581). -/
def stepMhz (step : Nat) : Nat := 1000 - 200 * step

/-- The tide period in ns (R35). -/
def State.periodNs (s : State) : Nat := s.get HMR_TIDE_CFG_PERIOD_STEPS 0 * 62500

/-- Cycles of one tide at the step in force, less 1 µs where the clock stopped for a step change (R33, R37). DESIGN CHOICE
(log 30): the stop takes its longest. -/
def State.tideCycles (s : State) : Nat :=
  let f := stepMhz (s.get HMR_POWER_STATUS_STEP 0)
  s.periodNs * f / 1000 - (if s.counts.clockStop then f else 0)

/-- Kilns that count: in service, not fenced and within the limit (R403, R528, R595). -/
def State.kilnsCounted (s : State) : Nat := ((List.range s.kilnCount).filter fun k => !s.kilnFenced k && s.withinLimit k).length

/-- Cranes in service. -/
def State.cranesCounted (s : State) : Nat := ((List.range s.craneCount).filter fun c => !(s.crane c).fenced).length

/-- Bytes a second of the quays that are up, in each direction, in units of 1 GB/s: 25 for each payload lane in use (R484, R496). -/
def State.quayRate (s : State) : Nat :=
  (((List.range 16).filter fun q => (s.quay q).st == .up).map fun q => 25 * s.get QUY_STATUS_WIDTH q).sum

/-- Budgeted resources: the codes of Table 10.7, HBM by channel set. -/
inductive Res where
  | kiln | hearth | crane | hbm (set : Nat) | quayOut | quayIn
  deriving DecidableEq, Repr

/-- The code of Table 10.7. -/
def Res.code : Res → Nat
  | .kiln => 1 | .hearth => 3 | .crane => 4 | .hbm _ => 5 | .quayOut => 7 | .quayIn => 7

/-- The budget of a resource in the present tide, after the pilot's scale (Table 10.2, R595); what passes through counts against the quays'
(R491): at a boundary, what has passed since the one before. DESIGN CHOICE (log 127). -/
def State.budget (s : State) (r : Res) : Nat :=
  let whole := match r with
    | .kiln => s.kilnsCounted * s.tideCycles
    | .hearth => s.kilnsCounted * s.tideCycles
    | .crane => s.cranesCounted * (s.periodNs * stepMhz (s.get HMR_POWER_STATUS_STEP 0) / 1000)
    | .hbm n => if s.setLost n || s.setStopped n then 0 else s.get HBM_CHSET_COUNT n * 50 * s.periodNs
    | _ => s.quayRate * s.periodNs
  whole * s.pilot.limits.scale / 64 - (match r with | .quayOut => s.counts.forwarded | .quayIn => s.counts.forwarded | _ => 0)

/-- A class's share of a resource as a fraction: numerator and denominator (R404). -/
def State.share (s : State) (c : Nat) (r : Res) : Nat × Nat :=
  match r with
  | .hbm n => (s.get (match c with | 0 => HBM_CHSET_SHARE_C0 | 1 => HBM_CHSET_SHARE_C1 | 2 => HBM_CHSET_SHARE_C2 | _ => HBM_CHSET_SHARE_C3) n, 16)
  | _ => (s.get (match c with | 0 => HMR_CLASS_SHARE_SHARE_C0 | 1 => HMR_CLASS_SHARE_SHARE_C1 | 2 => HMR_CLASS_SHARE_SHARE_C2 | _ => HMR_CLASS_SHARE_SHARE_C3) 0, 64)

/-- The engine number of a deduction: 0 kiln, 1 hearth. -/
def Res.engine : Res → Option Nat
  | .kiln => some 0
  | .hearth => some 1
  | _ => none

/-- What step 5 deducted from a class's budget for an engine (R421). -/
def State.deducted (s : State) (c : Nat) (r : Res) : Nat :=
  match r.engine with
  | some e => ((s.counts.deducted.filter fun d => d.1 == c && d.2.1 == e).map fun d => d.2.2).sum
  | none => 0

end Sys2Proof.Machine
end

