-- ==== Sys2Proof/Machine/Consign.lean ====
section
/-! DEFINITION. Consignments (08): the tests of a block, prepare with its rollback, local and group commit, the group master's
decision, the pod master's log, and retirement. -/

namespace Sys2Proof.Machine

/-! ### Messages with acknowledgement (Table 12.4) -/

/-- The pod master's device number. -/
def State.podMaster (s : State) : Nat := s.get QUY_POD_SIZE_MASTER 0

/-- Send a VC0 message, kept until it is acknowledged end to end. -/
def State.sendVc0 (s : State) (dst : Nat) (m : Net) : State :=
  { s with nextVc0 := s.nextVc0 + 1, unacked := s.unacked ++ [(⟨s.nextVc0, dst, m⟩ : Unacked)] }.send (.net dst 0 m)

/-! ### Records in memory (R347, R358) -/

/-- The directory entry of a table in memory, none where it lies beyond `TABLES`. -/
def State.tableInMemory (s : State) (t : Nat) : Except AccErr (Option (List Byte) × State) :=
  if t > s.get CRN_TABLE_DIR_TABLES 0 then .ok (none, s)
  else match s.read {} (s.get CRN_TABLE_DIR_BASE 0 + 64 * t) 64 with
    | .ok (bs, s) => .ok (some bs, s)
    | .error e => .error e

/-- The group record in memory, none where it lies beyond `GROUPS`. -/
def State.groupInMemory (s : State) (g : Nat) : Except AccErr (Option (List Byte) × State) :=
  if g > s.get CRN_GROUP_DIR_GROUPS 0 then .ok (none, s)
  else match s.read {} (s.get CRN_GROUP_DIR_BASE 0 + 64 * g) 64 with
    | .ok (bs, s) => .ok (some bs, s)
    | .error e => .error e

/-- The group's record: the device's copy while it enables a table of the group, else the one in memory. -/
def State.groupRecord (s : State) (g : Nat) : Option Group :=
  if (s.group g).held then some (s.group g)
  else match s.groupInMemory g with
    | .ok (some bs, _) => some (groupOf bs)
    | _ => none

/-- This device's slot by a record, 63 for a non-member (Table 08.7). -/
def State.slotIn (s : State) (g : Option Group) : Nat :=
  match g with
  | some r =>
    let i := r.slots.findIdx fun x => x == s.me
    if i < r.slots.length then i else 63
  | none => 63

/-! ### The block (R347) -/

/-- The table an action names. -/
def Action.table? : Action → Option Nat
  | .pageWrite _ t _ _ _ => some t
  | .parityDelta _ t _ _ _ => some t
  | .rootSet t _ => some t
  | _ => none

/-- The model an action names. -/
def Action.model? : Action → Option Nat
  | .rescaleSwap m _ _ _ => some m
  | .pin m _ _ => some m
  | .unpin m _ _ => some m
  | _ => none

/-- Logical pages of an action, each with its destination and source. -/
def pagesOf (big : Bool) (l d c : Nat) : List (Nat × Nat × Nat) :=
  (List.range (if big then 32 else 1)).map fun i => (l + i, d + 65536 * i, c + 65536 * i)

/-- A page action's pages with its table, as PAGE_WRITE (true) or PARITY_DELTA. -/
def Action.pages : Action → List (Bool × Nat × Nat × Nat × Nat)
  | .pageWrite b t l d c => (pagesOf b l d c).map fun p => (true, t, p)
  | .parityDelta b t l d c => (pagesOf b l d c).map fun p => (false, t, p)
  | _ => []

/-- Alignment of a `BIG` action. -/
def Action.aligned : Action → Bool
  | .pageWrite true _ l d c => l % 32 == 0 && d % 0x200000 == 0 && c % 0x200000 == 0
  | .parityDelta true _ l d c => l % 32 == 0 && d % 0x200000 == 0 && c % 0x200000 == 0
  | _ => true

/-- Two actions of one block that R347 forbids together. -/
def Action.clash (a b : Action) : Bool :=
  let pages := a.pages.any fun p => b.pages.any fun q =>
    p.2.1 == q.2.1 && p.2.2.1 == q.2.2.1 && (p.1 || q.1 || p.2.2.2.1 != q.2.2.2.1)
  let meets (m f n m' f' n' : Nat) : Bool := m == m' && decide (f < f' + n') && decide (f' < f + n)
  pages ||
  match a, b with
  | .rootSet t _, x => x.table? == some t
  | x, .rootSet t _ => x.table? == some t
  | .rescaleSwap m o n _, .rescaleSwap m' o' n' _ => meets m o (16 * n) m' o' (16 * n')
  | .pin m f n, .unpin m' f' n' => meets m f n m' f' n'
  | .unpin m f n, .pin m' f' n' => meets m f n m' f' n'
  | _, _ => false

/-- No two actions of a list clash. -/
def noClash : List Action → Bool
  | [] => true
  | a :: t => (t.all fun b => !(a.clash b)) && noClash t

/-- The logical page that an action names. -/
def Action.lpage? : Action → Option Nat
  | .pageWrite _ _ l _ _ => some l
  | .parityDelta _ _ l _ _ => some l
  | _ => none

/-- An action fits the block's group, by the table's entry and the group record in memory: its `LPAGE` lies below `MAP_PAGES`. -/
def State.actionFits (s : State) (h : ConsHeader) (g : Option Group) (a : Action) : Except AccErr Bool :=
  match a.table? with
  | none => .ok a.aligned
  | some t =>
    if !h.scope then .ok false
    else match s.tableInMemory t with
      | .error e => .error e
      | .ok (none, _) => .ok false
      | .ok (some bs, _) =>
        let x := tableEntryOf bs
        .ok (a.aligned && x.group == h.group && s.slotIn g != 63 && a.lpage?.all fun l => decide (l < x.mapPages))

/-- Every action fits. -/
def State.actionsFit (s : State) (h : ConsHeader) (g : Option Group) : List Action → Except AccErr Bool
  | [] => .ok true
  | a :: t =>
    match s.actionFits h g a with
    | .error e => .error e
    | .ok false => .ok false
    | .ok true => State.actionsFit s h g t

/-- The actions of a block, none where one is reserved. -/
def actionsOf (n : Nat) (bs : List Byte) : Option (List Action) :=
  (List.range n).mapM fun i => actionOf ((bs.drop (16 * i)).take 16)

/-- The block with its header and actions: none where it is malformed (R347), or the failed read. -/
def State.consBlock (s : State) (a : Nat) : Except AccErr (Option (ConsHeader × List Action)) :=
  match s.read {} a 64 with
  | .error e => .error e
  | .ok (hb, s) =>
    let h := consHeaderOf hb
    if !consHeaderOk hb then .ok none
    else match s.read {} (a + 64) (16 * h.actions) with
      | .error e => .error e
      | .ok (ab, s) =>
        match actionsOf h.actions ab, if h.scope then s.groupInMemory h.group else .ok (none, s) with
        | none, _ => .ok none
        | _, .error e => .error e
        | some acts, .ok (gb, s) =>
          if (h.scope && gb.isNone) || !noClash acts then .ok none
          else match s.actionsFit h (gb.map groupOf) acts with
            | .error e => .error e
            | .ok b => .ok (if b then some (h, acts) else none)

/-! ### Open consignments (R348) -/

/-- The open consignment of a `CONS_ID`. -/
def State.cons (s : State) (c : Nat) : Option Cons := s.conss.find? fun x => x.id == c

/-- Replace an open consignment. -/
def State.putCons (s : State) (x : Cons) : State := { s with conss := s.conss.map fun y => if y.id == x.id then x else y }

/-- A consignment touches a table, or a model. -/
def Cons.touchesTable (c : Cons) (t : Nat) : Bool := c.actions.any fun a => a.table? == some t
def Cons.touchesModel (c : Cons) (m : Nat) : Bool := c.actions.any fun a => a.model? == some m

/-- Admitting a block would break R348. -/
def State.consBusy (s : State) (h : ConsHeader) (acts : List Action) : Bool :=
  decide (s.conss.length ≥ 16) || (s.conss.any fun c => c.id == h.id) ||
  s.conss.any fun c => acts.any fun a =>
    (match a.table? with | some t => c.touchesTable t | none => false) ||
    (match a.model? with | some m => c.touchesModel m | none => false)

/-- A newly admitted consignment. -/
def newCons (h : ConsHeader) (acts : List Action) (job tide : Nat) : Cons :=
  { id := h.id, job := job, scope := h.scope, group := h.group, participants := h.participants, prepTides := h.prepTides,
    notBefore := h.notBefore, actions := acts, admitTide := tide, phase := .admitted, next := 0, undo := [], wrote := [],
    heldBlocks := [], swaps := [], voteTide := none, inDoubt := false }

/-! ### Statuses (Table 08.6) -/

def csCommitted : Nat := 0x00
def csPageBusy : Nat := 0x03
def csTableBusy : Nat := 0x04
def csModelBusy : Nat := 0x05
def csEpochLimit : Nat := 0x06
def csStagingSet : Nat := 0x07
def csNoRoom : Nat := 0x08
def csCopyError : Nat := 0x09
def csTimeout : Nat := 0x0A
def csPeerAbort : Nat := 0x0B
def csMismatch : Nat := 0x0C
def csMemberLost : Nat := 0x0D
def csMasterLost : Nat := 0x0E

/-! ### Rollback and ends -/

/-- Take back one prepared change (R355). -/
def State.undoOne (s : State) (u : Undo) : State :=
  match u with
  | .entry a old => s.devWrite a old
  | .root t c p ch => s.putTable t { s.table t with rootCur := c, rootPrev := p, rootChange := ch }

/-- Drop the cache blocks that a PIN loaded and nothing else keeps: those of a model that is stored. -/
def State.dropHeld (s : State) (c : Cons) : State :=
  c.heldBlocks.foldl (fun t h =>
    let x := t.model h.1
    if x.st == .stored && !x.pins.contains h.2 then t.putModel h.1 { x with blocks := x.blocks.filter fun b => b.1 != h.2 } else t) s

/-- Free the context of a halted copy (R354). -/
def State.dropCopy (s : State) (c : Cons) : State :=
  ((s.streamsOf c.job).filter fun n => (s.stream n).code.isEmpty).foldl (fun t n => t.freeStream n) s

/-- Roll back a consignment's prepare (R355). -/
def State.rollback (s : State) (c : Cons) : State :=
  let s := (c.undo.reverse.foldl (fun t u => t.undoOne u) s).dropCopy c
  let s := s.putCons { c with undo := [], wrote := [], heldBlocks := [], swaps := [] }
  s.dropHeld c

/-- Write a CONSIGN or RETIRED record of a consignment's job. -/
def State.consRecord (s : State) (j : Job) (kind status id : Nat) : State :=
  s.postRecord j.ring (recordBytes kind 0 status (j.flags 0) j.jobRef id s.stampTide 0 0) j.noIrq

/-- A consignment ends without a commit: its CONSIGN record, and both slots are given back (R464). -/
def State.consEnds (s : State) (c : Cons) (status : Nat) : State :=
  let s := { s with conss := s.conss.filter fun x => x.id != c.id }.inc HMR_CONS_ABORTS_COUNT 0 1
  match s.job c.job with
  | some j => (s.consRecord j 0x03 status c.id).dropJob j (j.slots - 1)
  | none => s

/-- Tables a block names, with their generation and epoch here (Table 08.7). -/
def State.votedTables (s : State) (c : Cons) : List (Nat × Nat × Nat) :=
  ((c.actions.filterMap fun a => a.table?).dedup).map fun t => (t, (s.table t).gen, (s.table t).epoch)

/-- Send the VOTE of a group consignment (R358, R359). -/
def State.sendVote (s : State) (c : Cons) (status : Nat) : State :=
  let g := s.groupRecord c.group
  let v : Vote := ⟨c.id, c.group, s.me, s.slotIn g, status, c.participants, c.notBefore, c.prepTides, s.votedTables c⟩
  (s.putCons { c with voteTide := some s.tide, phase := if status == 0 then .prepared else .failed status }).sendVc0
    ((g.map (·.master)).getD 0) (.vote v)

/-- A prepare fails (R353, R355, R359): it rolls back; a local consignment ends, a participant votes its status. -/
def State.prepareFails (s : State) (id status : Nat) : State :=
  match s.cons id with
  | none => s
  | some c =>
    let s := s.rollback c
    let c := (s.cons id).getD c
    if c.scope then s.sendVote c status else s.consEnds c status

/-! ### Prepare (R349 to R354) -/

/-- A destination page lies in a set of table pages that C2 may write (R350). -/
def State.stagingOk (s : State) (d : Nat) : Bool :=
  match s.setOf d with
  | some n => s.get HBM_CHSET_USE n == 1 && bit (s.get HBM_CHSET_CLASSES n) 2
  | none => false

/-- A rebuild of the group is under way (R550). -/
def State.groupRebuilding (s : State) (g : Nat) : Bool :=
  s.rebuilding.contains g || (match s.rebuild with | some r => r.group == g | none => false)

/-- Why a table cannot be changed, by Table 08.6. -/
def State.tableBusy (s : State) (t : Nat) : Option Nat :=
  let x := s.table t
  if !x.enabled || x.disabling || s.groupRebuilding x.group then some csTableBusy
  else if x.live.length ≥ 8 || x.epoch + 1 > 0xFFFFFFFF then some csEpochLimit
  else none

/-- The request of a copy: C2 work. -/
def copyReq : Req := { cls := some 2 }

/-- What an action's work comes to: done, waiting for a model's load, a status, or a halted copy with the address that failed. -/
inductive Work where
  | done (s : State) (c : Cons)
  | wait
  | fails (status : Nat)
  | halts (e : AccErr) (addr : Nat)

/-- A failed access of a copy: an uncorrectable word or a lost set fails the prepare, the rest halts its stream (R353, R354), and
the action starts again after the resume word. -/
def copyFails (a : Nat) (e : AccErr) : Work :=
  match e with
  | .memory _ => .fails csCopyError
  | .lost => .fails csCopyError
  | .held => .wait
  | x => .halts x a

/-- Write the map entry of a page changed by a consignment (Table 08.5), keeping what was there. -/
def State.changeEntry (s : State) (c : Cons) (t a : Nat) (m : MapEntry) (page : Nat) : State × Cons :=
  let old := s.bytes a 16
  let ch := (s.table t).epoch + 1
  let new := (MapEntry.bytes ⟨true, true, m.valid, page, m.cur, ch⟩)
  (s.devWrite a new, { c with undo := c.undo ++ [.entry a old], wrote := c.wrote ++ [⟨t, a, new, ch⟩] })

/-- Write a page of a copy. -/
def State.copyTo (s : State) (d : Nat) (bs : List Byte) (k : State → Work) : Work :=
  match s.write copyReq d bs with
  | .ok s => k s
  | .error e => copyFails d e

/-- One logical page of a PAGE_WRITE. -/
def State.pageWritePage (s : State) (c : Cons) (t l d src : Nat) : Work :=
  let a := (s.table t).rootCur + 16 * l
  match s.read {} a 16 with
  | .error e => copyFails a e
  | .ok (bs, s) =>
    let m := mapEntryOf (leNat bs)
    let enter (s : State) : Work := let r := s.changeEntry c t a m d; .done r.1 r.2
    if m.prevValid then .fails csPageBusy
    else if src == d then enter s
    else match s.read copyReq src 65536 with
      | .error e => copyFails src e
      | .ok (page, s) => s.copyTo d page enter

/-- One logical page of a PARITY_DELTA. -/
def State.parityDeltaPage (s : State) (c : Cons) (t l d src : Nat) : Work :=
  let a := (s.table t).rootCur + 16 * l
  let again := c.wrote.any fun w => w.addr == a
  match s.read {} a 16, s.read copyReq src 65536 with
  | .error e, _ => copyFails a e
  | _, .error e => copyFails src e
  | .ok (bs, s), .ok (delta, _) =>
    let m := mapEntryOf (leNat bs)
    if again then
      match s.read copyReq d 65536 with
      | .error e => copyFails d e
      | .ok (old, s) => s.copyTo d (xorBytes old delta) fun s => .done s c
    else if m.prevValid then .fails csPageBusy
    else
      let old : Except AccErr (List Byte × State) :=
        if m.valid then s.read copyReq m.cur 65536 else .ok (List.replicate 65536 0, s)
      match old with
      | .error e => copyFails m.cur e
      | .ok (old, s) => s.copyTo d (xorBytes old delta) fun s => let r := s.changeEntry c t a m d; .done r.1 r.2

/-- The pages of an action, in order. -/
def State.eachPage (f : State → Cons → Nat → Nat → Nat → Work) (s : State) (c : Cons) : List (Nat × Nat × Nat) → Work
  | [] => .done s c
  | p :: t =>
    match f s c p.1 p.2.1 p.2.2 with
    | .done s c => State.eachPage f s c t
    | x => x

/-- ROOT_SET at prepare. -/
def State.rootSetWork (s : State) (c : Cons) (t root : Nat) : Work :=
  let x := s.table t
  if x.rootPrev.isSome then .fails csTableBusy
  else
    .done (s.putTable t { x with rootPrev := some x.rootCur, rootCur := root, rootChange := x.epoch + 1 })
      { c with undo := c.undo ++ [.root t x.rootCur x.rootPrev x.rootChange] }

/-- The bytes with new ones laid over from an offset. -/
def overlay (bs new : List Byte) (at' : Nat) : List Byte := bs.take at' ++ new ++ bs.drop (at' + new.length)

/-- Copies of the model blocks that a swap touches, with the new entries laid in; none where the cache lacks room. Entries
[off, off + new.length) of the image take `new`. -/
def State.swapBlocks (s : State) (c : Cons) (m off : Nat) (new : List Byte) : List Nat → Work
  | [] => .done s c
  | b :: rest =>
    let x := s.model m
    let prior := (c.swaps.filter fun w => w.1 == m && w.2.1 == b).getLast?
    let old : Except AccErr (List Byte × State) := match prior with
      | some w => .ok (w.2.2.1, s)
      | none => s.storeBlock x x.version b
    match old with
    | .error e => copyFails (x.image + 65536 * b) e
    | .ok (bs, s) =>
      let lo := 65536 * b
      let cut := if off < lo then new.drop (lo - off) else new
      let at' := if off < lo then 0 else off - lo
      let bs := overlay bs (cut.take (65536 - at')) at'
      let place : Option (Option Nat) := match prior with
        | some w => some w.2.2.2
        | none =>
          if x.blocks.any fun p => p.1 == b then ((s.putCons c).placeBlocks x.locality x.cls 1 (s.putCons c).usedBlocks).map fun p => p.1.head?
          else some none
      match place with
      | none => .fails csNoRoom
      | some n =>
        let s := match n with
          | some k => s.writeBlock k bs
          | none => s
        State.swapBlocks s { c with swaps := (c.swaps.filter fun w => !(w.1 == m && w.2.1 == b)) ++ [(m, b, bs, n)] } m off new rest

/-- RESCALE_SWAP at prepare. A model that is not registered, or a range beyond its image, counts as busy. DESIGN CHOICE
(log 27). -/
def State.rescaleSwapWork (s : State) (c : Cons) (m off n src : Nat) : Work :=
  let x := s.model m
  if x.retiring.isSome || x.st == .absent || off + 16 * n > x.bytes then .fails csModelBusy
  else if x.st == .loading then .wait
  else match s.read copyReq src (16 * n) with
    | .error e => copyFails src e
    | .ok (new, s) =>
      s.swapBlocks c m off new ((List.range ((off + 16 * n - 1) / 65536 - off / 65536 + 1)).map fun i => off / 65536 + i)

/-- Load the blocks of a PIN that are not resident. -/
def State.loadHeld (s : State) (c : Cons) (m : Nat) : List (Nat × Nat) → Work
  | [] => .done s c
  | (b, n) :: rest =>
    let x := s.model m
    match s.storeBlock x x.version b with
    | .error e => copyFails (x.image + 65536 * b) e
    | .ok (bs, s) =>
      State.loadHeld ((s.writeBlock n bs).putModel m { x with blocks := x.blocks ++ [(b, n)] }) c m rest

/-- PIN at prepare: the named blocks are held resident. -/
def State.pinWork (s : State) (c : Cons) (m first n : Nat) : Work :=
  let x := s.model m
  if x.retiring.isSome || x.st == .absent || 65536 * (first + n) > x.bytes then .fails csModelBusy
  else if x.st == .loading then .wait
  else
    let named := (List.range n).map fun i => first + i
    let missing := named.filter fun b => !(x.blocks.any fun p => p.1 == b)
    match s.placeBlocks x.locality (if x.st == .resident then x.cls else 2) missing.length s.usedBlocks with
    | none => .fails csNoRoom
    | some (bs, _) => s.loadHeld { c with heldBlocks := c.heldBlocks ++ named.map fun b => (m, b) } m (missing.zip bs)

/-- The work of one action, for a table that may be changed. -/
def State.actionWork (s : State) (c : Cons) (a : Action) : Work :=
  match a with
  | .pageWrite b t l d src => State.eachPage (fun s c l d src => s.pageWritePage c t l d src) s c (pagesOf b l d src)
  | .parityDelta b t l d src => State.eachPage (fun s c l d src => s.parityDeltaPage c t l d src) s c (pagesOf b l d src)
  | .rootSet t r => s.rootSetWork c t r
  | .rescaleSwap m o n src => s.rescaleSwapWork c m o n src
  | .pin m f n => s.pinWork c m f n
  | .unpin m _ _ => if (s.model m).retiring.isSome then .fails csModelBusy else .done s c

/-- A copy of a prepare halts (R220, R354): its stream stands halted, with its record, until the resume word. -/
def State.haltCopy (s : State) (c : Cons) (e : AccErr) (a : Nat) : State :=
  match s.anyContext, e.reason with
  | some n, some r =>
    let g := ((s.stream n).gen + 1) % 2 ^ 16
    let s := s.putStream n { st := .halted, reason := r, gen := g, job := c.job, cls := 2 }
    (s.putCons { c with phase := .haltedCopy }).postEvent
      (s.eventHeader 0x01 0 (s.job c.job) s.stampTide ++ streamFaultBytes n g r a {})
  | _, _ => s

/-- Perform the next action of a consignment when it is of a kind (R349). -/
def State.perform (s : State) (id : Nat) (kind : Action → Bool) : State :=
  match s.cons id with
  | none => s
  | some c =>
    match c.phase, c.actions[c.next]? with
    | .preparing, some a =>
      if !kind a then s
      else match a.table?.bind fun t => s.tableBusy t with
        | some st => s.prepareFails id st
        | none =>
          match s.actionWork c a with
          | .done t c' => t.putCons { c' with next := c.next + 1 }
          | .wait => s
          | .fails st => s.prepareFails id st
          | .halts e a => s.haltCopy c e a
    | _, _ => s

/-- Begin a prepare, once its staging is judged (R350). -/
def State.beginPrepare (s : State) (id : Nat) : State :=
  match s.cons id with
  | some c =>
    if c.phase != .admitted then s
    else if (c.actions.flatMap (·.pages)).all fun p => s.stagingOk p.2.2.2.1 then s.putCons { c with phase := .preparing }
    else s.prepareFails id csStagingSet
  | none => s

/-- CONSIGNMENT_PREPARE (R349, R350, R353). -/
def execConsignmentPrepare (cons : Nat) (s : State) : Host.Outcome State Fault Refusal :=
  if s.live && s.flag HMR_TIDE_STATUS_RUNNING 0 then ok (s.beginPrepare cons) else ok s

/-- An action's command takes effect while the device runs and the tide is not stopped (R367). -/
def State.prepares (s : State) : Bool := s.live && s.flag HMR_TIDE_STATUS_RUNNING 0

/-- PAGE_WRITE (R349, R343). -/
def execPageWrite (cons : Nat) (s : State) : Host.Outcome State Fault Refusal :=
  if s.prepares then ok (s.perform cons fun a => match a with | .pageWrite .. => true | _ => false) else ok s

/-- PARITY_DELTA (R349, R352). -/
def execParityDelta (cons : Nat) (s : State) : Host.Outcome State Fault Refusal :=
  if s.prepares then ok (s.perform cons fun a => match a with | .parityDelta .. => true | _ => false) else ok s

/-- ROOT_SET (R349, R344). -/
def execRootSet (cons : Nat) (s : State) : Host.Outcome State Fault Refusal :=
  if s.prepares then ok (s.perform cons fun a => match a with | .rootSet .. => true | _ => false) else ok s

/-- RESCALE_SWAP (R349). -/
def execRescaleSwap (cons : Nat) (s : State) : Host.Outcome State Fault Refusal :=
  if s.prepares then ok (s.perform cons fun a => match a with | .rescaleSwap .. => true | _ => false) else ok s

/-- PIN (R349, R266). -/
def execPin (cons : Nat) (s : State) : Host.Outcome State Fault Refusal :=
  if s.prepares then ok (s.perform cons fun a => match a with | .pin .. => true | _ => false) else ok s

/-- UNPIN (R349, R266). -/
def execUnpin (cons : Nat) (s : State) : Host.Outcome State Fault Refusal :=
  if s.prepares then ok (s.perform cons fun a => match a with | .unpin .. => true | _ => false) else ok s

/-- A prepare whose every action is done: a participant votes PREPARED, a local consignment waits for its boundary. One that names a
table now being disabled votes TABLE_BUSY (Table 08.9). -/
def State.prepareDone (s : State) (id : Nat) : State :=
  match s.cons id with
  | some c =>
    if c.phase == .preparing && decide (c.next ≥ c.actions.length) then
      let s := match s.job c.job with
        | some j => s.putJob { j with left := {} }
        | none => s
      if c.actions.any fun a => a.table?.any fun t => (s.table t).disabling then s.prepareFails id csTableBusy
      else if c.scope then s.sendVote c 0 else s.putCons { c with phase := .prepared }
    else s
  | none => s

/-- PREPARE_DONE (R358, R359). -/
def execPrepareDone (cons : Nat) (s : State) : Host.Outcome State Fault Refusal :=
  if s.prepares then ok (s.prepareDone cons) else ok s

/-- The prepare of a consignment goes on. -/
def Cons.inPrepare (c : Cons) : Bool := c.phase == .admitted || c.phase == .preparing || c.phase == .haltedCopy

/-- PREPARE_TIMEOUT (R354, R355): `PREPARE_TIDES` have passed since its admission boundary. -/
def execPrepareTimeout (cons : Nat) (s : State) : Host.Outcome State Fault Refusal :=
  match s.cons cons with
  | some c => if s.prepares && c.inPrepare && decide (s.tide ≥ c.admitTide + c.prepTides) then ok (s.prepareFails cons csTimeout) else ok s
  | none => ok s

/-! ### Commit (R356, R362) -/

/-- The cache side of one swapped block: a copy that the cache holds whole stays for the version before, and the new one takes the place
made at prepare, or one found now. Where there is no place, or the block was still to be loaded, the model's load starts again. -/
def State.swapIn (s : State) (m : Nat) (w : Nat × List Byte × Option Nat) : State :=
  let x := s.model m
  match x.blocks.find? fun p => p.1 == w.1 with
  | none => s
  | some p =>
    let whole := !x.toLoad.contains w.1
    let found := ((s.placeBlocks x.locality x.cls 1 s.usedBlocks).map (·.1)).bind List.head?
    let x := { x with oldBlocks := if whole then x.oldBlocks ++ [p] else x.oldBlocks }
    match if whole then w.2.2.orElse fun _ => found else none with
    | none => (s.putModel m x).loseBlocks m fun q => q.1 != w.1
    | some n => (s.writeBlock n w.2.1).putModel m { x with blocks := x.blocks.filter (fun q => q.1 != w.1) ++ [(w.1, n)] }

/-- Make a swap's copies the current version of their model; the version before it begins to retire (R349, R370). -/
def State.commitSwap (s : State) (c : Cons) (m : Nat) : State :=
  let x := s.model m
  let mine := (c.swaps.filter fun w => w.1 == m).map (·.2)
  let s := s.setModel m { x with version := x.version + 1, retiring := some x.version,
                                 copies := x.copies ++ mine.map fun w => (x.version + 1, w.1, w.2.1) }
  mine.foldl (fun t w => t.swapIn m w) s

/-- Pin or release blocks of a model; a block that a stored model no longer keeps leaves the cache. -/
def State.commitPin (s : State) (a : Action) : State :=
  match a with
  | .pin m f n =>
    let x := s.model m
    s.putModel m { x with pins := x.pins ++ (((List.range n).map fun i => f + i).filter fun b => !(x.pins.contains b)) }
  | .unpin m f n =>
    let x := s.model m
    let pins := x.pins.filter fun b => !(decide (f ≤ b) && decide (b < f + n))
    s.putModel m { x with pins := pins, blocks := if x.st == .stored then x.blocks.filter fun p => pins.contains p.1 else x.blocks }
  | _ => s

/-- Models that a consignment swaps. -/
def Cons.swapped (c : Cons) : List Nat := (c.swaps.map (·.1)).dedup

/-- What a committed consignment replaced has all retired: its RETIRED record is written and its job ends (R371). -/
def State.closeRetiring (s : State) (id : Nat) : State :=
  match s.retiring.find? fun r => r.id == id with
  | none => s
  | some r =>
    if !(r.tables.isEmpty && r.versions.isEmpty) then s
    else
      let s := { s with retiring := s.retiring.filter fun x => x.id != id }
      match s.job r.job with
      | some j => (s.consRecord j 0x04 0 id).dropJob j (j.slots - 1)
      | none => s

/-- Commit a consignment: its model actions take effect, the CONSIGN record is written, and what it replaced begins to retire
(R356, R362). -/
def State.commitCons (s : State) (c : Cons) : State :=
  let versions := c.swapped.map fun m => (m, (s.model m).version)
  let tables := ((c.actions.filterMap fun a => a.table?).dedup).map fun t =>
    (t, match (c.wrote.find? fun w => w.table == t) with | some w => w.change - 1 | none => (s.table t).rootChange - 1)
  let s := c.swapped.foldl (fun t m => t.commitSwap c m) s
  let s := c.actions.foldl (fun t a => t.commitPin a) s
  let s := { s with conss := s.conss.filter fun x => x.id != c.id, retiring := s.retiring ++ [(⟨c.id, c.job, tables, c.wrote, versions, none⟩ : Retiring)] }
  let s := s.inc HMR_CONS_STATUS_COMMITS 0 1
  let s := match s.job c.job with
    | some j => (s.consRecord j 0x03 csCommitted c.id).putJob { j with slots := 1 }
    | none => s
  s.closeRetiring c.id

/-- Local consignments due at this boundary commit (R356). -/
def State.commitLocals (s : State) : State :=
  (s.conss.filter fun c => !c.scope && c.phase == .prepared && decide (c.notBefore ≤ s.tide)).foldl (fun t c => t.commitCons c) s

/-- Advance a table's epoch to a noticed value (R362). -/
def State.advanceEpoch (s : State) (p : Nat × Nat) : State :=
  let x := s.table p.1
  let s := if x.enabled && decide (x.epoch < p.2) then
      s.putTable p.1 { x with epoch := p.2, live := x.live ++ [⟨p.2, none⟩] }
    else s
  let m := s.master p.1
  if m.known && decide (m.epoch < p.2) then s.putMaster p.1 { m with epoch := p.2, live := m.live ++ [⟨p.2, none⟩] } else s

/-- Apply a notice (R362). -/
def State.applyNotice (s : State) (d : Decision) : State :=
  let s := d.tables.foldl (fun t p => t.advanceEpoch p) s
  let s := if s.tide > d.tc then s.inc HMR_CONS_STATUS_LATE_NOTICES 0 1 else s
  { s with noticesDone := s.noticesDone ++ [d] }

/-- Send the ACK of an applied outcome to the pod master, with this device's slot of the group (Table 08.7). -/
def State.sendAck (s : State) (cons group : Nat) : State :=
  s.sendVc0 s.podMaster (.ack cons group (s.slotIn (s.groupRecord group)) s.me)

/-- Notices and group commits due at this boundary (R362), with each participant's ACK (R364). -/
def State.commitGroups (s : State) : State :=
  let due := s.notices.filter fun d => decide (d.tc ≤ s.tide)
  let s := { s with notices := s.notices.filter fun d => !(decide (d.tc ≤ s.tide)) }
  let s := due.foldl (fun t d => t.applyNotice d) s
  (s.conss.filter fun c => match c.phase with | .committing tc => decide (tc ≤ s.tide) | _ => false).foldl
    (fun t c => (t.commitCons c).sendAck c.id c.group) s

/-! ### The group master (R358, R360) -/

/-- The votes held for a consignment. -/
def State.voteBox (s : State) (c : Nat) : Option VoteBox := s.votes.find? fun b => b.cons == c

/-- Put a box of votes. -/
def State.putBox (s : State) (b : VoteBox) : State := { s with votes := (s.votes.filter fun x => x.cons != b.cons) ++ [b] }

/-- Take a vote: it joins those held, or opens a box; a late vote is passed on to the pod master, which answers it (R366). -/
def State.takeVote (s : State) (v : Vote) : State :=
  match s.voteBox v.cons with
  | none => s.putBox ⟨v.cons, s.tide, [v], none, false⟩
  | some b =>
    let known := b.votes.any fun x => x.sender == v.sender
    match b.outcome with
    | none => s.putBox { b with votes := (b.votes.filter fun x => x.sender != v.sender) ++ [v] }
    | some d =>
      if known then s.putBox ⟨v.cons, s.tide, [v], none, false⟩
      else (s.putBox { b with votes := b.votes ++ [v] }).sendVc0 s.podMaster (.decision d true)

/-- VOTE (R358, R360, R366). -/
def execVote (vote : Vote) (s : State) : Host.Outcome State Fault Refusal := if s.live then ok (s.takeVote vote) else ok s

/-- Two votes disagree (R360). -/
def Vote.disagrees (a b : Vote) : Bool :=
  a.group != b.group || a.participants != b.participants || a.notBefore != b.notBefore || a.prepTides != b.prepTides ||
  a.tables.any fun x => b.tables.any fun y => x.1 == y.1 && x.2 != y.2

/-- Some two votes of a list disagree. -/
def votesDisagree : List Vote → Bool
  | [] => false
  | a :: t => (t.any fun b => a.disagrees b) || votesDisagree t

/-- `PARTICIPANTS` and `PREPARE_TIDES` that the votes carry. -/
def VoteBox.participants (b : VoteBox) : Nat := (b.votes.head?.map (·.participants)).getD 0
def VoteBox.prepTides (b : VoteBox) : Nat := (b.votes.head?.map (·.prepTides)).getD 0

/-- The decision that the votes call for, but for missing votes (R360, Table 08.9). -/
def VoteBox.decide (b : VoteBox) : Option Nat :=
  if b.votes.any fun v => v.status != 0 then some csPeerAbort
  else if votesDisagree b.votes then some csMismatch
  else if b.lost then some csMemberLost
  else if b.votes.length ≥ b.participants then some csCommitted
  else none

/-- Tables that the votes name, with their generation and epoch. -/
def VoteBox.tables (b : VoteBox) : List (Nat × Nat × Nat) := (b.votes.flatMap (·.tables)).dedup

/-- A table's record on the group master, kept for a table it has decided (R360). -/
def State.keepMaster (s : State) (x : Nat × Nat × Nat) : State :=
  let m := s.master x.1
  if m.known && m.gen == x.2.1 then s else s.putMaster x.1 ⟨true, x.2.1, x.2.2, [⟨x.2.2, none⟩]⟩

/-- Decide a consignment with a status: the master keeps the record of every table that the votes name alike, and sends the decision to the pod master (R360, R361). -/
def State.decideBox (s : State) (b : VoteBox) (status : Nat) : State :=
  let nb := (b.votes.head?.map (·.notBefore)).getD 0
  let g := (b.votes.head?.map (·.group)).getD 0
  let d : Decision := if status == csCommitted then ⟨b.cons, g, status, max (s.tide + 4) nb, b.tables.map fun t => (t.1, t.2.2 + 1)⟩
    else ⟨b.cons, g, status, 0, []⟩
  let s := (b.tables.filter fun x => !b.tables.any fun y => y.1 == x.1 && y.2 != x.2).foldl (fun t x => t.keepMaster x) s
  (s.putBox { b with outcome := some d }).sendVc0 s.podMaster (.decision d false)

/-- The group master decides what its votes decide at a boundary (R360); none while neither pod
master nor standby lives (R509). -/
def State.decideAll (s : State) : State :=
  if s.pod.leaderless then s else (s.votes.filter fun b => b.outcome.isNone).foldl (fun t b => match b.decide with | some st => t.decideBox b st | none => t) s

/-- VOTE_TIMEOUT (R360): fewer than `PARTICIPANTS` votes have come in `PREPARE_TIDES` after the first. -/
def execVoteTimeout (cons : Nat) (s : State) : Host.Outcome State Fault Refusal :=
  match s.voteBox cons with
  | some b =>
    if s.prepares && !s.pod.leaderless && b.outcome.isNone && b.decide.isNone && decide (s.tide ≥ b.firstTide + b.prepTides) then
      ok (s.decideBox b csTimeout)
    else ok s
  | none => ok s

/-! ### The pod master's log (R361, R365) -/

/-- The device is the pod master. -/
def State.isMaster (s : State) : Bool := s.podMaster == s.me

/-- The logged decision of a consignment. -/
def State.logged (s : State) (c : Nat) : Option Logged := s.decisions.find? fun l => l.dec.cons == c

/-- Replace a logged decision. -/
def State.putLogged (s : State) (l : Logged) : State :=
  { s with decisions := s.decisions.map fun x => if x.dec.cons == l.dec.cons then l else x }

/-- The pod has a standby master. -/
def State.hasStandby (s : State) : Bool := !s.flag QUY_POD_SIZE_NO_STANDBY 0

/-- The pod size table as `QUY_POD_SIZE` shows it. -/
def State.podSize (s : State) : Nat :=
  s.get QUY_POD_SIZE_DEVICES 0 + 2 ^ 13 * s.get QUY_POD_SIZE_LEVELS 0 + 2 ^ 16 * s.get QUY_POD_SIZE_GROUPS 0 +
  2 ^ 27 * s.get QUY_POD_SIZE_NO_STANDBY 0 + 2 ^ 32 * s.get QUY_POD_SIZE_MASTER 0 + 2 ^ 48 * s.get QUY_POD_SIZE_STANDBY 0

/-- Mirror the master's state to the standby (R507). -/
def State.mirror (s : State) : State :=
  if s.hasStandby then
    s.sendVc0 (s.get QUY_POD_SIZE_STANDBY 0) (.mirrored s.decisions s.pod.members s.pod.standbys s.pod.links s.podSize)
  else s

/-- Send a decision's notice to every device of the pod, with acknowledgement. -/
def State.sendNotices (s : State) (d : Decision) : State := s.pod.members.foldl (fun t m => t.sendVc0 m (.notice d)) s

/-- Log a decision, mirror it, and send it to its voters and, for a commit, as a NOTICE to every device (R361). -/
def State.logDecision (s : State) (d : Decision) (voters : List Nat) : State :=
  let l : Logged := ⟨d, voters, [], s.tide, if d.status == csCommitted then s.pod.members else [], none⟩
  let s := { s with decisions := s.decisions ++ [l] }.mirror
  let s := voters.foldl (fun t v => t.sendVc0 v (.decision d false)) s
  if d.status == csCommitted then s.sendNotices d else s

/-- A decision reaches the pod master: the first for its `CONS_ID` is logged, as an abort while the log is full; later ones are
dropped, and voters not yet known are answered with the logged outcome (R361, R366). -/
def State.takeDecision (s : State) (d : Decision) (voters : List Nat) : State :=
  match s.logged d.cons with
  | some l =>
    let new := voters.filter fun v => !(l.voters.contains v)
    new.foldl (fun t v => t.sendVc0 v (.decision l.dec true)) (s.putLogged { l with voters := l.voters ++ new })
  | none =>
    if s.decisions.length ≥ 1024 then s.logDecision ⟨d.cons, d.group, csTimeout, 0, []⟩ voters
    else s.logDecision d voters

/-- DECISION_TO_POD_MASTER (R361, R366). -/
def execDecisionToPodMaster (decision : Decision) (voters : List Nat) (s : State) : Host.Outcome State Fault Refusal :=
  if s.live && s.isMaster then ok (s.takeDecision decision voters) else ok s

/-- A decision leaves the log once every voter has acknowledged it or is lost, and its Tr or decision tide has passed (R361). -/
def Logged.done (l : Logged) (members : List Nat) (tide : Nat) : Bool :=
  (l.voters.all fun v => l.acked.contains v || !(members.contains v)) &&
  (if l.dec.status == csCommitted then (match l.tr with | some t => decide (t < tide) | none => false)
   else decide (l.decided < tide))

/-- Drop what the log no longer needs. -/
def State.pruneLog (s : State) : State := { s with decisions := s.decisions.filter fun l => !(l.done s.pod.members s.tide) }

/-- The group's members by the record this device has of it; every member of the pod where it has none. -/
def State.groupMembers (s : State) (g : Nat) : List Nat :=
  match s.groupRecord g with
  | some r => r.slots.dedup
  | none => s.pod.members

/-- The NOTICE of a logged commit has completed in this tide: its Tr is set and sent (R368). -/
def State.noticeCompletes (s : State) (l : Logged) : State :=
  let tr := max l.dec.tc s.tide + 4 + s.get HMR_EPOCH_CFG_GRACE_TIDES 0
  let s := s.putLogged { l with noticeTo := [], tr := some tr }
  (s.groupMembers l.dec.group).foldl (fun t m => t.sendVc0 m (.retireAt l.dec.cons tr)) s.mirror

/-- A device has acknowledged the NOTICE of a commit, or is lost. -/
def State.noticeAcked (s : State) (cons device : Nat) : State :=
  match s.logged cons with
  | some l =>
    if l.noticeTo.contains device then
      let owed := l.noticeTo.filter fun d => d != device
      if owed.isEmpty then s.noticeCompletes l else s.putLogged { l with noticeTo := owed }
    else s
  | none => s

/-- ACK (R361, R364): a participant, with its slot of the group, has applied the outcome. -/
def execAck (of : AckOf) (device : Nat) (s : State) : Host.Outcome State Fault Refusal :=
  match s.logged of.cons with
  | some l =>
    if s.live && s.isMaster then ok (s.putLogged { l with acked := if l.acked.contains device then l.acked else l.acked ++ [device] }).pruneLog
    else ok s
  | none => ok s

/-- QUERY (R365, R366): answered from the log; with no decision there, an abort is logged: MASTER_LOST where the group's
master has left the pod (Table 08.9), else PREPARE_TIMEOUT. -/
def State.answerQuery (s : State) (cons group device : Nat) : State :=
  match s.logged cons with
  | some l => s.sendVc0 device (.decision l.dec (!(l.voters.contains device)))
  | none =>
    let gone := match s.groupRecord group with
      | some r => !(s.pod.members.contains r.master)
      | none => false
    s.logDecision ⟨cons, group, if gone then csMasterLost else csTimeout, 0, []⟩ [device]

/-- QUERY (R365). -/
def execQuery (cons group device : Nat) (s : State) : Host.Outcome State Fault Refusal :=
  if s.live && s.isMaster then ok (s.answerQuery cons group device) else ok s

/-! ### Outcomes at a participant (R360, R364, R366) -/

/-- The block changes table data. -/
def Cons.changesTables (c : Cons) : Bool := c.actions.any fun a => a.table?.isSome

/-- A late participant of a commit (R366): it rolls back, records MEMBER_LOST, and reports its slot lost. -/
def State.lateCommit (s : State) (c : Cons) : State :=
  let s := (s.rollback c).consEnds c csMemberLost
  let slot := s.slotIn (s.groupRecord c.group)
  if c.changesTables && slot != 63 then s.sendVc0 s.podMaster (.slotsLost s.me c.group slot) else s

/-- The status that a participant records for an abort (R360). -/
def Cons.abortStatus (c : Cons) (status : Nat) : Nat :=
  match c.phase with
  | .failed st => st
  | _ => status

/-- A participant learns its outcome. -/
def State.takeOutcome (s : State) (d : Decision) (late : Bool) : State :=
  match s.cons d.cons with
  | none => s.sendAck d.cons d.group
  | some c =>
    if d.status != csCommitted then
      ((s.rollback c).consEnds c (c.abortStatus d.status)).sendAck c.id c.group
    else if late || c.phase != .prepared then
      match c.phase with
      | .committing _ => s
      | _ => (s.lateCommit c).sendAck c.id c.group
    else s.putCons { c with phase := .committing d.tc, inDoubt := false }

/-- DECISION (R364, R360, R355, R366). -/
def execDecision (decision : Decision) (late : Bool) (s : State) : Host.Outcome State Fault Refusal :=
  if s.live then ok (s.takeOutcome decision late) else ok s

/-- NOTICE (R362): kept until its commit tide; a repeated one is ignored. -/
def execNotice (decision : Decision) (s : State) : Host.Outcome State Fault Refusal :=
  if s.live && !(s.notices.contains decision) && !(s.noticesDone.contains decision) then
    ok { s with notices := s.notices ++ [decision] }
  else ok s

/-- A participant that has voted and waits for the outcome. -/
def Cons.voted (c : Cons) : Bool :=
  match c.phase with
  | .prepared => true
  | .failed _ => true
  | _ => false

/-- IN_DOUBT_TIMEOUT (R364): no outcome `PREPARE_TIDES` + 4 tides after the vote; the participant asks the pod master. -/
def execInDoubtTimeout (cons : Nat) (s : State) : Host.Outcome State Fault Refusal :=
  match s.cons cons with
  | some c =>
    match c.voted, c.voteTide with
    | true, some v =>
      if s.prepares && decide (s.tide ≥ v + c.prepTides + 4) then
        ok ((s.putCons { c with inDoubt := true }).sendVc0 s.podMaster (.query c.id c.group s.me))
      else ok s
    | _, _ => ok s
  | none => ok s

/-! ### Retirement (R368 to R371) -/

/-- Set the retire tide of an epoch in a list. -/
def setRetire (l : List LiveEpoch) (e tr : Nat) : List LiveEpoch := l.map fun x => if x.epoch == e then { x with retire := some tr } else x

/-- The tables and new epochs that a commit's notice named. -/
def State.noticed (s : State) (cons : Nat) : List (Nat × Nat) :=
  (((s.notices ++ s.noticesDone).filter fun d => d.cons == cons).getLast?.map (·.tables)).getD []

/-- RETIRE_AT (R368): the superseded epochs of the commit's tables retire at Tr, and so does what a participant recorded, whether or not
the table stays enabled. -/
def execRetireAt (cons tr : Nat) (s : State) : Host.Outcome State Fault Refusal :=
  ok ((s.noticed cons).foldl (fun t p =>
    let t := t.putTable p.1 { t.table p.1 with live := setRetire (t.table p.1).live (p.2 - 1) tr }
    t.putMaster p.1 { t.master p.1 with live := setRetire (t.master p.1).live (p.2 - 1) tr })
    { s with retiring := s.retiring.map fun (r : Retiring) => if r.id == cons then { r with tr := some tr } else r })

/-- Write a retired map entry whole from its record, noting an uncorrectable word that it mends (R369). -/
def State.retireEntry (s : State) (w : WroteEntry) : State :=
  let m := mapEntryOf (leNat w.bytes)
  let s := s.memError { bad := s.allBad w.addr 16 } none
  s.devWrite w.addr (MapEntry.bytes { m with prevValid := false, prevMapped := false })

/-- An epoch of a table retires: it leaves the live list, a root change of the next epoch is released. -/
def State.retireEpoch (s : State) (t e : Nat) : State :=
  let x := s.table t
  let s := s.putTable t { x with live := x.live.filter fun l => l.epoch != e,
                                 rootPrev := if x.rootChange == e + 1 then none else x.rootPrev }
  s.putMaster t { s.master t with live := (s.master t).live.filter fun l => l.epoch != e }

/-- A retire tide has come. -/
def State.retireDue (s : State) (tr : Option Nat) : Bool := tr.any fun r => decide (r ≤ s.tide)

/-- What a commit here replaced, whose retire tide has come. -/
def State.dueHere (s : State) (cons : Nat) : List (Nat × Nat) :=
  match s.retiring.find? fun r => r.id == cons with
  | some r => if s.retireDue r.tr then r.tables else []
  | none => []

/-- Tables of a commit whose superseded epoch is due. -/
def State.dueEpochs (s : State) (cons : Nat) : List (Nat × Nat) :=
  (s.dueHere cons ++ ((s.noticed cons).map fun p => (p.1, p.2 - 1)).filter fun p =>
    ((s.table p.1).live ++ (s.master p.1).live).any fun l => l.epoch == p.2 && s.retireDue l.retire).dedup

/-- The epochs that a commit superseded retire (R369, R371). -/
def State.retireEpochs (s : State) (cons : Nat) : State :=
  let due := s.dueEpochs cons
  let s := due.foldl (fun t p => t.retireEpoch p.1 p.2) s
  match s.retiring.find? fun r => r.id == cons with
  | none => s
  | some r =>
    let s := (r.wrote.filter fun w => due.contains (w.table, w.change - 1)).foldl (fun t w => t.retireEntry w) s
    let r := { r with tables := r.tables.filter fun p => !(due.contains p), wrote := r.wrote.filter fun w => !(due.contains (w.table, w.change - 1)) }
    ({ s with retiring := s.retiring.map fun (x : Retiring) => if x.id == cons then r else x }).closeRetiring cons

/-! ### The page copying of a rebuild (R550, R551) -/

/-- Enabled tables of a group. -/
def State.tablesIn (s : State) (g : Nat) : List Nat := (s.tables.filter fun e => e.2.enabled && e.2.group == g).map (·.1)

/-- Logical pages of a table. -/
def State.logicalPages (s : State) (t : Nat) : Nat := ceilDiv (s.table t).rows (max 1 (recordsPerPage (s.table t).fmt (s.elems t)))

/-- Every table and page that a rebuild of a group writes, in order. -/
def State.rebuildPages (s : State) (g : Nat) : List (Nat × Nat) :=
  (s.tablesIn g).flatMap fun t => (List.range (s.logicalPages t)).map fun p => (t, p)

/-- Ask the D other slots for the page in hand, as C2 work on VC2. -/
def State.askPage (s : State) (b : Rebuild) : State :=
  let g := s.group b.group
  ((List.range (g.d + 1)).filter fun k => k != b.slot).foldl
    (fun t k => t.send (.net (g.slots.getD k 0) 2 (.pageRequest b.table b.page k t.me))) s

/-- Take a page in hand and ask for it. -/
def State.takeUpPage (s : State) (b : Rebuild) (x : Nat × Nat) : State :=
  let b := { b with copying := true, table := x.1, page := x.2, got := [], acc := List.replicate 65536 0 }
  { s with rebuild := some b }.askPage b

/-- Every epoch of a group's tables but the current one has retired. -/
def State.onlyCurrent (s : State) (g : Nat) : Bool := (s.tablesIn g).all fun t => decide ((s.table t).live.length ≤ 1)

/-- Begin the page copying of the rebuild here once nothing holds it (R550). DEDUCED (log 39). -/
def State.startCopy (s : State) : State :=
  match s.rebuild with
  | none => s
  | some b =>
    if b.copying || !s.onlyCurrent b.group then s
    else match s.rebuildPages b.group with
      | [] => s
      | x :: _ => s.takeUpPage b x

/-- EPOCH_RETIRE (R369, R371, R550). -/
def execEpochRetire (cons : Nat) (s : State) : Host.Outcome State Fault Refusal :=
  if s.prepares then ok (s.retireEpochs cons).startCopy else ok s

/-- A model version retires: its blocks return to the cache, and copies that no version reads are dropped (R370). -/
def State.retireVersion (s : State) (m v : Nat) : State :=
  let x := s.model m
  let newest := fun b => ((x.copies.filter fun c => c.2.1 == b).getLast?.map (·.1)).getD 0
  let s := s.putModel m { x with retiring := none, oldBlocks := [], copies := x.copies.filter fun c => c.1 == newest c.2.1 }
  let s := { s with retiring := s.retiring.map fun (r : Retiring) => { r with versions := r.versions.filter fun p => p != (m, v) } }
  (s.retiring.map fun (r : Retiring) => r.id).foldl (fun t i => t.closeRetiring i) s

/-- MODEL_VERSION_RETIRE (R370, R371). -/
def execModelVersionRetire (model version : Nat) (s : State) : Host.Outcome State Fault Refusal :=
  if s.prepares && (s.model model).retiring == some version && !s.versionUsed model version then ok (s.retireVersion model version)
  else ok s

end Sys2Proof.Machine
end

