-- ==== Sys2Proof/Machine/Tables.lean ====
section
/-! DEFINITION. Enabling and disabling embedding tables (R299 to R305, R346, R647). -/

namespace Sys2Proof.Machine

/-- End an operation of `CRN_TABLE_CTL`. -/
def State.tableResult (s : State) (r : Nat) : State :=
  ((s.put CRN_TABLE_RESULT_RESULT 0 r).put CRN_TABLE_CTL_DONE 0 1).put CRN_TABLE_CTL_BUSY 0 0

/-- `CRN_TABLE_CTL` takes an operation: none runs, or the one that runs is this one, begun by a register write. -/
def State.tableFree (s : State) (op t : Nat) : Bool :=
  !s.flag CRN_TABLE_CTL_BUSY 0 || (s.get CRN_TABLE_CTL_OP 0 == op && s.get CRN_TABLE_CTL_TABLE 0 == t)

/-- Write a group record's `STATE`, `LOST_SLOT` and `SLOTS` into memory (R304). -/
def State.writeGroup (s : State) (g : Nat) (r : Group) : State :=
  let a := s.get CRN_GROUP_DIR_BASE 0 + 64 * g
  let w := ((r.slots.zipIdx).map fun x => x.1 * 2 ^ (12 * x.2)).sum
  (s.devWrite (a + 1) [BitVec.ofNat 8 r.state.code, BitVec.ofNat 8 r.lostSlot]).devWrite (a + 8) (leBytes 50 w)

/-- The group state of a code. -/
def GroupState.ofCode : Nat → GroupState
  | 1 => .degraded
  | 2 => .lost
  | _ => .normal

/-- What the group master gives of a table: its answer, its own record where this device is the master, or `EPOCH0` as the
only live epoch where the master holds no record of that `TABLE_GEN` (R346). -/
def State.epochInfo (s : State) (t : Nat) (e : TableEntry) (g : Group) (answer : Option EpochInfo) : EpochInfo :=
  let bare : EpochInfo := ⟨e.epoch0, [⟨e.epoch0, none⟩], g.state.code, g.lostSlot, g.slots⟩
  if g.master == s.me then
    let m := s.master t
    if m.known && m.gen == e.gen then { bare with epoch := m.epoch, live := m.live } else bare
  else answer.getD bare

/-- A group master that can be asked: another device that is live. One that is not leaves the entry's `EPOCH0` and the record in
memory. DESIGN CHOICE (log 49). -/
def State.mustAsk (s : State) (g : Group) : Bool :=
  g.master != s.me && s.pod.members.contains g.master && !s.pod.leaving.contains g.master

/-- Ask the group master for the table's epochs; the enable stays in progress until the answer comes with a second
TABLE_ENABLE. DESIGN CHOICE (log 49). -/
def State.askEpoch (s : State) (t : Nat) (e : TableEntry) (g : Group) : State :=
  (((s.put CRN_TABLE_CTL_OP 0 1).put CRN_TABLE_CTL_TABLE 0 t).put CRN_TABLE_CTL_BUSY 0 1).sendVc0 g.master
    (.epochRequest t e.gen e.group e.epoch0 s.me)

/-- The oldest of a list of live epochs. -/
def oldestEpoch (e : EpochInfo) : Nat := (e.live.map (·.epoch)).foldl min e.epoch

/-- Take copies of a checked entry and record (R301, R344, R346). -/
def State.tableOn (s : State) (t : Nat) (e : TableEntry) (g : Group) (i : EpochInfo) : State :=
  let x : Table := { enabled := true, gen := e.gen, fmt := e.fmt, home := e.home, paritySlot := e.paritySlot, group := e.group,
                     dim := e.dim, rows := e.rows, mapPages := e.mapPages, rootCur := e.mapRoot, rootPrev := none,
                     rootChange := oldestEpoch i, epoch := i.epoch, live := i.live }
  let own := g.slots.findIdx fun d => d == s.me
  let claim := if own < g.slots.length then some own else (s.group e.group).claim
  let r : Group := { g with state := GroupState.ofCode i.state, lostSlot := i.lostSlot, slots := i.slots, claim := claim }
  let s := if g.master == s.me then
      (if (s.master t).known && (s.master t).gen == e.gen then s else s.putMaster t ⟨true, e.gen, i.epoch, i.live⟩)
    else s
  (((s.putTable t x).putGroup e.group r).writeGroup e.group r).devWrite (s.get CRN_TABLE_DIR_BASE 0 + 64 * t + 48) [1]

/-- `MAP_ROOT` is 64 KiB-aligned where this device holds a slot; elsewhere it is ignored (Table 08.2). DEDUCED (log 57). -/
def State.rootOk (s : State) (e : TableEntry) (g : Group) : Bool := e.mapRoot % 65536 == 0 || !g.slots.contains s.me

/-- Enable a table (R301, R346, R647). -/
def State.enableTable (s : State) (t : Nat) (answer : Option EpochInfo) : State :=
  if (s.table t).enabled then s.tableResult 1
  else match s.tableInMemory t with
    | .error .held => s
    | .error _ => s.tableResult 4
    | .ok (none, _) => s.tableResult 3
    | .ok (some bs, s) =>
      let e := tableEntryOf bs
      match s.groupInMemory e.group with
      | .error .held => s
      | .error _ => s.tableResult 4
      | .ok (none, s) => s.tableResult 2
      | .ok (some gb, s) =>
        let g := groupOf gb
        let rp := recordsPerPage e.fmt (e.dim / max 1 g.d)
        if groupOk gb && tableEntryOk bs g.d && tableShapeOk e g.d && s.rootOk e g &&
           decide (ceilDiv e.rows (max 1 rp) ≤ e.mapPages) then
          if s.mustAsk g && answer.isNone then s.askEpoch t e g
          else (s.tableOn t e g (s.epochInfo t e g answer)).tableResult 1
        else s.tableResult 2

/-- TABLE_ENABLE (R301, R346). -/
def execTableEnable (table : Nat) (answer : Option EpochInfo) (s : State) : Host.Outcome State Fault Refusal :=
  ok (s.hostDo fun t => if t.tableFree 1 table then t.enableTable table answer else t)

/-- Begin a disable: new jobs that name the table are refused, and consignments that have not voted fail
(R303), or while the tide is stopped do so later (R367). -/
def State.disableTable (s : State) (t : Nat) : State :=
  if t > s.get CRN_TABLE_DIR_TABLES 0 then s.tableResult 3
  else if !(s.table t).enabled then s.tableResult 1
  else
    let s := (((s.putTable t { s.table t with disabling := true }).put CRN_TABLE_CTL_TABLE 0 t).put CRN_TABLE_CTL_OP 0 2).put
      CRN_TABLE_CTL_BUSY 0 1
    if !s.prepares then s
    else ((s.conss.filter fun c => c.touchesTable t && c.inPrepare).map (·.id)).foldl (fun u c => u.prepareFails c csTableBusy) s

/-- TABLE_DISABLE (R303). -/
def execTableDisable (table : Nat) (s : State) : Host.Outcome State Fault Refusal :=
  ok (s.hostDo fun t => if t.tableFree 2 table then t.disableTable table else t)

/-- An admitted job names a table. -/
def Job.names (j : Job) (t : Nat) : Bool := (j.sections.any fun x => x.table == t) || j.stamps.any fun x => x.1 == t

/-- A table is still used: by an admitted job, by a part at a crane, or by an open consignment (R303). -/
def State.tableUsed (s : State) (t : Nat) : Bool :=
  (s.jobs.any fun j => j.names t) || (s.cranes.any fun c => c.2.parts.any fun p => p.hdr.table == t) ||
  s.conss.any fun c => c.touchesTable t

/-- A table is disabled: its copies go, and `ENABLED` in its entry. -/
def State.tableOff (s : State) (t : Nat) : State :=
  let g := (s.table t).group
  let s := (s.putTable t {}).devWrite (s.get CRN_TABLE_DIR_BASE 0 + 64 * t + 48) [0]
  if s.tables.any fun e => e.2.enabled && e.2.group == g then s else s.putGroup g {}

/-- TABLE_DISABLE_DONE (R303): nothing uses the table any more. -/
def execTableDisableDone (table : Nat) (s : State) : Host.Outcome State Fault Refusal :=
  if (s.table table).disabling && !s.tableUsed table then ok ((s.tableOff table).tableResult 1) else ok s

/-- Answer a device that enables a table of a group this device masters (R346). -/
def State.answerEpoch (s : State) (t gen g e0 d : Nat) : State :=
  match s.groupRecord g with
  | none => s
  | some r =>
    let m := s.master t
    if r.master != s.me then s
    else
      let known := m.known && m.gen == gen
      s.sendVc0 d (.epochAnswer t (if known then m.epoch else e0) (if known then m.live else [⟨e0, none⟩]) r.state.code r.lostSlot r.slots)

/-- GROUP_MASTER_EPOCH_REQUEST (R346). -/
def execGroupMasterEpochRequest (table gen group epoch0 device : Nat) (s : State) : Host.Outcome State Fault Refusal :=
  if s.live then ok (s.answerEpoch table gen group epoch0 device) else ok s

end Sys2Proof.Machine
end

