-- ==== Sys2Proof/Machine/Warehouse.lean ====
section
/-! DEFINITION. The warehouse and the dry dock's tests (06): accesses with error correction and the three views, way stops with
block moves, march tests and in-field repair. -/

namespace Sys2Proof.Machine

/-! ### Accesses (R235 to R247, R256, R261) -/

/-- One access of a warehouse bank: at most 256 B within an aligned 256 B (R235). -/
def oneAccess (a n : Nat) : Bool := decide (1 ≤ n) && decide (a % 256 + n ≤ 256)

/-- Mark words of a range that upsets have struck: true uncorrectable. -/
def State.upset (s : State) (a n : Nat) (us : List (Nat × Bool)) : State :=
  (us.filter fun u => (wordsOf a n).contains u.1).foldl (fun t u => { t with ecc := Tab.insert u.1 u.2 t.ecc }) s

/-- Where a warehouse access of a requester leads, for the upsets on the word it reaches. -/
def State.upsetAt (s : State) (r : Req) (a n : Nat) (us : List (Nat × Bool)) : State :=
  match s.locate r false a with
  | .ok (.dev p _) => s.upset p n us
  | _ => s

/-- A warehouse or model-window address. -/
def inWarehouse (a : Nat) : Bool := decide (whsBase ≤ a) && decide (a < berthBase)

/-- The number of an admitted job, or none. -/
def State.jobNo (s : State) (j : Nat) : Option Nat := if s.admittedJob j then some j else none

/-- Number that the debug port answers as, after the two PCIe ports. -/
def debugPort : Nat := 2

/-- The debug port reaches memory: D2 or D3 is open (Table 14.10). -/
def State.debugMay (s : State) (debug : Bool) : Bool := !debug || s.debugDeep

/-- An access that the memory refuses: refused under R256, or through the debug port as R449 gives for an address it does not reach
(R258): a read completes with Completer Abort, a write is discarded, and both count. -/
def State.whsRefused (s : State) (debug wr : Bool) (a : Nat) : State :=
  if !debug then s.send (.accessRefused a)
  else
    let t := s.inc HST_APERTURE_BAD_APERTURE_BAD 0 1
    if wr then t else t.send (.completerAbort debugPort)

/-- What a read of the warehouse on behalf of a job answers: its bytes, a poisoned response, or a refusal. -/
def State.whsRead (s : State) (r : Req) (job : Option Nat) (a n : Nat) : State :=
  match s.read r a n with
  | .ok (bs, t) => t.send (.response a bs)
  | .error (.memory e) => (s.memError e job).sendAll (((runsOf e.good).map fun g => .response g.1 g.2) ++ e.bad.map fun w => .poisoned w)
  | .error _ => s.whsRefused r.debug false a

/-- Addresses of WAREHOUSE_READ: the warehouse and the model window, and for the debug port the berth views in the model window's
place (R237). -/
def readWindow (debug : Bool) (a : Nat) : Bool :=
  if debug then (inWarehouse a && decide (a < modelBase)) || (decide (berthBase ≤ a) && decide (a < berthBase + 3 * viewStep)) else inWarehouse a

/-- WAREHOUSE_READ (R241, R242, R246, R257, R261): for a job, or through the debug port; `upsets` names the words of the access, by
address ÷ 8, in which an upset is found. -/
def execWarehouseRead (addr len : Nat) (who : ReadBy) (upsets : List (Nat × Bool)) (s : State) : Host.Outcome State Fault Refusal :=
  let r : Req := if who.debug then { debug := true } else match s.job who.job with
    | some j => j.req
    | none => {}
  if s.live && s.debugMay who.debug && readWindow who.debug addr && oneAccess addr len then
    ok ((s.upsetAt r addr len upsets).whsRead r (if who.debug then none else s.jobNo who.job) addr len)
  else ok s

/-- What a write to the warehouse does: performed, refused, or not performed for an uncorrectable word (R247). -/
def State.whsWrite (s : State) (r : Req) (a : Nat) (bs : List Byte) : State :=
  match s.write r a bs with
  | .ok t => t
  | .error (.memory e) => (s.memError e none).sendAll (e.bad.map fun w => .poisoned w)
  | .error _ => s.whsRefused r.debug true a

/-- A write through a view is one access of that view's window of the warehouse, or for the debug port of the berths. -/
def viewAccess (debug : Bool) (v a n : Nat) : Bool :=
  ((decide (whsBase + viewStep * v ≤ a) && decide (a < whsBase + viewStep * v + whsBytes)) ||
   (debug && decide (berthBase + viewStep * v ≤ a) && decide (a < berthBase + viewStep * (v + 1)))) && oneAccess a n

/-- What a write asks as: a class, or the debug port, which no `CLASSES` bind (R257). -/
def writeReq (debug : Bool) (cls : Nat) : Req := if debug then { debug := true } else { cls := some cls }

/-- WAREHOUSE_WRITE (R240, R256, R257). -/
def execWarehouseWrite (addr : Nat) (who : WriteBy) (data : List Byte) (s : State) : Host.Outcome State Fault Refusal :=
  if s.live && s.debugMay who.debug && who.cls < 4 && viewAccess who.debug 0 addr data.length then ok (s.whsWrite (writeReq who.debug who.cls) addr data) else ok s

/-- BIT_SET_WRITE (R243 to R247). -/
def execBitSetWrite (addr : Nat) (who : WriteBy) (data : List Byte) (s : State) : Host.Outcome State Fault Refusal :=
  if s.live && s.debugMay who.debug && who.cls < 4 && viewAccess who.debug 1 addr data.length then ok (s.whsWrite (writeReq who.debug who.cls) addr data) else ok s

/-- BIT_CLEAR_WRITE (R243 to R247). -/
def execBitClearWrite (addr : Nat) (who : WriteBy) (data : List Byte) (s : State) : Host.Outcome State Fault Refusal :=
  if s.live && s.debugMay who.debug && who.cls < 4 && viewAccess who.debug 2 addr data.length then ok (s.whsWrite (writeReq who.debug who.cls) addr data) else ok s

/-! ### Stopping a way (R258, R267) -/

/-- A cache block lies in a way. -/
def blockInWay (d w n : Nat) : Bool := n / 3584 == d && n % 3584 / 224 == w

/-- A model with no dispatched job has a block in a way that is not kept there by a pin or a hold (Table 06.4). -/
def State.idleIn (s : State) (d w m : Nat) : Bool :=
  !s.modelRuns m && ((s.model m).blocks.any fun p => blockInWay d w p.2 && !((s.keptBlocks m).contains p.1))

/-- The blocks of a way that Table 06.4 evicts: the unpinned ones of models with no dispatched job. A model that loses one is STORED, and
is loaded again for an admitted job. DESIGN CHOICE (log 28). -/
def State.evictWay (s : State) (d w : Nat) : State :=
  ((s.models.map (·.1)).filter fun m => s.idleIn d w m).foldl
    (fun t m => t.loseBlocks m fun p => !blockInWay d w p.2 || (s.keptBlocks m).contains p.1) s

/-- Blocks that must still leave a way, each with the class it is placed for. -/
def State.leaving (s : State) (d w : Nat) : List (Nat × Nat) :=
  (s.models.flatMap fun e => ((e.2.blocks ++ e.2.oldBlocks).filter fun p => blockInWay d w p.2).map fun p => (p.2, e.2.cls)) ++
  (s.conss.flatMap fun c => c.swaps.filterMap fun x => match x.2.2.2 with
    | some n => if blockInWay d w n then some (n, (s.model x.1).cls) else none
    | none => none)

/-- Hot-row entries held in a way leave it (Table 06.4). -/
def State.emptyHotWay (s : State) (d w : Nat) : State :=
  { s with hot := s.hot.filter fun e => !(e.1 / 16 / 229376 == d && e.1 % 16 == w) }

/-- Set a way's stop bit (R258): idle models leave a model-cache way at once. -/
def State.wayStop (s : State) (d w : Nat) : State :=
  if s.wayStopping d w then s
  else
    let s := s.stopWay d w
    if s.wayUse d w == 1 then s.evictWay d w else s

/-- WAY_STOP (R258, R267). -/
def execWayStop (die way : Nat) (s : State) : Host.Outcome State Fault Refusal :=
  if die < 2 && way < 16 then ok (s.hostDo fun t => t.wayStop die way) else ok s

/-- A way's stop completes when nothing is left in it. -/
def State.wayStopDone (s : State) (d w : Nat) : State :=
  if s.wayUse d w == 2 then (s.emptyHotWay d w).putWayStopped d w true
  else
    let s := s.evictWay d w
    if (s.leaving d w).isEmpty then (s.putWayStopped d w true).putWayBlocked d w false else s

/-- WAY_STOPPED (R258). -/
def execWayStopped (die way : Nat) (s : State) : Host.Outcome State Fault Refusal :=
  if die < 2 && way < 16 && s.wayStopping die way && !s.wayStopped die way then ok (s.wayStopDone die way) else ok s

/-- A block number after the move of n to k. -/
def movedTo (n k x : Nat) : Nat := if x == n then k else x

/-- Switch every map entry from cache block n to k, in one step (R267). -/
def State.remap (s : State) (n k : Nat) : State :=
  { s with
    models := s.models.map fun e => (e.1, { e.2 with blocks := e.2.blocks.map fun p => (p.1, movedTo n k p.2),
                                                     oldBlocks := e.2.oldBlocks.map fun p => (p.1, movedTo n k p.2) })
    conss := s.conss.map fun c => { c with swaps := c.swaps.map fun x => (x.1, x.2.1, x.2.2.1, x.2.2.2.map (movedTo n k)) } }

/-- Move the first block that must leave a way to a free block of the same die, or wait with `BLOCKED` at 1 (R267). -/
def State.moveBlock (s : State) (d w : Nat) : State :=
  match s.leaving d w with
  | [] => s
  | (n, cls) :: _ =>
    match s.freeBlocks d cls s.usedBlocks with
    | [] => s.putWayBlocked d w true
    | k :: _ => ((s.copyMem (cacheAddr n) (cacheAddr k) 65536).remap n k).putWayBlocked d w false

/-- MODEL_BLOCK_MOVE (R267). -/
def execModelBlockMove (die way : Nat) (s : State) : Host.Outcome State Fault Refusal :=
  if die < 2 && way < 16 && s.wayStopping die way && !s.wayStopped die way && s.wayUse die way == 1 then
    ok ((s.evictWay die way).moveBlock die way)
  else ok s

/-- The way is being tested: it stays stopped (R276). -/
def State.wayTested (s : State) (d w : Nat) : Bool := s.dock.destruct.any fun e => e.1 == d && e.2.contains w

/-- A way whose stop bit is 0 returns to service (R260), filled with zeros where its entry changed, and empty of entries and of blocks
that can be evicted. -/
def State.wayReturns (s : State) (d w : Nat) : State :=
  let k := 16 * d + w
  let s := if s.dock.changedWays.contains k then s.zero (wayAddr d w 0) wayBytes else s
  let s := { s with dock := { s.dock with changedWays := s.dock.changedWays.erase k } }
  let s := if s.wayUse d w == 2 then s.emptyHotWay d w else if s.wayUse d w == 1 then s.evictWay d w else s
  (s.putWayStopped d w false).putWayBlocked d w false

/-- Clear a way's stop bit (R260), unless a fence holds it stopped (Table 13.3). A way under test returns when the test ends, and
pinned blocks or those of a running model stay where they are in a way whose stop was not complete. DESIGN CHOICE (log 119). -/
def State.wayRestart (s : State) (d w : Nat) : State :=
  if s.dock.heldWays.contains (16 * d + w) || !s.wayStopping d w then s
  else
    let t := s.putWayStop d w false
    if t.wayTested d w then t else t.wayReturns d w

/-- WAY_RESTART (R260). -/
def execWayRestart (die way : Nat) (s : State) : Host.Outcome State Fault Refusal :=
  if die < 2 && way < 16 then ok (s.hostDo fun t => t.wayRestart die way) else ok s

/-! ### Destructive tests (R275 to R277) -/

/-- Ways named in `DESTRUCT_WAYS` of an engine. -/
def State.destructWays (s : State) (e : Nat) : List Nat :=
  (List.range 16).filter fun w => bit (s.get DDK_MARCH_CTRL_DESTRUCT_WAYS e) w

/-- Start a destructive test, or refuse it (R276). -/
def State.destructStart (s : State) (e : Nat) : State :=
  if s.flag DDK_MARCH_STATUS_DESTRUCT_BUSY e || s.dock.stopped.contains e then s
  else if (s.destructWays e).all fun w => s.wayStopped e w then
    { s with dock := { s.dock with destruct := s.dock.destruct ++ [(e, s.destructWays e)] } }.put DDK_MARCH_STATUS_DESTRUCT_BUSY e 1
  else s.put DDK_MARCH_STATUS_DESTRUCT_REFUSED e 1

/-- DESTRUCT_START (R276). -/
def execDestructStart (engine : Nat) (s : State) : Host.Outcome State Fault Refusal :=
  if engine < 2 then ok (s.hostDo fun t => t.destructStart engine) else ok s

/-- DESTRUCTIVE_TEST_DONE (R277): the ways tested hold zeros with valid check bits. -/
def execDestructiveTestDone (engine : Nat) (fault : Bool) (s : State) : Host.Outcome State Fault Refusal :=
  match s.dock.destruct.find? fun e => e.1 == engine with
  | none => ok s
  | some (_, ws) =>
    let s := ws.foldl (fun t w => t.zero (wayAddr engine w 0) wayBytes) s
    let s := { s with dock := { s.dock with destruct := s.dock.destruct.filter fun e => e.1 != engine } }
    let s := s.put DDK_MARCH_STATUS_DESTRUCT_BUSY engine 0
    let s := (ws.filter fun w => !s.wayStopping engine w).foldl (fun t w => t.wayReturns engine w) s
    ok (if fault then s.put DDK_MARCH_STATUS_FAIL engine 1 else s)

/-! ### Preserving passes (R278 to R282) -/

/-- First addresses of the eight accesses of a bank row of the warehouse, or of 2 KiB of a berth, that holds an address. -/
def rowAccesses (a : Nat) : List Nat :=
  if a < berthBase then
    let o := a - whsBase
    let base := whsBase + o - o % dieBytes % wayBytes % 131072
    (List.range 8).map fun i => base + 16384 * i + 256 * (o % dieBytes % wayBytes / 256 % 64)
  else (List.range 8).map fun i => a - a % 2048 + 256 * i

/-- The first address of the row that holds an address. -/
def rowStart (a : Nat) : Nat := (rowAccesses a).headD a

/-- Words of a row. -/
def rowWords (a : Nat) : List Nat := (rowAccesses a).flatMap fun p => wordsOf p 256

/-- The engine tests the row: one of its own die (R275), in a way in service or in a berth that exists. -/
def State.testsRow (s : State) (e a : Nat) : Bool :=
  if a < berthBase then
    decide (whsBase ≤ a) && decide (a < whsBase + whsBytes) && (wayOf (a - whsBase)).1 == e && !s.wayStopped e (wayOf (a - whsBase)).2
  else decide ((a - berthBase) / 0x100000 < s.kilnCount) && s.kilnDie ((a - berthBase) / 0x100000) == e

/-- Rows that an engine has visited in this tide, and one more. -/
def State.rowsRun (s : State) (e : Nat) : Nat := if e == 0 then s.counts.rowsPort else s.counts.rowsStbd
def State.countRow (s : State) (e : Nat) : State :=
  { s with counts := if e == 0 then { s.counts with rowsPort := s.counts.rowsPort + 1 } else { s.counts with rowsStbd := s.counts.rowsStbd + 1 } }

/-- The engine visits the row that holds an address: it runs fewer than `ROWS_PER_TIDE` rows in the tide (R278), and at a bank with an
aborted row that row comes first (R279). A visit counts whether or not its pass is aborted. DESIGN CHOICE (log 120). -/
def State.visits (s : State) (e a : Nat) : Bool :=
  s.live && decide (e < 2) && !s.dock.stopped.contains e && s.flag HMR_TIDE_STATUS_RUNNING 0 &&
  decide (s.rowsRun e < s.get DDK_MARCH_CTRL_ROWS_PER_TIDE e) && s.testsRow e a &&
  (s.dock.retry.filter fun r => r.1 == e && s.memUnit r.2 == s.memUnit a).all fun r => r.2 == rowStart a

/-- An error record of a march: the bank or berth of a row, with row, way, macro and column in the detail (Table 13.3). -/
def State.marchError (s : State) (sev source a column : Nat) : State :=
  let (k, u) := s.memUnit a
  let o := a - whsBase
  let d := if k == 5 then [bankRowOf o % 256, bankRowOf o / 256, (wayOf o).2, macroAt a, column % 256, column / 256]
    else [macroAt a, column % 256, column / 256]
  s.detect (mkErr s sev k source u a none d)

/-- Saved words that cannot be read back are written as poisoned, with a record each (R281). -/
def State.loseWords (s : State) (a : Nat) (lost : List Nat) : State :=
  (lost.filter fun w => (rowWords a).contains w).foldl (fun t w => (t.poison (8 * w)).detect (t.mkWordErr 1 5 (8 * w) none)) s

/-- The repair entry in place of which a macro's column has a redundant one (R285). -/
def State.replaced (s : State) (a column : Nat) : Bool :=
  let (k, u) := s.memUnit a
  s.dock.inForce.any fun r => r.kind == k - 5 && r.unit == u && r.macroNo == macroAt a && r.column == column

/-- A preserving pass of one row (R278, R280 to R282): `fault` gives the column in which the march finds one, and `lost` the saved
words, by address ÷ 8, that cannot be read back. A column that an entry in force replaces takes no part. -/
def State.pass (s : State) (e a : Nat) (fault : Option Nat) (lost : List Nat) : State :=
  let s := { s with dock := { s.dock with retry := s.dock.retry.filter fun r => r != (e, rowStart a) } }
  match (rowAccesses a).findSome? fun p => s.firstBad p 256 with
  | some w => s.detect (s.mkWordErr 1 4 w none)
  | none =>
    let s := ((rowAccesses a).foldl (fun t p => t.correct p 256) s).inc DDK_MARCH_STATUS_PASSES e 1
    let s := match fault with
      | some c => if s.replaced a c then s else (s.put DDK_MARCH_STATUS_FAIL e 1).marchError 0 3 a c
      | none => s
    s.loseWords a lost

/-- PRESERVING_PASS (R278, R280 to R282): `failed` says whether the march finds a column that fails, and `column` which. -/
def execPreservingPass (engine addr : Nat) (failed : Bool) (column : Nat) (lost : List Nat) (s : State) : Host.Outcome State Fault Refusal :=
  if s.visits engine addr then ok ((s.countRow engine).pass engine addr (if failed then some column else none) lost) else ok s

/-- MARCH_PASS_ABORT (R279, R281): a requester touches the borrowed row; the saved words return, but for those lost, by address
÷ 8, which are written as poisoned. The row is tried again at the next visit to its bank. -/
def execMarchPassAbort (engine addr : Nat) (lost : List Nat) (s : State) : Host.Outcome State Fault Refusal :=
  if s.visits engine addr then
    let s := (s.countRow engine).inc DDK_MARCH_ABORTS_COUNT engine 1
    let r := (engine, rowStart addr)
    ok ({ s with dock := { s.dock with retry := r :: s.dock.retry.filter fun x => x != r } }.loseWords addr lost)
  else ok s

/-! ### In-field repair (R283 to R287) -/

/-- A macro and column that exist. -/
def Repair.valid (r : Repair) : Bool :=
  decide (r.column ≤ 1151) && (if r.kind == 0 then decide (r.unit < 128) && decide (r.macroNo < 8) else decide (r.unit < 168) && decide (r.macroNo < 4))

/-- Two entries name one macro. -/
def Repair.sameMacro (a b : Repair) : Bool := a.kind == b.kind && a.unit == b.unit && a.macroNo == b.macroNo

/-- End a repair request. -/
def State.repairResult (s : State) (r : Nat) : State := (s.put DDK_REPAIR_STATUS_RESULT 0 r).put DDK_REPAIR_STATUS_DONE 0 1

/-- Start a burn, or refuse it (R285, R287). A write while one runs, or with a reserved `KIND`, is discarded (R12). -/
def State.repairStart (s : State) (r : Repair) : State :=
  if s.flag DDK_REPAIR_BUSY 0 || decide (r.kind > 1) then s
  else
    let s := (((s.put DDK_REPAIR_KIND 0 r.kind).put DDK_REPAIR_UNIT 0 r.unit).put DDK_REPAIR_MACRO 0 r.macroNo).put DDK_REPAIR_COLUMN 0 r.column
    if !r.valid then s.repairResult 3
    else if s.dock.burned.any fun b => b.sameMacro r then s.repairResult 2
    else { s with dock := { s.dock with burn := some r } }.put DDK_REPAIR_BUSY 0 1

/-- REPAIR_BURN (R285 to R287). -/
def execRepairBurn (kind unit macroNo column : Nat) (s : State) : Host.Outcome State Fault Refusal :=
  ok (s.hostDo fun t => t.repairStart ⟨kind, unit % 256, macroNo % 16, column % 2048⟩)

end Sys2Proof.Machine
end

