-- ==== Sys2Proof/Machine/History.lean ====
section
/-! DEFINITION. The commands of histories (09): the sections' effects, chunk steps, ends of appends, returned frames, and the
history function's stop and start. -/

namespace Sys2Proof.Machine

/-! ### Sections (R382 to R384, R392, R393) -/

/-- Let the first pending history section take effect when it belongs to a job and has a given `OP`: sections take effect in
admission order. -/
def State.histStep (s : State) (job op : Nat) : State :=
  match s.pendingHists.head? with
  | none => s
  | some j =>
    if j.id == job && (match j.hist with | some u => u.op == op | none => false) then (s.beginHist j).endFailedHists else s

/-- HISTORY_READ (R382, R384). -/
def execHistoryRead (job : Nat) (s : State) : Host.Outcome State Fault Refusal := if s.live then ok (s.histStep job 0) else ok s

/-- HISTORY_APPEND (R383, R384). -/
def execHistoryAppend (job : Nat) (s : State) : Host.Outcome State Fault Refusal := if s.live then ok (s.histStep job 1) else ok s

/-- HISTORY_CREATE (R383, R384). -/
def execHistoryCreate (job : Nat) (s : State) : Host.Outcome State Fault Refusal := if s.live then ok (s.histStep job 2) else ok s

/-- HISTORY_TRIM (R392, R394). -/
def execHistoryTrim (job : Nat) (s : State) : Host.Outcome State Fault Refusal := if s.live then ok (s.histStep job 3) else ok s

/-- HISTORY_RELEASE (R393). -/
def execHistoryRelease (job : Nat) (s : State) : Host.Outcome State Fault Refusal := if s.live then ok (s.histStep job 4) else ok s

/-! ### Frames that return (R393, R394) -/

/-- The index pages of a history's chain; one that holds no frame has none. -/
def State.histPages (s : State) (e : HEntry) : List Nat :=
  if e.frames == 0 then []
  else (List.range ((e.first + e.frames - 1) / 8191 - e.first / 8191 + 1)).map fun i => s.indexPage i e.index

/-- Free a released history: its entry is FREE, and every frame and index page that it holds may return. -/
def State.histFree (s : State) (h : Nat) : State :=
  let e := s.hist h
  let d : Deferred := ⟨h, s.chunkFrames e e.first e.frames, s.histPages e, []⟩
  let s := s.putHist h { e with st := hFree, frames := 0, index := 0 }
  { s with deferred := s.deferred ++ [d] }

/-- HISTORY_FREE (R393): no job stamped on the released history remains. -/
def execHistoryFree (hist : Nat) (s : State) : Host.Outcome State Fault Refusal :=
  if s.live && decide (hist ≤ s.get HMR_HIST_SIZE_ENTRIES 0) && (s.hist hist).st == hReleasing && (s.histReaders hist).isEmpty then
    ok (s.histFree hist)
  else ok s

/-- No job that may read the frames remains. -/
def State.deferredFree (s : State) (d : Deferred) : Bool := d.readers.all fun j => !s.admittedJob j

/-- FRAME_RETURN (R394): frames and index pages of a history return to the pool once their last reader has completed. -/
def execFrameReturn (hist : Nat) (s : State) : Host.Outcome State Fault Refusal :=
  let due := s.deferred.filter fun d => d.hist == hist && s.deferredFree d
  if s.live then
    ok { s with freeFrames := s.freeFrames ++ due.flatMap (fun (d : Deferred) => d.frames), indexPages := s.indexPages ++ due.flatMap (fun (d : Deferred) => d.pages),
                deferred := s.deferred.filter fun (d : Deferred) => !(d.hist == hist && s.deferredFree d) }.gatherPages
  else ok s

/-! ### Chunk steps (R387 to R391) -/

/-- Where event i of a history lies: its chunk, and its position there (R374). -/
def eventChunk (i : Nat) : Nat := i / 512
def eventPos (i : Nat) : Nat := i % 512

/-- Frame offset of the cached keys and values of layer l for the event at position e, and of that event's output (R375). -/
def HistGeometry.kvOffset (g : HistGeometry) (l e : Nat) : Nat := (l * 512 + e) * g.kvBytes
def HistGeometry.outOffset (g : HistGeometry) (e : Nat) : Nat := g.layers * 512 * g.kvBytes + e * g.outBytes

/-- The open append of a job, with `AFTER` once the scoring has ended (R390). -/
def Job.appends (j : Job) : Option HistUse :=
  match j.openAppend with
  | some u => if u.after && !j.scored then none else some u
  | none => none

/-- The open append of a job whose chunk steps may run: with `AFTER`, in the tides after the scoring (R390). -/
def State.stepsRun (s : State) (j : Job) : Option HistUse :=
  match j.appends with
  | some u => if u.since ≤ s.tide then some u else none
  | none => none

/-- The history geometry of a model, none where its image has no encoder or cannot be read. -/
def State.geometry (s : State) (m : Nat) : Option HistGeometry :=
  let x := s.model m
  if x.histOff == 0 then none else (s.imageRead x.image x.histOff 16).map histGeometryOf

/-- Put the history use of a job. -/
def State.putUse (s : State) (j : Job) (u : HistUse) : State := s.putJob { j with hist := some u }

/-- The first new event of an append in a chunk, and how many lie there (R387). -/
def HistUse.newIn (u : HistUse) (c : Nat) : Nat × Nat :=
  let lo := max u.l0 (512 * c)
  (lo, min (u.l0 + u.n) (512 * c + 512) - lo)

/-- The request of chunk steps: kernels of class C1 (R387). -/
def stepReq : Req := { cls := some 1 }

/-- What a step reads beside what earlier steps of its append wrote: for layer 0 the input rows of its new events, and the cached keys
and values of its layer for the events of the chunk below the stamp, from position 0 (R385, R387). Each range says whether it lies in the
history. -/
def HistUse.stepReads (u : HistUse) (g : HistGeometry) (frame c l : Nat) : List (Bool × Nat × Nat) :=
  let (lo, k) := u.newIn c
  (if l == 0 then [(false, u.eventAddr + (lo - u.l0) * g.inBytes, k * g.inBytes)] else []) ++
  (if 512 * c < lo then [(true, frame + g.kvOffset l 0, eventPos lo * g.kvBytes)] else [])

/-- Carry out the reads of a step: the state after them, or the first that fails. -/
def State.readAll (s : State) : List (Bool × Nat × Nat) → Except (Bool × AccErr) State
  | [] => .ok s
  | r :: rest =>
    match s.read stepReq r.2.1 r.2.2 with
    | .ok (_, s) => State.readAll s rest
    | .error e => .error (r.1, e)

/-- A step's read or write fails: an uncorrectable word of the history, or of its lost set, leaves it DAMAGED and its job ends with
HISTORY_ERROR (R397); any other access ends the job with its own STATUS. DESIGN CHOICE (log 126). -/
def State.stepFails (s : State) (j : Job) (h : Nat) (mine : Bool) (e : AccErr) : State :=
  if e == .held then s
  else
  let t := match e with
    | .memory x => s.memError x (some j.id)
    | _ => s
  if mine && (match e with | .memory _ => true | .lost => true | _ => false) then
    (t.histDamage h).endJobOf j.id stHistoryError
  else t.endJobOf j.id e.status

/-- The tide's hearth share of C1 is not used up (R391). -/
def State.stepRoom (s : State) : Bool :=
  let (n, d) := s.share 1 .hearth
  decide (s.counts.hearthC1 < n * s.budget .hearth / d - s.deducted 1 .hearth)

/-- Dispatch the next layer's step of a chunk as one kiln task (R387, R388): it takes the program of a unit of KIND chunk step of the
model's image, and reads its inputs. It waits while the model is not whole, while its unit is no chunk step, and while the tide's C1
hearth share is used up (R264, R391). -/
def State.dispatchStep (s : State) (j : Job) (u : HistUse) (chunk unit : Nat) : State :=
  let x := s.model j.model
  let e := s.hist u.hist
  match u.steps.find? (fun y => y.1 == chunk && !y.2.2), s.geometry j.model, s.imageRead x.image (x.unitOff + 32 * unit) 32 with
  | some (_, l, _), some g, some bs =>
    let run := { unitOf (stepUnit chunk l) bs with after := 0xFFFF, afterLookup := false, dispatched := true, tasks := [.waiting] }
    if run.kind == 2 && decide (unit < x.units) && s.modelWhole j.model && s.stepRoom then
      let bad := s.badIndexWords (s.indexWalk e chunk)
      if !bad.isEmpty then s.stepFails j u.hist true (.memory { bad := bad })
      else match s.readAll (u.stepReads g (s.chunkAddr e chunk) chunk l) with
        | .error p => s.stepFails j u.hist p.1 p.2
        | .ok s =>
          let j := { j with units := j.units ++ [run], hist := some { u with steps := u.steps.map fun y => if y.1 == chunk then (y.1, y.2.1, true) else y } }
          ((s.putJob j).chargeC1 1 run.hearthCost).placeUnit j run
    else s
  | _, _, _ => s

/-- CHUNK_STEP (R387, R388, R391). -/
def execChunkStep (job : Nat) (step : StepOf) (s : State) : Host.Outcome State Fault Refusal :=
  match s.job job with
  | none => ok s
  | some j =>
    match s.stepsRun j with
    | some u => if s.live then ok (s.dispatchStep j u step.chunk step.unit) else ok s
    | none => ok s

/-- The events of an ended append become visible at the next boundary (R386). -/
def State.appendEnds (s : State) (j : Job) (u : HistUse) : State :=
  { s.putJob { j with hist := some { u with steps := [], opened := false } }.settle with appended := s.appended ++ [⟨u.hist, u.l0 + u.n⟩] }

/-- The next layer of a chunk may follow its step, and after the last step of the last chunk the append ends (R388, R389). -/
def State.stepOver (s : State) (j : Job) (u : HistUse) (layers chunk l : Nat) : State :=
  let j := { j with units := j.units.filter fun v => v.no != stepUnit chunk l }
  let steps := u.steps.filterMap fun x => if x.1 == chunk then (if l + 1 < layers then some (chunk, l + 1, false) else none) else some x
  if steps.isEmpty then s.appendEnds j u else s.putUse j { u with steps := steps }

/-- What a step writes, with the bytes that its program gave: the keys and values of its layer for its new events, and with the last
layer their outputs (R375, R389). None where the bytes are not as many as those. -/
def HistUse.stepWrites (u : HistUse) (g : HistGeometry) (frame c l : Nat) (kv out : List Byte) : Option (List (Nat × List Byte)) :=
  let (lo, k) := u.newIn c
  if kv.length == k * g.kvBytes && out.length == (if l + 1 < g.layers then 0 else k * g.outBytes) then
    some ((frame + g.kvOffset l (eventPos lo), kv) :: (if l + 1 < g.layers then [] else [(frame + g.outOffset (eventPos lo), out)]))
  else none

/-- Carry out the writes of a step. -/
def State.writeAll (s : State) : List (Nat × List Byte) → Except AccErr State
  | [] => .ok s
  | w :: rest =>
    match s.write stepReq w.1 w.2 with
    | .ok s => State.writeAll s rest
    | .error e => .error e

/-- A dispatched step of a chunk has completed, its task at the end of its program: its results are written to the chunk's frame. -/
def State.stepDone (s : State) (j : Job) (u : HistUse) (chunk : Nat) (kv out : List Byte) : State :=
  match u.steps.find? (fun y => y.1 == chunk && y.2.2), s.geometry j.model with
  | some (_, l, _), some g =>
    if j.units.any fun v => v.no == stepUnit chunk l && v.finished then
      match u.stepWrites g (s.chunkAddr (s.hist u.hist) chunk) chunk l kv out with
      | none => s
      | some ws =>
        match s.writeAll ws with
        | .ok s => s.stepOver j u g.layers chunk l
        | .error e => s.stepFails j u.hist true e
    else s
  | _, _ => s

/-- CHUNK_STEP_COMPLETE (R388, R389, R386). -/
def execChunkStepComplete (job : Nat) (result : StepResult) (s : State) : Host.Outcome State Fault Refusal :=
  match s.job job with
  | none => ok s
  | some j =>
    match s.stepsRun j with
    | some u => if s.live then ok (s.stepDone j u result.chunk result.kv result.out) else ok s
    | none => ok s

/-- HISTORY_APPEND_FAIL (R391, R395): the last step cannot complete before the deadline. -/
def execHistoryAppendFail (job : Nat) (s : State) : Host.Outcome State Fault Refusal :=
  match s.job job with
  | none => ok s
  | some j => if s.live && j.appends.isSome then ok (s.endJob j stHistoryLate 0 none) else ok s

/-! ### Visibility at a boundary (R386, R390) -/

/-- The job whose append of a history has ended after its scoring. -/
def State.afterJob (s : State) (h : Nat) : Option Job :=
  s.jobs.find? fun j => j.scored && j.owesHistory && match j.hist with | some u => u.hist == h && u.begun && !u.opened | none => false

/-- Events of an ended append become visible: `EVENTS` advances and the entry is LIVE; a job that waited for it alone writes its
HISTORY record. -/
def State.showEvents (s : State) (a : Appended) : State :=
  let e := s.hist a.hist
  let s := if e.st == hAppending then s.putHist a.hist { e with events := a.events, st := hLive } else s
  match s.afterJob a.hist with
  | some j => (s.historyRecord j stOk).dropJob j (j.slots - 1)
  | none => s

/-- Step 3 for appends that have ended. -/
def State.showAppends (s : State) : State := s.appended.foldl (fun t a => t.showEvents a) { s with appended := [] }

/-! ### The history function (R398, R399) -/

/-- HISTORY_STOP (R398). -/
def execHistoryStop (s : State) : Host.Outcome State Fault Refusal := ok (s.hostDo fun t => t.put HMR_HIST_CTL_STOP 0 1)

/-- No admitted job has a history section, and no append waits to become visible. -/
def State.histQuiet (s : State) : Bool := (s.jobs.all fun j => j.hist.isNone) && s.appended.isEmpty

/-- HISTORY_STOPPED (R398). -/
def execHistoryStopped (s : State) : Host.Outcome State Fault Refusal :=
  if s.flag HMR_HIST_CTL_STOP 0 && s.histQuiet then ok (s.put HMR_HIST_CTL_STOPPED 0 1) else ok s

/-- Start the stopped function: every entry is FREE, and the pool is formed (R399). A `STOP` taken back before `STOPPED` reads 1
leaves every history (DESIGN CHOICE, log 29), and where the pool lies is not tested (log 140). -/
def State.histStart (s : State) : State :=
  if s.flag HMR_HIST_CTL_STOPPED 0 then
    let s := s.zero (s.get HMR_HIST_DIR_BASE 0) (32 * (s.get HMR_HIST_SIZE_ENTRIES 0 + 1))
    { (s.put HMR_HIST_CTL_STOP 0 0).put HMR_HIST_CTL_STOPPED 0 0 with
      freeFrames := List.range (s.get HMR_HIST_SIZE_FRAMES 0), indexPages := [], deferred := [], appended := [] }
  else s.put HMR_HIST_CTL_STOP 0 0

/-- HISTORY_START (R399). -/
def execHistoryStart (s : State) : Host.Outcome State Fault Refusal := ok (s.hostDo fun t => t.histStart)

end Sys2Proof.Machine
end

