-- ==== Sys2Proof/Machine/Admission.lean ====
section
/-! DEFINITION. Admission (10): budgets and shares, the fit test, the tests of Table 10.6 in order, and what an admitted or refused
descriptor becomes. -/

namespace Sys2Proof.Machine

/-! ### Costs against budgets (R412) -/

/-- What of a cost falls on a resource. -/
def Cost.on (x : Cost) : Res → Nat
  | .kiln => x.kiln
  | .hearth => x.hearth
  | .crane => x.crane
  | .hbm n => ((x.hbm.filter fun p => p.1 == n).map (·.2)).sum
  | .quayOut => x.quayOut
  | .quayIn => x.quayIn

/-- Resources that a cost uses, in code order. -/
def Cost.uses (x : Cost) : List Res :=
  ([Res.kiln, Res.hearth, Res.crane] ++ ((x.hbm.map (·.1)).dedup).map Res.hbm ++ [Res.quayOut, Res.quayIn]).filter fun r => decide (x.on r > 0)

/-- First tide open to a job's work on a resource (R412): the lookups' crane and quay work begins at once, dense work that waits
for lookups a tide later. DESIGN CHOICE (log 133). -/
def firstTide (lookups : Bool) (t0 : Nat) (r : Res) : Nat :=
  match r with
  | .crane => t0
  | .quayOut => t0
  | .quayIn => t0
  | _ => if lookups then t0 + 1 else t0

/-- The demand-bound test of R412 for one resource. `dls` are the deadlines tested. -/
def State.fitsOn (s : State) (cost : Cost) (dl c : Nat) (lookups : Bool) (r : Res) : Bool :=
  let same := s.jobs.filter fun k => k.cls == c
  let (n, d) := s.share c r
  (dl :: (same.filter fun k => decide (k.deadline ≥ dl)).map (·.deadline)).all fun t =>
    let demand := cost.on r + ((same.filter fun k => decide (k.deadline ≤ t)).map fun k => k.left.on r).sum
    decide (demand ≤ n * s.budget r * (t - firstTide lookups s.tide r) / d - s.deducted c r)

/-- The first resource that a new job does not fit (R412). -/
def State.unfit (s : State) (cost : Cost) (dl c : Nat) (lookups : Bool) : Option Res :=
  cost.uses.find? fun r => !s.fitsOn cost dl c lookups r

/-! ### Costs (R412, Table 10.8) -/

/-- Sums of two costs. -/
def Cost.plus (a b : Cost) : Cost :=
  ⟨a.kiln + b.kiln, a.hearth + b.hearth, a.crane + b.crane, a.hbm ++ b.hbm, a.quayIn + b.quayIn, a.quayOut + b.quayOut⟩

/-- Lookup costs of a job (Table 10.8). -/
def State.lookupCost (s : State) (xs : List Section) (indices : Nat) : Cost :=
  let d := (xs.map fun x => (s.group (s.table x.table).group).d).foldl max 0
  { crane := ceilDiv indices 4, quayOut := 12 * indices * d,
    quayIn := (xs.map fun x => x.bags * (s.table x.table).dim * outBytes x.outFmt).sum }

/-- Costs of a variant; its HBM bytes fall on the model store's set (Table 10.4). -/
def State.variantCost (s : State) (m : Nat) (v : Variant) : Cost :=
  { kiln := v.kiln, hearth := v.hearth, crane := v.crane, quayIn := v.quay, quayOut := v.quay,
    hbm := match s.setOf (s.model m).image with | some n => [(n, v.hbm)] | none => [] }

/-- Chunk-step costs of an append, from the history geometry. -/
def State.chunkCost (s : State) (m : Nat) (u : HistUse) : Cost :=
  let x := s.model m
  if u.op == 1 || u.op == 2 then
    match s.imageRead x.image x.histOff 16 with
    | some bs => { kiln := (histGeometryOf bs).kiln * u.n, hearth := (histGeometryOf bs).hearth * u.n }
    | none => {}
  else {}

/-- HBM bytes at an address, none outside HBM. -/
def State.hbmAt (s : State) (a n : Nat) : List (Nat × Nat) := match s.setOf a with | some k => [(k, n)] | none => []

/-- Prepare work of an action (R349, R352): copies read and write each page once, a delta reads two pages and writes one, at
256 B of output a crane cycle. -/
def State.actionCost (s : State) (a : Action) : Cost :=
  match a with
  | .pageWrite b _ l d c =>
    if c == d then {} else { hbm := (pagesOf b l d c).flatMap fun p => s.hbmAt p.2.2 65536 ++ s.hbmAt p.2.1 65536 }
  | .parityDelta b _ l d c =>
    { crane := 256 * (if b then 32 else 1), hbm := (pagesOf b l d c).flatMap fun p => s.hbmAt p.2.2 65536 ++ s.hbmAt p.2.1 131072 }
  | .rescaleSwap m o n c =>
    let k := (o + 16 * n - 1) / 65536 - o / 65536 + 1
    { hbm := s.hbmAt (s.model m).image (131072 * k) ++ s.hbmAt c (16 * n) }
  | .pin m _ n => { hbm := s.hbmAt (s.model m).image (65536 * n) }
  | _ => {}

/-- Prepare work of a block. -/
def State.consCost (s : State) (acts : List Action) : Cost := (acts.map fun a => s.actionCost a).foldl Cost.plus {}

/-! ### Parts of the tests -/

/-- Why a descriptor is refused: REASON of Table 10.6, STATUS for a failed read (R647), RESOURCE of Table 10.7. -/
structure Refused where
  reason : Nat
  status : Nat := 0
  resource : Nat := 0
  deriving DecidableEq, Repr

/-- The outcome of a test. -/
abbrev Test := Except Refused

/-- Go on when a condition holds, else refuse. -/
def need (b : Bool) (reason : Nat) : Test Unit := if b then .ok () else .error { reason := reason }

/-- Read a structure for a test (R647); reason 0 stands for a read that a port holds back (R446). -/
def State.testRead (s : State) (a n : Nat) : Test (List Byte) :=
  match s.read {} a n with
  | .ok (bs, _) => .ok bs
  | .error .held => .error { reason := 0 }
  | .error e => .error { reason := 0x0D, status := e.status }

/-- The sections of a lookup block, with the rule on `OUT_PITCH` where the table is enabled (R306). -/
def State.testSections (s : State) (a n : Nat) : Test (List Section) := do
  let bs ← s.testRead a (64 * n)
  let raw := (List.range n).map fun i => (bs.drop (64 * i)).take 64
  need (raw.all fun b => sectionOk b) 0x01
  let xs := raw.map sectionOf
  need (xs.all fun x => !(s.table x.table).enabled || decide (x.outPitch ≥ (s.table x.table).dim * outBytes x.outFmt)) 0x01
  pure xs

/-- The history section of a descriptor, none for address 0. -/
def State.testHistSection (s : State) (a : Nat) : Test (Option HistUse) :=
  if a == 0 then .ok none
  else do
    let bs ← s.testRead a 64
    need (histSectionOk bs) 0x01
    pure (some (histSectionOf bs))

/-- Bytes of an image's tables, which the harbourmaster took when the model was added (R406, R430). DEDUCED (log 54). -/
def State.imageBytes (s : State) (image off n : Nat) : List Byte := s.bytes (image + off) n

/-- Entry of a variant. -/
def State.variantEntry (s : State) (m lane v : Nat) : Variant :=
  let x := s.model m
  variantOf (s.imageBytes x.image (x.variantOff + 64 * (lane * x.variants + v)) 64)

/-- Variants of a lane that serve a number of candidates, as (ROWS, number). -/
def State.variantsFor (s : State) (m lane candidates : Nat) : List (Nat × Nat) :=
  ((List.range (s.model m).variants).filter fun v => decide ((s.variantEntry m lane v).rows ≥ candidates)).map
    fun v => ((s.variantEntry m lane v).rows, v)

/-- The variant of smallest `ROWS` that serves a job (R407). -/
def State.chooseVariant (s : State) (m lane candidates : Nat) : Option Nat :=
  (pickBy (fun a b => decide (a.1 < b.1)) (s.variantsFor m lane candidates)).map (·.2)

/-- The units of a variant, no task placed. -/
def State.variantUnits (s : State) (m : Nat) (v : Variant) : List UnitRun :=
  let x := s.model m
  (List.range v.unitCount).map fun i =>
    unitOf (v.firstUnit + i) (s.imageBytes x.image (x.unitOff + 32 * (v.firstUnit + i)) 32)

/-- Every LAYER with `ACC_OUT` pin in a program has a `K` equal to the prefix (R468); a program that cannot be read refuses the
descriptor (R647). `fuel` bounds the program's commands. -/
def State.prefixIn (s : State) (image k : Nat) : Nat → Nat → Test Bool
  | 0, _ => .ok true
  | fuel + 1, off => do
    let bs ← s.testRead (image + off) 32
    let o := byteAt bs 0
    if o == opEnd || !opKnown o then pure true
    else if o == opLayer then do
      let w ← s.testRead (image + off) 64
      match layerOf (leNat w) with
      | some l => if l.accOut != 2 || l.K == k then State.prefixIn s image k fuel (off + 64) else pure false
      | none => State.prefixIn s image k fuel (off + 64)
    else State.prefixIn s image k fuel (off + 32)

/-- R468 for a variant. -/
def State.prefixFits (s : State) (m : Nat) (us : List UnitRun) (k : Nat) : Test Bool :=
  let x := s.model m
  if k == 0 then .ok true
  else (us.flatMap fun u => (List.range u.tasks.length).map fun i => u.program + i * u.stride).foldlM
    (fun fits off => do
      let here ← s.prefixIn x.image k (x.bytes / 32) off
      pure (fits && here)) true

/-- An admitted job holds a lane of a model (R407). -/
def State.laneHeld (s : State) (m lane : Nat) : Bool := s.jobs.any fun j => j.kind == .run && j.model == m && j.lane == lane

/-- An HBM address lies in a stopped set. -/
def State.inStopped (s : State) (a : Nat) : Bool :=
  match s.setOf a with
  | some n => s.setStopped n
  | none => false

/-- A table of which this device holds a slot lies in a stopped set: its page map, or a page that the map names. A map that cannot be
read ends the test (R647). -/
def State.tableStopped (s : State) (t : Nat) : Test Bool :=
  let x := s.table t
  if (s.mySlot x.group).isNone || !((List.range 32).any fun n => s.setStopped n && s.get HBM_CHSET_COUNT n != 0) then .ok false
  else (List.range x.mapPages).foldlM (fun (stopped : Bool) p =>
    if stopped || s.inStopped (x.rootCur + 16 * p) then .ok true
    else do
      let bs ← s.testRead (x.rootCur + 16 * p) 16
      let m := mapEntryOf (leNat bs)
      pure ((m.valid && s.inStopped m.cur) || (m.prevValid && m.prevMapped && s.inStopped m.prev))) false

/-- One of some tables lies in a stopped set. -/
def State.anyStopped (s : State) (ts : List Nat) : Test Bool :=
  ts.foldlM (fun (stopped : Bool) t => if stopped then .ok true else s.tableStopped t) false

/-- The model's store lies in a stopped set; a lost set leaves a resident model serving (Table 13.6). -/
def State.modelStopped (s : State) (m : Nat) : Bool :=
  let x := s.model m
  match s.setOf x.image with
  | some n => s.setStopped n && !(s.setLost n && x.st == .resident)
  | none => false

/-- Tides that the load of a model needs at the class's share of its store's set, at least 1; 0 for a resident model (R411). -/
def State.loadTides (s : State) (m c : Nat) : Nat :=
  let x := s.model m
  if x.st == .resident then 0
  else match s.setOf x.image with
    | none => 1
    | some n =>
      let (a, d) := s.share c (.hbm n)
      let per := a * s.budget (.hbm n) / d
      if per == 0 then 4097 else max 1 (ceilDiv (65536 * (if x.st == .loading then x.toLoad.length else x.missing.length)) per)

/-- The lookup allowance is short (R415). -/
def State.allowShort (s : State) (c n : Nat) : Bool :=
  s.get HMR_LOOKUP_CFG_LOOKUP_MAX 0 != 0 && decide (c < 2) && decide (s.counts.allowUsed + n > s.get HMR_LOOKUP_STATUS_ALLOW 0)

/-! ### The tests of a RUN (Table 10.6) -/

/-- What a RUN is once its descriptor and sections are read and its variant is known. -/
structure RunPlan where
  sections : List Section
  hist : Option HistUse
  notAppended : Bool
  variant : Option Nat
  units : List UnitRun
  denseTides : Nat
  cost : Cost

/-- The history test (R381), on the state in which every section admitted before has taken effect. -/
def State.testHist (s : State) (m : Nat) (h : Option HistUse) : Test (Option HistUse × Bool) :=
  match h with
  | none => .ok (none, false)
  | some u =>
    match s.withHists.histTest u m with
    | .error r => .error { reason := r }
    | .ok true => .ok (some { u with op := 0, n := 0, after := false }, true)
    | .ok false => .ok (some u, false)

/-- The tests of a RUN, in order. -/
def State.testRun (s : State) (ring : Nat) (bs : List Byte) : Test RunPlan := do
  let d := describe bs
  let c := s.get HMR_RING_SCHED_CLASS ring
  let x := s.model d.model
  need (descriptorOk bs) 0x01
  let secs ← s.testSections d.lookup d.sections
  let h ← s.testHistSection d.hist
  need (x.st != .absent && x.st != .removing) 0x02
  need (!s.flag HMR_MODE_SINGLE 0 || s.get HMR_MODE_SINGLE_MODEL 0 == d.model) 0x03
  need (decide (d.lane < x.lanes) && !s.laneHeld d.model d.lane) 0x04
  let v := if d.candidates == 0 then none else s.chooseVariant d.model d.lane d.candidates
  need (d.candidates == 0 || v.isSome) 0x01
  let e := match v with | some n => s.variantEntry d.model d.lane n | none => variantOf []
  let us := if v.isSome then s.variantUnits d.model e else []
  let fits ← s.prefixFits d.model us d.pathLen
  need fits 0x01
  need (secs.all fun y => (s.table y.table).enabled && !(s.table y.table).disabling) 0x05
  let stopped ← s.anyStopped (secs.map (·.table)).dedup
  need (!stopped && !s.modelStopped d.model &&
    !(h.isSome && s.inStopped (s.get HMR_HIST_POOL_BASE 0))) 0x06
  let (h, na) ← s.testHist d.model h
  need (decide (d.deadline ≤ 4096) && (secs.isEmpty || decide (d.deadline ≤ s.get HMR_EPOCH_CFG_GRACE_TIDES 0))) 0x08
  let dense := if v.isSome then e.denseTides else 0
  need (decide (b2n (!secs.isEmpty) + dense + s.loadTides d.model c ≤ d.deadline)) 0x09
  need (s.get HMR_RING_STATE_DEBT_NS ring == 0) 0x0A
  need (s.modelReady d.model || (s.roomFor d.model c).isSome) 0x0B
  let cost := ((if v.isSome then s.variantCost d.model e else {}).plus (s.lookupCost secs d.indices)).plus
    (match h with | some u => s.chunkCost d.model u | none => {})
  match s.unfit cost (s.tide + d.deadline) c (!secs.isEmpty) with
  | some r => .error { reason := 0x0C, resource := r.code }
  | none =>
    if s.allowShort c d.indices then .error { reason := 0x0C, resource := 6 }
    else pure ⟨secs, h, na, v, us, dense, cost⟩

/-! ### Outcomes -/

/-- Write a REFUSED record, releasing the second slot (R409, R470). -/
def State.refuse (s : State) (n jobRef : Nat) (noIrq : Bool) (r : Refused) : State :=
  let s := s.postRecord n (recordBytes 0x02 r.status r.reason r.resource jobRef 0 s.stampTide 0 0) noIrq
  ((s.releaseSlots n 1).inc HMR_REFUSALS_COUNT 0 1).trace 2 n jobRef 0

/-- A newly admitted job with the fields common to every kind. -/
def State.newJob (s : State) (ring sq : Nat) (d : Described) : Job :=
  { id := s.nextJob, ring := ring, sq := sq, jobRef := d.jobRef, kind := .run, noIrq := d.noIrq,
    cls := s.get HMR_RING_SCHED_CLASS ring, model := d.model, version := (s.model d.model).version, lane := d.lane, variant := none,
    locality := d.locality, candidates := d.candidates, indices := d.indices, admitTide := s.tide, deadline := s.tide + d.deadline,
    rank := (s.tide + d.deadline) % 16384 * 4 + s.get HMR_RING_SCHED_CLASS ring, stamps := [], sections := [], lookupsDone := true,
    hist := none, units := [], left := {}, clip := 0, total := 0, badIndex := false, notAppended := false, retried := false,
    kilnRestarted := none, scored := false, cons := none, slots := 1, denseTides := 0, unitsDone := true }

/-- Put a job on the list of admitted jobs. -/
def State.takeJob (s : State) (j : Job) : State :=
  { s with jobs := s.jobs ++ [j], nextJob := s.nextJob + 1, admitted := s.admitted + 1 }.traceJob 1 (some j) 0

/-- Admit a RUN (R338, R340, R382, R410, R431, R464): it is stamped, its sections are placed in the round of this tide, and the
load of its model starts when it is not resident. -/
def State.admitRun (s : State) (ring sq : Nat) (d : Described) (p : RunPlan) : State :=
  let j := s.newJob ring sq d
  let two := match p.hist with | some u => u.after && (u.op == 1 || u.op == 2) | none => false
  let j : Job := { j with
    variant := p.variant, sections := p.sections.map (fun (x : Section) => { x with round := s.tide }), lookupsDone := p.sections.isEmpty,
    stamps := ((p.sections.map (fun (x : Section) => x.table)).dedup).map fun t => (t, (s.table t).epoch), hist := p.hist, notAppended := p.notAppended,
    units := p.units, left := p.cost, denseTides := p.denseTides, slots := if two then 2 else 1 }
  let j := j.settle
  let s := if two then s else s.releaseSlots ring 1
  let s := if p.notAppended then s.inc HMR_HIST_FULL_COUNT 0 1 else s
  let s := if s.modelReady d.model then s else s.startLoad d.model j.cls
  let s := s.setModel d.model { s.model d.model with lastAdmit := s.tide }
  { s.takeJob j with counts := { s.counts with allowUsed := s.counts.allowUsed + (if j.cls < 2 then d.indices else 0) } }

/-- The tests of a CONSIGN (Table 10.6, R347, R348, R470): 1, 7, 8, 12 and 14. -/
def State.testConsign (s : State) (ring : Nat) (bs : List Byte) : Test (ConsHeader × List Action × Cost) := do
  let d := describe bs
  need (descriptorOk bs) 0x01
  match s.consBlock d.cons with
  | .error .held => .error { reason := 0 }
  | .error e => .error { reason := 0x0D, status := e.status }
  | .ok none => .error { reason := 0x01 }
  | .ok (some (h, acts)) =>
    let stopped ← s.anyStopped ((acts.filterMap (·.table?)).dedup.filter fun t => (s.table t).enabled)
    need (!stopped && !(acts.any fun a => match a.model? with | some m => s.modelStopped m | none => false)) 0x06
    need (!s.consBusy h acts) 0x07
    need (s.get HMR_RING_STATE_DEBT_NS ring == 0) 0x0A
    let cost := s.consCost acts
    match s.unfit cost (s.tide + h.prepTides) 2 false with
    | some r => .error { reason := 0x0C, resource := r.code }
    | none => pure (h, acts, cost)

/-- Admit a CONSIGN: it runs as C2 and keeps both slots (R401, R464). -/
def State.admitConsign (s : State) (ring sq : Nat) (d : Described) (h : ConsHeader) (acts : List Action) (cost : Cost) : State :=
  let j := { s.newJob ring sq d with kind := .consign, cls := 2, cons := some h.id, left := cost, slots := 2, deadline := s.tide + h.prepTides }
  { s.takeJob j with conss := s.conss ++ [newCons h acts j.id s.tide] }

/-- Test one fetched descriptor and admit or refuse it (R409, R469). A descriptor of a reserved `KIND` is malformed. One whose structures
cannot be read yet waits for the next boundary (R446). -/
def State.admitDesc (s : State) (f : Fetched) : State :=
  let wait := { s with fetched := s.fetched.map fun (g : Fetched) => if g.ring == f.ring && g.desc.sq == f.desc.sq then { g with due := false } else g }
  let s := { s with fetched := s.fetched.filter fun g => !(g.ring == f.ring && g.desc.sq == f.desc.sq),
                    counts := { s.counts with tested := s.counts.tested + 1 } }
  let d := describe f.desc.bytes
  if d.kind == 1 then
    match s.testRun f.ring f.desc.bytes with
    | .ok p => s.admitRun f.ring f.desc.sq d p
    | .error r => if r.reason == 0 then wait else (if r.reason == 0x14 then s.inc HMR_HIST_FULL_COUNT 0 1 else s).refuse f.ring d.jobRef d.noIrq r
  else if d.kind == 2 then
    match s.testConsign f.ring f.desc.bytes with
    | .ok (h, acts, cost) => s.admitConsign f.ring f.desc.sq d h acts cost
    | .error r => if r.reason == 0 then wait else s.refuse f.ring d.jobRef d.noIrq r
  else if d.kind == 3 && descriptorOk f.desc.bytes then
    (s.postRecord f.ring (recordBytes 0x06 0 0 0 d.jobRef 0 s.stampTide 0 0) d.noIrq).releaseSlots f.ring 1 |>.trace 1 f.ring d.jobRef 0
  else s.refuse f.ring d.jobRef d.noIrq { reason := 0x01 }

/-- The class that orders a descriptor in admission (R401, R408). -/
def State.descClass (s : State) (f : Fetched) : Nat :=
  if (describe f.desc.bytes).kind == 2 then 2 else s.get HMR_RING_SCHED_CLASS f.ring

/-- Fetched descriptors in the order of R408: by class, then by fetch completion. -/
def State.admissionOrder (s : State) : List Fetched := (List.range 4).flatMap fun c => s.fetched.filter fun f => s.descClass f == c

/-- Admission is open: not stopped, the tide runs and is not held, and the device is not leaving (R42, R433, R504, R613). -/
def State.admitsNow (s : State) : Bool :=
  s.live && s.serves && !s.flag HMR_ADMIT_CTL_STOP 0 && s.flag HMR_TIDE_STATUS_RUNNING 0 && !s.pod.hold && !s.pod.leave

/-- The boundary instant: every descriptor whose fetch is complete is due where admission runs (R40). -/
def State.markDue (s : State) : State := { s with fetched := s.fetched.map fun (f : Fetched) => { f with due := s.admitsNow } }

/-- Step 6 of a boundary: up to 4,096 of the descriptors due (R40, R408). -/
def State.admitAll (s : State) : State :=
  let t := s.markDue
  if t.admitsNow then (t.admissionOrder.take 4096).foldl (fun u f => u.admitDesc f) t else t

/-! ### RUN, CONSIGN, NOP -/

/-- A job's append with `AFTER` has not become visible yet. -/
def State.appendOwed (s : State) (j : Job) : Bool :=
  j.owesHistory && match j.hist with
    | some u => u.opened || (!u.begun) || s.appended.any fun a => a.hist == u.hist
    | none => false

/-- Everything a RUN does is complete: its units, its lookups, and an append with `AFTER` at 0. -/
def Job.workDone (j : Job) : Bool :=
  j.unitsDone && j.lookupsDone && j.stepsOver

/-- A stream of a job still writes an output: its destination is no berth (R472). DEDUCED (log 55). -/
def State.outputOpen (s : State) (j : Nat) : Bool :=
  (s.streamsOf j).any fun n => (s.stream n).dstKind != 0

/-- Write the JOB record of a completed RUN (R472, R390): one whose append follows its scoring waits for its HISTORY record. -/
def State.completeRun (s : State) (j : Job) : State :=
  let s := s.beginHist j
  let j := (s.job j.id).getD j
  if j.hist.any (·.failed) then s.endJob j stHistoryError 0 none
  else if s.appendOwed j then
    (s.jobRecord j stOk 0 none).putJob
      { j with scored := true, slots := j.slots - 1, units := [], hist := j.hist.map fun u => { u with since := s.tide + 1 } }
  else s.endJob j stOk 0 none

/-- The fetched descriptor of a ring at an index, when it is the next that the tide's boundary has to test: it was due there (R40), and
fewer than 4,096 have been tested (R408). DESIGN CHOICE (log 58). -/
def State.nextDesc (s : State) (ring sq kind : Nat) : Option Fetched :=
  match (s.admissionOrder.filter (·.due)).head? with
  | some f =>
    if f.ring == ring && f.desc.sq == sq && (describe f.desc.bytes).kind == kind && s.admitsNow && decide (s.counts.tested < 4096) then some f
    else none
  | none => none

/-- The admitted job of a ring's descriptor. -/
def State.jobAt (s : State) (ring sq : Nat) (kind : JobKind) : Option Job := s.jobs.find? fun j => j.ring == ring && j.sq == sq && j.kind == kind

/-- RUN (R466, R472): an admitted RUN whose work is complete writes its record; a fetched one that is next in order is tested as
at step 6. -/
def execRun (ring sq : Nat) (s : State) : Host.Outcome State Fault Refusal :=
  match s.jobAt ring sq .run with
  | some j => if s.live && j.workDone && !j.scored && !s.outputOpen j.id then ok (s.completeRun j) else ok s
  | none =>
    match s.nextDesc ring sq 1 with
    | some f => ok (s.admitDesc f)
    | none => ok s

/-- CONSIGN (R466, R470). -/
def execConsign (ring sq : Nat) (s : State) : Host.Outcome State Fault Refusal :=
  match s.nextDesc ring sq 2 with
  | some f => ok (s.admitDesc f)
  | none => ok s

/-- NOP (R469). -/
def execNop (ring sq : Nat) (s : State) : Host.Outcome State Fault Refusal :=
  match s.nextDesc ring sq 3 with
  | some f => ok (s.admitDesc f)
  | none => ok s

/-! ### Deadlines (R410, R226) -/

/-- STATUS of a job at its deadline: STREAM_FAULT while one of its streams is HALTED, else DEADLINE_MISSED; a scored job's append
is late (R226, R391, R410). -/
def State.deadlineStatus (s : State) (j : Job) : Nat :=
  if j.scored then stHistoryLate
  else if (s.streamsOf j.id).any fun n => (s.stream n).st == .halted then stStreamFault
  else stDeadline

/-- The deadline of an admitted RUN job passes: its tasks and streams stop and its record is written (R410). -/
def State.deadlinePasses (s : State) (i : Nat) : State :=
  match s.job i with
  | some j => if j.kind == .run && decide (s.tide ≥ j.deadline) then s.endJob j (s.deadlineStatus j) 0 none else s
  | none => s

/-- JOB_DEADLINE (R410, R226). -/
def execJobDeadline (job : Nat) (s : State) : Host.Outcome State Fault Refusal := if s.live then ok (s.deadlinePasses job) else ok s

/-- Every admitted job's deadline that has passed. -/
def State.overdue (s : State) : State := (s.jobs.map (·.id)).foldl (fun t i => t.deadlinePasses i) s

/-! ### Debt and guarantees (R421, R422, R425, R426) -/

/-- Deduct one ring's overrun for an engine, at most what is left of the cap. Returns the ring, and the cap that remains. -/
def Ring.deduct (r : Ring) (e cap : Nat) : Ring × Nat :=
  let owed := if e == 0 then r.overKiln else r.overHearth
  let d := min owed cap
  (if e == 0 then { r with overKiln := owed - d } else { r with overHearth := owed - d }, cap - d)

/-- Deduct the overruns of a class's rings for an engine, in ring order (R421). -/
def State.deductRings (s : State) (e : Nat) : List Nat → Nat → State × Nat
  | [], cap => (s, cap)
  | n :: t, cap =>
    let r := (s.ring n).deduct e cap
    State.deductRings (s.putRing n r.1) e t r.2

/-- Charge the overruns of a class against its budget for an engine. -/
def State.chargeDebt (s : State) (c e : Nat) : State :=
  let res := if e == 0 then Res.kiln else Res.hearth
  let (n, d) := s.share c res
  let cap := n * s.budget res / d / 4
  let rings := (List.range 256).filter fun r => s.get HMR_RING_SCHED_CLASS r == c && ((s.ring r).overKiln > 0 || (s.ring r).overHearth > 0)
  let (s, left) := s.deductRings e rings cap
  { s with counts := { s.counts with deducted := s.counts.deducted ++ [(c, e, cap - left)] } }

/-- Record the debt a ring carries, and freeze it when it exceeds `DEBT_MAX` (R422). -/
def State.noteDebt (s : State) (n : Nat) : State :=
  let r := s.ring n
  let ns := (r.overKiln + r.overHearth) * 1000 / stepMhz (s.get HMR_POWER_STATUS_STEP 0)
  let s := s.put HMR_RING_STATE_DEBT_NS n (min ns (2 ^ 32 - 1))
  if ns > 1000 * s.get HMR_RING_SCHED_DEBT_MAX n && r.st != .frozen then s.freezeRing n 4 else s

/-- Step 5: overruns of the ended tide are charged, ring by ring (R421). `overs` gives each ring's new overrun in kiln and hearth
cycles. -/
def State.chargeDebts (s : State) (overs : List (Nat × Nat × Nat)) : State :=
  let s := (overs.filter fun o => decide (o.1 < 256)).foldl (fun t o =>
    t.putRing o.1 { t.ring o.1 with overKiln := (t.ring o.1).overKiln + o.2.1, overHearth := (t.ring o.1).overHearth + o.2.2 }) s
  let s := { s with counts := { s.counts with deducted := [] } }
  let s := [(0, 0), (0, 1), (1, 0), (1, 1), (2, 0), (2, 1), (3, 0), (3, 1)].foldl (fun t p => t.chargeDebt p.1 p.2) s
  ((List.range 256).filter fun n => s.get HMR_RING_STATE_DEBT_NS n != 0 || (s.ring n).overKiln > 0 || (s.ring n).overHearth > 0).foldl
    (fun t n => t.noteDebt n) s

/-- Admitted jobs under guarantee (R402). -/
def State.guaranteed (s : State) : List Job := s.jobs.filter fun j => j.cls < 2 && j.kind == .run

/-- A resource fails at a deadline for the C0 and C1 jobs together (R425). -/
def State.breaksAt (s : State) (r : Res) (d : Nat) : Bool :=
  let (a, n) := s.share 0 r
  let b := (s.share 1 r).1
  let demand := ((s.guaranteed.filter fun k => decide (k.deadline ≤ d)).map fun k => k.left.on r).sum
  decide (demand > (a + b) * s.budget r * (d - s.tide) / n - (s.deducted 0 r + s.deducted 1 r))

/-- The first resource and deadline that fail, in the model's order. DESIGN CHOICE (log 136). -/
def State.broken (s : State) : Option (Res × Nat) :=
  let rs := ((s.guaranteed.map fun j => j.left.uses).flatten).dedup
  (s.guaranteed.map (·.deadline)).dedup.findSome? fun d => (rs.find? fun r => s.breaksAt r d).map fun r => (r, d)

/-- The first job loses before the second (R425). The later admission is the higher number (log 136). -/
def losesBefore (a b : Job) : Bool :=
  if a.deadline != b.deadline then decide (a.deadline > b.deadline)
  else if a.cls != b.cls then decide (a.cls > b.cls)
  else if a.id != b.id then decide (a.id > b.id)
  else decide (a.ring > b.ring)

/-- The first job is named as winner before the second (R426). -/
def winsBefore (a b : Job) : Bool :=
  if a.deadline != b.deadline then decide (a.deadline < b.deadline)
  else if a.id != b.id then decide (a.id < b.id)
  else decide (a.ring < b.ring)

/-- Remove one loser (R426). -/
def State.breakOne (s : State) (r : Res) (d : Nat) : State :=
  let due := s.guaranteed.filter fun j => decide (j.deadline ≤ d)
  match pickBy losesBefore due with
  | none => s
  | some l =>
    let win := (pickBy winsBefore (due.filter fun j => j.id != l.id)).map fun w => (w.ring, w.jobRef)
    (s.endJob l stBroken r.code (some (win.getD (0xFFFF, 0)))).inc HMR_SCHED_EVENTS_BROKEN 0 1

/-- Remove losers while some resource fails at some deadline (R425). `fuel` bounds the number of losers by the jobs. -/
def State.checkGuarantees (s : State) : Nat → State
  | 0 => s
  | fuel + 1 =>
    match s.broken with
    | none => s
    | some (r, d) => State.checkGuarantees (s.breakOne r d) fuel

/-! ### Freeze resets (R424) -/

/-- Reset a frozen stream: its context and reservations are freed. -/
def State.streamFreezeReset (s : State) (n : Nat) : State := if (s.stream n).st == .frozen then s.freeStream n else s

/-- Reset a frozen kiln task: its slot is freed. -/
def State.taskFreezeReset (s : State) (i : Nat) : State := if (s.ctx (i / 4) (i % 4)).st == .frozen then s.freeSlot (i / 4) (i % 4) else s

/-- FREEZE_RESET_STREAM (R424). -/
def execFreezeResetStream (stream : Nat) (s : State) : Host.Outcome State Fault Refusal :=
  ok (s.hostDo fun t => t.streamFreezeReset stream)

/-- FREEZE_RESET_KILN_TASK (R424). -/
def execFreezeResetKilnTask (task : Nat) (s : State) : Host.Outcome State Fault Refusal :=
  ok (s.hostDo fun t => t.taskFreezeReset task)

/-- A frozen peer is taken back with its counts cleared (R524). -/
def State.peerFreezeReset (s : State) (d : Nat) : State :=
  if (s.peer d).frozen then s.putPeer d { s.peer d with frozen := false, malformed := 0, stray := 0 } else s

/-- FREEZE_RESET_PEER (R524). -/
def execFreezeResetPeer (device : Nat) (s : State) : Host.Outcome State Fault Refusal :=
  ok (s.hostDo fun t => t.peerFreezeReset device)

end Sys2Proof.Machine
end

