-- ==== Sys2Proof/Machine/Quays.lean ====
section
/-! DEFINITION. The quays as links (12): blocks, replays, frames and keys, failures of lanes and quays, stopping and training, the
resending of lost traffic, and the accesses that remote streams make to this device. -/

namespace Sys2Proof.Machine

/-! ### Lanes and quays -/

/-- Quay and lane numbers exist (R484). -/
def quayExists (q : Nat) : Bool := decide (q < 16)
def laneExists (l : Nat) : Bool := decide (l < 34)

/-- A quay carries traffic. -/
def State.quayUp (s : State) (q : Nat) : Bool := (s.quay q).st == .up

/-- The link peer's device and quay. -/
def State.linkPeer (s : State) (q : Nat) : Nat := s.get QUY_PEER_PEER_DEVICE q
def State.linkPeerQuay (s : State) (q : Nat) : Nat := s.get QUY_PEER_PEER_QUAY q

/-- `WIDTH` and `SPARES_LEFT` from the lanes in use (R495, R496). -/
def State.putWidth (s : State) (q : Nat) : State :=
  let lanes := 34 - (s.quay q).dead.length
  (s.put QUY_STATUS_WIDTH q (min 32 lanes)).put QUY_STATUS_SPARES_LEFT q (lanes - 32)

/-- Routes whose primary quay is q take their alternate (R498, R500). -/
def State.divert (s : State) (q : Nat) : State :=
  { s with routes := s.routes.map fun e => (e.1, if e.2.primary == q then { e.2 with useAlt := true } else e.2) }

/-- The quay's error record (Tables 13.3 and 13.11). -/
def State.quayError (s : State) (q cause : Nat) : Err :=
  mkErr s 2 0x09 cause q 0 none [cause, 0, s.linkPeer q % 256, s.linkPeer q / 256, s.linkPeerQuay q]

/-- What a quay had sent of messages gone in part is lost with it (R498, R499). -/
def LaneOut.lose (x : LaneOut) (q : Nat) : LaneOut :=
  { x with sent := x.sent ++ (x.part.filter fun (p : Nat × Nat × Nat) => p.2.1 == q).map (·.1),
           part := x.part.filter fun (p : Nat × Nat × Nat) => p.2.1 != q }

/-- Nothing is on the way over a quay any more. -/
def Quay.emptied (y : Quay) : Quay := { y with replays := [], held := [], through := [], spent := [], sinceVc2 := [] }

/-- A quay fails (R497, R498): its error is reported, its routes take their alternates, and the pod master is told. Causes: 1 width,
2 keying, 3 tag, 4 silence. -/
def State.quayFails (s : State) (q cause : Nat) : State :=
  if (s.quay q).st == .failed then s
  else
    let s := s.detect (s.quayError q cause)
    let s := if cause == 2 then s.inc QUY_STATUS_KEY_FAILS q 1 else s
    let s := s.putQuay q { (s.quay q).emptied with st := .failed, keyed := false }
    let s := { s.divert q with laneOut := s.laneOut.lose q, pod := { s.pod with reroute := true } }
    if s.flag QUY_POD_CTL_IN_POD 0 && !s.isMaster then s.sendVc0 s.podMaster (.quayFailed s.me q) else s

/-- QUAY_FAIL (R497, R643). -/
def execQuayFail (quay cause : Nat) (s : State) : Host.Outcome State Fault Refusal :=
  if s.live && quayExists quay && (s.quay quay).st != .down && (s.quay quay).st != .stopped && 1 ≤ cause && cause ≤ 4 &&
     (cause != 1 || decide (s.get QUY_STATUS_WIDTH quay < 24)) then
    ok (s.quayFails quay cause)
  else ok s

/-- Spare lanes that carry no traffic yet. -/
def State.unusedSpares (s : State) (q : Nat) : List Nat :=
  let free := [32, 33].filter fun l => !((s.quay q).dead.contains l)
  free.drop (free.length - s.get QUY_STATUS_SPARES_LEFT q)

/-- The spare lane that takes over for a failed lane: the lowest unused one; none for a spare that carried nothing. -/
def State.spareFor (s : State) (q l : Nat) : Option Nat :=
  let free := s.unusedSpares q
  if free.contains l then none else free.head?

/-- The traffic of a lane moves to the spare that takes its place, with its frames and counters; without a spare, what was on the way is
lost. DESIGN CHOICE (log 129). -/
def Quay.moveLane (y : Quay) (l : Nat) (spare : Option Nat) : Quay :=
  match spare with
  | some k =>
    { y with replays := y.replays.map fun r => if r.1 == l then (k, r.2.1, 0) else r,
             held := y.held.map fun h => if h.1 == l then (k, h.2) else h,
             txFrames := Tab.insert k (Tab.get (fun _ => 0) y.txFrames l) y.txFrames,
             rxFrames := Tab.insert k (Tab.get (fun _ => 0) y.rxFrames l) y.rxFrames }
  | none => { y with replays := y.replays.filter fun r => r.1 != l, held := y.held.filter fun h => h.1 != l }

/-- A lane fails (R495, R496): a spare lane takes its traffic, or the quay runs on narrower; below 24 lanes the quay fails (R497).
Sources: 1 loss of signal or lock, 2 eight replays, 3 correction rate. -/
def State.laneFails (s : State) (q l source : Nat) : State :=
  if (s.quay q).dead.contains l then s
  else
    let spare := s.spareFor q l
    let s := s.detect (mkErr s 2 0x0A source (64 * q + l) 0 none [q, l, spare.getD 0xFF])
    let y := (s.quay q).moveLane l spare
    let s := (s.putQuay q { y with dead := l :: y.dead.erase l }).putWidth q
    if s.get QUY_STATUS_WIDTH q < 24 then s.quayFails q 1 else s

/-- LANE_FAIL (R495, R496). -/
def execLaneFail (quay lane source : Nat) (s : State) : Host.Outcome State Fault Refusal :=
  if s.live && quayExists quay && laneExists lane && s.quayUp quay && 1 ≤ source && source ≤ 3 then ok (s.laneFails quay lane source)
  else ok s

/-! ### Blocks and frames (R485, R486, R492) -/

/-- SEQ a comes before b on a lane, in serial order of the 12-bit number. -/
def seqBefore (a b : Nat) : Bool := a != b && decide ((b + 4096 - a) % 4096 < 2048)

/-- Insert a frame by the order of its lane. -/
def insertFrame (f : Nat × Nat × List (Nat × Nat)) : List (Nat × Nat × List (Nat × Nat)) → List (Nat × Nat × List (Nat × Nat))
  | [] => [f]
  | h :: t => if h.1 == f.1 && seqBefore f.2.1 h.2.1 then f :: h :: t else h :: insertFrame f t

/-- A frame of a lane waits: a block before it is still to be replayed (R486). -/
def Quay.waits (y : Quay) (h : Nat × Nat × List (Nat × Nat)) : Bool := y.replays.any fun r => r.1 == h.1 && seqBefore r.2.1 h.2.1

/-- A block for another device goes to the lanes of the quay on the route to it, and counts against the quay budget (R491). One with no
route left is lost with it (R498). -/
def State.forward (s : State) (b : Nat × Nat) : State :=
  let k := s.quayTo b.1
  if s.quayUp k then
    { s.putQuay k { s.quay k with through := (s.quay k).through ++ [(s.out.length, b.2)] } with
      counts := { s.counts with forwarded := s.counts.forwarded + 256 } }
  else s

/-- The counter of a lane agrees with SEQ [11:4] of the first block of the frame that the block n closes (R492). -/
def Quay.counterFits (y : Quay) (l n : Nat) : Bool := (n + 4081) % 4096 / 16 == Tab.get (fun _ => 0) y.rxFrames l % 256

/-- The frame counter of a lane goes on by one frame. -/
def State.countFrame (s : State) (q l : Nat) : State :=
  let y := s.quay q
  s.putQuay q { y with rxFrames := Tab.insert l (Tab.get (fun _ => 0) y.rxFrames l + 1) y.rxFrames }

/-- Deliver the next frame of a lane whose tag verifies: its blocks for other devices go on, without the cranes, stevedores and
harbourmaster (R491), and the rest comes in here. One whose counter does not fit counts as a tag failure (R492, R494). -/
def State.deliverFrame (s : State) (q : Nat) (h : Nat × Nat × List (Nat × Nat)) : State :=
  if !s.quayUp q then s
  else if !(s.quay q).counterFits h.1 h.2.1 then s.quayFails q 3
  else
    let s := h.2.2.foldl (fun t b => t.forward b) (s.countFrame q h.1)
    if h.2.2.length < 16 then s.send (.deliver q h.1 h.2.1) else s

/-- Deliver the held frames that wait for nothing. -/
def State.deliverFrames (s : State) (q : Nat) : State :=
  let y := s.quay q
  (y.held.filter fun h => !y.waits h).foldl (fun t h => t.deliverFrame q h) (s.putQuay q { y with held := y.held.filter fun h => y.waits h })

/-- A block has passed: a frame that it completes and whose tag verifies is delivered in the order of its lane. -/
def State.blockPasses (s : State) (q l n : Nat) (closes : Bool) (through : List (Nat × Nat)) : State :=
  let y := s.quay q
  let y := { y with replays := y.replays.filter fun r => !(r.1 == l && r.2.1 == n) }
  let y := if closes then { y with held := insertFrame (l, n, through) y.held } else y
  (s.putQuay q y).deliverFrames q

/-- Replays asked for of a block. -/
def Quay.replaysOf (y : Quay) (l n : Nat) : Nat :=
  match y.replays.find? fun r => r.1 == l && r.2.1 == n with
  | some r => r.2.2
  | none => 0

/-- A block fails its CRC, or its reserved bits are not 0 (R485): it is asked for again, or its lane fails after eight replays. -/
def State.blockFails (s : State) (q l n : Nat) : State :=
  let y := s.quay q
  let k := y.replaysOf l n
  if k ≥ 8 then s.laneFails q l 2
  else (s.putQuay q { y with replays := (l, n, k + 1) :: y.replays.filter fun r => !(r.1 == l && r.2.1 == n) }).send
    (.replayRequest q l n)

/-- A block that passed returns credit for one virtual channel (R487, Table 12.2). -/
def State.creditBack (s : State) (q vc n : Nat) : State :=
  let y := s.quay q
  if n == 0 then s else s.putQuay q { y with spent := Tab.insert vc (Tab.get (fun _ => 0) y.spent vc - n) y.spent }

/-- BLOCK_RECEIVE (R485, R486, R487, R491, R492, R494): `outcome` 0 passes as received, 1 corrected by its parity, 2 fails its CRC, 3 passes and
the frame that it closes fails its tag. -/
def execBlockReceive (quay lane seq outcome : Nat) (last : BlockEnd) (s : State) : Host.Outcome State Fault Refusal :=
  if s.live && quayExists quay && laneExists lane && s.quayUp quay && !(s.quay quay).dead.contains lane && seq < 4096 then
    if outcome == 0 then ok ((s.creditBack quay last.crVc last.crBlocks).blockPasses quay lane seq last.closes last.through)
    else if outcome == 1 then
      ok (((s.inc QUY_BLOCKS_CORRECTED_COUNT quay 1).creditBack quay last.crVc last.crBlocks).blockPasses quay lane seq last.closes last.through)
    else if outcome == 2 then ok (s.blockFails quay lane seq)
    else if outcome == 3 then ok (s.quayFails quay 3)
    else ok s
  else ok s

/-- REPLAY_REQUEST (R486): the sender replays the block alone from its store. -/
def execReplayRequest (quay lane seq : Nat) (s : State) : Host.Outcome State Fault Refusal :=
  if s.live && quayExists quay && laneExists lane && s.quayUp quay && seq < 4096 then
    ok ((s.inc QUY_REPLAYS_COUNT quay 1).send (.replayBlock quay lane seq))
  else ok s

/-! ### The output lanes (R487, R488, R489, R499) -/

/-- Bytes of payload that a message carries beside its header. -/
def Net.bytes : Net → Nat
  | .ladingPart p => 12 * p.entries.length
  | .pooledSlice _ _ _ _ _ _ d => d.length
  | .rawCopy _ _ _ _ _ d => d.length
  | .vote v => 32 + 8 * v.tables.length
  | .decision d _ => 32 + 8 * d.tables.length
  | .notice d => 32 + 8 * d.tables.length
  | .readData _ _ _ _ _ _ d => d.length
  | .writeUnit _ _ _ _ _ _ _ d => d.length
  | .collUp _ _ _ d => d.length
  | .collDown _ _ d => d.length
  | .snapRecord _ d => d.length
  | .page _ _ _ d => d.length
  | _ => 0

/-- Blocks of a message, of 256 B of payload each (R484). DESIGN CHOICE (log 127). -/
def Net.blocks (m : Net) : Nat := max 1 (ceilDiv m.bytes 256)

/-- The dry time by which the blocks of a stream's message go (R212, R488). -/
def Net.dryOf (me : Nat) : Net → Option Request
  | .readRequest n _ _ _ d r c k => some ⟨(d, r), c, k, n, me, 0⟩
  | .readData n _ d r c k _ => some ⟨(d, r), c, k, n, me, 0⟩
  | .writeUnit n _ _ d r c k _ => some ⟨(d, r), c, k, n, me, 0⟩
  | _ => none

/-- Traffic that waits for a lane: its place in what is sent, none for what passes through, when it came, its destination, its virtual
channel, its dry time, and its blocks. -/
structure Waiting where
  message : Option Nat
  since : Nat
  dst : Option Nat
  vc : Nat
  dry : Option Request
  blocks : Nat
  deriving DecidableEq, Repr

/-- A message of `out` that waits at a quay: one begun there, or not yet begun whose destination the route gives to it (R499). -/
def State.waitingAt (s : State) (q : Nat) (m : Msg) (i : Nat) : Option Waiting :=
  match m with
  | .net d vc x =>
    if i < s.laneOut.base || s.laneOut.sent.contains i then none
    else match s.laneOut.part.find? fun p => p.1 == i with
      | some p => if p.2.1 == q then some ⟨some i, i, some d, vc, x.dryOf s.me, x.blocks - p.2.2⟩ else none
      | none => if s.quayTo d == q then some ⟨some i, i, some d, vc, x.dryOf s.me, x.blocks⟩ else none
  | _ => none

/-- What waits for the lanes of a quay, in order of sending. -/
def State.laneQueue (s : State) (q : Nat) : List Waiting :=
  (s.out.zipIdx.filterMap fun p => s.waitingAt q p.1 p.2) ++ (s.quay q).through.map fun b => (⟨none, b.1, none, b.2, none, 1⟩ : Waiting)

/-- The first of the waiting for each destination and virtual channel: messages of one source, destination and channel keep their
order (R489). -/
def State.laneHeads (s : State) (q : Nat) : List Waiting :=
  let w := s.laneQueue q
  w.filter fun x => (w.find? fun y => y.dst == x.dst && y.vc == x.vc && y.message.isSome == x.message.isSome) == some x

/-- Blocks of credit that a quay's peer grants for each virtual channel: its link buffer (R487, Table 12.3). -/
def vcCredit (vc : Nat) : Nat := if vc == 0 then 256 else if vc == 1 then 6144 else 1792

/-- The order within a virtual channel: by dry time, what has none first, in order of sending (R488). DESIGN CHOICE (log 127). -/
def Waiting.before (a b : Waiting) : Bool :=
  match a.dry, b.dry with
  | some x, some y => x.before y
  | none, some _ => true
  | some _, none => false
  | none, none => decide (a.since < b.since)

/-- The next block of a lane: VC2 after fifteen blocks without one, else VC0, then VC1, then VC2, within the credit (R487, R488). -/
def State.nextBlock (s : State) (q l : Nat) : Option Waiting :=
  let y := s.quay q
  let open' := (s.laneHeads q).filter fun w => decide (Tab.get (fun _ => 0) y.spent w.vc < vcCredit w.vc)
  let of := fun v => pickBy Waiting.before (open'.filter fun w => w.vc == v)
  let first := if Tab.get (fun _ => 0) y.sinceVc2 l ≥ 15 then of 2 else none
  first.orElse fun _ => (of 0).orElse fun _ => (of 1).orElse fun _ => of 2

/-- A lane sends a block: the credit is spent, and the message goes on or is gone whole. -/
def State.sendBlock (s : State) (q l : Nat) (w : Waiting) : State :=
  let y := s.quay q
  let waits2 := (s.laneQueue q).any fun x => x.vc == 2
  let n := if w.vc == 2 || !waits2 then 0 else Tab.get (fun _ => 0) y.sinceVc2 l + 1
  let y := { y with spent := Tab.insert w.vc (Tab.get (fun _ => 0) y.spent w.vc + 1) y.spent, sinceVc2 := Tab.insert l n y.sinceVc2 }
  let x := s.laneOut
  let t := match w.message with
    | none => s.putQuay q { y with through := y.through.erase (w.since, w.vc) }
    | some i =>
      let rest := x.part.filter fun (p : Nat × Nat × Nat) => p.1 != i
      let k := match x.part.find? (fun (p : Nat × Nat × Nat) => p.1 == i) with | some p => p.2.2 | none => 0
      { s.putQuay q y with laneOut :=
          if w.blocks ≤ 1 then { x with sent := x.sent ++ [i], part := rest } else { x with part := rest ++ [(i, q, k + 1)] } }
  t.send (.block q l w.vc w.message)

/-- A lane sends up to n blocks. -/
def State.sendBlocks (s : State) (q l : Nat) : Nat → State
  | 0 => s
  | n + 1 =>
    match s.nextBlock q l with
    | some w => State.sendBlocks (s.sendBlock q l w) q l n
    | none => s

/-- A direction takes a new key, and its frame counters restart (R492, R494). -/
def State.rekey (s : State) (q : Nat) (sent : Bool) : State :=
  let y := s.quay q
  (s.putQuay q (if sent then { y with txFrames := [] } else { y with rxFrames := [] })).send (.newKey q)

/-- Frames sent under the present key, over all lanes. DEDUCED (log 135). -/
def Quay.framesSent (y : Quay) : Nat := (y.txFrames.map (·.2)).sum

/-- The sent direction is rekeyed after 2³¹ frames (R494). -/
def State.rekeyDue (s : State) (q : Nat) : State := if (s.quay q).framesSent ≥ 2 ^ 31 then s.rekey q true else s

/-- FRAME_IDLE_CLOSE (R492, R488): a lane sends `frames` whole frames and `blocks` blocks of another from what waits, then its traffic
pauses; idle blocks close the partial frame. -/
def execFrameIdleClose (quay lane frames blocks : Nat) (s : State) : Host.Outcome State Fault Refusal :=
  if s.live && quayExists quay && laneExists lane && s.quayUp quay && blocks < 16 then
    let s := s.sendBlocks quay lane (16 * frames + blocks)
    let y := s.quay quay
    let k := frames + (if blocks == 0 then 0 else 1)
    let t := s.putQuay quay { y with txFrames := Tab.insert lane (Tab.get (fun _ => 0) y.txFrames lane + k) y.txFrames }
    ok ((if blocks == 0 then t else t.send (.idleBlocks quay lane (16 - blocks))).rekeyDue quay)
  else ok s

/-- LINK_REKEY (R494): a direction takes a new key at a frame boundary, at an earlier request or as the peer names it. -/
def execLinkRekey (quay : Nat) (sent : Bool) (s : State) : Host.Outcome State Fault Refusal :=
  if s.live && quayExists quay && s.quayUp quay then ok (s.rekey quay sent) else ok s

/-! ### Stopping and training (R493, R500, R643) -/

/-- A quay is drained and stopped (R500): the frames in its link buffers come in, and messages begun on it are gone. -/
def State.quayStopped (s : State) (q : Nat) : State :=
  let s := (s.putQuay q { s.quay q with replays := [] }).deliverFrames q
  let s := { s.divert q with laneOut := s.laneOut.lose q }
  (s.putQuay q { (s.quay q).emptied with st := .stopped, stopping := false, keyed := false }).put QUY_CTL_STOPPED q 1

/-- Set `STOP` of a quay: it stops at the next boundary, or at once where no tide runs. -/
def State.quayStop (s : State) (q : Nat) : State :=
  let s := s.put QUY_CTL_STOP q 1
  if s.flag QUY_CTL_STOPPED q then s
  else if s.flag HMR_TIDE_STATUS_RUNNING 0 then
    { s.putQuay q { s.quay q with stopping := true } with pod := { s.pod with reroute := true } }
  else s.quayStopped q

/-- QUAY_STOP (R500). -/
def execQuayStop (quay : Nat) (s : State) : Host.Outcome State Fault Refusal :=
  if quayExists quay then ok (s.hostDo fun t => t.quayStop quay) else ok s

/-- Every quay that is to be used is up and keyed, and one is; after a wake they run at full rate (R503, Table 14.15). -/
def State.quaysReady (s : State) : Bool :=
  let used := (List.range 16).filter fun q => !s.flag QUY_PEER_UNUSED q && !s.flag QUY_CTL_STOP q
  !s.power.warming && !used.isEmpty && used.all fun q => s.quayUp q

/-- Send the JOIN request that is due (R503). -/
def State.askJoin (s : State) : State :=
  if s.pod.joining && !s.pod.requested && s.quaysReady then
    { s with pod := { s.pod with requested := true } }.sendVc0 (s.get QUY_POD_CFG_MASTER_ID 0) (.join s.me)
  else s

/-- A quay trains and customs agrees its link keys: it is UP with its frame counters at 0, or keying fails (R492, R493). A dark
quay stays DOWN. -/
def State.quayTrains (s : State) (q : Nat) (keyed : Bool) : State :=
  if s.flag QUY_PEER_UNUSED q then s.putQuay q { s.quay q with st := .down }
  else if keyed then
    let s := s.putQuay q { (s.quay q).emptied with st := .up, keyed := true, txFrames := [], rxFrames := [] }
    { s.putWidth q with pod := { s.pod with reroute := true } }.askJoin
  else (s.putQuay q { s.quay q with st := .keying }).quayFails q 2

/-- Clear `STOP` of a quay: it trains, unless it is UP. -/
def State.quayTrain (s : State) (q : Nat) (keyed : Bool) : State :=
  let s := (s.put QUY_CTL_STOP q 0).put QUY_CTL_STOPPED q 0
  let s := s.putQuay q { s.quay q with stopping := false }
  if s.quayUp q then s else s.quayTrains q keyed

/-- QUAY_TRAIN (R500, R493). -/
def execQuayTrain (quay : Nat) (keyed : Bool) (s : State) : Host.Outcome State Fault Refusal :=
  if quayExists quay then ok (s.hostDo fun t => t.quayTrain quay keyed) else ok s

/-- QUAY_RECONNECT (R643): the connector of a failed quay is mated again, or a quay that trains after its keys were zeroised ends its
training (R494, R562); a dark or stopped quay stays as it is. -/
def execQuayReconnect (quay : Nat) (keyed : Bool) (s : State) : Host.Outcome State Fault Refusal :=
  if s.live && quayExists quay && ((s.quay quay).st == .failed || (s.quay quay).st == .training) && !s.flag QUY_CTL_STOP quay then
    ok (s.quayTrains quay keyed)
  else ok s

/-! ### Traffic lost on a quay (Table 12.4) -/

/-- REMOTE_READ_TIMEOUT (R498): a remote read, or the write of a landed unit to a remote device, is sent again on the current
route. -/
def execRemoteReadTimeout (stream unit : Nat) (s : State) : Host.Outcome State Fault Refusal :=
  let x := s.stream stream
  match x.unitAt unit with
  | some u =>
    if s.live && x.srcRemote && u.st == .inFlight then
      ok (s.send (.net x.device (classVc x.cls) (x.ask stream u)))
    else if s.live && x.dstKind == 2 && u.st == .landed then
      ok ((x.writeMsgs stream u).foldl (fun t m => t.send m) s)
    else ok s
  | none => ok s

/-- VC0_RESEND (R498): every VC0 message not acknowledged is sent again. -/
def execVc0Resend (s : State) : Host.Outcome State Fault Refusal :=
  if s.live then ok (s.sendAll (s.unacked.map fun m => Msg.net m.dst 0 m.msg)) else ok s

/-- A VC0 message is acknowledged end to end: it is sent no more, and a NOTICE counts towards its completion (R361, R368). -/
def State.ackVc0 (s : State) (device number : Nat) : State :=
  match s.unacked.find? fun m => m.number == number && m.dst == device with
  | none => s
  | some m =>
    let s := { s with unacked := s.unacked.filter fun x => x.number != number }
    match m.msg with
    | .notice d => if s.isMaster then s.noticeAcked d.cons device else s
    | _ => s

/-- END_TO_END_ACK (R498, R368). -/
def execEndToEndAck (device number : Nat) (s : State) : Host.Outcome State Fault Refusal :=
  if s.live then ok (s.ackVc0 device number) else ok s

/-! ### Remote streams (R206, R498, R523) -/

/-- The die of the quay that a device is reached through (R19). -/
def State.quayDie (s : State) (d : Nat) : Nat := if s.quayTo d < 8 then 0 else 1

/-- The state once the arbiters that a remote read meets have served it, none while they serve others first (R212, R213). -/
def State.serveRead (s : State) (r : Request) (a : Nat) : Option State :=
  match s.locate { cls := some r.cls } false a with
  | .ok (.dev b _) =>
    match s.queueOf b with
    | some q => let cross := q.2 != s.quayDie r.device
                s.arbitrate (s.flying ++ [(q.1, cross, r)]) q.1 cross r
    | none => some s
  | _ => some s

/-- REMOTE_STREAM_READ: a read of another device's stream, with the dry instant, class and rank that it carries (R212), is answered with
its data once the arbiters serve it. A read that is refused has no answer. DESIGN CHOICE (log 32). -/
def execRemoteStreamRead (device stream unit addr len : Nat) (order : ReadOrder) (s : State) : Host.Outcome State Fault Refusal :=
  if s.hears device && order.cls < 4 then
    match s.serveRead ⟨(order.dry, order.rate), order.cls, order.rank, stream, device, s.seq⟩ addr with
    | none => ok s
    | some s =>
      match s.read { cls := some order.cls } addr len with
      | .ok (bs, t) => ok (t.send (.net device (classVc order.cls) (.readData stream unit order.dry order.rate order.cls order.rank bs)))
      | .error (.memory a) => ok (s.memError a none)
      | .error .held => ok s
      | .error _ => ok (s.send (.accessRefused addr))
  else ok s

/-- The receive-buffer granules that another device's stream holds here. -/
def State.heldFor (s : State) (device stream : Nat) : Nat :=
  ((s.remoteHolds.filter fun h => h.device == device && h.stream == stream).map (·.granules)).sum

/-- REMOTE_STREAM_WRITE (R523): a unit within its stream's reservation is written and acknowledged; one beyond it freezes the peer. -/
def execRemoteStreamWrite (device stream unit addr cls : Nat) (data : List Byte) (s : State) : Host.Outcome State Fault Refusal :=
  if s.hears device && cls < 4 then
    if data.length > 1024 * s.heldFor device stream then ok (s.freezePeer device 2)
    else match s.write { cls := some cls } addr data with
      | .ok t => ok (t.send (.net device (classVc cls) (.writeAck stream unit)))
      | .error (.memory a) => ok (s.memError a none)
      | .error .held => ok s
      | .error _ => ok (s.send (.accessRefused addr))
  else ok s

/-- PEER_VIOLATION (R523): causes 1 credit, 2 reservation, 3 malformed, 4 stray answers. -/
def execPeerViolation (device cause : Nat) (s : State) : Host.Outcome State Fault Refusal :=
  if s.live && device < 4096 && 1 ≤ cause && cause ≤ 4 then ok (s.freezePeer device cause) else ok s

end Sys2Proof.Machine
end

