-- ==== Sys2Proof/Machine/Pod.lean ====
section
/-! DEFINITION. The pod (12): the collective tree, routes, joining and leaving, heartbeats and losses, the standby master, time
markers, and what a boundary does to membership, groups and routes. -/

namespace Sys2Proof.Machine

/-! ### The collective tree (R510, R511) -/

/-- Devices that come into the pod are heard of in this tide: their silence is counted from here (R505). -/
def State.meet (s : State) (ds : List Nat) : State :=
  ds.foldl (fun t d => t.putPeer d { t.peer d with lastHeard := max (t.peer d).lastHeard t.tide, silent := false }) s

/-- Live devices in tree order: the pod master, then the others by ascending device number. -/
def treeOrder (master : Nat) (members : List Nat) : List Nat := master :: sortNat ((members.filter fun d => d != master).dedup)

/-- The depth L for N devices: ⌈log₁₆ N⌉. -/
def levelsOf (n : Nat) : Nat := if n ≤ 1 then 0 else if n ≤ 16 then 1 else if n ≤ 256 then 2 else 3

/-- The position of a device in a tree. -/
def positionIn (tree : List Nat) (d : Nat) : Nat := tree.findIdx fun x => x == d

/-- The parent of a device in a tree, none for the root and for a device outside it. -/
def parentIn (tree : List Nat) (d : Nat) : Option Nat :=
  let i := positionIn tree d
  if i == 0 || i ≥ tree.length then none else tree[(i - 1) / 16]?

/-- The children of a device in a tree, in ascending position. -/
def childrenIn (tree : List Nat) (d : Nat) : List Nat :=
  let i := positionIn tree d
  if i < tree.length then (tree.drop (16 * i + 1)).take 16 else []

/-- Link peers over quays that are UP. -/
def State.linkPeers (s : State) : List Nat := (((List.range 16).filter fun q => s.quayUp q).map fun q => s.linkPeer q).dedup

/-- The device is in a pod. -/
def State.inPod (s : State) : Bool := s.flag QUY_POD_CTL_IN_POD 0

/-! ### Routes (R490, R498) -/

/-- A link in the other direction. -/
def Link.back (l : Link) : Link := ⟨l.peer, l.peerQuay, l.dev, l.quay⟩

/-- The links that join live devices, in both directions; those at this device are its quays that are UP and not stopping. -/
def State.podLinks (s : State) (members : List Nat) : List Link :=
  let own := ((List.range 16).filter fun q => s.quayUp q && !(s.quay q).stopping).map fun q => (⟨s.me, q, s.linkPeer q, s.linkPeerQuay q⟩ : Link)
  let told := s.pod.links.filter fun l => l.dev != s.me && (l.peer != s.me || own.any fun o => o.quay == l.peerQuay)
  let both := own ++ told
  ((both ++ both.map Link.back).filter fun l => members.contains l.dev && members.contains l.peer).dedup

/-- Devices reached from a set within k hops that do not pass through `not`. -/
def reach (ls : List Link) (not : Nat) : Nat → List Nat → List Nat
  | 0, ds => ds
  | k + 1, ds => reach ls not k ((ds ++ (ls.filter fun l => ds.contains l.dev && l.peer != not).map (·.peer)).dedup)

/-- Routes from a device to another by its first quay: (quay, hops), at most 4 hops, fewest hops first and then by quay. -/
def routesOf (ls : List Link) (d t : Nat) : List (Nat × Nat) :=
  let from' := (ls.filter fun l => l.dev == d).filterMap fun l =>
    ((List.range 4).find? fun k => (reach ls d k [l.peer]).contains t).map fun k => (l.quay, k + 1)
  sortBy (fun a b => decide (a.2 < b.2) || (a.2 == b.2 && decide (a.1 ≤ b.1))) from'

/-- The route table entry from a device to another, none where no route has at most 4 hops (R490). -/
def routeOf (ls : List Link) (d t : Nat) : Option Route :=
  match routesOf ls d t with
  | [] => none
  | a :: rest => match rest.find? fun b => b.1 != a.1 with
    | some b => some ⟨a.1, b.1, a.2, b.2, false⟩
    | none => some ⟨a.1, noQuay, a.2, 0, false⟩

/-- The route table of a device over the live devices. -/
def tableOf (ls : List Link) (members : List Nat) (d : Nat) : List (Nat × Route) :=
  ((sortNat members).filter fun t => t != d).filterMap fun t => (routeOf ls d t).map fun r => (t, r)

/-- Install a route table; a route whose primary quay is not UP takes its alternate. -/
def State.installRoutes (s : State) (rs : List (Nat × Route)) : State :=
  { s with routes := rs.foldl (fun t e => Tab.insert e.1 { e.2 with useAlt := !s.quayUp e.2.primary || (s.quay e.2.primary).stopping } t) [] }

/-- ROUTE_TABLES (R490, R499): the table that the pod master has computed is installed; its entries are the other live devices. -/
def execRouteTables (routes : List (Nat × Route)) (s : State) : Host.Outcome State Fault Refusal :=
  if s.live && s.inPod && !s.isMaster then
    let t := (s.installRoutes routes).meet ((routes.map (·.1)).filter fun d => !s.pod.members.contains d)
    ok { t with pod := { t.pod with members := (s.me :: s.podMaster :: routes.map (·.1)).dedup } }
  else ok s

/-- The pod master computes every table and distributes it (R490). -/
def State.reroute (s : State) : State :=
  let ls := s.podLinks s.pod.members
  s.pod.members.foldl (fun t d =>
    if d == t.me then t.installRoutes (tableOf ls t.pod.members d)
    else t.sendVc0 d (.routes d (tableOf ls t.pod.members d))) s

/-! ### Joining (R502, R503, R567) -/

/-- Write the pod size table. -/
def State.putSize (s : State) (w : Nat) : State :=
  let s := (s.put QUY_POD_SIZE_DEVICES 0 (bits w 0 13)).put QUY_POD_SIZE_LEVELS 0 (bits w 13 3)
  let s := (s.put QUY_POD_SIZE_GROUPS 0 (bits w 16 11)).put QUY_POD_SIZE_NO_STANDBY 0 (bits w 27 1)
  (s.put QUY_POD_SIZE_MASTER 0 (bits w 32 12)).put QUY_POD_SIZE_STANDBY 0 (bits w 48 12)

/-- Raise the pod generation by 1. -/
def State.raiseGen (s : State) : State := s.put QUY_POD_GEN_GENERATION 0 (s.get QUY_POD_GEN_GENERATION 0 + 1)

/-- Start the tide at a number. -/
def State.startTide (s : State) (n : Nat) : State := (s.put HMR_TIDE_COUNT_TIDE 0 n).put HMR_TIDE_STATUS_RUNNING 0 1

/-- The pod master forms the pod (R502): its tide starts at 0, and the pod has one device. -/
def State.formPod (s : State) : State :=
  let s := (s.put QUY_POD_CTL_IN_POD 0 1).startTide 0
  let s := ((s.put QUY_POD_SIZE_DEVICES 0 1).put QUY_POD_SIZE_LEVELS 0 0).put QUY_POD_SIZE_GROUPS 0 (s.get CRN_GROUP_DIR_GROUPS 0 + 1)
  let s := ((s.put QUY_POD_SIZE_MASTER 0 s.me).put QUY_POD_SIZE_NO_STANDBY 0 1).put QUY_POD_SIZE_STANDBY 0 0
  { s with pod := { members := [s.me], tree := [s.me] } }

/-- The answer to this device's JOIN request arrives (R503, R44). -/
def State.joinAnswered (s : State) (a : JoinAnswer) : State :=
  if !(s.pod.joining && s.pod.requested) then s
  else if a.code != 0 then s.put QUY_POD_CTL_JOIN_RESULT 0 a.code
  else
    let s := (((s.put QUY_POD_CTL_IN_POD 0 1).startTide a.tide).putSize a.size).put QUY_POD_GEN_GENERATION 0 a.gen
    { s with pod := { members := a.members, tree := treeOrder s.podMaster a.members } }.meet a.members

/-- The answer of a request, where it has come. -/
def State.joinAnswer? (s : State) (a : Option JoinAnswer) : State :=
  match a with
  | some x => s.joinAnswered x
  | none => s

/-- Set `JOIN`: the pod master forms the pod, another device asks to join once its quays are up; a Blank or Returned device does not (Table 14.9). -/
def State.podJoin (s : State) (a : Option JoinAnswer) : State :=
  let s := s.put QUY_POD_CTL_JOIN 0 1
  if s.inPod || !lcJoins s.cus.lifecycle then s
  else if s.get QUY_POD_CFG_ROLE 0 == 1 then s.formPod
  else ({ s with pod := { s.pod with joining := true } }.askJoin).joinAnswer? a

/-- POD_JOIN (R502, R503): `answer` is what the pod master says, where it has answered. -/
def execPodJoin (answer : Option JoinAnswer) (s : State) : Host.Outcome State Fault Refusal :=
  ok (s.hostDo fun t => t.podJoin answer)

/-- JOIN_RETRY (R503): a refused device asks again. -/
def execJoinRetry (answer : Option JoinAnswer) (s : State) : Host.Outcome State Fault Refusal :=
  if s.live && s.pod.joining && s.pod.requested && !s.inPod && s.get QUY_POD_CTL_JOIN_RESULT 0 != 0 then
    ok ((s.sendVc0 (s.get QUY_POD_CFG_MASTER_ID 0) (.join s.me)).joinAnswer? answer)
  else ok s

/-- The evidence of a joining device meets the pod master's own policy (R567). -/
def State.attests (s : State) (r : JoinRequest) : Bool :=
  r.signedOk && lcJoins r.lifecycle && r.ownerHash == s.cus.ownerHash && bit s.cus.policy.lifecycles r.lifecycle && !(r.d2 && s.cus.policy.noD2) &&
  (s.cus.policy.minVersions.zipIdx.all fun m => decide (m.1 ≤ r.versions.getD m.2 0))

/-- Live devices, those admitted at this boundary included. -/
def State.liveMembers (s : State) : List Nat := s.pod.members ++ s.pod.arriving.map fun (x : JoinRequest) => x.device

/-- The first reason of Table 12.5 that applies, 0 for none. -/
def State.joinRefusal (s : State) (r : JoinRequest) : Nat :=
  let all := r.device :: s.liveMembers
  let ls := { s with pod := { s.pod with links := s.pod.links ++ (s.pod.arriving.flatMap fun (x : JoinRequest) => x.links) ++ r.links } }.podLinks all
  if r.periodSteps != s.get HMR_TIDE_CFG_PERIOD_STEPS 0 then 1
  else if r.podId != s.get QUY_POD_CFG_POD_ID 0 then 2
  else if s.liveMembers.contains r.device then 3
  else if s.liveMembers.length ≥ 4096 then 4
  else if !(s.liveMembers.all fun m => (routeOf ls m r.device).isSome && (routeOf ls r.device m).isSome) then 5
  else if r.grace != s.get HMR_EPOCH_CFG_GRACE_TIDES 0 then 6
  else if !s.attests r then 7
  else 0

/-- Answer a JOIN request: a refusal, or the pod's tide with the device admitted at the next boundary (R44, R503). -/
def State.takeJoin (s : State) (r : JoinRequest) : State :=
  let c := s.joinRefusal r
  if c != 0 then s.sendVc0 r.device (.joinAnswer ⟨c, 0, 0, 0, []⟩)
  else
    let s := { s.raiseGen with pod := { s.pod with arriving := s.pod.arriving ++ [r], reroute := true } }
    s.sendVc0 r.device (.joinAnswer ⟨0, s.tide, s.podSize, s.get QUY_POD_GEN_GENERATION 0, s.liveMembers⟩)

/-- JOIN_REQUEST (R503, R509). -/
def execJoinRequest (request : JoinRequest) (s : State) : Host.Outcome State Fault Refusal :=
  if s.live && s.inPod && s.isMaster && !s.pod.leaderless then ok (s.takeJoin request) else ok s

/-! ### Leaving (R504, R513) -/

/-- A leaving device whose admitted jobs have completed stops its tide, sends LEAVE, and is out of the pod. -/
def State.leaveDone (s : State) : State :=
  if s.pod.leave && s.jobs.isEmpty then
    let s := s.sendVc0 s.podMaster (.leave s.me)
    let s := (s.put HMR_TIDE_STATUS_RUNNING 0 0).put QUY_POD_CTL_IN_POD 0 0
    { s.putSize 0 with pod := {}, routes := [] }
  else s

/-- Clear `JOIN`: the device leaves, or asks no more. One that has begun to leave goes once its jobs are done. -/
def State.podLeave (s : State) : State :=
  let s := s.put QUY_POD_CTL_JOIN 0 0
  if s.pod.leave then s.leaveDone
  else if s.inPod then { s with pod := { s.pod with leave := true } }
  else { s with pod := { s.pod with joining := false, requested := false } }

/-- POD_LEAVE (R504). -/
def execPodLeave (s : State) : Host.Outcome State Fault Refusal := ok (s.hostDo fun t => t.podLeave)

/-- A device leaves the pod at the next boundary; the pod master raises the generation and tells the others (R504, R506). -/
def State.removeDevice (s : State) (d : Nat) : State :=
  let s := s.raiseGen
  { s with pod := { s.pod with leaving := s.pod.leaving ++ [d], reroute := true, silence := s.pod.silence.filter fun p => p.2 != d } }.send
    (.broadcast (.lost d (s.get QUY_POD_GEN_GENERATION 0)))

/-- A member that is not already to be removed. -/
def State.isLive (s : State) (d : Nat) : Bool := s.pod.members.contains d && !s.pod.leaving.contains d

/-- LEAVE (R504). -/
def execLeave (device : Nat) (s : State) : Host.Outcome State Fault Refusal :=
  if s.live && s.isMaster && s.isLive device then ok (s.removeDevice device) else ok s

/-! ### Heartbeats and losses (R505, R506) -/

/-- The device expects heartbeats of another: a link peer or a tree child. -/
def State.expects (s : State) (d : Nat) : Bool := s.linkPeers.contains d || (childrenIn s.pod.tree s.me).contains d

/-- HEARTBEAT (R505). -/
def execHeartbeat (device tide gen : Nat) (s : State) : Host.Outcome State Fault Refusal :=
  if s.live && s.inPod && tide ≤ s.tide + 1 && gen < 2 ^ 32 then
    let t := s.putPeer device { s.peer device with lastHeard := max (s.peer device).lastHeard tide, silent := false }
    ok { t with pod := { t.pod with silence := t.pod.silence.filter fun p => p.2 != device } }
  else ok s

/-- Note a report of silence. -/
def State.noteSilence (s : State) (device reporter : Nat) : State :=
  if s.pod.silence.contains (reporter, device) then s else { s with pod := { s.pod with silence := s.pod.silence ++ [(reporter, device)] } }

/-- Where a report of silence goes: to the pod master, or to the standby when the pod master is silent (R507). -/
def State.silenceTo (s : State) (device : Nat) : Nat :=
  if device == s.podMaster then s.get QUY_POD_SIZE_STANDBY 0 else s.podMaster

/-- HEARTBEAT_SILENCE (R505, R613): this device finds two tides without a heartbeat and reports it, or another's report arrives. -/
def execHeartbeatSilence (device reporter : Nat) (s : State) : Host.Outcome State Fault Refusal :=
  if !(s.live && s.inPod && !s.pod.held && s.isLive device) then ok s
  else if reporter == s.me then
    if s.expects device && !(s.peer device).silent && s.tide ≥ (s.peer device).lastHeard + 2 then
      let t := s.putPeer device { s.peer device with silent := true }
      ok (if t.silenceTo device == t.me then t.noteSilence device t.me else t.sendVc0 (t.silenceTo device) (.silence device t.me))
    else ok s
  else if s.silenceTo device == s.me then ok (s.noteSilence device reporter)
  else ok s

/-- Live neighbours that should hear a device: its link peers and its parent in the tree. -/
def State.neighbours (s : State) (d : Nat) : List Nat :=
  ((((s.podLinks s.pod.members).filter fun l => l.dev == d).map (·.peer)) ++ (parentIn s.pod.tree d).toList).dedup.filter fun n =>
    n != d && s.isLive n

/-- Every neighbour that should hear a device reports silence, at the third boundary after its last heartbeat where this device hears
them itself (R506). -/
def State.allSilent (s : State) (d : Nat) : Bool :=
  !(s.neighbours d).isEmpty && (!s.expects d || decide (s.tide ≥ (s.peer d).lastHeard + 3)) && (s.neighbours d).all fun n => s.pod.silence.contains (n, d)

/-- DEVICE_LOST (R506, R613). -/
def execDeviceLost (device : Nat) (s : State) : Host.Outcome State Fault Refusal :=
  if s.live && s.isMaster && !s.pod.held && s.isLive device && device != s.me && s.allSilent device then ok (s.removeDevice device) else ok s

/-- LOST_NOTICE (R506): the device is removed at the next boundary. -/
def execLostNotice (device gen : Nat) (s : State) : Host.Outcome State Fault Refusal :=
  if s.live && s.inPod && !s.pod.leaving.contains device then
    let t := s.put QUY_POD_GEN_GENERATION 0 (max gen (s.get QUY_POD_GEN_GENERATION 0))
    ok { t with pod := { t.pod with leaving := t.pod.leaving ++ [device] } }
  else ok s

/-! ### The standby master (R507 to R509) -/

/-- The device is the standby master. -/
def State.isStandby (s : State) : Bool := s.hasStandby && s.get QUY_POD_SIZE_STANDBY 0 == s.me && !s.isMaster

/-- MASTER_MIRROR (R507). `links` are those that the route tables are computed over, `size` the pod size table. -/
def execMasterMirror (log : List Logged) (members standbys : List Nat) (links : List Link) (size : Nat) (s : State) :
    Host.Outcome State Fault Refusal :=
  if s.live && s.inPod && s.isStandby then
    let t := s.putSize size
    ok { t with pod := { t.pod with mirror := log, members := members, standbys := standbys, links := links } }
  else ok s

/-- The live device of lowest number that may be standby (R508). -/
def State.nextStandby (s : State) : Option Nat :=
  (sortNat s.pod.standbys).find? fun d => s.isLive d && d != s.podMaster

/-- Name a standby, or run without one. -/
def State.nameStandby (s : State) (d : Option Nat) : State :=
  match d with
  | some x => (s.put QUY_POD_SIZE_STANDBY 0 x).put QUY_POD_SIZE_NO_STANDBY 0 0
  | none => (s.put QUY_POD_SIZE_STANDBY 0 0).put QUY_POD_SIZE_NO_STANDBY 0 1

/-- VC0 messages that wait for the old pod master go to the new one. -/
def State.redirect (s : State) (old new : Nat) : State :=
  { s with unacked := s.unacked.map fun m => if m.dst == old then { m with dst := new } else m }

/-- Repeat the notices and decisions of a logged outcome that are not confirmed (R507, Table 08.9). -/
def State.repeatLogged (s : State) (l : Logged) : State :=
  let s := (l.voters.filter fun v => !l.acked.contains v).foldl (fun t v => t.sendVc0 v (.decision l.dec false)) s
  l.noticeTo.foldl (fun t d => t.sendVc0 d (.notice l.dec)) s

/-- The standby takes the pod-master role (R507, R508). -/
def State.takeOver (s : State) : State :=
  let old := s.podMaster
  let s := (s.put QUY_POD_SIZE_MASTER 0 s.me).raiseGen
  let s := { s with pod := { s.pod with leaving := s.pod.leaving ++ [old], reroute := true }, decisions := s.pod.mirror }
  let s := ((s.nameStandby s.nextStandby).redirect old s.me).send (.broadcast (.takeover s.me))
  s.decisions.foldl (fun t l => t.repeatLogged l) s

/-- STANDBY_TAKEOVER (R507): the standby takes over when every neighbour of the pod master reports silence; another device hears
its announcement, with the standby that it names. -/
def execStandbyTakeover (next : Option Nat) (s : State) : Host.Outcome State Fault Refusal :=
  if !(s.live && s.inPod && s.hasStandby) || s.isMaster then ok s
  else if s.isStandby then (if s.allSilent s.podMaster then ok s.takeOver else ok s)
  else
    let old := s.podMaster
    let new := s.get QUY_POD_SIZE_STANDBY 0
    let t := ((s.put QUY_POD_SIZE_MASTER 0 new).raiseGen).nameStandby next
    ok ({ t with pod := { t.pod with leaving := t.pod.leaving ++ [old] } }.redirect old new)

/-! ### Time markers (R512, R513) -/

/-- Store `OFFSET_NS`, held within its 16 bits. DESIGN CHOICE (log 35). -/
def State.putOffset (s : State) (o : Int) : State :=
  s.put HMR_TIDE_STATUS_OFFSET_NS 0 ((max (-32768) (min 32767 o)) % 65536).toNat

/-- Leave the pod for want of time (R513): no heartbeats, no admission, and out once the jobs are done. -/
def State.loseTime (s : State) : State :=
  let s := (s.put HMR_TIDE_STATUS_LOCKED 0 0).put HMR_TIDE_STATUS_SLIP 0 1
  { s with pod := { s.pod with leave := true, withdrawn := true } }.leaveDone

/-- Act on an offset (Table 12.6). -/
def State.actOnOffset (s : State) (o : Int) : State :=
  let s := s.putOffset o
  if o.natAbs ≤ 25 then
    { s.put HMR_TIDE_STATUS_LOCKED 0 1 with pod := { s.pod with correction := -(o.tdiv 2) } }
  else if o.natAbs ≤ 500 then
    let s := (s.put HMR_TIDE_STATUS_LOCKED 0 0).put HMR_TIDE_STATUS_SLIP 0 1
    { s with pod := { s.pod with correction := -8 * o.sign } }
  else s.loseTime

/-- The offset that a marker shows: it came over a quay with an accumulated delay, `arrival` ns after this device's boundary. -/
def State.markerOffset (s : State) (quay tide delay arrival : Nat) : Int :=
  ((delay + s.get QUY_STATUS_DELAY_NS quay : Nat) : Int) - arrival + ((tide : Int) - s.tide) * s.periodNs

/-- TIME_MARKER (R512, R513): the hop's delay is added, the offset acted on, and the marker sent on to the children with the
residence time added. -/
def execTimeMarker (quay tide delay arrival residence : Nat) (s : State) : Host.Outcome State Fault Refusal :=
  if s.live && s.inPod && !s.isMaster && s.quayUp quay && s.flag HMR_TIDE_STATUS_RUNNING 0 then
    let o := s.markerOffset quay tide delay arrival
    let on' := delay + s.get QUY_STATUS_DELAY_NS quay + residence
    let t := { s with pod := { s.pod with noMarker := 0 } }.sendAll
      ((childrenIn s.pod.tree s.me).map fun c => Msg.net c 0 (.marker tide on'))
    ok (t.actOnOffset o)
  else ok s

/-- MARKER_LOSS_LEAVE (R513): 16 tides without a marker. -/
def execMarkerLossLeave (s : State) : Host.Outcome State Fault Refusal :=
  if s.live && s.inPod && !s.isMaster && s.pod.noMarker ≥ 16 && !s.pod.withdrawn then ok s.loseTime else ok s

/-- DELAY_PROBE (R512): half the round trip of the probe is the link's delay. -/
def execDelayProbe (quay roundTrip : Nat) (s : State) : Host.Outcome State Fault Refusal :=
  if s.live && quayExists quay && s.quayUp quay then ok (s.put QUY_STATUS_DELAY_NS quay (min (roundTrip / 2) 0xFFFF)) else ok s

/-! ### What a boundary does to the pod (R336, R498, R503, R506, R511, R547, R552) -/

/-- A group loses a slot (R330, R335, R547). -/
def Group.loses (g : Group) (slot : Nat) : Group :=
  match g.state with
  | .normal => { g with state := .degraded, lostSlot := slot }
  | .degraded => if g.lostSlot == slot then g else { g with state := .lost }
  | .lost => g

/-- End the rebuild that runs here (R552, R553). -/
def State.endRebuild (s : State) (result : Nat) : State :=
  let s := (s.put CRN_REBUILD_STATUS_RESULT 0 result).put CRN_REBUILD_DONE 0 1
  { s.put CRN_REBUILD_BUSY 0 0 with rebuild := none }

/-- A held group changes to a new record, in the copy and in memory; a rebuild ends when its group becomes LOST (R553). -/
def State.changeGroup (s : State) (g : Nat) (r : Group) : State :=
  let s := { (s.putGroup g r).writeGroup g r with pod := { s.pod with muted := s.pod.muted.erase g } }
  let s := if r.state == .lost then { s with rebuilding := s.rebuilding.erase g }.loseParts g else s
  match s.rebuild with
  | some b => if b.group == g && r.state == .lost then s.endRebuild 3 else s
  | none => s

/-- A slot of a group is lost. -/
def State.loseSlot (s : State) (g slot : Nat) : State :=
  if (s.group g).held then
    let r := (s.group g).loses slot
    if r == s.group g then s else s.changeGroup g r
  else s

/-- The error record of a peer's loss (Table 13.3): severity 2. DESIGN CHOICE (log 34). -/
def State.peerRecord (s : State) (source device : Nat) : State :=
  let gen := s.get QUY_POD_GEN_GENERATION 0
  let e := mkErr s 2 0x11 source device 0 none [gen % 256, gen / 256 % 256, gen / 65536 % 256, gen / 16777216 % 256]
  { s with salvor := s.salvor.count e none }.logError e

/-- Slots of a group that a device holds. -/
def Group.slotsOf (g : Group) (d : Nat) : List Nat := (g.slots.zipIdx.filter fun x => x.1 == d).map (·.2)

/-- Undecided consignments in which a device has a part have lost a voter (Table 08.9). -/
def State.loseVoter (s : State) (d : Nat) : State :=
  { s with votes := s.votes.map fun (b : VoteBox) =>
    if b.outcome.isNone && ((b.votes.any fun v => v.sender == d) ||
        (s.groupMembers ((b.votes.head?.map (·.group)).getD 0)).contains d) then { b with lost := true } else b }

/-- A collective channel fails (R519). -/
def State.failColl (s : State) (c device : Nat) : State :=
  let s := s.putBitAt QUY_COLL_STATUS_HI_FAILED 0 c true
  match Tab.find c s.colls with
  | some x => { s with colls := Tab.insert c { x with running := false } s.colls }.peerRecord 1 device
  | none => s

/-- A channel has failed and has not been enabled again. -/
def State.collFailed (s : State) (c : Nat) : Bool := s.bitAt QUY_COLL_STATUS_HI_FAILED 0 c

/-- Channels whose running round a lost device belongs to. -/
def State.collsOf (s : State) (d : Nat) : List Nat :=
  (s.colls.filter fun e => e.2.running && e.2.tree.contains d && !s.collFailed e.1).map (·.1)

/-- Remove a device from everything this device keeps of the pod, and let its groups change state (R506). -/
def State.dropDevice (s : State) (d : Nat) : State :=
  let s := s.peerRecord 1 d
  let s := (s.groups.flatMap fun e => (e.2.slotsOf d).map fun k => (e.1, k)).foldl (fun t p => t.loseSlot p.1 p.2) s
  let s := (s.loseVoter d)
  let s := { s with
    routes := Tab.erase d s.routes, unacked := s.unacked.filter fun m => m.dst != d,
    remoteHolds := s.remoteHolds.filter fun h => h.device != d,
    pod := { s.pod with members := s.pod.members.filter fun m => m != d, standbys := s.pod.standbys.filter fun m => m != d,
                        links := s.pod.links.filter fun l => l.dev != d && l.peer != d } }
  let s := (s.collsOf d).foldl (fun t c => t.failColl c d) s
  let s := if s.isMaster then (s.decisions.map fun l => l.dec.cons).foldl (fun t c => t.noticeAcked c d) s else s
  let s := if s.hasStandby && s.get QUY_POD_SIZE_STANDBY 0 == d then s.nameStandby (if s.isMaster then s.nextStandby else none) else s
  if s.podMaster == d && !s.hasStandby then { s with pod := { s.pod with leaderless := true } } else s

/-- Add an admitted device to the pod (R503). -/
def State.addDevice (s : State) (r : JoinRequest) : State :=
  let s := s.meet [r.device]
  let s := { s with pod := { s.pod with members := s.pod.members ++ [r.device], links := s.pod.links ++ r.links,
                                        standbys := if r.standbyOk then s.pod.standbys ++ [r.device] else s.pod.standbys } }
  if r.standby && !s.hasStandby then s.nameStandby (some r.device) else s

/-- Losses of slots that were notified (R547). -/
def State.applySlotLosses (s : State) : State :=
  let l := s.pod.slotLosses
  let s := { s with pod := { s.pod with slotLosses := [] } }
  l.foldl (fun t p => (t.peerRecord 2 p.1).loseSlot p.2.1 p.2.2) s

/-- Slots that a spare takes over (R552); the rebuild of this spare is done. -/
def State.applyReplaces (s : State) : State :=
  let l := s.pod.replaces
  let s := { s with pod := { s.pod with replaces := [] } }
  l.foldl (fun t p =>
    let g := t.group p.1
    let t := if g.held && g.state == .degraded && g.lostSlot == p.2.1 then
        t.changeGroup p.1 { g with state := .normal, slots := g.slots.set p.2.1 p.2.2 } else t
    let t := { t with rebuilding := t.rebuilding.erase p.1 }
    match t.rebuild with
    | some b => if b.group == p.1 && p.2.2 == t.me then t.endRebuild 1 else t
    | none => t) s

/-- Give the tree its new order when the devices have changed; the tree before is kept for one tide (R511). -/
def State.applyTree (s : State) : State :=
  let tree := treeOrder s.podMaster s.pod.members
  let s := if tree == s.pod.tree then (if s.tide > s.pod.treeTide then { s with pod := { s.pod with prevTree := [] } } else s)
    else { s with pod := { s.pod with tree := tree, prevTree := s.pod.tree, treeTide := s.tide } }
  (s.put QUY_POD_SIZE_DEVICES 0 s.pod.tree.length).put QUY_POD_SIZE_LEVELS 0 (levelsOf s.pod.tree.length)

/-- Quays whose stop waits for the boundary stop (R500). -/
def State.applyStops (s : State) : State :=
  ((List.range 16).filter fun q => (s.quay q).stopping).foldl (fun t q => t.quayStopped q) s

/-- Everything of the pod that applies at a boundary. -/
def State.applyPod (s : State) : State :=
  let s := s.applyStops
  if !s.inPod then s
  else
    let gone := s.pod.leaving
    let new := s.pod.arriving
    let s := { s with pod := { s.pod with leaving := [], arriving := [] } }
    let s := gone.foldl (fun t d => t.dropDevice d) s
    let s := new.foldl (fun t r => t.addDevice r) s
    let s := (s.applySlotLosses).applyReplaces
    let s := s.applyTree
    if s.pod.reroute && s.isMaster then { s.reroute with pod := { s.reroute.pod with reroute := false } }
    else { s with pod := { s.pod with reroute := false } }

/-- Heartbeats to the link peers and the tree parent, a delay probe over each quay, and the pod master's time marker to its children
(R505, R512). -/
def State.heartbeats (s : State) : State :=
  if !s.inPod || s.pod.withdrawn then s
  else
    let dst := (s.linkPeers ++ (parentIn s.pod.tree s.me).toList).dedup.filter fun d => d != s.me
    let s := s.sendAll (dst.map fun d => Msg.net d 0 (.heartbeat s.me s.tide (s.get QUY_POD_GEN_GENERATION 0)))
    let s := s.sendAll (((List.range 16).filter fun q => s.quayUp q).map fun q => Msg.net (s.linkPeer q) 0 (.delayProbe q))
    if s.isMaster then s.sendAll ((childrenIn s.pod.tree s.me).map fun c => Msg.net c 0 (.marker s.tide 0)) else s

end Sys2Proof.Machine
end

