-- ==== Sys2Proof/Machine/Collect.lean ====
section
/-! DEFINITION. The collective engine and snapshots (12): channels, rounds over a tree, reductions, and the cut of the pod. -/

namespace Sys2Proof.Machine

/-! ### Channel entries (Table 12.7, R515) -/

/-- The operations of Table 12.8. -/
def collBarrier : Nat := 1
def collBroadcast : Nat := 2
def collReduce : Nat := 3
def collAll : Nat := 4

/-- A channel entry's fields; its device list is read apart. -/
def collEntryOf (bs : List Byte) : CollEntry :=
  { op := byteAt bs 0, scope := byteAt bs 1, group := fieldOf bs 2 2, root := fieldOf bs 4 2, dtype := byteAt bs 6,
    gate := fieldOf bs 8 8, mask := fieldOf bs 16 8, done := fieldOf bs 24 8, doneBit := byteAt bs 32, bytes := fieldOf bs 36 4,
    src := fieldOf bs 40 8, dst := fieldOf bs 48 8, list := [] }

/-- The entry holds no reserved encoding. -/
def collEntryOk (bs : List Byte) : Bool :=
  let e := collEntryOf bs
  let reduces := e.op == collReduce || e.op == collAll
  decide (1 ≤ e.op ∧ e.op ≤ 4) && decide (e.scope ≤ 2) && (e.scope != 1 || decide (e.group < 1024)) &&
  (e.scope != 2 || decide (2 ≤ e.group ∧ e.group ≤ 64)) && decide (e.root < 4096) && (!reduces || decide (e.dtype ≤ 3)) &&
  byteAt bs 7 == 0 && zeroAt bs 33 3 && addrOk bs 8 8 && e.mask != 0 && addrOk bs 24 8 && decide (e.doneBit < 64) &&
  (if e.op == collBarrier then e.bytes == 0 else e.bytes % 4 == 0 && decide (4 ≤ e.bytes ∧ e.bytes ≤ 65536)) &&
  addrOk bs 40 1 && addrOk bs 48 1 && addrOk bs 56 1

/-- The entry of a channel with its list: none where it is refused or cannot be read. An unreadable entry counts as refused.
DESIGN CHOICE (log 37). -/
def State.collEntry (s : State) (c : Nat) : Option CollEntry :=
  match s.read {} (s.get QUY_COLL_DIR_BASE 0 + 64 * c) 64 with
  | .error _ => none
  | .ok (bs, s) =>
    let e := collEntryOf bs
    if !collEntryOk bs || !s.barrierOk e.gate || !s.barrierOk e.done then none
    else if e.scope == 2 then
      match s.read {} (fieldOf bs 56 8) (2 * e.group) with
      | .error _ => none
      | .ok (ls, _) => some { e with list := (List.range e.group).map fun i => fieldOf ls (2 * i) 2 % 4096 }
    else some e

/-- The devices of a scope in tree order: the pod tree, or a tree rooted at the lowest device number (R517). -/
def State.scopeTree (s : State) (e : CollEntry) : List Nat :=
  if e.scope == 0 then s.pod.tree
  else if e.scope == 1 then sortNat ((s.groupRecord e.group).map fun g => g.slots.dedup).toList.flatten
  else sortNat e.list.dedup

/-- Channel c in use. -/
def State.coll (s : State) (c : Nat) : Option Coll := Tab.find c s.colls
def State.putColl (s : State) (c : Nat) (x : Coll) : State := { s with colls := Tab.insert c x s.colls }

/-- Set a channel's bit in `QUY_COLL_EN`: its entry is read and checked. -/
def State.collEnable (s : State) (c : Nat) : State :=
  match s.coll c with
  | some x => (s.putColl c { x with disabling := false }).putBitAt QUY_COLL_EN_ENABLE 0 c true
  | none =>
    match s.collEntry c with
    | none => (s.putBitAt QUY_COLL_EN_ENABLE 0 c false).putBitAt QUY_COLL_STATUS_LO_BAD 0 c true
    | some e =>
      let s := ((s.putBitAt QUY_COLL_EN_ENABLE 0 c true).putBitAt QUY_COLL_STATUS_LO_BAD 0 c false).putBitAt QUY_COLL_STATUS_HI_FAILED 0 c false
      s.putColl c ⟨e, 0, false, false, false, [], [], s.scopeTree e⟩

/-- COLLECTIVE_CHANNEL_ENABLE (R515). -/
def execCollectiveChannelEnable (channel : Nat) (s : State) : Host.Outcome State Fault Refusal :=
  if channel < 64 then ok (s.hostDo fun t => t.collEnable channel) else ok s

/-- Clear a channel's bit: it is disabled at once, or when its round in progress ends. -/
def State.collDisable (s : State) (c : Nat) : State :=
  let s := s.putBitAt QUY_COLL_EN_ENABLE 0 c false
  match s.coll c with
  | some x => if x.running then s.putColl c { x with disabling := true } else { s with colls := Tab.erase c s.colls }
  | none => s

/-- COLLECTIVE_CHANNEL_DISABLE (R515). -/
def execCollectiveChannelDisable (channel : Nat) (s : State) : Host.Outcome State Fault Refusal :=
  if channel < 64 then ok (s.hostDo fun t => t.collDisable channel) else ok s

/-! ### Combining (R518) -/

/-- The larger of two FP32 values. -/
def max32 (a b : Nat) : Nat :=
  let (x, y) := (f32 a, f32 b)
  if x.isNaN || y.isNaN || (a % 2 ^ 31 == 0 && b % 2 ^ 31 == 0 && a != b) then Config.collMax a b % 2 ^ 32
  else if y.gt x then b else a

/-- One 4 B element of two contributions combined; a 64-bit OR is an OR of its halves. -/
def combineWord (dtype a b : Nat) : Nat :=
  match dtype with
  | 0 => add32 a b
  | 1 => max32 a b
  | 2 => (a + b) % 2 ^ 32
  | _ => a ||| b

/-- Two contributions combined, element by element. -/
def combine (dtype : Nat) (a b : List Byte) : List Byte :=
  (List.range (a.length / 4)).flatMap fun i => leBytes 4 (combineWord dtype (fieldOf a (4 * i) 4) (fieldOf b (4 * i) 4))

/-! ### Rounds (R516, R517) -/

/-- What a device has contributed to a round. -/
def Coll.from' (x : Coll) (round d : Nat) : Option (List Byte) :=
  (x.heard.find? fun h => h.1 == round && h.2.1 == d).map (·.2.2)

/-- The result of a round, once it is here. -/
def Coll.result (x : Coll) (round : Nat) : Option (List Byte) := (x.results.find? fun r => r.1 == round).map (·.2)

/-- Keep a contribution, once for each round and device. -/
def Coll.hear (x : Coll) (round d : Nat) (data : List Byte) : Coll :=
  if (x.from' round d).isSome then x else { x with heard := x.heard ++ [(round, d, data)] }

/-- Keep a round's result. -/
def Coll.take (x : Coll) (round : Nat) (data : List Byte) : Coll :=
  if (x.result round).isSome then x else { x with results := x.results ++ [(round, data)] }

/-- Send a round's result to devices. -/
def State.sendDown (s : State) (c round : Nat) (data : List Byte) (ds : List Nat) : State :=
  ds.foldl (fun t d => t.sendVc0 d (.collDown c round data)) s

/-- The neighbours of this device in a tree. -/
def State.around (s : State) (tree : List Nat) : List Nat := (parentIn tree s.me).toList ++ childrenIn tree s.me

/-- The combined value at this node: its own contribution first, then its children's in ascending position (R518); none while one
is missing. -/
def State.combined (s : State) (x : Coll) : Option (List Byte) :=
  match x.from' x.round s.me with
  | none => none
  | some own => (childrenIn x.tree s.me).foldl (fun acc k =>
      match acc, x.from' x.round k with
      | some a, some b => some (if x.entry.op == collBarrier then [] else combine x.entry.dtype a b)
      | _, _ => none) (some own)

/-- At the root of the tree, everything is combined. -/
def State.atRoot (s : State) (c : Nat) (x : Coll) (v : List Byte) : State :=
  if x.entry.op == collReduce && x.entry.root != s.me then s.sendVc0 x.entry.root (.collDown c x.round v)
  else
    let s := s.putColl c (x.take x.round v)
    if x.entry.op == collReduce then s else s.sendDown c x.round v (childrenIn x.tree s.me)

/-- Send this node's part of the running round up the tree once it is complete. -/
def State.collAdvance (s : State) (c : Nat) : State :=
  match s.coll c with
  | none => s
  | some x =>
    if !x.running || x.sent || x.entry.op == collBroadcast then s
    else match s.combined x with
      | none => s
      | some v =>
        let x := { x with sent := true, heard := x.heard.filter fun h => h.1 != x.round }
        let s := s.putColl c x
        match parentIn x.tree s.me with
        | some p => s.sendVc0 p (.collUp c x.round s.me v)
        | none => s.atRoot c x v

/-- This device's contribution to a round. -/
def State.contribution (s : State) (e : CollEntry) : Except AccErr (List Byte × State) :=
  if e.op == collBarrier || (e.op == collBroadcast && e.root != s.me) then .ok ([], s) else s.read {} e.src e.bytes

/-- Open a round with this device's contribution (R516). -/
def State.openRound (s : State) (c : Nat) (x : Coll) (data : List Byte) : State :=
  let x := { x with running := true, sent := false, tree := s.scopeTree x.entry }
  if x.entry.op == collBroadcast then
    let x := { x with sent := true }
    if x.entry.root == s.me then (s.putColl c (x.take x.round data)).sendDown c x.round data (s.around x.tree) else s.putColl c x
  else (s.putColl c (x.hear x.round s.me data)).collAdvance c

/-- The bits of a gate word that the mask names are all set. -/
def gateMet (e : CollEntry) (bs : List Byte) : Bool := leNat bs &&& e.mask == e.mask

/-- Open a round whose gate is met: the contribution is read, and the gate's bits are cleared. -/
def State.takeGate (s : State) (c : Nat) (x : Coll) : State :=
  match s.contribution x.entry with
  | .error (.memory a) => s.memError a none
  | .error _ => s
  | .ok (data, s) =>
    match s.barrierWrite {} 2 x.entry.gate x.entry.mask with
    | .ok s => s.openRound c x data
    | .error _ => s

/-- The gate word of a channel is read; where its mask bits are all set they are cleared through the bit-clear alias and a round
opens. A failed access opens none. DESIGN CHOICE (log 37). -/
def State.tryOpen (s : State) (c : Nat) (x : Coll) : State :=
  match s.read {} x.entry.gate 8 with
  | .error (.memory a) => s.memError a none
  | .error _ => s
  | .ok (bs, s) => if gateMet x.entry bs then s.takeGate c x else s

/-- COLLECTIVE_ROUND_OPEN (R516). -/
def execCollectiveRoundOpen (channel : Nat) (s : State) : Host.Outcome State Fault Refusal :=
  match s.coll channel with
  | some x =>
    if s.live && s.inPod && s.bitAt QUY_COLL_EN_ENABLE 0 channel && !x.running && !s.collFailed channel then ok (s.tryOpen channel x)
    else ok s
  | none => ok s

/-- A message repeats one of a round that has ended here, or a contribution that has gone up: receivers drop repeats (Table 12.4). -/
def Coll.repeats (x : Coll) (round : Nat) (down : Bool) : Bool :=
  decide ((round + 65536 - x.round) % 65536 ≥ 32768) || (!down && x.running && x.sent && round == x.round)

/-- The tree of a round: that of its start, and the present one for a round not yet open here (R511). -/
def State.roundTree (s : State) (x : Coll) (round : Nat) : List Nat :=
  if x.running && round == x.round then x.tree else s.scopeTree x.entry

/-- A collective message arrives: a child's contribution, or a result on its way down (R517, R518). -/
def State.collMessage (s : State) (c : Nat) (x : Coll) (round device : Nat) (down : Bool) (data : List Byte) : State :=
  if x.repeats round down then s
  else if down then
    let tree := s.roundTree x round
    let s := s.putColl c (x.take round data)
    let on' := if x.entry.op == collReduce then [] else if x.entry.op == collBroadcast then (s.around tree).filter fun d => d != device
      else childrenIn tree s.me
    if (x.result round).isSome then s else s.sendDown c round data on'
  else (s.putColl c (x.hear round device data)).collAdvance c

/-- COLLECTIVE_MESSAGE (R517 to R519): `agrees` says whether the sender's entry is the same apart from addresses. -/
def execCollectiveMessage (channel round device : Nat) (down agrees : Bool) (data : List Byte) (s : State) :
    Host.Outcome State Fault Refusal :=
  match s.coll channel with
  | some x =>
    if !(s.live && s.inPod) || s.collFailed channel then ok s
    else if !agrees then ok (s.failColl channel device)
    else ok (s.collMessage channel x (round % 65536) device down data)
  | none => ok s

/-- The running round is complete on this device (Table 12.8). -/
def State.roundComplete (s : State) (x : Coll) : Bool :=
  x.running && (if x.entry.op == collReduce && x.entry.root != s.me then x.sent else (x.result x.round).isSome)

/-- The result that this device writes, none for a barrier and away from the root of a REDUCE. -/
def State.resultHere (s : State) (x : Coll) : Option (List Byte) :=
  if x.entry.op == collBarrier || (x.entry.op == collReduce && x.entry.root != s.me) then none else x.result x.round

/-- Write the result of a round where this device has one, and its done bit (R517). -/
def State.writeResult (s : State) (x : Coll) : Except AccErr State :=
  match s.resultHere x with
  | some bs => s.write {} x.entry.dst bs
  | none => .ok s
def State.deliverResult (s : State) (x : Coll) : State :=
  match s.writeResult x with
  | .ok t => (match t.barrierWrite {} 1 x.entry.done (2 ^ x.entry.doneBit) with | .ok u => u | .error _ => t)
  | .error (.memory a) => s.memError a none
  | .error _ => s

/-- A round ends on this device: the result is written at `DST_ADDR`, then `DONE_BIT` is set through the bit-set alias (R516). -/
def State.endRound (s : State) (c : Nat) (x : Coll) : State :=
  let s := s.deliverResult x
  let y := { x with running := false, sent := false, round := (x.round + 1) % 65536, results := x.results.filter fun r => r.1 != x.round }
  if x.disabling then { s with colls := Tab.erase c s.colls } else s.putColl c y

/-- COLLECTIVE_ROUND_COMPLETE (R516, R517). -/
def execCollectiveRoundComplete (channel : Nat) (s : State) : Host.Outcome State Fault Refusal :=
  match s.coll channel with
  | some x => if s.live && !s.collFailed channel && s.roundComplete x then ok (s.endRound channel x) else ok s
  | none => ok s

/-! ### Snapshots (R521) -/

/-- Quays that are UP, a bit each. -/
def State.upMask (s : State) : Nat := ((List.range 16).map fun q => b2n (s.quayUp q) * 2 ^ q).sum

/-- The device's (table, epoch) pairs in ascending table order. -/
def State.epochPairs (s : State) : List Byte :=
  (s.tables.filter fun e => e.2.enabled).flatMap fun e => leBytes 4 e.1 ++ leBytes 4 e.2.epoch

/-- The snapshot record of this device (Table 12.11). -/
def State.snapBytes (s : State) : List Byte :=
  leBytes 8 s.tide ++ leBytes 2 s.me ++ leBytes 2 s.upMask ++ leBytes 4 (s.get QUY_POD_GEN_GENERATION 0) ++
  leBytes 4 (Config.crc32 s.epochPairs).toNat ++ leBytes 4 s.conss.length ++ leBytes 8 s.admitted ++
  ((List.range 8).flatMap fun i => leBytes 4 (s.get HMR_SAT_COUNTS_TIDES i)) ++ List.replicate 192 0

/-- The record of a device that sent none. -/
def noRecord (tide d : Nat) : List Byte := leBytes 8 tide ++ leBytes 2 (d + 0x8000) ++ List.replicate 246 0

/-- A refused request. -/
def State.snapLate (s : State) : State := (s.put QUY_SNAP_CTL_HI_LATE 0 1).put QUY_SNAP_CTL_HI_DONE 0 1

/-- A request reaches this device: its cut is kept, or refused when its tide has passed. -/
def State.snapArrives (s : State) (cut dest : Nat) : State :=
  if cut ≤ s.tide then s.snapLate else { s with pod := { s.pod with cuts := s.pod.cuts ++ [(cut, dest)] } }

/-- The destination lies in HBM or the warehouse, aligned to 256 B. -/
def snapDest (d : Nat) : Bool := d % 256 == 0 && (decide (d < 0x10000000000) || (decide (whsBase ≤ d) && decide (d < whsBase + whsBytes)))

/-- The pod master's firmware asks for a snapshot. -/
def State.snapRequest (s : State) (cut dest : Nat) : State :=
  let s := (s.put QUY_SNAP_CTL_LO_CUT_TIDE 0 cut).put QUY_SNAP_CTL_HI_DEST 0 dest
  if !s.inPod || !s.isMaster || s.pod.leaderless || s.pod.snapshot.isSome || !snapDest dest then s
  else if cut ≤ s.tide then s.snapLate
  else ({ s with pod := { s.pod with snapshot := some ⟨cut, dest, none⟩ } }.snapArrives cut dest).send (.broadcast (.snapRequest cut))

/-- SNAPSHOT_REQUEST (R521): on the pod master its firmware's write, on another device the broadcast. -/
def execSnapshotRequest (cut dest : Nat) (s : State) : Host.Outcome State Fault Refusal :=
  if s.isMaster then ok (s.hostDo fun t => t.snapRequest cut dest)
  else if s.live && s.inPod then ok (s.snapArrives cut dest)
  else ok s

/-- Step 4 of a boundary: a requested snapshot is cut; its record goes up the tree, or stays at the pod master. -/
def State.snapCut (s : State) : State :=
  if s.pod.cuts.any fun c => c.1 == s.tide then
    let bs := s.snapBytes
    let s := { s with pod := { s.pod with cuts := s.pod.cuts.filter fun c => c.1 != s.tide } }
    match s.pod.snapshot with
    | some n => if s.isMaster then { s with pod := { s.pod with snapshot := some { n with own := some bs } } } else s
    | none => match parentIn s.pod.tree s.me with
      | some p => s.sendVc0 p (.snapRecord s.me bs)
      | none => s
  else s

/-- Write the records in ascending device number. -/
def State.writeRecords (s : State) (dest : Nat) : List (List Byte) → State
  | [] => s
  | r :: t => State.writeRecords (s.devWrite dest r) (dest + 256) t

/-- The record of a device in a snapshot, from those that came up the tree. -/
def Snapshot.recordOf (n : Snapshot) (me d : Nat) (records : List (Nat × List Byte)) : List Byte :=
  let r := if d == me then n.own else (records.find? fun x => x.1 == d).map (·.2)
  match r with
  | some bs => (bs ++ List.replicate 256 0).take 256
  | none => noRecord n.cut d

/-- SNAPSHOT_RECORDS_WRITTEN (R521): the combined records are written at the destination, and `DONE` is set. -/
def execSnapshotRecordsWritten (records : List (Nat × List Byte)) (s : State) : Host.Outcome State Fault Refusal :=
  match s.pod.snapshot with
  | none => ok s
  | some n =>
    if s.live && s.isMaster && n.own.isSome then
      let t := s.writeRecords n.dest ((sortNat s.pod.members).map fun d => n.recordOf s.me d records)
      ok ({ t with pod := { t.pod with snapshot := none } }.put QUY_SNAP_CTL_HI_DONE 0 1)
    else ok s

end Sys2Proof.Machine
end

