-- ==== Sys2Proof/Machine/Host.lean ====
section
/-! DEFINITION. The host interface (11): fetching descriptors, doorbells, ring and event-ring states, interrupts, host windows
and the aperture. -/

namespace Sys2Proof.Machine

/-! ### Fetching (R462 to R465) -/

/-- Completion slots of a ring neither holding an unread record nor reserved (R464). -/
def State.freeSlots (s : State) (n : Nat) : Nat :=
  let r := s.ring n
  2 ^ s.get HST_RING_CFG_CQ_LOG2 n - (r.cqProd + 2 ^ 32 - r.cqCons) % 2 ^ 32 - r.reserved

/-- Descriptors that one read takes: at most 32, what is waiting, what fits before the ring's end, and what two reserved
completion slots each allow (R463, R464). -/
def State.fetchCount (s : State) (n : Nat) : Nat :=
  let r := s.ring n
  let size := 2 ^ s.get HST_RING_CFG_SQ_LOG2 n
  min (min 32 ((r.prod + 2 ^ 32 - r.next) % 2 ^ 32)) (min (size - r.next % size) (s.freeSlots n / 2))

/-- A ring can be read: it is RUNNING, its port sends, and something is to be fetched. -/
def State.canFetch (s : State) (n : Nat) : Bool :=
  (s.ring n).st == .running && s.portSends (s.get HST_RING_CFG_PORT n) && decide (s.fetchCount n > 0)

/-- It is a ring's turn: no ring that can be read stands before it, counted up from the one after the ring read last (R463).
DESIGN CHOICE (log 134). -/
def State.fetchTurn (s : State) (n : Nat) : Bool :=
  (List.range ((n + 256 - s.ringTurn) % 256)).all fun i => !s.canFetch ((s.ringTurn + i) % 256)

/-- Begin a descriptor read of a ring in its turn: reserve its slots and send the read. -/
def State.fetch (s : State) (n : Nat) : State :=
  let r := s.ring n
  let k := s.fetchCount n
  if s.live && s.canFetch n && s.fetchTurn n then
    { s.putRing n { r with reads := r.reads ++ [(r.next, k)], next := (r.next + k) % 2 ^ 32, reserved := r.reserved + 2 * k } with
      ringTurn := (n + 1) % 256 }.send (.descRead n r.next k)
  else s

/-- DESCRIPTOR_FETCH (R463, R464, R440, R446). -/
def execDescriptorFetch (ring : Nat) (s : State) : Host.Outcome State Fault Refusal := ok (s.fetch ring)

/-- The k descriptors from submission index i of a ring, as host memory holds them. -/
def State.descriptorsAt (s : State) (n i k : Nat) : List Fetched :=
  let size := 2 ^ s.get HST_RING_CFG_SQ_LOG2 n
  (List.range k).map fun d =>
    let q := (i + d) % 2 ^ 32
    ({ ring := n, desc := ⟨q, s.hostBytes (4096 * s.get HST_SQ_BASE_BASE n + 64 * (q % size)) 64⟩ } : Fetched)

/-- The oldest descriptor read of a ring returns. Its descriptors join those fetched; a failed read freezes the ring with
FETCH_ERROR and its descriptors are not taken (R465). A read that returns to a frozen ring is not taken either (R482). -/
def State.readReturned (s : State) (n : Nat) (good : Bool) : State :=
  let r := s.ring n
  match r.reads with
  | [] => s
  | (i, k) :: rest =>
    let r := { r with reads := rest }
    if r.st == .frozen then s.putRing n { r with reserved := r.reserved - 2 * k }
    else if good then
      let s := { s with fetched := s.fetched ++ s.descriptorsAt n i k }
      s.putRing n { r with cons := (r.cons + k) % 2 ^ 32 }
    else (s.putRing n { r with reserved := r.reserved - 2 * k }).freezeRing n 3

/-- DESCRIPTOR_READ_COMPLETE (R465). -/
def execDescriptorReadComplete (ring : Nat) (good : Bool) (s : State) : Host.Outcome State Fault Refusal :=
  if s.live then ok (s.readReturned ring good) else ok s

/-! ### Interrupts (R478 to R480) -/

/-- INTERRUPT_COALESCE_TIMEOUT (R479): `COALESCE_US` have passed since the first unsignalled record. -/
def execInterruptCoalesceTimeout (ring : Nat) (s : State) : Host.Outcome State Fault Refusal :=
  if (s.ring ring).unsignalled > 0 && s.flag HST_RING_CFG_COALESCE_US ring then
    ok ((s.putRing ring { s.ring ring with unsignalled := 0 }).ringIrq ring)
  else ok s

/-- Write a dword of the MSI-X table; clearing a vector's mask sends its pending interrupt (R480). -/
def State.msixWrite (s : State) (port dword v : Nat) : State :=
  let t := { s with msix := Tab.insert (2048 * port + dword) v s.msix }
  if dword % 4 == 3 && !bit v 0 && Tab.get (fun _ => false) t.msixPend (port * 512 + dword / 4) && t.portSends port then
    { t with msixPend := Tab.erase (port * 512 + dword / 4) t.msixPend }.irq port (dword / 4)
  else t

/-- MSIX_UNMASK (R480). -/
def execMsixUnmask (port vector : Nat) (s : State) : Host.Outcome State Fault Refusal :=
  if port < 2 && vector < 512 then
    ok (s.hostDo fun t => t.msixWrite port (4 * vector + 3) (putBit (t.msixDword (2048 * port + 4 * vector + 3)) 0 false))
  else ok s

/-- Everything that waits for a port to send again: records, interrupts, event records and unmasked pending interrupts. -/
def State.flushPort (s : State) (p : Nat) : State :=
  let s := (List.range 256).foldl (fun t n => if t.get HST_RING_CFG_PORT n == p then t.flushRing n else t) s
  let due := s.msixPend.filter fun e => decide (e.1 / 512 = p) && !s.masked p (e.1 % 512)
  let s := if s.portSends p then
      due.foldl (fun t e => { t with msixPend := Tab.erase e.1 t.msixPend }.irq p (e.1 % 512)) s
    else s
  s.flushEvents

/-! ### Doorbells (R457 to R461, R474) -/

/-- A ring's page takes doorbells: the ring is RUNNING (R461). -/
def State.ringRuns (s : State) (n : Nat) : Bool := (s.ring n).st == .running

/-- Count a discarded BAR2 write (R458, R461). -/
def State.badWrite (s : State) : State := s.inc HST_DB_STATUS_BAD_WRITES 0 1

/-- A write of P to `SQ_PRODUCER` is valid (R459). -/
def State.sqValid (s : State) (n p : Nat) : Bool :=
  let r := s.ring n
  decide ((p + 2 ^ 32 - r.cons) % 2 ^ 32 ≤ 2 ^ s.get HST_RING_CFG_SQ_LOG2 n) && decide ((p + 2 ^ 32 - r.prod) % 2 ^ 32 < 2 ^ 31)

/-- A write of Q to a completion consumer is valid against the producer and the last valid consumer (R460). -/
def cqValid (prod old q : Nat) : Bool :=
  decide ((q + 2 ^ 32 - old) % 2 ^ 32 < 2 ^ 31) && decide ((prod + 2 ^ 32 - q) % 2 ^ 32 < 2 ^ 31)

/-- A write to `SQ_PRODUCER` of ring n. -/
def State.sqDoorbell (s : State) (n p : Nat) : State :=
  if !s.ringRuns n then s.badWrite
  else if s.sqValid n p then s.putRing n { s.ring n with prod := p }
  else s.freezeRing n 1

/-- A write to `CQ_CONSUMER` of ring n. -/
def State.cqDoorbell (s : State) (n q : Nat) : State :=
  let r := s.ring n
  if !s.ringRuns n then s.badWrite
  else if cqValid r.cqProd r.cqCons q then s.putRing n { r with cqCons := q }
  else s.freezeRing n 2

/-- A write to the event ring's consumer (R474): a violation sets `OVERFLOW` and freezes nothing. -/
def State.evtDoorbell (s : State) (q : Nat) : State :=
  if cqValid s.evt.prod s.evt.cons q then { s with evt := { s.evt with cons := q } }.flushEvents
  else s.put HST_EVT_STATUS_OVERFLOW 0 1

/-- SQ_PRODUCER (R459, R461). Ring n's page exists for n below 256. -/
def execSqProducer (ring value : Nat) (s : State) : Host.Outcome State Fault Refusal :=
  if ring < 256 then ok (s.hostDo fun t => t.sqDoorbell ring (value % 2 ^ 32)) else ok s

/-- CQ_CONSUMER (R460, R461). -/
def execCqConsumer (ring value : Nat) (s : State) : Host.Outcome State Fault Refusal :=
  if ring < 256 then ok (s.hostDo fun t => t.cqDoorbell ring (value % 2 ^ 32)) else ok s

/-- EVENT_RING_CONSUMER (R474). -/
def execEventRingConsumer (value : Nat) (s : State) : Host.Outcome State Fault Refusal :=
  ok (s.hostDo fun t => t.evtDoorbell (value % 2 ^ 32))

/-- BAR2_BAD_WRITE (R458): a write that is not an aligned one of 4 B is discarded and counted. -/
def execBar2BadWrite (offset size : Nat) (s : State) : Host.Outcome State Fault Refusal :=
  ok (s.hostDo fun t => if size == 4 && offset % 4 == 0 then t else t.badWrite)

/-! ### Ring states (R443, R481 to R483) -/

/-- Start a STOPPED ring, unless R443 holds it back. Its four indices restart at 0 (R457). -/
def State.ringStart (s : State) (n : Nat) : State :=
  let s := s.put HST_RING_CTL_ENABLE n 1
  if (s.ring n).st != .stopped then s
  else if s.flag CUS_STATUS_IDE_REQUIRED 0 && !s.flag HST_PORT_STATUS_IDE_SECURE (s.get HST_RING_CFG_PORT n) then
    s.put HST_RING_STATUS_IDE_BLOCKED n 1
  else s.putRing n { st := .running, enabled := true, overKiln := (s.ring n).overKiln, overHearth := (s.ring n).overHearth }

/-- Clear `ENABLE` of a ring. -/
def State.ringStop (s : State) (n : Nat) : State :=
  let s := s.put HST_RING_CTL_ENABLE n 0
  let r := s.ring n
  if r.st == .running then s.putRing n { r with st := .stopping, enabled := false } else s

/-- RING_ENABLE (R481, R443). -/
def execRingEnable (ring : Nat) (s : State) : Host.Outcome State Fault Refusal :=
  if ring < 256 then ok (s.hostDo fun t => t.ringStart ring) else ok s

/-- RING_DISABLE (R481). -/
def execRingDisable (ring : Nat) (s : State) : Host.Outcome State Fault Refusal :=
  if ring < 256 then ok (s.hostDo fun t => t.ringStop ring) else ok s

/-- References of jobs whose records wait for the port. -/
def Ring.waitingRefs (r : Ring) : List Nat :=
  ((r.waiting.filter fun w => [1, 3, 4, 5].contains ((w.1.getD 0 0).toNat % 128)).map fun w => fieldOf w.1 4 4).dedup

/-- `ACTIVE_JOBS`: admitted jobs of a ring whose records are not all written. -/
def State.activeJobs (s : State) (n : Nat) : Nat :=
  let js := s.jobs.filter fun j => j.ring == n
  js.length + ((s.ring n).waitingRefs.filter fun f => !(js.any fun j => j.jobRef == f)).length

/-- Descriptors of a ring fetched and not yet tested. -/
def State.fetchedOf (s : State) (n : Nat) : List Fetched := s.fetched.filter fun f => f.ring == n

/-- Nothing of the ring is outstanding: no admitted job, no record to write, no descriptor to test. DESIGN CHOICE (log 139). -/
def State.ringQuiet (s : State) (n : Nat) : Bool :=
  s.activeJobs n == 0 && (s.ring n).waiting.isEmpty && (s.fetchedOf n).isEmpty && (s.ring n).reads.isEmpty

/-- A ring enters STOPPED with its indices at 0 and nothing reserved (R481). -/
def State.ringStopped (s : State) (n : Nat) : State :=
  s.putRing n { overKiln := (s.ring n).overKiln, overHearth := (s.ring n).overHearth }

/-- A frozen ring enters STOPPED (R483): descriptors not yet fetched are discarded, indices and reservations cleared, and
`ENABLE`, `FREEZE_CAUSE`, `RESET_PENDING` and `DEBT_NS` cleared. -/
def State.ringReset (s : State) (n : Nat) : State :=
  let s := (s.putRing n {}).put HST_RING_CTL_ENABLE n 0
  ((s.put HST_RING_STATUS_FREEZE_CAUSE n 0).put HST_RING_STATUS_RESET_PENDING n 0).put HMR_RING_STATE_DEBT_NS n 0

/-- A write of `HMR_FREEZE_RESET` for a ring (R483): at once when no admitted job has records to write, else pending. -/
def State.ringFreezeReset (s : State) (n : Nat) : State :=
  if (s.ring n).st != .frozen then s
  else if s.ringQuiet n then s.ringReset n
  else s.put HST_RING_STATUS_RESET_PENDING n 1

/-- RING_STOPPED (R481, R483): the last record is written, and the stop or the freeze reset that waits for it ends. -/
def execRingStopped (ring : Nat) (s : State) : Host.Outcome State Fault Refusal :=
  if !s.ringQuiet ring then ok s
  else if (s.ring ring).st == .stopping then ok (s.ringStopped ring)
  else if (s.ring ring).st == .frozen && s.flag HST_RING_STATUS_RESET_PENDING ring then ok (s.ringReset ring)
  else ok s

/-- FREEZE_RESET_RING (R483, R424). -/
def execFreezeResetRing (ring : Nat) (s : State) : Host.Outcome State Fault Refusal :=
  if ring < 256 then ok (s.hostDo fun t => t.ringFreezeReset ring) else ok s

/-! ### The event ring (R474, R475) -/

/-- Start the event ring with its indices at 0; queued records are written. -/
def State.evtStart (s : State) : State :=
  if s.flag HST_EVT_CTL_ENABLE 0 then s
  else
    let s := (s.put HST_EVT_CTL_ENABLE 0 1).put HST_EVT_CTL_STOPPED 0 0
    { s with evt := { s.evt with prod := 0, cons := 0 } }.flushEvents

/-- Stop the event ring. -/
def State.evtStop (s : State) : State := (s.put HST_EVT_CTL_ENABLE 0 0).put HST_EVT_CTL_STOPPED 0 1

/-- EVENT_RING_ENABLE (R474). -/
def execEventRingEnable (s : State) : Host.Outcome State Fault Refusal := ok (s.hostDo fun t => t.evtStart)

/-- EVENT_RING_DISABLE (R474). -/
def execEventRingDisable (s : State) : Host.Outcome State Fault Refusal := ok (s.hostDo fun t => t.evtStop)

/-- A record cut or filled to its 64 bytes, with `PHASE` 0 for the device to set. -/
def eventBytes (bs : List Byte) : List Byte :=
  match (bs ++ List.replicate 64 0).take 64 with
  | [] => []
  | b :: t => (b &&& 0x7F) :: t

/-- EVENT_RECORD_WRITE (R474, R475, R478). -/
def execEventRecordWrite (record : List Byte) (s : State) : Host.Outcome State Fault Refusal :=
  ok (s.postEvent (eventBytes record))

/-! ### Host windows (R455) -/

/-- Forget the cached translations of a window entry, or of every one. -/
def State.winInval (s : State) (entry : Nat) (every : Bool) : State :=
  { s with winCache := if every then [] else s.winCache.filter fun e => e.2.entry != entry }

/-- WINDOW_INVALIDATE (R455). -/
def execWindowInvalidate (entry : Nat) (s : State) : Host.Outcome State Fault Refusal :=
  ok (s.hostDo fun t => t.winInval entry false)

/-- WINDOW_INVALIDATE_ALL (R455). -/
def execWindowInvalidateAll (s : State) : Host.Outcome State Fault Refusal := ok (s.hostDo fun t => t.winInval 0 true)

/-! ### The aperture (R449 to R452) -/

/-- APERTURE_MOVE (R452). -/
def execApertureMove (port base : Nat) (s : State) : Host.Outcome State Fault Refusal :=
  if port < 2 then ok (s.hostDo fun t => t.put HST_APERTURE_BASE port base) else ok s

/-- The aperture reaches an address range: HBM, the normal view of the warehouse, and the berth views while D2 or D3 is open
(R449). -/
def State.apertureReaches (s : State) (a : Nat) : Bool :=
  decide (a < 0x10000000000) || (decide (whsBase ≤ a) && decide (a < whsBase + whsBytes)) ||
  (s.debugDeep && decide (berthBase ≤ a) && decide (a < berthBase + 3 * viewStep))

/-- What an access through the aperture asks as: no class (R450), with the debug exception while it holds. -/
def State.apertureReq (s : State) : Req := { debug := s.debugDeep }

/-- Every piece of an aperture access is reached. -/
def State.apertureOk (s : State) (wr : Bool) (a n : Nat) : Bool :=
  ((piecesOf a n).all fun p => s.apertureReaches p.1) && (s.accessErr s.apertureReq wr a n).isNone

/-- A refused aperture access (R449). -/
def State.apertureBad (s : State) : State := s.inc HST_APERTURE_BAD_APERTURE_BAD 0 1

/-- A read through the aperture: its bytes, a poisoned response where a word is uncorrectable (R242), or Completer Abort. -/
def State.apertureGet (s : State) (port off n : Nat) : State :=
  let a := 2 ^ 32 * s.get HST_APERTURE_BASE port + off
  if !s.apertureOk false a n then s.apertureBad.send (.completerAbort port)
  else match s.read s.apertureReq a n with
    | .ok (bs, t) => t.send (.data port bs)
    | .error (.memory e) =>
      (s.memError e none).sendAll (((runsOf e.good).map fun g => .dataAt port g.1 g.2) ++ e.bad.map fun w => .poisoned w)
    | .error _ => s.apertureBad.send (.completerAbort port)

/-- A write through the aperture, or its discard (R449, R450). -/
def State.aperturePut (s : State) (port off : Nat) (bs : List Byte) : State :=
  let a := 2 ^ 32 * s.get HST_APERTURE_BASE port + off
  if !s.apertureOk true a bs.length then s.apertureBad
  else match s.write s.apertureReq a bs with
    | .ok t => t
    | .error (.memory e) => s.memError e none
    | .error _ => s.apertureBad

/-- APERTURE_READ (R449). The aperture shows 4 GiB. -/
def execApertureRead (port offset len : Nat) (s : State) : Host.Outcome State Fault Refusal :=
  if port < 2 && offset + len ≤ 2 ^ 32 then ok (s.hostDo fun t => t.apertureGet port offset len) else ok s

/-- APERTURE_WRITE (R449 to R451). -/
def execApertureWrite (port offset : Nat) (data : List Byte) (s : State) : Host.Outcome State Fault Refusal :=
  if port < 2 && offset + data.length ≤ 2 ^ 32 then ok (s.hostDo fun t => t.aperturePut port offset data) else ok s

/-- BAR0_BAD_ACCESS (R447): an access that is not an aligned one of 4 B or 8 B reads all ones, or is discarded. -/
def execBar0BadAccess (port offset size : Nat) (isRead : Bool) (s : State) : Host.Outcome State Fault Refusal :=
  ok (s.hostDo fun t =>
    if (size == 4 || size == 8) && offset % size == 0 then t else if isRead then t.send (.allOnes port) else t)

/-! ### Bus mastering and IDE (R444, R446) -/

/-- BUS_MASTER_ENABLE_CHANGE (R446): while 0 nothing is requested through the port; at 1 what waited is sent. -/
def execBusMasterEnableChange (port : Nat) (on : Bool) (s : State) : Host.Outcome State Fault Refusal :=
  if port < 2 then
    let t := s.put HST_PORT_STATUS_BME port (b2n on)
    ok (if on then t.flushPort port else t)
  else ok s

/-- RUNNING rings bound to a port. -/
def State.ringsOn (s : State) (p : Nat) : List Nat :=
  (List.range 256).filter fun n => s.get HST_RING_CFG_PORT n == p && s.ringRuns n

/-- A port's IDE stream leaves the Secure state: its running rings freeze with cause IDE, and nothing is sent through it (R444). -/
def State.ideLeaves (s : State) (p : Nat) : State :=
  let t := s.put HST_PORT_STATUS_IDE_SECURE p 0
  let t := { t with ideHeld := p :: t.ideHeld.erase p }
  (t.ringsOn p).foldl (fun u n => u.freezeRing n 5) t

/-- IDE_LEAVES_SECURE (R444). -/
def execIdeLeavesSecure (port : Nat) (s : State) : Host.Outcome State Fault Refusal :=
  if port < 2 && s.flag HST_PORT_STATUS_IDE_SECURE port then ok (s.ideLeaves port) else ok s

/-- A port's IDE stream is Secure (R444): what waited is sent. -/
def State.ideSecure (s : State) (p : Nat) : State :=
  let t := s.put HST_PORT_STATUS_IDE_SECURE p 1
  { t with ideHeld := t.ideHeld.erase p }.flushPort p

end Sys2Proof.Machine
end

