-- ==== Sys2Proof/Machine/Ports.lean ====
section
/-! DEFINITION. A reset of one PCIe port (R445, R625). -/

namespace Sys2Proof.Machine

/-- Stop an admitted job with no record (R445, R462): its work stops, an open append fails, and a consignment still in prepare fails
its prepare. One that has voted or committed runs on without records. DESIGN CHOICE (log 31). -/
def State.endSilently (s : State) (j : Job) : State :=
  let s := (s.beginHist j).stopWork j.id
  let j := (s.job j.id).getD j
  let s := match j.openAppend with
    | some u => s.histFail u
    | none => s
  let s := s.dropJob j j.slots
  ((s.conss.filter fun c => c.job == j.id && c.inPrepare).map (·.id)).foldl (fun t c => t.prepareFails c csTimeout) s

/-- Rings bound to a port, whatever their state. -/
def State.boundRings (s : State) (p : Nat) : List Nat := (List.range 256).filter fun n => s.get HST_RING_CFG_PORT n == p

/-- A ring of a reset port: its jobs stop without records, what it fetched is dropped, and it is STOPPED with every index at 0. -/
def State.resetRing (s : State) (n : Nat) : State :=
  let s := (s.jobs.filter fun j => j.ring == n).foldl (fun t j => t.endSilently j) s
  let s := { s with fetched := s.fetched.filter fun f => f.ring != n }
  let s := (s.put HST_RING_CTL_ENABLE n 0).put HST_RING_STATUS_FREEZE_CAUSE n 0
  ((s.put HST_RING_STATUS_RESET_PENDING n 0).put HST_RING_STATUS_IDE_BLOCKED n 0).ringStopped n

/-- The function's configuration space and MSI-X table restart: no bus mastering, no Secure IDE stream, every vector masked with
nothing pending (R625). PRESUMED (log 12). -/
def State.resetFunction (s : State) (p : Nat) : State :=
  let s := (s.put HST_PORT_STATUS_BME p 0).put HST_PORT_STATUS_IDE_SECURE p 0
  { s with msix := s.msix.filter fun e => e.1 / 2048 != p, msixPend := s.msixPend.filter fun e => e.1 / 512 != p,
           ideHeld := s.ideHeld.erase p, cus := { s.cus with ide := s.cus.ide.erase p } }

/-- A reset of one port (R445): its rings, and every host-window translation cached for it. -/
def State.portReset (s : State) (p : Nat) : State :=
  let s := (s.boundRings p).foldl (fun t n => t.resetRing n) s
  { s with winCache := s.winCache.filter fun e => e.2.port != p }.resetFunction p

/-- PORT_RESET (R445). -/
def execPortReset (port : Nat) (s : State) : Host.Outcome State Fault Refusal :=
  if port < 2 then ok (s.portReset port) else ok s

end Sys2Proof.Machine
end

