-- ==== Sys2Proof/Machine/Faults.lean ====
section
/-! DEFINITION. Faults, containment and recovery (13): detection, what the salvor does with each error, escalation, failed HBM stacks
and lost slots, rebuilding a spare, and the patrol scrub. -/

namespace Sys2Proof.Machine

/-! ### Detection (R525, R646) -/

/-- The last `SOURCE` code of a unit kind, which counts from 1 (Table 13.11); 0 for a kind that is none. -/
def lastSource (kind : Nat) : Nat := [0, 5, 3, 4, 3, 5, 5, 4, 5, 4, 3, 3, 1, 6, 3, 6, 1, 2].getD kind 0

/-- A `SOURCE` code of a unit kind (R646, Table 13.11); customs has three more. -/
def sourceOk (kind source : Nat) : Bool := decide (1 ≤ source ∧ source ≤ lastSource kind) || (kind == 0x0F && decide (0x10 ≤ source ∧ source ≤ 0x12))

/-- The error is one that a unit can report: a kind, a source and a severity of Tables 13.1 and 13.11. -/
def Err.known (e : Err) : Bool := sourceOk e.kind e.source && decide (e.sev ≤ 3)

/-- An error as it is stamped at detection. Only an admitted job is concerned. -/
def State.stamped (s : State) (e : Err) : Err :=
  { e with tide := s.stampTide, suspended := false, fenced := false, job := e.job.bind s.jobNo }

/-- The address lies in a hot-row way. -/
def State.inHotWay (s : State) (a : Nat) : Bool :=
  let o := (a - whsBase) % viewStep
  decide (whsBase ≤ a) && decide (o < whsBytes) && s.wayUse (wayOf o).1 (wayOf o).2 == 2

/-- A hot-row entry shows an uncorrectable error (R274): the entry whose copy lies at the address goes. -/
def State.hotError (s : State) (e : Err) : State :=
  { s with hot := Tab.erase (hotKeyAt e.addr) s.hot }.inc WHS_ECC_UNCORRECTED_COUNT 0 1

/-- The salvor's program or data cannot be trusted: it stops with the error in hand back in the ring, and the escalation is recorded
(R534). -/
def State.escalate (s : State) (source : Nat) : State :=
  let s := (s.put HMR_SALVOR_STATUS_ESCALATED 0 1).inc HMR_SALVOR_STATUS_ESCALATIONS 0 1
  let back := match s.salvor.inHand with | some e => [{ e with suspended := true }] | none => []
  let fits := decide (s.salvor.ring.length + back.length ≤ 64)
  let v := { s.salvor with stopped := true, inHand := none, ring := if fits then s.salvor.ring ++ back else s.salvor.ring,
                           waiting := if fits then s.salvor.waiting else s.salvor.waiting ++ back }
  let s := ({ s with salvor := v }.put HMR_SALVOR_STATUS_BUSY 0 0).put HMR_SALVOR_STATUS_HANDLING 0 0
  let e := mkErr s 2 0x0D source 0 0 none []
  { s with salvor := s.salvor.count e none }.logError e

/-- The salvor restarted within the last second (R535), by the real-time counter of 32,768 Hz. -/
def State.justRestarted (s : State) : Bool :=
  match s.salvor.lastRestart with
  | some t => decide (s.get LHS_RTC_COUNT 0 < t + 32768)
  | none => false

/-- An escalation (R534), or the stop of the device at a second within 1 s of a restart (R535). -/
def State.escalation (s : State) (source : Nat) : State :=
  if s.salvor.stopped then s
  else if s.justRestarted then s.deviceStop (mkErr s 3 0x0D 6 0 0 none [])
  else s.escalate source

/-- A detected error goes to the unit that fences or fails itself, or to the salvor. -/
def State.route (s : State) (e : Err) : State :=
  if e.kind == 0x0D && (e.source == 4 || e.source == 5) then s.escalation e.source
  else if e.kind == 0x0C || e.kind == 0x0D || e.sev ≥ 3 then s.deviceStop { e with sev := 3 }
  else if e.kind == 0x01 && e.sev == 2 then (if s.kilnFenced e.unit then s.detect e else s.kilnFails e.unit e.source)
  else if e.kind == 0x09 && e.sev == 2 then s.quayFails e.unit e.source
  else if e.kind == 0x0A then s.laneFails (e.unit / 64) (e.unit % 64) e.source
  else if e.kind == 0x08 then s.failStack e.unit e.source
  else if e.kind == 0x05 && e.sev == 1 && s.inHotWay e.addr then s.hotError e
  else s.detect e

/-- Count an uncorrectable word that a unit other than a bank's own read reports (R242). -/
def State.countWord (s : State) (e : Err) : State :=
  if (e.kind == 0x05 || e.kind == 0x06) && e.source == 2 && e.sev ≥ 1 && !s.inHotWay e.addr then s.inc WHS_ECC_UNCORRECTED_COUNT 0 1 else s

/-- ERROR_DETECT (R525, R526, R531 to R533). -/
def execErrorDetect (err : Err) (s : State) : Host.Outcome State Fault Refusal :=
  if s.live && err.known then ok ((s.countWord err).route (s.stamped err)) else ok s

/-- DEVICE_FAULT_STOP (R529, R535). -/
def execDeviceFaultStop (err : Err) (s : State) : Host.Outcome State Fault Refusal :=
  if s.live && err.known then ok (s.deviceStop { s.stamped err with sev := 3 }) else ok s

/-- SCHEDULER_WATCHDOG (R556): no dispatch plan for two tides. -/
def execSchedulerWatchdog (s : State) : Host.Outcome State Fault Refusal :=
  if s.live && s.flag HMR_TIDE_STATUS_RUNNING 0 then ok (s.deviceStop (mkErr s 3 0x0D 2 0 0 none [])) else ok s

/-- SALVOR_ESCALATE (R534, R535): source 4 an uncorrectable error in the salvor's memory, 5 its watchdog. -/
def execSalvorEscalate (source : Nat) (s : State) : Host.Outcome State Fault Refusal :=
  if s.live && (source == 4 || source == 5) then ok (s.escalation source) else ok s

/-! ### The order of the ring (R531, R533) -/

/-- The first of two ring entries, given with their places, is taken first. -/
def takenFirst (a b : Err × Nat) : Bool :=
  if a.1.sev != b.1.sev then decide (a.1.sev > b.1.sev)
  else if a.1.suspended != b.1.suspended then a.1.suspended
  else decide (a.2 < b.2)

/-- An entry has freed: the first error that waits enters the ring ahead of queued errors of its severity. -/
def Salvor.admitWaiting (v : Salvor) : Salvor :=
  match v.waiting with
  | [] => v
  | e :: rest => { v with waiting := rest, ring := (v.ring.takeWhile (·.fenced)) ++ e :: v.ring.dropWhile (·.fenced) }

/-- The salvor takes the next error from the ring, or has nothing in hand. -/
def State.salvorNext (s : State) : State :=
  match pickBy takenFirst s.salvor.ring.zipIdx with
  | none =>
    ({ s with salvor := { s.salvor with inHand := none } }.put HMR_SALVOR_STATUS_BUSY 0 0).put HMR_SALVOR_STATUS_HANDLING 0 0
  | some (e, i) =>
    { s with salvor := { s.salvor with ring := s.salvor.ring.eraseIdx i }.admitWaiting }.takeInHand { e with suspended := false }

/-- SALVOR_RESTART (R534): it resumes from the ring. -/
def execSalvorRestart (s : State) : Host.Outcome State Fault Refusal :=
  if s.live && s.salvor.stopped then
    let t := { s with salvor := { s.salvor with stopped := false, lastRestart := some (s.get LHS_RTC_COUNT 0) } }
    ok (t.put HMR_SALVOR_STATUS_ESCALATED 0 0).salvorNext
  else ok s

/-! ### Severity 1 (R527, R539, Table 13.4) -/

/-- End the job that an error touched. -/
def State.endTouched (s : State) (e : Err) (status : Nat) : State :=
  match e.job with
  | some j => s.endJobOf j status
  | none => s

/-- The one retry of a touched job, or its end (R541, R542). -/
def State.retryOr (s : State) (j status : Nat) : State :=
  match s.job j with
  | some x => if s.mayRetry x then s.useRetry x else s.endJob x status 0 none
  | none => s

/-- Models with a block at a cache block, and the block of each. -/
def State.blockHolders (s : State) (n : Nat) : List (Nat × Nat) :=
  s.models.flatMap fun e => (e.2.blocks.filter fun p => p.2 == n).map fun p => (e.1, p.1)

/-- The cache block that holds a warehouse offset. -/
def blockAt (o : Nat) : Nat := o / dieBytes * 3584 + o % dieBytes / wayBytes * 224 + o % dieBytes % wayBytes / 65536

/-- Invalidate the cache block at an address: it is to be loaded again (Table 13.4). -/
def State.dropBlock (s : State) (a : Nat) : State :=
  (s.blockHolders (blockAt ((a - whsBase) % viewStep))).foldl (fun t p =>
    let x := t.model p.1
    (t.putModel p.1 { x with toLoad := x.toLoad.erase p.2 ++ [p.2] }).startLoader p.1) s

/-- An uncorrectable word of the warehouse, by the use of its way. -/
def State.containBank (s : State) (e : Err) : State :=
  let o := (e.addr - whsBase) % viewStep
  match s.wayUse (wayOf o).1 (wayOf o).2 with
  | 0 => s.endTouched e stMemoryError
  | 1 => s.dropBlock e.addr
  | _ => s

/-- An uncorrectable word of a berth: the tasks of the touched job on that kiln stop, to restart on another (R185) with the job's one
retry, or the job ends as R187 has it. -/
def State.containBerth (s : State) (e : Err) : State :=
  match e.job with
  | none => s
  | some j =>
    let t := s.retryOr j stKilnFault
    (t.slotsOf j).foldl (fun t i => if i / 4 == e.unit then t.haltTask e.unit (i % 4) 6 else t) t

/-- A stream starts again after its last accepted tile, its job's retry used (R232, R541). -/
def State.retryStream (s : State) (n : Nat) : State :=
  match (s.stream n).load with
  | some l => s.loadNext n l.1
  | none =>
    let j := (s.stream n).job
    let t := s.retryOr j stFault
    if t.admittedJob j then (t.rewind n).setStream n fun x => { x with st := .reserving, waitSince := some t.tide } else t

/-- An uncorrectable word of a hold: the stream of the detail bytes. -/
def State.containHold (s : State) (e : Err) : State :=
  let n := e.detail.getD 0 0 + 256 * e.detail.getD 1 0
  if (s.stream n).mayRead && stevedoreOf n == e.unit then s.retryStream n else s

/-- A history read fails: the history is DAMAGED and its job ends with HISTORY_ERROR (R397). -/
def State.containHistory (s : State) (e : Err) : State :=
  match (e.job.bind s.job).bind (·.hist) with
  | some u => (s.histDamage u.hist).endTouched e stHistoryError
  | none => s

/-- An uncorrectable access of HBM, by the use of its channel set. Table records are rebuilt by their crane (R540). -/
def State.containHbm (s : State) (e : Err) : State :=
  match s.setOf e.addr with
  | none => s
  | some n =>
    match s.get HBM_CHSET_USE n with
    | 1 => s
    | 3 => s.containHistory e
    | _ => s.endTouched e stMemoryError

/-- The outcome of a contained error. -/
def State.contain (s : State) (e : Err) : State :=
  if e.kind == 0x05 then s.containBank e
  else if e.kind == 0x06 then s.containBerth e
  else if e.kind == 0x04 then s.containHold e
  else if e.kind == 0x07 then s.containHbm e
  else s

/-- MODEL_BLOCK_RELOAD (Table 13.4, R265): an invalidated block is in again, and the touched job is retried; `job` names no admitted
job where none was touched. A block that only a retiring version reads is written from the store again. -/
def execModelBlockReload (model block job : Nat) (s : State) : Host.Outcome State Fault Refusal :=
  let x := s.model model
  if s.live && x.st == .resident && s.blockIn model block then
    ok (match s.loader model with
      | some n => ((s.putModel model { x with toLoad := x.toLoad.erase block }).loadNext n model).retryOr job stMemoryError
      | none => s)
  else if s.live then
    match x.oldBlocks.find? fun p => p.1 == block && !(s.allBad (cacheAddr p.2) 65536).isEmpty, s.storeBlock x (x.retiring.getD 0) block with
    | some p, .ok (bs, t) => ok ((t.writeBlock p.2 bs).retryOr job stMemoryError)
    | _, _ => ok s
  else ok s

/-! ### Ranges that jobs touch -/

/-- A stream unit reads or writes in [lo, hi). -/
def SUnit.touches (u : SUnit) (lo hi : Nat) : Bool :=
  (decide (lo < u.src + u.len) && decide (u.src < hi)) || (decide (lo < u.dst + u.len) && decide (u.dst < hi))

/-- A section reads or writes in [lo, hi). -/
def Section.touches (x : Section) (indices lo hi : Nat) : Bool :=
  [(x.lenAddr, 4 * x.bags), (x.idxAddr, (if x.idx64 then 8 else 4) * indices), (x.outAddr, x.bags * x.outPitch)].any fun p =>
    decide (lo < p.1 + p.2) && decide (p.1 < hi)

/-- A job touches [lo, hi): by a section, or by a unit of one of its streams. DEDUCED (log 40). -/
def State.jobTouches (s : State) (j : Job) (lo hi : Nat) : Bool :=
  (j.sections.any fun x => x.touches j.indices lo hi) ||
  s.streams.any fun e => e.2.job == j.id && e.2.load.isNone && e.2.st != .free && e.2.units.any fun u => u.touches lo hi

/-- End every admitted job that touches [lo, hi). -/
def State.endTouching (s : State) (lo hi status : Nat) : State :=
  ((s.jobs.filter fun j => s.jobTouches j lo hi).map (·.id)).foldl (fun t j => t.endJobOf j status) s

/-! ### Fences (R536 to R538, Table 13.3) -/

/-- The work of a kiln that the salvor fences stops; TASK_RESTART moves it. -/
def State.fenceKiln (s : State) (e : Err) : State :=
  if s.kilnFenced e.unit && e.kind == 0x01 then s else (s.fenceUnit e.kind e.source e.unit e.addr).stopKiln e.unit

/-- A fenced crane serves nothing more: what it holds is lost, and its tables go to the next crane (R537). -/
def State.fenceCrane (s : State) (c : Nat) : State := s.putCrane c { fenced := true }

/-- Streams of a stevedore that run, given by number. -/
def State.streamsAt (s : State) (v : Nat) : List Nat :=
  (s.streams.filter fun e => stevedoreOf e.1 == v && e.2.st != .free && e.2.st != .frozen).map (·.1)

/-- A stream of a fenced stevedore waits for a context of another of the die (R538); a halted copy of a consignment goes on with its
prepare. -/
def State.moveStream (s : State) (n : Nat) : State :=
  let v := stevedoreOf n
  let x := s.stream n
  if x.st == .free then s
  else if let some (m, _) := x.load then (s.freeStream n).startLoader m
  else if x.fresh then
    let t := s.freeStream n
    if x.catching then
      { t with catchUps := t.catchUps ++ [(⟨some v, x.job, x.unit, x.task, x.owner, x.bind, x.skipTo, none, false⟩ : CatchUp)] }
    else match t.job x.job with
      | some j => t.putJob (j.setUnit x.unit fun u => { u with started := u.started.erase (x.owner, x.bind) })
      | none => t
  else if x.code.isEmpty then s.resumeCopy n
  else
    let t := s.rewind n
    let y := { t.stream n with st := .reserving, reason := 0, waitSince := some t.tide }
    { t with catchUps := t.catchUps ++ [(⟨some v, x.job, x.unit, x.task, x.owner, x.bind, x.slowest, some y, false⟩ : CatchUp)] }.putStream n { gen := x.gen }

/-- Fence a stevedore: each job that it serves uses its retry or ends with FAULT, and the streams left move. -/
def State.fenceStevedore (s : State) (v : Nat) : State :=
  let s := { s with fencedStevs := v :: s.fencedStevs.erase v }
  let js := (((s.streamsAt v).filter fun n => (s.stream n).load.isNone && ((s.stream n).fresh || !(s.stream n).code.isEmpty)).map fun n => (s.stream n).job).dedup
  let s := js.foldl (fun t j => t.retryOr j stFault) s
  (s.streamsAt v).foldl (fun t n => t.moveStream n) s

/-- Jobs of models that have blocks in a way. -/
def State.jobsInWay (s : State) (d w : Nat) : List Nat :=
  (s.jobs.filter fun j => j.kind == .run && ((s.model j.model).blocks ++ (s.model j.model).oldBlocks).any fun p => blockInWay d w p.2).map (·.id)

/-- Stop the way of a failing word and hold it stopped; jobs that use it end with MEMORY_ERROR. -/
def State.fenceWay (s : State) (e : Err) : State :=
  let (d, w) := wayOf ((e.addr - whsBase) % viewStep)
  let s := s.fenceUnit e.kind e.source e.unit e.addr
  let s := s.endTouched e stMemoryError
  let s := (s.jobsInWay d w).foldl (fun t j => t.endJobOf j stMemoryError) s
  let s := s.endTouching (wayAddr d w 0) (wayAddr d w wayBytes) stMemoryError
  if s.wayUse d w == 1 then s.evictWay d w else s

/-! ### Lost channel sets (Table 13.6) -/

/-- Send a loss of a slot of this device to the pod master (R547); the pod master broadcasts its own. -/
def State.reportSlot (s : State) (g slot : Nat) : State :=
  if !s.inPod then s
  else if s.isMaster then
    { s with pod := { s.pod with slotLosses := s.pod.slotLosses ++ [(s.me, g, slot)] } }.send (.broadcast (.slotLoss s.me g slot))
  else s.sendVc0 s.podMaster (.slotsLost s.me g slot)

/-- A table of this device has its page map or a page in [lo, hi). -/
def State.tableIn (s : State) (t lo hi : Nat) : Bool :=
  let x := s.table t
  let within := fun a => decide (lo ≤ a) && decide (a < hi)
  (List.range x.mapPages).any fun p =>
    within (x.rootCur + 16 * p) ||
    (let m := mapEntryOf (leNat (s.bytes (x.rootCur + 16 * p) 16))
     (m.valid && within m.cur) || (m.prevValid && m.prevMapped && within m.prev))

/-- Groups in which this device holds a slot with pages in [lo, hi), with the slot. -/
def State.slotsIn (s : State) (lo hi : Nat) : List (Nat × Nat) :=
  ((s.groups.filter fun e => e.2.held && (s.tablesIn e.1).any fun t => s.tableIn t lo hi).flatMap
    fun e => (e.2.slotsOf s.me).map fun k => (e.1, k))

/-- The table pages of a set are lost: the slots are reported and answer no part until the change applies. -/
def State.losePages (s : State) (lo hi : Nat) : State :=
  (s.slotsIn lo hi).foldl (fun t p =>
    { t with pod := { t.pod with muted := p.1 :: t.pod.muted.erase p.1 } }.reportSlot p.1 p.2) s

/-- Histories that are not FREE. -/
def State.usedHists (s : State) : List Nat := (List.range (s.get HMR_HIST_SIZE_ENTRIES 0 + 1)).filter fun h => (s.hist h).st != hFree

/-- The history pool of a set is lost (R397). -/
def State.losePool (s : State) : State :=
  let s := s.usedHists.foldl (fun t h => t.histDamage h) s
  ((s.jobs.filter fun j => j.hist.isSome).map (·.id)).foldl (fun t j => t.endJobOf j stHistoryError) s

/-- The effect of one lost channel set. -/
def State.loseSet (s : State) (n : Nat) : State :=
  let lo := s.setBase n
  let hi := lo + s.setBytes n
  match s.get HBM_CHSET_USE n with
  | 0 => s.endTouching lo hi stMemoryError
  | 1 => s.losePages lo hi
  | 2 => s
  | _ => if decide (lo ≤ s.get HMR_HIST_POOL_BASE 0) && decide (s.get HMR_HIST_POOL_BASE 0 < hi) then s.losePool else s

/-- Every set on a failed stack (R546). -/
def State.loseStack (s : State) (stack : Nat) : State := (s.setsOn stack).foldl (fun t n => t.loseSet n) s

/-! ### The salvor handles an error (R530) -/

/-- The fence of a severity 2 error, and its work moved. -/
def State.fence (s : State) (e : Err) : State :=
  if e.kind == 0x01 || e.kind == 0x02 || e.kind == 0x06 then s.fenceKiln e
  else if e.kind == 0x03 then s.fenceCrane e.unit
  else if e.kind == 0x04 then s.fenceStevedore e.unit
  else if e.kind == 0x05 then s.fenceWay e
  else if e.kind == 0x07 then (if s.bitAt HBM_STACK_STATUS_FENCED 0 (stackOf e.unit) then s.loseStack (stackOf e.unit) else s.failStack (stackOf e.unit) 5)
  else if e.kind == 0x08 then s.loseStack e.unit
  else if e.kind == 0x0B && e.source != 3 then
    { (s.boundRings e.unit).foldl (fun t n => t.resetRing n) s with winCache := s.winCache.filter fun x => x.2.port != e.unit }
  else s.fenceUnit e.kind e.source e.unit e.addr

/-- Apply the action of Table 13.3 or Table 13.4. -/
def State.applyError (s : State) (e : Err) : State :=
  match e.sev with
  | 0 => s
  | 1 => s.contain e
  | _ => s.fence e

/-- The error in hand is handled: its action, then its record, then the next of the ring. -/
def State.handle (s : State) (e : Err) : State :=
  let bs := s.errorBytes { e with fenced := e.fenced || (e.sev == 2 && hasFence e.kind) }
  ((s.applyError e).record e bs).salvorNext

/-- SALVOR_HANDLE (R530, R531, R536). -/
def execSalvorHandle (s : State) : Host.Outcome State Fault Refusal :=
  match s.salvor.inHand with
  | some e => if s.live && !s.salvor.stopped then ok (s.handle e) else ok s
  | none => ok s

/-! ### HBM stacks and lost slots (R545 to R547) -/

/-- HBM_STACK_FAIL (R545, R546). -/
def execHbmStackFail (stack cause : Nat) (s : State) : Host.Outcome State Fault Refusal :=
  if s.live && stack < 12 && 1 ≤ cause && cause ≤ 5 then ok (s.failStack stack cause) else ok s

/-- Note a slot loss to apply at the next boundary. -/
def State.noteSlotLoss (s : State) (device g slot : Nat) : State :=
  if s.pod.slotLosses.contains (device, g, slot) then s
  else { s with pod := { s.pod with slotLosses := s.pod.slotLosses ++ [(device, g, slot)] } }

/-- SLOTS_LOST (R547): the pod master broadcasts the notice. -/
def execSlotsLost (device group slot : Nat) (s : State) : Host.Outcome State Fault Refusal :=
  if s.live && s.inPod && s.isMaster && s.isLive device then
    ok ((s.noteSlotLoss device group slot).send (.broadcast (.slotLoss device group slot)))
  else ok s

/-- SLOT_LOSS_NOTICE (R547). -/
def execSlotLossNotice (device group slot : Nat) (s : State) : Host.Outcome State Fault Refusal :=
  if s.live && s.inPod then ok (s.noteSlotLoss device group slot) else ok s

/-! ### Rebuilding a spare (R549 to R553) -/

/-- Directory entries that name a group. -/
def State.entriesOf (s : State) (g : Nat) : List Nat :=
  (List.range (s.get CRN_TABLE_DIR_TABLES 0 + 1)).filter fun t => match s.tableInMemory t with
    | .ok (some bs, _) => (tableEntryOf bs).group == g && leNat bs != 0
    | _ => false

/-- The rebuild of a group may run here (R549). -/
def State.mayRebuild (s : State) (g : Nat) : Bool :=
  let r := s.group g
  r.held && r.state == .degraded && r.claim == some r.lostSlot && ((s.entriesOf g).all fun t => (s.table t).enabled) &&
  (r.slotsOf s.me).all fun k => k == r.lostSlot

/-- Tell the group master that a rebuild starts (R549). -/
def State.sendStart (s : State) (g : Nat) : State :=
  let r := s.group g
  if r.master == s.me then { s with rebuilding := g :: s.rebuilding.erase g }
  else s.sendVc0 r.master (.rebuildStart g r.lostSlot s.me)

/-- Start the rebuild of a group, or refuse it. -/
def State.rebuildGo (s : State) (g : Nat) : State :=
  if s.flag CRN_REBUILD_BUSY 0 then s
  else
    let s := s.put CRN_REBUILD_GROUP 0 g
    if !s.mayRebuild g then (s.put CRN_REBUILD_STATUS_RESULT 0 2).put CRN_REBUILD_DONE 0 1
    else
      let s := ((s.put CRN_REBUILD_BUSY 0 1).put CRN_REBUILD_STATUS_RESULT 0 0).put CRN_REBUILD_STATUS_PAGES_DONE 0 0
      { s.sendStart g with rebuild := some ⟨g, (s.group g).lostSlot, false, 0, 0, [], []⟩ }.startCopy

/-- REBUILD_GO (R549). -/
def execRebuildGo (group : Nat) (s : State) : Host.Outcome State Fault Refusal :=
  if group < 1024 then ok (s.hostDo fun t => t.rebuildGo group) else ok s

/-- REBUILD_START (R550): no prepare touches the group's tables; the group master tells its other members. DESIGN CHOICE (log 39). -/
def execRebuildStart (group slot device : Nat) (s : State) : Host.Outcome State Fault Refusal :=
  if s.live && !s.rebuilding.contains group then
    let t := { s with rebuilding := group :: s.rebuilding }
    match t.groupRecord group with
    | some r =>
      if r.master == t.me then
        ok (((t.groupMembers group).filter fun d => d != t.me && d != device).foldl (fun u d => u.sendVc0 d (.rebuildStart group slot device)) t)
      else ok t
    | none => ok t
  else ok s

/-- The page of a table as the current epoch sees it: zeros where its map entry is not VALID; none where it cannot be read. -/
def State.currentPage (s : State) (t p : Nat) : Option (List Byte × State) :=
  let x := s.table t
  match s.read {} (x.rootCur + 16 * p) 16 with
  | .error _ => none
  | .ok (bs, s) =>
    match (mapEntryOf (leNat bs)).page x.epoch with
    | none => some (List.replicate 65536 0, s)
    | some a => match s.read { cls := some 2 } a 65536 with
      | .ok r => some r
      | .error _ => none

/-- REBUILD_PAGE_REQUEST (R551). A page that cannot be read is not sent. DESIGN CHOICE (log 41). -/
def execRebuildPageRequest (table page slot device : Nat) (s : State) : Host.Outcome State Fault Refusal :=
  if s.hears device && (s.table table).enabled && ((s.group (s.table table).group).slotsOf s.me).contains slot then
    match s.currentPage table page with
    | some (bs, t) => ok (t.send (.net device 2 (.page table page slot bs)))
    | none => ok s
  else ok s

/-- The address that the spare's own map gives a page. -/
def State.ownPage (s : State) (t p : Nat) : Option Nat :=
  match s.read {} ((s.table t).rootCur + 16 * p) 16 with
  | .ok (bs, _) => if (mapEntryOf (leNat bs)).valid then some (mapEntryOf (leNat bs)).cur else none
  | .error _ => none

/-- Report every page written (R552); a spare that is the pod master broadcasts at once. -/
def State.sendDone (s : State) (b : Rebuild) : State :=
  if s.isMaster then
    { s with pod := { s.pod with replaces := s.pod.replaces ++ [(b.group, b.slot, s.me)] } }.send (.broadcast (.slotReplace b.group b.slot s.me))
  else s.sendVc0 s.podMaster (.rebuildDone b.group b.slot s.me)

/-- Pages of a rebuild after the one in hand. -/
def State.pagesAfter (s : State) (b : Rebuild) : List (Nat × Nat) :=
  ((s.rebuildPages b.group).dropWhile fun x => x != (b.table, b.page)).drop 1

/-- The rebuilt page is written, and the next one asked for, or the rebuild reported done. A page that cannot be written is asked for
again. DESIGN CHOICE (log 41). -/
def State.writePage (s : State) (b : Rebuild) : State :=
  match s.ownPage b.table b.page with
  | none => s.takeUpPage b (b.table, b.page)
  | some a =>
    match s.write { cls := some 2 } a b.acc with
    | .error _ => s.takeUpPage b (b.table, b.page)
    | .ok t =>
      let t := t.inc CRN_REBUILD_STATUS_PAGES_DONE 0 1
      match t.pagesAfter b with
      | [] => { t with rebuild := some { b with table := 4096 } }.sendDone b
      | x :: _ => t.takeUpPage b x

/-- A page arrives at the spare: it is XORed in, and written once the D pages are there (R551). -/
def State.pageArrives (s : State) (b : Rebuild) (slot : Nat) (data : List Byte) : State :=
  let b := { b with got := slot :: b.got, acc := xorBytes b.acc data }
  if b.got.length < (s.group b.group).d then { s with rebuild := some b } else s.writePage b

/-- REBUILD_PAGE (R551). -/
def execRebuildPage (table page slot : Nat) (data : List Byte) (s : State) : Host.Outcome State Fault Refusal :=
  match s.rebuild with
  | none => ok s
  | some b =>
    if s.hears (s.slotDevice table slot) && b.copying && b.table == table && b.page == page && slot != b.slot &&
       decide (slot ≤ (s.group b.group).d) && !b.got.contains slot && data.length == 65536 then
      ok (s.pageArrives b slot data)
    else ok s

/-- Note a slot that a spare takes over at the next boundary. -/
def State.noteReplace (s : State) (g slot device : Nat) : State :=
  if s.pod.replaces.contains (g, slot, device) then s else { s with pod := { s.pod with replaces := s.pod.replaces ++ [(g, slot, device)] } }

/-- REBUILD_DONE (R552): the pod master broadcasts SLOT_REPLACE. -/
def execRebuildDone (group slot device : Nat) (s : State) : Host.Outcome State Fault Refusal :=
  if s.live && s.inPod && s.isMaster && s.isLive device then
    ok ((s.noteReplace group slot device).send (.broadcast (.slotReplace group slot device)))
  else ok s

/-- SLOT_REPLACE (R552). -/
def execSlotReplace (group slot device : Nat) (s : State) : Host.Outcome State Fault Refusal :=
  if s.live && s.inPod then ok (s.noteReplace group slot device) else ok s

/-- REBUILD_END (R553): on the spare, with `RESULT` 0x3 when its group is LOST; on the others when they hear of it. -/
def execRebuildEnd (group : Nat) (s : State) : Host.Outcome State Fault Refusal :=
  if !s.live then ok s
  else
    let t := { s with rebuilding := s.rebuilding.erase group }
    match t.rebuild with
    | some b => if b.group == group && (t.group group).state == .lost then ok (t.endRebuild 3) else ok (if b.group == group then s else t)
    | none => ok t

/-! ### The patrol scrub (R557) -/

/-- What a read of a 64 B unit finds: its words in error, or what the operand says of a unit without any. -/
def State.scrubFinds (s : State) (a outcome : Nat) : Nat :=
  if !(s.allBad a 64).isEmpty then 2 else if outcome == 0 && (wordsOf a 64).any fun w => s.weakWord w then 1 else outcome

/-- One unit of HBM is read: `outcome` 0 finds it good, 1 correctable and written back, 2 uncorrectable and poisoned. -/
def State.scrub (s : State) (a outcome : Nat) : State :=
  match s.scrubFinds a outcome with
  | 0 => s
  | 1 => ({ s with ecc := Tab.dropRange (a / 8) (a / 8 + 8) s.ecc }.dropHot a 64).detect (s.mkWordErr 0 3 a none)
  | _ => ((wordsOf a 64).foldl (fun t w => t.poison (8 * w)) s).detect (s.mkWordErr 1 4 a none)

/-- PATROL_SCRUB (R557): a 64 B unit of a set in service. -/
def execPatrolScrub (addr outcome : Nat) (s : State) : Host.Outcome State Fault Refusal :=
  match s.setOf addr with
  | some n => if s.live && !s.setStopped n && addr % 64 == 0 then ok (s.scrub addr outcome) else ok s
  | none => ok s

/-! ### Channel sets (R434 to R436, R548, R577) -/

/-- Stop a channel set: its requests in flight complete within the step (R436). -/
def State.chsetStop (s : State) (n : Nat) : State :=
  (s.putBitAt HBM_CHSET_STOP_STOP 0 n true).putBitAt HBM_CHSET_STATUS_STOPPED 0 n true

/-- A stopped set of table pages, on a device that holds slots, loses the slots of every group with pages in it (R614, R547). -/
def State.chsetLoses (s : State) (n : Nat) : State :=
  if s.get HBM_CHSET_USE n == 1 then s.losePages (s.setBase n) (s.setBase n + s.setBytes n) else s

/-- A write of a set's stop bit at 1. -/
def State.chsetHalt (s : State) (n : Nat) : State := if s.setStopped n then s.chsetStop n else (s.chsetLoses n).chsetStop n

/-- CHSET_STOP (R436, R614). -/
def execChsetStop (set : Nat) (s : State) : Host.Outcome State Fault Refusal :=
  if set < 32 then ok (s.hostDo fun t => t.chsetHalt set) else ok s

/-- A lost set may return: its channels exclude every fenced stack (R548). -/
def State.setUsable (s : State) (n : Nat) : Bool :=
  (List.range 12).all fun k => !(s.bitAt HBM_STACK_STATUS_FENCED 0 k) || !(s.setsOn k).contains n

/-- Return a channel set to service (R436). One without channels stays stopped (R627); a lost one returns only without the
fenced stack, its contents undefined (R548). While the veil is on, a set is zeroed as it returns and serves (R577). -/
def State.chsetRestart (s : State) (n : Nat) : State :=
  let s := s.putBitAt HBM_CHSET_STOP_STOP 0 n false
  if s.get HBM_CHSET_COUNT n == 0 || !s.setUsable n then s
  else
    let s := if s.setLost n then (s.scramble (s.setBase n) (s.setBytes n)).putBitAt HBM_STACK_STATUS_LOST_SETS 0 n false else s
    let s := if s.flag CUS_STATUS_VEILED 0 then { s with veiled := s.veiled.erase n }.zero (s.setBase n) (s.setBytes n) else s
    s.putBitAt HBM_CHSET_STATUS_STOPPED 0 n false

/-- CHSET_RESTART (R436, R548, R577). -/
def execChsetRestart (set : Nat) (s : State) : Host.Outcome State Fault Refusal :=
  if set < 32 then ok (s.hostDo fun t => t.chsetRestart set) else ok s

end Sys2Proof.Machine
end

