-- ==== Sys2Proof/Machine/Flags.lean ====
section
/-! DEFINITION. What registers read as (16): the block map, the fields that mirror other parts of the state, a register's value
from its fields, and the account of discarded writes (R632). -/

namespace Sys2Proof.Machine

/-! ### The block map (Table 16.1) -/

/-- Base and size of each BAR0 block, in the order of Table 16.1. -/
def blockMap : List (Nat × Nat) :=
  [(0x1000000, 0x100000), (0x1100000, 0x100000), (0x300000, 0x100000), (0x500000, 0x100000), (0x200000, 0x10000), (0x210000, 0x10000),
   (0x400000, 0x100000), (0x000000, 0x100000), (0x100000, 0x100000), (0x230000, 0x10000), (0x240000, 0x10000), (0x250000, 0x10000),
   (0x220000, 0x10000)]

/-- Block number and block offset of a BAR0 offset (R616). -/
def blockOf (o : Nat) : Option (Nat × Nat) :=
  (blockMap.zipIdx.find? fun b => decide (b.1.1 ≤ o) && decide (o < b.1.1 + b.1.2)).map fun b => (b.2, o - b.1.1)

/-- BAR0 base of a block. -/
def blockBase (b : Nat) : Nat := (blockMap.getD b (0, 0)).1

/-- The number and the half (true high) of a copy of a register at a block offset. -/
def RegRow.copyAt (r : RegRow) (o : Nat) : Option (Nat × Bool) :=
  if o < r.off then none
  else
    let d := o - r.off
    let i := if r.stride == 0 then 0 else d / r.stride
    let rest := d - i * r.stride
    if i < r.count && (rest == 0 || (r.width == 64 && rest == 4)) then some (i, rest == 4) else none

/-- The register at a block offset, with the number of its copy and the half. -/
def regAt (b o : Nat) : Option (Reg × Nat × Bool) :=
  Reg.all.findSome? fun r => if r.row.block == b then (r.row.copyAt o).map fun c => (r, c.1, c.2) else none

/-- BAR0 offset of a copy of a register. -/
def regOffset (r : Reg) (i : Nat) : Nat := blockBase r.row.block + r.row.off + i * r.row.stride

/-- A page of the unit exists by the device size table (R617). -/
def State.paged (s : State) (p : Paged) (i : Nat) : Bool :=
  match p with
  | .no => true
  | .kilns => decide (i < s.kilnCount)
  | .hearths => decide (i < s.get HST_SIZE_COMPUTE_HEARTHS_PORT 0 + s.get HST_SIZE_COMPUTE_HEARTHS_STBD 0)
  | .stevedores => decide (i < s.stevedoreCount)
  | .cranes => decide (i < s.craneCount)
  | .quays => decide (i < 16)

/-! ### Fields that mirror other state -/

/-- `KLN_CTX_STATUS`: 16 bits a slot. -/
def State.ctxWord (s : State) (k : Nat) : Nat :=
  ((List.range 4).map fun i =>
    let x := s.ctx k i
    2 ^ (16 * i) * (x.st.code + 16 * b2n x.half + 32 * b2n x.noswitch +
      256 * (if x.st == .halted || x.st == .frozen then x.reason else 0))).sum

/-- `KLN_MOORING`: 16 bits a slot. -/
def State.mooringWord (s : State) (k : Nat) : Nat :=
  ((List.range 4).map fun i => 2 ^ (16 * i) * ((s.ctx k i).base % 256 + 256 * ((s.ctx k i).slots % 256))).sum

/-- Contexts [first, first + 16) of a stevedore, four bits each. -/
def State.streamWord (s : State) (v first : Nat) : Nat :=
  ((List.range 16).map fun i => 2 ^ (4 * i) * s.streamCode (s.stream (32 * v + first + i))).sum

/-- Word i of a record of 64 bytes, 0 where there is none. -/
def recordWord (l : List (List Byte)) (n i : Nat) : Nat := fieldOf (l.getD n []) (8 * i) 8

/-- The entry that `PLT_LOG_INDEX` selects (R601). -/
def State.logWord (s : State) (i : Nat) : Nat :=
  let n := s.get PLT_LOG_INDEX_INDEX 0
  if s.flag PLT_LOG_INDEX_STARTUPS 0 then recordWord s.pilot.startLog (n % 64) i else recordWord s.pilot.log n i

/-- Histories in APPENDING. -/
def State.openAppends (s : State) : Nat :=
  (((s.jobs.filterMap fun j => j.openAppend).map fun (u : HistUse) => u.hist) ++ s.appended.map fun (a : Appended) => a.hist).dedup.length

/-- No table is enabled and no table operation runs. -/
def State.lookupIdle (s : State) : Bool := (s.tables.all fun e => !e.2.enabled) && !s.flag CRN_TABLE_CTL_BUSY 0

/-- No channel is enabled and no round runs. -/
def State.collIdle (s : State) : Bool := s.get QUY_COLL_EN_ENABLE 0 == 0 && s.colls.all fun e => !e.2.running

/-- The device is out of a pod, or the pod's tide is held (R613). -/
def State.outOfPod (s : State) : Bool := !s.flag QUY_POD_CTL_IN_POD 0 || s.pod.held

/-- The power state code of `HMR_POWER_STATUS`. -/
def State.powerCode (s : State) : Nat :=
  match s.power.mode with
  | .banked => 2
  | _ => if s.get HMR_POWER_STATUS_STEP 0 == 0 then 0 else 1

/-- The value of a mirroring field of unit i. -/
def State.mirrorValue (s : State) (m : Mirror) (i : Nat) : Nat :=
  match m with
  | .admissionDrained => s.get HMR_ADMIT_CTL_DRAINED 0
  | .collIdle => b2n s.collIdle
  | .consInDoubt => (s.conss.filter fun c => c.inDoubt).length
  | .consOpen => s.conss.length
  | .ctxStateHi => s.streamWord i 16
  | .ctxStateLo => s.streamWord i 0
  | .ctxStatus => s.ctxWord i
  | .d2SincePower => b2n s.power.d2SincePower
  | .dbgBusy => b2n (s.ctxs.any fun e => e.2.dbgReq != 0)
  | .elogRecords => s.dock.elog.length
  | .elogWord => recordWord s.dock.elog (s.get DDK_ELOG_INDEX_INDEX 0) i
  | .eventRingStopped => s.get HST_EVT_CTL_STOPPED 0
  | .evtProducer => s.evt.prod
  | .evtQueued => s.evt.queue.length
  | .histFree => s.freeFrames.length
  | .histOpen => s.openAppends
  | .historyStopped => s.get HMR_HIST_CTL_STOPPED 0
  | .lifecycle => s.cus.lifecycle
  | .locked => s.get HST_SETUP_LOCK_SETUP_LOCK 0
  | .lookupIdle => b2n s.lookupIdle
  | .mooring => s.mooringWord i
  | .outOfPod => b2n s.outOfPod
  | .pltLogWord => s.logWord i
  | .powerState => s.powerCode
  | .profileStored => b2n s.pilot.profile.isSome
  | .quayState => (s.quay i).st.code
  | .ringActive => s.activeJobs i
  | .ringCqProducer => (s.ring i).cqProd
  | .ringFrozen => b2n ((s.ring i).st == .frozen)
  | .ringReserved => (s.ring i).reserved
  | .ringSqConsumer => (s.ring i).cons
  | .ringState => (s.ring i).st.code
  | .salvorUsed => s.salvor.ring.length
  | .tamperCount => s.cus.tamper
  | .tideStopped => b2n (!s.flag HMR_TIDE_STATUS_RUNNING 0)

/-! ### A register's value -/

/-- The value of a field of copy i of its register. -/
def State.place (s : State) (p : Place) (i : Nat) : Nat :=
  match p.src with
  | .fld f off => s.get f (i + off)
  | .mirror m => s.mirrorValue m i % 2 ^ p.width

/-- The value of copy i of a register, write-only fields as they are held. -/
def State.regHeld (s : State) (r : Reg) (i : Nat) : Nat := (r.row.places.map fun p => s.place p i * 2 ^ p.lo).sum

/-- What copy i of a register reads as: a write-only field reads zero (Table 00.5), and so does a page beyond the size table (R617). -/
def State.regValue (s : State) (r : Reg) (i : Nat) : Nat :=
  if s.paged r.row.paged i then (r.row.places.map fun p => if p.acc == .wo then 0 else s.place p i * 2 ^ p.lo).sum else 0

/-- Clear the RC fields of copy i of a register in the low half, the high half, or both (Table 00.5, R7). -/
def State.clearRc (s : State) (r : Reg) (i : Nat) (lo hi : Nat) : State :=
  r.row.places.foldl (fun t p => match p.src with
    | .fld f off => if p.acc == .rc && decide (lo ≤ p.lo) && decide (p.lo < hi) then t.put f (i + off) 0 else t
    | .mirror _ => t) s

/-! ### Discarded writes (R632, R633) -/

/-- Sources of a write: 0 and 1 the ports, 2 the debug port, 3 the pilot ladder. Causes: 1 LOCKED, 2 RUNNING, 3 ENCODING, 4 RULE,
5 UNMAPPED. -/
def State.discard (s : State) (source cause block offset : Nat) : State :=
  let s := if block < 13 then s.inc HST_SETUP_DISCARDS_COUNT block 1 else s
  let s := ((s.put HST_SETUP_LAST_BLOCK 0 block).put HST_SETUP_LAST_CAUSE 0 cause).put HST_SETUP_LAST_SOURCE 0 source
  (s.put HST_SETUP_LAST_OFFSET 0 offset).put HST_SETUP_LAST_VALID 0 1

end Sys2Proof.Machine
end

