-- ==== Sys2Proof/Machine/Customs.lean ====
section
/-! DEFINITION. Customs (14): drawn values, zeroisation, attestation over SPDM, IDE keys, debug levels and the veil. Message codes, error
codes and capability bits are those of DMTF's SPDM 1.3 and 1.2, which the spec names. PRESUMED (log 42). -/

namespace Sys2Proof.Machine

/-! ### What customs holds -/

/-- The logic of the device is powered (Table 14.12). -/
def State.powered (s : State) : Bool := s.power.mode == .run || s.power.mode == .banked

/-- Customs answers: it runs, it is not in its error state, and it holds its identity (R560, R562). -/
def State.customsUp (s : State) : Bool := s.powered && !s.flag CUS_STATUS_ERROR 0 && s.cus.identity

/-- A value that customs draws, and the state after it is drawn. -/
def State.draw (s : State) (what : Nat) : Nat × State :=
  (Config.drawn s.cus.drawn what, { s with cus := { s.cus with drawn := s.cus.drawn + 1 } })

/-! ### Zeroisation (R562, Table 14.3) -/

/-- The quay fails, and trains and keys again (R494, R562). -/
def State.rekeyQuay (s : State) (q : Nat) : State :=
  let t := s.quayFails q 3
  t.putQuay q { t.quay q with st := .training }

/-- Quays that hold link keys or agree them. -/
def State.keyedQuays (s : State) : List Nat :=
  (List.range 16).filter fun q => s.quayUp q || (s.quay q).st == .keying || (s.quay q).st == .training

/-- Zeroise session, link and IDE keys; the DRBG is reseeded. -/
def State.zeroiseKeys (s : State) : State :=
  let s := s.keyedQuays.foldl (fun t q => t.rekeyQuay q) s
  let s := ([0, 1].filter fun p => s.flag HST_PORT_STATUS_IDE_SECURE p).foldl (fun t p => t.ideLeaves p) s
  { s with cus := { s.cus with ide := [], sessions := [], chunksIn := [], chunksOut := [], seeds := s.cus.seeds + 1 } }

/-- Zeroise every volatile key, identity and alias keys and the DRBG's state included. -/
def State.zeroiseAll (s : State) : State :=
  let s := s.zeroiseKeys
  { s with cus := { s.cus with identity := false, drbg := false, spdm := [], nonce := none } }

/-- CUS_ZEROISE (R562, R494, R444): zeroisation is done as the command is. -/
def execCusZeroise (s : State) : Host.Outcome State Fault Refusal := ok (s.hostDo fun t => t.zeroiseKeys)

/-! ### Debug sessions (R573, R578, R579) -/

/-- A task halted for debug goes on from the state it had. -/
def KCtx.dbgResume (x : KCtx) (req : Nat) : KCtx := { x with st := x.dbgFrom, reason := 0, dbgReq := req }

/-- The slot is halted for debug. -/
def KCtx.dbgHalted (x : KCtx) : Bool := x.st == .halted && x.reason == 7

/-- Close any open session to D0: every task halted for debug resumes, and a request that waits is dropped. -/
def State.debugClose (s : State) : State :=
  let s := { s with ctxs := s.ctxs.map fun (e : Nat × KCtx) => (e.1, if e.2.dbgHalted then e.2.dbgResume 0 else { e.2 with dbgReq := 0 }) }
  (s.put CUS_DEBUG_STATUS_LEVEL 0 0).put CUS_DEBUG_STATUS_NARROWED 0 0

/-- DEBUG_CLOSE (R573, R578). -/
def execDebugClose (s : State) : Host.Outcome State Fault Refusal := ok (s.hostDo fun t => t.debugClose)

/-- `CUS_DBG_KILN` acts: D2 or D3 is open, and no operation is under way (R578). -/
def State.dbgActs (s : State) : Bool := s.debugDeep && s.ctxs.all fun e => e.2.dbgReq == 0

/-- `OP` halt: at once at a command boundary, else at the slot's next one. -/
def State.dbgHalt (s : State) (k c : Nat) : State :=
  let x := s.ctx k c
  if !s.dbgActs then s
  else if x.st == .ready && !x.begun then s.dbgStop k c
  else if x.st == .ready || x.st == .running || x.st == .waitTile || x.st == .waitBar then s.setCtx k c fun y => { y with dbgReq := 1 }
  else s

/-- `OP` 2 or 3: the task runs one command, or to its next tile boundary, and halts again. -/
def State.dbgStep (s : State) (k c req : Nat) : State :=
  if s.dbgActs && (s.ctx k c).dbgHalted then s.setCtx k c fun x => x.dbgResume req else s

/-- A write of `CUS_DBG_KILN`. -/
def State.dbgKiln (s : State) (k c op : Nat) : State :=
  if op == 1 then s.dbgHalt k c else if op == 2 || op == 3 then s.dbgStep k c op else if op == 4 then s.dbgStep k c 0 else s

/-- DEBUG_HALT (R578). -/
def execDebugHalt (kiln slot : Nat) (s : State) : Host.Outcome State Fault Refusal :=
  if kiln < s.kilnCount && slot < 4 then ok (s.hostDo fun t => t.dbgKiln kiln slot 1) else ok s

/-- DEBUG_STEP_COMMAND (R578). -/
def execDebugStepCommand (kiln slot : Nat) (s : State) : Host.Outcome State Fault Refusal :=
  if kiln < s.kilnCount && slot < 4 then ok (s.hostDo fun t => t.dbgKiln kiln slot 2) else ok s

/-- DEBUG_STEP_TILE (R578). -/
def execDebugStepTile (kiln slot : Nat) (s : State) : Host.Outcome State Fault Refusal :=
  if kiln < s.kilnCount && slot < 4 then ok (s.hostDo fun t => t.dbgKiln kiln slot 3) else ok s

/-- DEBUG_RESUME (R578). -/
def execDebugResume (kiln slot : Nat) (s : State) : Host.Outcome State Fault Refusal :=
  if kiln < s.kilnCount && slot < 4 then ok (s.hostDo fun t => t.dbgKiln kiln slot 4) else ok s

/-! ### Health and watchdog of customs (R556, R560) -/

/-- TRNG_HEALTH_FAIL (R560, R529). -/
def execTrngHealthFail (s : State) : Host.Outcome State Fault Refusal :=
  if s.powered && !s.flag CUS_STATUS_ERROR 0 then ok (s.zeroiseAll.deviceStop (mkErr s 3 0x0F 0x10 0 0 none [])) else ok s

/-- CUSTOMS_WATCHDOG (R556, R574, R579): link and IDE keys, the veil and `D2_SINCE_POWER` are held; sessions end, the nonce expires, and
the open debug session closes. -/
def execCustomsWatchdog (s : State) : Host.Outcome State Fault Refusal :=
  if s.powered && !s.flag CUS_STATUS_ERROR 0 then
    let t := s.debugClose
    ok ({ t with cus := { t.cus with sessions := [], spdm := [], chunksIn := [], chunksOut := [], nonce := none } }.detect
      (mkErr s 0 0x0F 0x11 0 0 none []))
  else ok s

/-! ### SPDM (R568 to R570, Tables 14.7 and 14.8) -/

/-- The transports: 0 and 1 the DOE mailboxes, 2 MCTP over VDM, 3 MCTP over I3C. 4 stands for the debug port. -/
def spdmTransport (t : Nat) : Bool := decide (t < 4)

/-- What a requester has negotiated over a transport: 0 nothing, 1 version, 2 capabilities, 3 algorithms. -/
def Customs.level (x : Customs) (t : Nat) : Nat := ((x.spdm.find? fun p => p.1 == t).map (·.2)).getD 0

/-- Set it. -/
def Customs.setLevel (x : Customs) (t n : Nat) : Customs := { x with spdm := (t, n) :: x.spdm.filter fun p => p.1 != t }

/-- Error codes of SPDM. -/
def spdmInvalid : Nat := 0x01
def spdmUnexpected : Nat := 0x04
def spdmDecrypt : Nat := 0x06
def spdmSessionLimit : Nat := 0x0A
def spdmSessionRequired : Nat := 0x0B
def spdmLarge : Nat := 0x0F

/-- An ERROR response. -/
def State.spdmError (s : State) (t code : Nat) : State := s.send (.spdm t 0x7F [code])

/-- An answer to a request that needs a level of negotiation; customs that does not run answers nothing. -/
def State.spdmAnswer (s : State) (t need : Nat) (f : State → State) : State :=
  if !(s.customsUp && spdmTransport t) then s
  else if s.cus.level t < need then s.spdmError t spdmUnexpected
  else f s

/-- GET_VERSION: SPDM 1.3 and 1.2. -/
def execGetVersion (transport : Nat) (s : State) : Host.Outcome State Fault Refusal :=
  ok (s.spdmAnswer transport 0 fun t => { t with cus := t.cus.setLevel transport 1 }.send (.spdm transport 0x04 [0x13, 0x12]))

/-- The capabilities of Table 14.7 as SPDM's flag bits: CERT, CHAL, MEAS with signature, MEAS_FRESH, ENCRYPT, MAC, MUT_AUTH, KEY_EX,
HBEAT, KEY_UPD and CHUNK. -/
def spdmCaps : Nat := 0x263F6

/-- GET_CAPABILITIES. -/
def execGetCapabilities (transport : Nat) (s : State) : Host.Outcome State Fault Refusal :=
  ok (s.spdmAnswer transport 1 fun t => { t with cus := t.cus.setLevel transport (max 2 (t.cus.level transport)) }.send (.spdm transport 0x61 [spdmCaps]))

/-- NEGOTIATE_ALGORITHMS: ECDSA P-384, SHA-384, secp384r1 and AES-256-GCM. -/
def execNegotiateAlgorithms (transport : Nat) (s : State) : Host.Outcome State Fault Refusal :=
  ok (s.spdmAnswer transport 2 fun t => { t with cus := t.cus.setLevel transport 3 }.send (.spdm transport 0x63 [0x80, 0x02, 0x10, 0x02]))

/-- What a certificate chain is over: the identity chain never changes, the alias chain follows slots 1 to 6 (R561). -/
def Customs.chainOf (x : Customs) (slot : Nat) : Nat := if slot == 0 then 0 else (x.slots.take 6).foldl Config.sha384 0

/-- The digest of a certificate chain. -/
def Customs.chainDigest (x : Customs) (slot : Nat) : Nat := Config.sha384 slot (x.chainOf slot)

/-- GET_DIGESTS: slots 0 and 1. -/
def execGetDigests (transport : Nat) (s : State) : Host.Outcome State Fault Refusal :=
  ok (s.spdmAnswer transport 3 fun t => t.send (.spdm transport 0x01 [0x3, t.cus.chainDigest 0, t.cus.chainDigest 1]))

/-- A portion of a certificate chain: its slot, how many bytes it has, how many remain, and the bytes. -/
def Customs.chainPart (x : Customs) (slot offset len : Nat) : List Nat :=
  let n := min len (Config.certBytes slot - offset)
  [slot, n, Config.certBytes slot - offset - n] ++
  (List.range n).map fun i => (Config.cryptoByte slot (x.chainOf slot) (offset + i)).toNat

/-- GET_CERTIFICATE. -/
def execGetCertificate (transport slot offset len : Nat) (s : State) : Host.Outcome State Fault Refusal :=
  ok (s.spdmAnswer transport 3 fun t =>
    if slot > 1 || offset > Config.certBytes slot then t.spdmError transport spdmInvalid
    else t.send (.spdm transport 0x02 (t.cus.chainPart slot offset len)))

/-- Measurement block 8 (Table 14.8). -/
def State.stateBlock (s : State) : List Nat :=
  [s.cus.lifecycle, s.get CUS_DEBUG_STATUS_LEVEL 0, b2n s.power.d2SincePower, s.get CUS_STATUS_D2_COUNT 0, s.cus.tamper,
   s.get CUS_STATUS_VEILED 0]

/-- A measurement block of an index from 1 to 9. -/
def State.measurement (s : State) (i : Nat) : List Nat :=
  if 1 ≤ i && i ≤ 7 then [s.cus.slots.getD (i - 1) 0]
  else if i == 8 then s.stateBlock
  else if i == 9 then s.cus.counters
  else []

/-- Every measurement block of indices 1 to 9. -/
def State.measurements (s : State) : List Nat := (List.range 9).flatMap fun i => s.measurement (i + 1)

/-- A digest of a list of values. -/
def digestOf (l : List Nat) : Nat := l.foldl Config.sha384 0

/-- CHALLENGE: the chain's digest, a fresh nonce, the measurement summary and a signature (R569). -/
def execChallenge (transport slot nonce : Nat) (s : State) : Host.Outcome State Fault Refusal :=
  ok (s.spdmAnswer transport 3 fun t =>
    if slot > 1 then t.spdmError transport spdmInvalid
    else
      let (own, t) := t.draw 0
      let said := [slot, t.cus.chainDigest slot, own, digestOf t.measurements]
      let (sig, t) := t.draw (digestOf (nonce :: said))
      t.send (.spdm transport 0x03 (said ++ [sig])))

/-- Bytes of an ML-DSA-87 signature (Table 14.5). -/
def mlDsaBytes : Nat := 4627

/-- A list cut into pieces of 1,024. `fuel` bounds the pieces. -/
def chunked {α : Type} : Nat → List α → List (List α)
  | 0, _ => []
  | fuel + 1, l => if l.isEmpty then [] else l.take 1024 :: chunked fuel (l.drop 1024)

/-- Hold a large response for CHUNK_GET, and say so. Chunks of 1,024 B. DESIGN CHOICE (log 43). -/
def State.largeResponse (s : State) (t : Nat) (bs : List Byte) : State :=
  { s with cus := { s.cus with chunksOut := (t, chunked (bs.length / 1024 + 1) bs) :: s.cus.chunksOut.filter fun p => p.1 != t } }.spdmError t
    spdmLarge

/-- The ML-DSA-87 signature of block 0xF0 over the measurement transcript (R569). -/
def State.blockF0 (s : State) (nonce : Nat) : List Byte × State :=
  let (n, s) := s.draw (digestOf (nonce :: s.measurements))
  ((List.range mlDsaBytes).map fun i => Config.cryptoByte 2 n i, s)

/-- Measurement blocks that are sent whole: the values, a fresh nonce, and a signature when one is asked for. -/
def State.measuresSent (s : State) (t nonce : Nat) (signed : Bool) (values : List Nat) : State :=
  let (own, s) := s.draw 0
  let said := values ++ [own]
  if signed then
    let (sig, s) := s.draw (digestOf (nonce :: said))
    s.send (.spdm t 0x60 (said ++ [sig]))
  else s.send (.spdm t 0x60 said)

/-- GET_MEASUREMENTS (R569, R570): index 0 the number of blocks, 1 to 9 a block, 0xFF every block, 0xF0 the ML-DSA-87 signature; the
last two are large responses. -/
def execGetMeasurements (transport index nonce : Nat) (signed : Bool) (s : State) : Host.Outcome State Fault Refusal :=
  ok (s.spdmAnswer transport 3 fun t =>
    if index == 0 then t.measuresSent transport nonce signed [10]
    else if index ≤ 9 then t.measuresSent transport nonce signed (t.measurement index)
    else if index == 0xF0 || index == 0xFF then
      let (sig, u) := t.blockF0 nonce
      u.largeResponse transport ((if index == 0xFF then t.measurements.flatMap fun v => leBytes 48 v else []) ++ sig)
    else t.spdmError transport spdmInvalid)

/-! ### Sessions -/

/-- A session of a number that a transport opened. -/
def Customs.session (x : Customs) (n : Nat) : Option Session := x.sessions.find? fun y => y.id == n

/-- A finished session of a transport. -/
def Customs.finishedOn (x : Customs) (t n : Nat) : Bool :=
  match x.session n with
  | some y => y.finished && y.transport == t
  | none => false

/-- A finished session with mutual authentication, which vendor requests need (Table 14.7). -/
def Customs.mutualSession (x : Customs) (n : Nat) : Option Session :=
  match x.session n with
  | some y => if y.finished && y.mutualAuth then some y else none
  | none => none

/-- Replace a session. -/
def Customs.putSession (x : Customs) (y : Session) : Customs := { x with sessions := x.sessions.map fun z => if z.id == y.id then y else z }

/-- End a session. -/
def Customs.dropSession (x : Customs) (n : Nat) : Customs := { x with sessions := x.sessions.filter fun z => z.id != n }

/-- KEY_EXCHANGE: a session opens, when fewer than four are held; its number, a key share and a signature are answered. -/
def execKeyExchange (transport : Nat) (mutualAuth : Bool) (s : State) : Host.Outcome State Fault Refusal :=
  ok (s.spdmAnswer transport 3 fun t =>
    if t.cus.sessions.length ≥ 4 then t.spdmError transport spdmSessionLimit
    else
      let (key, t) := t.draw 0
      let (sig, t) := t.draw key
      let n := t.cus.nextSession
      { t with cus := { t.cus with sessions := t.cus.sessions ++ [(⟨n, transport, false, mutualAuth, 0⟩ : Session)], nextSession := n + 1 } }.send
        (.spdm transport 0x64 [n, key, sig]))

/-- FINISH: `ok` says that what the requester proves verifies; a session that fails it ends. -/
def execFinish (transport session : Nat) (ok : Bool) (s : State) : Host.Outcome State Fault Refusal :=
  Machine.ok (s.spdmAnswer transport 3 fun t =>
    match t.cus.session session with
    | some y =>
      if y.finished || y.transport != transport then t.spdmError transport spdmUnexpected
      else if ok then { t with cus := t.cus.putSession { y with finished := true } }.send (.spdm transport 0x65 [session])
      else { t with cus := t.cus.dropSession session }.spdmError transport spdmDecrypt
    | none => t.spdmError transport spdmSessionRequired)

/-- HEARTBEAT_SPDM. -/
def execHeartbeatSpdm (transport session : Nat) (s : State) : Host.Outcome State Fault Refusal :=
  ok (s.spdmAnswer transport 3 fun t =>
    if t.cus.finishedOn transport session then t.send (.spdm transport 0x68 [session]) else t.spdmError transport spdmSessionRequired)

/-- KEY_UPDATE: the session's keys move on. -/
def execKeyUpdate (transport session : Nat) (s : State) : Host.Outcome State Fault Refusal :=
  ok (s.spdmAnswer transport 3 fun t =>
    match t.cus.session session with
    | some y =>
      if y.finished && y.transport == transport then
        { t with cus := t.cus.putSession { y with updates := y.updates + 1 } }.send (.spdm transport 0x69 [session])
      else t.spdmError transport spdmSessionRequired
    | none => t.spdmError transport spdmSessionRequired)

/-- END_SESSION. -/
def execEndSession (transport session : Nat) (s : State) : Host.Outcome State Fault Refusal :=
  ok (s.spdmAnswer transport 3 fun t =>
    if t.cus.finishedOn transport session then { t with cus := t.cus.dropSession session }.send (.spdm transport 0x6C [session])
    else t.spdmError transport spdmSessionRequired)

/-! ### Chunks -/

/-- Chunks held of a large request. -/
def Customs.partsIn (x : Customs) (t : Nat) : List (List Byte) := ((x.chunksIn.find? fun p => p.1 == t).map (·.2)).getD []

/-- Chunks of a large response not yet fetched. -/
def Customs.partsOut (x : Customs) (t : Nat) : List (List Byte) := ((x.chunksOut.find? fun p => p.1 == t).map (·.2)).getD []

/-- CHUNK_SEND: chunks in order; with the last one the large request is whole, and is answered as the request it is. -/
def execChunkSend (transport seq : Nat) (last : Bool) (data : List Byte) (s : State) : Host.Outcome State Fault Refusal :=
  ok (s.spdmAnswer transport 3 fun t =>
    let parts := if seq == 0 then [] else t.cus.partsIn transport
    let rest := t.cus.chunksIn.filter fun p => p.1 != transport
    if seq != parts.length then { t with cus := { t.cus with chunksIn := rest } }.spdmError transport spdmInvalid
    else { t with cus := { t.cus with chunksIn := if last then rest else (transport, parts ++ [data]) :: rest } }.send
      (.spdm transport 0x05 [seq]))

/-- CHUNK_GET: the chunk of a number; a response is forgotten once its last chunk is fetched. -/
def execChunkGet (transport seq : Nat) (s : State) : Host.Outcome State Fault Refusal :=
  ok (s.spdmAnswer transport 3 fun t =>
    let parts := t.cus.partsOut transport
    match parts[seq]? with
    | none => t.spdmError transport spdmInvalid
    | some c =>
      let u := if seq + 1 == parts.length then
          { t with cus := { t.cus with chunksOut := t.cus.chunksOut.filter fun p => p.1 != transport } }
        else t
      u.send (.spdm transport 0x06 ([seq, b2n (seq + 1 == parts.length)] ++ c.map BitVec.toNat)))

/-! ### Vendor requests -/

/-- IDE_KM (R442): keys are set for the port whose mailbox carries the session, and `go` makes its stream Secure under them. -/
def execIdeKm (session port : Nat) (go : Bool) (s : State) : Host.Outcome State Fault Refusal :=
  if !s.customsUp then ok s
  else match s.cus.mutualSession session with
    | some y =>
      if port < 2 && y.transport == port then
        let t := s.send (.spdm port 0x7E [port, b2n go])
        if !go then ok { t with cus := { t.cus with ide := port :: t.cus.ide.erase port } }
        else if t.cus.ide.contains port then ok (t.ideSecure port)
        else ok (s.spdmError port spdmUnexpected)
      else ok (s.spdmError y.transport spdmInvalid)
    | none => ok s

/-- Who a vendor request comes from: a mutual session, or the debug port as session 0; its transport. -/
def State.asker (s : State) (session : Nat) : Option Nat :=
  if session == 0 then some 4 else (s.cus.mutualSession session).map fun y => y.transport

/-- DEBUG_NONCE (R574): a new nonce, and the one before expires. -/
def execDebugNonce (session : Nat) (s : State) : Host.Outcome State Fault Refusal :=
  if !s.customsUp then ok s
  else match s.asker session with
    | some t =>
      let (n, u) := s.draw 0
      ok ({ u with cus := { u.cus with nonce := some n } }.send (.spdm t 0x7E [n]))
    | none => ok s

/-! ### Unlocking (R573 to R577, R582) -/

/-- The level and its signer are allowed in a lifecycle state (Table 14.9); key index 0 is the owner, 1 to 4 Chidazer's pairs. -/
def levelAllowed (lifecycle level keyIndex : Nat) : Bool :=
  if lifecycle == lcManufacturing then decide (keyIndex ≥ 1)
  else if lifecycle == lcProvisioned || lifecycle == lcDeployed then decide (level ≤ 2) && keyIndex == 0
  else if lifecycle == lcReturned then decide (level ≤ 2) && decide (keyIndex ≥ 1)
  else false

/-- The token's signatures verify under keys that the device knows and has not revoked. -/
def State.tokenSigned (s : State) (k : Token) : Bool :=
  k.signedOk && (if k.keyIndex == 0 then s.cus.ownerHash.isSome else !s.cus.revoked.contains (k.keyIndex - 1))

/-- The first refusal code that applies, 0 for none (R575). In Blank no token is needed (R573). -/
def State.unlockRefusal (s : State) (k : Token) : Nat :=
  let blank := s.cus.lifecycle == lcBlank
  if k.level < 1 || k.level > 3 || (!blank && (k.reserved || decide (k.keyIndex > 4))) then 1
  else if !blank && !s.tokenSigned k then 2
  else if !blank && (k.nonce.isNone || k.nonce != s.cus.nonce) then 3
  else if !blank && !k.deviceOk then 4
  else if !blank && !(k.lifecycle == s.cus.lifecycle && levelAllowed s.cus.lifecycle k.level k.keyIndex) then 5
  else if k.level == 2 && (s.flag QUY_POD_CTL_IN_POD 0 || !s.jobs.isEmpty) then 6
  else if s.flag CUS_DEBUG_STATUS_LEVEL 0 then 7
  else 0

/-- A model under the veil: the model cache is emptied (R577). -/
def Model.emptied (x : Model) : Model :=
  { x with st := x.st.lost, blocks := [], oldBlocks := [], toLoad := [] }

/-- The veil (R577): warehouse and berths are filled with zeros, both caches are emptied, and every channel set in use is veiled. -/
def State.veil (s : State) : State :=
  let s := (s.models.map (·.1)).foldl (fun t m => t.endLoad m) s
  let s := (s.zero whsBase whsBytes).zero berthBase viewStep
  { s with models := s.models.map fun (e : Nat × Model) => (e.1, e.2.emptied), hot := [],
           veiled := (List.range 32).filter fun n => s.get HBM_CHSET_COUNT n != 0 }.put CUS_STATUS_VEILED 0 1

/-- A D2 unlock takes effect in the order of R576. -/
def State.unlockD2 (s : State) : State :=
  let s := s.zeroiseKeys.veil
  let s := if s.cus.lifecycle == lcDeployed then { s with power := { s.power with d2SincePower := true } } else s
  (s.inc CUS_STATUS_D2_COUNT 0 1).put CUS_DEBUG_STATUS_LEVEL 0 2

/-- Open a level; in Banked, D1 and D2 open narrowed (R582). -/
def State.openLevel (s : State) (level : Nat) : State :=
  let s := if level == 2 then s.unlockD2 else s.put CUS_DEBUG_STATUS_LEVEL 0 level
  if s.power.mode == .banked && level != 3 then s.put CUS_DEBUG_STATUS_NARROWED 0 1 else s

/-- Judge a token. -/
def State.unlock (s : State) (k : Token) : State :=
  let c := s.unlockRefusal k
  let s := if k.nonce.isSome && k.nonce == s.cus.nonce then { s with cus := { s.cus with nonce := none } } else s
  if c != 0 then s.put CUS_DEBUG_STATUS_LAST_REFUSAL 0 c else s.openLevel k.level

/-- Tell the asker the result, where the session still stands. -/
def State.unlockSaid (s : State) (k : Token) (c : Nat) : State :=
  match k.viaSession with
  | none => s.send (.spdm 4 0x7E [c])
  | some n => match s.cus.mutualSession n with
    | some y => s.send (.spdm y.transport 0x7E [c])
    | none => s

/-- DEBUG_UNLOCK (R573, R575 to R577): a token by vendor request in a session, or through the debug port. -/
def execDebugUnlock (token : Token) (s : State) : Host.Outcome State Fault Refusal :=
  let heard := match token.viaSession with
    | none => true
    | some n => (s.cus.mutualSession n).isSome
  if s.powered && !s.flag CUS_STATUS_ERROR 0 && (s.cus.identity || s.cus.lifecycle == lcBlank) && heard then
    ok ((s.unlock token).unlockSaid token (s.unlockRefusal token))
  else ok s

end Sys2Proof.Machine
end

