-- ==== Sys2Proof/Machine/Power.lean ====
section
/-! DEFINITION. Power states, comparators, and what the resets leave (14, 15, 17): device resets, entry to Banked and Smoulder, wakes,
trips, the module enable, and the lifecycle transitions that end in a reset. -/

namespace Sys2Proof.Machine

/-! ### What a reset keeps (Table 15.10, R625) -/

/-- The registers of the lighthouse. -/
def lighthouseFlds : List Fld :=
  [LHS_RTC_COUNT, LHS_TIDE_SHADOW_TIDE, LHS_SENSE_INPUT_MV, LHS_SENSE_SITE0, LHS_SENSE_SITE1, LHS_SENSE_SITE2, LHS_SENSE_SITE3,
   LHS_TRIPS_UV, LHS_TRIPS_OV, LHS_TRIPS_HOT, LHS_TRIPS_SHUTDOWN, LHS_TRIPS_LAST, LHS_START_STEP, LHS_START_FAILED, LHS_START_COLD,
   LHS_START_CAUSE]

/-- Only the given fields of unit 0 of the register store. -/
def State.keepFlds (s : State) (fs : List Fld) : Tab Nat := s.flds.filter fun e => fs.any fun f => f.key 0 == e.1

/-- The inactive bank of a class. -/
def Flash.other (x : Flash) : Bank := if x.active then x.bank0 else x.bank1
/-- The active bank of a class. -/
def Flash.current (x : Flash) : Bank := if x.active then x.bank1 else x.bank0
/-- Replace the inactive bank. -/
def Flash.setOther (x : Flash) (b : Bank) : Flash := if x.active then { x with bank0 := b } else { x with bank1 := b }

/-- The image with which a bank of a class leaves the factory: accepted, at version 0. DESIGN CHOICE (log 44). -/
def factoryImage (cls : Nat) : Image := ⟨cls, 0, false, 0, cls, false, true, true, {}⟩

/-- Module flash of a class as the module is shipped: bank 0 holds an image of each class but the owner policy. DESIGN CHOICE (log 44). -/
def factoryFlash (cls : Nat) : Flash :=
  if 1 ≤ cls && cls ≤ 5 then { bank0 := ⟨some (factoryImage cls), .valid⟩ } else {}

/-- Flash of a class. -/
def Pilot.flashOf (p : Pilot) (cls : Nat) : Flash := Tab.get factoryFlash p.flash cls
def Pilot.putFlash (p : Pilot) (cls : Nat) (x : Flash) : Pilot := { p with flash := Tab.insert cls x p.flash }

/-- A transfer cut short leaves the inactive bank invalid (R600). -/
def Pilot.cutTransfer (p : Pilot) : Pilot :=
  match p.transfer with
  | some c => { p.putFlash c ((p.flashOf c).setOther ⟨none, .invalid⟩) with transfer := none }
  | none => p

/-- What the pilot keeps: module flash, and what lies in the lighthouse. -/
def Pilot.kept (p : Pilot) : Pilot :=
  let q := p.cutTransfer
  { log := q.log, startLog := q.startLog, profile := q.profile, flash := q.flash, sev3Resets := q.sev3Resets,
    shadowTide := q.shadowTide, shadowAt := q.shadowAt }

/-- What customs keeps: fuses, and how many values it has drawn. -/
def Customs.kept (x : Customs) : Customs :=
  { lifecycle := x.lifecycle, tamper := x.tamper, counters := x.counters, ownerHash := x.ownerHash, revoked := x.revoked, drawn := x.drawn }

/-- What the lighthouse and the input keep of the power. -/
def Power.kept (p : Power) : Power := { p with mode := .run, tideResumes := false, mirrors := [], warming := false, cold := false }

/-- Start-up begins at a step (R603, Table 15.8). -/
def State.startFrom (s : State) (step : Nat) (cold : Bool) : State :=
  (((s.put LHS_START_STEP 0 step).put LHS_START_FAILED 0 0).put LHS_START_CAUSE 0 0).put LHS_START_COLD 0 (b2n cold)

/-- The device with everything lost that a device reset loses: SRAM and HBM, every register but the kept ones, volatile keys, the veil,
and all work. Only a power cycle leaves the error state of customs (R560). Host memory, what is already sent, and what waits to be done are outside it. -/
def State.cleared (s : State) : State :=
  { flds := s.keepFlds ((if s.flag CUS_STATUS_ERROR 0 then [CUS_STATUS_ERROR, CUS_STATUS_ERROR_SOURCE] else []) ++
      PLT_POLICY_HBM_FULL_WARM :: lighthouseFlds), host := s.host, stamp := s.stamp, cus := s.cus.kept, power := s.power.kept,
    pilot := s.pilot.kept, dock := { burned := s.dock.burned }, out := s.out, laneOut := { base := s.out.length }, pending := s.pending }

/-- A device reset, which waits for a fuse burn (R612). START_UP follows from its second step. -/
def State.deviceReset (s : State) : State :=
  if s.dock.burn.isSome then { s with pilot := { s.pilot with resetWaits := true } } else s.cleared.startFrom 2 false

/-- DEVICE_RESET (R625, Table 15.10). -/
def execDeviceReset (s : State) : Host.Outcome State Fault Refusal := if s.powered then ok s.deviceReset else ok s

/-- RESET_IN (Table 17.3, Table 15.10). -/
def execResetIn (s : State) : Host.Outcome State Fault Refusal := if s.powered then ok s.deviceReset else ok s

/-- A write of `RESET_POD`: the pod master broadcasts, and resets itself; other devices ignore it (R522). -/
def State.resetPod (s : State) : State :=
  if s.inPod && s.isMaster then (s.send (.broadcast .podReset)).deviceReset else s

/-- RESET_POD (R522). -/
def execResetPod (s : State) : Host.Outcome State Fault Refusal := ok (s.hostDo fun t => t.resetPod)

/-! ### Off, and power that comes back (R583, R586, R634 to R638) -/

/-- The device without power to its rails: everything but the lighthouse and flash is lost, `HBM_FULL_WARM` included. -/
def State.railsOff (s : State) : State :=
  let t := s.cleared
  { t with flds := s.keepFlds lighthouseFlds, power := { t.power with mode := .off } }

/-- The lighthouse loses power: its registers, `D2_SINCE_POWER` and the latches of the comparators with it (R583, R563). -/
def State.lighthouseOff (s : State) : State :=
  let t := s.railsOff
  { t with flds := [], pilot := { t.pilot with shadowTide := 0, shadowAt := 0 },
           power := { mode := .off, modEn := s.power.modEn, switchClosed := false, lighthouse := false } }

/-- LIGHTHOUSE_POWER_LOSS (R583, Table 17.4): a fuse burn is cut short. -/
def execLighthousePowerLoss (s : State) : Host.Outcome State Fault Refusal := ok s.lighthouseOff

/-- Start-up begins at its first step, as a cold start, once the input is good. -/
def State.coldPower (s : State) : State :=
  let t := s.railsOff.startFrom 1 true
  { t with power := { t.power with mode := .run, uv := false, ov := false, switchClosed := true, lighthouse := true, cold := true } }

/-- INPUT_RELEASE (R586, R636): the input has been within 40 V to 60 V for 100 ms. -/
def execInputRelease (s : State) : Host.Outcome State Fault Refusal :=
  if s.power.mode == .off && s.power.modEn then ok s.coldPower else ok s

/-- MOD_EN_RISE (R635, R636). One that comes while a release still waits for a burn cancels it. DESIGN CHOICE (log 45). -/
def execModEnRise (s : State) : Host.Outcome State Fault Refusal :=
  if s.power.modEn then ok s
  else if s.power.offWaits then ok { s with power := { s.power with modEn := true, offWaits := false } }
  else ok { s.coldPower with power := { s.coldPower.power with modEn := true } }

/-- MOD_EN_RELEASE (R635, Table 17.4): Off, once a fuse burn ends. -/
def execModEnRelease (s : State) : Host.Outcome State Fault Refusal :=
  if !s.power.modEn then ok s
  else
    let t := { s with power := { s.power with modEn := false } }
    if t.dock.burn.isSome then ok { t with power := { t.power with offWaits := true } } else ok t.lighthouseOff

/-- What waits for a fuse burn, once it has ended. -/
def State.afterBurn (s : State) : State :=
  if s.power.offWaits then s.lighthouseOff else if s.pilot.resetWaits then s.cleared.startFrom 2 false else s

/-- REPAIR_BURN_DONE (R285, R612): the entry is burned and takes effect at the next device reset. -/
def execRepairBurnDone (s : State) : Host.Outcome State Fault Refusal :=
  match s.dock.burn with
  | some r =>
    ok (({ s with dock := { s.dock with burned := s.dock.burned ++ [r], burn := none } }.put DDK_REPAIR_BUSY 0 0).repairResult 1).afterBurn
  | none => ok s

/-! ### Comparators (Table 15.1, R586 to R588) -/

/-- Count a trip, note it as the last one, and report it by PLDM. Codes: 1 UV, 2 OV, 0x10 + s hot, 0x20 + s shutdown, 0x30 tamper. -/
def State.tripped (s : State) (f : Option Fld) (code : Nat) : State :=
  let s := match f with
    | some f => s.inc f 0 1
    | none => s
  (s.put LHS_TRIPS_LAST 0 code).send (.pldmEvent 1 code)

/-- A power-fail stop: every quay goes dark, and the rails go off. -/
def State.powerFail (s : State) : State :=
  (s.sendAll (((List.range 16).filter fun q => (s.quay q).st != .down).map fun q => Msg.dark q)).railsOff

/-- UNDER_VOLTAGE_TRIP (R586). -/
def execUnderVoltageTrip (s : State) : Host.Outcome State Fault Refusal :=
  if s.power.lighthouse && !s.power.uv then
    let t := (s.tripped (some LHS_TRIPS_UV) 1).powerFail
    ok { t with power := { t.power with uv := true } }
  else ok s

/-- OVER_VOLTAGE_TRIP (R586): the hot-swap switch opens as well. -/
def execOverVoltageTrip (s : State) : Host.Outcome State Fault Refusal :=
  if s.power.lighthouse && !s.power.ov then
    let t := (s.tripped (some LHS_TRIPS_OV) 2).powerFail
    ok { t with power := { t.power with ov := true, switchClosed := false } }
  else ok s

/-- The arithmetic clock runs at a step from here on; leaving or entering Damped is a change of power state, at which the unlock nonce
expires (R574, R581). -/
def State.setStep (s : State) (step : Nat) : State :=
  let old := s.get HMR_POWER_STATUS_STEP 0
  let t := s.put HMR_POWER_STATUS_STEP 0 step
  if (old == 0) != (step == 0) then { t with cus := { t.cus with nonce := none } } else t

/-- HOT_TRIP (R587): the clock is forced to 0.4 GHz at once. -/
def execHotTrip (site : Nat) (s : State) : Host.Outcome State Fault Refusal :=
  if s.power.lighthouse && site < 4 && !s.power.hot.contains site then
    let t := s.tripped (some LHS_TRIPS_HOT) (0x10 + site)
    let t := { t with power := { t.power with hot := site :: t.power.hot, forced := true } }
    ok (if t.power.mode == .run then t.setStep 3 else t)
  else ok s

/-- HOT_TRIP_RELEASE (R587): the forced step lifts at the first boundary after it. -/
def execHotTripRelease (site : Nat) (s : State) : Host.Outcome State Fault Refusal :=
  ok { s with power := { s.power with hot := s.power.hot.erase site } }

/-- Only the lighthouse runs (Table 14.12): SRAM, HBM, volatile keys and sessions are lost. -/
def State.enterSmoulder (s : State) : State :=
  let t := s.cleared
  { t with power := { t.power with mode := .smoulder } }

/-- SHUTDOWN_TRIP (R588): Smoulder without a wait; admitted jobs end without records. -/
def execShutdownTrip (site : Nat) (s : State) : Host.Outcome State Fault Refusal :=
  if s.power.lighthouse && site < 4 && !s.power.shut.contains site then
    let t := s.tripped (some LHS_TRIPS_SHUTDOWN) (0x20 + site)
    let t := { t with power := { t.power with shut := site :: t.power.shut } }
    ok (if t.powered then t.enterSmoulder else t)
  else ok s

/-- SHUTDOWN_TRIP_RELEASE (R588): wake sources count again. -/
def execShutdownTripRelease (site : Nat) (s : State) : Host.Outcome State Fault Refusal :=
  ok { s with power := { s.power with shut := s.power.shut.erase site } }

/-- TAMPER_TRIP (R563, R579). -/
def execTamperTrip (s : State) : Host.Outcome State Fault Refusal :=
  if s.power.lighthouse then
    let t := (if s.powered then s.zeroiseAll.debugClose else s).tripped none 0x30
    let t := { t with cus := { t.cus with tamper := min 15 (t.cus.tamper + 1) }, power := { t.power with tamperLatch := true } }
    ok (if t.powered then t.enterSmoulder else t)
  else ok s

/-! ### The status pins (Table 17.3) -/

/-- THERM# is low from a hot trip to its release. -/
def State.thermLow (s : State) : Bool := !s.power.hot.isEmpty

/-- FAULT# is low while `HELD_STOPPED` is set. -/
def State.faultLow (s : State) : Bool := s.flag PLT_STATUS_HELD_STOPPED 0

/-! ### Banked and Smoulder (R580, R234, R367, Table 13.9) -/

/-- A stream context is FREE or FROZEN (R234). -/
def Stream.idle (x : Stream) : Bool := x.st == .free || x.st == .frozen

/-- The wait conditions of a low-power request hold. -/
def State.mayEnter (s : State) : Bool :=
  !s.flag QUY_POD_CTL_IN_POD 0 && s.jobs.isEmpty && (s.streams.all fun e => e.2.idle) && s.conss.isEmpty &&
  s.salvor.inHand.isNone && s.salvor.ring.isEmpty && s.salvor.waiting.isEmpty && s.rebuild.isNone

/-- Registers mirrored at entry to Banked (Table 15.2); the lighthouse's own stay live. -/
def mirroredRegs : List Reg :=
  [.HMR_POWER_STATUS, .HMR_TIDE_COUNT, .CUS_STATUS, .CUS_DEBUG_STATUS, .DDK_ELOG_STATUS, .HMR_SALVOR_STATUS, .HST_SIZE_ID, .HST_SIZE_COMPUTE,
   .HST_SIZE_MEMORY, .HST_SIZE_LINKS, .HST_SIZE_CLOCK]

/-- Enter Banked: the free tide stops, an open D1 or D2 session is narrowed, the nonce expires, and the mirrors are taken. -/
def State.enterBanked (s : State) : State :=
  let t := (s.inc HMR_POWER_STATUS_BANKED_ENTRIES 0 1).put HMR_POWER_STATUS_PENDING 0 0
  let level := s.get CUS_DEBUG_STATUS_LEVEL 0
  let t := if level == 1 || level == 2 then t.put CUS_DEBUG_STATUS_NARROWED 0 1 else t
  let t := { t.put HMR_TIDE_STATUS_RUNNING 0 0 with
    cus := { t.cus with nonce := none },
    power := { t.power with mode := .banked, tideResumes := s.flag HMR_TIDE_STATUS_RUNNING 0, warming := false } }
  { t with power := { t.power with mirrors := mirroredRegs.map fun r => (regOffset r 0, t.regValue r 0) } }

/-- Enter the requested state when its conditions hold. -/
def State.tryEntry (s : State) : State :=
  if s.power.mode == .run && s.flag HMR_POWER_STATUS_PENDING 0 && s.mayEnter then
    if s.get HMR_POWER_CTL_STATE_REQ 0 == 1 then s.enterBanked
    else if s.get HMR_POWER_CTL_STATE_REQ 0 == 2 then s.enterSmoulder
    else s
  else s

/-- A write of `STATE_REQ`: RUN cancels a pending request, the others wait and enter. -/
def State.stateReq (s : State) (v : Nat) : State :=
  if v == 0 then (s.put HMR_POWER_CTL_STATE_REQ 0 0).put HMR_POWER_STATUS_PENDING 0 0
  else ((s.put HMR_POWER_CTL_STATE_REQ 0 v).put HMR_POWER_STATUS_PENDING 0 1).tryEntry

/-- STATE_REQ_RUN (R580, Table 14.13). -/
def execStateReqRun (s : State) : Host.Outcome State Fault Refusal := ok ((s.wakeFor 0x01).hostDo fun t => t.stateReq 0)

/-- STATE_REQ_BANKED (R580). -/
def execStateReqBanked (s : State) : Host.Outcome State Fault Refusal := ok (s.hostDo fun t => t.stateReq 1)

/-- STATE_REQ_SMOULDER (R580). -/
def execStateReqSmoulder (s : State) : Host.Outcome State Fault Refusal := ok (s.hostDo fun t => t.stateReq 2)

/-- LOW_POWER_ENTRY (R580). -/
def execLowPowerEntry (s : State) : Host.Outcome State Fault Refusal := ok s.tryEntry

/-- STEP_REQ (R581): the step applies at the next boundary. -/
def execStepReq (step : Nat) (s : State) : Host.Outcome State Fault Refusal :=
  if step < 4 then ok (s.hostDo fun t => t.put HMR_POWER_CTL_STEP_REQ 0 step) else ok s

/-- A wake from Smoulder: start-up follows from its second step, out of any pod. -/
def State.wakeSmoulder (s : State) (cause : Nat) : State :=
  if s.power.mode == .smoulder && !s.power.tamperLatch && s.power.shut.isEmpty then
    (s.cleared.startFrom 2 false).put HMR_POWER_STATUS_WAKE_CAUSE 0 cause
  else s

/-- WAKE (R580, Table 14.13): causes 3 quay signal detect, 4 PCIe WAKE#, 5 management bus; 1 and 2 wake from Banked alone. -/
def execWake (cause : Nat) (s : State) : Host.Outcome State Fault Refusal :=
  if s.power.mode == .smoulder then (if 3 ≤ cause && cause ≤ 5 then ok (s.wakeSmoulder cause) else ok s)
  else if 1 ≤ cause && cause ≤ 5 then ok (s.wakeFor cause)
  else ok s

/-- QUAYS_WARM (R580): the quays run at full rate, and a JOIN request that waited for them is sent. -/
def execQuaysWarm (s : State) : Host.Outcome State Fault Refusal :=
  if s.power.mode == .run && s.power.warming then
    ok ({ s with power := { s.power with warming := false } }.put HMR_POWER_STATUS_QUAYS_WARM 0 1).askJoin
  else ok s

/-! ### Lifecycle transitions (R571, R572, Table 14.9) -/

/-- A path of Table 14.9, with its signer: 0 the owner, 1 Chidazer. -/
def lifecyclePath (now target signer : Nat) : Bool :=
  (now == lcBlank && target == lcManufacturing && signer == 1) ||
  (now == lcManufacturing && target == lcProvisioned && signer == 0) ||
  (now == lcProvisioned && target == lcDeployed && signer == 0) ||
  ((now == lcProvisioned || now == lcDeployed) && target == lcReturned && signer == 0)

/-- The transition is allowed (R571). -/
def State.mayTransit (s : State) (target signer : Nat) (signedOk : Bool) : Bool :=
  lifecyclePath s.cus.lifecycle target signer && signedOk && !s.flag CUS_DEBUG_STATUS_LEVEL 0 && !s.flag QUY_POD_CTL_IN_POD 0 &&
  s.jobs.isEmpty && s.power.mode == .run

/-- All ones, which the owner key hash's fuses become on entry to Returned (Table 14.3). -/
def allOnesHash : Nat := 2 ^ 384 - 1

/-- Burn the state word, and reset. -/
def State.transit (s : State) (target ownerHash : Nat) : State :=
  let s := if target == lcReturned then s.zeroiseAll else s
  let h := if target == lcProvisioned then some ownerHash else if target == lcReturned then some allOnesHash else s.cus.ownerHash
  { s with cus := { s.cus with lifecycle := target, ownerHash := h } }.deviceReset

/-- LIFECYCLE_TRANSITION (R571, R572): a vendor request in a session with mutual authentication; a Blank device, which has no identity, takes
it through the debug port as session 0. DESIGN CHOICE (log 46). Its answer is 0 where it is done, 1 where it is refused. -/
def execLifecycleTransition (session target signer ownerHash : Nat) (signedOk : Bool) (s : State) : Host.Outcome State Fault Refusal :=
  let from' := if s.cus.lifecycle == lcBlank then (if session == 0 then some 4 else none)
    else (s.cus.mutualSession session).map fun y => y.transport
  match from' with
  | none => ok s
  | some t =>
    if !s.powered || s.flag CUS_STATUS_ERROR 0 then ok s
    else if s.mayTransit target signer signedOk then ok ((s.send (.spdm t 0x7E [0])).transit target ownerHash)
    else ok (s.send (.spdm t 0x7E [1]))

end Sys2Proof.Machine
end

