-- ==== Sys2Proof/Machine/Pilot.lean ====
section
/-! DEFINITION. The pilot and the lighthouse's count of time (15): the management tick with the cap loop and the limit ladder, the
watchdog, the reset policy, the persistent log, firmware update, MCTP and PLDM, and the pod's tide hold. Completion codes and kinds of
management messages are the model's. DESIGN CHOICE (log 47). -/

namespace Sys2Proof.Machine

/-! ### Who writes (R619, R624, R30) -/

/-- The pilot runs: it has booted in the second step of start-up, and is not stopped (R591, Table 15.8). -/
def State.pilotUp (s : State) : Bool := s.powered && decide (3 ≤ s.get LHS_START_STEP 0) && !s.flag PLT_STATUS_PILOT_DOWN 0

/-- A write of a source takes effect: ports 0 and 1 as a host access, 2 the debug port at a whole D2 or D3, 3 the pilot. -/
def State.bySource (s : State) (source : Nat) (f : State → State) : State :=
  if source < 2 then s.hostDo f
  else if source == 2 then (if s.powered && s.debugDeep && !s.flag CUS_DEBUG_STATUS_NARROWED 0 then f s else s)
  else if source == 3 then (if s.pilotUp then f s else s)
  else s

/-! ### Real time and the tide shadow (R583 to R585) -/

/-- Counts of the real-time counter in a second. -/
def rtcHz : Nat := 32768

/-- The real-time count. -/
def State.rtc (s : State) : Nat := s.get LHS_RTC_COUNT 0

/-- Tide periods in a number of real-time counts, rounded down. -/
def State.tidesIn (s : State) (counts : Nat) : Nat := counts * 1000000000 / (rtcHz * max 1 s.periodNs)

/-- The shadow at a tick: copied while the tide runs, advanced while it is stopped. -/
def State.shadow (s : State) : State :=
  if s.flag HMR_TIDE_STATUS_RUNNING 0 then
    { s.put LHS_TIDE_SHADOW_TIDE 0 s.tide with pilot := { s.pilot with shadowTide := s.tide, shadowAt := s.rtc } }
  else s.put LHS_TIDE_SHADOW_TIDE 0 (s.pilot.shadowTide + s.tidesIn (s.rtc - s.pilot.shadowAt))

/-! ### Cap and thermal loop (R592 to R595, Tables 15.4 and 15.5) -/

/-- The throttle level and the relax level of a site in °C (Table 15.5). -/
def throttleAt (site : Nat) : Nat := if site < 2 then 100 else if site == 2 then 90 else 75
def relaxBelow (site : Nat) : Nat := if site < 2 then 95 else if site == 2 then 85 else 70

/-- Some site exceeds its throttle level. -/
def overheats (sites : List Nat) : Bool := sites.zipIdx.any fun x => decide (x.1 > throttleAt x.2)

/-- Every site is below its relax level. -/
def relaxed (sites : List Nat) : Bool := sites.zipIdx.all fun x => decide (x.1 < relaxBelow x.2)

/-- Kilns of a die with k in service that a rung allows (R593). -/
def rungKilns (k rung : Nat) : Nat := k - ceilDiv (min rung 5 * k) 10

/-- The step limit and the budget scale of a rung (Table 15.4). -/
def rungStep (rung : Nat) : Nat := if rung ≤ 5 then 0 else min 3 (rung - 5)
def rungScale (rung : Nat) : Nat := if rung ≤ 8 then 64 else 64 - 8 * (rung - 8)

/-- The rung after a tick, and the relax ticks counted: `power` in mW over the tick, against the cap in W (R594). -/
def capLoop (rung relax cap power : Nat) (sites : List Nat) : Nat × Nat :=
  if power > 1000 * cap || overheats sites then (min 12 (rung + 1), 0)
  else if power + 60000 ≤ 1000 * cap && relaxed sites then
    (if relax + 1 ≥ 32 then (rung - 1, 0) else (rung, relax + 1))
  else (rung, 0)

/-- Duty 2: the rung moves; at rung 12 above the cap, `CAP_UNMET` is set and reported. -/
def State.capDuty (s : State) (power : Nat) (sites : List Nat) : State :=
  let rung := s.get PLT_LIMIT_RUNG 0
  let cap := s.get PLT_CAP_CAP_W 0
  let (r, n) := capLoop rung s.pilot.relax cap power sites
  let s := { s.put PLT_LIMIT_RUNG 0 r with pilot := { s.pilot with relax := n } }
  if rung == 12 && power > 1000 * cap then (s.put PLT_LIMIT_CAP_UNMET 0 1).send (.pldmEvent 2 power) else s

/-- Duty 3: `PLT_LIMIT` is written, to take effect at the next boundary (R31, R595). -/
def State.limitDuty (s : State) : State :=
  let r := s.get PLT_LIMIT_RUNG 0
  let s := (s.put PLT_LIMIT_STEP_LIMIT 0 (rungStep r)).put PLT_LIMIT_BUDGET_64THS 0 (rungScale r)
  let s := (s.put PLT_LIMIT_KILNS_PORT 0 (rungKilns (s.get HST_SIZE_COMPUTE_KILNS_PORT 0) r)).put PLT_LIMIT_KILNS_STBD 0
    (rungKilns (s.get HST_SIZE_COMPUTE_KILNS_STBD 0) r)
  { s with pilot := { s.pilot with wrote := true } }

/-- The limits that the pilot has written take effect (R31). -/
def State.takeLimits (s : State) : State :=
  if s.pilot.wrote then
    let l : Limits := ⟨s.get PLT_LIMIT_STEP_LIMIT 0, some (s.get PLT_LIMIT_KILNS_PORT 0, s.get PLT_LIMIT_KILNS_STBD 0),
      s.get PLT_LIMIT_BUDGET_64THS 0⟩
    { s with pilot := { s.pilot with limits := l, wrote := false } }
  else s

/-! ### The persistent log (R601) -/

/-- Duty 4: records not yet copied go to the store of 16,384. -/
def State.logDuty (s : State) : State :=
  let total := s.get DDK_ELOG_STATUS_TOTAL 0
  let new := s.dock.elog.drop (s.dock.elog.length - (total - s.pilot.copied))
  let log := s.pilot.log ++ new
  { s with pilot := { s.pilot with log := log.drop (log.length - 16384), copied := total } }

/-! ### MCTP and PLDM (R597, Table 15.7) -/

/-- Kinds of management message: 0 MCTP control, 1 PLDM base discovery, 2 read a PLDM sensor, 3 set a PLDM effecter, 4 begin the transfer of
a firmware component; 5 carries SPDM, which the pilot forwards to customs. -/
def mctpKinds : Nat := 6

/-- A PLDM sensor's value (Table 15.7), none for an unknown number. -/
def State.sensor (s : State) (n : Nat) : Option Nat :=
  let mv := s.get LHS_SENSE_INPUT_MV 0
  match n with
  | 1 => some mv
  | 2 => some (s.pilot.power * 1000 / max 1 mv)
  | 3 => some (s.pilot.power / 1000)
  | 4 => some (s.get PLT_CAP_CAP_W 0)
  | 5 => some (s.get LHS_SENSE_SITE0 0)
  | 6 => some (s.get LHS_SENSE_SITE1 0)
  | 7 => some (s.get LHS_SENSE_SITE2 0)
  | 8 => some (s.get LHS_SENSE_SITE3 0)
  | 9 => some (s.pilot.rails.getD 0 0)
  | 10 => some (s.pilot.rails.getD 1 0)
  | 11 => some (s.pilot.rails.getD 2 0)
  | 12 => some (s.pilot.rails.getD 3 0)
  | 13 => some (s.get PLT_LIMIT_RUNG 0)
  | 14 => some (s.get DDK_ELOG_STATUS_TOTAL 0)
  | _ => none

/-- A cap is within its range (R592). -/
def capOk (w : Nat) : Bool := decide (900 ≤ w) && decide (w ≤ 2000)

/-- Serve one request: the state after it, and the answer's completion code and data. -/
def State.serve (s : State) (r : MctpRequest) : State × Option (List Nat) :=
  match r.kind, r.body with
  | 0, _ => (s, some [0])
  | 1, _ => (s, some [0, 0, 2, 5])
  | 2, [n] => (s, some (match s.sensor n with | some v => [0, v] | none => [1]))
  | 3, [4, w] => if capOk w then (s.put PLT_CAP_CAP_W 0 w, some [0]) else (s, some [1])
  | 4, [c] =>
    if 1 ≤ c && c ≤ 6 && s.pilot.transfer.isNone then ({ s with pilot := { s.pilot with transfer := some c } }, some [0])
    else (s, some [1])
  | 5, _ => (s, none)
  | _, _ => (s, some [1])

/-- Duty 5: every request that waits is answered. -/
def State.mctpDuty (s : State) : State :=
  let rs := s.pilot.requests
  rs.foldl (fun t r =>
    let (u, a) := t.serve r
    match a with
    | some body => u.send (.mctp r.transport (r.kind :: body))
    | none => u) { s with pilot := { s.pilot with requests := [] } }

/-- MCTP_MESSAGE (R597): transports 0 and 1 VDM over a port, 2 I3C, 3 SMBus; the request is answered in the next tick. -/
def execMctpMessage (transport kind : Nat) (body : List Nat) (s : State) : Host.Outcome State Fault Refusal :=
  if s.pilotUp && transport < 4 && kind < mctpKinds then
    ok { s with pilot := { s.pilot with requests := s.pilot.requests ++ [⟨transport, kind, body⟩] } }
  else ok s

/-! ### The management tick (R590, Table 15.3) -/

/-- What the lighthouse senses. -/
def State.senses (s : State) (millivolts : Nat) (sites : List Nat) : State :=
  let s := (s.put LHS_SENSE_INPUT_MV 0 millivolts).put LHS_SENSE_SITE0 0 (sites.getD 0 0)
  ((s.put LHS_SENSE_SITE1 0 (sites.getD 1 0)).put LHS_SENSE_SITE2 0 (sites.getD 2 0)).put LHS_SENSE_SITE3 0 (sites.getD 3 0)

/-- The pilot's duties in order. -/
def State.duties (s : State) (power : Nat) (sites rails : List Nat) : State :=
  let s := { s with pilot := { s.pilot with power := power, rails := rails } }
  ((((s.capDuty power sites).limitDuty).logDuty).mctpDuty)

/-- MANAGEMENT_TICK (R584, R585, R590): a tick of `counts` real-time counts ends, with the mean input power in mW, the input in mV, the four
sites in °C, and the four rails in W. -/
def execManagementTick (power millivolts counts : Nat) (sites rails : List Nat) (s : State) : Host.Outcome State Fault Refusal :=
  if s.power.lighthouse then
    let t := ((s.put LHS_RTC_COUNT 0 (s.rtc + counts)).shadow).senses millivolts sites
    ok (if t.pilotUp then t.duties power (sites.take 4) rails else t)
  else ok s

/-! ### The watchdog and the reset policy (R590, R591, R602) -/

/-- Real-time counts of a list within the last `sec` seconds. -/
def State.within (s : State) (sec : Nat) (l : List Nat) : List Nat := l.filter fun t => decide (s.rtc < t + sec * rtcHz)

/-- PILOT_WATCHDOG (R590, R591): the pilot restarts; after a third restart within 60 s it stays stopped. -/
def execPilotWatchdog (s : State) : Host.Outcome State Fault Refusal :=
  if s.pilotUp then
    let l := s.rtc :: s.within 60 s.pilot.restarts
    let down := decide (l.length ≥ 3)
    let t := (s.inc PLT_STATUS_RESTARTS 0 1).put PLT_STATUS_PILOT_DOWN 0 (b2n down)
    let t := { t with pilot := { t.pilot with restarts := l, relax := 0, requests := [] } }
    ok ((t.detect (mkErr t 0 0x0E (if down then 3 else 1) 0 0 none [])).send (.pldmEvent 4 l.length))
  else ok s

/-- What the pilot does about a severity 3 error: a device reset where the policy allows one and fewer than three came in the last hour,
else the device is held stopped. -/
def State.sev3Act (t : State) : State :=
  let recent := t.within 3600 t.pilot.sev3Resets
  if t.flag PLT_POLICY_AUTO_RESET 0 && recent.length < 3 then
    { t with pilot := { t.pilot with sev3Resets := t.rtc :: recent } }.deviceReset
  else (t.put PLT_STATUS_HELD_STOPPED 0 1).send (.pldmEvent 5 recent.length)

/-- SEVERITY3_RESET_POLICY (R602). -/
def execSeverity3ResetPolicy (s : State) : Host.Outcome State Fault Refusal :=
  if s.pilotUp && s.pilot.sev3 then
    let t := s.logDuty
    ok { t with pilot := { t.pilot with sev3 := false } }.sev3Act
  else ok s

/-! ### Cap, reset and profile (R592, R606, R612) -/

/-- The block of the pilot's registers. -/
def pltBlock : Nat := 10

/-- A write of `CAP_W`. -/
def State.capWrite (s : State) (source value : Nat) : State :=
  if capOk (value % 4096) then s.put PLT_CAP_CAP_W 0 value else s.discard source 4 pltBlock 0x00

/-- PLT_CAP_WRITE (R592, R632). -/
def execPltCapWrite (source value : Nat) (s : State) : Host.Outcome State Fault Refusal :=
  ok (s.bySource source fun t => t.capWrite source value)

/-- A write of `KEY`: a wrong one is discarded. -/
def State.pltReset (s : State) (source key : Nat) : State :=
  if key % 256 == 0xA5 then s.deviceReset else s.discard source 4 pltBlock 0x18

/-- PLT_RESET (R612, R632). -/
def execPltReset (source key : Nat) (s : State) : Host.Outcome State Fault Refusal :=
  ok (s.bySource source fun t => t.pltReset source key)

/-- The current pod registers as a join profile. -/
def State.currentProfile (s : State) : Profile :=
  ⟨s.regHeld .QUY_POD_CFG 0, (List.range 16).map fun q => s.regHeld .QUY_PEER q, s.regHeld .HMR_TIDE_CFG 0, s.regHeld .HMR_EPOCH_CFG 0⟩

/-- Store the profile. -/
def State.profileSave (s : State) : State := { s with pilot := { s.pilot with profile := some s.currentProfile } }

/-- Remove it. -/
def State.profileErase (s : State) : State := { s with pilot := { s.pilot with profile := none } }

/-- PROFILE_SAVE (R606). -/
def execProfileSave (s : State) : Host.Outcome State Fault Refusal := ok (s.hostDo fun t => t.profileSave)

/-- PROFILE_ERASE (R606). -/
def execProfileErase (s : State) : Host.Outcome State Fault Refusal := ok (s.hostDo fun t => t.profileErase)

/-! ### Images (R564 to R566, R598 to R600) -/

/-- Customs accepts an image of a class (R564). -/
def Customs.accepts (x : Customs) (cls : Nat) (i : Image) : Bool :=
  i.cls == cls && !i.reserved && decide (i.secVersion < 64) && i.digestOk && i.signedOk && decide (x.counters.getD (cls - 1) 0 ≤ i.secVersion) &&
  (if cls == 6 then i.keyIndex == 0 && x.ownerHash.isSome else decide (i.keyIndex < 4) && !x.revoked.contains i.keyIndex)

/-- A refused image is recorded, and its class shown (R564). -/
def State.refuseImage (s : State) (cls : Nat) : State :=
  let e := mkErr s 0 0x0F cls 0 0 none []
  ({ s with salvor := s.salvor.count e none }.logError e).put CUS_STATUS_ERROR_SOURCE 0 cls

/-- The verify step's result, 0 accepted, 1 refused. -/
def State.verified (s : State) (cls : Nat) (i : Image) : State :=
  if s.cus.accepts cls i then
    { s with pilot := s.pilot.putFlash cls ((s.pilot.flashOf cls).setOther ⟨some i, .verified⟩) }.send (.pldmEvent 6 0)
  else
    let t := s.refuseImage cls
    { t with pilot := t.pilot.putFlash cls ((t.pilot.flashOf cls).setOther ⟨none, .invalid⟩) }.send (.pldmEvent 6 1)

/-- FIRMWARE_TRANSFER_END (R598): the transfer under way ends with this image in the inactive bank of its class. -/
def execFirmwareTransferEnd (image : Image) (s : State) : Host.Outcome State Fault Refusal :=
  match s.pilot.transfer with
  | some c =>
    if s.pilotUp then ok ({ s with pilot := { s.pilot with transfer := none } }.verified c image) else ok s
  | none => ok s

/-- Mark a verified bank as pending. -/
def Bank.activated (b : Bank) : Bank := if b.st == .verified then { b with st := .pending } else b

/-- FIRMWARE_ACTIVATE (R598). -/
def execFirmwareActivate (s : State) : Host.Outcome State Fault Refusal :=
  if s.pilotUp then
    ok { s with pilot := { s.pilot with flash := s.pilot.flash.map fun (e : Nat × Flash) =>
      (e.1, { e.2 with bank0 := e.2.bank0.activated, bank1 := e.2.bank1.activated }) } }
  else ok s

/-! ### Holding the pod's tide (R613) -/

/-- The pod master's members are all ready. -/
def State.allReadyToStop (s : State) : Bool := s.pod.members.all fun d => s.pod.readies.contains d

/-- A device without admitted job or open consignment reports ready. -/
def State.reportReady (s : State) : State :=
  if s.pod.hold && !s.pod.readySent && s.jobs.isEmpty && s.conss.isEmpty then
    let t := { s with pod := { s.pod with readySent := true } }
    if t.isMaster then { t with pod := { t.pod with readies := t.me :: t.pod.readies.erase t.me } } else t.sendVc0 t.podMaster (.ready t.me)
  else s

/-- A write of `HOLD` at 1: ignored but on the pod master. -/
def State.tideHold (s : State) : State :=
  if s.inPod && s.isMaster && !s.pod.hold then
    { s.put HMR_TIDE_HOLD_HOLD 0 1 with pod := { s.pod with hold := true, readySent := false, readies := [], stopSent := false } }.send
      (.broadcast (.hold true))
  else s

/-- TIDE_HOLD (R613): written on the pod master, or heard on another device. -/
def execTideHold (heard : Bool) (s : State) : Host.Outcome State Fault Refusal :=
  if heard then
    (if s.live && s.inPod && !s.isMaster then ok { s with pod := { s.pod with hold := true, readySent := false } } else ok s)
  else ok (s.hostDo fun t => t.tideHold)

/-- HOLD_READY (R613): another device's report at the pod master, or this device's own. -/
def execHoldReady (device : Nat) (s : State) : Host.Outcome State Fault Refusal :=
  if !(s.live && s.inPod && s.pod.hold) then ok s
  else if device == s.me then ok s.reportReady
  else if s.isMaster && s.pod.members.contains device then
    ok { s with pod := { s.pod with readies := device :: s.pod.readies.erase device } }
  else ok s

/-- TIDE_STOP_BROADCAST (R613): the pod master names a boundary at least two tides later, or the others hear it. -/
def execTideStopBroadcast (tide : Nat) (heard : Bool) (s : State) : Host.Outcome State Fault Refusal :=
  if !(s.live && s.inPod && s.pod.hold) then ok s
  else if heard then (if s.isMaster then ok s else ok { s with pod := { s.pod with stopAt := some tide } })
  else if s.isMaster && !s.pod.stopSent && s.allReadyToStop && tide ≥ s.tide + 2 then
    ok ({ s with pod := { s.pod with stopAt := some tide, stopSent := true } }.send (.broadcast (.stopAt tide)))
  else ok s

/-- The hold is over: nothing of it remains. -/
def Pod.unheld (p : Pod) : Pod :=
  { p with hold := false, held := false, release := false, readySent := false, stopAt := none, readies := [], stopSent := false }

/-- The tide starts again at a number. -/
def State.resumeTide (s : State) (tide : Nat) : State :=
  let s := ((s.startTide tide).put HMR_TIDE_HOLD_HOLD 0 0).put HMR_TIDE_HOLD_HELD 0 0
  { s with pod := s.pod.unheld }

/-- The pod master resumes the pod's tide with the number after the held one. -/
def State.resumePod (s : State) : State :=
  (s.send (.broadcast (.resume (s.tide + 1) (s.get HMR_TIDE_CFG_PERIOD_STEPS 0) (s.get HMR_EPOCH_CFG_GRACE_TIDES 0)))).resumeTide (s.tide + 1)

/-- A write of `HOLD` at 0: it cancels the hold, or resumes the tide once the stop is broadcast. -/
def State.holdOff (s : State) : State :=
  if !(s.inPod && s.isMaster && s.pod.hold) then s
  else
    let s := s.put HMR_TIDE_HOLD_HOLD 0 0
    if s.pod.held then s.resumePod
    else if s.pod.stopSent then { s with pod := { s.pod with release := true } }
    else { s with pod := s.pod.unheld }.send (.broadcast (.hold false))

/-- Leave the pod at a resume that this device's settings do not meet: a reason of Table 12.5. -/
def State.leaveMismatched (s : State) (reason : Nat) : State :=
  let s := s.sendVc0 s.podMaster (.leave s.me)
  let s := (s.put QUY_POD_CTL_JOIN_RESULT 0 reason).put QUY_POD_CTL_IN_POD 0 0
  { s.putSize 0 with pod := {}, routes := [] }

/-- A resume or a cancel is heard. -/
def State.holdOffHeard (s : State) (tide steps grace : Nat) : State :=
  if !s.pod.held then { s with pod := s.pod.unheld }
  else if steps != s.get HMR_TIDE_CFG_PERIOD_STEPS 0 then s.leaveMismatched 1
  else if grace != s.get HMR_EPOCH_CFG_GRACE_TIDES 0 then s.leaveMismatched 6
  else s.resumeTide tide

/-- TIDE_HOLD_RELEASE (R613): written on the pod master, or heard on another device, with the tide number, `PERIOD_STEPS` and `GRACE_TIDES`
of the pod master. -/
def execTideHoldRelease (tide steps grace : Nat) (heard : Bool) (s : State) : Host.Outcome State Fault Refusal :=
  if heard then
    (if s.live && s.inPod && !s.isMaster && s.pod.hold then ok (s.holdOffHeard tide steps grace) else ok s)
  else ok (s.hostDo fun t => t.holdOff)

/-- The named stop boundary is reached: the tide stops, and the pod master shows it (R613). A release that came after the stop was
broadcast resumes at once. -/
def State.stopTide (s : State) : State :=
  if s.pod.stopAt == some s.tide then
    let s := (s.put HMR_TIDE_STATUS_RUNNING 0 0).put HMR_TIDE_HOLD_HELD 0 (b2n s.isMaster)
    let s := { s with pod := { s.pod with held := true, stopAt := none } }
    if s.pod.release && s.isMaster then s.resumePod else s
  else s

end Sys2Proof.Machine
end

