-- ==== Sys2Proof/Machine/Access.lean ====
section
/-! DEFINITION. Register accesses through BAR0 (00, 16): where an access goes, the two halves of a 64-bit register (R14), the tests of a
write (R628), the effect of an accepted write on its register, and reads. -/

namespace Sys2Proof.Machine

/-! ### Way maps and channel sets as a write would leave them (R255, R259, R434) -/

/-- Die and first way of a way-map register. -/
def wayMapOf : Reg → Option (Nat × Nat)
  | .WHS_WAY_MAP_PORT_LO => some (0, 0)
  | .WHS_WAY_MAP_PORT_HI => some (0, 8)
  | .WHS_WAY_MAP_STBD_LO => some (1, 0)
  | .WHS_WAY_MAP_STBD_HI => some (1, 8)
  | _ => none

/-- `USE` and `CLASSES` of way w of a die once a value is written to the map register of ways first to first + 7. -/
def State.wayEntry (s : State) (d first v w : Nat) : Nat × Nat :=
  if first ≤ w && w < first + 8 then (bits v (8 * (w - first)) 2, bits v (8 * (w - first) + 4) 4)
  else (s.wayUse d w, s.wayClasses d w)

/-- Ways of a die whose entry a write changes. -/
def State.waysChanged (s : State) (d first v : Nat) : List Nat :=
  (List.range 16).filter fun w => s.wayEntry d first v w != (s.wayUse d w, s.wayClasses d w)

/-- A way map keeps R255 and R259: the ways it changes are stopped, a scratch way is open to every class, and at most 12 ways hold hot rows. -/
def State.wayMapOk (s : State) (d first v : Nat) : Bool :=
  ((s.waysChanged d first v).all fun w => s.wayStopped d w) &&
  ((List.range 16).any fun w => s.wayEntry d first v w == (0, 15)) &&
  decide (((List.range 16).filter fun w => (s.wayEntry d first v w).1 == 2).length ≤ 12)

/-- A channel set keeps R434 and its shares sum to at most 16. -/
def State.chsetOk (s : State) (n v : Nat) : Bool :=
  let first := bits v 0 9
  let count := bits v 16 9
  decide (bits v 40 4 + bits v 44 4 + bits v 48 4 + bits v 52 4 ≤ 16) &&
  (count == 0 || (decide (first + count ≤ 384) &&
    (List.range 32).all fun k => k == n || s.get HBM_CHSET_COUNT k == 0 ||
      !(decide (first < s.get HBM_CHSET_FIRST_CHANNEL k + s.get HBM_CHSET_COUNT k) && decide (s.get HBM_CHSET_FIRST_CHANNEL k < first + count))))

/-! ### The tests of a write (R628) -/

/-- Test 2: the function of a set-up register is stopped (Table 16.3). A way map is judged way by way in test 4, and repair is always stopped. -/
def State.functionStopped (s : State) (r : Reg) (i : Nat) : Bool :=
  match r with
  | .HST_WIN_TABLE | .HMR_MODE | .HMR_CLASS_SHARE | .HMR_BUDGET_SLICE | .HMR_LOOKUP_CFG | .HMR_SAVE_AREA => s.flag HMR_ADMIT_CTL_DRAINED 0
  | .HMR_MODEL_DIR => s.flag HMR_ADMIT_CTL_DRAINED 0 && s.models.all fun e => e.2.st != .loading
  | .HST_EVT_BASE | .HST_EVT_CFG => s.flag HST_EVT_CTL_STOPPED 0
  | .HST_SQ_BASE | .HST_CQ_BASE | .HST_RING_CFG | .HMR_RING_SCHED => (s.ring i).st == .stopped
  | .HMR_TIDE_CFG | .HMR_EPOCH_CFG => !s.flag HMR_TIDE_STATUS_RUNNING 0
  | .HMR_HIST_POOL | .HMR_HIST_DIR | .HMR_HIST_SIZE => s.flag HMR_HIST_CTL_STOPPED 0
  | .HBM_CHSET => s.setStopped i
  | .CRN_TABLE_DIR | .CRN_GROUP_DIR => s.lookupIdle
  | .QUY_POD_CFG => !s.inPod
  | .QUY_COLL_DIR => s.collIdle
  | .QUY_PEER => s.flag QUY_CTL_STOPPED i
  | _ => true

/-- Test 3: no field takes a reserved encoding (R12). -/
def encodingOk (r : Reg) (v : Nat) : Bool :=
  match r with
  | .HMR_TIDE_CFG => decide (1 ≤ bits v 0 4) && decide (bits v 0 4 ≤ 8)
  | .HMR_EPOCH_CFG => decide (1 ≤ bits v 0 13) && decide (bits v 0 13 ≤ 4096)
  | .HST_EVT_CFG => decide (6 ≤ bits v 0 5) && decide (bits v 0 5 ≤ 16)
  | .HST_RING_CFG => decide (6 ≤ bits v 0 5) && decide (bits v 0 5 ≤ 16) && decide (6 ≤ bits v 8 5) && decide (bits v 8 5 ≤ 16)
  | .QUY_POD_CFG => bits v 12 2 != 3
  | .CRN_TABLE_CTL => bits v 12 2 != 3
  | .HMR_MODEL_CTL => bits v 16 2 != 3
  | .CUS_DBG_KILN => decide (bits v 12 3 ≤ 4)
  | .HMR_POWER_CTL => bits v 0 2 != 3
  | .DDK_REPAIR => decide (bits v 0 4 ≤ 1)
  | .WHS_WAY_MAP_PORT_LO | .WHS_WAY_MAP_PORT_HI | .WHS_WAY_MAP_STBD_LO | .WHS_WAY_MAP_STBD_HI =>
    (List.range 8).all fun w => bits v (8 * w) 2 != 3
  | _ => true

/-- Test 4: the register's own rule. `CAP_W` and the key of `PLT_RESET` are judged where they act. -/
def State.ruleOk (s : State) (r : Reg) (i v : Nat) : Bool :=
  match r with
  | .WHS_WAY_MAP_PORT_LO => s.wayMapOk 0 0 v
  | .WHS_WAY_MAP_PORT_HI => s.wayMapOk 0 8 v
  | .WHS_WAY_MAP_STBD_LO => s.wayMapOk 1 0 v
  | .WHS_WAY_MAP_STBD_HI => s.wayMapOk 1 8 v
  | .HMR_CLASS_SHARE => decide (bits v 0 6 + bits v 8 6 + bits v 16 6 + bits v 24 6 ≤ 64)
  | .HBM_CHSET => s.chsetOk i v
  | _ => true

/-- A register holds a field of policy, which the lock bars (R8, R631). -/
def RegRow.policy (r : RegRow) : Bool := r.places.any fun p => p.acc == .rwl

/-- The cause of Table 16.4 for which a write is discarded as a whole: the first test of R628 that fails, none when it is accepted. -/
def State.writeCause (s : State) (r : Reg) (i v : Nat) : Option Nat :=
  if r.row.policy && s.flag HST_SETUP_LOCK_SETUP_LOCK 0 then some 1
  else if r.row.setup && !s.functionStopped r i then some 2
  else if !encodingOk r v then some 3
  else if !s.ruleOk r i v then some 4
  else none

/-- A `BUSY` field reads 1 that discards every write to its register (R632). -/
def State.busy (s : State) (r : Reg) : Bool :=
  match r with
  | .CRN_TABLE_CTL => s.flag CRN_TABLE_CTL_BUSY 0
  | .HMR_MODEL_CTL => s.flag HMR_MODEL_CTL_BUSY 0
  | .HST_WIN_INVAL => s.flag HST_WIN_INVAL_BUSY 0
  | .DDK_REPAIR => s.flag DDK_REPAIR_BUSY 0
  | .CRN_REBUILD => s.flag CRN_REBUILD_BUSY 0
  | .CUS_DBG_KILN => s.ctxs.any fun e => e.2.dbgReq != 0
  | .PLT_PROFILE => s.flag PLT_PROFILE_BUSY 0
  | _ => false

/-- No field of the register can be written (Table 00.5). -/
def RegRow.readOnly (r : RegRow) : Bool := r.places.all fun p => p.acc == .ro || p.acc == .rc

/-! ### The effect of an accepted write -/

/-- Write the fields of copy i of a register by their access codes (Table 00.5); a write-only field keeps nothing. -/
def State.putFields (s : State) (r : Reg) (i v : Nat) : State :=
  r.row.places.foldl (fun t p => match p.src, p.acc with
    | .fld f off, .rw | .fld f off, .rwl => t.put f (i + off) (bits v p.lo p.width)
    | .fld f off, .w1c => if bit v p.lo then t.put f (i + off) 0 else t
    | .fld f off, .w1s => if bit v p.lo then t.put f (i + off) 1 else t
    | _, _ => t) s

/-- Apply an operation to each unit whose bit changes from `old` to `new`. -/
def State.perBit (s : State) (n old new : Nat) (on off : State → Nat → State) : State :=
  (List.range n).foldl (fun t k => if bit old k == bit new k then t else if bit new k then on t k else off t k) s

/-- A write of the way map: changed ways are noted for R260. -/
def State.writeWays (s : State) (r : Reg) (d first v : Nat) : State :=
  let ws := (s.waysChanged d first v).map fun w => 16 * d + w
  { s.putFields r 0 v with dock := { s.dock with changedWays := s.dock.changedWays ++ ws.filter fun k => !s.dock.changedWays.contains k } }

/-- The end of the addresses of HBM. -/
def hbmTop : Nat := 0x10000000000

/-- An undefined range of HBM, moved with the set it lies in. -/
def movedRange (old new : Nat) (e : Nat × Nat × Nat) : Nat × Nat × Nat :=
  if old ≤ e.1 && e.1 < hbmTop then (e.1 - old + new, e.2.1 - old + new, e.2.2) else e

/-- The memory of every later set moves from the old end of a set to its new end, and the set's own contents are undefined (R436). -/
def State.moveSets (s : State) (base old new : Nat) : State :=
  let u := (cutUndef base old s.undef).map (movedRange old new)
  let top := min hbmTop (hbmTop + old - new)
  let m := (s.mem.filter fun e => decide (e.1 < base) && decide (e.1 < hbmTop)) ++ Tab.slice old top new s.mem ++ (s.mem.filter fun e => decide (hbmTop ≤ e.1))
  let e := (s.ecc.filter fun e => decide (e.1 < base / 8)) ++ Tab.slice (old / 8) (top / 8) (new / 8) s.ecc ++
    (s.ecc.filter fun e => decide (hbmTop / 8 ≤ e.1))
  let t := { s with mem := m, ecc := e, undef := u, hot := [] }
  let t := if base < new then t.scramble base (new - base) else t
  { t with mem := t.mem.filter fun e => decide (e.2 ≠ memDefault t.undef e.1) }

/-- A write of a channel set (R434 to R436, R627). -/
def State.writeChset (s : State) (n v : Nat) : State :=
  let base := s.setBase n
  let was := s.get HBM_CHSET_COUNT n
  let count := bits v 16 9
  let moved := was != count || s.get HBM_CHSET_FIRST_CHANNEL n != bits v 0 9
  let t := s.putFields .HBM_CHSET n v
  let t := if moved then t.moveSets base (base + channelBytes * was) (base + channelBytes * count) else t
  if count == 0 then t.putBitAt HBM_CHSET_STATUS_STOPPED 0 n true
  else if was == 0 && !t.bitAt HBM_CHSET_STOP_STOP 0 n then t.chsetRestart n
  else t

/-- The threshold of hot rows follows a write of its bounds, unless pressure has lowered it (R272, R416). DEDUCED (log 48). -/
def State.hotCfg (s : State) (v : Nat) : State :=
  let old := s.get WHS_HOT_CFG_ADMIT_MIN 0
  let eff := s.get WHS_HOT_CFG_EFFECTIVE 0
  let mn := bits v 0 8
  let fl := bits v 8 8
  (s.putFields .WHS_HOT_CFG 0 v).put WHS_HOT_CFG_EFFECTIVE 0 (if fl > mn || eff ≥ old then mn else max (min eff mn) fl)

/-- `KIND` and `ID` of `HMR_FREEZE_RESET` (R424). -/
def State.freezeReset (s : State) (kind id : Nat) : State :=
  if kind == 0 then (if id < 256 then s.ringFreezeReset id else s)
  else if kind == 1 then (if id < 2048 then s.streamFreezeReset id else s)
  else if kind == 2 then (if id < 4 * s.kilnCount then s.taskFreezeReset id else s)
  else s.peerFreezeReset id

/-- `OP` of `CRN_TABLE_CTL` (R301, R303). An enable that asks its group master stays in progress until TABLE_ENABLE brings the answer.
DESIGN CHOICE (log 49). -/
def State.tableOp (s : State) (op table : Nat) : State :=
  if op == 1 then s.enableTable table none
  else if op == 2 then s.disableTable table
  else s

/-- A write of `QUY_CTL`: `STOP` set stops the quay; cleared, the quay trains, which QUAY_TRAIN or QUAY_RECONNECT ends. -/
def State.quayCtl (s : State) (q v : Nat) : State :=
  if bit v 0 then s.quayStop q
  else if s.flag QUY_CTL_STOP q then
    let t := (s.put QUY_CTL_STOP q 0).put QUY_CTL_STOPPED q 0
    let y := { t.quay q with stopping := false }
    t.putQuay q (if y.st == .up then y else if s.flag QUY_PEER_UNUSED q then { y with st := .down } else { y with st := .training })
  else s

/-- A write of `QUY_POD_CTL`. -/
def State.podCtl (s : State) (v : Nat) : State :=
  let t := if bit v 0 == s.flag QUY_POD_CTL_JOIN 0 then s else if bit v 0 then s.podJoin none else s.podLeave
  if bit v 1 then t.resetPod else t

/-- Set `SETUP_LOCK` (R630). -/
def State.setLock (s : State) (source : Nat) : State :=
  if s.flag HST_SETUP_LOCK_SETUP_LOCK 0 then s
  else (s.put HST_SETUP_LOCK_SETUP_LOCK 0 1).put HST_SETUP_LOCK_BY_PILOT 0 (b2n (source == 3))

/-- SETUP_LOCK (R630, R631). -/
def execSetupLock (source : Nat) (s : State) : Host.Outcome State Fault Refusal := ok (s.bySource source fun t => t.setLock source)

/-- What an accepted write of v does to copy i of a register. A free-running tide (`SOURCE` 1) starts at the write itself, with `TIDE` 0, on
a device that has left a pod too: R43 gives the start at a pod join alone. DESIGN CHOICE (log 128). -/
def State.regEffect (s : State) (source : Nat) (r : Reg) (i v : Nat) : State :=
  match r with
  | .HMR_TIDE_CFG => if bit v 16 then (s.putFields r i v).startTide 0 else s.putFields r i v
  | .HMR_MODE => { s.putFields r i v with counts := { s.counts with modeWritten := true } }
  | .HMR_LOOKUP_CFG => (s.putFields r i v).put HMR_LOOKUP_STATUS_ALLOW 0 (bits v 0 24)
  | .WHS_WAY_MAP_PORT_LO => s.writeWays r 0 0 v
  | .WHS_WAY_MAP_PORT_HI => s.writeWays r 0 8 v
  | .WHS_WAY_MAP_STBD_LO => s.writeWays r 1 0 v
  | .WHS_WAY_MAP_STBD_HI => s.writeWays r 1 8 v
  | .WHS_WAY_STOP =>
    (s.perBit 16 (s.get WHS_WAY_STOP_PORT 0) (bits v 0 16) (fun t w => t.wayStop 0 w) (fun t w => t.wayRestart 0 w)).perBit 16
      (s.get WHS_WAY_STOP_STBD 0) (bits v 16 16) (fun t w => t.wayStop 1 w) (fun t w => t.wayRestart 1 w)
  | .WHS_HOT_CFG => s.hotCfg v
  | .HBM_CHSET => s.writeChset i v
  | .HBM_CHSET_STOP => s.perBit 32 (s.get HBM_CHSET_STOP_STOP 0) v (fun t n => t.chsetHalt n) (fun t n => t.chsetRestart n)
  | .DDK_MARCH_CTRL => if bit v 0 then (s.putFields r i v).destructStart i else s.putFields r i v
  | .DDK_REPAIR => if bit v 30 then s.repairStart ⟨bits v 0 4, bits v 4 8, bits v 12 4, bits v 16 11⟩ else s.putFields r i v
  | .CRN_TABLE_CTL => (s.putFields r i v).tableOp (bits v 12 2) (bits v 0 12)
  | .CRN_REBUILD => if bit v 16 then (s.putFields r i v).rebuildGo (bits v 0 10) else s.putFields r i v
  | .HST_WIN_INVAL => s.winInval (bits v 0 8) (bit v 8)
  | .HST_EVT_CTL => if bit v 0 then s.evtStart else s.evtStop
  | .HST_RING_CTL => if bit v 0 then s.ringStart i else s.ringStop i
  | .HMR_HIST_CTL => if bit v 0 then s.put HMR_HIST_CTL_STOP 0 1 else s.histStart
  | .HMR_ADMIT_CTL => s.admissionCtl (bit v 0)
  | .HMR_FREEZE_RESET => s.freezeReset (bits v 0 2) (bits v 16 12)
  | .HMR_MODEL_CTL =>
    let t := s.putFields r i v
    if bits v 16 2 == 1 then t.addModel (bits v 0 16) else if bits v 16 2 == 2 then t.removeModel (bits v 0 16) else t
  | .HMR_POWER_CTL => (s.put HMR_POWER_CTL_STEP_REQ 0 (bits v 4 2)).stateReq (bits v 0 2)
  | .HMR_TIDE_HOLD => if bit v 0 then s.tideHold else s.holdOff
  | .QUY_POD_CTL => s.podCtl v
  | .QUY_CTL => s.quayCtl i v
  | .QUY_COLL_EN => s.perBit 64 (s.get QUY_COLL_EN_ENABLE 0) v (fun t c => t.collEnable c) (fun t c => t.collDisable c)
  | .QUY_SNAP_CTL_HI => (s.putFields r i v).snapRequest (s.get QUY_SNAP_CTL_LO_CUT_TIDE 0) (bits v 0 48)
  | .CUS_DEBUG_STATUS => if bit v 31 then s.debugClose else s
  | .CUS_DBG_KILN => if bits v 0 8 < s.kilnCount then s.dbgKiln (bits v 0 8) (bits v 8 2) (bits v 12 3) else s
  | .CUS_ZEROISE => if bit v 0 then s.zeroiseKeys else s
  | .PLT_CAP => s.capWrite source (bits v 0 12)
  | .PLT_RESET => s.pltReset source (bits v 0 8)
  | .PLT_PROFILE =>
    let t := if bit v 0 then s.profileSave else s
    if bit v 1 then t.profileErase else t
  | .HST_SETUP_LOCK => if bit v 0 then s.setLock source else s
  | _ => s.putFields r i v

/-- A whole register is written: the tests, then its effect or the account of its discard (R628, R632). -/
def State.writeReg (s : State) (source : Nat) (r : Reg) (i v : Nat) : State :=
  if r.row.readOnly || s.busy r then s
  else match s.writeCause r i v with
    | some c => s.discard source c r.row.block (r.row.off + i * r.row.stride)
    | none => s.regEffect source r i v

/-! ### Accesses of 4 B and 8 B (R14, R447, R617, R618) -/

/-- The key of a half that a source has latched or holds: each of the two ports, the debug port and the pilot has halves of its own, which
R14 leaves open. DESIGN CHOICE (log 69). -/
def halfKey (source o : Nat) : Nat := o + 2 ^ 26 * source

/-- What a write of the high half alone leaves in the low half: its value, with nothing cleared, set or triggered (R14). -/
def State.keptLow (s : State) (r : Reg) (i : Nat) : Nat :=
  (r.row.places.map fun p => if p.acc == .wo || p.acc == .w1c || p.acc == .w1s then 0 else s.place p i * 2 ^ p.lo).sum % 2 ^ 32

/-- A write to an offset without a register (R617, R618). -/
def State.unmapped (s : State) (source o : Nat) : State :=
  match blockOf o with
  | some (b, off) => s.discard source 5 b off
  | none => s.discard source 5 0xF o

/-- MSI-X structures of a function (Table 11.2). -/
def inMsixTable (o : Nat) : Bool := decide (0x3F00000 ≤ o) && decide (o < 0x3F00000 + 16 * 512)
def inMsixPend (o : Nat) : Bool := decide (0x3F80000 ≤ o) && decide (o < 0x3F80000 + 64)

/-- The register that an access reaches: the register, its copy and the half. A page beyond the size table has none (R617). -/
def State.reach (s : State) (o : Nat) : Option (Reg × Nat × Bool) :=
  match blockOf o with
  | some (b, off) => match regAt b off with
    | some (r, i, high) => if s.paged r.row.paged i then some (r, i, high) else none
    | none => none
  | none => none

/-- A write of 4 B. -/
def State.write4 (s : State) (source o v : Nat) : State :=
  if inMsixTable o then (if source < 2 then s.msixWrite source ((o - 0x3F00000) / 4) v else s)
  else if inMsixPend o then s
  else match s.reach o with
    | none => s.unmapped source o
    | some (r, i, high) =>
      if r.row.width == 32 then s.writeReg source r i v
      else if !high then { s with latchW := Tab.insert (halfKey source o) v s.latchW }
      else
        let k := halfKey source (o - 4)
        let low := (Tab.find k s.latchW).getD (s.keptLow r i)
        { s with latchW := Tab.erase k s.latchW }.writeReg source r i (low + 2 ^ 32 * v)

/-- A write of 8 B: one 64-bit register at once, or two accesses of 4 B, the lower first. -/
def State.write8 (s : State) (source o v : Nat) : State :=
  match s.reach o with
  | some (r, i, false) =>
    if r.row.width == 64 then { s with latchW := Tab.erase (halfKey source o) s.latchW }.writeReg source r i v
    else (s.write4 source o (v % 2 ^ 32)).write4 source (o + 4) (v / 2 ^ 32)
  | _ => (s.write4 source o (v % 2 ^ 32)).write4 source (o + 4) (v / 2 ^ 32)

/-- The size of BAR0. -/
def bar0Bytes : Nat := 0x4000000

/-- An aligned access of 4 B or 8 B within BAR0 (R447). -/
def accessFits (o size : Nat) : Bool := (size == 4 || size == 8) && o % size == 0 && decide (o + size ≤ bar0Bytes)

/-- Write a register of BAR0. -/
def State.busWrite (s : State) (source o size v : Nat) : State :=
  if !accessFits o size then s else if size == 4 then s.write4 source o (v % 2 ^ 32) else s.write8 source o (v % 2 ^ 64)

/-- The BAR0 offset of `HMR_POWER_CTL`, whose write of RUN wakes with a cause of its own (Table 14.13). -/
def State.wakesRun (s : State) (o v : Nat) : State := if o == regOffset .HMR_POWER_CTL 0 && bits v 0 2 == 0 then s.wakeFor 0x01 else s

/-- REGISTER_WRITE (R5 to R14, R617 to R633): sources 0 and 1 the ports, 2 the debug port, 3 the pilot ladder. -/
def execRegisterWrite (source offset size value : Nat) (s : State) : Host.Outcome State Fault Refusal :=
  let t := if source < 2 then s.wakesRun offset value else s
  ok (t.bySource source fun u => u.busWrite source offset size value)

/-! ### Reads -/

/-- The debug port sees the lighthouse's mirrors alone (R582, R589). -/
def State.sees (s : State) (source : Nat) (r : Reg) (i : Nat) : Nat :=
  if source != 2 then s.regValue r i
  else if s.flag CUS_DEBUG_STATUS_NARROWED 0 then
    if r == .CUS_DEBUG_STATUS then
      (((s.power.mirrors.find? fun m => m.1 == regOffset r i).map (·.2)).getD 0) / 8 * 8 + s.get CUS_DEBUG_STATUS_LEVEL 0 + 4
    else if r.row.block == 11 then s.regValue r i
    else ((s.power.mirrors.find? fun m => m.1 == regOffset r i).map (·.2)).getD 0
  else if r.row.setup && !s.debugDeep then 0
  else s.regValue r i

/-- A read clears the RC fields it returns; a narrowed session reaches none of them. -/
def State.afterRead (s : State) (source : Nat) (r : Reg) (i lo hi : Nat) : State :=
  if source == 2 && s.flag CUS_DEBUG_STATUS_NARROWED 0 then s else s.clearRc r i lo hi

/-- Pending bits of a function, dword k. -/
def State.pendWord (s : State) (port k : Nat) : Nat :=
  ((List.range 32).map fun b => b2n (Tab.get (fun _ => false) s.msixPend (port * 512 + 32 * k + b)) * 2 ^ b).sum

/-- A read of 4 B: its value, and the state after it. -/
def State.read4 (s : State) (source o : Nat) : Nat × State :=
  if inMsixTable o then (if source < 2 then s.msixDword (2048 * source + (o - 0x3F00000) / 4) else 0, s)
  else if inMsixPend o then (if source < 2 then s.pendWord source ((o - 0x3F80000) / 4) else 0, s)
  else match s.reach o with
    | none => (0, s)
    | some (r, i, high) =>
      let v := s.sees source r i
      if r.row.width == 32 then (v, s.afterRead source r i 0 32)
      else if !high then
        (v % 2 ^ 32, { s.afterRead source r i 0 64 with latchR := Tab.insert (halfKey source o) (v / 2 ^ 32) s.latchR })
      else match Tab.find (halfKey source (o - 4)) s.latchR with
        | some w => (w, { s with latchR := Tab.erase (halfKey source (o - 4)) s.latchR })
        | none => (v / 2 ^ 32, s.afterRead source r i 32 64)

/-- Two reads of 4 B, the lower first. -/
def State.readPair (s : State) (source o : Nat) : Nat × State :=
  let (a, t) := s.read4 source o
  let (b, u) := t.read4 source (o + 4)
  (a + 2 ^ 32 * b, u)

/-- A read of 8 B. -/
def State.read8 (s : State) (source o : Nat) : Nat × State :=
  match s.reach o with
  | some (r, i, false) => if r.row.width == 64 then (s.sees source r i, s.afterRead source r i 0 64) else s.readPair source o
  | _ => s.readPair source o

/-- Read a register of BAR0 and answer. -/
def State.busRead (s : State) (source o size : Nat) : State :=
  if !accessFits o size then s.send (.allOnes source)
  else
    let (v, t) := if size == 4 then s.read4 source o else s.read8 source o
    t.send (.value source v)

/-- Who reads: the ports as a host access, the debug port from D1 up, in every powered state (R582), and the pilot. -/
def State.readBy (s : State) (source : Nat) (f : State → State) : State :=
  if source < 2 then s.hostDo f
  else if source == 2 then (if s.powered && s.flag CUS_DEBUG_STATUS_LEVEL 0 then f s else s)
  else if source == 3 then (if s.pilotUp then f s else s)
  else s

/-- REGISTER_READ (R5 to R7, R14, R617, R618, R624). -/
def execRegisterRead (source offset size : Nat) (s : State) : Host.Outcome State Fault Refusal :=
  ok (s.readBy source fun t => t.busRead source offset size)

end Sys2Proof.Machine
end

