-- ==== Sys2Proof/Machine/Boundary.lean ====
section
/-! DEFINITION. The tide boundary (01): the ordered steps of Table 01.7, with the effects that other chapters place at a boundary.
Where a rule names a boundary but no step, the place here is the model's. DESIGN CHOICE (log 52). -/

namespace Sys2Proof.Machine

/-! ### The tide that ended (R437, R416, R417, R523, R545) -/

/-- Cycles that every kiln has waited for charging, and for lookups. -/
def State.chargeWaits (s : State) : Nat := ((List.range s.kilnCount).map fun k => s.get KLN_CHARGE_WAIT_CYCLES k).sum
def State.lookupWaits (s : State) : Nat := ((List.range s.kilnCount).map fun k => s.get KLN_LOOKUP_WAIT_CYCLES k).sum

/-- The code that a saturated resource is recorded under: a kiln budget counts as chargers or as lookup paths by the waits added
in the tide (R437). -/
def State.satCode (s : State) (sat : Nat) : Nat :=
  if sat == 1 || sat == 2 then
    (if s.chargeWaits - s.counts.chargeWait > s.lookupWaits - s.counts.lookupWait then 2 else 1)
  else sat

/-- Record the first resource that reached its whole budget, 0 for none. -/
def State.noteSaturation (s : State) (sat : Nat) : State :=
  if 1 ≤ sat && sat ≤ 8 then s.inc HMR_SAT_COUNTS_TIDES (s.satCode sat - 1) 1 else s

/-- The hot-row threshold after a tide (R416, R272): lowered after pressure, raised once eight tides have been quiet. -/
def threshold (effective floor min' quiet : Nat) (pressure : Bool) : Nat :=
  if pressure then (if effective > floor then effective - 1 else effective)
  else if quiet ≥ 8 then min (effective + 1) min' else effective

/-- The lookup allowance after a tide (R417). -/
def allowance (allow max' : Nat) (seen : Bool) : Nat :=
  min max' (max (max' / 64) (if seen then allow / 2 else allow + max' / 16))

/-- Quiet tides in a row, the ended tide included. -/
def State.quietTides (s : State) : Nat := if 4 * s.counts.memberReads < 3 * s.pressureLimit then s.counts.quiet + 1 else 0

/-- Update `EFFECTIVE` and `ALLOW`, and start the counts of the new tide. -/
def State.endTide (s : State) : State :=
  let e := threshold (s.get WHS_HOT_CFG_EFFECTIVE 0) (s.get WHS_HOT_CFG_ADMIT_FLOOR 0) (s.get WHS_HOT_CFG_ADMIT_MIN 0) s.quietTides s.pressure
  let a := allowance (s.get HMR_LOOKUP_STATUS_ALLOW 0) (s.get HMR_LOOKUP_CFG_LOOKUP_MAX 0) s.counts.pressureSeen
  let s' := (s.put WHS_HOT_CFG_EFFECTIVE 0 e).put HMR_LOOKUP_STATUS_ALLOW 0 a
  { s' with
    counts := { s.counts with allowUsed := 0, tested := 0, memberReads := 0, quiet := s.quietTides, rowsPort := 0, rowsStbd := 0, pressureSent := false, pressureSeen := false,
                              chargeWait := s.chargeWaits, lookupWait := s.lookupWaits, cut := false, clockStop := false,
                              hearthC1 := 0 },
    peers := s.peers.map fun (e : Nat × Peer) => (e.1, { e.2 with malformed := 0, stray := 0 }),
    salvor := { s.salvor with stackErrs := [] } }

/-! ### Steps 1 and 2 (R44, R31, R33, R581, R587, R591) -/

/-- Step 1: the tide counter increments; a device other than the pod master counts a tide without a marker (R513). -/
def State.nextTide (s : State) : State :=
  let t := s.put HMR_TIDE_COUNT_TIDE 0 (s.tide + 1)
  if s.inPod && !s.isMaster then { t with pod := { t.pod with noMarker := t.pod.noMarker + 1 } } else t

/-- The clock step that is to be in effect: the slower of `STEP_REQ` and the pilot's limit, 0.6 GHz or slower with the pilot down,
and 0.4 GHz while a hot trip forces it. -/
def State.stepInForce (s : State) : Nat :=
  if s.power.forced then 3
  else max (max (s.get HMR_POWER_CTL_STEP_REQ 0) s.pilot.limits.step) (if s.flag PLT_STATUS_PILOT_DOWN 0 then 2 else 0)

/-- A forced step lifts once every hot trip is released. -/
def State.liftForced (s : State) : State := { s with power := { s.power with forced := s.power.forced && !s.power.hot.isEmpty } }

/-- Apply the step in force; a change stops the clock in this tide. -/
def State.applyStep (s : State) : State :=
  let t := s.setStep s.stepInForce
  { t with counts := { t.counts with clockStop := decide (s.stepInForce ≠ s.get HMR_POWER_STATUS_STEP 0) } }

/-- Step 2. -/
def State.applyLimits (s : State) : State := (s.takeLimits.liftForced).applyStep

/-! ### Step 3 -/

/-- Notices of membership, slots and groups apply; consignments commit, appends become visible, and the group master decides
(R336, R506, R356, R362, R386, R360). The pod master mirrors its state (R507). -/
def State.applyCommits (s : State) : State :=
  let s := ((((s.applyPod.commitLocals).commitGroups).showAppends).decideAll).pruneLog
  if s.inPod && s.isMaster then s.mirror else s

/-! ### Step 6 -/

/-- Evict a model whole, pinned blocks included; the pins are kept (R432, DEDUCED, log 138). -/
def State.evictWhole (s : State) (m : Nat) : State :=
  s.loseBlocks m fun _ => false

/-- The restart into the mode of `HMR_MODE`: the first boundary at which admission runs after it was written. -/
def State.modeRestart (s : State) : State :=
  if s.counts.modeWritten && s.admitsNow then
    let s := { s with counts := { s.counts with modeWritten := false } }
    if s.flag HMR_MODE_SINGLE 0 then
      ((s.models.map (·.1)).filter fun m => m != s.get HMR_MODE_SINGLE_MODEL 0).foldl (fun t m => t.evictWhole m) s
    else s
  else s

/-! ### Step 7: sections (R327, R328, R543) -/

/-- What a boundary does about a section: nothing, reissue it, hold it, resend the parts of the slot it lacks, or end the job. -/
inductive SectFate where
  | keep | reissue | hold | resend | late
  deriving DecidableEq, Repr

/-- The device that serves a data slot's parts of a table. -/
def State.serverOf (s : State) (t k : Nat) : Nat :=
  let g := s.group (s.table t).group
  g.slots.getD (serverSlot g (s.table t).paritySlot k) s.me

/-- The devices that serve the data slots of a table. -/
def State.serversOf (s : State) (t : Nat) : List (Nat × Nat) :=
  (dataSlots (s.group (s.table t).group) (s.table t).paritySlot).map fun k => (k, s.serverOf t k)

/-- A change of group state has given a slot another server since the section was reissued. -/
def State.moved (s : State) (x : Section) (k : Nat) : Bool := !(x.servers.contains (k, s.serverOf x.table k))

/-- The fate of a section that lacks parts of one slot alone: held, or its parts are resent where a change of state has come, with
the job's retry (R543). -/
def State.oneSlotFate (s : State) (j : Job) (x : Section) (k : Nat) : SectFate :=
  if s.moved x k then (if s.mayRetry j then .resend else .late)
  else if x.held then (if s.tide ≥ x.round + 5 then .late else .keep)
  else .hold

/-- The fate of a section at a boundary. -/
def State.sectFate (s : State) (j : Job) (x : Section) : SectFate :=
  if s.sectDone x then .keep
  else if x.attempt == 0 then (if s.tide ≥ x.round + 2 then .reissue else .keep)
  else if s.tide < x.round + 1 then .keep
  else if x.resent then .late
  else match s.sectMissing x with
    | [k] => if x.held || s.pathFits j then s.oneSlotFate j x k else .late
    | _ => .late

/-- A section after its fate: a reissue or a resend is tallied again in the round that opens here, with `ATTEMPT` 1. -/
def State.afterFate (s : State) (x : Section) (f : SectFate) : Section :=
  match f with
  | .reissue => { x with attempt := 1, round := s.tide, tallied := false, servers := s.serversOf x.table }
  | .hold => { x with held := true }
  | .resend => { x with resent := true, round := s.tide, tallied := false }
  | _ => x

/-- The job's lookups are complete: its lookup work is done (R327, R412). -/
def State.lookupsComplete (s : State) (j : Job) : State :=
  let c := s.lookupCost j.sections j.indices
  s.putJob { j with lookupsDone := true, left := { j.left with crane := j.left.crane - c.crane, quayIn := j.left.quayIn - c.quayIn, quayOut := j.left.quayOut - c.quayOut } }

/-- Check the sections of one job. -/
def State.checkSections (s : State) (j : Job) : State :=
  let fates := j.sections.map fun x => s.sectFate j x
  if j.sections.all fun x => s.sectDone x then s.lookupsComplete j
  else if fates.contains .late then s.endJob j stLookupLate 0 none
  else
    let s' := s.putJob { j with sections := List.zipWith s.afterFate j.sections fates }
    if fates.contains .resend then (match s'.job j.id with | some y => s'.useRetry y | none => s') else s'

/-- Check the sections of every job whose lookups are not complete. -/
def State.checkLookups (s : State) : State :=
  ((s.jobs.filter fun j => !j.lookupsDone).map (·.id)).foldl (fun t i => match t.job i with | some j => t.checkSections j | none => t) s

/-! ### Step 7: the dispatch plan (R418, R419, R232, R270) -/

/-- Units of every job in deadline-rank order. -/
def State.unitsByRank (s : State) : List (Nat × Nat) :=
  (sortBy (fun a b => !rankBefore b.1 a.1) (s.jobs.flatMap fun j => j.units.map fun u => (j.unitRank u.no, j.id, u.no))).map (·.2)

/-- Dispatch the units that are ready, and place the tasks that wait. -/
def State.dispatchReady (s : State) : State :=
  s.unitsByRank.foldl (fun t p => match t.job p.1 with | some j => t.dispatchUnit j p.2 | none => t) s

/-- Aborted streams take their reservations again (R232). -/
def State.reserveAborted (s : State) : State :=
  ((s.streams.filter fun e => e.2.st == .aborted).map (·.1)).foldl
    (fun t n => t.setStream n fun x => { x with st := .reserving, waitSince := some t.tide }) s

/-- Hot-row ageing at a multiple of `AGE_TIDES` (R270). -/
def State.ageHotRows (s : State) : State :=
  let n := s.get WHS_HOT_CFG_AGE_TIDES 0
  if n != 0 && s.tide % n == 0 then { s with hot := s.hot.map fun e => (e.1, { e.2 with use := e.2.use / 2 }) } else s

/-- Step 7, and what follows it: heartbeats and markers (R505, R512), a leave and a hold that are due (R504, R613), and
`DRAINED` (R433). -/
def State.plan (s : State) : State :=
  let s := (((((s.loadAgain).startLoaders).checkLookups.sendProbes).reserveAborted).ageHotRows).dispatchReady
  let s := ((s.heartbeats.leaveDone).reportReady).stopTide
  s.put HMR_ADMIT_CTL_DRAINED 0 (b2n s.drained)

/-! ### The boundary -/

/-- The steps of Table 01.7, in order. `sat` is the resource of Table 10.7 that was the first to reach its budget in the tide that
ended (0 for none), and `overruns` gives rings' overruns in kiln and hearth cycles. -/
def State.boundary (s : State) (sat : Nat) (overruns : List (Nat × Nat × Nat)) : State :=
  let s := (s.withHists.endFailedHists.noteSaturation sat).endTide
  let s := ((s.nextTide.overdue.applyLimits).applyCommits).snapCut
  let s := s.chargeDebts overruns
  let s := s.checkGuarantees s.jobs.length
  let s := (s.modeRestart).admitAll
  { s with counts := { s.counts with forwarded := 0 } }.plan

/-- TIDE_BOUNDARY (R39): the tide period expires while the tide runs. -/
def execTideBoundary (sat : Nat) (overruns : List (Nat × Nat × Nat)) (s : State) : Host.Outcome State Fault Refusal :=
  if s.live && s.flag HMR_TIDE_STATUS_RUNNING 0 then ok (s.boundary sat overruns) else ok s

end Sys2Proof.Machine
end

