-- ==== Sys2Proof/Machine/Startup.lean ====
section
/-! DEFINITION. Start-up (15): the steps of Table 15.8 with the causes of Table 15.9, measured boot, the join profile, and the size table. -/

namespace Sys2Proof.Machine

/-! ### Steps, failures and the start-up log (R601, R603) -/

/-- An entry of the start-up log: the step reached, `LHS_START` and the real-time count. Its layout is the model's. DESIGN CHOICE (log 50). -/
def State.startEntry (s : State) : List Byte :=
  leBytes 4 (s.get LHS_START_STEP 0) ++ leBytes 4 (s.regHeld .LHS_START 0) ++ leBytes 8 s.rtc ++ List.replicate 48 0

/-- Add an entry to the log of the last 64 start-ups. -/
def State.logStart (s : State) : State :=
  let l := s.pilot.startLog ++ [s.startEntry]
  { s with pilot := { s.pilot with startLog := l.drop (l.length - 64) } }

/-- Start-up stops at the step it has reached (R603). -/
def State.startFail (s : State) (cause : Nat) : State := ((s.put LHS_START_FAILED 0 1).put LHS_START_CAUSE 0 cause).logStart

/-- A step begins, unless start-up has failed: it fails on a comparator trip, or does its work. -/
def State.startStep (s : State) (trip step : Nat) (work : State → State) : State :=
  if s.flag LHS_START_FAILED 0 then s
  else
    let t := s.put LHS_START_STEP 0 step
    if trip == step then t.startFail 7 else work t

/-! ### Step 2: customs, images and measurements (R560, R564 to R566, R599) -/

/-- A bank whose image customs may try. -/
def Bank.holds (b : Bank) : Bool := b.image.isSome && b.st != .empty && b.st != .invalid

/-- Banks of a class in the order in which customs tries them, by number: a pending one first, else the active one (R599). -/
def Flash.order (x : Flash) : List Bool :=
  let second := if x.bank1.st == .pending then true else if x.bank0.st == .pending then false else x.active
  [second, !second]

/-- A bank by its number. -/
def Flash.bank (x : Flash) (n : Bool) : Bank := if n then x.bank1 else x.bank0
def Flash.setBank (x : Flash) (n : Bool) (b : Bank) : Flash := if n then { x with bank1 := b } else { x with bank0 := b }

/-- A bank is refused: recorded, and a pending one marked invalid and reported (R564, R599). -/
def State.refuseBank (s : State) (cls : Nat) (n : Bool) : State :=
  let x := s.pilot.flashOf cls
  let t := s.refuseImage cls
  if (x.bank n).st == .pending then
    { t with pilot := t.pilot.putFlash cls (x.setBank n { x.bank n with st := .invalid }) }.send (.pldmEvent 7 cls)
  else t

/-- Extend a measurement slot (R565). -/
def State.measure (s : State) (slot content : Nat) : State :=
  { s with cus := { s.cus with slots := s.cus.slots.set (slot - 1) (Config.sha384 (s.cus.slots.getD (slot - 1) 0) content) } }

/-- An accepted image runs: its bank is the active one, it is measured, and its counter advances where it carries `COMMIT` (R565, R566). -/
def State.runImage (s : State) (cls : Nat) (n : Bool) (i : Image) : State :=
  let x := s.pilot.flashOf cls
  let t := { s with pilot := s.pilot.putFlash cls { x.setBank n { x.bank n with st := .valid } with active := n } }
  let t := t.measure (cls + 1) i.content
  let c := t.cus.counters.getD (cls - 1) 0
  let t := if i.commit then { t with cus := { t.cus with counters := t.cus.counters.set (cls - 1) (max c i.secVersion) } } else t
  if cls == 6 then
    ({ t with cus := { t.cus with policy := i.policy } }.put CUS_STATUS_OWNER_POLICY 0 1).put CUS_STATUS_IDE_REQUIRED 0 (b2n i.policy.ideRequired)
  else t

/-- Try the banks of a class in order: whether one was accepted, and the state after. -/
def State.tryBanks (s : State) (cls : Nat) : List Bool → Bool × State
  | [] => (false, s)
  | n :: rest =>
    let b := (s.pilot.flashOf cls).bank n
    match b.image with
    | some i => if !b.holds then State.tryBanks s cls rest
                else if s.cus.accepts cls i then (true, s.runImage cls n i) else State.tryBanks (s.refuseBank cls n) cls rest
    | none => State.tryBanks s cls rest

/-- Verify and start the image of a class; only the owner policy may be absent. -/
def State.bootClass (s : State) (cls : Nat) : State :=
  if s.flag LHS_START_FAILED 0 then s
  else
    let x := s.pilot.flashOf cls
    if cls == 6 && !x.bank0.holds && !x.bank1.holds then s
    else
      let (good, t) := s.tryBanks cls x.order
      if good then t else t.startFail 2

/-- Customs puts itself into its error state (R560). -/
def State.customsError (s : State) : State := ((s.put CUS_STATUS_ERROR 0 1).put CUS_STATUS_ERROR_SOURCE 0 0xFF).startFail 1

/-- Keys that each boot makes: the identity, which a Blank device lacks, and a seeded DRBG (Table 14.2). -/
def State.bootKeys (s : State) : State :=
  { s with cus := { s.cus with identity := s.cus.lifecycle != lcBlank, drbg := true, seeds := s.cus.seeds + 1 } }

/-- Step 2. -/
def State.bootStep (s : State) (r : StartReport) : State :=
  if s.flag CUS_STATUS_ERROR 0 || !r.selfTestOk then s.customsError
  else
    let t := [1, 2, 3, 4, 5, 6].foldl (fun u c => u.bootClass c) (s.measure 1 0)
    if t.flag LHS_START_FAILED 0 then t else t.bootKeys

/-! ### Steps 3 and 4: repair and memory tests (R284, R286, R288, R604) -/

/-- Two entries name one macro and column. -/
def Repair.same (a b : Repair) : Bool := a.sameMacro b && a.column == b.column

/-- Step 3 on success: the fuse image is applied, its factory entries, at most three a macro, and the in-field ones (R283, R284). The
report gives the factory entries. DESIGN CHOICE (log 122). -/
def State.applyImage (s : State) (r : StartReport) : State :=
  let f := r.factory.foldl (fun l x => if decide ((l.filter fun y => x.sameMacro y).length < 3) && x.valid then l ++ [x] else l) []
  { s with dock := { s.dock with factory := f, inForce := f ++ s.dock.burned } }

/-- The failing columns that the march shows: those that no entry in force replaces. -/
def State.found (s : State) (r : StartReport) : List (Repair × Bool) := r.macros.filter fun m => !(s.dock.inForce.any fun b => b.same m.1)

/-- Failing columns for which `AUTO` burns the in-field entry: the only one of its macro, with the entry unused (R286). -/
def State.burnsFor (s : State) (r : StartReport) : List (Repair × Bool) :=
  if s.flag DDK_REPAIR_CFG_AUTO 0 then
    (s.found r).filter fun m => ((s.found r).filter fun n => n.1.sameMacro m.1).length == 1 && !(s.dock.burned.any fun b => b.sameMacro m.1)
  else []

/-- Burn those entries, and apply the image again (R286). -/
def State.autoRepair (s : State) (r : StartReport) : State :=
  let bs := (s.burnsFor r).map (·.1)
  { s with dock := { s.dock with burned := s.dock.burned ++ bs, inForce := s.dock.inForce ++ bs } }

/-- Macros that still fail after repair (R288). -/
def State.stillFailing (s : State) (r : StartReport) : List Repair :=
  ((s.found r).filter fun m => !(m.2 && (s.burnsFor r).contains m)).map (·.1)

/-- The record that names a failing macro of the warehouse (R288). -/
def State.nameMacro (s : State) (m : Repair) : State :=
  let e := mkErr s 0 5 3 m.unit 0 none [0, 0, 2 * m.macroNo, m.macroNo, m.column % 256, m.column / 256]
  { s with salvor := s.salvor.count e none }.logError e

/-- Kilns of a die that the march leaves out: those with a failing berth macro (R21, R288). -/
def berthsOut (fails : List Repair) (die : Nat) : Nat :=
  (((fails.filter fun m => m.kind == 1 && m.unit / 84 == die).map (·.unit)).dedup).length

/-- Stacks of a die in service. -/
def State.stacksUp (s : State) (die : Nat) : Nat :=
  ((List.range 6).filter fun k => !s.bitAt HBM_STACK_STATUS_FENCED 0 (6 * die + k)).length

/-- Step 4. Every byte of memory is left zero, as the reset left it. -/
def State.testStep (s : State) (r : StartReport) : State :=
  let s := if r.autoOff then s.put DDK_REPAIR_CFG_AUTO 0 0 else s
  let fails := s.stillFailing r
  let s := s.autoRepair r
  let s := { s with dock := { s.dock with berthsFailed := fails.filter fun m => m.kind == 1 } }
  match fails.filter fun m => m.kind == 0 with
  | m :: ms => (((m :: ms).foldl fun t x => t.nameMacro x) s).startFail 4
  | [] =>
    let t := (r.stacksFail.filter fun k => decide (k < 12)).foldl (fun u k => u.fenceStack k 0) s
    if t.stacksUp 0 == 0 || t.stacksUp 1 == 0 then t.startFail 5 else t

/-! ### Step 5: the join profile (R606, R607) -/

/-- No value of a profile holds a reserved encoding. -/
def Profile.ok (p : Profile) : Bool :=
  encodingOk .QUY_POD_CFG p.podCfg && encodingOk .HMR_TIDE_CFG p.tideCfg && encodingOk .HMR_EPOCH_CFG p.epochCfg &&
  p.peers.all fun v => encodingOk .QUY_PEER v

/-- Write a profile's values. -/
def State.putProfile (s : State) (p : Profile) : State :=
  let s := ((s.putFields .QUY_POD_CFG 0 p.podCfg).putFields .HMR_TIDE_CFG 0 p.tideCfg).putFields .HMR_EPOCH_CFG 0 p.epochCfg
  ((p.peers.zipIdx).foldl (fun t x => t.putFields .QUY_PEER x.2 x.1) s).put PLT_PROFILE_APPLIED 0 1

/-- The quays to be used leave their stop and train; those that find no peer train on. -/
def State.trainQuays (s : State) (up : List Nat) : State :=
  (List.range 16).foldl (fun t q =>
    if t.flag QUY_PEER_UNUSED q then t
    else
      let u := (t.put QUY_CTL_STOP q 0).put QUY_CTL_STOPPED q 0
      if up.contains q then u.quayTrains q true else u.putQuay q { u.quay q with st := .training }) s

/-- Step 5. -/
def State.joinStep (s : State) (r : StartReport) : State :=
  match s.pilot.profile with
  | none => s
  | some p =>
    if !p.ok then s.send (.pldmEvent 8 0)
    else
      let t := (s.putProfile p).trainQuays r.quaysUp
      if t.flag HMR_TIDE_CFG_SOURCE 0 then t.startTide 0 else t.podJoin none

/-- Start-up waits at step 5 until the join succeeds or `JOIN` is cleared (R607). -/
def State.joinWaits (s : State) : Bool := s.flag QUY_POD_CTL_JOIN 0 && !s.inPod

/-! ### Steps 6 and 7: the self-check and the size table (R608 to R611, R45) -/

/-- Kilns of a die that a bin offers. -/
def binKilns (bin : Nat) : Nat := if bin == 2 then 72 else 80

/-- Kilns of a die in service after the march and the self-check. -/
def kilnsLeft (r : StartReport) (fails : List Repair) (die : Nat) : Nat :=
  binKilns r.bin - berthsOut fails die - (if die == 0 then r.kilnsFail.1 else r.kilnsFail.2)

/-- Spare lanes not yet consumed, over the quays that are up (R45, R495). -/
def State.sparesIntact (s : State) : Nat :=
  (((List.range 16).filter fun q => s.quayUp q).map fun q => 2 - (s.quay q).dead.length).sum

/-- The size table and the limits take their start-up values. -/
def State.sizeTable (s : State) (r : StartReport) (kp ks : Nat) : State :=
  let s := ((s.put HST_SIZE_ID_TABLE_VERSION 0 1).put HST_SIZE_ID_BIN 0 r.bin).put HST_SIZE_ID_STEPPING 0 r.stepping
  let s := (((s.put HST_SIZE_COMPUTE_KILNS_PORT 0 kp).put HST_SIZE_COMPUTE_KILNS_STBD 0 ks).put HST_SIZE_COMPUTE_HEARTHS_PORT 0 kp).put
    HST_SIZE_COMPUTE_HEARTHS_STBD 0 ks
  let s := (s.put HST_SIZE_COMPUTE_CRANES_PORT 0 (16 - r.cranesFail.1)).put HST_SIZE_COMPUTE_CRANES_STBD 0 (16 - r.cranesFail.2)
  let s := (s.put HST_SIZE_COMPUTE_STEVEDORES_PORT 0 (32 - r.stevedoresFail.1)).put HST_SIZE_COMPUTE_STEVEDORES_STBD 0 (32 - r.stevedoresFail.2)
  let s := (s.put HST_SIZE_MEMORY_WHS_MIB_PORT 0 224).put HST_SIZE_MEMORY_WHS_MIB_STBD 0 224
  let s := (s.put HST_SIZE_MEMORY_HBM_STACKS_PORT 0 (s.stacksUp 0)).put HST_SIZE_MEMORY_HBM_STACKS_STBD 0 (s.stacksUp 1)
  let s := (s.put HST_SIZE_MEMORY_HBM_GB_PER_STACK 0 64).put HST_SIZE_MEMORY_WHS_WAYS 0 16
  let s := ((s.put HST_SIZE_LINKS_QUAYS_UP 0 s.upMask).put HST_SIZE_LINKS_LANES_PER_QUAY 0 32).put HST_SIZE_LINKS_SPARE_LANES_PER_QUAY 0 2
  let s := s.put HST_SIZE_LINKS_SPARE_LANES_INTACT 0 s.sparesIntact
  let s := ((s.put HST_SIZE_CLOCK_ARITH_MHZ 0 1000).put HST_SIZE_CLOCK_TIDE_STEPS_MIN 0 1).put HST_SIZE_CLOCK_TIDE_STEPS_MAX 0 8
  ((s.put PLT_LIMIT_KILNS_PORT 0 kp).put PLT_LIMIT_KILNS_STBD 0 ks).put HST_SIZE_ID_VALID 0 1

/-- Steps 6 and 7, with the berth macros that failed at step 4 (R288). -/
def State.finish (s : State) (r : StartReport) : State :=
  let kp := kilnsLeft r s.dock.berthsFailed 0
  let ks := kilnsLeft r s.dock.berthsFailed 1
  let t := s.startStep r.trip 6 fun u => if kp == 0 || ks == 0 then u.startFail 6 else u
  t.startStep r.trip 7 fun u => (u.sizeTable r kp ks).logStart

/-- Start-up from its second step to the wait of its fifth. -/
def State.startUp (s : State) (r : StartReport) : State :=
  let t := (s.put LHS_START_COLD 0 (b2n s.power.cold)).startStep r.trip 2 fun u => u.bootStep r
  let t := t.startStep r.trip 3 fun u => if r.repairImageOk then u.applyImage r else u.startFail 3
  let t := t.startStep r.trip 4 fun u => u.testStep r
  let t := t.startStep r.trip 5 fun u => u.joinStep r
  if t.flag LHS_START_FAILED 0 || t.joinWaits then t else t.finish r

/-- START_UP (R603): from the second step, or on from a wait at the fifth. -/
def execStartUp (report : StartReport) (s : State) : Host.Outcome State Fault Refusal :=
  if s.power.mode != .run || s.flag HST_SIZE_ID_VALID 0 || s.flag LHS_START_FAILED 0 || !(1 ≤ report.bin && report.bin ≤ 3) then ok s
  else if s.get LHS_START_STEP 0 < 3 then ok (s.startUp report)
  else if s.joinWaits then ok s
  else ok (s.finish report)

end Sys2Proof.Machine
end

