-- ==== Sys2Proof/Machine/Dispatch.lean ====
section
/-! DEFINITION. The dispatch: one arm per command, each one direct call of its meaning. -/

namespace Sys2Proof.Machine

def exec (i : Instr) (s : State) : Host.Outcome State Fault Refusal :=
  match i with
  | .tideBoundary sat overruns => Sys2Proof.Machine.execTideBoundary sat overruns s
  | .epochRetire cons => Sys2Proof.Machine.execEpochRetire cons s
  | .modelVersionRetire model version => Sys2Proof.Machine.execModelVersionRetire model version s
  | .descriptorFetch ring => Sys2Proof.Machine.execDescriptorFetch ring s
  | .descriptorReadComplete ring ok => Sys2Proof.Machine.execDescriptorReadComplete ring ok s
  | .run ring sq => Sys2Proof.Machine.execRun ring sq s
  | .consign ring sq => Sys2Proof.Machine.execConsign ring sq s
  | .nop ring sq => Sys2Proof.Machine.execNop ring sq s
  | .interruptCoalesceTimeout ring => Sys2Proof.Machine.execInterruptCoalesceTimeout ring s
  | .msixUnmask port vector => Sys2Proof.Machine.execMsixUnmask port vector s
  | .jobDeadline job => Sys2Proof.Machine.execJobDeadline job s
  | .unitDispatch job unit => Sys2Proof.Machine.execUnitDispatch job unit s
  | .streamStart stream job unit task bind => Sys2Proof.Machine.execStreamStart stream job unit task bind s
  | .reservationTake stream => Sys2Proof.Machine.execReservationTake stream s
  | .remoteReservationGrant quay device stream granules => Sys2Proof.Machine.execRemoteReservationGrant quay device stream granules s
  | .manifestEnd stream => Sys2Proof.Machine.execManifestEnd stream s
  | .loop stream => Sys2Proof.Machine.execLoop stream s
  | .stride stream => Sys2Proof.Machine.execStride stream s
  | .emit stream => Sys2Proof.Machine.execEmit stream s
  | .gather stream => Sys2Proof.Machine.execGather stream s
  | .align stream => Sys2Proof.Machine.execAlign stream s
  | .waitslotSlot stream => Sys2Proof.Machine.execWaitslotSlot stream s
  | .waitslotBarrier stream => Sys2Proof.Machine.execWaitslotBarrier stream s
  | .waitslotReread stream => Sys2Proof.Machine.execWaitslotReread stream s
  | .signal stream => Sys2Proof.Machine.execSignal stream s
  | .tagGrant turn => Sys2Proof.Machine.execTagGrant turn s
  | .readyBitSet stream receiver slot => Sys2Proof.Machine.execReadyBitSet stream receiver slot s
  | .tileAccept stream receiver => Sys2Proof.Machine.execTileAccept stream receiver s
  | .streamEnd stream => Sys2Proof.Machine.execStreamEnd stream s
  | .receiverDetach stream receiver => Sys2Proof.Machine.execReceiverDetach stream receiver s
  | .catchupStreamStart stevedore => Sys2Proof.Machine.execCatchupStreamStart stevedore s
  | .streamFault stream unit reason => Sys2Proof.Machine.execStreamFault stream unit reason s
  | .resumeStream word => Sys2Proof.Machine.execResumeStream word s
  | .resumeKilnTask task reserved gen => Sys2Proof.Machine.execResumeKilnTask task reserved gen s
  | .mutualWaitProbe stream chain => Sys2Proof.Machine.execMutualWaitProbe stream chain s
  | .layer kiln slot => Sys2Proof.Machine.execLayer kiln slot s
  | .bankExchange kiln chargeWait lookupWait => Sys2Proof.Machine.execBankExchange kiln chargeWait lookupWait s
  | .taskSwitch kiln cycles => Sys2Proof.Machine.execTaskSwitch kiln cycles s
  | .rowWatermarkAdvance kiln slot row => Sys2Proof.Machine.execRowWatermarkAdvance kiln slot row s
  | .loadpin kiln slot => Sys2Proof.Machine.execLoadpin kiln slot s
  | .swap kiln slot => Sys2Proof.Machine.execSwap kiln slot s
  | .arrive kiln slot => Sys2Proof.Machine.execArrive kiln slot s
  | .waitbar kiln slot => Sys2Proof.Machine.execWaitbar kiln slot s
  | .waitbarReread kiln slot => Sys2Proof.Machine.execWaitbarReread kiln slot s
  | .clearbar kiln slot => Sys2Proof.Machine.execClearbar kiln slot s
  | .kilnEnd kiln slot => Sys2Proof.Machine.execKilnEnd kiln slot s
  | .hmul kiln slot wait lost => Sys2Proof.Machine.execHmul kiln slot wait lost s
  | .hvec kiln slot lost => Sys2Proof.Machine.execHvec kiln slot lost s
  | .kilnFault kiln source => Sys2Proof.Machine.execKilnFault kiln source s
  | .kilnProgressTimeout kiln => Sys2Proof.Machine.execKilnProgressTimeout kiln s
  | .taskRestart job unit task kiln slot base slots => Sys2Proof.Machine.execTaskRestart job unit task kiln slot base slots s
  | .noswitchViolation kiln slot => Sys2Proof.Machine.execNoswitchViolation kiln slot s
  | .taskEvict kiln => Sys2Proof.Machine.execTaskEvict kiln s
  | .evictedTaskReturn job unit task kiln slot base slots => Sys2Proof.Machine.execEvictedTaskReturn job unit task kiln slot base slots s
  | .warehouseRead addr len who upsets => Sys2Proof.Machine.execWarehouseRead addr len who upsets s
  | .warehouseWrite addr who data => Sys2Proof.Machine.execWarehouseWrite addr who data s
  | .bitSetWrite addr who data => Sys2Proof.Machine.execBitSetWrite addr who data s
  | .bitClearWrite addr who data => Sys2Proof.Machine.execBitClearWrite addr who data s
  | .wayStop die way => Sys2Proof.Machine.execWayStop die way s
  | .wayStopped die way => Sys2Proof.Machine.execWayStopped die way s
  | .modelBlockMove die way => Sys2Proof.Machine.execModelBlockMove die way s
  | .wayRestart die way => Sys2Proof.Machine.execWayRestart die way s
  | .destructStart engine => Sys2Proof.Machine.execDestructStart engine s
  | .destructiveTestDone engine fault => Sys2Proof.Machine.execDestructiveTestDone engine fault s
  | .preservingPass engine addr failed column lost => Sys2Proof.Machine.execPreservingPass engine addr failed column lost s
  | .marchPassAbort engine addr lost => Sys2Proof.Machine.execMarchPassAbort engine addr lost s
  | .repairBurn kind unit macroNo column => Sys2Proof.Machine.execRepairBurn kind unit macroNo column s
  | .repairBurnDone => Sys2Proof.Machine.execRepairBurnDone s
  | .tableEnable table answer => Sys2Proof.Machine.execTableEnable table answer s
  | .tableDisable table => Sys2Proof.Machine.execTableDisable table s
  | .tableDisableDone table => Sys2Proof.Machine.execTableDisableDone table s
  | .sectionTally job sect => Sys2Proof.Machine.execSectionTally job sect s
  | .ladingPart part => Sys2Proof.Machine.execLadingPart part s
  | .indexCut => Sys2Proof.Machine.execIndexCut s
  | .recordReadReturn crane entry => Sys2Proof.Machine.execRecordReadReturn crane entry s
  | .pooledSlice jobRef table part bag slot attempt data => Sys2Proof.Machine.execPooledSlice jobRef table part bag slot attempt data s
  | .partDone jobRef table part slot status attempt pressure => Sys2Proof.Machine.execPartDone jobRef table part slot status attempt pressure s
  | .slicePressureMark => Sys2Proof.Machine.execSlicePressureMark s
  | .rawRequest table gen epoch index device cls tag => Sys2Proof.Machine.execRawRequest table gen epoch index device cls tag s
  | .rawCopy crane entry sender status data => Sys2Proof.Machine.execRawCopy crane entry sender status data s
  | .consignmentPrepare cons => Sys2Proof.Machine.execConsignmentPrepare cons s
  | .pageWrite cons => Sys2Proof.Machine.execPageWrite cons s
  | .parityDelta cons => Sys2Proof.Machine.execParityDelta cons s
  | .rootSet cons => Sys2Proof.Machine.execRootSet cons s
  | .rescaleSwap cons => Sys2Proof.Machine.execRescaleSwap cons s
  | .pin cons => Sys2Proof.Machine.execPin cons s
  | .unpin cons => Sys2Proof.Machine.execUnpin cons s
  | .prepareDone cons => Sys2Proof.Machine.execPrepareDone cons s
  | .prepareTimeout cons => Sys2Proof.Machine.execPrepareTimeout cons s
  | .vote vote => Sys2Proof.Machine.execVote vote s
  | .voteTimeout cons => Sys2Proof.Machine.execVoteTimeout cons s
  | .decisionToPodMaster decision voters => Sys2Proof.Machine.execDecisionToPodMaster decision voters s
  | .decision decision late => Sys2Proof.Machine.execDecision decision late s
  | .notice decision => Sys2Proof.Machine.execNotice decision s
  | .retireAt cons tr => Sys2Proof.Machine.execRetireAt cons tr s
  | .query cons group device => Sys2Proof.Machine.execQuery cons group device s
  | .ack of device => Sys2Proof.Machine.execAck of device s
  | .inDoubtTimeout cons => Sys2Proof.Machine.execInDoubtTimeout cons s
  | .vc0Resend => Sys2Proof.Machine.execVc0Resend s
  | .historyRead job => Sys2Proof.Machine.execHistoryRead job s
  | .historyAppend job => Sys2Proof.Machine.execHistoryAppend job s
  | .historyCreate job => Sys2Proof.Machine.execHistoryCreate job s
  | .historyTrim job => Sys2Proof.Machine.execHistoryTrim job s
  | .historyRelease job => Sys2Proof.Machine.execHistoryRelease job s
  | .historyFree hist => Sys2Proof.Machine.execHistoryFree hist s
  | .frameReturn hist => Sys2Proof.Machine.execFrameReturn hist s
  | .chunkStep job step => Sys2Proof.Machine.execChunkStep job step s
  | .chunkStepComplete job result => Sys2Proof.Machine.execChunkStepComplete job result s
  | .historyAppendFail job => Sys2Proof.Machine.execHistoryAppendFail job s
  | .historyStop => Sys2Proof.Machine.execHistoryStop s
  | .historyStopped => Sys2Proof.Machine.execHistoryStopped s
  | .historyStart => Sys2Proof.Machine.execHistoryStart s
  | .modelAdd model => Sys2Proof.Machine.execModelAdd model s
  | .modelRemove model => Sys2Proof.Machine.execModelRemove model s
  | .modelRemoved model => Sys2Proof.Machine.execModelRemoved model s
  | .modelLoadDone model => Sys2Proof.Machine.execModelLoadDone model s
  | .modelBlockReload model block job => Sys2Proof.Machine.execModelBlockReload model block job s
  | .admissionStop => Sys2Proof.Machine.execAdmissionStop s
  | .admissionDrained => Sys2Proof.Machine.execAdmissionDrained s
  | .admissionStart => Sys2Proof.Machine.execAdmissionStart s
  | .chsetStop set => Sys2Proof.Machine.execChsetStop set s
  | .chsetRestart set => Sys2Proof.Machine.execChsetRestart set s
  | .freezeResetRing ring => Sys2Proof.Machine.execFreezeResetRing ring s
  | .freezeResetStream stream => Sys2Proof.Machine.execFreezeResetStream stream s
  | .freezeResetKilnTask task => Sys2Proof.Machine.execFreezeResetKilnTask task s
  | .freezeResetPeer device => Sys2Proof.Machine.execFreezeResetPeer device s
  | .sqProducer ring value => Sys2Proof.Machine.execSqProducer ring value s
  | .cqConsumer ring value => Sys2Proof.Machine.execCqConsumer ring value s
  | .eventRingConsumer value => Sys2Proof.Machine.execEventRingConsumer value s
  | .bar2BadWrite offset size => Sys2Proof.Machine.execBar2BadWrite offset size s
  | .ringEnable ring => Sys2Proof.Machine.execRingEnable ring s
  | .ringDisable ring => Sys2Proof.Machine.execRingDisable ring s
  | .ringStopped ring => Sys2Proof.Machine.execRingStopped ring s
  | .eventRingEnable => Sys2Proof.Machine.execEventRingEnable s
  | .eventRingDisable => Sys2Proof.Machine.execEventRingDisable s
  | .eventRecordWrite record => Sys2Proof.Machine.execEventRecordWrite record s
  | .windowInvalidate entry => Sys2Proof.Machine.execWindowInvalidate entry s
  | .windowInvalidateAll => Sys2Proof.Machine.execWindowInvalidateAll s
  | .apertureMove port base => Sys2Proof.Machine.execApertureMove port base s
  | .apertureRead port offset len => Sys2Proof.Machine.execApertureRead port offset len s
  | .apertureWrite port offset data => Sys2Proof.Machine.execApertureWrite port offset data s
  | .bar0BadAccess port offset size isRead => Sys2Proof.Machine.execBar0BadAccess port offset size isRead s
  | .portReset port => Sys2Proof.Machine.execPortReset port s
  | .busMasterEnableChange port on => Sys2Proof.Machine.execBusMasterEnableChange port on s
  | .ideLeavesSecure port => Sys2Proof.Machine.execIdeLeavesSecure port s
  | .blockReceive quay lane seq outcome last => Sys2Proof.Machine.execBlockReceive quay lane seq outcome last s
  | .replayRequest quay lane seq => Sys2Proof.Machine.execReplayRequest quay lane seq s
  | .frameIdleClose quay lane frames blocks => Sys2Proof.Machine.execFrameIdleClose quay lane frames blocks s
  | .linkRekey quay sent => Sys2Proof.Machine.execLinkRekey quay sent s
  | .laneFail quay lane source => Sys2Proof.Machine.execLaneFail quay lane source s
  | .quayFail quay cause => Sys2Proof.Machine.execQuayFail quay cause s
  | .remoteReadTimeout stream unit => Sys2Proof.Machine.execRemoteReadTimeout stream unit s
  | .quayStop quay => Sys2Proof.Machine.execQuayStop quay s
  | .quayTrain quay keyed => Sys2Proof.Machine.execQuayTrain quay keyed s
  | .podJoin answer => Sys2Proof.Machine.execPodJoin answer s
  | .joinRequest request => Sys2Proof.Machine.execJoinRequest request s
  | .joinRetry answer => Sys2Proof.Machine.execJoinRetry answer s
  | .podLeave => Sys2Proof.Machine.execPodLeave s
  | .leave device => Sys2Proof.Machine.execLeave device s
  | .heartbeat device tide gen => Sys2Proof.Machine.execHeartbeat device tide gen s
  | .heartbeatSilence device reporter => Sys2Proof.Machine.execHeartbeatSilence device reporter s
  | .deviceLost device => Sys2Proof.Machine.execDeviceLost device s
  | .lostNotice device gen => Sys2Proof.Machine.execLostNotice device gen s
  | .standbyTakeover next => Sys2Proof.Machine.execStandbyTakeover next s
  | .timeMarker quay tide delay arrival residence => Sys2Proof.Machine.execTimeMarker quay tide delay arrival residence s
  | .markerLossLeave => Sys2Proof.Machine.execMarkerLossLeave s
  | .delayProbe quay roundTrip => Sys2Proof.Machine.execDelayProbe quay roundTrip s
  | .collectiveChannelEnable channel => Sys2Proof.Machine.execCollectiveChannelEnable channel s
  | .collectiveChannelDisable channel => Sys2Proof.Machine.execCollectiveChannelDisable channel s
  | .collectiveRoundOpen channel => Sys2Proof.Machine.execCollectiveRoundOpen channel s
  | .collectiveMessage channel round device down agrees data => Sys2Proof.Machine.execCollectiveMessage channel round device down agrees data s
  | .collectiveRoundComplete channel => Sys2Proof.Machine.execCollectiveRoundComplete channel s
  | .snapshotRequest cut dest => Sys2Proof.Machine.execSnapshotRequest cut dest s
  | .snapshotRecordsWritten records => Sys2Proof.Machine.execSnapshotRecordsWritten records s
  | .resetPod => Sys2Proof.Machine.execResetPod s
  | .peerViolation device cause => Sys2Proof.Machine.execPeerViolation device cause s
  | .errorDetect err => Sys2Proof.Machine.execErrorDetect err s
  | .salvorHandle => Sys2Proof.Machine.execSalvorHandle s
  | .deviceFaultStop err => Sys2Proof.Machine.execDeviceFaultStop err s
  | .salvorEscalate source => Sys2Proof.Machine.execSalvorEscalate source s
  | .salvorRestart => Sys2Proof.Machine.execSalvorRestart s
  | .schedulerWatchdog => Sys2Proof.Machine.execSchedulerWatchdog s
  | .hbmStackFail stack cause => Sys2Proof.Machine.execHbmStackFail stack cause s
  | .slotsLost device group slot => Sys2Proof.Machine.execSlotsLost device group slot s
  | .slotLossNotice device group slot => Sys2Proof.Machine.execSlotLossNotice device group slot s
  | .rebuildGo group => Sys2Proof.Machine.execRebuildGo group s
  | .rebuildStart group slot device => Sys2Proof.Machine.execRebuildStart group slot device s
  | .rebuildPage table page slot data => Sys2Proof.Machine.execRebuildPage table page slot data s
  | .rebuildDone group slot device => Sys2Proof.Machine.execRebuildDone group slot device s
  | .slotReplace group slot device => Sys2Proof.Machine.execSlotReplace group slot device s
  | .rebuildEnd group => Sys2Proof.Machine.execRebuildEnd group s
  | .patrolScrub addr outcome => Sys2Proof.Machine.execPatrolScrub addr outcome s
  | .trngHealthFail => Sys2Proof.Machine.execTrngHealthFail s
  | .customsWatchdog => Sys2Proof.Machine.execCustomsWatchdog s
  | .cusZeroise => Sys2Proof.Machine.execCusZeroise s
  | .tamperTrip => Sys2Proof.Machine.execTamperTrip s
  | .getVersion transport => Sys2Proof.Machine.execGetVersion transport s
  | .getCapabilities transport => Sys2Proof.Machine.execGetCapabilities transport s
  | .negotiateAlgorithms transport => Sys2Proof.Machine.execNegotiateAlgorithms transport s
  | .getDigests transport => Sys2Proof.Machine.execGetDigests transport s
  | .getCertificate transport slot offset len => Sys2Proof.Machine.execGetCertificate transport slot offset len s
  | .challenge transport slot nonce => Sys2Proof.Machine.execChallenge transport slot nonce s
  | .getMeasurements transport index nonce signed => Sys2Proof.Machine.execGetMeasurements transport index nonce signed s
  | .keyExchange transport mutualAuth => Sys2Proof.Machine.execKeyExchange transport mutualAuth s
  | .finish transport session ok => Sys2Proof.Machine.execFinish transport session ok s
  | .heartbeatSpdm transport session => Sys2Proof.Machine.execHeartbeatSpdm transport session s
  | .keyUpdate transport session => Sys2Proof.Machine.execKeyUpdate transport session s
  | .endSession transport session => Sys2Proof.Machine.execEndSession transport session s
  | .chunkSend transport seq last data => Sys2Proof.Machine.execChunkSend transport seq last data s
  | .chunkGet transport seq => Sys2Proof.Machine.execChunkGet transport seq s
  | .ideKm session port go => Sys2Proof.Machine.execIdeKm session port go s
  | .debugNonce session => Sys2Proof.Machine.execDebugNonce session s
  | .debugUnlock token => Sys2Proof.Machine.execDebugUnlock token s
  | .lifecycleTransition session target signer ownerHash signedOk => Sys2Proof.Machine.execLifecycleTransition session target signer ownerHash signedOk s
  | .debugClose => Sys2Proof.Machine.execDebugClose s
  | .debugHalt kiln slot => Sys2Proof.Machine.execDebugHalt kiln slot s
  | .debugStepCommand kiln slot => Sys2Proof.Machine.execDebugStepCommand kiln slot s
  | .debugStepTile kiln slot => Sys2Proof.Machine.execDebugStepTile kiln slot s
  | .debugResume kiln slot => Sys2Proof.Machine.execDebugResume kiln slot s
  | .stateReqRun => Sys2Proof.Machine.execStateReqRun s
  | .stateReqBanked => Sys2Proof.Machine.execStateReqBanked s
  | .stateReqSmoulder => Sys2Proof.Machine.execStateReqSmoulder s
  | .lowPowerEntry => Sys2Proof.Machine.execLowPowerEntry s
  | .stepReq step => Sys2Proof.Machine.execStepReq step s
  | .wake cause => Sys2Proof.Machine.execWake cause s
  | .quaysWarm => Sys2Proof.Machine.execQuaysWarm s
  | .underVoltageTrip => Sys2Proof.Machine.execUnderVoltageTrip s
  | .overVoltageTrip => Sys2Proof.Machine.execOverVoltageTrip s
  | .inputRelease => Sys2Proof.Machine.execInputRelease s
  | .hotTrip site => Sys2Proof.Machine.execHotTrip site s
  | .hotTripRelease site => Sys2Proof.Machine.execHotTripRelease site s
  | .shutdownTrip site => Sys2Proof.Machine.execShutdownTrip site s
  | .shutdownTripRelease site => Sys2Proof.Machine.execShutdownTripRelease site s
  | .managementTick power millivolts counts sites rails => Sys2Proof.Machine.execManagementTick power millivolts counts sites rails s
  | .pilotWatchdog => Sys2Proof.Machine.execPilotWatchdog s
  | .severity3ResetPolicy => Sys2Proof.Machine.execSeverity3ResetPolicy s
  | .pltCapWrite source value => Sys2Proof.Machine.execPltCapWrite source value s
  | .pltReset source key => Sys2Proof.Machine.execPltReset source key s
  | .profileSave => Sys2Proof.Machine.execProfileSave s
  | .profileErase => Sys2Proof.Machine.execProfileErase s
  | .mctpMessage transport kind body => Sys2Proof.Machine.execMctpMessage transport kind body s
  | .firmwareTransferEnd image => Sys2Proof.Machine.execFirmwareTransferEnd image s
  | .firmwareActivate => Sys2Proof.Machine.execFirmwareActivate s
  | .tideHold heard => Sys2Proof.Machine.execTideHold heard s
  | .holdReady device => Sys2Proof.Machine.execHoldReady device s
  | .tideStopBroadcast tide heard => Sys2Proof.Machine.execTideStopBroadcast tide heard s
  | .tideHoldRelease tide steps grace heard => Sys2Proof.Machine.execTideHoldRelease tide steps grace heard s
  | .modEnRise => Sys2Proof.Machine.execModEnRise s
  | .modEnRelease => Sys2Proof.Machine.execModEnRelease s
  | .resetIn => Sys2Proof.Machine.execResetIn s
  | .deviceReset => Sys2Proof.Machine.execDeviceReset s
  | .startUp report => Sys2Proof.Machine.execStartUp report s
  | .setupLock source => Sys2Proof.Machine.execSetupLock source s
  | .registerWrite source offset size value => Sys2Proof.Machine.execRegisterWrite source offset size value s
  | .registerRead source offset size => Sys2Proof.Machine.execRegisterRead source offset size s
  | .readDataLands stream unit data => Sys2Proof.Machine.execReadDataLands stream unit data s
  | .remoteStreamRead device stream unit addr len order => Sys2Proof.Machine.execRemoteStreamRead device stream unit addr len order s
  | .remoteStreamWrite device stream unit addr cls data => Sys2Proof.Machine.execRemoteStreamWrite device stream unit addr cls data s
  | .rebuildPageRequest table page slot device => Sys2Proof.Machine.execRebuildPageRequest table page slot device s
  | .groupMasterEpochRequest table gen group epoch0 device => Sys2Proof.Machine.execGroupMasterEpochRequest table gen group epoch0 device s
  | .endToEndAck device number => Sys2Proof.Machine.execEndToEndAck device number s
  | .routeTables routes => Sys2Proof.Machine.execRouteTables routes s
  | .masterMirror log members standbys links size => Sys2Proof.Machine.execMasterMirror log members standbys links size s
  | .lighthousePowerLoss => Sys2Proof.Machine.execLighthousePowerLoss s
  | .quayReconnect quay keyed => Sys2Proof.Machine.execQuayReconnect quay keyed s

end Sys2Proof.Machine
end

