-- ==== Sys2Proof/Safety.lean ====
section
/-! DEFINITION. What the statements about the device speak of: a command that completes, the device in service, memory as it is
read byte by byte, what an update leaves alone, and the invariant that every step keeps. -/

namespace Sys2Proof.Safety

open Sys2Proof.Machine

/-- Command c, run on s, completes in a next state of which P holds. -/
def Runs (c : Instr) (s : State) (P : State → Prop) : Prop := ∃ t, exec c s = .next t ∧ P t

/-- The ports answer: the logic runs and the second step of start-up has ended (R605). -/
def HostUp (s : State) : Prop := s.power.mode = .run ∧ 3 ≤ s.get LHS_START_STEP 0

/-- The engines run: no severity 3 stop, no failed start-up, in Full or Damped. -/
def Live (s : State) : Prop := s.halted = false ∧ s.get LHS_START_FAILED 0 = 0 ∧ s.power.mode = .run

/-- The byte that device memory holds at a normal-view address. -/
def memAt (s : State) (a : Nat) : Byte := Tab.get (memDefault s.undef) s.mem a

/-- Every byte of device memory reads as before, but for n bytes from a. -/
def KeepsMemBut (s t : State) (a n : Nat) : Prop := ∀ b, ¬ (a ≤ b ∧ b < a + n) → memAt t b = memAt s b

/-- Every register field keeps its value, but for those whose keys are listed. -/
def KeepsFieldsBut (s t : State) (l : List Nat) : Prop := ∀ (f : Fld) (i : Nat), f.key i ∉ l → t.get f i = s.get f i

/-- Device memory is in its canonical form: addresses strictly rising, no entry equal to what an unlisted address reads as. -/
def MemOk (s : State) : Prop := Tab.wf (memDefault s.undef) s.mem = true

/-- Host memory is in its canonical form. -/
def HostOk (s : State) : Prop := Tab.wf (fun _ => 0) s.host = true

/-- The invariant that every step keeps: both memories are in their canonical form. -/
def Inv (s : State) : Prop := MemOk s ∧ HostOk s

/-- Stream n runs, no WAITSLOT holds it, and the instruction at its manifest's counter is i (R196). -/
def AtInsn (s : State) (n : Nat) (i : MInsn) : Prop :=
  Live s ∧ (s.stream n).st = .running ∧ (s.stream n).wait = .none ∧
  ∃ w, (s.stream n).code[(s.stream n).pos.pc]? = some w ∧ decodeInsn w = some i

/-- Nothing but stream n has changed. -/
def OnlyStream (s t : State) (n : Nat) : Prop := t = { s with streams := t.streams } ∧ ∀ m, m ≠ n → t.stream m = s.stream m

/-- The task at slot c of kiln k is READY on a kiln in service, no debug request waits, and the command at its program counter has opcode
`op`, a good header and the `n` bytes that read as the number v; u is the state once they are read. -/
def AtCommand (s : State) (k c op n v : Nat) (u : State) : Prop :=
  let x := s.ctx k c
  Live s ∧ k < s.kilnCount ∧ c < 4 ∧ s.kilnFenced k = false ∧ x.st = .ready ∧ x.dbgReq = 0 ∧
  (∃ bs w, s.read (s.taskReq x) x.pc 32 = .ok (bs, w) ∧ leNat bs % 256 = op ∧ headerOk (leNat bs) = true) ∧
  ∃ bs, s.read (s.taskReq x) x.pc n = .ok (bs, u) ∧ leNat bs = v

/-- The slot's context once its command of n bytes is done, with nothing else changed. -/
def cmdDone (x : KCtx) (n : Nat) : KCtx :=
  { x with pc := x.pc + n, row := 0, st := .ready, begun := false, group := 0, lookup := 0, strip := 0, staged := [], late := [], noswitch := false,
           declLen := 0 }

/-- The consignment c of a number is in its prepare, its next action is a, and prepares go on (R349, R367). -/
def Preparing (s : State) (id : Nat) (c : Cons) (a : Action) : Prop :=
  Live s ∧ s.get HMR_TIDE_STATUS_RUNNING 0 ≠ 0 ∧ s.cons id = some c ∧ c.phase = .preparing ∧ c.actions[c.next]? = some a

/-- The device has stopped for a severity 3 error of this source (R529): no job is left, the tide does not run, the pilot is told, and device
memory is as it was. -/
def Stopped (s t : State) (source : Nat) : Prop :=
  t.halted = true ∧ t.jobs = [] ∧ t.get HMR_TIDE_STATUS_RUNNING 0 = 0 ∧ t.pilot.sev3 = true ∧ t.mem = s.mem ∧
  t.out.getLast? = some (.pldmEvent 3 source)

/-- The keys of the register fields that a device reset keeps (Table 15.10). -/
def keptKeys : List Nat := (CUS_STATUS_ERROR :: CUS_STATUS_ERROR_SOURCE :: PLT_POLICY_HBM_FULL_WARM :: lighthouseFlds).map fun f => f.key 0

/-- Everything that a device reset loses is lost: memory, work, membership, sessions and keys, and every register field but those that a reset keeps and
those whose keys are listed, while fuses, the pilot's stores, host memory and what waits stay (R625, Table 15.10). -/
def Cleared (s t : State) (l : List Nat) : Prop :=
  (∀ (f : Fld) (i : Nat), f.key i ∉ keptKeys ++ l → t.get f i = f.reset i) ∧ t.get LHS_RTC_COUNT 0 = s.get LHS_RTC_COUNT 0 ∧
  t.mem = [] ∧ t.undef = [] ∧ t.jobs = [] ∧ t.streams = [] ∧ t.ctxs = [] ∧ t.models = [] ∧ t.tables = [] ∧ t.conss = [] ∧ t.pod = {} ∧
  t.salvor = {} ∧ t.veiled = [] ∧ t.halted = false ∧ t.cus.sessions = [] ∧ t.cus.identity = false ∧ t.cus.nonce = none ∧
  t.cus.lifecycle = s.cus.lifecycle ∧ t.cus.counters = s.cus.counters ∧ t.cus.ownerHash = s.cus.ownerHash ∧ t.pilot.profile = s.pilot.profile ∧
  t.pilot.log = s.pilot.log ∧ t.dock = { burned := s.dock.burned } ∧ t.host = s.host ∧ t.pending = s.pending

end Sys2Proof.Safety
end

