-- ==== Sys2Proof/Certificates/Slice0/Obligations.lean ====
section
/-! DEFINITION. The statements about the device. Those that say what a command does have the shape: for every state and operands that meet
the conditions of its rule, the command answers a next state, which is given whole, or by what it holds and what it leaves alone. -/

open Sys2Proof Sys2Proof.Machine Sys2Proof.Safety

/-- A step takes the command at the front of the queue and answers what its meaning answers on the state with the rest of the queue; with
nothing waiting the block idles, which is the model's choice (log 1). -/
def Obligations.StepRunsFrontCommand : Prop :=
  (∀ (s : State) (c : Instr) (rest : List Instr), s.pending = c :: rest → step s = exec c { s with pending := rest }) ∧
  (∀ s : State, s.pending = [] → step s = .next s)

/-- The device right after reset (R8, R290, R481, Table 01.7): every ring STOPPED with its indices at 0, the tide stopped at number 0, set-up
unlocked, no memory listed, nothing sent, nothing waiting, and the invariant. Zero memory is what start-up leaves (R290, R604). -/
def Obligations.ResetIsQuiescent : Prop :=
  (∀ n, (State.reset.ring n).st = .stopped ∧ (State.reset.ring n).prod = 0 ∧ (State.reset.ring n).cons = 0 ∧
    (State.reset.ring n).cqProd = 0 ∧ (State.reset.ring n).cqCons = 0) ∧
  State.reset.get HMR_TIDE_COUNT_TIDE 0 = 0 ∧ State.reset.get HMR_TIDE_STATUS_RUNNING 0 = 0 ∧
  State.reset.get HMR_TIDE_CFG_PERIOD_STEPS 0 = 2 ∧ State.reset.get HST_SETUP_LOCK_SETUP_LOCK 0 = 0 ∧ State.reset.get PLT_CAP_CAP_W 0 = 0x708 ∧
  (∀ a, memAt State.reset a = 0) ∧ State.reset.out = [] ∧ State.reset.pending = [] ∧ Inv State.reset

/-- No command stops the block: every command, in every state, answers a next state. -/
def Obligations.EveryStepAnswersNext : Prop :=
  (∀ (c : Instr) (s : State), ∃ t, exec c s = .next t) ∧ ∀ s : State, ∃ t, step s = .next t

/-- Both memories keep their canonical form over every step, from every state that has it. -/
def Obligations.StepKeepsMemoriesCanonical : Prop :=
  ∀ s t : State, Inv s → step s = .next t → Inv t

/-- The queue is first in, first out and no command touches it; and nothing that was sent is taken back: a step only appends to it. -/
def Obligations.StepConsumesOneAndOnlyAppends : Prop :=
  ∀ s t : State, step s = .next t → t.pending = s.pending.tail ∧ ∃ l, t.out = s.out ++ l

/-- Doorbells (R458 to R461, R474): a valid producer or consumer index is taken and changes nothing else; an invalid one freezes the ring with
DB_RANGE (1) or CQ_RANGE (2), or sets `OVERFLOW` for the event ring; a ring that is not RUNNING, and a write that is no aligned one of 4 B, are
discarded and counted. -/
def Obligations.DoorbellsMoveIndexFreezeOrCount : Prop :=
  (∀ (s : State) (n p : Nat), HostUp s → n < 256 → p < 2 ^ 32 → (s.ring n).st = .running →
    let good := (p + 2 ^ 32 - (s.ring n).cons) % 2 ^ 32 ≤ 2 ^ s.get HST_RING_CFG_SQ_LOG2 n ∧ (p + 2 ^ 32 - (s.ring n).prod) % 2 ^ 32 < 2 ^ 31
    (good → exec (.sqProducer n p) s = .next (s.putRing n { s.ring n with prod := p })) ∧
    (¬ good → exec (.sqProducer n p) s = .next
      (((s.putRing n { s.ring n with st := .frozen }).put HST_RING_STATUS_FREEZE_CAUSE n 1).inc HMR_SCHED_EVENTS_FREEZES 0 1))) ∧
  (∀ (s : State) (n q : Nat), HostUp s → n < 256 → q < 2 ^ 32 → (s.ring n).st = .running →
    let good := (q + 2 ^ 32 - (s.ring n).cqCons) % 2 ^ 32 < 2 ^ 31 ∧ ((s.ring n).cqProd + 2 ^ 32 - q) % 2 ^ 32 < 2 ^ 31
    (good → exec (.cqConsumer n q) s = .next (s.putRing n { s.ring n with cqCons := q })) ∧
    (¬ good → exec (.cqConsumer n q) s = .next
      (((s.putRing n { s.ring n with st := .frozen }).put HST_RING_STATUS_FREEZE_CAUSE n 2).inc HMR_SCHED_EVENTS_FREEZES 0 1))) ∧
  (∀ (s : State) (n v : Nat), HostUp s → n < 256 → (s.ring n).st ≠ .running →
    exec (.sqProducer n v) s = .next (s.inc HST_DB_STATUS_BAD_WRITES 0 1) ∧
    exec (.cqConsumer n v) s = .next (s.inc HST_DB_STATUS_BAD_WRITES 0 1)) ∧
  (∀ (s : State) (q : Nat), HostUp s → q < 2 ^ 32 →
    let good := (q + 2 ^ 32 - s.evt.cons) % 2 ^ 32 < 2 ^ 31 ∧ (s.evt.prod + 2 ^ 32 - q) % 2 ^ 32 < 2 ^ 31
    (good → s.evt.queue = [] → Runs (.eventRingConsumer q) s fun t => t = { s with evt := { s.evt with cons := q } }) ∧
    (¬ good → exec (.eventRingConsumer q) s = .next (s.put HST_EVT_STATUS_OVERFLOW 0 1))) ∧
  (∀ (s : State) (o k : Nat), HostUp s → ¬ (k = 4 ∧ o % 4 = 0) →
    exec (.bar2BadWrite o k) s = .next (s.inc HST_DB_STATUS_BAD_WRITES 0 1))

/-- Starting and stopping rings (R443, R481, R483): `ENABLE` starts a STOPPED ring with its indices at 0 unless IDE holds it back; clearing it
makes a RUNNING ring STOPPING; once nothing of a STOPPING ring is outstanding it is STOPPED with its indices at 0; a freeze reset of a frozen ring
clears it at once where nothing is outstanding, and waits with `RESET_PENDING` otherwise, until RING_STOPPED. -/
def Obligations.RingsStartStopAndReset : Prop :=
  (∀ (s : State) (n : Nat), HostUp s → n < 256 → (s.ring n).st = .stopped →
    ¬ (s.get CUS_STATUS_IDE_REQUIRED 0 ≠ 0 ∧ s.get HST_PORT_STATUS_IDE_SECURE (s.get HST_RING_CFG_PORT n) = 0) →
    Runs (.ringEnable n) s fun t =>
      (t.ring n).st = .running ∧ (t.ring n).enabled = true ∧ (t.ring n).prod = 0 ∧ (t.ring n).cons = 0 ∧ (t.ring n).cqProd = 0 ∧
      (t.ring n).cqCons = 0 ∧ (t.ring n).reserved = 0 ∧ (∀ m, m ≠ n → t.ring m = s.ring m) ∧ t.get HST_RING_CTL_ENABLE n = 1 ∧
      KeepsFieldsBut s t [HST_RING_CTL_ENABLE.key n] ∧ t = { s with flds := t.flds, rings := t.rings }) ∧
  (∀ (s : State) (n : Nat), HostUp s → n < 256 → (s.ring n).st = .stopped → s.get CUS_STATUS_IDE_REQUIRED 0 ≠ 0 →
    s.get HST_PORT_STATUS_IDE_SECURE (s.get HST_RING_CFG_PORT n) = 0 →
    exec (.ringEnable n) s = .next ((s.put HST_RING_CTL_ENABLE n 1).put HST_RING_STATUS_IDE_BLOCKED n 1)) ∧
  (∀ (s : State) (n : Nat), HostUp s → n < 256 → (s.ring n).st = .running →
    exec (.ringDisable n) s = .next ((s.put HST_RING_CTL_ENABLE n 0).putRing n { s.ring n with st := .stopping, enabled := false })) ∧
  (∀ (s : State) (n : Nat), s.ringQuiet n = true → (s.ring n).st = .stopping →
    Runs (.ringStopped n) s fun t => (t.ring n).st = .stopped ∧ (t.ring n).prod = 0 ∧ (t.ring n).cons = 0 ∧ (t.ring n).cqProd = 0 ∧
      (t.ring n).cqCons = 0 ∧ (t.ring n).reserved = 0 ∧ (∀ m, m ≠ n → t.ring m = s.ring m) ∧ t = { s with rings := t.rings }) ∧
  (∀ (s : State) (n : Nat), HostUp s → n < 256 → (s.ring n).st = .frozen → s.ringQuiet n = false →
    exec (.freezeResetRing n) s = .next (s.put HST_RING_STATUS_RESET_PENDING n 1)) ∧
  (∀ (s : State) (n : Nat), HostUp s → n < 256 → (s.ring n).st = .frozen → s.ringQuiet n = true →
    Runs (.freezeResetRing n) s fun t => t.ring n = {} ∧ (∀ m, m ≠ n → t.ring m = s.ring m) ∧ t.get HST_RING_CTL_ENABLE n = 0 ∧
      t.get HST_RING_STATUS_FREEZE_CAUSE n = 0 ∧ t.get HST_RING_STATUS_RESET_PENDING n = 0 ∧ t.get HMR_RING_STATE_DEBT_NS n = 0 ∧
      KeepsFieldsBut s t [HST_RING_CTL_ENABLE.key n, HST_RING_STATUS_FREEZE_CAUSE.key n, HST_RING_STATUS_RESET_PENDING.key n,
        HMR_RING_STATE_DEBT_NS.key n] ∧ t = { s with flds := t.flds, rings := t.rings })

/-- Fetching (R463 to R465, R482): running rings take turns, and one in its turn reads as many descriptors as wait, up to 32, up to the end of the ring and up to half of its
free completion slots, and reserves two slots for each; a read that returns hands its descriptors over in slot order; a failed read freezes the
ring with FETCH_ERROR (3) and its descriptors are not taken. That turns go by ring number, from ring 0, is the model's choice (log 134). -/
def Obligations.FetchReservesTwoSlotsEach : Prop :=
  (∀ (s : State) (n : Nat), Live s → (s.ring n).st = .running → s.portSends (s.get HST_RING_CFG_PORT n) = true →
    let r := s.ring n
    let size := 2 ^ s.get HST_RING_CFG_SQ_LOG2 n
    let free := 2 ^ s.get HST_RING_CFG_CQ_LOG2 n - (r.cqProd + 2 ^ 32 - r.cqCons) % 2 ^ 32 - r.reserved
    let k := min (min 32 ((r.prod + 2 ^ 32 - r.next) % 2 ^ 32)) (min (size - r.next % size) (free / 2))
    0 < k → (∀ i, i < (n + 256 - s.ringTurn) % 256 → s.canFetch ((s.ringTurn + i) % 256) = false) → exec (.descriptorFetch n) s = .next
      (({ s with ringTurn := (n + 1) % 256 }.putRing n
        { r with reads := r.reads ++ [(r.next, k)], next := (r.next + k) % 2 ^ 32, reserved := r.reserved + 2 * k }).send (.descRead n r.next k))) ∧
  (∀ (s : State) (n i : Nat), i < (n + 256 - s.ringTurn) % 256 → s.canFetch ((s.ringTurn + i) % 256) = true →
    exec (.descriptorFetch n) s = .next s) ∧
  (∀ (s : State) (n i k : Nat) (rest : List (Nat × Nat)), Live s → (s.ring n).reads = (i, k) :: rest → (s.ring n).st ≠ .frozen →
    exec (.descriptorReadComplete n true) s = .next
      ({ s with fetched := s.fetched ++ (List.range k).map fun d =>
          (⟨n, ⟨(i + d) % 2 ^ 32, s.hostBytes (4096 * s.get HST_SQ_BASE_BASE n + 64 * ((i + d) % 2 ^ 32 % 2 ^ s.get HST_RING_CFG_SQ_LOG2 n)) 64⟩, false⟩ :
            Fetched) }.putRing n
        { s.ring n with reads := rest, cons := ((s.ring n).cons + k) % 2 ^ 32 })) ∧
  (∀ (s : State) (n i k : Nat) (rest : List (Nat × Nat)), Live s → (s.ring n).reads = (i, k) :: rest → (s.ring n).st ≠ .frozen →
    Runs (.descriptorReadComplete n false) s fun t => (t.ring n).st = .frozen ∧ (t.ring n).reads = rest ∧ (t.ring n).cons = (s.ring n).cons ∧
      t.get HST_RING_STATUS_FREEZE_CAUSE n = 3 ∧ t.fetched = s.fetched ∧ (∀ m, m ≠ n → t.ring m = s.ring m) ∧
      KeepsFieldsBut s t [HST_RING_STATUS_FREEZE_CAUSE.key n, HMR_SCHED_EVENTS_FREEZES.key 0] ∧ t = { s with flds := t.flds, rings := t.rings })

/-- Event ring, interrupts and ports (R444 to R446, R474, R475, R478 to R480): starting the event ring puts its indices at 0; a record that
finds it full or stopped waits in a queue of 256, and one that finds the queue full is counted and sets `OVERFLOW`; a coalesced interrupt goes out;
unmasking sends a pending interrupt; Bus Master Enable is followed; a ring whose port leaves the Secure state freezes with cause IDE (5). -/
def Obligations.EventRingInterruptsAndPorts : Prop :=
  (∀ s : State, HostUp s → s.get HST_EVT_CTL_ENABLE 0 = 0 → s.evt.queue = [] →
    Runs .eventRingEnable s fun t => t.evt = { s.evt with prod := 0, cons := 0 } ∧ t.get HST_EVT_CTL_ENABLE 0 = 1 ∧
      t.get HST_EVT_CTL_STOPPED 0 = 0 ∧ KeepsFieldsBut s t [HST_EVT_CTL_ENABLE.key 0, HST_EVT_CTL_STOPPED.key 0] ∧
      t = { s with flds := t.flds, evt := t.evt }) ∧
  (∀ s : State, HostUp s → exec .eventRingDisable s = .next ((s.put HST_EVT_CTL_ENABLE 0 0).put HST_EVT_CTL_STOPPED 0 1)) ∧
  (∀ (s : State) (bs : List Byte), s.evtRoom = false →
    (s.evt.queue.length < 256 → exec (.eventRecordWrite bs) s = .next { s with evt := { s.evt with queue := s.evt.queue ++ [eventBytes bs] } }) ∧
    (256 ≤ s.evt.queue.length → exec (.eventRecordWrite bs) s = .next ((s.inc HST_EVT_STATUS_LOST 0 1).put HST_EVT_STATUS_OVERFLOW 0 1))) ∧
  (∀ (s : State) (bs : List Byte), s.evtRoom = true → s.evt.queue = [] →
    let lg := s.get HST_EVT_CFG_LOG2 0
    exec (.eventRecordWrite bs) s = .next
      ({ s.hostWrite (4096 * s.get HST_EVT_BASE_BASE 0 + 64 * (s.evt.prod % 2 ^ lg)) (withPhase lg s.evt.prod (eventBytes bs)) with
          evt := { s.evt with prod := (s.evt.prod + 1) % 2 ^ 32 } }.irq (s.get HST_EVT_CFG_PORT 0) (s.get HST_EVT_CFG_VECTOR 0))) ∧
  (∀ (s : State) (n : Nat), 0 < (s.ring n).unsignalled → s.get HST_RING_CFG_COALESCE_US n ≠ 0 → s.get HST_RING_CFG_IRQ_EN n ≠ 0 →
    s.portSends (s.get HST_RING_CFG_PORT n) = true → s.masked (s.get HST_RING_CFG_PORT n) (s.get HST_RING_CFG_VECTOR n) = false →
    exec (.interruptCoalesceTimeout n) s = .next
      ((s.putRing n { s.ring n with unsignalled := 0 }).send (.irq (s.get HST_RING_CFG_PORT n) (s.get HST_RING_CFG_VECTOR n)))) ∧
  (∀ (s : State) (p v : Nat), HostUp s → p < 2 → v < 512 → s.portSends p = true → Tab.get (fun _ => false) s.msixPend (p * 512 + v) = true →
    Runs (.msixUnmask p v) s fun t => t.out = s.out ++ [.irq p v] ∧ t.masked p v = false ∧
      Tab.find (p * 512 + v) t.msixPend = none ∧ t = { s with msix := t.msix, msixPend := t.msixPend, out := t.out }) ∧
  (∀ (s : State) (p : Nat), p < 2 → exec (.busMasterEnableChange p false) s = .next (s.put HST_PORT_STATUS_BME p 0)) ∧
  (∀ (s : State) (p : Nat), p < 2 → s.get HST_PORT_STATUS_IDE_SECURE p ≠ 0 →
    Runs (.ideLeavesSecure p) s fun t => t.get HST_PORT_STATUS_IDE_SECURE p = 0 ∧ t.portSends p = false ∧
      (∀ n, n < 256 → s.get HST_RING_CFG_PORT n = p → (s.ring n).st = .running →
        (t.ring n).st = .frozen ∧ t.get HST_RING_STATUS_FREEZE_CAUSE n = 5) ∧
      (∀ n, (256 ≤ n ∨ s.get HST_RING_CFG_PORT n ≠ p ∨ (s.ring n).st ≠ .running) → t.ring n = s.ring n) ∧
      KeepsFieldsBut s t (HST_PORT_STATUS_IDE_SECURE.key p :: HMR_SCHED_EVENTS_FREEZES.key 0 ::
        (List.range 256).map HST_RING_STATUS_FREEZE_CAUSE.key) ∧ t = { s with flds := t.flds, rings := t.rings, ideHeld := t.ideHeld })

/-- Windows and the aperture (R447, R449, R450, R452, R455): an invalidation forgets translations and changes nothing else; the aperture's base
moves; an access the aperture does not reach is counted in `APERTURE_BAD`, a read of it with Completer Abort; a BAR0 access that is no aligned one of 4 B or 8 B reads all ones or is
discarded. -/
def Obligations.WindowsApertureAndBadAccesses : Prop :=
  (∀ (s : State) (e : Nat), HostUp s →
    exec (.windowInvalidate e) s = .next { s with winCache := s.winCache.filter fun x => x.2.entry != e } ∧
    exec .windowInvalidateAll s = .next { s with winCache := [] }) ∧
  (∀ (s : State) (p b : Nat), HostUp s → p < 2 → exec (.apertureMove p b) s = .next (s.put HST_APERTURE_BASE p b)) ∧
  (∀ (s : State) (p off n : Nat), HostUp s → p < 2 → off + n ≤ 2 ^ 32 →
    s.apertureOk false (2 ^ 32 * s.get HST_APERTURE_BASE p + off) n = false →
    exec (.apertureRead p off n) s = .next ((s.inc HST_APERTURE_BAD_APERTURE_BAD 0 1).send (.completerAbort p))) ∧
  (∀ (s : State) (p off : Nat) (bs : List Byte), HostUp s → p < 2 → off + bs.length ≤ 2 ^ 32 →
    s.apertureOk true (2 ^ 32 * s.get HST_APERTURE_BASE p + off) bs.length = false →
    exec (.apertureWrite p off bs) s = .next (s.inc HST_APERTURE_BAD_APERTURE_BAD 0 1)) ∧
  (∀ (s : State) (p o k : Nat), HostUp s → ¬ ((k = 4 ∨ k = 8) ∧ o % k = 0) →
    exec (.bar0BadAccess p o k true) s = .next (s.send (.allOnes p)) ∧ exec (.bar0BadAccess p o k false) s = .next s)

/-- HBM through the aperture (R449, R450, R243): within one 256 B unit of a channel set that is neither stopped nor lost, and with no
word in error in the way, a read answers the bytes that stand at `BASE` × 2^32 + offset and leaves every byte of memory alone, and a write leaves
exactly its bytes there, whatever the classes of the set, and every other byte of memory as it was. -/
def Obligations.ApertureReadsAndWritesHbm : Prop :=
  ∀ (s : State) (p off k : Nat) (bs : List Byte), HostUp s → p < 2 → 0 < k → off + k ≤ 2 ^ 32 → bs.length = k → s.veiled = [] →
    let a := 2 ^ 32 * s.get HST_APERTURE_BASE p + off
    (∀ w ∈ wordsOf a k, Tab.find w s.ecc = none) → a % 256 + k ≤ 256 → a < 0x10000000000 →
    ∀ n, s.setOf a = some n → s.setStopped n = false → s.setLost n = false →
    (Runs (.apertureRead p off k) s fun t =>
      t.out = s.out ++ [.data p ((List.range k).map fun i => memAt s (a + i))] ∧ KeepsMemBut s t 0 0 ∧ t.flds = s.flds) ∧
    (Runs (.apertureWrite p off bs) s fun t =>
      (∀ i, i < k → memAt t (a + i) = bs.getD i 0) ∧ KeepsMemBut s t a k ∧ t.flds = s.flds ∧ t.out = s.out)

/-- Register writes through a port (R8, R14, R628, R630, R632): a write of a whole 32-bit register takes its effect when it passes the four
tests in their order, and otherwise is discarded and accounted with the cause of the first test that fails, LOCKED (1) for policy while
`SETUP_LOCK` is 1, RUNNING (2) for set-up while its function runs, ENCODING (3), RULE (4); an offset without a register gives UNMAPPED (5); the low half
of a 64-bit register waits for the high half. `SETUP_LOCK` is set by SETUP_LOCK and stays set. -/
def Obligations.RegisterWritesTestedInOrder : Prop :=
  (∀ (s : State) (p o v : Nat) (r : Reg) (i : Nat), HostUp s → p < 2 → accessFits o 4 = true → v < 2 ^ 32 → inMsixTable o = false →
    inMsixPend o = false → s.reach o = some (r, i, false) → r.row.width = 32 → r.row.readOnly = false → s.busy r = false →
    let locked := r.row.policy = true ∧ s.get HST_SETUP_LOCK_SETUP_LOCK 0 ≠ 0
    let runs := r.row.setup = true ∧ s.functionStopped r i = false
    let gone (c : Nat) := Host.Outcome.next (s.discard p c r.row.block (r.row.off + i * r.row.stride))
    (locked → exec (.registerWrite p o 4 v) s = gone 1) ∧
    (¬ locked → runs → exec (.registerWrite p o 4 v) s = gone 2) ∧
    (¬ locked → ¬ runs → encodingOk r v = false → exec (.registerWrite p o 4 v) s = gone 3) ∧
    (¬ locked → ¬ runs → encodingOk r v = true → s.ruleOk r i v = false → exec (.registerWrite p o 4 v) s = gone 4) ∧
    (¬ locked → ¬ runs → encodingOk r v = true → s.ruleOk r i v = true → exec (.registerWrite p o 4 v) s = .next (s.regEffect p r i v))) ∧
  (∀ (s : State) (p o v : Nat) (b off : Nat), HostUp s → p < 2 → accessFits o 4 = true → inMsixTable o = false → inMsixPend o = false →
    s.reach o = none → blockOf o = some (b, off) → exec (.registerWrite p o 4 v) s = .next (s.discard p 5 b off)) ∧
  (∀ (s : State) (p o v : Nat) (r : Reg) (i : Nat), HostUp s → p < 2 → accessFits o 4 = true → v < 2 ^ 32 → inMsixTable o = false →
    inMsixPend o = false → s.reach o = some (r, i, false) → r.row.width ≠ 32 →
    exec (.registerWrite p o 4 v) s = .next { s with latchW := Tab.insert (halfKey p o) v s.latchW }) ∧
  (∀ (s : State) (p : Nat), HostUp s → p < 2 →
    (s.get HST_SETUP_LOCK_SETUP_LOCK 0 = 0 →
      exec (.setupLock p) s = .next ((s.put HST_SETUP_LOCK_SETUP_LOCK 0 1).put HST_SETUP_LOCK_BY_PILOT 0 0)) ∧
    (s.get HST_SETUP_LOCK_SETUP_LOCK 0 ≠ 0 → exec (.setupLock p) s = .next s))

/-- Register reads through a port (R5, R7, R14, R617): a read of a 32-bit register answers the value its fields give at their places,
write-only ones as zero, and clears the read-to-clear fields; the low half of a 64-bit register latches the high half, which a read of the
high half then answers; an offset without a register reads zero. -/
def Obligations.RegisterReadsAnswerFields : Prop :=
  (∀ (s : State) (p o : Nat) (r : Reg) (i : Nat), HostUp s → p < 2 → accessFits o 4 = true → inMsixTable o = false → inMsixPend o = false →
    s.reach o = some (r, i, false) → r.row.width = 32 →
    exec (.registerRead p o 4) s = .next ((s.clearRc r i 0 32).send (.value p (s.regValue r i)))) ∧
  (∀ (s : State) (p o : Nat) (r : Reg) (i : Nat), HostUp s → p < 2 → accessFits o 4 = true → inMsixTable o = false → inMsixPend o = false →
    s.reach o = some (r, i, false) → r.row.width ≠ 32 →
    exec (.registerRead p o 4) s = .next
      ({ s.clearRc r i 0 64 with latchR := Tab.insert (halfKey p o) (s.regValue r i / 2 ^ 32) s.latchR }.send (.value p (s.regValue r i % 2 ^ 32)))) ∧
  (∀ (s : State) (p o w : Nat) (r : Reg) (i : Nat), HostUp s → p < 2 → accessFits o 4 = true → inMsixTable o = false → inMsixPend o = false →
    s.reach o = some (r, i, true) → r.row.width ≠ 32 → Tab.find (halfKey p (o - 4)) s.latchR = some w →
    exec (.registerRead p o 4) s = .next ({ s with latchR := Tab.erase (halfKey p (o - 4)) s.latchR }.send (.value p w))) ∧
  (∀ (s : State) (p o : Nat), HostUp s → p < 2 → accessFits o 4 = true → inMsixTable o = false → inMsixPend o = false → s.reach o = none →
    exec (.registerRead p o 4) s = .next (s.send (.value p 0)))

/-- A boundary takes the steps of Table 01.7 in their order: the saturation record and the counts of the ended tide, the tide counter, overdue jobs, the
pilot's limits, commits, the snapshot, debts, guarantees, admission, and the dispatch plan. Its first step adds 1 to the counter, modulo 2^64.
The place of the overdue jobs is the model's choice (log 52). -/
def Obligations.BoundaryTakesStepsInOrder : Prop :=
  (∀ (s : State) (sat : Nat) (ov : List (Nat × Nat × Nat)), Live s → s.get HMR_TIDE_STATUS_RUNNING 0 ≠ 0 →
    let one := ((s.withHists.endFailedHists.noteSaturation sat).endTide).nextTide
    let three := ((one.overdue.applyLimits).applyCommits).snapCut
    let five := three.chargeDebts ov
    let six := ((five.checkGuarantees five.jobs.length).modeRestart).admitAll
    exec (.tideBoundary sat ov) s = .next ({ six with counts := { six.counts with forwarded := 0 } }.plan)) ∧
  (∀ s : State, s.nextTide.get HMR_TIDE_COUNT_TIDE 0 = (s.get HMR_TIDE_COUNT_TIDE 0 + 1) % 2 ^ 64 ∧
    KeepsFieldsBut s s.nextTide [HMR_TIDE_COUNT_TIDE.key 0]) ∧
  (∀ (s : State) (sat : Nat) (ov : List (Nat × Nat × Nat)), s.get HMR_TIDE_STATUS_RUNNING 0 = 0 → exec (.tideBoundary sat ov) s = .next s)

/-- Descriptors at admission (R408 to R410, R464, R466, R469, R470): the next RUN in order is admitted with its `JOB_REF`, the present tide as
its admission tide and the deadline that follows, or refused with a REFUSED record (kind 0x02) and one slot released; a CONSIGN opens its
consignment as C2; a NOP writes its record (kind 0x06). With D1 open each also sends an entry of the trace. Testing a descriptor when its
command comes is the model's choice (log 58). -/
def Obligations.DescriptorsAreAdmittedOrRefused : Prop :=
  (∀ (s : State) (ring sq : Nat) (f : Fetched) (p : RunPlan), s.jobAt ring sq .run = none → s.nextDesc ring sq 1 = some f →
    let s0 := { s with fetched := s.fetched.filter fun g => !(g.ring == f.ring && g.desc.sq == f.desc.sq),
                       counts := { s.counts with tested := s.counts.tested + 1 } }
    let d := describe f.desc.bytes
    s0.testRun f.ring f.desc.bytes = .ok p →
    Runs (.run ring sq) s fun t => ∃ j, t.jobs.getLast? = some j ∧ j.jobRef = d.jobRef ∧ j.ring = f.ring ∧ j.sq = f.desc.sq ∧ j.kind = .run ∧
      j.model = d.model ∧ j.lane = d.lane ∧ j.variant = p.variant ∧ j.units = p.units ∧ j.noIrq = d.noIrq) ∧
  (∀ (s : State) (ring sq : Nat) (f : Fetched) (r : Refused), s.jobAt ring sq .run = none → s.nextDesc ring sq 1 = some f →
    let s0 := { s with fetched := s.fetched.filter fun g => !(g.ring == f.ring && g.desc.sq == f.desc.sq),
                       counts := { s.counts with tested := s.counts.tested + 1 } }
    let d := describe f.desc.bytes
    s0.testRun f.ring f.desc.bytes = .error r → r.reason ≠ 0x14 → r.reason ≠ 0 →
    exec (.run ring sq) s = .next
      ((((s0.postRecord f.ring (recordBytes 0x02 r.status r.reason r.resource d.jobRef 0 s.stampTide 0 0) d.noIrq).releaseSlots f.ring 1).inc
        HMR_REFUSALS_COUNT 0 1).trace 2 f.ring d.jobRef 0)) ∧
  (∀ (s : State) (ring sq : Nat) (f : Fetched) (h : ConsHeader) (acts : List Action) (cost : Cost), s.nextDesc ring sq 2 = some f →
    let s0 := { s with fetched := s.fetched.filter fun g => !(g.ring == f.ring && g.desc.sq == f.desc.sq),
                       counts := { s.counts with tested := s.counts.tested + 1 } }
    s0.testConsign f.ring f.desc.bytes = .ok (h, acts, cost) →
    Runs (.consign ring sq) s fun t => t.conss = s.conss ++ [newCons h acts s.nextJob s.tide] ∧
      (∃ j, t.jobs = s.jobs ++ [j] ∧ j.id = s.nextJob ∧ j.kind = .consign ∧ j.cls = 2 ∧ j.cons = some h.id ∧ j.deadline = s.tide + h.prepTides) ∧
      t = { s0 with conss := t.conss, jobs := t.jobs, nextJob := s.nextJob + 1, admitted := s.admitted + 1, out := t.out }) ∧
  (∀ (s : State) (ring sq : Nat) (f : Fetched), s.nextDesc ring sq 3 = some f → descriptorOk f.desc.bytes = true →
    let s0 := { s with fetched := s.fetched.filter fun g => !(g.ring == f.ring && g.desc.sq == f.desc.sq),
                       counts := { s.counts with tested := s.counts.tested + 1 } }
    let d := describe f.desc.bytes
    exec (.nop ring sq) s = .next
      (((s0.postRecord f.ring (recordBytes 0x06 0 0 0 d.jobRef 0 s.stampTide 0 0) d.noIrq).releaseSlots f.ring 1).trace 1 f.ring d.jobRef 0))

/-- Ends of jobs, freeze resets and a port reset (R410, R424, R226, R445, R472, R524): at its deadline a RUN leaves the admitted jobs with
DEADLINE_MISSED, STREAM_FAULT while a stream of it is halted, or HISTORY_LATE once scored; a frozen stream, kiln task or peer is freed; a reset
port has no bus mastering, no Secure stream, no cached window and no MSI-X entry. -/
def Obligations.DeadlinesFreezeResetsAndPortReset : Prop :=
  (∀ (s : State) (i : Nat) (j : Job), Live s → s.job i = some j → j.kind = .run → j.deadline ≤ s.tide →
    let status := if j.scored then 0x0E else if (s.streamsOf j.id).any fun n => (s.stream n).st == .halted then 0x04 else 0x06
    exec (.jobDeadline i) s = .next (s.endJob j status 0 none) ∧ ∀ x ∈ (s.endJob j status 0 none).jobs, x.id ≠ i) ∧
  (∀ (s : State) (ring sq : Nat) (j : Job), Live s → s.jobAt ring sq .run = some j → s.job j.id = some j → j.workDone = true → j.scored = false → j.hist = none →
    s.outputOpen j.id = false → exec (.run ring sq) s = .next (s.endJob j 0 0 none)) ∧
  (∀ (s : State) (n : Nat), HostUp s → (s.stream n).st = .frozen → Runs (.freezeResetStream n) s fun t =>
    t.stream n = { gen := (s.stream n).gen } ∧ (∀ m, m ≠ n → t.stream m = s.stream m) ∧
    KeepsFieldsBut s t [STV_TAGS_IN_USE.key (stevedoreOf n)] ∧ t = { s with flds := t.flds, streams := t.streams, out := t.out }) ∧
  (∀ (s : State) (k c : Nat), HostUp s → c < 4 → (s.ctx k c).st = .frozen → Runs (.freezeResetKilnTask (4 * k + c)) s fun t =>
    t.ctx k c = { gen := (s.ctx k c).gen } ∧ t = { s with kilns := t.kilns, ctxs := t.ctxs } ∧
    (t.kiln k).path ≠ some c ∧ (t.kiln k).c4 ≠ some c ∧ (t.kiln k).mul ≠ some c ∧ (t.kiln k).vec ≠ some c) ∧
  (∀ (s : State) (d : Nat), HostUp s → (s.peer d).frozen = true →
    exec (.freezeResetPeer d) s = .next (s.putPeer d { s.peer d with frozen := false, malformed := 0, stray := 0 })) ∧
  (∀ (s : State) (p : Nat), p < 2 → Runs (.portReset p) s fun t =>
    t.get HST_PORT_STATUS_BME p = 0 ∧ t.get HST_PORT_STATUS_IDE_SECURE p = 0 ∧ (∀ e ∈ t.winCache, e.2.port ≠ p) ∧
    (∀ e ∈ t.msix, e.1 / 2048 ≠ p) ∧ (∀ e ∈ t.msixPend, e.1 / 512 ≠ p))


/-- Cursors, loops and the end of a manifest (R196, R198, R203): LOOP opens a level or skips its body, STRIDE and ALIGN move one cursor, and each
goes on to the next instruction by the rule for ends of bodies; END closes the tile in progress and the stream drains. -/
def Obligations.ManifestLoopsStridesAndEnds : Prop :=
  (∀ (s : State) (n body count : Nat), AtInsn s n (.loop body count) → 0 < count → 0 < body →
    let x := s.stream n
    Runs (.loop n) s fun t => OnlyStream s t n ∧ t.stream n = { x with pos := { x.pos with
      pc := x.pos.pc + 1, loops := ⟨x.pos.pc + 1, x.pos.pc + body, count⟩ :: x.pos.loops, off := 0 } }) ∧
  (∀ (s : State) (n body : Nat), AtInsn s n (.loop body 0) →
    let x := s.stream n
    let r := closeLoops x.pos.pc (x.pos.pc + body + 1) x.pos.loops
    Runs (.loop n) s fun t => OnlyStream s t n ∧ t.stream n = { x with pos := { x.pos with pc := r.2, loops := r.1, off := 0 } }) ∧
  (∀ (s : State) (n c : Nat) (set : Bool) (value : Nat), AtInsn s n (.stride c set value) → c < 3 →
    let x := s.stream n
    let v : Int := if set then (value : Int) else x.pos.cursor c + toSigned 48 value
    let r := closeLoops x.pos.pc (x.pos.pc + 1) x.pos.loops
    0 ≤ v → v < 2 ^ 48 → Runs (.stride n) s fun t => OnlyStream s t n ∧
      t.stream n = { x with pos := { x.pos.setCursor c v with pc := r.2, loops := r.1, off := 0 }, left := (t.stream n).left }) ∧
  (∀ (s : State) (n c lg : Nat), AtInsn s n (.align c lg) → c < 3 → 0 ≤ (s.stream n).pos.cursor c →
    let x := s.stream n
    let v : Nat := ((x.pos.cursor c).toNat + 2 ^ lg - 1) / 2 ^ lg * 2 ^ lg
    let r := closeLoops x.pos.pc (x.pos.pc + 1) x.pos.loops
    v < 2 ^ 48 → Runs (.align n) s fun t => OnlyStream s t n ∧
      t.stream n = { x with pos := { x.pos.setCursor c v with pc := r.2, loops := r.1, off := 0 }, left := (t.stream n).left }) ∧
  (∀ (s : State) (n : Nat), AtInsn s n .fin →
    let x := s.stream n
    Runs (.manifestEnd n) s fun t => OnlyStream s t n ∧ (t.stream n).st = .draining ∧ (t.stream n).ended = true ∧
      (t.stream n).pos.pc = x.pos.pc ∧ (t.stream n).pos.tileBytes = 0 ∧
      (t.stream n).pos.tile = x.pos.tile + (if x.pos.tileBytes = 0 then 0 else 1) ∧
      (t.stream n).units.map (·.seq) =
        (x.units.filter fun u => (t.stream n).rcv.any fun q => q.attached && decide (q.accepted ≤ u.tile)).map (·.seq) ∧
      (x.pos.tileBytes = 0 → t.stream n = { x with
        st := .draining, ended := true, left := (t.stream n).left,
        units := x.units.filter fun u => x.rcv.any fun q => q.attached && decide (q.accepted ≤ u.tile) }))

/-- Transfers (R196 to R198, R201, R216): an EMIT queues its bytes, from the unit at which its position stands, as units that cross no boundary
of 256 B, each at the destination that follows from its source, and moves both cursors unless NOADV; a GATHER queues one row for each index it
reads, at the source cursor plus the index times the pitch, and moves the index and destination cursors alone. Where `DETACH_GRACE` is 0 the receivers
that are then too far behind are detached. -/
def Obligations.TransfersQueueTheirBytes : Prop :=
  (∀ (s : State) (n : Nat) (tile noadv : Bool) (len : Nat), AtInsn s n (.emit tile noadv len) →
    let x := s.stream n
    let p := x.pos
    let r := closeLoops p.pc (p.pc + 1) p.loops
    0 ≤ p.src → 0 ≤ p.dst → p.src + len < 2 ^ 48 → p.dst + len < 2 ^ 48 → s.pastMooring x (p.dst.toNat + len) = false →
    p.tileBytes + len ≤ 1024 * (x.tileMax + 1) →
    Runs (.emit n) s fun t => ∃ (us : List SUnit) (u : State), t = u.detachSlow n ∧ (∀ m, m ≠ n → u.stream m = s.stream m) ∧
      u = { s with streams := u.streams, seq := s.seq + us.length } ∧
      u.stream n = { x with
        units := x.units ++ us, tileAt := (u.stream n).tileAt, left := (u.stream n).left,
        pos := { p with
          src := if noadv then p.src else p.src + len, dst := if noadv then p.dst else p.dst + len, off := 0,
          tile := if tile then p.tile + 1 else p.tile, tileBytes := if tile then 0 else p.tileBytes + len, pc := r.2, loops := r.1 } } ∧
      (us.map (·.len)).sum = (if p.tile < x.skipTo then 0 else (((piecesOf p.src.toNat len).drop (p.off / 256)).map (·.2)).sum) ∧
      (p.off = 0 → x.skipTo ≤ p.tile → (us.map (·.len)).sum = len) ∧
      ∀ w ∈ us, w.st = .queued ∧ 0 < w.len ∧ w.src / 256 = (w.src + w.len - 1) / 256 ∧ w.tile = p.tile ∧ p.src ≤ w.src ∧
        (w.src : Int) + w.len ≤ p.src + len ∧ (w.dst : Int) - p.dst = w.src - p.src) ∧
  (∀ (s : State) (n : Nat) (tile idx64 : Bool) (row count pitch : Nat) (e : Nat → Nat),
    AtInsn s n (.gather tile idx64 row count pitch) →
    let x := s.stream n
    let p := x.pos
    let w : Nat := if idx64 then 8 else 4
    let k := count - p.off
    let r := closeLoops p.pc (p.pc + 1) p.loops
    0 ≤ p.src → 0 ≤ p.dst → 0 ≤ p.idx → p.idx + w * k < 2 ^ 48 → p.dst + row * k < 2 ^ 48 → x.skipTo ≤ p.tile →
    (∀ i, i < k → (∃ bs, s.read (s.streamReq x) (p.idx.toNat + w * i) w = .ok (bs, s) ∧ leNat bs = e i) ∧
      p.src.toNat + e i * 2 ^ pitch + row ≤ 2 ^ 48 ∧ s.pastMooring x (p.dst.toNat + row * (i + 1)) = false) →
    p.tileBytes + row * (if tile then 1 else k) ≤ 1024 * (x.tileMax + 1) → row ≤ 1024 * (x.tileMax + 1) →
    Runs (.gather n) s fun t => ∃ (us : List SUnit) (u : State), t = u.detachSlow n ∧ (∀ m, m ≠ n → u.stream m = s.stream m) ∧
      u = { s with streams := u.streams, seq := s.seq + us.length } ∧ (u.stream n).units = x.units ++ us ∧
      (u.stream n).pos.src = p.src ∧ (u.stream n).pos.dst = p.dst + row * k ∧ (u.stream n).pos.idx = p.idx + w * k ∧
      (u.stream n).pos.pc = r.2 ∧ (u.stream n).pos.loops = r.1 ∧ (u.stream n).pos.off = 0 ∧
      (u.stream n).pos.tile = p.tile + (if tile then k else 0) ∧ (us.map (·.len)).sum = row * k ∧
      ∀ v ∈ us, v.st = .queued ∧ ∃ i, i < k ∧ p.src.toNat + e i * 2 ^ pitch ≤ v.src ∧
        v.src + v.len ≤ p.src.toNat + e i * 2 ^ pitch + row ∧
        v.dst + (p.src.toNat + e i * 2 ^ pitch) = p.dst.toNat + row * i + v.src)

/-- Synchronisation (R199, R200): WAITSLOT in slot mode holds the stream until the ready bits of its slots are clear in every
receiver, or for another destination until every earlier write is acknowledged; in barrier mode until its bits of the word are set, read
again by WAITSLOT_REREAD; SIGNAL, once every earlier write is acknowledged, sets its bit of the word and changes no other byte. -/
def Obligations.StreamsWaitAndSignal : Prop :=
  (∀ (s : State) (n k : Nat), AtInsn s n (.waitSlot k) ∨ (Live s ∧ (s.stream n).st = .waiting ∧
      ∃ w, (s.stream n).code[(s.stream n).pos.pc]? = some w ∧ decodeInsn w = some (.waitSlot k)) →
    let x := s.stream n
    let r := closeLoops x.pos.pc (x.pos.pc + 1) x.pos.loops
    let clear := if x.dstKind = 0 then
        ∀ q ∈ x.rcv, q.attached = true → ∀ i, i < k → s.isReady q.kiln q.half (q.base + x.pos.dst.toNat / 4096 + i) = false
      else ∀ u ∈ x.units, ∀ q ∈ x.rcv, q.needs u = false
    Runs (.waitslotSlot n) s fun t => OnlyStream s t n ∧
      (clear → t.stream n = { x with st := .running, wait := .none, pos := { x.pos with pc := r.2, loops := r.1, off := 0 } }) ∧
      (¬ clear → t.stream n = { x with st := .waiting, wait := .slots })) ∧
  (∀ (s s' : State) (n first count addr : Nat) (bs : List Byte), s.read (s.streamReq (s.stream n)) addr 8 = .ok (bs, s') →
    let x := s.stream n
    let r := closeLoops x.pos.pc (x.pos.pc + 1) x.pos.loops
    let set := bits (leNat bs) first count = 2 ^ count - 1
    let after (t : State) := t = { s' with streams := t.streams } ∧ (∀ m, m ≠ n → t.stream m = s.stream m) ∧
      (set → t.stream n = { x with st := .running, wait := .none, pos := { x.pos with pc := r.2, loops := r.1, off := 0 } }) ∧
      (¬ set → t.stream n = { x with st := .waiting, wait := .barrier })
    (AtInsn s n (.waitBar first count addr) → Runs (.waitslotBarrier n) s after) ∧
    (Live s → x.st = .waiting → x.wait = .barrier →
      (∃ w, x.code[x.pos.pc]? = some w ∧ decodeInsn w = some (.waitBar first count addr)) → Runs (.waitslotReread n) s after)) ∧
  (∀ (s : State) (n b addr : Nat), AtInsn s n (.signal b addr) →
    (∀ u ∈ (s.stream n).units, ∀ q ∈ (s.stream n).rcv, q.needs u = false) → b < 64 → addr % 8 = 0 → whsBase ≤ addr →
    addr < whsBase + whsBytes → s.veiled = [] → Tab.find (addr / 8) s.ecc = none →
    let x := s.stream n
    let (d, w) := wayOf (addr - whsBase)
    s.wayStopped d w = false → s.wayUse d w = 0 → bit (s.wayClasses d w) x.cls = true →
    let r := closeLoops x.pos.pc (x.pos.pc + 1) x.pos.loops
    Runs (.signal n) s fun t =>
      (∀ i, i < 8 → memAt t (addr + i) = memAt s (addr + i) ||| (leBytes 8 (2 ^ b)).getD i 0) ∧ KeepsMemBut s t addr 8 ∧
      t.stream n = { x with pos := { x.pos with pc := r.2, loops := r.1, off := 0 } } ∧ (∀ m, m ≠ n → t.stream m = s.stream m) ∧
      t.jobs = s.jobs ∧ t.ctxs = s.ctxs ∧ t.out = s.out) ∧
  (∀ (s : State) (n b addr : Nat), AtInsn s n (.signal b addr) → (∃ u ∈ (s.stream n).units, ∃ q ∈ (s.stream n).rcv, q.needs u = true) →
    exec (.signal n) s = .next s)
/-- Starting streams (R189 to R192, R195, R264, R647): a well-formed binding of a placed task that is no multicast is loaded into a free context with
its cursors and its receiver, at the half that HALF_SEL selects, while every block of its model is there, and waits for its reservations; a binding or
manifest that fails its check completes the job as MALFORMED (0x01); a binding that cannot be read halts the stream at its first instruction. -/
def Obligations.StreamsStartFromTheirBinding : Prop :=
  ∀ (s : State) (n job unit task bind : Nat) (j : Job) (u : UnitRun), Live s → s.stevedoreOk (stevedoreOf n) = true →
    (s.stream n).st = .free → s.job job = some j → s.modelWhole j.model = true → j.units.find? (fun v => v.no == unit) = some u →
    u.dispatched = true → bind < u.binds → (j.placed unit task).isSome = true → u.started.contains (task, bind) = false →
    let a := (s.model j.model).image + (s.model j.model).bindOff + 64 * (u.firstBind + task * u.binds + bind)
    let started := fun (i : Job) => if i.id == j.id then j.setUnit unit fun v =>
      { v with started := (task, bind) :: v.started.erase (task, bind) } else i
    (∀ (e : AccErr) (r : Nat), s.read {} a 64 = .error e → e.reason = some r → r ≠ 3 →
      Runs (.streamStart n job unit task bind) s fun t =>
        let y := t.stream n
        y.st = .halted ∧ y.reason = r ∧ y.gen = ((s.stream n).gen + 1) % 2 ^ 16 ∧ y.job = j.id ∧ y.unit = unit ∧ y.task = task ∧ y.bind = bind ∧
        y.fresh = true ∧ y.pos = {} ∧ y.pools = [] ∧ y.units = [] ∧ (∀ m, m ≠ n → t.stream m = s.stream m) ∧ t.jobs = s.jobs.map started ∧
        t.mem = s.mem ∧ t.ctxs = s.ctxs) ∧
    (∀ (bs : List Byte) (s1 : State), s.read {} a 64 = .ok (bs, s1) →
      let b := bindingOf bs
      (bindingOk bs (4096 * u.mooring) = false → exec (.streamStart n job unit task bind) s = .next (s1.endJob j 0x01 0 none)) ∧
      (∀ (s2 : State) (ws : List Nat), bindingOk bs (4096 * u.mooring) = true → b.multicast = false →
        s1.manifestWords { cls := some b.cls, model := some (j.model, j.version) } b.manifest 32 = .ok (ws, s2) →
        (manifestOk ws = false → exec (.streamStart n job unit task bind) s = .next (s2.endJob j 0x01 0 none)) ∧
        (∀ k c : Nat, manifestOk ws = true → j.placed unit task = some (k, c) →
          Runs (.streamStart n job unit task bind) s fun t =>
            let y := t.stream n
            y.st = .reserving ∧ y.gen = (s2.stream n).gen ∧ y.job = j.id ∧ y.unit = unit ∧ y.task = task ∧ y.owner = task ∧ y.bind = bind ∧
            y.cls = b.cls ∧ y.dstKind = b.dstKind ∧ y.srcRemote = b.srcRemote ∧ y.device = b.device ∧ y.tileMax = b.tileMax ∧ y.drain = b.drain ∧
            y.multicast = false ∧ y.catching = false ∧ y.code = ws ∧ y.units = [] ∧ y.pools = [] ∧
            y.pos = { src := b.src, dst := b.dst, idx := b.idx } ∧ y.waitSince = some s2.tide ∧ y.startTide = s2.tide ∧
            y.skipTo = u.skipOf task bind ∧
            (∃ r : Rcv, y.rcv = [r] ∧ r.kiln = k ∧ r.slot = c ∧ r.half = ((s2.ctx k c).half != b.halfSel) ∧ r.base = (s2.ctx k c).base ∧
              r.task = task ∧ r.attached = true ∧ r.accepted = u.skipOf task bind) ∧
            (∀ m, m ≠ n → t.stream m = s2.stream m) ∧ t = { s2 with streams := t.streams, jobs := t.jobs } ∧ t.jobs = s2.jobs.map started)))

/-- Reservations (R228, R229, R232): a starting stream takes its next pool whole when there is room and runs once it holds them all, asking
for the remote one last; a remote reservation is granted whole and in order of arrival, waits for room, or is given back, and a grant
that no stream awaits goes back to its quay. -/
def Obligations.ReservationsAreTakenWhole : Prop :=
  (∀ (s : State) (n p : Nat), Live s → (s.stream n).st = .reserving →
    let x := s.stream n
    (s.poolsNeeded n x)[x.pools.length]? = some p →
    let last := x.pools.length + 1 = (s.poolsNeeded n x).length
    let asks := last ∧ x.dstKind = 2
    (8192 < s.poolUsed p + x.granules → exec (.reservationTake n) s = .next s) ∧
    (s.poolUsed p + x.granules ≤ 8192 → Runs (.reservationTake n) s fun t =>
      (t.stream n).pools = x.pools ++ [p] ∧ (t.stream n).asked = decide asks ∧ (∀ m, m ≠ n → t.stream m = s.stream m) ∧
      (last ∧ x.dstKind ≠ 2 → (t.stream n).st = .running ∧ (t.stream n).waitSince = none) ∧
      (¬ last ∨ (x.dstKind = 2 ∧ x.remote = false) → (t.stream n).st = .reserving ∧ (t.stream n).waitSince = some s.tide) ∧
      t.out = s.out ++ (if asks ∧ (s.peer x.device).frozen = false then [.net x.device (classVc x.cls) (.reserve s.me n x.granules)] else []) ∧
      t = { s with streams := t.streams, out := t.out })) ∧
  (∀ (s : State) (q n g : Nat), s.hears s.me = true → (s.stream n).remote = false →
    ((s.stream n).st = .reserving → (s.stream n).asked = true → (s.stream n).dstKind = 2 →
      (s.stream n).pools.length = (s.poolsNeeded n (s.stream n)).length →
      Runs (.remoteReservationGrant q s.me n g) s fun t => OnlyStream s t n ∧
        t.stream n = { s.stream n with remote := true, st := .running, waitSince := none }) ∧
    (¬ ((s.stream n).st = .reserving ∧ (s.stream n).asked = true) → (s.stream n).dstKind = 2 → (s.stream n).st ≠ .free →
      (s.peer (s.stream n).device).frozen = false → exec (.remoteReservationGrant q s.me n g) s = .next
        { s with out := s.out ++ [.net (s.stream n).device (classVc (s.stream n).cls) (.reserveRelease s.me n)] })) ∧
  (∀ (s : State) (q d n g : Nat), s.hears d = true → d ≠ s.me → 0 < g →
    (∀ h ∈ s.remoteHolds ++ s.remoteWaits, ¬ (h.device = d ∧ h.stream = n)) →
    ((∀ h ∈ s.remoteWaits, h.quay ≠ q) → s.poolUsed (q + 2) + g ≤ 8192 → exec (.remoteReservationGrant q d n g) s = .next
      { s with remoteHolds := s.remoteHolds ++ [(⟨q, d, n, g⟩ : RemoteHold)], out := s.out ++ [.net d 1 (.reserveGrant n)] }) ∧
    ((∀ h ∈ s.remoteWaits, h.quay ≠ q) → 8192 < s.poolUsed (q + 2) + g → exec (.remoteReservationGrant q d n g) s = .next
      { s with remoteWaits := s.remoteWaits ++ [(⟨q, d, n, g⟩ : RemoteHold)] }) ∧
    (∀ w : RemoteHold, s.remoteWaits.find? (fun h => h.quay == q) = some w → 8192 < s.poolUsed (q + 2) + w.granules →
      exec (.remoteReservationGrant q d n g) s = .next { s with remoteWaits := s.remoteWaits ++ [(⟨q, d, n, g⟩ : RemoteHold)] })) ∧
  (∀ (s : State) (q d n : Nat), s.hears d = true → d ≠ s.me →
    let rest := fun (hs : List RemoteHold) => hs.filter fun h => !(h.device == d && h.stream == n)
    let freed := { s with remoteHolds := rest s.remoteHolds, remoteWaits := rest s.remoteWaits }
    ((∀ h ∈ rest s.remoteWaits, h.quay ≠ q) → exec (.remoteReservationGrant q d n 0) s = .next freed) ∧
    (∀ w : RemoteHold, (rest s.remoteWaits).find? (fun h => h.quay == q) = some w → freed.poolUsed (q + 2) + w.granules ≤ 8192 →
      Runs (.remoteReservationGrant q d n 0) s fun t => (∃ l, t.remoteHolds = rest s.remoteHolds ++ w :: l) ∧
        t = { s with remoteHolds := t.remoteHolds, remoteWaits := t.remoteWaits, out := t.out }) ∧
    (∀ w : RemoteHold, (rest s.remoteWaits).find? (fun h => h.quay == q) = some w → 8192 < freed.poolUsed (q + 2) + w.granules →
      exec (.remoteReservationGrant q d n 0) s = .next freed))

/-- The ends of streams (R193, R216, R217, R230 to R232, R538): a drained stream makes ready every slot it has written and frees its context; a
receiver that is more than four tiles behind is detached and its own stream waits, to start in a free context; a probe that comes back to its
stream aborts it where it is the youngest of the cycle, with every reservation released, and at another stream that waits it goes on to
those that hold what this one waits for. -/
def Obligations.StreamsEndDetachAndAbort : Prop :=
  (∀ (s : State) (n : Nat), Live s → (s.stream n).st = .draining → (∀ u ∈ (s.stream n).units, ∀ q ∈ (s.stream n).rcv, q.needs u = false) →
    Runs (.streamEnd n) s fun t => t.stream n = { gen := (s.stream n).gen } ∧ (∀ m, m ≠ n → t.stream m = s.stream m) ∧
      ((s.stream n).dstKind = 0 → ∀ r ∈ (s.stream n).rcv, r.attached = true → ∀ w ∈ r.wrote, t.isReady r.kiln r.half (r.base + w.1) = true) ∧
      ((s.stream n).dstKind ≠ 0 → t.ready = s.ready ∧ t.ctxs = s.ctxs) ∧
      ((s.stream n).remote = false → (s.stream n).asked = false → t.out = s.out) ∧
      KeepsFieldsBut s t [STV_TAGS_IN_USE.key (stevedoreOf n)] ∧
      t = { s with flds := t.flds, streams := t.streams, ready := t.ready, ctxs := t.ctxs, out := t.out }) ∧
  (∀ (s : State) (n i k : Nat) (r q : Rcv), Live s → (s.stream n).multicast = true → (s.stream n).mayRead = true →
    (s.stream n).rcv[i]? = some r → r.attached = true → (s.stream n).rcv[k]? = some q → q.attached = true → r.accepted + 4 ≤ q.accepted →
    s.readyFor (s.stream n) q q.accepted = true →
    let v := stevedoreOf n
    let x := s.stream n
    Runs (.receiverDetach n i) s fun t => (t.stream n).rcv = x.rcv.set i { r with attached := false } ∧
      (∀ m, m ≠ n → t.stream m = s.stream m) ∧
      t.catchUps = s.catchUps ++ [⟨some v, x.job, x.unit, r.task, x.owner, x.bind, r.accepted, some (x.catchUp r), false⟩] ∧
      t.get STV_DETACHES_COUNT v = min (s.get STV_DETACHES_COUNT v + 1) (2 ^ 32 - 1) ∧ t.get STV_DETACH_LAST_CONTEXT v = n % 32 ∧
      t.get STV_DETACH_LAST_KILN v = r.kiln % 256 ∧ t.get STV_DETACH_LAST_CTX v = r.slot % 4 ∧ t.get STV_DETACH_LAST_VALID v = 1 ∧
      KeepsFieldsBut s t [STV_DETACHES_COUNT.key v, STV_DETACH_LAST_CONTEXT.key v, STV_DETACH_LAST_KILN.key v, STV_DETACH_LAST_CTX.key v,
        STV_DETACH_LAST_VALID.key v, STV_TAGS_IN_USE.key v] ∧
      t = { s with flds := t.flds, streams := t.streams, catchUps := t.catchUps }) ∧
  (∀ (s : State) (v n : Nat) (l r : List CatchUp) (c : CatchUp), Live s → s.stevedoreOk v = true → s.catchUps = l ++ c :: r →
    (∀ d ∈ l, s.mayCatchUp v d = false) → s.mayCatchUp v c = true → s.freeContext v = some n →
    (∀ x : Machine.Stream, c.stream = some x → Runs (.catchupStreamStart v) s fun t => t.catchUps = l ++ r ∧
      t.stream n = { x with gen := (s.stream n).gen, startTide := (if x.catching then s.tide else x.startTide), waitSince := some s.tide } ∧
      (∀ m, m ≠ n → t.stream m = s.stream m) ∧ t = { s with streams := t.streams, catchUps := t.catchUps }) ∧
    (∀ (j : Job) (u : UnitRun), c.stream = none → s.job c.job = some j → j.units.find? (fun v => v.no == c.unit) = some u →
      exec (.catchupStreamStart v) s = .next ({ s with catchUps := l ++ r }.loadStream n j u
        { task := c.task, owner := c.owner, bind := c.bind, catching := true, tile := c.tile }))) ∧
  (∀ (s : State) (n : Nat) (chain : List (Nat × Nat × Nat)), Live s → n ≠ 4095 →
    let x := s.stream n
    let me := (s.me, n, x.startTide)
    let v := stevedoreOf n
    (x.st = .reserving → chain.head? = some me → (∀ z ∈ chain, z ≠ me → younger me z = true) → x.aborts < 3 →
      Runs (.mutualWaitProbe n chain) s fun t =>
        (∃ l, t.stream n = { x with
          st := .aborted, aborts := x.aborts + 1, pos := x.posOf x.slowest, tileAt := x.posOf x.slowest, units := [], wait := .none, pools := [],
          asked := false, remote := false, waitSince := none, ended := false, left := l } ∧ ∀ e ∈ l, e ∈ x.left) ∧
        (∀ m, m ≠ n → t.stream m = s.stream m) ∧ t.get STV_ABORTS_COUNT v = min (s.get STV_ABORTS_COUNT v + 1) (2 ^ 32 - 1) ∧
        t.out = s.out ++ (if (x.remote = true ∨ x.asked = true) ∧ (s.peer x.device).frozen = false
          then [.net x.device (classVc x.cls) (.reserveRelease s.me n)] else []) ∧
        KeepsFieldsBut s t [STV_TAGS_IN_USE.key v, STV_ABORTS_COUNT.key v] ∧ t = { s with flds := t.flds, streams := t.streams, out := t.out }) ∧
    (chain.head? = some me → (∃ z ∈ chain, younger z me = true) → exec (.mutualWaitProbe n chain) s = .next s) ∧
    (x.st = .reserving → me ∉ chain →
      (s.waitsFor n = some none → (s.peer x.device).frozen = false →
        exec (.mutualWaitProbe n chain) s = .next { s with out := s.out ++ [.net x.device 1 (.waitProbe 4095 (chain ++ [me]))] }) ∧
      (∀ p : Nat, s.waitsFor n = some (some p) → (∀ h ∈ s.holders p, h.1 ≠ s.me ∧ (s.peer h.1).frozen = false) →
        exec (.mutualWaitProbe n chain) s = .next
          { s with out := s.out ++ (s.holders p).map fun h => .net h.1 1 (.waitProbe h.2 (chain ++ [me])) })))

/-- Tags and landing (R204, R206, R209, R211 to R213): a free tag goes to the read that arbitration chooses, the one that runs dry first among
those with a dry instant, the oldest bulk one after fifteen grants to others or when nothing else waits; data lands in its unit once its arbiters
serve it, and frees the tag, and for a remote destination the write units that it completes go out. -/
def Obligations.TagsAreGrantedAndDataLands : Prop :=
  (∀ (s : State) (v now c : Nat) (r : Request) (u : SUnit), Live s → s.stevedoreOk v = true → s.get STV_TAGS_IN_USE v < 1024 →
    choose (Tab.get (fun _ => 0) s.bulk v) (s.readers v now) = some (r, c) → (s.stream r.stream).unitAt r.seq = some u →
    let n := r.stream
    let x := s.stream n
    Runs (.tagGrant ⟨v, now⟩) s fun t => t.stream n = x.setUnit r.seq (fun w => { w with st := .inFlight, dry := r.dry }) ∧
      (∀ m, m ≠ n → t.stream m = s.stream m) ∧ t.get STV_TAGS_IN_USE v = s.get STV_TAGS_IN_USE v + 1 ∧ Tab.get (fun _ => 0) t.bulk v = c ∧
      (256 ≤ u.len → t.get STV_SHORT_UNITS_COUNT v = s.get STV_SHORT_UNITS_COUNT v) ∧
      (x.srcRemote = true → (s.peer x.device).frozen = false →
        t.out = s.out ++ [.net x.device (classVc x.cls) (.readRequest n u.seq u.src u.len r.dry.1 r.dry.2 x.cls x.rank)]) ∧
      (x.srcRemote = false → t.out = s.out) ∧
      KeepsFieldsBut s t [STV_TAGS_IN_USE.key v, STV_TAGS_PEAK.key v, STV_SHORT_UNITS_COUNT.key v] ∧
      t = { s with flds := t.flds, streams := t.streams, bulk := t.bulk, out := t.out }) ∧
  (∀ (c : Nat) (rs : List Request) (e : Request), e ∈ rs →
    (e.bulk = false → (∀ f ∈ rs, f ≠ e → f.bulk = false → e.before f = true ∧ f.before e = false) →
      (c < 15 → choose c rs = some (e, if rs.all (fun f => !f.bulk) then 0 else c + 1)) ∧
      ((∀ f ∈ rs, f.bulk = false) → choose c rs = some (e, 0))) ∧
    (e.bulk = true → (∀ f ∈ rs, f ≠ e → f.bulk = true → e.seq < f.seq) → (15 ≤ c ∨ ∀ f ∈ rs, f.bulk = true) → choose c rs = some (e, 0))) ∧
  (∀ (s s0 s1 : State) (n i : Nat) (u : SUnit) (data bs : List Byte), Live s → (s.stream n).unitAt i = some u → u.st = .inFlight →
    (if (s.stream n).srcRemote then data.length = u.len ∧ (s.peer (s.stream n).device).frozen = false ∧ bs = data ∧ s1 = s
      else (s.stream n).load = none ∧ s.serveUnit n (s.stream n) u = some s0 ∧ s0.read (s0.streamReq (s.stream n)) u.src u.len = .ok (bs, s1)) →
    let x := s.stream n
    Runs (.readDataLands n i data) s fun t =>
      t.stream n = (s1.stream n).setUnit u.seq (fun w => { w with st := .landed, data := bs }) ∧ (∀ m, m ≠ n → t.stream m = s1.stream m) ∧
      t.get STV_TAGS_IN_USE (stevedoreOf n) = (s1.get STV_TAGS_IN_USE (stevedoreOf n) - 1) % 2 ^ 11 ∧
      KeepsFieldsBut s1 t [STV_TAGS_IN_USE.key (stevedoreOf n), STV_SHORT_UNITS_COUNT.key (stevedoreOf n)] ∧
      (x.dstKind = 2 → (s1.peer x.device).frozen = false → s1.stream n = x → x.units.filter (fun w => w.xfer == u.xfer) = [u] →
        t.out = s1.out ++ (piecesOf u.dst u.len).map fun p => .net x.device (classVc x.cls)
          (.writeUnit n u.seq p.1 u.dry.1 u.dry.2 x.cls x.rank (((bs.take u.len).drop (p.1 - u.dst)).take p.2))) ∧
      (s1.stream n = x → (∃ w ∈ x.units, w.xfer = u.xfer ∧ w.seq < u.seq ∧ w.st ≠ .landed) → t.out = s1.out) ∧
      (x.dstKind ≠ 2 → s1.stream n = x → t.out = s1.out) ∧ t = { s1 with flds := t.flds, streams := t.streams, out := t.out })


/-- Accepting tiles (R112, R201 to R203, R209): the landed units of a receiver's next tile are written in order, each at its destination and nothing
else, and the tile is accepted with its last; a unit of a later tile, one that has not landed, and one whose slot is taken stop the
writing. A slot that the cursor has left becomes ready, and rouses a task all of whose awaited slots are ready (R167). -/
def Obligations.TilesAreAcceptedInOrder : Prop :=
  (∀ (s : State) (n i : Nat) (r : Rcv) (u : SUnit) (rest : List SUnit), Live s → (s.stream n).mayRead = true →
    (s.stream n).rcv[i]? = some r → r.attached = true → (s.stream n).units.filter (fun w => r.needs w) = u :: rest →
    let x := s.stream n
    let w := x.writeRange u
    let after := fun t : State => ((t.detachSlow n).endBounded n).loadOn n
    (x.grace ≠ 0 → x.st ≠ .halted → x.load = none → after s = s) ∧
    (u.st ≠ .landed ∨ u.tile ≠ r.accepted → exec (.tileAccept n i) s = .next (after s)) ∧
    (x.dstKind = 0 → (∃ k ∈ slotsIn w.1 w.2, s.slotTaken x r u.seq k = true) → exec (.tileAccept n i) s = .next (after s)) ∧
    (u.st = .landed → u.tile = r.accepted → (x.writeData u).length = w.2 → 0 < w.2 → s.veiled = [] → s.ecc = [] →
      (if x.dstKind = 0 then ∀ k ∈ slotsIn w.1 w.2, s.slotTaken x r u.seq k = false
        else x.dstKind = 1 ∧ x.load = none ∧ w.1 % 256 + w.2 ≤ 256 ∧ w.1 + w.2 ≤ 2 ^ 47 ∧
          s.locate (s.streamReq x) true w.1 = .ok (.dev w.1 .normal)) →
      Runs (.tileAccept n i) s fun t => ∃ one : State, t = after (one.writeTile n i rest) ∧
        (∀ k, k < w.2 → memAt one (x.target r w.1 + k) = (x.writeData u).getD k 0) ∧ KeepsMemBut s one (x.target r w.1) w.2 ∧
        (one.stream n).rcv = x.rcv.set i (r.wroteUnit x u) ∧ (∀ m, m ≠ n → one.stream m = s.stream m) ∧
        (x.dstKind = 0 → ∀ p ∈ piecesOf (x.target r w.1) w.2, Tab.find (p.1 / 256) one.tags = some (u.tile % 256) ∧
          ∃ f, Tab.find (p.1 / 256) one.origins = some ⟨x.job, x.unit, x.owner, x.bind, f, u.tile⟩) ∧
        (x.dstKind ≠ 0 → one.tags = s.tags ∧ one.origins = s.origins) ∧ KeepsFieldsBut s one [STV_SHORT_UNITS_COUNT.key (stevedoreOf n)] ∧
        one = { s with flds := one.flds, mem := one.mem, ecc := one.ecc, hot := one.hot, tags := one.tags, origins := one.origins,
                       streams := one.streams }) ∧
    (∀ w : State, u.st = .landed → u.tile = r.accepted → x.dstKind ≠ 0 → s.writeUnit x r u = .ok w → w.stream n = x →
      Runs (.tileAccept n i) s fun t => ∃ one : State, t = after (one.writeTile n i rest) ∧
        one = { w with flds := one.flds, streams := one.streams } ∧ (x.dstKind = 2 → w = s ∧ one.flds = s.flds) ∧
        (one.stream n).rcv = x.rcv.set i (r.wroteUnit x u) ∧ ∀ m, m ≠ n → one.stream m = w.stream m)) ∧
  (∀ (x : Machine.Stream) (r : Rcv) (u : SUnit), (r.wroteUnit x u).next = u.seq + 1 ∧
    (r.wroteUnit x u).accepted = (if u.last then u.tile + 1 else r.accepted) ∧ (r.wroteUnit x u).attached = r.attached ∧
    ∀ k, x.dstKind = 0 → k ∈ slotsIn (x.writeRange u).1 (x.writeRange u).2 → (k, u.seq) ∈ (r.wroteUnit x u).wrote) ∧
  (∀ (s : State) (n i k : Nat) (r : Rcv), Live s → (s.stream n).dstKind = 0 → (s.stream n).rcv[i]? = some r → r.attached = true →
    (s.stream n).slotDone r k = true →
    let c := s.ctx r.kiln r.slot
    Runs (.readyBitSet n i k) s fun t => t.isReady r.kiln r.half (r.base + k) = true ∧
      (∀ kiln half slot, readyKey kiln half slot ≠ readyKey r.kiln r.half (r.base + k) → t.isReady kiln half slot = s.isReady kiln half slot) ∧
      t.ctx r.kiln r.slot = (if c.st = .waitTile ∧ ∀ i ∈ c.late, i ∈ c.hearth ∨ t.isReady r.kiln c.half (c.base + i) = true
        then { c with st := .ready, late := [] } else c) ∧
      (∀ m, m ≠ n → t.stream m = s.stream m) ∧ t = { s with streams := t.streams, ready := t.ready, ctxs := t.ctxs })

/-- Halts and resumes (R97, R116, R220 to R224, R476, R477, R647): a stream whose access is refused halts with its reason at that unit, discards
that unit and the later ones, raises its generation and writes its record, and the tasks that wait for its tiles halt; with BOUNDS its job ends
once what came before is written; a resume word with the right generation sends a stream or a kiln task on, a task with the streams of its
failing group started again; any other word is counted and ignored. -/
def Obligations.StreamsAndTasksHaltAndResume : Prop :=
  (∀ (s : State) (n i reason : Nat) (u : SUnit) (e : AccErr), Live s → (s.stream n).mayRead = true → (s.stream n).unitAt i = some u →
    (s.stream n).load = none → s.unitErr (s.stream n) u = some e → e.reason = some reason →
    let x := s.stream n
    let gone := (x.units.filter fun w => decide (u.seq ≤ w.seq) && w.st == .inFlight).length
    let g := (x.gen + 1) % 2 ^ 16
    let halted := s.freeTags n gone |>.putStream n
      { x with
        st := .halted, reason := reason, gen := g, pos := u.pos, wait := .none, ended := false,
        units := x.units.filter fun w => decide (w.seq < u.seq), left := x.left.filter fun l => decide (l.2 ≤ u.seq) }
    let posted := (halted.postEvent (halted.eventHeader 0x01 0 (s.job x.job) s.stampTide ++
      streamFaultBytes n g reason (if u.st = .inFlight then u.src else (x.writeRange u).1) u.pos)).traceJob 4 (s.job x.job) n
    (reason ≠ 3 → (∀ r ∈ x.rcv, (s.ctx r.kiln r.slot).st ≠ .waitTile) → exec (.streamFault n i reason) s = .next posted) ∧
    (reason ≠ 3 → (∀ q ∈ x.rcv, q.slot < 4) → Runs (.streamFault n i reason) s fun t =>
      ∀ r ∈ x.rcv, r.attached = true → (s.ctx r.kiln r.slot).st = .waitTile →
        posted.fedByHalted r.kiln r.slot (s.ctx r.kiln r.slot).late = true →
        (t.ctx r.kiln r.slot).st = .halted ∧ (t.ctx r.kiln r.slot).reason = 4) ∧
    (∀ j : Job, reason = 3 → s.job x.job = some j → (∀ w ∈ x.units, w.seq < u.seq → ∀ q ∈ x.rcv, q.needs w = false) →
      Runs (.streamFault n i 3) s fun t => ∀ y ∈ t.jobs, y.id ≠ j.id)) ∧
  (∀ (s : State) (n g : Nat), HostUp s → n < 2048 → g < 2 ^ 16 →
    let word := n + 2 ^ 16 * g
    let x := s.stream n
    (x.st = .halted → x.gen = g → x.reason ≠ 3 → x.fresh = false → x.code ≠ [] → Runs (.resumeStream word) s fun t =>
      t.stream n = { x with st := .running, reason := 0 } ∧ (∀ m, m ≠ n → t.stream m = s.stream m) ∧
      (∀ r ∈ x.rcv, r.attached = true → (s.ctx r.kiln r.slot).st = .halted → (s.ctx r.kiln r.slot).reason = 4 →
        r.slot < 4 → (∀ q ∈ x.rcv, q.slot < 4) → (t.ctx r.kiln r.slot).st = .ready) ∧
      t = { s with streams := t.streams, ctxs := t.ctxs }) ∧
    (x.st = .halted → x.gen = g → x.reason ≠ 3 → x.fresh = true → exec (.resumeStream word) s = .next (s.reload n)) ∧
    (x.st = .halted → x.gen = g → x.reason ≠ 3 → x.fresh = false → x.code = [] → exec (.resumeStream word) s = .next (s.resumeCopy n)) ∧
    (x.st ≠ .halted ∨ x.gen ≠ g ∨ x.reason = 3 →
      exec (.resumeStream word) s = .next (s.inc STV_RESUME_IGNORED_COUNT (stevedoreOf n) 1))) ∧
  (∀ (s : State) (k c reserved g : Nat), HostUp s → k < 256 → c < 4 → reserved < 32 → g < 2 ^ 16 →
    let x := s.ctx k c
    (∀ l : LayerCmd, reserved = 0 → x.st = .halted → x.reason = 1 ∨ x.reason = 2 → x.gen = g → layerOf x.cmd = some l →
      let tiles := s.groupTiles k x l
      Runs (.resumeKilnTask (4 * k + c) reserved g) s fun t =>
        t.ctx k c = { x with st := .ready, reason := 0 } ∧ (∀ d, d ≠ 4 * k + c → Tab.find d t.ctxs = Tab.find d s.ctxs) ∧
        t.ready = (s.clearRefilled k x tiles).ready ∧
        (∀ n, (s.stream n).ownOf x.job x.unit x.task = true → (tiles.tileOf (s.stream n).owner (s.stream n).bind).isSome = true →
          (t.stream n).st = .free) ∧
        t = { s with ctxs := t.ctxs, ready := t.ready, streams := t.streams, catchUps := t.catchUps, jobs := t.jobs, flds := t.flds,
                     out := t.out }) ∧
    (reserved ≠ 0 ∨ x.st ≠ .halted ∨ ¬ (x.reason = 1 ∨ x.reason = 2) ∨ x.gen ≠ g →
      exec (.resumeKilnTask (4 * k + c) reserved g) s = .next (s.inc HST_DB_STATUS_RESUME_IGNORED 0 1)))

/-- Commands of a task that move bytes or wait (R162, R163, R178 to R183): SWAP exchanges the halves and clears the ready bits of the mooring in the half that
becomes the loading one; ARRIVE sets one bit of a barrier word and CLEARBAR clears those of its mask, through the alias views, and no other byte
changes; WAITBAR goes on when every bit of its mask is set and waits otherwise, reading again on WAITBAR_REREAD; LOADPIN loads its columns of
the pin buffer and the pin record. Each then goes on to the next command. -/
def Obligations.TaskCommandsHaveTheirEffect : Prop :=
  (∀ (s u : State) (k c v : Nat), AtCommand s k c 0x03 32 v u → v < 2 ^ 24 → (s.ctx k c).rows = [] →
    let x := s.ctx k c
    Runs (.swap k c) s fun t => t.ctx k c = cmdDone { x with half := !x.half, hearth := [] } 32 ∧
      (∀ i, i < x.slots → t.isReady k x.half (x.base + i) = false) ∧ (∀ n, (∀ i, i < x.slots → n ≠ readyKey k x.half (x.base + i)) →
        Tab.find n t.ready = Tab.find n s.ready) ∧
      (∀ d, d ≠ 4 * k + c → Tab.find d t.ctxs = Tab.find d s.ctxs) ∧ t = { u with ctxs := t.ctxs, ready := t.ready }) ∧
  (∀ (s u : State) (k c op v a : Nat), (op = 0x04 ∨ op = 0x06) → AtCommand s k c op 32 v u →
    (if op = 0x04 then v = v % 2 ^ 24 + 2 ^ 24 * (bits v 24 6) + 2 ^ 32 * a ∧ (s.ctx k c).rows = []
      else v = v % 2 ^ 24 + 2 ^ 32 * a + 2 ^ 128 * bits v 128 64) →
    a % 8 = 0 → whsBase ≤ a → a < whsBase + whsBytes → s.veiled = [] → Tab.find (a / 8) u.ecc = none →
    let x := s.ctx k c
    let (d, w) := wayOf (a - whsBase)
    s.wayStopped d w = false → s.wayUse d w = 0 → s.wayClasses d w ≠ 0 → (s.taskReq x).mayWrite (s.wayClasses d w) = true →
    (s.taskReq x).debug = false →
    Runs (if op = 0x04 then .arrive k c else .clearbar k c) s fun t => t.ctx k c = cmdDone x 32 ∧ KeepsMemBut s t a 8 ∧
      (∀ i, i < 8 → memAt t (a + i) = (if op = 0x04 then memAt s (a + i) ||| (leBytes 8 (2 ^ bits v 24 6)).getD i 0
        else memAt s (a + i) &&& ~~~ (leBytes 8 (bits v 128 64)).getD i 0)) ∧
      (∀ d, d ≠ 4 * k + c → Tab.find d t.ctxs = Tab.find d s.ctxs) ∧ t = { u with ctxs := t.ctxs, mem := t.mem, ecc := t.ecc }) ∧
  (∀ (s u t' : State) (k c v a : Nat) (bs : List Byte),
    let x := s.ctx k c
    let r : State := if x.st = .waitBar then s.putCtx k c { x with st := .ready } else s
    AtCommand r k c 0x05 32 v u → v = v % 2 ^ 24 + 2 ^ 32 * a + 2 ^ 128 * bits v 128 64 → u.barrierOk a = true →
    u.read (s.taskReq x) a 8 = .ok (bs, t') →
    Runs (if x.st = .waitBar then .waitbarReread k c else .waitbar k c) s fun t =>
      (leNat bs &&& bits v 128 64 = bits v 128 64 → t.ctx k c = cmdDone x 32) ∧
      (leNat bs &&& bits v 128 64 ≠ bits v 128 64 → t.ctx k c = { x with st := .waitBar }) ∧
      (∀ d, d ≠ 4 * k + c → Tab.find d t.ctxs = Tab.find d s.ctxs) ∧ t = { t' with ctxs := t.ctxs }) ∧
  (∀ (s u t' : State) (k c v : Nat) (bs : List Byte), AtCommand s k c 0x02 32 v u →
    onlyBits v [(0, 24), (32, 12), (44, 12), (56, 16), (72, 2), (128, 40)] = true → bits v 72 2 ≠ 3 → bits v 44 12 + bits v 32 12 < 4096 →
    let x := s.ctx k c
    let n := bits v 32 12 + 1
    u.read (s.taskReq x) (256 * bits v 128 40) (4 * n) = .ok (bs, t') → x.replay = none →
    Runs (.loadpin k c) s fun t => t.ctx k c = { cmdDone x 32 with
        pins := (t.ctx k c).pins, pinRec := some (bits v 56 16, bits v 72 2), pinWriter := some x.pc, pinUsed := [] } ∧
      (∀ i, i < n → Tab.find (bits v 44 12 + i) (t.ctx k c).pins = some (fieldOf bs (4 * i) 4)) ∧
      (∀ m, (m < bits v 44 12 ∨ bits v 44 12 + n ≤ m) → Tab.find m (t.ctx k c).pins = Tab.find m x.pins) ∧
      (∀ d, d ≠ 4 * k + c → Tab.find d t.ctxs = Tab.find d s.ctxs) ∧ t = { t' with ctxs := t.ctxs })

/-- The lookup path (R85 to R88, R165, R168 to R171), the watermark (R135, R137, R155) and the end of a task (R142): a bank exchange gives the charged bank
to the fabric and an empty one to the charger, and counts the waits; an engine leaves a waiting task for the next ready one, unless its
command may not be switched, and the path then discards the table store; an acknowledged row is counted in its job and raises the
watermark, unless a lower row of its LAYER is outstanding; a task whose writes are all acknowledged leaves its slot. -/
def Obligations.PathWatermarkAndTaskEnd : Prop :=
  (∀ (s : State) (k a b : Nat), Live s → k < s.kilnCount → s.kilnFenced k = false → a = 0 ∨ b = 0 →
    let q := s.kiln k
    (q.exchange.active = q.idle ∧ q.exchange.idle = [] ∧ q.exchange.bank = !q.bank ∧ q.exchange.path = q.path) ∧
    (s.exchanges k = none → exec (.bankExchange k a b) s = .next s) ∧
    (∀ (c : Nat) (l : LayerCmd), s.exchanges k = some (c, l) →
      exec (.bankExchange k a b) s = .next
        ((((s.putKiln k q.exchange).inc KLN_CHARGE_WAIT_CYCLES k a).inc KLN_LOOKUP_WAIT_CYCLES k b).runLayer k c l l.fuel))) ∧
  (∀ (s : State) (k n c d : Nat), Live s → k < s.kilnCount → s.kilnFenced k = false → s.starved k = true →
    let q := s.kiln k
    let counted := fun t : State => t.get KLN_STARVE_CYCLES k = min (s.get KLN_STARVE_CYCLES k + n) (2 ^ 64 - 1) ∧
      t.get KLN_SWITCHES_COUNT k = min (s.get KLN_SWITCHES_COUNT k + 1) (2 ^ KLN_SWITCHES_COUNT.width - 1) ∧
      KeepsFieldsBut s t [KLN_STARVE_CYCLES.key k, KLN_SWITCHES_COUNT.key k] ∧ (∀ m, m ≠ k → t.kiln m = s.kiln m) ∧
      t = { s with flds := t.flds, kilns := t.kilns }
    (q.path = some c → (s.ctx k c).st = .waitTile → (s.ctx k c).noswitch = false → s.nextOn k 0x01 = some d →
      s.switchTo k 0x10 q.mul = none → s.switchTo k 0x11 q.vec = none →
      Runs (.taskSwitch k n) s fun t => t.kiln k = { q with path := some d, store0 := [], store1 := [], firstBank := true } ∧ counted t) ∧
    (q.mul = some c → (s.ctx k c).st = .waitTile → (s.ctx k c).noswitch = false → s.nextOn k 0x10 = some d →
      s.switchTo k 0x01 q.path = none → s.switchTo k 0x11 q.vec = none →
      Runs (.taskSwitch k n) s fun t => t.kiln k = { q with mul := some d } ∧ counted t) ∧
    (q.vec = some c → (s.ctx k c).st = .waitTile → (s.ctx k c).noswitch = false → s.nextOn k 0x11 = some d →
      s.switchTo k 0x01 q.path = none → s.switchTo k 0x10 q.mul = none →
      Runs (.taskSwitch k n) s fun t => t.kiln k = { q with vec := some d } ∧ counted t) ∧
    ((∀ e, (q.path = some e ∨ q.mul = some e ∨ q.vec = some e) → (s.ctx k e).noswitch = true) →
      exec (.taskSwitch k n) s = .next (s.inc KLN_STARVE_CYCLES k n))) ∧
  (∀ (s : State) (k c : Nat) (r : RowOut) (rest : List RowOut) (j : Job), Live s → (s.ctx k c).rows = r :: rest → r.acked = false →
    r.page = none → (∀ q ∈ rest, q.acked = false) → (s.ctx k c).countedRow r = false → s.job (s.ctx k c).job = some j →
    let x := s.ctx k c
    Runs (.rowWatermarkAdvance k c ⟨r.layer, r.row⟩) s fun t =>
      t.ctx k c = { x with
        rows := rest, clip := x.clip + r.clips.length, total := x.total + r.outs,
        watermark := if x.begun = true ∧ x.pc = r.layer then r.row + 1 else x.watermark } ∧
      t.jobs = s.jobs.map (fun y => if y.id == j.id then
        { j with clip := min (j.clip + r.clips.length) 0xFFFFFFFF, total := min (j.total + r.outs) 0xFFFFFFFF } else y) ∧
      (∀ d, d ≠ 4 * k + c → Tab.find d t.ctxs = Tab.find d s.ctxs) ∧ t = { s with ctxs := t.ctxs, jobs := t.jobs }) ∧
  (∀ (s : State) (k c : Nat) (r q : RowOut), Live s → (s.ctx k c).rows = [r, q] → r.acked = false → q.acked = false → r.layer = q.layer →
    r.row ≠ q.row →
    Runs (.rowWatermarkAdvance k c ⟨q.layer, q.row⟩) s fun t => t.ctx k c = { s.ctx k c with rows := [r, { q with acked := true }] } ∧
      (∀ d, d ≠ 4 * k + c → Tab.find d t.ctxs = Tab.find d s.ctxs) ∧ t = { s with ctxs := t.ctxs }) ∧
  (∀ (s u : State) (k c v : Nat) (j : Job) (w : UnitRun), AtCommand s k c 0x3F 32 v u → v < 2 ^ 24 → (s.ctx k c).rows = [] →
    s.job (s.ctx k c).job = some j → (∀ x ∈ s.jobs, x.id = j.id → x = j) →
    let x := s.ctx k c
    j.units.find? (fun y => y.no == x.unit) = some w → (∀ y ∈ j.units, y.no = w.no → y = w) → x.task < w.tasks.length →
    Runs (.kilnEnd k c) s fun t => t.ctx k c = { gen := x.gen } ∧ (t.kiln k).path ≠ some c ∧ (t.kiln k).c4 ≠ some c ∧ (t.kiln k).mul ≠ some c ∧ (t.kiln k).vec ≠ some c ∧
      (∀ d, d ≠ 4 * k + c → Tab.find d t.ctxs = Tab.find d s.ctxs) ∧ t.mem = u.mem ∧
      ∃ i, t.job j.id = some i ∧ ∃ y, i.units.find? (fun z => z.no == x.unit) = some y ∧ y.tasks = w.tasks.set x.task .ended)

/-- LAYER, one weight tile of a group of a row (R62, R84, R85, R88, R113, R114, R121, R123, R150, R157, R165, R222): when every slot it needs is ready, no word of
them is in error, every comparison of the check holds and the codebook is finite, and the fabric's bank holds the group's tables, each
column's contribution is formed by the group rescale, and with the last tile of the group all of them enter; the first comparison that fails halts
the task with SCALE_SLIP and fills `KLN_SLIP_LAST`, a codebook that is not finite halts it with CODEBOOK_NONFINITE (2), and late data makes the
task wait; where the tables are not in the fabric's bank the charger charges, and the first bank of a LAYER is exchanged at once. -/
def Obligations.LayerAddsItsGroups : Prop :=
  (∀ (s : State) (k c fuel : Nat) (l : LayerCmd),
    let x := s.ctx k c
    let o := x.origin k
    let t := l.firstTile x.group + x.strip
    let u := if x.group = l.pinned ∧ x.strip = 0 then s.putCtx k c { x with acc := l.startRow x x.row } else s
    let late := s.notReady k x (l.needs x.row x.group x.strip)
    x.row < l.rows → x.group < l.groups → x.dbgReq = 0 →
    (late ≠ [] → u.fedByHalted k c late = false →
      s.runLayer k c l (fuel + 1) = u.setCtx k c fun y => { y with st := .waitTile, late := late }) ∧
    (late ≠ [] → u.fedByHalted k c late = true → s.runLayer k c l (fuel + 1) = u.haltTask k c 4) ∧
    (∀ e : MemErr, late = [] → u.touch (l.reads o x.row x.group x.strip) = .error e →
      s.runLayer k c l (fuel + 1) = u.memError e (some x.job)) ∧
    (∀ w : State, late = [] → u.touch (l.reads o x.row x.group x.strip) = .ok w →
      (∀ p : Slip, w.slipOf l o x.group t = some p → s.runLayer k c l (fuel + 1) = w.slipHalt k c p) ∧
      (w.slipOf l o x.group t = none → w.badCodebook l o t = true → s.runLayer k c l (fuel + 1) = (w.regroup k c).haltTask k c 2) ∧
      (w.slipOf l o x.group t = none → w.badCodebook l o t = false →
        (∀ g : LutGroup, (w.kiln k).active.find? (fun g => g.unit == l.unitAt x) = some g →
          s.runLayer k c l (fuel + 1) = (w.addTile k c l g).runLayer k c l fuel) ∧
        ((w.kiln k).active.find? (fun g => g.unit == l.unitAt x) = none →
          let charged := w.chargeIdle k c l 1024
          s.runLayer k c l (fuel + 1) = if (w.kiln k).firstBank = true
            then (charged.putKiln k (charged.kiln k).exchange).runLayer k c l fuel else charged)))) ∧
  (∀ (s : State) (k c : Nat) (l : LayerCmd) (g : LutGroup),
    let x := s.ctx k c
    let o := x.origin k
    let t := s.addTile k c l g
    let tile := l.firstTile x.group + x.strip
    let value := fun n : Nat =>
      let sc := s.columnScale l (l.scaleAddr o tile) (n % l.wf.stripCols)
      groupRescale sc.1 (s.num (l.blockAddr o x.group + 16 + 4 * (x.group % 48)) 4) g.exp sc.2
        (s.product l o tile (n % l.wf.stripCols) g).1 g.sum (Tab.get (fun _ => 0) x.acc (l.accKey x.row n))
    t.mem = s.mem ∧ (∀ d, d ≠ 4 * k + c → Tab.find d t.ctxs = Tab.find d s.ctxs) ∧ t = { s with flds := t.flds, ctxs := t.ctxs } ∧
    KeepsFieldsBut s t [KLN_T3_RESERVED_CODES_COUNT.key k] ∧
    (x.strip + 1 < l.strips → t.ctx k c = { x with
      strip := x.strip + 1, used := (t.ctx k c).used,
      staged := x.staged ++ (l.columns x.strip).map fun n => (l.accKey x.row n, value n) }) ∧
    (l.strips ≤ x.strip + 1 → t.ctx k c = { x with
        strip := 0, staged := [], group := x.group + 1, acc := (t.ctx k c).acc, used := (t.ctx k c).used } ∧
      ∀ n ∈ l.columns x.strip, Tab.get (fun _ => 0) (t.ctx k c).acc (l.accKey x.row n) = value n)) ∧
  (∀ (s : State) (k c : Nat) (p : Slip),
    let t := s.slipHalt k c p
    (t.ctx k c).st = .halted ∧ (t.ctx k c).reason = 1 ∧ (t.ctx k c).gen = ((s.ctx k c).gen + 1) % 2 ^ 16 ∧
    (t.ctx k c).row = (s.ctx k c).row ∧ (t.ctx k c).group = (s.ctx k c).group ∧ (t.ctx k c).acc = (s.ctx k c).acc ∧
    (t.ctx k c).strip = 0 ∧ (t.ctx k c).staged = [] ∧
    t.get KLN_SLIP_LAST_EXPECTED k = p.1 % 256 ∧ t.get KLN_SLIP_LAST_FOUND k = p.2.1 % 256 ∧ t.get KLN_SLIP_LAST_SOURCE k = p.2.2 % 4 ∧
    t.get KLN_SLIP_LAST_VALID k = 1 ∧ (t.kiln k).path ≠ some c)

/-- LAYER, completing (R128, R150, R154, R155, R160, R166): a LAYER of one row and one group, from accumulators at zero, whose data are ready, writes each
column as the output stage quantises it, clears the ring slots of the row and with RELEASE its weight and scale slots, leaves the lookup path
free, keeps the row for the watermark, and goes on to the next command. One of the C4 format with several column blocks may need more than one
bank, which BANK_EXCHANGE gives. -/
def Obligations.LayerWritesItsRow : Prop :=
  ∀ (s u y w : State) (k c v : Nat) (l : LayerCmd) (f : OFmt) (tbl : List Byte), AtCommand s k c 0x01 64 v u → layerOf v = some l →
    let q := s.kiln k
    OFmt.ofCode l.ofmt = some f → (q.path = none ∧ s.nextOn k 0x01 = some c) ∨
      (q.path = some c ∧ q.store0 = [] ∧ q.store1 = [] ∧ q.firstBank = true) →
    let x := s.ctx k c
    let o := x.origin k
    x.begun = false → x.row = 0 → l.rows = 1 → l.groups = 1 → l.pinned = 0 → l.accIn = 0 → l.accOut = 0 → l.clipPage = false →
    (l.wf.isC4 = false ∨ l.strips = 1) →
    l.accOk x = true → l.placed x.slots = true → inBerthView l.out = false → inBerthView l.rescale = false →
    u.canCharge k x l (0, 0, 0) = true →
    (∀ i, i < l.strips → u.notReady k x (l.needs 0 0 i) = [] ∧ u.slipOf l o 0 i = none ∧ u.badCodebook l o i = false ∧
      ∀ p ∈ l.reads o 0 0 i, ∀ n ∈ wordsOf p.1 p.2, Tab.find n u.ecc = none) →
    let g := u.tablesOf l o (0, 0, 0) (u.chargeRow l o 0 0)
    let acc (n : Nat) :=
      let sc := s.columnScale l (l.scaleAddr o (n / l.wf.stripCols)) (n % l.wf.stripCols)
      groupRescale sc.1 (s.num (l.blockAddr o 0 + 16) 4) g.exp sc.2 (s.product l o (n / l.wf.stripCols) (n % l.wf.stripCols) g).1 g.sum 0
    let cell (n : Nat) := let r := RescaleEntry.ofBits (fieldOf tbl (16 * n) 16)
      quantise f r.zp (outputReal r (acc n))
    u.read (s.taskReq x) l.rescale (16 * l.N) = .ok (tbl, y) →
    y.write (s.taskReq x) l.out ((List.range l.N).flatMap fun n => leBytes f.bytes (cell n).code) = .ok w →
    Runs (.layer k c) s fun t => t.mem = w.mem ∧ t.host = w.host ∧ (t.ctx k c).pc = x.pc + 64 ∧ (t.ctx k c).st = .ready ∧
      (t.ctx k c).row = 0 ∧ (t.ctx k c).begun = false ∧ (t.ctx k c).half = x.half ∧ (t.ctx k c).pins = x.pins ∧
      (t.ctx k c).rows = x.rows ++
        [⟨x.pc, 0, l.N, (List.range l.N).filter fun n => (cell n).clip, none, false, u.tilesOf x (l.rowRanges o 0)⟩] ∧
      (t.kiln k).path = none ∧ (∀ i ∈ l.rowSlots 0, t.isReady k x.half (x.base + i) = false) ∧
      (l.release = true → ∀ i, i < l.wSlots → t.isReady k x.half (x.base + (l.wSlot + i)) = false) ∧
      (∀ d, d ≠ 4 * k + c → Tab.find d t.ctxs = Tab.find d s.ctxs) ∧ t.streams = s.streams ∧ t.jobs = s.jobs

/-- Hearths (R161, R171, R173 to R177): HMUL writes each element of A × B, plus the old element with ACCUM, in the format of C, and HVEC each element
that its operation gives; nothing outside the result changes, and the task goes on; a block of 64 rows whose operands are late makes the task
wait. HVEC COPY copies, a SOFTMAX row of −∞ alone gives 0, and EXP, GELU and SILU of a finite value are the exact result rounded or lie within two
units in the last place of it. An HVEC over its own source in blocks of another row size is the model's choice (log 115) and not stated. -/
def Obligations.HearthsWriteTheirResults : Prop :=
  (∀ (s u : State) (k c wait v : Nat) (h : HmulCmd), AtCommand s k c 0x10 32 v u → hmulOf v = some h →
    s.mayUse k c 0x10 (s.kiln k).mul = true →
    let x := s.ctx k c
    let o := x.origin k
    x.row = 0 → h.ok x.slots = true →
    (∀ l, u.hearthLate k x (h.ops 0) = l → l ≠ [] → u.fedByHalted k c l = false → Runs (.hmul k c wait []) s fun t =>
      (t.ctx k c).st = .waitTile ∧ (t.ctx k c).late = l ∧ (t.ctx k c).pc = x.pc ∧ (t.kiln k).mul = some c ∧ t.mem = s.mem) ∧
    ((∀ r, r < h.c.rows → u.hearthLate k x (h.ops r) = []) →
      (∀ m ∈ [h.a, h.b] ++ (if h.accum then [h.c] else []), ∀ n ∈ wordsOf (o + m.off) m.bytes, Tab.find n u.ecc = none) → s.veiled = [] →
      let cell (r j : Nat) := h.c.fmt.store (if h.accum then add32 (s.elem o h.c r j) (s.hmulCell o h r j) else s.hmulCell o h r j)
      Runs (.hmul k c wait []) s fun t => KeepsMemBut s t (o + h.c.off) h.c.bytes ∧
        (∀ r j i, r < h.c.rows → j < h.c.cols → i < h.c.fmt.bytes →
          memAt t (o + h.c.at' r j + i) = (leBytes h.c.fmt.bytes (cell r j).1).getD i 0) ∧
        t.ctx k c = { cmdDone x 32 with hearth := (t.ctx k c).hearth } ∧
        (∀ i, i ∈ (t.ctx k c).hearth ↔ i ∈ x.hearth ∨ i ∈ slotsIn h.c.off h.c.bytes) ∧ (t.kiln k).mul = none ∧
        (∀ d, d ≠ 4 * k + c → Tab.find d t.ctxs = Tab.find d s.ctxs) ∧
        t = { u with mem := t.mem, ctxs := t.ctxs, flds := t.flds, kilns := t.kilns } ∧
        t.get HTH_STATUS_COLLISION k = u.get HTH_STATUS_COLLISION k)) ∧
  (∀ (s u : State) (k c v : Nat) (h : HvecCmd), AtCommand s k c 0x11 32 v u → hvecOf v = some h →
    s.mayUse k c 0x11 (s.kiln k).vec = true →
    let x := s.ctx k c
    let o := x.origin k
    x.row = 0 → h.ok x.slots = true →
    (∀ l, u.hearthLate k x (h.ops 0) = l → l ≠ [] → u.fedByHalted k c l = false → Runs (.hvec k c []) s fun t =>
      (t.ctx k c).st = .waitTile ∧ (t.ctx k c).late = l ∧ (t.ctx k c).pc = x.pc ∧ (t.kiln k).vec = some c ∧ t.mem = s.mem) ∧
    ((∀ r, r < h.src.rows → u.hearthLate k x (h.ops r) = []) →
      (∀ m ∈ h.src :: (if paramRows h.op = 0 then [] else [h.param]), ∀ n ∈ wordsOf (o + m.off) m.bytes, Tab.find n u.ecc = none) →
      s.veiled = [] → (h.dst.meets h.src = false ∨ h.dst.pitch = h.src.pitch ∨ h.src.rows ≤ 64) →
      let row (r : Nat) := (List.range h.src.cols).map fun i => s.hvecIn o h r i
      let par := (List.range h.param.cols).map fun i => s.elem o h.param 0 i
      Runs (.hvec k c []) s fun t => KeepsMemBut s t (o + h.dst.off) h.dst.bytes ∧
        (∀ r j i, r < h.dst.rows → j < h.dst.cols → i < h.dst.fmt.bytes →
          memAt t (o + h.dst.at' r j + i) = (leBytes h.dst.fmt.bytes (h.dst.fmt.store (hvecCell h (row r) par j)).1).getD i 0) ∧
        t.ctx k c = { cmdDone x 32 with hearth := (t.ctx k c).hearth } ∧
        (∀ i, i ∈ (t.ctx k c).hearth ↔ i ∈ x.hearth ∨ i ∈ slotsIn h.dst.off h.dst.bytes) ∧ (t.kiln k).vec = none ∧
        (∀ d, d ≠ 4 * k + c → Tab.find d t.ctxs = Tab.find d s.ctxs) ∧
        t = { u with mem := t.mem, ctxs := t.ctxs, flds := t.flds, kilns := t.kilns })) ∧
  (∀ (h : HvecCmd) (row par : List Nat) (c : Nat), (h.op = 0 → hvecCell h row par c = row.getD c 0) ∧
    (h.op = 3 → row ≠ [] → (∀ v ∈ row, v = 0xFF800000) → hvecCell h row par c = 0) ∧
    ((h.op = 2 ∨ h.op = 6 ∨ h.op = 7) → (f32 (row.getD c 0)).isFinite = true →
      let exact := exactFn h.op (row.getD c 0)
      hvecCell h row par c = ofFx exact ∨ (toFx (hvecCell h row par c) - exact).natAbs ≤ (2 * ulpFx exact).natAbs))

/-- Dispatch and kiln faults (R25, R144, R184, R264, R391, R418, R419, R422, R423): while no unit of earlier rank is ready to be dispatched, a ready unit of one task goes to the kiln that placement chooses, READY
at its program with its mooring's ready bits clear, and a placement away from the hinted die is counted; a kiln fault, and a READY task whose
data is ready without progress, fences the kiln and halts its tasks with KILN_FAULT (6); a command with NOSWITCH that overruns freezes its
task. -/
def Obligations.UnitsDispatchAndKilnsFail : Prop :=
  (∀ (s : State) (job no k c b : Nat) (j : Job) (u : UnitRun), Live s → s.get HMR_TIDE_STATUS_RUNNING 0 ≠ 0 → s.job job = some j →
    j.units.find? (fun v => v.no == no) = some u → s.modelWhole j.model = true →
    u.dispatched = true ∨ (u.kind ≠ 2 ∧ j.unitReady u = true) → u.tasks = [.waiting] →
    (∀ i ∈ s.jobs, ∀ v ∈ i.units, s.mayDispatch i v = true → rankBefore (i.unitRank v.no) (j.unitRank no) = false) →
    s.chooseKiln (s.hintOf j) u.mooring (j.unitRank no) = some k → s.emptySlot k = some c → s.mooringFor k u.mooring = some b →
    Runs (.unitDispatch job no) s fun t =>
      t.ctx k c = {
        st := .ready, job := j.id, unit := no, task := 0, prog := modelBase + u.program, pc := modelBase + u.program, base := b,
        slots := u.mooring, rank := j.unitRank no, gen := (s.ctx k c).gen } ∧
      (∀ d, d ≠ 4 * k + c → Tab.find d t.ctxs = Tab.find d s.ctxs) ∧
      (∀ i half, i < u.mooring → t.isReady k half (b + i) = false) ∧
      (∃ i, t.job j.id = some i ∧ ∃ v, i.units.find? (fun w => w.no == no) = some v ∧ v.dispatched = true ∧ v.tasks = [.placed k c]) ∧
      (∀ d, s.hintOf j = some d → t.get HMR_LOCALITY_OVERRIDES_COUNT 0 = if s.kilnDie k = d then s.get HMR_LOCALITY_OVERRIDES_COUNT 0
        else min (s.get HMR_LOCALITY_OVERRIDES_COUNT 0 + 1) (2 ^ HMR_LOCALITY_OVERRIDES_COUNT.width - 1)) ∧
      (u.dispatched = false → j.cls = 1 → t.counts.hearthC1 = s.counts.hearthC1 + u.hearthCost) ∧
      KeepsFieldsBut s t [HMR_LOCALITY_OVERRIDES_COUNT.key 0] ∧
      t = { s with ctxs := t.ctxs, ready := t.ready, jobs := t.jobs, counts := t.counts, out := t.out, flds := t.flds }) ∧
  (∀ (s : State) (k source : Nat), Live s → k < s.kilnCount → s.kilnFenced k = false → 1 ≤ source → source ≤ 5 →
    let after (src : Nat) (t : State) := t.get KLN_FAULT_FENCED k = 1 ∧ t.get KLN_FAULT_SOURCE k = src ∧ t.halted = false ∧
      (t.kiln k).path = none ∧ (t.kiln k).c4 = none ∧ (t.kiln k).mul = none ∧ (t.kiln k).vec = none ∧
      (∀ c, c < 4 → (s.ctx k c).st ≠ .empty → (s.ctx k c).st ≠ .frozen → (t.ctx k c).st = .halted ∧ (t.ctx k c).reason = 6 ∧
        (t.ctx k c).gen = ((s.ctx k c).gen + 1) % 2 ^ 16) ∧
      (∀ d, d / 4 ≠ k → Tab.find d t.ctxs = Tab.find d s.ctxs) ∧ t.jobs = s.jobs ∧ t.mem = s.mem ∧
      (s.salvor.inHand = none → s.salvor.stopped = false →
        ∃ e, t.salvor.inHand = some e ∧ e.sev = 2 ∧ e.kind = 1 ∧ e.source = src ∧ e.unit = k ∧ e.fenced = true)
    (source ≠ 5 ∨ s.stalls k = true → Runs (.kilnFault k source) s (after source)) ∧
    (s.stalls k = true → Runs (.kilnProgressTimeout k) s (after 5)) ∧
    (s.stalls k = false → exec (.kilnProgressTimeout k) s = .next s ∧ exec (.kilnFault k 5) s = .next s)) ∧
  (∀ (s : State) (k c : Nat), Live s → (s.ctx k c).noswitch = true → (s.ctx k c).st = .running ∨ (s.ctx k c).st = .waitTile ∨ (s.ctx k c).st = .ready →
    (∀ j, s.job (s.ctx k c).job = some j → Runs (.noswitchViolation k c) s fun t => ∀ y ∈ t.jobs, y.id ≠ j.id) ∧
    (s.job (s.ctx k c).job = none → Runs (.noswitchViolation k c) s fun t =>
      t.ctx k c = { s.ctx k c with st := .frozen, reason := 5, noswitch := false } ∧ (t.kiln k).path ≠ some c ∧ (t.kiln k).c4 ≠ some c ∧
      (t.kiln k).mul ≠ some c ∧ (t.kiln k).vec ≠ some c ∧
      t.get HMR_SCHED_EVENTS_FREEZES 0 = min (s.get HMR_SCHED_EVENTS_FREEZES 0 + 1) (2 ^ HMR_SCHED_EVENTS_FREEZES.width - 1) ∧
      t = { s with ctxs := t.ctxs, kilns := t.kilns, flds := t.flds }))

/-- Moving tasks (R116, R185, R187, R227, R427 to R429): a task that a kiln fault stopped restarts on another kiln at its restart point with
nothing carried over, or its job ends with KILN_FAULT (0x05) when its restart is used or no longer fits; eviction saves the latest blocked task into a free frame and frees its
slot, or is counted where no frame is free; an evicted task returns with its context at its new mooring. -/
def Obligations.TasksRestartEvictAndReturn : Prop :=
  (∀ (s : State) (job unit task kiln slot base k c : Nat) (j : Job) (u : UnitRun), Live s →
    s.job job = some j → s.slotHolding job unit task = some (k, c) → j.units.find? (fun v => v.no == unit) = some u →
    s.kilnFenced k = true ∨ ((s.ctx k c).st = .halted ∧ (s.ctx k c).reason = 6) →
    let x := s.ctx k c
    let r := x.restartAt (s.layerAt x) (s.layerAt { x with pc := x.chain.getD x.pc })
    (∀ n, s.mayRestart j k = false → exec (.taskRestart job unit task kiln slot base n) s = .next (s.endJob j 0x05 0 none)) ∧
    (s.mayRestart j k = true → kiln ≠ k → s.canPlaceAt kiln slot base u.mooring = true →
      Runs (.taskRestart job unit task kiln slot base u.mooring) s fun t =>
        t.ctx kiln slot = { x with
          st := .ready, reason := 0, half := false, base := base, acc := [], held := none, pins := [], pinRec := none, pc := r.1, row := r.2.1,
          group := 0, strip := 0, staged := [], late := [], begun := false, rows := x.rows.filter (fun y => y.layer != x.pc),
          counted := x.countedAfter (s.layerAt x), used := [], replay := r.2.2, hearth := [], gen := (s.ctx kiln slot).gen, dbgReq := 0 } ∧
        t.ctx k c = { gen := x.gen } ∧ (∀ d, d ≠ 4 * k + c → d ≠ 4 * kiln + slot → Tab.find d t.ctxs = Tab.find d s.ctxs) ∧
        (∀ i half, i < u.mooring → t.isReady kiln half (base + i) = false) ∧
        (∃ i, t.job j.id = some i ∧ i.retried = true ∧ i.kilnRestarted = if s.kilnFenced k then some k else j.kilnRestarted) ∧ t.mem = s.mem)) ∧
  (∀ (s : State) (k c : Nat), Live s → k < s.kilnCount → s.kilnFenced k = false → s.withinLimit k = true →
    s.get HMR_TIDE_STATUS_RUNNING 0 ≠ 0 → (∀ d, d < 4 → s.isBlocked k d = true) →
    s.waitingTasks ≠ [] → 0 < s.get HMR_SAVE_AREA_FRAMES 0 → s.victim k = some c →
    (s.saveFrame = none → exec (.taskEvict k) s = .next (s.inc HMR_SCHED_EVENTS_EVICT_NO_FRAME 0 1)) ∧
    (∀ f, s.saveFrame = some f → Runs (.taskEvict k) s fun t => ∃ one : State, t = one.loadWaiting s.evicted k c ∧
      one.ctx k c = { gen := (s.ctx k c).gen } ∧
      one.evicted = s.evicted ++ [⟨(s.ctx k c).job, (s.ctx k c).unit, (s.ctx k c).task, ⟨s.ctx k c, f⟩⟩] ∧
      KeepsMemBut s one (s.get HMR_SAVE_AREA_BASE 0 + 36864 * f) 36864 ∧
      (∀ d, d ≠ 4 * k + c → Tab.find d one.ctxs = Tab.find d s.ctxs) ∧
      one.get HMR_SCHED_EVENTS_EVICTIONS 0 = min (s.get HMR_SCHED_EVENTS_EVICTIONS 0 + 1) (2 ^ HMR_SCHED_EVENTS_EVICTIONS.width - 1))) ∧
  (∀ (s : State) (job unit task kiln slot base : Nat) (e : EvictedTask), Live s →
    s.evicted.find? (fun e => e.job == job && e.unit == unit && e.task == task) = some e → s.withinLimit kiln = true →
    s.canPlaceAt kiln slot base e.body.ctx.slots = true →
    let x := e.body.ctx
    Runs (.evictedTaskReturn job unit task kiln slot base x.slots) s fun t =>
      t.ctx kiln slot = { x with base := base, st := if x.st = .waitTile then .ready else x.st, late := [], hearth := [] } ∧
      (∀ d, d ≠ 4 * kiln + slot → Tab.find d t.ctxs = Tab.find d s.ctxs) ∧
      (∀ y, y ∈ t.evicted ↔ y ∈ s.evicted ∧ ¬ (y.job = job ∧ y.unit = unit ∧ y.task = task)) ∧
      (∀ i half, i < x.slots → t.isReady kiln half (base + i) = false) ∧ t.mem = s.mem)

/-- Requester cranes (R307 to R312, R322, R323, R417): a section's tally drops and counts bad indices once, sends every part to every slot that serves the table
and remembers the bags of each; over any bags the parts together count every index once, none with more than 65,536 distinct; a pooled
slice is written at its place in its bag's vector, one of an older attempt not at all; a part-done message is noted, or ends the job with its STATUS. -/
def Obligations.SectionsTallyAndTakeSlices : Prop :=
  (∀ (s s1 s2 s4 : State) (job k : Nat) (j : Job) (x : Section) (lens idx : List Nat), Live s → s.job job = some j → j.sect k = some x →
    x.tallied = false → x.round ≤ s.tide → s.bagLengths j.craneReq x = .ok (lens, s1) → s1.indicesFound j ≤ j.indices →
    s1.sectIndices j.craneReq x lens.sum = .ok (idx, s2) →
    let rows := (s.table x.table).rows
    let runs := (cutRuns lens idx).map fun r => r.filter fun i => decide (i < rows)
    let bad := (idx.filter fun i => decide (rows ≤ i)).length
    let c := s.craneFor x.table
    let s3 := if x.counted then s2 else s2.inc CRN_BAD_INDEX_COUNT c bad
    let parts := tallyParts (runs.zipIdx.map fun r => (r.2, r.1))
    s3.writeZeroBags j.craneReq x ((runs.zipIdx.filter fun r => r.1.isEmpty).map (·.2)) = .ok s4 →
    Runs (.sectionTally job k) s fun t =>
      (∃ i y, t.job j.id = some i ∧ i.sect k = some y ∧ y = { x with tallied := true, counted := true, partBags := parts.map (·.bagNos) } ∧
        (i.badIndex = true ↔ j.badIndex = true ∨ 0 < bad)) ∧ t.mem = s4.mem ∧
      (∀ p ∈ parts.zipIdx, ∀ q ∈ s.sectSlots x, (s.peer ((s.group (s.table x.table).group).slots.getD q 0)).frozen = false →
        .net ((s.group (s.table x.table).group).slots.getD q 0) 1 (.ladingPart (s.partOf j k x p.2 p.1)) ∈ t.out)) ∧
  (∀ bags : List (Nat × List Nat),
    (((tallyParts bags).flatMap (·.entries)).map (·.2.1)).sum = (bags.map (·.2.length)).sum ∧
    ∀ b ∈ tallyParts bags, b.distinct.length ≤ 65536 ∧ b.distinct.Nodup ∧ ∀ e ∈ b.entries, e.1 < b.distinct.length ∧ 0 < e.2.1) ∧
  (∀ (s : State) (ref table part bag slot attempt k : Nat) (data : List Byte) (j : Job) (x : Section), s.hears (s.slotDevice table slot) = true →
    s.sectFor ref table part (s.slotFor table slot) = some (j, k, x) →
    let nos := x.partBags.getD part []
    let a := x.outAddr + nos.getD bag 0 * x.outPitch + s.sliceFrom x.table slot * s.elems x.table * outBytes x.outFmt
    (attempt < x.attempt → exec (.pooledSlice ref table part bag slot attempt data) s = .next s) ∧
    (∀ t, x.attempt ≤ attempt → bag < nos.length → s.write j.craneReq a data = .ok t →
      exec (.pooledSlice ref table part bag slot attempt data) s = .next t)) ∧
  (∀ (s : State) (ref table part slot status attempt k : Nat) (pressure : Bool) (j : Job) (x : Section),
    s.hears (s.slotDevice table slot) = true → s.sectFor ref table part (s.slotFor table slot) = some (j, k, x) → x.attempt ≤ attempt →
    let s1 := if pressure then { s with counts := { s.counts with pressureSeen := true } } else s
    (status = 0 → exec (.partDone ref table part slot status attempt pressure) s = .next
      (s1.putJob { j with sections := j.sections.set k { x with oks := (s.slotFor table slot, part) :: x.oks } })) ∧
    (status ≠ 0 → exec (.partDone ref table part slot status attempt pressure) s = .next (s1.endJob j status 0 none)))

/-- Member cranes (R269, R314, R318, R323, R326, R331 to R333, R335, R416, R523, R540): a part is refused with the STATUS of the first condition it fails or
taken, and one that comes after the cut of its round counts as late; when the record of a part's only key arrives the bag is pooled in FP32, its slice
and the part's answer go out, and the window is empty; a raw request is answered, or taken in like any key and its record read; raw copies
combine by XOR until they complete it. -/
def Obligations.CranesPoolAndAnswer : Prop :=
  (∀ (s : State) (p : Part), s.hears p.requester = true →
    let c := s.craneFor p.table
    (s.lateFor p = true ↔ p.round < s.tide ∨ (p.round = s.tide ∧ s.counts.cut = true)) ∧
    (s.lateFor p = true → s.partRefusal p = none → s.serving p.table = .no →
      exec (.ladingPart p) s = .next (s.inc CRN_LATE_PARTS_COUNT c 1)) ∧
    (s.lateFor p = false →
      (∀ st, s.partRefusal p = some st → st ≠ 0x01 → exec (.ladingPart p) s = .next
        (if p.contOut then (s.answer p st).leaveOpen c p [] 0 (some st) else s.answer p st)) ∧
      (s.partRefusal p = some 0x01 → p.requester ≠ s.me → p.contOut = false →
        exec (.ladingPart p) s = .next ((s.answer p 0x01).malformedFrom p.requester)) ∧
      (s.partRefusal p = none → s.serving p.table = .no → exec (.ladingPart p) s = .next s) ∧
      (s.partRefusal p = none → s.serving p.table ≠ .no → exec (.ladingPart p) s = .next
        ((s.putCrane c { s.crane c with parts := (s.crane c).parts ++ [{ hdr := p, bags := p.bagList, inserted := 0 }] }).runCrane c)))) ∧
  (∀ s : State, Live s → exec .indexCut s = .next { s with counts := { s.counts with cut := true } }) ∧
  (∀ s : State, Live s → s.pressureLimit ≤ s.counts.memberReads →
    exec .slicePressureMark s = .next { s with counts := { s.counts with pressureSent := true } }) ∧
  (∀ (s s1 : State) (c n a : Nat) (p : MPart) (y : Tally) (i : Nat) (bs : List Byte), Live s → (s.crane c).parts = [p] →
    (s.crane c).window = [y] → (s.crane c).raws = [] → p.hdr.distinct = [i] → p.bags = [⟨0, [(0, n)], [], 0, false⟩] → p.inserted = 1 →
    p.again = [] → p.hdr.contIn = false → p.hdr.contOut = false → p.hdr.mode = 0 → y.table = p.hdr.table → y.epoch = p.hdr.epoch →
    y.index = i → y.st = .reading → y.parityIn = false → y.lost = false → y.askers = [] →
    ((y.hot = some bs ∧ s1 = s) ∨ (y.hot = none ∧ y.missed = [] ∧ s.recordAddr y.table y.epoch y.index = .ok (some a) ∧
      s.read {} a (s.pitch y.table) = .ok (bs, s1))) →
    0 < s.elems y.table → (s.peer p.hdr.requester).frozen = false →
    let e := s.elems y.table
    let acc := poolAdd n (recordElems (s.table y.table).fmt e bs) (List.replicate e 0)
    let slot := (s.mySlot (s.table y.table).group).getD 63
    Runs (.recordReadReturn c 0) s fun t =>
      t.crane c = { s.crane c with parts := [], window := [] } ∧ (∀ d, d ≠ c → t.crane d = s.crane d) ∧ t.mem = s.mem ∧
      t.out = s1.out ++
        [.net p.hdr.requester 1 (.pooledSlice p.hdr.jobRef y.table p.hdr.part 0 slot p.hdr.attempt
          (acc.flatMap fun v => (outElem p.hdr.outFmt v).1)),
         .net p.hdr.requester 1 (.partDone p.hdr.jobRef y.table p.hdr.part slot 0 p.hdr.attempt s.pressure)]) ∧
  (∀ (s : State) (table gen epoch index device cls tag : Nat), s.hears device = true →
    let c := s.craneFor table
    let tb := s.table table
    let q := s.crane c
    let slot := (s.mySlot tb.group).getD 63
    (tb.enabled = false ∨ tb.gen ≠ gen → exec (.rawRequest table gen epoch index device cls tag) s =
      .next (s.sendRaw c table index (device, tag) 1 [])) ∧
    (tb.enabled = true → tb.gen = gen → tb.holds epoch = false → exec (.rawRequest table gen epoch index device cls tag) s =
      .next (s.sendRaw c table index (device, tag) 2 [])) ∧
    (tb.enabled = true → tb.gen = gen → tb.holds epoch = true →
      exec (.rawRequest table gen epoch index device cls tag) s = .next
        ((s.putCrane c { q with raws := q.raws ++ [⟨table, epoch, index, device, cls, tag⟩] }).runCrane c) ∧
      (q.findKey table epoch index = none → s.windowRoom q table = true → q.parts = [] → q.raws = [] →
        Runs (.rawRequest table gen epoch index device cls tag) s fun t =>
          (∃ m h, t.crane c = { q with window := q.window.filter (fun y => !y.askers.isEmpty) ++
            [{ newTally table epoch index cls [(device, tag)] with missed := m, hot := h }] }) ∧
          t.get CRN_READS_COUNT c = min (s.get CRN_READS_COUNT c + 1) (2 ^ CRN_READS_COUNT.width - 1) ∧ t.mem = s.mem) ∧
      (∀ n y, q.findKey table epoch index = some n → q.window[n]? = some y → y.st = .ready → y.lost = false → q.parts = [] → q.raws = [] →
        Runs (.rawRequest table gen epoch index device cls tag) s fun t =>
          t.crane c = { q with window := q.window.filter fun y => !y.askers.isEmpty } ∧
          t.out = s.out ++ [.net device 1 (.rawCopy table index tag 0 slot y.record)] ∧ t.mem = s.mem ∧
          t.get CRN_RAW_RAW_SENT c = min (s.get CRN_RAW_RAW_SENT c + 1) (2 ^ CRN_RAW_RAW_SENT.width - 1)))) ∧
  (∀ (s : State) (c n slot device : Nat) (data : List Byte), s.hears device = true → c < 32 →
    let s1 := s.inc CRN_RAW_RAW_RECEIVED c 1
    ((s.crane c).window[n]? = none → exec (.rawCopy c n ⟨slot, device⟩ 0 data) s = .next s1) ∧
    (∀ y : Tally, (s.crane c).window[n]? = some y →
      let d := (s.group (s.table y.table).group).d
      let z := { y with
        record := xorBytes (if y.record.isEmpty then List.replicate (s.pitch y.table) 0 else y.record) data, copies := slot :: y.copies }
      let mine := s.slotDevice y.table slot = device ∧ (y.st = .rebuilding ∨ (y.st = .reading ∧ y.lost = true))
      (¬ mine ∨ slot ∈ y.copies → exec (.rawCopy c n ⟨slot, device⟩ 0 data) s = .next s1) ∧
      (mine → slot ∉ y.copies →
        ((if y.st = .rebuilding then y.copies.length + 1 < d else y.parityIn = false ∨ y.copies.length + 2 < d) →
          exec (.rawCopy c n ⟨slot, device⟩ 0 data) s = .next (s1.setTally c n fun _ => z)) ∧
        (y.st = .reading → y.parityIn = true → d ≤ y.copies.length + 2 →
          exec (.rawCopy c n ⟨slot, device⟩ 0 data) s = .next ((s1.setTally c n fun _ => z).recordReady c n)) ∧
        (∀ a, y.st = .rebuilding → d ≤ y.copies.length + 1 →
          (s1.setTally c n fun _ => z).recordAddr y.table y.epoch y.index = .ok (some a) → exec (.rawCopy c n ⟨slot, device⟩ 0 data) s =
          .next ((((s1.setTally c n fun _ => z).writeBack a z.record).hotFills y.total y.cls y.missed).recordReady c n)))))

/-- Embedding tables (R299 to R305, R346): an enable takes the checked entry of its table, with the epochs that the group master gives, and answers OK (1), or
BAD_ENTRY (2) or NO_TABLE (3); an enabled table answers OK at once; a disable refuses new users and, once nothing uses the table, drops the
copies; a group master answers with its record, or with EPOCH0 alone where it holds none. -/
def Obligations.TablesEnableAndDisable : Prop :=
  (∀ (s : State) (t : Nat) (ans : Option EpochInfo), HostUp s → s.tableFree 1 t = true → (s.table t).enabled = true →
    exec (.tableEnable t ans) s = .next (((s.put CRN_TABLE_RESULT_RESULT 0 1).put CRN_TABLE_CTL_DONE 0 1).put CRN_TABLE_CTL_BUSY 0 0)) ∧
  (∀ (s : State) (t : Nat) (ans : Option EpochInfo), HostUp s → s.tableFree 1 t = true → (s.table t).enabled = false →
    s.get CRN_TABLE_DIR_TABLES 0 < t →
    exec (.tableEnable t ans) s = .next (((s.put CRN_TABLE_RESULT_RESULT 0 3).put CRN_TABLE_CTL_DONE 0 1).put CRN_TABLE_CTL_BUSY 0 0)) ∧
  (∀ (s s1 s2 : State) (t : Nat) (ans : Option EpochInfo) (bs gb : List Byte), HostUp s → s.tableFree 1 t = true →
    (s.table t).enabled = false → s.tableInMemory t = .ok (some bs, s1) →
    let e := tableEntryOf bs
    let g := groupOf gb
    s1.groupInMemory e.group = .ok (some gb, s2) →
    let good := groupOk gb = true ∧ tableEntryOk bs g.d = true ∧ tableShapeOk e g.d = true ∧ s.rootOk e g = true ∧
      ceilDiv e.rows (max 1 (recordsPerPage e.fmt (e.dim / max 1 g.d))) ≤ e.mapPages
    (¬ good → exec (.tableEnable t ans) s = .next (((s2.put CRN_TABLE_RESULT_RESULT 0 2).put CRN_TABLE_CTL_DONE 0 1).put CRN_TABLE_CTL_BUSY 0 0)) ∧
    (good → s.mustAsk g = false ∨ ans.isSome = true → Runs (.tableEnable t ans) s fun u =>
      let i := s.epochInfo t e g ans
      (u.table t).enabled = true ∧ (u.table t).disabling = false ∧ (u.table t).gen = e.gen ∧ (u.table t).fmt = e.fmt ∧ (u.table t).home = e.home ∧
      (u.table t).group = e.group ∧ (u.table t).dim = e.dim ∧ (u.table t).rows = e.rows ∧ (u.table t).rootCur = e.mapRoot ∧
      (u.table t).paritySlot = e.paritySlot ∧ (u.table t).mapPages = e.mapPages ∧ (u.table t).epoch = i.epoch ∧ (u.table t).live = i.live ∧
      (∀ m, m ≠ t → u.table m = s.table m) ∧ (u.group e.group).slots = i.slots ∧ (u.group e.group).lostSlot = i.lostSlot ∧
      (∀ m, m ≠ e.group → u.group m = s.group m) ∧ u.get CRN_TABLE_RESULT_RESULT 0 = 1 ∧ u.get CRN_TABLE_CTL_DONE 0 = 1 ∧
      u.get CRN_TABLE_CTL_BUSY 0 = 0 ∧ u.jobs = s.jobs ∧ u.cranes = s.cranes) ∧
    (good → s.mustAsk g = true → ans = none → exec (.tableEnable t none) s = .next
      ((((s2.put CRN_TABLE_CTL_OP 0 1).put CRN_TABLE_CTL_TABLE 0 t).put CRN_TABLE_CTL_BUSY 0 1).sendVc0 g.master
        (.epochRequest t e.gen e.group e.epoch0 s.me)))) ∧
  (∀ (s : State) (t : Nat), HostUp s → s.tableFree 2 t = true → t ≤ s.get CRN_TABLE_DIR_TABLES 0 → (s.table t).enabled = true →
    (∀ c ∈ s.conss, c.touchesTable t = false) → exec (.tableDisable t) s = .next
      ((((s.putTable t { s.table t with disabling := true }).put CRN_TABLE_CTL_TABLE 0 t).put CRN_TABLE_CTL_OP 0 2).put CRN_TABLE_CTL_BUSY 0 1)) ∧
  (∀ (s : State) (t : Nat), (s.table t).disabling = true → s.tableUsed t = false → Runs (.tableDisableDone t) s fun u =>
    u.table t = {} ∧ (∀ m, m ≠ t → u.table m = s.table m) ∧ u.get CRN_TABLE_RESULT_RESULT 0 = 1 ∧ u.get CRN_TABLE_CTL_DONE 0 = 1 ∧
    u.get CRN_TABLE_CTL_BUSY 0 = 0 ∧ u.jobs = s.jobs ∧ u.cranes = s.cranes) ∧
  (∀ (s : State) (t gen g e0 d : Nat) (r : Group), Live s → s.groupRecord g = some r → r.master = s.me →
    let m := s.master t
    (m.known = true → m.gen = gen → exec (.groupMasterEpochRequest t gen g e0 d) s = .next
      (s.sendVc0 d (.epochAnswer t m.epoch m.live r.state.code r.lostSlot r.slots))) ∧
    (m.known = false ∨ m.gen ≠ gen → exec (.groupMasterEpochRequest t gen g e0 d) s = .next
      (s.sendVc0 d (.epochAnswer t e0 [⟨e0, none⟩] r.state.code r.lostSlot r.slots))))

/-- Warehouse accesses (R235, R240 to R247, R256, R257): a read answers its bytes, correcting what can be corrected, and a poisoned response for each
uncorrectable word; a write of a class that the scratch way admits replaces its bytes in the normal view, sets the bits of its data in the bit-set
view, clears them in the bit-clear view, and changes no other byte; an alias write leaves an uncorrectable word and updates the others; any other
write is refused and changes nothing; the debug port reaches memory at D2 and D3 alone. -/
def Obligations.WarehouseAccessesByView : Prop :=
  (∀ (s : State) (addr len job p : Nat) (v : View) (debug : Bool), Live s → readWindow debug addr = true → oneAccess addr len = true →
    s.debugMay debug = true →
    let r : Req := if debug then { debug := true } else match s.job job with | some j => j.req | none => {}
    let bytes := (List.range len).map fun i => memAt s (p + i)
    (∀ e, s.locate r false addr = .error e → debug = false →
      exec (.warehouseRead addr len ⟨job, false⟩ []) s = .next (s.send (.accessRefused addr))) ∧
    (s.locate r false addr = .ok (.dev p v) → s.veiled = [] → addr < 2 ^ 47 →
      ((∀ w ∈ wordsOf p len, Tab.find w s.ecc = none) → exec (.warehouseRead addr len ⟨job, debug⟩ []) s =
        .next { s with out := s.out ++ [.response addr bytes] }) ∧
      ((∀ w ∈ wordsOf p len, s.badWord w = false) → Runs (.warehouseRead addr len ⟨job, debug⟩ []) s fun t =>
        t.out.getLast? = some (.response addr bytes) ∧ t.mem = s.mem ∧ ∀ w ∈ wordsOf p len, t.weakWord w = false) ∧
      ((∃ w ∈ wordsOf p len, s.badWord w = true) → isSram p = true → Runs (.warehouseRead addr len ⟨job, debug⟩ []) s fun t =>
        (∀ w ∈ wordsOf p len, s.badWord w = true → .poisoned (8 * w) ∈ t.out) ∧ t.mem = s.mem))) ∧
  (∀ (s : State) (addr len job cls : Nat) (data : List Byte), Live s → s.debugDeep = false →
    exec (.warehouseRead addr len ⟨job, true⟩ []) s = .next s ∧ exec (.warehouseWrite addr ⟨cls, true⟩ data) s = .next s ∧
    exec (.bitSetWrite addr ⟨cls, true⟩ data) s = .next s ∧ exec (.bitClearWrite addr ⟨cls, true⟩ data) s = .next s) ∧
  (∀ (s : State) (v off cls : Nat) (data : List Byte), Live s → v < 3 → cls < 4 → off < whsBytes → oneAccess off data.length = true →
    let (d, w) := wayOf off
    let a := whsBase + viewStep * v + off
    let c : Instr := if v = 0 then .warehouseWrite a ⟨cls, false⟩ data else if v = 1 then .bitSetWrite a ⟨cls, false⟩ data
      else .bitClearWrite a ⟨cls, false⟩ data
    let new := fun (i : Nat) => if v = 0 then data.getD i 0 else if v = 1 then memAt s (whsBase + off + i) ||| data.getD i 0
      else memAt s (whsBase + off + i) &&& ~~~ data.getD i 0
    (s.wayStopped d w = true ∨ s.wayUse d w ≠ 0 ∨ bit (s.wayClasses d w) cls = false → exec c s = .next (s.send (.accessRefused a))) ∧
    (s.wayStopped d w = false → s.wayUse d w = 0 → bit (s.wayClasses d w) cls = true → s.veiled = [] →
      ((∀ n ∈ wordsOf (whsBase + off) data.length, Tab.find n s.ecc = none) → Runs c s fun t =>
        KeepsMemBut s t (whsBase + off) data.length ∧ (∀ i, i < data.length → memAt t (whsBase + off + i) = new i) ∧
        t = { s with ecc := t.ecc, mem := t.mem }) ∧
      (v ≠ 0 → (∃ n ∈ wordsOf (whsBase + off) data.length, s.badWord n = true) → Runs c s fun t =>
        KeepsMemBut s t (whsBase + off) data.length ∧ (∀ i, i < data.length → memAt t (whsBase + off + i) =
          if s.badWord ((whsBase + off + i) / 8) = true then memAt s (whsBase + off + i) else new i) ∧
        ∀ n ∈ wordsOf (whsBase + off) data.length, s.badWord n = true → .poisoned (8 * n) ∈ t.out)))

/-- Ways (R258, R260, R267, R276): the stop bit of a scratch way stops it at once, that of a hot-row way once its entries have left, and that of a model-cache
way once its blocks have; a block that must leave a stopping model-cache way is copied to a free block of its die and every map follows, or the
way is BLOCKED; a restarted way is back in service, zeroed where its use has changed; one under test stays stopped. -/
def Obligations.WaysStopMoveAndRestart : Prop :=
  (∀ (s : State) (d w : Nat), HostUp s → d < 2 → w < 16 → s.wayStopping d w = false →
    (s.wayUse d w = 0 → exec (.wayStop d w) s = .next ((s.putWayStop d w true).putWayStopped d w true)) ∧
    (s.wayUse d w = 2 → exec (.wayStop d w) s = .next (s.putWayStop d w true)) ∧
    (s.wayUse d w = 1 → (∀ m, s.idleIn d w m = false) → exec (.wayStop d w) s = .next (s.putWayStop d w true))) ∧
  (∀ (s : State) (d w : Nat), d < 2 → w < 16 → s.wayStopping d w = true → s.wayStopped d w = false →
    (s.wayUse d w = 2 → Runs (.wayStopped d w) s fun t => t.wayStopped d w = true ∧
      (∀ e, e ∈ t.hot ↔ e ∈ s.hot ∧ ¬ (e.1 / 16 / 229376 = d ∧ e.1 % 16 = w)) ∧ t = { s with hot := t.hot, flds := t.flds }) ∧
    (s.wayUse d w = 1 → (∀ m, s.idleIn d w m = false) → s.leaving d w = [] →
      exec (.wayStopped d w) s = .next ((s.putWayStopped d w true).putWayBlocked d w false)) ∧
    (s.wayUse d w = 1 → (∀ m, s.idleIn d w m = false) → s.leaving d w ≠ [] → exec (.wayStopped d w) s = .next s)) ∧
  (∀ (s : State) (d w n cls : Nat) (l : List (Nat × Nat)), d < 2 → w < 16 → s.wayStopping d w = true → s.wayStopped d w = false →
    s.wayUse d w = 1 → (∀ m, s.idleIn d w m = false) → s.leaving d w = (n, cls) :: l →
    (s.freeBlocks d cls s.usedBlocks = [] → exec (.modelBlockMove d w) s = .next (s.putWayBlocked d w true)) ∧
    (∀ k r, s.freeBlocks d cls s.usedBlocks = k :: r → s.veiled = [] → Runs (.modelBlockMove d w) s fun t =>
      (∀ i, i < 65536 → memAt t (cacheAddr k + i) = memAt s (cacheAddr n + i)) ∧ KeepsMemBut s t (cacheAddr k) 65536 ∧
      t.models = s.models.map (fun e => (e.1, { e.2 with
        blocks := e.2.blocks.map (fun p => (p.1, movedTo n k p.2)), oldBlocks := e.2.oldBlocks.map (fun p => (p.1, movedTo n k p.2)) })) ∧
      t.jobs = s.jobs ∧ t.out = s.out)) ∧
  (∀ (s : State) (d w : Nat), HostUp s → d < 2 → w < 16 → 16 * d + w ∉ s.dock.heldWays → s.wayStopping d w = true →
    (s.wayTested d w = true → exec (.wayRestart d w) s = .next (s.putWayStop d w false)) ∧
    (s.wayTested d w = false → (s.wayUse d w = 1 → ∀ m, s.idleIn d w m = false) →
      Runs (.wayRestart d w) s fun t => t.wayStopping d w = false ∧ t.wayStopped d w = false ∧
        (16 * d + w ∉ s.dock.changedWays → t.mem = s.mem) ∧ KeepsMemBut s t (wayAddr d w 0) wayBytes ∧
        (16 * d + w ∈ s.dock.changedWays → ∀ i, i < wayBytes → memAt t (wayAddr d w i) = 0) ∧
        (s.wayUse d w = 2 → ∀ e ∈ t.hot, ¬ (e.1 / 16 / 229376 = d ∧ e.1 % 16 = w)) ∧ (s.wayUse d w ≠ 2 → t.hot = s.hot) ∧
        t = { s with flds := t.flds, mem := t.mem, ecc := t.ecc, undef := t.undef, dock := t.dock, hot := t.hot }))

/-- March tests and repair (R275 to R287): a destructive test starts only when every way it names is stopped, and leaves them zero; a preserving pass
counts and changes no byte; an abort counts, its row is tried again, and a word lost to it is poisoned; a repair burns unless its macro does not exist (3) or is repaired already (2). -/
def Obligations.MarchTestsAndRepair : Prop :=
  (∀ (s : State) (e : Nat), HostUp s → e < 2 → s.get DDK_MARCH_STATUS_DESTRUCT_BUSY e = 0 → e ∉ s.dock.stopped →
    let ws := (List.range 16).filter fun w => bit (s.get DDK_MARCH_CTRL_DESTRUCT_WAYS e) w
    ((∃ w ∈ ws, s.wayStopped e w = false) → exec (.destructStart e) s = .next (s.put DDK_MARCH_STATUS_DESTRUCT_REFUSED e 1)) ∧
    ((∀ w ∈ ws, s.wayStopped e w = true) → exec (.destructStart e) s = .next
      ({ s with dock := { s.dock with destruct := s.dock.destruct ++ [(e, ws)] } }.put DDK_MARCH_STATUS_DESTRUCT_BUSY e 1))) ∧
  (∀ (s : State) (e : Nat) (fault : Bool) (ws : List Nat), s.dock.destruct.find? (fun x => x.1 == e) = some (e, ws) →
    Runs (.destructiveTestDone e fault) s fun t =>
      ((∀ w ∈ ws, s.wayStopping e w = true) → (∀ w ∈ ws, ∀ i, i < wayBytes → memAt t (wayAddr e w i) = 0) ∧
        ∀ b, (∀ w ∈ ws, ¬ (wayAddr e w 0 ≤ b ∧ b < wayAddr e w 0 + wayBytes)) → memAt t b = memAt s b) ∧
      (∀ w ∈ ws, s.wayStopping e w = false → t.wayStopped e w = false) ∧
      t.get DDK_MARCH_STATUS_DESTRUCT_BUSY e = 0 ∧ (fault = true → t.get DDK_MARCH_STATUS_FAIL e = 1) ∧
      (fault = false → t.get DDK_MARCH_STATUS_FAIL e = s.get DDK_MARCH_STATUS_FAIL e) ∧ ∀ x ∈ t.dock.destruct, x.1 ≠ e) ∧
  (∀ (s : State) (e a c : Nat), s.visits e a = true → (∀ w ∈ rowWords a, Tab.find w s.ecc = none) →
    Runs (.preservingPass e a false c []) s (fun t => t.mem = s.mem ∧
      t.get DDK_MARCH_STATUS_PASSES e = min (s.get DDK_MARCH_STATUS_PASSES e + 1) (2 ^ DDK_MARCH_STATUS_PASSES.width - 1) ∧
      t.get DDK_MARCH_STATUS_FAIL e = s.get DDK_MARCH_STATUS_FAIL e ∧ t.counts = (s.countRow e).counts ∧ (e, rowStart a) ∉ t.dock.retry ∧
      t = { s with flds := t.flds, ecc := t.ecc, counts := t.counts, dock := t.dock }) ∧
    Runs (.preservingPass e a true c []) s fun t => t.mem = s.mem ∧
      t.get DDK_MARCH_STATUS_FAIL e = if s.replaced a c = true then s.get DDK_MARCH_STATUS_FAIL e else 1) ∧
  (∀ (s : State) (e a w : Nat), s.visits e a = true →
    Runs (.marchPassAbort e a []) s (fun t => t.mem = s.mem ∧
      t.get DDK_MARCH_ABORTS_COUNT e = min (s.get DDK_MARCH_ABORTS_COUNT e + 1) (2 ^ DDK_MARCH_ABORTS_COUNT.width - 1) ∧
      t.counts = (s.countRow e).counts ∧ (e, rowStart a) ∈ t.dock.retry ∧
      t = { s with flds := t.flds, counts := t.counts, dock := t.dock }) ∧
    (w ∈ rowWords a → Runs (.marchPassAbort e a [w]) s fun t => Tab.find w t.ecc = some true ∧ (e, rowStart a) ∈ t.dock.retry ∧
      t.mem = s.mem ∧ ∀ x, x ≠ w → Tab.find x t.ecc = Tab.find x s.ecc)) ∧
  (∀ (s : State) (kind u m c : Nat), HostUp s → s.get DDK_REPAIR_BUSY 0 = 0 → kind ≤ 1 → u < 256 → m < 16 → c < 2048 →
    let r : Repair := ⟨kind, u, m, c⟩
    let s1 := (((s.put DDK_REPAIR_KIND 0 kind).put DDK_REPAIR_UNIT 0 u).put DDK_REPAIR_MACRO 0 m).put DDK_REPAIR_COLUMN 0 c
    (r.valid = false → exec (.repairBurn kind u m c) s = .next ((s1.put DDK_REPAIR_STATUS_RESULT 0 3).put DDK_REPAIR_STATUS_DONE 0 1)) ∧
    (r.valid = true → (∃ b ∈ s.dock.burned, b.sameMacro r = true) →
      exec (.repairBurn kind u m c) s = .next ((s1.put DDK_REPAIR_STATUS_RESULT 0 2).put DDK_REPAIR_STATUS_DONE 0 1)) ∧
    (r.valid = true → (∀ b ∈ s.dock.burned, b.sameMacro r = false) →
      exec (.repairBurn kind u m c) s = .next ({ s1 with dock := { s.dock with burn := some r } }.put DDK_REPAIR_BUSY 0 1)))

/-- Prepares of table data (R343, R344, R349, R350, R352, R353): a prepare begins when every destination page lies in staging, and fails with STAGING (7) otherwise; a
busy table fails it; PAGE_WRITE copies each source page to its destination, PARITY_DELTA writes the XOR of the delta with the old page, or with zeros where
none is mapped, and both change the map entry, keeping what it was for the rollback; a page still held by the previous version fails with PAGE_BUSY (3);
ROOT_SET makes the new root current from the next epoch on. -/
def Obligations.PrepareChangesPagesAndRoots : Prop :=
  (∀ (s : State) (id : Nat) (c : Cons), Live s → s.get HMR_TIDE_STATUS_RUNNING 0 ≠ 0 → s.cons id = some c → c.phase = .admitted →
    ((∀ p ∈ c.actions.flatMap (·.pages), s.stagingOk p.2.2.2.1 = true) →
      exec (.consignmentPrepare id) s = .next (s.putCons { c with phase := .preparing })) ∧
    ((∃ p ∈ c.actions.flatMap (·.pages), s.stagingOk p.2.2.2.1 = false) → exec (.consignmentPrepare id) s = .next (s.prepareFails id 7))) ∧
  (∀ (s : State) (id t st : Nat) (c : Cons) (a : Action) (b : Bool) (l d src : Nat), Preparing s id c a → s.tableBusy t = some st →
    (a = .pageWrite b t l d src → exec (.pageWrite id) s = .next (s.prepareFails id st)) ∧
    (a = .parityDelta b t l d src → exec (.parityDelta id) s = .next (s.prepareFails id st)) ∧
    (a = .rootSet t l → exec (.rootSet id) s = .next (s.prepareFails id st))) ∧
  (∀ (s : State) (id t l d src : Nat) (c : Cons) (b : Bool), s.tableBusy t = none →
    (∀ u c', Preparing s id c (.pageWrite b t l d src) →
      State.eachPage (fun s c l d src => s.pageWritePage c t l d src) s c (pagesOf b l d src) = .done u c' →
      exec (.pageWrite id) s = .next (u.putCons { c' with next := c.next + 1 })) ∧
    (∀ u c', Preparing s id c (.parityDelta b t l d src) →
      State.eachPage (fun s c l d src => s.parityDeltaPage c t l d src) s c (pagesOf b l d src) = .done u c' →
      exec (.parityDelta id) s = .next (u.putCons { c' with next := c.next + 1 }))) ∧
  (∀ (s s1 : State) (c : Cons) (t l d src : Nat) (bs : List Byte),
    let a := (s.table t).rootCur + 16 * l
    let ch := (s.table t).epoch + 1
    s.read {} a 16 = .ok (bs, s1) →
    let m := mapEntryOf (leNat bs)
    let new := MapEntry.bytes ⟨true, true, m.valid, d, m.cur, ch⟩
    let entered (w : State) : Work :=
      .done (w.devWrite a new) { c with undo := c.undo ++ [.entry a (w.bytes a 16)], wrote := c.wrote ++ [⟨t, a, new, ch⟩] }
    (m.prevValid = true → s.pageWritePage c t l d src = .fails 0x03) ∧
    (m.prevValid = false → src = d → s.pageWritePage c t l d src = entered s1) ∧
    (∀ page s2 s3, m.prevValid = false → src ≠ d → s1.read copyReq src 65536 = .ok (page, s2) → s2.write copyReq d page = .ok s3 →
      s.pageWritePage c t l d src = entered s3) ∧
    (∀ delta s2 s3, m.prevValid = false → m.valid = false → (∀ w ∈ c.wrote, w.addr ≠ a) → s.read copyReq src 65536 = .ok (delta, s2) →
      s1.write copyReq d (xorBytes (List.replicate 65536 0) delta) = .ok s3 → s.parityDeltaPage c t l d src = entered s3) ∧
    (∀ delta old s2 s3 s4, m.prevValid = false → m.valid = true → (∀ w ∈ c.wrote, w.addr ≠ a) → s.read copyReq src 65536 = .ok (delta, s2) →
      s1.read copyReq m.cur 65536 = .ok (old, s3) → s3.write copyReq d (xorBytes old delta) = .ok s4 →
      s.parityDeltaPage c t l d src = entered s4)) ∧
  (∀ (s : State) (id t r : Nat) (c : Cons), Preparing s id c (.rootSet t r) → s.tableBusy t = none → (s.table t).rootPrev = none →
    Runs (.rootSet id) s fun u => u.table t = { s.table t with
        rootPrev := some (s.table t).rootCur, rootCur := r, rootChange := (s.table t).epoch + 1 } ∧
      (∀ m, m ≠ t → u.table m = s.table m) ∧
      u.cons id = some { c with undo := c.undo ++ [.root t (s.table t).rootCur none (s.table t).rootChange], next := c.next + 1 } ∧
      u = { s with tables := u.tables, conss := u.conss })

/-- Prepares of models, and their ends (R266, R349, R353 to R355, R358 to R360, R364): a model being loaded is waited for, and one that is absent or has a
retiring version is MODEL_BUSY (5); PIN holds its blocks, UNPIN waits for the commit; a RESCALE_SWAP of one block that the cache does not hold lays the new
entries over the block; a prepare whose every action is done waits for its commit or votes, and fails with TABLE_BUSY (4) when a table it names is being
disabled; one out of time fails with PREPARE_TIMEOUT (0x0A); votes gather at the group master, which decides PREPARE_TIMEOUT when they stay short and keeps
the record of each table they name alike; a participant that has voted and is in doubt asks the pod master. That a range beyond the image counts as busy is the model's
choice (log 27). -/
def Obligations.PrepareOfModelsAndVotes : Prop :=
  (∀ (s : State) (id m f n src : Nat) (c : Cons),
    (Preparing s id c (.pin m f n) →
      ((s.model m).st = .absent ∨ (s.model m).retiring.isSome = true → exec (.pin id) s = .next (s.prepareFails id 5)) ∧
      ((s.model m).st = .loading → (s.model m).retiring = none → 65536 * (f + n) ≤ (s.model m).bytes → exec (.pin id) s = .next s) ∧
      ((s.model m).st ≠ .absent → (s.model m).st ≠ .loading → (s.model m).retiring = none → 65536 * (f + n) ≤ (s.model m).bytes →
        (∀ i, i < n → ∃ p ∈ (s.model m).blocks, p.1 = f + i) →
        exec (.pin id) s = .next (s.putCons { c with
          heldBlocks := c.heldBlocks ++ (List.range n).map (fun i => (m, f + i)), next := c.next + 1 }))) ∧
    (Preparing s id c (.unpin m f n) →
      ((s.model m).retiring = none → exec (.unpin id) s = .next (s.putCons { c with next := c.next + 1 })) ∧
      ((s.model m).retiring.isSome = true → exec (.unpin id) s = .next (s.prepareFails id 5))) ∧
    (Preparing s id c (.rescaleSwap m f n src) →
      ((s.model m).st = .absent ∨ (s.model m).retiring.isSome = true ∨ (s.model m).bytes < f + 16 * n →
        exec (.rescaleSwap id) s = .next (s.prepareFails id 5)) ∧
      ((s.model m).st = .loading → (s.model m).retiring = none → f + 16 * n ≤ (s.model m).bytes → exec (.rescaleSwap id) s = .next s))) ∧
  (∀ (s s1 s2 : State) (id m f n src b : Nat) (c : Cons) (new old : List Byte), Preparing s id c (.rescaleSwap m f n src) →
    (s.model m).st = .stored → (s.model m).retiring = none → f + 16 * n ≤ (s.model m).bytes → 0 < n → f / 65536 = b → (f + 16 * n - 1) / 65536 = b →
    (∀ w ∈ c.swaps, ¬ (w.1 = m ∧ w.2.1 = b)) → (∀ p ∈ (s.model m).blocks, p.1 ≠ b) → s.read copyReq src (16 * n) = .ok (new, s1) →
    s1.storeBlock (s.model m) (s.model m).version b = .ok (old, s2) →
    exec (.rescaleSwap id) s = .next (s2.putCons { c with
      swaps := c.swaps ++ [(m, b, overlay old new (f - 65536 * b), none)], next := c.next + 1 })) ∧
  (∀ (s : State) (id : Nat) (c : Cons), Live s → s.get HMR_TIDE_STATUS_RUNNING 0 ≠ 0 → s.cons id = some c →
    (c.phase = .preparing → c.actions.length ≤ c.next →
      let s1 := match s.job c.job with | some j => s.putJob { j with left := {} } | none => s
      ((∃ a ∈ c.actions, ∃ t, a.table? = some t ∧ (s.table t).disabling = true) → exec (.prepareDone id) s = .next (s1.prepareFails id 4)) ∧
      ((∀ a ∈ c.actions, ∀ t, a.table? = some t → (s.table t).disabling = false) →
        (c.scope = false → exec (.prepareDone id) s = .next (s1.putCons { c with phase := .prepared })) ∧
        (c.scope = true → exec (.prepareDone id) s = .next (s1.sendVote c 0)))) ∧
    (c.inPrepare = true → c.admitTide + c.prepTides ≤ s.tide → exec (.prepareTimeout id) s = .next (s.prepareFails id 0x0A)) ∧
    (∀ v, (c.phase = .prepared ∨ ∃ st, c.phase = .failed st) → c.voteTide = some v → v + c.prepTides + 4 ≤ s.tide → exec (.inDoubtTimeout id) s = .next
      ((s.putCons { c with inDoubt := true }).sendVc0 s.podMaster (.query c.id c.group s.me)))) ∧
  (∀ (s : State) (v : Vote), Live s →
    (s.voteBox v.cons = none → exec (.vote v) s = .next
      { s with votes := s.votes.filter (fun x => x.cons != v.cons) ++ [⟨v.cons, s.tide, [v], none, false⟩] }) ∧
    (∀ b, s.voteBox v.cons = some b → b.outcome = none → exec (.vote v) s = .next
      { s with votes := s.votes.filter (fun x => x.cons != b.cons) ++
          [{ b with votes := b.votes.filter (fun x => x.sender != v.sender) ++ [v] }] })) ∧
  (∀ (s : State) (id : Nat) (b : VoteBox), Live s → s.get HMR_TIDE_STATUS_RUNNING 0 ≠ 0 → s.pod.leaderless = false → s.voteBox id = some b →
    b.outcome = none → b.decide = none → b.firstTide + b.prepTides ≤ s.tide →
    Runs (.voteTimeout id) s fun t => ∃ (g : Nat) (w : State), w = { s with masters := w.masters } ∧
      (∀ x ∈ b.tables, (∀ y ∈ b.tables, y.1 = x.1 → y = x) → (s.master x.1).known = false → w.master x.1 = ⟨true, x.2.1, x.2.2, [⟨x.2.2, none⟩]⟩) ∧
      t = (w.putBox { b with outcome := some ⟨b.cons, g, 0x0A, 0, []⟩ }).sendVc0 s.podMaster (.decision ⟨b.cons, g, 0x0A, 0, []⟩ false)) ∧
  (∀ (s : State) (c : Cons) (st : Nat), s.cons c.id = some c → c.scope = true →
    let t := s.sendVote c st
    (t.cons c.id = some { c with voteTide := some s.tide, phase := if st = 0 then .prepared else .failed st }) ∧ t.mem = s.mem ∧
    t.nextVc0 = s.nextVc0 + 1 ∧ ∃ m v, t.unacked = s.unacked ++ [⟨s.nextVc0, m, .vote v⟩] ∧ v.cons = c.id ∧ v.status = st ∧ v.sender = s.me)

/-- Decisions, epochs and retirement (R360 to R362, R364 to R366, R368 to R371): the pod master logs the first decision for a consignment and answers queries and
later voters from the log; a participant rolls an aborted consignment back, and waits for the commit tide of a committed one; a notice is kept
for its commit tide; the epochs and versions that a commit replaced retire. -/
def Obligations.DecisionsCommitAndRetire : Prop :=
  (∀ (s : State) (d : Decision) (voters : List Nat), Live s → s.isMaster = true →
    (s.logged d.cons = none → s.decisions.length < 1024 →
      exec (.decisionToPodMaster d voters) s = .next (s.logDecision d voters)) ∧
    (s.logged d.cons = none → 1024 ≤ s.decisions.length →
      exec (.decisionToPodMaster d voters) s = .next (s.logDecision ⟨d.cons, d.group, 0x0A, 0, []⟩ voters)) ∧
    (∀ l, s.logged d.cons = some l → (∀ v ∈ voters, v ∈ l.voters) →
      exec (.decisionToPodMaster d voters) s = .next (s.putLogged l))) ∧
  (∀ (s : State) (d : Decision) (voters : List Nat), let t := s.logDecision d voters
    (∃ l, t.decisions = s.decisions ++ [l] ∧ l.dec = d ∧ l.voters = voters ∧ l.acked = [] ∧ l.decided = s.tide) ∧ t.mem = s.mem ∧
    (∀ v ∈ voters, ∃ u ∈ t.unacked, u.dst = v ∧ u.msg = .decision d false) ∧
    (d.status = 0 → ∀ m ∈ s.pod.members, ∃ u ∈ t.unacked, u.dst = m ∧ u.msg = .notice d)) ∧
  (∀ (s : State) (id g slot d : Nat) (l : Logged), Live s → s.isMaster = true → s.logged id = some l →
    exec (.query id g d) s = .next (s.sendVc0 d (.decision l.dec (!(l.voters.contains d)))) ∧
    (d ∉ l.acked → exec (.ack ⟨id, g, slot⟩ d) s = .next (s.putLogged { l with acked := l.acked ++ [d] }).pruneLog)) ∧
  (∀ (s : State) (id g d : Nat), Live s → s.isMaster = true → s.logged id = none → ∃ st, (st = 0x0E ∨ st = 0x0A) ∧
    exec (.query id g d) s = .next (s.logDecision ⟨id, g, st, 0, []⟩ [d])) ∧
  (∀ (s : State) (d : Decision) (late : Bool), Live s →
    (s.cons d.cons = none → exec (.decision d late) s = .next (s.sendAck d.cons d.group)) ∧
    (∀ c, s.cons d.cons = some c → d.status ≠ 0 → exec (.decision d late) s = .next
      (((s.rollback c).consEnds c (c.abortStatus d.status)).sendAck c.id c.group)) ∧
    (∀ c, s.cons d.cons = some c → d.status = 0 → late = false → c.phase = .prepared → exec (.decision d late) s = .next
      (s.putCons { c with phase := .committing d.tc, inDoubt := false })) ∧
    (∀ c, s.cons d.cons = some c → d.status = 0 → (∀ tc, c.phase ≠ .committing tc) → late = true ∨ c.phase ≠ .prepared →
      exec (.decision d late) s = .next ((s.lateCommit c).sendAck c.id c.group)) ∧
    (d ∉ s.notices → d ∉ s.noticesDone → exec (.notice d) s = .next { s with notices := s.notices ++ [d] }) ∧
    (d ∈ s.notices ∨ d ∈ s.noticesDone → exec (.notice d) s = .next s)) ∧
  (∀ (s : State) (id tr t e : Nat), s.noticed id = [(t, e)] → Runs (.retireAt id tr) s fun u =>
    u.table t = { s.table t with live := (s.table t).live.map (fun x => if x.epoch == e - 1 then { x with retire := some tr } else x) } ∧
    u.master t = { s.master t with live := (s.master t).live.map (fun x => if x.epoch == e - 1 then { x with retire := some tr } else x) } ∧
    (∀ m, m ≠ t → u.table m = s.table m ∧ u.master m = s.master m) ∧ 
    u.retiring = s.retiring.map (fun (r : Retiring) => if r.id = id then { r with tr := some tr } else r) ∧
    u = { s with tables := u.tables, masters := u.masters, retiring := u.retiring }) ∧
  (∀ (s : State) (id g : Nat), let r := s.groupRecord g
    s.sendAck id g = s.sendVc0 s.podMaster (.ack id g (s.slotIn r) s.me)) ∧
  (∀ (s : State) (id t e : Nat), Live s → s.get HMR_TIDE_STATUS_RUNNING 0 ≠ 0 → s.dueEpochs id = [(t, e)] → s.retiring = [] → s.rebuild = none →
    Runs (.epochRetire id) s fun u => (∀ l ∈ (u.table t).live, l.epoch ≠ e) ∧ (∀ l ∈ (u.master t).live, l.epoch ≠ e) ∧
      ((s.table t).rootChange = e + 1 → (u.table t).rootPrev = none) ∧ (∀ m, m ≠ t → u.table m = s.table m) ∧
      u = { s with tables := u.tables, masters := u.masters }) ∧
  (∀ (s : State) (m v : Nat), Live s → s.get HMR_TIDE_STATUS_RUNNING 0 ≠ 0 → (s.model m).retiring = some v → s.versionUsed m v = false →
    Runs (.modelVersionRetire m v) s fun u => (u.model m).retiring = none ∧ (u.model m).oldBlocks = [] ∧
      (u.model m).blocks = (s.model m).blocks ∧ (u.model m).version = (s.model m).version ∧ (∀ k, k ≠ m → u.model k = s.model k) ∧
      (∀ r ∈ u.retiring, (m, v) ∉ r.versions) ∧ u.mem = s.mem)

/-- Models and admission control (R264, R265, R430, R431, R433): ADD registers an image that is in order and whole in the model store as STORED, REMOVE makes
its model REMOVING until its last job has retired; a load whose last block is in leaves the model RESIDENT; STOP and START
set and clear admission, which is drained once no job remains; admission that stops leaves the descriptors fetched to a later boundary. -/
def Obligations.ModelsAreAddedLoadedAndRemoved : Prop :=
  (∀ (s : State) (m : Nat), HostUp s →
    let res (r : Nat) (t : State) := (t.put HMR_MODEL_CTL_RESULT 0 r).put HMR_MODEL_CTL_DONE 0 1
    (s.get HMR_MODEL_DIR_ENTRIES 0 < m → exec (.modelAdd m) s = .next (res 3 s) ∧ exec (.modelRemove m) s = .next (res 3 s)) ∧
    (m ≤ s.get HMR_MODEL_DIR_ENTRIES 0 → (s.model m).st ≠ .absent → exec (.modelAdd m) s = .next (res 2 s)) ∧
    (∀ image bs, m ≤ s.get HMR_MODEL_DIR_ENTRIES 0 → (s.model m).st = .absent → s.modelImage m = some image →
      s.imageRead image 0 256 = some bs → s.imageOk image = true → s.imagePlaced image (imageHeaderOf bs).bytes = true →
      Runs (.modelAdd m) s fun t => (t.model m).st = .stored ∧ (t.model m).image = image ∧ (t.model m).bytes = (imageHeaderOf bs).bytes ∧
        (t.model m).blocks = [] ∧ (∀ k, k ≠ m → t.model k = s.model k) ∧ t.get HMR_MODEL_CTL_RESULT 0 = 1 ∧
        t.get HMR_MODEL_CTL_DONE 0 = 1 ∧ t.jobs = s.jobs) ∧
    (m ≤ s.get HMR_MODEL_DIR_ENTRIES 0 → (s.model m).st ≠ .absent → (s.model m).st ≠ .removing → Runs (.modelRemove m) s fun t =>
      t.model m = { s.model m with st := .removing } ∧ (∀ k, k ≠ m → t.model k = s.model k) ∧ t.get HMR_MODEL_CTL_RESULT 0 = 1 ∧
      t.get HMR_MODEL_CTL_DONE 0 = 1 ∧ t.jobs = s.jobs)) ∧
  (∀ (s : State) (m : Nat), (s.model m).st = .removing → (∀ j ∈ s.jobs, j.kind = .run → j.model ≠ m) → Runs (.modelRemoved m) s fun t =>
    t.model m = {} ∧ (∀ k, k ≠ m → t.model k = s.model k) ∧ t.jobs = s.jobs) ∧
  (∀ (s : State) (m : Nat), Live s → (s.model m).st = .loading ∨ (s.model m).st = .removing → (s.model m).toLoad.length ≤ 1 →
    (∀ b ∈ (s.model m).toLoad, s.blockIn m b = true) → Runs (.modelLoadDone m) s fun t =>
      t.model m = { s.model m with st := if (s.model m).st = .loading then .resident else .removing, toLoad := [] } ∧
      (∀ k, k ≠ m → t.model k = s.model k) ∧ t.jobs = s.jobs ∧ ∀ n, s.loader m = some n → (t.stream n).st = .free) ∧
  (∀ (s : State), HostUp s → Runs .admissionStop s (fun t => t.get HMR_ADMIT_CTL_STOP 0 = 1 ∧
      t.get HMR_ADMIT_CTL_DRAINED 0 = (if s.jobs = [] then 1 else 0) ∧
      KeepsFieldsBut s t [HMR_ADMIT_CTL_STOP.key 0, HMR_ADMIT_CTL_DRAINED.key 0] ∧
      t = { s with flds := t.flds, fetched := s.fetched.map (fun (f : Fetched) => { f with due := false }) }) ∧
    (s.serves = true → Runs .admissionStart s fun t => t.get HMR_ADMIT_CTL_STOP 0 = 0 ∧ t.get HMR_ADMIT_CTL_DRAINED 0 = 0 ∧
      KeepsFieldsBut s t [HMR_ADMIT_CTL_STOP.key 0, HMR_ADMIT_CTL_DRAINED.key 0] ∧ t = { s with flds := t.flds }) ∧
    (s.serves = false → exec .admissionStart s = .next s)) ∧
  (∀ (s : State), s.get HMR_ADMIT_CTL_STOP 0 ≠ 0 → s.jobs = [] → exec .admissionDrained s = .next (s.put HMR_ADMIT_CTL_DRAINED 0 1))

/-- History sections (R382 to R384, R387, R392 to R394, R397): the first pending section in admission order takes effect: READ stamps the count of events;
APPEND and CREATE make the entry APPENDING, take the frames that the new events need and set a step for each chunk they touch; TRIM advances the first chunk, never
past that of the last event, and its frames wait for their readers; RELEASE makes the entry RELEASING. Nothing but the entry's 32 bytes changes in memory but for
the index of a taken frame. An uncorrectable word of an index page that the effect reads leaves the entry DAMAGED and ends the job (R397). -/
def Obligations.HistorySectionsTakeEffect : Prop :=
  ∀ (s : State) (j : Job) (u : HistUse) (rest : List Job), Live s → s.pendingHists = j :: rest → j.hist = some u → s.veiled = [] →
    (∀ x ∈ s.jobs, ∀ v, x.hist = some v → v.failed = false) →
    let h := u.hist
    let e := s.hist h
    let jobs (v : HistUse) := s.jobs.map fun x => if x.id == j.id then { j with hist := some v } else x
    let bad := s.badIndexWords (s.sectionReads u)
    (bad ≠ [] → u.op = 1 ∨ u.op = 3 → exec (if u.op = 1 then .historyAppend j.id else .historyTrim j.id) s = .next
      (((s.memError { bad := bad } none).putHist h { e with st := hDamaged }).putJob
        { j with hist := some { u with begun := true, l0 := e.events, failed := true } }).endFailedHists) ∧
    (u.op = 0 → exec (.historyRead j.id) s = .next
      { s with jobs := jobs { u with begun := true, l0 := if e.st = hFree then 0 else e.events } }) ∧
    (u.op = 1 → bad = [] → newFrames e.events u.n = 0 → 0 < u.n → Runs (.historyAppend j.id) s fun t =>
      t.hist h = { e with st := hAppending } ∧ KeepsMemBut s t (s.histAddr h) 32 ∧
      t.jobs = jobs { u with begun := true, l0 := e.events, taken := [], pages := [], steps := chunkSteps e.events u.n, opened := true } ∧
      t = { s with mem := t.mem, jobs := t.jobs }) ∧
    (∀ f fs, u.op = 1 → bad = [] → newFrames e.events u.n = 1 → localityDie e.locality (s.get HST_RING_CFG_PORT j.ring) = none → e.events ≠ 0 →
      ceilDiv e.events 512 % 8191 ≠ 0 → s.freeFrames = f :: fs → Runs (.historyAppend j.id) s fun t => t.freeFrames = fs ∧
        t.indexPages = s.indexPages ∧ t.jobs = jobs { u with
          begun := true, l0 := e.events, taken := [(ceilDiv e.events 512, f)], pages := [], steps := chunkSteps e.events u.n, opened := true } ∧
        t.flds = s.flds ∧ t.out = s.out) ∧
    (u.op = 2 → u.n = 0 → u.gen < 2 ^ 32 → u.locality < 4 → j.model < 2 ^ 16 → Runs (.historyCreate j.id) s fun t =>
      t.hist h = ⟨u.gen, hAppending, u.locality, j.model, 0, 0, 0, 0⟩ ∧ KeepsMemBut s t (s.histAddr h) 32 ∧
      t.jobs = jobs { u with begun := true, l0 := 0, taken := [], pages := [], steps := [], opened := false } ∧
      t.appended = s.appended ++ [⟨h, 0⟩] ∧ t = { s with mem := t.mem, jobs := t.jobs, appended := t.appended }) ∧
    (u.op = 3 → bad = [] → Runs (.historyTrim j.id) s fun t =>
      let k := min u.trim ((if e.events = 0 then e.first else (e.events - 1) / 512) - e.first)
      (t.hist h).first = e.first + k ∧ (t.hist h).frames = e.frames - k ∧ (t.hist h).events = e.events ∧ (t.hist h).st = e.st ∧
      (t.hist h).gen = e.gen ∧ KeepsMemBut s t (s.histAddr h) 32 ∧
      (∃ d, t.deferred = s.deferred ++ [d] ∧ d.hist = h ∧ d.frames = s.chunkFrames e e.first k ∧ d.readers = s.histReaders h) ∧
      t.jobs = jobs { u with begun := true, l0 := e.events } ∧ t = { s with mem := t.mem, jobs := t.jobs, deferred := t.deferred }) ∧
    (4 = u.op → Runs (.historyRelease j.id) s fun t => t.hist h = { e with st := hReleasing } ∧ KeepsMemBut s t (s.histAddr h) 32 ∧
      t.jobs = jobs { u with begun := true, l0 := e.events } ∧ t = { s with mem := t.mem, jobs := t.jobs })

/-- Histories between sections (R375, R376, R386 to R391, R393 to R395, R398, R399): a released history with no reader left is FREE and its frames wait; frames
return to the pool once their last reader has gone, and an index frame once its 32 pages are free; a step of a chunk reads its inputs and runs as a kiln task
while the tide's C1 hearth share lasts; the steps of a chunk run layer after layer, each writing the keys and values of its new events, and the last layer's
their outputs, where R375 places them; the append ends with the last; an append that would be late ends its job with HISTORY_LATE (0x0E); the function stops once it is
quiet, and starting it again frees every entry and forms the pool. That the unit whose program a step runs is named by the command, and that the step's results come with its
end, are the model's choices (log 126). -/
def Obligations.HistoryStepsFramesAndStop : Prop :=
  (∀ (s : State) (h : Nat), Live s → h ≤ s.get HMR_HIST_SIZE_ENTRIES 0 → (s.hist h).st = hReleasing → s.histReaders h = [] → s.veiled = [] →
    Runs (.historyFree h) s fun t => t.hist h = { s.hist h with st := hFree, frames := 0, index := 0 } ∧
      KeepsMemBut s t (s.histAddr h) 32 ∧ (∃ d, t.deferred = s.deferred ++ [d] ∧ d.hist = h ∧ d.readers = [] ∧
        d.frames = s.chunkFrames (s.hist h) (s.hist h).first (s.hist h).frames) ∧
      t = { s with mem := t.mem, deferred := t.deferred }) ∧
  (∀ (s : State) (h : Nat), Live s → Runs (.frameReturn h) s fun t =>
    let due (d : Deferred) := d ∈ s.deferred ∧ d.hist = h ∧ ∀ j ∈ d.readers, ∀ x ∈ s.jobs, x.id ≠ j
    (∀ d, due d → (∀ f ∈ d.frames, f ∈ t.freeFrames) ∧ ∀ p ∈ d.pages, p ∈ t.indexPages ∨ s.frameOf p ∈ t.freeFrames) ∧
    (∀ d, d ∈ t.deferred ↔ d ∈ s.deferred ∧ ¬ due d) ∧ (∃ l, t.freeFrames = s.freeFrames ++ l) ∧
    (∀ p ∈ t.indexPages, p ∈ s.indexPages ∨ ∃ d, due d ∧ p ∈ d.pages) ∧
    (∀ f, (t.indexPages.filter fun p => s.frameOf p == f).length < 32) ∧
    t = { s with freeFrames := t.freeFrames, indexPages := t.indexPages, deferred := t.deferred }) ∧
  (∀ (s w : State) (i c unit l : Nat) (b : Bool) (j : Job) (u : HistUse) (g : HistGeometry) (bs : List Byte), Live s → s.job i = some j →
    s.stepsRun j = some u → u.steps.find? (fun y => y.1 == c && !y.2.2) = some (c, l, b) → s.geometry j.model = some g →
    s.imageRead (s.model j.model).image ((s.model j.model).unitOff + 32 * unit) 32 = some bs → s.modelWhole j.model = true →
    let run := { unitOf (stepUnit c l) bs with after := 0xFFFF, afterLookup := false, dispatched := true, tasks := [.waiting] }
    let go := { j with units := j.units ++ [run], hist := some { u with steps := u.steps.map fun y => if y.1 == c then (y.1, y.2.1, true) else y } }
    (s.stepRoom = false → exec (.chunkStep i ⟨c, unit⟩) s = .next s) ∧
    (run.kind = 2 → unit < (s.model j.model).units → s.stepRoom = true → s.badIndexWords (s.indexWalk (s.hist u.hist) c) = [] →
      s.readAll (u.stepReads g (s.chunkAddr (s.hist u.hist) c) c l) = .ok w →
      exec (.chunkStep i ⟨c, unit⟩) s = .next (((w.putJob go).chargeC1 1 run.hearthCost).placeUnit go run))) ∧
  (∀ (s w : State) (i c l lo k : Nat) (b : Bool) (j : Job) (u : HistUse) (g : HistGeometry) (kv out : List Byte), Live s → s.job i = some j →
    s.stepsRun j = some u → u.steps.find? (fun y => y.1 == c && y.2.2) = some (c, l, b) → s.geometry j.model = some g →
    (∃ v ∈ j.units, v.no = stepUnit c l ∧ v.finished = true) → lo = max u.l0 (512 * c) → k = min (u.l0 + u.n) (512 * c + 512) - lo →
    kv.length = k * g.kvBytes → out.length = (if l + 1 < g.layers then 0 else k * g.outBytes) →
    let frame := s.chunkAddr (s.hist u.hist) c
    s.writeAll ((frame + (l * 512 + lo % 512) * g.kvBytes, kv) ::
      (if l + 1 < g.layers then [] else [(frame + (g.layers * 512 * g.kvBytes + lo % 512 * g.outBytes), out)])) = .ok w →
    let steps := u.steps.filterMap fun x => if x.1 == c then (if l + 1 < g.layers then some (c, l + 1, false) else none) else some x
    let rest := { j with units := j.units.filter fun v => v.no != stepUnit c l }
    (steps ≠ [] → exec (.chunkStepComplete i ⟨c, kv, out⟩) s = .next (w.putJob { rest with hist := some { u with steps := steps } })) ∧
    (steps = [] → exec (.chunkStepComplete i ⟨c, kv, out⟩) s = .next
      { w.putJob { rest with hist := some { u with steps := [], opened := false } }.settle with appended := w.appended ++ [⟨u.hist, u.l0 + u.n⟩] })) ∧
  (∀ (s : State) (i : Nat) (j : Job), Live s → s.job i = some j → j.appends.isSome = true →
    exec (.historyAppendFail i) s = .next (s.endJob j 0x0E 0 none)) ∧
  (∀ s : State, HostUp s → exec .historyStop s = .next (s.put HMR_HIST_CTL_STOP 0 1)) ∧
  (∀ s : State, s.get HMR_HIST_CTL_STOP 0 ≠ 0 → (∀ j ∈ s.jobs, j.hist = none) → s.appended = [] →
    exec .historyStopped s = .next (s.put HMR_HIST_CTL_STOPPED 0 1)) ∧
  (∀ s : State, HostUp s → s.get HMR_HIST_CTL_STOPPED 0 ≠ 0 → Runs .historyStart s fun t =>
    (∀ i, i < 32 * (s.get HMR_HIST_SIZE_ENTRIES 0 + 1) → memAt t (s.get HMR_HIST_DIR_BASE 0 + i) = 0) ∧
    KeepsMemBut s t (s.get HMR_HIST_DIR_BASE 0) (32 * (s.get HMR_HIST_SIZE_ENTRIES 0 + 1)) ∧
    t.freeFrames = List.range (s.get HMR_HIST_SIZE_FRAMES 0) ∧ t.indexPages = [] ∧ t.deferred = [] ∧ t.appended = [] ∧
    t.get HMR_HIST_CTL_STOP 0 = 0 ∧ t.get HMR_HIST_CTL_STOPPED 0 = 0 ∧ t.jobs = s.jobs)

/-- Errors (R525, R526, R529 to R535, R556): a detected error of a unit that is not fenced goes in hand when the salvor is idle, into the ring behind one of its severity
or a higher one, and ahead of a lower one, which is suspended; one of a fenced unit is dropped; severity 3, and the scheduler's watchdog, stop the
device; an escalation puts the error in hand back and stops the salvor, a second within a second of its restart stops the device; a handled error is logged. -/
def Obligations.ErrorsAreQueuedHandledOrStop : Prop :=
  (∀ (s : State) (e : Err), Live s → e.known = true → e.sev ≤ 2 → e.kind ∈ [0x02, 0x03, 0x04, 0x06, 0x0B, 0x0E, 0x0F, 0x10, 0x11] →
    let d : Err := { e with tide := s.stampTide, suspended := false, fenced := false, job := e.job.bind s.jobNo }
    (s.unitFenced e.kind e.unit e.addr = true → Runs (.errorDetect e) s fun t => t.salvor.inHand = s.salvor.inHand ∧ t.salvor.ring = s.salvor.ring ∧
      t.out = s.out ∧ t.dock = s.dock ∧ t.jobs = s.jobs) ∧
    (s.unitFenced e.kind e.unit e.addr = false → s.salvor.matches d = false → (e.sev = 0 → s.salvor.lastTide d ≠ some d.tide) →
      (s.salvor.inHand = none → s.salvor.stopped = false → Runs (.errorDetect e) s fun t => t.salvor.inHand = some d ∧
        t.salvor.ring = s.salvor.ring ∧ t.get HMR_SALVOR_STATUS_BUSY 0 = 1 ∧ t.get HMR_SALVOR_STATUS_HANDLING 0 = e.sev ∧ t.jobs = s.jobs ∧
        t.mem = s.mem ∧ t.out = s.out) ∧
      (∀ h, s.salvor.inHand = some h → s.salvor.ring.length < 64 → s.salvor.stopped = false → Runs (.errorDetect e) s fun t =>
        (e.sev ≤ h.sev → t.salvor.inHand = some h ∧ t.salvor.ring = s.salvor.ring ++ [d]) ∧
        (h.sev < e.sev → t.salvor.inHand = some d ∧ t.salvor.ring = s.salvor.ring ++ [{ h with suspended := true }]) ∧
        t.jobs = s.jobs ∧ t.mem = s.mem ∧ t.out = s.out))) ∧
  (∀ (s : State) (e : Err), Live s → e.known = true → Runs (.deviceFaultStop e) s (fun t => Stopped s t e.source) ∧
    (e.sev = 3 → e.kind ≠ 0x0D → Runs (.errorDetect e) s fun t => Stopped s t e.source)) ∧
  (∀ s : State, Live s → s.get HMR_TIDE_STATUS_RUNNING 0 ≠ 0 → Runs .schedulerWatchdog s fun t => Stopped s t 2) ∧
  (∀ (s : State) (source : Nat), Live s → source = 4 ∨ source = 5 → s.salvor.stopped = false →
    (s.justRestarted = true → Runs (.salvorEscalate source) s fun t => Stopped s t 6) ∧
    (s.justRestarted = false → s.salvor.ring.length < 64 → Runs (.salvorEscalate source) s fun t => t.salvor.stopped = true ∧
      t.salvor.inHand = none ∧ t.get HMR_SALVOR_STATUS_ESCALATED 0 = 1 ∧ t.get HMR_SALVOR_STATUS_BUSY 0 = 0 ∧ t.jobs = s.jobs ∧ t.mem = s.mem ∧
      t.salvor.ring = s.salvor.ring ++ (match s.salvor.inHand with | some e => [{ e with suspended := true }] | none => []))) ∧
  (∀ s : State, Live s → s.salvor.stopped = true → Runs .salvorRestart s fun t => t.salvor.stopped = false ∧
    t.get HMR_SALVOR_STATUS_ESCALATED 0 = 0 ∧ t.salvor.lastRestart = some (s.get LHS_RTC_COUNT 0) ∧ t.jobs = s.jobs ∧ t.mem = s.mem ∧ t.out = s.out ∧
    (s.salvor.ring = [] → t.salvor.inHand = none ∧ t.get HMR_SALVOR_STATUS_BUSY 0 = 0) ∧
    (∀ e, s.salvor.ring = [e] → t.salvor.inHand = some { e with suspended := false } ∧ t.get HMR_SALVOR_STATUS_HANDLING 0 = e.sev % 4)) ∧
  (∀ (s : State) (e : Err), Live s → s.salvor.stopped = false → s.salvor.inHand = some e →
    let bs := s.errorBytes { e with fenced := e.fenced || (e.sev == 2 && hasFence e.kind) }
    exec .salvorHandle s = .next ((s.applyError e).record e bs).salvorNext ∧
    (e.sev = 0 → s.applyError e = s) ∧ (s.applyError e).record e bs = ((((s.applyError e).elogPush bs).postEvent bs).traceJob 5
      (e.job.bind (s.applyError e).job) e.unit) ∧
    (s.dock.elog.length < 4096 → (s.record e bs).dock.elog = s.dock.elog ++ [bs]) ∧ bs.length = 64)

/-- Memory that fails and returns (R239, R273, R434 to R436, R545 to R548, R557, R577): a failed stack is fenced with its cause, and every channel set on it is lost and stopped; the scrub
mends a correctable unit, whose hot-row copies go, and poisons an uncorrectable one, and changes no byte; a stopped set that is neither lost nor under the veil
returns as it was, one under the veil returns with zeros; an invalidated block of a model is loaded again by its stream, and one that a retiring version reads is
written from the store again, which is the model's choice (log 123). -/
def Obligations.StacksSetsAndScrub : Prop :=
  (∀ (s : State) (k c : Nat), Live s → k < 12 → 1 ≤ c → c ≤ 5 → s.bitAt HBM_STACK_STATUS_FENCED 0 k = false →
    Runs (.hbmStackFail k c) s fun t => t.bitAt HBM_STACK_STATUS_FENCED 0 k = true ∧ t.get HBM_STACK_STATUS_CAUSE 0 = c ∧
      (∀ n ∈ s.setsOn k, t.setLost n = true ∧ t.setStopped n = true) ∧ t.halted = false ∧ t.jobs = s.jobs ∧ t.mem = s.mem ∧
      t.models = s.models ∧ t.streams = s.streams) ∧
  (∀ (s : State) (a n : Nat), Live s → s.setOf a = some n → s.setStopped n = false → a % 64 = 0 →
    ((∀ w ∈ wordsOf a 64, Tab.find w s.ecc = none) → exec (.patrolScrub a 0) s = .next s) ∧
    (∀ o, (∀ w ∈ wordsOf a 64, Tab.find w s.ecc ≠ some true) → o = 1 ∨ (o = 0 ∧ ∃ w ∈ wordsOf a 64, Tab.find w s.ecc = some false) →
      Runs (.patrolScrub a o) s fun t => (∀ w ∈ wordsOf a 64, Tab.find w t.ecc = none) ∧
        (∀ w, w ∉ wordsOf a 64 → Tab.find w t.ecc = Tab.find w s.ecc) ∧ t.mem = s.mem ∧ ∀ e ∈ t.hot, e ∈ s.hot ∧ (a < 0x10000000000 → e.2.unit ≠ a)) ∧
    (∀ o, o = 2 ∨ (o < 2 ∧ ∃ w ∈ wordsOf a 64, Tab.find w s.ecc = some true) →
      Runs (.patrolScrub a o) s fun t => (∀ w ∈ wordsOf a 64, Tab.find w t.ecc = some true) ∧
        (∀ w, w ∉ wordsOf a 64 → Tab.find w t.ecc = Tab.find w s.ecc) ∧ t.mem = s.mem)) ∧
  (∀ (s : State) (n : Nat), HostUp s → n < 32 →
    (s.setStopped n = true ∨ s.get HBM_CHSET_USE n ≠ 1 → exec (.chsetStop n) s = .next
      ((s.putBitAt HBM_CHSET_STOP_STOP 0 n true).putBitAt HBM_CHSET_STATUS_STOPPED 0 n true)) ∧
    (s.get HBM_CHSET_COUNT n ≠ 0 → s.setUsable n = true → s.setLost n = false → s.get CUS_STATUS_VEILED 0 = 0 → exec (.chsetRestart n) s = .next
      ((s.putBitAt HBM_CHSET_STOP_STOP 0 n false).putBitAt HBM_CHSET_STATUS_STOPPED 0 n false)) ∧
    (s.get HBM_CHSET_COUNT n ≠ 0 → s.setUsable n = true → s.get CUS_STATUS_VEILED 0 ≠ 0 → Runs (.chsetRestart n) s fun t =>
      (∀ i, i < s.setBytes n → memAt t (s.setBase n + i) = 0) ∧ KeepsMemBut s t (s.setBase n) (s.setBytes n) ∧ t.veiled = s.veiled.erase n ∧
      t.setLost n = false ∧ t.setStopped n = false ∧ t.jobs = s.jobs ∧ t.out = s.out) ∧
    (s.get HBM_CHSET_COUNT n ≠ 0 → s.setUsable n = true → s.setLost n = true → s.get CUS_STATUS_VEILED 0 = 0 → Runs (.chsetRestart n) s fun t =>
      KeepsMemBut s t (s.setBase n) (s.setBytes n) ∧ t.setLost n = false ∧ t.setStopped n = false ∧ t.jobs = s.jobs ∧ t.out = s.out) ∧
    (s.get HBM_CHSET_COUNT n = 0 ∨ s.setUsable n = false → exec (.chsetRestart n) s = .next (s.putBitAt HBM_CHSET_STOP_STOP 0 n false))) ∧
  (∀ (s : State) (m b j n : Nat), Live s → s.job j = none →
    ((s.model m).st = .resident → s.blockIn m b = true → s.loader m = some n → exec (.modelBlockReload m b j) s = .next
      ((s.putModel m { s.model m with toLoad := (s.model m).toLoad.erase b }).loadNext n m)) ∧
    (∀ p bs w, s.blockIn m b = false → (s.model m).oldBlocks.find? (fun p => p.1 == b && !(s.allBad (cacheAddr p.2) 65536).isEmpty) = some p →
      s.storeBlock (s.model m) ((s.model m).retiring.getD 0) b = .ok (bs, w) → exec (.modelBlockReload m b j) s = .next (w.writeBlock p.2 bs)))

/-- Lost slots and rebuilding a spare (R547, R549 to R553): the pod master broadcasts the slots lost and replaced, each device notes them for its next boundary; a rebuild
starts only where it may, tells the group master, XORs the D pages of each page and writes it, and ends; a member sends its page as the current epoch
sees it. -/
def Obligations.SlotsAreLostAndRebuilt : Prop :=
  (∀ (s : State) (d g k : Nat), Live s → s.inPod = true →
    ((d, g, k) ∉ s.pod.slotLosses →
      exec (.slotLossNotice d g k) s = .next { s with pod := { s.pod with slotLosses := s.pod.slotLosses ++ [(d, g, k)] } } ∧
      (s.isMaster = true → s.isLive d = true → exec (.slotsLost d g k) s = .next
        { s with pod := { s.pod with slotLosses := s.pod.slotLosses ++ [(d, g, k)] }, out := s.out ++ [.broadcast (.slotLoss d g k)] })) ∧
    ((g, k, d) ∉ s.pod.replaces →
      exec (.slotReplace g k d) s = .next { s with pod := { s.pod with replaces := s.pod.replaces ++ [(g, k, d)] } } ∧
      (s.isMaster = true → s.isLive d = true → exec (.rebuildDone g k d) s = .next
        { s with pod := { s.pod with replaces := s.pod.replaces ++ [(g, k, d)] }, out := s.out ++ [.broadcast (.slotReplace g k d)] }))) ∧
  (∀ (s : State) (g : Nat), HostUp s → g < 1024 → s.get CRN_REBUILD_BUSY 0 = 0 →
    ((s.put CRN_REBUILD_GROUP 0 g).mayRebuild g = false → exec (.rebuildGo g) s = .next
      (((s.put CRN_REBUILD_GROUP 0 g).put CRN_REBUILD_STATUS_RESULT 0 2).put CRN_REBUILD_DONE 0 1)) ∧
    ((s.put CRN_REBUILD_GROUP 0 g).mayRebuild g = true → Runs (.rebuildGo g) s fun t => t.get CRN_REBUILD_BUSY 0 = 1 ∧
      t.get CRN_REBUILD_STATUS_RESULT 0 = 0 ∧ t.get CRN_REBUILD_STATUS_PAGES_DONE 0 = 0 ∧ t.get CRN_REBUILD_GROUP 0 = g ∧
      (∃ b, t.rebuild = some b ∧ b.group = g ∧ b.slot = (s.group g).lostSlot) ∧ t.mem = s.mem ∧ t.jobs = s.jobs ∧
      ((s.group g).master = s.me → g ∈ t.rebuilding) ∧
      ((s.group g).master ≠ s.me → ∃ u ∈ t.unacked, u.dst = (s.group g).master ∧ u.msg = .rebuildStart g (s.group g).lostSlot s.me))) ∧
  (∀ (s : State) (g k d : Nat), Live s → g ∉ s.rebuilding → Runs (.rebuildStart g k d) s fun t => t.rebuilding = g :: s.rebuilding ∧
    t = { s with rebuilding := t.rebuilding, unacked := t.unacked, nextVc0 := t.nextVc0, out := t.out } ∧
    (∀ r, s.groupRecord g = some r → r.master = s.me → ∀ m ∈ s.groupMembers g, m ≠ s.me → m ≠ d →
      ∃ u ∈ t.unacked, u.dst = m ∧ u.msg = .rebuildStart g k d)) ∧
  (∀ (s u : State) (t p k d : Nat) (bs : List Byte), s.hears d = true → (s.table t).enabled = true →
    k ∈ (s.group (s.table t).group).slotsOf s.me → s.currentPage t p = some (bs, u) →
    exec (.rebuildPageRequest t p k d) s = .next (u.send (.net d 2 (.page t p k bs)))) ∧
  (∀ (s : State) (b : Rebuild) (k : Nat) (data : List Byte), s.rebuild = some b → s.hears (s.slotDevice b.table k) = true → b.copying = true →
    k ≠ b.slot → k ≤ (s.group b.group).d → k ∉ b.got → data.length = 65536 →
    let c := { b with got := k :: b.got, acc := xorBytes b.acc data }
    (b.got.length + 1 < (s.group b.group).d → exec (.rebuildPage b.table b.page k data) s = .next { s with rebuild := some c }) ∧
    (∀ a w, (s.group b.group).d ≤ b.got.length + 1 → s.ownPage b.table b.page = some a → s.write { cls := some 2 } a c.acc = .ok w →
      Runs (.rebuildPage b.table b.page k data) s fun t => t.mem = w.mem ∧
        t.get CRN_REBUILD_STATUS_PAGES_DONE 0 = min (s.get CRN_REBUILD_STATUS_PAGES_DONE 0 + 1) (2 ^ CRN_REBUILD_STATUS_PAGES_DONE.width - 1) ∧
        (w.pagesAfter c = [] → ∃ e, t.rebuild = some e ∧ e.table = 4096) ∧
        (∀ x l, w.pagesAfter c = x :: l → ∃ e, t.rebuild = some e ∧ e.table = x.1 ∧ e.page = x.2 ∧ e.got = []))) ∧
  (∀ (s : State) (g : Nat), Live s →
    (s.rebuild = none → exec (.rebuildEnd g) s = .next { s with rebuilding := s.rebuilding.erase g }) ∧
    (∀ b, s.rebuild = some b → b.group = g → (s.group g).state = .lost →
      exec (.rebuildEnd g) s = .next ({ s with rebuilding := s.rebuilding.erase g }.endRebuild 3)) ∧
    (∀ b, s.rebuild = some b → b.group = g → (s.group g).state ≠ .lost → exec (.rebuildEnd g) s = .next s))

/-- Lanes and quays that fail (R495 to R498, R643): a failed lane is out of use, a spare takes its place, and the quay runs on at the width that is left; below 24
lanes, or by an error of its own, the quay fails: its links are unkeyed, what was on the way over it is lost, its routes take their alternates, and the pod master is
told. What becomes of the frames and counters of a failed lane is the model's choice (log 129). -/
def Obligations.LanesAndQuaysFail : Prop :=
  (∀ (s : State) (q l source : Nat), Live s → q < 16 → l < 34 → (s.quay q).st = .up → l ∉ (s.quay q).dead → 1 ≤ source → source ≤ 3 →
    let left := 33 - (s.quay q).dead.length
    Runs (.laneFail q l source) s fun t => (t.quay q).dead = l :: (s.quay q).dead ∧ (∀ m, m ≠ q → t.quay m = s.quay m) ∧
      t.get QUY_STATUS_WIDTH q = min 32 left ∧ t.get QUY_STATUS_SPARES_LEFT q = left - 32 ∧ t.jobs = s.jobs ∧ t.mem = s.mem ∧
      (24 ≤ left → t.routes = s.routes ∧ t.quay q = { (s.quay q).moveLane l (s.spareFor q l) with dead := l :: (s.quay q).dead }) ∧
      (left < 24 → (t.quay q).st = .failed ∧ (t.quay q).keyed = false ∧ (t.quay q).held = [] ∧ (t.quay q).replays = [] ∧ (t.quay q).through = [] ∧
        t.laneOut = s.laneOut.lose q ∧ t.pod = { s.pod with reroute := true } ∧
        t.routes = s.routes.map fun e => (e.1, if e.2.primary == q then { e.2 with useAlt := true } else e.2))) ∧
  (∀ (s : State) (q l : Nat), l ∉ (s.quay q).dead → l < 32 → (s.spareFor q l = none ↔ s.unusedSpares q = []) ∧
    (s.get QUY_STATUS_SPARES_LEFT q = 2 → 32 ∉ (s.quay q).dead → 33 ∉ (s.quay q).dead → s.spareFor q l = some 32) ∧
    ∀ k, s.spareFor q l = some k → (k = 32 ∨ k = 33) ∧ k ∉ (s.quay q).dead) ∧
  (∀ (s : State) (q c : Nat), Live s → q < 16 → (s.quay q).st ∉ [QuayState.down, .stopped, .failed] → 1 ≤ c → c ≤ 4 →
    (c = 1 → s.get QUY_STATUS_WIDTH q < 24) → Runs (.quayFail q c) s fun t => t.quay q = { (s.quay q).emptied with st := .failed, keyed := false } ∧
      (∀ m, m ≠ q → t.quay m = s.quay m) ∧ t.pod = { s.pod with reroute := true } ∧ t.laneOut = s.laneOut.lose q ∧
      t.routes = (s.routes.map fun e => (e.1, if e.2.primary == q then { e.2 with useAlt := true } else e.2)) ∧
      t.get QUY_STATUS_KEY_FAILS q = (if c = 2 then min (s.get QUY_STATUS_KEY_FAILS q + 1) 0xFFFF else s.get QUY_STATUS_KEY_FAILS q) ∧
      (s.get QUY_POD_CTL_IN_POD 0 ≠ 0 → s.isMaster = false → ∃ u ∈ t.unacked, u.dst = s.podMaster ∧ u.msg = .quayFailed s.me q) ∧
      t.jobs = s.jobs ∧ t.mem = s.mem ∧ t.streams = s.streams) ∧
  (∀ (s : State) (q : Nat), 24 ≤ s.get QUY_STATUS_WIDTH q → exec (.quayFail q 1) s = .next s)

/-- Stopping, training and mating (R492 to R494, R500, R503, R643): a quay that no tide holds stops at once, when the frames in its link buffers have come in, and its routes take their alternates; with a tide it stops at the
next boundary; a quay that trains and is keyed is UP with its frame counters at 0 and its lanes counted; one whose keying fails has failed (KEY_FAILS); an
unused one stays DOWN; a failed quay whose connector is mated again trains. -/
def Obligations.QuaysStopTrainAndReconnect : Prop :=
  (∀ (s : State) (q : Nat), HostUp s → q < 16 → s.get QUY_CTL_STOPPED q = 0 →
    (s.get HMR_TIDE_STATUS_RUNNING 0 ≠ 0 → exec (.quayStop q) s = .next
      { (s.put QUY_CTL_STOP q 1).putQuay q { s.quay q with stopping := true } with pod := { s.pod with reroute := true } }) ∧
    (s.get HMR_TIDE_STATUS_RUNNING 0 = 0 → Runs (.quayStop q) s fun t =>
      (t.quay q).st = .stopped ∧ (t.quay q).stopping = false ∧ (t.quay q).keyed = false ∧ (t.quay q).held = [] ∧ (t.quay q).replays = [] ∧
      (t.quay q).through = [] ∧ (t.quay q).dead = (s.quay q).dead ∧ t.get QUY_CTL_STOP q = 1 ∧ t.get QUY_CTL_STOPPED q = 1 ∧
      t.routes = (s.routes.map fun e => (e.1, if e.2.primary == q then { e.2 with useAlt := true } else e.2)) ∧ t.jobs = s.jobs ∧ t.mem = s.mem ∧
      ((s.quay q).held = [] → (∀ m, m ≠ q → t.quay m = s.quay m) ∧ KeepsFieldsBut s t [QUY_CTL_STOP.key q, QUY_CTL_STOPPED.key q] ∧
        t = { s with flds := t.flds, quays := t.quays, routes := t.routes, laneOut := s.laneOut.lose q }) ∧
      (∀ l n, (s.quay q).st = .up → (s.quay q).held = [(l, n, [])] → (s.quay q).counterFits l n = true → t.out = s.out ++ [.deliver q l n]))) ∧
  (∀ (s : State) (q : Nat) (k : Bool), HostUp s → q < 16 → (s.quay q).st = .up → exec (.quayTrain q k) s = .next
    (((s.put QUY_CTL_STOP q 0).put QUY_CTL_STOPPED q 0).putQuay q { s.quay q with stopping := false })) ∧
  (∀ (s : State) (q : Nat), HostUp s → q < 16 → (s.quay q).st ≠ .up →
    (s.get QUY_PEER_UNUSED q = 0 → Runs (.quayTrain q true) s fun t =>
      t.quay q = { (s.quay q).emptied with st := .up, keyed := true, txFrames := [], rxFrames := [], stopping := false } ∧
      (∀ m, m ≠ q → t.quay m = s.quay m) ∧ t.get QUY_CTL_STOP q = 0 ∧ t.get QUY_CTL_STOPPED q = 0 ∧
      t.get QUY_STATUS_WIDTH q = min 32 (34 - (s.quay q).dead.length) ∧ t.pod.reroute = true ∧
      (s.pod.joining = true → s.pod.requested = false → t.quaysReady = true → t.pod.requested = true ∧
        ∃ u ∈ t.unacked, u.dst = s.get QUY_POD_CFG_MASTER_ID 0 ∧ u.msg = .join s.me) ∧ t.jobs = s.jobs ∧ t.mem = s.mem) ∧
    (s.get QUY_PEER_UNUSED q = 0 → Runs (.quayTrain q false) s fun t => (t.quay q).st = .failed ∧ (t.quay q).keyed = false ∧
      t.get QUY_STATUS_KEY_FAILS q = min (s.get QUY_STATUS_KEY_FAILS q + 1) 0xFFFF ∧ t.jobs = s.jobs ∧ t.mem = s.mem) ∧
    (s.get QUY_PEER_UNUSED q ≠ 0 → ∀ k, Runs (.quayTrain q k) s fun t => t.quay q = { s.quay q with st := .down, stopping := false } ∧
      t = { s with flds := t.flds, quays := t.quays })) ∧
  (∀ (s : State) (q : Nat), Live s → q < 16 → (s.quay q).st = .failed ∨ (s.quay q).st = .training → s.get QUY_CTL_STOP q = 0 →
    s.get QUY_PEER_UNUSED q = 0 → Runs (.quayReconnect q true) s fun t => (t.quay q).st = .up ∧ (t.quay q).keyed = true ∧
      (t.quay q).rxFrames = [] ∧ (t.quay q).txFrames = [] ∧ (∀ m, m ≠ q → t.quay m = s.quay m) ∧ t.jobs = s.jobs ∧ t.mem = s.mem)

/-- Blocks, frames, lanes and what is sent again (R212, R485 to R489, R491, R492, R494, R498): a good block that closes a frame delivers it, unless an earlier block
of its lane is to be replayed, and its blocks for other devices go to the quay on the route to each, counted against the quay budget; a corrected one is counted; a
bad one is asked for again, up to eight times; a frame whose tag or counter fails fails the quay. A lane sends VC0 first, VC2 once in sixteen blocks, then VC1 and VC2,
within the credit of each, and idle blocks close a partial frame. Lost reads, landed writes and unacknowledged VC0 messages are sent again, until
they are acknowledged end to end. A direction takes a new key after 2³¹ frames; that they are counted over all its lanes is an inference (log 135). That FRAME_IDLE_CLOSE stands for a lane's sending is the model's choice (log 127). -/
def Obligations.BlocksFramesAndResends : Prop :=
  (∀ (s : State) (q v k : Nat), (k = 0 → s.creditBack q v k = s) ∧ (k ≠ 0 → s.creditBack q v k =
    s.putQuay q { s.quay q with spent := Tab.insert v (Tab.get (fun _ => 0) (s.quay q).spent v - k) (s.quay q).spent })) ∧
  (∀ (s : State) (q l n v k : Nat), Live s → q < 16 → l < 34 → n < 4096 → (s.quay q).st = .up →
    let w := s.creditBack q v k
    let y := w.quay q
    let passed := y.replays.filter fun r => !(r.1 == l && r.2.1 == n)
    let frames := Tab.insert l (Tab.get (fun _ => 0) y.rxFrames l + 1) y.rxFrames
    let waits := ∃ r ∈ y.replays, r.1 = l ∧ seqBefore r.2.1 n = true
    (l ∉ (s.quay q).dead →
      (y.held = [] → ¬ waits → y.counterFits l n = true → Runs (.blockReceive q l n 0 ⟨true, [], v, k⟩) s fun t =>
        t.quay q = { y with replays := passed, rxFrames := frames, held := [] } ∧ t.out = s.out ++ [.deliver q l n] ∧
        (∀ m, m ≠ q → t.quay m = s.quay m) ∧ t = { s with quays := t.quays, out := t.out }) ∧
      (∀ d c, y.held = [] → ¬ waits → y.counterFits l n = true → s.quayTo d ≠ q → s.quayUp (s.quayTo d) = true →
        Runs (.blockReceive q l n 0 ⟨true, [(d, c)], v, k⟩) s fun t =>
          t.quay (s.quayTo d) = { s.quay (s.quayTo d) with through := (s.quay (s.quayTo d)).through ++ [(s.out.length, c)] } ∧
          t.quay q = { y with replays := passed, rxFrames := frames, held := [] } ∧ t.out = s.out ++ [.deliver q l n] ∧
          t.counts = { s.counts with forwarded := s.counts.forwarded + 256 } ∧ (∀ m, m ≠ q → m ≠ s.quayTo d → t.quay m = s.quay m) ∧
          t = { s with quays := t.quays, out := t.out, counts := t.counts }) ∧
      (∀ b, y.held = [] → ¬ waits → y.counterFits l n = false → Runs (.blockReceive q l n 0 ⟨true, b, v, k⟩) s fun t =>
        (t.quay q).st = .failed ∧ (t.quay q).keyed = false ∧ t.jobs = s.jobs ∧ t.mem = s.mem) ∧
      (∀ b, y.held = [] → waits → Runs (.blockReceive q l n 0 ⟨true, b, v, k⟩) s fun t =>
        t.quay q = { y with replays := passed, held := [(l, n, b)] } ∧ (∀ m, m ≠ q → t.quay m = s.quay m) ∧ t = { s with quays := t.quays }) ∧
      (∀ b c, exec (.blockReceive q l n 1 ⟨b, c, v, k⟩) s = exec (.blockReceive q l n 0 ⟨b, c, v, k⟩) (s.inc QUY_BLOCKS_CORRECTED_COUNT q 1)) ∧
      (∀ b c, (s.quay q).replaysOf l n < 8 → exec (.blockReceive q l n 2 ⟨b, c, v, k⟩) s = .next
        ((s.putQuay q { s.quay q with replays := (l, n, (s.quay q).replaysOf l n + 1) ::
          ((s.quay q).replays.filter fun r => !(r.1 == l && r.2.1 == n)) }).send (.replayRequest q l n))) ∧
      (∀ b c, 8 ≤ (s.quay q).replaysOf l n → exec (.blockReceive q l n 2 ⟨b, c, v, k⟩) s = .next (s.laneFails q l 2)) ∧
      (∀ b c, exec (.blockReceive q l n 3 ⟨b, c, v, k⟩) s = .next (s.quayFails q 3))) ∧
    exec (.replayRequest q l n) s = .next ((s.inc QUY_REPLAYS_COUNT q 1).send (.replayBlock q l n)) ∧
    (∀ f b, b < 16 → let u := s.sendBlocks q l (16 * f + b)
      let out := u.putQuay q { u.quay q with
        txFrames := Tab.insert l (Tab.get (fun _ => 0) (u.quay q).txFrames l + (f + if b = 0 then 0 else 1)) (u.quay q).txFrames }
      let closed := if b = 0 then out else out.send (.idleBlocks q l (16 - b))
      ((closed.quay q).framesSent < 2 ^ 31 → exec (.frameIdleClose q l f b) s = .next closed) ∧
      (2 ^ 31 ≤ (closed.quay q).framesSent → exec (.frameIdleClose q l f b) s = .next
        ((closed.putQuay q { closed.quay q with txFrames := [] }).send (.newKey q)))) ∧
    exec (.linkRekey q true) s = .next ((s.putQuay q { s.quay q with txFrames := [] }).send (.newKey q)) ∧
    exec (.linkRekey q false) s = .next ((s.putQuay q { s.quay q with rxFrames := [] }).send (.newKey q))) ∧
  (∀ (s : State) (q l n : Nat), let sendable (c : Nat) (w : Waiting) := w ∈ s.laneHeads q ∧ w.vc = c ∧ Tab.get (fun _ => 0) (s.quay q).spent c < vcCredit c
    (s.nextBlock q l = none → s.sendBlocks q l n = s) ∧
    (∀ w, s.nextBlock q l = some w → s.sendBlocks q l (n + 1) = (s.sendBlock q l w).sendBlocks q l n ∧ sendable w.vc w ∧
      (w.vc ≤ 2 → (s.sendBlock q l w).out = s.out ++ [.block q l w.vc w.message] ∧
        Tab.get (fun _ => 0) ((s.sendBlock q l w).quay q).spent w.vc = Tab.get (fun _ => 0) (s.quay q).spent w.vc + 1 ∧
        (∀ i, w.message = some i → w.blocks ≤ 1 → i ∈ (s.sendBlock q l w).laneOut.sent) ∧
        (∀ i, w.message = some i → 1 < w.blocks → ∃ j, (i, q, j + 1) ∈ (s.sendBlock q l w).laneOut.part))) ∧
    (∀ x, sendable 2 x → 15 ≤ Tab.get (fun _ => 0) (s.quay q).sinceVc2 l → ∃ w, s.nextBlock q l = some w ∧ w.vc = 2) ∧
    ((∀ x, ¬ sendable 2 x) ∨ Tab.get (fun _ => 0) (s.quay q).sinceVc2 l < 15 →
      (∀ x, sendable 0 x → ∃ w, s.nextBlock q l = some w ∧ w.vc = 0) ∧
      (∀ x, sendable 1 x → (∀ z, ¬ sendable 0 z) → ∃ w, s.nextBlock q l = some w ∧ w.vc = 1))) ∧
  (∀ (s : State) (n i : Nat) (u : SUnit), Live s → (s.stream n).unitAt i = some u →
    let x := s.stream n
    (x.srcRemote = true → u.st = .inFlight → exec (.remoteReadTimeout n i) s = .next
      (s.send (.net x.device (classVc x.cls) (.readRequest n u.seq u.src u.len u.dry.1 u.dry.2 x.cls x.rank)))) ∧
    (x.dstKind = 2 → u.st = .landed → exec (.remoteReadTimeout n i) s = .next
      ((x.writeMsgs n u).foldl (fun t m => t.send m) s))) ∧
  (∀ s : State, Live s → exec .vc0Resend s = .next { s with out := s.out ++ s.unacked.map fun m => Msg.net m.dst 0 m.msg }) ∧
  (∀ (s : State) (d n : Nat), Live s →
    (s.unacked.find? (fun m => m.number == n && m.dst == d) = none → exec (.endToEndAck d n) s = .next s) ∧
    (∀ m, s.unacked.find? (fun m => m.number == n && m.dst == d) = some m →
      let t : State := { s with unacked := s.unacked.filter fun x => x.number != n }
      (s.isMaster = false ∨ (∀ e, m.msg ≠ .notice e) → exec (.endToEndAck d n) s = .next t) ∧
      (∀ e, s.isMaster = true → m.msg = .notice e → exec (.endToEndAck d n) s = .next (t.noticeAcked e.cons d))))

/-- Remote streams and peers (R206, R212, R213, R523): a read of a peer's stream waits until the arbiters that it meets serve it, and is answered
with the bytes; a write within its reservation is written and acknowledged, one beyond
it freezes the peer with cause 2; a frozen peer is named in `QUY_FREEZE_LAST`, is counted, and hears nothing on VC1 and VC2. -/
def Obligations.RemoteStreamsAndPeerFreezes : Prop :=
  (∀ (s v w : State) (d n u a len dry rate c k : Nat) (bs : List Byte), s.hears d = true → c < 4 →
    let r : Request := ⟨(dry, rate), c, k, n, d, s.seq⟩
    (s.serveRead r a = none → exec (.remoteStreamRead d n u a len ⟨dry, rate, c, k⟩) s = .next s) ∧
    (s.serveRead r a = some v → v.read { cls := some c } a len = .ok (bs, w) → exec (.remoteStreamRead d n u a len ⟨dry, rate, c, k⟩) s = .next
      (w.send (.net d (if c < 2 then 1 else 2) (.readData n u dry rate c k bs))))) ∧
  (∀ (s w : State) (d n u a c : Nat) (bs : List Byte), s.hears d = true → c < 4 →
    (bs.length ≤ 1024 * s.heldFor d n → s.write { cls := some c } a bs = .ok w →
      exec (.remoteStreamWrite d n u a c bs) s = .next (w.send (.net d (if c < 2 then 1 else 2) (.writeAck n u)))) ∧
    (1024 * s.heldFor d n < bs.length → exec (.remoteStreamWrite d n u a c bs) s = .next (s.freezePeer d 2))) ∧
  (∀ (s : State) (d c : Nat), Live s → d < 4096 → 1 ≤ c → c ≤ 4 → Runs (.peerViolation d c) s fun t =>
    t.peer d = { s.peer d with frozen := true } ∧ (∀ e, e ≠ d → t.peer e = s.peer e) ∧ t.get QUY_FREEZE_LAST_PEER 0 = d ∧
    t.get QUY_FREEZE_LAST_CAUSE 0 = c ∧ t.get QUY_FREEZE_LAST_VALID 0 = 1 ∧
    KeepsFieldsBut s t [QUY_FREEZE_LAST_PEER.key 0, QUY_FREEZE_LAST_CAUSE.key 0, QUY_FREEZE_LAST_VALID.key 0, HMR_SCHED_EVENTS_FREEZES.key 0] ∧
    t = { s with flds := t.flds, peers := t.peers } ∧ (∀ m, (t.send (.net d 1 m)).out = t.out ∧ (t.send (.net d 2 m)).out = t.out))

/-- Forming, joining and leaving a pod (R490, R502 to R504, R506, R44, R567, Table 14.9): the pod master forms the pod of one device with its tide at 0; another device asks
once its quays are ready and asks again when it is refused; the master refuses with the first reason that applies, or raises the generation and admits the
device at the next boundary; an answer that admits starts the tide; a Blank or Returned device does not join; a leaving device goes once its jobs are done, and the master removes it and tells the others. -/
def Obligations.PodsFormJoinAndLeave : Prop :=
  (∀ (s : State) (a : Option JoinAnswer), HostUp s → lcJoins s.cus.lifecycle = false → exec (.podJoin a) s = .next (s.put QUY_POD_CTL_JOIN 0 1)) ∧
  (∀ s : State, HostUp s → s.get QUY_POD_CTL_IN_POD 0 = 0 → lcJoins s.cus.lifecycle = true →
    (s.get QUY_POD_CFG_ROLE 0 = 1 → ∀ a, Runs (.podJoin a) s fun t => t.get QUY_POD_CTL_JOIN 0 = 1 ∧ t.get QUY_POD_CTL_IN_POD 0 = 1 ∧
      t.tide = 0 ∧ t.get HMR_TIDE_STATUS_RUNNING 0 = 1 ∧ t.get QUY_POD_SIZE_DEVICES 0 = 1 ∧ t.get QUY_POD_SIZE_LEVELS 0 = 0 ∧
      t.get QUY_POD_SIZE_MASTER 0 = s.me % 4096 ∧ t.get QUY_POD_SIZE_NO_STANDBY 0 = 1 ∧
      t.pod = { members := [s.me], tree := [s.me] } ∧ t = { s with flds := t.flds, pod := t.pod }) ∧
    (s.get QUY_POD_CFG_ROLE 0 ≠ 1 → s.quaysReady = false → exec (.podJoin none) s = .next
      { s.put QUY_POD_CTL_JOIN 0 1 with pod := { s.pod with joining := true } }) ∧
    (s.get QUY_POD_CFG_ROLE 0 ≠ 1 → s.quaysReady = true → s.pod.requested = false → exec (.podJoin none) s = .next
      ({ s.put QUY_POD_CTL_JOIN 0 1 with pod := { s.pod with joining := true, requested := true } }.sendVc0
        (s.get QUY_POD_CFG_MASTER_ID 0) (.join s.me)))) ∧
  (∀ s : State, Live s → s.get QUY_POD_CTL_IN_POD 0 = 0 → s.pod.joining = true → s.pod.requested = true → s.get QUY_POD_CTL_JOIN_RESULT 0 ≠ 0 →
    let asked := s.sendVc0 (s.get QUY_POD_CFG_MASTER_ID 0) (.join s.me)
    exec (.joinRetry none) s = .next asked ∧
    (∀ a, a.code ≠ 0 → exec (.joinRetry (some a)) s = .next (asked.put QUY_POD_CTL_JOIN_RESULT 0 a.code)) ∧
    (∀ a, a.code = 0 → Runs (.joinRetry (some a)) s fun t => t.get QUY_POD_CTL_IN_POD 0 = 1 ∧ t.get HMR_TIDE_STATUS_RUNNING 0 = 1 ∧
      t.tide = a.tide % 2 ^ 64 ∧ t.get QUY_POD_GEN_GENERATION 0 = a.gen % 2 ^ 32 ∧ t.podMaster = a.size / 2 ^ 32 % 4096 ∧
      t.get QUY_POD_SIZE_DEVICES 0 = a.size % 8192 ∧ t.pod = { members := a.members, tree := treeOrder t.podMaster a.members } ∧
      (∀ d, t.peer d = if d ∈ a.members then { s.peer d with lastHeard := max (s.peer d).lastHeard t.tide, silent := false } else s.peer d) ∧
      t = { s with flds := t.flds, pod := t.pod, peers := t.peers, unacked := asked.unacked, nextVc0 := asked.nextVc0, out := asked.out })) ∧
  (∀ (s : State) (r : JoinRequest), Live s → s.inPod = true → s.isMaster = true → s.pod.leaderless = false →
    let refused (c : Nat) := exec (.joinRequest r) s = .next (s.sendVc0 r.device (.joinAnswer ⟨c, 0, 0, 0, []⟩))
    let gen := (s.get QUY_POD_GEN_GENERATION 0 + 1) % 2 ^ 32
    (r.periodSteps ≠ s.get HMR_TIDE_CFG_PERIOD_STEPS 0 → refused 1) ∧
    (r.periodSteps = s.get HMR_TIDE_CFG_PERIOD_STEPS 0 → r.podId ≠ s.get QUY_POD_CFG_POD_ID 0 → refused 2) ∧
    (r.periodSteps = s.get HMR_TIDE_CFG_PERIOD_STEPS 0 → r.podId = s.get QUY_POD_CFG_POD_ID 0 →
      (r.device ∈ s.liveMembers → refused 3) ∧ (r.device ∉ s.liveMembers → 4096 ≤ s.liveMembers.length → refused 4)) ∧
    (s.joinRefusal r ≠ 0 → refused (s.joinRefusal r)) ∧
    (s.joinRefusal r = 0 → r.grace = s.get HMR_EPOCH_CFG_GRACE_TIDES 0 ∧ s.attests r = true ∧ Runs (.joinRequest r) s fun t =>
      t.get QUY_POD_GEN_GENERATION 0 = gen ∧ KeepsFieldsBut s t [QUY_POD_GEN_GENERATION.key 0] ∧
      t.pod = { s.pod with arriving := s.pod.arriving ++ [r], reroute := true } ∧
      t.unacked = s.unacked ++ [⟨s.nextVc0, r.device, .joinAnswer ⟨0, s.tide, s.podSize, gen, s.liveMembers ++ [r.device]⟩⟩] ∧
      t = { s with flds := t.flds, pod := t.pod, unacked := t.unacked, nextVc0 := s.nextVc0 + 1, out := t.out })) ∧
  (∀ s : State, HostUp s →
    (s.pod.leave = false → s.inPod = true → exec .podLeave s = .next { s.put QUY_POD_CTL_JOIN 0 0 with pod := { s.pod with leave := true } }) ∧
    (s.pod.leave = false → s.inPod = false → exec .podLeave s = .next
      { s.put QUY_POD_CTL_JOIN 0 0 with pod := { s.pod with joining := false, requested := false } }) ∧
    (s.pod.leave = true → s.jobs ≠ [] → exec .podLeave s = .next (s.put QUY_POD_CTL_JOIN 0 0)) ∧
    (s.pod.leave = true → s.jobs = [] → Runs .podLeave s fun t => t.get QUY_POD_CTL_IN_POD 0 = 0 ∧ t.get HMR_TIDE_STATUS_RUNNING 0 = 0 ∧
      t.get QUY_POD_SIZE_DEVICES 0 = 0 ∧ t.pod = {} ∧ t.routes = [] ∧ t.unacked = s.unacked ++ [⟨s.nextVc0, s.podMaster, .leave s.me⟩] ∧
      t = { s with flds := t.flds, pod := {}, routes := [], unacked := t.unacked, nextVc0 := s.nextVc0 + 1, out := t.out })) ∧
  (∀ (s : State) (d : Nat), Live s → s.isMaster = true → s.isLive d = true →
    let gen := (s.get QUY_POD_GEN_GENERATION 0 + 1) % 2 ^ 32
    let removed : State := { s.put QUY_POD_GEN_GENERATION 0 gen with
      pod := { s.pod with leaving := s.pod.leaving ++ [d], reroute := true, silence := s.pod.silence.filter fun p => p.2 != d },
      out := s.out ++ [.broadcast (.lost d gen)] }
    exec (.leave d) s = .next removed ∧
    (s.pod.held = false → d ≠ s.me → s.neighbours d ≠ [] → (s.expects d = true → (s.peer d).lastHeard + 3 ≤ s.tide) → (∀ n ∈ s.neighbours d, (n, d) ∈ s.pod.silence) →
      exec (.deviceLost d) s = .next removed)) ∧
  (∀ (s : State) (d g : Nat), Live s → s.inPod = true → d ∉ s.pod.leaving → exec (.lostNotice d g) s = .next
    { s.put QUY_POD_GEN_GENERATION 0 (max g (s.get QUY_POD_GEN_GENERATION 0)) with pod := { s.pod with leaving := s.pod.leaving ++ [d] } }) ∧
  (∀ (s : State) (rs : List (Nat × Route)), Live s → s.inPod = true → s.isMaster = false → Runs (.routeTables rs) s fun t =>
    t.pod = { s.pod with members := (s.me :: s.podMaster :: rs.map (·.1)).dedup } ∧ t = { s with pod := t.pod, routes := t.routes, peers := t.peers } ∧
    (∀ d, t.peer d = if d ∈ rs.map (·.1) ∧ d ∉ s.pod.members then { s.peer d with lastHeard := max (s.peer d).lastHeard s.tide, silent := false }
      else s.peer d) ∧
    (∀ d, d ∉ rs.map (·.1) → Tab.find d t.routes = none) ∧
    ((rs.map (·.1)).Nodup → ∀ e ∈ rs, Tab.find e.1 t.routes =
      some { e.2 with useAlt := !s.quayUp e.2.primary || (s.quay e.2.primary).stopping }))

/-- Heartbeats, the standby and time (R505 to R508, R512, R513): a heartbeat is noted and ends a silence; two tides without one are reported to the pod master, or to
the standby when the master is silent; the mirror is kept; the standby takes over when every neighbour of the master is silent, repeats what is not confirmed, and names the lowest
member that may be standby; a marker's offset of at most 25 ns locks, one of at most 500 ns slips and is corrected by 8 ns, a greater one, or 16 tides without a marker, makes the device leave. -/
def Obligations.HeartbeatsTakeoverAndTime : Prop :=
  (∀ (s : State) (d n g : Nat), Live s → s.inPod = true → n ≤ s.tide + 1 → g < 2 ^ 32 → exec (.heartbeat d n g) s = .next
    { s.putPeer d { s.peer d with lastHeard := max (s.peer d).lastHeard n, silent := false } with
      pod := { s.pod with silence := s.pod.silence.filter fun p => p.2 != d } }) ∧
  (∀ (s : State) (d : Nat), Live s → s.inPod = true → s.pod.held = false → s.isLive d = true →
    let dst := if d = s.podMaster then s.get QUY_POD_SIZE_STANDBY 0 else s.podMaster
    let noted (r : Nat) : Pod := if (r, d) ∈ s.pod.silence then s.pod else { s.pod with silence := s.pod.silence ++ [(r, d)] }
    (s.expects d = true → (s.peer d).silent = false → (s.peer d).lastHeard + 2 ≤ s.tide →
      let t := s.putPeer d { s.peer d with silent := true }
      (dst ≠ s.me → exec (.heartbeatSilence d s.me) s = .next (t.sendVc0 dst (.silence d s.me))) ∧
      (dst = s.me → exec (.heartbeatSilence d s.me) s = .next { t with pod := noted s.me })) ∧
    (∀ r, r ≠ s.me → dst = s.me → exec (.heartbeatSilence d r) s = .next { s with pod := noted r })) ∧
  (∀ (s : State) (log : List Logged) (ms sb : List Nat) (ls : List Link) (z : Nat), Live s → s.inPod = true → s.isStandby = true →
    Runs (.masterMirror log ms sb ls z) s fun t => t.pod = { s.pod with mirror := log, members := ms, standbys := sb, links := ls } ∧
      t.get QUY_POD_SIZE_DEVICES 0 = z % 8192 ∧ t.podMaster = z / 2 ^ 32 % 4096 ∧ t.get QUY_POD_SIZE_STANDBY 0 = z / 2 ^ 48 % 4096 ∧
      t.get QUY_POD_SIZE_NO_STANDBY 0 = z / 2 ^ 27 % 2 ∧ t = { s with flds := t.flds, pod := t.pod }) ∧
  (∀ (s : State) (next : Option Nat), Live s → s.inPod = true → s.isStandby = true → s.me < 4096 → s.allSilent s.podMaster = true →
    Runs (.standbyTakeover next) s fun t => t.podMaster = s.me ∧
      t.get QUY_POD_GEN_GENERATION 0 = (s.get QUY_POD_GEN_GENERATION 0 + 1) % 2 ^ 32 ∧
      t.pod = { s.pod with leaving := s.pod.leaving ++ [s.podMaster], reroute := true } ∧ t.decisions = s.pod.mirror ∧
      (∀ m ∈ s.unacked, ({ m with dst := if m.dst = s.podMaster then s.me else m.dst } : Unacked) ∈ t.unacked) ∧
      (∀ l ∈ s.pod.mirror, (∀ v ∈ l.voters, v ∉ l.acked → ∃ u ∈ t.unacked, u.dst = v ∧ u.msg = .decision l.dec false) ∧
        ∀ d ∈ l.noticeTo, ∃ u ∈ t.unacked, u.dst = d ∧ u.msg = .notice l.dec) ∧
      Msg.broadcast (.takeover s.me) ∈ t.out ∧ t.jobs = s.jobs ∧ t.mem = s.mem ∧
      (let able (d : Nat) : Prop := d ∈ s.pod.standbys ∧ d ∈ s.pod.members ∧ d ∉ s.pod.leaving ∧ d ≠ s.podMaster ∧ d ≠ s.me
       ((∀ d, ¬ able d) → t.get QUY_POD_SIZE_NO_STANDBY 0 = 1) ∧
       (∀ d, able d → (∀ e, able e → d ≤ e) → t.get QUY_POD_SIZE_NO_STANDBY 0 = 0 ∧ t.get QUY_POD_SIZE_STANDBY 0 = d % 4096))) ∧
  (∀ (s : State) (d : Nat), Live s → s.inPod = true → s.hasStandby = true → s.isStandby = false → s.isMaster = false → d < 4096 →
    Runs (.standbyTakeover (some d)) s fun t => t.podMaster = s.get QUY_POD_SIZE_STANDBY 0 % 4096 ∧ t.get QUY_POD_SIZE_STANDBY 0 = d ∧
      t.get QUY_POD_SIZE_NO_STANDBY 0 = 0 ∧ t.get QUY_POD_GEN_GENERATION 0 = (s.get QUY_POD_GEN_GENERATION 0 + 1) % 2 ^ 32 ∧
      t.pod = { s.pod with leaving := s.pod.leaving ++ [s.podMaster] } ∧
      t.unacked = (s.unacked.map fun m => if m.dst == s.podMaster then { m with dst := s.get QUY_POD_SIZE_STANDBY 0 } else m) ∧
      t = { s with flds := t.flds, pod := t.pod, unacked := t.unacked }) ∧
  (∀ (s : State) (q n delay arr res : Nat), Live s → s.inPod = true → s.isMaster = false → (s.quay q).st = .up → s.get HMR_TIDE_STATUS_RUNNING 0 ≠ 0 →
    let hop := delay + s.get QUY_STATUS_DELAY_NS q
    let o : Int := (hop : Int) - arr + ((n : Int) - s.tide) * s.periodNs
    Runs (.timeMarker q n delay arr res) s fun t => t.jobs = s.jobs ∧ t.mem = s.mem ∧
      (∀ c ∈ childrenIn s.pod.tree s.me, Msg.net c 0 (.marker n (hop + res)) ∈ t.out) ∧
      (-32768 ≤ o → o ≤ 32767 → t.get HMR_TIDE_STATUS_OFFSET_NS 0 = (o % 65536).toNat) ∧
      (o.natAbs ≤ 25 → t.get HMR_TIDE_STATUS_LOCKED 0 = 1 ∧ t.get HMR_TIDE_STATUS_SLIP 0 = s.get HMR_TIDE_STATUS_SLIP 0 ∧
        t.pod = { s.pod with noMarker := 0, correction := -(o.tdiv 2) }) ∧
      (25 < o.natAbs → o.natAbs ≤ 500 → t.get HMR_TIDE_STATUS_LOCKED 0 = 0 ∧ t.get HMR_TIDE_STATUS_SLIP 0 = 1 ∧
        t.pod = { s.pod with noMarker := 0, correction := -8 * o.sign }) ∧
      (500 < o.natAbs → t.get HMR_TIDE_STATUS_LOCKED 0 = 0 ∧ t.get HMR_TIDE_STATUS_SLIP 0 = 1 ∧
        (s.jobs ≠ [] → t.pod = { s.pod with noMarker := 0, leave := true, withdrawn := true }) ∧
        (s.jobs = [] → t.pod = {} ∧ t.get QUY_POD_CTL_IN_POD 0 = 0 ∧ t.get HMR_TIDE_STATUS_RUNNING 0 = 0))) ∧
  (∀ s : State, Live s → s.inPod = true → s.isMaster = false → 16 ≤ s.pod.noMarker → s.pod.withdrawn = false → Runs .markerLossLeave s fun t =>
    t.get HMR_TIDE_STATUS_LOCKED 0 = 0 ∧ t.get HMR_TIDE_STATUS_SLIP 0 = 1 ∧ t.jobs = s.jobs ∧ t.mem = s.mem ∧
    (s.jobs ≠ [] → t.pod = { s.pod with leave := true, withdrawn := true } ∧ t.get HMR_TIDE_STATUS_RUNNING 0 = s.get HMR_TIDE_STATUS_RUNNING 0) ∧
    (s.jobs = [] → t.pod = {} ∧ t.get QUY_POD_CTL_IN_POD 0 = 0 ∧ t.get HMR_TIDE_STATUS_RUNNING 0 = 0)) ∧
  (∀ (s : State) (q r : Nat), Live s → q < 16 → (s.quay q).st = .up →
    exec (.delayProbe q r) s = .next (s.put QUY_STATUS_DELAY_NS q (min (r / 2) 0xFFFF)))

/-- Collectives and snapshots (R515 to R519, R521): a channel whose entry is refused is not enabled and shows BAD; one that is enabled keeps its entry; a round opens once
every mask bit of the gate is set, clearing them; a leaf sends its contribution up, a root that stands alone has the result; results go down the tree; a round that
ends writes the result and sets the done bit; senders that disagree fail the channel; a snapshot asked for too late is refused, one that is cut is written device by device. -/
def Obligations.CollectivesAndSnapshots : Prop :=
  (∀ (s : State) (c : Nat), HostUp s → c < 64 →
    (s.coll c = none → s.collEntry c = none → exec (.collectiveChannelEnable c) s = .next
      ((s.putBitAt QUY_COLL_EN_ENABLE 0 c false).putBitAt QUY_COLL_STATUS_LO_BAD 0 c true)) ∧
    (∀ e, s.coll c = none → s.collEntry c = some e → Runs (.collectiveChannelEnable c) s fun t =>
      t.coll c = some ⟨e, 0, false, false, false, [], [], s.scopeTree e⟩ ∧ (∀ d, d ≠ c → t.coll d = s.coll d) ∧
      t.bitAt QUY_COLL_EN_ENABLE 0 c = true ∧ t.bitAt QUY_COLL_STATUS_LO_BAD 0 c = false ∧ t.collFailed c = false ∧
      KeepsFieldsBut s t [QUY_COLL_EN_ENABLE.key 0, QUY_COLL_STATUS_LO_BAD.key 0, QUY_COLL_STATUS_HI_FAILED.key 0] ∧
      t = { s with flds := t.flds, colls := t.colls }) ∧
    (∀ x, s.coll c = some x → exec (.collectiveChannelEnable c) s = .next
      ((s.putColl c { x with disabling := false }).putBitAt QUY_COLL_EN_ENABLE 0 c true)) ∧
    (s.coll c = none → exec (.collectiveChannelDisable c) s = .next (s.putBitAt QUY_COLL_EN_ENABLE 0 c false)) ∧
    (∀ x, s.coll c = some x → x.running = true → exec (.collectiveChannelDisable c) s = .next
      ((s.putBitAt QUY_COLL_EN_ENABLE 0 c false).putColl c { x with disabling := true })) ∧
    (∀ x, s.coll c = some x → x.running = false → exec (.collectiveChannelDisable c) s = .next
      { s.putBitAt QUY_COLL_EN_ENABLE 0 c false with colls := Tab.erase c s.colls })) ∧
  (∀ (s w : State) (c : Nat) (x : Coll) (bs : List Byte), Live s → s.inPod = true → s.bitAt QUY_COLL_EN_ENABLE 0 c = true →
    s.collFailed c = false → s.coll c = some x → x.running = false → s.read {} x.entry.gate 8 = .ok (bs, w) →
    (leNat bs &&& x.entry.mask ≠ x.entry.mask → exec (.collectiveRoundOpen c) s = .next w) ∧
    (∀ data v u, leNat bs &&& x.entry.mask = x.entry.mask → w.contribution x.entry = .ok (data, v) →
      v.write {} (viewStep * 2 + x.entry.gate) (leBytes 8 x.entry.mask) = .ok u → x.heard = [] → x.results = [] →
      (x.entry.op ≠ 2 → childrenIn (u.scopeTree x.entry) u.me = [] → ∀ p, parentIn (u.scopeTree x.entry) u.me = some p →
        exec (.collectiveRoundOpen c) s = .next
          ((u.putColl c { x with running := true, sent := true, tree := u.scopeTree x.entry }).sendVc0 p (.collUp c x.round u.me data))) ∧
      (x.entry.op = 1 ∨ x.entry.op = 4 → childrenIn (u.scopeTree x.entry) u.me = [] → parentIn (u.scopeTree x.entry) u.me = none →
        exec (.collectiveRoundOpen c) s = .next (u.putColl c { x with
          running := true, sent := true, tree := u.scopeTree x.entry, results := [(x.round, data)] })) ∧
      (x.entry.op = 2 → x.entry.root ≠ u.me → exec (.collectiveRoundOpen c) s = .next
        (u.putColl c { x with running := true, sent := true, tree := u.scopeTree x.entry })) ∧
      (x.entry.op = 2 → x.entry.root = u.me → Runs (.collectiveRoundOpen c) s fun t => t.mem = u.mem ∧
        t.coll c = some { x with running := true, sent := true, tree := u.scopeTree x.entry, results := [(x.round, data)] } ∧
        ∀ d ∈ u.around (u.scopeTree x.entry), ∃ m ∈ t.unacked, m.dst = d ∧ m.msg = .collDown c x.round data))) ∧
  (∀ (s : State) (c r d : Nat) (x : Coll) (bs : List Byte), Live s → s.inPod = true → s.collFailed c = false → s.coll c = some x → r < 65536 →
    (∀ down, x.repeats r down = true → exec (.collectiveMessage c r d down true bs) s = .next s) ∧
    (∀ down, x.repeats r down = true ↔ 32768 ≤ (r + 65536 - x.round) % 65536 ∨ (down = false ∧ x.running = true ∧ x.sent = true ∧ r = x.round)) ∧
    ((r + 65536 - x.round) % 65536 < 32768 → x.result r = none → Runs (.collectiveMessage c r d true true bs) s fun t =>
      t.coll c = some { x with results := x.results ++ [(r, bs)] } ∧ (∀ e, e ≠ c → t.coll e = s.coll e) ∧
      (x.entry.op = 1 ∨ x.entry.op = 4 → ∀ k ∈ childrenIn (s.roundTree x r) s.me, ∃ u ∈ t.unacked, u.dst = k ∧ u.msg = .collDown c r bs) ∧
      (x.entry.op = 2 → ∀ k ∈ s.around (s.roundTree x r), k ≠ d → ∃ u ∈ t.unacked, u.dst = k ∧ u.msg = .collDown c r bs) ∧
      (x.entry.op = 3 → t.unacked = s.unacked) ∧ t = { s with colls := t.colls, unacked := t.unacked, nextVc0 := t.nextVc0, out := t.out }) ∧
    ((r + 65536 - x.round) % 65536 < 32768 → x.from' r d = none → x.running = false → exec (.collectiveMessage c r d false true bs) s = .next
      (s.putColl c { x with heard := x.heard ++ [(r, d, bs)] })) ∧
    Runs (.collectiveMessage c r d true false bs) s (fun t => t.collFailed c = (decide (c < 64)) ∧ t.coll c = some { x with running := false } ∧
      (∀ e, e ≠ c → t.coll e = s.coll e) ∧ t.mem = s.mem ∧ t.jobs = s.jobs)) ∧
  (∀ (a b : List Byte) (i : Nat), a.length = 4 * i → combine 2 a b = (List.range i).flatMap (fun k =>
    leBytes 4 ((fieldOf a (4 * k) 4 + fieldOf b (4 * k) 4) % 2 ^ 32))) ∧
  (∀ (s w u : State) (c : Nat) (x : Coll), Live s → s.collFailed c = false → s.coll c = some x → s.roundComplete x = true →
    (match s.resultHere x with | some bs => s.write {} x.entry.dst bs | none => .ok s) = .ok w →
    w.write {} (viewStep + x.entry.done) (leBytes 8 (2 ^ x.entry.doneBit)) = .ok u →
    (x.disabling = true → exec (.collectiveRoundComplete c) s = .next { u with colls := Tab.erase c u.colls }) ∧
    (x.disabling = false → exec (.collectiveRoundComplete c) s = .next (u.putColl c { x with
      running := false, sent := false, round := (x.round + 1) % 65536, results := x.results.filter fun r => r.1 != x.round }))) ∧
  (∀ (s : State) (cut dest : Nat), cut < 2 ^ 64 → dest < 2 ^ 48 →
    (HostUp s → s.inPod = true → s.isMaster = true → s.pod.leaderless = false → s.pod.snapshot = none → snapDest dest = true →
      let t := (s.put QUY_SNAP_CTL_LO_CUT_TIDE 0 cut).put QUY_SNAP_CTL_HI_DEST 0 dest
      (cut ≤ s.tide → exec (.snapshotRequest cut dest) s = .next ((t.put QUY_SNAP_CTL_HI_LATE 0 1).put QUY_SNAP_CTL_HI_DONE 0 1)) ∧
      (s.tide < cut → exec (.snapshotRequest cut dest) s = .next { t with
        pod := { s.pod with snapshot := some ⟨cut, dest, none⟩, cuts := s.pod.cuts ++ [(cut, dest)] },
        out := s.out ++ [.broadcast (.snapRequest cut)] })) ∧
    (Live s → s.inPod = true → s.isMaster = false → s.tide < cut → exec (.snapshotRequest cut dest) s = .next
      { s with pod := { s.pod with cuts := s.pod.cuts ++ [(cut, dest)] } })) ∧
  (∀ (s : State) (n : Snapshot) (bs : List Byte) (rs : List (Nat × List Byte)), Live s → s.isMaster = true → s.pod.snapshot = some n → n.own = some bs →
    let w := (sortNat s.pod.members).zipIdx.foldl (fun t p => t.devWrite (n.dest + 256 * p.2) (n.recordOf s.me p.1 rs)) s
    exec (.snapshotRecordsWritten rs) s = .next ({ w with pod := { w.pod with snapshot := none } }.put QUY_SNAP_CTL_HI_DONE 0 1) ∧
    n.recordOf s.me s.me rs = (bs ++ List.replicate 256 0).take 256 ∧
    (∀ d, d ≠ s.me → (∀ r ∈ rs, r.1 ≠ d) →
      n.recordOf s.me d rs = leBytes 8 n.cut ++ leBytes 2 (d + 0x8000) ++ List.replicate 246 0))

/-- Attestation over SPDM (R568 to R570, Tables 14.7 and 14.8): the version, the capabilities and the algorithms are negotiated in that order, and what needs more than was
negotiated is UNEXPECTED; digests, certificate portions, challenges and measurements are answered with fresh values; four sessions may be held; a session is
finished, kept, updated and ended on the transport that opened it; large messages go in chunks in order. Codes are those of log 42. -/
def Obligations.SpdmIsNegotiatedAndAnswered : Prop :=
  ∀ (s : State) (p : Nat), s.customsUp = true → p < 4 →
    let x := s.cus
    let err (c : Nat) : State := s.send (.spdm p 0x7F [c])
    let tells (c : Customs) (code : Nat) (l : List Nat) : State := { s with cus := c, out := s.out ++ [.spdm p code l] }
    exec (.getVersion p) s = .next (tells (x.setLevel p 1) 0x04 [0x13, 0x12]) ∧
    (1 ≤ x.level p → exec (.getCapabilities p) s = .next (tells (x.setLevel p (max 2 (x.level p))) 0x61 [spdmCaps])) ∧
    (2 ≤ x.level p → exec (.negotiateAlgorithms p) s = .next (tells (x.setLevel p 3) 0x63 [0x80, 0x02, 0x10, 0x02])) ∧
    (x.level p < 1 → exec (.getCapabilities p) s = .next (err 0x04)) ∧ (x.level p < 2 → exec (.negotiateAlgorithms p) s = .next (err 0x04)) ∧
    (x.level p < 3 → ∀ a b c ok l bs, ∀ m ∈ [Instr.getDigests p, .getCertificate p a b c, .challenge p a b, .getMeasurements p a b ok, .keyExchange p ok,
      .finish p a ok, .heartbeatSpdm p a, .keyUpdate p a, .endSession p a, .chunkSend p a l bs, .chunkGet p a], exec m s = .next (err 0x04)) ∧
    (3 ≤ x.level p →
      exec (.getDigests p) s = .next (tells x 0x01 [0x3, x.chainDigest 0, x.chainDigest 1]) ∧
      (∀ slot o n, (slot ≤ 1 → o ≤ Config.certBytes slot → exec (.getCertificate p slot o n) s = .next (tells x 0x02
          ([slot, min n (Config.certBytes slot - o), Config.certBytes slot - o - min n (Config.certBytes slot - o)] ++
            (List.range (min n (Config.certBytes slot - o))).map fun i => (Config.cryptoByte slot (x.chainOf slot) (o + i)).toNat))) ∧
        (1 < slot ∨ Config.certBytes slot < o → exec (.getCertificate p slot o n) s = .next (err 0x01))) ∧
      (∀ slot n, slot ≤ 1 →
        let answer := [slot, x.chainDigest slot, Config.drawn x.drawn 0, digestOf s.measurements]
        exec (.challenge p slot n) s = .next (tells { x with drawn := x.drawn + 2 } 0x03
          (answer ++ [Config.drawn (x.drawn + 1) (digestOf (n :: answer))]))) ∧
      (∀ i n, i ≤ 9 →
        let answer := (if i = 0 then [10] else s.measurement i) ++ [Config.drawn x.drawn 0]
        exec (.getMeasurements p i n false) s = .next (tells { x with drawn := x.drawn + 1 } 0x60 answer) ∧
        exec (.getMeasurements p i n true) s = .next (tells { x with drawn := x.drawn + 2 } 0x60
          (answer ++ [Config.drawn (x.drawn + 1) (digestOf (n :: answer))]))) ∧
      (∀ n b, Runs (.getMeasurements p 0xF0 n b) s fun t => t.out = s.out ++ [.spdm p 0x7F [0x0F]] ∧
        ((t.cus.partsOut p).flatten.length = 4627 ∧ t.cus.sessions = x.sessions)) ∧
      (4 ≤ x.sessions.length → ∀ b, exec (.keyExchange p b) s = .next (err 0x0A)) ∧
      (x.sessions.length < 4 → ∀ b, exec (.keyExchange p b) s = .next (tells { x with
          drawn := x.drawn + 2, sessions := x.sessions ++ [⟨x.nextSession, p, false, b, 0⟩], nextSession := x.nextSession + 1 } 0x64
        [x.nextSession, Config.drawn x.drawn 0, Config.drawn (x.drawn + 1) (Config.drawn x.drawn 0)])) ∧
      (∀ n y, x.session n = some y → y.transport = p →
        (y.finished = false → exec (.finish p n true) s = .next (tells (x.putSession { y with finished := true }) 0x65 [n]) ∧
          exec (.finish p n false) s = .next (tells (x.dropSession n) 0x7F [0x06])) ∧
        (y.finished = true → exec (.finish p n true) s = .next (err 0x04) ∧ exec (.heartbeatSpdm p n) s = .next (tells x 0x68 [n]) ∧
          exec (.keyUpdate p n) s = .next (tells (x.putSession { y with updates := y.updates + 1 }) 0x69 [n]) ∧
          exec (.endSession p n) s = .next (tells (x.dropSession n) 0x6C [n]))) ∧
      (∀ n, x.session n = none → exec (.finish p n true) s = .next (err 0x0B) ∧ exec (.heartbeatSpdm p n) s = .next (err 0x0B) ∧
        exec (.keyUpdate p n) s = .next (err 0x0B) ∧ exec (.endSession p n) s = .next (err 0x0B)) ∧
      (∀ n bs, n = (if n = 0 then 0 else (x.partsIn p).length) →
        exec (.chunkSend p n false bs) s = .next (tells { x with
          chunksIn := (p, (if n = 0 then [] else x.partsIn p) ++ [bs]) :: x.chunksIn.filter fun e => e.1 != p } 0x05 [n]) ∧
        exec (.chunkSend p n true bs) s = .next (tells { x with chunksIn := x.chunksIn.filter fun e => e.1 != p } 0x05 [n])) ∧
      (∀ n c, (x.partsOut p)[n]? = some c →
        (n + 1 < (x.partsOut p).length → exec (.chunkGet p n) s = .next (tells x 0x06 ([n, 0] ++ c.map BitVec.toNat))) ∧
        (n + 1 = (x.partsOut p).length → exec (.chunkGet p n) s = .next (tells { x with
          chunksOut := x.chunksOut.filter fun e => e.1 != p } 0x06 ([n, 1] ++ c.map BitVec.toNat)))))

/-- Keys, zeroisation and debug (R442, R444, R494, R529, R556, R560, R562, R573 to R579): IDE keys are set and taken into use by a mutual session; a nonce replaces the one before; zeroisation
drops sessions and IDE keys, takes the keyed quays into training and the Secure ports out of it; a failed random source zeroises everything and stops the device;
the first refusal that applies is shown, and else the level opens, D2 behind the veil; a session of D2 or D3 halts, steps and resumes tasks, and closing it resumes them all. -/
def Obligations.KeysZeroisationAndDebug : Prop :=
  (∀ (s : State) (n : Nat) (y : Session), s.customsUp = true → s.cus.mutualSession n = some y → y.transport < 2 →
    exec (.ideKm n y.transport false) s = .next { s.send (.spdm y.transport 0x7E [y.transport, 0]) with
      cus := { s.cus with ide := y.transport :: s.cus.ide.erase y.transport } } ∧
    (y.transport ∈ s.cus.ide → exec (.ideKm n y.transport true) s = .next
      ((s.send (.spdm y.transport 0x7E [y.transport, 1])).ideSecure y.transport)) ∧
    (y.transport ∉ s.cus.ide → exec (.ideKm n y.transport true) s = .next (s.send (.spdm y.transport 0x7F [0x04])))) ∧
  (∀ s : State, s.customsUp = true → exec (.debugNonce 0) s = .next ({ s with
    cus := { s.cus with drawn := s.cus.drawn + 1, nonce := some (Config.drawn s.cus.drawn 0) } }.send (.spdm 4 0x7E [Config.drawn s.cus.drawn 0]))) ∧
  (∀ s : State, HostUp s → Runs .cusZeroise s fun t => t.cus.sessions = [] ∧ t.cus.ide = [] ∧ t.cus.chunksIn = [] ∧ t.cus.chunksOut = [] ∧
    t.cus.identity = s.cus.identity ∧ (∀ q, q < 16 → (s.quay q).st = .up → (t.quay q).st = .training ∧ (t.quay q).keyed = false) ∧
    (∀ q, q < 16 → (s.quay q).st = .down ∨ (s.quay q).st = .stopped → t.quay q = s.quay q) ∧
    (∀ p, p < 2 → t.get HST_PORT_STATUS_IDE_SECURE p = 0) ∧ t.mem = s.mem ∧ t.jobs = s.jobs) ∧
  (∀ s : State, s.powered = true → s.get CUS_STATUS_ERROR 0 = 0 →
    (s.halted = false → Runs .trngHealthFail s fun t => t.halted = true ∧ t.jobs = [] ∧ t.cus.identity = false ∧ t.cus.drbg = false ∧
      t.cus.sessions = [] ∧ t.cus.nonce = none ∧ t.pilot.sev3 = true ∧ t.mem = s.mem) ∧
    Runs .customsWatchdog s fun t => t.cus = { s.cus with sessions := [], spdm := [], chunksIn := [], chunksOut := [], nonce := none } ∧
      t.get CUS_DEBUG_STATUS_LEVEL 0 = 0 ∧ t.mem = s.mem ∧ t.jobs = s.jobs ∧ t.quays = s.quays ∧ t.veiled = s.veiled) ∧
  (∀ (s : State) (k : Token), s.powered = true → s.get CUS_STATUS_ERROR 0 = 0 → s.cus.identity = true → s.cus.lifecycle ≠ lcBlank →
    k.viaSession = none → s.cus.nonce.isSome = true →
    let c := s.unlockRefusal k
    (1 ≤ k.level → k.level ≤ 3 → k.reserved = false → k.keyIndex ≤ 4 → (s.tokenSigned k = false → c = 2) ∧
      (s.tokenSigned k = true → (k.nonce ≠ s.cus.nonce → c = 3) ∧ (k.nonce = s.cus.nonce → (k.deviceOk = false → c = 4) ∧
        (k.deviceOk = true → ¬ (k.lifecycle = s.cus.lifecycle ∧ levelAllowed s.cus.lifecycle k.level k.keyIndex = true) → c = 5)))) ∧
    (c ≠ 0 → c ≤ 7 ∧ Runs (.debugUnlock k) s fun t => t.get CUS_DEBUG_STATUS_LAST_REFUSAL 0 = c ∧
      t.get CUS_DEBUG_STATUS_LEVEL 0 = s.get CUS_DEBUG_STATUS_LEVEL 0 ∧ t.out = s.out ++ [.spdm 4 0x7E [c]] ∧
      t.cus.nonce = (if k.nonce = s.cus.nonce then none else s.cus.nonce) ∧ t.mem = s.mem ∧ t.veiled = s.veiled) ∧
    (c = 0 → s.power.mode = .run → k.level ≠ 2 → Runs (.debugUnlock k) s fun t => t.get CUS_DEBUG_STATUS_LEVEL 0 = k.level ∧ t.cus.nonce = none ∧
      t.mem = s.mem ∧ t.veiled = s.veiled ∧ t.out = s.out ++ [.spdm 4 0x7E [0]]) ∧
    (c = 0 → s.power.mode = .run → k.level = 2 → Runs (.debugUnlock k) s fun t => t.get CUS_DEBUG_STATUS_LEVEL 0 = 2 ∧ t.get CUS_STATUS_VEILED 0 = 1 ∧
      t.cus.sessions = [] ∧ t.cus.nonce = none ∧ t.hot = [] ∧
      (∀ n, n < 32 → s.get HBM_CHSET_COUNT n ≠ 0 → n ∈ t.veiled) ∧ (∀ i, i < whsBytes → memAt t (whsBase + i) = 0) ∧
      (s.cus.lifecycle = lcDeployed → t.power.d2SincePower = true))) ∧
  (∀ (s : State) (k c : Nat), HostUp s → k < s.kilnCount → c < 4 → 2 ≤ s.get CUS_DEBUG_STATUS_LEVEL 0 → (∀ e ∈ s.ctxs, e.2.dbgReq = 0) →
    let x := s.ctx k c
    (x.st = .ready → x.begun = false → exec (.debugHalt k c) s = .next (s.dbgStop k c)) ∧
    (x.st = .running ∨ x.st = .waitTile ∨ x.st = .waitBar ∨ (x.st = .ready ∧ x.begun = true) → exec (.debugHalt k c) s = .next (s.setCtx k c fun y => { y with dbgReq := 1 })) ∧
    (x.st = .halted → x.reason = 7 →
      let resumed (r : Nat) := s.setCtx k c fun y => { y with st := y.dbgFrom, reason := 0, dbgReq := r }
      exec (.debugStepCommand k c) s = .next (resumed 2) ∧ exec (.debugStepTile k c) s = .next (resumed 3) ∧
      exec (.debugResume k c) s = .next (resumed 0))) ∧
  (∀ s : State, HostUp s → Runs .debugClose s fun t => t.get CUS_DEBUG_STATUS_LEVEL 0 = 0 ∧ t.get CUS_DEBUG_STATUS_NARROWED 0 = 0 ∧
    (∀ e ∈ t.ctxs, e.2.dbgReq = 0) ∧ (∀ k c, (s.ctx k c).st = .halted → (s.ctx k c).reason = 7 → (t.ctx k c).st = (s.ctx k c).dbgFrom) ∧
    KeepsFieldsBut s t [CUS_DEBUG_STATUS_LEVEL.key 0, CUS_DEBUG_STATUS_NARROWED.key 0] ∧ t = { s with flds := t.flds, ctxs := t.ctxs })

/-- Power states and trips (R563, R580 to R582, R586 to R588, R623, Tables 14.12 and 14.13): a low-power request waits until nothing is in hand and then enters; Banked keeps memory, stops
the free tide and lets the nonce expire; a wake runs it again and notes its cause; Smoulder and Off lose everything that a reset loses; a trip is counted, noted and
reported; an input trip darkens the quays and takes the rails off, a hot one forces the clock down, a shutdown or tamper trip enters Smoulder. -/
def Obligations.PowerStatesAndTrips : Prop :=
  (∀ s : State, HostUp s →
    exec .stateReqRun s = .next ((s.put HMR_POWER_CTL_STATE_REQ 0 0).put HMR_POWER_STATUS_PENDING 0 0) ∧
    (∀ r, r < 4 → exec (.stepReq r) s = .next (s.put HMR_POWER_CTL_STEP_REQ 0 r)) ∧
    (s.mayEnter = false →
      exec .stateReqBanked s = .next ((s.put HMR_POWER_CTL_STATE_REQ 0 1).put HMR_POWER_STATUS_PENDING 0 1) ∧
      exec .stateReqSmoulder s = .next ((s.put HMR_POWER_CTL_STATE_REQ 0 2).put HMR_POWER_STATUS_PENDING 0 1) ∧
      exec .lowPowerEntry s = .next s) ∧
    (s.mayEnter = true → Runs .stateReqSmoulder s fun t => Cleared s t [] ∧ t.power.mode = .smoulder) ∧
    (∀ i : Instr, (i = .stateReqBanked ∨ (i = .lowPowerEntry ∧ s.get HMR_POWER_STATUS_PENDING 0 ≠ 0 ∧ s.get HMR_POWER_CTL_STATE_REQ 0 = 1)) →
      s.mayEnter = true → Runs i s fun t => t.power.mode = .banked ∧ t.get HMR_POWER_STATUS_PENDING 0 = 0 ∧ t.get HMR_TIDE_STATUS_RUNNING 0 = 0 ∧
        t.get HMR_POWER_STATUS_BANKED_ENTRIES 0 = min (s.get HMR_POWER_STATUS_BANKED_ENTRIES 0 + 1) (2 ^ 32 - 1) ∧
        t.power.tideResumes = decide (s.get HMR_TIDE_STATUS_RUNNING 0 ≠ 0) ∧ t.cus.nonce = none ∧ t.tide = s.tide ∧
        (s.get CUS_DEBUG_STATUS_LEVEL 0 = 1 ∨ s.get CUS_DEBUG_STATUS_LEVEL 0 = 2 → t.get CUS_DEBUG_STATUS_NARROWED 0 = 1) ∧
        t = { s with flds := t.flds, cus := t.cus, power := t.power })) ∧
  (∀ (s : State) (c : Nat), s.power.mode = .banked → s.power.tamperLatch = false → 1 ≤ c → c ≤ 5 → Runs (.wake c) s fun t =>
    t.power.mode = .run ∧ t.power.warming = true ∧ t.power.mirrors = [] ∧ t.get HMR_POWER_STATUS_WAKE_CAUSE 0 = c ∧
    t.get HMR_POWER_STATUS_QUAYS_WARM 0 = 0 ∧ t.get CUS_DEBUG_STATUS_NARROWED 0 = 0 ∧ t.tide = s.tide ∧
    t.get HMR_TIDE_STATUS_RUNNING 0 = (if s.power.tideResumes then 1 else s.get HMR_TIDE_STATUS_RUNNING 0) ∧ t.cus = { s.cus with nonce := none } ∧
    t = { s with flds := t.flds, cus := t.cus, power := t.power }) ∧
  (∀ (s : State) (c : Nat), s.power.mode = .smoulder → 3 ≤ c → c ≤ 5 →
    (s.power.tamperLatch = false → s.power.shut = [] → Runs (.wake c) s fun t => Cleared s t [HMR_POWER_STATUS_WAKE_CAUSE.key 0] ∧
      t.power.mode = .run ∧ t.get LHS_START_STEP 0 = 2 ∧ t.get LHS_START_FAILED 0 = 0 ∧ t.get HMR_POWER_STATUS_WAKE_CAUSE 0 = c) ∧
    (s.power.tamperLatch = true ∨ s.power.shut ≠ [] → exec (.wake c) s = .next s)) ∧
  (∀ s : State, s.power.mode = .run → s.power.warming = true → Runs .quaysWarm s fun t => t.power = { s.power with warming := false } ∧
    t.get HMR_POWER_STATUS_QUAYS_WARM 0 = 1 ∧ KeepsFieldsBut s t [HMR_POWER_STATUS_QUAYS_WARM.key 0] ∧ t.jobs = s.jobs ∧ t.mem = s.mem ∧
    (s.pod.joining = true → s.pod.requested = false → t.quaysReady = true → t.pod.requested = true)) ∧
  (∀ s : State, s.power.lighthouse = true →
    let down (t : State) (last : Nat) : Prop := Cleared s t [] ∧ t.power.mode = .off ∧ t.get LHS_TRIPS_LAST 0 = last ∧
      Msg.pldmEvent 1 last ∈ t.out ∧ ∀ q, q < 16 → (s.quay q).st ≠ .down → Msg.dark q ∈ t.out
    (s.power.uv = false → Runs .underVoltageTrip s fun t => down t 1 ∧ t.power.uv = true ∧
      t.get LHS_TRIPS_UV 0 = min (s.get LHS_TRIPS_UV 0 + 1) 255) ∧
    (s.power.ov = false → Runs .overVoltageTrip s fun t => down t 2 ∧ t.power.ov = true ∧ t.power.switchClosed = false ∧
      t.get LHS_TRIPS_OV 0 = min (s.get LHS_TRIPS_OV 0 + 1) 255) ∧
    (∀ k, k < 4 → k ∉ s.power.hot → Runs (.hotTrip k) s fun t => t.power = { s.power with hot := k :: s.power.hot, forced := true } ∧
      t.get LHS_TRIPS_HOT 0 = min (s.get LHS_TRIPS_HOT 0 + 1) 255 ∧ t.get LHS_TRIPS_LAST 0 = 0x10 + k ∧ t.out = s.out ++ [.pldmEvent 1 (0x10 + k)] ∧
      (s.power.mode = .run → t.get HMR_POWER_STATUS_STEP 0 = 3 ∧ (s.get HMR_POWER_STATUS_STEP 0 = 0 → t.cus.nonce = none)) ∧ t.jobs = s.jobs ∧ t.mem = s.mem) ∧
    (∀ k, k < 4 → k ∉ s.power.shut → s.powered = true → Runs (.shutdownTrip k) s fun t => Cleared s t [] ∧ t.power.mode = .smoulder ∧
      t.power.shut = k :: s.power.shut ∧ t.get LHS_TRIPS_SHUTDOWN 0 = min (s.get LHS_TRIPS_SHUTDOWN 0 + 1) 255 ∧ t.get LHS_TRIPS_LAST 0 = 0x20 + k) ∧
    (s.powered = true → Runs .tamperTrip s fun t => Cleared s t [] ∧ t.power.mode = .smoulder ∧ t.power.tamperLatch = true ∧
      t.cus.tamper = min 15 (s.cus.tamper + 1) ∧ t.get LHS_TRIPS_LAST 0 = 0x30)) ∧
  (∀ (s : State) (k : Nat),
    exec (.hotTripRelease k) s = .next { s with power := { s.power with hot := s.power.hot.erase k } } ∧
    exec (.shutdownTripRelease k) s = .next { s with power := { s.power with shut := s.power.shut.erase k } }) ∧
  (∀ s : State, s.power.mode = .off → s.power.modEn = true → Runs .inputRelease s fun t => Cleared s t [] ∧ t.power.mode = .run ∧
    t.power.uv = false ∧ t.power.ov = false ∧ t.power.switchClosed = true ∧ t.power.cold = true ∧ t.get LHS_START_STEP 0 = 1 ∧ t.get LHS_START_COLD 0 = 1)

/-- Resets, the module enable and the lifecycle (R522, R571, R572, R583, R586, R612, R625, R634 to R638, Tables 14.9, 15.10 and 17.4): a reset loses what Table 15.10 says and start-up follows from
its second step, unless a fuse burn must end first; a burn that ends takes its place and lets what waited go on; `RESET_POD` resets the pod from its master; without
power nothing is left of the registers; a permitted lifecycle transition burns its state word and resets, another is refused. -/
def Obligations.ResetsModuleAndLifecycle : Prop :=
  (∀ (s : State) (i : Instr), s.powered = true → i = .deviceReset ∨ i = .resetIn →
    (s.dock.burn = none → Runs i s fun t => Cleared s t [] ∧ t.power.mode = .run ∧ t.get LHS_START_STEP 0 = 2 ∧ t.get LHS_START_FAILED 0 = 0 ∧
      t.get LHS_START_CAUSE 0 = 0 ∧ t.get LHS_START_COLD 0 = 0 ∧ t.get LHS_TRIPS_UV 0 = s.get LHS_TRIPS_UV 0 ∧ t.out = s.out) ∧
    (s.dock.burn.isSome = true → exec i s = .next { s with pilot := { s.pilot with resetWaits := true } })) ∧
  (∀ (s : State) (r : Repair), s.dock.burn = some r → s.power.offWaits = false →
    (s.pilot.resetWaits = false → Runs .repairBurnDone s fun t => t.dock = { s.dock with burned := s.dock.burned ++ [r], burn := none } ∧
      t.get DDK_REPAIR_BUSY 0 = 0 ∧ t.get DDK_REPAIR_STATUS_RESULT 0 = 1 ∧ t.get DDK_REPAIR_STATUS_DONE 0 = 1 ∧
      KeepsFieldsBut s t [DDK_REPAIR_BUSY.key 0, DDK_REPAIR_STATUS_RESULT.key 0, DDK_REPAIR_STATUS_DONE.key 0] ∧
      t = { s with flds := t.flds, dock := t.dock }) ∧
    (s.pilot.resetWaits = true → Runs .repairBurnDone s fun t => Cleared { s with dock := { s.dock with burned := s.dock.burned ++ [r] } } t [] ∧
      t.get LHS_START_STEP 0 = 2 ∧ t.power.mode = .run)) ∧
  (∀ s : State, HostUp s →
    (s.inPod = true → s.isMaster = true → s.dock.burn = none → Runs .resetPod s fun t => Cleared s t [] ∧ t.get LHS_START_STEP 0 = 2 ∧
      t.out = s.out ++ [.broadcast .podReset]) ∧
    (s.inPod = false ∨ s.isMaster = false → exec .resetPod s = .next s)) ∧
  (∀ (s : State) (i : Instr), i = .lighthousePowerLoss ∨ (i = .modEnRelease ∧ s.power.modEn = true ∧ s.dock.burn = none) → Runs i s fun t =>
    t.flds = [] ∧ t.mem = [] ∧ t.jobs = [] ∧ t.power.mode = .off ∧ t.power.lighthouse = false ∧ t.power.switchClosed = false ∧
    t.power.d2SincePower = false ∧ t.power.tamperLatch = false ∧ t.power.modEn = (if i = .modEnRelease then false else s.power.modEn) ∧
    t.cus.lifecycle = s.cus.lifecycle ∧ t.pilot.profile = s.pilot.profile ∧ t.host = s.host) ∧
  (∀ s : State, s.power.modEn = true → s.dock.burn.isSome = true → exec .modEnRelease s = .next
    { s with power := { s.power with modEn := false, offWaits := true } }) ∧
  (∀ s : State, s.power.modEn = false →
    (s.power.offWaits = false → Runs .modEnRise s fun t => Cleared s t [] ∧ t.power.mode = .run ∧ t.power.modEn = true ∧ t.power.lighthouse = true ∧
      t.get LHS_START_STEP 0 = 1 ∧ t.get LHS_START_COLD 0 = 1) ∧
    (s.power.offWaits = true → exec .modEnRise s = .next { s with power := { s.power with modEn := true, offWaits := false } })) ∧
  (∀ (s : State) (n target signer h : Nat) (y : Session) (ok : Bool), s.cus.mutualSession n = some y → s.powered = true →
    s.get CUS_STATUS_ERROR 0 = 0 → s.cus.lifecycle ≠ lcBlank →
    let may : Prop := lifecyclePath s.cus.lifecycle target signer = true ∧ ok = true ∧ s.get CUS_DEBUG_STATUS_LEVEL 0 = 0 ∧
      s.get QUY_POD_CTL_IN_POD 0 = 0 ∧ s.jobs = [] ∧ s.power.mode = .run
    (¬ may → exec (.lifecycleTransition n target signer h ok) s = .next (s.send (.spdm y.transport 0x7E [1]))) ∧
    (may → s.dock.burn = none → Runs (.lifecycleTransition n target signer h ok) s fun t => t.cus.lifecycle = target ∧
      t.cus.ownerHash = (if target = lcProvisioned then some h else if target = lcReturned then some allOnesHash else s.cus.ownerHash) ∧
      t.get LHS_START_STEP 0 = 2 ∧ t.cus.identity = false ∧ t.mem = [] ∧ t.jobs = [] ∧ Msg.spdm y.transport 0x7E [0] ∈ t.out))

/-- The pilot (R584, R585, R590 to R595, R597 to R602, R606, R612, R613, Tables 15.3 to 15.5): a tick counts time, keeps the tide's shadow and moves the ladder by the power and the sites; a pilot that
hangs restarts, and stays down at the third restart in 60 s; it resets a device stopped by severity 3 fewer than three times an hour, else holds it; caps, keys,
profiles, messages and images are taken as they are permitted; the pod's tide is held, stopped and released. -/
def Obligations.PilotTicksUpdatesAndHolds : Prop :=
  (∀ (rung relax cap power : Nat) (sites : List Nat),
    (1000 * cap < power ∨ overheats sites = true → capLoop rung relax cap power sites = (min 12 (rung + 1), 0)) ∧
    (power + 60000 ≤ 1000 * cap → overheats sites = false → relaxed sites = true →
      capLoop rung relax cap power sites = if 31 ≤ relax then (rung - 1, 0) else (rung, relax + 1)) ∧
    (power ≤ 1000 * cap → 1000 * cap < power + 60000 → overheats sites = false → capLoop rung relax cap power sites = (rung, 0))) ∧
  (∀ (s : State) (power mv n : Nat) (sites rails : List Nat), s.power.lighthouse = true → s.get PLT_LIMIT_RUNG 0 ≤ 12 →
    Runs (.managementTick power mv n sites rails) s fun t =>
      let now := (s.get LHS_RTC_COUNT 0 + n) % 2 ^ 64
      let m := capLoop (s.get PLT_LIMIT_RUNG 0) s.pilot.relax (s.get PLT_CAP_CAP_W 0) power (sites.take 4)
      t.get LHS_RTC_COUNT 0 = now ∧ t.get LHS_SENSE_INPUT_MV 0 = mv % 65536 ∧ t.get LHS_SENSE_SITE3 0 = sites.getD 3 0 % 256 ∧
      (s.get HMR_TIDE_STATUS_RUNNING 0 ≠ 0 → t.get LHS_TIDE_SHADOW_TIDE 0 = s.tide % 2 ^ 64 ∧ t.pilot.shadowTide = s.tide ∧ t.pilot.shadowAt = now) ∧
      (s.get HMR_TIDE_STATUS_RUNNING 0 = 0 → t.get LHS_TIDE_SHADOW_TIDE 0 =
        (s.pilot.shadowTide + (now - s.pilot.shadowAt) * 1000000000 / (32768 * max 1 s.periodNs)) % 2 ^ 64) ∧
      (s.pilotUp = false → t = { s with flds := t.flds, pilot := t.pilot }) ∧
      (s.pilotUp = true → t.get PLT_LIMIT_RUNG 0 = m.1 ∧ t.pilot.relax = m.2 ∧ t.get PLT_LIMIT_STEP_LIMIT 0 = rungStep m.1 ∧
        t.get PLT_LIMIT_BUDGET_64THS 0 = rungScale m.1 ∧
        t.get PLT_LIMIT_KILNS_PORT 0 = rungKilns (s.get HST_SIZE_COMPUTE_KILNS_PORT 0) m.1 % 256 ∧ t.pilot.wrote = true ∧ t.pilot.requests = [] ∧
        t.pilot.copied = s.get DDK_ELOG_STATUS_TOTAL 0 ∧ t.jobs = s.jobs ∧ t.mem = s.mem ∧
        (s.get PLT_LIMIT_RUNG 0 = 12 → 1000 * s.get PLT_CAP_CAP_W 0 < power → t.get PLT_LIMIT_CAP_UNMET 0 = 1 ∧ Msg.pldmEvent 2 power ∈ t.out))) ∧
  (∀ s : State, s.pilotUp = true →
    (let recent := s.pilot.restarts.filter fun t => decide (s.get LHS_RTC_COUNT 0 < t + 60 * 32768)
     Runs .pilotWatchdog s fun t => t.pilot = { s.pilot with restarts := s.get LHS_RTC_COUNT 0 :: recent, relax := 0, requests := [] } ∧
      t.get PLT_STATUS_RESTARTS 0 = min (s.get PLT_STATUS_RESTARTS 0 + 1) 65535 ∧
      t.get PLT_STATUS_PILOT_DOWN 0 = (if 2 ≤ recent.length then 1 else 0) ∧ t.out.getLast? = some (.pldmEvent 4 (recent.length + 1)) ∧
      t.jobs = s.jobs ∧ t.mem = s.mem) ∧
    (let recent := s.pilot.sev3Resets.filter fun t => decide (s.get LHS_RTC_COUNT 0 < t + 3600 * 32768)
     s.pilot.sev3 = true →
      (s.get PLT_POLICY_AUTO_RESET 0 ≠ 0 → recent.length < 3 → s.dock.burn = none → Runs .severity3ResetPolicy s fun t =>
        t.get LHS_START_STEP 0 = 2 ∧ t.halted = false ∧ t.jobs = [] ∧ t.mem = [] ∧ t.pilot.log = s.logDuty.pilot.log ∧
        t.pilot.sev3Resets = s.get LHS_RTC_COUNT 0 :: recent ∧ t.pilot.sev3 = false) ∧
      (s.get PLT_POLICY_AUTO_RESET 0 = 0 ∨ 3 ≤ recent.length → Runs .severity3ResetPolicy s fun t => t.get PLT_STATUS_HELD_STOPPED 0 = 1 ∧
        t.halted = s.halted ∧ t.out = s.out ++ [.pldmEvent 5 recent.length] ∧ t.pilot.sev3 = false ∧ KeepsFieldsBut s t [PLT_STATUS_HELD_STOPPED.key 0])) ∧
    (∀ p k l, p < 4 → k < 6 → exec (.mctpMessage p k l) s = .next { s with pilot := { s.pilot with requests := s.pilot.requests ++ [⟨p, k, l⟩] } }) ∧
    (∀ c i, s.pilot.transfer = some c →
      (s.cus.accepts c i = true → Runs (.firmwareTransferEnd i) s fun t => (t.pilot.flashOf c).other = ⟨some i, .verified⟩ ∧
        (t.pilot.flashOf c).current = (s.pilot.flashOf c).current ∧ t.pilot.transfer = none ∧ t.out = s.out ++ [.pldmEvent 6 0] ∧
        i.cls = c ∧ i.signedOk = true ∧ i.digestOk = true ∧ s.cus.counters.getD (c - 1) 0 ≤ i.secVersion ∧
        t = { s with pilot := t.pilot, out := t.out }) ∧
      (s.cus.accepts c i = false → Runs (.firmwareTransferEnd i) s fun t => (t.pilot.flashOf c).other = ⟨none, .invalid⟩ ∧
        (t.pilot.flashOf c).current = (s.pilot.flashOf c).current ∧ t.pilot.transfer = none ∧ t.out.getLast? = some (.pldmEvent 6 1) ∧
        t.get CUS_STATUS_ERROR_SOURCE 0 = c % 256 ∧ t.jobs = s.jobs ∧ t.mem = s.mem)) ∧
    exec .firmwareActivate s = .next { s with pilot := { s.pilot with flash := s.pilot.flash.map fun e =>
      (e.1, { e.2 with
        bank0 := if e.2.bank0.st == .verified then { e.2.bank0 with st := .pending } else e.2.bank0,
        bank1 := if e.2.bank1.st == .verified then { e.2.bank1 with st := .pending } else e.2.bank1 }) } }) ∧
  (∀ (s : State) (src v : Nat), (HostUp s ∧ src < 2) ∨ (s.pilotUp = true ∧ src = 3) ∨
      (s.powered = true ∧ s.debugDeep = true ∧ s.get CUS_DEBUG_STATUS_NARROWED 0 = 0 ∧ src = 2) →
    (900 ≤ v % 4096 → v % 4096 ≤ 2000 → exec (.pltCapWrite src v) s = .next (s.put PLT_CAP_CAP_W 0 v)) ∧
    (v % 4096 < 900 ∨ 2000 < v % 4096 → exec (.pltCapWrite src v) s = .next (s.discard src 4 10 0x00)) ∧
    (v % 256 = 0xA5 → s.dock.burn = none → Runs (.pltReset src v) s fun t => Cleared s t [] ∧ t.get LHS_START_STEP 0 = 2) ∧
    (v % 256 ≠ 0xA5 → exec (.pltReset src v) s = .next (s.discard src 4 10 0x18))) ∧
  (∀ s : State, HostUp s →
    exec .profileSave s = .next { s with pilot := { s.pilot with profile := some ⟨s.regHeld .QUY_POD_CFG 0,
      (List.range 16).map fun q => s.regHeld .QUY_PEER q, s.regHeld .HMR_TIDE_CFG 0, s.regHeld .HMR_EPOCH_CFG 0⟩ } } ∧
    exec .profileErase s = .next { s with pilot := { s.pilot with profile := none } } ∧
    (s.inPod = true → s.isMaster = true → s.pod.hold = false → exec (.tideHold false) s = .next
      { s.put HMR_TIDE_HOLD_HOLD 0 1 with
        pod := { s.pod with hold := true, readySent := false, readies := [], stopSent := false }, out := s.out ++ [.broadcast (.hold true)] }) ∧
    (∀ n p g, s.inPod = true → s.isMaster = true → s.pod.hold = true →
      (s.pod.held = false → s.pod.stopSent = false → exec (.tideHoldRelease n p g false) s = .next
        { s.put HMR_TIDE_HOLD_HOLD 0 0 with pod := s.pod.unheld, out := s.out ++ [.broadcast (.hold false)] }) ∧
      (s.pod.held = true → Runs (.tideHoldRelease n p g false) s fun t => t.tide = (s.tide + 1) % 2 ^ 64 ∧ t.get HMR_TIDE_STATUS_RUNNING 0 = 1 ∧
        t.get HMR_TIDE_HOLD_HOLD 0 = 0 ∧ t.get HMR_TIDE_HOLD_HELD 0 = 0 ∧ t.pod = s.pod.unheld ∧ t.jobs = s.jobs ∧ t.out = s.out ++
          [.broadcast (.resume (s.tide + 1) (s.get HMR_TIDE_CFG_PERIOD_STEPS 0) (s.get HMR_EPOCH_CFG_GRACE_TIDES 0))]))) ∧
  (∀ s : State, Live s → s.inPod = true →
    (s.isMaster = false → exec (.tideHold true) s = .next { s with pod := { s.pod with hold := true, readySent := false } }) ∧
    (s.pod.hold = true →
      (s.pod.readySent = false → s.jobs = [] → s.conss = [] →
        (s.isMaster = false → exec (.holdReady s.me) s = .next
          ({ s with pod := { s.pod with readySent := true } }.sendVc0 s.podMaster (.ready s.me))) ∧
        (s.isMaster = true → exec (.holdReady s.me) s = .next
          { s with pod := { s.pod with readySent := true, readies := s.me :: s.pod.readies.erase s.me } })) ∧
      (∀ d ∈ s.pod.members, d ≠ s.me → s.isMaster = true → exec (.holdReady d) s = .next
        { s with pod := { s.pod with readies := d :: s.pod.readies.erase d } }) ∧
      (∀ n, s.isMaster = false → exec (.tideStopBroadcast n true) s = .next { s with pod := { s.pod with stopAt := some n } }) ∧
      (∀ n, s.isMaster = true → s.pod.stopSent = false → (∀ d ∈ s.pod.members, d ∈ s.pod.readies) → s.tide + 2 ≤ n →
        exec (.tideStopBroadcast n false) s = .next { s with
          pod := { s.pod with stopAt := some n, stopSent := true }, out := s.out ++ [.broadcast (.stopAt n)] }) ∧
      (∀ n, s.isMaster = false → s.pod.held = true → Runs (.tideHoldRelease n (s.get HMR_TIDE_CFG_PERIOD_STEPS 0) (s.get HMR_EPOCH_CFG_GRACE_TIDES 0) true) s
        fun t => t.tide = n % 2 ^ 64 ∧ t.get HMR_TIDE_STATUS_RUNNING 0 = 1 ∧ t.pod = s.pod.unheld ∧ t.jobs = s.jobs ∧ t.out = s.out) ∧
      (∀ n p g, s.isMaster = false → s.pod.held = true → p ≠ s.get HMR_TIDE_CFG_PERIOD_STEPS 0 → Runs (.tideHoldRelease n p g true) s fun t =>
        t.get QUY_POD_CTL_IN_POD 0 = 0 ∧ t.get QUY_POD_CTL_JOIN_RESULT 0 = 1 ∧ t.pod = {} ∧ t.routes = [] ∧
        t.unacked = s.unacked ++ [⟨s.nextVc0, s.podMaster, .leave s.me⟩])))

/-- Start-up (R283, R284, R286, R288, R560, R564, R565, R603 to R611, Tables 15.8 and 15.9): its steps run in order, and the first that fails stops it with its cause: 1 the self-test of customs, 2 an
image, 3 the repair image, 4 a macro of the warehouse that repair does not mend, 5 the stacks of a die, 6 the kilns of a die, 7 a trip; a start-up that waits
at its fifth step goes on once the wait ends; with `AUTO` the only failing column of a macro with its entry unused is burned; images are measured as they start; with no
failure the size table is valid, and says what is in service. -/
def Obligations.StartUpRunsInOrder : Prop :=
  (∀ (s : State) (r : StartReport), s.power.mode = .run → s.get HST_SIZE_ID_VALID 0 = 0 → s.get LHS_START_FAILED 0 = 0 → 1 ≤ r.bin → r.bin ≤ 3 →
    3 ≤ s.get LHS_START_STEP 0 → (s.joinWaits = true → exec (.startUp r) s = .next s) ∧ (s.joinWaits = false → exec (.startUp r) s = .next (s.finish r))) ∧
  (∀ (s : State) (m : Repair) (b : Bool) (r : StartReport), r.macros = [(m, b)] → (∀ x ∈ s.dock.inForce, x.same m = false) →
    (b = false ∨ s.get DDK_REPAIR_CFG_AUTO 0 = 0 ∨ (∃ x ∈ s.dock.burned, x.sameMacro m = true) → s.stillFailing r = [m]) ∧
    (b = true → s.get DDK_REPAIR_CFG_AUTO 0 ≠ 0 → (∀ x ∈ s.dock.burned, x.sameMacro m = false) → s.stillFailing r = [] ∧
      (s.autoRepair r).dock = { s.dock with burned := s.dock.burned ++ [m], inForce := s.dock.inForce ++ [m] })) ∧
  ∀ (s : State) (r : StartReport), s.power.mode = .run → s.get HST_SIZE_ID_VALID 0 = 0 → s.get LHS_START_FAILED 0 = 0 → 1 ≤ r.bin → r.bin ≤ 3 →
    s.get LHS_START_STEP 0 < 3 →
    let failed (step cause : Nat) : Prop := Runs (.startUp r) s fun t => t.get LHS_START_FAILED 0 = 1 ∧ t.get LHS_START_CAUSE 0 = cause ∧
      t.get LHS_START_STEP 0 = step ∧ t.get HST_SIZE_ID_VALID 0 = 0 ∧ t.jobs = s.jobs
    let images : Prop := ∀ c, 1 ≤ c → c ≤ 5 → ∃ i, s.pilot.flashOf c = { bank0 := ⟨some i, .valid⟩ } ∧ s.cus.accepts c i = true
    let booted : Prop := r.selfTestOk = true ∧ s.get CUS_STATUS_ERROR 0 = 0 ∧ images ∧ s.pilot.flashOf 6 = {} ∧ s.cus.counters.length = 6
    let wired : Prop := booted ∧ r.repairImageOk = true ∧ r.macros = [] ∧ r.stacksFail = [] ∧ s.get HBM_STACK_STATUS_FENCED 0 = 0 ∧
      s.pilot.profile = none ∧ s.get QUY_POD_CTL_JOIN 0 = 0
    let offered := if r.bin = 2 then 72 else 80
    (r.trip = 2 → failed 2 7) ∧
    (r.trip ≠ 2 → r.selfTestOk = false ∨ s.get CUS_STATUS_ERROR 0 ≠ 0 → failed 2 1) ∧
    (r.trip ≠ 2 → r.selfTestOk = true → s.get CUS_STATUS_ERROR 0 = 0 → s.pilot.flashOf 1 = {} → failed 2 2) ∧
    (booted → r.trip = 0 → r.repairImageOk = false → failed 3 3) ∧
    (booted → r.trip = 0 → r.repairImageOk = true → (∃ m ∈ r.macros, m.1.kind = 0 ∧ (∀ x ∈ r.factory ++ s.dock.burned, x.same m.1 = false) ∧
      (m.2 = false ∨ r.autoOff = true ∨ s.get DDK_REPAIR_CFG_AUTO 0 = 0)) → failed 4 4) ∧
    (booted → r.trip = 0 → r.repairImageOk = true → r.macros = [] → (∀ k, k < 6 → k ∈ r.stacksFail) → failed 4 5) ∧
    (wired → r.trip = 0 → offered ≤ r.kilnsFail.1 ∨ offered ≤ r.kilnsFail.2 → failed 6 6) ∧
    (wired → r.kilnsFail.1 < offered → r.kilnsFail.2 < offered → ∀ k, 2 ≤ k → k ≤ 7 → r.trip = k → failed k 7) ∧
    (wired → r.trip = 0 → r.kilnsFail.1 < offered → r.kilnsFail.2 < offered → Runs (.startUp r) s fun t =>
      t.get LHS_START_STEP 0 = 7 ∧ t.get LHS_START_FAILED 0 = 0 ∧ t.get HST_SIZE_ID_VALID 0 = 1 ∧ t.get HST_SIZE_ID_BIN 0 = r.bin ∧
      t.get HST_SIZE_COMPUTE_KILNS_PORT 0 = offered - r.kilnsFail.1 ∧ t.get HST_SIZE_COMPUTE_KILNS_STBD 0 = offered - r.kilnsFail.2 ∧
      t.get HST_SIZE_COMPUTE_CRANES_PORT 0 = 16 - r.cranesFail.1 ∧ t.get HST_SIZE_COMPUTE_STEVEDORES_STBD 0 = 32 - r.stevedoresFail.2 ∧
      t.get HST_SIZE_MEMORY_HBM_STACKS_PORT 0 = 6 ∧ t.get HST_SIZE_MEMORY_WHS_MIB_STBD 0 = 224 ∧ t.cus.drbg = true ∧
      t.cus.identity = decide (s.cus.lifecycle ≠ 0) ∧ t.mem = s.mem ∧ t.jobs = s.jobs ∧
      (s.cus.slots.length = 7 → ∀ c i, 1 ≤ c → c ≤ 5 → s.pilot.flashOf c = { bank0 := ⟨some i, .valid⟩ } →
        t.cus.slots.getD c 0 = Config.sha384 (s.cus.slots.getD c 0) i.content))
end

