-- ==== Sys2Proof/Laws/Tab.lean ====
section
/-! SUPPORT. Laws of sparse tables: an insertion is read back and disturbs nothing else, and the operations that memory uses keep
the canonical form. -/

namespace Sys2Proof.Machine

variable {α : Type}

theorem Tab.find_insert (k j : Nat) (v : α) (t : Tab α) :
    Tab.find j (Tab.insert k v t) = if j = k then some v else Tab.find j t := by
  induction t with
  | nil =>
    by_cases h : j = k
    · simp [Tab.insert, Tab.find, h]
    · have hk : ¬ k = j := fun e => h e.symm
      simp [Tab.insert, Tab.find, h, hk]
  | cons e t ih =>
    obtain ⟨i, w⟩ := e
    by_cases h : j = k
    · subst h; simp only [Tab.insert]; split
      · simp [Tab.find]
      · split
        · simp [Tab.find]
        · rename_i h1 h2; simp [Tab.find, h2, ih]
    · have hk : ¬ k = j := fun e => h e.symm
      simp only [Tab.insert]; split
      · simp [Tab.find, hk]
      · split
        · rename_i h1 h2; subst h2; simp [Tab.find, hk]
        · simp only [Tab.find, ih, h, if_false]

theorem Tab.get_insert (d : Nat → α) (k j : Nat) (v : α) (t : Tab α) :
    Tab.get d (Tab.insert k v t) j = if j = k then v else Tab.get d t j := by
  unfold Tab.get; rw [Tab.find_insert]; split <;> simp

@[simp] theorem Tab.get_insert_self (d : Nat → α) (k : Nat) (v : α) (t : Tab α) : Tab.get d (Tab.insert k v t) k = v := by
  simp [Tab.get_insert]

theorem Tab.get_insert_ne (d : Nat → α) {k j : Nat} (v : α) (t : Tab α) (h : j ≠ k) :
    Tab.get d (Tab.insert k v t) j = Tab.get d t j := by simp [Tab.get_insert, h]

theorem Tab.find_erase (k j : Nat) (t : Tab α) : Tab.find j (Tab.erase k t) = if j = k then none else Tab.find j t := by
  induction t with
  | nil => simp [Tab.erase, Tab.find]
  | cons e t ih =>
    obtain ⟨i, w⟩ := e
    unfold Tab.erase at ih ⊢
    by_cases hi : i = k
    · subst hi; simp only [List.filter_cons, ne_eq, not_true_eq_false, decide_false, Bool.false_eq_true, if_false, ih, Tab.find]
      split
      · rfl
      · rename_i h; rw [if_neg (fun e => h e.symm)]
    · simp only [List.filter_cons, ne_eq, hi, not_false_eq_true, decide_true, if_true, Tab.find, ih]
      by_cases hj : j = k
      · subst hj; simp [hi]
      · simp [hj]

/-- A written value is read back, and every other key reads as before: the table's canonical form is not needed. -/
theorem Tab.get_set [DecidableEq α] (d : Nat → α) (k j : Nat) (v : α) (t : Tab α) :
    Tab.get d (Tab.set d k v t) j = if j = k then v else Tab.get d t j := by
  unfold Tab.set
  by_cases h : v = d k
  · rw [if_pos h]; unfold Tab.get; rw [Tab.find_erase]
    by_cases hj : j = k
    · subst hj; simp [h]
    · simp [hj]
  · rw [if_neg h, Tab.get_insert]

/-- Keys strictly rising, as a pairwise relation. -/
def Tab.Rising (t : Tab α) : Prop := t.Pairwise fun a b => a.1 < b.1

theorem Tab.rising_iff (t : Tab α) : Tab.rising t = true ↔ Tab.Rising t := by
  unfold Tab.Rising
  induction t with
  | nil => simp [Tab.rising]
  | cons e t ih =>
    obtain ⟨i, v⟩ := e
    cases t with
    | nil => simp [Tab.rising]
    | cons f u =>
      obtain ⟨j, w⟩ := f
      simp only [Tab.rising, Bool.and_eq_true, decide_eq_true_eq, ih]
      constructor
      · rintro ⟨h, h2⟩
        refine List.Pairwise.cons ?_ h2
        intro b hb
        rcases List.mem_cons.1 hb with rfl | hb
        · exact h
        · exact Nat.lt_trans h (List.rel_of_pairwise_cons h2 hb)
      · intro h
        exact ⟨List.rel_of_pairwise_cons h (List.mem_cons_self ..), (List.pairwise_cons.1 h).2⟩

theorem Tab.wf_iff [DecidableEq α] (d : Nat → α) (t : Tab α) : Tab.wf d t = true ↔ Tab.Rising t ∧ ∀ e ∈ t, e.2 ≠ d e.1 := by
  simp [Tab.wf, Tab.rising_iff]

theorem Tab.mem_insert (k : Nat) (v : α) (t : Tab α) (e : Nat × α) (h : e ∈ Tab.insert k v t) : e = (k, v) ∨ e ∈ t := by
  induction t with
  | nil => simp [Tab.insert] at h; exact .inl h
  | cons f t ih =>
    obtain ⟨i, w⟩ := f
    simp only [Tab.insert] at h
    split at h
    · rcases List.mem_cons.1 h with rfl | h
      · exact .inl rfl
      · exact .inr h
    · split at h
      · rcases List.mem_cons.1 h with rfl | h
        · exact .inl rfl
        · exact .inr (List.mem_cons_of_mem _ h)
      · rcases List.mem_cons.1 h with rfl | h
        · exact .inr (List.mem_cons_self ..)
        · rcases ih h with h | h
          · exact .inl h
          · exact .inr (List.mem_cons_of_mem _ h)

theorem Tab.insert_rising (k : Nat) (v : α) (t : Tab α) (h : Tab.Rising t) : Tab.Rising (Tab.insert k v t) := by
  unfold Tab.Rising at *
  induction t with
  | nil => simp [Tab.insert]
  | cons f t ih =>
    obtain ⟨i, w⟩ := f
    have ht := (List.pairwise_cons.1 h).2
    have hf : ∀ b ∈ t, i < b.1 := (List.pairwise_cons.1 h).1
    simp only [Tab.insert]
    split
    · rename_i hk
      refine List.Pairwise.cons ?_ h
      intro b hb
      rcases List.mem_cons.1 hb with rfl | hb
      · exact hk
      · exact Nat.lt_trans hk (hf b hb)
    · split
      · rename_i h1 h2; subst h2; exact List.Pairwise.cons hf ht
      · rename_i h1 h2
        refine List.Pairwise.cons ?_ (ih ht)
        intro b hb
        rcases Tab.mem_insert _ _ _ _ hb with rfl | hb
        · exact Nat.lt_of_le_of_ne (Nat.le_of_not_lt h1) h2
        · exact hf b hb

theorem Tab.filter_wf [DecidableEq α] (d : Nat → α) (p : Nat × α → Bool) (t : Tab α) (h : Tab.wf d t = true) : Tab.wf d (t.filter p) = true := by
  rw [Tab.wf_iff] at *
  exact ⟨h.1.filter _, fun e he => h.2 e (List.mem_filter.1 he).1⟩

/-- A write keeps the canonical form. -/
theorem Tab.set_wf [DecidableEq α] (d : Nat → α) (k : Nat) (v : α) (t : Tab α) (h : Tab.wf d t = true) : Tab.wf d (Tab.set d k v t) = true := by
  unfold Tab.set
  split
  · exact Tab.filter_wf d _ t h
  · rename_i hv
    rw [Tab.wf_iff] at *
    refine ⟨Tab.insert_rising _ _ _ h.1, ?_⟩
    intro e he
    rcases Tab.mem_insert _ _ _ _ he with rfl | he
    · exact hv
    · exact h.2 e he

/-- The canonical form depends on what unlisted keys read as at the listed keys alone. -/
theorem Tab.wf_congr [DecidableEq α] {d d' : Nat → α} (t : Tab α) (h : ∀ e ∈ t, d e.1 = d' e.1) (w : Tab.wf d t = true) : Tab.wf d' t = true := by
  rw [Tab.wf_iff] at *
  exact ⟨w.1, fun e he => h e he ▸ w.2 e he⟩

theorem Tab.slice_rising (lo hi dst : Nat) (t : Tab α) (h : Tab.Rising t) : Tab.Rising (Tab.slice lo hi dst t) := by
  unfold Tab.Rising Tab.slice at *
  rw [List.pairwise_map]
  refine (h.filter _).imp_of_mem ?_
  intro a b ha hb hab
  have := (List.mem_filter.1 ha).2
  have := (List.mem_filter.1 hb).2
  simp at *; omega

theorem Tab.mem_slice (lo hi dst : Nat) (t : Tab α) (e : Nat × α) (h : e ∈ Tab.slice lo hi dst t) :
    dst ≤ e.1 ∧ e.1 < hi - lo + dst ∧ (e.1 - dst + lo, e.2) ∈ t := by
  unfold Tab.slice at h
  obtain ⟨f, hf, rfl⟩ := List.mem_map.1 h
  have h1 := List.mem_filter.1 hf
  have h2 := h1.2
  simp at h2
  refine ⟨by simp, by simp; omega, ?_⟩
  have : f.1 - lo + dst - dst + lo = f.1 := by omega
  simp only [this]; exact h1.1

/-- Below, moved and above: three parts of rising tables with rising bounds make a rising table. -/
theorem Tab.append_rising (m n : Nat) (a b c : Tab α) (ha : Tab.Rising a) (hb : Tab.Rising b) (hc : Tab.Rising c)
    (h1 : ∀ e ∈ a, e.1 < m) (h2 : ∀ e ∈ b, m ≤ e.1 ∧ e.1 < n) (h3 : ∀ e ∈ c, n ≤ e.1) (hmn : m ≤ n) : Tab.Rising (a ++ b ++ c) := by
  unfold Tab.Rising at *
  rw [List.pairwise_append, List.pairwise_append]
  refine ⟨⟨ha, hb, fun x hx y hy => ?_⟩, hc, fun x hx y hy => ?_⟩
  · have := h1 x hx; have := h2 y hy; omega
  · have := h3 y hy
    rcases List.mem_append.1 hx with hx | hx
    · have := h1 x hx; omega
    · have := h2 x hx; omega

end Sys2Proof.Machine
end

