-- ==== Sys2Proof/Laws/Closed.lean ====
section
/-! SUPPORT. What a step can do to the parts of the state that every command shares. A predicate is `Closed` when the few operations that
write register fields, memories and the outbox keep it and nothing else it looks at is ever written: then every command keeps it. The
lemmas of Laws/Keeps*.lean say so function by function. -/

namespace Sys2Proof.Laws

open Sys2Proof.Machine

/-- P survives the writing of stored fields, the sending of messages, and every change of what it does not look at. -/
structure Quiet (P : State → Prop) : Prop where
  same : ∀ s t : State, t.flds = s.flds → t.mem = s.mem → t.undef = s.undef → t.host = s.host → t.out = s.out →
    t.pending = s.pending → P s → P t
  put : ∀ (s : State) (f : Fld) (i v : Nat), P s → P (s.put f i v)
  sent : ∀ (s t : State) (l : List Msg), t.flds = s.flds → t.mem = s.mem → t.undef = s.undef → t.host = s.host → t.out = s.out ++ l →
    t.pending = s.pending → P s → P t

/-- P survives the operations that write device memory and host memory, and a device reset, too. -/
structure Closed (P : State → Prop) : Prop extends Quiet P where
  hostByte : ∀ (s : State) (b : Nat) (x : Byte), P s → P { s with host := Tab.set (fun _ => 0) b x s.host }
  poke : ∀ (s : State) (v : View) (a : Nat) (b : Byte), P s → P (s.pokeByte v a b)
  zero : ∀ (s : State) (a n : Nat), P s → P (s.zero a n)
  copy : ∀ (s : State) (a b n : Nat), P s → P (s.copyMem a b n)
  scramble : ∀ (s : State) (a n : Nat), P s → P (s.scramble a n)
  moveSets : ∀ (s : State) (a b n : Nat), P s → P (s.moveSets a b (a + n))
  clear : ∀ (s t : State) (p : Nat × Nat → Bool), t.flds = s.flds.filter p → t.mem = [] → t.undef = [] → t.host = s.host →
    t.out = s.out → t.pending = s.pending → P s → P t

variable {P : State → Prop}

/-- A change of anything that P does not look at. -/
theorem Quiet.mk' (hP : Quiet P) (s : State) (latchR : Tab Nat) (latchW : Tab Nat) (stamp : Nat) (ecc : Tab Bool)
    (winCache : Tab WinPage) (msix : Tab Nat) (msixPend : Tab Bool) (ideHeld : List Nat) (rings : Tab Ring) (ringTurn : Nat) (evt :
    EvtRing) (tags : Tab Nat) (ready : Tab Bool) (origins : Tab Origin) (ctxs : Tab KCtx) (kilns : Tab Kiln) (streams :
    Tab Stream) (catchUps : List CatchUp) (bulk : Tab Nat) (seq : Nat) (fencedStevs : List Nat) (remoteHolds : List
    RemoteHold) (remoteWaits : List RemoteHold) (tables : Tab Table) (groups : Tab Group) (masters : Tab MasterRec)
    (cranes : Tab Crane) (hot : Tab HotRow) (jobs : List Job) (nextJob : Nat) (fetched : List Fetched) (models : Tab
    Model) (evicted : List EvictedTask) (counts : TideCounts) (admitted : Nat) (conss : List Cons) (retiring : List
    Retiring) (votes : List VoteBox) (decisions : List Logged) (notices : List Decision) (noticesDone : List Decision)
    (unacked : List Unacked) (nextVc0 : Nat) (freeFrames : List Nat) (deferred : List Deferred) (indexPages : List Nat)
    (appended : List Appended) (quays : Tab Quay) (routes : Tab Route) (peers : Tab Peer) (pod : Pod) (colls : Tab Coll)
    (salvor : Salvor) (dock : Dock) (rebuild : Option Rebuild) (rebuilding : List Nat) (cus : Customs) (power : Power)
    (pilot : Pilot) (veiled : List Nat) (halted : Bool) (laneOut : LaneOut) (h : P s) : P (State.mk s.flds latchR latchW
    s.mem s.undef stamp ecc s.host winCache msix msixPend ideHeld rings ringTurn evt tags ready origins ctxs kilns streams
    catchUps bulk seq fencedStevs remoteHolds remoteWaits tables groups masters cranes hot jobs nextJob fetched models
    evicted counts admitted conss retiring votes decisions notices noticesDone unacked nextVc0 freeFrames deferred
    indexPages appended quays routes peers pod colls salvor dock rebuild rebuilding cus power pilot veiled halted s.out
    laneOut s.pending) := hP.same s _ rfl rfl rfl rfl rfl rfl h

/-- A function of a list that keeps P at each step keeps it over the whole list. -/
theorem cl_foldl {α : Type} (f : State → α → State) (hf : ∀ t x, P t → P (f t x)) (l : List α) (s : State) (h : P s) :
    P (l.foldl f s) := by
  induction l generalizing s with
  | nil => exact h
  | cons x l ih => exact ih _ (hf _ _ h)

/-- P holds of the next state, where there is one. -/
def OutP (P : State → Prop) (o : Host.Outcome State Fault Refusal) : Prop := ∀ t, o = .next t → P t

theorem OutP.ok {s : State} (h : P s) : OutP P (Machine.ok s) := by
  intro t e; cases e; exact h

theorem OutP.next {s : State} (h : P s) : OutP P (Host.Outcome.next s) := by
  intro t e; cases e; exact h

/-- P holds of the state in a result, where there is one. -/
def SndP {α : Type} (P : State → Prop) (x : α × State) : Prop := P x.2
def FstP {α : Type} (P : State → Prop) (x : State × α) : Prop := P x.1
def TrdP {α β : Type} (P : State → Prop) (x : α × β × State) : Prop := P x.2.2
def ExP {ε : Type} (P : State → Prop) (x : Except ε State) : Prop := ∀ t, x = .ok t → P t
def ExSndP {ε α : Type} (P : State → Prop) (x : Except ε (α × State)) : Prop := ∀ a t, x = .ok (a, t) → P t
def OptP (P : State → Prop) (x : Option State) : Prop := ∀ t, x = some t → P t
def OptSndP {α : Type} (P : State → Prop) (x : Option (α × State)) : Prop := ∀ a t, x = some (a, t) → P t

theorem SndP.mk {α : Type} {a : α} {t : State} (h : P t) : SndP P (a, t) := h
theorem FstP.mk {α : Type} {a : α} {t : State} (h : P t) : FstP P (t, a) := h
theorem TrdP.mk {α β : Type} {a : α} {b : β} {t : State} (h : P t) : TrdP P (a, b, t) := h
theorem ExP.ok {ε : Type} {t : State} (h : P t) : ExP P (Except.ok t : Except ε State) := by intro u e; cases e; exact h
theorem ExP.error {ε : Type} {e : ε} : ExP P (Except.error e : Except ε State) := by intro u h; cases h
theorem ExSndP.ok {ε α : Type} {a : α} {t : State} (h : P t) : ExSndP P (Except.ok (a, t) : Except ε (α × State)) := by
  intro b u e; cases e; exact h
theorem ExSndP.error {ε α : Type} {e : ε} : ExSndP P (Except.error e : Except ε (α × State)) := by intro b u h; cases h
theorem OptP.some {t : State} (h : P t) : OptP P (some t) := by intro u e; cases e; exact h
theorem OptP.none : OptP P (none : Option State) := by intro u h; cases h
theorem OptP.map {α : Type} {x : Option α} {f : α → State} (h : ∀ y, P (f y)) : OptP P (x.map f) := by
  intro u e; cases x <;> cases e; exact h _
theorem OptSndP.some {α : Type} {a : α} {t : State} (h : P t) : OptSndP P (some (a, t)) := by intro b u e; cases e; exact h
theorem OptSndP.none {α : Type} : OptSndP P (none : Option (α × State)) := by intro b u h; cases h

theorem SndP.out {α : Type} {x : α × State} (h : SndP P x) : P x.2 := h
theorem TrdP.out {α β : Type} {x : α × β × State} (h : TrdP P x) : P x.2.2 := h
theorem FstP.out {α : Type} {x : State × α} (h : FstP P x) : P x.1 := h
theorem SndP.at {α : Type} {x : α × State} {a : α} {t : State} (h : SndP P x) (e : x = (a, t)) : P t := by subst e; exact h
theorem FstP.at {α : Type} {x : State × α} {a : α} {t : State} (h : FstP P x) (e : x = (t, a)) : P t := by subst e; exact h
theorem TrdP.at {α β : Type} {x : α × β × State} {a : α} {b : β} {t : State} (h : TrdP P x) (e : x = (a, b, t)) : P t := by subst e; exact h
theorem atExP {ε : Type} {x : Except ε State} {t : State} (h : ExP P x) (e : x = .ok t) : P t := h t e
theorem atOptP {x : Option State} {t : State} (h : OptP P x) (e : x = some t) : P t := h t e
theorem atExSndP {ε α : Type} {x : Except ε (α × State)} {a : α} {t : State} (h : ExSndP P x) (e : x = .ok (a, t)) : P t := h a t e
theorem atOptSndP {α : Type} {x : Option (α × State)} {a : α} {t : State} (h : OptSndP P x) (e : x = some (a, t)) : P t := h a t e

/-- P holds of both states of a row's end: the one that goes on, where there is one, and the one left. -/
def BothP (P : State → Prop) (x : Option State × State) : Prop := P x.2 ∧ ∀ t, x.1 = some t → P t
theorem BothP.none {t : State} (h : P t) : BothP P (none, t) := ⟨h, fun u e => by cases e⟩
theorem BothP.some {t u : State} (h : P t) (h2 : P u) : BothP P (some u, t) := ⟨h, fun v e => by cases e; exact h2⟩
theorem BothP.go {x : Option State × State} {t u : State} (h : BothP P x) (e : x = (Option.some t, u)) : P t := by subst e; exact h.2 t rfl
theorem BothP.left {x : Option State × State} {t : Option State} {u : State} (h : BothP P x) (e : x = (t, u)) : P u := by subst e; exact h.1

end Sys2Proof.Laws
end

