-- ==== Sys2Proof/Laws/KeepsOps.lean ====
section
/-! SUPPORT. What the functions of Machine/Ops.lean keep: see Laws/Closed.lean. -/

set_option linter.unusedTactic false
set_option linter.unreachableTactic false

namespace Sys2Proof.Laws

open Sys2Proof.Machine

variable {P : State → Prop}

theorem cl_put (hP : Quiet P) (s : State) (f : Fld) (i v : Nat) (hs : P s) : P (s.put f i v) := hP.put s f i v hs

theorem cl_inc (hP : Quiet P) (s : State) (f : Fld) (i n : Nat) (hs : P s) : P (State.inc s f i n) := by
  unfold State.inc
  with_reducible repeat' first | assumption | (apply cl_put hP) | (apply Quiet.put hP) | split

theorem cl_putBitAt (hP : Quiet P) (s : State) (f : Fld) (i b : Nat) (v : Bool) (hs : P s) : P (State.putBitAt s f i b v) := by
  unfold State.putBitAt
  with_reducible repeat' first | assumption | (apply cl_put hP) | (apply Quiet.put hP) | split

theorem cl_putPeer (hP : Quiet P) (s : State) (n : Nat) (x : Peer) (hs : P s) : P (State.putPeer s n x) := by
  unfold State.putPeer
  with_reducible repeat' first | assumption | (apply Quiet.put hP) | ((apply Quiet.mk' hP); first | assumption | (apply Quiet.put hP) | split) | ((apply Quiet.mk' hP); (apply Quiet.mk' hP); first | assumption | (apply Quiet.put hP) | split) | split

theorem cl_send (hP : Quiet P) (s : State) (m : Msg) (hs : P s) : P (s.send m) := by
  unfold State.send; split
  · exact hs
  · exact hP.sent s _ [m] rfl rfl rfl rfl rfl rfl hs

theorem cl_sendAll (hP : Quiet P) (s : State) (l : List Msg) (hs : P s) : P (s.sendAll l) := hP.sent s _ l rfl rfl rfl rfl rfl rfl hs

theorem cl_trace (hP : Quiet P) (s : State) (kind ring jobRef unit : Nat) (hs : P s) : P (State.trace s kind ring jobRef unit) := by
  unfold State.trace
  with_reducible repeat' first | assumption | (apply cl_send hP) | (apply Quiet.put hP) | split

theorem cl_traceJob (hP : Quiet P) (s : State) (kind : Nat) (job : Option Job) (unit : Nat) (hs : P s) : P (State.traceJob s kind job unit) := by
  unfold State.traceJob
  with_reducible repeat' first | assumption | (apply cl_trace hP) | (apply Quiet.put hP) | split

theorem cl_fresh (hP : Quiet P) (s : State) (hs : P s) : SndP P (State.fresh s) := by
  unfold State.fresh
  with_reducible repeat' first | assumption | (apply Quiet.put hP) | ((apply Quiet.mk' hP); first | assumption | (apply Quiet.put hP) | split) | ((apply Quiet.mk' hP); (apply Quiet.mk' hP); first | assumption | (apply Quiet.put hP) | split) | split | (apply SndP.mk)

theorem cl_putCtx (hP : Quiet P) (s : State) (k c : Nat) (x : KCtx) (hs : P s) : P (State.putCtx s k c x) := by
  unfold State.putCtx
  with_reducible repeat' first | assumption | (apply Quiet.put hP) | ((apply Quiet.mk' hP); first | assumption | (apply Quiet.put hP) | split) | ((apply Quiet.mk' hP); (apply Quiet.mk' hP); first | assumption | (apply Quiet.put hP) | split) | split

theorem cl_putKiln (hP : Quiet P) (s : State) (k : Nat) (x : Kiln) (hs : P s) : P (State.putKiln s k x) := by
  unfold State.putKiln
  with_reducible repeat' first | assumption | (apply Quiet.put hP) | ((apply Quiet.mk' hP); first | assumption | (apply Quiet.put hP) | split) | ((apply Quiet.mk' hP); (apply Quiet.mk' hP); first | assumption | (apply Quiet.put hP) | split) | split

theorem cl_putStream (hP : Quiet P) (s : State) (n : Nat) (x : Stream) (hs : P s) : P (State.putStream s n x) := by
  unfold State.putStream
  with_reducible repeat' first | assumption | (apply Quiet.put hP) | ((apply Quiet.mk' hP); first | assumption | (apply Quiet.put hP) | split) | ((apply Quiet.mk' hP); (apply Quiet.mk' hP); first | assumption | (apply Quiet.put hP) | split) | split

theorem cl_putRing (hP : Quiet P) (s : State) (n : Nat) (x : Ring) (hs : P s) : P (State.putRing s n x) := by
  unfold State.putRing
  with_reducible repeat' first | assumption | (apply Quiet.put hP) | ((apply Quiet.mk' hP); first | assumption | (apply Quiet.put hP) | split) | ((apply Quiet.mk' hP); (apply Quiet.mk' hP); first | assumption | (apply Quiet.put hP) | split) | split

theorem cl_putTable (hP : Quiet P) (s : State) (n : Nat) (x : Table) (hs : P s) : P (State.putTable s n x) := by
  unfold State.putTable
  with_reducible repeat' first | assumption | (apply Quiet.put hP) | ((apply Quiet.mk' hP); first | assumption | (apply Quiet.put hP) | split) | ((apply Quiet.mk' hP); (apply Quiet.mk' hP); first | assumption | (apply Quiet.put hP) | split) | split

theorem cl_putGroup (hP : Quiet P) (s : State) (n : Nat) (x : Group) (hs : P s) : P (State.putGroup s n x) := by
  unfold State.putGroup
  with_reducible repeat' first | assumption | (apply Quiet.put hP) | ((apply Quiet.mk' hP); first | assumption | (apply Quiet.put hP) | split) | ((apply Quiet.mk' hP); (apply Quiet.mk' hP); first | assumption | (apply Quiet.put hP) | split) | split

theorem cl_putMaster (hP : Quiet P) (s : State) (n : Nat) (x : MasterRec) (hs : P s) : P (State.putMaster s n x) := by
  unfold State.putMaster
  with_reducible repeat' first | assumption | (apply Quiet.put hP) | ((apply Quiet.mk' hP); first | assumption | (apply Quiet.put hP) | split) | ((apply Quiet.mk' hP); (apply Quiet.mk' hP); first | assumption | (apply Quiet.put hP) | split) | split

theorem cl_putCrane (hP : Quiet P) (s : State) (n : Nat) (x : Crane) (hs : P s) : P (State.putCrane s n x) := by
  unfold State.putCrane
  with_reducible repeat' first | assumption | (apply Quiet.put hP) | ((apply Quiet.mk' hP); first | assumption | (apply Quiet.put hP) | split) | ((apply Quiet.mk' hP); (apply Quiet.mk' hP); first | assumption | (apply Quiet.put hP) | split) | split

theorem cl_putModel (hP : Quiet P) (s : State) (n : Nat) (x : Model) (hs : P s) : P (State.putModel s n x) := by
  unfold State.putModel
  with_reducible repeat' first | assumption | (apply Quiet.put hP) | ((apply Quiet.mk' hP); first | assumption | (apply Quiet.put hP) | split) | ((apply Quiet.mk' hP); (apply Quiet.mk' hP); first | assumption | (apply Quiet.put hP) | split) | split

theorem cl_putQuay (hP : Quiet P) (s : State) (n : Nat) (x : Quay) (hs : P s) : P (State.putQuay s n x) := by
  unfold State.putQuay
  with_reducible repeat' first | assumption | (apply Quiet.put hP) | ((apply Quiet.mk' hP); first | assumption | (apply Quiet.put hP) | split) | ((apply Quiet.mk' hP); (apply Quiet.mk' hP); first | assumption | (apply Quiet.put hP) | split) | split

theorem cl_putJob (hP : Quiet P) (s : State) (x : Job) (hs : P s) : P (State.putJob s x) := by
  unfold State.putJob
  with_reducible repeat' first | assumption | (apply Quiet.put hP) | ((apply Quiet.mk' hP); first | assumption | (apply Quiet.put hP) | split) | ((apply Quiet.mk' hP); (apply Quiet.mk' hP); first | assumption | (apply Quiet.put hP) | split) | split | (intro _ _) | (intro _)

theorem cl_hostWrite (hP : Closed P) (s : State) (b : Nat) (l : List Byte) (hs : P s) : P (s.hostWrite b l) := by
  induction l generalizing s b with
  | nil => exact hs
  | cons x l ih => exact ih _ _ (hP.hostByte s b x hs)

theorem cl_pokeByte (hP : Closed P) (s : State) (v : View) (a : Nat) (b : Byte) (hs : P s) : P (State.pokeByte s v a b) := hP.poke s v a b hs

theorem cl_pokeBytes (hP : Closed P) (s : State) (v : View) (a : Nat) (r0 : List Byte) (hs : P s) : P (State.pokeBytes s v a r0) := by
  induction r0 generalizing s v a with
  | nil =>
    unfold State.pokeBytes
    with_reducible repeat' first | assumption | (apply ih) | (apply cl_pokeByte hP) | (apply Quiet.put hP.toQuiet) | ((apply Quiet.mk' hP.toQuiet); first | assumption | (apply ih) | (apply cl_pokeByte hP) | (apply Quiet.put hP.toQuiet) | split) | split | (intro _ _) | (intro _)
  | cons x l ih =>
    unfold State.pokeBytes
    try dsimp only
    with_reducible repeat' first | assumption | (apply ih) | (apply cl_pokeByte hP) | (apply Quiet.put hP.toQuiet) | ((apply Quiet.mk' hP.toQuiet); first | assumption | (apply ih) | (apply cl_pokeByte hP) | (apply Quiet.put hP.toQuiet) | split) | split | (intro _ _) | (intro _)

theorem cl_poke (hP : Closed P) (s : State) (a : Nat) (bs : List Byte) (hs : P s) : P (State.poke s a bs) := by
  unfold State.poke
  with_reducible repeat' first | assumption | (apply cl_pokeBytes hP) | (apply Quiet.put hP.toQuiet) | split

theorem cl_dropHot (hP : Quiet P) (s : State) (a n : Nat) (hs : P s) : P (State.dropHot s a n) := by
  unfold State.dropHot
  with_reducible repeat' first | assumption | (apply Quiet.put hP) | ((apply Quiet.mk' hP); first | assumption | (apply Quiet.put hP) | split) | ((apply Quiet.mk' hP); (apply Quiet.mk' hP); first | assumption | (apply Quiet.put hP) | split) | split | (intro _ _) | (intro _)

theorem cl_zero (hP : Closed P) (s : State) (a n : Nat) (hs : P s) : P (State.zero s a n) := hP.zero s a n hs

theorem cl_copyMem (hP : Closed P) (s : State) (a b n : Nat) (hs : P s) : P (State.copyMem s a b n) := hP.copy s a b n hs

theorem cl_poison (hP : Quiet P) (s : State) (a : Nat) (hs : P s) : P (State.poison s a) := by
  unfold State.poison
  with_reducible repeat' first | assumption | (apply Quiet.put hP) | ((apply Quiet.mk' hP); first | assumption | (apply Quiet.put hP) | split) | ((apply Quiet.mk' hP); (apply Quiet.mk' hP); first | assumption | (apply Quiet.put hP) | split) | split

end Sys2Proof.Laws
end

