-- ==== Sys2Proof/Laws/KeepsRecords.lean ====
section
/-! SUPPORT. What the functions of Machine/Records.lean keep: see Laws/Closed.lean. -/

set_option linter.unusedTactic false
set_option linter.unreachableTactic false

namespace Sys2Proof.Laws

open Sys2Proof.Machine

variable {P : State → Prop}

theorem cl_irq (hP : Quiet P) (s : State) (port vector : Nat) (hs : P s) : P (State.irq s port vector) := by
  unfold State.irq
  with_reducible repeat' first | assumption | (apply cl_send hP) | (apply Quiet.put hP) | ((apply Quiet.mk' hP); first | assumption | (apply cl_send hP) | (apply Quiet.put hP) | split) | ((apply Quiet.mk' hP); (apply Quiet.mk' hP); first | assumption | (apply cl_send hP) | (apply Quiet.put hP) | split) | split

theorem cl_ringIrq (hP : Quiet P) (s : State) (n : Nat) (hs : P s) : P (State.ringIrq s n) := by
  unfold State.ringIrq; try dsimp only
  with_reducible repeat' first | assumption | (apply cl_irq hP) | (apply cl_putRing hP) | (apply Quiet.put hP) | ((apply Quiet.mk' hP); first | assumption | (apply cl_irq hP) | (apply cl_putRing hP) | (apply Quiet.put hP) | split) | ((apply Quiet.mk' hP); (apply Quiet.mk' hP); first | assumption | (apply cl_irq hP) | (apply cl_putRing hP) | (apply Quiet.put hP) | split) | split

theorem cl_putRecord (hP : Closed P) (s : State) (n : Nat) (bs : List Byte) (noIrq : Bool) (hs : P s) : P (State.putRecord s n bs noIrq) := by
  unfold State.putRecord; try dsimp only
  with_reducible repeat' first | assumption | (apply cl_hostWrite hP) | (apply cl_putRing hP.toQuiet) | (apply cl_ringIrq hP.toQuiet) | (apply Quiet.put hP.toQuiet) | ((apply Quiet.mk' hP.toQuiet); first | assumption | (apply cl_hostWrite hP) | (apply cl_putRing hP.toQuiet) | (apply cl_ringIrq hP.toQuiet) | (apply Quiet.put hP.toQuiet) | split) | ((apply Quiet.mk' hP.toQuiet); (apply Quiet.mk' hP.toQuiet); first | assumption | (apply cl_hostWrite hP) | (apply cl_putRing hP.toQuiet) | (apply cl_ringIrq hP.toQuiet) | (apply Quiet.put hP.toQuiet) | split) | split

theorem cl_postRecord (hP : Closed P) (s : State) (n : Nat) (bs : List Byte) (noIrq : Bool) (hs : P s) : P (State.postRecord s n bs noIrq) := by
  unfold State.postRecord; try dsimp only
  with_reducible repeat' first | assumption | (apply cl_putRecord hP) | (apply cl_putRing hP.toQuiet) | (apply Quiet.put hP.toQuiet) | ((apply Quiet.mk' hP.toQuiet); first | assumption | (apply cl_putRecord hP) | (apply cl_putRing hP.toQuiet) | (apply Quiet.put hP.toQuiet) | split) | ((apply Quiet.mk' hP.toQuiet); (apply Quiet.mk' hP.toQuiet); first | assumption | (apply cl_putRecord hP) | (apply cl_putRing hP.toQuiet) | (apply Quiet.put hP.toQuiet) | split) | split

theorem cl_flushRing (hP : Closed P) (s : State) (n : Nat) (hs : P s) : P (State.flushRing s n) := by
  unfold State.flushRing; try dsimp only
  with_reducible repeat' first | assumption | (apply cl_putRing hP.toQuiet) | (apply cl_putRecord hP) | (apply cl_ringIrq hP.toQuiet) | (apply Quiet.put hP.toQuiet) | ((apply Quiet.mk' hP.toQuiet); first | assumption | (apply cl_putRing hP.toQuiet) | (apply cl_putRecord hP) | (apply cl_ringIrq hP.toQuiet) | (apply Quiet.put hP.toQuiet) | (apply cl_foldl) | split) | ((apply Quiet.mk' hP.toQuiet); (apply Quiet.mk' hP.toQuiet); first | assumption | (apply cl_putRing hP.toQuiet) | (apply cl_putRecord hP) | (apply cl_ringIrq hP.toQuiet) | (apply Quiet.put hP.toQuiet) | (apply cl_foldl) | split) | split | (apply cl_foldl) | (intro _ _) | (intro _)

theorem cl_putEvent (hP : Closed P) (s : State) (bs : List Byte) (hs : P s) : P (State.putEvent s bs) := by
  unfold State.putEvent; try dsimp only
  with_reducible repeat' first | assumption | (apply cl_hostWrite hP) | (apply cl_irq hP.toQuiet) | (apply Quiet.put hP.toQuiet) | ((apply Quiet.mk' hP.toQuiet); first | assumption | (apply cl_hostWrite hP) | (apply cl_irq hP.toQuiet) | (apply Quiet.put hP.toQuiet) | split) | ((apply Quiet.mk' hP.toQuiet); (apply Quiet.mk' hP.toQuiet); first | assumption | (apply cl_hostWrite hP) | (apply cl_irq hP.toQuiet) | (apply Quiet.put hP.toQuiet) | split) | split

theorem cl_postEvent (hP : Closed P) (s : State) (bs : List Byte) (hs : P s) : P (State.postEvent s bs) := by
  unfold State.postEvent
  with_reducible repeat' first | assumption | (apply cl_putEvent hP) | (apply cl_inc hP.toQuiet) | (apply cl_put hP.toQuiet) | (apply Quiet.put hP.toQuiet) | ((apply Quiet.mk' hP.toQuiet); first | assumption | (apply cl_putEvent hP) | (apply cl_inc hP.toQuiet) | (apply cl_put hP.toQuiet) | (apply Quiet.put hP.toQuiet) | split) | ((apply Quiet.mk' hP.toQuiet); (apply Quiet.mk' hP.toQuiet); first | assumption | (apply cl_putEvent hP) | (apply cl_inc hP.toQuiet) | (apply cl_put hP.toQuiet) | (apply Quiet.put hP.toQuiet) | split) | split

theorem cl_drainEvents (hP : Closed P) (s : State) (r0 : List (List Byte)) (hs : P s) : P (State.drainEvents s r0) := by
  induction r0 generalizing s with
  | nil =>
    unfold State.drainEvents
    with_reducible repeat' first | assumption | (apply ih) | (apply cl_putEvent hP) | (apply Quiet.put hP.toQuiet) | ((apply Quiet.mk' hP.toQuiet); first | assumption | (apply ih) | (apply cl_putEvent hP) | (apply Quiet.put hP.toQuiet) | split) | split | (intro _ _) | (intro _)
  | cons x l ih =>
    unfold State.drainEvents
    try dsimp only
    with_reducible repeat' first | assumption | (apply ih) | (apply cl_putEvent hP) | (apply Quiet.put hP.toQuiet) | ((apply Quiet.mk' hP.toQuiet); first | assumption | (apply ih) | (apply cl_putEvent hP) | (apply Quiet.put hP.toQuiet) | split) | split | (intro _ _) | (intro _)

theorem cl_flushEvents (hP : Closed P) (s : State) (hs : P s) : P (State.flushEvents s) := by
  unfold State.flushEvents
  with_reducible repeat' first | assumption | (apply cl_drainEvents hP) | (apply Quiet.put hP.toQuiet) | split

end Sys2Proof.Laws
end

