-- ==== Sys2Proof/Laws/KeepsErrors.lean ====
section
/-! SUPPORT. What the functions of Machine/Errors.lean keep: see Laws/Closed.lean. -/

set_option linter.unusedTactic false
set_option linter.unreachableTactic false

namespace Sys2Proof.Laws

open Sys2Proof.Machine

variable {P : State → Prop}

theorem cl_fenceStack (hP : Quiet P) (s : State) (stack cause : Nat) (hs : P s) : P (State.fenceStack s stack cause) := by
  unfold State.fenceStack; try dsimp only
  with_reducible repeat' first | assumption | (apply cl_putBitAt hP) | (apply cl_put hP) | (apply Quiet.put hP) | split | (apply cl_foldl) | (intro _ _) | (intro _)

theorem cl_putWayStop (hP : Quiet P) (s : State) (d w : Nat) (b : Bool) (hs : P s) : P (State.putWayStop s d w b) := by
  unfold State.putWayStop
  with_reducible repeat' first | assumption | (apply cl_putBitAt hP) | (apply Quiet.put hP) | split

theorem cl_putWayStopped (hP : Quiet P) (s : State) (d w : Nat) (b : Bool) (hs : P s) : P (State.putWayStopped s d w b) := by
  unfold State.putWayStopped
  with_reducible repeat' first | assumption | (apply cl_putBitAt hP) | (apply Quiet.put hP) | split

theorem cl_putWayBlocked (hP : Quiet P) (s : State) (d w : Nat) (b : Bool) (hs : P s) : P (State.putWayBlocked s d w b) := by
  unfold State.putWayBlocked
  with_reducible repeat' first | assumption | (apply cl_putBitAt hP) | (apply Quiet.put hP) | split

theorem cl_stopWay (hP : Quiet P) (s : State) (d w : Nat) (hs : P s) : P (State.stopWay s d w) := by
  unfold State.stopWay; try dsimp only
  with_reducible repeat' first | assumption | (apply cl_putWayStop hP) | (apply cl_putWayStopped hP) | (apply Quiet.put hP) | split

theorem cl_fenceUnit (hP : Quiet P) (s : State) (kind source unit addr : Nat) (hs : P s) : P (State.fenceUnit s kind source unit addr) := by
  unfold State.fenceUnit; try dsimp only
  with_reducible repeat' first | assumption | (apply cl_put hP) | (apply cl_putCrane hP) | (apply cl_stopWay hP) | (apply cl_fenceStack hP) | (apply cl_putQuay hP) | (apply Quiet.put hP) | ((apply Quiet.mk' hP); first | assumption | (apply cl_put hP) | (apply cl_putCrane hP) | (apply cl_stopWay hP) | (apply cl_fenceStack hP) | (apply cl_putQuay hP) | (apply Quiet.put hP) | split) | ((apply Quiet.mk' hP); (apply Quiet.mk' hP); first | assumption | (apply cl_put hP) | (apply cl_putCrane hP) | (apply cl_stopWay hP) | (apply cl_fenceStack hP) | (apply cl_putQuay hP) | (apply Quiet.put hP) | split) | split

theorem cl_elogPush (hP : Quiet P) (s : State) (bs : List Byte) (hs : P s) : P (State.elogPush s bs) := by
  unfold State.elogPush; try dsimp only
  with_reducible repeat' first | assumption | (apply cl_inc hP) | (apply cl_put hP) | (apply Quiet.put hP) | ((apply Quiet.mk' hP); first | assumption | (apply cl_inc hP) | (apply cl_put hP) | (apply Quiet.put hP) | split) | ((apply Quiet.mk' hP); (apply Quiet.mk' hP); first | assumption | (apply cl_inc hP) | (apply cl_put hP) | (apply Quiet.put hP) | split) | split

theorem cl_record (hP : Closed P) (s : State) (e : Err) (bs : List Byte) (hs : P s) : P (State.record s e bs) := by
  unfold State.record
  with_reducible repeat' first | assumption | (apply cl_elogPush hP.toQuiet) | (apply cl_postEvent hP) | (apply cl_traceJob hP.toQuiet) | (apply Quiet.put hP.toQuiet) | split

theorem cl_logError (hP : Closed P) (s : State) (e : Err) (hs : P s) : P (State.logError s e) := by
  unfold State.logError
  with_reducible repeat' first | assumption | (apply cl_record hP) | (apply Quiet.put hP.toQuiet) | split

theorem cl_jobRecord (hP : Closed P) (s : State) (j : Job) (status resource : Nat) (win : Option (Nat × Nat)) (hs : P s) : P (State.jobRecord s j status resource win) := by
  unfold State.jobRecord; try dsimp only
  with_reducible repeat' first | assumption | (apply cl_postRecord hP) | (apply Quiet.put hP.toQuiet) | split

theorem cl_deviceStop (hP : Closed P) (s : State) (e : Err) (hs : P s) : P (State.deviceStop s e) := by
  unfold State.deviceStop; try dsimp only
  with_reducible repeat' first | assumption | (apply cl_logError hP) | (apply cl_jobRecord hP) | (apply cl_put hP.toQuiet) | (apply cl_send hP.toQuiet) | (apply Quiet.put hP.toQuiet) | ((apply Quiet.mk' hP.toQuiet); first | assumption | (apply cl_logError hP) | (apply cl_jobRecord hP) | (apply cl_put hP.toQuiet) | (apply cl_send hP.toQuiet) | (apply Quiet.put hP.toQuiet) | (apply cl_foldl) | split) | ((apply Quiet.mk' hP.toQuiet); (apply Quiet.mk' hP.toQuiet); first | assumption | (apply cl_logError hP) | (apply cl_jobRecord hP) | (apply cl_put hP.toQuiet) | (apply cl_send hP.toQuiet) | (apply Quiet.put hP.toQuiet) | (apply cl_foldl) | split) | split | (apply cl_foldl) | (intro _ _) | (intro _)

theorem cl_takeInHand (hP : Quiet P) (s : State) (e : Err) (hs : P s) : P (State.takeInHand s e) := by
  unfold State.takeInHand
  with_reducible repeat' first | assumption | (apply cl_put hP) | (apply Quiet.put hP) | ((apply Quiet.mk' hP); first | assumption | (apply cl_put hP) | (apply Quiet.put hP) | split) | ((apply Quiet.mk' hP); (apply Quiet.mk' hP); first | assumption | (apply cl_put hP) | (apply Quiet.put hP) | split) | split

theorem cl_ringFull (hP : Closed P) (s : State) (e : Err) (hs : P s) : P (State.ringFull s e) := by
  unfold State.ringFull; try dsimp only
  with_reducible repeat' first | assumption | (apply cl_logError hP) | (apply cl_inc hP.toQuiet) | (apply cl_fenceUnit hP.toQuiet) | (apply Quiet.put hP.toQuiet) | ((apply Quiet.mk' hP.toQuiet); first | assumption | (apply cl_logError hP) | (apply cl_inc hP.toQuiet) | (apply cl_fenceUnit hP.toQuiet) | (apply Quiet.put hP.toQuiet) | split) | ((apply Quiet.mk' hP.toQuiet); (apply Quiet.mk' hP.toQuiet); first | assumption | (apply cl_logError hP) | (apply cl_inc hP.toQuiet) | (apply cl_fenceUnit hP.toQuiet) | (apply Quiet.put hP.toQuiet) | split) | split

theorem cl_queueError (hP : Closed P) (s : State) (e : Err) (hs : P s) : P (State.queueError s e) := by
  unfold State.queueError
  with_reducible repeat' first | assumption | (apply cl_takeInHand hP.toQuiet) | (apply cl_ringFull hP) | (apply Quiet.put hP.toQuiet) | ((apply Quiet.mk' hP.toQuiet); first | assumption | (apply cl_takeInHand hP.toQuiet) | (apply cl_ringFull hP) | (apply Quiet.put hP.toQuiet) | split) | ((apply Quiet.mk' hP.toQuiet); (apply Quiet.mk' hP.toQuiet); first | assumption | (apply cl_takeInHand hP.toQuiet) | (apply cl_ringFull hP) | (apply Quiet.put hP.toQuiet) | split) | split

theorem cl_detectOne (hP : Closed P) (s : State) (e : Err) (hs : P s) : P (State.detectOne s e) := by
  unfold State.detectOne; try dsimp only
  with_reducible repeat' first | assumption | (apply cl_deviceStop hP) | (apply cl_queueError hP) | (apply Quiet.put hP.toQuiet) | ((apply Quiet.mk' hP.toQuiet); first | assumption | (apply cl_deviceStop hP) | (apply cl_queueError hP) | (apply Quiet.put hP.toQuiet) | split) | ((apply Quiet.mk' hP.toQuiet); (apply Quiet.mk' hP.toQuiet); first | assumption | (apply cl_deviceStop hP) | (apply cl_queueError hP) | (apply Quiet.put hP.toQuiet) | split) | split

theorem cl_failStack (hP : Closed P) (s : State) (stack cause : Nat) (hs : P s) : P (State.failStack s stack cause) := by
  unfold State.failStack; try dsimp only
  with_reducible repeat' first | assumption | (apply cl_detectOne hP) | (apply cl_fenceStack hP.toQuiet) | (apply Quiet.put hP.toQuiet) | ((apply Quiet.mk' hP.toQuiet); first | assumption | (apply cl_detectOne hP) | (apply cl_fenceStack hP.toQuiet) | (apply Quiet.put hP.toQuiet) | split) | ((apply Quiet.mk' hP.toQuiet); (apply Quiet.mk' hP.toQuiet); first | assumption | (apply cl_detectOne hP) | (apply cl_fenceStack hP.toQuiet) | (apply Quiet.put hP.toQuiet) | split) | split

theorem cl_countStack (hP : Closed P) (s : State) (stack : Nat) (hs : P s) : P (State.countStack s stack) := by
  unfold State.countStack; try dsimp only
  with_reducible repeat' first | assumption | (apply cl_failStack hP) | (apply Quiet.put hP.toQuiet) | ((apply Quiet.mk' hP.toQuiet); first | assumption | (apply cl_failStack hP) | (apply Quiet.put hP.toQuiet) | split) | ((apply Quiet.mk' hP.toQuiet); (apply Quiet.mk' hP.toQuiet); first | assumption | (apply cl_failStack hP) | (apply Quiet.put hP.toQuiet) | split) | split | (intro _ _) | (intro _)

theorem cl_detect (hP : Closed P) (s : State) (e : Err) (hs : P s) : P (State.detect s e) := by
  unfold State.detect; try dsimp only
  with_reducible repeat' first | assumption | (apply cl_detectOne hP) | (apply cl_countStack hP) | (apply Quiet.put hP.toQuiet) | split

theorem cl_wordError (hP : Closed P) (s : State) (a : Nat) (job : Option Nat) (hs : P s) : P (State.wordError s a job) := by
  unfold State.wordError
  with_reducible repeat' first | assumption | (apply cl_inc hP.toQuiet) | (apply cl_detect hP) | (apply Quiet.put hP.toQuiet) | split

theorem cl_correctWords (hP : Closed P) (s : State) (ws : List Nat) (hs : P s) : P (State.correctWords s ws) := by
  unfold State.correctWords; try dsimp only
  with_reducible repeat' first | assumption | (apply cl_inc hP.toQuiet) | (apply cl_detect hP) | (apply Quiet.put hP.toQuiet) | ((apply Quiet.mk' hP.toQuiet); first | assumption | (apply cl_inc hP.toQuiet) | (apply cl_detect hP) | (apply Quiet.put hP.toQuiet) | (apply cl_foldl) | split) | ((apply Quiet.mk' hP.toQuiet); (apply Quiet.mk' hP.toQuiet); first | assumption | (apply cl_inc hP.toQuiet) | (apply cl_detect hP) | (apply Quiet.put hP.toQuiet) | (apply cl_foldl) | split) | split | (apply cl_foldl) | (intro _ _) | (intro _)

theorem cl_correct (hP : Closed P) (s : State) (a n : Nat) (hs : P s) : P (State.correct s a n) := by
  unfold State.correct
  with_reducible repeat' first | assumption | (apply cl_correctWords hP) | (apply Quiet.put hP.toQuiet) | split

end Sys2Proof.Laws
end

