-- ==== Sys2Proof/Laws/KeepsWords.lean ====
section
/-! SUPPORT. What the functions of Machine/Words.lean keep: see Laws/Closed.lean. -/

set_option linter.unusedTactic false
set_option linter.unreachableTactic false

namespace Sys2Proof.Laws

open Sys2Proof.Machine

variable {P : State → Prop}

theorem cl_fillWin (hP : Quiet P) (s : State) (a : Nat) (hs : P s) : P (State.fillWin s a) := by
  unfold State.fillWin
  with_reducible repeat' first | assumption | (apply Quiet.put hP) | ((apply Quiet.mk' hP); first | assumption | (apply Quiet.put hP) | split) | ((apply Quiet.mk' hP); (apply Quiet.mk' hP); first | assumption | (apply Quiet.put hP) | split) | split

theorem cl_fillWins (hP : Quiet P) (s : State) (ps : List (Nat × Nat)) (hs : P s) : P (State.fillWins s ps) := by
  unfold State.fillWins
  with_reducible repeat' first | assumption | (apply cl_fillWin hP) | (apply Quiet.put hP) | split | (apply cl_foldl) | (intro _ _) | (intro _)

theorem cl_read (hP : Closed P) (s : State) (r : Req) (a n : Nat) (hs : P s) : ExSndP P (State.read s r a n) := by
  unfold State.read; try dsimp only
  with_reducible repeat' first | assumption | (apply cl_ok hP.toQuiet) | (apply cl_correctWords hP) | (apply cl_fillWins hP.toQuiet) | (apply Quiet.put hP.toQuiet) | ((apply Quiet.mk' hP.toQuiet); first | assumption | (apply cl_ok hP.toQuiet) | (apply cl_correctWords hP) | (apply cl_fillWins hP.toQuiet) | (apply Quiet.put hP.toQuiet) | split) | ((apply Quiet.mk' hP.toQuiet); (apply Quiet.mk' hP.toQuiet); first | assumption | (apply cl_ok hP.toQuiet) | (apply cl_correctWords hP) | (apply cl_fillWins hP.toQuiet) | (apply Quiet.put hP.toQuiet) | split) | split | (intro _ _) | (intro _) | (apply ExSndP.ok) | (exact ExSndP.error)

theorem cl_renew (hP : Quiet P) (s : State) (ws : List Nat) (hs : P s) : P (State.renew s ws) := by
  unfold State.renew
  with_reducible repeat' first | assumption | (apply Quiet.put hP) | ((apply Quiet.mk' hP); first | assumption | (apply Quiet.put hP) | split) | ((apply Quiet.mk' hP); (apply Quiet.mk' hP); first | assumption | (apply Quiet.put hP) | split) | split | (intro _ _) | (intro _)

theorem cl_writeLoc (hP : Closed P) (s : State) (l : Loc) (bs : List Byte) (hs : P s) : P (State.writeLoc s l bs) := by
  unfold State.writeLoc
  with_reducible repeat' first | assumption | (apply cl_hostWrite hP) | (apply cl_dropHot hP.toQuiet) | (apply cl_correctWords hP) | (apply cl_renew hP.toQuiet) | (apply cl_pokeBytes hP) | (apply Quiet.put hP.toQuiet) | split

theorem cl_writePlaces (hP : Closed P) (s : State) (r0 : List (Loc × Nat)) (r1 : List Byte) (hs : P s) : P (State.writePlaces s r0 r1) := by
  induction r0 generalizing s r1 with
  | nil =>
    unfold State.writePlaces
    with_reducible repeat' first | assumption | (apply ih) | (apply cl_writeLoc hP) | (apply Quiet.put hP.toQuiet) | ((apply Quiet.mk' hP.toQuiet); first | assumption | (apply ih) | (apply cl_writeLoc hP) | (apply Quiet.put hP.toQuiet) | split) | split | (intro _ _) | (intro _)
  | cons x l ih =>
    unfold State.writePlaces
    try dsimp only
    with_reducible repeat' first | assumption | (apply ih) | (apply cl_writeLoc hP) | (apply Quiet.put hP.toQuiet) | ((apply Quiet.mk' hP.toQuiet); first | assumption | (apply ih) | (apply cl_writeLoc hP) | (apply Quiet.put hP.toQuiet) | split) | split | (intro _ _) | (intro _)

theorem cl_write (hP : Closed P) (s : State) (r : Req) (a : Nat) (bs : List Byte) (hs : P s) : ExP P (State.write s r a bs) := by
  unfold State.write
  with_reducible repeat' first | assumption | (apply cl_ok hP.toQuiet) | (apply cl_fillWins hP.toQuiet) | (apply cl_writePlaces hP) | (apply Quiet.put hP.toQuiet) | split | (intro _ _) | (intro _) | (apply ExP.ok) | (exact ExP.error)

theorem cl_memDone (hP : Closed P) (s : State) (e : MemErr) (hs : P s) : P (State.memDone s e) := by
  unfold State.memDone
  with_reducible repeat' first | assumption | (apply cl_dropHot hP.toQuiet) | (apply cl_pokeByte hP) | (apply cl_correctWords hP) | (apply cl_renew hP.toQuiet) | (apply Quiet.put hP.toQuiet) | split | (apply cl_foldl) | (intro _ _) | (intro _)

theorem cl_memError (hP : Closed P) (s : State) (e : MemErr) (job : Option Nat) (hs : P s) : P (State.memError s e job) := by
  unfold State.memError
  with_reducible repeat' first | assumption | (apply cl_wordError hP) | (apply cl_memDone hP) | (apply Quiet.put hP.toQuiet) | split | (apply cl_foldl) | (intro _ _) | (intro _)

end Sys2Proof.Laws
end

