-- ==== Sys2Proof/Laws/KeepsHistories.lean ====
section
/-! SUPPORT. What the functions of Machine/Histories.lean keep: see Laws/Closed.lean. -/

set_option linter.unusedTactic false
set_option linter.unreachableTactic false

namespace Sys2Proof.Laws

open Sys2Proof.Machine

variable {P : State → Prop}

theorem cl_putHist (hP : Closed P) (s : State) (h : Nat) (e : HEntry) (hs : P s) : P (State.putHist s h e) := by
  unfold State.putHist
  with_reducible repeat' first | assumption | (apply cl_poke hP) | (apply Quiet.put hP.toQuiet) | split

theorem cl_takeFrame (hP : Quiet P) (s : State) (die : Option Nat) (hs : P s) : OptSndP P (State.takeFrame s die) := by
  unfold State.takeFrame; try dsimp only
  with_reducible repeat' first | assumption | (apply cl_inc hP) | (apply Quiet.put hP) | ((apply Quiet.mk' hP); first | assumption | (apply cl_inc hP) | (apply Quiet.put hP) | split) | ((apply Quiet.mk' hP); (apply Quiet.mk' hP); first | assumption | (apply cl_inc hP) | (apply Quiet.put hP) | split) | split | (intro _ _) | (intro _) | (apply OptSndP.some) | (exact OptSndP.none)

theorem cl_takePage (hP : Closed P) (s : State) (die : Option Nat) (hs : P s) : OptSndP P (State.takePage s die) := by
  unfold State.takePage; try dsimp only
  with_reducible repeat' first | assumption | (apply cl_zero hP) | (apply cl_takeFrame hP.toQuiet) | (refine atOptSndP ?_ (by assumption); apply cl_takeFrame hP.toQuiet) | (apply Quiet.put hP.toQuiet) | ((apply Quiet.mk' hP.toQuiet); first | assumption | (apply cl_zero hP) | (apply cl_takeFrame hP.toQuiet) | (refine atOptSndP ?_ (by assumption); apply cl_takeFrame hP.toQuiet) | (apply Quiet.put hP.toQuiet) | split) | ((apply Quiet.mk' hP.toQuiet); (apply Quiet.mk' hP.toQuiet); first | assumption | (apply cl_zero hP) | (apply cl_takeFrame hP.toQuiet) | (refine atOptSndP ?_ (by assumption); apply cl_takeFrame hP.toQuiet) | (apply Quiet.put hP.toQuiet) | split) | split | (intro _ _) | (intro _) | (apply OptSndP.some) | (exact OptSndP.none)

theorem cl_growIndex (hP : Closed P) (s : State) (h : Nat) (die : Option Nat) (k c : Nat) (fs : List (Nat × Nat)) (ps : List Nat)
    (hs : P s) : P (State.growIndex s h die k c fs ps).2.2 := by
  induction k generalizing s c fs ps with
  | zero => exact hs
  | succ k ih =>
    unfold State.growIndex
    split
    · exact hs
    · rename_i f s1 h1
      have hs1 : P s1 := atOptSndP (cl_takeFrame hP.toQuiet s die hs) h1
      apply ih
      apply cl_poke hP
      apply FstP.out
      split
      · split
        · rename_i p s2 h2
          apply FstP.mk
          apply cl_putHist hP
          exact atOptSndP (cl_takePage hP s1 die hs1) h2
        · exact FstP.mk hs1
      · split
        · split
          · rename_i p s2 h2
            apply FstP.mk
            apply cl_poke hP
            exact atOptSndP (cl_takePage hP s1 die hs1) h2
          · exact FstP.mk hs1
        · exact FstP.mk hs1

theorem cl_gatherPages (hP : Quiet P) (s : State) (hs : P s) : P (State.gatherPages s) := by
  unfold State.gatherPages; try dsimp only
  with_reducible repeat' first | assumption | (apply Quiet.put hP) | ((apply Quiet.mk' hP); first | assumption | (apply Quiet.put hP) | split) | ((apply Quiet.mk' hP); (apply Quiet.mk' hP); first | assumption | (apply Quiet.put hP) | split) | split | (intro _ _) | (intro _)

theorem cl_beginAppend (hP : Closed P) (s : State) (u : HistUse) (l0 : Nat) (die : Option Nat) (hs : P s) : SndP P (State.beginAppend s u l0 die) := by
  unfold State.beginAppend; try dsimp only
  with_reducible repeat' first | assumption | (apply cl_putHist hP) | (apply cl_growIndex hP) | (refine TrdP.at ?_ (by assumption); apply cl_growIndex hP) | (apply TrdP.out; apply cl_growIndex hP) | (apply Quiet.put hP.toQuiet) | ((apply Quiet.mk' hP.toQuiet); first | assumption | (apply cl_putHist hP) | (apply cl_growIndex hP) | (refine TrdP.at ?_ (by assumption); apply cl_growIndex hP) | (apply TrdP.out; apply cl_growIndex hP) | (apply Quiet.put hP.toQuiet) | split) | ((apply Quiet.mk' hP.toQuiet); (apply Quiet.mk' hP.toQuiet); first | assumption | (apply cl_putHist hP) | (apply cl_growIndex hP) | (refine TrdP.at ?_ (by assumption); apply cl_growIndex hP) | (apply TrdP.out; apply cl_growIndex hP) | (apply Quiet.put hP.toQuiet) | split) | split | (apply SndP.mk)

theorem cl_histRead (hP : Quiet P) (s : State) (u : HistUse) (hs : P s) : SndP P (State.histRead s u) := by
  unfold State.histRead; try dsimp only
  with_reducible repeat' first | assumption | (apply Quiet.put hP) | ((apply Quiet.mk' hP); first | assumption | (apply Quiet.put hP) | split) | ((apply Quiet.mk' hP); (apply Quiet.mk' hP); first | assumption | (apply Quiet.put hP) | split) | split | (apply SndP.mk)

theorem cl_histAppend (hP : Closed P) (s : State) (u : HistUse) (port : Nat) (hs : P s) : SndP P (State.histAppend s u port) := by
  unfold State.histAppend; try dsimp only
  with_reducible repeat' first | assumption | (apply cl_beginAppend hP) | (refine SndP.at ?_ (by assumption); apply cl_beginAppend hP) | (apply SndP.out; apply cl_beginAppend hP) | (apply Quiet.put hP.toQuiet) | split | (apply SndP.mk)

theorem cl_histCreate (hP : Closed P) (s : State) (u : HistUse) (model port : Nat) (hs : P s) : SndP P (State.histCreate s u model port) := by
  unfold State.histCreate; try dsimp only
  with_reducible repeat' first | assumption | (apply cl_putHist hP) | (apply cl_beginAppend hP) | (refine SndP.at ?_ (by assumption); apply cl_beginAppend hP) | (apply SndP.out; apply cl_beginAppend hP) | (apply Quiet.put hP.toQuiet) | split | (apply SndP.mk)

theorem cl_histTrim (hP : Closed P) (s : State) (u : HistUse) (hs : P s) : SndP P (State.histTrim s u) := by
  unfold State.histTrim; try dsimp only
  with_reducible repeat' first | assumption | (apply cl_putHist hP) | (apply Quiet.put hP.toQuiet) | ((apply Quiet.mk' hP.toQuiet); first | assumption | (apply cl_putHist hP) | (apply Quiet.put hP.toQuiet) | split) | ((apply Quiet.mk' hP.toQuiet); (apply Quiet.mk' hP.toQuiet); first | assumption | (apply cl_putHist hP) | (apply Quiet.put hP.toQuiet) | split) | split | (intro _ _) | (intro _) | (apply SndP.mk)

theorem cl_histRelease (hP : Closed P) (s : State) (u : HistUse) (hs : P s) : SndP P (State.histRelease s u) := by
  unfold State.histRelease; try dsimp only
  with_reducible repeat' first | assumption | (apply cl_putHist hP) | (apply Quiet.put hP.toQuiet) | ((apply Quiet.mk' hP.toQuiet); first | assumption | (apply cl_putHist hP) | (apply Quiet.put hP.toQuiet) | split) | ((apply Quiet.mk' hP.toQuiet); (apply Quiet.mk' hP.toQuiet); first | assumption | (apply cl_putHist hP) | (apply Quiet.put hP.toQuiet) | split) | split | (apply SndP.mk)

theorem cl_histBegin (hP : Closed P) (s : State) (u : HistUse) (model port : Nat) (hs : P s) : SndP P (State.histBegin s u model port) := by
  unfold State.histBegin; try dsimp only
  with_reducible repeat' first | assumption | (apply cl_memError hP) | (apply cl_putHist hP) | (apply cl_histRead hP.toQuiet) | (refine SndP.at ?_ (by assumption); apply cl_histRead hP.toQuiet) | (apply SndP.out; apply cl_histRead hP.toQuiet) | (apply cl_histAppend hP) | (refine SndP.at ?_ (by assumption); apply cl_histAppend hP) | (apply SndP.out; apply cl_histAppend hP) | (apply cl_histCreate hP) | (refine SndP.at ?_ (by assumption); apply cl_histCreate hP) | (apply SndP.out; apply cl_histCreate hP) | (apply cl_histTrim hP) | (refine SndP.at ?_ (by assumption); apply cl_histTrim hP) | (apply SndP.out; apply cl_histTrim hP) | (apply cl_histRelease hP) | (refine SndP.at ?_ (by assumption); apply cl_histRelease hP) | (apply SndP.out; apply cl_histRelease hP) | (apply Quiet.put hP.toQuiet) | ((apply Quiet.mk' hP.toQuiet); first | assumption | (apply cl_memError hP) | (apply cl_putHist hP) | (apply cl_histRead hP.toQuiet) | (refine SndP.at ?_ (by assumption); apply cl_histRead hP.toQuiet) | (apply SndP.out; apply cl_histRead hP.toQuiet) | (apply cl_histAppend hP) | (refine SndP.at ?_ (by assumption); apply cl_histAppend hP) | (apply SndP.out; apply cl_histAppend hP) | (apply cl_histCreate hP) | (refine SndP.at ?_ (by assumption); apply cl_histCreate hP) | (apply SndP.out; apply cl_histCreate hP) | (apply cl_histTrim hP) | (refine SndP.at ?_ (by assumption); apply cl_histTrim hP) | (apply SndP.out; apply cl_histTrim hP) | (apply cl_histRelease hP) | (refine SndP.at ?_ (by assumption); apply cl_histRelease hP) | (apply SndP.out; apply cl_histRelease hP) | (apply Quiet.put hP.toQuiet) | split) | ((apply Quiet.mk' hP.toQuiet); (apply Quiet.mk' hP.toQuiet); first | assumption | (apply cl_memError hP) | (apply cl_putHist hP) | (apply cl_histRead hP.toQuiet) | (refine SndP.at ?_ (by assumption); apply cl_histRead hP.toQuiet) | (apply SndP.out; apply cl_histRead hP.toQuiet) | (apply cl_histAppend hP) | (refine SndP.at ?_ (by assumption); apply cl_histAppend hP) | (apply SndP.out; apply cl_histAppend hP) | (apply cl_histCreate hP) | (refine SndP.at ?_ (by assumption); apply cl_histCreate hP) | (apply SndP.out; apply cl_histCreate hP) | (apply cl_histTrim hP) | (refine SndP.at ?_ (by assumption); apply cl_histTrim hP) | (apply SndP.out; apply cl_histTrim hP) | (apply cl_histRelease hP) | (refine SndP.at ?_ (by assumption); apply cl_histRelease hP) | (apply SndP.out; apply cl_histRelease hP) | (apply Quiet.put hP.toQuiet) | split) | split | (apply SndP.mk)

theorem cl_histFail (hP : Closed P) (s : State) (u : HistUse) (hs : P s) : P (State.histFail s u) := by
  unfold State.histFail; try dsimp only
  with_reducible repeat' first | assumption | (apply cl_poke hP) | (apply cl_putHist hP) | (apply cl_gatherPages hP.toQuiet) | (apply Quiet.put hP.toQuiet) | ((apply Quiet.mk' hP.toQuiet); first | assumption | (apply cl_poke hP) | (apply cl_putHist hP) | (apply cl_gatherPages hP.toQuiet) | (apply Quiet.put hP.toQuiet) | (apply cl_foldl) | split) | ((apply Quiet.mk' hP.toQuiet); (apply Quiet.mk' hP.toQuiet); first | assumption | (apply cl_poke hP) | (apply cl_putHist hP) | (apply cl_gatherPages hP.toQuiet) | (apply Quiet.put hP.toQuiet) | (apply cl_foldl) | split) | split | (apply cl_foldl) | (intro _ _) | (intro _)

theorem cl_histDamage (hP : Closed P) (s : State) (h : Nat) (hs : P s) : P (State.histDamage s h) := by
  unfold State.histDamage
  with_reducible repeat' first | assumption | (apply cl_putHist hP) | (apply Quiet.put hP.toQuiet) | ((apply Quiet.mk' hP.toQuiet); first | assumption | (apply cl_putHist hP) | (apply Quiet.put hP.toQuiet) | split) | ((apply Quiet.mk' hP.toQuiet); (apply Quiet.mk' hP.toQuiet); first | assumption | (apply cl_putHist hP) | (apply Quiet.put hP.toQuiet) | split) | split

end Sys2Proof.Laws
end

