-- ==== Sys2Proof/Laws/KeepsJobs.lean ====
section
/-! SUPPORT. What the functions of Machine/Jobs.lean keep: see Laws/Closed.lean. -/

set_option linter.unusedTactic false
set_option linter.unreachableTactic false

namespace Sys2Proof.Laws

open Sys2Proof.Machine

variable {P : State → Prop}

theorem cl_freeTags (hP : Quiet P) (s : State) (n k : Nat) (hs : P s) : P (State.freeTags s n k) := by
  unfold State.freeTags
  with_reducible repeat' first | assumption | (apply cl_put hP) | (apply Quiet.put hP) | split

theorem cl_freeStream (hP : Quiet P) (s : State) (n : Nat) (hs : P s) : P (State.freeStream s n) := by
  unfold State.freeStream; try dsimp only
  with_reducible repeat' first | assumption | (apply cl_freeTags hP) | (apply cl_send hP) | (apply cl_putStream hP) | (apply Quiet.put hP) | split

theorem cl_freeSlot (hP : Quiet P) (s : State) (k c : Nat) (hs : P s) : P (State.freeSlot s k c) := by
  unfold State.freeSlot; try dsimp only
  with_reducible repeat' first | assumption | (apply cl_putKiln hP) | (apply cl_putCtx hP) | (apply Quiet.put hP) | split

theorem cl_stopWork (hP : Quiet P) (s : State) (j : Nat) (hs : P s) : P (State.stopWork s j) := by
  unfold State.stopWork; try dsimp only
  with_reducible repeat' first | assumption | (apply cl_freeStream hP) | (apply cl_freeSlot hP) | (apply Quiet.put hP) | ((apply Quiet.mk' hP); first | assumption | (apply cl_freeStream hP) | (apply cl_freeSlot hP) | (apply Quiet.put hP) | (apply cl_foldl) | split) | ((apply Quiet.mk' hP); (apply Quiet.mk' hP); first | assumption | (apply cl_freeStream hP) | (apply cl_freeSlot hP) | (apply Quiet.put hP) | (apply cl_foldl) | split) | split | (apply cl_foldl) | (intro _ _) | (intro _)

theorem cl_releaseSlots (hP : Quiet P) (s : State) (n k : Nat) (hs : P s) : P (State.releaseSlots s n k) := by
  unfold State.releaseSlots; try dsimp only
  with_reducible repeat' first | assumption | (apply cl_putRing hP) | (apply Quiet.put hP) | ((apply Quiet.mk' hP); first | assumption | (apply cl_putRing hP) | (apply Quiet.put hP) | split) | ((apply Quiet.mk' hP); (apply Quiet.mk' hP); first | assumption | (apply cl_putRing hP) | (apply Quiet.put hP) | split) | split

theorem cl_dropJob (hP : Quiet P) (s : State) (j : Job) (left : Nat) (hs : P s) : P (State.dropJob s j left) := by
  unfold State.dropJob
  with_reducible repeat' first | assumption | (apply cl_releaseSlots hP) | (apply Quiet.put hP) | ((apply Quiet.mk' hP); first | assumption | (apply cl_releaseSlots hP) | (apply Quiet.put hP) | split) | ((apply Quiet.mk' hP); (apply Quiet.mk' hP); first | assumption | (apply cl_releaseSlots hP) | (apply Quiet.put hP) | split) | split | (intro _ _) | (intro _)

theorem cl_historyRecord (hP : Closed P) (s : State) (j : Job) (status : Nat) (hs : P s) : P (State.historyRecord s j status) := by
  unfold State.historyRecord
  with_reducible repeat' first | assumption | (apply cl_postRecord hP) | (apply Quiet.put hP.toQuiet) | split

theorem cl_beginHist (hP : Closed P) (s : State) (j : Job) (hs : P s) : P (State.beginHist s j) := by
  unfold State.beginHist; try dsimp only
  with_reducible repeat' first | assumption | (apply cl_histBegin hP) | (refine SndP.at ?_ (by assumption); apply cl_histBegin hP) | (apply SndP.out; apply cl_histBegin hP) | (apply cl_putJob hP.toQuiet) | (apply Quiet.put hP.toQuiet) | ((apply Quiet.mk' hP.toQuiet); first | assumption | (apply cl_histBegin hP) | (refine SndP.at ?_ (by assumption); apply cl_histBegin hP) | (apply SndP.out; apply cl_histBegin hP) | (apply cl_putJob hP.toQuiet) | (apply Quiet.put hP.toQuiet) | split) | ((apply Quiet.mk' hP.toQuiet); (apply Quiet.mk' hP.toQuiet); first | assumption | (apply cl_histBegin hP) | (refine SndP.at ?_ (by assumption); apply cl_histBegin hP) | (apply SndP.out; apply cl_histBegin hP) | (apply cl_putJob hP.toQuiet) | (apply Quiet.put hP.toQuiet) | split) | split

theorem cl_withHists (hP : Closed P) (s : State) (hs : P s) : P (State.withHists s) := by
  unfold State.withHists
  with_reducible repeat' first | assumption | (apply cl_beginHist hP) | (apply Quiet.put hP.toQuiet) | split | (apply cl_foldl) | (intro _ _) | (intro _)

theorem cl_endJob (hP : Closed P) (s : State) (j : Job) (status resource : Nat) (win : Option (Nat × Nat)) (hs : P s) : P (State.endJob s j status resource win) := by
  unfold State.endJob; try dsimp only
  with_reducible repeat' first | assumption | (apply cl_beginHist hP) | (apply cl_stopWork hP.toQuiet) | (apply cl_histFail hP) | (apply cl_jobRecord hP) | (apply cl_historyRecord hP) | (apply cl_dropJob hP.toQuiet) | (apply Quiet.put hP.toQuiet) | split

theorem cl_endFailedHists (hP : Closed P) (s : State) (hs : P s) : P (State.endFailedHists s) := by
  unfold State.endFailedHists
  with_reducible repeat' first | assumption | (apply cl_endJob hP) | (apply Quiet.put hP.toQuiet) | split | (apply cl_foldl) | (intro _ _) | (intro _)

theorem cl_endJobOf (hP : Closed P) (s : State) (j status : Nat) (hs : P s) : P (State.endJobOf s j status) := by
  unfold State.endJobOf
  with_reducible repeat' first | assumption | (apply cl_endJob hP) | (apply Quiet.put hP.toQuiet) | split

theorem cl_freezeRing (hP : Quiet P) (s : State) (n cause : Nat) (hs : P s) : P (State.freezeRing s n cause) := by
  unfold State.freezeRing; try dsimp only
  with_reducible repeat' first | assumption | (apply cl_putRing hP) | (apply cl_put hP) | (apply cl_inc hP) | (apply Quiet.put hP) | ((apply Quiet.mk' hP); first | assumption | (apply cl_putRing hP) | (apply cl_put hP) | (apply cl_inc hP) | (apply Quiet.put hP) | split) | ((apply Quiet.mk' hP); (apply Quiet.mk' hP); first | assumption | (apply cl_putRing hP) | (apply cl_put hP) | (apply cl_inc hP) | (apply Quiet.put hP) | split) | split

theorem cl_freezeStream (hP : Closed P) (s : State) (n : Nat) (hs : P s) : P (State.freezeStream s n) := by
  unfold State.freezeStream; try dsimp only
  with_reducible repeat' first | assumption | (apply cl_putStream hP.toQuiet) | (apply cl_inc hP.toQuiet) | (apply cl_endJobOf hP) | (apply Quiet.put hP.toQuiet) | ((apply Quiet.mk' hP.toQuiet); first | assumption | (apply cl_putStream hP.toQuiet) | (apply cl_inc hP.toQuiet) | (apply cl_endJobOf hP) | (apply Quiet.put hP.toQuiet) | split) | ((apply Quiet.mk' hP.toQuiet); (apply Quiet.mk' hP.toQuiet); first | assumption | (apply cl_putStream hP.toQuiet) | (apply cl_inc hP.toQuiet) | (apply cl_endJobOf hP) | (apply Quiet.put hP.toQuiet) | split) | split

theorem cl_freezeTask (hP : Closed P) (s : State) (k c : Nat) (hs : P s) : P (State.freezeTask s k c) := by
  unfold State.freezeTask; try dsimp only
  with_reducible repeat' first | assumption | (apply cl_putKiln hP.toQuiet) | (apply cl_putCtx hP.toQuiet) | (apply cl_inc hP.toQuiet) | (apply cl_endJobOf hP) | (apply Quiet.put hP.toQuiet) | ((apply Quiet.mk' hP.toQuiet); first | assumption | (apply cl_putKiln hP.toQuiet) | (apply cl_putCtx hP.toQuiet) | (apply cl_inc hP.toQuiet) | (apply cl_endJobOf hP) | (apply Quiet.put hP.toQuiet) | split) | ((apply Quiet.mk' hP.toQuiet); (apply Quiet.mk' hP.toQuiet); first | assumption | (apply cl_putKiln hP.toQuiet) | (apply cl_putCtx hP.toQuiet) | (apply cl_inc hP.toQuiet) | (apply cl_endJobOf hP) | (apply Quiet.put hP.toQuiet) | split) | split

theorem cl_freezePeer (hP : Quiet P) (s : State) (d cause : Nat) (hs : P s) : P (State.freezePeer s d cause) := by
  unfold State.freezePeer; try dsimp only
  with_reducible repeat' first | assumption | (apply cl_putPeer hP) | (apply cl_put hP) | (apply cl_inc hP) | (apply Quiet.put hP) | ((apply Quiet.mk' hP); first | assumption | (apply cl_putPeer hP) | (apply cl_put hP) | (apply cl_inc hP) | (apply Quiet.put hP) | split) | ((apply Quiet.mk' hP); (apply Quiet.mk' hP); first | assumption | (apply cl_putPeer hP) | (apply cl_put hP) | (apply cl_inc hP) | (apply Quiet.put hP) | split) | split

theorem cl_malformedFrom (hP : Closed P) (s : State) (d : Nat) (hs : P s) : P (State.malformedFrom s d) := by
  unfold State.malformedFrom; try dsimp only
  with_reducible repeat' first | assumption | (apply cl_putPeer hP.toQuiet) | (apply cl_malformed hP) | (apply cl_freezePeer hP.toQuiet) | (apply Quiet.put hP.toQuiet) | ((apply Quiet.mk' hP.toQuiet); first | assumption | (apply cl_putPeer hP.toQuiet) | (apply cl_malformed hP) | (apply cl_freezePeer hP.toQuiet) | (apply Quiet.put hP.toQuiet) | split) | ((apply Quiet.mk' hP.toQuiet); (apply Quiet.mk' hP.toQuiet); first | assumption | (apply cl_putPeer hP.toQuiet) | (apply cl_malformed hP) | (apply cl_freezePeer hP.toQuiet) | (apply Quiet.put hP.toQuiet) | split) | split

theorem cl_strayFrom (hP : Quiet P) (s : State) (d : Nat) (hs : P s) : P (State.strayFrom s d) := by
  unfold State.strayFrom; try dsimp only
  with_reducible repeat' first | assumption | (apply cl_putPeer hP) | (apply cl_freezePeer hP) | (apply Quiet.put hP) | ((apply Quiet.mk' hP); first | assumption | (apply cl_putPeer hP) | (apply cl_freezePeer hP) | (apply Quiet.put hP) | split) | ((apply Quiet.mk' hP); (apply Quiet.mk' hP); first | assumption | (apply cl_putPeer hP) | (apply cl_freezePeer hP) | (apply Quiet.put hP) | split) | split

theorem cl_haltTask (hP : Closed P) (s : State) (k c reason : Nat) (hs : P s) : P (State.haltTask s k c reason) := by
  unfold State.haltTask; try dsimp only
  with_reducible repeat' first | assumption | (apply cl_putKiln hP.toQuiet) | (apply cl_putCtx hP.toQuiet) | (apply cl_traceJob hP.toQuiet) | (apply cl_postEvent hP) | (apply Quiet.put hP.toQuiet) | ((apply Quiet.mk' hP.toQuiet); first | assumption | (apply cl_putKiln hP.toQuiet) | (apply cl_putCtx hP.toQuiet) | (apply cl_traceJob hP.toQuiet) | (apply cl_postEvent hP) | (apply Quiet.put hP.toQuiet) | split) | ((apply Quiet.mk' hP.toQuiet); (apply Quiet.mk' hP.toQuiet); first | assumption | (apply cl_putKiln hP.toQuiet) | (apply cl_putCtx hP.toQuiet) | (apply cl_traceJob hP.toQuiet) | (apply cl_postEvent hP) | (apply Quiet.put hP.toQuiet) | split) | split

theorem cl_useRetry (hP : Quiet P) (s : State) (j : Job) (hs : P s) : P (State.useRetry s j) := by
  unfold State.useRetry
  with_reducible repeat' first | assumption | (apply cl_putJob hP) | (apply Quiet.put hP) | ((apply Quiet.mk' hP); first | assumption | (apply cl_putJob hP) | (apply Quiet.put hP) | split) | ((apply Quiet.mk' hP); (apply Quiet.mk' hP); first | assumption | (apply cl_putJob hP) | (apply Quiet.put hP) | split) | split

end Sys2Proof.Laws
end

