-- ==== Sys2Proof/Laws/KeepsWake.lean ====
section
/-! SUPPORT. What the functions of Machine/Wake.lean keep: see Laws/Closed.lean. -/

set_option linter.unusedTactic false
set_option linter.unreachableTactic false

namespace Sys2Proof.Laws

open Sys2Proof.Machine

variable {P : State → Prop}

theorem cl_wakeFor (hP : Quiet P) (s : State) (cause : Nat) (hs : P s) : P (State.wakeFor s cause) := by
  unfold State.wakeFor; try dsimp only
  with_reducible repeat' first | assumption | (apply cl_put hP) | (apply Quiet.put hP) | ((apply Quiet.mk' hP); first | assumption | (apply cl_put hP) | (apply Quiet.put hP) | split) | ((apply Quiet.mk' hP); (apply Quiet.mk' hP); first | assumption | (apply cl_put hP) | (apply Quiet.put hP) | split) | split

theorem cl_hostDo (hP : Quiet P) (s : State) (f : State → State) (hs : P s) (hf : ∀ x0, P x0 → P (f x0)) : P (State.hostDo s f) := by
  unfold State.hostDo; try dsimp only
  with_reducible repeat' first | assumption | (apply hf) | (apply cl_wakeFor hP) | (apply Quiet.put hP) | split

end Sys2Proof.Laws
end

