-- ==== Sys2Proof/Laws/KeepsHost.lean ====
section
/-! SUPPORT. What the functions of Machine/Host.lean keep: see Laws/Closed.lean. -/

set_option linter.unusedTactic false
set_option linter.unreachableTactic false

namespace Sys2Proof.Laws

open Sys2Proof.Machine

variable {P : State → Prop}

theorem cl_fetch (hP : Quiet P) (s : State) (n : Nat) (hs : P s) : P (State.fetch s n) := by
  unfold State.fetch; try dsimp only
  with_reducible repeat' first | assumption | (apply cl_putRing hP) | (apply cl_send hP) | (apply Quiet.put hP) | ((apply Quiet.mk' hP); first | assumption | (apply cl_putRing hP) | (apply cl_send hP) | (apply Quiet.put hP) | split) | ((apply Quiet.mk' hP); (apply Quiet.mk' hP); first | assumption | (apply cl_putRing hP) | (apply cl_send hP) | (apply Quiet.put hP) | split) | split

theorem cl_execDescriptorFetch (hP : Quiet P) (ring : Nat) (s : State) (hs : P s) : OutP P (execDescriptorFetch ring s) := by
  unfold execDescriptorFetch
  with_reducible repeat' first | assumption | (apply cl_ok hP) | (apply cl_fetch hP) | (apply Quiet.put hP) | split | (apply OutP.ok) | (apply OutP.next)

theorem cl_readReturned (hP : Quiet P) (s : State) (n : Nat) (good : Bool) (hs : P s) : P (State.readReturned s n good) := by
  unfold State.readReturned; try dsimp only
  with_reducible repeat' first | assumption | (apply cl_putRing hP) | (apply cl_freezeRing hP) | (apply Quiet.put hP) | ((apply Quiet.mk' hP); first | assumption | (apply cl_putRing hP) | (apply cl_freezeRing hP) | (apply Quiet.put hP) | split) | ((apply Quiet.mk' hP); (apply Quiet.mk' hP); first | assumption | (apply cl_putRing hP) | (apply cl_freezeRing hP) | (apply Quiet.put hP) | split) | split

theorem cl_execDescriptorReadComplete (hP : Quiet P) (ring : Nat) (good : Bool) (s : State) (hs : P s) : OutP P (execDescriptorReadComplete ring good s) := by
  unfold execDescriptorReadComplete
  with_reducible repeat' first | assumption | (apply cl_ok hP) | (apply cl_readReturned hP) | (apply Quiet.put hP) | split | (apply OutP.ok) | (apply OutP.next)

theorem cl_execInterruptCoalesceTimeout (hP : Quiet P) (ring : Nat) (s : State) (hs : P s) : OutP P (execInterruptCoalesceTimeout ring s) := by
  unfold execInterruptCoalesceTimeout
  with_reducible repeat' first | assumption | (apply cl_ok hP) | (apply cl_putRing hP) | (apply cl_ringIrq hP) | (apply Quiet.put hP) | ((apply Quiet.mk' hP); first | assumption | (apply cl_ok hP) | (apply cl_putRing hP) | (apply cl_ringIrq hP) | (apply Quiet.put hP) | split) | ((apply Quiet.mk' hP); (apply Quiet.mk' hP); first | assumption | (apply cl_ok hP) | (apply cl_putRing hP) | (apply cl_ringIrq hP) | (apply Quiet.put hP) | split) | split | (apply OutP.ok) | (apply OutP.next)

theorem cl_msixWrite (hP : Quiet P) (s : State) (port dword v : Nat) (hs : P s) : P (State.msixWrite s port dword v) := by
  unfold State.msixWrite; try dsimp only
  with_reducible repeat' first | assumption | (apply cl_irq hP) | (apply Quiet.put hP) | ((apply Quiet.mk' hP); first | assumption | (apply cl_irq hP) | (apply Quiet.put hP) | split) | ((apply Quiet.mk' hP); (apply Quiet.mk' hP); first | assumption | (apply cl_irq hP) | (apply Quiet.put hP) | split) | split | (intro _ _) | (intro _)

theorem cl_execMsixUnmask (hP : Quiet P) (port vector : Nat) (s : State) (hs : P s) : OutP P (execMsixUnmask port vector s) := by
  unfold execMsixUnmask
  with_reducible repeat' first | assumption | (apply cl_ok hP) | (apply cl_hostDo hP) | (apply cl_msixWrite hP) | (apply Quiet.put hP) | split | (intro _ _) | (intro _) | (apply OutP.ok) | (apply OutP.next)

theorem cl_flushPort (hP : Closed P) (s : State) (p : Nat) (hs : P s) : P (State.flushPort s p) := by
  unfold State.flushPort; try dsimp only
  with_reducible repeat' first | assumption | (apply cl_flushRing hP) | (apply cl_irq hP.toQuiet) | (apply cl_flushEvents hP) | (apply Quiet.put hP.toQuiet) | ((apply Quiet.mk' hP.toQuiet); first | assumption | (apply cl_flushRing hP) | (apply cl_irq hP.toQuiet) | (apply cl_flushEvents hP) | (apply Quiet.put hP.toQuiet) | (apply cl_foldl) | split) | ((apply Quiet.mk' hP.toQuiet); (apply Quiet.mk' hP.toQuiet); first | assumption | (apply cl_flushRing hP) | (apply cl_irq hP.toQuiet) | (apply cl_flushEvents hP) | (apply Quiet.put hP.toQuiet) | (apply cl_foldl) | split) | split | (apply cl_foldl) | (intro _ _) | (intro _)

theorem cl_badWrite (hP : Quiet P) (s : State) (hs : P s) : P (State.badWrite s) := by
  unfold State.badWrite
  with_reducible repeat' first | assumption | (apply cl_inc hP) | (apply Quiet.put hP) | split

theorem cl_sqDoorbell (hP : Quiet P) (s : State) (n p : Nat) (hs : P s) : P (State.sqDoorbell s n p) := by
  unfold State.sqDoorbell
  split
  · exact cl_badWrite hP s hs
  · split
    · exact cl_putRing hP _ _ _ hs
    · exact cl_freezeRing hP _ _ _ hs

theorem cl_cqDoorbell (hP : Quiet P) (s : State) (n q : Nat) (hs : P s) : P (State.cqDoorbell s n q) := by
  unfold State.cqDoorbell
  dsimp only
  split
  · exact cl_badWrite hP s hs
  · split
    · exact cl_putRing hP _ _ _ hs
    · exact cl_freezeRing hP _ _ _ hs

theorem cl_evtDoorbell (hP : Closed P) (s : State) (q : Nat) (hs : P s) : P (State.evtDoorbell s q) := by
  unfold State.evtDoorbell
  split
  · apply cl_flushEvents hP
    apply Quiet.mk' hP.toQuiet
    exact hs
  · exact hP.put _ _ _ _ hs

theorem cl_execSqProducer (hP : Quiet P) (ring value : Nat) (s : State) (hs : P s) : OutP P (execSqProducer ring value s) := by
  unfold execSqProducer
  with_reducible repeat' first | assumption | (apply cl_ok hP) | (apply cl_hostDo hP) | (apply cl_sqDoorbell hP) | (apply Quiet.put hP) | split | (intro _ _) | (intro _) | (apply OutP.ok) | (apply OutP.next)

theorem cl_execCqConsumer (hP : Quiet P) (ring value : Nat) (s : State) (hs : P s) : OutP P (execCqConsumer ring value s) := by
  unfold execCqConsumer
  with_reducible repeat' first | assumption | (apply cl_ok hP) | (apply cl_hostDo hP) | (apply cl_cqDoorbell hP) | (apply Quiet.put hP) | split | (intro _ _) | (intro _) | (apply OutP.ok) | (apply OutP.next)

theorem cl_execEventRingConsumer (hP : Closed P) (value : Nat) (s : State) (hs : P s) : OutP P (execEventRingConsumer value s) := by
  unfold execEventRingConsumer
  with_reducible repeat' first | assumption | (apply cl_ok hP.toQuiet) | (apply cl_hostDo hP.toQuiet) | (apply cl_evtDoorbell hP) | (apply Quiet.put hP.toQuiet) | split | (intro _ _) | (intro _) | (apply OutP.ok) | (apply OutP.next)

theorem cl_execBar2BadWrite (hP : Quiet P) (offset size : Nat) (s : State) (hs : P s) : OutP P (execBar2BadWrite offset size s) := by
  unfold execBar2BadWrite
  with_reducible repeat' first | assumption | (apply cl_ok hP) | (apply cl_hostDo hP) | (apply cl_badWrite hP) | (apply Quiet.put hP) | split | (intro _ _) | (intro _) | (apply OutP.ok) | (apply OutP.next)

theorem cl_ringStart (hP : Quiet P) (s : State) (n : Nat) (hs : P s) : P (State.ringStart s n) := by
  unfold State.ringStart; try dsimp only
  with_reducible repeat' first | assumption | (apply cl_put hP) | (apply cl_putRing hP) | (apply Quiet.put hP) | split

theorem cl_ringStop (hP : Quiet P) (s : State) (n : Nat) (hs : P s) : P (State.ringStop s n) := by
  unfold State.ringStop; try dsimp only
  with_reducible repeat' first | assumption | (apply cl_put hP) | (apply cl_putRing hP) | (apply Quiet.put hP) | ((apply Quiet.mk' hP); first | assumption | (apply cl_put hP) | (apply cl_putRing hP) | (apply Quiet.put hP) | split) | ((apply Quiet.mk' hP); (apply Quiet.mk' hP); first | assumption | (apply cl_put hP) | (apply cl_putRing hP) | (apply Quiet.put hP) | split) | split

theorem cl_execRingEnable (hP : Quiet P) (ring : Nat) (s : State) (hs : P s) : OutP P (execRingEnable ring s) := by
  unfold execRingEnable
  with_reducible repeat' first | assumption | (apply cl_ok hP) | (apply cl_hostDo hP) | (apply cl_ringStart hP) | (apply Quiet.put hP) | split | (intro _ _) | (intro _) | (apply OutP.ok) | (apply OutP.next)

theorem cl_execRingDisable (hP : Quiet P) (ring : Nat) (s : State) (hs : P s) : OutP P (execRingDisable ring s) := by
  unfold execRingDisable
  with_reducible repeat' first | assumption | (apply cl_ok hP) | (apply cl_hostDo hP) | (apply cl_ringStop hP) | (apply Quiet.put hP) | split | (intro _ _) | (intro _) | (apply OutP.ok) | (apply OutP.next)

theorem cl_ringStopped (hP : Quiet P) (s : State) (n : Nat) (hs : P s) : P (State.ringStopped s n) := by
  unfold State.ringStopped
  with_reducible repeat' first | assumption | (apply cl_putRing hP) | (apply Quiet.put hP) | split

theorem cl_ringReset (hP : Quiet P) (s : State) (n : Nat) (hs : P s) : P (State.ringReset s n) := by
  unfold State.ringReset; try dsimp only
  with_reducible repeat' first | assumption | (apply cl_putRing hP) | (apply cl_put hP) | (apply Quiet.put hP) | split

theorem cl_ringFreezeReset (hP : Quiet P) (s : State) (n : Nat) (hs : P s) : P (State.ringFreezeReset s n) := by
  unfold State.ringFreezeReset
  with_reducible repeat' first | assumption | (apply cl_ringReset hP) | (apply cl_put hP) | (apply Quiet.put hP) | split

theorem cl_execRingStopped (hP : Quiet P) (ring : Nat) (s : State) (hs : P s) : OutP P (execRingStopped ring s) := by
  unfold execRingStopped
  with_reducible repeat' first | assumption | (apply cl_ok hP) | (apply cl_ringStopped hP) | (apply cl_ringReset hP) | (apply Quiet.put hP) | split | (apply OutP.ok) | (apply OutP.next)

theorem cl_execFreezeResetRing (hP : Quiet P) (ring : Nat) (s : State) (hs : P s) : OutP P (execFreezeResetRing ring s) := by
  unfold execFreezeResetRing
  with_reducible repeat' first | assumption | (apply cl_ok hP) | (apply cl_hostDo hP) | (apply cl_ringFreezeReset hP) | (apply Quiet.put hP) | split | (intro _ _) | (intro _) | (apply OutP.ok) | (apply OutP.next)

theorem cl_evtStart (hP : Closed P) (s : State) (hs : P s) : P (State.evtStart s) := by
  unfold State.evtStart; try dsimp only
  with_reducible repeat' first | assumption | (apply cl_put hP.toQuiet) | (apply cl_flushEvents hP) | (apply Quiet.put hP.toQuiet) | ((apply Quiet.mk' hP.toQuiet); first | assumption | (apply cl_put hP.toQuiet) | (apply cl_flushEvents hP) | (apply Quiet.put hP.toQuiet) | split) | ((apply Quiet.mk' hP.toQuiet); (apply Quiet.mk' hP.toQuiet); first | assumption | (apply cl_put hP.toQuiet) | (apply cl_flushEvents hP) | (apply Quiet.put hP.toQuiet) | split) | split

theorem cl_evtStop (hP : Quiet P) (s : State) (hs : P s) : P (State.evtStop s) := by
  unfold State.evtStop
  with_reducible repeat' first | assumption | (apply cl_put hP) | (apply Quiet.put hP) | split

theorem cl_execEventRingEnable (hP : Closed P) (s : State) (hs : P s) : OutP P (execEventRingEnable s) := by
  unfold execEventRingEnable
  with_reducible repeat' first | assumption | (apply cl_ok hP.toQuiet) | (apply cl_hostDo hP.toQuiet) | (apply cl_evtStart hP) | (apply Quiet.put hP.toQuiet) | split | (intro _ _) | (intro _) | (apply OutP.ok) | (apply OutP.next)

theorem cl_execEventRingDisable (hP : Quiet P) (s : State) (hs : P s) : OutP P (execEventRingDisable s) := by
  unfold execEventRingDisable
  with_reducible repeat' first | assumption | (apply cl_ok hP) | (apply cl_hostDo hP) | (apply cl_evtStop hP) | (apply Quiet.put hP) | split | (intro _ _) | (intro _) | (apply OutP.ok) | (apply OutP.next)

theorem cl_execEventRecordWrite (hP : Closed P) (record : List Byte) (s : State) (hs : P s) : OutP P (execEventRecordWrite record s) := by
  unfold execEventRecordWrite
  with_reducible repeat' first | assumption | (apply cl_ok hP.toQuiet) | (apply cl_postEvent hP) | (apply cl_record hP) | (apply Quiet.put hP.toQuiet) | split | (apply OutP.ok) | (apply OutP.next)

theorem cl_winInval (hP : Quiet P) (s : State) (entry : Nat) (every : Bool) (hs : P s) : P (State.winInval s entry every) := by
  unfold State.winInval
  with_reducible repeat' first | assumption | (apply Quiet.put hP) | ((apply Quiet.mk' hP); first | assumption | (apply Quiet.put hP) | split) | ((apply Quiet.mk' hP); (apply Quiet.mk' hP); first | assumption | (apply Quiet.put hP) | split) | split | (intro _ _) | (intro _)

theorem cl_execWindowInvalidate (hP : Quiet P) (entry : Nat) (s : State) (hs : P s) : OutP P (execWindowInvalidate entry s) := by
  unfold execWindowInvalidate
  with_reducible repeat' first | assumption | (apply cl_ok hP) | (apply cl_hostDo hP) | (apply cl_winInval hP) | (apply Quiet.put hP) | split | (intro _ _) | (intro _) | (apply OutP.ok) | (apply OutP.next)

theorem cl_execWindowInvalidateAll (hP : Quiet P) (s : State) (hs : P s) : OutP P (execWindowInvalidateAll s) := by
  unfold execWindowInvalidateAll
  with_reducible repeat' first | assumption | (apply cl_ok hP) | (apply cl_hostDo hP) | (apply cl_winInval hP) | (apply Quiet.put hP) | split | (intro _ _) | (intro _) | (apply OutP.ok) | (apply OutP.next)

theorem cl_execApertureMove (hP : Quiet P) (port base : Nat) (s : State) (hs : P s) : OutP P (execApertureMove port base s) := by
  unfold execApertureMove
  with_reducible repeat' first | assumption | (apply cl_ok hP) | (apply cl_hostDo hP) | (apply cl_put hP) | (apply Quiet.put hP) | split | (intro _ _) | (intro _) | (apply OutP.ok) | (apply OutP.next)

theorem cl_apertureBad (hP : Quiet P) (s : State) (hs : P s) : P (State.apertureBad s) := by
  unfold State.apertureBad
  with_reducible repeat' first | assumption | (apply cl_inc hP) | (apply Quiet.put hP) | split

theorem cl_apertureGet (hP : Closed P) (s : State) (port off n : Nat) (hs : P s) : P (State.apertureGet s port off n) := by
  unfold State.apertureGet; try dsimp only
  with_reducible repeat' first | assumption | (apply cl_apertureBad hP.toQuiet) | (apply cl_send hP.toQuiet) | (apply cl_read hP) | (refine atExSndP ?_ (by assumption); apply cl_read hP) | (apply cl_ok hP.toQuiet) | (apply cl_memError hP) | (apply cl_sendAll hP.toQuiet) | (apply Quiet.put hP.toQuiet) | split | (intro _ _) | (intro _)

theorem cl_aperturePut (hP : Closed P) (s : State) (port off : Nat) (bs : List Byte) (hs : P s) : P (State.aperturePut s port off bs) := by
  unfold State.aperturePut; try dsimp only
  with_reducible repeat' first | assumption | (apply cl_apertureBad hP.toQuiet) | (apply cl_write hP) | (refine atExP ?_ (by assumption); apply cl_write hP) | (apply cl_ok hP.toQuiet) | (apply cl_memError hP) | (apply Quiet.put hP.toQuiet) | split

theorem cl_execApertureRead (hP : Closed P) (port offset len : Nat) (s : State) (hs : P s) : OutP P (execApertureRead port offset len s) := by
  unfold execApertureRead
  with_reducible repeat' first | assumption | (apply cl_ok hP.toQuiet) | (apply cl_hostDo hP.toQuiet) | (apply cl_apertureGet hP) | (apply Quiet.put hP.toQuiet) | split | (intro _ _) | (intro _) | (apply OutP.ok) | (apply OutP.next)

theorem cl_execApertureWrite (hP : Closed P) (port offset : Nat) (data : List Byte) (s : State) (hs : P s) : OutP P (execApertureWrite port offset data s) := by
  unfold execApertureWrite
  with_reducible repeat' first | assumption | (apply cl_ok hP.toQuiet) | (apply cl_hostDo hP.toQuiet) | (apply cl_aperturePut hP) | (apply Quiet.put hP.toQuiet) | split | (intro _ _) | (intro _) | (apply OutP.ok) | (apply OutP.next)

theorem cl_execBar0BadAccess (hP : Quiet P) (port offset size : Nat) (isRead : Bool) (s : State) (hs : P s) : OutP P (execBar0BadAccess port offset size isRead s) := by
  unfold execBar0BadAccess
  with_reducible repeat' first | assumption | (apply cl_ok hP) | (apply cl_hostDo hP) | (apply cl_send hP) | (apply Quiet.put hP) | split | (intro _ _) | (intro _) | (apply OutP.ok) | (apply OutP.next)

theorem cl_execBusMasterEnableChange (hP : Closed P) (port : Nat) (on : Bool) (s : State) (hs : P s) : OutP P (execBusMasterEnableChange port on s) := by
  unfold execBusMasterEnableChange; try dsimp only
  with_reducible repeat' first | assumption | (apply cl_put hP.toQuiet) | (apply cl_ok hP.toQuiet) | (apply cl_flushPort hP) | (apply Quiet.put hP.toQuiet) | split | (apply OutP.ok) | (apply OutP.next)

theorem cl_ideLeaves (hP : Quiet P) (s : State) (p : Nat) (hs : P s) : P (State.ideLeaves s p) := by
  unfold State.ideLeaves; try dsimp only
  with_reducible repeat' first | assumption | (apply cl_put hP) | (apply cl_freezeRing hP) | (apply Quiet.put hP) | ((apply Quiet.mk' hP); first | assumption | (apply cl_put hP) | (apply cl_freezeRing hP) | (apply Quiet.put hP) | (apply cl_foldl) | split) | ((apply Quiet.mk' hP); (apply Quiet.mk' hP); first | assumption | (apply cl_put hP) | (apply cl_freezeRing hP) | (apply Quiet.put hP) | (apply cl_foldl) | split) | split | (apply cl_foldl) | (intro _ _) | (intro _)

theorem cl_execIdeLeavesSecure (hP : Quiet P) (port : Nat) (s : State) (hs : P s) : OutP P (execIdeLeavesSecure port s) := by
  unfold execIdeLeavesSecure
  with_reducible repeat' first | assumption | (apply cl_ok hP) | (apply cl_ideLeaves hP) | (apply Quiet.put hP) | split | (apply OutP.ok) | (apply OutP.next)

theorem cl_ideSecure (hP : Closed P) (s : State) (p : Nat) (hs : P s) : P (State.ideSecure s p) := by
  unfold State.ideSecure; try dsimp only
  with_reducible repeat' first | assumption | (apply cl_put hP.toQuiet) | (apply cl_flushPort hP) | (apply Quiet.put hP.toQuiet) | ((apply Quiet.mk' hP.toQuiet); first | assumption | (apply cl_put hP.toQuiet) | (apply cl_flushPort hP) | (apply Quiet.put hP.toQuiet) | split) | ((apply Quiet.mk' hP.toQuiet); (apply Quiet.mk' hP.toQuiet); first | assumption | (apply cl_put hP.toQuiet) | (apply cl_flushPort hP) | (apply Quiet.put hP.toQuiet) | split) | split

end Sys2Proof.Laws
end

