-- ==== Sys2Proof/Laws/KeepsCrane.lean ====
section
/-! SUPPORT. What the functions of Machine/Crane.lean keep: see Laws/Closed.lean. -/

set_option linter.unusedTactic false
set_option linter.unreachableTactic false

namespace Sys2Proof.Laws

open Sys2Proof.Machine

variable {P : State → Prop}

theorem cl_tell (hP : Quiet P) (s : State) (dst : Nat) (m : Net) (hs : P s) : P (State.tell s dst m) := by
  unfold State.tell
  with_reducible repeat' first | assumption | (apply cl_send hP) | (apply Quiet.put hP) | split

theorem cl_hotCheck (hP : Closed P) (s : State) (total u : Nat) (hs : P s) : TrdP P (State.hotCheck s total u) := by
  unfold State.hotCheck; try dsimp only
  with_reducible repeat' first | assumption | (apply cl_inc hP.toQuiet) | (apply cl_correct hP) | (apply Quiet.put hP.toQuiet) | ((apply Quiet.mk' hP.toQuiet); first | assumption | (apply cl_inc hP.toQuiet) | (apply cl_correct hP) | (apply Quiet.put hP.toQuiet) | split) | ((apply Quiet.mk' hP.toQuiet); (apply Quiet.mk' hP.toQuiet); first | assumption | (apply cl_inc hP.toQuiet) | (apply cl_correct hP) | (apply Quiet.put hP.toQuiet) | split) | split | (intro _ _) | (intro _) | (apply TrdP.mk)

theorem cl_hotChecks (hP : Closed P) (s : State) (total : Nat) (r0 : List Nat) (hs : P s) : TrdP P (State.hotChecks s total r0) := by
  induction r0 generalizing s total with
  | nil =>
    unfold State.hotChecks
    with_reducible repeat' first | assumption | (apply ih) | (apply cl_hotCheck hP) | (refine TrdP.at ?_ (by assumption); apply cl_hotCheck hP) | (apply TrdP.out; apply cl_hotCheck hP) | (apply Quiet.put hP.toQuiet) | (refine TrdP.at ?_ (by assumption); apply ih) | (apply TrdP.out; apply ih) | ((apply Quiet.mk' hP.toQuiet); first | assumption | (apply ih) | (apply cl_hotCheck hP) | (refine TrdP.at ?_ (by assumption); apply cl_hotCheck hP) | (apply TrdP.out; apply cl_hotCheck hP) | (apply Quiet.put hP.toQuiet) | (refine TrdP.at ?_ (by assumption); apply ih) | (apply TrdP.out; apply ih) | split) | split | (intro _ _) | (intro _) | (apply TrdP.mk)
  | cons x l ih =>
    unfold State.hotChecks
    try dsimp only
    with_reducible repeat' first | assumption | (apply ih) | (apply cl_hotCheck hP) | (refine TrdP.at ?_ (by assumption); apply cl_hotCheck hP) | (apply TrdP.out; apply cl_hotCheck hP) | (apply Quiet.put hP.toQuiet) | (refine TrdP.at ?_ (by assumption); apply ih) | (apply TrdP.out; apply ih) | ((apply Quiet.mk' hP.toQuiet); first | assumption | (apply ih) | (apply cl_hotCheck hP) | (refine TrdP.at ?_ (by assumption); apply cl_hotCheck hP) | (apply TrdP.out; apply cl_hotCheck hP) | (apply Quiet.put hP.toQuiet) | (refine TrdP.at ?_ (by assumption); apply ih) | (apply TrdP.out; apply ih) | split) | split | (intro _ _) | (intro _) | (apply TrdP.mk)

theorem cl_hotFill (hP : Closed P) (s : State) (total cls u : Nat) (hs : P s) : P (State.hotFill s total cls u) := by
  unfold State.hotFill; try dsimp only
  with_reducible repeat' first | assumption | (apply cl_writeLoc hP) | (apply cl_inc hP.toQuiet) | (apply Quiet.put hP.toQuiet) | ((apply Quiet.mk' hP.toQuiet); first | assumption | (apply cl_writeLoc hP) | (apply cl_inc hP.toQuiet) | (apply Quiet.put hP.toQuiet) | split) | ((apply Quiet.mk' hP.toQuiet); (apply Quiet.mk' hP.toQuiet); first | assumption | (apply cl_writeLoc hP) | (apply cl_inc hP.toQuiet) | (apply Quiet.put hP.toQuiet) | split) | split | (intro _ _) | (intro _)

theorem cl_hotFills (hP : Closed P) (s : State) (total cls : Nat) (missed : List Nat) (hs : P s) : P (State.hotFills s total cls missed) := by
  unfold State.hotFills
  with_reducible repeat' first | assumption | (apply cl_hotFill hP) | (apply Quiet.put hP.toQuiet) | split | (apply cl_foldl) | (intro _ _) | (intro _)

theorem cl_askRaw (hP : Quiet P) (s : State) (t e index cls entry : Nat) (slots : List Nat) (hs : P s) : P (State.askRaw s t e index cls entry slots) := by
  unfold State.askRaw; try dsimp only
  with_reducible repeat' first | assumption | (apply cl_tell hP) | (apply Quiet.put hP) | split | (apply cl_foldl) | (intro _ _) | (intro _)

theorem cl_setTally (hP : Quiet P) (s : State) (c n : Nat) (f : Tally → Tally) (hs : P s) : P (State.setTally s c n f) := by
  unfold State.setTally
  with_reducible repeat' first | assumption | (apply cl_putCrane hP) | (apply Quiet.put hP) | ((apply Quiet.mk' hP); first | assumption | (apply cl_putCrane hP) | (apply Quiet.put hP) | split) | ((apply Quiet.mk' hP); (apply Quiet.mk' hP); first | assumption | (apply cl_putCrane hP) | (apply Quiet.put hP) | split) | split

theorem cl_craneRead (hP : Closed P) (s : State) (c t e index total cls entry : Nat) (forPart : Bool) (hs : P s) : P (State.craneRead s c t e index total cls entry forPart) := by
  unfold State.craneRead; try dsimp only
  with_reducible repeat' first | assumption | (apply cl_inc hP.toQuiet) | (apply cl_ok hP.toQuiet) | (apply cl_hotChecks hP) | (refine TrdP.at ?_ (by assumption); apply cl_hotChecks hP) | (apply TrdP.out; apply cl_hotChecks hP) | (apply cl_setTally hP.toQuiet) | (apply Quiet.put hP.toQuiet) | ((apply Quiet.mk' hP.toQuiet); first | assumption | (apply cl_inc hP.toQuiet) | (apply cl_ok hP.toQuiet) | (apply cl_hotChecks hP) | (refine TrdP.at ?_ (by assumption); apply cl_hotChecks hP) | (apply TrdP.out; apply cl_hotChecks hP) | (apply cl_setTally hP.toQuiet) | (apply Quiet.put hP.toQuiet) | split) | ((apply Quiet.mk' hP.toQuiet); (apply Quiet.mk' hP.toQuiet); first | assumption | (apply cl_inc hP.toQuiet) | (apply cl_ok hP.toQuiet) | (apply cl_hotChecks hP) | (refine TrdP.at ?_ (by assumption); apply cl_hotChecks hP) | (apply TrdP.out; apply cl_hotChecks hP) | (apply cl_setTally hP.toQuiet) | (apply Quiet.put hP.toQuiet) | split) | split | (intro _ _) | (intro _)

theorem cl_askLost (hP : Closed P) (s : State) (c n cls : Nat) (y : Tally) (hs : P s) : P (State.askLost s c n cls y) := by
  unfold State.askLost; try dsimp only
  with_reducible repeat' first | assumption | (apply cl_setTally hP.toQuiet) | (apply cl_record hP) | (apply cl_askRaw hP.toQuiet) | (apply Quiet.put hP.toQuiet) | ((apply Quiet.mk' hP.toQuiet); first | assumption | (apply cl_setTally hP.toQuiet) | (apply cl_record hP) | (apply cl_askRaw hP.toQuiet) | (apply Quiet.put hP.toQuiet) | split) | ((apply Quiet.mk' hP.toQuiet); (apply Quiet.mk' hP.toQuiet); first | assumption | (apply cl_setTally hP.toQuiet) | (apply cl_record hP) | (apply cl_askRaw hP.toQuiet) | (apply Quiet.put hP.toQuiet) | split) | split | (intro _ _) | (intro _)

theorem cl_addTotal (hP : Quiet P) (s : State) (c n k : Nat) (hs : P s) : P (State.addTotal s c n k) := by
  unfold State.addTotal; try dsimp only
  with_reducible repeat' first | assumption | (apply cl_putCrane hP) | (apply cl_put hP) | (apply Quiet.put hP) | ((apply Quiet.mk' hP); first | assumption | (apply cl_putCrane hP) | (apply cl_put hP) | (apply Quiet.put hP) | split) | ((apply Quiet.mk' hP); (apply Quiet.mk' hP); first | assumption | (apply cl_putCrane hP) | (apply cl_put hP) | (apply Quiet.put hP) | split) | split | (intro _ _) | (intro _)

theorem cl_insertOne (hP : Closed P) (s : State) (c : Nat) (p : MPart) (o : Nat) (hs : P s) : OptP P (State.insertOne s c p o) := by
  unfold State.insertOne; try dsimp only
  with_reducible repeat' first | assumption | (apply cl_addTotal hP.toQuiet) | (apply cl_askLost hP) | (apply cl_putCrane hP.toQuiet) | (apply cl_craneRead hP) | (apply Quiet.put hP.toQuiet) | ((apply Quiet.mk' hP.toQuiet); first | assumption | (apply cl_addTotal hP.toQuiet) | (apply cl_askLost hP) | (apply cl_putCrane hP.toQuiet) | (apply cl_craneRead hP) | (apply Quiet.put hP.toQuiet) | split) | ((apply Quiet.mk' hP.toQuiet); (apply Quiet.mk' hP.toQuiet); first | assumption | (apply cl_addTotal hP.toQuiet) | (apply cl_askLost hP) | (apply cl_putCrane hP.toQuiet) | (apply cl_craneRead hP) | (apply Quiet.put hP.toQuiet) | split) | split | (apply OptP.some) | (exact OptP.none) | (apply OptP.map; intro _)

theorem cl_insertAll (hP : Closed P) (s : State) (c q : Nat) (r0 : List Nat) (hs : P s) : P (State.insertAll s c q r0) := by
  induction r0 generalizing s c q with
  | nil =>
    unfold State.insertAll
    with_reducible repeat' first | assumption | (apply ih) | (apply cl_insertOne hP) | (refine atOptP ?_ (by assumption); apply cl_insertOne hP) | (apply cl_putCrane hP.toQuiet) | (apply Quiet.put hP.toQuiet) | ((apply Quiet.mk' hP.toQuiet); first | assumption | (apply ih) | (apply cl_insertOne hP) | (refine atOptP ?_ (by assumption); apply cl_insertOne hP) | (apply cl_putCrane hP.toQuiet) | (apply Quiet.put hP.toQuiet) | split) | split | (intro _ _) | (intro _)
  | cons x l ih =>
    unfold State.insertAll
    try dsimp only
    with_reducible repeat' first | assumption | (apply ih) | (apply cl_insertOne hP) | (refine atOptP ?_ (by assumption); apply cl_insertOne hP) | (apply cl_putCrane hP.toQuiet) | (apply Quiet.put hP.toQuiet) | ((apply Quiet.mk' hP.toQuiet); first | assumption | (apply ih) | (apply cl_insertOne hP) | (refine atOptP ?_ (by assumption); apply cl_insertOne hP) | (apply cl_putCrane hP.toQuiet) | (apply Quiet.put hP.toQuiet) | split) | split | (intro _ _) | (intro _)

theorem cl_insertParts (hP : Closed P) (s : State) (c : Nat) (hs : P s) : P (State.insertParts s c) := by
  unfold State.insertParts
  with_reducible repeat' first | assumption | (apply cl_insertAll hP) | (apply Quiet.put hP.toQuiet) | split | (apply cl_foldl) | (intro _ _) | (intro _)

theorem cl_sendRaw (hP : Quiet P) (s : State) (c : Nat) (t index : Nat) (asker : Nat × Nat) (status : Nat) (rec : List Byte) (hs : P s) : P (State.sendRaw s c t index asker status rec) := by
  unfold State.sendRaw
  with_reducible repeat' first | assumption | (apply cl_inc hP) | (apply cl_tell hP) | (apply Quiet.put hP) | split

theorem cl_rawFrom (hP : Closed P) (s : State) (c n : Nat) (y : Tally) (w : RawWait) (hs : P s) : P (State.rawFrom s c n y w) := by
  unfold State.rawFrom; try dsimp only
  with_reducible repeat' first | assumption | (apply cl_sendRaw hP.toQuiet) | (apply cl_record hP) | (apply cl_setTally hP.toQuiet) | (apply Quiet.put hP.toQuiet) | ((apply Quiet.mk' hP.toQuiet); first | assumption | (apply cl_sendRaw hP.toQuiet) | (apply cl_record hP) | (apply cl_setTally hP.toQuiet) | (apply Quiet.put hP.toQuiet) | split) | ((apply Quiet.mk' hP.toQuiet); (apply Quiet.mk' hP.toQuiet); first | assumption | (apply cl_sendRaw hP.toQuiet) | (apply cl_record hP) | (apply cl_setTally hP.toQuiet) | (apply Quiet.put hP.toQuiet) | split) | split | (intro _ _) | (intro _)

theorem cl_rawOne (hP : Closed P) (s : State) (c : Nat) (w : RawWait) (hs : P s) : OptP P (State.rawOne s c w) := by
  unfold State.rawOne; try dsimp only
  with_reducible repeat' first | assumption | (apply cl_rawFrom hP) | (apply cl_putCrane hP.toQuiet) | (apply cl_craneRead hP) | (apply Quiet.put hP.toQuiet) | ((apply Quiet.mk' hP.toQuiet); first | assumption | (apply cl_rawFrom hP) | (apply cl_putCrane hP.toQuiet) | (apply cl_craneRead hP) | (apply Quiet.put hP.toQuiet) | split) | ((apply Quiet.mk' hP.toQuiet); (apply Quiet.mk' hP.toQuiet); first | assumption | (apply cl_rawFrom hP) | (apply cl_putCrane hP.toQuiet) | (apply cl_craneRead hP) | (apply Quiet.put hP.toQuiet) | split) | split | (intro _ _) | (intro _) | (apply OptP.some) | (exact OptP.none) | (apply OptP.map; intro _)

theorem cl_insertRaws (hP : Closed P) (s : State) (c : Nat) (r0 : List RawWait) (hs : P s) : P (State.insertRaws s c r0) := by
  induction r0 generalizing s c with
  | nil =>
    unfold State.insertRaws
    with_reducible repeat' first | assumption | (apply ih) | (apply cl_rawOne hP) | (refine atOptP ?_ (by assumption); apply cl_rawOne hP) | (apply cl_putCrane hP.toQuiet) | (apply Quiet.put hP.toQuiet) | ((apply Quiet.mk' hP.toQuiet); first | assumption | (apply ih) | (apply cl_rawOne hP) | (refine atOptP ?_ (by assumption); apply cl_rawOne hP) | (apply cl_putCrane hP.toQuiet) | (apply Quiet.put hP.toQuiet) | split) | split | (intro _ _) | (intro _)
  | cons x l ih =>
    unfold State.insertRaws
    try dsimp only
    with_reducible repeat' first | assumption | (apply ih) | (apply cl_rawOne hP) | (refine atOptP ?_ (by assumption); apply cl_rawOne hP) | (apply cl_putCrane hP.toQuiet) | (apply Quiet.put hP.toQuiet) | ((apply Quiet.mk' hP.toQuiet); first | assumption | (apply ih) | (apply cl_rawOne hP) | (refine atOptP ?_ (by assumption); apply cl_rawOne hP) | (apply cl_putCrane hP.toQuiet) | (apply Quiet.put hP.toQuiet) | split) | split | (intro _ _) | (intro _)

theorem cl_answer (hP : Quiet P) (s : State) (h : Part) (status : Nat) (hs : P s) : P (State.answer s h status) := by
  unfold State.answer; try dsimp only
  with_reducible repeat' first | assumption | (apply cl_tell hP) | (apply Quiet.put hP) | split

theorem cl_sendSlice (hP : Quiet P) (s : State) (c : Nat) (h : Part) (b : Bag) (hs : P s) : P (State.sendSlice s c h b) := by
  unfold State.sendSlice; try dsimp only
  with_reducible repeat' first | assumption | (apply cl_inc hP) | (apply cl_tell hP) | (apply Quiet.put hP) | split | (intro _ _) | (intro _)

theorem cl_leaveOpen (hP : Quiet P) (s : State) (c : Nat) (p : Part) (acc : List Nat) (len : Nat) (failed : Option Nat) (hs : P s) : P (State.leaveOpen s c p acc len failed) := by
  unfold State.leaveOpen; try dsimp only
  with_reducible repeat' first | assumption | (apply cl_putCrane hP) | (apply Quiet.put hP) | ((apply Quiet.mk' hP); first | assumption | (apply cl_putCrane hP) | (apply Quiet.put hP) | split) | ((apply Quiet.mk' hP); (apply Quiet.mk' hP); first | assumption | (apply cl_putCrane hP) | (apply Quiet.put hP) | split) | split | (intro _ _) | (intro _)

theorem cl_dropTaken (hP : Quiet P) (s : State) (c : Nat) (p : MPart) (hs : P s) : P (State.dropTaken s c p) := by
  unfold State.dropTaken
  with_reducible repeat' first | assumption | (apply cl_putCrane hP) | (apply Quiet.put hP) | ((apply Quiet.mk' hP); first | assumption | (apply cl_putCrane hP) | (apply Quiet.put hP) | split) | ((apply Quiet.mk' hP); (apply Quiet.mk' hP); first | assumption | (apply cl_putCrane hP) | (apply Quiet.put hP) | split) | split | (intro _ _) | (intro _)

theorem cl_finishBags (hP : Quiet P) (s : State) (c q : Nat) (p : MPart) (hs : P s) : P (State.finishBags s c q p) := by
  unfold State.finishBags; try dsimp only
  with_reducible repeat' first | assumption | (apply cl_dropTaken hP) | (apply cl_leaveOpen hP) | (apply cl_sendSlice hP) | (apply cl_putCrane hP) | (apply Quiet.put hP) | ((apply Quiet.mk' hP); first | assumption | (apply cl_dropTaken hP) | (apply cl_leaveOpen hP) | (apply cl_sendSlice hP) | (apply cl_putCrane hP) | (apply Quiet.put hP) | (apply cl_foldl) | split) | ((apply Quiet.mk' hP); (apply Quiet.mk' hP); first | assumption | (apply cl_dropTaken hP) | (apply cl_leaveOpen hP) | (apply cl_sendSlice hP) | (apply cl_putCrane hP) | (apply Quiet.put hP) | (apply cl_foldl) | split) | split | (apply cl_foldl) | (intro _ _) | (intro _)

theorem cl_poolParts (hP : Quiet P) (s : State) (c : Nat) (hs : P s) : P (State.poolParts s c) := by
  unfold State.poolParts
  with_reducible repeat' first | assumption | (apply cl_finishBags hP) | (apply Quiet.put hP) | split | (apply cl_foldl) | (intro _ _) | (intro _)

theorem cl_endPart (hP : Quiet P) (s : State) (c : Nat) (p : MPart) (st : Nat) (hs : P s) : P (State.endPart s c p st) := by
  unfold State.endPart; try dsimp only
  with_reducible repeat' first | assumption | (apply cl_answer hP) | (apply cl_putCrane hP) | (apply cl_leaveOpen hP) | (apply Quiet.put hP) | ((apply Quiet.mk' hP); first | assumption | (apply cl_answer hP) | (apply cl_putCrane hP) | (apply cl_leaveOpen hP) | (apply Quiet.put hP) | split) | ((apply Quiet.mk' hP); (apply Quiet.mk' hP); first | assumption | (apply cl_answer hP) | (apply cl_putCrane hP) | (apply cl_leaveOpen hP) | (apply Quiet.put hP) | split) | split | (intro _ _) | (intro _)

theorem cl_closeParts (hP : Quiet P) (s : State) (c : Nat) (hs : P s) : P (State.closeParts s c) := by
  unfold State.closeParts
  with_reducible repeat' first | assumption | (apply cl_endPart hP) | (apply Quiet.put hP) | split | (apply cl_foldl) | (intro _ _) | (intro _)

theorem cl_endWindow (hP : Closed P) (s : State) (c : Nat) (hs : P s) : P (State.endWindow s c) := by
  unfold State.endWindow; try dsimp only
  with_reducible repeat' first | assumption | (apply cl_putCrane hP.toQuiet) | (apply cl_inc hP.toQuiet) | (apply cl_insertParts hP) | (apply cl_insertRaws hP) | (apply Quiet.put hP.toQuiet) | ((apply Quiet.mk' hP.toQuiet); first | assumption | (apply cl_putCrane hP.toQuiet) | (apply cl_inc hP.toQuiet) | (apply cl_insertParts hP) | (apply cl_insertRaws hP) | (apply Quiet.put hP.toQuiet) | split) | ((apply Quiet.mk' hP.toQuiet); (apply Quiet.mk' hP.toQuiet); first | assumption | (apply cl_putCrane hP.toQuiet) | (apply cl_inc hP.toQuiet) | (apply cl_insertParts hP) | (apply cl_insertRaws hP) | (apply Quiet.put hP.toQuiet) | split) | split | (intro _ _) | (intro _)

theorem cl_runCrane (hP : Closed P) (s : State) (c : Nat) (hs : P s) : P (State.runCrane s c) := by
  unfold State.runCrane; try dsimp only
  with_reducible repeat' first | assumption | (apply cl_insertParts hP) | (apply cl_insertRaws hP) | (apply cl_poolParts hP.toQuiet) | (apply cl_closeParts hP.toQuiet) | (apply cl_endWindow hP) | (apply Quiet.put hP.toQuiet) | split

theorem cl_loseParts (hP : Closed P) (s : State) (g : Nat) (hs : P s) : P (State.loseParts s g) := by
  unfold State.loseParts; try dsimp only
  with_reducible repeat' first | assumption | (apply cl_endPart hP.toQuiet) | (apply cl_runCrane hP) | (apply Quiet.put hP.toQuiet) | split | (apply cl_foldl) | (intro _ _) | (intro _)

theorem cl_partRefused (hP : Closed P) (s : State) (d status : Nat) (hs : P s) : P (State.partRefused s d status) := by
  unfold State.partRefused
  with_reducible repeat' first | assumption | (apply cl_malformedFrom hP) | (apply Quiet.put hP.toQuiet) | split

theorem cl_takePart (hP : Closed P) (s : State) (p : Part) (hs : P s) : P (State.takePart s p) := by
  unfold State.takePart; try dsimp only
  with_reducible repeat' first | assumption | (apply cl_inc hP.toQuiet) | (apply cl_answer hP.toQuiet) | (apply cl_partRefused hP) | (apply cl_leaveOpen hP.toQuiet) | (apply cl_putCrane hP.toQuiet) | (apply cl_runCrane hP) | (apply Quiet.put hP.toQuiet) | ((apply Quiet.mk' hP.toQuiet); first | assumption | (apply cl_inc hP.toQuiet) | (apply cl_answer hP.toQuiet) | (apply cl_partRefused hP) | (apply cl_leaveOpen hP.toQuiet) | (apply cl_putCrane hP.toQuiet) | (apply cl_runCrane hP) | (apply Quiet.put hP.toQuiet) | split) | ((apply Quiet.mk' hP.toQuiet); (apply Quiet.mk' hP.toQuiet); first | assumption | (apply cl_inc hP.toQuiet) | (apply cl_answer hP.toQuiet) | (apply cl_partRefused hP) | (apply cl_leaveOpen hP.toQuiet) | (apply cl_putCrane hP.toQuiet) | (apply cl_runCrane hP) | (apply Quiet.put hP.toQuiet) | split) | split

theorem cl_execLadingPart (hP : Closed P) (part : Part) (s : State) (hs : P s) : OutP P (execLadingPart part s) := by
  unfold execLadingPart
  with_reducible repeat' first | assumption | (apply cl_ok hP.toQuiet) | (apply cl_takePart hP) | (apply Quiet.put hP.toQuiet) | split | (apply OutP.ok) | (apply OutP.next)

theorem cl_execIndexCut (hP : Quiet P) (s : State) (hs : P s) : OutP P (execIndexCut s) := by
  unfold execIndexCut
  with_reducible repeat' first | assumption | (apply cl_ok hP) | (apply Quiet.put hP) | ((apply Quiet.mk' hP); first | assumption | (apply cl_ok hP) | (apply Quiet.put hP) | split) | ((apply Quiet.mk' hP); (apply Quiet.mk' hP); first | assumption | (apply cl_ok hP) | (apply Quiet.put hP) | split) | split | (apply OutP.ok) | (apply OutP.next)

theorem cl_execSlicePressureMark (hP : Quiet P) (s : State) (hs : P s) : OutP P (execSlicePressureMark s) := by
  unfold execSlicePressureMark
  with_reducible repeat' first | assumption | (apply cl_ok hP) | (apply Quiet.put hP) | ((apply Quiet.mk' hP); first | assumption | (apply cl_ok hP) | (apply Quiet.put hP) | split) | ((apply Quiet.mk' hP); (apply Quiet.mk' hP); first | assumption | (apply cl_ok hP) | (apply Quiet.put hP) | split) | split | (apply OutP.ok) | (apply OutP.next)

theorem cl_answerAskers (hP : Quiet P) (s : State) (c n status : Nat) (rec : List Byte) (hs : P s) : P (State.answerAskers s c n status rec) := by
  unfold State.answerAskers; try dsimp only
  with_reducible repeat' first | assumption | (apply cl_sendRaw hP) | (apply cl_setTally hP) | (apply Quiet.put hP) | ((apply Quiet.mk' hP); first | assumption | (apply cl_sendRaw hP) | (apply cl_setTally hP) | (apply Quiet.put hP) | (apply cl_foldl) | split) | ((apply Quiet.mk' hP); (apply Quiet.mk' hP); first | assumption | (apply cl_sendRaw hP) | (apply cl_setTally hP) | (apply Quiet.put hP) | (apply cl_foldl) | split) | split | (apply cl_foldl) | (intro _ _) | (intro _)

theorem cl_recordReady (hP : Closed P) (s : State) (c n : Nat) (hs : P s) : P (State.recordReady s c n) := by
  unfold State.recordReady
  with_reducible repeat' first | assumption | (apply cl_setTally hP.toQuiet) | (apply cl_runCrane hP) | (apply Quiet.put hP.toQuiet) | ((apply Quiet.mk' hP.toQuiet); first | assumption | (apply cl_setTally hP.toQuiet) | (apply cl_runCrane hP) | (apply Quiet.put hP.toQuiet) | split) | ((apply Quiet.mk' hP.toQuiet); (apply Quiet.mk' hP.toQuiet); first | assumption | (apply cl_setTally hP.toQuiet) | (apply cl_runCrane hP) | (apply Quiet.put hP.toQuiet) | split) | split | (intro _ _) | (intro _)

theorem cl_recordLost (hP : Closed P) (s : State) (c n : Nat) (y : Tally) (hs : P s) : P (State.recordLost s c n y) := by
  unfold State.recordLost; try dsimp only
  with_reducible repeat' first | assumption | (apply cl_answerAskers hP.toQuiet) | (apply cl_setTally hP.toQuiet) | (apply cl_record hP) | (apply cl_askRaw hP.toQuiet) | (apply cl_runCrane hP) | (apply Quiet.put hP.toQuiet) | ((apply Quiet.mk' hP.toQuiet); first | assumption | (apply cl_answerAskers hP.toQuiet) | (apply cl_setTally hP.toQuiet) | (apply cl_record hP) | (apply cl_askRaw hP.toQuiet) | (apply cl_runCrane hP) | (apply Quiet.put hP.toQuiet) | split) | ((apply Quiet.mk' hP.toQuiet); (apply Quiet.mk' hP.toQuiet); first | assumption | (apply cl_answerAskers hP.toQuiet) | (apply cl_setTally hP.toQuiet) | (apply cl_record hP) | (apply cl_askRaw hP.toQuiet) | (apply cl_runCrane hP) | (apply Quiet.put hP.toQuiet) | split) | split | (intro _ _) | (intro _)

theorem cl_recordGot (hP : Closed P) (s : State) (c n : Nat) (y : Tally) (rec : List Byte) (hs : P s) : P (State.recordGot s c n y rec) := by
  unfold State.recordGot; try dsimp only
  with_reducible repeat' first | assumption | (apply cl_answerAskers hP.toQuiet) | (apply cl_setTally hP.toQuiet) | (apply cl_record hP) | (apply cl_recordReady hP) | (apply Quiet.put hP.toQuiet) | ((apply Quiet.mk' hP.toQuiet); first | assumption | (apply cl_answerAskers hP.toQuiet) | (apply cl_setTally hP.toQuiet) | (apply cl_record hP) | (apply cl_recordReady hP) | (apply Quiet.put hP.toQuiet) | split) | ((apply Quiet.mk' hP.toQuiet); (apply Quiet.mk' hP.toQuiet); first | assumption | (apply cl_answerAskers hP.toQuiet) | (apply cl_setTally hP.toQuiet) | (apply cl_record hP) | (apply cl_recordReady hP) | (apply Quiet.put hP.toQuiet) | split) | split | (intro _ _) | (intro _)

theorem cl_recordReturns (hP : Closed P) (s : State) (c n : Nat) (y : Tally) (hs : P s) : P (State.recordReturns s c n y) := by
  unfold State.recordReturns
  with_reducible repeat' first | assumption | (apply cl_recordGot hP) | (apply cl_memError hP) | (apply cl_recordLost hP) | (apply cl_ok hP.toQuiet) | (apply cl_inc hP.toQuiet) | (apply cl_read hP) | (refine atExSndP ?_ (by assumption); apply cl_read hP) | (apply cl_hotFills hP) | (apply Quiet.put hP.toQuiet) | ((apply Quiet.mk' hP.toQuiet); first | assumption | (apply cl_recordGot hP) | (apply cl_memError hP) | (apply cl_recordLost hP) | (apply cl_ok hP.toQuiet) | (apply cl_inc hP.toQuiet) | (apply cl_read hP) | (refine atExSndP ?_ (by assumption); apply cl_read hP) | (apply cl_hotFills hP) | (apply Quiet.put hP.toQuiet) | split) | ((apply Quiet.mk' hP.toQuiet); (apply Quiet.mk' hP.toQuiet); first | assumption | (apply cl_recordGot hP) | (apply cl_memError hP) | (apply cl_recordLost hP) | (apply cl_ok hP.toQuiet) | (apply cl_inc hP.toQuiet) | (apply cl_read hP) | (refine atExSndP ?_ (by assumption); apply cl_read hP) | (apply cl_hotFills hP) | (apply Quiet.put hP.toQuiet) | split) | split

theorem cl_execRecordReadReturn (hP : Closed P) (crane entry : Nat) (s : State) (hs : P s) : OutP P (execRecordReadReturn crane entry s) := by
  unfold execRecordReadReturn
  with_reducible repeat' first | assumption | (apply cl_ok hP.toQuiet) | (apply cl_recordReturns hP) | (apply Quiet.put hP.toQuiet) | split | (apply OutP.ok) | (apply OutP.next)

theorem cl_takeRaw (hP : Closed P) (s : State) (t gen e index device cls tag : Nat) (hs : P s) : P (State.takeRaw s t gen e index device cls tag) := by
  unfold State.takeRaw; try dsimp only
  with_reducible repeat' first | assumption | (apply cl_sendRaw hP.toQuiet) | (apply cl_putCrane hP.toQuiet) | (apply cl_runCrane hP) | (apply Quiet.put hP.toQuiet) | ((apply Quiet.mk' hP.toQuiet); first | assumption | (apply cl_sendRaw hP.toQuiet) | (apply cl_putCrane hP.toQuiet) | (apply cl_runCrane hP) | (apply Quiet.put hP.toQuiet) | split) | ((apply Quiet.mk' hP.toQuiet); (apply Quiet.mk' hP.toQuiet); first | assumption | (apply cl_sendRaw hP.toQuiet) | (apply cl_putCrane hP.toQuiet) | (apply cl_runCrane hP) | (apply Quiet.put hP.toQuiet) | split) | split

theorem cl_execRawRequest (hP : Closed P) (table gen epoch index device cls tag : Nat) (s : State) (hs : P s) : OutP P (execRawRequest table gen epoch index device cls tag s) := by
  unfold execRawRequest
  with_reducible repeat' first | assumption | (apply cl_ok hP.toQuiet) | (apply cl_takeRaw hP) | (apply Quiet.put hP.toQuiet) | split | (apply OutP.ok) | (apply OutP.next)

theorem cl_writeBack (hP : Closed P) (s : State) (a : Nat) (rec : List Byte) (hs : P s) : P (State.writeBack s a rec) := by
  unfold State.writeBack; try dsimp only
  with_reducible repeat' first | assumption | (apply cl_dropHot hP.toQuiet) | (apply cl_pokeByte hP) | (apply cl_wordError hP) | (apply Quiet.put hP.toQuiet) | ((apply Quiet.mk' hP.toQuiet); first | assumption | (apply cl_dropHot hP.toQuiet) | (apply cl_pokeByte hP) | (apply cl_wordError hP) | (apply Quiet.put hP.toQuiet) | (apply cl_foldl) | split) | ((apply Quiet.mk' hP.toQuiet); (apply Quiet.mk' hP.toQuiet); first | assumption | (apply cl_dropHot hP.toQuiet) | (apply cl_pokeByte hP) | (apply cl_wordError hP) | (apply Quiet.put hP.toQuiet) | (apply cl_foldl) | split) | split | (apply cl_foldl) | (intro _ _) | (intro _)

theorem cl_takeCopy (hP : Closed P) (s : State) (c n slot status : Nat) (data : List Byte) (y : Tally) (hs : P s) : P (State.takeCopy s c n slot status data y) := by
  unfold State.takeCopy; try dsimp only
  with_reducible repeat' first | assumption | (apply cl_setTally hP.toQuiet) | (apply cl_runCrane hP) | (apply cl_zero hP) | (apply cl_record hP) | (apply cl_ok hP.toQuiet) | (apply cl_writeBack hP) | (apply cl_hotFills hP) | (apply cl_recordReady hP) | (apply Quiet.put hP.toQuiet) | ((apply Quiet.mk' hP.toQuiet); first | assumption | (apply cl_setTally hP.toQuiet) | (apply cl_runCrane hP) | (apply cl_zero hP) | (apply cl_record hP) | (apply cl_ok hP.toQuiet) | (apply cl_writeBack hP) | (apply cl_hotFills hP) | (apply cl_recordReady hP) | (apply Quiet.put hP.toQuiet) | split) | ((apply Quiet.mk' hP.toQuiet); (apply Quiet.mk' hP.toQuiet); first | assumption | (apply cl_setTally hP.toQuiet) | (apply cl_runCrane hP) | (apply cl_zero hP) | (apply cl_record hP) | (apply cl_ok hP.toQuiet) | (apply cl_writeBack hP) | (apply cl_hotFills hP) | (apply cl_recordReady hP) | (apply Quiet.put hP.toQuiet) | split) | split | (intro _ _) | (intro _)

theorem cl_execRawCopy (hP : Closed P) (crane entry : Nat) (sender : MemberAt) (status : Nat) (data : List Byte) (s : State) (hs : P s) : OutP P (execRawCopy crane entry sender status data s) := by
  unfold execRawCopy; try dsimp only
  with_reducible repeat' first | assumption | (apply cl_inc hP.toQuiet) | (apply cl_ok hP.toQuiet) | (apply cl_takeCopy hP) | (apply Quiet.put hP.toQuiet) | split | (apply OutP.ok) | (apply OutP.next)

end Sys2Proof.Laws
end

