-- ==== Sys2Proof/Laws/KeepsLookup.lean ====
section
/-! SUPPORT. What the functions of Machine/Lookup.lean keep: see Laws/Closed.lean. -/

set_option linter.unusedTactic false
set_option linter.unreachableTactic false

namespace Sys2Proof.Laws

open Sys2Proof.Machine

variable {P : State → Prop}

theorem cl_accessFailed (hP : Closed P) (s : State) (j : Nat) (e : AccErr) (hs : P s) : P (State.accessFailed s j e) := by
  unfold State.accessFailed
  with_reducible repeat' first | assumption | (apply cl_memError hP) | (apply cl_endJobOf hP) | (apply Quiet.put hP.toQuiet) | split

theorem cl_bagLengths (hP : Closed P) (s : State) (r : Req) (x : Section) (hs : P s) : ExSndP P (State.bagLengths s r x) := by
  unfold State.bagLengths
  with_reducible repeat' first | assumption | (apply cl_read hP) | (refine atExSndP ?_ (by assumption); apply cl_read hP) | (apply cl_ok hP.toQuiet) | (apply Quiet.put hP.toQuiet) | split | (intro _ _) | (intro _) | (apply ExSndP.ok) | (exact ExSndP.error)

theorem cl_sectIndices (hP : Closed P) (s : State) (r : Req) (x : Section) (n : Nat) (hs : P s) : ExSndP P (State.sectIndices s r x n) := by
  unfold State.sectIndices; try dsimp only
  with_reducible repeat' first | assumption | (apply cl_read hP) | (refine atExSndP ?_ (by assumption); apply cl_read hP) | (apply cl_ok hP.toQuiet) | (apply Quiet.put hP.toQuiet) | split | (intro _ _) | (intro _) | (apply ExSndP.ok) | (exact ExSndP.error)

theorem cl_sendParts (hP : Quiet P) (s : State) (t : Nat) (slots : List Nat) (ps : List Part) (hs : P s) : P (State.sendParts s t slots ps) := by
  unfold State.sendParts; try dsimp only
  with_reducible repeat' first | assumption | (apply cl_tell hP) | (apply Quiet.put hP) | split | (apply cl_foldl) | (intro _ _) | (intro _)

theorem cl_writeZeroBags (hP : Closed P) (s : State) (r : Req) (x : Section) (r0 : List Nat) (hs : P s) : ExP P (State.writeZeroBags s r x r0) := by
  induction r0 generalizing s r x with
  | nil =>
    unfold State.writeZeroBags
    with_reducible repeat' first | assumption | (apply ih) | (apply cl_ok hP.toQuiet) | (apply cl_write hP) | (refine atExP ?_ (by assumption); apply cl_write hP) | (apply Quiet.put hP.toQuiet) | (refine atExP ?_ (by assumption); apply ih) | ((apply Quiet.mk' hP.toQuiet); first | assumption | (apply ih) | (apply cl_ok hP.toQuiet) | (apply cl_write hP) | (refine atExP ?_ (by assumption); apply cl_write hP) | (apply Quiet.put hP.toQuiet) | (refine atExP ?_ (by assumption); apply ih) | split) | split | (intro _ _) | (intro _) | (apply ExP.ok) | (exact ExP.error)
  | cons x l ih =>
    unfold State.writeZeroBags
    try dsimp only
    with_reducible repeat' first | assumption | (apply ih) | (apply cl_ok hP.toQuiet) | (apply cl_write hP) | (refine atExP ?_ (by assumption); apply cl_write hP) | (apply Quiet.put hP.toQuiet) | (refine atExP ?_ (by assumption); apply ih) | ((apply Quiet.mk' hP.toQuiet); first | assumption | (apply ih) | (apply cl_ok hP.toQuiet) | (apply cl_write hP) | (refine atExP ?_ (by assumption); apply cl_write hP) | (apply Quiet.put hP.toQuiet) | (refine atExP ?_ (by assumption); apply ih) | split) | split | (intro _ _) | (intro _) | (apply ExP.ok) | (exact ExP.error)

theorem cl_tallied (hP : Closed P) (s : State) (j : Job) (k : Nat) (x : Section) (lens idx slots : List Nat) (hs : P s) : P (State.tallied s j k x lens idx slots) := by
  unfold State.tallied; try dsimp only
  with_reducible repeat' first | assumption | (apply cl_inc hP.toQuiet) | (apply cl_putJob hP.toQuiet) | (apply cl_writeZeroBags hP) | (refine atExP ?_ (by assumption); apply cl_writeZeroBags hP) | (apply cl_accessFailed hP) | (apply cl_ok hP.toQuiet) | (apply cl_sendParts hP.toQuiet) | (apply Quiet.put hP.toQuiet) | ((apply Quiet.mk' hP.toQuiet); first | assumption | (apply cl_inc hP.toQuiet) | (apply cl_putJob hP.toQuiet) | (apply cl_writeZeroBags hP) | (refine atExP ?_ (by assumption); apply cl_writeZeroBags hP) | (apply cl_accessFailed hP) | (apply cl_ok hP.toQuiet) | (apply cl_sendParts hP.toQuiet) | (apply Quiet.put hP.toQuiet) | split) | ((apply Quiet.mk' hP.toQuiet); (apply Quiet.mk' hP.toQuiet); first | assumption | (apply cl_inc hP.toQuiet) | (apply cl_putJob hP.toQuiet) | (apply cl_writeZeroBags hP) | (refine atExP ?_ (by assumption); apply cl_writeZeroBags hP) | (apply cl_accessFailed hP) | (apply cl_ok hP.toQuiet) | (apply cl_sendParts hP.toQuiet) | (apply Quiet.put hP.toQuiet) | split) | split | (intro _ _) | (intro _)

theorem cl_tallySection (hP : Closed P) (s : State) (j : Job) (k : Nat) (x : Section) (slots : List Nat) (hs : P s) : P (State.tallySection s j k x slots) := by
  unfold State.tallySection
  with_reducible repeat' first | assumption | (apply cl_bagLengths hP) | (refine atExSndP ?_ (by assumption); apply cl_bagLengths hP) | (apply cl_accessFailed hP) | (apply cl_ok hP.toQuiet) | (apply cl_endJob hP) | (apply cl_sectIndices hP) | (refine atExSndP ?_ (by assumption); apply cl_sectIndices hP) | (apply cl_tallied hP) | (apply Quiet.put hP.toQuiet) | split

theorem cl_execSectionTally (hP : Closed P) (job sect : Nat) (s : State) (hs : P s) : OutP P (execSectionTally job sect s) := by
  unfold execSectionTally
  with_reducible repeat' first | assumption | (apply cl_ok hP.toQuiet) | (apply cl_tallied hP) | (apply cl_tallySection hP) | (apply Quiet.put hP.toQuiet) | split | (apply OutP.ok) | (apply OutP.next)

theorem cl_takeSlice (hP : Closed P) (s : State) (j : Job) (x : Section) (part bag slot attempt : Nat) (data : List Byte) (hs : P s) : P (State.takeSlice s j x part bag slot attempt data) := by
  unfold State.takeSlice; try dsimp only
  with_reducible repeat' first | assumption | (apply cl_write hP) | (refine atExP ?_ (by assumption); apply cl_write hP) | (apply cl_ok hP.toQuiet) | (apply cl_accessFailed hP) | (apply Quiet.put hP.toQuiet) | split

theorem cl_execPooledSlice (hP : Closed P) (jobRef table part bag slot attempt : Nat) (data : List Byte) (s : State) (hs : P s) : OutP P (execPooledSlice jobRef table part bag slot attempt data s) := by
  unfold execPooledSlice
  with_reducible repeat' first | assumption | (apply cl_ok hP.toQuiet) | (apply cl_takeSlice hP) | (apply Quiet.put hP.toQuiet) | split | (apply OutP.ok) | (apply OutP.next)

theorem cl_takeDone (hP : Closed P) (s : State) (jobRef table part slot status attempt : Nat) (pressure : Bool) (hs : P s) : P (State.takeDone s jobRef table part slot status attempt pressure) := by
  unfold State.takeDone; try dsimp only
  with_reducible repeat' first | assumption | (apply cl_putJob hP.toQuiet) | (apply cl_endJob hP) | (apply Quiet.put hP.toQuiet) | ((apply Quiet.mk' hP.toQuiet); first | assumption | (apply cl_putJob hP.toQuiet) | (apply cl_endJob hP) | (apply Quiet.put hP.toQuiet) | split) | ((apply Quiet.mk' hP.toQuiet); (apply Quiet.mk' hP.toQuiet); first | assumption | (apply cl_putJob hP.toQuiet) | (apply cl_endJob hP) | (apply Quiet.put hP.toQuiet) | split) | split

theorem cl_execPartDone (hP : Closed P) (jobRef table part slot status attempt : Nat) (pressure : Bool) (s : State) (hs : P s) : OutP P (execPartDone jobRef table part slot status attempt pressure s) := by
  unfold execPartDone
  with_reducible repeat' first | assumption | (apply cl_ok hP.toQuiet) | (apply cl_takeDone hP) | (apply Quiet.put hP.toQuiet) | split | (apply OutP.ok) | (apply OutP.next)

end Sys2Proof.Laws
end

