-- ==== Sys2Proof/Laws/KeepsModels.lean ====
section
/-! SUPPORT. What the functions of Machine/Models.lean keep: see Laws/Closed.lean. -/

set_option linter.unusedTactic false
set_option linter.unreachableTactic false

namespace Sys2Proof.Laws

open Sys2Proof.Machine

variable {P : State → Prop}

theorem cl_devWrite (hP : Closed P) (s : State) (a : Nat) (bs : List Byte) (hs : P s) : P (State.devWrite s a bs) := by
  unfold State.devWrite
  with_reducible repeat' first | assumption | (apply cl_write hP) | (refine atExP ?_ (by assumption); apply cl_write hP) | (apply cl_ok hP.toQuiet) | (apply Quiet.put hP.toQuiet) | ((apply Quiet.mk' hP.toQuiet); first | assumption | (apply cl_write hP) | (refine atExP ?_ (by assumption); apply cl_write hP) | (apply cl_ok hP.toQuiet) | (apply Quiet.put hP.toQuiet) | split) | ((apply Quiet.mk' hP.toQuiet); (apply Quiet.mk' hP.toQuiet); first | assumption | (apply cl_write hP) | (refine atExP ?_ (by assumption); apply cl_write hP) | (apply cl_ok hP.toQuiet) | (apply Quiet.put hP.toQuiet) | split) | split

theorem cl_setModel (hP : Closed P) (s : State) (m : Nat) (x : Model) (hs : P s) : P (State.setModel s m x) := by
  unfold State.setModel
  with_reducible repeat' first | assumption | (apply cl_putModel hP.toQuiet) | (apply cl_devWrite hP) | (apply Quiet.put hP.toQuiet) | split

theorem cl_modelResult (hP : Quiet P) (s : State) (r : Nat) (hs : P s) : P (State.modelResult s r) := by
  unfold State.modelResult
  with_reducible repeat' first | assumption | (apply cl_put hP) | (apply Quiet.put hP) | split

theorem cl_addModel (hP : Closed P) (s : State) (m : Nat) (hs : P s) : P (State.addModel s m) := by
  unfold State.addModel
  with_reducible repeat' first | assumption | (apply cl_modelResult hP.toQuiet) | (apply cl_setModel hP) | (apply Quiet.put hP.toQuiet) | split

theorem cl_removeModel (hP : Closed P) (s : State) (m : Nat) (hs : P s) : P (State.removeModel s m) := by
  unfold State.removeModel; try dsimp only
  with_reducible repeat' first | assumption | (apply cl_modelResult hP.toQuiet) | (apply cl_setModel hP) | (apply Quiet.put hP.toQuiet) | ((apply Quiet.mk' hP.toQuiet); first | assumption | (apply cl_modelResult hP.toQuiet) | (apply cl_setModel hP) | (apply Quiet.put hP.toQuiet) | split) | ((apply Quiet.mk' hP.toQuiet); (apply Quiet.mk' hP.toQuiet); first | assumption | (apply cl_modelResult hP.toQuiet) | (apply cl_setModel hP) | (apply Quiet.put hP.toQuiet) | split) | split

theorem cl_execModelAdd (hP : Closed P) (model : Nat) (s : State) (hs : P s) : OutP P (execModelAdd model s) := by
  unfold execModelAdd
  with_reducible repeat' first | assumption | (apply cl_ok hP.toQuiet) | (apply cl_hostDo hP.toQuiet) | (apply cl_addModel hP) | (apply Quiet.put hP.toQuiet) | split | (intro _ _) | (intro _) | (apply OutP.ok) | (apply OutP.next)

theorem cl_execModelRemove (hP : Closed P) (model : Nat) (s : State) (hs : P s) : OutP P (execModelRemove model s) := by
  unfold execModelRemove
  with_reducible repeat' first | assumption | (apply cl_ok hP.toQuiet) | (apply cl_hostDo hP.toQuiet) | (apply cl_removeModel hP) | (apply Quiet.put hP.toQuiet) | split | (intro _ _) | (intro _) | (apply OutP.ok) | (apply OutP.next)

theorem cl_endLoad (hP : Quiet P) (s : State) (m : Nat) (hs : P s) : P (State.endLoad s m) := by
  unfold State.endLoad
  with_reducible repeat' first | assumption | (apply cl_freeStream hP) | (apply Quiet.put hP) | split

theorem cl_execModelRemoved (hP : Closed P) (model : Nat) (s : State) (hs : P s) : OutP P (execModelRemoved model s) := by
  unfold execModelRemoved
  with_reducible repeat' first | assumption | (apply cl_ok hP.toQuiet) | (apply cl_endLoad hP.toQuiet) | (apply cl_setModel hP) | (apply Quiet.put hP.toQuiet) | split | (apply OutP.ok) | (apply OutP.next)

theorem cl_loseBlocks (hP : Closed P) (s : State) (m : Nat) (keep : Nat × Nat → Bool) (hs : P s) : P (State.loseBlocks s m keep) := by
  unfold State.loseBlocks; try dsimp only
  with_reducible repeat' first | assumption | (apply cl_endLoad hP.toQuiet) | (apply cl_setModel hP) | (apply Quiet.put hP.toQuiet) | ((apply Quiet.mk' hP.toQuiet); first | assumption | (apply cl_endLoad hP.toQuiet) | (apply cl_setModel hP) | (apply Quiet.put hP.toQuiet) | split) | ((apply Quiet.mk' hP.toQuiet); (apply Quiet.mk' hP.toQuiet); first | assumption | (apply cl_endLoad hP.toQuiet) | (apply cl_setModel hP) | (apply Quiet.put hP.toQuiet) | split) | split | (intro _ _) | (intro _)

theorem cl_evictModel (hP : Closed P) (s : State) (m : Nat) (hs : P s) : P (State.evictModel s m) := by
  unfold State.evictModel
  with_reducible repeat' first | assumption | (apply cl_loseBlocks hP) | (apply Quiet.put hP.toQuiet) | split | (intro _ _) | (intro _)

theorem cl_storeBytes (hP : Closed P) (s : State) (x : Model) (v b off n : Nat) (hs : P s) : ExSndP P (State.storeBytes s x v b off n) := by
  unfold State.storeBytes
  with_reducible repeat' first | assumption | (apply cl_ok hP.toQuiet) | (apply cl_read hP) | (refine atExSndP ?_ (by assumption); apply cl_read hP) | (apply Quiet.put hP.toQuiet) | ((apply Quiet.mk' hP.toQuiet); first | assumption | (apply cl_ok hP.toQuiet) | (apply cl_read hP) | (refine atExSndP ?_ (by assumption); apply cl_read hP) | (apply Quiet.put hP.toQuiet) | split) | ((apply Quiet.mk' hP.toQuiet); (apply Quiet.mk' hP.toQuiet); first | assumption | (apply cl_ok hP.toQuiet) | (apply cl_read hP) | (refine atExSndP ?_ (by assumption); apply cl_read hP) | (apply Quiet.put hP.toQuiet) | split) | split | (intro _ _) | (intro _) | (apply ExSndP.ok) | (exact ExSndP.error)

theorem cl_storeBlock (hP : Closed P) (s : State) (x : Model) (v b : Nat) (hs : P s) : ExSndP P (State.storeBlock s x v b) := by
  unfold State.storeBlock
  with_reducible repeat' first | assumption | (apply cl_storeBytes hP) | (refine atExSndP ?_ (by assumption); apply cl_storeBytes hP) | (apply Quiet.put hP.toQuiet) | split | (apply ExSndP.ok) | (exact ExSndP.error)

theorem cl_writeBlock (hP : Closed P) (s : State) (n : Nat) (bs : List Byte) (hs : P s) : P (State.writeBlock s n bs) := by
  unfold State.writeBlock
  with_reducible repeat' first | assumption | (apply cl_zero hP) | (apply cl_poke hP) | (apply Quiet.put hP.toQuiet) | split

theorem cl_loadOld (hP : Closed P) (s : State) (m v : Nat) (r0 : List (Nat × Nat)) (hs : P s) : P (State.loadOld s m v r0) := by
  induction r0 generalizing s m v with
  | nil =>
    unfold State.loadOld
    with_reducible repeat' first | assumption | (apply ih) | (apply cl_storeBlock hP) | (refine atExSndP ?_ (by assumption); apply cl_storeBlock hP) | (apply cl_ok hP.toQuiet) | (apply cl_writeBlock hP) | (apply cl_putModel hP.toQuiet) | (apply Quiet.put hP.toQuiet) | ((apply Quiet.mk' hP.toQuiet); first | assumption | (apply ih) | (apply cl_storeBlock hP) | (refine atExSndP ?_ (by assumption); apply cl_storeBlock hP) | (apply cl_ok hP.toQuiet) | (apply cl_writeBlock hP) | (apply cl_putModel hP.toQuiet) | (apply Quiet.put hP.toQuiet) | split) | split | (intro _ _) | (intro _)
  | cons x l ih =>
    unfold State.loadOld
    try dsimp only
    with_reducible repeat' first | assumption | (apply ih) | (apply cl_storeBlock hP) | (refine atExSndP ?_ (by assumption); apply cl_storeBlock hP) | (apply cl_ok hP.toQuiet) | (apply cl_writeBlock hP) | (apply cl_putModel hP.toQuiet) | (apply Quiet.put hP.toQuiet) | ((apply Quiet.mk' hP.toQuiet); first | assumption | (apply ih) | (apply cl_storeBlock hP) | (refine atExSndP ?_ (by assumption); apply cl_storeBlock hP) | (apply cl_ok hP.toQuiet) | (apply cl_writeBlock hP) | (apply cl_putModel hP.toQuiet) | (apply Quiet.put hP.toQuiet) | split) | split | (intro _ _) | (intro _)

theorem cl_loadNext (hP : Quiet P) (s : State) (n m : Nat) (hs : P s) : P (State.loadNext s n m) := by
  unfold State.loadNext; try dsimp only
  with_reducible repeat' first | assumption | (apply cl_freeStream hP) | (apply cl_putStream hP) | (apply Quiet.put hP) | ((apply Quiet.mk' hP); first | assumption | (apply cl_freeStream hP) | (apply cl_putStream hP) | (apply Quiet.put hP) | split) | ((apply Quiet.mk' hP); (apply Quiet.mk' hP); first | assumption | (apply cl_freeStream hP) | (apply cl_putStream hP) | (apply Quiet.put hP) | split) | split

theorem cl_startLoader (hP : Quiet P) (s : State) (m : Nat) (hs : P s) : P (State.startLoader s m) := by
  unfold State.startLoader
  with_reducible repeat' first | assumption | (apply cl_putStream hP) | (apply cl_startTide hP) | (apply cl_loadNext hP) | (apply Quiet.put hP) | ((apply Quiet.mk' hP); first | assumption | (apply cl_putStream hP) | (apply cl_startTide hP) | (apply cl_loadNext hP) | (apply Quiet.put hP) | split) | ((apply Quiet.mk' hP); (apply Quiet.mk' hP); first | assumption | (apply cl_putStream hP) | (apply cl_startTide hP) | (apply cl_loadNext hP) | (apply Quiet.put hP) | split) | split

theorem cl_startLoaders (hP : Quiet P) (s : State) (hs : P s) : P (State.startLoaders s) := by
  unfold State.startLoaders
  with_reducible repeat' first | assumption | (apply cl_startLoader hP) | (apply Quiet.put hP) | split | (apply cl_foldl) | (intro _ _) | (intro _)

theorem cl_startLoad (hP : Closed P) (s : State) (m cls : Nat) (hs : P s) : P (State.startLoad s m cls) := by
  unfold State.startLoad; try dsimp only
  with_reducible repeat' first | assumption | (apply cl_evictModel hP) | (apply cl_loadOld hP) | (apply cl_inc hP.toQuiet) | (apply cl_setModel hP) | (apply cl_startLoader hP.toQuiet) | (apply Quiet.put hP.toQuiet) | ((apply Quiet.mk' hP.toQuiet); first | assumption | (apply cl_evictModel hP) | (apply cl_loadOld hP) | (apply cl_inc hP.toQuiet) | (apply cl_setModel hP) | (apply cl_startLoader hP.toQuiet) | (apply Quiet.put hP.toQuiet) | (apply cl_foldl) | split) | ((apply Quiet.mk' hP.toQuiet); (apply Quiet.mk' hP.toQuiet); first | assumption | (apply cl_evictModel hP) | (apply cl_loadOld hP) | (apply cl_inc hP.toQuiet) | (apply cl_setModel hP) | (apply cl_startLoader hP.toQuiet) | (apply Quiet.put hP.toQuiet) | (apply cl_foldl) | split) | split | (apply cl_foldl) | (intro _ _) | (intro _)

theorem cl_loadAgain (hP : Closed P) (s : State) (hs : P s) : P (State.loadAgain s) := by
  unfold State.loadAgain; try dsimp only
  with_reducible repeat' first | assumption | (apply cl_startLoad hP) | (apply Quiet.put hP.toQuiet) | split | (apply cl_foldl) | (intro _ _) | (intro _)

theorem cl_loadFails (hP : Closed P) (s : State) (m : Nat) (e : AccErr) (hs : P s) : P (State.loadFails s m e) := by
  unfold State.loadFails; try dsimp only
  with_reducible repeat' first | assumption | (apply cl_memError hP) | (apply cl_endJob hP) | (apply cl_loseBlocks hP) | (apply Quiet.put hP.toQuiet) | split | (apply cl_foldl) | (intro _ _) | (intro _)

theorem cl_loadOn (hP : Quiet P) (s : State) (n : Nat) (hs : P s) : P (State.loadOn s n) := by
  unfold State.loadOn; try dsimp only
  with_reducible repeat' first | assumption | (apply cl_putModel hP) | (apply cl_loadNext hP) | (apply Quiet.put hP) | ((apply Quiet.mk' hP); first | assumption | (apply cl_putModel hP) | (apply cl_loadNext hP) | (apply Quiet.put hP) | split) | ((apply Quiet.mk' hP); (apply Quiet.mk' hP); first | assumption | (apply cl_putModel hP) | (apply cl_loadNext hP) | (apply Quiet.put hP) | split) | split

theorem cl_execModelLoadDone (hP : Closed P) (model : Nat) (s : State) (hs : P s) : OutP P (execModelLoadDone model s) := by
  unfold execModelLoadDone; try dsimp only
  with_reducible repeat' first | assumption | (apply cl_ok hP.toQuiet) | (apply cl_endLoad hP.toQuiet) | (apply cl_setModel hP) | (apply Quiet.put hP.toQuiet) | ((apply Quiet.mk' hP.toQuiet); first | assumption | (apply cl_ok hP.toQuiet) | (apply cl_endLoad hP.toQuiet) | (apply cl_setModel hP) | (apply Quiet.put hP.toQuiet) | split) | ((apply Quiet.mk' hP.toQuiet); (apply Quiet.mk' hP.toQuiet); first | assumption | (apply cl_ok hP.toQuiet) | (apply cl_endLoad hP.toQuiet) | (apply cl_setModel hP) | (apply Quiet.put hP.toQuiet) | split) | split | (intro _ _) | (intro _) | (apply OutP.ok) | (apply OutP.next)

theorem cl_admissionCtl (hP : Quiet P) (s : State) (stop : Bool) (hs : P s) : P (State.admissionCtl s stop) := by
  unfold State.admissionCtl; try dsimp only
  with_reducible repeat' first | assumption | (apply cl_put hP) | (apply Quiet.put hP) | ((apply Quiet.mk' hP); first | assumption | (apply cl_put hP) | (apply Quiet.put hP) | split) | ((apply Quiet.mk' hP); (apply Quiet.mk' hP); first | assumption | (apply cl_put hP) | (apply Quiet.put hP) | split) | split | (intro _ _) | (intro _)

theorem cl_execAdmissionStop (hP : Quiet P) (s : State) (hs : P s) : OutP P (execAdmissionStop s) := by
  unfold execAdmissionStop
  with_reducible repeat' first | assumption | (apply cl_ok hP) | (apply cl_hostDo hP) | (apply cl_admissionCtl hP) | (apply Quiet.put hP) | split | (intro _ _) | (intro _) | (apply OutP.ok) | (apply OutP.next)

theorem cl_execAdmissionDrained (hP : Quiet P) (s : State) (hs : P s) : OutP P (execAdmissionDrained s) := by
  unfold execAdmissionDrained
  with_reducible repeat' first | assumption | (apply cl_ok hP) | (apply cl_put hP) | (apply Quiet.put hP) | split | (apply OutP.ok) | (apply OutP.next)

theorem cl_execAdmissionStart (hP : Quiet P) (s : State) (hs : P s) : OutP P (execAdmissionStart s) := by
  unfold execAdmissionStart
  with_reducible repeat' first | assumption | (apply cl_ok hP) | (apply cl_hostDo hP) | (apply cl_admissionCtl hP) | (apply Quiet.put hP) | split | (intro _ _) | (intro _) | (apply OutP.ok) | (apply OutP.next)

end Sys2Proof.Laws
end

