-- ==== Sys2Proof/Laws/KeepsManifest.lean ====
section
/-! SUPPORT. What the functions of Machine/Manifest.lean keep: see Laws/Closed.lean. -/

set_option linter.unusedTactic false
set_option linter.unreachableTactic false

namespace Sys2Proof.Laws

open Sys2Proof.Machine

variable {P : State → Prop}

theorem cl_manifestWords (hP : Closed P) (s : State) (r : Req) (a : Nat) (r0 : Nat) (hs : P s) : ExSndP P (State.manifestWords s r a r0) := by
  induction r0 generalizing s r a with
  | zero =>
    unfold State.manifestWords
    with_reducible repeat' first | assumption | (apply ih) | (apply cl_ok hP.toQuiet) | (apply cl_read hP) | (refine atExSndP ?_ (by assumption); apply cl_read hP) | (apply Quiet.put hP.toQuiet) | (refine atExSndP ?_ (by assumption); apply ih) | ((apply Quiet.mk' hP.toQuiet); first | assumption | (apply ih) | (apply cl_ok hP.toQuiet) | (apply cl_read hP) | (refine atExSndP ?_ (by assumption); apply cl_read hP) | (apply Quiet.put hP.toQuiet) | (refine atExSndP ?_ (by assumption); apply ih) | split) | split | (intro _ _) | (intro _) | (apply ExSndP.ok) | (exact ExSndP.error)
  | succ m ih =>
    unfold State.manifestWords
    try dsimp only
    with_reducible repeat' first | assumption | (apply ih) | (apply cl_ok hP.toQuiet) | (apply cl_read hP) | (refine atExSndP ?_ (by assumption); apply cl_read hP) | (apply Quiet.put hP.toQuiet) | (refine atExSndP ?_ (by assumption); apply ih) | ((apply Quiet.mk' hP.toQuiet); first | assumption | (apply ih) | (apply cl_ok hP.toQuiet) | (apply cl_read hP) | (refine atExSndP ?_ (by assumption); apply cl_read hP) | (apply Quiet.put hP.toQuiet) | (refine atExSndP ?_ (by assumption); apply ih) | split) | split | (intro _ _) | (intro _) | (apply ExSndP.ok) | (exact ExSndP.error)

end Sys2Proof.Laws
end

