-- ==== Sys2Proof/Laws/KeepsStream.lean ====
section
/-! SUPPORT. What the functions of Machine/Stream.lean keep: see Laws/Closed.lean. -/

set_option linter.unusedTactic false
set_option linter.unreachableTactic false

namespace Sys2Proof.Laws

open Sys2Proof.Machine

variable {P : State → Prop}

theorem cl_setStream (hP : Quiet P) (s : State) (n : Nat) (f : Stream → Stream) (hs : P s) : P (State.setStream s n f) := by
  unfold State.setStream
  with_reducible repeat' first | assumption | (apply cl_putStream hP) | (apply Quiet.put hP) | split

theorem cl_setReady (hP : Quiet P) (s : State) (k : Nat) (half : Bool) (slot : Nat) (b : Bool) (hs : P s) : P (State.setReady s k half slot b) := by
  unfold State.setReady
  with_reducible repeat' first | assumption | (apply Quiet.put hP) | ((apply Quiet.mk' hP); first | assumption | (apply Quiet.put hP) | split) | ((apply Quiet.mk' hP); (apply Quiet.mk' hP); first | assumption | (apply Quiet.put hP) | split) | split | (intro _ _) | (intro _)

theorem cl_endBounded (hP : Closed P) (s : State) (n : Nat) (hs : P s) : P (State.endBounded s n) := by
  unfold State.endBounded; try dsimp only
  with_reducible repeat' first | assumption | (apply cl_endJobOf hP) | (apply Quiet.put hP.toQuiet) | split

theorem cl_haltStream (hP : Closed P) (s : State) (n reason : Nat) (p : Pos) (from' addr : Nat) (hs : P s) : P (State.haltStream s n reason p from' addr) := by
  unfold State.haltStream; try dsimp only
  with_reducible repeat' first | assumption | (apply cl_freeTags hP.toQuiet) | (apply cl_putStream hP.toQuiet) | (apply cl_postEvent hP) | (apply cl_traceJob hP.toQuiet) | (apply cl_haltTask hP) | (apply cl_endBounded hP) | (apply Quiet.put hP.toQuiet) | ((apply Quiet.mk' hP.toQuiet); first | assumption | (apply cl_freeTags hP.toQuiet) | (apply cl_putStream hP.toQuiet) | (apply cl_postEvent hP) | (apply cl_traceJob hP.toQuiet) | (apply cl_haltTask hP) | (apply cl_endBounded hP) | (apply Quiet.put hP.toQuiet) | (apply cl_foldl) | split) | ((apply Quiet.mk' hP.toQuiet); (apply Quiet.mk' hP.toQuiet); first | assumption | (apply cl_freeTags hP.toQuiet) | (apply cl_putStream hP.toQuiet) | (apply cl_postEvent hP) | (apply cl_traceJob hP.toQuiet) | (apply cl_haltTask hP) | (apply cl_endBounded hP) | (apply Quiet.put hP.toQuiet) | (apply cl_foldl) | split) | split | (apply cl_foldl) | (intro _ _) | (intro _)

theorem cl_streamAccess (hP : Closed P) (s : State) (n : Nat) (e : AccErr) (p : Pos) (from' addr : Nat) (hs : P s) : P (State.streamAccess s n e p from' addr) := by
  unfold State.streamAccess
  with_reducible repeat' first | assumption | (apply cl_haltStream hP) | (apply cl_accessFailed hP) | (apply Quiet.put hP.toQuiet) | split

theorem cl_receiverTasks (hP : Closed P) (s : State) (r : Req) (b : Binding) (f : BindRef) (tasks : Nat) (hs : P s) : ExSndP P (State.receiverTasks s r b f tasks) := by
  unfold State.receiverTasks; try dsimp only
  with_reducible repeat' first | assumption | (apply cl_read hP) | (refine atExSndP ?_ (by assumption); apply cl_read hP) | (apply cl_ok hP.toQuiet) | (apply Quiet.put hP.toQuiet) | split | (intro _ _) | (intro _) | (apply ExSndP.ok) | (exact ExSndP.error)

theorem cl_haltStart (hP : Closed P) (s : State) (n : Nat) (j : Job) (u : UnitRun) (f : BindRef) (e : AccErr) (addr : Nat) (hs : P s) : P (State.haltStart s n j u f e addr) := by
  unfold State.haltStart; try dsimp only
  with_reducible repeat' first | assumption | (apply cl_accessFailed hP) | (apply cl_putStream hP.toQuiet) | (apply cl_startTide hP.toQuiet) | (apply cl_fresh hP.toQuiet) | (refine SndP.at ?_ (by assumption); apply cl_fresh hP.toQuiet) | (apply SndP.out; apply cl_fresh hP.toQuiet) | (apply cl_putJob hP.toQuiet) | (apply cl_postEvent hP) | (apply cl_traceJob hP.toQuiet) | (apply cl_endBounded hP) | (apply Quiet.put hP.toQuiet) | ((apply Quiet.mk' hP.toQuiet); first | assumption | (apply cl_accessFailed hP) | (apply cl_putStream hP.toQuiet) | (apply cl_startTide hP.toQuiet) | (apply cl_fresh hP.toQuiet) | (refine SndP.at ?_ (by assumption); apply cl_fresh hP.toQuiet) | (apply SndP.out; apply cl_fresh hP.toQuiet) | (apply cl_putJob hP.toQuiet) | (apply cl_postEvent hP) | (apply cl_traceJob hP.toQuiet) | (apply cl_endBounded hP) | (apply Quiet.put hP.toQuiet) | split) | ((apply Quiet.mk' hP.toQuiet); (apply Quiet.mk' hP.toQuiet); first | assumption | (apply cl_accessFailed hP) | (apply cl_putStream hP.toQuiet) | (apply cl_startTide hP.toQuiet) | (apply cl_fresh hP.toQuiet) | (refine SndP.at ?_ (by assumption); apply cl_fresh hP.toQuiet) | (apply SndP.out; apply cl_fresh hP.toQuiet) | (apply cl_putJob hP.toQuiet) | (apply cl_postEvent hP) | (apply cl_traceJob hP.toQuiet) | (apply cl_endBounded hP) | (apply Quiet.put hP.toQuiet) | split) | split

theorem cl_bindingManifest (hP : Closed P) (s : State) (r : Req) (a : Nat) (hs : P s) : ExSndP P (State.bindingManifest s r a) := by
  unfold State.bindingManifest
  with_reducible repeat' first | assumption | (apply cl_manifestWords hP) | (refine atExSndP ?_ (by assumption); apply cl_manifestWords hP) | (apply cl_ok hP.toQuiet) | (apply Quiet.put hP.toQuiet) | split | (intro _ _) | (intro _) | (apply ExSndP.ok) | (exact ExSndP.error)

theorem cl_loadStream (hP : Closed P) (s : State) (n : Nat) (j : Job) (u : UnitRun) (f : BindRef) (hs : P s) : P (State.loadStream s n j u f) := by
  unfold State.loadStream; try dsimp only
  with_reducible repeat' first | assumption | (apply cl_read hP) | (refine atExSndP ?_ (by assumption); apply cl_read hP) | (apply cl_haltStart hP) | (apply cl_ok hP.toQuiet) | (apply cl_endJob hP) | (apply cl_receiverTasks hP) | (refine atExSndP ?_ (by assumption); apply cl_receiverTasks hP) | (apply cl_bindingManifest hP) | (refine atExSndP ?_ (by assumption); apply cl_bindingManifest hP) | (apply cl_putStream hP.toQuiet) | (apply cl_putJob hP.toQuiet) | (apply Quiet.put hP.toQuiet) | ((apply Quiet.mk' hP.toQuiet); first | assumption | (apply cl_read hP) | (refine atExSndP ?_ (by assumption); apply cl_read hP) | (apply cl_haltStart hP) | (apply cl_ok hP.toQuiet) | (apply cl_endJob hP) | (apply cl_receiverTasks hP) | (refine atExSndP ?_ (by assumption); apply cl_receiverTasks hP) | (apply cl_bindingManifest hP) | (refine atExSndP ?_ (by assumption); apply cl_bindingManifest hP) | (apply cl_putStream hP.toQuiet) | (apply cl_putJob hP.toQuiet) | (apply Quiet.put hP.toQuiet) | split) | ((apply Quiet.mk' hP.toQuiet); (apply Quiet.mk' hP.toQuiet); first | assumption | (apply cl_read hP) | (refine atExSndP ?_ (by assumption); apply cl_read hP) | (apply cl_haltStart hP) | (apply cl_ok hP.toQuiet) | (apply cl_endJob hP) | (apply cl_receiverTasks hP) | (refine atExSndP ?_ (by assumption); apply cl_receiverTasks hP) | (apply cl_bindingManifest hP) | (refine atExSndP ?_ (by assumption); apply cl_bindingManifest hP) | (apply cl_putStream hP.toQuiet) | (apply cl_putJob hP.toQuiet) | (apply Quiet.put hP.toQuiet) | split) | split | (intro _ _) | (intro _)

theorem cl_execStreamStart (hP : Closed P) (stream job unit task bind : Nat) (s : State) (hs : P s) : OutP P (execStreamStart stream job unit task bind s) := by
  unfold execStreamStart
  with_reducible repeat' first | assumption | (apply cl_ok hP.toQuiet) | (apply cl_loadStream hP) | (apply Quiet.put hP.toQuiet) | ((apply Quiet.mk' hP.toQuiet); first | assumption | (apply cl_ok hP.toQuiet) | (apply cl_loadStream hP) | (apply Quiet.put hP.toQuiet) | split) | ((apply Quiet.mk' hP.toQuiet); (apply Quiet.mk' hP.toQuiet); first | assumption | (apply cl_ok hP.toQuiet) | (apply cl_loadStream hP) | (apply Quiet.put hP.toQuiet) | split) | split | (intro _ _) | (intro _) | (apply OutP.ok) | (apply OutP.next)

theorem cl_runIfReserved (hP : Quiet P) (s : State) (n : Nat) (hs : P s) : P (State.runIfReserved s n) := by
  unfold State.runIfReserved; try dsimp only
  with_reducible repeat' first | assumption | (apply cl_putStream hP) | (apply Quiet.put hP) | ((apply Quiet.mk' hP); first | assumption | (apply cl_putStream hP) | (apply Quiet.put hP) | split) | ((apply Quiet.mk' hP); (apply Quiet.mk' hP); first | assumption | (apply cl_putStream hP) | (apply Quiet.put hP) | split) | split

theorem cl_takeReservation (hP : Quiet P) (s : State) (n : Nat) (hs : P s) : P (State.takeReservation s n) := by
  unfold State.takeReservation; try dsimp only
  with_reducible repeat' first | assumption | (apply cl_putStream hP) | (apply cl_send hP) | (apply cl_runIfReserved hP) | (apply Quiet.put hP) | ((apply Quiet.mk' hP); first | assumption | (apply cl_putStream hP) | (apply cl_send hP) | (apply cl_runIfReserved hP) | (apply Quiet.put hP) | split) | ((apply Quiet.mk' hP); (apply Quiet.mk' hP); first | assumption | (apply cl_putStream hP) | (apply cl_send hP) | (apply cl_runIfReserved hP) | (apply Quiet.put hP) | split) | split

theorem cl_execReservationTake (hP : Quiet P) (stream : Nat) (s : State) (hs : P s) : OutP P (execReservationTake stream s) := by
  unfold execReservationTake
  with_reducible repeat' first | assumption | (apply cl_ok hP) | (apply cl_takeReservation hP) | (apply Quiet.put hP) | split | (apply OutP.ok) | (apply OutP.next)

theorem cl_serveRemote (hP : Quiet P) (s : State) (q : Nat) (r0 : List RemoteHold) (hs : P s) : P (State.serveRemote s q r0) := by
  induction r0 generalizing s q with
  | nil =>
    unfold State.serveRemote
    with_reducible repeat' first | assumption | (apply ih) | (apply cl_send hP) | (apply Quiet.put hP) | ((apply Quiet.mk' hP); first | assumption | (apply ih) | (apply cl_send hP) | (apply Quiet.put hP) | split) | split | (intro _ _) | (intro _)
  | cons x l ih =>
    unfold State.serveRemote
    try dsimp only
    with_reducible repeat' first | assumption | (apply ih) | (apply cl_send hP) | (apply Quiet.put hP) | ((apply Quiet.mk' hP); first | assumption | (apply ih) | (apply cl_send hP) | (apply Quiet.put hP) | split) | split | (intro _ _) | (intro _)

theorem cl_grantRemote (hP : Quiet P) (s : State) (q d n g : Nat) (hs : P s) : P (State.grantRemote s q d n g) := by
  unfold State.grantRemote; try dsimp only
  with_reducible repeat' first | assumption | (apply cl_serveRemote hP) | (apply Quiet.put hP) | ((apply Quiet.mk' hP); first | assumption | (apply cl_serveRemote hP) | (apply Quiet.put hP) | split) | ((apply Quiet.mk' hP); (apply Quiet.mk' hP); first | assumption | (apply cl_serveRemote hP) | (apply Quiet.put hP) | split) | split | (intro _ _) | (intro _)

theorem cl_takeGrant (hP : Quiet P) (s : State) (n : Nat) (hs : P s) : P (State.takeGrant s n) := by
  unfold State.takeGrant; try dsimp only
  with_reducible repeat' first | assumption | (apply cl_putStream hP) | (apply cl_runIfReserved hP) | (apply cl_send hP) | (apply Quiet.put hP) | ((apply Quiet.mk' hP); first | assumption | (apply cl_putStream hP) | (apply cl_runIfReserved hP) | (apply cl_send hP) | (apply Quiet.put hP) | split) | ((apply Quiet.mk' hP); (apply Quiet.mk' hP); first | assumption | (apply cl_putStream hP) | (apply cl_runIfReserved hP) | (apply cl_send hP) | (apply Quiet.put hP) | split) | split

theorem cl_execRemoteReservationGrant (hP : Quiet P) (quay device stream granules : Nat) (s : State) (hs : P s) : OutP P (execRemoteReservationGrant quay device stream granules s) := by
  unfold execRemoteReservationGrant
  with_reducible repeat' first | assumption | (apply cl_ok hP) | (apply cl_takeGrant hP) | (apply cl_grantRemote hP) | (apply Quiet.put hP) | split | (apply OutP.ok) | (apply OutP.next)

theorem cl_queueTransfer (hP : Quiet P) (s : State) (x : Stream) (src dst len k m : Nat) (tileEnd : Bool) (at' : Nat → Pos) (hs : P s) : SndP P (State.queueTransfer s x src dst len k m tileEnd at') := by
  unfold State.queueTransfer; try dsimp only
  with_reducible repeat' first | assumption | (apply Quiet.put hP) | ((apply Quiet.mk' hP); first | assumption | (apply Quiet.put hP) | split) | ((apply Quiet.mk' hP); (apply Quiet.mk' hP); first | assumption | (apply Quiet.put hP) | split) | split | (intro _ _) | (intro _) | (apply SndP.mk)

theorem cl_transfer (hP : Closed P) (s : State) (n src dst len k : Nat) (tileEnd out : Bool) (at' : Nat → Pos) (go : Stream → State → State) (hs : P s) (hgo : ∀ x0 x1, P x1 → P (go x0 x1)) : P (State.transfer s n src dst len k tileEnd out at' go) := by
  unfold State.transfer; try dsimp only
  with_reducible repeat' first | assumption | (apply hgo) | (apply cl_queueTransfer hP.toQuiet) | (refine SndP.at ?_ (by assumption); apply cl_queueTransfer hP.toQuiet) | (apply SndP.out; apply cl_queueTransfer hP.toQuiet) | (apply cl_putStream hP.toQuiet) | (apply cl_haltStream hP) | (apply Quiet.put hP.toQuiet) | ((apply Quiet.mk' hP.toQuiet); first | assumption | (apply cl_queueTransfer hP.toQuiet) | (refine SndP.at ?_ (by assumption); apply cl_queueTransfer hP.toQuiet) | (apply SndP.out; apply cl_queueTransfer hP.toQuiet) | (apply cl_putStream hP.toQuiet) | (apply cl_haltStream hP) | (apply Quiet.put hP.toQuiet) | split) | ((apply Quiet.mk' hP.toQuiet); (apply Quiet.mk' hP.toQuiet); first | assumption | (apply cl_queueTransfer hP.toQuiet) | (refine SndP.at ?_ (by assumption); apply cl_queueTransfer hP.toQuiet) | (apply SndP.out; apply cl_queueTransfer hP.toQuiet) | (apply cl_putStream hP.toQuiet) | (apply cl_haltStream hP) | (apply Quiet.put hP.toQuiet) | split) | split | (intro _ _) | (intro _)

theorem cl_runEmit (hP : Closed P) (s : State) (n : Nat) (tile noadv : Bool) (len : Nat) (hs : P s) : P (State.runEmit s n tile noadv len) := by
  unfold State.runEmit; try dsimp only
  with_reducible repeat' first | assumption | (apply cl_transfer hP) | (apply cl_putStream hP.toQuiet) | (apply Quiet.put hP.toQuiet) | ((apply Quiet.mk' hP.toQuiet); first | assumption | (apply cl_transfer hP) | (apply cl_putStream hP.toQuiet) | (apply Quiet.put hP.toQuiet) | split) | ((apply Quiet.mk' hP.toQuiet); (apply Quiet.mk' hP.toQuiet); first | assumption | (apply cl_transfer hP) | (apply cl_putStream hP.toQuiet) | (apply Quiet.put hP.toQuiet) | split) | split | (intro _ _) | (intro _)

theorem cl_runRow (hP : Closed P) (s : State) (n : Nat) (tile idx64 : Bool) (rowBytes pitch : Nat) (hs : P s) : SndP P (State.runRow s n tile idx64 rowBytes pitch) := by
  unfold State.runRow; try dsimp only
  with_reducible repeat' first | assumption | (apply cl_read hP) | (refine atExSndP ?_ (by assumption); apply cl_read hP) | (apply cl_streamAccess hP) | (apply cl_ok hP.toQuiet) | (apply cl_haltStream hP) | (apply cl_transfer hP) | (apply cl_putStream hP.toQuiet) | (apply Quiet.put hP.toQuiet) | ((apply Quiet.mk' hP.toQuiet); first | assumption | (apply cl_read hP) | (refine atExSndP ?_ (by assumption); apply cl_read hP) | (apply cl_streamAccess hP) | (apply cl_ok hP.toQuiet) | (apply cl_haltStream hP) | (apply cl_transfer hP) | (apply cl_putStream hP.toQuiet) | (apply Quiet.put hP.toQuiet) | split) | ((apply Quiet.mk' hP.toQuiet); (apply Quiet.mk' hP.toQuiet); first | assumption | (apply cl_read hP) | (refine atExSndP ?_ (by assumption); apply cl_read hP) | (apply cl_streamAccess hP) | (apply cl_ok hP.toQuiet) | (apply cl_haltStream hP) | (apply cl_transfer hP) | (apply cl_putStream hP.toQuiet) | (apply Quiet.put hP.toQuiet) | split) | split | (intro _ _) | (intro _) | (apply SndP.mk)

theorem cl_runRows (hP : Closed P) (s : State) (n : Nat) (tile idx64 : Bool) (rowBytes pitch : Nat) (r0 : Nat) (hs : P s) : P (State.runRows s n tile idx64 rowBytes pitch r0) := by
  induction r0 generalizing s n tile idx64 rowBytes pitch with
  | zero =>
    unfold State.runRows
    with_reducible repeat' first | assumption | (apply ih) | (apply cl_setStream hP.toQuiet) | (apply cl_runRow hP) | (refine SndP.at ?_ (by assumption); apply cl_runRow hP) | (apply SndP.out; apply cl_runRow hP) | (apply Quiet.put hP.toQuiet) | ((apply Quiet.mk' hP.toQuiet); first | assumption | (apply ih) | (apply cl_setStream hP.toQuiet) | (apply cl_runRow hP) | (refine SndP.at ?_ (by assumption); apply cl_runRow hP) | (apply SndP.out; apply cl_runRow hP) | (apply Quiet.put hP.toQuiet) | split) | split | (intro _ _) | (intro _)
  | succ m ih =>
    unfold State.runRows
    try dsimp only
    with_reducible repeat' first | assumption | (apply ih) | (apply cl_setStream hP.toQuiet) | (apply cl_runRow hP) | (refine SndP.at ?_ (by assumption); apply cl_runRow hP) | (apply SndP.out; apply cl_runRow hP) | (apply Quiet.put hP.toQuiet) | ((apply Quiet.mk' hP.toQuiet); first | assumption | (apply ih) | (apply cl_setStream hP.toQuiet) | (apply cl_runRow hP) | (refine SndP.at ?_ (by assumption); apply cl_runRow hP) | (apply SndP.out; apply cl_runRow hP) | (apply Quiet.put hP.toQuiet) | split) | split | (intro _ _) | (intro _)

theorem cl_moveCursor (hP : Closed P) (s : State) (n c : Nat) (v : Int) (hs : P s) : P (State.moveCursor s n c v) := by
  unfold State.moveCursor; try dsimp only
  with_reducible repeat' first | assumption | (apply cl_haltStream hP) | (apply cl_putStream hP.toQuiet) | (apply Quiet.put hP.toQuiet) | ((apply Quiet.mk' hP.toQuiet); first | assumption | (apply cl_haltStream hP) | (apply cl_putStream hP.toQuiet) | (apply Quiet.put hP.toQuiet) | split) | ((apply Quiet.mk' hP.toQuiet); (apply Quiet.mk' hP.toQuiet); first | assumption | (apply cl_haltStream hP) | (apply cl_putStream hP.toQuiet) | (apply Quiet.put hP.toQuiet) | split) | split

theorem cl_detach (hP : Quiet P) (s : State) (n i : Nat) (lost : Bool) (hs : P s) : P (State.detach s n i lost) := by
  unfold State.detach; try dsimp only
  with_reducible repeat' first | assumption | (apply cl_inc hP) | (apply cl_put hP) | (apply cl_freeTags hP) | (apply cl_putStream hP) | (apply cl_freeStream hP) | (apply Quiet.put hP) | ((apply Quiet.mk' hP); first | assumption | (apply cl_inc hP) | (apply cl_put hP) | (apply cl_freeTags hP) | (apply cl_putStream hP) | (apply cl_freeStream hP) | (apply Quiet.put hP) | split) | ((apply Quiet.mk' hP); (apply Quiet.mk' hP); first | assumption | (apply cl_inc hP) | (apply cl_put hP) | (apply cl_freeTags hP) | (apply cl_putStream hP) | (apply cl_freeStream hP) | (apply Quiet.put hP) | split) | split

theorem cl_detachSlow (hP : Quiet P) (s : State) (n : Nat) (hs : P s) : P (State.detachSlow s n) := by
  unfold State.detachSlow; try dsimp only
  with_reducible repeat' first | assumption | (apply cl_detach hP) | (apply Quiet.put hP) | split | (apply cl_foldl) | (intro _ _) | (intro _)

theorem cl_execReceiverDetach (hP : Quiet P) (stream receiver : Nat) (s : State) (hs : P s) : OutP P (execReceiverDetach stream receiver s) := by
  unfold execReceiverDetach; try dsimp only
  with_reducible repeat' first | assumption | (apply cl_ok hP) | (apply cl_detach hP) | (apply Quiet.put hP) | split | (apply OutP.ok) | (apply OutP.next)

theorem cl_execEmit (hP : Closed P) (stream : Nat) (s : State) (hs : P s) : OutP P (execEmit stream s) := by
  unfold execEmit
  with_reducible repeat' first | assumption | (apply cl_ok hP.toQuiet) | (apply cl_runEmit hP) | (apply cl_detachSlow hP.toQuiet) | (apply Quiet.put hP.toQuiet) | split | (apply OutP.ok) | (apply OutP.next)

theorem cl_execGather (hP : Closed P) (stream : Nat) (s : State) (hs : P s) : OutP P (execGather stream s) := by
  unfold execGather
  with_reducible repeat' first | assumption | (apply cl_ok hP.toQuiet) | (apply cl_runRows hP) | (apply cl_detachSlow hP.toQuiet) | (apply Quiet.put hP.toQuiet) | split | (apply OutP.ok) | (apply OutP.next)

theorem cl_execLoop (hP : Quiet P) (stream : Nat) (s : State) (hs : P s) : OutP P (execLoop stream s) := by
  unfold execLoop
  with_reducible repeat' first | assumption | (apply cl_ok hP) | (apply cl_setStream hP) | (apply Quiet.put hP) | ((apply Quiet.mk' hP); first | assumption | (apply cl_ok hP) | (apply cl_setStream hP) | (apply Quiet.put hP) | split) | ((apply Quiet.mk' hP); (apply Quiet.mk' hP); first | assumption | (apply cl_ok hP) | (apply cl_setStream hP) | (apply Quiet.put hP) | split) | split | (intro _ _) | (intro _) | (apply OutP.ok) | (apply OutP.next)

theorem cl_execStride (hP : Closed P) (stream : Nat) (s : State) (hs : P s) : OutP P (execStride stream s) := by
  unfold execStride
  with_reducible repeat' first | assumption | (apply cl_ok hP.toQuiet) | (apply cl_moveCursor hP) | (apply Quiet.put hP.toQuiet) | split | (apply OutP.ok) | (apply OutP.next)

theorem cl_execAlign (hP : Closed P) (stream : Nat) (s : State) (hs : P s) : OutP P (execAlign stream s) := by
  unfold execAlign
  with_reducible repeat' first | assumption | (apply cl_ok hP.toQuiet) | (apply cl_moveCursor hP) | (apply Quiet.put hP.toQuiet) | split | (apply OutP.ok) | (apply OutP.next)

theorem cl_waitSlotted (hP : Quiet P) (s : State) (n : Nat) (w : StreamWait) (met : Bool) (hs : P s) : P (State.waitSlotted s n w met) := by
  unfold State.waitSlotted
  with_reducible repeat' first | assumption | (apply cl_setStream hP) | (apply Quiet.put hP) | ((apply Quiet.mk' hP); first | assumption | (apply cl_setStream hP) | (apply Quiet.put hP) | split) | ((apply Quiet.mk' hP); (apply Quiet.mk' hP); first | assumption | (apply cl_setStream hP) | (apply Quiet.put hP) | split) | split | (intro _ _) | (intro _)

theorem cl_execWaitslotSlot (hP : Quiet P) (stream : Nat) (s : State) (hs : P s) : OutP P (execWaitslotSlot stream s) := by
  unfold execWaitslotSlot
  with_reducible repeat' first | assumption | (apply cl_ok hP) | (apply cl_waitSlotted hP) | (apply Quiet.put hP) | split | (apply OutP.ok) | (apply OutP.next)

theorem cl_barrierMet (hP : Closed P) (s : State) (x : Stream) (first count addr : Nat) (hs : P s) : ExSndP P (State.barrierMet s x first count addr) := by
  unfold State.barrierMet
  with_reducible repeat' first | assumption | (apply cl_read hP) | (refine atExSndP ?_ (by assumption); apply cl_read hP) | (apply cl_ok hP.toQuiet) | (apply Quiet.put hP.toQuiet) | split | (apply ExSndP.ok) | (exact ExSndP.error)

theorem cl_waitBarrier (hP : Closed P) (s : State) (n first count addr : Nat) (hs : P s) : P (State.waitBarrier s n first count addr) := by
  unfold State.waitBarrier
  with_reducible repeat' first | assumption | (apply cl_barrierMet hP) | (refine atExSndP ?_ (by assumption); apply cl_barrierMet hP) | (apply cl_ok hP.toQuiet) | (apply cl_waitSlotted hP.toQuiet) | (apply cl_streamAccess hP) | (apply Quiet.put hP.toQuiet) | split

theorem cl_execWaitslotBarrier (hP : Closed P) (stream : Nat) (s : State) (hs : P s) : OutP P (execWaitslotBarrier stream s) := by
  unfold execWaitslotBarrier
  with_reducible repeat' first | assumption | (apply cl_ok hP.toQuiet) | (apply cl_waitBarrier hP) | (apply Quiet.put hP.toQuiet) | split | (apply OutP.ok) | (apply OutP.next)

theorem cl_execWaitslotReread (hP : Closed P) (stream : Nat) (s : State) (hs : P s) : OutP P (execWaitslotReread stream s) := by
  unfold execWaitslotReread
  with_reducible repeat' first | assumption | (apply cl_ok hP.toQuiet) | (apply cl_waitBarrier hP) | (apply Quiet.put hP.toQuiet) | split | (apply OutP.ok) | (apply OutP.next)

theorem cl_barrierWrite (hP : Closed P) (s : State) (r : Req) (v : Nat) (addr mask : Nat) (hs : P s) : ExP P (State.barrierWrite s r v addr mask) := by
  unfold State.barrierWrite
  with_reducible repeat' first | assumption | (apply cl_write hP) | (refine atExP ?_ (by assumption); apply cl_write hP) | (apply Quiet.put hP.toQuiet) | split | (apply ExP.ok) | (exact ExP.error)

theorem cl_execSignal (hP : Closed P) (stream : Nat) (s : State) (hs : P s) : OutP P (execSignal stream s) := by
  unfold execSignal; try dsimp only
  with_reducible repeat' first | assumption | (apply cl_barrierWrite hP) | (refine atExP ?_ (by assumption); apply cl_barrierWrite hP) | (apply cl_ok hP.toQuiet) | (apply cl_setStream hP.toQuiet) | (apply cl_streamAccess hP) | (apply Quiet.put hP.toQuiet) | ((apply Quiet.mk' hP.toQuiet); first | assumption | (apply cl_barrierWrite hP) | (refine atExP ?_ (by assumption); apply cl_barrierWrite hP) | (apply cl_ok hP.toQuiet) | (apply cl_setStream hP.toQuiet) | (apply cl_streamAccess hP) | (apply Quiet.put hP.toQuiet) | split) | ((apply Quiet.mk' hP.toQuiet); (apply Quiet.mk' hP.toQuiet); first | assumption | (apply cl_barrierWrite hP) | (refine atExP ?_ (by assumption); apply cl_barrierWrite hP) | (apply cl_ok hP.toQuiet) | (apply cl_setStream hP.toQuiet) | (apply cl_streamAccess hP) | (apply Quiet.put hP.toQuiet) | split) | split | (intro _ _) | (intro _) | (apply OutP.ok) | (apply OutP.next)

theorem cl_execManifestEnd (hP : Quiet P) (stream : Nat) (s : State) (hs : P s) : OutP P (execManifestEnd stream s) := by
  unfold execManifestEnd
  with_reducible repeat' first | assumption | (apply cl_ok hP) | (apply cl_setStream hP) | (apply Quiet.put hP) | ((apply Quiet.mk' hP); first | assumption | (apply cl_ok hP) | (apply cl_setStream hP) | (apply Quiet.put hP) | split) | ((apply Quiet.mk' hP); (apply Quiet.mk' hP); first | assumption | (apply cl_ok hP) | (apply cl_setStream hP) | (apply Quiet.put hP) | split) | split | (intro _ _) | (intro _) | (apply OutP.ok) | (apply OutP.next)

theorem cl_grantTag (hP : Quiet P) (s : State) (v now : Nat) (hs : P s) : P (State.grantTag s v now) := by
  unfold State.grantTag; try dsimp only
  with_reducible repeat' first | assumption | (apply cl_put hP) | (apply cl_setStream hP) | (apply cl_inc hP) | (apply cl_send hP) | (apply Quiet.put hP) | ((apply Quiet.mk' hP); first | assumption | (apply cl_put hP) | (apply cl_setStream hP) | (apply cl_inc hP) | (apply cl_send hP) | (apply Quiet.put hP) | split) | ((apply Quiet.mk' hP); (apply Quiet.mk' hP); first | assumption | (apply cl_put hP) | (apply cl_setStream hP) | (apply cl_inc hP) | (apply cl_send hP) | (apply Quiet.put hP) | split) | split | (intro _ _) | (intro _)

theorem cl_execTagGrant (hP : Quiet P) (turn : TagTurn) (s : State) (hs : P s) : OutP P (execTagGrant turn s) := by
  unfold execTagGrant
  with_reducible repeat' first | assumption | (apply cl_ok hP) | (apply cl_grantTag hP) | (apply Quiet.put hP) | split | (apply OutP.ok) | (apply OutP.next)

theorem cl_arbitrate (hP : Quiet P) (s : State) (fs : List (Nat × Bool × Request)) (q : Nat) (cross : Bool) (r : Request) (hs : P s) : OptP P (State.arbitrate s fs q cross r) := by
  unfold State.arbitrate; try dsimp only
  with_reducible repeat' first | assumption | (apply Quiet.put hP) | ((apply Quiet.mk' hP); first | assumption | (apply Quiet.put hP) | split) | ((apply Quiet.mk' hP); (apply Quiet.mk' hP); first | assumption | (apply Quiet.put hP) | split) | split | (intro _ _) | (intro _) | (apply OptP.some) | (exact OptP.none) | (apply OptP.map; intro _)

theorem cl_shortWrites (hP : Quiet P) (s : State) (n : Nat) (x : Stream) (u : SUnit) (hs : P s) : P (State.shortWrites s n x u) := by
  unfold State.shortWrites; try dsimp only
  with_reducible repeat' first | assumption | (apply cl_inc hP) | (apply Quiet.put hP) | split | (intro _ _) | (intro _)

theorem cl_sendLanded (hP : Quiet P) (s : State) (n : Nat) (u : SUnit) (hs : P s) : P (State.sendLanded s n u) := by
  unfold State.sendLanded; try dsimp only
  with_reducible repeat' first | assumption | (apply cl_landed hP) | (apply cl_send hP) | (apply cl_shortWrites hP) | (apply Quiet.put hP) | split | (apply cl_foldl) | (intro _ _) | (intro _)

theorem cl_landed (hP : Quiet P) (s : State) (n : Nat) (u : SUnit) (bs : List Byte) (hs : P s) : P (State.landed s n u bs) := by
  unfold State.landed; try dsimp only
  with_reducible repeat' first | assumption | (apply cl_freeTags hP) | (apply cl_setStream hP) | (apply cl_sendLanded hP) | (apply Quiet.put hP) | ((apply Quiet.mk' hP); first | assumption | (apply cl_freeTags hP) | (apply cl_setStream hP) | (apply cl_sendLanded hP) | (apply Quiet.put hP) | split) | ((apply Quiet.mk' hP); (apply Quiet.mk' hP); first | assumption | (apply cl_freeTags hP) | (apply cl_setStream hP) | (apply cl_sendLanded hP) | (apply Quiet.put hP) | split) | split | (intro _ _) | (intro _)

theorem cl_landUnit (hP : Closed P) (s : State) (n : Nat) (x : Stream) (u : SUnit) (data : List Byte) (hs : P s) : P (State.landUnit s n x u data) := by
  unfold State.landUnit; try dsimp only
  with_reducible repeat' first | assumption | (apply cl_landed hP.toQuiet) | (apply cl_storeBytes hP) | (refine atExSndP ?_ (by assumption); apply cl_storeBytes hP) | (apply cl_ok hP.toQuiet) | (apply cl_loadFails hP) | (apply cl_read hP) | (refine atExSndP ?_ (by assumption); apply cl_read hP) | (apply cl_freeTags hP.toQuiet) | (apply cl_setStream hP.toQuiet) | (apply cl_accessFailed hP) | (apply Quiet.put hP.toQuiet) | ((apply Quiet.mk' hP.toQuiet); first | assumption | (apply cl_landed hP.toQuiet) | (apply cl_storeBytes hP) | (refine atExSndP ?_ (by assumption); apply cl_storeBytes hP) | (apply cl_ok hP.toQuiet) | (apply cl_loadFails hP) | (apply cl_read hP) | (refine atExSndP ?_ (by assumption); apply cl_read hP) | (apply cl_freeTags hP.toQuiet) | (apply cl_setStream hP.toQuiet) | (apply cl_accessFailed hP) | (apply Quiet.put hP.toQuiet) | split) | ((apply Quiet.mk' hP.toQuiet); (apply Quiet.mk' hP.toQuiet); first | assumption | (apply cl_landed hP.toQuiet) | (apply cl_storeBytes hP) | (refine atExSndP ?_ (by assumption); apply cl_storeBytes hP) | (apply cl_ok hP.toQuiet) | (apply cl_loadFails hP) | (apply cl_read hP) | (refine atExSndP ?_ (by assumption); apply cl_read hP) | (apply cl_freeTags hP.toQuiet) | (apply cl_setStream hP.toQuiet) | (apply cl_accessFailed hP) | (apply Quiet.put hP.toQuiet) | split) | split | (intro _ _) | (intro _)

theorem cl_serveUnit (hP : Quiet P) (s : State) (n : Nat) (x : Stream) (u : SUnit) (hs : P s) : OptP P (State.serveUnit s n x u) := by
  unfold State.serveUnit
  with_reducible repeat' first | assumption | (apply cl_arbitrate hP) | (refine atOptP ?_ (by assumption); apply cl_arbitrate hP) | (apply Quiet.put hP) | split | (apply OptP.some) | (exact OptP.none) | (apply OptP.map; intro _)

theorem cl_execReadDataLands (hP : Closed P) (stream unit : Nat) (data : List Byte) (s : State) (hs : P s) : OutP P (execReadDataLands stream unit data s) := by
  unfold execReadDataLands; try dsimp only
  with_reducible repeat' first | assumption | (apply cl_serveUnit hP.toQuiet) | (refine atOptP ?_ (by assumption); apply cl_serveUnit hP.toQuiet) | (apply cl_ok hP.toQuiet) | (apply cl_landUnit hP) | (apply cl_strayFrom hP.toQuiet) | (apply Quiet.put hP.toQuiet) | split | (apply OutP.ok) | (apply OutP.next)

theorem cl_tagBlocks (hP : Quiet P) (s : State) (a n tile : Nat) (hs : P s) : P (State.tagBlocks s a n tile) := by
  unfold State.tagBlocks
  with_reducible repeat' first | assumption | (apply Quiet.put hP) | ((apply Quiet.mk' hP); first | assumption | (apply Quiet.put hP) | (apply cl_foldl) | split) | ((apply Quiet.mk' hP); (apply Quiet.mk' hP); first | assumption | (apply Quiet.put hP) | (apply cl_foldl) | split) | split | (apply cl_foldl) | (intro _ _) | (intro _)

theorem cl_noteOrigin (hP : Quiet P) (s : State) (x : Stream) (a n tile : Nat) (hs : P s) : P (State.noteOrigin s x a n tile) := by
  unfold State.noteOrigin; try dsimp only
  with_reducible repeat' first | assumption | (apply cl_put hP) | (apply Quiet.put hP) | ((apply Quiet.mk' hP); first | assumption | (apply cl_put hP) | (apply Quiet.put hP) | (apply cl_foldl) | split) | ((apply Quiet.mk' hP); (apply Quiet.mk' hP); first | assumption | (apply cl_put hP) | (apply Quiet.put hP) | (apply cl_foldl) | split) | split | (apply cl_foldl) | (intro _ _) | (intro _)

theorem cl_writeUnit (hP : Closed P) (s : State) (x : Stream) (r : Rcv) (u : SUnit) (hs : P s) : ExP P (State.writeUnit s x r u) := by
  unfold State.writeUnit; try dsimp only
  with_reducible repeat' first | assumption | (apply cl_ok hP.toQuiet) | (apply cl_writeLoc hP) | (apply cl_tagBlocks hP.toQuiet) | (apply cl_noteOrigin hP.toQuiet) | (apply cl_write hP) | (refine atExP ?_ (by assumption); apply cl_write hP) | (apply Quiet.put hP.toQuiet) | split | (apply ExP.ok) | (exact ExP.error)

theorem cl_writeTile (hP : Closed P) (s : State) (n i : Nat) (r0 : List SUnit) (hs : P s) : P (State.writeTile s n i r0) := by
  induction r0 generalizing s n i with
  | nil =>
    unfold State.writeTile
    with_reducible repeat' first | assumption | (apply ih) | (apply cl_landed hP.toQuiet) | (apply cl_writeUnit hP) | (refine atExP ?_ (by assumption); apply cl_writeUnit hP) | (apply cl_memError hP) | (apply cl_ok hP.toQuiet) | (apply cl_shortWrites hP.toQuiet) | (apply cl_putStream hP.toQuiet) | (apply Quiet.put hP.toQuiet) | ((apply Quiet.mk' hP.toQuiet); first | assumption | (apply ih) | (apply cl_landed hP.toQuiet) | (apply cl_writeUnit hP) | (refine atExP ?_ (by assumption); apply cl_writeUnit hP) | (apply cl_memError hP) | (apply cl_ok hP.toQuiet) | (apply cl_shortWrites hP.toQuiet) | (apply cl_putStream hP.toQuiet) | (apply Quiet.put hP.toQuiet) | split) | split | (intro _ _) | (intro _)
  | cons x l ih =>
    unfold State.writeTile
    try dsimp only
    with_reducible repeat' first | assumption | (apply ih) | (apply cl_landed hP.toQuiet) | (apply cl_writeUnit hP) | (refine atExP ?_ (by assumption); apply cl_writeUnit hP) | (apply cl_memError hP) | (apply cl_ok hP.toQuiet) | (apply cl_shortWrites hP.toQuiet) | (apply cl_putStream hP.toQuiet) | (apply Quiet.put hP.toQuiet) | ((apply Quiet.mk' hP.toQuiet); first | assumption | (apply ih) | (apply cl_landed hP.toQuiet) | (apply cl_writeUnit hP) | (refine atExP ?_ (by assumption); apply cl_writeUnit hP) | (apply cl_memError hP) | (apply cl_ok hP.toQuiet) | (apply cl_shortWrites hP.toQuiet) | (apply cl_putStream hP.toQuiet) | (apply Quiet.put hP.toQuiet) | split) | split | (intro _ _) | (intro _)

theorem cl_execTileAccept (hP : Closed P) (stream receiver : Nat) (s : State) (hs : P s) : OutP P (execTileAccept stream receiver s) := by
  unfold execTileAccept; try dsimp only
  with_reducible repeat' first | assumption | (apply cl_ok hP.toQuiet) | (apply cl_writeTile hP) | (apply cl_detachSlow hP.toQuiet) | (apply cl_endBounded hP) | (apply cl_loadOn hP.toQuiet) | (apply Quiet.put hP.toQuiet) | split | (intro _ _) | (intro _) | (apply OutP.ok) | (apply OutP.next)

theorem cl_rouse (hP : Quiet P) (s : State) (k c : Nat) (hs : P s) : P (State.rouse s k c) := by
  unfold State.rouse; try dsimp only
  with_reducible repeat' first | assumption | (apply cl_putCtx hP) | (apply Quiet.put hP) | ((apply Quiet.mk' hP); first | assumption | (apply cl_putCtx hP) | (apply Quiet.put hP) | split) | ((apply Quiet.mk' hP); (apply Quiet.mk' hP); first | assumption | (apply cl_putCtx hP) | (apply Quiet.put hP) | split) | split | (intro _ _) | (intro _)

theorem cl_makeReady (hP : Quiet P) (s : State) (n i slot : Nat) (hs : P s) : P (State.makeReady s n i slot) := by
  unfold State.makeReady; try dsimp only
  with_reducible repeat' first | assumption | (apply cl_putStream hP) | (apply cl_setReady hP) | (apply cl_rouse hP) | (apply Quiet.put hP) | ((apply Quiet.mk' hP); first | assumption | (apply cl_putStream hP) | (apply cl_setReady hP) | (apply cl_rouse hP) | (apply Quiet.put hP) | split) | ((apply Quiet.mk' hP); (apply Quiet.mk' hP); first | assumption | (apply cl_putStream hP) | (apply cl_setReady hP) | (apply cl_rouse hP) | (apply Quiet.put hP) | split) | split | (intro _ _) | (intro _)

theorem cl_execReadyBitSet (hP : Quiet P) (stream receiver slot : Nat) (s : State) (hs : P s) : OutP P (execReadyBitSet stream receiver slot s) := by
  unfold execReadyBitSet; try dsimp only
  with_reducible repeat' first | assumption | (apply cl_ok hP) | (apply cl_makeReady hP) | (apply Quiet.put hP) | split | (apply OutP.ok) | (apply OutP.next)

theorem cl_readyAll (hP : Quiet P) (s : State) (n : Nat) (hs : P s) : P (State.readyAll s n) := by
  unfold State.readyAll
  with_reducible repeat' first | assumption | (apply cl_makeReady hP) | (apply Quiet.put hP) | split | (apply cl_foldl) | (intro _ _) | (intro _)

theorem cl_execStreamEnd (hP : Quiet P) (stream : Nat) (s : State) (hs : P s) : OutP P (execStreamEnd stream s) := by
  unfold execStreamEnd; try dsimp only
  with_reducible repeat' first | assumption | (apply cl_ok hP) | (apply cl_readyAll hP) | (apply cl_freeStream hP) | (apply Quiet.put hP) | split | (apply OutP.ok) | (apply OutP.next)

end Sys2Proof.Laws
end

