-- ==== Sys2Proof/Laws/KeepsMulticast.lean ====
section
/-! SUPPORT. What the functions of Machine/Multicast.lean keep: see Laws/Closed.lean. -/

set_option linter.unusedTactic false
set_option linter.unreachableTactic false

namespace Sys2Proof.Laws

open Sys2Proof.Machine

variable {P : State → Prop}

theorem cl_startCatchUp (hP : Closed P) (s : State) (n : Nat) (c : CatchUp) (hs : P s) : P (State.startCatchUp s n c) := by
  unfold State.startCatchUp
  with_reducible repeat' first | assumption | (apply cl_putStream hP.toQuiet) | (apply cl_startTide hP.toQuiet) | (apply cl_loadStream hP) | (apply Quiet.put hP.toQuiet) | ((apply Quiet.mk' hP.toQuiet); first | assumption | (apply cl_putStream hP.toQuiet) | (apply cl_startTide hP.toQuiet) | (apply cl_loadStream hP) | (apply Quiet.put hP.toQuiet) | split) | ((apply Quiet.mk' hP.toQuiet); (apply Quiet.mk' hP.toQuiet); first | assumption | (apply cl_putStream hP.toQuiet) | (apply cl_startTide hP.toQuiet) | (apply cl_loadStream hP) | (apply Quiet.put hP.toQuiet) | split) | split | (intro _ _) | (intro _)

theorem cl_execCatchupStreamStart (hP : Closed P) (stevedore : Nat) (s : State) (hs : P s) : OutP P (execCatchupStreamStart stevedore s) := by
  unfold execCatchupStreamStart; try dsimp only
  with_reducible repeat' first | assumption | (apply cl_ok hP.toQuiet) | (apply cl_startCatchUp hP) | (apply Quiet.put hP.toQuiet) | ((apply Quiet.mk' hP.toQuiet); first | assumption | (apply cl_ok hP.toQuiet) | (apply cl_startCatchUp hP) | (apply Quiet.put hP.toQuiet) | split) | ((apply Quiet.mk' hP.toQuiet); (apply Quiet.mk' hP.toQuiet); first | assumption | (apply cl_ok hP.toQuiet) | (apply cl_startCatchUp hP) | (apply Quiet.put hP.toQuiet) | split) | split | (intro _ _) | (intro _) | (apply OutP.ok) | (apply OutP.next)

theorem cl_detachTask (hP : Quiet P) (s : State) (job unit task : Nat) (hs : P s) : P (State.detachTask s job unit task) := by
  unfold State.detachTask; try dsimp only
  with_reducible repeat' first | assumption | (apply cl_detach hP) | (apply Quiet.put hP) | ((apply Quiet.mk' hP); first | assumption | (apply cl_detach hP) | (apply Quiet.put hP) | (apply cl_foldl) | split) | ((apply Quiet.mk' hP); (apply Quiet.mk' hP); first | assumption | (apply cl_detach hP) | (apply Quiet.put hP) | (apply cl_foldl) | split) | split | (apply cl_foldl) | (intro _ _) | (intro _)

theorem cl_restartStreams (hP : Quiet P) (s : State) (job unit task : Nat) (tiles : Tiles) (unplaced : Bool) (hs : P s) : P (State.restartStreams s job unit task tiles unplaced) := by
  unfold State.restartStreams; try dsimp only
  with_reducible repeat' first | assumption | (apply cl_detachTask hP) | (apply cl_freeStream hP) | (apply cl_putJob hP) | (apply Quiet.put hP) | ((apply Quiet.mk' hP); first | assumption | (apply cl_detachTask hP) | (apply cl_freeStream hP) | (apply cl_putJob hP) | (apply Quiet.put hP) | (apply cl_foldl) | split) | ((apply Quiet.mk' hP); (apply Quiet.mk' hP); first | assumption | (apply cl_detachTask hP) | (apply cl_freeStream hP) | (apply cl_putJob hP) | (apply Quiet.put hP) | (apply cl_foldl) | split) | split | (apply cl_foldl) | (intro _ _) | (intro _)

theorem cl_placeCatchUps (hP : Quiet P) (s : State) (job unit task : Nat) (hs : P s) : P (State.placeCatchUps s job unit task) := by
  unfold State.placeCatchUps
  with_reducible repeat' first | assumption | (apply Quiet.put hP) | ((apply Quiet.mk' hP); first | assumption | (apply Quiet.put hP) | split) | ((apply Quiet.mk' hP); (apply Quiet.mk' hP); first | assumption | (apply Quiet.put hP) | split) | split | (intro _ _) | (intro _)

theorem cl_execStreamFault (hP : Closed P) (stream unit reason : Nat) (s : State) (hs : P s) : OutP P (execStreamFault stream unit reason s) := by
  unfold execStreamFault; try dsimp only
  with_reducible repeat' first | assumption | (apply cl_ok hP.toQuiet) | (apply cl_haltStream hP) | (apply Quiet.put hP.toQuiet) | split | (apply OutP.ok) | (apply OutP.next)

theorem cl_rouseFed (hP : Quiet P) (s : State) (x : Stream) (hs : P s) : P (State.rouseFed s x) := by
  unfold State.rouseFed; try dsimp only
  with_reducible repeat' first | assumption | (apply cl_putCtx hP) | (apply Quiet.put hP) | ((apply Quiet.mk' hP); first | assumption | (apply cl_putCtx hP) | (apply Quiet.put hP) | (apply cl_foldl) | split) | ((apply Quiet.mk' hP); (apply Quiet.mk' hP); first | assumption | (apply cl_putCtx hP) | (apply Quiet.put hP) | (apply cl_foldl) | split) | split | (apply cl_foldl) | (intro _ _) | (intro _)

theorem cl_reload (hP : Closed P) (s : State) (n : Nat) (hs : P s) : P (State.reload s n) := by
  unfold State.reload; try dsimp only
  with_reducible repeat' first | assumption | (apply cl_freeStream hP.toQuiet) | (apply cl_putJob hP.toQuiet) | (apply cl_loadStream hP) | (apply Quiet.put hP.toQuiet) | ((apply Quiet.mk' hP.toQuiet); first | assumption | (apply cl_freeStream hP.toQuiet) | (apply cl_putJob hP.toQuiet) | (apply cl_loadStream hP) | (apply Quiet.put hP.toQuiet) | split) | ((apply Quiet.mk' hP.toQuiet); (apply Quiet.mk' hP.toQuiet); first | assumption | (apply cl_freeStream hP.toQuiet) | (apply cl_putJob hP.toQuiet) | (apply cl_loadStream hP) | (apply Quiet.put hP.toQuiet) | split) | split | (intro _ _) | (intro _)

theorem cl_resumeCopy (hP : Quiet P) (s : State) (n : Nat) (hs : P s) : P (State.resumeCopy s n) := by
  unfold State.resumeCopy; try dsimp only
  with_reducible repeat' first | assumption | (apply cl_freeStream hP) | (apply Quiet.put hP) | ((apply Quiet.mk' hP); first | assumption | (apply cl_freeStream hP) | (apply Quiet.put hP) | split) | ((apply Quiet.mk' hP); (apply Quiet.mk' hP); first | assumption | (apply cl_freeStream hP) | (apply Quiet.put hP) | split) | split | (intro _ _) | (intro _)

theorem cl_resumeStream (hP : Closed P) (s : State) (word : Nat) (hs : P s) : P (State.resumeStream s word) := by
  unfold State.resumeStream; try dsimp only
  with_reducible repeat' first | assumption | (apply cl_fresh hP.toQuiet) | (refine SndP.at ?_ (by assumption); apply cl_fresh hP.toQuiet) | (apply SndP.out; apply cl_fresh hP.toQuiet) | (apply cl_reload hP) | (apply cl_resumeCopy hP.toQuiet) | (apply cl_putStream hP.toQuiet) | (apply cl_rouseFed hP.toQuiet) | (apply cl_inc hP.toQuiet) | (apply Quiet.put hP.toQuiet) | ((apply Quiet.mk' hP.toQuiet); first | assumption | (apply cl_fresh hP.toQuiet) | (refine SndP.at ?_ (by assumption); apply cl_fresh hP.toQuiet) | (apply SndP.out; apply cl_fresh hP.toQuiet) | (apply cl_reload hP) | (apply cl_resumeCopy hP.toQuiet) | (apply cl_putStream hP.toQuiet) | (apply cl_rouseFed hP.toQuiet) | (apply cl_inc hP.toQuiet) | (apply Quiet.put hP.toQuiet) | split) | ((apply Quiet.mk' hP.toQuiet); (apply Quiet.mk' hP.toQuiet); first | assumption | (apply cl_fresh hP.toQuiet) | (refine SndP.at ?_ (by assumption); apply cl_fresh hP.toQuiet) | (apply SndP.out; apply cl_fresh hP.toQuiet) | (apply cl_reload hP) | (apply cl_resumeCopy hP.toQuiet) | (apply cl_putStream hP.toQuiet) | (apply cl_rouseFed hP.toQuiet) | (apply cl_inc hP.toQuiet) | (apply Quiet.put hP.toQuiet) | split) | split

theorem cl_rewind (hP : Quiet P) (s : State) (n : Nat) (hs : P s) : P (State.rewind s n) := by
  unfold State.rewind; try dsimp only
  with_reducible repeat' first | assumption | (apply cl_freeTags hP) | (apply cl_send hP) | (apply cl_putStream hP) | (apply Quiet.put hP) | ((apply Quiet.mk' hP); first | assumption | (apply cl_freeTags hP) | (apply cl_send hP) | (apply cl_putStream hP) | (apply Quiet.put hP) | split) | ((apply Quiet.mk' hP); (apply Quiet.mk' hP); first | assumption | (apply cl_freeTags hP) | (apply cl_send hP) | (apply cl_putStream hP) | (apply Quiet.put hP) | split) | split | (intro _ _) | (intro _)

theorem cl_abortStream (hP : Closed P) (s : State) (n : Nat) (hs : P s) : P (State.abortStream s n) := by
  unfold State.abortStream; try dsimp only
  with_reducible repeat' first | assumption | (apply cl_rewind hP.toQuiet) | (apply cl_inc hP.toQuiet) | (apply cl_putStream hP.toQuiet) | (apply cl_freezeStream hP) | (apply Quiet.put hP.toQuiet) | ((apply Quiet.mk' hP.toQuiet); first | assumption | (apply cl_rewind hP.toQuiet) | (apply cl_inc hP.toQuiet) | (apply cl_putStream hP.toQuiet) | (apply cl_freezeStream hP) | (apply Quiet.put hP.toQuiet) | split) | ((apply Quiet.mk' hP.toQuiet); (apply Quiet.mk' hP.toQuiet); first | assumption | (apply cl_rewind hP.toQuiet) | (apply cl_inc hP.toQuiet) | (apply cl_putStream hP.toQuiet) | (apply cl_freezeStream hP) | (apply Quiet.put hP.toQuiet) | split) | split

theorem cl_probe (hP : Closed P) (fuel : Nat) (s : State) (n : Nat) (chain : List (Nat × Nat × Nat)) (hs : P s) : P (State.probe fuel s n chain) := by
  induction fuel generalizing s n chain with
  | zero =>
    unfold State.probe
    with_reducible repeat' first | assumption | (apply cl_abortStream hP) | (apply cl_send hP.toQuiet) | split | (apply cl_foldl) | (intro _ _) | (intro _)
  | succ k ih =>
    unfold State.probe; try dsimp only
    with_reducible repeat' first | assumption | (apply ih) | (apply cl_abortStream hP) | (apply cl_send hP.toQuiet) | split | (apply cl_foldl) | (intro _ _) | (intro _)

theorem cl_takeProbe (hP : Closed P) (s : State) (n : Nat) (chain : List (Nat × Nat × Nat)) (hs : P s) : P (State.takeProbe s n chain) := by
  unfold State.takeProbe
  with_reducible repeat' first | assumption | (apply cl_probe hP) | (apply cl_send hP.toQuiet) | (apply Quiet.put hP.toQuiet) | split | (apply cl_foldl) | (intro _ _) | (intro _)

theorem cl_execMutualWaitProbe (hP : Closed P) (stream : Nat) (chain : List (Nat × Nat × Nat)) (s : State) (hs : P s) : OutP P (execMutualWaitProbe stream chain s) := by
  unfold execMutualWaitProbe
  with_reducible repeat' first | assumption | (apply cl_ok hP.toQuiet) | (apply cl_takeProbe hP) | (apply Quiet.put hP.toQuiet) | split | (apply OutP.ok) | (apply OutP.next)

theorem cl_sendProbes (hP : Closed P) (s : State) (hs : P s) : P (State.sendProbes s) := by
  unfold State.sendProbes
  with_reducible repeat' first | assumption | (apply cl_probe hP) | (apply Quiet.put hP.toQuiet) | split | (apply cl_foldl) | (intro _ _) | (intro _)

end Sys2Proof.Laws
end

