-- ==== Sys2Proof/Laws/KeepsKiln.lean ====
section
/-! SUPPORT. What the functions of Machine/Kiln.lean keep: see Laws/Closed.lean. -/

set_option linter.unusedTactic false
set_option linter.unreachableTactic false

namespace Sys2Proof.Laws

open Sys2Proof.Machine

variable {P : State → Prop}

theorem cl_malformed (hP : Closed P) (s : State) (k c : Nat) (hs : P s) : P (State.malformed s k c) := by
  unfold State.malformed
  with_reducible repeat' first | assumption | (apply cl_haltTask hP) | (apply cl_endJobOf hP) | (apply Quiet.put hP.toQuiet) | split

theorem cl_kilnAccess (hP : Closed P) (s : State) (k c : Nat) (e : AccErr) (a : Nat) (hs : P s) : P (State.kilnAccess s k c e a) := by
  unfold State.kilnAccess
  with_reducible repeat' first | assumption | (apply cl_malformed hP) | (apply cl_endJobOf hP) | (apply cl_accessFailed hP) | (apply Quiet.put hP.toQuiet) | split

theorem cl_setCtx (hP : Quiet P) (s : State) (k c : Nat) (f : KCtx → KCtx) (hs : P s) : P (State.setCtx s k c f) := by
  unfold State.setCtx
  with_reducible repeat' first | assumption | (apply cl_putCtx hP) | (apply Quiet.put hP) | split

theorem cl_dbgStop (hP : Quiet P) (s : State) (k c : Nat) (hs : P s) : P (State.dbgStop s k c) := by
  unfold State.dbgStop
  with_reducible repeat' first | assumption | (apply cl_putKiln hP) | (apply cl_setCtx hP) | (apply cl_traceJob hP) | (apply Quiet.put hP) | ((apply Quiet.mk' hP); first | assumption | (apply cl_putKiln hP) | (apply cl_setCtx hP) | (apply cl_traceJob hP) | (apply Quiet.put hP) | split) | ((apply Quiet.mk' hP); (apply Quiet.mk' hP); first | assumption | (apply cl_putKiln hP) | (apply cl_setCtx hP) | (apply cl_traceJob hP) | (apply Quiet.put hP) | split) | split | (intro _ _) | (intro _)

theorem cl_command (hP : Closed P) (s : State) (k c op n : Nat) (run : Nat → State → State) (hs : P s) (hrun : ∀ x0 x1, P x1 → P (run x0 x1)) : P (State.command s k c op n run) := by
  unfold State.command; try dsimp only
  with_reducible repeat' first | assumption | (apply hrun) | (apply cl_read hP) | (refine atExSndP ?_ (by assumption); apply cl_read hP) | (apply cl_kilnAccess hP) | (apply cl_ok hP.toQuiet) | (apply cl_malformed hP) | (apply cl_dbgStop hP.toQuiet) | (apply Quiet.put hP.toQuiet) | split

theorem cl_commandDone (hP : Quiet P) (s : State) (k c n : Nat) (pinWriter : Bool) (hs : P s) : P (State.commandDone s k c n pinWriter) := by
  unfold State.commandDone; try dsimp only
  with_reducible repeat' first | assumption | (apply cl_putCtx hP) | (apply cl_dbgStop hP) | (apply Quiet.put hP) | ((apply Quiet.mk' hP); first | assumption | (apply cl_putCtx hP) | (apply cl_dbgStop hP) | (apply Quiet.put hP) | split) | ((apply Quiet.mk' hP); (apply Quiet.mk' hP); first | assumption | (apply cl_putCtx hP) | (apply cl_dbgStop hP) | (apply Quiet.put hP) | split) | split

theorem cl_dataLate (hP : Closed P) (s : State) (k c : Nat) (late : List Nat) (hs : P s) : P (State.dataLate s k c late) := by
  unfold State.dataLate
  with_reducible repeat' first | assumption | (apply cl_haltTask hP) | (apply cl_setCtx hP.toQuiet) | (apply Quiet.put hP.toQuiet) | ((apply Quiet.mk' hP.toQuiet); first | assumption | (apply cl_haltTask hP) | (apply cl_setCtx hP.toQuiet) | (apply Quiet.put hP.toQuiet) | split) | ((apply Quiet.mk' hP.toQuiet); (apply Quiet.mk' hP.toQuiet); first | assumption | (apply cl_haltTask hP) | (apply cl_setCtx hP.toQuiet) | (apply Quiet.put hP.toQuiet) | split) | split | (intro _ _) | (intro _)

theorem cl_touch (hP : Closed P) (s : State) (rs : List (Nat × Nat)) (hs : P s) : ExP P (State.touch s rs) := by
  unfold State.touch; try dsimp only
  with_reducible repeat' first | assumption | (apply cl_ok hP.toQuiet) | (apply cl_correctWords hP) | (apply Quiet.put hP.toQuiet) | split | (intro _ _) | (intro _) | (apply ExP.ok) | (exact ExP.error)

theorem cl_regroup (hP : Quiet P) (s : State) (k c : Nat) (hs : P s) : P (State.regroup s k c) := by
  unfold State.regroup
  with_reducible repeat' first | assumption | (apply cl_setCtx hP) | (apply Quiet.put hP) | ((apply Quiet.mk' hP); first | assumption | (apply cl_setCtx hP) | (apply Quiet.put hP) | split) | ((apply Quiet.mk' hP); (apply Quiet.mk' hP); first | assumption | (apply cl_setCtx hP) | (apply Quiet.put hP) | split) | split | (intro _ _) | (intro _)

theorem cl_slipHalt (hP : Closed P) (s : State) (k c : Nat) (p : Slip) (hs : P s) : P (State.slipHalt s k c p) := by
  unfold State.slipHalt; try dsimp only
  with_reducible repeat' first | assumption | (apply cl_regroup hP.toQuiet) | (apply cl_put hP.toQuiet) | (apply cl_haltTask hP) | (apply Quiet.put hP.toQuiet) | split

theorem cl_chargeIdle (hP : Quiet P) (s : State) (k c : Nat) (l : LayerCmd) (r0 : Nat) (hs : P s) : P (State.chargeIdle s k c l r0) := by
  induction r0 generalizing s k c l with
  | zero =>
    unfold State.chargeIdle
    with_reducible repeat' first | assumption | (apply ih) | (apply cl_putKiln hP) | (apply cl_inc hP) | (apply Quiet.put hP) | ((apply Quiet.mk' hP); first | assumption | (apply ih) | (apply cl_putKiln hP) | (apply cl_inc hP) | (apply Quiet.put hP) | split) | split | (intro _ _) | (intro _)
  | succ m ih =>
    unfold State.chargeIdle
    try dsimp only
    with_reducible repeat' first | assumption | (apply ih) | (apply cl_putKiln hP) | (apply cl_inc hP) | (apply Quiet.put hP) | ((apply Quiet.mk' hP); first | assumption | (apply ih) | (apply cl_putKiln hP) | (apply cl_inc hP) | (apply Quiet.put hP) | split) | split | (intro _ _) | (intro _)

theorem cl_addTile (hP : Quiet P) (s : State) (k c : Nat) (l : LayerCmd) (g : LutGroup) (hs : P s) : P (State.addTile s k c l g) := by
  unfold State.addTile; try dsimp only
  with_reducible repeat' first | assumption | (apply cl_putCtx hP) | (apply cl_inc hP) | (apply Quiet.put hP) | ((apply Quiet.mk' hP); first | assumption | (apply cl_putCtx hP) | (apply cl_inc hP) | (apply Quiet.put hP) | (apply cl_foldl) | split) | ((apply Quiet.mk' hP); (apply Quiet.mk' hP); first | assumption | (apply cl_putCtx hP) | (apply cl_inc hP) | (apply Quiet.put hP) | (apply cl_foldl) | split) | split | (apply cl_foldl) | (intro _ _) | (intro _)

theorem cl_outputRow (hP : Closed P) (s : State) (k c : Nat) (l : LayerCmd) (row : Nat) (hs : P s) : BothP P (State.outputRow s k c l row) := by
  unfold State.outputRow; try dsimp only
  with_reducible repeat' first | assumption | (apply cl_read hP) | (refine atExSndP ?_ (by assumption); apply cl_read hP) | (apply cl_kilnAccess hP) | (apply cl_ok hP.toQuiet) | (apply cl_write hP) | (refine atExP ?_ (by assumption); apply cl_write hP) | (apply cl_inc hP.toQuiet) | (apply cl_clipPage hP) | (refine atExP ?_ (by assumption); apply cl_clipPage hP) | (apply cl_setCtx hP.toQuiet) | (apply Quiet.put hP.toQuiet) | ((apply Quiet.mk' hP.toQuiet); first | assumption | (apply cl_read hP) | (refine atExSndP ?_ (by assumption); apply cl_read hP) | (apply cl_kilnAccess hP) | (apply cl_ok hP.toQuiet) | (apply cl_write hP) | (refine atExP ?_ (by assumption); apply cl_write hP) | (apply cl_inc hP.toQuiet) | (apply cl_clipPage hP) | (refine atExP ?_ (by assumption); apply cl_clipPage hP) | (apply cl_setCtx hP.toQuiet) | (apply Quiet.put hP.toQuiet) | split) | ((apply Quiet.mk' hP.toQuiet); (apply Quiet.mk' hP.toQuiet); first | assumption | (apply cl_read hP) | (refine atExSndP ?_ (by assumption); apply cl_read hP) | (apply cl_kilnAccess hP) | (apply cl_ok hP.toQuiet) | (apply cl_write hP) | (refine atExP ?_ (by assumption); apply cl_write hP) | (apply cl_inc hP.toQuiet) | (apply cl_clipPage hP) | (refine atExP ?_ (by assumption); apply cl_clipPage hP) | (apply cl_setCtx hP.toQuiet) | (apply Quiet.put hP.toQuiet) | split) | split | (intro _ _) | (intro _) | (apply BothP.none) | (apply BothP.some)

theorem cl_pinRow (hP : Closed P) (s : State) (k c : Nat) (l : LayerCmd) (hs : P s) : BothP P (State.pinRow s k c l) := by
  unfold State.pinRow; try dsimp only
  with_reducible repeat' first | assumption | (apply cl_putCtx hP.toQuiet) | (apply cl_write hP) | (refine atExP ?_ (by assumption); apply cl_write hP) | (apply cl_kilnAccess hP) | (apply cl_ok hP.toQuiet) | (apply cl_setCtx hP.toQuiet) | (apply Quiet.put hP.toQuiet) | ((apply Quiet.mk' hP.toQuiet); first | assumption | (apply cl_putCtx hP.toQuiet) | (apply cl_write hP) | (refine atExP ?_ (by assumption); apply cl_write hP) | (apply cl_kilnAccess hP) | (apply cl_ok hP.toQuiet) | (apply cl_setCtx hP.toQuiet) | (apply Quiet.put hP.toQuiet) | (apply cl_foldl) | split) | ((apply Quiet.mk' hP.toQuiet); (apply Quiet.mk' hP.toQuiet); first | assumption | (apply cl_putCtx hP.toQuiet) | (apply cl_write hP) | (refine atExP ?_ (by assumption); apply cl_write hP) | (apply cl_kilnAccess hP) | (apply cl_ok hP.toQuiet) | (apply cl_setCtx hP.toQuiet) | (apply Quiet.put hP.toQuiet) | (apply cl_foldl) | split) | split | (apply cl_foldl) | (intro _ _) | (intro _) | (apply BothP.none) | (apply BothP.some)

theorem cl_freeRing (hP : Quiet P) (s : State) (k c : Nat) (l : LayerCmd) (row : Nat) (hs : P s) : P (State.freeRing s k c l row) := by
  unfold State.freeRing; try dsimp only
  with_reducible repeat' first | assumption | (apply cl_setReady hP) | (apply Quiet.put hP) | split | (apply cl_foldl) | (intro _ _) | (intro _)

theorem cl_endRow (hP : Closed P) (s : State) (k c : Nat) (l : LayerCmd) (row : Nat) (hs : P s) : BothP P (State.endRow s k c l row) := by
  unfold State.endRow
  dsimp only
  have hr : BothP P (if l.accOut == 0 then s.outputRow k c l row else if l.accOut == 2 then s.pinRow k c l else (some s, s)) := by
    split
    · exact cl_outputRow hP s k c l row hs
    · split
      · exact cl_pinRow hP s k c l hs
      · exact BothP.some hs hs
  split
  · rename_i e; exact BothP.none (hr.left e)
  · rename_i t _ e
    have h1 := fun f => cl_setCtx hP.toQuiet _ k c f (cl_freeRing hP.toQuiet t k c l row (hr.go e))
    exact BothP.some (h1 _) (h1 _)

theorem cl_layerEnds (hP : Quiet P) (s : State) (k c : Nat) (l : LayerCmd) (hs : P s) : P (State.layerEnds s k c l) := by
  unfold State.layerEnds; try dsimp only
  with_reducible repeat' first | assumption | (apply cl_setReady hP) | (apply cl_setCtx hP) | (apply cl_putKiln hP) | (apply cl_commandDone hP) | (apply Quiet.put hP) | ((apply Quiet.mk' hP); first | assumption | (apply cl_setReady hP) | (apply cl_setCtx hP) | (apply cl_putKiln hP) | (apply cl_commandDone hP) | (apply Quiet.put hP) | (apply cl_foldl) | split) | ((apply Quiet.mk' hP); (apply Quiet.mk' hP); first | assumption | (apply cl_setReady hP) | (apply cl_setCtx hP) | (apply cl_putKiln hP) | (apply cl_commandDone hP) | (apply Quiet.put hP) | (apply cl_foldl) | split) | split | (apply cl_foldl) | (intro _ _) | (intro _)

theorem cl_runLayer (hP : Closed P) (s : State) (k c : Nat) (l : LayerCmd) (n : Nat) (hs : P s) : P (State.runLayer s k c l n) := by
  induction n generalizing s with
  | zero => exact hs
  | succ n ih =>
    unfold State.runLayer
    dsimp only
    have h1 : ∀ (b : Bool) x, P (if b then s.putCtx k c x else s) := by
      intro b x
      cases b
      · exact hs
      · exact cl_putCtx hP.toQuiet _ _ _ _ hs
    split
    · exact cl_layerEnds hP.toQuiet _ _ _ _ hs
    · split
      · split
        · rename_i e; exact (cl_endRow hP _ k c l _ (h1 _ _)).left e
        · rename_i e; exact ih _ ((cl_endRow hP _ k c l _ (h1 _ _)).go e)
      · have h2 := h1 ((s.ctx k c).group == l.pinned && (s.ctx k c).strip == 0) { s.ctx k c with acc := l.startRow (s.ctx k c) (s.ctx k c).row }
        revert h2
        generalize (if ((s.ctx k c).group == l.pinned && (s.ctx k c).strip == 0) = true then _ else s) = t
        intro ht
        split
        · exact cl_dataLate hP _ _ _ _ ht
        · split
          · exact cl_memError hP _ _ _ ht
          · rename_i u e
            have hu : P u := atExP (cl_touch hP _ _ ht) e
            split
            · exact cl_slipHalt hP _ _ _ _ hu
            · split
              · exact cl_haltTask hP _ _ _ _ (cl_regroup hP.toQuiet _ _ _ hu)
              · split
                · have h3 := fun g => cl_addTile hP.toQuiet u k c l g hu
                  split
                  · exact cl_dbgStop hP.toQuiet _ _ _ (h3 _)
                  · exact ih _ (h3 _)
                · have h3 := cl_chargeIdle hP.toQuiet u k c l 1024 hu
                  split
                  · exact ih _ (cl_putKiln hP.toQuiet _ _ _ h3)
                  · exact h3

theorem cl_startLayer (hP : Closed P) (s : State) (k c w : Nat) (hs : P s) : P (State.startLayer s k c w) := by
  unfold State.startLayer; try dsimp only
  with_reducible repeat' first | assumption | (apply cl_malformed hP) | (apply cl_clipPage hP) | (refine atExP ?_ (by assumption); apply cl_clipPage hP) | (apply cl_putCtx hP.toQuiet) | (apply cl_putKiln hP.toQuiet) | (apply cl_runLayer hP) | (apply Quiet.put hP.toQuiet) | ((apply Quiet.mk' hP.toQuiet); first | assumption | (apply cl_malformed hP) | (apply cl_clipPage hP) | (refine atExP ?_ (by assumption); apply cl_clipPage hP) | (apply cl_putCtx hP.toQuiet) | (apply cl_putKiln hP.toQuiet) | (apply cl_runLayer hP) | (apply Quiet.put hP.toQuiet) | split) | ((apply Quiet.mk' hP.toQuiet); (apply Quiet.mk' hP.toQuiet); first | assumption | (apply cl_malformed hP) | (apply cl_clipPage hP) | (refine atExP ?_ (by assumption); apply cl_clipPage hP) | (apply cl_putCtx hP.toQuiet) | (apply cl_putKiln hP.toQuiet) | (apply cl_runLayer hP) | (apply Quiet.put hP.toQuiet) | split) | split

theorem cl_execLayer (hP : Closed P) (kiln slot : Nat) (s : State) (hs : P s) : OutP P (execLayer kiln slot s) := by
  unfold execLayer
  with_reducible repeat' first | assumption | (apply cl_ok hP.toQuiet) | (apply cl_command hP) | (apply cl_startLayer hP) | (apply Quiet.put hP.toQuiet) | split | (intro _ _) | (intro _) | (apply OutP.ok) | (apply OutP.next)

theorem cl_execBankExchange (hP : Closed P) (kiln chargeWait lookupWait : Nat) (s : State) (hs : P s) : OutP P (execBankExchange kiln chargeWait lookupWait s) := by
  unfold execBankExchange; try dsimp only
  with_reducible repeat' first | assumption | (apply cl_putKiln hP.toQuiet) | (apply cl_ok hP.toQuiet) | (apply cl_inc hP.toQuiet) | (apply cl_runLayer hP) | (apply Quiet.put hP.toQuiet) | split | (apply OutP.ok) | (apply OutP.next)

theorem cl_switched (hP : Quiet P) (s : State) (k : Nat) (d : Option Nat) (f : Nat → Kiln → Kiln) (hs : P s) : P (State.switched s k d f) := by
  unfold State.switched
  with_reducible repeat' first | assumption | (apply cl_putKiln hP) | (apply cl_inc hP) | (apply Quiet.put hP) | split

theorem cl_execTaskSwitch (hP : Quiet P) (kiln cycles : Nat) (s : State) (hs : P s) : OutP P (execTaskSwitch kiln cycles s) := by
  unfold execTaskSwitch; try dsimp only
  with_reducible repeat' first | assumption | (apply cl_inc hP) | (apply cl_switched hP) | (apply cl_ok hP) | (apply Quiet.put hP) | ((apply Quiet.mk' hP); first | assumption | (apply cl_inc hP) | (apply cl_switched hP) | (apply cl_ok hP) | (apply Quiet.put hP) | split) | ((apply Quiet.mk' hP); (apply Quiet.mk' hP); first | assumption | (apply cl_inc hP) | (apply cl_switched hP) | (apply cl_ok hP) | (apply Quiet.put hP) | split) | split | (intro _ _) | (intro _) | (apply OutP.ok) | (apply OutP.next)

theorem cl_clipPage (hP : Closed P) (s : State) (r : Req) (page first : Nat) (r0 : List Nat) (hs : P s) : ExP P (State.clipPage s r page first r0) := by
  induction r0 generalizing s r page first with
  | nil =>
    unfold State.clipPage
    with_reducible repeat' first | assumption | (apply ih) | (apply cl_ok hP.toQuiet) | (apply cl_read hP) | (refine atExSndP ?_ (by assumption); apply cl_read hP) | (apply cl_write hP) | (refine atExP ?_ (by assumption); apply cl_write hP) | (apply Quiet.put hP.toQuiet) | (refine atExP ?_ (by assumption); apply ih) | ((apply Quiet.mk' hP.toQuiet); first | assumption | (apply ih) | (apply cl_ok hP.toQuiet) | (apply cl_read hP) | (refine atExSndP ?_ (by assumption); apply cl_read hP) | (apply cl_write hP) | (refine atExP ?_ (by assumption); apply cl_write hP) | (apply Quiet.put hP.toQuiet) | (refine atExP ?_ (by assumption); apply ih) | split) | split | (intro _ _) | (intro _) | (apply ExP.ok) | (exact ExP.error)
  | cons x l ih =>
    unfold State.clipPage
    try dsimp only
    with_reducible repeat' first | assumption | (apply ih) | (apply cl_ok hP.toQuiet) | (apply cl_read hP) | (refine atExSndP ?_ (by assumption); apply cl_read hP) | (apply cl_write hP) | (refine atExP ?_ (by assumption); apply cl_write hP) | (apply Quiet.put hP.toQuiet) | (refine atExP ?_ (by assumption); apply ih) | ((apply Quiet.mk' hP.toQuiet); first | assumption | (apply ih) | (apply cl_ok hP.toQuiet) | (apply cl_read hP) | (refine atExSndP ?_ (by assumption); apply cl_read hP) | (apply cl_write hP) | (refine atExP ?_ (by assumption); apply cl_write hP) | (apply Quiet.put hP.toQuiet) | (refine atExP ?_ (by assumption); apply ih) | split) | split | (intro _ _) | (intro _) | (apply ExP.ok) | (exact ExP.error)

theorem cl_passRow (hP : Closed P) (s : State) (k c : Nat) (r : RowOut) (hs : P s) : BothP P (State.passRow s k c r) := by
  unfold State.passRow; try dsimp only
  with_reducible repeat' first | assumption | (apply cl_putCtx hP.toQuiet) | (apply cl_setCtx hP.toQuiet) | (apply cl_putJob hP.toQuiet) | (apply cl_clipPage hP) | (refine atExP ?_ (by assumption); apply cl_clipPage hP) | (apply cl_ok hP.toQuiet) | (apply cl_memError hP) | (apply cl_kilnAccess hP) | (apply Quiet.put hP.toQuiet) | ((apply Quiet.mk' hP.toQuiet); first | assumption | (apply cl_putCtx hP.toQuiet) | (apply cl_setCtx hP.toQuiet) | (apply cl_putJob hP.toQuiet) | (apply cl_clipPage hP) | (refine atExP ?_ (by assumption); apply cl_clipPage hP) | (apply cl_ok hP.toQuiet) | (apply cl_memError hP) | (apply cl_kilnAccess hP) | (apply Quiet.put hP.toQuiet) | split) | ((apply Quiet.mk' hP.toQuiet); (apply Quiet.mk' hP.toQuiet); first | assumption | (apply cl_putCtx hP.toQuiet) | (apply cl_setCtx hP.toQuiet) | (apply cl_putJob hP.toQuiet) | (apply cl_clipPage hP) | (refine atExP ?_ (by assumption); apply cl_clipPage hP) | (apply cl_ok hP.toQuiet) | (apply cl_memError hP) | (apply cl_kilnAccess hP) | (apply Quiet.put hP.toQuiet) | split) | split | (intro _ _) | (intro _) | (apply BothP.none) | (apply BothP.some)

theorem cl_passRows (hP : Closed P) (s : State) (k c : Nat) (held : List Nat) (kept : List RowOut) (r0 : List RowOut) (hs : P s) : P (State.passRows s k c held kept r0) := by
  induction r0 generalizing s k c held kept with
  | nil =>
    unfold State.passRows
    with_reducible repeat' first | assumption | (apply ih) | (apply cl_setCtx hP.toQuiet) | (apply cl_passRow hP) | (refine BothP.go ?_ (by assumption); apply cl_passRow hP) | (refine BothP.left ?_ (by assumption); apply cl_passRow hP) | (apply Quiet.put hP.toQuiet) | ((apply Quiet.mk' hP.toQuiet); first | assumption | (apply ih) | (apply cl_setCtx hP.toQuiet) | (apply cl_passRow hP) | (refine BothP.go ?_ (by assumption); apply cl_passRow hP) | (refine BothP.left ?_ (by assumption); apply cl_passRow hP) | (apply Quiet.put hP.toQuiet) | split) | split | (intro _ _) | (intro _)
  | cons x l ih =>
    unfold State.passRows
    try dsimp only
    with_reducible repeat' first | assumption | (apply ih) | (apply cl_setCtx hP.toQuiet) | (apply cl_passRow hP) | (refine BothP.go ?_ (by assumption); apply cl_passRow hP) | (refine BothP.left ?_ (by assumption); apply cl_passRow hP) | (apply Quiet.put hP.toQuiet) | ((apply Quiet.mk' hP.toQuiet); first | assumption | (apply ih) | (apply cl_setCtx hP.toQuiet) | (apply cl_passRow hP) | (refine BothP.go ?_ (by assumption); apply cl_passRow hP) | (refine BothP.left ?_ (by assumption); apply cl_passRow hP) | (apply Quiet.put hP.toQuiet) | split) | split | (intro _ _) | (intro _)

theorem cl_execRowWatermarkAdvance (hP : Closed P) (kiln slot : Nat) (row : RowAt) (s : State) (hs : P s) : OutP P (execRowWatermarkAdvance kiln slot row s) := by
  unfold execRowWatermarkAdvance
  with_reducible repeat' first | assumption | (apply cl_ok hP.toQuiet) | (apply cl_passRows hP) | (apply Quiet.put hP.toQuiet) | split | (intro _ _) | (intro _) | (apply OutP.ok) | (apply OutP.next)

theorem cl_runLoadpin (hP : Closed P) (s : State) (k c w : Nat) (hs : P s) : P (State.runLoadpin s k c w) := by
  unfold State.runLoadpin; try dsimp only
  with_reducible repeat' first | assumption | (apply cl_malformed hP) | (apply cl_read hP) | (refine atExSndP ?_ (by assumption); apply cl_read hP) | (apply cl_kilnAccess hP) | (apply cl_ok hP.toQuiet) | (apply cl_putCtx hP.toQuiet) | (apply cl_commandDone hP.toQuiet) | (apply Quiet.put hP.toQuiet) | ((apply Quiet.mk' hP.toQuiet); first | assumption | (apply cl_malformed hP) | (apply cl_read hP) | (refine atExSndP ?_ (by assumption); apply cl_read hP) | (apply cl_kilnAccess hP) | (apply cl_ok hP.toQuiet) | (apply cl_putCtx hP.toQuiet) | (apply cl_commandDone hP.toQuiet) | (apply Quiet.put hP.toQuiet) | (apply cl_foldl) | split) | ((apply Quiet.mk' hP.toQuiet); (apply Quiet.mk' hP.toQuiet); first | assumption | (apply cl_malformed hP) | (apply cl_read hP) | (refine atExSndP ?_ (by assumption); apply cl_read hP) | (apply cl_kilnAccess hP) | (apply cl_ok hP.toQuiet) | (apply cl_putCtx hP.toQuiet) | (apply cl_commandDone hP.toQuiet) | (apply Quiet.put hP.toQuiet) | (apply cl_foldl) | split) | split | (apply cl_foldl) | (intro _ _) | (intro _)

theorem cl_execLoadpin (hP : Closed P) (kiln slot : Nat) (s : State) (hs : P s) : OutP P (execLoadpin kiln slot s) := by
  unfold execLoadpin
  with_reducible repeat' first | assumption | (apply cl_ok hP.toQuiet) | (apply cl_command hP) | (apply cl_runLoadpin hP) | (apply Quiet.put hP.toQuiet) | split | (intro _ _) | (intro _) | (apply OutP.ok) | (apply OutP.next)

theorem cl_runSwap (hP : Closed P) (s : State) (k c w : Nat) (hs : P s) : P (State.runSwap s k c w) := by
  unfold State.runSwap; try dsimp only
  with_reducible repeat' first | assumption | (apply cl_malformed hP) | (apply cl_setReady hP.toQuiet) | (apply cl_putCtx hP.toQuiet) | (apply cl_commandDone hP.toQuiet) | (apply Quiet.put hP.toQuiet) | ((apply Quiet.mk' hP.toQuiet); first | assumption | (apply cl_malformed hP) | (apply cl_setReady hP.toQuiet) | (apply cl_putCtx hP.toQuiet) | (apply cl_commandDone hP.toQuiet) | (apply Quiet.put hP.toQuiet) | (apply cl_foldl) | split) | ((apply Quiet.mk' hP.toQuiet); (apply Quiet.mk' hP.toQuiet); first | assumption | (apply cl_malformed hP) | (apply cl_setReady hP.toQuiet) | (apply cl_putCtx hP.toQuiet) | (apply cl_commandDone hP.toQuiet) | (apply Quiet.put hP.toQuiet) | (apply cl_foldl) | split) | split | (apply cl_foldl) | (intro _ _) | (intro _)

theorem cl_execSwap (hP : Closed P) (kiln slot : Nat) (s : State) (hs : P s) : OutP P (execSwap kiln slot s) := by
  unfold execSwap
  with_reducible repeat' first | assumption | (apply cl_ok hP.toQuiet) | (apply cl_command hP) | (apply cl_runSwap hP) | (apply Quiet.put hP.toQuiet) | split | (intro _ _) | (intro _) | (apply OutP.ok) | (apply OutP.next)

theorem cl_runArrive (hP : Closed P) (s : State) (k c w : Nat) (hs : P s) : P (State.runArrive s k c w) := by
  unfold State.runArrive; try dsimp only
  with_reducible repeat' first | assumption | (apply cl_malformed hP) | (apply cl_barrierWrite hP) | (refine atExP ?_ (by assumption); apply cl_barrierWrite hP) | (apply cl_ok hP.toQuiet) | (apply cl_commandDone hP.toQuiet) | (apply cl_kilnAccess hP) | (apply Quiet.put hP.toQuiet) | split

theorem cl_execArrive (hP : Closed P) (kiln slot : Nat) (s : State) (hs : P s) : OutP P (execArrive kiln slot s) := by
  unfold execArrive
  with_reducible repeat' first | assumption | (apply cl_ok hP.toQuiet) | (apply cl_command hP) | (apply cl_runArrive hP) | (apply Quiet.put hP.toQuiet) | split | (intro _ _) | (intro _) | (apply OutP.ok) | (apply OutP.next)

theorem cl_runWaitbar (hP : Closed P) (s : State) (k c w : Nat) (hs : P s) : P (State.runWaitbar s k c w) := by
  unfold State.runWaitbar; try dsimp only
  with_reducible repeat' first | assumption | (apply cl_malformed hP) | (apply cl_read hP) | (refine atExSndP ?_ (by assumption); apply cl_read hP) | (apply cl_kilnAccess hP) | (apply cl_ok hP.toQuiet) | (apply cl_commandDone hP.toQuiet) | (apply cl_putCtx hP.toQuiet) | (apply Quiet.put hP.toQuiet) | ((apply Quiet.mk' hP.toQuiet); first | assumption | (apply cl_malformed hP) | (apply cl_read hP) | (refine atExSndP ?_ (by assumption); apply cl_read hP) | (apply cl_kilnAccess hP) | (apply cl_ok hP.toQuiet) | (apply cl_commandDone hP.toQuiet) | (apply cl_putCtx hP.toQuiet) | (apply Quiet.put hP.toQuiet) | split) | ((apply Quiet.mk' hP.toQuiet); (apply Quiet.mk' hP.toQuiet); first | assumption | (apply cl_malformed hP) | (apply cl_read hP) | (refine atExSndP ?_ (by assumption); apply cl_read hP) | (apply cl_kilnAccess hP) | (apply cl_ok hP.toQuiet) | (apply cl_commandDone hP.toQuiet) | (apply cl_putCtx hP.toQuiet) | (apply Quiet.put hP.toQuiet) | split) | split

theorem cl_execWaitbar (hP : Closed P) (kiln slot : Nat) (s : State) (hs : P s) : OutP P (execWaitbar kiln slot s) := by
  unfold execWaitbar
  with_reducible repeat' first | assumption | (apply cl_ok hP.toQuiet) | (apply cl_command hP) | (apply cl_runWaitbar hP) | (apply Quiet.put hP.toQuiet) | split | (intro _ _) | (intro _) | (apply OutP.ok) | (apply OutP.next)

theorem cl_execWaitbarReread (hP : Closed P) (kiln slot : Nat) (s : State) (hs : P s) : OutP P (execWaitbarReread kiln slot s) := by
  unfold execWaitbarReread; try dsimp only
  with_reducible repeat' first | assumption | (apply cl_ok hP.toQuiet) | (apply cl_command hP) | (apply cl_putCtx hP.toQuiet) | (apply cl_runWaitbar hP) | (apply Quiet.put hP.toQuiet) | ((apply Quiet.mk' hP.toQuiet); first | assumption | (apply cl_ok hP.toQuiet) | (apply cl_command hP) | (apply cl_putCtx hP.toQuiet) | (apply cl_runWaitbar hP) | (apply Quiet.put hP.toQuiet) | split) | ((apply Quiet.mk' hP.toQuiet); (apply Quiet.mk' hP.toQuiet); first | assumption | (apply cl_ok hP.toQuiet) | (apply cl_command hP) | (apply cl_putCtx hP.toQuiet) | (apply cl_runWaitbar hP) | (apply Quiet.put hP.toQuiet) | split) | split | (intro _ _) | (intro _) | (apply OutP.ok) | (apply OutP.next)

theorem cl_runClearbar (hP : Closed P) (s : State) (k c w : Nat) (hs : P s) : P (State.runClearbar s k c w) := by
  unfold State.runClearbar; try dsimp only
  with_reducible repeat' first | assumption | (apply cl_malformed hP) | (apply cl_barrierWrite hP) | (refine atExP ?_ (by assumption); apply cl_barrierWrite hP) | (apply cl_ok hP.toQuiet) | (apply cl_commandDone hP.toQuiet) | (apply cl_kilnAccess hP) | (apply Quiet.put hP.toQuiet) | split

theorem cl_execClearbar (hP : Closed P) (kiln slot : Nat) (s : State) (hs : P s) : OutP P (execClearbar kiln slot s) := by
  unfold execClearbar
  with_reducible repeat' first | assumption | (apply cl_ok hP.toQuiet) | (apply cl_command hP) | (apply cl_runClearbar hP) | (apply Quiet.put hP.toQuiet) | split | (intro _ _) | (intro _) | (apply OutP.ok) | (apply OutP.next)

theorem cl_stopFeeding (hP : Quiet P) (s : State) (k c : Nat) (hs : P s) : P (State.stopFeeding s k c) := by
  unfold State.stopFeeding; try dsimp only
  with_reducible repeat' first | assumption | (apply cl_freeTags hP) | (apply cl_putStream hP) | (apply cl_freeStream hP) | (apply Quiet.put hP) | ((apply Quiet.mk' hP); first | assumption | (apply cl_freeTags hP) | (apply cl_putStream hP) | (apply cl_freeStream hP) | (apply Quiet.put hP) | (apply cl_foldl) | split) | ((apply Quiet.mk' hP); (apply Quiet.mk' hP); first | assumption | (apply cl_freeTags hP) | (apply cl_putStream hP) | (apply cl_freeStream hP) | (apply Quiet.put hP) | (apply cl_foldl) | split) | split | (apply cl_foldl) | (intro _ _) | (intro _)

theorem cl_runEnd (hP : Closed P) (s : State) (k c w : Nat) (hs : P s) : P (State.runEnd s k c w) := by
  unfold State.runEnd; try dsimp only
  with_reducible repeat' first | assumption | (apply cl_malformed hP) | (apply cl_stopFeeding hP.toQuiet) | (apply cl_freeSlot hP.toQuiet) | (apply cl_putJob hP.toQuiet) | (apply Quiet.put hP.toQuiet) | split

theorem cl_execKilnEnd (hP : Closed P) (kiln slot : Nat) (s : State) (hs : P s) : OutP P (execKilnEnd kiln slot s) := by
  unfold execKilnEnd
  with_reducible repeat' first | assumption | (apply cl_ok hP.toQuiet) | (apply cl_command hP) | (apply cl_runEnd hP) | (apply Quiet.put hP.toQuiet) | split | (intro _ _) | (intro _) | (apply OutP.ok) | (apply OutP.next)

theorem cl_clearRefilled (hP : Quiet P) (s : State) (k : Nat) (x : KCtx) (tiles : Tiles) (hs : P s) : P (State.clearRefilled s k x tiles) := by
  unfold State.clearRefilled; try dsimp only
  with_reducible repeat' first | assumption | (apply cl_setReady hP) | (apply Quiet.put hP) | split | (apply cl_foldl) | (intro _ _) | (intro _)

theorem cl_resumeTask (hP : Quiet P) (s : State) (word : Nat) (hs : P s) : P (State.resumeTask s word) := by
  unfold State.resumeTask; try dsimp only
  with_reducible repeat' first | assumption | (apply cl_clearRefilled hP) | (apply cl_putCtx hP) | (apply cl_restartStreams hP) | (apply cl_inc hP) | (apply Quiet.put hP) | ((apply Quiet.mk' hP); first | assumption | (apply cl_clearRefilled hP) | (apply cl_putCtx hP) | (apply cl_restartStreams hP) | (apply cl_inc hP) | (apply Quiet.put hP) | split) | ((apply Quiet.mk' hP); (apply Quiet.mk' hP); first | assumption | (apply cl_clearRefilled hP) | (apply cl_putCtx hP) | (apply cl_restartStreams hP) | (apply cl_inc hP) | (apply Quiet.put hP) | split) | split

theorem cl_resumeWord (hP : Closed P) (s : State) (word : Nat) (hs : P s) : P (State.resumeWord s word) := by
  unfold State.resumeWord
  with_reducible repeat' first | assumption | (apply cl_resumeTask hP.toQuiet) | (apply cl_resumeStream hP) | (apply Quiet.put hP.toQuiet) | split

theorem cl_execResumeStream (hP : Closed P) (word : Nat) (s : State) (hs : P s) : OutP P (execResumeStream word s) := by
  unfold execResumeStream
  with_reducible repeat' first | assumption | (apply cl_ok hP.toQuiet) | (apply cl_hostDo hP.toQuiet) | (apply cl_resumeWord hP) | (apply Quiet.put hP.toQuiet) | split | (intro _ _) | (intro _) | (apply OutP.ok) | (apply OutP.next)

theorem cl_execResumeKilnTask (hP : Closed P) (task reserved gen : Nat) (s : State) (hs : P s) : OutP P (execResumeKilnTask task reserved gen s) := by
  unfold execResumeKilnTask
  with_reducible repeat' first | assumption | (apply cl_ok hP.toQuiet) | (apply cl_hostDo hP.toQuiet) | (apply cl_resumeTask hP.toQuiet) | (apply Quiet.put hP.toQuiet) | split | (intro _ _) | (intro _) | (apply OutP.ok) | (apply OutP.next)

end Sys2Proof.Laws
end

