-- ==== Sys2Proof/Laws/KeepsHearth.lean ====
section
/-! SUPPORT. What the functions of Machine/Hearth.lean keep: see Laws/Closed.lean. -/

set_option linter.unusedTactic false
set_option linter.unreachableTactic false

namespace Sys2Proof.Laws

open Sys2Proof.Machine

variable {P : State → Prop}

theorem cl_hearthRow (hP : Closed P) (s : State) (o : Nat) (m : Mat) (row : Nat) (lost : List Nat) (bs : List Byte) (hs : P s) : P (State.hearthRow s o m row lost bs) := by
  unfold State.hearthRow; try dsimp only
  with_reducible repeat' first | assumption | (apply cl_pokeByte hP) | (apply Quiet.put hP.toQuiet) | split | (apply cl_foldl) | (intro _ _) | (intro _)

theorem cl_hearthWrite (hP : Closed P) (s : State) (k c o : Nat) (m : Mat) (rows : List Nat) (lost : List Nat) (f : Nat → Nat → Nat) (hs : P s) : P (State.hearthWrite s k c o m rows lost f) := by
  unfold State.hearthWrite; try dsimp only
  with_reducible repeat' first | assumption | (apply cl_hearthRow hP) | (apply cl_inc hP.toQuiet) | (apply cl_put hP.toQuiet) | (apply cl_setCtx hP.toQuiet) | (apply Quiet.put hP.toQuiet) | ((apply Quiet.mk' hP.toQuiet); first | assumption | (apply cl_hearthRow hP) | (apply cl_inc hP.toQuiet) | (apply cl_put hP.toQuiet) | (apply cl_setCtx hP.toQuiet) | (apply Quiet.put hP.toQuiet) | (apply cl_foldl) | split) | ((apply Quiet.mk' hP.toQuiet); (apply Quiet.mk' hP.toQuiet); first | assumption | (apply cl_hearthRow hP) | (apply cl_inc hP.toQuiet) | (apply cl_put hP.toQuiet) | (apply cl_setCtx hP.toQuiet) | (apply Quiet.put hP.toQuiet) | (apply cl_foldl) | split) | split | (apply cl_foldl) | (intro _ _) | (intro _)

theorem cl_hearthBlocks (hP : Closed P) (k c rows : Nat) (ops : Nat → List Mat) (block : Nat → State → State) (done : State → State) (n : Nat)
    (s : State) (hb : ∀ r t, P t → P (block r t)) (hd : ∀ t, P t → P (done t)) (hs : P s) : P (State.hearthBlocks k c rows ops block done n s) := by
  induction n generalizing s with
  | zero => exact hs
  | succ n ih =>
    unfold State.hearthBlocks
    dsimp only
    split
    · exact hd _ hs
    · split
      · exact cl_dataLate hP _ _ _ _ hs
      · split
        · exact cl_memError hP _ _ _ hs
        · rename_i u e
          have hu := cl_setCtx hP.toQuiet (block (s.ctx k c).row u) k c (fun y => { y with row := (s.ctx k c).row + blockRows })
            (hb _ _ (atExP (cl_touch hP _ _ hs) e))
          split
          · exact cl_dbgStop hP.toQuiet _ _ _ hu
          · exact ih _ hu

theorem cl_hearthStart (hP : Quiet P) (s : State) (k c w : Nat) (f : Kiln → Kiln) (hs : P s) : P (State.hearthStart s k c w f) := by
  unfold State.hearthStart
  with_reducible repeat' first | assumption | (apply cl_setCtx hP) | (apply cl_putKiln hP) | (apply Quiet.put hP) | ((apply Quiet.mk' hP); first | assumption | (apply cl_setCtx hP) | (apply cl_putKiln hP) | (apply Quiet.put hP) | split) | ((apply Quiet.mk' hP); (apply Quiet.mk' hP); first | assumption | (apply cl_setCtx hP) | (apply cl_putKiln hP) | (apply Quiet.put hP) | split) | split | (intro _ _) | (intro _)

theorem cl_mulWait (hP : Quiet P) (s : State) (k c wait : Nat) (hs : P s) : P (State.mulWait s k c wait) := by
  unfold State.mulWait; try dsimp only
  with_reducible repeat' first | assumption | (apply cl_putKiln hP) | (apply cl_inc hP) | (apply Quiet.put hP) | ((apply Quiet.mk' hP); first | assumption | (apply cl_putKiln hP) | (apply cl_inc hP) | (apply Quiet.put hP) | split) | ((apply Quiet.mk' hP); (apply Quiet.mk' hP); first | assumption | (apply cl_putKiln hP) | (apply cl_inc hP) | (apply Quiet.put hP) | split) | split

theorem cl_runHmul (hP : Closed P) (s : State) (k c wait : Nat) (lost : List Nat) (w : Nat) (hs : P s) : P (State.runHmul s k c wait lost w) := by
  unfold State.runHmul; try dsimp only
  with_reducible repeat' first | assumption | (apply cl_malformed hP) | (apply cl_ok hP.toQuiet) | (apply cl_hearthBlocks hP) | (apply cl_hearthWrite hP) | (apply cl_putKiln hP.toQuiet) | (apply cl_commandDone hP.toQuiet) | (apply cl_mulWait hP.toQuiet) | (apply cl_hearthStart hP.toQuiet) | (apply Quiet.put hP.toQuiet) | ((apply Quiet.mk' hP.toQuiet); first | assumption | (apply cl_malformed hP) | (apply cl_ok hP.toQuiet) | (apply cl_hearthBlocks hP) | (apply cl_hearthWrite hP) | (apply cl_putKiln hP.toQuiet) | (apply cl_commandDone hP.toQuiet) | (apply cl_mulWait hP.toQuiet) | (apply cl_hearthStart hP.toQuiet) | (apply Quiet.put hP.toQuiet) | split) | ((apply Quiet.mk' hP.toQuiet); (apply Quiet.mk' hP.toQuiet); first | assumption | (apply cl_malformed hP) | (apply cl_ok hP.toQuiet) | (apply cl_hearthBlocks hP) | (apply cl_hearthWrite hP) | (apply cl_putKiln hP.toQuiet) | (apply cl_commandDone hP.toQuiet) | (apply cl_mulWait hP.toQuiet) | (apply cl_hearthStart hP.toQuiet) | (apply Quiet.put hP.toQuiet) | split) | split | (intro _ _) | (intro _)

theorem cl_execHmul (hP : Closed P) (kiln slot wait : Nat) (lost : List Nat) (s : State) (hs : P s) : OutP P (execHmul kiln slot wait lost s) := by
  unfold execHmul
  with_reducible repeat' first | assumption | (apply cl_ok hP.toQuiet) | (apply cl_command hP) | (apply cl_runHmul hP) | (apply Quiet.put hP.toQuiet) | split | (intro _ _) | (intro _) | (apply OutP.ok) | (apply OutP.next)

theorem cl_runHvec (hP : Closed P) (s : State) (k c : Nat) (lost : List Nat) (w : Nat) (hs : P s) : P (State.runHvec s k c lost w) := by
  unfold State.runHvec; try dsimp only
  with_reducible repeat' first | assumption | (apply cl_malformed hP) | (apply cl_ok hP.toQuiet) | (apply cl_hearthBlocks hP) | (apply cl_hearthWrite hP) | (apply cl_putKiln hP.toQuiet) | (apply cl_commandDone hP.toQuiet) | (apply cl_hearthStart hP.toQuiet) | (apply Quiet.put hP.toQuiet) | ((apply Quiet.mk' hP.toQuiet); first | assumption | (apply cl_malformed hP) | (apply cl_ok hP.toQuiet) | (apply cl_hearthBlocks hP) | (apply cl_hearthWrite hP) | (apply cl_putKiln hP.toQuiet) | (apply cl_commandDone hP.toQuiet) | (apply cl_hearthStart hP.toQuiet) | (apply Quiet.put hP.toQuiet) | split) | ((apply Quiet.mk' hP.toQuiet); (apply Quiet.mk' hP.toQuiet); first | assumption | (apply cl_malformed hP) | (apply cl_ok hP.toQuiet) | (apply cl_hearthBlocks hP) | (apply cl_hearthWrite hP) | (apply cl_putKiln hP.toQuiet) | (apply cl_commandDone hP.toQuiet) | (apply cl_hearthStart hP.toQuiet) | (apply Quiet.put hP.toQuiet) | split) | split | (intro _ _) | (intro _)

theorem cl_execHvec (hP : Closed P) (kiln slot : Nat) (lost : List Nat) (s : State) (hs : P s) : OutP P (execHvec kiln slot lost s) := by
  unfold execHvec
  with_reducible repeat' first | assumption | (apply cl_ok hP.toQuiet) | (apply cl_command hP) | (apply cl_runHvec hP) | (apply Quiet.put hP.toQuiet) | split | (intro _ _) | (intro _) | (apply OutP.ok) | (apply OutP.next)

end Sys2Proof.Laws
end

