-- ==== Sys2Proof/Laws/KeepsTasks.lean ====
section
/-! SUPPORT. What the functions of Machine/Tasks.lean keep: see Laws/Closed.lean. -/

set_option linter.unusedTactic false
set_option linter.unreachableTactic false

namespace Sys2Proof.Laws

open Sys2Proof.Machine

variable {P : State → Prop}

theorem cl_clearMooring (hP : Quiet P) (s : State) (k b n : Nat) (hs : P s) : P (State.clearMooring s k b n) := by
  unfold State.clearMooring
  with_reducible repeat' first | assumption | (apply cl_setReady hP) | (apply Quiet.put hP) | split | (apply cl_foldl) | (intro _ _) | (intro _)

theorem cl_loadTask (hP : Quiet P) (s : State) (j : Job) (u : UnitRun) (task k c b : Nat) (hs : P s) : P (State.loadTask s j u task k c b) := by
  unfold State.loadTask; try dsimp only
  with_reducible repeat' first | assumption | (apply cl_clearMooring hP) | (apply cl_putCtx hP) | (apply cl_putJob hP) | (apply Quiet.put hP) | ((apply Quiet.mk' hP); first | assumption | (apply cl_clearMooring hP) | (apply cl_putCtx hP) | (apply cl_putJob hP) | (apply Quiet.put hP) | split) | ((apply Quiet.mk' hP); (apply Quiet.mk' hP); first | assumption | (apply cl_clearMooring hP) | (apply cl_putCtx hP) | (apply cl_putJob hP) | (apply Quiet.put hP) | split) | split | (intro _ _) | (intro _)

theorem cl_countFar (hP : Quiet P) (s : State) (j : Job) (k : Nat) (hs : P s) : P (State.countFar s j k) := by
  unfold State.countFar
  with_reducible repeat' first | assumption | (apply cl_inc hP) | (apply Quiet.put hP) | split

theorem cl_placeTask (hP : Quiet P) (s : State) (j : Job) (u : UnitRun) (task : Nat) (hs : P s) : P (State.placeTask s j u task) := by
  unfold State.placeTask
  with_reducible repeat' first | assumption | (apply cl_countFar hP) | (apply cl_loadTask hP) | (apply Quiet.put hP) | split

theorem cl_placeUnit (hP : Quiet P) (s : State) (j : Job) (u : UnitRun) (hs : P s) : P (State.placeUnit s j u) := by
  unfold State.placeUnit
  with_reducible repeat' first | assumption | (apply cl_placeTask hP) | (apply Quiet.put hP) | split | (apply cl_foldl) | (intro _ _) | (intro _)

theorem cl_chargeC1 (hP : Quiet P) (s : State) (cls cycles : Nat) (hs : P s) : P (State.chargeC1 s cls cycles) := by
  unfold State.chargeC1
  with_reducible repeat' first | assumption | (apply Quiet.put hP) | ((apply Quiet.mk' hP); first | assumption | (apply Quiet.put hP) | split) | ((apply Quiet.mk' hP); (apply Quiet.mk' hP); first | assumption | (apply Quiet.put hP) | split) | split

theorem cl_dispatchUnit (hP : Quiet P) (s : State) (j : Job) (no : Nat) (hs : P s) : P (State.dispatchUnit s j no) := by
  unfold State.dispatchUnit; try dsimp only
  with_reducible repeat' first | assumption | (apply cl_chargeC1 hP) | (apply cl_traceJob hP) | (apply cl_putJob hP) | (apply cl_placeUnit hP) | (apply Quiet.put hP) | ((apply Quiet.mk' hP); first | assumption | (apply cl_chargeC1 hP) | (apply cl_traceJob hP) | (apply cl_putJob hP) | (apply cl_placeUnit hP) | (apply Quiet.put hP) | split) | ((apply Quiet.mk' hP); (apply Quiet.mk' hP); first | assumption | (apply cl_chargeC1 hP) | (apply cl_traceJob hP) | (apply cl_putJob hP) | (apply cl_placeUnit hP) | (apply Quiet.put hP) | split) | split | (intro _ _) | (intro _)

theorem cl_execUnitDispatch (hP : Quiet P) (job unit : Nat) (s : State) (hs : P s) : OutP P (execUnitDispatch job unit s) := by
  unfold execUnitDispatch
  with_reducible repeat' first | assumption | (apply cl_ok hP) | (apply cl_dispatchUnit hP) | (apply Quiet.put hP) | split | (apply OutP.ok) | (apply OutP.next)

theorem cl_stopKiln (hP : Quiet P) (s : State) (k : Nat) (hs : P s) : P (State.stopKiln s k) := by
  unfold State.stopKiln; try dsimp only
  with_reducible repeat' first | assumption | (apply cl_putCtx hP) | (apply cl_putKiln hP) | (apply Quiet.put hP) | ((apply Quiet.mk' hP); first | assumption | (apply cl_putCtx hP) | (apply cl_putKiln hP) | (apply Quiet.put hP) | (apply cl_foldl) | split) | ((apply Quiet.mk' hP); (apply Quiet.mk' hP); first | assumption | (apply cl_putCtx hP) | (apply cl_putKiln hP) | (apply Quiet.put hP) | (apply cl_foldl) | split) | split | (apply cl_foldl) | (intro _ _) | (intro _)

theorem cl_kilnFails (hP : Closed P) (s : State) (k source : Nat) (hs : P s) : P (State.kilnFails s k source) := by
  unfold State.kilnFails
  with_reducible repeat' first | assumption | (apply cl_detect hP) | (apply cl_fenceUnit hP.toQuiet) | (apply cl_stopKiln hP.toQuiet) | (apply Quiet.put hP.toQuiet) | ((apply Quiet.mk' hP.toQuiet); first | assumption | (apply cl_detect hP) | (apply cl_fenceUnit hP.toQuiet) | (apply cl_stopKiln hP.toQuiet) | (apply Quiet.put hP.toQuiet) | split) | ((apply Quiet.mk' hP.toQuiet); (apply Quiet.mk' hP.toQuiet); first | assumption | (apply cl_detect hP) | (apply cl_fenceUnit hP.toQuiet) | (apply cl_stopKiln hP.toQuiet) | (apply Quiet.put hP.toQuiet) | split) | split

theorem cl_execKilnFault (hP : Closed P) (kiln source : Nat) (s : State) (hs : P s) : OutP P (execKilnFault kiln source s) := by
  unfold execKilnFault
  with_reducible repeat' first | assumption | (apply cl_ok hP.toQuiet) | (apply cl_kilnFails hP) | (apply Quiet.put hP.toQuiet) | split | (apply OutP.ok) | (apply OutP.next)

theorem cl_execKilnProgressTimeout (hP : Closed P) (kiln : Nat) (s : State) (hs : P s) : OutP P (execKilnProgressTimeout kiln s) := by
  unfold execKilnProgressTimeout
  with_reducible repeat' first | assumption | (apply cl_ok hP.toQuiet) | (apply cl_kilnFails hP) | (apply Quiet.put hP.toQuiet) | split | (apply OutP.ok) | (apply OutP.next)

theorem cl_setRun (hP : Quiet P) (s : State) (job unit task : Nat) (r : TaskRun) (hs : P s) : P (State.setRun s job unit task r) := by
  unfold State.setRun
  with_reducible repeat' first | assumption | (apply cl_putJob hP) | (apply Quiet.put hP) | ((apply Quiet.mk' hP); first | assumption | (apply cl_putJob hP) | (apply Quiet.put hP) | split) | ((apply Quiet.mk' hP); (apply Quiet.mk' hP); first | assumption | (apply cl_putJob hP) | (apply Quiet.put hP) | split) | split | (intro _ _) | (intro _)

theorem cl_moveTask (hP : Quiet P) (s : State) (j : Job) (u : UnitRun) (task k c b ok' oc : Nat) (hs : P s) : P (State.moveTask s j u task k c b ok' oc) := by
  unfold State.moveTask; try dsimp only
  with_reducible repeat' first | assumption | (apply cl_freeSlot hP) | (apply cl_clearMooring hP) | (apply cl_putCtx hP) | (apply cl_setRun hP) | (apply cl_countFar hP) | (apply cl_restartStreams hP) | (apply Quiet.put hP) | ((apply Quiet.mk' hP); first | assumption | (apply cl_freeSlot hP) | (apply cl_clearMooring hP) | (apply cl_putCtx hP) | (apply cl_setRun hP) | (apply cl_countFar hP) | (apply cl_restartStreams hP) | (apply Quiet.put hP) | split) | ((apply Quiet.mk' hP); (apply Quiet.mk' hP); first | assumption | (apply cl_freeSlot hP) | (apply cl_clearMooring hP) | (apply cl_putCtx hP) | (apply cl_setRun hP) | (apply cl_countFar hP) | (apply cl_restartStreams hP) | (apply Quiet.put hP) | split) | split

theorem cl_execTaskRestart (hP : Closed P) (job unit task kiln slot base slots : Nat) (s : State) (hs : P s) : OutP P (execTaskRestart job unit task kiln slot base slots s) := by
  unfold execTaskRestart; try dsimp only
  with_reducible repeat' first | assumption | (apply cl_ok hP.toQuiet) | (apply cl_endJob hP) | (apply cl_putJob hP.toQuiet) | (apply cl_moveTask hP.toQuiet) | (apply Quiet.put hP.toQuiet) | ((apply Quiet.mk' hP.toQuiet); first | assumption | (apply cl_ok hP.toQuiet) | (apply cl_endJob hP) | (apply cl_putJob hP.toQuiet) | (apply cl_moveTask hP.toQuiet) | (apply Quiet.put hP.toQuiet) | split) | ((apply Quiet.mk' hP.toQuiet); (apply Quiet.mk' hP.toQuiet); first | assumption | (apply cl_ok hP.toQuiet) | (apply cl_endJob hP) | (apply cl_putJob hP.toQuiet) | (apply cl_moveTask hP.toQuiet) | (apply Quiet.put hP.toQuiet) | split) | split | (intro _ _) | (intro _) | (apply OutP.ok) | (apply OutP.next)

theorem cl_execNoswitchViolation (hP : Closed P) (kiln slot : Nat) (s : State) (hs : P s) : OutP P (execNoswitchViolation kiln slot s) := by
  unfold execNoswitchViolation; try dsimp only
  with_reducible repeat' first | assumption | (apply cl_ok hP.toQuiet) | (apply cl_freezeTask hP) | (apply Quiet.put hP.toQuiet) | split | (apply OutP.ok) | (apply OutP.next)

theorem cl_scramble (hP : Closed P) (s : State) (a n : Nat) (hs : P s) : P (State.scramble s a n) := hP.scramble s a n hs

theorem cl_evictTask (hP : Closed P) (s : State) (k c f : Nat) (hs : P s) : P (State.evictTask s k c f) := by
  unfold State.evictTask; try dsimp only
  with_reducible repeat' first | assumption | (apply cl_restartStreams hP.toQuiet) | (apply cl_scramble hP) | (apply cl_freeSlot hP.toQuiet) | (apply cl_setRun hP.toQuiet) | (apply cl_inc hP.toQuiet) | (apply Quiet.put hP.toQuiet) | ((apply Quiet.mk' hP.toQuiet); first | assumption | (apply cl_restartStreams hP.toQuiet) | (apply cl_scramble hP) | (apply cl_freeSlot hP.toQuiet) | (apply cl_setRun hP.toQuiet) | (apply cl_inc hP.toQuiet) | (apply Quiet.put hP.toQuiet) | split) | ((apply Quiet.mk' hP.toQuiet); (apply Quiet.mk' hP.toQuiet); first | assumption | (apply cl_restartStreams hP.toQuiet) | (apply cl_scramble hP) | (apply cl_freeSlot hP.toQuiet) | (apply cl_setRun hP.toQuiet) | (apply cl_inc hP.toQuiet) | (apply Quiet.put hP.toQuiet) | split) | split

theorem cl_loadWaiting (hP : Quiet P) (s : State) (past : List EvictedTask) (k c : Nat) (hs : P s) : P (State.loadWaiting s past k c) := by
  unfold State.loadWaiting
  with_reducible repeat' first | assumption | (apply cl_countFar hP) | (apply cl_loadTask hP) | (apply Quiet.put hP) | split | (intro _ _) | (intro _)

theorem cl_execTaskEvict (hP : Closed P) (kiln : Nat) (s : State) (hs : P s) : OutP P (execTaskEvict kiln s) := by
  unfold execTaskEvict
  with_reducible repeat' first | assumption | (apply cl_ok hP.toQuiet) | (apply cl_evictTask hP) | (apply cl_loadWaiting hP.toQuiet) | (apply cl_inc hP.toQuiet) | (apply Quiet.put hP.toQuiet) | split | (intro _ _) | (intro _) | (apply OutP.ok) | (apply OutP.next)

theorem cl_restoreTask (hP : Quiet P) (s : State) (e : EvictedTask) (k c b : Nat) (hs : P s) : P (State.restoreTask s e k c b) := by
  unfold State.restoreTask; try dsimp only
  with_reducible repeat' first | assumption | (apply cl_clearMooring hP) | (apply cl_putCtx hP) | (apply cl_countFar hP) | (apply cl_setRun hP) | (apply cl_placeCatchUps hP) | (apply Quiet.put hP) | ((apply Quiet.mk' hP); first | assumption | (apply cl_clearMooring hP) | (apply cl_putCtx hP) | (apply cl_countFar hP) | (apply cl_setRun hP) | (apply cl_placeCatchUps hP) | (apply Quiet.put hP) | split) | ((apply Quiet.mk' hP); (apply Quiet.mk' hP); first | assumption | (apply cl_clearMooring hP) | (apply cl_putCtx hP) | (apply cl_countFar hP) | (apply cl_setRun hP) | (apply cl_placeCatchUps hP) | (apply Quiet.put hP) | split) | split | (intro _ _) | (intro _)

theorem cl_execEvictedTaskReturn (hP : Quiet P) (job unit task kiln slot base slots : Nat) (s : State) (hs : P s) : OutP P (execEvictedTaskReturn job unit task kiln slot base slots s) := by
  unfold execEvictedTaskReturn
  with_reducible repeat' first | assumption | (apply cl_ok hP) | (apply cl_restoreTask hP) | (apply Quiet.put hP) | split | (intro _ _) | (intro _) | (apply OutP.ok) | (apply OutP.next)

end Sys2Proof.Laws
end

