-- ==== Sys2Proof/Laws/KeepsConsign.lean ====
section
/-! SUPPORT. What the functions of Machine/Consign.lean keep: see Laws/Closed.lean. -/

set_option linter.unusedTactic false
set_option linter.unreachableTactic false

namespace Sys2Proof.Laws

open Sys2Proof.Machine

variable {P : State → Prop}

theorem cl_sendVc0 (hP : Quiet P) (s : State) (dst : Nat) (m : Net) (hs : P s) : P (State.sendVc0 s dst m) := by
  unfold State.sendVc0
  with_reducible repeat' first | assumption | (apply cl_send hP) | (apply Quiet.put hP) | ((apply Quiet.mk' hP); first | assumption | (apply cl_send hP) | (apply Quiet.put hP) | split) | ((apply Quiet.mk' hP); (apply Quiet.mk' hP); first | assumption | (apply cl_send hP) | (apply Quiet.put hP) | split) | split

theorem cl_tableInMemory (hP : Closed P) (s : State) (t : Nat) (hs : P s) : ExSndP P (State.tableInMemory s t) := by
  unfold State.tableInMemory
  with_reducible repeat' first | assumption | (apply cl_ok hP.toQuiet) | (apply cl_read hP) | (refine atExSndP ?_ (by assumption); apply cl_read hP) | (apply Quiet.put hP.toQuiet) | ((apply Quiet.mk' hP.toQuiet); first | assumption | (apply cl_ok hP.toQuiet) | (apply cl_read hP) | (refine atExSndP ?_ (by assumption); apply cl_read hP) | (apply Quiet.put hP.toQuiet) | split) | ((apply Quiet.mk' hP.toQuiet); (apply Quiet.mk' hP.toQuiet); first | assumption | (apply cl_ok hP.toQuiet) | (apply cl_read hP) | (refine atExSndP ?_ (by assumption); apply cl_read hP) | (apply Quiet.put hP.toQuiet) | split) | split | (apply ExSndP.ok) | (exact ExSndP.error)

theorem cl_groupInMemory (hP : Closed P) (s : State) (g : Nat) (hs : P s) : ExSndP P (State.groupInMemory s g) := by
  unfold State.groupInMemory
  with_reducible repeat' first | assumption | (apply cl_ok hP.toQuiet) | (apply cl_read hP) | (refine atExSndP ?_ (by assumption); apply cl_read hP) | (apply Quiet.put hP.toQuiet) | ((apply Quiet.mk' hP.toQuiet); first | assumption | (apply cl_ok hP.toQuiet) | (apply cl_read hP) | (refine atExSndP ?_ (by assumption); apply cl_read hP) | (apply Quiet.put hP.toQuiet) | split) | ((apply Quiet.mk' hP.toQuiet); (apply Quiet.mk' hP.toQuiet); first | assumption | (apply cl_ok hP.toQuiet) | (apply cl_read hP) | (refine atExSndP ?_ (by assumption); apply cl_read hP) | (apply Quiet.put hP.toQuiet) | split) | split | (apply ExSndP.ok) | (exact ExSndP.error)

theorem cl_putCons (hP : Quiet P) (s : State) (x : Cons) (hs : P s) : P (State.putCons s x) := by
  unfold State.putCons
  with_reducible repeat' first | assumption | (apply Quiet.put hP) | ((apply Quiet.mk' hP); first | assumption | (apply Quiet.put hP) | split) | ((apply Quiet.mk' hP); (apply Quiet.mk' hP); first | assumption | (apply Quiet.put hP) | split) | split | (intro _ _) | (intro _)

theorem cl_undoOne (hP : Closed P) (s : State) (u : Undo) (hs : P s) : P (State.undoOne s u) := by
  unfold State.undoOne
  with_reducible repeat' first | assumption | (apply cl_devWrite hP) | (apply cl_putTable hP.toQuiet) | (apply Quiet.put hP.toQuiet) | ((apply Quiet.mk' hP.toQuiet); first | assumption | (apply cl_devWrite hP) | (apply cl_putTable hP.toQuiet) | (apply Quiet.put hP.toQuiet) | split) | ((apply Quiet.mk' hP.toQuiet); (apply Quiet.mk' hP.toQuiet); first | assumption | (apply cl_devWrite hP) | (apply cl_putTable hP.toQuiet) | (apply Quiet.put hP.toQuiet) | split) | split

theorem cl_dropHeld (hP : Quiet P) (s : State) (c : Cons) (hs : P s) : P (State.dropHeld s c) := by
  unfold State.dropHeld; try dsimp only
  with_reducible repeat' first | assumption | (apply cl_putModel hP) | (apply Quiet.put hP) | ((apply Quiet.mk' hP); first | assumption | (apply cl_putModel hP) | (apply Quiet.put hP) | (apply cl_foldl) | split) | ((apply Quiet.mk' hP); (apply Quiet.mk' hP); first | assumption | (apply cl_putModel hP) | (apply Quiet.put hP) | (apply cl_foldl) | split) | split | (apply cl_foldl) | (intro _ _) | (intro _)

theorem cl_dropCopy (hP : Quiet P) (s : State) (c : Cons) (hs : P s) : P (State.dropCopy s c) := by
  unfold State.dropCopy
  with_reducible repeat' first | assumption | (apply cl_freeStream hP) | (apply Quiet.put hP) | split | (apply cl_foldl) | (intro _ _) | (intro _)

theorem cl_rollback (hP : Closed P) (s : State) (c : Cons) (hs : P s) : P (State.rollback s c) := by
  unfold State.rollback; try dsimp only
  with_reducible repeat' first | assumption | (apply cl_undoOne hP) | (apply cl_dropCopy hP.toQuiet) | (apply cl_putCons hP.toQuiet) | (apply cl_dropHeld hP.toQuiet) | (apply Quiet.put hP.toQuiet) | ((apply Quiet.mk' hP.toQuiet); first | assumption | (apply cl_undoOne hP) | (apply cl_dropCopy hP.toQuiet) | (apply cl_putCons hP.toQuiet) | (apply cl_dropHeld hP.toQuiet) | (apply Quiet.put hP.toQuiet) | (apply cl_foldl) | split) | ((apply Quiet.mk' hP.toQuiet); (apply Quiet.mk' hP.toQuiet); first | assumption | (apply cl_undoOne hP) | (apply cl_dropCopy hP.toQuiet) | (apply cl_putCons hP.toQuiet) | (apply cl_dropHeld hP.toQuiet) | (apply Quiet.put hP.toQuiet) | (apply cl_foldl) | split) | split | (apply cl_foldl) | (intro _ _) | (intro _)

theorem cl_consRecord (hP : Closed P) (s : State) (j : Job) (kind status id : Nat) (hs : P s) : P (State.consRecord s j kind status id) := by
  unfold State.consRecord
  with_reducible repeat' first | assumption | (apply cl_postRecord hP) | (apply Quiet.put hP.toQuiet) | split

theorem cl_consEnds (hP : Closed P) (s : State) (c : Cons) (status : Nat) (hs : P s) : P (State.consEnds s c status) := by
  unfold State.consEnds; try dsimp only
  with_reducible repeat' first | assumption | (apply cl_inc hP.toQuiet) | (apply cl_consRecord hP) | (apply cl_dropJob hP.toQuiet) | (apply Quiet.put hP.toQuiet) | ((apply Quiet.mk' hP.toQuiet); first | assumption | (apply cl_inc hP.toQuiet) | (apply cl_consRecord hP) | (apply cl_dropJob hP.toQuiet) | (apply Quiet.put hP.toQuiet) | split) | ((apply Quiet.mk' hP.toQuiet); (apply Quiet.mk' hP.toQuiet); first | assumption | (apply cl_inc hP.toQuiet) | (apply cl_consRecord hP) | (apply cl_dropJob hP.toQuiet) | (apply Quiet.put hP.toQuiet) | split) | split | (intro _ _) | (intro _)

theorem cl_sendVote (hP : Quiet P) (s : State) (c : Cons) (status : Nat) (hs : P s) : P (State.sendVote s c status) := by
  unfold State.sendVote; try dsimp only
  with_reducible repeat' first | assumption | (apply cl_putCons hP) | (apply cl_sendVc0 hP) | (apply Quiet.put hP) | ((apply Quiet.mk' hP); first | assumption | (apply cl_putCons hP) | (apply cl_sendVc0 hP) | (apply Quiet.put hP) | split) | ((apply Quiet.mk' hP); (apply Quiet.mk' hP); first | assumption | (apply cl_putCons hP) | (apply cl_sendVc0 hP) | (apply Quiet.put hP) | split) | split

theorem cl_prepareFails (hP : Closed P) (s : State) (id status : Nat) (hs : P s) : P (State.prepareFails s id status) := by
  unfold State.prepareFails; try dsimp only
  with_reducible repeat' first | assumption | (apply cl_rollback hP) | (apply cl_sendVote hP.toQuiet) | (apply cl_consEnds hP) | (apply Quiet.put hP.toQuiet) | split

theorem cl_changeEntry (hP : Closed P) (s : State) (c : Cons) (t a : Nat) (m : MapEntry) (page : Nat) (hs : P s) : FstP P (State.changeEntry s c t a m page) := by
  unfold State.changeEntry; try dsimp only
  with_reducible repeat' first | assumption | (apply cl_devWrite hP) | (apply Quiet.put hP.toQuiet) | ((apply Quiet.mk' hP.toQuiet); first | assumption | (apply cl_devWrite hP) | (apply Quiet.put hP.toQuiet) | split) | ((apply Quiet.mk' hP.toQuiet); (apply Quiet.mk' hP.toQuiet); first | assumption | (apply cl_devWrite hP) | (apply Quiet.put hP.toQuiet) | split) | split | (apply FstP.mk)

theorem cl_haltCopy (hP : Closed P) (s : State) (c : Cons) (e : AccErr) (a : Nat) (hs : P s) : P (State.haltCopy s c e a) := by
  unfold State.haltCopy; try dsimp only
  with_reducible repeat' first | assumption | (apply cl_putStream hP.toQuiet) | (apply cl_putCons hP.toQuiet) | (apply cl_postEvent hP) | (apply Quiet.put hP.toQuiet) | ((apply Quiet.mk' hP.toQuiet); first | assumption | (apply cl_putStream hP.toQuiet) | (apply cl_putCons hP.toQuiet) | (apply cl_postEvent hP) | (apply Quiet.put hP.toQuiet) | split) | ((apply Quiet.mk' hP.toQuiet); (apply Quiet.mk' hP.toQuiet); first | assumption | (apply cl_putStream hP.toQuiet) | (apply cl_putCons hP.toQuiet) | (apply cl_postEvent hP) | (apply Quiet.put hP.toQuiet) | split) | split

/-- P holds of the state of an action's work that is done. -/
def WorkP (P : State → Prop) (w : Work) : Prop := ∀ t c, w = .done t c → P t

theorem WorkP.done {s : State} {c : Cons} (h : P s) : WorkP P (.done s c) := by intro t d e; cases e; exact h
theorem WorkP.wait : WorkP P .wait := by intro t d e; cases e
theorem WorkP.fails {n : Nat} : WorkP P (.fails n) := by intro t d e; cases e
theorem WorkP.halts {e : AccErr} {a : Nat} : WorkP P (.halts e a) := by intro t d h; cases h
theorem WorkP.copyFails (a : Nat) (e : AccErr) : WorkP P (copyFails a e) := by
  unfold Machine.copyFails
  split
  · exact WorkP.fails
  · exact WorkP.fails
  · exact WorkP.wait
  · exact WorkP.halts

theorem cl_copyTo (hP : Closed P) (s : State) (d : Nat) (bs : List Byte) (k : State → Work) (hk : ∀ t, P t → WorkP P (k t)) (hs : P s) :
    WorkP P (s.copyTo d bs k) := by
  unfold State.copyTo
  split
  · rename_i t e; exact hk _ (cl_write hP _ _ _ _ hs _ e)
  · exact WorkP.copyFails _ _

theorem cl_pageWritePage (hP : Closed P) (s : State) (c : Cons) (t l d src : Nat) (hs : P s) : WorkP P (s.pageWritePage c t l d src) := by
  unfold State.pageWritePage
  dsimp only
  split
  · exact WorkP.copyFails _ _
  · rename_i bs u e
    have hu : P u := cl_read hP _ _ _ _ hs _ _ e
    split
    · exact WorkP.fails
    · split
      · exact WorkP.done (cl_changeEntry hP _ _ _ _ _ _ hu)
      · split
        · exact WorkP.copyFails _ _
        · rename_i p v e2
          exact cl_copyTo hP _ _ _ _ (fun t ht => WorkP.done (cl_changeEntry hP _ _ _ _ _ _ ht)) (cl_read hP _ _ _ _ hu _ _ e2)

theorem cl_parityDeltaPage (hP : Closed P) (s : State) (c : Cons) (t l d src : Nat) (hs : P s) : WorkP P (s.parityDeltaPage c t l d src) := by
  unfold State.parityDeltaPage
  dsimp only
  split
  · exact WorkP.copyFails _ _
  · exact WorkP.copyFails _ _
  · rename_i bs u delta v e1 e2
    have hu : P u := cl_read hP _ _ _ _ hs _ _ e1
    split
    · split
      · exact WorkP.copyFails _ _
      · rename_i old w e3
        exact cl_copyTo hP _ _ _ _ (fun t ht => WorkP.done ht) (cl_read hP _ _ _ _ hu _ _ e3)
    · split
      · exact WorkP.fails
      · split
        · exact WorkP.copyFails _ _
        · rename_i old w e3
          have hw : P w := by
            split at e3
            · exact cl_read hP _ _ _ _ hu _ _ e3
            · cases e3; exact hu
          exact cl_copyTo hP _ _ _ _ (fun t ht => WorkP.done (cl_changeEntry hP _ _ _ _ _ _ ht)) hw

theorem cl_eachPage (f : State → Cons → Nat → Nat → Nat → Work) (hf : ∀ s c a b d, P s → WorkP P (f s c a b d)) (s : State) (c : Cons)
    (l : List (Nat × Nat × Nat)) (hs : P s) : WorkP P (State.eachPage f s c l) := by
  induction l generalizing s c with
  | nil => exact WorkP.done hs
  | cons p l ih =>
    unfold State.eachPage
    split
    · rename_i t d e; exact ih _ _ (hf _ _ _ _ _ hs _ _ e)
    · rename_i h; intro t d e; exact absurd e (h t d)

theorem cl_swapBlocks (hP : Closed P) (s : State) (c : Cons) (m off : Nat) (new : List Byte) (l : List Nat) (hs : P s) :
    WorkP P (State.swapBlocks s c m off new l) := by
  induction l generalizing s c with
  | nil => exact WorkP.done hs
  | cons b l ih =>
    unfold State.swapBlocks
    dsimp only
    split
    · exact WorkP.copyFails _ _
    · rename_i bs u e
      have hu : P u := by
        split at e
        · cases e; exact hs
        · exact cl_storeBlock hP _ _ _ _ hs _ _ e
      split
      · exact WorkP.fails
      · apply ih
        split
        · exact cl_writeBlock hP _ _ _ hu
        · exact hu

theorem cl_loadHeld (hP : Closed P) (s : State) (c : Cons) (m : Nat) (l : List (Nat × Nat)) (hs : P s) : WorkP P (State.loadHeld s c m l) := by
  induction l generalizing s c with
  | nil => exact WorkP.done hs
  | cons p l ih =>
    unfold State.loadHeld
    dsimp only
    split
    · exact WorkP.copyFails _ _
    · rename_i bs u e
      exact ih _ _ (cl_putModel hP.toQuiet _ _ _ (cl_writeBlock hP _ _ _ (cl_storeBlock hP _ _ _ _ hs _ _ e)))

theorem cl_actionWork (hP : Closed P) (s : State) (c : Cons) (a : Machine.Action) (hs : P s) : WorkP P (s.actionWork c a) := by
  unfold State.actionWork
  split
  · exact cl_eachPage _ (fun s c a b d h => cl_pageWritePage hP _ _ _ _ _ _ h) _ _ _ hs
  · exact cl_eachPage _ (fun s c a b d h => cl_parityDeltaPage hP _ _ _ _ _ _ h) _ _ _ hs
  · unfold State.rootSetWork
    dsimp only
    split
    · exact WorkP.fails
    · exact WorkP.done (cl_putTable hP.toQuiet _ _ _ hs)
  · unfold State.rescaleSwapWork
    dsimp only
    split
    · exact WorkP.fails
    · split
      · exact WorkP.wait
      · split
        · exact WorkP.copyFails _ _
        · rename_i new u e; exact cl_swapBlocks hP _ _ _ _ _ _ (cl_read hP _ _ _ _ hs _ _ e)
  · unfold State.pinWork
    dsimp only
    split
    · exact WorkP.fails
    · split
      · exact WorkP.wait
      · split
        · exact WorkP.fails
        · exact cl_loadHeld hP _ _ _ _ hs
  · split
    · exact WorkP.fails
    · exact WorkP.done hs

theorem cl_perform (hP : Closed P) (s : State) (id : Nat) (kind : Machine.Action → Bool) (hs : P s) : P (s.perform id kind) := by
  unfold State.perform
  split
  · exact hs
  · rename_i c hc
    split
    · rename_i a h1 h2
      split
      · exact hs
      · split
        · exact cl_prepareFails hP _ _ _ hs
        · split
          · rename_i t c' e; exact cl_putCons hP.toQuiet _ _ (cl_actionWork hP _ _ _ hs _ _ e)
          · exact hs
          · exact cl_prepareFails hP _ _ _ hs
          · exact cl_haltCopy hP _ _ _ _ hs
    · exact hs

theorem cl_beginPrepare (hP : Closed P) (s : State) (id : Nat) (hs : P s) : P (State.beginPrepare s id) := by
  unfold State.beginPrepare
  with_reducible repeat' first | assumption | (apply cl_putCons hP.toQuiet) | (apply cl_prepareFails hP) | (apply Quiet.put hP.toQuiet) | ((apply Quiet.mk' hP.toQuiet); first | assumption | (apply cl_putCons hP.toQuiet) | (apply cl_prepareFails hP) | (apply Quiet.put hP.toQuiet) | split) | ((apply Quiet.mk' hP.toQuiet); (apply Quiet.mk' hP.toQuiet); first | assumption | (apply cl_putCons hP.toQuiet) | (apply cl_prepareFails hP) | (apply Quiet.put hP.toQuiet) | split) | split | (intro _ _) | (intro _)

theorem cl_execConsignmentPrepare (hP : Closed P) (cons : Nat) (s : State) (hs : P s) : OutP P (execConsignmentPrepare cons s) := by
  unfold execConsignmentPrepare
  with_reducible repeat' first | assumption | (apply cl_ok hP.toQuiet) | (apply cl_beginPrepare hP) | (apply Quiet.put hP.toQuiet) | split | (apply OutP.ok) | (apply OutP.next)

theorem cl_execPageWrite (hP : Closed P) (cons : Nat) (s : State) (hs : P s) : OutP P (execPageWrite cons s) := by
  unfold execPageWrite
  with_reducible repeat' first | assumption | (apply cl_ok hP.toQuiet) | (apply cl_perform hP) | (apply Quiet.put hP.toQuiet) | split | (intro _ _) | (intro _) | (apply OutP.ok) | (apply OutP.next)

theorem cl_execParityDelta (hP : Closed P) (cons : Nat) (s : State) (hs : P s) : OutP P (execParityDelta cons s) := by
  unfold execParityDelta
  with_reducible repeat' first | assumption | (apply cl_ok hP.toQuiet) | (apply cl_perform hP) | (apply Quiet.put hP.toQuiet) | split | (intro _ _) | (intro _) | (apply OutP.ok) | (apply OutP.next)

theorem cl_execRootSet (hP : Closed P) (cons : Nat) (s : State) (hs : P s) : OutP P (execRootSet cons s) := by
  unfold execRootSet
  with_reducible repeat' first | assumption | (apply cl_ok hP.toQuiet) | (apply cl_perform hP) | (apply Quiet.put hP.toQuiet) | split | (intro _ _) | (intro _) | (apply OutP.ok) | (apply OutP.next)

theorem cl_execRescaleSwap (hP : Closed P) (cons : Nat) (s : State) (hs : P s) : OutP P (execRescaleSwap cons s) := by
  unfold execRescaleSwap
  with_reducible repeat' first | assumption | (apply cl_ok hP.toQuiet) | (apply cl_perform hP) | (apply Quiet.put hP.toQuiet) | split | (intro _ _) | (intro _) | (apply OutP.ok) | (apply OutP.next)

theorem cl_execPin (hP : Closed P) (cons : Nat) (s : State) (hs : P s) : OutP P (execPin cons s) := by
  unfold execPin
  with_reducible repeat' first | assumption | (apply cl_ok hP.toQuiet) | (apply cl_perform hP) | (apply Quiet.put hP.toQuiet) | split | (intro _ _) | (intro _) | (apply OutP.ok) | (apply OutP.next)

theorem cl_execUnpin (hP : Closed P) (cons : Nat) (s : State) (hs : P s) : OutP P (execUnpin cons s) := by
  unfold execUnpin
  with_reducible repeat' first | assumption | (apply cl_ok hP.toQuiet) | (apply cl_perform hP) | (apply Quiet.put hP.toQuiet) | split | (intro _ _) | (intro _) | (apply OutP.ok) | (apply OutP.next)

theorem cl_prepareDone (hP : Closed P) (s : State) (id : Nat) (hs : P s) : P (State.prepareDone s id) := by
  unfold State.prepareDone; try dsimp only
  with_reducible repeat' first | assumption | (apply cl_putJob hP.toQuiet) | (apply cl_prepareFails hP) | (apply cl_sendVote hP.toQuiet) | (apply cl_putCons hP.toQuiet) | (apply Quiet.put hP.toQuiet) | ((apply Quiet.mk' hP.toQuiet); first | assumption | (apply cl_putJob hP.toQuiet) | (apply cl_prepareFails hP) | (apply cl_sendVote hP.toQuiet) | (apply cl_putCons hP.toQuiet) | (apply Quiet.put hP.toQuiet) | split) | ((apply Quiet.mk' hP.toQuiet); (apply Quiet.mk' hP.toQuiet); first | assumption | (apply cl_putJob hP.toQuiet) | (apply cl_prepareFails hP) | (apply cl_sendVote hP.toQuiet) | (apply cl_putCons hP.toQuiet) | (apply Quiet.put hP.toQuiet) | split) | split | (intro _ _) | (intro _)

theorem cl_execPrepareDone (hP : Closed P) (cons : Nat) (s : State) (hs : P s) : OutP P (execPrepareDone cons s) := by
  unfold execPrepareDone
  with_reducible repeat' first | assumption | (apply cl_ok hP.toQuiet) | (apply cl_prepareDone hP) | (apply Quiet.put hP.toQuiet) | split | (apply OutP.ok) | (apply OutP.next)

theorem cl_execPrepareTimeout (hP : Closed P) (cons : Nat) (s : State) (hs : P s) : OutP P (execPrepareTimeout cons s) := by
  unfold execPrepareTimeout
  with_reducible repeat' first | assumption | (apply cl_ok hP.toQuiet) | (apply cl_prepareFails hP) | (apply Quiet.put hP.toQuiet) | split | (apply OutP.ok) | (apply OutP.next)

theorem cl_swapIn (hP : Closed P) (s : State) (m : Nat) (w : Nat × List Byte × Option Nat) (hs : P s) : P (State.swapIn s m w) := by
  unfold State.swapIn; try dsimp only
  with_reducible repeat' first | assumption | (apply cl_putModel hP.toQuiet) | (apply cl_loseBlocks hP) | (apply cl_writeBlock hP) | (apply Quiet.put hP.toQuiet) | ((apply Quiet.mk' hP.toQuiet); first | assumption | (apply cl_putModel hP.toQuiet) | (apply cl_loseBlocks hP) | (apply cl_writeBlock hP) | (apply Quiet.put hP.toQuiet) | split) | ((apply Quiet.mk' hP.toQuiet); (apply Quiet.mk' hP.toQuiet); first | assumption | (apply cl_putModel hP.toQuiet) | (apply cl_loseBlocks hP) | (apply cl_writeBlock hP) | (apply Quiet.put hP.toQuiet) | split) | split | (intro _ _) | (intro _)

theorem cl_commitSwap (hP : Closed P) (s : State) (c : Cons) (m : Nat) (hs : P s) : P (State.commitSwap s c m) := by
  unfold State.commitSwap; try dsimp only
  with_reducible repeat' first | assumption | (apply cl_setModel hP) | (apply cl_swapIn hP) | (apply Quiet.put hP.toQuiet) | ((apply Quiet.mk' hP.toQuiet); first | assumption | (apply cl_setModel hP) | (apply cl_swapIn hP) | (apply Quiet.put hP.toQuiet) | (apply cl_foldl) | split) | ((apply Quiet.mk' hP.toQuiet); (apply Quiet.mk' hP.toQuiet); first | assumption | (apply cl_setModel hP) | (apply cl_swapIn hP) | (apply Quiet.put hP.toQuiet) | (apply cl_foldl) | split) | split | (apply cl_foldl) | (intro _ _) | (intro _)

theorem cl_commitPin (hP : Quiet P) (s : State) (a : Action) (hs : P s) : P (State.commitPin s a) := by
  unfold State.commitPin; try dsimp only
  with_reducible repeat' first | assumption | (apply cl_putModel hP) | (apply Quiet.put hP) | ((apply Quiet.mk' hP); first | assumption | (apply cl_putModel hP) | (apply Quiet.put hP) | split) | ((apply Quiet.mk' hP); (apply Quiet.mk' hP); first | assumption | (apply cl_putModel hP) | (apply Quiet.put hP) | split) | split | (intro _ _) | (intro _)

theorem cl_closeRetiring (hP : Closed P) (s : State) (id : Nat) (hs : P s) : P (State.closeRetiring s id) := by
  unfold State.closeRetiring; try dsimp only
  with_reducible repeat' first | assumption | (apply cl_consRecord hP) | (apply cl_dropJob hP.toQuiet) | (apply Quiet.put hP.toQuiet) | ((apply Quiet.mk' hP.toQuiet); first | assumption | (apply cl_consRecord hP) | (apply cl_dropJob hP.toQuiet) | (apply Quiet.put hP.toQuiet) | split) | ((apply Quiet.mk' hP.toQuiet); (apply Quiet.mk' hP.toQuiet); first | assumption | (apply cl_consRecord hP) | (apply cl_dropJob hP.toQuiet) | (apply Quiet.put hP.toQuiet) | split) | split | (intro _ _) | (intro _)

theorem cl_commitCons (hP : Closed P) (s : State) (c : Cons) (hs : P s) : P (State.commitCons s c) := by
  unfold State.commitCons; try dsimp only
  with_reducible repeat' first | assumption | (apply cl_commitSwap hP) | (apply cl_commitPin hP.toQuiet) | (apply cl_inc hP.toQuiet) | (apply cl_consRecord hP) | (apply cl_putJob hP.toQuiet) | (apply cl_closeRetiring hP) | (apply Quiet.put hP.toQuiet) | ((apply Quiet.mk' hP.toQuiet); first | assumption | (apply cl_commitSwap hP) | (apply cl_commitPin hP.toQuiet) | (apply cl_inc hP.toQuiet) | (apply cl_consRecord hP) | (apply cl_putJob hP.toQuiet) | (apply cl_closeRetiring hP) | (apply Quiet.put hP.toQuiet) | (apply cl_foldl) | split) | ((apply Quiet.mk' hP.toQuiet); (apply Quiet.mk' hP.toQuiet); first | assumption | (apply cl_commitSwap hP) | (apply cl_commitPin hP.toQuiet) | (apply cl_inc hP.toQuiet) | (apply cl_consRecord hP) | (apply cl_putJob hP.toQuiet) | (apply cl_closeRetiring hP) | (apply Quiet.put hP.toQuiet) | (apply cl_foldl) | split) | split | (apply cl_foldl) | (intro _ _) | (intro _)

theorem cl_commitLocals (hP : Closed P) (s : State) (hs : P s) : P (State.commitLocals s) := by
  unfold State.commitLocals
  with_reducible repeat' first | assumption | (apply cl_commitCons hP) | (apply Quiet.put hP.toQuiet) | split | (apply cl_foldl) | (intro _ _) | (intro _)

theorem cl_advanceEpoch (hP : Quiet P) (s : State) (p : Nat × Nat) (hs : P s) : P (State.advanceEpoch s p) := by
  unfold State.advanceEpoch; try dsimp only
  with_reducible repeat' first | assumption | (apply cl_putTable hP) | (apply cl_putMaster hP) | (apply Quiet.put hP) | ((apply Quiet.mk' hP); first | assumption | (apply cl_putTable hP) | (apply cl_putMaster hP) | (apply Quiet.put hP) | split) | ((apply Quiet.mk' hP); (apply Quiet.mk' hP); first | assumption | (apply cl_putTable hP) | (apply cl_putMaster hP) | (apply Quiet.put hP) | split) | split

theorem cl_applyNotice (hP : Quiet P) (s : State) (d : Decision) (hs : P s) : P (State.applyNotice s d) := by
  unfold State.applyNotice; try dsimp only
  with_reducible repeat' first | assumption | (apply cl_advanceEpoch hP) | (apply cl_inc hP) | (apply Quiet.put hP) | ((apply Quiet.mk' hP); first | assumption | (apply cl_advanceEpoch hP) | (apply cl_inc hP) | (apply Quiet.put hP) | (apply cl_foldl) | split) | ((apply Quiet.mk' hP); (apply Quiet.mk' hP); first | assumption | (apply cl_advanceEpoch hP) | (apply cl_inc hP) | (apply Quiet.put hP) | (apply cl_foldl) | split) | split | (apply cl_foldl) | (intro _ _) | (intro _)

theorem cl_sendAck (hP : Quiet P) (s : State) (cons group : Nat) (hs : P s) : P (State.sendAck s cons group) := by
  unfold State.sendAck
  with_reducible repeat' first | assumption | (apply cl_sendVc0 hP) | (apply Quiet.put hP) | split

theorem cl_commitGroups (hP : Closed P) (s : State) (hs : P s) : P (State.commitGroups s) := by
  unfold State.commitGroups; try dsimp only
  with_reducible repeat' first | assumption | (apply cl_applyNotice hP.toQuiet) | (apply cl_commitCons hP) | (apply cl_sendAck hP.toQuiet) | (apply Quiet.put hP.toQuiet) | ((apply Quiet.mk' hP.toQuiet); first | assumption | (apply cl_applyNotice hP.toQuiet) | (apply cl_commitCons hP) | (apply cl_sendAck hP.toQuiet) | (apply Quiet.put hP.toQuiet) | (apply cl_foldl) | split) | ((apply Quiet.mk' hP.toQuiet); (apply Quiet.mk' hP.toQuiet); first | assumption | (apply cl_applyNotice hP.toQuiet) | (apply cl_commitCons hP) | (apply cl_sendAck hP.toQuiet) | (apply Quiet.put hP.toQuiet) | (apply cl_foldl) | split) | split | (apply cl_foldl) | (intro _ _) | (intro _)

theorem cl_putBox (hP : Quiet P) (s : State) (b : VoteBox) (hs : P s) : P (State.putBox s b) := by
  unfold State.putBox
  with_reducible repeat' first | assumption | (apply Quiet.put hP) | ((apply Quiet.mk' hP); first | assumption | (apply Quiet.put hP) | split) | ((apply Quiet.mk' hP); (apply Quiet.mk' hP); first | assumption | (apply Quiet.put hP) | split) | split | (intro _ _) | (intro _)

theorem cl_takeVote (hP : Quiet P) (s : State) (v : Vote) (hs : P s) : P (State.takeVote s v) := by
  unfold State.takeVote; try dsimp only
  with_reducible repeat' first | assumption | (apply cl_putBox hP) | (apply cl_sendVc0 hP) | (apply Quiet.put hP) | ((apply Quiet.mk' hP); first | assumption | (apply cl_putBox hP) | (apply cl_sendVc0 hP) | (apply Quiet.put hP) | split) | ((apply Quiet.mk' hP); (apply Quiet.mk' hP); first | assumption | (apply cl_putBox hP) | (apply cl_sendVc0 hP) | (apply Quiet.put hP) | split) | split | (intro _ _) | (intro _)

theorem cl_execVote (hP : Quiet P) (vote : Vote) (s : State) (hs : P s) : OutP P (execVote vote s) := by
  unfold execVote
  with_reducible repeat' first | assumption | (apply cl_ok hP) | (apply cl_takeVote hP) | (apply Quiet.put hP) | split | (apply OutP.ok) | (apply OutP.next)

theorem cl_keepMaster (hP : Quiet P) (s : State) (x : Nat × Nat × Nat) (hs : P s) : P (State.keepMaster s x) := by
  unfold State.keepMaster; try dsimp only
  with_reducible repeat' first | assumption | (apply cl_putMaster hP) | (apply Quiet.put hP) | split

theorem cl_decideBox (hP : Quiet P) (s : State) (b : VoteBox) (status : Nat) (hs : P s) : P (State.decideBox s b status) := by
  unfold State.decideBox; try dsimp only
  with_reducible repeat' first | assumption | (apply cl_keepMaster hP) | (apply cl_putBox hP) | (apply cl_sendVc0 hP) | (apply Quiet.put hP) | ((apply Quiet.mk' hP); first | assumption | (apply cl_keepMaster hP) | (apply cl_putBox hP) | (apply cl_sendVc0 hP) | (apply Quiet.put hP) | (apply cl_foldl) | split) | ((apply Quiet.mk' hP); (apply Quiet.mk' hP); first | assumption | (apply cl_keepMaster hP) | (apply cl_putBox hP) | (apply cl_sendVc0 hP) | (apply Quiet.put hP) | (apply cl_foldl) | split) | split | (apply cl_foldl) | (intro _ _) | (intro _)

theorem cl_decideAll (hP : Quiet P) (s : State) (hs : P s) : P (State.decideAll s) := by
  unfold State.decideAll
  with_reducible repeat' first | assumption | (apply cl_decideBox hP) | (apply Quiet.put hP) | split | (apply cl_foldl) | (intro _ _) | (intro _)

theorem cl_execVoteTimeout (hP : Quiet P) (cons : Nat) (s : State) (hs : P s) : OutP P (execVoteTimeout cons s) := by
  unfold execVoteTimeout
  with_reducible repeat' first | assumption | (apply cl_ok hP) | (apply cl_decideBox hP) | (apply Quiet.put hP) | split | (apply OutP.ok) | (apply OutP.next)

theorem cl_putLogged (hP : Quiet P) (s : State) (l : Logged) (hs : P s) : P (State.putLogged s l) := by
  unfold State.putLogged
  with_reducible repeat' first | assumption | (apply Quiet.put hP) | ((apply Quiet.mk' hP); first | assumption | (apply Quiet.put hP) | split) | ((apply Quiet.mk' hP); (apply Quiet.mk' hP); first | assumption | (apply Quiet.put hP) | split) | split | (intro _ _) | (intro _)

theorem cl_mirror (hP : Quiet P) (s : State) (hs : P s) : P (State.mirror s) := by
  unfold State.mirror
  with_reducible repeat' first | assumption | (apply cl_sendVc0 hP) | (apply Quiet.put hP) | split

theorem cl_sendNotices (hP : Quiet P) (s : State) (d : Decision) (hs : P s) : P (State.sendNotices s d) := by
  unfold State.sendNotices
  with_reducible repeat' first | assumption | (apply cl_sendVc0 hP) | (apply Quiet.put hP) | split | (apply cl_foldl) | (intro _ _) | (intro _)

theorem cl_logDecision (hP : Quiet P) (s : State) (d : Decision) (voters : List Nat) (hs : P s) : P (State.logDecision s d voters) := by
  unfold State.logDecision; try dsimp only
  with_reducible repeat' first | assumption | (apply cl_mirror hP) | (apply cl_sendVc0 hP) | (apply cl_sendNotices hP) | (apply Quiet.put hP) | ((apply Quiet.mk' hP); first | assumption | (apply cl_mirror hP) | (apply cl_sendVc0 hP) | (apply cl_sendNotices hP) | (apply Quiet.put hP) | (apply cl_foldl) | split) | ((apply Quiet.mk' hP); (apply Quiet.mk' hP); first | assumption | (apply cl_mirror hP) | (apply cl_sendVc0 hP) | (apply cl_sendNotices hP) | (apply Quiet.put hP) | (apply cl_foldl) | split) | split | (apply cl_foldl) | (intro _ _) | (intro _)

theorem cl_takeDecision (hP : Quiet P) (s : State) (d : Decision) (voters : List Nat) (hs : P s) : P (State.takeDecision s d voters) := by
  unfold State.takeDecision; try dsimp only
  with_reducible repeat' first | assumption | (apply cl_sendVc0 hP) | (apply cl_putLogged hP) | (apply cl_logDecision hP) | (apply Quiet.put hP) | ((apply Quiet.mk' hP); first | assumption | (apply cl_sendVc0 hP) | (apply cl_putLogged hP) | (apply cl_logDecision hP) | (apply Quiet.put hP) | (apply cl_foldl) | split) | ((apply Quiet.mk' hP); (apply Quiet.mk' hP); first | assumption | (apply cl_sendVc0 hP) | (apply cl_putLogged hP) | (apply cl_logDecision hP) | (apply Quiet.put hP) | (apply cl_foldl) | split) | split | (apply cl_foldl) | (intro _ _) | (intro _)

theorem cl_execDecisionToPodMaster (hP : Quiet P) (decision : Decision) (voters : List Nat) (s : State) (hs : P s) : OutP P (execDecisionToPodMaster decision voters s) := by
  unfold execDecisionToPodMaster
  with_reducible repeat' first | assumption | (apply cl_ok hP) | (apply cl_takeDecision hP) | (apply Quiet.put hP) | split | (apply OutP.ok) | (apply OutP.next)

theorem cl_pruneLog (hP : Quiet P) (s : State) (hs : P s) : P (State.pruneLog s) := by
  unfold State.pruneLog
  with_reducible repeat' first | assumption | (apply Quiet.put hP) | ((apply Quiet.mk' hP); first | assumption | (apply Quiet.put hP) | split) | ((apply Quiet.mk' hP); (apply Quiet.mk' hP); first | assumption | (apply Quiet.put hP) | split) | split | (intro _ _) | (intro _)

theorem cl_noticeCompletes (hP : Quiet P) (s : State) (l : Logged) (hs : P s) : P (State.noticeCompletes s l) := by
  unfold State.noticeCompletes; try dsimp only
  with_reducible repeat' first | assumption | (apply cl_putLogged hP) | (apply cl_sendVc0 hP) | (apply cl_mirror hP) | (apply Quiet.put hP) | ((apply Quiet.mk' hP); first | assumption | (apply cl_putLogged hP) | (apply cl_sendVc0 hP) | (apply cl_mirror hP) | (apply Quiet.put hP) | (apply cl_foldl) | split) | ((apply Quiet.mk' hP); (apply Quiet.mk' hP); first | assumption | (apply cl_putLogged hP) | (apply cl_sendVc0 hP) | (apply cl_mirror hP) | (apply Quiet.put hP) | (apply cl_foldl) | split) | split | (apply cl_foldl) | (intro _ _) | (intro _)

theorem cl_noticeAcked (hP : Quiet P) (s : State) (cons device : Nat) (hs : P s) : P (State.noticeAcked s cons device) := by
  unfold State.noticeAcked; try dsimp only
  with_reducible repeat' first | assumption | (apply cl_noticeCompletes hP) | (apply cl_putLogged hP) | (apply Quiet.put hP) | ((apply Quiet.mk' hP); first | assumption | (apply cl_noticeCompletes hP) | (apply cl_putLogged hP) | (apply Quiet.put hP) | split) | ((apply Quiet.mk' hP); (apply Quiet.mk' hP); first | assumption | (apply cl_noticeCompletes hP) | (apply cl_putLogged hP) | (apply Quiet.put hP) | split) | split | (intro _ _) | (intro _)

theorem cl_execAck (hP : Quiet P) (of : AckOf) (device : Nat) (s : State) (hs : P s) : OutP P (execAck of device s) := by
  unfold execAck
  with_reducible repeat' first | assumption | (apply cl_ok hP) | (apply cl_putLogged hP) | (apply cl_pruneLog hP) | (apply Quiet.put hP) | ((apply Quiet.mk' hP); first | assumption | (apply cl_ok hP) | (apply cl_putLogged hP) | (apply cl_pruneLog hP) | (apply Quiet.put hP) | split) | ((apply Quiet.mk' hP); (apply Quiet.mk' hP); first | assumption | (apply cl_ok hP) | (apply cl_putLogged hP) | (apply cl_pruneLog hP) | (apply Quiet.put hP) | split) | split | (apply OutP.ok) | (apply OutP.next)

theorem cl_answerQuery (hP : Quiet P) (s : State) (cons group device : Nat) (hs : P s) : P (State.answerQuery s cons group device) := by
  unfold State.answerQuery; try dsimp only
  with_reducible repeat' first | assumption | (apply cl_sendVc0 hP) | (apply cl_logDecision hP) | (apply Quiet.put hP) | split

theorem cl_execQuery (hP : Quiet P) (cons group device : Nat) (s : State) (hs : P s) : OutP P (execQuery cons group device s) := by
  unfold execQuery
  with_reducible repeat' first | assumption | (apply cl_ok hP) | (apply cl_answerQuery hP) | (apply Quiet.put hP) | split | (apply OutP.ok) | (apply OutP.next)

theorem cl_lateCommit (hP : Closed P) (s : State) (c : Cons) (hs : P s) : P (State.lateCommit s c) := by
  unfold State.lateCommit; try dsimp only
  with_reducible repeat' first | assumption | (apply cl_rollback hP) | (apply cl_consEnds hP) | (apply cl_sendVc0 hP.toQuiet) | (apply Quiet.put hP.toQuiet) | split

theorem cl_takeOutcome (hP : Closed P) (s : State) (d : Decision) (late : Bool) (hs : P s) : P (State.takeOutcome s d late) := by
  unfold State.takeOutcome
  with_reducible repeat' first | assumption | (apply cl_sendAck hP.toQuiet) | (apply cl_rollback hP) | (apply cl_consEnds hP) | (apply cl_lateCommit hP) | (apply cl_putCons hP.toQuiet) | (apply Quiet.put hP.toQuiet) | ((apply Quiet.mk' hP.toQuiet); first | assumption | (apply cl_sendAck hP.toQuiet) | (apply cl_rollback hP) | (apply cl_consEnds hP) | (apply cl_lateCommit hP) | (apply cl_putCons hP.toQuiet) | (apply Quiet.put hP.toQuiet) | split) | ((apply Quiet.mk' hP.toQuiet); (apply Quiet.mk' hP.toQuiet); first | assumption | (apply cl_sendAck hP.toQuiet) | (apply cl_rollback hP) | (apply cl_consEnds hP) | (apply cl_lateCommit hP) | (apply cl_putCons hP.toQuiet) | (apply Quiet.put hP.toQuiet) | split) | split

theorem cl_execDecision (hP : Closed P) (decision : Decision) (late : Bool) (s : State) (hs : P s) : OutP P (execDecision decision late s) := by
  unfold execDecision
  with_reducible repeat' first | assumption | (apply cl_ok hP.toQuiet) | (apply cl_takeOutcome hP) | (apply Quiet.put hP.toQuiet) | split | (apply OutP.ok) | (apply OutP.next)

theorem cl_execNotice (hP : Quiet P) (decision : Decision) (s : State) (hs : P s) : OutP P (execNotice decision s) := by
  unfold execNotice
  with_reducible repeat' first | assumption | (apply cl_ok hP) | (apply Quiet.put hP) | ((apply Quiet.mk' hP); first | assumption | (apply cl_ok hP) | (apply Quiet.put hP) | split) | ((apply Quiet.mk' hP); (apply Quiet.mk' hP); first | assumption | (apply cl_ok hP) | (apply Quiet.put hP) | split) | split | (apply OutP.ok) | (apply OutP.next)

theorem cl_execInDoubtTimeout (hP : Quiet P) (cons : Nat) (s : State) (hs : P s) : OutP P (execInDoubtTimeout cons s) := by
  unfold execInDoubtTimeout
  with_reducible repeat' first | assumption | (apply cl_ok hP) | (apply cl_putCons hP) | (apply cl_sendVc0 hP) | (apply Quiet.put hP) | ((apply Quiet.mk' hP); first | assumption | (apply cl_ok hP) | (apply cl_putCons hP) | (apply cl_sendVc0 hP) | (apply Quiet.put hP) | split) | ((apply Quiet.mk' hP); (apply Quiet.mk' hP); first | assumption | (apply cl_ok hP) | (apply cl_putCons hP) | (apply cl_sendVc0 hP) | (apply Quiet.put hP) | split) | split | (apply OutP.ok) | (apply OutP.next)

theorem cl_execRetireAt (hP : Quiet P) (cons tr : Nat) (s : State) (hs : P s) : OutP P (execRetireAt cons tr s) := by
  unfold execRetireAt; try dsimp only
  with_reducible repeat' first | assumption | (apply cl_ok hP) | (apply cl_putTable hP) | (apply cl_putMaster hP) | (apply Quiet.put hP) | ((apply Quiet.mk' hP); first | assumption | (apply cl_ok hP) | (apply cl_putTable hP) | (apply cl_putMaster hP) | (apply Quiet.put hP) | (apply cl_foldl) | split) | ((apply Quiet.mk' hP); (apply Quiet.mk' hP); first | assumption | (apply cl_ok hP) | (apply cl_putTable hP) | (apply cl_putMaster hP) | (apply Quiet.put hP) | (apply cl_foldl) | split) | split | (apply cl_foldl) | (intro _ _) | (intro _) | (apply OutP.ok) | (apply OutP.next)

theorem cl_retireEntry (hP : Closed P) (s : State) (w : WroteEntry) (hs : P s) : P (State.retireEntry s w) := by
  unfold State.retireEntry; try dsimp only
  with_reducible repeat' first | assumption | (apply cl_memError hP) | (apply cl_devWrite hP) | (apply Quiet.put hP.toQuiet) | ((apply Quiet.mk' hP.toQuiet); first | assumption | (apply cl_memError hP) | (apply cl_devWrite hP) | (apply Quiet.put hP.toQuiet) | split) | ((apply Quiet.mk' hP.toQuiet); (apply Quiet.mk' hP.toQuiet); first | assumption | (apply cl_memError hP) | (apply cl_devWrite hP) | (apply Quiet.put hP.toQuiet) | split) | split

theorem cl_retireEpoch (hP : Quiet P) (s : State) (t e : Nat) (hs : P s) : P (State.retireEpoch s t e) := by
  unfold State.retireEpoch; try dsimp only
  with_reducible repeat' first | assumption | (apply cl_putTable hP) | (apply cl_putMaster hP) | (apply Quiet.put hP) | ((apply Quiet.mk' hP); first | assumption | (apply cl_putTable hP) | (apply cl_putMaster hP) | (apply Quiet.put hP) | split) | ((apply Quiet.mk' hP); (apply Quiet.mk' hP); first | assumption | (apply cl_putTable hP) | (apply cl_putMaster hP) | (apply Quiet.put hP) | split) | split | (intro _ _) | (intro _)

theorem cl_retireEpochs (hP : Closed P) (s : State) (cons : Nat) (hs : P s) : P (State.retireEpochs s cons) := by
  unfold State.retireEpochs; try dsimp only
  with_reducible repeat' first | assumption | (apply cl_retireEpoch hP.toQuiet) | (apply cl_retireEntry hP) | (apply cl_closeRetiring hP) | (apply Quiet.put hP.toQuiet) | ((apply Quiet.mk' hP.toQuiet); first | assumption | (apply cl_retireEpoch hP.toQuiet) | (apply cl_retireEntry hP) | (apply cl_closeRetiring hP) | (apply Quiet.put hP.toQuiet) | (apply cl_foldl) | split) | ((apply Quiet.mk' hP.toQuiet); (apply Quiet.mk' hP.toQuiet); first | assumption | (apply cl_retireEpoch hP.toQuiet) | (apply cl_retireEntry hP) | (apply cl_closeRetiring hP) | (apply Quiet.put hP.toQuiet) | (apply cl_foldl) | split) | split | (apply cl_foldl) | (intro _ _) | (intro _)

theorem cl_askPage (hP : Quiet P) (s : State) (b : Rebuild) (hs : P s) : P (State.askPage s b) := by
  unfold State.askPage; try dsimp only
  with_reducible repeat' first | assumption | (apply cl_send hP) | (apply Quiet.put hP) | split | (apply cl_foldl) | (intro _ _) | (intro _)

theorem cl_takeUpPage (hP : Quiet P) (s : State) (b : Rebuild) (x : Nat × Nat) (hs : P s) : P (State.takeUpPage s b x) := by
  unfold State.takeUpPage; try dsimp only
  with_reducible repeat' first | assumption | (apply cl_askPage hP) | (apply Quiet.put hP) | ((apply Quiet.mk' hP); first | assumption | (apply cl_askPage hP) | (apply Quiet.put hP) | split) | ((apply Quiet.mk' hP); (apply Quiet.mk' hP); first | assumption | (apply cl_askPage hP) | (apply Quiet.put hP) | split) | split

theorem cl_startCopy (hP : Quiet P) (s : State) (hs : P s) : P (State.startCopy s) := by
  unfold State.startCopy
  with_reducible repeat' first | assumption | (apply cl_takeUpPage hP) | (apply Quiet.put hP) | split

theorem cl_execEpochRetire (hP : Closed P) (cons : Nat) (s : State) (hs : P s) : OutP P (execEpochRetire cons s) := by
  unfold execEpochRetire
  with_reducible repeat' first | assumption | (apply cl_ok hP.toQuiet) | (apply cl_retireEpochs hP) | (apply cl_startCopy hP.toQuiet) | (apply Quiet.put hP.toQuiet) | split | (apply OutP.ok) | (apply OutP.next)

theorem cl_retireVersion (hP : Closed P) (s : State) (m v : Nat) (hs : P s) : P (State.retireVersion s m v) := by
  unfold State.retireVersion; try dsimp only
  with_reducible repeat' first | assumption | (apply cl_putModel hP.toQuiet) | (apply cl_closeRetiring hP) | (apply Quiet.put hP.toQuiet) | ((apply Quiet.mk' hP.toQuiet); first | assumption | (apply cl_putModel hP.toQuiet) | (apply cl_closeRetiring hP) | (apply Quiet.put hP.toQuiet) | (apply cl_foldl) | split) | ((apply Quiet.mk' hP.toQuiet); (apply Quiet.mk' hP.toQuiet); first | assumption | (apply cl_putModel hP.toQuiet) | (apply cl_closeRetiring hP) | (apply Quiet.put hP.toQuiet) | (apply cl_foldl) | split) | split | (apply cl_foldl) | (intro _ _) | (intro _)

theorem cl_execModelVersionRetire (hP : Closed P) (model version : Nat) (s : State) (hs : P s) : OutP P (execModelVersionRetire model version s) := by
  unfold execModelVersionRetire
  with_reducible repeat' first | assumption | (apply cl_ok hP.toQuiet) | (apply cl_retireVersion hP) | (apply Quiet.put hP.toQuiet) | split | (apply OutP.ok) | (apply OutP.next)

end Sys2Proof.Laws
end

