-- ==== Sys2Proof/Laws/KeepsTables.lean ====
section
/-! SUPPORT. What the functions of Machine/Tables.lean keep: see Laws/Closed.lean. -/

set_option linter.unusedTactic false
set_option linter.unreachableTactic false

namespace Sys2Proof.Laws

open Sys2Proof.Machine

variable {P : State → Prop}

theorem cl_tableResult (hP : Quiet P) (s : State) (r : Nat) (hs : P s) : P (State.tableResult s r) := by
  unfold State.tableResult
  with_reducible repeat' first | assumption | (apply cl_put hP) | (apply Quiet.put hP) | split

theorem cl_writeGroup (hP : Closed P) (s : State) (g : Nat) (r : Group) (hs : P s) : P (State.writeGroup s g r) := by
  unfold State.writeGroup; try dsimp only
  with_reducible repeat' first | assumption | (apply cl_devWrite hP) | (apply Quiet.put hP.toQuiet) | split | (intro _ _) | (intro _)

theorem cl_askEpoch (hP : Quiet P) (s : State) (t : Nat) (e : TableEntry) (g : Group) (hs : P s) : P (State.askEpoch s t e g) := by
  unfold State.askEpoch
  with_reducible repeat' first | assumption | (apply cl_put hP) | (apply cl_sendVc0 hP) | (apply Quiet.put hP) | split

theorem cl_tableOn (hP : Closed P) (s : State) (t : Nat) (e : TableEntry) (g : Group) (i : EpochInfo) (hs : P s) : P (State.tableOn s t e g i) := by
  unfold State.tableOn; try dsimp only
  with_reducible repeat' first | assumption | (apply cl_putMaster hP.toQuiet) | (apply cl_putTable hP.toQuiet) | (apply cl_putGroup hP.toQuiet) | (apply cl_writeGroup hP) | (apply cl_devWrite hP) | (apply Quiet.put hP.toQuiet) | ((apply Quiet.mk' hP.toQuiet); first | assumption | (apply cl_putMaster hP.toQuiet) | (apply cl_putTable hP.toQuiet) | (apply cl_putGroup hP.toQuiet) | (apply cl_writeGroup hP) | (apply cl_devWrite hP) | (apply Quiet.put hP.toQuiet) | split) | ((apply Quiet.mk' hP.toQuiet); (apply Quiet.mk' hP.toQuiet); first | assumption | (apply cl_putMaster hP.toQuiet) | (apply cl_putTable hP.toQuiet) | (apply cl_putGroup hP.toQuiet) | (apply cl_writeGroup hP) | (apply cl_devWrite hP) | (apply Quiet.put hP.toQuiet) | split) | split | (intro _ _) | (intro _)

theorem cl_enableTable (hP : Closed P) (s : State) (t : Nat) (answer : Option EpochInfo) (hs : P s) : P (State.enableTable s t answer) := by
  unfold State.enableTable; try dsimp only
  with_reducible repeat' first | assumption | (apply cl_tableResult hP.toQuiet) | (apply cl_tableInMemory hP) | (refine atExSndP ?_ (by assumption); apply cl_tableInMemory hP) | (apply cl_ok hP.toQuiet) | (apply cl_groupInMemory hP) | (refine atExSndP ?_ (by assumption); apply cl_groupInMemory hP) | (apply cl_answer hP.toQuiet) | (apply cl_askEpoch hP.toQuiet) | (apply cl_tableOn hP) | (apply Quiet.put hP.toQuiet) | split

theorem cl_execTableEnable (hP : Closed P) (table : Nat) (answer : Option EpochInfo) (s : State) (hs : P s) : OutP P (execTableEnable table answer s) := by
  unfold execTableEnable
  with_reducible repeat' first | assumption | (apply cl_ok hP.toQuiet) | (apply cl_hostDo hP.toQuiet) | (apply cl_enableTable hP) | (apply cl_answer hP.toQuiet) | (apply Quiet.put hP.toQuiet) | split | (intro _ _) | (intro _) | (apply OutP.ok) | (apply OutP.next)

theorem cl_disableTable (hP : Closed P) (s : State) (t : Nat) (hs : P s) : P (State.disableTable s t) := by
  unfold State.disableTable; try dsimp only
  with_reducible repeat' first | assumption | (apply cl_tableResult hP.toQuiet) | (apply cl_putTable hP.toQuiet) | (apply cl_put hP.toQuiet) | (apply cl_prepareFails hP) | (apply Quiet.put hP.toQuiet) | ((apply Quiet.mk' hP.toQuiet); first | assumption | (apply cl_tableResult hP.toQuiet) | (apply cl_putTable hP.toQuiet) | (apply cl_put hP.toQuiet) | (apply cl_prepareFails hP) | (apply Quiet.put hP.toQuiet) | (apply cl_foldl) | split) | ((apply Quiet.mk' hP.toQuiet); (apply Quiet.mk' hP.toQuiet); first | assumption | (apply cl_tableResult hP.toQuiet) | (apply cl_putTable hP.toQuiet) | (apply cl_put hP.toQuiet) | (apply cl_prepareFails hP) | (apply Quiet.put hP.toQuiet) | (apply cl_foldl) | split) | split | (apply cl_foldl) | (intro _ _) | (intro _)

theorem cl_execTableDisable (hP : Closed P) (table : Nat) (s : State) (hs : P s) : OutP P (execTableDisable table s) := by
  unfold execTableDisable
  with_reducible repeat' first | assumption | (apply cl_ok hP.toQuiet) | (apply cl_hostDo hP.toQuiet) | (apply cl_disableTable hP) | (apply Quiet.put hP.toQuiet) | split | (intro _ _) | (intro _) | (apply OutP.ok) | (apply OutP.next)

theorem cl_tableOff (hP : Closed P) (s : State) (t : Nat) (hs : P s) : P (State.tableOff s t) := by
  unfold State.tableOff; try dsimp only
  with_reducible repeat' first | assumption | (apply cl_putTable hP.toQuiet) | (apply cl_devWrite hP) | (apply cl_putGroup hP.toQuiet) | (apply Quiet.put hP.toQuiet) | split | (intro _ _) | (intro _)

theorem cl_execTableDisableDone (hP : Closed P) (table : Nat) (s : State) (hs : P s) : OutP P (execTableDisableDone table s) := by
  unfold execTableDisableDone
  with_reducible repeat' first | assumption | (apply cl_ok hP.toQuiet) | (apply cl_tableOff hP) | (apply cl_tableResult hP.toQuiet) | (apply Quiet.put hP.toQuiet) | split | (apply OutP.ok) | (apply OutP.next)

theorem cl_answerEpoch (hP : Quiet P) (s : State) (t gen g e0 d : Nat) (hs : P s) : P (State.answerEpoch s t gen g e0 d) := by
  unfold State.answerEpoch; try dsimp only
  with_reducible repeat' first | assumption | (apply cl_sendVc0 hP) | (apply Quiet.put hP) | split

theorem cl_execGroupMasterEpochRequest (hP : Quiet P) (table gen group epoch0 device : Nat) (s : State) (hs : P s) : OutP P (execGroupMasterEpochRequest table gen group epoch0 device s) := by
  unfold execGroupMasterEpochRequest
  with_reducible repeat' first | assumption | (apply cl_ok hP) | (apply cl_answerEpoch hP) | (apply Quiet.put hP) | split | (apply OutP.ok) | (apply OutP.next)

end Sys2Proof.Laws
end

