-- ==== Sys2Proof/Laws/KeepsWarehouse.lean ====
section
/-! SUPPORT. What the functions of Machine/Warehouse.lean keep: see Laws/Closed.lean. -/

set_option linter.unusedTactic false
set_option linter.unreachableTactic false

namespace Sys2Proof.Laws

open Sys2Proof.Machine

variable {P : State → Prop}

theorem cl_upset (hP : Quiet P) (s : State) (a n : Nat) (us : List (Nat × Bool)) (hs : P s) : P (State.upset s a n us) := by
  unfold State.upset
  with_reducible repeat' first | assumption | (apply Quiet.put hP) | ((apply Quiet.mk' hP); first | assumption | (apply Quiet.put hP) | (apply cl_foldl) | split) | ((apply Quiet.mk' hP); (apply Quiet.mk' hP); first | assumption | (apply Quiet.put hP) | (apply cl_foldl) | split) | split | (apply cl_foldl) | (intro _ _) | (intro _)

theorem cl_upsetAt (hP : Quiet P) (s : State) (r : Req) (a n : Nat) (us : List (Nat × Bool)) (hs : P s) : P (State.upsetAt s r a n us) := by
  unfold State.upsetAt
  with_reducible repeat' first | assumption | (apply cl_ok hP) | (apply cl_upset hP) | (apply Quiet.put hP) | split

theorem cl_whsRefused (hP : Quiet P) (s : State) (debug wr : Bool) (a : Nat) (hs : P s) : P (State.whsRefused s debug wr a) := by
  unfold State.whsRefused; try dsimp only
  with_reducible repeat' first | assumption | (apply cl_send hP) | (apply cl_inc hP) | (apply Quiet.put hP) | split

theorem cl_whsRead (hP : Closed P) (s : State) (r : Req) (job : Option Nat) (a n : Nat) (hs : P s) : P (State.whsRead s r job a n) := by
  unfold State.whsRead
  with_reducible repeat' first | assumption | (apply cl_read hP) | (refine atExSndP ?_ (by assumption); apply cl_read hP) | (apply cl_ok hP.toQuiet) | (apply cl_send hP.toQuiet) | (apply cl_memError hP) | (apply cl_sendAll hP.toQuiet) | (apply cl_whsRefused hP.toQuiet) | (apply Quiet.put hP.toQuiet) | split | (intro _ _) | (intro _)

theorem cl_execWarehouseRead (hP : Closed P) (addr len : Nat) (who : ReadBy) (upsets : List (Nat × Bool)) (s : State) (hs : P s) : OutP P (execWarehouseRead addr len who upsets s) := by
  unfold execWarehouseRead; try dsimp only
  with_reducible repeat' first | assumption | (apply cl_ok hP.toQuiet) | (apply cl_upsetAt hP.toQuiet) | (apply cl_whsRead hP) | (apply Quiet.put hP.toQuiet) | ((apply Quiet.mk' hP.toQuiet); first | assumption | (apply cl_ok hP.toQuiet) | (apply cl_upsetAt hP.toQuiet) | (apply cl_whsRead hP) | (apply Quiet.put hP.toQuiet) | split) | ((apply Quiet.mk' hP.toQuiet); (apply Quiet.mk' hP.toQuiet); first | assumption | (apply cl_ok hP.toQuiet) | (apply cl_upsetAt hP.toQuiet) | (apply cl_whsRead hP) | (apply Quiet.put hP.toQuiet) | split) | split | (apply OutP.ok) | (apply OutP.next)

theorem cl_whsWrite (hP : Closed P) (s : State) (r : Req) (a : Nat) (bs : List Byte) (hs : P s) : P (State.whsWrite s r a bs) := by
  unfold State.whsWrite
  with_reducible repeat' first | assumption | (apply cl_write hP) | (refine atExP ?_ (by assumption); apply cl_write hP) | (apply cl_ok hP.toQuiet) | (apply cl_memError hP) | (apply cl_sendAll hP.toQuiet) | (apply cl_whsRefused hP.toQuiet) | (apply Quiet.put hP.toQuiet) | split | (intro _ _) | (intro _)

theorem cl_execWarehouseWrite (hP : Closed P) (addr : Nat) (who : WriteBy) (data : List Byte) (s : State) (hs : P s) : OutP P (execWarehouseWrite addr who data s) := by
  unfold execWarehouseWrite
  with_reducible repeat' first | assumption | (apply cl_ok hP.toQuiet) | (apply cl_whsWrite hP) | (apply Quiet.put hP.toQuiet) | split | (apply OutP.ok) | (apply OutP.next)

theorem cl_execBitSetWrite (hP : Closed P) (addr : Nat) (who : WriteBy) (data : List Byte) (s : State) (hs : P s) : OutP P (execBitSetWrite addr who data s) := by
  unfold execBitSetWrite
  with_reducible repeat' first | assumption | (apply cl_ok hP.toQuiet) | (apply cl_whsWrite hP) | (apply Quiet.put hP.toQuiet) | split | (apply OutP.ok) | (apply OutP.next)

theorem cl_execBitClearWrite (hP : Closed P) (addr : Nat) (who : WriteBy) (data : List Byte) (s : State) (hs : P s) : OutP P (execBitClearWrite addr who data s) := by
  unfold execBitClearWrite
  with_reducible repeat' first | assumption | (apply cl_ok hP.toQuiet) | (apply cl_whsWrite hP) | (apply Quiet.put hP.toQuiet) | split | (apply OutP.ok) | (apply OutP.next)

theorem cl_evictWay (hP : Closed P) (s : State) (d w : Nat) (hs : P s) : P (State.evictWay s d w) := by
  unfold State.evictWay
  with_reducible repeat' first | assumption | (apply cl_loseBlocks hP) | (apply Quiet.put hP.toQuiet) | split | (apply cl_foldl) | (intro _ _) | (intro _)

theorem cl_emptyHotWay (hP : Quiet P) (s : State) (d w : Nat) (hs : P s) : P (State.emptyHotWay s d w) := by
  unfold State.emptyHotWay
  with_reducible repeat' first | assumption | (apply Quiet.put hP) | ((apply Quiet.mk' hP); first | assumption | (apply Quiet.put hP) | split) | ((apply Quiet.mk' hP); (apply Quiet.mk' hP); first | assumption | (apply Quiet.put hP) | split) | split | (intro _ _) | (intro _)

theorem cl_wayStop (hP : Closed P) (s : State) (d w : Nat) (hs : P s) : P (State.wayStop s d w) := by
  unfold State.wayStop; try dsimp only
  with_reducible repeat' first | assumption | (apply cl_stopWay hP.toQuiet) | (apply cl_evictWay hP) | (apply Quiet.put hP.toQuiet) | split

theorem cl_execWayStop (hP : Closed P) (die way : Nat) (s : State) (hs : P s) : OutP P (execWayStop die way s) := by
  unfold execWayStop
  with_reducible repeat' first | assumption | (apply cl_ok hP.toQuiet) | (apply cl_hostDo hP.toQuiet) | (apply cl_wayStop hP) | (apply Quiet.put hP.toQuiet) | split | (intro _ _) | (intro _) | (apply OutP.ok) | (apply OutP.next)

theorem cl_wayStopDone (hP : Closed P) (s : State) (d w : Nat) (hs : P s) : P (State.wayStopDone s d w) := by
  unfold State.wayStopDone; try dsimp only
  with_reducible repeat' first | assumption | (apply cl_emptyHotWay hP.toQuiet) | (apply cl_putWayStopped hP.toQuiet) | (apply cl_evictWay hP) | (apply cl_putWayBlocked hP.toQuiet) | (apply Quiet.put hP.toQuiet) | split

theorem cl_execWayStopped (hP : Closed P) (die way : Nat) (s : State) (hs : P s) : OutP P (execWayStopped die way s) := by
  unfold execWayStopped
  with_reducible repeat' first | assumption | (apply cl_ok hP.toQuiet) | (apply cl_wayStopDone hP) | (apply Quiet.put hP.toQuiet) | split | (apply OutP.ok) | (apply OutP.next)

theorem cl_remap (hP : Quiet P) (s : State) (n k : Nat) (hs : P s) : P (State.remap s n k) := by
  unfold State.remap
  with_reducible repeat' first | assumption | (apply Quiet.put hP) | ((apply Quiet.mk' hP); first | assumption | (apply Quiet.put hP) | split) | ((apply Quiet.mk' hP); (apply Quiet.mk' hP); first | assumption | (apply Quiet.put hP) | split) | split | (intro _ _) | (intro _)

theorem cl_moveBlock (hP : Closed P) (s : State) (d w : Nat) (hs : P s) : P (State.moveBlock s d w) := by
  unfold State.moveBlock
  with_reducible repeat' first | assumption | (apply cl_putWayBlocked hP.toQuiet) | (apply cl_copyMem hP) | (apply cl_remap hP.toQuiet) | (apply Quiet.put hP.toQuiet) | split

theorem cl_execModelBlockMove (hP : Closed P) (die way : Nat) (s : State) (hs : P s) : OutP P (execModelBlockMove die way s) := by
  unfold execModelBlockMove
  with_reducible repeat' first | assumption | (apply cl_ok hP.toQuiet) | (apply cl_evictWay hP) | (apply cl_moveBlock hP) | (apply Quiet.put hP.toQuiet) | split | (apply OutP.ok) | (apply OutP.next)

theorem cl_wayReturns (hP : Closed P) (s : State) (d w : Nat) (hs : P s) : P (State.wayReturns s d w) := by
  unfold State.wayReturns; try dsimp only
  with_reducible repeat' first | assumption | (apply cl_zero hP) | (apply cl_emptyHotWay hP.toQuiet) | (apply cl_evictWay hP) | (apply cl_putWayStopped hP.toQuiet) | (apply cl_putWayBlocked hP.toQuiet) | (apply Quiet.put hP.toQuiet) | ((apply Quiet.mk' hP.toQuiet); first | assumption | (apply cl_zero hP) | (apply cl_emptyHotWay hP.toQuiet) | (apply cl_evictWay hP) | (apply cl_putWayStopped hP.toQuiet) | (apply cl_putWayBlocked hP.toQuiet) | (apply Quiet.put hP.toQuiet) | split) | ((apply Quiet.mk' hP.toQuiet); (apply Quiet.mk' hP.toQuiet); first | assumption | (apply cl_zero hP) | (apply cl_emptyHotWay hP.toQuiet) | (apply cl_evictWay hP) | (apply cl_putWayStopped hP.toQuiet) | (apply cl_putWayBlocked hP.toQuiet) | (apply Quiet.put hP.toQuiet) | split) | split

theorem cl_wayRestart (hP : Closed P) (s : State) (d w : Nat) (hs : P s) : P (State.wayRestart s d w) := by
  unfold State.wayRestart; try dsimp only
  with_reducible repeat' first | assumption | (apply cl_putWayStop hP.toQuiet) | (apply cl_wayReturns hP) | (apply Quiet.put hP.toQuiet) | split

theorem cl_execWayRestart (hP : Closed P) (die way : Nat) (s : State) (hs : P s) : OutP P (execWayRestart die way s) := by
  unfold execWayRestart
  with_reducible repeat' first | assumption | (apply cl_ok hP.toQuiet) | (apply cl_hostDo hP.toQuiet) | (apply cl_wayRestart hP) | (apply Quiet.put hP.toQuiet) | split | (intro _ _) | (intro _) | (apply OutP.ok) | (apply OutP.next)

theorem cl_destructStart (hP : Quiet P) (s : State) (e : Nat) (hs : P s) : P (State.destructStart s e) := by
  unfold State.destructStart
  with_reducible repeat' first | assumption | (apply cl_put hP) | (apply Quiet.put hP) | ((apply Quiet.mk' hP); first | assumption | (apply cl_put hP) | (apply Quiet.put hP) | split) | ((apply Quiet.mk' hP); (apply Quiet.mk' hP); first | assumption | (apply cl_put hP) | (apply Quiet.put hP) | split) | split | (intro _ _) | (intro _)

theorem cl_execDestructStart (hP : Quiet P) (engine : Nat) (s : State) (hs : P s) : OutP P (execDestructStart engine s) := by
  unfold execDestructStart
  with_reducible repeat' first | assumption | (apply cl_ok hP) | (apply cl_hostDo hP) | (apply cl_destructStart hP) | (apply Quiet.put hP) | split | (intro _ _) | (intro _) | (apply OutP.ok) | (apply OutP.next)

theorem cl_execDestructiveTestDone (hP : Closed P) (engine : Nat) (fault : Bool) (s : State) (hs : P s) : OutP P (execDestructiveTestDone engine fault s) := by
  unfold execDestructiveTestDone; try dsimp only
  with_reducible repeat' first | assumption | (apply cl_ok hP.toQuiet) | (apply cl_zero hP) | (apply cl_put hP.toQuiet) | (apply cl_wayReturns hP) | (apply Quiet.put hP.toQuiet) | ((apply Quiet.mk' hP.toQuiet); first | assumption | (apply cl_ok hP.toQuiet) | (apply cl_zero hP) | (apply cl_put hP.toQuiet) | (apply cl_wayReturns hP) | (apply Quiet.put hP.toQuiet) | (apply cl_foldl) | split) | ((apply Quiet.mk' hP.toQuiet); (apply Quiet.mk' hP.toQuiet); first | assumption | (apply cl_ok hP.toQuiet) | (apply cl_zero hP) | (apply cl_put hP.toQuiet) | (apply cl_wayReturns hP) | (apply Quiet.put hP.toQuiet) | (apply cl_foldl) | split) | split | (apply cl_foldl) | (intro _ _) | (intro _) | (apply OutP.ok) | (apply OutP.next)

theorem cl_countRow (hP : Quiet P) (s : State) (e : Nat) (hs : P s) : P (State.countRow s e) := by
  unfold State.countRow
  with_reducible repeat' first | assumption | (apply Quiet.put hP) | ((apply Quiet.mk' hP); first | assumption | (apply Quiet.put hP) | split) | ((apply Quiet.mk' hP); (apply Quiet.mk' hP); first | assumption | (apply Quiet.put hP) | split) | split

theorem cl_marchError (hP : Closed P) (s : State) (sev source a column : Nat) (hs : P s) : P (State.marchError s sev source a column) := by
  unfold State.marchError; try dsimp only
  with_reducible repeat' first | assumption | (apply cl_detect hP) | (apply Quiet.put hP.toQuiet) | split

theorem cl_loseWords (hP : Closed P) (s : State) (a : Nat) (lost : List Nat) (hs : P s) : P (State.loseWords s a lost) := by
  unfold State.loseWords
  with_reducible repeat' first | assumption | (apply cl_poison hP.toQuiet) | (apply cl_detect hP) | (apply Quiet.put hP.toQuiet) | split | (apply cl_foldl) | (intro _ _) | (intro _)

theorem cl_pass (hP : Closed P) (s : State) (e a : Nat) (fault : Option Nat) (lost : List Nat) (hs : P s) : P (State.pass s e a fault lost) := by
  unfold State.pass; try dsimp only
  with_reducible repeat' first | assumption | (apply cl_detect hP) | (apply cl_correct hP) | (apply cl_inc hP.toQuiet) | (apply cl_put hP.toQuiet) | (apply cl_marchError hP) | (apply cl_loseWords hP) | (apply Quiet.put hP.toQuiet) | ((apply Quiet.mk' hP.toQuiet); first | assumption | (apply cl_detect hP) | (apply cl_correct hP) | (apply cl_inc hP.toQuiet) | (apply cl_put hP.toQuiet) | (apply cl_marchError hP) | (apply cl_loseWords hP) | (apply Quiet.put hP.toQuiet) | (apply cl_foldl) | split) | ((apply Quiet.mk' hP.toQuiet); (apply Quiet.mk' hP.toQuiet); first | assumption | (apply cl_detect hP) | (apply cl_correct hP) | (apply cl_inc hP.toQuiet) | (apply cl_put hP.toQuiet) | (apply cl_marchError hP) | (apply cl_loseWords hP) | (apply Quiet.put hP.toQuiet) | (apply cl_foldl) | split) | split | (apply cl_foldl) | (intro _ _) | (intro _)

theorem cl_execPreservingPass (hP : Closed P) (engine addr : Nat) (failed : Bool) (column : Nat) (lost : List Nat) (s : State) (hs : P s) : OutP P (execPreservingPass engine addr failed column lost s) := by
  unfold execPreservingPass
  with_reducible repeat' first | assumption | (apply cl_ok hP.toQuiet) | (apply cl_countRow hP.toQuiet) | (apply cl_pass hP) | (apply Quiet.put hP.toQuiet) | split | (apply OutP.ok) | (apply OutP.next)

theorem cl_execMarchPassAbort (hP : Closed P) (engine addr : Nat) (lost : List Nat) (s : State) (hs : P s) : OutP P (execMarchPassAbort engine addr lost s) := by
  unfold execMarchPassAbort; try dsimp only
  with_reducible repeat' first | assumption | (apply cl_countRow hP.toQuiet) | (apply cl_inc hP.toQuiet) | (apply cl_ok hP.toQuiet) | (apply cl_loseWords hP) | (apply Quiet.put hP.toQuiet) | ((apply Quiet.mk' hP.toQuiet); first | assumption | (apply cl_countRow hP.toQuiet) | (apply cl_inc hP.toQuiet) | (apply cl_ok hP.toQuiet) | (apply cl_loseWords hP) | (apply Quiet.put hP.toQuiet) | split) | ((apply Quiet.mk' hP.toQuiet); (apply Quiet.mk' hP.toQuiet); first | assumption | (apply cl_countRow hP.toQuiet) | (apply cl_inc hP.toQuiet) | (apply cl_ok hP.toQuiet) | (apply cl_loseWords hP) | (apply Quiet.put hP.toQuiet) | split) | split | (intro _ _) | (intro _) | (apply OutP.ok) | (apply OutP.next)

theorem cl_repairResult (hP : Quiet P) (s : State) (r : Nat) (hs : P s) : P (State.repairResult s r) := by
  unfold State.repairResult
  with_reducible repeat' first | assumption | (apply cl_put hP) | (apply Quiet.put hP) | split

theorem cl_repairStart (hP : Quiet P) (s : State) (r : Repair) (hs : P s) : P (State.repairStart s r) := by
  unfold State.repairStart; try dsimp only
  with_reducible repeat' first | assumption | (apply cl_put hP) | (apply cl_repairResult hP) | (apply Quiet.put hP) | ((apply Quiet.mk' hP); first | assumption | (apply cl_put hP) | (apply cl_repairResult hP) | (apply Quiet.put hP) | split) | ((apply Quiet.mk' hP); (apply Quiet.mk' hP); first | assumption | (apply cl_put hP) | (apply cl_repairResult hP) | (apply Quiet.put hP) | split) | split | (intro _ _) | (intro _)

theorem cl_execRepairBurn (hP : Quiet P) (kind unit macroNo column : Nat) (s : State) (hs : P s) : OutP P (execRepairBurn kind unit macroNo column s) := by
  unfold execRepairBurn
  with_reducible repeat' first | assumption | (apply cl_ok hP) | (apply cl_hostDo hP) | (apply cl_repairStart hP) | (apply Quiet.put hP) | split | (intro _ _) | (intro _) | (apply OutP.ok) | (apply OutP.next)

end Sys2Proof.Laws
end

