-- ==== Sys2Proof/Laws/KeepsHistory.lean ====
section
/-! SUPPORT. What the functions of Machine/History.lean keep: see Laws/Closed.lean. -/

set_option linter.unusedTactic false
set_option linter.unreachableTactic false

namespace Sys2Proof.Laws

open Sys2Proof.Machine

variable {P : State → Prop}

theorem cl_histStep (hP : Closed P) (s : State) (job op : Nat) (hs : P s) : P (State.histStep s job op) := by
  unfold State.histStep
  with_reducible repeat' first | assumption | (apply cl_beginHist hP) | (apply cl_endFailedHists hP) | (apply Quiet.put hP.toQuiet) | split

theorem cl_execHistoryRead (hP : Closed P) (job : Nat) (s : State) (hs : P s) : OutP P (execHistoryRead job s) := by
  unfold execHistoryRead
  with_reducible repeat' first | assumption | (apply cl_ok hP.toQuiet) | (apply cl_histStep hP) | (apply Quiet.put hP.toQuiet) | split | (apply OutP.ok) | (apply OutP.next)

theorem cl_execHistoryAppend (hP : Closed P) (job : Nat) (s : State) (hs : P s) : OutP P (execHistoryAppend job s) := by
  unfold execHistoryAppend
  with_reducible repeat' first | assumption | (apply cl_ok hP.toQuiet) | (apply cl_histStep hP) | (apply Quiet.put hP.toQuiet) | split | (apply OutP.ok) | (apply OutP.next)

theorem cl_execHistoryCreate (hP : Closed P) (job : Nat) (s : State) (hs : P s) : OutP P (execHistoryCreate job s) := by
  unfold execHistoryCreate
  with_reducible repeat' first | assumption | (apply cl_ok hP.toQuiet) | (apply cl_histStep hP) | (apply Quiet.put hP.toQuiet) | split | (apply OutP.ok) | (apply OutP.next)

theorem cl_execHistoryTrim (hP : Closed P) (job : Nat) (s : State) (hs : P s) : OutP P (execHistoryTrim job s) := by
  unfold execHistoryTrim
  with_reducible repeat' first | assumption | (apply cl_ok hP.toQuiet) | (apply cl_histStep hP) | (apply Quiet.put hP.toQuiet) | split | (apply OutP.ok) | (apply OutP.next)

theorem cl_execHistoryRelease (hP : Closed P) (job : Nat) (s : State) (hs : P s) : OutP P (execHistoryRelease job s) := by
  unfold execHistoryRelease
  with_reducible repeat' first | assumption | (apply cl_ok hP.toQuiet) | (apply cl_histStep hP) | (apply Quiet.put hP.toQuiet) | split | (apply OutP.ok) | (apply OutP.next)

theorem cl_histFree (hP : Closed P) (s : State) (h : Nat) (hs : P s) : P (State.histFree s h) := by
  unfold State.histFree; try dsimp only
  with_reducible repeat' first | assumption | (apply cl_putHist hP) | (apply Quiet.put hP.toQuiet) | ((apply Quiet.mk' hP.toQuiet); first | assumption | (apply cl_putHist hP) | (apply Quiet.put hP.toQuiet) | split) | ((apply Quiet.mk' hP.toQuiet); (apply Quiet.mk' hP.toQuiet); first | assumption | (apply cl_putHist hP) | (apply Quiet.put hP.toQuiet) | split) | split

theorem cl_execHistoryFree (hP : Closed P) (hist : Nat) (s : State) (hs : P s) : OutP P (execHistoryFree hist s) := by
  unfold execHistoryFree
  with_reducible repeat' first | assumption | (apply cl_ok hP.toQuiet) | (apply cl_histFree hP) | (apply Quiet.put hP.toQuiet) | split | (apply OutP.ok) | (apply OutP.next)

theorem cl_execFrameReturn (hP : Quiet P) (hist : Nat) (s : State) (hs : P s) : OutP P (execFrameReturn hist s) := by
  unfold execFrameReturn; try dsimp only
  with_reducible repeat' first | assumption | (apply cl_ok hP) | (apply cl_gatherPages hP) | (apply Quiet.put hP) | ((apply Quiet.mk' hP); first | assumption | (apply cl_ok hP) | (apply cl_gatherPages hP) | (apply Quiet.put hP) | split) | ((apply Quiet.mk' hP); (apply Quiet.mk' hP); first | assumption | (apply cl_ok hP) | (apply cl_gatherPages hP) | (apply Quiet.put hP) | split) | split | (intro _ _) | (intro _) | (apply OutP.ok) | (apply OutP.next)

theorem cl_putUse (hP : Quiet P) (s : State) (j : Job) (u : HistUse) (hs : P s) : P (State.putUse s j u) := by
  unfold State.putUse
  with_reducible repeat' first | assumption | (apply cl_putJob hP) | (apply Quiet.put hP) | ((apply Quiet.mk' hP); first | assumption | (apply cl_putJob hP) | (apply Quiet.put hP) | split) | ((apply Quiet.mk' hP); (apply Quiet.mk' hP); first | assumption | (apply cl_putJob hP) | (apply Quiet.put hP) | split) | split

theorem cl_readAll (hP : Closed P) (s : State) (r0 : List (Bool × Nat × Nat)) (hs : P s) : ExP P (State.readAll s r0) := by
  induction r0 generalizing s with
  | nil =>
    unfold State.readAll
    with_reducible repeat' first | assumption | (apply ih) | (apply cl_ok hP.toQuiet) | (apply cl_read hP) | (refine atExSndP ?_ (by assumption); apply cl_read hP) | (apply Quiet.put hP.toQuiet) | (refine atExP ?_ (by assumption); apply ih) | ((apply Quiet.mk' hP.toQuiet); first | assumption | (apply ih) | (apply cl_ok hP.toQuiet) | (apply cl_read hP) | (refine atExSndP ?_ (by assumption); apply cl_read hP) | (apply Quiet.put hP.toQuiet) | (refine atExP ?_ (by assumption); apply ih) | split) | split | (intro _ _) | (intro _) | (apply ExP.ok) | (exact ExP.error)
  | cons x l ih =>
    unfold State.readAll
    try dsimp only
    with_reducible repeat' first | assumption | (apply ih) | (apply cl_ok hP.toQuiet) | (apply cl_read hP) | (refine atExSndP ?_ (by assumption); apply cl_read hP) | (apply Quiet.put hP.toQuiet) | (refine atExP ?_ (by assumption); apply ih) | ((apply Quiet.mk' hP.toQuiet); first | assumption | (apply ih) | (apply cl_ok hP.toQuiet) | (apply cl_read hP) | (refine atExSndP ?_ (by assumption); apply cl_read hP) | (apply Quiet.put hP.toQuiet) | (refine atExP ?_ (by assumption); apply ih) | split) | split | (intro _ _) | (intro _) | (apply ExP.ok) | (exact ExP.error)

theorem cl_stepFails (hP : Closed P) (s : State) (j : Job) (h : Nat) (mine : Bool) (e : AccErr) (hs : P s) : P (State.stepFails s j h mine e) := by
  unfold State.stepFails; try dsimp only
  with_reducible repeat' first | assumption | (apply cl_memError hP) | (apply cl_histDamage hP) | (apply cl_endJobOf hP) | (apply Quiet.put hP.toQuiet) | split

theorem cl_dispatchStep (hP : Closed P) (s : State) (j : Job) (u : HistUse) (chunk unit : Nat) (hs : P s) : P (State.dispatchStep s j u chunk unit) := by
  unfold State.dispatchStep; try dsimp only
  with_reducible repeat' first | assumption | (apply cl_stepFails hP) | (apply cl_readAll hP) | (refine atExP ?_ (by assumption); apply cl_readAll hP) | (apply cl_ok hP.toQuiet) | (apply cl_putJob hP.toQuiet) | (apply cl_chargeC1 hP.toQuiet) | (apply cl_placeUnit hP.toQuiet) | (apply Quiet.put hP.toQuiet) | ((apply Quiet.mk' hP.toQuiet); first | assumption | (apply cl_stepFails hP) | (apply cl_readAll hP) | (refine atExP ?_ (by assumption); apply cl_readAll hP) | (apply cl_ok hP.toQuiet) | (apply cl_putJob hP.toQuiet) | (apply cl_chargeC1 hP.toQuiet) | (apply cl_placeUnit hP.toQuiet) | (apply Quiet.put hP.toQuiet) | split) | ((apply Quiet.mk' hP.toQuiet); (apply Quiet.mk' hP.toQuiet); first | assumption | (apply cl_stepFails hP) | (apply cl_readAll hP) | (refine atExP ?_ (by assumption); apply cl_readAll hP) | (apply cl_ok hP.toQuiet) | (apply cl_putJob hP.toQuiet) | (apply cl_chargeC1 hP.toQuiet) | (apply cl_placeUnit hP.toQuiet) | (apply Quiet.put hP.toQuiet) | split) | split | (intro _ _) | (intro _)

theorem cl_execChunkStep (hP : Closed P) (job : Nat) (step : StepOf) (s : State) (hs : P s) : OutP P (execChunkStep job step s) := by
  unfold execChunkStep
  with_reducible repeat' first | assumption | (apply cl_ok hP.toQuiet) | (apply cl_dispatchStep hP) | (apply Quiet.put hP.toQuiet) | split | (apply OutP.ok) | (apply OutP.next)

theorem cl_appendEnds (hP : Quiet P) (s : State) (j : Job) (u : HistUse) (hs : P s) : P (State.appendEnds s j u) := by
  unfold State.appendEnds
  with_reducible repeat' first | assumption | (apply cl_putJob hP) | (apply Quiet.put hP) | ((apply Quiet.mk' hP); first | assumption | (apply cl_putJob hP) | (apply Quiet.put hP) | split) | ((apply Quiet.mk' hP); (apply Quiet.mk' hP); first | assumption | (apply cl_putJob hP) | (apply Quiet.put hP) | split) | split

theorem cl_stepOver (hP : Quiet P) (s : State) (j : Job) (u : HistUse) (layers chunk l : Nat) (hs : P s) : P (State.stepOver s j u layers chunk l) := by
  unfold State.stepOver; try dsimp only
  with_reducible repeat' first | assumption | (apply cl_appendEnds hP) | (apply cl_putUse hP) | (apply Quiet.put hP) | ((apply Quiet.mk' hP); first | assumption | (apply cl_appendEnds hP) | (apply cl_putUse hP) | (apply Quiet.put hP) | split) | ((apply Quiet.mk' hP); (apply Quiet.mk' hP); first | assumption | (apply cl_appendEnds hP) | (apply cl_putUse hP) | (apply Quiet.put hP) | split) | split | (intro _ _) | (intro _)

theorem cl_writeAll (hP : Closed P) (s : State) (r0 : List (Nat × List Byte)) (hs : P s) : ExP P (State.writeAll s r0) := by
  induction r0 generalizing s with
  | nil =>
    unfold State.writeAll
    with_reducible repeat' first | assumption | (apply ih) | (apply cl_ok hP.toQuiet) | (apply cl_write hP) | (refine atExP ?_ (by assumption); apply cl_write hP) | (apply Quiet.put hP.toQuiet) | (refine atExP ?_ (by assumption); apply ih) | ((apply Quiet.mk' hP.toQuiet); first | assumption | (apply ih) | (apply cl_ok hP.toQuiet) | (apply cl_write hP) | (refine atExP ?_ (by assumption); apply cl_write hP) | (apply Quiet.put hP.toQuiet) | (refine atExP ?_ (by assumption); apply ih) | split) | split | (intro _ _) | (intro _) | (apply ExP.ok) | (exact ExP.error)
  | cons x l ih =>
    unfold State.writeAll
    try dsimp only
    with_reducible repeat' first | assumption | (apply ih) | (apply cl_ok hP.toQuiet) | (apply cl_write hP) | (refine atExP ?_ (by assumption); apply cl_write hP) | (apply Quiet.put hP.toQuiet) | (refine atExP ?_ (by assumption); apply ih) | ((apply Quiet.mk' hP.toQuiet); first | assumption | (apply ih) | (apply cl_ok hP.toQuiet) | (apply cl_write hP) | (refine atExP ?_ (by assumption); apply cl_write hP) | (apply Quiet.put hP.toQuiet) | (refine atExP ?_ (by assumption); apply ih) | split) | split | (intro _ _) | (intro _) | (apply ExP.ok) | (exact ExP.error)

theorem cl_stepDone (hP : Closed P) (s : State) (j : Job) (u : HistUse) (chunk : Nat) (kv out : List Byte) (hs : P s) : P (State.stepDone s j u chunk kv out) := by
  unfold State.stepDone
  with_reducible repeat' first | assumption | (apply cl_writeAll hP) | (refine atExP ?_ (by assumption); apply cl_writeAll hP) | (apply cl_ok hP.toQuiet) | (apply cl_stepOver hP.toQuiet) | (apply cl_stepFails hP) | (apply Quiet.put hP.toQuiet) | split | (intro _ _) | (intro _)

theorem cl_execChunkStepComplete (hP : Closed P) (job : Nat) (result : StepResult) (s : State) (hs : P s) : OutP P (execChunkStepComplete job result s) := by
  unfold execChunkStepComplete
  with_reducible repeat' first | assumption | (apply cl_ok hP.toQuiet) | (apply cl_stepDone hP) | (apply Quiet.put hP.toQuiet) | split | (apply OutP.ok) | (apply OutP.next)

theorem cl_execHistoryAppendFail (hP : Closed P) (job : Nat) (s : State) (hs : P s) : OutP P (execHistoryAppendFail job s) := by
  unfold execHistoryAppendFail
  with_reducible repeat' first | assumption | (apply cl_ok hP.toQuiet) | (apply cl_endJob hP) | (apply Quiet.put hP.toQuiet) | split | (apply OutP.ok) | (apply OutP.next)

theorem cl_showEvents (hP : Closed P) (s : State) (a : Appended) (hs : P s) : P (State.showEvents s a) := by
  unfold State.showEvents; try dsimp only
  with_reducible repeat' first | assumption | (apply cl_putHist hP) | (apply cl_historyRecord hP) | (apply cl_dropJob hP.toQuiet) | (apply Quiet.put hP.toQuiet) | ((apply Quiet.mk' hP.toQuiet); first | assumption | (apply cl_putHist hP) | (apply cl_historyRecord hP) | (apply cl_dropJob hP.toQuiet) | (apply Quiet.put hP.toQuiet) | split) | ((apply Quiet.mk' hP.toQuiet); (apply Quiet.mk' hP.toQuiet); first | assumption | (apply cl_putHist hP) | (apply cl_historyRecord hP) | (apply cl_dropJob hP.toQuiet) | (apply Quiet.put hP.toQuiet) | split) | split

theorem cl_showAppends (hP : Closed P) (s : State) (hs : P s) : P (State.showAppends s) := by
  unfold State.showAppends
  with_reducible repeat' first | assumption | (apply cl_showEvents hP) | (apply Quiet.put hP.toQuiet) | ((apply Quiet.mk' hP.toQuiet); first | assumption | (apply cl_showEvents hP) | (apply Quiet.put hP.toQuiet) | (apply cl_foldl) | split) | ((apply Quiet.mk' hP.toQuiet); (apply Quiet.mk' hP.toQuiet); first | assumption | (apply cl_showEvents hP) | (apply Quiet.put hP.toQuiet) | (apply cl_foldl) | split) | split | (apply cl_foldl) | (intro _ _) | (intro _)

theorem cl_execHistoryStop (hP : Quiet P) (s : State) (hs : P s) : OutP P (execHistoryStop s) := by
  unfold execHistoryStop
  with_reducible repeat' first | assumption | (apply cl_ok hP) | (apply cl_hostDo hP) | (apply cl_put hP) | (apply Quiet.put hP) | split | (intro _ _) | (intro _) | (apply OutP.ok) | (apply OutP.next)

theorem cl_execHistoryStopped (hP : Quiet P) (s : State) (hs : P s) : OutP P (execHistoryStopped s) := by
  unfold execHistoryStopped
  with_reducible repeat' first | assumption | (apply cl_ok hP) | (apply cl_put hP) | (apply Quiet.put hP) | split | (apply OutP.ok) | (apply OutP.next)

theorem cl_histStart (hP : Closed P) (s : State) (hs : P s) : P (State.histStart s) := by
  unfold State.histStart; try dsimp only
  with_reducible repeat' first | assumption | (apply cl_zero hP) | (apply cl_put hP.toQuiet) | (apply Quiet.put hP.toQuiet) | ((apply Quiet.mk' hP.toQuiet); first | assumption | (apply cl_zero hP) | (apply cl_put hP.toQuiet) | (apply Quiet.put hP.toQuiet) | split) | ((apply Quiet.mk' hP.toQuiet); (apply Quiet.mk' hP.toQuiet); first | assumption | (apply cl_zero hP) | (apply cl_put hP.toQuiet) | (apply Quiet.put hP.toQuiet) | split) | split

theorem cl_execHistoryStart (hP : Closed P) (s : State) (hs : P s) : OutP P (execHistoryStart s) := by
  unfold execHistoryStart
  with_reducible repeat' first | assumption | (apply cl_ok hP.toQuiet) | (apply cl_hostDo hP.toQuiet) | (apply cl_histStart hP) | (apply Quiet.put hP.toQuiet) | split | (intro _ _) | (intro _) | (apply OutP.ok) | (apply OutP.next)

end Sys2Proof.Laws
end

