-- ==== Sys2Proof/Laws/KeepsAdmission.lean ====
section
/-! SUPPORT. What the functions of Machine/Admission.lean keep: see Laws/Closed.lean. -/

set_option linter.unusedTactic false
set_option linter.unreachableTactic false

namespace Sys2Proof.Laws

open Sys2Proof.Machine

variable {P : State → Prop}

theorem cl_refuse (hP : Closed P) (s : State) (n jobRef : Nat) (noIrq : Bool) (r : Refused) (hs : P s) : P (State.refuse s n jobRef noIrq r) := by
  unfold State.refuse; try dsimp only
  with_reducible repeat' first | assumption | (apply cl_postRecord hP) | (apply cl_releaseSlots hP.toQuiet) | (apply cl_inc hP.toQuiet) | (apply cl_trace hP.toQuiet) | (apply Quiet.put hP.toQuiet) | split

theorem cl_takeJob (hP : Quiet P) (s : State) (j : Job) (hs : P s) : P (State.takeJob s j) := by
  unfold State.takeJob
  with_reducible repeat' first | assumption | (apply cl_traceJob hP) | (apply Quiet.put hP) | ((apply Quiet.mk' hP); first | assumption | (apply cl_traceJob hP) | (apply Quiet.put hP) | split) | ((apply Quiet.mk' hP); (apply Quiet.mk' hP); first | assumption | (apply cl_traceJob hP) | (apply Quiet.put hP) | split) | split

theorem cl_admitRun (hP : Closed P) (s : State) (ring sq : Nat) (d : Described) (p : RunPlan) (hs : P s) : P (State.admitRun s ring sq d p) := by
  unfold State.admitRun; try dsimp only
  with_reducible repeat' first | assumption | (apply cl_releaseSlots hP.toQuiet) | (apply cl_inc hP.toQuiet) | (apply cl_startLoad hP) | (apply cl_setModel hP) | (apply cl_takeJob hP.toQuiet) | (apply Quiet.put hP.toQuiet) | ((apply Quiet.mk' hP.toQuiet); first | assumption | (apply cl_releaseSlots hP.toQuiet) | (apply cl_inc hP.toQuiet) | (apply cl_startLoad hP) | (apply cl_setModel hP) | (apply cl_takeJob hP.toQuiet) | (apply Quiet.put hP.toQuiet) | split) | ((apply Quiet.mk' hP.toQuiet); (apply Quiet.mk' hP.toQuiet); first | assumption | (apply cl_releaseSlots hP.toQuiet) | (apply cl_inc hP.toQuiet) | (apply cl_startLoad hP) | (apply cl_setModel hP) | (apply cl_takeJob hP.toQuiet) | (apply Quiet.put hP.toQuiet) | split) | split | (intro _ _) | (intro _)

theorem cl_admitConsign (hP : Quiet P) (s : State) (ring sq : Nat) (d : Described) (h : ConsHeader) (acts : List Action) (cost : Cost) (hs : P s) : P (State.admitConsign s ring sq d h acts cost) := by
  unfold State.admitConsign; try dsimp only
  with_reducible repeat' first | assumption | (apply cl_takeJob hP) | (apply Quiet.put hP) | ((apply Quiet.mk' hP); first | assumption | (apply cl_takeJob hP) | (apply Quiet.put hP) | split) | ((apply Quiet.mk' hP); (apply Quiet.mk' hP); first | assumption | (apply cl_takeJob hP) | (apply Quiet.put hP) | split) | split

theorem cl_admitDesc (hP : Closed P) (s : State) (f : Fetched) (hs : P s) : P (State.admitDesc s f) := by
  unfold State.admitDesc; try dsimp only
  with_reducible repeat' first | assumption | (apply cl_ok hP.toQuiet) | (apply cl_admitRun hP) | (apply cl_inc hP.toQuiet) | (apply cl_refuse hP) | (apply cl_admitConsign hP.toQuiet) | (apply cl_postRecord hP) | (apply cl_releaseSlots hP.toQuiet) | (apply cl_trace hP.toQuiet) | (apply Quiet.put hP.toQuiet) | ((apply Quiet.mk' hP.toQuiet); first | assumption | (apply cl_ok hP.toQuiet) | (apply cl_admitRun hP) | (apply cl_inc hP.toQuiet) | (apply cl_refuse hP) | (apply cl_admitConsign hP.toQuiet) | (apply cl_postRecord hP) | (apply cl_releaseSlots hP.toQuiet) | (apply cl_trace hP.toQuiet) | (apply Quiet.put hP.toQuiet) | split) | ((apply Quiet.mk' hP.toQuiet); (apply Quiet.mk' hP.toQuiet); first | assumption | (apply cl_ok hP.toQuiet) | (apply cl_admitRun hP) | (apply cl_inc hP.toQuiet) | (apply cl_refuse hP) | (apply cl_admitConsign hP.toQuiet) | (apply cl_postRecord hP) | (apply cl_releaseSlots hP.toQuiet) | (apply cl_trace hP.toQuiet) | (apply Quiet.put hP.toQuiet) | split) | split | (intro _ _) | (intro _)

theorem cl_markDue (hP : Quiet P) (s : State) (hs : P s) : P (State.markDue s) := by
  unfold State.markDue
  with_reducible repeat' first | assumption | (apply Quiet.put hP) | ((apply Quiet.mk' hP); first | assumption | (apply Quiet.put hP) | split) | ((apply Quiet.mk' hP); (apply Quiet.mk' hP); first | assumption | (apply Quiet.put hP) | split) | split | (intro _ _) | (intro _)

theorem cl_admitAll (hP : Closed P) (s : State) (hs : P s) : P (State.admitAll s) := by
  unfold State.admitAll; try dsimp only
  with_reducible repeat' first | assumption | (apply cl_markDue hP.toQuiet) | (apply cl_admitDesc hP) | (apply Quiet.put hP.toQuiet) | split | (apply cl_foldl) | (intro _ _) | (intro _)

theorem cl_completeRun (hP : Closed P) (s : State) (j : Job) (hs : P s) : P (State.completeRun s j) := by
  unfold State.completeRun; try dsimp only
  with_reducible repeat' first | assumption | (apply cl_beginHist hP) | (apply cl_endJob hP) | (apply cl_jobRecord hP) | (apply cl_putJob hP.toQuiet) | (apply Quiet.put hP.toQuiet) | ((apply Quiet.mk' hP.toQuiet); first | assumption | (apply cl_beginHist hP) | (apply cl_endJob hP) | (apply cl_jobRecord hP) | (apply cl_putJob hP.toQuiet) | (apply Quiet.put hP.toQuiet) | split) | ((apply Quiet.mk' hP.toQuiet); (apply Quiet.mk' hP.toQuiet); first | assumption | (apply cl_beginHist hP) | (apply cl_endJob hP) | (apply cl_jobRecord hP) | (apply cl_putJob hP.toQuiet) | (apply Quiet.put hP.toQuiet) | split) | split | (intro _ _) | (intro _)

theorem cl_execRun (hP : Closed P) (ring sq : Nat) (s : State) (hs : P s) : OutP P (execRun ring sq s) := by
  unfold execRun
  with_reducible repeat' first | assumption | (apply cl_ok hP.toQuiet) | (apply cl_completeRun hP) | (apply cl_admitDesc hP) | (apply Quiet.put hP.toQuiet) | split | (apply OutP.ok) | (apply OutP.next)

theorem cl_execConsign (hP : Closed P) (ring sq : Nat) (s : State) (hs : P s) : OutP P (execConsign ring sq s) := by
  unfold execConsign
  with_reducible repeat' first | assumption | (apply cl_ok hP.toQuiet) | (apply cl_admitDesc hP) | (apply Quiet.put hP.toQuiet) | split | (apply OutP.ok) | (apply OutP.next)

theorem cl_execNop (hP : Closed P) (ring sq : Nat) (s : State) (hs : P s) : OutP P (execNop ring sq s) := by
  unfold execNop
  with_reducible repeat' first | assumption | (apply cl_ok hP.toQuiet) | (apply cl_admitDesc hP) | (apply Quiet.put hP.toQuiet) | split | (apply OutP.ok) | (apply OutP.next)

theorem cl_deadlinePasses (hP : Closed P) (s : State) (i : Nat) (hs : P s) : P (State.deadlinePasses s i) := by
  unfold State.deadlinePasses
  with_reducible repeat' first | assumption | (apply cl_endJob hP) | (apply Quiet.put hP.toQuiet) | split

theorem cl_execJobDeadline (hP : Closed P) (job : Nat) (s : State) (hs : P s) : OutP P (execJobDeadline job s) := by
  unfold execJobDeadline
  with_reducible repeat' first | assumption | (apply cl_ok hP.toQuiet) | (apply cl_deadlinePasses hP) | (apply Quiet.put hP.toQuiet) | split | (apply OutP.ok) | (apply OutP.next)

theorem cl_overdue (hP : Closed P) (s : State) (hs : P s) : P (State.overdue s) := by
  unfold State.overdue
  with_reducible repeat' first | assumption | (apply cl_deadlinePasses hP) | (apply Quiet.put hP.toQuiet) | split | (apply cl_foldl) | (intro _ _) | (intro _)

theorem cl_deductRings (hP : Quiet P) (s : State) (e : Nat) (r0 : List Nat) (r1 : Nat) (hs : P s) : FstP P (State.deductRings s e r0 r1) := by
  induction r0 generalizing s e r1 with
  | nil =>
    unfold State.deductRings
    with_reducible repeat' first | assumption | (apply ih) | (apply cl_putRing hP) | (apply Quiet.put hP) | (refine FstP.at ?_ (by assumption); apply ih) | (apply FstP.out; apply ih) | ((apply Quiet.mk' hP); first | assumption | (apply ih) | (apply cl_putRing hP) | (apply Quiet.put hP) | (refine FstP.at ?_ (by assumption); apply ih) | (apply FstP.out; apply ih) | split) | split | (intro _ _) | (intro _) | (apply FstP.mk)
  | cons x l ih =>
    unfold State.deductRings
    try dsimp only
    with_reducible repeat' first | assumption | (apply ih) | (apply cl_putRing hP) | (apply Quiet.put hP) | (refine FstP.at ?_ (by assumption); apply ih) | (apply FstP.out; apply ih) | ((apply Quiet.mk' hP); first | assumption | (apply ih) | (apply cl_putRing hP) | (apply Quiet.put hP) | (refine FstP.at ?_ (by assumption); apply ih) | (apply FstP.out; apply ih) | split) | split | (intro _ _) | (intro _) | (apply FstP.mk)

theorem cl_chargeDebt (hP : Quiet P) (s : State) (c e : Nat) (hs : P s) : P (State.chargeDebt s c e) := by
  unfold State.chargeDebt; try dsimp only
  with_reducible repeat' first | assumption | (apply cl_deductRings hP) | (refine FstP.at ?_ (by assumption); apply cl_deductRings hP) | (apply FstP.out; apply cl_deductRings hP) | (apply Quiet.put hP) | ((apply Quiet.mk' hP); first | assumption | (apply cl_deductRings hP) | (refine FstP.at ?_ (by assumption); apply cl_deductRings hP) | (apply FstP.out; apply cl_deductRings hP) | (apply Quiet.put hP) | split) | ((apply Quiet.mk' hP); (apply Quiet.mk' hP); first | assumption | (apply cl_deductRings hP) | (refine FstP.at ?_ (by assumption); apply cl_deductRings hP) | (apply FstP.out; apply cl_deductRings hP) | (apply Quiet.put hP) | split) | split | (intro _ _) | (intro _)

theorem cl_noteDebt (hP : Quiet P) (s : State) (n : Nat) (hs : P s) : P (State.noteDebt s n) := by
  unfold State.noteDebt; try dsimp only
  with_reducible repeat' first | assumption | (apply cl_put hP) | (apply cl_freezeRing hP) | (apply Quiet.put hP) | split

theorem cl_chargeDebts (hP : Quiet P) (s : State) (overs : List (Nat × Nat × Nat)) (hs : P s) : P (State.chargeDebts s overs) := by
  unfold State.chargeDebts; try dsimp only
  with_reducible repeat' first | assumption | (apply cl_putRing hP) | (apply cl_chargeDebt hP) | (apply cl_noteDebt hP) | (apply Quiet.put hP) | ((apply Quiet.mk' hP); first | assumption | (apply cl_putRing hP) | (apply cl_chargeDebt hP) | (apply cl_noteDebt hP) | (apply Quiet.put hP) | (apply cl_foldl) | split) | ((apply Quiet.mk' hP); (apply Quiet.mk' hP); first | assumption | (apply cl_putRing hP) | (apply cl_chargeDebt hP) | (apply cl_noteDebt hP) | (apply Quiet.put hP) | (apply cl_foldl) | split) | split | (apply cl_foldl) | (intro _ _) | (intro _)

theorem cl_breakOne (hP : Closed P) (s : State) (r : Res) (d : Nat) (hs : P s) : P (State.breakOne s r d) := by
  unfold State.breakOne; try dsimp only
  with_reducible repeat' first | assumption | (apply cl_endJob hP) | (apply cl_inc hP.toQuiet) | (apply Quiet.put hP.toQuiet) | split | (intro _ _) | (intro _)

theorem cl_checkGuarantees (hP : Closed P) (s : State) (r0 : Nat) (hs : P s) : P (State.checkGuarantees s r0) := by
  induction r0 generalizing s with
  | zero =>
    unfold State.checkGuarantees
    with_reducible repeat' first | assumption | (apply ih) | (apply cl_breakOne hP) | (apply Quiet.put hP.toQuiet) | ((apply Quiet.mk' hP.toQuiet); first | assumption | (apply ih) | (apply cl_breakOne hP) | (apply Quiet.put hP.toQuiet) | split) | split | (intro _ _) | (intro _)
  | succ m ih =>
    unfold State.checkGuarantees
    try dsimp only
    with_reducible repeat' first | assumption | (apply ih) | (apply cl_breakOne hP) | (apply Quiet.put hP.toQuiet) | ((apply Quiet.mk' hP.toQuiet); first | assumption | (apply ih) | (apply cl_breakOne hP) | (apply Quiet.put hP.toQuiet) | split) | split | (intro _ _) | (intro _)

theorem cl_streamFreezeReset (hP : Quiet P) (s : State) (n : Nat) (hs : P s) : P (State.streamFreezeReset s n) := by
  unfold State.streamFreezeReset
  with_reducible repeat' first | assumption | (apply cl_freeStream hP) | (apply Quiet.put hP) | split

theorem cl_taskFreezeReset (hP : Quiet P) (s : State) (i : Nat) (hs : P s) : P (State.taskFreezeReset s i) := by
  unfold State.taskFreezeReset
  with_reducible repeat' first | assumption | (apply cl_freeSlot hP) | (apply Quiet.put hP) | split

theorem cl_execFreezeResetStream (hP : Quiet P) (stream : Nat) (s : State) (hs : P s) : OutP P (execFreezeResetStream stream s) := by
  unfold execFreezeResetStream
  with_reducible repeat' first | assumption | (apply cl_ok hP) | (apply cl_hostDo hP) | (apply cl_streamFreezeReset hP) | (apply Quiet.put hP) | split | (intro _ _) | (intro _) | (apply OutP.ok) | (apply OutP.next)

theorem cl_execFreezeResetKilnTask (hP : Quiet P) (task : Nat) (s : State) (hs : P s) : OutP P (execFreezeResetKilnTask task s) := by
  unfold execFreezeResetKilnTask
  with_reducible repeat' first | assumption | (apply cl_ok hP) | (apply cl_hostDo hP) | (apply cl_taskFreezeReset hP) | (apply Quiet.put hP) | split | (intro _ _) | (intro _) | (apply OutP.ok) | (apply OutP.next)

theorem cl_peerFreezeReset (hP : Closed P) (s : State) (d : Nat) (hs : P s) : P (State.peerFreezeReset s d) := by
  unfold State.peerFreezeReset
  with_reducible repeat' first | assumption | (apply cl_putPeer hP.toQuiet) | (apply cl_malformed hP) | (apply Quiet.put hP.toQuiet) | ((apply Quiet.mk' hP.toQuiet); first | assumption | (apply cl_putPeer hP.toQuiet) | (apply cl_malformed hP) | (apply Quiet.put hP.toQuiet) | split) | ((apply Quiet.mk' hP.toQuiet); (apply Quiet.mk' hP.toQuiet); first | assumption | (apply cl_putPeer hP.toQuiet) | (apply cl_malformed hP) | (apply Quiet.put hP.toQuiet) | split) | split

theorem cl_execFreezeResetPeer (hP : Closed P) (device : Nat) (s : State) (hs : P s) : OutP P (execFreezeResetPeer device s) := by
  unfold execFreezeResetPeer
  with_reducible repeat' first | assumption | (apply cl_ok hP.toQuiet) | (apply cl_hostDo hP.toQuiet) | (apply cl_peerFreezeReset hP) | (apply Quiet.put hP.toQuiet) | split | (intro _ _) | (intro _) | (apply OutP.ok) | (apply OutP.next)

end Sys2Proof.Laws
end

