-- ==== Sys2Proof/Laws/KeepsPorts.lean ====
section
/-! SUPPORT. What the functions of Machine/Ports.lean keep: see Laws/Closed.lean. -/

set_option linter.unusedTactic false
set_option linter.unreachableTactic false

namespace Sys2Proof.Laws

open Sys2Proof.Machine

variable {P : State → Prop}

theorem cl_endSilently (hP : Closed P) (s : State) (j : Job) (hs : P s) : P (State.endSilently s j) := by
  unfold State.endSilently; try dsimp only
  with_reducible repeat' first | assumption | (apply cl_beginHist hP) | (apply cl_stopWork hP.toQuiet) | (apply cl_histFail hP) | (apply cl_dropJob hP.toQuiet) | (apply cl_prepareFails hP) | (apply Quiet.put hP.toQuiet) | split | (apply cl_foldl) | (intro _ _) | (intro _)

theorem cl_resetRing (hP : Closed P) (s : State) (n : Nat) (hs : P s) : P (State.resetRing s n) := by
  unfold State.resetRing; try dsimp only
  with_reducible repeat' first | assumption | (apply cl_endSilently hP) | (apply cl_put hP.toQuiet) | (apply cl_ringStopped hP.toQuiet) | (apply Quiet.put hP.toQuiet) | ((apply Quiet.mk' hP.toQuiet); first | assumption | (apply cl_endSilently hP) | (apply cl_put hP.toQuiet) | (apply cl_ringStopped hP.toQuiet) | (apply Quiet.put hP.toQuiet) | (apply cl_foldl) | split) | ((apply Quiet.mk' hP.toQuiet); (apply Quiet.mk' hP.toQuiet); first | assumption | (apply cl_endSilently hP) | (apply cl_put hP.toQuiet) | (apply cl_ringStopped hP.toQuiet) | (apply Quiet.put hP.toQuiet) | (apply cl_foldl) | split) | split | (apply cl_foldl) | (intro _ _) | (intro _)

theorem cl_resetFunction (hP : Quiet P) (s : State) (p : Nat) (hs : P s) : P (State.resetFunction s p) := by
  unfold State.resetFunction; try dsimp only
  with_reducible repeat' first | assumption | (apply cl_put hP) | (apply Quiet.put hP) | ((apply Quiet.mk' hP); first | assumption | (apply cl_put hP) | (apply Quiet.put hP) | split) | ((apply Quiet.mk' hP); (apply Quiet.mk' hP); first | assumption | (apply cl_put hP) | (apply Quiet.put hP) | split) | split | (intro _ _) | (intro _)

theorem cl_portReset (hP : Closed P) (s : State) (p : Nat) (hs : P s) : P (State.portReset s p) := by
  unfold State.portReset; try dsimp only
  with_reducible repeat' first | assumption | (apply cl_resetRing hP) | (apply cl_resetFunction hP.toQuiet) | (apply Quiet.put hP.toQuiet) | ((apply Quiet.mk' hP.toQuiet); first | assumption | (apply cl_resetRing hP) | (apply cl_resetFunction hP.toQuiet) | (apply Quiet.put hP.toQuiet) | (apply cl_foldl) | split) | ((apply Quiet.mk' hP.toQuiet); (apply Quiet.mk' hP.toQuiet); first | assumption | (apply cl_resetRing hP) | (apply cl_resetFunction hP.toQuiet) | (apply Quiet.put hP.toQuiet) | (apply cl_foldl) | split) | split | (apply cl_foldl) | (intro _ _) | (intro _)

theorem cl_execPortReset (hP : Closed P) (port : Nat) (s : State) (hs : P s) : OutP P (execPortReset port s) := by
  unfold execPortReset
  with_reducible repeat' first | assumption | (apply cl_ok hP.toQuiet) | (apply cl_portReset hP) | (apply Quiet.put hP.toQuiet) | split | (apply OutP.ok) | (apply OutP.next)

end Sys2Proof.Laws
end

