-- ==== Sys2Proof/Laws/KeepsQuays.lean ====
section
/-! SUPPORT. What the functions of Machine/Quays.lean keep: see Laws/Closed.lean. -/

set_option linter.unusedTactic false
set_option linter.unreachableTactic false

namespace Sys2Proof.Laws

open Sys2Proof.Machine

variable {P : State → Prop}

theorem cl_putWidth (hP : Quiet P) (s : State) (q : Nat) (hs : P s) : P (State.putWidth s q) := by
  unfold State.putWidth; try dsimp only
  with_reducible repeat' first | assumption | (apply cl_put hP) | (apply Quiet.put hP) | split

theorem cl_divert (hP : Quiet P) (s : State) (q : Nat) (hs : P s) : P (State.divert s q) := by
  unfold State.divert
  with_reducible repeat' first | assumption | (apply Quiet.put hP) | ((apply Quiet.mk' hP); first | assumption | (apply Quiet.put hP) | split) | ((apply Quiet.mk' hP); (apply Quiet.mk' hP); first | assumption | (apply Quiet.put hP) | split) | split | (intro _ _) | (intro _)

theorem cl_quayFails (hP : Closed P) (s : State) (q cause : Nat) (hs : P s) : P (State.quayFails s q cause) := by
  unfold State.quayFails; try dsimp only
  with_reducible repeat' first | assumption | (apply cl_detect hP) | (apply cl_inc hP.toQuiet) | (apply cl_putQuay hP.toQuiet) | (apply cl_divert hP.toQuiet) | (apply cl_reroute hP.toQuiet) | (apply cl_sendVc0 hP.toQuiet) | (apply Quiet.put hP.toQuiet) | ((apply Quiet.mk' hP.toQuiet); first | assumption | (apply cl_detect hP) | (apply cl_inc hP.toQuiet) | (apply cl_putQuay hP.toQuiet) | (apply cl_divert hP.toQuiet) | (apply cl_reroute hP.toQuiet) | (apply cl_sendVc0 hP.toQuiet) | (apply Quiet.put hP.toQuiet) | split) | ((apply Quiet.mk' hP.toQuiet); (apply Quiet.mk' hP.toQuiet); first | assumption | (apply cl_detect hP) | (apply cl_inc hP.toQuiet) | (apply cl_putQuay hP.toQuiet) | (apply cl_divert hP.toQuiet) | (apply cl_reroute hP.toQuiet) | (apply cl_sendVc0 hP.toQuiet) | (apply Quiet.put hP.toQuiet) | split) | split

theorem cl_execQuayFail (hP : Closed P) (quay cause : Nat) (s : State) (hs : P s) : OutP P (execQuayFail quay cause s) := by
  unfold execQuayFail
  with_reducible repeat' first | assumption | (apply cl_ok hP.toQuiet) | (apply cl_quayFails hP) | (apply Quiet.put hP.toQuiet) | split | (apply OutP.ok) | (apply OutP.next)

theorem cl_laneFails (hP : Closed P) (s : State) (q l source : Nat) (hs : P s) : P (State.laneFails s q l source) := by
  unfold State.laneFails; try dsimp only
  with_reducible repeat' first | assumption | (apply cl_detect hP) | (apply cl_putQuay hP.toQuiet) | (apply cl_putWidth hP.toQuiet) | (apply cl_quayFails hP) | (apply Quiet.put hP.toQuiet) | ((apply Quiet.mk' hP.toQuiet); first | assumption | (apply cl_detect hP) | (apply cl_putQuay hP.toQuiet) | (apply cl_putWidth hP.toQuiet) | (apply cl_quayFails hP) | (apply Quiet.put hP.toQuiet) | split) | ((apply Quiet.mk' hP.toQuiet); (apply Quiet.mk' hP.toQuiet); first | assumption | (apply cl_detect hP) | (apply cl_putQuay hP.toQuiet) | (apply cl_putWidth hP.toQuiet) | (apply cl_quayFails hP) | (apply Quiet.put hP.toQuiet) | split) | split

theorem cl_execLaneFail (hP : Closed P) (quay lane source : Nat) (s : State) (hs : P s) : OutP P (execLaneFail quay lane source s) := by
  unfold execLaneFail
  with_reducible repeat' first | assumption | (apply cl_ok hP.toQuiet) | (apply cl_laneFails hP) | (apply Quiet.put hP.toQuiet) | split | (apply OutP.ok) | (apply OutP.next)

theorem cl_forward (hP : Quiet P) (s : State) (b : Nat × Nat) (hs : P s) : P (State.forward s b) := by
  unfold State.forward; try dsimp only
  with_reducible repeat' first | assumption | (apply cl_putQuay hP) | (apply Quiet.put hP) | ((apply Quiet.mk' hP); first | assumption | (apply cl_putQuay hP) | (apply Quiet.put hP) | split) | ((apply Quiet.mk' hP); (apply Quiet.mk' hP); first | assumption | (apply cl_putQuay hP) | (apply Quiet.put hP) | split) | split

theorem cl_countFrame (hP : Quiet P) (s : State) (q l : Nat) (hs : P s) : P (State.countFrame s q l) := by
  unfold State.countFrame; try dsimp only
  with_reducible repeat' first | assumption | (apply cl_putQuay hP) | (apply Quiet.put hP) | ((apply Quiet.mk' hP); first | assumption | (apply cl_putQuay hP) | (apply Quiet.put hP) | split) | ((apply Quiet.mk' hP); (apply Quiet.mk' hP); first | assumption | (apply cl_putQuay hP) | (apply Quiet.put hP) | split) | split | (intro _ _) | (intro _)

theorem cl_deliverFrame (hP : Closed P) (s : State) (q : Nat) (h : Nat × Nat × List (Nat × Nat)) (hs : P s) : P (State.deliverFrame s q h) := by
  unfold State.deliverFrame; try dsimp only
  with_reducible repeat' first | assumption | (apply cl_quayFails hP) | (apply cl_forward hP.toQuiet) | (apply cl_countFrame hP.toQuiet) | (apply cl_send hP.toQuiet) | (apply Quiet.put hP.toQuiet) | split | (apply cl_foldl) | (intro _ _) | (intro _)

theorem cl_deliverFrames (hP : Closed P) (s : State) (q : Nat) (hs : P s) : P (State.deliverFrames s q) := by
  unfold State.deliverFrames; try dsimp only
  with_reducible repeat' first | assumption | (apply cl_deliverFrame hP) | (apply cl_putQuay hP.toQuiet) | (apply Quiet.put hP.toQuiet) | ((apply Quiet.mk' hP.toQuiet); first | assumption | (apply cl_deliverFrame hP) | (apply cl_putQuay hP.toQuiet) | (apply Quiet.put hP.toQuiet) | (apply cl_foldl) | split) | ((apply Quiet.mk' hP.toQuiet); (apply Quiet.mk' hP.toQuiet); first | assumption | (apply cl_deliverFrame hP) | (apply cl_putQuay hP.toQuiet) | (apply Quiet.put hP.toQuiet) | (apply cl_foldl) | split) | split | (apply cl_foldl) | (intro _ _) | (intro _)

theorem cl_blockPasses (hP : Closed P) (s : State) (q l n : Nat) (closes : Bool) (through : List (Nat × Nat)) (hs : P s) : P (State.blockPasses s q l n closes through) := by
  unfold State.blockPasses; try dsimp only
  with_reducible repeat' first | assumption | (apply cl_putQuay hP.toQuiet) | (apply cl_deliverFrames hP) | (apply Quiet.put hP.toQuiet) | ((apply Quiet.mk' hP.toQuiet); first | assumption | (apply cl_putQuay hP.toQuiet) | (apply cl_deliverFrames hP) | (apply Quiet.put hP.toQuiet) | split) | ((apply Quiet.mk' hP.toQuiet); (apply Quiet.mk' hP.toQuiet); first | assumption | (apply cl_putQuay hP.toQuiet) | (apply cl_deliverFrames hP) | (apply Quiet.put hP.toQuiet) | split) | split | (intro _ _) | (intro _)

theorem cl_blockFails (hP : Closed P) (s : State) (q l n : Nat) (hs : P s) : P (State.blockFails s q l n) := by
  unfold State.blockFails; try dsimp only
  with_reducible repeat' first | assumption | (apply cl_laneFails hP) | (apply cl_putQuay hP.toQuiet) | (apply cl_send hP.toQuiet) | (apply Quiet.put hP.toQuiet) | ((apply Quiet.mk' hP.toQuiet); first | assumption | (apply cl_laneFails hP) | (apply cl_putQuay hP.toQuiet) | (apply cl_send hP.toQuiet) | (apply Quiet.put hP.toQuiet) | split) | ((apply Quiet.mk' hP.toQuiet); (apply Quiet.mk' hP.toQuiet); first | assumption | (apply cl_laneFails hP) | (apply cl_putQuay hP.toQuiet) | (apply cl_send hP.toQuiet) | (apply Quiet.put hP.toQuiet) | split) | split | (intro _ _) | (intro _)

theorem cl_creditBack (hP : Quiet P) (s : State) (q vc n : Nat) (hs : P s) : P (State.creditBack s q vc n) := by
  unfold State.creditBack; try dsimp only
  with_reducible repeat' first | assumption | (apply cl_putQuay hP) | (apply Quiet.put hP) | ((apply Quiet.mk' hP); first | assumption | (apply cl_putQuay hP) | (apply Quiet.put hP) | split) | ((apply Quiet.mk' hP); (apply Quiet.mk' hP); first | assumption | (apply cl_putQuay hP) | (apply Quiet.put hP) | split) | split | (intro _ _) | (intro _)

theorem cl_execBlockReceive (hP : Closed P) (quay lane seq outcome : Nat) (last : BlockEnd) (s : State) (hs : P s) : OutP P (execBlockReceive quay lane seq outcome last s) := by
  unfold execBlockReceive
  with_reducible repeat' first | assumption | (apply cl_ok hP.toQuiet) | (apply cl_creditBack hP.toQuiet) | (apply cl_blockPasses hP) | (apply cl_inc hP.toQuiet) | (apply cl_blockFails hP) | (apply cl_quayFails hP) | (apply Quiet.put hP.toQuiet) | split | (apply OutP.ok) | (apply OutP.next)

theorem cl_execReplayRequest (hP : Quiet P) (quay lane seq : Nat) (s : State) (hs : P s) : OutP P (execReplayRequest quay lane seq s) := by
  unfold execReplayRequest
  with_reducible repeat' first | assumption | (apply cl_ok hP) | (apply cl_inc hP) | (apply cl_send hP) | (apply Quiet.put hP) | split | (apply OutP.ok) | (apply OutP.next)

theorem cl_sendBlock (hP : Quiet P) (s : State) (q l : Nat) (w : Waiting) (hs : P s) : P (State.sendBlock s q l w) := by
  unfold State.sendBlock; try dsimp only
  with_reducible repeat' first | assumption | (apply cl_putQuay hP) | (apply cl_send hP) | (apply Quiet.put hP) | ((apply Quiet.mk' hP); first | assumption | (apply cl_putQuay hP) | (apply cl_send hP) | (apply Quiet.put hP) | split) | ((apply Quiet.mk' hP); (apply Quiet.mk' hP); first | assumption | (apply cl_putQuay hP) | (apply cl_send hP) | (apply Quiet.put hP) | split) | split | (intro _ _) | (intro _)

theorem cl_sendBlocks (hP : Quiet P) (s : State) (q l : Nat) (r0 : Nat) (hs : P s) : P (State.sendBlocks s q l r0) := by
  induction r0 generalizing s q l with
  | zero =>
    unfold State.sendBlocks
    with_reducible repeat' first | assumption | (apply ih) | (apply cl_sendBlock hP) | (apply Quiet.put hP) | ((apply Quiet.mk' hP); first | assumption | (apply ih) | (apply cl_sendBlock hP) | (apply Quiet.put hP) | split) | split | (intro _ _) | (intro _)
  | succ m ih =>
    unfold State.sendBlocks
    try dsimp only
    with_reducible repeat' first | assumption | (apply ih) | (apply cl_sendBlock hP) | (apply Quiet.put hP) | ((apply Quiet.mk' hP); first | assumption | (apply ih) | (apply cl_sendBlock hP) | (apply Quiet.put hP) | split) | split | (intro _ _) | (intro _)

theorem cl_rekey (hP : Quiet P) (s : State) (q : Nat) (sent : Bool) (hs : P s) : P (State.rekey s q sent) := by
  unfold State.rekey; exact cl_send hP _ _ (cl_putQuay hP _ _ _ hs)

theorem cl_rekeyDue (hP : Quiet P) (s : State) (q : Nat) (hs : P s) : P (State.rekeyDue s q) := by
  unfold State.rekeyDue; split; exacts [cl_rekey hP _ _ _ hs, hs]

theorem cl_execFrameIdleClose (hP : Quiet P) (quay lane frames blocks : Nat) (s : State) (hs : P s) : OutP P (execFrameIdleClose quay lane frames blocks s) := by
  unfold execFrameIdleClose; try dsimp only
  with_reducible repeat' first | assumption | (apply cl_rekeyDue hP) | (apply cl_sendBlocks hP) | (apply cl_putQuay hP) | (apply OutP.ok) | (apply cl_send hP) | split

theorem cl_execLinkRekey (hP : Quiet P) (quay : Nat) (sent : Bool) (s : State) (hs : P s) : OutP P (execLinkRekey quay sent s) := by
  unfold execLinkRekey; split; exacts [OutP.ok (cl_rekey hP _ _ _ hs), OutP.ok hs]

theorem cl_quayStopped (hP : Closed P) (s : State) (q : Nat) (hs : P s) : P (State.quayStopped s q) := by
  unfold State.quayStopped; try dsimp only
  with_reducible repeat' first | assumption | (apply cl_putQuay hP.toQuiet) | (apply cl_deliverFrames hP) | (apply cl_divert hP.toQuiet) | (apply cl_put hP.toQuiet) | (apply Quiet.put hP.toQuiet) | ((apply Quiet.mk' hP.toQuiet); first | assumption | (apply cl_putQuay hP.toQuiet) | (apply cl_deliverFrames hP) | (apply cl_divert hP.toQuiet) | (apply cl_put hP.toQuiet) | (apply Quiet.put hP.toQuiet) | split) | ((apply Quiet.mk' hP.toQuiet); (apply Quiet.mk' hP.toQuiet); first | assumption | (apply cl_putQuay hP.toQuiet) | (apply cl_deliverFrames hP) | (apply cl_divert hP.toQuiet) | (apply cl_put hP.toQuiet) | (apply Quiet.put hP.toQuiet) | split) | split

theorem cl_quayStop (hP : Closed P) (s : State) (q : Nat) (hs : P s) : P (State.quayStop s q) := by
  unfold State.quayStop; try dsimp only
  with_reducible repeat' first | assumption | (apply cl_put hP.toQuiet) | (apply cl_putQuay hP.toQuiet) | (apply cl_reroute hP.toQuiet) | (apply cl_quayStopped hP) | (apply Quiet.put hP.toQuiet) | ((apply Quiet.mk' hP.toQuiet); first | assumption | (apply cl_put hP.toQuiet) | (apply cl_putQuay hP.toQuiet) | (apply cl_reroute hP.toQuiet) | (apply cl_quayStopped hP) | (apply Quiet.put hP.toQuiet) | split) | ((apply Quiet.mk' hP.toQuiet); (apply Quiet.mk' hP.toQuiet); first | assumption | (apply cl_put hP.toQuiet) | (apply cl_putQuay hP.toQuiet) | (apply cl_reroute hP.toQuiet) | (apply cl_quayStopped hP) | (apply Quiet.put hP.toQuiet) | split) | split

theorem cl_execQuayStop (hP : Closed P) (quay : Nat) (s : State) (hs : P s) : OutP P (execQuayStop quay s) := by
  unfold execQuayStop
  with_reducible repeat' first | assumption | (apply cl_ok hP.toQuiet) | (apply cl_hostDo hP.toQuiet) | (apply cl_quayStop hP) | (apply Quiet.put hP.toQuiet) | split | (intro _ _) | (intro _) | (apply OutP.ok) | (apply OutP.next)

theorem cl_askJoin (hP : Quiet P) (s : State) (hs : P s) : P (State.askJoin s) := by
  unfold State.askJoin
  with_reducible repeat' first | assumption | (apply cl_sendVc0 hP) | (apply Quiet.put hP) | ((apply Quiet.mk' hP); first | assumption | (apply cl_sendVc0 hP) | (apply Quiet.put hP) | split) | ((apply Quiet.mk' hP); (apply Quiet.mk' hP); first | assumption | (apply cl_sendVc0 hP) | (apply Quiet.put hP) | split) | split

theorem cl_quayTrains (hP : Closed P) (s : State) (q : Nat) (keyed : Bool) (hs : P s) : P (State.quayTrains s q keyed) := by
  unfold State.quayTrains; try dsimp only
  with_reducible repeat' first | assumption | (apply cl_putQuay hP.toQuiet) | (apply cl_putWidth hP.toQuiet) | (apply cl_reroute hP.toQuiet) | (apply cl_askJoin hP.toQuiet) | (apply cl_quayFails hP) | (apply Quiet.put hP.toQuiet) | ((apply Quiet.mk' hP.toQuiet); first | assumption | (apply cl_putQuay hP.toQuiet) | (apply cl_putWidth hP.toQuiet) | (apply cl_reroute hP.toQuiet) | (apply cl_askJoin hP.toQuiet) | (apply cl_quayFails hP) | (apply Quiet.put hP.toQuiet) | split) | ((apply Quiet.mk' hP.toQuiet); (apply Quiet.mk' hP.toQuiet); first | assumption | (apply cl_putQuay hP.toQuiet) | (apply cl_putWidth hP.toQuiet) | (apply cl_reroute hP.toQuiet) | (apply cl_askJoin hP.toQuiet) | (apply cl_quayFails hP) | (apply Quiet.put hP.toQuiet) | split) | split

theorem cl_quayTrain (hP : Closed P) (s : State) (q : Nat) (keyed : Bool) (hs : P s) : P (State.quayTrain s q keyed) := by
  unfold State.quayTrain; try dsimp only
  with_reducible repeat' first | assumption | (apply cl_put hP.toQuiet) | (apply cl_putQuay hP.toQuiet) | (apply cl_quayTrains hP) | (apply Quiet.put hP.toQuiet) | ((apply Quiet.mk' hP.toQuiet); first | assumption | (apply cl_put hP.toQuiet) | (apply cl_putQuay hP.toQuiet) | (apply cl_quayTrains hP) | (apply Quiet.put hP.toQuiet) | split) | ((apply Quiet.mk' hP.toQuiet); (apply Quiet.mk' hP.toQuiet); first | assumption | (apply cl_put hP.toQuiet) | (apply cl_putQuay hP.toQuiet) | (apply cl_quayTrains hP) | (apply Quiet.put hP.toQuiet) | split) | split

theorem cl_execQuayTrain (hP : Closed P) (quay : Nat) (keyed : Bool) (s : State) (hs : P s) : OutP P (execQuayTrain quay keyed s) := by
  unfold execQuayTrain
  with_reducible repeat' first | assumption | (apply cl_ok hP.toQuiet) | (apply cl_hostDo hP.toQuiet) | (apply cl_quayTrain hP) | (apply Quiet.put hP.toQuiet) | split | (intro _ _) | (intro _) | (apply OutP.ok) | (apply OutP.next)

theorem cl_execQuayReconnect (hP : Closed P) (quay : Nat) (keyed : Bool) (s : State) (hs : P s) : OutP P (execQuayReconnect quay keyed s) := by
  unfold execQuayReconnect
  with_reducible repeat' first | assumption | (apply cl_ok hP.toQuiet) | (apply cl_quayTrains hP) | (apply Quiet.put hP.toQuiet) | split | (apply OutP.ok) | (apply OutP.next)

theorem cl_execRemoteReadTimeout (hP : Quiet P) (stream unit : Nat) (s : State) (hs : P s) : OutP P (execRemoteReadTimeout stream unit s) := by
  unfold execRemoteReadTimeout; try dsimp only
  with_reducible repeat' first | assumption | (apply cl_ok hP) | (apply cl_send hP) | (apply cl_landed hP) | (apply Quiet.put hP) | split | (apply cl_foldl) | (intro _ _) | (intro _) | (apply OutP.ok) | (apply OutP.next)

theorem cl_execVc0Resend (hP : Quiet P) (s : State) (hs : P s) : OutP P (execVc0Resend s) := by
  unfold execVc0Resend
  with_reducible repeat' first | assumption | (apply cl_ok hP) | (apply cl_sendAll hP) | (apply Quiet.put hP) | split | (intro _ _) | (intro _) | (apply OutP.ok) | (apply OutP.next)

theorem cl_ackVc0 (hP : Quiet P) (s : State) (device number : Nat) (hs : P s) : P (State.ackVc0 s device number) := by
  unfold State.ackVc0; try dsimp only
  with_reducible repeat' first | assumption | (apply cl_noticeAcked hP) | (apply Quiet.put hP) | ((apply Quiet.mk' hP); first | assumption | (apply cl_noticeAcked hP) | (apply Quiet.put hP) | split) | ((apply Quiet.mk' hP); (apply Quiet.mk' hP); first | assumption | (apply cl_noticeAcked hP) | (apply Quiet.put hP) | split) | split | (intro _ _) | (intro _)

theorem cl_execEndToEndAck (hP : Quiet P) (device number : Nat) (s : State) (hs : P s) : OutP P (execEndToEndAck device number s) := by
  unfold execEndToEndAck
  with_reducible repeat' first | assumption | (apply cl_ok hP) | (apply cl_ackVc0 hP) | (apply Quiet.put hP) | split | (apply OutP.ok) | (apply OutP.next)

theorem cl_serveRead (hP : Quiet P) (s : State) (r : Request) (a : Nat) (hs : P s) : OptP P (State.serveRead s r a) := by
  unfold State.serveRead; try dsimp only
  with_reducible repeat' first | assumption | (apply cl_ok hP) | (apply cl_arbitrate hP) | (refine atOptP ?_ (by assumption); apply cl_arbitrate hP) | (apply Quiet.put hP) | ((apply Quiet.mk' hP); first | assumption | (apply cl_ok hP) | (apply cl_arbitrate hP) | (refine atOptP ?_ (by assumption); apply cl_arbitrate hP) | (apply Quiet.put hP) | split) | ((apply Quiet.mk' hP); (apply Quiet.mk' hP); first | assumption | (apply cl_ok hP) | (apply cl_arbitrate hP) | (refine atOptP ?_ (by assumption); apply cl_arbitrate hP) | (apply Quiet.put hP) | split) | split | (apply OptP.some) | (exact OptP.none) | (apply OptP.map; intro _)

theorem cl_execRemoteStreamRead (hP : Closed P) (device stream unit addr len : Nat) (order : ReadOrder) (s : State) (hs : P s) : OutP P (execRemoteStreamRead device stream unit addr len order s) := by
  unfold execRemoteStreamRead
  with_reducible repeat' first | assumption | (apply cl_serveRead hP.toQuiet) | (refine atOptP ?_ (by assumption); apply cl_serveRead hP.toQuiet) | (apply cl_ok hP.toQuiet) | (apply cl_read hP) | (refine atExSndP ?_ (by assumption); apply cl_read hP) | (apply cl_send hP.toQuiet) | (apply cl_memError hP) | (apply Quiet.put hP.toQuiet) | ((apply Quiet.mk' hP.toQuiet); first | assumption | (apply cl_serveRead hP.toQuiet) | (refine atOptP ?_ (by assumption); apply cl_serveRead hP.toQuiet) | (apply cl_ok hP.toQuiet) | (apply cl_read hP) | (refine atExSndP ?_ (by assumption); apply cl_read hP) | (apply cl_send hP.toQuiet) | (apply cl_memError hP) | (apply Quiet.put hP.toQuiet) | split) | ((apply Quiet.mk' hP.toQuiet); (apply Quiet.mk' hP.toQuiet); first | assumption | (apply cl_serveRead hP.toQuiet) | (refine atOptP ?_ (by assumption); apply cl_serveRead hP.toQuiet) | (apply cl_ok hP.toQuiet) | (apply cl_read hP) | (refine atExSndP ?_ (by assumption); apply cl_read hP) | (apply cl_send hP.toQuiet) | (apply cl_memError hP) | (apply Quiet.put hP.toQuiet) | split) | split | (apply OutP.ok) | (apply OutP.next)

theorem cl_execRemoteStreamWrite (hP : Closed P) (device stream unit addr cls : Nat) (data : List Byte) (s : State) (hs : P s) : OutP P (execRemoteStreamWrite device stream unit addr cls data s) := by
  unfold execRemoteStreamWrite
  with_reducible repeat' first | assumption | (apply cl_ok hP.toQuiet) | (apply cl_freezePeer hP.toQuiet) | (apply cl_write hP) | (refine atExP ?_ (by assumption); apply cl_write hP) | (apply cl_send hP.toQuiet) | (apply cl_memError hP) | (apply Quiet.put hP.toQuiet) | ((apply Quiet.mk' hP.toQuiet); first | assumption | (apply cl_ok hP.toQuiet) | (apply cl_freezePeer hP.toQuiet) | (apply cl_write hP) | (refine atExP ?_ (by assumption); apply cl_write hP) | (apply cl_send hP.toQuiet) | (apply cl_memError hP) | (apply Quiet.put hP.toQuiet) | split) | ((apply Quiet.mk' hP.toQuiet); (apply Quiet.mk' hP.toQuiet); first | assumption | (apply cl_ok hP.toQuiet) | (apply cl_freezePeer hP.toQuiet) | (apply cl_write hP) | (refine atExP ?_ (by assumption); apply cl_write hP) | (apply cl_send hP.toQuiet) | (apply cl_memError hP) | (apply Quiet.put hP.toQuiet) | split) | split | (apply OutP.ok) | (apply OutP.next)

theorem cl_execPeerViolation (hP : Quiet P) (device cause : Nat) (s : State) (hs : P s) : OutP P (execPeerViolation device cause s) := by
  unfold execPeerViolation
  with_reducible repeat' first | assumption | (apply cl_ok hP) | (apply cl_freezePeer hP) | (apply Quiet.put hP) | split | (apply OutP.ok) | (apply OutP.next)

end Sys2Proof.Laws
end

