-- ==== Sys2Proof/Laws/KeepsPod.lean ====
section
/-! SUPPORT. What the functions of Machine/Pod.lean keep: see Laws/Closed.lean. -/

set_option linter.unusedTactic false
set_option linter.unreachableTactic false

namespace Sys2Proof.Laws

open Sys2Proof.Machine

variable {P : State → Prop}

theorem cl_meet (hP : Quiet P) (s : State) (ds : List Nat) (hs : P s) : P (State.meet s ds) := by
  unfold State.meet
  with_reducible repeat' first | assumption | (apply cl_putPeer hP) | (apply Quiet.put hP) | ((apply Quiet.mk' hP); first | assumption | (apply cl_putPeer hP) | (apply Quiet.put hP) | (apply cl_foldl) | split) | ((apply Quiet.mk' hP); (apply Quiet.mk' hP); first | assumption | (apply cl_putPeer hP) | (apply Quiet.put hP) | (apply cl_foldl) | split) | split | (apply cl_foldl) | (intro _ _) | (intro _)

theorem cl_installRoutes (hP : Quiet P) (s : State) (rs : List (Nat × Route)) (hs : P s) : P (State.installRoutes s rs) := by
  unfold State.installRoutes
  with_reducible repeat' first | assumption | (apply Quiet.put hP) | ((apply Quiet.mk' hP); first | assumption | (apply Quiet.put hP) | (apply cl_foldl) | split) | ((apply Quiet.mk' hP); (apply Quiet.mk' hP); first | assumption | (apply Quiet.put hP) | (apply cl_foldl) | split) | split | (apply cl_foldl) | (intro _ _) | (intro _)

theorem cl_execRouteTables (hP : Quiet P) (routes : List (Nat × Route)) (s : State) (hs : P s) : OutP P (execRouteTables routes s) := by
  unfold execRouteTables; try dsimp only
  with_reducible repeat' first | assumption | (apply cl_installRoutes hP) | (apply cl_meet hP) | (apply cl_ok hP) | (apply Quiet.put hP) | ((apply Quiet.mk' hP); first | assumption | (apply cl_installRoutes hP) | (apply cl_meet hP) | (apply cl_ok hP) | (apply Quiet.put hP) | split) | ((apply Quiet.mk' hP); (apply Quiet.mk' hP); first | assumption | (apply cl_installRoutes hP) | (apply cl_meet hP) | (apply cl_ok hP) | (apply Quiet.put hP) | split) | split | (intro _ _) | (intro _) | (apply OutP.ok) | (apply OutP.next)

theorem cl_reroute (hP : Quiet P) (s : State) (hs : P s) : P (State.reroute s) := by
  unfold State.reroute; try dsimp only
  with_reducible repeat' first | assumption | (apply cl_installRoutes hP) | (apply cl_sendVc0 hP) | (apply Quiet.put hP) | split | (apply cl_foldl) | (intro _ _) | (intro _)

theorem cl_putSize (hP : Quiet P) (s : State) (w : Nat) (hs : P s) : P (State.putSize s w) := by
  unfold State.putSize; try dsimp only
  with_reducible repeat' first | assumption | (apply cl_put hP) | (apply Quiet.put hP) | split

theorem cl_raiseGen (hP : Quiet P) (s : State) (hs : P s) : P (State.raiseGen s) := by
  unfold State.raiseGen
  with_reducible repeat' first | assumption | (apply cl_put hP) | (apply Quiet.put hP) | split

theorem cl_startTide (hP : Quiet P) (s : State) (n : Nat) (hs : P s) : P (State.startTide s n) := by
  unfold State.startTide
  with_reducible repeat' first | assumption | (apply cl_put hP) | (apply Quiet.put hP) | split

theorem cl_formPod (hP : Quiet P) (s : State) (hs : P s) : P (State.formPod s) := by
  unfold State.formPod; try dsimp only
  with_reducible repeat' first | assumption | (apply cl_put hP) | (apply cl_startTide hP) | (apply Quiet.put hP) | ((apply Quiet.mk' hP); first | assumption | (apply cl_put hP) | (apply cl_startTide hP) | (apply Quiet.put hP) | split) | ((apply Quiet.mk' hP); (apply Quiet.mk' hP); first | assumption | (apply cl_put hP) | (apply cl_startTide hP) | (apply Quiet.put hP) | split) | split

theorem cl_joinAnswered (hP : Quiet P) (s : State) (a : JoinAnswer) (hs : P s) : P (State.joinAnswered s a) := by
  unfold State.joinAnswered; try dsimp only
  with_reducible repeat' first | assumption | (apply cl_put hP) | (apply cl_startTide hP) | (apply cl_putSize hP) | (apply cl_meet hP) | (apply Quiet.put hP) | ((apply Quiet.mk' hP); first | assumption | (apply cl_put hP) | (apply cl_startTide hP) | (apply cl_putSize hP) | (apply cl_meet hP) | (apply Quiet.put hP) | split) | ((apply Quiet.mk' hP); (apply Quiet.mk' hP); first | assumption | (apply cl_put hP) | (apply cl_startTide hP) | (apply cl_putSize hP) | (apply cl_meet hP) | (apply Quiet.put hP) | split) | split

theorem cl_joinAnswer? (hP : Quiet P) (s : State) (a : Option JoinAnswer) (hs : P s) : P (State.joinAnswer? s a) := by
  unfold State.joinAnswer?
  with_reducible repeat' first | assumption | (apply cl_joinAnswered hP) | (apply Quiet.put hP) | split

theorem cl_podJoin (hP : Quiet P) (s : State) (a : Option JoinAnswer) (hs : P s) : P (State.podJoin s a) := by
  unfold State.podJoin; try dsimp only
  with_reducible repeat' first | assumption | (apply cl_put hP) | (apply cl_formPod hP) | (apply cl_askJoin hP) | (apply cl_joinAnswer? hP) | (apply Quiet.put hP) | ((apply Quiet.mk' hP); first | assumption | (apply cl_put hP) | (apply cl_formPod hP) | (apply cl_askJoin hP) | (apply cl_joinAnswer? hP) | (apply Quiet.put hP) | split) | ((apply Quiet.mk' hP); (apply Quiet.mk' hP); first | assumption | (apply cl_put hP) | (apply cl_formPod hP) | (apply cl_askJoin hP) | (apply cl_joinAnswer? hP) | (apply Quiet.put hP) | split) | split

theorem cl_execPodJoin (hP : Quiet P) (answer : Option JoinAnswer) (s : State) (hs : P s) : OutP P (execPodJoin answer s) := by
  unfold execPodJoin
  with_reducible repeat' first | assumption | (apply cl_ok hP) | (apply cl_hostDo hP) | (apply cl_podJoin hP) | (apply cl_answer hP) | (apply Quiet.put hP) | split | (intro _ _) | (intro _) | (apply OutP.ok) | (apply OutP.next)

theorem cl_execJoinRetry (hP : Quiet P) (answer : Option JoinAnswer) (s : State) (hs : P s) : OutP P (execJoinRetry answer s) := by
  unfold execJoinRetry
  with_reducible repeat' first | assumption | (apply cl_ok hP) | (apply cl_sendVc0 hP) | (apply cl_joinAnswer? hP) | (apply cl_answer hP) | (apply Quiet.put hP) | split | (apply OutP.ok) | (apply OutP.next)

theorem cl_takeJoin (hP : Quiet P) (s : State) (r : JoinRequest) (hs : P s) : P (State.takeJoin s r) := by
  unfold State.takeJoin; try dsimp only
  with_reducible repeat' first | assumption | (apply cl_sendVc0 hP) | (apply cl_raiseGen hP) | (apply cl_reroute hP) | (apply Quiet.put hP) | ((apply Quiet.mk' hP); first | assumption | (apply cl_sendVc0 hP) | (apply cl_raiseGen hP) | (apply cl_reroute hP) | (apply Quiet.put hP) | split) | ((apply Quiet.mk' hP); (apply Quiet.mk' hP); first | assumption | (apply cl_sendVc0 hP) | (apply cl_raiseGen hP) | (apply cl_reroute hP) | (apply Quiet.put hP) | split) | split

theorem cl_execJoinRequest (hP : Quiet P) (request : JoinRequest) (s : State) (hs : P s) : OutP P (execJoinRequest request s) := by
  unfold execJoinRequest
  with_reducible repeat' first | assumption | (apply cl_ok hP) | (apply cl_takeJoin hP) | (apply Quiet.put hP) | split | (apply OutP.ok) | (apply OutP.next)

theorem cl_leaveDone (hP : Quiet P) (s : State) (hs : P s) : P (State.leaveDone s) := by
  unfold State.leaveDone; try dsimp only
  with_reducible repeat' first | assumption | (apply cl_sendVc0 hP) | (apply cl_put hP) | (apply cl_putSize hP) | (apply Quiet.put hP) | ((apply Quiet.mk' hP); first | assumption | (apply cl_sendVc0 hP) | (apply cl_put hP) | (apply cl_putSize hP) | (apply Quiet.put hP) | split) | ((apply Quiet.mk' hP); (apply Quiet.mk' hP); first | assumption | (apply cl_sendVc0 hP) | (apply cl_put hP) | (apply cl_putSize hP) | (apply Quiet.put hP) | split) | split

theorem cl_podLeave (hP : Quiet P) (s : State) (hs : P s) : P (State.podLeave s) := by
  unfold State.podLeave; try dsimp only
  with_reducible repeat' first | assumption | (apply cl_put hP) | (apply cl_leaveDone hP) | (apply Quiet.put hP) | ((apply Quiet.mk' hP); first | assumption | (apply cl_put hP) | (apply cl_leaveDone hP) | (apply Quiet.put hP) | split) | ((apply Quiet.mk' hP); (apply Quiet.mk' hP); first | assumption | (apply cl_put hP) | (apply cl_leaveDone hP) | (apply Quiet.put hP) | split) | split

theorem cl_execPodLeave (hP : Quiet P) (s : State) (hs : P s) : OutP P (execPodLeave s) := by
  unfold execPodLeave
  with_reducible repeat' first | assumption | (apply cl_ok hP) | (apply cl_hostDo hP) | (apply cl_podLeave hP) | (apply Quiet.put hP) | split | (intro _ _) | (intro _) | (apply OutP.ok) | (apply OutP.next)

theorem cl_removeDevice (hP : Quiet P) (s : State) (d : Nat) (hs : P s) : P (State.removeDevice s d) := by
  unfold State.removeDevice; try dsimp only
  with_reducible repeat' first | assumption | (apply cl_raiseGen hP) | (apply cl_reroute hP) | (apply cl_send hP) | (apply Quiet.put hP) | ((apply Quiet.mk' hP); first | assumption | (apply cl_raiseGen hP) | (apply cl_reroute hP) | (apply cl_send hP) | (apply Quiet.put hP) | split) | ((apply Quiet.mk' hP); (apply Quiet.mk' hP); first | assumption | (apply cl_raiseGen hP) | (apply cl_reroute hP) | (apply cl_send hP) | (apply Quiet.put hP) | split) | split | (intro _ _) | (intro _)

theorem cl_execLeave (hP : Quiet P) (device : Nat) (s : State) (hs : P s) : OutP P (execLeave device s) := by
  unfold execLeave
  with_reducible repeat' first | assumption | (apply cl_ok hP) | (apply cl_removeDevice hP) | (apply Quiet.put hP) | split | (apply OutP.ok) | (apply OutP.next)

theorem cl_execHeartbeat (hP : Quiet P) (device tide gen : Nat) (s : State) (hs : P s) : OutP P (execHeartbeat device tide gen s) := by
  unfold execHeartbeat; try dsimp only
  with_reducible repeat' first | assumption | (apply cl_putPeer hP) | (apply cl_ok hP) | (apply Quiet.put hP) | ((apply Quiet.mk' hP); first | assumption | (apply cl_putPeer hP) | (apply cl_ok hP) | (apply Quiet.put hP) | split) | ((apply Quiet.mk' hP); (apply Quiet.mk' hP); first | assumption | (apply cl_putPeer hP) | (apply cl_ok hP) | (apply Quiet.put hP) | split) | split | (intro _ _) | (intro _) | (apply OutP.ok) | (apply OutP.next)

theorem cl_noteSilence (hP : Quiet P) (s : State) (device reporter : Nat) (hs : P s) : P (State.noteSilence s device reporter) := by
  unfold State.noteSilence
  with_reducible repeat' first | assumption | (apply Quiet.put hP) | ((apply Quiet.mk' hP); first | assumption | (apply Quiet.put hP) | split) | ((apply Quiet.mk' hP); (apply Quiet.mk' hP); first | assumption | (apply Quiet.put hP) | split) | split

theorem cl_execHeartbeatSilence (hP : Quiet P) (device reporter : Nat) (s : State) (hs : P s) : OutP P (execHeartbeatSilence device reporter s) := by
  unfold execHeartbeatSilence; try dsimp only
  with_reducible repeat' first | assumption | (apply cl_ok hP) | (apply cl_putPeer hP) | (apply cl_noteSilence hP) | (apply cl_sendVc0 hP) | (apply Quiet.put hP) | ((apply Quiet.mk' hP); first | assumption | (apply cl_ok hP) | (apply cl_putPeer hP) | (apply cl_noteSilence hP) | (apply cl_sendVc0 hP) | (apply Quiet.put hP) | split) | ((apply Quiet.mk' hP); (apply Quiet.mk' hP); first | assumption | (apply cl_ok hP) | (apply cl_putPeer hP) | (apply cl_noteSilence hP) | (apply cl_sendVc0 hP) | (apply Quiet.put hP) | split) | split | (apply OutP.ok) | (apply OutP.next)

theorem cl_execDeviceLost (hP : Quiet P) (device : Nat) (s : State) (hs : P s) : OutP P (execDeviceLost device s) := by
  unfold execDeviceLost
  with_reducible repeat' first | assumption | (apply cl_ok hP) | (apply cl_removeDevice hP) | (apply Quiet.put hP) | split | (apply OutP.ok) | (apply OutP.next)

theorem cl_execLostNotice (hP : Quiet P) (device gen : Nat) (s : State) (hs : P s) : OutP P (execLostNotice device gen s) := by
  unfold execLostNotice; try dsimp only
  with_reducible repeat' first | assumption | (apply cl_put hP) | (apply cl_ok hP) | (apply Quiet.put hP) | ((apply Quiet.mk' hP); first | assumption | (apply cl_put hP) | (apply cl_ok hP) | (apply Quiet.put hP) | split) | ((apply Quiet.mk' hP); (apply Quiet.mk' hP); first | assumption | (apply cl_put hP) | (apply cl_ok hP) | (apply Quiet.put hP) | split) | split | (apply OutP.ok) | (apply OutP.next)

theorem cl_execMasterMirror (hP : Quiet P) (log : List Logged) (members standbys : List Nat) (links : List Link) (size : Nat) (s : State) (hs : P s) : OutP P (execMasterMirror log members standbys links size s) := by
  unfold execMasterMirror; try dsimp only
  with_reducible repeat' first | assumption | (apply cl_putSize hP) | (apply cl_ok hP) | (apply cl_mirror hP) | (apply Quiet.put hP) | ((apply Quiet.mk' hP); first | assumption | (apply cl_putSize hP) | (apply cl_ok hP) | (apply cl_mirror hP) | (apply Quiet.put hP) | split) | ((apply Quiet.mk' hP); (apply Quiet.mk' hP); first | assumption | (apply cl_putSize hP) | (apply cl_ok hP) | (apply cl_mirror hP) | (apply Quiet.put hP) | split) | split | (apply OutP.ok) | (apply OutP.next)

theorem cl_nameStandby (hP : Quiet P) (s : State) (d : Option Nat) (hs : P s) : P (State.nameStandby s d) := by
  unfold State.nameStandby
  with_reducible repeat' first | assumption | (apply cl_put hP) | (apply Quiet.put hP) | split

theorem cl_redirect (hP : Quiet P) (s : State) (old new : Nat) (hs : P s) : P (State.redirect s old new) := by
  unfold State.redirect
  with_reducible repeat' first | assumption | (apply Quiet.put hP) | ((apply Quiet.mk' hP); first | assumption | (apply Quiet.put hP) | split) | ((apply Quiet.mk' hP); (apply Quiet.mk' hP); first | assumption | (apply Quiet.put hP) | split) | split | (intro _ _) | (intro _)

theorem cl_repeatLogged (hP : Quiet P) (s : State) (l : Logged) (hs : P s) : P (State.repeatLogged s l) := by
  unfold State.repeatLogged; try dsimp only
  with_reducible repeat' first | assumption | (apply cl_sendVc0 hP) | (apply Quiet.put hP) | split | (apply cl_foldl) | (intro _ _) | (intro _)

theorem cl_takeOver (hP : Quiet P) (s : State) (hs : P s) : P (State.takeOver s) := by
  unfold State.takeOver; try dsimp only
  with_reducible repeat' first | assumption | (apply cl_put hP) | (apply cl_raiseGen hP) | (apply cl_reroute hP) | (apply cl_mirror hP) | (apply cl_nameStandby hP) | (apply cl_redirect hP) | (apply cl_send hP) | (apply cl_repeatLogged hP) | (apply Quiet.put hP) | ((apply Quiet.mk' hP); first | assumption | (apply cl_put hP) | (apply cl_raiseGen hP) | (apply cl_reroute hP) | (apply cl_mirror hP) | (apply cl_nameStandby hP) | (apply cl_redirect hP) | (apply cl_send hP) | (apply cl_repeatLogged hP) | (apply Quiet.put hP) | (apply cl_foldl) | split) | ((apply Quiet.mk' hP); (apply Quiet.mk' hP); first | assumption | (apply cl_put hP) | (apply cl_raiseGen hP) | (apply cl_reroute hP) | (apply cl_mirror hP) | (apply cl_nameStandby hP) | (apply cl_redirect hP) | (apply cl_send hP) | (apply cl_repeatLogged hP) | (apply Quiet.put hP) | (apply cl_foldl) | split) | split | (apply cl_foldl) | (intro _ _) | (intro _)

theorem cl_execStandbyTakeover (hP : Quiet P) (next : Option Nat) (s : State) (hs : P s) : OutP P (execStandbyTakeover next s) := by
  unfold execStandbyTakeover; try dsimp only
  with_reducible repeat' first | assumption | (apply cl_ok hP) | (apply cl_takeOver hP) | (apply cl_put hP) | (apply cl_raiseGen hP) | (apply cl_nameStandby hP) | (apply cl_redirect hP) | (apply Quiet.put hP) | ((apply Quiet.mk' hP); first | assumption | (apply cl_ok hP) | (apply cl_takeOver hP) | (apply cl_put hP) | (apply cl_raiseGen hP) | (apply cl_nameStandby hP) | (apply cl_redirect hP) | (apply Quiet.put hP) | split) | ((apply Quiet.mk' hP); (apply Quiet.mk' hP); first | assumption | (apply cl_ok hP) | (apply cl_takeOver hP) | (apply cl_put hP) | (apply cl_raiseGen hP) | (apply cl_nameStandby hP) | (apply cl_redirect hP) | (apply Quiet.put hP) | split) | split | (apply OutP.ok) | (apply OutP.next)

theorem cl_putOffset (hP : Quiet P) (s : State) (o : Int) (hs : P s) : P (State.putOffset s o) := by
  unfold State.putOffset
  with_reducible repeat' first | assumption | (apply cl_put hP) | (apply Quiet.put hP) | split

theorem cl_loseTime (hP : Quiet P) (s : State) (hs : P s) : P (State.loseTime s) := by
  unfold State.loseTime; try dsimp only
  with_reducible repeat' first | assumption | (apply cl_put hP) | (apply cl_leaveDone hP) | (apply Quiet.put hP) | ((apply Quiet.mk' hP); first | assumption | (apply cl_put hP) | (apply cl_leaveDone hP) | (apply Quiet.put hP) | split) | ((apply Quiet.mk' hP); (apply Quiet.mk' hP); first | assumption | (apply cl_put hP) | (apply cl_leaveDone hP) | (apply Quiet.put hP) | split) | split

theorem cl_actOnOffset (hP : Quiet P) (s : State) (o : Int) (hs : P s) : P (State.actOnOffset s o) := by
  unfold State.actOnOffset; try dsimp only
  with_reducible repeat' first | assumption | (apply cl_putOffset hP) | (apply cl_put hP) | (apply cl_loseTime hP) | (apply Quiet.put hP) | ((apply Quiet.mk' hP); first | assumption | (apply cl_putOffset hP) | (apply cl_put hP) | (apply cl_loseTime hP) | (apply Quiet.put hP) | split) | ((apply Quiet.mk' hP); (apply Quiet.mk' hP); first | assumption | (apply cl_putOffset hP) | (apply cl_put hP) | (apply cl_loseTime hP) | (apply Quiet.put hP) | split) | split

theorem cl_execTimeMarker (hP : Quiet P) (quay tide delay arrival residence : Nat) (s : State) (hs : P s) : OutP P (execTimeMarker quay tide delay arrival residence s) := by
  unfold execTimeMarker; try dsimp only
  with_reducible repeat' first | assumption | (apply cl_sendAll hP) | (apply cl_ok hP) | (apply cl_actOnOffset hP) | (apply Quiet.put hP) | ((apply Quiet.mk' hP); first | assumption | (apply cl_sendAll hP) | (apply cl_ok hP) | (apply cl_actOnOffset hP) | (apply Quiet.put hP) | split) | ((apply Quiet.mk' hP); (apply Quiet.mk' hP); first | assumption | (apply cl_sendAll hP) | (apply cl_ok hP) | (apply cl_actOnOffset hP) | (apply Quiet.put hP) | split) | split | (intro _ _) | (intro _) | (apply OutP.ok) | (apply OutP.next)

theorem cl_execMarkerLossLeave (hP : Quiet P) (s : State) (hs : P s) : OutP P (execMarkerLossLeave s) := by
  unfold execMarkerLossLeave
  with_reducible repeat' first | assumption | (apply cl_ok hP) | (apply cl_loseTime hP) | (apply Quiet.put hP) | split | (apply OutP.ok) | (apply OutP.next)

theorem cl_execDelayProbe (hP : Quiet P) (quay roundTrip : Nat) (s : State) (hs : P s) : OutP P (execDelayProbe quay roundTrip s) := by
  unfold execDelayProbe
  with_reducible repeat' first | assumption | (apply cl_ok hP) | (apply cl_put hP) | (apply Quiet.put hP) | split | (apply OutP.ok) | (apply OutP.next)

theorem cl_endRebuild (hP : Quiet P) (s : State) (result : Nat) (hs : P s) : P (State.endRebuild s result) := by
  unfold State.endRebuild; try dsimp only
  with_reducible repeat' first | assumption | (apply cl_put hP) | (apply Quiet.put hP) | ((apply Quiet.mk' hP); first | assumption | (apply cl_put hP) | (apply Quiet.put hP) | split) | ((apply Quiet.mk' hP); (apply Quiet.mk' hP); first | assumption | (apply cl_put hP) | (apply Quiet.put hP) | split) | split

theorem cl_changeGroup (hP : Closed P) (s : State) (g : Nat) (r : Group) (hs : P s) : P (State.changeGroup s g r) := by
  unfold State.changeGroup; try dsimp only
  with_reducible repeat' first | assumption | (apply cl_putGroup hP.toQuiet) | (apply cl_writeGroup hP) | (apply cl_loseParts hP) | (apply cl_endRebuild hP.toQuiet) | (apply Quiet.put hP.toQuiet) | ((apply Quiet.mk' hP.toQuiet); first | assumption | (apply cl_putGroup hP.toQuiet) | (apply cl_writeGroup hP) | (apply cl_loseParts hP) | (apply cl_endRebuild hP.toQuiet) | (apply Quiet.put hP.toQuiet) | split) | ((apply Quiet.mk' hP.toQuiet); (apply Quiet.mk' hP.toQuiet); first | assumption | (apply cl_putGroup hP.toQuiet) | (apply cl_writeGroup hP) | (apply cl_loseParts hP) | (apply cl_endRebuild hP.toQuiet) | (apply Quiet.put hP.toQuiet) | split) | split

theorem cl_loseSlot (hP : Closed P) (s : State) (g slot : Nat) (hs : P s) : P (State.loseSlot s g slot) := by
  unfold State.loseSlot; try dsimp only
  with_reducible repeat' first | assumption | (apply cl_changeGroup hP) | (apply Quiet.put hP.toQuiet) | split

theorem cl_peerRecord (hP : Closed P) (s : State) (source device : Nat) (hs : P s) : P (State.peerRecord s source device) := by
  unfold State.peerRecord; try dsimp only
  with_reducible repeat' first | assumption | (apply cl_logError hP) | (apply Quiet.put hP.toQuiet) | ((apply Quiet.mk' hP.toQuiet); first | assumption | (apply cl_logError hP) | (apply Quiet.put hP.toQuiet) | split) | ((apply Quiet.mk' hP.toQuiet); (apply Quiet.mk' hP.toQuiet); first | assumption | (apply cl_logError hP) | (apply Quiet.put hP.toQuiet) | split) | split

theorem cl_loseVoter (hP : Quiet P) (s : State) (d : Nat) (hs : P s) : P (State.loseVoter s d) := by
  unfold State.loseVoter
  with_reducible repeat' first | assumption | (apply Quiet.put hP) | ((apply Quiet.mk' hP); first | assumption | (apply Quiet.put hP) | split) | ((apply Quiet.mk' hP); (apply Quiet.mk' hP); first | assumption | (apply Quiet.put hP) | split) | split | (intro _ _) | (intro _)

theorem cl_failColl (hP : Closed P) (s : State) (c device : Nat) (hs : P s) : P (State.failColl s c device) := by
  unfold State.failColl; try dsimp only
  with_reducible repeat' first | assumption | (apply cl_putBitAt hP.toQuiet) | (apply cl_peerRecord hP) | (apply Quiet.put hP.toQuiet) | ((apply Quiet.mk' hP.toQuiet); first | assumption | (apply cl_putBitAt hP.toQuiet) | (apply cl_peerRecord hP) | (apply Quiet.put hP.toQuiet) | split) | ((apply Quiet.mk' hP.toQuiet); (apply Quiet.mk' hP.toQuiet); first | assumption | (apply cl_putBitAt hP.toQuiet) | (apply cl_peerRecord hP) | (apply Quiet.put hP.toQuiet) | split) | split

theorem cl_dropDevice (hP : Closed P) (s : State) (d : Nat) (hs : P s) : P (State.dropDevice s d) := by
  unfold State.dropDevice; try dsimp only
  with_reducible repeat' first | assumption | (apply cl_peerRecord hP) | (apply cl_loseSlot hP) | (apply cl_loseVoter hP.toQuiet) | (apply cl_failColl hP) | (apply cl_noticeAcked hP.toQuiet) | (apply cl_nameStandby hP.toQuiet) | (apply Quiet.put hP.toQuiet) | ((apply Quiet.mk' hP.toQuiet); first | assumption | (apply cl_peerRecord hP) | (apply cl_loseSlot hP) | (apply cl_loseVoter hP.toQuiet) | (apply cl_failColl hP) | (apply cl_noticeAcked hP.toQuiet) | (apply cl_nameStandby hP.toQuiet) | (apply Quiet.put hP.toQuiet) | (apply cl_foldl) | split) | ((apply Quiet.mk' hP.toQuiet); (apply Quiet.mk' hP.toQuiet); first | assumption | (apply cl_peerRecord hP) | (apply cl_loseSlot hP) | (apply cl_loseVoter hP.toQuiet) | (apply cl_failColl hP) | (apply cl_noticeAcked hP.toQuiet) | (apply cl_nameStandby hP.toQuiet) | (apply Quiet.put hP.toQuiet) | (apply cl_foldl) | split) | split | (apply cl_foldl) | (intro _ _) | (intro _)

theorem cl_addDevice (hP : Quiet P) (s : State) (r : JoinRequest) (hs : P s) : P (State.addDevice s r) := by
  unfold State.addDevice; try dsimp only
  with_reducible repeat' first | assumption | (apply cl_meet hP) | (apply cl_nameStandby hP) | (apply Quiet.put hP) | ((apply Quiet.mk' hP); first | assumption | (apply cl_meet hP) | (apply cl_nameStandby hP) | (apply Quiet.put hP) | split) | ((apply Quiet.mk' hP); (apply Quiet.mk' hP); first | assumption | (apply cl_meet hP) | (apply cl_nameStandby hP) | (apply Quiet.put hP) | split) | split

theorem cl_applySlotLosses (hP : Closed P) (s : State) (hs : P s) : P (State.applySlotLosses s) := by
  unfold State.applySlotLosses; try dsimp only
  with_reducible repeat' first | assumption | (apply cl_peerRecord hP) | (apply cl_loseSlot hP) | (apply Quiet.put hP.toQuiet) | ((apply Quiet.mk' hP.toQuiet); first | assumption | (apply cl_peerRecord hP) | (apply cl_loseSlot hP) | (apply Quiet.put hP.toQuiet) | (apply cl_foldl) | split) | ((apply Quiet.mk' hP.toQuiet); (apply Quiet.mk' hP.toQuiet); first | assumption | (apply cl_peerRecord hP) | (apply cl_loseSlot hP) | (apply Quiet.put hP.toQuiet) | (apply cl_foldl) | split) | split | (apply cl_foldl) | (intro _ _) | (intro _)

theorem cl_applyReplaces (hP : Closed P) (s : State) (hs : P s) : P (State.applyReplaces s) := by
  unfold State.applyReplaces; try dsimp only
  with_reducible repeat' first | assumption | (apply cl_changeGroup hP) | (apply cl_endRebuild hP.toQuiet) | (apply Quiet.put hP.toQuiet) | ((apply Quiet.mk' hP.toQuiet); first | assumption | (apply cl_changeGroup hP) | (apply cl_endRebuild hP.toQuiet) | (apply Quiet.put hP.toQuiet) | (apply cl_foldl) | split) | ((apply Quiet.mk' hP.toQuiet); (apply Quiet.mk' hP.toQuiet); first | assumption | (apply cl_changeGroup hP) | (apply cl_endRebuild hP.toQuiet) | (apply Quiet.put hP.toQuiet) | (apply cl_foldl) | split) | split | (apply cl_foldl) | (intro _ _) | (intro _)

theorem cl_applyTree (hP : Quiet P) (s : State) (hs : P s) : P (State.applyTree s) := by
  unfold State.applyTree; try dsimp only
  with_reducible repeat' first | assumption | (apply cl_put hP) | (apply Quiet.put hP) | ((apply Quiet.mk' hP); first | assumption | (apply cl_put hP) | (apply Quiet.put hP) | split) | ((apply Quiet.mk' hP); (apply Quiet.mk' hP); first | assumption | (apply cl_put hP) | (apply Quiet.put hP) | split) | split

theorem cl_applyStops (hP : Closed P) (s : State) (hs : P s) : P (State.applyStops s) := by
  unfold State.applyStops
  with_reducible repeat' first | assumption | (apply cl_quayStopped hP) | (apply Quiet.put hP.toQuiet) | split | (apply cl_foldl) | (intro _ _) | (intro _)

theorem cl_applyPod (hP : Closed P) (s : State) (hs : P s) : P (State.applyPod s) := by
  unfold State.applyPod; try dsimp only
  with_reducible repeat' first | assumption | (apply cl_applyStops hP) | (apply cl_dropDevice hP) | (apply cl_addDevice hP.toQuiet) | (apply cl_applySlotLosses hP) | (apply cl_applyReplaces hP) | (apply cl_applyTree hP.toQuiet) | (apply cl_reroute hP.toQuiet) | (apply Quiet.put hP.toQuiet) | ((apply Quiet.mk' hP.toQuiet); first | assumption | (apply cl_applyStops hP) | (apply cl_dropDevice hP) | (apply cl_addDevice hP.toQuiet) | (apply cl_applySlotLosses hP) | (apply cl_applyReplaces hP) | (apply cl_applyTree hP.toQuiet) | (apply cl_reroute hP.toQuiet) | (apply Quiet.put hP.toQuiet) | (apply cl_foldl) | split) | ((apply Quiet.mk' hP.toQuiet); (apply Quiet.mk' hP.toQuiet); first | assumption | (apply cl_applyStops hP) | (apply cl_dropDevice hP) | (apply cl_addDevice hP.toQuiet) | (apply cl_applySlotLosses hP) | (apply cl_applyReplaces hP) | (apply cl_applyTree hP.toQuiet) | (apply cl_reroute hP.toQuiet) | (apply Quiet.put hP.toQuiet) | (apply cl_foldl) | split) | split | (apply cl_foldl) | (intro _ _) | (intro _)

theorem cl_heartbeats (hP : Quiet P) (s : State) (hs : P s) : P (State.heartbeats s) := by
  unfold State.heartbeats; try dsimp only
  with_reducible repeat' first | assumption | (apply cl_sendAll hP) | (apply Quiet.put hP) | split | (intro _ _) | (intro _)

end Sys2Proof.Laws
end

