-- ==== Sys2Proof/Laws/KeepsCollect.lean ====
section
/-! SUPPORT. What the functions of Machine/Collect.lean keep: see Laws/Closed.lean. -/

set_option linter.unusedTactic false
set_option linter.unreachableTactic false

namespace Sys2Proof.Laws

open Sys2Proof.Machine

variable {P : State → Prop}

theorem cl_putColl (hP : Quiet P) (s : State) (c : Nat) (x : Coll) (hs : P s) : P (State.putColl s c x) := by
  unfold State.putColl
  with_reducible repeat' first | assumption | (apply Quiet.put hP) | ((apply Quiet.mk' hP); first | assumption | (apply Quiet.put hP) | split) | ((apply Quiet.mk' hP); (apply Quiet.mk' hP); first | assumption | (apply Quiet.put hP) | split) | split

theorem cl_collEnable (hP : Quiet P) (s : State) (c : Nat) (hs : P s) : P (State.collEnable s c) := by
  unfold State.collEnable; try dsimp only
  with_reducible repeat' first | assumption | (apply cl_putColl hP) | (apply cl_putBitAt hP) | (apply Quiet.put hP) | ((apply Quiet.mk' hP); first | assumption | (apply cl_putColl hP) | (apply cl_putBitAt hP) | (apply Quiet.put hP) | split) | ((apply Quiet.mk' hP); (apply Quiet.mk' hP); first | assumption | (apply cl_putColl hP) | (apply cl_putBitAt hP) | (apply Quiet.put hP) | split) | split

theorem cl_execCollectiveChannelEnable (hP : Quiet P) (channel : Nat) (s : State) (hs : P s) : OutP P (execCollectiveChannelEnable channel s) := by
  unfold execCollectiveChannelEnable
  with_reducible repeat' first | assumption | (apply cl_ok hP) | (apply cl_hostDo hP) | (apply cl_collEnable hP) | (apply Quiet.put hP) | split | (intro _ _) | (intro _) | (apply OutP.ok) | (apply OutP.next)

theorem cl_collDisable (hP : Quiet P) (s : State) (c : Nat) (hs : P s) : P (State.collDisable s c) := by
  unfold State.collDisable; try dsimp only
  with_reducible repeat' first | assumption | (apply cl_putBitAt hP) | (apply cl_putColl hP) | (apply Quiet.put hP) | ((apply Quiet.mk' hP); first | assumption | (apply cl_putBitAt hP) | (apply cl_putColl hP) | (apply Quiet.put hP) | split) | ((apply Quiet.mk' hP); (apply Quiet.mk' hP); first | assumption | (apply cl_putBitAt hP) | (apply cl_putColl hP) | (apply Quiet.put hP) | split) | split

theorem cl_execCollectiveChannelDisable (hP : Quiet P) (channel : Nat) (s : State) (hs : P s) : OutP P (execCollectiveChannelDisable channel s) := by
  unfold execCollectiveChannelDisable
  with_reducible repeat' first | assumption | (apply cl_ok hP) | (apply cl_hostDo hP) | (apply cl_collDisable hP) | (apply Quiet.put hP) | split | (intro _ _) | (intro _) | (apply OutP.ok) | (apply OutP.next)

theorem cl_sendDown (hP : Quiet P) (s : State) (c round : Nat) (data : List Byte) (ds : List Nat) (hs : P s) : P (State.sendDown s c round data ds) := by
  unfold State.sendDown
  with_reducible repeat' first | assumption | (apply cl_sendVc0 hP) | (apply Quiet.put hP) | split | (apply cl_foldl) | (intro _ _) | (intro _)

theorem cl_atRoot (hP : Quiet P) (s : State) (c : Nat) (x : Coll) (v : List Byte) (hs : P s) : P (State.atRoot s c x v) := by
  unfold State.atRoot; try dsimp only
  with_reducible repeat' first | assumption | (apply cl_sendVc0 hP) | (apply cl_putColl hP) | (apply cl_sendDown hP) | (apply Quiet.put hP) | split

theorem cl_collAdvance (hP : Quiet P) (s : State) (c : Nat) (hs : P s) : P (State.collAdvance s c) := by
  unfold State.collAdvance; try dsimp only
  with_reducible repeat' first | assumption | (apply cl_putColl hP) | (apply cl_sendVc0 hP) | (apply cl_atRoot hP) | (apply Quiet.put hP) | ((apply Quiet.mk' hP); first | assumption | (apply cl_putColl hP) | (apply cl_sendVc0 hP) | (apply cl_atRoot hP) | (apply Quiet.put hP) | split) | ((apply Quiet.mk' hP); (apply Quiet.mk' hP); first | assumption | (apply cl_putColl hP) | (apply cl_sendVc0 hP) | (apply cl_atRoot hP) | (apply Quiet.put hP) | split) | split | (intro _ _) | (intro _)

theorem cl_contribution (hP : Closed P) (s : State) (e : CollEntry) (hs : P s) : ExSndP P (State.contribution s e) := by
  unfold State.contribution
  with_reducible repeat' first | assumption | (apply cl_ok hP.toQuiet) | (apply cl_read hP) | (refine atExSndP ?_ (by assumption); apply cl_read hP) | (apply Quiet.put hP.toQuiet) | split | (apply ExSndP.ok) | (exact ExSndP.error)

theorem cl_openRound (hP : Quiet P) (s : State) (c : Nat) (x : Coll) (data : List Byte) (hs : P s) : P (State.openRound s c x data) := by
  unfold State.openRound; try dsimp only
  with_reducible repeat' first | assumption | (apply cl_putColl hP) | (apply cl_sendDown hP) | (apply cl_collAdvance hP) | (apply Quiet.put hP) | ((apply Quiet.mk' hP); first | assumption | (apply cl_putColl hP) | (apply cl_sendDown hP) | (apply cl_collAdvance hP) | (apply Quiet.put hP) | split) | ((apply Quiet.mk' hP); (apply Quiet.mk' hP); first | assumption | (apply cl_putColl hP) | (apply cl_sendDown hP) | (apply cl_collAdvance hP) | (apply Quiet.put hP) | split) | split

theorem cl_takeGate (hP : Closed P) (s : State) (c : Nat) (x : Coll) (hs : P s) : P (State.takeGate s c x) := by
  unfold State.takeGate
  with_reducible repeat' first | assumption | (apply cl_contribution hP) | (refine atExSndP ?_ (by assumption); apply cl_contribution hP) | (apply cl_memError hP) | (apply cl_ok hP.toQuiet) | (apply cl_barrierWrite hP) | (refine atExP ?_ (by assumption); apply cl_barrierWrite hP) | (apply cl_openRound hP.toQuiet) | (apply Quiet.put hP.toQuiet) | ((apply Quiet.mk' hP.toQuiet); first | assumption | (apply cl_contribution hP) | (refine atExSndP ?_ (by assumption); apply cl_contribution hP) | (apply cl_memError hP) | (apply cl_ok hP.toQuiet) | (apply cl_barrierWrite hP) | (refine atExP ?_ (by assumption); apply cl_barrierWrite hP) | (apply cl_openRound hP.toQuiet) | (apply Quiet.put hP.toQuiet) | split) | ((apply Quiet.mk' hP.toQuiet); (apply Quiet.mk' hP.toQuiet); first | assumption | (apply cl_contribution hP) | (refine atExSndP ?_ (by assumption); apply cl_contribution hP) | (apply cl_memError hP) | (apply cl_ok hP.toQuiet) | (apply cl_barrierWrite hP) | (refine atExP ?_ (by assumption); apply cl_barrierWrite hP) | (apply cl_openRound hP.toQuiet) | (apply Quiet.put hP.toQuiet) | split) | split

theorem cl_tryOpen (hP : Closed P) (s : State) (c : Nat) (x : Coll) (hs : P s) : P (State.tryOpen s c x) := by
  unfold State.tryOpen
  with_reducible repeat' first | assumption | (apply cl_read hP) | (refine atExSndP ?_ (by assumption); apply cl_read hP) | (apply cl_memError hP) | (apply cl_ok hP.toQuiet) | (apply cl_takeGate hP) | (apply Quiet.put hP.toQuiet) | ((apply Quiet.mk' hP.toQuiet); first | assumption | (apply cl_read hP) | (refine atExSndP ?_ (by assumption); apply cl_read hP) | (apply cl_memError hP) | (apply cl_ok hP.toQuiet) | (apply cl_takeGate hP) | (apply Quiet.put hP.toQuiet) | split) | ((apply Quiet.mk' hP.toQuiet); (apply Quiet.mk' hP.toQuiet); first | assumption | (apply cl_read hP) | (refine atExSndP ?_ (by assumption); apply cl_read hP) | (apply cl_memError hP) | (apply cl_ok hP.toQuiet) | (apply cl_takeGate hP) | (apply Quiet.put hP.toQuiet) | split) | split

theorem cl_execCollectiveRoundOpen (hP : Closed P) (channel : Nat) (s : State) (hs : P s) : OutP P (execCollectiveRoundOpen channel s) := by
  unfold execCollectiveRoundOpen
  with_reducible repeat' first | assumption | (apply cl_ok hP.toQuiet) | (apply cl_tryOpen hP) | (apply Quiet.put hP.toQuiet) | split | (apply OutP.ok) | (apply OutP.next)

theorem cl_collMessage (hP : Quiet P) (s : State) (c : Nat) (x : Coll) (round device : Nat) (down : Bool) (data : List Byte) (hs : P s) : P (State.collMessage s c x round device down data) := by
  unfold State.collMessage; try dsimp only
  with_reducible repeat' first | assumption | (apply cl_putColl hP) | (apply cl_sendDown hP) | (apply cl_collAdvance hP) | (apply Quiet.put hP) | split | (intro _ _) | (intro _)

theorem cl_execCollectiveMessage (hP : Closed P) (channel round device : Nat) (down agrees : Bool) (data : List Byte) (s : State) (hs : P s) : OutP P (execCollectiveMessage channel round device down agrees data s) := by
  unfold execCollectiveMessage
  with_reducible repeat' first | assumption | (apply cl_ok hP.toQuiet) | (apply cl_failColl hP) | (apply cl_collMessage hP.toQuiet) | (apply Quiet.put hP.toQuiet) | split | (apply OutP.ok) | (apply OutP.next)

theorem cl_writeResult (hP : Closed P) (s : State) (x : Coll) (hs : P s) : ExP P (State.writeResult s x) := by
  unfold State.writeResult
  with_reducible repeat' first | assumption | (apply cl_write hP) | (refine atExP ?_ (by assumption); apply cl_write hP) | (apply cl_ok hP.toQuiet) | (apply Quiet.put hP.toQuiet) | ((apply Quiet.mk' hP.toQuiet); first | assumption | (apply cl_write hP) | (refine atExP ?_ (by assumption); apply cl_write hP) | (apply cl_ok hP.toQuiet) | (apply Quiet.put hP.toQuiet) | split) | ((apply Quiet.mk' hP.toQuiet); (apply Quiet.mk' hP.toQuiet); first | assumption | (apply cl_write hP) | (refine atExP ?_ (by assumption); apply cl_write hP) | (apply cl_ok hP.toQuiet) | (apply Quiet.put hP.toQuiet) | split) | split | (apply ExP.ok) | (exact ExP.error)

theorem cl_deliverResult (hP : Closed P) (s : State) (x : Coll) (hs : P s) : P (State.deliverResult s x) := by
  unfold State.deliverResult
  with_reducible repeat' first | assumption | (apply cl_writeResult hP) | (refine atExP ?_ (by assumption); apply cl_writeResult hP) | (apply cl_ok hP.toQuiet) | (apply cl_barrierWrite hP) | (refine atExP ?_ (by assumption); apply cl_barrierWrite hP) | (apply cl_memError hP) | (apply Quiet.put hP.toQuiet) | ((apply Quiet.mk' hP.toQuiet); first | assumption | (apply cl_writeResult hP) | (refine atExP ?_ (by assumption); apply cl_writeResult hP) | (apply cl_ok hP.toQuiet) | (apply cl_barrierWrite hP) | (refine atExP ?_ (by assumption); apply cl_barrierWrite hP) | (apply cl_memError hP) | (apply Quiet.put hP.toQuiet) | split) | ((apply Quiet.mk' hP.toQuiet); (apply Quiet.mk' hP.toQuiet); first | assumption | (apply cl_writeResult hP) | (refine atExP ?_ (by assumption); apply cl_writeResult hP) | (apply cl_ok hP.toQuiet) | (apply cl_barrierWrite hP) | (refine atExP ?_ (by assumption); apply cl_barrierWrite hP) | (apply cl_memError hP) | (apply Quiet.put hP.toQuiet) | split) | split

theorem cl_endRound (hP : Closed P) (s : State) (c : Nat) (x : Coll) (hs : P s) : P (State.endRound s c x) := by
  unfold State.endRound; try dsimp only
  with_reducible repeat' first | assumption | (apply cl_deliverResult hP) | (apply cl_putColl hP.toQuiet) | (apply Quiet.put hP.toQuiet) | ((apply Quiet.mk' hP.toQuiet); first | assumption | (apply cl_deliverResult hP) | (apply cl_putColl hP.toQuiet) | (apply Quiet.put hP.toQuiet) | split) | ((apply Quiet.mk' hP.toQuiet); (apply Quiet.mk' hP.toQuiet); first | assumption | (apply cl_deliverResult hP) | (apply cl_putColl hP.toQuiet) | (apply Quiet.put hP.toQuiet) | split) | split | (intro _ _) | (intro _)

theorem cl_execCollectiveRoundComplete (hP : Closed P) (channel : Nat) (s : State) (hs : P s) : OutP P (execCollectiveRoundComplete channel s) := by
  unfold execCollectiveRoundComplete
  with_reducible repeat' first | assumption | (apply cl_ok hP.toQuiet) | (apply cl_endRound hP) | (apply Quiet.put hP.toQuiet) | split | (apply OutP.ok) | (apply OutP.next)

theorem cl_snapLate (hP : Quiet P) (s : State) (hs : P s) : P (State.snapLate s) := by
  unfold State.snapLate
  with_reducible repeat' first | assumption | (apply cl_put hP) | (apply Quiet.put hP) | split

theorem cl_snapArrives (hP : Quiet P) (s : State) (cut dest : Nat) (hs : P s) : P (State.snapArrives s cut dest) := by
  unfold State.snapArrives
  with_reducible repeat' first | assumption | (apply cl_snapLate hP) | (apply Quiet.put hP) | ((apply Quiet.mk' hP); first | assumption | (apply cl_snapLate hP) | (apply Quiet.put hP) | split) | ((apply Quiet.mk' hP); (apply Quiet.mk' hP); first | assumption | (apply cl_snapLate hP) | (apply Quiet.put hP) | split) | split

theorem cl_snapRequest (hP : Quiet P) (s : State) (cut dest : Nat) (hs : P s) : P (State.snapRequest s cut dest) := by
  unfold State.snapRequest; try dsimp only
  with_reducible repeat' first | assumption | (apply cl_put hP) | (apply cl_snapLate hP) | (apply cl_snapArrives hP) | (apply cl_send hP) | (apply Quiet.put hP) | ((apply Quiet.mk' hP); first | assumption | (apply cl_put hP) | (apply cl_snapLate hP) | (apply cl_snapArrives hP) | (apply cl_send hP) | (apply Quiet.put hP) | split) | ((apply Quiet.mk' hP); (apply Quiet.mk' hP); first | assumption | (apply cl_put hP) | (apply cl_snapLate hP) | (apply cl_snapArrives hP) | (apply cl_send hP) | (apply Quiet.put hP) | split) | split

theorem cl_execSnapshotRequest (hP : Quiet P) (cut dest : Nat) (s : State) (hs : P s) : OutP P (execSnapshotRequest cut dest s) := by
  unfold execSnapshotRequest
  with_reducible repeat' first | assumption | (apply cl_ok hP) | (apply cl_hostDo hP) | (apply cl_snapRequest hP) | (apply cl_snapArrives hP) | (apply Quiet.put hP) | split | (intro _ _) | (intro _) | (apply OutP.ok) | (apply OutP.next)

theorem cl_snapCut (hP : Quiet P) (s : State) (hs : P s) : P (State.snapCut s) := by
  unfold State.snapCut; try dsimp only
  with_reducible repeat' first | assumption | (apply cl_sendVc0 hP) | (apply Quiet.put hP) | ((apply Quiet.mk' hP); first | assumption | (apply cl_sendVc0 hP) | (apply Quiet.put hP) | split) | ((apply Quiet.mk' hP); (apply Quiet.mk' hP); first | assumption | (apply cl_sendVc0 hP) | (apply Quiet.put hP) | split) | split | (intro _ _) | (intro _)

theorem cl_writeRecords (hP : Closed P) (s : State) (dest : Nat) (r0 : List (List Byte)) (hs : P s) : P (State.writeRecords s dest r0) := by
  induction r0 generalizing s dest with
  | nil =>
    unfold State.writeRecords
    with_reducible repeat' first | assumption | (apply ih) | (apply cl_devWrite hP) | (apply Quiet.put hP.toQuiet) | ((apply Quiet.mk' hP.toQuiet); first | assumption | (apply ih) | (apply cl_devWrite hP) | (apply Quiet.put hP.toQuiet) | split) | split | (intro _ _) | (intro _)
  | cons x l ih =>
    unfold State.writeRecords
    try dsimp only
    with_reducible repeat' first | assumption | (apply ih) | (apply cl_devWrite hP) | (apply Quiet.put hP.toQuiet) | ((apply Quiet.mk' hP.toQuiet); first | assumption | (apply ih) | (apply cl_devWrite hP) | (apply Quiet.put hP.toQuiet) | split) | split | (intro _ _) | (intro _)

theorem cl_execSnapshotRecordsWritten (hP : Closed P) (records : List (Nat × List Byte)) (s : State) (hs : P s) : OutP P (execSnapshotRecordsWritten records s) := by
  unfold execSnapshotRecordsWritten; try dsimp only
  with_reducible repeat' first | assumption | (apply cl_ok hP.toQuiet) | (apply cl_writeRecords hP) | (apply cl_put hP.toQuiet) | (apply Quiet.put hP.toQuiet) | ((apply Quiet.mk' hP.toQuiet); first | assumption | (apply cl_ok hP.toQuiet) | (apply cl_writeRecords hP) | (apply cl_put hP.toQuiet) | (apply Quiet.put hP.toQuiet) | split) | ((apply Quiet.mk' hP.toQuiet); (apply Quiet.mk' hP.toQuiet); first | assumption | (apply cl_ok hP.toQuiet) | (apply cl_writeRecords hP) | (apply cl_put hP.toQuiet) | (apply Quiet.put hP.toQuiet) | split) | split | (intro _ _) | (intro _) | (apply OutP.ok) | (apply OutP.next)

end Sys2Proof.Laws
end

