-- ==== Sys2Proof/Laws/KeepsFaults.lean ====
section
/-! SUPPORT. What the functions of Machine/Faults.lean keep: see Laws/Closed.lean. -/

set_option linter.unusedTactic false
set_option linter.unreachableTactic false

namespace Sys2Proof.Laws

open Sys2Proof.Machine

variable {P : State → Prop}

theorem cl_hotError (hP : Quiet P) (s : State) (e : Err) (hs : P s) : P (State.hotError s e) := by
  unfold State.hotError
  with_reducible repeat' first | assumption | (apply cl_inc hP) | (apply Quiet.put hP) | ((apply Quiet.mk' hP); first | assumption | (apply cl_inc hP) | (apply Quiet.put hP) | split) | ((apply Quiet.mk' hP); (apply Quiet.mk' hP); first | assumption | (apply cl_inc hP) | (apply Quiet.put hP) | split) | split

theorem cl_escalate (hP : Closed P) (s : State) (source : Nat) (hs : P s) : P (State.escalate s source) := by
  unfold State.escalate; try dsimp only
  with_reducible repeat' first | assumption | (apply cl_put hP.toQuiet) | (apply cl_inc hP.toQuiet) | (apply cl_logError hP) | (apply Quiet.put hP.toQuiet) | ((apply Quiet.mk' hP.toQuiet); first | assumption | (apply cl_put hP.toQuiet) | (apply cl_inc hP.toQuiet) | (apply cl_logError hP) | (apply Quiet.put hP.toQuiet) | split) | ((apply Quiet.mk' hP.toQuiet); (apply Quiet.mk' hP.toQuiet); first | assumption | (apply cl_put hP.toQuiet) | (apply cl_inc hP.toQuiet) | (apply cl_logError hP) | (apply Quiet.put hP.toQuiet) | split) | split

theorem cl_escalation (hP : Closed P) (s : State) (source : Nat) (hs : P s) : P (State.escalation s source) := by
  unfold State.escalation
  with_reducible repeat' first | assumption | (apply cl_deviceStop hP) | (apply cl_escalate hP) | (apply Quiet.put hP.toQuiet) | split

theorem cl_route (hP : Closed P) (s : State) (e : Err) (hs : P s) : P (State.route s e) := by
  unfold State.route
  with_reducible repeat' first | assumption | (apply cl_escalation hP) | (apply cl_deviceStop hP) | (apply cl_detect hP) | (apply cl_kilnFails hP) | (apply cl_quayFails hP) | (apply cl_laneFails hP) | (apply cl_failStack hP) | (apply cl_hotError hP.toQuiet) | (apply Quiet.put hP.toQuiet) | ((apply Quiet.mk' hP.toQuiet); first | assumption | (apply cl_escalation hP) | (apply cl_deviceStop hP) | (apply cl_detect hP) | (apply cl_kilnFails hP) | (apply cl_quayFails hP) | (apply cl_laneFails hP) | (apply cl_failStack hP) | (apply cl_hotError hP.toQuiet) | (apply Quiet.put hP.toQuiet) | split) | ((apply Quiet.mk' hP.toQuiet); (apply Quiet.mk' hP.toQuiet); first | assumption | (apply cl_escalation hP) | (apply cl_deviceStop hP) | (apply cl_detect hP) | (apply cl_kilnFails hP) | (apply cl_quayFails hP) | (apply cl_laneFails hP) | (apply cl_failStack hP) | (apply cl_hotError hP.toQuiet) | (apply Quiet.put hP.toQuiet) | split) | split

theorem cl_countWord (hP : Quiet P) (s : State) (e : Err) (hs : P s) : P (State.countWord s e) := by
  unfold State.countWord
  with_reducible repeat' first | assumption | (apply cl_inc hP) | (apply Quiet.put hP) | split

theorem cl_execErrorDetect (hP : Closed P) (err : Err) (s : State) (hs : P s) : OutP P (execErrorDetect err s) := by
  unfold execErrorDetect
  with_reducible repeat' first | assumption | (apply cl_ok hP.toQuiet) | (apply cl_countWord hP.toQuiet) | (apply cl_route hP) | (apply Quiet.put hP.toQuiet) | split | (apply OutP.ok) | (apply OutP.next)

theorem cl_execDeviceFaultStop (hP : Closed P) (err : Err) (s : State) (hs : P s) : OutP P (execDeviceFaultStop err s) := by
  unfold execDeviceFaultStop
  with_reducible repeat' first | assumption | (apply cl_ok hP.toQuiet) | (apply cl_deviceStop hP) | (apply Quiet.put hP.toQuiet) | ((apply Quiet.mk' hP.toQuiet); first | assumption | (apply cl_ok hP.toQuiet) | (apply cl_deviceStop hP) | (apply Quiet.put hP.toQuiet) | split) | ((apply Quiet.mk' hP.toQuiet); (apply Quiet.mk' hP.toQuiet); first | assumption | (apply cl_ok hP.toQuiet) | (apply cl_deviceStop hP) | (apply Quiet.put hP.toQuiet) | split) | split | (apply OutP.ok) | (apply OutP.next)

theorem cl_execSchedulerWatchdog (hP : Closed P) (s : State) (hs : P s) : OutP P (execSchedulerWatchdog s) := by
  unfold execSchedulerWatchdog
  with_reducible repeat' first | assumption | (apply cl_ok hP.toQuiet) | (apply cl_deviceStop hP) | (apply Quiet.put hP.toQuiet) | split | (apply OutP.ok) | (apply OutP.next)

theorem cl_execSalvorEscalate (hP : Closed P) (source : Nat) (s : State) (hs : P s) : OutP P (execSalvorEscalate source s) := by
  unfold execSalvorEscalate
  with_reducible repeat' first | assumption | (apply cl_ok hP.toQuiet) | (apply cl_escalation hP) | (apply Quiet.put hP.toQuiet) | split | (apply OutP.ok) | (apply OutP.next)

theorem cl_salvorNext (hP : Quiet P) (s : State) (hs : P s) : P (State.salvorNext s) := by
  unfold State.salvorNext
  with_reducible repeat' first | assumption | (apply cl_put hP) | (apply cl_takeInHand hP) | (apply Quiet.put hP) | ((apply Quiet.mk' hP); first | assumption | (apply cl_put hP) | (apply cl_takeInHand hP) | (apply Quiet.put hP) | split) | ((apply Quiet.mk' hP); (apply Quiet.mk' hP); first | assumption | (apply cl_put hP) | (apply cl_takeInHand hP) | (apply Quiet.put hP) | split) | split

theorem cl_execSalvorRestart (hP : Quiet P) (s : State) (hs : P s) : OutP P (execSalvorRestart s) := by
  unfold execSalvorRestart; try dsimp only
  with_reducible repeat' first | assumption | (apply cl_ok hP) | (apply cl_put hP) | (apply cl_salvorNext hP) | (apply Quiet.put hP) | ((apply Quiet.mk' hP); first | assumption | (apply cl_ok hP) | (apply cl_put hP) | (apply cl_salvorNext hP) | (apply Quiet.put hP) | split) | ((apply Quiet.mk' hP); (apply Quiet.mk' hP); first | assumption | (apply cl_ok hP) | (apply cl_put hP) | (apply cl_salvorNext hP) | (apply Quiet.put hP) | split) | split | (apply OutP.ok) | (apply OutP.next)

theorem cl_endTouched (hP : Closed P) (s : State) (e : Err) (status : Nat) (hs : P s) : P (State.endTouched s e status) := by
  unfold State.endTouched
  with_reducible repeat' first | assumption | (apply cl_endJobOf hP) | (apply Quiet.put hP.toQuiet) | split

theorem cl_retryOr (hP : Closed P) (s : State) (j status : Nat) (hs : P s) : P (State.retryOr s j status) := by
  unfold State.retryOr
  with_reducible repeat' first | assumption | (apply cl_useRetry hP.toQuiet) | (apply cl_endJob hP) | (apply Quiet.put hP.toQuiet) | split

theorem cl_dropBlock (hP : Quiet P) (s : State) (a : Nat) (hs : P s) : P (State.dropBlock s a) := by
  unfold State.dropBlock; try dsimp only
  with_reducible repeat' first | assumption | (apply cl_putModel hP) | (apply cl_startLoader hP) | (apply Quiet.put hP) | ((apply Quiet.mk' hP); first | assumption | (apply cl_putModel hP) | (apply cl_startLoader hP) | (apply Quiet.put hP) | (apply cl_foldl) | split) | ((apply Quiet.mk' hP); (apply Quiet.mk' hP); first | assumption | (apply cl_putModel hP) | (apply cl_startLoader hP) | (apply Quiet.put hP) | (apply cl_foldl) | split) | split | (apply cl_foldl) | (intro _ _) | (intro _)

theorem cl_containBank (hP : Closed P) (s : State) (e : Err) (hs : P s) : P (State.containBank s e) := by
  unfold State.containBank; try dsimp only
  with_reducible repeat' first | assumption | (apply cl_endTouched hP) | (apply cl_dropBlock hP.toQuiet) | (apply Quiet.put hP.toQuiet) | split

theorem cl_containBerth (hP : Closed P) (s : State) (e : Err) (hs : P s) : P (State.containBerth s e) := by
  unfold State.containBerth; try dsimp only
  with_reducible repeat' first | assumption | (apply cl_retryOr hP) | (apply cl_haltTask hP) | (apply Quiet.put hP.toQuiet) | split | (apply cl_foldl) | (intro _ _) | (intro _)

theorem cl_retryStream (hP : Closed P) (s : State) (n : Nat) (hs : P s) : P (State.retryStream s n) := by
  unfold State.retryStream; try dsimp only
  with_reducible repeat' first | assumption | (apply cl_loadNext hP.toQuiet) | (apply cl_retryOr hP) | (apply cl_rewind hP.toQuiet) | (apply cl_setStream hP.toQuiet) | (apply Quiet.put hP.toQuiet) | ((apply Quiet.mk' hP.toQuiet); first | assumption | (apply cl_loadNext hP.toQuiet) | (apply cl_retryOr hP) | (apply cl_rewind hP.toQuiet) | (apply cl_setStream hP.toQuiet) | (apply Quiet.put hP.toQuiet) | split) | ((apply Quiet.mk' hP.toQuiet); (apply Quiet.mk' hP.toQuiet); first | assumption | (apply cl_loadNext hP.toQuiet) | (apply cl_retryOr hP) | (apply cl_rewind hP.toQuiet) | (apply cl_setStream hP.toQuiet) | (apply Quiet.put hP.toQuiet) | split) | split | (intro _ _) | (intro _)

theorem cl_containHold (hP : Closed P) (s : State) (e : Err) (hs : P s) : P (State.containHold s e) := by
  unfold State.containHold; try dsimp only
  with_reducible repeat' first | assumption | (apply cl_retryStream hP) | (apply Quiet.put hP.toQuiet) | split

theorem cl_containHistory (hP : Closed P) (s : State) (e : Err) (hs : P s) : P (State.containHistory s e) := by
  unfold State.containHistory
  with_reducible repeat' first | assumption | (apply cl_histDamage hP) | (apply cl_endTouched hP) | (apply Quiet.put hP.toQuiet) | split

theorem cl_containHbm (hP : Closed P) (s : State) (e : Err) (hs : P s) : P (State.containHbm s e) := by
  unfold State.containHbm
  generalize s.setOf e.addr = o
  cases o with
  | none => exact hs
  | some n =>
    dsimp only
    split
    · exact hs
    · exact cl_containHistory hP _ _ hs
    · exact cl_endTouched hP _ _ _ hs

theorem cl_contain (hP : Closed P) (s : State) (e : Err) (hs : P s) : P (State.contain s e) := by
  unfold State.contain
  with_reducible repeat' first | assumption | (apply cl_containBank hP) | (apply cl_containBerth hP) | (apply cl_containHold hP) | (apply cl_containHbm hP) | (apply Quiet.put hP.toQuiet) | split

theorem cl_execModelBlockReload (hP : Closed P) (model block job : Nat) (s : State) (hs : P s) : OutP P (execModelBlockReload model block job s) := by
  unfold execModelBlockReload; try dsimp only
  with_reducible repeat' first | assumption | (apply cl_ok hP.toQuiet) | (apply cl_putModel hP.toQuiet) | (apply cl_loadNext hP.toQuiet) | (apply cl_retryOr hP) | (apply cl_storeBlock hP) | (refine atExSndP ?_ (by assumption); apply cl_storeBlock hP) | (apply cl_writeBlock hP) | (apply Quiet.put hP.toQuiet) | ((apply Quiet.mk' hP.toQuiet); first | assumption | (apply cl_ok hP.toQuiet) | (apply cl_putModel hP.toQuiet) | (apply cl_loadNext hP.toQuiet) | (apply cl_retryOr hP) | (apply cl_storeBlock hP) | (refine atExSndP ?_ (by assumption); apply cl_storeBlock hP) | (apply cl_writeBlock hP) | (apply Quiet.put hP.toQuiet) | split) | ((apply Quiet.mk' hP.toQuiet); (apply Quiet.mk' hP.toQuiet); first | assumption | (apply cl_ok hP.toQuiet) | (apply cl_putModel hP.toQuiet) | (apply cl_loadNext hP.toQuiet) | (apply cl_retryOr hP) | (apply cl_storeBlock hP) | (refine atExSndP ?_ (by assumption); apply cl_storeBlock hP) | (apply cl_writeBlock hP) | (apply Quiet.put hP.toQuiet) | split) | split | (intro _ _) | (intro _) | (apply OutP.ok) | (apply OutP.next)

theorem cl_endTouching (hP : Closed P) (s : State) (lo hi status : Nat) (hs : P s) : P (State.endTouching s lo hi status) := by
  unfold State.endTouching
  with_reducible repeat' first | assumption | (apply cl_endJobOf hP) | (apply Quiet.put hP.toQuiet) | split | (apply cl_foldl) | (intro _ _) | (intro _)

theorem cl_fenceKiln (hP : Quiet P) (s : State) (e : Err) (hs : P s) : P (State.fenceKiln s e) := by
  unfold State.fenceKiln
  with_reducible repeat' first | assumption | (apply cl_fenceUnit hP) | (apply cl_stopKiln hP) | (apply Quiet.put hP) | split

theorem cl_fenceCrane (hP : Quiet P) (s : State) (c : Nat) (hs : P s) : P (State.fenceCrane s c) := by
  unfold State.fenceCrane
  with_reducible repeat' first | assumption | (apply cl_putCrane hP) | (apply Quiet.put hP) | split

theorem cl_moveStream (hP : Quiet P) (s : State) (n : Nat) (hs : P s) : P (State.moveStream s n) := by
  unfold State.moveStream; try dsimp only
  with_reducible repeat' first | assumption | (apply cl_freeStream hP) | (apply cl_startLoader hP) | (apply cl_fresh hP) | (refine SndP.at ?_ (by assumption); apply cl_fresh hP) | (apply SndP.out; apply cl_fresh hP) | (apply cl_putJob hP) | (apply cl_resumeCopy hP) | (apply cl_rewind hP) | (apply cl_putStream hP) | (apply Quiet.put hP) | ((apply Quiet.mk' hP); first | assumption | (apply cl_freeStream hP) | (apply cl_startLoader hP) | (apply cl_fresh hP) | (refine SndP.at ?_ (by assumption); apply cl_fresh hP) | (apply SndP.out; apply cl_fresh hP) | (apply cl_putJob hP) | (apply cl_resumeCopy hP) | (apply cl_rewind hP) | (apply cl_putStream hP) | (apply Quiet.put hP) | split) | ((apply Quiet.mk' hP); (apply Quiet.mk' hP); first | assumption | (apply cl_freeStream hP) | (apply cl_startLoader hP) | (apply cl_fresh hP) | (refine SndP.at ?_ (by assumption); apply cl_fresh hP) | (apply SndP.out; apply cl_fresh hP) | (apply cl_putJob hP) | (apply cl_resumeCopy hP) | (apply cl_rewind hP) | (apply cl_putStream hP) | (apply Quiet.put hP) | split) | split | (intro _ _) | (intro _)

theorem cl_fenceStevedore (hP : Closed P) (s : State) (v : Nat) (hs : P s) : P (State.fenceStevedore s v) := by
  unfold State.fenceStevedore; try dsimp only
  with_reducible repeat' first | assumption | (apply cl_fresh hP.toQuiet) | (refine SndP.at ?_ (by assumption); apply cl_fresh hP.toQuiet) | (apply SndP.out; apply cl_fresh hP.toQuiet) | (apply cl_retryOr hP) | (apply cl_moveStream hP.toQuiet) | (apply Quiet.put hP.toQuiet) | ((apply Quiet.mk' hP.toQuiet); first | assumption | (apply cl_fresh hP.toQuiet) | (refine SndP.at ?_ (by assumption); apply cl_fresh hP.toQuiet) | (apply SndP.out; apply cl_fresh hP.toQuiet) | (apply cl_retryOr hP) | (apply cl_moveStream hP.toQuiet) | (apply Quiet.put hP.toQuiet) | (apply cl_foldl) | split) | ((apply Quiet.mk' hP.toQuiet); (apply Quiet.mk' hP.toQuiet); first | assumption | (apply cl_fresh hP.toQuiet) | (refine SndP.at ?_ (by assumption); apply cl_fresh hP.toQuiet) | (apply SndP.out; apply cl_fresh hP.toQuiet) | (apply cl_retryOr hP) | (apply cl_moveStream hP.toQuiet) | (apply Quiet.put hP.toQuiet) | (apply cl_foldl) | split) | split | (apply cl_foldl) | (intro _ _) | (intro _)

theorem cl_fenceWay (hP : Closed P) (s : State) (e : Err) (hs : P s) : P (State.fenceWay s e) := by
  unfold State.fenceWay; try dsimp only
  with_reducible repeat' first | assumption | (apply cl_fenceUnit hP.toQuiet) | (apply cl_endTouched hP) | (apply cl_endJobOf hP) | (apply cl_endTouching hP) | (apply cl_evictWay hP) | (apply Quiet.put hP.toQuiet) | split | (apply cl_foldl) | (intro _ _) | (intro _)

theorem cl_reportSlot (hP : Quiet P) (s : State) (g slot : Nat) (hs : P s) : P (State.reportSlot s g slot) := by
  unfold State.reportSlot
  with_reducible repeat' first | assumption | (apply cl_send hP) | (apply cl_sendVc0 hP) | (apply Quiet.put hP) | ((apply Quiet.mk' hP); first | assumption | (apply cl_send hP) | (apply cl_sendVc0 hP) | (apply Quiet.put hP) | split) | ((apply Quiet.mk' hP); (apply Quiet.mk' hP); first | assumption | (apply cl_send hP) | (apply cl_sendVc0 hP) | (apply Quiet.put hP) | split) | split

theorem cl_losePages (hP : Quiet P) (s : State) (lo hi : Nat) (hs : P s) : P (State.losePages s lo hi) := by
  unfold State.losePages
  with_reducible repeat' first | assumption | (apply cl_reportSlot hP) | (apply Quiet.put hP) | ((apply Quiet.mk' hP); first | assumption | (apply cl_reportSlot hP) | (apply Quiet.put hP) | (apply cl_foldl) | split) | ((apply Quiet.mk' hP); (apply Quiet.mk' hP); first | assumption | (apply cl_reportSlot hP) | (apply Quiet.put hP) | (apply cl_foldl) | split) | split | (apply cl_foldl) | (intro _ _) | (intro _)

theorem cl_losePool (hP : Closed P) (s : State) (hs : P s) : P (State.losePool s) := by
  unfold State.losePool; try dsimp only
  with_reducible repeat' first | assumption | (apply cl_histDamage hP) | (apply cl_endJobOf hP) | (apply Quiet.put hP.toQuiet) | split | (apply cl_foldl) | (intro _ _) | (intro _)

theorem cl_loseSet (hP : Closed P) (s : State) (n : Nat) (hs : P s) : P (State.loseSet s n) := by
  unfold State.loseSet; try dsimp only
  with_reducible repeat' first | assumption | (apply cl_endTouching hP) | (apply cl_losePages hP.toQuiet) | (apply cl_losePool hP) | (apply Quiet.put hP.toQuiet) | split

theorem cl_loseStack (hP : Closed P) (s : State) (stack : Nat) (hs : P s) : P (State.loseStack s stack) := by
  unfold State.loseStack
  with_reducible repeat' first | assumption | (apply cl_loseSet hP) | (apply Quiet.put hP.toQuiet) | split | (apply cl_foldl) | (intro _ _) | (intro _)

theorem cl_fence (hP : Closed P) (s : State) (e : Err) (hs : P s) : P (State.fence s e) := by
  unfold State.fence
  with_reducible repeat' first | assumption | (apply cl_fenceKiln hP.toQuiet) | (apply cl_fenceCrane hP.toQuiet) | (apply cl_fenceStevedore hP) | (apply cl_fenceWay hP) | (apply cl_loseStack hP) | (apply cl_failStack hP) | (apply cl_resetRing hP) | (apply cl_fenceUnit hP.toQuiet) | (apply Quiet.put hP.toQuiet) | ((apply Quiet.mk' hP.toQuiet); first | assumption | (apply cl_fenceKiln hP.toQuiet) | (apply cl_fenceCrane hP.toQuiet) | (apply cl_fenceStevedore hP) | (apply cl_fenceWay hP) | (apply cl_loseStack hP) | (apply cl_failStack hP) | (apply cl_resetRing hP) | (apply cl_fenceUnit hP.toQuiet) | (apply Quiet.put hP.toQuiet) | (apply cl_foldl) | split) | ((apply Quiet.mk' hP.toQuiet); (apply Quiet.mk' hP.toQuiet); first | assumption | (apply cl_fenceKiln hP.toQuiet) | (apply cl_fenceCrane hP.toQuiet) | (apply cl_fenceStevedore hP) | (apply cl_fenceWay hP) | (apply cl_loseStack hP) | (apply cl_failStack hP) | (apply cl_resetRing hP) | (apply cl_fenceUnit hP.toQuiet) | (apply Quiet.put hP.toQuiet) | (apply cl_foldl) | split) | split | (apply cl_foldl) | (intro _ _) | (intro _)

theorem cl_applyError (hP : Closed P) (s : State) (e : Err) (hs : P s) : P (State.applyError s e) := by
  unfold State.applyError
  with_reducible repeat' first | assumption | (apply cl_contain hP) | (apply cl_fence hP) | (apply Quiet.put hP.toQuiet) | split

theorem cl_handle (hP : Closed P) (s : State) (e : Err) (hs : P s) : P (State.handle s e) := by
  unfold State.handle; try dsimp only
  with_reducible repeat' first | assumption | (apply cl_applyError hP) | (apply cl_record hP) | (apply cl_salvorNext hP.toQuiet) | (apply Quiet.put hP.toQuiet) | ((apply Quiet.mk' hP.toQuiet); first | assumption | (apply cl_applyError hP) | (apply cl_record hP) | (apply cl_salvorNext hP.toQuiet) | (apply Quiet.put hP.toQuiet) | split) | ((apply Quiet.mk' hP.toQuiet); (apply Quiet.mk' hP.toQuiet); first | assumption | (apply cl_applyError hP) | (apply cl_record hP) | (apply cl_salvorNext hP.toQuiet) | (apply Quiet.put hP.toQuiet) | split) | split

theorem cl_execSalvorHandle (hP : Closed P) (s : State) (hs : P s) : OutP P (execSalvorHandle s) := by
  unfold execSalvorHandle
  with_reducible repeat' first | assumption | (apply cl_ok hP.toQuiet) | (apply cl_handle hP) | (apply Quiet.put hP.toQuiet) | split | (apply OutP.ok) | (apply OutP.next)

theorem cl_execHbmStackFail (hP : Closed P) (stack cause : Nat) (s : State) (hs : P s) : OutP P (execHbmStackFail stack cause s) := by
  unfold execHbmStackFail
  with_reducible repeat' first | assumption | (apply cl_ok hP.toQuiet) | (apply cl_failStack hP) | (apply Quiet.put hP.toQuiet) | split | (apply OutP.ok) | (apply OutP.next)

theorem cl_noteSlotLoss (hP : Quiet P) (s : State) (device g slot : Nat) (hs : P s) : P (State.noteSlotLoss s device g slot) := by
  unfold State.noteSlotLoss
  with_reducible repeat' first | assumption | (apply Quiet.put hP) | ((apply Quiet.mk' hP); first | assumption | (apply Quiet.put hP) | split) | ((apply Quiet.mk' hP); (apply Quiet.mk' hP); first | assumption | (apply Quiet.put hP) | split) | split

theorem cl_execSlotsLost (hP : Quiet P) (device group slot : Nat) (s : State) (hs : P s) : OutP P (execSlotsLost device group slot s) := by
  unfold execSlotsLost
  with_reducible repeat' first | assumption | (apply cl_ok hP) | (apply cl_noteSlotLoss hP) | (apply cl_send hP) | (apply Quiet.put hP) | split | (apply OutP.ok) | (apply OutP.next)

theorem cl_execSlotLossNotice (hP : Quiet P) (device group slot : Nat) (s : State) (hs : P s) : OutP P (execSlotLossNotice device group slot s) := by
  unfold execSlotLossNotice
  with_reducible repeat' first | assumption | (apply cl_ok hP) | (apply cl_noteSlotLoss hP) | (apply Quiet.put hP) | split | (apply OutP.ok) | (apply OutP.next)

theorem cl_sendStart (hP : Quiet P) (s : State) (g : Nat) (hs : P s) : P (State.sendStart s g) := by
  unfold State.sendStart; try dsimp only
  with_reducible repeat' first | assumption | (apply cl_sendVc0 hP) | (apply Quiet.put hP) | ((apply Quiet.mk' hP); first | assumption | (apply cl_sendVc0 hP) | (apply Quiet.put hP) | split) | ((apply Quiet.mk' hP); (apply Quiet.mk' hP); first | assumption | (apply cl_sendVc0 hP) | (apply Quiet.put hP) | split) | split

theorem cl_rebuildGo (hP : Quiet P) (s : State) (g : Nat) (hs : P s) : P (State.rebuildGo s g) := by
  unfold State.rebuildGo; try dsimp only
  with_reducible repeat' first | assumption | (apply cl_put hP) | (apply cl_sendStart hP) | (apply cl_startCopy hP) | (apply Quiet.put hP) | ((apply Quiet.mk' hP); first | assumption | (apply cl_put hP) | (apply cl_sendStart hP) | (apply cl_startCopy hP) | (apply Quiet.put hP) | split) | ((apply Quiet.mk' hP); (apply Quiet.mk' hP); first | assumption | (apply cl_put hP) | (apply cl_sendStart hP) | (apply cl_startCopy hP) | (apply Quiet.put hP) | split) | split

theorem cl_execRebuildGo (hP : Quiet P) (group : Nat) (s : State) (hs : P s) : OutP P (execRebuildGo group s) := by
  unfold execRebuildGo
  with_reducible repeat' first | assumption | (apply cl_ok hP) | (apply cl_hostDo hP) | (apply cl_rebuildGo hP) | (apply Quiet.put hP) | split | (intro _ _) | (intro _) | (apply OutP.ok) | (apply OutP.next)

theorem cl_execRebuildStart (hP : Quiet P) (group slot device : Nat) (s : State) (hs : P s) : OutP P (execRebuildStart group slot device s) := by
  unfold execRebuildStart; try dsimp only
  with_reducible repeat' first | assumption | (apply cl_ok hP) | (apply cl_sendVc0 hP) | (apply Quiet.put hP) | ((apply Quiet.mk' hP); first | assumption | (apply cl_ok hP) | (apply cl_sendVc0 hP) | (apply Quiet.put hP) | (apply cl_foldl) | split) | ((apply Quiet.mk' hP); (apply Quiet.mk' hP); first | assumption | (apply cl_ok hP) | (apply cl_sendVc0 hP) | (apply Quiet.put hP) | (apply cl_foldl) | split) | split | (apply cl_foldl) | (intro _ _) | (intro _) | (apply OutP.ok) | (apply OutP.next)

theorem cl_currentPage (hP : Closed P) (s : State) (t p : Nat) (hs : P s) : OptSndP P (State.currentPage s t p) := by
  unfold State.currentPage; try dsimp only
  with_reducible repeat' first | assumption | (apply cl_read hP) | (refine atExSndP ?_ (by assumption); apply cl_read hP) | (apply cl_ok hP.toQuiet) | (apply Quiet.put hP.toQuiet) | ((apply Quiet.mk' hP.toQuiet); first | assumption | (apply cl_read hP) | (refine atExSndP ?_ (by assumption); apply cl_read hP) | (apply cl_ok hP.toQuiet) | (apply Quiet.put hP.toQuiet) | split) | ((apply Quiet.mk' hP.toQuiet); (apply Quiet.mk' hP.toQuiet); first | assumption | (apply cl_read hP) | (refine atExSndP ?_ (by assumption); apply cl_read hP) | (apply cl_ok hP.toQuiet) | (apply Quiet.put hP.toQuiet) | split) | split | (apply OptSndP.some) | (exact OptSndP.none)

theorem cl_execRebuildPageRequest (hP : Closed P) (table page slot device : Nat) (s : State) (hs : P s) : OutP P (execRebuildPageRequest table page slot device s) := by
  unfold execRebuildPageRequest
  with_reducible repeat' first | assumption | (apply cl_currentPage hP) | (refine atOptSndP ?_ (by assumption); apply cl_currentPage hP) | (apply cl_ok hP.toQuiet) | (apply cl_send hP.toQuiet) | (apply Quiet.put hP.toQuiet) | split | (apply OutP.ok) | (apply OutP.next)

theorem cl_sendDone (hP : Quiet P) (s : State) (b : Rebuild) (hs : P s) : P (State.sendDone s b) := by
  unfold State.sendDone
  with_reducible repeat' first | assumption | (apply cl_send hP) | (apply cl_sendVc0 hP) | (apply Quiet.put hP) | ((apply Quiet.mk' hP); first | assumption | (apply cl_send hP) | (apply cl_sendVc0 hP) | (apply Quiet.put hP) | split) | ((apply Quiet.mk' hP); (apply Quiet.mk' hP); first | assumption | (apply cl_send hP) | (apply cl_sendVc0 hP) | (apply Quiet.put hP) | split) | split

theorem cl_writePage (hP : Closed P) (s : State) (b : Rebuild) (hs : P s) : P (State.writePage s b) := by
  unfold State.writePage; try dsimp only
  with_reducible repeat' first | assumption | (apply cl_takeUpPage hP.toQuiet) | (apply cl_write hP) | (refine atExP ?_ (by assumption); apply cl_write hP) | (apply cl_ok hP.toQuiet) | (apply cl_inc hP.toQuiet) | (apply cl_sendDone hP.toQuiet) | (apply Quiet.put hP.toQuiet) | ((apply Quiet.mk' hP.toQuiet); first | assumption | (apply cl_takeUpPage hP.toQuiet) | (apply cl_write hP) | (refine atExP ?_ (by assumption); apply cl_write hP) | (apply cl_ok hP.toQuiet) | (apply cl_inc hP.toQuiet) | (apply cl_sendDone hP.toQuiet) | (apply Quiet.put hP.toQuiet) | split) | ((apply Quiet.mk' hP.toQuiet); (apply Quiet.mk' hP.toQuiet); first | assumption | (apply cl_takeUpPage hP.toQuiet) | (apply cl_write hP) | (refine atExP ?_ (by assumption); apply cl_write hP) | (apply cl_ok hP.toQuiet) | (apply cl_inc hP.toQuiet) | (apply cl_sendDone hP.toQuiet) | (apply Quiet.put hP.toQuiet) | split) | split

theorem cl_pageArrives (hP : Closed P) (s : State) (b : Rebuild) (slot : Nat) (data : List Byte) (hs : P s) : P (State.pageArrives s b slot data) := by
  unfold State.pageArrives; try dsimp only
  with_reducible repeat' first | assumption | (apply cl_writePage hP) | (apply Quiet.put hP.toQuiet) | ((apply Quiet.mk' hP.toQuiet); first | assumption | (apply cl_writePage hP) | (apply Quiet.put hP.toQuiet) | split) | ((apply Quiet.mk' hP.toQuiet); (apply Quiet.mk' hP.toQuiet); first | assumption | (apply cl_writePage hP) | (apply Quiet.put hP.toQuiet) | split) | split

theorem cl_execRebuildPage (hP : Closed P) (table page slot : Nat) (data : List Byte) (s : State) (hs : P s) : OutP P (execRebuildPage table page slot data s) := by
  unfold execRebuildPage
  with_reducible repeat' first | assumption | (apply cl_ok hP.toQuiet) | (apply cl_pageArrives hP) | (apply Quiet.put hP.toQuiet) | split | (apply OutP.ok) | (apply OutP.next)

theorem cl_noteReplace (hP : Quiet P) (s : State) (g slot device : Nat) (hs : P s) : P (State.noteReplace s g slot device) := by
  unfold State.noteReplace
  with_reducible repeat' first | assumption | (apply Quiet.put hP) | ((apply Quiet.mk' hP); first | assumption | (apply Quiet.put hP) | split) | ((apply Quiet.mk' hP); (apply Quiet.mk' hP); first | assumption | (apply Quiet.put hP) | split) | split

theorem cl_execRebuildDone (hP : Quiet P) (group slot device : Nat) (s : State) (hs : P s) : OutP P (execRebuildDone group slot device s) := by
  unfold execRebuildDone
  with_reducible repeat' first | assumption | (apply cl_ok hP) | (apply cl_noteReplace hP) | (apply cl_send hP) | (apply Quiet.put hP) | split | (apply OutP.ok) | (apply OutP.next)

theorem cl_execSlotReplace (hP : Quiet P) (group slot device : Nat) (s : State) (hs : P s) : OutP P (execSlotReplace group slot device s) := by
  unfold execSlotReplace
  with_reducible repeat' first | assumption | (apply cl_ok hP) | (apply cl_noteReplace hP) | (apply Quiet.put hP) | split | (apply OutP.ok) | (apply OutP.next)

theorem cl_execRebuildEnd (hP : Quiet P) (group : Nat) (s : State) (hs : P s) : OutP P (execRebuildEnd group s) := by
  unfold execRebuildEnd; try dsimp only
  with_reducible repeat' first | assumption | (apply cl_ok hP) | (apply cl_endRebuild hP) | (apply Quiet.put hP) | ((apply Quiet.mk' hP); first | assumption | (apply cl_ok hP) | (apply cl_endRebuild hP) | (apply Quiet.put hP) | split) | ((apply Quiet.mk' hP); (apply Quiet.mk' hP); first | assumption | (apply cl_ok hP) | (apply cl_endRebuild hP) | (apply Quiet.put hP) | split) | split | (apply OutP.ok) | (apply OutP.next)

theorem cl_scrub (hP : Closed P) (s : State) (a outcome : Nat) (hs : P s) : P (State.scrub s a outcome) := by
  unfold State.scrub
  with_reducible repeat' first | assumption | (apply cl_dropHot hP.toQuiet) | (apply cl_detect hP) | (apply cl_poison hP.toQuiet) | (apply Quiet.put hP.toQuiet) | ((apply Quiet.mk' hP.toQuiet); first | assumption | (apply cl_dropHot hP.toQuiet) | (apply cl_detect hP) | (apply cl_poison hP.toQuiet) | (apply Quiet.put hP.toQuiet) | (apply cl_foldl) | split) | ((apply Quiet.mk' hP.toQuiet); (apply Quiet.mk' hP.toQuiet); first | assumption | (apply cl_dropHot hP.toQuiet) | (apply cl_detect hP) | (apply cl_poison hP.toQuiet) | (apply Quiet.put hP.toQuiet) | (apply cl_foldl) | split) | split | (apply cl_foldl) | (intro _ _) | (intro _)

theorem cl_execPatrolScrub (hP : Closed P) (addr outcome : Nat) (s : State) (hs : P s) : OutP P (execPatrolScrub addr outcome s) := by
  unfold execPatrolScrub
  generalize s.setOf addr = o
  cases o with
  | none => exact OutP.ok hs
  | some n =>
    dsimp only
    generalize (s.live && !s.setStopped n && addr % 64 == 0) = b
    cases b
    · exact OutP.ok hs
    · exact OutP.ok (cl_scrub hP _ _ _ hs)

theorem cl_chsetStop (hP : Quiet P) (s : State) (n : Nat) (hs : P s) : P (State.chsetStop s n) := by
  unfold State.chsetStop
  with_reducible repeat' first | assumption | (apply cl_putBitAt hP) | (apply Quiet.put hP) | split

theorem cl_chsetLoses (hP : Quiet P) (s : State) (n : Nat) (hs : P s) : P (State.chsetLoses s n) := by
  unfold State.chsetLoses
  with_reducible repeat' first | assumption | (apply cl_losePages hP) | (apply Quiet.put hP) | split

theorem cl_chsetHalt (hP : Quiet P) (s : State) (n : Nat) (hs : P s) : P (State.chsetHalt s n) := by
  unfold State.chsetHalt
  with_reducible repeat' first | assumption | (apply cl_chsetStop hP) | (apply cl_chsetLoses hP) | (apply Quiet.put hP) | split

theorem cl_execChsetStop (hP : Quiet P) (set : Nat) (s : State) (hs : P s) : OutP P (execChsetStop set s) := by
  unfold execChsetStop
  with_reducible repeat' first | assumption | (apply cl_ok hP) | (apply cl_hostDo hP) | (apply cl_chsetHalt hP) | (apply Quiet.put hP) | split | (intro _ _) | (intro _) | (apply OutP.ok) | (apply OutP.next)

theorem cl_chsetRestart (hP : Closed P) (s : State) (n : Nat) (hs : P s) : P (State.chsetRestart s n) := by
  unfold State.chsetRestart; try dsimp only
  with_reducible repeat' first | assumption | (apply cl_putBitAt hP.toQuiet) | (apply cl_scramble hP) | (apply cl_zero hP) | (apply Quiet.put hP.toQuiet) | ((apply Quiet.mk' hP.toQuiet); first | assumption | (apply cl_putBitAt hP.toQuiet) | (apply cl_scramble hP) | (apply cl_zero hP) | (apply Quiet.put hP.toQuiet) | split) | ((apply Quiet.mk' hP.toQuiet); (apply Quiet.mk' hP.toQuiet); first | assumption | (apply cl_putBitAt hP.toQuiet) | (apply cl_scramble hP) | (apply cl_zero hP) | (apply Quiet.put hP.toQuiet) | split) | split

theorem cl_execChsetRestart (hP : Closed P) (set : Nat) (s : State) (hs : P s) : OutP P (execChsetRestart set s) := by
  unfold execChsetRestart
  with_reducible repeat' first | assumption | (apply cl_ok hP.toQuiet) | (apply cl_hostDo hP.toQuiet) | (apply cl_chsetRestart hP) | (apply Quiet.put hP.toQuiet) | split | (intro _ _) | (intro _) | (apply OutP.ok) | (apply OutP.next)

end Sys2Proof.Laws
end

