-- ==== Sys2Proof/Laws/KeepsFlags.lean ====
section
/-! SUPPORT. What the functions of Machine/Flags.lean keep: see Laws/Closed.lean. -/

set_option linter.unusedTactic false
set_option linter.unreachableTactic false

namespace Sys2Proof.Laws

open Sys2Proof.Machine

variable {P : State → Prop}

theorem cl_clearRc (hP : Quiet P) (s : State) (r : Reg) (i : Nat) (lo hi : Nat) (hs : P s) : P (State.clearRc s r i lo hi) := by
  unfold State.clearRc
  with_reducible repeat' first | assumption | (apply cl_put hP) | (apply cl_mirror hP) | (apply Quiet.put hP) | split | (apply cl_foldl) | (intro _ _) | (intro _)

theorem cl_discard (hP : Quiet P) (s : State) (source cause block offset : Nat) (hs : P s) : P (State.discard s source cause block offset) := by
  unfold State.discard; try dsimp only
  with_reducible repeat' first | assumption | (apply cl_inc hP) | (apply cl_put hP) | (apply Quiet.put hP) | split

end Sys2Proof.Laws
end

