-- ==== Sys2Proof/Laws/KeepsCustoms.lean ====
section
/-! SUPPORT. What the functions of Machine/Customs.lean keep: see Laws/Closed.lean. -/

set_option linter.unusedTactic false
set_option linter.unreachableTactic false

namespace Sys2Proof.Laws

open Sys2Proof.Machine

variable {P : State → Prop}

theorem cl_draw (hP : Quiet P) (s : State) (what : Nat) (hs : P s) : SndP P (State.draw s what) := by
  unfold State.draw
  with_reducible repeat' first | assumption | (apply Quiet.put hP) | ((apply Quiet.mk' hP); first | assumption | (apply Quiet.put hP) | split) | ((apply Quiet.mk' hP); (apply Quiet.mk' hP); first | assumption | (apply Quiet.put hP) | split) | split | (apply SndP.mk)

theorem cl_rekeyQuay (hP : Closed P) (s : State) (q : Nat) (hs : P s) : P (State.rekeyQuay s q) := by
  unfold State.rekeyQuay; try dsimp only
  with_reducible repeat' first | assumption | (apply cl_quayFails hP) | (apply cl_putQuay hP.toQuiet) | (apply Quiet.put hP.toQuiet) | ((apply Quiet.mk' hP.toQuiet); first | assumption | (apply cl_quayFails hP) | (apply cl_putQuay hP.toQuiet) | (apply Quiet.put hP.toQuiet) | split) | ((apply Quiet.mk' hP.toQuiet); (apply Quiet.mk' hP.toQuiet); first | assumption | (apply cl_quayFails hP) | (apply cl_putQuay hP.toQuiet) | (apply Quiet.put hP.toQuiet) | split) | split

theorem cl_zeroiseKeys (hP : Closed P) (s : State) (hs : P s) : P (State.zeroiseKeys s) := by
  unfold State.zeroiseKeys; try dsimp only
  with_reducible repeat' first | assumption | (apply cl_rekeyQuay hP) | (apply cl_ideLeaves hP.toQuiet) | (apply Quiet.put hP.toQuiet) | ((apply Quiet.mk' hP.toQuiet); first | assumption | (apply cl_rekeyQuay hP) | (apply cl_ideLeaves hP.toQuiet) | (apply Quiet.put hP.toQuiet) | (apply cl_foldl) | split) | ((apply Quiet.mk' hP.toQuiet); (apply Quiet.mk' hP.toQuiet); first | assumption | (apply cl_rekeyQuay hP) | (apply cl_ideLeaves hP.toQuiet) | (apply Quiet.put hP.toQuiet) | (apply cl_foldl) | split) | split | (apply cl_foldl) | (intro _ _) | (intro _)

theorem cl_zeroiseAll (hP : Closed P) (s : State) (hs : P s) : P (State.zeroiseAll s) := by
  unfold State.zeroiseAll; try dsimp only
  with_reducible repeat' first | assumption | (apply cl_zeroiseKeys hP) | (apply Quiet.put hP.toQuiet) | ((apply Quiet.mk' hP.toQuiet); first | assumption | (apply cl_zeroiseKeys hP) | (apply Quiet.put hP.toQuiet) | split) | ((apply Quiet.mk' hP.toQuiet); (apply Quiet.mk' hP.toQuiet); first | assumption | (apply cl_zeroiseKeys hP) | (apply Quiet.put hP.toQuiet) | split) | split

theorem cl_execCusZeroise (hP : Closed P) (s : State) (hs : P s) : OutP P (execCusZeroise s) := by
  unfold execCusZeroise
  with_reducible repeat' first | assumption | (apply cl_ok hP.toQuiet) | (apply cl_hostDo hP.toQuiet) | (apply cl_zeroiseKeys hP) | (apply Quiet.put hP.toQuiet) | split | (intro _ _) | (intro _) | (apply OutP.ok) | (apply OutP.next)

theorem cl_debugClose (hP : Quiet P) (s : State) (hs : P s) : P (State.debugClose s) := by
  unfold State.debugClose; try dsimp only
  with_reducible repeat' first | assumption | (apply cl_put hP) | (apply Quiet.put hP) | ((apply Quiet.mk' hP); first | assumption | (apply cl_put hP) | (apply Quiet.put hP) | split) | ((apply Quiet.mk' hP); (apply Quiet.mk' hP); first | assumption | (apply cl_put hP) | (apply Quiet.put hP) | split) | split | (intro _ _) | (intro _)

theorem cl_execDebugClose (hP : Quiet P) (s : State) (hs : P s) : OutP P (execDebugClose s) := by
  unfold execDebugClose
  with_reducible repeat' first | assumption | (apply cl_ok hP) | (apply cl_hostDo hP) | (apply cl_debugClose hP) | (apply Quiet.put hP) | split | (intro _ _) | (intro _) | (apply OutP.ok) | (apply OutP.next)

theorem cl_dbgHalt (hP : Quiet P) (s : State) (k c : Nat) (hs : P s) : P (State.dbgHalt s k c) := by
  unfold State.dbgHalt; try dsimp only
  with_reducible repeat' first | assumption | (apply cl_dbgStop hP) | (apply cl_setCtx hP) | (apply Quiet.put hP) | ((apply Quiet.mk' hP); first | assumption | (apply cl_dbgStop hP) | (apply cl_setCtx hP) | (apply Quiet.put hP) | split) | ((apply Quiet.mk' hP); (apply Quiet.mk' hP); first | assumption | (apply cl_dbgStop hP) | (apply cl_setCtx hP) | (apply Quiet.put hP) | split) | split | (intro _ _) | (intro _)

theorem cl_dbgStep (hP : Quiet P) (s : State) (k c req : Nat) (hs : P s) : P (State.dbgStep s k c req) := by
  unfold State.dbgStep
  with_reducible repeat' first | assumption | (apply cl_setCtx hP) | (apply Quiet.put hP) | split | (intro _ _) | (intro _)

theorem cl_dbgKiln (hP : Quiet P) (s : State) (k c op : Nat) (hs : P s) : P (State.dbgKiln s k c op) := by
  unfold State.dbgKiln
  with_reducible repeat' first | assumption | (apply cl_dbgHalt hP) | (apply cl_dbgStep hP) | (apply Quiet.put hP) | split

theorem cl_execDebugHalt (hP : Quiet P) (kiln slot : Nat) (s : State) (hs : P s) : OutP P (execDebugHalt kiln slot s) := by
  unfold execDebugHalt
  with_reducible repeat' first | assumption | (apply cl_ok hP) | (apply cl_hostDo hP) | (apply cl_dbgKiln hP) | (apply Quiet.put hP) | split | (intro _ _) | (intro _) | (apply OutP.ok) | (apply OutP.next)

theorem cl_execDebugStepCommand (hP : Quiet P) (kiln slot : Nat) (s : State) (hs : P s) : OutP P (execDebugStepCommand kiln slot s) := by
  unfold execDebugStepCommand
  with_reducible repeat' first | assumption | (apply cl_ok hP) | (apply cl_hostDo hP) | (apply cl_dbgKiln hP) | (apply Quiet.put hP) | split | (intro _ _) | (intro _) | (apply OutP.ok) | (apply OutP.next)

theorem cl_execDebugStepTile (hP : Quiet P) (kiln slot : Nat) (s : State) (hs : P s) : OutP P (execDebugStepTile kiln slot s) := by
  unfold execDebugStepTile
  with_reducible repeat' first | assumption | (apply cl_ok hP) | (apply cl_hostDo hP) | (apply cl_dbgKiln hP) | (apply Quiet.put hP) | split | (intro _ _) | (intro _) | (apply OutP.ok) | (apply OutP.next)

theorem cl_execDebugResume (hP : Quiet P) (kiln slot : Nat) (s : State) (hs : P s) : OutP P (execDebugResume kiln slot s) := by
  unfold execDebugResume
  with_reducible repeat' first | assumption | (apply cl_ok hP) | (apply cl_hostDo hP) | (apply cl_dbgKiln hP) | (apply Quiet.put hP) | split | (intro _ _) | (intro _) | (apply OutP.ok) | (apply OutP.next)

theorem cl_execTrngHealthFail (hP : Closed P) (s : State) (hs : P s) : OutP P (execTrngHealthFail s) := by
  unfold execTrngHealthFail
  with_reducible repeat' first | assumption | (apply cl_ok hP.toQuiet) | (apply cl_zeroiseAll hP) | (apply cl_deviceStop hP) | (apply Quiet.put hP.toQuiet) | split | (apply OutP.ok) | (apply OutP.next)

theorem cl_execCustomsWatchdog (hP : Closed P) (s : State) (hs : P s) : OutP P (execCustomsWatchdog s) := by
  unfold execCustomsWatchdog; try dsimp only
  with_reducible repeat' first | assumption | (apply cl_debugClose hP.toQuiet) | (apply cl_ok hP.toQuiet) | (apply cl_detect hP) | (apply Quiet.put hP.toQuiet) | ((apply Quiet.mk' hP.toQuiet); first | assumption | (apply cl_debugClose hP.toQuiet) | (apply cl_ok hP.toQuiet) | (apply cl_detect hP) | (apply Quiet.put hP.toQuiet) | split) | ((apply Quiet.mk' hP.toQuiet); (apply Quiet.mk' hP.toQuiet); first | assumption | (apply cl_debugClose hP.toQuiet) | (apply cl_ok hP.toQuiet) | (apply cl_detect hP) | (apply Quiet.put hP.toQuiet) | split) | split | (apply OutP.ok) | (apply OutP.next)

theorem cl_spdmError (hP : Quiet P) (s : State) (t code : Nat) (hs : P s) : P (State.spdmError s t code) := by
  unfold State.spdmError
  with_reducible repeat' first | assumption | (apply cl_send hP) | (apply Quiet.put hP) | split

theorem cl_spdmAnswer (hP : Quiet P) (s : State) (t need : Nat) (f : State → State) (hs : P s) (hf : ∀ x0, P x0 → P (f x0)) : P (State.spdmAnswer s t need f) := by
  unfold State.spdmAnswer
  with_reducible repeat' first | assumption | (apply hf) | (apply cl_spdmError hP) | (apply Quiet.put hP) | split

theorem cl_execGetVersion (hP : Quiet P) (transport : Nat) (s : State) (hs : P s) : OutP P (execGetVersion transport s) := by
  unfold execGetVersion
  with_reducible repeat' first | assumption | (apply cl_ok hP) | (apply cl_spdmAnswer hP) | (apply cl_send hP) | (apply Quiet.put hP) | ((apply Quiet.mk' hP); first | assumption | (apply cl_ok hP) | (apply cl_spdmAnswer hP) | (apply cl_send hP) | (apply Quiet.put hP) | split) | ((apply Quiet.mk' hP); (apply Quiet.mk' hP); first | assumption | (apply cl_ok hP) | (apply cl_spdmAnswer hP) | (apply cl_send hP) | (apply Quiet.put hP) | split) | split | (intro _ _) | (intro _) | (apply OutP.ok) | (apply OutP.next)

theorem cl_execGetCapabilities (hP : Quiet P) (transport : Nat) (s : State) (hs : P s) : OutP P (execGetCapabilities transport s) := by
  unfold execGetCapabilities
  with_reducible repeat' first | assumption | (apply cl_ok hP) | (apply cl_spdmAnswer hP) | (apply cl_send hP) | (apply Quiet.put hP) | ((apply Quiet.mk' hP); first | assumption | (apply cl_ok hP) | (apply cl_spdmAnswer hP) | (apply cl_send hP) | (apply Quiet.put hP) | split) | ((apply Quiet.mk' hP); (apply Quiet.mk' hP); first | assumption | (apply cl_ok hP) | (apply cl_spdmAnswer hP) | (apply cl_send hP) | (apply Quiet.put hP) | split) | split | (intro _ _) | (intro _) | (apply OutP.ok) | (apply OutP.next)

theorem cl_execNegotiateAlgorithms (hP : Quiet P) (transport : Nat) (s : State) (hs : P s) : OutP P (execNegotiateAlgorithms transport s) := by
  unfold execNegotiateAlgorithms
  with_reducible repeat' first | assumption | (apply cl_ok hP) | (apply cl_spdmAnswer hP) | (apply cl_send hP) | (apply Quiet.put hP) | ((apply Quiet.mk' hP); first | assumption | (apply cl_ok hP) | (apply cl_spdmAnswer hP) | (apply cl_send hP) | (apply Quiet.put hP) | split) | ((apply Quiet.mk' hP); (apply Quiet.mk' hP); first | assumption | (apply cl_ok hP) | (apply cl_spdmAnswer hP) | (apply cl_send hP) | (apply Quiet.put hP) | split) | split | (intro _ _) | (intro _) | (apply OutP.ok) | (apply OutP.next)

theorem cl_execGetDigests (hP : Quiet P) (transport : Nat) (s : State) (hs : P s) : OutP P (execGetDigests transport s) := by
  unfold execGetDigests
  with_reducible repeat' first | assumption | (apply cl_ok hP) | (apply cl_spdmAnswer hP) | (apply cl_send hP) | (apply Quiet.put hP) | split | (intro _ _) | (intro _) | (apply OutP.ok) | (apply OutP.next)

theorem cl_execGetCertificate (hP : Quiet P) (transport slot offset len : Nat) (s : State) (hs : P s) : OutP P (execGetCertificate transport slot offset len s) := by
  unfold execGetCertificate
  with_reducible repeat' first | assumption | (apply cl_ok hP) | (apply cl_spdmAnswer hP) | (apply cl_spdmError hP) | (apply cl_send hP) | (apply Quiet.put hP) | split | (intro _ _) | (intro _) | (apply OutP.ok) | (apply OutP.next)

theorem cl_execChallenge (hP : Quiet P) (transport slot nonce : Nat) (s : State) (hs : P s) : OutP P (execChallenge transport slot nonce s) := by
  unfold execChallenge; try dsimp only
  with_reducible repeat' first | assumption | (apply cl_ok hP) | (apply cl_spdmAnswer hP) | (apply cl_spdmError hP) | (apply cl_draw hP) | (refine SndP.at ?_ (by assumption); apply cl_draw hP) | (apply SndP.out; apply cl_draw hP) | (apply cl_send hP) | (apply Quiet.put hP) | split | (intro _ _) | (intro _) | (apply OutP.ok) | (apply OutP.next)

theorem cl_largeResponse (hP : Quiet P) (s : State) (t : Nat) (bs : List Byte) (hs : P s) : P (State.largeResponse s t bs) := by
  unfold State.largeResponse
  with_reducible repeat' first | assumption | (apply cl_spdmError hP) | (apply Quiet.put hP) | ((apply Quiet.mk' hP); first | assumption | (apply cl_spdmError hP) | (apply Quiet.put hP) | split) | ((apply Quiet.mk' hP); (apply Quiet.mk' hP); first | assumption | (apply cl_spdmError hP) | (apply Quiet.put hP) | split) | split | (intro _ _) | (intro _)

theorem cl_blockF0 (hP : Quiet P) (s : State) (nonce : Nat) (hs : P s) : SndP P (State.blockF0 s nonce) := by
  unfold State.blockF0; try dsimp only
  with_reducible repeat' first | assumption | (apply cl_draw hP) | (refine SndP.at ?_ (by assumption); apply cl_draw hP) | (apply SndP.out; apply cl_draw hP) | (apply Quiet.put hP) | split | (intro _ _) | (intro _) | (apply SndP.mk)

theorem cl_measuresSent (hP : Quiet P) (s : State) (t nonce : Nat) (signed : Bool) (values : List Nat) (hs : P s) : P (State.measuresSent s t nonce signed values) := by
  unfold State.measuresSent; try dsimp only
  with_reducible repeat' first | assumption | (apply cl_draw hP) | (refine SndP.at ?_ (by assumption); apply cl_draw hP) | (apply SndP.out; apply cl_draw hP) | (apply cl_send hP) | (apply Quiet.put hP) | split

theorem cl_execGetMeasurements (hP : Quiet P) (transport index nonce : Nat) (signed : Bool) (s : State) (hs : P s) : OutP P (execGetMeasurements transport index nonce signed s) := by
  unfold execGetMeasurements; try dsimp only
  with_reducible repeat' first | assumption | (apply cl_ok hP) | (apply cl_spdmAnswer hP) | (apply cl_measuresSent hP) | (apply cl_blockF0 hP) | (refine SndP.at ?_ (by assumption); apply cl_blockF0 hP) | (apply SndP.out; apply cl_blockF0 hP) | (apply cl_largeResponse hP) | (apply cl_spdmError hP) | (apply Quiet.put hP) | split | (intro _ _) | (intro _) | (apply OutP.ok) | (apply OutP.next)

theorem cl_execKeyExchange (hP : Quiet P) (transport : Nat) (mutualAuth : Bool) (s : State) (hs : P s) : OutP P (execKeyExchange transport mutualAuth s) := by
  unfold execKeyExchange; try dsimp only
  with_reducible repeat' first | assumption | (apply cl_ok hP) | (apply cl_spdmAnswer hP) | (apply cl_spdmError hP) | (apply cl_draw hP) | (refine SndP.at ?_ (by assumption); apply cl_draw hP) | (apply SndP.out; apply cl_draw hP) | (apply cl_send hP) | (apply Quiet.put hP) | ((apply Quiet.mk' hP); first | assumption | (apply cl_ok hP) | (apply cl_spdmAnswer hP) | (apply cl_spdmError hP) | (apply cl_draw hP) | (refine SndP.at ?_ (by assumption); apply cl_draw hP) | (apply SndP.out; apply cl_draw hP) | (apply cl_send hP) | (apply Quiet.put hP) | split) | ((apply Quiet.mk' hP); (apply Quiet.mk' hP); first | assumption | (apply cl_ok hP) | (apply cl_spdmAnswer hP) | (apply cl_spdmError hP) | (apply cl_draw hP) | (refine SndP.at ?_ (by assumption); apply cl_draw hP) | (apply SndP.out; apply cl_draw hP) | (apply cl_send hP) | (apply Quiet.put hP) | split) | split | (intro _ _) | (intro _) | (apply OutP.ok) | (apply OutP.next)

theorem cl_execFinish (hP : Quiet P) (transport session : Nat) (ok : Bool) (s : State) (hs : P s) : OutP P (execFinish transport session ok s) := by
  unfold execFinish
  with_reducible repeat' first | assumption | (apply cl_ok hP) | (apply cl_spdmAnswer hP) | (apply cl_spdmError hP) | (apply cl_send hP) | (apply Quiet.put hP) | ((apply Quiet.mk' hP); first | assumption | (apply cl_ok hP) | (apply cl_spdmAnswer hP) | (apply cl_spdmError hP) | (apply cl_send hP) | (apply Quiet.put hP) | split) | ((apply Quiet.mk' hP); (apply Quiet.mk' hP); first | assumption | (apply cl_ok hP) | (apply cl_spdmAnswer hP) | (apply cl_spdmError hP) | (apply cl_send hP) | (apply Quiet.put hP) | split) | split | (intro _ _) | (intro _) | (apply OutP.ok) | (apply OutP.next)

theorem cl_execHeartbeatSpdm (hP : Quiet P) (transport session : Nat) (s : State) (hs : P s) : OutP P (execHeartbeatSpdm transport session s) := by
  unfold execHeartbeatSpdm
  with_reducible repeat' first | assumption | (apply cl_ok hP) | (apply cl_spdmAnswer hP) | (apply cl_send hP) | (apply cl_spdmError hP) | (apply Quiet.put hP) | split | (intro _ _) | (intro _) | (apply OutP.ok) | (apply OutP.next)

theorem cl_execKeyUpdate (hP : Quiet P) (transport session : Nat) (s : State) (hs : P s) : OutP P (execKeyUpdate transport session s) := by
  unfold execKeyUpdate
  with_reducible repeat' first | assumption | (apply cl_ok hP) | (apply cl_spdmAnswer hP) | (apply cl_send hP) | (apply cl_spdmError hP) | (apply Quiet.put hP) | ((apply Quiet.mk' hP); first | assumption | (apply cl_ok hP) | (apply cl_spdmAnswer hP) | (apply cl_send hP) | (apply cl_spdmError hP) | (apply Quiet.put hP) | split) | ((apply Quiet.mk' hP); (apply Quiet.mk' hP); first | assumption | (apply cl_ok hP) | (apply cl_spdmAnswer hP) | (apply cl_send hP) | (apply cl_spdmError hP) | (apply Quiet.put hP) | split) | split | (intro _ _) | (intro _) | (apply OutP.ok) | (apply OutP.next)

theorem cl_execEndSession (hP : Quiet P) (transport session : Nat) (s : State) (hs : P s) : OutP P (execEndSession transport session s) := by
  unfold execEndSession
  with_reducible repeat' first | assumption | (apply cl_ok hP) | (apply cl_spdmAnswer hP) | (apply cl_send hP) | (apply cl_spdmError hP) | (apply Quiet.put hP) | ((apply Quiet.mk' hP); first | assumption | (apply cl_ok hP) | (apply cl_spdmAnswer hP) | (apply cl_send hP) | (apply cl_spdmError hP) | (apply Quiet.put hP) | split) | ((apply Quiet.mk' hP); (apply Quiet.mk' hP); first | assumption | (apply cl_ok hP) | (apply cl_spdmAnswer hP) | (apply cl_send hP) | (apply cl_spdmError hP) | (apply Quiet.put hP) | split) | split | (intro _ _) | (intro _) | (apply OutP.ok) | (apply OutP.next)

theorem cl_execChunkSend (hP : Quiet P) (transport seq : Nat) (last : Bool) (data : List Byte) (s : State) (hs : P s) : OutP P (execChunkSend transport seq last data s) := by
  unfold execChunkSend; try dsimp only
  with_reducible repeat' first | assumption | (apply cl_ok hP) | (apply cl_spdmAnswer hP) | (apply cl_spdmError hP) | (apply cl_send hP) | (apply Quiet.put hP) | ((apply Quiet.mk' hP); first | assumption | (apply cl_ok hP) | (apply cl_spdmAnswer hP) | (apply cl_spdmError hP) | (apply cl_send hP) | (apply Quiet.put hP) | split) | ((apply Quiet.mk' hP); (apply Quiet.mk' hP); first | assumption | (apply cl_ok hP) | (apply cl_spdmAnswer hP) | (apply cl_spdmError hP) | (apply cl_send hP) | (apply Quiet.put hP) | split) | split | (intro _ _) | (intro _) | (apply OutP.ok) | (apply OutP.next)

theorem cl_execChunkGet (hP : Quiet P) (transport seq : Nat) (s : State) (hs : P s) : OutP P (execChunkGet transport seq s) := by
  unfold execChunkGet; try dsimp only
  with_reducible repeat' first | assumption | (apply cl_ok hP) | (apply cl_spdmAnswer hP) | (apply cl_spdmError hP) | (apply cl_send hP) | (apply Quiet.put hP) | ((apply Quiet.mk' hP); first | assumption | (apply cl_ok hP) | (apply cl_spdmAnswer hP) | (apply cl_spdmError hP) | (apply cl_send hP) | (apply Quiet.put hP) | split) | ((apply Quiet.mk' hP); (apply Quiet.mk' hP); first | assumption | (apply cl_ok hP) | (apply cl_spdmAnswer hP) | (apply cl_spdmError hP) | (apply cl_send hP) | (apply Quiet.put hP) | split) | split | (intro _ _) | (intro _) | (apply OutP.ok) | (apply OutP.next)

theorem cl_execIdeKm (hP : Closed P) (session port : Nat) (go : Bool) (s : State) (hs : P s) : OutP P (execIdeKm session port go s) := by
  unfold execIdeKm; try dsimp only
  with_reducible repeat' first | assumption | (apply cl_ok hP.toQuiet) | (apply cl_send hP.toQuiet) | (apply cl_ideSecure hP) | (apply cl_spdmError hP.toQuiet) | (apply Quiet.put hP.toQuiet) | ((apply Quiet.mk' hP.toQuiet); first | assumption | (apply cl_ok hP.toQuiet) | (apply cl_send hP.toQuiet) | (apply cl_ideSecure hP) | (apply cl_spdmError hP.toQuiet) | (apply Quiet.put hP.toQuiet) | split) | ((apply Quiet.mk' hP.toQuiet); (apply Quiet.mk' hP.toQuiet); first | assumption | (apply cl_ok hP.toQuiet) | (apply cl_send hP.toQuiet) | (apply cl_ideSecure hP) | (apply cl_spdmError hP.toQuiet) | (apply Quiet.put hP.toQuiet) | split) | split | (apply OutP.ok) | (apply OutP.next)

theorem cl_execDebugNonce (hP : Quiet P) (session : Nat) (s : State) (hs : P s) : OutP P (execDebugNonce session s) := by
  unfold execDebugNonce; try dsimp only
  with_reducible repeat' first | assumption | (apply cl_ok hP) | (apply cl_draw hP) | (refine SndP.at ?_ (by assumption); apply cl_draw hP) | (apply SndP.out; apply cl_draw hP) | (apply cl_send hP) | (apply Quiet.put hP) | ((apply Quiet.mk' hP); first | assumption | (apply cl_ok hP) | (apply cl_draw hP) | (refine SndP.at ?_ (by assumption); apply cl_draw hP) | (apply SndP.out; apply cl_draw hP) | (apply cl_send hP) | (apply Quiet.put hP) | split) | ((apply Quiet.mk' hP); (apply Quiet.mk' hP); first | assumption | (apply cl_ok hP) | (apply cl_draw hP) | (refine SndP.at ?_ (by assumption); apply cl_draw hP) | (apply SndP.out; apply cl_draw hP) | (apply cl_send hP) | (apply Quiet.put hP) | split) | split | (apply OutP.ok) | (apply OutP.next)

theorem cl_veil (hP : Closed P) (s : State) (hs : P s) : P (State.veil s) := by
  unfold State.veil; try dsimp only
  with_reducible repeat' first | assumption | (apply cl_endLoad hP.toQuiet) | (apply cl_zero hP) | (apply cl_put hP.toQuiet) | (apply Quiet.put hP.toQuiet) | ((apply Quiet.mk' hP.toQuiet); first | assumption | (apply cl_endLoad hP.toQuiet) | (apply cl_zero hP) | (apply cl_put hP.toQuiet) | (apply Quiet.put hP.toQuiet) | (apply cl_foldl) | split) | ((apply Quiet.mk' hP.toQuiet); (apply Quiet.mk' hP.toQuiet); first | assumption | (apply cl_endLoad hP.toQuiet) | (apply cl_zero hP) | (apply cl_put hP.toQuiet) | (apply Quiet.put hP.toQuiet) | (apply cl_foldl) | split) | split | (apply cl_foldl) | (intro _ _) | (intro _)

theorem cl_unlockD2 (hP : Closed P) (s : State) (hs : P s) : P (State.unlockD2 s) := by
  unfold State.unlockD2; try dsimp only
  with_reducible repeat' first | assumption | (apply cl_zeroiseKeys hP) | (apply cl_veil hP) | (apply cl_inc hP.toQuiet) | (apply cl_put hP.toQuiet) | (apply Quiet.put hP.toQuiet) | ((apply Quiet.mk' hP.toQuiet); first | assumption | (apply cl_zeroiseKeys hP) | (apply cl_veil hP) | (apply cl_inc hP.toQuiet) | (apply cl_put hP.toQuiet) | (apply Quiet.put hP.toQuiet) | split) | ((apply Quiet.mk' hP.toQuiet); (apply Quiet.mk' hP.toQuiet); first | assumption | (apply cl_zeroiseKeys hP) | (apply cl_veil hP) | (apply cl_inc hP.toQuiet) | (apply cl_put hP.toQuiet) | (apply Quiet.put hP.toQuiet) | split) | split

theorem cl_openLevel (hP : Closed P) (s : State) (level : Nat) (hs : P s) : P (State.openLevel s level) := by
  unfold State.openLevel; try dsimp only
  with_reducible repeat' first | assumption | (apply cl_unlockD2 hP) | (apply cl_put hP.toQuiet) | (apply Quiet.put hP.toQuiet) | split

theorem cl_unlock (hP : Closed P) (s : State) (k : Token) (hs : P s) : P (State.unlock s k) := by
  unfold State.unlock; try dsimp only
  with_reducible repeat' first | assumption | (apply cl_put hP.toQuiet) | (apply cl_openLevel hP) | (apply Quiet.put hP.toQuiet) | ((apply Quiet.mk' hP.toQuiet); first | assumption | (apply cl_put hP.toQuiet) | (apply cl_openLevel hP) | (apply Quiet.put hP.toQuiet) | split) | ((apply Quiet.mk' hP.toQuiet); (apply Quiet.mk' hP.toQuiet); first | assumption | (apply cl_put hP.toQuiet) | (apply cl_openLevel hP) | (apply Quiet.put hP.toQuiet) | split) | split

theorem cl_unlockSaid (hP : Quiet P) (s : State) (k : Token) (c : Nat) (hs : P s) : P (State.unlockSaid s k c) := by
  unfold State.unlockSaid
  with_reducible repeat' first | assumption | (apply cl_send hP) | (apply Quiet.put hP) | split

theorem cl_execDebugUnlock (hP : Closed P) (token : Token) (s : State) (hs : P s) : OutP P (execDebugUnlock token s) := by
  unfold execDebugUnlock; try dsimp only
  with_reducible repeat' first | assumption | (apply cl_ok hP.toQuiet) | (apply cl_unlock hP) | (apply cl_unlockSaid hP.toQuiet) | (apply Quiet.put hP.toQuiet) | split | (apply OutP.ok) | (apply OutP.next)

end Sys2Proof.Laws
end

