-- ==== Sys2Proof/Laws/KeepsPower.lean ====
section
/-! SUPPORT. What the functions of Machine/Power.lean keep: see Laws/Closed.lean. -/

set_option linter.unusedTactic false
set_option linter.unreachableTactic false

namespace Sys2Proof.Laws

open Sys2Proof.Machine

variable {P : State → Prop}

theorem cl_startFrom (hP : Quiet P) (s : State) (step : Nat) (cold : Bool) (hs : P s) : P (State.startFrom s step cold) := by
  unfold State.startFrom
  with_reducible repeat' first | assumption | (apply cl_put hP) | (apply Quiet.put hP) | split

theorem cl_cleared (hP : Closed P) (s : State) (hs : P s) : P s.cleared := hP.clear s _ _ rfl rfl rfl rfl rfl rfl hs

theorem cl_deviceReset (hP : Closed P) (s : State) (hs : P s) : P (State.deviceReset s) := by
  unfold State.deviceReset
  with_reducible repeat' first | assumption | (apply cl_cleared hP) | (apply cl_startFrom hP.toQuiet) | (apply Quiet.put hP.toQuiet) | ((apply Quiet.mk' hP.toQuiet); first | assumption | (apply cl_cleared hP) | (apply cl_startFrom hP.toQuiet) | (apply Quiet.put hP.toQuiet) | split) | ((apply Quiet.mk' hP.toQuiet); (apply Quiet.mk' hP.toQuiet); first | assumption | (apply cl_cleared hP) | (apply cl_startFrom hP.toQuiet) | (apply Quiet.put hP.toQuiet) | split) | split

theorem cl_execDeviceReset (hP : Closed P) (s : State) (hs : P s) : OutP P (execDeviceReset s) := by
  unfold execDeviceReset
  with_reducible repeat' first | assumption | (apply cl_ok hP.toQuiet) | (apply cl_deviceReset hP) | (apply Quiet.put hP.toQuiet) | split | (apply OutP.ok) | (apply OutP.next)

theorem cl_execResetIn (hP : Closed P) (s : State) (hs : P s) : OutP P (execResetIn s) := by
  unfold execResetIn
  with_reducible repeat' first | assumption | (apply cl_ok hP.toQuiet) | (apply cl_deviceReset hP) | (apply Quiet.put hP.toQuiet) | split | (apply OutP.ok) | (apply OutP.next)

theorem cl_resetPod (hP : Closed P) (s : State) (hs : P s) : P (State.resetPod s) := by
  unfold State.resetPod
  with_reducible repeat' first | assumption | (apply cl_send hP.toQuiet) | (apply cl_deviceReset hP) | (apply Quiet.put hP.toQuiet) | split

theorem cl_execResetPod (hP : Closed P) (s : State) (hs : P s) : OutP P (execResetPod s) := by
  unfold execResetPod
  with_reducible repeat' first | assumption | (apply cl_ok hP.toQuiet) | (apply cl_hostDo hP.toQuiet) | (apply cl_resetPod hP) | (apply Quiet.put hP.toQuiet) | split | (intro _ _) | (intro _) | (apply OutP.ok) | (apply OutP.next)

theorem cl_railsOff (hP : Closed P) (s : State) (hs : P s) : P s.railsOff := hP.clear s _ _ rfl rfl rfl rfl rfl rfl hs

theorem cl_lighthouseOff (hP : Closed P) (s : State) (hs : P s) : P s.lighthouseOff :=
  hP.clear s _ (fun _ => false) (by simp [State.lighthouseOff]) rfl rfl rfl rfl rfl hs

theorem cl_execLighthousePowerLoss (hP : Closed P) (s : State) (hs : P s) : OutP P (execLighthousePowerLoss s) := by
  unfold execLighthousePowerLoss
  with_reducible repeat' first | assumption | (apply cl_ok hP.toQuiet) | (apply cl_lighthouseOff hP) | (apply Quiet.put hP.toQuiet) | split | (apply OutP.ok) | (apply OutP.next)

theorem cl_coldPower (hP : Closed P) (s : State) (hs : P s) : P (State.coldPower s) := by
  unfold State.coldPower; try dsimp only
  with_reducible repeat' first | assumption | (apply cl_railsOff hP) | (apply cl_startFrom hP.toQuiet) | (apply Quiet.put hP.toQuiet) | ((apply Quiet.mk' hP.toQuiet); first | assumption | (apply cl_railsOff hP) | (apply cl_startFrom hP.toQuiet) | (apply Quiet.put hP.toQuiet) | split) | ((apply Quiet.mk' hP.toQuiet); (apply Quiet.mk' hP.toQuiet); first | assumption | (apply cl_railsOff hP) | (apply cl_startFrom hP.toQuiet) | (apply Quiet.put hP.toQuiet) | split) | split

theorem cl_execInputRelease (hP : Closed P) (s : State) (hs : P s) : OutP P (execInputRelease s) := by
  unfold execInputRelease
  with_reducible repeat' first | assumption | (apply cl_ok hP.toQuiet) | (apply cl_coldPower hP) | (apply Quiet.put hP.toQuiet) | split | (apply OutP.ok) | (apply OutP.next)

theorem cl_execModEnRise (hP : Closed P) (s : State) (hs : P s) : OutP P (execModEnRise s) := by
  unfold execModEnRise
  with_reducible repeat' first | assumption | (apply cl_ok hP.toQuiet) | (apply cl_coldPower hP) | (apply Quiet.put hP.toQuiet) | ((apply Quiet.mk' hP.toQuiet); first | assumption | (apply cl_ok hP.toQuiet) | (apply cl_coldPower hP) | (apply Quiet.put hP.toQuiet) | split) | ((apply Quiet.mk' hP.toQuiet); (apply Quiet.mk' hP.toQuiet); first | assumption | (apply cl_ok hP.toQuiet) | (apply cl_coldPower hP) | (apply Quiet.put hP.toQuiet) | split) | split | (apply OutP.ok) | (apply OutP.next)

theorem cl_execModEnRelease (hP : Closed P) (s : State) (hs : P s) : OutP P (execModEnRelease s) := by
  unfold execModEnRelease; try dsimp only
  with_reducible repeat' first | assumption | (apply cl_ok hP.toQuiet) | (apply cl_lighthouseOff hP) | (apply Quiet.put hP.toQuiet) | ((apply Quiet.mk' hP.toQuiet); first | assumption | (apply cl_ok hP.toQuiet) | (apply cl_lighthouseOff hP) | (apply Quiet.put hP.toQuiet) | split) | ((apply Quiet.mk' hP.toQuiet); (apply Quiet.mk' hP.toQuiet); first | assumption | (apply cl_ok hP.toQuiet) | (apply cl_lighthouseOff hP) | (apply Quiet.put hP.toQuiet) | split) | split | (apply OutP.ok) | (apply OutP.next)

theorem cl_afterBurn (hP : Closed P) (s : State) (hs : P s) : P (State.afterBurn s) := by
  unfold State.afterBurn
  with_reducible repeat' first | assumption | (apply cl_lighthouseOff hP) | (apply cl_cleared hP) | (apply cl_startFrom hP.toQuiet) | (apply Quiet.put hP.toQuiet) | split

theorem cl_execRepairBurnDone (hP : Closed P) (s : State) (hs : P s) : OutP P (execRepairBurnDone s) := by
  unfold execRepairBurnDone
  with_reducible repeat' first | assumption | (apply cl_ok hP.toQuiet) | (apply cl_put hP.toQuiet) | (apply cl_repairResult hP.toQuiet) | (apply cl_afterBurn hP) | (apply Quiet.put hP.toQuiet) | ((apply Quiet.mk' hP.toQuiet); first | assumption | (apply cl_ok hP.toQuiet) | (apply cl_put hP.toQuiet) | (apply cl_repairResult hP.toQuiet) | (apply cl_afterBurn hP) | (apply Quiet.put hP.toQuiet) | split) | ((apply Quiet.mk' hP.toQuiet); (apply Quiet.mk' hP.toQuiet); first | assumption | (apply cl_ok hP.toQuiet) | (apply cl_put hP.toQuiet) | (apply cl_repairResult hP.toQuiet) | (apply cl_afterBurn hP) | (apply Quiet.put hP.toQuiet) | split) | split | (apply OutP.ok) | (apply OutP.next)

theorem cl_tripped (hP : Quiet P) (s : State) (f : Option Fld) (code : Nat) (hs : P s) : P (State.tripped s f code) := by
  unfold State.tripped; try dsimp only
  with_reducible repeat' first | assumption | (apply cl_inc hP) | (apply cl_put hP) | (apply cl_send hP) | (apply Quiet.put hP) | split

theorem cl_powerFail (hP : Closed P) (s : State) (hs : P s) : P (State.powerFail s) := by
  unfold State.powerFail
  with_reducible repeat' first | assumption | (apply cl_sendAll hP.toQuiet) | (apply cl_railsOff hP) | (apply Quiet.put hP.toQuiet) | split | (intro _ _) | (intro _)

theorem cl_execUnderVoltageTrip (hP : Closed P) (s : State) (hs : P s) : OutP P (execUnderVoltageTrip s) := by
  unfold execUnderVoltageTrip; try dsimp only
  with_reducible repeat' first | assumption | (apply cl_tripped hP.toQuiet) | (apply cl_powerFail hP) | (apply cl_ok hP.toQuiet) | (apply Quiet.put hP.toQuiet) | ((apply Quiet.mk' hP.toQuiet); first | assumption | (apply cl_tripped hP.toQuiet) | (apply cl_powerFail hP) | (apply cl_ok hP.toQuiet) | (apply Quiet.put hP.toQuiet) | split) | ((apply Quiet.mk' hP.toQuiet); (apply Quiet.mk' hP.toQuiet); first | assumption | (apply cl_tripped hP.toQuiet) | (apply cl_powerFail hP) | (apply cl_ok hP.toQuiet) | (apply Quiet.put hP.toQuiet) | split) | split | (apply OutP.ok) | (apply OutP.next)

theorem cl_execOverVoltageTrip (hP : Closed P) (s : State) (hs : P s) : OutP P (execOverVoltageTrip s) := by
  unfold execOverVoltageTrip; try dsimp only
  with_reducible repeat' first | assumption | (apply cl_tripped hP.toQuiet) | (apply cl_powerFail hP) | (apply cl_ok hP.toQuiet) | (apply Quiet.put hP.toQuiet) | ((apply Quiet.mk' hP.toQuiet); first | assumption | (apply cl_tripped hP.toQuiet) | (apply cl_powerFail hP) | (apply cl_ok hP.toQuiet) | (apply Quiet.put hP.toQuiet) | split) | ((apply Quiet.mk' hP.toQuiet); (apply Quiet.mk' hP.toQuiet); first | assumption | (apply cl_tripped hP.toQuiet) | (apply cl_powerFail hP) | (apply cl_ok hP.toQuiet) | (apply Quiet.put hP.toQuiet) | split) | split | (apply OutP.ok) | (apply OutP.next)

theorem cl_setStep (hP : Quiet P) (s : State) (step : Nat) (hs : P s) : P (State.setStep s step) := by
  unfold State.setStep; try dsimp only
  with_reducible repeat' first | assumption | (apply cl_put hP) | (apply Quiet.put hP) | ((apply Quiet.mk' hP); first | assumption | (apply cl_put hP) | (apply Quiet.put hP) | split) | ((apply Quiet.mk' hP); (apply Quiet.mk' hP); first | assumption | (apply cl_put hP) | (apply Quiet.put hP) | split) | split

theorem cl_execHotTrip (hP : Quiet P) (site : Nat) (s : State) (hs : P s) : OutP P (execHotTrip site s) := by
  unfold execHotTrip; try dsimp only
  with_reducible repeat' first | assumption | (apply cl_tripped hP) | (apply cl_ok hP) | (apply cl_setStep hP) | (apply Quiet.put hP) | ((apply Quiet.mk' hP); first | assumption | (apply cl_tripped hP) | (apply cl_ok hP) | (apply cl_setStep hP) | (apply Quiet.put hP) | split) | ((apply Quiet.mk' hP); (apply Quiet.mk' hP); first | assumption | (apply cl_tripped hP) | (apply cl_ok hP) | (apply cl_setStep hP) | (apply Quiet.put hP) | split) | split | (apply OutP.ok) | (apply OutP.next)

theorem cl_execHotTripRelease (hP : Quiet P) (site : Nat) (s : State) (hs : P s) : OutP P (execHotTripRelease site s) := by
  unfold execHotTripRelease
  with_reducible repeat' first | assumption | (apply cl_ok hP) | (apply Quiet.put hP) | ((apply Quiet.mk' hP); first | assumption | (apply cl_ok hP) | (apply Quiet.put hP) | split) | ((apply Quiet.mk' hP); (apply Quiet.mk' hP); first | assumption | (apply cl_ok hP) | (apply Quiet.put hP) | split) | split | (apply OutP.ok) | (apply OutP.next)

theorem cl_enterSmoulder (hP : Closed P) (s : State) (hs : P s) : P (State.enterSmoulder s) := by
  unfold State.enterSmoulder; try dsimp only
  with_reducible repeat' first | assumption | (apply cl_cleared hP) | (apply Quiet.put hP.toQuiet) | ((apply Quiet.mk' hP.toQuiet); first | assumption | (apply cl_cleared hP) | (apply Quiet.put hP.toQuiet) | split) | ((apply Quiet.mk' hP.toQuiet); (apply Quiet.mk' hP.toQuiet); first | assumption | (apply cl_cleared hP) | (apply Quiet.put hP.toQuiet) | split) | split

theorem cl_execShutdownTrip (hP : Closed P) (site : Nat) (s : State) (hs : P s) : OutP P (execShutdownTrip site s) := by
  unfold execShutdownTrip; try dsimp only
  with_reducible repeat' first | assumption | (apply cl_tripped hP.toQuiet) | (apply cl_ok hP.toQuiet) | (apply cl_enterSmoulder hP) | (apply Quiet.put hP.toQuiet) | ((apply Quiet.mk' hP.toQuiet); first | assumption | (apply cl_tripped hP.toQuiet) | (apply cl_ok hP.toQuiet) | (apply cl_enterSmoulder hP) | (apply Quiet.put hP.toQuiet) | split) | ((apply Quiet.mk' hP.toQuiet); (apply Quiet.mk' hP.toQuiet); first | assumption | (apply cl_tripped hP.toQuiet) | (apply cl_ok hP.toQuiet) | (apply cl_enterSmoulder hP) | (apply Quiet.put hP.toQuiet) | split) | split | (apply OutP.ok) | (apply OutP.next)

theorem cl_execShutdownTripRelease (hP : Quiet P) (site : Nat) (s : State) (hs : P s) : OutP P (execShutdownTripRelease site s) := by
  unfold execShutdownTripRelease
  with_reducible repeat' first | assumption | (apply cl_ok hP) | (apply Quiet.put hP) | ((apply Quiet.mk' hP); first | assumption | (apply cl_ok hP) | (apply Quiet.put hP) | split) | ((apply Quiet.mk' hP); (apply Quiet.mk' hP); first | assumption | (apply cl_ok hP) | (apply Quiet.put hP) | split) | split | (apply OutP.ok) | (apply OutP.next)

theorem cl_execTamperTrip (hP : Closed P) (s : State) (hs : P s) : OutP P (execTamperTrip s) := by
  unfold execTamperTrip; try dsimp only
  with_reducible repeat' first | assumption | (apply cl_zeroiseAll hP) | (apply cl_debugClose hP.toQuiet) | (apply cl_tripped hP.toQuiet) | (apply cl_ok hP.toQuiet) | (apply cl_enterSmoulder hP) | (apply Quiet.put hP.toQuiet) | ((apply Quiet.mk' hP.toQuiet); first | assumption | (apply cl_zeroiseAll hP) | (apply cl_debugClose hP.toQuiet) | (apply cl_tripped hP.toQuiet) | (apply cl_ok hP.toQuiet) | (apply cl_enterSmoulder hP) | (apply Quiet.put hP.toQuiet) | split) | ((apply Quiet.mk' hP.toQuiet); (apply Quiet.mk' hP.toQuiet); first | assumption | (apply cl_zeroiseAll hP) | (apply cl_debugClose hP.toQuiet) | (apply cl_tripped hP.toQuiet) | (apply cl_ok hP.toQuiet) | (apply cl_enterSmoulder hP) | (apply Quiet.put hP.toQuiet) | split) | split | (apply OutP.ok) | (apply OutP.next)

theorem cl_enterBanked (hP : Quiet P) (s : State) (hs : P s) : P (State.enterBanked s) := by
  unfold State.enterBanked; try dsimp only
  with_reducible repeat' first | assumption | (apply cl_inc hP) | (apply cl_put hP) | (apply Quiet.put hP) | ((apply Quiet.mk' hP); first | assumption | (apply cl_inc hP) | (apply cl_put hP) | (apply Quiet.put hP) | split) | ((apply Quiet.mk' hP); (apply Quiet.mk' hP); first | assumption | (apply cl_inc hP) | (apply cl_put hP) | (apply Quiet.put hP) | split) | split | (intro _ _) | (intro _)

theorem cl_tryEntry (hP : Closed P) (s : State) (hs : P s) : P (State.tryEntry s) := by
  unfold State.tryEntry
  with_reducible repeat' first | assumption | (apply cl_enterBanked hP.toQuiet) | (apply cl_enterSmoulder hP) | (apply Quiet.put hP.toQuiet) | split

theorem cl_stateReq (hP : Closed P) (s : State) (v : Nat) (hs : P s) : P (State.stateReq s v) := by
  unfold State.stateReq
  with_reducible repeat' first | assumption | (apply cl_put hP.toQuiet) | (apply cl_tryEntry hP) | (apply Quiet.put hP.toQuiet) | split

theorem cl_execStateReqRun (hP : Closed P) (s : State) (hs : P s) : OutP P (execStateReqRun s) := by
  unfold execStateReqRun
  with_reducible repeat' first | assumption | (apply cl_ok hP.toQuiet) | (apply cl_wakeFor hP.toQuiet) | (apply cl_hostDo hP.toQuiet) | (apply cl_stateReq hP) | (apply Quiet.put hP.toQuiet) | split | (intro _ _) | (intro _) | (apply OutP.ok) | (apply OutP.next)

theorem cl_execStateReqBanked (hP : Closed P) (s : State) (hs : P s) : OutP P (execStateReqBanked s) := by
  unfold execStateReqBanked
  with_reducible repeat' first | assumption | (apply cl_ok hP.toQuiet) | (apply cl_hostDo hP.toQuiet) | (apply cl_stateReq hP) | (apply Quiet.put hP.toQuiet) | split | (intro _ _) | (intro _) | (apply OutP.ok) | (apply OutP.next)

theorem cl_execStateReqSmoulder (hP : Closed P) (s : State) (hs : P s) : OutP P (execStateReqSmoulder s) := by
  unfold execStateReqSmoulder
  with_reducible repeat' first | assumption | (apply cl_ok hP.toQuiet) | (apply cl_hostDo hP.toQuiet) | (apply cl_stateReq hP) | (apply Quiet.put hP.toQuiet) | split | (intro _ _) | (intro _) | (apply OutP.ok) | (apply OutP.next)

theorem cl_execLowPowerEntry (hP : Closed P) (s : State) (hs : P s) : OutP P (execLowPowerEntry s) := by
  unfold execLowPowerEntry
  with_reducible repeat' first | assumption | (apply cl_ok hP.toQuiet) | (apply cl_tryEntry hP) | (apply Quiet.put hP.toQuiet) | split | (apply OutP.ok) | (apply OutP.next)

theorem cl_execStepReq (hP : Quiet P) (step : Nat) (s : State) (hs : P s) : OutP P (execStepReq step s) := by
  unfold execStepReq
  with_reducible repeat' first | assumption | (apply cl_ok hP) | (apply cl_hostDo hP) | (apply cl_put hP) | (apply Quiet.put hP) | split | (intro _ _) | (intro _) | (apply OutP.ok) | (apply OutP.next)

theorem cl_wakeSmoulder (hP : Closed P) (s : State) (cause : Nat) (hs : P s) : P (State.wakeSmoulder s cause) := by
  unfold State.wakeSmoulder
  with_reducible repeat' first | assumption | (apply cl_cleared hP) | (apply cl_startFrom hP.toQuiet) | (apply cl_put hP.toQuiet) | (apply Quiet.put hP.toQuiet) | split

theorem cl_execWake (hP : Closed P) (cause : Nat) (s : State) (hs : P s) : OutP P (execWake cause s) := by
  unfold execWake
  with_reducible repeat' first | assumption | (apply cl_ok hP.toQuiet) | (apply cl_wakeSmoulder hP) | (apply cl_wakeFor hP.toQuiet) | (apply Quiet.put hP.toQuiet) | split | (apply OutP.ok) | (apply OutP.next)

theorem cl_execQuaysWarm (hP : Quiet P) (s : State) (hs : P s) : OutP P (execQuaysWarm s) := by
  unfold execQuaysWarm
  with_reducible repeat' first | assumption | (apply cl_ok hP) | (apply cl_put hP) | (apply cl_askJoin hP) | (apply Quiet.put hP) | ((apply Quiet.mk' hP); first | assumption | (apply cl_ok hP) | (apply cl_put hP) | (apply cl_askJoin hP) | (apply Quiet.put hP) | split) | ((apply Quiet.mk' hP); (apply Quiet.mk' hP); first | assumption | (apply cl_ok hP) | (apply cl_put hP) | (apply cl_askJoin hP) | (apply Quiet.put hP) | split) | split | (apply OutP.ok) | (apply OutP.next)

theorem cl_transit (hP : Closed P) (s : State) (target ownerHash : Nat) (hs : P s) : P (State.transit s target ownerHash) := by
  unfold State.transit; try dsimp only
  with_reducible repeat' first | assumption | (apply cl_zeroiseAll hP) | (apply cl_deviceReset hP) | (apply Quiet.put hP.toQuiet) | ((apply Quiet.mk' hP.toQuiet); first | assumption | (apply cl_zeroiseAll hP) | (apply cl_deviceReset hP) | (apply Quiet.put hP.toQuiet) | split) | ((apply Quiet.mk' hP.toQuiet); (apply Quiet.mk' hP.toQuiet); first | assumption | (apply cl_zeroiseAll hP) | (apply cl_deviceReset hP) | (apply Quiet.put hP.toQuiet) | split) | split

theorem cl_execLifecycleTransition (hP : Closed P) (session target signer ownerHash : Nat) (signedOk : Bool) (s : State) (hs : P s) : OutP P (execLifecycleTransition session target signer ownerHash signedOk s) := by
  unfold execLifecycleTransition; try dsimp only
  with_reducible repeat' first | assumption | (apply cl_ok hP.toQuiet) | (apply cl_send hP.toQuiet) | (apply cl_transit hP) | (apply Quiet.put hP.toQuiet) | split | (intro _ _) | (intro _) | (apply OutP.ok) | (apply OutP.next)

end Sys2Proof.Laws
end

