-- ==== Sys2Proof/Laws/KeepsPilot.lean ====
section
/-! SUPPORT. What the functions of Machine/Pilot.lean keep: see Laws/Closed.lean. -/

set_option linter.unusedTactic false
set_option linter.unreachableTactic false

namespace Sys2Proof.Laws

open Sys2Proof.Machine

variable {P : State → Prop}

theorem cl_bySource (hP : Quiet P) (s : State) (source : Nat) (f : State → State) (hs : P s) (hf : ∀ x0, P x0 → P (f x0)) : P (State.bySource s source f) := by
  unfold State.bySource
  with_reducible repeat' first | assumption | (apply hf) | (apply cl_hostDo hP) | (apply Quiet.put hP) | split | (intro _ _) | (intro _)

theorem cl_shadow (hP : Quiet P) (s : State) (hs : P s) : P (State.shadow s) := by
  unfold State.shadow
  with_reducible repeat' first | assumption | (apply cl_put hP) | (apply Quiet.put hP) | ((apply Quiet.mk' hP); first | assumption | (apply cl_put hP) | (apply Quiet.put hP) | split) | ((apply Quiet.mk' hP); (apply Quiet.mk' hP); first | assumption | (apply cl_put hP) | (apply Quiet.put hP) | split) | split

theorem cl_capDuty (hP : Quiet P) (s : State) (power : Nat) (sites : List Nat) (hs : P s) : P (State.capDuty s power sites) := by
  unfold State.capDuty; try dsimp only
  with_reducible repeat' first | assumption | (apply cl_put hP) | (apply cl_send hP) | (apply Quiet.put hP) | ((apply Quiet.mk' hP); first | assumption | (apply cl_put hP) | (apply cl_send hP) | (apply Quiet.put hP) | split) | ((apply Quiet.mk' hP); (apply Quiet.mk' hP); first | assumption | (apply cl_put hP) | (apply cl_send hP) | (apply Quiet.put hP) | split) | split

theorem cl_limitDuty (hP : Quiet P) (s : State) (hs : P s) : P (State.limitDuty s) := by
  unfold State.limitDuty; try dsimp only
  with_reducible repeat' first | assumption | (apply cl_put hP) | (apply Quiet.put hP) | ((apply Quiet.mk' hP); first | assumption | (apply cl_put hP) | (apply Quiet.put hP) | split) | ((apply Quiet.mk' hP); (apply Quiet.mk' hP); first | assumption | (apply cl_put hP) | (apply Quiet.put hP) | split) | split

theorem cl_takeLimits (hP : Quiet P) (s : State) (hs : P s) : P (State.takeLimits s) := by
  unfold State.takeLimits; try dsimp only
  with_reducible repeat' first | assumption | (apply Quiet.put hP) | ((apply Quiet.mk' hP); first | assumption | (apply Quiet.put hP) | split) | ((apply Quiet.mk' hP); (apply Quiet.mk' hP); first | assumption | (apply Quiet.put hP) | split) | split

theorem cl_logDuty (hP : Quiet P) (s : State) (hs : P s) : P (State.logDuty s) := by
  unfold State.logDuty; try dsimp only
  with_reducible repeat' first | assumption | (apply Quiet.put hP) | ((apply Quiet.mk' hP); first | assumption | (apply Quiet.put hP) | split) | ((apply Quiet.mk' hP); (apply Quiet.mk' hP); first | assumption | (apply Quiet.put hP) | split) | split

theorem cl_serve (hP : Closed P) (s : State) (r : MctpRequest) (hs : P s) : FstP P (State.serve s r) := by
  unfold State.serve
  with_reducible repeat' first | assumption | (apply cl_put hP.toQuiet) | (apply cl_transfer hP) | (apply Quiet.put hP.toQuiet) | ((apply Quiet.mk' hP.toQuiet); first | assumption | (apply cl_put hP.toQuiet) | (apply cl_transfer hP) | (apply Quiet.put hP.toQuiet) | split) | ((apply Quiet.mk' hP.toQuiet); (apply Quiet.mk' hP.toQuiet); first | assumption | (apply cl_put hP.toQuiet) | (apply cl_transfer hP) | (apply Quiet.put hP.toQuiet) | split) | split | (intro _ _) | (intro _) | (apply FstP.mk)

theorem cl_mctpDuty (hP : Closed P) (s : State) (hs : P s) : P (State.mctpDuty s) := by
  unfold State.mctpDuty; try dsimp only
  with_reducible repeat' first | assumption | (apply cl_serve hP) | (refine FstP.at ?_ (by assumption); apply cl_serve hP) | (apply FstP.out; apply cl_serve hP) | (apply cl_send hP.toQuiet) | (apply Quiet.put hP.toQuiet) | ((apply Quiet.mk' hP.toQuiet); first | assumption | (apply cl_serve hP) | (refine FstP.at ?_ (by assumption); apply cl_serve hP) | (apply FstP.out; apply cl_serve hP) | (apply cl_send hP.toQuiet) | (apply Quiet.put hP.toQuiet) | (apply cl_foldl) | split) | ((apply Quiet.mk' hP.toQuiet); (apply Quiet.mk' hP.toQuiet); first | assumption | (apply cl_serve hP) | (refine FstP.at ?_ (by assumption); apply cl_serve hP) | (apply FstP.out; apply cl_serve hP) | (apply cl_send hP.toQuiet) | (apply Quiet.put hP.toQuiet) | (apply cl_foldl) | split) | split | (apply cl_foldl) | (intro _ _) | (intro _)

theorem cl_execMctpMessage (hP : Quiet P) (transport kind : Nat) (body : List Nat) (s : State) (hs : P s) : OutP P (execMctpMessage transport kind body s) := by
  unfold execMctpMessage
  with_reducible repeat' first | assumption | (apply cl_ok hP) | (apply Quiet.put hP) | ((apply Quiet.mk' hP); first | assumption | (apply cl_ok hP) | (apply Quiet.put hP) | split) | ((apply Quiet.mk' hP); (apply Quiet.mk' hP); first | assumption | (apply cl_ok hP) | (apply Quiet.put hP) | split) | split | (apply OutP.ok) | (apply OutP.next)

theorem cl_senses (hP : Quiet P) (s : State) (millivolts : Nat) (sites : List Nat) (hs : P s) : P (State.senses s millivolts sites) := by
  unfold State.senses; try dsimp only
  with_reducible repeat' first | assumption | (apply cl_put hP) | (apply Quiet.put hP) | split

theorem cl_duties (hP : Closed P) (s : State) (power : Nat) (sites rails : List Nat) (hs : P s) : P (State.duties s power sites rails) := by
  unfold State.duties; try dsimp only
  with_reducible repeat' first | assumption | (apply cl_capDuty hP.toQuiet) | (apply cl_limitDuty hP.toQuiet) | (apply cl_logDuty hP.toQuiet) | (apply cl_mctpDuty hP) | (apply Quiet.put hP.toQuiet) | ((apply Quiet.mk' hP.toQuiet); first | assumption | (apply cl_capDuty hP.toQuiet) | (apply cl_limitDuty hP.toQuiet) | (apply cl_logDuty hP.toQuiet) | (apply cl_mctpDuty hP) | (apply Quiet.put hP.toQuiet) | split) | ((apply Quiet.mk' hP.toQuiet); (apply Quiet.mk' hP.toQuiet); first | assumption | (apply cl_capDuty hP.toQuiet) | (apply cl_limitDuty hP.toQuiet) | (apply cl_logDuty hP.toQuiet) | (apply cl_mctpDuty hP) | (apply Quiet.put hP.toQuiet) | split) | split

theorem cl_execManagementTick (hP : Closed P) (power millivolts counts : Nat) (sites rails : List Nat) (s : State) (hs : P s) : OutP P (execManagementTick power millivolts counts sites rails s) := by
  unfold execManagementTick; try dsimp only
  with_reducible repeat' first | assumption | (apply cl_put hP.toQuiet) | (apply cl_shadow hP.toQuiet) | (apply cl_senses hP.toQuiet) | (apply cl_ok hP.toQuiet) | (apply cl_duties hP) | (apply Quiet.put hP.toQuiet) | split | (apply OutP.ok) | (apply OutP.next)

theorem cl_execPilotWatchdog (hP : Closed P) (s : State) (hs : P s) : OutP P (execPilotWatchdog s) := by
  unfold execPilotWatchdog; try dsimp only
  with_reducible repeat' first | assumption | (apply cl_inc hP.toQuiet) | (apply cl_put hP.toQuiet) | (apply cl_ok hP.toQuiet) | (apply cl_detect hP) | (apply cl_send hP.toQuiet) | (apply Quiet.put hP.toQuiet) | ((apply Quiet.mk' hP.toQuiet); first | assumption | (apply cl_inc hP.toQuiet) | (apply cl_put hP.toQuiet) | (apply cl_ok hP.toQuiet) | (apply cl_detect hP) | (apply cl_send hP.toQuiet) | (apply Quiet.put hP.toQuiet) | split) | ((apply Quiet.mk' hP.toQuiet); (apply Quiet.mk' hP.toQuiet); first | assumption | (apply cl_inc hP.toQuiet) | (apply cl_put hP.toQuiet) | (apply cl_ok hP.toQuiet) | (apply cl_detect hP) | (apply cl_send hP.toQuiet) | (apply Quiet.put hP.toQuiet) | split) | split | (apply OutP.ok) | (apply OutP.next)

theorem cl_sev3Act (hP : Closed P) (t : State) (ht : P t) : P (State.sev3Act t) := by
  unfold State.sev3Act; try dsimp only
  with_reducible repeat' first | assumption | (apply cl_deviceReset hP) | (apply cl_put hP.toQuiet) | (apply cl_send hP.toQuiet) | (apply Quiet.put hP.toQuiet) | ((apply Quiet.mk' hP.toQuiet); first | assumption | (apply cl_deviceReset hP) | (apply cl_put hP.toQuiet) | (apply cl_send hP.toQuiet) | (apply Quiet.put hP.toQuiet) | split) | ((apply Quiet.mk' hP.toQuiet); (apply Quiet.mk' hP.toQuiet); first | assumption | (apply cl_deviceReset hP) | (apply cl_put hP.toQuiet) | (apply cl_send hP.toQuiet) | (apply Quiet.put hP.toQuiet) | split) | split

theorem cl_execSeverity3ResetPolicy (hP : Closed P) (s : State) (hs : P s) : OutP P (execSeverity3ResetPolicy s) := by
  unfold execSeverity3ResetPolicy; try dsimp only
  with_reducible repeat' first | assumption | (apply cl_logDuty hP.toQuiet) | (apply cl_ok hP.toQuiet) | (apply cl_sev3Act hP) | (apply Quiet.put hP.toQuiet) | ((apply Quiet.mk' hP.toQuiet); first | assumption | (apply cl_logDuty hP.toQuiet) | (apply cl_ok hP.toQuiet) | (apply cl_sev3Act hP) | (apply Quiet.put hP.toQuiet) | split) | ((apply Quiet.mk' hP.toQuiet); (apply Quiet.mk' hP.toQuiet); first | assumption | (apply cl_logDuty hP.toQuiet) | (apply cl_ok hP.toQuiet) | (apply cl_sev3Act hP) | (apply Quiet.put hP.toQuiet) | split) | split | (apply OutP.ok) | (apply OutP.next)

theorem cl_capWrite (hP : Quiet P) (s : State) (source value : Nat) (hs : P s) : P (State.capWrite s source value) := by
  unfold State.capWrite
  with_reducible repeat' first | assumption | (apply cl_put hP) | (apply cl_discard hP) | (apply Quiet.put hP) | split

theorem cl_execPltCapWrite (hP : Quiet P) (source value : Nat) (s : State) (hs : P s) : OutP P (execPltCapWrite source value s) := by
  unfold execPltCapWrite
  with_reducible repeat' first | assumption | (apply cl_ok hP) | (apply cl_bySource hP) | (apply cl_capWrite hP) | (apply Quiet.put hP) | split | (intro _ _) | (intro _) | (apply OutP.ok) | (apply OutP.next)

theorem cl_pltReset (hP : Closed P) (s : State) (source key : Nat) (hs : P s) : P (State.pltReset s source key) := by
  unfold State.pltReset
  with_reducible repeat' first | assumption | (apply cl_deviceReset hP) | (apply cl_discard hP.toQuiet) | (apply Quiet.put hP.toQuiet) | split

theorem cl_execPltReset (hP : Closed P) (source key : Nat) (s : State) (hs : P s) : OutP P (execPltReset source key s) := by
  unfold execPltReset
  with_reducible repeat' first | assumption | (apply cl_ok hP.toQuiet) | (apply cl_bySource hP.toQuiet) | (apply cl_pltReset hP) | (apply Quiet.put hP.toQuiet) | split | (intro _ _) | (intro _) | (apply OutP.ok) | (apply OutP.next)

theorem cl_profileSave (hP : Quiet P) (s : State) (hs : P s) : P (State.profileSave s) := by
  unfold State.profileSave
  with_reducible repeat' first | assumption | (apply Quiet.put hP) | ((apply Quiet.mk' hP); first | assumption | (apply Quiet.put hP) | split) | ((apply Quiet.mk' hP); (apply Quiet.mk' hP); first | assumption | (apply Quiet.put hP) | split) | split

theorem cl_profileErase (hP : Quiet P) (s : State) (hs : P s) : P (State.profileErase s) := by
  unfold State.profileErase
  with_reducible repeat' first | assumption | (apply Quiet.put hP) | ((apply Quiet.mk' hP); first | assumption | (apply Quiet.put hP) | split) | ((apply Quiet.mk' hP); (apply Quiet.mk' hP); first | assumption | (apply Quiet.put hP) | split) | split

theorem cl_execProfileSave (hP : Quiet P) (s : State) (hs : P s) : OutP P (execProfileSave s) := by
  unfold execProfileSave
  with_reducible repeat' first | assumption | (apply cl_ok hP) | (apply cl_hostDo hP) | (apply cl_profileSave hP) | (apply Quiet.put hP) | split | (intro _ _) | (intro _) | (apply OutP.ok) | (apply OutP.next)

theorem cl_execProfileErase (hP : Quiet P) (s : State) (hs : P s) : OutP P (execProfileErase s) := by
  unfold execProfileErase
  with_reducible repeat' first | assumption | (apply cl_ok hP) | (apply cl_hostDo hP) | (apply cl_profileErase hP) | (apply Quiet.put hP) | split | (intro _ _) | (intro _) | (apply OutP.ok) | (apply OutP.next)

theorem cl_refuseImage (hP : Closed P) (s : State) (cls : Nat) (hs : P s) : P (State.refuseImage s cls) := by
  unfold State.refuseImage; try dsimp only
  with_reducible repeat' first | assumption | (apply cl_logError hP) | (apply cl_put hP.toQuiet) | (apply Quiet.put hP.toQuiet) | ((apply Quiet.mk' hP.toQuiet); first | assumption | (apply cl_logError hP) | (apply cl_put hP.toQuiet) | (apply Quiet.put hP.toQuiet) | split) | ((apply Quiet.mk' hP.toQuiet); (apply Quiet.mk' hP.toQuiet); first | assumption | (apply cl_logError hP) | (apply cl_put hP.toQuiet) | (apply Quiet.put hP.toQuiet) | split) | split

theorem cl_verified (hP : Closed P) (s : State) (cls : Nat) (i : Image) (hs : P s) : P (State.verified s cls i) := by
  unfold State.verified; try dsimp only
  with_reducible repeat' first | assumption | (apply cl_send hP.toQuiet) | (apply cl_refuseImage hP) | (apply Quiet.put hP.toQuiet) | ((apply Quiet.mk' hP.toQuiet); first | assumption | (apply cl_send hP.toQuiet) | (apply cl_refuseImage hP) | (apply Quiet.put hP.toQuiet) | split) | ((apply Quiet.mk' hP.toQuiet); (apply Quiet.mk' hP.toQuiet); first | assumption | (apply cl_send hP.toQuiet) | (apply cl_refuseImage hP) | (apply Quiet.put hP.toQuiet) | split) | split

theorem cl_execFirmwareTransferEnd (hP : Closed P) (image : Image) (s : State) (hs : P s) : OutP P (execFirmwareTransferEnd image s) := by
  unfold execFirmwareTransferEnd
  with_reducible repeat' first | assumption | (apply cl_transfer hP) | (apply cl_ok hP.toQuiet) | (apply cl_verified hP) | (apply Quiet.put hP.toQuiet) | ((apply Quiet.mk' hP.toQuiet); first | assumption | (apply cl_transfer hP) | (apply cl_ok hP.toQuiet) | (apply cl_verified hP) | (apply Quiet.put hP.toQuiet) | split) | ((apply Quiet.mk' hP.toQuiet); (apply Quiet.mk' hP.toQuiet); first | assumption | (apply cl_transfer hP) | (apply cl_ok hP.toQuiet) | (apply cl_verified hP) | (apply Quiet.put hP.toQuiet) | split) | split | (intro _ _) | (intro _) | (apply OutP.ok) | (apply OutP.next)

theorem cl_execFirmwareActivate (hP : Quiet P) (s : State) (hs : P s) : OutP P (execFirmwareActivate s) := by
  unfold execFirmwareActivate
  with_reducible repeat' first | assumption | (apply cl_ok hP) | (apply Quiet.put hP) | ((apply Quiet.mk' hP); first | assumption | (apply cl_ok hP) | (apply Quiet.put hP) | split) | ((apply Quiet.mk' hP); (apply Quiet.mk' hP); first | assumption | (apply cl_ok hP) | (apply Quiet.put hP) | split) | split | (intro _ _) | (intro _) | (apply OutP.ok) | (apply OutP.next)

theorem cl_reportReady (hP : Quiet P) (s : State) (hs : P s) : P (State.reportReady s) := by
  unfold State.reportReady; try dsimp only
  with_reducible repeat' first | assumption | (apply cl_sendVc0 hP) | (apply Quiet.put hP) | ((apply Quiet.mk' hP); first | assumption | (apply cl_sendVc0 hP) | (apply Quiet.put hP) | split) | ((apply Quiet.mk' hP); (apply Quiet.mk' hP); first | assumption | (apply cl_sendVc0 hP) | (apply Quiet.put hP) | split) | split

theorem cl_tideHold (hP : Quiet P) (s : State) (hs : P s) : P (State.tideHold s) := by
  unfold State.tideHold
  with_reducible repeat' first | assumption | (apply cl_put hP) | (apply cl_send hP) | (apply Quiet.put hP) | ((apply Quiet.mk' hP); first | assumption | (apply cl_put hP) | (apply cl_send hP) | (apply Quiet.put hP) | split) | ((apply Quiet.mk' hP); (apply Quiet.mk' hP); first | assumption | (apply cl_put hP) | (apply cl_send hP) | (apply Quiet.put hP) | split) | split

theorem cl_execTideHold (hP : Quiet P) (heard : Bool) (s : State) (hs : P s) : OutP P (execTideHold heard s) := by
  unfold execTideHold
  with_reducible repeat' first | assumption | (apply cl_ok hP) | (apply cl_hostDo hP) | (apply cl_tideHold hP) | (apply Quiet.put hP) | ((apply Quiet.mk' hP); first | assumption | (apply cl_ok hP) | (apply cl_hostDo hP) | (apply cl_tideHold hP) | (apply Quiet.put hP) | split) | ((apply Quiet.mk' hP); (apply Quiet.mk' hP); first | assumption | (apply cl_ok hP) | (apply cl_hostDo hP) | (apply cl_tideHold hP) | (apply Quiet.put hP) | split) | split | (intro _ _) | (intro _) | (apply OutP.ok) | (apply OutP.next)

theorem cl_execHoldReady (hP : Quiet P) (device : Nat) (s : State) (hs : P s) : OutP P (execHoldReady device s) := by
  unfold execHoldReady
  with_reducible repeat' first | assumption | (apply cl_ok hP) | (apply cl_reportReady hP) | (apply Quiet.put hP) | ((apply Quiet.mk' hP); first | assumption | (apply cl_ok hP) | (apply cl_reportReady hP) | (apply Quiet.put hP) | split) | ((apply Quiet.mk' hP); (apply Quiet.mk' hP); first | assumption | (apply cl_ok hP) | (apply cl_reportReady hP) | (apply Quiet.put hP) | split) | split | (apply OutP.ok) | (apply OutP.next)

theorem cl_execTideStopBroadcast (hP : Quiet P) (tide : Nat) (heard : Bool) (s : State) (hs : P s) : OutP P (execTideStopBroadcast tide heard s) := by
  unfold execTideStopBroadcast
  with_reducible repeat' first | assumption | (apply cl_ok hP) | (apply cl_send hP) | (apply Quiet.put hP) | ((apply Quiet.mk' hP); first | assumption | (apply cl_ok hP) | (apply cl_send hP) | (apply Quiet.put hP) | split) | ((apply Quiet.mk' hP); (apply Quiet.mk' hP); first | assumption | (apply cl_ok hP) | (apply cl_send hP) | (apply Quiet.put hP) | split) | split | (apply OutP.ok) | (apply OutP.next)

theorem cl_resumeTide (hP : Quiet P) (s : State) (tide : Nat) (hs : P s) : P (State.resumeTide s tide) := by
  unfold State.resumeTide; try dsimp only
  with_reducible repeat' first | assumption | (apply cl_startTide hP) | (apply cl_put hP) | (apply Quiet.put hP) | ((apply Quiet.mk' hP); first | assumption | (apply cl_startTide hP) | (apply cl_put hP) | (apply Quiet.put hP) | split) | ((apply Quiet.mk' hP); (apply Quiet.mk' hP); first | assumption | (apply cl_startTide hP) | (apply cl_put hP) | (apply Quiet.put hP) | split) | split

theorem cl_resumePod (hP : Quiet P) (s : State) (hs : P s) : P (State.resumePod s) := by
  unfold State.resumePod
  with_reducible repeat' first | assumption | (apply cl_send hP) | (apply cl_resumeTide hP) | (apply Quiet.put hP) | split

theorem cl_holdOff (hP : Quiet P) (s : State) (hs : P s) : P (State.holdOff s) := by
  unfold State.holdOff; try dsimp only
  with_reducible repeat' first | assumption | (apply cl_put hP) | (apply cl_resumePod hP) | (apply cl_send hP) | (apply Quiet.put hP) | ((apply Quiet.mk' hP); first | assumption | (apply cl_put hP) | (apply cl_resumePod hP) | (apply cl_send hP) | (apply Quiet.put hP) | split) | ((apply Quiet.mk' hP); (apply Quiet.mk' hP); first | assumption | (apply cl_put hP) | (apply cl_resumePod hP) | (apply cl_send hP) | (apply Quiet.put hP) | split) | split

theorem cl_leaveMismatched (hP : Quiet P) (s : State) (reason : Nat) (hs : P s) : P (State.leaveMismatched s reason) := by
  unfold State.leaveMismatched; try dsimp only
  with_reducible repeat' first | assumption | (apply cl_sendVc0 hP) | (apply cl_put hP) | (apply cl_putSize hP) | (apply Quiet.put hP) | ((apply Quiet.mk' hP); first | assumption | (apply cl_sendVc0 hP) | (apply cl_put hP) | (apply cl_putSize hP) | (apply Quiet.put hP) | split) | ((apply Quiet.mk' hP); (apply Quiet.mk' hP); first | assumption | (apply cl_sendVc0 hP) | (apply cl_put hP) | (apply cl_putSize hP) | (apply Quiet.put hP) | split) | split

theorem cl_holdOffHeard (hP : Quiet P) (s : State) (tide steps grace : Nat) (hs : P s) : P (State.holdOffHeard s tide steps grace) := by
  unfold State.holdOffHeard
  with_reducible repeat' first | assumption | (apply cl_leaveMismatched hP) | (apply cl_resumeTide hP) | (apply Quiet.put hP) | ((apply Quiet.mk' hP); first | assumption | (apply cl_leaveMismatched hP) | (apply cl_resumeTide hP) | (apply Quiet.put hP) | split) | ((apply Quiet.mk' hP); (apply Quiet.mk' hP); first | assumption | (apply cl_leaveMismatched hP) | (apply cl_resumeTide hP) | (apply Quiet.put hP) | split) | split

theorem cl_execTideHoldRelease (hP : Quiet P) (tide steps grace : Nat) (heard : Bool) (s : State) (hs : P s) : OutP P (execTideHoldRelease tide steps grace heard s) := by
  unfold execTideHoldRelease
  with_reducible repeat' first | assumption | (apply cl_ok hP) | (apply cl_holdOffHeard hP) | (apply cl_hostDo hP) | (apply cl_holdOff hP) | (apply Quiet.put hP) | split | (intro _ _) | (intro _) | (apply OutP.ok) | (apply OutP.next)

theorem cl_stopTide (hP : Quiet P) (s : State) (hs : P s) : P (State.stopTide s) := by
  unfold State.stopTide; try dsimp only
  with_reducible repeat' first | assumption | (apply cl_put hP) | (apply cl_resumePod hP) | (apply Quiet.put hP) | ((apply Quiet.mk' hP); first | assumption | (apply cl_put hP) | (apply cl_resumePod hP) | (apply Quiet.put hP) | split) | ((apply Quiet.mk' hP); (apply Quiet.mk' hP); first | assumption | (apply cl_put hP) | (apply cl_resumePod hP) | (apply Quiet.put hP) | split) | split

end Sys2Proof.Laws
end

