-- ==== Sys2Proof/Laws/KeepsAccess.lean ====
section
/-! SUPPORT. What the functions of Machine/Access.lean keep: see Laws/Closed.lean. -/

set_option linter.unusedTactic false
set_option linter.unreachableTactic false

namespace Sys2Proof.Laws

open Sys2Proof.Machine

variable {P : State → Prop}

theorem cl_putFields (hP : Quiet P) (s : State) (r : Reg) (i v : Nat) (hs : P s) : P (State.putFields s r i v) := by
  unfold State.putFields
  with_reducible repeat' first | assumption | (apply cl_put hP) | (apply Quiet.put hP) | split | (apply cl_foldl) | (intro _ _) | (intro _)

theorem cl_perBit (hP : Quiet P) (s : State) (n old new : Nat) (on off : State → Nat → State) (hs : P s) (hon : ∀ x0 x1, P x0 → P (on x0 x1)) (hoff : ∀ x0 x1, P x0 → P (off x0 x1)) : P (State.perBit s n old new on off) := by
  unfold State.perBit
  with_reducible repeat' first | assumption | (apply hon) | (apply hoff) | (apply Quiet.put hP) | split | (apply cl_foldl) | (intro _ _) | (intro _)

theorem cl_writeWays (hP : Quiet P) (s : State) (r : Reg) (d first v : Nat) (hs : P s) : P (State.writeWays s r d first v) := by
  unfold State.writeWays; try dsimp only
  with_reducible repeat' first | assumption | (apply cl_putFields hP) | (apply Quiet.put hP) | ((apply Quiet.mk' hP); first | assumption | (apply cl_putFields hP) | (apply Quiet.put hP) | split) | ((apply Quiet.mk' hP); (apply Quiet.mk' hP); first | assumption | (apply cl_putFields hP) | (apply Quiet.put hP) | split) | split | (intro _ _) | (intro _)

theorem cl_moveSets (hP : Closed P) (s : State) (a b n : Nat) (hs : P s) : P (State.moveSets s a b (a + n)) := hP.moveSets s a b n hs

theorem cl_writeChset (hP : Closed P) (s : State) (n v : Nat) (hs : P s) : P (State.writeChset s n v) := by
  unfold State.writeChset; try dsimp only
  with_reducible repeat' first | assumption | (apply cl_putFields hP.toQuiet) | (apply cl_moveSets hP) | (apply cl_putBitAt hP.toQuiet) | (apply cl_chsetRestart hP) | (apply Quiet.put hP.toQuiet) | split

theorem cl_hotCfg (hP : Quiet P) (s : State) (v : Nat) (hs : P s) : P (State.hotCfg s v) := by
  unfold State.hotCfg; try dsimp only
  with_reducible repeat' first | assumption | (apply cl_putFields hP) | (apply cl_put hP) | (apply Quiet.put hP) | split

theorem cl_freezeReset (hP : Closed P) (s : State) (kind id : Nat) (hs : P s) : P (State.freezeReset s kind id) := by
  unfold State.freezeReset
  with_reducible repeat' first | assumption | (apply cl_ringFreezeReset hP.toQuiet) | (apply cl_streamFreezeReset hP.toQuiet) | (apply cl_taskFreezeReset hP.toQuiet) | (apply cl_peerFreezeReset hP) | (apply Quiet.put hP.toQuiet) | split

theorem cl_tableOp (hP : Closed P) (s : State) (op table : Nat) (hs : P s) : P (State.tableOp s op table) := by
  unfold State.tableOp
  with_reducible repeat' first | assumption | (apply cl_enableTable hP) | (apply cl_disableTable hP) | (apply Quiet.put hP.toQuiet) | split

theorem cl_quayCtl (hP : Closed P) (s : State) (q v : Nat) (hs : P s) : P (State.quayCtl s q v) := by
  unfold State.quayCtl; try dsimp only
  with_reducible repeat' first | assumption | (apply cl_quayStop hP) | (apply cl_put hP.toQuiet) | (apply cl_putQuay hP.toQuiet) | (apply Quiet.put hP.toQuiet) | ((apply Quiet.mk' hP.toQuiet); first | assumption | (apply cl_quayStop hP) | (apply cl_put hP.toQuiet) | (apply cl_putQuay hP.toQuiet) | (apply Quiet.put hP.toQuiet) | split) | ((apply Quiet.mk' hP.toQuiet); (apply Quiet.mk' hP.toQuiet); first | assumption | (apply cl_quayStop hP) | (apply cl_put hP.toQuiet) | (apply cl_putQuay hP.toQuiet) | (apply Quiet.put hP.toQuiet) | split) | split

theorem cl_podCtl (hP : Closed P) (s : State) (v : Nat) (hs : P s) : P (State.podCtl s v) := by
  unfold State.podCtl; try dsimp only
  with_reducible repeat' first | assumption | (apply cl_podJoin hP.toQuiet) | (apply cl_podLeave hP.toQuiet) | (apply cl_resetPod hP) | (apply Quiet.put hP.toQuiet) | split

theorem cl_setLock (hP : Quiet P) (s : State) (source : Nat) (hs : P s) : P (State.setLock s source) := by
  unfold State.setLock
  with_reducible repeat' first | assumption | (apply cl_put hP) | (apply Quiet.put hP) | split

theorem cl_execSetupLock (hP : Quiet P) (source : Nat) (s : State) (hs : P s) : OutP P (execSetupLock source s) := by
  unfold execSetupLock
  with_reducible repeat' first | assumption | (apply cl_ok hP) | (apply cl_bySource hP) | (apply cl_setLock hP) | (apply Quiet.put hP) | split | (intro _ _) | (intro _) | (apply OutP.ok) | (apply OutP.next)

theorem cl_regEffect (hP : Closed P) (s : State) (source : Nat) (r : Reg) (i v : Nat) (hs : P s) : P (State.regEffect s source r i v) := by
  unfold State.regEffect; try dsimp only
  with_reducible repeat' first | assumption | (apply cl_putFields hP.toQuiet) | (apply cl_startTide hP.toQuiet) | (apply cl_put hP.toQuiet) | (apply cl_writeWays hP.toQuiet) | (apply cl_perBit hP.toQuiet) | (apply cl_wayStop hP) | (apply cl_wayRestart hP) | (apply cl_hotCfg hP.toQuiet) | (apply cl_writeChset hP) | (apply cl_chsetHalt hP.toQuiet) | (apply cl_chsetRestart hP) | (apply cl_destructStart hP.toQuiet) | (apply cl_repairStart hP.toQuiet) | (apply cl_tableOp hP) | (apply cl_rebuildGo hP.toQuiet) | (apply cl_winInval hP.toQuiet) | (apply cl_evtStart hP) | (apply cl_evtStop hP.toQuiet) | (apply cl_ringStart hP.toQuiet) | (apply cl_ringStop hP.toQuiet) | (apply cl_histStart hP) | (apply cl_admissionCtl hP.toQuiet) | (apply cl_freezeReset hP) | (apply cl_addModel hP) | (apply cl_removeModel hP) | (apply cl_stateReq hP) | (apply cl_tideHold hP.toQuiet) | (apply cl_holdOff hP.toQuiet) | (apply cl_podCtl hP) | (apply cl_quayCtl hP) | (apply cl_collEnable hP.toQuiet) | (apply cl_collDisable hP.toQuiet) | (apply cl_snapRequest hP.toQuiet) | (apply cl_debugClose hP.toQuiet) | (apply cl_dbgKiln hP.toQuiet) | (apply cl_zeroiseKeys hP) | (apply cl_capWrite hP.toQuiet) | (apply cl_pltReset hP) | (apply cl_profileSave hP.toQuiet) | (apply cl_profileErase hP.toQuiet) | (apply cl_setLock hP.toQuiet) | (apply Quiet.put hP.toQuiet) | ((apply Quiet.mk' hP.toQuiet); first | assumption | (apply cl_putFields hP.toQuiet) | (apply cl_startTide hP.toQuiet) | (apply cl_put hP.toQuiet) | (apply cl_writeWays hP.toQuiet) | (apply cl_perBit hP.toQuiet) | (apply cl_wayStop hP) | (apply cl_wayRestart hP) | (apply cl_hotCfg hP.toQuiet) | (apply cl_writeChset hP) | (apply cl_chsetHalt hP.toQuiet) | (apply cl_chsetRestart hP) | (apply cl_destructStart hP.toQuiet) | (apply cl_repairStart hP.toQuiet) | (apply cl_tableOp hP) | (apply cl_rebuildGo hP.toQuiet) | (apply cl_winInval hP.toQuiet) | (apply cl_evtStart hP) | (apply cl_evtStop hP.toQuiet) | (apply cl_ringStart hP.toQuiet) | (apply cl_ringStop hP.toQuiet) | (apply cl_histStart hP) | (apply cl_admissionCtl hP.toQuiet) | (apply cl_freezeReset hP) | (apply cl_addModel hP) | (apply cl_removeModel hP) | (apply cl_stateReq hP) | (apply cl_tideHold hP.toQuiet) | (apply cl_holdOff hP.toQuiet) | (apply cl_podCtl hP) | (apply cl_quayCtl hP) | (apply cl_collEnable hP.toQuiet) | (apply cl_collDisable hP.toQuiet) | (apply cl_snapRequest hP.toQuiet) | (apply cl_debugClose hP.toQuiet) | (apply cl_dbgKiln hP.toQuiet) | (apply cl_zeroiseKeys hP) | (apply cl_capWrite hP.toQuiet) | (apply cl_pltReset hP) | (apply cl_profileSave hP.toQuiet) | (apply cl_profileErase hP.toQuiet) | (apply cl_setLock hP.toQuiet) | (apply Quiet.put hP.toQuiet) | split) | ((apply Quiet.mk' hP.toQuiet); (apply Quiet.mk' hP.toQuiet); first | assumption | (apply cl_putFields hP.toQuiet) | (apply cl_startTide hP.toQuiet) | (apply cl_put hP.toQuiet) | (apply cl_writeWays hP.toQuiet) | (apply cl_perBit hP.toQuiet) | (apply cl_wayStop hP) | (apply cl_wayRestart hP) | (apply cl_hotCfg hP.toQuiet) | (apply cl_writeChset hP) | (apply cl_chsetHalt hP.toQuiet) | (apply cl_chsetRestart hP) | (apply cl_destructStart hP.toQuiet) | (apply cl_repairStart hP.toQuiet) | (apply cl_tableOp hP) | (apply cl_rebuildGo hP.toQuiet) | (apply cl_winInval hP.toQuiet) | (apply cl_evtStart hP) | (apply cl_evtStop hP.toQuiet) | (apply cl_ringStart hP.toQuiet) | (apply cl_ringStop hP.toQuiet) | (apply cl_histStart hP) | (apply cl_admissionCtl hP.toQuiet) | (apply cl_freezeReset hP) | (apply cl_addModel hP) | (apply cl_removeModel hP) | (apply cl_stateReq hP) | (apply cl_tideHold hP.toQuiet) | (apply cl_holdOff hP.toQuiet) | (apply cl_podCtl hP) | (apply cl_quayCtl hP) | (apply cl_collEnable hP.toQuiet) | (apply cl_collDisable hP.toQuiet) | (apply cl_snapRequest hP.toQuiet) | (apply cl_debugClose hP.toQuiet) | (apply cl_dbgKiln hP.toQuiet) | (apply cl_zeroiseKeys hP) | (apply cl_capWrite hP.toQuiet) | (apply cl_pltReset hP) | (apply cl_profileSave hP.toQuiet) | (apply cl_profileErase hP.toQuiet) | (apply cl_setLock hP.toQuiet) | (apply Quiet.put hP.toQuiet) | split) | split | (intro _ _) | (intro _)

theorem cl_writeReg (hP : Closed P) (s : State) (source : Nat) (r : Reg) (i v : Nat) (hs : P s) : P (State.writeReg s source r i v) := by
  unfold State.writeReg
  with_reducible repeat' first | assumption | (apply cl_discard hP.toQuiet) | (apply cl_regEffect hP) | (apply Quiet.put hP.toQuiet) | split

theorem cl_unmapped (hP : Quiet P) (s : State) (source o : Nat) (hs : P s) : P (State.unmapped s source o) := by
  unfold State.unmapped
  with_reducible repeat' first | assumption | (apply cl_discard hP) | (apply Quiet.put hP) | split

theorem cl_write4 (hP : Closed P) (s : State) (source o v : Nat) (hs : P s) : P (State.write4 s source o v) := by
  unfold State.write4; try dsimp only
  with_reducible repeat' first | assumption | (apply cl_msixWrite hP.toQuiet) | (apply cl_unmapped hP.toQuiet) | (apply cl_writeReg hP) | (apply Quiet.put hP.toQuiet) | ((apply Quiet.mk' hP.toQuiet); first | assumption | (apply cl_msixWrite hP.toQuiet) | (apply cl_unmapped hP.toQuiet) | (apply cl_writeReg hP) | (apply Quiet.put hP.toQuiet) | split) | ((apply Quiet.mk' hP.toQuiet); (apply Quiet.mk' hP.toQuiet); first | assumption | (apply cl_msixWrite hP.toQuiet) | (apply cl_unmapped hP.toQuiet) | (apply cl_writeReg hP) | (apply Quiet.put hP.toQuiet) | split) | split

theorem cl_write8 (hP : Closed P) (s : State) (source o v : Nat) (hs : P s) : P (State.write8 s source o v) := by
  unfold State.write8
  with_reducible repeat' first | assumption | (apply cl_writeReg hP) | (apply cl_write4 hP) | (apply Quiet.put hP.toQuiet) | ((apply Quiet.mk' hP.toQuiet); first | assumption | (apply cl_writeReg hP) | (apply cl_write4 hP) | (apply Quiet.put hP.toQuiet) | split) | ((apply Quiet.mk' hP.toQuiet); (apply Quiet.mk' hP.toQuiet); first | assumption | (apply cl_writeReg hP) | (apply cl_write4 hP) | (apply Quiet.put hP.toQuiet) | split) | split

theorem cl_busWrite (hP : Closed P) (s : State) (source o size v : Nat) (hs : P s) : P (State.busWrite s source o size v) := by
  unfold State.busWrite
  with_reducible repeat' first | assumption | (apply cl_write4 hP) | (apply cl_write8 hP) | (apply Quiet.put hP.toQuiet) | split

theorem cl_wakesRun (hP : Quiet P) (s : State) (o v : Nat) (hs : P s) : P (State.wakesRun s o v) := by
  unfold State.wakesRun
  with_reducible repeat' first | assumption | (apply cl_wakeFor hP) | (apply Quiet.put hP) | split

theorem cl_execRegisterWrite (hP : Closed P) (source offset size value : Nat) (s : State) (hs : P s) : OutP P (execRegisterWrite source offset size value s) := by
  unfold execRegisterWrite; try dsimp only
  with_reducible repeat' first | assumption | (apply cl_wakesRun hP.toQuiet) | (apply cl_ok hP.toQuiet) | (apply cl_bySource hP.toQuiet) | (apply cl_busWrite hP) | (apply Quiet.put hP.toQuiet) | split | (intro _ _) | (intro _) | (apply OutP.ok) | (apply OutP.next)

theorem cl_afterRead (hP : Quiet P) (s : State) (source : Nat) (r : Reg) (i lo hi : Nat) (hs : P s) : P (State.afterRead s source r i lo hi) := by
  unfold State.afterRead
  with_reducible repeat' first | assumption | (apply cl_clearRc hP) | (apply Quiet.put hP) | split

theorem cl_read4 (hP : Quiet P) (s : State) (source o : Nat) (hs : P s) : SndP P (State.read4 s source o) := by
  unfold State.read4; try dsimp only
  with_reducible repeat' first | assumption | (apply cl_afterRead hP) | (apply Quiet.put hP) | ((apply Quiet.mk' hP); first | assumption | (apply cl_afterRead hP) | (apply Quiet.put hP) | split) | ((apply Quiet.mk' hP); (apply Quiet.mk' hP); first | assumption | (apply cl_afterRead hP) | (apply Quiet.put hP) | split) | split | (apply SndP.mk)

theorem cl_readPair (hP : Quiet P) (s : State) (source o : Nat) (hs : P s) : SndP P (State.readPair s source o) := by
  unfold State.readPair; try dsimp only
  with_reducible repeat' first | assumption | (apply cl_read4 hP) | (refine SndP.at ?_ (by assumption); apply cl_read4 hP) | (apply SndP.out; apply cl_read4 hP) | (apply Quiet.put hP) | split | (apply SndP.mk)

theorem cl_read8 (hP : Quiet P) (s : State) (source o : Nat) (hs : P s) : SndP P (State.read8 s source o) := by
  unfold State.read8
  with_reducible repeat' first | assumption | (apply cl_afterRead hP) | (apply cl_readPair hP) | (refine SndP.at ?_ (by assumption); apply cl_readPair hP) | (apply SndP.out; apply cl_readPair hP) | (apply Quiet.put hP) | split | (apply SndP.mk)

theorem cl_busRead (hP : Quiet P) (s : State) (source o size : Nat) (hs : P s) : P (State.busRead s source o size) := by
  unfold State.busRead; try dsimp only
  with_reducible repeat' first | assumption | (apply cl_send hP) | (apply cl_read4 hP) | (refine SndP.at ?_ (by assumption); apply cl_read4 hP) | (apply SndP.out; apply cl_read4 hP) | (apply cl_read8 hP) | (refine SndP.at ?_ (by assumption); apply cl_read8 hP) | (apply SndP.out; apply cl_read8 hP) | (apply Quiet.put hP) | split

theorem cl_readBy (hP : Quiet P) (s : State) (source : Nat) (f : State → State) (hs : P s) (hf : ∀ x0, P x0 → P (f x0)) : P (State.readBy s source f) := by
  unfold State.readBy
  with_reducible repeat' first | assumption | (apply hf) | (apply cl_hostDo hP) | (apply Quiet.put hP) | split | (intro _ _) | (intro _)

theorem cl_execRegisterRead (hP : Quiet P) (source offset size : Nat) (s : State) (hs : P s) : OutP P (execRegisterRead source offset size s) := by
  unfold execRegisterRead
  with_reducible repeat' first | assumption | (apply cl_ok hP) | (apply cl_readBy hP) | (apply cl_busRead hP) | (apply Quiet.put hP) | split | (intro _ _) | (intro _) | (apply OutP.ok) | (apply OutP.next)

end Sys2Proof.Laws
end

