-- ==== Sys2Proof/Laws/KeepsStartup.lean ====
section
/-! SUPPORT. What the functions of Machine/Startup.lean keep: see Laws/Closed.lean. -/

set_option linter.unusedTactic false
set_option linter.unreachableTactic false

namespace Sys2Proof.Laws

open Sys2Proof.Machine

variable {P : State → Prop}

theorem cl_logStart (hP : Quiet P) (s : State) (hs : P s) : P (State.logStart s) := by
  unfold State.logStart; try dsimp only
  with_reducible repeat' first | assumption | (apply Quiet.put hP) | ((apply Quiet.mk' hP); first | assumption | (apply Quiet.put hP) | split) | ((apply Quiet.mk' hP); (apply Quiet.mk' hP); first | assumption | (apply Quiet.put hP) | split) | split

theorem cl_startFail (hP : Quiet P) (s : State) (cause : Nat) (hs : P s) : P (State.startFail s cause) := by
  unfold State.startFail
  with_reducible repeat' first | assumption | (apply cl_put hP) | (apply cl_logStart hP) | (apply Quiet.put hP) | split

theorem cl_startStep (hP : Quiet P) (s : State) (trip step : Nat) (work : State → State) (hs : P s) (hwork : ∀ x0, P x0 → P (work x0)) : P (State.startStep s trip step work) := by
  unfold State.startStep; try dsimp only
  with_reducible repeat' first | assumption | (apply hwork) | (apply cl_put hP) | (apply cl_startFail hP) | (apply Quiet.put hP) | split

theorem cl_refuseBank (hP : Closed P) (s : State) (cls : Nat) (n : Bool) (hs : P s) : P (State.refuseBank s cls n) := by
  unfold State.refuseBank; try dsimp only
  with_reducible repeat' first | assumption | (apply cl_refuseImage hP) | (apply cl_send hP.toQuiet) | (apply Quiet.put hP.toQuiet) | ((apply Quiet.mk' hP.toQuiet); first | assumption | (apply cl_refuseImage hP) | (apply cl_send hP.toQuiet) | (apply Quiet.put hP.toQuiet) | split) | ((apply Quiet.mk' hP.toQuiet); (apply Quiet.mk' hP.toQuiet); first | assumption | (apply cl_refuseImage hP) | (apply cl_send hP.toQuiet) | (apply Quiet.put hP.toQuiet) | split) | split

theorem cl_measure (hP : Quiet P) (s : State) (slot content : Nat) (hs : P s) : P (State.measure s slot content) := by
  unfold State.measure
  with_reducible repeat' first | assumption | (apply Quiet.put hP) | ((apply Quiet.mk' hP); first | assumption | (apply Quiet.put hP) | split) | ((apply Quiet.mk' hP); (apply Quiet.mk' hP); first | assumption | (apply Quiet.put hP) | split) | split

theorem cl_runImage (hP : Quiet P) (s : State) (cls : Nat) (n : Bool) (i : Image) (hs : P s) : P (State.runImage s cls n i) := by
  unfold State.runImage; try dsimp only
  with_reducible repeat' first | assumption | (apply cl_measure hP) | (apply cl_put hP) | (apply Quiet.put hP) | ((apply Quiet.mk' hP); first | assumption | (apply cl_measure hP) | (apply cl_put hP) | (apply Quiet.put hP) | split) | ((apply Quiet.mk' hP); (apply Quiet.mk' hP); first | assumption | (apply cl_measure hP) | (apply cl_put hP) | (apply Quiet.put hP) | split) | split

theorem cl_tryBanks (hP : Closed P) (s : State) (cls : Nat) (r0 : List Bool) (hs : P s) : SndP P (State.tryBanks s cls r0) := by
  induction r0 generalizing s cls with
  | nil =>
    unfold State.tryBanks
    with_reducible repeat' first | assumption | (apply ih) | (apply cl_runImage hP.toQuiet) | (apply cl_refuseBank hP) | (apply Quiet.put hP.toQuiet) | (refine SndP.at ?_ (by assumption); apply ih) | (apply SndP.out; apply ih) | ((apply Quiet.mk' hP.toQuiet); first | assumption | (apply ih) | (apply cl_runImage hP.toQuiet) | (apply cl_refuseBank hP) | (apply Quiet.put hP.toQuiet) | (refine SndP.at ?_ (by assumption); apply ih) | (apply SndP.out; apply ih) | split) | split | (intro _ _) | (intro _) | (apply SndP.mk)
  | cons x l ih =>
    unfold State.tryBanks
    try dsimp only
    with_reducible repeat' first | assumption | (apply ih) | (apply cl_runImage hP.toQuiet) | (apply cl_refuseBank hP) | (apply Quiet.put hP.toQuiet) | (refine SndP.at ?_ (by assumption); apply ih) | (apply SndP.out; apply ih) | ((apply Quiet.mk' hP.toQuiet); first | assumption | (apply ih) | (apply cl_runImage hP.toQuiet) | (apply cl_refuseBank hP) | (apply Quiet.put hP.toQuiet) | (refine SndP.at ?_ (by assumption); apply ih) | (apply SndP.out; apply ih) | split) | split | (intro _ _) | (intro _) | (apply SndP.mk)

theorem cl_bootClass (hP : Closed P) (s : State) (cls : Nat) (hs : P s) : P (State.bootClass s cls) := by
  unfold State.bootClass; try dsimp only
  with_reducible repeat' first | assumption | (apply cl_tryBanks hP) | (refine SndP.at ?_ (by assumption); apply cl_tryBanks hP) | (apply SndP.out; apply cl_tryBanks hP) | (apply cl_startFail hP.toQuiet) | (apply Quiet.put hP.toQuiet) | split

theorem cl_customsError (hP : Quiet P) (s : State) (hs : P s) : P (State.customsError s) := by
  unfold State.customsError
  with_reducible repeat' first | assumption | (apply cl_put hP) | (apply cl_startFail hP) | (apply Quiet.put hP) | split

theorem cl_bootKeys (hP : Quiet P) (s : State) (hs : P s) : P (State.bootKeys s) := by
  unfold State.bootKeys
  with_reducible repeat' first | assumption | (apply Quiet.put hP) | ((apply Quiet.mk' hP); first | assumption | (apply Quiet.put hP) | split) | ((apply Quiet.mk' hP); (apply Quiet.mk' hP); first | assumption | (apply Quiet.put hP) | split) | split

theorem cl_bootStep (hP : Closed P) (s : State) (r : StartReport) (hs : P s) : P (State.bootStep s r) := by
  unfold State.bootStep; try dsimp only
  with_reducible repeat' first | assumption | (apply cl_customsError hP.toQuiet) | (apply cl_bootClass hP) | (apply cl_measure hP.toQuiet) | (apply cl_bootKeys hP.toQuiet) | (apply Quiet.put hP.toQuiet) | split | (apply cl_foldl) | (intro _ _) | (intro _)

theorem cl_applyImage (hP : Quiet P) (s : State) (r : StartReport) (hs : P s) : P (State.applyImage s r) := by
  unfold State.applyImage; try dsimp only
  with_reducible repeat' first | assumption | (apply Quiet.put hP) | ((apply Quiet.mk' hP); first | assumption | (apply Quiet.put hP) | (apply cl_foldl) | split) | ((apply Quiet.mk' hP); (apply Quiet.mk' hP); first | assumption | (apply Quiet.put hP) | (apply cl_foldl) | split) | split | (apply cl_foldl) | (intro _ _) | (intro _)

theorem cl_autoRepair (hP : Quiet P) (s : State) (r : StartReport) (hs : P s) : P (State.autoRepair s r) := by
  unfold State.autoRepair; try dsimp only
  with_reducible repeat' first | assumption | (apply Quiet.put hP) | ((apply Quiet.mk' hP); first | assumption | (apply Quiet.put hP) | split) | ((apply Quiet.mk' hP); (apply Quiet.mk' hP); first | assumption | (apply Quiet.put hP) | split) | split

theorem cl_nameMacro (hP : Closed P) (s : State) (m : Repair) (hs : P s) : P (State.nameMacro s m) := by
  unfold State.nameMacro; try dsimp only
  with_reducible repeat' first | assumption | (apply cl_logError hP) | (apply Quiet.put hP.toQuiet) | ((apply Quiet.mk' hP.toQuiet); first | assumption | (apply cl_logError hP) | (apply Quiet.put hP.toQuiet) | split) | ((apply Quiet.mk' hP.toQuiet); (apply Quiet.mk' hP.toQuiet); first | assumption | (apply cl_logError hP) | (apply Quiet.put hP.toQuiet) | split) | split

theorem cl_testStep (hP : Closed P) (s : State) (r : StartReport) (hs : P s) : P (State.testStep s r) := by
  unfold State.testStep; try dsimp only
  with_reducible repeat' first | assumption | (apply cl_put hP.toQuiet) | (apply cl_autoRepair hP.toQuiet) | (apply cl_nameMacro hP) | (apply cl_startFail hP.toQuiet) | (apply cl_fenceStack hP.toQuiet) | (apply Quiet.put hP.toQuiet) | ((apply Quiet.mk' hP.toQuiet); first | assumption | (apply cl_put hP.toQuiet) | (apply cl_autoRepair hP.toQuiet) | (apply cl_nameMacro hP) | (apply cl_startFail hP.toQuiet) | (apply cl_fenceStack hP.toQuiet) | (apply Quiet.put hP.toQuiet) | (apply cl_foldl) | split) | ((apply Quiet.mk' hP.toQuiet); (apply Quiet.mk' hP.toQuiet); first | assumption | (apply cl_put hP.toQuiet) | (apply cl_autoRepair hP.toQuiet) | (apply cl_nameMacro hP) | (apply cl_startFail hP.toQuiet) | (apply cl_fenceStack hP.toQuiet) | (apply Quiet.put hP.toQuiet) | (apply cl_foldl) | split) | split | (apply cl_foldl) | (intro _ _) | (intro _)

theorem cl_putProfile (hP : Quiet P) (s : State) (p : Profile) (hs : P s) : P (State.putProfile s p) := by
  unfold State.putProfile; try dsimp only
  with_reducible repeat' first | assumption | (apply cl_putFields hP) | (apply cl_put hP) | (apply Quiet.put hP) | split | (apply cl_foldl) | (intro _ _) | (intro _)

theorem cl_trainQuays (hP : Closed P) (s : State) (up : List Nat) (hs : P s) : P (State.trainQuays s up) := by
  unfold State.trainQuays; try dsimp only
  with_reducible repeat' first | assumption | (apply cl_put hP.toQuiet) | (apply cl_quayTrains hP) | (apply cl_putQuay hP.toQuiet) | (apply Quiet.put hP.toQuiet) | ((apply Quiet.mk' hP.toQuiet); first | assumption | (apply cl_put hP.toQuiet) | (apply cl_quayTrains hP) | (apply cl_putQuay hP.toQuiet) | (apply Quiet.put hP.toQuiet) | (apply cl_foldl) | split) | ((apply Quiet.mk' hP.toQuiet); (apply Quiet.mk' hP.toQuiet); first | assumption | (apply cl_put hP.toQuiet) | (apply cl_quayTrains hP) | (apply cl_putQuay hP.toQuiet) | (apply Quiet.put hP.toQuiet) | (apply cl_foldl) | split) | split | (apply cl_foldl) | (intro _ _) | (intro _)

theorem cl_joinStep (hP : Closed P) (s : State) (r : StartReport) (hs : P s) : P (State.joinStep s r) := by
  unfold State.joinStep; try dsimp only
  with_reducible repeat' first | assumption | (apply cl_ok hP.toQuiet) | (apply cl_send hP.toQuiet) | (apply cl_putProfile hP.toQuiet) | (apply cl_trainQuays hP) | (apply cl_startTide hP.toQuiet) | (apply cl_podJoin hP.toQuiet) | (apply Quiet.put hP.toQuiet) | split

theorem cl_sizeTable (hP : Quiet P) (s : State) (r : StartReport) (kp ks : Nat) (hs : P s) : P (State.sizeTable s r kp ks) := by
  unfold State.sizeTable; try dsimp only
  with_reducible repeat' first | assumption | (apply cl_put hP) | (apply Quiet.put hP) | split

theorem cl_finish (hP : Quiet P) (s : State) (r : StartReport) (hs : P s) : P (State.finish s r) := by
  unfold State.finish; try dsimp only
  with_reducible repeat' first | assumption | (apply cl_startStep hP) | (apply cl_startFail hP) | (apply cl_sizeTable hP) | (apply cl_logStart hP) | (apply Quiet.put hP) | split | (intro _ _) | (intro _)

theorem cl_startUp (hP : Closed P) (s : State) (r : StartReport) (hs : P s) : P (State.startUp s r) := by
  unfold State.startUp; try dsimp only
  with_reducible repeat' first | assumption | (apply cl_put hP.toQuiet) | (apply cl_startStep hP.toQuiet) | (apply cl_bootStep hP) | (apply cl_applyImage hP.toQuiet) | (apply cl_startFail hP.toQuiet) | (apply cl_testStep hP) | (apply cl_joinStep hP) | (apply cl_finish hP.toQuiet) | (apply Quiet.put hP.toQuiet) | split | (intro _ _) | (intro _)

theorem cl_execStartUp (hP : Closed P) (report : StartReport) (s : State) (hs : P s) : OutP P (execStartUp report s) := by
  unfold execStartUp
  with_reducible repeat' first | assumption | (apply cl_ok hP.toQuiet) | (apply cl_startUp hP) | (apply cl_finish hP.toQuiet) | (apply Quiet.put hP.toQuiet) | split | (apply OutP.ok) | (apply OutP.next)

end Sys2Proof.Laws
end

