-- ==== Sys2Proof/Laws/KeepsBoundary.lean ====
section
/-! SUPPORT. What the functions of Machine/Boundary.lean keep: see Laws/Closed.lean. -/

set_option linter.unusedTactic false
set_option linter.unreachableTactic false

namespace Sys2Proof.Laws

open Sys2Proof.Machine

variable {P : State → Prop}

theorem cl_noteSaturation (hP : Quiet P) (s : State) (sat : Nat) (hs : P s) : P (State.noteSaturation s sat) := by
  unfold State.noteSaturation
  with_reducible repeat' first | assumption | (apply cl_inc hP) | (apply Quiet.put hP) | split

theorem cl_endTide (hP : Closed P) (s : State) (hs : P s) : P (State.endTide s) := by
  unfold State.endTide; try dsimp only
  with_reducible repeat' first | assumption | (apply cl_put hP.toQuiet) | (apply cl_malformed hP) | (apply Quiet.put hP.toQuiet) | ((apply Quiet.mk' hP.toQuiet); first | assumption | (apply cl_put hP.toQuiet) | (apply cl_malformed hP) | (apply Quiet.put hP.toQuiet) | split) | ((apply Quiet.mk' hP.toQuiet); (apply Quiet.mk' hP.toQuiet); first | assumption | (apply cl_put hP.toQuiet) | (apply cl_malformed hP) | (apply Quiet.put hP.toQuiet) | split) | split | (intro _ _) | (intro _)

theorem cl_nextTide (hP : Quiet P) (s : State) (hs : P s) : P (State.nextTide s) := by
  unfold State.nextTide; try dsimp only
  with_reducible repeat' first | assumption | (apply cl_put hP) | (apply Quiet.put hP) | ((apply Quiet.mk' hP); first | assumption | (apply cl_put hP) | (apply Quiet.put hP) | split) | ((apply Quiet.mk' hP); (apply Quiet.mk' hP); first | assumption | (apply cl_put hP) | (apply Quiet.put hP) | split) | split

theorem cl_liftForced (hP : Quiet P) (s : State) (hs : P s) : P (State.liftForced s) := by
  unfold State.liftForced
  with_reducible repeat' first | assumption | (apply Quiet.put hP) | ((apply Quiet.mk' hP); first | assumption | (apply Quiet.put hP) | split) | ((apply Quiet.mk' hP); (apply Quiet.mk' hP); first | assumption | (apply Quiet.put hP) | split) | split

theorem cl_applyStep (hP : Quiet P) (s : State) (hs : P s) : P (State.applyStep s) := by
  unfold State.applyStep; try dsimp only
  with_reducible repeat' first | assumption | (apply cl_setStep hP) | (apply Quiet.put hP) | ((apply Quiet.mk' hP); first | assumption | (apply cl_setStep hP) | (apply Quiet.put hP) | split) | ((apply Quiet.mk' hP); (apply Quiet.mk' hP); first | assumption | (apply cl_setStep hP) | (apply Quiet.put hP) | split) | split

theorem cl_applyLimits (hP : Quiet P) (s : State) (hs : P s) : P (State.applyLimits s) := by
  unfold State.applyLimits
  with_reducible repeat' first | assumption | (apply cl_takeLimits hP) | (apply cl_liftForced hP) | (apply cl_applyStep hP) | (apply Quiet.put hP) | split

theorem cl_applyCommits (hP : Closed P) (s : State) (hs : P s) : P (State.applyCommits s) := by
  unfold State.applyCommits; try dsimp only
  with_reducible repeat' first | assumption | (apply cl_applyPod hP) | (apply cl_commitLocals hP) | (apply cl_commitGroups hP) | (apply cl_showAppends hP) | (apply cl_decideAll hP.toQuiet) | (apply cl_pruneLog hP.toQuiet) | (apply cl_mirror hP.toQuiet) | (apply Quiet.put hP.toQuiet) | split

theorem cl_evictWhole (hP : Closed P) (s : State) (m : Nat) (hs : P s) : P (State.evictWhole s m) := by
  unfold State.evictWhole
  with_reducible repeat' first | assumption | (apply cl_loseBlocks hP) | (apply Quiet.put hP.toQuiet) | split | (intro _ _) | (intro _)

theorem cl_modeRestart (hP : Closed P) (s : State) (hs : P s) : P (State.modeRestart s) := by
  unfold State.modeRestart; try dsimp only
  with_reducible repeat' first | assumption | (apply cl_evictWhole hP) | (apply Quiet.put hP.toQuiet) | ((apply Quiet.mk' hP.toQuiet); first | assumption | (apply cl_evictWhole hP) | (apply Quiet.put hP.toQuiet) | (apply cl_foldl) | split) | ((apply Quiet.mk' hP.toQuiet); (apply Quiet.mk' hP.toQuiet); first | assumption | (apply cl_evictWhole hP) | (apply Quiet.put hP.toQuiet) | (apply cl_foldl) | split) | split | (apply cl_foldl) | (intro _ _) | (intro _)

theorem cl_lookupsComplete (hP : Quiet P) (s : State) (j : Job) (hs : P s) : P (State.lookupsComplete s j) := by
  unfold State.lookupsComplete; try dsimp only
  with_reducible repeat' first | assumption | (apply cl_putJob hP) | (apply Quiet.put hP) | ((apply Quiet.mk' hP); first | assumption | (apply cl_putJob hP) | (apply Quiet.put hP) | split) | ((apply Quiet.mk' hP); (apply Quiet.mk' hP); first | assumption | (apply cl_putJob hP) | (apply Quiet.put hP) | split) | split

theorem cl_checkSections (hP : Closed P) (s : State) (j : Job) (hs : P s) : P (State.checkSections s j) := by
  unfold State.checkSections; try dsimp only
  with_reducible repeat' first | assumption | (apply cl_lookupsComplete hP.toQuiet) | (apply cl_endJob hP) | (apply cl_putJob hP.toQuiet) | (apply cl_useRetry hP.toQuiet) | (apply Quiet.put hP.toQuiet) | ((apply Quiet.mk' hP.toQuiet); first | assumption | (apply cl_lookupsComplete hP.toQuiet) | (apply cl_endJob hP) | (apply cl_putJob hP.toQuiet) | (apply cl_useRetry hP.toQuiet) | (apply Quiet.put hP.toQuiet) | split) | ((apply Quiet.mk' hP.toQuiet); (apply Quiet.mk' hP.toQuiet); first | assumption | (apply cl_lookupsComplete hP.toQuiet) | (apply cl_endJob hP) | (apply cl_putJob hP.toQuiet) | (apply cl_useRetry hP.toQuiet) | (apply Quiet.put hP.toQuiet) | split) | split | (intro _ _) | (intro _)

theorem cl_checkLookups (hP : Closed P) (s : State) (hs : P s) : P (State.checkLookups s) := by
  unfold State.checkLookups
  with_reducible repeat' first | assumption | (apply cl_checkSections hP) | (apply Quiet.put hP.toQuiet) | split | (apply cl_foldl) | (intro _ _) | (intro _)

theorem cl_dispatchReady (hP : Quiet P) (s : State) (hs : P s) : P (State.dispatchReady s) := by
  unfold State.dispatchReady
  with_reducible repeat' first | assumption | (apply cl_dispatchUnit hP) | (apply Quiet.put hP) | split | (apply cl_foldl) | (intro _ _) | (intro _)

theorem cl_reserveAborted (hP : Quiet P) (s : State) (hs : P s) : P (State.reserveAborted s) := by
  unfold State.reserveAborted
  with_reducible repeat' first | assumption | (apply cl_setStream hP) | (apply Quiet.put hP) | ((apply Quiet.mk' hP); first | assumption | (apply cl_setStream hP) | (apply Quiet.put hP) | (apply cl_foldl) | split) | ((apply Quiet.mk' hP); (apply Quiet.mk' hP); first | assumption | (apply cl_setStream hP) | (apply Quiet.put hP) | (apply cl_foldl) | split) | split | (apply cl_foldl) | (intro _ _) | (intro _)

theorem cl_ageHotRows (hP : Quiet P) (s : State) (hs : P s) : P (State.ageHotRows s) := by
  unfold State.ageHotRows; try dsimp only
  with_reducible repeat' first | assumption | (apply Quiet.put hP) | ((apply Quiet.mk' hP); first | assumption | (apply Quiet.put hP) | split) | ((apply Quiet.mk' hP); (apply Quiet.mk' hP); first | assumption | (apply Quiet.put hP) | split) | split | (intro _ _) | (intro _)

theorem cl_plan (hP : Closed P) (s : State) (hs : P s) : P (State.plan s) := by
  unfold State.plan; try dsimp only
  with_reducible repeat' first | assumption | (apply cl_loadAgain hP) | (apply cl_startLoaders hP.toQuiet) | (apply cl_checkLookups hP) | (apply cl_sendProbes hP) | (apply cl_reserveAborted hP.toQuiet) | (apply cl_ageHotRows hP.toQuiet) | (apply cl_dispatchReady hP.toQuiet) | (apply cl_heartbeats hP.toQuiet) | (apply cl_leaveDone hP.toQuiet) | (apply cl_reportReady hP.toQuiet) | (apply cl_stopTide hP.toQuiet) | (apply cl_put hP.toQuiet) | (apply Quiet.put hP.toQuiet) | split

theorem cl_boundary (hP : Closed P) (s : State) (sat : Nat) (overruns : List (Nat × Nat × Nat)) (hs : P s) : P (State.boundary s sat overruns) := by
  unfold State.boundary; try dsimp only
  with_reducible repeat' first | assumption | (apply cl_withHists hP) | (apply cl_endFailedHists hP) | (apply cl_noteSaturation hP.toQuiet) | (apply cl_endTide hP) | (apply cl_nextTide hP.toQuiet) | (apply cl_overdue hP) | (apply cl_applyLimits hP.toQuiet) | (apply cl_applyCommits hP) | (apply cl_snapCut hP.toQuiet) | (apply cl_chargeDebts hP.toQuiet) | (apply cl_checkGuarantees hP) | (apply cl_modeRestart hP) | (apply cl_admitAll hP) | (apply cl_plan hP) | (apply Quiet.put hP.toQuiet) | ((apply Quiet.mk' hP.toQuiet); first | assumption | (apply cl_withHists hP) | (apply cl_endFailedHists hP) | (apply cl_noteSaturation hP.toQuiet) | (apply cl_endTide hP) | (apply cl_nextTide hP.toQuiet) | (apply cl_overdue hP) | (apply cl_applyLimits hP.toQuiet) | (apply cl_applyCommits hP) | (apply cl_snapCut hP.toQuiet) | (apply cl_chargeDebts hP.toQuiet) | (apply cl_checkGuarantees hP) | (apply cl_modeRestart hP) | (apply cl_admitAll hP) | (apply cl_plan hP) | (apply Quiet.put hP.toQuiet) | split) | ((apply Quiet.mk' hP.toQuiet); (apply Quiet.mk' hP.toQuiet); first | assumption | (apply cl_withHists hP) | (apply cl_endFailedHists hP) | (apply cl_noteSaturation hP.toQuiet) | (apply cl_endTide hP) | (apply cl_nextTide hP.toQuiet) | (apply cl_overdue hP) | (apply cl_applyLimits hP.toQuiet) | (apply cl_applyCommits hP) | (apply cl_snapCut hP.toQuiet) | (apply cl_chargeDebts hP.toQuiet) | (apply cl_checkGuarantees hP) | (apply cl_modeRestart hP) | (apply cl_admitAll hP) | (apply cl_plan hP) | (apply Quiet.put hP.toQuiet) | split) | split

theorem cl_execTideBoundary (hP : Closed P) (sat : Nat) (overruns : List (Nat × Nat × Nat)) (s : State) (hs : P s) : OutP P (execTideBoundary sat overruns s) := by
  unfold execTideBoundary
  with_reducible repeat' first | assumption | (apply cl_ok hP.toQuiet) | (apply cl_boundary hP) | (apply Quiet.put hP.toQuiet) | split | (apply OutP.ok) | (apply OutP.next)

end Sys2Proof.Laws
end

