-- ==== Sys2Proof/Laws/Memory.lean ====
section
/-! SUPPORT. Every operation that writes device memory or host memory keeps the canonical form of both. -/

namespace Sys2Proof.Laws

open Sys2Proof.Machine Sys2Proof.Safety

/-- What an unlisted address reads as, with a range cut out of the undefined ranges: the same outside the cut. -/
theorem memDefault_cutUndef (a b x : Nat) (u : List (Nat × Nat × Nat)) (h : ¬ (a ≤ x ∧ x < b)) :
    memDefault (cutUndef a b u) x = memDefault u x := by
  unfold memDefault
  suffices hf : ((cutUndef a b u).find? fun e => decide (e.1 ≤ x) && decide (x < e.2.1)).map (fun e => e.2.2) =
      (u.find? fun e => decide (e.1 ≤ x) && decide (x < e.2.1)).map (fun e => e.2.2) by
    revert hf
    generalize List.find? _ (cutUndef a b u) = p
    generalize List.find? _ u = q
    intro hf
    cases p <;> cases q <;> simp_all
  induction u with
  | nil => rfl
  | cons e u ih =>
    obtain ⟨lo, hi, st⟩ := e
    unfold cutUndef at ih ⊢
    rw [List.flatMap_cons, List.find?_append]
    by_cases hx : lo ≤ x ∧ x < hi
    · have h1 : (List.find? (fun e : Nat × Nat × Nat => decide (e.1 ≤ x) && decide (x < e.2.1)) ((lo, hi, st) :: u)) = some (lo, hi, st) := by
        simp [hx]
      rw [h1]
      by_cases hb : x < a
      · have c1 : lo < min hi a := by omega
        have c2 : x < min hi a := by omega
        simp [List.filter_cons, c1, c2, hx.1]
      · have hb2 : b ≤ x := by omega
        have c1 : max lo b < hi := by omega
        have c3 : ¬ (x < min hi a) := by omega
        have c4 : max lo b ≤ x := by omega
        have c5 : ¬ (x < a) := hb
        by_cases c2 : lo < min hi a
        · simp [List.filter_cons, c1, c2, c5, c4, hx.2]
        · simp [List.filter_cons, c1, c2, c4, hx.2]
    · have h1 : (List.find? (fun e : Nat × Nat × Nat => decide (e.1 ≤ x) && decide (x < e.2.1)) ((lo, hi, st) :: u)) =
          List.find? (fun e : Nat × Nat × Nat => decide (e.1 ≤ x) && decide (x < e.2.1)) u := by
        rw [List.find?_cons_of_neg]
        simp only [Bool.and_eq_true, decide_eq_true_eq]; exact hx
      rw [h1, ← ih]
      have h2 : List.find? (fun e : Nat × Nat × Nat => decide (e.1 ≤ x) && decide (x < e.2.1))
          ([(lo, min hi a, st), (max lo b, hi, st)].filter fun e => decide (e.1 < e.2.1)) = none := by
        rw [List.find?_eq_none]
        intro e he
        have he := (List.mem_filter.1 he).1
        simp only [List.mem_cons, List.not_mem_nil, or_false] at he
        rcases he with rfl | rfl <;> simp only [Bool.and_eq_true, decide_eq_true_eq] <;> omega
      rw [h2]; rfl

/-- Dropping a range of keys leaves entries outside it alone. -/
theorem mem_dropRange {α : Type} (lo hi : Nat) (t : Tab α) (e : Nat × α) : e ∈ Tab.dropRange lo hi t ↔ e ∈ t ∧ ¬ (lo ≤ e.1 ∧ e.1 < hi) := by
  unfold Tab.dropRange
  rw [List.mem_filter]
  simp only [Bool.not_eq_true', Bool.and_eq_false_iff, decide_eq_false_iff_not]
  constructor
  · rintro ⟨h, h2⟩; exact ⟨h, by omega⟩
  · rintro ⟨h, h2⟩; exact ⟨h, by omega⟩

theorem pokeByte_mem (s : State) (v : View) (a : Nat) (b : Byte) (h : MemOk s) : MemOk (s.pokeByte v a b) := by
  unfold State.pokeByte
  split
  · exact h
  · exact Tab.set_wf _ _ _ _ h

theorem pokeBytes_mem (s : State) (v : View) (a : Nat) (l : List Byte) (h : MemOk s) : MemOk (s.pokeBytes v a l) := by
  induction l generalizing s a with
  | nil => exact h
  | cons b l ih => exact ih _ _ (pokeByte_mem s v a b h)

theorem zero_mem (s : State) (a n : Nat) (h : MemOk s) : MemOk (s.zero a n) := by
  unfold MemOk State.zero
  dsimp only
  have h1 : Tab.wf (memDefault s.undef) (Tab.dropRange a (a + n) s.mem) = true := Tab.filter_wf _ _ _ h
  refine Tab.wf_congr _ ?_ h1
  intro e he
  rw [mem_dropRange] at he
  rw [memDefault_cutUndef _ _ _ _ he.2]

theorem scramble_mem (s : State) (a n : Nat) (h : MemOk s) : MemOk (s.scramble a n) := by
  unfold MemOk State.scramble
  dsimp only
  have h1 : Tab.wf (memDefault s.undef) (Tab.dropRange a (a + n) s.mem) = true := Tab.filter_wf _ _ _ h
  refine Tab.wf_congr _ ?_ h1
  intro e he
  rw [mem_dropRange] at he
  unfold memDefault
  rw [List.find?_cons_of_neg]
  simp only [Bool.and_eq_true, decide_eq_true_eq]; exact he.2

/-- An address in no undefined range reads 0 where it is unlisted. -/
theorem memDefault_zero (u : List (Nat × Nat × Nat)) (a n x : Nat)
    (hu : (u.any fun e => decide (e.1 < a + n) && decide (a < e.2.1)) = false) (hx : a ≤ x ∧ x < a + n) : memDefault u x = 0 := by
  unfold memDefault
  have hn : (u.find? fun e => decide (e.1 ≤ x) && decide (x < e.2.1)) = none := by
    rw [List.find?_eq_none]
    intro e he
    have h2 := List.any_eq_false.1 hu e he
    simp only [Bool.and_eq_true, decide_eq_true_eq] at h2 ⊢
    omega
  rw [hn]

/-- Moving a range keeps the canonical form where both ranges read 0 when unlisted. -/
theorem move_wf {α : Type} [DecidableEq α] (d : Nat → α) (z : α) (src dst n : Nat) (t : Tab α) (h : Tab.wf d t = true)
    (h1 : ∀ x, src ≤ x ∧ x < src + n → d x = z) (h2 : ∀ x, dst ≤ x ∧ x < dst + n → d x = z) : Tab.wf d (Tab.move src dst n t) = true := by
  rw [Tab.wf_iff] at *
  unfold Tab.move
  constructor
  · refine Tab.append_rising dst (dst + n) _ _ _ (h.1.filter _) (Tab.slice_rising _ _ _ _ h.1) (h.1.filter _) ?_ ?_ ?_ (by omega)
    · intro e he; simpa using (List.mem_filter.1 he).2
    · intro e he
      have := Tab.mem_slice _ _ _ _ _ he
      omega
    · intro e he; simpa using (List.mem_filter.1 he).2
  · intro e he
    rw [List.append_assoc, List.mem_append, List.mem_append] at he
    rcases he with he | he | he
    · exact h.2 e (List.mem_filter.1 he).1
    · have hm := Tab.mem_slice _ _ _ _ _ he
      have := h.2 _ hm.2.2
      rw [h1 _ (by dsimp only; omega)] at this
      rw [h2 _ (by omega)]
      exact this
    · exact h.2 e (List.mem_filter.1 he).1

theorem copyMem_mem (s : State) (a b n : Nat) (h : MemOk s) : MemOk (s.copyMem a b n) := by
  have hd : ∀ t : State, MemOk t → MemOk (t.dropHot b n) := by
    intro t ht; unfold State.dropHot; split <;> exact ht
  have hs : (s.dropHot b n).mem = s.mem ∧ (s.dropHot b n).undef = s.undef := by
    unfold State.dropHot; split <;> exact ⟨rfl, rfl⟩
  unfold State.copyMem
  dsimp only
  split
  · exact pokeBytes_mem _ _ _ _ (hd s h)
  · rename_i hn
    simp only [State.special, Bool.or_eq_true, not_or, Bool.not_eq_true] at hn
    unfold MemOk
    dsimp only
    rw [hs.1, hs.2]
    exact move_wf _ 0 _ _ _ _ h (fun x hx => memDefault_zero _ _ _ _ hn.1.1 hx) (fun x hx => memDefault_zero _ _ _ _ hn.2.1 hx)

theorem moveSets_mem (s : State) (a b n : Nat) (h : MemOk s) : MemOk (s.moveSets a b (a + n)) := by
  have hr : Tab.Rising ((s.mem.filter fun e => decide (e.1 < a) && decide (e.1 < hbmTop)) ++
      Tab.slice b (min hbmTop (hbmTop + b - (a + n))) (a + n) s.mem ++ (s.mem.filter fun e => decide (hbmTop ≤ e.1))) := by
    have h1 := ((Tab.wf_iff _ _).1 h).1
    refine Tab.append_rising (min (a + n) hbmTop) hbmTop _ _ _ (h1.filter _) (Tab.slice_rising _ _ _ _ h1) (h1.filter _) ?_ ?_ ?_ (by omega)
    · intro e he
      have := (List.mem_filter.1 he).2
      simp only [Bool.and_eq_true, decide_eq_true_eq] at this
      omega
    · intro e he
      have := Tab.mem_slice _ _ _ _ _ he
      omega
    · intro e he; simpa using (List.mem_filter.1 he).2
  unfold MemOk State.moveSets
  dsimp only
  rw [Tab.wf_iff]
  constructor
  · refine List.Pairwise.filter _ ?_
    split
    · unfold State.scramble Tab.dropRange
      exact List.Pairwise.filter _ hr
    · exact hr
  · intro e he
    have := (List.mem_filter.1 he).2
    simpa using this

theorem hostByte_host (s : State) (b : Nat) (x : Byte) (h : HostOk s) : HostOk { s with host := Tab.set (fun _ => 0) b x s.host } :=
  Tab.set_wf _ _ _ _ h

theorem keep_host {s t : State} (e : t.host = s.host) (h : HostOk s) : HostOk t := by unfold HostOk; rw [e]; exact h

/-- The invariant looks at the two memories alone, and every operation that writes either keeps it. -/
theorem inv_closed : Closed Inv where
  same := by
    intro s t _ h2 h3 h4 _ _ h
    refine ⟨?_, keep_host h4 h.2⟩
    have := h.1
    unfold MemOk at *
    rw [h2, h3]; exact this
  put := fun s f i v h => h
  sent := by
    intro s t l _ h2 h3 h4 _ _ h
    refine ⟨?_, keep_host h4 h.2⟩
    have := h.1
    unfold MemOk at *
    rw [h2, h3]; exact this
  hostByte := fun s b x h => ⟨h.1, hostByte_host s b x h.2⟩
  poke := fun s v a b h => ⟨pokeByte_mem s v a b h.1, by unfold State.pokeByte; split <;> exact h.2⟩
  zero := fun s a n h => ⟨zero_mem s a n h.1, keep_host (by unfold State.zero State.dropHot; dsimp only; split <;> rfl) h.2⟩
  copy := fun s a b n h => ⟨copyMem_mem s a b n h.1, by
    have hp : ∀ (t : State) v l c, HostOk t → HostOk (t.pokeBytes v c l) := by
      intro t v l
      induction l generalizing t with
      | nil => exact fun _ ht => ht
      | cons x l ih => exact fun c ht => ih _ _ (by unfold State.pokeByte; split <;> exact ht)
    have hd : HostOk (s.dropHot b n) := by unfold State.dropHot; split <;> exact h.2
    unfold State.copyMem
    dsimp only
    split
    · exact hp _ _ _ _ hd
    · exact hd⟩
  scramble := fun s a n h => ⟨scramble_mem s a n h.1, h.2⟩
  moveSets := fun s a b n h => ⟨moveSets_mem s a b n h.1, by
    unfold State.moveSets
    dsimp only
    split <;> exact h.2⟩
  clear := by
    intro s t p _ h2 h3 h4 _ _ h
    refine ⟨?_, keep_host h4 h.2⟩
    unfold MemOk
    rw [h2, h3]; rfl

end Sys2Proof.Laws
end

