-- ==== Sys2Proof/Laws/Keeps.lean ====
section
/-! SUPPORT. Every command keeps a closed predicate: the case split over the commands, from the lemmas of Keeps<File>.lean. -/

set_option linter.unusedTactic false
set_option linter.unreachableTactic false

namespace Sys2Proof.Laws

open Sys2Proof.Machine

variable {P : State → Prop}

/-- The meaning of every command keeps a closed predicate. -/
theorem cl_exec (hP : Closed P) (c : Instr) (s : State) (hs : P s) : OutP P (exec c s) := by
  cases c with
  | tideBoundary sat overruns => exact cl_execTideBoundary hP sat overruns s hs
  | epochRetire cons => exact cl_execEpochRetire hP cons s hs
  | modelVersionRetire model version => exact cl_execModelVersionRetire hP model version s hs
  | descriptorFetch ring => exact cl_execDescriptorFetch hP.toQuiet ring s hs
  | descriptorReadComplete ring ok => exact cl_execDescriptorReadComplete hP.toQuiet ring ok s hs
  | run ring sq => exact cl_execRun hP ring sq s hs
  | consign ring sq => exact cl_execConsign hP ring sq s hs
  | nop ring sq => exact cl_execNop hP ring sq s hs
  | interruptCoalesceTimeout ring => exact cl_execInterruptCoalesceTimeout hP.toQuiet ring s hs
  | msixUnmask port vector => exact cl_execMsixUnmask hP.toQuiet port vector s hs
  | jobDeadline job => exact cl_execJobDeadline hP job s hs
  | unitDispatch job unit => exact cl_execUnitDispatch hP.toQuiet job unit s hs
  | streamStart stream job unit task bind => exact cl_execStreamStart hP stream job unit task bind s hs
  | reservationTake stream => exact cl_execReservationTake hP.toQuiet stream s hs
  | remoteReservationGrant quay device stream granules => exact cl_execRemoteReservationGrant hP.toQuiet quay device stream granules s hs
  | manifestEnd stream => exact cl_execManifestEnd hP.toQuiet stream s hs
  | loop stream => exact cl_execLoop hP.toQuiet stream s hs
  | stride stream => exact cl_execStride hP stream s hs
  | emit stream => exact cl_execEmit hP stream s hs
  | gather stream => exact cl_execGather hP stream s hs
  | align stream => exact cl_execAlign hP stream s hs
  | waitslotSlot stream => exact cl_execWaitslotSlot hP.toQuiet stream s hs
  | waitslotBarrier stream => exact cl_execWaitslotBarrier hP stream s hs
  | waitslotReread stream => exact cl_execWaitslotReread hP stream s hs
  | signal stream => exact cl_execSignal hP stream s hs
  | tagGrant turn => exact cl_execTagGrant hP.toQuiet turn s hs
  | readyBitSet stream receiver slot => exact cl_execReadyBitSet hP.toQuiet stream receiver slot s hs
  | tileAccept stream receiver => exact cl_execTileAccept hP stream receiver s hs
  | streamEnd stream => exact cl_execStreamEnd hP.toQuiet stream s hs
  | receiverDetach stream receiver => exact cl_execReceiverDetach hP.toQuiet stream receiver s hs
  | catchupStreamStart stevedore => exact cl_execCatchupStreamStart hP stevedore s hs
  | streamFault stream unit reason => exact cl_execStreamFault hP stream unit reason s hs
  | resumeStream word => exact cl_execResumeStream hP word s hs
  | resumeKilnTask task reserved gen => exact cl_execResumeKilnTask hP task reserved gen s hs
  | mutualWaitProbe stream chain => exact cl_execMutualWaitProbe hP stream chain s hs
  | layer kiln slot => exact cl_execLayer hP kiln slot s hs
  | bankExchange kiln chargeWait lookupWait => exact cl_execBankExchange hP kiln chargeWait lookupWait s hs
  | taskSwitch kiln cycles => exact cl_execTaskSwitch hP.toQuiet kiln cycles s hs
  | rowWatermarkAdvance kiln slot row => exact cl_execRowWatermarkAdvance hP kiln slot row s hs
  | loadpin kiln slot => exact cl_execLoadpin hP kiln slot s hs
  | swap kiln slot => exact cl_execSwap hP kiln slot s hs
  | arrive kiln slot => exact cl_execArrive hP kiln slot s hs
  | waitbar kiln slot => exact cl_execWaitbar hP kiln slot s hs
  | waitbarReread kiln slot => exact cl_execWaitbarReread hP kiln slot s hs
  | clearbar kiln slot => exact cl_execClearbar hP kiln slot s hs
  | kilnEnd kiln slot => exact cl_execKilnEnd hP kiln slot s hs
  | hmul kiln slot wait lost => exact cl_execHmul hP kiln slot wait lost s hs
  | hvec kiln slot lost => exact cl_execHvec hP kiln slot lost s hs
  | kilnFault kiln source => exact cl_execKilnFault hP kiln source s hs
  | kilnProgressTimeout kiln => exact cl_execKilnProgressTimeout hP kiln s hs
  | taskRestart job unit task kiln slot base slots => exact cl_execTaskRestart hP job unit task kiln slot base slots s hs
  | noswitchViolation kiln slot => exact cl_execNoswitchViolation hP kiln slot s hs
  | taskEvict kiln => exact cl_execTaskEvict hP kiln s hs
  | evictedTaskReturn job unit task kiln slot base slots => exact cl_execEvictedTaskReturn hP.toQuiet job unit task kiln slot base slots s hs
  | warehouseRead addr len who upsets => exact cl_execWarehouseRead hP addr len who upsets s hs
  | warehouseWrite addr who data => exact cl_execWarehouseWrite hP addr who data s hs
  | bitSetWrite addr who data => exact cl_execBitSetWrite hP addr who data s hs
  | bitClearWrite addr who data => exact cl_execBitClearWrite hP addr who data s hs
  | wayStop die way => exact cl_execWayStop hP die way s hs
  | wayStopped die way => exact cl_execWayStopped hP die way s hs
  | modelBlockMove die way => exact cl_execModelBlockMove hP die way s hs
  | wayRestart die way => exact cl_execWayRestart hP die way s hs
  | destructStart engine => exact cl_execDestructStart hP.toQuiet engine s hs
  | destructiveTestDone engine fault => exact cl_execDestructiveTestDone hP engine fault s hs
  | preservingPass engine addr failed column lost => exact cl_execPreservingPass hP engine addr failed column lost s hs
  | marchPassAbort engine addr lost => exact cl_execMarchPassAbort hP engine addr lost s hs
  | repairBurn kind unit macroNo column => exact cl_execRepairBurn hP.toQuiet kind unit macroNo column s hs
  | repairBurnDone => exact cl_execRepairBurnDone hP s hs
  | tableEnable table answer => exact cl_execTableEnable hP table answer s hs
  | tableDisable table => exact cl_execTableDisable hP table s hs
  | tableDisableDone table => exact cl_execTableDisableDone hP table s hs
  | sectionTally job sect => exact cl_execSectionTally hP job sect s hs
  | ladingPart part => exact cl_execLadingPart hP part s hs
  | indexCut => exact cl_execIndexCut hP.toQuiet s hs
  | recordReadReturn crane entry => exact cl_execRecordReadReturn hP crane entry s hs
  | pooledSlice jobRef table part bag slot attempt data => exact cl_execPooledSlice hP jobRef table part bag slot attempt data s hs
  | partDone jobRef table part slot status attempt pressure => exact cl_execPartDone hP jobRef table part slot status attempt pressure s hs
  | slicePressureMark => exact cl_execSlicePressureMark hP.toQuiet s hs
  | rawRequest table gen epoch index device cls tag => exact cl_execRawRequest hP table gen epoch index device cls tag s hs
  | rawCopy crane entry sender status data => exact cl_execRawCopy hP crane entry sender status data s hs
  | consignmentPrepare cons => exact cl_execConsignmentPrepare hP cons s hs
  | pageWrite cons => exact cl_execPageWrite hP cons s hs
  | parityDelta cons => exact cl_execParityDelta hP cons s hs
  | rootSet cons => exact cl_execRootSet hP cons s hs
  | rescaleSwap cons => exact cl_execRescaleSwap hP cons s hs
  | pin cons => exact cl_execPin hP cons s hs
  | unpin cons => exact cl_execUnpin hP cons s hs
  | prepareDone cons => exact cl_execPrepareDone hP cons s hs
  | prepareTimeout cons => exact cl_execPrepareTimeout hP cons s hs
  | vote vote => exact cl_execVote hP.toQuiet vote s hs
  | voteTimeout cons => exact cl_execVoteTimeout hP.toQuiet cons s hs
  | decisionToPodMaster decision voters => exact cl_execDecisionToPodMaster hP.toQuiet decision voters s hs
  | decision decision late => exact cl_execDecision hP decision late s hs
  | notice decision => exact cl_execNotice hP.toQuiet decision s hs
  | retireAt cons tr => exact cl_execRetireAt hP.toQuiet cons tr s hs
  | query cons group device => exact cl_execQuery hP.toQuiet cons group device s hs
  | ack of device => exact cl_execAck hP.toQuiet of device s hs
  | inDoubtTimeout cons => exact cl_execInDoubtTimeout hP.toQuiet cons s hs
  | vc0Resend => exact cl_execVc0Resend hP.toQuiet s hs
  | historyRead job => exact cl_execHistoryRead hP job s hs
  | historyAppend job => exact cl_execHistoryAppend hP job s hs
  | historyCreate job => exact cl_execHistoryCreate hP job s hs
  | historyTrim job => exact cl_execHistoryTrim hP job s hs
  | historyRelease job => exact cl_execHistoryRelease hP job s hs
  | historyFree hist => exact cl_execHistoryFree hP hist s hs
  | frameReturn hist => exact cl_execFrameReturn hP.toQuiet hist s hs
  | chunkStep job step => exact cl_execChunkStep hP job step s hs
  | chunkStepComplete job result => exact cl_execChunkStepComplete hP job result s hs
  | historyAppendFail job => exact cl_execHistoryAppendFail hP job s hs
  | historyStop => exact cl_execHistoryStop hP.toQuiet s hs
  | historyStopped => exact cl_execHistoryStopped hP.toQuiet s hs
  | historyStart => exact cl_execHistoryStart hP s hs
  | modelAdd model => exact cl_execModelAdd hP model s hs
  | modelRemove model => exact cl_execModelRemove hP model s hs
  | modelRemoved model => exact cl_execModelRemoved hP model s hs
  | modelLoadDone model => exact cl_execModelLoadDone hP model s hs
  | modelBlockReload model block job => exact cl_execModelBlockReload hP model block job s hs
  | admissionStop => exact cl_execAdmissionStop hP.toQuiet s hs
  | admissionDrained => exact cl_execAdmissionDrained hP.toQuiet s hs
  | admissionStart => exact cl_execAdmissionStart hP.toQuiet s hs
  | chsetStop set => exact cl_execChsetStop hP.toQuiet set s hs
  | chsetRestart set => exact cl_execChsetRestart hP set s hs
  | freezeResetRing ring => exact cl_execFreezeResetRing hP.toQuiet ring s hs
  | freezeResetStream stream => exact cl_execFreezeResetStream hP.toQuiet stream s hs
  | freezeResetKilnTask task => exact cl_execFreezeResetKilnTask hP.toQuiet task s hs
  | freezeResetPeer device => exact cl_execFreezeResetPeer hP device s hs
  | sqProducer ring value => exact cl_execSqProducer hP.toQuiet ring value s hs
  | cqConsumer ring value => exact cl_execCqConsumer hP.toQuiet ring value s hs
  | eventRingConsumer value => exact cl_execEventRingConsumer hP value s hs
  | bar2BadWrite offset size => exact cl_execBar2BadWrite hP.toQuiet offset size s hs
  | ringEnable ring => exact cl_execRingEnable hP.toQuiet ring s hs
  | ringDisable ring => exact cl_execRingDisable hP.toQuiet ring s hs
  | ringStopped ring => exact cl_execRingStopped hP.toQuiet ring s hs
  | eventRingEnable => exact cl_execEventRingEnable hP s hs
  | eventRingDisable => exact cl_execEventRingDisable hP.toQuiet s hs
  | eventRecordWrite record => exact cl_execEventRecordWrite hP record s hs
  | windowInvalidate entry => exact cl_execWindowInvalidate hP.toQuiet entry s hs
  | windowInvalidateAll => exact cl_execWindowInvalidateAll hP.toQuiet s hs
  | apertureMove port base => exact cl_execApertureMove hP.toQuiet port base s hs
  | apertureRead port offset len => exact cl_execApertureRead hP port offset len s hs
  | apertureWrite port offset data => exact cl_execApertureWrite hP port offset data s hs
  | bar0BadAccess port offset size isRead => exact cl_execBar0BadAccess hP.toQuiet port offset size isRead s hs
  | portReset port => exact cl_execPortReset hP port s hs
  | busMasterEnableChange port on => exact cl_execBusMasterEnableChange hP port on s hs
  | ideLeavesSecure port => exact cl_execIdeLeavesSecure hP.toQuiet port s hs
  | blockReceive quay lane seq outcome last => exact cl_execBlockReceive hP quay lane seq outcome last s hs
  | replayRequest quay lane seq => exact cl_execReplayRequest hP.toQuiet quay lane seq s hs
  | frameIdleClose quay lane frames blocks => exact cl_execFrameIdleClose hP.toQuiet quay lane frames blocks s hs
  | linkRekey quay sent => exact cl_execLinkRekey hP.toQuiet quay sent s hs
  | laneFail quay lane source => exact cl_execLaneFail hP quay lane source s hs
  | quayFail quay cause => exact cl_execQuayFail hP quay cause s hs
  | remoteReadTimeout stream unit => exact cl_execRemoteReadTimeout hP.toQuiet stream unit s hs
  | quayStop quay => exact cl_execQuayStop hP quay s hs
  | quayTrain quay keyed => exact cl_execQuayTrain hP quay keyed s hs
  | podJoin answer => exact cl_execPodJoin hP.toQuiet answer s hs
  | joinRequest request => exact cl_execJoinRequest hP.toQuiet request s hs
  | joinRetry answer => exact cl_execJoinRetry hP.toQuiet answer s hs
  | podLeave => exact cl_execPodLeave hP.toQuiet s hs
  | leave device => exact cl_execLeave hP.toQuiet device s hs
  | heartbeat device tide gen => exact cl_execHeartbeat hP.toQuiet device tide gen s hs
  | heartbeatSilence device reporter => exact cl_execHeartbeatSilence hP.toQuiet device reporter s hs
  | deviceLost device => exact cl_execDeviceLost hP.toQuiet device s hs
  | lostNotice device gen => exact cl_execLostNotice hP.toQuiet device gen s hs
  | standbyTakeover next => exact cl_execStandbyTakeover hP.toQuiet next s hs
  | timeMarker quay tide delay arrival residence => exact cl_execTimeMarker hP.toQuiet quay tide delay arrival residence s hs
  | markerLossLeave => exact cl_execMarkerLossLeave hP.toQuiet s hs
  | delayProbe quay roundTrip => exact cl_execDelayProbe hP.toQuiet quay roundTrip s hs
  | collectiveChannelEnable channel => exact cl_execCollectiveChannelEnable hP.toQuiet channel s hs
  | collectiveChannelDisable channel => exact cl_execCollectiveChannelDisable hP.toQuiet channel s hs
  | collectiveRoundOpen channel => exact cl_execCollectiveRoundOpen hP channel s hs
  | collectiveMessage channel round device down agrees data => exact cl_execCollectiveMessage hP channel round device down agrees data s hs
  | collectiveRoundComplete channel => exact cl_execCollectiveRoundComplete hP channel s hs
  | snapshotRequest cut dest => exact cl_execSnapshotRequest hP.toQuiet cut dest s hs
  | snapshotRecordsWritten records => exact cl_execSnapshotRecordsWritten hP records s hs
  | resetPod => exact cl_execResetPod hP s hs
  | peerViolation device cause => exact cl_execPeerViolation hP.toQuiet device cause s hs
  | errorDetect err => exact cl_execErrorDetect hP err s hs
  | salvorHandle => exact cl_execSalvorHandle hP s hs
  | deviceFaultStop err => exact cl_execDeviceFaultStop hP err s hs
  | salvorEscalate source => exact cl_execSalvorEscalate hP source s hs
  | salvorRestart => exact cl_execSalvorRestart hP.toQuiet s hs
  | schedulerWatchdog => exact cl_execSchedulerWatchdog hP s hs
  | hbmStackFail stack cause => exact cl_execHbmStackFail hP stack cause s hs
  | slotsLost device group slot => exact cl_execSlotsLost hP.toQuiet device group slot s hs
  | slotLossNotice device group slot => exact cl_execSlotLossNotice hP.toQuiet device group slot s hs
  | rebuildGo group => exact cl_execRebuildGo hP.toQuiet group s hs
  | rebuildStart group slot device => exact cl_execRebuildStart hP.toQuiet group slot device s hs
  | rebuildPage table page slot data => exact cl_execRebuildPage hP table page slot data s hs
  | rebuildDone group slot device => exact cl_execRebuildDone hP.toQuiet group slot device s hs
  | slotReplace group slot device => exact cl_execSlotReplace hP.toQuiet group slot device s hs
  | rebuildEnd group => exact cl_execRebuildEnd hP.toQuiet group s hs
  | patrolScrub addr outcome => exact cl_execPatrolScrub hP addr outcome s hs
  | trngHealthFail => exact cl_execTrngHealthFail hP s hs
  | customsWatchdog => exact cl_execCustomsWatchdog hP s hs
  | cusZeroise => exact cl_execCusZeroise hP s hs
  | tamperTrip => exact cl_execTamperTrip hP s hs
  | getVersion transport => exact cl_execGetVersion hP.toQuiet transport s hs
  | getCapabilities transport => exact cl_execGetCapabilities hP.toQuiet transport s hs
  | negotiateAlgorithms transport => exact cl_execNegotiateAlgorithms hP.toQuiet transport s hs
  | getDigests transport => exact cl_execGetDigests hP.toQuiet transport s hs
  | getCertificate transport slot offset len => exact cl_execGetCertificate hP.toQuiet transport slot offset len s hs
  | challenge transport slot nonce => exact cl_execChallenge hP.toQuiet transport slot nonce s hs
  | getMeasurements transport index nonce signed => exact cl_execGetMeasurements hP.toQuiet transport index nonce signed s hs
  | keyExchange transport mutualAuth => exact cl_execKeyExchange hP.toQuiet transport mutualAuth s hs
  | finish transport session ok => exact cl_execFinish hP.toQuiet transport session ok s hs
  | heartbeatSpdm transport session => exact cl_execHeartbeatSpdm hP.toQuiet transport session s hs
  | keyUpdate transport session => exact cl_execKeyUpdate hP.toQuiet transport session s hs
  | endSession transport session => exact cl_execEndSession hP.toQuiet transport session s hs
  | chunkSend transport seq last data => exact cl_execChunkSend hP.toQuiet transport seq last data s hs
  | chunkGet transport seq => exact cl_execChunkGet hP.toQuiet transport seq s hs
  | ideKm session port go => exact cl_execIdeKm hP session port go s hs
  | debugNonce session => exact cl_execDebugNonce hP.toQuiet session s hs
  | debugUnlock token => exact cl_execDebugUnlock hP token s hs
  | lifecycleTransition session target signer ownerHash signedOk => exact cl_execLifecycleTransition hP session target signer ownerHash signedOk s hs
  | debugClose => exact cl_execDebugClose hP.toQuiet s hs
  | debugHalt kiln slot => exact cl_execDebugHalt hP.toQuiet kiln slot s hs
  | debugStepCommand kiln slot => exact cl_execDebugStepCommand hP.toQuiet kiln slot s hs
  | debugStepTile kiln slot => exact cl_execDebugStepTile hP.toQuiet kiln slot s hs
  | debugResume kiln slot => exact cl_execDebugResume hP.toQuiet kiln slot s hs
  | stateReqRun => exact cl_execStateReqRun hP s hs
  | stateReqBanked => exact cl_execStateReqBanked hP s hs
  | stateReqSmoulder => exact cl_execStateReqSmoulder hP s hs
  | lowPowerEntry => exact cl_execLowPowerEntry hP s hs
  | stepReq step => exact cl_execStepReq hP.toQuiet step s hs
  | wake cause => exact cl_execWake hP cause s hs
  | quaysWarm => exact cl_execQuaysWarm hP.toQuiet s hs
  | underVoltageTrip => exact cl_execUnderVoltageTrip hP s hs
  | overVoltageTrip => exact cl_execOverVoltageTrip hP s hs
  | inputRelease => exact cl_execInputRelease hP s hs
  | hotTrip site => exact cl_execHotTrip hP.toQuiet site s hs
  | hotTripRelease site => exact cl_execHotTripRelease hP.toQuiet site s hs
  | shutdownTrip site => exact cl_execShutdownTrip hP site s hs
  | shutdownTripRelease site => exact cl_execShutdownTripRelease hP.toQuiet site s hs
  | managementTick power millivolts counts sites rails => exact cl_execManagementTick hP power millivolts counts sites rails s hs
  | pilotWatchdog => exact cl_execPilotWatchdog hP s hs
  | severity3ResetPolicy => exact cl_execSeverity3ResetPolicy hP s hs
  | pltCapWrite source value => exact cl_execPltCapWrite hP.toQuiet source value s hs
  | pltReset source key => exact cl_execPltReset hP source key s hs
  | profileSave => exact cl_execProfileSave hP.toQuiet s hs
  | profileErase => exact cl_execProfileErase hP.toQuiet s hs
  | mctpMessage transport kind body => exact cl_execMctpMessage hP.toQuiet transport kind body s hs
  | firmwareTransferEnd image => exact cl_execFirmwareTransferEnd hP image s hs
  | firmwareActivate => exact cl_execFirmwareActivate hP.toQuiet s hs
  | tideHold heard => exact cl_execTideHold hP.toQuiet heard s hs
  | holdReady device => exact cl_execHoldReady hP.toQuiet device s hs
  | tideStopBroadcast tide heard => exact cl_execTideStopBroadcast hP.toQuiet tide heard s hs
  | tideHoldRelease tide steps grace heard => exact cl_execTideHoldRelease hP.toQuiet tide steps grace heard s hs
  | modEnRise => exact cl_execModEnRise hP s hs
  | modEnRelease => exact cl_execModEnRelease hP s hs
  | resetIn => exact cl_execResetIn hP s hs
  | deviceReset => exact cl_execDeviceReset hP s hs
  | startUp report => exact cl_execStartUp hP report s hs
  | setupLock source => exact cl_execSetupLock hP.toQuiet source s hs
  | registerWrite source offset size value => exact cl_execRegisterWrite hP source offset size value s hs
  | registerRead source offset size => exact cl_execRegisterRead hP.toQuiet source offset size s hs
  | readDataLands stream unit data => exact cl_execReadDataLands hP stream unit data s hs
  | remoteStreamRead device stream unit addr len order => exact cl_execRemoteStreamRead hP device stream unit addr len order s hs
  | remoteStreamWrite device stream unit addr cls data => exact cl_execRemoteStreamWrite hP device stream unit addr cls data s hs
  | rebuildPageRequest table page slot device => exact cl_execRebuildPageRequest hP table page slot device s hs
  | groupMasterEpochRequest table gen group epoch0 device => exact cl_execGroupMasterEpochRequest hP.toQuiet table gen group epoch0 device s hs
  | endToEndAck device number => exact cl_execEndToEndAck hP.toQuiet device number s hs
  | routeTables routes => exact cl_execRouteTables hP.toQuiet routes s hs
  | masterMirror log members standbys links size => exact cl_execMasterMirror hP.toQuiet log members standbys links size s hs
  | lighthousePowerLoss => exact cl_execLighthousePowerLoss hP s hs
  | quayReconnect quay keyed => exact cl_execQuayReconnect hP quay keyed s hs

end Sys2Proof.Laws
end

