-- ==== Sys2Proof/Laws/State.lean ====
section
/-! SUPPORT. What each update of the state leaves: one lemma per field and update, true by unfolding, and the two laws of
each numbered unit and of each register field: what is put is read back, and nothing else changes. -/

namespace Sys2Proof.Machine

/-! ### `State.put` -/

@[simp] theorem State.put_latchR (s : State) (f : Fld) (i v : Nat) : (s.put f i v).latchR = s.latchR := rfl
@[simp] theorem State.put_latchW (s : State) (f : Fld) (i v : Nat) : (s.put f i v).latchW = s.latchW := rfl
@[simp] theorem State.put_mem (s : State) (f : Fld) (i v : Nat) : (s.put f i v).mem = s.mem := rfl
@[simp] theorem State.put_undef (s : State) (f : Fld) (i v : Nat) : (s.put f i v).undef = s.undef := rfl
@[simp] theorem State.put_stamp (s : State) (f : Fld) (i v : Nat) : (s.put f i v).stamp = s.stamp := rfl
@[simp] theorem State.put_ecc (s : State) (f : Fld) (i v : Nat) : (s.put f i v).ecc = s.ecc := rfl
@[simp] theorem State.put_host (s : State) (f : Fld) (i v : Nat) : (s.put f i v).host = s.host := rfl
@[simp] theorem State.put_winCache (s : State) (f : Fld) (i v : Nat) : (s.put f i v).winCache = s.winCache := rfl
@[simp] theorem State.put_msix (s : State) (f : Fld) (i v : Nat) : (s.put f i v).msix = s.msix := rfl
@[simp] theorem State.put_msixPend (s : State) (f : Fld) (i v : Nat) : (s.put f i v).msixPend = s.msixPend := rfl
@[simp] theorem State.put_ideHeld (s : State) (f : Fld) (i v : Nat) : (s.put f i v).ideHeld = s.ideHeld := rfl
@[simp] theorem State.put_rings (s : State) (f : Fld) (i v : Nat) : (s.put f i v).rings = s.rings := rfl
@[simp] theorem State.put_ringTurn (s : State) (f : Fld) (i v : Nat) : (s.put f i v).ringTurn = s.ringTurn := rfl
@[simp] theorem State.put_evt (s : State) (f : Fld) (i v : Nat) : (s.put f i v).evt = s.evt := rfl
@[simp] theorem State.put_tags (s : State) (f : Fld) (i v : Nat) : (s.put f i v).tags = s.tags := rfl
@[simp] theorem State.put_ready (s : State) (f : Fld) (i v : Nat) : (s.put f i v).ready = s.ready := rfl
@[simp] theorem State.put_origins (s : State) (f : Fld) (i v : Nat) : (s.put f i v).origins = s.origins := rfl
@[simp] theorem State.put_ctxs (s : State) (f : Fld) (i v : Nat) : (s.put f i v).ctxs = s.ctxs := rfl
@[simp] theorem State.put_kilns (s : State) (f : Fld) (i v : Nat) : (s.put f i v).kilns = s.kilns := rfl
@[simp] theorem State.put_streams (s : State) (f : Fld) (i v : Nat) : (s.put f i v).streams = s.streams := rfl
@[simp] theorem State.put_catchUps (s : State) (f : Fld) (i v : Nat) : (s.put f i v).catchUps = s.catchUps := rfl
@[simp] theorem State.put_bulk (s : State) (f : Fld) (i v : Nat) : (s.put f i v).bulk = s.bulk := rfl
@[simp] theorem State.put_seq (s : State) (f : Fld) (i v : Nat) : (s.put f i v).seq = s.seq := rfl
@[simp] theorem State.put_fencedStevs (s : State) (f : Fld) (i v : Nat) : (s.put f i v).fencedStevs = s.fencedStevs := rfl
@[simp] theorem State.put_remoteHolds (s : State) (f : Fld) (i v : Nat) : (s.put f i v).remoteHolds = s.remoteHolds := rfl
@[simp] theorem State.put_remoteWaits (s : State) (f : Fld) (i v : Nat) : (s.put f i v).remoteWaits = s.remoteWaits := rfl
@[simp] theorem State.put_tables (s : State) (f : Fld) (i v : Nat) : (s.put f i v).tables = s.tables := rfl
@[simp] theorem State.put_groups (s : State) (f : Fld) (i v : Nat) : (s.put f i v).groups = s.groups := rfl
@[simp] theorem State.put_masters (s : State) (f : Fld) (i v : Nat) : (s.put f i v).masters = s.masters := rfl
@[simp] theorem State.put_cranes (s : State) (f : Fld) (i v : Nat) : (s.put f i v).cranes = s.cranes := rfl
@[simp] theorem State.put_hot (s : State) (f : Fld) (i v : Nat) : (s.put f i v).hot = s.hot := rfl
@[simp] theorem State.put_jobs (s : State) (f : Fld) (i v : Nat) : (s.put f i v).jobs = s.jobs := rfl
@[simp] theorem State.put_nextJob (s : State) (f : Fld) (i v : Nat) : (s.put f i v).nextJob = s.nextJob := rfl
@[simp] theorem State.put_fetched (s : State) (f : Fld) (i v : Nat) : (s.put f i v).fetched = s.fetched := rfl
@[simp] theorem State.put_models (s : State) (f : Fld) (i v : Nat) : (s.put f i v).models = s.models := rfl
@[simp] theorem State.put_evicted (s : State) (f : Fld) (i v : Nat) : (s.put f i v).evicted = s.evicted := rfl
@[simp] theorem State.put_counts (s : State) (f : Fld) (i v : Nat) : (s.put f i v).counts = s.counts := rfl
@[simp] theorem State.put_admitted (s : State) (f : Fld) (i v : Nat) : (s.put f i v).admitted = s.admitted := rfl
@[simp] theorem State.put_conss (s : State) (f : Fld) (i v : Nat) : (s.put f i v).conss = s.conss := rfl
@[simp] theorem State.put_retiring (s : State) (f : Fld) (i v : Nat) : (s.put f i v).retiring = s.retiring := rfl
@[simp] theorem State.put_votes (s : State) (f : Fld) (i v : Nat) : (s.put f i v).votes = s.votes := rfl
@[simp] theorem State.put_decisions (s : State) (f : Fld) (i v : Nat) : (s.put f i v).decisions = s.decisions := rfl
@[simp] theorem State.put_notices (s : State) (f : Fld) (i v : Nat) : (s.put f i v).notices = s.notices := rfl
@[simp] theorem State.put_noticesDone (s : State) (f : Fld) (i v : Nat) : (s.put f i v).noticesDone = s.noticesDone := rfl
@[simp] theorem State.put_unacked (s : State) (f : Fld) (i v : Nat) : (s.put f i v).unacked = s.unacked := rfl
@[simp] theorem State.put_nextVc0 (s : State) (f : Fld) (i v : Nat) : (s.put f i v).nextVc0 = s.nextVc0 := rfl
@[simp] theorem State.put_freeFrames (s : State) (f : Fld) (i v : Nat) : (s.put f i v).freeFrames = s.freeFrames := rfl
@[simp] theorem State.put_deferred (s : State) (f : Fld) (i v : Nat) : (s.put f i v).deferred = s.deferred := rfl
@[simp] theorem State.put_indexPages (s : State) (f : Fld) (i v : Nat) : (s.put f i v).indexPages = s.indexPages := rfl
@[simp] theorem State.put_appended (s : State) (f : Fld) (i v : Nat) : (s.put f i v).appended = s.appended := rfl
@[simp] theorem State.put_quays (s : State) (f : Fld) (i v : Nat) : (s.put f i v).quays = s.quays := rfl
@[simp] theorem State.put_routes (s : State) (f : Fld) (i v : Nat) : (s.put f i v).routes = s.routes := rfl
@[simp] theorem State.put_peers (s : State) (f : Fld) (i v : Nat) : (s.put f i v).peers = s.peers := rfl
@[simp] theorem State.put_pod (s : State) (f : Fld) (i v : Nat) : (s.put f i v).pod = s.pod := rfl
@[simp] theorem State.put_colls (s : State) (f : Fld) (i v : Nat) : (s.put f i v).colls = s.colls := rfl
@[simp] theorem State.put_salvor (s : State) (f : Fld) (i v : Nat) : (s.put f i v).salvor = s.salvor := rfl
@[simp] theorem State.put_dock (s : State) (f : Fld) (i v : Nat) : (s.put f i v).dock = s.dock := rfl
@[simp] theorem State.put_rebuild (s : State) (f : Fld) (i v : Nat) : (s.put f i v).rebuild = s.rebuild := rfl
@[simp] theorem State.put_rebuilding (s : State) (f : Fld) (i v : Nat) : (s.put f i v).rebuilding = s.rebuilding := rfl
@[simp] theorem State.put_cus (s : State) (f : Fld) (i v : Nat) : (s.put f i v).cus = s.cus := rfl
@[simp] theorem State.put_power (s : State) (f : Fld) (i v : Nat) : (s.put f i v).power = s.power := rfl
@[simp] theorem State.put_pilot (s : State) (f : Fld) (i v : Nat) : (s.put f i v).pilot = s.pilot := rfl
@[simp] theorem State.put_veiled (s : State) (f : Fld) (i v : Nat) : (s.put f i v).veiled = s.veiled := rfl
@[simp] theorem State.put_halted (s : State) (f : Fld) (i v : Nat) : (s.put f i v).halted = s.halted := rfl
@[simp] theorem State.put_out (s : State) (f : Fld) (i v : Nat) : (s.put f i v).out = s.out := rfl
@[simp] theorem State.put_laneOut (s : State) (f : Fld) (i v : Nat) : (s.put f i v).laneOut = s.laneOut := rfl
@[simp] theorem State.put_pending (s : State) (f : Fld) (i v : Nat) : (s.put f i v).pending = s.pending := rfl

/-! ### `State.inc` -/

@[simp] theorem State.inc_latchR (s : State) (f : Fld) (i n : Nat) : (s.inc f i n).latchR = s.latchR := rfl
@[simp] theorem State.inc_latchW (s : State) (f : Fld) (i n : Nat) : (s.inc f i n).latchW = s.latchW := rfl
@[simp] theorem State.inc_mem (s : State) (f : Fld) (i n : Nat) : (s.inc f i n).mem = s.mem := rfl
@[simp] theorem State.inc_undef (s : State) (f : Fld) (i n : Nat) : (s.inc f i n).undef = s.undef := rfl
@[simp] theorem State.inc_stamp (s : State) (f : Fld) (i n : Nat) : (s.inc f i n).stamp = s.stamp := rfl
@[simp] theorem State.inc_ecc (s : State) (f : Fld) (i n : Nat) : (s.inc f i n).ecc = s.ecc := rfl
@[simp] theorem State.inc_host (s : State) (f : Fld) (i n : Nat) : (s.inc f i n).host = s.host := rfl
@[simp] theorem State.inc_winCache (s : State) (f : Fld) (i n : Nat) : (s.inc f i n).winCache = s.winCache := rfl
@[simp] theorem State.inc_msix (s : State) (f : Fld) (i n : Nat) : (s.inc f i n).msix = s.msix := rfl
@[simp] theorem State.inc_msixPend (s : State) (f : Fld) (i n : Nat) : (s.inc f i n).msixPend = s.msixPend := rfl
@[simp] theorem State.inc_ideHeld (s : State) (f : Fld) (i n : Nat) : (s.inc f i n).ideHeld = s.ideHeld := rfl
@[simp] theorem State.inc_rings (s : State) (f : Fld) (i n : Nat) : (s.inc f i n).rings = s.rings := rfl
@[simp] theorem State.inc_ringTurn (s : State) (f : Fld) (i n : Nat) : (s.inc f i n).ringTurn = s.ringTurn := rfl
@[simp] theorem State.inc_evt (s : State) (f : Fld) (i n : Nat) : (s.inc f i n).evt = s.evt := rfl
@[simp] theorem State.inc_tags (s : State) (f : Fld) (i n : Nat) : (s.inc f i n).tags = s.tags := rfl
@[simp] theorem State.inc_ready (s : State) (f : Fld) (i n : Nat) : (s.inc f i n).ready = s.ready := rfl
@[simp] theorem State.inc_origins (s : State) (f : Fld) (i n : Nat) : (s.inc f i n).origins = s.origins := rfl
@[simp] theorem State.inc_ctxs (s : State) (f : Fld) (i n : Nat) : (s.inc f i n).ctxs = s.ctxs := rfl
@[simp] theorem State.inc_kilns (s : State) (f : Fld) (i n : Nat) : (s.inc f i n).kilns = s.kilns := rfl
@[simp] theorem State.inc_streams (s : State) (f : Fld) (i n : Nat) : (s.inc f i n).streams = s.streams := rfl
@[simp] theorem State.inc_catchUps (s : State) (f : Fld) (i n : Nat) : (s.inc f i n).catchUps = s.catchUps := rfl
@[simp] theorem State.inc_bulk (s : State) (f : Fld) (i n : Nat) : (s.inc f i n).bulk = s.bulk := rfl
@[simp] theorem State.inc_seq (s : State) (f : Fld) (i n : Nat) : (s.inc f i n).seq = s.seq := rfl
@[simp] theorem State.inc_fencedStevs (s : State) (f : Fld) (i n : Nat) : (s.inc f i n).fencedStevs = s.fencedStevs := rfl
@[simp] theorem State.inc_remoteHolds (s : State) (f : Fld) (i n : Nat) : (s.inc f i n).remoteHolds = s.remoteHolds := rfl
@[simp] theorem State.inc_remoteWaits (s : State) (f : Fld) (i n : Nat) : (s.inc f i n).remoteWaits = s.remoteWaits := rfl
@[simp] theorem State.inc_tables (s : State) (f : Fld) (i n : Nat) : (s.inc f i n).tables = s.tables := rfl
@[simp] theorem State.inc_groups (s : State) (f : Fld) (i n : Nat) : (s.inc f i n).groups = s.groups := rfl
@[simp] theorem State.inc_masters (s : State) (f : Fld) (i n : Nat) : (s.inc f i n).masters = s.masters := rfl
@[simp] theorem State.inc_cranes (s : State) (f : Fld) (i n : Nat) : (s.inc f i n).cranes = s.cranes := rfl
@[simp] theorem State.inc_hot (s : State) (f : Fld) (i n : Nat) : (s.inc f i n).hot = s.hot := rfl
@[simp] theorem State.inc_jobs (s : State) (f : Fld) (i n : Nat) : (s.inc f i n).jobs = s.jobs := rfl
@[simp] theorem State.inc_nextJob (s : State) (f : Fld) (i n : Nat) : (s.inc f i n).nextJob = s.nextJob := rfl
@[simp] theorem State.inc_fetched (s : State) (f : Fld) (i n : Nat) : (s.inc f i n).fetched = s.fetched := rfl
@[simp] theorem State.inc_models (s : State) (f : Fld) (i n : Nat) : (s.inc f i n).models = s.models := rfl
@[simp] theorem State.inc_evicted (s : State) (f : Fld) (i n : Nat) : (s.inc f i n).evicted = s.evicted := rfl
@[simp] theorem State.inc_counts (s : State) (f : Fld) (i n : Nat) : (s.inc f i n).counts = s.counts := rfl
@[simp] theorem State.inc_admitted (s : State) (f : Fld) (i n : Nat) : (s.inc f i n).admitted = s.admitted := rfl
@[simp] theorem State.inc_conss (s : State) (f : Fld) (i n : Nat) : (s.inc f i n).conss = s.conss := rfl
@[simp] theorem State.inc_retiring (s : State) (f : Fld) (i n : Nat) : (s.inc f i n).retiring = s.retiring := rfl
@[simp] theorem State.inc_votes (s : State) (f : Fld) (i n : Nat) : (s.inc f i n).votes = s.votes := rfl
@[simp] theorem State.inc_decisions (s : State) (f : Fld) (i n : Nat) : (s.inc f i n).decisions = s.decisions := rfl
@[simp] theorem State.inc_notices (s : State) (f : Fld) (i n : Nat) : (s.inc f i n).notices = s.notices := rfl
@[simp] theorem State.inc_noticesDone (s : State) (f : Fld) (i n : Nat) : (s.inc f i n).noticesDone = s.noticesDone := rfl
@[simp] theorem State.inc_unacked (s : State) (f : Fld) (i n : Nat) : (s.inc f i n).unacked = s.unacked := rfl
@[simp] theorem State.inc_nextVc0 (s : State) (f : Fld) (i n : Nat) : (s.inc f i n).nextVc0 = s.nextVc0 := rfl
@[simp] theorem State.inc_freeFrames (s : State) (f : Fld) (i n : Nat) : (s.inc f i n).freeFrames = s.freeFrames := rfl
@[simp] theorem State.inc_deferred (s : State) (f : Fld) (i n : Nat) : (s.inc f i n).deferred = s.deferred := rfl
@[simp] theorem State.inc_indexPages (s : State) (f : Fld) (i n : Nat) : (s.inc f i n).indexPages = s.indexPages := rfl
@[simp] theorem State.inc_appended (s : State) (f : Fld) (i n : Nat) : (s.inc f i n).appended = s.appended := rfl
@[simp] theorem State.inc_quays (s : State) (f : Fld) (i n : Nat) : (s.inc f i n).quays = s.quays := rfl
@[simp] theorem State.inc_routes (s : State) (f : Fld) (i n : Nat) : (s.inc f i n).routes = s.routes := rfl
@[simp] theorem State.inc_peers (s : State) (f : Fld) (i n : Nat) : (s.inc f i n).peers = s.peers := rfl
@[simp] theorem State.inc_pod (s : State) (f : Fld) (i n : Nat) : (s.inc f i n).pod = s.pod := rfl
@[simp] theorem State.inc_colls (s : State) (f : Fld) (i n : Nat) : (s.inc f i n).colls = s.colls := rfl
@[simp] theorem State.inc_salvor (s : State) (f : Fld) (i n : Nat) : (s.inc f i n).salvor = s.salvor := rfl
@[simp] theorem State.inc_dock (s : State) (f : Fld) (i n : Nat) : (s.inc f i n).dock = s.dock := rfl
@[simp] theorem State.inc_rebuild (s : State) (f : Fld) (i n : Nat) : (s.inc f i n).rebuild = s.rebuild := rfl
@[simp] theorem State.inc_rebuilding (s : State) (f : Fld) (i n : Nat) : (s.inc f i n).rebuilding = s.rebuilding := rfl
@[simp] theorem State.inc_cus (s : State) (f : Fld) (i n : Nat) : (s.inc f i n).cus = s.cus := rfl
@[simp] theorem State.inc_power (s : State) (f : Fld) (i n : Nat) : (s.inc f i n).power = s.power := rfl
@[simp] theorem State.inc_pilot (s : State) (f : Fld) (i n : Nat) : (s.inc f i n).pilot = s.pilot := rfl
@[simp] theorem State.inc_veiled (s : State) (f : Fld) (i n : Nat) : (s.inc f i n).veiled = s.veiled := rfl
@[simp] theorem State.inc_halted (s : State) (f : Fld) (i n : Nat) : (s.inc f i n).halted = s.halted := rfl
@[simp] theorem State.inc_out (s : State) (f : Fld) (i n : Nat) : (s.inc f i n).out = s.out := rfl
@[simp] theorem State.inc_laneOut (s : State) (f : Fld) (i n : Nat) : (s.inc f i n).laneOut = s.laneOut := rfl
@[simp] theorem State.inc_pending (s : State) (f : Fld) (i n : Nat) : (s.inc f i n).pending = s.pending := rfl

/-! ### `State.putBitAt` -/

@[simp] theorem State.putBitAt_latchR (s : State) (f : Fld) (i b : Nat) (v : Bool) : (s.putBitAt f i b v).latchR = s.latchR := rfl
@[simp] theorem State.putBitAt_latchW (s : State) (f : Fld) (i b : Nat) (v : Bool) : (s.putBitAt f i b v).latchW = s.latchW := rfl
@[simp] theorem State.putBitAt_mem (s : State) (f : Fld) (i b : Nat) (v : Bool) : (s.putBitAt f i b v).mem = s.mem := rfl
@[simp] theorem State.putBitAt_undef (s : State) (f : Fld) (i b : Nat) (v : Bool) : (s.putBitAt f i b v).undef = s.undef := rfl
@[simp] theorem State.putBitAt_stamp (s : State) (f : Fld) (i b : Nat) (v : Bool) : (s.putBitAt f i b v).stamp = s.stamp := rfl
@[simp] theorem State.putBitAt_ecc (s : State) (f : Fld) (i b : Nat) (v : Bool) : (s.putBitAt f i b v).ecc = s.ecc := rfl
@[simp] theorem State.putBitAt_host (s : State) (f : Fld) (i b : Nat) (v : Bool) : (s.putBitAt f i b v).host = s.host := rfl
@[simp] theorem State.putBitAt_winCache (s : State) (f : Fld) (i b : Nat) (v : Bool) : (s.putBitAt f i b v).winCache = s.winCache := rfl
@[simp] theorem State.putBitAt_msix (s : State) (f : Fld) (i b : Nat) (v : Bool) : (s.putBitAt f i b v).msix = s.msix := rfl
@[simp] theorem State.putBitAt_msixPend (s : State) (f : Fld) (i b : Nat) (v : Bool) : (s.putBitAt f i b v).msixPend = s.msixPend := rfl
@[simp] theorem State.putBitAt_ideHeld (s : State) (f : Fld) (i b : Nat) (v : Bool) : (s.putBitAt f i b v).ideHeld = s.ideHeld := rfl
@[simp] theorem State.putBitAt_rings (s : State) (f : Fld) (i b : Nat) (v : Bool) : (s.putBitAt f i b v).rings = s.rings := rfl
@[simp] theorem State.putBitAt_ringTurn (s : State) (f : Fld) (i b : Nat) (v : Bool) : (s.putBitAt f i b v).ringTurn = s.ringTurn := rfl
@[simp] theorem State.putBitAt_evt (s : State) (f : Fld) (i b : Nat) (v : Bool) : (s.putBitAt f i b v).evt = s.evt := rfl
@[simp] theorem State.putBitAt_tags (s : State) (f : Fld) (i b : Nat) (v : Bool) : (s.putBitAt f i b v).tags = s.tags := rfl
@[simp] theorem State.putBitAt_ready (s : State) (f : Fld) (i b : Nat) (v : Bool) : (s.putBitAt f i b v).ready = s.ready := rfl
@[simp] theorem State.putBitAt_origins (s : State) (f : Fld) (i b : Nat) (v : Bool) : (s.putBitAt f i b v).origins = s.origins := rfl
@[simp] theorem State.putBitAt_ctxs (s : State) (f : Fld) (i b : Nat) (v : Bool) : (s.putBitAt f i b v).ctxs = s.ctxs := rfl
@[simp] theorem State.putBitAt_kilns (s : State) (f : Fld) (i b : Nat) (v : Bool) : (s.putBitAt f i b v).kilns = s.kilns := rfl
@[simp] theorem State.putBitAt_streams (s : State) (f : Fld) (i b : Nat) (v : Bool) : (s.putBitAt f i b v).streams = s.streams := rfl
@[simp] theorem State.putBitAt_catchUps (s : State) (f : Fld) (i b : Nat) (v : Bool) : (s.putBitAt f i b v).catchUps = s.catchUps := rfl
@[simp] theorem State.putBitAt_bulk (s : State) (f : Fld) (i b : Nat) (v : Bool) : (s.putBitAt f i b v).bulk = s.bulk := rfl
@[simp] theorem State.putBitAt_seq (s : State) (f : Fld) (i b : Nat) (v : Bool) : (s.putBitAt f i b v).seq = s.seq := rfl
@[simp] theorem State.putBitAt_fencedStevs (s : State) (f : Fld) (i b : Nat) (v : Bool) : (s.putBitAt f i b v).fencedStevs = s.fencedStevs := rfl
@[simp] theorem State.putBitAt_remoteHolds (s : State) (f : Fld) (i b : Nat) (v : Bool) : (s.putBitAt f i b v).remoteHolds = s.remoteHolds := rfl
@[simp] theorem State.putBitAt_remoteWaits (s : State) (f : Fld) (i b : Nat) (v : Bool) : (s.putBitAt f i b v).remoteWaits = s.remoteWaits := rfl
@[simp] theorem State.putBitAt_tables (s : State) (f : Fld) (i b : Nat) (v : Bool) : (s.putBitAt f i b v).tables = s.tables := rfl
@[simp] theorem State.putBitAt_groups (s : State) (f : Fld) (i b : Nat) (v : Bool) : (s.putBitAt f i b v).groups = s.groups := rfl
@[simp] theorem State.putBitAt_masters (s : State) (f : Fld) (i b : Nat) (v : Bool) : (s.putBitAt f i b v).masters = s.masters := rfl
@[simp] theorem State.putBitAt_cranes (s : State) (f : Fld) (i b : Nat) (v : Bool) : (s.putBitAt f i b v).cranes = s.cranes := rfl
@[simp] theorem State.putBitAt_hot (s : State) (f : Fld) (i b : Nat) (v : Bool) : (s.putBitAt f i b v).hot = s.hot := rfl
@[simp] theorem State.putBitAt_jobs (s : State) (f : Fld) (i b : Nat) (v : Bool) : (s.putBitAt f i b v).jobs = s.jobs := rfl
@[simp] theorem State.putBitAt_nextJob (s : State) (f : Fld) (i b : Nat) (v : Bool) : (s.putBitAt f i b v).nextJob = s.nextJob := rfl
@[simp] theorem State.putBitAt_fetched (s : State) (f : Fld) (i b : Nat) (v : Bool) : (s.putBitAt f i b v).fetched = s.fetched := rfl
@[simp] theorem State.putBitAt_models (s : State) (f : Fld) (i b : Nat) (v : Bool) : (s.putBitAt f i b v).models = s.models := rfl
@[simp] theorem State.putBitAt_evicted (s : State) (f : Fld) (i b : Nat) (v : Bool) : (s.putBitAt f i b v).evicted = s.evicted := rfl
@[simp] theorem State.putBitAt_counts (s : State) (f : Fld) (i b : Nat) (v : Bool) : (s.putBitAt f i b v).counts = s.counts := rfl
@[simp] theorem State.putBitAt_admitted (s : State) (f : Fld) (i b : Nat) (v : Bool) : (s.putBitAt f i b v).admitted = s.admitted := rfl
@[simp] theorem State.putBitAt_conss (s : State) (f : Fld) (i b : Nat) (v : Bool) : (s.putBitAt f i b v).conss = s.conss := rfl
@[simp] theorem State.putBitAt_retiring (s : State) (f : Fld) (i b : Nat) (v : Bool) : (s.putBitAt f i b v).retiring = s.retiring := rfl
@[simp] theorem State.putBitAt_votes (s : State) (f : Fld) (i b : Nat) (v : Bool) : (s.putBitAt f i b v).votes = s.votes := rfl
@[simp] theorem State.putBitAt_decisions (s : State) (f : Fld) (i b : Nat) (v : Bool) : (s.putBitAt f i b v).decisions = s.decisions := rfl
@[simp] theorem State.putBitAt_notices (s : State) (f : Fld) (i b : Nat) (v : Bool) : (s.putBitAt f i b v).notices = s.notices := rfl
@[simp] theorem State.putBitAt_noticesDone (s : State) (f : Fld) (i b : Nat) (v : Bool) : (s.putBitAt f i b v).noticesDone = s.noticesDone := rfl
@[simp] theorem State.putBitAt_unacked (s : State) (f : Fld) (i b : Nat) (v : Bool) : (s.putBitAt f i b v).unacked = s.unacked := rfl
@[simp] theorem State.putBitAt_nextVc0 (s : State) (f : Fld) (i b : Nat) (v : Bool) : (s.putBitAt f i b v).nextVc0 = s.nextVc0 := rfl
@[simp] theorem State.putBitAt_freeFrames (s : State) (f : Fld) (i b : Nat) (v : Bool) : (s.putBitAt f i b v).freeFrames = s.freeFrames := rfl
@[simp] theorem State.putBitAt_deferred (s : State) (f : Fld) (i b : Nat) (v : Bool) : (s.putBitAt f i b v).deferred = s.deferred := rfl
@[simp] theorem State.putBitAt_indexPages (s : State) (f : Fld) (i b : Nat) (v : Bool) : (s.putBitAt f i b v).indexPages = s.indexPages := rfl
@[simp] theorem State.putBitAt_appended (s : State) (f : Fld) (i b : Nat) (v : Bool) : (s.putBitAt f i b v).appended = s.appended := rfl
@[simp] theorem State.putBitAt_quays (s : State) (f : Fld) (i b : Nat) (v : Bool) : (s.putBitAt f i b v).quays = s.quays := rfl
@[simp] theorem State.putBitAt_routes (s : State) (f : Fld) (i b : Nat) (v : Bool) : (s.putBitAt f i b v).routes = s.routes := rfl
@[simp] theorem State.putBitAt_peers (s : State) (f : Fld) (i b : Nat) (v : Bool) : (s.putBitAt f i b v).peers = s.peers := rfl
@[simp] theorem State.putBitAt_pod (s : State) (f : Fld) (i b : Nat) (v : Bool) : (s.putBitAt f i b v).pod = s.pod := rfl
@[simp] theorem State.putBitAt_colls (s : State) (f : Fld) (i b : Nat) (v : Bool) : (s.putBitAt f i b v).colls = s.colls := rfl
@[simp] theorem State.putBitAt_salvor (s : State) (f : Fld) (i b : Nat) (v : Bool) : (s.putBitAt f i b v).salvor = s.salvor := rfl
@[simp] theorem State.putBitAt_dock (s : State) (f : Fld) (i b : Nat) (v : Bool) : (s.putBitAt f i b v).dock = s.dock := rfl
@[simp] theorem State.putBitAt_rebuild (s : State) (f : Fld) (i b : Nat) (v : Bool) : (s.putBitAt f i b v).rebuild = s.rebuild := rfl
@[simp] theorem State.putBitAt_rebuilding (s : State) (f : Fld) (i b : Nat) (v : Bool) : (s.putBitAt f i b v).rebuilding = s.rebuilding := rfl
@[simp] theorem State.putBitAt_cus (s : State) (f : Fld) (i b : Nat) (v : Bool) : (s.putBitAt f i b v).cus = s.cus := rfl
@[simp] theorem State.putBitAt_power (s : State) (f : Fld) (i b : Nat) (v : Bool) : (s.putBitAt f i b v).power = s.power := rfl
@[simp] theorem State.putBitAt_pilot (s : State) (f : Fld) (i b : Nat) (v : Bool) : (s.putBitAt f i b v).pilot = s.pilot := rfl
@[simp] theorem State.putBitAt_veiled (s : State) (f : Fld) (i b : Nat) (v : Bool) : (s.putBitAt f i b v).veiled = s.veiled := rfl
@[simp] theorem State.putBitAt_halted (s : State) (f : Fld) (i b : Nat) (v : Bool) : (s.putBitAt f i b v).halted = s.halted := rfl
@[simp] theorem State.putBitAt_out (s : State) (f : Fld) (i b : Nat) (v : Bool) : (s.putBitAt f i b v).out = s.out := rfl
@[simp] theorem State.putBitAt_laneOut (s : State) (f : Fld) (i b : Nat) (v : Bool) : (s.putBitAt f i b v).laneOut = s.laneOut := rfl
@[simp] theorem State.putBitAt_pending (s : State) (f : Fld) (i b : Nat) (v : Bool) : (s.putBitAt f i b v).pending = s.pending := rfl

/-! ### `State.putPeer` -/

@[simp] theorem State.putPeer_flds (s : State) (n : Nat) (x : Peer) : (s.putPeer n x).flds = s.flds := rfl
@[simp] theorem State.putPeer_latchR (s : State) (n : Nat) (x : Peer) : (s.putPeer n x).latchR = s.latchR := rfl
@[simp] theorem State.putPeer_latchW (s : State) (n : Nat) (x : Peer) : (s.putPeer n x).latchW = s.latchW := rfl
@[simp] theorem State.putPeer_mem (s : State) (n : Nat) (x : Peer) : (s.putPeer n x).mem = s.mem := rfl
@[simp] theorem State.putPeer_undef (s : State) (n : Nat) (x : Peer) : (s.putPeer n x).undef = s.undef := rfl
@[simp] theorem State.putPeer_stamp (s : State) (n : Nat) (x : Peer) : (s.putPeer n x).stamp = s.stamp := rfl
@[simp] theorem State.putPeer_ecc (s : State) (n : Nat) (x : Peer) : (s.putPeer n x).ecc = s.ecc := rfl
@[simp] theorem State.putPeer_host (s : State) (n : Nat) (x : Peer) : (s.putPeer n x).host = s.host := rfl
@[simp] theorem State.putPeer_winCache (s : State) (n : Nat) (x : Peer) : (s.putPeer n x).winCache = s.winCache := rfl
@[simp] theorem State.putPeer_msix (s : State) (n : Nat) (x : Peer) : (s.putPeer n x).msix = s.msix := rfl
@[simp] theorem State.putPeer_msixPend (s : State) (n : Nat) (x : Peer) : (s.putPeer n x).msixPend = s.msixPend := rfl
@[simp] theorem State.putPeer_ideHeld (s : State) (n : Nat) (x : Peer) : (s.putPeer n x).ideHeld = s.ideHeld := rfl
@[simp] theorem State.putPeer_rings (s : State) (n : Nat) (x : Peer) : (s.putPeer n x).rings = s.rings := rfl
@[simp] theorem State.putPeer_ringTurn (s : State) (n : Nat) (x : Peer) : (s.putPeer n x).ringTurn = s.ringTurn := rfl
@[simp] theorem State.putPeer_evt (s : State) (n : Nat) (x : Peer) : (s.putPeer n x).evt = s.evt := rfl
@[simp] theorem State.putPeer_tags (s : State) (n : Nat) (x : Peer) : (s.putPeer n x).tags = s.tags := rfl
@[simp] theorem State.putPeer_ready (s : State) (n : Nat) (x : Peer) : (s.putPeer n x).ready = s.ready := rfl
@[simp] theorem State.putPeer_origins (s : State) (n : Nat) (x : Peer) : (s.putPeer n x).origins = s.origins := rfl
@[simp] theorem State.putPeer_ctxs (s : State) (n : Nat) (x : Peer) : (s.putPeer n x).ctxs = s.ctxs := rfl
@[simp] theorem State.putPeer_kilns (s : State) (n : Nat) (x : Peer) : (s.putPeer n x).kilns = s.kilns := rfl
@[simp] theorem State.putPeer_streams (s : State) (n : Nat) (x : Peer) : (s.putPeer n x).streams = s.streams := rfl
@[simp] theorem State.putPeer_catchUps (s : State) (n : Nat) (x : Peer) : (s.putPeer n x).catchUps = s.catchUps := rfl
@[simp] theorem State.putPeer_bulk (s : State) (n : Nat) (x : Peer) : (s.putPeer n x).bulk = s.bulk := rfl
@[simp] theorem State.putPeer_seq (s : State) (n : Nat) (x : Peer) : (s.putPeer n x).seq = s.seq := rfl
@[simp] theorem State.putPeer_fencedStevs (s : State) (n : Nat) (x : Peer) : (s.putPeer n x).fencedStevs = s.fencedStevs := rfl
@[simp] theorem State.putPeer_remoteHolds (s : State) (n : Nat) (x : Peer) : (s.putPeer n x).remoteHolds = s.remoteHolds := rfl
@[simp] theorem State.putPeer_remoteWaits (s : State) (n : Nat) (x : Peer) : (s.putPeer n x).remoteWaits = s.remoteWaits := rfl
@[simp] theorem State.putPeer_tables (s : State) (n : Nat) (x : Peer) : (s.putPeer n x).tables = s.tables := rfl
@[simp] theorem State.putPeer_groups (s : State) (n : Nat) (x : Peer) : (s.putPeer n x).groups = s.groups := rfl
@[simp] theorem State.putPeer_masters (s : State) (n : Nat) (x : Peer) : (s.putPeer n x).masters = s.masters := rfl
@[simp] theorem State.putPeer_cranes (s : State) (n : Nat) (x : Peer) : (s.putPeer n x).cranes = s.cranes := rfl
@[simp] theorem State.putPeer_hot (s : State) (n : Nat) (x : Peer) : (s.putPeer n x).hot = s.hot := rfl
@[simp] theorem State.putPeer_jobs (s : State) (n : Nat) (x : Peer) : (s.putPeer n x).jobs = s.jobs := rfl
@[simp] theorem State.putPeer_nextJob (s : State) (n : Nat) (x : Peer) : (s.putPeer n x).nextJob = s.nextJob := rfl
@[simp] theorem State.putPeer_fetched (s : State) (n : Nat) (x : Peer) : (s.putPeer n x).fetched = s.fetched := rfl
@[simp] theorem State.putPeer_models (s : State) (n : Nat) (x : Peer) : (s.putPeer n x).models = s.models := rfl
@[simp] theorem State.putPeer_evicted (s : State) (n : Nat) (x : Peer) : (s.putPeer n x).evicted = s.evicted := rfl
@[simp] theorem State.putPeer_counts (s : State) (n : Nat) (x : Peer) : (s.putPeer n x).counts = s.counts := rfl
@[simp] theorem State.putPeer_admitted (s : State) (n : Nat) (x : Peer) : (s.putPeer n x).admitted = s.admitted := rfl
@[simp] theorem State.putPeer_conss (s : State) (n : Nat) (x : Peer) : (s.putPeer n x).conss = s.conss := rfl
@[simp] theorem State.putPeer_retiring (s : State) (n : Nat) (x : Peer) : (s.putPeer n x).retiring = s.retiring := rfl
@[simp] theorem State.putPeer_votes (s : State) (n : Nat) (x : Peer) : (s.putPeer n x).votes = s.votes := rfl
@[simp] theorem State.putPeer_decisions (s : State) (n : Nat) (x : Peer) : (s.putPeer n x).decisions = s.decisions := rfl
@[simp] theorem State.putPeer_notices (s : State) (n : Nat) (x : Peer) : (s.putPeer n x).notices = s.notices := rfl
@[simp] theorem State.putPeer_noticesDone (s : State) (n : Nat) (x : Peer) : (s.putPeer n x).noticesDone = s.noticesDone := rfl
@[simp] theorem State.putPeer_unacked (s : State) (n : Nat) (x : Peer) : (s.putPeer n x).unacked = s.unacked := rfl
@[simp] theorem State.putPeer_nextVc0 (s : State) (n : Nat) (x : Peer) : (s.putPeer n x).nextVc0 = s.nextVc0 := rfl
@[simp] theorem State.putPeer_freeFrames (s : State) (n : Nat) (x : Peer) : (s.putPeer n x).freeFrames = s.freeFrames := rfl
@[simp] theorem State.putPeer_deferred (s : State) (n : Nat) (x : Peer) : (s.putPeer n x).deferred = s.deferred := rfl
@[simp] theorem State.putPeer_indexPages (s : State) (n : Nat) (x : Peer) : (s.putPeer n x).indexPages = s.indexPages := rfl
@[simp] theorem State.putPeer_appended (s : State) (n : Nat) (x : Peer) : (s.putPeer n x).appended = s.appended := rfl
@[simp] theorem State.putPeer_quays (s : State) (n : Nat) (x : Peer) : (s.putPeer n x).quays = s.quays := rfl
@[simp] theorem State.putPeer_routes (s : State) (n : Nat) (x : Peer) : (s.putPeer n x).routes = s.routes := rfl
@[simp] theorem State.putPeer_pod (s : State) (n : Nat) (x : Peer) : (s.putPeer n x).pod = s.pod := rfl
@[simp] theorem State.putPeer_colls (s : State) (n : Nat) (x : Peer) : (s.putPeer n x).colls = s.colls := rfl
@[simp] theorem State.putPeer_salvor (s : State) (n : Nat) (x : Peer) : (s.putPeer n x).salvor = s.salvor := rfl
@[simp] theorem State.putPeer_dock (s : State) (n : Nat) (x : Peer) : (s.putPeer n x).dock = s.dock := rfl
@[simp] theorem State.putPeer_rebuild (s : State) (n : Nat) (x : Peer) : (s.putPeer n x).rebuild = s.rebuild := rfl
@[simp] theorem State.putPeer_rebuilding (s : State) (n : Nat) (x : Peer) : (s.putPeer n x).rebuilding = s.rebuilding := rfl
@[simp] theorem State.putPeer_cus (s : State) (n : Nat) (x : Peer) : (s.putPeer n x).cus = s.cus := rfl
@[simp] theorem State.putPeer_power (s : State) (n : Nat) (x : Peer) : (s.putPeer n x).power = s.power := rfl
@[simp] theorem State.putPeer_pilot (s : State) (n : Nat) (x : Peer) : (s.putPeer n x).pilot = s.pilot := rfl
@[simp] theorem State.putPeer_veiled (s : State) (n : Nat) (x : Peer) : (s.putPeer n x).veiled = s.veiled := rfl
@[simp] theorem State.putPeer_halted (s : State) (n : Nat) (x : Peer) : (s.putPeer n x).halted = s.halted := rfl
@[simp] theorem State.putPeer_out (s : State) (n : Nat) (x : Peer) : (s.putPeer n x).out = s.out := rfl
@[simp] theorem State.putPeer_laneOut (s : State) (n : Nat) (x : Peer) : (s.putPeer n x).laneOut = s.laneOut := rfl
@[simp] theorem State.putPeer_pending (s : State) (n : Nat) (x : Peer) : (s.putPeer n x).pending = s.pending := rfl

/-! ### `State.putCtx` -/

@[simp] theorem State.putCtx_flds (s : State) (k c : Nat) (x : KCtx) : (s.putCtx k c x).flds = s.flds := rfl
@[simp] theorem State.putCtx_latchR (s : State) (k c : Nat) (x : KCtx) : (s.putCtx k c x).latchR = s.latchR := rfl
@[simp] theorem State.putCtx_latchW (s : State) (k c : Nat) (x : KCtx) : (s.putCtx k c x).latchW = s.latchW := rfl
@[simp] theorem State.putCtx_mem (s : State) (k c : Nat) (x : KCtx) : (s.putCtx k c x).mem = s.mem := rfl
@[simp] theorem State.putCtx_undef (s : State) (k c : Nat) (x : KCtx) : (s.putCtx k c x).undef = s.undef := rfl
@[simp] theorem State.putCtx_stamp (s : State) (k c : Nat) (x : KCtx) : (s.putCtx k c x).stamp = s.stamp := rfl
@[simp] theorem State.putCtx_ecc (s : State) (k c : Nat) (x : KCtx) : (s.putCtx k c x).ecc = s.ecc := rfl
@[simp] theorem State.putCtx_host (s : State) (k c : Nat) (x : KCtx) : (s.putCtx k c x).host = s.host := rfl
@[simp] theorem State.putCtx_winCache (s : State) (k c : Nat) (x : KCtx) : (s.putCtx k c x).winCache = s.winCache := rfl
@[simp] theorem State.putCtx_msix (s : State) (k c : Nat) (x : KCtx) : (s.putCtx k c x).msix = s.msix := rfl
@[simp] theorem State.putCtx_msixPend (s : State) (k c : Nat) (x : KCtx) : (s.putCtx k c x).msixPend = s.msixPend := rfl
@[simp] theorem State.putCtx_ideHeld (s : State) (k c : Nat) (x : KCtx) : (s.putCtx k c x).ideHeld = s.ideHeld := rfl
@[simp] theorem State.putCtx_rings (s : State) (k c : Nat) (x : KCtx) : (s.putCtx k c x).rings = s.rings := rfl
@[simp] theorem State.putCtx_ringTurn (s : State) (k c : Nat) (x : KCtx) : (s.putCtx k c x).ringTurn = s.ringTurn := rfl
@[simp] theorem State.putCtx_evt (s : State) (k c : Nat) (x : KCtx) : (s.putCtx k c x).evt = s.evt := rfl
@[simp] theorem State.putCtx_tags (s : State) (k c : Nat) (x : KCtx) : (s.putCtx k c x).tags = s.tags := rfl
@[simp] theorem State.putCtx_ready (s : State) (k c : Nat) (x : KCtx) : (s.putCtx k c x).ready = s.ready := rfl
@[simp] theorem State.putCtx_origins (s : State) (k c : Nat) (x : KCtx) : (s.putCtx k c x).origins = s.origins := rfl
@[simp] theorem State.putCtx_kilns (s : State) (k c : Nat) (x : KCtx) : (s.putCtx k c x).kilns = s.kilns := rfl
@[simp] theorem State.putCtx_streams (s : State) (k c : Nat) (x : KCtx) : (s.putCtx k c x).streams = s.streams := rfl
@[simp] theorem State.putCtx_catchUps (s : State) (k c : Nat) (x : KCtx) : (s.putCtx k c x).catchUps = s.catchUps := rfl
@[simp] theorem State.putCtx_bulk (s : State) (k c : Nat) (x : KCtx) : (s.putCtx k c x).bulk = s.bulk := rfl
@[simp] theorem State.putCtx_seq (s : State) (k c : Nat) (x : KCtx) : (s.putCtx k c x).seq = s.seq := rfl
@[simp] theorem State.putCtx_fencedStevs (s : State) (k c : Nat) (x : KCtx) : (s.putCtx k c x).fencedStevs = s.fencedStevs := rfl
@[simp] theorem State.putCtx_remoteHolds (s : State) (k c : Nat) (x : KCtx) : (s.putCtx k c x).remoteHolds = s.remoteHolds := rfl
@[simp] theorem State.putCtx_remoteWaits (s : State) (k c : Nat) (x : KCtx) : (s.putCtx k c x).remoteWaits = s.remoteWaits := rfl
@[simp] theorem State.putCtx_tables (s : State) (k c : Nat) (x : KCtx) : (s.putCtx k c x).tables = s.tables := rfl
@[simp] theorem State.putCtx_groups (s : State) (k c : Nat) (x : KCtx) : (s.putCtx k c x).groups = s.groups := rfl
@[simp] theorem State.putCtx_masters (s : State) (k c : Nat) (x : KCtx) : (s.putCtx k c x).masters = s.masters := rfl
@[simp] theorem State.putCtx_cranes (s : State) (k c : Nat) (x : KCtx) : (s.putCtx k c x).cranes = s.cranes := rfl
@[simp] theorem State.putCtx_hot (s : State) (k c : Nat) (x : KCtx) : (s.putCtx k c x).hot = s.hot := rfl
@[simp] theorem State.putCtx_jobs (s : State) (k c : Nat) (x : KCtx) : (s.putCtx k c x).jobs = s.jobs := rfl
@[simp] theorem State.putCtx_nextJob (s : State) (k c : Nat) (x : KCtx) : (s.putCtx k c x).nextJob = s.nextJob := rfl
@[simp] theorem State.putCtx_fetched (s : State) (k c : Nat) (x : KCtx) : (s.putCtx k c x).fetched = s.fetched := rfl
@[simp] theorem State.putCtx_models (s : State) (k c : Nat) (x : KCtx) : (s.putCtx k c x).models = s.models := rfl
@[simp] theorem State.putCtx_evicted (s : State) (k c : Nat) (x : KCtx) : (s.putCtx k c x).evicted = s.evicted := rfl
@[simp] theorem State.putCtx_counts (s : State) (k c : Nat) (x : KCtx) : (s.putCtx k c x).counts = s.counts := rfl
@[simp] theorem State.putCtx_admitted (s : State) (k c : Nat) (x : KCtx) : (s.putCtx k c x).admitted = s.admitted := rfl
@[simp] theorem State.putCtx_conss (s : State) (k c : Nat) (x : KCtx) : (s.putCtx k c x).conss = s.conss := rfl
@[simp] theorem State.putCtx_retiring (s : State) (k c : Nat) (x : KCtx) : (s.putCtx k c x).retiring = s.retiring := rfl
@[simp] theorem State.putCtx_votes (s : State) (k c : Nat) (x : KCtx) : (s.putCtx k c x).votes = s.votes := rfl
@[simp] theorem State.putCtx_decisions (s : State) (k c : Nat) (x : KCtx) : (s.putCtx k c x).decisions = s.decisions := rfl
@[simp] theorem State.putCtx_notices (s : State) (k c : Nat) (x : KCtx) : (s.putCtx k c x).notices = s.notices := rfl
@[simp] theorem State.putCtx_noticesDone (s : State) (k c : Nat) (x : KCtx) : (s.putCtx k c x).noticesDone = s.noticesDone := rfl
@[simp] theorem State.putCtx_unacked (s : State) (k c : Nat) (x : KCtx) : (s.putCtx k c x).unacked = s.unacked := rfl
@[simp] theorem State.putCtx_nextVc0 (s : State) (k c : Nat) (x : KCtx) : (s.putCtx k c x).nextVc0 = s.nextVc0 := rfl
@[simp] theorem State.putCtx_freeFrames (s : State) (k c : Nat) (x : KCtx) : (s.putCtx k c x).freeFrames = s.freeFrames := rfl
@[simp] theorem State.putCtx_deferred (s : State) (k c : Nat) (x : KCtx) : (s.putCtx k c x).deferred = s.deferred := rfl
@[simp] theorem State.putCtx_indexPages (s : State) (k c : Nat) (x : KCtx) : (s.putCtx k c x).indexPages = s.indexPages := rfl
@[simp] theorem State.putCtx_appended (s : State) (k c : Nat) (x : KCtx) : (s.putCtx k c x).appended = s.appended := rfl
@[simp] theorem State.putCtx_quays (s : State) (k c : Nat) (x : KCtx) : (s.putCtx k c x).quays = s.quays := rfl
@[simp] theorem State.putCtx_routes (s : State) (k c : Nat) (x : KCtx) : (s.putCtx k c x).routes = s.routes := rfl
@[simp] theorem State.putCtx_peers (s : State) (k c : Nat) (x : KCtx) : (s.putCtx k c x).peers = s.peers := rfl
@[simp] theorem State.putCtx_pod (s : State) (k c : Nat) (x : KCtx) : (s.putCtx k c x).pod = s.pod := rfl
@[simp] theorem State.putCtx_colls (s : State) (k c : Nat) (x : KCtx) : (s.putCtx k c x).colls = s.colls := rfl
@[simp] theorem State.putCtx_salvor (s : State) (k c : Nat) (x : KCtx) : (s.putCtx k c x).salvor = s.salvor := rfl
@[simp] theorem State.putCtx_dock (s : State) (k c : Nat) (x : KCtx) : (s.putCtx k c x).dock = s.dock := rfl
@[simp] theorem State.putCtx_rebuild (s : State) (k c : Nat) (x : KCtx) : (s.putCtx k c x).rebuild = s.rebuild := rfl
@[simp] theorem State.putCtx_rebuilding (s : State) (k c : Nat) (x : KCtx) : (s.putCtx k c x).rebuilding = s.rebuilding := rfl
@[simp] theorem State.putCtx_cus (s : State) (k c : Nat) (x : KCtx) : (s.putCtx k c x).cus = s.cus := rfl
@[simp] theorem State.putCtx_power (s : State) (k c : Nat) (x : KCtx) : (s.putCtx k c x).power = s.power := rfl
@[simp] theorem State.putCtx_pilot (s : State) (k c : Nat) (x : KCtx) : (s.putCtx k c x).pilot = s.pilot := rfl
@[simp] theorem State.putCtx_veiled (s : State) (k c : Nat) (x : KCtx) : (s.putCtx k c x).veiled = s.veiled := rfl
@[simp] theorem State.putCtx_halted (s : State) (k c : Nat) (x : KCtx) : (s.putCtx k c x).halted = s.halted := rfl
@[simp] theorem State.putCtx_out (s : State) (k c : Nat) (x : KCtx) : (s.putCtx k c x).out = s.out := rfl
@[simp] theorem State.putCtx_laneOut (s : State) (k c : Nat) (x : KCtx) : (s.putCtx k c x).laneOut = s.laneOut := rfl
@[simp] theorem State.putCtx_pending (s : State) (k c : Nat) (x : KCtx) : (s.putCtx k c x).pending = s.pending := rfl

/-! ### `State.putKiln` -/

@[simp] theorem State.putKiln_flds (s : State) (n : Nat) (x : Kiln) : (s.putKiln n x).flds = s.flds := rfl
@[simp] theorem State.putKiln_latchR (s : State) (n : Nat) (x : Kiln) : (s.putKiln n x).latchR = s.latchR := rfl
@[simp] theorem State.putKiln_latchW (s : State) (n : Nat) (x : Kiln) : (s.putKiln n x).latchW = s.latchW := rfl
@[simp] theorem State.putKiln_mem (s : State) (n : Nat) (x : Kiln) : (s.putKiln n x).mem = s.mem := rfl
@[simp] theorem State.putKiln_undef (s : State) (n : Nat) (x : Kiln) : (s.putKiln n x).undef = s.undef := rfl
@[simp] theorem State.putKiln_stamp (s : State) (n : Nat) (x : Kiln) : (s.putKiln n x).stamp = s.stamp := rfl
@[simp] theorem State.putKiln_ecc (s : State) (n : Nat) (x : Kiln) : (s.putKiln n x).ecc = s.ecc := rfl
@[simp] theorem State.putKiln_host (s : State) (n : Nat) (x : Kiln) : (s.putKiln n x).host = s.host := rfl
@[simp] theorem State.putKiln_winCache (s : State) (n : Nat) (x : Kiln) : (s.putKiln n x).winCache = s.winCache := rfl
@[simp] theorem State.putKiln_msix (s : State) (n : Nat) (x : Kiln) : (s.putKiln n x).msix = s.msix := rfl
@[simp] theorem State.putKiln_msixPend (s : State) (n : Nat) (x : Kiln) : (s.putKiln n x).msixPend = s.msixPend := rfl
@[simp] theorem State.putKiln_ideHeld (s : State) (n : Nat) (x : Kiln) : (s.putKiln n x).ideHeld = s.ideHeld := rfl
@[simp] theorem State.putKiln_rings (s : State) (n : Nat) (x : Kiln) : (s.putKiln n x).rings = s.rings := rfl
@[simp] theorem State.putKiln_ringTurn (s : State) (n : Nat) (x : Kiln) : (s.putKiln n x).ringTurn = s.ringTurn := rfl
@[simp] theorem State.putKiln_evt (s : State) (n : Nat) (x : Kiln) : (s.putKiln n x).evt = s.evt := rfl
@[simp] theorem State.putKiln_tags (s : State) (n : Nat) (x : Kiln) : (s.putKiln n x).tags = s.tags := rfl
@[simp] theorem State.putKiln_ready (s : State) (n : Nat) (x : Kiln) : (s.putKiln n x).ready = s.ready := rfl
@[simp] theorem State.putKiln_origins (s : State) (n : Nat) (x : Kiln) : (s.putKiln n x).origins = s.origins := rfl
@[simp] theorem State.putKiln_ctxs (s : State) (n : Nat) (x : Kiln) : (s.putKiln n x).ctxs = s.ctxs := rfl
@[simp] theorem State.putKiln_streams (s : State) (n : Nat) (x : Kiln) : (s.putKiln n x).streams = s.streams := rfl
@[simp] theorem State.putKiln_catchUps (s : State) (n : Nat) (x : Kiln) : (s.putKiln n x).catchUps = s.catchUps := rfl
@[simp] theorem State.putKiln_bulk (s : State) (n : Nat) (x : Kiln) : (s.putKiln n x).bulk = s.bulk := rfl
@[simp] theorem State.putKiln_seq (s : State) (n : Nat) (x : Kiln) : (s.putKiln n x).seq = s.seq := rfl
@[simp] theorem State.putKiln_fencedStevs (s : State) (n : Nat) (x : Kiln) : (s.putKiln n x).fencedStevs = s.fencedStevs := rfl
@[simp] theorem State.putKiln_remoteHolds (s : State) (n : Nat) (x : Kiln) : (s.putKiln n x).remoteHolds = s.remoteHolds := rfl
@[simp] theorem State.putKiln_remoteWaits (s : State) (n : Nat) (x : Kiln) : (s.putKiln n x).remoteWaits = s.remoteWaits := rfl
@[simp] theorem State.putKiln_tables (s : State) (n : Nat) (x : Kiln) : (s.putKiln n x).tables = s.tables := rfl
@[simp] theorem State.putKiln_groups (s : State) (n : Nat) (x : Kiln) : (s.putKiln n x).groups = s.groups := rfl
@[simp] theorem State.putKiln_masters (s : State) (n : Nat) (x : Kiln) : (s.putKiln n x).masters = s.masters := rfl
@[simp] theorem State.putKiln_cranes (s : State) (n : Nat) (x : Kiln) : (s.putKiln n x).cranes = s.cranes := rfl
@[simp] theorem State.putKiln_hot (s : State) (n : Nat) (x : Kiln) : (s.putKiln n x).hot = s.hot := rfl
@[simp] theorem State.putKiln_jobs (s : State) (n : Nat) (x : Kiln) : (s.putKiln n x).jobs = s.jobs := rfl
@[simp] theorem State.putKiln_nextJob (s : State) (n : Nat) (x : Kiln) : (s.putKiln n x).nextJob = s.nextJob := rfl
@[simp] theorem State.putKiln_fetched (s : State) (n : Nat) (x : Kiln) : (s.putKiln n x).fetched = s.fetched := rfl
@[simp] theorem State.putKiln_models (s : State) (n : Nat) (x : Kiln) : (s.putKiln n x).models = s.models := rfl
@[simp] theorem State.putKiln_evicted (s : State) (n : Nat) (x : Kiln) : (s.putKiln n x).evicted = s.evicted := rfl
@[simp] theorem State.putKiln_counts (s : State) (n : Nat) (x : Kiln) : (s.putKiln n x).counts = s.counts := rfl
@[simp] theorem State.putKiln_admitted (s : State) (n : Nat) (x : Kiln) : (s.putKiln n x).admitted = s.admitted := rfl
@[simp] theorem State.putKiln_conss (s : State) (n : Nat) (x : Kiln) : (s.putKiln n x).conss = s.conss := rfl
@[simp] theorem State.putKiln_retiring (s : State) (n : Nat) (x : Kiln) : (s.putKiln n x).retiring = s.retiring := rfl
@[simp] theorem State.putKiln_votes (s : State) (n : Nat) (x : Kiln) : (s.putKiln n x).votes = s.votes := rfl
@[simp] theorem State.putKiln_decisions (s : State) (n : Nat) (x : Kiln) : (s.putKiln n x).decisions = s.decisions := rfl
@[simp] theorem State.putKiln_notices (s : State) (n : Nat) (x : Kiln) : (s.putKiln n x).notices = s.notices := rfl
@[simp] theorem State.putKiln_noticesDone (s : State) (n : Nat) (x : Kiln) : (s.putKiln n x).noticesDone = s.noticesDone := rfl
@[simp] theorem State.putKiln_unacked (s : State) (n : Nat) (x : Kiln) : (s.putKiln n x).unacked = s.unacked := rfl
@[simp] theorem State.putKiln_nextVc0 (s : State) (n : Nat) (x : Kiln) : (s.putKiln n x).nextVc0 = s.nextVc0 := rfl
@[simp] theorem State.putKiln_freeFrames (s : State) (n : Nat) (x : Kiln) : (s.putKiln n x).freeFrames = s.freeFrames := rfl
@[simp] theorem State.putKiln_deferred (s : State) (n : Nat) (x : Kiln) : (s.putKiln n x).deferred = s.deferred := rfl
@[simp] theorem State.putKiln_indexPages (s : State) (n : Nat) (x : Kiln) : (s.putKiln n x).indexPages = s.indexPages := rfl
@[simp] theorem State.putKiln_appended (s : State) (n : Nat) (x : Kiln) : (s.putKiln n x).appended = s.appended := rfl
@[simp] theorem State.putKiln_quays (s : State) (n : Nat) (x : Kiln) : (s.putKiln n x).quays = s.quays := rfl
@[simp] theorem State.putKiln_routes (s : State) (n : Nat) (x : Kiln) : (s.putKiln n x).routes = s.routes := rfl
@[simp] theorem State.putKiln_peers (s : State) (n : Nat) (x : Kiln) : (s.putKiln n x).peers = s.peers := rfl
@[simp] theorem State.putKiln_pod (s : State) (n : Nat) (x : Kiln) : (s.putKiln n x).pod = s.pod := rfl
@[simp] theorem State.putKiln_colls (s : State) (n : Nat) (x : Kiln) : (s.putKiln n x).colls = s.colls := rfl
@[simp] theorem State.putKiln_salvor (s : State) (n : Nat) (x : Kiln) : (s.putKiln n x).salvor = s.salvor := rfl
@[simp] theorem State.putKiln_dock (s : State) (n : Nat) (x : Kiln) : (s.putKiln n x).dock = s.dock := rfl
@[simp] theorem State.putKiln_rebuild (s : State) (n : Nat) (x : Kiln) : (s.putKiln n x).rebuild = s.rebuild := rfl
@[simp] theorem State.putKiln_rebuilding (s : State) (n : Nat) (x : Kiln) : (s.putKiln n x).rebuilding = s.rebuilding := rfl
@[simp] theorem State.putKiln_cus (s : State) (n : Nat) (x : Kiln) : (s.putKiln n x).cus = s.cus := rfl
@[simp] theorem State.putKiln_power (s : State) (n : Nat) (x : Kiln) : (s.putKiln n x).power = s.power := rfl
@[simp] theorem State.putKiln_pilot (s : State) (n : Nat) (x : Kiln) : (s.putKiln n x).pilot = s.pilot := rfl
@[simp] theorem State.putKiln_veiled (s : State) (n : Nat) (x : Kiln) : (s.putKiln n x).veiled = s.veiled := rfl
@[simp] theorem State.putKiln_halted (s : State) (n : Nat) (x : Kiln) : (s.putKiln n x).halted = s.halted := rfl
@[simp] theorem State.putKiln_out (s : State) (n : Nat) (x : Kiln) : (s.putKiln n x).out = s.out := rfl
@[simp] theorem State.putKiln_laneOut (s : State) (n : Nat) (x : Kiln) : (s.putKiln n x).laneOut = s.laneOut := rfl
@[simp] theorem State.putKiln_pending (s : State) (n : Nat) (x : Kiln) : (s.putKiln n x).pending = s.pending := rfl

/-! ### `State.putStream` -/

@[simp] theorem State.putStream_flds (s : State) (n : Nat) (x : Stream) : (s.putStream n x).flds = s.flds := rfl
@[simp] theorem State.putStream_latchR (s : State) (n : Nat) (x : Stream) : (s.putStream n x).latchR = s.latchR := rfl
@[simp] theorem State.putStream_latchW (s : State) (n : Nat) (x : Stream) : (s.putStream n x).latchW = s.latchW := rfl
@[simp] theorem State.putStream_mem (s : State) (n : Nat) (x : Stream) : (s.putStream n x).mem = s.mem := rfl
@[simp] theorem State.putStream_undef (s : State) (n : Nat) (x : Stream) : (s.putStream n x).undef = s.undef := rfl
@[simp] theorem State.putStream_stamp (s : State) (n : Nat) (x : Stream) : (s.putStream n x).stamp = s.stamp := rfl
@[simp] theorem State.putStream_ecc (s : State) (n : Nat) (x : Stream) : (s.putStream n x).ecc = s.ecc := rfl
@[simp] theorem State.putStream_host (s : State) (n : Nat) (x : Stream) : (s.putStream n x).host = s.host := rfl
@[simp] theorem State.putStream_winCache (s : State) (n : Nat) (x : Stream) : (s.putStream n x).winCache = s.winCache := rfl
@[simp] theorem State.putStream_msix (s : State) (n : Nat) (x : Stream) : (s.putStream n x).msix = s.msix := rfl
@[simp] theorem State.putStream_msixPend (s : State) (n : Nat) (x : Stream) : (s.putStream n x).msixPend = s.msixPend := rfl
@[simp] theorem State.putStream_ideHeld (s : State) (n : Nat) (x : Stream) : (s.putStream n x).ideHeld = s.ideHeld := rfl
@[simp] theorem State.putStream_rings (s : State) (n : Nat) (x : Stream) : (s.putStream n x).rings = s.rings := rfl
@[simp] theorem State.putStream_ringTurn (s : State) (n : Nat) (x : Stream) : (s.putStream n x).ringTurn = s.ringTurn := rfl
@[simp] theorem State.putStream_evt (s : State) (n : Nat) (x : Stream) : (s.putStream n x).evt = s.evt := rfl
@[simp] theorem State.putStream_tags (s : State) (n : Nat) (x : Stream) : (s.putStream n x).tags = s.tags := rfl
@[simp] theorem State.putStream_ready (s : State) (n : Nat) (x : Stream) : (s.putStream n x).ready = s.ready := rfl
@[simp] theorem State.putStream_origins (s : State) (n : Nat) (x : Stream) : (s.putStream n x).origins = s.origins := rfl
@[simp] theorem State.putStream_ctxs (s : State) (n : Nat) (x : Stream) : (s.putStream n x).ctxs = s.ctxs := rfl
@[simp] theorem State.putStream_kilns (s : State) (n : Nat) (x : Stream) : (s.putStream n x).kilns = s.kilns := rfl
@[simp] theorem State.putStream_catchUps (s : State) (n : Nat) (x : Stream) : (s.putStream n x).catchUps = s.catchUps := rfl
@[simp] theorem State.putStream_bulk (s : State) (n : Nat) (x : Stream) : (s.putStream n x).bulk = s.bulk := rfl
@[simp] theorem State.putStream_seq (s : State) (n : Nat) (x : Stream) : (s.putStream n x).seq = s.seq := rfl
@[simp] theorem State.putStream_fencedStevs (s : State) (n : Nat) (x : Stream) : (s.putStream n x).fencedStevs = s.fencedStevs := rfl
@[simp] theorem State.putStream_remoteHolds (s : State) (n : Nat) (x : Stream) : (s.putStream n x).remoteHolds = s.remoteHolds := rfl
@[simp] theorem State.putStream_remoteWaits (s : State) (n : Nat) (x : Stream) : (s.putStream n x).remoteWaits = s.remoteWaits := rfl
@[simp] theorem State.putStream_tables (s : State) (n : Nat) (x : Stream) : (s.putStream n x).tables = s.tables := rfl
@[simp] theorem State.putStream_groups (s : State) (n : Nat) (x : Stream) : (s.putStream n x).groups = s.groups := rfl
@[simp] theorem State.putStream_masters (s : State) (n : Nat) (x : Stream) : (s.putStream n x).masters = s.masters := rfl
@[simp] theorem State.putStream_cranes (s : State) (n : Nat) (x : Stream) : (s.putStream n x).cranes = s.cranes := rfl
@[simp] theorem State.putStream_hot (s : State) (n : Nat) (x : Stream) : (s.putStream n x).hot = s.hot := rfl
@[simp] theorem State.putStream_jobs (s : State) (n : Nat) (x : Stream) : (s.putStream n x).jobs = s.jobs := rfl
@[simp] theorem State.putStream_nextJob (s : State) (n : Nat) (x : Stream) : (s.putStream n x).nextJob = s.nextJob := rfl
@[simp] theorem State.putStream_fetched (s : State) (n : Nat) (x : Stream) : (s.putStream n x).fetched = s.fetched := rfl
@[simp] theorem State.putStream_models (s : State) (n : Nat) (x : Stream) : (s.putStream n x).models = s.models := rfl
@[simp] theorem State.putStream_evicted (s : State) (n : Nat) (x : Stream) : (s.putStream n x).evicted = s.evicted := rfl
@[simp] theorem State.putStream_counts (s : State) (n : Nat) (x : Stream) : (s.putStream n x).counts = s.counts := rfl
@[simp] theorem State.putStream_admitted (s : State) (n : Nat) (x : Stream) : (s.putStream n x).admitted = s.admitted := rfl
@[simp] theorem State.putStream_conss (s : State) (n : Nat) (x : Stream) : (s.putStream n x).conss = s.conss := rfl
@[simp] theorem State.putStream_retiring (s : State) (n : Nat) (x : Stream) : (s.putStream n x).retiring = s.retiring := rfl
@[simp] theorem State.putStream_votes (s : State) (n : Nat) (x : Stream) : (s.putStream n x).votes = s.votes := rfl
@[simp] theorem State.putStream_decisions (s : State) (n : Nat) (x : Stream) : (s.putStream n x).decisions = s.decisions := rfl
@[simp] theorem State.putStream_notices (s : State) (n : Nat) (x : Stream) : (s.putStream n x).notices = s.notices := rfl
@[simp] theorem State.putStream_noticesDone (s : State) (n : Nat) (x : Stream) : (s.putStream n x).noticesDone = s.noticesDone := rfl
@[simp] theorem State.putStream_unacked (s : State) (n : Nat) (x : Stream) : (s.putStream n x).unacked = s.unacked := rfl
@[simp] theorem State.putStream_nextVc0 (s : State) (n : Nat) (x : Stream) : (s.putStream n x).nextVc0 = s.nextVc0 := rfl
@[simp] theorem State.putStream_freeFrames (s : State) (n : Nat) (x : Stream) : (s.putStream n x).freeFrames = s.freeFrames := rfl
@[simp] theorem State.putStream_deferred (s : State) (n : Nat) (x : Stream) : (s.putStream n x).deferred = s.deferred := rfl
@[simp] theorem State.putStream_indexPages (s : State) (n : Nat) (x : Stream) : (s.putStream n x).indexPages = s.indexPages := rfl
@[simp] theorem State.putStream_appended (s : State) (n : Nat) (x : Stream) : (s.putStream n x).appended = s.appended := rfl
@[simp] theorem State.putStream_quays (s : State) (n : Nat) (x : Stream) : (s.putStream n x).quays = s.quays := rfl
@[simp] theorem State.putStream_routes (s : State) (n : Nat) (x : Stream) : (s.putStream n x).routes = s.routes := rfl
@[simp] theorem State.putStream_peers (s : State) (n : Nat) (x : Stream) : (s.putStream n x).peers = s.peers := rfl
@[simp] theorem State.putStream_pod (s : State) (n : Nat) (x : Stream) : (s.putStream n x).pod = s.pod := rfl
@[simp] theorem State.putStream_colls (s : State) (n : Nat) (x : Stream) : (s.putStream n x).colls = s.colls := rfl
@[simp] theorem State.putStream_salvor (s : State) (n : Nat) (x : Stream) : (s.putStream n x).salvor = s.salvor := rfl
@[simp] theorem State.putStream_dock (s : State) (n : Nat) (x : Stream) : (s.putStream n x).dock = s.dock := rfl
@[simp] theorem State.putStream_rebuild (s : State) (n : Nat) (x : Stream) : (s.putStream n x).rebuild = s.rebuild := rfl
@[simp] theorem State.putStream_rebuilding (s : State) (n : Nat) (x : Stream) : (s.putStream n x).rebuilding = s.rebuilding := rfl
@[simp] theorem State.putStream_cus (s : State) (n : Nat) (x : Stream) : (s.putStream n x).cus = s.cus := rfl
@[simp] theorem State.putStream_power (s : State) (n : Nat) (x : Stream) : (s.putStream n x).power = s.power := rfl
@[simp] theorem State.putStream_pilot (s : State) (n : Nat) (x : Stream) : (s.putStream n x).pilot = s.pilot := rfl
@[simp] theorem State.putStream_veiled (s : State) (n : Nat) (x : Stream) : (s.putStream n x).veiled = s.veiled := rfl
@[simp] theorem State.putStream_halted (s : State) (n : Nat) (x : Stream) : (s.putStream n x).halted = s.halted := rfl
@[simp] theorem State.putStream_out (s : State) (n : Nat) (x : Stream) : (s.putStream n x).out = s.out := rfl
@[simp] theorem State.putStream_laneOut (s : State) (n : Nat) (x : Stream) : (s.putStream n x).laneOut = s.laneOut := rfl
@[simp] theorem State.putStream_pending (s : State) (n : Nat) (x : Stream) : (s.putStream n x).pending = s.pending := rfl

/-! ### `State.putRing` -/

@[simp] theorem State.putRing_flds (s : State) (n : Nat) (x : Ring) : (s.putRing n x).flds = s.flds := rfl
@[simp] theorem State.putRing_latchR (s : State) (n : Nat) (x : Ring) : (s.putRing n x).latchR = s.latchR := rfl
@[simp] theorem State.putRing_latchW (s : State) (n : Nat) (x : Ring) : (s.putRing n x).latchW = s.latchW := rfl
@[simp] theorem State.putRing_mem (s : State) (n : Nat) (x : Ring) : (s.putRing n x).mem = s.mem := rfl
@[simp] theorem State.putRing_undef (s : State) (n : Nat) (x : Ring) : (s.putRing n x).undef = s.undef := rfl
@[simp] theorem State.putRing_stamp (s : State) (n : Nat) (x : Ring) : (s.putRing n x).stamp = s.stamp := rfl
@[simp] theorem State.putRing_ecc (s : State) (n : Nat) (x : Ring) : (s.putRing n x).ecc = s.ecc := rfl
@[simp] theorem State.putRing_host (s : State) (n : Nat) (x : Ring) : (s.putRing n x).host = s.host := rfl
@[simp] theorem State.putRing_winCache (s : State) (n : Nat) (x : Ring) : (s.putRing n x).winCache = s.winCache := rfl
@[simp] theorem State.putRing_msix (s : State) (n : Nat) (x : Ring) : (s.putRing n x).msix = s.msix := rfl
@[simp] theorem State.putRing_msixPend (s : State) (n : Nat) (x : Ring) : (s.putRing n x).msixPend = s.msixPend := rfl
@[simp] theorem State.putRing_ideHeld (s : State) (n : Nat) (x : Ring) : (s.putRing n x).ideHeld = s.ideHeld := rfl
@[simp] theorem State.putRing_ringTurn (s : State) (n : Nat) (x : Ring) : (s.putRing n x).ringTurn = s.ringTurn := rfl
@[simp] theorem State.putRing_evt (s : State) (n : Nat) (x : Ring) : (s.putRing n x).evt = s.evt := rfl
@[simp] theorem State.putRing_tags (s : State) (n : Nat) (x : Ring) : (s.putRing n x).tags = s.tags := rfl
@[simp] theorem State.putRing_ready (s : State) (n : Nat) (x : Ring) : (s.putRing n x).ready = s.ready := rfl
@[simp] theorem State.putRing_origins (s : State) (n : Nat) (x : Ring) : (s.putRing n x).origins = s.origins := rfl
@[simp] theorem State.putRing_ctxs (s : State) (n : Nat) (x : Ring) : (s.putRing n x).ctxs = s.ctxs := rfl
@[simp] theorem State.putRing_kilns (s : State) (n : Nat) (x : Ring) : (s.putRing n x).kilns = s.kilns := rfl
@[simp] theorem State.putRing_streams (s : State) (n : Nat) (x : Ring) : (s.putRing n x).streams = s.streams := rfl
@[simp] theorem State.putRing_catchUps (s : State) (n : Nat) (x : Ring) : (s.putRing n x).catchUps = s.catchUps := rfl
@[simp] theorem State.putRing_bulk (s : State) (n : Nat) (x : Ring) : (s.putRing n x).bulk = s.bulk := rfl
@[simp] theorem State.putRing_seq (s : State) (n : Nat) (x : Ring) : (s.putRing n x).seq = s.seq := rfl
@[simp] theorem State.putRing_fencedStevs (s : State) (n : Nat) (x : Ring) : (s.putRing n x).fencedStevs = s.fencedStevs := rfl
@[simp] theorem State.putRing_remoteHolds (s : State) (n : Nat) (x : Ring) : (s.putRing n x).remoteHolds = s.remoteHolds := rfl
@[simp] theorem State.putRing_remoteWaits (s : State) (n : Nat) (x : Ring) : (s.putRing n x).remoteWaits = s.remoteWaits := rfl
@[simp] theorem State.putRing_tables (s : State) (n : Nat) (x : Ring) : (s.putRing n x).tables = s.tables := rfl
@[simp] theorem State.putRing_groups (s : State) (n : Nat) (x : Ring) : (s.putRing n x).groups = s.groups := rfl
@[simp] theorem State.putRing_masters (s : State) (n : Nat) (x : Ring) : (s.putRing n x).masters = s.masters := rfl
@[simp] theorem State.putRing_cranes (s : State) (n : Nat) (x : Ring) : (s.putRing n x).cranes = s.cranes := rfl
@[simp] theorem State.putRing_hot (s : State) (n : Nat) (x : Ring) : (s.putRing n x).hot = s.hot := rfl
@[simp] theorem State.putRing_jobs (s : State) (n : Nat) (x : Ring) : (s.putRing n x).jobs = s.jobs := rfl
@[simp] theorem State.putRing_nextJob (s : State) (n : Nat) (x : Ring) : (s.putRing n x).nextJob = s.nextJob := rfl
@[simp] theorem State.putRing_fetched (s : State) (n : Nat) (x : Ring) : (s.putRing n x).fetched = s.fetched := rfl
@[simp] theorem State.putRing_models (s : State) (n : Nat) (x : Ring) : (s.putRing n x).models = s.models := rfl
@[simp] theorem State.putRing_evicted (s : State) (n : Nat) (x : Ring) : (s.putRing n x).evicted = s.evicted := rfl
@[simp] theorem State.putRing_counts (s : State) (n : Nat) (x : Ring) : (s.putRing n x).counts = s.counts := rfl
@[simp] theorem State.putRing_admitted (s : State) (n : Nat) (x : Ring) : (s.putRing n x).admitted = s.admitted := rfl
@[simp] theorem State.putRing_conss (s : State) (n : Nat) (x : Ring) : (s.putRing n x).conss = s.conss := rfl
@[simp] theorem State.putRing_retiring (s : State) (n : Nat) (x : Ring) : (s.putRing n x).retiring = s.retiring := rfl
@[simp] theorem State.putRing_votes (s : State) (n : Nat) (x : Ring) : (s.putRing n x).votes = s.votes := rfl
@[simp] theorem State.putRing_decisions (s : State) (n : Nat) (x : Ring) : (s.putRing n x).decisions = s.decisions := rfl
@[simp] theorem State.putRing_notices (s : State) (n : Nat) (x : Ring) : (s.putRing n x).notices = s.notices := rfl
@[simp] theorem State.putRing_noticesDone (s : State) (n : Nat) (x : Ring) : (s.putRing n x).noticesDone = s.noticesDone := rfl
@[simp] theorem State.putRing_unacked (s : State) (n : Nat) (x : Ring) : (s.putRing n x).unacked = s.unacked := rfl
@[simp] theorem State.putRing_nextVc0 (s : State) (n : Nat) (x : Ring) : (s.putRing n x).nextVc0 = s.nextVc0 := rfl
@[simp] theorem State.putRing_freeFrames (s : State) (n : Nat) (x : Ring) : (s.putRing n x).freeFrames = s.freeFrames := rfl
@[simp] theorem State.putRing_deferred (s : State) (n : Nat) (x : Ring) : (s.putRing n x).deferred = s.deferred := rfl
@[simp] theorem State.putRing_indexPages (s : State) (n : Nat) (x : Ring) : (s.putRing n x).indexPages = s.indexPages := rfl
@[simp] theorem State.putRing_appended (s : State) (n : Nat) (x : Ring) : (s.putRing n x).appended = s.appended := rfl
@[simp] theorem State.putRing_quays (s : State) (n : Nat) (x : Ring) : (s.putRing n x).quays = s.quays := rfl
@[simp] theorem State.putRing_routes (s : State) (n : Nat) (x : Ring) : (s.putRing n x).routes = s.routes := rfl
@[simp] theorem State.putRing_peers (s : State) (n : Nat) (x : Ring) : (s.putRing n x).peers = s.peers := rfl
@[simp] theorem State.putRing_pod (s : State) (n : Nat) (x : Ring) : (s.putRing n x).pod = s.pod := rfl
@[simp] theorem State.putRing_colls (s : State) (n : Nat) (x : Ring) : (s.putRing n x).colls = s.colls := rfl
@[simp] theorem State.putRing_salvor (s : State) (n : Nat) (x : Ring) : (s.putRing n x).salvor = s.salvor := rfl
@[simp] theorem State.putRing_dock (s : State) (n : Nat) (x : Ring) : (s.putRing n x).dock = s.dock := rfl
@[simp] theorem State.putRing_rebuild (s : State) (n : Nat) (x : Ring) : (s.putRing n x).rebuild = s.rebuild := rfl
@[simp] theorem State.putRing_rebuilding (s : State) (n : Nat) (x : Ring) : (s.putRing n x).rebuilding = s.rebuilding := rfl
@[simp] theorem State.putRing_cus (s : State) (n : Nat) (x : Ring) : (s.putRing n x).cus = s.cus := rfl
@[simp] theorem State.putRing_power (s : State) (n : Nat) (x : Ring) : (s.putRing n x).power = s.power := rfl
@[simp] theorem State.putRing_pilot (s : State) (n : Nat) (x : Ring) : (s.putRing n x).pilot = s.pilot := rfl
@[simp] theorem State.putRing_veiled (s : State) (n : Nat) (x : Ring) : (s.putRing n x).veiled = s.veiled := rfl
@[simp] theorem State.putRing_halted (s : State) (n : Nat) (x : Ring) : (s.putRing n x).halted = s.halted := rfl
@[simp] theorem State.putRing_out (s : State) (n : Nat) (x : Ring) : (s.putRing n x).out = s.out := rfl
@[simp] theorem State.putRing_laneOut (s : State) (n : Nat) (x : Ring) : (s.putRing n x).laneOut = s.laneOut := rfl
@[simp] theorem State.putRing_pending (s : State) (n : Nat) (x : Ring) : (s.putRing n x).pending = s.pending := rfl

/-! ### `State.putTable` -/

@[simp] theorem State.putTable_flds (s : State) (n : Nat) (x : Table) : (s.putTable n x).flds = s.flds := rfl
@[simp] theorem State.putTable_latchR (s : State) (n : Nat) (x : Table) : (s.putTable n x).latchR = s.latchR := rfl
@[simp] theorem State.putTable_latchW (s : State) (n : Nat) (x : Table) : (s.putTable n x).latchW = s.latchW := rfl
@[simp] theorem State.putTable_mem (s : State) (n : Nat) (x : Table) : (s.putTable n x).mem = s.mem := rfl
@[simp] theorem State.putTable_undef (s : State) (n : Nat) (x : Table) : (s.putTable n x).undef = s.undef := rfl
@[simp] theorem State.putTable_stamp (s : State) (n : Nat) (x : Table) : (s.putTable n x).stamp = s.stamp := rfl
@[simp] theorem State.putTable_ecc (s : State) (n : Nat) (x : Table) : (s.putTable n x).ecc = s.ecc := rfl
@[simp] theorem State.putTable_host (s : State) (n : Nat) (x : Table) : (s.putTable n x).host = s.host := rfl
@[simp] theorem State.putTable_winCache (s : State) (n : Nat) (x : Table) : (s.putTable n x).winCache = s.winCache := rfl
@[simp] theorem State.putTable_msix (s : State) (n : Nat) (x : Table) : (s.putTable n x).msix = s.msix := rfl
@[simp] theorem State.putTable_msixPend (s : State) (n : Nat) (x : Table) : (s.putTable n x).msixPend = s.msixPend := rfl
@[simp] theorem State.putTable_ideHeld (s : State) (n : Nat) (x : Table) : (s.putTable n x).ideHeld = s.ideHeld := rfl
@[simp] theorem State.putTable_rings (s : State) (n : Nat) (x : Table) : (s.putTable n x).rings = s.rings := rfl
@[simp] theorem State.putTable_ringTurn (s : State) (n : Nat) (x : Table) : (s.putTable n x).ringTurn = s.ringTurn := rfl
@[simp] theorem State.putTable_evt (s : State) (n : Nat) (x : Table) : (s.putTable n x).evt = s.evt := rfl
@[simp] theorem State.putTable_tags (s : State) (n : Nat) (x : Table) : (s.putTable n x).tags = s.tags := rfl
@[simp] theorem State.putTable_ready (s : State) (n : Nat) (x : Table) : (s.putTable n x).ready = s.ready := rfl
@[simp] theorem State.putTable_origins (s : State) (n : Nat) (x : Table) : (s.putTable n x).origins = s.origins := rfl
@[simp] theorem State.putTable_ctxs (s : State) (n : Nat) (x : Table) : (s.putTable n x).ctxs = s.ctxs := rfl
@[simp] theorem State.putTable_kilns (s : State) (n : Nat) (x : Table) : (s.putTable n x).kilns = s.kilns := rfl
@[simp] theorem State.putTable_streams (s : State) (n : Nat) (x : Table) : (s.putTable n x).streams = s.streams := rfl
@[simp] theorem State.putTable_catchUps (s : State) (n : Nat) (x : Table) : (s.putTable n x).catchUps = s.catchUps := rfl
@[simp] theorem State.putTable_bulk (s : State) (n : Nat) (x : Table) : (s.putTable n x).bulk = s.bulk := rfl
@[simp] theorem State.putTable_seq (s : State) (n : Nat) (x : Table) : (s.putTable n x).seq = s.seq := rfl
@[simp] theorem State.putTable_fencedStevs (s : State) (n : Nat) (x : Table) : (s.putTable n x).fencedStevs = s.fencedStevs := rfl
@[simp] theorem State.putTable_remoteHolds (s : State) (n : Nat) (x : Table) : (s.putTable n x).remoteHolds = s.remoteHolds := rfl
@[simp] theorem State.putTable_remoteWaits (s : State) (n : Nat) (x : Table) : (s.putTable n x).remoteWaits = s.remoteWaits := rfl
@[simp] theorem State.putTable_groups (s : State) (n : Nat) (x : Table) : (s.putTable n x).groups = s.groups := rfl
@[simp] theorem State.putTable_masters (s : State) (n : Nat) (x : Table) : (s.putTable n x).masters = s.masters := rfl
@[simp] theorem State.putTable_cranes (s : State) (n : Nat) (x : Table) : (s.putTable n x).cranes = s.cranes := rfl
@[simp] theorem State.putTable_hot (s : State) (n : Nat) (x : Table) : (s.putTable n x).hot = s.hot := rfl
@[simp] theorem State.putTable_jobs (s : State) (n : Nat) (x : Table) : (s.putTable n x).jobs = s.jobs := rfl
@[simp] theorem State.putTable_nextJob (s : State) (n : Nat) (x : Table) : (s.putTable n x).nextJob = s.nextJob := rfl
@[simp] theorem State.putTable_fetched (s : State) (n : Nat) (x : Table) : (s.putTable n x).fetched = s.fetched := rfl
@[simp] theorem State.putTable_models (s : State) (n : Nat) (x : Table) : (s.putTable n x).models = s.models := rfl
@[simp] theorem State.putTable_evicted (s : State) (n : Nat) (x : Table) : (s.putTable n x).evicted = s.evicted := rfl
@[simp] theorem State.putTable_counts (s : State) (n : Nat) (x : Table) : (s.putTable n x).counts = s.counts := rfl
@[simp] theorem State.putTable_admitted (s : State) (n : Nat) (x : Table) : (s.putTable n x).admitted = s.admitted := rfl
@[simp] theorem State.putTable_conss (s : State) (n : Nat) (x : Table) : (s.putTable n x).conss = s.conss := rfl
@[simp] theorem State.putTable_retiring (s : State) (n : Nat) (x : Table) : (s.putTable n x).retiring = s.retiring := rfl
@[simp] theorem State.putTable_votes (s : State) (n : Nat) (x : Table) : (s.putTable n x).votes = s.votes := rfl
@[simp] theorem State.putTable_decisions (s : State) (n : Nat) (x : Table) : (s.putTable n x).decisions = s.decisions := rfl
@[simp] theorem State.putTable_notices (s : State) (n : Nat) (x : Table) : (s.putTable n x).notices = s.notices := rfl
@[simp] theorem State.putTable_noticesDone (s : State) (n : Nat) (x : Table) : (s.putTable n x).noticesDone = s.noticesDone := rfl
@[simp] theorem State.putTable_unacked (s : State) (n : Nat) (x : Table) : (s.putTable n x).unacked = s.unacked := rfl
@[simp] theorem State.putTable_nextVc0 (s : State) (n : Nat) (x : Table) : (s.putTable n x).nextVc0 = s.nextVc0 := rfl
@[simp] theorem State.putTable_freeFrames (s : State) (n : Nat) (x : Table) : (s.putTable n x).freeFrames = s.freeFrames := rfl
@[simp] theorem State.putTable_deferred (s : State) (n : Nat) (x : Table) : (s.putTable n x).deferred = s.deferred := rfl
@[simp] theorem State.putTable_indexPages (s : State) (n : Nat) (x : Table) : (s.putTable n x).indexPages = s.indexPages := rfl
@[simp] theorem State.putTable_appended (s : State) (n : Nat) (x : Table) : (s.putTable n x).appended = s.appended := rfl
@[simp] theorem State.putTable_quays (s : State) (n : Nat) (x : Table) : (s.putTable n x).quays = s.quays := rfl
@[simp] theorem State.putTable_routes (s : State) (n : Nat) (x : Table) : (s.putTable n x).routes = s.routes := rfl
@[simp] theorem State.putTable_peers (s : State) (n : Nat) (x : Table) : (s.putTable n x).peers = s.peers := rfl
@[simp] theorem State.putTable_pod (s : State) (n : Nat) (x : Table) : (s.putTable n x).pod = s.pod := rfl
@[simp] theorem State.putTable_colls (s : State) (n : Nat) (x : Table) : (s.putTable n x).colls = s.colls := rfl
@[simp] theorem State.putTable_salvor (s : State) (n : Nat) (x : Table) : (s.putTable n x).salvor = s.salvor := rfl
@[simp] theorem State.putTable_dock (s : State) (n : Nat) (x : Table) : (s.putTable n x).dock = s.dock := rfl
@[simp] theorem State.putTable_rebuild (s : State) (n : Nat) (x : Table) : (s.putTable n x).rebuild = s.rebuild := rfl
@[simp] theorem State.putTable_rebuilding (s : State) (n : Nat) (x : Table) : (s.putTable n x).rebuilding = s.rebuilding := rfl
@[simp] theorem State.putTable_cus (s : State) (n : Nat) (x : Table) : (s.putTable n x).cus = s.cus := rfl
@[simp] theorem State.putTable_power (s : State) (n : Nat) (x : Table) : (s.putTable n x).power = s.power := rfl
@[simp] theorem State.putTable_pilot (s : State) (n : Nat) (x : Table) : (s.putTable n x).pilot = s.pilot := rfl
@[simp] theorem State.putTable_veiled (s : State) (n : Nat) (x : Table) : (s.putTable n x).veiled = s.veiled := rfl
@[simp] theorem State.putTable_halted (s : State) (n : Nat) (x : Table) : (s.putTable n x).halted = s.halted := rfl
@[simp] theorem State.putTable_out (s : State) (n : Nat) (x : Table) : (s.putTable n x).out = s.out := rfl
@[simp] theorem State.putTable_laneOut (s : State) (n : Nat) (x : Table) : (s.putTable n x).laneOut = s.laneOut := rfl
@[simp] theorem State.putTable_pending (s : State) (n : Nat) (x : Table) : (s.putTable n x).pending = s.pending := rfl

/-! ### `State.putGroup` -/

@[simp] theorem State.putGroup_flds (s : State) (n : Nat) (x : Group) : (s.putGroup n x).flds = s.flds := rfl
@[simp] theorem State.putGroup_latchR (s : State) (n : Nat) (x : Group) : (s.putGroup n x).latchR = s.latchR := rfl
@[simp] theorem State.putGroup_latchW (s : State) (n : Nat) (x : Group) : (s.putGroup n x).latchW = s.latchW := rfl
@[simp] theorem State.putGroup_mem (s : State) (n : Nat) (x : Group) : (s.putGroup n x).mem = s.mem := rfl
@[simp] theorem State.putGroup_undef (s : State) (n : Nat) (x : Group) : (s.putGroup n x).undef = s.undef := rfl
@[simp] theorem State.putGroup_stamp (s : State) (n : Nat) (x : Group) : (s.putGroup n x).stamp = s.stamp := rfl
@[simp] theorem State.putGroup_ecc (s : State) (n : Nat) (x : Group) : (s.putGroup n x).ecc = s.ecc := rfl
@[simp] theorem State.putGroup_host (s : State) (n : Nat) (x : Group) : (s.putGroup n x).host = s.host := rfl
@[simp] theorem State.putGroup_winCache (s : State) (n : Nat) (x : Group) : (s.putGroup n x).winCache = s.winCache := rfl
@[simp] theorem State.putGroup_msix (s : State) (n : Nat) (x : Group) : (s.putGroup n x).msix = s.msix := rfl
@[simp] theorem State.putGroup_msixPend (s : State) (n : Nat) (x : Group) : (s.putGroup n x).msixPend = s.msixPend := rfl
@[simp] theorem State.putGroup_ideHeld (s : State) (n : Nat) (x : Group) : (s.putGroup n x).ideHeld = s.ideHeld := rfl
@[simp] theorem State.putGroup_rings (s : State) (n : Nat) (x : Group) : (s.putGroup n x).rings = s.rings := rfl
@[simp] theorem State.putGroup_ringTurn (s : State) (n : Nat) (x : Group) : (s.putGroup n x).ringTurn = s.ringTurn := rfl
@[simp] theorem State.putGroup_evt (s : State) (n : Nat) (x : Group) : (s.putGroup n x).evt = s.evt := rfl
@[simp] theorem State.putGroup_tags (s : State) (n : Nat) (x : Group) : (s.putGroup n x).tags = s.tags := rfl
@[simp] theorem State.putGroup_ready (s : State) (n : Nat) (x : Group) : (s.putGroup n x).ready = s.ready := rfl
@[simp] theorem State.putGroup_origins (s : State) (n : Nat) (x : Group) : (s.putGroup n x).origins = s.origins := rfl
@[simp] theorem State.putGroup_ctxs (s : State) (n : Nat) (x : Group) : (s.putGroup n x).ctxs = s.ctxs := rfl
@[simp] theorem State.putGroup_kilns (s : State) (n : Nat) (x : Group) : (s.putGroup n x).kilns = s.kilns := rfl
@[simp] theorem State.putGroup_streams (s : State) (n : Nat) (x : Group) : (s.putGroup n x).streams = s.streams := rfl
@[simp] theorem State.putGroup_catchUps (s : State) (n : Nat) (x : Group) : (s.putGroup n x).catchUps = s.catchUps := rfl
@[simp] theorem State.putGroup_bulk (s : State) (n : Nat) (x : Group) : (s.putGroup n x).bulk = s.bulk := rfl
@[simp] theorem State.putGroup_seq (s : State) (n : Nat) (x : Group) : (s.putGroup n x).seq = s.seq := rfl
@[simp] theorem State.putGroup_fencedStevs (s : State) (n : Nat) (x : Group) : (s.putGroup n x).fencedStevs = s.fencedStevs := rfl
@[simp] theorem State.putGroup_remoteHolds (s : State) (n : Nat) (x : Group) : (s.putGroup n x).remoteHolds = s.remoteHolds := rfl
@[simp] theorem State.putGroup_remoteWaits (s : State) (n : Nat) (x : Group) : (s.putGroup n x).remoteWaits = s.remoteWaits := rfl
@[simp] theorem State.putGroup_tables (s : State) (n : Nat) (x : Group) : (s.putGroup n x).tables = s.tables := rfl
@[simp] theorem State.putGroup_masters (s : State) (n : Nat) (x : Group) : (s.putGroup n x).masters = s.masters := rfl
@[simp] theorem State.putGroup_cranes (s : State) (n : Nat) (x : Group) : (s.putGroup n x).cranes = s.cranes := rfl
@[simp] theorem State.putGroup_hot (s : State) (n : Nat) (x : Group) : (s.putGroup n x).hot = s.hot := rfl
@[simp] theorem State.putGroup_jobs (s : State) (n : Nat) (x : Group) : (s.putGroup n x).jobs = s.jobs := rfl
@[simp] theorem State.putGroup_nextJob (s : State) (n : Nat) (x : Group) : (s.putGroup n x).nextJob = s.nextJob := rfl
@[simp] theorem State.putGroup_fetched (s : State) (n : Nat) (x : Group) : (s.putGroup n x).fetched = s.fetched := rfl
@[simp] theorem State.putGroup_models (s : State) (n : Nat) (x : Group) : (s.putGroup n x).models = s.models := rfl
@[simp] theorem State.putGroup_evicted (s : State) (n : Nat) (x : Group) : (s.putGroup n x).evicted = s.evicted := rfl
@[simp] theorem State.putGroup_counts (s : State) (n : Nat) (x : Group) : (s.putGroup n x).counts = s.counts := rfl
@[simp] theorem State.putGroup_admitted (s : State) (n : Nat) (x : Group) : (s.putGroup n x).admitted = s.admitted := rfl
@[simp] theorem State.putGroup_conss (s : State) (n : Nat) (x : Group) : (s.putGroup n x).conss = s.conss := rfl
@[simp] theorem State.putGroup_retiring (s : State) (n : Nat) (x : Group) : (s.putGroup n x).retiring = s.retiring := rfl
@[simp] theorem State.putGroup_votes (s : State) (n : Nat) (x : Group) : (s.putGroup n x).votes = s.votes := rfl
@[simp] theorem State.putGroup_decisions (s : State) (n : Nat) (x : Group) : (s.putGroup n x).decisions = s.decisions := rfl
@[simp] theorem State.putGroup_notices (s : State) (n : Nat) (x : Group) : (s.putGroup n x).notices = s.notices := rfl
@[simp] theorem State.putGroup_noticesDone (s : State) (n : Nat) (x : Group) : (s.putGroup n x).noticesDone = s.noticesDone := rfl
@[simp] theorem State.putGroup_unacked (s : State) (n : Nat) (x : Group) : (s.putGroup n x).unacked = s.unacked := rfl
@[simp] theorem State.putGroup_nextVc0 (s : State) (n : Nat) (x : Group) : (s.putGroup n x).nextVc0 = s.nextVc0 := rfl
@[simp] theorem State.putGroup_freeFrames (s : State) (n : Nat) (x : Group) : (s.putGroup n x).freeFrames = s.freeFrames := rfl
@[simp] theorem State.putGroup_deferred (s : State) (n : Nat) (x : Group) : (s.putGroup n x).deferred = s.deferred := rfl
@[simp] theorem State.putGroup_indexPages (s : State) (n : Nat) (x : Group) : (s.putGroup n x).indexPages = s.indexPages := rfl
@[simp] theorem State.putGroup_appended (s : State) (n : Nat) (x : Group) : (s.putGroup n x).appended = s.appended := rfl
@[simp] theorem State.putGroup_quays (s : State) (n : Nat) (x : Group) : (s.putGroup n x).quays = s.quays := rfl
@[simp] theorem State.putGroup_routes (s : State) (n : Nat) (x : Group) : (s.putGroup n x).routes = s.routes := rfl
@[simp] theorem State.putGroup_peers (s : State) (n : Nat) (x : Group) : (s.putGroup n x).peers = s.peers := rfl
@[simp] theorem State.putGroup_pod (s : State) (n : Nat) (x : Group) : (s.putGroup n x).pod = s.pod := rfl
@[simp] theorem State.putGroup_colls (s : State) (n : Nat) (x : Group) : (s.putGroup n x).colls = s.colls := rfl
@[simp] theorem State.putGroup_salvor (s : State) (n : Nat) (x : Group) : (s.putGroup n x).salvor = s.salvor := rfl
@[simp] theorem State.putGroup_dock (s : State) (n : Nat) (x : Group) : (s.putGroup n x).dock = s.dock := rfl
@[simp] theorem State.putGroup_rebuild (s : State) (n : Nat) (x : Group) : (s.putGroup n x).rebuild = s.rebuild := rfl
@[simp] theorem State.putGroup_rebuilding (s : State) (n : Nat) (x : Group) : (s.putGroup n x).rebuilding = s.rebuilding := rfl
@[simp] theorem State.putGroup_cus (s : State) (n : Nat) (x : Group) : (s.putGroup n x).cus = s.cus := rfl
@[simp] theorem State.putGroup_power (s : State) (n : Nat) (x : Group) : (s.putGroup n x).power = s.power := rfl
@[simp] theorem State.putGroup_pilot (s : State) (n : Nat) (x : Group) : (s.putGroup n x).pilot = s.pilot := rfl
@[simp] theorem State.putGroup_veiled (s : State) (n : Nat) (x : Group) : (s.putGroup n x).veiled = s.veiled := rfl
@[simp] theorem State.putGroup_halted (s : State) (n : Nat) (x : Group) : (s.putGroup n x).halted = s.halted := rfl
@[simp] theorem State.putGroup_out (s : State) (n : Nat) (x : Group) : (s.putGroup n x).out = s.out := rfl
@[simp] theorem State.putGroup_laneOut (s : State) (n : Nat) (x : Group) : (s.putGroup n x).laneOut = s.laneOut := rfl
@[simp] theorem State.putGroup_pending (s : State) (n : Nat) (x : Group) : (s.putGroup n x).pending = s.pending := rfl

/-! ### `State.putMaster` -/

@[simp] theorem State.putMaster_flds (s : State) (n : Nat) (x : MasterRec) : (s.putMaster n x).flds = s.flds := rfl
@[simp] theorem State.putMaster_latchR (s : State) (n : Nat) (x : MasterRec) : (s.putMaster n x).latchR = s.latchR := rfl
@[simp] theorem State.putMaster_latchW (s : State) (n : Nat) (x : MasterRec) : (s.putMaster n x).latchW = s.latchW := rfl
@[simp] theorem State.putMaster_mem (s : State) (n : Nat) (x : MasterRec) : (s.putMaster n x).mem = s.mem := rfl
@[simp] theorem State.putMaster_undef (s : State) (n : Nat) (x : MasterRec) : (s.putMaster n x).undef = s.undef := rfl
@[simp] theorem State.putMaster_stamp (s : State) (n : Nat) (x : MasterRec) : (s.putMaster n x).stamp = s.stamp := rfl
@[simp] theorem State.putMaster_ecc (s : State) (n : Nat) (x : MasterRec) : (s.putMaster n x).ecc = s.ecc := rfl
@[simp] theorem State.putMaster_host (s : State) (n : Nat) (x : MasterRec) : (s.putMaster n x).host = s.host := rfl
@[simp] theorem State.putMaster_winCache (s : State) (n : Nat) (x : MasterRec) : (s.putMaster n x).winCache = s.winCache := rfl
@[simp] theorem State.putMaster_msix (s : State) (n : Nat) (x : MasterRec) : (s.putMaster n x).msix = s.msix := rfl
@[simp] theorem State.putMaster_msixPend (s : State) (n : Nat) (x : MasterRec) : (s.putMaster n x).msixPend = s.msixPend := rfl
@[simp] theorem State.putMaster_ideHeld (s : State) (n : Nat) (x : MasterRec) : (s.putMaster n x).ideHeld = s.ideHeld := rfl
@[simp] theorem State.putMaster_rings (s : State) (n : Nat) (x : MasterRec) : (s.putMaster n x).rings = s.rings := rfl
@[simp] theorem State.putMaster_ringTurn (s : State) (n : Nat) (x : MasterRec) : (s.putMaster n x).ringTurn = s.ringTurn := rfl
@[simp] theorem State.putMaster_evt (s : State) (n : Nat) (x : MasterRec) : (s.putMaster n x).evt = s.evt := rfl
@[simp] theorem State.putMaster_tags (s : State) (n : Nat) (x : MasterRec) : (s.putMaster n x).tags = s.tags := rfl
@[simp] theorem State.putMaster_ready (s : State) (n : Nat) (x : MasterRec) : (s.putMaster n x).ready = s.ready := rfl
@[simp] theorem State.putMaster_origins (s : State) (n : Nat) (x : MasterRec) : (s.putMaster n x).origins = s.origins := rfl
@[simp] theorem State.putMaster_ctxs (s : State) (n : Nat) (x : MasterRec) : (s.putMaster n x).ctxs = s.ctxs := rfl
@[simp] theorem State.putMaster_kilns (s : State) (n : Nat) (x : MasterRec) : (s.putMaster n x).kilns = s.kilns := rfl
@[simp] theorem State.putMaster_streams (s : State) (n : Nat) (x : MasterRec) : (s.putMaster n x).streams = s.streams := rfl
@[simp] theorem State.putMaster_catchUps (s : State) (n : Nat) (x : MasterRec) : (s.putMaster n x).catchUps = s.catchUps := rfl
@[simp] theorem State.putMaster_bulk (s : State) (n : Nat) (x : MasterRec) : (s.putMaster n x).bulk = s.bulk := rfl
@[simp] theorem State.putMaster_seq (s : State) (n : Nat) (x : MasterRec) : (s.putMaster n x).seq = s.seq := rfl
@[simp] theorem State.putMaster_fencedStevs (s : State) (n : Nat) (x : MasterRec) : (s.putMaster n x).fencedStevs = s.fencedStevs := rfl
@[simp] theorem State.putMaster_remoteHolds (s : State) (n : Nat) (x : MasterRec) : (s.putMaster n x).remoteHolds = s.remoteHolds := rfl
@[simp] theorem State.putMaster_remoteWaits (s : State) (n : Nat) (x : MasterRec) : (s.putMaster n x).remoteWaits = s.remoteWaits := rfl
@[simp] theorem State.putMaster_tables (s : State) (n : Nat) (x : MasterRec) : (s.putMaster n x).tables = s.tables := rfl
@[simp] theorem State.putMaster_groups (s : State) (n : Nat) (x : MasterRec) : (s.putMaster n x).groups = s.groups := rfl
@[simp] theorem State.putMaster_cranes (s : State) (n : Nat) (x : MasterRec) : (s.putMaster n x).cranes = s.cranes := rfl
@[simp] theorem State.putMaster_hot (s : State) (n : Nat) (x : MasterRec) : (s.putMaster n x).hot = s.hot := rfl
@[simp] theorem State.putMaster_jobs (s : State) (n : Nat) (x : MasterRec) : (s.putMaster n x).jobs = s.jobs := rfl
@[simp] theorem State.putMaster_nextJob (s : State) (n : Nat) (x : MasterRec) : (s.putMaster n x).nextJob = s.nextJob := rfl
@[simp] theorem State.putMaster_fetched (s : State) (n : Nat) (x : MasterRec) : (s.putMaster n x).fetched = s.fetched := rfl
@[simp] theorem State.putMaster_models (s : State) (n : Nat) (x : MasterRec) : (s.putMaster n x).models = s.models := rfl
@[simp] theorem State.putMaster_evicted (s : State) (n : Nat) (x : MasterRec) : (s.putMaster n x).evicted = s.evicted := rfl
@[simp] theorem State.putMaster_counts (s : State) (n : Nat) (x : MasterRec) : (s.putMaster n x).counts = s.counts := rfl
@[simp] theorem State.putMaster_admitted (s : State) (n : Nat) (x : MasterRec) : (s.putMaster n x).admitted = s.admitted := rfl
@[simp] theorem State.putMaster_conss (s : State) (n : Nat) (x : MasterRec) : (s.putMaster n x).conss = s.conss := rfl
@[simp] theorem State.putMaster_retiring (s : State) (n : Nat) (x : MasterRec) : (s.putMaster n x).retiring = s.retiring := rfl
@[simp] theorem State.putMaster_votes (s : State) (n : Nat) (x : MasterRec) : (s.putMaster n x).votes = s.votes := rfl
@[simp] theorem State.putMaster_decisions (s : State) (n : Nat) (x : MasterRec) : (s.putMaster n x).decisions = s.decisions := rfl
@[simp] theorem State.putMaster_notices (s : State) (n : Nat) (x : MasterRec) : (s.putMaster n x).notices = s.notices := rfl
@[simp] theorem State.putMaster_noticesDone (s : State) (n : Nat) (x : MasterRec) : (s.putMaster n x).noticesDone = s.noticesDone := rfl
@[simp] theorem State.putMaster_unacked (s : State) (n : Nat) (x : MasterRec) : (s.putMaster n x).unacked = s.unacked := rfl
@[simp] theorem State.putMaster_nextVc0 (s : State) (n : Nat) (x : MasterRec) : (s.putMaster n x).nextVc0 = s.nextVc0 := rfl
@[simp] theorem State.putMaster_freeFrames (s : State) (n : Nat) (x : MasterRec) : (s.putMaster n x).freeFrames = s.freeFrames := rfl
@[simp] theorem State.putMaster_deferred (s : State) (n : Nat) (x : MasterRec) : (s.putMaster n x).deferred = s.deferred := rfl
@[simp] theorem State.putMaster_indexPages (s : State) (n : Nat) (x : MasterRec) : (s.putMaster n x).indexPages = s.indexPages := rfl
@[simp] theorem State.putMaster_appended (s : State) (n : Nat) (x : MasterRec) : (s.putMaster n x).appended = s.appended := rfl
@[simp] theorem State.putMaster_quays (s : State) (n : Nat) (x : MasterRec) : (s.putMaster n x).quays = s.quays := rfl
@[simp] theorem State.putMaster_routes (s : State) (n : Nat) (x : MasterRec) : (s.putMaster n x).routes = s.routes := rfl
@[simp] theorem State.putMaster_peers (s : State) (n : Nat) (x : MasterRec) : (s.putMaster n x).peers = s.peers := rfl
@[simp] theorem State.putMaster_pod (s : State) (n : Nat) (x : MasterRec) : (s.putMaster n x).pod = s.pod := rfl
@[simp] theorem State.putMaster_colls (s : State) (n : Nat) (x : MasterRec) : (s.putMaster n x).colls = s.colls := rfl
@[simp] theorem State.putMaster_salvor (s : State) (n : Nat) (x : MasterRec) : (s.putMaster n x).salvor = s.salvor := rfl
@[simp] theorem State.putMaster_dock (s : State) (n : Nat) (x : MasterRec) : (s.putMaster n x).dock = s.dock := rfl
@[simp] theorem State.putMaster_rebuild (s : State) (n : Nat) (x : MasterRec) : (s.putMaster n x).rebuild = s.rebuild := rfl
@[simp] theorem State.putMaster_rebuilding (s : State) (n : Nat) (x : MasterRec) : (s.putMaster n x).rebuilding = s.rebuilding := rfl
@[simp] theorem State.putMaster_cus (s : State) (n : Nat) (x : MasterRec) : (s.putMaster n x).cus = s.cus := rfl
@[simp] theorem State.putMaster_power (s : State) (n : Nat) (x : MasterRec) : (s.putMaster n x).power = s.power := rfl
@[simp] theorem State.putMaster_pilot (s : State) (n : Nat) (x : MasterRec) : (s.putMaster n x).pilot = s.pilot := rfl
@[simp] theorem State.putMaster_veiled (s : State) (n : Nat) (x : MasterRec) : (s.putMaster n x).veiled = s.veiled := rfl
@[simp] theorem State.putMaster_halted (s : State) (n : Nat) (x : MasterRec) : (s.putMaster n x).halted = s.halted := rfl
@[simp] theorem State.putMaster_out (s : State) (n : Nat) (x : MasterRec) : (s.putMaster n x).out = s.out := rfl
@[simp] theorem State.putMaster_laneOut (s : State) (n : Nat) (x : MasterRec) : (s.putMaster n x).laneOut = s.laneOut := rfl
@[simp] theorem State.putMaster_pending (s : State) (n : Nat) (x : MasterRec) : (s.putMaster n x).pending = s.pending := rfl

/-! ### `State.putCrane` -/

@[simp] theorem State.putCrane_flds (s : State) (n : Nat) (x : Crane) : (s.putCrane n x).flds = s.flds := rfl
@[simp] theorem State.putCrane_latchR (s : State) (n : Nat) (x : Crane) : (s.putCrane n x).latchR = s.latchR := rfl
@[simp] theorem State.putCrane_latchW (s : State) (n : Nat) (x : Crane) : (s.putCrane n x).latchW = s.latchW := rfl
@[simp] theorem State.putCrane_mem (s : State) (n : Nat) (x : Crane) : (s.putCrane n x).mem = s.mem := rfl
@[simp] theorem State.putCrane_undef (s : State) (n : Nat) (x : Crane) : (s.putCrane n x).undef = s.undef := rfl
@[simp] theorem State.putCrane_stamp (s : State) (n : Nat) (x : Crane) : (s.putCrane n x).stamp = s.stamp := rfl
@[simp] theorem State.putCrane_ecc (s : State) (n : Nat) (x : Crane) : (s.putCrane n x).ecc = s.ecc := rfl
@[simp] theorem State.putCrane_host (s : State) (n : Nat) (x : Crane) : (s.putCrane n x).host = s.host := rfl
@[simp] theorem State.putCrane_winCache (s : State) (n : Nat) (x : Crane) : (s.putCrane n x).winCache = s.winCache := rfl
@[simp] theorem State.putCrane_msix (s : State) (n : Nat) (x : Crane) : (s.putCrane n x).msix = s.msix := rfl
@[simp] theorem State.putCrane_msixPend (s : State) (n : Nat) (x : Crane) : (s.putCrane n x).msixPend = s.msixPend := rfl
@[simp] theorem State.putCrane_ideHeld (s : State) (n : Nat) (x : Crane) : (s.putCrane n x).ideHeld = s.ideHeld := rfl
@[simp] theorem State.putCrane_rings (s : State) (n : Nat) (x : Crane) : (s.putCrane n x).rings = s.rings := rfl
@[simp] theorem State.putCrane_ringTurn (s : State) (n : Nat) (x : Crane) : (s.putCrane n x).ringTurn = s.ringTurn := rfl
@[simp] theorem State.putCrane_evt (s : State) (n : Nat) (x : Crane) : (s.putCrane n x).evt = s.evt := rfl
@[simp] theorem State.putCrane_tags (s : State) (n : Nat) (x : Crane) : (s.putCrane n x).tags = s.tags := rfl
@[simp] theorem State.putCrane_ready (s : State) (n : Nat) (x : Crane) : (s.putCrane n x).ready = s.ready := rfl
@[simp] theorem State.putCrane_origins (s : State) (n : Nat) (x : Crane) : (s.putCrane n x).origins = s.origins := rfl
@[simp] theorem State.putCrane_ctxs (s : State) (n : Nat) (x : Crane) : (s.putCrane n x).ctxs = s.ctxs := rfl
@[simp] theorem State.putCrane_kilns (s : State) (n : Nat) (x : Crane) : (s.putCrane n x).kilns = s.kilns := rfl
@[simp] theorem State.putCrane_streams (s : State) (n : Nat) (x : Crane) : (s.putCrane n x).streams = s.streams := rfl
@[simp] theorem State.putCrane_catchUps (s : State) (n : Nat) (x : Crane) : (s.putCrane n x).catchUps = s.catchUps := rfl
@[simp] theorem State.putCrane_bulk (s : State) (n : Nat) (x : Crane) : (s.putCrane n x).bulk = s.bulk := rfl
@[simp] theorem State.putCrane_seq (s : State) (n : Nat) (x : Crane) : (s.putCrane n x).seq = s.seq := rfl
@[simp] theorem State.putCrane_fencedStevs (s : State) (n : Nat) (x : Crane) : (s.putCrane n x).fencedStevs = s.fencedStevs := rfl
@[simp] theorem State.putCrane_remoteHolds (s : State) (n : Nat) (x : Crane) : (s.putCrane n x).remoteHolds = s.remoteHolds := rfl
@[simp] theorem State.putCrane_remoteWaits (s : State) (n : Nat) (x : Crane) : (s.putCrane n x).remoteWaits = s.remoteWaits := rfl
@[simp] theorem State.putCrane_tables (s : State) (n : Nat) (x : Crane) : (s.putCrane n x).tables = s.tables := rfl
@[simp] theorem State.putCrane_groups (s : State) (n : Nat) (x : Crane) : (s.putCrane n x).groups = s.groups := rfl
@[simp] theorem State.putCrane_masters (s : State) (n : Nat) (x : Crane) : (s.putCrane n x).masters = s.masters := rfl
@[simp] theorem State.putCrane_hot (s : State) (n : Nat) (x : Crane) : (s.putCrane n x).hot = s.hot := rfl
@[simp] theorem State.putCrane_jobs (s : State) (n : Nat) (x : Crane) : (s.putCrane n x).jobs = s.jobs := rfl
@[simp] theorem State.putCrane_nextJob (s : State) (n : Nat) (x : Crane) : (s.putCrane n x).nextJob = s.nextJob := rfl
@[simp] theorem State.putCrane_fetched (s : State) (n : Nat) (x : Crane) : (s.putCrane n x).fetched = s.fetched := rfl
@[simp] theorem State.putCrane_models (s : State) (n : Nat) (x : Crane) : (s.putCrane n x).models = s.models := rfl
@[simp] theorem State.putCrane_evicted (s : State) (n : Nat) (x : Crane) : (s.putCrane n x).evicted = s.evicted := rfl
@[simp] theorem State.putCrane_counts (s : State) (n : Nat) (x : Crane) : (s.putCrane n x).counts = s.counts := rfl
@[simp] theorem State.putCrane_admitted (s : State) (n : Nat) (x : Crane) : (s.putCrane n x).admitted = s.admitted := rfl
@[simp] theorem State.putCrane_conss (s : State) (n : Nat) (x : Crane) : (s.putCrane n x).conss = s.conss := rfl
@[simp] theorem State.putCrane_retiring (s : State) (n : Nat) (x : Crane) : (s.putCrane n x).retiring = s.retiring := rfl
@[simp] theorem State.putCrane_votes (s : State) (n : Nat) (x : Crane) : (s.putCrane n x).votes = s.votes := rfl
@[simp] theorem State.putCrane_decisions (s : State) (n : Nat) (x : Crane) : (s.putCrane n x).decisions = s.decisions := rfl
@[simp] theorem State.putCrane_notices (s : State) (n : Nat) (x : Crane) : (s.putCrane n x).notices = s.notices := rfl
@[simp] theorem State.putCrane_noticesDone (s : State) (n : Nat) (x : Crane) : (s.putCrane n x).noticesDone = s.noticesDone := rfl
@[simp] theorem State.putCrane_unacked (s : State) (n : Nat) (x : Crane) : (s.putCrane n x).unacked = s.unacked := rfl
@[simp] theorem State.putCrane_nextVc0 (s : State) (n : Nat) (x : Crane) : (s.putCrane n x).nextVc0 = s.nextVc0 := rfl
@[simp] theorem State.putCrane_freeFrames (s : State) (n : Nat) (x : Crane) : (s.putCrane n x).freeFrames = s.freeFrames := rfl
@[simp] theorem State.putCrane_deferred (s : State) (n : Nat) (x : Crane) : (s.putCrane n x).deferred = s.deferred := rfl
@[simp] theorem State.putCrane_indexPages (s : State) (n : Nat) (x : Crane) : (s.putCrane n x).indexPages = s.indexPages := rfl
@[simp] theorem State.putCrane_appended (s : State) (n : Nat) (x : Crane) : (s.putCrane n x).appended = s.appended := rfl
@[simp] theorem State.putCrane_quays (s : State) (n : Nat) (x : Crane) : (s.putCrane n x).quays = s.quays := rfl
@[simp] theorem State.putCrane_routes (s : State) (n : Nat) (x : Crane) : (s.putCrane n x).routes = s.routes := rfl
@[simp] theorem State.putCrane_peers (s : State) (n : Nat) (x : Crane) : (s.putCrane n x).peers = s.peers := rfl
@[simp] theorem State.putCrane_pod (s : State) (n : Nat) (x : Crane) : (s.putCrane n x).pod = s.pod := rfl
@[simp] theorem State.putCrane_colls (s : State) (n : Nat) (x : Crane) : (s.putCrane n x).colls = s.colls := rfl
@[simp] theorem State.putCrane_salvor (s : State) (n : Nat) (x : Crane) : (s.putCrane n x).salvor = s.salvor := rfl
@[simp] theorem State.putCrane_dock (s : State) (n : Nat) (x : Crane) : (s.putCrane n x).dock = s.dock := rfl
@[simp] theorem State.putCrane_rebuild (s : State) (n : Nat) (x : Crane) : (s.putCrane n x).rebuild = s.rebuild := rfl
@[simp] theorem State.putCrane_rebuilding (s : State) (n : Nat) (x : Crane) : (s.putCrane n x).rebuilding = s.rebuilding := rfl
@[simp] theorem State.putCrane_cus (s : State) (n : Nat) (x : Crane) : (s.putCrane n x).cus = s.cus := rfl
@[simp] theorem State.putCrane_power (s : State) (n : Nat) (x : Crane) : (s.putCrane n x).power = s.power := rfl
@[simp] theorem State.putCrane_pilot (s : State) (n : Nat) (x : Crane) : (s.putCrane n x).pilot = s.pilot := rfl
@[simp] theorem State.putCrane_veiled (s : State) (n : Nat) (x : Crane) : (s.putCrane n x).veiled = s.veiled := rfl
@[simp] theorem State.putCrane_halted (s : State) (n : Nat) (x : Crane) : (s.putCrane n x).halted = s.halted := rfl
@[simp] theorem State.putCrane_out (s : State) (n : Nat) (x : Crane) : (s.putCrane n x).out = s.out := rfl
@[simp] theorem State.putCrane_laneOut (s : State) (n : Nat) (x : Crane) : (s.putCrane n x).laneOut = s.laneOut := rfl
@[simp] theorem State.putCrane_pending (s : State) (n : Nat) (x : Crane) : (s.putCrane n x).pending = s.pending := rfl

/-! ### `State.putModel` -/

@[simp] theorem State.putModel_flds (s : State) (n : Nat) (x : Model) : (s.putModel n x).flds = s.flds := rfl
@[simp] theorem State.putModel_latchR (s : State) (n : Nat) (x : Model) : (s.putModel n x).latchR = s.latchR := rfl
@[simp] theorem State.putModel_latchW (s : State) (n : Nat) (x : Model) : (s.putModel n x).latchW = s.latchW := rfl
@[simp] theorem State.putModel_mem (s : State) (n : Nat) (x : Model) : (s.putModel n x).mem = s.mem := rfl
@[simp] theorem State.putModel_undef (s : State) (n : Nat) (x : Model) : (s.putModel n x).undef = s.undef := rfl
@[simp] theorem State.putModel_stamp (s : State) (n : Nat) (x : Model) : (s.putModel n x).stamp = s.stamp := rfl
@[simp] theorem State.putModel_ecc (s : State) (n : Nat) (x : Model) : (s.putModel n x).ecc = s.ecc := rfl
@[simp] theorem State.putModel_host (s : State) (n : Nat) (x : Model) : (s.putModel n x).host = s.host := rfl
@[simp] theorem State.putModel_winCache (s : State) (n : Nat) (x : Model) : (s.putModel n x).winCache = s.winCache := rfl
@[simp] theorem State.putModel_msix (s : State) (n : Nat) (x : Model) : (s.putModel n x).msix = s.msix := rfl
@[simp] theorem State.putModel_msixPend (s : State) (n : Nat) (x : Model) : (s.putModel n x).msixPend = s.msixPend := rfl
@[simp] theorem State.putModel_ideHeld (s : State) (n : Nat) (x : Model) : (s.putModel n x).ideHeld = s.ideHeld := rfl
@[simp] theorem State.putModel_rings (s : State) (n : Nat) (x : Model) : (s.putModel n x).rings = s.rings := rfl
@[simp] theorem State.putModel_ringTurn (s : State) (n : Nat) (x : Model) : (s.putModel n x).ringTurn = s.ringTurn := rfl
@[simp] theorem State.putModel_evt (s : State) (n : Nat) (x : Model) : (s.putModel n x).evt = s.evt := rfl
@[simp] theorem State.putModel_tags (s : State) (n : Nat) (x : Model) : (s.putModel n x).tags = s.tags := rfl
@[simp] theorem State.putModel_ready (s : State) (n : Nat) (x : Model) : (s.putModel n x).ready = s.ready := rfl
@[simp] theorem State.putModel_origins (s : State) (n : Nat) (x : Model) : (s.putModel n x).origins = s.origins := rfl
@[simp] theorem State.putModel_ctxs (s : State) (n : Nat) (x : Model) : (s.putModel n x).ctxs = s.ctxs := rfl
@[simp] theorem State.putModel_kilns (s : State) (n : Nat) (x : Model) : (s.putModel n x).kilns = s.kilns := rfl
@[simp] theorem State.putModel_streams (s : State) (n : Nat) (x : Model) : (s.putModel n x).streams = s.streams := rfl
@[simp] theorem State.putModel_catchUps (s : State) (n : Nat) (x : Model) : (s.putModel n x).catchUps = s.catchUps := rfl
@[simp] theorem State.putModel_bulk (s : State) (n : Nat) (x : Model) : (s.putModel n x).bulk = s.bulk := rfl
@[simp] theorem State.putModel_seq (s : State) (n : Nat) (x : Model) : (s.putModel n x).seq = s.seq := rfl
@[simp] theorem State.putModel_fencedStevs (s : State) (n : Nat) (x : Model) : (s.putModel n x).fencedStevs = s.fencedStevs := rfl
@[simp] theorem State.putModel_remoteHolds (s : State) (n : Nat) (x : Model) : (s.putModel n x).remoteHolds = s.remoteHolds := rfl
@[simp] theorem State.putModel_remoteWaits (s : State) (n : Nat) (x : Model) : (s.putModel n x).remoteWaits = s.remoteWaits := rfl
@[simp] theorem State.putModel_tables (s : State) (n : Nat) (x : Model) : (s.putModel n x).tables = s.tables := rfl
@[simp] theorem State.putModel_groups (s : State) (n : Nat) (x : Model) : (s.putModel n x).groups = s.groups := rfl
@[simp] theorem State.putModel_masters (s : State) (n : Nat) (x : Model) : (s.putModel n x).masters = s.masters := rfl
@[simp] theorem State.putModel_cranes (s : State) (n : Nat) (x : Model) : (s.putModel n x).cranes = s.cranes := rfl
@[simp] theorem State.putModel_hot (s : State) (n : Nat) (x : Model) : (s.putModel n x).hot = s.hot := rfl
@[simp] theorem State.putModel_jobs (s : State) (n : Nat) (x : Model) : (s.putModel n x).jobs = s.jobs := rfl
@[simp] theorem State.putModel_nextJob (s : State) (n : Nat) (x : Model) : (s.putModel n x).nextJob = s.nextJob := rfl
@[simp] theorem State.putModel_fetched (s : State) (n : Nat) (x : Model) : (s.putModel n x).fetched = s.fetched := rfl
@[simp] theorem State.putModel_evicted (s : State) (n : Nat) (x : Model) : (s.putModel n x).evicted = s.evicted := rfl
@[simp] theorem State.putModel_counts (s : State) (n : Nat) (x : Model) : (s.putModel n x).counts = s.counts := rfl
@[simp] theorem State.putModel_admitted (s : State) (n : Nat) (x : Model) : (s.putModel n x).admitted = s.admitted := rfl
@[simp] theorem State.putModel_conss (s : State) (n : Nat) (x : Model) : (s.putModel n x).conss = s.conss := rfl
@[simp] theorem State.putModel_retiring (s : State) (n : Nat) (x : Model) : (s.putModel n x).retiring = s.retiring := rfl
@[simp] theorem State.putModel_votes (s : State) (n : Nat) (x : Model) : (s.putModel n x).votes = s.votes := rfl
@[simp] theorem State.putModel_decisions (s : State) (n : Nat) (x : Model) : (s.putModel n x).decisions = s.decisions := rfl
@[simp] theorem State.putModel_notices (s : State) (n : Nat) (x : Model) : (s.putModel n x).notices = s.notices := rfl
@[simp] theorem State.putModel_noticesDone (s : State) (n : Nat) (x : Model) : (s.putModel n x).noticesDone = s.noticesDone := rfl
@[simp] theorem State.putModel_unacked (s : State) (n : Nat) (x : Model) : (s.putModel n x).unacked = s.unacked := rfl
@[simp] theorem State.putModel_nextVc0 (s : State) (n : Nat) (x : Model) : (s.putModel n x).nextVc0 = s.nextVc0 := rfl
@[simp] theorem State.putModel_freeFrames (s : State) (n : Nat) (x : Model) : (s.putModel n x).freeFrames = s.freeFrames := rfl
@[simp] theorem State.putModel_deferred (s : State) (n : Nat) (x : Model) : (s.putModel n x).deferred = s.deferred := rfl
@[simp] theorem State.putModel_indexPages (s : State) (n : Nat) (x : Model) : (s.putModel n x).indexPages = s.indexPages := rfl
@[simp] theorem State.putModel_appended (s : State) (n : Nat) (x : Model) : (s.putModel n x).appended = s.appended := rfl
@[simp] theorem State.putModel_quays (s : State) (n : Nat) (x : Model) : (s.putModel n x).quays = s.quays := rfl
@[simp] theorem State.putModel_routes (s : State) (n : Nat) (x : Model) : (s.putModel n x).routes = s.routes := rfl
@[simp] theorem State.putModel_peers (s : State) (n : Nat) (x : Model) : (s.putModel n x).peers = s.peers := rfl
@[simp] theorem State.putModel_pod (s : State) (n : Nat) (x : Model) : (s.putModel n x).pod = s.pod := rfl
@[simp] theorem State.putModel_colls (s : State) (n : Nat) (x : Model) : (s.putModel n x).colls = s.colls := rfl
@[simp] theorem State.putModel_salvor (s : State) (n : Nat) (x : Model) : (s.putModel n x).salvor = s.salvor := rfl
@[simp] theorem State.putModel_dock (s : State) (n : Nat) (x : Model) : (s.putModel n x).dock = s.dock := rfl
@[simp] theorem State.putModel_rebuild (s : State) (n : Nat) (x : Model) : (s.putModel n x).rebuild = s.rebuild := rfl
@[simp] theorem State.putModel_rebuilding (s : State) (n : Nat) (x : Model) : (s.putModel n x).rebuilding = s.rebuilding := rfl
@[simp] theorem State.putModel_cus (s : State) (n : Nat) (x : Model) : (s.putModel n x).cus = s.cus := rfl
@[simp] theorem State.putModel_power (s : State) (n : Nat) (x : Model) : (s.putModel n x).power = s.power := rfl
@[simp] theorem State.putModel_pilot (s : State) (n : Nat) (x : Model) : (s.putModel n x).pilot = s.pilot := rfl
@[simp] theorem State.putModel_veiled (s : State) (n : Nat) (x : Model) : (s.putModel n x).veiled = s.veiled := rfl
@[simp] theorem State.putModel_halted (s : State) (n : Nat) (x : Model) : (s.putModel n x).halted = s.halted := rfl
@[simp] theorem State.putModel_out (s : State) (n : Nat) (x : Model) : (s.putModel n x).out = s.out := rfl
@[simp] theorem State.putModel_laneOut (s : State) (n : Nat) (x : Model) : (s.putModel n x).laneOut = s.laneOut := rfl
@[simp] theorem State.putModel_pending (s : State) (n : Nat) (x : Model) : (s.putModel n x).pending = s.pending := rfl

/-! ### `State.putQuay` -/

@[simp] theorem State.putQuay_flds (s : State) (n : Nat) (x : Quay) : (s.putQuay n x).flds = s.flds := rfl
@[simp] theorem State.putQuay_latchR (s : State) (n : Nat) (x : Quay) : (s.putQuay n x).latchR = s.latchR := rfl
@[simp] theorem State.putQuay_latchW (s : State) (n : Nat) (x : Quay) : (s.putQuay n x).latchW = s.latchW := rfl
@[simp] theorem State.putQuay_mem (s : State) (n : Nat) (x : Quay) : (s.putQuay n x).mem = s.mem := rfl
@[simp] theorem State.putQuay_undef (s : State) (n : Nat) (x : Quay) : (s.putQuay n x).undef = s.undef := rfl
@[simp] theorem State.putQuay_stamp (s : State) (n : Nat) (x : Quay) : (s.putQuay n x).stamp = s.stamp := rfl
@[simp] theorem State.putQuay_ecc (s : State) (n : Nat) (x : Quay) : (s.putQuay n x).ecc = s.ecc := rfl
@[simp] theorem State.putQuay_host (s : State) (n : Nat) (x : Quay) : (s.putQuay n x).host = s.host := rfl
@[simp] theorem State.putQuay_winCache (s : State) (n : Nat) (x : Quay) : (s.putQuay n x).winCache = s.winCache := rfl
@[simp] theorem State.putQuay_msix (s : State) (n : Nat) (x : Quay) : (s.putQuay n x).msix = s.msix := rfl
@[simp] theorem State.putQuay_msixPend (s : State) (n : Nat) (x : Quay) : (s.putQuay n x).msixPend = s.msixPend := rfl
@[simp] theorem State.putQuay_ideHeld (s : State) (n : Nat) (x : Quay) : (s.putQuay n x).ideHeld = s.ideHeld := rfl
@[simp] theorem State.putQuay_rings (s : State) (n : Nat) (x : Quay) : (s.putQuay n x).rings = s.rings := rfl
@[simp] theorem State.putQuay_ringTurn (s : State) (n : Nat) (x : Quay) : (s.putQuay n x).ringTurn = s.ringTurn := rfl
@[simp] theorem State.putQuay_evt (s : State) (n : Nat) (x : Quay) : (s.putQuay n x).evt = s.evt := rfl
@[simp] theorem State.putQuay_tags (s : State) (n : Nat) (x : Quay) : (s.putQuay n x).tags = s.tags := rfl
@[simp] theorem State.putQuay_ready (s : State) (n : Nat) (x : Quay) : (s.putQuay n x).ready = s.ready := rfl
@[simp] theorem State.putQuay_origins (s : State) (n : Nat) (x : Quay) : (s.putQuay n x).origins = s.origins := rfl
@[simp] theorem State.putQuay_ctxs (s : State) (n : Nat) (x : Quay) : (s.putQuay n x).ctxs = s.ctxs := rfl
@[simp] theorem State.putQuay_kilns (s : State) (n : Nat) (x : Quay) : (s.putQuay n x).kilns = s.kilns := rfl
@[simp] theorem State.putQuay_streams (s : State) (n : Nat) (x : Quay) : (s.putQuay n x).streams = s.streams := rfl
@[simp] theorem State.putQuay_catchUps (s : State) (n : Nat) (x : Quay) : (s.putQuay n x).catchUps = s.catchUps := rfl
@[simp] theorem State.putQuay_bulk (s : State) (n : Nat) (x : Quay) : (s.putQuay n x).bulk = s.bulk := rfl
@[simp] theorem State.putQuay_seq (s : State) (n : Nat) (x : Quay) : (s.putQuay n x).seq = s.seq := rfl
@[simp] theorem State.putQuay_fencedStevs (s : State) (n : Nat) (x : Quay) : (s.putQuay n x).fencedStevs = s.fencedStevs := rfl
@[simp] theorem State.putQuay_remoteHolds (s : State) (n : Nat) (x : Quay) : (s.putQuay n x).remoteHolds = s.remoteHolds := rfl
@[simp] theorem State.putQuay_remoteWaits (s : State) (n : Nat) (x : Quay) : (s.putQuay n x).remoteWaits = s.remoteWaits := rfl
@[simp] theorem State.putQuay_tables (s : State) (n : Nat) (x : Quay) : (s.putQuay n x).tables = s.tables := rfl
@[simp] theorem State.putQuay_groups (s : State) (n : Nat) (x : Quay) : (s.putQuay n x).groups = s.groups := rfl
@[simp] theorem State.putQuay_masters (s : State) (n : Nat) (x : Quay) : (s.putQuay n x).masters = s.masters := rfl
@[simp] theorem State.putQuay_cranes (s : State) (n : Nat) (x : Quay) : (s.putQuay n x).cranes = s.cranes := rfl
@[simp] theorem State.putQuay_hot (s : State) (n : Nat) (x : Quay) : (s.putQuay n x).hot = s.hot := rfl
@[simp] theorem State.putQuay_jobs (s : State) (n : Nat) (x : Quay) : (s.putQuay n x).jobs = s.jobs := rfl
@[simp] theorem State.putQuay_nextJob (s : State) (n : Nat) (x : Quay) : (s.putQuay n x).nextJob = s.nextJob := rfl
@[simp] theorem State.putQuay_fetched (s : State) (n : Nat) (x : Quay) : (s.putQuay n x).fetched = s.fetched := rfl
@[simp] theorem State.putQuay_models (s : State) (n : Nat) (x : Quay) : (s.putQuay n x).models = s.models := rfl
@[simp] theorem State.putQuay_evicted (s : State) (n : Nat) (x : Quay) : (s.putQuay n x).evicted = s.evicted := rfl
@[simp] theorem State.putQuay_counts (s : State) (n : Nat) (x : Quay) : (s.putQuay n x).counts = s.counts := rfl
@[simp] theorem State.putQuay_admitted (s : State) (n : Nat) (x : Quay) : (s.putQuay n x).admitted = s.admitted := rfl
@[simp] theorem State.putQuay_conss (s : State) (n : Nat) (x : Quay) : (s.putQuay n x).conss = s.conss := rfl
@[simp] theorem State.putQuay_retiring (s : State) (n : Nat) (x : Quay) : (s.putQuay n x).retiring = s.retiring := rfl
@[simp] theorem State.putQuay_votes (s : State) (n : Nat) (x : Quay) : (s.putQuay n x).votes = s.votes := rfl
@[simp] theorem State.putQuay_decisions (s : State) (n : Nat) (x : Quay) : (s.putQuay n x).decisions = s.decisions := rfl
@[simp] theorem State.putQuay_notices (s : State) (n : Nat) (x : Quay) : (s.putQuay n x).notices = s.notices := rfl
@[simp] theorem State.putQuay_noticesDone (s : State) (n : Nat) (x : Quay) : (s.putQuay n x).noticesDone = s.noticesDone := rfl
@[simp] theorem State.putQuay_unacked (s : State) (n : Nat) (x : Quay) : (s.putQuay n x).unacked = s.unacked := rfl
@[simp] theorem State.putQuay_nextVc0 (s : State) (n : Nat) (x : Quay) : (s.putQuay n x).nextVc0 = s.nextVc0 := rfl
@[simp] theorem State.putQuay_freeFrames (s : State) (n : Nat) (x : Quay) : (s.putQuay n x).freeFrames = s.freeFrames := rfl
@[simp] theorem State.putQuay_deferred (s : State) (n : Nat) (x : Quay) : (s.putQuay n x).deferred = s.deferred := rfl
@[simp] theorem State.putQuay_indexPages (s : State) (n : Nat) (x : Quay) : (s.putQuay n x).indexPages = s.indexPages := rfl
@[simp] theorem State.putQuay_appended (s : State) (n : Nat) (x : Quay) : (s.putQuay n x).appended = s.appended := rfl
@[simp] theorem State.putQuay_routes (s : State) (n : Nat) (x : Quay) : (s.putQuay n x).routes = s.routes := rfl
@[simp] theorem State.putQuay_peers (s : State) (n : Nat) (x : Quay) : (s.putQuay n x).peers = s.peers := rfl
@[simp] theorem State.putQuay_pod (s : State) (n : Nat) (x : Quay) : (s.putQuay n x).pod = s.pod := rfl
@[simp] theorem State.putQuay_colls (s : State) (n : Nat) (x : Quay) : (s.putQuay n x).colls = s.colls := rfl
@[simp] theorem State.putQuay_salvor (s : State) (n : Nat) (x : Quay) : (s.putQuay n x).salvor = s.salvor := rfl
@[simp] theorem State.putQuay_dock (s : State) (n : Nat) (x : Quay) : (s.putQuay n x).dock = s.dock := rfl
@[simp] theorem State.putQuay_rebuild (s : State) (n : Nat) (x : Quay) : (s.putQuay n x).rebuild = s.rebuild := rfl
@[simp] theorem State.putQuay_rebuilding (s : State) (n : Nat) (x : Quay) : (s.putQuay n x).rebuilding = s.rebuilding := rfl
@[simp] theorem State.putQuay_cus (s : State) (n : Nat) (x : Quay) : (s.putQuay n x).cus = s.cus := rfl
@[simp] theorem State.putQuay_power (s : State) (n : Nat) (x : Quay) : (s.putQuay n x).power = s.power := rfl
@[simp] theorem State.putQuay_pilot (s : State) (n : Nat) (x : Quay) : (s.putQuay n x).pilot = s.pilot := rfl
@[simp] theorem State.putQuay_veiled (s : State) (n : Nat) (x : Quay) : (s.putQuay n x).veiled = s.veiled := rfl
@[simp] theorem State.putQuay_halted (s : State) (n : Nat) (x : Quay) : (s.putQuay n x).halted = s.halted := rfl
@[simp] theorem State.putQuay_out (s : State) (n : Nat) (x : Quay) : (s.putQuay n x).out = s.out := rfl
@[simp] theorem State.putQuay_laneOut (s : State) (n : Nat) (x : Quay) : (s.putQuay n x).laneOut = s.laneOut := rfl
@[simp] theorem State.putQuay_pending (s : State) (n : Nat) (x : Quay) : (s.putQuay n x).pending = s.pending := rfl

/-! ### `State.putJob` -/

@[simp] theorem State.putJob_flds (s : State) (x : Job) : (s.putJob x).flds = s.flds := rfl
@[simp] theorem State.putJob_latchR (s : State) (x : Job) : (s.putJob x).latchR = s.latchR := rfl
@[simp] theorem State.putJob_latchW (s : State) (x : Job) : (s.putJob x).latchW = s.latchW := rfl
@[simp] theorem State.putJob_mem (s : State) (x : Job) : (s.putJob x).mem = s.mem := rfl
@[simp] theorem State.putJob_undef (s : State) (x : Job) : (s.putJob x).undef = s.undef := rfl
@[simp] theorem State.putJob_stamp (s : State) (x : Job) : (s.putJob x).stamp = s.stamp := rfl
@[simp] theorem State.putJob_ecc (s : State) (x : Job) : (s.putJob x).ecc = s.ecc := rfl
@[simp] theorem State.putJob_host (s : State) (x : Job) : (s.putJob x).host = s.host := rfl
@[simp] theorem State.putJob_winCache (s : State) (x : Job) : (s.putJob x).winCache = s.winCache := rfl
@[simp] theorem State.putJob_msix (s : State) (x : Job) : (s.putJob x).msix = s.msix := rfl
@[simp] theorem State.putJob_msixPend (s : State) (x : Job) : (s.putJob x).msixPend = s.msixPend := rfl
@[simp] theorem State.putJob_ideHeld (s : State) (x : Job) : (s.putJob x).ideHeld = s.ideHeld := rfl
@[simp] theorem State.putJob_rings (s : State) (x : Job) : (s.putJob x).rings = s.rings := rfl
@[simp] theorem State.putJob_ringTurn (s : State) (x : Job) : (s.putJob x).ringTurn = s.ringTurn := rfl
@[simp] theorem State.putJob_evt (s : State) (x : Job) : (s.putJob x).evt = s.evt := rfl
@[simp] theorem State.putJob_tags (s : State) (x : Job) : (s.putJob x).tags = s.tags := rfl
@[simp] theorem State.putJob_ready (s : State) (x : Job) : (s.putJob x).ready = s.ready := rfl
@[simp] theorem State.putJob_origins (s : State) (x : Job) : (s.putJob x).origins = s.origins := rfl
@[simp] theorem State.putJob_ctxs (s : State) (x : Job) : (s.putJob x).ctxs = s.ctxs := rfl
@[simp] theorem State.putJob_kilns (s : State) (x : Job) : (s.putJob x).kilns = s.kilns := rfl
@[simp] theorem State.putJob_streams (s : State) (x : Job) : (s.putJob x).streams = s.streams := rfl
@[simp] theorem State.putJob_catchUps (s : State) (x : Job) : (s.putJob x).catchUps = s.catchUps := rfl
@[simp] theorem State.putJob_bulk (s : State) (x : Job) : (s.putJob x).bulk = s.bulk := rfl
@[simp] theorem State.putJob_seq (s : State) (x : Job) : (s.putJob x).seq = s.seq := rfl
@[simp] theorem State.putJob_fencedStevs (s : State) (x : Job) : (s.putJob x).fencedStevs = s.fencedStevs := rfl
@[simp] theorem State.putJob_remoteHolds (s : State) (x : Job) : (s.putJob x).remoteHolds = s.remoteHolds := rfl
@[simp] theorem State.putJob_remoteWaits (s : State) (x : Job) : (s.putJob x).remoteWaits = s.remoteWaits := rfl
@[simp] theorem State.putJob_tables (s : State) (x : Job) : (s.putJob x).tables = s.tables := rfl
@[simp] theorem State.putJob_groups (s : State) (x : Job) : (s.putJob x).groups = s.groups := rfl
@[simp] theorem State.putJob_masters (s : State) (x : Job) : (s.putJob x).masters = s.masters := rfl
@[simp] theorem State.putJob_cranes (s : State) (x : Job) : (s.putJob x).cranes = s.cranes := rfl
@[simp] theorem State.putJob_hot (s : State) (x : Job) : (s.putJob x).hot = s.hot := rfl
@[simp] theorem State.putJob_nextJob (s : State) (x : Job) : (s.putJob x).nextJob = s.nextJob := rfl
@[simp] theorem State.putJob_fetched (s : State) (x : Job) : (s.putJob x).fetched = s.fetched := rfl
@[simp] theorem State.putJob_models (s : State) (x : Job) : (s.putJob x).models = s.models := rfl
@[simp] theorem State.putJob_evicted (s : State) (x : Job) : (s.putJob x).evicted = s.evicted := rfl
@[simp] theorem State.putJob_counts (s : State) (x : Job) : (s.putJob x).counts = s.counts := rfl
@[simp] theorem State.putJob_admitted (s : State) (x : Job) : (s.putJob x).admitted = s.admitted := rfl
@[simp] theorem State.putJob_conss (s : State) (x : Job) : (s.putJob x).conss = s.conss := rfl
@[simp] theorem State.putJob_retiring (s : State) (x : Job) : (s.putJob x).retiring = s.retiring := rfl
@[simp] theorem State.putJob_votes (s : State) (x : Job) : (s.putJob x).votes = s.votes := rfl
@[simp] theorem State.putJob_decisions (s : State) (x : Job) : (s.putJob x).decisions = s.decisions := rfl
@[simp] theorem State.putJob_notices (s : State) (x : Job) : (s.putJob x).notices = s.notices := rfl
@[simp] theorem State.putJob_noticesDone (s : State) (x : Job) : (s.putJob x).noticesDone = s.noticesDone := rfl
@[simp] theorem State.putJob_unacked (s : State) (x : Job) : (s.putJob x).unacked = s.unacked := rfl
@[simp] theorem State.putJob_nextVc0 (s : State) (x : Job) : (s.putJob x).nextVc0 = s.nextVc0 := rfl
@[simp] theorem State.putJob_freeFrames (s : State) (x : Job) : (s.putJob x).freeFrames = s.freeFrames := rfl
@[simp] theorem State.putJob_deferred (s : State) (x : Job) : (s.putJob x).deferred = s.deferred := rfl
@[simp] theorem State.putJob_indexPages (s : State) (x : Job) : (s.putJob x).indexPages = s.indexPages := rfl
@[simp] theorem State.putJob_appended (s : State) (x : Job) : (s.putJob x).appended = s.appended := rfl
@[simp] theorem State.putJob_quays (s : State) (x : Job) : (s.putJob x).quays = s.quays := rfl
@[simp] theorem State.putJob_routes (s : State) (x : Job) : (s.putJob x).routes = s.routes := rfl
@[simp] theorem State.putJob_peers (s : State) (x : Job) : (s.putJob x).peers = s.peers := rfl
@[simp] theorem State.putJob_pod (s : State) (x : Job) : (s.putJob x).pod = s.pod := rfl
@[simp] theorem State.putJob_colls (s : State) (x : Job) : (s.putJob x).colls = s.colls := rfl
@[simp] theorem State.putJob_salvor (s : State) (x : Job) : (s.putJob x).salvor = s.salvor := rfl
@[simp] theorem State.putJob_dock (s : State) (x : Job) : (s.putJob x).dock = s.dock := rfl
@[simp] theorem State.putJob_rebuild (s : State) (x : Job) : (s.putJob x).rebuild = s.rebuild := rfl
@[simp] theorem State.putJob_rebuilding (s : State) (x : Job) : (s.putJob x).rebuilding = s.rebuilding := rfl
@[simp] theorem State.putJob_cus (s : State) (x : Job) : (s.putJob x).cus = s.cus := rfl
@[simp] theorem State.putJob_power (s : State) (x : Job) : (s.putJob x).power = s.power := rfl
@[simp] theorem State.putJob_pilot (s : State) (x : Job) : (s.putJob x).pilot = s.pilot := rfl
@[simp] theorem State.putJob_veiled (s : State) (x : Job) : (s.putJob x).veiled = s.veiled := rfl
@[simp] theorem State.putJob_halted (s : State) (x : Job) : (s.putJob x).halted = s.halted := rfl
@[simp] theorem State.putJob_out (s : State) (x : Job) : (s.putJob x).out = s.out := rfl
@[simp] theorem State.putJob_laneOut (s : State) (x : Job) : (s.putJob x).laneOut = s.laneOut := rfl
@[simp] theorem State.putJob_pending (s : State) (x : Job) : (s.putJob x).pending = s.pending := rfl

/-! ### `State.sendAll` -/

@[simp] theorem State.sendAll_flds (s : State) (ms : List Msg) : (s.sendAll ms).flds = s.flds := rfl
@[simp] theorem State.sendAll_latchR (s : State) (ms : List Msg) : (s.sendAll ms).latchR = s.latchR := rfl
@[simp] theorem State.sendAll_latchW (s : State) (ms : List Msg) : (s.sendAll ms).latchW = s.latchW := rfl
@[simp] theorem State.sendAll_mem (s : State) (ms : List Msg) : (s.sendAll ms).mem = s.mem := rfl
@[simp] theorem State.sendAll_undef (s : State) (ms : List Msg) : (s.sendAll ms).undef = s.undef := rfl
@[simp] theorem State.sendAll_stamp (s : State) (ms : List Msg) : (s.sendAll ms).stamp = s.stamp := rfl
@[simp] theorem State.sendAll_ecc (s : State) (ms : List Msg) : (s.sendAll ms).ecc = s.ecc := rfl
@[simp] theorem State.sendAll_host (s : State) (ms : List Msg) : (s.sendAll ms).host = s.host := rfl
@[simp] theorem State.sendAll_winCache (s : State) (ms : List Msg) : (s.sendAll ms).winCache = s.winCache := rfl
@[simp] theorem State.sendAll_msix (s : State) (ms : List Msg) : (s.sendAll ms).msix = s.msix := rfl
@[simp] theorem State.sendAll_msixPend (s : State) (ms : List Msg) : (s.sendAll ms).msixPend = s.msixPend := rfl
@[simp] theorem State.sendAll_ideHeld (s : State) (ms : List Msg) : (s.sendAll ms).ideHeld = s.ideHeld := rfl
@[simp] theorem State.sendAll_rings (s : State) (ms : List Msg) : (s.sendAll ms).rings = s.rings := rfl
@[simp] theorem State.sendAll_ringTurn (s : State) (ms : List Msg) : (s.sendAll ms).ringTurn = s.ringTurn := rfl
@[simp] theorem State.sendAll_evt (s : State) (ms : List Msg) : (s.sendAll ms).evt = s.evt := rfl
@[simp] theorem State.sendAll_tags (s : State) (ms : List Msg) : (s.sendAll ms).tags = s.tags := rfl
@[simp] theorem State.sendAll_ready (s : State) (ms : List Msg) : (s.sendAll ms).ready = s.ready := rfl
@[simp] theorem State.sendAll_origins (s : State) (ms : List Msg) : (s.sendAll ms).origins = s.origins := rfl
@[simp] theorem State.sendAll_ctxs (s : State) (ms : List Msg) : (s.sendAll ms).ctxs = s.ctxs := rfl
@[simp] theorem State.sendAll_kilns (s : State) (ms : List Msg) : (s.sendAll ms).kilns = s.kilns := rfl
@[simp] theorem State.sendAll_streams (s : State) (ms : List Msg) : (s.sendAll ms).streams = s.streams := rfl
@[simp] theorem State.sendAll_catchUps (s : State) (ms : List Msg) : (s.sendAll ms).catchUps = s.catchUps := rfl
@[simp] theorem State.sendAll_bulk (s : State) (ms : List Msg) : (s.sendAll ms).bulk = s.bulk := rfl
@[simp] theorem State.sendAll_seq (s : State) (ms : List Msg) : (s.sendAll ms).seq = s.seq := rfl
@[simp] theorem State.sendAll_fencedStevs (s : State) (ms : List Msg) : (s.sendAll ms).fencedStevs = s.fencedStevs := rfl
@[simp] theorem State.sendAll_remoteHolds (s : State) (ms : List Msg) : (s.sendAll ms).remoteHolds = s.remoteHolds := rfl
@[simp] theorem State.sendAll_remoteWaits (s : State) (ms : List Msg) : (s.sendAll ms).remoteWaits = s.remoteWaits := rfl
@[simp] theorem State.sendAll_tables (s : State) (ms : List Msg) : (s.sendAll ms).tables = s.tables := rfl
@[simp] theorem State.sendAll_groups (s : State) (ms : List Msg) : (s.sendAll ms).groups = s.groups := rfl
@[simp] theorem State.sendAll_masters (s : State) (ms : List Msg) : (s.sendAll ms).masters = s.masters := rfl
@[simp] theorem State.sendAll_cranes (s : State) (ms : List Msg) : (s.sendAll ms).cranes = s.cranes := rfl
@[simp] theorem State.sendAll_hot (s : State) (ms : List Msg) : (s.sendAll ms).hot = s.hot := rfl
@[simp] theorem State.sendAll_jobs (s : State) (ms : List Msg) : (s.sendAll ms).jobs = s.jobs := rfl
@[simp] theorem State.sendAll_nextJob (s : State) (ms : List Msg) : (s.sendAll ms).nextJob = s.nextJob := rfl
@[simp] theorem State.sendAll_fetched (s : State) (ms : List Msg) : (s.sendAll ms).fetched = s.fetched := rfl
@[simp] theorem State.sendAll_models (s : State) (ms : List Msg) : (s.sendAll ms).models = s.models := rfl
@[simp] theorem State.sendAll_evicted (s : State) (ms : List Msg) : (s.sendAll ms).evicted = s.evicted := rfl
@[simp] theorem State.sendAll_counts (s : State) (ms : List Msg) : (s.sendAll ms).counts = s.counts := rfl
@[simp] theorem State.sendAll_admitted (s : State) (ms : List Msg) : (s.sendAll ms).admitted = s.admitted := rfl
@[simp] theorem State.sendAll_conss (s : State) (ms : List Msg) : (s.sendAll ms).conss = s.conss := rfl
@[simp] theorem State.sendAll_retiring (s : State) (ms : List Msg) : (s.sendAll ms).retiring = s.retiring := rfl
@[simp] theorem State.sendAll_votes (s : State) (ms : List Msg) : (s.sendAll ms).votes = s.votes := rfl
@[simp] theorem State.sendAll_decisions (s : State) (ms : List Msg) : (s.sendAll ms).decisions = s.decisions := rfl
@[simp] theorem State.sendAll_notices (s : State) (ms : List Msg) : (s.sendAll ms).notices = s.notices := rfl
@[simp] theorem State.sendAll_noticesDone (s : State) (ms : List Msg) : (s.sendAll ms).noticesDone = s.noticesDone := rfl
@[simp] theorem State.sendAll_unacked (s : State) (ms : List Msg) : (s.sendAll ms).unacked = s.unacked := rfl
@[simp] theorem State.sendAll_nextVc0 (s : State) (ms : List Msg) : (s.sendAll ms).nextVc0 = s.nextVc0 := rfl
@[simp] theorem State.sendAll_freeFrames (s : State) (ms : List Msg) : (s.sendAll ms).freeFrames = s.freeFrames := rfl
@[simp] theorem State.sendAll_deferred (s : State) (ms : List Msg) : (s.sendAll ms).deferred = s.deferred := rfl
@[simp] theorem State.sendAll_indexPages (s : State) (ms : List Msg) : (s.sendAll ms).indexPages = s.indexPages := rfl
@[simp] theorem State.sendAll_appended (s : State) (ms : List Msg) : (s.sendAll ms).appended = s.appended := rfl
@[simp] theorem State.sendAll_quays (s : State) (ms : List Msg) : (s.sendAll ms).quays = s.quays := rfl
@[simp] theorem State.sendAll_routes (s : State) (ms : List Msg) : (s.sendAll ms).routes = s.routes := rfl
@[simp] theorem State.sendAll_peers (s : State) (ms : List Msg) : (s.sendAll ms).peers = s.peers := rfl
@[simp] theorem State.sendAll_pod (s : State) (ms : List Msg) : (s.sendAll ms).pod = s.pod := rfl
@[simp] theorem State.sendAll_colls (s : State) (ms : List Msg) : (s.sendAll ms).colls = s.colls := rfl
@[simp] theorem State.sendAll_salvor (s : State) (ms : List Msg) : (s.sendAll ms).salvor = s.salvor := rfl
@[simp] theorem State.sendAll_dock (s : State) (ms : List Msg) : (s.sendAll ms).dock = s.dock := rfl
@[simp] theorem State.sendAll_rebuild (s : State) (ms : List Msg) : (s.sendAll ms).rebuild = s.rebuild := rfl
@[simp] theorem State.sendAll_rebuilding (s : State) (ms : List Msg) : (s.sendAll ms).rebuilding = s.rebuilding := rfl
@[simp] theorem State.sendAll_cus (s : State) (ms : List Msg) : (s.sendAll ms).cus = s.cus := rfl
@[simp] theorem State.sendAll_power (s : State) (ms : List Msg) : (s.sendAll ms).power = s.power := rfl
@[simp] theorem State.sendAll_pilot (s : State) (ms : List Msg) : (s.sendAll ms).pilot = s.pilot := rfl
@[simp] theorem State.sendAll_veiled (s : State) (ms : List Msg) : (s.sendAll ms).veiled = s.veiled := rfl
@[simp] theorem State.sendAll_halted (s : State) (ms : List Msg) : (s.sendAll ms).halted = s.halted := rfl
@[simp] theorem State.sendAll_laneOut (s : State) (ms : List Msg) : (s.sendAll ms).laneOut = s.laneOut := rfl
@[simp] theorem State.sendAll_pending (s : State) (ms : List Msg) : (s.sendAll ms).pending = s.pending := rfl

/-! ### What is put is read back -/

theorem State.get_put (s : State) (f g : Fld) (i j v : Nat) :
    (s.put f i v).get g j = if g.key j = f.key i then v % 2 ^ f.width else s.get g j := by
  unfold State.get State.put fldGet fldSet
  rw [Tab.get_insert]

@[simp] theorem State.get_put_self (s : State) (f : Fld) (i v : Nat) : (s.put f i v).get f i = v % 2 ^ f.width := by
  rw [State.get_put, if_pos rfl]

theorem State.get_put_ne (s : State) {f g : Fld} {i j : Nat} (v : Nat) (h : g.key j ≠ f.key i) :
    (s.put f i v).get g j = s.get g j := by
  rw [State.get_put, if_neg h]

/-- A counter holds at its largest value (R7). -/
@[simp] theorem State.get_inc_self (s : State) (f : Fld) (i n : Nat) : (s.inc f i n).get f i = min (s.get f i + n) (2 ^ f.width - 1) := by
  unfold State.inc
  rw [State.get_put_self, Nat.mod_eq_of_lt]
  have : 0 < 2 ^ f.width := Nat.two_pow_pos _
  omega

theorem State.get_inc_ne (s : State) {f g : Fld} {i j : Nat} (n : Nat) (h : g.key j ≠ f.key i) : (s.inc f i n).get g j = s.get g j :=
  State.get_put_ne s _ h

theorem State.get_of_flds {s t : State} (h : t.flds = s.flds) (f : Fld) (i : Nat) : t.get f i = s.get f i := by
  unfold State.get; rw [h]

@[simp] theorem State.ring_putRing (s : State) (n : Nat) (x : Ring) (m : Nat) : (s.putRing n x).ring m = if m = n then x else s.ring m := by
  unfold State.ring State.putRing; rw [Tab.get_insert]
@[simp] theorem State.stream_putStream (s : State) (n : Nat) (x : Stream) (m : Nat) : (s.putStream n x).stream m = if m = n then x else s.stream m := by
  unfold State.stream State.putStream; rw [Tab.get_insert]
@[simp] theorem State.kiln_putKiln (s : State) (n : Nat) (x : Kiln) (m : Nat) : (s.putKiln n x).kiln m = if m = n then x else s.kiln m := by
  unfold State.kiln State.putKiln; rw [Tab.get_insert]
@[simp] theorem State.table_putTable (s : State) (n : Nat) (x : Table) (m : Nat) : (s.putTable n x).table m = if m = n then x else s.table m := by
  unfold State.table State.putTable; rw [Tab.get_insert]
@[simp] theorem State.group_putGroup (s : State) (n : Nat) (x : Group) (m : Nat) : (s.putGroup n x).group m = if m = n then x else s.group m := by
  unfold State.group State.putGroup; rw [Tab.get_insert]
@[simp] theorem State.master_putMaster (s : State) (n : Nat) (x : MasterRec) (m : Nat) : (s.putMaster n x).master m = if m = n then x else s.master m := by
  unfold State.master State.putMaster; rw [Tab.get_insert]
@[simp] theorem State.crane_putCrane (s : State) (n : Nat) (x : Crane) (m : Nat) : (s.putCrane n x).crane m = if m = n then x else s.crane m := by
  unfold State.crane State.putCrane; rw [Tab.get_insert]
@[simp] theorem State.model_putModel (s : State) (n : Nat) (x : Model) (m : Nat) : (s.putModel n x).model m = if m = n then x else s.model m := by
  unfold State.model State.putModel; rw [Tab.get_insert]
@[simp] theorem State.quay_putQuay (s : State) (n : Nat) (x : Quay) (m : Nat) : (s.putQuay n x).quay m = if m = n then x else s.quay m := by
  unfold State.quay State.putQuay; rw [Tab.get_insert]
@[simp] theorem State.peer_putPeer (s : State) (n : Nat) (x : Peer) (m : Nat) : (s.putPeer n x).peer m = if m = n then x else s.peer m := by
  unfold State.peer State.putPeer; rw [Tab.get_insert]

@[simp] theorem State.ctx_putCtx_self (s : State) (k c : Nat) (x : KCtx) : (s.putCtx k c x).ctx k c = x := by
  unfold State.ctx State.putCtx; rw [Tab.get_insert_self]

end Sys2Proof.Machine
end

