-- ==== Sys2Proof/WellFormed.lean ====
section
/-! DEFINITION. Well-formed commands: every operand that names a unit, or carries a field of a fixed width, lies in the range that
the spec gives it. Operands of which the spec bounds nothing are unconstrained. -/

namespace Sys2Proof

/-- A command is well-formed. -/
def Instr.wf : Instr → Bool
  | .tideBoundary sat _ => decide (sat < 9)
  | .epochRetire _ => true
  | .modelVersionRetire model _ => decide (model < 65536)
  | .descriptorFetch ring => decide (ring < 256)
  | .descriptorReadComplete ring _ => decide (ring < 256)
  | .run ring sq => decide (ring < 256) && decide (sq < 2 ^ 32)
  | .consign ring sq => decide (ring < 256) && decide (sq < 2 ^ 32)
  | .nop ring sq => decide (ring < 256) && decide (sq < 2 ^ 32)
  | .interruptCoalesceTimeout ring => decide (ring < 256)
  | .msixUnmask port vector => decide (port < 2) && decide (vector < 512)
  | .jobDeadline _ => true
  | .unitDispatch _ _ => true
  | .streamStart stream _ _ _ _ => decide (stream < 2048)
  | .reservationTake stream => decide (stream < 2048)
  | .remoteReservationGrant quay device stream _ => decide (quay < 16) && decide (device < 4096) && decide (stream < 2048)
  | .manifestEnd stream => decide (stream < 2048)
  | .loop stream => decide (stream < 2048)
  | .stride stream => decide (stream < 2048)
  | .emit stream => decide (stream < 2048)
  | .gather stream => decide (stream < 2048)
  | .align stream => decide (stream < 2048)
  | .waitslotSlot stream => decide (stream < 2048)
  | .waitslotBarrier stream => decide (stream < 2048)
  | .waitslotReread stream => decide (stream < 2048)
  | .signal stream => decide (stream < 2048)
  | .tagGrant turn => decide (turn.stevedore < 64)
  | .readyBitSet stream _ slot => decide (stream < 2048) && decide (slot < 128)
  | .tileAccept stream _ => decide (stream < 2048)
  | .streamEnd stream => decide (stream < 2048)
  | .receiverDetach stream _ => decide (stream < 2048)
  | .catchupStreamStart stevedore => decide (stevedore < 64)
  | .streamFault stream _ reason => decide (stream < 2048) && decide (reason < 8)
  | .resumeStream word => decide (word < 2 ^ 32)
  | .resumeKilnTask task reserved gen => decide (task < 1024) && decide (reserved < 32) && decide (gen < 65536)
  | .mutualWaitProbe stream _ => decide (stream < 2048)
  | .layer kiln slot => decide (kiln < 256) && decide (slot < 4)
  | .bankExchange kiln _ _ => decide (kiln < 256)
  | .taskSwitch kiln _ => decide (kiln < 256)
  | .rowWatermarkAdvance kiln slot _ => decide (kiln < 256) && decide (slot < 4)
  | .loadpin kiln slot => decide (kiln < 256) && decide (slot < 4)
  | .swap kiln slot => decide (kiln < 256) && decide (slot < 4)
  | .arrive kiln slot => decide (kiln < 256) && decide (slot < 4)
  | .waitbar kiln slot => decide (kiln < 256) && decide (slot < 4)
  | .waitbarReread kiln slot => decide (kiln < 256) && decide (slot < 4)
  | .clearbar kiln slot => decide (kiln < 256) && decide (slot < 4)
  | .kilnEnd kiln slot => decide (kiln < 256) && decide (slot < 4)
  | .hmul kiln slot _ _ => decide (kiln < 256) && decide (slot < 4)
  | .hvec kiln slot _ => decide (kiln < 256) && decide (slot < 4)
  | .kilnFault kiln source => decide (kiln < 256) && decide (source < 8)
  | .kilnProgressTimeout kiln => decide (kiln < 256)
  | .taskRestart _ _ _ kiln slot _ _ => decide (kiln < 256) && decide (slot < 4)
  | .noswitchViolation kiln slot => decide (kiln < 256) && decide (slot < 4)
  | .taskEvict kiln => decide (kiln < 256)
  | .evictedTaskReturn _ _ _ kiln slot _ _ => decide (kiln < 256) && decide (slot < 4)
  | .warehouseRead _ _ _ _ => true
  | .warehouseWrite _ who data => decide (who.cls < 4) && decide (1 ≤ data.length ∧ data.length ≤ 256)
  | .bitSetWrite _ who data => decide (who.cls < 4) && decide (1 ≤ data.length ∧ data.length ≤ 256)
  | .bitClearWrite _ who data => decide (who.cls < 4) && decide (1 ≤ data.length ∧ data.length ≤ 256)
  | .wayStop die way => decide (die < 2) && decide (way < 16)
  | .wayStopped die way => decide (die < 2) && decide (way < 16)
  | .modelBlockMove die way => decide (die < 2) && decide (way < 16)
  | .wayRestart die way => decide (die < 2) && decide (way < 16)
  | .destructStart engine => decide (engine < 2)
  | .destructiveTestDone engine _ => decide (engine < 2)
  | .preservingPass engine _ _ column _ => decide (engine < 2) && decide (column < 2048)
  | .marchPassAbort engine _ _ => decide (engine < 2)
  | .repairBurn kind unit macroNo column => decide (kind < 4) && decide (unit < 256) && decide (macroNo < 16) && decide (column < 2048)
  | .repairBurnDone => true
  | .tableEnable table _ => decide (table < 4096)
  | .tableDisable table => decide (table < 4096)
  | .tableDisableDone table => decide (table < 4096)
  | .sectionTally _ _ => true
  | .ladingPart _ => true
  | .indexCut => true
  | .recordReadReturn crane _ => decide (crane < 256)
  | .pooledSlice _ table _ _ slot attempt _ => decide (table < 4096) && decide (slot < 64) && decide (attempt < 2)
  | .partDone _ table _ slot _ attempt _ => decide (table < 4096) && decide (slot < 64) && decide (attempt < 2)
  | .slicePressureMark => true
  | .rawRequest table gen epoch _ device cls _ => decide (table < 4096) && decide (gen < 2 ^ 32) && decide (epoch < 2 ^ 32) && decide (device < 4096) && decide (cls < 4)
  | .rawCopy crane _ sender _ _ => decide (crane < 256) && decide (sender.slot < 64)
  | .consignmentPrepare _ => true
  | .pageWrite _ => true
  | .parityDelta _ => true
  | .rootSet _ => true
  | .rescaleSwap _ => true
  | .pin _ => true
  | .unpin _ => true
  | .prepareDone _ => true
  | .prepareTimeout _ => true
  | .vote _ => true
  | .voteTimeout _ => true
  | .decisionToPodMaster _ _ => true
  | .decision _ _ => true
  | .notice _ => true
  | .retireAt _ _ => true
  | .query _ group device => decide (group < 1024) && decide (device < 4096)
  | .ack of device => decide (of.slot < 64) && decide (device < 4096)
  | .inDoubtTimeout _ => true
  | .vc0Resend => true
  | .historyRead _ => true
  | .historyAppend _ => true
  | .historyCreate _ => true
  | .historyTrim _ => true
  | .historyRelease _ => true
  | .historyFree _ => true
  | .frameReturn _ => true
  | .chunkStep _ _ => true
  | .chunkStepComplete _ _ => true
  | .historyAppendFail _ => true
  | .historyStop => true
  | .historyStopped => true
  | .historyStart => true
  | .modelAdd model => decide (model < 65536)
  | .modelRemove model => decide (model < 65536)
  | .modelRemoved model => decide (model < 65536)
  | .modelLoadDone model => decide (model < 65536)
  | .modelBlockReload model _ _ => decide (model < 65536)
  | .admissionStop => true
  | .admissionDrained => true
  | .admissionStart => true
  | .chsetStop set => decide (set < 32)
  | .chsetRestart set => decide (set < 32)
  | .freezeResetRing ring => decide (ring < 256)
  | .freezeResetStream stream => decide (stream < 2048)
  | .freezeResetKilnTask task => decide (task < 1024)
  | .freezeResetPeer device => decide (device < 4096)
  | .sqProducer ring value => decide (ring < 256) && decide (value < 2 ^ 64)
  | .cqConsumer ring value => decide (ring < 256) && decide (value < 2 ^ 64)
  | .eventRingConsumer value => decide (value < 2 ^ 64)
  | .bar2BadWrite _ _ => true
  | .ringEnable ring => decide (ring < 256)
  | .ringDisable ring => decide (ring < 256)
  | .ringStopped ring => decide (ring < 256)
  | .eventRingEnable => true
  | .eventRingDisable => true
  | .eventRecordWrite _ => true
  | .windowInvalidate _ => true
  | .windowInvalidateAll => true
  | .apertureMove port _ => decide (port < 2)
  | .apertureRead port _ _ => decide (port < 2)
  | .apertureWrite port _ _ => decide (port < 2)
  | .bar0BadAccess port _ _ _ => decide (port < 2)
  | .portReset port => decide (port < 2)
  | .busMasterEnableChange port _ => decide (port < 2)
  | .ideLeavesSecure port => decide (port < 2)
  | .blockReceive quay lane seq _ last => decide (quay < 16) && decide (lane < 64) && decide (seq < 4096) && decide (last.crVc < 4)
  | .replayRequest quay lane _ => decide (quay < 16) && decide (lane < 64)
  | .frameIdleClose quay lane _ _ => decide (quay < 16) && decide (lane < 64)
  | .linkRekey quay _ => decide (quay < 16)
  | .laneFail quay lane _ => decide (quay < 16) && decide (lane < 64)
  | .quayFail quay _ => decide (quay < 16)
  | .remoteReadTimeout stream _ => decide (stream < 2048)
  | .quayStop quay => decide (quay < 16)
  | .quayTrain quay _ => decide (quay < 16)
  | .podJoin _ => true
  | .joinRequest _ => true
  | .joinRetry _ => true
  | .podLeave => true
  | .leave device => decide (device < 4096)
  | .heartbeat device _ gen => decide (device < 4096) && decide (gen < 2 ^ 32)
  | .heartbeatSilence device reporter => decide (device < 4096) && decide (reporter < 4096)
  | .deviceLost device => decide (device < 4096)
  | .lostNotice device gen => decide (device < 4096) && decide (gen < 2 ^ 32)
  | .standbyTakeover _ => true
  | .timeMarker quay _ _ _ _ => decide (quay < 16)
  | .markerLossLeave => true
  | .delayProbe quay _ => decide (quay < 16)
  | .collectiveChannelEnable channel => decide (channel < 64)
  | .collectiveChannelDisable channel => decide (channel < 64)
  | .collectiveRoundOpen channel => decide (channel < 64)
  | .collectiveMessage channel round device _ _ _ => decide (channel < 64) && decide (round < 65536) && decide (device < 4096)
  | .collectiveRoundComplete channel => decide (channel < 64)
  | .snapshotRequest _ _ => true
  | .snapshotRecordsWritten _ => true
  | .resetPod => true
  | .peerViolation device _ => decide (device < 4096)
  | .errorDetect _ => true
  | .salvorHandle => true
  | .deviceFaultStop _ => true
  | .salvorEscalate _ => true
  | .salvorRestart => true
  | .schedulerWatchdog => true
  | .hbmStackFail stack cause => decide (stack < 12) && decide (cause < 8)
  | .slotsLost device group slot => decide (device < 4096) && decide (group < 1024) && decide (slot < 64)
  | .slotLossNotice device group slot => decide (device < 4096) && decide (group < 1024) && decide (slot < 64)
  | .rebuildGo group => decide (group < 1024)
  | .rebuildStart group slot device => decide (group < 1024) && decide (slot < 64) && decide (device < 4096)
  | .rebuildPage table _ slot _ => decide (table < 4096) && decide (slot < 64)
  | .rebuildDone group slot device => decide (group < 1024) && decide (slot < 64) && decide (device < 4096)
  | .slotReplace group slot device => decide (group < 1024) && decide (slot < 64) && decide (device < 4096)
  | .rebuildEnd group => decide (group < 1024)
  | .patrolScrub _ _ => true
  | .trngHealthFail => true
  | .customsWatchdog => true
  | .cusZeroise => true
  | .tamperTrip => true
  | .getVersion _ => true
  | .getCapabilities _ => true
  | .negotiateAlgorithms _ => true
  | .getDigests _ => true
  | .getCertificate _ slot _ _ => decide (slot < 64)
  | .challenge _ slot _ => decide (slot < 64)
  | .getMeasurements _ _ _ _ => true
  | .keyExchange _ _ => true
  | .finish _ _ _ => true
  | .heartbeatSpdm _ _ => true
  | .keyUpdate _ _ => true
  | .endSession _ _ => true
  | .chunkSend _ _ _ _ => true
  | .chunkGet _ _ => true
  | .ideKm _ port _ => decide (port < 2)
  | .debugNonce _ => true
  | .debugUnlock _ => true
  | .lifecycleTransition _ _ _ _ _ => true
  | .debugClose => true
  | .debugHalt kiln slot => decide (kiln < 256) && decide (slot < 4)
  | .debugStepCommand kiln slot => decide (kiln < 256) && decide (slot < 4)
  | .debugStepTile kiln slot => decide (kiln < 256) && decide (slot < 4)
  | .debugResume kiln slot => decide (kiln < 256) && decide (slot < 4)
  | .stateReqRun => true
  | .stateReqBanked => true
  | .stateReqSmoulder => true
  | .lowPowerEntry => true
  | .stepReq step => decide (step < 4)
  | .wake _ => true
  | .quaysWarm => true
  | .underVoltageTrip => true
  | .overVoltageTrip => true
  | .inputRelease => true
  | .hotTrip site => decide (site < 4)
  | .hotTripRelease site => decide (site < 4)
  | .shutdownTrip site => decide (site < 4)
  | .shutdownTripRelease site => decide (site < 4)
  | .managementTick _ _ _ _ _ => true
  | .pilotWatchdog => true
  | .severity3ResetPolicy => true
  | .pltCapWrite _ value => decide (value < 2 ^ 64)
  | .pltReset _ _ => true
  | .profileSave => true
  | .profileErase => true
  | .mctpMessage _ _ _ => true
  | .firmwareTransferEnd _ => true
  | .firmwareActivate => true
  | .tideHold _ => true
  | .holdReady device => decide (device < 4096)
  | .tideStopBroadcast _ _ => true
  | .tideHoldRelease _ _ _ _ => true
  | .modEnRise => true
  | .modEnRelease => true
  | .resetIn => true
  | .deviceReset => true
  | .startUp _ => true
  | .setupLock _ => true
  | .registerWrite _ _ _ value => decide (value < 2 ^ 64)
  | .registerRead _ _ _ => true
  | .readDataLands stream _ _ => decide (stream < 2048)
  | .remoteStreamRead device stream _ _ _ order => decide (device < 4096) && decide (stream < 2048) && decide (order.cls < 4)
  | .remoteStreamWrite device stream _ _ cls _ => decide (device < 4096) && decide (stream < 2048) && decide (cls < 4)
  | .rebuildPageRequest table _ slot device => decide (table < 4096) && decide (slot < 64) && decide (device < 4096)
  | .groupMasterEpochRequest table gen group epoch0 device => decide (table < 4096) && decide (gen < 2 ^ 32) && decide (group < 1024) && decide (epoch0 < 2 ^ 32) && decide (device < 4096)
  | .endToEndAck device _ => decide (device < 4096)
  | .routeTables _ => true
  | .masterMirror _ _ _ _ _ => true
  | .lighthousePowerLoss => true
  | .quayReconnect quay _ => decide (quay < 16)

end Sys2Proof
end

