-- ==== Sys2Proof/Tests/Slice0.lean ====
section
/-! SUPPORT. Tests: ill-formed commands that the check refuses, worked values of the spec, and for each statement states and operands that meet its
conditions together, on which the command is run and what it is said to do is looked at. -/

set_option Elab.async false

open Sys2Proof Sys2Proof.Machine Sys2Proof.Safety

namespace Sys2Proof.Tests

/-- The command completes in a state that passes a check. -/
def goes (c : Instr) (s : State) (p : State → Bool) : Bool :=
  match exec c s with
  | .next t => p t
  | _ => false

/-! ### States -/

/-- The device in service: start-up has run, and a tide runs. -/
def up : State := State.reset.put LHS_START_STEP 0 7
def tide : State := (up.put HMR_TIDE_STATUS_RUNNING 0 1).put HMR_TIDE_COUNT_TIDE 0 100

/-! ### The block -/

theorem test_step_idle : State.reset.pending = [] ∧ (match step State.reset with | .next t => t == State.reset | _ => false) = true := by decide +kernel

theorem test_step_front : ({ up with pending := [.windowInvalidateAll, .vc0Resend] } : State).pending = .windowInvalidateAll :: [.vc0Resend] ∧
    (match step { up with pending := [.windowInvalidateAll, .vc0Resend] } with | .next t => t == { up with pending := [.vc0Resend] } | _ => false) = true := by
  decide +kernel

theorem test_reset_canonical : Safety.Inv State.reset := ⟨by unfold MemOk; decide +kernel, by unfold HostOk; decide +kernel⟩

theorem test_reset_cap : State.reset.get PLT_CAP_CAP_W 0 = 1800 ∧ State.reset.get HMR_TIDE_CFG_PERIOD_STEPS 0 = 2 := by decide +kernel

/-! ### Host interface -/

/-- Ring 3 runs with its producer at 5 and its consumer at 1, on port 0, which may send; the completion ring holds 2^4. -/
def ringS : State := ((((up.put HST_PORT_STATUS_BME 0 1).put HST_RING_CFG_SQ_LOG2 3 6).put HST_RING_CFG_CQ_LOG2 3 4).put HST_SQ_BASE_BASE 3 2).putRing 3
  { st := .running, enabled := true, prod := 5, cons := 1, next := 1 }
def ringR : State := ringS.putRing 3 { ringS.ring 3 with reads := [(1, 4)], next := 5, reserved := 8 }
def frozenS : State := ringS.putRing 3 { ringS.ring 3 with st := .frozen }
def coalS : State := { ((ringS.put HST_RING_CFG_COALESCE_US 3 5).put HST_RING_CFG_IRQ_EN 3 1).putRing 3 { ringS.ring 3 with unsignalled := 2 } with
  msix := [(3, 0)] }
def evtS : State := (((((up.put HST_PORT_STATUS_BME 0 1).put HST_EVT_CTL_ENABLE 0 1).put HST_EVT_CTL_STOPPED 0 0).put HST_EVT_CFG_LOG2 0 6).put HST_EVT_BASE_BASE 0 3)

theorem test_sqProducer : HostUp ringS ∧ (ringS.ring 3).st = .running ∧ (65 + 2 ^ 32 - (ringS.ring 3).cons) % 2 ^ 32 ≤ 2 ^ ringS.get HST_RING_CFG_SQ_LOG2 3 ∧
      goes (.sqProducer 3 65) ringS (fun t => t == ringS.putRing 3 { ringS.ring 3 with prod := 65 }) = true := by unfold HostUp; decide +kernel

theorem test_cqConsumer : HostUp ringS ∧ (ringS.ring 3).st = .running ∧ goes (.cqConsumer 3 0) ringS (fun t => t == ringS) = true := by
      unfold HostUp; decide +kernel

theorem test_cqConsumer_range : HostUp ringS ∧ goes (.cqConsumer 3 1) ringS (fun t => (t.ring 3).st == .frozen &&
      t.get HST_RING_STATUS_FREEZE_CAUSE 3 == 2) = true := by unfold HostUp; decide +kernel

theorem test_sqProducer_cases :
    (HostUp ringS ∧ goes (.sqProducer 3 66) ringS (fun t => (t.ring 3).st == .frozen && t.get HST_RING_STATUS_FREEZE_CAUSE 3 == 1 &&
      t.get HMR_SCHED_EVENTS_FREEZES 0 == 1) = true) ∧
    (HostUp up ∧ (up.ring 9).st ≠ .running ∧ goes (.sqProducer 9 1) up (fun t => t == up.inc HST_DB_STATUS_BAD_WRITES 0 1) = true) :=
    ⟨by unfold HostUp; decide +kernel, by unfold HostUp; decide +kernel⟩

theorem test_eventRingConsumer : HostUp evtS ∧ evtS.evt.queue = [] ∧ goes (.eventRingConsumer 0) evtS (fun t => t == evtS) = true := by
      unfold HostUp; decide +kernel

theorem test_eventRingConsumer_bad : HostUp evtS ∧ goes (.eventRingConsumer 1) evtS (fun t => t == evtS.put HST_EVT_STATUS_OVERFLOW 0 1) = true := by
      unfold HostUp; decide +kernel

theorem test_bar2BadWrite : HostUp up ∧ ¬ (4 = 4 ∧ 6 % 4 = 0) ∧ goes (.bar2BadWrite 6 4) up (fun t => t.get HST_DB_STATUS_BAD_WRITES 0 == 1) = true := by
      unfold HostUp; decide +kernel

theorem test_ringEnable : HostUp up ∧ (up.ring 0).st = .stopped ∧ ¬ (up.get CUS_STATUS_IDE_REQUIRED 0 ≠ 0 ∧
      up.get HST_PORT_STATUS_IDE_SECURE (up.get HST_RING_CFG_PORT 0) = 0) ∧ goes (.ringEnable 0) up (fun t => (t.ring 0).st == .running &&
      t.get HST_RING_CTL_ENABLE 0 == 1) = true := by unfold HostUp; decide +kernel

theorem test_ringEnable_ide : HostUp (up.put CUS_STATUS_IDE_REQUIRED 0 1) ∧ (up.put CUS_STATUS_IDE_REQUIRED 0 1).get CUS_STATUS_IDE_REQUIRED 0 ≠ 0 ∧
      (up.put CUS_STATUS_IDE_REQUIRED 0 1).get HST_PORT_STATUS_IDE_SECURE ((up.put CUS_STATUS_IDE_REQUIRED 0 1).get HST_RING_CFG_PORT 0) = 0 ∧
      goes (.ringEnable 0) (up.put CUS_STATUS_IDE_REQUIRED 0 1) (fun t => (t.ring 0).st == .stopped && t.get HST_RING_STATUS_IDE_BLOCKED 0 == 1) = true := by
      unfold HostUp; decide +kernel

theorem test_ringDisable : HostUp ringS ∧ (ringS.ring 3).st = .running ∧ goes (.ringDisable 3) ringS (fun t => (t.ring 3).st == .stopping &&
      (t.ring 3).prod == 5) = true := by unfold HostUp; decide +kernel

theorem test_ringStopped : (ringS.putRing 3 { ringS.ring 3 with st := .stopping }).ringQuiet 3 = true ∧ ((ringS.putRing 3 { ringS.ring 3 with
      st := .stopping }).ring 3).st = .stopping ∧ goes (.ringStopped 3) (ringS.putRing 3 { ringS.ring 3 with
      st := .stopping }) (fun t => (t.ring 3).st == .stopped && (t.ring 3).prod == 0) = true := by decide +kernel

theorem test_freezeResetRing : HostUp frozenS ∧ (frozenS.ring 3).st = .frozen ∧ frozenS.ringQuiet 3 = true ∧
      goes (.freezeResetRing 3) frozenS (fun t => t.ring 3 == {} && t.get HST_RING_CTL_ENABLE 3 == 0) = true := by unfold HostUp; decide +kernel

theorem test_freezeResetRing_waits : HostUp (ringR.putRing 3 { ringR.ring 3 with st := .frozen }) ∧ ((ringR.putRing 3 { ringR.ring 3 with
      st := .frozen }).ring 3).st = .frozen ∧ (ringR.putRing 3 { ringR.ring 3 with st := .frozen }).ringQuiet 3 = false ∧
      goes (.freezeResetRing 3) (ringR.putRing 3 { ringR.ring 3 with st := .frozen }) (fun t => t == (ringR.putRing 3 { ringR.ring 3 with
      st := .frozen }).put HST_RING_STATUS_RESET_PENDING 3 1) = true := by unfold HostUp; decide +kernel

theorem test_descriptorFetch : Live ringS ∧ (ringS.ring 3).st = .running ∧ ringS.portSends (ringS.get HST_RING_CFG_PORT 3) = true ∧ ringS.fetchTurn 3 = true ∧
      goes (.descriptorFetch 3) ringS (fun t => (t.ring 3).reads == [(1, 4)] && (t.ring 3).reserved == 8 && t.ringTurn == 4 &&
      t.out == [.descRead 3 1 4]) = true := by unfold Live; decide +kernel

def w_descriptorFetch_turn : State := { ringS.putRing 6 (ringS.ring 3) with flds := ((ringS.put HST_RING_CFG_SQ_LOG2 6 6).put HST_RING_CFG_CQ_LOG2 6 4).flds, ringTurn := 4 }

theorem test_descriptorFetch_turn : 2 < (3 + 256 - w_descriptorFetch_turn.ringTurn) % 256 ∧
      w_descriptorFetch_turn.canFetch ((w_descriptorFetch_turn.ringTurn + 2) % 256) = true ∧ w_descriptorFetch_turn.canFetch 3 = true ∧
      goes (.descriptorFetch 3) w_descriptorFetch_turn (fun t => t == w_descriptorFetch_turn) = true := by decide +kernel

theorem test_descriptorReadComplete : Live ringR ∧ (ringR.ring 3).reads = (1, 4) :: [] ∧ (ringR.ring 3).st ≠ .frozen ∧
      goes (.descriptorReadComplete 3 true) ringR (fun t => t.fetched.length == 4 && (t.ring 3).cons == 5) = true := by unfold Live; decide +kernel

theorem test_descriptorReadComplete_failed : Live ringR ∧ (ringR.ring 3).st ≠ .frozen ∧
      goes (.descriptorReadComplete 3 false) ringR (fun t => (t.ring 3).st == .frozen && t.get HST_RING_STATUS_FREEZE_CAUSE 3 == 3 && t.fetched == []) = true := by
      unfold Live; decide +kernel

theorem test_eventRingEnable : HostUp up ∧ up.get HST_EVT_CTL_ENABLE 0 = 0 ∧ up.evt.queue = [] ∧
      goes (.eventRingEnable) up (fun t => t.get HST_EVT_CTL_ENABLE 0 == 1 && t.get HST_EVT_CTL_STOPPED 0 == 0) = true := by unfold HostUp; decide +kernel

theorem test_eventRingDisable : HostUp evtS ∧ goes (.eventRingDisable) evtS (fun t => t.get HST_EVT_CTL_ENABLE 0 == 0 &&
      t.get HST_EVT_CTL_STOPPED 0 == 1) = true := by unfold HostUp; decide +kernel

theorem test_eventRecordWrite : evtS.evtRoom = true ∧ evtS.evt.queue = [] ∧ goes (.eventRecordWrite [0x10, 2]) evtS (fun t => t.evt.prod == 1 &&
      t.hostByte 0x3000 == 0x90) = true := by decide +kernel

def w_eventRecordWrite_lost : State := { up with evt := { up.evt with queue := List.replicate 256 [] } }

theorem test_eventRecordWrite_cases :
    (up.evtRoom = false ∧ up.evt.queue.length < 256 ∧ goes (.eventRecordWrite [0x10, 2]) up (fun t => t.evt.queue.length == 1 && t.host == []) = true) ∧
    (w_eventRecordWrite_lost.evtRoom = false ∧ 256 ≤ w_eventRecordWrite_lost.evt.queue.length ∧
      goes (.eventRecordWrite [0x10, 2]) w_eventRecordWrite_lost (fun t => t.evt == w_eventRecordWrite_lost.evt && t.get HST_EVT_STATUS_LOST 0 == 1 &&
      t.get HST_EVT_STATUS_OVERFLOW 0 == 1) = true) :=
    ⟨by decide +kernel, by decide +kernel⟩

theorem test_interruptCoalesceTimeout : 0 < (coalS.ring 3).unsignalled ∧ coalS.get HST_RING_CFG_COALESCE_US 3 ≠ 0 ∧ coalS.get HST_RING_CFG_IRQ_EN 3 ≠ 0 ∧
      coalS.masked 0 0 = false ∧ coalS.portSends 0 = true ∧ goes (.interruptCoalesceTimeout 3) coalS (fun t => t.out == [.irq 0 0] &&
      (t.ring 3).unsignalled == 0) = true := by decide +kernel

theorem test_msixUnmask : HostUp ({ evtS with msixPend := [(5, true)] } : State) ∧ ({ evtS with msixPend := [(5, true)] } : State).portSends 0 = true ∧
      Tab.get (fun _ => false) ({ evtS with msixPend := [(5, true)] } : State).msixPend (0 * 512 + 5) = true ∧ goes (.msixUnmask 0 5) ({ evtS with
      msixPend := [(5, true)] } : State) (fun t => t.out == [.irq 0 5] && t.masked 0 5 == false && t.msixPend == []) = true := by unfold HostUp; decide +kernel

theorem test_busMasterEnableChange : 0 < 2 ∧ goes (.busMasterEnableChange 0 false) evtS (fun t => t == evtS.put HST_PORT_STATUS_BME 0 0) = true := by
      decide +kernel

theorem test_ideLeavesSecure : (ringS.put HST_PORT_STATUS_IDE_SECURE 0 1).get HST_PORT_STATUS_IDE_SECURE 0 ≠ 0 ∧
      ((ringS.put HST_PORT_STATUS_IDE_SECURE 0 1).ring 3).st = .running ∧
      goes (.ideLeavesSecure 0) (ringS.put HST_PORT_STATUS_IDE_SECURE 0 1) (fun t => (t.ring 3).st == .frozen && t.get HST_RING_STATUS_FREEZE_CAUSE 3 == 5 &&
      t.portSends 0 == false) = true := by decide +kernel

def w_windowInvalidate : State := { up with winCache := [(1, ⟨4, 0, 7, true⟩), (2, ⟨5, 0, 8, true⟩)] }

theorem test_windowInvalidate : HostUp w_windowInvalidate ∧ goes (.windowInvalidate 4) w_windowInvalidate (fun t => t.winCache.length == 1) = true := by
      unfold HostUp; decide +kernel

theorem test_windowInvalidateAll : HostUp ({ up with winCache := [(1, ⟨4, 0, 7, true⟩)] } : State) ∧ goes (.windowInvalidateAll) ({ up with
      winCache := [(1, ⟨4, 0, 7, true⟩)] } : State) (fun t => t == { ({ up with winCache := [(1, ⟨4, 0, 7, true⟩)] } : State) with winCache := [] }) = true := by
      unfold HostUp; decide +kernel

theorem test_apertureMove : HostUp up ∧ goes (.apertureMove 1 0x4000) up (fun t => t.get HST_APERTURE_BASE 1 == 0x4000 &&
      t.get HST_APERTURE_BASE 0 == 0) = true := by unfold HostUp; decide +kernel

theorem test_apertureWrite : HostUp up ∧ up.veiled = [] ∧ up.firstBad (0x1000) 3 = none ∧ 0x1000 % 256 + 3 ≤ 256 ∧ up.setOf 0x1000 = some 0 ∧
      up.setStopped 0 = false ∧ up.setLost 0 = false ∧
      goes (.apertureWrite 0 0x1000 [1, 2, 3]) up (fun t => t.mem == [(0x1000, 1), (0x1001, 2), (0x1002, 3)]) = true := by unfold HostUp; decide +kernel

theorem test_apertureRead : HostUp ({ up with mem := [(0x10FF, 9)] } : State) ∧ goes (.apertureRead 0 0x10FE 2) ({ up with
      mem := [(0x10FF, 9)] } : State) (fun t => t.out == [.data 0 [0, 9]] && t.mem == ({ up with mem := [(0x10FF, 9)] } : State).mem) = true := by
      unfold HostUp; decide +kernel

theorem test_apertureRead_bad : HostUp (up.put HST_APERTURE_BASE 0 0x5000) ∧
      (up.put HST_APERTURE_BASE 0 0x5000).apertureOk false (2 ^ 32 * (up.put HST_APERTURE_BASE 0 0x5000).get HST_APERTURE_BASE 0 + 0) 4 = false ∧
      goes (.apertureRead 0 0 4) (up.put HST_APERTURE_BASE 0 0x5000) (fun t => t.get HST_APERTURE_BAD_APERTURE_BAD 0 == 1 &&
      t.out == [.completerAbort 0]) = true := by unfold HostUp; decide +kernel

theorem test_bar0BadAccess : HostUp up ∧ (¬ ((2 = 4 ∨ 2 = 8) ∧ 6 % 2 = 0)) ∧ goes (.bar0BadAccess 0 6 2 true) up (fun t => t.out == [.allOnes 0]) = true := by
      unfold HostUp; decide +kernel

theorem test_apertureWrite_bad : HostUp (up.put HST_APERTURE_BASE 0 0x5000) ∧ 0 + 3 ≤ 2 ^ 32 ∧
      (up.put HST_APERTURE_BASE 0 0x5000).apertureOk true (2 ^ 32 * (up.put HST_APERTURE_BASE 0 0x5000).get HST_APERTURE_BASE 0 + 0) 3 = false ∧
      goes (.apertureWrite 0 0 [1, 2, 3]) (up.put HST_APERTURE_BASE 0 0x5000) (fun t => t == (up.put HST_APERTURE_BASE 0 0x5000).inc HST_APERTURE_BAD_APERTURE_BAD 0 1) = true := by
      unfold HostUp; decide +kernel

theorem test_bar0BadAccess_write : HostUp up ∧ (¬ ((8 = 4 ∨ 8 = 8) ∧ 12 % 8 = 0)) ∧ goes (.bar0BadAccess 1 12 8 false) up (fun t => t == up) = true := by
      unfold HostUp; decide +kernel

/-! ### Registers -/

def rO : Nat := regOffset .HMR_TIDE_CFG 0

theorem test_registerWrite : HostUp up ∧ accessFits rO 4 = true ∧ up.reach rO = some (.HMR_TIDE_CFG, 0, false) ∧ (Reg.row .HMR_TIDE_CFG).readOnly = false ∧
      encodingOk .HMR_TIDE_CFG 4 = true ∧ up.ruleOk .HMR_TIDE_CFG 0 4 = true ∧ goes (.registerWrite 0 rO 4 4) up (fun t => t.get HMR_TIDE_CFG_PERIOD_STEPS 0 == 4 &&
      t == up.regEffect 0 .HMR_TIDE_CFG 0 4) = true := by unfold HostUp; decide +kernel

theorem test_registerRead_unmapped : HostUp up ∧ up.reach (rO - rO % 65536 + 65528) = none ∧
      goes (.registerRead 0 (rO - rO % 65536 + 65528) 4) up (fun t => t == up.send (.value 0 0)) = true := by unfold HostUp; decide +kernel

theorem test_registerWrite_cases :
    (HostUp (up.put HST_SETUP_LOCK_SETUP_LOCK 0 1) ∧ (Reg.row .HMR_TIDE_CFG).policy = true ∧
      (up.put HST_SETUP_LOCK_SETUP_LOCK 0 1).get HST_SETUP_LOCK_SETUP_LOCK 0 ≠ 0 ∧
      goes (.registerWrite 1 rO 4 4) (up.put HST_SETUP_LOCK_SETUP_LOCK 0 1) (fun t => t.get HST_SETUP_LAST_VALID 0 == 1 && t.get HST_SETUP_LAST_CAUSE 0 == 1 &&
      t.get HMR_TIDE_CFG_PERIOD_STEPS 0 == 2) = true) ∧
    (HostUp tide ∧ tide.functionStopped .HMR_TIDE_CFG 0 = false ∧ goes (.registerWrite 1 rO 4 4) tide (fun t => t.get HST_SETUP_LAST_CAUSE 0 == 2 &&
      t.get HST_SETUP_LAST_SOURCE 0 == 1) = true) ∧
    (HostUp up ∧ encodingOk .HMR_TIDE_CFG 9 = false ∧
      goes (.registerWrite 0 rO 4 9) up (fun t => t == up.discard 0 3 (Reg.row .HMR_TIDE_CFG).block (Reg.row .HMR_TIDE_CFG).off) = true) ∧
    (HostUp up ∧ up.reach (regOffset .HMR_CLASS_SHARE 0) = some (.HMR_CLASS_SHARE, 0, false) ∧ encodingOk .HMR_CLASS_SHARE 0x20202020 = true ∧
      up.ruleOk .HMR_CLASS_SHARE 0 0x20202020 = false ∧
      goes (.registerWrite 0 (regOffset .HMR_CLASS_SHARE 0) 4 0x20202020) up (fun t => t.get HST_SETUP_LAST_CAUSE 0 == 4) = true) ∧
    (HostUp up ∧ accessFits (rO - rO % 65536 + 65528) 4 = true ∧ up.reach (rO - rO % 65536 + 65528) = none ∧ (blockOf (rO - rO % 65536 + 65528)).isSome = true ∧
      goes (.registerWrite 0 (rO - rO % 65536 + 65528) 4 9) up (fun t => t.get HST_SETUP_LAST_CAUSE 0 == 5) = true) ∧
    (HostUp up ∧ up.reach (regOffset .HST_EVT_BASE 0) = some (.HST_EVT_BASE, 0, false) ∧ (Reg.row .HST_EVT_BASE).width ≠ 32 ∧
      goes (.registerWrite 1 (regOffset .HST_EVT_BASE 0) 4 7) up (fun t => t == { up with latchW := [(halfKey 1 (regOffset .HST_EVT_BASE 0), 7)] }) = true) :=
    ⟨by unfold HostUp; decide +kernel, by unfold HostUp; decide +kernel, by unfold HostUp; decide +kernel, by unfold HostUp; decide +kernel,
     by unfold HostUp; decide +kernel, by unfold HostUp; decide +kernel⟩

def w_registerRead_high : State := { up with latchR := [(halfKey 0 (regOffset .HMR_TIDE_COUNT 0), 3)] }

theorem test_setupLock_again : HostUp (up.put HST_SETUP_LOCK_SETUP_LOCK 0 1) ∧ (up.put HST_SETUP_LOCK_SETUP_LOCK 0 1).get HST_SETUP_LOCK_SETUP_LOCK 0 ≠ 0 ∧
      goes (.setupLock 1) (up.put HST_SETUP_LOCK_SETUP_LOCK 0 1) (fun t => t == (up.put HST_SETUP_LOCK_SETUP_LOCK 0 1)) = true := by unfold HostUp; decide +kernel

theorem test_registerRead_cases :
    (HostUp (up.put HMR_TIDE_COUNT_TIDE 0 (2 ^ 32 * 3 + 5)) ∧
      (up.put HMR_TIDE_COUNT_TIDE 0 (2 ^ 32 * 3 + 5)).reach (regOffset .HMR_TIDE_COUNT 0) = some (.HMR_TIDE_COUNT, 0, false) ∧ (Reg.row .HMR_TIDE_COUNT).width ≠ 32 ∧
      goes (.registerRead 0 (regOffset .HMR_TIDE_COUNT 0) 4) (up.put HMR_TIDE_COUNT_TIDE 0 (2 ^ 32 * 3 + 5)) (fun t => t.out == [.value 0 5] &&
      t.latchR.map (·.2) == [3]) = true) ∧
    (HostUp w_registerRead_high ∧ w_registerRead_high.reach (regOffset .HMR_TIDE_COUNT 0 + 4) = some (.HMR_TIDE_COUNT, 0, true) ∧
      goes (.registerRead 0 (regOffset .HMR_TIDE_COUNT 0 + 4) 4) w_registerRead_high (fun t => t.out == [.value 0 3] && t.latchR == []) = true) ∧
    (HostUp (up.put HMR_TIDE_CFG_PERIOD_STEPS 0 5) ∧ accessFits rO 4 = true ∧ (up.put HMR_TIDE_CFG_PERIOD_STEPS 0 5).reach rO = some (.HMR_TIDE_CFG, 0, false) ∧
      (Reg.row .HMR_TIDE_CFG).width = 32 ∧ goes (.registerRead 1 rO 4) (up.put HMR_TIDE_CFG_PERIOD_STEPS 0 5) (fun t => t.out == [.value 1 5]) = true) :=
    ⟨by unfold HostUp; decide +kernel, by unfold HostUp; decide +kernel, by unfold HostUp; decide +kernel⟩

theorem test_setupLock : HostUp up ∧ up.get HST_SETUP_LOCK_SETUP_LOCK 0 = 0 ∧
      goes (.setupLock 0) up (fun t => t.get HST_SETUP_LOCK_SETUP_LOCK 0 == 1) = true := by unfold HostUp; decide +kernel

/-! ### Manifests -/

/-- The instruction that stream n is at, as a check; it says what the statements assume of it. -/
def atInsn (s : State) (n : Nat) (i : MInsn) : Bool :=
  s.live && (s.stream n).st == .running && (s.stream n).wait == .none && (((s.stream n).code[(s.stream n).pos.pc]?).bind decodeInsn) == some i

theorem atInsn_holds {s : State} {n : Nat} {i : MInsn} (h : atInsn s n i = true) : AtInsn s n i := by
  unfold atInsn at h
  simp only [Bool.and_eq_true, beq_iff_eq, Option.bind_eq_some_iff] at h
  obtain ⟨⟨⟨hl, hs⟩, hw⟩, w, hc, hd⟩ := h
  refine ⟨?_, hs, hw, w, hc, hd⟩
  unfold Live
  unfold State.live at hl
  simpa [State.flag, and_assoc] using hl

/-- Stream 5 runs the one instruction w, then END, from warehouse memory to HBM, at byte 0x1000 of its source and 0x2000 of its destination. -/
def running (w : Nat) : State := tide.putStream 5 {
  st := .running, dstKind := 1, tileMax := 3, cls := 1, code := [w, 0], pos := { src := 0x10F0, dst := 0x2000, idx := 0x3000 } }

theorem test_insn_loop : decodeInsn 0x0000000000200301 = some (.loop 3 32) ∧ decodeInsn 0x0000000000040101 = some (.loop 1 4) ∧ decodeInsn 0x11 = none := by
      decide +kernel

theorem test_loop : atInsn (running 197121) 5 (.loop 2 3) = true ∧
      goes (.loop 5) (running 197121) (fun t => (t.stream 5).pos == { ((running 197121).stream 5).pos with pc := 1, loops := [⟨1, 2, 3⟩] }) = true := by
      decide +kernel

theorem test_stride : atInsn (running 18446744073708503042) 5 (.stride 0 false 0xFFFFFFFFFFF0) = true ∧
      goes (.stride 5) (running 18446744073708503042) (fun t => (t.stream 5).pos == { ((running 18446744073708503042).stream 5).pos with
      pc := 1, src := 0x10E0 }) = true := by decide +kernel

theorem test_stride_set : atInsn (running 18446744073709486178) 5 (.stride 2 true 0xFFFFFFFFFFFF) = true ∧
      goes (.stride 5) (running 18446744073709486178) (fun t => (t.stream 5).pos == { ((running 18446744073709486178).stream 5).pos with
      pc := 1, idx := 0xFFFFFFFFFFFF }) = true := by decide +kernel

theorem test_align : atInsn (running 2053) 5 (.align 0 8) = true ∧
      goes (.align 5) (running 2053) (fun t => (t.stream 5).pos == { ((running 2053).stream 5).pos with pc := 1, src := 0x1100 }) = true := by decide +kernel

theorem test_manifestEnd : atInsn (running 0) 5 (.fin) = true ∧ goes (.manifestEnd 5) (running 0) (fun t => (t.stream 5).st == .draining &&
      (t.stream 5).ended) = true := by decide +kernel

theorem test_emit : atInsn (running 12307) 5 (.emit true false 0x30) = true ∧ (running 12307).pastMooring ((running 12307).stream 5) (0x2000 + 0x30) = false ∧
      ((running 12307).stream 5).pos.tileBytes + 0x30 ≤ 1024 * (((running 12307).stream 5).tileMax + 1) ∧ 0x2000 + 0x30 < 2 ^ 48 ∧
      goes (.emit 5) (running 12307) (fun t => (t.stream 5).units.map (fun u => (u.src, u.dst, u.len)) == [(0x10F0, 0x2000, 16), (0x1100, 0x2010, 32)] &&
      (t.stream 5).pos.tile == 1 && (t.stream 5).pos.src == 0x1120) = true := by decide +kernel

def w_gather : State := { running 1688849893822468 with mem := [(0x3000, 2), (0x3004, 1)] }

theorem test_gather : atInsn w_gather 5 (.gather false false 16 2 6) = true ∧
      (∀ i, i < 2 → w_gather.pastMooring (w_gather.stream 5) (0x2000 + 16 * (i + 1)) = false) ∧ (w_gather.stream 5).skipTo ≤ (w_gather.stream 5).pos.tile ∧
      0 + 16 * 2 ≤ 1024 * ((w_gather.stream 5).tileMax + 1) ∧
      goes (.gather 5) w_gather (fun t => (t.stream 5).units.map (fun u => (u.src, u.dst, u.len)) == [(0x1170, 0x2000, 16), (0x1130, 0x2010, 16)] &&
      (t.stream 5).pos.idx == 0x3008 && (t.stream 5).pos.src == 0x10F0) = true := by decide +kernel

theorem test_waitslotSlot : atInsn (running 262150) 5 (.waitSlot 4) = true ∧ ((running 262150).stream 5).units = [] ∧
      goes (.waitslotSlot 5) (running 262150) (fun t => (t.stream 5).st == .running && (t.stream 5).pos.pc == 1) = true := by decide +kernel

/-- The same with bits 4 to 6 of the warehouse word at offset 0x2000 set; way 0 of die 0 takes every class. -/
def barS (w v : Nat) : State := { running w with mem := [(0x400000002000, BitVec.ofNat 8 v)] }

theorem test_waitslotBarrier : atInsn (barS 4611686018964267286 0x70) 5 (.waitBar 4 3 0x400000002000) = true ∧
      goes (.waitslotBarrier 5) (barS 4611686018964267286 0x70) (fun t => (t.stream 5).st == .running && (t.stream 5).pos.pc == 1) = true := by decide +kernel

theorem test_waitslotBarrier_held : atInsn (barS 4611686018964267286 0x30) 5 (.waitBar 4 3 0x400000002000) = true ∧
      goes (.waitslotBarrier 5) (barS 4611686018964267286 0x30) (fun t => (t.stream 5).st == .waiting && (t.stream 5).wait == .barrier &&
      (t.stream 5).pos.pc == 0) = true := by decide +kernel

def w_waitslotReread : State := (barS 4611686018964267286 0xF0).putStream 5 { (barS 4611686018964267286 0xF0).stream 5 with st := .waiting, wait := .barrier }

theorem test_waitslotReread : Live w_waitslotReread ∧ (w_waitslotReread.stream 5).st = .waiting ∧ (w_waitslotReread.stream 5).wait = .barrier ∧
      goes (.waitslotReread 5) w_waitslotReread (fun t => (t.stream 5).st == .running && (t.stream 5).wait == .none && (t.stream 5).pos.pc == 1) = true := by
      unfold Live; decide +kernel

theorem test_signal : atInsn (barS 4611686018964259831 0x30) 5 (.signal 63 0x400000002000) = true ∧ ((barS 4611686018964259831 0x30).stream 5).units = [] ∧
      (barS 4611686018964259831 0x30).wayStopped 0 0 = false ∧ (barS 4611686018964259831 0x30).wayUse 0 0 = 0 ∧
      bit ((barS 4611686018964259831 0x30).wayClasses 0 0) 1 = true ∧ (barS 4611686018964259831 0x30).firstBad 0x400000002000 8 = none ∧
      goes (.signal 5) (barS 4611686018964259831 0x30) (fun t => t.mem == [(0x400000002000, 0x30), (0x400000002007, 0x80)] && (t.stream 5).pos.pc == 1) = true := by
      decide +kernel

/-- The same for a mooring at slot 8 of kiln 4's fore half, whose fourth slot is ready; and with one unit queued. -/
def moorS (w : Nat) : State := { (running w).putStream 5 { (running w).stream 5 with dstKind := 0, pos := {}, rcv := [⟨4, 1, false, 8, 0, true, 0, [], 0⟩] } with
  ready := [(readyKey 4 false 11, true)] }
def oneUnit : SUnit := { st := .queued, src := 0x1000, dst := 0x2000, len := 256, tile := 0, last := true, pos := {}, start := {}, seq := 3, data := [], xfer := 3 }
def busyS (w : Nat) : State := (running w).putStream 5 { (running w).stream 5 with units := [oneUnit], rcv := [⟨0, 0, false, 0, 0, true, 0, [], 0⟩] }

def w_waitslotSlot_again : State := (busyS 262150).putStream 5 { (busyS 262150).stream 5 with st := .waiting, wait := .slots }

theorem test_waitslotSlot_cases :
    (atInsn (moorS 196614) 5 (.waitSlot 3) = true ∧ ((moorS 196614).stream 5).dstKind = 0 ∧
      (∀ q ∈ ((moorS 196614).stream 5).rcv, ∀ i, i < 3 → (moorS 196614).isReady q.kiln q.half (q.base + ((moorS 196614).stream 5).pos.dst.toNat / 4096 + i) = false) ∧
      goes (.waitslotSlot 5) (moorS 196614) (fun t => (t.stream 5).st == .running && (t.stream 5).pos.pc == 1) = true) ∧
    (atInsn (moorS 262150) 5 (.waitSlot 4) = true ∧ (moorS 262150).isReady 4 false (8 + 0 / 4096 + 3) = true ∧
      goes (.waitslotSlot 5) (moorS 262150) (fun t => (t.stream 5).st == .waiting && (t.stream 5).wait == .slots && (t.stream 5).pos.pc == 0) = true) ∧
    (Live w_waitslotSlot_again ∧ (w_waitslotSlot_again.stream 5).st = .waiting ∧
      (((w_waitslotSlot_again.stream 5).code[(w_waitslotSlot_again.stream 5).pos.pc]?).bind decodeInsn) = some (.waitSlot 4) ∧
      goes (.waitslotSlot 5) w_waitslotSlot_again (fun t => t == w_waitslotSlot_again) = true) :=
    ⟨by decide +kernel, by decide +kernel, by unfold Live; decide +kernel⟩

theorem test_signal_held : atInsn (busyS 4611686018964259831) 5 (.signal 63 0x400000002000) = true ∧
      (∃ u ∈ ((busyS 4611686018964259831).stream 5).units, ∃ q ∈ ((busyS 4611686018964259831).stream 5).rcv, q.needs u = true) ∧
      goes (.signal 5) (busyS 4611686018964259831) (fun t => t == (busyS 4611686018964259831)) = true := by decide +kernel

theorem test_loop_cases :
    (atInsn (running 257) 5 (.loop 1 0) = true ∧ goes (.loop 5) (running 257) (fun t => (t.stream 5).pos == { ((running 257).stream 5).pos with pc := 2 }) = true) ∧
    (atInsn (running 513) 5 (.loop 2 0) = true ∧ goes (.loop 5) (running 513) (fun t => (t.stream 5).pos.pc == 3) = true) :=
    ⟨by decide +kernel, by decide +kernel⟩

/-! ### Streams -/

/-- A device of 80 kilns, 16 cranes and 32 stevedores a die, in a tide. -/
def sized : State := (((((tide.put HST_SIZE_COMPUTE_KILNS_PORT 0 80).put HST_SIZE_COMPUTE_KILNS_STBD 0 80).put HST_SIZE_COMPUTE_CRANES_PORT 0 16).put
  HST_SIZE_COMPUTE_CRANES_STBD 0 16).put HST_SIZE_COMPUTE_STEVEDORES_PORT 0 32).put HST_SIZE_COMPUTE_STEVEDORES_STBD 0 32

/-- A job of ring 3 with one dispatched unit, whose task is placed at slot 1 of kiln 4. -/
def unit0 : UnitRun := ⟨0, 0, false, 0, false, 0x20000, 256, 2, 1, 0, 100, 10, true, [.placed 4 1], [], [], []⟩
def job0 : Job := { id := 1, ring := 3, sq := 9, jobRef := 0x77, kind := .run, noIrq := false, cls := 1, model := 7, version := 0, lane := 0,
                    variant := some 0, locality := 0, candidates := 2, indices := 0, admitTide := 99, deadline := 120, rank := 0, stamps := [],
                    sections := [], lookupsDone := true, hist := none, units := [unit0], left := {}, clip := 0, total := 0, badIndex := false,
                    notAppended := false, retried := false, kilnRestarted := none, scored := false, cons := none, slots := 2, denseTides := 5,
                    unitsDone := false }
def jobS : State := { (sized.putModel 7 { image := 0x10000, bindOff := 0x100, st := .resident }) with jobs := [job0], nextJob := 2 }

/-- The binding's 64 bytes: manifest at 0x3000, to memory, class 1, TILE_MAX 3, DRAIN 5, source 0x10F0, destination 0x2000. -/
def bind0 : Nat := 0x30 + 2 ^ 40 + 2 ^ 43 + 3 * 2 ^ 48 + 5 * 2 ^ 52 + 2 ^ 64 * 0x10F0 + 2 ^ 128 * 0x2000
def bindS : State := (jobS.poke 0x10100 (leBytes 64 bind0)).poke 0x3000 (leBytes 8 0x130 ++ leBytes 8 0)

theorem test_streamStart : Live (bindS.poke 0x3000 (leBytes 8 0x3003)) ∧ (bindS.poke 0x3000 (leBytes 8 0x3003)).stevedoreOk 0 = true ∧
      ((bindS.poke 0x3000 (leBytes 8 0x3003)).stream 5).st = .free ∧ (bindS.poke 0x3000 (leBytes 8 0x3003)).job 1 = some job0 ∧
      (bindS.poke 0x3000 (leBytes 8 0x3003)).modelWhole 7 = true ∧ unit0.dispatched = true ∧ 0 < unit0.binds ∧ (job0.placed 0 0).isSome = true ∧
      unit0.started.contains (0, 0) = false ∧ bindingOk (leBytes 64 bind0) (4096 * 2) = true ∧ (bindingOf (leBytes 64 bind0)).multicast = false ∧
      manifestOk [0x3003, 0] = true ∧ goes (.streamStart 5 1 0 0 0) (bindS.poke 0x3000 (leBytes 8 0x3003)) (fun t => (t.stream 5).st == .reserving &&
      (t.stream 5).code == [0x3003, 0] && (t.stream 5).pos == { src := 0x10F0, dst := 0x2000 } && (t.stream 5).rcv == [⟨4, 1, false, 0, 0, true, 0, [], 0⟩] &&
      (t.stream 5).tileMax == 3 && t.jobs.map (fun j => j.units.map (·.started)) == [[[(0, 0)]]]) = true := by unfold Live; decide +kernel

def w_streamStart_miss : State := (bindS.put HST_PORT_STATUS_BME 0 1).putModel 7 { image := 0x800000000000, bindOff := 0x100, st := .resident }

theorem test_streamStart_cases :
    (Live (jobS.poke 0x10100 (leBytes 64 (bind0 + 2 ^ 47))) ∧ (jobS.poke 0x10100 (leBytes 64 (bind0 + 2 ^ 47))).stevedoreOk 0 = true ∧
      ((jobS.poke 0x10100 (leBytes 64 (bind0 + 2 ^ 47))).stream 5).st = .free ∧ (jobS.poke 0x10100 (leBytes 64 (bind0 + 2 ^ 47))).job 1 = some job0 ∧
      (jobS.poke 0x10100 (leBytes 64 (bind0 + 2 ^ 47))).modelWhole 7 = true ∧ unit0.dispatched = true ∧ 0 < unit0.binds ∧ (job0.placed 0 0).isSome = true ∧
      unit0.started.contains (0, 0) = false ∧ bindingOk (leBytes 64 (bind0 + 2 ^ 47)) (4096 * 2) = false ∧
      goes (.streamStart 5 1 0 0 0) (jobS.poke 0x10100 (leBytes 64 (bind0 + 2 ^ 47))) (fun t => t.jobs == [] && (t.stream 5).st == .free) = true) ∧
    (Live (bindS.poke 0x3000 (leBytes 8 0x8)) ∧ (bindS.poke 0x3000 (leBytes 8 0x8)).stevedoreOk 0 = true ∧
      ((bindS.poke 0x3000 (leBytes 8 0x8)).stream 5).st = .free ∧ (bindS.poke 0x3000 (leBytes 8 0x8)).job 1 = some job0 ∧
      (bindS.poke 0x3000 (leBytes 8 0x8)).modelWhole 7 = true ∧ unit0.dispatched = true ∧ 0 < unit0.binds ∧ (job0.placed 0 0).isSome = true ∧
      unit0.started.contains (0, 0) = false ∧ manifestOk [0x8, 0] = false ∧
      goes (.streamStart 5 1 0 0 0) (bindS.poke 0x3000 (leBytes 8 0x8)) (fun t => t.jobs == [] && (t.stream 5).st == .free) = true) ∧
    (Live w_streamStart_miss ∧ w_streamStart_miss.stevedoreOk 0 = true ∧ (w_streamStart_miss.stream 5).st = .free ∧ w_streamStart_miss.job 1 = some job0 ∧
      w_streamStart_miss.modelWhole 7 = true ∧ unit0.dispatched = true ∧ 0 < unit0.binds ∧ (job0.placed 0 0).isSome = true ∧ unit0.started.contains (0, 0) = false ∧
      (match w_streamStart_miss.read {} 0x800000000100 64 with | .error e => e.reason | .ok _ => none) = some 1 ∧
      goes (.streamStart 5 1 0 0 0) w_streamStart_miss (fun t => (t.stream 5).st == .halted && (t.stream 5).reason == 1 && (t.stream 5).fresh &&
      (t.stream 5).gen == 1 && t.jobs.length == 1 && (t.out != w_streamStart_miss.out || t.evt.queue.length == 1)) = true) :=
    ⟨by unfold Live; decide +kernel, by unfold Live; decide +kernel, by unfold Live; decide +kernel⟩

theorem test_reservationTake : Live (sized.putStream 5 { st := .reserving, dstKind := 1, tileMax := 3 }) ∧
      ((sized.putStream 5 { st := .reserving, dstKind := 1, tileMax := 3 }).stream 5).st = .reserving ∧
      ((sized.putStream 5 { st := .reserving, dstKind := 1, tileMax := 3 }).poolsNeeded 5 ((sized.putStream 5 { st := .reserving, dstKind := 1, tileMax := 3 }).stream 5))[0]? = some 0 ∧
      ((sized.putStream 5 { st := .reserving, dstKind := 1, tileMax := 3 }).poolsNeeded 5 ((sized.putStream 5 { st := .reserving, dstKind := 1, tileMax := 3 }).stream 5)).length = 1 ∧
      (sized.putStream 5 { st := .reserving, dstKind := 1, tileMax := 3 }).poolUsed 0 + ((sized.putStream 5 { st := .reserving, dstKind := 1, tileMax := 3 }).stream 5).granules ≤ 8192 ∧
      goes (.reservationTake 5) (sized.putStream 5 { st := .reserving, dstKind := 1, tileMax := 3 }) (fun t => (t.stream 5).st == .running &&
      (t.stream 5).pools == [0]) = true := by unfold Live; decide +kernel

def w_reservationTake_asks : State := sized.putStream 5 { st := .reserving, dstKind := 2, device := 9, tileMax := 2047 }

def w_reservationTake_full : State := (sized.putStream 5 { st := .reserving, tileMax := 3 }).putStream 6 { st := .running, tileMax := 2047, pools := [0] }

theorem test_reservationTake_cases :
    (Live w_reservationTake_asks ∧ (w_reservationTake_asks.stream 5).st = .reserving ∧
      (w_reservationTake_asks.poolsNeeded 5 (w_reservationTake_asks.stream 5))[0]? = some 0 ∧
      w_reservationTake_asks.poolUsed 0 + (w_reservationTake_asks.stream 5).granules = 8192 ∧ (w_reservationTake_asks.peer 9).frozen = false ∧
      goes (.reservationTake 5) w_reservationTake_asks (fun t => (t.stream 5).st == .reserving && (t.stream 5).pools == [0] && (t.stream 5).asked &&
      t.out == [.net 9 (classVc 0) (.reserve 0 5 8192)]) = true) ∧
    (Live w_reservationTake_full ∧ 8192 < w_reservationTake_full.poolUsed 0 + (w_reservationTake_full.stream 5).granules ∧
      goes (.reservationTake 5) w_reservationTake_full (fun t => t == w_reservationTake_full) = true) :=
    ⟨by unfold Live; decide +kernel, by unfold Live; decide +kernel⟩

/-- Stream 5 waits for its grant by device 9 while it holds its local pool. -/
def askS : State := sized.putStream 5 { st := .reserving, dstKind := 2, device := 9, pools := [0], asked := true }

theorem test_remoteReservationGrant_here : askS.hears askS.me = true ∧ (askS.stream 5).remote = false ∧
      (askS.stream 5).pools.length = (askS.poolsNeeded 5 (askS.stream 5)).length ∧
      goes (.remoteReservationGrant 3 sized.me 5 8) askS (fun t => t == askS.putStream 5 { askS.stream 5 with remote := true, st := .running }) = true := by
      decide +kernel

def w_remoteReservationGrant_late : State := askS.putStream 5 { askS.stream 5 with st := .aborted, asked := false }

def w_remoteReservationGrant_behind : State := { sized with remoteHolds := [⟨3, 9, 4, 8000⟩], remoteWaits := [⟨3, 9, 6, 400⟩] }

def w_remoteReservationGrant_next : State := { sized with remoteHolds := [⟨3, 9, 5, 8000⟩], remoteWaits := [⟨3, 9, 6, 8192⟩] }

def w_remoteReservationGrant_still : State := { sized with remoteHolds := [⟨3, 9, 5, 8⟩, ⟨3, 9, 4, 8000⟩], remoteWaits := [⟨3, 9, 6, 400⟩] }

theorem test_remoteReservationGrant_cases :
    (w_remoteReservationGrant_late.hears w_remoteReservationGrant_late.me = true ∧ (w_remoteReservationGrant_late.stream 5).remote = false ∧
      ¬ ((w_remoteReservationGrant_late.stream 5).st = .reserving ∧ (w_remoteReservationGrant_late.stream 5).asked = true) ∧
      (w_remoteReservationGrant_late.stream 5).dstKind = 2 ∧ (w_remoteReservationGrant_late.stream 5).st ≠ .free ∧
      (w_remoteReservationGrant_late.peer 9).frozen = false ∧
      goes (.remoteReservationGrant 3 sized.me 5 8) w_remoteReservationGrant_late (fun t => t == w_remoteReservationGrant_late.send (.net 9 (classVc 0) (.reserveRelease 0 5))) = true) ∧
    (sized.hears 9 = true ∧ 9 ≠ sized.me ∧ sized.remoteHolds ++ sized.remoteWaits = [] ∧ sized.poolUsed (3 + 2) + 8192 ≤ 8192 ∧
      goes (.remoteReservationGrant 3 9 5 8192) sized (fun t => t.remoteHolds == [⟨3, 9, 5, 8192⟩] && t.out == [.net 9 1 (.reserveGrant 5)]) = true) ∧
    (({ sized with remoteHolds := [⟨3, 9, 4, 8192⟩] } : State).hears 9 = true ∧ ({ sized with remoteHolds := [⟨3, 9, 4, 8192⟩] } : State).remoteWaits = [] ∧
      8192 < ({ sized with remoteHolds := [⟨3, 9, 4, 8192⟩] } : State).poolUsed (3 + 2) + 1 ∧ goes (.remoteReservationGrant 3 9 5 1) ({ sized with
      remoteHolds := [⟨3, 9, 4, 8192⟩] } : State) (fun t => t == { ({ sized with remoteHolds := [⟨3, 9, 4, 8192⟩] } : State) with
      remoteWaits := [⟨3, 9, 5, 1⟩] }) = true) ∧
    (w_remoteReservationGrant_behind.hears 9 = true ∧ w_remoteReservationGrant_behind.remoteWaits.find? (fun h => h.quay == 3) = some ⟨3, 9, 6, 400⟩ ∧
      8192 < w_remoteReservationGrant_behind.poolUsed (3 + 2) + 400 ∧
      goes (.remoteReservationGrant 3 9 5 1) w_remoteReservationGrant_behind (fun t => t == { w_remoteReservationGrant_behind with
      remoteWaits := [⟨3, 9, 6, 400⟩, ⟨3, 9, 5, 1⟩] }) = true) ∧
    (({ sized with remoteHolds := [⟨3, 9, 5, 64⟩, ⟨3, 9, 6, 64⟩] } : State).hears 9 = true ∧ 9 ≠ ({ sized with
      remoteHolds := [⟨3, 9, 5, 64⟩, ⟨3, 9, 6, 64⟩] } : State).me ∧ (∀ h ∈ ({ sized with
      remoteHolds := [⟨3, 9, 5, 64⟩, ⟨3, 9, 6, 64⟩] } : State).remoteWaits, h.quay ≠ 3) ∧ goes (.remoteReservationGrant 3 9 5 0) ({ sized with
      remoteHolds := [⟨3, 9, 5, 64⟩, ⟨3, 9, 6, 64⟩] } : State) (fun t => t == { ({ sized with remoteHolds := [⟨3, 9, 5, 64⟩, ⟨3, 9, 6, 64⟩] } : State) with
      remoteHolds := [⟨3, 9, 6, 64⟩] }) = true) ∧
    (w_remoteReservationGrant_next.hears 9 = true ∧ w_remoteReservationGrant_next.remoteWaits.find? (fun h => h.quay == 3) = some ⟨3, 9, 6, 8192⟩ ∧
      ({ w_remoteReservationGrant_next with remoteHolds := [] } : State).poolUsed (3 + 2) + 8192 ≤ 8192 ∧
      goes (.remoteReservationGrant 3 9 5 0) w_remoteReservationGrant_next (fun t => t.remoteHolds == [⟨3, 9, 6, 8192⟩] && t.remoteWaits == [] &&
      t.out == [.net 9 1 (.reserveGrant 6)]) = true) ∧
    (w_remoteReservationGrant_still.hears 9 = true ∧ w_remoteReservationGrant_still.remoteWaits.find? (fun h => h.quay == 3) = some ⟨3, 9, 6, 400⟩ ∧
      8192 < ({ w_remoteReservationGrant_still with remoteHolds := [⟨3, 9, 4, 8000⟩] } : State).poolUsed (3 + 2) + 400 ∧
      goes (.remoteReservationGrant 3 9 5 0) w_remoteReservationGrant_still (fun t => t == { w_remoteReservationGrant_still with
      remoteHolds := [⟨3, 9, 4, 8000⟩] }) = true) :=
    ⟨by decide +kernel, by decide +kernel, by decide +kernel, by decide +kernel, by decide +kernel, by decide +kernel, by decide +kernel⟩

/-- Stream 5 of kind 0 has written two slots of the mooring at slot 8 of kiln 4's fore half, and drains. -/
def drainS : State := (sized.putStream 5 { st := .draining, dstKind := 0, gen := 3, rcv := [⟨4, 1, false, 8, 0, true, 2, [(0, 0), (1, 1)], 2⟩] })
/-- A 256 B unit of a tile, in its place among the units. -/
def sunit (st : UnitState) (tile seq : Nat) : SUnit :=
  { st := st, src := 0x1000, dst := 0x2000, len := 256, tile := tile, last := true, pos := {}, start := {}, seq := seq, data := [], xfer := seq }
/-- A multicast to kilns 4 and 6, the first four tiles behind, with the second's next tile to be written. -/
def castS : State := (sized.putStream 5 { st := .running, multicast := true, dstKind := 0, grace := 1, units := [sunit .queued 4 9], rcv := [⟨4, 1, false, 8, 0, true, 0, [], 0⟩, ⟨6, 2, true, 0, 1, true, 4, [], 0⟩] })
/-- Stream 5 has a queued unit of 256 B from 0x1000 to 0x2000. -/
def unitS : State := sized.putStream 5 { st := .running, dstKind := 1, drain := 9, cls := 1, units := [sunit .queued 0 3], rcv := [⟨0, 0, false, 0, 0, true, 0, [], 0⟩] }
def inFlightS : State := unitS.putStream 5 { unitS.stream 5 with units := [{ sunit .inFlight 0 3 with len := 4 }] }

theorem test_streamEnd : Live drainS ∧ (drainS.stream 5).st = .draining ∧ (drainS.stream 5).units = [] ∧
      goes (.streamEnd 5) drainS (fun t => t.stream 5 == { gen := 3 } && t.isReady 4 false 8 && t.isReady 4 false 9 && !t.isReady 4 false 10) = true := by
      unfold Live; decide +kernel

theorem test_streamEnd_other : Live (sized.putStream 5 { st := .draining, dstKind := 1, gen := 3 }) ∧
      ((sized.putStream 5 { st := .draining, dstKind := 1, gen := 3 }).stream 5).st = .draining ∧
      ((sized.putStream 5 { st := .draining, dstKind := 1, gen := 3 }).stream 5).dstKind ≠ 0 ∧
      goes (.streamEnd 5) (sized.putStream 5 { st := .draining, dstKind := 1, gen := 3 }) (fun t => t.stream 5 == { gen := 3 } && t.ready == [] &&
      t.out == []) = true := by unfold Live; decide +kernel

theorem test_receiverDetach : Live castS ∧ (castS.stream 5).multicast = true ∧ (castS.stream 5).mayRead = true ∧ 0 + 4 ≤ 4 ∧
      castS.readyFor (castS.stream 5) ⟨6, 2, true, 0, 1, true, 4, [], 0⟩ 4 = true ∧
      goes (.receiverDetach 5 0) castS (fun t => (t.stream 5).rcv.map (·.attached) == [false, true] &&
      t.catchUps.map (fun c => (c.stev, c.task, c.tile, c.stream.isSome, c.unplaced)) == [(some 0, 0, 0, true, false)] && t.get STV_DETACHES_COUNT 0 == 1 &&
      t.get STV_DETACH_LAST_KILN 0 == 4 && t.get STV_DETACH_LAST_CTX 0 == 1) = true := by unfold Live; decide +kernel

def catchUp (v : Nat) : CatchUp := ⟨some v, 1, 0, 0, 0, 0, 2, some { st := .reserving, job := 1, catching := true, startTide := 7 }, false⟩

theorem test_catchupStreamStart : Live ({ sized with catchUps := [catchUp 1, catchUp 0] } : State) ∧ ({ sized with
      catchUps := [catchUp 1, catchUp 0] } : State).stevedoreOk 0 = true ∧ ({ sized with
      catchUps := [catchUp 1, catchUp 0] } : State).mayCatchUp 0 (catchUp 1) = false ∧ ({ sized with
      catchUps := [catchUp 1, catchUp 0] } : State).mayCatchUp 0 (catchUp 0) = true ∧ ({ sized with
      catchUps := [catchUp 1, catchUp 0] } : State).freeContext 0 = some 0 ∧ goes (.catchupStreamStart 0) ({ sized with
      catchUps := [catchUp 1, catchUp 0] } : State) (fun t => t.catchUps == [catchUp 1] && (t.stream 0).job == 1 && (t.stream 0).waitSince == some 100 &&
      (t.stream 0).startTide == 100) = true := by unfold Live; decide +kernel

def w_catchupStreamStart_again : State := { (bindS.poke 0x3000 (leBytes 8 0x3003)) with catchUps := [⟨none, 1, 0, 0, 0, 0, 2, none, false⟩] }

theorem test_catchupStreamStart_again : Live w_catchupStreamStart_again ∧ w_catchupStreamStart_again.stevedoreOk 0 = true ∧
      w_catchupStreamStart_again.mayCatchUp 0 ⟨none, 1, 0, 0, 0, 0, 2, none, false⟩ = true ∧ w_catchupStreamStart_again.freeContext 0 = some 0 ∧
      w_catchupStreamStart_again.job 1 = some job0 ∧ goes (.catchupStreamStart 0) w_catchupStreamStart_again (fun t => t.catchUps == [] &&
      (t.stream 0).st == .reserving && (t.stream 0).catching && (t.stream 0).skipTo == 2) = true := by unfold Live; decide +kernel

/-- Stream 5 holds a pool and waits for its remote one. -/
def waitS : State := sized.putStream 5 { st := .reserving, waitSince := some 98, startTide := 97, pools := [0], dstKind := 2, device := 9, asked := true }

theorem test_mutualWaitProbe : Live waitS ∧ (waitS.stream 5).st = .reserving ∧
      [(0, 5, 97), (9, 1, 90)].head? = some (waitS.me, 5, (waitS.stream 5).startTide) ∧ younger (0, 5, 97) (9, 1, 90) = true ∧ (waitS.stream 5).aborts < 3 ∧
      (waitS.peer 9).frozen = false ∧ goes (.mutualWaitProbe 5 [(0, 5, 97), (9, 1, 90)]) waitS (fun t => (t.stream 5).st == .aborted && (t.stream 5).pools == [] &&
      t.get STV_ABORTS_COUNT 0 == 1 && t.out == [.net 9 (classVc 0) (.reserveRelease 0 5)]) = true := by unfold Live; decide +kernel

def w_mutualWaitProbe_pool : State := { (sized.putStream 5 { st := .reserving, srcRemote := true, quay := 3, waitSince := some 98, startTide := 97, pools := [0] }) with remoteHolds := [⟨3, 9, 6, 8192⟩] }

theorem test_mutualWaitProbe_cases :
    (Live waitS ∧ [(0, 5, 97), (9, 1, 98)].head? = some (waitS.me, 5, (waitS.stream 5).startTide) ∧ younger (9, 1, 98) (0, 5, 97) = true ∧
      goes (.mutualWaitProbe 5 [(0, 5, 97), (9, 1, 98)]) waitS (fun t => t == waitS) = true) ∧
    (Live waitS ∧ (waitS.me, 5, 97) ∉ [(9, 1, 98)] ∧ waitS.waitsFor 5 = some none ∧ (waitS.peer 9).frozen = false ∧
      goes (.mutualWaitProbe 5 [(9, 1, 98)]) waitS (fun t => t == waitS.send (.net 9 1 (.waitProbe 4095 [(9, 1, 98), (0, 5, 97)]))) = true) ∧
    (Live w_mutualWaitProbe_pool ∧ (w_mutualWaitProbe_pool.me, 5, 97) ∉ [(9, 1, 98)] ∧ w_mutualWaitProbe_pool.waitsFor 5 = some (some 5) ∧
      w_mutualWaitProbe_pool.holders 5 = [(9, 6)] ∧ 9 ≠ w_mutualWaitProbe_pool.me ∧
      goes (.mutualWaitProbe 5 [(9, 1, 98)]) w_mutualWaitProbe_pool (fun t => t == w_mutualWaitProbe_pool.send (.net 9 1 (.waitProbe 6 [(9, 1, 98), (0, 5, 97)]))) = true) :=
    ⟨by unfold Live; decide +kernel, by unfold Live; decide +kernel, by unfold Live; decide +kernel⟩

theorem test_tagGrant : Live unitS ∧ unitS.stevedoreOk 0 = true ∧ unitS.get STV_TAGS_IN_USE 0 < 1024 ∧
      choose 0 (unitS.readers 0 1000) = some (⟨(9000, 9), 1, 0, 5, 0, 3⟩, 0) ∧ (unitS.stream 5).unitAt 3 = some (sunit .queued 0 3) ∧
      goes (.tagGrant ⟨0, 1000⟩) unitS (fun t => (t.stream 5).units.map (fun u => (u.st, u.dry)) == [(.inFlight, (9000, 9))] && t.get STV_TAGS_IN_USE 0 == 1 &&
      t.out == []) = true := by unfold Live; decide +kernel

def w_tagGrant_remote : State := unitS.putStream 5 { unitS.stream 5 with srcRemote := true, device := 9 }

theorem test_tagGrant_remote : Live w_tagGrant_remote ∧ (w_tagGrant_remote.stream 5).srcRemote = true ∧ (w_tagGrant_remote.peer 9).frozen = false ∧
      (choose 0 (w_tagGrant_remote.readers 0 1000)).isSome = true ∧
      goes (.tagGrant ⟨0, 1000⟩) w_tagGrant_remote (fun t => t.out == [.net 9 (classVc 1) (.readRequest 5 3 0x1000 256 9000 9 1 0)]) = true := by
      unfold Live; decide +kernel

theorem test_choose : choose 14 [⟨(5, 1), 0, 0, 1, 0, 1⟩, ⟨(3, 1), 2, 0, 2, 0, 2⟩, ⟨(0, 0), 0, 0, 3, 0, 3⟩] = some (⟨(3, 1), 2, 0, 2, 0, 2⟩, 15) ∧
      choose 15 [⟨(3, 1), 2, 0, 2, 0, 2⟩, ⟨(0, 0), 0, 0, 3, 0, 4⟩, ⟨(0, 0), 0, 0, 4, 0, 3⟩] = some (⟨(0, 0), 0, 0, 4, 0, 3⟩, 0) ∧
      choose 3 [⟨(3, 1), 2, 0, 2, 0, 2⟩] = some (⟨(3, 1), 2, 0, 2, 0, 2⟩, 0) := by decide +kernel

theorem test_readDataLands : Live (inFlightS.poke 0x1000 [1, 2, 3, 4]) ∧
      (((inFlightS.poke 0x1000 [1, 2, 3, 4]).stream 5).unitAt 3).map (·.st) = some .inFlight ∧ ((inFlightS.poke 0x1000 [1, 2, 3, 4]).stream 5).load = none ∧
      ((inFlightS.poke 0x1000 [1, 2, 3, 4]).serveUnit 5 ((inFlightS.poke 0x1000 [1, 2, 3, 4]).stream 5) { sunit .inFlight 0 3 with len := 4 }).isSome = true ∧
      goes (.readDataLands 5 3 []) (inFlightS.poke 0x1000 [1, 2, 3, 4]) (fun t => (t.stream 5).units.map (fun u => (u.st, u.data)) == [(.landed, [1, 2, 3, 4])] &&
      t.out == []) = true := by unfold Live; decide +kernel

def w_readDataLands_remote : State := inFlightS.putStream 5 { inFlightS.stream 5 with srcRemote := true, device := 9, dstKind := 2 }

def w_readDataLands_later : State := inFlightS.putStream 5 { inFlightS.stream 5 with srcRemote := true, device := 9, dstKind := 2, units := [{ sunit .inFlight 0 3 with xfer := 1 }, { sunit .queued 0 2 with xfer := 1 }] }

theorem test_readDataLands_cases :
    (Live w_readDataLands_remote ∧ (w_readDataLands_remote.stream 5).srcRemote = true ∧ [1, 2, 3, 4].length = 4 ∧ (w_readDataLands_remote.peer 9).frozen = false ∧
      goes (.readDataLands 5 3 [1, 2, 3, 4]) w_readDataLands_remote (fun t => (t.stream 5).units.map (fun u => (u.st, u.data)) == [(.landed, [1, 2, 3, 4])] &&
      t.out == [.net 9 (classVc 1) (.writeUnit 5 3 0x2000 0 0 1 0 [1, 2, 3, 4])]) = true) ∧
    (Live w_readDataLands_later ∧ (∃ w ∈ (w_readDataLands_later.stream 5).units, w.xfer = 1 ∧ w.seq < 3 ∧ w.st ≠ .landed) ∧
      goes (.readDataLands 5 3 (List.replicate 256 7)) w_readDataLands_later (fun t => t.out == [] && (t.stream 5).units.map (·.st) == [.landed, .queued]) = true) :=
    ⟨by unfold Live; decide +kernel, by unfold Live; decide +kernel⟩

/-- A landed unit that goes to HBM, and one of a later tile. -/
def landedS : State := sized.putStream 5 { st := .running, dstKind := 1, cls := 1, tileMax := 3, job := 1, grace := 1, rcv := [⟨4, 1, false, 8, 0, true, 0, [], 0⟩],
                                           units := [{ sunit .landed 0 3 with len := 3, data := [7, 8, 9] }] }
/-- The same unit for slot 1 of the mooring at slot 8 of kiln 4's fore half. -/
def berthS : State := sized.putStream 5 { landedS.stream 5 with dstKind := 0, units := [{ sunit .landed 0 3 with dst := 0x1000, len := 3, data := [7, 8, 9] }] }

theorem test_tileAccept : Live landedS ∧ (landedS.stream 5).mayRead = true ∧ (landedS.stream 5).units.map (·.st) = [.landed] ∧ landedS.veiled = [] ∧
      landedS.ecc = [] ∧ (landedS.stream 5).grace ≠ 0 ∧ (landedS.stream 5).load = none ∧ (landedS.stream 5).writeRange { sunit .landed 0 3 with
      len := 3, data := [7, 8, 9] } = (0x2000, 3) ∧ 0x2000 % 256 + 3 ≤ 256 ∧ (match landedS.locate (landedS.streamReq (landedS.stream 5)) true 0x2000 with
      | .ok l => l == .dev 0x2000 .normal | .error _ => false) = true ∧ goes (.tileAccept 5 0) landedS (fun t => t.mem == [(0x2000, 7), (0x2001, 8), (0x2002, 9)] &&
      ((t.stream 5).rcv.map (·.accepted)) == [1]) = true := by unfold Live; decide +kernel

def w_tileAccept_early : State := landedS.putStream 5 { landedS.stream 5 with units := [sunit .inFlight 0 3] }

def w_tileAccept_remote : State := landedS.putStream 5 { landedS.stream 5 with dstKind := 2, device := 9 }

theorem test_tileAccept_cases :
    (Live berthS ∧ (berthS.stream 5).mayRead = true ∧ (berthS.stream 5).units.map (·.st) = [.landed] ∧ berthS.veiled = [] ∧ berthS.ecc = [] ∧
      (berthS.stream 5).grace ≠ 0 ∧ (berthS.stream 5).load = none ∧ slotsIn 0x1000 3 = [1] ∧
      berthS.slotTaken (berthS.stream 5) ⟨4, 1, false, 8, 0, true, 0, [], 0⟩ 3 1 = false ∧ goes (.tileAccept 5 0) berthS (fun t => t.mem.map (·.2) == [7, 8, 9] &&
      t.tags.map (·.2) == [0] && t.origins.map (fun o => (o.2.job, o.2.first, o.2.last)) == [(1, 0, 0)] && (t.stream 5).rcv.map (·.accepted) == [1]) = true) ∧
    (Live ({ berthS with ready := [(readyKey 4 false 9, true)] } : State) ∧ (({ berthS with
      ready := [(readyKey 4 false 9, true)] } : State).stream 5).mayRead = true ∧ (({ berthS with
      ready := [(readyKey 4 false 9, true)] } : State).stream 5).units.map (·.st) = [.landed] ∧ ({ berthS with
      ready := [(readyKey 4 false 9, true)] } : State).veiled = [] ∧ ({ berthS with ready := [(readyKey 4 false 9, true)] } : State).ecc = [] ∧ (({ berthS with
      ready := [(readyKey 4 false 9, true)] } : State).stream 5).grace ≠ 0 ∧ (({ berthS with ready := [(readyKey 4 false 9, true)] } : State).stream 5).load = none ∧
      ({ berthS with ready := [(readyKey 4 false 9, true)] } : State).slotTaken (({ berthS with
      ready := [(readyKey 4 false 9, true)] } : State).stream 5) ⟨4, 1, false, 8, 0, true, 0, [], 0⟩ 3 1 = true ∧ goes (.tileAccept 5 0) ({ berthS with
      ready := [(readyKey 4 false 9, true)] } : State) (fun t => t == ({ berthS with ready := [(readyKey 4 false 9, true)] } : State)) = true) ∧
    (Live w_tileAccept_early ∧ (w_tileAccept_early.stream 5).units.map (·.st) ≠ [.landed] ∧
      goes (.tileAccept 5 0) w_tileAccept_early (fun t => t == w_tileAccept_early) = true) ∧
    (Live w_tileAccept_remote ∧ (w_tileAccept_remote.stream 5).dstKind = 2 ∧ goes (.tileAccept 5 0) w_tileAccept_remote (fun t => t.mem == [] &&
      ((t.stream 5).rcv.map (·.accepted)) == [1]) = true) :=
    ⟨by unfold Live; decide +kernel, by unfold Live; decide +kernel, by unfold Live; decide +kernel, by unfold Live; decide +kernel⟩

/-- The task waits for the two slots of the mooring, the second of which is ready; the stream has left the first. -/
def lateS (late : List Nat) : State := ({ sized with ready := [(readyKey 4 false 9, true)] }.putStream 5
  { st := .running, dstKind := 0, left := [(0, 1)], rcv := [⟨4, 1, false, 8, 0, true, 1, [(0, 0)], 1⟩] }).putCtx 4 1 { st := .waitTile, base := 8, slots := 4, late := late }

theorem test_readyBitSet : Live (lateS [0, 1]) ∧ ((lateS [0, 1]).stream 5).dstKind = 0 ∧
      ((lateS [0, 1]).stream 5).slotDone ⟨4, 1, false, 8, 0, true, 1, [(0, 0)], 1⟩ 0 = true ∧
      goes (.readyBitSet 5 0 0) (lateS [0, 1]) (fun t => t.isReady 4 false 8 && (t.ctx 4 1).st == .ready && (t.ctx 4 1).late == []) = true := by
      unfold Live; decide +kernel

theorem test_readyBitSet_more : Live (lateS [0, 2]) ∧ ((lateS [0, 2]).stream 5).dstKind = 0 ∧
      ((lateS [0, 2]).stream 5).slotDone ⟨4, 1, false, 8, 0, true, 1, [(0, 0)], 1⟩ 0 = true ∧
      goes (.readyBitSet 5 0 0) (lateS [0, 2]) (fun t => t.isReady 4 false 8 && t.ctx 4 1 == (lateS [0, 2]).ctx 4 1) = true := by unfold Live; decide +kernel

/-- A unit in flight from host memory that no window maps. -/
def missS : State := ((jobS.put HST_PORT_STATUS_BME 0 1).putStream 5 { unitS.stream 5 with job := 1, units := [{ sunit .inFlight 0 3 with src := 0x800000000000 }, sunit .queued 0 4] }).put STV_TAGS_IN_USE 0 1

theorem test_streamFault : Live missS ∧ (missS.stream 5).mayRead = true ∧ ((missS.stream 5).unitAt 3).isSome = true ∧ (missS.stream 5).load = none ∧
      (missS.unitErr (missS.stream 5) { sunit .inFlight 0 3 with src := 0x800000000000 }).bind AccErr.reason = some 1 ∧
      goes (.streamFault 5 3 1) missS (fun t => (t.stream 5).st == .halted && (t.stream 5).reason == 1 && (t.stream 5).gen == 1 && (t.stream 5).units == [] &&
      t.get STV_TAGS_IN_USE 0 == 0 && t.jobs.length == 1) = true := by unfold Live; decide +kernel

def w_streamFault_task : State := (missS.putStream 5 { missS.stream 5 with dstKind := 0, rcv := [⟨4, 1, false, 8, 0, true, 0, [], 0⟩], units := [{ sunit .inFlight 0 3 with src := 0x800000000000, dst := 0 }], code := [3 + 256 * 256, 0] }).putCtx 4 1 { st := .waitTile, job := 1, base := 8, slots := 4, late := [0] }

def w_streamFault_bounds : State := jobS.putStream 5 { missS.stream 5 with units := [{ sunit .inFlight 0 3 with src := 0x7FFFFFFFFF00 }] }

theorem test_streamFault_cases :
    (Live w_streamFault_task ∧ (w_streamFault_task.stream 5).mayRead = true ∧ ((w_streamFault_task.stream 5).unitAt 3).isSome = true ∧
      (w_streamFault_task.stream 5).load = none ∧ (∀ q ∈ (w_streamFault_task.stream 5).rcv, q.slot < 4) ∧ (w_streamFault_task.ctx 4 1).st = .waitTile ∧
      goes (.streamFault 5 3 1) w_streamFault_task (fun t => (t.ctx 4 1).st == .halted && (t.ctx 4 1).reason == 4) = true) ∧
    (Live w_streamFault_bounds ∧ (w_streamFault_bounds.stream 5).mayRead = true ∧ ((w_streamFault_bounds.stream 5).unitAt 3).isSome = true ∧
      (w_streamFault_bounds.stream 5).load = none ∧ (w_streamFault_bounds.unitErr (w_streamFault_bounds.stream 5) { sunit .inFlight 0 3 with
      src := 0x7FFFFFFFFF00 }).bind AccErr.reason = some 3 ∧ goes (.streamFault 5 3 3) w_streamFault_bounds (fun t => t.jobs == []) = true) :=
    ⟨by unfold Live; decide +kernel, by unfold Live; decide +kernel⟩

def w_resumeStream : State := (sized.putStream 5 { st := .halted, reason := 1, gen := 7, code := [0], rcv := [⟨4, 1, false, 8, 0, true, 0, [], 0⟩] }).putCtx 4 1 { st := .halted, reason := 4 }

theorem test_resumeStream : HostUp w_resumeStream ∧ (w_resumeStream.stream 5).st = .halted ∧ (w_resumeStream.stream 5).gen = 7 ∧
      (w_resumeStream.stream 5).reason ≠ 3 ∧ (w_resumeStream.stream 5).fresh = false ∧ (w_resumeStream.stream 5).code ≠ [] ∧
      goes (.resumeStream (5 + 2 ^ 16 * 7)) w_resumeStream (fun t => (t.stream 5).st == .running && (t.ctx 4 1).st == .ready) = true := by
      unfold HostUp; decide +kernel

def w_resumeStream_fresh : State := (bindS.poke 0x3000 (leBytes 8 0x3003)).putStream 5 { st := .halted, reason := 1, gen := 65535, job := 1, fresh := true }

def w_resumeStream_ignored : State := sized.putStream 5 { st := .halted, reason := 1, gen := 7, code := [0] }

theorem test_resumeStream_cases :
    (HostUp w_resumeStream_fresh ∧ (w_resumeStream_fresh.stream 5).st = .halted ∧ (w_resumeStream_fresh.stream 5).gen = 65535 ∧
      (w_resumeStream_fresh.stream 5).fresh = true ∧ goes (.resumeStream (5 + 2 ^ 16 * 65535)) w_resumeStream_fresh (fun t => t == w_resumeStream_fresh.reload 5 &&
      (t.stream 5).st == .reserving && (t.stream 5).code == [0x3003, 0]) = true) ∧
    (HostUp (sized.putStream 5 { st := .halted, reason := 1, gen := 7 }) ∧ ((sized.putStream 5 { st := .halted, reason := 1, gen := 7 }).stream 5).fresh = false ∧
      ((sized.putStream 5 { st := .halted, reason := 1, gen := 7 }).stream 5).code = [] ∧
      goes (.resumeStream (5 + 2 ^ 16 * 7)) (sized.putStream 5 { st := .halted, reason := 1, gen := 7 }) (fun t => t == (sized.putStream 5 { st := .halted, reason := 1, gen := 7 }).resumeCopy 5) = true) ∧
    (HostUp w_resumeStream_ignored ∧ (w_resumeStream_ignored.stream 5).gen ≠ 6 ∧
      goes (.resumeStream (5 + 2 ^ 16 * 6)) w_resumeStream_ignored (fun t => t == w_resumeStream_ignored.inc STV_RESUME_IGNORED_COUNT 0 1) = true) :=
    ⟨by unfold HostUp; decide +kernel, by unfold HostUp; decide +kernel, by unfold HostUp; decide +kernel⟩

/-- A task halted at the first group of a LAYER whose weights lie from its slot 0, which tile 0 of binding 0 brought. -/
def haltedTask : KCtx := { st := .halted, reason := 1, gen := 65535, base := 8, slots := 4, job := 1, cmd := 3280876087174517886706967214900196778171925007150939223435991019256951853359813273144205300469858305 }
def haltS : State := ({ jobS with ready := [(readyKey 4 false 8, true), (readyKey 4 false 11, true)], jobs := [{ job0 with units := [{ unit0 with started := [(0, 0)] }] }], origins := [(berthAddr 4 false 0x8000 / 256, ⟨1, 0, 0, 0, 0, 0⟩)] }.putCtx 4 1 haltedTask).putStream 5 { st := .running, job := 1, rcv := [⟨4, 1, false, 8, 0, true, 4, [], 0⟩] }

theorem test_resumeKilnTask : HostUp haltS ∧ (haltS.ctx 4 1).st = .halted ∧ (haltS.ctx 4 1).reason = 1 ∧ (haltS.ctx 4 1).gen = 65535 ∧
      (layerOf (haltS.ctx 4 1).cmd).isSome = true ∧ goes (.resumeKilnTask 17 0 65535) haltS (fun t => t.ctx 4 1 == { haltedTask with st := .ready, reason := 0 } &&
      t.isReady 4 false 8 == false && t.isReady 4 false 11 && (t.stream 5).st == .free) = true := by unfold HostUp; decide +kernel

theorem test_resumeKilnTask_ignored : HostUp (sized.putCtx 4 1 { st := .halted, reason := 3, gen := 2 }) ∧
      (¬ (((sized.putCtx 4 1 { st := .halted, reason := 3, gen := 2 }).ctx 4 1).reason = 1 ∨ ((sized.putCtx 4 1 { st := .halted, reason := 3, gen := 2 }).ctx 4 1).reason = 2)) ∧
      goes (.resumeKilnTask 17 0 2) (sized.putCtx 4 1 { st := .halted, reason := 3, gen := 2 }) (fun t => t == (sized.putCtx 4 1 { st := .halted, reason := 3, gen := 2 }).inc HST_DB_STATUS_RESUME_IGNORED 0 1) = true := by
      unfold HostUp; decide +kernel

/-! ### Kiln tasks -/

/-- A task of job 1 at slot 1 of kiln 4, READY at the 64 bytes that read as w, its mooring two slots from slot 8. -/
def taskX : KCtx := { st := .ready, job := 1, prog := 0x20000, pc := 0x20000, base := 8, slots := 4 }
def taskS (w : Nat) : State := (jobS.putCtx 4 1 taskX).poke 0x20000 (leBytes 64 w)

/-- What the statements assume of a command, as a check. -/
def atCommand (s : State) (k c op n v : Nat) : Bool :=
  let x := s.ctx k c
  s.live && decide (k < s.kilnCount) && decide (c < 4) && !s.kilnFenced k && x.st == .ready && x.dbgReq == 0 &&
  (match s.read (s.taskReq x) x.pc 32 with | .ok (bs, _) => leNat bs % 256 == op && headerOk (leNat bs) | .error _ => false) &&
  (match s.read (s.taskReq x) x.pc n with | .ok (bs, _) => leNat bs == v | .error _ => false)

theorem atCommand_holds {s : State} {k c op n v : Nat} (h : atCommand s k c op n v = true) : ∃ u, AtCommand s k c op n v u := by
  unfold atCommand at h
  simp only [Bool.and_eq_true, decide_eq_true_eq, beq_iff_eq, Bool.not_eq_true'] at h
  obtain ⟨⟨⟨⟨⟨⟨⟨hl, hk⟩, hc⟩, hf⟩, hs⟩, hd⟩, h1⟩, h2⟩ := h
  cases e1 : s.read (s.taskReq (s.ctx k c)) (s.ctx k c).pc 32 with
  | error e => simp [e1] at h1
  | ok p1 =>
    cases e2 : s.read (s.taskReq (s.ctx k c)) (s.ctx k c).pc n with
    | error e => simp [e2] at h2
    | ok p2 =>
      simp only [e1, Bool.and_eq_true, beq_iff_eq] at h1
      simp only [e2, beq_iff_eq] at h2
      refine ⟨p2.2, ?_, hk, hc, hf, hs, hd, ⟨p1.1, p1.2, e1, h1⟩, p2.1, e2, h2⟩
      unfold Live
      unfold State.live at hl
      simpa [State.flag, and_assoc] using hl

def w_swap : State := { taskS 3 with ready := [(readyKey 4 false 9, true), (readyKey 4 true 9, true)] }

theorem test_swap : atCommand w_swap 4 1 3 32 3 = true ∧ goes (.swap 4 1) w_swap (fun t => t.isReady 4 false 9 == false && t.isReady 4 true 9 &&
      t.ctx 4 1 == { taskX with pc := 0x20020, half := true }) = true := by decide +kernel

theorem test_arrive : atCommand (taskS 302231454938842722729988) 4 1 4 32 302231454938842722729988 = true ∧ (taskS 302231454938842722729988).wayUse 0 0 = 0 ∧
      (taskS 302231454938842722729988).wayStopped 0 0 = false ∧ (taskS 302231454938842722729988).firstBad 0x400000002000 8 = none ∧
      goes (.arrive 4 1) (taskS 302231454938842722729988) (fun t => t.get STV_TAGS_IN_USE 0 == 0 && Tab.find (0x400000002007) t.mem == some 0x80 &&
      (t.ctx 4 1).pc == 0x20020) = true := by decide +kernel

def w_clearbar : State := (taskS 16333553612205046548473436095566539915270).poke 0x400000002000 [0xF0]

theorem test_clearbar : atCommand w_clearbar 4 1 6 32 16333553612205046548473436095566539915270 = true ∧
      goes (.clearbar 4 1) w_clearbar (fun t => Tab.find 0x400000002000 t.mem == some 0xC0) = true := by decide +kernel

def w_waitbar : State := (taskS 16333553612205046548473436095566539915269).poke 0x400000002000 [0xF0]

theorem test_waitbar : atCommand w_waitbar 4 1 5 32 16333553612205046548473436095566539915269 = true ∧ w_waitbar.barrierOk 0x400000002000 = true ∧
      goes (.waitbar 4 1) w_waitbar (fun t => t.ctx 4 1 == { taskX with pc := 0x20020 }) = true := by decide +kernel

theorem test_waitbar_waits : atCommand (taskS 16333553612205046548473436095566539915269) 4 1 5 32 16333553612205046548473436095566539915269 = true ∧
      goes (.waitbar 4 1) (taskS 16333553612205046548473436095566539915269) (fun t => t.ctx 4 1 == { taskX with st := .waitBar }) = true := by decide +kernel

def w_waitbarReread : State := ((taskS 16333553612205046548473436095566539915269).poke 0x400000002000 [0x30]).putCtx 4 1 { taskX with st := .waitBar }

theorem test_waitbarReread : (w_waitbarReread.ctx 4 1).st = .waitBar ∧
      atCommand (w_waitbarReread.putCtx 4 1 taskX) 4 1 5 32 16333553612205046548473436095566539915269 = true ∧
      goes (.waitbarReread 4 1) w_waitbarReread (fun t => t.ctx 4 1 == { taskX with pc := 0x20020 }) = true := by decide +kernel

def w_loadpin : State := (taskS 261336857795280739944594281251214970585090).poke 0x30000 (leBytes 4 0x3F800000 ++ leBytes 4 0x40000000)

theorem test_loadpin : atCommand w_loadpin 4 1 2 32 261336857795280739944594281251214970585090 = true ∧
      onlyBits 261336857795280739944594281251214970585090 [(0, 24), (32, 12), (44, 12), (56, 16), (72, 2), (128, 40)] = true ∧
      goes (.loadpin 4 1) w_loadpin (fun t => (t.ctx 4 1).pins == [(5, 0x3F800000), (6, 0x40000000)] && (t.ctx 4 1).pinRec == some (3, 1) &&
      (t.ctx 4 1).pinWriter == some 0x20000) = true := by decide +kernel

theorem test_bankExchange_none : Live sized ∧ 4 < sized.kilnCount ∧ sized.kilnFenced 4 = false ∧ (7 = 0 ∨ 0 = 0) ∧ sized.exchanges 4 = none ∧
      goes (.bankExchange 4 7 0) sized (fun t => t == sized) = true := by unfold Live; decide +kernel

/-- Two rows of a LAYER are written, with one and two of their columns clipped. -/
def row0 : RowOut := ⟨0x20000, 0, 8, [1], none, false, []⟩
def row1 : RowOut := ⟨0x20000, 1, 8, [1, 2], none, false, []⟩

theorem test_rowWatermarkAdvance : Live (jobS.putCtx 4 1 { taskX with begun := true, rows := [row0, row1] }) ∧ ((jobS.putCtx 4 1 { taskX with
      begun := true, rows := [row0, row1] }).ctx 4 1).countedRow row0 = false ∧ (jobS.putCtx 4 1 { taskX with
      begun := true, rows := [row0, row1] }).job 1 = some job0 ∧ goes (.rowWatermarkAdvance 4 1 ⟨0x20000, 0⟩) (jobS.putCtx 4 1 { taskX with
      begun := true, rows := [row0, row1] }) (fun t => (t.ctx 4 1).watermark == 1 && (t.ctx 4 1).rows == [row1] &&
      t.jobs.map (fun j => (j.clip, j.total)) == [(1, 8)]) = true := by unfold Live; decide +kernel

theorem test_rowWatermarkAdvance_later : Live (jobS.putCtx 4 1 { taskX with begun := true, rows := [row0, row1] }) ∧ row0.row ≠ row1.row ∧
      goes (.rowWatermarkAdvance 4 1 ⟨0x20000, 1⟩) (jobS.putCtx 4 1 { taskX with begun := true, rows := [row0, row1] }) (fun t => t.ctx 4 1 == { taskX with
      begun := true, rows := [row0, { row1 with acked := true }] } && t.jobs.map (fun j => (j.clip, j.total)) == [(0, 0)]) = true := by unfold Live; decide +kernel

theorem test_kilnEnd : atCommand (taskS 63) 4 1 63 32 63 = true ∧ goes (.kilnEnd 4 1) (taskS 63) (fun t => t.ctx 4 1 == {} &&
      t.jobs.map (fun j => j.units.map (·.tasks)) == [[[.ended]]]) = true := by decide +kernel

/-! ### LAYER and hearths -/

/-- A LAYER of one row, one group of 32 and one column, W1 weights: the tile in slot 0 of the mooring, scale blocks in slots 1 and 2, the row
in slot 3. Its first eight weights are +1; the first activation is 5 and the others 0; every scale is 1. -/
def layerB : State := ((((((taskS 3280876087174517886706967214900196778171925007150939223435991019256951853359813273144205300469858305).poke (berthAddr 4 false 0x8000) [0xFF]).poke (berthAddr 4 false 0x9000) [0, 1]).poke (berthAddr 4 false 0x9040)
  (leBytes 4 0x3F800000)).poke (berthAddr 4 false 0xA000) [0, 3]).poke (berthAddr 4 false 0xA010) (leBytes 4 0x3F800000)).poke
  (berthAddr 4 false 0xB000) [5]
def layerS : State := { layerB.poke 0x60000 (leBytes 4 0x3F800000) with ready := [8, 9, 10, 11].map fun i => (readyKey 4 false i, true) }

/-- A check on the LAYER of those bits. -/
def lay (p : LayerCmd → Bool) : Bool := (layerOf 3280876087174517886706967214900196778171925007150939223435991019256951853359813273144205300469858305).any p
/-- What the statement on a LAYER that completes assumes of it and of its state. -/
def layReady (s : State) : Bool := lay fun l => (OFmt.ofCode l.ofmt).isSome && l.rows == 1 && l.groups == 1 && l.pinned == 0 && l.accIn == 0 && l.accOut == 0 &&
  !l.clipPage && !l.wf.isC4 && l.accOk taskX && l.placed taskX.slots && !inBerthView l.out && !inBerthView l.rescale && s.canCharge 4 taskX l (0, 0, 0) &&
  l.strips == 1 && (s.notReady 4 taskX (l.needs 0 0 0)).isEmpty && (s.slipOf l (taskX.origin 4) 0 0).isNone && !s.badCodebook l (taskX.origin 4) 0 && s.ecc.isEmpty
/-- A HALTED stream feeds slot 0 of the mooring. -/
def fedS : State := layerB.putStream 5 { st := .halted, dstKind := 0, code := [65539, 0], rcv := [⟨4, 1, false, 8, 0, true, 0, [], 0⟩] }
/-- The bank that the charger fills for it. -/
def bank0 : List LutGroup := match layerOf 3280876087174517886706967214900196778171925007150939223435991019256951853359813273144205300469858305 with
  | some l => (((layerS.putKiln 4 { firstBank := false }).runLayer 4 1 l 1).kiln 4).idle
  | none => []
/-- A LAYER on the path, whose tables stand in bank 1 while the fabric has finished with bank 0. -/
def bankS : State := (layerS.putCtx 4 1 { taskX with st := .running, begun := true, cmd := 3280876087174517886706967214900196778171925007150939223435991019256951853359813273144205300469858305 }).putKiln 4
  { path := some 1, firstBank := false, store1 := bank0 }

theorem test_layer : atCommand layerS 4 1 1 64 3280876087174517886706967214900196778171925007150939223435991019256951853359813273144205300469858305 = true ∧
      (layerS.kiln 4).path = none ∧ layerS.nextOn 4 1 = some 1 ∧ layReady layerS = true ∧ goes (.layer 4 1) layerS (fun t => Tab.find 0x50000 t.mem == some 5 &&
      (t.ctx 4 1).pc == 0x20040 && (t.ctx 4 1).st == .ready && (t.kiln 4).path == none && !t.isReady 4 false 11 && t.isReady 4 false 8 &&
      (t.ctx 4 1).rows.map (fun r => (r.layer, r.row, r.outs, r.clips)) == [(0x20000, 0, 1, [])]) = true := by decide +kernel

theorem test_layer_cases :
    (atCommand (layerS.putKiln 4 { path := some 1 }) 4 1 1 64 3280876087174517886706967214900196778171925007150939223435991019256951853359813273144205300469858305 = true ∧
      ((layerS.putKiln 4 { path := some 1 }).kiln 4).path = some 1 ∧ ((layerS.putKiln 4 { path := some 1 }).kiln 4).store0 = [] ∧
      ((layerS.putKiln 4 { path := some 1 }).kiln 4).store1 = [] ∧ ((layerS.putKiln 4 { path := some 1 }).kiln 4).firstBank = true ∧
      layReady (layerS.putKiln 4 { path := some 1 }) = true ∧ goes (.layer 4 1) (layerS.putKiln 4 { path := some 1 }) (fun t => Tab.find 0x50000 t.mem == some 5 &&
      (t.kiln 4).path == none) = true) ∧
    (atCommand layerB 4 1 1 64 3280876087174517886706967214900196778171925007150939223435991019256951853359813273144205300469858305 = true ∧
      layerB.nextOn 4 1 = some 1 ∧ goes (.layer 4 1) layerB (fun t => (t.ctx 4 1).st == .waitTile && (t.ctx 4 1).late == [0, 1, 2, 3] &&
      (t.kiln 4).path == some 1) = true) ∧
    (atCommand (layerS.poke (berthAddr 4 false 0x9000) [7]) 4 1 1 64 3280876087174517886706967214900196778171925007150939223435991019256951853359813273144205300469858305 = true ∧
      (layerS.poke (berthAddr 4 false 0x9000) [7]).nextOn 4 1 = some 1 ∧
      goes (.layer 4 1) (layerS.poke (berthAddr 4 false 0x9000) [7]) (fun t => (t.ctx 4 1).st == .halted && (t.ctx 4 1).reason == 1 &&
      t.get KLN_SLIP_LAST_EXPECTED 4 == 0 && t.get KLN_SLIP_LAST_FOUND 4 == 7 && t.get KLN_SLIP_LAST_SOURCE 4 == 1) = true) :=
    ⟨by decide +kernel, by decide +kernel, by decide +kernel⟩

theorem test_runLayer_late : lay (fun l => let s := layerB; let x := s.ctx 4 1; let _o := x.origin 4; let late := s.notReady 4 x (l.needs 0 0 0); let t := s.runLayer 4 1 l 1; decide (0 < l.rows) &&
      decide (0 < l.groups) && x.dbgReq == 0 && !late.isEmpty && !s.fedByHalted 4 1 late && (t.ctx 4 1).st == .waitTile && (t.ctx 4 1).late == late) = true := by
      decide +kernel

theorem test_runLayer_cases :
    (lay (fun l => let s := fedS; let x := s.ctx 4 1; let _o := x.origin 4; let late := s.notReady 4 x (l.needs 0 0 0); let t := s.runLayer 4 1 l 1; decide (0 < l.rows) &&
      decide (0 < l.groups) && x.dbgReq == 0 && !late.isEmpty && s.fedByHalted 4 1 late && (t.ctx 4 1).st == .halted && (t.ctx 4 1).reason == 4) = true) ∧
    (lay (fun l => let s := { layerS with ecc := [(berthAddr 4 false 0x8000 / 8, true)] }; let x := s.ctx 4 1; (s.notReady 4 x (l.needs 0 0 0)).isEmpty &&
      (match s.touch (l.reads (x.origin 4) 0 0 0) with | .error _ => true | .ok _ => false)) = true) ∧
    (lay (fun l => let m := { l with
      wf := .c4E4M3 }; let s := (layerS.poke (berthAddr 4 false 0x9001) [BitVec.ofNat 8 m.wantHeader]).poke (berthAddr 4 false 0x9010) [0x7F]; let o := (s.ctx 4 1).origin 4; let t := s.runLayer 4 1 m 1; (s.notReady 4 (s.ctx 4 1) (m.needs 0 0 0)).isEmpty &&
      (s.slipOf m o 0 0).isNone && s.badCodebook m o 0 && (t.ctx 4 1).st == .halted && (t.ctx 4 1).reason == 2) = true) ∧
    (lay (fun l => let s := layerS.poke (berthAddr 4 false 0x9000) [7]; let x := s.ctx 4 1; let _o := x.origin 4; let late := s.notReady 4 x (l.needs 0 0 0); let t := s.runLayer 4 1 l 1; decide (0 < l.rows) &&
      decide (0 < l.groups) && x.dbgReq == 0 && late.isEmpty && (s.slipOf l _o 0 0).isSome && (t.ctx 4 1).st == .halted && (t.ctx 4 1).reason == 1) = true) ∧
    (lay (fun l => let s := layerS; let x := s.ctx 4 1; let _o := x.origin 4; let late := s.notReady 4 x (l.needs 0 0 0); let t := s.runLayer 4 1 l 1; decide (0 < l.rows) &&
      decide (0 < l.groups) && x.dbgReq == 0 && late.isEmpty && (s.slipOf l _o 0 0).isNone && !s.badCodebook l _o 0 && (s.kiln 4).firstBank &&
      ((s.kiln 4).active.find? fun g => g.unit == l.unitAt x).isNone && !(t.kiln 4).active.isEmpty && (t.kiln 4).idle.isEmpty && !(t.kiln 4).firstBank) = true) ∧
    (lay (fun l => let s := layerS.putKiln 4 { firstBank := false }; let x := s.ctx 4 1; let _o := x.origin 4; let late := s.notReady 4 x (l.needs 0 0 0); let t := s.runLayer 4 1 l 1; decide (0 < l.rows) &&
      decide (0 < l.groups) && x.dbgReq == 0 && late.isEmpty && !(s.kiln 4).firstBank && ((s.kiln 4).active.find? fun g => g.unit == l.unitAt x).isNone &&
      (t.kiln 4).active.isEmpty && !(t.kiln 4).idle.isEmpty) = true) ∧
    (lay (fun l => let s := layerS.putKiln 4 { path := some 1, store0 := bank0 }; let x := s.ctx 4 1; let _o := x.origin 4; let late := s.notReady 4 x (l.needs 0 0 0); let t := s.runLayer 4 1 l 1; decide (0 < l.rows) &&
      decide (0 < l.groups) && x.dbgReq == 0 && late.isEmpty && ((s.kiln 4).active.find? fun g => g.unit == l.unitAt x).isSome && (t.ctx 4 1).group == 1 &&
      (t.ctx 4 1).strip == 0 && (t.ctx 4 1).acc.length == 1) = true) :=
    ⟨by decide +kernel, by decide +kernel, by decide +kernel, by decide +kernel, by decide +kernel, by decide +kernel, by decide +kernel⟩

theorem test_addTile_strips : lay (fun l => let m := { l with
      N := 65 }; let t := layerS.addTile 4 1 m { row := 0, group := 0, block := 0, tables := [], exp := 0, sum := 0 }; decide (0 + 1 < m.strips) &&
      (t.ctx 4 1).strip == 1 && (t.ctx 4 1).group == 0 && (t.ctx 4 1).staged.length == 64 && (t.ctx 4 1).acc == []) = true := by decide +kernel

theorem test_bankExchange : Live bankS ∧ 4 < bankS.kilnCount ∧ bankS.kilnFenced 4 = false ∧ (7 = 0 ∨ 0 = 0) ∧ (bankS.exchanges 4).isSome = true ∧
      goes (.bankExchange 4 7 0) bankS (fun t => (t.kiln 4).bank && t.get KLN_CHARGE_WAIT_CYCLES 4 == 7 && t.get KLN_LOOKUP_WAIT_CYCLES 4 == 0 &&
      Tab.find 0x50000 t.mem == some 5) = true := by unfold Live; decide +kernel

def w_taskSwitch : State := ((taskS 3280876087174517886706967214900196778171925007150939223435991019256951853359813273144205300469858305).putCtx 4 0 { taskX with st := .waitTile, begun := true }).putKiln 4 { path := some 0 }

theorem test_taskSwitch : Live w_taskSwitch ∧ 4 < w_taskSwitch.kilnCount ∧ w_taskSwitch.kilnFenced 4 = false ∧ w_taskSwitch.starved 4 = true ∧
      (w_taskSwitch.ctx 4 0).st = .waitTile ∧ (w_taskSwitch.ctx 4 0).noswitch = false ∧ (w_taskSwitch.kiln 4).path = some 0 ∧ w_taskSwitch.nextOn 4 1 = some 1 ∧
      w_taskSwitch.switchTo 4 0x10 (w_taskSwitch.kiln 4).mul = none ∧ w_taskSwitch.switchTo 4 0x11 (w_taskSwitch.kiln 4).vec = none ∧
      goes (.taskSwitch 4 6) w_taskSwitch (fun t => (t.kiln 4).path == some 1 && (t.kiln 4).firstBank && t.get KLN_SWITCHES_COUNT 4 == 1 &&
      t.get KLN_STARVE_CYCLES 4 == 6) = true := by unfold Live; decide +kernel

def w_taskSwitch_mul : State := ((taskS 16).putCtx 4 0 { taskX with st := .waitTile, begun := true }).putKiln 4 { mul := some 0 }

def w_taskSwitch_vec : State := ((taskS 17).putCtx 4 0 { taskX with st := .waitTile, begun := true }).putKiln 4 { vec := some 0 }

def w_taskSwitch_noswitch : State := ((taskS 3280876087174517886706967214900196778171925007150939223435991019256951853359813273144205300469858305).putCtx 4 0 { taskX with st := .waitTile, noswitch := true }).putKiln 4 { path := some 0 }

theorem test_taskSwitch_cases :
    (Live w_taskSwitch_mul ∧ 4 < w_taskSwitch_mul.kilnCount ∧ w_taskSwitch_mul.kilnFenced 4 = false ∧ w_taskSwitch_mul.starved 4 = true ∧
      (w_taskSwitch_mul.ctx 4 0).st = .waitTile ∧ (w_taskSwitch_mul.ctx 4 0).noswitch = false ∧ (w_taskSwitch_mul.kiln 4).mul = some 0 ∧
      w_taskSwitch_mul.nextOn 4 0x10 = some 1 ∧ w_taskSwitch_mul.switchTo 4 1 (w_taskSwitch_mul.kiln 4).path = none ∧
      w_taskSwitch_mul.switchTo 4 0x11 (w_taskSwitch_mul.kiln 4).vec = none ∧ goes (.taskSwitch 4 6) w_taskSwitch_mul (fun t => (t.kiln 4).mul == some 1 &&
      t.get KLN_SWITCHES_COUNT 4 == 1 && t.get KLN_STARVE_CYCLES 4 == 6) = true) ∧
    (Live w_taskSwitch_vec ∧ 4 < w_taskSwitch_vec.kilnCount ∧ w_taskSwitch_vec.kilnFenced 4 = false ∧ w_taskSwitch_vec.starved 4 = true ∧
      (w_taskSwitch_vec.ctx 4 0).st = .waitTile ∧ (w_taskSwitch_vec.ctx 4 0).noswitch = false ∧ (w_taskSwitch_vec.kiln 4).vec = some 0 ∧
      w_taskSwitch_vec.nextOn 4 0x11 = some 1 ∧ w_taskSwitch_vec.switchTo 4 1 (w_taskSwitch_vec.kiln 4).path = none ∧
      w_taskSwitch_vec.switchTo 4 0x10 (w_taskSwitch_vec.kiln 4).mul = none ∧ goes (.taskSwitch 4 6) w_taskSwitch_vec (fun t => (t.kiln 4).vec == some 1 &&
      t.get KLN_SWITCHES_COUNT 4 == 1 && t.get KLN_STARVE_CYCLES 4 == 6) = true) ∧
    (Live w_taskSwitch_noswitch ∧ w_taskSwitch_noswitch.starved 4 = true ∧ (w_taskSwitch_noswitch.kiln 4).path = some 0 ∧
      (w_taskSwitch_noswitch.kiln 4).mul = none ∧ (w_taskSwitch_noswitch.kiln 4).vec = none ∧ (w_taskSwitch_noswitch.ctx 4 0).noswitch = true ∧
      goes (.taskSwitch 4 6) w_taskSwitch_noswitch (fun t => t == w_taskSwitch_noswitch.inc KLN_STARVE_CYCLES 4 6) = true) :=
    ⟨by unfold Live; decide +kernel, by unfold Live; decide +kernel, by unfold Live; decide +kernel⟩

def w_hmul : State := { ((taskS 36037593145540624).poke (berthAddr 4 false 0x8000) [0xC0, 0x3F]).poke (berthAddr 4 false 0x8100) [0, 0x40] with ready := [(readyKey 4 false 8, true)] }

theorem test_hmul : atCommand w_hmul 4 1 16 32 36037593145540624 = true ∧ ((hmulOf 36037593145540624).map fun h => h.ok 4 &&
      (w_hmul.hearthLate 4 taskX (h.ops 0)).isEmpty && h.c.rows == 1) = some true ∧ w_hmul.mayUse 4 1 0x10 (w_hmul.kiln 4).mul = true ∧ w_hmul.veiled = [] ∧
      goes (.hmul 4 1 0 []) w_hmul (fun t => [0, 1, 2, 3].map (fun i => Tab.get (fun _ => 0) t.mem (berthAddr 4 false 0x8200 + i)) == [0, 0, 0x40, 0x40] &&
      (t.ctx 4 1).pc == 0x20020 && (t.ctx 4 1).hearth == [0] && (t.kiln 4).mul == none) = true := by decide +kernel

theorem test_hmul_waits : atCommand (taskS 36037593145540624) 4 1 16 32 36037593145540624 = true ∧
      (taskS 36037593145540624).mayUse 4 1 0x10 ((taskS 36037593145540624).kiln 4).mul = true ∧ (taskS 36037593145540624).fedByHalted 4 1 [0] = false ∧
      goes (.hmul 4 1 0 []) (taskS 36037593145540624) (fun t => (t.ctx 4 1).st == .waitTile && (t.ctx 4 1).late == [0] && (t.kiln 4).mul == some 1 &&
      t.mem == (taskS 36037593145540624).mem) = true := by decide +kernel

def w_hvec : State := { (taskS 36037594185728017).poke (berthAddr 4 false 0x8000) (leBytes 4 0x3FC00000) with ready := [(readyKey 4 false 8, true)] }

theorem test_hvec : atCommand w_hvec 4 1 17 32 36037594185728017 = true ∧ ((hvecOf 36037594185728017).map fun h => h.ok 4 &&
      (w_hvec.hearthLate 4 taskX (h.ops 0)).isEmpty && h.src.rows == 1) = some true ∧ w_hvec.mayUse 4 1 0x11 (w_hvec.kiln 4).vec = true ∧ w_hvec.veiled = [] ∧
      goes (.hvec 4 1 []) w_hvec (fun t => [0, 1].map (fun i => Tab.get (fun _ => 0) t.mem (berthAddr 4 false 0x8100 + i)) == [0xC0, 0x3F] &&
      (t.ctx 4 1).hearth == [0] && (t.kiln 4).vec == none) = true := by decide +kernel

theorem test_hvec_waits : atCommand (taskS 36037594185728017) 4 1 17 32 36037594185728017 = true ∧
      (taskS 36037594185728017).mayUse 4 1 0x11 ((taskS 36037594185728017).kiln 4).vec = true ∧ (taskS 36037594185728017).fedByHalted 4 1 [0] = false ∧
      goes (.hvec 4 1 []) (taskS 36037594185728017) (fun t => (t.ctx 4 1).st == .waitTile && (t.ctx 4 1).late == [0] && (t.kiln 4).vec == some 1 &&
      t.mem == (taskS 36037594185728017).mem) = true := by decide +kernel

theorem test_hvecCell : ((hvecOf 36037594185728017).map fun h => hvecCell { h with op := 0 } [5, 6] [] 1 == 6 && hvecCell { h with
      op := 3 } [0xFF800000, 0xFF800000] [] 1 == 0) = some true ∧ (f32 0x3F800000).isFinite = true := by decide +kernel

/-! ### Units and tasks -/

/-- A job whose one unit waits to be dispatched, with a mooring of two slots. -/
def toPlaceS : State := { jobS with jobs := [{ job0 with units := [{ unit0 with after := 0xFFFF, dispatched := false, tasks := [.waiting] }] }] }
/-- The unit is dispatched, and its task waits for a place. -/
def fullS0 : State := { jobS with jobs := [{ job0 with units := [{ unit0 with tasks := [.waiting] }] }] }
/-- The four slots of kiln 4 hold halted tasks, and a dispatched task of job 1 waits; one save frame at 1 GiB. -/
def fullS : State := { ((((jobS.putCtx 4 0 { taskX with st := .halted, job := 5, rank := 9 }).putCtx 4 1 { taskX with st := .halted, job := 6, base := 2 }).putCtx 4 2
  { taskX with st := .halted, job := 7 }).putCtx 4 3 { taskX with st := .waitBar, job := 8 }) with jobs := [{ job0 with units := [{ unit0 with tasks := [.waiting] }] }] }
def frameS : State := (fullS.put HMR_SAVE_AREA_BASE 0 0x40000000).put HMR_SAVE_AREA_FRAMES 0 1

theorem test_unitDispatch : Live toPlaceS ∧ toPlaceS.get HMR_TIDE_STATUS_RUNNING 0 ≠ 0 ∧ toPlaceS.modelWhole 7 = true ∧
      toPlaceS.chooseKiln (toPlaceS.hintOf (toPlaceS.jobs.headD job0)) 2 0 = some 0 ∧ toPlaceS.emptySlot 0 = some 0 ∧ toPlaceS.mooringFor 0 2 = some 0 ∧
      toPlaceS.dispatchFirst 0 = false ∧ ((toPlaceS.jobs.headD job0).unitReady ((toPlaceS.jobs.headD job0).units.headD unit0)) = true ∧
      goes (.unitDispatch 1 0) toPlaceS (fun t => (t.ctx 0 0) == { st := .ready, job := 1, prog := modelBase + 0x20000, pc := modelBase + 0x20000, slots := 2 } &&
      t.jobs.map (fun j => j.units.map (·.tasks)) == [[[.placed 0 0]]] && t.counts.hearthC1 == 10) = true := by unfold Live; decide +kernel

def w_unitDispatch_later : State := { toPlaceS with jobs := [{ toPlaceS.jobs.headD job0 with id := 4, rank := 8 }, { toPlaceS.jobs.headD job0 with id := 5, rank := 4 }] }

theorem test_unitDispatch_cases :
    (Live fullS0 ∧ fullS0.get HMR_TIDE_STATUS_RUNNING 0 ≠ 0 ∧ fullS0.modelWhole 7 = true ∧ fullS0.chooseKiln (fullS0.hintOf (fullS0.jobs.headD job0)) 2 0 = some 0 ∧
      fullS0.emptySlot 0 = some 0 ∧ fullS0.mooringFor 0 2 = some 0 ∧ fullS0.dispatchFirst 0 = false ∧
      goes (.unitDispatch 1 0) fullS0 (fun t => (t.ctx 0 0).st == .ready && t.counts.hearthC1 == 0) = true) ∧
    (Live w_unitDispatch_later ∧ w_unitDispatch_later.dispatchFirst ((w_unitDispatch_later.jobs.headD job0).unitRank 0) = true ∧
      goes (.unitDispatch 4 0) w_unitDispatch_later (fun t => t == w_unitDispatch_later &&
      goes (.unitDispatch 5 0) w_unitDispatch_later fun t => (t.ctx 0 0).job == 5) = true) :=
    ⟨by unfold Live; decide +kernel, by unfold Live; decide +kernel⟩

/-- Kiln 4 has a READY task none of whose slots is awaited, so that its data is ready. -/
def stallS : State := taskS 3

theorem test_kilnFault : Live stallS ∧ 4 < stallS.kilnCount ∧ stallS.kilnFenced 4 = false ∧ (2 ≠ 5 ∨ stallS.stalls 4 = true) ∧ (stallS.ctx 4 1).st = .ready ∧
      stallS.salvor.inHand = none ∧ stallS.salvor.stopped = false ∧ goes (.kilnFault 4 2) stallS (fun t => t.get KLN_FAULT_FENCED 4 == 1 &&
      t.get KLN_FAULT_SOURCE 4 == 2 && (t.ctx 4 1).reason == 6 && t.salvor.inHand.map (fun e => (e.sev, e.kind, e.unit)) == some (2, 1, 4)) = true := by
      unfold Live; decide +kernel

theorem test_kilnProgressTimeout : Live stallS ∧ 4 < stallS.kilnCount ∧ stallS.kilnFenced 4 = false ∧ stallS.stalls 4 = true ∧
      goes (.kilnProgressTimeout 4) stallS (fun t => t.get KLN_FAULT_SOURCE 4 == 5 && (t.ctx 4 1).st == .halted) = true := by unfold Live; decide +kernel

theorem test_kilnProgressTimeout_none : Live sized ∧ 4 < sized.kilnCount ∧ sized.kilnFenced 4 = false ∧ sized.stalls 4 = false ∧
      goes (.kilnProgressTimeout 4) sized (fun t => t == sized) = true := by unfold Live; decide +kernel

theorem test_kilnFault_cases :
    (Live stallS ∧ 4 < stallS.kilnCount ∧ stallS.kilnFenced 4 = false ∧ stallS.stalls 4 = true ∧
      goes (.kilnFault 4 5) stallS (fun t => t.get KLN_FAULT_SOURCE 4 == 5 && (t.ctx 4 1).st == .halted) = true) ∧
    (Live sized ∧ 4 < sized.kilnCount ∧ sized.kilnFenced 4 = false ∧ sized.stalls 4 = false ∧ goes (.kilnFault 4 5) sized (fun t => t == sized) = true) :=
    ⟨by unfold Live; decide +kernel, by unfold Live; decide +kernel⟩

theorem test_noswitchViolation : Live (jobS.putCtx 4 1 { taskX with st := .waitTile, noswitch := true }) ∧ ((jobS.putCtx 4 1 { taskX with
      st := .waitTile, noswitch := true }).ctx 4 1).noswitch = true ∧ (jobS.putCtx 4 1 { taskX with st := .waitTile, noswitch := true }).job 1 = some job0 ∧
      goes (.noswitchViolation 4 1) (jobS.putCtx 4 1 { taskX with st := .waitTile, noswitch := true }) (fun t => t.jobs == [] &&
      (t.ctx 4 1).st != .ready) = true := by unfold Live; decide +kernel

theorem test_noswitchViolation_alone : Live (sized.putCtx 4 1 { taskX with st := .ready, noswitch := true }) ∧ (sized.putCtx 4 1 { taskX with
      st := .ready, noswitch := true }).job 1 = none ∧ goes (.noswitchViolation 4 1) (sized.putCtx 4 1 { taskX with
      st := .ready, noswitch := true }) (fun t => (t.ctx 4 1).st == .frozen && (t.ctx 4 1).reason == 5 && t.get HMR_SCHED_EVENTS_FREEZES 0 == 1) = true := by
      unfold Live; decide +kernel

theorem test_taskRestart : Live (jobS.putCtx 4 1 { taskX with st := .halted, reason := 6 }) ∧ (jobS.putCtx 4 1 { taskX with
      st := .halted, reason := 6 }).job 1 = some job0 ∧ (jobS.putCtx 4 1 { taskX with st := .halted, reason := 6 }).slotHolding 1 0 0 = some (4, 1) ∧
      ((jobS.putCtx 4 1 { taskX with st := .halted, reason := 6 }).kilnFenced 4 = true ∨ (((jobS.putCtx 4 1 { taskX with
      st := .halted, reason := 6 }).ctx 4 1).st = .halted ∧ ((jobS.putCtx 4 1 { taskX with st := .halted, reason := 6 }).ctx 4 1).reason = 6)) ∧
      (jobS.putCtx 4 1 { taskX with st := .halted, reason := 6 }).mayRestart job0 4 = true ∧ 9 ≠ 4 ∧ (jobS.putCtx 4 1 { taskX with
      st := .halted, reason := 6 }).canPlaceAt 9 2 16 2 = true ∧ goes (.taskRestart 1 0 0 9 2 16 2) (jobS.putCtx 4 1 { taskX with
      st := .halted, reason := 6 }) (fun t => (t.ctx 9 2).base == 16 && (t.ctx 9 2).st == .ready && (t.ctx 4 1).st == .empty &&
      t.jobs.map (fun j => (j.retried, j.kilnRestarted)) == [(true, none)]) = true := by unfold Live; decide +kernel

def w_taskRestart_fenced : State := (jobS.putCtx 4 1 { taskX with st := .halted, reason := 6 }).put KLN_FAULT_FENCED 4 1

def w_taskRestart_used : State := { (jobS.putCtx 4 1 { taskX with st := .halted, reason := 6 }).put KLN_FAULT_FENCED 4 1 with jobs := [{ job0 with retried := true }] }

theorem test_taskRestart_cases :
    (Live w_taskRestart_fenced ∧ w_taskRestart_fenced.kilnFenced 4 = true ∧ w_taskRestart_fenced.mayRestart job0 4 = true ∧
      w_taskRestart_fenced.canPlaceAt 9 2 16 2 = true ∧ goes (.taskRestart 1 0 0 9 2 16 2) w_taskRestart_fenced (fun t => (t.ctx 9 2).st == .ready &&
      t.jobs.map (·.kilnRestarted) == [some 4]) = true) ∧
    (Live w_taskRestart_used ∧ w_taskRestart_used.slotHolding 1 0 0 = some (4, 1) ∧ w_taskRestart_used.mayRestart { job0 with retried := true } 4 = false ∧
      goes (.taskRestart 1 0 0 9 2 16 2) w_taskRestart_used (fun t => t.jobs == []) = true) :=
    ⟨by unfold Live; decide +kernel, by unfold Live; decide +kernel⟩

theorem test_taskEvict_noFrame : Live ({ frameS with evicted := [⟨2, 1, 1, ⟨taskX, 0⟩⟩] } : State) ∧ 4 < ({ frameS with
      evicted := [⟨2, 1, 1, ⟨taskX, 0⟩⟩] } : State).kilnCount ∧ ({ frameS with evicted := [⟨2, 1, 1, ⟨taskX, 0⟩⟩] } : State).kilnFenced 4 = false ∧ ({ frameS with
      evicted := [⟨2, 1, 1, ⟨taskX, 0⟩⟩] } : State).withinLimit 4 = true ∧ ({ frameS with
      evicted := [⟨2, 1, 1, ⟨taskX, 0⟩⟩] } : State).get HMR_TIDE_STATUS_RUNNING 0 ≠ 0 ∧ (List.range 4).all (fun d => ({ frameS with
      evicted := [⟨2, 1, 1, ⟨taskX, 0⟩⟩] } : State).isBlocked 4 d) = true ∧ ({ frameS with evicted := [⟨2, 1, 1, ⟨taskX, 0⟩⟩] } : State).waitingTasks ≠ [] ∧
      ({ frameS with evicted := [⟨2, 1, 1, ⟨taskX, 0⟩⟩] } : State).victim 4 = some 0 ∧ 0 < ({ frameS with
      evicted := [⟨2, 1, 1, ⟨taskX, 0⟩⟩] } : State).get HMR_SAVE_AREA_FRAMES 0 ∧ ({ frameS with evicted := [⟨2, 1, 1, ⟨taskX, 0⟩⟩] } : State).saveFrame = none ∧
      goes (.taskEvict 4) ({ frameS with evicted := [⟨2, 1, 1, ⟨taskX, 0⟩⟩] } : State) (fun t => t == ({ frameS with
      evicted := [⟨2, 1, 1, ⟨taskX, 0⟩⟩] } : State).inc HMR_SCHED_EVENTS_EVICT_NO_FRAME 0 1) = true := by unfold Live; decide +kernel

theorem test_taskEvict : Live frameS ∧ 4 < frameS.kilnCount ∧ frameS.kilnFenced 4 = false ∧ frameS.withinLimit 4 = true ∧
      frameS.get HMR_TIDE_STATUS_RUNNING 0 ≠ 0 ∧ (List.range 4).all (fun d => frameS.isBlocked 4 d) = true ∧ frameS.waitingTasks ≠ [] ∧ frameS.victim 4 = some 0 ∧
      0 < frameS.get HMR_SAVE_AREA_FRAMES 0 ∧ frameS.saveFrame = some 0 ∧
      goes (.taskEvict 4) frameS (fun t => t.evicted.map (fun e => (e.job, e.body.frame)) == [(5, 0)] && t.get HMR_SCHED_EVENTS_EVICTIONS 0 == 1) = true := by
      unfold Live; decide +kernel

def w_evictedTaskReturn : State := { jobS with evicted := [⟨1, 0, 0, ⟨{ taskX with st := .waitTile }, 0⟩⟩] }

theorem test_evictedTaskReturn : Live w_evictedTaskReturn ∧ w_evictedTaskReturn.withinLimit 9 = true ∧ w_evictedTaskReturn.canPlaceAt 9 2 16 4 = true ∧
      goes (.evictedTaskReturn 1 0 0 9 2 16 4) w_evictedTaskReturn (fun t => t.ctx 9 2 == { taskX with base := 16 } && t.evicted == []) = true := by
      unfold Live; decide +kernel

/-! ### Lookups -/

/-- Table 2 of group 1: devices 0 and 9 hold its two data slices and device 11 the parity; 16 columns of E4M3, rows below 100, epoch 4;
its map at 0x80000 puts the first page at 0x90000. -/
def tab2 : Table := { enabled := true, gen := 6, fmt := 2, paritySlot := 2, group := 1, dim := 16, rows := 100, mapPages := 1, rootCur := 0x80000, epoch := 4,
                      live := [⟨4, none⟩] }
def grp1 : Group := { held := true, d := 2, slots := [0, 9, 11] }
def tabS : State := ((sized.putTable 2 tab2).putGroup 1 grp1).poke 0x80000 (MapEntry.bytes ⟨true, false, false, 0x90000, 0, 0⟩)
/-- Section 0 of job 1: one bag of the two indices 3 and 3, its vector at 0xA0000. -/
def sect0 : Section := ⟨2, 0, 0, false, 1, 0x70000, 0x70100, 0xA0000, 64, 100, 0, [], false, false, [], false, false, []⟩
def sectS : State := ((({ tabS with jobs := [{ job0 with sections := [sect0], indices := 2 }] }).poke 0x70000 (leBytes 4 2)).poke 0x70100 (leBytes 4 3)).poke 0x70104
  (leBytes 4 3)
def sectT : State := { tabS with jobs := [{ job0 with sections := [{ sect0 with tallied := true, partBags := [[0]] }], indices := 2 }] }
/-- The part of that section, and the crane that has inserted its key. -/
def part0 : Part := ⟨2, 6, 0, 0, false, false, false, 0, 0, 0, 1, 9, 1, 0x10000, 4, 64, 0xA0000, [3], [(0, 2, true)], 0, 100⟩
def tally0 : Tally := ⟨2, 4, 3, 2, .reading, [], false, false, [], [], [], 0, 1, [], none⟩
def craneS : State := (tabS.poke 0x90018 [0x3C]).putCrane 2 { parts := [⟨part0, [⟨0, [(0, 2)], [], 0, false⟩], 1, []⟩], window := [tally0] }
/-- The group has lost slot 1, and this device, at the parity slot, stands in for it. -/
def standS : State := (sized.putTable 2 { tab2 with paritySlot := 0 }).putGroup 1 { grp1 with state := .degraded, lostSlot := 1 }

theorem test_sectionTally : Live sectS ∧ sectS.job 1 = some { job0 with sections := [sect0], indices := 2 } ∧ sect0.tallied = false ∧
      sect0.round ≤ sectS.tide ∧ sectS.sectSlots sect0 = [0, 1] ∧ (sectS.peer 9).frozen = false ∧ sectS.indicesFound { job0 with
      sections := [sect0], indices := 2 } ≤ 2 ∧ goes (.sectionTally 1 0) sectS (fun t => t.jobs.map (fun j => j.sections.map (·.partBags)) == [[[[0]]]] &&
      t.out == [.net 0 1 (.ladingPart { part0 with requester := 0 }), .net 9 1 (.ladingPart { part0 with requester := 0 })]) = true := by unfold Live; decide +kernel

theorem test_sectionTally_bad : Live (sectS.poke 0x70104 (leBytes 4 100)) ∧
      goes (.sectionTally 1 0) (sectS.poke 0x70104 (leBytes 4 100)) (fun t => t.get CRN_BAD_INDEX_COUNT 2 == 1 && t.jobs.map (·.badIndex) == [true]) = true := by
      unfold Live; decide +kernel

theorem test_pooledSlice : sectT.hears (sectT.slotDevice 2 1) = true ∧ (sectT.sectFor 0x10000 2 0 (sectT.slotFor 2 1)).isSome = true ∧
      goes (.pooledSlice 0x10000 2 0 0 1 0 [7, 8]) sectT (fun t => t.mem == Tab.insert 0xA0021 8 (Tab.insert 0xA0020 7 sectT.mem)) = true := by decide +kernel

def w_pooledSlice_old : State := { tabS with jobs := [{ job0 with sections := [{ sect0 with attempt := 1, tallied := true, partBags := [[0]] }] }] }

theorem test_pooledSlice_old : w_pooledSlice_old.hears (w_pooledSlice_old.slotDevice 2 1) = true ∧ 0 < 1 ∧
      goes (.pooledSlice 0x10000 2 0 0 1 0 [7, 8]) w_pooledSlice_old (fun t => t == w_pooledSlice_old) = true := by decide +kernel

theorem test_partDone : sectT.hears (sectT.slotDevice 2 1) = true ∧
      goes (.partDone 0x10000 2 0 1 0 0 true) sectT (fun t => t.jobs.map (fun j => j.sections.map (·.oks)) == [[[(1, 0)]]] && t.counts.pressureSeen) = true := by
      decide +kernel

theorem test_partDone_fails : sectT.hears (sectT.slotDevice 2 1) = true ∧
      goes (.partDone 0x10000 2 0 1 0x0B 0 false) sectT (fun t => t.jobs == []) = true := by decide +kernel

theorem test_ladingPart : tabS.hears 9 = true ∧ tabS.craneFor 2 = 2 ∧ tabS.lateFor part0 = false ∧ tabS.partRefusal part0 = none ∧ tabS.serving 2 ≠ .no ∧
      goes (.ladingPart part0) tabS (fun t => (t.crane 2).window.map (fun y => (y.table, y.epoch, y.index, y.total, y.st)) == [(2, 4, 3, 2, .reading)] &&
      (t.crane 2).parts.length == 1 && t.get CRN_READS_COUNT 2 == 1) = true := by decide +kernel

/-- The group is whole and this device holds the parity slot: it serves nothing of the table. -/
def idleS : State := (sized.putTable 2 { tab2 with paritySlot := 0 }).putGroup 1 grp1

theorem test_ladingPart_cases :
    ((tabS.putTable 2 { tab2 with gen := 5 }).hears 9 = true ∧ (tabS.putTable 2 { tab2 with gen := 5 }).craneFor 2 = 2 ∧ (tabS.putTable 2 { tab2 with
      gen := 5 }).lateFor part0 = false ∧ (tabS.putTable 2 { tab2 with gen := 5 }).partRefusal part0 = some 0x0B ∧
      goes (.ladingPart part0) (tabS.putTable 2 { tab2 with gen := 5 }) (fun t => t.out == [.net 9 1 (.partDone 0x10000 2 0 0 0x0B 0 (tabS.putTable 2 { tab2 with
      gen := 5 }).pressure)]) = true) ∧
    ((tabS.putTable 2 { tab2 with gen := 5 }).hears 9 = true ∧ (tabS.putTable 2 { tab2 with gen := 5 }).craneFor 2 = 2 ∧ (tabS.putTable 2 { tab2 with
      gen := 5 }).lateFor { part0 with contOut := true, entries := [(0, 2, false)] } = false ∧ (tabS.putTable 2 { tab2 with gen := 5 }).partRefusal { part0 with
      contOut := true, entries := [(0, 2, false)] } = some 0x0B ∧ goes (.ladingPart { part0 with
      contOut := true, entries := [(0, 2, false)] }) (tabS.putTable 2 { tab2 with
      gen := 5 }) (fun t => t.out == [.net 9 1 (.partDone 0x10000 2 0 0 0x0B 0 (tabS.putTable 2 { tab2 with gen := 5 }).pressure)] &&
      (t.crane 2).opened.map (·.failed) == [some 0x0B]) = true) ∧
    (tabS.hears 9 = true ∧ tabS.craneFor 2 = 2 ∧ tabS.lateFor { part0 with reserved := 1 } = false ∧ tabS.partRefusal { part0 with reserved := 1 } = some 0x01 ∧
      9 ≠ tabS.me ∧ goes (.ladingPart { part0 with reserved := 1 }) tabS (fun t => t.out == [.net 9 1 (.partDone 0x10000 2 0 0 1 0 tabS.pressure)] &&
      (t.peer 9).malformed == 1) = true) ∧
    (idleS.hears 9 = true ∧ idleS.lateFor part0 = false ∧ idleS.partRefusal part0 = none ∧ idleS.serving 2 = .no ∧
      goes (.ladingPart part0) idleS (fun t => t == idleS) = true) ∧
    (({ idleS with counts := { idleS.counts with cut := true } } : State).hears 9 = true ∧ ({ idleS with counts := { idleS.counts with
      cut := true } } : State).craneFor 2 = 2 ∧ ({ idleS with counts := { idleS.counts with cut := true } } : State).lateFor part0 = true ∧ ({ idleS with
      counts := { idleS.counts with cut := true } } : State).partRefusal part0 = none ∧ ({ idleS with counts := { idleS.counts with
      cut := true } } : State).serving 2 = .no ∧ goes (.ladingPart part0) ({ idleS with counts := { idleS.counts with
      cut := true } } : State) (fun t => t == ({ idleS with counts := { idleS.counts with cut := true } } : State).inc CRN_LATE_PARTS_COUNT 2 1) = true) ∧
    (idleS.hears 9 = true ∧ idleS.craneFor 2 = 2 ∧ idleS.lateFor { part0 with round := 99 } = true ∧ idleS.partRefusal { part0 with round := 99 } = none ∧
      idleS.serving 2 = .no ∧ goes (.ladingPart { part0 with round := 99 }) idleS (fun t => t == idleS.inc CRN_LATE_PARTS_COUNT 2 1) = true) :=
    ⟨by decide +kernel, by decide +kernel, by decide +kernel, by decide +kernel, by decide +kernel, by decide +kernel⟩

theorem test_indexCut : Live tabS ∧ goes (.indexCut) tabS (fun t => t == { tabS with counts := { tabS.counts with cut := true } }) = true := by
      unfold Live; decide +kernel

def w_slicePressureMark : State := { tabS with counts := { tabS.counts with memberReads := 10062500 } }

theorem test_slicePressureMark : Live w_slicePressureMark ∧ w_slicePressureMark.pressureLimit ≤ w_slicePressureMark.counts.memberReads ∧
      goes (.slicePressureMark) w_slicePressureMark (fun t => t.counts.pressureSent) = true := by unfold Live; decide +kernel

theorem test_recordReadReturn : Live craneS ∧ craneS.serving 2 = .data ∧ (craneS.peer 9).frozen = false ∧ 0 < craneS.elems 2 ∧
      (craneS.crane 2).parts.map (fun p => (p.inserted, p.again)) = [(1, [])] ∧
    (craneS.crane 2).window = [tally0] ∧ (match craneS.recordAddr 2 4 3 with
      | .ok a => a == some 0x90018 | .error _ => false) = true ∧
    (match craneS.read {} 0x90018 (craneS.pitch 2) with
      | .ok (bs, _) => recordElems 2 8 bs == [0x3FC00000, 0, 0, 0, 0, 0, 0, 0] | .error _ => false) = true := by unfold Live; decide +kernel

def w_recordReadReturn_hot : State := craneS.putCrane 2 { parts := [⟨part0, [⟨0, [(0, 2)], [], 0, false⟩], 1, []⟩], window := [{ tally0 with hot := some (List.replicate 8 0) }] }

theorem test_recordReadReturn_cases :
    (Live ({ craneS with mem := [] } : State) ∧ ({ craneS with mem := [] } : State).serving 2 = .data ∧ (({ craneS with
      mem := [] } : State).peer 9).frozen = false ∧ goes (.recordReadReturn 2 0) ({ craneS with mem := [] } : State) (fun t => (t.crane 2).window == [] &&
      (t.crane 2).parts == [] && t.get CRN_UNMAPPED_COUNT 2 == 1 &&
      t.out == [.net 9 1 (.pooledSlice 0x10000 2 0 0 0 0 (List.replicate 32 0)), .net 9 1 (.partDone 0x10000 2 0 0 0 0 ({ craneS with
      mem := [] } : State).pressure)]) = true) ∧
    (Live w_recordReadReturn_hot ∧ w_recordReadReturn_hot.serving 2 = .data ∧ (w_recordReadReturn_hot.peer 9).frozen = false ∧ 0 < w_recordReadReturn_hot.elems 2 ∧
      (w_recordReadReturn_hot.crane 2).raws = [] ∧ (w_recordReadReturn_hot.crane 2).parts.map (fun p => (p.hdr, p.inserted, p.again)) = [(part0, 1, [])] ∧
      goes (.recordReadReturn 2 0) w_recordReadReturn_hot (fun t => (t.crane 2).window == [] && (t.crane 2).parts == [] &&
      t.out == [.net 9 1 (.pooledSlice 0x10000 2 0 0 0 0 (List.replicate 32 0)), .net 9 1 (.partDone 0x10000 2 0 0 0 0 w_recordReadReturn_hot.pressure)]) = true) :=
    ⟨by unfold Live; decide +kernel, by unfold Live; decide +kernel⟩

theorem test_rawRequest : tabS.hears 9 = true ∧ (tabS.table 2).enabled = true ∧ (tabS.table 2).gen = 6 ∧ (tabS.table 2).holds 4 = true ∧
      (tabS.crane 2).findKey 2 4 3 = none ∧ tabS.windowRoom (tabS.crane 2) 2 = true ∧ (tabS.crane 2).parts = [] ∧ (tabS.crane 2).raws = [] ∧
      goes (.rawRequest 2 6 4 3 9 1 17) tabS (fun t => (t.crane 2).window.map (fun y => (y.index, y.total, y.st, y.askers)) == [(3, 0, .reading, [(9, 17)])] &&
      t.get CRN_READS_COUNT 2 == 1) = true := by decide +kernel

def w_rawRequest_held : State := tabS.putCrane 2 { window := [{ tally0 with st := .ready, record := [1, 2] }] }

theorem test_rawRequest_cases :
    (tabS.hears 9 = true ∧ ((tabS.table 2).enabled = false ∨ (tabS.table 2).gen ≠ 7) ∧
      goes (.rawRequest 2 7 4 3 9 1 17) tabS (fun t => t == tabS.sendRaw 2 2 3 (9, 17) 1 []) = true) ∧
    (tabS.hears 9 = true ∧ (tabS.table 2).gen = 6 ∧ (tabS.table 2).holds 3 = false ∧
      goes (.rawRequest 2 6 3 3 9 1 17) tabS (fun t => t == tabS.sendRaw 2 2 3 (9, 17) 2 []) = true) ∧
    (w_rawRequest_held.hears 9 = true ∧ (w_rawRequest_held.crane 2).findKey 2 4 3 = some 0 ∧
      goes (.rawRequest 2 6 4 3 9 1 17) w_rawRequest_held (fun t => t.out == [.net 9 1 (.rawCopy 2 3 17 0 0 [1, 2])] && t.get CRN_RAW_RAW_SENT 2 == 1) = true) :=
    ⟨by decide +kernel, by decide +kernel, by decide +kernel⟩

/-- A record of three slots is rebuilt. -/
def copyS (y : Tally) : State := tabS.putCrane 2 { window := [{ y with record := List.replicate 8 3 }] }

theorem test_rawCopy : (copyS { tally0 with st := .rebuilding }).hears 9 = true ∧ 2 < 32 ∧ (copyS { tally0 with st := .rebuilding }).slotDevice 2 1 = 9 ∧
      1 ∉ ([] : List Nat) ∧ 0 + 1 < ((copyS { tally0 with st := .rebuilding }).group 1).d ∧
      goes (.rawCopy 2 0 ⟨1, 9⟩ 0 [1, 2, 3, 4, 5, 6, 7, 8]) (copyS { tally0 with
      st := .rebuilding }) (fun t => (t.crane 2).window.map (fun y => (y.record, y.copies)) == [([2, 1, 0, 7, 6, 5, 4, 11], [1])] &&
      t.get CRN_RAW_RAW_RECEIVED 2 == 1) = true := by decide +kernel

/-- One copy is still to come. -/
def lastCopyS : State := copyS { tally0 with st := .rebuilding, copies := [1] }

def w_rawCopy_stand : State := standS.putCrane 2 { window := [{ tally0 with record := List.replicate 8 3, lost := true, parityIn := true }] }

def w_rawCopy_parity : State := standS.putCrane 2 { window := [{ tally0 with record := [], lost := true }] }

theorem test_rawCopy_cases :
    (tabS.hears 9 = true ∧ 2 < 32 ∧ (tabS.crane 2).window[0]? = none ∧ goes (.rawCopy 2 0 ⟨1, 9⟩ 0 [1]) tabS (fun t => t == tabS.inc CRN_RAW_RAW_RECEIVED 2 1) = true) ∧
    ((copyS tally0).hears 9 = true ∧ 2 < 32 ∧ tally0.st = .reading ∧ tally0.lost = false ∧
      goes (.rawCopy 2 0 ⟨1, 9⟩ 0 [1]) (copyS tally0) (fun t => t == (copyS tally0).inc CRN_RAW_RAW_RECEIVED 2 1) = true) ∧
    ((copyS { tally0 with st := .rebuilding, copies := [1] }).hears 9 = true ∧ 2 < 32 ∧ (copyS { tally0 with
      st := .rebuilding, copies := [1] }).slotDevice 2 1 = 9 ∧ 1 ∈ [1] ∧ goes (.rawCopy 2 0 ⟨1, 9⟩ 0 [1]) (copyS { tally0 with
      st := .rebuilding, copies := [1] }) (fun t => t == (copyS { tally0 with st := .rebuilding, copies := [1] }).inc CRN_RAW_RAW_RECEIVED 2 1) = true) ∧
    (lastCopyS.hears 11 = true ∧ lastCopyS.slotDevice 2 2 = 11 ∧ (lastCopyS.group 1).d ≤ 1 + 1 ∧
    (match lastCopyS.recordAddr 2 4 3 with
      | .ok a => a == some 0x90018 | .error _ => false) = true) ∧
    (w_rawCopy_stand.serving 2 = .rebuilt ∧ w_rawCopy_stand.hears 11 = true ∧ w_rawCopy_stand.slotDevice 2 2 = 11 ∧ (w_rawCopy_stand.group 1).d ≤ 0 + 2 ∧
      goes (.rawCopy 2 0 ⟨2, 11⟩ 0 [1]) w_rawCopy_stand (fun t => (t.crane 2).window == [] && t.get CRN_RAW_RAW_RECEIVED 2 == 1) = true) ∧
    (w_rawCopy_parity.hears 11 = true ∧ w_rawCopy_parity.slotDevice 2 2 = 11 ∧
      goes (.rawCopy 2 0 ⟨2, 11⟩ 0 [1, 2, 3, 4, 5, 6, 7, 8]) w_rawCopy_parity (fun t => (t.crane 2).window.map (fun y => (y.record, y.copies)) == [([1, 2, 3, 4, 5, 6, 7, 8], [2])]) = true) :=
    ⟨by decide +kernel, by decide +kernel, by decide +kernel, by decide +kernel, by decide +kernel, by decide +kernel⟩

/-! ### Tables -/

/-- Directories at 0x60000 and 0x61000 with the entry of table 2 and the record of group 1, mastered by device m. -/
def dirS (m : Nat) : State := ((((((sized.put CRN_TABLE_DIR_BASE 0 0x60000).put CRN_TABLE_DIR_TABLES 0 5).put CRN_GROUP_DIR_BASE 0 0x61000).put
  CRN_GROUP_DIR_GROUPS 0 3).poke 0x60080 (leBytes 64 107839786674879660914054919517875900362741376393855505466745434537990)).poke 0x61040 (leBytes 64 (3405015128808328984883363842 + 2 ^ 32 * m)))

theorem test_tableEnable : HostUp (dirS 0) ∧ (dirS 0).tableFree 1 2 = true ∧ (match (dirS 0).tableInMemory 2 with
      | .ok (some bs, _) => bs == leBytes 64 107839786674879660914054919517875900362741376393855505466745434537990 && tableEntryOk bs 2 &&
      tableShapeOk (tableEntryOf bs) 2 | _ => false) = true ∧ (dirS 0).mustAsk (groupOf (leBytes 64 3405015128808328984883363842)) = false ∧
      goes (.tableEnable 2 none) (dirS 0) (fun t => (t.table 2) == { tab2 with live := [⟨4, none⟩], rootChange := 4 } && (t.group 1).slots == [0, 9, 11] &&
      t.get CRN_TABLE_RESULT_RESULT 0 == 1) = true := by unfold HostUp; decide +kernel

def w_tableEnable_begun : State := (((dirS 0).put CRN_TABLE_CTL_BUSY 0 1).put CRN_TABLE_CTL_OP 0 1).put CRN_TABLE_CTL_TABLE 0 2

theorem test_tableEnable_cases :
    (HostUp ((dirS 0).putTable 2 tab2) ∧ ((dirS 0).putTable 2 tab2).tableFree 1 2 = true ∧ (((dirS 0).putTable 2 tab2).table 2).enabled = true ∧
      goes (.tableEnable 2 none) ((dirS 0).putTable 2 tab2) (fun t => t == ((((dirS 0).putTable 2 tab2).put CRN_TABLE_RESULT_RESULT 0 1).put CRN_TABLE_CTL_DONE 0 1).put CRN_TABLE_CTL_BUSY 0 0) = true) ∧
    (HostUp w_tableEnable_begun ∧ w_tableEnable_begun.tableFree 1 2 = true ∧ (match w_tableEnable_begun.tableInMemory 2 with
      | .ok (some bs, _) => bs == leBytes 64 107839786674879660914054919517875900362741376393855505466745434537990 && tableEntryOk bs 2 &&
      tableShapeOk (tableEntryOf bs) 2 | _ => false) = true ∧ goes (.tableEnable 2 none) w_tableEnable_begun (fun t => (t.table 2).enabled &&
      t.get CRN_TABLE_CTL_BUSY 0 == 0) = true) ∧
    (HostUp (dirS 0) ∧ (dirS 0).get CRN_TABLE_DIR_TABLES 0 < 6 ∧
      goes (.tableEnable 6 none) (dirS 0) (fun t => t == (((dirS 0).put CRN_TABLE_RESULT_RESULT 0 3).put CRN_TABLE_CTL_DONE 0 1).put CRN_TABLE_CTL_BUSY 0 0) = true) ∧
    (HostUp ((dirS 0).poke 0x60080 [7, 0, 0x82]) ∧ goes (.tableEnable 2 none) ((dirS 0).poke 0x60080 [7, 0, 0x82]) (fun t => t.get CRN_TABLE_RESULT_RESULT 0 == 2 &&
      (t.table 2) == {}) = true) ∧
    (HostUp ({ dirS 9 with pod := { (dirS 9).pod with members := [9] } } : State) ∧ ({ dirS 9 with pod := { (dirS 9).pod with
      members := [9] } } : State).mustAsk (groupOf (leBytes 64 3405015128808329023538069506)) = true ∧ goes (.tableEnable 2 none) ({ dirS 9 with
      pod := { (dirS 9).pod with members := [9] } } : State) (fun t => t.get CRN_TABLE_CTL_BUSY 0 == 1 && t.out == ((({ dirS 9 with pod := { (dirS 9).pod with
      members := [9] } } : State).sendVc0 9 (.epochRequest 2 6 1 4 0)).out)) = true) ∧
    (HostUp ({ dirS 9 with pod := { (dirS 9).pod with members := [9] } } : State) ∧ ({ dirS 9 with pod := { (dirS 9).pod with
      members := [9] } } : State).tableFree 1 2 = true ∧ ({ dirS 9 with pod := { (dirS 9).pod with
      members := [9] } } : State).mustAsk (groupOf (leBytes 64 3405015128808329023538069506)) = true ∧
      goes (.tableEnable 2 (some ⟨9, [⟨8, none⟩, ⟨9, none⟩], 1, 2, [0, 9, 12]⟩)) ({ dirS 9 with pod := { (dirS 9).pod with
      members := [9] } } : State) (fun t => (t.table 2).epoch == 9 && (t.table 2).live.length == 2 && (t.group 1).slots == [0, 9, 12] &&
      (t.group 1).lostSlot == 2) = true) :=
    ⟨by unfold HostUp; decide +kernel, by unfold HostUp; decide +kernel, by unfold HostUp; decide +kernel, by unfold HostUp; decide +kernel,
     by unfold HostUp; decide +kernel, by unfold HostUp; decide +kernel⟩

theorem test_tableDisable : HostUp ((dirS 0).putTable 2 tab2) ∧ ((dirS 0).putTable 2 tab2).tableFree 2 2 = true ∧
      (((dirS 0).putTable 2 tab2).table 2).enabled = true ∧ 2 ≤ ((dirS 0).putTable 2 tab2).get CRN_TABLE_DIR_TABLES 0 ∧ ((dirS 0).putTable 2 tab2).conss = [] ∧
      goes (.tableDisable 2) ((dirS 0).putTable 2 tab2) (fun t => (t.table 2).disabling && t.get CRN_TABLE_CTL_BUSY 0 == 1) = true := by unfold HostUp; decide +kernel

theorem test_tableDisableDone : (((dirS 0).putTable 2 { tab2 with disabling := true }).table 2).disabling = true ∧ ((dirS 0).putTable 2 { tab2 with
      disabling := true }).tableUsed 2 = false ∧ goes (.tableDisableDone 2) ((dirS 0).putTable 2 { tab2 with disabling := true }) (fun t => (t.table 2) == {} &&
      t.get CRN_TABLE_CTL_DONE 0 == 1) = true := by decide +kernel

theorem test_groupMasterEpochRequest : Live ((dirS 0).putMaster 2 ⟨true, 6, 8, [⟨7, none⟩, ⟨8, none⟩]⟩) ∧
      (((dirS 0).putMaster 2 ⟨true, 6, 8, [⟨7, none⟩, ⟨8, none⟩]⟩).groupRecord 1).map (·.master) = some ((dirS 0).putMaster 2 ⟨true, 6, 8, [⟨7, none⟩, ⟨8, none⟩]⟩).me ∧
      (((dirS 0).putMaster 2 ⟨true, 6, 8, [⟨7, none⟩, ⟨8, none⟩]⟩).master 2).gen = 6 ∧
      goes (.groupMasterEpochRequest 2 6 1 4 9) ((dirS 0).putMaster 2 ⟨true, 6, 8, [⟨7, none⟩, ⟨8, none⟩]⟩) (fun t => t == ((dirS 0).putMaster 2 ⟨true, 6, 8, [⟨7, none⟩, ⟨8, none⟩]⟩).sendVc0 9 (.epochAnswer 2 8 [⟨7, none⟩, ⟨8, none⟩] 0 0 [0, 9, 11])) = true := by
      unfold Live; decide +kernel

theorem test_groupMasterEpochRequest_new : Live (dirS 0) ∧ ((dirS 0).master 2).known = false ∧
      goes (.groupMasterEpochRequest 2 6 1 4 9) (dirS 0) (fun t => t == (dirS 0).sendVc0 9 (.epochAnswer 2 4 [⟨4, none⟩] 0 0 [0, 9, 11])) = true := by
      unfold Live; decide +kernel

/-! ### Warehouse -/

theorem test_warehouseRead : Live (sized.poke 0x400000001000 [0x12, 0x34]) ∧ readWindow false 0x400000001000 = true ∧ oneAccess 0x400000001000 3 = true ∧
      (sized.poke 0x400000001000 [0x12, 0x34]).veiled = [] ∧ (sized.poke 0x400000001000 [0x12, 0x34]).firstBad 0x400000001000 3 = none ∧
      goes (.warehouseRead 0x400000001000 3 ⟨0, false⟩ []) (sized.poke 0x400000001000 [0x12, 0x34]) (fun t => t.out == [.response 0x400000001000 [0x12, 0x34, 0]]) = true := by
      unfold Live; decide +kernel

def w_warehouseRead_weak : State := { sized.poke 0x400000001000 [0x12] with ecc := [(0x400000001000 / 8, false)] }

theorem test_warehouseRead_cases :
    (Live ({ sized with ecc := [(0x400000001000 / 8, true)] } : State) ∧ ({ sized with
      ecc := [(0x400000001000 / 8, true)] } : State).firstBad 0x400000001000 3 = some 0x400000001000 ∧
      goes (.warehouseRead 0x400000001000 3 ⟨0, false⟩ []) ({ sized with
      ecc := [(0x400000001000 / 8, true)] } : State) (fun t => t.out.getLast? == some (.poisoned 0x400000001000)) = true) ∧
    (Live (sized.putWayStopped 0 0 true) ∧ (match (sized.putWayStopped 0 0 true).locate {} false 0x400000001000 with | .ok _ => false | .error _ => true) = true ∧
      goes (.warehouseRead 0x400000001000 3 ⟨0, false⟩ []) (sized.putWayStopped 0 0 true) (fun t => t == (sized.putWayStopped 0 0 true).send (.accessRefused 0x400000001000)) = true) ∧
    (Live w_warehouseRead_weak ∧ w_warehouseRead_weak.badWord (0x400000001000 / 8) = false ∧ w_warehouseRead_weak.weakWord (0x400000001000 / 8) = true ∧
      goes (.warehouseRead 0x400000001000 3 ⟨0, false⟩ []) w_warehouseRead_weak (fun t => t.out.getLast? == some (.response 0x400000001000 [0x12, 0, 0]) &&
      t.weakWord (0x400000001000 / 8) == false) = true) ∧
    (Live (sized.put CUS_DEBUG_STATUS_LEVEL 0 2) ∧ readWindow true (wayAddr 0 2 0) = true ∧ (sized.put CUS_DEBUG_STATUS_LEVEL 0 2).wayUse 0 2 = 1 ∧
      (sized.put CUS_DEBUG_STATUS_LEVEL 0 2).debugMay true = true ∧
      goes (.warehouseRead (wayAddr 0 2 0) 3 ⟨0, true⟩ []) (sized.put CUS_DEBUG_STATUS_LEVEL 0 2) (fun t => t.out == [.response (wayAddr 0 2 0) [0, 0, 0]]) = true) ∧
    (Live sized ∧ sized.debugDeep = false ∧ goes (.warehouseRead 0x400000001000 3 ⟨0, true⟩ []) sized (fun t => t == sized) = true) :=
    ⟨by unfold Live; decide +kernel, by unfold Live; decide +kernel, by unfold Live; decide +kernel, by unfold Live; decide +kernel,
     by unfold Live; decide +kernel⟩

theorem test_warehouseWrite_shut : Live sized ∧ sized.debugDeep = false ∧
      goes (.warehouseWrite 0x400000001000 ⟨1, true⟩ [1]) sized (fun t => t == sized) = true := by unfold Live; decide +kernel

theorem test_bitSetWrite_bad : Live ({ sized with ecc := [(0x400000001000 / 8, true)] } : State) ∧ oneAccess 0x1004 8 = true ∧ ({ sized with
      ecc := [(0x400000001000 / 8, true)] } : State).badWord (0x400000001000 / 8) = true ∧ ({ sized with
      ecc := [(0x400000001000 / 8, true)] } : State).badWord (0x400000001008 / 8) = false ∧ bit (({ sized with
      ecc := [(0x400000001000 / 8, true)] } : State).wayClasses 0 0) 1 = true ∧
      goes (.bitSetWrite (whsBase + viewStep + 0x1004) ⟨1, false⟩ (List.replicate 8 1)) ({ sized with
      ecc := [(0x400000001000 / 8, true)] } : State) (fun t => t.mem.map (·.1) == (List.range 4).map (0x400000001008 + ·) &&
      t.out.contains (.poisoned 0x400000001000)) = true := by unfold Live; decide +kernel

theorem test_bitSetWrite : Live (sized.poke 0x400000001000 [0xF0]) ∧ bit ((sized.poke 0x400000001000 [0xF0]).wayClasses 0 0) 1 = true ∧
      goes (.bitSetWrite (whsBase + viewStep + 0x1000) ⟨1, false⟩ [0x11]) (sized.poke 0x400000001000 [0xF0]) (fun t => t.mem == [(0x400000001000, 0xF1)]) = true := by
      unfold Live; decide +kernel

theorem test_bitClearWrite : Live (sized.poke 0x400000001000 [0xF0]) ∧ bit ((sized.poke 0x400000001000 [0xF0]).wayClasses 0 0) 1 = true ∧
      goes (.bitClearWrite (whsBase + 2 * viewStep + 0x1000) ⟨1, false⟩ [0x31]) (sized.poke 0x400000001000 [0xF0]) (fun t => t.mem == [(0x400000001000, 0xC0)]) = true := by
      unfold Live; decide +kernel

theorem test_warehouseWrite_cases :
    (Live (sized.poke 0x400000001000 [0xFF]) ∧ oneAccess 0x1000 2 = true ∧ wayOf 0x1000 = (0, 0) ∧ (sized.poke 0x400000001000 [0xFF]).wayStopped 0 0 = false ∧
      (sized.poke 0x400000001000 [0xFF]).wayUse 0 0 = 0 ∧ bit ((sized.poke 0x400000001000 [0xFF]).wayClasses 0 0) 1 = true ∧
      goes (.warehouseWrite 0x400000001000 ⟨1, false⟩ [0x12, 0x34]) (sized.poke 0x400000001000 [0xFF]) (fun t => t.mem == [(0x400000001000, 0x12), (0x400000001001, 0x34)]) = true) ∧
    (Live (sized.put WHS_WAY_USE 0 2) ∧ (sized.put WHS_WAY_USE 0 2).wayUse 0 0 ≠ 0 ∧
      goes (.warehouseWrite 0x400000001000 ⟨1, false⟩ [0x12]) (sized.put WHS_WAY_USE 0 2) (fun t => t == (sized.put WHS_WAY_USE 0 2).send (.accessRefused 0x400000001000)) = true) :=
    ⟨by unfold Live; decide +kernel, by unfold Live; decide +kernel⟩

theorem test_wayStop : HostUp up ∧ up.wayStopping 0 0 = false ∧ up.wayUse 0 0 = 0 ∧ goes (.wayStop 0 0) up (fun t => t.wayStopping 0 0 &&
      t.wayStopped 0 0) = true := by unfold HostUp; decide +kernel

/-- A state that holds no model has none that is idle in a way. -/
theorem idle_none (s : State) (h : s.models = []) (d w m : Nat) : s.idleIn d w m = false := by
  have e : s.model m = {} := by simp [State.model, h, Tab.get, Tab.find]
  simp [State.idleIn, e]

theorem test_wayStop_cases :
    (HostUp (up.put WHS_WAY_USE 3 2) ∧ (up.put WHS_WAY_USE 3 2).wayStopping 0 3 = false ∧ (up.put WHS_WAY_USE 3 2).wayUse 0 3 = 2 ∧
      goes (.wayStop 0 3) (up.put WHS_WAY_USE 3 2) (fun t => t.wayStopping 0 3 && !t.wayStopped 0 3) = true) ∧
    (HostUp up ∧ up.wayStopping 0 2 = false ∧ up.wayUse 0 2 = 1 ∧ up.models = [] ∧ goes (.wayStop 0 2) up (fun t => t == up.putWayStop 0 2 true) = true) :=
    ⟨by unfold HostUp; decide +kernel, by unfold HostUp; decide +kernel⟩

theorem test_wayStopped_cache : (up.putWayStop 0 2 true).wayStopping 0 2 = true ∧ (up.putWayStop 0 2 true).wayStopped 0 2 = false ∧
      (up.putWayStop 0 2 true).wayUse 0 2 = 1 ∧ (up.putWayStop 0 2 true).models = [] ∧ (up.putWayStop 0 2 true).leaving 0 2 = [] ∧
      goes (.wayStopped 0 2) (up.putWayStop 0 2 true) (fun t => t == ((up.putWayStop 0 2 true).putWayStopped 0 2 true).putWayBlocked 0 2 false) = true := by
      decide +kernel

def w_wayStopped : State := { (up.put WHS_WAY_USE 3 2).putWayStop 0 3 true with hot := [(16 * 5 + 3, ⟨64, 1⟩), (16 * 5 + 4, ⟨128, 1⟩)] }

/-- Way 2 caches block 0 of model 7, which job 1 uses, and its stop bit is set; n is the classes of the die's other cache ways. -/
def moveS (n : Nat) : State := { ((([3, 4, 5, 6, 7].foldl (fun s w => s.put WHS_WAY_CLASSES w n) up).putWayStop 0 2 true).poke (cacheAddr 448) [9]) with
  models := [(7, { st := .resident, blocks := [(0, 448)], cls := 1 })], jobs := [job0] }

theorem moveS_busy (n m : Nat) : (moveS n).idleIn 0 2 m = false := by
  by_cases h : m = 7
  · subst h
    simp [State.idleIn, State.modelRuns, moveS, job0, unit0]
  · have e : (moveS n).model m = {} := by simp [moveS, State.model, Tab.get, Tab.find, Ne.symm h]
    simp [State.idleIn, e]

theorem test_wayStopped_cases :
    (w_wayStopped.wayStopping 0 3 = true ∧ w_wayStopped.wayStopped 0 3 = false ∧ w_wayStopped.wayUse 0 3 = 2 ∧
      goes (.wayStopped 0 3) w_wayStopped (fun t => t.wayStopped 0 3 && t.hot.length == 1) = true) ∧
    ((moveS 15).wayStopping 0 2 = true ∧ (moveS 15).wayStopped 0 2 = false ∧ (moveS 15).wayUse 0 2 = 1 ∧ (moveS 15).leaving 0 2 ≠ [] ∧
      goes (.wayStopped 0 2) (moveS 15) (fun t => t == (moveS 15)) = true) :=
    ⟨by decide +kernel, by decide +kernel⟩

theorem test_modelBlockMove : (moveS 15).wayStopping 0 2 = true ∧ (moveS 15).wayStopped 0 2 = false ∧ (moveS 15).wayUse 0 2 = 1 ∧
      (moveS 15).leaving 0 2 = [(448, 1)] ∧ ((moveS 15).freeBlocks 0 1 (moveS 15).usedBlocks).head? = some 672 ∧
      goes (.modelBlockMove 0 2) (moveS 15) (fun t => t.models.map (fun e => e.2.blocks) == [[(0, 672)]]) = true := by decide +kernel

theorem test_modelBlockMove_blocked : (moveS 0).leaving 0 2 = [(448, 1)] ∧ (moveS 0).freeBlocks 0 1 (moveS 0).usedBlocks = [] ∧
      goes (.modelBlockMove 0 2) (moveS 0) (fun t => t == (moveS 0).putWayBlocked 0 2 true) = true := by decide +kernel

def w_wayRestart_tested : State := { (up.putWayStop 0 0 true).putWayStopped 0 0 true with dock := { up.dock with destruct := [(0, [0])] } }

theorem test_wayRestart_tested : HostUp w_wayRestart_tested ∧ 16 * 0 + 0 ∉ w_wayRestart_tested.dock.heldWays ∧ w_wayRestart_tested.wayStopping 0 0 = true ∧
      w_wayRestart_tested.wayTested 0 0 = true ∧ goes (.wayRestart 0 0) w_wayRestart_tested (fun t => t == w_wayRestart_tested.putWayStop 0 0 false &&
      t.wayStopped 0 0) = true := by unfold HostUp; decide +kernel

def w_wayRestart_changed : State := { ((up.putWayStop 0 0 true).putWayStopped 0 0 true).poke (wayAddr 0 0 5) [9] with dock := { up.dock with changedWays := [0] } }

theorem test_wayRestart_cases :
    (HostUp w_wayRestart_changed ∧ 16 * 0 + 0 ∉ w_wayRestart_changed.dock.heldWays ∧ w_wayRestart_changed.wayStopping 0 0 = true ∧
      w_wayRestart_changed.wayTested 0 0 = false ∧ 16 * 0 + 0 ∈ w_wayRestart_changed.dock.changedWays ∧
      goes (.wayRestart 0 0) w_wayRestart_changed (fun t => !t.wayStopped 0 0 && Tab.get (memDefault t.undef) t.mem (wayAddr 0 0 5) == 0 &&
      t.dock.changedWays == []) = true) ∧
    (HostUp ((up.putWayStop 0 0 true).putWayStopped 0 0 true) ∧ 16 * 0 + 0 ∉ ((up.putWayStop 0 0 true).putWayStopped 0 0 true).dock.heldWays ∧
      ((up.putWayStop 0 0 true).putWayStopped 0 0 true).wayStopping 0 0 = true ∧ ((up.putWayStop 0 0 true).putWayStopped 0 0 true).wayTested 0 0 = false ∧
      ((up.putWayStop 0 0 true).putWayStopped 0 0 true).wayUse 0 0 ≠ 2 ∧
      goes (.wayRestart 0 0) ((up.putWayStop 0 0 true).putWayStopped 0 0 true) (fun t => !t.wayStopping 0 0 && !t.wayStopped 0 0) = true) :=
    ⟨by unfold HostUp; decide +kernel, by unfold HostUp; decide +kernel⟩

/-! ### March tests and repair -/

def w_destructStart : State := ((up.putWayStop 0 1 true).putWayStopped 0 1 true).put DDK_MARCH_CTRL_DESTRUCT_WAYS 0 2

theorem test_destructStart : HostUp w_destructStart ∧ 0 ∉ w_destructStart.dock.stopped ∧ w_destructStart.get DDK_MARCH_STATUS_DESTRUCT_BUSY 0 = 0 ∧
      (List.range 16).filter (fun w => bit (w_destructStart.get DDK_MARCH_CTRL_DESTRUCT_WAYS 0) w) = [1] ∧ w_destructStart.wayStopped 0 1 = true ∧
      goes (.destructStart 0) w_destructStart (fun t => t.dock.destruct == [(0, [1])] && t.get DDK_MARCH_STATUS_DESTRUCT_BUSY 0 == 1) = true := by
      unfold HostUp; decide +kernel

theorem test_destructStart_refused : HostUp (up.put DDK_MARCH_CTRL_DESTRUCT_WAYS 0 2) ∧ 0 ∉ (up.put DDK_MARCH_CTRL_DESTRUCT_WAYS 0 2).dock.stopped ∧
      (up.put DDK_MARCH_CTRL_DESTRUCT_WAYS 0 2).get DDK_MARCH_STATUS_DESTRUCT_BUSY 0 = 0 ∧
      (List.range 16).filter (fun w => bit ((up.put DDK_MARCH_CTRL_DESTRUCT_WAYS 0 2).get DDK_MARCH_CTRL_DESTRUCT_WAYS 0) w) = [1] ∧
      (up.put DDK_MARCH_CTRL_DESTRUCT_WAYS 0 2).wayStopped 0 1 = false ∧
      goes (.destructStart 0) (up.put DDK_MARCH_CTRL_DESTRUCT_WAYS 0 2) (fun t => t == (up.put DDK_MARCH_CTRL_DESTRUCT_WAYS 0 2).put DDK_MARCH_STATUS_DESTRUCT_REFUSED 0 1) = true := by
      unfold HostUp; decide +kernel

def w_destructiveTestDone : State := { ((up.putWayStop 0 1 true).putWayStopped 0 1 true).poke (wayAddr 0 1 5) [9] with dock := { up.dock with destruct := [(0, [1])] } }

theorem test_destructiveTestDone : w_destructiveTestDone.dock.destruct.find? (fun x => x.1 == 0) = some (0, [1]) ∧
      w_destructiveTestDone.wayStopping 0 1 = true ∧ goes (.destructiveTestDone 0 true) w_destructiveTestDone (fun t => t.mem == [] &&
      t.get DDK_MARCH_STATUS_FAIL 0 == 1 && t.dock.destruct == [] && t.wayStopped 0 1) = true := by decide +kernel

def w_destructiveTestDone_restarted : State := { up.putWayStopped 0 1 true with dock := { up.dock with destruct := [(0, [1])] } }

theorem test_destructiveTestDone_restarted : w_destructiveTestDone_restarted.wayStopping 0 1 = false ∧
      goes (.destructiveTestDone 0 false) w_destructiveTestDone_restarted (fun t => t.get DDK_MARCH_STATUS_FAIL 0 == 0 && t.dock.destruct == [] &&
      !t.wayStopped 0 1) = true := by decide +kernel

/-- A tide runs and engine 0 tests one row a tide. -/
def marchS : State := tide.put DDK_MARCH_CTRL_ROWS_PER_TIDE 0 1

theorem test_preservingPass : marchS.visits 0 whsBase = true ∧ marchS.ecc = [] ∧
      goes (.preservingPass 0 whsBase false 5 []) marchS (fun t => t.get DDK_MARCH_STATUS_PASSES 0 == 1 && t.mem == marchS.mem && t.rowsRun 0 == 1 &&
      t.visits 0 whsBase == false) = true := by decide +kernel

theorem test_preservingPass_fault : marchS.visits 0 whsBase = true ∧ marchS.ecc = [] ∧ marchS.replaced whsBase 5 = false ∧
      goes (.preservingPass 0 whsBase true 5 []) marchS (fun t => t.get DDK_MARCH_STATUS_FAIL 0 == 1) = true := by decide +kernel

theorem test_marchPassAbort : marchS.visits 0 whsBase = true ∧ goes (.marchPassAbort 0 whsBase []) marchS (fun t => t.get DDK_MARCH_ABORTS_COUNT 0 == 1 &&
      t.dock.retry == [(0, whsBase)] && t.mem == marchS.mem) = true := by decide +kernel

theorem test_marchPassAbort_lost : marchS.visits 0 whsBase = true ∧ whsBase / 8 ∈ rowWords whsBase ∧
      goes (.marchPassAbort 0 whsBase [whsBase / 8]) marchS (fun t => Tab.find (whsBase / 8) t.ecc == some true && t.mem == marchS.mem) = true := by decide +kernel

theorem test_repairBurn : HostUp up ∧ up.get DDK_REPAIR_BUSY 0 = 0 ∧ (⟨0, 5, 2, 7⟩ : Repair).valid = true ∧
      goes (.repairBurn 0 5 2 7) up (fun t => t.dock.burn == some ⟨0, 5, 2, 7⟩ && t.get DDK_REPAIR_BUSY 0 == 1) = true := by unfold HostUp; decide +kernel

def w_repairBurn_twice : State := { up with dock := { up.dock with burned := [⟨0, 5, 2, 9⟩] } }

theorem test_repairBurn_cases :
    (HostUp up ∧ (⟨0, 128, 2, 7⟩ : Repair).valid = false ∧ goes (.repairBurn 0 128 2 7) up (fun t => t.get DDK_REPAIR_STATUS_RESULT 0 == 3 &&
      t.dock.burn == none) = true) ∧
    (HostUp w_repairBurn_twice ∧ (⟨0, 5, 2, 9⟩ : Repair).sameMacro ⟨0, 5, 2, 7⟩ = true ∧
      goes (.repairBurn 0 5 2 7) w_repairBurn_twice (fun t => t.get DDK_REPAIR_STATUS_RESULT 0 == 2 && t.dock.burn == none) = true) :=
    ⟨by unfold HostUp; decide +kernel, by unfold HostUp; decide +kernel⟩

/-! ### Consignments -/

/-- An open consignment of device 0 alone that prepares; its one action is still to do. -/
def cons0 : Cons := { id := 5, job := 0, scope := false, group := 1, participants := 2, prepTides := 10, notBefore := 0, actions := [], admitTide := 99,
                      phase := .preparing, next := 0, undo := [], wrote := [], heldBlocks := [], swaps := [], voteTide := none, inDoubt := false }
/-- Table 2 is enabled, channel set 0 is staging, and the consignment's one action is a. -/
def actS (a : Action) : State := { tabS.put HBM_CHSET_USE 0 1 with conss := [{ cons0 with actions := [a] }] }
def preparing (s : State) (id : Nat) (a : Action) : Bool :=
  s.live && s.flag HMR_TIDE_STATUS_RUNNING 0 && (match s.cons id with | some c => c.phase == .preparing && c.actions[c.next]? == some a | none => false)

theorem preparing_holds {s : State} {id : Nat} {a : Action} (h : preparing s id a = true) : ∃ c, Preparing s id c a := by
  unfold preparing at h
  cases e : s.cons id with
  | none => simp [e] at h
  | some c =>
    simp only [e, Bool.and_eq_true, beq_iff_eq] at h
    refine ⟨c, ?_, by simpa [State.flag] using h.1.2, e, h.2.1, h.2.2⟩
    unfold Live
    have hl := h.1.1
    unfold State.live at hl
    simpa [State.flag, and_assoc] using hl

/-- Model 7 has two blocks, the first in cache block 448; block 0 has a copy. -/
def modS (st : ModelState) (a : Action) : State := { actS a with
  models := [(7, { st := st, image := 0x100000, bytes := 0x20000, blocks := [(0, 448)], cls := 1, copies := [(0, 0, List.replicate 64 7)] })] }
/-- Device 0 is the pod master, and logs what is given. -/
def logS (l : List Logged) : State := { sized with decisions := l }
def dec0 : Decision := ⟨5, 1, 0, 120, [(2, 5)]⟩
def logged0 : Logged := ⟨dec0, [9], [], 100, [], none⟩
def vote0 : Vote := ⟨5, 1, 9, 1, 0, 2, 0, 4, [(2, 6, 4)]⟩

def w_consignmentPrepare : State := { actS (.pageWrite false 2 7 0x150000 0x150000) with conss := [{ cons0 with phase := .admitted, actions := [(.pageWrite false 2 7 0x150000 0x150000)] }] }

theorem test_consignmentPrepare : Live w_consignmentPrepare ∧ w_consignmentPrepare.stagingOk 0x150000 = true ∧
      goes (.consignmentPrepare 5) w_consignmentPrepare (fun t => t.conss.map (·.phase) == [.preparing]) = true := by unfold Live; decide +kernel

def w_consignmentPrepare_staging : State := { tabS with conss := [{ cons0 with phase := .admitted, actions := [(.pageWrite false 2 7 0x150000 0x150000)] }] }

theorem test_consignmentPrepare_staging : Live w_consignmentPrepare_staging ∧ w_consignmentPrepare_staging.stagingOk 0x150000 = false ∧
      goes (.consignmentPrepare 5) w_consignmentPrepare_staging (fun t => t == w_consignmentPrepare_staging.prepareFails 5 7 && t.conss == []) = true := by
      unfold Live; decide +kernel

theorem test_pageWrite : preparing (actS (.pageWrite false 2 7 0x150000 0x150000)) 5 (.pageWrite false 2 7 0x150000 0x150000) = true ∧
      (actS (.pageWrite false 2 7 0x150000 0x150000)).tableBusy 2 = none ∧
      goes (.pageWrite 5) (actS (.pageWrite false 2 7 0x150000 0x150000)) (fun t => t.conss.map (fun c => (c.next, c.undo.length)) == [(1, 1)] &&
      t.bytes 0x80070 16 == MapEntry.bytes ⟨true, true, false, 0x150000, 0, 5⟩) = true := by decide +kernel

def w_pageWrite_busy : State := (actS (.pageWrite false 2 7 0x150000 0x150000)).putTable 2 { tab2 with disabling := true }

def w_pageWrite_held : State := (actS (.pageWrite false 2 7 0x150000 0x150000)).poke 0x80070 (MapEntry.bytes ⟨true, true, false, 0x90000, 0, 4⟩)

theorem test_parityDelta : preparing (actS (.parityDelta false 2 7 0x150000 0x160000)) 5 (.parityDelta false 2 7 0x150000 0x160000) = true ∧
      (actS (.parityDelta false 2 7 0x150000 0x160000)).tableBusy 2 = none ∧
    (mapEntryOf (leNat ((actS (.parityDelta false 2 7 0x150000 0x160000)).bytes 0x80070 16))).prevValid = false := by
      decide +kernel

/-- A copy of a page from one address to another is read and written. -/
def copies (s : State) (src d : Nat) : Bool :=
  match s.read copyReq src 65536 with
  | .ok (page, t) => (match t.write copyReq d page with | .ok _ => true | .error _ => false)
  | .error _ => false

theorem test_pageWrite_cases :
    (preparing w_pageWrite_busy 5 (.pageWrite false 2 7 0x150000 0x150000) = true ∧ (w_pageWrite_busy.tableBusy 2).isSome = true ∧
      goes (.pageWrite 5) w_pageWrite_busy (fun t => t == w_pageWrite_busy.prepareFails 5 ((t.tableBusy 2).getD 0)) = true) ∧
    (preparing w_pageWrite_held 5 (.pageWrite false 2 7 0x150000 0x150000) = true ∧
      goes (.pageWrite 5) w_pageWrite_held (fun t => t == w_pageWrite_held.prepareFails 5 3) = true) ∧
    (preparing (actS (.pageWrite false 2 7 0x150000 0x160000)) 5 (.pageWrite false 2 7 0x150000 0x160000) = true ∧
      copies (actS (.pageWrite false 2 7 0x150000 0x160000)) 0x160000 0x150000 = true) :=
    ⟨by decide +kernel, by decide +kernel, by decide +kernel⟩

def w_parityDelta_busy : State := (actS (.parityDelta false 2 7 0x150000 0x160000)).putTable 2 { tab2 with disabling := true }

theorem test_parityDelta_busy : preparing w_parityDelta_busy 5 (.parityDelta false 2 7 0x150000 0x160000) = true ∧
      goes (.parityDelta 5) w_parityDelta_busy (fun t => t == w_parityDelta_busy.prepareFails 5 ((t.tableBusy 2).getD 0)) = true := by decide +kernel

def w_rootSet_busy : State := (actS (.rootSet 2 0x170000)).putTable 2 { tab2 with disabling := true }

theorem test_rootSet_busy : preparing w_rootSet_busy 5 (.rootSet 2 0x170000) = true ∧ (w_rootSet_busy.tableBusy 2).isSome = true ∧
      goes (.rootSet 5) w_rootSet_busy (fun t => t == w_rootSet_busy.prepareFails 5 ((w_rootSet_busy.tableBusy 2).getD 0)) = true := by decide +kernel

theorem test_rootSet : preparing (actS (.rootSet 2 0x170000)) 5 (.rootSet 2 0x170000) = true ∧ (actS (.rootSet 2 0x170000)).tableBusy 2 = none ∧
      ((actS (.rootSet 2 0x170000)).table 2).rootPrev = none ∧ goes (.rootSet 5) (actS (.rootSet 2 0x170000)) (fun t => (t.table 2) == { tab2 with
      rootPrev := some 0x80000, rootCur := 0x170000, rootChange := 5 }) = true := by decide +kernel

theorem test_pin : preparing (modS .resident (.pin 7 0 1)) 5 (.pin 7 0 1) = true ∧ ((modS .resident (.pin 7 0 1)).model 7).st = .resident ∧
      goes (.pin 5) (modS .resident (.pin 7 0 1)) (fun t => t.conss.map (fun c => (c.heldBlocks, c.next)) == [([(7, 0)], 1)]) = true := by decide +kernel

def w_pin_retiring : State := (modS .resident (.pin 7 0 1)).putModel 7 { st := .resident, retiring := some 0, bytes := 0x20000, blocks := [(0, 448)] }

theorem test_pin_cases :
    (preparing (modS .loading (.pin 7 0 1)) 5 (.pin 7 0 1) = true ∧ ((modS .loading (.pin 7 0 1)).model 7).st = .loading ∧
      ((modS .loading (.pin 7 0 1)).model 7).retiring = none ∧ 65536 * (0 + 1) ≤ ((modS .loading (.pin 7 0 1)).model 7).bytes ∧
      goes (.pin 5) (modS .loading (.pin 7 0 1)) (fun t => t == (modS .loading (.pin 7 0 1))) = true) ∧
    (preparing w_pin_retiring 5 (.pin 7 0 1) = true ∧ (w_pin_retiring.model 7).retiring.isSome = true ∧
      goes (.pin 5) w_pin_retiring (fun t => t == w_pin_retiring.prepareFails 5 5) = true) ∧
    (preparing (modS .absent (.pin 7 0 1)) 5 (.pin 7 0 1) = true ∧ ((modS .absent (.pin 7 0 1)).model 7).st = .absent ∧
      goes (.pin 5) (modS .absent (.pin 7 0 1)) (fun t => t == (modS .absent (.pin 7 0 1)).prepareFails 5 5) = true) :=
    ⟨by decide +kernel, by decide +kernel, by decide +kernel⟩

theorem test_unpin : preparing (modS .resident (.unpin 7 0 1)) 5 (.unpin 7 0 1) = true ∧
      goes (.unpin 5) (modS .resident (.unpin 7 0 1)) (fun t => t.conss.map (·.next) == [1]) = true := by decide +kernel

def w_unpin_retiring : State := (modS .resident (.unpin 7 0 1)).putModel 7 { st := .resident, retiring := some 0 }

theorem test_unpin_retiring : preparing w_unpin_retiring 5 (.unpin 7 0 1) = true ∧ (w_unpin_retiring.model 7).retiring.isSome = true ∧
      goes (.unpin 5) w_unpin_retiring (fun t => t == w_unpin_retiring.prepareFails 5 5) = true := by decide +kernel

def w_rescaleSwap : State := ((modS .stored (.rescaleSwap 7 16 1 0x30000)).poke 0x30000 [1, 2]).putModel 7 { (modS .stored (.rescaleSwap 7 16 1 0x30000)).model 7 with blocks := [] }

theorem test_rescaleSwap : preparing w_rescaleSwap 5 (.rescaleSwap 7 16 1 0x30000) = true ∧ (w_rescaleSwap.model 7).st = .stored ∧
      (w_rescaleSwap.model 7).retiring = none ∧ 16 + 16 * 1 ≤ (w_rescaleSwap.model 7).bytes ∧ 0 < 1 ∧ 16 / 65536 = 0 ∧ (16 + 16 * 1 - 1) / 65536 = 0 ∧
      (w_rescaleSwap.cons 5).map (·.swaps) = some [] ∧ (w_rescaleSwap.model 7).blocks = [] ∧
      goes (.rescaleSwap 5) w_rescaleSwap (fun t => t.conss.map (fun c => c.swaps.map fun w => (w.2.2.1.drop 15).take 4) == [[[7, 1, 2, 0]]]) = true := by
      decide +kernel

theorem test_rescaleSwap_cases :
    (preparing ((modS .stored (.rescaleSwap 7 0x1FFF1 1 0x30000))) 5 (.rescaleSwap 7 0x1FFF1 1 0x30000) = true ∧
      (((modS .stored (.rescaleSwap 7 0x1FFF1 1 0x30000))).model 7).bytes < 0x1FFF1 + 16 * 1 ∧
      goes (.rescaleSwap 5) ((modS .stored (.rescaleSwap 7 0x1FFF1 1 0x30000))) (fun t => t == ((modS .stored (.rescaleSwap 7 0x1FFF1 1 0x30000))).prepareFails 5 5) = true) ∧
    (preparing (modS .loading (.rescaleSwap 7 16 1 0x30000)) 5 (.rescaleSwap 7 16 1 0x30000) = true ∧
      ((modS .loading (.rescaleSwap 7 16 1 0x30000)).model 7).st = .loading ∧
      goes (.rescaleSwap 5) (modS .loading (.rescaleSwap 7 16 1 0x30000)) (fun t => t == (modS .loading (.rescaleSwap 7 16 1 0x30000))) = true) :=
    ⟨by decide +kernel, by decide +kernel⟩

/-! ### Votes and decisions -/

theorem test_prepareDone : Live ({ sized with conss := [cons0] } : State) ∧ cons0.phase = .preparing ∧ cons0.scope = false ∧
      goes (.prepareDone 5) ({ sized with conss := [cons0] } : State) (fun t => t.conss.map (·.phase) == [.prepared]) = true := by unfold Live; decide +kernel

def w_prepareDone_disabling : State := { tabS.putTable 2 { tab2 with disabling := true } with conss := [{ cons0 with next := 1, actions := [.rootSet 2 0] }] }

theorem test_prepareDone_cases :
    (Live w_prepareDone_disabling ∧ (w_prepareDone_disabling.table 2).disabling = true ∧
      goes (.prepareDone 5) w_prepareDone_disabling (fun t => t == w_prepareDone_disabling.prepareFails 5 4) = true) ∧
    (Live ({ dirS 9 with conss := [{ cons0 with scope := true }] } : State) ∧ (({ dirS 9 with conss := [{ cons0 with
      scope := true }] } : State).cons 5).map (·.scope) = some true ∧ goes (.prepareDone 5) ({ dirS 9 with conss := [{ cons0 with
      scope := true }] } : State) (fun t => t == ({ dirS 9 with conss := [{ cons0 with scope := true }] } : State).sendVote { cons0 with scope := true } 0 &&
      t.unacked.length == 1) = true) :=
    ⟨by unfold Live; decide +kernel, by unfold Live; decide +kernel⟩

theorem test_prepareTimeout : Live ({ sized with conss := [{ cons0 with admitTide := 90 }] } : State) ∧ 90 + 10 ≤ ({ sized with conss := [{ cons0 with
      admitTide := 90 }] } : State).tide ∧ goes (.prepareTimeout 5) ({ sized with conss := [{ cons0 with admitTide := 90 }] } : State) (fun t => t == ({ sized with
      conss := [{ cons0 with admitTide := 90 }] } : State).prepareFails 5 0x0A && t.conss == []) = true := by unfold Live; decide +kernel

def w_inDoubtTimeout : State := { sized with conss := [{ cons0 with phase := .prepared, voteTide := some 86 }] }

theorem test_inDoubtTimeout : Live w_inDoubtTimeout ∧ 86 + 10 + 4 ≤ w_inDoubtTimeout.tide ∧
      goes (.inDoubtTimeout 5) w_inDoubtTimeout (fun t => t.conss.map (·.inDoubt) == [true] && t.unacked.map (·.msg) == [.query 5 1 0]) = true := by
      unfold Live; decide +kernel

def w_inDoubtTimeout_failed : State := { sized with conss := [{ cons0 with phase := .failed 3, voteTide := some 86 }] }

theorem test_inDoubtTimeout_failed : Live w_inDoubtTimeout_failed ∧ w_inDoubtTimeout_failed.get HMR_TIDE_STATUS_RUNNING 0 ≠ 0 ∧
      86 + 10 + 4 ≤ w_inDoubtTimeout_failed.tide ∧ goes (.inDoubtTimeout 5) w_inDoubtTimeout_failed (fun t => t.conss.map (·.inDoubt) == [true] &&
      t.unacked.map (·.msg) == [.query 5 1 0]) = true := by unfold Live; decide +kernel

theorem test_vote : Live sized ∧ sized.voteBox 5 = none ∧ goes (.vote vote0) sized (fun t => t.votes == [⟨5, 100, [vote0], none, false⟩]) = true := by
      unfold Live; decide +kernel

def w_vote_again : State := { sized with votes := [⟨5, 99, [{ vote0 with sender := 11 }], none, false⟩] }

theorem test_vote_again : Live w_vote_again ∧ goes (.vote vote0) w_vote_again (fun t => t.votes == [⟨5, 99, [{ vote0 with
      sender := 11 }, vote0], none, false⟩]) = true := by unfold Live; decide +kernel

theorem test_voteTimeout : Live ({ sized with votes := [⟨5, 96, [vote0], none, false⟩] } : State) ∧ ({ sized with
      votes := [⟨5, 96, [vote0], none, false⟩] } : State).pod.leaderless = false ∧ (⟨5, 96, [vote0], none, false⟩ : VoteBox).decide = none ∧ 96 + 4 ≤ ({ sized with
      votes := [⟨5, 96, [vote0], none, false⟩] } : State).tide ∧ goes (.voteTimeout 5) ({ sized with
      votes := [⟨5, 96, [vote0], none, false⟩] } : State) (fun t => t.votes.map (fun b => b.outcome.map (·.status)) == [some 0x0A] && t.unacked.length == 1 &&
      t.master 2 == ⟨true, 6, 4, [⟨4, none⟩]⟩) = true := by unfold Live; decide +kernel

theorem test_decisionToPodMaster : Live (logS []) ∧ (logS []).isMaster = true ∧ (logS []).logged 5 = none ∧
      goes (.decisionToPodMaster dec0 [9]) (logS []) (fun t => t == (logS []).logDecision dec0 [9] && t.decisions.map (·.dec) == [dec0]) = true := by
      unfold Live; decide +kernel

def w_decisionToPodMaster_full : State := logS (List.replicate 1024 { logged0 with dec := { dec0 with cons := 6 } })

theorem test_decisionToPodMaster_cases :
    (Live w_decisionToPodMaster_full ∧ w_decisionToPodMaster_full.isMaster = true ∧ w_decisionToPodMaster_full.logged 5 = none ∧
      1024 ≤ w_decisionToPodMaster_full.decisions.length ∧ goes (.decisionToPodMaster dec0 [9]) w_decisionToPodMaster_full (fun t => t.decisions.length == 1025 &&
      (t.logged 5).map (·.dec.status) == some 0x0A) = true) ∧
    (Live (logS [logged0]) ∧ (logS [logged0]).logged 5 = some logged0 ∧ goes (.decisionToPodMaster { dec0 with
      status := 9 } [9]) (logS [logged0]) (fun t => t == (logS [logged0])) = true) :=
    ⟨by unfold Live; decide +kernel, by unfold Live; decide +kernel⟩

theorem test_query : Live (logS [logged0]) ∧ (logS [logged0]).isMaster = true ∧ (logS [logged0]).logged 5 = some logged0 ∧
      goes (.query 5 1 11) (logS [logged0]) (fun t => t == (logS [logged0]).sendVc0 11 (.decision dec0 true)) = true := by unfold Live; decide +kernel

theorem test_query_unknown : Live (logS []) ∧ (logS []).logged 6 = none ∧ goes (.query 6 1 11) (logS []) (fun t => t.decisions.map (·.dec.cons) == [6] &&
      t.decisions.all (fun l => l.dec.status == 0x0E || l.dec.status == 0x0A)) = true := by unfold Live; decide +kernel

theorem test_ack : Live (logS [logged0]) ∧ 9 ∉ logged0.acked ∧
      goes (.ack ⟨5, 1, 63⟩ 9) (logS [logged0]) (fun t => t == ((logS [logged0]).putLogged { logged0 with acked := [9] }).pruneLog) = true := by
      unfold Live; decide +kernel

def w_decision : State := { sized with conss := [{ cons0 with phase := .prepared, voteTide := some 99 }] }

theorem test_decision : Live w_decision ∧ goes (.decision dec0 false) w_decision (fun t => t.conss.map (·.phase) == [.committing 120]) = true := by
      unfold Live; decide +kernel

def w_decision_abort : State := { tabS with conss := [{ cons0 with phase := .prepared, undo := [.entry 0x80000 (List.replicate 16 0)] }] }

theorem test_decision_cases :
    (Live w_decision_abort ∧ goes (.decision { dec0 with status := 0x0A } false) w_decision_abort (fun t => t.conss == [] && t.mem == [] &&
      t.unacked.length == 1) = true) ∧
    (Live sized ∧ sized.cons 5 = none ∧ goes (.decision dec0 false) sized (fun t => t == sized.sendAck 5 1) = true) ∧
    (Live ({ sized with conss := [{ cons0 with phase := .prepared }] } : State) ∧ (({ sized with conss := [{ cons0 with
      phase := .prepared }] } : State).cons 5).isSome = true ∧ goes (.decision dec0 true) ({ sized with conss := [{ cons0 with
      phase := .prepared }] } : State) (fun t => t == ((({ sized with conss := [{ cons0 with phase := .prepared }] } : State).lateCommit { cons0 with
      phase := .prepared }).sendAck 5 1)) = true) ∧
    (Live ({ sized with conss := [cons0] } : State) ∧ cons0.phase ≠ .prepared ∧ goes (.decision dec0 false) ({ sized with
      conss := [cons0] } : State) (fun t => t == ((({ sized with conss := [cons0] } : State).lateCommit cons0).sendAck 5 1)) = true) :=
    ⟨by unfold Live; decide +kernel, by unfold Live; decide +kernel, by unfold Live; decide +kernel, by unfold Live; decide +kernel⟩

theorem test_notice : Live sized ∧ dec0 ∉ sized.notices ∧ goes (.notice dec0) sized (fun t => t.notices == [dec0]) = true := by unfold Live; decide +kernel

theorem test_notice_twice : Live ({ sized with notices := [dec0] } : State) ∧ dec0 ∈ ({ sized with notices := [dec0] } : State).notices ∧
      goes (.notice dec0) ({ sized with notices := [dec0] } : State) (fun t => t == ({ sized with notices := [dec0] } : State)) = true := by
      unfold Live; decide +kernel

def w_retireAt : State := { sized.putTable 2 { tab2 with live := [⟨4, none⟩, ⟨5, none⟩] } with noticesDone := [dec0] }

theorem test_retireAt : w_retireAt.noticed 5 = [(2, 5)] ∧
      goes (.retireAt 5 130) w_retireAt (fun t => (t.table 2).live == [⟨4, some 130⟩, ⟨5, none⟩]) = true := by decide +kernel

def w_epochRetire : State := { sized.putTable 2 { tab2 with epoch := 5, rootPrev := some 0x70000, rootChange := 5, live := [⟨4, some 100⟩, ⟨5, none⟩] } with noticesDone := [dec0] }

theorem test_epochRetire : Live w_epochRetire ∧ w_epochRetire.dueEpochs 5 = [(2, 4)] ∧ w_epochRetire.retiring = [] ∧ w_epochRetire.rebuild = none ∧
      goes (.epochRetire 5) w_epochRetire (fun t => (t.table 2).live == [⟨5, none⟩] && (t.table 2).rootPrev == none) = true := by unfold Live; decide +kernel

def w_modelVersionRetire : State := sized.putModel 7 { st := .resident, version := 3, retiring := some 2, blocks := [(0, 449)], oldBlocks := [(0, 448)] }

theorem test_modelVersionRetire : Live w_modelVersionRetire ∧ (w_modelVersionRetire.model 7).retiring = some 2 ∧ w_modelVersionRetire.versionUsed 7 2 = false ∧
      goes (.modelVersionRetire 7 2) w_modelVersionRetire (fun t => (t.model 7) == { st := .resident, version := 3, blocks := [(0, 449)] }) = true := by
      unfold Live; decide +kernel

/-! ### Models -/

/-- The model directory at 0x60000 names an image of one lane, one variant, one unit and one binding at 0x100000, in a model-store set. -/
def imgS : State := (((((((up.put HMR_MODEL_DIR_BASE 0 0x60000).put HMR_MODEL_DIR_ENTRIES 0 9).put HBM_CHSET_USE 0 2).poke 0x600E0 (leBytes 8 0x100000)).poke
  0x100000 (leBytes 64 6277103231964357391020660071266692793065249791809851293953)).poke 0x100100 (leBytes 64 281479271677953)).poke 0x100200 (leBytes 32 2417833193048138888282112))

theorem test_modelAdd : HostUp imgS ∧ (imgS.model 7).st = .absent ∧ imgS.modelImage 7 = some 0x100000 ∧ imgS.imageOk 0x100000 = true ∧
      imgS.imagePlaced 0x100000 0x10000 = true ∧ goes (.modelAdd 7) imgS (fun t => (t.model 7).st == .stored && (t.model 7).image == 0x100000 &&
      (t.model 7).bytes == 0x10000 && t.get HMR_MODEL_CTL_RESULT 0 == 1) = true := by unfold HostUp; decide +kernel

theorem test_modelAdd_twice : HostUp (imgS.putModel 7 { st := .stored }) ∧ ((imgS.putModel 7 { st := .stored }).model 7).st ≠ .absent ∧
      goes (.modelAdd 7) (imgS.putModel 7 { st := .stored }) (fun t => t == ((imgS.putModel 7 { st := .stored }).put HMR_MODEL_CTL_RESULT 0 2).put HMR_MODEL_CTL_DONE 0 1) = true := by
      unfold HostUp; decide +kernel

theorem test_modelRemove : HostUp (imgS.putModel 7 { st := .stored }) ∧ ((imgS.putModel 7 { st := .stored }).model 7).st ≠ .absent ∧
      goes (.modelRemove 7) (imgS.putModel 7 { st := .stored }) (fun t => (t.model 7).st == .removing && t.get HMR_MODEL_CTL_RESULT 0 == 1) = true := by
      unfold HostUp; decide +kernel

theorem test_modelRemove_beyond : HostUp imgS ∧ imgS.get HMR_MODEL_DIR_ENTRIES 0 < 10 ∧
      goes (.modelRemove 10) imgS (fun t => t.get HMR_MODEL_CTL_RESULT 0 == 3) = true := by unfold HostUp; decide +kernel

theorem test_modelRemoved : ((up.putModel 7 { st := .removing }).model 7).st = .removing ∧ (up.putModel 7 { st := .removing }).jobs = [] ∧
      goes (.modelRemoved 7) (up.putModel 7 { st := .removing }) (fun t => (t.model 7) == {}) = true := by decide +kernel

/-- The load stream of model 7 has read the whole of its last block. -/
def loadedS : State := (sized.putModel 7 { st := .loading, bytes := 0x10000, blocks := [(0, 448)], toLoad := [0] }).putStream 31
  { st := .running, load := some (7, 0), rcv := [⟨0, 0, false, 0, 0, true, 16, [], 0⟩] }

theorem test_modelLoadDone : Live loadedS ∧ (loadedS.model 7).st = .loading ∧ (loadedS.model 7).toLoad.length ≤ 1 ∧ loadedS.blockIn 7 0 = true ∧
      loadedS.loader 7 = some 31 ∧ goes (.modelLoadDone 7) loadedS (fun t => (t.model 7).st == .resident && (t.model 7).toLoad == [] &&
      (t.stream 31).st == .free) = true := by unfold Live; decide +kernel

theorem test_modelLoadDone_removing : Live (sized.putModel 7 { st := .removing }) ∧ ((sized.putModel 7 { st := .removing }).model 7).st = .removing ∧
      ((sized.putModel 7 { st := .removing }).model 7).toLoad = [] ∧
      goes (.modelLoadDone 7) (sized.putModel 7 { st := .removing }) (fun t => t.model 7 == (sized.putModel 7 { st := .removing }).model 7) = true := by
      unfold Live; decide +kernel

theorem test_admissionStop : HostUp up ∧ up.jobs = [] ∧ goes (.admissionStop) up (fun t => t.get HMR_ADMIT_CTL_STOP 0 == 1 &&
      t.get HMR_ADMIT_CTL_DRAINED 0 == 1) = true := by unfold HostUp; decide +kernel

def w_admissionStart_held : State := { up.put HMR_ADMIT_CTL_STOP 0 1 with cus := { up.cus with lifecycle := lcBlank } }

theorem test_admissionStart_held : HostUp w_admissionStart_held ∧ w_admissionStart_held.serves = false ∧
      goes (.admissionStart) w_admissionStart_held (fun t => t == w_admissionStart_held) = true := by unfold HostUp; decide +kernel

theorem test_admissionStart : HostUp (tide.put HMR_ADMIT_CTL_STOP 0 1) ∧ (tide.put HMR_ADMIT_CTL_STOP 0 1).serves = true ∧
      goes (.admissionStart) (tide.put HMR_ADMIT_CTL_STOP 0 1) (fun t => t.get HMR_ADMIT_CTL_STOP 0 == 0 && t.get HMR_ADMIT_CTL_DRAINED 0 == 0) = true := by
      unfold HostUp; decide +kernel

theorem test_admissionDrained : (up.put HMR_ADMIT_CTL_STOP 0 1).get HMR_ADMIT_CTL_STOP 0 ≠ 0 ∧ (up.put HMR_ADMIT_CTL_STOP 0 1).jobs = [] ∧
      goes (.admissionDrained) (up.put HMR_ADMIT_CTL_STOP 0 1) (fun t => t == (up.put HMR_ADMIT_CTL_STOP 0 1).put HMR_ADMIT_CTL_DRAINED 0 1) = true := by
      decide +kernel

/-! ### Histories -/

/-- Three histories, their directory at 0x60000, the pool of eight frames at 64 MiB; model 7's image gives its encoder two layers, keys and
values of 2 B an event and outputs of 4 B, and a chunk-step unit. -/
def histB : State := ((((((sized.put HMR_HIST_DIR_BASE 0 0x60000).put HMR_HIST_SIZE_ENTRIES 0 3).put HMR_HIST_SIZE_FRAMES 0 8).put HMR_HIST_POOL_BASE 0 0x4000000).putModel 7
  { st := .resident, image := 0x100000, histOff := 0x400, unitOff := 0x200, units := 1, bytes := 0x10000 }).poke 0x100400 (leBytes 16 792281626987320035123388350466)).poke 0x100200 (leBytes 32 14615016407337265874130695882407808488433936105472)
/-- History 1: its index page in frame 7, its one chunk in frame 3. -/
def ent (st events : Nat) : HEntry := ⟨9, st, 0, 7, events, 0, 1, 0x4E00000⟩
def use0 (op n : Nat) : HistUse := { hist := 1, gen := 9, op := op, after := false, optional := false, locality := 0, n := n, eventAddr := 0x70000, trim := 0 }
def histS (u : HistUse) (st events : Nat) : State := { (histB.putHist 1 (ent st events)).poke 0x4E00008 (leBytes 8 0x4600000) with
  jobs := [{ job0 with hist := some u }], freeFrames := [0, 1, 2, 4, 5, 6] }
/-- Its append of 20 events from event 100 on has the step of layer k to run, or running with its task at its end. -/
def useS (r : Bool) (k : Nat) : HistUse := { use0 1 20 with begun := true, l0 := 100, opened := true, steps := [(0, k, r)] }
def openS (r : Bool) (k : Nat) : State := { histS (useS r k) 2 100 with
  jobs := [{ job0 with hist := some (useS r k), units := [unit0] ++ if r then [{ unit0 with no := stepUnit 0 k, kind := 2, tasks := [.ended] }] else [] }] }

theorem test_historyTrim_bad : ({ histS { use0 3 0 with trim := 5 } 1 1100 with ecc := [((histS { use0 3 0 with
      trim := 5 } 1 1100).indexEntry ((histS { use0 3 0 with trim := 5 } 1 1100).hist 1) 0 / 8, true)] } : State).badIndexWords (({ histS { use0 3 0 with
      trim := 5 } 1 1100 with ecc := [((histS { use0 3 0 with trim := 5 } 1 1100).indexEntry ((histS { use0 3 0 with
      trim := 5 } 1 1100).hist 1) 0 / 8, true)] } : State).sectionReads { use0 3 0 with trim := 5 }) ≠ [] := by decide +kernel

theorem test_historyRead : Live (histS (use0 0 0) 1 100) ∧ (histS (use0 0 0) 1 100).pendingHists.length = 1 ∧ (histS (use0 0 0) 1 100).veiled = [] ∧
      ((histS (use0 0 0) 1 100).jobs.map fun j => j.hist.map (·.failed)) = [some false] ∧
      (histS (use0 0 0) 1 100).badIndexWords ((histS (use0 0 0) 1 100).sectionReads ((((histS (use0 0 0) 1 100).jobs.headD job0).hist).getD (use0 0 0))) = [] ∧
      goes (.historyRead 1) (histS (use0 0 0) 1 100) (fun t => t == { (histS (use0 0 0) 1 100) with jobs := [{ job0 with hist := some { use0 0 0 with
      begun := true, l0 := 100 } }] }) = true := by unfold Live; decide +kernel

theorem test_historyAppend : Live (histS (use0 1 20) 1 100) ∧ (histS (use0 1 20) 1 100).pendingHists.length = 1 ∧ (histS (use0 1 20) 1 100).veiled = [] ∧
      ((histS (use0 1 20) 1 100).jobs.map fun j => j.hist.map (·.failed)) = [some false] ∧
      (histS (use0 1 20) 1 100).badIndexWords ((histS (use0 1 20) 1 100).sectionReads ((((histS (use0 1 20) 1 100).jobs.headD job0).hist).getD (use0 0 0))) = [] ∧
      newFrames 100 20 = 0 ∧ goes (.historyAppend 1) (histS (use0 1 20) 1 100) (fun t => t.hist 1 == ent 2 100 &&
      t.jobs.map (fun j => j.hist.map (·.steps)) == [some [(0, 0, false)]]) = true := by unfold Live; decide +kernel

theorem test_historyAppend_frame : Live (histS (use0 1 20) 1 500) ∧ (histS (use0 1 20) 1 500).pendingHists.length = 1 ∧ (histS (use0 1 20) 1 500).veiled = [] ∧
      ((histS (use0 1 20) 1 500).jobs.map fun j => j.hist.map (·.failed)) = [some false] ∧
      (histS (use0 1 20) 1 500).badIndexWords ((histS (use0 1 20) 1 500).sectionReads ((((histS (use0 1 20) 1 500).jobs.headD job0).hist).getD (use0 0 0))) = [] ∧
      newFrames 500 20 = 1 ∧ localityDie 0 ((histS (use0 1 20) 1 500).get HST_RING_CFG_PORT 3) = none ∧ ((histS (use0 1 20) 1 500).hist 1).index ≠ 0 ∧
      goes (.historyAppend 1) (histS (use0 1 20) 1 500) (fun t => t.freeFrames == [1, 2, 4, 5, 6] && (t.hist 1).frames == 2 &&
      t.jobs.map (fun j => j.hist.map (·.taken)) == [some [(1, 0)]]) = true := by unfold Live; decide +kernel

theorem test_historyCreate : Live (histS { use0 2 0 with gen := 12 } 0 0) ∧ (histS { use0 2 0 with gen := 12 } 0 0).pendingHists.length = 1 ∧
      (histS { use0 2 0 with gen := 12 } 0 0).veiled = [] ∧ ((histS { use0 2 0 with gen := 12 } 0 0).jobs.map fun j => j.hist.map (·.failed)) = [some false] ∧
      (histS { use0 2 0 with gen := 12 } 0 0).badIndexWords ((histS { use0 2 0 with gen := 12 } 0 0).sectionReads ((((histS { use0 2 0 with
      gen := 12 } 0 0).jobs.headD job0).hist).getD (use0 0 0))) = [] ∧ goes (.historyCreate 1) (histS { use0 2 0 with
      gen := 12 } 0 0) (fun t => t.hist 1 == ⟨12, 2, 0, 7, 0, 0, 0, 0⟩ && t.appended == [⟨1, 0⟩]) = true := by unfold Live; decide +kernel

theorem test_historyTrim : Live (histS { use0 3 0 with trim := 5 } 1 1100) ∧ (histS { use0 3 0 with trim := 5 } 1 1100).pendingHists.length = 1 ∧
      (histS { use0 3 0 with trim := 5 } 1 1100).veiled = [] ∧ ((histS { use0 3 0 with trim := 5 } 1 1100).jobs.map fun j => j.hist.map (·.failed)) = [some false] ∧
      (histS { use0 3 0 with trim := 5 } 1 1100).badIndexWords ((histS { use0 3 0 with trim := 5 } 1 1100).sectionReads ((((histS { use0 3 0 with
      trim := 5 } 1 1100).jobs.headD job0).hist).getD (use0 0 0))) = [] ∧ goes (.historyTrim 1) (histS { use0 3 0 with
      trim := 5 } 1 1100) (fun t => (t.hist 1).first == 2 && t.deferred.map (fun d => (d.hist, d.frames.length)) == [(1, 2)]) = true := by unfold Live; decide +kernel

theorem test_historyRelease : Live (histS (use0 4 0) 1 100) ∧ (histS (use0 4 0) 1 100).pendingHists.length = 1 ∧ (histS (use0 4 0) 1 100).veiled = [] ∧
      ((histS (use0 4 0) 1 100).jobs.map fun j => j.hist.map (·.failed)) = [some false] ∧
      (histS (use0 4 0) 1 100).badIndexWords ((histS (use0 4 0) 1 100).sectionReads ((((histS (use0 4 0) 1 100).jobs.headD job0).hist).getD (use0 0 0))) = [] ∧
      goes (.historyRelease 1) (histS (use0 4 0) 1 100) (fun t => t.hist 1 == ent 4 100) = true := by unfold Live; decide +kernel

theorem test_historyFree : Live ({ histS (use0 0 0) 4 100 with jobs := [] } : State) ∧ 1 ≤ ({ histS (use0 0 0) 4 100 with
      jobs := [] } : State).get HMR_HIST_SIZE_ENTRIES 0 ∧ (({ histS (use0 0 0) 4 100 with jobs := [] } : State).hist 1).st = hReleasing ∧
      ({ histS (use0 0 0) 4 100 with jobs := [] } : State).histReaders 1 = [] ∧ ({ histS (use0 0 0) 4 100 with jobs := [] } : State).veiled = [] ∧
      goes (.historyFree 1) ({ histS (use0 0 0) 4 100 with jobs := [] } : State) (fun t => t.hist 1 == { ent 0 100 with frames := 0, index := 0 } &&
      t.deferred.map (·.hist) == [1]) = true := by unfold Live; decide +kernel

def w_frameReturn : State := { histB with freeFrames := [0], deferred := [⟨1, [3], [7 * 2097152 + 0x4000000], [2]⟩, ⟨2, [4], [], []⟩] }

theorem test_frameReturn : Live w_frameReturn ∧ w_frameReturn.jobs = [] ∧ goes (.frameReturn 1) w_frameReturn (fun t => t.deferred == [⟨2, [4], [], []⟩] &&
      t.freeFrames.contains 3 && t.indexPages.length == 1) = true := by unfold Live; decide +kernel

theorem test_chunkStep : Live (openS false 0) ∧ ((openS false 0).stepsRun ((openS false 0).jobs.headD job0)).isSome = true ∧
      ((openS false 0).geometry 7).map (fun g => (g.layers, g.kvBytes, g.outBytes)) = some (2, 2, 4) ∧
      ((openS false 0).imageRead 0x100000 0x200 32).map (fun bs => (unitOf 0 bs).kind) = some 2 ∧ (openS false 0).modelWhole 7 = true ∧
      (openS false 0).stepRoom = true ∧ 0 < ((openS false 0).model 7).units ∧
      (openS false 0).badIndexWords ((openS false 0).indexWalk ((openS false 0).hist 1) 0) = [] ∧
      (match (openS false 0).readAll ((useS false 0).stepReads ⟨2, 2, 4, 8, 100, 10⟩ ((openS false 0).chunkAddr ((openS false 0).hist 1) 0) 0 0) with
      | .ok _ => true | .error _ => false) = true ∧
      goes (.chunkStep 1 ⟨0, 0⟩) (openS false 0) (fun t => t.jobs.map (fun j => (j.hist.map (·.steps), j.units.map (fun u => (u.no, u.tasks)))) == [(some [(0, 0, true)], [(0, [.placed 4 1]), (stepUnit 0 0, [.placed 0 0])])] &&
      t.counts.hearthC1 == 10 && (t.ctx 0 0).st == .ready) = true := by unfold Live; decide +kernel

def w_chunkStep_late : State := { openS false 0 with counts := { (openS false 0).counts with hearthC1 := 2 ^ 40 } }

theorem test_chunkStep_late : Live w_chunkStep_late ∧ (w_chunkStep_late.stepsRun (w_chunkStep_late.jobs.headD job0)).isSome = true ∧
      (w_chunkStep_late.geometry 7).map (fun g => (g.layers, g.kvBytes, g.outBytes)) = some (2, 2, 4) ∧
      (w_chunkStep_late.imageRead 0x100000 0x200 32).map (fun bs => (unitOf 0 bs).kind) = some 2 ∧ w_chunkStep_late.modelWhole 7 = true ∧
      w_chunkStep_late.stepRoom = false ∧ goes (.chunkStep 1 ⟨0, 0⟩) w_chunkStep_late (fun t => t == w_chunkStep_late) = true := by unfold Live; decide +kernel

theorem test_chunkStepComplete : Live (openS true 0) ∧ ((openS true 0).stepsRun ((openS true 0).jobs.headD job0)).isSome = true ∧
      ((openS true 0).geometry 7).map (fun g => (g.layers, g.kvBytes, g.outBytes)) = some (2, 2, 4) ∧
      ((((openS true 0).jobs.headD job0).units).any fun v => v.no == stepUnit 0 0 && v.finished) = true ∧ max 100 (512 * 0) = 100 ∧
      min (100 + 20) (512 * 0 + 512) - 100 = 20 ∧
      goes (.chunkStepComplete 1 ⟨0, (List.replicate 40 5), []⟩) (openS true 0) (fun t => t.jobs.map (fun j => (j.hist.map (·.steps), j.units.length)) == [(some [(0, 1, false)], 1)] &&
      Tab.find (t.chunkAddr (t.hist 1) 0 + 200) t.mem == some 5 && Tab.find (t.chunkAddr (t.hist 1) 0 + 240) t.mem == none) = true := by unfold Live; decide +kernel

theorem test_chunkStepComplete_last : Live (openS true 1) ∧ ((openS true 1).stepsRun ((openS true 1).jobs.headD job0)).isSome = true ∧
      ((openS true 1).geometry 7).map (fun g => (g.layers, g.kvBytes, g.outBytes)) = some (2, 2, 4) ∧
      ((((openS true 1).jobs.headD job0).units).any fun v => v.no == stepUnit 0 1 && v.finished) = true ∧ max 100 (512 * 0) = 100 ∧
      min (100 + 20) (512 * 0 + 512) - 100 = 20 ∧
      goes (.chunkStepComplete 1 ⟨0, (List.replicate 40 5), (List.replicate 80 6)⟩) (openS true 1) (fun t => t.jobs.map (fun j => j.hist.map (·.opened)) == [some false] &&
      t.appended == [⟨1, 120⟩] && Tab.find (t.chunkAddr (t.hist 1) 0 + (512 + 100) * 2) t.mem == some 5 &&
      Tab.find (t.chunkAddr (t.hist 1) 0 + 2 * 512 * 2 + 100 * 4) t.mem == some 6) = true := by unfold Live; decide +kernel

theorem test_historyAppendFail : Live (openS true 1) ∧ ((openS true 1).jobs.headD job0).appends.isSome = true ∧
      goes (.historyAppendFail 1) (openS true 1) (fun t => t == (openS true 1).endJob ((openS true 1).jobs.headD job0) 0x0E 0 none && t.jobs == []) = true := by
      unfold Live; decide +kernel

theorem test_historyStop : HostUp histB ∧ goes (.historyStop) histB (fun t => t == histB.put HMR_HIST_CTL_STOP 0 1) = true := by unfold HostUp; decide +kernel

theorem test_historyStopped : (histB.put HMR_HIST_CTL_STOP 0 1).get HMR_HIST_CTL_STOP 0 ≠ 0 ∧ (histB.put HMR_HIST_CTL_STOP 0 1).jobs = [] ∧
      (histB.put HMR_HIST_CTL_STOP 0 1).appended = [] ∧
      goes (.historyStopped) (histB.put HMR_HIST_CTL_STOP 0 1) (fun t => t == (histB.put HMR_HIST_CTL_STOP 0 1).put HMR_HIST_CTL_STOPPED 0 1) = true := by
      decide +kernel

def w_historyStart : State := { histS (use0 0 0) 1 100 with jobs := [] }.put HMR_HIST_CTL_STOPPED 0 1

theorem test_historyStart : HostUp w_historyStart ∧ w_historyStart.get HMR_HIST_CTL_STOPPED 0 ≠ 0 ∧
      goes (.historyStart) w_historyStart (fun t => t.hist 1 == ⟨0, 0, 0, 0, 0, 0, 0, 0⟩ && t.freeFrames == List.range 8 &&
      t.get HMR_HIST_CTL_STOPPED 0 == 0) = true := by unfold HostUp; decide +kernel

/-! ### Errors -/

/-- An error of severity n at kiln 4's berth, and as it is stamped in tide 100. -/
def err (n : Nat) : Err := ⟨n, 0x02, 1, 4, 0, 0, [], none, 0, false, false⟩
def errD (n : Nat) : Err := { err n with tide := 100 }
/-- The salvor has an error of severity n and of another unit in hand. -/
def inHandS (n : Nat) : State := { sized with salvor := { sized.salvor with inHand := some { errD n with unit := 5 } } }

theorem test_errorDetect : Live sized ∧ sized.unitFenced 0x02 4 0 = false ∧ sized.salvor.matches (errD 1) = false ∧ sized.salvor.inHand = none ∧
      sized.salvor.stopped = false ∧ goes (.errorDetect (err 1)) sized (fun t => t.salvor.inHand == some (errD 1) && t.get HMR_SALVOR_STATUS_BUSY 0 == 1 &&
      t.get HMR_SALVOR_STATUS_HANDLING 0 == 1) = true := by unfold Live; decide +kernel

theorem test_errorDetect_cases :
    (Live (inHandS 2) ∧ (inHandS 2).unitFenced 0x02 4 0 = false ∧ (inHandS 2).salvor.matches (errD 1) = false ∧ (inHandS 2).salvor.ring.length < 64 ∧
      goes (.errorDetect (err 1)) (inHandS 2) (fun t => t.salvor.inHand == (inHandS 2).salvor.inHand && t.salvor.ring == [errD 1]) = true) ∧
    (Live (inHandS 1) ∧ (inHandS 1).unitFenced 0x02 4 0 = false ∧ (inHandS 1).salvor.matches (errD 2) = false ∧
      goes (.errorDetect (err 2)) (inHandS 1) (fun t => t.salvor.inHand == some (errD 2) && t.salvor.ring == [{ errD 1 with unit := 5, suspended := true }]) = true) ∧
    (Live (sized.put KLN_FAULT_FENCED 4 1) ∧ (sized.put KLN_FAULT_FENCED 4 1).unitFenced 0x02 4 0 = true ∧
      goes (.errorDetect (err 1)) (sized.put KLN_FAULT_FENCED 4 1) (fun t => t.salvor.inHand == none && t.salvor.ring == []) = true) ∧
    (Live jobS ∧ (err 3).known = true ∧ goes (.errorDetect (err 3)) jobS (fun t => t.halted && t.jobs == [] && t.get HMR_TIDE_STATUS_RUNNING 0 == 0) = true) :=
    ⟨by unfold Live; decide +kernel, by unfold Live; decide +kernel, by unfold Live; decide +kernel, by unfold Live; decide +kernel⟩

theorem test_deviceFaultStop : Live jobS ∧ (err 3).known = true ∧ goes (.deviceFaultStop (err 3)) jobS (fun t => t.halted && t.jobs == [] &&
      t.out.getLast? == some (.pldmEvent 3 1)) = true := by unfold Live; decide +kernel

theorem test_schedulerWatchdog : Live jobS ∧ jobS.get HMR_TIDE_STATUS_RUNNING 0 ≠ 0 ∧ goes (.schedulerWatchdog) jobS (fun t => t.halted &&
      t.out.getLast? == some (.pldmEvent 3 2)) = true := by unfold Live; decide +kernel

theorem test_salvorEscalate : Live (inHandS 1) ∧ (inHandS 1).salvor.stopped = false ∧ (inHandS 1).justRestarted = false ∧
      goes (.salvorEscalate 4) (inHandS 1) (fun t => t.salvor.stopped && t.salvor.inHand == none && t.get HMR_SALVOR_STATUS_ESCALATED 0 == 1) = true := by
      unfold Live; decide +kernel

def w_salvorEscalate_again : State := { sized with salvor := { sized.salvor with lastRestart := some 0 } }

theorem test_salvorEscalate_again : Live w_salvorEscalate_again ∧ w_salvorEscalate_again.justRestarted = true ∧
      goes (.salvorEscalate 4) w_salvorEscalate_again (fun t => t.halted && t.out.getLast? == some (.pldmEvent 3 6)) = true := by unfold Live; decide +kernel

def w_salvorRestart : State := { sized with salvor := { sized.salvor with stopped := true, ring := [{ errD 2 with suspended := true }] } }

theorem test_salvorRestart : Live w_salvorRestart ∧ w_salvorRestart.salvor.stopped = true ∧
      goes (.salvorRestart) w_salvorRestart (fun t => t.salvor.inHand == some (errD 2) && !t.salvor.stopped && t.salvor.ring == []) = true := by
      unfold Live; decide +kernel

theorem test_salvorHandle : Live (inHandS 0) ∧ (inHandS 0).salvor.stopped = false ∧ goes (.salvorHandle) (inHandS 0) (fun t => t.salvor.inHand == none &&
      t.dock.elog.map (·.length) == [64]) = true := by unfold Live; decide +kernel

/-! ### Memory -/

theorem test_hbmStackFail : Live sized ∧ sized.bitAt HBM_STACK_STATUS_FENCED 0 3 = false ∧ sized.setsOn 3 = [0] ∧
      goes (.hbmStackFail 3 2) sized (fun t => t.bitAt HBM_STACK_STATUS_FENCED 0 3 && t.get HBM_STACK_STATUS_CAUSE 0 == 2 && t.setLost 0 &&
      t.setStopped 0) = true := by unfold Live; decide +kernel

def w_patrolScrub : State := { sized with ecc := [(0x1008 / 8, false), (0x1040 / 8, true)] }

theorem test_patrolScrub : Live w_patrolScrub ∧ w_patrolScrub.setOf 0x1000 = some 0 ∧ w_patrolScrub.setStopped 0 = false ∧
      goes (.patrolScrub 0x1000 1) w_patrolScrub (fun t => t.ecc == [(0x1040 / 8, true)]) = true := by unfold Live; decide +kernel

theorem test_patrolScrub_cases :
    (Live sized ∧ sized.setOf 0x1000 = some 0 ∧ sized.setStopped 0 = false ∧
      goes (.patrolScrub 0x1000 2) sized (fun t => t.ecc == (wordsOf 0x1000 64).map (·, true)) = true) ∧
    (Live ({ sized with ecc := [(0x1008 / 8, false)] } : State) ∧ ({ sized with ecc := [(0x1008 / 8, false)] } : State).setOf 0x1000 = some 0 ∧ ({ sized with
      ecc := [(0x1008 / 8, false)] } : State).setStopped 0 = false ∧ goes (.patrolScrub 0x1000 0) ({ sized with
      ecc := [(0x1008 / 8, false)] } : State) (fun t => t.ecc == []) = true) ∧
    (Live ({ sized with ecc := [(0x1008 / 8, true)] } : State) ∧ ({ sized with ecc := [(0x1008 / 8, true)] } : State).setOf 0x1000 = some 0 ∧ ({ sized with
      ecc := [(0x1008 / 8, true)] } : State).setStopped 0 = false ∧ goes (.patrolScrub 0x1000 1) ({ sized with
      ecc := [(0x1008 / 8, true)] } : State) (fun t => t.ecc == (wordsOf 0x1000 64).map (·, true)) = true) ∧
    (Live sized ∧ sized.setOf 0x1000 = some 0 ∧ sized.setStopped 0 = false ∧ goes (.patrolScrub 0x1000 0) sized (fun t => t == sized) = true) :=
    ⟨by unfold Live; decide +kernel, by unfold Live; decide +kernel, by unfold Live; decide +kernel, by unfold Live; decide +kernel⟩

theorem test_chsetStop : HostUp up ∧ up.get HBM_CHSET_USE 0 ≠ 1 ∧ goes (.chsetStop 0) up (fun t => t.setStopped 0) = true := by unfold HostUp; decide +kernel

def w_chsetStop_staging : State := (up.put HBM_CHSET_USE 0 1).putBitAt HBM_CHSET_STATUS_STOPPED 0 0 true

theorem test_chsetStop_staging : HostUp w_chsetStop_staging ∧ w_chsetStop_staging.setStopped 0 = true ∧
      goes (.chsetStop 0) w_chsetStop_staging (fun t => t.setStopped 0) = true := by unfold HostUp; decide +kernel

theorem test_chsetRestart : HostUp (up.putBitAt HBM_CHSET_STATUS_STOPPED 0 0 true) ∧
      (up.putBitAt HBM_CHSET_STATUS_STOPPED 0 0 true).get HBM_CHSET_COUNT 0 ≠ 0 ∧ (up.putBitAt HBM_CHSET_STATUS_STOPPED 0 0 true).setUsable 0 = true ∧
      (up.putBitAt HBM_CHSET_STATUS_STOPPED 0 0 true).setLost 0 = false ∧ (up.putBitAt HBM_CHSET_STATUS_STOPPED 0 0 true).get CUS_STATUS_VEILED 0 = 0 ∧
      goes (.chsetRestart 0) (up.putBitAt HBM_CHSET_STATUS_STOPPED 0 0 true) (fun t => !t.setStopped 0) = true := by unfold HostUp; decide +kernel

def w_chsetRestart_veiled : State := { ((up.poke 0x1000 [7]).putBitAt HBM_CHSET_STATUS_STOPPED 0 0 true).put CUS_STATUS_VEILED 0 1 with veiled := [0] }

def w_chsetRestart_lost : State := (up.putBitAt HBM_CHSET_STATUS_STOPPED 0 0 true).putBitAt HBM_STACK_STATUS_LOST_SETS 0 0 true

theorem test_chsetRestart_cases :
    (HostUp w_chsetRestart_veiled ∧ w_chsetRestart_veiled.get HBM_CHSET_COUNT 0 ≠ 0 ∧ w_chsetRestart_veiled.setUsable 0 = true ∧
      w_chsetRestart_veiled.get CUS_STATUS_VEILED 0 ≠ 0 ∧ goes (.chsetRestart 0) w_chsetRestart_veiled (fun t => t.mem == [] && t.veiled == [] &&
      !t.setStopped 0) = true) ∧
    (HostUp w_chsetRestart_lost ∧ w_chsetRestart_lost.get HBM_CHSET_COUNT 0 ≠ 0 ∧ w_chsetRestart_lost.setUsable 0 = true ∧ w_chsetRestart_lost.setLost 0 = true ∧
      w_chsetRestart_lost.get CUS_STATUS_VEILED 0 = 0 ∧ goes (.chsetRestart 0) w_chsetRestart_lost (fun t => !t.setLost 0 && !t.setStopped 0) = true) ∧
    (HostUp (up.putBitAt HBM_CHSET_STATUS_STOPPED 0 1 true) ∧ (up.putBitAt HBM_CHSET_STATUS_STOPPED 0 1 true).get HBM_CHSET_COUNT 1 = 0 ∧
      goes (.chsetRestart 1) (up.putBitAt HBM_CHSET_STATUS_STOPPED 0 1 true) (fun t => t.setStopped 1) = true) :=
    ⟨by unfold HostUp; decide +kernel, by unfold HostUp; decide +kernel, by unfold HostUp; decide +kernel⟩

/-- The load stream of a RESIDENT model has written block 0, and block 1 is to follow. -/
def reloadS : State := (sized.putModel 7 { st := .resident, image := 0x100000, bytes := 0x20000, blocks := [(0, 448), (1, 449)], toLoad := [0, 1] }).putStream 31
  { st := .running, load := some (7, 0), rcv := [⟨0, 0, false, 0, 0, true, 16, [], 0⟩] }

theorem test_modelBlockReload : Live reloadS ∧ reloadS.job 1 = none ∧ (reloadS.model 7).st = .resident ∧ reloadS.blockIn 7 0 = true ∧
      reloadS.loader 7 = some 31 ∧ goes (.modelBlockReload 7 0 1) reloadS (fun t => (t.model 7).toLoad == [1] && (t.stream 31).load == some (7, 1)) = true := by
      unfold Live; decide +kernel

theorem test_modelBlockReload_old : let s : State := { sized.putModel 7 { st := .resident, image := 0x100000, bytes := 0x20000, retiring := some 2, oldBlocks := [(0, 448)], copies := [(0, 0, [9, 8])] } with
      ecc := [(cacheAddr 448 / 8, true)] }; s.blockIn 7 0 = false ∧ ((s.model 7).oldBlocks.find? (fun p => p.1 == 0 &&
      !(s.allBad (cacheAddr p.2) 65536).isEmpty)) = some (0, 448) ∧ (match s.storeBlock (s.model 7) ((s.model 7).retiring.getD 0) 0 with
      | .ok (bs, _) => bs == [9, 8] | .error _ => false) = true := by decide +kernel

/-! ### Spares -/

/-- Device 0 in a pod with devices 9 and 11, mastered by device m. -/
def podS (m : Nat) : State := { (sized.put QUY_POD_CTL_IN_POD 0 1).put QUY_POD_SIZE_MASTER 0 m with pod := { sized.pod with members := [0, 9, 11] } }
/-- Group 1 has lost slot 0, and device 0 replaces it; device m is its master. -/
def spareS (m : Nat) : State := (up.putTable 2 tab2).putGroup 1 { grp1 with state := .degraded, claim := some 0, master := m }
def buildS (got : List Nat) : State := { tabS with rebuild := some ⟨1, 0, true, 2, 0, got, List.replicate 65536 1⟩ }

theorem test_slotLossNotice : Live (podS 9) ∧ (podS 9).inPod = true ∧
      goes (.slotLossNotice 9 1 1) (podS 9) (fun t => t.pod.slotLosses == [(9, 1, 1)]) = true := by unfold Live; decide +kernel

theorem test_slotsLost : Live (podS 0) ∧ (podS 0).isMaster = true ∧ (podS 0).isLive 9 = true ∧
      goes (.slotsLost 9 1 1) (podS 0) (fun t => t.pod.slotLosses == [(9, 1, 1)] && t.out == [.broadcast (.slotLoss 9 1 1)]) = true := by unfold Live; decide +kernel

theorem test_slotReplace : Live (podS 9) ∧ (podS 9).inPod = true ∧ goes (.slotReplace 1 1 11) (podS 9) (fun t => t.pod.replaces == [(1, 1, 11)]) = true := by
      unfold Live; decide +kernel

theorem test_rebuildDone : Live (podS 0) ∧ (podS 0).isMaster = true ∧ (podS 0).isLive 11 = true ∧
      goes (.rebuildDone 1 1 11) (podS 0) (fun t => t.pod.replaces == [(1, 1, 11)] && t.out == [.broadcast (.slotReplace 1 1 11)]) = true := by
      unfold Live; decide +kernel

theorem test_rebuildGo : HostUp (spareS 0) ∧ (spareS 0).get CRN_REBUILD_BUSY 0 = 0 ∧ ((spareS 0).put CRN_REBUILD_GROUP 0 1).mayRebuild 1 = true ∧
      ((spareS 0).group 1).master = (spareS 0).me ∧ goes (.rebuildGo 1) (spareS 0) (fun t => t.get CRN_REBUILD_BUSY 0 == 1 &&
      t.rebuild.map (fun b => (b.group, b.slot)) == some (1, 0) && t.rebuilding == [1]) = true := by unfold HostUp; decide +kernel

theorem test_rebuildGo_cases :
    (HostUp (spareS 9) ∧ ((spareS 9).put CRN_REBUILD_GROUP 0 1).mayRebuild 1 = true ∧ ((spareS 9).group 1).master ≠ (spareS 9).me ∧
      goes (.rebuildGo 1) (spareS 9) (fun t => t.unacked.map (fun u => (u.dst, u.msg)) == [(9, .rebuildStart 1 0 0)]) = true) ∧
    (HostUp up ∧ (up.put CRN_REBUILD_GROUP 0 1).mayRebuild 1 = false ∧ goes (.rebuildGo 1) up (fun t => t.get CRN_REBUILD_STATUS_RESULT 0 == 2 &&
      t.rebuild == none) = true) :=
    ⟨by unfold HostUp; decide +kernel, by unfold HostUp; decide +kernel⟩

theorem test_rebuildStart : Live (spareS 0) ∧ 1 ∉ (spareS 0).rebuilding ∧ ((spareS 0).groupRecord 1).map (·.master) = some (spareS 0).me ∧
      goes (.rebuildStart 1 0 9) (spareS 0) (fun t => t.rebuilding == [1] && t.unacked.map (·.dst) == [11]) = true := by unfold Live; decide +kernel

theorem test_rebuildPageRequest : tabS.hears 11 = true ∧ (tabS.table 2).enabled = true ∧ 0 ∈ (tabS.group 1).slotsOf tabS.me ∧
      (tabS.currentPage 2 7).isSome = true ∧ goes (.rebuildPageRequest 2 7 0 11) tabS (fun t => t.out.length == 1) = true := by decide +kernel

theorem test_rebuildPage : (buildS []).hears ((buildS []).slotDevice 2 1) = true ∧ ([] : List Nat).length + 1 < ((buildS []).group 1).d ∧
      goes (.rebuildPage 2 0 1 (List.replicate 65536 3)) (buildS []) (fun t => t.rebuild.map (·.got) == some [1] && t.mem == (buildS []).mem) = true := by
      decide +kernel

theorem test_rebuildPage_last : (buildS [1]).hears ((buildS [1]).slotDevice 2 2) = true ∧ ((buildS [1]).group 1).d ≤ [1].length + 1 ∧
      (buildS [1]).ownPage 2 0 = some 0x90000 := by decide +kernel

theorem test_rebuildEnd : Live ({ sized with rebuilding := [3, 1] } : State) ∧ ({ sized with rebuilding := [3, 1] } : State).rebuild = none ∧
      goes (.rebuildEnd 1) ({ sized with rebuilding := [3, 1] } : State) (fun t => t == { ({ sized with rebuilding := [3, 1] } : State) with
      rebuilding := [3] }) = true := by unfold Live; decide +kernel

def w_rebuildEnd_lost : State := { buildS [] with groups := [(1, { grp1 with state := .lost })], rebuilding := [1] }

theorem test_rebuildEnd_cases :
    (Live ({ buildS [] with rebuilding := [1] } : State) ∧ (({ buildS [] with rebuilding := [1] } : State).group 1).state ≠ .lost ∧
      goes (.rebuildEnd 1) ({ buildS [] with rebuilding := [1] } : State) (fun t => t.rebuild.map (·.group) == some 1 && t.rebuilding == [1]) = true) ∧
    (Live w_rebuildEnd_lost ∧ (w_rebuildEnd_lost.group 1).state = .lost ∧ goes (.rebuildEnd 1) w_rebuildEnd_lost (fun t => t.rebuilding == [] &&
      t.rebuild == none && t.get CRN_REBUILD_STATUS_RESULT 0 == 3) = true) :=
    ⟨by unfold Live; decide +kernel, by unfold Live; decide +kernel⟩

/-! ### Quays -/

/-- Quay 2 is in use and not stopped. -/
def inUse (s : State) : State := ((s.put QUY_CTL_STOP 2 0).put QUY_CTL_STOPPED 2 0).put QUY_PEER_UNUSED 2 0
/-- Quay 2 is up with keys and n of its lanes dead; the route to device 9 goes out by it, with an alternate. -/
def quayS (n : Nat) : State := { (inUse sized).putQuay 2 { st := .up, keyed := true, dead := List.range n, held := [(20, 15, [])], replays := [(20, 4, 1)] } with
  routes := [(9, ⟨2, 3, 1, 2, false⟩)] }
/-- Quay 2 in a state, with nothing dead or held. -/
def plainS (st : QuayState) : State := (inUse up).putQuay 2 { st := st, keyed := true, txFrames := [(3, 7)], rxFrames := [(4, 8)] }
def recvS (held : List (Nat × Nat × List (Nat × Nat))) (rp : List (Nat × Nat × Nat)) : State := (inUse up).putQuay 2 { st := .up, keyed := true, held := held, replays := rp }
/-- Quays 2 and 3 are up, the route to device 9 goes out by quay 2 and that to device 11 by quay 3, and messages wait. -/
def lanesS (out : List Msg) (y : Quay) : State := { ((inUse up).putQuay 2 { y with st := .up, keyed := true }).putQuay 3 { st := .up, keyed := true } with
  routes := [(9, ⟨2, 3, 1, 2, false⟩), (11, ⟨3, 2, 1, 2, false⟩)], out := out }
/-- Messages to device 9: one of each virtual channel, and one of two blocks. -/
def onVc (c : Nat) : Msg := .net 9 c (.ack 1 2 3 4)
def long : Msg := .net 9 1 (.readData 1 2 0 0 0 0 (List.replicate 300 7))

theorem test_laneFail : Live ((quayS 0).put QUY_STATUS_SPARES_LEFT 2 2) ∧ (((quayS 0).put QUY_STATUS_SPARES_LEFT 2 2).quay 2).st = .up ∧
      20 ∉ (((quayS 0).put QUY_STATUS_SPARES_LEFT 2 2).quay 2).dead ∧
      goes (.laneFail 2 20 1) ((quayS 0).put QUY_STATUS_SPARES_LEFT 2 2) (fun t => (t.quay 2).dead == [20] && (t.quay 2).st == .up &&
      t.get QUY_STATUS_WIDTH 2 == 32 && t.get QUY_STATUS_SPARES_LEFT 2 == 1 && (t.quay 2).held == [(32, 15, [])]) = true := by unfold Live; decide +kernel

theorem test_laneFail_cases :
    (let s := (quayS 0).put QUY_STATUS_SPARES_LEFT 2 2; s.spareFor 2 20 = some 32 ∧ s.get QUY_STATUS_SPARES_LEFT 2 = 2) ∧
    (let s := quayS 0; s.spareFor 2 20 = none ∧ s.unusedSpares 2 = []) ∧
    (Live (quayS 10) ∧ 33 - ((quayS 10).quay 2).dead.length < 24 ∧ goes (.laneFail 2 20 1) (quayS 10) (fun t => (t.quay 2).st == .failed &&
      t.routes == [(9, ⟨2, 3, 1, 2, true⟩)] && !(t.quay 2).keyed) = true) :=
    ⟨by decide +kernel, by decide +kernel, by unfold Live; decide +kernel⟩

theorem test_quayFail : Live (((quayS 0).put QUY_POD_CTL_IN_POD 0 1).put QUY_POD_SIZE_MASTER 0 9) ∧
      (((quayS 0).put QUY_POD_CTL_IN_POD 0 1).put QUY_POD_SIZE_MASTER 0 9).isMaster = false ∧
      goes (.quayFail 2 2) (((quayS 0).put QUY_POD_CTL_IN_POD 0 1).put QUY_POD_SIZE_MASTER 0 9) (fun t => (t.quay 2).st == .failed &&
      t.get QUY_STATUS_KEY_FAILS 2 == 1 && t.unacked.map (fun u => (u.dst, u.msg)) == [(9, .quayFailed 0 2)]) = true := by unfold Live; decide +kernel

theorem test_quayFail_cases :
    (Live ((quayS 0).put QUY_STATUS_WIDTH 2 24) ∧ 24 ≤ ((quayS 0).put QUY_STATUS_WIDTH 2 24).get QUY_STATUS_WIDTH 2 ∧
      goes (.quayFail 2 1) ((quayS 0).put QUY_STATUS_WIDTH 2 24) (fun t => t == ((quayS 0).put QUY_STATUS_WIDTH 2 24)) = true) ∧
    (Live ((quayS 0).put QUY_STATUS_WIDTH 2 23) ∧ ((quayS 0).put QUY_STATUS_WIDTH 2 23).get QUY_STATUS_WIDTH 2 < 24 ∧
      goes (.quayFail 2 1) ((quayS 0).put QUY_STATUS_WIDTH 2 23) (fun t => (t.quay 2).st == .failed) = true) :=
    ⟨by unfold Live; decide +kernel, by unfold Live; decide +kernel⟩

theorem test_quayStop : HostUp (quayS 0) ∧ (quayS 0).get HMR_TIDE_STATUS_RUNNING 0 ≠ 0 ∧ goes (.quayStop 2) (quayS 0) (fun t => (t.quay 2).stopping &&
      (t.quay 2).st == .up && t.get QUY_CTL_STOP 2 == 1) = true := by unfold HostUp; decide +kernel

theorem test_quayTrain : HostUp (plainS .training) ∧ (plainS .training).get QUY_PEER_UNUSED 2 = 0 ∧
      goes (.quayTrain 2 true) (plainS .training) (fun t => (t.quay 2) == { st := .up, keyed := true } && t.get QUY_STATUS_WIDTH 2 == 32) = true := by
      unfold HostUp; decide +kernel

theorem test_quayTrain_cases :
    (HostUp (plainS .training) ∧ (plainS .training).get QUY_PEER_UNUSED 2 = 0 ∧ goes (.quayTrain 2 false) (plainS .training) (fun t => (t.quay 2).st == .failed &&
      t.get QUY_STATUS_KEY_FAILS 2 == 1) = true) ∧
    (HostUp ((plainS .training).put QUY_PEER_UNUSED 2 1) ∧ ((plainS .training).put QUY_PEER_UNUSED 2 1).get QUY_PEER_UNUSED 2 ≠ 0 ∧
      goes (.quayTrain 2 true) ((plainS .training).put QUY_PEER_UNUSED 2 1) (fun t => (t.quay 2).st == .down) = true) ∧
    (HostUp ((plainS .up).put QUY_CTL_STOP 2 1) ∧ (((plainS .up).put QUY_CTL_STOP 2 1).quay 2).st = .up ∧
      goes (.quayTrain 2 true) ((plainS .up).put QUY_CTL_STOP 2 1) (fun t => t == ((((plainS .up).put QUY_CTL_STOP 2 1).put QUY_CTL_STOP 2 0).put QUY_CTL_STOPPED 2 0).putQuay 2 { ((plainS .up).put QUY_CTL_STOP 2 1).quay 2 with
      stopping := false }) = true) :=
    ⟨by unfold HostUp; decide +kernel, by unfold HostUp; decide +kernel, by unfold HostUp; decide +kernel⟩

theorem test_quayReconnect : Live (plainS .failed) ∧ (plainS .failed).get QUY_CTL_STOP 2 = 0 ∧ (plainS .failed).get QUY_PEER_UNUSED 2 = 0 ∧
      goes (.quayReconnect 2 true) (plainS .failed) (fun t => (t.quay 2) == { st := .up, keyed := true }) = true := by unfold Live; decide +kernel

theorem test_quayStop_cases :
    (HostUp (plainS .up) ∧ (plainS .up).get HMR_TIDE_STATUS_RUNNING 0 = 0 ∧ goes (.quayStop 2) (plainS .up) (fun t => (t.quay 2).st == .stopped &&
      t.get QUY_CTL_STOPPED 2 == 1) = true) ∧
    (HostUp (recvS [(20, 15, [])] [(20, 4, 1)]) ∧ ((recvS [(20, 15, [])] [(20, 4, 1)]).quay 2).held = [(20, 15, [])] ∧
      ((recvS [(20, 15, [])] [(20, 4, 1)]).quay 2).counterFits 20 15 = true ∧
      goes (.quayStop 2) (recvS [(20, 15, [])] [(20, 4, 1)]) (fun t => t.out == [.deliver 2 20 15] && (t.quay 2).st == .stopped) = true) :=
    ⟨by unfold HostUp; decide +kernel, by unfold HostUp; decide +kernel⟩

theorem test_blockReceive : Live (recvS [] [(20, 15, 1)]) ∧ ((recvS [] [(20, 15, 1)]).quay 2).st = .up ∧ 20 ∉ ((recvS [] [(20, 15, 1)]).quay 2).dead ∧
      ((recvS [] [(20, 15, 1)]).quay 2).held = [] ∧ ((recvS [] [(20, 15, 1)]).quay 2).waits (20, 15, []) = false ∧
      ((recvS [] [(20, 15, 1)]).quay 2).counterFits 20 15 = true ∧
      goes (.blockReceive 2 20 15 0 ⟨true, [], 0, 0⟩) (recvS [] [(20, 15, 1)]) (fun t => t.out == [.deliver 2 20 15] && (t.quay 2).rxFrames == [(20, 1)] &&
      (t.quay 2).replays == []) = true := by unfold Live; decide +kernel

def w_blockReceive_credit : State := (recvS [] []).putQuay 2 { st := .up, keyed := true, spent := [(1, 20)] }

theorem test_blockReceive_cases :
    (Live (lanesS [] {}) ∧ ((lanesS [] {}).quay 2).st = .up ∧ 20 ∉ ((lanesS [] {}).quay 2).dead ∧ ((lanesS [] {}).quay 2).held = [] ∧
      ((lanesS [] {}).quay 2).waits (20, 15, []) = false ∧ ((lanesS [] {}).quay 2).counterFits 20 15 = true ∧ (lanesS [] {}).quayTo 11 = 3 ∧
      (lanesS [] {}).quayUp 3 = true ∧ goes (.blockReceive 2 20 15 0 ⟨true, [(11, 2)], 0, 0⟩) (lanesS [] {}) (fun t => t.out == [.deliver 2 20 15] &&
      (t.quay 3).through == [(0, 2)] && t.counts.forwarded == (lanesS [] {}).counts.forwarded + 256) = true) ∧
    (Live (recvS [] []) ∧ ((recvS [] []).quay 2).st = .up ∧ 20 ∉ ((recvS [] []).quay 2).dead ∧ ((recvS [] []).quay 2).held = [] ∧
      ((recvS [] []).quay 2).waits (20, 5, []) = false ∧ ((recvS [] []).quay 2).counterFits 20 5 = false ∧
      goes (.blockReceive 2 20 5 0 ⟨true, [], 0, 0⟩) (recvS [] []) (fun t => (t.quay 2).st == .failed && t.out == []) = true) ∧
    (Live (recvS [] [(20, 4, 1)]) ∧ ((recvS [] [(20, 4, 1)]).quay 2).st = .up ∧ 20 ∉ ((recvS [] [(20, 4, 1)]).quay 2).dead ∧
      ((recvS [] [(20, 4, 1)]).quay 2).waits (20, 15, []) = true ∧ goes (.blockReceive 2 20 15 0 ⟨true, [], 0, 0⟩) (recvS [] [(20, 4, 1)]) (fun t => t.out == [] &&
      (t.quay 2).held == [(20, 15, [])]) = true) ∧
    (Live w_blockReceive_credit ∧ (w_blockReceive_credit.quay 2).st = .up ∧ 20 ∉ (w_blockReceive_credit.quay 2).dead ∧ (w_blockReceive_credit.quay 2).held = [] ∧
      (w_blockReceive_credit.quay 2).waits (20, 15, []) = false ∧
      goes (.blockReceive 2 20 15 0 ⟨true, [], 1, 8⟩) w_blockReceive_credit (fun t => (t.quay 2).spent == [(1, 12)]) = true) ∧
    (Live (recvS [] []) ∧ ((recvS [] []).quay 2).st = .up ∧ 20 ∉ ((recvS [] []).quay 2).dead ∧
      goes (.blockReceive 2 20 15 1 ⟨true, [], 0, 0⟩) (recvS [] []) (fun t => t.out == [.deliver 2 20 15] && t.get QUY_BLOCKS_CORRECTED_COUNT 2 == 1) = true) ∧
    (Live (recvS [] []) ∧ ((recvS [] []).quay 2).st = .up ∧ 20 ∉ ((recvS [] []).quay 2).dead ∧ ((recvS [] []).quay 2).replaysOf 20 5 < 8 ∧
      goes (.blockReceive 2 20 5 2 ⟨true, [], 0, 0⟩) (recvS [] []) (fun t => (t.quay 2).replays == [(20, 5, 1)] && t.out == [.replayRequest 2 20 5]) = true) ∧
    (Live (recvS [] [(20, 5, 8)]) ∧ ((recvS [] [(20, 5, 8)]).quay 2).st = .up ∧ 20 ∉ ((recvS [] [(20, 5, 8)]).quay 2).dead ∧
      8 ≤ ((recvS [] [(20, 5, 8)]).quay 2).replaysOf 20 5 ∧
      goes (.blockReceive 2 20 5 2 ⟨true, [], 0, 0⟩) (recvS [] [(20, 5, 8)]) (fun t => t == (recvS [] [(20, 5, 8)]).laneFails 2 20 2) = true) ∧
    (Live (recvS [] []) ∧ ((recvS [] []).quay 2).st = .up ∧ 20 ∉ ((recvS [] []).quay 2).dead ∧
      goes (.blockReceive 2 20 5 3 ⟨true, [], 0, 0⟩) (recvS [] []) (fun t => t == (recvS [] []).quayFails 2 3 && (t.quay 2).st == .failed) = true) :=
    ⟨by unfold Live; decide +kernel, by unfold Live; decide +kernel, by unfold Live; decide +kernel, by unfold Live; decide +kernel,
     by unfold Live; decide +kernel, by unfold Live; decide +kernel, by unfold Live; decide +kernel, by unfold Live; decide +kernel⟩

theorem test_replayRequest : Live (recvS [] []) ∧ ((recvS [] []).quay 2).st = .up ∧ 20 ∉ ((recvS [] []).quay 2).dead ∧
      goes (.replayRequest 2 20 5) (recvS [] []) (fun t => t == ((recvS [] []).inc QUY_REPLAYS_COUNT 2 1).send (.replayBlock 2 20 5)) = true := by
      unfold Live; decide +kernel

theorem test_frameIdleClose : Live (recvS [] []) ∧ ((recvS [] []).quay 2).st = .up ∧ 20 ∉ ((recvS [] []).quay 2).dead ∧
      goes (.frameIdleClose 2 20 3 5) (recvS [] []) (fun t => (t.quay 2).txFrames == [(20, 4)] && t.out == [.idleBlocks 2 20 11]) = true := by
      unfold Live; decide +kernel

def w_frameIdleClose_rekey : State := (recvS [] []).putQuay 2 { st := .up, keyed := true, txFrames := [(3, 2 ^ 31 - 1)] }

theorem test_frameIdleClose_cases :
    (Live (recvS [] []) ∧ ((recvS [] []).quay 2).st = .up ∧ 20 ∉ ((recvS [] []).quay 2).dead ∧
      goes (.frameIdleClose 2 20 3 0) (recvS [] []) (fun t => (t.quay 2).txFrames == [(20, 3)] && t.out == []) = true) ∧
    (Live (lanesS [onVc 1, onVc 0, onVc 2] {}) ∧ ((lanesS [onVc 1, onVc 0, onVc 2] {}).quay 2).st = .up ∧ 20 ∉ ((lanesS [onVc 1, onVc 0, onVc 2] {}).quay 2).dead ∧
      goes (.frameIdleClose 2 20 0 2) (lanesS [onVc 1, onVc 0, onVc 2] {}) (fun t => t.out.drop 3 == [.block 2 20 0 (some 1), .block 2 20 1 (some 0), .idleBlocks 2 20 14] &&
      t.laneOut.sent == [1, 0] && (t.quay 2).spent == [(0, 1), (1, 1)] && (t.quay 2).sinceVc2 == [(20, 2)]) = true) ∧
    (Live (lanesS [onVc 0, onVc 2] { sinceVc2 := [(20, 15)] }) ∧ ((lanesS [onVc 0, onVc 2] { sinceVc2 := [(20, 15)] }).quay 2).st = .up ∧
      20 ∉ ((lanesS [onVc 0, onVc 2] { sinceVc2 := [(20, 15)] }).quay 2).dead ∧
      goes (.frameIdleClose 2 20 0 1) (lanesS [onVc 0, onVc 2] { sinceVc2 := [(20, 15)] }) (fun t => t.out.drop 2 == [.block 2 20 2 (some 1), .idleBlocks 2 20 15] &&
      (t.quay 2).sinceVc2 == [(20, 0)]) = true) ∧
    (Live (lanesS [onVc 0, onVc 1] { spent := [(0, 256)] }) ∧ ((lanesS [onVc 0, onVc 1] { spent := [(0, 256)] }).quay 2).st = .up ∧
      20 ∉ ((lanesS [onVc 0, onVc 1] { spent := [(0, 256)] }).quay 2).dead ∧
      goes (.frameIdleClose 2 20 0 1) (lanesS [onVc 0, onVc 1] { spent := [(0, 256)] }) (fun t => t.out.drop 2 == [.block 2 20 1 (some 1), .idleBlocks 2 20 15]) = true) ∧
    (Live (lanesS [long] {}) ∧ ((lanesS [long] {}).quay 2).st = .up ∧ 20 ∉ ((lanesS [long] {}).quay 2).dead ∧
      goes (.frameIdleClose 2 20 0 1) (lanesS [long] {}) (fun t => t.out.drop 1 == [.block 2 20 1 (some 0), .idleBlocks 2 20 15] && t.laneOut.sent == [] &&
      t.laneOut.part == [(0, 2, 1)]) = true) ∧
    (Live w_frameIdleClose_rekey ∧ (w_frameIdleClose_rekey.quay 2).st = .up ∧ 20 ∉ (w_frameIdleClose_rekey.quay 2).dead ∧
      goes (.frameIdleClose 2 20 1 0) w_frameIdleClose_rekey (fun t => (t.quay 2).txFrames == [] && t.out == [.newKey 2]) = true) :=
    ⟨by unfold Live; decide +kernel, by unfold Live; decide +kernel, by unfold Live; decide +kernel, by unfold Live; decide +kernel,
     by unfold Live; decide +kernel, by unfold Live; decide +kernel⟩

theorem test_nextBlock : let s := lanesS [onVc 0, onVc 1, onVc 2] {}; s.laneHeads 2 = [⟨some 0, 0, some 9, 0, none, 1⟩, ⟨some 1, 1, some 9, 1, none, 1⟩, ⟨some 2, 2, some 9, 2, none, 1⟩] ∧
      (s.nextBlock 2 20).map (·.vc) = some 0 ∧ s.nextBlock 3 20 = none := by decide +kernel

theorem test_linkRekey : Live (plainS .up) ∧ ((plainS .up).quay 2).st = .up ∧ goes (.linkRekey 2 true) (plainS .up) (fun t => (t.quay 2).txFrames == [] &&
      (t.quay 2).rxFrames == [(4, 8)] && t.out == [.newKey 2]) = true := by unfold Live; decide +kernel

theorem test_linkRekey_receive : Live (plainS .up) ∧ ((plainS .up).quay 2).st = .up ∧
      goes (.linkRekey 2 false) (plainS .up) (fun t => (t.quay 2).rxFrames == [] && (t.quay 2).txFrames == [(3, 7)] && t.out == [.newKey 2]) = true := by
      unfold Live; decide +kernel

def w_remoteReadTimeout : State := sized.putStream 5 { st := .running, srcRemote := true, device := 9, cls := 1, units := [sunit .inFlight 0 3] }

theorem test_remoteReadTimeout : Live w_remoteReadTimeout ∧ ((w_remoteReadTimeout.stream 5).unitAt 3).isSome = true ∧
      (w_remoteReadTimeout.stream 5).srcRemote = true ∧ goes (.remoteReadTimeout 5 3) w_remoteReadTimeout (fun t => t.out.length == 1 &&
      t == w_remoteReadTimeout.send (.net 9 1 ((w_remoteReadTimeout.stream 5).ask 5 (sunit .inFlight 0 3)))) = true := by unfold Live; decide +kernel

def w_remoteReadTimeout_write : State := sized.putStream 5 { st := .running, dstKind := 2, device := 9, cls := 2, units := [{ sunit .landed 0 3 with dst := 0x2000, len := 2, last := true, data := [7, 8] }] }

theorem test_remoteReadTimeout_write : Live w_remoteReadTimeout_write ∧ (w_remoteReadTimeout_write.stream 5).dstKind = 2 ∧
      ((w_remoteReadTimeout_write.stream 5).unitAt 3).isSome = true ∧
      goes (.remoteReadTimeout 5 3) w_remoteReadTimeout_write (fun t => t == w_remoteReadTimeout_write.send (.net 9 2 (.writeUnit 5 3 0x2000 0 0 2 (w_remoteReadTimeout_write.stream 5).rank [7, 8]))) = true := by
      unfold Live; decide +kernel

theorem test_vc0Resend : Live ({ up with unacked := [⟨4, 9, .ack 5 0 0 1⟩] } : State) ∧ goes (.vc0Resend) ({ up with
      unacked := [⟨4, 9, .ack 5 0 0 1⟩] } : State) (fun t => t.out == [.net 9 0 (.ack 5 0 0 1)] && t.unacked == ({ up with
      unacked := [⟨4, 9, .ack 5 0 0 1⟩] } : State).unacked) = true := by unfold Live; decide +kernel

def w_endToEndAck : State := { up with unacked := [⟨4, 9, .ack 5 0 0 1⟩, ⟨6, 9, .ack 5 0 0 1⟩] }

theorem test_endToEndAck : Live w_endToEndAck ∧ goes (.endToEndAck 9 4) w_endToEndAck (fun t => t.unacked == [⟨6, 9, .ack 5 0 0 1⟩]) = true := by
      unfold Live; decide +kernel

def w_endToEndAck_notice : State := { logS [{ logged0 with noticeTo := [9, 11] }] with unacked := [⟨4, 9, .notice dec0⟩] }

theorem test_endToEndAck_cases :
    (Live ({ up with unacked := [⟨4, 9, .ack 5 0 0 1⟩] } : State) ∧ goes (.endToEndAck 8 4) ({ up with
      unacked := [⟨4, 9, .ack 5 0 0 1⟩] } : State) (fun t => t == ({ up with unacked := [⟨4, 9, .ack 5 0 0 1⟩] } : State)) = true) ∧
    (Live w_endToEndAck_notice ∧ w_endToEndAck_notice.isMaster = true ∧ goes (.endToEndAck 9 4) w_endToEndAck_notice (fun t => t == ({ w_endToEndAck_notice with
      unacked := [] }).noticeAcked 5 9) = true) :=
    ⟨by unfold Live; decide +kernel, by unfold Live; decide +kernel⟩

theorem test_remoteStreamRead : (sized.poke 0x1000 [7]).hears 9 = true ∧
      ((sized.poke 0x1000 [7]).serveRead ⟨(100, 1), 1, 2, 5, 9, (sized.poke 0x1000 [7]).seq⟩ 0x1000).isSome = true ∧
      goes (.remoteStreamRead 9 5 3 0x1000 2 ⟨100, 1, 1, 2⟩) (sized.poke 0x1000 [7]) (fun t => t.out == [.net 9 1 (.readData 5 3 100 1 1 2 [7, 0])]) = true := by
      decide +kernel

def w_remoteStreamRead_waits : State := sized.putStream 5 { st := .running, cls := 0, units := [{ sunit .inFlight 0 3 with src := 0x1000, dry := (1, 1) }] }

theorem test_remoteStreamRead_waits : w_remoteStreamRead_waits.hears 9 = true ∧
      (w_remoteStreamRead_waits.serveRead ⟨(100, 1), 1, 2, 5, 9, w_remoteStreamRead_waits.seq⟩ 0x1000).isSome = false ∧
      goes (.remoteStreamRead 9 5 3 0x1000 2 ⟨100, 1, 1, 2⟩) w_remoteStreamRead_waits (fun t => t == w_remoteStreamRead_waits) = true := by decide +kernel

theorem test_remoteStreamWrite : ({ sized with remoteHolds := [⟨3, 9, 5, 1⟩] } : State).hears 9 = true ∧ 2 ≤ 1024 * ({ sized with
      remoteHolds := [⟨3, 9, 5, 1⟩] } : State).heldFor 9 5 ∧ goes (.remoteStreamWrite 9 5 3 0x1000 2 [7, 8]) ({ sized with
      remoteHolds := [⟨3, 9, 5, 1⟩] } : State) (fun t => t.mem == [(0x1000, 7), (0x1001, 8)] && t.out == [.net 9 2 (.writeAck 5 3)]) = true := by decide +kernel

theorem test_remoteStreamWrite_beyond : sized.hears 9 = true ∧ 1024 * sized.heldFor 9 5 < 1 ∧
      goes (.remoteStreamWrite 9 5 3 0x1000 2 [7]) sized (fun t => t == sized.freezePeer 9 2 && t.mem == []) = true := by decide +kernel

theorem test_peerViolation : Live sized ∧ goes (.peerViolation 9 3) sized (fun t => (t.peer 9).frozen && t.get QUY_FREEZE_LAST_PEER 0 == 9 &&
      t.get QUY_FREEZE_LAST_CAUSE 0 == 3 && (t.send (.net 9 1 (.ack 1 0 0 1))).out == []) = true := by unfold Live; decide +kernel

/-! ### The pod -/

/-- Quay 2 is up, its link peer quay 1 of device 9. -/
def linkS (s : State) : State := ((inUse s).put QUY_PEER_PEER_DEVICE 2 9 |>.put QUY_PEER_PEER_QUAY 2 1).putQuay 2 { st := .up, keyed := true }
/-- Device 0 in a pod of devices 0 and 9 that device m masters, with the tree given; device 11 is standby. -/
def pairS (m : Nat) (tree : List Nat) : State := { linkS (((sized.put QUY_POD_CTL_IN_POD 0 1).put QUY_POD_SIZE_MASTER 0 m).put QUY_POD_SIZE_STANDBY 0 11) with
  pod := { sized.pod with members := [0, 9], tree := tree } }
def soloS : State := { pairS 0 [0] with pod := { sized.pod with members := [0], tree := [0] } }
def joinR : JoinRequest := ⟨9, 2, soloS.get HMR_EPOCH_CFG_GRACE_TIDES 0, 0, true, true, [⟨9, 1, 0, 2⟩], true, none, 2, false, [0, 0, 0, 0, 0, 0, 0, 0]⟩
/-- Device 0 is the standby of a pod that device 9 masters; device 11 is the other member, linked to device 9. -/
def standbyS : State := { linkS ((((sized.put QUY_POD_CTL_IN_POD 0 1).put QUY_POD_SIZE_MASTER 0 9).put QUY_POD_SIZE_STANDBY 0 0).put QUY_POD_SIZE_NO_STANDBY 0 0) with
  pod := { sized.pod with members := [0, 9, 11], tree := [9, 0, 11], links := [⟨9, 3, 11, 4⟩], standbys := [0, 11] } }

theorem test_podJoin : HostUp (up.put QUY_POD_CFG_ROLE 0 1) ∧ (up.put QUY_POD_CFG_ROLE 0 1).get QUY_POD_CTL_IN_POD 0 = 0 ∧
      goes (.podJoin none) (up.put QUY_POD_CFG_ROLE 0 1) (fun t => t.get QUY_POD_CTL_IN_POD 0 == 1 && t.tide == 0 && t.get QUY_POD_SIZE_DEVICES 0 == 1 &&
      t.pod == { members := [0], tree := [0] }) = true := by unfold HostUp; decide +kernel

theorem test_podJoin_cases :
    (HostUp ({ up with cus := { up.cus with lifecycle := 0 } } : State) ∧ lcJoins ({ up with cus := { up.cus with
      lifecycle := 0 } } : State).cus.lifecycle = false ∧ goes (.podJoin none) ({ up with cus := { up.cus with lifecycle := 0 } } : State) (fun t => t == ({ up with
      cus := { up.cus with lifecycle := 0 } } : State).put QUY_POD_CTL_JOIN 0 1) = true) ∧
    (HostUp ((linkS up).put QUY_POD_CFG_MASTER_ID 0 9) ∧ ((linkS up).put QUY_POD_CFG_MASTER_ID 0 9).get QUY_POD_CFG_ROLE 0 ≠ 1 ∧
      ((linkS up).put QUY_POD_CFG_MASTER_ID 0 9).quaysReady = true ∧ ((linkS up).put QUY_POD_CFG_MASTER_ID 0 9).pod.requested = false ∧
      goes (.podJoin none) ((linkS up).put QUY_POD_CFG_MASTER_ID 0 9) (fun t => t.pod.requested && t.unacked.map (fun u => (u.dst, u.msg)) == [(9, .join 0)]) = true) ∧
    (HostUp up ∧ up.get QUY_POD_CFG_ROLE 0 ≠ 1 ∧ up.quaysReady = false ∧ goes (.podJoin none) up (fun t => t.pod.joining && !t.pod.requested &&
      t.unacked == []) = true) :=
    ⟨by unfold HostUp; decide +kernel, by unfold HostUp; decide +kernel, by unfold HostUp; decide +kernel⟩

def w_joinRetry : State := { up.put QUY_POD_CTL_JOIN_RESULT 0 4 with pod := { up.pod with joining := true, requested := true } }

theorem test_joinRetry : Live w_joinRetry ∧ w_joinRetry.get QUY_POD_CTL_IN_POD 0 = 0 ∧ w_joinRetry.pod.joining = true ∧ w_joinRetry.pod.requested = true ∧
      w_joinRetry.get QUY_POD_CTL_JOIN_RESULT 0 ≠ 0 ∧
      goes (.joinRetry none) w_joinRetry (fun t => t == w_joinRetry.sendVc0 (w_joinRetry.get QUY_POD_CFG_MASTER_ID 0) (.join w_joinRetry.me)) = true := by
      unfold Live; decide +kernel

def w_joinRetry_refused : State := { up.put QUY_POD_CTL_JOIN_RESULT 0 4 with pod := { up.pod with joining := true, requested := true } }

def w_joinRetry_joins : State := { up.put QUY_POD_CTL_JOIN_RESULT 0 4 with pod := { up.pod with joining := true, requested := true } }

theorem test_joinRetry_cases :
    (Live w_joinRetry_refused ∧ w_joinRetry_refused.get QUY_POD_CTL_IN_POD 0 = 0 ∧ w_joinRetry_refused.pod.joining = true ∧
      w_joinRetry_refused.pod.requested = true ∧ w_joinRetry_refused.get QUY_POD_CTL_JOIN_RESULT 0 ≠ 0 ∧
      goes (.joinRetry (some ⟨5, 0, 0, 0, []⟩)) w_joinRetry_refused (fun t => t.get QUY_POD_CTL_JOIN_RESULT 0 == 5 && t.get QUY_POD_CTL_IN_POD 0 == 0) = true) ∧
    (Live w_joinRetry_joins ∧ w_joinRetry_joins.get QUY_POD_CTL_IN_POD 0 = 0 ∧ w_joinRetry_joins.pod.joining = true ∧ w_joinRetry_joins.pod.requested = true ∧
      w_joinRetry_joins.get QUY_POD_CTL_JOIN_RESULT 0 ≠ 0 ∧ goes (.joinRetry (some ⟨0, 77, 2 + 2 ^ 32 * 9, 4, [9, 0]⟩)) w_joinRetry_joins (fun t => t.tide == 77 &&
      t.get QUY_POD_CTL_IN_POD 0 == 1 && t.podMaster == 9 && t.get QUY_POD_GEN_GENERATION 0 == 4 && t.pod.tree == [9, 0]) = true) :=
    ⟨by unfold Live; decide +kernel, by unfold Live; decide +kernel⟩

theorem test_joinRequest : Live soloS ∧ soloS.inPod = true ∧ soloS.isMaster = true ∧ soloS.pod.leaderless = false ∧ soloS.joinRefusal joinR = 0 ∧
      goes (.joinRequest joinR) soloS (fun t => t.get QUY_POD_GEN_GENERATION 0 == 1 && t.pod.arriving == [joinR] &&
      t.unacked.map (·.msg) == [.joinAnswer ⟨0, 100, soloS.podSize, 1, [0, 9]⟩]) = true := by unfold Live; decide +kernel

def w_joinRequest_full : State := { soloS with pod := { soloS.pod with members := List.replicate 4096 0 } }

theorem test_joinRequest_cases :
    (Live soloS ∧ soloS.inPod = true ∧ soloS.isMaster = true ∧ soloS.pod.leaderless = false ∧ goes (.joinRequest { joinR with
      periodSteps := 3, podId := 5 }) soloS (fun t => t == soloS.sendVc0 9 (.joinAnswer ⟨1, 0, 0, 0, []⟩)) = true) ∧
    (Live soloS ∧ soloS.inPod = true ∧ soloS.isMaster = true ∧ soloS.pod.leaderless = false ∧ goes (.joinRequest { joinR with
      podId := 5, device := 0 }) soloS (fun t => t == soloS.sendVc0 0 (.joinAnswer ⟨2, 0, 0, 0, []⟩)) = true) ∧
    (Live soloS ∧ soloS.inPod = true ∧ soloS.isMaster = true ∧ soloS.pod.leaderless = false ∧ 0 ∈ soloS.liveMembers ∧ goes (.joinRequest { joinR with
      device := 0 }) soloS (fun t => t == soloS.sendVc0 0 (.joinAnswer ⟨3, 0, 0, 0, []⟩)) = true) ∧
    (Live w_joinRequest_full ∧ w_joinRequest_full.inPod = true ∧ w_joinRequest_full.isMaster = true ∧ w_joinRequest_full.pod.leaderless = false ∧
      9 ∉ w_joinRequest_full.liveMembers ∧ 4096 ≤ w_joinRequest_full.liveMembers.length ∧
      goes (.joinRequest joinR) w_joinRequest_full (fun t => t.unacked.map (·.msg) == [.joinAnswer ⟨4, 0, 0, 0, []⟩]) = true) ∧
    (Live soloS ∧ soloS.inPod = true ∧ soloS.isMaster = true ∧ soloS.pod.leaderless = false ∧ soloS.joinRefusal { joinR with grace := 1000 } ≠ 0 ∧
      goes (.joinRequest { joinR with grace := 1000 }) soloS (fun t => t == soloS.sendVc0 9 (.joinAnswer ⟨6, 0, 0, 0, []⟩)) = true) :=
    ⟨by unfold Live; decide +kernel, by unfold Live; decide +kernel, by unfold Live; decide +kernel, by unfold Live; decide +kernel,
     by unfold Live; decide +kernel⟩

theorem test_podLeave : HostUp ({ pairS 9 [9, 0] with jobs := [job0] } : State) ∧ ({ pairS 9 [9, 0] with jobs := [job0] } : State).pod.leave = false ∧
      ({ pairS 9 [9, 0] with jobs := [job0] } : State).inPod = true ∧ goes (.podLeave) ({ pairS 9 [9, 0] with jobs := [job0] } : State) (fun t => t.pod.leave &&
      t.get QUY_POD_CTL_IN_POD 0 == 1) = true := by unfold HostUp; decide +kernel

def w_podLeave_done : State := { pairS 9 [9, 0] with pod := { (pairS 9 [9, 0]).pod with leave := true } }

theorem test_podLeave_cases :
    (HostUp ({ up with pod := { up.pod with joining := true } } : State) ∧ ({ up with pod := { up.pod with joining := true } } : State).inPod = false ∧
      goes (.podLeave) ({ up with pod := { up.pod with joining := true } } : State) (fun t => !t.pod.joining && t.get QUY_POD_CTL_JOIN 0 == 0) = true) ∧
    (HostUp w_podLeave_done ∧ w_podLeave_done.pod.leave = true ∧ w_podLeave_done.jobs = [] ∧ goes (.podLeave) w_podLeave_done (fun t => t.pod == {} &&
      t.get QUY_POD_CTL_IN_POD 0 == 0 && t.unacked.map (fun u => (u.dst, u.msg)) == [(9, .leave 0)]) = true) ∧
    (HostUp ({ jobS with pod := { sized.pod with leave := true } } : State) ∧ ({ jobS with pod := { sized.pod with leave := true } } : State).pod.leave = true ∧
      ({ jobS with pod := { sized.pod with leave := true } } : State).jobs ≠ [] ∧ goes (.podLeave) ({ jobS with pod := { sized.pod with
      leave := true } } : State) (fun t => t == ({ jobS with pod := { sized.pod with leave := true } } : State).put QUY_POD_CTL_JOIN 0 0) = true) :=
    ⟨by unfold HostUp; decide +kernel, by unfold HostUp; decide +kernel, by unfold HostUp; decide +kernel⟩

theorem test_leave : Live (pairS 0 [0, 9]) ∧ (pairS 0 [0, 9]).isMaster = true ∧ (pairS 0 [0, 9]).isLive 9 = true ∧
      goes (.leave 9) (pairS 0 [0, 9]) (fun t => t.pod.leaving == [9] && t.get QUY_POD_GEN_GENERATION 0 == 1 && t.out == [.broadcast (.lost 9 1)]) = true := by
      unfold Live; decide +kernel

def w_deviceLost : State := { pairS 0 [0, 9] with pod := { (pairS 0 [0, 9]).pod with silence := [(0, 9)] } }

theorem test_deviceLost : Live w_deviceLost ∧ w_deviceLost.pod.held = false ∧ w_deviceLost.neighbours 9 = [0] ∧ (0, 9) ∈ w_deviceLost.pod.silence ∧
      w_deviceLost.expects 9 = true ∧ (w_deviceLost.peer 9).lastHeard + 3 ≤ w_deviceLost.tide ∧ goes (.deviceLost 9) w_deviceLost (fun t => t.pod.leaving == [9] &&
      t.pod.silence == [] && t.out == [.broadcast (.lost 9 1)]) = true := by unfold Live; decide +kernel

def w_deviceLost_early : State := { (pairS 0 [0, 9]).putPeer 9 { lastHeard := 98 } with pod := { (pairS 0 [0, 9]).pod with silence := [(0, 9)] } }

theorem test_deviceLost_early : Live w_deviceLost_early ∧ w_deviceLost_early.expects 9 = true ∧
      w_deviceLost_early.tide < (w_deviceLost_early.peer 9).lastHeard + 3 ∧ goes (.deviceLost 9) w_deviceLost_early (fun t => t == w_deviceLost_early) = true := by
      unfold Live; decide +kernel

theorem test_lostNotice : Live (pairS 9 [9, 0]) ∧ (pairS 9 [9, 0]).inPod = true ∧ 11 ∉ (pairS 9 [9, 0]).pod.leaving ∧
      goes (.lostNotice 11 6) (pairS 9 [9, 0]) (fun t => t.pod.leaving == [11] && t.get QUY_POD_GEN_GENERATION 0 == 6) = true := by unfold Live; decide +kernel

theorem test_routeTables : Live (pairS 9 [9, 0]) ∧ (pairS 9 [9, 0]).inPod = true ∧ (pairS 9 [9, 0]).isMaster = false ∧
      goes (.routeTables [(9, ⟨2, 63, 1, 0, false⟩), (11, ⟨3, 2, 1, 2, false⟩)]) (pairS 9 [9, 0]) (fun t => t.routes == [(9, ⟨2, 63, 1, 0, false⟩), (11, ⟨3, 2, 1, 2, true⟩)] &&
      t.pod.members.length == 3) = true := by unfold Live; decide +kernel

def w_heartbeat : State := ({ pairS 9 [9, 0] with pod := { (pairS 9 [9, 0]).pod with silence := [(0, 9)] } }).putPeer 9 { lastHeard := 97, silent := true }

theorem test_heartbeat : Live w_heartbeat ∧ w_heartbeat.inPod = true ∧ 101 ≤ w_heartbeat.tide + 1 ∧
      goes (.heartbeat 9 101 0) w_heartbeat (fun t => t.peer 9 == { lastHeard := 101 } && t.pod.silence == []) = true := by unfold Live; decide +kernel

theorem test_heartbeatSilence : Live ((pairS 9 [9, 0]).putPeer 9 { lastHeard := 98 }) ∧ ((pairS 9 [9, 0]).putPeer 9 { lastHeard := 98 }).expects 9 = true ∧
      (((pairS 9 [9, 0]).putPeer 9 { lastHeard := 98 }).peer 9).lastHeard + 2 ≤ ((pairS 9 [9, 0]).putPeer 9 { lastHeard := 98 }).tide ∧
      ((pairS 9 [9, 0]).putPeer 9 { lastHeard := 98 }).isLive 9 = true ∧
      goes (.heartbeatSilence 9 0) ((pairS 9 [9, 0]).putPeer 9 { lastHeard := 98 }) (fun t => (t.peer 9).silent &&
      t.unacked.map (fun u => (u.dst, u.msg)) == [(11, .silence 9 0)]) = true := by unfold Live; decide +kernel

theorem test_heartbeatSilence_cases :
    (Live (pairS 0 [0, 9]) ∧ (pairS 0 [0, 9]).isLive 9 = true ∧ (pairS 0 [0, 9]).podMaster = (pairS 0 [0, 9]).me ∧
      goes (.heartbeatSilence 9 11) (pairS 0 [0, 9]) (fun t => t.pod.silence == [(11, 9)]) = true) ∧
    (Live ((pairS 9 [9, 0]).putPeer 9 { lastHeard := 98, silent := true }) ∧ ((pairS 9 [9, 0]).putPeer 9 { lastHeard := 98, silent := true }).expects 9 = true ∧
      (((pairS 9 [9, 0]).putPeer 9 { lastHeard := 98, silent := true }).peer 9).silent = true ∧
      goes (.heartbeatSilence 9 0) ((pairS 9 [9, 0]).putPeer 9 { lastHeard := 98, silent := true }) (fun t => t == ((pairS 9 [9, 0]).putPeer 9 { lastHeard := 98, silent := true })) = true) ∧
    (Live ((pairS 0 [0, 9]).putPeer 9 { lastHeard := 98 }) ∧ ((pairS 0 [0, 9]).putPeer 9 { lastHeard := 98 }).expects 9 = true ∧
      (((pairS 0 [0, 9]).putPeer 9 { lastHeard := 98 }).peer 9).lastHeard + 2 ≤ ((pairS 0 [0, 9]).putPeer 9 { lastHeard := 98 }).tide ∧
      ((pairS 0 [0, 9]).putPeer 9 { lastHeard := 98 }).podMaster = ((pairS 0 [0, 9]).putPeer 9 { lastHeard := 98 }).me ∧
      goes (.heartbeatSilence 9 0) ((pairS 0 [0, 9]).putPeer 9 { lastHeard := 98 }) (fun t => (t.peer 9).silent && t.pod.silence == [(0, 9)] &&
      t.unacked == []) = true) :=
    ⟨by unfold Live; decide +kernel, by unfold Live; decide +kernel, by unfold Live; decide +kernel⟩

theorem test_masterMirror : Live standbyS ∧ standbyS.inPod = true ∧ standbyS.isStandby = true ∧
      goes (.masterMirror [logged0] [0, 9] [0] [] (2 + 2 ^ 32 * 9)) standbyS (fun t => t.pod.mirror == [logged0] && t.pod.members == [0, 9] &&
      t.get QUY_POD_SIZE_DEVICES 0 == 2) = true := by unfold Live; decide +kernel

def w_standbyTakeover : State := { standbyS with pod := { standbyS.pod with silence := [(0, 9), (11, 9)], mirror := [{ logged0 with noticeTo := [11] }] }, unacked := [⟨4, 9, .ack 5 0 0 1⟩] }

theorem test_standbyTakeover : Live w_standbyTakeover ∧ w_standbyTakeover.isStandby = true ∧ w_standbyTakeover.neighbours 9 ≠ [] ∧
      w_standbyTakeover.allSilent 9 = true ∧ goes (.standbyTakeover none) w_standbyTakeover (fun t => t.podMaster == 0 && t.get QUY_POD_GEN_GENERATION 0 == 1 &&
      t.get QUY_POD_SIZE_STANDBY 0 == 11 && t.pod.leaving == [9] && t.unacked.any (fun u => u.msg == .notice dec0 && u.dst == 11) &&
      t.out.contains (.broadcast (.takeover 0))) = true := by unfold Live; decide +kernel

def w_standbyTakeover_last : State := { standbyS with pod := { standbyS.pod with silence := [(0, 9), (11, 9)], standbys := [0] } }

theorem test_standbyTakeover_cases :
    (Live w_standbyTakeover_last ∧ w_standbyTakeover_last.isStandby = true ∧ w_standbyTakeover_last.allSilent 9 = true ∧
      goes (.standbyTakeover none) w_standbyTakeover_last (fun t => t.podMaster == 0 && t.get QUY_POD_SIZE_NO_STANDBY 0 == 1) = true) ∧
    (Live ({ pairS 9 [9, 0] with unacked := [⟨4, 9, .ack 5 0 0 1⟩] } : State) ∧ ({ pairS 9 [9, 0] with
      unacked := [⟨4, 9, .ack 5 0 0 1⟩] } : State).hasStandby = true ∧ ({ pairS 9 [9, 0] with unacked := [⟨4, 9, .ack 5 0 0 1⟩] } : State).isStandby = false ∧
      ({ pairS 9 [9, 0] with unacked := [⟨4, 9, .ack 5 0 0 1⟩] } : State).isMaster = false ∧ goes (.standbyTakeover (some 12)) ({ pairS 9 [9, 0] with
      unacked := [⟨4, 9, .ack 5 0 0 1⟩] } : State) (fun t => t.podMaster == 11 && t.get QUY_POD_SIZE_STANDBY 0 == 12 && t.unacked.map (·.dst) == [11]) = true) :=
    ⟨by unfold Live; decide +kernel, by unfold Live; decide +kernel⟩

theorem test_timeMarker : Live (pairS 9 [9, 0]) ∧ (pairS 9 [9, 0]).inPod = true ∧ (pairS 9 [9, 0]).isMaster = false ∧ ((pairS 9 [9, 0]).quay 2).st = .up ∧
      (pairS 9 [9, 0]).get QUY_STATUS_DELAY_NS 2 = 0 ∧ goes (.timeMarker 2 100 25 0 3) (pairS 9 [9, 0]) (fun t => t.get HMR_TIDE_STATUS_LOCKED 0 == 1 &&
      t.get HMR_TIDE_STATUS_OFFSET_NS 0 == 25 && t.pod.correction == -12) = true := by unfold Live; decide +kernel

def w_timeMarker_children : State := { pairS 9 [9, 0, 11] with pod := { (pairS 9 [9, 0, 11]).pod with members := [0, 9, 11], tree := [9, 0] ++ List.replicate 15 20 ++ [11, 12] } }

theorem test_timeMarker_cases :
    (Live (pairS 9 [9, 0]) ∧ (pairS 9 [9, 0]).inPod = true ∧ (pairS 9 [9, 0]).isMaster = false ∧ ((pairS 9 [9, 0]).quay 2).st = .up ∧
      (pairS 9 [9, 0]).get QUY_STATUS_DELAY_NS 2 = 0 ∧ goes (.timeMarker 2 100 0 26 3) (pairS 9 [9, 0]) (fun t => t.get HMR_TIDE_STATUS_LOCKED 0 == 0 &&
      t.get HMR_TIDE_STATUS_SLIP 0 == 1 && t.get HMR_TIDE_STATUS_OFFSET_NS 0 == 65510 && t.pod.correction == 8) = true) ∧
    (Live (pairS 9 [9, 0]) ∧ (pairS 9 [9, 0]).inPod = true ∧ (pairS 9 [9, 0]).isMaster = false ∧ ((pairS 9 [9, 0]).quay 2).st = .up ∧
      (pairS 9 [9, 0]).get QUY_STATUS_DELAY_NS 2 = 0 ∧ goes (.timeMarker 2 100 501 0 3) (pairS 9 [9, 0]) (fun t => t.pod == {} &&
      t.get QUY_POD_CTL_IN_POD 0 == 0) = true) ∧
    (Live ({ pairS 9 [9, 0] with jobs := [job0] } : State) ∧ ({ pairS 9 [9, 0] with jobs := [job0] } : State).inPod = true ∧ ({ pairS 9 [9, 0] with
      jobs := [job0] } : State).isMaster = false ∧ (({ pairS 9 [9, 0] with jobs := [job0] } : State).quay 2).st = .up ∧ ({ pairS 9 [9, 0] with
      jobs := [job0] } : State).get QUY_STATUS_DELAY_NS 2 = 0 ∧ ({ pairS 9 [9, 0] with jobs := [job0] } : State).jobs ≠ [] ∧
      goes (.timeMarker 2 100 501 0 3) ({ pairS 9 [9, 0] with jobs := [job0] } : State) (fun t => t.pod.leave && t.pod.withdrawn &&
      t.get HMR_TIDE_STATUS_SLIP 0 == 1) = true) ∧
    (Live w_timeMarker_children ∧ w_timeMarker_children.inPod = true ∧ w_timeMarker_children.isMaster = false ∧ (w_timeMarker_children.quay 2).st = .up ∧
      w_timeMarker_children.get QUY_STATUS_DELAY_NS 2 = 0 ∧
      goes (.timeMarker 2 100 25 0 3) w_timeMarker_children (fun t => childrenIn w_timeMarker_children.pod.tree 0 != [] &&
      (childrenIn w_timeMarker_children.pod.tree 0).all (fun c => t.out.contains (.net c 0 (.marker 100 28)))) = true) :=
    ⟨by unfold Live; decide +kernel, by unfold Live; decide +kernel, by unfold Live; decide +kernel, by unfold Live; decide +kernel⟩

def w_markerLossLeave : State := { pairS 9 [9, 0] with pod := { (pairS 9 [9, 0]).pod with noMarker := 16 } }

theorem test_markerLossLeave : Live w_markerLossLeave ∧ 16 ≤ w_markerLossLeave.pod.noMarker ∧ w_markerLossLeave.pod.withdrawn = false ∧
      w_markerLossLeave.jobs = [] ∧ goes (.markerLossLeave) w_markerLossLeave (fun t => t.pod == {} && t.get HMR_TIDE_STATUS_SLIP 0 == 1) = true := by
      unfold Live; decide +kernel

def w_markerLossLeave_jobs : State := { pairS 9 [9, 0] with pod := { (pairS 9 [9, 0]).pod with noMarker := 16 }, jobs := [job0] }

theorem test_markerLossLeave_jobs : Live w_markerLossLeave_jobs ∧ w_markerLossLeave_jobs.jobs ≠ [] ∧
      goes (.markerLossLeave) w_markerLossLeave_jobs (fun t => t.pod.leave && t.pod.withdrawn && t.jobs == w_markerLossLeave_jobs.jobs) = true := by
      unfold Live; decide +kernel

theorem test_delayProbe : Live (pairS 9 [9, 0]) ∧ ((pairS 9 [9, 0]).quay 2).st = .up ∧
      goes (.delayProbe 2 61) (pairS 9 [9, 0]) (fun t => t == (pairS 9 [9, 0]).put QUY_STATUS_DELAY_NS 2 30) = true := by unfold Live; decide +kernel

/-! ### Collectives and snapshots -/

/-- The entry of channel 3: a pod-wide collective of one 32-bit integer at 0x1000, by operation. -/
def centry (op root : Nat) : CollEntry := ⟨op, 0, 0, root, 2, 0x400000002000, 1, 0x400000002008, 5, 4, 0x1000, 0x1100, []⟩
def collS (op root g : Nat) (tree : List Nat) : State := (({ (pairS 9 tree).putBitAt QUY_COLL_EN_ENABLE 0 3 true with
  colls := [(3, ⟨centry op root, 0, false, false, false, [], [], []⟩)] }).poke 0x400000002000 [BitVec.ofNat 8 g]).poke 0x1000 [7]
def roundS (x : Coll) : State := { pairS 9 x.tree with colls := [(3, x)] }
def run3 (op : Nat) (tree : List Nat) (results : List (Nat × List Byte)) (off : Bool) : Coll := ⟨centry op 9, 0, true, true, off, [], results, tree⟩
def cdirS : State := ((up.put QUY_COLL_DIR_BASE 0 0x60000).poke 0x600C0 (leBytes 64 171477530966708773540587385414959044270143252320992629236539424073761671316850582189818627630768618827777348888837488644))

theorem test_collectiveChannelEnable : HostUp cdirS ∧ cdirS.coll 3 = none ∧ cdirS.collEntry 3 = some (centry 4 0) ∧
      goes (.collectiveChannelEnable 3) cdirS (fun t => t.coll 3 == some ⟨centry 4 0, 0, false, false, false, [], [], []⟩ &&
      t.bitAt QUY_COLL_EN_ENABLE 0 3) = true := by unfold HostUp; decide +kernel

theorem test_collectiveChannelEnable_cases :
    (HostUp cdirS ∧ cdirS.coll 4 = none ∧ cdirS.collEntry 4 = none ∧ goes (.collectiveChannelEnable 4) cdirS (fun t => t.coll 4 == none &&
      t.bitAt QUY_COLL_STATUS_LO_BAD 0 4 && !t.bitAt QUY_COLL_EN_ENABLE 0 4) = true) ∧
    (HostUp (roundS { run3 4 [0] [] false with disabling := true }) ∧ ((roundS { run3 4 [0] [] false with
      disabling := true }).coll 3).map (·.disabling) = some true ∧ goes (.collectiveChannelEnable 3) (roundS { run3 4 [0] [] false with
      disabling := true }) (fun t => (t.coll 3).map (·.disabling) == some false && t.bitAt QUY_COLL_EN_ENABLE 0 3) = true) :=
    ⟨by unfold HostUp; decide +kernel, by unfold HostUp; decide +kernel⟩

theorem test_collectiveChannelDisable_none : HostUp cdirS ∧ cdirS.coll 5 = none ∧
      goes (.collectiveChannelDisable 5) cdirS (fun t => t == cdirS.putBitAt QUY_COLL_EN_ENABLE 0 5 false) = true := by unfold HostUp; decide +kernel

theorem test_collectiveChannelDisable_cases :
    (HostUp (collS 4 0 0 [0]) ∧ ((collS 4 0 0 [0]).coll 3).map (·.running) = some false ∧
      goes (.collectiveChannelDisable 3) (collS 4 0 0 [0]) (fun t => t.coll 3 == none) = true) ∧
    (HostUp (roundS (run3 4 [0] [] false)) ∧ ((roundS (run3 4 [0] [] false)).coll 3).map (·.running) = some true ∧
      goes (.collectiveChannelDisable 3) (roundS (run3 4 [0] [] false)) (fun t => (t.coll 3).map (·.disabling) == some true) = true) :=
    ⟨by unfold HostUp; decide +kernel, by unfold HostUp; decide +kernel⟩

theorem test_collectiveRoundOpen : Live (collS 4 0 3 [9, 0]) ∧ (collS 4 0 3 [9, 0]).inPod = true ∧ (collS 4 0 3 [9, 0]).bitAt QUY_COLL_EN_ENABLE 0 3 = true ∧
      (collS 4 0 3 [9, 0]).collFailed 3 = false ∧ ((collS 4 0 3 [9, 0]).coll 3).map (·.running) = some false ∧
      leNat ((collS 4 0 3 [9, 0]).bytes 0x400000002000 8) &&& 1 = 1 ∧ parentIn [9, 0] (collS 4 0 3 [9, 0]).me = some 9 ∧
      goes (.collectiveRoundOpen 3) (collS 4 0 3 [9, 0]) (fun t => t.unacked.map (fun u => (u.dst, u.msg)) == [(9, .collUp 3 0 0 [7, 0, 0, 0])] &&
      Tab.find 0x400000002000 t.mem == some 2) = true := by unfold Live; decide +kernel

theorem test_collectiveRoundOpen_cases :
    (Live (collS 4 0 2 [9, 0]) ∧ (collS 4 0 2 [9, 0]).inPod = true ∧ (collS 4 0 2 [9, 0]).bitAt QUY_COLL_EN_ENABLE 0 3 = true ∧
      (collS 4 0 2 [9, 0]).collFailed 3 = false ∧ ((collS 4 0 2 [9, 0]).coll 3).map (·.running) = some false ∧
      leNat ((collS 4 0 2 [9, 0]).bytes 0x400000002000 8) &&& 1 ≠ 1 ∧
      goes (.collectiveRoundOpen 3) (collS 4 0 2 [9, 0]) (fun t => t.coll 3 == (collS 4 0 2 [9, 0]).coll 3 && t.unacked == []) = true) ∧
    (Live (collS 4 0 1 [0]) ∧ (collS 4 0 1 [0]).inPod = true ∧ (collS 4 0 1 [0]).bitAt QUY_COLL_EN_ENABLE 0 3 = true ∧ (collS 4 0 1 [0]).collFailed 3 = false ∧
      ((collS 4 0 1 [0]).coll 3).map (·.running) = some false ∧ parentIn [0] (collS 4 0 1 [0]).me = none ∧
      goes (.collectiveRoundOpen 3) (collS 4 0 1 [0]) (fun t => (t.coll 3).map (·.results) == some [(0, [7, 0, 0, 0])]) = true) ∧
    (Live (collS 2 0 1 [9, 0]) ∧ (collS 2 0 1 [9, 0]).inPod = true ∧ (collS 2 0 1 [9, 0]).bitAt QUY_COLL_EN_ENABLE 0 3 = true ∧
      (collS 2 0 1 [9, 0]).collFailed 3 = false ∧ ((collS 2 0 1 [9, 0]).coll 3).map (·.running) = some false ∧ (collS 2 0 1 [9, 0]).around [9, 0] = [9] ∧
      goes (.collectiveRoundOpen 3) (collS 2 0 1 [9, 0]) (fun t => t.unacked.map (fun u => (u.dst, u.msg)) == [(9, .collDown 3 0 [7, 0, 0, 0])]) = true) ∧
    (Live (collS 2 9 1 [9, 0]) ∧ (collS 2 9 1 [9, 0]).inPod = true ∧ (collS 2 9 1 [9, 0]).bitAt QUY_COLL_EN_ENABLE 0 3 = true ∧
      (collS 2 9 1 [9, 0]).collFailed 3 = false ∧ ((collS 2 9 1 [9, 0]).coll 3).map (·.running) = some false ∧ (centry 2 9).root ≠ (collS 2 9 1 [9, 0]).me ∧
      goes (.collectiveRoundOpen 3) (collS 2 9 1 [9, 0]) (fun t => (t.coll 3).map (fun x => (x.running, x.sent, x.results)) == some (true, true, []) &&
      t.unacked == []) = true) :=
    ⟨by unfold Live; decide +kernel, by unfold Live; decide +kernel, by unfold Live; decide +kernel, by unfold Live; decide +kernel⟩

theorem test_collectiveMessage_down : Live (roundS (run3 2 [9, 0] [] false)) ∧ ((roundS (run3 2 [9, 0] [] false)).coll 3).bind (fun x => x.result 0) = none ∧
      (roundS (run3 2 [9, 0] [] false)).around [9, 0] = [9] ∧
      goes (.collectiveMessage 3 0 5 true true [5, 0, 0, 0]) (roundS (run3 2 [9, 0] [] false)) (fun t => t.unacked.map (fun u => (u.dst, u.msg)) == [(9, .collDown 3 0 [5, 0, 0, 0])]) = true := by
      unfold Live; decide +kernel

theorem test_collectiveMessage_cases :
    (Live (roundS (run3 4 [0, 9] [] false)) ∧ childrenIn [0, 9] (roundS (run3 4 [0, 9] [] false)).me = [9] ∧
      goes (.collectiveMessage 3 0 5 true true [5, 0, 0, 0]) (roundS (run3 4 [0, 9] [] false)) (fun t => t.unacked.map (fun u => (u.dst, u.msg)) == [(9, .collDown 3 0 [5, 0, 0, 0])]) = true) ∧
    (Live (roundS (run3 3 [0, 9] [] false)) ∧ (run3 3 [0, 9] [] false).entry.op = 3 ∧
      goes (.collectiveMessage 3 0 9 true true [5, 0, 0, 0]) (roundS (run3 3 [0, 9] [] false)) (fun t => t.unacked == [] &&
      (t.coll 3).map (·.results) == some [(0, [5, 0, 0, 0])]) = true) ∧
    (Live (roundS (run3 4 [9, 0] [] false)) ∧ (roundS (run3 4 [9, 0] [] false)).inPod = true ∧ (roundS (run3 4 [9, 0] [] false)).collFailed 3 = false ∧
      goes (.collectiveMessage 3 0 9 true true [5, 0, 0, 0]) (roundS (run3 4 [9, 0] [] false)) (fun t => (t.coll 3).map (·.results) == some [(0, [5, 0, 0, 0])]) = true) ∧
    (Live (collS 4 0 0 [0, 9]) ∧ ((collS 4 0 0 [0, 9]).coll 3).map (·.running) = some false ∧
      goes (.collectiveMessage 3 0 9 false true [5, 0, 0, 0]) (collS 4 0 0 [0, 9]) (fun t => (t.coll 3).map (·.heard) == some [(0, 9, [5, 0, 0, 0])]) = true) ∧
    (Live (roundS (run3 4 [0, 9] [] false)) ∧ (run3 4 [0, 9] [] false).repeats 65535 true = true ∧ (run3 4 [0, 9] [] false).repeats 0 false = true ∧
      goes (.collectiveMessage 3 65535 9 true true [5, 0, 0, 0]) (roundS (run3 4 [0, 9] [] false)) (fun t => t == (roundS (run3 4 [0, 9] [] false)) &&
      goes (.collectiveMessage 3 0 9 false true [5, 0, 0, 0]) (roundS (run3 4 [0, 9] [] false)) fun t => t == (roundS (run3 4 [0, 9] [] false))) = true) ∧
    (Live (roundS (run3 4 [9, 0] [] false)) ∧ goes (.collectiveMessage 3 0 9 true false []) (roundS (run3 4 [9, 0] [] false)) (fun t => t.collFailed 3 &&
      (t.coll 3).map (·.running) == some false) = true) :=
    ⟨by unfold Live; decide +kernel, by unfold Live; decide +kernel, by unfold Live; decide +kernel, by unfold Live; decide +kernel,
     by unfold Live; decide +kernel, by unfold Live; decide +kernel⟩

theorem test_combine : combine 2 [255, 255, 255, 255, 1, 0, 0, 0] [2, 0, 0, 0, 7, 0, 0, 0] = [1, 0, 0, 0, 8, 0, 0, 0] := by decide +kernel

theorem test_collectiveRoundComplete : Live (roundS (run3 4 [9, 0] [(0, [5, 6])] false)) ∧
      (roundS (run3 4 [9, 0] [(0, [5, 6])] false)).roundComplete (run3 4 [9, 0] [(0, [5, 6])] false) = true ∧
      goes (.collectiveRoundComplete 3) (roundS (run3 4 [9, 0] [(0, [5, 6])] false)) (fun t => t.mem == [(0x1100, 5), (0x1101, 6), (0x400000002008, 32)] &&
      (t.coll 3).map (fun x => (x.round, x.running)) == some (1, false)) = true := by unfold Live; decide +kernel

theorem test_collectiveRoundComplete_off : Live (roundS (run3 4 [9, 0] [(0, [5, 6])] true)) ∧
      goes (.collectiveRoundComplete 3) (roundS (run3 4 [9, 0] [(0, [5, 6])] true)) (fun t => t.coll 3 == none) = true := by unfold Live; decide +kernel

theorem test_snapshotRequest : HostUp soloS ∧ soloS.isMaster = true ∧ soloS.pod.snapshot = none ∧ snapDest 0x2000 = true ∧ soloS.tide < 105 ∧
      goes (.snapshotRequest 105 0x2000) soloS (fun t => t.pod.cuts == [(105, 0x2000)] && t.out == [.broadcast (.snapRequest 105)] &&
      t.pod.snapshot == some ⟨105, 0x2000, none⟩) = true := by unfold HostUp; decide +kernel

theorem test_snapshotRequest_cases :
    (HostUp soloS ∧ 100 ≤ soloS.tide ∧ goes (.snapshotRequest 100 0x2000) soloS (fun t => t.get QUY_SNAP_CTL_HI_LATE 0 == 1 && t.pod.snapshot == none) = true) ∧
    (Live (pairS 9 [9, 0]) ∧ (pairS 9 [9, 0]).isMaster = false ∧ (pairS 9 [9, 0]).tide < 105 ∧
      goes (.snapshotRequest 105 0x2000) (pairS 9 [9, 0]) (fun t => t.pod.cuts == [(105, 0x2000)]) = true) :=
    ⟨by unfold HostUp; decide +kernel, by unfold Live; decide +kernel⟩

def w_snapshotRecordsWritten : State := { pairS 0 [0, 9] with pod := { (pairS 0 [0, 9]).pod with snapshot := some ⟨105, 0x2000, some [1, 2]⟩ } }

theorem test_snapshotRecordsWritten : Live w_snapshotRecordsWritten ∧ w_snapshotRecordsWritten.isMaster = true ∧
      goes (.snapshotRecordsWritten []) w_snapshotRecordsWritten (fun t => t.mem == [(0x2000, 1), (0x2001, 2), (0x2100, 105), (0x2108, 9), (0x2109, 0x80)] &&
      t.pod.snapshot == none && t.get QUY_SNAP_CTL_HI_DONE 0 == 1) = true := by unfold Live; decide +kernel

/-! ### Customs -/

/-- Customs holds its identity; transport 1 has negotiated up to level n, and what is given besides. -/
def cusS (n : Nat) (f : Customs → Customs) : State := { up with cus := f { up.cus with identity := true, lifecycle := lcDeployed, ownerHash := some 3, spdm := [(1, n)] } }
def codes (t : State) : List (Nat × Nat × Nat) := t.out.map fun m => match m with | .spdm p c l => (p, c, l.length) | _ => (9, 0, 0)
def sess (fin : Bool) : Session := ⟨5, 1, fin, true, 0⟩

theorem test_getVersion : (cusS 3 id).customsUp = true ∧ (cusS 3 id).cus.level 1 = 3 ∧
      goes (.getVersion 1) (cusS 3 id) (fun t => t.out == [.spdm 1 0x04 [0x13, 0x12]] && t.cus.level 1 == 1) = true := by decide +kernel

theorem test_getCapabilities : (cusS 1 id).customsUp = true ∧ (cusS 1 id).cus.level 1 = 1 ∧
      goes (.getCapabilities 1) (cusS 1 id) (fun t => t.out == [.spdm 1 0x61 [spdmCaps]] && t.cus.level 1 == 2) = true := by decide +kernel

theorem test_getCapabilities_early : (cusS 0 id).customsUp = true ∧ (cusS 0 id).cus.level 1 = 0 ∧
      goes (.getCapabilities 1) (cusS 0 id) (fun t => t == (cusS 0 id).send (.spdm 1 0x7F [4])) = true := by decide +kernel

theorem test_negotiateAlgorithms : (cusS 2 id).customsUp = true ∧ (cusS 2 id).cus.level 1 = 2 ∧
      goes (.negotiateAlgorithms 1) (cusS 2 id) (fun t => t.out == [.spdm 1 0x63 [0x80, 0x02, 0x10, 0x02]] && t.cus.level 1 == 3) = true := by decide +kernel

theorem test_getDigests : (cusS 3 id).customsUp = true ∧ (cusS 3 id).cus.level 1 = 3 ∧
      goes (.getDigests 1) (cusS 3 id) (fun t => codes t == [(1, 0x01, 3)]) = true := by decide +kernel

theorem test_getDigests_early : (cusS 2 id).customsUp = true ∧ (cusS 2 id).cus.level 1 = 2 ∧
      goes (.getDigests 1) (cusS 2 id) (fun t => t == (cusS 2 id).send (.spdm 1 0x7F [4])) = true := by decide +kernel

theorem test_getCertificate : (cusS 3 id).customsUp = true ∧ (cusS 3 id).cus.level 1 = 3 ∧ 2 > 1 ∧
      goes (.getCertificate 1 2 0 64) (cusS 3 id) (fun t => t == (cusS 3 id).send (.spdm 1 0x7F [1])) = true := by decide +kernel

theorem test_getCertificate_empty : (cusS 3 id).customsUp = true ∧ (cusS 3 id).cus.level 1 = 3 ∧ 0 ≤ Config.certBytes 0 ∧
      goes (.getCertificate 1 0 0 0) (cusS 3 id) (fun t => (t.out.map fun m => match m with
      | .spdm p c l => (p, c, l.take 2) | _ => (9, 0, [])) == [(1, 0x02, [0, 0])]) = true := by decide +kernel

theorem test_challenge : (cusS 3 id).customsUp = true ∧ (cusS 3 id).cus.level 1 = 3 ∧
      goes (.challenge 1 0 77) (cusS 3 id) (fun t => codes t == [(1, 0x03, 5)] && t.cus.drawn == 2) = true := by decide +kernel

theorem test_getMeasurements : (cusS 3 id).customsUp = true ∧ (cusS 3 id).cus.level 1 = 3 ∧
      goes (.getMeasurements 1 8 77 true) (cusS 3 id) (fun t => codes t == [(1, 0x60, 8)] && t.cus.drawn == 2) = true := by decide +kernel

theorem test_getMeasurements_large : (cusS 3 id).customsUp = true ∧ (cusS 3 id).cus.level 1 = 3 ∧
      goes (.getMeasurements 1 0xF0 77 false) (cusS 3 id) (fun t => t.out == [.spdm 1 0x7F [0x0F]] &&
      (t.cus.partsOut 1).map (·.length) == [1024, 1024, 1024, 1024, 531]) = true := by decide +kernel

theorem test_keyExchange : (cusS 3 id).customsUp = true ∧ (cusS 3 id).cus.level 1 = 3 ∧
      goes (.keyExchange 1 true) (cusS 3 id) (fun t => codes t == [(1, 0x64, 3)] && t.cus.sessions == [⟨1, 1, false, true, 0⟩] &&
      t.cus.nextSession == 2) = true := by decide +kernel

theorem test_keyExchange_full : (cusS 3 fun x => { x with sessions := List.replicate 4 (sess true) }).customsUp = true ∧ (cusS 3 fun x => { x with
      sessions := List.replicate 4 (sess true) }).cus.level 1 = 3 ∧ 4 ≤ (cusS 3 fun x => { x with sessions := List.replicate 4 (sess true) }).cus.sessions.length ∧
      goes (.keyExchange 1 true) (cusS 3 fun x => { x with sessions := List.replicate 4 (sess true) }) (fun t => t == (cusS 3 fun x => { x with
      sessions := List.replicate 4 (sess true) }).send (.spdm 1 0x7F [0x0A])) = true := by decide +kernel

theorem test_finish : (cusS 3 fun x => { x with sessions := [sess false] }).customsUp = true ∧ (cusS 3 fun x => { x with
      sessions := [sess false] }).cus.level 1 = 3 ∧ (cusS 3 fun x => { x with sessions := [sess false] }).cus.session 5 = some (sess false) ∧
      goes (.finish 1 5 true) (cusS 3 fun x => { x with sessions := [sess false] }) (fun t => t.cus.sessions == [sess true] &&
      t.out == [.spdm 1 0x65 [5]]) = true := by decide +kernel

theorem test_finish_fails : (cusS 3 fun x => { x with sessions := [sess false] }).customsUp = true ∧ (cusS 3 fun x => { x with
      sessions := [sess false] }).cus.level 1 = 3 ∧ goes (.finish 1 5 false) (cusS 3 fun x => { x with sessions := [sess false] }) (fun t => t.cus.sessions == [] &&
      t.out == [.spdm 1 0x7F [6]]) = true := by decide +kernel

theorem test_heartbeatSpdm : (cusS 3 fun x => { x with sessions := [sess true] }).customsUp = true ∧ (cusS 3 fun x => { x with
      sessions := [sess true] }).cus.level 1 = 3 ∧ (cusS 3 fun x => { x with sessions := [sess true] }).cus.session 5 = some (sess true) ∧
      goes (.heartbeatSpdm 1 5) (cusS 3 fun x => { x with sessions := [sess true] }) (fun t => t == (cusS 3 fun x => { x with
      sessions := [sess true] }).send (.spdm 1 0x68 [5])) = true := by decide +kernel

theorem test_heartbeatSpdm_none : (cusS 3 fun x => { x with sessions := [sess true] }).customsUp = true ∧ (cusS 3 fun x => { x with
      sessions := [sess true] }).cus.level 1 = 3 ∧ (cusS 3 fun x => { x with sessions := [sess true] }).cus.session 6 = none ∧
      goes (.heartbeatSpdm 1 6) (cusS 3 fun x => { x with sessions := [sess true] }) (fun t => t == (cusS 3 fun x => { x with
      sessions := [sess true] }).send (.spdm 1 0x7F [0x0B])) = true := by decide +kernel

theorem test_keyUpdate : (cusS 3 fun x => { x with sessions := [sess true] }).customsUp = true ∧ (cusS 3 fun x => { x with
      sessions := [sess true] }).cus.level 1 = 3 ∧ (cusS 3 fun x => { x with sessions := [sess true] }).cus.session 5 = some (sess true) ∧
      goes (.keyUpdate 1 5) (cusS 3 fun x => { x with sessions := [sess true] }) (fun t => t.cus.sessions == [{ sess true with updates := 1 }] &&
      t.out == [.spdm 1 0x69 [5]]) = true := by decide +kernel

theorem test_endSession : (cusS 3 fun x => { x with sessions := [sess true] }).customsUp = true ∧ (cusS 3 fun x => { x with
      sessions := [sess true] }).cus.level 1 = 3 ∧ (cusS 3 fun x => { x with sessions := [sess true] }).cus.session 5 = some (sess true) ∧
      goes (.endSession 1 5) (cusS 3 fun x => { x with sessions := [sess true] }) (fun t => t.cus.sessions == [] && t.out == [.spdm 1 0x6C [5]]) = true := by
      decide +kernel

theorem test_chunkSend : (cusS 3 fun x => { x with chunksIn := [(1, [[7]])] }).customsUp = true ∧ (cusS 3 fun x => { x with
      chunksIn := [(1, [[7]])] }).cus.level 1 = 3 ∧ 1 = ((cusS 3 fun x => { x with chunksIn := [(1, [[7]])] }).cus.partsIn 1).length ∧
      goes (.chunkSend 1 1 false [8]) (cusS 3 fun x => { x with chunksIn := [(1, [[7]])] }) (fun t => t.cus.partsIn 1 == [[7], [8]] &&
      t.out == [.spdm 1 0x05 [1]]) = true := by decide +kernel

theorem test_chunkSend_last : (cusS 3 fun x => { x with chunksIn := [(1, [[7]])] }).customsUp = true ∧ (cusS 3 fun x => { x with
      chunksIn := [(1, [[7]])] }).cus.level 1 = 3 ∧ goes (.chunkSend 1 1 true [8]) (cusS 3 fun x => { x with
      chunksIn := [(1, [[7]])] }) (fun t => t.cus.chunksIn == [] && t.out == [.spdm 1 0x05 [1]]) = true := by decide +kernel

theorem test_chunkGet : (cusS 3 fun x => { x with chunksOut := [(1, [[7], [8]])] }).customsUp = true ∧ (cusS 3 fun x => { x with
      chunksOut := [(1, [[7], [8]])] }).cus.level 1 = 3 ∧ ((cusS 3 fun x => { x with chunksOut := [(1, [[7], [8]])] }).cus.partsOut 1)[0]? = some [7] ∧
      goes (.chunkGet 1 0) (cusS 3 fun x => { x with chunksOut := [(1, [[7], [8]])] }) (fun t => t.out == [.spdm 1 0x06 [0, 0, 7]] &&
      t.cus.partsOut 1 == [[7], [8]]) = true := by decide +kernel

theorem test_chunkGet_last : (cusS 3 fun x => { x with chunksOut := [(1, [[7], [8]])] }).customsUp = true ∧ (cusS 3 fun x => { x with
      chunksOut := [(1, [[7], [8]])] }).cus.level 1 = 3 ∧ goes (.chunkGet 1 1) (cusS 3 fun x => { x with
      chunksOut := [(1, [[7], [8]])] }) (fun t => t.out == [.spdm 1 0x06 [1, 1, 8]] && t.cus.chunksOut == []) = true := by decide +kernel

theorem test_ideKm : (cusS 3 fun x => { x with sessions := [sess true] }).customsUp = true ∧ (cusS 3 fun x => { x with
      sessions := [sess true] }).cus.mutualSession 5 = some (sess true) ∧ goes (.ideKm 5 1 false) (cusS 3 fun x => { x with
      sessions := [sess true] }) (fun t => t.cus.ide == [1] && t.out == [.spdm 1 0x7E [1, 0]]) = true := by decide +kernel

theorem test_ideKm_cases :
    ((cusS 3 fun x => { x with sessions := [sess true], ide := [1] }).customsUp = true ∧ (cusS 3 fun x => { x with
      sessions := [sess true], ide := [1] }).cus.mutualSession 5 = some (sess true) ∧ 1 ∈ (cusS 3 fun x => { x with sessions := [sess true], ide := [1] }).cus.ide ∧
      goes (.ideKm 5 1 true) (cusS 3 fun x => { x with sessions := [sess true], ide := [1] }) (fun t => t == ((cusS 3 fun x => { x with
      sessions := [sess true], ide := [1] }).send (.spdm 1 0x7E [1, 1])).ideSecure 1 && t.get HST_PORT_STATUS_IDE_SECURE 1 == 1) = true) ∧
    ((cusS 3 fun x => { x with sessions := [sess true] }).customsUp = true ∧ (cusS 3 fun x => { x with
      sessions := [sess true] }).cus.mutualSession 5 = some (sess true) ∧ 1 ∉ (cusS 3 fun x => { x with sessions := [sess true] }).cus.ide ∧
      goes (.ideKm 5 1 true) (cusS 3 fun x => { x with sessions := [sess true] }) (fun t => t == (cusS 3 fun x => { x with
      sessions := [sess true] }).send (.spdm 1 0x7F [4])) = true) :=
    ⟨by decide +kernel, by decide +kernel⟩

theorem test_debugNonce : (cusS 3 id).customsUp = true ∧ goes (.debugNonce 0) (cusS 3 id) (fun t => t.cus.drawn == 1 && t.cus.nonce.isSome &&
      codes t == [(4, 0x7E, 1)]) = true := by decide +kernel

def w_cusZeroise : State := { (inUse up).putQuay 2 { st := .up, keyed := true } with cus := { up.cus with sessions := [sess true], ide := [1], identity := true } }.put HST_PORT_STATUS_IDE_SECURE 1 1

theorem test_cusZeroise : HostUp w_cusZeroise ∧ (w_cusZeroise.quay 2).st = .up ∧ goes (.cusZeroise) w_cusZeroise (fun t => t.cus.sessions == [] &&
      t.cus.ide == [] && t.cus.identity && (t.quay 2).st == .training && t.get HST_PORT_STATUS_IDE_SECURE 1 == 0) = true := by unfold HostUp; decide +kernel

def w_trngHealthFail : State := { jobS with cus := { up.cus with identity := true, drbg := true } }

theorem test_trngHealthFail : w_trngHealthFail.powered = true ∧ w_trngHealthFail.get CUS_STATUS_ERROR 0 = 0 ∧ w_trngHealthFail.halted = false ∧
      goes (.trngHealthFail) w_trngHealthFail (fun t => t.halted && t.jobs == [] && !t.cus.identity && !t.cus.drbg) = true := by decide +kernel

def w_customsWatchdog : State := (cusS 3 fun x => { x with sessions := [sess true], nonce := some 4 }).put CUS_DEBUG_STATUS_LEVEL 0 1

theorem test_customsWatchdog : w_customsWatchdog.powered = true ∧ w_customsWatchdog.get CUS_STATUS_ERROR 0 = 0 ∧
      goes (.customsWatchdog) w_customsWatchdog (fun t => t.cus.sessions == [] && t.cus.nonce == none && t.cus.spdm == [] &&
      t.get CUS_DEBUG_STATUS_LEVEL 0 == 0) = true := by decide +kernel

/-! ### Debug -/

/-- A nonce is out, and a token of level n that the owner signed. -/
def nonceS : State := cusS 3 fun x => { x with nonce := some 4 }
def token (n : Nat) : Token := ⟨false, n, lcDeployed, 0, true, some 4, true, none⟩
/-- A D2 session is open. -/
def debugS (x : KCtx) : State := (jobS.putCtx 4 1 x).put CUS_DEBUG_STATUS_LEVEL 0 2

theorem test_debugUnlock : nonceS.powered = true ∧ nonceS.cus.identity = true ∧ nonceS.cus.lifecycle ≠ lcBlank ∧ nonceS.cus.nonce.isSome = true ∧
      nonceS.unlockRefusal (token 1) = 0 ∧ goes (.debugUnlock (token 1)) nonceS (fun t => t.get CUS_DEBUG_STATUS_LEVEL 0 == 1 && t.cus.nonce == none &&
      t.out == [.spdm 4 0x7E [0]]) = true := by decide +kernel

theorem test_debugUnlock_cases :
    (({ nonceS.poke whsBase [7] with hot := [(5, ⟨64, 1⟩)] } : State).powered = true ∧ ({ nonceS.poke whsBase [7] with
      hot := [(5, ⟨64, 1⟩)] } : State).cus.identity = true ∧ ({ nonceS.poke whsBase [7] with hot := [(5, ⟨64, 1⟩)] } : State).cus.lifecycle ≠ lcBlank ∧
      ({ nonceS.poke whsBase [7] with hot := [(5, ⟨64, 1⟩)] } : State).cus.nonce.isSome = true ∧ ({ nonceS.poke whsBase [7] with
      hot := [(5, ⟨64, 1⟩)] } : State).unlockRefusal (token 2) = 0 ∧ goes (.debugUnlock (token 2)) ({ nonceS.poke whsBase [7] with
      hot := [(5, ⟨64, 1⟩)] } : State) (fun t => t.get CUS_DEBUG_STATUS_LEVEL 0 == 2 && t.get CUS_STATUS_VEILED 0 == 1 && t.veiled.contains 0 && t.hot == [] &&
      t.mem == [] && t.power.d2SincePower) = true) ∧
    (nonceS.powered = true ∧ nonceS.cus.identity = true ∧ nonceS.cus.lifecycle ≠ lcBlank ∧ nonceS.cus.nonce.isSome = true ∧ nonceS.unlockRefusal { token 1 with
      signedOk := false, nonce := some 5 } = 2 ∧ goes (.debugUnlock { token 1 with
      signedOk := false, nonce := some 5 }) nonceS (fun t => t.get CUS_DEBUG_STATUS_LAST_REFUSAL 0 == 2 && t.cus.nonce == some 4) = true) ∧
    (nonceS.powered = true ∧ nonceS.cus.identity = true ∧ nonceS.cus.lifecycle ≠ lcBlank ∧ nonceS.cus.nonce.isSome = true ∧ nonceS.unlockRefusal { token 1 with
      nonce := some 5 } = 3 ∧ goes (.debugUnlock { token 1 with nonce := some 5 }) nonceS (fun t => t.get CUS_DEBUG_STATUS_LAST_REFUSAL 0 == 3 &&
      t.get CUS_DEBUG_STATUS_LEVEL 0 == 0) = true) ∧
    (nonceS.unlockRefusal { token 1 with deviceOk := false, lifecycle := 9 } = 4 ∧ nonceS.unlockRefusal { token 1 with lifecycle := lcReturned } = 5 ∧
      nonceS.unlockRefusal { token 3 with keyIndex := 5 } = 1) :=
    ⟨by decide +kernel, by decide +kernel, by decide +kernel, by decide +kernel⟩

theorem test_debugHalt : HostUp (debugS taskX) ∧ 2 ≤ (debugS taskX).get CUS_DEBUG_STATUS_LEVEL 0 ∧ (debugS taskX).ctxs.all (fun e => e.2.dbgReq == 0) = true ∧
      ((debugS taskX).ctx 4 1).st = .ready ∧ ((debugS taskX).ctx 4 1).begun = false ∧ goes (.debugHalt 4 1) (debugS taskX) (fun t => (t.ctx 4 1).st == .halted &&
      (t.ctx 4 1).reason == 7) = true := by unfold HostUp; decide +kernel

theorem test_debugHalt_cases :
    (HostUp (debugS { taskX with st := .running }) ∧ 2 ≤ (debugS { taskX with st := .running }).get CUS_DEBUG_STATUS_LEVEL 0 ∧ (debugS { taskX with
      st := .running }).ctxs.all (fun e => e.2.dbgReq == 0) = true ∧ ((debugS { taskX with st := .running }).ctx 4 1).st = .running ∧
      goes (.debugHalt 4 1) (debugS { taskX with st := .running }) (fun t => t.ctx 4 1 == { taskX with st := .running, dbgReq := 1 }) = true) ∧
    (HostUp (debugS { taskX with begun := true }) ∧ 2 ≤ (debugS { taskX with begun := true }).get CUS_DEBUG_STATUS_LEVEL 0 ∧ (debugS { taskX with
      begun := true }).ctxs.all (fun e => e.2.dbgReq == 0) = true ∧ ((debugS { taskX with begun := true }).ctx 4 1).st = .ready ∧ ((debugS { taskX with
      begun := true }).ctx 4 1).begun = true ∧ goes (.debugHalt 4 1) (debugS { taskX with begun := true }) (fun t => (t.ctx 4 1).dbgReq == 1 &&
      (t.ctx 4 1).st == .ready) = true) :=
    ⟨by unfold HostUp; decide +kernel, by unfold HostUp; decide +kernel⟩

theorem test_debugStepCommand : HostUp (debugS { taskX with st := .halted, reason := 7, dbgFrom := .ready }) ∧ 2 ≤ (debugS { taskX with
      st := .halted, reason := 7, dbgFrom := .ready }).get CUS_DEBUG_STATUS_LEVEL 0 ∧ (debugS { taskX with
      st := .halted, reason := 7, dbgFrom := .ready }).ctxs.all (fun e => e.2.dbgReq == 0) = true ∧ ((debugS { taskX with
      st := .halted, reason := 7, dbgFrom := .ready }).ctx 4 1).st = .halted ∧ ((debugS { taskX with
      st := .halted, reason := 7, dbgFrom := .ready }).ctx 4 1).reason = 7 ∧ goes (.debugStepCommand 4 1) (debugS { taskX with
      st := .halted, reason := 7, dbgFrom := .ready }) (fun t => t.ctx 4 1 == { taskX with dbgReq := 2, dbgFrom := .ready }) = true := by
      unfold HostUp; decide +kernel

theorem test_debugStepTile : HostUp (debugS { taskX with st := .halted, reason := 7, dbgFrom := .ready }) ∧ 2 ≤ (debugS { taskX with
      st := .halted, reason := 7, dbgFrom := .ready }).get CUS_DEBUG_STATUS_LEVEL 0 ∧ (debugS { taskX with
      st := .halted, reason := 7, dbgFrom := .ready }).ctxs.all (fun e => e.2.dbgReq == 0) = true ∧ ((debugS { taskX with
      st := .halted, reason := 7, dbgFrom := .ready }).ctx 4 1).st = .halted ∧ ((debugS { taskX with
      st := .halted, reason := 7, dbgFrom := .ready }).ctx 4 1).reason = 7 ∧ goes (.debugStepTile 4 1) (debugS { taskX with
      st := .halted, reason := 7, dbgFrom := .ready }) (fun t => t.ctx 4 1 == { taskX with dbgReq := 3, dbgFrom := .ready }) = true := by
      unfold HostUp; decide +kernel

theorem test_debugResume : HostUp (debugS { taskX with st := .halted, reason := 7, dbgFrom := .ready }) ∧ 2 ≤ (debugS { taskX with
      st := .halted, reason := 7, dbgFrom := .ready }).get CUS_DEBUG_STATUS_LEVEL 0 ∧ (debugS { taskX with
      st := .halted, reason := 7, dbgFrom := .ready }).ctxs.all (fun e => e.2.dbgReq == 0) = true ∧ ((debugS { taskX with
      st := .halted, reason := 7, dbgFrom := .ready }).ctx 4 1).st = .halted ∧ ((debugS { taskX with
      st := .halted, reason := 7, dbgFrom := .ready }).ctx 4 1).reason = 7 ∧ goes (.debugResume 4 1) (debugS { taskX with
      st := .halted, reason := 7, dbgFrom := .ready }) (fun t => t.ctx 4 1 == { taskX with dbgFrom := .ready }) = true := by unfold HostUp; decide +kernel

theorem test_debugClose : HostUp (debugS { taskX with st := .halted, reason := 7, dbgFrom := .ready }) ∧ goes (.debugClose) (debugS { taskX with
      st := .halted, reason := 7, dbgFrom := .ready }) (fun t => t.ctx 4 1 == { taskX with dbgFrom := .ready } && t.get CUS_DEBUG_STATUS_LEVEL 0 == 0) = true := by
      unfold HostUp; decide +kernel

/-! ### Power -/

/-- Everything that a reset loses is gone, and start-up goes on from a step. -/
def lost (t : State) (step : Nat) : Bool := t.jobs == [] && t.mem == [] && t.tables == [] && t.get LHS_START_STEP 0 == step
def fullB : State := (jobS.poke 0x1000 [7]).putTable 2 tab2
def inMode (m : PowerMode) : State := { fullB with power := { fullB.power with mode := m } }
/-- Idle and free of a pod, a tide running. -/
def quietS : State := { sized.poke 0x1000 [7] with cus := { up.cus with nonce := some 4 } }

theorem test_stateReqRun : HostUp (up.put HMR_POWER_STATUS_PENDING 0 1) ∧
      goes (.stateReqRun) (up.put HMR_POWER_STATUS_PENDING 0 1) (fun t => t.get HMR_POWER_STATUS_PENDING 0 == 0) = true := by unfold HostUp; decide +kernel

theorem test_stepReq : HostUp up ∧ goes (.stepReq 2) up (fun t => t == up.put HMR_POWER_CTL_STEP_REQ 0 2) = true := by unfold HostUp; decide +kernel

theorem test_stateReqBanked : HostUp quietS ∧ quietS.mayEnter = true ∧ goes (.stateReqBanked) quietS (fun t => t.power.mode == .banked &&
      t.cus.nonce == none && t.power.tideResumes && t.mem == quietS.mem && t.get HMR_POWER_STATUS_BANKED_ENTRIES 0 == 1) = true := by unfold HostUp; decide +kernel

theorem test_stateReqBanked_waits : HostUp jobS ∧ jobS.mayEnter = false ∧ goes (.stateReqBanked) jobS (fun t => t.power.mode == .run &&
      t.get HMR_POWER_STATUS_PENDING 0 == 1) = true := by unfold HostUp; decide +kernel

theorem test_stateReqSmoulder : HostUp quietS ∧ quietS.mayEnter = true ∧ goes (.stateReqSmoulder) quietS (fun t => t.power.mode == .smoulder &&
      t.mem == []) = true := by unfold HostUp; decide +kernel

theorem test_stateReqSmoulder_waits : HostUp jobS ∧ jobS.mayEnter = false ∧ goes (.stateReqSmoulder) jobS (fun t => t.power.mode == .run &&
      t.get HMR_POWER_STATUS_PENDING 0 == 1 && t.get HMR_POWER_CTL_STATE_REQ 0 == 2) = true := by unfold HostUp; decide +kernel

def w_lowPowerEntry : State := (quietS.put HMR_POWER_STATUS_PENDING 0 1).put HMR_POWER_CTL_STATE_REQ 0 1

theorem test_lowPowerEntry : HostUp w_lowPowerEntry ∧ w_lowPowerEntry.mayEnter = true ∧
      goes (.lowPowerEntry) w_lowPowerEntry (fun t => t.power.mode == .banked && t.get HMR_POWER_STATUS_PENDING 0 == 0) = true := by unfold HostUp; decide +kernel

theorem test_lowPowerEntry_waits : HostUp jobS ∧ jobS.mayEnter = false ∧ goes (.lowPowerEntry) jobS (fun t => t == jobS) = true := by
      unfold HostUp; decide +kernel

def w_wake : State := { quietS with power := { quietS.power with mode := .banked, tideResumes := true } }

theorem test_wake : w_wake.power.mode = .banked ∧ w_wake.power.tamperLatch = false ∧ goes (.wake 2) w_wake (fun t => t.power.mode == .run && t.power.warming &&
      t.get HMR_POWER_STATUS_WAKE_CAUSE 0 == 2 && t.tide == 100) = true := by decide +kernel

def w_wake_blocked : State := { inMode .smoulder with power := { fullB.power with mode := .smoulder, shut := [1] } }

theorem test_wake_cases :
    ((inMode .smoulder).power.mode = .smoulder ∧ (inMode .smoulder).power.tamperLatch = false ∧ (inMode .smoulder).power.shut = [] ∧
      goes (.wake 4) (inMode .smoulder) (fun t => lost t 2 && t.power.mode == .run && t.get HMR_POWER_STATUS_WAKE_CAUSE 0 == 4) = true) ∧
    (w_wake_blocked.power.mode = .smoulder ∧ w_wake_blocked.power.shut ≠ [] ∧ goes (.wake 4) w_wake_blocked (fun t => t == w_wake_blocked) = true) :=
    ⟨by decide +kernel, by decide +kernel⟩

theorem test_quaysWarm : ({ up with power := { up.power with warming := true } } : State).power.mode = .run ∧ ({ up with power := { up.power with
      warming := true } } : State).power.warming = true ∧ goes (.quaysWarm) ({ up with power := { up.power with
      warming := true } } : State) (fun t => !t.power.warming && t.get HMR_POWER_STATUS_QUAYS_WARM 0 == 1) = true := by decide +kernel

theorem test_underVoltageTrip : (fullB.putQuay 2 { st := .up }).power.lighthouse = true ∧ (fullB.putQuay 2 { st := .up }).power.uv = false ∧
      ((fullB.putQuay 2 { st := .up }).quay 2).st ≠ .down ∧ goes (.underVoltageTrip) (fullB.putQuay 2 { st := .up }) (fun t => t.power.mode == .off && t.power.uv &&
      t.mem == [] && t.get LHS_TRIPS_UV 0 == 1 && t.out.contains (.dark 2)) = true := by decide +kernel

theorem test_overVoltageTrip : fullB.power.lighthouse = true ∧ fullB.power.ov = false ∧ goes (.overVoltageTrip) fullB (fun t => t.power.mode == .off &&
      t.power.ov && !t.power.switchClosed && t.get LHS_TRIPS_LAST 0 == 2) = true := by decide +kernel

theorem test_hotTrip : fullB.power.lighthouse = true ∧ 1 ∉ fullB.power.hot ∧ goes (.hotTrip 1) fullB (fun t => t.power.hot == [1] && t.power.forced &&
      t.get LHS_TRIPS_LAST 0 == 0x11 && t.get HMR_POWER_STATUS_STEP 0 == 3) = true := by decide +kernel

theorem test_shutdownTrip : fullB.power.lighthouse = true ∧ 1 ∉ fullB.power.shut ∧ fullB.powered = true ∧
      goes (.shutdownTrip 1) fullB (fun t => t.power.mode == .smoulder && t.power.shut == [1] && t.mem == [] && t.get LHS_TRIPS_LAST 0 == 0x21) = true := by
      decide +kernel

theorem test_tamperTrip : fullB.power.lighthouse = true ∧ fullB.powered = true ∧ goes (.tamperTrip) fullB (fun t => t.power.mode == .smoulder &&
      t.power.tamperLatch && t.cus.tamper == 1 && t.get LHS_TRIPS_LAST 0 == 0x30) = true := by decide +kernel

theorem test_hotTripRelease : 1 ∈ ({ up with power := { up.power with hot := [1, 2] } } : State).power.hot ∧ goes (.hotTripRelease 1) ({ up with
      power := { up.power with hot := [1, 2] } } : State) (fun t => t == { ({ up with power := { up.power with hot := [1, 2] } } : State) with power := { ({ up with
      power := { up.power with hot := [1, 2] } } : State).power with hot := [2] } }) = true := by decide +kernel

theorem test_shutdownTripRelease : 1 ∈ ({ up with power := { up.power with shut := [1] } } : State).power.shut ∧ goes (.shutdownTripRelease 1) ({ up with
      power := { up.power with shut := [1] } } : State) (fun t => t == { ({ up with power := { up.power with shut := [1] } } : State) with power := { ({ up with
      power := { up.power with shut := [1] } } : State).power with shut := [] } }) = true := by decide +kernel

def w_inputRelease : State := { inMode .off with power := { fullB.power with mode := .off, uv := true, switchClosed := false } }

theorem test_inputRelease : w_inputRelease.power.mode = .off ∧ w_inputRelease.power.modEn = true ∧ goes (.inputRelease) w_inputRelease (fun t => lost t 1 &&
      t.power.mode == .run && !t.power.uv && t.get LHS_START_COLD 0 == 1) = true := by decide +kernel

/-! ### Resets -/

theorem test_deviceReset : fullB.powered = true ∧ fullB.dock.burn = none ∧ goes (.deviceReset) fullB (fun t => lost t 2 &&
      t.get LHS_START_CAUSE 0 == 0) = true := by decide +kernel

def w_deviceReset_burn : State := { fullB with dock := { fullB.dock with burn := some ⟨0, 5, 2, 7⟩ } }

theorem test_deviceReset_burn : w_deviceReset_burn.powered = true ∧ w_deviceReset_burn.dock.burn.isSome = true ∧
      goes (.deviceReset) w_deviceReset_burn (fun t => t == { w_deviceReset_burn with pilot := { w_deviceReset_burn.pilot with resetWaits := true } }) = true := by
      decide +kernel

theorem test_resetIn : fullB.powered = true ∧ fullB.dock.burn = none ∧ goes (.resetIn) fullB (fun t => lost t 2) = true := by decide +kernel

def w_repairBurnDone : State := { up.put DDK_REPAIR_BUSY 0 1 with dock := { up.dock with burn := some ⟨0, 5, 2, 7⟩ } }

theorem test_repairBurnDone : w_repairBurnDone.power.offWaits = false ∧ w_repairBurnDone.pilot.resetWaits = false ∧
      goes (.repairBurnDone) w_repairBurnDone (fun t => t.dock.burned == [⟨0, 5, 2, 7⟩] && t.dock.burn == none && t.get DDK_REPAIR_STATUS_RESULT 0 == 1) = true := by
      decide +kernel

def w_repairBurnDone_reset : State := { fullB with dock := { up.dock with burn := some ⟨0, 5, 2, 7⟩ }, pilot := { up.pilot with resetWaits := true } }

theorem test_repairBurnDone_reset : w_repairBurnDone_reset.power.offWaits = false ∧ w_repairBurnDone_reset.pilot.resetWaits = true ∧
      goes (.repairBurnDone) w_repairBurnDone_reset (fun t => lost t 2 && t.dock.burned == [⟨0, 5, 2, 7⟩]) = true := by decide +kernel

theorem test_resetPod : HostUp (podS 0) ∧ (podS 0).inPod = true ∧ (podS 0).isMaster = true ∧ (podS 0).dock.burn = none ∧
      goes (.resetPod) (podS 0) (fun t => lost t 2 && t.out == [.broadcast .podReset]) = true := by unfold HostUp; decide +kernel

theorem test_resetPod_outside : HostUp up ∧ up.inPod = false ∧ goes (.resetPod) up (fun t => t == up) = true := by unfold HostUp; decide +kernel

theorem test_lighthousePowerLoss : fullB.power.lighthouse = true ∧ goes (.lighthousePowerLoss) fullB (fun t => t.flds == [] && t.mem == [] &&
      t.power.mode == .off && !t.power.lighthouse) = true := by decide +kernel

theorem test_modEnRelease : fullB.power.modEn = true ∧ fullB.dock.burn = none ∧ goes (.modEnRelease) fullB (fun t => t.flds == [] && !t.power.modEn &&
      t.power.mode == .off) = true := by decide +kernel

def w_modEnRelease_burn : State := { fullB with dock := { fullB.dock with burn := some ⟨0, 5, 2, 7⟩ } }

theorem test_modEnRelease_burn : w_modEnRelease_burn.power.modEn = true ∧ w_modEnRelease_burn.dock.burn.isSome = true ∧
      goes (.modEnRelease) w_modEnRelease_burn (fun t => t == { w_modEnRelease_burn with power := { w_modEnRelease_burn.power with
      modEn := false, offWaits := true } }) = true := by decide +kernel

def w_modEnRise : State := { fullB with power := { fullB.power with mode := .off, modEn := false, lighthouse := false } }

theorem test_modEnRise : w_modEnRise.power.modEn = false ∧ w_modEnRise.power.offWaits = false ∧ goes (.modEnRise) w_modEnRise (fun t => lost t 1 &&
      t.power.modEn && t.power.lighthouse && t.power.mode == .run) = true := by decide +kernel

def w_lifecycleTransition : State := { up with cus := { up.cus with lifecycle := lcProvisioned, sessions := [sess true], identity := true } }

theorem test_lifecycleTransition : w_lifecycleTransition.cus.mutualSession 5 = some (sess true) ∧ w_lifecycleTransition.powered = true ∧
      lifecyclePath lcProvisioned lcDeployed 0 = true ∧ w_lifecycleTransition.jobs = [] ∧ w_lifecycleTransition.get CUS_DEBUG_STATUS_LEVEL 0 = 0 ∧
      goes (.lifecycleTransition 5 3 0 77 true) w_lifecycleTransition (fun t => t.cus.lifecycle == 3 && t.get LHS_START_STEP 0 == 2 &&
      t.out.contains (.spdm 1 0x7E [0])) = true := by decide +kernel

def w_modEnRise_waits : State := { fullB with dock := { fullB.dock with burn := some ⟨0, 5, 2, 7⟩ }, power := { fullB.power with modEn := false, offWaits := true } }

theorem test_modEnRise_waits : w_modEnRise_waits.power.modEn = false ∧ w_modEnRise_waits.power.offWaits = true ∧
      goes (.modEnRise) w_modEnRise_waits (fun t => t == { w_modEnRise_waits with power := { w_modEnRise_waits.power with
      modEn := true, offWaits := false } }) = true := by decide +kernel

def w_lifecycleTransition_refused : State := { jobS with cus := { up.cus with lifecycle := lcProvisioned, sessions := [sess true], identity := true } }

theorem test_lifecycleTransition_refused : w_lifecycleTransition_refused.cus.mutualSession 5 = some (sess true) ∧ w_lifecycleTransition_refused.jobs ≠ [] ∧
      goes (.lifecycleTransition 5 3 0 77 true) w_lifecycleTransition_refused (fun t => t == w_lifecycleTransition_refused.send (.spdm 1 0x7E [1])) = true := by
      decide +kernel

/-! ### The pilot -/

/-- Image 1 of class 2 as customs accepts it, and pilot states: a transfer of class 2 under way, an image verified. -/
def img2 : Image := ⟨2, 5, true, 0, 77, false, true, true, {}⟩
def flashS (b : Bank) (tr : Option Nat) : State := { up with pilot := { up.pilot with flash := Tab.insert 2 { bank1 := b } up.pilot.flash, transfer := tr } }
/-- The pod's tide is to be held at its master; it is held already or not. -/
def holdS (m : Nat) (held : Bool) : State := { pairS m [m, 9 - m] with pod := { (pairS m [m, 9 - m]).pod with hold := true, held := held, readies := [0, 9] } }

theorem test_capLoop : capLoop 3 4 1200 1200001 [60, 60, 60, 60] = (4, 0) ∧ capLoop 3 31 1200 1140000 [60, 60, 60, 60] = (2, 0) ∧
      capLoop 3 4 1200 1140000 [60, 60, 60, 60] = (3, 5) ∧ capLoop 3 4 1200 1140001 [60, 60, 60, 60] = (3, 0) := by decide +kernel

theorem test_managementTick : (tide.put PLT_LIMIT_RUNG 0 3).power.lighthouse = true ∧ (tide.put PLT_LIMIT_RUNG 0 3).get PLT_LIMIT_RUNG 0 ≤ 12 ∧
      (tide.put PLT_LIMIT_RUNG 0 3).pilotUp = true ∧
      goes (.managementTick 1900000 54000 3277 [60, 61, 62, 63] []) (tide.put PLT_LIMIT_RUNG 0 3) (fun t => t.get PLT_LIMIT_RUNG 0 == 4 &&
      t.get LHS_RTC_COUNT 0 == 3277 && t.get LHS_SENSE_INPUT_MV 0 == 54000 && t.get LHS_TIDE_SHADOW_TIDE 0 == 100) = true := by decide +kernel

theorem test_managementTick_cases :
    ((up.put PLT_STATUS_PILOT_DOWN 0 1).power.lighthouse = true ∧ (up.put PLT_STATUS_PILOT_DOWN 0 1).pilotUp = false ∧
      goes (.managementTick 1900000 54000 3277 [60, 61, 62, 63] []) (up.put PLT_STATUS_PILOT_DOWN 0 1) (fun t => t.get PLT_LIMIT_RUNG 0 == 0 &&
      t.get LHS_SENSE_SITE3 0 == 63) = true) ∧
    ((up.put PLT_LIMIT_RUNG 0 12).power.lighthouse = true ∧ (up.put PLT_LIMIT_RUNG 0 12).pilotUp = true ∧
      1000 * (up.put PLT_LIMIT_RUNG 0 12).get PLT_CAP_CAP_W 0 < 2900000 ∧ (up.put PLT_LIMIT_RUNG 0 12).get HMR_TIDE_STATUS_RUNNING 0 = 0 ∧
      goes (.managementTick 2900000 54000 3277 [60, 61, 62, 63] []) (up.put PLT_LIMIT_RUNG 0 12) (fun t => t.get PLT_LIMIT_CAP_UNMET 0 == 1 &&
      t.get PLT_LIMIT_RUNG 0 == 12 && t.out.contains (.pldmEvent 2 2900000) &&
      t.get LHS_TIDE_SHADOW_TIDE 0 == (up.put PLT_LIMIT_RUNG 0 12).pilot.shadowTide + 3277 * 1000000000 / (32768 * max 1 (up.put PLT_LIMIT_RUNG 0 12).periodNs)) = true) :=
    ⟨by decide +kernel, by decide +kernel⟩

theorem test_pilotWatchdog_first : up.pilotUp = true ∧ up.pilot.restarts = [] ∧ goes (.pilotWatchdog) up (fun t => t.get PLT_STATUS_PILOT_DOWN 0 == 0 &&
      t.pilot.restarts == [0] && t.out.getLast? == some (.pldmEvent 4 1)) = true := by decide +kernel

theorem test_pilotWatchdog : ({ up with pilot := { up.pilot with restarts := [0, 0] } } : State).pilotUp = true ∧ goes (.pilotWatchdog) ({ up with
      pilot := { up.pilot with restarts := [0, 0] } } : State) (fun t => t.get PLT_STATUS_PILOT_DOWN 0 == 1 && t.out.getLast? == some (.pldmEvent 4 3) &&
      t.get PLT_STATUS_RESTARTS 0 == 1) = true := by decide +kernel

def w_severity3ResetPolicy : State := { (jobS.put PLT_POLICY_AUTO_RESET 0 1) with halted := true, pilot := { up.pilot with sev3 := true } }

theorem test_severity3ResetPolicy : w_severity3ResetPolicy.pilotUp = true ∧ w_severity3ResetPolicy.get PLT_POLICY_AUTO_RESET 0 ≠ 0 ∧
      w_severity3ResetPolicy.dock.burn = none ∧ goes (.severity3ResetPolicy) w_severity3ResetPolicy (fun t => t.get LHS_START_STEP 0 == 2 && !t.halted &&
      t.jobs == [] && t.pilot.sev3Resets == [0]) = true := by decide +kernel

def w_severity3ResetPolicy_held : State := { (up.put PLT_POLICY_AUTO_RESET 0 1) with halted := true, pilot := { up.pilot with sev3 := true, sev3Resets := [0, 0, 0] } }

theorem test_severity3ResetPolicy_held : w_severity3ResetPolicy_held.pilotUp = true ∧ 3 ≤ w_severity3ResetPolicy_held.pilot.sev3Resets.length ∧
      goes (.severity3ResetPolicy) w_severity3ResetPolicy_held (fun t => t.halted && t.get PLT_STATUS_HELD_STOPPED 0 == 1 && t.out == [.pldmEvent 5 3]) = true := by
      decide +kernel

theorem test_mctpMessage : up.pilotUp = true ∧ goes (.mctpMessage 1 3 [64]) up (fun t => t.pilot.requests == [⟨1, 3, [64]⟩]) = true := by decide +kernel

theorem test_firmwareTransferEnd : (flashS {} (some 2)).pilotUp = true ∧ (flashS {} (some 2)).cus.accepts 2 img2 = true ∧
      goes (.firmwareTransferEnd img2) (flashS {} (some 2)) (fun t => (t.pilot.flashOf 2).other == ⟨some img2, .verified⟩ && t.pilot.transfer == none &&
      t.out == [.pldmEvent 6 0]) = true := by decide +kernel

theorem test_firmwareTransferEnd_refused : (flashS {} (some 2)).pilotUp = true ∧ (flashS {} (some 2)).cus.accepts 2 { img2 with signedOk := false } = false ∧
      goes (.firmwareTransferEnd { img2 with signedOk := false }) (flashS {} (some 2)) (fun t => (t.pilot.flashOf 2).other == ⟨none, .invalid⟩ &&
      t.get CUS_STATUS_ERROR_SOURCE 0 == 2 && t.out.getLast? == some (.pldmEvent 6 1)) = true := by decide +kernel

theorem test_firmwareActivate : (flashS ⟨some img2, .verified⟩ none).pilotUp = true ∧
      goes (.firmwareActivate) (flashS ⟨some img2, .verified⟩ none) (fun t => (t.pilot.flashOf 2).bank1 == ⟨some img2, .pending⟩) = true := by decide +kernel

theorem test_pltCapWrite : HostUp up ∧ 900 ≤ 1500 % 4096 ∧ goes (.pltCapWrite 1 1500) up (fun t => t == up.put PLT_CAP_CAP_W 0 1500) = true := by
      unfold HostUp; decide +kernel

theorem test_pltCapWrite_cases :
    (HostUp up ∧ 2000 < 2001 % 4096 ∧ goes (.pltCapWrite 1 2001) up (fun t => t == up.discard 1 4 10 0x00) = true) ∧
    (up.pilotUp = true ∧ goes (.pltCapWrite 3 1500) up (fun t => t == up.put PLT_CAP_CAP_W 0 1500) = true) ∧
    ((debugS taskX).powered = true ∧ (debugS taskX).debugDeep = true ∧ (debugS taskX).get CUS_DEBUG_STATUS_NARROWED 0 = 0 ∧
      goes (.pltCapWrite 2 1500) (debugS taskX) (fun t => t == (debugS taskX).put PLT_CAP_CAP_W 0 1500) = true) :=
    ⟨by unfold HostUp; decide +kernel, by decide +kernel, by decide +kernel⟩

theorem test_pltReset : HostUp fullB ∧ 0xA5 % 256 = 0xA5 ∧ fullB.dock.burn = none ∧ goes (.pltReset 0 0xA5) fullB (fun t => lost t 2) = true := by
      unfold HostUp; decide +kernel

theorem test_pltReset_key : HostUp up ∧ goes (.pltReset 0 0xA4) up (fun t => t == up.discard 0 4 10 0x18) = true := by unfold HostUp; decide +kernel

theorem test_profileSave : HostUp up ∧ goes (.profileSave) up (fun t => t.pilot.profile.isSome && t.pilot.profile.map (·.peers.length) == some 16) = true := by
      unfold HostUp; decide +kernel

def w_profileErase : State := { up with pilot := { up.pilot with profile := some ⟨0, [], 0, 0⟩ } }

theorem test_profileErase : HostUp w_profileErase ∧ goes (.profileErase) w_profileErase (fun t => t.pilot.profile == none) = true := by
      unfold HostUp; decide +kernel

theorem test_tideHold : HostUp (pairS 0 [0, 9]) ∧ (pairS 0 [0, 9]).inPod = true ∧ (pairS 0 [0, 9]).isMaster = true ∧ (pairS 0 [0, 9]).pod.hold = false ∧
      goes (.tideHold false) (pairS 0 [0, 9]) (fun t => t.pod.hold && t.get HMR_TIDE_HOLD_HOLD 0 == 1 && t.out == [.broadcast (.hold true)]) = true := by
      unfold HostUp; decide +kernel

theorem test_tideHold_member : Live (pairS 9 [9, 0]) ∧ (pairS 9 [9, 0]).inPod = true ∧ (pairS 9 [9, 0]).isMaster = false ∧
      goes (.tideHold true) (pairS 9 [9, 0]) (fun t => t.pod.hold && t.out == []) = true := by unfold Live; decide +kernel

theorem test_tideHoldRelease : HostUp ((holdS 0 true).put HMR_TIDE_STATUS_RUNNING 0 0) ∧ ((holdS 0 true).put HMR_TIDE_STATUS_RUNNING 0 0).isMaster = true ∧
      ((holdS 0 true).put HMR_TIDE_STATUS_RUNNING 0 0).pod.held = true ∧
      goes (.tideHoldRelease 0 0 0 false) ((holdS 0 true).put HMR_TIDE_STATUS_RUNNING 0 0) (fun t => t.tide == 101 && t.get HMR_TIDE_STATUS_RUNNING 0 == 1 &&
      !t.pod.held && t.out == [.broadcast (.resume 101 2 (((holdS 0 true).put HMR_TIDE_STATUS_RUNNING 0 0).get HMR_EPOCH_CFG_GRACE_TIDES 0))]) = true := by
      unfold HostUp; decide +kernel

theorem test_tideHoldRelease_cases :
    (HostUp ((holdS 0 false).put HMR_TIDE_HOLD_HOLD 0 1) ∧ ((holdS 0 false).put HMR_TIDE_HOLD_HOLD 0 1).pod.held = false ∧
      ((holdS 0 false).put HMR_TIDE_HOLD_HOLD 0 1).pod.stopSent = false ∧
      goes (.tideHoldRelease 0 0 0 false) ((holdS 0 false).put HMR_TIDE_HOLD_HOLD 0 1) (fun t => !t.pod.hold && t.get HMR_TIDE_HOLD_HOLD 0 == 0 &&
      t.out == [.broadcast (.hold false)]) = true) ∧
    (Live ((holdS 9 true).put HMR_TIDE_STATUS_RUNNING 0 0) ∧ ((holdS 9 true).put HMR_TIDE_STATUS_RUNNING 0 0).isMaster = false ∧
      ((holdS 9 true).put HMR_TIDE_STATUS_RUNNING 0 0).pod.held = true ∧
      goes (.tideHoldRelease 120 2 (((holdS 9 true).put HMR_TIDE_STATUS_RUNNING 0 0).get HMR_EPOCH_CFG_GRACE_TIDES 0) true) ((holdS 9 true).put HMR_TIDE_STATUS_RUNNING 0 0) (fun t => t.tide == 120 &&
      t.get HMR_TIDE_STATUS_RUNNING 0 == 1 && t.out == []) = true) ∧
    (Live ((holdS 9 true).put HMR_TIDE_STATUS_RUNNING 0 0) ∧ ((holdS 9 true).put HMR_TIDE_STATUS_RUNNING 0 0).pod.held = true ∧
      3 ≠ ((holdS 9 true).put HMR_TIDE_STATUS_RUNNING 0 0).get HMR_TIDE_CFG_PERIOD_STEPS 0 ∧
      goes (.tideHoldRelease 120 3 0 true) ((holdS 9 true).put HMR_TIDE_STATUS_RUNNING 0 0) (fun t => t.get QUY_POD_CTL_IN_POD 0 == 0 &&
      t.get QUY_POD_CTL_JOIN_RESULT 0 == 1 && t.unacked.map (·.msg) == [.leave 0]) = true) :=
    ⟨by unfold HostUp; decide +kernel, by unfold Live; decide +kernel, by unfold Live; decide +kernel⟩

theorem test_holdReady : Live (holdS 9 false) ∧ (holdS 9 false).pod.hold = true ∧ (holdS 9 false).pod.readySent = false ∧ (holdS 9 false).jobs = [] ∧
      goes (.holdReady 0) (holdS 9 false) (fun t => t.pod.readySent && t.unacked.map (fun u => (u.dst, u.msg)) == [(9, .ready 0)]) = true := by
      unfold Live; decide +kernel

def w_holdReady_own : State := { pairS 0 [0, 9] with pod := { (pairS 0 [0, 9]).pod with hold := true } }

theorem test_holdReady_cases :
    (Live w_holdReady_own ∧ w_holdReady_own.pod.readySent = false ∧ w_holdReady_own.jobs = [] ∧ w_holdReady_own.conss = [] ∧ w_holdReady_own.isMaster = true ∧
      goes (.holdReady 0) w_holdReady_own (fun t => t.pod.readySent && t.pod.readies == [0] && t.unacked == []) = true) ∧
    (Live (holdS 0 false) ∧ (holdS 0 false).isMaster = true ∧ 9 ∈ (holdS 0 false).pod.members ∧
      goes (.holdReady 9) (holdS 0 false) (fun t => t.pod.readies == [9, 0]) = true) :=
    ⟨by unfold Live; decide +kernel, by unfold Live; decide +kernel⟩

theorem test_tideStopBroadcast : Live (holdS 9 false) ∧ (holdS 9 false).pod.hold = true ∧ (holdS 9 false).isMaster = false ∧
      goes (.tideStopBroadcast 110 true) (holdS 9 false) (fun t => t == { (holdS 9 false) with pod := { (holdS 9 false).pod with stopAt := some 110 } }) = true := by
      unfold Live; decide +kernel

theorem test_tideStopBroadcast_master : Live (holdS 0 false) ∧ (holdS 0 false).isMaster = true ∧
      (holdS 0 false).pod.members.all (fun d => (holdS 0 false).pod.readies.contains d) = true ∧ (holdS 0 false).tide + 2 ≤ 102 ∧
      goes (.tideStopBroadcast 102 false) (holdS 0 false) (fun t => t.pod.stopAt == some 102 && t.pod.stopSent && t.out == [.broadcast (.stopAt 102)]) = true := by
      unfold Live; decide +kernel

/-! ### Start-up -/

/-- After reset, with images of classes 1 to 5 in flash, and a report of tests that find nothing. -/
def imageOf (c : Nat) : Image := ⟨c, 5, true, 0, 70 + c, false, true, true, {}⟩
def coldS : State := { State.reset with pilot := { State.reset.pilot with flash := [1, 2, 3, 4, 5].map fun c => (c, { bank0 := ⟨some (imageOf c), .valid⟩ }) } }
def report : StartReport := ⟨1, 2, true, true, [], [], (1, 2), (0, 0), (0, 0), [], [], 0, false⟩

theorem test_startUp : coldS.power.mode = .run ∧ coldS.get HST_SIZE_ID_VALID 0 = 0 ∧ coldS.get LHS_START_FAILED 0 = 0 ∧ coldS.get LHS_START_STEP 0 < 3 ∧
      (List.range 5).all (fun c => coldS.pilot.flashOf (c + 1) == { bank0 := ⟨some (imageOf (c + 1)), .valid⟩ } &&
      coldS.cus.accepts (c + 1) (imageOf (c + 1))) = true ∧ coldS.pilot.flashOf 6 = {} ∧ coldS.pilot.profile = none ∧ coldS.get QUY_POD_CTL_JOIN 0 = 0 ∧
      goes (.startUp report) coldS (fun t => t.get LHS_START_STEP 0 == 7 && t.get HST_SIZE_ID_VALID 0 == 1 && t.get HST_SIZE_COMPUTE_KILNS_PORT 0 == 79 &&
      t.get HST_SIZE_COMPUTE_KILNS_STBD 0 == 78 && t.cus.identity && t.cus.drbg) = true := by decide +kernel

theorem test_stillFailing : coldS.stillFailing { report with macros := [(⟨0, 5, 2, 7⟩, false)] } = [⟨0, 5, 2, 7⟩] ∧
      (coldS.put DDK_REPAIR_CFG_AUTO 0 1).stillFailing { report with macros := [(⟨0, 5, 2, 7⟩, true)] } = [] := by decide +kernel

/-- Start-up waits at its fifth step for the join it asked for. -/
def joinS : State := coldS.put LHS_START_STEP 0 5
def waitsS : State := { joinS.put QUY_POD_CTL_JOIN 0 1 with pod := { joinS.pod with joining := true } }

theorem test_startUp_cases :
    (coldS.power.mode = .run ∧ coldS.get HST_SIZE_ID_VALID 0 = 0 ∧ coldS.get LHS_START_FAILED 0 = 0 ∧ coldS.get LHS_START_STEP 0 < 3 ∧ 80 ≤ 80 ∧
      goes (.startUp { report with kilnsFail := (80, 0) }) coldS (fun t => t.get LHS_START_FAILED 0 == 1 && t.get LHS_START_CAUSE 0 == 6 &&
      t.get LHS_START_STEP 0 == 6) = true) ∧
    (goes (.startUp { report with trip := 2 }) (coldS) (fun t => t.get LHS_START_FAILED 0 == 1 && t.get LHS_START_CAUSE 0 == 7 && t.get LHS_START_STEP 0 == 2 &&
      t.get HST_SIZE_ID_VALID 0 == 0) = true) ∧
    (goes (.startUp { report with selfTestOk := false }) (coldS) (fun t => t.get LHS_START_FAILED 0 == 1 && t.get LHS_START_CAUSE 0 == 1 &&
      t.get LHS_START_STEP 0 == 2 && t.get HST_SIZE_ID_VALID 0 == 0) = true) ∧
    (goes (.startUp report) ({ coldS with pilot := { coldS.pilot with flash := [(1, {})] } } : State) (fun t => t.get LHS_START_FAILED 0 == 1 &&
      t.get LHS_START_CAUSE 0 == 2 && t.get LHS_START_STEP 0 == 2 && t.get HST_SIZE_ID_VALID 0 == 0) = true) ∧
    (goes (.startUp { report with repairImageOk := false }) (coldS) (fun t => t.get LHS_START_FAILED 0 == 1 && t.get LHS_START_CAUSE 0 == 3 &&
      t.get LHS_START_STEP 0 == 3 && t.get HST_SIZE_ID_VALID 0 == 0) = true) ∧
    (goes (.startUp { report with macros := [(⟨0, 5, 2, 7⟩, false)] }) (coldS) (fun t => t.get LHS_START_FAILED 0 == 1 && t.get LHS_START_CAUSE 0 == 4 &&
      t.get LHS_START_STEP 0 == 4 && t.get HST_SIZE_ID_VALID 0 == 0) = true) ∧
    (goes (.startUp { report with macros := [(⟨0, 5, 2, 7⟩, true)] }) ((coldS.put DDK_REPAIR_CFG_AUTO 0 0)) (fun t => t.get LHS_START_FAILED 0 == 1 &&
      t.get LHS_START_CAUSE 0 == 4 && t.get LHS_START_STEP 0 == 4 && t.get HST_SIZE_ID_VALID 0 == 0) = true) ∧
    (goes (.startUp { report with macros := [(⟨0, 5, 2, 7⟩, true)], autoOff := true }) (coldS) (fun t => t.get LHS_START_FAILED 0 == 1 &&
      t.get LHS_START_CAUSE 0 == 4 && t.get LHS_START_STEP 0 == 4 && t.get HST_SIZE_ID_VALID 0 == 0) = true) ∧
    (goes (.startUp { report with stacksFail := [0, 1, 2, 3, 4, 5] }) (coldS) (fun t => t.get LHS_START_FAILED 0 == 1 && t.get LHS_START_CAUSE 0 == 5 &&
      t.get LHS_START_STEP 0 == 4 && t.get HST_SIZE_ID_VALID 0 == 0) = true) ∧
    (goes (.startUp { report with trip := 3 }) (coldS) (fun t => t.get LHS_START_FAILED 0 == 1 && t.get LHS_START_CAUSE 0 == 7 && t.get LHS_START_STEP 0 == 3 &&
      t.get HST_SIZE_ID_VALID 0 == 0) = true) ∧
    (goes (.startUp { report with trip := 4 }) (coldS) (fun t => t.get LHS_START_FAILED 0 == 1 && t.get LHS_START_CAUSE 0 == 7 && t.get LHS_START_STEP 0 == 4 &&
      t.get HST_SIZE_ID_VALID 0 == 0) = true) ∧
    (goes (.startUp { report with trip := 5 }) (coldS) (fun t => t.get LHS_START_FAILED 0 == 1 && t.get LHS_START_CAUSE 0 == 7 && t.get LHS_START_STEP 0 == 5 &&
      t.get HST_SIZE_ID_VALID 0 == 0) = true) ∧
    (goes (.startUp { report with trip := 6 }) (coldS) (fun t => t.get LHS_START_FAILED 0 == 1 && t.get LHS_START_CAUSE 0 == 7 && t.get LHS_START_STEP 0 == 6 &&
      t.get HST_SIZE_ID_VALID 0 == 0) = true) ∧
    (goes (.startUp { report with trip := 7 }) (coldS) (fun t => t.get LHS_START_FAILED 0 == 1 && t.get LHS_START_CAUSE 0 == 7 && t.get LHS_START_STEP 0 == 7 &&
      t.get HST_SIZE_ID_VALID 0 == 0) = true) ∧
    (coldS.power.mode = .run ∧ coldS.get HST_SIZE_ID_VALID 0 = 0 ∧ coldS.get LHS_START_FAILED 0 = 0 ∧ coldS.get LHS_START_STEP 0 < 3 ∧
      (List.range 5).all (fun c => coldS.pilot.flashOf (c + 1) == { bank0 := ⟨some (imageOf (c + 1)), .valid⟩ } &&
      coldS.cus.accepts (c + 1) (imageOf (c + 1))) = true ∧ coldS.pilot.flashOf 6 = {} ∧ coldS.pilot.profile = none ∧ coldS.get QUY_POD_CTL_JOIN 0 = 0 ∧
      goes (.startUp { report with factory := [⟨0, 5, 2, 7⟩], macros := [(⟨0, 5, 2, 7⟩, false)] }) coldS (fun t => t.get LHS_START_STEP 0 == 7 &&
      t.dock.inForce == [⟨0, 5, 2, 7⟩] && t.get LHS_START_FAILED 0 == 0) = true) ∧
    ((coldS.put DDK_REPAIR_CFG_AUTO 0 1).power.mode = .run ∧ (coldS.put DDK_REPAIR_CFG_AUTO 0 1).get HST_SIZE_ID_VALID 0 = 0 ∧
      (coldS.put DDK_REPAIR_CFG_AUTO 0 1).get LHS_START_FAILED 0 = 0 ∧ (coldS.put DDK_REPAIR_CFG_AUTO 0 1).get LHS_START_STEP 0 < 3 ∧
      (List.range 5).all (fun c => (coldS.put DDK_REPAIR_CFG_AUTO 0 1).pilot.flashOf (c + 1) == { bank0 := ⟨some (imageOf (c + 1)), .valid⟩ } &&
      (coldS.put DDK_REPAIR_CFG_AUTO 0 1).cus.accepts (c + 1) (imageOf (c + 1))) = true ∧ (coldS.put DDK_REPAIR_CFG_AUTO 0 1).pilot.flashOf 6 = {} ∧
      (coldS.put DDK_REPAIR_CFG_AUTO 0 1).pilot.profile = none ∧ (coldS.put DDK_REPAIR_CFG_AUTO 0 1).get QUY_POD_CTL_JOIN 0 = 0 ∧ goes (.startUp { report with
      macros := [(⟨0, 5, 2, 7⟩, true)] }) (coldS.put DDK_REPAIR_CFG_AUTO 0 1) (fun t => t.dock.burned == [⟨0, 5, 2, 7⟩] && t.dock.inForce == [⟨0, 5, 2, 7⟩] &&
      t.get LHS_START_FAILED 0 == 0) = true) ∧
    (waitsS.power.mode = .run ∧ waitsS.get HST_SIZE_ID_VALID 0 = 0 ∧ waitsS.get LHS_START_FAILED 0 = 0 ∧ 3 ≤ waitsS.get LHS_START_STEP 0 ∧ waitsS.joinWaits = true ∧
      goes (.startUp report) waitsS (fun t => t == waitsS) = true) ∧
    (joinS.power.mode = .run ∧ joinS.get HST_SIZE_ID_VALID 0 = 0 ∧ 3 ≤ joinS.get LHS_START_STEP 0 ∧ joinS.joinWaits = false ∧
      goes (.startUp report) joinS (fun t => t.get LHS_START_STEP 0 == 7 && t.get HST_SIZE_ID_VALID 0 == 1) = true) :=
    ⟨by decide +kernel, by decide +kernel, by decide +kernel, by decide +kernel, by decide +kernel, by decide +kernel, by decide +kernel, by decide +kernel,
     by decide +kernel, by decide +kernel, by decide +kernel, by decide +kernel, by decide +kernel, by decide +kernel, by decide +kernel, by decide +kernel,
     by decide +kernel, by decide +kernel⟩

/-! ### Jobs -/

/-- A device in a tide whose ring 3 posts to its completion ring, with model 7 of `imgS` resident. -/
def postS : State := (((((((((sized.put HMR_MODE_SINGLE 0 0).put HMR_ADMIT_CTL_STOP 0 0).put HST_PORT_STATUS_BME 0 1).put HST_RING_CFG_SQ_LOG2 3 6).put HST_RING_CFG_CQ_LOG2 3 4).putRing 3
  { st := .running, enabled := true, prod := 5, cons := 1, next := 5, reserved := 8 }).putModel 7 { st := .resident, image := 0x100000, lanes := 1, variants := 1, bytes := 0x10000, variantOff := 256, unitOff := 512, units := 1, bindOff := 1024, binds := 1, blocks := [(0, 448)] }).poke 0x100000 (leBytes 64 6277103231964357391020660071266692793065249791809851293953)).poke 0x100100
  (leBytes 64 281479271677953)).poke 0x100200 (leBytes 32 2417833193048138888282112)
/-- One fetched descriptor, of the bits w. -/
def descS (w : Nat) : State := { postS with fetched := [⟨3, ⟨1, leBytes 64 w⟩, true⟩] }

theorem test_tideBoundary : Live tide ∧ tide.get HMR_TIDE_STATUS_RUNNING 0 ≠ 0 ∧
      goes (.tideBoundary 0 []) tide (fun t => t.get HMR_TIDE_COUNT_TIDE 0 == 101) = true := by unfold Live; decide +kernel

theorem test_tideBoundary_off : up.get HMR_TIDE_STATUS_RUNNING 0 = 0 ∧ goes (.tideBoundary 0 []) up (fun t => t == up) = true := by decide +kernel

theorem test_run : ((descS 792282834197590199591682179073).nextDesc 3 1 1).isSome = true ∧ (descS 792282834197590199591682179073).jobAt 3 1 .run = none ∧
      (match (descS 792282834197590199591682179073).testRun 3 (leBytes 64 792282834197590199591682179073) with | .ok _ => true | .error _ => false) = true ∧
      goes (.run 3 1) (descS 792282834197590199591682179073) (fun t => t.jobs.map (fun j => (j.jobRef, j.model, j.units.length, j.deadline)) == [(0x77, 7, 1, 110)] &&
      t.fetched == []) = true := by decide +kernel

theorem test_run_cases :
    (((descS 792282834216036943665391730689).nextDesc 3 1 1).isSome = true ∧
      (match (descS 792282834216036943665391730689).testRun 3 (leBytes 64 792282834216036943665391730689) with | .ok _ => 0 | .error r => r.reason) = 2 ∧
      goes (.run 3 1) (descS 792282834216036943665391730689) (fun t => t.jobs == [] && t.get HMR_REFUSALS_COUNT 0 == 1 && t.fetched == []) = true) ∧
    (Live ({ postS with jobs := [{ job0 with unitsDone := true }] } : State) ∧ (({ postS with jobs := [{ job0 with
      unitsDone := true }] } : State).jobs.headD job0).workDone = true ∧ ({ postS with jobs := [{ job0 with unitsDone := true }] } : State).outputOpen 1 = false ∧
      goes (.run 3 9) ({ postS with jobs := [{ job0 with unitsDone := true }] } : State) (fun t => t == ({ postS with jobs := [{ job0 with
      unitsDone := true }] } : State).endJob (({ postS with jobs := [{ job0 with unitsDone := true }] } : State).jobs.headD job0) 0 0 none && t.jobs == []) = true) :=
    ⟨by decide +kernel, by unfold Live; decide +kernel⟩

def w_consign : State := (descS 979888324702789342118880997748694371678219905040159171518745231671658943641320413604133903821724188674).poke 0x70000 (leBytes 64 51922968586557202104919592466907141 ++ leBytes 16 18446744073709553414)

theorem test_consign : (w_consign.nextDesc 3 1 2).isSome = true ∧
      goes (.consign 3 1) w_consign (fun t => t.conss.map (fun c => (c.id, c.actions)) == [(5, [.unpin 7 0 1])] &&
      t.jobs.map (fun j => (j.jobRef, j.cls, j.deadline)) == [(0x78, 2, 110)]) = true := by decide +kernel

theorem test_nop : ((descS 519691042819).nextDesc 3 1 3).isSome = true ∧ descriptorOk (leBytes 64 519691042819) = true ∧
      goes (.nop 3 1) (descS 519691042819) (fun t => t.fetched == [] && t.jobs == [] && (t.ring 3).reserved < ((descS 519691042819).ring 3).reserved) = true := by
      decide +kernel

def w_jobDeadline : State := { postS with tags := [], jobs := [{ job0 with deadline := 100 }] }

theorem test_jobDeadline : Live w_jobDeadline ∧ 100 ≤ w_jobDeadline.tide ∧ goes (.jobDeadline 1) w_jobDeadline (fun t => t == w_jobDeadline.endJob { job0 with
      deadline := 100 } 0x06 0 none && t.jobs == []) = true := by unfold Live; decide +kernel

def w_jobDeadline_halted : State := { postS with tags := [], jobs := [{ job0 with deadline := 100 }] }.putStream 5 { st := .halted, job := 1 }

def w_jobDeadline_scored : State := { postS with tags := [], jobs := [{ job0 with deadline := 100, scored := true }] }

theorem test_jobDeadline_cases :
    (Live w_jobDeadline_halted ∧ 100 ≤ w_jobDeadline_halted.tide ∧
      ((w_jobDeadline_halted.streamsOf 1).any fun n => (w_jobDeadline_halted.stream n).st == .halted) = true ∧
      goes (.jobDeadline 1) w_jobDeadline_halted (fun t => t == w_jobDeadline_halted.endJob { job0 with deadline := 100 } 0x04 0 none && t.jobs == []) = true) ∧
    (Live w_jobDeadline_scored ∧ 100 ≤ w_jobDeadline_scored.tide ∧ goes (.jobDeadline 1) w_jobDeadline_scored (fun t => t == w_jobDeadline_scored.endJob { job0 with
      deadline := 100, scored := true } 0x0E 0 none && t.jobs == []) = true) :=
    ⟨by unfold Live; decide +kernel, by unfold Live; decide +kernel⟩

theorem test_freezeResetStream : HostUp (sized.putStream 5 { st := .frozen, gen := 3, tileMax := 2 }) ∧
      ((sized.putStream 5 { st := .frozen, gen := 3, tileMax := 2 }).stream 5).st = .frozen ∧
      goes (.freezeResetStream 5) (sized.putStream 5 { st := .frozen, gen := 3, tileMax := 2 }) (fun t => t.stream 5 == { gen := 3 }) = true := by
      unfold HostUp; decide +kernel

def w_freezeResetKilnTask : State := (sized.putCtx 4 1 { taskX with st := .frozen, gen := 3 }).putKiln 4 { path := some 1 }

theorem test_freezeResetKilnTask : HostUp w_freezeResetKilnTask ∧ (w_freezeResetKilnTask.ctx 4 1).st = .frozen ∧
      goes (.freezeResetKilnTask (4 * 4 + 1)) w_freezeResetKilnTask (fun t => t.ctx 4 1 == { gen := 3 } && (t.kiln 4).path == none) = true := by
      unfold HostUp; decide +kernel

def w_freezeResetPeer : State := sized.putPeer 9 { frozen := true, malformed := 4, stray := 2, lastHeard := 7 }

theorem test_freezeResetPeer : HostUp w_freezeResetPeer ∧ (w_freezeResetPeer.peer 9).frozen = true ∧
      goes (.freezeResetPeer 9) w_freezeResetPeer (fun t => t.peer 9 == { lastHeard := 7 }) = true := by unfold HostUp; decide +kernel

def w_portReset : State := { (up.put HST_PORT_STATUS_BME 1 1).put HST_PORT_STATUS_IDE_SECURE 1 1 with msix := [(3, 0), (2048 + 3, 0)] }

theorem test_portReset : 1 < 2 ∧ goes (.portReset 1) w_portReset (fun t => t.get HST_PORT_STATUS_BME 1 == 0 && t.get HST_PORT_STATUS_IDE_SECURE 1 == 0 &&
      t.msix == [(3, 0)]) = true := by decide +kernel

theorem test_decode : decodeTableWord 64 0 = none ∧ (up.withFetchWord 64 0 == up) = true := by decide +kernel

/-! ### Well-formed commands -/

theorem test_illFormed_0 : (
    [.tideBoundary 9 [], .modelVersionRetire 65536 0, .descriptorFetch 256, .descriptorReadComplete 256 false, .run 256 (2 ^ 32 - 1),
     .run 255 (2 ^ 32), .consign 256 (2 ^ 32 - 1), .consign 255 (2 ^ 32), .nop 256 (2 ^ 32 - 1), .nop 255 (2 ^ 32), .interruptCoalesceTimeout 256,
     .msixUnmask 2 511, .msixUnmask 1 512, .streamStart 2048 0 0 0 0, .reservationTake 2048, .remoteReservationGrant 16 4095 2047 0,
     .remoteReservationGrant 15 4096 2047 0, .remoteReservationGrant 15 4095 2048 0, .manifestEnd 2048, .loop 2048, .stride 2048, .emit 2048,
     .gather 2048, .align 2048, .waitslotSlot 2048, .waitslotBarrier 2048, .waitslotReread 2048, .signal 2048, .tagGrant ⟨64, 0⟩,
     .readyBitSet 2048 0 127, .readyBitSet 2047 0 128, .tileAccept 2048 0, .streamEnd 2048, .receiverDetach 2048 0, .catchupStreamStart 64,
     .streamFault 2048 0 7, .streamFault 2047 0 8, .resumeStream (2 ^ 32), .resumeKilnTask 1024 31 65535, .resumeKilnTask 1023 32 65535,
     .resumeKilnTask 1023 31 65536, .mutualWaitProbe 2048 [], .layer 256 3, .layer 255 4, .bankExchange 256 0 0, .taskSwitch 256 0,
     .rowWatermarkAdvance 256 3 ⟨0, 0⟩, .rowWatermarkAdvance 255 4 ⟨0, 0⟩] : List Instr).all (fun i => !i.wf) = true := by decide +kernel

theorem test_illFormed_1 : (
    [.loadpin 256 3, .loadpin 255 4, .swap 256 3, .swap 255 4, .arrive 256 3, .arrive 255 4, .waitbar 256 3, .waitbar 255 4, .waitbarReread 256 3,
     .waitbarReread 255 4, .clearbar 256 3, .clearbar 255 4, .kilnEnd 256 3, .kilnEnd 255 4, .hmul 256 3 0 [], .hmul 255 4 0 [], .hvec 256 3 [],
     .hvec 255 4 [], .kilnFault 256 7, .kilnFault 255 8, .kilnProgressTimeout 256, .taskRestart 0 0 0 256 3 0 0, .taskRestart 0 0 0 255 4 0 0,
     .noswitchViolation 256 3, .noswitchViolation 255 4, .taskEvict 256, .evictedTaskReturn 0 0 0 256 3 0 0, .evictedTaskReturn 0 0 0 255 4 0 0,
     .warehouseWrite 0 ⟨4, false⟩ [0], .warehouseWrite 0 ⟨3, false⟩ [], .warehouseWrite 0 ⟨3, false⟩ (List.replicate 257 0),
     .bitSetWrite 0 ⟨4, false⟩ [0], .bitSetWrite 0 ⟨3, false⟩ [], .bitSetWrite 0 ⟨3, false⟩ (List.replicate 257 0), .bitClearWrite 0 ⟨4, false⟩ [0],
     .bitClearWrite 0 ⟨3, false⟩ [], .bitClearWrite 0 ⟨3, false⟩ (List.replicate 257 0), .wayStop 2 15, .wayStop 1 16, .wayStopped 2 15,
     .wayStopped 1 16, .modelBlockMove 2 15, .modelBlockMove 1 16, .wayRestart 2 15, .wayRestart 1 16, .destructStart 2,
     .destructiveTestDone 2 false, .preservingPass 2 0 false 2047 []] : List Instr).all (fun i => !i.wf) = true := by decide +kernel

theorem test_illFormed_2 : (
    [.preservingPass 1 0 false 2048 [], .marchPassAbort 2 0 [], .repairBurn 4 255 15 2047, .repairBurn 3 256 15 2047, .repairBurn 3 255 16 2047,
     .repairBurn 3 255 15 2048, .tableEnable 4096 none, .tableDisable 4096, .tableDisableDone 4096, .recordReadReturn 256 0,
     .pooledSlice 0 4096 0 0 63 1 [], .pooledSlice 0 4095 0 0 64 1 [], .pooledSlice 0 4095 0 0 63 2 [], .partDone 0 4096 0 63 0 1 false,
     .partDone 0 4095 0 64 0 1 false, .partDone 0 4095 0 63 0 2 false, .rawRequest 4096 (2 ^ 32 - 1) (2 ^ 32 - 1) 0 4095 3 0,
     .rawRequest 4095 (2 ^ 32) (2 ^ 32 - 1) 0 4095 3 0, .rawRequest 4095 (2 ^ 32 - 1) (2 ^ 32) 0 4095 3 0,
     .rawRequest 4095 (2 ^ 32 - 1) (2 ^ 32 - 1) 0 4096 3 0, .rawRequest 4095 (2 ^ 32 - 1) (2 ^ 32 - 1) 0 4095 4 0, .rawCopy 256 0 ⟨63, 0⟩ 0 [],
     .rawCopy 255 0 ⟨64, 0⟩ 0 [], .query 0 1024 4095, .query 0 1023 4096, .ack ⟨0, 0, 64⟩ 4095, .ack ⟨0, 0, 63⟩ 4096, .modelAdd 65536,
     .modelRemove 65536, .modelRemoved 65536, .modelLoadDone 65536, .modelBlockReload 65536 0 0, .chsetStop 32, .chsetRestart 32,
     .freezeResetRing 256, .freezeResetStream 2048, .freezeResetKilnTask 1024, .freezeResetPeer 4096, .sqProducer 256 (2 ^ 64 - 1),
     .sqProducer 255 (2 ^ 64), .cqConsumer 256 (2 ^ 64 - 1), .cqConsumer 255 (2 ^ 64), .eventRingConsumer (2 ^ 64), .ringEnable 256,
     .ringDisable 256, .ringStopped 256, .apertureMove 2 0, .apertureRead 2 0 0] : List Instr).all (fun i => !i.wf) = true := by decide +kernel

theorem test_illFormed_3 : (
    [.apertureWrite 2 0 [], .bar0BadAccess 2 0 0 false, .portReset 2, .busMasterEnableChange 2 false, .ideLeavesSecure 2,
     .blockReceive 16 63 4095 0 ⟨false, [], 3, 0⟩, .blockReceive 15 64 4095 0 ⟨false, [], 3, 0⟩, .blockReceive 15 63 4096 0 ⟨false, [], 3, 0⟩,
     .blockReceive 15 63 4095 0 ⟨false, [], 4, 0⟩, .replayRequest 16 63 0, .replayRequest 15 64 0, .frameIdleClose 16 63 0 0,
     .frameIdleClose 15 64 0 0, .linkRekey 16 false, .laneFail 16 63 0, .laneFail 15 64 0, .quayFail 16 0, .remoteReadTimeout 2048 0, .quayStop 16,
     .quayTrain 16 false, .leave 4096, .heartbeat 4096 0 (2 ^ 32 - 1), .heartbeat 4095 0 (2 ^ 32), .heartbeatSilence 4096 4095,
     .heartbeatSilence 4095 4096, .deviceLost 4096, .lostNotice 4096 (2 ^ 32 - 1), .lostNotice 4095 (2 ^ 32), .timeMarker 16 0 0 0 0,
     .delayProbe 16 0, .collectiveChannelEnable 64, .collectiveChannelDisable 64, .collectiveRoundOpen 64,
     .collectiveMessage 64 65535 4095 false false [], .collectiveMessage 63 65536 4095 false false [],
     .collectiveMessage 63 65535 4096 false false [], .collectiveRoundComplete 64, .peerViolation 4096 0, .hbmStackFail 12 7, .hbmStackFail 11 8,
     .slotsLost 4096 1023 63, .slotsLost 4095 1024 63, .slotsLost 4095 1023 64, .slotLossNotice 4096 1023 63, .slotLossNotice 4095 1024 63,
     .slotLossNotice 4095 1023 64, .rebuildGo 1024, .rebuildStart 1024 63 4095] : List Instr).all (fun i => !i.wf) = true := by decide +kernel

theorem test_illFormed_4 : (
    [.rebuildStart 1023 64 4095, .rebuildStart 1023 63 4096, .rebuildPage 4096 0 63 [], .rebuildPage 4095 0 64 [], .rebuildDone 1024 63 4095,
     .rebuildDone 1023 64 4095, .rebuildDone 1023 63 4096, .slotReplace 1024 63 4095, .slotReplace 1023 64 4095, .slotReplace 1023 63 4096,
     .rebuildEnd 1024, .getCertificate 0 64 0 0, .challenge 0 64 0, .ideKm 0 2 false, .debugHalt 256 3, .debugHalt 255 4, .debugStepCommand 256 3,
     .debugStepCommand 255 4, .debugStepTile 256 3, .debugStepTile 255 4, .debugResume 256 3, .debugResume 255 4, .stepReq 4, .hotTrip 4,
     .hotTripRelease 4, .shutdownTrip 4, .shutdownTripRelease 4, .pltCapWrite 0 (2 ^ 64), .holdReady 4096, .registerWrite 0 0 0 (2 ^ 64),
     .readDataLands 2048 0 [], .remoteStreamRead 4096 2047 0 0 0 ⟨0, 0, 3, 0⟩, .remoteStreamRead 4095 2048 0 0 0 ⟨0, 0, 3, 0⟩,
     .remoteStreamRead 4095 2047 0 0 0 ⟨0, 0, 4, 0⟩, .remoteStreamWrite 4096 2047 0 0 3 [], .remoteStreamWrite 4095 2048 0 0 3 [],
     .remoteStreamWrite 4095 2047 0 0 4 [], .rebuildPageRequest 4096 0 63 4095, .rebuildPageRequest 4095 0 64 4095,
     .rebuildPageRequest 4095 0 63 4096, .groupMasterEpochRequest 4096 (2 ^ 32 - 1) 1023 (2 ^ 32 - 1) 4095,
     .groupMasterEpochRequest 4095 (2 ^ 32) 1023 (2 ^ 32 - 1) 4095, .groupMasterEpochRequest 4095 (2 ^ 32 - 1) 1024 (2 ^ 32 - 1) 4095,
     .groupMasterEpochRequest 4095 (2 ^ 32 - 1) 1023 (2 ^ 32) 4095, .groupMasterEpochRequest 4095 (2 ^ 32 - 1) 1023 (2 ^ 32 - 1) 4096,
     .endToEndAck 4096 0, .quayReconnect 16 false] : List Instr).all (fun i => !i.wf) = true := by decide +kernel

theorem test_wellFormed_0 : (
    [.tideBoundary 8 [], .modelVersionRetire 65535 0, .descriptorFetch 255, .descriptorReadComplete 255 false, .run 255 (2 ^ 32 - 1),
     .consign 255 (2 ^ 32 - 1), .nop 255 (2 ^ 32 - 1), .interruptCoalesceTimeout 255, .msixUnmask 1 511, .streamStart 2047 0 0 0 0,
     .reservationTake 2047, .remoteReservationGrant 15 4095 2047 0, .manifestEnd 2047, .loop 2047, .stride 2047, .emit 2047, .gather 2047,
     .align 2047, .waitslotSlot 2047, .waitslotBarrier 2047, .waitslotReread 2047, .signal 2047, .tagGrant ⟨63, 0⟩, .readyBitSet 2047 0 127,
     .tileAccept 2047 0, .streamEnd 2047, .receiverDetach 2047 0, .catchupStreamStart 63, .streamFault 2047 0 7, .resumeStream (2 ^ 32 - 1),
     .resumeKilnTask 1023 31 65535, .mutualWaitProbe 2047 [], .layer 255 3, .bankExchange 255 0 0, .taskSwitch 255 0,
     .rowWatermarkAdvance 255 3 ⟨0, 0⟩, .loadpin 255 3, .swap 255 3, .arrive 255 3, .waitbar 255 3, .waitbarReread 255 3, .clearbar 255 3,
     .kilnEnd 255 3, .hmul 255 3 0 [], .hvec 255 3 [], .kilnFault 255 7, .kilnProgressTimeout 255, .taskRestart 0 0 0 255 3 0 0] : List Instr).all (fun i => i.wf) = true := by decide +kernel

theorem test_wellFormed_1 : (
    [.noswitchViolation 255 3, .taskEvict 255, .evictedTaskReturn 0 0 0 255 3 0 0, .warehouseWrite 0 ⟨3, false⟩ [0], .bitSetWrite 0 ⟨3, false⟩ [0],
     .bitClearWrite 0 ⟨3, false⟩ [0], .wayStop 1 15, .wayStopped 1 15, .modelBlockMove 1 15, .wayRestart 1 15, .destructStart 1,
     .destructiveTestDone 1 false, .preservingPass 1 0 false 2047 [], .marchPassAbort 1 0 [], .repairBurn 3 255 15 2047, .tableEnable 4095 none,
     .tableDisable 4095, .tableDisableDone 4095, .recordReadReturn 255 0, .pooledSlice 0 4095 0 0 63 1 [], .partDone 0 4095 0 63 0 1 false,
     .rawRequest 4095 (2 ^ 32 - 1) (2 ^ 32 - 1) 0 4095 3 0, .rawCopy 255 0 ⟨63, 0⟩ 0 [], .query 0 1023 4095, .ack ⟨0, 0, 63⟩ 4095, .modelAdd 65535,
     .modelRemove 65535, .modelRemoved 65535, .modelLoadDone 65535, .modelBlockReload 65535 0 0, .chsetStop 31, .chsetRestart 31,
     .freezeResetRing 255, .freezeResetStream 2047, .freezeResetKilnTask 1023, .freezeResetPeer 4095, .sqProducer 255 (2 ^ 64 - 1),
     .cqConsumer 255 (2 ^ 64 - 1), .eventRingConsumer (2 ^ 64 - 1), .ringEnable 255, .ringDisable 255, .ringStopped 255, .apertureMove 1 0,
     .apertureRead 1 0 0, .apertureWrite 1 0 [], .bar0BadAccess 1 0 0 false, .portReset 1, .busMasterEnableChange 1 false] : List Instr).all (fun i => i.wf) = true := by decide +kernel

theorem test_wellFormed_2 : (
    [.ideLeavesSecure 1, .blockReceive 15 63 4095 0 ⟨false, [], 3, 0⟩, .replayRequest 15 63 0, .frameIdleClose 15 63 0 0, .linkRekey 15 false,
     .laneFail 15 63 0, .quayFail 15 0, .remoteReadTimeout 2047 0, .quayStop 15, .quayTrain 15 false, .leave 4095, .heartbeat 4095 0 (2 ^ 32 - 1),
     .heartbeatSilence 4095 4095, .deviceLost 4095, .lostNotice 4095 (2 ^ 32 - 1), .timeMarker 15 0 0 0 0, .delayProbe 15 0,
     .collectiveChannelEnable 63, .collectiveChannelDisable 63, .collectiveRoundOpen 63, .collectiveMessage 63 65535 4095 false false [],
     .collectiveRoundComplete 63, .peerViolation 4095 0, .hbmStackFail 11 7, .slotsLost 4095 1023 63, .slotLossNotice 4095 1023 63, .rebuildGo 1023,
     .rebuildStart 1023 63 4095, .rebuildPage 4095 0 63 [], .rebuildDone 1023 63 4095, .slotReplace 1023 63 4095, .rebuildEnd 1023,
     .getCertificate 0 63 0 0, .challenge 0 63 0, .ideKm 0 1 false, .debugHalt 255 3, .debugStepCommand 255 3, .debugStepTile 255 3,
     .debugResume 255 3, .stepReq 3, .hotTrip 3, .hotTripRelease 3, .shutdownTrip 3, .shutdownTripRelease 3, .pltCapWrite 0 (2 ^ 64 - 1),
     .holdReady 4095, .registerWrite 0 0 0 (2 ^ 64 - 1), .readDataLands 2047 0 []] : List Instr).all (fun i => i.wf) = true := by decide +kernel

theorem test_wellFormed_3 : (
    [.remoteStreamRead 4095 2047 0 0 0 ⟨0, 0, 3, 0⟩, .remoteStreamWrite 4095 2047 0 0 3 [], .rebuildPageRequest 4095 0 63 4095,
     .groupMasterEpochRequest 4095 (2 ^ 32 - 1) 1023 (2 ^ 32 - 1) 4095, .endToEndAck 4095 0, .quayReconnect 15 false] : List Instr).all (fun i => i.wf) = true := by decide +kernel

end Sys2Proof.Tests
end

section
/-! SUPPORT. Detecting, recording and reporting an error leaves device memory alone: its bytes, its undefined ranges, the marks of its
words and the veil. -/

namespace Sys2Proof.Machine

/-- What reads of device memory depend on: the bytes listed, the undefined ranges, the marks of words in error and the veiled sets. -/
structure Contents where
  mem : Tab Byte
  undef : List (Nat × Nat × Nat)
  ecc : Tab Bool
  veiled : List Nat

/-- The contents of a state's device memory. -/
def State.contents (s : State) : Contents := ⟨s.mem, s.undef, s.ecc, s.veiled⟩

theorem contents_foldl {α : Type} (f : State → α → State) (hf : ∀ t x, (f t x).contents = t.contents) (l : List α) (s : State) :
    (l.foldl f s).contents = s.contents := by
  induction l generalizing s with
  | nil => rfl
  | cons x l ih => exact (ih (f s x)).trans (hf s x)

theorem contents_dock (s : State) (x : Dock) : ({ s with dock := x } : State).contents = s.contents := rfl

/-! ### Messages and records -/

theorem contents_send (s : State) (m : Msg) : (s.send m).contents = s.contents := by
  unfold State.send; split <;> rfl

theorem contents_hostWrite (s : State) (b : Nat) (l : List Byte) : (s.hostWrite b l).contents = s.contents := by
  induction l generalizing s b with
  | nil => rfl
  | cons x l ih => exact ih _ _

theorem contents_traceJob (s : State) (kind : Nat) (job : Option Job) (unit : Nat) : (s.traceJob kind job unit).contents = s.contents := by
  have trace (ring jobRef : Nat) : (s.trace kind ring jobRef unit).contents = s.contents := by
    unfold State.trace; split
    · exact contents_send s _
    · rfl
  unfold State.traceJob; split
  · exact trace _ _
  · exact trace _ _

theorem contents_irq (s : State) (port vector : Nat) : (s.irq port vector).contents = s.contents := by
  unfold State.irq; split
  · rfl
  · exact contents_send s _

theorem contents_ringIrq (s : State) (n : Nat) : (s.ringIrq n).contents = s.contents := by
  unfold State.ringIrq; dsimp only; split
  · rfl
  · split
    · exact contents_irq s _ _
    · rfl

theorem contents_putRecord (s : State) (n : Nat) (bs : List Byte) (noIrq : Bool) : (s.putRecord n bs noIrq).contents = s.contents := by
  unfold State.putRecord; dsimp only; split
  · exact contents_hostWrite s _ _
  · split
    · exact (contents_ringIrq _ n).trans (contents_hostWrite s _ _)
    · exact contents_hostWrite s _ _

theorem contents_jobRecord (s : State) (j : Job) (status resource : Nat) (win : Option (Nat × Nat)) :
    (s.jobRecord j status resource win).contents = s.contents := by
  unfold State.jobRecord State.postRecord; dsimp only; split
  · exact contents_putRecord s _ _ _
  · rfl

theorem contents_postEvent (s : State) (bs : List Byte) : (s.postEvent bs).contents = s.contents := by
  unfold State.postEvent; split
  · exact (contents_irq _ _ _).trans (contents_hostWrite s _ _)
  · split <;> rfl

theorem contents_logError (s : State) (e : Err) : (s.logError e).contents = s.contents := by
  have pushed : (s.elogPush (s.errorBytes e)).contents = s.contents := by
    unfold State.elogPush; dsimp only; split <;> rfl
  exact ((contents_traceJob _ _ _ _).trans (contents_postEvent _ _)).trans pushed

/-! ### Fences and the salvor -/

theorem contents_stopWay (s : State) (d w : Nat) : (s.stopWay d w).contents = s.contents := by
  unfold State.stopWay State.putWayStop State.putWayStopped; dsimp only
  split <;> split <;> rfl

theorem contents_fenceStack (s : State) (stack cause : Nat) : (s.fenceStack stack cause).contents = s.contents := by
  unfold State.fenceStack; dsimp only
  rw [contents_foldl]
  · rfl
  · intro t n; rfl

theorem contents_fenceUnit (s : State) (kind source unit addr : Nat) : (s.fenceUnit kind source unit addr).contents = s.contents := by
  unfold State.fenceUnit; dsimp only
  split
  · split <;> rfl
  split
  · rfl
  split
  · rfl
  split
  · exact (contents_dock _ _).trans (contents_stopWay s _ _)
  split
  · exact contents_fenceStack s _ _
  split
  · exact contents_fenceStack s _ _
  split
  · rfl
  split <;> rfl

theorem contents_deviceStop (s : State) (e : Err) : (s.deviceStop e).contents = s.contents := by
  unfold State.deviceStop; dsimp only; split
  · rfl
  · rw [contents_send, ← contents_logError s e]
    generalize s.logError e = u
    generalize h : List.foldl _ u u.jobs = t
    have stopped : t.contents = u.contents := by
      rw [← h, contents_foldl]
      intro t j; split
      · exact contents_jobRecord t j _ _ _
      · rfl
    exact stopped

theorem contents_ringFull (s : State) (e : Err) : (s.ringFull e).contents = s.contents := by
  unfold State.ringFull; dsimp only; split
  · exact contents_logError s e
  · exact contents_fenceUnit s _ _ _ _

theorem contents_queueError (s : State) (e : Err) : (s.queueError e).contents = s.contents := by
  unfold State.queueError State.takeInHand
  split
  · split_ifs
    · rfl
    · exact contents_ringFull s e
    · rfl
  · split_ifs
    · exact contents_ringFull s e
    · rfl
    · rfl

/-! ### Detection -/

theorem contents_detectOne (s : State) (e : Err) : (s.detectOne e).contents = s.contents := by
  unfold State.detectOne
  extract_lets first fenced rep counted promoted
  split
  · rfl
  split
  · exact contents_deviceStop _ _
  split
  · rfl
  · exact contents_queueError _ _

theorem contents_failStack (s : State) (stack cause : Nat) : (s.failStack stack cause).contents = s.contents := by
  unfold State.failStack; dsimp only; split
  · rfl
  · split
    · exact contents_detectOne s _
    · exact (contents_fenceStack _ _ _).trans (contents_detectOne s _)

theorem contents_countStack (s : State) (stack : Nat) : (s.countStack stack).contents = s.contents := by
  unfold State.countStack; dsimp only; split
  · exact contents_failStack _ _ _
  · rfl

theorem contents_detect (s : State) (e : Err) : (s.detect e).contents = s.contents := by
  unfold State.detect; dsimp only; split
  · exact (contents_countStack _ _).trans (contents_detectOne s e)
  · exact contents_detectOne s e

theorem contents_wordError (s : State) (a : Nat) (job : Option Nat) : (s.wordError a job).contents = s.contents := by
  unfold State.wordError; split
  · exact contents_detect _ _
  · exact contents_detect s _

end Sys2Proof.Machine
end

section
/-! SUPPORT. Device memory byte by byte: what a write through a view leaves, and what correcting words leaves. -/

namespace Sys2Proof.Machine

open Sys2Proof.Safety

/-! ### Bytes -/

theorem mem_of_contents {s t : State} (h : t.contents = s.contents) : t.mem = s.mem := congrArg Contents.mem h

theorem memAt_congr {s t : State} (hm : t.mem = s.mem) (hu : t.undef = s.undef) (a : Nat) : memAt t a = memAt s a := by
  unfold memAt; rw [hm, hu]

theorem memAt_of_contents {s t : State} (h : t.contents = s.contents) (a : Nat) : memAt t a = memAt s a :=
  memAt_congr (mem_of_contents h) (congrArg Contents.undef h) a

theorem byte_unveiled {s : State} (hv : s.veiled = []) (a : Nat) : s.byte a = memAt s a := by
  simp [State.byte, memAt, hv]

theorem bytes_unveiled {s : State} (hv : s.veiled = []) (a n : Nat) : s.bytes a n = (List.range n).map fun i => memAt s (a + i) := by
  simp [State.bytes, byte_unveiled hv]

theorem pokeByte_unveiled {s : State} (hv : s.veiled = []) (v : View) (a : Nat) (b : Byte) :
    s.pokeByte v a b = { s with mem := Tab.set (memDefault s.undef) a (v.apply (memAt s a) b) s.mem } := by
  simp [State.pokeByte, byte_unveiled hv, hv]

theorem memAt_pokeByte {s : State} (hv : s.veiled = []) (v : View) (a : Nat) (b : Byte) (x : Nat) :
    memAt (s.pokeByte v a b) x = if x = a then v.apply (memAt s a) b else memAt s x := by
  rw [pokeByte_unveiled hv]; exact Tab.get_set _ _ _ _ _

@[simp] theorem pokeByte_veiled (s : State) (v : View) (a : Nat) (b : Byte) : (s.pokeByte v a b).veiled = s.veiled := by
  unfold State.pokeByte; split <;> rfl

/-- Writing bytes through a view changes nothing but the bytes listed. -/
theorem pokeBytes_eq (s : State) (v : View) (a : Nat) (l : List Byte) : s.pokeBytes v a l = { s with mem := (s.pokeBytes v a l).mem } := by
  induction l generalizing s a with
  | nil => rfl
  | cons b l ih =>
    have first : s.pokeByte v a b = { s with mem := (s.pokeByte v a b).mem } := by
      unfold State.pokeByte; split <;> rfl
    rw [State.pokeBytes, ih, first]

/-- Each byte written becomes what its view makes of it (R243), and every other byte reads as before. -/
theorem memAt_pokeBytes {s : State} (hv : s.veiled = []) (v : View) (a : Nat) (l : List Byte) (x : Nat) :
    memAt (s.pokeBytes v a l) x = if a ≤ x ∧ x < a + l.length then v.apply (memAt s x) (l.getD (x - a) 0) else memAt s x := by
  induction l generalizing s a with
  | nil => rw [if_neg (by simp)]; rfl
  | cons b l ih =>
    rw [State.pokeBytes, ih (by simpa using hv), memAt_pokeByte hv]
    rcases Nat.lt_trichotomy x a with h | rfl | h
    · rw [if_neg (by omega), if_neg (by omega), if_neg (by omega)]
    · rw [if_neg (by omega), if_pos rfl, if_pos (by simp)]; simp
    · obtain ⟨k, rfl⟩ : ∃ k, x = a + 1 + k := ⟨x - (a + 1), by omega⟩
      have here : a + 1 + k - a = k + 1 := by omega
      simp only [List.length_cons, here, List.getD_cons_succ, Nat.add_sub_cancel_left, if_neg (show a + 1 + k ≠ a by omega)]
      congr 1
      exact propext (by omega)

/-- An address of the warehouse, the berths or host memory: no hot-row entry copies it. -/
theorem dropHot_of_ge {a : Nat} (h : 0x10000000000 ≤ a) (s : State) (n : Nat) : s.dropHot a n = s := by
  unfold State.dropHot; rw [if_neg (by omega)]

/-- Bytes written one by one, each with the value that its address fixes. -/
theorem memAt_foldl_write {s : State} (hv : s.veiled = []) (l : List (Nat × Byte)) (value : Nat → Byte)
    (hl : ∀ p ∈ l, 0x10000000000 ≤ p.1 ∧ p.2 = value p.1) (x : Nat) :
    memAt (l.foldl (fun t p => (t.dropHot p.1 1).pokeByte .normal p.1 p.2) s) x = if x ∈ l.map (·.1) then value x else memAt s x := by
  induction l generalizing s with
  | nil => rfl
  | cons p l ih =>
    obtain ⟨hp, hval⟩ := hl p (List.mem_cons_self ..)
    rw [List.foldl_cons, dropHot_of_ge hp, ih (by simpa using hv) fun q hq => hl q (List.mem_cons_of_mem _ hq), memAt_pokeByte hv]
    by_cases hx : x = p.1
    · simp [hx, hval, View.apply]
    · simp [hx]

/-! ### Words -/

theorem mem_wordsOf_iff {a n w : Nat} (hn : 1 ≤ n) : w ∈ wordsOf a n ↔ a / 8 ≤ w ∧ w ≤ (a + n - 1) / 8 := by
  unfold wordsOf
  rw [if_neg (by simp; omega), List.mem_map]
  constructor
  · rintro ⟨k, hk, rfl⟩
    have := List.mem_range.1 hk
    omega
  · rintro ⟨lo, hi⟩
    exact ⟨w - a / 8, List.mem_range.2 (by omega), by omega⟩

theorem word_mem_wordsOf {a n i : Nat} (hi : i < n) : (a + i) / 8 ∈ wordsOf a n :=
  (mem_wordsOf_iff (by omega)).2 ⟨by omega, by omega⟩

theorem Tab.find_filter {α : Type} (p : Nat → Bool) (t : Tab α) (k : Nat) :
    Tab.find k (t.filter fun e => p e.1) = if p k then Tab.find k t else none := by
  induction t with
  | nil => simp [Tab.find]
  | cons e t ih =>
    obtain ⟨j, v⟩ := e
    by_cases hj : j = k
    · subst hj
      cases hp : p j <;> simp [hp, Tab.find, ih]
    · cases hp : p j <;> simp [hp, Tab.find, ih, hj]

theorem badWord_of_unmarked {s : State} {w : Nat} (h : Tab.find w s.ecc = none) : s.badWord w = false := by
  simp [State.badWord, h]

theorem weakWord_of_unmarked {s : State} {w : Nat} (h : Tab.find w s.ecc = none) : s.weakWord w = false := by
  simp [State.weakWord, h]

/-- The correctable words of a list, each once: those that `State.correctWords` corrects. -/
def State.weakOf (s : State) (ws : List Nat) : List Nat := (ws.filter fun w => s.weakWord w).dedup

/-- Correcting words takes the marks of the correctable ones away and leaves every byte (R241). -/
theorem contents_correctWords (s : State) (ws : List Nat) :
    (s.correctWords ws).contents = { s.contents with ecc := s.ecc.filter fun e => !((s.weakOf ws).contains e.1) } := by
  unfold State.correctWords; dsimp only
  rw [contents_foldl _ fun t w => contents_detect t _]
  split <;> rfl

theorem correctWords_mem (s : State) (ws : List Nat) : (s.correctWords ws).mem = s.mem := congrArg Contents.mem (contents_correctWords s ws)
theorem correctWords_undef (s : State) (ws : List Nat) : (s.correctWords ws).undef = s.undef := congrArg Contents.undef (contents_correctWords s ws)
theorem correctWords_veiled (s : State) (ws : List Nat) : (s.correctWords ws).veiled = s.veiled := congrArg Contents.veiled (contents_correctWords s ws)

theorem weakWord_correctWords {s : State} {ws : List Nat} {w : Nat} (h : w ∈ ws) : (s.correctWords ws).weakWord w = false := by
  have marks : (s.correctWords ws).ecc = s.ecc.filter fun e => !((s.weakOf ws).contains e.1) :=
    congrArg Contents.ecc (contents_correctWords s ws)
  unfold State.weakWord
  rw [marks, Tab.find_filter (fun k => !((s.weakOf ws).contains k))]
  cases hw : s.weakWord w with
  | true => simp [State.weakOf, h, hw]
  | false => rw [if_pos (by simp [State.weakOf, hw])]; exact hw

/-- With no mark on the words there is nothing to correct. -/
theorem correctWords_unmarked {s : State} {ws : List Nat} (h : ∀ w ∈ ws, Tab.find w s.ecc = none) : s.correctWords ws = s := by
  have none_weak : (ws.filter fun w => s.weakWord w).dedup = [] := by
    rw [List.filter_eq_nil_iff.2 fun w hw => by simp [weakWord_of_unmarked (h w hw)]]; rfl
  unfold State.correctWords
  simp [none_weak]

end Sys2Proof.Machine
end

section
/-! SUPPORT. Accesses of one piece: where they lead, and what a read and a write of one place answer. -/

namespace Sys2Proof.Machine

open Sys2Proof.Safety

theorem live_of_Live {s : State} (h : Live s) : s.live = true := by
  obtain ⟨running, started, mode⟩ := h
  simp [State.live, State.flag, running, started, mode]

theorem upsetAt_nil (s : State) (r : Req) (a n : Nat) : s.upsetAt r a n [] = s := by
  unfold State.upsetAt; split <;> rfl

theorem oneAccess_iff {a n : Nat} : oneAccess a n = true ↔ 1 ≤ n ∧ a % 256 + n ≤ 256 := by
  simp [oneAccess]

/-- One access lies within 256 B (R235), so it is one piece. -/
theorem piecesOf_oneAccess {a n : Nat} (h : oneAccess a n = true) : piecesOf a n = [(a, n)] := by
  obtain ⟨pos, fits⟩ := oneAccess_iff.1 h
  have whole : min n (256 - a % 256) = n := by omega
  have pos' : n ≠ 0 := by omega
  simp [piecesOf, pieces, whole, pos']

theorem fillWins_one {a : Nat} (h : a < hostBase) (s : State) (n : Nat) : s.fillWins [(a, n)] = s := by
  simp [State.fillWins, State.fillWin, h]

/-! ### Where an access leads -/

/-- A choice differs from a value when each of its branches does. -/
theorem ne_of_ite {α : Type} {c : Prop} [Decidable c] {x y z : α} (hx : c → x ≠ z) (hy : ¬ c → y ≠ z) : (if c then x else y) ≠ z := by
  split
  next h => exact hx h
  next h => exact hy h

/-- Translation refuses an access before any word is looked at. -/
theorem locate_ne_memory (s : State) (r : Req) (wr : Bool) (a : Nat) (e : MemErr) : s.locate r wr a ≠ .error (.memory e) := by
  have whs (off : Nat) (v : View) : s.whsLoc r wr off v ≠ .error (.memory e) := by
    unfold State.whsLoc; dsimp only
    split_ifs <;> simp
  have model (off : Nat) : s.modelLoc r wr off ≠ .error (.memory e) := by
    unfold State.modelLoc; split
    · simp
    · dsimp only; split
      · simp
      · split <;> simp
  unfold State.locate
  refine ne_of_ite (fun _ => ?_) fun _ => ne_of_ite (fun _ => by simp) fun _ => ne_of_ite (fun _ => whs _ _) fun _ =>
    ne_of_ite (fun _ => by simp) fun _ => ne_of_ite (fun _ => model _) fun _ => ne_of_ite (fun _ => by simp) fun _ =>
    ne_of_ite (fun _ => ?_) fun _ => ne_of_ite (fun _ => by simp) fun _ => ne_of_ite (fun _ => ?_) fun _ => by simp
  · split
    · simp
    · split_ifs <;> simp
  · exact ne_of_ite (fun _ => by simp) fun _ => by simp
  · refine ne_of_ite (fun _ => by simp) fun _ => ?_
    split
    · simp
    · split_ifs <;> simp

/-- An address of a view leads where its offset leads in that view (R237). -/
theorem locate_view (s : State) (r : Req) (wr : Bool) {v off : Nat} (hv : v < 3) (ho : off < whsBytes) :
    s.locate r wr (whsBase + viewStep * v + off) = s.whsLoc r wr off (View.ofCode v) := by
  unfold whsBytes at ho
  have within : (whsBase + viewStep * v + off - whsBase) % viewStep = off := by unfold whsBase viewStep; omega
  have window : (whsBase + viewStep * v + off - whsBase) / viewStep = v := by unfold whsBase viewStep; omega
  unfold State.locate
  rw [if_neg (by unfold whsBase viewStep; omega), if_neg (by omega), if_pos (by unfold whsBase viewStep; omega), within, window]

/-- A write of a class is refused by a way that is stopped, holds no scratch memory, or shuts out the class (R256). -/
theorem whsLoc_write_refused {s : State} {cls off d w : Nat} (hw : wayOf off = (d, w)) (v : View)
    (h : s.wayStopped d w = true ∨ s.wayUse d w ≠ 0 ∨ bit (s.wayClasses d w) cls = false) :
    s.whsLoc { cls := some cls } true off v = .error .bounds := by
  unfold State.whsLoc
  rw [hw]; dsimp only
  split
  · rfl
  next outside =>
    split
    · rfl
    next scratch =>
      rw [if_pos]
      have running : s.wayStopped d w = false := by
        simp only [Bool.or_eq_true, not_or, Bool.not_eq_true] at outside; exact outside.1.2
      simp only [running, Bool.false_eq_true, false_or] at h
      simpa [Req.mayWrite] using h.resolve_left (by simpa using scratch)

/-- A scratch way in service that admits the class of a write takes it (R256). -/
theorem whsLoc_write_ok {s : State} {cls off d w : Nat} (hw : wayOf off = (d, w)) (v : View) (ho : off < whsBytes)
    (running : s.wayStopped d w = false) (scratch : s.wayUse d w = 0) (admits : bit (s.wayClasses d w) cls = true) :
    s.whsLoc { cls := some cls } true off v = .ok (.dev (whsBase + off) v) := by
  have some_class : s.wayClasses d w ≠ 0 := by
    intro h; rw [h] at admits; simp [bit] at admits
  unfold State.whsLoc
  rw [hw]; dsimp only
  rw [if_neg (by simp [running, some_class, ho]), if_neg (by simp [scratch]), if_neg (by simp [Req.mayWrite, admits])]

/-! ### Reads -/

theorem read_refused {s : State} {r : Req} {a n : Nat} {e : AccErr} (one : oneAccess a n = true) (h : s.locate r false a = .error e) :
    s.read r a n = .error e := by
  simp [State.read, piecesOf_oneAccess one, State.places, h]

theorem read_good {s : State} {r : Req} {a n p : Nat} {v : View} (one : oneAccess a n = true) (ha : a < hostBase)
    (h : s.locate r false a = .ok (.dev p v)) (good : ∀ w ∈ wordsOf p n, s.badWord w = false) :
    s.read r a n = .ok (s.bytes p n, s.correctWords (wordsOf p n)) := by
  have none_bad : (wordsOf p n).any (fun w => s.badWord w) = false := by simpa using good
  simp [State.read, piecesOf_oneAccess one, State.places, h, Loc.words, State.placeBytes, none_bad, fillWins_one ha]

theorem read_bad {s : State} {r : Req} {a n p : Nat} {v : View} (one : oneAccess a n = true)
    (h : s.locate r false a = .ok (.dev p v)) (bad : ∃ w ∈ wordsOf p n, s.badWord w = true) :
    s.read r a n = .error (.memory { bad := ((wordsOf p n).filter fun w => s.badWord w).map (8 * ·), reads := wordsOf p n,
                                     good := s.goodBytes (.dev p v) n }) := by
  have some_bad : (wordsOf p n).any (fun w => s.badWord w) = true := by simpa using bad
  simp [State.read, piecesOf_oneAccess one, State.places, h, Loc.words, some_bad]

/-! ### Writes -/

theorem write_refused {s : State} {r : Req} {a : Nat} {bs : List Byte} {e : AccErr} (one : oneAccess a bs.length = true)
    (h : s.locate r true a = .error e) : s.write r a bs = .error e := by
  simp [State.write, piecesOf_oneAccess one, State.places, h]

theorem write_good {s : State} {r : Req} {a p : Nat} {v : View} {bs : List Byte} (one : oneAccess a bs.length = true) (ha : a < hostBase)
    (h : s.locate r true a = .ok (.dev p v)) (good : ∀ w ∈ (Loc.dev p v).readWords bs.length, s.badWord w = false) :
    s.write r a bs = .ok (s.writeLoc (.dev p v) bs) := by
  have none_bad : ((Loc.dev p v).readWords bs.length).any (fun w => s.badWord w) = false := by simpa using good
  simp [State.write, piecesOf_oneAccess one, State.places, h, none_bad, fillWins_one ha, State.writePlaces]

theorem write_bad {s : State} {r : Req} {a p : Nat} {v : View} {bs : List Byte} (one : oneAccess a bs.length = true)
    (h : s.locate r true a = .ok (.dev p v)) (bad : ∃ w ∈ (Loc.dev p v).readWords bs.length, s.badWord w = true) :
    s.write r a bs = .error (.memory { bad := (((Loc.dev p v).readWords bs.length).filter fun w => s.badWord w).map (8 * ·),
                                       reads := (Loc.dev p v).readWords bs.length, whole := (Loc.dev p v).newWords bs.length,
                                       wrote := s.wrote (.dev p v) bs }) := by
  have some_bad : ((Loc.dev p v).readWords bs.length).any (fun w => s.badWord w) = true := by simpa using bad
  simp [State.write, piecesOf_oneAccess one, State.places, h, some_bad, State.writeErr]

theorem readWords_subset (p : Nat) (v : View) (n : Nat) : (Loc.dev p v).readWords n ⊆ wordsOf p n := by
  cases v with
  | normal => exact List.filter_subset_self _
  | set => exact List.Subset.refl _
  | clear => exact List.Subset.refl _

/-- A bit-set or bit-clear write reads every word it touches (R247). -/
theorem readWords_alias {v : View} (h : v ≠ .normal) (p n : Nat) : (Loc.dev p v).readWords n = wordsOf p n := by
  cases v with
  | normal => exact absurd rfl h
  | set => rfl
  | clear => rfl

/-- With no mark on its words, a write through a view changes the bytes alone: the marks it renews are none of its words'. -/
theorem writeLoc_unmarked {s : State} {p : Nat} (hp : 0x10000000000 ≤ p) (v : View) {bs : List Byte}
    (h : ∀ w ∈ wordsOf p bs.length, Tab.find w s.ecc = none) :
    s.writeLoc (.dev p v) bs = (s.renew ((Loc.dev p v).newWords bs.length)).pokeBytes v p bs := by
  simp only [State.writeLoc, dropHot_of_ge hp]
  rw [correctWords_unmarked fun w hw => h w (readWords_subset p v bs.length hw)]

/-! ### Writes that meet uncorrectable words -/

/-- The bytes that a bit-set or bit-clear write leaves in words without error, by address (R245). -/
theorem mem_wrote_alias {s : State} (hv : s.veiled = []) {v : View} (hview : v ≠ .normal) {p : Nat} {bs : List Byte} {x : Nat × Byte} :
    x ∈ s.wrote (.dev p v) bs ↔ ∃ i, i < bs.length ∧ s.badWord ((p + i) / 8) = false ∧ x = (p + i, v.apply (memAt s (p + i)) (bs.getD i 0)) := by
  have bad_iff (i : Nat) (hi : i < bs.length) :
      ((wordsOf p bs.length).filter fun w => s.badWord w).contains ((p + i) / 8) = s.badWord ((p + i) / 8) := by
    rw [Bool.eq_iff_iff]; simp [word_mem_wordsOf hi]
  simp only [State.wrote, readWords_alias hview, List.mem_map, List.mem_filter, List.mem_zipIdx_iff_getElem?, byte_unveiled hv]
  constructor
  · rintro ⟨⟨b, i⟩, ⟨hb, good⟩, rfl⟩
    dsimp only at hb good
    obtain ⟨hi, rfl⟩ := List.getElem?_eq_some_iff.1 hb
    rw [bad_iff i hi] at good
    exact ⟨i, hi, by simpa using good, by simp [hi]⟩
  · rintro ⟨i, hi, good, rfl⟩
    refine ⟨(bs[i], i), ⟨List.getElem?_eq_getElem hi, ?_⟩, by simp [hi]⟩
    dsimp only
    rw [bad_iff i hi, good]; rfl

/-- Reporting words leaves the bytes that the access has left. -/
theorem contents_memError (s : State) (e : MemErr) (job : Option Nat) : (s.memError e job).contents = (s.memDone e).contents :=
  contents_foldl _ (fun t a => contents_wordError t a job) _ _

/-- An access that writes nothing leaves every byte, whatever words it met. -/
theorem memError_mem_of_unwritten (s : State) {e : MemErr} (h : e.wrote = []) (job : Option Nat) : (s.memError e job).mem = s.mem := by
  rw [mem_of_contents (contents_memError s e job)]
  unfold State.memDone
  rw [h]; exact correctWords_mem s e.reads

/-- An access that met uncorrectable words has written what it lists and nothing else. -/
theorem memAt_memError {s : State} (hv : s.veiled = []) (e : MemErr) (job : Option Nat) (value : Nat → Byte)
    (h : ∀ x ∈ e.wrote, 0x10000000000 ≤ x.1 ∧ x.2 = value x.1) (b : Nat) :
    memAt (s.memError e job) b = if b ∈ e.wrote.map (·.1) then value b else memAt s b := by
  rw [memAt_of_contents (contents_memError s e job)]
  unfold State.memDone
  rw [memAt_foldl_write (show ((s.correctWords e.reads).renew e.whole).veiled = [] from (correctWords_veiled s e.reads).trans hv) e.wrote value h]
  congr 1
  exact memAt_congr (correctWords_mem s e.reads) (correctWords_undef s e.reads) b

end Sys2Proof.Machine
end

section
/-! SUPPORT. Warehouse accesses as commands: reads, and writes through the three views (R240 to R247, R256, R257). -/

namespace Sys2Proof.Machine

open Sys2Proof.Safety

theorem exec_warehouseRead_eq (a n : Nat) (who : ReadBy) (us : List (Nat × Bool)) (s : State) :
    exec (.warehouseRead a n who us) s = execWarehouseRead a n who us s := rfl

theorem exec_warehouseWrite_eq (a : Nat) (who : WriteBy) (bs : List Byte) (s : State) :
    exec (.warehouseWrite a who bs) s = execWarehouseWrite a who bs s := rfl

theorem exec_bitSetWrite_eq (a : Nat) (who : WriteBy) (bs : List Byte) (s : State) :
    exec (.bitSetWrite a who bs) s = execBitSetWrite a who bs s := rfl

theorem exec_bitClearWrite_eq (a : Nat) (who : WriteBy) (bs : List Byte) (s : State) :
    exec (.bitClearWrite a who bs) s = execBitClearWrite a who bs s := rfl

/-! ### Reads -/

/-- What a read asks as: its job, or the debug port. -/
def State.readReq (s : State) (job : Nat) (debug : Bool) : Req :=
  if debug then { debug := true } else match s.job job with | some j => j.req | none => {}

theorem readReq_job_debug (s : State) (job : Nat) : (s.readReq job false).debug = false := by
  simp only [State.readReq, Bool.false_eq_true, if_false]
  split <;> rfl

/-- A read that the engines take is answered by `State.whsRead`. -/
theorem exec_warehouseRead {s : State} {a n : Nat} {debug : Bool} (live : Live s) (window : readWindow debug a = true)
    (one : oneAccess a n = true) (may : s.debugMay debug = true) (job : Nat) :
    exec (.warehouseRead a n ⟨job, debug⟩ []) s =
      .next (s.whsRead (s.readReq job debug) (if debug then none else s.jobNo job) a n) := by
  rw [exec_warehouseRead_eq]
  unfold execWarehouseRead; dsimp only
  rw [if_pos (by simp [live_of_Live live, may, window, one]), upsetAt_nil]
  rfl

theorem whsRead_refused {s : State} {r : Req} {a n : Nat} {e : AccErr} (job : Option Nat) (one : oneAccess a n = true)
    (h : s.locate r false a = .error e) : s.whsRead r job a n = s.whsRefused r.debug false a := by
  unfold State.whsRead
  rw [read_refused one h]
  cases e with
  | memory e => exact absurd h (locate_ne_memory s r false a e)
  | bounds | hostMiss | lost | held | absent => rfl

theorem whsRead_good {s : State} {r : Req} {a n p : Nat} {v : View} (job : Option Nat) (one : oneAccess a n = true) (ha : a < hostBase)
    (h : s.locate r false a = .ok (.dev p v)) (hv : s.veiled = []) (good : ∀ w ∈ wordsOf p n, s.badWord w = false) :
    s.whsRead r job a n = (s.correctWords (wordsOf p n)).send (.response a ((List.range n).map fun i => memAt s (p + i))) := by
  unfold State.whsRead
  rw [read_good one ha h good, bytes_unveiled hv]

theorem whsRead_bad {s : State} {r : Req} {a n p : Nat} {v : View} (job : Option Nat) (one : oneAccess a n = true)
    (h : s.locate r false a = .ok (.dev p v)) (bad : ∃ w ∈ wordsOf p n, s.badWord w = true) :
    (∀ w ∈ wordsOf p n, s.badWord w = true → .poisoned (8 * w) ∈ (s.whsRead r job a n).out) ∧ (s.whsRead r job a n).mem = s.mem := by
  unfold State.whsRead
  rw [read_bad one h bad]
  refine ⟨fun w hw hbad => ?_, ?_⟩
  · refine List.mem_append_right _ (List.mem_append_right _ ?_)
    exact List.mem_map_of_mem (List.mem_map_of_mem (List.mem_filter.2 ⟨hw, hbad⟩))
  · rw [State.sendAll_mem, memError_mem_of_unwritten s rfl]

/-! ### Writes -/

/-- The command that writes through a view. -/
def viewWrite (v a cls : Nat) (bs : List Byte) : Instr :=
  if v = 0 then .warehouseWrite a ⟨cls, false⟩ bs else if v = 1 then .bitSetWrite a ⟨cls, false⟩ bs else .bitClearWrite a ⟨cls, false⟩ bs

theorem ofCode_apply (v : Nat) (x b : Byte) :
    (View.ofCode v).apply x b = if v = 0 then b else if v = 1 then x ||| b else x &&& ~~~ b := by
  match v with
  | 0 => rfl
  | 1 => rfl
  | _ + 2 => rfl

theorem ofCode_ne_normal {v : Nat} (h : v ≠ 0) : View.ofCode v ≠ .normal := by
  match v with
  | 0 => exact absurd rfl h
  | 1 => nofun
  | _ + 2 => nofun

/-- The views are whole 256 B units apart, so an access of a view is one when its offset's is. -/
theorem oneAccess_view (v off n : Nat) : oneAccess (whsBase + viewStep * v + off) n = oneAccess off n := by
  unfold oneAccess whsBase viewStep
  rw [show (0x400000000000 + 0x100000000 * v + off) % 256 = off % 256 by omega]

theorem viewAccess_view {v off n : Nat} (ho : off < whsBytes) (one : oneAccess off n = true) :
    viewAccess false v (whsBase + viewStep * v + off) n = true := by
  simp [viewAccess, oneAccess_view, one, ho]

/-- A write of a class through a view that the engines take does what `State.whsWrite` does. -/
theorem exec_viewWrite {s : State} {v off cls : Nat} {bs : List Byte} (live : Live s) (hv : v < 3) (hc : cls < 4) (ho : off < whsBytes)
    (one : oneAccess off bs.length = true) :
    exec (viewWrite v (whsBase + viewStep * v + off) cls bs) s =
      .next (s.whsWrite { cls := some cls } (whsBase + viewStep * v + off) bs) := by
  have taken : (s.live && s.debugMay false && decide (cls < 4) && viewAccess false v (whsBase + viewStep * v + off) bs.length) = true := by
    simp [live_of_Live live, State.debugMay, hc, viewAccess_view ho one]
  match v, hv, taken with
  | 0, _, taken => exact if_pos taken
  | 1, _, taken => exact if_pos taken
  | 2, _, taken => exact if_pos taken

theorem whsWrite_refused {s : State} {r : Req} {a : Nat} {bs : List Byte} {e : AccErr} (one : oneAccess a bs.length = true)
    (h : s.locate r true a = .error e) : s.whsWrite r a bs = s.whsRefused r.debug true a := by
  unfold State.whsWrite
  rw [write_refused one h]
  cases e with
  | memory e => exact absurd h (locate_ne_memory s r true a e)
  | bounds | hostMiss | lost | held | absent => rfl

/-- A write whose words hold no mark changes its bytes by the view, and nothing but bytes and marks. -/
theorem whsWrite_unmarked {s : State} {r : Req} {a p : Nat} {v : View} {bs : List Byte} (one : oneAccess a bs.length = true)
    (ha : a < hostBase) (hp : 0x10000000000 ≤ p) (h : s.locate r true a = .ok (.dev p v)) (hv : s.veiled = [])
    (unmarked : ∀ w ∈ wordsOf p bs.length, Tab.find w s.ecc = none) :
    (∀ x, memAt (s.whsWrite r a bs) x = if p ≤ x ∧ x < p + bs.length then v.apply (memAt s x) (bs.getD (x - p) 0) else memAt s x) ∧
    s.whsWrite r a bs = { s with ecc := (s.whsWrite r a bs).ecc, mem := (s.whsWrite r a bs).mem } := by
  have good : ∀ w ∈ (Loc.dev p v).readWords bs.length, s.badWord w = false := fun w hw =>
    badWord_of_unmarked (unmarked w (readWords_subset p v _ hw))
  have written : s.whsWrite r a bs = (s.renew ((Loc.dev p v).newWords bs.length)).pokeBytes v p bs := by
    unfold State.whsWrite
    rw [write_good one ha h good]
    exact writeLoc_unmarked hp v unmarked
  rw [written]
  refine ⟨memAt_pokeBytes (s := s.renew _) hv v p bs, ?_⟩
  rw [pokeBytes_eq]; rfl

/-- A bit-set or bit-clear write leaves an uncorrectable word, updates the others, and reports each such word (R245, R247). -/
theorem whsWrite_alias_bad {s : State} {r : Req} {a p : Nat} {v : View} {bs : List Byte} (one : oneAccess a bs.length = true)
    (hp : 0x10000000000 ≤ p) (h : s.locate r true a = .ok (.dev p v)) (hv : s.veiled = []) (hview : v ≠ .normal)
    (bad : ∃ w ∈ wordsOf p bs.length, s.badWord w = true) :
    (∀ x, memAt (s.whsWrite r a bs) x =
      if (p ≤ x ∧ x < p + bs.length) ∧ s.badWord (x / 8) = false then v.apply (memAt s x) (bs.getD (x - p) 0) else memAt s x) ∧
    ∀ w ∈ wordsOf p bs.length, s.badWord w = true → .poisoned (8 * w) ∈ (s.whsWrite r a bs).out := by
  rw [← readWords_alias hview p bs.length] at bad ⊢
  unfold State.whsWrite
  rw [write_bad one h bad]
  refine ⟨fun x => ?_, fun w hw hbad => ?_⟩
  · refine (memAt_memError hv _ none (fun y => v.apply (memAt s y) (bs.getD (y - p) 0)) ?_ x).trans ?_
    · intro e he
      obtain ⟨i, _, _, rfl⟩ := (mem_wrote_alias hv hview).1 he
      exact ⟨by dsimp only; omega, by simp⟩
    · refine if_congr ?_ rfl rfl
      rw [List.mem_map]
      constructor
      · rintro ⟨e, he, rfl⟩
        obtain ⟨i, hi, good, rfl⟩ := (mem_wrote_alias hv hview).1 he
        exact ⟨⟨by dsimp only; omega, by dsimp only; omega⟩, good⟩
      · rintro ⟨⟨lo, hi⟩, good⟩
        obtain ⟨i, rfl⟩ : ∃ i, x = p + i := ⟨x - p, by omega⟩
        exact ⟨_, (mem_wrote_alias hv hview).2 ⟨i, by omega, good, rfl⟩, rfl⟩
  · exact List.mem_append_right _ (List.mem_map_of_mem (List.mem_map_of_mem (List.mem_filter.2 ⟨hw, hbad⟩)))

end Sys2Proof.Machine
end

section
/-! The statement about warehouse accesses, clause by clause. -/

namespace Sys2Proof.Safety

open Sys2Proof.Machine

/-! ### Reads -/

theorem exec_read_refused {s : State} {a n job : Nat} {e : AccErr} (live : Live s) (window : readWindow false a = true)
    (one : oneAccess a n = true) (h : s.locate (s.readReq job false) false a = .error e) :
    exec (.warehouseRead a n ⟨job, false⟩ []) s = .next (s.send (.accessRefused a)) := by
  rw [exec_warehouseRead live window one rfl job, whsRead_refused _ one h, readReq_job_debug]
  rfl

section
variable {s : State} {a n p job : Nat} {v : View} {debug : Bool} (live : Live s) (window : readWindow debug a = true)
  (one : oneAccess a n = true) (may : s.debugMay debug = true) (h : s.locate (s.readReq job debug) false a = .ok (.dev p v))
include live window one may h

theorem exec_read_unmarked (hv : s.veiled = []) (ha : a < hostBase) (unmarked : ∀ w ∈ wordsOf p n, Tab.find w s.ecc = none) :
    exec (.warehouseRead a n ⟨job, debug⟩ []) s =
      .next { s with out := s.out ++ [.response a ((List.range n).map fun i => memAt s (p + i))] } := by
  rw [exec_warehouseRead live window one may job, whsRead_good _ one ha h hv fun w hw => badWord_of_unmarked (unmarked w hw),
    correctWords_unmarked unmarked]
  rfl

theorem runs_read_correctable (hv : s.veiled = []) (ha : a < hostBase) (good : ∀ w ∈ wordsOf p n, s.badWord w = false) :
    Runs (.warehouseRead a n ⟨job, debug⟩ []) s fun t =>
      t.out.getLast? = some (.response a ((List.range n).map fun i => memAt s (p + i))) ∧ t.mem = s.mem ∧
      ∀ w ∈ wordsOf p n, t.weakWord w = false := by
  refine ⟨_, exec_warehouseRead live window one may job, ?_⟩
  rw [whsRead_good _ one ha h hv good]
  exact ⟨List.getLast?_concat .., correctWords_mem s _, fun w hw => weakWord_correctWords hw⟩

theorem runs_read_bad (bad : ∃ w ∈ wordsOf p n, s.badWord w = true) :
    Runs (.warehouseRead a n ⟨job, debug⟩ []) s fun t =>
      (∀ w ∈ wordsOf p n, s.badWord w = true → .poisoned (8 * w) ∈ t.out) ∧ t.mem = s.mem :=
  ⟨_, exec_warehouseRead live window one may job, whsRead_bad _ one h bad⟩

end

/-! ### The debug port below D2 -/

theorem exec_debug_shut {s : State} (shut : s.debugDeep = false) (a n job cls : Nat) (bs : List Byte) :
    exec (.warehouseRead a n ⟨job, true⟩ []) s = .next s ∧ exec (.warehouseWrite a ⟨cls, true⟩ bs) s = .next s ∧
    exec (.bitSetWrite a ⟨cls, true⟩ bs) s = .next s ∧ exec (.bitClearWrite a ⟨cls, true⟩ bs) s = .next s := by
  rw [exec_warehouseRead_eq, exec_warehouseWrite_eq, exec_bitSetWrite_eq, exec_bitClearWrite_eq]
  unfold execWarehouseRead execWarehouseWrite execBitSetWrite execBitClearWrite
  simp [State.debugMay, shut]

/-! ### Writes through the views -/

section
variable {s : State} {v off cls d w : Nat} {bs : List Byte} (live : Live s) (hview : v < 3) (hcls : cls < 4) (ho : off < whsBytes)
  (one : oneAccess off bs.length = true) (hw : wayOf off = (d, w))
include live hview hcls ho one hw

theorem exec_viewWrite_refused
    (h : s.wayStopped d w = true ∨ s.wayUse d w ≠ 0 ∨ bit (s.wayClasses d w) cls = false) :
    exec (viewWrite v (whsBase + viewStep * v + off) cls bs) s = .next (s.send (.accessRefused (whsBase + viewStep * v + off))) := by
  have refused := (locate_view s { cls := some cls } true hview ho).trans (whsLoc_write_refused hw (View.ofCode v) h)
  rw [exec_viewWrite live hview hcls ho one, whsWrite_refused (by rwa [oneAccess_view]) refused]
  rfl

variable (running : s.wayStopped d w = false) (scratch : s.wayUse d w = 0) (admits : bit (s.wayClasses d w) cls = true)
  (hveil : s.veiled = [])
include running scratch admits hveil

theorem runs_viewWrite_unmarked (unmarked : ∀ n ∈ wordsOf (whsBase + off) bs.length, Tab.find n s.ecc = none) :
    Runs (viewWrite v (whsBase + viewStep * v + off) cls bs) s fun t =>
      KeepsMemBut s t (whsBase + off) bs.length ∧
      (∀ i, i < bs.length → memAt t (whsBase + off + i) = (View.ofCode v).apply (memAt s (whsBase + off + i)) (bs.getD i 0)) ∧
      t = { s with ecc := t.ecc, mem := t.mem } := by
  have placed := (locate_view s { cls := some cls } true hview ho).trans
    (whsLoc_write_ok hw (View.ofCode v) ho running scratch admits)
  have below : whsBase + viewStep * v + off < hostBase := by unfold whsBytes at ho; unfold whsBase viewStep hostBase; omega
  obtain ⟨bytes, rest⟩ := whsWrite_unmarked (by rwa [oneAccess_view]) below (by unfold whsBase; omega) placed hveil unmarked
  refine ⟨_, exec_viewWrite live hview hcls ho one, fun b hb => ?_, fun i hi => ?_, rest⟩
  · rw [bytes, if_neg hb]
  · rw [bytes, if_pos ⟨by omega, by omega⟩, Nat.add_sub_cancel_left]

theorem runs_aliasWrite_bad (hv : v ≠ 0) (bad : ∃ n ∈ wordsOf (whsBase + off) bs.length, s.badWord n = true) :
    Runs (viewWrite v (whsBase + viewStep * v + off) cls bs) s fun t =>
      KeepsMemBut s t (whsBase + off) bs.length ∧
      (∀ i, i < bs.length → memAt t (whsBase + off + i) =
        if s.badWord ((whsBase + off + i) / 8) = true then memAt s (whsBase + off + i)
        else (View.ofCode v).apply (memAt s (whsBase + off + i)) (bs.getD i 0)) ∧
      ∀ n ∈ wordsOf (whsBase + off) bs.length, s.badWord n = true → .poisoned (8 * n) ∈ t.out := by
  have placed := (locate_view s { cls := some cls } true hview ho).trans
    (whsLoc_write_ok hw (View.ofCode v) ho running scratch admits)
  obtain ⟨bytes, told⟩ := whsWrite_alias_bad (by rwa [oneAccess_view]) (by unfold whsBase; omega) placed hveil (ofCode_ne_normal hv) bad
  refine ⟨_, exec_viewWrite live hview hcls ho one, fun b hb => ?_, fun i hi => ?_, told⟩
  · rw [bytes, if_neg fun h => hb h.1]
  · rw [bytes, Nat.add_sub_cancel_left]
    cases hbad : s.badWord ((whsBase + off + i) / 8) with
    | true => simp
    | false => rw [if_pos ⟨⟨by omega, by omega⟩, rfl⟩, if_neg (by simp)]

end

/-- Settles O36: one access is one piece (R235), so a read or a write is decided where its address leads (`State.locate`); reporting
words in error leaves memory alone, and a view makes of each byte what R243 says. -/
theorem warehouseAccessesByView : Obligations.WarehouseAccessesByView := by
  unfold Obligations.WarehouseAccessesByView
  refine ⟨?reads, ?debugPort, ?writes⟩
  case reads =>
    intro s addr len job p v debug live window one may r bytes
    refine ⟨fun e h hdebug => ?_, fun h hveil below => ⟨?_, ?_, ?_⟩⟩
    · subst hdebug
      exact exec_read_refused live window one h
    · exact exec_read_unmarked live window one may h hveil below
    · exact runs_read_correctable live window one may h hveil below
    · exact fun bad _ => runs_read_bad live window one may h bad
  case debugPort =>
    exact fun s addr len job cls data _ shut => exec_debug_shut shut addr len job cls data
  case writes =>
    intro s v off cls data live hview hcls ho one
    rcases hw : wayOf off with ⟨d, w⟩
    simp only [← ofCode_apply]
    refine ⟨?_, fun running scratch admits hveil => ⟨?_, ?_⟩⟩
    · exact exec_viewWrite_refused live hview hcls ho one hw
    · exact runs_viewWrite_unmarked live hview hcls ho one hw running scratch admits hveil
    · exact runs_aliasWrite_bad live hview hcls ho one hw running scratch admits hveil

end Sys2Proof.Safety
end

section
/-! SUPPORT. The host's side of the rings: accesses while the ports answer, what freezing a ring leaves, the doorbells (R457 to R461,
R474), and descriptor reads (R462 to R465). -/

namespace Sys2Proof.Machine

open Sys2Proof.Safety

/-! ### Accesses from the host -/

/-- While the ports answer, a host access wakes nothing and takes its effect (R605). -/
theorem hostDo_of_HostUp {s : State} (h : HostUp s) (f : State → State) : s.hostDo f = f s := by
  obtain ⟨mode, started⟩ := h
  have awake : s.wakeFor 0x02 = s := by simp [State.wakeFor, mode]
  have answers : s.answers = true := by simp [State.answers, mode, started]
  simp [State.hostDo, awake, answers]

/-! ### Freezing a ring (R482) -/

theorem freezeRing_frame (s : State) (n cause : Nat) :
    s.freezeRing n cause = { s with flds := (s.freezeRing n cause).flds, rings := (s.freezeRing n cause).rings } := rfl

theorem ring_freezeRing (s : State) (n cause m : Nat) :
    (s.freezeRing n cause).ring m = if m = n then { s.ring n with st := .frozen } else s.ring m :=
  State.ring_putRing s n { s.ring n with st := .frozen } m

theorem causeKey_ne_freezesKey (n : Nat) : HST_RING_STATUS_FREEZE_CAUSE.key n ≠ HMR_SCHED_EVENTS_FREEZES.key 0 := by
  simp only [Fld.key, HST_RING_STATUS_FREEZE_CAUSE, HMR_SCHED_EVENTS_FREEZES]; omega

theorem get_cause_freezeRing (s : State) (n cause : Nat) :
    (s.freezeRing n cause).get HST_RING_STATUS_FREEZE_CAUSE n = cause % 16 := by
  unfold State.freezeRing
  rw [State.get_inc_ne _ _ (causeKey_ne_freezesKey n), State.get_put_self]
  rfl

theorem keepsFieldsBut_freezeRing (s : State) (n cause : Nat) :
    KeepsFieldsBut s (s.freezeRing n cause) [HST_RING_STATUS_FREEZE_CAUSE.key n, HMR_SCHED_EVENTS_FREEZES.key 0] := by
  intro f i other
  simp only [List.mem_cons, List.not_mem_nil, or_false, not_or] at other
  obtain ⟨notCause, notFreezes⟩ := other
  unfold State.freezeRing
  rw [State.get_inc_ne _ _ notFreezes, State.get_put_ne _ _ notCause]
  rfl

/-! ### Doorbells -/

theorem ringRuns_iff {s : State} {n : Nat} : s.ringRuns n = true ↔ (s.ring n).st = .running := beq_iff_eq

theorem sqValid_iff {s : State} {n p : Nat} : s.sqValid n p = true ↔
    (p + 2 ^ 32 - (s.ring n).cons) % 2 ^ 32 ≤ 2 ^ s.get HST_RING_CFG_SQ_LOG2 n ∧ (p + 2 ^ 32 - (s.ring n).prod) % 2 ^ 32 < 2 ^ 31 := by
  simp [State.sqValid]

theorem cqValid_iff {prod old q : Nat} :
    cqValid prod old q = true ↔ (q + 2 ^ 32 - old) % 2 ^ 32 < 2 ^ 31 ∧ (prod + 2 ^ 32 - q) % 2 ^ 32 < 2 ^ 31 := by
  simp [cqValid]

theorem sqDoorbell_not_running {s : State} {n : Nat} (h : (s.ring n).st ≠ .running) (p : Nat) : s.sqDoorbell n p = s.badWrite :=
  if_pos (by simp [State.ringRuns, h])

theorem cqDoorbell_not_running {s : State} {n : Nat} (h : (s.ring n).st ≠ .running) (q : Nat) : s.cqDoorbell n q = s.badWrite :=
  if_pos (by simp [State.ringRuns, h])

theorem sqDoorbell_running {s : State} {n : Nat} (h : (s.ring n).st = .running) (p : Nat) :
    s.sqDoorbell n p = if s.sqValid n p then s.putRing n { s.ring n with prod := p } else s.freezeRing n 1 :=
  if_neg (by simp [ringRuns_iff.2 h])

theorem cqDoorbell_running {s : State} {n : Nat} (h : (s.ring n).st = .running) (q : Nat) :
    s.cqDoorbell n q =
      if cqValid (s.ring n).cqProd (s.ring n).cqCons q then s.putRing n { s.ring n with cqCons := q } else s.freezeRing n 2 :=
  if_neg (by simp [ringRuns_iff.2 h])

/-- With no event record queued there is nothing to write. -/
theorem flushEvents_of_empty {s : State} (h : s.evt.queue = []) : s.flushEvents = s := by
  have unchanged : ({ s.evt with queue := [] } : EvtRing) = s.evt := by rw [← h]
  unfold State.flushEvents
  rw [h, State.drainEvents, unchanged]

theorem evtDoorbell_valid {s : State} {q : Nat} (valid : cqValid s.evt.prod s.evt.cons q = true) (empty : s.evt.queue = []) :
    s.evtDoorbell q = { s with evt := { s.evt with cons := q } } :=
  (if_pos valid).trans (flushEvents_of_empty empty)

theorem evtDoorbell_invalid {s : State} {q : Nat} (invalid : ¬ cqValid s.evt.prod s.evt.cons q = true) :
    s.evtDoorbell q = s.put HST_EVT_STATUS_OVERFLOW 0 1 :=
  if_neg invalid

section
variable {s : State} (up : HostUp s)
include up

theorem exec_sqProducer {n : Nat} (hn : n < 256) (v : Nat) : exec (.sqProducer n v) s = .next (s.sqDoorbell n (v % 2 ^ 32)) := by
  change execSqProducer n v s = _
  rw [execSqProducer, if_pos hn, hostDo_of_HostUp up]

theorem exec_cqConsumer {n : Nat} (hn : n < 256) (v : Nat) : exec (.cqConsumer n v) s = .next (s.cqDoorbell n (v % 2 ^ 32)) := by
  change execCqConsumer n v s = _
  rw [execCqConsumer, if_pos hn, hostDo_of_HostUp up]

theorem exec_eventRingConsumer (v : Nat) : exec (.eventRingConsumer v) s = .next (s.evtDoorbell (v % 2 ^ 32)) := by
  change execEventRingConsumer v s = _
  rw [execEventRingConsumer, hostDo_of_HostUp up]

theorem exec_bar2BadWrite (o k : Nat) :
    exec (.bar2BadWrite o k) s = .next (if k == 4 && o % 4 == 0 then s else s.badWrite) := by
  change execBar2BadWrite o k s = _
  rw [execBar2BadWrite, hostDo_of_HostUp up]

end

/-! ### Descriptor reads -/

theorem exec_descriptorFetch (n : Nat) (s : State) : exec (.descriptorFetch n) s = .next (s.fetch n) := rfl

theorem exec_descriptorReadComplete {s : State} (live : Live s) (n : Nat) (good : Bool) :
    exec (.descriptorReadComplete n good) s = .next (s.readReturned n good) :=
  if_pos (live_of_Live live)

theorem canFetch_iff {s : State} {n : Nat} : s.canFetch n = true ↔
    (s.ring n).st = .running ∧ s.portSends (s.get HST_RING_CFG_PORT n) = true ∧ 0 < s.fetchCount n := by
  simp [State.canFetch, and_assoc]

/-- A ring's turn has come when none of the rings before it can be read (R463). -/
theorem fetchTurn_iff {s : State} {n : Nat} : s.fetchTurn n = true ↔
    ∀ i, i < (n + 256 - s.ringTurn) % 256 → s.canFetch ((s.ringTurn + i) % 256) = false := by
  simp [State.fetchTurn]

/-- A ring that can be read, in its turn, sends a read and reserves two slots for each of its descriptors (R464). -/
theorem fetch_in_turn {s : State} {n : Nat} (live : Live s) (can : s.canFetch n = true) (turn : s.fetchTurn n = true) :
    s.fetch n = ({ s with ringTurn := (n + 1) % 256 }.putRing n
      { s.ring n with
        reads := (s.ring n).reads ++ [((s.ring n).next, s.fetchCount n)]
        next := ((s.ring n).next + s.fetchCount n) % 2 ^ 32
        reserved := (s.ring n).reserved + 2 * s.fetchCount n }).send (.descRead n (s.ring n).next (s.fetchCount n)) :=
  if_pos (by simp [live_of_Live live, can, turn])

theorem fetch_out_of_turn {s : State} {n : Nat} (h : s.fetchTurn n = false) : s.fetch n = s :=
  if_neg (by simp [h])

section
variable {s : State} {n i k : Nat} {rest : List (Nat × Nat)} (oldest : (s.ring n).reads = (i, k) :: rest)
  (unfrozen : (s.ring n).st ≠ .frozen)
include oldest unfrozen

theorem readReturned_good :
    s.readReturned n true = { s with fetched := s.fetched ++ s.descriptorsAt n i k }.putRing n
      { s.ring n with reads := rest, cons := ((s.ring n).cons + k) % 2 ^ 32 } := by
  simp [State.readReturned, oldest, unfrozen]

theorem readReturned_failed :
    s.readReturned n false =
      (s.putRing n { s.ring n with reads := rest, reserved := (s.ring n).reserved - 2 * k }).freezeRing n 3 := by
  simp [State.readReturned, oldest, unfrozen]

end

end Sys2Proof.Machine
end

section
/-! The statements about doorbells and about fetching, clause by clause. -/

namespace Sys2Proof.Safety

open Sys2Proof.Machine

/-- Settles O6: while the ports answer, each doorbell is its function on the state, which splits on whether the ring runs (R461) and on
whether the index is valid (R459, R460, R474). -/
theorem doorbellsMoveIndexFreezeOrCount : Obligations.DoorbellsMoveIndexFreezeOrCount := by
  unfold Obligations.DoorbellsMoveIndexFreezeOrCount
  refine ⟨?producer, ?consumer, ?notRunning, ?events, ?badSize⟩
  case producer =>
    intro s n p up hn hp running good
    rw [exec_sqProducer up hn, Nat.mod_eq_of_lt hp, sqDoorbell_running running]
    exact ⟨fun h => by rw [if_pos (sqValid_iff.2 h)], fun h => by rw [if_neg (mt sqValid_iff.1 h)]; rfl⟩
  case consumer =>
    intro s n q up hn hq running good
    rw [exec_cqConsumer up hn, Nat.mod_eq_of_lt hq, cqDoorbell_running running]
    exact ⟨fun h => by rw [if_pos (cqValid_iff.2 h)], fun h => by rw [if_neg (mt cqValid_iff.1 h)]; rfl⟩
  case notRunning =>
    intro s n v up hn idle
    rw [exec_sqProducer up hn, exec_cqConsumer up hn, sqDoorbell_not_running idle, cqDoorbell_not_running idle]
    exact ⟨rfl, rfl⟩
  case events =>
    intro s q up hq good
    have rung := exec_eventRingConsumer up q
    rw [Nat.mod_eq_of_lt hq] at rung
    exact ⟨fun h empty => ⟨_, rung, evtDoorbell_valid (cqValid_iff.2 h) empty⟩,
      fun h => by rw [rung, evtDoorbell_invalid (mt cqValid_iff.1 h)]⟩
  case badSize =>
    intro s o k up bad
    rw [exec_bar2BadWrite up, if_neg (by simpa using bad)]
    rfl

/-- Settles O8: a ring's turn is the absence of readable rings before it (R463), and the oldest read of a ring either hands over its
descriptors or freezes the ring (R465). -/
theorem fetchReservesTwoSlotsEach : Obligations.FetchReservesTwoSlotsEach := by
  unfold Obligations.FetchReservesTwoSlotsEach
  refine ⟨?inTurn, ?outOfTurn, ?returned, ?failed⟩
  case inTurn =>
    intro s n live running sends r size free k positive turn
    rw [exec_descriptorFetch, fetch_in_turn live (canFetch_iff.2 ⟨running, sends, positive⟩) (fetchTurn_iff.2 turn)]
    rfl
  case outOfTurn =>
    intro s n i before can
    have wait : s.fetchTurn n = false :=
      Bool.eq_false_iff.2 fun turn => by simpa [can] using fetchTurn_iff.1 turn i before
    rw [exec_descriptorFetch, fetch_out_of_turn wait]
  case returned =>
    intro s n i k rest live oldest unfrozen
    rw [exec_descriptorReadComplete live, readReturned_good oldest unfrozen]
    rfl
  case failed =>
    intro s n i k rest live oldest unfrozen
    refine ⟨_, exec_descriptorReadComplete live n false, ?_⟩
    rw [readReturned_failed oldest unfrozen]
    refine ⟨?_, ?_, ?_, get_cause_freezeRing _ n 3, rfl, fun m other => ?_, keepsFieldsBut_freezeRing _ n 3, freezeRing_frame _ n 3⟩
    · simp [ring_freezeRing]
    · simp [ring_freezeRing]
    · simp [ring_freezeRing]
    · simp [ring_freezeRing, other]

end Sys2Proof.Safety
end

section
/-! SUPPORT. The pod's operations behind heartbeats, the takeover by the standby and the time (R505 to R508, R512, R513): what they send,
what they leave of the registers, and which standby is named. -/

namespace Sys2Proof.Machine

open Sys2Proof.Safety

/-! ### Register fields that an update leaves -/

theorem keepsFieldsBut_put (s : State) (f : Fld) (i v : Nat) : KeepsFieldsBut s (s.put f i v) [f.key i] :=
  fun _ _ other => State.get_put_ne s v (by simpa using other)

theorem keepsFieldsBut_trans {s t u : State} {l m : List Nat} (first : KeepsFieldsBut s t l) (second : KeepsFieldsBut t u m) :
    KeepsFieldsBut s u (l ++ m) := by
  intro f i other
  rw [List.mem_append, not_or] at other
  obtain ⟨notFirst, notSecond⟩ := other
  exact (second f i notSecond).trans (first f i notFirst)

theorem keepsFieldsBut_then_put {s t : State} {l : List Nat} (first : KeepsFieldsBut s t l) (f : Fld) (i v : Nat) :
    KeepsFieldsBut s (t.put f i v) (l ++ [f.key i]) :=
  keepsFieldsBut_trans first (keepsFieldsBut_put t f i v)

theorem keepsFieldsBut_of_flds {s t : State} (h : t.flds = s.flds) : KeepsFieldsBut s t [] := fun f i _ => State.get_of_flds h f i

/-! ### Messages of the pod -/

theorem send_of_passed {s : State} {m : Msg} (h : s.withheld m = false) : s.send m = { s with out := s.out ++ [m] } :=
  if_neg (by simp [h])

theorem send_broadcast (s : State) (m : Net) : s.send (.broadcast m) = { s with out := s.out ++ [.broadcast m] } :=
  send_of_passed rfl

/-- A frozen peer still hears VC0 (R523), so such a message always goes out. -/
theorem sendVc0_eq (s : State) (d : Nat) (m : Net) :
    s.sendVc0 d m = { s with
      nextVc0 := s.nextVc0 + 1, unacked := s.unacked ++ [⟨s.nextVc0, d, m⟩], out := s.out ++ [.net d 0 m] } :=
  send_of_passed (by simp [State.withheld])

/-- The device has sent more, and what it had sent and keeps for acknowledgement is still there; nothing else has changed. -/
structure SendsMore (s t : State) : Prop where
  rest : t = { s with nextVc0 := t.nextVc0, unacked := t.unacked, out := t.out }
  unacked : s.unacked ⊆ t.unacked
  out : s.out ⊆ t.out

theorem SendsMore.refl (s : State) : SendsMore s s := ⟨rfl, List.Subset.refl _, List.Subset.refl _⟩

theorem SendsMore.trans {s t u : State} (first : SendsMore s t) (second : SendsMore t u) : SendsMore s u where
  rest := second.rest.trans
    (congrArg (fun x : State => { x with nextVc0 := u.nextVc0, unacked := u.unacked, out := u.out }) first.rest)
  unacked := List.Subset.trans first.unacked second.unacked
  out := List.Subset.trans first.out second.out

theorem SendsMore.flds {s t : State} (h : SendsMore s t) : t.flds = s.flds := by rw [h.rest]

theorem sendsMore_sendVc0 (s : State) (d : Nat) (m : Net) : SendsMore s (s.sendVc0 d m) := by
  rw [sendVc0_eq]
  exact ⟨rfl, List.subset_append_left .., List.subset_append_left ..⟩

theorem sendsMore_broadcast (s : State) (m : Net) : SendsMore s (s.send (.broadcast m)) := by
  rw [send_broadcast]
  exact ⟨rfl, List.Subset.refl _, List.subset_append_left ..⟩

theorem mem_unacked_sendVc0 (s : State) (d : Nat) (m : Net) : ∃ u ∈ (s.sendVc0 d m).unacked, u.dst = d ∧ u.msg = m := by
  rw [sendVc0_eq]
  exact ⟨_, List.mem_concat_self, rfl, rfl⟩

section
variable {α : Type} {f : State → α → State} (sends : ∀ t x, SendsMore t (f t x))
include sends

theorem sendsMore_foldl (l : List α) (s : State) : SendsMore s (l.foldl f s) := by
  induction l generalizing s with
  | nil => exact .refl s
  | cons x l ih => exact (sends s x).trans (ih _)

/-- What one turn of a sending loop leaves for acknowledgement is there when the loop ends. -/
theorem mem_unacked_foldl {P : Unacked → Prop} {x : α} (leaves : ∀ t, ∃ u ∈ (f t x).unacked, P u) {l : List α} (hx : x ∈ l) (s : State) :
    ∃ u ∈ (l.foldl f s).unacked, P u := by
  induction l generalizing s with
  | nil => cases hx
  | cons y l ih =>
    rcases List.mem_cons.1 hx with rfl | later
    · obtain ⟨u, hu, hP⟩ := leaves s
      exact ⟨u, (sendsMore_foldl sends l _).unacked hu, hP⟩
    · exact ih later _

end

/-! ### Repeating a logged outcome (R507) -/

/-- The decision goes again to the voters that have not acknowledged it. -/
def State.repeatDecision (s : State) (l : Logged) : State :=
  (l.voters.filter fun v => !l.acked.contains v).foldl (fun t v => t.sendVc0 v (.decision l.dec false)) s

theorem repeatLogged_eq (s : State) (l : Logged) :
    s.repeatLogged l = l.noticeTo.foldl (fun t d => t.sendVc0 d (.notice l.dec)) (s.repeatDecision l) := rfl

theorem sendsMore_repeatDecision (s : State) (l : Logged) : SendsMore s (s.repeatDecision l) :=
  sendsMore_foldl (fun t v => sendsMore_sendVc0 t v _) _ s

theorem sendsMore_repeatLogged (s : State) (l : Logged) : SendsMore s (s.repeatLogged l) :=
  (sendsMore_repeatDecision s l).trans (sendsMore_foldl (fun t d => sendsMore_sendVc0 t d _) _ _)

theorem repeatLogged_decision {l : Logged} {v : Nat} (voter : v ∈ l.voters) (silent : v ∉ l.acked) (s : State) :
    ∃ u ∈ (s.repeatLogged l).unacked, u.dst = v ∧ u.msg = .decision l.dec false := by
  have asked : v ∈ l.voters.filter fun v => !l.acked.contains v := by simp [voter, silent]
  obtain ⟨u, hu, said⟩ := mem_unacked_foldl (fun t v => sendsMore_sendVc0 t v (.decision l.dec false))
    (fun t => mem_unacked_sendVc0 t v _) asked s
  exact ⟨u, (sendsMore_foldl (fun t d => sendsMore_sendVc0 t d _) _ _).unacked hu, said⟩

theorem repeatLogged_notice {l : Logged} {d : Nat} (open' : d ∈ l.noticeTo) (s : State) :
    ∃ u ∈ (s.repeatLogged l).unacked, u.dst = d ∧ u.msg = .notice l.dec :=
  mem_unacked_foldl (fun t d => sendsMore_sendVc0 t d _) (fun t => mem_unacked_sendVc0 t d _) open' (s.repeatDecision l)

/-! ### Naming a standby (R508) -/

theorem sortNat_eq_insertionSort (l : List Nat) : sortNat l = l.insertionSort (· ≤ ·) := by
  have insert (x : Nat) (t : List Nat) : insertBy (fun a b => decide (a ≤ b)) x t = t.orderedInsert (· ≤ ·) x := by
    induction t with
    | nil => rfl
    | cons y t ih => simp [insertBy, ih]
  induction l with
  | nil => rfl
  | cons x l ih => rw [List.insertionSort_cons, ← ih, ← insert]; rfl

theorem mem_sortNat {l : List Nat} {x : Nat} : x ∈ sortNat l ↔ x ∈ l := by
  rw [sortNat_eq_insertionSort, List.mem_insertionSort]

theorem pairwise_sortNat (l : List Nat) : (sortNat l).Pairwise (· ≤ ·) := by
  rw [sortNat_eq_insertionSort]
  exact List.pairwise_insertionSort (· ≤ ·) l

/-- The first number of a rising list that meets a condition is the least that does. -/
theorem find?_eq_some_of_least {p : Nat → Bool} {l : List Nat} {d : Nat} (rising : l.Pairwise (· ≤ ·)) (hd : d ∈ l) (meets : p d = true)
    (least : ∀ e ∈ l, p e = true → d ≤ e) : l.find? p = some d := by
  induction l with
  | nil => cases hd
  | cons x l ih =>
    obtain ⟨first, rising⟩ := List.pairwise_cons.1 rising
    have le : x ≤ d := (List.mem_cons.1 hd).elim (fun h => h.ge) (first d)
    cases hx : p x with
    | true =>
      rw [List.find?_cons_of_pos hx, Nat.le_antisymm le (least x (List.mem_cons_self ..) hx)]
    | false =>
      have later : d ∈ l := (List.mem_cons.1 hd).resolve_left fun h => by simp [← h, meets] at hx
      rw [List.find?_cons_of_neg (by simp [hx])]
      exact ih rising later fun e he => least e (List.mem_cons_of_mem _ he)

theorem isLive_iff {s : State} {d : Nat} : s.isLive d = true ↔ d ∈ s.pod.members ∧ d ∉ s.pod.leaving := by
  simp [State.isLive]

/-- A device that may be named standby: one that told that it can be, is a live member, and is not the pod master (R508). -/
def State.mayStandBy (s : State) (d : Nat) : Prop :=
  d ∈ s.pod.standbys ∧ d ∈ s.pod.members ∧ d ∉ s.pod.leaving ∧ d ≠ s.podMaster

theorem mayStandBy_iff {s : State} {d : Nat} :
    s.mayStandBy d ↔ d ∈ sortNat s.pod.standbys ∧ (s.isLive d && d != s.podMaster) = true := by
  simp [State.mayStandBy, mem_sortNat, isLive_iff, and_assoc]

theorem nextStandby_none {s : State} (h : ∀ d, ¬ s.mayStandBy d) : s.nextStandby = none :=
  List.find?_eq_none.2 fun d hd meets => h d (mayStandBy_iff.2 ⟨hd, meets⟩)

theorem nextStandby_least {s : State} {d : Nat} (may : s.mayStandBy d) (least : ∀ e, s.mayStandBy e → d ≤ e) :
    s.nextStandby = some d := by
  obtain ⟨hd, meets⟩ := mayStandBy_iff.1 may
  exact find?_eq_some_of_least (pairwise_sortNat _) hd meets fun e he h => least e (mayStandBy_iff.2 ⟨he, h⟩)

theorem nameStandby_frame (s : State) (d : Option Nat) : s.nameStandby d = { s with flds := (s.nameStandby d).flds } := by
  cases d <;> rfl

theorem keepsFieldsBut_nameStandby (s : State) (d : Option Nat) :
    KeepsFieldsBut s (s.nameStandby d) [QUY_POD_SIZE_STANDBY.key 0, QUY_POD_SIZE_NO_STANDBY.key 0] := by
  cases d <;> exact keepsFieldsBut_then_put (keepsFieldsBut_put s _ _ _) _ _ _

theorem get_noStandby_nameStandby (s : State) (d : Option Nat) :
    (s.nameStandby d).get QUY_POD_SIZE_NO_STANDBY 0 = if d = none then 1 else 0 := by
  cases d <;> exact State.get_put_self ..

theorem get_standby_nameStandby (s : State) (d : Nat) : (s.nameStandby (some d)).get QUY_POD_SIZE_STANDBY 0 = d % 4096 :=
  (State.get_put_ne _ _ (by decide)).trans (State.get_put_self ..)

/-! ### The pod size table -/

/-- The keys of the fields of `QUY_POD_SIZE`. -/
def podSizeKeys : List Nat :=
  [QUY_POD_SIZE_DEVICES, QUY_POD_SIZE_LEVELS, QUY_POD_SIZE_GROUPS, QUY_POD_SIZE_NO_STANDBY, QUY_POD_SIZE_MASTER,
    QUY_POD_SIZE_STANDBY].map fun f => f.key 0

theorem keepsFieldsBut_putSize (s : State) (w : Nat) : KeepsFieldsBut s (s.putSize w) podSizeKeys :=
  have putThree (t : State) (a b c : Fld) (x y z : Nat) : KeepsFieldsBut t (((t.put a 0 x).put b 0 y).put c 0 z) [a.key 0, b.key 0, c.key 0] :=
    keepsFieldsBut_then_put (keepsFieldsBut_then_put (keepsFieldsBut_put t a 0 x) b 0 y) c 0 z
  keepsFieldsBut_trans (putThree s _ _ _ _ _ _) (putThree _ _ _ _ _ _ _)

theorem get_putSize (s : State) (w : Nat) :
    (s.putSize w).get QUY_POD_SIZE_DEVICES 0 = w % 8192 ∧ (s.putSize w).podMaster = w / 2 ^ 32 % 4096 ∧
    (s.putSize w).get QUY_POD_SIZE_STANDBY 0 = w / 2 ^ 48 % 4096 ∧ (s.putSize w).get QUY_POD_SIZE_NO_STANDBY 0 = w / 2 ^ 27 % 2 := by
  unfold State.putSize State.podMaster
  simp (disch := decide) only [State.get_put_ne, State.get_put_self, bits]
  simp [QUY_POD_SIZE_DEVICES, QUY_POD_SIZE_MASTER, QUY_POD_SIZE_STANDBY, QUY_POD_SIZE_NO_STANDBY]

end Sys2Proof.Machine
end

section
/-! SUPPORT. The takeover by the standby (R507), and what an offset and a want of time do (R513). -/

namespace Sys2Proof.Machine

open Sys2Proof.Safety

/-! ### The takeover (R507) -/

section
variable (s : State) (m : Nat)

/-- A change of pod master touches two fields: the master's number and the generation. -/
theorem keepsFieldsBut_newMaster : KeepsFieldsBut s (s.put QUY_POD_SIZE_MASTER 0 m).raiseGen
    [QUY_POD_SIZE_MASTER.key 0, QUY_POD_GEN_GENERATION.key 0] :=
  keepsFieldsBut_then_put (keepsFieldsBut_put s _ _ _) _ _ _

theorem podMaster_newMaster : (s.put QUY_POD_SIZE_MASTER 0 m).raiseGen.podMaster = m % 4096 :=
  (State.get_put_ne _ _ (by decide)).trans (State.get_put_self ..)

theorem get_generation_newMaster :
    (s.put QUY_POD_SIZE_MASTER 0 m).raiseGen.get QUY_POD_GEN_GENERATION 0 = (s.get QUY_POD_GEN_GENERATION 0 + 1) % 2 ^ 32 := by
  unfold State.raiseGen
  rw [State.get_put_self, State.get_put_ne _ _ (by decide)]
  rfl

end

/-- The standby in the pod-master role, with the mirrored log as its own, before it names a standby. -/
def State.inRole (s : State) : State :=
  let t := (s.put QUY_POD_SIZE_MASTER 0 s.me).raiseGen
  { t with pod := { t.pod with leaving := t.pod.leaving ++ [s.podMaster], reroute := true }, decisions := t.pod.mirror }

/-- The standby named, and the messages to the old pod master turned to the new one. -/
def State.roleTaken (s : State) : State := (s.inRole.nameStandby s.inRole.nextStandby).redirect s.podMaster s.me

theorem me_inRole (s : State) : s.inRole.me = s.me := keepsFieldsBut_newMaster s s.me QUY_POD_CFG_DEVICE_ID 0 (by decide)

theorem roleTaken_frame (s : State) : s.roleTaken = { s with
    flds := s.roleTaken.flds
    pod := { s.pod with leaving := s.pod.leaving ++ [s.podMaster], reroute := true }
    decisions := s.pod.mirror
    unacked := s.unacked.map fun m => if m.dst == s.podMaster then { m with dst := s.me } else m } := by
  unfold State.roleTaken
  rw [nameStandby_frame]
  rfl

/-- After it has taken the role the standby announces it, and repeats every logged outcome. -/
theorem takeOver_eq (s : State) : s.takeOver =
    s.pod.mirror.foldl (fun t l => t.repeatLogged l) (s.roleTaken.send (.broadcast (.takeover s.me))) := by
  have logged : (s.roleTaken.send (.broadcast (.takeover s.me))).decisions = s.pod.mirror := by
    rw [send_broadcast, roleTaken_frame]
  conv_rhs => rw [← logged]
  unfold State.roleTaken
  rw [← me_inRole s]
  rfl

theorem sendsMore_takeOver (s : State) : SendsMore s.roleTaken s.takeOver := by
  rw [takeOver_eq]
  exact (sendsMore_broadcast _ _).trans (sendsMore_foldl sendsMore_repeatLogged _ _)

theorem takeover_mem_out_takeOver (s : State) : Msg.broadcast (.takeover s.me) ∈ s.takeOver.out := by
  rw [takeOver_eq]
  refine (sendsMore_foldl sendsMore_repeatLogged _ _).out ?_
  rw [send_broadcast]
  exact List.mem_concat_self

/-- What repeating one mirrored outcome leaves for acknowledgement is there after the takeover. -/
theorem mem_unacked_takeOver {P : Unacked → Prop} {s : State} {l : Logged} (mirrored : l ∈ s.pod.mirror)
    (leaves : ∀ t : State, ∃ u ∈ (t.repeatLogged l).unacked, P u) : ∃ u ∈ s.takeOver.unacked, P u := by
  rw [takeOver_eq]
  exact mem_unacked_foldl sendsMore_repeatLogged leaves mirrored _

/-- Messages that wait for the old pod master wait for the new one (R507). -/
theorem redirected_mem_takeOver {s : State} {m : Unacked} (hm : m ∈ s.unacked) :
    { m with dst := if m.dst = s.podMaster then s.me else m.dst } ∈ s.takeOver.unacked := by
  refine (sendsMore_takeOver s).unacked ?_
  rw [roleTaken_frame]
  refine List.mem_map.2 ⟨m, hm, ?_⟩
  by_cases old : m.dst = s.podMaster <;> simp [old]

theorem get_takeOver {s : State} {f : Fld} (other : f.key 0 ∉ [QUY_POD_SIZE_STANDBY.key 0, QUY_POD_SIZE_NO_STANDBY.key 0]) :
    s.takeOver.get f 0 = (s.put QUY_POD_SIZE_MASTER 0 s.me).raiseGen.get f 0 :=
  (State.get_of_flds (sendsMore_takeOver s).flds f 0).trans (keepsFieldsBut_nameStandby s.inRole _ f 0 other)

theorem get_noStandby_takeOver (s : State) :
    s.takeOver.get QUY_POD_SIZE_NO_STANDBY 0 = if s.inRole.nextStandby = none then 1 else 0 :=
  (State.get_of_flds (sendsMore_takeOver s).flds _ 0).trans (get_noStandby_nameStandby s.inRole _)

theorem get_standby_takeOver {s : State} {d : Nat} (h : s.inRole.nextStandby = some d) :
    s.takeOver.get QUY_POD_SIZE_STANDBY 0 = d % 4096 := by
  rw [← get_standby_nameStandby s.inRole d, ← h]
  exact State.get_of_flds (sendsMore_takeOver s).flds _ 0

/-- The new pod master names neither the old one, which leaves, nor itself (R508). -/
theorem mayStandBy_inRole {s : State} (fits : s.me < 4096) (d : Nat) : s.inRole.mayStandBy d ↔
    d ∈ s.pod.standbys ∧ d ∈ s.pod.members ∧ d ∉ s.pod.leaving ∧ d ≠ s.podMaster ∧ d ≠ s.me := by
  have master : s.inRole.podMaster = s.me := (podMaster_newMaster s s.me).trans (Nat.mod_eq_of_lt fits)
  have leaving : s.inRole.pod.leaving = s.pod.leaving ++ [s.podMaster] := rfl
  unfold State.mayStandBy
  rw [master, leaving, List.mem_append, List.mem_singleton, not_or, and_assoc]
  rfl

/-! ### Leaving the pod (R504, R513) -/

/-- The LEAVE sent, the tide stopped, and the device no longer in the pod. -/
def State.departed (s : State) : State :=
  ((s.sendVc0 s.podMaster (.leave s.me)).put HMR_TIDE_STATUS_RUNNING 0 0).put QUY_POD_CTL_IN_POD 0 0

/-- The device out of the pod, with nothing kept of it. -/
def State.leftPod (s : State) : State := { s.departed.putSize 0 with pod := {}, routes := [] }

theorem leaveDone_of_no_jobs {s : State} (leave : s.pod.leave = true) (idle : s.jobs = []) : s.leaveDone = s.leftPod :=
  if_pos (by simp [leave, idle])

theorem leaveDone_of_jobs {s : State} (busy : s.jobs ≠ []) : s.leaveDone = s :=
  if_neg (by simp [busy])

theorem leftPod_frame (s : State) : s.leftPod = { s with
    flds := s.leftPod.flds, pod := {}, routes := [], nextVc0 := s.leftPod.nextVc0, unacked := s.leftPod.unacked, out := s.leftPod.out } := by
  unfold State.leftPod State.departed
  rw [sendVc0_eq]
  rfl

theorem out_subset_leftPod (s : State) : s.out ⊆ s.leftPod.out := (sendsMore_sendVc0 s s.podMaster (.leave s.me)).out

/-- Clearing the pod size table touches no other field. -/
theorem get_leftPod (s : State) {f : Fld} {i : Nat} (other : f.key i ∉ podSizeKeys) : s.leftPod.get f i = s.departed.get f i :=
  have cleared : s.leftPod.flds = (s.departed.putSize 0).flds := rfl
  (State.get_of_flds cleared f i).trans (keepsFieldsBut_putSize s.departed 0 f i other)

theorem keepsFieldsBut_departed (s : State) :
    KeepsFieldsBut s s.departed [HMR_TIDE_STATUS_RUNNING.key 0, QUY_POD_CTL_IN_POD.key 0] :=
  keepsFieldsBut_then_put (keepsFieldsBut_then_put (keepsFieldsBut_of_flds (sendsMore_sendVc0 s _ _).flds) _ _ _) _ _ _

theorem keepsFieldsBut_leftPod (s : State) :
    KeepsFieldsBut s s.leftPod ([HMR_TIDE_STATUS_RUNNING.key 0, QUY_POD_CTL_IN_POD.key 0] ++ podSizeKeys) := by
  intro f i other
  rw [List.mem_append, not_or] at other
  obtain ⟨notTide, notSize⟩ := other
  exact (get_leftPod s notSize).trans (keepsFieldsBut_departed s f i notTide)

theorem get_running_leftPod (s : State) : s.leftPod.get HMR_TIDE_STATUS_RUNNING 0 = 0 :=
  (get_leftPod s (by decide)).trans ((State.get_put_ne _ _ (by decide)).trans (State.get_put_self ..))

theorem get_inPod_leftPod (s : State) : s.leftPod.get QUY_POD_CTL_IN_POD 0 = 0 :=
  (get_leftPod s (by decide)).trans (State.get_put_self ..)

/-! ### Want of time (R513) -/

/-- The device unlocked from the pod's time, which withdraws its heartbeats and leaves. -/
def State.withdraw (s : State) : State :=
  { (s.put HMR_TIDE_STATUS_LOCKED 0 0).put HMR_TIDE_STATUS_SLIP 0 1 with pod := { s.pod with leave := true, withdrawn := true } }

theorem loseTime_of_jobs {s : State} (busy : s.jobs ≠ []) : s.loseTime = s.withdraw :=
  leaveDone_of_jobs (s := s.withdraw) busy

theorem loseTime_of_no_jobs {s : State} (idle : s.jobs = []) : s.loseTime = s.withdraw.leftPod :=
  leaveDone_of_no_jobs (s := s.withdraw) rfl idle

theorem keepsFieldsBut_withdraw (s : State) :
    KeepsFieldsBut s s.withdraw [HMR_TIDE_STATUS_LOCKED.key 0, HMR_TIDE_STATUS_SLIP.key 0] :=
  keepsFieldsBut_then_put (keepsFieldsBut_put s _ _ _) _ _ _

theorem get_locked_withdraw (s : State) : s.withdraw.get HMR_TIDE_STATUS_LOCKED 0 = 0 :=
  (State.get_put_ne _ _ (by decide)).trans (State.get_put_self ..)

theorem get_slip_withdraw (s : State) : s.withdraw.get HMR_TIDE_STATUS_SLIP 0 = 1 := State.get_put_self ..

/-- The keys of the fields that a want of time may change. -/
def lostTimeKeys : List Nat :=
  [HMR_TIDE_STATUS_LOCKED.key 0, HMR_TIDE_STATUS_SLIP.key 0] ++ ([HMR_TIDE_STATUS_RUNNING.key 0, QUY_POD_CTL_IN_POD.key 0] ++ podSizeKeys)

/-- The device has acted on a time: its jobs, its memory and what it had sent are as they were, and of the registers only those of the
list have changed. -/
structure ActsOnTime (l : List Nat) (s t : State) : Prop where
  jobs : t.jobs = s.jobs
  mem : t.mem = s.mem
  out : s.out ⊆ t.out
  fields : KeepsFieldsBut s t l

theorem loseTime_actsOnTime (s : State) : ActsOnTime lostTimeKeys s s.loseTime := by
  by_cases idle : s.jobs = []
  · rw [loseTime_of_no_jobs idle]
    have frame := leftPod_frame s.withdraw
    exact ⟨by rw [frame]; rfl, by rw [frame]; rfl, out_subset_leftPod s.withdraw,
      keepsFieldsBut_trans (keepsFieldsBut_withdraw s) (keepsFieldsBut_leftPod _)⟩
  · rw [loseTime_of_jobs idle]
    refine ⟨rfl, rfl, List.Subset.refl _, fun f i other => keepsFieldsBut_withdraw s f i fun h => other ?_⟩
    exact List.mem_append_left _ h

/-- Whether its jobs still run or not, a device without the pod's time is unlocked and shows the slip. -/
theorem get_loseTime (s : State) :
    s.loseTime.get HMR_TIDE_STATUS_LOCKED 0 = 0 ∧ s.loseTime.get HMR_TIDE_STATUS_SLIP 0 = 1 := by
  by_cases idle : s.jobs = []
  · rw [loseTime_of_no_jobs idle]
    exact ⟨(keepsFieldsBut_leftPod _ _ 0 (by decide)).trans (get_locked_withdraw s),
      (keepsFieldsBut_leftPod _ _ 0 (by decide)).trans (get_slip_withdraw s)⟩
  · rw [loseTime_of_jobs idle]
    exact ⟨get_locked_withdraw s, get_slip_withdraw s⟩

theorem loseTime_stays {s : State} (busy : s.jobs ≠ []) :
    s.loseTime.pod = { s.pod with leave := true, withdrawn := true } ∧
    s.loseTime.get HMR_TIDE_STATUS_RUNNING 0 = s.get HMR_TIDE_STATUS_RUNNING 0 := by
  rw [loseTime_of_jobs busy]
  exact ⟨rfl, keepsFieldsBut_withdraw s _ 0 (by decide)⟩

theorem loseTime_goes {s : State} (idle : s.jobs = []) :
    s.loseTime.pod = {} ∧ s.loseTime.get QUY_POD_CTL_IN_POD 0 = 0 ∧ s.loseTime.get HMR_TIDE_STATUS_RUNNING 0 = 0 := by
  rw [loseTime_of_no_jobs idle]
  exact ⟨rfl, get_inPod_leftPod _, get_running_leftPod _⟩

/-! ### Offsets (Table 12.6) -/

theorem get_offset_putOffset {o : Int} (low : -32768 ≤ o) (high : o ≤ 32767) (s : State) :
    (s.putOffset o).get HMR_TIDE_STATUS_OFFSET_NS 0 = (o % 65536).toNat := by
  have fits : (o % 65536).toNat < 65536 := by omega
  unfold State.putOffset
  rw [State.get_put_self, min_eq_right high, max_eq_right low]
  exact Nat.mod_eq_of_lt fits

section
variable {o : Int} (s : State)

theorem actOnOffset_locks (near : o.natAbs ≤ 25) : s.actOnOffset o =
    { (s.putOffset o).put HMR_TIDE_STATUS_LOCKED 0 1 with pod := { s.pod with correction := -(o.tdiv 2) } } :=
  if_pos near

theorem actOnOffset_slips (far : 25 < o.natAbs) (near : o.natAbs ≤ 500) : s.actOnOffset o =
    { ((s.putOffset o).put HMR_TIDE_STATUS_LOCKED 0 0).put HMR_TIDE_STATUS_SLIP 0 1 with
      pod := { s.pod with correction := -8 * o.sign } } :=
  (if_neg (by omega)).trans (if_pos near)

theorem actOnOffset_loses (far : 500 < o.natAbs) : s.actOnOffset o = (s.putOffset o).loseTime :=
  (if_neg (by omega)).trans (if_neg (by omega))

/-- A small offset locks, and half of it is taken back (R513). -/
theorem actOnOffset_near (near : o.natAbs ≤ 25) :
    (s.actOnOffset o).get HMR_TIDE_STATUS_LOCKED 0 = 1 ∧ (s.actOnOffset o).get HMR_TIDE_STATUS_SLIP 0 = s.get HMR_TIDE_STATUS_SLIP 0 ∧
    (s.actOnOffset o).pod = { s.pod with correction := -(o.tdiv 2) } := by
  rw [actOnOffset_locks s near]
  exact ⟨State.get_put_self .., (State.get_put_ne _ _ (by decide)).trans (State.get_put_ne _ _ (by decide)), rfl⟩

/-- A greater offset slips, and 8 ns of it are taken back. -/
theorem actOnOffset_far (far : 25 < o.natAbs) (near : o.natAbs ≤ 500) :
    (s.actOnOffset o).get HMR_TIDE_STATUS_LOCKED 0 = 0 ∧ (s.actOnOffset o).get HMR_TIDE_STATUS_SLIP 0 = 1 ∧
    (s.actOnOffset o).pod = { s.pod with correction := -8 * o.sign } := by
  rw [actOnOffset_slips s far near]
  exact ⟨(State.get_put_ne _ _ (by decide)).trans (State.get_put_self ..), State.get_put_self .., rfl⟩

/-- One that is greater still makes the device leave, at once when it runs no jobs. -/
theorem actOnOffset_lost (far : 500 < o.natAbs) :
    (s.actOnOffset o).get HMR_TIDE_STATUS_LOCKED 0 = 0 ∧ (s.actOnOffset o).get HMR_TIDE_STATUS_SLIP 0 = 1 ∧
    (s.jobs ≠ [] → (s.actOnOffset o).pod = { s.pod with leave := true, withdrawn := true }) ∧
    (s.jobs = [] → (s.actOnOffset o).pod = {} ∧ (s.actOnOffset o).get QUY_POD_CTL_IN_POD 0 = 0 ∧
      (s.actOnOffset o).get HMR_TIDE_STATUS_RUNNING 0 = 0) := by
  rw [actOnOffset_loses s far]
  obtain ⟨unlocked, slipped⟩ := get_loseTime (s.putOffset o)
  exact ⟨unlocked, slipped, fun busy => (loseTime_stays (s := s.putOffset o) busy).1, fun idle => loseTime_goes (s := s.putOffset o) idle⟩

/-- In each of the three cases of Table 12.6 the offset stays as it was stored. -/
theorem actOnOffset_actsOnTime (o : Int) : ActsOnTime lostTimeKeys (s.putOffset o) (s.actOnOffset o) := by
  have listed {f : Fld} {i : Nat} (other : f.key i ∉ lostTimeKeys) :
      f.key i ≠ HMR_TIDE_STATUS_LOCKED.key 0 ∧ f.key i ≠ HMR_TIDE_STATUS_SLIP.key 0 :=
    ⟨fun h => other (h ▸ by decide), fun h => other (h ▸ by decide)⟩
  by_cases locks : o.natAbs ≤ 25
  · rw [actOnOffset_locks s locks]
    exact ⟨rfl, rfl, List.Subset.refl _, fun f i other => State.get_put_ne _ _ (listed other).1⟩
  by_cases slips : o.natAbs ≤ 500
  · rw [actOnOffset_slips s (by omega) slips]
    exact ⟨rfl, rfl, List.Subset.refl _, fun f i other =>
      (State.get_put_ne _ _ (listed other).2).trans (State.get_put_ne _ _ (listed other).1)⟩
  · rw [actOnOffset_loses s (by omega)]
    exact loseTime_actsOnTime _

end

end Sys2Proof.Machine
end

section
/-! The statement about heartbeats, the standby and time, clause by clause. -/

namespace Sys2Proof.Safety

open Sys2Proof.Machine

/-! ### Heartbeats and silences (R505, R507) -/

/-- A report of silence noted, once for each reporter and silent device. -/
def notedIn (p : Pod) (r d : Nat) : Pod := if (r, d) ∈ p.silence then p else { p with silence := p.silence ++ [(r, d)] }

theorem noteSilence_eq (s : State) (d r : Nat) : s.noteSilence d r = { s with pod := notedIn s.pod r d } := by
  unfold State.noteSilence notedIn
  by_cases known : (r, d) ∈ s.pod.silence <;> simp [known]

theorem silenceTo_eq (s : State) (d : Nat) :
    s.silenceTo d = if d = s.podMaster then s.get QUY_POD_SIZE_STANDBY 0 else s.podMaster := by
  simp [State.silenceTo]

theorem isStandby_iff {s : State} :
    s.isStandby = true ↔ (s.hasStandby = true ∧ s.get QUY_POD_SIZE_STANDBY 0 = s.me) ∧ s.isMaster = false := by
  simp [State.isStandby]

section
variable {s : State} (live : Live s) (inPod : s.inPod = true)
include live inPod

theorem exec_heartbeat {n g : Nat} (d : Nat) (near : n ≤ s.tide + 1) (fits : g < 2 ^ 32) : exec (.heartbeat d n g) s = .next
    { s.putPeer d { s.peer d with lastHeard := max (s.peer d).lastHeard n, silent := false } with
      pod := { s.pod with silence := s.pod.silence.filter fun p => p.2 != d } } :=
  if_pos (by simp only [live_of_Live live, inPod, near, fits, decide_true, Bool.and_self])

section
variable {d : Nat} (runs : s.pod.held = false) (member : s.isLive d = true)
include runs member

theorem exec_heartbeatSilence_found (expected : s.expects d = true) (first : (s.peer d).silent = false)
    (late : (s.peer d).lastHeard + 2 ≤ s.tide) :
    let t := s.putPeer d { s.peer d with silent := true }
    exec (.heartbeatSilence d s.me) s =
      .next (if s.silenceTo d = s.me then t.noteSilence d s.me else t.sendVc0 (s.silenceTo d) (.silence d s.me)) := by
  change execHeartbeatSilence d s.me s = _
  rw [execHeartbeatSilence, if_neg (by simp [live_of_Live live, inPod, runs, member]), if_pos (by simp),
    if_pos (by simp [expected, first, late])]
  simp only [beq_iff_eq]
  rfl

theorem exec_heartbeatSilence_reported {r : Nat} (other : r ≠ s.me) (here : s.silenceTo d = s.me) :
    exec (.heartbeatSilence d r) s = .next (s.noteSilence d r) := by
  change execHeartbeatSilence d r s = _
  rw [execHeartbeatSilence, if_neg (by simp [live_of_Live live, inPod, runs, member]), if_neg (by simp [other]), if_pos (by simp [here])]

end

/-! ### The standby (R507, R508) -/

theorem exec_masterMirror (standby : s.isStandby = true) (log : List Logged) (ms sb : List Nat) (ls : List Link) (z : Nat) :
    exec (.masterMirror log ms sb ls z) s = .next
      { s.putSize z with pod := { s.pod with mirror := log, members := ms, standbys := sb, links := ls } } :=
  if_pos (by simp [live_of_Live live, inPod, standby])

theorem exec_standbyTakeover_standby (standby : s.isStandby = true) (silent : s.allSilent s.podMaster = true) (next : Option Nat) :
    exec (.standbyTakeover next) s = .next s.takeOver := by
  obtain ⟨⟨named, -⟩, other⟩ := isStandby_iff.1 standby
  change execStandbyTakeover next s = _
  rw [execStandbyTakeover, if_neg (by simp [live_of_Live live, inPod, named, other]), if_pos standby, if_pos silent]

/-- A device that hears the announcement takes the standby for its pod master, and the named device for the standby. -/
theorem exec_standbyTakeover_heard (named : s.hasStandby = true) (notStandby : s.isStandby = false) (notMaster : s.isMaster = false)
    (next : Option Nat) :
    let t := (s.put QUY_POD_SIZE_MASTER 0 (s.get QUY_POD_SIZE_STANDBY 0)).raiseGen.nameStandby next
    exec (.standbyTakeover next) s = .next
      ({ t with pod := { t.pod with leaving := t.pod.leaving ++ [s.podMaster] } }.redirect s.podMaster (s.get QUY_POD_SIZE_STANDBY 0)) := by
  change execStandbyTakeover next s = _
  rw [execStandbyTakeover, if_neg (by simp [live_of_Live live, inPod, named, notMaster]), if_neg (by simp [notStandby])]

/-! ### Time (R512, R513) -/

/-- A marker taken ends the count of tides without one, and goes on to the children in the tree. -/
theorem exec_timeMarker {q : Nat} (notMaster : s.isMaster = false) (up : (s.quay q).st = .up)
    (running : s.get HMR_TIDE_STATUS_RUNNING 0 ≠ 0) (n delay arr res : Nat) :
    exec (.timeMarker q n delay arr res) s = .next
      (({ s with pod := { s.pod with noMarker := 0 } }.sendAll ((childrenIn s.pod.tree s.me).map fun c =>
        Msg.net c 0 (.marker n (delay + s.get QUY_STATUS_DELAY_NS q + res)))).actOnOffset (s.markerOffset q n delay arr)) :=
  if_pos (by simp [live_of_Live live, inPod, notMaster, State.quayUp, up, State.flag, running])

theorem exec_markerLossLeave (notMaster : s.isMaster = false) (missed : 16 ≤ s.pod.noMarker) (stays : s.pod.withdrawn = false) :
    exec .markerLossLeave s = .next s.loseTime :=
  if_pos (by simp [live_of_Live live, inPod, notMaster, missed, stays])

end

theorem exec_delayProbe {s : State} {q : Nat} (live : Live s) (exists' : q < 16) (up : (s.quay q).st = .up) (r : Nat) :
    exec (.delayProbe q r) s = .next (s.put QUY_STATUS_DELAY_NS q (min (r / 2) 0xFFFF)) :=
  if_pos (by simp [live_of_Live live, quayExists, exists', State.quayUp, up])

/-- Settles O53: each command is its operation on the state; what the takeover sends only adds to what waits (`SendsMore`), the standby it
names is the first of a rising list (R508), and a want of time is one operation, whether an offset or missing markers show it (R513). -/
theorem heartbeatsTakeoverAndTime : Obligations.HeartbeatsTakeoverAndTime := by
  unfold Obligations.HeartbeatsTakeoverAndTime
  refine ⟨?heard, ?silence, ?mirror, ?takeover, ?announced, ?marker, ?noMarker, ?probe⟩
  case heard => exact fun s d n g live inPod near fits => exec_heartbeat live inPod d near fits
  case silence =>
    intro s d live inPod runs member dst noted
    have goesTo : s.silenceTo d = dst := silenceTo_eq s d
    refine ⟨fun expected first late => ?_, fun r other here => ?_⟩
    · have found := exec_heartbeatSilence_found live inPod runs member expected first late
      rw [goesTo] at found
      refine ⟨fun elsewhere => ?_, fun here => ?_⟩
      · rw [found, if_neg elsewhere]
      · rw [found, if_pos here, noteSilence_eq]
        rfl
    · rw [exec_heartbeatSilence_reported live inPod runs member other (goesTo.trans here), noteSilence_eq]
      rfl
  case mirror =>
    intro s log ms sb ls z live inPod standby
    obtain ⟨devices, master, named, without⟩ := get_putSize s z
    exact ⟨_, exec_masterMirror live inPod standby log ms sb ls z, rfl, devices, master, named, without, rfl⟩
  case takeover =>
    intro s next live inPod standby fits silent
    have rest := (sendsMore_takeOver s).rest
    rw [roleTaken_frame] at rest
    refine ⟨_, exec_standbyTakeover_standby live inPod standby silent next, ?_, ?_, ?_, ?_, fun m hm => redirected_mem_takeOver hm,
      fun l mirrored => ⟨fun v voter unacked => ?_, fun d waits => ?_⟩, takeover_mem_out_takeOver s, ?_, ?_, fun none => ?_,
      fun d able least => ?_⟩
    · exact (get_takeOver (by decide)).trans ((podMaster_newMaster s s.me).trans (Nat.mod_eq_of_lt fits))
    · exact (get_takeOver (by decide)).trans (get_generation_newMaster s s.me)
    · rw [rest]
    · rw [rest]
    · exact mem_unacked_takeOver mirrored (repeatLogged_decision voter unacked)
    · exact mem_unacked_takeOver mirrored (repeatLogged_notice waits)
    · rw [rest]
    · rw [rest]
    · rw [get_noStandby_takeOver, nextStandby_none fun d => mt (mayStandBy_inRole fits d).1 (none d)]
      rfl
    · have named := nextStandby_least ((mayStandBy_inRole fits d).2 able) fun e may => least e ((mayStandBy_inRole fits e).1 may)
      rw [get_noStandby_takeOver, named]
      exact ⟨rfl, get_standby_takeOver named⟩
  case announced =>
    intro s d live inPod hasOne notStandby notMaster fits
    let m := s.get QUY_POD_SIZE_STANDBY 0
    have kept := keepsFieldsBut_nameStandby (s.put QUY_POD_SIZE_MASTER 0 m).raiseGen (some d)
    exact ⟨_, exec_standbyTakeover_heard live inPod hasOne notStandby notMaster (some d),
      (kept _ 0 (by decide)).trans (podMaster_newMaster s m),
      (get_standby_nameStandby _ d).trans (Nat.mod_eq_of_lt fits), get_noStandby_nameStandby _ _,
      (kept _ 0 (by decide)).trans (get_generation_newMaster s m), rfl, rfl, rfl⟩
  case marker =>
    intro s q n delay arr res live inPod notMaster up running hop o
    refine ⟨_, exec_timeMarker live inPod notMaster up running n delay arr res, ?_⟩
    let passed := (childrenIn s.pod.tree s.me).map fun c => Msg.net c 0 (.marker n (hop + res))
    let u : State := { s with pod := { s.pod with noMarker := 0 }, out := s.out ++ passed }
    have acts := actOnOffset_actsOnTime u o
    refine ⟨acts.jobs, acts.mem, fun c child => acts.out ?_, fun low high => ?_, fun near => actOnOffset_near u near,
      fun far near => actOnOffset_far u far near, fun far => actOnOffset_lost u far⟩
    · exact List.mem_append_right _ (List.mem_map_of_mem child)
    · exact (acts.fields _ 0 (by decide)).trans (get_offset_putOffset low high u)
  case noMarker =>
    intro s live inPod notMaster missed stays
    have acts := loseTime_actsOnTime s
    obtain ⟨unlocked, slipped⟩ := get_loseTime s
    exact ⟨_, exec_markerLossLeave live inPod notMaster missed stays, unlocked, slipped, acts.jobs, acts.mem,
      fun busy => loseTime_stays busy, fun idle => loseTime_goes idle⟩
  case probe => exact fun s q r live exists' up => exec_delayProbe live exists' up r

end Sys2Proof.Safety
end


section
/-! Steps: the queue, what was sent, the canonical memories, and that every command answers. -/

namespace Sys2Proof.Safety

open Sys2Proof.Machine Sys2Proof.Laws

/-! ### A step is its command on the rest of the queue -/

theorem step_cons {s : State} {c : Instr} {rest : List Instr} (h : s.pending = c :: rest) :
    step s = exec c { s with pending := rest } := by
  unfold step; rw [h]

theorem step_idle {s : State} (h : s.pending = []) : step s = .next s := by
  unfold step; rw [h]

/-- What every command keeps, every step keeps, as far as it does not look at the queue that the step takes from. -/
theorem step_keeps {P : State → Prop} (hP : Closed P) {s t : State} (moved : step s = .next t) (idle : s.pending = [] → P s)
    (taken : ∀ c rest, s.pending = c :: rest → P { s with pending := rest }) : P t := by
  cases h : s.pending with
  | nil => rw [step_idle h] at moved; cases moved; exact idle h
  | cons c rest => rw [step_cons h] at moved; exact cl_exec hP c _ (taken c rest h) t moved

/-- Settles O1: both clauses read the two branches of `step`. -/
theorem stepRunsFrontCommand : Obligations.StepRunsFrontCommand :=
  ⟨fun _ _ _ => step_cons, fun _ => step_idle⟩

/-- Settles O2: the reset state lists nothing, so each part reads its default. -/
theorem resetIsQuiescent : Obligations.ResetIsQuiescent := by
  unfold Obligations.ResetIsQuiescent
  refine ⟨fun n => ⟨rfl, rfl, rfl, rfl, rfl⟩, rfl, rfl, rfl, rfl, rfl, fun a => rfl, rfl, rfl, ?_⟩
  exact ⟨rfl, rfl⟩

/-- Settles O4: the memory operations keep the canonical form (`inv_closed`), so every command does (`cl_exec`). -/
theorem stepKeepsMemoriesCanonical : Obligations.StepKeepsMemoriesCanonical :=
  fun _ _ inv moved => step_keeps inv_closed moved (fun _ => inv) fun _ _ _ => inv

/-! ### The queue and what was sent -/

/-- The queue is the one given, and what was sent begins with the messages given. -/
def Extends (queue : List Instr) (sent : List Msg) (s : State) : Prop := s.pending = queue ∧ sent <+: s.out

theorem extends_of_same {queue : List Instr} {sent : List Msg} {s t : State} (hout : t.out = s.out) (hpending : t.pending = s.pending)
    (h : Extends queue sent s) : Extends queue sent t := by
  unfold Extends; rw [hout, hpending]; exact h

theorem pokeByte_out (s : State) (v : View) (a : Nat) (b : Byte) :
    (s.pokeByte v a b).out = s.out ∧ (s.pokeByte v a b).pending = s.pending := by
  unfold State.pokeByte; split <;> exact ⟨rfl, rfl⟩

theorem dropHot_out (s : State) (a n : Nat) : (s.dropHot a n).out = s.out ∧ (s.dropHot a n).pending = s.pending := by
  unfold State.dropHot; split <;> exact ⟨rfl, rfl⟩

theorem extends_closed (queue : List Instr) (sent : List Msg) : Closed (Extends queue sent) where
  same := fun _ _ _ _ _ _ hout hpending => extends_of_same hout hpending
  put := fun _ _ _ _ h => h
  sent := fun s t l _ _ _ _ hout hpending h => by
    unfold Extends; rw [hout, hpending]; exact ⟨h.1, h.2.trans (List.prefix_append ..)⟩
  hostByte := fun _ _ _ h => h
  poke := fun s v a b => extends_of_same (pokeByte_out s v a b).1 (pokeByte_out s v a b).2
  zero := fun s a n => extends_of_same (dropHot_out s a n).1 (dropHot_out s a n).2
  copy := fun s a b n h => by
    have dropped := extends_of_same (dropHot_out s b n).1 (dropHot_out s b n).2 h
    unfold State.copyMem; dsimp only; split
    · rw [State.poke, pokeBytes_eq]; exact dropped
    · exact dropped
  scramble := fun _ _ _ h => h
  moveSets := fun s a b n h => by unfold State.moveSets; dsimp only; split <;> exact h
  clear := fun _ _ _ _ _ _ _ hout hpending => extends_of_same hout hpending

/-- Settles O5: that the queue is the rest and that what is sent begins with what was is a closed predicate. -/
theorem stepConsumesOneAndOnlyAppends : Obligations.StepConsumesOneAndOnlyAppends := by
  intro s t moved
  obtain ⟨queue, l, sent⟩ := step_keeps (extends_closed s.pending.tail s.out) moved
    (fun empty => ⟨by rw [empty]; rfl, List.prefix_rfl⟩) fun c rest front => ⟨by rw [front]; rfl, List.prefix_rfl⟩
  exact ⟨queue, l, sent.symm⟩

/-! ### Every command answers -/

/-- An outcome is a next state. -/
def Answers (o : Host.Outcome State Fault Refusal) : Prop := ∃ t, o = .next t

theorem Answers.next (s : State) : Answers (.next s) := ⟨s, rfl⟩

theorem Answers.ite {c : Prop} [Decidable c] {a b : Host.Outcome State Fault Refusal} (ha : Answers a) (hb : Answers b) :
    Answers (if c then a else b) := by
  split <;> assumption

/-- Every branch of every meaning ends in a next state. -/
theorem exec_answers (c : Instr) (s : State) : Answers (exec c s) := by
  cases c
  all_goals
    dsimp only [exec]
    delta execLadingPart execIndexCut execSlicePressureMark execRecordReadReturn execRawRequest execRawCopy execSectionTally execPooledSlice
      execPartDone execModelAdd execModelRemove execModelRemoved execModelLoadDone execAdmissionStop execAdmissionDrained execAdmissionStart
      execStreamStart execReservationTake execRemoteReservationGrant execReceiverDetach execEmit execGather execLoop execStride execAlign
      execWaitslotSlot execWaitslotBarrier execWaitslotReread execSignal execManifestEnd execTagGrant execReadDataLands execTileAccept
      execReadyBitSet execStreamEnd execCatchupStreamStart execStreamFault execMutualWaitProbe execLayer execBankExchange execTaskSwitch
      execRowWatermarkAdvance execLoadpin execSwap execArrive execWaitbar execWaitbarReread execClearbar execKilnEnd execResumeStream
      execResumeKilnTask execHmul execHvec execUnitDispatch execKilnFault execKilnProgressTimeout execTaskRestart execNoswitchViolation
      execTaskEvict execEvictedTaskReturn execConsignmentPrepare execPageWrite execParityDelta execRootSet execRescaleSwap execPin execUnpin
      execPrepareDone execPrepareTimeout execVote execVoteTimeout execDecisionToPodMaster execAck execQuery execDecision execNotice
      execInDoubtTimeout execRetireAt execEpochRetire execModelVersionRetire execTableEnable execTableDisable execTableDisableDone
      execGroupMasterEpochRequest execWarehouseRead execWarehouseWrite execBitSetWrite execBitClearWrite execWayStop execWayStopped
      execModelBlockMove execWayRestart execDestructStart execDestructiveTestDone execPreservingPass execMarchPassAbort execRepairBurn
      execHistoryRead execHistoryAppend execHistoryCreate execHistoryTrim execHistoryRelease execHistoryFree execFrameReturn execChunkStep
      execChunkStepComplete execHistoryAppendFail execHistoryStop execHistoryStopped execHistoryStart execRun execConsign execNop execJobDeadline
      execFreezeResetStream execFreezeResetKilnTask execFreezeResetPeer execQuayFail execLaneFail execBlockReceive execReplayRequest
      execFrameIdleClose execLinkRekey execQuayStop execQuayTrain execQuayReconnect execRemoteReadTimeout execVc0Resend execEndToEndAck
      execRemoteStreamRead execRemoteStreamWrite execPeerViolation execRouteTables execPodJoin execJoinRetry execJoinRequest execPodLeave
      execLeave execHeartbeat execHeartbeatSilence execDeviceLost execLostNotice execMasterMirror execStandbyTakeover execTimeMarker
      execMarkerLossLeave execDelayProbe execCollectiveChannelEnable execCollectiveChannelDisable execCollectiveRoundOpen execCollectiveMessage
      execCollectiveRoundComplete execSnapshotRequest execSnapshotRecordsWritten execDescriptorFetch execDescriptorReadComplete
      execInterruptCoalesceTimeout execMsixUnmask execSqProducer execCqConsumer execEventRingConsumer execBar2BadWrite execRingEnable
      execRingDisable execRingStopped execFreezeResetRing execEventRingEnable execEventRingDisable execEventRecordWrite execWindowInvalidate
      execWindowInvalidateAll execApertureMove execApertureRead execApertureWrite execBar0BadAccess execBusMasterEnableChange execIdeLeavesSecure
      execPortReset execErrorDetect execDeviceFaultStop execSchedulerWatchdog execSalvorEscalate execSalvorRestart execModelBlockReload
      execSalvorHandle execHbmStackFail execSlotsLost execSlotLossNotice execRebuildGo execRebuildStart execRebuildPageRequest execRebuildPage
      execRebuildDone execSlotReplace execRebuildEnd execPatrolScrub execChsetStop execChsetRestart execCusZeroise execDebugClose execDebugHalt
      execDebugStepCommand execDebugStepTile execDebugResume execTrngHealthFail execCustomsWatchdog execGetVersion execGetCapabilities
      execNegotiateAlgorithms execGetDigests execGetCertificate execChallenge execGetMeasurements execKeyExchange execFinish execHeartbeatSpdm
      execKeyUpdate execEndSession execChunkSend execChunkGet execIdeKm execDebugNonce execDebugUnlock execDeviceReset execResetIn execResetPod
      execLighthousePowerLoss execInputRelease execModEnRise execModEnRelease execRepairBurnDone execUnderVoltageTrip execOverVoltageTrip
      execHotTrip execHotTripRelease execShutdownTrip execShutdownTripRelease execTamperTrip execStateReqRun execStateReqBanked
      execStateReqSmoulder execLowPowerEntry execStepReq execWake execQuaysWarm execLifecycleTransition execMctpMessage execManagementTick
      execPilotWatchdog execSeverity3ResetPolicy execPltCapWrite execPltReset execProfileSave execProfileErase execFirmwareTransferEnd
      execFirmwareActivate execTideHold execHoldReady execTideStopBroadcast execTideHoldRelease execSetupLock execRegisterWrite execRegisterRead
      execTideBoundary execStartUp
    repeat' (first | with_reducible exact Answers.next _ | with_reducible apply Answers.ite | split | dsimp only)

/-- Settles O3: a step is a command (`step_cons`) or idles. -/
theorem everyStepAnswersNext : Obligations.EveryStepAnswersNext := by
  refine ⟨exec_answers, fun s => ?_⟩
  cases h : s.pending with
  | nil => exact ⟨s, step_idle h⟩
  | cons c rest => rw [step_cons h]; exact exec_answers c _

end Sys2Proof.Safety
end


section
/-! SUPPORT. Register fields and numbered units under updates: a field's key names the field and the unit, so an update of another field or
another unit leaves it; and updates of units leave every register field. -/

namespace Sys2Proof.Machine

open Sys2Proof.Safety

/-! ### Keys -/

/-- Fields with different numbers have different keys, whatever their units. -/
theorem Fld.key_ne {f g : Fld} (h : f.ord % 512 ≠ g.ord % 512) (i j : Nat) : f.key i ≠ g.key j := by
  unfold Fld.key; omega

@[simp] theorem Fld.key_inj {f : Fld} {i j : Nat} : f.key i = f.key j ↔ i = j := by
  unfold Fld.key; omega

theorem State.get_put_other {f g : Fld} (h : g.ord % 512 ≠ f.ord % 512) (s : State) (i j v : Nat) :
    (s.put f i v).get g j = s.get g j :=
  State.get_put_ne s v (Fld.key_ne h j i)

theorem State.get_inc_other {f g : Fld} (h : g.ord % 512 ≠ f.ord % 512) (s : State) (i j n : Nat) :
    (s.inc f i n).get g j = s.get g j :=
  State.get_inc_ne s n (Fld.key_ne h j i)

theorem State.get_put_unit {f : Fld} {i j : Nat} (h : j ≠ i) (s : State) (v : Nat) : (s.put f i v).get f j = s.get f j :=
  State.get_put_ne s v (by simpa using h)

theorem State.flag_eq_true {s : State} {f : Fld} {i : Nat} : s.flag f i = true ↔ s.get f i ≠ 0 := bne_iff_ne

theorem State.flag_eq_false {s : State} {f : Fld} {i : Nat} : s.flag f i = false ↔ s.get f i = 0 := by
  simp [State.flag]

/-! ### Units do not hold register fields, and register fields hold no unit -/

@[simp] theorem State.get_putRing (s : State) (n : Nat) (x : Ring) (f : Fld) (i : Nat) : (s.putRing n x).get f i = s.get f i := rfl
@[simp] theorem State.get_putStream (s : State) (n : Nat) (x : Stream) (f : Fld) (i : Nat) : (s.putStream n x).get f i = s.get f i := rfl
@[simp] theorem State.get_putCtx (s : State) (k c : Nat) (x : KCtx) (f : Fld) (i : Nat) : (s.putCtx k c x).get f i = s.get f i := rfl
@[simp] theorem State.get_putKiln (s : State) (n : Nat) (x : Kiln) (f : Fld) (i : Nat) : (s.putKiln n x).get f i = s.get f i := rfl
@[simp] theorem State.get_putTable (s : State) (n : Nat) (x : Table) (f : Fld) (i : Nat) : (s.putTable n x).get f i = s.get f i := rfl
@[simp] theorem State.get_putModel (s : State) (n : Nat) (x : Model) (f : Fld) (i : Nat) : (s.putModel n x).get f i = s.get f i := rfl
@[simp] theorem State.get_putCrane (s : State) (n : Nat) (x : Crane) (f : Fld) (i : Nat) : (s.putCrane n x).get f i = s.get f i := rfl
@[simp] theorem State.get_putQuay (s : State) (n : Nat) (x : Quay) (f : Fld) (i : Nat) : (s.putQuay n x).get f i = s.get f i := rfl
@[simp] theorem State.get_putPeer (s : State) (n : Nat) (x : Peer) (f : Fld) (i : Nat) : (s.putPeer n x).get f i = s.get f i := rfl
@[simp] theorem State.get_putJob (s : State) (x : Job) (f : Fld) (i : Nat) : (s.putJob x).get f i = s.get f i := rfl

@[simp] theorem State.ring_put (s : State) (f : Fld) (i v n : Nat) : (s.put f i v).ring n = s.ring n := rfl
@[simp] theorem State.stream_put (s : State) (f : Fld) (i v n : Nat) : (s.put f i v).stream n = s.stream n := rfl
@[simp] theorem State.ctx_put (s : State) (f : Fld) (i v k c : Nat) : (s.put f i v).ctx k c = s.ctx k c := rfl
@[simp] theorem State.kiln_put (s : State) (f : Fld) (i v n : Nat) : (s.put f i v).kiln n = s.kiln n := rfl
@[simp] theorem State.ring_inc (s : State) (f : Fld) (i v n : Nat) : (s.inc f i v).ring n = s.ring n := rfl
@[simp] theorem State.stream_inc (s : State) (f : Fld) (i v n : Nat) : (s.inc f i v).stream n = s.stream n := rfl

/-! ### What is left of the register fields -/

theorem keepsFieldsBut_mono {s t : State} {l m : List Nat} (h : KeepsFieldsBut s t l) (sub : l ⊆ m) : KeepsFieldsBut s t m :=
  fun f i other => h f i fun inside => other (sub inside)

theorem keepsFieldsBut_inc (s : State) (f : Fld) (i n : Nat) : KeepsFieldsBut s (s.inc f i n) [f.key i] :=
  keepsFieldsBut_put s f i _

/-- An update of a field whose key is listed keeps the others. -/
theorem keepsFieldsBut_put_listed {s t : State} {l : List Nat} (h : KeepsFieldsBut s t l) {f : Fld} {i : Nat} (listed : f.key i ∈ l)
    (v : Nat) : KeepsFieldsBut s (t.put f i v) l := by
  intro g j other
  have ne : g.key j ≠ f.key i := fun same => other (same ▸ listed)
  rw [State.get_put_ne t v ne, h g j other]

theorem keepsFieldsBut_inc_listed {s t : State} {l : List Nat} (h : KeepsFieldsBut s t l) {f : Fld} {i : Nat} (listed : f.key i ∈ l)
    (n : Nat) : KeepsFieldsBut s (t.inc f i n) l :=
  keepsFieldsBut_put_listed h listed _

theorem keepsFieldsBut_congr {s t u : State} {l : List Nat} (h : KeepsFieldsBut s t l) (same : u.flds = t.flds) : KeepsFieldsBut s u l :=
  fun f i other => (State.get_of_flds same f i).trans (h f i other)

theorem keepsFieldsBut_same {s t : State} (h : t.flds = s.flds) (l : List Nat) : KeepsFieldsBut s t l :=
  fun f i _ => State.get_of_flds h f i

/-! ### Bits of a number -/

theorem bit_eq_testBit (v i : Nat) : bit v i = v.testBit i := by
  rw [Nat.testBit_eq_decide_div_mod_eq]; rfl

/-- Taking away a bit that is set clears that bit and leaves the others. -/
theorem testBit_sub_two_pow {v i : Nat} (set : v.testBit i = true) (j : Nat) :
    (v - 2 ^ i).testBit j = if j = i then false else v.testBit j := by
  have parts : v = 2 ^ (i + 1) * (v / 2 ^ (i + 1)) + (2 ^ i + v % 2 ^ i) := by
    have odd : v / 2 ^ i % 2 = 1 := by simpa [Nat.testBit_eq_decide_div_mod_eq] using set
    have low := Nat.div_add_mod v (2 ^ i)
    have half := Nat.div_add_mod (v / 2 ^ i) 2
    rw [Nat.div_div_eq_div_mul, ← pow_succ, odd] at half
    rw [← half, Nat.mul_add, ← Nat.mul_assoc, ← pow_succ] at low
    omega
  have below : v % 2 ^ i < 2 ^ i := Nat.mod_lt _ (Nat.two_pow_pos i)
  have twice : 2 ^ (i + 1) = 2 ^ i + 2 ^ i := by rw [Nat.pow_succ]; omega
  have less : v - 2 ^ i = 2 ^ (i + 1) * (v / 2 ^ (i + 1)) + v % 2 ^ i := by omega
  rw [less, Nat.testBit_two_pow_mul_add _ (by omega)]
  conv_rhs => rw [parts, Nat.testBit_two_pow_mul_add _ (show 2 ^ i + v % 2 ^ i < 2 ^ (i + 1) by omega)]
  rcases Nat.lt_trichotomy j i with h | rfl | h
  · rw [if_pos (by omega), if_neg (by omega), if_pos (by omega), Nat.testBit_two_pow_add_gt h]
  · rw [if_pos (by omega), if_pos rfl, Nat.testBit_lt_two_pow below]
  · rw [if_neg (by omega), if_neg (by omega), if_neg (by omega)]

/-- A bit that is put is read back, and the other bits keep their values. -/
theorem bit_putBit (v i : Nat) (b : Bool) (j : Nat) : bit (putBit v i b) j = if j = i then b else bit v j := by
  simp only [bit_eq_testBit, putBit]
  cases b with
  | true => by_cases h : j = i <;> simp [Nat.testBit_or, h, Ne.symm]
  | false =>
    cases set : v.testBit i with
    | true => simp [testBit_sub_two_pow set]
    | false => by_cases h : j = i <;> simp [h, set]

end Sys2Proof.Machine
end


section
/-! The statements about the states of rings, the event ring, interrupts and ports (R443 to R446, R474 to R483). -/

namespace Sys2Proof.Machine

open Sys2Proof.Safety

/-! ### Commands on rings while the ports answer -/

section
variable {s : State} {n : Nat} (up : HostUp s) (hn : n < 256)
include up hn

theorem exec_ringEnable : exec (.ringEnable n) s = .next (s.ringStart n) := by
  change execRingEnable n s = _
  rw [execRingEnable, if_pos hn, hostDo_of_HostUp up]

theorem exec_ringDisable : exec (.ringDisable n) s = .next (s.ringStop n) := by
  change execRingDisable n s = _
  rw [execRingDisable, if_pos hn, hostDo_of_HostUp up]

theorem exec_freezeResetRing : exec (.freezeResetRing n) s = .next (s.ringFreezeReset n) := by
  change execFreezeResetRing n s = _
  rw [execFreezeResetRing, if_pos hn, hostDo_of_HostUp up]

end

section
variable {s : State} {n : Nat}

theorem ringStart_stopped (stopped : (s.ring n).st = .stopped) :
    s.ringStart n = if s.get CUS_STATUS_IDE_REQUIRED 0 ≠ 0 ∧ s.get HST_PORT_STATUS_IDE_SECURE (s.get HST_RING_CFG_PORT n) = 0
      then (s.put HST_RING_CTL_ENABLE n 1).put HST_RING_STATUS_IDE_BLOCKED n 1
      else (s.put HST_RING_CTL_ENABLE n 1).putRing n
        { st := .running, enabled := true, overKiln := (s.ring n).overKiln, overHearth := (s.ring n).overHearth } := by
  unfold State.ringStart
  simp (disch := decide) [stopped, State.flag, State.get_put_other]

theorem ringStop_running (running : (s.ring n).st = .running) :
    s.ringStop n = (s.put HST_RING_CTL_ENABLE n 0).putRing n { s.ring n with st := .stopping, enabled := false } := by
  simp [State.ringStop, running]

theorem ringFreezeReset_frozen (frozen : (s.ring n).st = .frozen) :
    s.ringFreezeReset n = if s.ringQuiet n then s.ringReset n else s.put HST_RING_STATUS_RESET_PENDING n 1 := by
  simp [State.ringFreezeReset, frozen]

theorem exec_ringStopped_stopping (quiet : s.ringQuiet n = true) (stopping : (s.ring n).st = .stopping) :
    exec (.ringStopped n) s = .next (s.ringStopped n) := by
  change execRingStopped n s = _
  simp [execRingStopped, quiet, stopping]

end

end Sys2Proof.Machine

namespace Sys2Proof.Safety

open Sys2Proof.Machine

/-- Settles O7: each command is its function on the ring, which splits on the ring's state and on what is outstanding. -/
theorem ringsStartStopAndReset : Obligations.RingsStartStopAndReset := by
  unfold Obligations.RingsStartStopAndReset
  refine ⟨?start, ?held, ?stop, ?stopped, ?waits, ?reset⟩
  case start =>
    intro s n up hn stopped free
    refine ⟨_, exec_ringEnable up hn, ?_⟩
    rw [ringStart_stopped stopped, if_neg free]
    have enabled : ∀ x, ((s.put HST_RING_CTL_ENABLE n 1).putRing n x).get HST_RING_CTL_ENABLE n = 1 := fun x => State.get_put_self ..
    refine ⟨?_, ?_, ?_, ?_, ?_, ?_, ?_, fun m other => ?_, enabled _, keepsFieldsBut_put s _ _ _, rfl⟩
    all_goals simp [*]
  case held =>
    intro s n up hn stopped required insecure
    rw [exec_ringEnable up hn, ringStart_stopped stopped, if_pos ⟨required, insecure⟩]
  case stop =>
    intro s n up hn running
    rw [exec_ringDisable up hn, ringStop_running running]
  case stopped =>
    intro s n quiet stopping
    refine ⟨_, exec_ringStopped_stopping quiet stopping, ?_⟩
    unfold State.ringStopped
    refine ⟨?_, ?_, ?_, ?_, ?_, ?_, fun m other => ?_, rfl⟩
    all_goals simp [*]
  case waits =>
    intro s n up hn frozen busy
    rw [exec_freezeResetRing up hn, ringFreezeReset_frozen frozen, if_neg (by simp [busy])]
  case reset =>
    intro s n up hn frozen quiet
    refine ⟨_, exec_freezeResetRing up hn, ?_⟩
    rw [ringFreezeReset_frozen frozen, if_pos quiet]
    unfold State.ringReset
    refine ⟨?_, fun m other => ?_, ?_, ?_, ?_, ?_, ?_, rfl⟩
    all_goals try simp (disch := decide) [State.get_put_other, *]
    exact keepsFieldsBut_put_listed (keepsFieldsBut_put_listed (keepsFieldsBut_put_listed (keepsFieldsBut_put_listed
      (keepsFieldsBut_same rfl _) (by simp) _) (by simp) _) (by simp) _) (by simp) _

end Sys2Proof.Safety
end


section
/-! SUPPORT. The event ring, interrupts and ports: what starting the event ring, a record, an unmasked vector and a port that leaves the
Secure state do (R444 to R446, R474, R475, R478 to R480). -/

namespace Sys2Proof.Machine

open Sys2Proof.Safety

/-! ### The event ring -/

section
variable {s : State}

theorem exec_eventRingEnable (up : HostUp s) : exec .eventRingEnable s = .next s.evtStart := by
  change execEventRingEnable s = _
  rw [execEventRingEnable, hostDo_of_HostUp up]

theorem exec_eventRingDisable (up : HostUp s) : exec .eventRingDisable s = .next s.evtStop := by
  change execEventRingDisable s = _
  rw [execEventRingDisable, hostDo_of_HostUp up]

theorem evtStart_idle (off : s.get HST_EVT_CTL_ENABLE 0 = 0) (empty : s.evt.queue = []) :
    s.evtStart = { (s.put HST_EVT_CTL_ENABLE 0 1).put HST_EVT_CTL_STOPPED 0 0 with evt := { s.evt with prod := 0, cons := 0 } } := by
  unfold State.evtStart
  rw [if_neg (by simp [State.flag, off])]
  exact flushEvents_of_empty (by exact empty)

theorem exec_eventRecordWrite (bs : List Byte) : exec (.eventRecordWrite bs) s = .next (s.postEvent (eventBytes bs)) := rfl

theorem postEvent_full (full : s.evtRoom = false) (bs : List Byte) :
    s.postEvent bs = if s.evt.queue.length < 256 then { s with evt := { s.evt with queue := s.evt.queue ++ [bs] } }
      else (s.inc HST_EVT_STATUS_LOST 0 1).put HST_EVT_STATUS_OVERFLOW 0 1 := by
  simp [State.postEvent, full]

theorem postEvent_room (room : s.evtRoom = true) (empty : s.evt.queue = []) (bs : List Byte) : s.postEvent bs = s.putEvent bs := by
  simp [State.postEvent, room, empty]

end

theorem hostWrite_frame (s : State) (b : Nat) (l : List Byte) : s.hostWrite b l = { s with host := (s.hostWrite b l).host } := by
  induction l generalizing s b with
  | nil => rfl
  | cons x l ih => rw [State.hostWrite, ih]

/-! ### Interrupts -/

theorem irq_unmasked {s : State} {p v : Nat} (open' : s.masked p v = false) : s.irq p v = s.send (.irq p v) := by
  simp [State.irq, open']

theorem ringIrq_unmasked {s : State} {n : Nat} (enabled : s.get HST_RING_CFG_IRQ_EN n ≠ 0)
    (sends : s.portSends (s.get HST_RING_CFG_PORT n) = true)
    (open' : s.masked (s.get HST_RING_CFG_PORT n) (s.get HST_RING_CFG_VECTOR n) = false) :
    s.ringIrq n = s.send (.irq (s.get HST_RING_CFG_PORT n) (s.get HST_RING_CFG_VECTOR n)) := by
  simp [State.ringIrq, State.flag, enabled, sends, irq_unmasked open']

theorem exec_interruptCoalesceTimeout {s : State} {n : Nat} (due : 0 < (s.ring n).unsignalled) (coalesces : s.get HST_RING_CFG_COALESCE_US n ≠ 0) :
    exec (.interruptCoalesceTimeout n) s = .next ((s.putRing n { s.ring n with unsignalled := 0 }).ringIrq n) := by
  change execInterruptCoalesceTimeout n s = _
  simp [execInterruptCoalesceTimeout, due, State.flag, coalesces]

theorem exec_msixUnmask {s : State} {p v : Nat} (up : HostUp s) (hp : p < 2) (hv : v < 512) :
    exec (.msixUnmask p v) s = .next (s.msixWrite p (4 * v + 3) (putBit (s.msixDword (2048 * p + 4 * v + 3)) 0 false)) := by
  change execMsixUnmask p v s = _
  simp [execMsixUnmask, hp, hv, hostDo_of_HostUp up]

/-- Clearing the mask of a vector that is pending sends its interrupt (R480). -/
theorem msixWrite_unmask {s : State} {p v : Nat} (sends : s.portSends p = true)
    (pending : Tab.get (fun _ => false) s.msixPend (p * 512 + v) = true) (w : Nat) :
    s.msixWrite p (4 * v + 3) (putBit w 0 false) =
      { s with
        msix := Tab.insert (2048 * p + (4 * v + 3)) (putBit w 0 false) s.msix
        msixPend := Tab.erase (p * 512 + v) s.msixPend
        out := s.out ++ [.irq p v] } := by
  have vector : (4 * v + 3) / 4 = v := by omega
  have mask : (4 * v + 3) % 4 = 3 := by omega
  unfold State.msixWrite
  simp only [vector, mask, bit_putBit, pending]
  rw [if_pos (by simp; exact sends), irq_unmasked]
  · rfl
  · simp only [State.masked, State.msixDword, Nat.add_assoc, Tab.get_insert_self, bit_putBit, if_pos]

/-! ### A port that leaves the Secure state (R444) -/

/-- Freeze each ring of a list with one cause. -/
def State.freezeRings (s : State) (l : List Nat) (cause : Nat) : State := l.foldl (fun t n => t.freezeRing n cause) s

theorem freezeRings_cons (s : State) (n : Nat) (l : List Nat) (cause : Nat) :
    s.freezeRings (n :: l) cause = (s.freezeRing n cause).freezeRings l cause := rfl

theorem ring_freezeRings (l : List Nat) (cause m : Nat) (s : State) :
    (s.freezeRings l cause).ring m = if m ∈ l then { s.ring m with st := .frozen } else s.ring m := by
  induction l generalizing s with
  | nil => rfl
  | cons n l ih =>
    rw [freezeRings_cons, ih, ring_freezeRing]
    by_cases here : m = n
    · simp [here]
    · simp [here]

theorem keepsFieldsBut_freezeRings (l : List Nat) (cause : Nat) (s : State) :
    KeepsFieldsBut s (s.freezeRings l cause) (HMR_SCHED_EVENTS_FREEZES.key 0 :: l.map HST_RING_STATUS_FREEZE_CAUSE.key) := by
  induction l generalizing s with
  | nil => exact keepsFieldsBut_same rfl _
  | cons n l ih =>
    rw [freezeRings_cons]
    exact keepsFieldsBut_mono (keepsFieldsBut_trans (keepsFieldsBut_freezeRing s n cause) (ih _)) (by simp)

theorem get_cause_freezeRings {l : List Nat} {m : Nat} (hm : m ∈ l) (cause : Nat) (s : State) :
    (s.freezeRings l cause).get HST_RING_STATUS_FREEZE_CAUSE m = cause % 16 := by
  induction l generalizing s with
  | nil => cases hm
  | cons n l ih =>
    rw [freezeRings_cons]
    by_cases later : m ∈ l
    · exact ih later _
    · have here : m = n := (List.mem_cons.1 hm).resolve_right later
      subst here
      rw [keepsFieldsBut_freezeRings l cause _ _ m, get_cause_freezeRing]
      simp [later, causeKey_ne_freezesKey]

theorem freezeRings_frame (l : List Nat) (cause : Nat) (s : State) :
    s.freezeRings l cause = { s with flds := (s.freezeRings l cause).flds, rings := (s.freezeRings l cause).rings } := by
  induction l generalizing s with
  | nil => rfl
  | cons n l ih => rw [freezeRings_cons, ih]; rfl

theorem mem_ringsOn {s : State} {p n : Nat} : n ∈ s.ringsOn p ↔ n < 256 ∧ s.get HST_RING_CFG_PORT n = p ∧ (s.ring n).st = .running := by
  simp [State.ringsOn, State.ringRuns]

/-- The state once the port is no longer Secure, before its rings freeze. -/
def State.insecure (s : State) (p : Nat) : State :=
  { s.put HST_PORT_STATUS_IDE_SECURE p 0 with ideHeld := p :: s.ideHeld.erase p }

theorem exec_ideLeavesSecure {s : State} {p : Nat} (hp : p < 2) (secure : s.get HST_PORT_STATUS_IDE_SECURE p ≠ 0) :
    exec (.ideLeavesSecure p) s = .next ((s.insecure p).freezeRings (s.ringsOn p) 5) := by
  have same : (s.insecure p).ringsOn p = s.ringsOn p := by
    unfold State.ringsOn
    congr 1; funext n; congr 1
    exact congrArg (· == p) (State.get_put_other (by decide) s p n 0)
  change execIdeLeavesSecure p s = _
  rw [execIdeLeavesSecure, if_pos (by simp [hp, State.flag, secure]), ← same]
  rfl

end Sys2Proof.Machine
end

section
/-! The statement about the event ring, interrupts and ports, clause by clause. -/

namespace Sys2Proof.Safety

open Sys2Proof.Machine

/-- Settles O9: each command is its function on the event ring, a ring or a port. -/
theorem eventRingInterruptsAndPorts : Obligations.EventRingInterruptsAndPorts := by
  unfold Obligations.EventRingInterruptsAndPorts
  refine ⟨?start, ?stop, ?full, ?room, ?coalesce, ?unmask, ?master, ?leaves⟩
  case start =>
    intro s up off empty
    refine ⟨_, exec_eventRingEnable up, ?_⟩
    rw [evtStart_idle off empty]
    refine ⟨rfl, ?_, ?_, ?_, rfl⟩
    · exact (State.get_put_other (by decide) _ _ _ _).trans (State.get_put_self ..)
    · exact State.get_put_self ..
    · exact keepsFieldsBut_then_put (keepsFieldsBut_put s _ _ _) _ _ _
  case stop => exact fun s up => exec_eventRingDisable up
  case full =>
    intro s bs noRoom
    rw [exec_eventRecordWrite, postEvent_full noRoom]
    exact ⟨fun h => by rw [if_pos h], fun h => by rw [if_neg (by omega)]⟩
  case room =>
    intro s bs room empty lg
    rw [exec_eventRecordWrite, postEvent_room room empty, State.putEvent]
    dsimp only
    rw [hostWrite_frame]
    rfl
  case coalesce =>
    intro s n due coalesces enabled sends unmasked
    rw [exec_interruptCoalesceTimeout due coalesces]
    exact congrArg _ (ringIrq_unmasked (s := s.putRing n _) enabled sends unmasked)
  case unmask =>
    intro s p v up hp hv sends pending
    refine ⟨_, exec_msixUnmask up hp hv, ?_⟩
    rw [msixWrite_unmask sends pending]
    refine ⟨rfl, ?_, ?_, rfl⟩
    · simp [State.masked, State.msixDword, Nat.add_assoc, bit_putBit]
    · exact (Tab.find_erase ..).trans (if_pos rfl)
  case master =>
    intro s p hp
    change execBusMasterEnableChange p false s = _
    rw [execBusMasterEnableChange, if_pos hp]
    rfl
  case leaves =>
    intro s p hp secure
    have kept := keepsFieldsBut_freezeRings (s.ringsOn p) 5 (s.insecure p)
    have rings (m : Nat) := ring_freezeRings (s.ringsOn p) 5 m (s.insecure p)
    have frame := freezeRings_frame (s.ringsOn p) 5 (s.insecure p)
    refine ⟨_, exec_ideLeavesSecure hp secure, ?_, ?_, fun n hn port running => ⟨?_, ?_⟩, fun n other => ?_, ?_, ?_⟩
    · rw [kept]
      · exact State.get_put_self ..
      · simp [Fld.key_ne (f := HST_PORT_STATUS_IDE_SECURE) (g := HST_RING_STATUS_FREEZE_CAUSE) (by decide) p,
          Fld.key_ne (f := HST_PORT_STATUS_IDE_SECURE) (g := HMR_SCHED_EVENTS_FREEZES) (by decide) p, eq_comm]
    · rw [State.portSends, frame]
      simp [State.insecure]
    · rw [rings, if_pos (mem_ringsOn.2 ⟨hn, port, running⟩)]
    · exact get_cause_freezeRings (mem_ringsOn.2 ⟨hn, port, running⟩) 5 _
    · rw [rings, if_neg]
      · rfl
      · rw [mem_ringsOn]
        rintro ⟨hn, port, running⟩
        rcases other with h | h | h
        · exact absurd hn (by omega)
        · exact h port
        · exact h running
    · have first : KeepsFieldsBut s (s.insecure p) [HST_PORT_STATUS_IDE_SECURE.key p] := keepsFieldsBut_put s _ _ _
      exact keepsFieldsBut_mono (keepsFieldsBut_trans first kept) (List.cons_subset_cons _ (List.cons_subset_cons _
        (List.map_subset _ List.filter_sublist.subset)))
    · rw [frame]; rfl

end Sys2Proof.Safety
end


section
/-! SUPPORT. Accesses of one piece to any device memory, and the host's accesses through windows, BAR0 and the aperture (R447, R449 to R455). -/

namespace Sys2Proof.Machine

open Sys2Proof.Safety

/-! ### One piece of device memory -/

theorem dropHot_frame (s : State) (a n : Nat) : s.dropHot a n = { s with hot := (s.dropHot a n).hot } := by
  unfold State.dropHot; split <;> rfl

/-- A write of one place whose words hold no mark changes its bytes by the view, and nothing but bytes, marks and hot-row copies. -/
theorem writeLoc_bytes {s : State} {p : Nat} {bs : List Byte} (v : View) (hv : s.veiled = [])
    (unmarked : ∀ w ∈ wordsOf p bs.length, Tab.find w s.ecc = none) :
    (∀ x, memAt (s.writeLoc (.dev p v) bs) x =
      if p ≤ x ∧ x < p + bs.length then v.apply (memAt s x) (bs.getD (x - p) 0) else memAt s x) ∧
    s.writeLoc (.dev p v) bs = { s with
      ecc := (s.writeLoc (.dev p v) bs).ecc, mem := (s.writeLoc (.dev p v) bs).mem, hot := (s.writeLoc (.dev p v) bs).hot } := by
  have untouched : (s.dropHot p bs.length).correctWords ((Loc.dev p v).readWords bs.length) = s.dropHot p bs.length := by
    refine correctWords_unmarked fun w hw => ?_
    rw [dropHot_frame]
    exact unmarked w (readWords_subset p v _ hw)
  rw [State.writeLoc, untouched, dropHot_frame]
  refine ⟨memAt_pokeBytes (s := State.renew { s with hot := _ } _) hv v p bs, ?_⟩
  rw [pokeBytes_eq]; rfl

/-- A write of one piece whose words hold no mark is that of its place. -/
theorem write_unmarked {s : State} {r : Req} {a p : Nat} {v : View} {bs : List Byte} (one : oneAccess a bs.length = true)
    (ha : a < hostBase) (h : s.locate r true a = .ok (.dev p v)) (hv : s.veiled = [])
    (unmarked : ∀ w ∈ wordsOf p bs.length, Tab.find w s.ecc = none) :
    ∃ t, s.write r a bs = .ok t ∧
      (∀ x, memAt t x = if p ≤ x ∧ x < p + bs.length then v.apply (memAt s x) (bs.getD (x - p) 0) else memAt s x) ∧
      t = { s with ecc := t.ecc, mem := t.mem, hot := t.hot } :=
  ⟨_, write_good one ha h fun w hw => badWord_of_unmarked (unmarked w (readWords_subset p v _ hw)), writeLoc_bytes v hv unmarked⟩

/-- A read of one piece whose words hold no mark answers its bytes and changes nothing. -/
theorem read_unmarked {s : State} {r : Req} {a n p : Nat} {v : View} (one : oneAccess a n = true) (ha : a < hostBase)
    (h : s.locate r false a = .ok (.dev p v)) (hv : s.veiled = []) (unmarked : ∀ w ∈ wordsOf p n, Tab.find w s.ecc = none) :
    s.read r a n = .ok ((List.range n).map fun i => memAt s (p + i), s) := by
  rw [read_good one ha h fun w hw => badWord_of_unmarked (unmarked w hw), correctWords_unmarked unmarked, bytes_unveiled hv]

/-- A channel set that is neither lost nor stopped and admits the access holds it where its address says (R434, R435). -/
theorem locate_hbm {s : State} {r : Req} {wr : Bool} {a n : Nat} (ha : a < 0x10000000000) (set : s.setOf a = some n)
    (running : s.setStopped n = false) (kept : s.setLost n = false) (admits : wr = false ∨ r.cls = none) :
    s.locate r wr a = .ok (.dev a .normal) := by
  unfold State.locate
  rw [if_pos ha, set]
  have may : (wr && !r.mayWrite (s.get HBM_CHSET_CLASSES n)) = false := by
    rcases admits with h | h <;> simp [h, Req.mayWrite]
  simp [running, kept, may]

/-! ### Accesses from the host -/

section
variable {s : State} (up : HostUp s)
include up

theorem exec_windowInvalidate (e : Nat) : exec (.windowInvalidate e) s = .next (s.winInval e false) := by
  change execWindowInvalidate e s = _
  rw [execWindowInvalidate, hostDo_of_HostUp up]

theorem exec_windowInvalidateAll : exec .windowInvalidateAll s = .next (s.winInval 0 true) := by
  change execWindowInvalidateAll s = _
  rw [execWindowInvalidateAll, hostDo_of_HostUp up]

theorem exec_apertureMove {p : Nat} (hp : p < 2) (b : Nat) : exec (.apertureMove p b) s = .next (s.put HST_APERTURE_BASE p b) := by
  change execApertureMove p b s = _
  rw [execApertureMove, if_pos hp, hostDo_of_HostUp up]

theorem exec_apertureRead {p off n : Nat} (hp : p < 2) (fits : off + n ≤ 2 ^ 32) :
    exec (.apertureRead p off n) s = .next (s.apertureGet p off n) := by
  change execApertureRead p off n s = _
  rw [execApertureRead, if_pos (by simpa [hp] using fits), hostDo_of_HostUp up]

theorem exec_apertureWrite {p off : Nat} {bs : List Byte} (hp : p < 2) (fits : off + bs.length ≤ 2 ^ 32) :
    exec (.apertureWrite p off bs) s = .next (s.aperturePut p off bs) := by
  change execApertureWrite p off bs s = _
  rw [execApertureWrite, if_pos (by simpa [hp] using fits), hostDo_of_HostUp up]

theorem exec_bar0BadAccess {o k : Nat} (bad : ¬ ((k = 4 ∨ k = 8) ∧ o % k = 0)) (p : Nat) (isRead : Bool) :
    exec (.bar0BadAccess p o k isRead) s = .next (if isRead then s.send (.allOnes p) else s) := by
  change execBar0BadAccess p o k isRead s = _
  rw [execBar0BadAccess, hostDo_of_HostUp up, if_neg (by simpa using bad)]

end

/-- HBM is reached through the aperture whatever the classes of its set (R449, R450). -/
theorem apertureOk_hbm {s : State} {a k n : Nat} (one : oneAccess a k = true) (ha : a < 0x10000000000) (set : s.setOf a = some n)
    (running : s.setStopped n = false) (kept : s.setLost n = false) (wr : Bool) : s.apertureOk wr a k = true := by
  simp [State.apertureOk, State.accessErr, piecesOf_oneAccess one, State.apertureReaches, ha,
    locate_hbm ha set running kept (.inr (show s.apertureReq.cls = none from rfl))]

end Sys2Proof.Machine
end

section
/-! The statements about windows and the aperture, clause by clause. -/

namespace Sys2Proof.Safety

open Sys2Proof.Machine

/-- Settles O10: while the ports answer, each access is its function on the state; what the aperture does not reach is counted. -/
theorem windowsApertureAndBadAccesses : Obligations.WindowsApertureAndBadAccesses := by
  unfold Obligations.WindowsApertureAndBadAccesses
  refine ⟨fun s e up => ⟨exec_windowInvalidate up e, exec_windowInvalidateAll up⟩, fun s p b up hp => exec_apertureMove up hp b,
    fun s p off n up hp fits out => ?_, fun s p off bs up hp fits out => ?_, fun s p o k up bad => ⟨?_, ?_⟩⟩
  · rw [exec_apertureRead up hp fits, State.apertureGet, if_pos (by rw [out]; rfl)]
    rfl
  · rw [exec_apertureWrite up hp fits, State.aperturePut, if_pos (by rw [out]; rfl)]
    rfl
  · exact exec_bar0BadAccess up bad p true
  · exact exec_bar0BadAccess up bad p false

/-- Settles O11: an access within 256 B of a set in service is one piece of device memory, with no word in error in its way. -/
theorem apertureReadsAndWritesHbm : Obligations.ApertureReadsAndWritesHbm := by
  intro s p off k bs up hp positive fits length hv a unmarked within ha n set running kept
  subst length
  have one : oneAccess a bs.length = true := oneAccess_iff.2 ⟨positive, within⟩
  have below : a < hostBase := by unfold hostBase; omega
  have reached := apertureOk_hbm one ha set running kept
  have placed (wr : Bool) : s.locate s.apertureReq wr a = .ok (.dev a .normal) := locate_hbm ha set running kept (.inr rfl)
  constructor
  · refine ⟨_, exec_apertureRead up hp fits, ?_⟩
    rw [State.apertureGet, if_neg (by rw [reached]; decide), read_unmarked one below (placed false) hv unmarked]
    exact ⟨rfl, fun _ _ => rfl, rfl⟩
  · obtain ⟨t, written, bytes, frame⟩ := write_unmarked one below (placed true) hv unmarked
    refine ⟨t, ?_, fun i hi => ?_, fun b outside => ?_, ?_, ?_⟩
    · rw [exec_apertureWrite up hp fits, State.aperturePut, if_neg (by rw [reached]; decide), written]
    · rw [bytes, if_pos (by omega), Nat.add_sub_cancel_left]; rfl
    · rw [bytes, if_neg outside]
    · rw [frame]
    · rw [frame]

end Sys2Proof.Safety
end


section
/-! SUPPORT. Register accesses through a port (R5 to R14, R617, R628 to R633): the halves of an access and the tests of a write. -/

namespace Sys2Proof.Machine

open Sys2Proof.Safety

/-- A port's access, while the ports answer, acts on the state as it is. -/
theorem bySource_port {s : State} {p : Nat} (up : HostUp s) (hp : p < 2) (f : State → State) : s.bySource p f = f s := by
  simp [State.bySource, hp, hostDo_of_HostUp up]

theorem wakeFor_running {s : State} (up : HostUp s) (cause : Nat) : s.wakeFor cause = s := by
  obtain ⟨mode, -⟩ := up
  simp [State.wakeFor, mode]

section
variable {s : State} {p o : Nat} (up : HostUp s) (hp : p < 2) (fits : accessFits o 4 = true)
include up hp fits

theorem exec_registerWrite (v : Nat) : exec (.registerWrite p o 4 v) s = .next (s.write4 p o (v % 2 ^ 32)) := by
  have awake : s.wakesRun o v = s := by
    unfold State.wakesRun; split
    · exact wakeFor_running up _
    · rfl
  change execRegisterWrite p o 4 v s = _
  rw [execRegisterWrite, if_pos hp, awake, bySource_port up hp, State.busWrite, if_neg (by simp [fits])]
  rfl

theorem exec_registerRead : exec (.registerRead p o 4) s = .next ((s.read4 p o).2.send (.value p (s.read4 p o).1)) := by
  change execRegisterRead p o 4 s = _
  rw [execRegisterRead, State.readBy, if_pos hp, hostDo_of_HostUp up, State.busRead, if_neg (by simp [fits])]
  rfl

end

theorem exec_setupLock {s : State} {p : Nat} (up : HostUp s) (hp : p < 2) : exec (.setupLock p) s = .next (s.setLock p) := by
  change execSetupLock p s = _
  rw [execSetupLock, bySource_port up hp]

/-! ### Where an access leads -/

/-- A port sees every register whole, and its reads clear what they answer (R5, R7). -/
theorem sees_port (s : State) {p : Nat} (hp : p < 2) (r : Reg) (i : Nat) :
    s.sees p r i = s.regValue r i ∧ ∀ lo hi, s.afterRead p r i lo hi = s.clearRc r i lo hi := by
  have port : p ≠ 2 := by omega
  simp [State.sees, State.afterRead, port]

section
variable {s : State} {p o : Nat} (table : inMsixTable o = false) (pend : inMsixPend o = false)
include table pend

theorem write4_unmapped (h : s.reach o = none) (v : Nat) : s.write4 p o v = s.unmapped p o := by
  simp [State.write4, table, pend, h]

theorem write4_whole {r : Reg} {i : Nat} {half : Bool} (h : s.reach o = some (r, i, half)) (width : r.row.width = 32) (v : Nat) :
    s.write4 p o v = s.writeReg p r i v := by
  simp [State.write4, table, pend, h, width]

theorem write4_low {r : Reg} {i : Nat} (h : s.reach o = some (r, i, false)) (width : r.row.width ≠ 32) (v : Nat) :
    s.write4 p o v = { s with latchW := Tab.insert (halfKey p o) v s.latchW } := by
  simp [State.write4, table, pend, h, width]

theorem read4_unmapped (h : s.reach o = none) : s.read4 p o = (0, s) := by
  simp [State.read4, table, pend, h]

variable (hp : p < 2)
include hp

theorem read4_whole {r : Reg} {i : Nat} {half : Bool} (h : s.reach o = some (r, i, half)) (width : r.row.width = 32) :
    s.read4 p o = (s.regValue r i, s.clearRc r i 0 32) := by
  simp [State.read4, table, pend, h, width, sees_port s hp]

theorem read4_low {r : Reg} {i : Nat} (h : s.reach o = some (r, i, false)) (width : r.row.width ≠ 32) :
    s.read4 p o = (s.regValue r i % 2 ^ 32,
      { s.clearRc r i 0 64 with latchR := Tab.insert (halfKey p o) (s.regValue r i / 2 ^ 32) s.latchR }) := by
  simp [State.read4, table, pend, h, width, sees_port s hp]

omit hp in
theorem read4_high {r : Reg} {i w : Nat} (h : s.reach o = some (r, i, true)) (width : r.row.width ≠ 32)
    (latched : Tab.find (halfKey p (o - 4)) s.latchR = some w) :
    s.read4 p o = (w, { s with latchR := Tab.erase (halfKey p (o - 4)) s.latchR }) := by
  simp [State.read4, table, pend, h, width, latched]

end

/-! ### The tests of a write (R628) -/

section
variable {s : State} {p i v : Nat} {r : Reg} (writable : r.row.readOnly = false) (idle : s.busy r = false)
include writable idle

theorem writeReg_discards {c : Nat} (cause : s.writeCause r i v = some c) :
    s.writeReg p r i v = s.discard p c r.row.block (r.row.off + i * r.row.stride) := by
  simp [State.writeReg, writable, idle, cause]

theorem writeReg_accepts (cause : s.writeCause r i v = none) : s.writeReg p r i v = s.regEffect p r i v := by
  simp [State.writeReg, writable, idle, cause]

end

/-- The tests in their order: each clause takes the failure of its test with the success of those before it. -/
theorem writeCause_eq (s : State) (r : Reg) (i v : Nat) : s.writeCause r i v =
    if r.row.policy = true ∧ s.get HST_SETUP_LOCK_SETUP_LOCK 0 ≠ 0 then some 1
    else if r.row.setup = true ∧ s.functionStopped r i = false then some 2
    else if encodingOk r v = false then some 3
    else if s.ruleOk r i v = false then some 4 else none := by
  simp [State.writeCause, State.flag]

end Sys2Proof.Machine
end

section
/-! The statements about register accesses, clause by clause. -/

namespace Sys2Proof.Safety

open Sys2Proof.Machine

/-- Settles O12: a write of a whole register splits on the tests of `writeCause`, in their order. -/
theorem registerWritesTestedInOrder : Obligations.RegisterWritesTestedInOrder := by
  unfold Obligations.RegisterWritesTestedInOrder
  refine ⟨?whole, ?unmapped, ?low, ?lock⟩
  case whole =>
    intro s p o v r i up hp fits small table pend reach width writable idle locked runs gone
    have write : exec (.registerWrite p o 4 v) s = .next (s.writeReg p r i v) := by
      rw [exec_registerWrite up hp fits, Nat.mod_eq_of_lt small, write4_whole table pend reach width]
    have cause := writeCause_eq s r i v
    refine ⟨fun h => ?_, fun h1 h2 => ?_, fun h1 h2 h3 => ?_, fun h1 h2 h3 h4 => ?_, fun h1 h2 h3 h4 => ?_⟩
    · rw [if_pos h] at cause
      rw [write, writeReg_discards writable idle cause]
    · rw [if_neg h1, if_pos h2] at cause
      rw [write, writeReg_discards writable idle cause]
    · rw [if_neg h1, if_neg h2, if_pos h3] at cause
      rw [write, writeReg_discards writable idle cause]
    · rw [if_neg h1, if_neg h2, if_neg (by simp [h3]), if_pos h4] at cause
      rw [write, writeReg_discards writable idle cause]
    · rw [if_neg h1, if_neg h2, if_neg (by simp [h3]), if_neg (by simp [h4])] at cause
      rw [write, writeReg_accepts writable idle cause]
  case unmapped =>
    intro s p o v b off up hp fits table pend reach block
    rw [exec_registerWrite up hp fits, write4_unmapped table pend reach, State.unmapped, block]
  case low =>
    intro s p o v r i up hp fits small table pend reach width
    rw [exec_registerWrite up hp fits, Nat.mod_eq_of_lt small, write4_low table pend reach width]
  case lock =>
    intro s p up hp
    have port : (p == 3) = false := by simp; omega
    rw [exec_setupLock up hp, State.setLock]
    exact ⟨fun h => by rw [if_neg (by simp [State.flag, h]), port]; rfl, fun h => by rw [if_pos (by simp [State.flag, h])]⟩

/-- Settles O13: a read of 4 B splits on the register and the half that it reaches. -/
theorem registerReadsAnswerFields : Obligations.RegisterReadsAnswerFields := by
  unfold Obligations.RegisterReadsAnswerFields
  refine ⟨?whole, ?low, ?high, ?unmapped⟩
  case whole =>
    intro s p o r i up hp fits table pend reach width
    rw [exec_registerRead up hp fits, read4_whole table pend hp reach width]
  case low =>
    intro s p o r i up hp fits table pend reach width
    rw [exec_registerRead up hp fits, read4_low table pend hp reach width]
  case high =>
    intro s p o w r i up hp fits table pend reach width latched
    rw [exec_registerRead up hp fits, read4_high table pend reach width latched]
  case unmapped =>
    intro s p o up hp fits table pend reach
    rw [exec_registerRead up hp fits, read4_unmapped table pend reach]

end Sys2Proof.Safety
end


section
/-! The statement about the boundary (Table 01.7). -/

namespace Sys2Proof.Safety

open Sys2Proof.Machine

/-- The pod's count of tides without a marker is all that the tide counter's step touches beside the counter (R513). -/
theorem nextTide_flds (s : State) : s.nextTide.flds = (s.put HMR_TIDE_COUNT_TIDE 0 (s.tide + 1)).flds := by
  unfold State.nextTide; dsimp only; split <;> rfl

/-- Settles O14: the boundary is its steps composed, and the counter's step writes the counter alone. -/
theorem boundaryTakesStepsInOrder : Obligations.BoundaryTakesStepsInOrder := by
  refine ⟨fun s sat ov live running => ?_, fun s => ⟨?_, ?_⟩, fun s sat ov stopped => ?_⟩
  · change execTideBoundary sat ov s = _
    rw [execTideBoundary, if_pos (by simp [live_of_Live live, State.flag, running])]
    rfl
  · exact (State.get_of_flds (nextTide_flds s) _ 0).trans (State.get_put_self ..)
  · exact keepsFieldsBut_congr (keepsFieldsBut_put s _ _ _) (nextTide_flds s)
  · change execTideBoundary sat ov s = _
    rw [execTideBoundary, if_neg (by simp [State.flag, stopped])]

end Sys2Proof.Safety
end

section
/-! SUPPORT. Descriptors at admission (R408 to R410, R464, R469, R470), and what ends jobs (R410, R472). -/

namespace Sys2Proof.Machine

/-- A descriptor that is taken: it has left the list of those fetched, and counts as tested. -/
def State.taken (s : State) (f : Fetched) : State :=
  { s with fetched := s.fetched.filter fun g => !(g.ring == f.ring && g.desc.sq == f.desc.sq),
           counts := { s.counts with tested := s.counts.tested + 1 } }

/-- The descriptor that is next in order has the kind asked for. -/
theorem kind_nextDesc {s : State} {ring sq kind : Nat} {f : Fetched} (next : s.nextDesc ring sq kind = some f) :
    (describe f.desc.bytes).kind = kind := by
  unfold State.nextDesc at next
  split at next
  · split at next
    next h =>
      cases next
      simp only [Bool.and_eq_true, beq_iff_eq] at h
      exact h.1.1.2
    · cases next
  · cases next

section
variable {s : State} {ring sq : Nat} {f : Fetched}

theorem exec_run_next (fresh : s.jobAt ring sq .run = none) (next : s.nextDesc ring sq 1 = some f) :
    exec (.run ring sq) s = .next (s.admitDesc f) := by
  change execRun ring sq s = _
  rw [execRun, fresh, next]

theorem exec_consign_next (next : s.nextDesc ring sq 2 = some f) : exec (.consign ring sq) s = .next (s.admitDesc f) := by
  change execConsign ring sq s = _
  rw [execConsign, next]

theorem exec_nop_next (next : s.nextDesc ring sq 3 = some f) : exec (.nop ring sq) s = .next (s.admitDesc f) := by
  change execNop ring sq s = _
  rw [execNop, next]

theorem admitDesc_run (kind : (describe f.desc.bytes).kind = 1) {p : RunPlan} (passed : (s.taken f).testRun f.ring f.desc.bytes = .ok p) :
    s.admitDesc f = (s.taken f).admitRun f.ring f.desc.sq (describe f.desc.bytes) p := by
  unfold State.admitDesc
  dsimp only
  rw [if_pos (by simp [kind])]
  split
  next q h => cases passed.symm.trans h; rfl
  next r h => cases passed.symm.trans h

theorem admitDesc_run_refused (kind : (describe f.desc.bytes).kind = 1) {r : Refused}
    (failed : (s.taken f).testRun f.ring f.desc.bytes = .error r) (room : r.reason ≠ 0x14) (readable : r.reason ≠ 0) :
    s.admitDesc f = (s.taken f).refuse f.ring (describe f.desc.bytes).jobRef (describe f.desc.bytes).noIrq r := by
  unfold State.admitDesc
  dsimp only
  rw [if_pos (by simp [kind])]
  split
  next q h => cases failed.symm.trans h
  next r' h =>
    cases failed.symm.trans h
    rw [if_neg (by simpa using readable), if_neg (by simpa using room)]
    rfl

theorem admitDesc_consign (kind : (describe f.desc.bytes).kind = 2) {h : ConsHeader} {acts : List Action} {cost : Cost}
    (passed : (s.taken f).testConsign f.ring f.desc.bytes = .ok (h, acts, cost)) :
    s.admitDesc f = (s.taken f).admitConsign f.ring f.desc.sq (describe f.desc.bytes) h acts cost := by
  unfold State.admitDesc
  dsimp only
  rw [if_neg (by simp [kind]), if_pos (by simp [kind])]
  split
  next h' acts' cost' h => cases passed.symm.trans h; rfl
  next r h => cases passed.symm.trans h

theorem admitDesc_nop (kind : (describe f.desc.bytes).kind = 3) (good : descriptorOk f.desc.bytes = true) :
    s.admitDesc f = (((s.taken f).postRecord f.ring (recordBytes 0x06 0 0 0 (describe f.desc.bytes).jobRef 0 s.stampTide 0 0)
      (describe f.desc.bytes).noIrq).releaseSlots f.ring 1).trace 1 f.ring (describe f.desc.bytes).jobRef 0 := by
  unfold State.admitDesc
  dsimp only
  rw [if_neg (by simp [kind]), if_neg (by simp [kind]), if_pos (by simp [kind, good])]
  rfl

end

/-! ### Sending changes nothing but what was sent -/

theorem send_frame (s : State) (m : Msg) : s.send m = { s with out := (s.send m).out } := by
  unfold State.send; split <;> rfl

theorem trace_frame (s : State) (kind ring jobRef unit : Nat) :
    s.trace kind ring jobRef unit = { s with out := (s.trace kind ring jobRef unit).out } := by
  unfold State.trace; split
  · exact send_frame _ _
  · rfl

theorem traceJob_frame (s : State) (kind : Nat) (job : Option Job) (unit : Nat) :
    s.traceJob kind job unit = { s with out := (s.traceJob kind job unit).out } := by
  unfold State.traceJob; split <;> exact trace_frame ..

theorem takeJob_frame (s : State) (j : Job) : s.takeJob j =
    { s with jobs := s.jobs ++ [j], nextJob := s.nextJob + 1, admitted := s.admitted + 1, out := (s.takeJob j).out } := by
  unfold State.takeJob; exact traceJob_frame _ _ _ _

theorem getLast_takeJob (s : State) (j : Job) : (s.takeJob j).jobs.getLast? = some j := by
  rw [takeJob_frame]
  exact List.getLast?_concat ..

/-- A RUN admitted goes last on the list of admitted jobs, with what its descriptor and its tests gave. -/
theorem getLast_admitRun (s : State) (ring sq : Nat) (d : Described) (p : RunPlan) :
    ∃ j, (s.admitRun ring sq d p).jobs.getLast? = some j ∧ j.jobRef = d.jobRef ∧ j.ring = ring ∧ j.sq = sq ∧ j.kind = .run ∧
      j.model = d.model ∧ j.lane = d.lane ∧ j.variant = p.variant ∧ j.units = p.units ∧ j.noIrq = d.noIrq := by
  unfold State.admitRun
  exact ⟨_, getLast_takeJob .., rfl, rfl, rfl, rfl, rfl, rfl, rfl, rfl, rfl⟩

/-! ### Ends of jobs -/

/-- The job that is ended is off the list, whatever its end posts (R472). -/
theorem not_admitted_endJob (s : State) (j : Job) (status resource : Nat) (win : Option (Nat × Nat)) :
    ∀ x ∈ (s.endJob j status resource win).jobs, x.id ≠ j.id := by
  unfold State.endJob
  extract_lets s1 j1 s2 s3 s4
  have same : j1.id = j.id := by
    change ((s1.job j.id).getD j).id = j.id
    cases found : s1.job j.id with
    | none => rfl
    | some y => exact beq_iff_eq.1 (List.find?_some (p := fun x : Job => x.id == j.id) found)
  intro x hx
  have kept := (List.mem_filter.1 (show x ∈ s4.jobs.filter fun x => x.id != j1.id from hx)).2
  rw [← same]
  simpa using kept

theorem id_of_job {s : State} {i : Nat} {j : Job} (h : s.job i = some j) : j.id = i :=
  beq_iff_eq.1 (List.find?_some (p := fun x : Job => x.id == i) h)

end Sys2Proof.Machine
end

section
/-! The statement about descriptors at admission. -/

namespace Sys2Proof.Safety

open Sys2Proof.Machine

/-- Settles O15: the next descriptor in order is taken off the list, and its kind and its tests decide what becomes of it. -/
theorem descriptorsAreAdmittedOrRefused : Obligations.DescriptorsAreAdmittedOrRefused := by
  unfold Obligations.DescriptorsAreAdmittedOrRefused
  refine ⟨?run, ?refused, ?consign, ?nop⟩
  case run =>
    intro s ring sq f p fresh next s0 d passed
    refine ⟨_, exec_run_next fresh next, ?_⟩
    rw [admitDesc_run (kind_nextDesc next) passed]
    exact getLast_admitRun ..
  case refused =>
    intro s ring sq f r fresh next s0 d failed room readable
    rw [exec_run_next fresh next, admitDesc_run_refused (kind_nextDesc next) failed room readable]
    rfl
  case consign =>
    intro s ring sq f h acts cost next s0 passed
    refine ⟨_, exec_consign_next next, ?_⟩
    rw [admitDesc_consign (kind_nextDesc next) passed, State.admitConsign, takeJob_frame]
    exact ⟨rfl, ⟨_, rfl, rfl, rfl, rfl, rfl, rfl⟩, rfl⟩
  case nop =>
    intro s ring sq f next good s0 d
    rw [exec_nop_next next, admitDesc_nop (kind_nextDesc next) good]
    rfl

end Sys2Proof.Safety
end


section
/-! SUPPORT. What ends jobs, frees contexts and resets a port (R410, R424, R445, R472, R524). -/

namespace Sys2Proof.Machine

open Sys2Proof.Safety

/-! ### A stream's context, a kiln's slot -/

theorem freeTags_frame (s : State) (n k : Nat) : s.freeTags n k = { s with flds := (s.freeTags n k).flds } := rfl

theorem keepsFieldsBut_freeTags (s : State) (n k : Nat) : KeepsFieldsBut s (s.freeTags n k) [STV_TAGS_IN_USE.key (stevedoreOf n)] :=
  keepsFieldsBut_put s _ _ _

/-- A freed stream leaves its context with its halt generation, and releases its tags and its remote reservation. -/
theorem freeStream_eq (s : State) (n : Nat) : ∃ l : List Msg, s.freeStream n =
    { (s.freeTags n (s.stream n).inFlight).putStream n { gen := (s.stream n).gen } with out := l } ∧
    ((s.stream n).remote = false → (s.stream n).asked = false → l = s.out) := by
  unfold State.freeStream
  dsimp only
  split
  next h =>
    rw [send_frame]
    exact ⟨_, rfl, fun hr ha => by simp [hr, ha] at h⟩
  next => exact ⟨_, rfl, fun _ _ => rfl⟩

section
variable (s : State) (n : Nat)

theorem stream_freeStream (m : Nat) : (s.freeStream n).stream m = if m = n then { gen := (s.stream n).gen } else s.stream m := by
  obtain ⟨l, eq, -⟩ := freeStream_eq s n
  rw [eq]
  exact State.stream_putStream ..

theorem keepsFieldsBut_freeStream : KeepsFieldsBut s (s.freeStream n) [STV_TAGS_IN_USE.key (stevedoreOf n)] := by
  obtain ⟨l, eq, -⟩ := freeStream_eq s n
  rw [eq]
  exact keepsFieldsBut_freeTags s n _

theorem freeStream_frame :
    s.freeStream n = { s with flds := (s.freeStream n).flds, streams := (s.freeStream n).streams, out := (s.freeStream n).out } := by
  obtain ⟨l, eq, -⟩ := freeStream_eq s n
  rw [eq]; rfl

theorem out_freeStream (here : (s.stream n).remote = false) (unasked : (s.stream n).asked = false) : (s.freeStream n).out = s.out := by
  obtain ⟨l, eq, out⟩ := freeStream_eq s n
  rw [eq]; exact out here unasked

end

/-- A slot that leaves its kiln's engines has none of them. -/
theorem leave_none (q : Kiln) (c : Nat) :
    (q.leave c).path ≠ some c ∧ (q.leave c).c4 ≠ some c ∧ (q.leave c).mul ≠ some c ∧ (q.leave c).vec ≠ some c := by
  have other (o : Option Nat) : (if o == some c then none else o) ≠ some c := by split <;> simp_all
  refine ⟨?_, other _, other _, other _⟩
  unfold Kiln.leave
  dsimp only
  split <;> simp_all

@[simp] theorem State.kiln_putCtx (s : State) (k c : Nat) (x : KCtx) (m : Nat) : (s.putCtx k c x).kiln m = s.kiln m := rfl

/-! ### Commands -/

section
variable {s : State}

theorem exec_jobDeadline (live : Live s) {i : Nat} {j : Job} (job : s.job i = some j) (run : j.kind = .run) (due : j.deadline ≤ s.tide) :
    exec (.jobDeadline i) s = .next (s.endJob j (s.deadlineStatus j) 0 none) := by
  change execJobDeadline i s = _
  rw [execJobDeadline, if_pos (live_of_Live live), State.deadlinePasses, job]
  simp [run, due]

theorem exec_run_complete (live : Live s) {ring sq : Nat} {j : Job} (at' : s.jobAt ring sq .run = some j) (done : j.workDone = true)
    (unscored : j.scored = false) (written : s.outputOpen j.id = false) : exec (.run ring sq) s = .next (s.completeRun j) := by
  change execRun ring sq s = _
  rw [execRun, at']
  simp [live_of_Live live, done, unscored, written]

/-- A RUN with no history section ends with OK. -/
theorem completeRun_no_history {j : Job} (job : s.job j.id = some j) (none' : j.hist = none) :
    s.completeRun j = s.endJob j stOk 0 none := by
  simp [State.completeRun, State.beginHist, none', job, State.appendOwed, Job.owesHistory]

variable (up : HostUp s)
include up

theorem exec_freezeResetStream {n : Nat} (frozen : (s.stream n).st = .frozen) : exec (.freezeResetStream n) s = .next (s.freeStream n) := by
  change execFreezeResetStream n s = _
  rw [execFreezeResetStream, hostDo_of_HostUp up, State.streamFreezeReset, if_pos (by simp [frozen])]

theorem exec_freezeResetKilnTask {k c : Nat} (hc : c < 4) (frozen : (s.ctx k c).st = .frozen) :
    exec (.freezeResetKilnTask (4 * k + c)) s = .next (s.freeSlot k c) := by
  have kiln : (4 * k + c) / 4 = k := by omega
  have slot : (4 * k + c) % 4 = c := by omega
  change execFreezeResetKilnTask (4 * k + c) s = _
  rw [execFreezeResetKilnTask, hostDo_of_HostUp up, State.taskFreezeReset, kiln, slot, if_pos (by simp [frozen])]

theorem exec_freezeResetPeer {d : Nat} (frozen : (s.peer d).frozen = true) :
    exec (.freezeResetPeer d) s = .next (s.putPeer d { s.peer d with frozen := false, malformed := 0, stray := 0 }) := by
  change execFreezeResetPeer d s = _
  rw [execFreezeResetPeer, hostDo_of_HostUp up, State.peerFreezeReset, if_pos frozen]

end

/-- What a port's function holds once it is reset, whatever came before (R445, R625). -/
theorem resetFunction_clears (s : State) (p : Nat) :
    (s.resetFunction p).get HST_PORT_STATUS_BME p = 0 ∧ (s.resetFunction p).get HST_PORT_STATUS_IDE_SECURE p = 0 ∧
    (s.resetFunction p).winCache = s.winCache ∧ (∀ e ∈ (s.resetFunction p).msix, e.1 / 2048 ≠ p) ∧
    ∀ e ∈ (s.resetFunction p).msixPend, e.1 / 512 ≠ p := by
  refine ⟨?_, ?_, rfl, fun e he => ?_, fun e he => ?_⟩
  · exact (State.get_put_other (by decide) _ _ _ _).trans (State.get_put_self ..)
  · exact State.get_put_self ..
  · simpa using (List.mem_filter.1 he).2
  · simpa using (List.mem_filter.1 he).2

end Sys2Proof.Machine
end

section
/-! The statement about ends of jobs, freeze resets and a port reset. -/

namespace Sys2Proof.Safety

open Sys2Proof.Machine

/-- Settles O16: each command is its function on the job, the context or the port it names. -/
theorem deadlinesFreezeResetsAndPortReset : Obligations.DeadlinesFreezeResetsAndPortReset := by
  unfold Obligations.DeadlinesFreezeResetsAndPortReset
  refine ⟨?deadline, ?complete, ?stream, ?task, ?peer, ?port⟩
  case deadline =>
    intro s i j live job run due status
    refine ⟨exec_jobDeadline live job run due, fun x hx => ?_⟩
    rw [← id_of_job job]
    exact not_admitted_endJob s j _ 0 none x hx
  case complete =>
    intro s ring sq j live at' job done unscored none' written
    rw [exec_run_complete live at' done unscored written, completeRun_no_history job none']
    rfl
  case stream =>
    intro s n up frozen
    refine ⟨_, exec_freezeResetStream up frozen, ?_, fun m other => ?_, keepsFieldsBut_freeStream s n, freeStream_frame s n⟩
    · rw [stream_freeStream, if_pos rfl]
    · rw [stream_freeStream, if_neg other]
  case task =>
    intro s k c up hc frozen
    refine ⟨_, exec_freezeResetKilnTask up hc frozen, State.ctx_putCtx_self .., rfl, ?_⟩
    have gone := leave_none (s.kiln k) c
    simpa [State.freeSlot] using gone
  case peer => exact fun s d up frozen => exec_freezeResetPeer up frozen
  case port =>
    intro s p hp
    obtain ⟨master, secure, windows, table, pend⟩ :=
      resetFunction_clears { (s.boundRings p).foldl (fun t n => t.resetRing n) s with
        winCache := ((s.boundRings p).foldl (fun t n => t.resetRing n) s).winCache.filter fun e => e.2.port != p } p
    refine ⟨s.portReset p, if_pos hp, master, secure, fun e he => ?_, table, pend⟩
    have kept : e ∈ List.filter (fun e => e.2.port != p) _ := windows ▸ he
    exact bne_iff_ne.1 (List.mem_filter.1 kept).2

end Sys2Proof.Safety
end


section
/-! SUPPORT. Reports: an event, a log entry, a corrected word change records, counters and what was sent, and none of the device's work. -/

namespace Sys2Proof.Machine

open Sys2Proof.Safety

/-- The register fields that a report changes, all of them in unit 0. -/
def reportFlds : List Fld :=
  [WHS_ECC_CORRECTED_COUNT, HST_EVT_STATUS_LOST, HST_EVT_STATUS_OVERFLOW, DDK_ELOG_STATUS_TOTAL, DDK_ELOG_STATUS_WRAPPED,
    HMR_SALVOR_STATUS_RING_DROPS, HMR_SALVOR_STATUS_HANDLING, HMR_SALVOR_STATUS_BUSY]

/-- A state with what a report can change taken away: registers, host memory and windows, marks of words, events, the salvor's list, the
error log and what was sent. -/
def State.work (s : State) : State :=
  { s with
    flds := [], ecc := [], host := [], winCache := [], msixPend := [], evt := {}, salvor := {}, dock := { s.dock with elog := [] }, out := [] }

/-- Nothing but reports has changed. -/
structure Reports (s t : State) : Prop where
  work : t.work = s.work
  keeps : KeepsFieldsBut s t (reportFlds.map fun f => f.key 0)

theorem Reports.refl (s : State) : Reports s s := ⟨rfl, keepsFieldsBut_same rfl _⟩

theorem Reports.trans {s t u : State} (first : Reports s t) (second : Reports t u) : Reports s u :=
  ⟨second.work.trans first.work, fun f i other => (second.keeps f i other).trans (first.keeps f i other)⟩

/-- A change beside the registers that a report makes. -/
theorem Reports.of_flds {s t : State} (work : t.work = s.work) (flds : t.flds = s.flds) : Reports s t := ⟨work, keepsFieldsBut_same flds _⟩

theorem Reports.put {s t : State} (h : Reports s t) {f : Fld} (hf : f ∈ reportFlds) (v : Nat) : Reports s (t.put f 0 v) :=
  ⟨h.work, keepsFieldsBut_put_listed h.keeps (List.mem_map.2 ⟨f, hf, rfl⟩) v⟩

theorem Reports.inc {s t : State} (h : Reports s t) {f : Fld} (hf : f ∈ reportFlds) (n : Nat) : Reports s (t.inc f 0 n) := h.put hf _

theorem Reports.foldl {α : Type} {f : State → α → State} (hf : ∀ t x, Reports t (f t x)) (l : List α) (s : State) : Reports s (l.foldl f s) := by
  induction l generalizing s with
  | nil => exact .refl s
  | cons x l ih => exact (hf s x).trans (ih (f s x))

/-- A register field that no report changes. -/
theorem Reports.get {s t : State} (h : Reports s t) {f : Fld} (hf : ∀ g ∈ reportFlds, f.ord % 512 ≠ g.ord % 512) (i : Nat) : t.get f i = s.get f i := by
  refine h.keeps f i fun listed => ?_
  obtain ⟨g, hg, same⟩ := List.mem_map.1 listed
  exact Fld.key_ne (hf g hg) i 0 same.symm

section
variable {s t : State} (h : Reports s t)
include h

theorem Reports.streams : t.streams = s.streams := by change t.work.streams = s.work.streams; rw [h.work]
theorem Reports.ctxs : t.ctxs = s.ctxs := by change t.work.ctxs = s.work.ctxs; rw [h.work]
theorem Reports.kilns : t.kilns = s.kilns := by change t.work.kilns = s.work.kilns; rw [h.work]
theorem Reports.ready : t.ready = s.ready := by change t.work.ready = s.work.ready; rw [h.work]
theorem Reports.jobs : t.jobs = s.jobs := by change t.work.jobs = s.work.jobs; rw [h.work]
theorem Reports.mem : t.mem = s.mem := by change t.work.mem = s.work.mem; rw [h.work]
theorem Reports.undef : t.undef = s.undef := by change t.work.undef = s.work.undef; rw [h.work]
theorem Reports.veiled : t.veiled = s.veiled := by change t.work.veiled = s.work.veiled; rw [h.work]
theorem Reports.stream (n : Nat) : t.stream n = s.stream n := by rw [State.stream, h.streams]; rfl
theorem Reports.ctx (k c : Nat) : t.ctx k c = s.ctx k c := by rw [State.ctx, h.ctxs]; rfl
theorem Reports.job (j : Nat) : t.job j = s.job j := by rw [State.job, h.jobs]; rfl

end

/-! ### Records -/

theorem reports_send (s : State) (m : Msg) : Reports s (s.send m) := by
  rw [send_frame]; exact .of_flds rfl rfl

theorem reports_traceJob (s : State) (kind : Nat) (job : Option Job) (unit : Nat) : Reports s (s.traceJob kind job unit) := by
  rw [traceJob_frame]; exact .of_flds rfl rfl

theorem reports_irq (s : State) (port vector : Nat) : Reports s (s.irq port vector) := by
  unfold State.irq; split
  · exact .of_flds rfl rfl
  · exact reports_send s _

theorem reports_postEvent (s : State) (bs : List Byte) : Reports s (s.postEvent bs) := by
  unfold State.postEvent
  split
  · unfold State.putEvent; dsimp only
    refine Reports.trans ?_ (reports_irq _ _ _)
    rw [hostWrite_frame]; exact .of_flds rfl rfl
  split
  · exact .of_flds rfl rfl
  · exact ((Reports.refl s).inc (by simp [reportFlds]) 1).put (by simp [reportFlds]) 1

theorem reports_logError (s : State) (e : Err) : Reports s (s.logError e) := by
  have pushed : Reports s (s.elogPush (s.errorBytes e)) := by
    have counted := (Reports.refl s).inc (f := DDK_ELOG_STATUS_TOTAL) (by simp [reportFlds]) 1
    unfold State.elogPush; dsimp only; split
    · exact counted.trans (.of_flds rfl rfl)
    · refine Reports.put (f := DDK_ELOG_STATUS_WRAPPED) ?_ (by simp [reportFlds]) _
      exact counted.trans (.of_flds rfl rfl)
  exact (pushed.trans (reports_postEvent _ _)).trans (reports_traceJob _ _ _ _)

/-! ### Corrected words (R241, R526) -/

/-- An error of severity 0 is logged and queued for the salvor, and neither fences a unit nor stops the device. -/
theorem reports_detect {s : State} {e : Err} (harmless : e.sev = 0) : Reports s (s.detect e) := by
  have salvor (t : State) (v : Salvor) : Reports t { t with salvor := v } := .of_flds rfl rfl
  have inHand (t : State) : Reports t (t.takeInHand e) := by
    unfold State.takeInHand
    exact ((salvor t _).put (by simp [reportFlds]) _).put (by simp [reportFlds]) _
  have full (t : State) : Reports t (t.ringFull e) := by
    unfold State.ringFull
    rw [if_pos (by simp [harmless])]
    exact (reports_logError t e).inc (by simp [reportFlds]) 1
  have queued (t : State) : Reports t (t.queueError e) := by
    unfold State.queueError
    split
    · split_ifs
      · exact inHand t
      · exact full t
      · exact salvor t _
    · rw [harmless, if_neg (show ¬ (decide (0 > _) && _) = true by simp)]
      split_ifs
      · exact full t
      · exact salvor t _
  have one : Reports s (s.detectOne e) := by
    unfold State.detectOne
    extract_lets first fenced rep counted promoted
    have same : promoted = e := by simp [promoted, rep, harmless]
    rw [same, harmless]
    split
    · exact salvor s _
    rw [if_neg (by omega)]
    split
    · exact salvor s _
    · exact (salvor s _).trans (queued _)
  unfold State.detect; dsimp only
  rw [if_neg (by simp [harmless])]
  exact one

theorem reports_correctWords (s : State) (ws : List Nat) : Reports s (s.correctWords ws) := by
  have marks (t : State) (m : Tab Bool) : Reports t { t with ecc := m } := .of_flds rfl rfl
  have each (t : State) (w : Nat) : Reports t (t.detect (t.mkWordErr 0 1 (8 * w) none)) := reports_detect rfl
  unfold State.correctWords; dsimp only
  refine Reports.trans ?_ (Reports.foldl each _ _)
  split
  · exact (marks s _).inc (by simp [reportFlds]) _
  · exact marks s _

theorem fillWins_frame (s : State) (ps : List (Nat × Nat)) : s.fillWins ps = { s with winCache := (s.fillWins ps).winCache } := by
  induction ps generalizing s with
  | nil => rfl
  | cons p ps ih =>
    have first : s.fillWin p.1 = { s with winCache := (s.fillWin p.1).winCache } := by
      unfold State.fillWin; split
      · rfl
      · split <;> rfl
    rw [State.fillWins, List.foldl_cons, ← State.fillWins, ih, first]

theorem reports_fillWins (s : State) (ps : List (Nat × Nat)) : Reports s (s.fillWins ps) := by
  rw [fillWins_frame]; exact .of_flds rfl rfl

/-- A read corrects the correctable words that it meets and caches windows, and changes nothing else. -/
theorem reports_read {s s' : State} {r : Req} {a n : Nat} {bs : List Byte} (h : s.read r a n = .ok (bs, s')) : Reports s s' := by
  unfold State.read at h
  split at h
  next => cases h
  next =>
    dsimp only at h
    split at h
    · cases h
    · cases h
      exact (reports_correctWords s _).trans (reports_fillWins _ _)

end Sys2Proof.Machine
end


section
/-! SUPPORT. Streams that execute their manifest (R196 to R203): which instruction is next, what changes one stream alone, and where the words
of the warehouse's scratch ways lie. -/

namespace Sys2Proof.Machine

open Sys2Proof.Safety

/-! ### The instruction of a stream -/

theorem insnOf_of_AtInsn {s : State} {n : Nat} {i : MInsn} (h : AtInsn s n i) : s.insnOf n = some i := by
  obtain ⟨live, running, free, w, word, insn⟩ := h
  simp [State.insnOf, live_of_Live live, Stream.executes, running, free, word, insn]

/-- A stream that a WAITSLOT holds is at an instruction, or one that executes is. -/
theorem heldInsn_of {s : State} {n : Nat} {i : MInsn} (h : AtInsn s n i ∨ (Live s ∧ (s.stream n).st = .waiting ∧
    ∃ w, (s.stream n).code[(s.stream n).pos.pc]? = some w ∧ decodeInsn w = some i)) : s.heldInsn n = some i := by
  rcases h with ⟨live, running, free, w, word, insn⟩ | ⟨live, waiting, w, word, insn⟩
  · simp [State.heldInsn, live_of_Live live, Stream.executes, running, free, word, insn]
  · simp [State.heldInsn, live_of_Live live, waiting, word, insn]

/-! ### One stream changes -/

theorem onlyStream_putStream (s : State) (n : Nat) (x : Stream) : OnlyStream s (s.putStream n x) n :=
  ⟨rfl, fun m other => by simp [other]⟩

theorem stream_putStream_self (s : State) (n : Nat) (x : Stream) : (s.putStream n x).stream n = x := by simp

theorem onlyStream_setStream (s : State) (n : Nat) (f : Stream → Stream) : OnlyStream s (s.setStream n f) n := onlyStream_putStream s n _

theorem stream_setStream_self (s : State) (n : Nat) (f : Stream → Stream) : (s.setStream n f).stream n = f (s.stream n) :=
  stream_putStream_self s n _

/-! ### Positions -/

theorem enter_some (p : Pos) {body count : Nat} (hcount : 0 < count) (hbody : 0 < body) :
    p.enter body count = { p with pc := p.pc + 1, loops := ⟨p.pc + 1, p.pc + body, count⟩ :: p.loops, off := 0 } := by
  have open' : (p.pc == p.pc + body) = false := by simp; omega
  have some' : (count == 0) = false := by simp; omega
  simp [Pos.enter, some', Pos.goto, closeLoops, open']

theorem enter_none (p : Pos) (body : Nat) : p.enter body 0 = p.goto (p.pc + body + 1) := rfl

theorem step_setCursor (p : Pos) (c : Nat) (v : Int) : (p.setCursor c v).step =
    { p.setCursor c v with pc := (closeLoops p.pc (p.pc + 1) p.loops).2, loops := (closeLoops p.pc (p.pc + 1) p.loops).1, off := 0 } := by
  unfold Pos.setCursor; split <;> rfl

/-! ### Cursors -/

theorem leaveSlots_eq (s : State) (x : Stream) (old new : Int) (touched : List Nat) :
    s.leaveSlots x old new touched = { x with left := (s.leaveSlots x old new touched).left } := by
  unfold State.leaveSlots; split <;> rfl

/-- A cursor in its range takes the value, and of the stream's record of left slots nothing is said here (R197, R203). -/
theorem moveCursor_inRange {s : State} {n c : Nat} {v : Int} (low : 0 ≤ v) (high : v < 2 ^ 48) : ∃ l,
    s.moveCursor n c v = s.putStream n { s.stream n with pos := ((s.stream n).pos.setCursor c v).step, left := l } := by
  have fits : inRange v = true := by simp only [inRange, low, high, decide_true, Bool.and_self]
  unfold State.moveCursor
  dsimp only
  rw [if_neg (by simp [fits])]
  split
  · rw [leaveSlots_eq]; exact ⟨_, rfl⟩
  · exact ⟨(s.stream n).left, rfl⟩

/-! ### The commands of a manifest -/

section
variable {s : State} {n : Nat}

theorem exec_loop {body count : Nat} (h : AtInsn s n (.loop body count)) :
    exec (.loop n) s = .next (s.setStream n fun x => { x with pos := x.pos.enter body count }) := by
  change execLoop n s = _
  rw [execLoop, insnOf_of_AtInsn h]

theorem exec_stride {c value : Nat} {set : Bool} (h : AtInsn s n (.stride c set value)) :
    exec (.stride n) s = .next (s.moveCursor n c (if set then value else (s.stream n).pos.cursor c + toSigned 48 value)) := by
  change execStride n s = _
  rw [execStride, insnOf_of_AtInsn h]

theorem exec_align {c lg : Nat} (h : AtInsn s n (.align c lg)) :
    exec (.align n) s = .next (s.moveCursor n c (roundUp ((s.stream n).pos.cursor c).toNat (2 ^ lg) : Nat)) := by
  change execAlign n s = _
  rw [execAlign, insnOf_of_AtInsn h]

theorem exec_manifestEnd (h : AtInsn s n .fin) : exec (.manifestEnd n) s = .next (s.setStream n fun x =>
    { x.closeTile.dropDone with st := .draining, ended := true, left := (List.range 128).map (fun k => (k, s.seq)) ++ x.left }) := by
  change execManifestEnd n s = _
  rw [execManifestEnd, insnOf_of_AtInsn h]

theorem exec_waitslotSlot {k : Nat} (h : s.heldInsn n = some (.waitSlot k)) :
    exec (.waitslotSlot n) s = .next (s.waitSlotted n .slots (s.slotsClear (s.stream n) k)) := by
  change execWaitslotSlot n s = _
  rw [execWaitslotSlot, h]

theorem exec_waitslotBarrier {first count addr : Nat} (h : AtInsn s n (.waitBar first count addr)) :
    exec (.waitslotBarrier n) s = .next (s.waitBarrier n first count addr) := by
  change execWaitslotBarrier n s = _
  rw [execWaitslotBarrier, insnOf_of_AtInsn h]

theorem exec_waitslotReread {first count addr : Nat} (held : (s.stream n).wait = .barrier) (h : s.heldInsn n = some (.waitBar first count addr)) :
    exec (.waitslotReread n) s = .next (s.waitBarrier n first count addr) := by
  change execWaitslotReread n s = _
  rw [execWaitslotReread, if_pos (by simp [held]), h]

theorem exec_signal {b addr : Nat} {t : State} (h : AtInsn s n (.signal b addr)) (written : (s.stream n).allWritten = true)
    (stored : s.barrierWrite (s.streamReq (s.stream n)) 1 addr (2 ^ b) = .ok t) :
    exec (.signal n) s = .next (t.setStream n fun x => { x with pos := x.pos.step }) := by
  change execSignal n s = _
  rw [execSignal, insnOf_of_AtInsn h]
  dsimp only
  rw [if_pos written, stored]

end

/-! ### The end of a manifest (R198) -/

/-- Closing the tile in progress at END changes no unit's tile or age, and ends the tile in the position (R198). -/
theorem closeTile_cases (x : Stream) : ∃ (f : SUnit → SUnit) (rcv : List Rcv), (∀ u, (f u).tile = u.tile ∧ (f u).seq = u.seq) ∧
    (x.pos.tileBytes = 0 → x.closeTile = x) ∧
    x.closeTile = { x with
      units := x.units.map f, rcv := rcv,
      pos := { x.pos with tile := x.pos.tile + (if x.pos.tileBytes = 0 then 0 else 1), tileBytes := 0 } } := by
  unfold Stream.closeTile
  split
  next h =>
    have none' : x.pos.tileBytes = 0 := by simpa using h
    refine ⟨id, x.rcv, fun u => ⟨rfl, rfl⟩, fun _ => rfl, ?_⟩
    have same (p : Pos) (h : p.tileBytes = 0) : ({ p with tile := p.tile + 0, tileBytes := 0 } : Pos) = p := by
      cases p; dsimp only at h; rw [h]; rfl
    rw [List.map_id, if_pos none', same x.pos none']
  next h =>
    have some' : ¬ x.pos.tileBytes = 0 := by simpa using h
    rw [if_neg some']
    dsimp only
    split
    next l _ => exact ⟨fun u => if u.seq == l.seq then { u with last := true } else u, _, fun u => by dsimp only; split <;> exact ⟨rfl, rfl⟩,
      fun none' => absurd none' some', rfl⟩
    next => exact ⟨id, _, fun u => ⟨rfl, rfl⟩, fun none' => absurd none' some', by rw [List.map_id]⟩

/-! ### WAITSLOT and SIGNAL -/

theorem waitSlotted_eq (s : State) (n : Nat) (w : StreamWait) (met : Bool) : s.waitSlotted n w met = s.putStream n
    (if met then { s.stream n with st := .running, wait := .none, pos := (s.stream n).pos.step }
      else { s.stream n with st := .waiting, wait := w }) := by
  cases met <;> rfl

theorem allWritten_iff {x : Stream} : x.allWritten = true ↔ ∀ u ∈ x.units, ∀ q ∈ x.rcv, q.needs u = false := by
  simp [Stream.allWritten]

theorem slotsClear_iff {s : State} {x : Stream} {k : Nat} : s.slotsClear x k = true ↔
    if x.dstKind = 0 then
      ∀ q ∈ x.rcv, q.attached = true → ∀ i, i < k → s.isReady q.kiln q.half (q.base + x.pos.dst.toNat / 4096 + i) = false
    else ∀ u ∈ x.units, ∀ q ∈ x.rcv, q.needs u = false := by
  unfold State.slotsClear
  split
  next h => rw [if_pos (by simpa using h)]; simp [imp_iff_not_or]
  next h => rw [if_neg (by simpa using h), allWritten_iff]

theorem waitBarrier_read {s s' : State} {n first count addr : Nat} {bs : List Byte}
    (h : s.read (s.streamReq (s.stream n)) addr 8 = .ok (bs, s')) :
    s.waitBarrier n first count addr = s'.waitSlotted n .barrier (bits (leNat bs) first count == 2 ^ count - 1) := by
  simp [State.waitBarrier, State.barrierMet, h]

/-- A scratch way in service that admits the access holds the words where their offset says (R256). -/
theorem whsLoc_scratch {s : State} {r : Req} {wr : Bool} {off d w : Nat} (hw : wayOf off = (d, w)) (v : View) (ho : off < whsBytes)
    (running : s.wayStopped d w = false) (scratch : s.wayUse d w = 0) (open' : s.wayClasses d w ≠ 0)
    (admits : wr = true → r.mayWrite (s.wayClasses d w) = true) : s.whsLoc r wr off v = .ok (.dev (whsBase + off) v) := by
  unfold State.whsLoc
  rw [hw]; dsimp only
  rw [if_neg (by simp [running, open', ho]), if_neg (by simp [scratch]), if_neg]
  simpa using admits

theorem ne_zero_of_bit {v c : Nat} (h : bit v c = true) : v ≠ 0 := by
  intro zero; rw [zero] at h; simp [bit] at h

@[simp] theorem length_leBytes (k v : Nat) : (leBytes k v).length = k := by
  induction k generalizing v with
  | zero => rfl
  | succ k ih => simp [leBytes, ih]

/-- A write of an aligned barrier word through an alias view of a scratch way that admits it makes of each byte what the view says, and
changes nothing but bytes and marks (R180, R182, R200, R243). -/
theorem barrierWrite_scratch {s : State} {r : Req} {v addr d w : Nat} (hv : v < 3) (aligned : addr % 8 = 0)
    (low : whsBase ≤ addr) (high : addr < whsBase + whsBytes) (unveiled : s.veiled = []) (unmarked : Tab.find (addr / 8) s.ecc = none)
    (hw : wayOf (addr - whsBase) = (d, w)) (running : s.wayStopped d w = false) (scratch : s.wayUse d w = 0) (open' : s.wayClasses d w ≠ 0)
    (admits : r.mayWrite (s.wayClasses d w) = true) (mask : Nat) :
    ∃ t, s.barrierWrite r v addr mask = .ok t ∧
      (∀ x, memAt t x = if addr ≤ x ∧ x < addr + 8 then (View.ofCode v).apply (memAt s x) ((leBytes 8 mask).getD (x - addr) 0)
        else memAt s x) ∧
      t = { s with ecc := t.ecc, mem := t.mem } := by
  obtain ⟨off, rfl⟩ : ∃ off, addr = whsBase + off := ⟨addr - whsBase, by omega⟩
  have ho : off < whsBytes := by omega
  rw [Nat.add_sub_cancel_left] at hw
  have place : s.locate r true (whsBase + viewStep * v + off) = .ok (.dev (whsBase + off) (View.ofCode v)) := by
    rw [locate_view s r true hv ho]
    exact whsLoc_scratch hw _ ho running scratch open' fun _ => admits
  have one : oneAccess (whsBase + viewStep * v + off) (leBytes 8 mask).length = true := by
    rw [oneAccess_iff, length_leBytes]
    unfold whsBase viewStep at *
    omega
  have below : whsBase + viewStep * v + off < hostBase := by unfold whsBytes at ho; unfold whsBase viewStep hostBase; omega
  have clean : ∀ x ∈ wordsOf (whsBase + off) (leBytes 8 mask).length, Tab.find x s.ecc = none := fun x hx => by
    rw [length_leBytes, mem_wordsOf_iff (by omega)] at hx
    rwa [show x = (whsBase + off) / 8 by omega]
  have written := write_good one below place fun x hx => badWord_of_unmarked (clean x (readWords_subset _ _ _ hx))
  obtain ⟨bytes, -⟩ := writeLoc_bytes (View.ofCode v) unveiled clean
  rw [length_leBytes] at bytes
  refine ⟨_, ?_, bytes, ?_⟩
  · rw [State.barrierWrite, ← written]
    congr 1
    omega
  · rw [writeLoc_unmarked (by unfold whsBase; omega) _ clean, pokeBytes_eq]; rfl

end Sys2Proof.Machine
end

section
/-! The statements about loops, cursors and ends of manifests, and about synchronisation. -/

namespace Sys2Proof.Safety

open Sys2Proof.Machine

/-- Settles O17: each instruction changes its stream alone, by the rule of its position. -/
theorem manifestLoopsStridesAndEnds : Obligations.ManifestLoopsStridesAndEnds := by
  unfold Obligations.ManifestLoopsStridesAndEnds
  refine ⟨?enter, ?skip, ?stride, ?align, ?fin⟩
  case enter =>
    intro s n body count h hcount hbody x
    refine ⟨_, exec_loop h, onlyStream_setStream .., ?_⟩
    rw [stream_setStream_self, enter_some _ hcount hbody]
  case skip =>
    intro s n body h x r
    refine ⟨_, exec_loop h, onlyStream_setStream .., ?_⟩
    rw [stream_setStream_self, enter_none]
    rfl
  case stride =>
    intro s n c set value h hc x v r low high
    obtain ⟨l, moved⟩ := moveCursor_inRange (s := s) (n := n) (c := c) low high
    refine ⟨_, exec_stride h, ?_⟩
    rw [moved]
    refine ⟨onlyStream_putStream .., ?_⟩
    rw [stream_putStream_self, step_setCursor]
  case align =>
    intro s n c lg h hc positive x v r high
    obtain ⟨l, moved⟩ := moveCursor_inRange (s := s) (n := n) (c := c) (v := (v : Int)) (by omega) (by exact_mod_cast high)
    refine ⟨_, (exec_align h).trans (congrArg _ moved), onlyStream_putStream .., ?_⟩
    rw [stream_putStream_self, step_setCursor]
  case fin =>
    intro s n h x
    obtain ⟨f, rcv, same, whole, closed⟩ := closeTile_cases x
    refine ⟨_, exec_manifestEnd h, onlyStream_setStream .., ?_⟩
    rw [stream_setStream_self, show s.stream n = x from rfl]
    refine ⟨rfl, rfl, ?_, ?_, ?_, ?_, fun none' => ?_⟩
    · simp only [Stream.dropDone, closed]
    · simp only [Stream.dropDone, closed]
    · simp only [Stream.dropDone, closed]
    · simp [Stream.dropDone, closed, List.filter_map, Function.comp_def, same]
    · simp only [Stream.dropDone, whole none']

/-- Settles O19: a WAITSLOT goes on or waits by its condition, and a SIGNAL is a write of its word through the bit-set view. -/
theorem streamsWaitAndSignal : Obligations.StreamsWaitAndSignal := by
  unfold Obligations.StreamsWaitAndSignal
  refine ⟨?slots, ?barrier, ?signal, ?unwritten⟩
  case slots =>
    intro s n k h x r clear
    refine ⟨_, exec_waitslotSlot (heldInsn_of h), ?_⟩
    rw [waitSlotted_eq]
    refine ⟨onlyStream_putStream .., fun h => ?_, fun h => ?_⟩
    · rw [stream_putStream_self, if_pos (slotsClear_iff.2 h)]; rfl
    · rw [stream_putStream_self, if_neg (mt slotsClear_iff.1 h)]
  case barrier =>
    intro s s' n first count addr bs read x r set after
    have same : s'.stream n = s.stream n := (reports_read read).stream n
    have held : after (s.waitBarrier n first count addr) := by
      rw [waitBarrier_read read, waitSlotted_eq, same]
      refine ⟨rfl, fun m other => ?_, fun h => ?_, fun h => ?_⟩
      · exact ((onlyStream_putStream s' n _).2 m other).trans ((reports_read read).stream m)
      · rw [stream_putStream_self, if_pos (by simpa using h)]; rfl
      · rw [stream_putStream_self, if_neg (by simpa using h)]
    exact ⟨fun h => ⟨_, exec_waitslotBarrier h, held⟩,
      fun live waiting barrier insn => ⟨_, exec_waitslotReread barrier (heldInsn_of (.inr ⟨live, waiting, insn⟩)), held⟩⟩
  case signal =>
    intro s n b addr h written hb aligned low high unveiled unmarked x
    split
    next d w hw =>
    intro running scratch admits r
    obtain ⟨t, stored, bytes, frame⟩ := barrierWrite_scratch (r := s.streamReq (s.stream n)) (v := 1) (mask := 2 ^ b) (by omega) aligned
      low high unveiled unmarked hw running scratch (ne_zero_of_bit admits) admits
    have same : t.streams = s.streams := by rw [frame]
    refine ⟨_, exec_signal h (allWritten_iff.2 written) stored, fun i hi => ?_, fun a outside => ?_, ?_, fun m other => ?_, ?_, ?_, ?_⟩
    · exact (bytes (addr + i)).trans (by rw [if_pos (by omega), Nat.add_sub_cancel_left]; rfl)
    · exact (bytes a).trans (if_neg (by omega))
    · rw [stream_setStream_self, State.stream, same]; rfl
    · exact ((onlyStream_setStream t n _).2 m other).trans (by rw [State.stream, same]; rfl)
    · change t.jobs = _; rw [frame]
    · change t.ctxs = _; rw [frame]
    · change t.out = _; rw [frame]
  case unwritten =>
    intro s n b addr h late
    change execSignal n s = _
    rw [execSignal, insnOf_of_AtInsn h]
    dsimp only
    rw [if_neg]
    rw [allWritten_iff]
    simpa using late

end Sys2Proof.Safety
end


section
/-! SUPPORT. Transfers (R197, R198, R201): the 256 B pieces of a range, the units that a transfer queues, and reads that change nothing. -/

namespace Sys2Proof.Machine

open Sys2Proof.Safety

/-! ### Pieces -/

/-- Every piece is within the range and within one unit of 256 B. -/
theorem mem_pieces {f a n : Nat} {p : Nat × Nat} (h : p ∈ pieces f a n) :
    0 < p.2 ∧ a ≤ p.1 ∧ p.1 + p.2 ≤ a + n ∧ p.1 / 256 = (p.1 + p.2 - 1) / 256 := by
  induction f generalizing a n with
  | zero => simp [pieces] at h
  | succ f ih =>
    rw [pieces] at h
    split at h
    next => simp at h
    next some' =>
      have some' : n ≠ 0 := by simpa using some'
      rcases List.mem_cons.1 h with rfl | h
      · dsimp only; omega
      · obtain ⟨pos, low, high, one⟩ := ih h
        omega

theorem pieces_none (f a : Nat) : pieces f a 0 = [] := by cases f <;> rfl

/-- With enough fuel the pieces are the whole range. -/
theorem sum_pieces {f a n : Nat} (h : a % 256 + n ≤ 256 * f) : ((pieces f a n).map (·.2)).sum = n := by
  induction f generalizing a n with
  | zero => simp [pieces]; omega
  | succ f ih =>
    rw [pieces]
    split
    next none' => simpa using (show n = 0 by simpa using none').symm
    next some' =>
      rw [List.map_cons, List.sum_cons]
      dsimp only
      by_cases one : n ≤ 256 - a % 256
      · rw [Nat.min_eq_left one, Nat.sub_self, pieces_none]; simp
      · rw [Nat.min_eq_right (by omega), ih (by omega)]; omega

theorem sum_piecesOf (a n : Nat) : ((piecesOf a n).map (·.2)).sum = n := sum_pieces (by omega)

/-! ### The units of a transfer -/

theorem filter_zipIdx_from {α : Type} (l : List α) (j k : Nat) :
    ((l.zipIdx j).filter fun e => decide (k ≤ e.2) && decide (e.2 < j + l.length)).map (·.1) = l.drop (k - j) := by
  induction l generalizing j with
  | nil => simp
  | cons x l ih =>
    have rest : ((l.zipIdx (j + 1)).filter fun e => decide (k ≤ e.2) && decide (e.2 < j + (x :: l).length)).map (·.1) = l.drop (k - (j + 1)) := by
      rw [← ih (j + 1), List.length_cons, Nat.add_right_comm, ← Nat.add_assoc]
    rw [List.zipIdx_cons, List.filter_cons]
    by_cases later : k ≤ j
    · rw [if_pos (by simp [later]), List.map_cons, rest, show k - j = 0 by omega, show k - (j + 1) = 0 by omega]
      rfl
    · rw [if_neg (by simp [later]), rest, show k - j = (k - (j + 1)) + 1 by omega]
      rfl

/-- A transfer of which no unit breaks a bound queues its units from the k-th on, each with its piece, and ends its tile or adds to it. -/
theorem queueTransfer_spec (s : State) (x : Stream) (src dst len k : Nat) (tileEnd : Bool) (at' : Nat → Pos) : ∃ us start,
    s.queueTransfer x src dst len k (piecesOf src len).length tileEnd at' =
      ({ x with units := x.units ++ us, tileAt := start,
                pos := { x.pos with tile := if tileEnd then x.pos.tile + 1 else x.pos.tile,
                                    tileBytes := if tileEnd then 0 else x.pos.tileBytes + len } },
       { s with seq := s.seq + us.length }) ∧
    us.map (·.len) = (if x.pos.tile < x.skipTo then [] else ((piecesOf src len).drop k).map (·.2)) ∧
    ∀ w ∈ us, w.st = .queued ∧ w.tile = x.pos.tile ∧ ∃ p ∈ piecesOf src len, w.src = p.1 ∧ w.len = p.2 ∧ w.dst = dst + (p.1 - src) := by
  unfold State.queueTransfer
  extract_lets p start ps us0 us x1
  refine ⟨us, start, ?_, ?_, ?_⟩
  · cases tileEnd <;> rfl
  · have pieces' : ((ps.zipIdx.filter fun e => decide (k ≤ e.2) && decide (e.2 < ps.length)).map (·.1)) = ps.drop k := by
      simpa using filter_zipIdx_from ps 0 k
    simp only [us]
    split
    · rfl
    · rw [← pieces', ← List.zipIdx_map_fst 0 (ps.zipIdx.filter _), List.map_map, List.map_map, List.map_map]
      rfl
  · intro w hw
    simp only [us] at hw
    split at hw
    · simp at hw
    · obtain ⟨e, he, rfl⟩ := List.mem_map.1 hw
      refine ⟨rfl, rfl, e.1.1, ?_, rfl, rfl, rfl⟩
      have kept := List.mem_filter.1 (List.fst_mem_of_mem_zipIdx he)
      exact List.fst_mem_of_mem_zipIdx kept.1

/-! ### Bounds -/

theorem pastMooring_mono {s : State} {x : Stream} {a b : Nat} (h : s.pastMooring x b = false) (le : a ≤ b) : s.pastMooring x a = false := by
  unfold State.pastMooring at *
  cases local' : x.dstKind == 0 with
  | false => rfl
  | true =>
    rw [local', Bool.true_and, List.any_eq_false] at h
    rw [Bool.true_and, List.any_eq_false]
    intro r hr past
    have := h r hr
    simp only [Bool.and_eq_true, decide_eq_true_eq] at this past
    exact this ⟨past.1, by omega⟩

/-- No unit breaks a bound where the whole transfer keeps them (R197, R198). -/
theorem unitPast_none {s : State} {x : Stream} {src dst len : Nat} (hsrc : src + len ≤ 2 ^ 48) (hdst : dst + len ≤ 2 ^ 48)
    (mooring : s.pastMooring x (dst + len) = false) (tile : x.pos.tileBytes + len ≤ 1024 * (x.tileMax + 1)) :
    s.unitPast x src dst (piecesOf src len) = none := by
  rw [State.unitPast, List.findIdx?_eq_none_iff]
  intro p hp
  obtain ⟨pos, low, high, _⟩ := mem_pieces hp
  have within : s.pastMooring x (dst + (p.1 + p.2 - src)) = false := pastMooring_mono mooring (by omega)
  simp only [within, Bool.or_false, Bool.or_eq_false_iff, decide_eq_false_iff_not]
  omega

/-- A transfer within its bounds is queued, and `go` gives the stream after it. -/
theorem transfer_within {s : State} {n src dst len : Nat} (within : s.unitPast (s.stream n) src dst (piecesOf src len) = none) (k : Nat)
    (tileEnd : Bool) (at' : Nat → Pos) (go : Stream → State → State) : s.transfer n src dst len k tileEnd false at' go =
      go (s.queueTransfer (s.stream n) src dst len k (piecesOf src len).length tileEnd at').1
        (s.queueTransfer (s.stream n) src dst len k (piecesOf src len).length tileEnd at').2 := by
  unfold State.transfer
  dsimp only
  rw [within]
  rfl

theorem inRange_iff {v : Int} : inRange v = true ↔ 0 ≤ v ∧ v < 2 ^ 48 := by
  simp [inRange]

/-! ### Reads that change nothing -/

/-- A state in which only streams and the age of the next unit differ. -/
def Restreams (s u : State) : Prop := u = { s with streams := u.streams, seq := u.seq }

theorem places_restreams {s u : State} (h : Restreams s u) (r : Req) (wr : Bool) (ps : List (Nat × Nat)) : u.places r wr ps = s.places r wr ps := by
  induction ps with
  | nil => rfl
  | cons p ps ih =>
    have here : u.locate r wr p.1 = s.locate r wr p.1 := by rw [h]; rfl
    rw [State.places, State.places, here, ih]

theorem fillWins_restreams {s u : State} (h : Restreams s u) (ps : List (Nat × Nat)) (same : s.fillWins ps = s) : u.fillWins ps = u := by
  have moves (ps : List (Nat × Nat)) : ∀ s u : State, Restreams s u → u.fillWins ps = { s.fillWins ps with streams := u.streams, seq := u.seq } := by
    induction ps with
    | nil => exact fun s u h => h
    | cons p ps ih =>
      intro s u h
      have here : u.fillWin p.1 = { s.fillWin p.1 with streams := u.streams, seq := u.seq } := by
        have page : u.winPage (p.1 / 65536) = s.winPage (p.1 / 65536) := by rw [h]; rfl
        unfold State.fillWin
        rw [page]
        split
        · exact h
        · split
          · rw [h]
          · exact h
      have next := ih (s.fillWin p.1) (u.fillWin p.1) (by rw [here]; rfl)
      rw [State.fillWins, List.foldl_cons, ← State.fillWins, next, here]
      rfl
  rw [moves ps s u h, same]
  exact h.symm

/-- A read that changes nothing corrects no word. -/
theorem weakOf_of_read_same {s : State} {ps : List (Nat × Nat)} {ws : List Nat} (same : (s.correctWords ws).fillWins ps = s) : s.weakOf ws = [] := by
  have marks : (s.ecc.filter fun e => !((s.weakOf ws).contains e.1)) = s.ecc := by
    have corrected : (s.correctWords ws).ecc = s.ecc.filter fun e => !((s.weakOf ws).contains e.1) :=
      congrArg Contents.ecc (contents_correctWords s ws)
    have filled : ((s.correctWords ws).fillWins ps).ecc = (s.correctWords ws).ecc := by rw [fillWins_frame]
    rw [← corrected, ← filled, same]
  rw [List.eq_nil_iff_forall_not_mem]
  intro w hw
  have weak : Tab.find w s.ecc = some false := by
    simpa [State.weakWord] using (List.mem_filter.1 (List.mem_dedup.1 hw)).2
  rw [← marks, Tab.find_filter (fun k => !((s.weakOf ws).contains k)), if_neg (by simp [hw])] at weak
  cases weak

/-- With no correctable word there is nothing to correct. -/
theorem correctWords_none {s : State} {ws : List Nat} (h : s.weakOf ws = []) : s.correctWords ws = s := by
  unfold State.weakOf at h
  unfold State.correctWords
  simp [h]

/-- A read that changes nothing answers the same where only streams differ. -/
theorem read_restreams {s u : State} (h : Restreams s u) {r : Req} {a n : Nat} {bs : List Byte} (read : s.read r a n = .ok (bs, s)) :
    u.read r a n = .ok (bs, u) := by
  unfold State.read at *
  rw [places_restreams h]
  split at read
  next => cases read
  next ls _ =>
    dsimp only at read ⊢
    have bad : u.badWord = s.badWord := by rw [h]; rfl
    have bytes (l : Loc) (k : Nat) : u.placeBytes l k = s.placeBytes l k := by rw [h]; rfl
    rw [bad]
    split at read
    next => cases read
    next clean =>
      rw [if_neg clean]
      have same := (Prod.mk.inj (Except.ok.inj read)).2
      have weak := weakOf_of_read_same same
      rw [correctWords_none weak] at same
      have weak' : u.weakOf (ls.flatMap fun p => p.1.words p.2) = [] := by rw [h]; exact weak
      rw [correctWords_none weak', fillWins_restreams h _ same, ← (Prod.mk.inj (Except.ok.inj read)).1]
      simp only [bytes]

/-! ### EMIT and GATHER -/

theorem exec_emit {s : State} {n len : Nat} {tile noadv : Bool} (h : AtInsn s n (.emit tile noadv len)) :
    exec (.emit n) s = .next ((s.runEmit n tile noadv len).detachSlow n) := by
  change execEmit n s = _
  rw [execEmit, insnOf_of_AtInsn h]

theorem exec_gather {s : State} {n row count pitch : Nat} {tile idx64 : Bool} (h : AtInsn s n (.gather tile idx64 row count pitch)) :
    exec (.gather n) s = .next ((s.runRows n tile idx64 row pitch (count - (s.stream n).pos.off)).detachSlow n) := by
  change execGather n s = _
  rw [execGather, insnOf_of_AtInsn h]

/-- A GATHER moves at least one byte a row (Table 05.3). -/
theorem row_pos_of_gather {w row count pitch : Nat} {tile idx64 : Bool} (h : decodeInsn w = some (.gather tile idx64 row count pitch)) :
    0 < row := by
  have read : decodeGather w = some (.gather tile idx64 row count pitch) := by
    unfold decodeInsn at h
    split at h
    · split at h <;> cases h
    · unfold decodeLoop at h; split at h <;> cases h
    · unfold decodeStride at h; split at h <;> cases h
    · unfold decodeEmit at h; split at h <;> cases h
    · exact h
    · unfold decodeAlign at h; split at h <;> cases h
    · unfold decodeWait at h; split at h
      · split at h <;> cases h
      · split at h <;> cases h
    · unfold decodeSignal at h; split at h <;> cases h
    · cases h
  unfold decodeGather at read
  split at read
  next fits =>
    cases read
    simp only [Bool.and_eq_true, bne_iff_ne] at fits
    omega
  next => cases read

/-- An EMIT within its bounds queues its units and moves both cursors unless NOADV (R196). -/
theorem runEmit_within {s : State} {n len : Nat} {tile noadv : Bool} {us : List SUnit} {start : Pos}
    (within : s.unitPast (s.stream n) (s.stream n).pos.src.toNat (s.stream n).pos.dst.toNat (piecesOf (s.stream n).pos.src.toNat len) = none)
    (ranges : (inRange (if noadv then (s.stream n).pos.src else (s.stream n).pos.src + len) &&
      inRange (if noadv then (s.stream n).pos.dst else (s.stream n).pos.dst + len)) = true)
    (queued : s.queueTransfer (s.stream n) (s.stream n).pos.src.toNat (s.stream n).pos.dst.toNat len ((s.stream n).pos.off / 256)
        (piecesOf (s.stream n).pos.src.toNat len).length tile (fun i => { (s.stream n).pos with off := 256 * i }) =
      ({ s.stream n with
          units := (s.stream n).units ++ us, tileAt := start,
          pos := { (s.stream n).pos with
            tile := if tile then (s.stream n).pos.tile + 1 else (s.stream n).pos.tile,
            tileBytes := if tile then 0 else (s.stream n).pos.tileBytes + len } },
        { s with seq := s.seq + us.length })) : ∃ left,
    s.runEmit n tile noadv len = ({ s with seq := s.seq + us.length } : State).putStream n { s.stream n with
      units := (s.stream n).units ++ us, tileAt := start, left := left,
      pos := { (s.stream n).pos with
        src := if noadv then (s.stream n).pos.src else (s.stream n).pos.src + len,
        dst := if noadv then (s.stream n).pos.dst else (s.stream n).pos.dst + len, off := 0,
        tile := if tile then (s.stream n).pos.tile + 1 else (s.stream n).pos.tile,
        tileBytes := if tile then 0 else (s.stream n).pos.tileBytes + len,
        pc := (closeLoops (s.stream n).pos.pc ((s.stream n).pos.pc + 1) (s.stream n).pos.loops).2,
        loops := (closeLoops (s.stream n).pos.pc ((s.stream n).pos.pc + 1) (s.stream n).pos.loops).1 } } := by
  unfold State.runEmit
  cases noadv with
  | true =>
    have ranges' : (inRange (s.stream n).pos.src && inRange (s.stream n).pos.dst) = true := ranges
    dsimp only
    rw [if_pos rfl, ranges', Bool.not_true, transfer_within within, queued]
    dsimp only
    rw [leaveSlots_eq]
    exact ⟨_, rfl⟩
  | false =>
    have ranges' : (inRange ((s.stream n).pos.src + len) && inRange ((s.stream n).pos.dst + len)) = true := ranges
    dsimp only
    rw [if_neg Bool.false_ne_true, ranges', Bool.not_true, transfer_within within, queued]
    dsimp only
    rw [leaveSlots_eq]
    exact ⟨_, rfl⟩

/-- One row of a GATHER within its bounds is queued at its index's address, and the index and destination cursors go on (R196). -/
theorem runRow_within {u : State} {n row pitch w : Nat} {tile idx64 : Bool} {bs : List Byte} (hw : w = if idx64 then 8 else 4)
    (read : u.read (u.streamReq (u.stream n)) (u.stream n).pos.idx.toNat w = .ok (bs, u))
    (low : (u.stream n).pos.src.toNat + leNat bs * 2 ^ pitch < 2 ^ 48)
    (ranges : (inRange ((u.stream n).pos.idx + w) && inRange ((u.stream n).pos.dst + row)) = true)
    (within : u.unitPast (u.stream n) ((u.stream n).pos.src.toNat + leNat bs * 2 ^ pitch) (u.stream n).pos.dst.toNat
      (piecesOf ((u.stream n).pos.src.toNat + leNat bs * 2 ^ pitch) row) = none) : ∃ (vs : List SUnit) (start : Pos) (left : List (Nat × Nat)),
    u.runRow n tile idx64 row pitch = ((u.stream n).st == .running, { u with seq := u.seq + vs.length }.putStream n { u.stream n with
      units := (u.stream n).units ++ vs, tileAt := start, left := left,
      pos := { (u.stream n).pos with
        idx := (u.stream n).pos.idx + w, dst := (u.stream n).pos.dst + row, off := (u.stream n).pos.off + 1,
        tile := if tile then (u.stream n).pos.tile + 1 else (u.stream n).pos.tile,
        tileBytes := if tile then 0 else (u.stream n).pos.tileBytes + row } }) ∧
    vs.map (·.len) = (if (u.stream n).pos.tile < (u.stream n).skipTo then []
      else (piecesOf ((u.stream n).pos.src.toNat + leNat bs * 2 ^ pitch) row).map (·.2)) ∧
    ∀ v ∈ vs, v.st = .queued ∧ ∃ p ∈ piecesOf ((u.stream n).pos.src.toNat + leNat bs * 2 ^ pitch) row,
      v.src = p.1 ∧ v.len = p.2 ∧ v.dst = (u.stream n).pos.dst.toNat + (p.1 - ((u.stream n).pos.src.toNat + leNat bs * 2 ^ pitch)) := by
  obtain ⟨vs, start, queued, lens, each⟩ := queueTransfer_spec u (u.stream n) ((u.stream n).pos.src.toNat + leNat bs * 2 ^ pitch)
    (u.stream n).pos.dst.toNat row 0 tile fun _ => (u.stream n).pos
  refine ⟨vs, start, ?_, ?_, by simpa using lens, fun v hv => ⟨(each v hv).1, (each v hv).2.2⟩⟩
  rotate_left
  · unfold State.runRow
    dsimp only
    rw [← hw, read]
    dsimp only
    rw [if_neg (by omega), ranges, Bool.not_true, transfer_within within, queued]
    dsimp only
    rw [leaveSlots_eq, stream_putStream_self]
  

/-- A state u that i rows of a GATHER of stream n have made of s, with the units that they queued; `e` are the indices (R196). -/
structure GatheredRows (s : State) (n : Nat) (tile : Bool) (w row pitch : Nat) (e : Nat → Nat) (i : Nat) (u : State) (us : List SUnit) : Prop where
  frame : u = { s with streams := u.streams, seq := s.seq + us.length }
  others : ∀ m, m ≠ n → u.stream m = s.stream m
  stream : u.stream n = { s.stream n with
    units := (s.stream n).units ++ us, tileAt := (u.stream n).tileAt, left := (u.stream n).left,
    pos := { (s.stream n).pos with
      idx := (s.stream n).pos.idx + w * i, dst := (s.stream n).pos.dst + row * i, off := (s.stream n).pos.off + i,
      tile := (s.stream n).pos.tile + (if tile then i else 0),
      tileBytes := if tile then (if i = 0 then (s.stream n).pos.tileBytes else 0) else (s.stream n).pos.tileBytes + row * i } }
  lengths : (us.map (·.len)).sum = row * i
  units : ∀ v ∈ us, v.st = .queued ∧ ∃ j, j < i ∧ (s.stream n).pos.src.toNat + e j * 2 ^ pitch ≤ v.src ∧
    v.src + v.len ≤ (s.stream n).pos.src.toNat + e j * 2 ^ pitch + row ∧
    v.dst + ((s.stream n).pos.src.toNat + e j * 2 ^ pitch) = (s.stream n).pos.dst.toNat + row * j + v.src

/-- What a GATHER of k rows asks for to be queued whole: cursors and tiles within their bounds, and every index read (R197, R198). -/
structure GatherFits (s : State) (n : Nat) (tile : Bool) (w row pitch : Nat) (e : Nat → Nat) (k : Nat) : Prop where
  running : (s.stream n).st = .running
  row0 : 0 < row
  src0 : 0 ≤ (s.stream n).pos.src
  dst0 : 0 ≤ (s.stream n).pos.dst
  idx0 : 0 ≤ (s.stream n).pos.idx
  idxTop : (s.stream n).pos.idx + w * k < 2 ^ 48
  dstTop : (s.stream n).pos.dst + row * k < 2 ^ 48
  skip : (s.stream n).skipTo ≤ (s.stream n).pos.tile
  rows : ∀ i, i < k →
    (∃ bs, s.read (s.streamReq (s.stream n)) ((s.stream n).pos.idx.toNat + w * i) w = .ok (bs, s) ∧ leNat bs = e i) ∧
    (s.stream n).pos.src.toNat + e i * 2 ^ pitch + row ≤ 2 ^ 48 ∧
    s.pastMooring (s.stream n) ((s.stream n).pos.dst.toNat + row * (i + 1)) = false
  tileTop : (s.stream n).pos.tileBytes + row * (if tile then 1 else k) ≤ 1024 * ((s.stream n).tileMax + 1)
  rowTop : row ≤ 1024 * ((s.stream n).tileMax + 1)

section
variable {s : State} {n row pitch k w : Nat} {tile idx64 : Bool} {e : Nat → Nat}

theorem gatheredRows_none : GatheredRows s n tile w row pitch e 0 s [] where
  frame := rfl
  others := fun _ _ => rfl
  stream := by cases tile <;> simp
  lengths := rfl
  units := by simp

/-- One more row of a GATHER is queued. -/
theorem gatheredRows_row (fits : GatherFits s n tile w row pitch e k) (hw : w = if idx64 then 8 else 4) {i : Nat} (hi : i < k) {u : State}
    {us : List SUnit} (h : GatheredRows s n tile w row pitch e i u us) :
    ∃ t vs, u.runRow n tile idx64 row pitch = (true, t) ∧ GatheredRows s n tile w row pitch e (i + 1) t vs := by
  obtain ⟨running, row0, src0, dst0, idx0, idxTop, dstTop, skip, rows, tileTop, rowTop⟩ := fits
  obtain ⟨⟨bs, read, index⟩, srcTop, mooring⟩ := rows i hi
  obtain ⟨frame, others, stream, lengths, units⟩ := h
  have rowStep : row * (i + 1) = row * i + row := Nat.mul_succ row i
  have rowMore : row * i + row ≤ row * k := rowStep ▸ Nat.mul_le_mul_left row hi
  have idxMore : w * i + w ≤ w * k := Nat.mul_succ w i ▸ Nat.mul_le_mul_left w hi
  have pos := congrArg Stream.pos stream
  dsimp only at pos
  have idx : (u.stream n).pos.idx.toNat = (s.stream n).pos.idx.toNat + w * i := by rw [pos]; dsimp only; omega
  have src : (u.stream n).pos.src = (s.stream n).pos.src := by rw [pos]
  have dst : (u.stream n).pos.dst.toNat = (s.stream n).pos.dst.toNat + row * i := by rw [pos]; dsimp only; omega
  have asks : u.streamReq (u.stream n) = s.streamReq (s.stream n) := by rw [stream, frame]; rfl
  have readU := read_restreams (show Restreams s u by rw [Restreams, frame]) read
  rw [← asks, ← idx] at readU
  have within : u.unitPast (u.stream n) ((s.stream n).pos.src.toNat + e i * 2 ^ pitch) ((s.stream n).pos.dst.toNat + row * i)
      (piecesOf ((s.stream n).pos.src.toNat + e i * 2 ^ pitch) row) = none := by
    refine unitPast_none srcTop (by omega) ?_ ?_
    · rw [stream, frame, Nat.add_assoc, ← rowStep]
      exact mooring
    · rw [stream]; dsimp only
      cases tile with
      | true =>
        rw [if_pos rfl, Nat.mul_one] at tileTop
        rw [if_pos rfl]
        split <;> omega
      | false =>
        rw [if_neg Bool.false_ne_true] at tileTop ⊢
        omega
  have ranges : (inRange ((u.stream n).pos.idx + w) && inRange ((u.stream n).pos.dst + row)) = true := by
    rw [Bool.and_eq_true, inRange_iff, inRange_iff, pos]; dsimp only; omega
  rw [← src, ← index, ← dst] at within
  obtain ⟨vs, start, left, ran, lens, each⟩ := runRow_within hw readU (by rw [src, index]; omega) ranges within
  have skipped : ¬ (u.stream n).pos.tile < (u.stream n).skipTo := by
    rw [pos, congrArg Stream.skipTo stream]; dsimp only; split <;> omega
  rw [if_neg skipped, src, index] at lens
  rw [src, index, dst] at each
  refine ⟨_, us ++ vs, ran.trans (by rw [congrArg Stream.st stream, running]; rfl), ?_, fun m other => ?_, ?_, ?_, fun v hv => ?_⟩
  · rw [frame]; simp [State.putStream, Nat.add_assoc]
  · exact ((onlyStream_putStream _ n _).2 m other).trans (others m other)
  · rw [stream_putStream_self, stream]
    dsimp only
    congr 1
    · cases tile <;> simp [Nat.mul_succ, Int.mul_add, Int.add_assoc, Nat.add_assoc]
    · exact List.append_assoc ..
  · rw [List.map_append, List.sum_append, lengths, lens, sum_piecesOf, rowStep]
  · rcases List.mem_append.1 hv with old | new
    · obtain ⟨queued, j, hj, place⟩ := units v old
      exact ⟨queued, j, by omega, place⟩
    · obtain ⟨queued, p, hp, hsrc, hlen, hdst⟩ := each v new
      obtain ⟨_, low, high, _⟩ := mem_pieces hp
      refine ⟨queued, i, by omega, ?_⟩
      rw [hsrc, hlen, hdst]
      omega

/-- The rows that are left are queued, and the stream goes on to the next instruction. -/
theorem runRows_eq (fits : GatherFits s n tile w row pitch e k) (hw : w = if idx64 then 8 else 4) {left i : Nat} (hleft : i + left = k) {u : State}
    {us : List SUnit} (h : GatheredRows s n tile w row pitch e i u us) : ∃ t vs, GatheredRows s n tile w row pitch e k t vs ∧
      u.runRows n tile idx64 row pitch left = t.setStream n fun x => { x with pos := x.pos.step } := by
  induction left generalizing i u us with
  | zero => exact ⟨u, us, (show i = k from hleft) ▸ h, rfl⟩
  | succ left ih =>
    obtain ⟨t, vs, ran, next⟩ := gatheredRows_row (idx64 := idx64) fits hw (by omega) h
    obtain ⟨t', vs', whole, rest⟩ := ih (by omega) next
    exact ⟨t', vs', whole, by rw [State.runRows, ran, ← rest]⟩

end

end Sys2Proof.Machine
end

section
/-! The statement about transfers. -/

namespace Sys2Proof.Safety

open Sys2Proof.Machine

/-- Settles O18: an EMIT is one transfer within its bounds, and a GATHER one transfer for each row (`runRows_eq`). -/
theorem transfersQueueTheirBytes : Obligations.TransfersQueueTheirBytes := by
  unfold Obligations.TransfersQueueTheirBytes
  refine ⟨?emit, ?gather⟩
  case emit =>
    intro s n tile noadv len h
    dsimp only
    intro src0 dst0 srcTop dstTop mooring tileTop
    have within : s.unitPast (s.stream n) (s.stream n).pos.src.toNat (s.stream n).pos.dst.toNat (piecesOf (s.stream n).pos.src.toNat len) = none :=
      unitPast_none (by omega) (by omega) mooring tileTop
    refine ⟨_, exec_emit h, ?_⟩
    obtain ⟨us, start, queued, lens, each⟩ := queueTransfer_spec s (s.stream n) (s.stream n).pos.src.toNat (s.stream n).pos.dst.toNat len
      ((s.stream n).pos.off / 256) tile fun i => { (s.stream n).pos with off := 256 * i }
    refine ⟨us, _, rfl, ?_⟩
    obtain ⟨left, ran⟩ := runEmit_within (noadv := noadv) within (by
      rw [Bool.and_eq_true, inRange_iff, inRange_iff]; split <;> omega) queued
    rw [ran]
    refine ⟨(onlyStream_putStream _ n _).2, rfl, ?_, ?_, ?_, ?_⟩
    · rw [stream_putStream_self]
    · rw [lens]; split <;> rfl
    · intro off0 skip
      rw [lens, if_neg (Nat.not_lt.2 skip), off0]
      exact sum_piecesOf ..
    · intro w hw
      obtain ⟨st, tile', q, hq, hsrc, hlen, hdst⟩ := each w hw
      obtain ⟨pos, low, high, one⟩ := mem_pieces hq
      rw [hsrc, hlen, hdst]
      exact ⟨st, pos, one, tile', by omega, by omega, by omega⟩
  case gather =>
    intro s n tile idx64 row count pitch e h x p w k r src0 dst0 idx0 idxTop dstTop skip rows tileTop rowTop
    obtain ⟨live, running, free, word, _, insn⟩ := id h
    have fits : GatherFits s n tile w row pitch e k :=
      { running, row0 := row_pos_of_gather insn, src0, dst0, idx0, idxTop, dstTop, skip, rows, tileTop, rowTop }
    obtain ⟨u, us, ⟨frame, others, stream, lengths, units⟩, ran⟩ := runRows_eq fits rfl (Nat.zero_add k) gatheredRows_none
    refine ⟨_, exec_gather h, us, _, congrArg (State.detachSlow · n) ran, ?_⟩
    refine ⟨fun m other => ((onlyStream_setStream u n _).2 m other).trans (others m other), ?_, ?_⟩
    · rw [State.setStream, State.putStream]
      rw [frame]
    · rw [stream_setStream_self, stream]
      exact ⟨rfl, rfl, rfl, rfl, rfl, rfl, rfl, rfl, lengths, units⟩

end Sys2Proof.Safety
end


section
/-! SUPPORT. Starting a stream from its binding (R189 to R192), and reservations (R228, R229). -/

namespace Sys2Proof.Machine

open Sys2Proof.Safety

section
variable {s : State} {n job unit task bind : Nat} {j : Job} {u : UnitRun}

/-- What STREAM_START asks for: a live device, a stevedore in service, a free context, and a binding of a placed task not yet started. -/
structure StartsStream (s : State) (n job unit task bind : Nat) (j : Job) (u : UnitRun) : Prop where
  live : Live s
  stevedore : s.stevedoreOk (stevedoreOf n) = true
  free : (s.stream n).st = .free
  admitted : s.job job = some j
  whole : s.modelWhole j.model = true
  found : j.units.find? (fun v => v.no == unit) = some u
  dispatched : u.dispatched = true
  exists' : bind < u.binds
  placed : (j.placed unit task).isSome = true
  first : u.started.contains (task, bind) = false

theorem exec_streamStart (h : StartsStream s n job unit task bind j u) : exec (.streamStart n job unit task bind) s =
    .next (s.loadStream n j u { task := task, owner := task, bind := bind, tile := u.skipOf task bind }) := by
  obtain ⟨live, stevedore, free, admitted, whole, found, dispatched, exists', placed, first⟩ := h
  change execStreamStart n job unit task bind s = _
  rw [execStreamStart, if_pos (by simp [live_of_Live live, stevedore, free]), admitted]
  dsimp only
  rw [found]
  dsimp only
  rw [if_pos (by rw [dispatched, whole, placed, first]; simp [exists'])]

/-- Where a binding lies in the image of its model. -/
def State.bindingAt (s : State) (j : Job) (u : UnitRun) (f : BindRef) : Nat :=
  (s.model j.model).image + (s.model j.model).bindOff + 64 * (u.firstBind + f.owner * u.binds + f.bind)

variable {f : BindRef}

theorem loadStream_unread {e : AccErr} (h : s.read {} (s.bindingAt j u f) 64 = .error e) :
    s.loadStream n j u f = s.haltStart n j u f e (s.bindingAt j u f) := by
  unfold State.bindingAt at h ⊢
  unfold State.loadStream
  dsimp only
  rw [h]

theorem loadStream_malformed {bs : List Byte} {s1 : State} (h : s.read {} (s.bindingAt j u f) 64 = .ok (bs, s1))
    (bad : bindingOk bs (4096 * u.mooring) = false) : s.loadStream n j u f = s1.endJob j stMalformed 0 none := by
  unfold State.bindingAt at h
  unfold State.loadStream
  dsimp only
  rw [h]
  dsimp only
  rw [bad]
  rfl

/-- A well-formed binding that is no multicast feeds its own task, once its manifest is read. -/
theorem loadStream_single {bs : List Byte} {s1 s2 : State} {ws : List Nat} (h : s.read {} (s.bindingAt j u f) 64 = .ok (bs, s1))
    (good : bindingOk bs (4096 * u.mooring) = true) (single : (bindingOf bs).multicast = false)
    (manifest : s1.manifestWords { cls := some (bindingOf bs).cls, model := some (j.model, j.version) } (bindingOf bs).manifest 32 = .ok (ws, s2)) :
    (manifestOk ws = false → s.loadStream n j u f = s2.endJob j stMalformed 0 none) ∧
    (∀ p, manifestOk ws = true → f.catching = false → j.placed u.no f.task = some p → s.loadStream n j u f =
      (s2.putStream n { s2.newStream j u.no f (bindingOf bs) [s2.receiver (bindingOf bs).halfSel f.task f.tile p] ws with
        gen := (s2.stream n).gen }).putJob (j.startedBind u.no f false)) := by
  have tasks : s1.receiverTasks { cls := some (bindingOf bs).cls, model := some (j.model, j.version) } (bindingOf bs) f u.tasks.length =
      .ok (some [f.task], s1) := by rw [State.receiverTasks, single]; rfl
  have words : s1.bindingManifest { cls := some (bindingOf bs).cls, model := some (j.model, j.version) } (bindingOf bs).manifest = .ok (ws, s2) := by
    rw [State.bindingManifest, manifest]
  unfold State.bindingAt at h
  unfold State.loadStream
  dsimp only
  rw [h]
  dsimp only
  rw [good, tasks]
  dsimp only
  rw [words]
  dsimp only
  constructor
  · intro bad
    rw [bad]; rfl
  · intro p ok notCatching placed
    rw [ok]
    simp [placed, notCatching, single]

end

/-! ### A start that fails -/

/-- A stream halted at its first instruction, with nothing of its binding read (R647). -/
def State.startHalted (s : State) (n r : Nat) (j : Job) (u : UnitRun) (f : BindRef) : Stream :=
  { st := .halted, reason := r, gen := ((s.stream n).gen + 1) % 2 ^ 16, job := j.id, unit := u.no, task := f.task, owner := f.owner,
    bind := f.bind, catching := f.catching, skipTo := f.tile, rank := j.unitRank u.no, startTide := s.tide, fresh := true }

/-- A read that fails for a reason of Table 05.9 halts the stream at its first instruction, with its binding started (R220, R647). -/
theorem haltStart_reason {s : State} {n r : Nat} {j : Job} {u : UnitRun} {f : BindRef} {e : AccErr} (he : e.reason = some r) (inside : r ≠ 3)
    (own : f.catching = false) (addr : Nat) :
    let t := s.haltStart n j u f e addr
    t.stream n = s.startHalted n r j u f ∧
    (∀ m, m ≠ n → t.stream m = s.stream m) ∧ t.jobs = (s.putJob (j.startedBind u.no f false)).jobs ∧ t.mem = s.mem ∧ t.ctxs = s.ctxs := by
  unfold State.haltStart
  rw [he]
  dsimp only
  rw [own, if_neg Bool.false_ne_true]
  generalize hv : (s.putStream n _).putJob _ = v
  generalize hw : (v.postEvent _).traceJob _ _ _ = w
  have recorded : Reports v w := by rw [← hw]; exact (reports_postEvent _ _).trans (reports_traceJob _ _ _ _)
  have here : w.stream n = s.startHalted n r j u f := by
    rw [recorded.stream, ← hv]
    exact (stream_putStream_self ..).trans (by rw [State.startHalted, own])
  have stays : w.endBounded n = w := by
    unfold State.endBounded; dsimp only
    rw [here]
    simp [inside, State.startHalted]
  rw [stays]
  refine ⟨here, fun m other => (recorded.stream m).trans ?_, recorded.jobs.trans ?_, recorded.mem.trans ?_, recorded.ctxs.trans ?_⟩
  · rw [← hv]; exact (onlyStream_putStream s n _).2 m other
  · rw [← hv]; rfl
  · rw [← hv]; rfl
  · rw [← hv]; rfl

/-- The jobs once a binding is marked as started. -/
theorem jobs_startedBind {s : State} {j : Job} {u : UnitRun} {unit : Nat} {f : BindRef} (found : j.units.find? (fun v => v.no == unit) = some u) :
    (s.putJob (j.startedBind u.no f false)).jobs = s.jobs.map fun i => if i.id == j.id then j.setUnit unit fun v =>
      { v with started := (f.owner, f.bind) :: v.started.erase (f.owner, f.bind) } else i := by
  have no : u.no = unit := by simpa using List.find?_some found
  rw [no]
  rfl

/-! ### Reservations -/

/-- A second value at a key replaces the first. -/
@[simp] theorem Tab.insert_insert {α : Type} (k : Nat) (v w : α) (t : Tab α) : Tab.insert k v (Tab.insert k w t) = Tab.insert k v t := by
  induction t with
  | nil => simp [Tab.insert]
  | cons e t ih =>
    obtain ⟨j, x⟩ := e
    simp only [Tab.insert]
    split_ifs <;> simp_all [Tab.insert]

theorem send_net_open {s : State} {d vc : Nat} {m : Net} (thawed : (s.peer d).frozen = false) :
    s.send (.net d vc m) = { s with out := s.out ++ [.net d vc m] } := send_of_passed (by simp [State.withheld, thawed])

theorem send_net_frozen {s : State} {d vc : Nat} {m : Net} (frozen : (s.peer d).frozen = true) (stream : vc ≠ 0) : s.send (.net d vc m) = s := by
  unfold State.send; rw [if_pos (by simp [State.withheld, frozen, stream])]

theorem classVc_ne_zero (c : Nat) : classVc c ≠ 0 := by unfold classVc; split <;> decide

theorem hears_iff {s : State} {d : Nat} : s.hears d = true ↔ s.live = true ∧ (s.peer d).frozen = false := by
  simp [State.hears]

theorem runIfReserved_runs {s : State} {n : Nat} (reserving : (s.stream n).st = .reserving)
    (all : (s.poolsNeeded n (s.stream n)).length ≤ (s.stream n).pools.length) (remote : (s.stream n).dstKind ≠ 2 ∨ (s.stream n).remote = true) :
    s.runIfReserved n = s.putStream n { s.stream n with st := .running, waitSince := none } := by
  unfold State.runIfReserved; dsimp only
  rw [if_pos]
  simpa [reserving, all] using remote

theorem runIfReserved_waits {s : State} {n : Nat} (lacks : (s.stream n).pools.length < (s.poolsNeeded n (s.stream n)).length ∨
    ((s.stream n).dstKind = 2 ∧ (s.stream n).remote = false)) : s.runIfReserved n = s := by
  unfold State.runIfReserved; dsimp only
  rw [if_neg]
  rcases lacks with few | ⟨toRemote, none'⟩
  · simp; omega
  · simp [toRemote, none']

theorem runIfReserved_frame (s : State) (n : Nat) :
    s.runIfReserved n = { s with streams := (s.runIfReserved n).streams } ∧ (∀ m, m ≠ n → (s.runIfReserved n).stream m = s.stream m) ∧
    ((s.runIfReserved n).stream n).pools = (s.stream n).pools ∧ ((s.runIfReserved n).stream n).asked = (s.stream n).asked := by
  unfold State.runIfReserved; dsimp only
  split
  · exact ⟨rfl, (onlyStream_putStream s n _).2, by rw [stream_putStream_self], by rw [stream_putStream_self]⟩
  · exact ⟨rfl, fun _ _ => rfl, rfl, rfl⟩

/-- The stream once its next pool is reserved (R229). -/
def State.withPool (s : State) (n p : Nat) : State :=
  let x := s.stream n
  s.putStream n { x with
    pools := x.pools ++ [p], waitSince := some s.tide,
    asked := x.dstKind == 2 && (x.pools ++ [p]).length == (s.poolsNeeded n x).length }

section
variable {s : State} {n p : Nat}

theorem exec_reservationTake (live : Live s) (reserving : (s.stream n).st = .reserving) :
    exec (.reservationTake n) s = .next (s.takeReservation n) := by
  change execReservationTake n s = _
  rw [execReservationTake, if_pos (by simp [live_of_Live live, reserving])]

theorem takeReservation_full (next : (s.poolsNeeded n (s.stream n))[(s.stream n).pools.length]? = some p)
    (full : 8192 < s.poolUsed p + (s.stream n).granules) : s.takeReservation n = s := by
  unfold State.takeReservation; dsimp only
  rw [next]; dsimp only
  rw [if_neg (by omega)]

theorem takeReservation_room (next : (s.poolsNeeded n (s.stream n))[(s.stream n).pools.length]? = some p)
    (room : s.poolUsed p + (s.stream n).granules ≤ 8192) : s.takeReservation n =
      { s.withPool n p with out := s.out ++
        if ((s.stream n).pools.length + 1 = (s.poolsNeeded n (s.stream n)).length ∧ (s.stream n).dstKind = 2) ∧
          (s.peer (s.stream n).device).frozen = false
        then [Msg.net (s.stream n).device (classVc (s.stream n).cls) (.reserve s.me n (s.stream n).granules)] else [] }.runIfReserved n := by
  unfold State.takeReservation; dsimp only
  rw [next]; dsimp only
  rw [if_pos room]
  congr 1
  unfold State.withPool; dsimp only
  by_cases asks : (s.stream n).pools.length + 1 = (s.poolsNeeded n (s.stream n)).length ∧ (s.stream n).dstKind = 2
  · have asks' : ((s.stream n).dstKind == 2 && ((s.stream n).pools ++ [p]).length == (s.poolsNeeded n (s.stream n)).length) = true := by
      simp [asks]
    rw [asks', if_pos rfl]
    cases frozen : (s.peer (s.stream n).device).frozen with
    | false => rw [send_net_open (s := s.putStream n _) frozen, if_pos ⟨asks, rfl⟩]; rfl
    | true => rw [send_net_frozen (s := s.putStream n _) frozen (classVc_ne_zero _), if_neg (by simp), List.append_nil]; rfl
  · have asks' : ((s.stream n).dstKind == 2 && ((s.stream n).pools ++ [p]).length == (s.poolsNeeded n (s.stream n)).length) = false := by
      simp only [Bool.and_eq_false_iff, beq_eq_false_iff_ne, List.length_append, List.length_singleton]
      tauto
    rw [asks', if_neg Bool.false_ne_true, if_neg (fun h => asks h.1), List.append_nil]; rfl

/-! ### Reservations of other devices -/

section
variable {d q g : Nat}

theorem exec_grant_here (hears : s.hears s.me = true) : exec (.remoteReservationGrant q s.me n g) s = .next (s.takeGrant n) := by
  change execRemoteReservationGrant q s.me n g s = _
  simp [execRemoteReservationGrant, hears]

theorem exec_grant_there (hears : s.hears d = true) (other : d ≠ s.me) :
    exec (.remoteReservationGrant q d n g) s = .next (s.grantRemote q d n g) := by
  change execRemoteReservationGrant q d n g s = _
  simp [execRemoteReservationGrant, hears, other]

theorem takeGrant_awaited (none' : (s.stream n).remote = false) (reserving : (s.stream n).st = .reserving) (asked : (s.stream n).asked = true)
    (all : (s.stream n).pools.length = (s.poolsNeeded n (s.stream n)).length) : s.takeGrant n = s.putStream n { s.stream n with remote := true, st := .running, waitSince := none } := by
  unfold State.takeGrant; dsimp only
  rw [none', if_neg Bool.false_ne_true, if_pos (by simp [reserving, asked])]
  have here := stream_putStream_self s n { s.stream n with remote := true }
  rw [runIfReserved_runs (by rw [here]; exact reserving) (by rw [here]; exact all.ge) (by rw [here]; exact .inr rfl), here]
  simp [State.putStream]

theorem takeGrant_late (none' : (s.stream n).remote = false) (gone : ¬ ((s.stream n).st = .reserving ∧ (s.stream n).asked = true))
    (toRemote : (s.stream n).dstKind = 2) (used : (s.stream n).st ≠ .free) :
    s.takeGrant n = s.send (.net (s.stream n).device (classVc (s.stream n).cls) (.reserveRelease s.me n)) := by
  unfold State.takeGrant; dsimp only
  rw [none', if_neg Bool.false_ne_true, if_neg (by simpa using gone), if_pos (by simp [toRemote, used])]

theorem serveRemote_skip {s : State} {l : List RemoteHold} (others : ∀ h ∈ l, h.quay ≠ q) (m : List RemoteHold) :
    s.serveRemote q (l ++ m) = s.serveRemote q m := by
  induction l with
  | nil => rfl
  | cons h l ih =>
    rw [List.cons_append, State.serveRemote, if_pos (by simpa using others h (List.mem_cons_self ..))]
    exact ih fun x hx => others x (List.mem_cons_of_mem _ hx)

theorem serveRemote_none {s : State} {l : List RemoteHold} (others : ∀ h ∈ l, h.quay ≠ q) : s.serveRemote q l = s := by
  rw [← List.append_nil l, serveRemote_skip others]; rfl

/-- The first reservation that waits at a quay stops those behind it while it has no room (R229). -/
theorem serveRemote_full {s : State} {l : List RemoteHold} {w : RemoteHold} (first : l.find? (fun h => h.quay == q) = some w)
    (full : 8192 < s.poolUsed (q + 2) + w.granules) : s.serveRemote q l = s := by
  obtain ⟨here, before, after, split', others⟩ := List.find?_eq_some_iff_append.1 first
  rw [split', serveRemote_skip fun h hh => by simpa using others h hh, State.serveRemote, if_neg (by simpa using here), if_neg (by omega)]

/-- Granting what waits at a quay only adds to what is held there, takes from what waits, and sends. -/
theorem serveRemote_frame (s : State) (q : Nat) (l : List RemoteHold) : (∃ k, (s.serveRemote q l).remoteHolds = s.remoteHolds ++ k) ∧
    s.serveRemote q l = { s with
      remoteHolds := (s.serveRemote q l).remoteHolds, remoteWaits := (s.serveRemote q l).remoteWaits, out := (s.serveRemote q l).out } := by
  induction l generalizing s with
  | nil => exact ⟨⟨[], (List.append_nil _).symm⟩, rfl⟩
  | cons h l ih =>
    rw [State.serveRemote]
    split
    · exact ih s
    split
    · obtain ⟨⟨k, held⟩, frame⟩ := ih ({ s with remoteHolds := s.remoteHolds ++ [h], remoteWaits := s.remoteWaits.erase h }.send
        (.net h.device 1 (.reserveGrant h.stream)))
      refine ⟨⟨h :: k, ?_⟩, ?_⟩
      · rw [held, send_frame]; simp
      · rw [frame, send_frame]
    · exact ⟨⟨[], (List.append_nil _).symm⟩, rfl⟩

/-- The first reservation that waits at a quay is granted when there is room for it. -/
theorem serveRemote_room {s : State} {l : List RemoteHold} {w : RemoteHold} (first : l.find? (fun h => h.quay == q) = some w)
    (room : s.poolUsed (q + 2) + w.granules ≤ 8192) : ∃ k, (s.serveRemote q l).remoteHolds = s.remoteHolds ++ w :: k := by
  obtain ⟨here, before, after, split', others⟩ := List.find?_eq_some_iff_append.1 first
  rw [split', serveRemote_skip fun h hh => by simpa using others h hh, State.serveRemote, if_neg (by simpa using here), if_pos room]
  obtain ⟨⟨k, held⟩, _⟩ := serveRemote_frame ({ s with remoteHolds := s.remoteHolds ++ [w], remoteWaits := s.remoteWaits.erase w }.send
    (.net w.device 1 (.reserveGrant w.stream))) q after
  refine ⟨k, ?_⟩
  rw [held, send_frame]; simp

/-- A reservation that is asked for anew waits behind those that wait, and its quay is served. -/
theorem grantRemote_new (asks : 0 < g) (new : ∀ h ∈ s.remoteHolds ++ s.remoteWaits, ¬ (h.device = d ∧ h.stream = n)) : s.grantRemote q d n g =
    ({ s with remoteWaits := s.remoteWaits ++ [⟨q, d, n, g⟩] } : State).serveRemote q (s.remoteWaits ++ [⟨q, d, n, g⟩]) := by
  unfold State.grantRemote; dsimp only
  have absent : (s.remoteHolds.any (fun h => h.device == d && h.stream == n) || s.remoteWaits.any fun h => h.device == d && h.stream == n) = false := by
    rw [← List.any_append, List.any_eq_false]
    exact fun h hh => by simpa using new h hh
  rw [if_neg (by simp; omega), absent, if_neg Bool.false_ne_true]

theorem grantRemote_back (s : State) (q d n : Nat) : s.grantRemote q d n 0 =
    ({ s with
        remoteHolds := s.remoteHolds.filter fun h => !(h.device == d && h.stream == n),
        remoteWaits := s.remoteWaits.filter fun h => !(h.device == d && h.stream == n) } : State).serveRemote q
      (s.remoteWaits.filter fun h => !(h.device == d && h.stream == n)) := rfl

end

end

end Sys2Proof.Machine
end

section
/-! The statements about starting streams, and about reservations. -/

namespace Sys2Proof.Safety

open Sys2Proof.Machine

/-- Settles O20: `loadStream` by how far its reads come. -/
theorem streamsStartFromTheirBinding : Obligations.StreamsStartFromTheirBinding := by
  unfold Obligations.StreamsStartFromTheirBinding
  intro s n job unit task bind j u live stevedore free admitted whole found dispatched exists' placed first a started
  have starts := exec_streamStart ⟨live, stevedore, free, admitted, whole, found, dispatched, exists', placed, first⟩
  have no : u.no = unit := by simpa using List.find?_some found
  refine ⟨?unread, ?read⟩
  case unread =>
    intro e r failed reason inside
    refine ⟨_, starts, ?_⟩
    rw [loadStream_unread (f := { task := task, owner := task, bind := bind, tile := u.skipOf task bind }) failed]
    obtain ⟨here, others, jobs, mem, ctxs⟩ := haltStart_reason (s := s) (n := n) (j := j) (u := u)
      (f := { task := task, owner := task, bind := bind, tile := u.skipOf task bind }) reason inside rfl
      (s.bindingAt j u { task := task, owner := task, bind := bind, tile := u.skipOf task bind })
    dsimp only
    rw [here]
    exact ⟨rfl, rfl, rfl, rfl, no, rfl, rfl, rfl, rfl, rfl, rfl, others, jobs.trans (jobs_startedBind found), mem, ctxs⟩
  case read =>
    intro bs s1 read b
    refine ⟨fun bad => ?_, fun s2 ws good single manifest => ?_⟩
    · rw [starts, loadStream_malformed (f := { task := task, owner := task, bind := bind, tile := u.skipOf task bind }) read bad]; rfl
    · obtain ⟨malformed, loads⟩ := loadStream_single (n := n) (f := { task := task, owner := task, bind := bind, tile := u.skipOf task bind })
        read good single manifest
      refine ⟨fun bad => by rw [starts, malformed bad]; rfl, fun k c ok at' => ⟨_, starts, ?_⟩⟩
      rw [loads (k, c) ok rfl (by rw [no]; exact at')]
      have here : ((s2.putStream n { s2.newStream j u.no { task := task, owner := task, bind := bind, tile := u.skipOf task bind } b
          [s2.receiver b.halfSel task (u.skipOf task bind) (k, c)] ws with gen := (s2.stream n).gen }).putJob
          (j.startedBind u.no { task := task, owner := task, bind := bind, tile := u.skipOf task bind } false)).stream n = _ :=
        stream_putStream_self ..
      dsimp only
      rw [here]
      refine ⟨rfl, rfl, rfl, no, rfl, rfl, rfl, rfl, rfl, rfl, rfl, rfl, rfl, ?_, rfl, rfl, rfl, rfl, rfl, rfl, rfl, rfl, ⟨_, rfl, rfl, rfl, rfl, rfl, rfl, rfl, rfl⟩,
        (onlyStream_putStream s2 n _).2, rfl, jobs_startedBind (s := s2) found⟩
      simp [State.newStream, single]

/-- Settles O21: the next pool is taken whole or not at all, and a quay grants in order while there is room. -/
theorem reservationsAreTakenWhole : Obligations.ReservationsAreTakenWhole := by
  unfold Obligations.ReservationsAreTakenWhole
  refine ⟨?take, ?here, ?there, ?back⟩
  case take =>
    intro s n p live reserving x next last asks
    refine ⟨fun full => ?_, fun room => ⟨_, exec_reservationTake live reserving, ?_⟩⟩
    · rw [exec_reservationTake live reserving, takeReservation_full next full]
    · rw [takeReservation_room next room]
      generalize hu : ({ s.withPool n p with out := _ } : State) = u
      obtain ⟨frame, others, pools, asked⟩ := runIfReserved_frame u n
      have stream : u.stream n = (s.withPool n p).stream n := by rw [← hu]; rfl
      have pool : (s.withPool n p).stream n = { x with
          pools := x.pools ++ [p], waitSince := some s.tide,
          asked := x.dstKind == 2 && (x.pools ++ [p]).length == (s.poolsNeeded n x).length } := stream_putStream_self ..
      have needed : u.poolsNeeded n (u.stream n) = s.poolsNeeded n x := by rw [stream, pool, ← hu]; rfl
      rw [pool] at stream
      refine ⟨?_, ?_, fun m other => ?_, fun h => ?_, fun h => ?_, ?_, ?_⟩
      · rw [pools, stream]
      · rw [asked, stream, Bool.eq_iff_iff]; simp [asks, last, and_comm]
      · rw [others m other, ← hu]; exact (onlyStream_putStream s n _).2 m other
      · obtain ⟨isLast, here⟩ := h
        rw [runIfReserved_runs (by rw [stream]; exact reserving) (by rw [needed, stream]; simp; omega) (by rw [stream]; exact .inl here)]
        rw [stream_putStream_self]
        exact ⟨rfl, rfl⟩
      · rw [runIfReserved_waits, stream]
        · exact ⟨reserving, rfl⟩
        · have few : x.pools.length < (s.poolsNeeded n x).length := (List.getElem?_eq_some_iff.1 next).1
          rw [needed, stream, List.length_append, List.length_singleton]
          exact h.imp (fun more => by omega) id
      · rw [frame, ← hu]
      · rw [frame, ← hu]; rfl
  case here =>
    intro s q n g hears none'
    refine ⟨fun reserving asked remote all => ?_, fun gone remote used thawed => ?_⟩
    · refine ⟨_, exec_grant_here hears, ?_⟩
      rw [takeGrant_awaited none' reserving asked all]
      exact ⟨onlyStream_putStream .., stream_putStream_self ..⟩
    · rw [exec_grant_here hears, takeGrant_late none' gone remote used, send_net_open thawed]
  case there =>
    intro s q d n g hears other asks new
    have thawed : (s.peer d).frozen = false := (hears_iff.1 hears).2
    refine ⟨fun alone room => ?_, fun alone full => ?_, fun w first full => ?_⟩
    · have fresh : (⟨q, d, n, g⟩ : RemoteHold) ∉ s.remoteWaits := fun h => new _ (List.mem_append_right _ h) ⟨rfl, rfl⟩
      have erased : (s.remoteWaits ++ [(⟨q, d, n, g⟩ : RemoteHold)]).erase ⟨q, d, n, g⟩ = s.remoteWaits := by
        rw [List.erase_append_right _ fresh]; simp
      rw [exec_grant_there hears other, grantRemote_new asks new, serveRemote_skip alone, State.serveRemote, if_neg (by simp),
        if_pos, erased, send_net_open (by exact thawed)]
      · rfl
      · exact room
    · rw [exec_grant_there hears other, grantRemote_new asks new, serveRemote_skip alone, State.serveRemote, if_neg (by simp), if_neg]
      exact Nat.not_le.2 full
    · rw [exec_grant_there hears other, grantRemote_new asks new, serveRemote_full (w := w)]
      · simp [first]
      · exact full
  case back =>
    intro s q d n hears other rest freed
    refine ⟨fun alone => ?_, fun w first room => ⟨_, exec_grant_there hears other, ?_⟩, fun w first full => ?_⟩
    · rw [exec_grant_there hears other, grantRemote_back, serveRemote_none alone]
    · obtain ⟨k, held⟩ := serveRemote_room (s := freed) first room
      rw [grantRemote_back]
      exact ⟨⟨k, held⟩, (serveRemote_frame freed q (rest s.remoteWaits)).2⟩
    · rw [exec_grant_there hears other, grantRemote_back, serveRemote_full first full]

end Sys2Proof.Safety
end


section
/-! SUPPORT. The ends of streams (R193), detached receivers and catch-up streams (R216, R217), and probes of mutual waits (R230 to R232). -/

namespace Sys2Proof.Machine

open Sys2Proof.Safety

/-! ### Ready bits -/

theorem isReady_setReady (s : State) (k j : Nat) (h g : Bool) (a b : Nat) (v : Bool) :
    (s.setReady k h a v).isReady j g b = if readyKey j g b = readyKey k h a then v else s.isReady j g b := by
  unfold State.isReady State.setReady
  exact Tab.get_set _ _ _ _ _

/-- The part of a receiver that a write does not move: its kiln, slot, half and base. -/
def Rcv.place (r : Rcv) : Nat × Nat × Bool × Nat := (r.kiln, r.slot, r.half, r.base)

/-- A state in which slots of a stream's receivers have been made ready, and nothing else of the stream has changed. -/
structure MadeReady (s : State) (n : Nat) (t : State) : Prop where
  frame : t = { s with streams := t.streams, ready := t.ready, ctxs := t.ctxs }
  others : ∀ m, m ≠ n → t.stream m = s.stream m
  stream : t.stream n = { s.stream n with rcv := (t.stream n).rcv, left := (t.stream n).left }
  places : (t.stream n).rcv.map Rcv.place = (s.stream n).rcv.map Rcv.place
  ready : ∀ k h a, s.isReady k h a = true → t.isReady k h a = true

theorem MadeReady.refl (s : State) (n : Nat) : MadeReady s n s := ⟨rfl, fun _ _ => rfl, rfl, rfl, fun _ _ _ => id⟩

theorem MadeReady.trans {s t u : State} {n : Nat} (first : MadeReady s n t) (second : MadeReady t n u) : MadeReady s n u where
  frame := by rw [second.frame, first.frame]
  others := fun m other => (second.others m other).trans (first.others m other)
  stream := by rw [second.stream, first.stream]
  places := second.places.trans first.places
  ready := fun k h a was => second.ready k h a (first.ready k h a was)

theorem rouse_frame (s : State) (k c : Nat) : s.rouse k c = { s with ctxs := (s.rouse k c).ctxs } := by
  unfold State.rouse; dsimp only; split <;> rfl

@[simp] theorem isReady_rouse (s : State) (k c j : Nat) (h : Bool) (a : Nat) : (s.rouse k c).isReady j h a = s.isReady j h a := by
  rw [rouse_frame]; rfl

theorem makeReady_found {s : State} {n i : Nat} {r : Rcv} (found : (s.stream n).rcv[i]? = some r) (slot : Nat) : ∃ l,
    s.makeReady n i slot = ((s.putStream n { s.stream n with
        rcv := (s.stream n).rcv.set i { r with wrote := r.wrote.filter fun w => w.1 != slot }, left := l }).setReady
      r.kiln r.half (r.base + slot) true).rouse r.kiln r.slot := by
  unfold State.makeReady
  dsimp only
  rw [found]
  exact ⟨_, rfl⟩

theorem makeReady_madeReady (s : State) (n i slot : Nat) : MadeReady s n (s.makeReady n i slot) := by
  cases found : (s.stream n).rcv[i]? with
  | none =>
    have same : s.makeReady n i slot = s := by unfold State.makeReady; dsimp only; rw [found]
    rw [same]; exact MadeReady.refl s n
  | some r =>
    obtain ⟨l, made⟩ := makeReady_found found slot
    have stream (m : Nat) : (s.makeReady n i slot).stream m = (s.putStream n { s.stream n with
        rcv := (s.stream n).rcv.set i { r with wrote := r.wrote.filter fun w => w.1 != slot }, left := l }).stream m := by
      rw [made, rouse_frame]; rfl
    refine ⟨?_, fun m other => (stream m).trans ((onlyStream_putStream s n _).2 m other), ?_, ?_, fun k h a was => ?_⟩
    · rw [made, rouse_frame]; rfl
    · rw [stream, stream_putStream_self]
    · rw [stream, stream_putStream_self, List.map_set]
      obtain ⟨hi, here⟩ := List.getElem?_eq_some_iff.1 found
      rw [show Rcv.place { r with wrote := r.wrote.filter fun w => w.1 != slot } = ((s.stream n).rcv.map Rcv.place)[i]'(by simpa using hi) by
        rw [List.getElem_map, here]; rfl]
      exact List.set_getElem_self ..
    · rw [made, isReady_rouse, isReady_setReady]
      split
      · rfl
      · exact was

/-- A slot that is made ready has its bit set. -/
theorem isReady_makeReady {s : State} {n i : Nat} {r : Rcv} (found : (s.stream n).rcv[i]? = some r) (slot : Nat) :
    (s.makeReady n i slot).isReady r.kiln r.half (r.base + slot) = true := by
  obtain ⟨l, made⟩ := makeReady_found found slot
  rw [made, isReady_rouse, isReady_setReady, if_pos rfl]

theorem madeReady_foldl (n : Nat) (l : List (Nat × Nat)) (s : State) : MadeReady s n (l.foldl (fun t p => t.makeReady n p.1 p.2) s) := by
  induction l generalizing s with
  | nil => exact MadeReady.refl s n
  | cons p l ih => exact (makeReady_madeReady s n p.1 p.2).trans (ih _)

/-- Every slot that is listed to be made ready has its bit set at the end. -/
theorem isReady_foldl {n i slot : Nat} {l : List (Nat × Nat)} (listed : (i, slot) ∈ l) {s : State} {r : Rcv}
    (found : (s.stream n).rcv[i]? = some r) :
    (l.foldl (fun t p => t.makeReady n p.1 p.2) s).isReady r.kiln r.half (r.base + slot) = true := by
  induction l generalizing s r with
  | nil => simp at listed
  | cons p l ih =>
    have one := makeReady_madeReady s n p.1 p.2
    obtain ⟨q, at', place⟩ : ∃ q, ((s.makeReady n p.1 p.2).stream n).rcv[i]? = some q ∧ q.place = r.place := by
      have places := congrArg (·[i]?) one.places
      simpa [found] using places
    rcases List.mem_cons.1 listed with rfl | later
    · exact (madeReady_foldl n l _).ready _ _ _ (isReady_makeReady found slot)
    · have done := ih later at'
      simp only [Rcv.place, Prod.mk.injEq] at place
      obtain ⟨kiln, -, half, base⟩ := place
      rw [kiln, half, base] at done
      exact done

theorem madeReady_readyAll (s : State) (n : Nat) : MadeReady s n (s.readyAll n) := madeReady_foldl n _ s

/-- Every slot that an attached receiver has written is ready once all are made ready (R203). -/
theorem isReady_readyAll {s : State} {n : Nat} {r : Rcv} (hr : r ∈ (s.stream n).rcv) (attached : r.attached = true) {w : Nat × Nat}
    (hw : w ∈ r.wrote) : (s.readyAll n).isReady r.kiln r.half (r.base + w.1) = true := by
  obtain ⟨i, found⟩ := List.mem_iff_getElem?.1 hr
  refine isReady_foldl (i := i) (List.mem_flatMap.2 ⟨(r, i), ?_, ?_⟩) found
  · rwa [List.mem_zipIdx_iff_getElem?]
  · rw [if_pos attached]; exact List.mem_map.2 ⟨w, hw, rfl⟩

theorem exec_streamEnd {s : State} {n : Nat} (live : Live s) (draining : (s.stream n).st = .draining) (written : (s.stream n).allWritten = true) :
    exec (.streamEnd n) s = .next ((if (s.stream n).dstKind = 0 then s.readyAll n else s).freeStream n) := by
  change execStreamEnd n s = _
  rw [execStreamEnd]
  rw [if_pos (by simp [live_of_Live live, draining, written])]
  simp

/-! ### Detached receivers and catch-up streams -/

theorem tooSlow_of {s : State} {x : Stream} {r q : Rcv} (multicast : x.multicast = true) (here : r.attached = true) (hq : q ∈ x.rcv)
    (attached : q.attached = true) (behind : r.accepted + 4 ≤ q.accepted) (ready : s.readyFor x q q.accepted = true) : s.tooSlow x r = true := by
  simp only [State.tooSlow, multicast, here, Bool.true_and, List.any_eq_true]
  exact ⟨q, hq, by simp [attached, behind, ready]⟩

theorem exec_receiverDetach {s : State} {n i : Nat} {r : Rcv} (live : Live s) (found : (s.stream n).rcv[i]? = some r)
    (reads : (s.stream n).mayRead = true) (slow : s.tooSlow (s.stream n) r = true) : exec (.receiverDetach n i) s = .next (s.detach n i false) := by
  change execReceiverDetach n i s = _
  rw [execReceiverDetach, found]
  exact if_pos (by simp [live_of_Live live, reads, slow])

/-- The registers of a detached receiver (R218). -/
def State.detachNoted (s : State) (n : Nat) (r : Rcv) : State :=
  ((((s.inc STV_DETACHES_COUNT (stevedoreOf n) 1).put STV_DETACH_LAST_CONTEXT (stevedoreOf n) (n % 32)).put STV_DETACH_LAST_KILN (stevedoreOf n) r.kiln).put
    STV_DETACH_LAST_CTX (stevedoreOf n) r.slot).put STV_DETACH_LAST_VALID (stevedoreOf n) 1

/-- While another receiver is attached, a detached one leaves the stream to go on without it (R217). -/
theorem detach_others {s : State} {n i k : Nat} {r q : Rcv} (found : (s.stream n).rcv[i]? = some r) (at' : (s.stream n).rcv[k]? = some q)
    (other : k ≠ i) (attached : q.attached = true) (lost : Bool) : ∃ freed units, s.detach n i lost =
      ({ (s.detachNoted n r).freeTags n freed with catchUps := s.catchUps ++ [(s.stream n).waits (stevedoreOf n) r lost] } : State).putStream n
        { s.stream n with rcv := (s.stream n).rcv.set i { r with attached := false }, units := units } := by
  unfold State.detach; dsimp only
  rw [found]; dsimp only
  rw [if_pos]
  · exact ⟨_, _, rfl⟩
  · refine List.any_eq_true.2 ⟨q, List.mem_iff_getElem?.2 ⟨k, ?_⟩, attached⟩
    rw [List.getElem?_set_ne (Ne.symm other)]; exact at'

/-- What `STV_DETACHES` and `STV_DETACH_LAST` say of a detached receiver (R218). -/
theorem get_detached (s : State) (n : Nat) (r : Rcv) (freed : Nat) :
    let t := (s.detachNoted n r).freeTags n freed
    t.get STV_DETACHES_COUNT (stevedoreOf n) = min (s.get STV_DETACHES_COUNT (stevedoreOf n) + 1) (2 ^ 32 - 1) ∧
    t.get STV_DETACH_LAST_CONTEXT (stevedoreOf n) = n % 32 ∧ t.get STV_DETACH_LAST_KILN (stevedoreOf n) = r.kiln % 256 ∧
    t.get STV_DETACH_LAST_CTX (stevedoreOf n) = r.slot % 4 ∧ t.get STV_DETACH_LAST_VALID (stevedoreOf n) = 1 := by
  unfold State.freeTags State.detachNoted
  refine ⟨?_, ?_, ?_, ?_, ?_⟩
  all_goals simp (disch := decide) only [State.get_put_other, State.get_put_self, State.get_inc_self]
  · rfl
  · exact Nat.mod_mod _ _
  · rfl
  · rfl
  · rfl

theorem keepsFieldsBut_detached (s : State) (n : Nat) (r : Rcv) (freed : Nat) : KeepsFieldsBut s ((s.detachNoted n r).freeTags n freed)
    [STV_DETACHES_COUNT.key (stevedoreOf n), STV_DETACH_LAST_CONTEXT.key (stevedoreOf n), STV_DETACH_LAST_KILN.key (stevedoreOf n),
      STV_DETACH_LAST_CTX.key (stevedoreOf n), STV_DETACH_LAST_VALID.key (stevedoreOf n), STV_TAGS_IN_USE.key (stevedoreOf n)] := by
  unfold State.freeTags State.detachNoted
  refine keepsFieldsBut_put_listed (keepsFieldsBut_put_listed (keepsFieldsBut_put_listed (keepsFieldsBut_put_listed (keepsFieldsBut_put_listed
    (keepsFieldsBut_mono (keepsFieldsBut_inc s _ _ _) ?_) ?_ _) ?_ _) ?_ _) ?_ _) ?_ _
  all_goals simp

theorem exec_catchupStreamStart {s : State} {v n : Nat} {l r : List CatchUp} {c : CatchUp} (live : Live s) (stevedore : s.stevedoreOk v = true)
    (waiting : s.catchUps = l ++ c :: r) (earlier : ∀ d ∈ l, s.mayCatchUp v d = false) (may : s.mayCatchUp v c = true)
    (free : s.freeContext v = some n) : exec (.catchupStreamStart v) s = .next (({ s with catchUps := l ++ r } : State).startCatchUp n c) := by
  change execCatchupStreamStart v s = _
  have index : s.catchUps.findIdx (fun c => s.mayCatchUp v c) = l.length := by
    rw [waiting, List.findIdx_append, List.findIdx_cons, may, cond_true, Nat.zero_add, if_neg]
    exact fun h => absurd h (by rw [List.findIdx_eq_length.2 earlier]; exact lt_irrefl _)
  rw [execCatchupStreamStart, if_neg (by simp [live_of_Live live, stevedore])]
  dsimp only
  rw [index, free, waiting]
  simp [List.eraseIdx_append_of_length_le]

/-! ### Probes -/

theorem younger_iff {a b : Nat × Nat × Nat} : younger a b = true ↔
    b.2.2 < a.2.2 ∨ (a.2.2 = b.2.2 ∧ (b.1 < a.1 ∨ (a.1 = b.1 ∧ b.2.1 < a.2.1))) := by
  unfold younger
  split_ifs with h h
  all_goals simp at *
  all_goals omega

theorem younger_irrefl (a : Nat × Nat × Nat) : younger a a = false := by
  rw [← Bool.not_eq_true, younger_iff]; omega

theorem younger_asymm {a b : Nat × Nat × Nat} (h : younger a b = true) : younger b a = false := by
  rw [younger_iff] at h
  rw [← Bool.not_eq_true, younger_iff]; omega

/-- What is picked is one of the list, and none of the list is younger. -/
theorem pickBy_younger {l : List (Nat × Nat × Nat)} {b : Nat × Nat × Nat} (h : pickBy younger l = some b) :
    b ∈ l ∧ ∀ z ∈ l, younger z b = false := by
  induction l generalizing b with
  | nil => cases h
  | cons a l ih =>
    rw [pickBy] at h
    split at h
    next none' =>
      cases h
      have empty : l = [] := by
        cases l with
        | nil => rfl
        | cons x l => rw [pickBy] at none'; split at none' <;> cases none'
      simp [empty, younger_irrefl]
    next c picked =>
      obtain ⟨mem, best⟩ := ih picked
      split at h
      next younger' =>
        cases h
        refine ⟨List.mem_cons_of_mem _ mem, fun z hz => ?_⟩
        rcases List.mem_cons.1 hz with rfl | hz
        · exact younger_asymm younger'
        · exact best z hz
      next older =>
        cases h
        refine ⟨List.mem_cons_self .., fun z hz => ?_⟩
        rcases List.mem_cons.1 hz with rfl | hz
        · exact younger_irrefl _
        · have worse := best z hz
          rw [← Bool.not_eq_true, younger_iff] at *
          omega

theorem pickBy_ne_none {α : Type} (better : α → α → Bool) (a : α) (l : List α) : ∃ b, pickBy better (a :: l) = some b := by
  rw [pickBy]; split <;> exact ⟨_, rfl⟩

/-- The youngest of a chain is picked, when every other of it is older (R231). -/
theorem pickBy_youngest {chain : List (Nat × Nat × Nat)} {me : Nat × Nat × Nat} (mem : me ∈ chain) (youngest : ∀ z ∈ chain, z ≠ me → younger me z = true) :
    pickBy younger chain = some me := by
  obtain ⟨a, l, rfl⟩ : ∃ a l, chain = a :: l := List.exists_cons_of_ne_nil (List.ne_nil_of_mem mem)
  obtain ⟨b, picked⟩ := pickBy_ne_none younger a l
  obtain ⟨hb, best⟩ := pickBy_younger picked
  rw [picked]
  by_contra other
  have other : b ≠ me := fun h => other (h ▸ rfl)
  exact absurd (youngest b hb other) (by rw [best me mem]; exact Bool.false_ne_true)

section
variable {s : State} {n : Nat} {chain : List (Nat × Nat × Nat)}

theorem exec_mutualWaitProbe (live : Live s) (own : n ≠ 4095) : exec (.mutualWaitProbe n chain) s = .next (s.probe 64 n chain) := by
  change execMutualWaitProbe n chain s = _
  rw [execMutualWaitProbe, if_pos (live_of_Live live), State.takeProbe, if_pos (by simpa [anyHolder] using own)]

theorem probe_not_reserving (gone : (s.stream n).st ≠ .reserving) : s.probe 64 n chain = s := by
  rw [State.probe]; dsimp only; rw [if_pos (by simpa using gone)]

theorem probe_back (reserving : (s.stream n).st = .reserving) (back : chain.head? = some (s.me, n, (s.stream n).startTide)) :
    s.probe 64 n chain = if pickBy younger chain == some (s.me, n, (s.stream n).startTide) then s.abortStream n else s := by
  rw [State.probe]; dsimp only
  rw [if_neg (by simp [reserving]), if_pos (by simp [back])]

theorem probe_on (reserving : (s.stream n).st = .reserving) (new : (s.me, n, (s.stream n).startTide) ∉ chain) :
    s.probe 64 n chain = match s.waitsFor n with
      | none => s
      | some none => s.send (.net (s.stream n).device 1 (.waitProbe anyHolder (chain ++ [(s.me, n, (s.stream n).startTide)])))
      | some (some p) => (s.holders p).foldl (fun t h =>
          if h.1 == s.me then t.probe 63 h.2 (chain ++ [(s.me, n, (s.stream n).startTide)])
          else t.send (.net h.1 1 (.waitProbe h.2 (chain ++ [(s.me, n, (s.stream n).startTide)])))) s := by
  have head : ¬ (chain.head? == some (s.me, n, (s.stream n).startTide)) = true := by
    rw [beq_iff_eq]; exact fun h => new (List.mem_of_mem_head? h)
  rw [State.probe]; dsimp only
  rw [if_neg (by simp [reserving]), if_neg head, if_neg (by simpa using new)] <;> rfl

theorem sendAll_foldl {α : Type} (f : α → Nat × Net) (l : List α) (s : State) (thawed : ∀ x ∈ l, (s.peer (f x).1).frozen = false) :
    l.foldl (fun t x => t.send (.net (f x).1 1 (f x).2)) s = { s with out := s.out ++ l.map fun x => .net (f x).1 1 (f x).2 } := by
  induction l generalizing s with
  | nil => simp
  | cons x l ih =>
    rw [List.foldl_cons, send_net_open (thawed x (List.mem_cons_self ..)), ih]
    · simp
    · exact fun y hy => thawed y (List.mem_cons_of_mem _ hy)

/-- The message that gives a remote reservation back, where the stream has or awaits one (R232). -/
def State.releases (s : State) (n : Nat) : List Msg :=
  if ((s.stream n).remote = true ∨ (s.stream n).asked = true) ∧ (s.peer (s.stream n).device).frozen = false
  then [.net (s.stream n).device (classVc (s.stream n).cls) (.reserveRelease s.me n)] else []

/-- An aborted stream is put back with nothing reserved (R232). -/
theorem rewind_eq (s : State) (n : Nat) : ∃ l, (∀ e ∈ l, e ∈ (s.stream n).left) ∧ s.rewind n =
    ({ s.freeTags n (s.stream n).inFlight with out := s.out ++ s.releases n } : State).putStream n { s.stream n with
      pos := (s.stream n).posOf (s.stream n).slowest, units := [], wait := .none, pools := [], asked := false, remote := false, waitSince := none,
      ended := false, tileAt := (s.stream n).posOf (s.stream n).slowest, left := l } := by
  unfold State.rewind State.releases; dsimp only
  have me : (s.freeTags n (s.stream n).inFlight).me = s.me := State.get_put_other (by decide) ..
  by_cases holds : (s.stream n).remote = true ∨ (s.stream n).asked = true
  · rw [if_pos (by simpa using holds), me]
    cases frozen : (s.peer (s.stream n).device).frozen with
    | false => 
      rw [send_net_open (s := s.freeTags n _) frozen, if_pos ⟨holds, rfl⟩]
      exact ⟨_, fun e he => (List.mem_filter.1 he).1, rfl⟩
    | true => 
      rw [send_net_frozen (s := s.freeTags n _) frozen (classVc_ne_zero _), if_neg (by simp), List.append_nil]
      exact ⟨_, fun e he => (List.mem_filter.1 he).1, rfl⟩
  · rw [if_neg (by simpa using holds), if_neg (fun h => holds h.1), List.append_nil]
    exact ⟨_, fun e he => (List.mem_filter.1 he).1, rfl⟩

/-- One of the first three aborts without an accepted tile is counted (R232). -/
theorem abortStream_eq (few : (s.stream n).aborts < 3) : ∃ l, (∀ e ∈ l, e ∈ (s.stream n).left) ∧ s.abortStream n =
    ({ (s.freeTags n (s.stream n).inFlight).inc STV_ABORTS_COUNT (stevedoreOf n) 1 with out := s.out ++ s.releases n } : State).putStream n
      { s.stream n with
        st := .aborted, aborts := (s.stream n).aborts + 1, pos := (s.stream n).posOf (s.stream n).slowest,
        tileAt := (s.stream n).posOf (s.stream n).slowest, units := [], wait := .none, pools := [], asked := false, remote := false,
        waitSince := none, ended := false, left := l } := by
  obtain ⟨l, sub, rewound⟩ := rewind_eq s n
  refine ⟨l, sub, ?_⟩
  unfold State.abortStream; dsimp only
  rw [rewound]
  simp only [State.stream_inc, stream_putStream_self]
  rw [if_neg (by omega)]
  simp [State.putStream, State.inc, State.put, State.get]

end

end Sys2Proof.Machine
end

section
/-! The statement about the ends of streams. -/

namespace Sys2Proof.Safety

open Sys2Proof.Machine

/-- Settles O22: what each end of a stream changes, by the equation of its operation. -/
theorem streamsEndDetachAndAbort : Obligations.StreamsEndDetachAndAbort := by
  unfold Obligations.StreamsEndDetachAndAbort
  refine ⟨?ends, ?detach, ?catchUp, ?probe⟩
  case ends =>
    intro s n live draining written
    refine ⟨_, exec_streamEnd live draining (allWritten_iff.2 written), ?_⟩
    generalize hu : (if (s.stream n).dstKind = 0 then s.readyAll n else s) = u
    have made : MadeReady s n u := by
      rw [← hu]; split
      · exact madeReady_readyAll s n
      · exact MadeReady.refl s n
    have freed := freeStream_frame u n
    refine ⟨?_, fun m other => ?_, fun berth r hr attached w hw => ?_, fun other => ?_, fun here unasked => ?_, ?_, ?_⟩
    · rw [stream_freeStream, if_pos rfl, made.stream]
    · rw [stream_freeStream, if_neg other, made.others m other]
    · rw [if_pos berth] at hu
      have ready := isReady_readyAll hr attached hw
      rw [hu] at ready
      rw [freed]; exact ready
    · rw [if_neg other] at hu
      rw [freed, hu]; exact ⟨rfl, rfl⟩
    · rw [out_freeStream u n (by rw [made.stream]; exact here) (by rw [made.stream]; exact unasked), made.frame]
    · exact fun f i other => (keepsFieldsBut_freeStream u n f i other).trans (State.get_of_flds (by rw [made.frame]) f i)
    · rw [freed, made.frame]
  case detach =>
    intro s n i k r q live multicast reads found here at' attached behind ready v x
    have other : k ≠ i := by
      rintro rfl
      rw [found] at at'
      cases at'
      omega
    refine ⟨_, exec_receiverDetach live found reads (tooSlow_of multicast here (List.mem_of_getElem? at') attached behind ready), ?_⟩
    obtain ⟨freed, units, detached⟩ := detach_others found at' other attached false
    obtain ⟨count, context, kiln, slot, valid⟩ := get_detached s n r freed
    have keeps := keepsFieldsBut_detached s n r freed
    have frame : (s.detachNoted n r).freeTags n freed = { s with flds := ((s.detachNoted n r).freeTags n freed).flds } := rfl
    rw [detached]
    generalize (s.detachNoted n r).freeTags n freed = w at *
    refine ⟨?_, fun m other => ?_, rfl, count, context, kiln, slot, valid, keeps, ?_⟩
    · rw [stream_putStream_self]
    · refine ((onlyStream_putStream _ n _).2 m other).trans ?_
      rw [frame]; rfl
    · rw [frame]; rfl
  case catchUp =>
    intro s v n l r c live stevedore waiting earlier may free
    have starts := exec_catchupStreamStart live stevedore waiting earlier may free
    refine ⟨fun x stands => ⟨_, starts, ?_⟩, fun j u anew admitted found => ?_⟩
    · rw [State.startCatchUp, stands]
      exact ⟨rfl, stream_putStream_self .., (onlyStream_putStream _ n _).2, rfl⟩
    · rw [starts, State.startCatchUp, anew, show ({ s with catchUps := l ++ r } : State).job c.job = some j from admitted]
      dsimp only
      rw [found]
  case probe =>
    intro s n chain live own x me v
    refine ⟨fun reserving back youngest few => ⟨_, exec_mutualWaitProbe live own, ?_⟩, fun back older => ?_, fun reserving new => ⟨fun remote thawed => ?_, fun p pool thawed => ?_⟩⟩
    · rw [probe_back reserving back, pickBy_youngest (List.mem_of_mem_head? back) youngest, if_pos (beq_self_eq_true _)]
      obtain ⟨l, sub, aborted⟩ := abortStream_eq few
      rw [aborted]
      refine ⟨⟨l, stream_putStream_self .., sub⟩, (onlyStream_putStream _ n _).2, ?_, rfl, ?_, rfl⟩
      · change ((s.freeTags n x.inFlight).inc STV_ABORTS_COUNT v 1).get STV_ABORTS_COUNT v = _
        rw [State.get_inc_self, State.freeTags, State.get_put_other (by decide)]; rfl
      · exact keepsFieldsBut_inc_listed (keepsFieldsBut_mono (keepsFieldsBut_freeTags s n _) (by simp [v])) (by simp [v]) 1
    · rw [exec_mutualWaitProbe live own]
      by_cases reserving : x.st = .reserving
      · rw [probe_back reserving back, if_neg]
        intro picked
        obtain ⟨z, hz, younger'⟩ := older
        have best := (pickBy_younger (beq_iff_eq.1 picked)).2 z hz
        exact absurd younger' (by rw [best]; exact Bool.false_ne_true)
      · rw [probe_not_reserving reserving]
    · rw [exec_mutualWaitProbe live own, probe_on reserving new, remote]
      dsimp only
      rw [send_net_open thawed]
      rfl
    · rw [exec_mutualWaitProbe live own, probe_on reserving new, pool]
      dsimp only
      rw [← sendAll_foldl (fun h => (h.1, Net.waitProbe h.2 (chain ++ [me]))) (s.holders p) s fun h hh => (thawed h hh).2]
      refine congrArg _ (List.foldl_ext _ _ _ fun t h hh => ?_)
      rw [if_neg (by simpa using (thawed h hh).1)]

end Sys2Proof.Safety
end


section
/-! SUPPORT. Tags, arbitration and landing (R204 to R213). -/

namespace Sys2Proof.Machine

open Sys2Proof.Safety

/-! ### Arbitration -/

theorem mem_of_pickBy {α : Type} {better : α → α → Bool} {l : List α} {b : α} (picked : pickBy better l = some b) : b ∈ l := by
  induction l generalizing b with
  | nil => cases picked
  | cons x l ih =>
    rw [pickBy] at picked
    split at picked
    · cases picked; exact List.mem_cons_self ..
    next inner =>
      split at picked
      · cases picked; exact List.mem_cons_of_mem _ (ih inner)
      · cases picked; exact List.mem_cons_self ..

/-- What is better than every other of a list is picked from it. -/
theorem pickBy_best {α : Type} {better : α → α → Bool} {l : List α} {e : α} (he : e ∈ l)
    (best : ∀ f ∈ l, f ≠ e → better e f = true ∧ better f e = false) : pickBy better l = some e := by
  induction l with
  | nil => simp at he
  | cons a l ih =>
    have rest := fun h => ih h fun f hf => best f (List.mem_cons_of_mem _ hf)
    rw [pickBy]
    by_cases here : a = e
    · subst here
      split
      · rfl
      next b picked =>
        have hb := mem_of_pickBy picked
        by_cases same : b = a
        · rw [same]; split <;> rfl
        · rw [if_neg (by rw [(best b (List.mem_cons_of_mem _ hb) same).2]; exact Bool.false_ne_true)]
    · have later : e ∈ l := by
        rcases List.mem_cons.1 he with rfl | h
        · exact absurd rfl here
        · exact h
      rw [rest later]
      dsimp only
      rw [if_pos (best a (List.mem_cons_self ..) here).1]

theorem pickBy_eq_none {α : Type} {better : α → α → Bool} {l : List α} : pickBy better l = none ↔ l = [] := by
  cases l with
  | nil => simp [pickBy]
  | cons a l =>
    obtain ⟨b, picked⟩ := pickBy_ne_none better a l
    simp [picked]

section
variable {c : Nat} {rs : List Request} {e : Request}

theorem choose_dry (he : e ∈ rs) (dry : e.bulk = false) (best : ∀ f ∈ rs, f ≠ e → f.bulk = false → e.before f = true ∧ f.before e = false) :
    (c < 15 → choose c rs = some (e, if rs.all (fun f => !f.bulk) then 0 else c + 1)) ∧
    ((∀ f ∈ rs, f.bulk = false) → choose c rs = some (e, 0)) := by
  have picked : pickBy Request.before (rs.filter fun r => !r.bulk) = some e :=
    pickBy_best (List.mem_filter.2 ⟨he, by simp [dry]⟩) fun f hf other => by
      obtain ⟨mem, notBulk⟩ := List.mem_filter.1 hf
      exact best f mem other (by simpa using notBulk)
  have alone (none' : ∀ f ∈ rs, f.bulk = false) : choose c rs = some (e, 0) := by
    have empty : rs.filter (·.bulk) = [] := List.filter_eq_nil_iff.2 fun f hf => by simp [none' f hf]
    rw [choose, picked, empty]; rfl
  refine ⟨fun few => ?_, alone⟩
  by_cases none' : ∀ f ∈ rs, f.bulk = false
  · rw [alone none', if_pos (by simpa using none')]
  · rw [if_neg (by simpa using none')]
    cases bulk : pickBy (fun a b => decide (a.seq < b.seq)) (rs.filter (·.bulk)) with
    | none =>
      refine absurd (fun f hf => ?_) none'
      simpa using List.filter_eq_nil_iff.1 (pickBy_eq_none.1 bulk) f hf
    | some b =>
      rw [choose, picked, bulk]
      dsimp only
      rw [if_neg (by omega)]

theorem choose_bulk (he : e ∈ rs) (bulk : e.bulk = true) (oldest : ∀ f ∈ rs, f ≠ e → f.bulk = true → e.seq < f.seq)
    (turn : 15 ≤ c ∨ ∀ f ∈ rs, f.bulk = true) : choose c rs = some (e, 0) := by
  have picked : pickBy (fun a b => decide (a.seq < b.seq)) (rs.filter (·.bulk)) = some e :=
    pickBy_best (List.mem_filter.2 ⟨he, bulk⟩) fun f hf other => by
      obtain ⟨mem, isBulk⟩ := List.mem_filter.1 hf
      have := oldest f mem other isBulk
      simp; omega
  rw [choose, picked]
  cases dry : pickBy Request.before (rs.filter fun r => !r.bulk) with
  | none => rfl
  | some d =>
    dsimp only
    rw [if_pos]
    refine turn.resolve_right fun all => ?_
    have empty : rs.filter (fun r => !r.bulk) = [] := List.filter_eq_nil_iff.2 fun f hf => by simp [all f hf]
    rw [empty] at dry
    cases dry

end

/-! ### Units of a stream -/

theorem unitAt_seq {x : Stream} {i : Nat} {u : SUnit} (h : x.unitAt i = some u) : u.seq = i := by
  simpa using List.find?_some h

/-- A unit that is changed is found by its age where it was. -/
theorem unitAt_setUnit {x : Stream} {i : Nat} {u : SUnit} {f : SUnit → SUnit} (keeps : ∀ w, (f w).seq = w.seq) (h : x.unitAt i = some u) :
    (x.setUnit i f).unitAt i = some (f u) := by
  have seq := unitAt_seq h
  unfold Stream.unitAt Stream.setUnit at *
  dsimp only
  have same : ((fun w : SUnit => w.seq == i) ∘ fun w => if w.seq == i then f w else w) = fun w => w.seq == i := by
    funext w
    dsimp only [Function.comp]
    split
    · rw [keeps]
    · rfl
  rw [List.find?_map, same, h, Option.map_some, if_pos (by simpa using seq)]

/-! ### Tag grants -/

/-- A message to a peer goes out, unless the peer is frozen. -/
theorem send_net_either (s : State) (d vc : Nat) (m : Net) : ∃ l : List Msg, s.send (.net d vc m) = { s with out := s.out ++ l } ∧
    ((s.peer d).frozen = false → l = [.net d vc m]) := by
  cases passed : s.withheld (.net d vc m) with
  | false => exact ⟨[.net d vc m], send_of_passed passed, fun _ => rfl⟩
  | true =>
    refine ⟨[], by rw [State.send, if_pos passed, List.append_nil], fun thawed => ?_⟩
    simp [State.withheld, thawed] at passed

/-- What counts a tag granted (R206). -/
def State.tagTaken (s : State) (v c : Nat) : State :=
  let t : State := { s with bulk := Tab.insert v c s.bulk }
  (t.put STV_TAGS_IN_USE v (s.get STV_TAGS_IN_USE v + 1)).put STV_TAGS_PEAK v (max (s.get STV_TAGS_IN_USE v + 1) (t.get STV_TAGS_PEAK v))

/-- A tag granted to a unit of a length, for the stream as it then is; a short unit is counted (R206, R209). -/
def State.tagGranted (s : State) (v c n : Nat) (x : Stream) (len : Nat) : State :=
  let t := (s.tagTaken v c).putStream n x
  if len < 256 then t.inc STV_SHORT_UNITS_COUNT v 1 else t

theorem tagGranted_frame (s : State) (v c n : Nat) (x : Stream) (len : Nat) : s.tagGranted v c n x len =
    { s with flds := (s.tagGranted v c n x len).flds, bulk := Tab.insert v c s.bulk, streams := (s.putStream n x).streams } := by
  unfold State.tagGranted; dsimp only; split <;> rfl

theorem get_tagsInUse_tagGranted (s : State) (v c n : Nat) (x : Stream) (len : Nat) :
    (s.tagGranted v c n x len).get STV_TAGS_IN_USE v = (s.get STV_TAGS_IN_USE v + 1) % 2 ^ 11 := by
  have taken : (s.tagTaken v c).get STV_TAGS_IN_USE v = (s.get STV_TAGS_IN_USE v + 1) % 2 ^ 11 := by
    unfold State.tagTaken; dsimp only
    rw [State.get_put_other (by decide), State.get_put_self]; rfl
  unfold State.tagGranted; dsimp only; split
  · rw [State.get_inc_other (by decide)]; exact taken
  · exact taken

theorem get_shortUnits_tagGranted (s : State) (v c n : Nat) (x : Stream) {len : Nat} (long : 256 ≤ len) :
    (s.tagGranted v c n x len).get STV_SHORT_UNITS_COUNT v = s.get STV_SHORT_UNITS_COUNT v := by
  unfold State.tagGranted State.tagTaken; dsimp only
  rw [if_neg (by omega), State.get_putStream, State.get_put_other (by decide), State.get_put_other (by decide)]
  rfl

theorem keepsFieldsBut_tagGranted (s : State) (v c n : Nat) (x : Stream) (len : Nat) : KeepsFieldsBut s (s.tagGranted v c n x len)
    [STV_TAGS_IN_USE.key v, STV_TAGS_PEAK.key v, STV_SHORT_UNITS_COUNT.key v] := by
  have taken : KeepsFieldsBut s ((s.tagTaken v c).putStream n x) [STV_TAGS_IN_USE.key v, STV_TAGS_PEAK.key v, STV_SHORT_UNITS_COUNT.key v] := by
    unfold State.tagTaken
    exact keepsFieldsBut_put_listed (keepsFieldsBut_put_listed (keepsFieldsBut_same rfl _) (by simp) _) (by simp) _
  unfold State.tagGranted; dsimp only; split
  · exact keepsFieldsBut_inc_listed taken (by simp) _
  · exact taken

section
variable {s : State} {v now c : Nat} {r : Request} {u : SUnit}

theorem exec_tagGrant (live : Live s) (stevedore : s.stevedoreOk v = true) (free : s.get STV_TAGS_IN_USE v < 1024) :
    exec (.tagGrant ⟨v, now⟩) s = .next (s.grantTag v now) := by
  change execTagGrant ⟨v, now⟩ s = _
  rw [execTagGrant, if_pos (by simp [live_of_Live live, stevedore, free])]

/-- A tag granted: the unit is in flight, and a remote one is asked for. -/
theorem grantTag_eq (chosen : choose (Tab.get (fun _ => 0) s.bulk v) (s.readers v now) = some (r, c))
    (found : (s.stream r.stream).unitAt r.seq = some u) :
    let x := (s.stream r.stream).setUnit r.seq fun w => { w with st := .inFlight, dry := r.dry }
    let t := s.tagGranted v c r.stream x u.len
    s.grantTag v now = if x.srcRemote then t.send (.net x.device (classVc x.cls) (x.ask r.stream { u with st := .inFlight, dry := r.dry })) else t := by
  intro x t
  unfold State.grantTag
  rw [chosen]
  dsimp only
  rw [stream_setStream_self]
  change (match x.unitAt r.seq with | none => _ | some u => _) = _
  rw [show x.unitAt r.seq = some { u with st := .inFlight, dry := r.dry } from unitAt_setUnit (fun w => rfl) found]
  rfl

end

/-! ### Landing -/

/-- The units of a stream's transfer, after the one that lands has landed. -/
theorem shortWrites_frame (s : State) (n : Nat) (x : Stream) (u : SUnit) : s.shortWrites n x u = { s with flds := (s.shortWrites n x u).flds } := by
  unfold State.shortWrites; dsimp only; split <;> rfl

theorem keepsFieldsBut_shortWrites {s t : State} {l : List Nat} {n : Nat} (h : KeepsFieldsBut s t l)
    (listed : STV_SHORT_UNITS_COUNT.key (stevedoreOf n) ∈ l) (x : Stream) (u : SUnit) : KeepsFieldsBut s (t.shortWrites n x u) l := by
  unfold State.shortWrites; dsimp only; split
  · exact h
  · exact keepsFieldsBut_inc_listed h listed _

theorem sends_frame (l : List Msg) (s : State) : l.foldl (fun t m => t.send m) s = { s with out := (l.foldl (fun t m => t.send m) s).out } := by
  induction l generalizing s with
  | nil => rfl
  | cons m l ih => rw [List.foldl_cons, ih, send_frame]

theorem sends_open {l : List Msg} {s : State} (passed : ∀ m ∈ l, s.withheld m = false) :
    l.foldl (fun t m => t.send m) s = { s with out := s.out ++ l } := by
  induction l generalizing s with
  | nil => rw [List.append_nil]; rfl
  | cons m l ih =>
    rw [List.foldl_cons, send_of_passed (passed m (List.mem_cons_self ..))]
    refine (ih fun m' hm => ?_).trans ?_
    · exact passed m' (List.mem_cons_of_mem _ hm)
    · simp

/-- Write units that go out change registers and what was sent alone. -/
theorem sendLanded_frame (s : State) (n : Nat) (u : SUnit) :
    s.sendLanded n u = { s with flds := (s.sendLanded n u).flds, out := (s.sendLanded n u).out } ∧
    KeepsFieldsBut s (s.sendLanded n u) [STV_SHORT_UNITS_COUNT.key (stevedoreOf n)] := by
  unfold State.sendLanded; dsimp only
  split
  · generalize List.takeWhile _ _ = us
    generalize s.stream n = x
    suffices ∀ t : State, t = { s with flds := t.flds, out := t.out } → KeepsFieldsBut s t [STV_SHORT_UNITS_COUNT.key (stevedoreOf n)] →
        us.foldl (fun t w => (x.writeMsgs n w).foldl (fun t m => t.send m) (t.shortWrites n x w)) t = { s with
          flds := (us.foldl (fun t w => (x.writeMsgs n w).foldl (fun t m => t.send m) (t.shortWrites n x w)) t).flds,
          out := (us.foldl (fun t w => (x.writeMsgs n w).foldl (fun t m => t.send m) (t.shortWrites n x w)) t).out } ∧
        KeepsFieldsBut s (us.foldl (fun t w => (x.writeMsgs n w).foldl (fun t m => t.send m) (t.shortWrites n x w)) t)
          [STV_SHORT_UNITS_COUNT.key (stevedoreOf n)] from this s rfl (keepsFieldsBut_same rfl _)
    induction us with
    | nil => exact fun t frame keeps => ⟨frame, keeps⟩
    | cons w us ih =>
      intro t frame keeps
      rw [List.foldl_cons]
      refine ih _ ?_ ?_
      · rw [sends_frame, shortWrites_frame, frame]
      · refine keepsFieldsBut_congr (keepsFieldsBut_shortWrites keeps (List.mem_singleton_self _) x w) ?_
        rw [sends_frame]
  · exact ⟨rfl, keepsFieldsBut_same rfl _⟩

section
variable {s s0 s1 : State} {n i : Nat} {u : SUnit} {data bs : List Byte}

/-- The data that lands for a unit in flight, from another device or from this one's memory, and the state after it is read. -/
def LandsWith (s : State) (n : Nat) (u : SUnit) (data bs : List Byte) (s0 s1 : State) : Prop :=
  if (s.stream n).srcRemote then data.length = u.len ∧ (s.peer (s.stream n).device).frozen = false ∧ bs = data ∧ s1 = s
  else (s.stream n).load = none ∧ s.serveUnit n (s.stream n) u = some s0 ∧ s0.read (s0.streamReq (s.stream n)) u.src u.len = .ok (bs, s1)

theorem exec_readDataLands (live : Live s) (found : (s.stream n).unitAt i = some u) (flying : u.st = .inFlight)
    (lands : LandsWith s n u data bs s0 s1) : exec (.readDataLands n i data) s = .next (s1.landed n u bs) := by
  change execReadDataLands n i data s = _
  rw [execReadDataLands, found]
  dsimp only
  cases remote : (s.stream n).srcRemote with
  | true =>
    rw [LandsWith, remote, if_pos rfl] at lands
    obtain ⟨length, thawed, rfl, rfl⟩ := lands
    rw [if_pos (by simp [live_of_Live live, flying, length, hears_iff, thawed]), State.serveUnit, remote, if_pos rfl]
    dsimp only
    rw [State.landUnit, remote, if_pos rfl]
  | false =>
    rw [LandsWith, remote, if_neg Bool.false_ne_true] at lands
    obtain ⟨own, served, read⟩ := lands
    rw [if_pos (by simp [live_of_Live live, flying]), served]
    dsimp only
    rw [State.landUnit, remote, if_neg Bool.false_ne_true, own]
    dsimp only
    rw [read]

end

/-- A stream with one unit landed. -/
def Stream.withLanded (x : Stream) (u : SUnit) (bs : List Byte) : Stream := x.setUnit u.seq fun w => { w with st := .landed, data := bs }

/-- The state with one unit landed and its tag given back. -/
def State.tagBack (s : State) (n : Nat) (u : SUnit) (bs : List Byte) : State := (s.freeTags n 1).putStream n ((s.stream n).withLanded u bs)

theorem landed_eq (s : State) (n : Nat) (u : SUnit) (bs : List Byte) :
    s.landed n u bs = if (s.stream n).dstKind = 2 then (s.tagBack n u bs).sendLanded n u else s.tagBack n u bs := by
  unfold State.landed; dsimp only
  rw [stream_setStream_self]
  change (if ((s.stream n).dstKind == 2) = true then _ else _) = _
  simp only [beq_iff_eq]
  rfl

theorem landed_frame (s : State) (n : Nat) (u : SUnit) (bs : List Byte) :
    s.landed n u bs = { s.tagBack n u bs with flds := (s.landed n u bs).flds, out := (s.landed n u bs).out } ∧
    KeepsFieldsBut (s.tagBack n u bs) (s.landed n u bs) [STV_SHORT_UNITS_COUNT.key (stevedoreOf n)] := by
  rw [landed_eq]; split
  · exact sendLanded_frame _ _ _
  · exact ⟨rfl, keepsFieldsBut_same rfl _⟩

/-- The only unit of a transfer is the only one after it has landed. -/
theorem transfer_withLanded {x : Stream} {u : SUnit} (single : x.units.filter (fun w => w.xfer == u.xfer) = [u]) (bs : List Byte) :
    (x.withLanded u bs).units.filter (fun w => w.xfer == u.xfer) = [{ u with st := .landed, data := bs }] := by
  have same : ((fun w : SUnit => w.xfer == u.xfer) ∘ fun w => if w.seq == u.seq then { w with st := .landed, data := bs } else w) =
      fun w => w.xfer == u.xfer := by
    funext w
    dsimp only [Function.comp]
    split <;> rfl
  unfold Stream.withLanded Stream.setUnit; dsimp only
  rw [List.filter_map, same, single, List.map_singleton, if_pos (beq_self_eq_true _)]

/-- While an earlier unit of its transfer has not landed, nothing of it goes out (R209). -/
theorem sendLanded_early {s : State} {n : Nat} {u w : SUnit} (hw : w ∈ (s.stream n).units) (same : w.xfer = u.xfer) (earlier : w.seq < u.seq)
    (out : w.st ≠ .landed) : s.sendLanded n u = s := by
  unfold State.sendLanded; dsimp only
  rw [if_neg]
  intro all
  rw [List.all_eq_true] at all
  exact out (by simpa using all w (List.mem_filter.2 ⟨List.mem_filter.2 ⟨hw, by simp [same]⟩, by simpa using earlier⟩))

/-- The only unit of a transfer goes out as its pieces. -/
theorem out_sendLanded_single {s : State} {n : Nat} {u : SUnit} (single : (s.stream n).units.filter (fun w => w.xfer == u.xfer) = [u])
    (landed : u.st = .landed) (thawed : (s.peer (s.stream n).device).frozen = false) : (s.sendLanded n u).out = s.out ++
      (piecesOf u.dst u.len).map fun p => .net (s.stream n).device (classVc (s.stream n).cls)
        (.writeUnit n u.seq p.1 u.dry.1 u.dry.2 (s.stream n).cls (s.stream n).rank (((u.data.take u.len).drop (p.1 - u.dst)).take p.2)) := by
  have of (w : SUnit) (hw : w ∈ (s.stream n).units) (same : (w.xfer == u.xfer) = true) : w = u := by
    have mem : w ∈ (s.stream n).units.filter fun w => w.xfer == u.xfer := List.mem_filter.2 ⟨hw, same⟩
    rwa [single, List.mem_singleton] at mem
  have first : (s.stream n).hasBefore u = false := by
    rw [Stream.hasBefore, List.any_eq_false]
    intro w hw h
    obtain ⟨same, earlier⟩ := Bool.and_eq_true_iff.1 h
    rw [of w hw same] at earlier
    simp at earlier
  have last : (s.stream n).hasAfter u = false := by
    rw [Stream.hasAfter, List.any_eq_false]
    intro w hw h
    obtain ⟨same, later⟩ := Bool.and_eq_true_iff.1 h
    rw [of w hw same] at later
    simp at later
  have range : (s.stream n).writeRange u = (u.dst, u.len) := by
    simp [Stream.writeRange, first, last]
  have here : ((s.stream n).units.filter fun w => w.xfer == u.xfer && decide (w.seq ≤ u.seq)) = [u] := by
    rw [show (fun w : SUnit => w.xfer == u.xfer && decide (w.seq ≤ u.seq)) = fun w => decide (w.seq ≤ u.seq) && w.xfer == u.xfer from
      funext fun _ => Bool.and_comm .., ← List.filter_filter, single]
    simp
  have bytes : (s.stream n).writeData u = u.data.take u.len := by
    unfold Stream.writeData
    rw [range, here]
    simp
  unfold State.sendLanded; dsimp only
  have before : [u].filter (fun w => decide (w.seq < u.seq)) = [] := by simp
  have after : ([u].filter fun w => decide (u.seq ≤ w.seq)).takeWhile (fun w => w.st == .landed) = [u] := by simp [landed]
  rw [single, before, after, List.all_nil, if_pos rfl, List.foldl_cons, List.foldl_nil, sends_open, Stream.writeMsgs, range, bytes]
  · rw [shortWrites_frame]
  · intro m hm
    obtain ⟨p, -, rfl⟩ := List.mem_map.1 hm
    rw [shortWrites_frame]
    exact Bool.and_eq_false_iff.2 (.inr thawed)

end Sys2Proof.Machine
end

section
/-! The statement about tags and landing. -/

namespace Sys2Proof.Safety

open Sys2Proof.Machine

/-- Settles O23: a grant marks its unit, arbitration picks the best request, and a landed unit gives its tag back. -/
theorem tagsAreGrantedAndDataLands : Obligations.TagsAreGrantedAndDataLands := by
  unfold Obligations.TagsAreGrantedAndDataLands
  refine ⟨?grant, ?arbitration, ?land⟩
  case grant =>
    intro s v now c r u live stevedore free chosen found n x
    refine ⟨_, exec_tagGrant live stevedore free, ?_⟩
    rw [grantTag_eq chosen found]
    generalize hx : (s.stream r.stream).setUnit r.seq _ = x'
    have frame := tagGranted_frame s v c r.stream x' u.len
    have used := get_tagsInUse_tagGranted s v c r.stream x' u.len
    have long := get_shortUnits_tagGranted s v c r.stream x' (len := u.len)
    have keeps := keepsFieldsBut_tagGranted s v c r.stream x' u.len
    have seq := unitAt_seq found
    have asks : ∃ l, (if x'.srcRemote then (s.tagGranted v c r.stream x' u.len).send (.net x'.device (classVc x'.cls)
          (x'.ask r.stream { u with st := .inFlight, dry := r.dry })) else s.tagGranted v c r.stream x' u.len) =
        { s.tagGranted v c r.stream x' u.len with out := s.out ++ l } ∧
        (x.srcRemote = true → (s.peer x.device).frozen = false →
          l = [.net x.device (classVc x.cls) (.readRequest n u.seq u.src u.len r.dry.1 r.dry.2 x.cls x.rank)]) ∧ (x.srcRemote = false → l = []) := by
      have out : (s.tagGranted v c r.stream x' u.len).out = s.out := by rw [frame]
      have peer : (s.tagGranted v c r.stream x' u.len).peer x'.device = s.peer x.device := by rw [frame, ← hx]; rfl
      have source : x'.srcRemote = x.srcRemote := by rw [← hx]; rfl
      rw [source]
      split
      next there =>
        obtain ⟨l, sent, passes⟩ := send_net_either (s.tagGranted v c r.stream x' u.len) x'.device (classVc x'.cls)
          (x'.ask r.stream { u with st := .inFlight, dry := r.dry })
        refine ⟨l, by rw [sent, out], fun _ thawed => (passes (by rw [peer]; exact thawed)).trans (by rw [← hx]; rfl), fun h => ?_⟩
        rw [there] at h
        cases h
      next here => exact ⟨[], by rw [List.append_nil, ← out], fun h => absurd h here, fun _ => rfl⟩
    obtain ⟨l, eq, remote, own⟩ := asks
    rw [eq]
    generalize s.tagGranted v c r.stream x' u.len = w at *
    refine ⟨?_, fun m other => ?_, ?_, ?_, long, fun h h' => ?_, fun h => ?_, keeps, ?_⟩
    · change w.stream n = _
      rw [frame]
      exact stream_putStream_self s n x'
    · change w.stream m = _
      rw [frame]
      exact (onlyStream_putStream s n x').2 m other
    · exact used.trans (Nat.mod_eq_of_lt (by omega))
    · change Tab.get _ w.bulk v = c
      rw [frame]
      exact Tab.get_insert_self ..
    · rw [remote h h']
    · rw [own h, List.append_nil]
    · rw [frame]
  case arbitration =>
    exact fun c rs e he => ⟨choose_dry he, choose_bulk he⟩
  case land =>
    intro s s0 s1 n i u data bs live found flying lands x
    refine ⟨_, exec_readDataLands live found flying lands, ?_⟩
    obtain ⟨frame, keeps⟩ := landed_frame s1 n u bs
    have short : STV_SHORT_UNITS_COUNT.key (stevedoreOf n) ≠ STV_TAGS_IN_USE.key (stevedoreOf n) := Fld.key_ne (by decide) _ _
    have tags : (s1.landed n u bs).get STV_TAGS_IN_USE (stevedoreOf n) = (s1.tagBack n u bs).get STV_TAGS_IN_USE (stevedoreOf n) :=
      keeps _ _ (by simpa using short.symm)
    refine ⟨?_, fun m other => ?_, ?_, ?_, fun remote thawed same single => ?_, fun same early => ?_, fun own same => ?_, ?_⟩
    · rw [frame]; exact stream_putStream_self ..
    · rw [frame]; exact (onlyStream_putStream _ n _).2 m other
    · rw [tags]; exact State.get_put_self ..
    · exact keepsFieldsBut_trans (keepsFieldsBut_freeTags s1 n 1) keeps
    · have here : (s1.tagBack n u bs).stream n = x.withLanded u bs := by rw [← same]; exact stream_putStream_self ..
      rw [landed_eq, if_pos (by rw [same]; exact remote)]
      change ((s1.tagBack n u bs).sendLanded n { u with st := .landed, data := bs }).out = _
      rw [out_sendLanded_single (by rw [here]; exact transfer_withLanded single bs) rfl (by rw [here]; exact thawed), here]
      rfl
    · obtain ⟨w, hw, transfer, earlier, out⟩ := early
      have here : w ∈ ((s1.tagBack n u bs).stream n).units := by
        rw [show (s1.tagBack n u bs).stream n = _ from stream_putStream_self .., same]
        exact List.mem_map.2 ⟨w, hw, if_neg (by simp; omega)⟩
      rw [landed_eq]; split
      · rw [sendLanded_early here transfer earlier out]; rfl
      · rfl
    · rw [landed_eq, if_neg (by rw [same]; exact own)]; rfl
    · rw [frame]; rfl

end Sys2Proof.Safety
end


section
/-! SUPPORT. Accepting tiles (R201 to R203): a landed unit is written for a receiver, and slots become ready. -/

namespace Sys2Proof.Machine

open Sys2Proof.Safety

/-! ### Tables written one key after another -/

/-- Where every value written meets Q, each key written holds one that meets Q. -/
theorem find_foldl_insert {α β : Type} {key : β → Nat} {val : Tab α → β → α} {Q : α → Prop} (meets : ∀ t p, Q (val t p)) (l : List β) (t : Tab α)
    {k : Nat} (listed : k ∈ l.map key ∨ ∃ y, Tab.find k t = some y ∧ Q y) :
    ∃ y, Tab.find k (l.foldl (fun t p => Tab.insert (key p) (val t p) t) t) = some y ∧ Q y := by
  induction l generalizing t with
  | nil => simpa using listed
  | cons p l ih =>
    rw [List.foldl_cons]
    refine ih _ ?_
    by_cases here : k = key p
    · exact .inr ⟨val t p, by rw [Tab.find_insert, if_pos here], meets t p⟩
    · refine listed.imp (fun h => ?_) fun h => ?_
      · exact (List.mem_cons.1 h).resolve_left here
      · rwa [Tab.find_insert, if_neg here]

theorem find_tagBlocks (s : State) (a n tile : Nat) {p : Nat × Nat} (hp : p ∈ piecesOf a n) :
    Tab.find (p.1 / 256) (s.tagBlocks a n tile).tags = some (tile % 256) := by
  obtain ⟨y, found, rfl⟩ := find_foldl_insert (key := fun p : Nat × Nat => p.1 / 256) (val := fun _ _ => tile % 256) (Q := (· = tile % 256))
    (fun _ _ => rfl) (piecesOf a n) s.tags (.inl (List.mem_map_of_mem hp))
  exact found

theorem find_noteOrigin (s : State) (x : Stream) (a n tile : Nat) {p : Nat × Nat} (hp : p ∈ piecesOf a n) :
    ∃ f, Tab.find (p.1 / 256) (s.noteOrigin x a n tile).origins = some ⟨x.job, x.unit, x.owner, x.bind, f, tile⟩ := by
  obtain ⟨y, found, f, rfl⟩ := find_foldl_insert (key := fun p : Nat × Nat => p.1 / 256)
    (val := fun t p => (⟨x.job, x.unit, x.owner, x.bind, match Tab.find (p.1 / 256) t with
      | some o => if p.1 % 256 != 0 && o.job == x.job && o.unit == x.unit && o.task == x.owner && o.bind == x.bind then o.first else tile
      | none => tile, tile⟩ : Origin))
    (Q := fun o => ∃ f, o = ⟨x.job, x.unit, x.owner, x.bind, f, tile⟩) (fun _ _ => ⟨_, rfl⟩) (piecesOf a n) s.origins
    (.inl (List.mem_map_of_mem hp))
  exact ⟨f, found⟩

/-! ### Writing one unit -/

section
variable {s : State} {n i : Nat} {r : Rcv} {u : SUnit} {rest : List SUnit}

/-- TILE_ACCEPT, once its units are written: what it goes on with. -/
def State.afterTile (s : State) (n : Nat) : State := ((s.detachSlow n).endBounded n).loadOn n

theorem afterTile_plain (grace : (s.stream n).grace ≠ 0) (runs : (s.stream n).st ≠ .halted) (job : (s.stream n).load = none) :
    s.afterTile n = s := by
  have attached : s.detachSlow n = s := by unfold State.detachSlow; dsimp only; rw [if_neg (by simpa using grace)]
  have stays : s.endBounded n = s := by unfold State.endBounded; dsimp only; rw [if_neg (by simp [runs])]
  rw [State.afterTile, attached, stays, State.loadOn, job]

theorem exec_tileAccept (live : Live s) (reads : (s.stream n).mayRead = true) (found : (s.stream n).rcv[i]? = some r) (attached : r.attached = true) :
    exec (.tileAccept n i) s = .next ((s.writeTile n i ((s.stream n).units.filter fun w => r.needs w)).afterTile n) := by
  change execTileAccept n i s = _
  rw [execTileAccept, found]
  exact if_pos (by simp [live_of_Live live, reads, attached])

variable (found : (s.stream n).rcv[i]? = some r)
include found

theorem writeTile_stops (stops : u.st ≠ .landed ∨ u.tile ≠ r.accepted) : s.writeTile n i (u :: rest) = s := by
  rw [State.writeTile]; dsimp only
  rw [found]; dsimp only
  rw [if_pos (by simpa using stops)]

theorem writeTile_taken (berth : (s.stream n).dstKind = 0)
    (taken : ∃ k ∈ slotsIn ((s.stream n).writeRange u).1 ((s.stream n).writeRange u).2, s.slotTaken (s.stream n) r u.seq k = true) :
    s.writeTile n i (u :: rest) = s := by
  rw [State.writeTile]; dsimp only
  rw [found]; dsimp only
  split
  · rfl
  · rw [if_pos]
    simpa [berth] using taken

/-- The state once a unit is written for receiver i: the write is counted, and the receiver goes on to the next unit. -/
def State.unitWritten (s : State) (n i : Nat) (r : Rcv) (u : SUnit) (t : State) : State :=
  (if (s.stream n).dstKind = 2 then t else t.shortWrites n (s.stream n) u).putStream n ((s.stream n).wroteUnit i r u)

theorem writeTile_writes {t : State} (landed : u.st = .landed) (tile : u.tile = r.accepted)
    (open' : (s.stream n).dstKind = 0 → ∀ k ∈ slotsIn ((s.stream n).writeRange u).1 ((s.stream n).writeRange u).2,
      s.slotTaken (s.stream n) r u.seq k = false)
    (wrote : s.writeUnit (s.stream n) r u = .ok t) : s.writeTile n i (u :: rest) = (s.unitWritten n i r u t).writeTile n i rest := by
  rw [State.writeTile]; dsimp only
  rw [found]; dsimp only
  rw [if_neg (by simp [landed, tile]), if_neg, wrote]
  · dsimp only [State.unitWritten]
    simp only [beq_iff_eq]
  · rw [Bool.and_eq_true, List.any_eq_true]
    rintro ⟨berth, k, hk, taken⟩
    rw [open' (by simpa using berth) k hk] at taken
    cases taken

omit found in
theorem unitWritten_frame (n i : Nat) (r : Rcv) (u : SUnit) (s t : State) : let one := s.unitWritten n i r u t
    one = { t with flds := one.flds, streams := one.streams } ∧ (∀ m, m ≠ n → one.stream m = t.stream m) ∧
    (one.stream n).rcv = (s.stream n).rcv.set i (r.wroteUnit (s.stream n) u) ∧ ((s.stream n).dstKind = 2 → one.flds = t.flds) ∧
    KeepsFieldsBut t one [STV_SHORT_UNITS_COUNT.key (stevedoreOf n)] := by
  have stream (v : State) : ((v.putStream n ((s.stream n).wroteUnit i r u)).stream n).rcv = (s.stream n).rcv.set i (r.wroteUnit (s.stream n) u) := by
    rw [stream_putStream_self]; rfl
  unfold State.unitWritten
  split
  next => exact ⟨rfl, (onlyStream_putStream t n _).2, stream _, fun _ => rfl, keepsFieldsBut_same rfl _⟩
  next other =>
    refine ⟨?_, fun m hm => ?_, stream _, fun h => absurd h other, ?_⟩
    · rw [shortWrites_frame]; rfl
    · refine ((onlyStream_putStream _ n _).2 m hm).trans ?_
      rw [shortWrites_frame]; rfl
    · exact keepsFieldsBut_shortWrites (keepsFieldsBut_same rfl _) (List.mem_singleton_self _) _ _

end

theorem writeUnit_remote {s w : State} {x : Stream} {r : Rcv} {u : SUnit} (remote : x.dstKind = 2) (wrote : s.writeUnit x r u = .ok w) : w = s := by
  unfold State.writeUnit at wrote
  simp [remote] at wrote
  exact wrote.symm

/-- A unit for a berth is written at its destination, and its blocks are tagged with its tile (R112, R201). -/
theorem writeUnit_berth {s : State} {x : Stream} {r : Rcv} {u : SUnit} (berth : x.dstKind = 0) (unveiled : s.veiled = []) (unmarked : s.ecc = [])
    (whole : (x.writeData u).length = (x.writeRange u).2) : ∃ t, s.writeUnit x r u = .ok t ∧
    (∀ a, memAt t a = if x.target r (x.writeRange u).1 ≤ a ∧ a < x.target r (x.writeRange u).1 + (x.writeRange u).2 then
      (x.writeData u).getD (a - x.target r (x.writeRange u).1) 0 else memAt s a) ∧
    (∀ p ∈ piecesOf (x.target r (x.writeRange u).1) (x.writeRange u).2, Tab.find (p.1 / 256) t.tags = some (u.tile % 256) ∧
      ∃ f, Tab.find (p.1 / 256) t.origins = some ⟨x.job, x.unit, x.owner, x.bind, f, u.tile⟩) ∧
    t = { s with ecc := t.ecc, mem := t.mem, hot := t.hot, tags := t.tags, origins := t.origins } := by
  obtain ⟨bytes, frame⟩ := writeLoc_bytes (s := s) (p := x.target r (x.writeRange u).1) (bs := x.writeData u) .normal unveiled
    fun w _ => by rw [unmarked]; rfl
  rw [whole] at bytes
  unfold State.writeUnit; dsimp only
  rw [if_pos (by simp [berth])]
  generalize hw : s.writeLoc _ _ = w at *
  refine ⟨_, rfl, bytes, fun p hp => ⟨find_tagBlocks w _ _ _ hp, find_noteOrigin (w.tagBlocks _ _ _) x _ _ _ hp⟩, ?_⟩
  unfold State.noteOrigin State.tagBlocks; dsimp only
  rw [frame]

/-- A unit for this device's memory, within one piece of it, is written at its destination. -/
theorem writeUnit_local {s : State} {x : Stream} {r : Rcv} {u : SUnit} (local' : x.dstKind = 1) (job : x.load = none) (unveiled : s.veiled = [])
    (unmarked : s.ecc = []) (whole : (x.writeData u).length = (x.writeRange u).2) (some' : 0 < (x.writeRange u).2)
    (one : (x.writeRange u).1 % 256 + (x.writeRange u).2 ≤ 256) (low : (x.writeRange u).1 + (x.writeRange u).2 ≤ 2 ^ 47)
    (place : s.locate (s.streamReq x) true (x.writeRange u).1 = .ok (.dev (x.writeRange u).1 .normal)) : ∃ t, s.writeUnit x r u = .ok t ∧
    (∀ a, memAt t a = if x.target r (x.writeRange u).1 ≤ a ∧ a < x.target r (x.writeRange u).1 + (x.writeRange u).2 then
      (x.writeData u).getD (a - x.target r (x.writeRange u).1) 0 else memAt s a) ∧
    t = { s with ecc := t.ecc, mem := t.mem, hot := t.hot } := by
  have target : x.target r (x.writeRange u).1 = (x.writeRange u).1 := by simp [Stream.target, local']
  obtain ⟨t, wrote, bytes, frame⟩ := write_unmarked (s := s) (bs := x.writeData u) (oneAccess_iff.2 (by rw [whole]; omega))
    (by unfold hostBase; omega) place unveiled fun w _ => by rw [unmarked]; rfl
  rw [whole] at bytes
  rw [target]
  refine ⟨t, ?_, bytes, frame⟩
  unfold State.writeUnit; dsimp only
  rw [if_neg (by simp [local']), if_pos (by simp [local']), job]
  exact wrote

/-! ### Slots that become ready -/

theorem exec_readyBitSet {s : State} {n i k : Nat} {r : Rcv} (live : Live s) (berth : (s.stream n).dstKind = 0) (found : (s.stream n).rcv[i]? = some r)
    (attached : r.attached = true) (done : (s.stream n).slotDone r k = true) : exec (.readyBitSet n i k) s = .next (s.makeReady n i k) := by
  change execReadyBitSet n i k s = _
  rw [execReadyBitSet, found]
  exact if_pos (by simp [live_of_Live live, berth, attached, done])

/-- A task that waits becomes READY once every slot it waits for is ready (R167). -/
theorem ctx_rouse (s : State) (k c : Nat) : (s.rouse k c).ctx k c =
    if (s.ctx k c).st = .waitTile ∧ ∀ i ∈ (s.ctx k c).late, i ∈ (s.ctx k c).hearth ∨ s.isReady k (s.ctx k c).half ((s.ctx k c).base + i) = true
    then { s.ctx k c with st := .ready, late := [] } else s.ctx k c := by
  unfold State.rouse; dsimp only
  split
  next h =>
    rw [if_pos (by simpa using h)]
    exact State.ctx_putCtx_self ..
  next h =>
    rw [if_neg]
    simpa using h

end Sys2Proof.Machine
end

section
/-! The statement about accepting tiles. -/

namespace Sys2Proof.Safety

open Sys2Proof.Machine

/-- Settles O24: one unit is written or stops the writing (`writeTile_writes`, `writeTile_stops`), and a slot becomes ready by `makeReady`. -/
theorem tilesAreAcceptedInOrder : Obligations.TilesAreAcceptedInOrder := by
  unfold Obligations.TilesAreAcceptedInOrder
  refine ⟨?accept, ?receiver, ?ready⟩
  case accept =>
    intro s n i r u rest live reads found attached next x w after
    have accepts := exec_tileAccept live reads found attached
    rw [next] at accepts
    refine ⟨afterTile_plain, fun stops => ?_, fun berth taken => ?_, ?_, ?_⟩
    · rw [accepts, writeTile_stops found stops]; rfl
    · rw [accepts, writeTile_taken found berth taken]; rfl
    · intro landed tile whole some' unveiled unmarked place
      have written : ∃ t, s.writeUnit x r u = .ok t ∧
          (∀ a, memAt t a = if x.target r w.1 ≤ a ∧ a < x.target r w.1 + w.2 then (x.writeData u).getD (a - x.target r w.1) 0 else memAt s a) ∧
          (x.dstKind = 0 → ∀ p ∈ piecesOf (x.target r w.1) w.2, Tab.find (p.1 / 256) t.tags = some (u.tile % 256) ∧
            ∃ f, Tab.find (p.1 / 256) t.origins = some ⟨x.job, x.unit, x.owner, x.bind, f, u.tile⟩) ∧
          (x.dstKind ≠ 0 → t.tags = s.tags ∧ t.origins = s.origins) ∧
          t = { s with ecc := t.ecc, mem := t.mem, hot := t.hot, tags := t.tags, origins := t.origins } := by
        split at place
        next berth =>
          obtain ⟨t, wrote, bytes, blocks, frame⟩ := writeUnit_berth (r := r) berth unveiled unmarked whole
          exact ⟨t, wrote, bytes, fun _ => blocks, fun h => absurd berth h, frame⟩
        next other =>
          obtain ⟨local', job, one, low, here⟩ := place
          obtain ⟨t, wrote, bytes, frame⟩ := writeUnit_local (r := r) local' job unveiled unmarked whole some' one low here
          exact ⟨t, wrote, bytes, fun h => absurd h other, fun _ => by rw [frame]; exact ⟨rfl, rfl⟩, by rw [frame]⟩
      have open' : x.dstKind = 0 → ∀ k ∈ slotsIn w.1 w.2, s.slotTaken x r u.seq k = false := fun berth => by rwa [if_pos berth] at place
      obtain ⟨t, wrote, bytes, blocks, untagged, frame⟩ := written
      obtain ⟨eq, others, rcv, -, keeps⟩ := unitWritten_frame n i r u s t
      have mem (a : Nat) : memAt (s.unitWritten n i r u t) a = memAt t a := by rw [eq]; rfl
      refine ⟨_, accepts, s.unitWritten n i r u t, ?_, fun k hk => ?_, fun a outside => ?_, rcv, fun m other => ?_, fun berth => ?_, fun other => ?_, ?_, ?_⟩
      · rw [writeTile_writes found landed tile open' wrote]; rfl
      · rw [mem, bytes, if_pos (by omega), Nat.add_sub_cancel_left]
      · rw [mem, bytes, if_neg outside]
      · rw [others m other, frame]; rfl
      · rw [eq]; exact blocks berth
      · rw [eq]; exact untagged other
      · exact fun f j outside => (keeps f j outside).trans (State.get_of_flds (by rw [frame]) f j)
      · rw [eq, frame]
    · intro t landed tile other wrote same
      refine ⟨_, accepts, s.unitWritten n i r u t, ?_, ?_⟩
      · rw [writeTile_writes found landed tile (fun berth => absurd berth other) wrote]; rfl
      · obtain ⟨frame, others, rcv, flds, -⟩ := unitWritten_frame n i r u s t
        refine ⟨frame, fun remote => ?_, rcv, others⟩
        have here := writeUnit_remote remote wrote
        exact ⟨here, by rw [flds remote, here]⟩
  case receiver =>
    intro x r u
    refine ⟨rfl, rfl, rfl, fun k berth hk => ?_⟩
    unfold Rcv.wroteUnit; dsimp only
    rw [if_pos (by simp [berth])]
    exact List.mem_append_left _ (List.mem_map.2 ⟨k, hk, rfl⟩)
  case ready =>
    intro s n i k r live berth found attached done c
    refine ⟨_, exec_readyBitSet live berth found attached done, ?_⟩
    have made := makeReady_madeReady s n i k
    refine ⟨isReady_makeReady found k, fun kiln half slot other => ?_, ?_, made.others, made.frame⟩
    · obtain ⟨l, eq⟩ := makeReady_found found k
      rw [eq, isReady_rouse, isReady_setReady, if_neg other]; rfl
    · obtain ⟨l, eq⟩ := makeReady_found found k
      simp only [eq, isReady_rouse]
      exact ctx_rouse _ _ _

end Sys2Proof.Safety
end


section
/-! The statement about halts and resumes, which fails where the halted task's job is no longer admitted. -/

namespace Sys2Proof.Safety

open Sys2Proof.Machine

/-- A task at slot 1 of kiln 4, halted with SCALE_SLIP at the first group of a LAYER. -/
def slippedTask : KCtx :=
  { st := .halted, reason := 1, gen := 9, base := 8, slots := 4, job := 1,
    cmd := 3280876087174517886706967214900196778171925007150939223435991019256951853359813273144205300469858305 }

/-- The device in service with that task and the stream that brought its weight tile, and no job admitted. -/
def haltedJobless : State :=
  ((({ power := { mode := .run }, origins := [(berthAddr 4 false 0x8000 / 256, ⟨1, 0, 0, 0, 0, 0⟩)] } : State).put LHS_START_STEP 0 3).putCtx 4 1
    slippedTask).putStream 5 { st := .running, job := 1, rcv := [⟨4, 1, false, 8, 0, true, 4, [], 0⟩] }

/-- The command completes, and the stream of the task still runs. -/
theorem resume_haltedJobless : (match exec (.resumeKilnTask 17 0 9) haltedJobless with
    | .next t => (t.stream 5).st == .running
    | _ => false) = true := by decide +kernel

/-- The stream is the task's own, and brought a tile of the group that failed. -/
theorem own_haltedJobless : (haltedJobless.stream 5).ownOf (haltedJobless.ctx 4 1).job (haltedJobless.ctx 4 1).unit (haltedJobless.ctx 4 1).task = true ∧
    (layerOf (haltedJobless.ctx 4 1).cmd).any (fun l => ((haltedJobless.groupTiles 4 (haltedJobless.ctx 4 1) l).tileOf
      (haltedJobless.stream 5).owner (haltedJobless.stream 5).bind).isSome) = true := by
  decide +kernel

/-- Refutes O25: `restartStreams` frees a task's own streams only while the task's job is admitted, and a task of no admitted job that
resumes leaves its stream running (`haltedJobless`). -/
theorem not_streamsAndTasksHaltAndResume : ¬ Obligations.StreamsAndTasksHaltAndResume := by
  unfold Obligations.StreamsAndTasksHaltAndResume
  rintro ⟨-, -, resumes⟩
  obtain ⟨own, tiles⟩ := own_haltedJobless
  obtain ⟨l, layer, brought⟩ := (Option.any_eq_true _ _).1 tiles
  have up : HostUp haltedJobless := by unfold HostUp; decide +kernel
  obtain ⟨t, run, -, -, -, free, -⟩ := (resumes haltedJobless 4 1 0 9 up (by decide) (by decide) (by decide) (by decide)).1 l rfl
    (by decide +kernel) (by decide +kernel) (by decide +kernel) layer
  have freed := free 5 own brought
  have running := resume_haltedJobless
  rw [show exec (.resumeKilnTask 17 0 9) haltedJobless = .next t from run] at running
  rw [beq_iff_eq.1 running] at freed
  cases freed

end Sys2Proof.Safety
end


section
/-! SUPPORT. Commands of a task (R144 to R149): what one that is taken runs on, and how a slot's context moves on when it is done. -/

namespace Sys2Proof.Machine

open Sys2Proof.Safety

/-! ### Taking a command -/

section
variable {s u : State} {k c op n v : Nat}

/-- A command that is at its task's program counter runs on the state after it is read. -/
theorem command_at (h : AtCommand s k c op n v u) (known : opKnown op = true) (run : Nat → State → State) : s.command k c op n run = run v u := by
  obtain ⟨live, exists', slot, running, ready, undebugged, ⟨bs, w, head, opcode, header⟩, bs', whole, rfl⟩ := h
  unfold State.command; dsimp only
  have starts : s.canStart k c = true := by simp [State.canStart, live_of_Live live, exists', slot, running, ready]
  rw [if_pos starts, head]; dsimp only
  rw [opcode, known, if_neg (by simp), if_neg (by simp), undebugged, if_neg (by simp), header, if_neg (by simp), whole]

theorem reports_of_AtCommand (h : AtCommand s k c op n v u) : Reports s u := by
  obtain ⟨-, -, -, -, -, -, -, bs', whole, -⟩ := h
  exact reports_read whole

theorem dbgReq_of_AtCommand (h : AtCommand s k c op n v u) : (s.ctx k c).dbgReq = 0 := by
  obtain ⟨-, -, -, -, -, undebugged, -⟩ := h
  exact undebugged

theorem ready_of_AtCommand (h : AtCommand s k c op n v u) : (s.ctx k c).st = .ready := by
  obtain ⟨-, -, -, -, ready, -⟩ := h
  exact ready

theorem taskReq_of_reports (h : Reports s u) (x : KCtx) : u.taskReq x = s.taskReq x := by
  rw [State.taskReq, State.taskReq, h.job]

/-- Without a debug request a command that is done leaves its slot at the next one. -/
theorem commandDone_eq (undebugged : (s.ctx k c).dbgReq = 0) : s.commandDone k c n false = s.putCtx k c (cmdDone (s.ctx k c) n) := by
  unfold State.commandDone; dsimp only
  rw [if_neg (by rw [undebugged]; decide)]
  rfl

/-- The same for a command that writes pins, when no restart replays it. -/
theorem commandDone_pins (undebugged : (s.ctx k c).dbgReq = 0) (first : (s.ctx k c).replay = none) :
    s.commandDone k c n true = s.putCtx k c { cmdDone (s.ctx k c) n with pinWriter := some (s.ctx k c).pc } := by
  unfold State.commandDone; dsimp only
  rw [if_neg (by rw [undebugged]; decide), if_pos rfl]
  split
  next back => cases first.symm.trans back
  next => rfl

/-! ### One slot changes -/

theorem find_putCtx (s : State) (k c : Nat) (x : KCtx) {d : Nat} (other : d ≠ 4 * k + c) : Tab.find d (s.putCtx k c x).ctxs = Tab.find d s.ctxs := by
  unfold State.putCtx; dsimp only
  rw [Tab.find_insert, if_neg other]

@[simp] theorem putCtx_putCtx (s : State) (k c : Nat) (x y : KCtx) : (s.putCtx k c x).putCtx k c y = s.putCtx k c y := by
  simp [State.putCtx]

end

/-! ### Fields of a command -/

theorem onlyBits_iff {w : Nat} {rs : List (Nat × Nat)} : onlyBits w rs = true ↔ w = (rs.map fun r => bits w r.1 r.2 * 2 ^ r.1).sum := beq_iff_eq

theorem bits_zero (v n : Nat) : bits v 0 n = v % 2 ^ n := by simp [bits]

/-! ### SWAP -/

theorem find_setReady (s : State) (k : Nat) (h : Bool) (a : Nat) (b : Bool) {d : Nat} (other : d ≠ readyKey k h a) :
    Tab.find d (s.setReady k h a b).ready = Tab.find d s.ready := by
  unfold State.setReady Tab.set; dsimp only
  split
  · rw [Tab.find_erase, if_neg other]
  · rw [Tab.find_insert, if_neg other]

/-- The state with ready bits of a half cleared. -/
def State.clearBits (s : State) (k : Nat) (h : Bool) (base : Nat) (l : List Nat) : State :=
  l.foldl (fun t i => t.setReady k h (base + i) false) s

theorem clearBits_spec (k : Nat) (h : Bool) (base : Nat) (l : List Nat) (s : State) :
    s.clearBits k h base l = { s with ready := (s.clearBits k h base l).ready } ∧
    (∀ i ∈ l, (s.clearBits k h base l).isReady k h (base + i) = false) ∧
    (∀ i, s.isReady k h i = false → (s.clearBits k h base l).isReady k h i = false) ∧
    (∀ d, (∀ i ∈ l, d ≠ readyKey k h (base + i)) → Tab.find d (s.clearBits k h base l).ready = Tab.find d s.ready) := by
  induction l generalizing s with
  | nil => exact ⟨rfl, by simp, fun _ => id, fun _ _ => rfl⟩
  | cons j l ih =>
    obtain ⟨frame, cleared, stays, others⟩ := ih (s.setReady k h (base + j) false)
    refine ⟨frame, fun i hi => ?_, fun i was => stays i ?_, fun d hd => ?_⟩
    · rcases List.mem_cons.1 hi with rfl | hi
      · exact stays _ (by rw [isReady_setReady, if_pos rfl])
      · exact cleared i hi
    · rw [isReady_setReady]; split
      · rfl
      · exact was
    · exact (others d fun i hi => hd i (List.mem_cons_of_mem _ hi)).trans (find_setReady s k h _ _ (hd j (List.mem_cons_self ..)))

section
variable {s : State} {k c v : Nat}

theorem runSwap_settled (fields : v < 2 ^ 24) (settled : (s.ctx k c).rows = []) (undebugged : (s.ctx k c).dbgReq = 0) : s.runSwap k c v =
    (s.clearBits k (s.ctx k c).half (s.ctx k c).base (List.range (s.ctx k c).slots)).putCtx k c
      (cmdDone { s.ctx k c with half := !(s.ctx k c).half, hearth := [] } 32) := by
  have good : onlyBits v [(0, 24)] = true := onlyBits_iff.2 (by simp [bits_zero]; omega)
  unfold State.runSwap; dsimp only
  rw [good, if_neg (by simp), if_pos (by simp [KCtx.settled, settled]), commandDone_eq (by rw [State.ctx_putCtx_self]; exact undebugged),
    State.ctx_putCtx_self, putCtx_putCtx]
  rfl

/-! ### Barriers -/

theorem barrierOk_scratch {a d w : Nat} (aligned : a % 8 = 0) (low : whsBase ≤ a) (high : a < whsBase + whsBytes)
    (hw : wayOf (a - whsBase) = (d, w)) (scratch : s.wayUse d w = 0) (open' : s.wayClasses d w ≠ 0) : s.barrierOk a = true := by
  unfold State.barrierOk
  rw [hw]
  simp [barOk, aligned, low, high, scratch, open']

theorem runArrive_writes {a : Nat} {t : State} (place : bits v 32 48 = a) (fields : onlyBits v [(0, 24), (24, 6), (32, 48)] = true)
    (good : s.barrierOk a = true) (settled : (s.ctx k c).rows = [])
    (wrote : s.barrierWrite (s.taskReq (s.ctx k c)) 1 a (2 ^ bits v 24 6) = .ok t) : s.runArrive k c v = t.commandDone k c 32 false := by
  unfold State.runArrive; dsimp only
  rw [place, fields, good, if_neg (by simp), if_pos (by simp [KCtx.settled, settled]), wrote]

theorem runClearbar_writes {a : Nat} {t : State} (place : bits v 32 48 = a) (fields : onlyBits v [(0, 24), (32, 48), (128, 64)] = true)
    (good : s.barrierOk a = true) (wrote : s.barrierWrite (s.taskReq (s.ctx k c)) 2 a (bits v 128 64) = .ok t) :
    s.runClearbar k c v = t.commandDone k c 32 false := by
  unfold State.runClearbar; dsimp only
  rw [place, fields, good, if_neg (by simp), wrote]

theorem runWaitbar_reads {a : Nat} {t : State} {bs : List Byte} (place : bits v 32 48 = a)
    (fields : onlyBits v [(0, 24), (32, 48), (128, 64)] = true) (good : s.barrierOk a = true)
    (read : s.read (s.taskReq (s.ctx k c)) a 8 = .ok (bs, t)) : s.runWaitbar k c v =
      if leNat bs &&& bits v 128 64 = bits v 128 64 then t.commandDone k c 32 false else t.putCtx k c { s.ctx k c with st := .waitBar } := by
  unfold State.runWaitbar; dsimp only
  rw [place, fields, good, if_neg (by simp), read]
  simp only [beq_iff_eq]

theorem barrierPlace_of_arrive {v a b : Nat} (fields : v = v % 2 ^ 24 + 2 ^ 24 * b + 2 ^ 32 * a) (hb : b < 64) (ha : a < 2 ^ 48) :
    bits v 32 48 = a := by
  unfold bits; omega

theorem barrierPlace_of_mask {v a m : Nat} (fields : v = v % 2 ^ 24 + 2 ^ 32 * a + 2 ^ 128 * m) (ha : a < 2 ^ 48) : bits v 32 48 = a := by
  unfold bits; omega

/-- Three fields, the lowest from bit 0. -/
theorem onlyBits_three {v b m c l : Nat} (fields : v = v % 2 ^ 24 + 2 ^ b * bits v b m + 2 ^ c * bits v c l) :
    onlyBits v [(0, 24), (b, m), (c, l)] = true := by
  rw [onlyBits_iff]
  show v = bits v 0 24 * 2 ^ 0 + (bits v b m * 2 ^ b + (bits v c l * 2 ^ c + 0))
  rw [bits_zero, Nat.pow_zero, Nat.mul_one, Nat.add_zero, ← Nat.add_assoc, Nat.mul_comm (bits v b m), Nat.mul_comm (bits v c l)]
  exact fields

section
variable {u : State} (h : Reports s u)
include h

theorem Reports.wayStopped (d w : Nat) : u.wayStopped d w = s.wayStopped d w := by
  unfold State.wayStopped State.bitAt
  rw [h.get (by decide), h.get (by decide)]

theorem Reports.wayUse (d w : Nat) : u.wayUse d w = s.wayUse d w := by
  unfold State.wayUse
  rw [h.get (by decide)]

theorem Reports.wayClasses (d w : Nat) : u.wayClasses d w = s.wayClasses d w := by
  unfold State.wayClasses
  rw [h.get (by decide)]

end

/-! ### LOADPIN -/

theorem runLoadpin_reads {t : State} {bs : List Byte}
    (fields : onlyBits v [(0, 24), (32, 12), (44, 12), (56, 16), (72, 2), (128, 40)] = true) (fmt : bits v 72 2 ≠ 3)
    (columns : bits v 44 12 + bits v 32 12 < 4096)
    (read : s.read (s.taskReq (s.ctx k c)) (256 * bits v 128 40) (4 * (bits v 32 12 + 1)) = .ok (bs, t)) : s.runLoadpin k c v =
      (t.putCtx k c { s.ctx k c with
        pins := (List.range (bits v 32 12 + 1)).foldl (fun p i => Tab.insert (bits v 44 12 + i) (fieldOf bs (4 * i) 4) p) (s.ctx k c).pins,
        pinRec := some (bits v 56 16, bits v 72 2), pinUsed := [] }).commandDone k c 32 true := by
  unfold State.runLoadpin; dsimp only
  rw [fields, if_neg, read]
  simp only [Bool.not_true, Bool.false_or, Bool.or_eq_true, beq_iff_eq, decide_eq_true_eq]
  omega

end

/-- What a table holds after consecutive keys are written. -/
theorem find_foldl_columns {α : Type} (first : Nat) (f : Nat → α) (n : Nat) (t : Tab α) (m : Nat) :
    Tab.find m ((List.range n).foldl (fun p i => Tab.insert (first + i) (f i) p) t) =
      if first ≤ m ∧ m < first + n then some (f (m - first)) else Tab.find m t := by
  induction n with
  | zero => rw [if_neg (by omega)]; rfl
  | succ n ih =>
    rw [List.range_succ, List.foldl_append, List.foldl_cons, List.foldl_nil, Tab.find_insert, ih]
    by_cases last : m = first + n
    · rw [if_pos last, if_pos (by omega), last, Nat.add_sub_cancel_left]
    · rw [if_neg last]
      exact if_congr (by omega) rfl rfl

end Sys2Proof.Machine
end

section
/-! The statement about a task's commands. -/

namespace Sys2Proof.Safety

open Sys2Proof.Machine

/-- Settles O26: each command runs on the state after it is read (`command_at`), and leaves its slot at the next one. -/
theorem taskCommandsHaveTheirEffect : Obligations.TaskCommandsHaveTheirEffect := by
  unfold Obligations.TaskCommandsHaveTheirEffect
  refine ⟨?swap, ?barrier, ?waitbar, ?loadpin⟩
  case swap =>
    intro s u k c v h fields settled x
    have reports := reports_of_AtCommand h
    have same : u.ctx k c = x := reports.ctx k c
    have undebugged : (u.ctx k c).dbgReq = 0 := by rw [same]; exact dbgReq_of_AtCommand h
    refine ⟨_, congrArg Host.Outcome.next ((command_at h rfl _).trans (runSwap_settled fields (by rw [same]; exact settled) undebugged)), ?_⟩
    rw [same]
    obtain ⟨frame, cleared, -, others⟩ := clearBits_spec k x.half x.base (List.range x.slots) u
    generalize u.clearBits k x.half x.base (List.range x.slots) = w at *
    refine ⟨State.ctx_putCtx_self .., fun i hi => cleared i (List.mem_range.2 hi), fun n hn => ?_, fun d hd => ?_, ?_⟩
    · rw [← reports.ready]; exact others n fun i hi => hn i (List.mem_range.1 hi)
    · rw [find_putCtx _ _ _ _ hd, frame, reports.ctxs]
    · rw [frame]; rfl
  case barrier =>
    intro s u k c op v a which h fields aligned low high unveiled unmarked x
    split
    next d w hw =>
    intro running scratch open' admits debug
    have reports := reports_of_AtCommand h
    have same : u.ctx k c = x := reports.ctx k c
    have undebugged : x.dbgReq = 0 := dbgReq_of_AtCommand h
    have fits : a < 2 ^ 48 := by unfold whsBase whsBytes at high; omega
    have memU (y : Nat) : memAt u y = memAt s y := memAt_congr reports.mem reports.undef y
    rw [← reports.wayStopped] at running
    rw [← reports.wayUse] at scratch
    rw [← reports.wayClasses] at open' admits
    have good : u.barrierOk a = true := barrierOk_scratch aligned low high hw scratch open'
    have writes (mode mask : Nat) (hmode : mode < 3) := barrierWrite_scratch (r := s.taskReq x) hmode aligned low high
      (reports.veiled.trans unveiled) unmarked hw running scratch open' admits mask
    rw [← taskReq_of_reports reports, ← same] at writes
    have after {t : State} (frame : t = { u with ecc := t.ecc, mem := t.mem }) : t.commandDone k c 32 false = t.putCtx k c (cmdDone x 32) := by
      have here : t.ctx k c = x := by rw [← same, frame]; rfl
      rw [commandDone_eq (by rw [here]; exact undebugged), here]
    have others {t : State} (frame : t = { u with ecc := t.ecc, mem := t.mem }) (d : Nat) (hd : d ≠ 4 * k + c) :
        Tab.find d (t.putCtx k c (cmdDone x 32)).ctxs = Tab.find d s.ctxs := by
      rw [find_putCtx _ _ _ _ hd, frame, ← reports.ctxs]
    rcases which with rfl | rfl
    · obtain ⟨fields, settled⟩ := fields
      have place := barrierPlace_of_arrive fields (Nat.mod_lt _ (by decide)) fits
      obtain ⟨t, wrote, bytes, frame⟩ := writes 1 (2 ^ bits v 24 6) (by decide)
      have shape := onlyBits_three (place ▸ fields)
      refine ⟨_, congrArg Host.Outcome.next ((command_at h rfl _).trans ((runArrive_writes place shape good (by rw [same]; exact settled) wrote).trans
        (after frame))), State.ctx_putCtx_self .., fun y outside => ?_, fun i hi => ?_, others frame, ?_⟩
      · exact (bytes y).trans ((if_neg outside).trans (memU y))
      · refine (bytes (a + i)).trans ?_
        rw [if_pos (by omega), Nat.add_sub_cancel_left, memU]; rfl
      · rw [frame]; rfl
    · have place := barrierPlace_of_mask fields fits
      obtain ⟨t, wrote, bytes, frame⟩ := writes 2 (bits v 128 64) (by decide)
      have shape := onlyBits_three (place ▸ fields)
      refine ⟨_, congrArg Host.Outcome.next ((command_at h rfl _).trans ((runClearbar_writes place shape good wrote).trans (after frame))),
        State.ctx_putCtx_self .., fun y outside => ?_, fun i hi => ?_, others frame, ?_⟩
      · exact (bytes y).trans ((if_neg outside).trans (memU y))
      · refine (bytes (a + i)).trans ?_
        rw [if_pos (by omega), Nat.add_sub_cancel_left, memU]; rfl
      · rw [frame]; rfl
  case waitbar =>
    intro s u t' k c v a bs x r h fields good read
    have reports := reports_of_AtCommand h
    have after := reports_read read
    have here : r.ctx k c = { x with st := .ready } := by
      have ready := ready_of_AtCommand h
      dsimp only [r] at ready ⊢
      split
      · exact State.ctx_putCtx_self ..
      next h' => rw [if_neg h'] at ready; rw [← ready]
    have othersR (d : Nat) (hd : d ≠ 4 * k + c) : Tab.find d r.ctxs = Tab.find d s.ctxs := by
      dsimp only [r]; split
      · exact find_putCtx _ _ _ _ hd
      · rfl
    have same : u.ctx k c = { x with st := .ready } := (reports.ctx k c).trans here
    have asks : u.taskReq (u.ctx k c) = s.taskReq x := by
      rw [taskReq_of_reports reports, same]
      dsimp only [r]; split <;> rfl
    have undebugged : x.dbgReq = 0 := by
      have none' := dbgReq_of_AtCommand h
      rwa [here] at none'
    have fits : a < 2 ^ 48 := by
      have inside : barOk a = true := by
        unfold State.barrierOk at good
        simp only [Bool.and_eq_true] at good
        exact good.1.1.1
      simp only [barOk, Bool.and_eq_true, decide_eq_true_eq] at inside
      unfold whsBase whsBytes at inside; omega
    have kept : t'.ctx k c = { x with st := .ready } := (after.ctx k c).trans same
    have place := barrierPlace_of_mask fields fits
    have shape := onlyBits_three (place ▸ fields)
    rw [← asks] at read
    have ran := (command_at h rfl fun w t => t.runWaitbar k c w).trans (runWaitbar_reads place shape good read)
    have taken : exec (if x.st = .waitBar then .waitbarReread k c else .waitbar k c) s = .next (r.command k c opWaitbar 32 fun w t => t.runWaitbar k c w) := by
      dsimp only [r]
      split
      next waits =>
        change execWaitbarReread k c s = _
        rw [execWaitbarReread]
        rw [if_pos (by simpa using waits)]
      next => rfl
    refine ⟨_, taken.trans (congrArg _ ran), fun met => ?_, fun unmet => ?_, fun d hd => ?_, ?_⟩
    · rw [if_pos met, commandDone_eq (by rw [kept]; exact undebugged), kept]
      exact State.ctx_putCtx_self ..
    · rw [if_neg unmet, same]
      exact State.ctx_putCtx_self ..
    · rw [← othersR d hd, ← reports.ctxs, ← after.ctxs]
      split
      · rw [commandDone_eq (by rw [kept]; exact undebugged), find_putCtx _ _ _ _ hd]
      · exact find_putCtx _ _ _ _ hd
    · split
      · rw [commandDone_eq (by rw [kept]; exact undebugged)]; rfl
      · rfl
  case loadpin =>
    intro s u t' k c v bs h fields fmt columns x n read first
    have reports := reports_of_AtCommand h
    have after := reports_read read
    have same : u.ctx k c = x := reports.ctx k c
    have undebugged : x.dbgReq = 0 := dbgReq_of_AtCommand h
    rw [← taskReq_of_reports reports, ← same] at read
    refine ⟨_, congrArg Host.Outcome.next ((command_at h rfl _).trans (runLoadpin_reads fields fmt columns read)), ?_⟩
    rw [commandDone_pins (by rw [State.ctx_putCtx_self, same]; exact undebugged) (by rw [State.ctx_putCtx_self, same]; exact first),
      State.ctx_putCtx_self, putCtx_putCtx, same]
    refine ⟨?_, fun i hi => ?_, fun m outside => ?_, fun d hd => ?_, rfl⟩
    · rw [State.ctx_putCtx_self]; rfl
    · rw [State.ctx_putCtx_self]
      refine (find_foldl_columns ..).trans ?_
      rw [if_pos (by omega), Nat.add_sub_cancel_left]
    · rw [State.ctx_putCtx_self]
      exact (find_foldl_columns ..).trans (if_neg (by omega))
    · rw [find_putCtx _ _ _ _ hd, after.ctxs, reports.ctxs]

end Sys2Proof.Safety
end


section
/-! SUPPORT. The lookup path's switches (R165 to R171), the row watermark (R135, R155) and the end of a task (R142). -/

namespace Sys2Proof.Machine

open Sys2Proof.Safety

/-! ### A job and a unit that are replaced -/

theorem job_putJob {s : State} {x i : Job} (there : s.job x.id = some i) : (s.putJob x).job x.id = some x := by
  have same : (fun y : Job => y.id == x.id) ∘ (fun y => if y.id == x.id then x else y) = fun y => y.id == x.id := by
    funext y
    dsimp only [Function.comp]
    split
    next h => simp [h]
    next => rfl
  unfold State.job State.putJob
  rw [List.find?_map, same]
  exact (congrArg _ there).trans (by rw [Option.map_some, if_pos (by simpa using id_of_job there)])

theorem find_setUnit (j : Job) (no : Nat) (f : UnitRun → UnitRun) (keeps : ∀ u, (f u).no = u.no) :
    (j.setUnit no f).units.find? (fun u => u.no == no) = (j.units.find? fun u => u.no == no).map f := by
  have same : (fun u : UnitRun => u.no == no) ∘ (fun u => if u.no == no then f u else u) = fun u => u.no == no := by
    funext u
    dsimp only [Function.comp]
    split
    · rw [keeps]
    · rfl
  unfold Job.setUnit
  rw [List.find?_map, same]
  cases found : j.units.find? fun u => u.no == no with
  | none => rfl
  | some u => rw [Option.map_some, Option.map_some, if_pos (List.find?_some found)]

/-! ### Switches -/

section
variable {s : State} {k n : Nat}

theorem switchTo_waits {c d op : Nat} (waits : (s.ctx k c).st = .waitTile) (free : (s.ctx k c).noswitch = false) (next : s.nextOn k op = some d) :
    s.switchTo k op (some c) = some d := by
  unfold State.switchTo; dsimp only
  rw [waits, free, if_pos (by decide), next]

theorem switchTo_held {op : Nat} {holder : Option Nat} (held : ∀ e, holder = some e → (s.ctx k e).noswitch = true) : s.switchTo k op holder = none := by
  unfold State.switchTo
  split
  next c => rw [held c rfl, if_neg (by simp)]
  next => rfl

theorem exec_taskSwitch (live : Live s) (exists' : k < s.kilnCount) (sound : s.kilnFenced k = false) (starved : s.starved k = true) :
    exec (.taskSwitch k n) s = .next ((((s.inc KLN_STARVE_CYCLES k n).switched k (s.switchTo k opLayer (s.kiln k).path) fun d q =>
      { q.emptied with path := some d }).switched k (s.switchTo k opHmul (s.kiln k).mul) fun d q => { q with mul := some d }).switched k
        (s.switchTo k opHvec (s.kiln k).vec) fun d q => { q with vec := some d }) := by
  change execTaskSwitch k n s = _
  rw [execTaskSwitch, if_pos (by simp [live_of_Live live, exists', sound]), starved, if_pos rfl]

/-- The one engine that is switched has its new slot; the cycles and the switch count. -/
theorem switched_counts (q : Kiln) :
    let t := (((s.inc KLN_STARVE_CYCLES k n).putKiln k q).inc KLN_SWITCHES_COUNT k 1)
    t.kiln k = q ∧ t.get KLN_STARVE_CYCLES k = min (s.get KLN_STARVE_CYCLES k + n) (2 ^ 64 - 1) ∧
      t.get KLN_SWITCHES_COUNT k = min (s.get KLN_SWITCHES_COUNT k + 1) (2 ^ KLN_SWITCHES_COUNT.width - 1) ∧
      KeepsFieldsBut s t [KLN_STARVE_CYCLES.key k, KLN_SWITCHES_COUNT.key k] ∧ (∀ m, m ≠ k → t.kiln m = s.kiln m) ∧
      t = { s with flds := t.flds, kilns := t.kilns } := by
  refine ⟨?_, ?_, ?_, ?_, fun m other => ?_, rfl⟩
  · exact State.kiln_putKiln .. |>.trans (if_pos rfl)
  · rw [State.get_inc_other (by decide), State.get_putKiln, State.get_inc_self]; rfl
  · rw [State.get_inc_self, State.get_putKiln, State.get_inc_other (by decide)]
  · have starve : KeepsFieldsBut s (s.inc KLN_STARVE_CYCLES k n) [KLN_STARVE_CYCLES.key k, KLN_SWITCHES_COUNT.key k] :=
      keepsFieldsBut_mono (keepsFieldsBut_inc s _ _ _) (by simp)
    have given : KeepsFieldsBut s ((s.inc KLN_STARVE_CYCLES k n).putKiln k q) _ := keepsFieldsBut_congr starve rfl
    exact keepsFieldsBut_inc_listed given (List.mem_cons_of_mem _ (List.mem_cons_self ..)) 1
  · exact State.kiln_putKiln .. |>.trans (if_neg other)

end

/-! ### The row watermark -/

section
variable {s : State} {k c : Nat}

theorem exec_rowWatermarkAdvance (live : Live s) {r : RowOut} (out : r ∈ (s.ctx k c).rows) (open' : r.acked = false) :
    exec (.rowWatermarkAdvance k c ⟨r.layer, r.row⟩) s = .next (s.passRows k c [] [] (ackRow r.layer r.row (s.ctx k c).rows)) := by
  change execRowWatermarkAdvance k c _ s = _
  rw [execRowWatermarkAdvance, if_pos]
  rw [live_of_Live live, Bool.true_and]
  exact List.any_eq_true.2 ⟨r, out, by simp [open']⟩

/-- Rows of which none is acknowledged all stay. -/
theorem passRows_open {rest : List RowOut} (open' : ∀ q ∈ rest, q.acked = false) (held : List Nat) (kept : List RowOut) (s : State) :
    s.passRows k c held kept rest = s.setCtx k c fun x => { x with rows := kept ++ rest } := by
  induction rest generalizing held kept with
  | nil => rw [State.passRows, List.append_nil]
  | cons q rest ih =>
    rw [State.passRows, if_neg (by simp [open' q (List.mem_cons_self ..)]), ih (fun p hp => open' p (List.mem_cons_of_mem _ hp)),
      List.append_assoc, List.singleton_append]

/-- An acknowledged row at the front passes. -/
theorem passRows_front {r : RowOut} {rest : List RowOut} {u v : State} (acked : r.acked = true)
    (passed : (s.setCtx k c fun x => { x with rows := rest }).passRow k c r = (some u, v)) : s.passRows k c [] [] (r :: rest) = u.passRows k c [] [] rest := by
  rw [State.passRows, if_pos (by simp [acked]), List.nil_append, passed]

/-- A slot once a row has passed. -/
def KCtx.passed (x : KCtx) (r : RowOut) : KCtx :=
  { x with watermark := if x.begun && x.pc == r.layer then r.row + 1 else x.watermark, clip := x.clip + r.clips.length, total := x.total + r.outs }

/-- A job once a row of it has passed. -/
def Job.passed (j : Job) (r : RowOut) : Job :=
  { j with clip := min (j.clip + r.clips.length) 0xFFFFFFFF, total := min (j.total + r.outs) 0xFFFFFFFF }

/-- A row without a clip page that no restart counted before is counted in its slot and its job. -/
theorem passRow_counts {r : RowOut} {j : Job} (new : (s.ctx k c).countedRow r = false) (job : s.job (s.ctx k c).job = some j) (bare : r.page = none) :
    s.passRow k c r = (some ((s.putCtx k c ((s.ctx k c).passed r)).putJob (j.passed r)), (s.putCtx k c ((s.ctx k c).passed r)).putJob (j.passed r)) := by
  unfold State.passRow; dsimp only
  rw [if_neg (by rw [new]; decide), bare]
  dsimp only
  have same : ((s.putCtx k c { s.ctx k c with
      watermark := if (s.ctx k c).begun && (s.ctx k c).pc == r.layer then r.row + 1 else (s.ctx k c).watermark }).setCtx k c fun y =>
      { y with clip := y.clip + r.clips.length, total := y.total + r.outs }).job (s.ctx k c).job = some j := job
  rw [same]
  simp only [State.setCtx, State.ctx_putCtx_self, putCtx_putCtx]
  rfl

theorem ackRow_first {r : RowOut} {rest : List RowOut} (open' : r.acked = false) : ackRow r.layer r.row (r :: rest) = { r with acked := true } :: rest := by
  rw [ackRow, if_pos (by simp [open'])]

theorem ackRow_second {r q : RowOut} (open' : q.acked = false) (other : r.row ≠ q.row) : ackRow q.layer q.row [r, q] = [r, { q with acked := true }] := by
  rw [ackRow, if_neg (by simp [other]), ackRow_first open']

end

/-! ### The end of a task -/

section
variable (s : State) (k c : Nat)

theorem stopFeeding_frame : s.stopFeeding k c = { s with
    flds := (s.stopFeeding k c).flds, streams := (s.stopFeeding k c).streams, out := (s.stopFeeding k c).out,
    catchUps := (s.stopFeeding k c).catchUps } := by
  have folded {f : State → Nat → State} (hf : ∀ t n, f t n = { t with flds := (f t n).flds, streams := (f t n).streams, out := (f t n).out }) (l : List Nat)
      (t : State) : l.foldl f t = { t with flds := (l.foldl f t).flds, streams := (l.foldl f t).streams, out := (l.foldl f t).out } := by
    induction l generalizing t with
    | nil => rfl
    | cons n l ih => rw [List.foldl_cons, ih]; rw [hf]
  unfold State.stopFeeding; dsimp only
  rw [folded]
  intro t n
  split
  · rfl
  · rw [freeStream_frame]; rfl

theorem ctx_freeSlot : (s.freeSlot k c).ctx k c = { gen := (s.ctx k c).gen } := State.ctx_putCtx_self ..

theorem units_taskEnded (j : Job) (unit task : Nat) :
    (j.taskEnded unit task).units = (j.setUnit unit fun u => { u with tasks := u.tasks.set task .ended }).units ∧ (j.taskEnded unit task).id = j.id := by
  unfold Job.taskEnded; dsimp only
  split
  · exact ⟨rfl, rfl⟩
  · split <;> exact ⟨rfl, rfl⟩

variable {s k c}

theorem runEnd_settled {v : Nat} {j : Job} (fields : v < 2 ^ 24) (settled : (s.ctx k c).rows = []) (job : s.job (s.ctx k c).job = some j) :
    s.runEnd k c v = ((s.stopFeeding k c).freeSlot k c).putJob (j.taskEnded (s.ctx k c).unit (s.ctx k c).task) := by
  have good : onlyBits v [(0, 24)] = true := onlyBits_iff.2 (by simp [bits_zero]; omega)
  have same : ((s.stopFeeding k c).freeSlot k c).job (s.ctx k c).job = some j := by
    rw [← job, stopFeeding_frame]; rfl
  unfold State.runEnd; dsimp only
  rw [good, if_neg (by simp), if_pos (by simp [KCtx.settled, settled]), same]

end

end Sys2Proof.Machine
end

section
/-! The statement about the lookup path, the watermark and the end of a task. -/

namespace Sys2Proof.Safety

open Sys2Proof.Machine

/-- Settles O27: one engine at a time is switched (`switched_counts`), a row passes unless a lower one is open (`passRows_open`), and the end
frees the slot. -/
theorem pathWatermarkAndTaskEnd : Obligations.PathWatermarkAndTaskEnd := by
  unfold Obligations.PathWatermarkAndTaskEnd
  refine ⟨?exchange, ?switch, ?pass, ?held, ?ends⟩
  case exchange =>
    intro s k a b live exists' sound one q
    have taken : (s.live && decide (k < s.kilnCount) && !s.kilnFenced k && (a == 0 || b == 0)) = true := by
      simp [live_of_Live live, exists', sound, one]
    refine ⟨?_, fun none' => ?_, fun c l found => ?_⟩
    · cases h : q.bank <;> simp [Kiln.exchange, Kiln.active, Kiln.idle, Kiln.setIdle, h]
    · change execBankExchange k a b s = _
      rw [execBankExchange, if_pos taken, none']
    · change execBankExchange k a b s = _
      rw [execBankExchange, if_pos taken, found]
  case switch =>
    intro s k n c d live exists' sound starved q counted
    have run := exec_taskSwitch (n := n) live exists' sound starved
    refine ⟨fun path waits free next mul vec => ?_, fun mul waits free next path vec => ?_, fun vec waits free next path mul => ?_, fun held => ?_⟩
    · rw [show s.switchTo k opLayer (s.kiln k).path = some d by rw [show (s.kiln k).path = some c from path]; exact switchTo_waits waits free next,
        show s.switchTo k opHmul (s.kiln k).mul = none from mul, show s.switchTo k opHvec (s.kiln k).vec = none from vec] at run
      exact ⟨_, run, switched_counts _⟩
    · rw [show s.switchTo k opHmul (s.kiln k).mul = some d by rw [show (s.kiln k).mul = some c from mul]; exact switchTo_waits waits free next,
        show s.switchTo k opLayer (s.kiln k).path = none from path, show s.switchTo k opHvec (s.kiln k).vec = none from vec] at run
      exact ⟨_, run, switched_counts _⟩
    · rw [show s.switchTo k opHvec (s.kiln k).vec = some d by rw [show (s.kiln k).vec = some c from vec]; exact switchTo_waits waits free next,
        show s.switchTo k opLayer (s.kiln k).path = none from path, show s.switchTo k opHmul (s.kiln k).mul = none from mul] at run
      exact ⟨_, run, switched_counts _⟩
    · rw [run, switchTo_held fun e he => held e (.inl he), switchTo_held fun e he => held e (.inr (.inl he)),
        switchTo_held fun e he => held e (.inr (.inr he))]
      rfl
  case pass =>
    intro s k c r rest j live rows open' bare restOpen new job x
    refine ⟨_, exec_rowWatermarkAdvance live (by rw [rows]; exact List.mem_cons_self ..) open', ?_⟩
    have counts := passRow_counts (s := s.setCtx k c fun x => { x with rows := rest }) (k := k) (c := c) (r := { r with acked := true }) (j := j)
      (by rw [State.setCtx, State.ctx_putCtx_self]; exact new) (by rw [State.setCtx, State.ctx_putCtx_self]; exact job) bare
    rw [rows, ackRow_first open', passRows_front rfl counts, passRows_open restOpen]
    have here : (s.setCtx k c fun x => { x with rows := rest }).ctx k c = { x with rows := rest } := State.ctx_putCtx_self ..
    rw [here]
    generalize moved : KCtx.passed _ _ = y
    have there {t : State} (J : Job) : ((t.putCtx k c y).putJob J).ctx k c = y := State.ctx_putCtx_self ..
    refine ⟨?_, rfl, fun d hd => ((find_putCtx _ _ _ _ hd).trans (find_putCtx _ _ _ _ hd)).trans (find_putCtx _ _ _ _ hd), by dsimp only [State.setCtx, State.putCtx, State.putJob]⟩
    refine (State.ctx_putCtx_self ..).trans ?_
    rw [there, ← moved, KCtx.passed]
    simp only [Bool.and_eq_true, beq_iff_eq, List.nil_append]
  case held =>
    intro s k c r q live rows ropen qopen same other
    refine ⟨_, exec_rowWatermarkAdvance live (by rw [rows]; simp) qopen, ?_⟩
    rw [rows, ackRow_second qopen other, State.passRows, if_neg (by simp [ropen]), State.passRows, if_neg (by simp [same]), State.passRows]
    exact ⟨State.ctx_putCtx_self .., fun d hd => find_putCtx _ _ _ _ hd, rfl⟩
  case ends =>
    intro s u k c v j w h fields settled job unique x unit uniqueUnit task
    have reports := reports_of_AtCommand h
    have same : u.ctx k c = x := reports.ctx k c
    have ran := runEnd_settled (s := u) (k := k) (c := c) (j := j) fields (by rw [same]; exact settled) (by rw [same, reports.job]; exact job)
    rw [same] at ran
    refine ⟨_, congrArg Host.Outcome.next ((command_at h rfl _).trans ran), ?_⟩
    obtain ⟨units, id⟩ := units_taskEnded j x.unit x.task
    have frame := stopFeeding_frame u k c
    generalize u.stopFeeding k c = f at *
    have here : f.ctx k c = x := by rw [← same, frame]; rfl
    obtain ⟨path, c4, mul, vec⟩ := leave_none (f.kiln k) c
    have kiln (J : Job) : ((f.freeSlot k c).putJob J).kiln k = (f.kiln k).leave c := (State.kiln_putKiln ..).trans (if_pos rfl)
    have there : (f.freeSlot k c).job (j.taskEnded x.unit x.task).id = some j := by
      rw [id, id_of_job job, ← job, ← reports.job, frame]; rfl
    have found : (j.taskEnded x.unit x.task).units.find? (fun z => z.no == x.unit) = some { w with tasks := w.tasks.set x.task .ended } := by
      rw [units]
      exact (find_setUnit j x.unit (fun u => { u with tasks := u.tasks.set x.task .ended }) fun _ => rfl).trans (congrArg _ unit)
    rw [kiln]
    refine ⟨?_, path, c4, mul, vec, fun d hd => ?_, ?_, j.taskEnded x.unit x.task, ?_, _, found, rfl⟩
    · refine (ctx_freeSlot f k c).trans ?_
      rw [here]
    · refine (find_putCtx _ _ _ _ hd).trans ?_
      change Tab.find d f.ctxs = _
      rw [frame, ← reports.ctxs]
    · change f.mem = _
      rw [frame]
    · rw [← id]; exact job_putJob there

end Sys2Proof.Safety
end


section
/-! SUPPORT. Halting a task (R97, R114), and one weight tile of a LAYER (R113, R121, R165). -/

namespace Sys2Proof.Machine

open Sys2Proof.Safety

/-! ### A halted task -/

/-- A slot's context once its task is halted. -/
def KCtx.haltedFor (x : KCtx) (reason : Nat) : KCtx :=
  { x with st := .halted, reason := reason, gen := (x.gen + 1) % 2 ^ 16, noswitch := false }

/-- A halt frees the slot's engines and marks the slot; the rest is its report. -/
theorem reports_haltTask (s : State) (k c reason : Nat) :
    Reports ((s.putKiln k ((s.kiln k).leave c)).putCtx k c ((s.ctx k c).haltedFor reason)) (s.haltTask k c reason) := by
  unfold State.haltTask; dsimp only
  have traced := reports_traceJob ((s.putKiln k ((s.kiln k).leave c)).putCtx k c ((s.ctx k c).haltedFor reason)) 4 (s.job (s.ctx k c).job) (4 * k + c)
  split
  · exact traced
  · exact traced.trans (reports_postEvent _ _)

section
variable (s : State) (k c reason : Nat)

theorem ctx_haltTask : (s.haltTask k c reason).ctx k c = (s.ctx k c).haltedFor reason :=
  ((reports_haltTask s k c reason).ctx k c).trans (State.ctx_putCtx_self ..)

theorem kiln_haltTask : (s.haltTask k c reason).kiln k = (s.kiln k).leave c := by
  have same := (reports_haltTask s k c reason).kilns
  rw [State.kiln, same]
  exact (State.kiln_putKiln s k _ k).trans (if_pos rfl)

theorem get_haltTask {f : Fld} (hf : ∀ g ∈ reportFlds, f.ord % 512 ≠ g.ord % 512) (i : Nat) : (s.haltTask k c reason).get f i = s.get f i :=
  (reports_haltTask s k c reason).get hf i

end

/-! ### One weight tile -/

section
variable {s : State} {k c fuel : Nat} {l : LayerCmd}

/-- The state in which a weight tile is taken: the first one of a row starts its accumulators. -/
def State.rowStarted (s : State) (k c : Nat) (l : LayerCmd) : State :=
  if (s.ctx k c).group = l.pinned ∧ (s.ctx k c).strip = 0 then s.putCtx k c { s.ctx k c with acc := l.startRow (s.ctx k c) (s.ctx k c).row } else s

/-- Slots of which a weight tile's data is late. -/
def State.tileLate (s : State) (k c : Nat) (l : LayerCmd) : List Nat :=
  s.notReady k (s.ctx k c) (l.needs (s.ctx k c).row (s.ctx k c).group (s.ctx k c).strip)

/-- What a weight tile reads. -/
def State.tileReads (s : State) (k c : Nat) (l : LayerCmd) : List (Nat × Nat) :=
  l.reads ((s.ctx k c).origin k) (s.ctx k c).row (s.ctx k c).group (s.ctx k c).strip

/-- A weight tile whose data is verified: its codebook is finite and its tables are looked up, or charged first. -/
def State.lookTile (s w : State) (k c : Nat) (l : LayerCmd) (fuel : Nat) : State :=
  if w.badCodebook l ((s.ctx k c).origin k) (l.firstTile (s.ctx k c).group + (s.ctx k c).strip) then (w.regroup k c).haltTask k c 2
  else match (w.kiln k).active.find? fun g => g.unit == l.unitAt (s.ctx k c) with
    | some g => (w.addTile k c l g).runLayer k c l fuel
    | none =>
      if (w.kiln k).firstBank then ((w.chargeIdle k c l 1024).putKiln k ((w.chargeIdle k c l 1024).kiln k).exchange).runLayer k c l fuel
      else w.chargeIdle k c l 1024

/-- One step of a LAYER's run within a row. -/
theorem runLayer_tile (row : (s.ctx k c).row < l.rows) (group : (s.ctx k c).group < l.groups) (undebugged : (s.ctx k c).dbgReq = 0) :
    s.runLayer k c l (fuel + 1) =
      if !(s.tileLate k c l).isEmpty then (s.rowStarted k c l).dataLate k c (s.tileLate k c l)
      else match (s.rowStarted k c l).touch (s.tileReads k c l) with
        | .error e => (s.rowStarted k c l).memError e (some (s.ctx k c).job)
        | .ok w => match w.slipOf l ((s.ctx k c).origin k) (s.ctx k c).group (l.firstTile (s.ctx k c).group + (s.ctx k c).strip) with
          | some p => w.slipHalt k c p
          | none => s.lookTile w k c l fuel := by
  have start : (if ((s.ctx k c).group == l.pinned && (s.ctx k c).strip == 0) = true then
      s.putCtx k c { s.ctx k c with acc := l.startRow (s.ctx k c) (s.ctx k c).row } else s) = s.rowStarted k c l :=
    if_congr (by simp) rfl rfl
  have late (x : KCtx) (m : List Nat) : (s.rowStarted k c l).notReady k x m = s.notReady k x m := by
    unfold State.rowStarted; split <;> rfl
  rw [State.runLayer]; dsimp only
  rw [if_neg (Nat.not_le.2 row), if_neg (Nat.not_le.2 group), start, late, undebugged] <;> rfl

end

/-! ### The columns of a weight tile -/

/-- What a column's accumulator holds with a group's contribution (R121). -/
def State.columnValue (s : State) (k c : Nat) (l : LayerCmd) (g : LutGroup) (n : Nat) : Nat :=
  (s.addColumn l ((s.ctx k c).origin k) (s.ctx k c).row (s.ctx k c).group (s.ctx k c).strip g (s.ctx k c).acc n).1

theorem accKey_inj (l : LayerCmd) (row : Nat) {n m : Nat} (h : l.accKey row n = l.accKey row m) : n = m := by
  unfold LayerCmd.accKey at h
  split at h
  · exact Nat.add_left_cancel h
  · exact h

/-- What a table holds after values are entered at keys of their own. -/
theorem get_foldl_insert {α : Type} (d : Nat → α) (key : Nat → Nat) (value : Nat → α) (inj : ∀ n m, key n = key m → n = m) (l : List Nat) (t : Tab α) (n : Nat) :
    Tab.get d ((l.map fun m => (key m, value m)).foldl (fun a e => Tab.insert e.1 e.2 a) t) (key n) = if n ∈ l then value n else Tab.get d t (key n) := by
  induction l generalizing t with
  | nil => rw [if_neg (List.not_mem_nil)]; rfl
  | cons m l ih =>
    rw [List.map_cons, List.foldl_cons, ih]
    by_cases later : n ∈ l
    · rw [if_pos later, if_pos (List.mem_cons_of_mem _ later)]
    · rw [if_neg later]
      by_cases same : n = m
      · rw [same, Tab.get_insert_self, if_pos (List.mem_cons_self ..)]
      · rw [Tab.get_insert_ne _ _ _ fun h => same (inj _ _ h), if_neg (by simp [same, later])]

section
variable (s : State) (k c : Nat) (l : LayerCmd) (g : LutGroup)

theorem addTile_frame : ∃ y, (s.addTile k c l g).ctx k c = y ∧ s.addTile k c l g = { s.putCtx k c y with flds := (s.addTile k c l g).flds } ∧
    KeepsFieldsBut s (s.addTile k c l g) [KLN_T3_RESERVED_CODES_COUNT.key k] := by
  unfold State.addTile; dsimp only
  refine ⟨_, ?_, rfl, ?_⟩
  · exact State.ctx_putCtx_self ..
  · exact keepsFieldsBut_inc (State.putCtx ..) _ _ _

theorem ctx_addTile : (s.addTile k c l g).ctx k c = 
    let x := s.ctx k c
    let staged := x.staged ++ (l.columns x.strip).map fun n => (l.accKey x.row n, s.columnValue k c l g n)
    let used := x.used.merge (s.tilesOf x (s.tileReads k c l))
    if x.strip + 1 < l.strips then { x with strip := x.strip + 1, staged := staged, used := used }
    else { x with strip := 0, staged := [], group := x.group + 1, acc := staged.foldl (fun a e => Tab.insert e.1 e.2 a) x.acc, used := used } := by
  unfold State.addTile; dsimp only
  refine (State.ctx_putCtx_self ..).trans ?_
  rw [List.map_map]
  rfl

end
end Sys2Proof.Machine
end

section
/-! The statement about a LAYER's weight tiles. -/

namespace Sys2Proof.Safety

open Sys2Proof.Machine

/-- Settles O28: one step of the run within a row (`runLayer_tile`), what a looked-up tile adds (`ctx_addTile`), and what a scale slip leaves. -/
theorem layerAddsItsGroups : Obligations.LayerAddsItsGroups := by
  unfold Obligations.LayerAddsItsGroups
  refine ⟨?run, ?add, ?slip⟩
  case run =>
    intro s k c fuel l x o t u late row group undebugged
    have step := runLayer_tile (fuel := fuel) row group undebugged
    have waits (isLate : late ≠ []) : s.runLayer k c l (fuel + 1) = u.dataLate k c late := step.trans (if_pos (by rw [show s.tileLate k c l = late from rfl]; simpa using isLate))
    have reads (inTime : late = []) := step.trans (if_neg (by rw [show s.tileLate k c l = [] from inTime]; simp))
    refine ⟨fun isLate fed => ?_, fun isLate fed => ?_, fun e inTime bad => ?_, fun w inTime good => ⟨fun p slip => ?_, fun none' bad => ?_, fun none' fine => ⟨fun g found => ?_, fun missing => ?_⟩⟩⟩
    · rw [waits isLate]; unfold State.dataLate
      rw [fed, if_neg (by decide)]
    · rw [waits isLate]; unfold State.dataLate
      rw [fed, if_pos rfl]
    · rw [reads inTime, show (s.rowStarted k c l).touch (s.tileReads k c l) = .error e from bad]
      rfl
    all_goals rw [reads inTime, show (s.rowStarted k c l).touch (s.tileReads k c l) = .ok w from good]
    all_goals dsimp only
    · rw [slip]
    · rw [none']; dsimp only
      exact if_pos bad
    · rw [none']; dsimp only
      refine (if_neg (by rw [fine]; decide)).trans ?_
      rw [found]
    · rw [none']; dsimp only
      refine (if_neg (by rw [fine]; decide)).trans ?_
      rw [missing]
  case add =>
    intro s k c l g x o t tile value
    obtain ⟨y, here, frame, keeps⟩ := addTile_frame s k c l g
    have ctx := ctx_addTile s k c l g
    refine ⟨by rw [show t = _ from frame]; rfl, fun d hd => ?_, by rw [show t = _ from frame]; rfl, keeps, fun more => ?_, fun last => ⟨?_, fun n hn => ?_⟩⟩
    · rw [show t = _ from frame]; exact find_putCtx _ _ _ _ hd
    · rw [ctx]; dsimp only
      rw [if_pos more]; rfl
    · rw [ctx]; dsimp only
      rw [if_neg (Nat.not_lt.2 last)]
    · rw [ctx]; dsimp only
      rw [if_neg (Nat.not_lt.2 last), List.foldl_append]
      exact (get_foldl_insert _ _ _ (fun _ _ => accKey_inj l _) _ _ n).trans (if_pos hn)
  case slip =>
    intro s k c p t
    have get {f : Fld} (hf : ∀ g ∈ reportFlds, f.ord % 512 ≠ g.ord % 512) := get_haltTask ((((s.regroup k c).put KLN_SLIP_LAST_EXPECTED k (p.1 % 256)).put
      KLN_SLIP_LAST_FOUND k (p.2.1 % 256)).put KLN_SLIP_LAST_SOURCE k p.2.2 |>.put KLN_SLIP_LAST_VALID k 1) k c 1 hf k
    have again : (s.regroup k c).ctx k c = { s.ctx k c with strip := 0, staged := [] } := State.ctx_putCtx_self ..
    dsimp only [t]
    unfold State.slipHalt
    dsimp only
    rw [ctx_haltTask, kiln_haltTask, get (by decide), get (by decide), get (by decide), get (by decide)]
    simp only [State.ctx_put, again]
    refine ⟨rfl, rfl, rfl, rfl, rfl, rfl, rfl, rfl, ?_, ?_, ?_, ?_, (leave_none _ _).1⟩
    · rw [State.get_put_other (by decide), State.get_put_other (by decide), State.get_put_other (by decide), State.get_put_self]
      exact Nat.mod_mod_of_dvd _ (by decide)
    · rw [State.get_put_other (by decide), State.get_put_other (by decide), State.get_put_self]
      exact Nat.mod_mod_of_dvd _ (by decide)
    · rw [State.get_put_other (by decide), State.get_put_self]; rfl
    · rw [State.get_put_self]; rfl

end Sys2Proof.Safety
end


section
/-! The statement about dispatch and kiln faults, which fails where two admitted jobs have one number. -/

namespace Sys2Proof.Safety

open Sys2Proof.Machine

/-- A dispatched unit of one task that waits for a place. -/
def waitingUnit (mooring : Nat) : UnitRun :=
  { no := 0, after := 0xFFFF, afterLookup := false, kind := 0, noswitch := false, program := 0, stride := 0, mooring := mooring, binds := 0,
    firstBind := 0, kilnCost := 0, hearthCost := 0, dispatched := true, tasks := [.waiting] }

/-- Job 1 with such a unit, at a rank. -/
def waitingJob (rank mooring : Nat) : Job :=
  { id := 1, ring := 0, sq := 0, jobRef := 0, kind := .run, noIrq := false, cls := 0, model := 0, version := 0, lane := 0, variant := none,
    locality := 0, candidates := 0, indices := 0, admitTide := 0, deadline := 0, rank := rank, stamps := [], sections := [], lookupsDone := true,
    hist := none, units := [waitingUnit mooring], left := {}, clip := 0, total := 0, badIndex := false, notAppended := false, retried := false,
    kilnRestarted := none, scored := false, cons := none, slots := 0, denseTides := 0, unitsDone := false }

/-- Two kilns, the second with a resident task of 100 slots; two jobs of the number 1, of which the later in the list has the earlier rank and
fits the first kiln alone. -/
def sameNumbers : State :=
  ((({ power := { mode := .run }, models := [(0, { st := .resident })], jobs := [waitingJob 1 4, waitingJob 0 100] } : State).put
    HST_SIZE_COMPUTE_KILNS_PORT 0 2).put HMR_TIDE_STATUS_RUNNING 0 1).putCtx 1 0 { st := .running, slots := 100 }

/-- The dispatch of the first job's unit loads nothing on the second kiln. -/
theorem dispatch_sameNumbers : (match exec (.unitDispatch 1 0) sameNumbers with
    | .next t => (t.ctx 1 1).st == .empty
    | _ => false) = true := by decide +kernel

/-- Refutes O31: a job that is replaced by its number takes the other job of the number with it, so that the first kiln no longer waits for the
other's task (`sameNumbers`). -/
theorem not_unitsDispatchAndKilnsFail : ¬ Obligations.UnitsDispatchAndKilnsFail := by
  unfold Obligations.UnitsDispatchAndKilnsFail
  rintro ⟨dispatches, -, -⟩
  have live : Live sameNumbers := by unfold Live; decide +kernel
  obtain ⟨t, run, loaded, -⟩ := dispatches sameNumbers 1 0 1 1 100 (waitingJob 1 4) (waitingUnit 4) live (by decide +kernel) (by decide +kernel)
    (by decide +kernel) (by decide +kernel) (.inl rfl) rfl (by decide +kernel) (by decide +kernel) (by decide +kernel) (by decide +kernel)
  have unloaded := dispatch_sameNumbers
  rw [show exec (.unitDispatch 1 0) sameNumbers = .next t from run] at unloaded
  have empty : (t.ctx 1 1).st = .empty := beq_iff_eq.1 unloaded
  rw [loaded] at empty
  cases empty

end Sys2Proof.Safety
end


section
/-! SUPPORT. Moving a task (R185, R427 to R429): what a read depends on, how its streams are stopped, and its mooring. -/

namespace Sys2Proof.Machine

open Sys2Proof.Safety

/-! ### What a read depends on -/

/-- The part of a state that decides what an access gives: addresses, memory, and the windows. -/
def State.readView (s : State) : State :=
  { flds := s.flds, mem := s.mem, undef := s.undef, ecc := s.ecc, veiled := s.veiled, host := s.host, winCache := s.winCache,
    ideHeld := s.ideHeld, models := s.models }

theorem readView_putJob (s : State) (j : Job) : (s.putJob j).readView = s.readView := rfl

theorem places_readView (s : State) (r : Req) (wr : Bool) (ps : List (Nat × Nat)) : s.places r wr ps = s.readView.places r wr ps := by
  induction ps with
  | nil => rfl
  | cons p ps ih => 
    have here : s.locate r wr p.1 = s.readView.locate r wr p.1 := rfl
    rw [State.places, State.places, here, ih]

/-- Reads of states that agree there answer alike. -/
theorem read_fst {s t : State} (h : s.readView = t.readView) (r : Req) (a n : Nat) : (s.read r a n).map Prod.fst = (t.read r a n).map Prod.fst := by
  have view (u : State) : (u.read r a n).map Prod.fst = (u.readView.read r a n).map Prod.fst := by
    unfold State.read
    rw [places_readView]
    split
    · rfl
    · dsimp only
      have bad : u.badWord = u.readView.badWord := rfl
      rw [bad]
      split <;> rfl
  rw [view s, h, ← view t]

theorem opcodeAt_eq (s : State) (x : KCtx) : s.opcodeAt x = ((s.read (s.taskReq x) x.pc 1).map Prod.fst).toOption.map leNat := by
  unfold State.opcodeAt
  cases s.read (s.taskReq x) x.pc 1 <;> rfl

theorem layerAt_eq (s : State) (x : KCtx) : s.layerAt x =
    if s.opcodeAt x == some opLayer then ((s.read (s.taskReq x) x.pc 64).map Prod.fst).toOption.bind (fun bs => layerOf (leNat bs)) else none := by
  unfold State.layerAt
  cases s.read (s.taskReq x) x.pc 64 <;> rfl

/-- The LAYER at a slot's program counter is the same one where a read finds the same. -/
theorem layerAt_congr {s t : State} (h : s.readView = t.readView) {x : KCtx} (asks : s.taskReq x = t.taskReq x) : s.layerAt x = t.layerAt x := by
  rw [layerAt_eq, layerAt_eq, opcodeAt_eq, opcodeAt_eq, asks, read_fst h, read_fst h]

/-! ### Streams that are stopped -/

/-- Fields that freeing and detaching streams write. -/
def feedFlds : List Fld :=
  [STV_TAGS_IN_USE, STV_DETACHES_COUNT, STV_DETACH_LAST_CONTEXT, STV_DETACH_LAST_KILN, STV_DETACH_LAST_CTX, STV_DETACH_LAST_VALID]

/-- Only streams, the catch-ups that wait, messages and those fields differ. -/
structure Unfeeds (s t : State) : Prop where
  rest : t = { s with flds := t.flds, streams := t.streams, out := t.out, catchUps := t.catchUps }
  keeps : ∀ (f : Fld) (i : Nat), (∀ g ∈ feedFlds, f.ord % 512 ≠ g.ord % 512) → t.get f i = s.get f i

theorem Unfeeds.refl (s : State) : Unfeeds s s := ⟨rfl, fun _ _ _ => rfl⟩

theorem Unfeeds.trans {s t u : State} (first : Unfeeds s t) (second : Unfeeds t u) : Unfeeds s u where
  rest := by rw [second.rest]; rw [first.rest]
  keeps f i hf := (second.keeps f i hf).trans (first.keeps f i hf)

theorem Unfeeds.put {s t : State} (h : Unfeeds s t) {f : Fld} (hf : f ∈ feedFlds) (i v : Nat) : Unfeeds s (t.put f i v) :=
  h.trans ⟨rfl, fun _ _ hg => State.get_put_other (hg f hf) ..⟩

theorem Unfeeds.catchUps {s t : State} (h : Unfeeds s t) (cs : List CatchUp) : Unfeeds s { t with catchUps := cs } :=
  h.trans ⟨rfl, fun _ _ _ => rfl⟩

theorem Unfeeds.putStream {s t : State} (h : Unfeeds s t) (n : Nat) (x : Stream) : Unfeeds s (t.putStream n x) :=
  h.trans ⟨rfl, fun _ _ _ => rfl⟩

theorem Unfeeds.foldl {α : Type} {f : State → α → State} (hf : ∀ t x, Unfeeds t (f t x)) (l : List α) (s : State) : Unfeeds s (l.foldl f s) := by
  induction l generalizing s with
  | nil => exact .refl s
  | cons x l ih => exact (hf s x).trans (ih _)

theorem unfeeds_freeStream (s : State) (n : Nat) : Unfeeds s (s.freeStream n) where
  rest := by rw [freeStream_frame]
  keeps f i hf := keepsFieldsBut_freeStream s n f i (by
    rw [List.mem_singleton]; exact fun h => Fld.key_ne (hf _ (List.mem_cons_self ..)) i _ h)

theorem unfeeds_detach (s : State) (n i : Nat) (lost : Bool) : Unfeeds s (s.detach n i lost) := by
  unfold State.detach; dsimp only
  split
  · exact .refl s
  next r _ =>
    have noted : Unfeeds s ((((s.inc STV_DETACHES_COUNT (stevedoreOf n) 1).put STV_DETACH_LAST_CONTEXT (stevedoreOf n) (n % 32)).put STV_DETACH_LAST_KILN
        (stevedoreOf n) r.kiln).put STV_DETACH_LAST_CTX (stevedoreOf n) r.slot |>.put STV_DETACH_LAST_VALID (stevedoreOf n) 1) :=
      ((((Unfeeds.refl s).put (by simp [feedFlds]) _ _).put (by simp [feedFlds]) _ _).put (by simp [feedFlds]) _ _).put (by simp [feedFlds]) _ _ |>.put
        (by simp [feedFlds]) _ _
    have left (freed : Nat) (cs : List CatchUp) (z : Stream) :=
      ((noted.catchUps cs).put (f := STV_TAGS_IN_USE) (by simp [feedFlds]) (stevedoreOf n) freed).putStream n z
    split
    · exact left _ _ _
    · exact (left _ _ _).trans (unfeeds_freeStream _ n)

theorem unfeeds_detachTask (s : State) (job unit task : Nat) : Unfeeds s (s.detachTask job unit task) := by
  unfold State.detachTask; dsimp only
  exact (Unfeeds.foldl (fun t (h : Nat × Nat) => unfeeds_detach t h.1 h.2 true) _ s).catchUps _

/-- A restart stops streams; the job, while it is admitted, has a unit of it changed. -/
theorem restartStreams_eq (s : State) (job unit task : Nat) (tiles : Tiles) (unplaced : Bool) : ∃ m, Unfeeds s m ∧
    (s.restartStreams job unit task tiles unplaced = m ∨ ∃ j f, m.job job = some j ∧
      s.restartStreams job unit task tiles unplaced = m.putJob (j.setUnit unit f) ∧ ∀ u : UnitRun, (f u).no = u.no) := by
  unfold State.restartStreams; dsimp only
  have gone := unfeeds_detachTask s job unit task
  generalize s.detachTask job unit task = d at *
  split
  · exact ⟨_, gone, .inl rfl⟩
  next j job' =>
    have freed := fun l => gone.trans (Unfeeds.foldl unfeeds_freeStream l d)
    split
    · exact ⟨_, (freed _).catchUps _, .inl rfl⟩
    next i found =>
      generalize freedAll : List.foldl (fun t n => State.freeStream t n) d _ = w at found ⊢
      have stopped : Unfeeds s w := by rw [← freedAll]; exact freed _
      exact ⟨_, stopped.catchUps _, .inr ⟨i, _, found, rfl, fun _ => rfl⟩⟩

/-- What a restart of streams leaves alone. -/
theorem restartStreams_frame (s : State) (job unit task : Nat) (tiles : Tiles) (unplaced : Bool) :
    let t := s.restartStreams job unit task tiles unplaced
    t = { s with flds := t.flds, streams := t.streams, out := t.out, catchUps := t.catchUps, jobs := t.jobs } ∧
    (∀ (f : Fld) (i : Nat), (∀ g ∈ feedFlds, f.ord % 512 ≠ g.ord % 512) → t.get f i = s.get f i) ∧
    ∀ j, s.job job = some j → ∃ i, t.job job = some i ∧ i.retried = j.retried ∧ i.kilnRestarted = j.kilnRestarted := by
  intro t
  obtain ⟨m, stopped, none' | ⟨j, f, job', changed, -⟩⟩ := restartStreams_eq s job unit task tiles unplaced
  · refine ⟨by rw [show t = m from none', stopped.rest], fun f i hf => by rw [show t = m from none']; exact stopped.keeps f i hf, fun j here => ⟨j, ?_, rfl, rfl⟩⟩
    rw [show t = m from none', ← here, stopped.rest]; rfl
  · have same : m.job job = s.job job := by rw [stopped.rest]; rfl
    refine ⟨by rw [show t = _ from changed, stopped.rest]; rfl, fun g i hf => by rw [show t = _ from changed]; exact stopped.keeps g i hf, fun i here => ?_⟩
    obtain rfl : j = i := Option.some.inj (job'.symm.trans (same.trans here))
    have id : (j.setUnit unit f).id = job := (id_of_job job' : j.id = job)
    refine ⟨j.setUnit unit f, ?_, rfl, rfl⟩
    rw [show t = _ from changed]
    have put := job_putJob (x := j.setUnit unit f) (i := j) (by rw [id]; exact job')
    rwa [id] at put

/-! ### A mooring that is cleared -/

theorem clearMooring_spec (k b n : Nat) (s : State) :
    s.clearMooring k b n = { s with ready := (s.clearMooring k b n).ready } ∧
    ∀ i half, i < n → (s.clearMooring k b n).isReady k half (b + i) = false := by
  have each (l : List Nat) (s : State) :
      let t := l.foldl (fun t i => (t.setReady k false (b + i) false).setReady k true (b + i) false) s
      t = { s with ready := t.ready } ∧ (∀ h a, s.isReady k h a = false → t.isReady k h a = false) ∧ ∀ i half, i ∈ l → t.isReady k half (b + i) = false := by
    induction l generalizing s with
    | nil => exact ⟨rfl, fun _ _ => id, fun _ _ h => absurd h List.not_mem_nil⟩
    | cons j l ih =>
      obtain ⟨frame, stays, cleared⟩ := ih ((s.setReady k false (b + j) false).setReady k true (b + j) false)
      refine ⟨frame, fun h a was => stays h a ?_, fun i half hi => ?_⟩
      · rw [isReady_setReady, isReady_setReady]
        split
        · rfl
        · split
          · rfl
          · exact was
      · rcases List.mem_cons.1 hi with rfl | hi
        · refine stays _ _ ?_
          rw [isReady_setReady, isReady_setReady]
          cases half
          · rw [if_pos (rfl : readyKey k false (b + i) = _), ite_self]
          · rw [if_pos rfl]
        · exact cleared i half hi
  obtain ⟨frame, -, cleared⟩ := each (List.range n) s
  exact ⟨frame, fun i half hi => cleared i half (List.mem_range.2 hi)⟩

/-! ### A task that moves -/

theorem countFar_frame (s : State) (j : Job) (k : Nat) : s.countFar j k = { s with flds := (s.countFar j k).flds } := by
  unfold State.countFar
  split
  · split <;> rfl
  · rfl

theorem setRun_frame (s : State) (job unit task : Nat) (r : TaskRun) : s.setRun job unit task r = { s with jobs := (s.setRun job unit task r).jobs } := by
  unfold State.setRun
  split <;> rfl

/-- A task whose standing is marked leaves its job's restarts as they were. -/
theorem job_setRun {s : State} {job : Nat} {j : Job} (here : s.job job = some j) (unit task : Nat) (r : TaskRun) :
    ∃ i, (s.setRun job unit task r).job job = some i ∧ i.retried = j.retried ∧ i.kilnRestarted = j.kilnRestarted := by
  unfold State.setRun
  rw [here]
  have id := id_of_job here
  have put := job_putJob (s := s) (x := j.setUnit unit fun u => { u with tasks := u.tasks.set task r }) (i := j) (by rw [show (Job.setUnit ..).id = job from id]; exact here)
  rw [show (Job.setUnit ..).id = job from id] at put
  exact ⟨_, put, rfl, rfl⟩

section
variable {s : State} {j : Job} {u : UnitRun} {task k c b ok' oc : Nat}

theorem moveTask_eq (s : State) (j : Job) (u : UnitRun) (task k c b ok' oc : Nat) : ∃ tiles, s.moveTask j u task k c b ok' oc =
    ((((((s.freeSlot ok' oc).clearMooring k b u.mooring).putCtx k c ((s.ctx ok' oc).restarted (s.layerAt (s.ctx ok' oc))
      (s.layerAt { s.ctx ok' oc with pc := (s.ctx ok' oc).chain.getD (s.ctx ok' oc).pc }) b (s.ctx k c).gen)).setRun j.id u.no task (.placed k c)).countFar j k).restartStreams
        j.id u.no task tiles false) := ⟨_, rfl⟩

theorem moveTask_spec {i : Job} (apart' : 4 * ok' + oc ≠ 4 * k + c) (here : s.job j.id = some i) :
    let t := s.moveTask j u task k c b ok' oc
    t.ctx k c = (s.ctx ok' oc).restarted (s.layerAt (s.ctx ok' oc))
      (s.layerAt { s.ctx ok' oc with pc := (s.ctx ok' oc).chain.getD (s.ctx ok' oc).pc }) b (s.ctx k c).gen ∧
    t.ctx ok' oc = { gen := (s.ctx ok' oc).gen } ∧ (∀ d, d ≠ 4 * ok' + oc → d ≠ 4 * k + c → Tab.find d t.ctxs = Tab.find d s.ctxs) ∧
    (∀ i half, i < u.mooring → t.isReady k half (b + i) = false) ∧
    (∃ y, t.job j.id = some y ∧ y.retried = i.retried ∧ y.kilnRestarted = i.kilnRestarted) ∧ t.mem = s.mem := by
  intro t
  obtain ⟨tiles, moved⟩ := moveTask_eq s j u task k c b ok' oc
  obtain ⟨frame, cleared⟩ := clearMooring_spec k b u.mooring (s.freeSlot ok' oc)
  generalize (s.ctx ok' oc).restarted _ _ _ _ = y at *
  generalize (s.freeSlot ok' oc).clearMooring k b u.mooring = w at *
  have given := setRun_frame (w.putCtx k c y) j.id u.no task (.placed k c)
  obtain ⟨i1, here1, retried1, restarted1⟩ := job_setRun (s := w.putCtx k c y) (job := j.id) (j := i)
    (by rw [← here]; change w.job j.id = _; rw [frame]; rfl) u.no task (.placed k c)
  generalize (w.putCtx k c y).setRun j.id u.no task (.placed k c) = e at *
  have far := countFar_frame e j k
  have here2 : (e.countFar j k).job j.id = some i1 := by rw [← here1, far]; rfl
  generalize e.countFar j k = f at *
  obtain ⟨rest, -, jobs⟩ := restartStreams_frame f j.id u.no task tiles false
  obtain ⟨i2, here3, retried2, restarted2⟩ := jobs i1 here2
  have ctxs : t.ctxs = Tab.insert (4 * k + c) y w.ctxs := by
    rw [show t = _ from moved, rest]; change f.ctxs = _; rw [far]; change e.ctxs = _; rw [given]; rfl
  have ready : t.ready = w.ready := by
    rw [show t = _ from moved, rest]; change f.ready = _; rw [far]; change e.ready = _; rw [given]; rfl
  have old : w.ctxs = Tab.insert (4 * ok' + oc) { gen := (s.ctx ok' oc).gen } s.ctxs := by rw [frame]; rfl
  refine ⟨?_, ?_, fun d hd hd' => ?_, fun i half hi => ?_, ⟨i2, ?_, retried2.trans retried1, restarted2.trans restarted1⟩, ?_⟩
  · rw [State.ctx, ctxs, Tab.get_insert_self]
  · rw [State.ctx, ctxs, Tab.get_insert_ne _ _ _ apart', old, Tab.get_insert_self]
  · rw [ctxs, Tab.find_insert, if_neg hd', old, Tab.find_insert, if_neg hd]
  · rw [← cleared i half hi, State.isReady, ready]; rfl
  · rw [show t = _ from moved]; exact here3
  · rw [show t = _ from moved, rest]; change f.mem = _; rw [far]; change e.mem = _; rw [given]; change w.mem = _; rw [frame]; rfl

theorem slot_of_slotHolding {job unit task k c : Nat} (h : s.slotHolding job unit task = some (k, c)) : c < 4 := by
  unfold State.slotHolding at h
  obtain ⟨e, -, place⟩ := Option.map_eq_some_iff.1 h
  rw [← (Prod.mk.inj place).2]
  exact Nat.mod_lt _ (by decide)

theorem canPlaceAt_slot {n : Nat} (h : s.canPlaceAt k c b n = true) : c < 4 := by
  unfold State.canPlaceAt at h
  simp only [Bool.and_eq_true, decide_eq_true_eq] at h
  obtain ⟨⟨⟨⟨⟨-, -⟩, slot⟩, -⟩, -⟩, -⟩ := h
  exact slot

/-- A job once its task restarts on another kiln. -/
def State.restartedJob (s : State) (j : Job) (k : Nat) : Job :=
  { j with retried := true, kilnRestarted := if s.kilnFenced k then some k else j.kilnRestarted }

theorem taskReq_putJob {i : Job} (here : s.job i.id = some j) (same : i.req = j.req) (x : KCtx) : (s.putJob i).taskReq x = s.taskReq x := by
  unfold State.taskReq
  by_cases own : x.job = i.id
  · rw [own, job_putJob here, here]
    exact same
  · have other : (s.putJob i).job x.job = s.job x.job := by
      have keep : (fun y : Job => y.id == x.job) ∘ (fun y => if y.id == i.id then i else y) = fun y => y.id == x.job := by
        funext y
        dsimp only [Function.comp]
        split
        next h => rw [beq_iff_eq.1 h]
        next => rfl
      unfold State.job State.putJob
      rw [List.find?_map, keep]
      cases found : s.jobs.find? fun y => y.id == x.job with
      | none => rfl
      | some y =>
        have id : y.id = x.job := by simpa using List.find?_some found
        rw [Option.map_some, if_neg (by simpa [id] using own)]
    rw [other]

/-! ### Eviction -/

/-- Contents that become free leave every byte outside their range. -/
theorem scramble_keeps (s : State) (a n : Nat) : KeepsMemBut s (s.scramble a n) a n := by
  intro x outside
  have kept : Tab.find x (s.scramble a n).mem = Tab.find x s.mem := by
    change Tab.find x (Tab.dropRange a (a + n) s.mem) = _
    unfold Tab.dropRange
    rw [Tab.find_filter (fun y => !(decide (a ≤ y) && decide (y < a + n))), if_pos (by simp; omega)]
  have free : memDefault (s.scramble a n).undef x = memDefault s.undef x := by
    change memDefault ((a, a + n, s.stamp) :: s.undef) x = _
    unfold memDefault
    rw [List.find?_cons_of_neg (by simp; omega)]
  rw [memAt, memAt, Tab.get, Tab.get, kept, free]

theorem evictTask_spec (s : State) (k c f : Nat) :
    let t := s.evictTask k c f
    t.ctx k c = { gen := (s.ctx k c).gen } ∧ t.evicted = s.evicted ++ [⟨(s.ctx k c).job, (s.ctx k c).unit, (s.ctx k c).task, ⟨s.ctx k c, f⟩⟩] ∧
    KeepsMemBut s t (s.get HMR_SAVE_AREA_BASE 0 + 36864 * f) 36864 ∧ (∀ d, d ≠ 4 * k + c → Tab.find d t.ctxs = Tab.find d s.ctxs) ∧
    t.get HMR_SCHED_EVENTS_EVICTIONS 0 = min (s.get HMR_SCHED_EVENTS_EVICTIONS 0 + 1) (2 ^ HMR_SCHED_EVENTS_EVICTIONS.width - 1) := by
  unfold State.evictTask; dsimp only
  obtain ⟨rest, keeps, -⟩ := restartStreams_frame s (s.ctx k c).job (s.ctx k c).unit (s.ctx k c).task (s.evictTiles k c (s.ctx k c)) true
  generalize s.restartStreams _ _ _ _ _ = r at *
  have base : r.get HMR_SAVE_AREA_BASE 0 = s.get HMR_SAVE_AREA_BASE 0 := keeps _ _ (by decide)
  have count : r.get HMR_SCHED_EVENTS_EVICTIONS 0 = s.get HMR_SCHED_EVENTS_EVICTIONS 0 := keeps _ _ (by decide)
  have same : r.ctx k c = s.ctx k c := by rw [rest]; rfl
  rw [base]
  have free := scramble_keeps r (s.get HMR_SAVE_AREA_BASE 0 + 36864 * f) 36864
  generalize hw : r.scramble (s.get HMR_SAVE_AREA_BASE 0 + 36864 * f) 36864 = w at *
  have frame : w = { r with mem := w.mem, undef := w.undef, stamp := w.stamp } := by rw [← hw]; rfl
  have there : w.ctx k c = s.ctx k c := by rw [← same, frame]; rfl
  have kept : KeepsMemBut s w (s.get HMR_SAVE_AREA_BASE 0 + 36864 * f) 36864 := fun x hx => (free x hx).trans (memAt_congr (by rw [rest]) (by rw [rest]) x)
  have evicted : w.evicted = s.evicted := by rw [frame, rest]
  have slots : w.ctxs = s.ctxs := by rw [frame, rest]
  have given := setRun_frame { w.freeSlot k c with evicted := (w.freeSlot k c).evicted ++
    [(⟨(s.ctx k c).job, (s.ctx k c).unit, (s.ctx k c).task, ⟨s.ctx k c, f⟩⟩ : EvictedTask)] } (s.ctx k c).job (s.ctx k c).unit (s.ctx k c).task .evicted
  generalize State.setRun _ _ _ _ _ = z at *
  have ctxs : z.ctxs = Tab.insert (4 * k + c) { gen := (s.ctx k c).gen } w.ctxs := by
    rw [given, ← there]; rfl
  refine ⟨?_, ?_, fun x hx => ?_, fun d hd => ?_, ?_⟩
  · change z.ctx k c = _
    rw [State.ctx, ctxs, Tab.get_insert_self]
  · change z.evicted = _
    rw [given, ← evicted]; rfl
  · refine (memAt_congr (t := z.inc _ 0 1) (s := w) ?_ ?_ x).trans (kept x hx)
    · change z.mem = _; rw [given]; rfl
    · change z.undef = _; rw [given]; rfl
  · change Tab.find d z.ctxs = _
    rw [ctxs, Tab.find_insert, if_neg hd, slots]
  · have same : z.get HMR_SCHED_EVENTS_EVICTIONS 0 = s.get HMR_SCHED_EVENTS_EVICTIONS 0 := by rw [← count, given, frame]; rfl
    rw [State.get_inc_self, same]

theorem exec_taskEvict (live : Live s) (exists' : k < s.kilnCount) (sound : s.kilnFenced k = false) (limit : s.withinLimit k = true)
    (runs : s.get HMR_TIDE_STATUS_RUNNING 0 ≠ 0) (blocked : ∀ d, d < 4 → s.isBlocked k d = true) (waits : s.waitingTasks ≠ [])
    (area : 0 < s.get HMR_SAVE_AREA_FRAMES 0) (chosen : s.victim k = some c) : exec (.taskEvict k) s =
      .next (match s.saveFrame with
        | some f => (s.evictTask k c f).loadWaiting s.evicted k c
        | none => s.inc HMR_SCHED_EVENTS_EVICT_NO_FRAME 0 1) := by
  change execTaskEvict k s = _
  have all : ((List.range 4).all fun c => s.isBlocked k c) = true := by simpa using blocked
  rw [execTaskEvict, if_pos (by simp [live_of_Live live, exists', sound, limit, State.flag_eq_true.2 runs, all, waits, area]), chosen]
  cases s.saveFrame <;> rfl

/-! ### Return -/

/-- A returning task's context at its new mooring. -/
def KCtx.returned (x : KCtx) (b : Nat) : KCtx := { x with base := b, st := if x.st == .waitTile then .ready else x.st, late := [], hearth := [] }

/-- The state without an evicted task. -/
def State.dropEvicted (s : State) (e : EvictedTask) : State :=
  { s with evicted := s.evicted.filter fun y => !(y.job == e.job && y.unit == e.unit && y.task == e.task) }

theorem restoreTask_eq (s : State) (e : EvictedTask) (k c b : Nat) : ∃ l, s.restoreTask e k c b =
    ((({ ((s.dropEvicted e).clearMooring k b e.body.ctx.slots).putCtx k c (e.body.ctx.returned b) with flds := l } : State).setRun
      e.job e.unit e.task (.placed k c)).placeCatchUps e.job e.unit e.task) := by
  unfold State.restoreTask; dsimp only
  split
  · rw [countFar_frame]; exact ⟨_, rfl⟩
  · exact ⟨_, rfl⟩

theorem restoreTask_spec (s : State) (e : EvictedTask) (k c b : Nat) :
    let t := s.restoreTask e k c b
    t.ctxs = Tab.insert (4 * k + c) (e.body.ctx.returned b) s.ctxs ∧ t.evicted = (s.dropEvicted e).evicted ∧
    (∀ i half, i < e.body.ctx.slots → t.isReady k half (b + i) = false) ∧ t.mem = s.mem := by
  obtain ⟨l, eq⟩ := restoreTask_eq s e k c b
  obtain ⟨frame, cleared⟩ := clearMooring_spec k b e.body.ctx.slots (s.dropEvicted e)
  dsimp only
  rw [eq]
  generalize (s.dropEvicted e).clearMooring k b e.body.ctx.slots = w at *
  have given := setRun_frame { w.putCtx k c (e.body.ctx.returned b) with flds := l } e.job e.unit e.task (.placed k c)
  generalize State.setRun _ _ _ _ _ = v at *
  refine ⟨?_, ?_, fun i half hi => ?_, ?_⟩
  · change v.ctxs = _; rw [given, frame]; rfl
  · change v.evicted = _; rw [given, frame]; rfl
  · rw [← cleared i half hi]
    change v.isReady k half (b + i) = _; rw [given]; rfl
  · change v.mem = _; rw [given, frame]; rfl

theorem exec_evictedTaskReturn {job unit task : Nat} {e : EvictedTask} (live : Live s)
    (found : s.evicted.find? (fun e => e.job == job && e.unit == unit && e.task == task) = some e) (limit : s.withinLimit k = true)
    (place : s.canPlaceAt k c b e.body.ctx.slots = true) :
    exec (.evictedTaskReturn job unit task k c b e.body.ctx.slots) s = .next (s.restoreTask e k c b) := by
  change execEvictedTaskReturn job unit task k c b e.body.ctx.slots s = _
  rw [execEvictedTaskReturn, found]; dsimp only
  rw [if_pos (by simp [live_of_Live live, limit, place])]

end

section
variable {s : State} {job unit task kiln slot base k c n : Nat} {j : Job} {u : UnitRun} (live : Live s) (job' : s.job job = some j)
  (holds : s.slotHolding job unit task = some (k, c)) (unit' : j.units.find? (fun v => v.no == unit) = some u)
  (stopped : s.kilnFenced k = true ∨ ((s.ctx k c).st = .halted ∧ (s.ctx k c).reason = 6))
include live job' holds unit' stopped

theorem exec_taskRestart : exec (.taskRestart job unit task kiln slot base n) s =
    if !s.mayRestart j k then .next (s.endJob j stKilnFault 0 none)
    else if kiln != k && n == u.mooring && s.canPlaceAt kiln slot base n then .next ((s.putJob (s.restartedJob j k)).moveTask (s.restartedJob j k) u task kiln slot base k c)
    else .next s := by
  change execTaskRestart job unit task kiln slot base n s = _
  rw [execTaskRestart, job', holds]; dsimp only
  rw [unit']; dsimp only
  rw [if_pos (by rw [live_of_Live live]; simpa using stopped)]
  rfl

end

end Sys2Proof.Machine
end

section
/-! The statement about tasks that move. -/

namespace Sys2Proof.Safety

open Sys2Proof.Machine

/-- Settles O32: a move frees one slot and loads another (`moveTask_eq`); the task's streams are stopped, which leaves slots and memory alone
(`restartStreams_frame`). -/
theorem tasksRestartEvictAndReturn : Obligations.TasksRestartEvictAndReturn := by
  unfold Obligations.TasksRestartEvictAndReturn
  refine ⟨?restart, ?evict, ?return'⟩
  case restart =>
    intro s job unit task kiln slot base k c j u live job' holds unit' stopped x r
    refine ⟨fun n spent => ?_, fun may other place => ?_⟩
    · rw [exec_taskRestart live job' holds unit' stopped, spent, if_pos (by decide)]; rfl
    · have ran := exec_taskRestart (n := u.mooring) (kiln := kiln) (slot := slot) (base := base) live job' holds unit' stopped
      rw [may, if_neg (by decide), if_pos (by simp [other, place])] at ran
      have id : (s.restartedJob j k).id = job := (id_of_job job' : j.id = job)
      have here : s.job (s.restartedJob j k).id = some j := by rw [id]; exact job'
      have layer (y : KCtx) : (s.putJob (s.restartedJob j k)).layerAt y = s.layerAt y := layerAt_congr (readView_putJob ..) (taskReq_putJob here rfl y)
      have there := job_putJob here
      have apart' : 4 * k + c ≠ 4 * kiln + slot := by
        have := slot_of_slotHolding holds
        have := canPlaceAt_slot place
        omega
      obtain ⟨loaded, freed, others, cleared, ⟨i, job1, retried, restarted⟩, mem⟩ := moveTask_spec (s := s.putJob (s.restartedJob j k)) (u := u) (task := task)
        (b := base) apart' there
      rw [id] at job1
      refine ⟨_, ran, ?_, freed, others, cleared, ⟨i, ?_, retried, restarted⟩, mem⟩
      · rw [loaded, layer, layer]; rfl
      · rw [id_of_job job']; exact job1
  case evict =>
    intro s k c live exists' sound limit runs blocked waits area chosen
    have ran := exec_taskEvict live exists' sound limit runs blocked waits area chosen
    refine ⟨fun full => ?_, fun f frame => ?_⟩
    · rw [ran, full]
    · rw [frame] at ran
      exact ⟨_, ran, _, rfl, evictTask_spec s k c f⟩
  case return' =>
    intro s job unit task kiln slot base e live found limit place x
    obtain ⟨job', unit', task'⟩ : e.job = job ∧ e.unit = unit ∧ e.task = task := by
      have := List.find?_some found
      simpa [and_assoc] using this
    refine ⟨_, exec_evictedTaskReturn live found limit place, ?_⟩
    obtain ⟨placed, evicted, ready, mem⟩ := restoreTask_spec s e kiln slot base
    refine ⟨?_, fun d hd => ?_, fun y => ?_, ready, mem⟩
    · rw [State.ctx, placed, Tab.get_insert_self]
      unfold KCtx.returned
      simp only [beq_iff_eq]; rfl
    · rw [placed, Tab.find_insert, if_neg hd]
    · rw [evicted, State.dropEvicted, List.mem_filter, job', unit', task']
      simp only [Bool.not_eq_true', ← Bool.not_eq_true, Bool.and_eq_true, beq_iff_eq, and_assoc]

end Sys2Proof.Safety
end


section
/-! SUPPORT. What reads and writes do not look at: jobs, streams, tasks, ready bits, and a few registers. Two states that differ there
alone answer an access alike, and differ there alone afterwards. -/

namespace Sys2Proof.Machine

open Sys2Proof.Safety

/-- Registers that no access looks at: counters of a LAYER's work, and the bits of the collective channels. -/
def unreadFlds : List Fld := [KLN_F8_SATURATIONS_COUNT, KLN_F8_NANS_COUNT, KLN_T3_RESERVED_CODES_COUNT, QUY_COLL_EN_ENABLE, QUY_COLL_STATUS_LO_BAD,
  QUY_COLL_STATUS_HI_FAILED]

/-- A state without registers, jobs, streams, tasks and ready bits. -/
def State.bare (s : State) : State := { s with flds := [], jobs := [], streams := [], ctxs := [], kilns := [], ready := [] }

/-- Only jobs, streams, tasks, ready bits and those registers differ. -/
structure Beside (s t : State) : Prop where
  rest : t.bare = s.bare
  fields : ∀ (f : Fld) (i : Nat), (∀ g ∈ unreadFlds, f.ord % 512 ≠ g.ord % 512) → t.get f i = s.get f i

theorem Beside.refl (s : State) : Beside s s := ⟨rfl, fun _ _ _ => rfl⟩

theorem Beside.trans {s t u : State} (first : Beside s t) (second : Beside t u) : Beside s u :=
  ⟨second.rest.trans first.rest, fun f i hf => (second.fields f i hf).trans (first.fields f i hf)⟩

/-- A counter that the second state alone counts. -/
theorem Beside.inc {s t : State} (h : Beside s t) {f : Fld} (hf : f ∈ unreadFlds) (i n : Nat) : Beside s (t.inc f i n) :=
  h.trans ⟨rfl, fun _ _ hg => State.get_inc_other (hg f hf) ..⟩

/-- A change that looks at nothing of what differs. -/
theorem Beside.both {s t : State} (h : Beside s t) (φ : State → State) (bare : ∀ u, (φ u).bare = (φ u.bare).bare) (flds : ∀ u, (φ u).flds = u.flds) :
    Beside (φ s) (φ t) where
  rest := by rw [bare t, h.rest, ← bare s]
  fields f i hf := by rw [State.get_of_flds (flds t), State.get_of_flds (flds s), h.fields f i hf]

/-- A field that both write alike. -/
theorem Beside.put_both {s t : State} (h : Beside s t) (f : Fld) (i v : Nat) : Beside (s.put f i v) (t.put f i v) :=
  ⟨h.rest, fun g j hg => by rw [State.get_put, State.get_put, h.fields g j hg]⟩

theorem Beside.inc_both {s t : State} (h : Beside s t) {f : Fld} (hf : ∀ g ∈ unreadFlds, f.ord % 512 ≠ g.ord % 512) (i n : Nat) :
    Beside (s.inc f i n) (t.inc f i n) := by
  unfold State.inc
  rw [h.fields f i hf]
  exact h.put_both ..

section
variable {s t : State} (h : Beside s t)
include h

theorem Beside.flag {f : Fld} (hf : ∀ g ∈ unreadFlds, f.ord % 512 ≠ g.ord % 512) (i : Nat) : t.flag f i = s.flag f i := by
  unfold State.flag; rw [h.fields f i hf]

theorem Beside.mem : t.mem = s.mem := by change t.bare.mem = s.bare.mem; rw [h.rest]
theorem Beside.undef : t.undef = s.undef := by change t.bare.undef = s.bare.undef; rw [h.rest]
theorem Beside.ecc : t.ecc = s.ecc := by change t.bare.ecc = s.bare.ecc; rw [h.rest]
theorem Beside.host : t.host = s.host := by change t.bare.host = s.bare.host; rw [h.rest]
theorem Beside.evt : t.evt = s.evt := by change t.bare.evt = s.bare.evt; rw [h.rest]
theorem Beside.salvor : t.salvor = s.salvor := by change t.bare.salvor = s.bare.salvor; rw [h.rest]
theorem Beside.dock : t.dock = s.dock := by change t.bare.dock = s.bare.dock; rw [h.rest]
theorem Beside.halted : t.halted = s.halted := by change t.bare.halted = s.bare.halted; rw [h.rest]
theorem Beside.ideHeld : t.ideHeld = s.ideHeld := by change t.bare.ideHeld = s.bare.ideHeld; rw [h.rest]
theorem Beside.winCache : t.winCache = s.winCache := by change t.bare.winCache = s.bare.winCache; rw [h.rest]
theorem Beside.veiled : t.veiled = s.veiled := by change t.bare.veiled = s.bare.veiled; rw [h.rest]
theorem Beside.models : t.models = s.models := by change t.bare.models = s.bare.models; rw [h.rest]
theorem Beside.origins : t.origins = s.origins := by change t.bare.origins = s.bare.origins; rw [h.rest]

/-! ### Records -/

theorem beside_send (m : Msg) : Beside (s.send m) (t.send m) := by
  have same : t.withheld m = s.withheld m := by
    change t.bare.withheld m = s.bare.withheld m; rw [h.rest]
  unfold State.send
  rw [same]
  split
  · exact h
  · exact h.both (fun u => { u with out := u.out ++ [m] }) (fun _ => rfl) fun _ => rfl

theorem Beside.stampTide : t.stampTide = s.stampTide := by
  have tide : t.tide = s.tide := h.fields _ _ (by decide)
  unfold State.stampTide
  rw [h.flag (by decide), tide, h.fields _ _ (by decide)]

theorem beside_trace (kind ring ref unit : Nat) : Beside (s.trace kind ring ref unit) (t.trace kind ring ref unit) := by
  have same : t.traces = s.traces := by
    unfold State.traces; rw [h.flag (by decide), h.flag (by decide)]
  unfold State.trace
  rw [same, h.stampTide]
  split
  · exact beside_send h _
  · exact h

theorem beside_hostWrite (b : Nat) (l : List Byte) : Beside (s.hostWrite b l) (t.hostWrite b l) := by
  induction l generalizing s t b with
  | nil => exact h
  | cons x l ih =>
    exact ih (h.both (fun u => { u with host := Tab.set (fun _ => 0) b x u.host }) (fun _ => rfl) fun _ => rfl) (b + 1)

theorem beside_irq (port vector : Nat) : Beside (s.irq port vector) (t.irq port vector) := by
  have same : t.masked port vector = s.masked port vector := by
    change t.bare.masked port vector = s.bare.masked port vector; rw [h.rest]
  unfold State.irq
  rw [same]
  split
  · exact h.both (fun u => { u with msixPend := Tab.insert (port * 512 + vector) true u.msixPend }) (fun _ => rfl) fun _ => rfl
  · exact beside_send h _

theorem Beside.portSends (p : Nat) : t.portSends p = s.portSends p := by
  unfold State.portSends; rw [h.flag (by decide), h.ideHeld]

theorem beside_putEvent (bs : List Byte) : Beside (s.putEvent bs) (t.putEvent bs) := by
  unfold State.putEvent; dsimp only
  rw [h.evt, h.fields HST_EVT_CFG_LOG2 0 (by decide), h.fields HST_EVT_BASE_BASE 0 (by decide)]
  have wrote := beside_hostWrite h (4096 * s.get HST_EVT_BASE_BASE 0 + 64 * (s.evt.prod % 2 ^ s.get HST_EVT_CFG_LOG2 0))
    (withPhase (s.get HST_EVT_CFG_LOG2 0) s.evt.prod bs)
  rw [wrote.fields HST_EVT_CFG_PORT 0 (by decide), wrote.fields HST_EVT_CFG_VECTOR 0 (by decide)]
  exact beside_irq (wrote.both (fun u => { u with evt := { u.evt with prod := (s.evt.prod + 1) % 2 ^ 32 } }) (fun _ => rfl) fun _ => rfl) _ _

theorem beside_postEvent (bs : List Byte) : Beside (s.postEvent bs) (t.postEvent bs) := by
  have room : t.evtRoom = s.evtRoom := by
    unfold State.evtRoom
    rw [h.flag (by decide), h.flag (by decide), h.fields _ _ (by decide), h.portSends, h.evt, h.fields HST_EVT_CFG_LOG2 0 (by decide)]
  unfold State.postEvent
  rw [room, h.evt]
  split
  · exact beside_putEvent h bs
  · split
    · exact h.both (fun u => { u with evt := { s.evt with queue := s.evt.queue ++ [bs] } }) (fun _ => rfl) fun _ => rfl
    · exact (h.inc_both (by decide) 0 1).put_both ..

theorem beside_elogPush (bs : List Byte) : Beside (s.elogPush bs) (t.elogPush bs) := by
  have counted := h.inc_both (f := DDK_ELOG_STATUS_TOTAL) (by decide) 0 1
  unfold State.elogPush; dsimp only
  rw [counted.dock]
  split
  · exact counted.both (fun u => { u with dock := { (s.inc DDK_ELOG_STATUS_TOTAL 0 1).dock with elog := _ } }) (fun _ => rfl) fun _ => rfl
  · exact (counted.both (fun u => { u with dock := { (s.inc DDK_ELOG_STATUS_TOTAL 0 1).dock with elog := _ } }) (fun _ => rfl) fun _ => rfl).put_both ..

/-- The record of an error that names no job. -/
theorem beside_logError {e : Err} (jobless : e.job = none) : Beside (s.logError e) (t.logError e) := by
  have bytes : t.errorBytes e = s.errorBytes e := by
    unfold State.errorBytes
    rw [jobless, h.salvor]; rfl
  unfold State.logError State.record
  rw [bytes, jobless]
  exact beside_trace (beside_postEvent (beside_elogPush h _) _) ..

/-! ### Corrected words -/

theorem Beside.unitFenced (kind unit addr : Nat) : t.unitFenced kind unit addr = s.unitFenced kind unit addr := by
  have crane (n : Nat) : t.crane n = s.crane n := by change t.bare.crane n = s.bare.crane n; rw [h.rest]
  have quay (n : Nat) : t.quay n = s.quay n := by change t.bare.quay n = s.bare.quay n; rw [h.rest]
  have stevs : t.fencedStevs = s.fencedStevs := by change t.bare.fencedStevs = s.bare.fencedStevs; rw [h.rest]
  unfold State.unitFenced State.kilnFenced State.bitAt
  rw [h.flag (by decide), h.fields HBM_STACK_STATUS_FENCED 0 (by decide), h.dock, crane, quay, quay, stevs]

theorem beside_detect {e : Err} (jobless : e.job = none) (harmless : e.sev = 0) : Beside (s.detect e) (t.detect e) := by
  have salvor {s t : State} (h : Beside s t) (v : Salvor) : Beside { s with salvor := v } { t with salvor := v } :=
    h.both (fun u => { u with salvor := v }) (fun _ => rfl) fun _ => rfl
  have full {s t : State} (h : Beside s t) : Beside (s.ringFull e) (t.ringFull e) := by
    unfold State.ringFull
    rw [if_pos (by simp [harmless]), if_pos (by simp [harmless])]
    exact (beside_logError h jobless).inc_both (by decide) ..
  have queued {s t : State} (h : Beside s t) : Beside (s.queueError e) (t.queueError e) := by
    unfold State.queueError
    rw [h.salvor]
    split
    · split_ifs
      · unfold State.takeInHand
        rw [h.salvor]
        exact ((salvor h _).put_both ..).put_both ..
      · exact full h
      · exact salvor h _
    · rw [harmless, if_neg (show ¬ (decide (0 > _) && _) = true by simp), if_neg (show ¬ (decide (0 > _) && _) = true by simp)]
      split_ifs
      · exact full h
      · exact salvor h _
  have one : Beside (s.detectOne e) (t.detectOne e) := by
    have same (b : Bool) : (if b && (e.sev == 1 || e.sev == 2) then { e with sev := if hasFence e.kind then 2 else 3 } else e) = e := by
      simp [harmless]
    unfold State.detectOne; dsimp only
    rw [same, same, h.halted, h.unitFenced, h.salvor]
    have counted (v : Salvor) : Beside { s with salvor := v } { t with salvor := v, halted := s.halted } :=
      h.both (fun u => { u with salvor := v, halted := s.halted }) (fun _ => rfl) fun _ => rfl
    split
    · exact counted _
    · split
      · next bad => rw [harmless] at bad; omega
      · split
        · exact counted _
        · exact queued (counted _)
  unfold State.detect; dsimp only
  rw [if_neg (by simp [harmless]), if_neg (by simp [harmless])]
  exact one

theorem Beside.setBytes (n : Nat) : t.setBytes n = s.setBytes n := by
  unfold State.setBytes; rw [h.fields _ _ (by decide)]

theorem Beside.setBase (n : Nat) : t.setBase n = s.setBase n := by
  unfold State.setBase
  simp only [h.setBytes]

theorem Beside.setOf (a : Nat) : t.setOf a = s.setOf a := by
  unfold State.setOf
  simp only [h.setBase, h.setBytes]

theorem Beside.mkWordErr (a : Nat) : t.mkWordErr 0 1 a none = s.mkWordErr 0 1 a none := by
  have unit' : t.memUnit a = s.memUnit a := by
    unfold State.memUnit
    rw [h.setOf]
    split
    · split
      · rw [h.setBase, h.fields HBM_CHSET_FIRST_CHANNEL _ (by decide), h.fields HBM_CHSET_COUNT _ (by decide)]
      · rfl
    · rfl
  unfold State.mkWordErr Machine.mkErr
  rw [unit', h.stampTide]

theorem beside_correctWords (ws : List Nat) : Beside (s.correctWords ws) (t.correctWords ws) := by
  have weak : t.weakWord = s.weakWord := by funext w; unfold State.weakWord; rw [h.ecc]
  have each (l : List Nat) {s t : State} (h : Beside s t) :
      Beside (l.foldl (fun u w => u.detect (u.mkWordErr 0 1 (8 * w) none)) s) (l.foldl (fun u w => u.detect (u.mkWordErr 0 1 (8 * w) none)) t) := by
    induction l generalizing s t with
    | nil => exact h
    | cons w l ih =>
      rw [List.foldl_cons, List.foldl_cons, h.mkWordErr]
      exact ih (beside_detect h rfl rfl)
  have marks := h.both (fun u => { u with ecc := s.ecc.filter fun e => !(((ws.filter fun w => s.weakWord w).dedup).contains e.1) }) (fun _ => rfl) fun _ => rfl
  unfold State.correctWords; dsimp only
  rw [weak, h.ecc]
  split
  · exact each _ (marks.inc_both (by decide) ..)
  · exact each _ marks

/-! ### Where an access leads -/

theorem Beside.winPage (page : Nat) : t.winPage page = s.winPage page := by
  have bytes (b n : Nat) : t.hostNat b n = s.hostNat b n := by
    unfold State.hostNat State.hostBytes State.hostByte; rw [h.host]
  have entry (i : Nat) : t.winEntry page i = s.winEntry page i := by
    unfold State.winEntry; dsimp only
    rw [h.fields HST_WIN_TABLE_BASE 0 (by decide), bytes]
    simp only [bytes]
  unfold State.winPage
  rw [h.winCache, h.fields HST_WIN_TABLE_ENTRIES 0 (by decide)]
  simp only [entry]

theorem Beside.bitAt {f : Fld} (hf : ∀ g ∈ unreadFlds, f.ord % 512 ≠ g.ord % 512) (i b : Nat) : t.bitAt f i b = s.bitAt f i b := by
  unfold State.bitAt; rw [h.fields f i hf]

theorem Beside.whsLoc (r : Req) (wr : Bool) (off : Nat) (v : View) : t.whsLoc r wr off v = s.whsLoc r wr off v := by
  have use (d w : Nat) : t.wayUse d w = s.wayUse d w := h.fields _ _ (by decide)
  have classes (d w : Nat) : t.wayClasses d w = s.wayClasses d w := h.fields _ _ (by decide)
  have stopped (d w : Nat) : t.wayStopped d w = s.wayStopped d w := by
    unfold State.wayStopped; rw [h.bitAt (by decide), h.bitAt (by decide)]
  unfold State.whsLoc
  simp only [use, classes, stopped]

theorem Beside.locate (r : Req) (wr : Bool) (a : Nat) : t.locate r wr a = s.locate r wr a := by
  have lost (n : Nat) : t.setLost n = s.setLost n := h.bitAt (by decide) ..
  have stopped (n : Nat) : t.setStopped n = s.setStopped n := h.bitAt (by decide) ..
  have classes (n : Nat) : t.get HBM_CHSET_CLASSES n = s.get HBM_CHSET_CLASSES n := h.fields _ _ (by decide)
  have model (off : Nat) : t.modelLoc r wr off = s.modelLoc r wr off := by
    change t.bare.modelLoc r wr off = s.bare.modelLoc r wr off; rw [h.rest]
  have waits (page : Nat) : t.winWaits page = s.winWaits page := by
    unfold State.winWaits; rw [h.winCache, h.portSends, h.fields HST_WIN_TABLE_PORT 0 (by decide)]
  unfold State.locate
  simp only [h.setOf, lost, stopped, classes, h.whsLoc, model, waits, h.winPage, h.portSends]

theorem Beside.places (r : Req) (wr : Bool) (ps : List (Nat × Nat)) : t.places r wr ps = s.places r wr ps := by
  induction ps with
  | nil => rfl
  | cons p ps ih => rw [State.places, State.places, h.locate, ih]

theorem beside_fillWins (ps : List (Nat × Nat)) : Beside (s.fillWins ps) (t.fillWins ps) := by
  have one {s t : State} (h : Beside s t) (a : Nat) : Beside (s.fillWin a) (t.fillWin a) := by
    unfold State.fillWin
    rw [h.winPage, h.winCache]
    split
    · exact h
    · split
      next p _ => exact h.both (fun u => { u with winCache := Tab.insert (a / 65536) p s.winCache }) (fun _ => rfl) fun _ => rfl
      next => exact h
  induction ps generalizing s t with
  | nil => exact h
  | cons p ps ih => exact ih (one h p.1)

/-! ### Reads and writes -/

theorem Beside.byte (a : Nat) : t.byte a = s.byte a := by
  unfold State.byte
  rw [h.veiled, h.undef, h.mem]
  simp only [h.setOf]

theorem Beside.badWord : t.badWord = s.badWord := by funext w; unfold State.badWord; rw [h.ecc]

/-- A read answers alike in both. -/
theorem beside_read {u : State} {r : Req} {a n : Nat} {bs : List Byte} (read : s.read r a n = .ok (bs, u)) : ∃ v, t.read r a n = .ok (bs, v) ∧ Beside u v := by
  have bytes (l : Loc) (k : Nat) : t.placeBytes l k = s.placeBytes l k := by
    cases l with
    | dev a v => exact List.map_congr_left fun i _ => h.byte _
    | host p b => unfold State.placeBytes State.hostBytes State.hostByte; rw [h.host]
  unfold State.read at *
  rw [h.places]
  split at read
  next => cases read
  next ls _ =>
    dsimp only at read ⊢
    rw [h.badWord]
    split at read
    next => cases read
    next clean =>
      rw [if_neg clean]
      simp only [bytes]
      cases read
      exact ⟨_, rfl, beside_fillWins (beside_correctWords h _) _⟩

theorem beside_pokeByte (v : View) (a : Nat) (b : Byte) : Beside (s.pokeByte v a b) (t.pokeByte v a b) := by
  unfold State.pokeByte
  rw [h.veiled, h.byte, h.undef, h.mem]
  simp only [h.setOf]
  split
  · exact h
  · exact h.both (fun u => { u with mem := Tab.set (memDefault s.undef) a (v.apply (s.byte a) b) s.mem, undef := s.undef, veiled := s.veiled }) (fun _ => rfl) fun _ => rfl

theorem beside_pokeBytes (v : View) (a : Nat) (bs : List Byte) : Beside (s.pokeBytes v a bs) (t.pokeBytes v a bs) := by
  induction bs generalizing s t a with
  | nil => exact h
  | cons b bs ih => exact ih (beside_pokeByte h v a b) (a + 1)

theorem beside_writeLoc (l : Loc) (bs : List Byte) : Beside (s.writeLoc l bs) (t.writeLoc l bs) := by
  cases l with
  | host p b => exact beside_hostWrite h b bs
  | dev a v =>
    have dropped : Beside (s.dropHot a bs.length) (t.dropHot a bs.length) := by
      unfold State.dropHot
      split
      · exact h.both (fun u => { u with hot := u.hot.filter fun e => !(decide (a < e.2.unit + 64) && decide (e.2.unit < a + bs.length)) }) (fun _ => rfl) fun _ => rfl
      · exact h
    have corrected := beside_correctWords dropped ((Loc.dev a v).readWords bs.length)
    exact beside_pokeBytes (corrected.both (fun u => u.renew ((Loc.dev a v).newWords bs.length)) (fun _ => rfl) fun _ => rfl) v a bs

/-- A write does the same in both. -/
theorem beside_write {u : State} {r : Req} {a : Nat} {bs : List Byte} (write : s.write r a bs = .ok u) : ∃ v, t.write r a bs = .ok v ∧ Beside u v := by
  have all (ls : List (Loc × Nat)) {s t : State} (h : Beside s t) (bs : List Byte) : Beside (s.writePlaces ls bs) (t.writePlaces ls bs) := by
    induction ls generalizing s t bs with
    | nil => exact h
    | cons l ls ih => exact ih (beside_writeLoc h l.1 _) _
  unfold State.write at *
  rw [h.places]
  split at write
  next => cases write
  next ls _ =>
    rw [h.badWord]
    split at write
    next => cases write
    next clean =>
      rw [if_neg clean]
      cases write
      exact ⟨_, rfl, all ls (beside_fillWins h _) bs⟩

end

/-! ### What a write leaves alone -/

/-- A state's work beside memory and the copies of hot rows. -/
def State.duty (s : State) : State := { s.work with mem := [], hot := [] }

/-- Memory, copies of hot rows and reports have changed alone. -/
structure Stores (s t : State) : Prop where
  duty : t.duty = s.duty
  keeps : KeepsFieldsBut s t (reportFlds.map fun f => f.key 0)

theorem Stores.refl (s : State) : Stores s s := ⟨rfl, keepsFieldsBut_same rfl _⟩

theorem Stores.trans {s t u : State} (first : Stores s t) (second : Stores t u) : Stores s u :=
  ⟨second.duty.trans first.duty, fun f i other => (second.keeps f i other).trans (first.keeps f i other)⟩

theorem Reports.stores {s t : State} (h : Reports s t) : Stores s t :=
  ⟨by rw [State.duty, h.work]; rfl, h.keeps⟩

theorem Stores.get {s t : State} (h : Stores s t) {f : Fld} (hf : ∀ g ∈ reportFlds, f.ord % 512 ≠ g.ord % 512) (i : Nat) : t.get f i = s.get f i := by
  refine h.keeps f i fun listed => ?_
  obtain ⟨g, hg, same⟩ := List.mem_map.1 listed
  exact Fld.key_ne (hf g hg) i 0 same.symm

section
variable {s t : State} (h : Stores s t)
include h

theorem Stores.streams : t.streams = s.streams := by change t.duty.streams = s.duty.streams; rw [h.duty]
theorem Stores.ctxs : t.ctxs = s.ctxs := by change t.duty.ctxs = s.duty.ctxs; rw [h.duty]
theorem Stores.kilns : t.kilns = s.kilns := by change t.duty.kilns = s.duty.kilns; rw [h.duty]
theorem Stores.ready : t.ready = s.ready := by change t.duty.ready = s.duty.ready; rw [h.duty]
theorem Stores.jobs : t.jobs = s.jobs := by change t.duty.jobs = s.duty.jobs; rw [h.duty]
theorem Stores.origins : t.origins = s.origins := by change t.duty.origins = s.duty.origins; rw [h.duty]
theorem Stores.tables : t.tables = s.tables := by change t.duty.tables = s.duty.tables; rw [h.duty]
theorem Stores.groups : t.groups = s.groups := by change t.duty.groups = s.duty.groups; rw [h.duty]
theorem Stores.peers : t.peers = s.peers := by change t.duty.peers = s.duty.peers; rw [h.duty]
theorem Stores.cranes : t.cranes = s.cranes := by change t.duty.cranes = s.duty.cranes; rw [h.duty]
theorem Stores.ctx (k c : Nat) : t.ctx k c = s.ctx k c := by rw [State.ctx, h.ctxs]; rfl
theorem Stores.job (j : Nat) : t.job j = s.job j := by rw [State.job, h.jobs]; rfl
theorem Stores.table (n : Nat) : t.table n = s.table n := by rw [State.table, h.tables]; rfl
theorem Stores.group (n : Nat) : t.group n = s.group n := by rw [State.group, h.groups]; rfl
theorem Stores.peer (n : Nat) : t.peer n = s.peer n := by rw [State.peer, h.peers]; rfl

end

theorem stores_hostWrite (s : State) (b : Nat) (l : List Byte) : Stores s (s.hostWrite b l) := by
  rw [hostWrite_frame]; exact ⟨rfl, keepsFieldsBut_same rfl _⟩

theorem stores_writeLoc (s : State) (l : Loc) (bs : List Byte) : Stores s (s.writeLoc l bs) := by
  cases l with
  | host p b => exact stores_hostWrite s b bs
  | dev a v =>
    have dropped : Stores s (s.dropHot a bs.length) := by
      rw [dropHot_frame]; exact ⟨rfl, keepsFieldsBut_same rfl _⟩
    have corrected := (reports_correctWords (s.dropHot a bs.length) ((Loc.dev a v).readWords bs.length)).stores
    have renewed (t : State) (ws : List Nat) : Stores t (t.renew ws) := ⟨rfl, keepsFieldsBut_same rfl _⟩
    have poked (t : State) : Stores t (t.pokeBytes v a bs) := by
      rw [pokeBytes_eq]; exact ⟨rfl, keepsFieldsBut_same rfl _⟩
    exact ((dropped.trans corrected).trans (renewed _ _)).trans (poked _)

theorem stores_write {s t : State} {r : Req} {a : Nat} {bs : List Byte} (write : s.write r a bs = .ok t) : Stores s t := by
  have all (ls : List (Loc × Nat)) (s : State) (bs : List Byte) : Stores s (s.writePlaces ls bs) := by
    induction ls generalizing s bs with
    | nil => exact .refl s
    | cons l ls ih => exact (stores_writeLoc s l.1 _).trans (ih _ _)
  unfold State.write at write
  split at write
  next => cases write
  next =>
    split at write
    · cases write
    · cases write
      exact (reports_fillWins s _).stores.trans (all _ _ _)

end Sys2Proof.Machine
end


section
/-! SUPPORT. The tally of a section (R307 to R312): its parts, and what a section's tally does. -/

namespace Sys2Proof.Machine

open Sys2Proof.Safety

/-! ### Parts (R309, R310) -/

/-- A part's list holds each index once, and its entries point into the list. -/
def Building.Sound (b : Building) : Prop :=
  b.distinct.length ≤ 65536 ∧ b.distinct.Nodup ∧ ∀ e ∈ b.entries, e.1 < b.distinct.length ∧ 0 < e.2.1

/-- Occurrences that a part's entries count. -/
def Building.counted (b : Building) : Nat := (b.entries.map (·.2.1)).sum

/-- Occurrences counted so far. -/
def TallyRun.counted (t : TallyRun) : Nat := (t.closed.map Building.counted).sum + t.now.counted + (t.bag.map (·.2)).sum

/-- Every part is sound, and the bag in progress counts indices of the part in progress, each of them once. -/
structure TallyRun.Sound (t : TallyRun) : Prop where
  closed : ∀ b ∈ t.closed, b.Sound
  now : t.now.Sound
  bag : ∀ x ∈ t.bag, x.1 ∈ t.now.distinct ∧ 0 < x.2
  once : (t.bag.map (·.1)).Nodup

section
variable {t : TallyRun}

theorem flushBag_bag (b : Nat) : (t.flushBag b).bag = [] := by
  unfold TallyRun.flushBag
  split
  next h => exact List.isEmpty_iff.1 h
  next => rfl

theorem flushBag_distinct (b : Nat) : (t.flushBag b).now.distinct = t.now.distinct ∧ (t.flushBag b).closed = t.closed := by
  unfold TallyRun.flushBag
  split <;> exact ⟨rfl, rfl⟩

theorem flushBag_counted (b : Nat) : (t.flushBag b).counted = t.counted := by
  unfold TallyRun.flushBag
  split
  · rfl
  · have entries : ((t.bag.zipIdx.map fun x => (t.now.distinct.findIdx (· == x.1.1), x.1.2, decide (x.2 + 1 = t.bag.length))).map (·.2.1)) = t.bag.map (·.2) := by
      rw [List.map_map]
      exact (List.map_map (f := Prod.fst) (g := Prod.snd) (l := t.bag.zipIdx)).symm.trans (congrArg _ (List.zipIdx_map_fst ..))
    unfold TallyRun.counted Building.counted
    dsimp only
    rw [List.map_append, List.sum_append, entries]
    simp [Nat.add_assoc]

theorem flushBag_sound (h : t.Sound) (b : Nat) : (t.flushBag b).Sound := by
  have bag := flushBag_bag (t := t) b
  refine ⟨by rw [(flushBag_distinct b).2]; exact h.closed, ?_, by rw [bag]; simp, by rw [bag]; simp⟩
  obtain ⟨short, once, entries⟩ := h.now
  unfold TallyRun.flushBag
  split
  · exact h.now
  · refine ⟨short, once, fun e he => ?_⟩
    rcases List.mem_append.1 he with old | new
    · exact entries e old
    · obtain ⟨x, hx, rfl⟩ := List.mem_map.1 new
      have inBag : x.1 ∈ t.bag := List.fst_mem_of_mem_zipIdx hx
      obtain ⟨listed, positive⟩ := h.bag _ inBag
      exact ⟨List.findIdx_lt_length_of_exists ⟨_, listed, by simp⟩, positive⟩

theorem nodup_snoc {α : Type} {l : List α} {a : α} (h : l.Nodup) (new : a ∉ l) : (l ++ [a]).Nodup := by
  rw [← List.concat_eq_append]; exact h.concat new

/-- Counting once more an index that is counted once. -/
theorem sum_counts {l : List (Nat × Nat)} {i : Nat} (once : (l.map (·.1)).Nodup) (there : i ∈ l.map (·.1)) :
    ((l.map fun x => if x.1 == i then (x.1, x.2 + 1) else x).map (·.2)).sum = (l.map (·.2)).sum + 1 := by
  induction l with
  | nil => simp at there
  | cons x l ih =>
    obtain ⟨new, once⟩ := List.nodup_cons.1 once
    by_cases here : x.1 = i
    · have rest : l.map (fun x => if x.1 == i then (x.1, x.2 + 1) else x) = l := by
        refine (List.map_congr_left fun y hy => if_neg ?_).trans (List.map_id l)
        intro same
        exact new (List.mem_map.2 ⟨y, hy, (beq_iff_eq.1 same).trans here.symm⟩)
      rw [List.map_cons, rest, if_pos (by simpa using here)]
      simp; omega
    · have there : i ∈ l.map (·.1) := (List.mem_cons.1 there).resolve_left fun h => here h.symm
      rw [List.map_cons, if_neg (by simpa using here), List.map_cons, List.sum_cons, ih once there, List.map_cons, List.sum_cons, Nat.add_assoc]

/-- One more occurrence counts one more. -/
theorem count_sound (h : t.Sound) (b i : Nat) : (t.count b i).Sound ∧ (t.count b i).counted = t.counted + 1 := by
  obtain ⟨short, once, entries⟩ := h.now
  unfold TallyRun.count
  split
  next listed =>
    have listed : i ∈ t.now.distinct := by simpa using listed
    split
    next again =>
      have again : i ∈ t.bag.map (·.1) := by simpa using again
      have keys : (t.bag.map fun x => if x.1 == i then (x.1, x.2 + 1) else x).map (·.1) = t.bag.map (·.1) := by
        rw [List.map_map]
        exact List.map_congr_left fun x _ => by dsimp only [Function.comp]; split <;> rfl
      refine ⟨⟨h.closed, h.now, fun y hy => ?_, by rw [keys]; exact h.once⟩, ?_⟩
      · obtain ⟨x, hx, rfl⟩ := List.mem_map.1 hy
        obtain ⟨inPart, positive⟩ := h.bag x hx
        split
        · exact ⟨inPart, Nat.succ_pos _⟩
        · exact ⟨inPart, positive⟩
      · unfold TallyRun.counted
        dsimp only
        rw [sum_counts h.once again]; omega
    next first =>
      have first : i ∉ t.bag.map (·.1) := by simpa using first
      refine ⟨⟨h.closed, h.now, ?_, ?_⟩, ?_⟩
      · intro x hx
        rcases List.mem_append.1 hx with old | new
        · exact h.bag x old
        · rw [List.mem_singleton.1 new]; exact ⟨listed, Nat.one_pos⟩
      · rw [List.map_append]
        exact nodup_snoc h.once first
      · simp [TallyRun.counted, Nat.add_assoc]
  next unlisted =>
    have unlisted : i ∉ t.now.distinct := by simpa using unlisted
    split
    next room =>
      refine ⟨⟨h.closed, ⟨?_, ?_, fun e he => ?_⟩, ?_, ?_⟩, ?_⟩
      · simp; omega
      · exact nodup_snoc once unlisted
      · obtain ⟨place, positive⟩ := entries e he
        exact ⟨by simp; omega, positive⟩
      · intro x hx
        rcases List.mem_append.1 hx with old | new
        · exact ⟨List.mem_append_left _ (h.bag x old).1, (h.bag x old).2⟩
        · rw [List.mem_singleton.1 new]; exact ⟨by simp, Nat.one_pos⟩
      · rw [List.map_append]
        refine nodup_snoc h.once fun there => ?_
        obtain ⟨x, hx, same⟩ : ∃ x ∈ t.bag, x.1 = i := List.mem_map.1 there
        exact unlisted (same ▸ (h.bag x hx).1)
      · simp [TallyRun.counted, Building.counted, Nat.add_assoc]
    next full =>
      have flushed := flushBag_sound h b
      have same := flushBag_counted (t := t) b
      refine ⟨⟨fun c hc => ?_, ⟨by simp, by simp, by simp⟩, by simp, by simp⟩, ?_⟩
      · rcases List.mem_append.1 hc with old | new
        · exact flushed.closed c old
        · rw [List.mem_singleton.1 new]; exact flushed.now
      · rw [← same]
        simp [TallyRun.counted, Building.counted, flushBag_bag]

/-- Bag after bag, the parts stay sound and count every index once. -/
theorem tallyBags_sound (bags : List (Nat × List Nat)) (h : t.Sound) (empty : t.bag = []) :
    (tallyBags bags t).Sound ∧ (tallyBags bags t).bag = [] ∧ (tallyBags bags t).counted = t.counted + (bags.map (·.2.length)).sum := by
  have indices (b : Nat) (is : List Nat) {t : TallyRun} (h : t.Sound) :
      (is.foldl (fun u i => u.count b i) t).Sound ∧ (is.foldl (fun u i => u.count b i) t).counted = t.counted + is.length := by
    induction is generalizing t with
    | nil => exact ⟨h, rfl⟩
    | cons i is ih =>
      obtain ⟨sound, one⟩ := count_sound h b i
      obtain ⟨all, rest⟩ := ih sound
      exact ⟨all, by rw [List.foldl_cons, rest, one, List.length_cons]; omega⟩
  induction bags generalizing t with
  | nil => exact ⟨h, empty, rfl⟩
  | cons p bags ih =>
    obtain ⟨b, is⟩ := p
    obtain ⟨sound, counted⟩ := indices b is h
    obtain ⟨all, done, rest⟩ := ih (flushBag_sound sound b) (flushBag_bag b)
    exact ⟨all, done, by rw [tallyBags, rest, flushBag_counted, counted, List.map_cons, List.sum_cons, Nat.add_assoc]⟩

end

/-- The parts of a section are sound and together count every index of its bags once (R309, R310). -/
theorem tallyParts_sound (bags : List (Nat × List Nat)) :
    ((tallyParts bags).map Building.counted).sum = (bags.map (·.2.length)).sum ∧ ∀ b ∈ tallyParts bags, b.Sound := by
  have start : TallyRun.Sound {} := ⟨by simp, ⟨by simp, by simp, by simp⟩, by simp, by simp⟩
  obtain ⟨sound, done, counted⟩ := tallyBags_sound bags start rfl
  have all : ((tallyBags bags {}).closed.map Building.counted).sum + (tallyBags bags {}).now.counted = (bags.map (·.2.length)).sum := by
    rw [TallyRun.counted, done] at counted
    exact counted.trans (Nat.zero_add _)
  unfold tallyParts; dsimp only
  split
  next none' =>
    have zero : (tallyBags bags {}).now.counted = 0 := by rw [Building.counted, List.isEmpty_iff.1 none']; rfl
    exact ⟨by omega, sound.closed⟩
  next =>
    refine ⟨by rw [← all]; simp, fun b hb => ?_⟩
    rcases List.mem_append.1 hb with old | new
    · exact sound.closed b old
    · rw [List.mem_singleton.1 new]; exact sound.now

/-! ### A section's tally -/

theorem Stores.craneFor {s t : State} (h : Stores s t) (n : Nat) : t.craneFor n = s.craneFor n := by
  have crane (k : Nat) : t.crane k = s.crane k := by rw [State.crane, h.cranes]; rfl
  unfold State.craneFor; dsimp only
  rw [h.get (by decide), h.get (by decide), h.table]
  simp only [crane]

theorem partOf_congr {s t : State} (me : t.me = s.me) (tables : t.tables = s.tables) (j : Job) (k : Nat) (x : Section) (n : Nat) (b : Building) :
    t.partOf j k x n b = s.partOf j k x n b := by
  unfold State.partOf State.table
  rw [tables, me]

theorem mem_out_sends {l : List Msg} {m : Msg} (hm : m ∈ l) (s : State) (passed : s.withheld m = false) : m ∈ (l.foldl (fun t m => t.send m) s).out := by
  have grows (l : List Msg) (t : State) (there : m ∈ t.out) : m ∈ (l.foldl (fun t m => t.send m) t).out := by
    induction l generalizing t with
    | nil => exact there
    | cons x l ih =>
      refine ih (t.send x) ?_
      unfold State.send; split
      · exact there
      · exact List.mem_append_left _ there
  induction l generalizing s with
  | nil => exact absurd hm List.not_mem_nil
  | cons x l ih =>
    rcases List.mem_cons.1 hm with rfl | later
    · exact grows l (s.send m) (by rw [send_of_passed passed]; exact List.mem_append_right _ (List.mem_singleton.2 rfl))
    · exact ih later (s.send x) (by rw [send_frame]; exact passed)

theorem sendParts_eq (s : State) (t : Nat) (slots : List Nat) (ps : List Part) : s.sendParts t slots ps =
    (ps.flatMap fun p => slots.map fun k => Msg.net ((s.group (s.table t).group).slots.getD k 0) 1 (.ladingPart p)).foldl (fun u m => u.send m) s := by
  unfold State.sendParts State.tell; dsimp only
  rw [List.foldl_flatMap]
  simp only [List.foldl_map]

theorem stores_writeZeroBags {r : Req} {x : Section} (l : List Nat) {s t : State} (h : s.writeZeroBags r x l = .ok t) : Stores s t := by
  induction l generalizing s with
  | nil => cases h; exact .refl _
  | cons b l ih =>
    rw [State.writeZeroBags] at h
    split at h
    · cases h
    next w write => exact (stores_write write).trans (ih h)

theorem beside_writeZeroBags {r : Req} {x : Section} (l : List Nat) {u : State} : ∀ {s t : State}, Beside s t → s.writeZeroBags r x l = .ok u →
    ∃ v, t.writeZeroBags r x l = .ok v ∧ Beside u v := by
  induction l with
  | nil => exact fun h write => by cases write; exact ⟨_, rfl, h⟩
  | cons b l ih =>
    intro s t h write
    rw [State.writeZeroBags] at write
    split at write
    · cases write
    next w first =>
      have table : t.table x.table = s.table x.table := by
        change t.bare.table x.table = s.bare.table x.table; rw [h.rest]
      rw [← table] at first
      obtain ⟨w', first', beside⟩ := beside_write h first
      obtain ⟨v, rest, last⟩ := ih beside write
      exact ⟨v, by rw [State.writeZeroBags, first']; exact rest, last⟩

section
variable {s s1 s2 : State} {j : Job} {k : Nat} {x : Section} {lens idx : List Nat}

theorem exec_sectionTally {job : Nat} (live : Live s) (job' : s.job job = some j) (sect : j.sect k = some x) (untallied : x.tallied = false)
    (open' : x.round ≤ s.tide) (lengths : s.bagLengths j.craneReq x = .ok (lens, s1)) (fits : s1.indicesFound j ≤ j.indices)
    (indices : s1.sectIndices j.craneReq x lens.sum = .ok (idx, s2)) :
    exec (.sectionTally job k) s = .next (s2.tallied j k x lens idx (s.sectSlots x)) := by
  change execSectionTally job k s = _
  rw [execSectionTally, job']; dsimp only
  rw [sect]; dsimp only
  rw [if_pos (by simp [live_of_Live live, untallied, open']), State.tallySection, lengths]; dsimp only
  rw [if_neg (Nat.not_lt.2 fits), indices]

theorem reports_bagLengths {r : Req} (h : s.bagLengths r x = .ok (lens, s1)) : Reports s s1 := by
  unfold State.bagLengths at h
  split at h
  · cases h
  next read => cases h; exact reports_read read

theorem reports_sectIndices {r : Req} {n : Nat} (h : s.sectIndices r x n = .ok (idx, s1)) : Reports s s1 := by
  unfold State.sectIndices at h
  dsimp only at h
  split at h
  · cases h
  next read => cases h; exact reports_read read

/-- Indices of a section beyond its table's rows. -/
def State.droppedOf (s : State) (x : Section) (idx : List Nat) : Nat := (idx.filter fun i => decide ((s.table x.table).rows ≤ i)).length

/-- The kept indices of a section's bags. -/
def State.runsOf (s : State) (x : Section) (lens idx : List Nat) : List (List Nat) :=
  (cutRuns lens idx).map fun r => r.filter fun i => decide (i < (s.table x.table).rows)

/-- A section's parts. -/
def State.partsOf (s : State) (x : Section) (lens idx : List Nat) : List Building :=
  tallyParts ((s.runsOf x lens idx).zipIdx.map fun r => (r.2, r.1))

/-- The state with a section's drops counted (R307). -/
def State.dropsCounted (s : State) (x : Section) (idx : List Nat) : State :=
  if x.counted then s else s.inc CRN_BAD_INDEX_COUNT (s.craneFor x.table) (s.droppedOf x idx)

/-- A job that notes its bad indices. -/
def Job.notesBad (j : Job) (bad : Nat) : Job := { j with badIndex := j.badIndex || decide (bad > 0) }

/-- A section once it is tallied. -/
def Section.talliedAs (x : Section) (parts : List Building) : Section :=
  { x with tallied := true, counted := true, partBags := parts.map (·.bagNos) }

theorem tallied_eq {slots : List Nat} {w : State} (wrote : ((s.dropsCounted x idx).putJob (j.notesBad (s.droppedOf x idx))).writeZeroBags j.craneReq x
      (((s.runsOf x lens idx).zipIdx.filter fun r => r.1.isEmpty).map (·.2)) = .ok w) :
    s.tallied j k x lens idx slots =
      (let u := (w.inc CRN_TALLY_FLUSHES (s.craneFor x.table) ((s.partsOf x lens idx).length - 1)).putJob
        ((j.notesBad (s.droppedOf x idx)).setSect k (x.talliedAs (s.partsOf x lens idx)))
      u.sendParts x.table slots ((s.partsOf x lens idx).zipIdx.map fun p => u.partOf (j.notesBad (s.droppedOf x idx)) k x p.2 p.1)) := by
  unfold State.tallied; dsimp only
  erw [wrote]
  rfl

end

end Sys2Proof.Machine
end

section
/-! The statement about sections at the requester. -/

namespace Sys2Proof.Safety

open Sys2Proof.Machine

/-- Settles O33: the tally's parts are sound (`tallyParts_sound`); noting bad indices in the job does not touch the writes of empty bags
(`beside_writeZeroBags`). -/
theorem sectionsTallyAndTakeSlices : Obligations.SectionsTallyAndTakeSlices := by
  unfold Obligations.SectionsTallyAndTakeSlices
  refine ⟨?tally, ?parts, ?slice, ?done⟩
  case tally =>
    intro s s1 s2 s4 job k j x lens idx live job' sect untallied open' lengths fits indices rows runs bad c s3 parts zeros
    have ran := exec_sectionTally live job' sect untallied open' lengths fits indices
    have read := ((reports_bagLengths lengths).trans (reports_sectIndices indices)).stores
    have rows2 : (s2.table x.table).rows = rows := by rw [read.table]
    have crane2 : s2.craneFor x.table = c := read.craneFor x.table
    have dropped : s2.dropsCounted x idx = s3 := by
      unfold State.dropsCounted State.droppedOf; rw [rows2, crane2]
    have kept : s2.runsOf x lens idx = runs := by unfold State.runsOf; rw [rows2]
    have bad2 : s2.droppedOf x idx = bad := by unfold State.droppedOf; rw [rows2]
    have parts2 : s2.partsOf x lens idx = parts := by unfold State.partsOf; rw [kept]
    obtain ⟨w, wrote, beside⟩ := beside_writeZeroBags _ (⟨rfl, fun _ _ _ => rfl⟩ : Beside s3 (s3.putJob (j.notesBad bad))) zeros
    have stored := stores_writeZeroBags _ wrote
    have eq := tallied_eq (s := s2) (j := j) (k := k) (x := x) (lens := lens) (idx := idx) (slots := s.sectSlots x) (w := w)
      (by rw [dropped, bad2, kept]; exact wrote)
    rw [bad2, parts2, crane2] at eq
    have first : (s3.putJob (j.notesBad bad)).job j.id = some (j.notesBad bad) := by
      refine job_putJob (x := j.notesBad bad) (i := j) ?_
      rw [show s3.job (j.notesBad bad).id = s2.job j.id by dsimp only [s3]; split <;> rfl, read.job, id_of_job job', job']
    have hw : w.job j.id = some (j.notesBad bad) := (stored.job _).trans first
    generalize hJ : (j.notesBad bad).setSect k (x.talliedAs parts) = J at eq
    have id : J.id = j.id := by rw [← hJ]; rfl
    have second : ((w.inc CRN_TALLY_FLUSHES c (parts.length - 1)).putJob J).job j.id = some J := by
      rw [← id]; exact job_putJob (x := J) (i := j.notesBad bad) (by rw [id]; exact hw)
    have wide : k < j.sections.length := by
      unfold Job.sect at sect
      exact (List.getElem?_eq_some_iff.1 sect).1
    have mem : (w.inc CRN_TALLY_FLUSHES c (parts.length - 1)).mem = s4.mem := beside.mem
    have tables : w.tables = s.tables := by rw [stored.tables, ← read.tables]; dsimp only [s3]; split <;> rfl
    have groups : w.groups = s.groups := by rw [stored.groups, ← read.groups]; dsimp only [s3]; split <;> rfl
    have peers : w.peers = s.peers := by rw [stored.peers, ← read.peers]; dsimp only [s3]; split <;> rfl
    have me : w.me = s.me := by
      refine (stored.get (by decide) 0).trans (Eq.trans ?_ (read.get (by decide) 0))
      dsimp only [s3]; split
      · rfl
      · exact State.get_inc_other (by decide) ..
    have look (i : Nat) (y : Building) : ((w.inc CRN_TALLY_FLUSHES c (parts.length - 1)).putJob J).partOf (j.notesBad bad) k x i y = s.partOf j k x i y := by
      have far : ((w.inc CRN_TALLY_FLUSHES c (parts.length - 1)).putJob J).me = s.me := (State.get_inc_other (by decide) ..).trans me
      exact partOf_congr far tables (j.notesBad bad) k x i y
    have slots : (((w.inc CRN_TALLY_FLUSHES c (parts.length - 1)).putJob J).group
        (((w.inc CRN_TALLY_FLUSHES c (parts.length - 1)).putJob J).table x.table).group).slots = (s.group (s.table x.table).group).slots := by
      unfold State.group State.table
      rw [← groups, ← tables]; rfl
    dsimp only at eq
    rw [sendParts_eq, slots] at eq
    simp only [look] at eq
    generalize hv : (w.inc CRN_TALLY_FLUSHES c (parts.length - 1)).putJob J = v at *
    generalize hl : List.flatMap _ _ = l at eq
    refine ⟨_, ran, ?_⟩
    rw [eq, sends_frame]
    refine ⟨⟨J, _, second, ?_, rfl, ?_⟩, ?_, fun p hp q hq open'' => ?_⟩
    · rw [← hJ]
      exact List.getElem?_set_self wide
    · rw [← hJ]; simp [Job.notesBad, Job.setSect]
    · rw [← mem]; change v.mem = _; rw [← hv]; rfl
    · rw [← sends_frame]
      refine mem_out_sends ?_ v ?_
      · rw [← hl]
        exact List.mem_flatMap.2 ⟨_, List.mem_map.2 ⟨p, hp, rfl⟩, List.mem_map.2 ⟨q, hq, rfl⟩⟩
      · unfold State.withheld State.peer
        rw [← hv]
        change (_ && (Tab.get _ w.peers _).frozen) = false
        rw [peers]
        exact Bool.and_eq_false_iff.2 (.inr open'')
  case parts =>
    intro bags
    obtain ⟨sum, sound⟩ := tallyParts_sound bags
    refine ⟨?_, sound⟩
    rw [← sum, List.map_flatMap, List.flatMap, List.sum_flatten, List.map_map]
    rfl
  case slice =>
    intro s ref table part bag slot attempt k data j x hears found nos a
    have ran : exec (.pooledSlice ref table part bag slot attempt data) s = .next (s.takeSlice j x part bag slot attempt data) := by
      change execPooledSlice ref table part bag slot attempt data s = _
      rw [execPooledSlice, found]; dsimp only
      rw [if_pos hears]
    refine ⟨fun older => ?_, fun t newer inside wrote => ?_⟩
    · rw [ran, State.takeSlice]; dsimp only
      rw [if_pos (by simp [older])]
    · rw [ran, State.takeSlice]; dsimp only
      rw [if_neg (by simp [Nat.not_lt.2 newer]; exact inside), wrote]
  case done =>
    intro s ref table part slot status attempt k pressure j x hears found newer s1
    have found1 : s1.sectFor ref table part (s1.slotFor table slot) = some (j, k, x) := by
      rw [← found]; dsimp only [s1]; split <;> rfl
    have ran : exec (.partDone ref table part slot status attempt pressure) s = .next (s.takeDone ref table part slot status attempt pressure) := by
      change execPartDone ref table part slot status attempt pressure s = _
      rw [execPartDone, if_pos hears]
    have data : s1.slotFor table slot = s.slotFor table slot := by dsimp only [s1]; split <;> rfl
    rw [ran, State.takeDone]; dsimp only
    rw [show (if pressure then _ else s : State) = s1 from rfl, found1]
    dsimp only
    rw [if_neg (Nat.not_lt.2 newer)]
    refine ⟨fun ok => ?_, fun bad => ?_⟩
    · rw [if_pos (by simp [ok, stOk]), data]; rfl
    · rw [if_neg (by simpa [stOk] using bad)]

end Sys2Proof.Safety
end


section
/-! SUPPORT. What a member crane does with what it holds (R314 to R318, R331 to R333). -/

namespace Sys2Proof.Machine

open Sys2Proof.Safety

/-! ### A crane that holds nothing to do -/

section
variable {s : State} {c : Nat}

@[simp] theorem putCrane_putCrane (s : State) (c : Nat) (x y : Crane) : (s.putCrane c x).putCrane c y = s.putCrane c y := by
  simp [State.putCrane]

theorem crane_putCrane_self (s : State) (c : Nat) (x : Crane) : (s.putCrane c x).crane c = x := (State.crane_putCrane ..).trans (if_pos rfl)

/-- Parts of which every key is inserted bring nothing new. -/
theorem insertParts_inserted {p : MPart} (parts : (s.crane c).parts = [p]) (all : p.pending = []) : s.insertParts c = s := by
  unfold State.insertParts
  rw [parts]
  simp [List.range_succ, parts, all, State.insertAll]

theorem insertParts_none (parts : (s.crane c).parts = []) : s.insertParts c = s := by
  unfold State.insertParts; rw [parts]; rfl

theorem poolParts_none (parts : (s.crane c).parts = []) : s.poolParts c = s := by
  unfold State.poolParts; rw [parts]; rfl

theorem closeParts_none (parts : (s.crane c).parts = []) : s.closeParts c = s := by
  unfold State.closeParts; rw [parts]; rfl

/-- With no part and no raw request left the window ends: entries stay that a raw request waits for (R317). -/
theorem endWindow_idle (parts : (s.crane c).parts = []) (raws : (s.crane c).raws = []) :
    s.endWindow c = s.putCrane c { s.crane c with window := (s.crane c).window.filter fun y => !y.askers.isEmpty } := by
  unfold State.endWindow; dsimp only
  rw [if_pos (by rw [parts, raws]; rfl)]

/-- A crane with one raw request takes it in, and its window ends. -/
theorem runCrane_raw {w : RawWait} {t : State} (parts : (s.crane c).parts = []) (raws : (s.crane c).raws = [w]) (taken : s.rawOne c w = some t)
    (parts' : (t.crane c).parts = []) (raws' : (t.crane c).raws = [w]) :
    s.runCrane c = t.putCrane c { t.crane c with raws := [], window := (t.crane c).window.filter fun y => !y.askers.isEmpty } := by
  have left : (t.putCrane c { t.crane c with raws := [] }).crane c = { t.crane c with raws := [] } := crane_putCrane_self ..
  have inserted : s.insertRaws c [w] = t.putCrane c { t.crane c with raws := [] } := by
    rw [State.insertRaws, taken]; dsimp only
    rw [raws', State.insertRaws]
    simp
  unfold State.runCrane; dsimp only
  rw [insertParts_none parts, raws, inserted, poolParts_none (by rw [left]; exact parts'), closeParts_none (by rw [left]; exact parts'),
    endWindow_idle (by rw [left]; exact parts') (by rw [left]), left, putCrane_putCrane]

/-! ### A part of one key -/

/-- A bag of one entry, pooled (R318). -/
def pooledBag (n : Nat) (elems zeros : List Nat) : Bag := ⟨0, [], poolAdd n elems zeros, n, false⟩

variable {p : MPart} {y : Tally} {n : Nat}

/-- The only key of a part whose record is there is pooled into its only bag. -/
theorem pool_single {x : Crane} {fmt e : Nat} (window : x.window = [y]) (key : p.hdr.distinct = [y.index]) (bags : p.bags = [⟨0, [(0, n)], [], 0, false⟩])
    (fresh : p.hdr.contIn = false) (table : y.table = p.hdr.table) (epoch : y.epoch = p.hdr.epoch) (ready : y.st = .ready) :
    p.pool x fmt e = { p with bags := [pooledBag n (recordElems fmt e y.record) (List.replicate e 0)] } := by
  have found : x.findKey p.hdr.table p.hdr.epoch (p.hdr.distinct.getD 0 0) = some 0 := by
    unfold Crane.findKey
    rw [window, key]
    simp [table, epoch]
  have entry : p.entry x 0 = some y := by
    unfold MPart.entry; rw [found, window]; rfl
  have here : p.present x ⟨0, [(0, n)], [], 0, false⟩ = true := by
    unfold MPart.present
    simp [entry]
  unfold MPart.pool
  rw [bags]
  simp only [List.map_cons, List.map_nil, here, Bool.true_or, if_true]
  unfold MPart.poolBag MPart.accOf
  simp [fresh, entry, ready, pooledBag]

/-- A finished bag's slice goes out, and the part has no bag left. -/
theorem finishBags_single {b : Bag} (parts : (s.crane c).parts = [p]) (fresh : p.hdr.contIn = false) (ends : p.hdr.contOut = false) (done : b.todo = [])
    (pooled : b.acc ≠ []) : s.finishBags c 0 { p with bags := [b] } = (s.sendSlice c p.hdr b).putCrane c { s.crane c with parts := [{ p with bags := [] }] } := by
  have crane : (s.sendSlice c p.hdr b).crane c = s.crane c := by
    unfold State.sendSlice State.tell; dsimp only
    rw [send_frame]; rfl
  unfold State.finishBags State.dropTaken MPart.goesOn
  simp [fresh, ends, done, pooled, crane, parts]

/-- A part whose bags are done is answered OK. -/
theorem closeParts_single (parts : (s.crane c).parts = [p]) (fresh : p.hdr.contIn = false) (bags : p.bags = []) (key : p.hdr.distinct.length ≤ p.inserted) :
    s.closeParts c = (s.answer p.hdr stOk).putCrane c { s.crane c with parts := [] } := by
  have crane : (s.answer p.hdr stOk).crane c = s.crane c := by
    unfold State.answer State.tell; dsimp only
    rw [send_frame]; rfl
  have none' (o : OpenBag) : o.before p.hdr = false := by simp [OpenBag.before, fresh]
  have unopened : (s.crane c).opened.find? (fun o => o.before p.hdr) = none := List.find?_eq_none.2 (by simp [none'])
  have verdict : p.verdict (s.crane c) = some stOk := by
    unfold MPart.verdict MPart.failure
    rw [unopened]
    simp [bags, key]
  unfold State.closeParts
  rw [parts, List.foldl_cons, List.foldl_nil, verdict]
  unfold State.endPart
  simp [parts, none']

theorem answer_putCrane (s : State) (c : Nat) (x : Crane) (h : Part) (st : Nat) :
    (s.putCrane c x).answer h st = (s.answer h st).putCrane c x := by
  have same : ∀ t, (s.putCrane c x).send t = (s.send t).putCrane c x := by
    intro t
    have held : (s.putCrane c x).withheld t = s.withheld t := rfl
    unfold State.send
    rw [held]
    split <;> rfl
  exact same _

/-- When the record of a part's only key is there, the slice and the answer go out and the window is empty. -/
theorem runCrane_single (window : (s.crane c).window = [y]) (parts : (s.crane c).parts = [p]) (raws : (s.crane c).raws = [])
    (key : p.hdr.distinct = [y.index]) (bags : p.bags = [⟨0, [(0, n)], [], 0, false⟩]) (inserted : p.inserted = 1) (again : p.again = [])
    (fresh : p.hdr.contIn = false) (ends : p.hdr.contOut = false) (table : y.table = p.hdr.table) (epoch : y.epoch = p.hdr.epoch) (ready : y.st = .ready)
    (unasked : y.askers = []) (elems : 0 < s.elems y.table) :
    s.runCrane c = (((s.sendSlice c p.hdr (pooledBag n (recordElems (s.table y.table).fmt (s.elems y.table) y.record)
      (List.replicate (s.elems y.table) 0))).answer p.hdr stOk).putCrane c { s.crane c with parts := [], window := [] }) := by
  have pending : p.pending = [] := by simp [MPart.pending, key, inserted, again]
  have inserts : s.insertParts c = s := insertParts_inserted parts pending
  generalize sent : pooledBag n (recordElems (s.table y.table).fmt (s.elems y.table) y.record) (List.replicate (s.elems y.table) 0) = b
  have filled : b.acc ≠ [] := by
    rw [← sent]
    intro empty
    have length : (pooledBag n (recordElems (s.table y.table).fmt (s.elems y.table) y.record) (List.replicate (s.elems y.table) 0)).acc.length =
        s.elems y.table := by
      simp [pooledBag, poolAdd, recordElems]
    rw [empty] at length
    exact absurd length (by simp; omega)
  have pools : s.poolParts c = (s.sendSlice c p.hdr b).putCrane c { s.crane c with parts := [{ p with bags := [] }] } := by
    unfold State.poolParts
    rw [parts]
    simp only [List.length_singleton, List.range_one, List.foldl_cons, List.foldl_nil, parts, List.getElem?_cons_zero]
    rw [pool_single window key bags fresh table epoch ready, ← table, sent]
    exact finishBags_single parts fresh ends (by rw [← sent]; rfl) filled
  have crane : (s.poolParts c).crane c = { s.crane c with parts := [{ p with bags := [] }] } := by rw [pools, crane_putCrane_self]
  have closes : (s.poolParts c).closeParts c = ((s.sendSlice c p.hdr b).answer p.hdr stOk).putCrane c { s.crane c with parts := [] } := by
    rw [closeParts_single (p := { p with bags := [] }) (by rw [crane]) fresh rfl (by simp [key, inserted]), crane, pools, answer_putCrane, putCrane_putCrane]
  unfold State.runCrane; dsimp only
  rw [inserts, raws, State.insertRaws, closes, endWindow_idle (by rw [crane_putCrane_self]) (by rw [crane_putCrane_self]; exact raws),
    crane_putCrane_self, putCrane_putCrane]
  simp [window, unasked, raws]

/-- Marks and pressure of a member in this tide are of registers and counts alone. -/
theorem pressure_congr {s t : State} (gets : ∀ f ∈ [HMR_BUDGET_SLICE_SLICE_PER_US, HMR_TIDE_CFG_PERIOD_STEPS, HMR_CLASS_SHARE_SHARE_C0, HMR_CLASS_SHARE_SHARE_C1],
    t.get f 0 = s.get f 0) (counts : t.counts = s.counts) : t.pressure = s.pressure := by
  unfold State.pressure State.pressureLimit
  rw [counts, gets _ (by simp), gets _ (by simp), gets _ (by simp), gets _ (by simp)]

/-- A slice and the answer of its part go out. -/
theorem out_sliceAnswer {h : Part} {b : Bag} {st : Nat} (thawed : (s.peer h.requester).frozen = false) (mode : h.mode = 0) :
    ((s.sendSlice c h b).answer h st).out = s.out ++
      [.net h.requester 1 (.pooledSlice h.jobRef h.table h.part b.ordinal ((s.mySlot (s.table h.table).group).getD 63) h.attempt
          (b.acc.flatMap fun v => (outElem h.outFmt v).1)),
       .net h.requester 1 (.partDone h.jobRef h.table h.part ((s.mySlot (s.table h.table).group).getD 63) st h.attempt s.pressure)] := by
  unfold State.answer State.sendSlice State.tell
  dsimp only
  generalize counted : (s.inc CRN_OUT_SAT_COUNT c _).inc CRN_NONFINITE_COUNT c _ = u
  have table : u.table h.table = s.table h.table := by rw [← counted]; rfl
  have slot : ∀ g, u.mySlot g = s.mySlot g := by
    intro g
    have me : u.me = s.me := by
      rw [← counted]
      exact (State.get_inc_other (by decide) ..).trans (State.get_inc_other (by decide) ..)
    have group : u.group g = s.group g := by rw [← counted]; rfl
    unfold State.mySlot; rw [group, me]
  have pressure : u.pressure = s.pressure := by
    refine pressure_congr (fun f hf => ?_) (by rw [← counted]; rfl)
    rw [← counted]
    have clear : ∀ f ∈ [HMR_BUDGET_SLICE_SLICE_PER_US, HMR_TIDE_CFG_PERIOD_STEPS, HMR_CLASS_SHARE_SHARE_C0, HMR_CLASS_SHARE_SHARE_C1],
        f.ord % 512 ≠ CRN_OUT_SAT_COUNT.ord % 512 ∧ f.ord % 512 ≠ CRN_NONFINITE_COUNT.ord % 512 := by decide
    exact (State.get_inc_other (clear f hf).2 ..).trans (State.get_inc_other (clear f hf).1 ..)
  have thawed' : (u.peer h.requester).frozen = false := by rw [← counted]; exact thawed
  have out : u.out = s.out := by rw [← counted]; rfl
  rw [send_net_open thawed', send_net_open (by exact thawed'), table, slot]
  change (u.out ++ _) ++ [.net h.requester 1 (.partDone h.jobRef h.table h.part ((u.mySlot (u.table h.table).group).getD 63) st h.attempt u.pressure)] = _
  rw [out, table, slot, pressure, List.append_assoc]
  simp [mode, List.flatMap_map]

/-- A slice and the answer of its part change counters and what was sent. -/
theorem sliceAnswer_frame (h : Part) (b : Bag) (st : Nat) : (s.sendSlice c h b).answer h st =
    { s with flds := ((s.sendSlice c h b).answer h st).flds, out := ((s.sendSlice c h b).answer h st).out } := by
  unfold State.answer State.sendSlice State.tell
  dsimp only
  rw [send_frame, send_frame]
  rfl

/-- The record of a part's only key comes back (R318). -/
theorem recordGot_single {bs : List Byte} (window : (s.crane c).window = [y]) (parts : (s.crane c).parts = [p]) (raws : (s.crane c).raws = [])
    (key : p.hdr.distinct = [y.index]) (bags : p.bags = [⟨0, [(0, n)], [], 0, false⟩]) (inserted : p.inserted = 1) (again : p.again = [])
    (fresh : p.hdr.contIn = false) (ends : p.hdr.contOut = false) (table : y.table = p.hdr.table) (epoch : y.epoch = p.hdr.epoch)
    (found : y.lost = false) (unasked : y.askers = []) (elems : 0 < s.elems y.table) :
    s.recordGot c 0 y bs = (((s.putCrane c { s.crane c with window := [{ y with record := bs, st := .ready }] }).sendSlice c p.hdr
      (pooledBag n (recordElems (s.table y.table).fmt (s.elems y.table) bs) (List.replicate (s.elems y.table) 0))).answer p.hdr stOk).putCrane c { s.crane c with parts := [], window := [] } := by
  have silent : s.answerAskers c 0 0 bs = s.setTally c 0 fun z => { z with askers := [] } := by
    unfold State.answerAskers; rw [window]; simp [unasked]
  have there : ((s.setTally c 0 fun z => { z with askers := [] }).setTally c 0 (fun z => { z with record := bs })).setTally c 0
      (fun z => { z with st := .ready }) = s.putCrane c { s.crane c with window := [{ y with record := bs, st := .ready }] } := by
    unfold State.setTally
    simp [window, unasked]
  unfold State.recordGot; dsimp only
  rw [silent, if_neg (by simp [found])]
  unfold State.recordReady
  rw [there]
  have fmt (x : Crane) : ((s.putCrane c x).table y.table).fmt = (s.table y.table).fmt := rfl
  have elems' (x : Crane) : (s.putCrane c x).elems y.table = s.elems y.table := rfl
  have ran := runCrane_single (s := s.putCrane c { s.crane c with window := [{ y with record := bs, st := .ready }] })
    (y := { y with record := bs, st := .ready }) (n := n) (by rw [crane_putCrane_self]) (by rw [crane_putCrane_self]; exact parts)
    (by rw [crane_putCrane_self]; exact raws) key bags inserted again fresh ends table epoch rfl unasked (by dsimp only; rw [elems']; exact elems)
  rw [crane_putCrane_self] at ran
  dsimp only at ran
  rw [fmt, elems'] at ran
  exact ran

end

/-! ### Record reads and the hot rows (R269, R314) -/

section
variable {s : State} {c : Nat}

/-- A check of the hot rows changes no crane, no byte of memory and no count of reads. -/
def ReadKeeps (s t : State) (c : Nat) : Prop := t.cranes = s.cranes ∧ t.mem = s.mem ∧ t.get CRN_READS_COUNT c = s.get CRN_READS_COUNT c

theorem ReadKeeps.trans {s t u : State} (first : ReadKeeps s t c) (second : ReadKeeps t u c) : ReadKeeps s u c :=
  ⟨second.1.trans first.1, second.2.1.trans first.2.1, second.2.2.trans first.2.2⟩

theorem hotCheck_keeps (s : State) (total u c : Nat) : ReadKeeps s (s.hotCheck total u).2.2 c := by
  have counted {f : Fld} (hf : CRN_READS_COUNT.ord % 512 ≠ f.ord % 512) (t : State) (k : Nat) : ReadKeeps t (t.inc f 0 k) c :=
    ⟨rfl, rfl, State.get_inc_other hf ..⟩
  have corrected (t : State) (a k : Nat) : ReadKeeps t (t.correct a k) c := by
    have reports := reports_correctWords t (wordsOf a k)
    exact ⟨reports.stores.cranes, reports.mem, reports.get (by decide) c⟩
  unfold State.hotCheck
  split
  · exact counted (by decide) _ _
  · dsimp only
    split
    · exact (counted (by decide) s 1).trans (ReadKeeps.trans ⟨rfl, rfl, rfl⟩ (corrected _ _ _))
    · exact (counted (by decide) s 1).trans (ReadKeeps.trans ⟨rfl, rfl, rfl⟩ (counted (by decide) _ _))

theorem hotChecks_keeps (total c : Nat) (us : List Nat) (s : State) : ReadKeeps s (s.hotChecks total us).2.2 c := by
  induction us generalizing s with
  | nil => exact ⟨rfl, rfl, rfl⟩
  | cons u us ih => exact (hotCheck_keeps s total u c).trans (ih _)

/-- The read of a raw request's key is counted; the entry notes what the hot rows hold of it. -/
theorem craneRead_raw (s : State) (c t e index total cls entry : Nat) : ∃ m h,
    ((s.craneRead c t e index total cls entry false).crane c = s.crane c ∨ (s.craneRead c t e index total cls entry false).crane c =
      { s.crane c with window := (s.crane c).window.modify entry fun y => { y with missed := m, hot := h } }) ∧
    (s.craneRead c t e index total cls entry false).mem = s.mem ∧
    (s.craneRead c t e index total cls entry false).get CRN_READS_COUNT c = (s.inc CRN_READS_COUNT c 1).get CRN_READS_COUNT c := by
  unfold State.craneRead
  simp only [Bool.false_and, Bool.false_eq_true, if_false]
  split
  · next a _ =>
    obtain ⟨cranes, mem, count⟩ := hotChecks_keeps total c (unitsOf a ((s.inc CRN_READS_COUNT c 1).pitch t)) (s.inc CRN_READS_COUNT c 1)
    generalize (s.inc CRN_READS_COUNT c 1).hotChecks total (unitsOf a ((s.inc CRN_READS_COUNT c 1).pitch t)) = r at cranes mem count ⊢
    obtain ⟨hot, missed, u⟩ := r
    refine ⟨missed, hot.map fun b => (b.drop (a % 64)).take (u.pitch t), .inr ?_, mem, count⟩
    have crane : u.crane c = s.crane c := by rw [State.crane, cranes]; rfl
    exact (crane_putCrane_self ..).trans (by rw [crane])
  · exact ⟨[], none, .inl rfl, rfl, rfl⟩

end
end Sys2Proof.Machine
end

section
/-! The statement about members. -/

namespace Sys2Proof.Safety

open Sys2Proof.Machine

/-- One raw copy more of a record that is rebuilt: what a copy's arrival makes of the entry. -/
theorem setTally_at {s : State} {c n : Nat} {f : Tally → Tally} {y : Tally} (there : (s.crane c).window[n]? = some y) :
    s.setTally c n f = s.setTally c n fun _ => f y := by
  have same : (s.crane c).window.modify n f = (s.crane c).window.modify n fun _ => f y := by
    apply List.ext_getElem?
    intro i
    simp only [List.getElem?_modify]
    split
    · next at' => subst at'; rw [there]; rfl
    · rfl
  unfold State.setTally; rw [same]

theorem window_setTally {s : State} {c n : Nat} {y z : Tally} (there : (s.crane c).window[n]? = some y) :
    ((s.setTally c n fun _ => z).crane c).window[n]? = some z := by
  unfold State.setTally
  simp [there]

/-- Changing the entry after a list's. -/
theorem modify_last {α : Type} (l : List α) (a : α) (f : α → α) : (l ++ [a]).modify l.length f = l ++ [f a] := by
  induction l with
  | nil => rfl
  | cons x l ih => simpa using ih

/-- Settles O34: each command by what the member crane holds before it: a part refused or taken, a record read that pools a bag, a raw request and its copies. -/
theorem cranesPoolAndAnswer : Obligations.CranesPoolAndAnswer := by
  unfold Obligations.CranesPoolAndAnswer
  refine ⟨?part, ?cut, ?mark, ?back, ?request, ?copy⟩
  case part =>
    intro s p hears c
    have run : exec (.ladingPart p) s = .next (s.takePart p) := by
      change execLadingPart p s = _; rw [execLadingPart, if_pos hears]
    refine ⟨by simp [State.lateFor], ?_, ?_⟩
    · intro late taken unserved
      rw [run]; unfold State.takePart; dsimp only
      rw [if_pos late]
      have taken' : (s.inc CRN_LATE_PARTS_COUNT c 1).partRefusal p = none := taken
      have me : (s.inc CRN_LATE_PARTS_COUNT c 1).me = s.me := State.get_inc_other (by decide) ..
      have unserved' : (s.inc CRN_LATE_PARTS_COUNT c 1).serving p.table = .no := by
        rw [← unserved]; unfold State.serving State.mySlot; rw [me]; rfl
      erw [taken']
      dsimp only
      erw [unserved']
      rfl
    · intro timely
      have take : s.takePart p = match s.partRefusal p with
          | some st => if p.contOut then ((s.answer p st).partRefused p.requester st).leaveOpen c p [] 0 (some st)
              else (s.answer p st).partRefused p.requester st
          | none => if s.serving p.table == .no then s
              else (s.putCrane c { s.crane c with parts := (s.crane c).parts ++ [{ hdr := p, bags := p.bagList, inserted := 0 }] }).runCrane c := by
        unfold State.takePart; rw [timely]; rfl
      rw [run, take]
      refine ⟨?_, ?_, ?_, ?_⟩
      · intro st refused good
        have same : (s.answer p st).partRefused p.requester st = s.answer p st := by
          unfold State.partRefused
          rw [if_neg (by simp [stMalformed, good])]
        rw [refused]; dsimp only; rw [same]
      · intro refused foreign ends
        have me : (s.answer p 1).me = s.me := by unfold State.answer State.tell; dsimp only; rw [send_frame]; rfl
        rw [refused]; dsimp only
        rw [if_neg (by simp [ends])]
        unfold State.partRefused
        rw [me, if_pos (by simp [stMalformed, foreign])]
      · intro taken unserved
        rw [taken]; dsimp only; rw [if_pos (by simp [unserved])]
      · intro taken served
        rw [taken]; dsimp only; rw [if_neg (by simp [served])]
  case cut =>
    intro s live
    change execIndexCut s = _; rw [execIndexCut, if_pos (live_of_Live live)]
  case mark =>
    intro s live reached
    change execSlicePressureMark s = _; rw [execSlicePressureMark, if_pos (by simp [live_of_Live live, reached])]
  case back =>
    intro s s1 c n a p y i bs live parts window raws key bags inserted again fresh ends mode table epoch index reading whole found unasked source elems
      thawed e acc slot
    have reports : Reports s s1 := by
      rcases source with ⟨-, same⟩ | ⟨-, -, -, read⟩
      · rw [same]; exact .refl s
      · exact reports_read read
    have stores := reports.stores
    have crane1 : ∀ k, s1.crane k = s.crane k := fun k => by rw [State.crane, stores.cranes]; rfl
    have returned : s.recordReturns c 0 y = s1.recordGot c 0 y bs := by
      unfold State.recordReturns
      rcases source with ⟨hot, same⟩ | ⟨cold, hit, placed, read⟩
      · rw [hot, same]
      · rw [cold]; dsimp only; rw [placed]; dsimp only; rw [read]; dsimp only; rw [hit]; rfl
    have run : exec (.recordReadReturn c 0) s = .next (s1.recordGot c 0 y bs) := by
      change execRecordReadReturn c 0 s = _
      unfold execRecordReadReturn
      rw [window]; dsimp only [List.getElem?_cons_zero]
      rw [if_pos (by simp [live_of_Live live, reading, whole]), returned]
    have group1 : ∀ g, s1.group g = s.group g := stores.group
    have table1 : ∀ t, s1.table t = s.table t := stores.table
    have elems1 : s1.elems y.table = e := by unfold State.elems; rw [table1, group1]; rfl
    have me1 : s1.me = s.me := stores.get (by decide) 0
    have slot1 : (s1.mySlot (s1.table p.hdr.table).group).getD 63 = slot := by
      unfold State.mySlot; rw [group1, table1, me1, ← table]; rfl
    have pressure1 : s1.pressure = s.pressure := by
      refine pressure_congr (fun f hf => ?_) ?_
      · have clear : ∀ f ∈ [HMR_BUDGET_SLICE_SLICE_PER_US, HMR_TIDE_CFG_PERIOD_STEPS, HMR_CLASS_SHARE_SHARE_C0, HMR_CLASS_SHARE_SHARE_C1],
            ∀ g ∈ reportFlds, f.ord % 512 ≠ g.ord % 512 := by decide
        exact reports.get (clear f hf) 0
      · change s1.work.counts = s.work.counts; rw [reports.work]
    have got := recordGot_single (s := s1) (bs := bs) (by rw [crane1]; exact window) (by rw [crane1]; exact parts) (by rw [crane1]; exact raws)
      (key.trans (by rw [index])) bags inserted again fresh ends table epoch found unasked (by rw [elems1]; exact elems)
    rw [elems1, table1, crane1] at got
    refine ⟨_, run, ?_⟩
    rw [got]
    generalize entered : s1.putCrane c { s.crane c with window := [{ y with record := bs, st := .ready }] } = u
    have out := out_sliceAnswer (s := u) (c := c) (b := pooledBag n (recordElems (s.table y.table).fmt e bs) (List.replicate e 0)) (st := stOk)
      (by rw [← entered]; exact (congrArg Peer.frozen (stores.peer _)).trans thawed) mode
    have slotU : (u.mySlot (u.table p.hdr.table).group).getD 63 = slot := by rw [← entered]; exact slot1
    have pressureU : u.pressure = s.pressure := by rw [← entered]; exact pressure1
    have outU : u.out = s1.out := by rw [← entered]; rfl
    rw [slotU, pressureU, outU, ← table] at out
    refine ⟨crane_putCrane_self .., ?_, ?_, out⟩
    · intro d other
      rw [sliceAnswer_frame, ← entered]
      refine (State.crane_putCrane ..).trans ((if_neg other).trans ?_)
      exact (State.crane_putCrane ..).trans ((if_neg other).trans (crane1 d))
    · rw [sliceAnswer_frame, ← entered]; exact reports.mem
  case request =>
    intro s table gen epoch index device cls tag hears c tb q slot
    have run : exec (.rawRequest table gen epoch index device cls tag) s = .next (s.takeRaw table gen epoch index device cls tag) := by
      change execRawRequest table gen epoch index device cls tag s = _; rw [execRawRequest, if_pos hears]
    refine ⟨?_, ?_, ?_⟩
    · intro strange
      rw [run]; unfold State.takeRaw; dsimp only
      rw [if_pos (by rcases strange with off | old <;> simp [tb] at * <;> simp [*])]
    · intro on same gone
      rw [run]; unfold State.takeRaw; dsimp only
      rw [if_neg (by simp [tb] at *; simp [*]), if_pos (by simp [tb] at *; simp [*])]
    · intro on same held
      have taken : s.takeRaw table gen epoch index device cls tag =
          (s.putCrane c { q with raws := q.raws ++ [⟨table, epoch, index, device, cls, tag⟩] }).runCrane c := by
        unfold State.takeRaw; dsimp only
        rw [if_neg (by simp [tb] at *; simp [*]), if_neg (by simp [tb] at *; simp [*])]
      rw [taken] at run
      refine ⟨run, ?_, ?_⟩
      · intro new room parts raws
        rw [raws] at run
        generalize hw : (⟨table, epoch, index, device, cls, tag⟩ : RawWait) = w at run
        generalize hx : ({ q with raws := [] ++ [w] } : Crane) = x at run
        have window' : x.window = q.window := by rw [← hx]
        have parts' : x.parts = [] := by rw [← hx]; exact parts
        have raws' : x.raws = [w] := by rw [← hx]; rfl
        let y := newTally table epoch index cls [(device, tag)]
        have one : (s.putCrane c x).rawOne c w = some (((s.putCrane c x).putCrane c { x with window := x.window ++ [y] }).craneRead c
            table epoch index 0 cls q.window.length false) := by
          unfold State.rawOne
          rw [crane_putCrane_self]
          have unfound : x.findKey w.table w.epoch w.index = none := by rw [← hx, ← hw]; exact new
          have fits : (s.putCrane c x).windowRoom x w.table = true := by rw [← hx, ← hw]; exact room
          dsimp only; rw [unfound]; dsimp only; rw [if_pos fits, ← window', ← hw]
        rw [putCrane_putCrane] at one
        obtain ⟨m, h, crane, mem, count⟩ := craneRead_raw (s.putCrane c { x with window := x.window ++ [y] }) c table epoch index 0 cls q.window.length
        rw [crane_putCrane_self] at crane
        have entry : ∃ m h, (((s.putCrane c { x with window := x.window ++ [y] }).craneRead c table epoch index 0 cls q.window.length false).crane c) =
            { x with window := x.window ++ [{ y with missed := m, hot := h }] } := by
          rcases crane with same | noted
          · exact ⟨[], none, same⟩
          · refine ⟨m, h, noted.trans ?_⟩
            simp [← window', modify_last]
        obtain ⟨m, h, crane⟩ := entry
        generalize hr : (s.putCrane c { x with window := x.window ++ [y] }).craneRead c table epoch index 0 cls q.window.length false = r at *
        have ran := runCrane_raw (s := s.putCrane c x) (c := c) (w := w) (t := r) (by rw [crane_putCrane_self]; exact parts')
          (by rw [crane_putCrane_self]; exact raws') one (by rw [crane]; exact parts') (by rw [crane]; exact raws')
        refine ⟨_, run.trans (congrArg _ ran), ?_, ?_, mem⟩
        · refine ⟨m, h, (crane_putCrane_self ..).trans ?_⟩
          rw [crane, ← hx]
          simp [y, newTally, raws]
        · exact count.trans (by simp)
      · intro n z found there ready lost parts raws
        rw [raws] at run
        generalize hw : (⟨table, epoch, index, device, cls, tag⟩ : RawWait) = w at run
        generalize hx : ({ q with raws := [] ++ [w] } : Crane) = x at run
        have window' : x.window = q.window := by rw [← hx]
        have parts' : x.parts = [] := by rw [← hx]; exact parts
        have raws' : x.raws = [w] := by rw [← hx]; rfl
        generalize hr : (s.putCrane c x).sendRaw c table index (device, tag) 0 z.record = r
        have one : (s.putCrane c x).rawOne c w = some r := by
          unfold State.rawOne
          rw [crane_putCrane_self]
          have found' : x.findKey w.table w.epoch w.index = some n := by rw [← hx, ← hw]; exact found
          dsimp only; rw [found']; dsimp only; rw [window', there]
          unfold State.rawFrom
          simp [lost, ready, ← hr, ← hw]
        have thawed : (s.peer device).frozen = false := (hears_iff.1 hears).2
        have sent : r = { (s.putCrane c x).inc CRN_RAW_RAW_SENT c 1 with
            out := s.out ++ [.net device 1 (.rawCopy table index tag 0 slot z.record)] } := by
          rw [← hr]
          unfold State.sendRaw State.tell
          rw [send_net_open (by exact thawed)]
          rfl
        have crane : r.crane c = x := by rw [sent]; exact crane_putCrane_self ..
        have ran := runCrane_raw (s := s.putCrane c x) (c := c) (w := w) (t := r) (by rw [crane_putCrane_self]; exact parts')
          (by rw [crane_putCrane_self]; exact raws') one (by rw [crane]; exact parts') (by rw [crane]; exact raws')
        refine ⟨_, run.trans (congrArg _ ran), ?_, ?_, ?_, ?_⟩
        · refine (crane_putCrane_self ..).trans ?_
          rw [crane, ← hx]
          simp [raws]
        · change r.out = _; rw [sent]
        · change r.mem = _; rw [sent]; rfl
        · change r.get _ _ = _; rw [sent]; exact State.get_inc_self ..
  case copy =>
    intro s c n slot device data hears real s1
    have fewer : s1.crane c = s.crane c := rfl
    have run : exec (.rawCopy c n ⟨slot, device⟩ 0 data) s = match (s.crane c).window[n]? with
        | some y => if s.slotDevice y.table slot == device && (y.st == .rebuilding || (y.st == .reading && y.lost)) then
            .next (s1.takeCopy c n slot 0 data y) else .next s1
        | none => .next s1 := by
      change execRawCopy c n ⟨slot, device⟩ 0 data s = _
      rw [execRawCopy, if_pos (by simp [hears, real])] <;> rfl
    refine ⟨fun absent => by rw [run, absent], ?_⟩
    intro y there d z mine
    rw [there] at run
    dsimp only at run
    have mine_iff : (s.slotDevice y.table slot == device && (y.st == .rebuilding || (y.st == .reading && y.lost))) = true ↔ mine := by simp [mine]
    have again (taken : slot ∈ y.copies) : s1.takeCopy c n slot 0 data y = s1 := by
      unfold State.takeCopy; rw [if_pos (by simp [taken])]
    have first (new : slot ∉ y.copies) : s1.takeCopy c n slot 0 data y =
        if !(s1.setTally c n fun _ => z).rebuilt z then s1.setTally c n fun _ => z
        else if z.st == .rebuilding then
          (match (s1.setTally c n fun _ => z).recordAddr z.table z.epoch z.index with
          | .ok (some a) => ((s1.setTally c n fun _ => z).writeBack a z.record).hotFills z.total z.cls z.missed
          | _ => s1.setTally c n fun _ => z).recordReady c n
        else (s1.setTally c n fun _ => z).recordReady c n := by
      unfold State.takeCopy; dsimp only
      rw [if_neg (by simp [new]), if_neg (by decide), setTally_at (s := s1) (y := y) there]
      erw [window_setTally (y := y) there]
      rfl
    have d' : ((s1.setTally c n fun _ => z).group ((s1.setTally c n fun _ => z).table z.table).group).d = d := rfl
    refine ⟨?_, ?_⟩
    · rintro (other | taken)
      · rw [run, if_neg (mt mine_iff.1 other)]
      · rw [run, again taken, ite_self]
    · intro own new
      rw [run, if_pos (mine_iff.2 own), first new]
      refine ⟨?_, ?_, ?_⟩
      · intro short
        rw [if_pos]
        unfold State.rebuilt; dsimp only; rw [d']
        by_cases st : y.st = .rebuilding
        · rw [if_pos st] at short
          simp [z, st]; omega
        · rw [if_neg st] at short
          rcases short with own' | short
          · simp [z, st, own']
          · simp [z, st]; exact .inr (by omega)
      · intro st parity enough
        rw [if_neg, if_neg (by simp [z, st])]
        unfold State.rebuilt; dsimp only; rw [d']
        simp [z, st, parity]; omega
      · intro a st enough placed
        rw [if_neg, if_pos (by simp [z, st])]
        · erw [placed]
        · unfold State.rebuilt; dsimp only; rw [d']
          simp [z, st]; omega

end Sys2Proof.Safety
end


section
/-! SUPPORT. Writes of the device's own in memory (R301, R304). -/

namespace Sys2Proof.Machine

open Sys2Proof.Safety

theorem stores_devWrite (s : State) (a : Nat) (bs : List Byte) : Stores s (s.devWrite a bs) := by
  unfold State.devWrite
  split
  · next t wrote => exact stores_write wrote
  · exact .refl s

theorem stores_writeGroup (s : State) (g : Nat) (r : Group) : Stores s (s.writeGroup g r) :=
  (stores_devWrite _ _ _).trans (stores_devWrite _ _ _)

theorem reports_tableInMemory {s t : State} {n : Nat} {bs : Option (List Byte)} (h : s.tableInMemory n = .ok (bs, t)) : Reports s t := by
  unfold State.tableInMemory at h
  split at h
  · cases h; exact .refl s
  split at h
  · next read => cases h; exact reports_read read
  · cases h

theorem reports_groupInMemory {s t : State} {n : Nat} {bs : Option (List Byte)} (h : s.groupInMemory n = .ok (bs, t)) : Reports s t := by
  unfold State.groupInMemory at h
  split at h
  · cases h; exact .refl s
  split at h
  · next read => cases h; exact reports_read read
  · cases h

/-- The copy of an entry that an enable takes, with what the group master gives (R301, R344, R346). -/
def tableTaken (e : TableEntry) (i : EpochInfo) : Table :=
  { enabled := true, gen := e.gen, fmt := e.fmt, home := e.home, paritySlot := e.paritySlot, group := e.group,
    dim := e.dim, rows := e.rows, mapPages := e.mapPages, rootCur := e.mapRoot, rootPrev := none,
    rootChange := oldestEpoch i, epoch := i.epoch, live := i.live }

/-- A table and its group are taken. -/
theorem tableOn_spec (s : State) (t : Nat) (e : TableEntry) (g : Group) (i : EpochInfo) :
    let u := s.tableOn t e g i
    u.table t = tableTaken e i ∧ (∀ m, m ≠ t → u.table m = s.table m) ∧ (u.group e.group).slots = i.slots ∧ (u.group e.group).lostSlot = i.lostSlot ∧
    (∀ m, m ≠ e.group → u.group m = s.group m) ∧ u.jobs = s.jobs ∧ u.cranes = s.cranes := by
  unfold State.tableOn
  extract_lets x own claim r s1 u
  have first : s1.tables = s.tables ∧ s1.groups = s.groups ∧ s1.jobs = s.jobs ∧ s1.cranes = s.cranes := by
    dsimp only [s1]; split_ifs <;> exact ⟨rfl, rfl, rfl, rfl⟩
  obtain ⟨tables, groups, jobs, cranes⟩ := first
  have table1 (m : Nat) : s1.table m = s.table m := by rw [State.table, tables]; rfl
  have group1 (m : Nat) : s1.group m = s.group m := by rw [State.group, groups]; rfl
  have stores : Stores ((s1.putTable t x).putGroup e.group r) u := (stores_writeGroup _ e.group r).trans (stores_devWrite _ _ _)
  have table (m : Nat) : u.table m = if m = t then x else s.table m := by
    rw [stores.table m, ← table1 m]; exact State.table_putTable ..
  have group (m : Nat) : u.group m = if m = e.group then r else s.group m := by
    rw [stores.group m, ← group1 m]; exact State.group_putGroup ..
  refine ⟨(table t).trans (if_pos rfl), fun m other => (table m).trans (if_neg other), ?_, ?_, fun m other => (group m).trans (if_neg other),
    stores.jobs.trans jobs, stores.cranes.trans cranes⟩
  · rw [group, if_pos rfl]
  · rw [group, if_pos rfl]

end Sys2Proof.Machine
end

section
/-! The statement about embedding tables. -/

namespace Sys2Proof.Safety

open Sys2Proof.Machine

/-- Settles O35: each command by the table's state, which fixes its answer, and by the record that it writes. -/
theorem tablesEnableAndDisable : Obligations.TablesEnableAndDisable := by
  unfold Obligations.TablesEnableAndDisable
  have run (s : State) (t : Nat) (ans : Option EpochInfo) (up : HostUp s) (free : s.tableFree 1 t = true) :
      exec (.tableEnable t ans) s = .next (s.enableTable t ans) := by
    change execTableEnable t ans s = _
    rw [execTableEnable, hostDo_of_HostUp up, if_pos free]
  refine ⟨?again, ?none, ?enable, ?disable, ?done, ?master⟩
  case again =>
    intro s t ans up free enabled
    rw [run s t ans up free, State.enableTable, if_pos enabled]; rfl
  case none =>
    intro s t ans up free off far
    rw [run s t ans up free, State.enableTable, if_neg (by simp [off]), State.tableInMemory, if_pos far]; rfl
  case enable =>
    intro s s1 s2 t ans bs gb up free off entry e g record good
    have reports : Reports s s2 := (reports_tableInMemory entry).trans (reports_groupInMemory record)
    have me : s2.me = s.me := reports.get (by decide) 0
    have root : s2.rootOk e g = s.rootOk e g := by unfold State.rootOk; rw [me]
    have ask : s2.mustAsk g = s.mustAsk g := by
      have pod : s2.pod = s.pod := by change s2.work.pod = s.work.pod; rw [reports.work]
      unfold State.mustAsk; rw [me, pod]
    have info (x : Option EpochInfo) : s2.epochInfo t e g x = s.epochInfo t e g x := by
      have masters : s2.master t = s.master t := by
        have same : s2.masters = s.masters := by change s2.work.masters = s.work.masters; rw [reports.work]
        rw [State.master, same]; rfl
      unfold State.epochInfo; rw [me, masters]
    have good_iff : (groupOk gb && tableEntryOk bs g.d && tableShapeOk e g.d && s2.rootOk e g &&
        decide (ceilDiv e.rows (max 1 (recordsPerPage e.fmt (e.dim / max 1 g.d))) ≤ e.mapPages)) = true ↔ good := by
      rw [root]; simp [good, and_assoc]
    have enables : s.enableTable t ans = if groupOk gb && tableEntryOk bs g.d && tableShapeOk e g.d && s2.rootOk e g &&
        decide (ceilDiv e.rows (max 1 (recordsPerPage e.fmt (e.dim / max 1 g.d))) ≤ e.mapPages) then
          if s2.mustAsk g && ans.isNone then s2.askEpoch t e g else (s2.tableOn t e g (s2.epochInfo t e g ans)).tableResult 1
        else s2.tableResult 2 := by
      unfold State.enableTable
      rw [if_neg (by simp [off]), entry]; dsimp only
      erw [record]
    refine ⟨?_, ?_, ?_⟩
    · intro bad
      rw [run s t ans up free, enables, if_neg (mt good_iff.1 bad)]; rfl
    · intro fine settled
      have answered : ¬ (s2.mustAsk g && ans.isNone) = true := by
        rw [ask]; rcases settled with no | some
        · simp [no]
        · simp [Option.isSome_iff_ne_none.1 some]
      refine ⟨_, (run s t ans up free).trans (by rw [enables, if_pos (good_iff.2 fine), if_neg answered, info]), ?_⟩
      dsimp only
      generalize s.epochInfo t e g ans = i
      obtain ⟨table, tables, slots, lost, groups, jobs, cranes⟩ := tableOn_spec s2 t e g i
      generalize s2.tableOn t e g i = u at *
      have stored := reports.stores
      have at' : (u.tableResult 1).table t = tableTaken e i := table
      refine ⟨by rw [at']; rfl, by rw [at']; rfl, by rw [at']; rfl, by rw [at']; rfl, by rw [at']; rfl, by rw [at']; rfl, by rw [at']; rfl, by rw [at']; rfl,
        by rw [at']; rfl, by rw [at']; rfl, by rw [at']; rfl, by rw [at']; rfl, by rw [at']; rfl, ?_, slots, lost, ?_, ?_, ?_, ?_, ?_, ?_⟩
      · exact fun m other => (tables m other).trans (stored.table m)
      · exact fun m other => (groups m other).trans (stored.group m)
      · exact (State.get_put_other (by decide) ..).trans ((State.get_put_other (by decide) ..).trans (by simp; decide))
      · exact (State.get_put_other (by decide) ..).trans (by simp; decide)
      · unfold State.tableResult; simp
      · exact jobs.trans stored.jobs
      · exact cranes.trans stored.cranes
    · intro fine must unasked
      subst unasked
      rw [run s t none up free, enables, if_pos (good_iff.2 fine), if_pos (by rw [ask]; simp [must]), State.askEpoch, me]
  case disable =>
    intro s t up free near enabled untouched
    change execTableDisable t s = _
    rw [execTableDisable, hostDo_of_HostUp up, if_pos free, State.disableTable, if_neg (by omega), if_neg (by simp [enabled])]
    have nobody : (s.conss.filter fun c => c.touchesTable t && c.inPrepare) = [] := by
      rw [List.filter_eq_nil_iff]; intro c hc; simp [untouched c hc]
    dsimp only
    split
    · rfl
    · erw [nobody]; rfl
  case done =>
    intro s t disabling unused
    have run : exec (.tableDisableDone t) s = .next ((s.tableOff t).tableResult 1) := by
      change execTableDisableDone t s = _
      rw [execTableDisableDone, if_pos (by simp [disabling, unused])]
    have stores := stores_devWrite (s.putTable t {}) (s.get CRN_TABLE_DIR_BASE 0 + 64 * t + 48) [0]
    have off : (s.tableOff t).tables = (s.putTable t {}).tables ∧ (s.tableOff t).jobs = s.jobs ∧ (s.tableOff t).cranes = s.cranes := by
      unfold State.tableOff; dsimp only
      split <;> exact ⟨stores.tables, stores.jobs, stores.cranes⟩
    obtain ⟨tables, jobs, cranes⟩ := off
    generalize s.tableOff t = u at *
    have table (m : Nat) : (u.tableResult 1).table m = if m = t then {} else s.table m := by
      change u.table m = _
      rw [State.table, tables]; exact State.table_putTable ..
    refine ⟨_, run, (table t).trans (if_pos rfl), fun m other => (table m).trans (if_neg other), ?_, ?_, ?_, jobs, cranes⟩
    · exact (State.get_put_other (by decide) ..).trans ((State.get_put_other (by decide) ..).trans (by simp; decide))
    · exact (State.get_put_other (by decide) ..).trans (by simp; decide)
    · unfold State.tableResult; simp
  case master =>
    intro s t gen g e0 d r live record own m
    have answers : exec (.groupMasterEpochRequest t gen g e0 d) s = .next (s.sendVc0 d (.epochAnswer t (if m.known && m.gen == gen then m.epoch else e0)
        (if m.known && m.gen == gen then m.live else [⟨e0, none⟩]) r.state.code r.lostSlot r.slots)) := by
      change execGroupMasterEpochRequest t gen g e0 d s = _
      rw [execGroupMasterEpochRequest, if_pos (live_of_Live live), State.answerEpoch, record]
      dsimp only
      rw [if_neg (by simp [own])]
    refine ⟨fun known same => ?_, fun strange => ?_⟩
    · rw [answers, if_pos (by simp [known, same]), if_pos (by simp [known, same])]
    · have unknown : ¬ (m.known && m.gen == gen) = true := by rcases strange with h | h <;> simp [h]
      rw [answers, if_neg unknown, if_neg unknown]

end Sys2Proof.Safety
end


section
/-! SUPPORT. Ranges of memory that are zeroed or copied, and the bits of a way (R258, R260, R267). -/

namespace Sys2Proof.Machine

open Sys2Proof.Safety

/-! ### Zeroing and copying a range -/

theorem memDefault_cut_inside (a b x : Nat) (u : List (Nat × Nat × Nat)) (inside : a ≤ x ∧ x < b) : memDefault (cutUndef a b u) x = 0 := by
  unfold memDefault
  have none' : (cutUndef a b u).find? (fun e => decide (e.1 ≤ x) && decide (x < e.2.1)) = none := by
    rw [List.find?_eq_none]
    intro e he
    obtain ⟨o, -, he⟩ := List.mem_flatMap.1 he
    have he := (List.mem_filter.1 he).1
    simp only [List.mem_cons, List.not_mem_nil, or_false] at he
    rcases he with rfl | rfl <;> simp only [Bool.and_eq_true, decide_eq_true_eq] <;> omega
  rw [none']

/-- A zeroed range reads as zeros, every other byte as before. -/
theorem memAt_zero (s : State) (a n x : Nat) : memAt (s.zero a n) x = if a ≤ x ∧ x < a + n then 0 else memAt s x := by
  have found : Tab.find x (Tab.dropRange a (a + n) s.mem) = if a ≤ x ∧ x < a + n then none else Tab.find x s.mem := by
    have filter := Tab.find_filter (fun k => !(decide (a ≤ k) && decide (k < a + n))) s.mem x
    refine filter.trans ?_
    by_cases inside : a ≤ x ∧ x < a + n
    · rw [if_pos inside, if_neg (by simp [inside])]
    · rw [if_neg inside, if_pos (by simp; omega)]
  have mem : (s.zero a n).mem = Tab.dropRange a (a + n) s.mem := rfl
  have undef : (s.zero a n).undef = cutUndef a (a + n) s.undef := rfl
  unfold memAt Tab.get
  rw [mem, undef, found]
  split
  · next inside => exact memDefault_cut_inside _ _ _ _ inside
  · next outside => rw [Laws.memDefault_cutUndef _ _ _ _ outside]

theorem zero_frame (s : State) (a n : Nat) : s.zero a n =
    { s with mem := (s.zero a n).mem, ecc := (s.zero a n).ecc, undef := (s.zero a n).undef, hot := (s.zero a n).hot } := by
  unfold State.zero; dsimp only; rw [dropHot_frame]

theorem Tab.find_append {α : Type} (k : Nat) (t u : Tab α) : Tab.find k (t ++ u) = (Tab.find k t).or (Tab.find k u) := by
  induction t with
  | nil => rfl
  | cons e t ih =>
    obtain ⟨j, v⟩ := e
    by_cases here : j = k
    · simp [Tab.find, here]
    · simp [Tab.find, here, ih]

/-- The keys of a slice are those of its range, moved. -/
theorem Tab.find_slice {α : Type} (lo hi dst k : Nat) (t : Tab α) :
    Tab.find k (Tab.slice lo hi dst t) = if dst ≤ k ∧ lo + (k - dst) < hi then Tab.find (lo + (k - dst)) t else none := by
  unfold Tab.slice
  induction t with
  | nil => simp [Tab.find]
  | cons e t ih =>
    obtain ⟨j, v⟩ := e
    by_cases kept : lo ≤ j ∧ j < hi
    · rw [List.filter_cons_of_pos (by simpa using kept), List.map_cons]
      change (if j - lo + dst = k then some v else Tab.find k _) = _
      by_cases here : j - lo + dst = k
      · have back : lo + (k - dst) = j := by omega
        rw [if_pos here, if_pos (by omega), back]; simp [Tab.find]
      · rw [if_neg here, ih]
        split
        · have other : j ≠ lo + (k - dst) := by omega
          simp [Tab.find, other]
        · rfl
    · rw [List.filter_cons_of_neg (by simpa using kept), ih]
      split
      · have other : j ≠ lo + (k - dst) := by omega
        simp [Tab.find, other]
      · rfl

theorem Tab.find_move {α : Type} (src dst n k : Nat) (t : Tab α) :
    Tab.find k (Tab.move src dst n t) = if dst ≤ k ∧ k < dst + n then Tab.find (src + (k - dst)) t else Tab.find k t := by
  unfold Tab.move
  have below := Tab.find_filter (fun j => decide (j < dst)) t k
  have above := Tab.find_filter (fun j => decide (dst + n ≤ j)) t k
  rw [Tab.find_append, Tab.find_append, below, above, Tab.find_slice]
  by_cases low : k < dst
  · rw [if_pos (by simpa using low), if_neg (by omega), if_neg (by simp; omega), if_neg (by omega)]; simp
  · rw [if_neg (by simpa using low)]
    by_cases high : dst + n ≤ k
    · rw [if_neg (by omega), if_pos (by simpa using high), if_neg (by omega)]; simp
    · rw [if_pos (by omega), if_neg (by simpa using high), if_pos (by omega)]; simp

/-- A copied range reads as its source did, every other byte as before. -/
theorem memAt_copyMem {s : State} (unveiled : s.veiled = []) (src dst n x : Nat) :
    memAt (s.copyMem src dst n) x = if dst ≤ x ∧ x < dst + n then memAt s (src + (x - dst)) else memAt s x := by
  unfold State.copyMem
  rw [dropHot_frame]
  extract_lets t u
  have veiled : u.veiled = [] := unveiled
  split
  · have same : ∀ y, memAt u y = memAt s y := fun y => rfl
    unfold State.poke
    rw [memAt_pokeBytes veiled, bytes_unveiled unveiled]
    by_cases inside : dst ≤ x ∧ x < dst + n
    · rw [if_pos (by simpa using inside), if_pos inside]
      simp [View.apply, List.getD, show x - dst < n by omega]
    · rw [if_neg (by simpa using inside), if_neg inside, same]
  · next plain =>
    have clear : s.special src n = false ∧ s.special dst n = false := by simpa using plain
    unfold State.special at clear
    rw [Bool.or_eq_false_iff, Bool.or_eq_false_iff] at clear
    obtain ⟨⟨from', -⟩, to', -⟩ := clear
    change Tab.get (memDefault s.undef) (Tab.move src dst n s.mem) x = _
    unfold memAt Tab.get
    rw [Tab.find_move]
    split
    · next inside =>
      have source : memDefault s.undef (src + (x - dst)) = 0 := Laws.memDefault_zero _ src n _ from' (by omega)
      rw [source, Laws.memDefault_zero _ _ _ _ to' inside]
    · rfl

theorem copyMem_frame (s : State) (a b n : Nat) : s.copyMem a b n =
    { s with mem := (s.copyMem a b n).mem, ecc := (s.copyMem a b n).ecc, hot := (s.copyMem a b n).hot } := by
  unfold State.copyMem
  rw [dropHot_frame]
  extract_lets t u
  split
  · unfold State.poke; rw [pokeBytes_eq]
  · rfl

/-! ### The bits of a way -/

section
variable {s : State} {d w : Nat}

theorem bitAt_putBitAt_self {f : Fld} {i b : Nat} (fits : b < f.width) (v : Bool) : (s.putBitAt f i b v).bitAt f i b = v := by
  unfold State.putBitAt State.bitAt
  rw [State.get_put_self, bit_eq_testBit, Nat.testBit_mod_two_pow, ← bit_eq_testBit, bit_putBit]
  simp [fits]

theorem bitAt_putBitAt_other {f g : Fld} (other : g.ord % 512 ≠ f.ord % 512) (i b j c : Nat) (v : Bool) :
    (s.putBitAt f i b v).bitAt g j c = s.bitAt g j c := by
  unfold State.bitAt State.putBitAt
  rw [State.get_put_other other]

/-- A field that is none of those of a way's bits keeps its value. -/
theorem get_putBitAt_other {f g : Fld} (other : g.ord % 512 ≠ f.ord % 512) (i b j : Nat) (v : Bool) : (s.putBitAt f i b v).get g j = s.get g j :=
  State.get_put_other other ..

theorem wayStopping_putWayStop (fits : w < 16) (b : Bool) : (s.putWayStop d w b).wayStopping d w = b := by
  unfold State.putWayStop State.wayStopping
  split <;> exact bitAt_putBitAt_self fits b

theorem wayStopping_putWayStopped (b : Bool) (d' w' : Nat) : (s.putWayStopped d w b).wayStopping d' w' = s.wayStopping d' w' := by
  unfold State.putWayStopped State.wayStopping
  split <;> split <;> exact bitAt_putBitAt_other (by decide) ..

theorem wayStopping_putWayBlocked (b : Bool) (d' w' : Nat) : (s.putWayBlocked d w b).wayStopping d' w' = s.wayStopping d' w' := by
  unfold State.putWayBlocked State.wayStopping
  split <;> split <;> exact bitAt_putBitAt_other (by decide) ..

theorem wayStopped_putWayStopped (fits : w < 16) (b : Bool) : (s.putWayStopped d w b).wayStopped d w = b := by
  unfold State.putWayStopped State.wayStopped
  split <;> exact bitAt_putBitAt_self fits b

theorem wayStopped_putWayBlocked (b : Bool) (d' w' : Nat) : (s.putWayBlocked d w b).wayStopped d' w' = s.wayStopped d' w' := by
  unfold State.putWayBlocked State.wayStopped
  split <;> split <;> exact bitAt_putBitAt_other (by decide) ..

theorem wayUse_putWayStop (b : Bool) (d' w' : Nat) : (s.putWayStop d w b).wayUse d' w' = s.wayUse d' w' := by
  unfold State.putWayStop State.wayUse
  split <;> exact get_putBitAt_other (by decide) ..

theorem wayUse_putWayStopped (b : Bool) (d' w' : Nat) : (s.putWayStopped d w b).wayUse d' w' = s.wayUse d' w' := by
  unfold State.putWayStopped State.wayUse
  split <;> exact get_putBitAt_other (by decide) ..

/-- The stop bits are register fields. -/
theorem putWayStop_frame (b : Bool) : s.putWayStop d w b = { s with flds := (s.putWayStop d w b).flds } := by
  unfold State.putWayStop; split <;> rfl
theorem putWayStopped_frame (b : Bool) : s.putWayStopped d w b = { s with flds := (s.putWayStopped d w b).flds } := by
  unfold State.putWayStopped; split <;> rfl
theorem putWayBlocked_frame (b : Bool) : s.putWayBlocked d w b = { s with flds := (s.putWayBlocked d w b).flds } := by
  unfold State.putWayBlocked; split <;> rfl

/-- A way from which no idle model can be evicted stays as it is. -/
theorem evictWay_none (idle : ∀ m, s.idleIn d w m = false) : s.evictWay d w = s := by
  have nobody : ((s.models.map (·.1)).filter fun m => s.idleIn d w m) = [] := by
    rw [List.filter_eq_nil_iff]; intro m _; simp [idle m]
  unfold State.evictWay
  rw [nobody]; rfl

theorem idleIn_putWayStop (b : Bool) (m : Nat) : (s.putWayStop d w b).idleIn d w m = s.idleIn d w m := by
  rw [putWayStop_frame]; rfl

/-- A way's return to service (R260), where no model can be evicted from it. -/
theorem wayReturns_spec (fits : w < 16) (idle : s.wayUse d w = 1 → ∀ m, s.idleIn d w m = false) :
    let t := s.wayReturns d w
    let k := 16 * d + w
    t.wayStopping d w = s.wayStopping d w ∧ t.wayStopped d w = false ∧ (k ∉ s.dock.changedWays → t.mem = s.mem ∧ t.undef = s.undef) ∧
    KeepsMemBut s t (wayAddr d w 0) wayBytes ∧ (k ∈ s.dock.changedWays → ∀ i, i < wayBytes → memAt t (wayAddr d w i) = 0) ∧
    (s.wayUse d w = 2 → t.hot = s.hot.filter fun e => !(e.1 / 16 / 229376 == d && e.1 % 16 == w)) ∧ (s.wayUse d w ≠ 2 → t.hot = s.hot) ∧
    t = { s with flds := t.flds, mem := t.mem, ecc := t.ecc, undef := t.undef, dock := t.dock, hot := t.hot } := by
  unfold State.wayReturns
  extract_lets k s1 dock s2 s3 t
  have cleared : s1 = { s with mem := s1.mem, ecc := s1.ecc, undef := s1.undef } := by
    dsimp only [s1]
    split
    · have hot : (s.zero (wayAddr d w 0) wayBytes).hot = s.hot := by
        have warehouse : 0x10000000000 ≤ wayAddr d w 0 := by unfold wayAddr whsBase; omega
        change (s.dropHot _ _).hot = _
        rw [dropHot_of_ge warehouse]
      rw [zero_frame, hot]
    · rfl
  have emptied : s3 = { s2 with hot := if s.wayUse d w = 2 then s.hot.filter fun e => !(e.1 / 16 / 229376 == d && e.1 % 16 == w) else s.hot } := by
    have use : s2.wayUse d w = s.wayUse d w := by dsimp only [s2]; rw [cleared]; rfl
    have hot : s2.hot = s.hot := by dsimp only [s2]; rw [cleared]
    dsimp only [s3]
    rw [use]
    by_cases two : s.wayUse d w = 2
    · rw [if_pos (by simp [two]), if_pos two, State.emptyHotWay, hot]
    · rw [if_neg (by simp [two]), if_neg two, ← hot]
      split
      · next one =>
        have idle' : ∀ m, s2.idleIn d w m = false := by
          intro m
          rw [← idle (by simpa using one) m]; dsimp only [s2]; rw [cleared]; rfl
        exact evictWay_none idle'
      · rfl
  have frame : t = { s3 with flds := t.flds } := by
    dsimp only [t]; rw [putWayBlocked_frame, putWayStopped_frame]
  have mem : t.mem = s1.mem := by rw [frame, emptied]
  have undef : t.undef = s1.undef := by rw [frame, emptied]
  have hot : t.hot = if s.wayUse d w = 2 then s.hot.filter fun e => !(e.1 / 16 / 229376 == d && e.1 % 16 == w) else s.hot := by rw [frame, emptied]
  have stopping : s3.wayStopping d w = s.wayStopping d w := by rw [emptied]; dsimp only [s2]; rw [cleared]; rfl
  refine ⟨?_, ?_, ?_, ?_, ?_, fun two => by rw [hot, if_pos two], fun other => by rw [hot, if_neg other], ?_⟩
  · exact (wayStopping_putWayBlocked ..).trans ((wayStopping_putWayStopped ..).trans stopping)
  · exact (wayStopped_putWayBlocked ..).trans (wayStopped_putWayStopped fits _)
  · intro same
    have kept : s1 = s := by dsimp only [s1]; rw [if_neg (by simpa [k] using same)]
    exact ⟨mem.trans (by rw [kept]), undef.trans (by rw [kept])⟩
  · intro b outside
    rw [memAt_congr mem undef]
    dsimp only [s1]
    split
    · rw [memAt_zero, if_neg outside]
    · rfl
  · intro changed i hi
    have zeroed : s1 = s.zero (wayAddr d w 0) wayBytes := by dsimp only [s1]; rw [if_pos (by simpa [k] using changed)]
    rw [memAt_congr mem undef, zeroed, memAt_zero, if_pos (by unfold wayAddr; omega)]
  · rw [frame, emptied]; dsimp only [s2]; rw [cleared]

end
end Sys2Proof.Machine
end

section
/-! The statement about ways. -/

namespace Sys2Proof.Safety

open Sys2Proof.Machine

/-- Settles O37: a block's copy is the range copy (`memAt_copyMem`), a restart the way's return to service (`wayReturns_spec`). -/
theorem waysStopMoveAndRestart : Obligations.WaysStopMoveAndRestart := by
  unfold Obligations.WaysStopMoveAndRestart
  refine ⟨?stop, ?stopped, ?move, ?restart⟩
  case stop =>
    intro s d w up hd hw going
    have run : exec (.wayStop d w) s = .next (if (s.stopWay d w).wayUse d w == 1 then (s.stopWay d w).evictWay d w else s.stopWay d w) := by
      change execWayStop d w s = _
      rw [execWayStop, if_pos (by simp [hd, hw]), hostDo_of_HostUp up, State.wayStop, if_neg (by simp [going])]
    have stops : s.stopWay d w = if s.wayUse d w = 0 then (s.putWayStop d w true).putWayStopped d w true else s.putWayStop d w true := by
      unfold State.stopWay; dsimp only
      rw [wayUse_putWayStop]; simp
    refine ⟨?_, ?_, ?_⟩
    · intro scratch
      rw [if_pos scratch] at stops
      have use : (s.stopWay d w).wayUse d w = 0 := by
        rw [stops, wayUse_putWayStopped, wayUse_putWayStop, scratch]
      rw [run, use, if_neg (by decide), stops]
    · intro hot
      rw [if_neg (by omega)] at stops
      rw [run, stops, wayUse_putWayStop, hot, if_neg (by decide)]
    · intro cache idle
      rw [if_neg (by omega)] at stops
      rw [run, stops, wayUse_putWayStop, cache, if_pos (by decide), evictWay_none fun m => (idleIn_putWayStop true m).trans (idle m)]
  case stopped =>
    intro s d w hd hw stopping going
    have run : exec (.wayStopped d w) s = .next (s.wayStopDone d w) := by
      change execWayStopped d w s = _
      rw [execWayStopped, if_pos (by simp [hd, hw, stopping, going])]
    refine ⟨?_, ?_, ?_⟩
    · intro hot
      have done : s.wayStopDone d w = (s.emptyHotWay d w).putWayStopped d w true := by
        unfold State.wayStopDone; rw [if_pos (by simp [hot])]
      refine ⟨_, run.trans (by rw [done]), wayStopped_putWayStopped hw _, ?_, ?_⟩
      · intro e
        rw [putWayStopped_frame]
        simp only [State.emptyHotWay, List.mem_filter, Bool.not_eq_true', Bool.and_eq_false_iff, beq_eq_false_iff_ne, ← not_and_or, ne_eq]
      · rw [putWayStopped_frame]; rfl
    · intro cache idle empty
      rw [run, State.wayStopDone, if_neg (by simp [cache]), evictWay_none idle]
      simp [empty]
    · intro cache idle full
      rw [run, State.wayStopDone, if_neg (by simp [cache]), evictWay_none idle]
      simp [full]
  case move =>
    intro s d w n cls l hd hw stopping going cache idle leaving
    have run : exec (.modelBlockMove d w) s = .next (s.moveBlock d w) := by
      change execModelBlockMove d w s = _
      rw [execModelBlockMove, if_pos (by simp [hd, hw, stopping, going, cache]), evictWay_none idle]
    refine ⟨?_, ?_⟩
    · intro full
      rw [run, State.moveBlock, leaving]; dsimp only; rw [full]
    · intro k r free unveiled
      have moves : s.moveBlock d w = ((s.copyMem (cacheAddr n) (cacheAddr k) 65536).remap n k).putWayBlocked d w false := by
        unfold State.moveBlock; rw [leaving]; dsimp only; rw [free]
      have read (x : Nat) : memAt (s.moveBlock d w) x = memAt (s.copyMem (cacheAddr n) (cacheAddr k) 65536) x := by
        refine memAt_congr ?_ ?_ x <;> rw [moves, putWayBlocked_frame] <;> rfl
      refine ⟨_, run, ?_, ?_, ?_, ?_, ?_⟩
      · intro i hi
        rw [read, memAt_copyMem unveiled, if_pos (by omega), Nat.add_sub_cancel_left]
      · intro b outside
        rw [read, memAt_copyMem unveiled, if_neg outside]
      · rw [moves, putWayBlocked_frame, copyMem_frame]; rfl
      · rw [moves, putWayBlocked_frame, copyMem_frame]; rfl
      · rw [moves, putWayBlocked_frame, copyMem_frame]; rfl
  case restart =>
    intro s d w up hd hw free stopping
    have run : exec (.wayRestart d w) s = .next (if (s.putWayStop d w false).wayTested d w then s.putWayStop d w false
        else (s.putWayStop d w false).wayReturns d w) := by
      change execWayRestart d w s = _
      rw [execWayRestart, if_pos (by simp [hd, hw]), hostDo_of_HostUp up, State.wayRestart, if_neg (by simp [free, stopping])]
    have tested : (s.putWayStop d w false).wayTested d w = s.wayTested d w := by rw [putWayStop_frame]; rfl
    rw [tested] at run
    refine ⟨fun test => by rw [run, if_pos test], ?_⟩
    intro untested idle
    rw [if_neg (by simp [untested])] at run
    have spec := wayReturns_spec (s := s.putWayStop d w false) (d := d) hw
      (fun use m => (idleIn_putWayStop false m).trans (idle ((wayUse_putWayStop ..).symm.trans use) m))
    rw [wayStopping_putWayStop hw, wayUse_putWayStop] at spec
    generalize (s.putWayStop d w false).wayReturns d w = t at *
    rw [putWayStop_frame] at spec
    obtain ⟨clear, runs, unchanged, others, zeros, hot2, hot', frame⟩ := spec
    refine ⟨t, run, clear, runs, fun same => (unchanged same).1, others, zeros, ?_, hot', frame⟩
    intro two e he
    rw [hot2 two] at he
    have out := (List.mem_filter.1 he).2
    simp only [Bool.not_eq_true', Bool.and_eq_false_iff, beq_eq_false_iff_ne, ← not_and_or, ne_eq] at out
    exact out

end Sys2Proof.Safety
end


section
/-! SUPPORT. Alarms: an error of any severity changes registers, records, the salvor's lists, the jobs and what fences units (R525 to R533), and
none of the device's other work. -/

namespace Sys2Proof.Machine

open Sys2Proof.Safety

/-- A state with what an error can change taken away. -/
def State.calm (s : State) : State :=
  { s with
    flds := [], host := [], msixPend := [], evt := {}, salvor := {}, dock := { s.dock with elog := [], stopped := [], heldWays := [] }, out := [],
    rings := [], jobs := [], halted := false, pilot := { s.pilot with sev3 := false }, cranes := [], fencedStevs := [], quays := [] }

theorem calm_foldl {α : Type} {f : State → α → State} (hf : ∀ t x, (f t x).calm = t.calm) (l : List α) (s : State) : (l.foldl f s).calm = s.calm := by
  induction l generalizing s with
  | nil => rfl
  | cons x l ih => exact (ih _).trans (hf s x)

/-! ### Records -/

theorem calm_send (s : State) (m : Msg) : (s.send m).calm = s.calm := by rw [send_frame]; rfl

theorem calm_hostWrite (s : State) (b : Nat) (l : List Byte) : (s.hostWrite b l).calm = s.calm := by rw [hostWrite_frame]; rfl

theorem calm_traceJob (s : State) (kind : Nat) (job : Option Job) (unit : Nat) : (s.traceJob kind job unit).calm = s.calm := by
  rw [traceJob_frame]; rfl

theorem calm_irq (s : State) (port vector : Nat) : (s.irq port vector).calm = s.calm := by
  unfold State.irq; split
  · rfl
  · exact calm_send s _

theorem calm_ringIrq (s : State) (n : Nat) : (s.ringIrq n).calm = s.calm := by
  unfold State.ringIrq; dsimp only
  split
  · rfl
  split
  · exact calm_irq s _ _
  · rfl

theorem calm_putRing (s : State) (n : Nat) (r : Ring) : (s.putRing n r).calm = s.calm := rfl

theorem calm_putRecord (s : State) (n : Nat) (bs : List Byte) (noIrq : Bool) : (s.putRecord n bs noIrq).calm = s.calm := by
  have wrote (a : Nat) (l : List Byte) (r : Ring) : ((s.hostWrite a l).putRing n r).calm = s.calm := calm_hostWrite s a l
  unfold State.putRecord; dsimp only
  split
  · exact wrote _ _ _
  split
  · exact (calm_ringIrq _ n).trans (wrote _ _ _)
  · exact wrote _ _ _

theorem calm_jobRecord (s : State) (j : Job) (status resource : Nat) (win : Option (Nat × Nat)) : (s.jobRecord j status resource win).calm = s.calm := by
  unfold State.jobRecord State.postRecord; dsimp only
  split
  · exact calm_putRecord s _ _ _
  · rfl

theorem calm_postEvent (s : State) (bs : List Byte) : (s.postEvent bs).calm = s.calm := by
  unfold State.postEvent; split
  · exact (calm_irq _ _ _).trans (calm_hostWrite s _ _)
  · split <;> rfl

theorem calm_logError (s : State) (e : Err) : (s.logError e).calm = s.calm := by
  have pushed : (s.elogPush (s.errorBytes e)).calm = s.calm := by
    unfold State.elogPush; dsimp only; split <;> rfl
  exact ((calm_traceJob _ _ _ _).trans (calm_postEvent _ _)).trans pushed

/-! ### Fences and the salvor -/

theorem calm_fenceStack (s : State) (stack cause : Nat) : (s.fenceStack stack cause).calm = s.calm := by
  unfold State.fenceStack; dsimp only
  refine (calm_foldl ?_ _ _).trans rfl
  exact fun t n => rfl

theorem calm_fenceUnit (s : State) (kind source unit addr : Nat) : (s.fenceUnit kind source unit addr).calm = s.calm := by
  have stops (d w : Nat) : (s.stopWay d w).calm = s.calm := by
    unfold State.stopWay; dsimp only
    split
    · rw [putWayStopped_frame, putWayStop_frame]; rfl
    · rw [putWayStop_frame]; rfl
  have holds (t : State) (l : List Nat) : ({ t with dock := { t.dock with heldWays := l } } : State).calm = t.calm := rfl
  unfold State.fenceUnit; dsimp only
  split
  · split <;> rfl
  split
  · rfl
  split
  · rfl
  split
  · exact (holds _ _).trans (stops _ _)
  split
  · exact calm_fenceStack s _ _
  split
  · exact calm_fenceStack s _ _
  split
  · rfl
  split <;> rfl

theorem calm_deviceStop (s : State) (e : Err) : (s.deviceStop e).calm = s.calm := by
  unfold State.deviceStop; dsimp only
  split
  · rfl
  · rw [calm_send, ← calm_logError s e]
    generalize s.logError e = u
    generalize recorded : List.foldl _ u u.jobs = t
    have same : t.calm = u.calm := by
      rw [← recorded]
      refine calm_foldl (fun t j => ?_) _ _
      split
      · exact calm_jobRecord t j _ _ _
      · rfl
    exact same

theorem calm_ringFull (s : State) (e : Err) : (s.ringFull e).calm = s.calm := by
  unfold State.ringFull; dsimp only
  split
  · exact calm_logError s e
  · exact calm_fenceUnit s _ _ _ _

theorem calm_queueError (s : State) (e : Err) : (s.queueError e).calm = s.calm := by
  unfold State.queueError State.takeInHand
  split
  · split_ifs
    · rfl
    · exact calm_ringFull s e
    · rfl
  · split_ifs
    · exact calm_ringFull s e
    · rfl
    · rfl

theorem calm_detectOne (s : State) (e : Err) : (s.detectOne e).calm = s.calm := by
  unfold State.detectOne
  extract_lets first fenced rep counted promoted
  split
  · rfl
  split
  · exact calm_deviceStop _ _
  split
  · rfl
  · exact calm_queueError _ _

theorem calm_detect (s : State) (e : Err) : (s.detect e).calm = s.calm := by
  have failed (t : State) (stack cause : Nat) : (t.failStack stack cause).calm = t.calm := by
    unfold State.failStack; dsimp only
    split
    · rfl
    split
    · exact calm_detectOne t _
    · exact (calm_fenceStack _ _ _).trans (calm_detectOne t _)
  unfold State.detect; dsimp only
  split
  · refine Eq.trans ?_ (calm_detectOne s e)
    unfold State.countStack; dsimp only
    split
    · exact failed _ _ _
    · rfl
  · exact calm_detectOne s e

theorem calm_wordError (s : State) (a : Nat) (job : Option Nat) : (s.wordError a job).calm = s.calm := by
  unfold State.wordError; split
  · exact calm_detect _ _
  · exact calm_detect s _

end Sys2Proof.Machine
end


section
/-! SUPPORT. March tests (R275 to R282): ways that return after a destructive test, and the rows of a preserving one. -/

namespace Sys2Proof.Machine

open Sys2Proof.Safety

/-! ### Ways that return -/

/-- The register fields that an eviction leaves alone. -/
def Fld.quietInReturn (f : Fld) : Prop :=
  f.ord % 512 ≠ STV_TAGS_IN_USE.ord % 512 ∧ ∀ g ∈ reportFlds, f.ord % 512 ≠ g.ord % 512

/-- The march tests under way and the fields that an eviction leaves alone are the same. -/
structure MarchKeeps (s t : State) : Prop where
  tests : t.dock.destruct = s.dock.destruct
  gets : ∀ f : Fld, f.quietInReturn → ∀ i, t.get f i = s.get f i

theorem MarchKeeps.refl (s : State) : MarchKeeps s s := ⟨rfl, fun _ _ _ => rfl⟩

theorem MarchKeeps.trans {s t u : State} (first : MarchKeeps s t) (second : MarchKeeps t u) : MarchKeeps s u :=
  ⟨second.tests.trans first.tests, fun f quiet i => (second.gets f quiet i).trans (first.gets f quiet i)⟩

theorem MarchKeeps.foldl {α : Type} {f : State → α → State} (hf : ∀ t x, MarchKeeps t (f t x)) (l : List α) (s : State) : MarchKeeps s (l.foldl f s) := by
  induction l generalizing s with
  | nil => exact .refl s
  | cons x l ih => exact (hf s x).trans (ih _)

theorem stores_setModel (s : State) (m : Nat) (x : Model) : Stores (s.putModel m x) (s.setModel m x) :=
  ((stores_devWrite _ _ _).trans (stores_devWrite _ _ _)).trans (stores_devWrite _ _ _)

theorem marchKeeps_endLoad (s : State) (m : Nat) : MarchKeeps s (s.endLoad m) := by
  unfold State.endLoad
  split
  · next n _ =>
    refine ⟨by rw [freeStream_frame], fun f quiet i => keepsFieldsBut_freeStream s n f i ?_⟩
    simpa using Fld.key_ne quiet.1 i _
  · exact .refl s

theorem marchKeeps_setModel (s : State) (m : Nat) (x : Model) : MarchKeeps s (s.setModel m x) := by
  have stores := stores_setModel s m x
  refine ⟨?_, fun f quiet i => stores.get quiet.2 i⟩
  change (s.setModel m x).duty.dock.destruct = (s.putModel m x).duty.dock.destruct
  exact congrArg (fun u : State => u.dock.destruct) stores.duty

/-- An eviction leaves the march engines' fields and tests alone. -/
theorem marchKeeps_evictWay (s : State) (d w : Nat) : MarchKeeps s (s.evictWay d w) :=
  .foldl (fun t m => (marchKeeps_endLoad t m).trans (marchKeeps_setModel _ m _)) _ s

theorem get_putWayStopped {s : State} {d w : Nat} {f : Fld} (port : f.ord % 512 ≠ WHS_WAY_STATUS_STOPPED_PORT.ord % 512)
    (stbd : f.ord % 512 ≠ WHS_WAY_STATUS_STOPPED_STBD.ord % 512) (b : Bool) (i : Nat) : (s.putWayStopped d w b).get f i = s.get f i := by
  unfold State.putWayStopped; split
  · exact get_putBitAt_other port ..
  · exact get_putBitAt_other stbd ..

theorem get_putWayBlocked {s : State} {d w : Nat} {f : Fld} (port : f.ord % 512 ≠ WHS_WAY_STATUS_BLOCKED_PORT.ord % 512)
    (stbd : f.ord % 512 ≠ WHS_WAY_STATUS_BLOCKED_STBD.ord % 512) (b : Bool) (i : Nat) : (s.putWayBlocked d w b).get f i = s.get f i := by
  unfold State.putWayBlocked; split
  · exact get_putBitAt_other port ..
  · exact get_putBitAt_other stbd ..

theorem bit_mod_two_pow (v k n : Nat) : bit (v % 2 ^ k) n = (decide (n < k) && bit v n) := by
  rw [bit_eq_testBit, bit_eq_testBit, Nat.testBit_mod_two_pow]

/-- A way's stopped bit that is cleared, or was clear, is clear. -/
theorem wayStopped_clear {s : State} {d w v : Nat} (clear : v = w ∨ s.wayStopped d v = false) : (s.putWayStopped d w false).wayStopped d v = false := by
  have put (f : Fld) (was : v = w ∨ s.bitAt f 0 v = false) : (s.putBitAt f 0 w false).bitAt f 0 v = false := by
    unfold State.putBitAt State.bitAt
    rw [State.get_put_self, bit_mod_two_pow, bit_putBit]
    rcases was with here | was
    · simp [here]
    · simp [show bit (s.get f 0) v = false from was]
  unfold State.putWayStopped State.wayStopped at *
  by_cases port : (d == 0) = true
  · rw [if_pos port] at clear; rw [if_pos port, if_pos port]; exact put _ clear
  · rw [if_neg port] at clear; rw [if_neg port, if_neg port]; exact put _ clear

/-- A way that returns is not stopped, and the march engines' fields and tests stay as they are. -/
theorem wayReturns_march (s : State) (d w : Nat) : (s.wayReturns d w).dock.destruct = s.dock.destruct ∧
    (∀ i, (s.wayReturns d w).get DDK_MARCH_STATUS_DESTRUCT_BUSY i = s.get DDK_MARCH_STATUS_DESTRUCT_BUSY i) ∧
    (∀ i, (s.wayReturns d w).get DDK_MARCH_STATUS_FAIL i = s.get DDK_MARCH_STATUS_FAIL i) ∧
    ∀ v, v = w ∨ s.wayStopped d v = false → (s.wayReturns d w).wayStopped d v = false := by
  unfold State.wayReturns
  extract_lets k s1 dock s2 s3
  have zeroed : MarchKeeps s s1 := by
    dsimp only [s1]; split
    · rw [zero_frame]; exact ⟨rfl, fun _ _ _ => rfl⟩
    · exact .refl s
  have noted : MarchKeeps s s2 := zeroed.trans ⟨rfl, fun _ _ _ => rfl⟩
  have left : MarchKeeps s s3 := by
    refine noted.trans ?_
    dsimp only [s3]; split
    · exact ⟨rfl, fun _ _ _ => rfl⟩
    split
    · exact marchKeeps_evictWay s2 d w
    · exact .refl s2
  refine ⟨?_, fun i => ?_, fun i => ?_, fun v clear => ?_⟩
  · rw [putWayBlocked_frame, putWayStopped_frame]; exact left.tests
  · exact (get_putWayBlocked (by decide) (by decide) ..).trans ((get_putWayStopped (by decide) (by decide) ..).trans
      (left.gets _ ⟨by decide, by decide⟩ i))
  · exact (get_putWayBlocked (by decide) (by decide) ..).trans ((get_putWayStopped (by decide) (by decide) ..).trans
      (left.gets _ ⟨by decide, by decide⟩ i))
  · refine (wayStopped_putWayBlocked ..).trans (wayStopped_clear (clear.imp_right fun was => ?_))
    rw [← was]
    unfold State.wayStopped State.bitAt
    rw [left.gets _ ⟨by decide, by decide⟩, left.gets _ ⟨by decide, by decide⟩]

/-- Ways that return one after the other. -/
theorem waysReturn_march (d : Nat) (ws : List Nat) (s : State) : let t := ws.foldl (fun t w => t.wayReturns d w) s
    t.dock.destruct = s.dock.destruct ∧ (∀ i, t.get DDK_MARCH_STATUS_DESTRUCT_BUSY i = s.get DDK_MARCH_STATUS_DESTRUCT_BUSY i) ∧
    (∀ i, t.get DDK_MARCH_STATUS_FAIL i = s.get DDK_MARCH_STATUS_FAIL i) ∧
    ∀ v, v ∈ ws ∨ s.wayStopped d v = false → t.wayStopped d v = false := by
  induction ws generalizing s with
  | nil => exact ⟨rfl, fun _ => rfl, fun _ => rfl, fun v clear => by simpa using clear⟩
  | cons w ws ih =>
    obtain ⟨tests, busy, fail, clear⟩ := wayReturns_march s d w
    obtain ⟨tests', busy', fail', clear'⟩ := ih (s.wayReturns d w)
    refine ⟨tests'.trans tests, fun i => (busy' i).trans (busy i), fun i => (fail' i).trans (fail i), fun v was => clear' v ?_⟩
    rcases was with listed | was
    · rcases List.mem_cons.1 listed with here | later
      · exact .inr (clear v (.inl here))
      · exact .inl later
    · exact .inr (clear v (.inr was))

/-- Ranges zeroed one after the other. -/
theorem memAt_zeros (f : Nat → Nat) (n : Nat) (ws : List Nat) (s : State) (x : Nat) :
    memAt (ws.foldl (fun t w => t.zero (f w) n) s) x = if ∃ w ∈ ws, f w ≤ x ∧ x < f w + n then 0 else memAt s x := by
  induction ws generalizing s with
  | nil => simp
  | cons w ws ih =>
    rw [List.foldl_cons, ih, memAt_zero]
    by_cases here : f w ≤ x ∧ x < f w + n
    · simp [here]
    · simp [here]

theorem zeros_frame (f : Nat → Nat) (n : Nat) (ws : List Nat) (s : State) : ws.foldl (fun t w => t.zero (f w) n) s =
    { s with
      mem := (ws.foldl (fun t w => t.zero (f w) n) s).mem, ecc := (ws.foldl (fun t w => t.zero (f w) n) s).ecc,
      undef := (ws.foldl (fun t w => t.zero (f w) n) s).undef, hot := (ws.foldl (fun t w => t.zero (f w) n) s).hot } := by
  induction ws generalizing s with
  | nil => rfl
  | cons w ws ih => rw [List.foldl_cons, ih, zero_frame]

/-! ### Rows -/

section
variable {s : State} {e a : Nat}

theorem countRow_frame (s : State) (e : Nat) : s.countRow e = { s with counts := (s.countRow e).counts } := rfl

/-- A word of a row, by the accesses of the row. -/
theorem unmarked_access (clean : ∀ w ∈ rowWords a, Tab.find w s.ecc = none) {p : Nat} (hp : p ∈ rowAccesses a) :
    ∀ w ∈ wordsOf p 256, Tab.find w s.ecc = none := fun w hw => clean w (List.mem_flatMap.2 ⟨p, hp, hw⟩)

/-- A row with no word in error meets none, and none is corrected. -/
theorem row_clean (clean : ∀ w ∈ rowWords a, Tab.find w s.ecc = none) :
    (rowAccesses a).findSome? (fun p => s.firstBad p 256) = none ∧ (rowAccesses a).foldl (fun t p => t.correct p 256) s = s := by
  have access : ∀ p ∈ rowAccesses a, ∀ w ∈ wordsOf p 256, Tab.find w s.ecc = none := fun p hp => unmarked_access clean hp
  generalize rowAccesses a = l at access
  refine ⟨List.findSome?_eq_none_iff.2 fun p hp => ?_, ?_⟩
  · have none' : (wordsOf p 256).find? (fun w => s.badWord w) = none :=
      List.find?_eq_none.2 fun w hw => by simp [badWord_of_unmarked (access p hp w hw)]
    unfold State.firstBad; rw [none']; rfl
  · induction l with
    | nil => rfl
    | cons p l ih =>
      rw [List.foldl_cons, State.correct, correctWords_unmarked (access p (by simp))]
      exact ih fun q hq => access q (by simp [hq])

theorem loseWords_nil (s : State) (a : Nat) : s.loseWords a [] = s := rfl

theorem exec_preservingPass (visits : s.visits e a = true) (fault : Bool) (c : Nat) :
    exec (.preservingPass e a fault c []) s = .next ((s.countRow e).pass e a (if fault then some c else none) []) := by
  change execPreservingPass e a fault c [] s = _
  rw [execPreservingPass, if_pos visits]

/-- A row noted as passed, and the count of passes (R278). -/
def State.rowPassed (s : State) (e a : Nat) : State :=
  { s with dock := { s.dock with retry := s.dock.retry.filter fun r => r != (e, rowStart a) } }.inc DDK_MARCH_STATUS_PASSES e 1

/-- A pass of a row with no word in error, and with no fault or with one (R278, R282). -/
theorem pass_clean (clean : ∀ w ∈ rowWords a, Tab.find w s.ecc = none) : s.pass e a none [] = s.rowPassed e a ∧ ∀ c, s.pass e a (some c) [] =
    if (s.rowPassed e a).replaced a c then s.rowPassed e a else ((s.rowPassed e a).put DDK_MARCH_STATUS_FAIL e 1).marchError 0 3 a c := by
  have rows := row_clean (s := { s with dock := { s.dock with retry := s.dock.retry.filter fun r => r != (e, rowStart a) } }) (a := a) clean
  obtain ⟨unmet, uncorrected⟩ := rows
  unfold State.pass
  dsimp only
  rw [unmet, uncorrected]
  exact ⟨rfl, fun c => rfl⟩

/-- What a fault of a march reports: an error of severity 0 (R282). -/
theorem reports_marchError (s : State) (source a c : Nat) : Reports s (s.marchError 0 source a c) := reports_detect rfl

theorem memUnit_rowPassed (s : State) (e f a : Nat) : ((s.countRow f).rowPassed e a).memUnit a = s.memUnit a := by
  have get {g : Fld} (hg : g.ord % 512 ≠ DDK_MARCH_STATUS_PASSES.ord % 512) (i : Nat) : ((s.countRow f).rowPassed e a).get g i = s.get g i :=
    State.get_inc_other hg ..
  have bytes (n : Nat) : ((s.countRow f).rowPassed e a).setBytes n = s.setBytes n := by
    unfold State.setBytes; rw [get (by decide)]
  have base (n : Nat) : ((s.countRow f).rowPassed e a).setBase n = s.setBase n := by
    unfold State.setBase; simp only [bytes]
  have set : ((s.countRow f).rowPassed e a).setOf a = s.setOf a := by
    unfold State.setOf; simp only [bytes, base]
  unfold State.memUnit
  rw [set]
  simp only [base, get (g := HBM_CHSET_FIRST_CHANNEL) (by decide), get (g := HBM_CHSET_COUNT) (by decide)]

theorem replaced_rowPassed (s : State) (e a c : Nat) : ((s.countRow e).rowPassed e a).replaced a c = s.replaced a c := by
  have inForce : ((s.countRow e).rowPassed e a).dock.inForce = s.dock.inForce := rfl
  unfold State.replaced
  rw [memUnit_rowPassed, inForce]

/-- A saved word that is lost (R281): poisoned, with a record. -/
theorem loseWords_single (s : State) {a w : Nat} (listed : w ∈ rowWords a) :
    s.loseWords a [w] = (s.poison (8 * w)).detect (s.mkWordErr 1 5 (8 * w) none) := by
  unfold State.loseWords
  rw [List.filter_cons_of_pos (by simpa using listed)]
  rfl

end

end Sys2Proof.Machine
end

section
/-! The statement about march tests and repair. -/

namespace Sys2Proof.Safety

open Sys2Proof.Machine

/-- Settles O38: tests start and end by the ways that they name, rows by what a pass or an abort counts, and a repair by the entries of its macro. -/
theorem marchTestsAndRepair : Obligations.MarchTestsAndRepair := by
  unfold Obligations.MarchTestsAndRepair
  refine ⟨?start, ?done, ?pass, ?abort, ?repair⟩
  case start =>
    intro s e up he idle going ws
    have run : exec (.destructStart e) s = .next (if (s.destructWays e).all fun w => s.wayStopped e w then
        { s with dock := { s.dock with destruct := s.dock.destruct ++ [(e, s.destructWays e)] } }.put DDK_MARCH_STATUS_DESTRUCT_BUSY e 1
        else s.put DDK_MARCH_STATUS_DESTRUCT_REFUSED e 1) := by
      change execDestructStart e s = _
      rw [execDestructStart, if_pos (by simpa using he), hostDo_of_HostUp up, State.destructStart, if_neg (by simp [State.flag, idle, going])]
    refine ⟨?_, ?_⟩
    · rintro ⟨w, hw, runs⟩
      rw [run, if_neg]
      simp only [List.all_eq_true, not_forall]
      exact ⟨w, hw, by simp [runs]⟩
    · intro stopped
      have all : ((s.destructWays e).all fun w => s.wayStopped e w) = true := List.all_eq_true.2 stopped
      rw [run, if_pos all]; rfl
  case done =>
    intro s e fault ws test
    refine ⟨_, (show exec (.destructiveTestDone e fault) s = execDestructiveTestDone e fault s from rfl).trans (by rw [execDestructiveTestDone, test]), ?_⟩
    have zeros := memAt_zeros (fun w => wayAddr e w 0) wayBytes ws s
    have frame := zeros_frame (fun w => wayAddr e w 0) wayBytes ws s
    generalize ws.foldl (fun t w => t.zero (wayAddr e w 0) wayBytes) s = z at zeros frame ⊢
    generalize idled : ({ z with dock := { z.dock with destruct := z.dock.destruct.filter fun x => x.1 != e } } : State).put
      DDK_MARCH_STATUS_DESTRUCT_BUSY e 0 = u
    have busyU : u.get DDK_MARCH_STATUS_DESTRUCT_BUSY e = 0 := by rw [← idled]; simp
    have getU {f : Fld} (hf : f.ord % 512 ≠ DDK_MARCH_STATUS_DESTRUCT_BUSY.ord % 512) (i : Nat) : u.get f i = s.get f i := by
      rw [← idled, State.get_put_other hf, frame]; rfl
    have stopping (d w : Nat) : u.wayStopping d w = s.wayStopping d w := by
      unfold State.wayStopping State.bitAt
      rw [getU (by decide), getU (by decide)]
    have memU (x : Nat) : memAt u x = memAt z x := by rw [← idled]; rfl
    obtain ⟨tests, busy, fail, clear⟩ := waysReturn_march e (ws.filter fun w => !u.wayStopping e w) u
    have still : (∀ w ∈ ws, s.wayStopping e w = true) → (ws.filter fun w => !u.wayStopping e w).foldl (fun t w => t.wayReturns e w) u = u := by
      intro all
      have none' : (ws.filter fun w => !u.wayStopping e w) = [] := by
        rw [List.filter_eq_nil_iff]; intro w hw; simp [stopping, all w hw]
      rw [none']; rfl
    generalize (ws.filter fun w => !u.wayStopping e w).foldl (fun t w => t.wayReturns e w) u = v at *
    refine ⟨fun all => ?_, fun w hw returns => ?_, ?_, ?_, ?_, ?_⟩
    · have mem (x : Nat) : memAt (if fault = true then v.put DDK_MARCH_STATUS_FAIL e 1 else v) x = memAt z x := by
        rw [still all, ← memU x]; split <;> rfl
      refine ⟨fun w hw i hi => ?_, fun x outside => ?_⟩
      · rw [mem, zeros, if_pos ⟨w, hw, by unfold wayAddr; omega⟩]
      · rw [mem, zeros, if_neg (by rintro ⟨w, hw, here⟩; exact outside w hw here)]
    · have stopped := clear w (.inl (List.mem_filter.2 ⟨hw, by simp [stopping, returns]⟩))
      split
      · refine Eq.trans ?_ stopped
        unfold State.wayStopped State.bitAt
        rw [State.get_put_other (by decide), State.get_put_other (by decide)]
      · exact stopped
    · split
      · exact (State.get_put_other (by decide) ..).trans ((busy e).trans busyU)
      · exact (busy e).trans busyU
    · intro found
      rw [if_pos found]; simp; decide
    · intro found
      rw [if_neg (by simp [found]), fail, getU (by decide)]
    · intro x hx
      have hx : x ∈ v.dock.destruct := by split at hx <;> exact hx
      rw [tests, ← idled] at hx
      simpa using (List.mem_filter.1 hx).2
  case pass =>
    intro s e a c visits clean
    have clean' : ∀ w ∈ rowWords a, Tab.find w (s.countRow e).ecc = none := clean
    obtain ⟨good, bad⟩ := pass_clean (e := e) clean'
    refine ⟨⟨(s.countRow e).rowPassed e a, (exec_preservingPass visits false c).trans (by rw [if_neg (by decide), good]), rfl, ?_, ?_, rfl, ?_, rfl⟩, ?_⟩
    · exact State.get_inc_self ..
    · exact State.get_inc_other (by decide) ..
    · exact fun listed => by simpa using (List.mem_filter.1 listed).2
    · refine ⟨_, (exec_preservingPass visits true c).trans (by rw [if_pos rfl, bad, replaced_rowPassed]), ?_⟩
      have fails : ((s.countRow e).rowPassed e a).get DDK_MARCH_STATUS_FAIL e = s.get DDK_MARCH_STATUS_FAIL e := State.get_inc_other (by decide) ..
      have reports := reports_marchError (((s.countRow e).rowPassed e a).put DDK_MARCH_STATUS_FAIL e 1) 3 a c
      split
      · exact ⟨rfl, fails⟩
      · exact ⟨reports.mem, (reports.get (by decide) e).trans (by simp; decide)⟩
  case abort =>
    intro s e a w visits
    have run (lost : List Nat) : exec (.marchPassAbort e a lost) s = .next (({ (s.countRow e).inc DDK_MARCH_ABORTS_COUNT e 1 with
        dock := { s.dock with retry := (e, rowStart a) :: s.dock.retry.filter fun x => x != (e, rowStart a) } } : State).loseWords a lost) := by
      change execMarchPassAbort e a lost s = _
      rw [execMarchPassAbort, if_pos visits]
      rfl
    refine ⟨⟨_, run [], rfl, ?_, rfl, ?_, rfl⟩, fun listed => ?_⟩
    · exact State.get_inc_self ..
    · simp [loseWords_nil]
    · refine ⟨_, run [w], ?_⟩
      rw [loseWords_single _ listed]
      generalize aborted : ({ (s.countRow e).inc DDK_MARCH_ABORTS_COUNT e 1 with
        dock := { s.dock with retry := (e, rowStart a) :: s.dock.retry.filter fun x => x != (e, rowStart a) } } : State) = u
      generalize u.mkWordErr 1 5 (8 * w) none = err
      have contents := contents_detect (u.poison (8 * w)) err
      have ecc : ((u.poison (8 * w)).detect err).ecc = Tab.insert (8 * w / 8) true s.ecc :=
        (congrArg Contents.ecc contents).trans (by rw [← aborted]; rfl)
      have retry : ((u.poison (8 * w)).detect err).dock.retry = u.dock.retry :=
        (congrArg (fun t : State => t.dock.retry) (calm_detect (u.poison (8 * w)) err) :)
      rw [Nat.mul_div_cancel_left w (by decide)] at ecc
      refine ⟨?_, ?_, ?_, fun x other => ?_⟩
      · rw [ecc, Tab.find_insert, if_pos rfl]
      · rw [retry, ← aborted]; simp
      · exact (mem_of_contents contents).trans (by rw [← aborted]; rfl)
      · rw [ecc, Tab.find_insert, if_neg other]
  case repair =>
    intro s kind u m c up idle hk hu hm hc r s1
    have run : exec (.repairBurn kind u m c) s = .next (if !r.valid then s1.repairResult 3
        else if s1.dock.burned.any fun b => b.sameMacro r then s1.repairResult 2
        else { s1 with dock := { s1.dock with burn := some r } }.put DDK_REPAIR_BUSY 0 1) := by
      change execRepairBurn kind u m c s = _
      rw [execRepairBurn, hostDo_of_HostUp up, State.repairStart, if_neg (by simp [State.flag, idle]; omega), Nat.mod_eq_of_lt hu, Nat.mod_eq_of_lt hm,
        Nat.mod_eq_of_lt hc]
    refine ⟨?_, ?_, ?_⟩
    · intro invalid
      rw [run, if_pos (by simp [invalid])]; rfl
    · rintro valid ⟨b, hb, same⟩
      have burned : (s1.dock.burned.any fun b => b.sameMacro r) = true := List.any_eq_true.2 ⟨b, hb, same⟩
      rw [run, if_neg (by simp [valid]), if_pos burned]; rfl
    · intro valid other
      rw [run, if_neg (by simp [valid]), if_neg]
      · rfl
      · simp only [List.any_eq_true, not_exists, not_and]
        exact fun b hb => by simp [other b hb]

end Sys2Proof.Safety
end


section
/-! SUPPORT. The actions of a consignment's prepare (R349 to R353). -/

namespace Sys2Proof.Machine

open Sys2Proof.Safety

section
variable {s t : State} {id : Nat} {c c' : Cons} {a : Action} {kind : Action → Bool}

/-- The prepare runs: the device and its tide. -/
theorem prepares_of_live (live : Live s) (running : s.get HMR_TIDE_STATUS_RUNNING 0 ≠ 0) : s.prepares = true := by
  simp [State.prepares, live_of_Live live, State.flag, running]

theorem id_of_cons (h : s.cons id = some c) : c.id = id := by simpa using List.find?_some h

section
variable (ready : Preparing s id c a) (kind' : kind a = true)
include ready kind'

/-- An action on a table that cannot be changed fails its prepare. -/
theorem perform_busy {st : Nat} (busy : (a.table?.bind fun t => s.tableBusy t) = some st) : s.perform id kind = s.prepareFails id st := by
  obtain ⟨-, -, found, phase, at'⟩ := ready
  unfold State.perform
  rw [found]; dsimp only
  rw [phase, at']; dsimp only
  rw [if_neg (by simp [kind']), busy]

theorem perform_done (free : (a.table?.bind fun t => s.tableBusy t) = none) (work : s.actionWork c a = .done t c') :
    s.perform id kind = t.putCons { c' with next := c.next + 1 } := by
  obtain ⟨-, -, found, phase, at'⟩ := ready
  unfold State.perform
  rw [found]; dsimp only
  rw [phase, at']; dsimp only
  rw [if_neg (by simp [kind']), free]; dsimp only
  rw [work]

theorem perform_fails {st : Nat} (free : (a.table?.bind fun t => s.tableBusy t) = none) (work : s.actionWork c a = .fails st) :
    s.perform id kind = s.prepareFails id st := by
  obtain ⟨-, -, found, phase, at'⟩ := ready
  unfold State.perform
  rw [found]; dsimp only
  rw [phase, at']; dsimp only
  rw [if_neg (by simp [kind']), free]; dsimp only
  rw [work]

theorem perform_wait (free : (a.table?.bind fun t => s.tableBusy t) = none) (work : s.actionWork c a = .wait) : s.perform id kind = s := by
  obtain ⟨-, -, found, phase, at'⟩ := ready
  unfold State.perform
  rw [found]; dsimp only
  rw [phase, at']; dsimp only
  rw [if_neg (by simp [kind']), free]; dsimp only
  rw [work]

end

/-- A consignment that is put in place of itself is found. -/
theorem cons_putCons (found : s.cons id = some c) (same : c'.id = id) : (s.putCons c').cons id = some c' := by
  have mine := id_of_cons found
  unfold State.putCons State.cons at *
  generalize s.conss = l at found ⊢
  induction l with
  | nil => cases found
  | cons x l ih =>
    by_cases here : x.id = id
    · rw [List.map_cons, if_pos (by simp [here, same]), List.find?_cons_of_pos (by simp [same])]
    · rw [List.find?_cons_of_neg (by simpa using here)] at found
      rw [List.map_cons, if_neg (by simp [here, same]), List.find?_cons_of_neg (by simpa using here)]
      exact ih found

theorem copyTo_ok {d : Nat} {bs : List Byte} {k : State → Work} (write : s.write copyReq d bs = .ok t) : s.copyTo d bs k = k t := by
  unfold State.copyTo; rw [write]

/-- What is done of a page: the entry changed, and what it was kept (R343, R355). -/
def State.entered (s : State) (c : Cons) (t a d : Nat) (bs : List Byte) (w : State) : Work :=
  .done (w.devWrite a (MapEntry.bytes ⟨true, true, (mapEntryOf (leNat bs)).valid, d, (mapEntryOf (leNat bs)).cur, (s.table t).epoch + 1⟩))
    { c with
      undo := c.undo ++ [.entry a (w.bytes a 16)]
      wrote := c.wrote ++ [⟨t, a, MapEntry.bytes ⟨true, true, (mapEntryOf (leNat bs)).valid, d, (mapEntryOf (leNat bs)).cur, (s.table t).epoch + 1⟩,
        (s.table t).epoch + 1⟩] }

theorem changeEntry_stores {w : State} (stores : Stores s w) (n a d : Nat) (bs : List Byte) :
    Work.done (w.changeEntry c n a (mapEntryOf (leNat bs)) d).1 (w.changeEntry c n a (mapEntryOf (leNat bs)) d).2 = s.entered c n a d bs w := by
  unfold State.changeEntry State.entered
  rw [stores.table]

end
end Sys2Proof.Machine
end

section
/-! The statement about prepares of table data. -/

namespace Sys2Proof.Safety

open Sys2Proof.Machine

/-- Settles O39: each action of a prepare by the page, the map entry or the root that it writes. -/
theorem prepareChangesPagesAndRoots : Obligations.PrepareChangesPagesAndRoots := by
  unfold Obligations.PrepareChangesPagesAndRoots
  refine ⟨?begin, ?busy, ?done, ?page, ?root⟩
  case begin =>
    intro s id c live running found phase
    have run : exec (.consignmentPrepare id) s = .next (s.beginPrepare id) := by
      change execConsignmentPrepare id s = _
      have prepares : (s.live && s.flag HMR_TIDE_STATUS_RUNNING 0) = true := prepares_of_live live running
      rw [execConsignmentPrepare, if_pos prepares]
    have begins : s.beginPrepare id = if (c.actions.flatMap (·.pages)).all fun p => s.stagingOk p.2.2.2.1 then s.putCons { c with phase := .preparing }
        else s.prepareFails id 7 := by
      unfold State.beginPrepare
      rw [found]; dsimp only
      rw [if_neg (by simp [phase])]; rfl
    rw [run, begins]
    refine ⟨fun staged => by rw [if_pos (List.all_eq_true.2 staged)], ?_⟩
    rintro ⟨p, hp, unstaged⟩
    rw [if_neg]
    simp only [List.all_eq_true, not_forall]
    exact ⟨p, hp, by simp [unstaged]⟩
  case busy =>
    intro s id t st c a b l d src ready busy
    have prepares := prepares_of_live ready.1 ready.2.1
    refine ⟨?_, ?_, ?_⟩
    · rintro rfl
      change execPageWrite id s = _
      rw [execPageWrite, if_pos prepares, perform_busy ready rfl busy]
    · rintro rfl
      change execParityDelta id s = _
      rw [execParityDelta, if_pos prepares, perform_busy ready rfl busy]
    · rintro rfl
      change execRootSet id s = _
      rw [execRootSet, if_pos prepares, perform_busy ready rfl busy]
  case done =>
    intro s id t l d src c b free
    refine ⟨?_, ?_⟩
    · intro u c' ready work
      change execPageWrite id s = _
      rw [execPageWrite, if_pos (prepares_of_live ready.1 ready.2.1), perform_done ready rfl free work]
    · intro u c' ready work
      change execParityDelta id s = _
      rw [execParityDelta, if_pos (prepares_of_live ready.1 ready.2.1), perform_done ready rfl free work]
  case page =>
    intro s s1 c t l d src bs a ch entry m new entered
    have read1 := (reports_read entry).stores
    have writes (w : State) (stores : Stores s w) :
        Work.done (w.changeEntry c t a m d).1 (w.changeEntry c t a m d).2 = entered w := changeEntry_stores stores t a d bs
    refine ⟨?_, ?_, ?_, ?_, ?_⟩
    · intro held
      unfold State.pageWritePage; dsimp only
      rw [entry]; dsimp only
      rw [if_pos held]; rfl
    · intro free same
      unfold State.pageWritePage; dsimp only
      rw [entry]; dsimp only
      rw [if_neg (by rw [free]; decide), if_pos (by simp [same])]
      exact writes s1 read1
    · intro page s2 s3 free other read write
      have stores := (read1.trans (reports_read read).stores).trans (stores_write write)
      unfold State.pageWritePage; dsimp only
      rw [entry]; dsimp only
      rw [if_neg (by rw [free]; decide), if_neg (by simp [other]), read]
      dsimp only
      rw [copyTo_ok write]
      exact writes s3 stores
    · intro delta s2 s3 free unmapped new' read write
      have first : (c.wrote.any fun w => w.addr == a) = false := List.any_eq_false.2 fun w hw => by simpa using new' w hw
      unfold State.parityDeltaPage
      dsimp only
      rw [entry, read]; dsimp only
      rw [first, if_neg (by decide), if_neg (by rw [free]; decide), if_neg (by rw [unmapped]; decide)]
      dsimp only
      rw [copyTo_ok write]
      exact writes s3 (read1.trans (stores_write write))
    · intro delta old s2 s3 s4 free mapped new' read before write
      have first : (c.wrote.any fun w => w.addr == a) = false := List.any_eq_false.2 fun w hw => by simpa using new' w hw
      unfold State.parityDeltaPage; dsimp only
      rw [entry, read]; dsimp only
      rw [first, if_neg (by decide), if_neg (by rw [free]; decide), if_pos mapped, before]
      dsimp only
      rw [copyTo_ok write]
      exact writes s4 ((read1.trans (reports_read before).stores).trans (stores_write write))
  case root =>
    intro s id t r c ready free unchanged
    have work : s.actionWork c (.rootSet t r) = .done
        (s.putTable t { s.table t with rootPrev := some (s.table t).rootCur, rootCur := r, rootChange := (s.table t).epoch + 1 })
        { c with undo := c.undo ++ [.root t (s.table t).rootCur none (s.table t).rootChange] } := by
      change s.rootSetWork c t r = _
      unfold State.rootSetWork; dsimp only
      rw [if_neg (by simp [unchanged]), unchanged]
    refine ⟨_, (show exec (.rootSet id) s = execRootSet id s from rfl).trans (by rw [execRootSet, if_pos (prepares_of_live ready.1 ready.2.1), perform_done ready rfl free work]), ?_, ?_, ?_, rfl⟩
    · exact (State.table_putTable ..).trans (if_pos rfl)
    · exact fun m other => (State.table_putTable ..).trans (if_neg other)
    · have id' := id_of_cons ready.2.2.1
      exact cons_putCons (s := s.putTable t _) (c := c) (id := id) (c' := { c with
        undo := c.undo ++ [.root t (s.table t).rootCur none (s.table t).rootChange], next := c.next + 1 }) ready.2.2.1 id'

end Sys2Proof.Safety
end


section
/-! SUPPORT. Actions on models, and votes (R349, R353 to R360). -/

namespace Sys2Proof.Machine

open Sys2Proof.Safety

/-! ### What a read returns is as long as it asks -/

theorem snd_places {s : State} {r : Req} {wr : Bool} (ps : List (Nat × Nat)) {ls : List (Loc × Nat)} (h : s.places r wr ps = .ok ls) :
    ls.map (·.2) = ps.map (·.2) := by
  induction ps generalizing ls with
  | nil => cases h; rfl
  | cons p ps ih =>
    unfold State.places at h
    split at h
    · cases h
    · cases h
    · next rest => cases h; simp [ih rest]

theorem length_placeBytes (s : State) (l : Loc) (n : Nat) : (s.placeBytes l n).length = n := by
  cases l <;> simp [State.placeBytes, State.bytes, State.hostBytes]

theorem length_read {s t : State} {r : Req} {a n : Nat} {bs : List Byte} (h : s.read r a n = .ok (bs, t)) : bs.length = n := by
  unfold State.read at h
  split at h
  · cases h
  next ls placed =>
  dsimp only at h
  split at h
  · cases h
  cases h
  rw [List.length_flatMap]
  simp only [length_placeBytes]
  rw [snd_places _ placed, sum_piecesOf]

/-! ### Models that a prepare names -/

section
variable {s : State} {c : Cons} {m f n src b : Nat}

/-- A model that cannot be changed is busy (R349). -/
theorem pinWork_busy (busy : (s.model m).st = .absent ∨ (s.model m).retiring.isSome = true) : s.pinWork c m f n = .fails 5 := by
  unfold State.pinWork; dsimp only
  rw [if_pos (by rcases busy with h | h <;> simp [h])]; rfl

theorem pinWork_wait (loading : (s.model m).st = .loading) (current : (s.model m).retiring = none) (within : 65536 * (f + n) ≤ (s.model m).bytes) :
    s.pinWork c m f n = .wait := by
  unfold State.pinWork; dsimp only
  rw [if_neg (by simp [loading, current]; omega), if_pos (by simp [loading])]

/-- No block is asked for, so room is found. -/
theorem placeBlocks_zero (loc cls : Nat) (used : List Nat) : ∃ far, s.placeBlocks loc cls 0 used = some ([], far) := by
  refine ⟨decide (0 > (s.freeBlocks (s.firstDie loc cls used) cls used).length), ?_⟩
  unfold State.placeBlocks; dsimp only
  rw [if_pos (Nat.zero_le _)]; rfl

theorem pinWork_held (there : (s.model m).st ≠ .absent) (loaded : (s.model m).st ≠ .loading) (current : (s.model m).retiring = none)
    (within : 65536 * (f + n) ≤ (s.model m).bytes) (blocks : ∀ i, i < n → ∃ p ∈ (s.model m).blocks, p.1 = f + i) :
    s.pinWork c m f n = .done s { c with heldBlocks := c.heldBlocks ++ (List.range n).map fun i => (m, f + i) } := by
  have none' : (((List.range n).map fun i => f + i).filter fun b => !((s.model m).blocks.any fun p => p.1 == b)) = [] := by
    rw [List.filter_eq_nil_iff]
    intro b hb
    obtain ⟨i, hi, rfl⟩ := List.mem_map.1 hb
    obtain ⟨p, hp, same⟩ := blocks i (List.mem_range.1 hi)
    simp only [Bool.not_eq_true', Bool.not_eq_false]
    exact List.any_eq_true.2 ⟨p, hp, by simp [same]⟩
  unfold State.pinWork; dsimp only
  rw [if_neg (by simp [there, current]; omega), if_neg (by simp [loaded]), none']
  obtain ⟨far, placed⟩ := placeBlocks_zero (s := s) (s.model m).locality (if ((s.model m).st == .resident) = true then (s.model m).cls else 2) s.usedBlocks
  rw [List.length_nil, placed]
  simp [State.loadHeld, List.map_map, Function.comp_def]

theorem rescaleSwapWork_busy (busy : (s.model m).st = .absent ∨ (s.model m).retiring.isSome = true ∨ (s.model m).bytes < f + 16 * n) :
    s.rescaleSwapWork c m f n src = .fails 5 := by
  unfold State.rescaleSwapWork; dsimp only
  rw [if_pos (by rcases busy with h | h | h <;> simp [h])]; rfl

theorem rescaleSwapWork_wait (loading : (s.model m).st = .loading) (current : (s.model m).retiring = none) (within : f + 16 * n ≤ (s.model m).bytes) :
    s.rescaleSwapWork c m f n src = .wait := by
  unfold State.rescaleSwapWork; dsimp only
  rw [if_neg (by simp [loading, current]; omega), if_pos (by simp [loading])]

/-- New entries within one block that the cache does not hold are laid over the block as the store has it. -/
theorem rescaleSwapWork_single {s1 s2 : State} {new old : List Byte} (stored : (s.model m).st = .stored) (current : (s.model m).retiring = none)
    (within : f + 16 * n ≤ (s.model m).bytes) (first : f / 65536 = b) (last : (f + 16 * n - 1) / 65536 = b)
    (unswapped : ∀ w ∈ c.swaps, ¬ (w.1 = m ∧ w.2.1 = b)) (uncached : ∀ p ∈ (s.model m).blocks, p.1 ≠ b)
    (read : s.read copyReq src (16 * n) = .ok (new, s1)) (block : s1.storeBlock (s.model m) (s.model m).version b = .ok (old, s2)) :
    s.rescaleSwapWork c m f n src = .done s2 { c with swaps := c.swaps ++ [(m, b, overlay old new (f - 65536 * b), none)] } := by
  have model1 : s1.model m = s.model m := by
    have models : s1.models = s.models := by change s1.work.models = s.work.models; rw [(reports_read read).work]
    rw [State.model, models]; rfl
  have apart : c.swaps.filter (fun w => w.1 == m && w.2.1 == b) = [] := by
    rw [List.filter_eq_nil_iff]; intro w hw; simpa using unswapped w hw
  have kept : c.swaps.filter (fun w => !(w.1 == m && w.2.1 == b)) = c.swaps := by
    rw [List.filter_eq_self]; intro w hw; simpa [imp_iff_not_or] using unswapped w hw
  have away : ((s.model m).blocks.any fun p => p.1 == b) = false := List.any_eq_false.2 fun p hp => by simpa using uncached p hp
  have length : new.length = 16 * n := length_read read
  have whole : new.take (65536 - (f - 65536 * b)) = new := List.take_of_length_le (by omega)
  have blocks : (List.range ((f + 16 * n - 1) / 65536 - f / 65536 + 1)).map (fun i => f / 65536 + i) = [b] := by
    rw [first, last, Nat.sub_self]; rfl
  unfold State.rescaleSwapWork; dsimp only
  rw [if_neg (by simp [stored, current]; omega), if_neg (by simp [stored]), read]
  dsimp only
  rw [blocks]
  unfold State.swapBlocks; dsimp only
  rw [apart, model1]; dsimp only [List.getLast?_nil]
  rw [block]; dsimp only
  rw [away, if_neg (by decide)]; dsimp only
  rw [kept, if_neg (show ¬ f < 65536 * b by omega), if_neg (show ¬ f < 65536 * b by omega), whole]
  rfl

/-! ### Votes -/

theorem cons_sendVc0 (s : State) (d : Nat) (x : Net) (id : Nat) : (s.sendVc0 d x).cons id = s.cons id := by rw [sendVc0_eq]; rfl

/-- The records that a decision keeps (R360) change the master's records alone. -/
theorem keepMasters_frame (l : List (Nat × Nat × Nat)) (s : State) : l.foldl (fun t x => t.keepMaster x) s =
    { s with masters := (l.foldl (fun t x => t.keepMaster x) s).masters } := by
  induction l generalizing s with
  | nil => rfl
  | cons x l ih =>
    have one : s.keepMaster x = { s with masters := (s.keepMaster x).masters } := by
      unfold State.keepMaster; dsimp only; split <;> rfl
    rw [List.foldl_cons, ih, one]

/-- The record kept of a table. -/
def keptRecord (x : Nat × Nat × Nat) : MasterRec := ⟨true, x.2.1, x.2.2, [⟨x.2.2, none⟩]⟩

theorem keepMasters_kept {x : Nat × Nat × Nat} (l : List (Nat × Nat × Nat)) (alike : ∀ y ∈ l, y.1 = x.1 → y = x) (s : State)
    (h : s.master x.1 = keptRecord x ∨ (x ∈ l ∧ (s.master x.1).known = false)) :
    (l.foldl (fun t x => t.keepMaster x) s).master x.1 = keptRecord x := by
  induction l generalizing s with
  | nil => simpa using h
  | cons y l ih =>
    refine ih (fun z hz => alike z (List.mem_cons_of_mem _ hz)) _ ?_
    by_cases same : y.1 = x.1
    · obtain rfl := alike y (List.mem_cons_self ..) same
      left
      unfold State.keepMaster; dsimp only
      rcases h with kept | ⟨-, unknown⟩
      · rw [if_pos (by simp [kept, keptRecord]), kept]
      · rw [if_neg (by simp [unknown])]
        exact (State.master_putMaster ..).trans (if_pos rfl)
    · have other : (s.keepMaster y).master x.1 = s.master x.1 := by
        unfold State.keepMaster; dsimp only
        split
        · rfl
        · exact (State.master_putMaster ..).trans (if_neg (Ne.symm same))
      rw [other]
      rcases h with kept | ⟨listed, unknown⟩
      · exact .inl kept
      · rcases List.mem_cons.1 listed with here | later
        · exact absurd (by rw [here]) same
        · exact .inr ⟨later, unknown⟩

end
end Sys2Proof.Machine
end

section
/-! The statement about prepares of models and votes. -/

namespace Sys2Proof.Safety

open Sys2Proof.Machine

/-- Settles O40: each action on a model by its record, and each vote by the votes that stand at the master. -/
theorem prepareOfModelsAndVotes : Obligations.PrepareOfModelsAndVotes := by
  unfold Obligations.PrepareOfModelsAndVotes
  refine ⟨?models, ?swap, ?ends, ?vote, ?timeout, ?sent⟩
  case models =>
    intro s id m f n src c
    refine ⟨fun ready => ?_, fun ready => ?_, fun ready => ?_⟩
    · have run : exec (.pin id) s = if s.prepares then _ else _ := rfl
      rw [if_pos (prepares_of_live ready.1 ready.2.1)] at run
      refine ⟨fun busy => ?_, fun loading current within => ?_, fun there loaded current within blocks => ?_⟩
      · rw [run, perform_fails ready rfl rfl (pinWork_busy busy)]
      · rw [run, perform_wait ready rfl rfl (pinWork_wait loading current within)]
      · rw [run, perform_done ready rfl rfl (pinWork_held there loaded current within blocks)]
    · have run : exec (.unpin id) s = if s.prepares then _ else _ := rfl
      rw [if_pos (prepares_of_live ready.1 ready.2.1)] at run
      have work : s.actionWork c (.unpin m f n) = if (s.model m).retiring.isSome then .fails 5 else .done s c := rfl
      refine ⟨fun current => ?_, fun retiring => ?_⟩
      · rw [run, perform_done ready rfl rfl (work.trans (if_neg (by simp [current])))]
      · rw [run, perform_fails ready rfl rfl (work.trans (if_pos retiring))]
    · have run : exec (.rescaleSwap id) s = if s.prepares then _ else _ := rfl
      rw [if_pos (prepares_of_live ready.1 ready.2.1)] at run
      refine ⟨fun busy => ?_, fun loading current within => ?_⟩
      · rw [run, perform_fails ready rfl rfl (rescaleSwapWork_busy busy)]
      · rw [run, perform_wait ready rfl rfl (rescaleSwapWork_wait loading current within)]
  case swap =>
    intro s s1 s2 id m f n src b c new old ready stored current within _ first last unswapped uncached read block
    change execRescaleSwap id s = _
    rw [execRescaleSwap, if_pos (prepares_of_live ready.1 ready.2.1),
      perform_done ready rfl rfl (rescaleSwapWork_single stored current within first last unswapped uncached read block)]
  case ends =>
    intro s id c live running found
    have prepares := prepares_of_live live running
    refine ⟨?_, ?_, ?_⟩
    · intro phase whole s1
      have run : exec (.prepareDone id) s = .next (if c.actions.any fun a => a.table?.any fun t => (s.table t).disabling then s1.prepareFails id 4
          else if c.scope then s1.sendVote c 0 else s1.putCons { c with phase := .prepared }) := by
        have tables : s1.tables = s.tables := by dsimp only [s1]; split <;> rfl
        have table (t : Nat) : s1.table t = s.table t := by rw [State.table, tables]; rfl
        change execPrepareDone id s = _
        rw [execPrepareDone, if_pos prepares, State.prepareDone, found]; dsimp only
        rw [if_pos (by simp [phase, whole])]
        simp only [← table]
        rfl
      refine ⟨?_, fun free => ?_⟩
      · rintro ⟨a, ha, t, names, disabling⟩
        have off : (c.actions.any fun a => a.table?.any fun t => (s.table t).disabling) = true := List.any_eq_true.2 ⟨a, ha, by simp [names, disabling]⟩
        rw [run, if_pos off]
      · have on : (c.actions.any fun a => a.table?.any fun t => (s.table t).disabling) = false := by
          refine List.any_eq_false.2 fun a ha => ?_
          cases names : a.table? with
          | none => simp
          | some t => simp [free a ha t names]
        refine ⟨fun here => ?_, fun group => ?_⟩
        · rw [run, on, if_neg (by decide), if_neg (by simp [here])]
        · rw [run, on, if_neg (by decide), if_pos group]
    · intro inPrepare late
      change execPrepareTimeout id s = _
      rw [execPrepareTimeout, found]; dsimp only
      rw [if_pos (by simp [prepares, inPrepare, late])]; rfl
    · intro v voted at' late
      have waits : c.voted = true := by
        unfold Cons.voted
        rcases voted with h | ⟨st, h⟩ <;> rw [h]
      change execInDoubtTimeout id s = _
      rw [execInDoubtTimeout, found]; dsimp only
      rw [waits, at']; dsimp only
      rw [if_pos (by simp [prepares, late])]
  case vote =>
    intro s v live
    have run : exec (.vote v) s = .next (s.takeVote v) := by
      change execVote v s = _; rw [execVote, if_pos (live_of_Live live)]
    refine ⟨fun new => ?_, fun b held open' => ?_⟩
    · rw [run, State.takeVote, new]; rfl
    · rw [run, State.takeVote, held]; dsimp only; rw [open']; rfl
  case timeout =>
    intro s id b live running led found open' undecided late
    have run : exec (.voteTimeout id) s = .next (s.decideBox b csTimeout) := by
      change execVoteTimeout id s = _
      rw [execVoteTimeout, found]; dsimp only
      rw [if_pos (by simp [prepares_of_live live running, led, open', undecided, late])]
    refine ⟨_, run, (b.votes.head?.map (·.group)).getD 0,
      (b.tables.filter fun x => !b.tables.any fun y => y.1 == x.1 && y.2 != x.2).foldl (fun t x => t.keepMaster x) s, keepMasters_frame _ s, ?_, ?_⟩
    · intro x hx alike unknown
      have alone : x ∈ b.tables.filter fun x => !b.tables.any fun y => y.1 == x.1 && y.2 != x.2 := by
        refine List.mem_filter.2 ⟨hx, ?_⟩
        rw [Bool.not_eq_true', List.any_eq_false]
        intro y hy
        by_cases same : y.1 = x.1
        · simp [alike y hy same]
        · simp [same]
      exact keepMasters_kept _ (fun y hy => alike y (List.mem_filter.1 hy).1) s (.inr ⟨alone, unknown⟩)
    · unfold State.decideBox; dsimp only
      rw [if_neg (by decide)]
      have master : ((b.tables.filter fun x => !b.tables.any fun y => y.1 == x.1 && y.2 != x.2).foldl (fun t x => t.keepMaster x) s).podMaster =
          s.podMaster := by rw [keepMasters_frame]; rfl
      rw [master]; rfl
  case sent =>
    intro s c st found group t
    have eq : t = _ := sendVc0_eq _ _ _
    refine ⟨?_, ?_, ?_, ?_⟩
    · refine (cons_sendVc0 ..).trans ?_
      refine (cons_putCons (c := c) (id := c.id)
        (c' := { c with voteTide := some s.tide, phase := if st == 0 then .prepared else .failed st }) found rfl).trans ?_
      simp
    · rw [eq]; rfl
    · rw [eq]; rfl
    · rw [eq]; exact ⟨_, _, rfl, rfl, rfl, rfl⟩

end Sys2Proof.Safety
end


section
/-! SUPPORT. Decisions, epochs and what retires (R360 to R371). -/

namespace Sys2Proof.Machine

open Sys2Proof.Safety

section
variable {s : State}

/-! ### The pod master's log -/

theorem sendsMore_mirrored (s : State) : SendsMore s s.mirror := by
  unfold State.mirror; split
  · exact sendsMore_sendVc0 ..
  · exact .refl s

/-- A decision as it is logged (R361). -/
def State.logs (s : State) (d : Decision) (voters : List Nat) : Logged :=
  ⟨d, voters, [], s.tide, if d.status == csCommitted then s.pod.members else [], none⟩

/-- A decision's log entry, its mirror, and what goes to its voters (R361, R507). -/
def State.toldVoters (s : State) (d : Decision) (voters : List Nat) : State :=
  voters.foldl (fun t v => t.sendVc0 v (.decision d false)) { s with decisions := s.decisions ++ [s.logs d voters] }.mirror

theorem logDecision_eq (s : State) (d : Decision) (voters : List Nat) : s.logDecision d voters =
    if d.status == csCommitted then (s.toldVoters d voters).sendNotices d else s.toldVoters d voters := rfl

theorem sendsMore_toldVoters (s : State) (d : Decision) (voters : List Nat) :
    SendsMore { s with decisions := s.decisions ++ [s.logs d voters] } (s.toldVoters d voters) :=
  (sendsMore_mirrored _).trans (sendsMore_foldl (fun t v => sendsMore_sendVc0 t v _) _ _)

theorem sendsMore_notices (s : State) (d : Decision) : SendsMore s (s.sendNotices d) := sendsMore_foldl (fun t m => sendsMore_sendVc0 t m _) _ _

/-- What follows a decision's log entry only sends. -/
theorem sendsMore_logDecision (s : State) (d : Decision) (voters : List Nat) :
    SendsMore { s with decisions := s.decisions ++ [s.logs d voters] } (s.logDecision d voters) := by
  rw [logDecision_eq]
  split
  · exact (sendsMore_toldVoters s d voters).trans (sendsMore_notices _ d)
  · exact sendsMore_toldVoters s d voters

theorem toldVoters_unacked {d : Decision} {voters : List Nat} {v : Nat} (hv : v ∈ voters) :
    ∃ u ∈ (s.toldVoters d voters).unacked, u.dst = v ∧ u.msg = .decision d false :=
  mem_unacked_foldl (P := fun u => u.dst = v ∧ u.msg = .decision d false) (f := fun t v => t.sendVc0 v (.decision d false))
    (fun t v => sendsMore_sendVc0 t v _) (fun t => mem_unacked_sendVc0 t v _) hv _

theorem notices_unacked {t : State} {d : Decision} {m : Nat} (hm : m ∈ t.pod.members) :
    ∃ u ∈ (t.sendNotices d).unacked, u.dst = m ∧ u.msg = .notice d :=
  mem_unacked_foldl (P := fun u => u.dst = m ∧ u.msg = .notice d) (f := fun t m => t.sendVc0 m (.notice d))
    (fun t m => sendsMore_sendVc0 t m _) (fun t => mem_unacked_sendVc0 t m _) hm _

/-! ### What retires -/

theorem calm_postRecord (s : State) (n : Nat) (bs : List Byte) (noIrq : Bool) : (s.postRecord n bs noIrq).calm = s.calm := by
  unfold State.postRecord; dsimp only
  split
  · exact calm_putRecord s _ _ _
  · rfl

/-- A job that leaves the list gives back its slots. -/
theorem calm_dropJob (s : State) (j : Job) (left : Nat) : (s.dropJob j left).calm = s.calm := rfl

/-- A record that all is retired leaves the list of what retires shorter, and the rest of the device's work as it is (R371). -/
theorem closeRetiring_calm (s : State) (id : Nat) : (s.closeRetiring id).retiring ⊆ s.retiring ∧
    (s.closeRetiring id).calm = ({ s with retiring := (s.closeRetiring id).retiring } : State).calm := by
  unfold State.closeRetiring
  split
  · exact ⟨List.Subset.refl _, rfl⟩
  dsimp only
  split
  · exact ⟨List.Subset.refl _, rfl⟩
  split
  · next j _ =>
    generalize hu : ({ s with retiring := s.retiring.filter fun x => x.id != id } : State) = u
    have calm : ((u.consRecord j 4 0 id).dropJob j (j.slots - 1)).calm = u.calm := calm_postRecord u _ _ _
    have left : ((u.consRecord j 4 0 id).dropJob j (j.slots - 1)).retiring = u.retiring := (congrArg State.retiring calm :)
    rw [left]
    refine ⟨?_, calm.trans (by rw [← hu])⟩
    rw [← hu]
    exact fun r hr => (List.mem_filter.1 hr).1
  · exact ⟨fun r hr => (List.mem_filter.1 hr).1, rfl⟩

theorem closeRetirings_calm (l : List Nat) (s : State) : (l.foldl (fun t i => t.closeRetiring i) s).retiring ⊆ s.retiring ∧
    (l.foldl (fun t i => t.closeRetiring i) s).calm = ({ s with retiring := (l.foldl (fun t i => t.closeRetiring i) s).retiring } : State).calm := by
  induction l generalizing s with
  | nil => exact ⟨List.Subset.refl _, rfl⟩
  | cons i l ih =>
    obtain ⟨fewer, calm⟩ := closeRetiring_calm s i
    obtain ⟨fewer', calm'⟩ := ih (s.closeRetiring i)
    refine ⟨fun r hr => fewer (fewer' hr), calm'.trans ?_⟩
    exact congrArg (fun t : State => ({ t with retiring := (l.foldl (fun (t : State) i => t.closeRetiring i) (s.closeRetiring i)).retiring } : State)) calm

end
end Sys2Proof.Machine
end

section
/-! The statement about decisions and retirement. -/

namespace Sys2Proof.Safety

open Sys2Proof.Machine

/-- Settles O41: a decision by the master's log, and what retires by the epochs and versions that a commit replaced. -/
theorem decisionsCommitAndRetire : Obligations.DecisionsCommitAndRetire := by
  unfold Obligations.DecisionsCommitAndRetire
  refine ⟨?decision, ?log, ?query, ?unlogged, ?outcome, ?retireAt, fun s id g => rfl, ?epoch, ?version⟩
  case decision =>
    intro s d voters live master
    have run : exec (.decisionToPodMaster d voters) s = .next (s.takeDecision d voters) := by
      change execDecisionToPodMaster d voters s = _
      rw [execDecisionToPodMaster, if_pos (by simp [live_of_Live live, master])]
    refine ⟨fun new room => ?_, fun new full => ?_, fun l held known => ?_⟩
    · rw [run, State.takeDecision, new]; dsimp only; rw [if_neg (by omega)]
    · rw [run, State.takeDecision, new]; dsimp only; rw [if_pos full]; rfl
    · have nobody : (voters.filter fun v => !(l.voters.contains v)) = [] := by
        rw [List.filter_eq_nil_iff]; intro v hv; simp [known v hv]
      rw [run, State.takeDecision, held]; dsimp only
      rw [nobody, List.foldl_nil, List.append_nil]
  case log =>
    intro s d voters t
    have sends := sendsMore_logDecision s d voters
    refine ⟨⟨s.logs d voters, by dsimp only [t]; rw [sends.rest], rfl, rfl, rfl, rfl⟩, by dsimp only [t]; rw [sends.rest], ?_, ?_⟩
    · intro v hv
      obtain ⟨u, hu, told⟩ := toldVoters_unacked (s := s) (d := d) hv
      refine ⟨u, ?_, told⟩
      dsimp only [t]
      rw [logDecision_eq]
      split
      · exact (sendsMore_notices _ d).unacked hu
      · exact hu
    · intro committed m hm
      have members : (s.toldVoters d voters).pod.members = s.pod.members := by rw [(sendsMore_toldVoters s d voters).rest]
      dsimp only [t]
      rw [logDecision_eq, if_pos (by simp [committed, csCommitted])]
      exact notices_unacked (by rw [members]; exact hm)
  case query =>
    intro s id g slot d l live master held
    refine ⟨?_, fun new => ?_⟩
    · change execQuery id g d s = _
      rw [execQuery, if_pos (by simp [live_of_Live live, master]), State.answerQuery, held]
    · change execAck ⟨id, g, slot⟩ d s = _
      rw [execAck]; dsimp only
      rw [held]; dsimp only
      rw [if_pos (by simp [live_of_Live live, master]), if_neg (by simpa using new)]
  case unlogged =>
    intro s id g d live master unheld
    have run : exec (.query id g d) s = .next (s.answerQuery id g d) := by
      change execQuery id g d s = _
      rw [execQuery, if_pos (by simp [live_of_Live live, master])]
    rw [State.answerQuery, unheld] at run
    dsimp only at run
    refine ⟨_, ?_, run⟩
    have either (b : Bool) : (if b = true then csMasterLost else csTimeout) = 0x0E ∨ (if b = true then csMasterLost else csTimeout) = 0x0A := by
      cases b
      · exact .inr rfl
      · exact .inl rfl
    exact either _
  case outcome =>
    intro s d late live
    have run : exec (.decision d late) s = .next (s.takeOutcome d late) := by
      change execDecision d late s = _; rw [execDecision, if_pos (live_of_Live live)]
    refine ⟨?_, ?_, ?_, ?_, ?_, ?_⟩
    · intro unknown
      rw [run, State.takeOutcome, unknown]
    · intro c known abort
      rw [run, State.takeOutcome, known]; dsimp only; rw [if_pos (by simp [csCommitted, abort])]
    · intro c known commit timely phase
      rw [run, State.takeOutcome, known]; dsimp only
      rw [if_neg (by simp [csCommitted, commit]), if_neg (by simp [timely, phase])]
    · intro c known commit unheard lost
      rw [run, State.takeOutcome, known]; dsimp only
      rw [if_neg (by simp [csCommitted, commit]), if_pos (by rcases lost with h | h <;> simp [h])]
      cases phase : c.phase with
      | committing tc => exact absurd phase (unheard tc)
      | _ => rfl
    · intro new undone
      change execNotice d s = _
      rw [execNotice, if_pos (by simp [live_of_Live live, new, undone])]
    · intro old
      change execNotice d s = _
      rw [execNotice, if_neg (by rcases old with h | h <;> simp [h])]
  case retireAt =>
    intro s id tr t e noticed
    refine ⟨_, (show exec (.retireAt id tr) s = execRetireAt id tr s from rfl).trans (by
      rw [execRetireAt, noticed, List.foldl_cons, List.foldl_nil]), ?_, ?_, ?_, ?_, rfl⟩
    · exact (State.table_putTable ..).trans (if_pos rfl)
    · exact (State.master_putMaster ..).trans (if_pos rfl)
    · exact fun m other => ⟨(State.table_putTable ..).trans (if_neg other), (State.master_putMaster ..).trans (if_neg other)⟩
    · refine List.map_congr_left fun r _ => ?_
      simp
  case epoch =>
    intro s id t e live running due none' idle
    have run : exec (.epochRetire id) s = .next (s.retireEpoch t e) := by
      change execEpochRetire id s = _
      have retiring : (s.retireEpoch t e).retiring = [] := none'
      have rebuild : (s.retireEpoch t e).rebuild = none := idle
      rw [execEpochRetire, if_pos (prepares_of_live live running), State.retireEpochs, due]
      dsimp only [List.foldl_cons, List.foldl_nil]
      rw [retiring, List.find?_nil]
      dsimp only
      rw [State.startCopy, rebuild]
    refine ⟨_, run, ?_, ?_, ?_, ?_, rfl⟩
    · intro l hl
      have table : (s.retireEpoch t e).table t = _ := (State.table_putTable ..).trans (if_pos rfl)
      rw [table] at hl
      simpa using (List.mem_filter.1 hl).2
    · intro l hl
      have master : (s.retireEpoch t e).master t = _ := (State.master_putMaster ..).trans (if_pos rfl)
      rw [master] at hl
      simpa using (List.mem_filter.1 hl).2
    · intro change'
      have table : (s.retireEpoch t e).table t = _ := (State.table_putTable ..).trans (if_pos rfl)
      rw [table]
      simp [change']
    · exact fun m other => (State.table_putTable ..).trans (if_neg other)
  case version =>
    intro s m v live running retiring unused
    have run : exec (.modelVersionRetire m v) s = .next (s.retireVersion m v) := by
      change execModelVersionRetire m v s = _
      rw [execModelVersionRetire, if_pos (by simp [prepares_of_live live running, retiring, unused])]
    refine ⟨_, run, ?_⟩
    unfold State.retireVersion
    extract_lets x newest s1 s2
    obtain ⟨fewer, calm⟩ := closeRetirings_calm (s2.retiring.map fun (r : Retiring) => r.id) s2
    generalize (s2.retiring.map fun (r : Retiring) => r.id).foldl (fun t i => t.closeRetiring i) s2 = u at fewer calm ⊢
    have models : u.models = s1.models := (congrArg State.models calm :)
    have model (k : Nat) : u.model k = if k = m then { x with
        retiring := none, oldBlocks := [], copies := x.copies.filter fun c => c.1 == newest c.2.1 } else s.model k := by
      rw [State.model, models]; exact State.model_putModel ..
    refine ⟨?_, ?_, ?_, ?_, fun k other => (model k).trans (if_neg other), ?_, (congrArg State.mem calm :)⟩
    · rw [model, if_pos rfl]
    · rw [model, if_pos rfl]
    · rw [model, if_pos rfl]
    · rw [model, if_pos rfl]
    · intro r hr
      obtain ⟨o, -, rfl⟩ := List.mem_map.1 (fewer hr)
      simp

end Sys2Proof.Safety
end


section
/-! SUPPORT. Model records and admission control (R430 to R433). -/

namespace Sys2Proof.Machine

open Sys2Proof.Safety

section
variable {s : State} {m : Nat}

/-- A model's record that is stored is read back, and no other changes (Table 10.11). -/
theorem setModel_spec (s : State) (m : Nat) (x : Model) : let t := s.setModel m x
    t.model m = x ∧ (∀ k, k ≠ m → t.model k = s.model k) ∧ t.jobs = s.jobs ∧ t.streams = s.streams := by
  have stores := stores_setModel s m x
  have models : (s.setModel m x).models = (s.putModel m x).models := by
    change (s.setModel m x).duty.models = (s.putModel m x).duty.models; rw [stores.duty]
  have model (k : Nat) : (s.setModel m x).model k = if k = m then x else s.model k := by
    rw [State.model, models]; exact State.model_putModel ..
  exact ⟨(model m).trans (if_pos rfl), fun k other => (model k).trans (if_neg other), stores.jobs, stores.streams⟩

/-- What an operation of `HMR_MODEL_CTL` shows when it ends. -/
theorem modelResult_spec (s : State) {r : Nat} (fits : r < 2 ^ HMR_MODEL_CTL_RESULT.width) :
    (s.modelResult r).get HMR_MODEL_CTL_RESULT 0 = r ∧ (s.modelResult r).get HMR_MODEL_CTL_DONE 0 = 1 := by
  unfold State.modelResult
  exact ⟨(State.get_put_other (by decide) ..).trans (by simp [Nat.mod_eq_of_lt fits]), by simp; decide⟩

theorem exec_modelAdd (up : HostUp s) : exec (.modelAdd m) s = .next (s.addModel m) := by
  change execModelAdd m s = _
  rw [execModelAdd, hostDo_of_HostUp up]

theorem exec_modelRemove (up : HostUp s) : exec (.modelRemove m) s = .next (s.removeModel m) := by
  change execModelRemove m s = _
  rw [execModelRemove, hostDo_of_HostUp up]

/-- A load that ends frees its stream and leaves the models and jobs. -/
theorem endLoad_spec (s : State) (m : Nat) : (s.endLoad m).models = s.models ∧ (s.endLoad m).jobs = s.jobs ∧
    ∀ n, s.loader m = some n → ((s.endLoad m).stream n).st = .free := by
  unfold State.endLoad
  cases loader : s.loader m with
  | none => exact ⟨rfl, rfl, fun n h => by cases h⟩
  | some n =>
    refine ⟨by dsimp only; rw [freeStream_frame], by dsimp only; rw [freeStream_frame], fun k h => ?_⟩
    cases h
    dsimp only
    rw [stream_freeStream, if_pos rfl]

end
end Sys2Proof.Machine
end

section
/-! The statement about models and admission control. -/

namespace Sys2Proof.Safety

open Sys2Proof.Machine

/-- Settles O42: each command by the model's record or the admission state that it writes. -/
theorem modelsAreAddedLoadedAndRemoved : Obligations.ModelsAreAddedLoadedAndRemoved := by
  unfold Obligations.ModelsAreAddedLoadedAndRemoved
  refine ⟨?ctl, ?removed, ?loaded, ?admission, ?drained⟩
  case ctl =>
    intro s m up res
    refine ⟨?_, ?_, ?_, ?_⟩
    · intro far
      refine ⟨?_, ?_⟩
      · rw [exec_modelAdd up, State.addModel, if_pos far]; rfl
      · rw [exec_modelRemove up, State.removeModel, if_pos far]; rfl
    · intro near there
      rw [exec_modelAdd up, State.addModel, if_neg (by omega), if_pos (by simp [there])]; rfl
    · intro image bs near absent entry header ok' placed
      have adds : s.addModel m = (s.setModel m (newModel image (imageHeaderOf bs))).modelResult 1 := by
        rw [State.addModel, if_neg (by omega), if_neg (by simp [absent]), entry]; dsimp only
        rw [header]; dsimp only
        rw [if_pos (by simp [ok', placed])]
      obtain ⟨here, others, jobs, -⟩ := setModel_spec s m (newModel image (imageHeaderOf bs))
      have shown := modelResult_spec (s.setModel m (newModel image (imageHeaderOf bs))) (r := 1) (by decide)
      generalize s.setModel m (newModel image (imageHeaderOf bs)) = u at *
      have at' : (u.modelResult 1).model m = newModel image (imageHeaderOf bs) := here
      exact ⟨u.modelResult 1, (exec_modelAdd up).trans (by rw [adds]), by rw [at']; rfl, by rw [at']; rfl, by rw [at']; rfl, by rw [at']; rfl, others, shown.1,
        shown.2, jobs⟩
    · intro near there staying
      have removes : s.removeModel m = (s.setModel m { s.model m with st := .removing }).modelResult 1 := by
        rw [State.removeModel, if_neg (by omega)]; dsimp only
        rw [if_neg (by simp [there, staying])]
      obtain ⟨here, others, jobs, -⟩ := setModel_spec s m { s.model m with st := .removing }
      have shown := modelResult_spec (s.setModel m { s.model m with st := .removing }) (r := 1) (by decide)
      generalize s.setModel m { s.model m with st := .removing } = u at *
      exact ⟨u.modelResult 1, (exec_modelRemove up).trans (by rw [removes]), here, others, shown.1, shown.2, jobs⟩
  case removed =>
    intro s m removing idle
    have unused : s.modelInUse m = false := by
      refine List.any_eq_false.2 fun j hj => ?_
      by_cases run : j.kind = .run
      · simp [idle j hj run]
      · simp [run]
    have run : exec (.modelRemoved m) s = .next ((s.endLoad m).setModel m {}) := by
      change execModelRemoved m s = _
      rw [execModelRemoved, if_pos (by simp [removing, unused])]
    obtain ⟨models, jobs, -⟩ := endLoad_spec s m
    obtain ⟨here, others, jobs', -⟩ := setModel_spec (s.endLoad m) m {}
    exact ⟨_, run, here, fun k other => (others k other).trans (by rw [State.model, models]; rfl), jobs'.trans jobs⟩
  case loaded =>
    intro s m live state few blocks
    have run : exec (.modelLoadDone m) s = .next ((s.endLoad m).setModel m { s.model m with
        st := if (s.model m).st = .loading then .resident else .removing, toLoad := [] }) := by
      change execModelLoadDone m s = _
      rw [execModelLoadDone]; dsimp only
      rw [if_pos (by simpa [live_of_Live live, few, state] using blocks)]
      rcases state with loading | removing
      · simp [loading]
      · simp [removing]
    obtain ⟨models, jobs, freed⟩ := endLoad_spec s m
    obtain ⟨here, others, jobs', streams⟩ := setModel_spec (s.endLoad m) m { s.model m with
      st := if (s.model m).st = .loading then .resident else .removing, toLoad := [] }
    refine ⟨_, run, here, fun k other => (others k other).trans (by rw [State.model, models]; rfl), jobs'.trans jobs, fun n loads => ?_⟩
    rw [State.stream, streams]
    exact freed n loads
  case admission =>
    intro s up
    have stop : exec .admissionStop s = .next (s.admissionCtl true) := by
      change execAdmissionStop s = _; rw [execAdmissionStop, hostDo_of_HostUp up]
    have start : exec .admissionStart s = .next (s.admissionCtl false) := by
      change execAdmissionStart s = _; rw [execAdmissionStart, hostDo_of_HostUp up]
    have keeps (t : State) (same : t.flds = s.flds) (v w : Nat) : KeepsFieldsBut s ((t.put HMR_ADMIT_CTL_STOP 0 v).put HMR_ADMIT_CTL_DRAINED 0 w)
        [HMR_ADMIT_CTL_STOP.key 0, HMR_ADMIT_CTL_DRAINED.key 0] :=
      keepsFieldsBut_put_listed (keepsFieldsBut_put_listed (keepsFieldsBut_same same _) (by simp) v) (by simp) w
    refine ⟨?_, ?_, ?_⟩
    · have ctl : s.admissionCtl true = (({ s with fetched := s.fetched.map fun (f : Fetched) => { f with due := false } } : State).put
          HMR_ADMIT_CTL_STOP 0 1).put HMR_ADMIT_CTL_DRAINED 0 (if s.jobs = [] then 1 else 0) := by
        unfold State.admissionCtl State.drained State.flag; dsimp only
        rw [if_neg (by simp), State.get_put_self]
        have empty : ∀ u : State, u.jobs = s.jobs → b2n (decide (b2n true % 2 ^ HMR_ADMIT_CTL_STOP.width ≠ 0) && u.jobs.isEmpty) =
            if s.jobs = [] then 1 else 0 := by
          intro u same
          rw [same]
          cases s.jobs <;> rfl
        simp only [Bool.not_true, Bool.and_false]
        exact congrArg (State.put _ HMR_ADMIT_CTL_DRAINED 0) (empty _ rfl)
      rw [ctl] at stop
      refine ⟨_, stop, ?_, ?_, keeps _ rfl _ _, rfl⟩
      · exact (State.get_put_other (by decide) ..).trans (by simp; decide)
      · by_cases empty : s.jobs = []
        · simp [empty]; decide
        · simp [empty]
    · intro serves
      have ctl : s.admissionCtl false = (s.put HMR_ADMIT_CTL_STOP 0 0).put HMR_ADMIT_CTL_DRAINED 0 0 := by
        have kept : (s.fetched.map fun (f : Fetched) => { f with due := f.due && !false }) = s.fetched :=
          (List.map_congr_left fun f _ => by simp).trans (List.map_id _)
        unfold State.admissionCtl State.drained State.flag; dsimp only
        rw [if_neg (by simp [serves]), State.get_put_self, kept]
        rfl
      rw [ctl] at start
      refine ⟨_, start, ?_, ?_, keeps s rfl _ _, rfl⟩
      · exact (State.get_put_other (by decide) ..).trans (by simp)
      · simp
    · intro idle
      rw [start, State.admissionCtl, if_pos (by simp [idle])]
  case drained =>
    intro s stopped empty
    change execAdmissionDrained s = _
    rw [execAdmissionDrained, if_pos (by simp [State.drained, State.flag, stopped, empty])]

end Sys2Proof.Safety
end


section
/-! SUPPORT. Entries of the history directory (Table 09.2) and the effects of history sections (R382 to R394). -/

namespace Sys2Proof.Machine

open Sys2Proof.Safety

/-! ### Numbers written and read back -/

theorem leNat_append (a b : List Byte) : leNat (a ++ b) = leNat a + 2 ^ (8 * a.length) * leNat b := by
  induction a with
  | nil => simp [leNat]
  | cons x a ih =>
    rw [List.cons_append, leNat, leNat, ih, List.length_cons, Nat.mul_succ, Nat.pow_add]
    ring

theorem leNat_leBytes (n v : Nat) : leNat (leBytes n v) = v % 2 ^ (8 * n) := by
  induction n generalizing v with
  | zero => simp [leBytes, leNat, Nat.mod_one]
  | succ n ih =>
    rw [leBytes, leNat, ih, Nat.mul_succ, Nat.add_comm (8 * n) 8, Nat.pow_add, Nat.mod_mul]
    simp

theorem leNat_lt (bs : List Byte) : leNat bs < 2 ^ (8 * bs.length) := by
  induction bs with
  | nil => simp [leNat]
  | cons b bs ih =>
    have byte := b.isLt
    rw [leNat, List.length_cons, Nat.mul_succ, Nat.pow_add]
    omega

/-- Fields above the low ones. -/
theorem bits_above {a k : Nat} (low : a < 2 ^ k) (b lo n : Nat) : bits (a + 2 ^ k * b) (k + lo) n = bits b lo n := by
  unfold bits
  rw [Nat.pow_add, ← Nat.div_div_eq_div_mul, Nat.add_mul_div_left _ _ (Nat.two_pow_pos k), Nat.div_eq_of_lt low, Nat.zero_add]

/-- A field of the low ones. -/
theorem bits_low {n k : Nat} (within : n ≤ k) (a b : Nat) : bits (a + 2 ^ k * b) 0 n = a % 2 ^ n := by
  rw [bits_zero]
  obtain ⟨d, rfl⟩ := Nat.exists_eq_add_of_le within
  rw [Nat.pow_add, Nat.mul_assoc, Nat.add_mul_mod_self_left]

theorem num_poke_self {s : State} (unveiled : s.veiled = []) (a : Nat) (bs : List Byte) : (s.poke a bs).num a bs.length = leNat bs := by
  have veiled : (s.poke a bs).veiled = [] := by unfold State.poke; rw [pokeBytes_eq]; exact unveiled
  unfold State.num
  rw [bytes_unveiled veiled]
  congr 1
  refine List.ext_getElem (by simp) fun i h h' => ?_
  rw [List.getElem_map, List.getElem_range]
  unfold State.poke
  rw [memAt_pokeBytes unveiled, if_pos (by omega)]
  simp [View.apply, List.getD, h']

/-! ### Directory entries -/

/-- The 32 bytes of an entry. -/
def HEntry.bytes (e : HEntry) : List Byte :=
  leBytes 4 e.gen ++ (leBytes 1 e.st ++ (leBytes 1 e.locality ++ (leBytes 2 e.model ++
    (leBytes 8 e.events ++ (leBytes 4 e.first ++ (leBytes 4 e.frames ++ leBytes 8 e.index))))))

theorem HEntry.length_bytes (e : HEntry) : e.bytes.length = 32 := by simp [HEntry.bytes]

section
variable {s : State} {h : Nat}

theorem putHist_eq (s : State) (h : Nat) (e : HEntry) : s.putHist h e = s.poke (s.histAddr h) e.bytes := by
  unfold State.putHist HEntry.bytes
  simp only [List.append_assoc]

theorem putHist_frame (s : State) (h : Nat) (e : HEntry) : s.putHist h e = { s with mem := (s.putHist h e).mem } := by
  rw [putHist_eq]; exact pokeBytes_eq ..

/-- An entry as it reads back: each field at its width (Table 09.2). -/
def HEntry.stored (e : HEntry) : HEntry :=
  ⟨e.gen % 2 ^ 32, e.st % 2 ^ 8, e.locality % 2 ^ 2, e.model % 2 ^ 16, e.events % 2 ^ 40, e.first % 2 ^ 32, e.frames % 2 ^ 32, e.index % 2 ^ 48⟩

/-- The fields of a word that is put together from parts of the widths of Table 09.2. -/
theorem fields_of_parts {gen st locality model events first frames : Nat} (index : Nat) (gen_lt : gen < 2 ^ 32) (st_lt : st < 2 ^ 8)
    (locality_lt : locality < 2 ^ 8) (model_lt : model < 2 ^ 16) (events_lt : events < 2 ^ 64) (first_lt : first < 2 ^ 32) (frames_lt : frames < 2 ^ 32)
    {w : Nat} (parts : w = gen + 2 ^ 32 * (st + 2 ^ 8 * (locality + 2 ^ 8 * (model + 2 ^ 16 *
      (events + 2 ^ 64 * (first + 2 ^ 32 * (frames + 2 ^ 32 * index))))))) :
    (HEntry.mk (bits w 0 32) (bits w 32 8) (bits w 40 2) (bits w 48 16) (bits w 64 40) (bits w 128 32) (bits w 160 32) (bits w 192 48)) =
      ⟨gen % 2 ^ 32, st % 2 ^ 8, locality % 2 ^ 2, model % 2 ^ 16, events % 2 ^ 40, first % 2 ^ 32, frames % 2 ^ 32, index % 2 ^ 48⟩ := by
  rw [HEntry.mk.injEq]
  subst parts
  have past (lo n x : Nat) := bits_above gen_lt x lo n
  have pastSt (lo n x : Nat) := bits_above st_lt x lo n
  have pastLocality (lo n x : Nat) := bits_above locality_lt x lo n
  have pastModel (lo n x : Nat) := bits_above model_lt x lo n
  have pastEvents (lo n x : Nat) := bits_above events_lt x lo n
  have pastFirst (lo n x : Nat) := bits_above first_lt x lo n
  have pastFrames (lo n x : Nat) := bits_above frames_lt x lo n
  refine ⟨bits_low (by decide) .., ?_, ?_, ?_, ?_, ?_, ?_, ?_⟩
  · rw [past 0]; exact bits_low (by decide) ..
  · rw [past 8, pastSt 0]; exact bits_low (by decide) ..
  · rw [past 16, pastSt 8, pastLocality 0]; exact bits_low (by decide) ..
  · rw [past 32, pastSt 24, pastLocality 16, pastModel 0]; exact bits_low (by decide) ..
  · rw [past 96, pastSt 88, pastLocality 80, pastModel 64, pastEvents 0]; exact bits_low (by decide) ..
  · rw [past 128, pastSt 120, pastLocality 112, pastModel 96, pastEvents 32, pastFirst 0]; exact bits_low (by decide) ..
  · rw [past 160, pastSt 152, pastLocality 144, pastModel 128, pastEvents 64, pastFirst 32, pastFrames 0]; exact bits_zero ..

theorem HEntry.leNat_bytes (e : HEntry) : leNat e.bytes = e.gen % 2 ^ 32 + 2 ^ 32 * (e.st % 2 ^ 8 + 2 ^ 8 * (e.locality % 2 ^ 8 + 2 ^ 8 * (e.model % 2 ^ 16 +
    2 ^ 16 * (e.events % 2 ^ 64 + 2 ^ 64 * (e.first % 2 ^ 32 + 2 ^ 32 * (e.frames % 2 ^ 32 + 2 ^ 32 * (e.index % 2 ^ 64))))))) := by
  have leaf (n v : Nat) (rest : List Byte) : leNat (leBytes n v ++ rest) = v % 2 ^ (8 * n) + 2 ^ (8 * n) * leNat rest := by
    rw [leNat_append, leNat_leBytes, length_leBytes]
  rw [HEntry.bytes, leaf 4, leaf 1, leaf 1, leaf 2, leaf 8, leaf 4, leaf 4, leNat_leBytes]

theorem num_putHist (unveiled : s.veiled = []) (e : HEntry) : (s.putHist h e).num (s.histAddr h) 32 = leNat e.bytes := by
  have back : (s.putHist h e).num (s.histAddr h) e.bytes.length = leNat e.bytes := by
    rw [putHist_eq]; exact num_poke_self unveiled _ _
  exact (congrArg ((s.putHist h e).num (s.histAddr h)) e.length_bytes.symm).trans back

theorem HEntry.fields_bytes (e : HEntry) {w : Nat} (word : w = leNat e.bytes) :
    HEntry.mk (bits w 0 32) (bits w 32 8) (bits w 40 2) (bits w 48 16) (bits w 64 40) (bits w 128 32) (bits w 160 32) (bits w 192 48) = e.stored := by
  have low (v k : Nat) : v % 2 ^ k < 2 ^ k := Nat.mod_lt _ (Nat.two_pow_pos k)
  have cut {n k : Nat} (v : Nat) (within : n ≤ k) : v % 2 ^ k % 2 ^ n = v % 2 ^ n := Nat.mod_mod_of_dvd _ (Nat.pow_dvd_pow 2 within)
  refine (fields_of_parts _ (low _ 32) (low _ 8) (low _ 8) (low _ 16) (low _ 64) (low _ 32) (low _ 32) (word.trans e.leNat_bytes)).trans ?_
  unfold HEntry.stored
  rw [cut _ (show 2 ≤ 8 by decide), cut _ (show 40 ≤ 64 by decide), cut _ (show 48 ≤ 64 by decide), Nat.mod_mod, Nat.mod_mod, Nat.mod_mod,
    Nat.mod_mod, Nat.mod_mod]

theorem histAddr_mem (s : State) (m : Tab Byte) (h : Nat) : { s with mem := m }.histAddr h = s.histAddr h := rfl

theorem histAddr_putHist (s : State) (h k : Nat) (e : HEntry) : (s.putHist h e).histAddr k = s.histAddr k := by
  rw [putHist_frame, histAddr_mem]

theorem hist_putHist (unveiled : s.veiled = []) (e : HEntry) : (s.putHist h e).hist h = e.stored := by
  have num := num_putHist (h := h) unveiled e
  rw [← histAddr_putHist s h h e] at num
  exact e.fields_bytes num

theorem hist_stored (s : State) (h : Nat) : (s.hist h).stored = s.hist h := by
  unfold State.hist HEntry.stored bits
  simp only [Nat.mod_mod]

theorem stored_of_fits {e : HEntry} (gen : e.gen < 2 ^ 32) (st : e.st < 2 ^ 8) (locality : e.locality < 2 ^ 2) (model : e.model < 2 ^ 16)
    (events : e.events < 2 ^ 40) (first : e.first < 2 ^ 32) (frames : e.frames < 2 ^ 32) (index : e.index < 2 ^ 48) : e.stored = e := by
  obtain ⟨g, x, l, m, n, c, f, i⟩ := e
  exact (HEntry.mk.injEq ..).mpr ⟨Nat.mod_eq_of_lt gen, Nat.mod_eq_of_lt st, Nat.mod_eq_of_lt locality, Nat.mod_eq_of_lt model,
    Nat.mod_eq_of_lt events, Nat.mod_eq_of_lt first, Nat.mod_eq_of_lt frames, Nat.mod_eq_of_lt index⟩

/-- The fields of an entry that is read fit their widths. -/
theorem hist_fits (s : State) (h : Nat) : (s.hist h).gen < 2 ^ 32 ∧ (s.hist h).st < 2 ^ 8 ∧ (s.hist h).locality < 2 ^ 2 ∧ (s.hist h).model < 2 ^ 16 ∧
    (s.hist h).events < 2 ^ 40 ∧ (s.hist h).first < 2 ^ 32 ∧ (s.hist h).frames < 2 ^ 32 ∧ (s.hist h).index < 2 ^ 48 := by
  have low (v k : Nat) : v % 2 ^ k < 2 ^ k := Nat.mod_lt _ (Nat.two_pow_pos k)
  exact ⟨low _ 32, low _ 8, low _ 2, low _ 16, low _ 40, low _ 32, low _ 32, low _ 48⟩

/-- Changing the state of an entry changes nothing else of it. -/
theorem hist_putHist_st (unveiled : s.veiled = []) {st : Nat} (st_lt : st < 2 ^ 8) (t : State) (k : Nat) :
    (s.putHist h { t.hist k with st := st }).hist h = { t.hist k with st := st } := by
  obtain ⟨gen, -, locality, model, events, first, frames, index⟩ := hist_fits t k
  rw [hist_putHist unveiled, stored_of_fits (by exact gen) st_lt (by exact locality) (by exact model) (by exact events) (by exact first)
    (by exact frames) (by exact index)]

theorem veiled_putHist (s : State) (h : Nat) (e : HEntry) : (s.putHist h e).veiled = s.veiled := by rw [putHist_frame]

end

/-- Only the memory of a directory entry changes. -/
structure EntryOnly (h : Nat) (s t : State) : Prop where
  frame : t = { s with mem := t.mem }
  keeps : KeepsMemBut s t (s.histAddr h) 32

theorem EntryOnly.exists_mem {h : Nat} {s t : State} (only : EntryOnly h s t) : ∃ m, t = { s with mem := m } := ⟨_, only.frame⟩

theorem EntryOnly.trans {h : Nat} {s t w : State} (first : EntryOnly h s t) (second : EntryOnly h t w) : EntryOnly h s w := by
  have frame : w = { s with mem := w.mem } := by
    have outer := second.frame
    rw [first.frame] at outer
    exact outer
  have addr : t.histAddr h = s.histAddr h := by rw [first.frame, histAddr_mem]
  exact ⟨frame, fun x outside => (second.keeps x (by rw [addr]; exact outside)).trans (first.keeps x outside)⟩

theorem entryOnly_putHist {s : State} (unveiled : s.veiled = []) (h : Nat) (e : HEntry) : EntryOnly h s (s.putHist h e) := by
  refine ⟨putHist_frame .., fun x outside => ?_⟩
  rw [putHist_eq]
  unfold State.poke
  rw [memAt_pokeBytes unveiled, if_neg (by rw [e.length_bytes]; exact outside)]

/-! ### A section takes effect -/

theorem endFailedHists_none {s : State} (none : ∀ x ∈ s.jobs, ∀ v, x.hist = some v → v.failed = false) : s.endFailedHists = s := by
  unfold State.endFailedHists
  rw [List.filter_eq_nil_iff.mpr, List.foldl_nil]
  intro x mine fails
  obtain ⟨v, has, failed⟩ := (Option.any_eq_true _ _).mp fails
  rw [none x mine v has] at failed
  exact absurd failed (by decide)

section
variable {s : State} {j : Job} {u : HistUse} {rest : List Job}

theorem pending_of_head (first : s.pendingHists = j :: rest) (use : j.hist = some u) : j ∈ s.jobs ∧ u.begun = false := by
  have mine : j ∈ s.pendingHists := by rw [first]; exact List.mem_cons_self
  obtain ⟨mine, pending⟩ := List.mem_filter.mp mine
  rw [use] at pending
  exact ⟨mine, by simpa using pending⟩

theorem histStep_head {op : Nat} (first : s.pendingHists = j :: rest) (use : j.hist = some u) (kind : u.op = op) :
    s.histStep j.id op = ((s.histBegin u j.model (s.get HST_RING_CFG_PORT j.ring)).2.putJob
      { j with hist := some (s.histBegin u j.model (s.get HST_RING_CFG_PORT j.ring)).1 }).endFailedHists := by
  have fresh := (pending_of_head first use).2
  unfold State.histStep State.beginHist
  rw [first, List.head?_cons]
  dsimp only
  rw [use]
  dsimp only
  rw [if_pos (by simp [kind]), fresh, if_neg Bool.false_ne_true]

/-- A section that fails at no index page only takes its effect. -/
theorem histStep_sound {op : Nat} (first : s.pendingHists = j :: rest) (use : j.hist = some u) (kind : u.op = op)
    (none : ∀ x ∈ s.jobs, ∀ v, x.hist = some v → v.failed = false) {v : HistUse} {t : State}
    (effect : s.histBegin u j.model (s.get HST_RING_CFG_PORT j.ring) = (v, t)) (sound : v.failed = u.failed) (jobs : t.jobs = s.jobs) :
    s.histStep j.id op = t.putJob { j with hist := some v } := by
  rw [histStep_head first use kind, effect]
  refine endFailedHists_none fun x mine w has => ?_
  change x ∈ t.jobs.map _ at mine
  rw [jobs] at mine
  obtain ⟨y, old, rfl⟩ := List.mem_map.mp mine
  split at has
  · obtain rfl := Option.some.inj has
    exact sound.trans (none j (pending_of_head first use).1 u use)
  · exact none y old w has

end

/-! Without a bad index word a section has the effect of its operation. -/

section
variable {s : State} {u : HistUse} (m p : Nat)

theorem histBegin_read (kind : u.op = 0) : s.histBegin u m p = s.histRead u := by
  have none : s.badIndexWords (s.sectionReads u) = [] := by unfold State.sectionReads; rw [kind]; rfl
  unfold State.histBegin
  rw [none, kind]; rfl

theorem histBegin_append (kind : u.op = 1) (good : s.badIndexWords (s.sectionReads u) = []) : s.histBegin u m p = s.histAppend u p := by
  unfold State.histBegin
  rw [good, kind]; rfl

theorem histBegin_create (kind : u.op = 2) : s.histBegin u m p = s.histCreate u m p := by
  have none : s.badIndexWords (s.sectionReads u) = [] := by unfold State.sectionReads; rw [kind]; rfl
  unfold State.histBegin
  rw [none, kind]; rfl

theorem histBegin_trim (kind : u.op = 3) (good : s.badIndexWords (s.sectionReads u) = []) : s.histBegin u m p = s.histTrim u := by
  unfold State.histBegin
  rw [good, kind]; rfl

theorem histBegin_release (kind : u.op = 4) : s.histBegin u m p = s.histRelease u := by
  have none : s.badIndexWords (s.sectionReads u) = [] := by unfold State.sectionReads; rw [kind]; rfl
  unfold State.histBegin
  rw [none, kind]; rfl

theorem histBegin_damaged (bad : s.badIndexWords (s.sectionReads u) ≠ []) : s.histBegin u m p =
    ({ u with begun := true, l0 := (s.hist u.hist).events, failed := true },
     (s.memError { bad := s.badIndexWords (s.sectionReads u) } none).putHist u.hist { s.hist u.hist with st := hDamaged }) := by
  unfold State.histBegin
  exact if_pos (by simpa using bad)

end

/-! ### Appends -/

section
variable {s : State} {u : HistUse}

/-- An append that needs no frame only makes the entry APPENDING. -/
theorem beginAppend_none (die : Option Nat) {l0 : Nat} (none : newFrames l0 u.n = 0) : s.beginAppend u l0 die =
    ({ u with begun := true, l0 := l0, taken := [], pages := [], steps := chunkSteps l0 u.n, opened := decide (u.n > 0) },
     let t := s.putHist u.hist { s.hist u.hist with st := hAppending }
     let t := t.putHist u.hist { t.hist u.hist with frames := (t.hist u.hist).frames }
     if u.n == 0 then { t with appended := t.appended ++ [⟨u.hist, l0⟩] } else t) := by
  unfold State.beginAppend
  rw [none]
  rfl

/-- An append of events that needs no frame only makes the entry APPENDING. -/
theorem histAppend_none (unveiled : s.veiled = []) (p : Nat) (none : newFrames (s.hist u.hist).events u.n = 0) (some : 0 < u.n) :
    s.histAppend u p = (
      { u with
        begun := true, l0 := (s.hist u.hist).events, taken := [], pages := [], steps := chunkSteps (s.hist u.hist).events u.n, opened := true },
      (s.putHist u.hist { s.hist u.hist with st := hAppending }).putHist u.hist { s.hist u.hist with st := hAppending }) := by
  unfold State.histAppend
  rw [beginAppend_none _ none]
  dsimp only
  rw [if_neg (by simp; omega), hist_putHist_st unveiled (by decide), decide_eq_true some]

theorem newFrames_zero (l0 : Nat) : newFrames l0 0 = 0 := Nat.sub_self _

/-- Creating an entry with no events writes the entry. -/
theorem histCreate_none (unveiled : s.veiled = []) {m : Nat} (p : Nat) (none : u.n = 0) (gen : u.gen < 2 ^ 32) (locality : u.locality < 4)
    (model : m < 2 ^ 16) :
    let e : HEntry := ⟨u.gen, hAppending, u.locality, m, 0, 0, 0, 0⟩
    let t := ((s.putHist u.hist e).putHist u.hist e).putHist u.hist e
    (s.putHist u.hist e).hist u.hist = e ∧ (t.hist u.hist = e) ∧
    s.histCreate u m p = ({ u with begun := true, l0 := 0, taken := [], pages := [], steps := [], opened := false },
      { t with appended := t.appended ++ [⟨u.hist, 0⟩] }) := by
  intro e t
  have fits : e.stored = e := stored_of_fits gen (show 2 < 2 ^ 8 by decide) locality model (show 0 < 2 ^ 40 by decide) (show 0 < 2 ^ 32 by decide)
      (show 0 < 2 ^ 32 by decide) (show 0 < 2 ^ 48 by decide)
  have back {s : State} (unveiled : s.veiled = []) : (s.putHist u.hist e).hist u.hist = e := (hist_putHist unveiled e).trans fits
  have one := (veiled_putHist s u.hist e).trans unveiled
  have two := (veiled_putHist _ u.hist e).trans one
  refine ⟨back unveiled, back two, ?_⟩
  unfold State.histCreate
  rw [beginAppend_none _ (by rw [none]; rfl)]
  have same : { e with st := hAppending } = e := rfl
  dsimp only
  rw [back unveiled, same, back one, if_pos (by simpa using none), none]
  rfl

/-- One frame of either die that an index page covers: the frame at the front of the pool. -/
theorem growIndex_one {h c f : Nat} {fs : List Nat} (free : s.freeFrames = f :: fs) (some : (s.hist h).events ≠ 0) (covered : c % 8191 ≠ 0) :
    ∃ m, s.growIndex h none 1 c [] [] = ([(c, f)], [], { s with freeFrames := fs, mem := m }) := by
  have take : s.takeFrame none = Option.some (f, { s with freeFrames := fs }) := by
    unfold State.takeFrame
    rw [free]
    simp
  have same : ({ s with freeFrames := fs }).hist h = s.hist h := rfl
  rw [State.growIndex, take]
  dsimp only
  rw [if_neg (by simpa [same] using some), if_neg (by simpa using covered), State.growIndex]
  exact ⟨_, congrArg (fun t : State => ([(c, f)], [], t)) (pokeBytes_eq ..)⟩

/-- An append that needs one frame of either die, covered by an index page, takes the frame at the front of the pool. -/
theorem histAppend_one (unveiled : s.veiled = []) {p f : Nat} {fs : List Nat} (one : newFrames (s.hist u.hist).events u.n = 1)
    (die : localityDie (s.hist u.hist).locality p = none) (some : (s.hist u.hist).events ≠ 0) (covered : ceilDiv (s.hist u.hist).events 512 % 8191 ≠ 0)
    (free : s.freeFrames = f :: fs) : ∃ m, s.histAppend u p = (
      { u with
        begun := true, l0 := (s.hist u.hist).events, taken := [(ceilDiv (s.hist u.hist).events 512, f)], pages := [],
        steps := chunkSteps (s.hist u.hist).events u.n, opened := true },
      { s with freeFrames := fs, mem := m }) := by
  have positive : 0 < u.n := Nat.pos_of_ne_zero fun zero => by rw [zero, newFrames_zero] at one; exact absurd one (by decide)
  have entry := hist_putHist_st (h := u.hist) unveiled (show hAppending < 2 ^ 8 by decide) s u.hist
  have begun := putHist_frame s u.hist { s.hist u.hist with st := hAppending }
  obtain ⟨m, grow⟩ := growIndex_one (s := s.putHist u.hist { s.hist u.hist with st := hAppending }) (h := u.hist)
    (c := ceilDiv (s.hist u.hist).events 512) (by rw [begun]; exact free) (by rw [entry]; exact some) covered
  unfold State.histAppend State.beginAppend
  dsimp only
  rw [die, one, grow]
  dsimp only
  rw [if_neg (by simp; omega), decide_eq_true positive]
  rw [putHist_frame, begun]
  exact ⟨_, rfl⟩


/-- What a TRIM leaves in front of the chunk of the last event is a chunk number. -/
theorem trimmed_fits (s : State) (h n : Nat) : (s.hist h).first + (s.hist h).trimmed n < 2 ^ 32 := by
  obtain ⟨-, -, -, -, events, first, -, -⟩ := hist_fits s h
  unfold HEntry.trimmed
  split <;> omega

theorem hist_putHist_place {h : Nat} (unveiled : s.veiled = []) (t : State) (k : Nat) {first frames : Nat} (index : Nat) (first_lt : first < 2 ^ 32)
    (frames_lt : frames < 2 ^ 32) : (s.putHist h { t.hist k with first := first, frames := frames, index := index }).hist h =
      { t.hist k with first := first, frames := frames, index := index % 2 ^ 48 } := by
  obtain ⟨gen, st, locality, model, events, -, -, -⟩ := hist_fits t k
  rw [hist_putHist unveiled]
  exact (HEntry.mk.injEq ..).mpr ⟨Nat.mod_eq_of_lt gen, Nat.mod_eq_of_lt st, Nat.mod_eq_of_lt locality, Nat.mod_eq_of_lt model,
    Nat.mod_eq_of_lt events, Nat.mod_eq_of_lt first_lt, Nat.mod_eq_of_lt frames_lt, rfl⟩

theorem histTrim_spec (s : State) (u : HistUse) : ∃ index pages, s.histTrim u =
    ({ u with begun := true, l0 := (s.hist u.hist).events },
     let t := s.putHist u.hist { s.hist u.hist with
       first := (s.hist u.hist).first + (s.hist u.hist).trimmed u.trim, frames := (s.hist u.hist).frames - (s.hist u.hist).trimmed u.trim, index := index }
     { t with deferred := t.deferred ++ [⟨u.hist, s.chunkFrames (s.hist u.hist) (s.hist u.hist).first ((s.hist u.hist).trimmed u.trim), pages,
       s.histReaders u.hist⟩] }) :=
  ⟨_, _, rfl⟩

end

end Sys2Proof.Machine
end

section
/-! Settling O43. -/

namespace Sys2Proof.Safety

open Sys2Proof.Machine

/-- Settles O43: each section's effect as `histBegin` gives it, and the entry read back from the 32 bytes that it wrote. -/
theorem historySectionsTakeEffect : Obligations.HistorySectionsTakeEffect := by
  unfold Obligations.HistorySectionsTakeEffect
  intro s j u rest live first use unveiled none h e jobs bad
  have alive := live_of_Live live
  refine ⟨?damaged, ?read, ?append, ?frame, ?create, ?trim, ?release⟩
  case damaged =>
    intro some kind
    rcases kind with kind | kind
    · rw [if_pos kind]
      change execHistoryAppend j.id s = _
      rw [execHistoryAppend, if_pos alive, histStep_head first use kind, histBegin_damaged _ _ some]
    · rw [if_neg (by rw [kind]; decide)]
      change execHistoryTrim j.id s = _
      rw [execHistoryTrim, if_pos alive, histStep_head first use kind, histBegin_damaged _ _ some]
  case read =>
    intro kind
    change execHistoryRead j.id s = _
    rw [execHistoryRead, if_pos alive, histStep_sound first use kind none (histBegin_read _ _ kind) rfl rfl]
    simp only [beq_iff_eq]
    rfl
  case append =>
    intro kind good fits some
    have run : exec (.historyAppend j.id) s = .next (s.histStep j.id 1) := if_pos alive
    have effect := (histBegin_append j.model (s.get HST_RING_CFG_PORT j.ring) kind good).trans (histAppend_none unveiled _ fits some)
    have once := entryOnly_putHist unveiled u.hist { s.hist u.hist with st := hAppending }
    have veiled := (veiled_putHist s u.hist { s.hist u.hist with st := hAppending }).trans unveiled
    have only := once.trans (entryOnly_putHist veiled u.hist { s.hist u.hist with st := hAppending })
    have back := hist_putHist_st (h := u.hist) veiled (show hAppending < 2 ^ 8 by decide) s u.hist
    generalize (s.putHist u.hist { s.hist u.hist with st := hAppending }).putHist u.hist { s.hist u.hist with st := hAppending } = t at effect only back
    obtain ⟨m, rfl⟩ := only.exists_mem
    exact ⟨_, run.trans (congrArg Host.Outcome.next (histStep_sound first use kind none effect rfl rfl)), back, only.keeps, rfl, rfl⟩
  case frame =>
    intro f fs kind good one die more covered free
    have run : exec (.historyAppend j.id) s = .next (s.histStep j.id 1) := if_pos alive
    obtain ⟨m, effect⟩ := histAppend_one unveiled one die more covered free
    have effect := (histBegin_append j.model (s.get HST_RING_CFG_PORT j.ring) kind good).trans effect
    exact ⟨_, run.trans (congrArg Host.Outcome.next (histStep_sound first use kind none effect rfl rfl)), rfl, rfl, rfl, rfl, rfl⟩
  case create =>
    intro kind no gen locality model
    have run : exec (.historyCreate j.id) s = .next (s.histStep j.id 2) := if_pos alive
    obtain ⟨-, back, effect⟩ := histCreate_none unveiled (s.get HST_RING_CFG_PORT j.ring) no gen locality model
    have effect := (histBegin_create j.model (s.get HST_RING_CFG_PORT j.ring) kind).trans effect
    have veiled {t : State} (e : HEntry) (open' : t.veiled = []) := (veiled_putHist t u.hist e).trans open'
    have only := (entryOnly_putHist unveiled u.hist ⟨u.gen, hAppending, u.locality, j.model, 0, 0, 0, 0⟩).trans
      ((entryOnly_putHist (veiled _ unveiled) u.hist ⟨u.gen, hAppending, u.locality, j.model, 0, 0, 0, 0⟩).trans
        (entryOnly_putHist (veiled _ (veiled _ unveiled)) u.hist ⟨u.gen, hAppending, u.locality, j.model, 0, 0, 0, 0⟩))
    generalize ((s.putHist u.hist ⟨u.gen, hAppending, u.locality, j.model, 0, 0, 0, 0⟩).putHist u.hist _).putHist u.hist _ = t at back effect only
    obtain ⟨m, rfl⟩ := only.exists_mem
    exact ⟨_, run.trans (congrArg Host.Outcome.next (histStep_sound first use kind none effect rfl rfl)), back, only.keeps, rfl, rfl, rfl⟩
  case trim =>
    intro kind good
    have run : exec (.historyTrim j.id) s = .next (s.histStep j.id 3) := if_pos alive
    have effect := histBegin_trim j.model (s.get HST_RING_CFG_PORT j.ring) kind good
    obtain ⟨index, pages, trim⟩ := histTrim_spec s u
    rw [trim] at effect
    obtain ⟨-, -, -, -, -, -, frames, -⟩ := hist_fits s u.hist
    have only := entryOnly_putHist unveiled u.hist { s.hist u.hist with
      first := (s.hist u.hist).first + (s.hist u.hist).trimmed u.trim, frames := (s.hist u.hist).frames - (s.hist u.hist).trimmed u.trim, index := index }
    have back := hist_putHist_place (h := u.hist) unveiled s u.hist index (trimmed_fits s u.hist u.trim)
      (show (s.hist u.hist).frames - (s.hist u.hist).trimmed u.trim < 2 ^ 32 by omega)
    generalize s.putHist u.hist _ = t at effect only back
    obtain ⟨m, rfl⟩ := only.exists_mem
    refine ⟨_, run.trans (congrArg Host.Outcome.next (histStep_sound first use kind none effect rfl rfl)), ?_⟩
    have same : min u.trim ((if e.events = 0 then e.first else (e.events - 1) / 512) - e.first) = (s.hist u.hist).trimmed u.trim := by
      unfold HEntry.trimmed
      simp only [beq_iff_eq]
      rfl
    rw [same]
    exact ⟨(congrArg HEntry.first back :), (congrArg HEntry.frames back :), (congrArg HEntry.events back :), (congrArg HEntry.st back :), (congrArg HEntry.gen back :),
      only.keeps, ⟨_, rfl, rfl, rfl, rfl⟩, rfl, rfl⟩
  case release =>
    intro kind
    have run : exec (.historyRelease j.id) s = .next (s.histStep j.id 4) := if_pos alive
    have effect := histBegin_release (s := s) j.model (s.get HST_RING_CFG_PORT j.ring) kind.symm
    unfold State.histRelease at effect
    dsimp only at effect
    have only := entryOnly_putHist unveiled u.hist { s.hist u.hist with st := hReleasing }
    have back := hist_putHist_st (h := u.hist) unveiled (show hReleasing < 2 ^ 8 by decide) s u.hist
    generalize s.putHist u.hist { s.hist u.hist with st := hReleasing } = t at effect only back
    obtain ⟨m, rfl⟩ := only.exists_mem
    exact ⟨_, run.trans (congrArg Host.Outcome.next (histStep_sound first use kind.symm none effect rfl rfl)), back, only.keeps, rfl, rfl⟩

end Sys2Proof.Safety
end


section
/-! SUPPORT. Histories between sections: frames that return, chunk steps and their ends, and the function's start. -/

namespace Sys2Proof.Machine

open Sys2Proof.Safety

/-! ### Frames that return (R376, R394) -/

section
variable {s : State}

theorem deferredFree_iff (d : Deferred) : s.deferredFree d = true ↔ ∀ j ∈ d.readers, ∀ x ∈ s.jobs, x.id ≠ j := by
  unfold State.deferredFree State.admittedJob
  simp

/-- Frames all of whose pages are free. -/
def State.wholeFrames (s : State) : List Nat :=
  ((s.indexPages.map fun p => s.frameOf p).dedup).filter fun f => decide ((s.indexPages.filter fun p => s.frameOf p == f).length ≥ 32)

theorem gatherPages_eq (s : State) : s.gatherPages = { s with
    freeFrames := s.freeFrames ++ s.wholeFrames, indexPages := s.indexPages.filter fun p => !s.wholeFrames.contains (s.frameOf p) } := rfl

theorem gathered_page {p : Nat} (free : p ∈ s.indexPages) : p ∈ s.gatherPages.indexPages ∨ s.frameOf p ∈ s.gatherPages.freeFrames := by
  rw [gatherPages_eq]
  by_cases whole : s.frameOf p ∈ s.wholeFrames
  · exact Or.inr (List.mem_append_right _ whole)
  · exact Or.inl (List.mem_filter.mpr ⟨free, by simpa using whole⟩)

theorem gathered_few (s : State) (f : Nat) : (s.gatherPages.indexPages.filter fun p => s.frameOf p == f).length < 32 := by
  rw [gatherPages_eq]
  dsimp only
  by_cases whole : f ∈ s.wholeFrames
  · rw [List.filter_eq_nil_iff.mpr]
    · exact Nat.zero_lt_succ _
    · intro p kept mine
      obtain ⟨-, kept⟩ := List.mem_filter.mp kept
      rw [show s.frameOf p = f by simpa using mine] at kept
      simp [whole] at kept
  · by_contra many
    have all := (List.filter_sublist (p := fun p => !s.wholeFrames.contains (s.frameOf p)) (l := s.indexPages)).filter (fun p => s.frameOf p == f) |>.length_le
    have enough : 32 ≤ (s.indexPages.filter fun p => s.frameOf p == f).length := (Nat.not_lt.mp many).trans all
    obtain ⟨p, mine⟩ := List.exists_mem_of_length_pos (Nat.lt_of_lt_of_le (by decide) enough)
    obtain ⟨free, mine⟩ := List.mem_filter.mp mine
    refine whole (List.mem_filter.mpr ⟨List.mem_dedup.mpr (List.mem_map.mpr ⟨p, free, by simpa using mine⟩), by simpa using enough⟩)

end

end Sys2Proof.Machine
end

section
/-! Settling O44. -/

namespace Sys2Proof.Safety

open Sys2Proof.Machine

/-- Settles O44: the entry that a freed history leaves, the frames that return, and each step of a chunk as its command gives it. -/
theorem historyStepsFramesAndStop : Obligations.HistoryStepsFramesAndStop := by
  unfold Obligations.HistoryStepsFramesAndStop
  refine ⟨?free, ?frames, ?step, ?complete, ?fail, ?stop, ?stopped, ?start⟩
  case free =>
    intro s h live listed releasing unread unveiled
    have run : exec (.historyFree h) s = .next (s.histFree h) := by
      change execHistoryFree h s = _
      rw [execHistoryFree, if_pos (by simp [live_of_Live live, listed, releasing, unread])]
    have only := entryOnly_putHist unveiled h { s.hist h with st := hFree, frames := 0, index := 0 }
    have back : (s.putHist h { s.hist h with st := hFree, frames := 0, index := 0 }).hist h =
        { s.hist h with st := hFree, frames := 0, index := 0 } := by
      obtain ⟨gen, -, locality, model, events, first, -, -⟩ := hist_fits s h
      rw [hist_putHist unveiled]
      exact stored_of_fits gen (show 0 < 2 ^ 8 by decide) locality model events first (show 0 < 2 ^ 32 by decide) (show 0 < 2 ^ 48 by decide)
    unfold State.histFree at run
    dsimp only at run
    generalize s.putHist h { s.hist h with st := hFree, frames := 0, index := 0 } = t at run only back
    obtain ⟨m, rfl⟩ := only.exists_mem
    exact ⟨_, run, back, only.keeps, ⟨_, rfl, rfl, rfl, rfl⟩, rfl⟩
  case frames =>
    intro s h live
    have run : exec (.frameReturn h) s = _ := if_pos (live_of_Live live)
    refine ⟨_, run, ?_⟩
    dsimp only
    have isDue (d : Deferred) : d ∈ s.deferred ∧ (d.hist == h && s.deferredFree d) = true ↔
        d ∈ s.deferred ∧ d.hist = h ∧ ∀ j ∈ d.readers, ∀ x ∈ s.jobs, x.id ≠ j := by
      simp only [Bool.and_eq_true, beq_iff_eq, deferredFree_iff]
    generalize hr : s.deferred.filter (fun d => d.hist == h && s.deferredFree d) = returned
    have listed (d : Deferred) : d ∈ returned ↔ d ∈ s.deferred ∧ d.hist = h ∧ ∀ j ∈ d.readers, ∀ x ∈ s.jobs, x.id ≠ j := by rw [← hr, List.mem_filter, isDue]
    generalize hk : s.deferred.filter (fun d => !(d.hist == h && s.deferredFree d)) = kept
    generalize ht : ({ s with
      freeFrames := s.freeFrames ++ returned.flatMap (fun d : Deferred => d.frames),
      indexPages := s.indexPages ++ returned.flatMap (fun d : Deferred => d.pages), deferred := kept } : State) = t
    have frameOf : t.frameOf = s.frameOf := by rw [← ht]; rfl
    refine ⟨fun d now => ⟨fun f mine => ?_, fun p mine => ?_⟩, fun d => ?_, ?_, fun p free => ?_, fun f => ?_, ?_⟩
    · rw [gatherPages_eq, ← ht]
      exact List.mem_append_left _ (List.mem_append_right _ (List.mem_flatMap.mpr ⟨d, (listed d).mpr now, mine⟩))
    · rw [← frameOf]
      refine gathered_page ?_
      rw [← ht]
      exact List.mem_append_right _ (List.mem_flatMap.mpr ⟨d, (listed d).mpr now, mine⟩)
    · rw [gatherPages_eq, ← ht, ← isDue, ← hk]
      dsimp only
      rw [List.mem_filter]
      cases d.hist == h && s.deferredFree d <;> simp
    · rw [gatherPages_eq, ← ht]
      exact ⟨_, List.append_assoc ..⟩
    · rw [gatherPages_eq, ← ht] at free
      rcases List.mem_append.mp (List.mem_filter.mp free).1 with old | new
      · exact Or.inl old
      · obtain ⟨d, now, mine⟩ := List.mem_flatMap.mp new
        exact Or.inr ⟨d, (listed d).mp now, mine⟩
    · rw [← frameOf]; exact gathered_few t f
    · rw [gatherPages_eq, ← ht]
  case step =>
    intro s w i c unit l b j u g bs live job steps found geometry image whole run go
    have cmd : exec (.chunkStep i ⟨c, unit⟩) s = .next (s.dispatchStep j u c unit) := by
      change execChunkStep i ⟨c, unit⟩ s = _
      rw [execChunkStep, job]
      dsimp only
      rw [steps]
      exact if_pos (live_of_Live live)
    unfold State.dispatchStep at cmd
    dsimp only at cmd
    rw [found, geometry, image] at cmd
    dsimp only at cmd
    refine ⟨fun full => ?_, fun kind unit_lt room good read => ?_⟩
    · rw [cmd, if_neg (by simp [full])]
    · rw [cmd, if_pos (by rw [whole, room, decide_eq_true unit_lt]; simpa using kind), good, if_neg (by decide), read]
  case complete =>
    intro s w i c l lo k b j u g kv out live job steps found geometry done hlo hk kv_len out_len frame write left rest
    have cmd : exec (.chunkStepComplete i ⟨c, kv, out⟩) s = .next (s.stepDone j u c kv out) := by
      change execChunkStepComplete i ⟨c, kv, out⟩ s = _
      rw [execChunkStepComplete, job]
      dsimp only
      rw [steps]
      exact if_pos (live_of_Live live)
    subst hlo hk
    have writes : u.stepWrites g frame c l kv out = some ((frame + (l * 512 + max u.l0 (512 * c) % 512) * g.kvBytes, kv) ::
        (if l + 1 < g.layers then [] else [(frame + (g.layers * 512 * g.kvBytes + max u.l0 (512 * c) % 512 * g.outBytes), out)])) :=
      if_pos (by rw [kv_len, out_len]; simp)
    have ends : s.stepDone j u c kv out = w.stepOver j u g.layers c l := by
      unfold State.stepDone
      rw [found, geometry]
      dsimp only
      rw [if_pos (by simpa using done), writes]
      dsimp only
      rw [write]
    refine ⟨fun more => ?_, fun last => ?_⟩
    · rw [cmd, ends]
      exact congrArg Host.Outcome.next (if_neg fun none => more (List.isEmpty_iff.mp none))
    · rw [cmd, ends]
      exact congrArg Host.Outcome.next (if_pos (List.isEmpty_iff.mpr last))
  case fail =>
    intro s i j live job appends
    change execHistoryAppendFail i s = _
    rw [execHistoryAppendFail, job]
    exact if_pos (by simp [live_of_Live live, appends])
  case stop =>
    intro s up
    exact congrArg Host.Outcome.next (hostDo_of_HostUp up _)
  case stopped =>
    intro s stop none shown
    refine if_pos ?_
    simpa [State.flag, State.histQuiet, shown] using ⟨stop, none⟩
  case start =>
    intro s up stopped
    have run : exec .historyStart s = .next s.histStart := congrArg Host.Outcome.next (hostDo_of_HostUp up _)
    refine ⟨_, run.trans (congrArg Host.Outcome.next (if_pos (by simpa [State.flag] using stopped))), ?_⟩
    have zeroed := memAt_zero s (s.get HMR_HIST_DIR_BASE 0) (32 * (s.get HMR_HIST_SIZE_ENTRIES 0 + 1))
    have jobs : (s.zero (s.get HMR_HIST_DIR_BASE 0) (32 * (s.get HMR_HIST_SIZE_ENTRIES 0 + 1))).jobs = s.jobs := by rw [zero_frame]
    have frames : (s.zero (s.get HMR_HIST_DIR_BASE 0) (32 * (s.get HMR_HIST_SIZE_ENTRIES 0 + 1))).get HMR_HIST_SIZE_FRAMES 0 =
        s.get HMR_HIST_SIZE_FRAMES 0 := by rw [zero_frame]; rfl
    generalize s.zero (s.get HMR_HIST_DIR_BASE 0) (32 * (s.get HMR_HIST_SIZE_ENTRIES 0 + 1)) = z at zeroed jobs frames
    refine ⟨fun i inside => ?_, fun x outside => ?_, ?_, rfl, rfl, rfl, ?_, State.get_put_self .., jobs⟩
    · exact (zeroed _).trans (if_pos ⟨Nat.le_add_right _ _, Nat.add_lt_add_left inside _⟩)
    · exact (zeroed _).trans (if_neg outside)
    · exact congrArg List.range frames
    · exact (State.get_put_other (by decide) ..).trans (State.get_put_self ..)

end Sys2Proof.Safety
end


section
/-! SUPPORT. Errors (R525 to R535): what a record changes, how the salvor takes errors in hand, and the stop of the device. -/

namespace Sys2Proof.Machine

open Sys2Proof.Safety

/-! ### Records -/

theorem irq_frame (s : State) (port vector : Nat) :
    s.irq port vector = { s with msixPend := (s.irq port vector).msixPend, out := (s.irq port vector).out } := by
  unfold State.irq
  split
  · rfl
  · rw [send_frame]

theorem postEvent_frame (s : State) (bs : List Byte) : s.postEvent bs = { s with
    flds := (s.postEvent bs).flds, host := (s.postEvent bs).host, evt := (s.postEvent bs).evt, msixPend := (s.postEvent bs).msixPend,
    out := (s.postEvent bs).out } := by
  unfold State.postEvent
  split
  · unfold State.putEvent; dsimp only
    rw [irq_frame, hostWrite_frame]
  · split <;> rfl

/-- The fields that an error record may change. -/
def recordFlds : List Fld := [HST_EVT_STATUS_LOST, HST_EVT_STATUS_OVERFLOW, DDK_ELOG_STATUS_TOTAL, DDK_ELOG_STATUS_WRAPPED]

theorem postEvent_keeps {s t : State} (keeps : KeepsFieldsBut s t (recordFlds.map fun f => f.key 0)) (bs : List Byte) :
    KeepsFieldsBut s (t.postEvent bs) (recordFlds.map fun f => f.key 0) := by
  unfold State.postEvent
  split
  · unfold State.putEvent; dsimp only
    rw [irq_frame, hostWrite_frame]
    exact keeps
  · split
    · exact keeps
    · exact keepsFieldsBut_put_listed (keepsFieldsBut_put_listed keeps (List.mem_map.mpr ⟨HST_EVT_STATUS_LOST, by simp [recordFlds], rfl⟩) _)
        (List.mem_map.mpr ⟨HST_EVT_STATUS_OVERFLOW, by simp [recordFlds], rfl⟩) _

theorem elogPush_frame (s : State) (bs : List Byte) : s.elogPush bs = { s with
    flds := (s.elogPush bs).flds, dock := { s.dock with elog := (s.elogPush bs).dock.elog } } := by
  unfold State.elogPush; dsimp only
  split <;> rfl

theorem elogPush_keeps (s : State) (bs : List Byte) : KeepsFieldsBut s (s.elogPush bs) (recordFlds.map fun f => f.key 0) := by
  have counted := keepsFieldsBut_put_listed (keepsFieldsBut_same (s := s) rfl (recordFlds.map fun f => f.key 0))
    (List.mem_map.mpr ⟨DDK_ELOG_STATUS_TOTAL, by simp [recordFlds], rfl⟩) (min (s.get DDK_ELOG_STATUS_TOTAL 0 + 1) (2 ^ DDK_ELOG_STATUS_TOTAL.width - 1))
  unfold State.elogPush; dsimp only
  split
  · exact counted
  · exact keepsFieldsBut_put_listed counted (List.mem_map.mpr ⟨DDK_ELOG_STATUS_WRAPPED, by simp [recordFlds], rfl⟩) _

theorem record_frame (s : State) (e : Err) (bs : List Byte) : s.record e bs = { s with
    flds := (s.record e bs).flds, host := (s.record e bs).host, evt := (s.record e bs).evt, msixPend := (s.record e bs).msixPend,
    out := (s.record e bs).out, dock := { s.dock with elog := (s.elogPush bs).dock.elog } } := by
  unfold State.record
  rw [traceJob_frame, postEvent_frame, elogPush_frame]

theorem record_keeps (s : State) (e : Err) (bs : List Byte) : KeepsFieldsBut s (s.record e bs) (recordFlds.map fun f => f.key 0) := by
  unfold State.record
  rw [traceJob_frame]
  exact postEvent_keeps (elogPush_keeps s bs) bs

/-- A field that no record changes. -/
theorem get_record {f : Fld} (other : ∀ g ∈ recordFlds, f.ord % 512 ≠ g.ord % 512) (s : State) (e : Err) (bs : List Byte) (i : Nat) :
    (s.record e bs).get f i = s.get f i := by
  refine record_keeps s e bs f i fun listed => ?_
  obtain ⟨g, hg, same⟩ := List.mem_map.mp listed
  exact Fld.key_ne (other g hg) i 0 same.symm

theorem elog_elogPush {s : State} (room : s.dock.elog.length < 4096) (bs : List Byte) : (s.elogPush bs).dock.elog = s.dock.elog ++ [bs] := by
  unfold State.elogPush
  dsimp only
  rw [if_pos (by exact room)]
  rfl

theorem length_errorBytes (s : State) (e : Err) : (s.errorBytes e).length = 64 := by
  unfold State.errorBytes State.eventHeader
  simp only [List.length_append, List.length_cons, List.length_nil, length_leBytes, List.length_map, List.length_take, List.length_replicate]
  omega

/-! ### The stop of the device (R529) -/

theorem deviceStop_stopped {s : State} (up : s.halted = false) (e : Err) : Stopped s (s.deviceStop e) e.source := by
  have mem : (s.deviceStop e).mem = s.mem := (congrArg State.mem (calm_deviceStop s e) :)
  have stop : s.deviceStop e = _ := if_neg (by rw [up]; exact Bool.false_ne_true)
  rw [stop] at mem ⊢
  dsimp only at mem ⊢
  rw [send_of_passed rfl] at mem ⊢
  exact ⟨rfl, rfl, (State.get_put_other (by decide) ..).trans (State.get_put_self ..), rfl, mem, List.getLast?_concat⟩

/-! ### Errors in hand -/

section
variable {s : State} {e : Err}

theorem takeInHand_frame (s : State) (e : Err) : s.takeInHand e =
    { s with salvor := { s.salvor with inHand := some e }, flds := (s.takeInHand e).flds } := rfl

theorem get_takeInHand {f : Fld} (handling : f.ord % 512 ≠ HMR_SALVOR_STATUS_HANDLING.ord % 512) (busy : f.ord % 512 ≠ HMR_SALVOR_STATUS_BUSY.ord % 512)
    (i : Nat) : (s.takeInHand e).get f i = s.get f i :=
  (State.get_put_other busy ..).trans (State.get_put_other handling ..)

theorem busy_takeInHand : (s.takeInHand e).get HMR_SALVOR_STATUS_BUSY 0 = 1 := State.get_put_self ..

theorem handling_takeInHand : (s.takeInHand e).get HMR_SALVOR_STATUS_HANDLING 0 = e.sev % 4 :=
  (State.get_put_other (by decide) ..).trans (State.get_put_self ..)

/-- A new error of a unit in service goes to the salvor. -/
theorem detectOne_queued (up : s.halted = false) (served : s.unitFenced e.kind e.unit e.addr = false) (new : s.salvor.matches e = false)
    (small : e.sev ≤ 2) (first : e.sev = 0 → s.salvor.lastTide e ≠ some e.tide) :
    ∃ mark, s.detectOne e = { s with salvor := s.salvor.count e mark }.queueError e := by
  refine ⟨if e.sev == 0 && decide (s.salvor.lastTide e ≠ some e.tide) then some e.tide else none, ?_⟩
  unfold State.detectOne
  rw [new, served]
  dsimp only
  rw [Bool.false_and, if_neg Bool.false_ne_true, if_neg (by simp [up]), if_neg (by simp; omega), if_neg (by
    intro later
    obtain ⟨zero, again⟩ := (Bool.and_eq_true _ _).mp later
    have := first (by simpa using zero)
    simp [this] at again)]

theorem detectOne_fenced (fenced : s.unitFenced e.kind e.unit e.addr = true) :
    ∃ mark, s.detectOne e = { s with salvor := s.salvor.count e mark } := by
  refine ⟨if e.sev == 0 && decide (s.salvor.lastTide e ≠ some e.tide) then some e.tide else none, ?_⟩
  unfold State.detectOne
  rw [fenced]
  exact if_pos (Bool.or_true _)

theorem queueError_free (free : s.salvor.inHand = none) (runs : s.salvor.stopped = false) : s.queueError e = s.takeInHand e := by
  unfold State.queueError
  rw [free, runs]; rfl

theorem queueError_behind {h : Err} (held : s.salvor.inHand = some h) (room : s.salvor.ring.length < 64) (lower : e.sev ≤ h.sev) :
    s.queueError e = { s with salvor := { s.salvor with ring := s.salvor.ring ++ [e] } } := by
  unfold State.queueError
  rw [held]
  dsimp only
  rw [if_neg (by omega), if_neg (by simp; omega)]

theorem queueError_ahead {h : Err} (held : s.salvor.inHand = some h) (room : s.salvor.ring.length < 64) (runs : s.salvor.stopped = false)
    (higher : h.sev < e.sev) : s.queueError e =
      { s with salvor := { s.salvor with ring := s.salvor.ring ++ [{ h with suspended := true }] } }.takeInHand e := by
  unfold State.queueError
  rw [held]
  dsimp only
  rw [if_neg (by omega), if_pos (by simp [runs]; omega)]

theorem salvorNext_empty (empty : s.salvor.ring = []) : s.salvorNext =
    ({ s with salvor := { s.salvor with inHand := none } }.put HMR_SALVOR_STATUS_BUSY 0 0).put HMR_SALVOR_STATUS_HANDLING 0 0 := by
  unfold State.salvorNext
  rw [empty]
  rfl

theorem salvorNext_single (one : s.salvor.ring = [e]) : ∃ v, s.salvorNext = { s with salvor := v }.takeInHand { e with suspended := false } := by
  unfold State.salvorNext
  rw [one]
  exact ⟨_, rfl⟩

/-- The next error leaves the salvor's stop, its last restart, and the fields beside its own. -/
theorem salvorNext_frame (s : State) : s.salvorNext = { s with flds := s.salvorNext.flds, salvor := s.salvorNext.salvor } ∧
    s.salvorNext.salvor.stopped = s.salvor.stopped ∧ s.salvorNext.salvor.lastRestart = s.salvor.lastRestart ∧
    ∀ f : Fld, f.ord % 512 ≠ HMR_SALVOR_STATUS_HANDLING.ord % 512 → f.ord % 512 ≠ HMR_SALVOR_STATUS_BUSY.ord % 512 →
      ∀ i, s.salvorNext.get f i = s.get f i := by
  unfold State.salvorNext
  split
  · exact ⟨rfl, rfl, rfl, fun f handling busy i => (State.get_put_other handling ..).trans (State.get_put_other busy ..)⟩
  · next e i picked =>
    have admitted (v : Salvor) : v.admitWaiting.stopped = v.stopped ∧ v.admitWaiting.lastRestart = v.lastRestart := by
      unfold Salvor.admitWaiting; split <;> exact ⟨rfl, rfl⟩
    obtain ⟨stopped, restart⟩ := admitted { s.salvor with ring := s.salvor.ring.eraseIdx i }
    exact ⟨rfl, stopped, restart, fun f handling busy i => get_takeInHand handling busy i⟩

end

end Sys2Proof.Machine
end

section
/-! Settling O45. -/

namespace Sys2Proof.Safety

open Sys2Proof.Machine

/-- The reports of a word leave what the salvor decides by. -/
theorem countWord_frame (s : State) (e : Err) : s.countWord e = { s with flds := (s.countWord e).flds } ∧
    ∀ f : Fld, f.ord % 512 ≠ WHS_ECC_UNCORRECTED_COUNT.ord % 512 → ∀ i, (s.countWord e).get f i = s.get f i := by
  unfold State.countWord
  split
  · exact ⟨rfl, fun f other i => State.get_inc_other other ..⟩
  · exact ⟨rfl, fun _ _ _ => rfl⟩

/-- An error of a kind that the salvor handles goes to it. -/
theorem route_detectOne {s : State} {e : Err} (kinds : e.kind ∈ [0x02, 0x03, 0x04, 0x06, 0x0B, 0x0E, 0x0F, 0x10, 0x11]) (small : e.sev ≤ 2) :
    s.route e = s.detectOne e := by
  have other {n : Nat} (listed : n ∉ [0x02, 0x03, 0x04, 0x06, 0x0B, 0x0E, 0x0F, 0x10, 0x11]) : (e.kind == n) = false :=
    beq_eq_false_iff_ne.mpr fun same => listed (same ▸ kinds)
  have low : ¬ e.sev ≥ 3 := by omega
  unfold State.route State.detect
  simp [other (n := 0x0D) (by decide), other (n := 0x0C) (by decide), other (n := 0x01) (by decide), other (n := 0x09) (by decide),
    other (n := 0x0A) (by decide), other (n := 0x08) (by decide), other (n := 0x05) (by decide), other (n := 0x07) (by decide), low]

theorem route_stops {s : State} {e : Err} (three : e.sev = 3) (kind : e.kind ≠ 0x0D) : s.route e = s.deviceStop e := by
  have same : { e with sev := 3 } = e := by rw [← three]
  unfold State.route
  rw [if_neg (by simp [kind]), if_pos (by simp [three]), same]

/-- Whether a unit is fenced does not rest on the count of words. -/
theorem unitFenced_countWord (s : State) (e : Err) (kind unit addr : Nat) :
    (s.countWord e).unitFenced kind unit addr = s.unitFenced kind unit addr := by
  obtain ⟨counted, others⟩ := countWord_frame s e
  have kiln : (s.countWord e).kilnFenced unit = s.kilnFenced unit := by
    unfold State.kilnFenced State.flag; rw [others _ (by decide)]
  have stack (n : Nat) : (s.countWord e).bitAt HBM_STACK_STATUS_FENCED 0 n = s.bitAt HBM_STACK_STATUS_FENCED 0 n := by
    unfold State.bitAt; rw [others _ (by decide)]
  unfold State.unitFenced
  rw [kiln, stack, stack, counted]
  rfl

/-- Settles O45: what the salvor takes in hand, and the stop of the device, which every route of severity 3 reaches. -/
theorem errorsAreQueuedHandledOrStop : Obligations.ErrorsAreQueuedHandledOrStop := by
  unfold Obligations.ErrorsAreQueuedHandledOrStop
  refine ⟨?detect, ?stop, ?watchdog, ?escalate, ?restart, ?handle⟩
  case detect =>
    intro s e live known small kinds d
    obtain ⟨counted, others⟩ := countWord_frame s e
    have run : exec (.errorDetect e) s = .next ((s.countWord e).route d) := by
      change execErrorDetect e s = _
      rw [execErrorDetect, if_pos (by simp [live_of_Live live, known])]
      rfl
    rw [route_detectOne (e := d) kinds small] at run
    have up : (s.countWord e).halted = false := by rw [counted]; exact live.1
    have served := unitFenced_countWord s e e.kind e.unit e.addr
    refine ⟨fun fenced => ?_, fun open' new first => ?_⟩
    · obtain ⟨mark, dropped⟩ := detectOne_fenced (s := s.countWord e) (e := d) (served.trans fenced)
      refine ⟨_, run.trans (congrArg Host.Outcome.next dropped), ?_⟩
      rw [counted]
      exact ⟨rfl, rfl, rfl, rfl, rfl⟩
    · obtain ⟨mark, queued⟩ := detectOne_queued (s := s.countWord e) (e := d) up (served.trans open') (by rw [counted]; exact new) small
        (by rw [counted]; exact first)
      rw [queued] at run
      generalize hu : ({ s.countWord e with salvor := (s.countWord e).salvor.count d mark } : State) = u at run
      have hand : u.salvor.inHand = s.salvor.inHand := by rw [← hu, counted]; rfl
      have ring : u.salvor.ring = s.salvor.ring := by rw [← hu, counted]; rfl
      have stops : u.salvor.stopped = s.salvor.stopped := by rw [← hu, counted]; rfl
      have jobs : u.jobs = s.jobs := by rw [← hu, counted]
      have mem : u.mem = s.mem := by rw [← hu, counted]
      have out : u.out = s.out := by rw [← hu, counted]
      refine ⟨fun free runs => ?_, fun h held room runs => ?_⟩
      · rw [queueError_free (e := d) (hand.trans free) (stops.trans runs)] at run
        exact ⟨_, run, rfl, ring, busy_takeInHand, handling_takeInHand.trans (Nat.mod_eq_of_lt (show e.sev < 4 by omega)), jobs, mem, out⟩
      · rw [← ring] at room
        by_cases lower : e.sev ≤ h.sev
        · rw [queueError_behind (e := d) (hand.trans held) room lower] at run
          exact ⟨_, run, fun _ => ⟨hand.trans held, congrArg (· ++ [d]) ring⟩, fun higher => absurd lower (Nat.not_le.mpr higher), jobs, mem, out⟩
        · rw [queueError_ahead (e := d) (hand.trans held) room (stops.trans runs) (show h.sev < e.sev by omega)] at run
          exact ⟨_, run, fun le => absurd le lower, fun _ => ⟨rfl, congrArg (· ++ _) ring⟩, jobs, mem, out⟩
  case stop =>
    intro s e live known
    refine ⟨⟨_, if_pos (by simp [live_of_Live live, known]), deviceStop_stopped live.1 _⟩, fun three kind => ?_⟩
    have run : exec (.errorDetect e) s = .next ((s.countWord e).route (s.stamped e)) := if_pos (by simp [live_of_Live live, known])
    rw [route_stops (e := s.stamped e) three kind] at run
    obtain ⟨counted, -⟩ := countWord_frame s e
    obtain ⟨halted, jobs, tide, told, mem, sent⟩ := deviceStop_stopped (s := s.countWord e) (by rw [counted]; exact live.1) (s.stamped e)
    exact ⟨_, run, halted, jobs, tide, told, mem.trans (by rw [counted]), sent⟩
  case watchdog =>
    intro s live running
    exact ⟨_, if_pos (by simpa [live_of_Live live, State.flag] using running), deviceStop_stopped live.1 _⟩
  case escalate =>
    intro s source live which runs
    have run : exec (.salvorEscalate source) s = .next (s.escalation source) :=
      if_pos (by simpa [live_of_Live live] using which)
    unfold State.escalation at run
    rw [runs, if_neg Bool.false_ne_true] at run
    refine ⟨fun again => ⟨_, run.trans (congrArg Host.Outcome.next (if_pos again)), deviceStop_stopped live.1 _⟩, fun once room => ?_⟩
    refine ⟨_, run.trans (congrArg Host.Outcome.next (if_neg (by rw [once]; exact Bool.false_ne_true))), ?_⟩
    unfold State.escalate State.logError
    dsimp only
    refine ⟨?_, ?_, (get_record (by decide) ..).trans ?_, (get_record (by decide) ..).trans ?_, ?_, ?_, ?_⟩
    · rw [record_frame]; rfl
    · rw [record_frame]; rfl
    · exact (State.get_put_other (by decide) ..).trans ((State.get_put_other (by decide) ..).trans
        ((State.get_inc_other (by decide) ..).trans (State.get_put_self ..)))
    · exact (State.get_put_other (by decide) ..).trans (State.get_put_self ..)
    · rw [record_frame]; rfl
    · rw [record_frame]; rfl
    · rw [record_frame]
      refine if_pos (decide_eq_true ?_)
      have few : (match s.salvor.inHand with | some e => [{ e with suspended := true }] | none => []).length ≤ 1 := by
        cases s.salvor.inHand <;> simp
      exact Nat.add_le_add (Nat.le_sub_one_of_lt room) few
  case restart =>
    intro s live stopped
    have run : exec .salvorRestart s = _ := if_pos (by simp [live_of_Live live, stopped])
    refine ⟨_, run, ?_⟩
    generalize ht : ({ s with salvor := { s.salvor with stopped := false, lastRestart := some (s.get LHS_RTC_COUNT 0) } } : State).put
      HMR_SALVOR_STATUS_ESCALATED 0 0 = t
    have jobs : t.jobs = s.jobs := by rw [← ht]; rfl
    have mem : t.mem = s.mem := by rw [← ht]; rfl
    have out : t.out = s.out := by rw [← ht]; rfl
    have salvor : t.salvor = { s.salvor with stopped := false, lastRestart := some (s.get LHS_RTC_COUNT 0) } := by rw [← ht]; rfl
    have escalated : t.get HMR_SALVOR_STATUS_ESCALATED 0 = 0 := by rw [← ht]; exact State.get_put_self ..
    obtain ⟨frame, runs, restart, fields⟩ := salvorNext_frame t
    refine ⟨runs.trans (by rw [salvor]), (fields _ (by decide) (by decide) 0).trans escalated, restart.trans (by rw [salvor]), ?_, ?_, ?_, ?_, ?_⟩
    · rw [frame]; exact jobs
    · rw [frame]; exact mem
    · rw [frame]; exact out
    · intro empty
      rw [salvorNext_empty (by rw [salvor]; exact empty)]
      exact ⟨rfl, (State.get_put_other (by decide) ..).trans (State.get_put_self ..)⟩
    · intro e one
      obtain ⟨v, next⟩ := salvorNext_single (s := t) (e := e) (by rw [salvor]; exact one)
      rw [next]
      exact ⟨rfl, handling_takeInHand⟩
  case handle =>
    intro s e live runs held bs
    refine ⟨?_, fun zero => ?_, rfl, fun room => ?_, length_errorBytes ..⟩
    · change execSalvorHandle s = _
      rw [execSalvorHandle, held]
      exact if_pos (by simp [live_of_Live live, runs])
    · unfold State.applyError; rw [zero]; rfl
    · rw [record_frame]; exact elog_elogPush room bs

end Sys2Proof.Safety
end


section
/-! SUPPORT. Memory that fails and returns: fenced stacks, the patrol scrub, and channel sets that return. -/

namespace Sys2Proof.Machine

open Sys2Proof.Safety

/-! ### Failed stacks (R545, R546) -/

/-- The fields that a failed stack changes. -/
def stackFlds : List Fld :=
  [HBM_STACK_STATUS_FENCED, HBM_STACK_STATUS_CAUSE, HBM_STACK_STATUS_LOST_SETS, HBM_CHSET_STATUS_STOPPED, HMR_SALVOR_STATUS_HANDLING,
    HMR_SALVOR_STATUS_BUSY, HMR_SALVOR_STATUS_RING_FENCES]

/-- Nothing but the registers of a failed stack and the salvor has changed. -/
structure StackOnly (s t : State) : Prop where
  frame : t = { s with flds := t.flds, salvor := t.salvor }
  get : ∀ f : Fld, (∀ g ∈ stackFlds, f.ord % 512 ≠ g.ord % 512) → ∀ i, t.get f i = s.get f i

theorem StackOnly.refl (s : State) : StackOnly s s := ⟨rfl, fun _ _ _ => rfl⟩

theorem StackOnly.put {s t : State} (only : StackOnly s t) {g : Fld} (listed : g ∈ stackFlds) (i v : Nat) : StackOnly s (t.put g i v) := by
  refine ⟨?_, fun f other j => (State.get_put_other (other g listed) ..).trans (only.get f other j)⟩
  have frame := only.frame
  generalize t.flds = l, t.salvor = v at frame
  subst frame
  rfl

theorem StackOnly.salvor {s t : State} (only : StackOnly s t) (v : Salvor) : StackOnly s { t with salvor := v } := by
  refine ⟨?_, only.get⟩
  have frame := only.frame
  generalize t.flds = l, t.salvor = v at frame
  subst frame
  rfl

theorem StackOnly.trans {s t u : State} (first : StackOnly s t) (second : StackOnly t u) : StackOnly s u := by
  refine ⟨?_, fun f other i => (second.get f other i).trans (first.get f other i)⟩
  have outer := second.frame
  rw [first.frame] at outer
  exact outer

theorem StackOnly.foldl {α : Type} {f : State → α → State} (hf : ∀ t x, StackOnly t (f t x)) (l : List α) (s : State) : StackOnly s (l.foldl f s) := by
  induction l generalizing s with
  | nil => exact .refl s
  | cons x l ih => exact (hf s x).trans (ih (f s x))

theorem StackOnly.setsOn {s t : State} (only : StackOnly s t) (k : Nat) : t.setsOn k = s.setsOn k := by
  unfold State.setsOn
  have first (n : Nat) := only.get HBM_CHSET_FIRST_CHANNEL (by decide) n
  have count (n : Nat) := only.get HBM_CHSET_COUNT (by decide) n
  simp only [first, count]

theorem stackOnly_fenceStack (s : State) (k c : Nat) : StackOnly s (s.fenceStack k c) := by
  unfold State.fenceStack; dsimp only
  refine StackOnly.trans ?_ (StackOnly.foldl (fun t n => ?_) _ _)
  · exact ((StackOnly.refl s).put (by simp [stackFlds]) 0 _).put (by simp [stackFlds]) 0 _
  · exact ((StackOnly.refl t).put (by simp [stackFlds]) 0 _).put (by simp [stackFlds]) 0 _

theorem bitAt_putBitAt (s : State) {f : Fld} {c : Nat} (fits : c < f.width) (i b : Nat) (v : Bool) :
    (s.putBitAt f i b v).bitAt f i c = if c = b then v else s.bitAt f i c := by
  unfold State.putBitAt State.bitAt
  rw [State.get_put_self, bit_eq_testBit, Nat.testBit_mod_two_pow, ← bit_eq_testBit, bit_putBit]
  simp [fits]

/-- A set of a failed stack is lost and stopped. -/
def State.stopLost (s : State) (n : Nat) : State := (s.putBitAt HBM_STACK_STATUS_LOST_SETS 0 n true).putBitAt HBM_CHSET_STATUS_STOPPED 0 n true

theorem fenceStack_eq (s : State) (k c : Nat) : s.fenceStack k c =
    (s.setsOn k).foldl State.stopLost ((s.putBitAt HBM_STACK_STATUS_FENCED 0 k true).put HBM_STACK_STATUS_CAUSE 0 c) := by
  have only : StackOnly s ((s.putBitAt HBM_STACK_STATUS_FENCED 0 k true).put HBM_STACK_STATUS_CAUSE 0 c) :=
    ((StackOnly.refl s).put (by simp [stackFlds]) 0 _).put (by simp [stackFlds]) 0 _
  unfold State.fenceStack; dsimp only
  rw [only.setsOn]
  rfl

theorem stopLost_spec (s : State) {n : Nat} (m : Nat) (n_lt : n < 32) :
    (s.stopLost m).setLost n = (s.setLost n || decide (n = m)) ∧ (s.stopLost m).setStopped n = (s.setStopped n || decide (n = m)) := by
  have either (b : Bool) : (if n = m then true else b) = (b || decide (n = m)) := by
    by_cases same : n = m <;> simp [same]
  constructor
  · exact (bitAt_putBitAt_other (by decide) ..).trans ((bitAt_putBitAt s (f := HBM_STACK_STATUS_LOST_SETS) n_lt 0 m true).trans (either _))
  · refine (bitAt_putBitAt _ (f := HBM_CHSET_STATUS_STOPPED) n_lt 0 m true).trans ((either _).trans ?_)
    rw [bitAt_putBitAt_other (by decide)]
    rfl

/-- Sets that are lost and stopped one after another. -/
theorem stopLosts_spec (l : List Nat) (s : State) {n : Nat} (n_lt : n < 32) :
    (l.foldl State.stopLost s).setLost n = (s.setLost n || decide (n ∈ l)) ∧
    (l.foldl State.stopLost s).setStopped n = (s.setStopped n || decide (n ∈ l)) := by
  induction l generalizing s with
  | nil => simp
  | cons m l ih =>
    obtain ⟨lost, stopped⟩ := stopLost_spec s m n_lt
    obtain ⟨losts, stoppeds⟩ := ih (s.stopLost m)
    rw [List.foldl_cons, losts, stoppeds, lost, stopped]
    simp [Bool.or_assoc]

theorem fenceStack_spec (s : State) {k c : Nat} (k_lt : k < 12) (c_lt : c ≤ 5) :
    (s.fenceStack k c).bitAt HBM_STACK_STATUS_FENCED 0 k = true ∧ (s.fenceStack k c).get HBM_STACK_STATUS_CAUSE 0 = c ∧
    ∀ n ∈ s.setsOn k, (s.fenceStack k c).setLost n = true ∧ (s.fenceStack k c).setStopped n = true := by
  have kept (l : List Nat) (t : State) : (l.foldl State.stopLost t).get HBM_STACK_STATUS_FENCED 0 = t.get HBM_STACK_STATUS_FENCED 0 ∧
      (l.foldl State.stopLost t).get HBM_STACK_STATUS_CAUSE 0 = t.get HBM_STACK_STATUS_CAUSE 0 := by
    induction l generalizing t with
    | nil => exact ⟨rfl, rfl⟩
    | cons m l ih =>
      exact ⟨(ih _).1.trans ((get_putBitAt_other (by decide) ..).trans (get_putBitAt_other (by decide) ..)),
        (ih _).2.trans ((get_putBitAt_other (by decide) ..).trans (get_putBitAt_other (by decide) ..))⟩
  rw [fenceStack_eq]
  refine ⟨?_, ?_, fun n on => ?_⟩
  · unfold State.bitAt
    rw [(kept _ _).1, State.get_put_other (by decide)]
    exact bitAt_putBitAt_self k_lt true
  · rw [(kept _ _).2, State.get_put_self]
    exact Nat.mod_eq_of_lt (show c < 2 ^ HBM_STACK_STATUS_CAUSE.width from Nat.lt_of_le_of_lt c_lt (by decide))
  · have n_lt : n < 32 := List.mem_range.mp (List.mem_filter.mp on).1
    obtain ⟨lost, stopped⟩ := stopLosts_spec (s.setsOn k) ((s.putBitAt HBM_STACK_STATUS_FENCED 0 k true).put HBM_STACK_STATUS_CAUSE 0 c) n_lt
    rw [lost, stopped]
    simp [on]

/-- The salvor takes the error of a stack without further effect, but for the fence of a full ring. -/
theorem stackOnly_queueError (s : State) {e : Err} (kind : e.kind = 0x08) (sev : e.sev = 2) : StackOnly s (s.queueError e) := by
  have taken {t : State} (only : StackOnly s t) (e : Err) : StackOnly s (t.takeInHand e) :=
    ((only.salvor _).put (by simp [stackFlds]) 0 _).put (by simp [stackFlds]) 0 _
  have full : StackOnly s (s.ringFull e) := by
    have fence : s.fenceUnit e.kind e.source e.unit e.addr = s.fenceStack e.unit e.source := by
      unfold State.fenceUnit; rw [kind]; rfl
    unfold State.ringFull
    rw [if_neg (by simp [sev]), fence]
    exact ((stackOnly_fenceStack s _ _).put (by simp [stackFlds]) 0 _).salvor _
  unfold State.queueError
  split
  · split_ifs
    · exact taken (.refl s) e
    · exact full
    · exact (StackOnly.refl s).salvor _
  · split_ifs
    · exact full
    · exact taken ((StackOnly.refl s).salvor _) e
    · exact (StackOnly.refl s).salvor _

theorem stackOnly_detectOne {s : State} {e : Err} (kind : e.kind = 0x08) (sev : e.sev = 2) : StackOnly s (s.detectOne e) := by
  have promoted (rep : Bool) : (if rep then { e with sev := if hasFence e.kind then 2 else 3 } else e) = e := by
    split
    · rw [show (if hasFence e.kind then 2 else 3) = e.sev by rw [kind, sev]; rfl]
    · rfl
  unfold State.detectOne
  dsimp only
  rw [promoted]
  split
  · exact (StackOnly.refl s).salvor _
  split
  · next high => exact absurd high (by omega)
  split
  · exact (StackOnly.refl s).salvor _
  · exact ((StackOnly.refl s).salvor _).trans (stackOnly_queueError _ kind sev)

/-! ### The scrub (R557) -/

theorem find_poisons (ws : List Nat) (s : State) (w : Nat) :
    Tab.find w (ws.foldl (fun t w => t.poison (8 * w)) s).ecc = if w ∈ ws then some true else Tab.find w s.ecc := by
  induction ws generalizing s with
  | nil => simp
  | cons v ws ih =>
    rw [List.foldl_cons, ih]
    change (if w ∈ ws then some true else Tab.find w (Tab.insert (8 * v / 8) true s.ecc)) = _
    rw [Nat.mul_div_cancel_left v (by decide), Tab.find_insert]
    by_cases here : w = v <;> by_cases later : w ∈ ws <;> simp [here, later]

theorem poisons_frame (ws : List Nat) (s : State) : ws.foldl (fun t w => t.poison (8 * w)) s =
    { s with ecc := (ws.foldl (fun t w => t.poison (8 * w)) s).ecc } := by
  induction ws generalizing s with
  | nil => rfl
  | cons v ws ih => rw [List.foldl_cons, ih]; rfl

theorem allBad_nil_iff (s : State) (a n : Nat) : s.allBad a n = [] ↔ ∀ w ∈ wordsOf a n, Tab.find w s.ecc ≠ some true := by
  unfold State.allBad State.badWord
  simp

/-- The words of an aligned unit. -/
theorem mem_unit_words {a w : Nat} (aligned : a % 64 = 0) : w ∈ wordsOf a 64 ↔ a / 8 ≤ w ∧ w < a / 8 + 8 := by
  rw [mem_wordsOf_iff (by decide)]
  omega

theorem find_dropRange {α : Type} (lo hi : Nat) (t : Tab α) (k : Nat) :
    Tab.find k (Tab.dropRange lo hi t) = if lo ≤ k ∧ k < hi then none else Tab.find k t := by
  unfold Tab.dropRange
  rw [Tab.find_filter (fun y => !(decide (lo ≤ y) && decide (y < hi)))]
  by_cases inside : lo ≤ k ∧ k < hi
  · rw [if_pos inside, if_neg (by simp [inside])]
  · rw [if_neg inside, if_pos (by simp; omega)]

section
variable {s : State} {a : Nat}

theorem scrub_good {o : Nat} (zero : o = 0) (clean : ∀ w ∈ wordsOf a 64, Tab.find w s.ecc = none) : s.scrub a o = s := by
  have found : s.scrubFinds a o = 0 := by
    unfold State.scrubFinds
    rw [(allBad_nil_iff s a 64).mpr fun w hw => by simp [clean w hw], zero, if_neg (by decide), if_neg]
    simp only [beq_self_eq_true, Bool.true_and, List.any_eq_true, not_exists, not_and]
    intro w hw weak
    simp [State.weakWord, clean w hw] at weak
  unfold State.scrub
  rw [found]
  rfl

theorem scrub_corrects {o : Nat} (good : ∀ w ∈ wordsOf a 64, Tab.find w s.ecc ≠ some true)
    (weak : o = 1 ∨ (o = 0 ∧ ∃ w ∈ wordsOf a 64, Tab.find w s.ecc = some false)) :
    s.scrub a o = ({ s with ecc := Tab.dropRange (a / 8) (a / 8 + 8) s.ecc }.dropHot a 64).detect (s.mkWordErr 0 3 a none) := by
  have found : s.scrubFinds a o = 1 := by
    unfold State.scrubFinds
    rw [(allBad_nil_iff s a 64).mpr good, if_neg (by decide)]
    rcases weak with rfl | ⟨rfl, w, hw, weak⟩
    · rfl
    · exact if_pos (by simpa [State.weakWord] using ⟨w, hw, weak⟩)
  unfold State.scrub
  rw [found]
  rfl

theorem scrub_poisons {o : Nat} (bad : o = 2 ∨ (o < 2 ∧ ∃ w ∈ wordsOf a 64, Tab.find w s.ecc = some true)) :
    s.scrub a o = ((wordsOf a 64).foldl (fun t w => t.poison (8 * w)) s).detect (s.mkWordErr 1 4 a none) := by
  have found : s.scrubFinds a o = 2 := by
    unfold State.scrubFinds
    rcases bad with rfl | ⟨-, w, hw, bad⟩
    · split <;> rfl
    · refine if_pos ?_
      have some : s.allBad a 64 ≠ [] := fun none => (allBad_nil_iff s a 64).mp none w hw bad
      simpa using some
  unfold State.scrub
  rw [found]
  rfl

end

/-! ### Channel sets -/

section
variable {s : State}

/-- The fields that say where a set lies, and whether it may return. -/
theorem setBase_congr {s t : State} (count : ∀ n, t.get HBM_CHSET_COUNT n = s.get HBM_CHSET_COUNT n) (n : Nat) :
    t.setBase n = s.setBase n ∧ t.setBytes n = s.setBytes n := by
  unfold State.setBase State.setBytes
  simp only [count, and_self]

theorem setUsable_stop (s : State) (n m : Nat) (b : Bool) : (s.putBitAt HBM_CHSET_STOP_STOP 0 m b).setUsable n = s.setUsable n := by
  have first (k : Nat) : (s.putBitAt HBM_CHSET_STOP_STOP 0 m b).get HBM_CHSET_FIRST_CHANNEL k = s.get HBM_CHSET_FIRST_CHANNEL k :=
    get_putBitAt_other (by decide) ..
  have count (k : Nat) : (s.putBitAt HBM_CHSET_STOP_STOP 0 m b).get HBM_CHSET_COUNT k = s.get HBM_CHSET_COUNT k := get_putBitAt_other (by decide) ..
  have fenced (k : Nat) : (s.putBitAt HBM_CHSET_STOP_STOP 0 m b).bitAt HBM_STACK_STATUS_FENCED 0 k = s.bitAt HBM_STACK_STATUS_FENCED 0 k :=
    bitAt_putBitAt_other (by decide) ..
  unfold State.setUsable State.setsOn
  simp only [first, count, fenced]

/-- A lost set is a set again, its contents undefined (R548). -/
def State.setFound (s : State) (n : Nat) : State :=
  if s.setLost n then (s.scramble (s.setBase n) (s.setBytes n)).putBitAt HBM_STACK_STATUS_LOST_SETS 0 n false else s

theorem setFound_spec {n : Nat} (n_lt : n < 32) : (s.setFound n).setLost n = false ∧ KeepsMemBut s (s.setFound n) (s.setBase n) (s.setBytes n) ∧
    (∀ f : Fld, f.ord % 512 ≠ HBM_STACK_STATUS_LOST_SETS.ord % 512 → ∀ i, (s.setFound n).get f i = s.get f i) ∧
    (s.setFound n).veiled = s.veiled ∧ (s.setFound n).jobs = s.jobs ∧ (s.setFound n).out = s.out := by
  unfold State.setFound
  split
  · exact ⟨bitAt_putBitAt_self n_lt false, scramble_keeps s _ _, fun f other i => get_putBitAt_other other .., rfl, rfl, rfl⟩
  · next kept => exact ⟨by simpa using kept, fun _ _ => rfl, fun _ _ _ => rfl, rfl, rfl, rfl⟩

/-- A set that may return does: zeroed under the veil. -/
def State.setReturns (s : State) (n : Nat) : State :=
  let s := s.setFound n
  let s := if s.flag CUS_STATUS_VEILED 0 then { s with veiled := s.veiled.erase n }.zero (s.setBase n) (s.setBytes n) else s
  s.putBitAt HBM_CHSET_STATUS_STOPPED 0 n false

theorem chsetRestart_returns {n : Nat} (some : s.get HBM_CHSET_COUNT n ≠ 0) (usable : s.setUsable n = true) :
    s.chsetRestart n = (s.putBitAt HBM_CHSET_STOP_STOP 0 n false).setReturns n := by
  unfold State.chsetRestart
  dsimp only
  rw [setUsable_stop, get_putBitAt_other (by decide), if_neg (by simp [some, usable])]
  rfl

theorem chsetRestart_waits {n : Nat} (not : s.get HBM_CHSET_COUNT n = 0 ∨ s.setUsable n = false) :
    s.chsetRestart n = s.putBitAt HBM_CHSET_STOP_STOP 0 n false := by
  unfold State.chsetRestart
  dsimp only
  rw [setUsable_stop, get_putBitAt_other (by decide), if_pos (by rcases not with h | h <;> simp [h])]

end

theorem retryOr_absent {s : State} {j : Nat} (absent : s.job j = none) (status : Nat) : s.retryOr j status = s := by
  unfold State.retryOr
  rw [absent]

theorem jobs_loadNext (s : State) (n m : Nat) : (s.loadNext n m).jobs = s.jobs := by
  unfold State.loadNext
  dsimp only
  split
  · rw [freeStream_frame]
  · rfl

theorem jobs_storeBlock {s t : State} {x : Model} {v b : Nat} {bs : List Byte} (read : s.storeBlock x v b = .ok (bs, t)) : t.jobs = s.jobs := by
  unfold State.storeBlock State.storeBytes at read
  split at read
  · cases read; rfl
  · exact (reports_read read).jobs

theorem jobs_writeBlock (s : State) (n : Nat) (bs : List Byte) : (s.writeBlock n bs).jobs = s.jobs := by
  unfold State.writeBlock State.poke
  rw [pokeBytes_eq, zero_frame]

end Sys2Proof.Machine
end

section
/-! Settling O46. -/

namespace Sys2Proof.Safety

open Sys2Proof.Machine

/-- Settles O46: the fence of a stack, what the scrub leaves of a unit's marks, and the sets and blocks that return. -/
theorem stacksSetsAndScrub : Obligations.StacksSetsAndScrub := by
  unfold Obligations.StacksSetsAndScrub
  refine ⟨?stack, ?scrub, ?sets, ?reload⟩
  case stack =>
    intro s k c live k_lt c_ge c_le served
    have run : exec (.hbmStackFail k c) s = .next (s.failStack k c) := if_pos (by simp [live_of_Live live, k_lt, c_ge, c_le])
    have found := stackOnly_detectOne (s := s) (e := { mkErr s 2 0x08 c k 0 none [k, c] with fenced := true }) rfl rfl
    have fails : s.failStack k c = (s.detectOne { mkErr s 2 0x08 c k 0 none [k, c] with fenced := true }).fenceStack k c := by
      unfold State.failStack
      dsimp only
      rw [served, if_neg Bool.false_ne_true, if_neg (by rw [found.frame, live.1]; exact Bool.false_ne_true)]
    rw [fails] at run
    generalize s.detectOne _ = u at found run
    obtain ⟨fenced, cause, sets⟩ := fenceStack_spec u k_lt c_le
    have only := found.trans (stackOnly_fenceStack u k c)
    refine ⟨_, run, fenced, cause, fun n on => sets n (by rw [found.setsOn]; exact on), ?_, ?_, ?_, ?_, ?_⟩ <;> rw [only.frame]
    exact live.1
  case scrub =>
    intro s a n live inSet serves aligned
    have run (o : Nat) : exec (.patrolScrub a o) s = .next (s.scrub a o) := by
      change execPatrolScrub a o s = _
      rw [execPatrolScrub, inSet]
      exact if_pos (by simp [live_of_Live live, serves, aligned])
    refine ⟨fun clean => (run 0).trans (congrArg _ (scrub_good rfl clean)), fun o good weak => ?_, fun o bad => ?_⟩
    · refine ⟨_, (run o).trans (congrArg _ (scrub_corrects good weak)), ?_⟩
      have calm := calm_detect ({ s with ecc := Tab.dropRange (a / 8) (a / 8 + 8) s.ecc }.dropHot a 64) (s.mkWordErr 0 3 a none)
      generalize State.detect _ _ = t at calm
      have ecc : t.ecc = Tab.dropRange (a / 8) (a / 8 + 8) s.ecc := by
        refine Eq.trans (congrArg State.ecc calm :) ?_
        rw [dropHot_frame]; rfl
      have mem : t.mem = s.mem := by
        refine Eq.trans (congrArg State.mem calm :) ?_
        rw [dropHot_frame]; rfl
      have hot : t.hot = ({ s with ecc := Tab.dropRange (a / 8) (a / 8 + 8) s.ecc }.dropHot a 64).hot := (congrArg State.hot calm :)
      refine ⟨fun w hw => ?_, fun w hw => ?_, mem, fun e he => ?_⟩
      · rw [ecc, find_dropRange, if_pos ((mem_unit_words aligned).mp hw)]
      · rw [ecc, find_dropRange, if_neg (fun inside => hw ((mem_unit_words aligned).mpr inside))]
      · rw [hot] at he
        unfold State.dropHot at he
        split at he
        · obtain ⟨old, away⟩ := List.mem_filter.mp he
          exact ⟨old, fun _ same => by simp [same] at away⟩
        · next high => exact ⟨he, fun low => absurd low high⟩
    · refine ⟨_, (run o).trans (congrArg _ (scrub_poisons bad)), ?_⟩
      have calm := calm_detect ((wordsOf a 64).foldl (fun t w => t.poison (8 * w)) s) (s.mkWordErr 1 4 a none)
      have ecc : (State.detect ((wordsOf a 64).foldl (fun t w => t.poison (8 * w)) s) (s.mkWordErr 1 4 a none)).ecc = _ := (congrArg State.ecc calm :)
      have mem : (State.detect ((wordsOf a 64).foldl (fun t w => t.poison (8 * w)) s) (s.mkWordErr 1 4 a none)).mem = s.mem := by
        refine Eq.trans (congrArg State.mem calm :) ?_
        rw [poisons_frame]; rfl
      refine ⟨fun w hw => ?_, fun w hw => ?_, mem⟩
      · rw [ecc]; exact (find_poisons _ s w).trans (if_pos hw)
      · rw [ecc]; exact (find_poisons _ s w).trans (if_neg hw)
  case sets =>
    intro s n up n_lt
    have stop : exec (.chsetStop n) s = .next (s.chsetHalt n) := by
      change execChsetStop n s = _
      rw [execChsetStop, if_pos n_lt, hostDo_of_HostUp up]
    have restart : exec (.chsetRestart n) s = .next (s.chsetRestart n) := by
      change execChsetRestart n s = _
      rw [execChsetRestart, if_pos n_lt, hostDo_of_HostUp up]
    generalize hu : s.putBitAt HBM_CHSET_STOP_STOP 0 n false = u
    have lost : u.setLost n = s.setLost n := by rw [← hu]; exact bitAt_putBitAt_other (by decide) ..
    have veil : u.get CUS_STATUS_VEILED 0 = s.get CUS_STATUS_VEILED 0 := by rw [← hu]; exact get_putBitAt_other (by decide) ..
    refine ⟨fun still => ?_, fun some usable kept open' => ?_, fun some usable veiled => ?_, fun some usable gone open' => ?_, fun not => ?_⟩
    · rw [stop]
      unfold State.chsetHalt State.chsetLoses
      rcases still with still | still
      · rw [if_pos still]; rfl
      · rw [if_neg (c := (s.get HBM_CHSET_USE n == 1) = true) (by simpa using still), ite_self]; rfl
    · rw [restart, chsetRestart_returns some usable, hu]
      unfold State.setReturns State.setFound State.flag
      dsimp only
      rw [lost, kept, if_neg Bool.false_ne_true, veil, open']; rfl
    · rw [chsetRestart_returns some usable, hu] at restart
      obtain ⟨found, keeps, fields, veils, jobs, out⟩ := setFound_spec (s := u) n_lt
      obtain ⟨base, bytes⟩ := setBase_congr (s := s) (t := u) (fun m => by rw [← hu]; exact get_putBitAt_other (by decide) ..) n
      obtain ⟨base', bytes'⟩ := setBase_congr (s := u) (t := u.setFound n) (fun m => fields _ (by decide) m) n
      have shown : (u.setFound n).flag CUS_STATUS_VEILED 0 = true := by
        unfold State.flag; rw [fields _ (by decide), veil]; simpa using veiled
      unfold State.setReturns at restart
      dsimp only at restart
      rw [shown, if_pos rfl, base', bytes', base, bytes] at restart
      rw [base, bytes] at keeps
      generalize hv : ({ u.setFound n with veiled := (u.setFound n).veiled.erase n } : State) = v at restart
      have zeroed := memAt_zero v (s.setBase n) (s.setBytes n)
      have frame := zero_frame v (s.setBase n) (s.setBytes n)
      have held : v.setLost n = false := by rw [← hv]; exact found
      refine ⟨_, restart, fun i inside => ?_, fun x outside => ?_, ?_, ?_, bitAt_putBitAt_self n_lt false, ?_, ?_⟩
      · exact (zeroed _).trans (if_pos ⟨Nat.le_add_right _ _, Nat.add_lt_add_left inside _⟩)
      · refine (zeroed x).trans ((if_neg outside).trans ?_)
        rw [← hv]
        refine (keeps x outside).trans ?_
        rw [← hu]; rfl
      · change (v.zero _ _).veiled = _
        rw [frame, ← hv]
        exact (congrArg (List.erase · n) veils).trans (by rw [← hu]; rfl)
      · refine (bitAt_putBitAt_other (by decide) ..).trans ?_
        rw [frame]; exact held
      · change (v.zero _ _).jobs = _
        rw [frame, ← hv]; exact jobs.trans (by rw [← hu]; rfl)
      · change (v.zero _ _).out = _
        rw [frame, ← hv]; exact out.trans (by rw [← hu]; rfl)
    · rw [chsetRestart_returns some usable, hu] at restart
      obtain ⟨found, keeps, fields, -, jobs, out⟩ := setFound_spec (s := u) n_lt
      obtain ⟨base, bytes⟩ := setBase_congr (s := s) (t := u) (fun m => by rw [← hu]; exact get_putBitAt_other (by decide) ..) n
      have open'' : (u.setFound n).flag CUS_STATUS_VEILED 0 = false := by
        unfold State.flag; rw [fields _ (by decide), veil, open']; rfl
      unfold State.setReturns at restart
      dsimp only at restart
      rw [open'', if_neg Bool.false_ne_true] at restart
      rw [base, bytes] at keeps
      refine ⟨_, restart, fun x outside => (keeps x outside).trans (by rw [← hu]; rfl), (bitAt_putBitAt_other (by decide) ..).trans found,
        bitAt_putBitAt_self n_lt false, jobs.trans (by rw [← hu]; rfl), out.trans (by rw [← hu]; rfl)⟩
    · rw [restart, chsetRestart_waits not, hu]
  case reload =>
    intro s m b j n live absent
    refine ⟨fun resident has loader => ?_, fun p bs w lacks old store => ?_⟩
    · change execModelBlockReload m b j s = _
      unfold execModelBlockReload
      dsimp only
      rw [if_pos (by simp [live_of_Live live, resident, has]), loader]
      dsimp only
      refine congrArg Host.Outcome.next (retryOr_absent ?_ _)
      unfold State.job
      rw [jobs_loadNext]
      exact absent
    · change execModelBlockReload m b j s = _
      unfold execModelBlockReload
      dsimp only
      rw [if_neg (by simp [lacks]), if_pos (live_of_Live live), old, store]
      refine congrArg Host.Outcome.next (retryOr_absent ?_ _)
      unfold State.job
      rw [jobs_writeBlock, jobs_storeBlock store]
      exact absent

end Sys2Proof.Safety
end


section
/-! SUPPORT. Lost slots and the rebuild of a spare: what a read answers whatever rebuilds are noted, and the pages that a rebuild asks for. -/

namespace Sys2Proof.Machine

open Sys2Proof.Safety

/-! ### What is read does not rest on the rebuilds noted -/

/-- The bytes that an access answers. -/
def readAnswer (x : Except AccErr (List Byte × State)) : Option (List Byte) :=
  match x with
  | .ok (bs, _) => some bs
  | .error _ => none

section
variable (s : State) (l : List Nat)

theorem places_rebuilding (r : Req) (b : Bool) (ps : List (Nat × Nat)) : ({ s with rebuilding := l } : State).places r b ps = s.places r b ps := by
  induction ps with
  | nil => rfl
  | cons p ps ih =>
    rw [State.places, State.places, ih]
    rfl

theorem readAnswer_rebuilding (r : Req) (a n : Nat) :
    readAnswer (({ s with rebuilding := l } : State).read r a n) = readAnswer (s.read r a n) := by
  unfold State.read
  rw [places_rebuilding]
  cases s.places r false (piecesOf a n) with
  | error e => rfl
  | ok ls =>
    dsimp only
    change readAnswer (if ((ls.flatMap fun p => p.1.words p.2).any fun w => s.badWord w) = true then _ else _) = _
    split <;> rfl

theorem groupRecord_eq (g : Nat) : s.groupRecord g =
    if (s.group g).held then some (s.group g)
    else if g > s.get CRN_GROUP_DIR_GROUPS 0 then none
    else (readAnswer (s.read {} (s.get CRN_GROUP_DIR_BASE 0 + 64 * g) 64)).map groupOf := by
  unfold State.groupRecord State.groupInMemory
  by_cases held : (s.group g).held = true
  · rw [if_pos held, if_pos held]
  rw [if_neg held, if_neg held]
  by_cases high : g > s.get CRN_GROUP_DIR_GROUPS 0
  · rw [if_pos high, if_pos high]
  rw [if_neg high, if_neg high]
  cases s.read {} (s.get CRN_GROUP_DIR_BASE 0 + 64 * g) 64 <;> rfl

theorem groupRecord_rebuilding (g : Nat) : ({ s with rebuilding := l } : State).groupRecord g = s.groupRecord g := by
  rw [groupRecord_eq, groupRecord_eq, readAnswer_rebuilding]
  rfl

theorem groupMembers_rebuilding (g : Nat) : ({ s with rebuilding := l } : State).groupMembers g = s.groupMembers g := by
  unfold State.groupMembers
  rw [groupRecord_rebuilding]

end

/-! ### Pages that are asked for -/

section
variable {s : State}

/-- The rebuild with a page in hand. -/
def Rebuild.takes (b : Rebuild) (x : Nat × Nat) : Rebuild :=
  { b with copying := true, table := x.1, page := x.2, got := [], acc := List.replicate 65536 0 }

theorem takeUpPage_frame (s : State) (b : Rebuild) (x : Nat × Nat) :
    s.takeUpPage b x = { s with rebuild := some (b.takes x), out := (s.takeUpPage b x).out } := by
  have sends (b : Rebuild) (t : State) : t.askPage b = { t with out := (t.askPage b).out } := by
    unfold State.askPage
    dsimp only
    generalize t.group b.group = r
    generalize List.filter _ _ = ks
    induction ks generalizing t with
    | nil => rfl
    | cons k ks ih => rw [List.foldl_cons, ih, send_frame]
  unfold State.takeUpPage
  exact sends _ _

theorem sendDone_frame (s : State) (b : Rebuild) : s.sendDone b =
    { s with pod := (s.sendDone b).pod, out := (s.sendDone b).out, unacked := (s.sendDone b).unacked, nextVc0 := (s.sendDone b).nextVc0 } := by
  unfold State.sendDone
  split
  · rw [send_broadcast]
  · rw [sendVc0_eq]

/-- The rebuild that starts keeps its group and slot, and nothing but what is asked for changes beside it. -/
theorem startCopy_spec {b : Rebuild} (here : s.rebuild = some b) : ∃ c o, s.startCopy = { s with rebuild := some c, out := o } ∧
    c.group = b.group ∧ c.slot = b.slot := by
  have stays : s = { s with rebuild := some b, out := s.out } := by rw [← here]
  unfold State.startCopy
  rw [here]
  dsimp only
  split
  · exact ⟨b, s.out, stays, rfl, rfl⟩
  · split
    · exact ⟨b, s.out, stays, rfl, rfl⟩
    · exact ⟨_, _, takeUpPage_frame .., rfl, rfl⟩

theorem sendStart_frame (s : State) (g : Nat) : s.sendStart g =
    { s with
      rebuilding := (s.sendStart g).rebuilding, out := (s.sendStart g).out, unacked := (s.sendStart g).unacked,
      nextVc0 := (s.sendStart g).nextVc0 } := by
  unfold State.sendStart
  dsimp only
  split
  · rfl
  · rw [sendVc0_eq]

end

end Sys2Proof.Machine
end

section
/-! Settling O47. -/

namespace Sys2Proof.Safety

open Sys2Proof.Machine

/-- Settles O47: what is noted of slots, and each step of a rebuild. -/
theorem slotsAreLostAndRebuilt : Obligations.SlotsAreLostAndRebuilt := by
  unfold Obligations.SlotsAreLostAndRebuilt
  refine ⟨?slots, ?go, ?start, ?request, ?page, ?ends⟩
  case slots =>
    intro s d g k live pod
    refine ⟨fun new => ?_, fun new => ?_⟩
    · have noted : s.noteSlotLoss d g k = { s with pod := { s.pod with slotLosses := s.pod.slotLosses ++ [(d, g, k)] } } := if_neg (by simpa using new)
      refine ⟨?_, fun master here => ?_⟩
      · exact (if_pos (by simp [live_of_Live live, pod])).trans (congrArg Host.Outcome.next noted)
      · refine (if_pos (by simp [live_of_Live live, pod, master, here])).trans (congrArg Host.Outcome.next ?_)
        rw [noted, send_broadcast]
    · have noted : s.noteReplace g k d = { s with pod := { s.pod with replaces := s.pod.replaces ++ [(g, k, d)] } } := if_neg (by simpa using new)
      refine ⟨?_, fun master here => ?_⟩
      · exact (if_pos (by simp [live_of_Live live, pod])).trans (congrArg Host.Outcome.next noted)
      · refine (if_pos (by simp [live_of_Live live, pod, master, here])).trans (congrArg Host.Outcome.next ?_)
        rw [noted, send_broadcast]
  case go =>
    intro s g up g_lt idle
    have run : exec (.rebuildGo g) s = .next (s.rebuildGo g) := by
      change execRebuildGo g s = _
      rw [execRebuildGo, if_pos g_lt, hostDo_of_HostUp up]
    have go : s.rebuildGo g = _ := if_neg (by simp [State.flag, idle])
    rw [go] at run
    refine ⟨fun refused => ?_, fun may => ?_⟩
    · rw [run]
      exact congrArg Host.Outcome.next (if_pos (by simp [refused]))
    · dsimp only at run
      rw [if_neg (by simp [may])] at run
      generalize hu : ((((s.put CRN_REBUILD_GROUP 0 g).put CRN_REBUILD_BUSY 0 1).put CRN_REBUILD_STATUS_RESULT 0 0).put
        CRN_REBUILD_STATUS_PAGES_DONE 0 0) = u at run
      have busy : u.get CRN_REBUILD_BUSY 0 = 1 := by
        rw [← hu]; exact (State.get_put_other (by decide) ..).trans ((State.get_put_other (by decide) ..).trans (State.get_put_self ..))
      have result : u.get CRN_REBUILD_STATUS_RESULT 0 = 0 := by rw [← hu]; exact (State.get_put_other (by decide) ..).trans (State.get_put_self ..)
      have done : u.get CRN_REBUILD_STATUS_PAGES_DONE 0 = 0 := by rw [← hu]; exact State.get_put_self ..
      have group : u.get CRN_REBUILD_GROUP 0 = g := by
        rw [← hu]
        refine (State.get_put_other (by decide) ..).trans ((State.get_put_other (by decide) ..).trans ((State.get_put_other (by decide) ..).trans ?_))
        exact (State.get_put_self ..).trans (Nat.mod_eq_of_lt g_lt)
      have rest : u = { s with flds := u.flds } := by rw [← hu]; rfl
      have record : u.group g = s.group g := by rw [rest]; rfl
      have me : u.me = s.me := by 
        rw [← hu]
        exact (State.get_put_other (by decide) ..).trans ((State.get_put_other (by decide) ..).trans
          ((State.get_put_other (by decide) ..).trans (State.get_put_other (by decide) ..)))
      have starts := sendStart_frame u g
      obtain ⟨c, o, copy, c_group, c_slot⟩ := startCopy_spec
        (s := { u.sendStart g with rebuild := some ⟨g, (u.group g).lostSlot, false, 0, 0, [], []⟩ }) rfl
      rw [copy] at run
      refine ⟨_, run, ?_, ?_, ?_, ?_, ⟨c, rfl, c_group, c_slot.trans (by rw [record])⟩, ?_, ?_, fun mine => ?_, fun far => ?_⟩
      · change (u.sendStart g).get _ _ = _; rw [starts]; exact busy
      · change (u.sendStart g).get _ _ = _; rw [starts]; exact result
      · change (u.sendStart g).get _ _ = _; rw [starts]; exact done
      · change (u.sendStart g).get _ _ = _; rw [starts]; exact group
      · change (u.sendStart g).mem = _; rw [starts, rest]
      · change (u.sendStart g).jobs = _; rw [starts, rest]
      · change g ∈ (u.sendStart g).rebuilding
        unfold State.sendStart
        dsimp only
        rw [if_pos (by rw [record, me]; simpa using mine)]
        exact List.mem_cons_self
      · change ∃ v ∈ (u.sendStart g).unacked, _
        unfold State.sendStart
        dsimp only
        rw [if_neg (by rw [record, me]; simpa using far), record, me]
        exact mem_unacked_sendVc0 ..
  case start =>
    intro s g k d live new
    have run : exec (.rebuildStart g k d) s = _ := if_pos (by simp [live_of_Live live, new])
    rw [groupRecord_rebuilding, groupMembers_rebuilding, show ({ s with rebuilding := g :: s.rebuilding } : State).me = s.me from rfl] at run
    have sends := sendsMore_foldl (fun t m => sendsMore_sendVc0 t m (.rebuildStart g k d))
      ((s.groupMembers g).filter fun m => m != s.me && m != d) { s with rebuilding := g :: s.rebuilding }
    by_cases tells : ∃ r, s.groupRecord g = some r ∧ r.master = s.me
    · obtain ⟨r, record, mine⟩ := tells
      rw [record] at run
      have run := run.trans (if_pos (by simpa using mine))
      have told (m : Nat) (member : m ∈ s.groupMembers g) (far : m ≠ s.me) (other : m ≠ d) := mem_unacked_foldl
        (P := fun u => u.dst = m ∧ u.msg = .rebuildStart g k d) (fun t m => sendsMore_sendVc0 t m (.rebuildStart g k d))
        (fun t => mem_unacked_sendVc0 t m _) (List.mem_filter.mpr ⟨member, by simp [far, other]⟩ : m ∈ (s.groupMembers g).filter fun m => m != s.me && m != d)
        { s with rebuilding := g :: s.rebuilding }
      generalize List.foldl _ _ _ = f at sends run told
      have rest := sends.rest
      have noted : f.rebuilding = g :: s.rebuilding := (congrArg State.rebuilding rest :)
      exact ⟨_, run, noted, rest.trans (by rw [noted]), fun _ _ _ => told⟩
    · have silent : exec (.rebuildStart g k d) s = .next { s with rebuilding := g :: s.rebuilding } := by
        rw [run]
        cases record : s.groupRecord g with
        | none => rfl
        | some r => exact if_neg (by simpa using fun mine => tells ⟨r, record, mine⟩)
      exact ⟨_, silent, rfl, rfl, fun r record mine => absurd ⟨r, record, mine⟩ tells⟩
  case request =>
    intro s u t p k d bs hears enabled member current
    change execRebuildPageRequest t p k d s = _
    rw [execRebuildPageRequest, if_pos (by simp [hears, enabled, member]), current]
  case page =>
    intro s b k data here hears copying other within new len c
    have run : exec (.rebuildPage b.table b.page k data) s = .next (s.pageArrives b k data) := by
      change execRebuildPage b.table b.page k data s = _
      rw [execRebuildPage, here]
      exact if_pos (by simp [hears, copying, other, within, new, len])
    refine ⟨fun few => run.trans (congrArg Host.Outcome.next (if_pos few)), fun a w enough own write => ?_⟩
    have writes : s.pageArrives b k data = s.writePage c := if_neg (Nat.not_lt.mpr enough)
    rw [writes] at run
    unfold State.writePage at run
    rw [show c.table = b.table from rfl, show c.page = b.page from rfl, own] at run
    dsimp only at run
    rw [write] at run
    dsimp only at run
    have count : (w.inc CRN_REBUILD_STATUS_PAGES_DONE 0 1).get CRN_REBUILD_STATUS_PAGES_DONE 0 =
        min (s.get CRN_REBUILD_STATUS_PAGES_DONE 0 + 1) (2 ^ CRN_REBUILD_STATUS_PAGES_DONE.width - 1) := by
      rw [State.get_inc_self, (stores_write write).get (by decide)]
    have pages : (w.inc CRN_REBUILD_STATUS_PAGES_DONE 0 1).pagesAfter c = w.pagesAfter c := rfl
    rw [pages] at run
    have mem : (w.inc CRN_REBUILD_STATUS_PAGES_DONE 0 1).mem = w.mem := rfl
    generalize w.inc CRN_REBUILD_STATUS_PAGES_DONE 0 1 = v at run count mem
    cases left : w.pagesAfter c with
    | nil =>
      rw [left] at run
      dsimp only at run
      rw [sendDone_frame] at run
      exact ⟨_, run, mem, count, fun _ => ⟨_, rfl, rfl⟩, fun x l more => absurd more (List.cons_ne_nil x l).symm⟩
    | cons x l =>
      rw [left] at run
      dsimp only at run
      rw [takeUpPage_frame] at run
      refine ⟨_, run, mem, count, fun none => absurd none (List.cons_ne_nil x l), fun y l' more => ?_⟩
      obtain ⟨rfl, rfl⟩ := List.cons.inj more
      exact ⟨_, rfl, rfl, rfl, rfl⟩
  case ends =>
    intro s g live
    refine ⟨fun none => ?_, fun b here mine lost => ?_, fun b here mine kept => ?_⟩
    all_goals
      change execRebuildEnd g s = _
      rw [execRebuildEnd, if_neg (by simp [live_of_Live live])]
      dsimp only
    · rw [none]
    · have state : (({ s with rebuilding := s.rebuilding.erase g } : State).group g).state = .lost := lost
      rw [here]
      dsimp only
      rw [← here, if_pos (by rw [mine, state]; simp)]
    · have state : (({ s with rebuilding := s.rebuilding.erase g } : State).group g).state ≠ .lost := kept
      rw [here]
      dsimp only
      rw [← here, if_neg (by rw [mine]; simp [state]), if_pos (by simp [mine])]

end Sys2Proof.Safety
end


section
/-! SUPPORT. Lanes and quays that fail: the errors of links, and what a failed quay leaves. -/

namespace Sys2Proof.Machine

open Sys2Proof.Safety

/-! ### Errors of links -/

/-- An error that is no plain count goes to the salvor, or to the fence of its unit when the ring is full. -/
theorem queueError_only (s : State) {e : Err} (severe : e.sev ≠ 0) :
    StackOnly s (s.queueError e) ∨ StackOnly (s.fenceUnit e.kind e.source e.unit e.addr) (s.queueError e) := by
  have taken {t : State} (only : StackOnly s t) (e : Err) : StackOnly s (t.takeInHand e) :=
    ((only.salvor _).put (by simp [stackFlds]) 0 _).put (by simp [stackFlds]) 0 _
  have full : StackOnly (s.fenceUnit e.kind e.source e.unit e.addr) (s.ringFull e) := by
    unfold State.ringFull
    rw [if_neg (by simpa using severe)]
    exact ((StackOnly.refl _).put (by simp [stackFlds]) 0 _).salvor _
  unfold State.queueError
  split
  · split_ifs
    · exact Or.inl (taken (.refl s) e)
    · exact Or.inr full
    · exact Or.inl ((StackOnly.refl s).salvor _)
  · split_ifs
    · exact Or.inr full
    · exact Or.inl (taken ((StackOnly.refl s).salvor _) e)
    · exact Or.inl ((StackOnly.refl s).salvor _)

/-- An error of severity 2 of a unit that has a fence. -/
theorem detect_only (s : State) {e : Err} (sev : e.sev = 2) (fence : hasFence e.kind = true) (kind : e.kind ≠ 7) :
    StackOnly s (s.detect e) ∨ ∃ v, StackOnly ({ s with salvor := v }.fenceUnit e.kind e.source e.unit e.addr) (s.detect e) := by
  have promoted (rep : Bool) : (if rep then { e with sev := if hasFence e.kind then 2 else 3 } else e) = e := by
    cases rep
    · rfl
    · change ({ e with sev := if hasFence e.kind then 2 else 3 } : Err) = e
      rw [fence, if_pos rfl, ← sev]
  have one : s.detect e = s.detectOne e := by
    unfold State.detect
    rw [if_neg (by simp [kind])]
  rw [one]
  unfold State.detectOne
  dsimp only
  rw [promoted]
  split
  · exact Or.inl ((StackOnly.refl s).salvor _)
  split
  · next high => exact absurd high (by omega)
  split
  · exact Or.inl ((StackOnly.refl s).salvor _)
  · rcases queueError_only { s with salvor := s.salvor.count e (if (e.sev == 0 && decide (s.salvor.lastTide e ≠ some e.tide)) = true then some e.tide else none) }
      (e := e) (by omega) with only | only
    · exact Or.inl (((StackOnly.refl s).salvor _).trans only)
    · exact Or.inr ⟨_, only⟩

theorem detect_quayError (s : State) (q c : Nat) : StackOnly s (s.detect (s.quayError q c)) := by
  rcases detect_only s (e := s.quayError q c) rfl rfl (show 9 ≠ 7 by decide) with only | ⟨v, only⟩
  · exact only
  · exact ((StackOnly.refl s).salvor v).trans only

/-! ### Failed quays (R497, R498) -/

/-- Routes once those whose primary quay is q take their alternate. -/
def diverted (q : Nat) (routes : Tab Route) : Tab Route := routes.map fun e => (e.1, if e.2.primary == q then { e.2 with useAlt := true } else e.2)

/-- A failed quay with nothing on the way. -/
def Quay.failed (y : Quay) : Quay := { y.emptied with st := .failed, keyed := false }

/-- The state that a failed quay leaves, before the pod master is told. -/
def State.quayLost (s : State) (q cause : Nat) : State :=
  let s := s.detect (s.quayError q cause)
  let s := if cause == 2 then s.inc QUY_STATUS_KEY_FAILS q 1 else s
  let s := s.putQuay q (s.quay q).failed
  { s.divert q with laneOut := s.laneOut.lose q, pod := { s.pod with reroute := true } }

section
variable {s : State} {q : Nat} (c : Nat)

theorem quayFails_eq (working : (s.quay q).st ≠ .failed) : s.quayFails q c =
    let t := s.quayLost q c
    if t.flag QUY_POD_CTL_IN_POD 0 && !t.isMaster then t.sendVc0 t.podMaster (.quayFailed t.me q) else t := by
  unfold State.quayFails
  rw [if_neg (by simpa using working)]
  rfl

theorem quayFails_again (failed : (s.quay q).st = .failed) : s.quayFails q c = s := if_pos (by simp [failed])

theorem quayLost_spec (s : State) (q c : Nat) :
    s.quayLost q c = { s with
      flds := (s.quayLost q c).flds, salvor := (s.quayLost q c).salvor, quays := Tab.insert q (s.quay q).failed s.quays,
      routes := diverted q s.routes, laneOut := s.laneOut.lose q, pod := { s.pod with reroute := true } } ∧
    (∀ f : Fld, (∀ g ∈ stackFlds, f.ord % 512 ≠ g.ord % 512) → f.ord % 512 ≠ QUY_STATUS_KEY_FAILS.ord % 512 → ∀ i, (s.quayLost q c).get f i = s.get f i) ∧
    (s.quayLost q c).get QUY_STATUS_KEY_FAILS q = if c = 2 then min (s.get QUY_STATUS_KEY_FAILS q + 1) 0xFFFF else s.get QUY_STATUS_KEY_FAILS q := by
  obtain ⟨frame, get⟩ := detect_quayError s q c
  unfold State.quayLost
  dsimp only
  generalize s.detect (s.quayError q c) = d at frame get
  obtain ⟨l, v, rfl⟩ : ∃ l v, d = { s with flds := l, salvor := v } := ⟨_, _, frame⟩
  by_cases keying : c = 2
  · subst keying
    refine ⟨rfl, fun f other key i => (State.get_inc_other key ..).trans (get f other i), ?_⟩
    refine (State.get_inc_self ..).trans ?_
    rw [get _ (by decide)]
    rfl
  · rw [if_neg (by simpa using keying), if_neg keying]
    exact ⟨rfl, fun f other key i => get f other i, get _ (by decide) _⟩

theorem quayFails_spec (working : (s.quay q).st ≠ .failed) :
    s.quayFails q c = { s with
      flds := (s.quayFails q c).flds, salvor := (s.quayFails q c).salvor, quays := Tab.insert q (s.quay q).failed s.quays,
      routes := diverted q s.routes, laneOut := s.laneOut.lose q, pod := { s.pod with reroute := true }, unacked := (s.quayFails q c).unacked,
      nextVc0 := (s.quayFails q c).nextVc0, out := (s.quayFails q c).out } ∧
    (∀ f : Fld, (∀ g ∈ stackFlds, f.ord % 512 ≠ g.ord % 512) → f.ord % 512 ≠ QUY_STATUS_KEY_FAILS.ord % 512 → ∀ i, (s.quayFails q c).get f i = s.get f i) ∧
    (s.quayFails q c).get QUY_STATUS_KEY_FAILS q = (if c = 2 then min (s.get QUY_STATUS_KEY_FAILS q + 1) 0xFFFF else s.get QUY_STATUS_KEY_FAILS q) ∧
    (s.get QUY_POD_CTL_IN_POD 0 ≠ 0 → s.isMaster = false →
      ∃ u ∈ (s.quayFails q c).unacked, u.dst = s.podMaster ∧ u.msg = .quayFailed s.me q) := by
  obtain ⟨frame, get, fails⟩ := quayLost_spec s q c
  have master : (s.quayLost q c).podMaster = s.podMaster := get _ (by decide) (by decide) 0
  have me : (s.quayLost q c).me = s.me := get _ (by decide) (by decide) 0
  have told : (s.quayLost q c).flag QUY_POD_CTL_IN_POD 0 = s.flag QUY_POD_CTL_IN_POD 0 := by
    unfold State.flag; rw [get _ (by decide) (by decide)]
  have role : (s.quayLost q c).isMaster = s.isMaster := by unfold State.isMaster; rw [master, me]
  rw [quayFails_eq c working]
  dsimp only
  rw [told, role, master, me]
  generalize s.quayLost q c = t at frame get fails
  split
  · obtain ⟨l, v, rfl⟩ : ∃ l v, t = { s with
        flds := l, salvor := v, quays := Tab.insert q (s.quay q).failed s.quays, routes := diverted q s.routes, laneOut := s.laneOut.lose q,
        pod := { s.pod with reroute := true } } := ⟨_, _, frame⟩
    refine ⟨by rw [sendVc0_eq], fun f other key i => ?_, ?_, fun _ _ => mem_unacked_sendVc0 ..⟩
    · rw [sendVc0_eq]; exact get f other key i
    · rw [sendVc0_eq]; exact fails
  · next silent =>
    refine ⟨by rw [frame], get, fails, fun pod outside => absurd ?_ silent⟩
    simp [State.flag, pod, outside]

end

/-! ### Failed lanes (R495, R496) -/

theorem spare_of_unused {s : State} {q k : Nat} (unused : k ∈ s.unusedSpares q) : (k = 32 ∨ k = 33) ∧ k ∉ (s.quay q).dead := by
  obtain ⟨spare, alive⟩ := List.mem_filter.mp (List.mem_of_mem_drop unused)
  exact ⟨by simpa using spare, by simpa using alive⟩

/-- The state that a failed lane leaves, before the width is looked at. -/
def State.laneLost (s : State) (q l source : Nat) : State :=
  let spare := s.spareFor q l
  let s := s.detect (mkErr s 2 0x0A source (64 * q + l) 0 none [q, l, spare.getD 0xFF])
  let y := (s.quay q).moveLane l spare
  (s.putQuay q { y with dead := l :: y.dead.erase l }).putWidth q

theorem laneFails_eq {s : State} {q l : Nat} (source : Nat) (served : l ∉ (s.quay q).dead) : s.laneFails q l source =
    let t := s.laneLost q l source
    if t.get QUY_STATUS_WIDTH q < 24 then t.quayFails q 1 else t :=
  if_neg (by simpa using served)

/-- The error of a lane takes it out of use at once where the ring is full. -/
theorem detect_lane (s : State) (q l source : Nat) (detail : List Nat) (l_lt : l < 34) :
    let d := s.detect (mkErr s 2 0x0A source (64 * q + l) 0 none detail)
    d = { s with flds := d.flds, salvor := d.salvor, quays := d.quays } ∧ (∀ m, m ≠ q → d.quay m = s.quay m) ∧
    (d.quay q = s.quay q ∨ d.quay q = { s.quay q with dead := l :: (s.quay q).dead.erase l }) ∧
    ∀ f : Fld, (∀ g ∈ stackFlds, f.ord % 512 ≠ g.ord % 512) → ∀ i, d.get f i = s.get f i := by
  intro d
  have unit : (64 * q + l) / 64 = q ∧ (64 * q + l) % 64 = l := by omega
  rcases detect_only s (e := mkErr s 2 0x0A source (64 * q + l) 0 none detail) rfl rfl (show 0x0A ≠ 7 by decide) with only | ⟨v, only⟩
  · change StackOnly s d at only
    generalize d = t at only
    obtain ⟨frame, get⟩ := only
    refine ⟨by rw [frame], fun m _ => by rw [frame]; rfl, Or.inl (by rw [frame]; rfl), get⟩
  · have fence : ({ s with salvor := v } : State).fenceUnit 0x0A source (64 * q + l) 0 =
        { s with salvor := v }.putQuay q { s.quay q with dead := l :: (s.quay q).dead.erase l } := by
      unfold State.fenceUnit
      rw [unit.1, unit.2]
      rfl
    change StackOnly (({ s with salvor := v } : State).fenceUnit 0x0A source (64 * q + l) 0) d at only
    rw [fence] at only
    generalize d = t at only
    obtain ⟨frame, get⟩ := only
    refine ⟨by rw [frame]; rfl, fun m other => ?_, Or.inr ?_, get⟩
    · rw [frame]; exact (State.quay_putQuay s q _ m).trans (if_neg other)
    · rw [frame]; exact (State.quay_putQuay s q _ q).trans (if_pos rfl)

theorem laneLost_spec (s : State) (q l source : Nat) (l_lt : l < 34) (served : l ∉ (s.quay q).dead) :
    let t := s.laneLost q l source
    t = { s with flds := t.flds, salvor := t.salvor, quays := t.quays } ∧
    t.quay q = { (s.quay q).moveLane l (s.spareFor q l) with dead := l :: (s.quay q).dead } ∧ (∀ m, m ≠ q → t.quay m = s.quay m) ∧
    (∀ f : Fld, (∀ g ∈ stackFlds, f.ord % 512 ≠ g.ord % 512) → f.ord % 512 ≠ QUY_STATUS_WIDTH.ord % 512 →
      f.ord % 512 ≠ QUY_STATUS_SPARES_LEFT.ord % 512 → ∀ i, t.get f i = s.get f i) ∧
    t.get QUY_STATUS_WIDTH q = min 32 (33 - (s.quay q).dead.length) ∧ t.get QUY_STATUS_SPARES_LEFT q = 33 - (s.quay q).dead.length - 32 := by
  obtain ⟨frame, others, quay, get⟩ := detect_lane s q l source [q, l, (s.spareFor q l).getD 0xFF] l_lt
  unfold State.laneLost
  dsimp only
  generalize s.detect _ = d at frame others quay get
  have moved (y : Quay) (dead : List Nat) (x : List Nat) (k : Option Nat) :
      { ({ y with dead := dead } : Quay).moveLane l k with dead := x } = { y.moveLane l k with dead := x } := by
    unfold Quay.moveLane; cases k <;> rfl
  have kept (y : Quay) (k : Option Nat) : (y.moveLane l k).dead = y.dead := by unfold Quay.moveLane; cases k <;> rfl
  have now : { (d.quay q).moveLane l (s.spareFor q l) with dead := l :: ((d.quay q).moveLane l (s.spareFor q l)).dead.erase l } =
      { (s.quay q).moveLane l (s.spareFor q l) with dead := l :: (s.quay q).dead } := by
    have plain : (s.quay q).dead.erase l = (s.quay q).dead := List.erase_of_not_mem served
    rw [kept]
    rcases quay with same | fenced
    · rw [same, plain]
    · rw [fenced, moved, plain, List.erase_cons_head]
  rw [now]
  generalize hy : ({ (s.quay q).moveLane l (s.spareFor q l) with dead := l :: (s.quay q).dead } : Quay) = y
  have lanes : 34 - ((d.putQuay q y).quay q).dead.length = 33 - (s.quay q).dead.length := by
    rw [State.quay_putQuay, if_pos rfl, ← hy, List.length_cons]
    omega
  unfold State.putWidth
  dsimp only
  rw [lanes]
  refine ⟨by rw [frame]; rfl, ?_, fun m other => ?_, fun f other width spares i => ?_, ?_, ?_⟩
  · exact (State.quay_putQuay d q y q).trans (if_pos rfl)
  · exact ((State.quay_putQuay d q y m).trans (if_neg other)).trans (others m other)
  · exact (State.get_put_other spares ..).trans ((State.get_put_other width ..).trans (get f other i))
  · refine (State.get_put_other (by decide) ..).trans ((State.get_put_self ..).trans (Nat.mod_eq_of_lt ?_))
    exact Nat.lt_of_le_of_lt (Nat.min_le_left ..) (show 32 < 2 ^ 6 by decide)
  · refine (State.get_put_self ..).trans (Nat.mod_eq_of_lt ?_)
    exact Nat.lt_of_le_of_lt (show 33 - (s.quay q).dead.length - 32 ≤ 1 by omega) (show 1 < 2 ^ 2 by decide)

end Sys2Proof.Machine
end

section
/-! Settling O48. -/

namespace Sys2Proof.Safety

open Sys2Proof.Machine

/-- Settles O48: a lane that fails as the fence of its error and the spare leave it, and a quay that fails with what was on the way. -/
theorem lanesAndQuaysFail : Obligations.LanesAndQuaysFail := by
  unfold Obligations.LanesAndQuaysFail
  refine ⟨?lane, ?spare, ?quay, ?wide⟩
  case lane =>
    intro s q l source live q_lt l_lt up served source_ge source_le left
    have run : exec (.laneFail q l source) s = .next (s.laneFails q l source) :=
      if_pos (by simp [live_of_Live live, quayExists, laneExists, State.quayUp, up, q_lt, l_lt, source_ge, source_le])
    rw [laneFails_eq source served] at run
    obtain ⟨rest, quay, others, get, width, spares⟩ := laneLost_spec s q l source l_lt served
    generalize s.laneLost q l source = u at run rest quay others get width spares
    have alive : (u.quay q).st = .up := by
      rw [quay]
      unfold Quay.moveLane
      cases s.spareFor q l <;> exact up
    by_cases wide : 24 ≤ left
    · rw [if_neg (by rw [width]; omega)] at run
      refine ⟨_, run, by rw [quay], others, width, spares, ?_, ?_, fun _ => ⟨?_, quay⟩, fun narrow => absurd wide (Nat.not_le.mpr narrow)⟩ <;> rw [rest]
    · rw [if_pos (by rw [width]; omega)] at run
      obtain ⟨frame, kept, -, -⟩ := quayFails_spec (s := u) (q := q) 1 (by rw [alive]; decide)
      have lost : (u.quayFails q 1).quay q = (u.quay q).failed := by
        rw [frame]; exact (State.quay_putQuay u q (u.quay q).failed q).trans (if_pos rfl)
      refine ⟨_, run, ?_, fun m other => ?_, (kept _ (by decide) (by decide) _).trans width, (kept _ (by decide) (by decide) _).trans spares, ?_, ?_,
        fun w => absurd w wide, fun _ => ⟨?_, ?_, ?_, ?_, ?_, ?_, ?_, ?_⟩⟩
      · rw [lost]; change (u.quay q).dead = _; rw [quay]
      · rw [frame]
        exact ((State.quay_putQuay u q (u.quay q).failed m).trans (if_neg other)).trans (others m other)
      · rw [frame, rest]
      · rw [frame, rest]
      · rw [lost]; rfl
      · rw [lost]; rfl
      · rw [lost]; rfl
      · rw [lost]; rfl
      · rw [lost]; rfl
      · rw [frame, rest]
      · rw [frame, rest]
      · rw [frame, rest]; rfl
  case spare =>
    intro s q l served l_lt
    have mine : (s.unusedSpares q).contains l = false := by
      have other : l ∉ s.unusedSpares q := fun listed => by
        obtain ⟨which, -⟩ := spare_of_unused listed
        omega
      simpa using other
    have first : s.spareFor q l = (s.unusedSpares q).head? := by
      unfold State.spareFor
      dsimp only
      rw [mine, if_neg Bool.false_ne_true]
    rw [first]
    refine ⟨List.head?_eq_none_iff, fun both low high => ?_, fun k head => spare_of_unused (List.mem_of_mem_head? head)⟩
    unfold State.unusedSpares
    dsimp only
    rw [both]
    simp [low, high]
  case quay =>
    intro s q c live q_lt working c_ge c_le narrow
    have run : exec (.quayFail q c) s = .next (s.quayFails q c) := by
      refine if_pos ?_
      have one : c ≠ 1 ∨ s.get QUY_STATUS_WIDTH q < 24 := by
        by_cases h : c = 1
        · exact Or.inr (narrow h)
        · exact Or.inl h
      simp only [List.mem_cons, List.not_mem_nil, or_false, not_or] at working
      simpa [live_of_Live live, quayExists, q_lt, c_ge, c_le, working] using one
    have st : (s.quay q).st ≠ .failed := fun failed => working (by simp [failed])
    obtain ⟨frame, -, fails, told⟩ := quayFails_spec c st
    refine ⟨_, run, ?_, fun m other => ?_, ?_, ?_, ?_, fails, told, ?_, ?_, ?_⟩ <;> rw [frame]
    · exact (State.quay_putQuay s q (s.quay q).failed q).trans (if_pos rfl)
    · exact (State.quay_putQuay s q (s.quay q).failed m).trans (if_neg other)
    · rfl
  case wide =>
    intro s q wide
    refine if_neg ?_
    simp; omega

end Sys2Proof.Safety
end


section
/-! SUPPORT. Stopping, training and mating of quays: what comes in from a link buffer leaves, and the join that a ready quay may ask for. -/

namespace Sys2Proof.Machine

open Sys2Proof.Safety

/-! ### Frames that come in -/

theorem diverted_diverted (q : Nat) (r : Tab Route) : diverted q (diverted q r) = diverted q r := by
  unfold diverted
  rw [List.map_map]
  refine List.map_congr_left fun e _ => ?_
  by_cases here : e.2.primary = q <;> simp [here]

/-- What frames that come in over quay q leave as it was. -/
structure ComesIn (q : Nat) (s t : State) : Prop where
  dead : (t.quay q).dead = (s.quay q).dead
  jobs : t.jobs = s.jobs
  mem : t.mem = s.mem
  routes : diverted q t.routes = diverted q s.routes
  get : ∀ f : Fld, (∀ g ∈ stackFlds, f.ord % 512 ≠ g.ord % 512) → f.ord % 512 ≠ QUY_STATUS_KEY_FAILS.ord % 512 → ∀ i, t.get f i = s.get f i

theorem ComesIn.refl (q : Nat) (s : State) : ComesIn q s s := ⟨rfl, rfl, rfl, rfl, fun _ _ _ _ => rfl⟩

theorem ComesIn.trans {q : Nat} {s t u : State} (first : ComesIn q s t) (second : ComesIn q t u) : ComesIn q s u :=
  ⟨second.dead.trans first.dead, second.jobs.trans first.jobs, second.mem.trans first.mem, second.routes.trans first.routes,
    fun f other key i => (second.get f other key i).trans (first.get f other key i)⟩

theorem ComesIn.foldl {α : Type} {q : Nat} {f : State → α → State} (hf : ∀ t x, ComesIn q t (f t x)) (l : List α) (s : State) :
    ComesIn q s (l.foldl f s) := by
  induction l generalizing s with
  | nil => exact .refl q s
  | cons x l ih => exact (hf s x).trans (ih (f s x))

section
variable (s : State) (q : Nat)

theorem comesIn_putQuay {k : Nat} {y : Quay} (dead : y.dead = (s.quay k).dead) : ComesIn q s (s.putQuay k y) := by
  refine ⟨?_, rfl, rfl, rfl, fun _ _ _ _ => rfl⟩
  rw [State.quay_putQuay]
  split
  · next same => rw [same, dead]
  · rfl

theorem comesIn_forward (b : Nat × Nat) : ComesIn q s (s.forward b) := by
  unfold State.forward
  dsimp only
  split
  · exact (comesIn_putQuay s q (by rfl)).trans ⟨rfl, rfl, rfl, rfl, fun _ _ _ _ => rfl⟩
  · exact .refl q s

theorem comesIn_quayFails (c : Nat) : ComesIn q s (s.quayFails q c) := by
  by_cases failed : (s.quay q).st = .failed
  · rw [quayFails_again c failed]; exact .refl q s
  · obtain ⟨frame, get, -, -⟩ := quayFails_spec c failed
    refine ⟨?_, ?_, ?_, ?_, get⟩ <;> rw [frame]
    · exact (congrArg Quay.dead ((State.quay_putQuay s q (s.quay q).failed q).trans (if_pos rfl)) :)
    · exact diverted_diverted q s.routes

theorem comesIn_deliverFrame (h : Nat × Nat × List (Nat × Nat)) : ComesIn q s (s.deliverFrame q h) := by
  unfold State.deliverFrame
  dsimp only
  split
  · exact .refl q s
  split
  · exact comesIn_quayFails s q 3
  have counted : ComesIn q s (h.2.2.foldl (fun t b => t.forward b) (s.countFrame q h.1)) :=
    (comesIn_putQuay s q (by rfl)).trans (.foldl (fun t b => comesIn_forward t q b) _ _)
  split
  · rw [send_frame]
    exact counted.trans ⟨rfl, rfl, rfl, rfl, fun _ _ _ _ => rfl⟩
  · exact counted

theorem comesIn_deliverFrames : ComesIn q s (s.deliverFrames q) := by
  unfold State.deliverFrames
  exact (comesIn_putQuay s q (by rfl)).trans (.foldl (fun t h => comesIn_deliverFrame t q h) _ _)

end

/-! ### Stopping (R500) -/

section
variable {s : State} {q : Nat}

/-- A drained quay, stopped. -/
def State.atRest (s : State) (q : Nat) : State :=
  ({ s.divert q with laneOut := s.laneOut.lose q }.putQuay q { (s.quay q).emptied with st := .stopped, stopping := false, keyed := false }).put
    QUY_CTL_STOPPED q 1

theorem atRest_frame (s : State) (q : Nat) : ∃ l m o, s.atRest q = { s with flds := l, quays := m, routes := o, laneOut := s.laneOut.lose q } :=
  ⟨_, _, _, rfl⟩

theorem keepsFieldsBut_atRest {t : State} {l : List Nat} (keeps : KeepsFieldsBut s t l) (listed : QUY_CTL_STOPPED.key q ∈ l) :
    KeepsFieldsBut s (t.atRest q) l :=
  keepsFieldsBut_put_listed (t := { t.divert q with laneOut := t.laneOut.lose q }.putQuay q _) keeps listed 1

theorem quay_atRest_other {m : Nat} (s : State) (other : m ≠ q) : (s.atRest q).quay m = s.quay m :=
  (State.quay_putQuay { s.divert q with laneOut := s.laneOut.lose q } q _ m).trans (if_neg other)

theorem quay_putQuay_other {m : Nat} (s : State) (y : Quay) (other : m ≠ q) : (s.putQuay q y).quay m = s.quay m :=
  (State.quay_putQuay s q y m).trans (if_neg other)

theorem quayStopped_eq (s : State) (q : Nat) :
    s.quayStopped q = ((s.putQuay q { s.quay q with replays := [] }).deliverFrames q).atRest q := by
  unfold State.quayStopped State.atRest; rfl

theorem quayStopped_spec (s : State) (q : Nat) : let t := s.quayStopped q
    (∃ y : Quay, t.quay q = { y.emptied with st := .stopped, stopping := false, keyed := false }) ∧
    (∀ f : Fld, (∀ g ∈ stackFlds, f.ord % 512 ≠ g.ord % 512) → f.ord % 512 ≠ QUY_STATUS_KEY_FAILS.ord % 512 →
      f.ord % 512 ≠ QUY_CTL_STOPPED.ord % 512 → ∀ i, t.get f i = s.get f i) ∧
    t.get QUY_CTL_STOPPED q = 1 ∧ t.routes = diverted q s.routes ∧ t.jobs = s.jobs ∧ t.mem = s.mem ∧ (t.quay q).dead = (s.quay q).dead := by
  have came := (comesIn_putQuay s q (k := q) (y := { s.quay q with replays := [] }) rfl).trans (comesIn_deliverFrames _ q)
  rw [quayStopped_eq]
  dsimp only
  generalize State.deliverFrames _ q = v at came
  have quay : (v.atRest q).quay q = { (v.quay q).emptied with st := .stopped, stopping := false, keyed := false } :=
    (State.quay_putQuay _ q _ q).trans (if_pos rfl)
  exact ⟨⟨_, quay⟩, fun f other key stopped i => (State.get_put_other stopped ..).trans (came.get f other key i), State.get_put_self .., came.routes, came.jobs,
    came.mem, by rw [quay]; exact came.dead⟩

theorem quayStopped_empty (none : (s.quay q).held = []) :
    s.quayStopped q = ((s.putQuay q { s.quay q with replays := [] }).putQuay q { s.quay q with replays := [] }).atRest q := by
  have quay : (s.putQuay q { s.quay q with replays := [] }).quay q = { s.quay q with replays := [] } := (State.quay_putQuay ..).trans (if_pos rfl)
  have same : { s.quay q with replays := [], held := [] } = { s.quay q with replays := [] } := by rw [← none]
  rw [quayStopped_eq]
  unfold State.deliverFrames
  dsimp only
  rw [quay]
  dsimp only
  rw [none, List.filter_nil, List.filter_nil, List.foldl_nil, same]

/-- A frame without blocks for others, alone in a link buffer, is delivered. -/
theorem out_quayStopped_single {l n : Nat} (up : (s.quay q).st = .up) (one : (s.quay q).held = [(l, n, [])]) (fits : (s.quay q).counterFits l n = true) :
    (s.quayStopped q).out = s.out ++ [.deliver q l n] := by
  have quay : (s.putQuay q { s.quay q with replays := [] }).quay q = { s.quay q with replays := [] } := (State.quay_putQuay ..).trans (if_pos rfl)
  rw [quayStopped_eq]
  unfold State.deliverFrames
  dsimp only
  rw [quay]
  dsimp only
  rw [one]
  change (State.atRest (List.foldl _ _ [(l, n, [])]) q).out = _
  rw [List.foldl_cons, List.foldl_nil]
  unfold State.deliverFrame State.quayUp
  rw [State.quay_putQuay, if_pos rfl, if_neg (by simp [up]), if_neg (by
    rw [show ∀ w : List (Nat × Nat × List (Nat × Nat)), ({ s.quay q with replays := [], held := w } : Quay).counterFits l n = true from fun _ => fits]
    decide)]
  dsimp only
  rw [List.foldl_nil, if_pos (by decide), send_of_passed rfl]
  rfl

end

/-! ### Joining -/

theorem askJoin_frame (s : State) : s.askJoin = { s with
    pod := { s.pod with requested := s.askJoin.pod.requested }, unacked := s.askJoin.unacked, nextVc0 := s.askJoin.nextVc0, out := s.askJoin.out } := by
  unfold State.askJoin
  split
  · rw [sendVc0_eq]
  · rfl

theorem quaysReady_askJoin (s : State) : s.askJoin.quaysReady = s.quaysReady := by rw [askJoin_frame]; rfl

theorem askJoin_asks {s : State} (joining : s.pod.joining = true) (fresh : s.pod.requested = false) (ready : s.quaysReady = true) :
    s.askJoin.pod.requested = true ∧ ∃ u ∈ s.askJoin.unacked, u.dst = s.get QUY_POD_CFG_MASTER_ID 0 ∧ u.msg = .join s.me := by
  unfold State.askJoin
  rw [if_pos (by simp [joining, fresh, ready])]
  exact ⟨by rw [sendVc0_eq], mem_unacked_sendVc0 ..⟩

end Sys2Proof.Machine
end

section
/-! Settling O49. -/

namespace Sys2Proof.Safety

open Sys2Proof.Machine

section
variable {s : State} {q : Nat}

/-- A quay that trains and is keyed. -/
theorem quayTrains_keyed (used : s.get QUY_PEER_UNUSED q = 0) : let t := s.quayTrains q true
    t.quay q = { (s.quay q).emptied with st := .up, keyed := true, txFrames := [], rxFrames := [] } ∧ (∀ m, m ≠ q → t.quay m = s.quay m) ∧
    (∀ f : Fld, f.ord % 512 ≠ QUY_STATUS_WIDTH.ord % 512 → f.ord % 512 ≠ QUY_STATUS_SPARES_LEFT.ord % 512 → ∀ i, t.get f i = s.get f i) ∧
    t.get QUY_STATUS_WIDTH q = min 32 (34 - (s.quay q).dead.length) ∧ t.pod.reroute = true ∧
    (s.pod.joining = true → s.pod.requested = false → t.quaysReady = true → t.pod.requested = true ∧
      ∃ u ∈ t.unacked, u.dst = s.get QUY_POD_CFG_MASTER_ID 0 ∧ u.msg = .join s.me) ∧ t.jobs = s.jobs ∧ t.mem = s.mem := by
  generalize hy : ({ (s.quay q).emptied with st := .up, keyed := true, txFrames := [], rxFrames := [] } : Quay) = y
  have dead : ((s.putQuay q y).quay q).dead = (s.quay q).dead := by 
    rw [State.quay_putQuay, if_pos rfl, ← hy]
    rfl
  generalize hp : ({ (s.putQuay q y).putWidth q with pod := { s.pod with reroute := true } } : State) = p
  have trains : s.quayTrains q true = p.askJoin := by
    rw [← hp, ← hy]
    unfold State.quayTrains
    rw [if_neg (by simp [State.flag, used]), if_pos rfl]
    rfl
  rw [trains]
  dsimp only
  have quays : p.quays = (s.putQuay q y).quays := by rw [← hp]; rfl
  have pod : p.pod = { s.pod with reroute := true } := by rw [← hp]
  have jobs : p.jobs = s.jobs := by rw [← hp]; rfl
  have mem : p.mem = s.mem := by rw [← hp]; rfl
  have get (f : Fld) (width : f.ord % 512 ≠ QUY_STATUS_WIDTH.ord % 512) (spares : f.ord % 512 ≠ QUY_STATUS_SPARES_LEFT.ord % 512) (i : Nat) :
      p.get f i = s.get f i := by
    rw [← hp]; exact (State.get_put_other spares ..).trans (State.get_put_other width ..)
  have wide : p.get QUY_STATUS_WIDTH q = min 32 (34 - (s.quay q).dead.length) := by
    rw [← hp]
    refine (State.get_put_other (by decide) ..).trans ((State.get_put_self ..).trans ?_)
    rw [dead]
    exact Nat.mod_eq_of_lt (Nat.lt_of_le_of_lt (Nat.min_le_left ..) (show 32 < 2 ^ 6 by decide))
  have frame := askJoin_frame p
  have ready := quaysReady_askJoin p
  refine ⟨?_, fun m other => ?_, fun f width spares i => ?_, ?_, ?_, fun joining fresh now => ?_, ?_, ?_⟩
  · rw [frame]; change Tab.get _ p.quays q = _; rw [quays]
    exact (State.quay_putQuay s q y q).trans (if_pos rfl)
  · rw [frame]; change Tab.get _ p.quays m = _; rw [quays]
    exact (State.quay_putQuay s q y m).trans (if_neg other)
  · rw [frame]; exact get f width spares i
  · rw [frame]; exact wide
  · rw [frame]; change p.pod.reroute = true; rw [pod]
  · obtain ⟨asked, u, sent, dst, msg⟩ := askJoin_asks (s := p) (by rw [pod]; exact joining) (by rw [pod]; exact fresh) (ready.symm.trans now)
    exact ⟨asked, u, sent, dst.trans (get _ (by decide) (by decide) 0), msg.trans (congrArg Net.join (get _ (by decide) (by decide) 0))⟩
  · rw [frame]; exact jobs
  · rw [frame]; exact mem

end

/-- Settles O49: a stop by the frames that come in first and the tide, training by its keying, and the join that a ready quay may ask for. -/
theorem quaysStopTrainAndReconnect : Obligations.QuaysStopTrainAndReconnect := by
  unfold Obligations.QuaysStopTrainAndReconnect
  refine ⟨?stop, ?up, ?train, ?mate⟩
  case stop =>
    intro s q up q_lt runs
    have run : exec (.quayStop q) s = .next (s.quayStop q) := by
      change execQuayStop q s = _
      rw [execQuayStop, if_pos (by simpa [quayExists] using q_lt), hostDo_of_HostUp up]
    have stopped : (s.put QUY_CTL_STOP q 1).flag QUY_CTL_STOPPED q = false := by
      unfold State.flag; rw [State.get_put_other (by decide), runs]; rfl
    have tide : (s.put QUY_CTL_STOP q 1).flag HMR_TIDE_STATUS_RUNNING 0 = s.flag HMR_TIDE_STATUS_RUNNING 0 := by
      unfold State.flag; rw [State.get_put_other (by decide)]
    unfold State.quayStop at run
    dsimp only at run
    rw [stopped, if_neg Bool.false_ne_true, tide] at run
    refine ⟨fun running => ?_, fun still => ?_⟩
    · rw [run]
      exact congrArg Host.Outcome.next (if_pos (by simpa [State.flag] using running))
    · rw [if_neg (by simp [State.flag, still])] at run
      refine ⟨_, run, ?_⟩
      generalize hu : s.put QUY_CTL_STOP q 1 = u
      have rest : u = { s with flds := u.flds } := by rw [← hu]; rfl
      have stop : u.get QUY_CTL_STOP q = 1 := by rw [← hu]; exact State.get_put_self ..
      have quays : u.quays = s.quays := by rw [rest]
      obtain ⟨⟨y, quay⟩, fields, stopped, routes, jobs, mem, dead⟩ := quayStopped_spec u q
      have quay' : u.quay q = s.quay q := by rw [rest]; rfl
      refine ⟨by rw [quay], by rw [quay], by rw [quay], by rw [quay]; rfl, by rw [quay]; rfl, by rw [quay]; rfl, dead.trans (by rw [quay']),
        (fields _ (by decide) (by decide) (by decide) q).trans stop, stopped, routes.trans (by rw [rest]; rfl), jobs.trans (by rw [rest]),
        mem.trans (by rw [rest]), fun none => ?_, fun l n st one fits => ?_⟩
      · have empty := quayStopped_empty (s := u) (q := q) (by rw [quay']; exact none)
        rw [empty]
        refine ⟨fun m other => ?_, ?_, ?_⟩
        · rw [quay_atRest_other _ other, quay_putQuay_other _ _ other, quay_putQuay_other _ _ other, rest]; rfl
        · have keeps : KeepsFieldsBut s u [QUY_CTL_STOP.key q, QUY_CTL_STOPPED.key q] := by
            rw [← hu]; exact keepsFieldsBut_put_listed (keepsFieldsBut_same rfl _) (by simp) 1
          exact keepsFieldsBut_atRest (t := (u.putQuay q _).putQuay q _) keeps (by simp)
        · obtain ⟨l, m, o, eq⟩ := atRest_frame ((u.putQuay q { u.quay q with replays := [] }).putQuay q { u.quay q with replays := [] }) q
          rw [eq, rest]; rfl
      · rw [out_quayStopped_single (s := u) (by rw [quay']; exact st) (by rw [quay']; exact one) (by rw [quay']; exact fits), rest]
  case up =>
    intro s q k up q_lt st
    change execQuayTrain q k s = _
    rw [execQuayTrain, if_pos (by simpa [quayExists] using q_lt), hostDo_of_HostUp up]
    refine congrArg Host.Outcome.next (if_pos ?_)
    unfold State.quayUp
    rw [State.quay_putQuay, if_pos rfl]
    exact beq_iff_eq.mpr st
  case train =>
    intro s q up q_lt st
    have run (k : Bool) : exec (.quayTrain q k) s = .next (s.quayTrain q k) := by
      change execQuayTrain q k s = _
      rw [execQuayTrain, if_pos (by simpa [quayExists] using q_lt), hostDo_of_HostUp up]
    generalize hu : ((s.put QUY_CTL_STOP q 0).put QUY_CTL_STOPPED q 0).putQuay q { s.quay q with stopping := false } = u
    have quay : u.quay q = { s.quay q with stopping := false } := by rw [← hu]; exact (State.quay_putQuay _ q _ q).trans (if_pos rfl)
    have others (m : Nat) (other : m ≠ q) : u.quay m = s.quay m := by rw [← hu]; exact (State.quay_putQuay _ q _ m).trans (if_neg other)
    have stop : u.get QUY_CTL_STOP q = 0 := by rw [← hu]; exact (State.get_put_other (by decide) ..).trans (State.get_put_self ..)
    have stopped : u.get QUY_CTL_STOPPED q = 0 := by rw [← hu]; exact State.get_put_self ..
    have get (f : Fld) (one : f.ord % 512 ≠ QUY_CTL_STOP.ord % 512) (two : f.ord % 512 ≠ QUY_CTL_STOPPED.ord % 512) (i : Nat) : u.get f i = s.get f i := by
      rw [← hu]; exact (State.get_put_other two ..).trans (State.get_put_other one ..)
    have rest : u = { s with flds := u.flds, quays := u.quays } := by rw [← hu]; rfl
    have trains (k : Bool) : s.quayTrain q k = u.quayTrains q k := by
      rw [← hu]
      refine if_neg ?_
      unfold State.quayUp
      rw [State.quay_putQuay, if_pos rfl]
      exact fun up => st (beq_iff_eq.mp up)
    have unused : u.get QUY_PEER_UNUSED q = s.get QUY_PEER_UNUSED q := get _ (by decide) (by decide) q
    refine ⟨fun used => ?_, fun used => ?_, fun dark k => ?_⟩
    · obtain ⟨now, others', fields, width, reroute, join, jobs, mem⟩ := quayTrains_keyed (unused.trans used)
      refine ⟨_, (run true).trans (congrArg _ (trains true)), now.trans (by rw [quay]; rfl), fun m other => (others' m other).trans (others m other),
        (fields _ (by decide) (by decide) q).trans stop, (fields _ (by decide) (by decide) q).trans stopped, width.trans (by rw [quay]), reroute,
        fun joining fresh ready => ?_, jobs.trans (by rw [rest]), mem.trans (by rw [rest])⟩
      obtain ⟨asked, x, sent, dst, msg⟩ := join (by rw [rest]; exact joining) (by rw [rest]; exact fresh) ready
      exact ⟨asked, x, sent, dst.trans (get _ (by decide) (by decide) 0), msg.trans (congrArg Net.join (get _ (by decide) (by decide) 0))⟩
    · have fails : u.quayTrains q false = (u.putQuay q { u.quay q with st := .keying }).quayFails q 2 := by
        unfold State.quayTrains
        rw [if_neg (by simp [State.flag, unused, used]), if_neg Bool.false_ne_true]
      obtain ⟨frame, -, count, -⟩ := quayFails_spec (s := u.putQuay q { u.quay q with st := .keying }) (q := q) 2
        (by rw [State.quay_putQuay, if_pos rfl]; exact (show QuayState.keying ≠ .failed by decide))
      have now := (congrArg (fun t : State => t.quay q) frame).trans ((State.quay_putQuay (u.putQuay q { u.quay q with st := .keying }) q _ q).trans (if_pos rfl))
      refine ⟨_, (run false).trans (congrArg _ ((trains false).trans fails)), ?_, ?_, ?_, ?_, ?_⟩
      · exact (congrArg Quay.st now :)
      · exact (congrArg Quay.keyed now :)
      · rw [count, if_pos rfl]
        exact congrArg (fun n => min (n + 1) 0xFFFF) (get _ (by decide) (by decide) q)
      · rw [frame]; change u.jobs = _; rw [rest]
      · rw [frame]; change u.mem = _; rw [rest]
    · have down : u.quayTrains q k = u.putQuay q { u.quay q with st := .down } := if_pos (by simpa [State.flag, unused] using dark)
      refine ⟨_, (run k).trans (congrArg _ ((trains k).trans down)), ?_, ?_⟩
      · exact (State.quay_putQuay ..).trans ((if_pos rfl).trans (by rw [quay]))
      · rw [rest]; rfl
  case mate =>
    intro s q live q_lt st stop used
    have run : exec (.quayReconnect q true) s = .next (s.quayTrains q true) := by
      refine if_pos ?_
      rcases st with st | st <;> simp [live_of_Live live, quayExists, q_lt, st, stop, State.flag]
    obtain ⟨quay, others, -, -, -, -, jobs, mem⟩ := quayTrains_keyed (s := s) used
    exact ⟨_, run, by rw [quay], by rw [quay], by rw [quay], by rw [quay], others, jobs, mem⟩

end Sys2Proof.Safety
end


section
/-! SUPPORT. Blocks, frames, and what a lane sends. -/

namespace Sys2Proof.Machine

open Sys2Proof.Safety

@[simp] theorem putQuay_putQuay (s : State) (q : Nat) (x y : Quay) : (s.putQuay q x).putQuay q y = s.putQuay q y := by
  unfold State.putQuay
  dsimp only
  rw [Tab.insert_insert]

@[simp] theorem quay_putQuay_self (s : State) (q : Nat) (y : Quay) : (s.putQuay q y).quay q = y := (State.quay_putQuay s q y q).trans (if_pos rfl)

/-! ### Blocks that come in (R485, R486, R491) -/

section
variable {s : State} {q l n : Nat}

/-- Replays asked for once a block has passed. -/
def Quay.passed (y : Quay) (l n : Nat) : List (Nat × Nat × Nat) := y.replays.filter fun r => !(r.1 == l && r.2.1 == n)

/-- An earlier block of the frame's lane is still to be replayed. -/
def Quay.waitsFor (y : Quay) (l n : Nat) : Prop := ∃ r ∈ y.replays, r.1 = l ∧ seqBefore r.2.1 n = true

theorem waits_passed_iff (y : Quay) (b : List (Nat × Nat)) (h : List (Nat × Nat × List (Nat × Nat))) :
    ({ y with replays := y.passed l n, held := h } : Quay).waits (l, n, b) = true ↔ y.waitsFor l n := by
  unfold Quay.waits Quay.waitsFor Quay.passed
  rw [List.any_eq_true]
  constructor
  · rintro ⟨r, left, earlier⟩
    exact ⟨r, (List.mem_filter.mp left).1, by simpa using earlier⟩
  · rintro ⟨r, asked, lane, earlier⟩
    have other : r.2.1 ≠ n := by
      intro same
      rw [same] at earlier
      simp [seqBefore] at earlier
    exact ⟨r, List.mem_filter.mpr ⟨asked, by simp [other]⟩, by simp [lane, earlier]⟩

/-- The one frame of a link buffer comes in, or waits on. -/
theorem deliverFrames_one {h : Nat × Nat × List (Nat × Nat)} (one : (s.quay q).held = [h]) : s.deliverFrames q =
    if (s.quay q).waits h then s.putQuay q { s.quay q with held := [h] } else (s.putQuay q { s.quay q with held := [] }).deliverFrame q h := by
  unfold State.deliverFrames
  dsimp only
  rw [one]
  cases waits : (s.quay q).waits h <;> simp [List.filter, waits]

/-- A block that closes a frame which waits for nothing: the frame is delivered. -/
theorem blockPasses_delivers {b : List (Nat × Nat)} (empty : (s.quay q).held = []) (free : ¬ (s.quay q).waitsFor l n) :
    s.blockPasses q l n true b = (s.putQuay q { s.quay q with replays := (s.quay q).passed l n, held := [] }).deliverFrame q (l, n, b) := by
  have runs : ({ s.quay q with replays := (s.quay q).passed l n, held := [(l, n, b)] } : Quay).waits (l, n, b) = false := by
    rw [← Bool.not_eq_true, waits_passed_iff]; exact free
  have closed : s.blockPasses q l n true b =
      (s.putQuay q { s.quay q with replays := (s.quay q).passed l n, held := [(l, n, b)] }).deliverFrames q := by
    unfold State.blockPasses
    dsimp only
    rw [if_pos rfl, empty]
    rfl
  rw [closed, deliverFrames_one (by rw [quay_putQuay_self]), quay_putQuay_self]
  rw [runs, if_neg Bool.false_ne_true, putQuay_putQuay]

/-- A block that closes a frame which waits: the frame is held. -/
theorem blockPasses_holds {b : List (Nat × Nat)} (empty : (s.quay q).held = []) (waits : (s.quay q).waitsFor l n) :
    s.blockPasses q l n true b = s.putQuay q { s.quay q with replays := (s.quay q).passed l n, held := [(l, n, b)] } := by
  have stays : ({ s.quay q with replays := (s.quay q).passed l n, held := [(l, n, b)] } : Quay).waits (l, n, b) = true :=
    (waits_passed_iff _ _ _).mpr waits
  have closed : s.blockPasses q l n true b =
      (s.putQuay q { s.quay q with replays := (s.quay q).passed l n, held := [(l, n, b)] }).deliverFrames q := by
    unfold State.blockPasses
    dsimp only
    rw [if_pos rfl, empty]
    rfl
  rw [closed, deliverFrames_one (by rw [quay_putQuay_self]), quay_putQuay_self]
  rw [stays, if_pos rfl, putQuay_putQuay]

/-- A frame whose counter fits comes in. -/
theorem deliverFrame_fits {b : List (Nat × Nat)} (up : (s.quay q).st = .up) (fits : (s.quay q).counterFits l n = true) (short : b.length < 16) :
    s.deliverFrame q (l, n, b) = (b.foldl (fun t b => t.forward b) (s.countFrame q l)).send (.deliver q l n) := by
  unfold State.deliverFrame State.quayUp
  rw [if_neg (by simp [up]), if_neg (by simp [fits])]
  exact if_pos short

theorem deliverFrame_fails {b : List (Nat × Nat)} (up : (s.quay q).st = .up) (fits : (s.quay q).counterFits l n = false) :
    s.deliverFrame q (l, n, b) = s.quayFails q 3 := by
  unfold State.deliverFrame State.quayUp
  rw [if_neg (by simp [up]), if_pos (by simp [fits])]

theorem creditBack_spec (s : State) (q v k : Nat) : s.creditBack q v k = { s with quays := (s.creditBack q v k).quays } ∧
    (∀ m, m ≠ q → (s.creditBack q v k).quay m = s.quay m) ∧ ((s.creditBack q v k).quay q).st = (s.quay q).st := by
  unfold State.creditBack
  dsimp only
  split
  · exact ⟨rfl, fun _ _ => rfl, rfl⟩
  · exact ⟨rfl, fun m other => quay_putQuay_other s _ other, by rw [quay_putQuay_self]⟩

end

/-! ### Blocks that a lane sends (R487, R488) -/

section
variable {s : State} {q l : Nat}

/-- A block of a virtual channel that may go now. -/
def State.sendable (s : State) (q c : Nat) (w : Waiting) : Prop :=
  w ∈ s.laneHeads q ∧ w.vc = c ∧ Tab.get (fun _ => 0) (s.quay q).spent c < vcCredit c

/-- The first of the blocks of a virtual channel that may go now. -/
def State.firstOf (s : State) (q c : Nat) : Option Waiting :=
  pickBy Waiting.before (((s.laneHeads q).filter fun w => decide (Tab.get (fun _ => 0) (s.quay q).spent w.vc < vcCredit w.vc)).filter fun w => w.vc == c)

theorem nextBlock_eq (s : State) (q l : Nat) : s.nextBlock q l =
    ((if Tab.get (fun _ => 0) (s.quay q).sinceVc2 l ≥ 15 then s.firstOf q 2 else none).or ((s.firstOf q 0).or ((s.firstOf q 1).or (s.firstOf q 2)))) := by
  unfold State.nextBlock
  dsimp only
  have eager (a b : Option Waiting) : (a.orElse fun _ => b) = a.or b := by cases a <;> rfl
  simp only [eager]
  rfl

theorem sendable_of_firstOf {c : Nat} {w : Waiting} (first : s.firstOf q c = some w) : s.sendable q c w := by
  obtain ⟨open', vc⟩ := List.mem_filter.mp (mem_of_pickBy first)
  obtain ⟨head, credit⟩ := List.mem_filter.mp open'
  have vc : w.vc = c := by simpa using vc
  exact ⟨head, vc, by rw [← vc]; simpa using credit⟩

theorem firstOf_eq_none {c : Nat} : s.firstOf q c = none ↔ ∀ x, ¬ s.sendable q c x := by
  constructor
  · intro none x ready
    obtain ⟨head, vc, credit⟩ := ready
    have empty := pickBy_eq_none.mp none
    have mine : x ∈ ((s.laneHeads q).filter fun w => decide (Tab.get (fun _ => 0) (s.quay q).spent w.vc < vcCredit w.vc)).filter fun w => w.vc == c :=
      List.mem_filter.mpr ⟨List.mem_filter.mpr ⟨head, by rw [vc]; exact decide_eq_true credit⟩, by simp [vc]⟩
    rw [empty] at mine
    cases mine
  · intro none
    cases first : s.firstOf q c with
    | none => rfl
    | some w => exact absurd (sendable_of_firstOf first) (none w)

theorem firstOf_some {c : Nat} {x : Waiting} (ready : s.sendable q c x) : ∃ w, s.firstOf q c = some w ∧ w.vc = c := by
  cases first : s.firstOf q c with
  | none => exact absurd ready (firstOf_eq_none.mp first x)
  | some w => exact ⟨w, rfl, (sendable_of_firstOf first).2.1⟩

theorem sendable_of_nextBlock {w : Waiting} (next : s.nextBlock q l = some w) : s.sendable q w.vc w := by
  have one {c : Nat} (first : s.firstOf q c = some w) : s.sendable q w.vc w := by
    have ready := sendable_of_firstOf first
    rw [ready.2.1]
    exact ready
  rw [nextBlock_eq] at next
  rcases Option.or_eq_some_iff.mp next with first | ⟨-, next⟩
  · split at first
    · exact one first
    · cases first
  rcases Option.or_eq_some_iff.mp next with first | ⟨-, next⟩
  · exact one first
  rcases Option.or_eq_some_iff.mp next with first | ⟨-, next⟩
  · exact one first
  · exact one next

theorem sendBlock_spec (s : State) (q l : Nat) (w : Waiting) : (s.sendBlock q l w).out = s.out ++ [.block q l w.vc w.message] ∧
    Tab.get (fun _ => 0) ((s.sendBlock q l w).quay q).spent w.vc = Tab.get (fun _ => 0) (s.quay q).spent w.vc + 1 ∧
    (∀ i, w.message = some i → w.blocks ≤ 1 → i ∈ (s.sendBlock q l w).laneOut.sent) ∧
    (∀ i, w.message = some i → 1 < w.blocks → ∃ j, (i, q, j + 1) ∈ (s.sendBlock q l w).laneOut.part) := by
  unfold State.sendBlock
  dsimp only
  rw [send_of_passed rfl]
  cases message : w.message with
  | none => exact ⟨rfl, by
      change Tab.get _ ((s.putQuay q _).quay q).spent w.vc = _
      rw [quay_putQuay_self, Tab.get_insert, if_pos rfl], fun i some => (nomatch some), fun i some => (nomatch some)⟩
  | some i =>
    refine ⟨rfl, ?_, fun j same few => ?_, fun j same many => ?_⟩
    · change Tab.get _ ((s.putQuay q _).quay q).spent w.vc = _
      rw [quay_putQuay_self, Tab.get_insert, if_pos rfl]
    · obtain rfl := Option.some.inj same
      dsimp only
      rw [if_pos few]
      exact List.mem_append_right _ List.mem_cons_self
    · obtain rfl := Option.some.inj same
      dsimp only
      rw [if_neg (Nat.not_le.mpr many)]
      exact ⟨_, List.mem_append_right _ List.mem_cons_self⟩

end

end Sys2Proof.Machine
end

section
/-! Settling O50. -/

namespace Sys2Proof.Safety

open Sys2Proof.Machine

section
variable {s : State} {q l n v k : Nat} {b : List (Nat × Nat)}

theorem blockReceive_passes (live : Live s) (q_lt : q < 16) (l_lt : l < 34) (n_lt : n < 4096) (up : (s.quay q).st = .up) (served : l ∉ (s.quay q).dead)
    (e : BlockEnd) : exec (.blockReceive q l n 0 e) s = .next ((s.creditBack q e.crVc e.crBlocks).blockPasses q l n e.closes e.through) := by
  change execBlockReceive q l n 0 e s = _
  rw [execBlockReceive, if_pos (by simp [live_of_Live live, quayExists, laneExists, State.quayUp, q_lt, l_lt, n_lt, up, served]), if_pos (by rfl)]

/-- A frame that comes in over a quay. -/
theorem frame_comes_in (up : (s.quay q).st = .up) (empty : (s.quay q).held = []) (free : ¬ (s.quay q).waitsFor l n)
    (fits : (s.quay q).counterFits l n = true) (short : b.length < 16) : s.blockPasses q l n true b =
      (b.foldl (fun t b => t.forward b) (s.putQuay q { s.quay q with
        replays := (s.quay q).passed l n, rxFrames := Tab.insert l (Tab.get (fun _ => 0) (s.quay q).rxFrames l + 1) (s.quay q).rxFrames,
        held := [] })).send (.deliver q l n) := by
  rw [blockPasses_delivers empty free, deliverFrame_fits (by rw [quay_putQuay_self]; exact up) (by rw [quay_putQuay_self]; exact fits) short]
  unfold State.countFrame
  dsimp only
  rw [quay_putQuay_self, putQuay_putQuay]

end

/-- Settles O50: a block that comes in by the frame that it closes, and a block that goes out by what may be sent. -/
theorem blocksFramesAndResends : Obligations.BlocksFramesAndResends := by
  unfold Obligations.BlocksFramesAndResends
  refine ⟨?credit, ?blocks, ?sends, ?timeout, ?resend, ?ack⟩
  case credit =>
    intro s q v k
    exact ⟨fun zero => if_pos (by simpa using zero), fun some => if_neg (by simpa using some)⟩
  case blocks =>
    intro s q l n v k live q_lt l_lt n_lt up w y passed frames waits
    obtain ⟨credited, others, st⟩ := creditBack_spec s q v k
    refine ⟨fun served => ?_, ?_, fun f b b_lt => ?_, ?_, ?_⟩
    · have run (b : List (Nat × Nat)) := blockReceive_passes live q_lt l_lt n_lt up served ⟨true, b, v, k⟩
      refine ⟨fun empty free fits => ?_, fun d c empty free fits far way => ?_, fun b empty free fits => ?_, fun b empty stuck => ?_, fun b c => ?_,
        fun b c few => ?_, fun b c many => ?_, fun b c => ?_⟩
      · refine ⟨_, (run []).trans (congrArg _ (frame_comes_in (st.trans up) empty free fits (show 0 < 16 by decide))), ?_⟩
        rw [List.foldl_nil, send_of_passed rfl]
        refine ⟨quay_putQuay_self .., ?_, fun m other => (quay_putQuay_other _ _ other).trans (others m other), ?_⟩
        · change (s.creditBack q v k).out ++ _ = _; rw [credited]
        · rw [credited]; rfl
      · refine ⟨_, (run [(d, c)]).trans (congrArg _ (frame_comes_in (st.trans up) empty free fits (show 1 < 16 by decide))), ?_⟩
        rw [List.foldl_cons, List.foldl_nil, send_of_passed rfl]
        generalize hp : (s.creditBack q v k).putQuay q _ = p
        have quay : p.quay q = { y with replays := passed, rxFrames := frames, held := [] } := by rw [← hp]; exact quay_putQuay_self ..
        have else' (m : Nat) (other : m ≠ q) : p.quay m = s.quay m := by rw [← hp]; exact (quay_putQuay_other _ _ other).trans (others m other)
        have rest : p = { s with quays := p.quays } := by rw [← hp, credited]; rfl
        have route : p.quayTo d = s.quayTo d := by rw [rest]; rfl
        have open' : p.quayUp (s.quayTo d) = true := by unfold State.quayUp; rw [else' _ far]; exact way
        have forward : p.forward (d, c) = { p.putQuay (s.quayTo d) { s.quay (s.quayTo d) with through := (s.quay (s.quayTo d)).through ++ [(s.out.length, c)] }
            with counts := { s.counts with forwarded := s.counts.forwarded + 256 } } := by
          unfold State.forward
          dsimp only
          rw [route, if_pos open', else' _ far, show p.counts = s.counts by rw [rest], show p.out = s.out by rw [rest]]
        rw [forward]
        refine ⟨quay_putQuay_self .., ?_, ?_, rfl, fun m here there => ?_, ?_⟩
        · exact (quay_putQuay_other p _ (Ne.symm far)).trans quay
        · change p.out ++ _ = _; rw [rest]
        · exact (quay_putQuay_other p _ there).trans (else' m here)
        · rw [rest]; rfl
      · obtain ⟨frame, -, -, -⟩ := quayFails_spec (s := (s.creditBack q v k).putQuay q { y with replays := passed, held := [] }) (q := q) 3
          (by rw [quay_putQuay_self]; exact (fun failed => by rw [show (s.creditBack q v k).quay q = y from rfl] at st; rw [st, up] at failed; cases failed))
        have fails := (blockPasses_delivers (b := b) empty free).trans (deliverFrame_fails (by rw [quay_putQuay_self]; exact st.trans up)
          (by rw [quay_putQuay_self]; exact fits))
        have now := (congrArg (fun t : State => t.quay q) frame :).trans (quay_putQuay_self ((s.creditBack q v k).putQuay q _) q _)
        refine ⟨_, (run b).trans (congrArg _ fails), (congrArg Quay.st now :), (congrArg Quay.keyed now :), Eq.trans (congrArg State.jobs frame :) ?_,
          Eq.trans (congrArg State.mem frame :) ?_⟩
        · change (s.creditBack q v k).jobs = _; rw [credited]
        · change (s.creditBack q v k).mem = _; rw [credited]
      · refine ⟨_, (run b).trans (congrArg _ (blockPasses_holds empty stuck)), quay_putQuay_self .., fun m other =>
          (quay_putQuay_other _ _ other).trans (others m other), ?_⟩
        rw [credited]; rfl
      · have live' : (s.inc QUY_BLOCKS_CORRECTED_COUNT q 1).live = s.live := by
          unfold State.live State.flag
          rw [State.get_inc_other (by decide)]
          rfl
        change execBlockReceive q l n 1 _ s = execBlockReceive q l n 0 _ (s.inc QUY_BLOCKS_CORRECTED_COUNT q 1)
        have taken : (s.live && quayExists q && laneExists l && s.quayUp q && !(s.quay q).dead.contains l && decide (n < 4096)) = true := by
          simp [live_of_Live live, quayExists, laneExists, State.quayUp, q_lt, l_lt, n_lt, up, served]
        unfold execBlockReceive
        rw [live']
        exact (if_pos taken).trans (if_pos taken).symm
      · change execBlockReceive q l n 2 _ s = _
        rw [execBlockReceive, if_pos (by simp [live_of_Live live, quayExists, laneExists, State.quayUp, q_lt, l_lt, n_lt, up, served])]
        exact congrArg Host.Outcome.next (if_neg (Nat.not_le.mpr few))
      · change execBlockReceive q l n 2 _ s = _
        rw [execBlockReceive, if_pos (by simp [live_of_Live live, quayExists, laneExists, State.quayUp, q_lt, l_lt, n_lt, up, served])]
        exact congrArg Host.Outcome.next (if_pos many)
      · change execBlockReceive q l n 3 _ s = _
        rw [execBlockReceive, if_pos (by simp [live_of_Live live, quayExists, laneExists, State.quayUp, q_lt, l_lt, n_lt, up, served])]
        rfl
    · exact if_pos (by simp [live_of_Live live, quayExists, laneExists, State.quayUp, q_lt, l_lt, n_lt, up])
    · intro u out closed
      have run : exec (.frameIdleClose q l f b) s = .next (closed.rekeyDue q) := by
        change execFrameIdleClose q l f b s = _
        rw [execFrameIdleClose, if_pos (by simp [live_of_Live live, quayExists, laneExists, State.quayUp, q_lt, l_lt, b_lt, up])]
        simp only [beq_iff_eq]
        rfl
      exact ⟨fun few => run.trans (congrArg _ (if_neg (Nat.not_le.mpr few))), fun many => run.trans (congrArg _ (if_pos many))⟩
    · exact if_pos (by simp [live_of_Live live, quayExists, State.quayUp, q_lt, up])
    · exact if_pos (by simp [live_of_Live live, quayExists, State.quayUp, q_lt, up])
  case sends =>
    intro s q l n sendable
    refine ⟨fun none => ?_, fun w next => ⟨?_, sendable_of_nextBlock next, fun _ => sendBlock_spec s q l w⟩, fun x ready due => ?_, fun not2 => ?_⟩
    · cases n with
      | zero => rfl
      | succ n => rw [State.sendBlocks, none]
    · rw [State.sendBlocks, next]
    · obtain ⟨w, first, vc⟩ := firstOf_some ready
      exact ⟨w, by rw [nextBlock_eq, if_pos due, first]; rfl, vc⟩
    · have skip : (if Tab.get (fun _ => 0) (s.quay q).sinceVc2 l ≥ 15 then s.firstOf q 2 else none) = none := by
        split
        · next due =>
          rcases not2 with none | early
          · exact firstOf_eq_none.mpr none
          · exact absurd due (Nat.not_le.mpr early)
        · rfl
      refine ⟨fun x ready => ?_, fun x ready none => ?_⟩
      · obtain ⟨w, first, vc⟩ := firstOf_some ready
        exact ⟨w, by rw [nextBlock_eq, skip, first]; rfl, vc⟩
      · obtain ⟨w, first, vc⟩ := firstOf_some ready
        exact ⟨w, by rw [nextBlock_eq, skip, firstOf_eq_none.mpr none, first]; rfl, vc⟩
  case timeout =>
    intro s n i u live found x
    refine ⟨fun remote flying => ?_, fun kind landed => ?_⟩
    · change execRemoteReadTimeout n i s = _
      rw [execRemoteReadTimeout, found]
      exact if_pos (by simp [live_of_Live live, flying]; exact remote)
    · change execRemoteReadTimeout n i s = _
      rw [execRemoteReadTimeout, found]
      exact (if_neg (by simp [landed])).trans (if_pos (by simp [live_of_Live live, landed]; exact kind))
  case resend =>
    intro s live
    exact if_pos (live_of_Live live)
  case ack =>
    intro s d n live
    have run : exec (.endToEndAck d n) s = .next (s.ackVc0 d n) := if_pos (live_of_Live live)
    refine ⟨fun absent => ?_, fun m found => ?_⟩
    · rw [run]; unfold State.ackVc0; rw [absent]
    · intro t
      unfold State.ackVc0 at run
      rw [found] at run
      dsimp only at run
      refine ⟨fun plain => run.trans (congrArg Host.Outcome.next ?_), fun e master notice => ?_⟩
      · split
        · next e notice =>
          exact if_neg (by
            rcases plain with outside | plain
            · exact fun master => Bool.false_ne_true (outside.symm.trans master)
            · exact absurd notice (plain e))
        · rfl
      · rw [notice] at run
        exact run.trans (congrArg Host.Outcome.next (if_pos master))

end Sys2Proof.Safety
end


section
/-! Settling O51. -/

namespace Sys2Proof.Safety

open Sys2Proof.Machine

/-- Settles O51: each answer as the access gives it, and the four registers and the peer that a freeze writes. -/
theorem remoteStreamsAndPeerFreezes : Obligations.RemoteStreamsAndPeerFreezes := by
  unfold Obligations.RemoteStreamsAndPeerFreezes
  refine ⟨?read, ?write, ?freeze⟩
  case read =>
    intro s v w d n u a len dry rate c k bs hears c_lt r
    have run : exec (.remoteStreamRead d n u a len ⟨dry, rate, c, k⟩) s = _ := if_pos (by simp [hears, c_lt])
    refine ⟨fun waits => ?_, fun served read => ?_⟩
    · rw [run, show s.serveRead ⟨(dry, rate), c, k, n, d, s.seq⟩ a = none from waits]
    · rw [run, show s.serveRead ⟨(dry, rate), c, k, n, d, s.seq⟩ a = some v from served]
      dsimp only
      rw [read]
      rfl
  case write =>
    intro s w d n u a c bs hears c_lt
    have run : exec (.remoteStreamWrite d n u a c bs) s = _ := if_pos (by simp [hears, c_lt])
    refine ⟨fun within write => ?_, fun past => ?_⟩
    · rw [run, if_neg (Nat.not_lt.mpr within), write]
      rfl
    · rw [run]
      exact if_pos past
  case freeze =>
    intro s d c live d_lt c_ge c_le
    refine ⟨_, if_pos (by simp [live_of_Live live, d_lt, c_ge, c_le]), ?_⟩
    have own : (s.freezePeer d c).peer d = { s.peer d with frozen := true } := (State.peer_putPeer ..).trans (if_pos rfl)
    have silent (m : Net) (vc : Nat) (data : vc ≠ 0) : (s.freezePeer d c).send (.net d vc m) = s.freezePeer d c := by
      refine if_pos ?_
      change (vc != 0 && ((s.freezePeer d c).peer d).frozen) = true
      rw [own]
      simpa using data
    refine ⟨own, fun e other => (State.peer_putPeer ..).trans (if_neg other), ?_, ?_, ?_, ?_, rfl, fun m => ⟨?_, ?_⟩⟩
    · refine (State.get_inc_other (by decide) ..).trans ((State.get_put_other (by decide) ..).trans ((State.get_put_other (by decide) ..).trans ?_))
      exact (State.get_put_self ..).trans (Nat.mod_eq_of_lt d_lt)
    · refine (State.get_inc_other (by decide) ..).trans ((State.get_put_other (by decide) ..).trans ?_)
      exact (State.get_put_self ..).trans (Nat.mod_eq_of_lt (show c < 2 ^ 4 by omega))
    · exact (State.get_inc_other (by decide) ..).trans (State.get_put_self ..)
    · exact keepsFieldsBut_put_listed (keepsFieldsBut_put_listed (keepsFieldsBut_put_listed (keepsFieldsBut_put_listed (keepsFieldsBut_same rfl _)
        (by simp) _) (by simp) _) (by simp) _) (by simp) _
    · rw [silent m 1 (by decide)]
    · rw [silent m 2 (by decide)]

end Sys2Proof.Safety
end


section
/-! SUPPORT. Forming, joining and leaving a pod: the devices that are met, the pod size, and the routes of a table. -/

namespace Sys2Proof.Machine

open Sys2Proof.Safety

/-! ### Devices that are met (R505) -/

/-- A peer that is heard of in this tide. -/
def Peer.met (x : Peer) (tide : Nat) : Peer := { x with lastHeard := max x.lastHeard tide, silent := false }

theorem met_met (x : Peer) (tide : Nat) : (x.met tide).met tide = x.met tide := by
  unfold Peer.met
  rw [max_assoc, max_self]

theorem meet_spec (ds : List Nat) (s : State) : s.meet ds = { s with peers := (s.meet ds).peers } ∧
    ∀ d, (s.meet ds).peer d = if d ∈ ds then (s.peer d).met s.tide else s.peer d := by
  unfold State.meet
  induction ds generalizing s with
  | nil => exact ⟨rfl, fun d => by simp⟩
  | cons e ds ih =>
    obtain ⟨frame, peers⟩ := ih (s.putPeer e ((s.peer e).met s.tide))
    rw [List.foldl_cons]
    refine ⟨by rw [show (s.putPeer e { s.peer e with lastHeard := max (s.peer e).lastHeard s.tide, silent := false }) =
      s.putPeer e ((s.peer e).met s.tide) from rfl, frame]; rfl, fun d => (peers d).trans ?_⟩
    have tide : (s.putPeer e ((s.peer e).met s.tide)).tide = s.tide := rfl
    rw [State.peer_putPeer, tide]
    by_cases same : d = e
    · subst same
      rw [if_pos rfl, met_met, ite_self, if_pos List.mem_cons_self]
    · simp only [List.mem_cons, same, false_or, if_false]

/-! ### The pod size (Table 12.5) -/

theorem putSize_spec (s : State) (w : Nat) : s.putSize w = { s with flds := (s.putSize w).flds } ∧
    (s.putSize w).get QUY_POD_SIZE_DEVICES 0 = w % 2 ^ 13 ∧ (s.putSize w).podMaster = w / 2 ^ 32 % 2 ^ 12 ∧
    ∀ f : Fld, (∀ g ∈ [QUY_POD_SIZE_DEVICES, QUY_POD_SIZE_LEVELS, QUY_POD_SIZE_GROUPS, QUY_POD_SIZE_NO_STANDBY, QUY_POD_SIZE_MASTER,
      QUY_POD_SIZE_STANDBY], f.ord % 512 ≠ g.ord % 512) → ∀ i, (s.putSize w).get f i = s.get f i := by
  refine ⟨rfl, ?_, ?_, fun f other i => ?_⟩
  · refine (State.get_put_other (by decide) ..).trans ((State.get_put_other (by decide) ..).trans ((State.get_put_other (by decide) ..).trans
      ((State.get_put_other (by decide) ..).trans ((State.get_put_other (by decide) ..).trans ((State.get_put_self ..).trans ?_)))))
    rw [bits_zero]
    exact Nat.mod_mod _ _
  · exact (State.get_put_other (by decide) ..).trans ((State.get_put_self ..).trans (Nat.mod_mod _ _))
  · simp only [List.mem_cons, List.not_mem_nil, or_false, forall_eq_or_imp, forall_eq] at other
    obtain ⟨devices, levels, groups, noStandby, master, standby⟩ := other
    exact (State.get_put_other standby ..).trans ((State.get_put_other master ..).trans ((State.get_put_other noStandby ..).trans
      ((State.get_put_other groups ..).trans ((State.get_put_other levels ..).trans (State.get_put_other devices ..)))))

/-! ### Routes of a table (R490) -/

section
variable {α : Type} (f : Nat × Route → α)

theorem find_inserts_absent (rs : List (Nat × Route)) (t : Tab α) {d : Nat} (absent : d ∉ rs.map (·.1)) :
    Tab.find d (rs.foldl (fun t e => Tab.insert e.1 (f e) t) t) = Tab.find d t := by
  induction rs generalizing t with
  | nil => rfl
  | cons e rs ih =>
    rw [List.map_cons, List.mem_cons, not_or] at absent
    rw [List.foldl_cons, ih _ absent.2, Tab.find_insert, if_neg absent.1]

theorem find_inserts_mem (rs : List (Nat × Route)) (t : Tab α) (once : (rs.map (·.1)).Nodup) {e : Nat × Route} (mem : e ∈ rs) :
    Tab.find e.1 (rs.foldl (fun t e => Tab.insert e.1 (f e) t) t) = some (f e) := by
  induction rs generalizing t with
  | nil => cases mem
  | cons x rs ih =>
    rw [List.map_cons, List.nodup_cons] at once
    rw [List.foldl_cons]
    rcases List.mem_cons.mp mem with rfl | later
    · rw [find_inserts_absent f rs _ once.1, Tab.find_insert, if_pos rfl]
    · exact ih _ once.2 later

end

/-! ### Fields written one after another -/

/-- Fields written one after another. -/
def State.puts (s : State) (l : List (Fld × Nat × Nat)) : State := l.foldl (fun t p => t.put p.1 p.2.1 p.2.2) s

/-- The state with another record of the pod. -/
def State.withPod (s : State) (p : Pod) : State := { s with pod := p }

theorem puts_frame (s : State) (l : List (Fld × Nat × Nat)) : s.puts l = { s with flds := (s.puts l).flds } := by
  induction l generalizing s with
  | nil => rfl
  | cons p l ih => exact ih _

theorem get_puts_other {l : List (Fld × Nat × Nat)} {f : Fld} (other : ∀ p ∈ l, f.ord % 512 ≠ p.1.ord % 512) (s : State) (i : Nat) :
    (s.puts l).get f i = s.get f i := by
  induction l generalizing s with
  | nil => rfl
  | cons p l ih =>
    exact (ih (fun x hx => other x (List.mem_cons_of_mem _ hx)) _).trans (State.get_put_other (other p List.mem_cons_self) ..)

theorem get_puts_last {l k : List (Fld × Nat × Nat)} {f : Fld} {i v : Nat} (later : ∀ p ∈ k, f.ord % 512 ≠ p.1.ord % 512) (s : State) :
    (s.puts (l ++ (f, i, v) :: k)).get f i = v % 2 ^ f.width := by
  unfold State.puts
  rw [List.foldl_append, List.foldl_cons]
  exact (get_puts_other later _ i).trans (State.get_put_self ..)

theorem puts_get (s : State) (l : List (Fld × Nat × Nat)) (p : Pod) (f : Fld) (i : Nat) : ((s.puts l).withPod p).get f i = (s.puts l).get f i := rfl

/-! ### A pod of one device (R502) -/

/-- What forming a pod writes, with the groups g and the device m. -/
def formed (g m : Nat) : List (Fld × Nat × Nat) := [(QUY_POD_CTL_IN_POD, 0, 1), (HMR_TIDE_COUNT_TIDE, 0, 0),
  (HMR_TIDE_STATUS_RUNNING, 0, 1), (QUY_POD_SIZE_DEVICES, 0, 1), (QUY_POD_SIZE_LEVELS, 0, 0), (QUY_POD_SIZE_GROUPS, 0, g),
  (QUY_POD_SIZE_MASTER, 0, m), (QUY_POD_SIZE_NO_STANDBY, 0, 1), (QUY_POD_SIZE_STANDBY, 0, 0)]

theorem formPod_eq (s : State) : ∃ g, s.formPod = (s.puts (formed g s.me)).withPod { members := [s.me], tree := [s.me] } := by
  have puts : ∃ g m n, m = s.me ∧ n = s.me ∧ s.formPod = (s.puts (formed g m)).withPod { members := [n], tree := [n] } :=
    ⟨_, _, _, get_puts_other (l := (formed _ 0).take 6) (by simp only [formed, List.take, List.forall_mem_cons]; decide) s 0,
      get_puts_other (l := formed _ _) (by simp only [formed, List.forall_mem_cons]; decide) s 0, rfl⟩
  obtain ⟨g, m, n, rfl, rfl, eq⟩ := puts
  exact ⟨g, eq⟩

theorem get_formed (s : State) (g m : Nat) {f : Fld} {v : Nat} (l k : List (Fld × Nat × Nat)) (split : formed g m = l ++ (f, 0, v) :: k)
    (later : ∀ p ∈ k, f.ord % 512 ≠ p.1.ord % 512) : (s.puts (formed g m)).get f 0 = v % 2 ^ f.width := by
  rw [split]
  exact get_puts_last later s

theorem formPod_spec (s : State) : let t := s.formPod
    t.get QUY_POD_CTL_IN_POD 0 = 1 ∧ t.tide = 0 ∧ t.get HMR_TIDE_STATUS_RUNNING 0 = 1 ∧ t.get QUY_POD_SIZE_DEVICES 0 = 1 ∧
    t.get QUY_POD_SIZE_LEVELS 0 = 0 ∧ t.get QUY_POD_SIZE_MASTER 0 = s.me % 4096 ∧ t.get QUY_POD_SIZE_NO_STANDBY 0 = 1 ∧
    t.get QUY_POD_CTL_JOIN 0 = s.get QUY_POD_CTL_JOIN 0 ∧ t.pod = { members := [s.me], tree := [s.me] } ∧ t = { s with flds := t.flds, pod := t.pod } := by
  obtain ⟨g, eq⟩ := formPod_eq s
  have inPod := get_formed s g s.me (f := QUY_POD_CTL_IN_POD) [] _ rfl (by simp only [List.forall_mem_cons]; decide)
  have tide := get_formed s g s.me (f := HMR_TIDE_COUNT_TIDE) [_] _ rfl (by simp only [List.forall_mem_cons]; decide)
  have running := get_formed s g s.me (f := HMR_TIDE_STATUS_RUNNING) [_, _] _ rfl (by simp only [List.forall_mem_cons]; decide)
  have devices := get_formed s g s.me (f := QUY_POD_SIZE_DEVICES) [_, _, _] _ rfl (by simp only [List.forall_mem_cons]; decide)
  have levels := get_formed s g s.me (f := QUY_POD_SIZE_LEVELS) [_, _, _, _] _ rfl (by simp only [List.forall_mem_cons]; decide)
  have master := get_formed s g s.me (f := QUY_POD_SIZE_MASTER) [_, _, _, _, _, _] _ rfl (by simp only [List.forall_mem_cons]; decide)
  have noStandby := get_formed s g s.me (f := QUY_POD_SIZE_NO_STANDBY) [_, _, _, _, _, _, _] _ rfl (by simp only [List.forall_mem_cons]; decide)
  have join : (s.puts (formed g s.me)).get QUY_POD_CTL_JOIN 0 = s.get QUY_POD_CTL_JOIN 0 :=
    get_puts_other (by simp only [formed, List.forall_mem_cons]; decide) s 0
  have frame := puts_frame s (formed g s.me)
  rw [eq]
  generalize s.puts (formed g s.me) = u at inPod tide running devices levels master noStandby join frame
  exact ⟨inPod, tide, running, devices, levels, master, noStandby, join, rfl, congrArg (fun t => State.withPod t { members := [s.me], tree := [s.me] }) frame⟩

/-! ### The answer to a request (R503) and the raised generation -/

/-- The fields written first where the master admits the device. -/
def joinFlds (a : JoinAnswer) : List (Fld × Nat × Nat) := [(QUY_POD_CTL_IN_POD, 0, 1), (HMR_TIDE_COUNT_TIDE, 0, a.tide), (HMR_TIDE_STATUS_RUNNING, 0, 1)]

/-- The device with the fields of an answer that admits it. -/
def State.entering (s : State) (a : JoinAnswer) : State := ((s.puts (joinFlds a)).putSize a.size).put QUY_POD_GEN_GENERATION 0 a.gen

theorem joinAnswered_eq (s : State) {a : JoinAnswer} (awaited : (s.pod.joining && s.pod.requested) = true) (admits : a.code = 0) :
    s.joinAnswered a = ((s.entering a).withPod { members := a.members, tree := treeOrder (s.entering a).podMaster a.members }).meet a.members := by
  unfold State.joinAnswered
  rw [awaited, admits]
  rfl

theorem joinAnswered_spec (s : State) {a : JoinAnswer} (awaited : (s.pod.joining && s.pod.requested) = true) (admits : a.code = 0) :
    let t := s.joinAnswered a
    t.get QUY_POD_CTL_IN_POD 0 = 1 ∧ t.get HMR_TIDE_STATUS_RUNNING 0 = 1 ∧
    t.tide = a.tide % 2 ^ 64 ∧ t.get QUY_POD_GEN_GENERATION 0 = a.gen % 2 ^ 32 ∧ t.podMaster = a.size / 2 ^ 32 % 4096 ∧
    t.get QUY_POD_SIZE_DEVICES 0 = a.size % 8192 ∧ t.pod = { members := a.members, tree := treeOrder t.podMaster a.members } ∧
    (∀ d, t.peer d = if d ∈ a.members then (s.peer d).met t.tide else s.peer d) ∧
    t = { s with flds := t.flds, pod := t.pod, peers := t.peers } := by
  have inPod : (s.puts (joinFlds a)).get QUY_POD_CTL_IN_POD 0 = 1 := get_puts_last (l := []) (by simp only [List.forall_mem_cons]; decide) s
  have tide : (s.puts (joinFlds a)).get HMR_TIDE_COUNT_TIDE 0 = a.tide % 2 ^ 64 :=
    get_puts_last (l := [_]) (by simp only [List.forall_mem_cons]; decide) s
  have running : (s.puts (joinFlds a)).get HMR_TIDE_STATUS_RUNNING 0 = 1 := get_puts_last (l := [_, _]) (by simp) s
  have first := puts_frame s (joinFlds a)
  rw [joinAnswered_eq s awaited admits]
  unfold State.entering
  generalize s.puts (joinFlds a) = u at first inPod tide running
  obtain ⟨second, devices, master, kept⟩ := putSize_spec u a.size
  replace inPod := (kept QUY_POD_CTL_IN_POD (by decide) 0).trans inPod
  replace tide := (kept HMR_TIDE_COUNT_TIDE (by decide) 0).trans tide
  replace running := (kept HMR_TIDE_STATUS_RUNNING (by decide) 0).trans running
  have frame : u.putSize a.size = { s with flds := (u.putSize a.size).flds } := second.trans (by rw [first])
  generalize u.putSize a.size = v at frame inPod tide running devices master
  have other {f : Fld} (ne : f.ord % 512 ≠ QUY_POD_GEN_GENERATION.ord % 512) : (v.put QUY_POD_GEN_GENERATION 0 a.gen).get f 0 = v.get f 0 :=
    State.get_put_other ne ..
  have gen : (v.put QUY_POD_GEN_GENERATION 0 a.gen).get QUY_POD_GEN_GENERATION 0 = a.gen % 2 ^ 32 := State.get_put_self ..
  replace inPod := (other (f := QUY_POD_CTL_IN_POD) (by decide)).trans inPod
  replace tide := (other (f := HMR_TIDE_COUNT_TIDE) (by decide)).trans tide
  replace running := (other (f := HMR_TIDE_STATUS_RUNNING) (by decide)).trans running
  replace devices := (other (f := QUY_POD_SIZE_DEVICES) (by decide)).trans devices
  replace master := (other (f := QUY_POD_SIZE_MASTER) (by decide)).trans master
  replace frame : v.put QUY_POD_GEN_GENERATION 0 a.gen = { s with flds := (v.put QUY_POD_GEN_GENERATION 0 a.gen).flds } :=
    congrArg (fun t : State => t.put QUY_POD_GEN_GENERATION 0 a.gen) frame
  generalize v.put QUY_POD_GEN_GENERATION 0 a.gen = w at frame inPod tide running devices master gen
  obtain ⟨flds, rfl⟩ : ∃ l, w = { s with flds := l } := ⟨_, frame⟩
  generalize pod : ({ members := a.members, tree := treeOrder (State.podMaster { s with flds := flds }) a.members } : Pod) = p
  obtain ⟨meets, peers⟩ := meet_spec a.members (State.withPod { s with flds := flds } p)
  generalize State.meet _ _ = z at meets peers
  obtain ⟨ps, rfl⟩ : ∃ ps, z = { s with flds := flds, pod := p, peers := ps } := ⟨_, meets⟩
  exact ⟨inPod, running, tide, gen, master, devices, pod.symm, peers, rfl⟩

/-! ### Leaving (R504) -/

theorem leaveDone_spec {s : State} (leaves : s.pod.leave = true) (jobs : s.jobs = []) : let t := s.leaveDone
    t.get QUY_POD_CTL_IN_POD 0 = 0 ∧ t.get HMR_TIDE_STATUS_RUNNING 0 = 0 ∧ t.get QUY_POD_SIZE_DEVICES 0 = 0 ∧ t.pod = {} ∧ t.routes = [] ∧
    t.unacked = s.unacked ++ [⟨s.nextVc0, s.podMaster, .leave s.me⟩] ∧
    t = { s with flds := t.flds, pod := {}, routes := [], unacked := t.unacked, nextVc0 := s.nextVc0 + 1, out := t.out } := by
  have done : s.leaveDone = { (((s.sendVc0 s.podMaster (.leave s.me)).put HMR_TIDE_STATUS_RUNNING 0 0).put QUY_POD_CTL_IN_POD 0 0).putSize 0 with
      pod := {}, routes := [] } := if_pos (by simp [leaves, jobs])
  have sent := sendVc0_eq s s.podMaster (.leave s.me)
  rw [done]
  generalize s.sendVc0 s.podMaster (.leave s.me) = u at sent
  have running : ((u.put HMR_TIDE_STATUS_RUNNING 0 0).put QUY_POD_CTL_IN_POD 0 0).get HMR_TIDE_STATUS_RUNNING 0 = 0 :=
    (State.get_put_other (by decide) ..).trans (State.get_put_self ..)
  have inPod : ((u.put HMR_TIDE_STATUS_RUNNING 0 0).put QUY_POD_CTL_IN_POD 0 0).get QUY_POD_CTL_IN_POD 0 = 0 := State.get_put_self ..
  have frame : (u.put HMR_TIDE_STATUS_RUNNING 0 0).put QUY_POD_CTL_IN_POD 0 0 =
    { u with flds := ((u.put HMR_TIDE_STATUS_RUNNING 0 0).put QUY_POD_CTL_IN_POD 0 0).flds } := rfl
  generalize (u.put HMR_TIDE_STATUS_RUNNING 0 0).put QUY_POD_CTL_IN_POD 0 0 = v at running inPod frame
  obtain ⟨sized, devices, -, kept⟩ := putSize_spec v 0
  replace running := (kept HMR_TIDE_STATUS_RUNNING (by decide) 0).trans running
  replace inPod := (kept QUY_POD_CTL_IN_POD (by decide) 0).trans inPod
  generalize v.putSize 0 = w at sized running inPod devices
  obtain ⟨l, rfl⟩ : ∃ l, v = { u with flds := l } := ⟨_, frame⟩
  obtain ⟨m, rfl⟩ : ∃ m, w = { u with flds := m } := ⟨_, sized⟩
  subst sent
  exact ⟨inPod, running, devices, rfl, rfl, rfl, rfl⟩

theorem put_mod (s : State) (f : Fld) (i v : Nat) : s.put f i (v % 2 ^ f.width) = s.put f i v := by
  unfold State.put fldSet
  rw [Nat.mod_mod]

theorem raiseGen_eq (s : State) : s.raiseGen = s.put QUY_POD_GEN_GENERATION 0 ((s.get QUY_POD_GEN_GENERATION 0 + 1) % 2 ^ 32) :=
  (put_mod s QUY_POD_GEN_GENERATION 0 _).symm

theorem removeDevice_eq (s : State) (d : Nat) : s.removeDevice d = { s.put QUY_POD_GEN_GENERATION 0 ((s.get QUY_POD_GEN_GENERATION 0 + 1) % 2 ^ 32) with
    pod := { s.pod with leaving := s.pod.leaving ++ [d], reroute := true, silence := s.pod.silence.filter fun p => p.2 != d },
    out := s.out ++ [.broadcast (.lost d ((s.get QUY_POD_GEN_GENERATION 0 + 1) % 2 ^ 32))] } := by
  unfold State.removeDevice
  dsimp only
  rw [send_broadcast, show s.raiseGen.get QUY_POD_GEN_GENERATION 0 = (s.get QUY_POD_GEN_GENERATION 0 + 1) % 2 ^ 32 from State.get_put_self ..,
    raiseGen_eq]
  rfl

theorem passed {c : Prop} [Decidable c] {n x : Nat} (ne : n ≠ 0) (zero : (if c then n else x) = 0) : ¬c ∧ x = 0 := by
  by_cases h : c
  · exact absurd ((if_pos h).symm.trans zero) ne
  · exact ⟨h, (if_neg h).symm.trans zero⟩

/-- The first reason of Table 12.5 is 0 only where each of them is passed. -/
theorem joinRefusal_zero {s : State} {r : JoinRequest} (passes : s.joinRefusal r = 0) : r.grace = s.get HMR_EPOCH_CFG_GRACE_TIDES 0 ∧ s.attests r = true := by
  unfold State.joinRefusal at passes
  dsimp only at passes
  obtain ⟨-, passes⟩ := passed (by decide) passes
  obtain ⟨-, passes⟩ := passed (by decide) passes
  obtain ⟨-, passes⟩ := passed (by decide) passes
  obtain ⟨-, passes⟩ := passed (by decide) passes
  obtain ⟨-, passes⟩ := passed (by decide) passes
  obtain ⟨grace, passes⟩ := passed (by decide) passes
  obtain ⟨attests, -⟩ := passed (by decide) passes
  exact ⟨by simpa using grace, by simpa using attests⟩

end Sys2Proof.Machine
end

section
/-! Settling O52. -/

namespace Sys2Proof.Safety

open Sys2Proof.Machine

/-- Settles O52: each command of a pod's membership by the registers and the record of the pod that it writes. -/
theorem podsFormJoinAndLeave : Obligations.PodsFormJoinAndLeave := by
  unfold Obligations.PodsFormJoinAndLeave
  refine ⟨?unfit, ?join, ?retry, ?request, ?leave, ?removed, ?notice, ?routes⟩
  case unfit =>
    intro s a up unfit
    refine congrArg Host.Outcome.next ((hostDo_of_HostUp up _).trans (if_pos ?_))
    change (_ || !lcJoins s.cus.lifecycle) = true
    rw [unfit]
    exact Bool.or_true _
  case join =>
    intro s up outside fit
    have alone : ((s.put QUY_POD_CTL_JOIN 0 1).inPod || !lcJoins (s.put QUY_POD_CTL_JOIN 0 1).cus.lifecycle) = false := by
      have out : (s.put QUY_POD_CTL_JOIN 0 1).inPod = false := by
        unfold State.inPod State.flag; rw [State.get_put_other (by decide), outside]; rfl
      rw [out]
      change (!lcJoins s.cus.lifecycle) = false
      rw [fit]; rfl
    have run (a : Option JoinAnswer) : exec (.podJoin a) s = .next (s.podJoin a) := congrArg Host.Outcome.next (hostDo_of_HostUp up _)
    have role : (s.put QUY_POD_CTL_JOIN 0 1).get QUY_POD_CFG_ROLE 0 = s.get QUY_POD_CFG_ROLE 0 := State.get_put_other (by decide) ..
    have me : (s.put QUY_POD_CTL_JOIN 0 1).me = s.me := State.get_put_other (by decide) ..
    have joins (a : Option JoinAnswer) : s.podJoin a = if s.get QUY_POD_CFG_ROLE 0 == 1 then (s.put QUY_POD_CTL_JOIN 0 1).formPod
        else ({ s.put QUY_POD_CTL_JOIN 0 1 with pod := { s.pod with joining := true } }.askJoin).joinAnswer? a := by
      unfold State.podJoin
      dsimp only
      rw [alone, if_neg Bool.false_ne_true, role]
      rfl
    have ready : ({ s.put QUY_POD_CTL_JOIN 0 1 with pod := { s.pod with joining := true } } : State).quaysReady = s.quaysReady := by
      have unused (q : Nat) : (s.put QUY_POD_CTL_JOIN 0 1).flag QUY_PEER_UNUSED q = s.flag QUY_PEER_UNUSED q := by
        unfold State.flag; rw [State.get_put_other (by decide)]
      have stops (q : Nat) : (s.put QUY_POD_CTL_JOIN 0 1).flag QUY_CTL_STOP q = s.flag QUY_CTL_STOP q := by
        unfold State.flag; rw [State.get_put_other (by decide)]
      change (s.put QUY_POD_CTL_JOIN 0 1).quaysReady = _
      unfold State.quaysReady
      simp only [unused, stops]
      rfl
    refine ⟨fun master a => ?_, fun member waits => ?_, fun member now fresh => ?_⟩
    · have joins := (joins a).trans (if_pos (by simpa using master))
      obtain ⟨inPod, tide, running, devices, levels, master, noStandby, join, pod, frame⟩ := formPod_spec (s.put QUY_POD_CTL_JOIN 0 1)
      exact ⟨_, (run a).trans (congrArg _ joins), join.trans (State.get_put_self ..), inPod, tide, running, devices, levels,
        master.trans (by rw [me]), noStandby, pod.trans (by rw [me]), frame⟩
    · refine (run none).trans (congrArg _ (((joins none).trans (if_neg (by simpa using member))).trans ?_))
      exact if_neg (by rw [ready, waits, Bool.and_false]; exact Bool.false_ne_true)
    · refine (run none).trans (congrArg _ (((joins none).trans (if_neg (by simpa using member))).trans ?_))
      refine (if_pos ?_).trans ?_
      · rw [ready, now]
        change (true && !s.pod.requested && true) = true
        rw [fresh]; rfl
      · rw [show ({ s.put QUY_POD_CTL_JOIN 0 1 with pod := { s.pod with joining := true } } : State).get QUY_POD_CFG_MASTER_ID 0 =
          s.get QUY_POD_CFG_MASTER_ID 0 from State.get_put_other (by decide) .., show ({ s.put QUY_POD_CTL_JOIN 0 1 with
            pod := { s.pod with joining := true } } : State).me = s.me from me]
  case retry =>
    intro s live outside joining asks refused asked
    have again : (s.live && s.pod.joining && s.pod.requested && !s.inPod && s.get QUY_POD_CTL_JOIN_RESULT 0 != 0) = true := by
      simp [live_of_Live live, joining, asks, State.inPod, State.flag, outside, refused]
    have run (a : Option JoinAnswer) : exec (.joinRetry a) s = .next (asked.joinAnswer? a) := if_pos again
    have sent := sendVc0_eq s (s.get QUY_POD_CFG_MASTER_ID 0) (.join s.me)
    have waits : (!(asked.pod.joining && asked.pod.requested)) = false := by
      change (!((s.sendVc0 _ _).pod.joining && (s.sendVc0 _ _).pod.requested)) = false
      rw [sent]
      simp [joining, asks]
    refine ⟨run none, fun a no => ?_, fun a yes => ?_⟩
    · refine (run (some a)).trans (congrArg _ ((if_neg (by rw [waits]; exact Bool.false_ne_true)).trans (if_pos (by simpa using no))))
    · have sent : asked = { s with unacked := asked.unacked, nextVc0 := asked.nextVc0, out := asked.out } :=
        sent.trans (by rw [show asked = _ from sent])
      have runs := run (some a)
      generalize asked = v at sent waits runs
      obtain ⟨us, n, o, rfl⟩ : ∃ us n o, v = { s with unacked := us, nextVc0 := n, out := o } := ⟨_, _, _, sent⟩
      obtain ⟨inPod, running, tide, gen, master, devices, pod, peers, frame⟩ := joinAnswered_spec (a := a) _ (Bool.not_eq_false' _ |>.mp waits) yes
      exact ⟨_, runs, inPod, running, tide, gen, master, devices, pod, peers, frame⟩
  case request =>
    intro s r live pod master led refused gen
    have takes : exec (.joinRequest r) s = .next (s.takeJoin r) := if_pos (by simp [live_of_Live live, pod, master, led])
    have refuse {c : Nat} (ne : c ≠ 0) (because : s.joinRefusal r = c) : refused c := by
      refine takes.trans (congrArg _ ?_)
      unfold State.takeJoin
      rw [because]
      exact if_pos (by simpa using ne)
    refine ⟨fun period => refuse (by decide) (if_pos (by simpa using period)), fun period id => refuse (by decide)
      ((if_neg (by simpa using period)).trans (if_pos (by simpa using id))), fun period id => ⟨fun member => refuse (by decide) ?_,
      fun fresh full => refuse (by decide) ?_⟩, fun refuses => refuse refuses rfl, fun passes => ?_⟩
    · exact (if_neg (by simpa using period)).trans ((if_neg (by simpa using id)).trans (if_pos (by simpa using member)))
    · exact (if_neg (by simpa using period)).trans ((if_neg (by simpa using id)).trans ((if_neg (by simpa using fresh)).trans (if_pos (by simpa using full))))
    · obtain ⟨grace, attests⟩ := joinRefusal_zero passes
      refine ⟨grace, attests, _, takes, ?_⟩
      have other {f : Fld} (ne : f.ord % 512 ≠ QUY_POD_GEN_GENERATION.ord % 512) : s.raiseGen.get f 0 = s.get f 0 := State.get_put_other ne ..
      have raised : s.raiseGen.get QUY_POD_GEN_GENERATION 0 = gen := State.get_put_self ..
      have size : s.raiseGen.podSize = s.podSize := by
        unfold State.podSize
        rw [other (by decide), other (by decide), other (by decide), other (by decide), other (by decide), other (by decide)]
      have joins : s.takeJoin r = ({ s.raiseGen with pod := { s.pod with arriving := s.pod.arriving ++ [r], reroute := true } } : State).sendVc0 r.device
          (.joinAnswer ⟨0, s.tide, s.podSize, gen, s.liveMembers ++ [r.device]⟩) := by
        unfold State.takeJoin
        rw [passes]
        refine (if_neg (by decide)).trans ?_
        rw [← raised, ← size, ← show s.raiseGen.tide = s.tide from other (by decide)]
        unfold State.liveMembers
        rw [List.append_assoc]
        exact congrArg (fun ms => State.sendVc0 _ r.device (.joinAnswer ⟨0, _, _, _, s.pod.members ++ ms⟩)) (List.map_append ..)
      have kept : KeepsFieldsBut s s.raiseGen [QUY_POD_GEN_GENERATION.key 0] := fun f i ne => State.get_put_ne _ _ (by simpa using ne)
      have frame : s.raiseGen = { s with flds := s.raiseGen.flds } := rfl
      rw [joins, sendVc0_eq]
      generalize s.raiseGen = u at raised kept frame
      obtain ⟨l, rfl⟩ : ∃ l, u = { s with flds := l } := ⟨_, frame⟩
      exact ⟨raised, kept, rfl, rfl, rfl⟩
  case leave =>
    intro s up
    have run : exec .podLeave s = .next s.podLeave := congrArg Host.Outcome.next (hostDo_of_HostUp up _)
    have inPod : (s.put QUY_POD_CTL_JOIN 0 0).inPod = s.inPod := by
      unfold State.inPod State.flag; rw [State.get_put_other (by decide)]
    refine ⟨fun stays member => run.trans (congrArg _ ?_), fun stays outside => run.trans (congrArg _ ?_), fun leaves jobs => run.trans (congrArg _ ?_),
      fun leaves jobs => ⟨_, run, ?_⟩⟩
    · exact (if_neg (by simpa using stays)).trans (if_pos (inPod.trans member))
    · exact (if_neg (by simpa using stays)).trans (if_neg (by rw [inPod, outside]; exact Bool.false_ne_true))
    · exact (if_pos leaves).trans (if_neg (by simpa [leaves] using jobs))
    · have goes : s.podLeave = (s.put QUY_POD_CTL_JOIN 0 0).leaveDone := if_pos leaves
      have me : (s.put QUY_POD_CTL_JOIN 0 0).me = s.me := State.get_put_other (by decide) ..
      have master : (s.put QUY_POD_CTL_JOIN 0 0).podMaster = s.podMaster := State.get_put_other (by decide) ..
      obtain ⟨inPod, running, devices, pod, routes, unacked, frame⟩ := leaveDone_spec (s := s.put QUY_POD_CTL_JOIN 0 0) leaves jobs
      rw [goes]
      rw [me, master] at unacked
      exact ⟨inPod, running, devices, pod, routes, unacked, frame⟩
  case removed =>
    intro s d live master here gen removed
    have goes : s.removeDevice d = removed := removeDevice_eq s d
    refine ⟨(if_pos (by simp [live_of_Live live, master, here])).trans (congrArg Host.Outcome.next goes), fun held other near unheard silent =>
      (if_pos ?_).trans (congrArg Host.Outcome.next goes)⟩
    have all : s.allSilent d = true := by
      unfold State.allSilent
      simp only [Bool.and_eq_true, Bool.or_eq_true, Bool.not_eq_true', List.isEmpty_eq_false_iff, decide_eq_true_eq, List.all_eq_true,
        List.contains_iff_mem]
      refine ⟨⟨near, ?_⟩, silent⟩
      cases expects : s.expects d
      · exact .inl rfl
      · exact .inr (unheard expects)
    simp [live_of_Live live, master, here, held, other, all]
  case notice =>
    intro s d g live pod new
    exact if_pos (by simp [live_of_Live live, pod, new])
  case routes =>
    intro s rs live pod member
    have run : exec (.routeTables rs) s = _ := if_pos (by simp [live_of_Live live, pod, member])
    obtain ⟨meets, peers⟩ := meet_spec ((rs.map (·.1)).filter fun d => !s.pod.members.contains d) (s.installRoutes rs)
    refine ⟨_, run, ?_⟩
    generalize (s.installRoutes rs).meet _ = z at meets peers
    obtain ⟨ps, rfl⟩ : ∃ ps, z = { s.installRoutes rs with peers := ps } := ⟨_, meets⟩
    refine ⟨rfl, rfl, fun d => (peers d).trans ?_, fun d absent => find_inserts_absent _ rs [] absent, fun once e mem => find_inserts_mem _ rs [] once mem⟩
    simp only [List.mem_filter, Bool.not_eq_true', List.contains_eq_mem, decide_eq_false_iff_not]
    rfl

end Sys2Proof.Safety
end


section
/-! SUPPORT. The collective engine: the tree of a scope, rounds on one device, results on their way down, and the records of a snapshot. -/

namespace Sys2Proof.Machine

open Sys2Proof.Safety

/-! ### Channels and the tree of a scope (R515, R517) -/

theorem coll_putColl (s : State) (c : Nat) (x : Coll) (d : Nat) : (s.putColl c x).coll d = if d = c then some x else s.coll d :=
  Tab.find_insert ..

@[simp] theorem coll_putColl_self (s : State) (c : Nat) (x : Coll) : (s.putColl c x).coll c = some x := (coll_putColl s c x c).trans (if_pos rfl)

@[simp] theorem putColl_putColl (s : State) (c : Nat) (x y : Coll) : (s.putColl c x).putColl c y = s.putColl c y := by
  unfold State.putColl
  dsimp only
  rw [Tab.insert_insert]

theorem Beside.readAnswer {s t : State} (h : Beside s t) (r : Req) (a n : Nat) : readAnswer (t.read r a n) = readAnswer (s.read r a n) := by
  cases first : s.read r a n with
  | ok p =>
    obtain ⟨v, second, -⟩ := beside_read h first
    rw [second]; rfl
  | error e =>
    cases second : t.read r a n with
    | ok p =>
      obtain ⟨v, again, -⟩ := beside_read ⟨h.rest.symm, fun f i hf => (h.fields f i hf).symm⟩ second
      rw [again] at first; cases first
    | error e => rfl

theorem Beside.scopeTree {s t : State} (h : Beside s t) (e : CollEntry) : t.scopeTree e = s.scopeTree e := by
  have group (g : Nat) : t.group g = s.group g := (congrArg (fun u : State => u.group g) h.rest :)
  have tree : t.pod.tree = s.pod.tree := (congrArg (fun u : State => u.pod.tree) h.rest :)
  unfold State.scopeTree
  rw [groupRecord_eq, groupRecord_eq, group, h.readAnswer, h.fields CRN_GROUP_DIR_GROUPS 0 (by decide), h.fields CRN_GROUP_DIR_BASE 0 (by decide), tree]

theorem Beside.put_unread {s t : State} (h : Beside s t) {f : Fld} (hf : f ∈ unreadFlds) (i v : Nat) : Beside s (t.put f i v) :=
  h.trans ⟨rfl, fun _ _ hg => State.get_put_other (hg f hf) ..⟩

/-- The bits of a channel whose entry is taken. -/
def State.channelFlds (s : State) (c : Nat) : State :=
  ((s.putBitAt QUY_COLL_EN_ENABLE 0 c true).putBitAt QUY_COLL_STATUS_LO_BAD 0 c false).putBitAt QUY_COLL_STATUS_HI_FAILED 0 c false

theorem channelFlds_spec (s : State) {c : Nat} (low : c < 64) : let t := s.channelFlds c
    t.bitAt QUY_COLL_EN_ENABLE 0 c = true ∧ t.bitAt QUY_COLL_STATUS_LO_BAD 0 c = false ∧ t.collFailed c = false ∧
    KeepsFieldsBut s t [QUY_COLL_EN_ENABLE.key 0, QUY_COLL_STATUS_LO_BAD.key 0, QUY_COLL_STATUS_HI_FAILED.key 0] ∧
    t = { s with flds := t.flds } ∧ Beside s t := by
  refine ⟨?_, ?_, bitAt_putBitAt_self low false, ?_, rfl, ?_⟩
  · exact (bitAt_putBitAt_other (by decide) ..).trans ((bitAt_putBitAt_other (by decide) ..).trans (bitAt_putBitAt_self low true))
  · exact (bitAt_putBitAt_other (by decide) ..).trans (bitAt_putBitAt_self low false)
  · exact keepsFieldsBut_put_listed (keepsFieldsBut_put_listed (keepsFieldsBut_put_listed (keepsFieldsBut_same rfl _) (by simp) _) (by simp) _) (by simp) _
  · exact (((Beside.refl s).put_unread (by simp [unreadFlds]) 0 _).put_unread (by simp [unreadFlds]) 0 _).put_unread (by simp [unreadFlds]) 0 _

/-! ### Results on their way down (R517) -/

theorem sendDown_more (s : State) (c r : Nat) (bs : List Byte) (ds : List Nat) : SendsMore s (s.sendDown c r bs ds) :=
  sendsMore_foldl (fun t d => sendsMore_sendVc0 t d _) ds s

theorem sendDown_told (s : State) (c r : Nat) (bs : List Byte) {ds : List Nat} {d : Nat} (mem : d ∈ ds) :
    ∃ u ∈ (s.sendDown c r bs ds).unacked, u.dst = d ∧ u.msg = .collDown c r bs :=
  mem_unacked_foldl (fun t d => sendsMore_sendVc0 t d _) (fun t => mem_unacked_sendVc0 t d _) mem s

/-! ### A round opens (R516) -/

section
variable {s : State} {c : Nat} {x : Coll} {data : List Byte}

/-- A gate that is met: the contribution is read, the gate's bits are cleared, and the round opens. -/
theorem tryOpen_met {w v u : State} {bs : List Byte} (gate : s.read {} x.entry.gate 8 = .ok (bs, w)) (met : leNat bs &&& x.entry.mask = x.entry.mask)
    (contributes : w.contribution x.entry = .ok (data, v)) (clears : v.write {} (viewStep * 2 + x.entry.gate) (leBytes 8 x.entry.mask) = .ok u) :
    s.tryOpen c x = u.openRound c x data := by
  unfold State.tryOpen
  rw [gate]
  dsimp only
  refine (if_pos (by unfold gateMet; rw [met]; exact beq_self_eq_true _)).trans ?_
  unfold State.takeGate
  rw [contributes]
  dsimp only
  unfold State.barrierWrite
  rw [clears]

theorem tryOpen_unmet {w : State} {bs : List Byte} (gate : s.read {} x.entry.gate 8 = .ok (bs, w)) (unmet : leNat bs &&& x.entry.mask ≠ x.entry.mask) :
    s.tryOpen c x = w := by
  unfold State.tryOpen
  rw [gate]
  dsimp only
  exact if_neg (by unfold gateMet; simpa using unmet)

/-- A leaf whose round opens has everything combined: its own contribution. -/
theorem openRound_leaf (reduces : x.entry.op ≠ 2) (heard : x.heard = []) (leaf : childrenIn (s.scopeTree x.entry) s.me = []) :
    s.openRound c x data = match parentIn (s.scopeTree x.entry) s.me with
      | some p => (s.putColl c { x with running := true, sent := true, tree := s.scopeTree x.entry }).sendVc0 p (.collUp c x.round s.me data)
      | none => (s.putColl c { x with running := true, sent := true, tree := s.scopeTree x.entry }).atRoot c
        { x with running := true, sent := true, tree := s.scopeTree x.entry } data := by
  have opens : s.openRound c x data = (s.putColl c {
      x with running := true, sent := false, tree := s.scopeTree x.entry, heard := [(x.round, s.me, data)] }).collAdvance c := by
    unfold State.openRound
    dsimp only
    rw [if_neg (by simpa [collBroadcast] using reduces)]
    unfold Coll.hear Coll.from'
    rw [heard]; rfl
  have combined (t : State) (me : t.me = s.me) : t.combined {
      x with running := true, sent := false, tree := s.scopeTree x.entry, heard := [(x.round, s.me, data)] } = some data := by
    unfold State.combined Coll.from'
    rw [me, leaf]
    simp
  rw [opens]
  unfold State.collAdvance
  rw [coll_putColl_self]
  dsimp only
  rw [if_neg (by simpa [collBroadcast] using reduces), combined (s.putColl c _) rfl]
  dsimp only
  rw [putColl_putColl, show ([(x.round, s.me, data)] : List (Nat × Nat × List Byte)).filter (fun h => h.1 != x.round) = x.heard by simp [heard]]
  rfl

/-- The root of a reduction to all keeps the combined value as its result. -/
theorem atRoot_alone {y : Coll} (toAll : y.entry.op = 1 ∨ y.entry.op = 4) (alone : childrenIn y.tree s.me = []) (new : y.results = []) :
    s.atRoot c y data = s.putColl c { y with results := [(y.round, data)] } := by
  have notReduce : (y.entry.op == collReduce) = false := by
    rcases toAll with op | op <;> rw [op] <;> rfl
  unfold State.atRoot
  rw [notReduce, if_neg (by simp)]
  change (if false then _ else State.sendDown (s.putColl c (y.take y.round data)) c y.round data (childrenIn y.tree s.me)) = _
  rw [alone]
  unfold Coll.take Coll.result
  rw [new]; rfl

theorem openRound_broadcast (broadcast : x.entry.op = 2) (root : x.entry.root ≠ s.me) :
    s.openRound c x data = s.putColl c { x with running := true, sent := true, tree := s.scopeTree x.entry } := by
  unfold State.openRound
  dsimp only
  rw [if_pos (by rw [broadcast]; rfl), if_neg (by simpa using root)]

theorem openRound_broadcastRoot (broadcast : x.entry.op = 2) (root : x.entry.root = s.me) (new : x.results = []) :
    s.openRound c x data = (s.putColl c { x with running := true, sent := true, tree := s.scopeTree x.entry, results := [(x.round, data)] }).sendDown c x.round data
      (s.around (s.scopeTree x.entry)) := by
  unfold State.openRound
  dsimp only
  rw [if_pos (by rw [broadcast]; rfl), if_pos (by simpa using root)]
  unfold Coll.take Coll.result
  rw [new]; rfl

end

/-! ### A channel fails (R519) -/

/-- The error record of a peer's loss leaves memory, jobs, channels and the channels' bits. -/
theorem peerRecord_spec (s : State) (source device : Nat) : let t := s.peerRecord source device
    t.mem = s.mem ∧ t.jobs = s.jobs ∧ t.colls = s.colls ∧ ∀ c, t.collFailed c = s.collFailed c := by
  unfold State.peerRecord State.logError
  refine ⟨?_, ?_, ?_, fun c => congrArg (bit · c) (get_record (by decide) ..)⟩
  · rw [record_frame]
  · rw [record_frame]
  · rw [record_frame]

theorem failColl_spec {s : State} {c : Nat} {x : Coll} (here : s.coll c = some x) (device : Nat) : let t := s.failColl c device
    t.collFailed c = decide (c < 64) ∧ t.coll c = some { x with running := false } ∧ (∀ e, e ≠ c → t.coll e = s.coll e) ∧
    t.mem = s.mem ∧ t.jobs = s.jobs := by
  have fails : s.failColl c device =
      ((s.putBitAt QUY_COLL_STATUS_HI_FAILED 0 c true).putColl c { x with running := false }).peerRecord 1 device := by
    unfold State.failColl
    dsimp only
    rw [show Tab.find c (s.putBitAt QUY_COLL_STATUS_HI_FAILED 0 c true).colls = some x from here]
    rfl
  have marked : (s.putBitAt QUY_COLL_STATUS_HI_FAILED 0 c true).collFailed c = decide (c < 64) := by
    unfold State.collFailed State.bitAt State.putBitAt
    rw [State.get_put_self, bit_eq_testBit, Nat.testBit_mod_two_pow, ← bit_eq_testBit, bit_putBit, if_pos rfl]
    exact Bool.and_true _
  obtain ⟨mem, jobs, colls, failed⟩ := peerRecord_spec ((s.putBitAt QUY_COLL_STATUS_HI_FAILED 0 c true).putColl c { x with running := false }) 1 device
  have coll (e : Nat) : (s.failColl c device).coll e = if e = c then some { x with running := false } else s.coll e := by
    rw [fails]
    exact (congrArg (Tab.find e) colls).trans (coll_putColl _ c { x with running := false } e)
  refine ⟨?_, (coll c).trans (if_pos rfl), fun e ne => (coll e).trans (if_neg ne), ?_, ?_⟩
  · rw [fails]; exact (failed c).trans marked
  · rw [fails]; exact mem
  · rw [fails]; exact jobs

/-! ### The done bit and snapshot records (R516, R521) -/

theorem deliverResult_eq {s w u : State} {x : Coll} (result : s.writeResult x = .ok w)
    (done : w.write {} (viewStep + x.entry.done) (leBytes 8 (2 ^ x.entry.doneBit)) = .ok u) : s.deliverResult x = u := by
  have bit : w.barrierWrite {} 1 x.entry.done (2 ^ x.entry.doneBit) = .ok u :=
    (congrArg (fun a => w.write {} (a + x.entry.done) (leBytes 8 (2 ^ x.entry.doneBit))) (Nat.mul_one viewStep)).trans done
  unfold State.deliverResult
  rw [result]
  dsimp only
  rw [bit]

theorem writeRecords_eq {α : Type} (f : α → List Byte) (dest : Nat) (l : List α) (n : Nat) (s : State) :
    s.writeRecords (dest + 256 * n) (l.map f) = (l.zipIdx n).foldl (fun t p => t.devWrite (dest + 256 * p.2) (f p.1)) s := by
  induction l generalizing n s with
  | nil => rfl
  | cons a l ih =>
    rw [List.map_cons, List.zipIdx_cons, List.foldl_cons, ← ih, State.writeRecords, Nat.mul_add, Nat.mul_one, Nat.add_assoc]

end Sys2Proof.Machine
end

section
/-! Settling O54. -/

namespace Sys2Proof.Safety

open Sys2Proof.Machine

/-- Settles O54: each command of the collective engine and of snapshots by the channel record, the memory and the messages that it leaves. -/
theorem collectivesAndSnapshots : Obligations.CollectivesAndSnapshots := by
  unfold Obligations.CollectivesAndSnapshots
  refine ⟨?channel, ?opens, ?message, ?combines, ?completes, ?asked, ?written⟩
  case channel =>
    intro s c up low
    have enables : exec (.collectiveChannelEnable c) s = .next (s.collEnable c) :=
      (if_pos low).trans (congrArg Host.Outcome.next (hostDo_of_HostUp up _))
    have disables : exec (.collectiveChannelDisable c) s = .next (s.collDisable c) :=
      (if_pos low).trans (congrArg Host.Outcome.next (hostDo_of_HostUp up _))
    refine ⟨fun new bad => enables.trans (congrArg _ ?_), fun e new good => ⟨_, enables, ?_⟩, fun x old => enables.trans (congrArg _ ?_),
      fun new => disables.trans (congrArg _ ?_), fun x old runs => disables.trans (congrArg _ ?_), fun x old idle => disables.trans (congrArg _ ?_)⟩
    · unfold State.collEnable
      rw [new, bad]
    · obtain ⟨enabled, bad, failed, keeps, frame, beside⟩ := channelFlds_spec s low
      have takes : s.collEnable c = (s.channelFlds c).putColl c ⟨e, 0, false, false, false, [], [], (s.channelFlds c).scopeTree e⟩ := by
        unfold State.collEnable
        rw [new, good]
        rfl
      rw [takes, beside.scopeTree]
      generalize s.channelFlds c = u at enabled bad failed keeps frame
      obtain ⟨l, rfl⟩ : ∃ l, u = { s with flds := l } := ⟨_, frame⟩
      exact ⟨coll_putColl_self .., fun d ne => (coll_putColl ..).trans (if_neg ne), enabled, bad, failed, keeps, rfl⟩
    · unfold State.collEnable
      rw [old]
    · unfold State.collDisable
      dsimp only
      rw [show (s.putBitAt QUY_COLL_EN_ENABLE 0 c false).coll c = none from new]
    · unfold State.collDisable
      dsimp only
      rw [show (s.putBitAt QUY_COLL_EN_ENABLE 0 c false).coll c = some x from old]
      exact if_pos runs
    · unfold State.collDisable
      dsimp only
      rw [show (s.putBitAt QUY_COLL_EN_ENABLE 0 c false).coll c = some x from old]
      exact if_neg (by simpa using idle)
  case opens =>
    intro s w c x bs live pod enabled good here idle gate
    have run : exec (.collectiveRoundOpen c) s = .next (s.tryOpen c x) := by
      change execCollectiveRoundOpen c s = _
      unfold execCollectiveRoundOpen
      rw [here]
      exact if_pos (by simp [live_of_Live live, pod, enabled, idle, good])
    refine ⟨fun unmet => run.trans (congrArg _ (tryOpen_unmet gate unmet)), fun data v u met contributes clears heard results => ?_⟩
    replace run := run.trans (congrArg _ (tryOpen_met gate met contributes clears))
    refine ⟨fun op leaf p parent => run.trans (congrArg _ ?_), fun toAll leaf root => run.trans (congrArg _ ?_),
      fun broadcast other => run.trans (congrArg _ (openRound_broadcast broadcast other)), fun broadcast root => ⟨_, run, ?_⟩⟩
    · rw [openRound_leaf op heard leaf, parent]
    · have op : x.entry.op ≠ 2 := by rcases toAll with op | op <;> rw [op] <;> decide
      rw [openRound_leaf op heard leaf, root]
      dsimp only
      exact (atRoot_alone (s := u.putColl c _) (y := { x with running := true, sent := true, tree := u.scopeTree x.entry }) toAll leaf results).trans
        (putColl_putColl ..)
    · rw [openRound_broadcastRoot broadcast root results]
      generalize down : ({ x with running := true, sent := true, tree := u.scopeTree x.entry, results := [(x.round, data)] } : Coll) = y
      have rest := (sendDown_more (u.putColl c y) c x.round data (u.around (u.scopeTree x.entry))).rest
      refine ⟨by rw [rest]; rfl, ?_, fun d mem => sendDown_told _ c x.round data mem⟩
      rw [rest]
      exact coll_putColl_self u c y
  case message =>
    intro s c r d x bs live pod good here low
    have run (down agrees : Bool) : exec (.collectiveMessage c r d down agrees bs) s = .next (if !agrees then s.failColl c d else s.collMessage c x r d down bs) := by
      change execCollectiveMessage c r d down agrees bs s = _
      unfold execCollectiveMessage
      rw [here]
      refine (if_neg (by simp [live_of_Live live, pod, good])).trans ?_
      rw [Nat.mod_eq_of_lt low]
      cases agrees <;> rfl
    have repeats (down : Bool) : x.repeats r down = true ↔ 32768 ≤ (r + 65536 - x.round) % 65536 ∨ (down = false ∧ x.running = true ∧ x.sent = true ∧ r = x.round) := by
      unfold Coll.repeats
      simp [and_assoc]
    have fresh {down : Bool} (near : (r + 65536 - x.round) % 65536 < 32768) (idle : down = true ∨ x.running = false) : x.repeats r down = false := by
      refine Bool.eq_false_iff.mpr fun h => ?_
      rcases (repeats down).mp h with far | ⟨up, running, -, -⟩
      · omega
      · rcases idle with down | idle
        · rw [down] at up; cases up
        · rw [idle] at running; cases running
    refine ⟨fun down again => (run down true).trans (congrArg _ (if_pos again)), repeats, fun near new => ⟨_, run true true, ?_⟩,
      fun near new idle => (run false true).trans (congrArg _ ((if_neg Bool.false_ne_true).trans ?_)), ⟨_, run true false, ?_⟩⟩
    · have down : (if (!true) = true then s.failColl c d else s.collMessage c x r d true bs) = (s.putColl c { x with results := x.results ++ [(r, bs)] }).sendDown c r bs
          (if x.entry.op == collReduce then [] else if x.entry.op == collBroadcast then (s.around (s.roundTree x r)).filter fun e => e != d
            else childrenIn (s.roundTree x r) s.me) := by
        refine (if_neg Bool.false_ne_true).trans ((if_neg (by rw [fresh near (.inl rfl)]; exact Bool.false_ne_true)).trans ((if_pos rfl).trans ?_))
        dsimp only
        rw [new]
        unfold Coll.take
        rw [new]
        rfl
      rw [down]
      generalize ({ x with results := x.results ++ [(r, bs)] } : Coll) = y
      generalize told : (if x.entry.op == collReduce then [] else if x.entry.op == collBroadcast then (s.around (s.roundTree x r)).filter fun e => e != d
            else childrenIn (s.roundTree x r) s.me) = ds
      have rest := (sendDown_more (s.putColl c y) c r bs ds).rest
      have coll (e : Nat) : ((s.putColl c y).sendDown c r bs ds).coll e = if e = c then some y else s.coll e := by
        rw [rest]
        exact coll_putColl s c y e
      have sent {e : Nat} (mem : e ∈ ds) := sendDown_told (s.putColl c y) c r bs mem
      refine ⟨(coll c).trans (if_pos rfl), fun e ne => (coll e).trans (if_neg ne), fun toAll k child => sent ?_, fun broadcast k near ne => sent ?_, fun reduce => ?_, ?_⟩
      · rw [← told]
        rcases toAll with op | op <;> rw [op] <;> exact child
      · rw [← told, broadcast]
        exact List.mem_filter.mpr ⟨near, by simpa using ne⟩
      · rw [reduce] at told
        rw [← told]; rfl
      · rw [rest]; rfl
    · refine (if_neg (by rw [fresh near (.inr idle)]; exact Bool.false_ne_true)).trans ?_
      have hears : x.hear r d bs = { x with heard := x.heard ++ [(r, d, bs)] } := by
        unfold Coll.hear
        rw [new]; rfl
      refine (if_neg Bool.false_ne_true).trans ?_
      rw [hears]
      unfold State.collAdvance
      rw [coll_putColl_self]
      exact if_pos (by simp [idle])
    · exact failColl_spec here d
  case combines =>
    intro a b i length
    unfold combine
    rw [length, Nat.mul_div_cancel_left _ (by decide)]
    rfl
  case completes =>
    intro s w u c x live good here complete result done
    have delivered : s.deliverResult x = u := deliverResult_eq (by unfold State.writeResult; exact result) done
    have run : exec (.collectiveRoundComplete c) s = .next (s.endRound c x) := by
      change execCollectiveRoundComplete c s = _
      unfold execCollectiveRoundComplete
      rw [here]
      exact if_pos (by simp [live_of_Live live, good, complete])
    refine ⟨fun ends => run.trans (congrArg _ ?_), fun stays => run.trans (congrArg _ ?_)⟩
    · unfold State.endRound
      dsimp only
      rw [delivered]
      exact if_pos ends
    · unfold State.endRound
      dsimp only
      rw [delivered]
      exact if_neg (by simpa using stays)
  case asked =>
    intro s cut dest cutLow destLow
    refine ⟨?_, fun live pod member later => ?_⟩
    · intro up pod master led free target t
      have run : exec (.snapshotRequest cut dest) s = .next (s.snapRequest cut dest) :=
        (if_pos master).trans (congrArg Host.Outcome.next (hostDo_of_HostUp up _))
      have get {f : Fld} (cuts : f.ord % 512 ≠ QUY_SNAP_CTL_LO_CUT_TIDE.ord % 512) (dests : f.ord % 512 ≠ QUY_SNAP_CTL_HI_DEST.ord % 512) : t.get f 0 = s.get f 0 :=
        (State.get_put_other dests ..).trans (State.get_put_other cuts ..)
      have tide : t.tide = s.tide := get (by decide) (by decide)
      have asks : (!t.inPod || !t.isMaster || t.pod.leaderless || t.pod.snapshot.isSome || !snapDest dest) = false := by
        have inPod : t.inPod = s.inPod := congrArg (· != 0) (get (by decide) (by decide))
        have isMaster : t.isMaster = s.isMaster := by
          unfold State.isMaster State.podMaster State.me
          rw [get (by decide) (by decide), get (by decide) (by decide)]
        rw [inPod, pod, isMaster, master, target]
        change (false || false || s.pod.leaderless || s.pod.snapshot.isSome || false) = false
        rw [led, free]; rfl
      have goes : s.snapRequest cut dest = if cut ≤ t.tide then t.snapLate
          else ({ t with pod := { t.pod with snapshot := some ⟨cut, dest, none⟩ } }.snapArrives cut dest).send (.broadcast (.snapRequest cut)) :=
        if_neg (by rw [asks]; exact Bool.false_ne_true)
      rw [tide] at goes
      refine ⟨fun late => run.trans (congrArg _ (goes.trans (if_pos late))), fun later => run.trans (congrArg _ ((goes.trans (if_neg (by omega))).trans ?_))⟩
      have arrives : ({ t with pod := { t.pod with snapshot := some ⟨cut, dest, none⟩ } } : State).snapArrives cut dest =
          { t with pod := { s.pod with snapshot := some ⟨cut, dest, none⟩, cuts := s.pod.cuts ++ [(cut, dest)] } } :=
        if_neg (by change ¬ cut ≤ t.tide; rw [tide]; omega)
      rw [arrives, send_broadcast]
      rfl
    · exact (if_neg (by simp [member])).trans ((if_pos (by simp [live_of_Live live, pod])).trans (congrArg Host.Outcome.next (if_neg (by omega))))
  case written =>
    intro s n bs rs live master asked own w
    refine ⟨?_, ?_, fun d ne absent => ?_⟩
    · change execSnapshotRecordsWritten rs s = _
      unfold execSnapshotRecordsWritten
      rw [asked]
      refine (if_pos (by simp [live_of_Live live, master, own])).trans ?_
      have records := writeRecords_eq (fun d => n.recordOf s.me d rs) n.dest (sortNat s.pod.members) 0 s
      dsimp only
      rw [show n.dest = n.dest + 256 * 0 from rfl, records]
    · unfold Snapshot.recordOf
      dsimp only
      rw [if_pos (beq_self_eq_true _), own]
    · have none : (rs.find? fun x => x.1 == d) = none := List.find?_eq_none.mpr fun r mem => by simpa using absent r mem
      unfold Snapshot.recordOf
      dsimp only
      rw [if_neg (by simpa using ne), none]
      rfl

end Sys2Proof.Safety
end


section
/-! SUPPORT. Answers of customs over SPDM, and chunks. -/

namespace Sys2Proof.Machine

open Sys2Proof.Safety

/-- Nothing of SPDM is withheld. -/
theorem send_spdm (s : State) (t c : Nat) (l : List Nat) : s.send (.spdm t c l) = { s with out := s.out ++ [.spdm t c l] } := send_of_passed rfl

section
variable {s : State} {p need : Nat} {f : State → State}

theorem spdmAnswer_answers (up : s.customsUp = true) (low : p < 4) (level : need ≤ s.cus.level p) : s.spdmAnswer p need f = f s :=
  (if_neg (by simp [up, spdmTransport, low])).trans (if_neg (by omega))

theorem spdmAnswer_early (up : s.customsUp = true) (low : p < 4) (level : s.cus.level p < need) : s.spdmAnswer p need f = s.send (.spdm p 0x7F [0x04]) :=
  (if_neg (by simp [up, spdmTransport, low])).trans (if_pos level)

end

/-- Enough pieces hold the whole list. -/
theorem flatten_chunked {α : Type} {fuel : Nat} {l : List α} (enough : l.length ≤ 1024 * fuel) : (chunked fuel l).flatten = l := by
  induction fuel generalizing l with
  | zero => rw [List.length_eq_zero_iff.mp (Nat.le_zero.mp enough)]; rfl
  | succ fuel ih =>
    unfold chunked
    by_cases empty : l.isEmpty
    · rw [if_pos empty, List.isEmpty_iff.mp empty]; rfl
    · rw [if_neg empty, List.flatten_cons, ih (by rw [List.length_drop]; omega), List.take_append_drop]

end Sys2Proof.Machine
end

section
/-! Settling O55. -/

namespace Sys2Proof.Safety

open Sys2Proof.Machine

/-- Settles O55: each request by the answer that its level of negotiation and what customs holds give. -/
theorem spdmIsNegotiatedAndAnswered : Obligations.SpdmIsNegotiatedAndAnswered := by
  unfold Obligations.SpdmIsNegotiatedAndAnswered
  intro s p up low x err tells
  have answers {need : Nat} (f : State → State) (level : need ≤ s.cus.level p) {t : State} (is : f s = t) :
      (Machine.ok (s.spdmAnswer p need f) : Host.Outcome State Fault Refusal) = .next t :=
    congrArg Host.Outcome.next ((spdmAnswer_answers up low level).trans is)
  have early {need : Nat} (f : State → State) (level : s.cus.level p < need) :
      (Machine.ok (s.spdmAnswer p need f) : Host.Outcome State Fault Refusal) = .next (err 0x04) :=
    congrArg Host.Outcome.next (spdmAnswer_early up low level)
  have said (c : Customs) (code : Nat) (l : List Nat) : ({ s with cus := c } : State).send (.spdm p code l) = tells c code l := send_spdm ..
  refine ⟨answers _ (Nat.zero_le _) (said _ _ _), fun level => answers _ level (said _ _ _), fun level => answers _ level (said _ _ _),
    fun level => early _ level, fun level => early _ level, ?_, ?_⟩
  · intro level a b c ok l bs m mem
    simp only [List.mem_cons, List.not_mem_nil, or_false] at mem
    rcases mem with rfl | rfl | rfl | rfl | rfl | rfl | rfl | rfl | rfl | rfl | rfl <;> exact early _ level
  intro level
  refine ⟨answers _ level (said x _ _), fun slot o n => ⟨fun slots fits => answers _ level ?portion, fun beyond => answers _ level (if_pos ?beyond)⟩,
    fun slot n slots => ?challenge, fun i n blocks => ?blocks, fun n b => ?signature, fun full b => answers _ level (if_pos full),
    fun room b => answers _ level ?opens, fun n y here on => ?session, fun n absent => ?absent, fun n bs next => ?sends, fun n c here => ?gets⟩
  case portion => exact (if_neg (by simp; omega)).trans (said x _ _)
  case beyond => simpa using beyond
  case challenge => exact answers _ level ((if_neg (by omega)).trans (said { x with drawn := x.drawn + 2 } _ _))
  case blocks =>
    intro answer
    have sent (signed : Bool) : exec (.getMeasurements p i n signed) s = .next (s.measuresSent p n signed (if i = 0 then [10] else s.measurement i)) := by
      refine answers _ level ?_
      by_cases zero : i = 0
      · rw [if_pos zero]
        exact if_pos (by simpa using zero)
      · rw [if_neg zero]
        exact (if_neg (by simpa using zero)).trans (if_pos blocks)
    exact ⟨(sent false).trans (congrArg _ (said { x with drawn := x.drawn + 1 } _ _)),
      (sent true).trans (congrArg _ (said { x with drawn := x.drawn + 2 } _ _))⟩
  case signature =>
    obtain ⟨sig, drawn, length⟩ : ∃ sig, s.blockF0 n = (sig, { s with cus := { x with drawn := x.drawn + 1 } }) ∧ sig.length = 4627 :=
      ⟨_, rfl, by rw [List.length_map, List.length_range]; rfl⟩
    have large : exec (.getMeasurements p 0xF0 n b) s = .next (({ s with cus := { x with drawn := x.drawn + 1 } } : State).largeResponse p sig) := by
      refine answers _ level ((if_neg (by decide)).trans ((if_neg (by decide)).trans ((if_pos (by decide)).trans ?_)))
      rw [drawn]
      dsimp only
      rw [if_neg (by decide), List.nil_append]
    refine ⟨_, large, ?_⟩
    unfold State.largeResponse State.spdmError
    rw [send_spdm]
    refine ⟨rfl, ?_, rfl⟩
    unfold Customs.partsOut
    dsimp only
    rw [List.find?_cons_of_pos (by simp)]
    exact (congrArg List.length (flatten_chunked (by rw [length]; decide))).trans length
  case opens => exact (if_neg (Nat.not_le.mpr room)).trans (said { x with
    drawn := x.drawn + 2, sessions := x.sessions ++ [⟨x.nextSession, p, false, b, 0⟩], nextSession := x.nextSession + 1 } _ _)
  case session =>
    have finishes (b : Bool) : exec (.finish p n b) s = .next (if y.finished || y.transport != p then err 0x04
        else if b then tells (x.putSession { y with finished := true }) 0x65 [n] else tells (x.dropSession n) 0x7F [0x06]) := by
      refine answers _ level ?_
      rw [here]
      dsimp only
      rw [said, show State.spdmError _ p spdmDecrypt = _ from said (x.dropSession n) _ _]
      rfl
    have here' : x.finishedOn p n = y.finished := by
      unfold Customs.finishedOn
      rw [here]
      simp [on]
    refine ⟨fun unfinished => ⟨(finishes true).trans ?_, (finishes false).trans ?_⟩, fun finished => ⟨(finishes true).trans ?_, answers _ level ?_,
      answers _ level ?_, answers _ level ?_⟩⟩
    · simp [unfinished, on]
    · simp [unfinished, on]
    · simp [finished]
    · exact (if_pos (here'.trans finished)).trans (said x _ _)
    · rw [here]
      exact (if_pos (by simp [finished, on])).trans (said _ _ _)
    · exact (if_pos (here'.trans finished)).trans (said _ _ _)
  case absent =>
    have here' : ¬ x.finishedOn p n = true := by
      unfold Customs.finishedOn
      rw [absent]
      exact Bool.false_ne_true
    refine ⟨answers _ level ?_, answers _ level (if_neg here'), answers _ level ?_, answers _ level (if_neg here')⟩
    · rw [absent]; rfl
    · rw [absent]; rfl
  case sends =>
    have parts : (if (n == 0) = true then [] else x.partsIn p).length = n := by
      by_cases zero : n = 0
      · rw [if_pos (by simpa using zero), zero]; rfl
      · rw [if_neg (by simpa using zero)]; exact (next.trans (if_neg zero)).symm
    have sent (last : Bool) : exec (.chunkSend p n last bs) s = .next (tells { x with chunksIn := if last then x.chunksIn.filter fun e => e.1 != p
        else (p, (if (n == 0) = true then [] else x.partsIn p) ++ [bs]) :: x.chunksIn.filter fun e => e.1 != p } 0x05 [n]) :=
      answers _ level ((if_neg (by rw [parts]; simp)).trans (said _ _ _))
    refine ⟨(sent false).trans ?_, sent true⟩
    simp only [beq_iff_eq]
    rfl
  case gets =>
    have got : exec (.chunkGet p n) s = .next ((if n + 1 == (x.partsOut p).length then { s with
        cus := { x with chunksOut := x.chunksOut.filter fun e => e.1 != p } } else s).send
          (.spdm p 0x06 ([n, b2n (n + 1 == (x.partsOut p).length)] ++ c.map BitVec.toNat))) := by
      refine answers _ level ?_
      dsimp only
      rw [here]
    refine ⟨fun more => got.trans (congrArg _ ?_), fun last => got.trans (congrArg _ ?_)⟩
    · rw [show (n + 1 == (x.partsOut p).length) = false from beq_false_of_ne (by omega), if_neg Bool.false_ne_true]
      exact said x _ _
    · rw [show (n + 1 == (x.partsOut p).length) = true from beq_iff_eq.mpr last, if_pos rfl]
      exact said { x with chunksOut := x.chunksOut.filter fun e => e.1 != p } _ _

end Sys2Proof.Safety
end


section
/-! SUPPORT. Zeroisation, plain counts of the salvor, the veil, and the tasks of a debug session. -/

namespace Sys2Proof.Machine

open Sys2Proof.Safety

/-! ### Quays and ports that lose their keys (R494, R444) -/

/-- What a zeroisation may change besides the customs' own keys: registers, the salvor, quays and what is on the way over them, rings. -/
def State.keyless (s : State) : State :=
  { s with flds := [], salvor := {}, quays := [], routes := [], laneOut := {}, pod := {}, unacked := [], nextVc0 := 0, out := [], rings := [], ideHeld := [] }

/-- The fields that a zeroisation may change. -/
def keyFlds : List Fld := QUY_STATUS_KEY_FAILS :: HST_PORT_STATUS_IDE_SECURE :: HST_RING_STATUS_FREEZE_CAUSE :: HMR_SCHED_EVENTS_FREEZES :: stackFlds

/-- Nothing but that has changed. -/
structure KeysOnly (s t : State) : Prop where
  rest : t.keyless = s.keyless
  get : ∀ f : Fld, (∀ g ∈ keyFlds, f.ord % 512 ≠ g.ord % 512) → ∀ i, t.get f i = s.get f i

theorem KeysOnly.refl (s : State) : KeysOnly s s := ⟨rfl, fun _ _ _ => rfl⟩

theorem KeysOnly.trans {s t u : State} (first : KeysOnly s t) (second : KeysOnly t u) : KeysOnly s u :=
  ⟨second.rest.trans first.rest, fun f other i => (second.get f other i).trans (first.get f other i)⟩

theorem KeysOnly.foldl {α : Type} {f : State → α → State} (hf : ∀ t x, KeysOnly t (f t x)) (l : List α) (s : State) : KeysOnly s (l.foldl f s) := by
  induction l generalizing s with
  | nil => exact .refl s
  | cons x l ih => exact (hf s x).trans (ih _)

theorem rekeyQuay_only (s : State) (q : Nat) : KeysOnly s (s.rekeyQuay q) := by
  by_cases failed : (s.quay q).st = .failed
  · unfold State.rekeyQuay
    rw [quayFails_again 3 failed]
    exact ⟨rfl, fun _ _ _ => rfl⟩
  · obtain ⟨frame, get, -, -⟩ := quayFails_spec 3 failed
    refine ⟨?_, fun f other i => get f (fun g mem => other g ?_) (other _ (by simp [keyFlds])) i⟩
    · unfold State.rekeyQuay
      dsimp only
      rw [frame]; rfl
    · unfold keyFlds; simp [mem]

/-- The secure bit of each port is kept while quays are keyed again. -/
theorem get_secure_rekeyQuay (s : State) (q p : Nat) : (s.rekeyQuay q).get HST_PORT_STATUS_IDE_SECURE p = s.get HST_PORT_STATUS_IDE_SECURE p := by
  by_cases failed : (s.quay q).st = .failed
  · unfold State.rekeyQuay
    rw [quayFails_again 3 failed]; rfl
  · exact (quayFails_spec 3 failed).2.1 _ (by decide) (by decide) p

theorem quay_rekeyQuay {s : State} {q : Nat} (working : (s.quay q).st ≠ .failed) (e : Nat) :
    (s.rekeyQuay q).quay e = if e = q then { (s.quay q).failed with st := .training } else s.quay e := by
  obtain ⟨frame, -, -, -⟩ := quayFails_spec (s := s) 3 working
  have quay (e : Nat) : (s.quayFails q 3).quay e = if e = q then (s.quay q).failed else s.quay e := by
    rw [frame]
    exact Tab.get_insert ..
  refine (State.quay_putQuay ..).trans ?_
  by_cases same : e = q
  · rw [if_pos same, if_pos same, quay, if_pos rfl]
  · rw [if_neg same, if_neg same, quay, if_neg same]

theorem quay_rekeyQuays {l : List Nat} {s : State} (working : ∀ q ∈ l, (s.quay q).st ≠ .failed) (e : Nat) :
    (e ∈ l → ((l.foldl (fun t q => t.rekeyQuay q) s).quay e).st = .training ∧ ((l.foldl (fun t q => t.rekeyQuay q) s).quay e).keyed = false) ∧
    (e ∉ l → (l.foldl (fun t q => t.rekeyQuay q) s).quay e = s.quay e) := by
  induction l generalizing s with
  | nil => exact ⟨fun mem => absurd mem List.not_mem_nil, fun _ => rfl⟩
  | cons q l ih =>
    have here := quay_rekeyQuay (working q List.mem_cons_self)
    have later := ih (s := s.rekeyQuay q) fun p mem => by
      rw [here p]
      by_cases same : p = q
      · rw [if_pos same]; exact fun h => by cases h
      · rw [if_neg same]; exact working p (List.mem_cons_of_mem _ mem)
    rw [List.foldl_cons]
    refine ⟨fun mem => ?_, fun absent => ?_⟩
    · by_cases again : e ∈ l
      · exact later.1 again
      · rw [later.2 again, here e, if_pos ((List.mem_cons.mp mem).resolve_right again)]
        exact ⟨rfl, rfl⟩
    · rw [List.mem_cons, not_or] at absent
      rw [later.2 absent.2, here e, if_neg absent.1]

theorem ideLeaves_eq (s : State) (p : Nat) : s.ideLeaves p = (s.insecure p).freezeRings ((s.insecure p).ringsOn p) 5 := rfl

theorem ideLeaves_only (s : State) (p : Nat) : KeysOnly s (s.ideLeaves p) := by
  rw [ideLeaves_eq]
  refine ⟨by rw [freezeRings_frame]; rfl, fun f other i => (keepsFieldsBut_freezeRings _ 5 _ f i ?_).trans (State.get_put_other (other _ (by simp [keyFlds])) ..)⟩
  simp only [List.mem_cons, List.mem_map, not_or, not_exists, not_and]
  exact ⟨Fld.key_ne (other _ (by simp [keyFlds])) i 0, fun n _ same => Fld.key_ne (other _ (by simp [keyFlds])) i n same.symm⟩

theorem quays_ideLeaves (s : State) (p : Nat) : (s.ideLeaves p).quays = s.quays := by
  rw [ideLeaves_eq, freezeRings_frame]; rfl

theorem get_secure_ideLeaves (s : State) (p e : Nat) :
    (s.ideLeaves p).get HST_PORT_STATUS_IDE_SECURE e = if e = p then 0 else s.get HST_PORT_STATUS_IDE_SECURE e := by
  rw [ideLeaves_eq]
  refine (keepsFieldsBut_freezeRings _ 5 _ _ e ?_).trans ?_
  · simp only [List.mem_cons, List.mem_map, not_or, not_exists, not_and]
    exact ⟨Fld.key_ne (by decide) e 0, fun n _ same => Fld.key_ne (f := HST_PORT_STATUS_IDE_SECURE) (g := HST_RING_STATUS_FREEZE_CAUSE) (by decide) e n same.symm⟩
  · by_cases same : e = p
    · rw [same, if_pos rfl]
      exact State.get_put_self ..
    · rw [if_neg same]
      exact State.get_put_unit same ..

theorem get_secure_leaves (l : List Nat) (s : State) (e : Nat) :
    (l.foldl (fun t p => t.ideLeaves p) s).get HST_PORT_STATUS_IDE_SECURE e = if e ∈ l then 0 else s.get HST_PORT_STATUS_IDE_SECURE e := by
  induction l generalizing s with
  | nil => rfl
  | cons p l ih =>
    rw [List.foldl_cons, ih, get_secure_ideLeaves]
    by_cases later : e ∈ l
    · simp [later]
    · by_cases here : e = p <;> simp [later, here]

theorem quays_leaves (l : List Nat) (s : State) : (l.foldl (fun t p => t.ideLeaves p) s).quays = s.quays := by
  induction l generalizing s with
  | nil => rfl
  | cons p l ih => exact (ih _).trans (quays_ideLeaves s p)

/-! ### Zeroisation (R562) -/

/-- The state once quays and ports have lost their keys. -/
def State.unkeyed (s : State) : State :=
  let t := s.keyedQuays.foldl (fun t q => t.rekeyQuay q) s
  ([0, 1].filter fun p => t.flag HST_PORT_STATUS_IDE_SECURE p).foldl (fun t p => t.ideLeaves p) t

/-- The customs once the keys are gone. -/
def Customs.zeroised (x : Customs) : Customs := { x with ide := [], sessions := [], chunksIn := [], chunksOut := [], seeds := x.seeds + 1 }

theorem unkeyed_only (s : State) : KeysOnly s s.unkeyed :=
  (KeysOnly.foldl rekeyQuay_only _ s).trans (KeysOnly.foldl ideLeaves_only _ _)

theorem zeroiseKeys_eq (s : State) : s.zeroiseKeys = { s.unkeyed with cus := s.cus.zeroised } := by
  have cus : s.unkeyed.cus = s.cus := (congrArg (fun u : State => u.cus) (unkeyed_only s).rest :)
  unfold Customs.zeroised
  rw [← cus]
  rfl

theorem quay_unkeyed (s : State) {q : Nat} (low : q < 16) :
    ((s.quay q).st = .up → (s.unkeyed.quay q).st = .training ∧ (s.unkeyed.quay q).keyed = false) ∧
    ((s.quay q).st = .down ∨ (s.quay q).st = .stopped → s.unkeyed.quay q = s.quay q) := by
  have keyed (q : Nat) : q ∈ s.keyedQuays ↔ q < 16 ∧ ((s.quay q).st = .up ∨ (s.quay q).st = .keying ∨ (s.quay q).st = .training) := by
    unfold State.keyedQuays State.quayUp
    simp [or_assoc]
  have working : ∀ q ∈ s.keyedQuays, (s.quay q).st ≠ .failed := fun q mem failed => by
    have st := ((keyed q).mp mem).2
    rw [failed] at st
    simp at st
  have same : s.unkeyed.quay q = (s.keyedQuays.foldl (fun t q => t.rekeyQuay q) s).quay q :=
    (congrArg (fun t : Tab Quay => ({ s with quays := t } : State).quay q) (quays_leaves _ _) :)
  obtain ⟨rekeyed, kept⟩ := quay_rekeyQuays working q
  rw [same]
  refine ⟨fun up => rekeyed ((keyed q).mpr ⟨low, .inl up⟩), fun off => kept fun mem => ?_⟩
  have st := ((keyed q).mp mem).2
  rcases off with off | off <;> rw [off] at st <;> simp at st

theorem get_secure_unkeyed (s : State) {p : Nat} (low : p < 2) : s.unkeyed.get HST_PORT_STATUS_IDE_SECURE p = 0 := by
  refine (get_secure_leaves ..).trans ?_
  split
  · rfl
  next kept =>
    have port : p ∈ [0, 1] := by simp; omega
    simp only [List.mem_filter, port, true_and, State.flag, bne_iff_ne, ne_eq, not_not] at kept
    exact kept

/-! ### The veil (R577) -/

theorem veil_spec (s : State) : let t := s.veil
    t.cus = s.cus ∧ t.power = s.power ∧ t.hot = [] ∧ t.get CUS_STATUS_VEILED 0 = 1 ∧ (∀ n, n < 32 → s.get HBM_CHSET_COUNT n ≠ 0 → n ∈ t.veiled) ∧
    ∀ i, i < whsBytes → memAt t (whsBase + i) = 0 := by
  have frame (l : List Nat) : ∀ s : State, l.foldl (fun t m => t.endLoad m) s = { s with
      flds := (l.foldl (fun t m => t.endLoad m) s).flds, streams := (l.foldl (fun t m => t.endLoad m) s).streams,
      out := (l.foldl (fun t m => t.endLoad m) s).out } := by
    induction l with
    | nil => exact fun s => rfl
    | cons m l ih =>
      intro s
      have one : s.endLoad m = { s with flds := (s.endLoad m).flds, streams := (s.endLoad m).streams, out := (s.endLoad m).out } := by
        unfold State.endLoad
        split
        · rw [freeStream_frame]
        · rfl
      rw [List.foldl_cons, ih, one]
  have keeps : MarchKeeps s ((s.models.map (·.1)).foldl (fun t m => t.endLoad m) s) := MarchKeeps.foldl marchKeeps_endLoad _ s
  have ended := frame (s.models.map (·.1)) s
  unfold State.veil
  dsimp only
  generalize (s.models.map (·.1)).foldl (fun t m => t.endLoad m) s = u at keeps ended
  have bytes (i : Nat) (low : i < whsBytes) : memAt ((u.zero whsBase whsBytes).zero berthBase viewStep) (whsBase + i) = 0 := by
    rw [memAt_zero, memAt_zero, if_pos (show whsBase ≤ whsBase + i ∧ whsBase + i < whsBase + whsBytes from ⟨Nat.le_add_right .., Nat.add_lt_add_left low _⟩),
      ite_self]
  have cleared := (zero_frame (u.zero whsBase whsBytes) berthBase viewStep)
  have first := zero_frame u whsBase whsBytes
  generalize (u.zero whsBase whsBytes).zero berthBase viewStep = v at bytes cleared
  rw [first] at cleared
  obtain ⟨l, st, o, rfl⟩ : ∃ l st o, u = { s with flds := l, streams := st, out := o } := ⟨_, _, _, ended⟩
  obtain ⟨m, ec, un, ho, rfl⟩ : ∃ m ec un ho, v = { s with flds := l, streams := st, out := o, mem := m, ecc := ec, undef := un, hot := ho } :=
    ⟨_, _, _, _, cleared⟩
  refine ⟨rfl, rfl, rfl, State.get_put_self .., fun n low used => List.mem_filter.mpr ⟨List.mem_range.mpr low, ?_⟩, bytes⟩
  have count : State.get { s with flds := l, streams := st, out := o } HBM_CHSET_COUNT n = s.get HBM_CHSET_COUNT n :=
    keeps.gets _ ⟨by decide, by decide⟩ n
  exact (bne_iff_ne ..).mpr fun zero => used (count.symm.trans zero)

/-! ### Debug levels (R573 to R579) -/

/-- A task after the debug session is closed. -/
def KCtx.undebugged (x : KCtx) : KCtx := if x.dbgHalted then x.dbgResume 0 else { x with dbgReq := 0 }

theorem find_map_values {α β : Type} (f : α → β) (t : Tab α) (k : Nat) : Tab.find k (t.map fun e => (e.1, f e.2)) = (Tab.find k t).map f := by
  induction t with
  | nil => rfl
  | cons e t ih =>
    rw [List.map_cons, Tab.find, Tab.find]
    split
    · rfl
    · exact ih

theorem debugClose_spec (s : State) : let t := s.debugClose
    t.get CUS_DEBUG_STATUS_LEVEL 0 = 0 ∧ t.get CUS_DEBUG_STATUS_NARROWED 0 = 0 ∧
    KeepsFieldsBut s t [CUS_DEBUG_STATUS_LEVEL.key 0, CUS_DEBUG_STATUS_NARROWED.key 0] ∧
    t = { s with flds := t.flds, ctxs := s.ctxs.map fun e => (e.1, e.2.undebugged) } :=
  ⟨(State.get_put_other (by decide) ..).trans (State.get_put_self ..), State.get_put_self ..,
    keepsFieldsBut_put_listed (keepsFieldsBut_put_listed (keepsFieldsBut_same rfl _) (by simp) _) (by simp) _, rfl⟩

/-- The state without sessions and a nonce of the customs. -/
def State.sessionless (s : State) : State := { s with cus := { s.cus with sessions := [], spdm := [], chunksIn := [], chunksOut := [], nonce := none } }

/-- A refusal is one of Table 14.11's seven. -/
theorem unlockRefusal_le (s : State) (k : Token) : s.unlockRefusal k ≤ 7 := by
  unfold State.unlockRefusal
  dsimp only
  split_ifs <;> omega

/-- The state once a token has used up its nonce. -/
def State.spent (s : State) (k : Token) : State :=
  { s with cus := { s.cus with nonce := if k.nonce = s.cus.nonce then none else s.cus.nonce } }

theorem unlock_eq {s : State} {k : Token} (waits : s.cus.nonce.isSome = true) :
    s.unlock k = if s.unlockRefusal k ≠ 0 then (s.spent k).put CUS_DEBUG_STATUS_LAST_REFUSAL 0 (s.unlockRefusal k) else (s.spent k).openLevel k.level := by
  have spent : (if k.nonce.isSome && k.nonce == s.cus.nonce then { s with cus := { s.cus with nonce := none } } else s) = s.spent k := by
    unfold State.spent
    by_cases same : k.nonce = s.cus.nonce
    · rw [if_pos same, if_pos (by rw [same, waits]; simp)]
    · rw [if_neg same, if_neg (by simp [same])]
  unfold State.unlock
  dsimp only
  rw [spent]
  simp only [bne_iff_ne]

theorem unlockD2_spec (s : State) : let t := s.unlockD2
    t.get CUS_DEBUG_STATUS_LEVEL 0 = 2 ∧ t.get CUS_STATUS_VEILED 0 = 1 ∧ t.cus = s.cus.zeroised ∧ t.hot = [] ∧
    (∀ n, n < 32 → s.get HBM_CHSET_COUNT n ≠ 0 → n ∈ t.veiled) ∧ (∀ i, i < whsBytes → memAt t (whsBase + i) = 0) ∧
    t.power = { s.power with d2SincePower := t.power.d2SincePower } ∧ (s.cus.lifecycle = lcDeployed → t.power.d2SincePower = true) := by
  obtain ⟨cus, power, hot, veiled, sets, zeros⟩ := veil_spec s.zeroiseKeys
  have only := unkeyed_only s
  have keys := zeroiseKeys_eq s
  have count (n : Nat) : s.zeroiseKeys.get HBM_CHSET_COUNT n = s.get HBM_CHSET_COUNT n := by
    rw [keys]
    exact only.get _ (by decide) n
  have before : s.zeroiseKeys.power = s.power := by
    rw [keys]
    exact (congrArg (fun u : State => u.power) only.rest :)
  have keysCus : s.zeroiseKeys.cus = s.cus.zeroised := by rw [keys]
  rw [before] at power
  rw [keysCus] at cus
  simp only [count] at sets
  have unlocks : s.unlockD2 = ((if s.zeroiseKeys.veil.cus.lifecycle == lcDeployed then { s.zeroiseKeys.veil with
      power := { s.zeroiseKeys.veil.power with d2SincePower := true } } else s.zeroiseKeys.veil).inc CUS_STATUS_D2_COUNT 0 1).put CUS_DEBUG_STATUS_LEVEL 0 2 := rfl
  rw [unlocks]
  generalize s.zeroiseKeys.veil = v at cus power hot veiled sets zeros
  have lifecycle : v.cus.lifecycle = s.cus.lifecycle := by rw [cus]; rfl
  refine ⟨State.get_put_self .., (State.get_put_other (by decide) ..).trans ((State.get_inc_other (by decide) ..).trans ?_), ?_⟩
  · split <;> exact veiled
  by_cases deployed : s.cus.lifecycle = lcDeployed
  · rw [if_pos (by rw [lifecycle, deployed]; rfl)]
    exact ⟨cus, hot, sets, zeros, by rw [← power]; rfl, fun _ => rfl⟩
  · rw [if_neg (by rw [lifecycle]; simpa using deployed)]
    exact ⟨cus, hot, sets, zeros, by rw [← power]; rfl, fun h => absurd h deployed⟩

end Sys2Proof.Machine
end

section
/-! Settling O56. -/

namespace Sys2Proof.Safety

open Sys2Proof.Machine

/-- Settles O56: each command of keys, zeroisation and debug by what it draws, drops, opens and resumes. -/
theorem keysZeroisationAndDebug : Obligations.KeysZeroisationAndDebug := by
  unfold Obligations.KeysZeroisationAndDebug
  refine ⟨?ide, ?nonce, ?zeroise, ?health, ?unlock, ?halts, ?close⟩
  case ide =>
    intro s n y up here port
    have run (go : Bool) : exec (.ideKm n y.transport go) s = if !go then .next { s.send (.spdm y.transport 0x7E [y.transport, b2n go]) with
        cus := { s.cus with ide := y.transport :: s.cus.ide.erase y.transport } }
        else if s.cus.ide.contains y.transport then .next ((s.send (.spdm y.transport 0x7E [y.transport, b2n go])).ideSecure y.transport)
        else .next (s.spdmError y.transport spdmUnexpected) := by
      change execIdeKm n y.transport go s = _
      unfold execIdeKm
      rw [if_neg (by simp [up]), here]
      refine (if_pos (by simp [port])).trans ?_
      dsimp only
      rw [send_spdm]
    refine ⟨run false, fun set => (run true).trans (if_pos (List.contains_iff_mem.mpr set)), fun unset => (run true).trans (if_neg (fun h => unset (List.contains_iff_mem.mp h)))⟩
  case nonce =>
    intro s up
    exact if_neg (by simp [up])
  case zeroise =>
    intro s up
    have run : exec .cusZeroise s = .next s.zeroiseKeys := congrArg Host.Outcome.next (hostDo_of_HostUp up _)
    have only := unkeyed_only s
    refine ⟨_, run, ?_⟩
    rw [zeroiseKeys_eq]
    refine ⟨rfl, rfl, rfl, rfl, rfl, fun q low => (quay_unkeyed s low).1, fun q low => (quay_unkeyed s low).2, fun p low => get_secure_unkeyed s low,
      (congrArg (fun u : State => u.mem) only.rest :), (congrArg (fun u : State => u.jobs) only.rest :)⟩
  case health =>
    intro s powered works
    have on : (s.powered && !s.flag CUS_STATUS_ERROR 0) = true := by simp [powered, State.flag, works]
    refine ⟨fun up => ⟨_, if_pos on, ?_⟩, _, if_pos on, ?_⟩
    · have only := unkeyed_only s
      have cus : s.zeroiseAll.cus = { s.cus.zeroised with identity := false, drbg := false, spdm := [], nonce := none } := by
        unfold State.zeroiseAll
        rw [zeroiseKeys_eq]
      have halted : s.zeroiseAll.halted = false := by
        unfold State.zeroiseAll
        rw [zeroiseKeys_eq]
        exact (congrArg (fun u : State => u.halted) only.rest :).trans up
      have mem : s.zeroiseAll.mem = s.mem := by
        unfold State.zeroiseAll
        rw [zeroiseKeys_eq]
        exact (congrArg (fun u : State => u.mem) only.rest :)
      have calm : (s.zeroiseAll.deviceStop (mkErr s 3 0x0F 0x10 0 0 none [])).cus = s.zeroiseAll.cus := (congrArg State.cus (calm_deviceStop ..) :)
      obtain ⟨halts, jobs, -, sev3, kept, -⟩ := deviceStop_stopped halted (mkErr s 3 0x0F 0x10 0 0 none [])
      rw [cus] at calm
      refine ⟨halts, jobs, ?_, ?_, ?_, ?_, sev3, kept.trans mem⟩ <;> rw [calm] <;> rfl
    · obtain ⟨level, -, -, frame⟩ := debugClose_spec s
      have reports : Reports s.debugClose.sessionless (s.debugClose.sessionless.detect (mkErr s 0 0x0F 0x11 0 0 none [])) := reports_detect rfl
      have cus : s.debugClose.sessionless.cus = { s.cus with sessions := [], spdm := [], chunksIn := [], chunksOut := [], nonce := none } := by
        unfold State.sessionless
        rw [frame]
      have work := reports.work
      refine ⟨(congrArg (fun u : State => u.cus) work :).trans cus, (reports.get (by decide) 0).trans level,
        reports.mem.trans (congrArg (fun u : State => u.mem) frame :), reports.jobs.trans (congrArg (fun u : State => u.jobs) frame :),
        (congrArg (fun u : State => u.quays) work :).trans (congrArg (fun u : State => u.quays) frame :),
        (congrArg (fun u : State => u.veiled) work :).trans (congrArg (fun u : State => u.veiled) frame :)⟩
  case unlock =>
    intro s k powered works identity lifecycle direct waits c
    have notBlank : (s.cus.lifecycle == lcBlank) = false := beq_false_of_ne lifecycle
    have run : exec (.debugUnlock k) s = .next ((s.unlock k).send (.spdm 4 0x7E [c])) := by
      change execDebugUnlock k s = _
      unfold execDebugUnlock State.unlockSaid
      rw [direct]
      exact if_pos (by simp [powered, State.flag, works, identity])
    have kept (v : State) : v.send (.spdm 4 0x7E [c]) = { v with out := v.out ++ [.spdm 4 0x7E [c]] } := send_spdm ..
    rw [unlock_eq waits, kept] at run
    have judged : c = if k.level < 1 || k.level > 3 || k.reserved || decide (k.keyIndex > 4) then 1
        else if !s.tokenSigned k then 2 else if k.nonce.isNone || k.nonce != s.cus.nonce then 3 else if !k.deviceOk then 4
        else if !(k.lifecycle == s.cus.lifecycle && levelAllowed s.cus.lifecycle k.level k.keyIndex) then 5
        else if k.level == 2 && (s.flag QUY_POD_CTL_IN_POD 0 || !s.jobs.isEmpty) then 6 else if s.flag CUS_DEBUG_STATUS_LEVEL 0 then 7 else 0 := by
      change s.unlockRefusal k = _
      unfold State.unlockRefusal
      simp only [notBlank, Bool.not_false, Bool.true_and, Bool.or_assoc]
    have passes (granted : c = 0) : 1 ≤ k.level ∧ k.level ≤ 3 ∧ k.nonce = s.cus.nonce := by
      obtain ⟨form, rest⟩ := passed (by decide) (judged.symm.trans granted)
      obtain ⟨-, rest⟩ := passed (by decide) rest
      obtain ⟨nonce, -⟩ := passed (by decide) rest
      simp only [Bool.or_eq_true, decide_eq_true_eq, not_or, bne_iff_ne, not_not] at form nonce
      exact ⟨by omega, by omega, nonce.2⟩
    have nonces : (s.spent k).cus.nonce = if k.nonce = s.cus.nonce then none else s.cus.nonce := rfl
    refine ⟨fun low high clean key => ?_, fun refused => ⟨unlockRefusal_le s k, _, run, ?_⟩, fun granted mode level => ⟨_, run, ?_⟩,
      fun granted mode level => ⟨_, run, ?_⟩⟩
    · have form : ¬ (k.level < 1 || k.level > 3 || k.reserved || decide (k.keyIndex > 4)) = true := by simp [clean]; omega
      have judged := judged.trans (if_neg form)
      refine ⟨fun unsigned => judged.trans (if_pos (by simp [unsigned])), fun signed => ?_⟩
      have judged := judged.trans (if_neg (by simp [signed]))
      refine ⟨fun wrong => judged.trans (if_pos (by simp [wrong])), fun right => ?_⟩
      have judged := judged.trans (if_neg (by rw [right]; simp [Option.isSome_iff_ne_none.mp waits]))
      exact ⟨fun other => judged.trans (if_pos (by simp [other])), fun device life => (judged.trans (if_neg (by simp [device]))).trans
        (if_pos ((Bool.not_eq_true' _).mpr (Bool.eq_false_iff.mpr fun h => life (by simpa using h))))⟩
    · rw [if_pos refused]
      exact ⟨(State.get_put_self ..).trans (Nat.mod_eq_of_lt (Nat.lt_of_le_of_lt (unlockRefusal_le s k) (by decide))), State.get_put_other (by decide) ..,
        rfl, nonces, rfl, rfl⟩
    · obtain ⟨low, high, right⟩ := passes granted
      have opens : (s.spent k).openLevel k.level = (s.spent k).put CUS_DEBUG_STATUS_LEVEL 0 k.level := by
        unfold State.openLevel
        dsimp only
        rw [if_neg (show ¬ (k.level == 2) = true by simpa using level)]
        exact if_neg (by change ¬ (s.power.mode == .banked && k.level != 3) = true; rw [mode]; exact Bool.false_ne_true)
      rw [if_neg (not_not.mpr granted), opens]
      exact ⟨(State.get_put_self ..).trans (Nat.mod_eq_of_lt (show k.level < 4 by omega)), nonces.trans (if_pos right), rfl, rfl, by rw [← granted]; rfl⟩
    · obtain ⟨-, -, right⟩ := passes granted
      obtain ⟨two, veiled, cus, hot, sets, zeros, power, since⟩ := unlockD2_spec (s.spent k)
      have opens : (s.spent k).openLevel k.level = (s.spent k).unlockD2 := by
        unfold State.openLevel
        dsimp only
        rw [level, if_pos (beq_self_eq_true 2)]
        exact if_neg (by rw [power]; change ¬ (s.power.mode == .banked && true) = true; rw [mode]; exact Bool.false_ne_true)
      rw [if_neg (not_not.mpr granted), opens]
      generalize (s.spent k).unlockD2 = u at two veiled cus hot sets zeros since
      exact ⟨two, veiled, by rw [cus]; rfl, by rw [cus]; exact nonces.trans (if_pos right), hot, sets, zeros, since⟩
  case halts =>
    intro s k c up kiln slot deep idle x
    have acts : s.dbgActs = true := by
      unfold State.dbgActs State.debugDeep
      simp only [Bool.and_eq_true, decide_eq_true_eq, List.all_eq_true, beq_iff_eq]
      exact ⟨deep, idle⟩
    have here : (decide (k < s.kilnCount) && decide (c < 4)) = true := by simp [kiln, slot]
    have halts : exec (.debugHalt k c) s = .next (s.dbgHalt k c) := (if_pos here).trans (congrArg Host.Outcome.next (hostDo_of_HostUp up _))
    have steps (debug : x.dbgHalted = true) (r : Nat) : s.dbgStep k c r = s.setCtx k c fun y => y.dbgResume r := if_pos (by rw [acts]; exact debug)
    refine ⟨fun ready fresh => halts.trans (congrArg _ ?_), fun busy => halts.trans (congrArg _ ?_), fun halted debug => ?_⟩
    · unfold State.dbgHalt
      dsimp only
      rw [acts, if_neg (by decide)]
      exact if_pos (by change (x.st == _ && !x.begun) = true; rw [ready, fresh]; rfl)
    · unfold State.dbgHalt
      dsimp only
      rw [acts, if_neg (by decide)]
      refine (if_neg ?_).trans (if_pos ?_)
      · change ¬ (x.st == .ready && !x.begun) = true
        rcases busy with st | st | st | ⟨st, begun⟩
        · rw [st]; exact Bool.false_ne_true
        · rw [st]; exact Bool.false_ne_true
        · rw [st]; exact Bool.false_ne_true
        · rw [begun]; simp
      · change (x.st == .ready || x.st == .running || x.st == .waitTile || x.st == .waitBar) = true
        rcases busy with st | st | st | ⟨st, -⟩ <;> rw [st] <;> rfl
    · have debug : x.dbgHalted = true := by unfold KCtx.dbgHalted; rw [halted, debug]; rfl
      have runs (t : State) (op r : Nat) (acts : s.dbgKiln k c op = s.dbgStep k c r) :
          (if (decide (k < s.kilnCount) && decide (c < 4)) = true then Machine.ok (s.hostDo fun t => t.dbgKiln k c op) else Machine.ok s) =
            (.next (s.setCtx k c fun y => y.dbgResume r) : Host.Outcome State Fault Refusal) :=
        (if_pos here).trans (congrArg Host.Outcome.next ((hostDo_of_HostUp up _).trans (acts.trans (steps debug r))))
      exact ⟨runs s 2 2 rfl, runs s 3 3 rfl, runs s 4 0 rfl⟩
  case close =>
    intro s up
    have run : exec .debugClose s = .next s.debugClose := congrArg Host.Outcome.next (hostDo_of_HostUp up _)
    obtain ⟨level, narrowed, keeps, frame⟩ := debugClose_spec s
    generalize s.debugClose = t at run level narrowed keeps frame
    obtain ⟨l, rfl⟩ : ∃ l, t = { s with flds := l, ctxs := s.ctxs.map fun e => (e.1, e.2.undebugged) } := ⟨_, frame⟩
    refine ⟨_, run, level, narrowed, fun e mem => ?_, fun k c halted debug => ?_, keeps, rfl⟩
    · obtain ⟨d, -, rfl⟩ := List.mem_map.mp mem
      change (KCtx.undebugged d.2).dbgReq = 0
      unfold KCtx.undebugged
      split <;> rfl
    · have resumed : State.ctx { s with flds := l, ctxs := s.ctxs.map fun e => (e.1, e.2.undebugged) } k c = (s.ctx k c).undebugged := by
        refine (congrArg (fun o : Option KCtx => o.getD {}) (find_map_values KCtx.undebugged s.ctxs (4 * k + c))).trans ?_
        unfold State.ctx Tab.get
        cases Tab.find (4 * k + c) s.ctxs <;> rfl
      rw [resumed]
      unfold KCtx.undebugged
      rw [if_pos (by simp [KCtx.dbgHalted, halted, debug])]
      rfl

end Sys2Proof.Safety
end


section
/-! SUPPORT. What a reset, a loss of power and a trip leave (Table 15.10), and entries to Banked and back. -/

namespace Sys2Proof.Machine

open Sys2Proof.Safety

/-! ### Registers that are kept -/

theorem get_keepFlds (s : State) {fs : List Fld} {f : Fld} {i : Nat} (kept : f.key i ∈ fs.map fun g => g.key 0) :
    fldGet (s.keepFlds fs) f i = s.get f i := by
  have any : (fs.any fun g => g.key 0 == f.key i) = true := by
    simpa [List.any_eq_true] using kept
  unfold fldGet State.keepFlds Tab.get
  rw [Tab.find_filter (fun k => fs.any fun g => g.key 0 == k) s.flds (f.key i), if_pos any]
  rfl

theorem get_keepFlds_lost (s : State) {fs : List Fld} {f : Fld} {i : Nat} (lost : f.key i ∉ fs.map fun g => g.key 0) :
    fldGet (s.keepFlds fs) f i = f.reset i := by
  have none' : ¬ (fs.any fun g => g.key 0 == f.key i) = true := by
    simpa [List.any_eq_true] using lost
  unfold fldGet State.keepFlds Tab.get
  rw [Tab.find_filter (fun k => fs.any fun g => g.key 0 == k) s.flds (f.key i), if_neg none']
  rfl

/-- A register that every reset keeps. -/
theorem get_cleared {f : Fld} (kept : f ∈ lighthouseFlds) (s : State) : s.cleared.get f 0 = s.get f 0 :=
  get_keepFlds s (by
    rw [List.map_append, List.mem_append, List.map_cons, List.mem_cons]
    exact .inr (.inr (List.mem_map.mpr ⟨f, kept, rfl⟩)))

theorem get_railsOff {f : Fld} (kept : f ∈ lighthouseFlds) (s : State) : s.railsOff.get f 0 = s.get f 0 :=
  get_keepFlds s (List.mem_map.mpr ⟨f, kept, rfl⟩)

theorem kept_of_lighthouse {f : Fld} (kept : f ∈ lighthouseFlds) (l : List Nat) : f.key 0 ∈ keptKeys ++ l :=
  List.mem_append.mpr (.inl (List.mem_map.mpr ⟨f, List.mem_cons_of_mem _ (List.mem_cons_of_mem _ (List.mem_cons_of_mem _ kept)), rfl⟩))

/-! ### What is lost -/

theorem pilot_kept (p : Pilot) : p.kept.profile = p.profile ∧ p.kept.log = p.log := by
  unfold Pilot.kept Pilot.cutTransfer
  dsimp only
  split <;> exact ⟨rfl, rfl⟩

theorem cleared_cleared (s : State) : Cleared s s.cleared [] := by
  refine ⟨fun f i other => get_keepFlds_lost s fun kept => other ?_, get_cleared (by simp [lighthouseFlds]) s, rfl, rfl, rfl, rfl, rfl, rfl, rfl, rfl, rfl, rfl, rfl, rfl,
    rfl, rfl, rfl, rfl, rfl, rfl, (pilot_kept s.pilot).1, (pilot_kept s.pilot).2, rfl, rfl, rfl⟩
  rw [List.append_nil]
  rw [List.map_append, List.mem_append] at kept
  unfold keptKeys
  rcases kept with error | kept
  · split at error
    · simp only [List.map_cons, List.map_nil, List.mem_cons, List.not_mem_nil, or_false] at error
      rw [List.map_cons, List.map_cons, List.mem_cons, List.mem_cons]
      rcases error with error | error
      · exact .inl error
      · exact .inr (.inl error)
    · cases error
  · exact List.mem_cons_of_mem _ (List.mem_cons_of_mem _ kept)

theorem cleared_railsOff (s : State) : Cleared s s.railsOff [] := by
  obtain ⟨-, -, rest⟩ := cleared_cleared s
  refine ⟨fun f i other => get_keepFlds_lost s fun kept => other ?_, get_railsOff (by simp [lighthouseFlds]) s, rest⟩
  rw [List.append_nil]
  exact List.mem_cons_of_mem _ (List.mem_cons_of_mem _ (List.mem_cons_of_mem _ kept))

section
variable {s t : State} {l : List Nat}

/-- A register that may stand is written. -/
theorem cleared_put (h : Cleared s t l) {f : Fld} {i : Nat} (may : f.key i ∈ keptKeys ++ l) (clock : f.ord % 512 ≠ LHS_RTC_COUNT.ord % 512) (v : Nat) :
    Cleared s (t.put f i v) l := by
  obtain ⟨flds, rtc, rest⟩ := h
  refine ⟨fun g j other => (State.get_put_ne _ _ fun same => other (by rw [same]; exact may)).trans (flds g j other),
    (State.get_put_other (fun h => clock h.symm) ..).trans rtc, rest⟩

theorem cleared_power (h : Cleared s t l) (p : Power) : Cleared s { t with power := p } l := h

theorem cleared_mono (h : Cleared s t l) {k : List Nat} (sub : l ⊆ k) : Cleared s t k := by
  obtain ⟨flds, rest⟩ := h
  refine ⟨fun f i other => flds f i fun mem => other ?_, rest⟩
  rcases List.mem_append.mp mem with kept | listed
  · exact List.mem_append.mpr (.inl kept)
  · exact List.mem_append.mpr (.inr (sub listed))

theorem cleared_startFrom (h : Cleared s t l) (step : Nat) (cold : Bool) : Cleared s (t.startFrom step cold) l :=
  cleared_put (cleared_put (cleared_put (cleared_put h (kept_of_lighthouse (by simp [lighthouseFlds]) l) (by decide) _)
    (kept_of_lighthouse (by simp [lighthouseFlds]) l) (by decide) _) (kept_of_lighthouse (by simp [lighthouseFlds]) l) (by decide) _)
    (kept_of_lighthouse (by simp [lighthouseFlds]) l) (by decide) _

/-- What is lost is lost from any state that has the same fuses, clock, stores, host memory and queue. -/
theorem cleared_since (h : Cleared s t l) {r : State} (rtc : s.get LHS_RTC_COUNT 0 = r.get LHS_RTC_COUNT 0) (lifecycle : s.cus.lifecycle = r.cus.lifecycle)
    (counters : s.cus.counters = r.cus.counters) (owner : s.cus.ownerHash = r.cus.ownerHash) (pilot : s.pilot = r.pilot)
    (dock : s.dock.burned = r.dock.burned) (host : s.host = r.host) (pending : s.pending = r.pending) : Cleared r t l := by
  unfold Cleared at *
  rw [rtc, lifecycle, counters, owner, pilot, dock, host, pending] at h
  exact h

end

theorem startFrom_spec (s : State) (step : Nat) (cold : Bool) : let t := s.startFrom step cold
    t.get LHS_START_STEP 0 = step % 2 ^ LHS_START_STEP.width ∧ t.get LHS_START_FAILED 0 = 0 ∧ t.get LHS_START_CAUSE 0 = 0 ∧
    t.get LHS_START_COLD 0 = b2n cold % 2 ∧
    ∀ f : Fld, (∀ g ∈ [LHS_START_STEP, LHS_START_FAILED, LHS_START_CAUSE, LHS_START_COLD], f.ord % 512 ≠ g.ord % 512) → ∀ i, t.get f i = s.get f i := by
  refine ⟨?_, ?_, ?_, State.get_put_self .., fun f other i => ?_⟩
  · exact (State.get_put_other (by decide) ..).trans ((State.get_put_other (by decide) ..).trans ((State.get_put_other (by decide) ..).trans (State.get_put_self ..)))
  · exact (State.get_put_other (by decide) ..).trans ((State.get_put_other (by decide) ..).trans (State.get_put_self ..))
  · exact (State.get_put_other (by decide) ..).trans (State.get_put_self ..)
  · simp only [List.mem_cons, List.not_mem_nil, or_false, forall_eq_or_imp, forall_eq] at other
    obtain ⟨step, failed, cause, cold⟩ := other
    exact (State.get_put_other cold ..).trans ((State.get_put_other cause ..).trans ((State.get_put_other failed ..).trans (State.get_put_other step ..)))

/-! ### Entry to Banked (R580 to R582) -/

theorem enterBanked_spec (s : State) : let t := s.enterBanked
    t.power.mode = .banked ∧ t.get HMR_POWER_STATUS_PENDING 0 = 0 ∧ t.get HMR_TIDE_STATUS_RUNNING 0 = 0 ∧
    t.get HMR_POWER_STATUS_BANKED_ENTRIES 0 = min (s.get HMR_POWER_STATUS_BANKED_ENTRIES 0 + 1) (2 ^ 32 - 1) ∧
    t.power.tideResumes = decide (s.get HMR_TIDE_STATUS_RUNNING 0 ≠ 0) ∧ t.cus.nonce = none ∧ t.tide = s.tide ∧
    (s.get CUS_DEBUG_STATUS_LEVEL 0 = 1 ∨ s.get CUS_DEBUG_STATUS_LEVEL 0 = 2 → t.get CUS_DEBUG_STATUS_NARROWED 0 = 1) ∧
    t = { s with flds := t.flds, cus := t.cus, power := t.power } := by
  have level : (s.get CUS_DEBUG_STATUS_LEVEL 0 == 1 || s.get CUS_DEBUG_STATUS_LEVEL 0 == 2) = true ↔
      s.get CUS_DEBUG_STATUS_LEVEL 0 = 1 ∨ s.get CUS_DEBUG_STATUS_LEVEL 0 = 2 := by simp
  have counted : ((s.inc HMR_POWER_STATUS_BANKED_ENTRIES 0 1).put HMR_POWER_STATUS_PENDING 0 0).get HMR_POWER_STATUS_BANKED_ENTRIES 0 =
      min (s.get HMR_POWER_STATUS_BANKED_ENTRIES 0 + 1) (2 ^ 32 - 1) := (State.get_put_other (by decide) ..).trans (State.get_inc_self ..)
  have pending : ((s.inc HMR_POWER_STATUS_BANKED_ENTRIES 0 1).put HMR_POWER_STATUS_PENDING 0 0).get HMR_POWER_STATUS_PENDING 0 = 0 := State.get_put_self ..
  have tide : ((s.inc HMR_POWER_STATUS_BANKED_ENTRIES 0 1).put HMR_POWER_STATUS_PENDING 0 0).get HMR_TIDE_COUNT_TIDE 0 = s.get HMR_TIDE_COUNT_TIDE 0 :=
    (State.get_put_other (by decide) ..).trans (State.get_inc_other (by decide) ..)
  have frame : (s.inc HMR_POWER_STATUS_BANKED_ENTRIES 0 1).put HMR_POWER_STATUS_PENDING 0 0 =
    { s with flds := ((s.inc HMR_POWER_STATUS_BANKED_ENTRIES 0 1).put HMR_POWER_STATUS_PENDING 0 0).flds } := rfl
  unfold State.enterBanked
  dsimp only
  generalize (s.inc HMR_POWER_STATUS_BANKED_ENTRIES 0 1).put HMR_POWER_STATUS_PENDING 0 0 = u at counted pending tide frame
  obtain ⟨v, chosen⟩ : ∃ v, (if (s.get CUS_DEBUG_STATUS_LEVEL 0 == 1 || s.get CUS_DEBUG_STATUS_LEVEL 0 == 2) = true then
    u.put CUS_DEBUG_STATUS_NARROWED 0 1 else u) = v := ⟨_, rfl⟩
  have get {f : Fld} (other : f.ord % 512 ≠ CUS_DEBUG_STATUS_NARROWED.ord % 512) : v.get f 0 = u.get f 0 := by
    rw [← chosen]
    split
    · exact State.get_put_other other ..
    · rfl
  have narrowed (open' : s.get CUS_DEBUG_STATUS_LEVEL 0 = 1 ∨ s.get CUS_DEBUG_STATUS_LEVEL 0 = 2) : v.get CUS_DEBUG_STATUS_NARROWED 0 = 1 := by
    rw [← chosen, if_pos (level.mpr open')]
    exact State.get_put_self ..
  have rest : v = { u with flds := v.flds } := by
    rw [← chosen]
    split <;> rfl
  rw [chosen]
  obtain ⟨m, rfl⟩ : ∃ m, v = { u with flds := m } := ⟨_, rest⟩
  obtain ⟨k, rfl⟩ : ∃ k, u = { s with flds := k } := ⟨_, frame⟩
  have stopped {f : Fld} (other : f.ord % 512 ≠ HMR_TIDE_STATUS_RUNNING.ord % 512) :
      State.get (State.put { s with flds := m } HMR_TIDE_STATUS_RUNNING 0 0) f 0 = State.get { s with flds := m } f 0 := State.get_put_other other ..
  refine ⟨rfl, (stopped (by decide)).trans ((get (by decide)).trans pending), State.get_put_self .., (stopped (by decide)).trans ((get (by decide)).trans counted),
    ?_, rfl, (stopped (by decide)).trans ((get (by decide)).trans tide), fun open' => (stopped (by decide)).trans (narrowed open'), rfl⟩
  unfold State.flag
  rw [Bool.eq_iff_iff]
  simp

/-! ### Trips (R586 to R588) -/

theorem tripped_frame (s : State) (f : Option Fld) (code : Nat) :
    s.tripped f code = { s with flds := (s.tripped f code).flds, out := s.out ++ [.pldmEvent 1 code] } := by
  unfold State.tripped
  dsimp only
  rw [send_of_passed rfl]
  cases f <;> rfl

theorem tripped_spec (s : State) (f : Fld) (code : Nat) (trip : f.ord % 512 ≠ LHS_TRIPS_LAST.ord % 512) : let t := s.tripped (some f) code
    t.get f 0 = min (s.get f 0 + 1) (2 ^ f.width - 1) ∧ t.get LHS_TRIPS_LAST 0 = code % 256 ∧
    ∀ g : Fld, g.ord % 512 ≠ f.ord % 512 → g.ord % 512 ≠ LHS_TRIPS_LAST.ord % 512 → ∀ i, t.get g i = s.get g i := by
  unfold State.tripped
  dsimp only
  rw [send_of_passed rfl]
  exact ⟨(State.get_put_other trip ..).trans (State.get_inc_self ..), State.get_put_self ..,
    fun g other last i => (State.get_put_other last ..).trans (State.get_inc_other other ..)⟩

/-- A power-fail stop after a trip: the trip stands in the lighthouse, and everything that the rails held is lost. -/
theorem powerFail_trip (s : State) {f : Fld} (listed : f ∈ lighthouseFlds) (trip : f.ord % 512 ≠ LHS_TRIPS_LAST.ord % 512)
    (clock : LHS_RTC_COUNT.ord % 512 ≠ f.ord % 512) (code : Nat) : let t := (s.tripped (some f) code).powerFail
    Cleared s t [] ∧ t.power.mode = .off ∧ t.get LHS_TRIPS_LAST 0 = code % 256 ∧ t.get f 0 = min (s.get f 0 + 1) (2 ^ f.width - 1) ∧
    Msg.pldmEvent 1 code ∈ t.out ∧ ∀ q, q < 16 → (s.quay q).st ≠ .down → Msg.dark q ∈ t.out := by
  obtain ⟨count, last, get⟩ := tripped_spec s f code trip
  have frame := tripped_frame s (some f) code
  unfold State.powerFail
  generalize s.tripped (some f) code = u at count last get frame
  have dark : u.sendAll (((List.range 16).filter fun q => (u.quay q).st != .down).map fun q => Msg.dark q) = { s with
      flds := u.flds, out := (s.out ++ [.pldmEvent 1 code]) ++ ((List.range 16).filter fun q => (s.quay q).st != .down).map fun q => Msg.dark q } := by
    rw [frame]; rfl
  refine ⟨?_, rfl, (get_railsOff (by simp [lighthouseFlds]) _).trans last, (get_railsOff listed _).trans count, ?_, fun q low up => ?_⟩
  · rw [dark]
    exact cleared_since (cleared_railsOff _) (get _ clock (by decide) 0) rfl rfl rfl rfl rfl rfl rfl
  · rw [dark]
    exact List.mem_append_left _ List.mem_concat_self
  · rw [dark]
    exact List.mem_append_right _ (List.mem_map.mpr ⟨q, List.mem_filter.mpr ⟨List.mem_range.mpr low, (bne_iff_ne ..).mpr up⟩, rfl⟩)

/-- What a wake from Banked writes first. -/
def wakeFlds (cause : Nat) : List (Fld × Nat × Nat) :=
  [(HMR_POWER_STATUS_WAKE_CAUSE, 0, cause), (HMR_POWER_STATUS_QUAYS_WARM, 0, 0), (CUS_DEBUG_STATUS_NARROWED, 0, 0)]

theorem wakeFor_spec {s : State} {c : Nat} (mode : s.power.mode = .banked) (safe : s.power.tamperLatch = false) (low : c < 256) : let t := s.wakeFor c
    t.power.mode = .run ∧ t.power.warming = true ∧ t.power.mirrors = [] ∧ t.get HMR_POWER_STATUS_WAKE_CAUSE 0 = c ∧
    t.get HMR_POWER_STATUS_QUAYS_WARM 0 = 0 ∧ t.get CUS_DEBUG_STATUS_NARROWED 0 = 0 ∧ t.tide = s.tide ∧
    t.get HMR_TIDE_STATUS_RUNNING 0 = (if s.power.tideResumes then 1 else s.get HMR_TIDE_STATUS_RUNNING 0) ∧ t.cus = { s.cus with nonce := none } ∧
    t = { s with flds := t.flds, cus := t.cus, power := t.power } := by
  have woken : s.wakeFor c = { (if s.power.tideResumes then (s.puts (wakeFlds c)).put HMR_TIDE_STATUS_RUNNING 0 1 else s.puts (wakeFlds c)) with
      power := { s.power with mode := .run, tideResumes := false, mirrors := [], warming := true }, cus := { s.cus with nonce := none } } :=
    if_pos (by rw [mode, safe]; rfl)
  have cause : (s.puts (wakeFlds c)).get HMR_POWER_STATUS_WAKE_CAUSE 0 = c :=
    (get_puts_last (l := []) (by simp only [List.forall_mem_cons]; decide) s).trans (Nat.mod_eq_of_lt low)
  have warm : (s.puts (wakeFlds c)).get HMR_POWER_STATUS_QUAYS_WARM 0 = 0 := get_puts_last (l := [_]) (by simp only [List.forall_mem_cons]; decide) s
  have narrowed : (s.puts (wakeFlds c)).get CUS_DEBUG_STATUS_NARROWED 0 = 0 := get_puts_last (l := [_, _]) (by simp) s
  have tide : (s.puts (wakeFlds c)).get HMR_TIDE_COUNT_TIDE 0 = s.get HMR_TIDE_COUNT_TIDE 0 :=
    get_puts_other (by simp only [wakeFlds, List.forall_mem_cons]; decide) s 0
  have running : (s.puts (wakeFlds c)).get HMR_TIDE_STATUS_RUNNING 0 = s.get HMR_TIDE_STATUS_RUNNING 0 :=
    get_puts_other (by simp only [wakeFlds, List.forall_mem_cons]; decide) s 0
  have frame := puts_frame s (wakeFlds c)
  rw [woken]
  generalize s.puts (wakeFlds c) = u at cause warm narrowed tide running frame
  obtain ⟨l, rfl⟩ : ∃ l, u = { s with flds := l } := ⟨_, frame⟩
  have other {f : Fld} (ne : f.ord % 512 ≠ HMR_TIDE_STATUS_RUNNING.ord % 512) :
      State.get (State.put { s with flds := l } HMR_TIDE_STATUS_RUNNING 0 1) f 0 = State.get { s with flds := l } f 0 := State.get_put_other ne ..
  by_cases resumes : s.power.tideResumes = true
  · rw [if_pos resumes, if_pos resumes]
    exact ⟨rfl, rfl, rfl, (other (by decide)).trans cause, (other (by decide)).trans warm, (other (by decide)).trans narrowed, (other (by decide)).trans tide,
      State.get_put_self .., rfl, rfl⟩
  · rw [if_neg resumes, if_neg resumes]
    exact ⟨rfl, rfl, rfl, cause, warm, narrowed, tide, running, rfl, rfl⟩

/-- The clock is forced to its lowest step while the logic runs. -/
theorem hotStep_spec (s : State) : let t := if s.power.mode == .run then s.setStep 3 else s
    t = { s with flds := t.flds, cus := t.cus } ∧ (s.power.mode = .run → t.get HMR_POWER_STATUS_STEP 0 = 3) ∧
    (s.power.mode = .run → s.get HMR_POWER_STATUS_STEP 0 = 0 → t.cus.nonce = none) ∧
    ∀ f : Fld, f.ord % 512 ≠ HMR_POWER_STATUS_STEP.ord % 512 → ∀ i, t.get f i = s.get f i := by
  by_cases mode : s.power.mode = .run
  · rw [if_pos (show (s.power.mode == .run) = true by rw [mode]; rfl)]
    unfold State.setStep
    dsimp only
    by_cases full : s.get HMR_POWER_STATUS_STEP 0 = 0
    · rw [if_pos (by rw [full]; rfl)]
      exact ⟨rfl, fun _ => State.get_put_self .., fun _ _ => rfl, fun f other i => State.get_put_other other ..⟩
    · rw [if_neg (by simp [full])]
      exact ⟨rfl, fun _ => State.get_put_self .., fun _ h => absurd h full, fun f other i => State.get_put_other other ..⟩
  · rw [if_neg (show ¬ (s.power.mode == .run) = true by simpa using mode)]
    exact ⟨rfl, fun h => absurd h mode, fun h => absurd h mode, fun _ _ _ => rfl⟩

/-- What a tamper trip leaves alone before it enters Smoulder: the fuses, the pilot, power, burns, host memory and the queue. -/
def State.tamperView (s : State) : State :=
  { flds := [], power := s.power, pilot := s.pilot, dock := s.dock, host := s.host, pending := s.pending, cus := { s.cus.kept with
    drawn := 0, revoked := [] } }

theorem tamper_spec (s : State) : let t := s.zeroiseAll.debugClose.tripped none 0x30
    t.tamperView = s.tamperView ∧ t.get LHS_TRIPS_LAST 0 = 0x30 ∧ t.get LHS_RTC_COUNT 0 = s.get LHS_RTC_COUNT 0 := by
  have only := unkeyed_only s
  have zeroised : s.zeroiseAll = { s.unkeyed with cus := { s.cus.zeroised with identity := false, drbg := false, spdm := [], nonce := none } } := by
    unfold State.zeroiseAll
    rw [zeroiseKeys_eq]
  obtain ⟨-, -, keeps, frame⟩ := debugClose_spec s.zeroiseAll
  have clock : s.zeroiseAll.debugClose.get LHS_RTC_COUNT 0 = s.get LHS_RTC_COUNT 0 := by
    refine (keeps LHS_RTC_COUNT 0 (by decide)).trans ?_
    rw [zeroised]
    exact only.get LHS_RTC_COUNT (by decide) 0
  have view : s.zeroiseAll.debugClose.tamperView = s.tamperView := by
    rw [frame, zeroised]
    exact (congrArg (fun u : State => ({ u with cus := s.cus.zeroised } : State).tamperView) only.rest :)
  generalize s.zeroiseAll.debugClose = u at clock view
  refine ⟨?_, ?_, ?_⟩
  · rw [tripped_frame]
    exact view
  · unfold State.tripped
    dsimp only
    rw [send_of_passed rfl]
    exact State.get_put_self ..
  · unfold State.tripped
    dsimp only
    rw [send_of_passed rfl]
    exact (State.get_put_other (by decide) ..).trans clock

/-- What a stop into Smoulder after a trip leaves. -/
theorem enterSmoulder_spec (s : State) : let t := s.enterSmoulder
    Cleared s t [] ∧ t.power = { s.power.kept with mode := .smoulder } ∧ ∀ f ∈ lighthouseFlds, t.get f 0 = s.get f 0 :=
  ⟨cleared_cleared s, rfl, fun _ listed => get_cleared listed s⟩

end Sys2Proof.Machine
end

section
/-! Settling O57. -/

namespace Sys2Proof.Safety

open Sys2Proof.Machine

/-- Settles O57: each entry, wake and trip by what it counts, keeps and loses. -/
theorem powerStatesAndTrips : Obligations.PowerStatesAndTrips := by
  unfold Obligations.PowerStatesAndTrips
  refine ⟨?entry, ?wake, ?smoulder, ?warm, ?trips, fun s k => ⟨rfl, rfl⟩, ?release⟩
  case entry =>
    intro s up
    obtain ⟨mode, started⟩ := id up
    have host (f : State → State) : s.hostDo f = f s := hostDo_of_HostUp up f
    have awake : s.wakeFor 0x01 = s := if_neg (by rw [mode]; exact Bool.false_ne_true)
    have may (v : Nat) : ((s.put HMR_POWER_CTL_STATE_REQ 0 v).put HMR_POWER_STATUS_PENDING 0 1).mayEnter = s.mayEnter := by
      have pod : ((s.put HMR_POWER_CTL_STATE_REQ 0 v).put HMR_POWER_STATUS_PENDING 0 1).flag QUY_POD_CTL_IN_POD 0 = s.flag QUY_POD_CTL_IN_POD 0 :=
        congrArg (· != 0) ((State.get_put_other (by decide) ..).trans (State.get_put_other (by decide) ..))
      unfold State.mayEnter
      rw [pod]
      rfl
    have waits (v : Nat) (busy : s.mayEnter = false) : ((s.put HMR_POWER_CTL_STATE_REQ 0 v).put HMR_POWER_STATUS_PENDING 0 1).tryEntry =
        (s.put HMR_POWER_CTL_STATE_REQ 0 v).put HMR_POWER_STATUS_PENDING 0 1 := if_neg (by rw [may, busy, Bool.and_false]; exact Bool.false_ne_true)
    have enters {t : State} (mode : t.power.mode = .run) (pending : t.get HMR_POWER_STATUS_PENDING 0 ≠ 0) (quiet : t.mayEnter = true) :
        t.tryEntry = if t.get HMR_POWER_CTL_STATE_REQ 0 == 1 then t.enterBanked else if t.get HMR_POWER_CTL_STATE_REQ 0 == 2 then t.enterSmoulder else t :=
      if_pos (by simp [mode, State.flag, pending, quiet])
    have asked (v : Nat) : ((s.put HMR_POWER_CTL_STATE_REQ 0 v).put HMR_POWER_STATUS_PENDING 0 1).get HMR_POWER_CTL_STATE_REQ 0 = v % 4 :=
      (State.get_put_other (by decide) ..).trans (State.get_put_self ..)
    have pends (v : Nat) : ((s.put HMR_POWER_CTL_STATE_REQ 0 v).put HMR_POWER_STATUS_PENDING 0 1).get HMR_POWER_STATUS_PENDING 0 ≠ 0 := by
      rw [State.get_put_self]; decide
    have banked : exec .stateReqBanked s = .next ((s.put HMR_POWER_CTL_STATE_REQ 0 1).put HMR_POWER_STATUS_PENDING 0 1).tryEntry :=
      congrArg Host.Outcome.next (host _)
    have smoulder : exec .stateReqSmoulder s = .next ((s.put HMR_POWER_CTL_STATE_REQ 0 2).put HMR_POWER_STATUS_PENDING 0 1).tryEntry :=
      congrArg Host.Outcome.next (host _)
    refine ⟨?_, fun r low => (if_pos low).trans (congrArg Host.Outcome.next (host _)), fun busy => ⟨banked.trans (congrArg _ (waits 1 busy)),
      smoulder.trans (congrArg _ (waits 2 busy)), congrArg Host.Outcome.next (if_neg (by rw [busy, Bool.and_false]; exact Bool.false_ne_true))⟩,
      fun quiet => ⟨_, smoulder, ?_⟩, fun i is quiet => ?_⟩
    · change Host.Outcome.next ((s.wakeFor 0x01).hostDo _) = _
      rw [awake, host]; rfl
    · rw [enters (t := (s.put HMR_POWER_CTL_STATE_REQ 0 2).put HMR_POWER_STATUS_PENDING 0 1) mode (pends 2) ((may 2).trans quiet), asked 2, if_neg (by decide), if_pos (by decide)]
      obtain ⟨lost, power, -⟩ := enterSmoulder_spec ((s.put HMR_POWER_CTL_STATE_REQ 0 2).put HMR_POWER_STATUS_PENDING 0 1)
      exact ⟨cleared_since lost ((State.get_put_other (by decide) ..).trans (State.get_put_other (by decide) ..)) rfl rfl rfl rfl rfl rfl rfl, by rw [power]⟩
    · rcases is with rfl | ⟨rfl, pending, request⟩
      · refine ⟨_, banked, ?_⟩
        rw [enters (t := (s.put HMR_POWER_CTL_STATE_REQ 0 1).put HMR_POWER_STATUS_PENDING 0 1) mode (pends 1) ((may 1).trans quiet), asked 1, if_pos (by decide)]
        have get {f : Fld} (request : f.ord % 512 ≠ HMR_POWER_CTL_STATE_REQ.ord % 512) (pending : f.ord % 512 ≠ HMR_POWER_STATUS_PENDING.ord % 512) :
            ((s.put HMR_POWER_CTL_STATE_REQ 0 1).put HMR_POWER_STATUS_PENDING 0 1).get f 0 = s.get f 0 :=
          (State.get_put_other pending ..).trans (State.get_put_other request ..)
        have spec := enterBanked_spec ((s.put HMR_POWER_CTL_STATE_REQ 0 1).put HMR_POWER_STATUS_PENDING 0 1)
        unfold State.tide at *
        dsimp only at spec
        rw [get (by decide) (by decide), get (by decide) (by decide), get (by decide) (by decide), get (by decide) (by decide)] at spec
        exact spec
      · have enters : exec .lowPowerEntry s = .next s.enterBanked := by
          refine congrArg Host.Outcome.next ((enters mode pending quiet).trans ?_)
          rw [request, if_pos (by decide)]
        exact ⟨_, enters, enterBanked_spec s⟩
  case wake =>
    intro s c mode safe low high
    have run : exec (.wake c) s = .next (s.wakeFor c) :=
      (if_neg (by rw [mode]; exact Bool.false_ne_true)).trans (if_pos (by simp [low, high]))
    exact ⟨_, run, wakeFor_spec mode safe (by omega)⟩
  case smoulder =>
    intro s c mode low high
    have run : exec (.wake c) s = .next (s.wakeSmoulder c) := (if_pos (by rw [mode]; rfl)).trans (if_pos (by simp [low, high]))
    refine ⟨fun safe cool => ?_, fun held => run.trans (congrArg _ (if_neg ?_))⟩
    · have wakes : s.wakeSmoulder c = (s.cleared.startFrom 2 false).put HMR_POWER_STATUS_WAKE_CAUSE 0 c := if_pos (by simp [mode, safe, cool])
      obtain ⟨step, failed, -, -, -⟩ := startFrom_spec s.cleared 2 false
      refine ⟨_, run.trans (congrArg _ wakes), cleared_put (cleared_mono (cleared_startFrom (cleared_cleared s) 2 false) (List.nil_subset _)) (by simp) (by decide) c, rfl,
        (State.get_put_other (by decide) ..).trans step, (State.get_put_other (by decide) ..).trans failed,
        (State.get_put_self ..).trans (Nat.mod_eq_of_lt (show c < 256 by omega))⟩
    · rcases held with tamper | hot
      · simp [tamper]
      · simp [hot]
  case warm =>
    intro s mode warming
    have run : exec .quaysWarm s = .next ({ s with power := { s.power with warming := false } }.put HMR_POWER_STATUS_QUAYS_WARM 0 1).askJoin :=
      if_pos (by simp [mode, warming])
    refine ⟨_, run, ?_⟩
    generalize warm : ({ s with power := { s.power with warming := false } } : State).put HMR_POWER_STATUS_QUAYS_WARM 0 1 = u
    have frame := askJoin_frame u
    refine ⟨?_, ?_, fun f i other => ?_, ?_, ?_, fun joining fresh ready => ?_⟩
    · rw [frame, ← warm]; rfl
    · rw [State.get_of_flds (s := u) (by rw [frame]), ← warm]
      exact State.get_put_self ..
    · rw [State.get_of_flds (s := u) (by rw [frame]), ← warm]
      exact State.get_put_ne _ _ (by simpa using other)
    · rw [frame, ← warm]; rfl
    · rw [frame, ← warm]; rfl
    · rw [quaysReady_askJoin] at ready
      refine (askJoin_asks ?_ ?_ ready).1
      · rw [← warm]; exact joining
      · rw [← warm]; exact fresh
  case trips =>
    intro s powered down
    refine ⟨fun fresh => ?_, fun fresh => ?_, fun k low fresh => ?_, fun k low fresh on => ?_, fun on => ?_⟩
    · have run : exec .underVoltageTrip s = .next _ := if_pos (by simp [powered, fresh])
      obtain ⟨lost, mode, last, count, told, dark⟩ := powerFail_trip s (f := LHS_TRIPS_UV) (by simp [lighthouseFlds]) (by decide) (by decide) 1
      exact ⟨_, run, ⟨lost, mode, last, told, dark⟩, rfl, count⟩
    · have run : exec .overVoltageTrip s = .next _ := if_pos (by simp [powered, fresh])
      obtain ⟨lost, mode, last, count, told, dark⟩ := powerFail_trip s (f := LHS_TRIPS_OV) (by simp [lighthouseFlds]) (by decide) (by decide) 2
      exact ⟨_, run, ⟨lost, mode, last, told, dark⟩, rfl, rfl, count⟩
    · have run : exec (.hotTrip k) s = .next _ := if_pos (by simp [powered, low, fresh])
      refine ⟨_, run, ?_⟩
      obtain ⟨count, last, get⟩ := tripped_spec s LHS_TRIPS_HOT (0x10 + k) (by decide)
      have frame := tripped_frame s (some LHS_TRIPS_HOT) (0x10 + k)
      have step := get HMR_POWER_STATUS_STEP (by decide) (by decide) 0
      generalize s.tripped (some LHS_TRIPS_HOT) (0x10 + k) = u at count last step frame
      obtain ⟨l, rfl⟩ : ∃ l, u = { s with flds := l, out := s.out ++ [.pldmEvent 1 (0x10 + k)] } := ⟨_, frame⟩
      replace last := last.trans (Nat.mod_eq_of_lt (show 0x10 + k < 256 by omega))
      have forced := hotStep_spec { s with
        flds := l, out := s.out ++ [.pldmEvent 1 (0x10 + k)], power := { s.power with hot := k :: s.power.hot, forced := true } }
      obtain ⟨frame, three, nonce, get⟩ := forced
      refine ⟨?_, (get _ (by decide) 0).trans count, (get _ (by decide) 0).trans last, ?_, fun mode => ⟨three mode, fun full => nonce mode (step.trans full)⟩, ?_, ?_⟩
      all_goals exact (congrArg _ frame :).trans rfl
    · have run : exec (.shutdownTrip k) s = .next _ := if_pos (by simp [powered, low, fresh])
      refine ⟨_, run, ?_⟩
      obtain ⟨count, last, get⟩ := tripped_spec s LHS_TRIPS_SHUTDOWN (0x20 + k) (by decide)
      have frame := tripped_frame s (some LHS_TRIPS_SHUTDOWN) (0x20 + k)
      have clock := get LHS_RTC_COUNT (by decide) (by decide) 0
      generalize s.tripped (some LHS_TRIPS_SHUTDOWN) (0x20 + k) = u at count last clock frame
      obtain ⟨l, rfl⟩ : ∃ l, u = { s with flds := l, out := s.out ++ [.pldmEvent 1 (0x20 + k)] } := ⟨_, frame⟩
      obtain ⟨lost, power, kept⟩ := enterSmoulder_spec { s with
        flds := l, out := s.out ++ [.pldmEvent 1 (0x20 + k)], power := { s.power with shut := k :: s.power.shut } }
      rw [if_pos (show State.powered { s with
        flds := l, out := s.out ++ [.pldmEvent 1 (0x20 + k)], power := { s.power with shut := k :: s.power.shut } } = true from on)]
      exact ⟨cleared_since lost clock rfl rfl rfl rfl rfl rfl rfl, by rw [power], by rw [power]; rfl, (kept _ (by simp [lighthouseFlds])).trans count,
        ((kept _ (by simp [lighthouseFlds])).trans last).trans (Nat.mod_eq_of_lt (show 0x20 + k < 256 by omega))⟩
    · have run : exec .tamperTrip s = .next _ := if_pos powered
      refine ⟨_, run, ?_⟩
      rw [if_pos on]
      obtain ⟨frame, last, clock⟩ := tamper_spec s
      generalize s.zeroiseAll.debugClose.tripped none 0x30 = u at frame last clock
      have kept {α : Type} (f : State → α) : f u.tamperView = f s.tamperView := congrArg f frame
      have power : u.power = s.power := kept State.power
      rw [if_pos (show State.powered { u with
        cus := { u.cus with tamper := min 15 (u.cus.tamper + 1) }, power := { u.power with tamperLatch := true } } = true by
          unfold State.powered at on ⊢; dsimp only; rw [power]; exact on)]
      obtain ⟨lost, mode, lights⟩ := enterSmoulder_spec { u with
        cus := { u.cus with tamper := min 15 (u.cus.tamper + 1) }, power := { u.power with tamperLatch := true } }
      refine ⟨cleared_since lost clock (kept fun v => v.cus.lifecycle) (kept fun v => v.cus.counters) (kept fun v => v.cus.ownerHash) (kept State.pilot)
        (kept fun v => v.dock.burned) (kept State.host) (kept State.pending), by rw [mode], by rw [mode]; rfl, ?_, (lights _ (by simp [lighthouseFlds])).trans last⟩
      exact congrArg (fun n => min 15 (n + 1)) (kept fun v => v.cus.tamper)
  case release =>
    intro s mode enabled
    have run : exec .inputRelease s = .next s.coldPower := if_pos (by simp [mode, enabled])
    obtain ⟨step, -, -, cold, -⟩ := startFrom_spec s.railsOff 1 true
    exact ⟨_, run, cleared_startFrom (cleared_railsOff s) 1 true, rfl, rfl, rfl, rfl, rfl, step, cold⟩

end Sys2Proof.Safety
end


section
/-! SUPPORT. Device resets, the module enable, and transitions of the lifecycle. -/

namespace Sys2Proof.Machine

open Sys2Proof.Safety Sys2Proof.Laws

/-- What start-up from its second step finds after a device reset. -/
theorem reset_spec (s : State) : let t := s.cleared.startFrom 2 false
    Cleared s t [] ∧ t.power.mode = .run ∧ t.get LHS_START_STEP 0 = 2 ∧ t.get LHS_START_FAILED 0 = 0 ∧ t.get LHS_START_CAUSE 0 = 0 ∧
    t.get LHS_START_COLD 0 = 0 ∧ t.get LHS_TRIPS_UV 0 = s.get LHS_TRIPS_UV 0 ∧ t.out = s.out := by
  obtain ⟨step, failed, cause, cold, get⟩ := startFrom_spec s.cleared 2 false
  exact ⟨cleared_startFrom (cleared_cleared s) 2 false, rfl, step, failed, cause, cold,
    (get _ (by decide) 0).trans (get_cleared (by simp [lighthouseFlds]) s), rfl⟩

theorem deviceReset_free {s : State} (free : s.dock.burn = none) : s.deviceReset = s.cleared.startFrom 2 false := if_neg (by rw [free]; exact Bool.false_ne_true)

/-- What was sent stands after a zeroisation. -/
theorem mem_out_zeroiseAll {s : State} {m : Msg} (sent : m ∈ s.out) : m ∈ s.zeroiseAll.out := by
  obtain ⟨-, before⟩ := cl_zeroiseAll (extends_closed s.pending s.out) s ⟨rfl, List.prefix_rfl⟩
  exact before.subset sent

theorem transit_spec {s : State} {target h : Nat} {m : Msg} (free : s.dock.burn = none) (sent : m ∈ s.out) : let t := s.transit target h
    t.cus.lifecycle = target ∧
    t.cus.ownerHash = (if target = lcProvisioned then some h else if target = lcReturned then some allOnesHash else s.cus.ownerHash) ∧
    t.get LHS_START_STEP 0 = 2 ∧ t.cus.identity = false ∧ t.mem = [] ∧ t.jobs = [] ∧ m ∈ t.out := by
  generalize wiped : (if target == lcReturned then s.zeroiseAll else s) = u
  obtain ⟨owner, burn, out⟩ : u.cus.ownerHash = s.cus.ownerHash ∧ u.dock.burn = none ∧ m ∈ u.out := by
    rw [← wiped]
    split
    · have only := unkeyed_only s
      refine ⟨?_, ?_, mem_out_zeroiseAll sent⟩
      · unfold State.zeroiseAll; rw [zeroiseKeys_eq]; rfl
      · unfold State.zeroiseAll; rw [zeroiseKeys_eq]
        exact (congrArg (fun v : State => v.dock.burn) only.rest :).trans free
    · exact ⟨rfl, free, sent⟩
  have burns : s.transit target h = State.deviceReset { u with cus := {
      u.cus with lifecycle := target, ownerHash := if target == lcProvisioned then some h else if target == lcReturned then some allOnesHash else u.cus.ownerHash } } := by
    unfold State.transit
    rw [wiped]
  rw [burns]
  generalize word : (if target == lcProvisioned then some h else if target == lcReturned then some allOnesHash else u.cus.ownerHash) = w
  rw [deviceReset_free (s := { u with cus := { u.cus with lifecycle := target, ownerHash := w } }) burn]
  obtain ⟨-, -, step, -, -, -, -, -⟩ := reset_spec { u with cus := { u.cus with lifecycle := target, ownerHash := w } }
  refine ⟨rfl, ?_, step, rfl, rfl, rfl, out⟩
  rw [owner] at word
  simp only [beq_iff_eq] at word
  exact word.symm

end Sys2Proof.Machine
end

section
/-! Settling O58. -/

namespace Sys2Proof.Safety

open Sys2Proof.Machine

/-- Settles O58: resets, burns, power of the module and transitions by what they lose and keep. -/
theorem resetsModuleAndLifecycle : Obligations.ResetsModuleAndLifecycle := by
  unfold Obligations.ResetsModuleAndLifecycle
  refine ⟨?reset, ?burn, ?pod, ?off, fun s enabled burning => ?waits, ?rise, ?lifecycle⟩
  case reset =>
    intro s i on is
    have run : exec i s = .next s.deviceReset := by rcases is with rfl | rfl <;> exact if_pos on
    exact ⟨fun free => ⟨_, run.trans (congrArg _ (deviceReset_free free)), reset_spec s⟩, fun burning => run.trans (congrArg _ (if_pos burning))⟩
  case burn =>
    intro s r burning stays
    have run : exec .repairBurnDone s =
        .next (({ s with dock := { s.dock with burned := s.dock.burned ++ [r], burn := none } }.put DDK_REPAIR_BUSY 0 0).repairResult 1).afterBurn := by
      change execRepairBurnDone s = _
      unfold execRepairBurnDone
      rw [burning]
    generalize ends : (({ s with dock := { s.dock with burned := s.dock.burned ++ [r], burn := none } } : State).put DDK_REPAIR_BUSY 0 0).repairResult 1 = u at run
    have power : u.power.offWaits = false := by rw [← ends]; exact stays
    have pilot : u.pilot.resetWaits = s.pilot.resetWaits := by rw [← ends]; rfl
    have stays : ¬ u.power.offWaits = true := by rw [power]; exact Bool.false_ne_true
    refine ⟨fun quiet => ⟨_, run, ?_⟩, fun waits => ⟨_, run, ?_⟩⟩
    · have after : u.afterBurn = u := (if_neg stays).trans (if_neg (by rw [pilot, quiet]; exact Bool.false_ne_true))
      rw [after, ← ends]
      refine ⟨rfl, ?_, ?_, State.get_put_self .., ?_, rfl⟩
      · exact (State.get_put_other (by decide) ..).trans ((State.get_put_other (by decide) ..).trans (State.get_put_self ..))
      · exact (State.get_put_other (by decide) ..).trans (State.get_put_self ..)
      · exact keepsFieldsBut_put_listed (keepsFieldsBut_put_listed (keepsFieldsBut_put_listed (keepsFieldsBut_same rfl _) (by simp) _) (by simp) _) (by simp) _
    · have after : u.afterBurn = u.cleared.startFrom 2 false := (if_neg stays).trans (if_pos (pilot.trans waits))
      obtain ⟨lost, mode, step, -⟩ := reset_spec u
      rw [after]
      refine ⟨cleared_since lost ?_ ?_ ?_ ?_ ?_ ?_ ?_ ?_, step, mode⟩
      · rw [← ends]
        exact (State.get_put_other (by decide) ..).trans ((State.get_put_other (by decide) ..).trans (State.get_put_other (by decide) ..))
      all_goals rw [← ends]; rfl
  case pod =>
    intro s up
    have run : exec .resetPod s = .next s.resetPod := congrArg Host.Outcome.next (hostDo_of_HostUp up _)
    refine ⟨fun member master free => ?_, fun other => run.trans (congrArg _ (if_neg ?_))⟩
    · have resets : s.resetPod = (s.send (.broadcast .podReset)).deviceReset := if_pos (by rw [member, master]; rfl)
      rw [send_broadcast] at resets
      replace resets := resets.trans (deviceReset_free free)
      obtain ⟨lost, -, step, -, -, -, -, out⟩ := reset_spec { s with out := s.out ++ [.broadcast .podReset] }
      exact ⟨_, run.trans (congrArg _ resets), lost, step, out⟩
    · rcases other with outside | other
      · rw [outside]; exact Bool.false_ne_true
      · rw [other, Bool.and_false]; exact Bool.false_ne_true
  case off =>
    intro s i is
    rcases is with rfl | ⟨rfl, enabled, free⟩
    · exact ⟨s.lighthouseOff, rfl, rfl, rfl, rfl, rfl, rfl, rfl, rfl, rfl, rfl, rfl, (pilot_kept s.pilot).1, rfl⟩
    · have run : exec .modEnRelease s = .next ({ s with power := { s.power with modEn := false } } : State).lighthouseOff :=
        (if_neg (by simp [enabled])).trans (if_neg (by rw [free]; exact Bool.false_ne_true))
      exact ⟨_, run, rfl, rfl, rfl, rfl, rfl, rfl, rfl, rfl, rfl, rfl, (pilot_kept s.pilot).1, rfl⟩
  case waits => exact (if_neg (by simp [enabled])).trans (if_pos burning)
  case rise =>
    intro s off
    refine ⟨fun now => ?_, fun waits => (if_neg (by simp [off])).trans (if_pos waits)⟩
    have run : exec .modEnRise s = .next { s.coldPower with power := { s.coldPower.power with modEn := true } } :=
      (if_neg (by simp [off])).trans (if_neg (by simp [now]))
    obtain ⟨step, -, -, cold, -⟩ := startFrom_spec s.railsOff 1 true
    exact ⟨_, run, cleared_startFrom (cleared_railsOff s) 1 true, rfl, rfl, rfl, step, cold⟩
  case lifecycle =>
    intro s n target signer h y ok here on works notBlank may
    have run : exec (.lifecycleTransition n target signer h ok) s = .next (if s.mayTransit target signer ok then
        (s.send (.spdm y.transport 0x7E [0])).transit target h else s.send (.spdm y.transport 0x7E [1])) := by
      change execLifecycleTransition n target signer h ok s = _
      unfold execLifecycleTransition
      dsimp only
      rw [if_neg (show ¬ (s.cus.lifecycle == lcBlank) = true by simpa using notBlank), here]
      refine (if_neg (by simp [on, State.flag, works])).trans ?_
      split <;> rfl
    have allowed : s.mayTransit target signer ok = true ↔ may := by
      unfold State.mayTransit State.flag
      simp [may, and_assoc]
    refine ⟨fun no => run.trans (congrArg _ (if_neg (mt allowed.mp no))), fun yes free => ?_⟩
    replace run := run.trans (congrArg Host.Outcome.next (if_pos (allowed.mpr yes)))
    rw [send_spdm] at run
    generalize answered : ({ s with out := s.out ++ [.spdm y.transport 0x7E [0]] } : State) = u at run
    obtain ⟨free, sent, owner⟩ : u.dock.burn = none ∧ Msg.spdm y.transport 0x7E [0] ∈ u.out ∧ u.cus.ownerHash = s.cus.ownerHash := by
      rw [← answered]
      exact ⟨free, List.mem_concat_self, rfl⟩
    obtain ⟨lifecycle, hash, step, identity, mem, jobs, out⟩ := transit_spec (target := target) (h := h) free sent
    exact ⟨_, run, lifecycle, by rw [hash, owner], step, identity, mem, jobs, out⟩

end Sys2Proof.Safety
end


section
/-! SUPPORT. The pilot: a management tick step by step, images of module flash, and the end of a hold of the pod's tide. -/

namespace Sys2Proof.Machine

open Sys2Proof.Safety

/-! ### The lighthouse at a tick (R583 to R585) -/

/-- What the lighthouse senses at a tick. -/
def senseFlds (mv : Nat) (sites : List Nat) : List (Fld × Nat × Nat) :=
  [(LHS_SENSE_INPUT_MV, 0, mv), (LHS_SENSE_SITE0, 0, sites.getD 0 0), (LHS_SENSE_SITE1, 0, sites.getD 1 0), (LHS_SENSE_SITE2, 0, sites.getD 2 0),
    (LHS_SENSE_SITE3, 0, sites.getD 3 0)]

theorem senses_eq (s : State) (mv : Nat) (sites : List Nat) : s.senses mv sites = s.puts (senseFlds mv sites) := rfl

/-- The fields that the lighthouse writes at a tick. -/
def tickFlds : List Fld :=
  [LHS_RTC_COUNT, LHS_TIDE_SHADOW_TIDE, LHS_SENSE_INPUT_MV, LHS_SENSE_SITE0, LHS_SENSE_SITE1, LHS_SENSE_SITE2, LHS_SENSE_SITE3]

/-- The state after the lighthouse's part of a tick. -/
def State.ticked (s : State) (n mv : Nat) (sites : List Nat) : State := ((s.put LHS_RTC_COUNT 0 (s.rtc + n)).shadow).senses mv sites

theorem shadow_spec (s : State) : let t := s.shadow
    t = { s with flds := t.flds, pilot := { s.pilot with shadowTide := t.pilot.shadowTide, shadowAt := t.pilot.shadowAt } } ∧
    (∀ f : Fld, f.ord % 512 ≠ LHS_TIDE_SHADOW_TIDE.ord % 512 → ∀ i, t.get f i = s.get f i) ∧
    (s.get HMR_TIDE_STATUS_RUNNING 0 ≠ 0 → t.get LHS_TIDE_SHADOW_TIDE 0 = s.tide % 2 ^ 64 ∧ t.pilot.shadowTide = s.tide ∧ t.pilot.shadowAt = s.rtc) ∧
    (s.get HMR_TIDE_STATUS_RUNNING 0 = 0 → t.get LHS_TIDE_SHADOW_TIDE 0 =
      (s.pilot.shadowTide + (s.rtc - s.pilot.shadowAt) * 1000000000 / (32768 * max 1 s.periodNs)) % 2 ^ 64) := by
  unfold State.shadow State.flag
  by_cases runs : s.get HMR_TIDE_STATUS_RUNNING 0 = 0
  · rw [if_neg (by simp [runs])]
    exact ⟨rfl, fun f other i => State.get_put_other other .., fun h => absurd runs h, fun _ => State.get_put_self ..⟩
  · rw [if_pos (by simp [runs])]
    exact ⟨rfl, fun f other i => State.get_put_other other .., fun _ => ⟨State.get_put_self .., rfl, rfl⟩, fun h => absurd h runs⟩

theorem ticked_spec (s : State) (n mv : Nat) (sites : List Nat) : let t := s.ticked n mv sites
    let now := (s.get LHS_RTC_COUNT 0 + n) % 2 ^ 64
    t.get LHS_RTC_COUNT 0 = now ∧ t.get LHS_SENSE_INPUT_MV 0 = mv % 65536 ∧ t.get LHS_SENSE_SITE3 0 = sites.getD 3 0 % 256 ∧
    (s.get HMR_TIDE_STATUS_RUNNING 0 ≠ 0 → t.get LHS_TIDE_SHADOW_TIDE 0 = s.tide % 2 ^ 64 ∧ t.pilot.shadowTide = s.tide ∧ t.pilot.shadowAt = now) ∧
    (s.get HMR_TIDE_STATUS_RUNNING 0 = 0 → t.get LHS_TIDE_SHADOW_TIDE 0 =
      (s.pilot.shadowTide + (now - s.pilot.shadowAt) * 1000000000 / (32768 * max 1 s.periodNs)) % 2 ^ 64) ∧
    t = { s with flds := t.flds, pilot := { s.pilot with shadowTide := t.pilot.shadowTide, shadowAt := t.pilot.shadowAt } } ∧
    ∀ f : Fld, (∀ g ∈ tickFlds, f.ord % 512 ≠ g.ord % 512) → ∀ i, t.get f i = s.get f i := by
  have clock : (s.put LHS_RTC_COUNT 0 (s.rtc + n)).rtc = (s.get LHS_RTC_COUNT 0 + n) % 2 ^ 64 := State.get_put_self ..
  have other {f : Fld} (ne : f.ord % 512 ≠ LHS_RTC_COUNT.ord % 512) (i : Nat) : (s.put LHS_RTC_COUNT 0 (s.rtc + n)).get f i = s.get f i :=
    State.get_put_other ne ..
  have period : (s.put LHS_RTC_COUNT 0 (s.rtc + n)).periodNs = s.periodNs := congrArg (· * 62500) (other (by decide) 0)
  obtain ⟨frame, get, running, stopped⟩ := shadow_spec (s.put LHS_RTC_COUNT 0 (s.rtc + n))
  rw [clock, other (by decide)] at running stopped
  rw [period] at stopped
  rw [show (s.put LHS_RTC_COUNT 0 (s.rtc + n)).tide = s.tide from other (by decide) 0] at running
  unfold State.ticked
  rw [senses_eq]
  have rtc := (get LHS_RTC_COUNT (by decide) 0).trans clock
  have rest {f : Fld} (clock : f.ord % 512 ≠ LHS_RTC_COUNT.ord % 512) (shadow : f.ord % 512 ≠ LHS_TIDE_SHADOW_TIDE.ord % 512) (i : Nat) :
      (s.put LHS_RTC_COUNT 0 (s.rtc + n)).shadow.get f i = s.get f i := (get f shadow i).trans (other clock i)
  generalize (s.put LHS_RTC_COUNT 0 (s.rtc + n)).shadow = u at frame running stopped rtc rest
  have senses := puts_frame u (senseFlds mv sites)
  have sensed {f : Fld} (ne : ∀ p ∈ senseFlds mv sites, f.ord % 512 ≠ p.1.ord % 512) (i : Nat) : (u.puts (senseFlds mv sites)).get f i = u.get f i :=
    get_puts_other ne u i
  have volts : (u.puts (senseFlds mv sites)).get LHS_SENSE_INPUT_MV 0 = mv % 65536 := get_puts_last (l := []) (by simp only [List.forall_mem_cons]; decide) u
  have site : (u.puts (senseFlds mv sites)).get LHS_SENSE_SITE3 0 = sites.getD 3 0 % 256 := get_puts_last (l := [_, _, _, _]) (by simp) u
  have shadowed : (u.puts (senseFlds mv sites)).get LHS_TIDE_SHADOW_TIDE 0 = u.get LHS_TIDE_SHADOW_TIDE 0 :=
    sensed (by simp only [senseFlds, List.forall_mem_cons]; decide) 0
  have clocked : (u.puts (senseFlds mv sites)).get LHS_RTC_COUNT 0 = u.get LHS_RTC_COUNT 0 :=
    sensed (by simp only [senseFlds, List.forall_mem_cons]; decide) 0
  have kept (f : Fld) (ne : ∀ g ∈ tickFlds, f.ord % 512 ≠ g.ord % 512) (i : Nat) : (u.puts (senseFlds mv sites)).get f i = s.get f i := by
    simp only [tickFlds, List.forall_mem_cons] at ne
    obtain ⟨clock, shadow, mv', site0, site1, site2, site3, -⟩ := ne
    refine (sensed ?_ i).trans (rest clock shadow i)
    simp only [senseFlds, List.forall_mem_cons]
    exact ⟨mv', site0, site1, site2, site3, fun _ h => absurd h List.not_mem_nil⟩
  generalize u.puts (senseFlds mv sites) = v at senses volts site shadowed clocked kept
  obtain ⟨l, a, b, rfl⟩ : ∃ l a b, u = { s with flds := l, pilot := { s.pilot with shadowTide := a, shadowAt := b } } := ⟨_, _, _, frame⟩
  obtain ⟨m, rfl⟩ : ∃ m, v = { s with flds := m, pilot := { s.pilot with shadowTide := a, shadowAt := b } } := ⟨_, senses⟩
  exact ⟨clocked.trans rtc, volts, site, fun runs => ⟨shadowed.trans (running runs).1, (running runs).2⟩, fun stops => shadowed.trans (stopped stops), rfl, kept⟩

/-! ### The pilot's duties (R590, R593 to R597) -/

/-- Requests have been served: a cap may be set and a transfer begun, and what was sent stands. -/
structure Serves (s t : State) : Prop where
  rest : t = { s with flds := t.flds, pilot := { s.pilot with transfer := t.pilot.transfer }, out := t.out }
  get : ∀ f : Fld, f.ord % 512 ≠ PLT_CAP_CAP_W.ord % 512 → ∀ i, t.get f i = s.get f i
  out : s.out ⊆ t.out

theorem Serves.refl (s : State) : Serves s s := ⟨rfl, fun _ _ _ => rfl, List.Subset.refl _⟩

theorem Serves.trans {s t u : State} (first : Serves s t) (second : Serves t u) : Serves s u := by
  refine ⟨?_, fun f other i => (second.get f other i).trans (first.get f other i), List.Subset.trans first.out second.out⟩
  have rest := second.rest
  rw [first.rest] at rest
  exact rest

theorem serves_serve (s : State) (r : MctpRequest) : Serves s (s.serve r).1 := by
  unfold State.serve
  split
  · exact .refl s
  · exact .refl s
  · exact .refl s
  · split
    · exact ⟨rfl, fun f other i => State.get_put_other other .., List.Subset.refl _⟩
    · exact .refl s
  · split
    · exact ⟨rfl, fun _ _ _ => rfl, List.Subset.refl _⟩
    · exact .refl s
  · exact .refl s
  · exact .refl s

theorem serves_mctpDuty (s : State) : Serves { s with pilot := { s.pilot with requests := [] } } s.mctpDuty := by
  unfold State.mctpDuty
  dsimp only
  generalize ({ s with pilot := { s.pilot with requests := [] } } : State) = u
  induction s.pilot.requests generalizing u with
  | nil => exact .refl u
  | cons r rs ih =>
    refine Serves.trans ?_ (ih _)
    have one := serves_serve u r
    dsimp only
    split
    · rw [send_of_passed rfl]
      exact one.trans ⟨rfl, fun _ _ _ => rfl, List.subset_append_left ..⟩
    · exact one

theorem capLoop_le {rung : Nat} (low : rung ≤ 12) (relax cap power : Nat) (sites : List Nat) : (capLoop rung relax cap power sites).1 ≤ 12 := by
  unfold capLoop
  split
  · exact Nat.min_le_left ..
  split
  · split
    · exact (Nat.sub_le ..).trans low
    · exact low
  · exact low

theorem capDuty_spec (s : State) (power : Nat) (sites : List Nat) (low : s.get PLT_LIMIT_RUNG 0 ≤ 12) : let t := s.capDuty power sites
    let m := capLoop (s.get PLT_LIMIT_RUNG 0) s.pilot.relax (s.get PLT_CAP_CAP_W 0) power sites
    t = { s with flds := t.flds, pilot := { s.pilot with relax := m.2 }, out := t.out } ∧ t.get PLT_LIMIT_RUNG 0 = m.1 ∧
    (∀ f : Fld, f.ord % 512 ≠ PLT_LIMIT_RUNG.ord % 512 → f.ord % 512 ≠ PLT_LIMIT_CAP_UNMET.ord % 512 → ∀ i, t.get f i = s.get f i) ∧
    (s.get PLT_LIMIT_RUNG 0 = 12 → 1000 * s.get PLT_CAP_CAP_W 0 < power → t.get PLT_LIMIT_CAP_UNMET 0 = 1 ∧ Msg.pldmEvent 2 power ∈ t.out) := by
  unfold State.capDuty
  dsimp only
  have le := capLoop_le low s.pilot.relax (s.get PLT_CAP_CAP_W 0) power sites
  generalize capLoop (s.get PLT_LIMIT_RUNG 0) s.pilot.relax (s.get PLT_CAP_CAP_W 0) power sites = m at le
  have rung : (s.put PLT_LIMIT_RUNG 0 m.1).get PLT_LIMIT_RUNG 0 = m.1 := (State.get_put_self ..).trans (Nat.mod_eq_of_lt (show m.1 < 16 by omega))
  by_cases unmet : s.get PLT_LIMIT_RUNG 0 = 12 ∧ 1000 * s.get PLT_CAP_CAP_W 0 < power
  · rw [if_pos (by simpa using unmet), send_of_passed rfl]
    exact ⟨rfl, (State.get_put_other (by decide) ..).trans rung,
      fun f other cap i => (State.get_put_other cap ..).trans (State.get_put_other other ..), fun _ _ => ⟨State.get_put_self .., List.mem_concat_self⟩⟩
  · rw [if_neg (by simpa using unmet)]
    exact ⟨rfl, rung, fun f other _ i => State.get_put_other other .., fun a b => absurd ⟨a, b⟩ unmet⟩

/-- What duty 3 writes at a rung. -/
def limitFlds (rung port stbd : Nat) : List (Fld × Nat × Nat) :=
  [(PLT_LIMIT_STEP_LIMIT, 0, rungStep rung), (PLT_LIMIT_BUDGET_64THS, 0, rungScale rung), (PLT_LIMIT_KILNS_PORT, 0, rungKilns port rung),
    (PLT_LIMIT_KILNS_STBD, 0, rungKilns stbd rung)]

theorem limitDuty_spec (s : State) : let t := s.limitDuty
    let r := s.get PLT_LIMIT_RUNG 0
    t = { s with flds := t.flds, pilot := { s.pilot with wrote := true } } ∧
    t.get PLT_LIMIT_STEP_LIMIT 0 = rungStep r ∧ (r ≤ 12 → t.get PLT_LIMIT_BUDGET_64THS 0 = rungScale r) ∧
    t.get PLT_LIMIT_KILNS_PORT 0 = rungKilns (s.get HST_SIZE_COMPUTE_KILNS_PORT 0) r % 256 ∧
    ∀ f : Fld, (∀ g ∈ [PLT_LIMIT_STEP_LIMIT, PLT_LIMIT_BUDGET_64THS, PLT_LIMIT_KILNS_PORT, PLT_LIMIT_KILNS_STBD], f.ord % 512 ≠ g.ord % 512) →
      ∀ i, t.get f i = s.get f i := by
  have step : rungStep (s.get PLT_LIMIT_RUNG 0) < 4 := by unfold rungStep; split <;> omega
  have scale : rungScale (s.get PLT_LIMIT_RUNG 0) < 128 := by unfold rungScale; split <;> omega
  have written : ∃ b, s.limitDuty = { s.puts (limitFlds (s.get PLT_LIMIT_RUNG 0) (s.get HST_SIZE_COMPUTE_KILNS_PORT 0) b) with
      pilot := { s.pilot with wrote := true } } := by
    have port : ((s.put PLT_LIMIT_STEP_LIMIT 0 (rungStep (s.get PLT_LIMIT_RUNG 0))).put PLT_LIMIT_BUDGET_64THS 0 (rungScale (s.get PLT_LIMIT_RUNG 0))).get
        HST_SIZE_COMPUTE_KILNS_PORT 0 = s.get HST_SIZE_COMPUTE_KILNS_PORT 0 := (State.get_put_other (by decide) ..).trans (State.get_put_other (by decide) ..)
    unfold State.limitDuty
    dsimp only
    rw [port]
    exact ⟨_, rfl⟩
  obtain ⟨b, eq⟩ := written
  rw [eq]
  generalize s.get PLT_LIMIT_RUNG 0 = r at step scale
  generalize s.get HST_SIZE_COMPUTE_KILNS_PORT 0 = a
  have frame := puts_frame s (limitFlds r a b)
  have first : (s.puts (limitFlds r a b)).get PLT_LIMIT_STEP_LIMIT 0 = rungStep r :=
    (get_puts_last (l := []) (by simp only [List.forall_mem_cons]; decide) s).trans (Nat.mod_eq_of_lt step)
  have second : (s.puts (limitFlds r a b)).get PLT_LIMIT_BUDGET_64THS 0 = rungScale r :=
    (get_puts_last (l := [_]) (by simp only [List.forall_mem_cons]; decide) s).trans (Nat.mod_eq_of_lt scale)
  have third : (s.puts (limitFlds r a b)).get PLT_LIMIT_KILNS_PORT 0 = rungKilns a r % 256 := get_puts_last (l := [_, _]) (by simp only [List.forall_mem_cons]; decide) s
  have kept (f : Fld) (ne : ∀ g ∈ [PLT_LIMIT_STEP_LIMIT, PLT_LIMIT_BUDGET_64THS, PLT_LIMIT_KILNS_PORT, PLT_LIMIT_KILNS_STBD], f.ord % 512 ≠ g.ord % 512) (i : Nat) :
      (s.puts (limitFlds r a b)).get f i = s.get f i := by
    refine get_puts_other ?_ s i
    simp only [limitFlds, List.forall_mem_cons] at ne ⊢
    exact ⟨ne.1, ne.2.1, ne.2.2.1, ne.2.2.2.1, fun _ h => absurd h List.not_mem_nil⟩
  generalize s.puts (limitFlds r a b) = u at frame first second third kept
  obtain ⟨l, rfl⟩ : ∃ l, u = { s with flds := l } := ⟨_, frame⟩
  exact ⟨rfl, first, fun _ => second, third, kept⟩

theorem logDuty_eq (s : State) : ∃ log, s.logDuty = { s with pilot := { s.pilot with log := log, copied := s.get DDK_ELOG_STATUS_TOTAL 0 } } := ⟨_, rfl⟩

/-- The fields that the pilot's duties write. -/
def dutyFlds : List Fld :=
  [PLT_LIMIT_RUNG, PLT_LIMIT_CAP_UNMET, PLT_LIMIT_STEP_LIMIT, PLT_LIMIT_BUDGET_64THS, PLT_LIMIT_KILNS_PORT, PLT_LIMIT_KILNS_STBD, PLT_CAP_CAP_W]

theorem duties_spec (s : State) (power : Nat) (sites rails : List Nat) (low : s.get PLT_LIMIT_RUNG 0 ≤ 12) : let t := s.duties power sites rails
    let m := capLoop (s.get PLT_LIMIT_RUNG 0) s.pilot.relax (s.get PLT_CAP_CAP_W 0) power sites
    t.get PLT_LIMIT_RUNG 0 = m.1 ∧ t.pilot.relax = m.2 ∧ t.get PLT_LIMIT_STEP_LIMIT 0 = rungStep m.1 ∧ t.get PLT_LIMIT_BUDGET_64THS 0 = rungScale m.1 ∧
    t.get PLT_LIMIT_KILNS_PORT 0 = rungKilns (s.get HST_SIZE_COMPUTE_KILNS_PORT 0) m.1 % 256 ∧ t.pilot.wrote = true ∧ t.pilot.requests = [] ∧
    t.pilot.copied = s.get DDK_ELOG_STATUS_TOTAL 0 ∧ t.jobs = s.jobs ∧ t.mem = s.mem ∧ t.pilot.shadowTide = s.pilot.shadowTide ∧
    t.pilot.shadowAt = s.pilot.shadowAt ∧
    (s.get PLT_LIMIT_RUNG 0 = 12 → 1000 * s.get PLT_CAP_CAP_W 0 < power → t.get PLT_LIMIT_CAP_UNMET 0 = 1 ∧ Msg.pldmEvent 2 power ∈ t.out) ∧
    ∀ f : Fld, (∀ g ∈ dutyFlds, f.ord % 512 ≠ g.ord % 512) → ∀ i, t.get f i = s.get f i := by
  obtain ⟨capped, rung, capGet, unmet⟩ := capDuty_spec { s with pilot := { s.pilot with power := power, rails := rails } } power sites low
  have le := capLoop_le low s.pilot.relax (s.get PLT_CAP_CAP_W 0) power sites
  have asked : State.get { s with pilot := { s.pilot with power := power, rails := rails } } PLT_LIMIT_RUNG 0 = s.get PLT_LIMIT_RUNG 0 := rfl
  have cap : State.get { s with pilot := { s.pilot with power := power, rails := rails } } PLT_CAP_CAP_W 0 = s.get PLT_CAP_CAP_W 0 := rfl
  rw [asked, cap] at capped rung unmet
  dsimp only at capped rung
  unfold State.duties
  dsimp only
  generalize State.capDuty _ power sites = u at capped rung capGet unmet
  generalize capLoop (s.get PLT_LIMIT_RUNG 0) s.pilot.relax (s.get PLT_CAP_CAP_W 0) power sites = m at capped rung le
  obtain ⟨limited, step, scale, kilns, limitGet⟩ := limitDuty_spec u
  rw [rung] at step scale kilns
  rw [capGet HST_SIZE_COMPUTE_KILNS_PORT (by decide) (by decide) 0] at kilns
  generalize u.limitDuty = v at limited step scale kilns limitGet
  have serves := serves_mctpDuty v.logDuty
  have rest := serves.rest
  have get := serves.get
  have sent := serves.out
  have total : v.get DDK_ELOG_STATUS_TOTAL 0 = s.get DDK_ELOG_STATUS_TOTAL 0 :=
    (limitGet _ (by decide) 0).trans (capGet _ (by decide) (by decide) 0)
  obtain ⟨log, logged⟩ := logDuty_eq v
  rw [total] at logged
  generalize v.logDuty.mctpDuty = x at rest get sent
  rw [logged] at rest sent get
  obtain ⟨l, rfl⟩ : ∃ l, v = { u with flds := l, pilot := { u.pilot with wrote := true } } := ⟨_, limited⟩
  obtain ⟨k, o, rfl⟩ : ∃ k o, u = { s with flds := k, pilot := { s.pilot with power := power, rails := rails, relax := m.2 }, out := o } := ⟨_, _, capped⟩
  obtain ⟨j, tr, p, rfl⟩ : ∃ j tr p, x = { s with flds := j, out := p, pilot := { s.pilot with
      power := power, rails := rails, relax := m.2, wrote := true, log := log, copied := s.get DDK_ELOG_STATUS_TOTAL 0, requests := [], transfer := tr } } :=
    ⟨_, _, _, rest⟩
  refine ⟨(get _ (by decide) 0).trans ((limitGet _ (by decide) 0).trans rung), rfl, (get _ (by decide) 0).trans step,
    (get _ (by decide) 0).trans (scale le), (get _ (by decide) 0).trans kilns, rfl, rfl, rfl, rfl, rfl, rfl, rfl,
    fun top high => ⟨(get _ (by decide) 0).trans ((limitGet _ (by decide) 0).trans (unmet top high).1), sent (unmet top high).2⟩, fun f other i => ?_⟩
  simp only [dutyFlds, List.forall_mem_cons] at other
  obtain ⟨rung, unmet, step, scale, port, stbd, cap, -⟩ := other
  exact (get f cap i).trans ((limitGet f (by simp only [List.forall_mem_cons]; exact ⟨step, scale, port, stbd, fun _ h => absurd h List.not_mem_nil⟩) i).trans
    (capGet f rung unmet i))

/-! ### Restarts of the pilot (R590, R591) -/

/-- A pilot that has restarted. -/
def State.restarted (s : State) (down : Bool) (l : List Nat) : State :=
  let t := (s.inc PLT_STATUS_RESTARTS 0 1).put PLT_STATUS_PILOT_DOWN 0 (b2n down)
  { t with pilot := { t.pilot with restarts := l, relax := 0, requests := [] } }

theorem restarted_spec (s : State) (down : Bool) (l : List Nat) : let t := s.restarted down l
    t.pilot = { s.pilot with restarts := l, relax := 0, requests := [] } ∧ t.get PLT_STATUS_RESTARTS 0 = min (s.get PLT_STATUS_RESTARTS 0 + 1) 65535 ∧
    t.get PLT_STATUS_PILOT_DOWN 0 = b2n down ∧ t.jobs = s.jobs ∧ t.mem = s.mem := by
  refine ⟨rfl, (State.get_put_other (by decide) ..).trans (State.get_inc_self ..), (State.get_put_self ..).trans ?_, rfl, rfl⟩
  cases down <;> rfl

/-! ### Module flash (R598 to R600) -/

theorem flashOf_putFlash (p : Pilot) (c : Nat) (x : Flash) : (p.putFlash c x).flashOf c = x := by
  unfold Pilot.flashOf Pilot.putFlash
  rw [Tab.get_insert, if_pos rfl]

theorem setOther_spec (x : Flash) (b : Bank) : (x.setOther b).other = b ∧ (x.setOther b).current = x.current := by
  unfold Flash.setOther Flash.other Flash.current
  cases active : x.active <;> simp

theorem accepts_spec {x : Customs} {c : Nat} {i : Image} (accepted : x.accepts c i = true) :
    i.cls = c ∧ i.signedOk = true ∧ i.digestOk = true ∧ x.counters.getD (c - 1) 0 ≤ i.secVersion := by
  unfold Customs.accepts at accepted
  simp only [Bool.and_eq_true, beq_iff_eq, decide_eq_true_eq] at accepted
  obtain ⟨⟨⟨⟨⟨⟨cls, -⟩, -⟩, digest⟩, signed⟩, version⟩, -⟩ := accepted
  exact ⟨cls, signed, digest, version⟩

theorem refuseImage_spec (s : State) (c : Nat) : let t := s.refuseImage c
    t.pilot = s.pilot ∧ t.jobs = s.jobs ∧ t.mem = s.mem ∧ t.get CUS_STATUS_ERROR_SOURCE 0 = c % 256 := by
  unfold State.refuseImage State.logError
  dsimp only
  refine ⟨?_, ?_, ?_, State.get_put_self ..⟩
  · rw [record_frame]; rfl
  · rw [record_frame]; rfl
  · rw [record_frame]; rfl

/-! ### The end of a hold (R613) -/

/-- What the end of a hold writes. -/
def resumeFlds (tide : Nat) : List (Fld × Nat × Nat) :=
  [(HMR_TIDE_COUNT_TIDE, 0, tide), (HMR_TIDE_STATUS_RUNNING, 0, 1), (HMR_TIDE_HOLD_HOLD, 0, 0), (HMR_TIDE_HOLD_HELD, 0, 0)]

theorem resumeTide_spec (s : State) (n : Nat) : let t := s.resumeTide n
    t.tide = n % 2 ^ 64 ∧ t.get HMR_TIDE_STATUS_RUNNING 0 = 1 ∧ t.get HMR_TIDE_HOLD_HOLD 0 = 0 ∧ t.get HMR_TIDE_HOLD_HELD 0 = 0 ∧ t.pod = s.pod.unheld ∧
    t = { s with flds := t.flds, pod := s.pod.unheld } := by
  have resumes : s.resumeTide n = { s.puts (resumeFlds n) with pod := s.pod.unheld } := rfl
  have tide : (s.puts (resumeFlds n)).get HMR_TIDE_COUNT_TIDE 0 = n % 2 ^ 64 := get_puts_last (l := []) (by simp only [List.forall_mem_cons]; decide) s
  have running : (s.puts (resumeFlds n)).get HMR_TIDE_STATUS_RUNNING 0 = 1 := get_puts_last (l := [_]) (by simp only [List.forall_mem_cons]; decide) s
  have hold : (s.puts (resumeFlds n)).get HMR_TIDE_HOLD_HOLD 0 = 0 := get_puts_last (l := [_, _]) (by simp only [List.forall_mem_cons]; decide) s
  have held : (s.puts (resumeFlds n)).get HMR_TIDE_HOLD_HELD 0 = 0 := get_puts_last (l := [_, _, _]) (by simp) s
  have frame := puts_frame s (resumeFlds n)
  rw [resumes]
  generalize s.puts (resumeFlds n) = u at tide running hold held frame
  obtain ⟨l, rfl⟩ : ∃ l, u = { s with flds := l } := ⟨_, frame⟩
  exact ⟨tide, running, hold, held, rfl, rfl⟩

theorem leaveMismatched_spec (s : State) (r : Nat) : let t := s.leaveMismatched r
    t.get QUY_POD_CTL_IN_POD 0 = 0 ∧ t.get QUY_POD_CTL_JOIN_RESULT 0 = r % 16 ∧ t.pod = {} ∧ t.routes = [] ∧
    t.unacked = s.unacked ++ [⟨s.nextVc0, s.podMaster, .leave s.me⟩] := by
  have leaves : s.leaveMismatched r = { (((s.sendVc0 s.podMaster (.leave s.me)).put QUY_POD_CTL_JOIN_RESULT 0 r).put QUY_POD_CTL_IN_POD 0 0).putSize 0 with
      pod := {}, routes := [] } := rfl
  have sent : (s.sendVc0 s.podMaster (.leave s.me)).unacked = s.unacked ++ [⟨s.nextVc0, s.podMaster, .leave s.me⟩] := by rw [sendVc0_eq]
  rw [leaves]
  generalize s.sendVc0 s.podMaster (.leave s.me) = u at sent
  have result : ((u.put QUY_POD_CTL_JOIN_RESULT 0 r).put QUY_POD_CTL_IN_POD 0 0).get QUY_POD_CTL_JOIN_RESULT 0 = r % 16 :=
    (State.get_put_other (by decide) ..).trans (State.get_put_self ..)
  have inPod : ((u.put QUY_POD_CTL_JOIN_RESULT 0 r).put QUY_POD_CTL_IN_POD 0 0).get QUY_POD_CTL_IN_POD 0 = 0 := State.get_put_self ..
  have frame : (u.put QUY_POD_CTL_JOIN_RESULT 0 r).put QUY_POD_CTL_IN_POD 0 0 =
    { u with flds := ((u.put QUY_POD_CTL_JOIN_RESULT 0 r).put QUY_POD_CTL_IN_POD 0 0).flds } := rfl
  generalize (u.put QUY_POD_CTL_JOIN_RESULT 0 r).put QUY_POD_CTL_IN_POD 0 0 = v at result inPod frame
  obtain ⟨sized, -, -, kept⟩ := putSize_spec v 0
  replace result := (kept QUY_POD_CTL_JOIN_RESULT (by decide) 0).trans result
  replace inPod := (kept QUY_POD_CTL_IN_POD (by decide) 0).trans inPod
  generalize v.putSize 0 = w at sized inPod result
  obtain ⟨l, rfl⟩ : ∃ l, v = { u with flds := l } := ⟨_, frame⟩
  obtain ⟨m, rfl⟩ : ∃ m, w = { u with flds := m } := ⟨_, sized⟩
  exact ⟨inPod, result, rfl, rfl, sent⟩

end Sys2Proof.Machine
end

section
/-! Settling O59. -/

namespace Sys2Proof.Safety

open Sys2Proof.Machine

/-- Settles O59: the pilot's ladder, its duties, its watchdog and policy, what it takes in, and the hold of the pod's tide. -/
theorem pilotTicksUpdatesAndHolds : Obligations.PilotTicksUpdatesAndHolds := by
  unfold Obligations.PilotTicksUpdatesAndHolds
  refine ⟨?ladder, ?tick, ?pilot, ?writes, ?holds, ?heard⟩
  case ladder =>
    intro rung relax cap power sites
    refine ⟨fun hot => if_pos (by simpa using hot), fun under cool easy => ?_, fun under near cool => ?_⟩
    · refine (if_neg (by simp [cool]; omega)).trans ((if_pos (by simp [easy, under])).trans ?_)
      by_cases long : 31 ≤ relax
      · rw [if_pos long]
        exact if_pos (by omega)
      · rw [if_neg long]
        exact if_neg (by omega)
    · exact (if_neg (by simp [cool]; omega)).trans (if_neg (by simp; omega))
  case tick =>
    intro s power mv n sites rails lit low
    have run : exec (.managementTick power mv n sites rails) s = .next (if (s.ticked n mv sites).pilotUp then
        (s.ticked n mv sites).duties power (sites.take 4) rails else s.ticked n mv sites) := if_pos lit
    obtain ⟨clock, volts, site, running, stopped, frame, kept⟩ := ticked_spec s n mv sites
    generalize s.ticked n mv sites = u at run clock volts site running stopped frame kept
    have up : u.pilotUp = s.pilotUp := by
      unfold State.pilotUp State.flag
      rw [kept _ (by decide), kept _ (by decide), frame]
      rfl
    have rung : u.get PLT_LIMIT_RUNG 0 = s.get PLT_LIMIT_RUNG 0 := kept _ (by decide) 0
    have cap : u.get PLT_CAP_CAP_W 0 = s.get PLT_CAP_CAP_W 0 := kept _ (by decide) 0
    have kilns : u.get HST_SIZE_COMPUTE_KILNS_PORT 0 = s.get HST_SIZE_COMPUTE_KILNS_PORT 0 := kept _ (by decide) 0
    have total : u.get DDK_ELOG_STATUS_TOTAL 0 = s.get DDK_ELOG_STATUS_TOTAL 0 := kept _ (by decide) 0
    rw [up] at run
    refine ⟨_, run, ?_⟩
    by_cases works : s.pilotUp = true
    · rw [if_pos works]
      obtain ⟨r, relax, step, scale, port, wrote, requests, copied, jobs, mem, tide, at', unmet, get⟩ := duties_spec u power (sites.take 4) rails (by omega)
      rw [rung, cap, show u.pilot.relax = s.pilot.relax by rw [frame]] at r relax step scale port
      rw [kilns] at port
      rw [rung, cap] at unmet
      rw [total] at copied
      refine ⟨(get _ (by decide) 0).trans clock, (get _ (by decide) 0).trans volts, (get _ (by decide) 0).trans site, fun runs => ?_, fun stops => ?_,
        fun h => absurd works (by rw [h]; exact Bool.false_ne_true), fun _ => ⟨r, relax, step, scale, port, wrote, requests, copied, jobs.trans ?_, mem.trans ?_, unmet⟩⟩
      · obtain ⟨shadow, first, second⟩ := running runs
        exact ⟨(get _ (by decide) 0).trans shadow, tide.trans first, at'.trans second⟩
      · exact (get _ (by decide) 0).trans (stopped stops)
      · rw [frame]
      · rw [frame]
    · rw [if_neg works]
      obtain ⟨l, a, b, rfl⟩ : ∃ l a b, u = { s with flds := l, pilot := { s.pilot with shadowTide := a, shadowAt := b } } := ⟨_, _, _, frame⟩
      exact ⟨clock, volts, site, running, stopped, fun _ => rfl, fun h => absurd h works⟩
  case pilot =>
    intro s up
    refine ⟨?watchdog, ?policy, fun p k l transport kind => if_pos (by simp [up, transport, show k < mctpKinds from kind]), fun c i transfer => ?image, if_pos up⟩
    case watchdog =>
      intro recent
      have run : exec .pilotWatchdog s = .next (((s.restarted (decide ((s.get LHS_RTC_COUNT 0 :: recent).length ≥ 3)) (s.get LHS_RTC_COUNT 0 :: recent)).detect
          (mkErr (s.restarted (decide ((s.get LHS_RTC_COUNT 0 :: recent).length ≥ 3)) (s.get LHS_RTC_COUNT 0 :: recent)) 0 0x0E
            (if decide ((s.get LHS_RTC_COUNT 0 :: recent).length ≥ 3) then 3 else 1) 0 0 none [])).send
              (.pldmEvent 4 (s.get LHS_RTC_COUNT 0 :: recent).length)) := if_pos up
      refine ⟨_, run, ?_⟩
      have third : decide ((s.get LHS_RTC_COUNT 0 :: recent).length ≥ 3) = decide (2 ≤ recent.length) := decide_eq_decide.mpr (by simp)
      rw [third]
      obtain ⟨pilot, restarts, down, jobs, mem⟩ := restarted_spec s (decide (2 ≤ recent.length)) (s.get LHS_RTC_COUNT 0 :: recent)
      generalize s.restarted (decide (2 ≤ recent.length)) (s.get LHS_RTC_COUNT 0 :: recent) = u at pilot restarts down jobs mem
      have reports : Reports u (u.detect (mkErr u 0 0x0E (if decide (2 ≤ recent.length) then 3 else 1) 0 0 none [])) := reports_detect rfl
      generalize u.detect _ = v at reports
      rw [send_of_passed rfl]
      refine ⟨(congrArg (fun u : State => u.pilot) reports.work :).trans pilot, (reports.get (by decide) 0).trans restarts, (reports.get (by decide) 0).trans (down.trans ?_),
        List.getLast?_concat, reports.jobs.trans jobs, reports.mem.trans mem⟩
      by_cases often : 2 ≤ recent.length <;> simp [often, b2n]
    case policy =>
      intro recent stopped
      have run : exec .severity3ResetPolicy s = .next ({ s.logDuty with pilot := { s.logDuty.pilot with sev3 := false } } : State).sev3Act :=
        if_pos (by simp [up, stopped])
      obtain ⟨log, logged⟩ := logDuty_eq s
      have kept : s.logDuty.pilot.log = log := by rw [logged]
      rw [kept]
      rw [logged] at run
      generalize acts : ({ s with pilot := { s.pilot with log := log, copied := s.get DDK_ELOG_STATUS_TOTAL 0, sev3 := false } } : State) = u at run
      have flds : u.flds = s.flds := by rw [← acts]
      have recents : u.within 3600 u.pilot.sev3Resets = recent := by rw [← acts]; rfl
      have policy : u.flag PLT_POLICY_AUTO_RESET 0 = (s.get PLT_POLICY_AUTO_RESET 0 != 0) := by rw [← acts]; rfl
      refine ⟨fun auto few free => ?_, fun holds => ?_⟩
      · have resets : u.sev3Act = ({ u with pilot := { u.pilot with sev3Resets := u.rtc :: recent } } : State).cleared.startFrom 2 false := by
          unfold State.sev3Act
          dsimp only
          rw [recents, policy]
          refine (if_pos (by simp [auto, few])).trans (deviceReset_free ?_)
          rw [← acts]
          exact free
        obtain ⟨-, -, step, -⟩ := reset_spec { u with pilot := { u.pilot with sev3Resets := u.rtc :: recent } }
        obtain ⟨-, logs⟩ := pilot_kept { u.pilot with sev3Resets := u.rtc :: recent }
        have stamps : Pilot.sev3Resets (Pilot.kept { u.pilot with sev3Resets := u.rtc :: recent }) = s.get LHS_RTC_COUNT 0 :: recent := by
          unfold Pilot.kept Pilot.cutTransfer
          rw [← acts]
          dsimp only
          split <;> rfl
        exact ⟨_, run.trans (congrArg _ resets), step, rfl, rfl, rfl, logs.trans (by rw [← acts]), stamps, rfl⟩
      · have stays : u.sev3Act = { u.put PLT_STATUS_HELD_STOPPED 0 1 with out := u.out ++ [.pldmEvent 5 recent.length] } := by
          unfold State.sev3Act
          dsimp only
          rw [recents, policy, send_of_passed rfl]
          refine if_neg ?_
          simp only [Bool.and_eq_true, bne_iff_ne, decide_eq_true_eq, not_and]
          omega
        refine ⟨_, run.trans (congrArg _ stays), State.get_put_self .., ?_, ?_, ?_, fun f i other => ?_⟩
        · rw [← acts]; rfl
        · rw [← acts]
        · rw [← acts]; rfl
        · exact (State.get_put_ne _ _ (by simpa using other)).trans (State.get_of_flds flds f i)
    case image =>
      have run : exec (.firmwareTransferEnd i) s = .next (({ s with pilot := { s.pilot with transfer := none } } : State).verified c i) := by
        change execFirmwareTransferEnd i s = _
        unfold execFirmwareTransferEnd
        rw [transfer]
        exact if_pos up
      refine ⟨fun good => ⟨_, run, ?_⟩, fun bad => ⟨_, run, ?_⟩⟩
      · unfold State.verified
        rw [if_pos (show (State.cus { s with pilot := { s.pilot with transfer := none } }).accepts c i = true from good), send_of_passed rfl]
        obtain ⟨cls, signed, digest, version⟩ := accepts_spec good
        obtain ⟨other, current⟩ := setOther_spec (s.pilot.flashOf c) ⟨some i, .verified⟩
        refine ⟨?_, ?_, rfl, rfl, cls, signed, digest, version, rfl⟩
        · exact (congrArg Flash.other (flashOf_putFlash ..)).trans other
        · exact (congrArg Flash.current (flashOf_putFlash ..)).trans current
      · have refused : (State.verified { s with pilot := { s.pilot with transfer := none } } c i) = _ :=
          if_neg (show ¬ (State.cus { s with pilot := { s.pilot with transfer := none } }).accepts c i = true by
            rw [show (State.cus { s with pilot := { s.pilot with transfer := none } }).accepts c i = false from bad]; exact Bool.false_ne_true)
        obtain ⟨pilot, jobs, mem, source⟩ := refuseImage_spec { s with pilot := { s.pilot with transfer := none } } c
        rw [refused]
        generalize State.refuseImage _ c = u at pilot jobs mem source
        rw [send_of_passed rfl]
        obtain ⟨other, current⟩ := setOther_spec (u.pilot.flashOf c) ⟨none, .invalid⟩
        have flash : u.pilot.flashOf c = s.pilot.flashOf c := by rw [pilot]; rfl
        refine ⟨?_, ?_, ?_, List.getLast?_concat, source, jobs, mem⟩
        · exact (congrArg Flash.other (flashOf_putFlash ..)).trans other
        · exact ((congrArg Flash.current (flashOf_putFlash ..)).trans current).trans (congrArg Flash.current flash)
        · exact congrArg Pilot.transfer pilot
  case writes =>
    intro s src v from'
    have run (f : State → State) : s.bySource src f = f s := by
      unfold State.bySource
      rcases from' with ⟨up, port⟩ | ⟨up, rfl⟩ | ⟨on, deep, whole, rfl⟩
      · exact (if_pos port).trans (hostDo_of_HostUp up f)
      · exact (if_neg (by decide)).trans ((if_neg (by decide)).trans ((if_pos rfl).trans (if_pos up)))
      · exact (if_neg (by decide)).trans ((if_pos rfl).trans (if_pos (by simp [on, deep, State.flag, whole])))
    have caps : exec (.pltCapWrite src v) s = .next (s.capWrite src v) := congrArg Host.Outcome.next (run _)
    have resets : exec (.pltReset src v) s = .next (s.pltReset src v) := congrArg Host.Outcome.next (run _)
    refine ⟨fun least most => caps.trans (congrArg _ (if_pos (by simp [capOk, least, most]))), fun outside => caps.trans (congrArg _ (if_neg ?_)),
      fun key free => ?_, fun wrong => resets.trans (congrArg _ (if_neg (by simpa using wrong)))⟩
    · simp only [capOk, Bool.and_eq_true, decide_eq_true_eq]
      omega
    · have reset : s.pltReset src v = s.cleared.startFrom 2 false := (if_pos (by simpa using key)).trans (deviceReset_free free)
      obtain ⟨lost, -, step, -⟩ := reset_spec s
      exact ⟨_, resets.trans (congrArg _ reset), lost, step⟩
  case holds =>
    intro s up
    have host (f : State → State) : s.hostDo f = f s := hostDo_of_HostUp up f
    refine ⟨congrArg Host.Outcome.next (host _), congrArg Host.Outcome.next (host _), fun member master free => ?_, fun n p g member master holds => ?_⟩
    · refine congrArg Host.Outcome.next ((host _).trans ((if_pos (by rw [member, master, free]; rfl)).trans ?_))
      rw [send_broadcast]
      rfl
    · have run : exec (.tideHoldRelease n p g false) s = .next (if (s.put HMR_TIDE_HOLD_HOLD 0 0).pod.held then (s.put HMR_TIDE_HOLD_HOLD 0 0).resumePod
          else if (s.put HMR_TIDE_HOLD_HOLD 0 0).pod.stopSent then
            { s.put HMR_TIDE_HOLD_HOLD 0 0 with pod := { (s.put HMR_TIDE_HOLD_HOLD 0 0).pod with release := true } }
          else ({ s.put HMR_TIDE_HOLD_HOLD 0 0 with pod := (s.put HMR_TIDE_HOLD_HOLD 0 0).pod.unheld } : State).send (.broadcast (.hold false))) :=
        congrArg Host.Outcome.next ((host _).trans (if_neg (by rw [member, master, holds]; exact Bool.false_ne_true)))
      refine ⟨fun runs quiet => run.trans (congrArg _ ((if_neg ?_).trans ((if_neg ?_).trans ?_))), fun held => ⟨_, run.trans (congrArg _ (if_pos held)), ?_⟩⟩
      · change ¬ s.pod.held = true
        rw [runs]; exact Bool.false_ne_true
      · change ¬ s.pod.stopSent = true
        rw [quiet]; exact Bool.false_ne_true
      · rw [send_broadcast]
        rfl
      · unfold State.resumePod
        rw [send_broadcast, show (s.put HMR_TIDE_HOLD_HOLD 0 0).tide = s.tide from State.get_put_other (by decide) ..,
          State.get_put_other (by decide), State.get_put_other (by decide)]
        obtain ⟨tide, running, hold, held, pod, frame⟩ := resumeTide_spec { s.put HMR_TIDE_HOLD_HOLD 0 0 with
          out := (s.put HMR_TIDE_HOLD_HOLD 0 0).out ++ [.broadcast (.resume (s.tide + 1) (s.get HMR_TIDE_CFG_PERIOD_STEPS 0) (s.get HMR_EPOCH_CFG_GRACE_TIDES 0))] }
          (s.tide + 1)
        exact ⟨tide, running, hold, held, pod, (congrArg (fun u : State => u.jobs) frame :), (congrArg (fun u : State => u.out) frame :)⟩
  case heard =>
    intro s live pod
    have on : s.live = true := live_of_Live live
    have hold : exec (.tideHold true) s = if s.live && s.inPod && !s.isMaster then .next { s with pod := { s.pod with hold := true, readySent := false } }
        else .next s := rfl
    refine ⟨fun member => hold.trans (if_pos (by simp [on, pod, member])), fun holds => ?_⟩
    have ready (d : Nat) : exec (.holdReady d) s = if d == s.me then .next s.reportReady else if s.isMaster && s.pod.members.contains d then
        .next { s with pod := { s.pod with readies := d :: s.pod.readies.erase d } } else .next s := if_neg (by simp [on, pod, holds])
    have stop (n : Nat) (heard : Bool) : exec (.tideStopBroadcast n heard) s = if heard then (if s.isMaster then .next s else
        .next { s with pod := { s.pod with stopAt := some n } }) else if s.isMaster && !s.pod.stopSent && s.allReadyToStop && n ≥ s.tide + 2 then
        .next (({ s with pod := { s.pod with stopAt := some n, stopSent := true } } : State).send (.broadcast (.stopAt n))) else .next s :=
      if_neg (by simp [on, pod, holds])
    have release (n p g : Nat) (member : s.isMaster = false) : exec (.tideHoldRelease n p g true) s = .next (s.holdOffHeard n p g) := by
      have heard : exec (.tideHoldRelease n p g true) s = if s.live && s.inPod && !s.isMaster && s.pod.hold then .next (s.holdOffHeard n p g) else .next s := rfl
      exact heard.trans (if_pos (by simp [on, pod, member, holds]))
    refine ⟨fun fresh jobs conss => ⟨fun member => ?_, fun master => ?_⟩, fun d mem other master => ?_, fun n member => ?_, fun n master fresh all later => ?_,
      fun n member held => ?_, fun n p g member held mismatch => ?_⟩
    · refine (ready s.me).trans ((if_pos (beq_self_eq_true _)).trans (congrArg Host.Outcome.next ?_))
      exact (if_pos (by simp [holds, fresh, jobs, conss])).trans (if_neg (by change ¬ s.isMaster = true; rw [member]; exact Bool.false_ne_true))
    · refine (ready s.me).trans ((if_pos (beq_self_eq_true _)).trans (congrArg Host.Outcome.next ?_))
      exact (if_pos (by simp [holds, fresh, jobs, conss])).trans (if_pos master)
    · exact (ready d).trans ((if_neg (by simpa using other)).trans (if_pos (by simp [master, mem])))
    · exact (stop n true).trans ((if_pos rfl).trans (if_neg (by rw [member]; exact Bool.false_ne_true)))
    · have ready : s.allReadyToStop = true := by
        unfold State.allReadyToStop
        simpa using all
      refine (stop n false).trans ((if_neg Bool.false_ne_true).trans ((if_pos (by simp [master, fresh, ready, later])).trans ?_))
      rw [send_broadcast]
    · have resumes : s.holdOffHeard n (s.get HMR_TIDE_CFG_PERIOD_STEPS 0) (s.get HMR_EPOCH_CFG_GRACE_TIDES 0) = s.resumeTide n :=
        (if_neg (by simp [held])).trans ((if_neg (by simp)).trans (if_neg (by simp)))
      obtain ⟨tide, running, -, -, pod, frame⟩ := resumeTide_spec s n
      exact ⟨_, (release n _ _ member).trans (congrArg _ resumes), tide, running, pod, (congrArg (fun u : State => u.jobs) frame :),
        (congrArg (fun u : State => u.out) frame :)⟩
    · have leaves : s.holdOffHeard n p g = s.leaveMismatched 1 := (if_neg (by simp [held])).trans (if_pos (by simpa using mismatch))
      exact ⟨_, (release n p g member).trans (congrArg _ leaves), leaveMismatched_spec s 1⟩

end Sys2Proof.Safety
end


section
/-! SUPPORT. Start-up: a step that begins, fails or passes, images that boot, macros that fail, and the size table. -/

namespace Sys2Proof.Machine

open Sys2Proof.Safety

/-! ### Steps (R603) -/

section
variable {s : State} {trip step : Nat} {work : State → State}

theorem startStep_failed (failed : s.get LHS_START_FAILED 0 ≠ 0) : s.startStep trip step work = s := if_pos (by simp [State.flag, failed])

theorem startStep_trips (runs : s.get LHS_START_FAILED 0 = 0) (trips : trip = step) : s.startStep trip step work = (s.put LHS_START_STEP 0 step).startFail 7 :=
  (if_neg (by simp [State.flag, runs])).trans (if_pos (by simp [trips]))

theorem startStep_runs (runs : s.get LHS_START_FAILED 0 = 0) (quiet : trip ≠ step) : s.startStep trip step work = work (s.put LHS_START_STEP 0 step) :=
  (if_neg (by simp [State.flag, runs])).trans (if_neg (by simp [quiet]))

end

/-- Start-up has stopped at a step with a cause, and no job has changed. -/
def Failed (s t : State) (step cause : Nat) : Prop :=
  t.get LHS_START_FAILED 0 = 1 ∧ t.get LHS_START_CAUSE 0 = cause ∧ t.get LHS_START_STEP 0 = step ∧ t.get HST_SIZE_ID_VALID 0 = 0 ∧ t.jobs = s.jobs

theorem startFail_failed {s t : State} {cause : Nat} (low : cause < 256) (valid : t.get HST_SIZE_ID_VALID 0 = 0) (jobs : t.jobs = s.jobs) :
    Failed s (t.startFail cause) (t.get LHS_START_STEP 0) cause := by
  unfold State.startFail State.logStart
  refine ⟨?_, ?_, ?_, ?_, jobs⟩
  · exact (State.get_put_other (s := t.put LHS_START_FAILED 0 1) (by decide) ..).trans (State.get_put_self ..)
  · exact (State.get_put_self (t.put LHS_START_FAILED 0 1) ..).trans (Nat.mod_eq_of_lt low)
  · exact (State.get_put_other (s := t.put LHS_START_FAILED 0 1) (by decide) ..).trans (State.get_put_other (by decide) ..)
  · exact ((State.get_put_other (s := t.put LHS_START_FAILED 0 1) (by decide) ..).trans (State.get_put_other (by decide) ..)).trans valid

theorem startStep_tripFails {s t : State} {trip step : Nat} {work : State → State} (runs : t.get LHS_START_FAILED 0 = 0) (trips : trip = step) (low : step < 8)
    (valid : t.get HST_SIZE_ID_VALID 0 = 0) (jobs : t.jobs = s.jobs) : Failed s (t.startStep trip step work) step 7 := by
  rw [startStep_trips runs trips]
  have at' : (t.put LHS_START_STEP 0 step).get LHS_START_STEP 0 = step := (State.get_put_self ..).trans (Nat.mod_eq_of_lt low)
  have fails := startFail_failed (s := s) (t := t.put LHS_START_STEP 0 step) (cause := 7) (by decide) ((State.get_put_other (by decide) ..).trans valid) jobs
  rw [at'] at fails
  exact fails

/-! ### The steps one after another (Table 15.8) -/

/-- The state after each of the steps 2 to 5. -/
def State.booted (s : State) (r : StartReport) : State := (s.put LHS_START_COLD 0 (b2n s.power.cold)).startStep r.trip 2 fun u => u.bootStep r
def State.repaired (s : State) (r : StartReport) : State :=
  (s.booted r).startStep r.trip 3 fun u => if r.repairImageOk then u.applyImage r else u.startFail 3
def State.tested (s : State) (r : StartReport) : State := (s.repaired r).startStep r.trip 4 fun u => u.testStep r
def State.joined (s : State) (r : StartReport) : State := (s.tested r).startStep r.trip 5 fun u => u.joinStep r

theorem startUp_eq (s : State) (r : StartReport) : s.startUp r =
    if (s.joined r).flag LHS_START_FAILED 0 || (s.joined r).joinWaits then s.joined r else (s.joined r).finish r := rfl

section
variable {s : State} {r : StartReport}

theorem startUp_of_joined (failed : (s.joined r).get LHS_START_FAILED 0 ≠ 0) : s.startUp r = s.joined r :=
  (startUp_eq s r).trans (if_pos (by simp [State.flag, failed]))

theorem startUp_of_tested (failed : (s.tested r).get LHS_START_FAILED 0 ≠ 0) : s.startUp r = s.tested r := by
  have same : s.joined r = s.tested r := startStep_failed failed
  rw [startUp_of_joined (by rw [same]; exact failed), same]

theorem startUp_of_repaired (failed : (s.repaired r).get LHS_START_FAILED 0 ≠ 0) : s.startUp r = s.repaired r := by
  have same : s.tested r = s.repaired r := startStep_failed failed
  rw [startUp_of_tested (by rw [same]; exact failed), same]

theorem startUp_of_booted (failed : (s.booted r).get LHS_START_FAILED 0 ≠ 0) : s.startUp r = s.booted r := by
  have same : s.repaired r = s.booted r := startStep_failed failed
  rw [startUp_of_repaired (by rw [same]; exact failed), same]

end

/-! ### Images that boot (R564 to R566) -/

/-- The flash of a class whose first bank holds a valid image. -/
def flashWith (i : Image) : Flash := { bank0 := ⟨some i, .valid⟩ }

theorem flashOf_putFlash_same {p : Pilot} {c : Nat} {x : Flash} (same : p.flashOf c = x) (d : Nat) : (p.putFlash c x).flashOf d = p.flashOf d := by
  unfold Pilot.flashOf Pilot.putFlash at *
  rw [Tab.get_insert]
  split
  · next eq => rw [eq, same]
  · rfl

theorem bootClass_image {s : State} {c : Nat} {i : Image} (runs : s.get LHS_START_FAILED 0 = 0) (program : c ≠ 6) (flash : s.pilot.flashOf c = flashWith i)
    (accepted : s.cus.accepts c i = true) : s.bootClass c = s.runImage c false i := by
  have tried : s.tryBanks c (s.pilot.flashOf c).order = (true, s.runImage c false i) := by
    rw [flash]
    change s.tryBanks c [false, true] = _
    unfold State.tryBanks
    rw [flash]
    exact (if_neg Bool.false_ne_true).trans (if_pos accepted)
  unfold State.bootClass
  rw [if_neg (by simp [State.flag, runs])]
  dsimp only
  rw [if_neg (by simp [program]), tried]
  rfl

/-- An image that runs is measured, and only its class's counter may advance. -/
theorem runImage_spec {s : State} {c : Nat} {i : Image} (program : c ≠ 6) (flash : s.pilot.flashOf c = flashWith i) : ∃ l k,
    s.runImage c false i = { s with pilot := { s.pilot with flash := l }, cus := { s.cus with
      slots := s.cus.slots.set c (Config.sha384 (s.cus.slots.getD c 0) i.content), counters := k } } ∧
    (∀ d, (s.runImage c false i).pilot.flashOf d = s.pilot.flashOf d) ∧ ∀ n, n ≠ c - 1 → k.getD n 0 = s.cus.counters.getD n 0 := by
  have same := flashOf_putFlash_same flash
  unfold State.runImage
  dsimp only
  rw [flash, if_neg (by simp [program])]
  split
  · exact ⟨_, _, rfl, same, fun n other => by
      rw [List.getD_eq_getElem?_getD, List.getElem?_set_ne (Ne.symm other), List.getD_eq_getElem?_getD]
      rfl⟩
  · exact ⟨_, _, rfl, same, fun _ _ => rfl⟩

/-- Images of the listed classes run: only the flash, the counters and the slots may differ, and each slot of a listed class is extended. -/
structure Booting (s t : State) (done : List Nat) : Prop where
  frame : ∃ l k m, t = { s with pilot := { s.pilot with flash := l }, cus := { s.cus with slots := k, counters := m } }
  flash : ∀ d, t.pilot.flashOf d = s.pilot.flashOf d
  counters : ∀ d, 1 ≤ d → d ∉ done → t.cus.counters.getD (d - 1) 0 = s.cus.counters.getD (d - 1) 0
  length : t.cus.slots.length = s.cus.slots.length
  kept : ∀ d, 1 ≤ d → d ∉ done → t.cus.slots.getD d 0 = s.cus.slots.getD d 0
  slots : ∀ d ∈ done, d < s.cus.slots.length → ∀ i, s.pilot.flashOf d = flashWith i →
    t.cus.slots.getD d 0 = Config.sha384 (s.cus.slots.getD d 0) i.content

theorem flashWith_inj {i j : Image} (eq : flashWith i = flashWith j) : i = j := by
  simpa [flashWith] using eq

theorem Booting.measure (s : State) : Booting s (s.measure 1 0) [] := by
  refine ⟨⟨_, _, _, rfl⟩, fun _ => rfl, fun _ _ _ => rfl, List.length_set, fun d low _ => ?_, by simp⟩
  change (s.cus.slots.set 0 _).getD d 0 = _
  rw [List.getD_eq_getElem?_getD, List.getElem?_set_ne (by omega), List.getD_eq_getElem?_getD]

theorem Booting.get {s t : State} {done : List Nat} (boots : Booting s t done) (f : Fld) (i : Nat) : t.get f i = s.get f i := by
  obtain ⟨l, k, m, frame⟩ := boots.frame
  rw [frame]
  rfl

/-- The image of a further class runs. -/
theorem Booting.step {s t : State} {done : List Nat} (boots : Booting s t done) (runs : s.get LHS_START_FAILED 0 = 0) {c : Nat} {i : Image} (low : 1 ≤ c)
    (program : c ≠ 6) (fresh : c ∉ done) (flash : s.pilot.flashOf c = flashWith i) (accepted : s.cus.accepts c i = true) :
    Booting s (t.bootClass c) (c :: done) := by
  have flash' := (boots.flash c).trans flash
  obtain ⟨l, k, m, frame⟩ := boots.frame
  have accepted' : t.cus.accepts c i = true := by
    have counter := boots.counters c low fresh
    unfold Customs.accepts at *
    rw [counter, frame]
    exact accepted
  rw [bootClass_image ((boots.get _ _).trans runs) program flash' accepted']
  obtain ⟨l', m', ran, same, others⟩ := runImage_spec program flash'
  have slots : (t.runImage c false i).cus.slots = t.cus.slots.set c (Config.sha384 (t.cus.slots.getD c 0) i.content) := by rw [ran]
  have counters : (t.runImage c false i).cus.counters = m' := by rw [ran]
  refine ⟨⟨l', _, m', ran.trans (by rw [frame])⟩, fun d => (same d).trans (boots.flash d), fun d one out => ?_, ?_, fun d one out => ?_, fun d hd fits j img => ?_⟩
  · rw [List.mem_cons, not_or] at out
    rw [counters, others (d - 1) (by omega)]
    exact boots.counters d one out.2
  · rw [slots, List.length_set]
    exact boots.length
  · rw [List.mem_cons, not_or] at out
    rw [slots, List.getD_eq_getElem?_getD, List.getElem?_set_ne (Ne.symm out.1), ← List.getD_eq_getElem?_getD]
    exact boots.kept d one out.2
  · rw [slots, List.getD_eq_getElem?_getD]
    by_cases eq : d = c
    · subst eq
      obtain rfl : i = j := flashWith_inj (flash.symm.trans img)
      rw [List.getElem?_set_self (by rw [boots.length]; exact fits), boots.kept d low fresh]
      rfl
    · rw [List.getElem?_set_ne (Ne.symm eq), ← List.getD_eq_getElem?_getD]
      exact boots.slots d ((List.mem_cons.mp hd).resolve_left eq) fits j img

/-- Images 1 to 5 are valid in the first banks of their classes, and customs accepts them. -/
def State.imagesGood (s : State) : Prop := ∀ c, 1 ≤ c → c ≤ 5 → ∃ i, s.pilot.flashOf c = flashWith i ∧ s.cus.accepts c i = true

/-- With an image for every class but the owner policy, all run. -/
theorem bootStep_spec {s : State} {r : StartReport} (runs : s.get LHS_START_FAILED 0 = 0) (sound : s.get CUS_STATUS_ERROR 0 = 0) (tested : r.selfTestOk = true)
    (images : s.imagesGood) (noPolicy : s.pilot.flashOf 6 = {}) : ∃ u, Booting s u [5, 4, 3, 2, 1] ∧ s.bootStep r = u.bootKeys := by
  have next {t : State} {done : List Nat} (boots : Booting s t done) (c : Nat) (low : 1 ≤ c) (high : c ≤ 5) (fresh : c ∉ done) :
      Booting s (t.bootClass c) (c :: done) := by
    obtain ⟨i, flash, accepted⟩ := images c low high
    exact boots.step runs low (by omega) fresh flash accepted
  have one := next (Booting.measure s) 1 (by decide) (by decide) (by decide)
  have two := next one 2 (by decide) (by decide) (by decide)
  have three := next two 3 (by decide) (by decide) (by decide)
  have four := next three 4 (by decide) (by decide) (by decide)
  have boots := next four 5 (by decide) (by decide) (by decide)
  clear next one two three four
  refine ⟨_, boots, ?_⟩
  unfold State.bootStep
  rw [if_neg (by simp [State.flag, sound, tested])]
  dsimp only [List.foldl_cons, List.foldl_nil]
  generalize State.bootClass _ 5 = u at boots ⊢
  have quiet : u.get LHS_START_FAILED 0 = 0 := (boots.get _ _).trans runs
  have skip : u.bootClass 6 = u := by
    unfold State.bootClass
    rw [if_neg (by simp [State.flag, quiet]), (boots.flash 6).trans noPolicy]
    rfl
  rw [skip, if_neg (by simp [State.flag, quiet])]

theorem get_failed_startFail (s : State) (cause : Nat) : (s.startFail cause).get LHS_START_FAILED 0 = 1 := by
  unfold State.startFail State.logStart
  exact (State.get_put_other (s := s.put LHS_START_FAILED 0 1) (by decide) ..).trans (State.get_put_self ..)

theorem bootClass_failed {s : State} (failed : s.get LHS_START_FAILED 0 = 1) (c : Nat) : s.bootClass c = s := if_pos (by simp [State.flag, failed])

/-- A class without an image, other than the owner policy, stops start-up. -/
theorem bootClass_empty {s : State} {c : Nat} (runs : s.get LHS_START_FAILED 0 = 0) (program : c ≠ 6) (empty : s.pilot.flashOf c = {}) :
    s.bootClass c = s.startFail 2 := by
  have tried : s.tryBanks c (s.pilot.flashOf c).order = (false, s) := by
    rw [empty]
    change s.tryBanks c [false, true] = _
    unfold State.tryBanks
    rw [empty]
    unfold State.tryBanks
    rw [empty]
    rfl
  unfold State.bootClass
  rw [if_neg (by simp [State.flag, runs])]
  dsimp only
  rw [if_neg (by simp [program]), tried]
  rfl

/-- Without an image of the first class start-up stops. -/
theorem bootStep_noImage {s : State} {r : StartReport} (runs : s.get LHS_START_FAILED 0 = 0) (sound : s.get CUS_STATUS_ERROR 0 = 0)
    (tested : r.selfTestOk = true) (empty : s.pilot.flashOf 1 = {}) : s.bootStep r = (s.measure 1 0).startFail 2 := by
  have first : (s.measure 1 0).bootClass 1 = (s.measure 1 0).startFail 2 := bootClass_empty runs (by decide) empty
  have failed := get_failed_startFail (s.measure 1 0) 2
  unfold State.bootStep
  rw [if_neg (by simp [State.flag, sound, tested])]
  dsimp only [List.foldl_cons, List.foldl_nil]
  rw [first]
  simp only [bootClass_failed failed]
  exact if_pos (by simp [State.flag, failed])

/-! ### What stands after each step -/

/-- Start-up is at a step and nothing is lost of what later steps look at. -/
structure Passed (s t : State) (l : List Fld) (step : Nat) : Prop where
  frame : ∃ fs f c d, t = { s with flds := fs, pilot := { s.pilot with flash := f }, cus := c, dock := d }
  get : ∀ f : Fld, (∀ g ∈ l, f.ord % 512 ≠ g.ord % 512) → ∀ i, t.get f i = s.get f i
  step : t.get LHS_START_STEP 0 = step
  drbg : t.cus.drbg = true
  identity : t.cus.identity = decide (s.cus.lifecycle ≠ 0)
  slots : s.cus.slots.length = 7 → ∀ c i, 1 ≤ c → c ≤ 5 → s.pilot.flashOf c = flashWith i →
    t.cus.slots.getD c 0 = Config.sha384 (s.cus.slots.getD c 0) i.content

/-- The next step begins. -/
theorem Passed.begin {s t : State} {l : List Fld} {step n : Nat} (passed : Passed s t l step) (listed : LHS_START_STEP ∈ l) (low : n < 8) :
    Passed s (t.put LHS_START_STEP 0 n) l n := by
  obtain ⟨⟨fs, f, c, d, frame⟩, get, -, drbg, identity, slots⟩ := passed
  exact ⟨⟨_, f, c, d, congrArg (fun u : State => u.put LHS_START_STEP 0 n) frame⟩,
    fun f other i => (State.get_put_other (other _ listed) ..).trans (get f other i), (State.get_put_self ..).trans (Nat.mod_eq_of_lt low), drbg, identity, slots⟩

/-- The entries of the repair image are another matter. -/
theorem Passed.dock {s t : State} {l : List Fld} {step : Nat} (passed : Passed s t l step) (d : Dock) : Passed s { t with dock := d } l step := by
  obtain ⟨⟨fs, f, c, d', rfl⟩, get, at', drbg, identity, slots⟩ := passed
  exact ⟨⟨fs, f, c, d, rfl⟩, get, at', drbg, identity, slots⟩

/-- A listed field is written. -/
theorem Passed.put {s t : State} {l : List Fld} {step : Nat} (passed : Passed s t l step) {g : Fld} (listed : g ∈ l)
    (other : LHS_START_STEP.ord % 512 ≠ g.ord % 512) (i v : Nat) : Passed s (t.put g i v) l step := by
  obtain ⟨⟨fs, f, c, d, frame⟩, get, at', drbg, identity, slots⟩ := passed
  exact ⟨⟨_, f, c, d, congrArg (fun u : State => u.put g i v) frame⟩,
    fun f apart j => (State.get_put_other (apart _ listed) ..).trans (get f apart j), (State.get_put_other other ..).trans at', drbg, identity, slots⟩

theorem Passed.mono {s t : State} {l m : List Fld} {step : Nat} (passed : Passed s t l step) (sub : ∀ g ∈ l, g ∈ m) : Passed s t m step := by
  obtain ⟨frame, get, at', drbg, identity, slots⟩ := passed
  exact ⟨frame, fun f other => get f fun g hg => other g (sub g hg), at', drbg, identity, slots⟩

theorem Passed.jobs {s t : State} {l : List Fld} {step : Nat} (passed : Passed s t l step) : t.jobs = s.jobs := by
  obtain ⟨⟨fs, f, c, d, rfl⟩, -⟩ := passed
  rfl

theorem Passed.mem {s t : State} {l : List Fld} {step : Nat} (passed : Passed s t l step) : t.mem = s.mem := by
  obtain ⟨⟨fs, f, c, d, rfl⟩, -⟩ := passed
  rfl

theorem Passed.profile {s t : State} {l : List Fld} {step : Nat} (passed : Passed s t l step) : t.pilot.profile = s.pilot.profile := by
  obtain ⟨⟨fs, f, c, d, rfl⟩, -⟩ := passed
  rfl

/-- Fields that start-up writes before it tests memory, and with its tests. -/
def bootFlds : List Fld := [LHS_START_COLD, LHS_START_STEP]
def testFlds : List Fld := [LHS_START_COLD, LHS_START_STEP, DDK_REPAIR_CFG_AUTO]

section
variable {s : State} {r : StartReport}

theorem booted_eq (runs : s.get LHS_START_FAILED 0 = 0) (quiet : r.trip ≠ 2) : s.booted r =
    State.bootStep ((s.put LHS_START_COLD 0 (b2n s.power.cold)).put LHS_START_STEP 0 2) r :=
  startStep_runs ((State.get_put_other (by decide) ..).trans runs) quiet

theorem get_begun {f : Fld} (other : ∀ g ∈ bootFlds, f.ord % 512 ≠ g.ord % 512) (s : State) (v n i : Nat) :
    ((s.put LHS_START_COLD 0 v).put LHS_START_STEP 0 n).get f i = s.get f i :=
  (State.get_put_other (other _ (by simp [bootFlds])) ..).trans (State.get_put_other (other _ (by simp [bootFlds])) ..)

theorem booted_passed (runs : s.get LHS_START_FAILED 0 = 0) (sound : s.get CUS_STATUS_ERROR 0 = 0) (tested : r.selfTestOk = true)
    (images : s.imagesGood) (noPolicy : s.pilot.flashOf 6 = {}) (quiet : r.trip ≠ 2) :
    Passed s (s.booted r) bootFlds 2 ∧ (s.booted r).dock = s.dock := by
  rw [booted_eq runs quiet]
  have get {f : Fld} (other : ∀ g ∈ bootFlds, f.ord % 512 ≠ g.ord % 512) (i : Nat) := get_begun other s (b2n s.power.cold) 2 i
  have step : ((s.put LHS_START_COLD 0 (b2n s.power.cold)).put LHS_START_STEP 0 2).get LHS_START_STEP 0 = 2 := State.get_put_self ..
  have same : (s.put LHS_START_COLD 0 (b2n s.power.cold)).put LHS_START_STEP 0 2 =
    { s with flds := ((s.put LHS_START_COLD 0 (b2n s.power.cold)).put LHS_START_STEP 0 2).flds } := rfl
  generalize (s.put LHS_START_COLD 0 (b2n s.power.cold)).put LHS_START_STEP 0 2 = w at get step same
  obtain ⟨l, rfl⟩ : ∃ l, w = { s with flds := l } := ⟨_, same⟩
  obtain ⟨u, boots, eq⟩ := bootStep_spec (s := { s with flds := l }) (r := r) ((get (by decide) 0).trans runs) ((get (by decide) 0).trans sound) tested images noPolicy
  rw [eq]
  obtain ⟨f, k, m, frame⟩ := boots.frame
  refine ⟨⟨⟨l, f, u.bootKeys.cus, s.dock, ?_⟩, fun f other i => (boots.get f i).trans (get other i), (boots.get ..).trans step, rfl, ?_, fun whole c i one five img => ?_⟩, ?_⟩
  · rw [frame]
    rfl
  · rw [frame]
    change (s.cus.lifecycle != lcBlank) = decide (s.cus.lifecycle ≠ 0)
    exact Bool.eq_iff_iff.mpr (by simp [lcBlank])
  · exact boots.slots c (by simp only [List.mem_cons]; omega) (by change c < s.cus.slots.length; omega) i img
  · rw [frame]
    rfl

end

/-! ### Repair and the tests of memory (R283 to R288) -/

/-- The factory entries in force are among those of the report. -/
theorem applyImage_spec (s : State) (r : StartReport) : ∃ f, (∀ x ∈ f, x ∈ r.factory) ∧
    s.applyImage r = { s with dock := { s.dock with factory := f, inForce := f ++ s.dock.burned } } := by
  refine ⟨_, ?_, rfl⟩
  have among (l k : List Repair) (sub : ∀ x ∈ k, x ∈ r.factory) (rest : ∀ x ∈ l, x ∈ r.factory) : ∀ x ∈ l.foldl
      (fun l x => if decide ((l.filter fun y => x.sameMacro y).length < 3) && x.valid then l ++ [x] else l) k, x ∈ r.factory := by
    induction l generalizing k with
    | nil => exact sub
    | cons y l ih =>
      rw [List.foldl_cons]
      refine ih _ (fun x hx => ?_) fun x hx => rest x (List.mem_cons_of_mem _ hx)
      split at hx
      · rcases List.mem_append.mp hx with old | new
        · exact sub x old
        · exact rest x (List.mem_singleton.mp new ▸ List.mem_cons_self)
      · exact sub x hx
  exact among _ [] (by simp) fun x hx => hx

section
variable {s : State} {r : StartReport}

theorem found_nil (none' : r.macros = []) (u : State) : u.found r = [] := by
  unfold State.found
  rw [none']
  rfl

theorem stillFailing_nil (none' : r.macros = []) (u : State) : u.stillFailing r = [] := by
  unfold State.stillFailing
  rw [found_nil none']
  rfl

/-- A macro that no entry in force replaces and that `AUTO` does not burn still fails. -/
theorem mem_stillFailing {u : State} {m : Repair × Bool} (failing : m ∈ r.macros) (bare : ∀ x ∈ u.dock.inForce, x.same m.1 = false)
    (unburned : m.2 = false ∨ u.get DDK_REPAIR_CFG_AUTO 0 = 0) : m.1 ∈ u.stillFailing r := by
  unfold State.stillFailing
  refine List.mem_map.mpr ⟨m, List.mem_filter.mpr ⟨?_, ?_⟩, rfl⟩
  · refine List.mem_filter.mpr ⟨failing, ?_⟩
    rw [Bool.not_eq_true', List.any_eq_false]
    exact fun x hx => by simp [bare x hx]
  · rcases unburned with ends | off
    · simp [ends]
    · have burns : u.burnsFor r = [] := if_neg (by simp [State.flag, off])
      simp [burns]

/-- A record that names a macro leaves start-up's fields and the jobs as they were. -/
theorem nameMacros_spec (l : List Repair) (u : State) : let t := l.foldl State.nameMacro u
    t.get LHS_START_STEP 0 = u.get LHS_START_STEP 0 ∧ t.get HST_SIZE_ID_VALID 0 = u.get HST_SIZE_ID_VALID 0 ∧ t.jobs = u.jobs := by
  induction l generalizing u with
  | nil => exact ⟨rfl, rfl, rfl⟩
  | cons m l ih =>
    obtain ⟨step, valid, jobs⟩ := ih (u.nameMacro m)
    refine ⟨step.trans ?_, valid.trans ?_, jobs.trans ?_⟩
    · exact get_record (by decide) ..
    · exact get_record (by decide) ..
    · unfold State.nameMacro State.logError
      dsimp only
      rw [record_frame]

/-- Start-up stops at the macros named. -/
theorem startFail_named {s u : State} (l : List Repair) (valid : u.get HST_SIZE_ID_VALID 0 = 0) (jobs : u.jobs = s.jobs) :
    Failed s ((l.foldl (fun t x => t.nameMacro x) u).startFail 4) (u.get LHS_START_STEP 0) 4 := by
  obtain ⟨step, valid', jobs'⟩ := nameMacros_spec l u
  rw [← step]
  exact startFail_failed (by decide) (valid'.trans valid) (jobs'.trans jobs)

end

/-- Whether a stack is fenced, after a list of stacks has failed. -/
theorem fenced_foldl (l : List Nat) (u : State) {n : Nat} (n_lt : n < 12) :
    (l.foldl (fun t k => t.fenceStack k 0) u).bitAt HBM_STACK_STATUS_FENCED 0 n = (u.bitAt HBM_STACK_STATUS_FENCED 0 n || decide (n ∈ l)) := by
  have stops (l : List Nat) (t : State) : (l.foldl State.stopLost t).get HBM_STACK_STATUS_FENCED 0 = t.get HBM_STACK_STATUS_FENCED 0 := by
    induction l generalizing t with
    | nil => rfl
    | cons m l ih => exact (ih _).trans ((get_putBitAt_other (by decide) ..).trans (get_putBitAt_other (by decide) ..))
  have one (t : State) (k : Nat) : (t.fenceStack k 0).bitAt HBM_STACK_STATUS_FENCED 0 n = (t.bitAt HBM_STACK_STATUS_FENCED 0 n || decide (n = k)) := by
    rw [fenceStack_eq]
    unfold State.bitAt
    rw [stops, State.get_put_other (by decide)]
    refine (bitAt_putBitAt t (f := HBM_STACK_STATUS_FENCED) n_lt 0 k true).trans ?_
    split
    · next eq => simp [eq]
    · next ne => simp [ne, State.bitAt]
  induction l generalizing u with
  | nil => simp
  | cons k l ih =>
    rw [List.foldl_cons, ih, one]
    simp [Bool.or_assoc]

/-- Failed stacks change their own registers and the salvor. -/
theorem stackOnly_foldl (l : List Nat) (u : State) : StackOnly u (l.foldl (fun t k => t.fenceStack k 0) u) := by
  induction l generalizing u with
  | nil => exact .refl u
  | cons k l ih => exact (stackOnly_fenceStack u k 0).trans (ih _)

theorem stacksUp_fenced {u : State} (fenced : ∀ n, n < 6 → u.bitAt HBM_STACK_STATUS_FENCED 0 n = true) : u.stacksUp 0 = 0 := by
  unfold State.stacksUp
  rw [List.length_eq_zero_iff, List.filter_eq_nil_iff]
  intro n hn
  simp [fenced n (List.mem_range.mp hn)]

theorem stacksUp_whole {u : State} (whole : u.get HBM_STACK_STATUS_FENCED 0 = 0) (d : Nat) : u.stacksUp d = 6 := by
  unfold State.stacksUp
  have up (n : Nat) : (!u.bitAt HBM_STACK_STATUS_FENCED 0 n) = true := by simp [State.bitAt, whole, bit_eq_testBit]
  simp [up]

/-- Memory after its tests, where no macro fails. -/
theorem testStep_passes {u : State} {r : StartReport} (none' : r.macros = []) : ∃ v,
    (v = u ∨ v = u.put DDK_REPAIR_CFG_AUTO 0 0) ∧ ∃ d : Dock, d.berthsFailed = [] ∧ u.testStep r =
      let t := (r.stacksFail.filter fun k => decide (k < 12)).foldl (fun w k => w.fenceStack k 0) { v with dock := d }
      if t.stacksUp 0 == 0 || t.stacksUp 1 == 0 then t.startFail 5 else t := by
  unfold State.testStep
  refine ⟨if r.autoOff then u.put DDK_REPAIR_CFG_AUTO 0 0 else u, by split <;> simp, ?_⟩
  generalize (if r.autoOff then u.put DDK_REPAIR_CFG_AUTO 0 0 else u) = v
  dsimp only
  rw [stillFailing_nil none']
  exact ⟨_, rfl, rfl⟩

/-- A failing macro of the warehouse ends start-up. -/
theorem testStep_fails {s u : State} {r : StartReport} {m : Repair × Bool} (failing : m ∈ r.macros) (warehouse : m.1.kind = 0)
    (bare : ∀ x ∈ u.dock.inForce, x.same m.1 = false) (unburned : m.2 = false ∨ r.autoOff = true ∨ u.get DDK_REPAIR_CFG_AUTO 0 = 0)
    (valid : u.get HST_SIZE_ID_VALID 0 = 0) (jobs : u.jobs = s.jobs) : Failed s (u.testStep r) (u.get LHS_START_STEP 0) 4 := by
  unfold State.testStep
  have kept : let v := if r.autoOff then u.put DDK_REPAIR_CFG_AUTO 0 0 else u
      v.dock = u.dock ∧ (m.2 = false ∨ v.get DDK_REPAIR_CFG_AUTO 0 = 0) ∧ v.get HST_SIZE_ID_VALID 0 = 0 ∧ v.jobs = s.jobs ∧
      v.get LHS_START_STEP 0 = u.get LHS_START_STEP 0 := by
    split
    · exact ⟨rfl, .inr (State.get_put_self ..), (State.get_put_other (by decide) ..).trans valid, jobs, State.get_put_other (by decide) ..⟩
    · next on => exact ⟨rfl, unburned.imp_right fun off => off.resolve_left on, valid, jobs, rfl⟩
  dsimp only at kept ⊢
  generalize (if r.autoOff then u.put DDK_REPAIR_CFG_AUTO 0 0 else u) = v at kept ⊢
  obtain ⟨dock, unburned, valid, jobs, step⟩ := kept
  have still : m.1 ∈ (v.stillFailing r).filter fun m => m.kind == 0 :=
    List.mem_filter.mpr ⟨mem_stillFailing failing (by rw [dock]; exact bare) unburned, by simp [warehouse]⟩
  split
  · next x l eq =>
    rw [← step]
    exact startFail_named (x :: l) valid jobs
  · next eq =>
    rw [eq] at still
    exact absurd still List.not_mem_nil

/-! ### Where start-up stands before each step -/

section
variable {s : State} {r : StartReport}

/-- Repair with an image in order. -/
theorem repaired_passed (boot : Passed s (s.booted r) bootFlds 2) (runs : s.get LHS_START_FAILED 0 = 0) (quiet : r.trip ≠ 3) (repairs : r.repairImageOk = true) :
    Passed s (s.repaired r) bootFlds 3 ∧ ∃ f, (∀ x ∈ f, x ∈ r.factory) ∧ (s.repaired r).dock.inForce = f ++ (s.booted r).dock.burned := by
  have eq : s.repaired r = State.applyImage ((s.booted r).put LHS_START_STEP 0 3) r :=
    (startStep_runs ((boot.get _ (by decide) 0).trans runs) quiet).trans (if_pos repairs)
  obtain ⟨f, among, applied⟩ := applyImage_spec ((s.booted r).put LHS_START_STEP 0 3) r
  rw [eq, applied]
  exact ⟨(boot.begin (by simp [bootFlds]) (by decide)).dock _, f, among, rfl⟩

/-- Memory whose tests show nothing. -/
theorem tested_passed (repaired : Passed s (s.repaired r) bootFlds 3) (runs : s.get LHS_START_FAILED 0 = 0) (quiet : r.trip ≠ 4) (none' : r.macros = [])
    (noStack : r.stacksFail = []) (whole : s.get HBM_STACK_STATUS_FENCED 0 = 0) :
    Passed s (s.tested r) testFlds 4 ∧ (s.tested r).dock.berthsFailed = [] := by
  have eq : s.tested r = State.testStep ((s.repaired r).put LHS_START_STEP 0 4) r :=
    startStep_runs ((repaired.get _ (by decide) 0).trans runs) quiet
  have begun := (repaired.begin (by simp [bootFlds]) (n := 4) (by decide)).mono (m := testFlds) (by simp [bootFlds, testFlds])
  obtain ⟨v, either, d, berths, tests⟩ := testStep_passes (u := (s.repaired r).put LHS_START_STEP 0 4) none'
  have passed : Passed s v testFlds 4 := by
    rcases either with rfl | rfl
    · exact begun
    · exact begun.put (by simp [testFlds]) (by decide) 0 0
  have fenced : State.get { v with dock := d } HBM_STACK_STATUS_FENCED 0 = 0 := (passed.get _ (by decide) 0).trans whole
  rw [noStack] at tests
  rw [eq, tests]
  dsimp only [List.filter_nil, List.foldl_nil]
  rw [if_neg (by rw [stacksUp_whole fenced, stacksUp_whole fenced]; decide)]
  exact ⟨passed.dock d, berths⟩

/-- Every stack of the port die has failed. -/
theorem tested_noStacks (repaired : Passed s (s.repaired r) bootFlds 3) (runs : s.get LHS_START_FAILED 0 = 0) (valid : s.get HST_SIZE_ID_VALID 0 = 0)
    (quiet : r.trip ≠ 4) (none' : r.macros = []) (failing : ∀ k, k < 6 → k ∈ r.stacksFail) : Failed s (s.tested r) 4 5 := by
  have eq : s.tested r = State.testStep ((s.repaired r).put LHS_START_STEP 0 4) r :=
    startStep_runs ((repaired.get _ (by decide) 0).trans runs) quiet
  have begun := (repaired.begin (by simp [bootFlds]) (n := 4) (by decide)).mono (m := testFlds) (by simp [bootFlds, testFlds])
  obtain ⟨v, either, d, -, tests⟩ := testStep_passes (u := (s.repaired r).put LHS_START_STEP 0 4) none'
  have passed : Passed s { v with dock := d } testFlds 4 := by
    rcases either with rfl | rfl
    · exact begun.dock d
    · exact (begun.put (by simp [testFlds]) (by decide) 0 0).dock d
  dsimp only at tests
  have fenced (n : Nat) (n_lt : n < 6) :=
    fenced_foldl (r.stacksFail.filter fun k => decide (k < 12)) { v with dock := d } (n := n) (by omega)
  have only := stackOnly_foldl (r.stacksFail.filter fun k => decide (k < 12)) { v with dock := d }
  generalize List.foldl _ { v with dock := d } _ = t at tests fenced only
  have down : t.stacksUp 0 = 0 := stacksUp_fenced fun n n_lt => (fenced n n_lt).trans (by simp [failing n n_lt, show n < 12 by omega])
  have jobs : t.jobs = s.jobs := by
    rw [only.frame]
    exact passed.jobs
  have stop := startFail_failed (s := s) (cause := 5) (by decide)
    ((only.get HST_SIZE_ID_VALID (by decide) 0).trans ((passed.get _ (by decide) 0).trans valid)) jobs
  rw [(only.get LHS_START_STEP (by decide) 0).trans passed.step] at stop
  rw [eq, tests, if_pos (by simp [down])]
  exact stop

/-- Without a join profile step 5 does nothing. -/
theorem joined_passed (tested : Passed s (s.tested r) testFlds 4) (runs : s.get LHS_START_FAILED 0 = 0) (quiet : r.trip ≠ 5)
    (noProfile : s.pilot.profile = none) : Passed s (s.joined r) testFlds 5 ∧ (s.joined r).dock = (s.tested r).dock := by
  have begun := tested.begin (by simp [testFlds]) (n := 5) (by decide)
  have eq : s.joined r = State.joinStep ((s.tested r).put LHS_START_STEP 0 5) r :=
    startStep_runs ((tested.get _ (by decide) 0).trans runs) quiet
  have same : State.joinStep ((s.tested r).put LHS_START_STEP 0 5) r = (s.tested r).put LHS_START_STEP 0 5 := by
    unfold State.joinStep
    rw [begun.profile.trans noProfile]
  rw [eq, same]
  exact ⟨begun, rfl⟩

/-- Nothing to join, so start-up goes on to its last steps. -/
theorem startUp_finishes (joined : Passed s (s.joined r) testFlds 5) (runs : s.get LHS_START_FAILED 0 = 0) (alone : s.get QUY_POD_CTL_JOIN 0 = 0) :
    s.startUp r = (s.joined r).finish r := by
  have failed := (joined.get LHS_START_FAILED (by decide) 0).trans runs
  have join := (joined.get QUY_POD_CTL_JOIN (by decide) 0).trans alone
  exact (startUp_eq s r).trans (if_neg (by simp [State.joinWaits, State.flag, failed, join]))

end

/-! ### The size table (R608 to R611) -/

/-- What the size table and the limits take, in order. -/
def sizeFlds (r : StartReport) (kp ks hp hs up sp : Nat) : List (Fld × Nat × Nat) := [(HST_SIZE_ID_TABLE_VERSION, 0, 1), (HST_SIZE_ID_BIN, 0, r.bin),
  (HST_SIZE_ID_STEPPING, 0, r.stepping), (HST_SIZE_COMPUTE_KILNS_PORT, 0, kp), (HST_SIZE_COMPUTE_KILNS_STBD, 0, ks),
  (HST_SIZE_COMPUTE_HEARTHS_PORT, 0, kp), (HST_SIZE_COMPUTE_HEARTHS_STBD, 0, ks), (HST_SIZE_COMPUTE_CRANES_PORT, 0, 16 - r.cranesFail.1),
  (HST_SIZE_COMPUTE_CRANES_STBD, 0, 16 - r.cranesFail.2), (HST_SIZE_COMPUTE_STEVEDORES_PORT, 0, 32 - r.stevedoresFail.1),
  (HST_SIZE_COMPUTE_STEVEDORES_STBD, 0, 32 - r.stevedoresFail.2), (HST_SIZE_MEMORY_WHS_MIB_PORT, 0, 224), (HST_SIZE_MEMORY_WHS_MIB_STBD, 0, 224),
  (HST_SIZE_MEMORY_HBM_STACKS_PORT, 0, hp), (HST_SIZE_MEMORY_HBM_STACKS_STBD, 0, hs), (HST_SIZE_MEMORY_HBM_GB_PER_STACK, 0, 64),
  (HST_SIZE_MEMORY_WHS_WAYS, 0, 16), (HST_SIZE_LINKS_QUAYS_UP, 0, up), (HST_SIZE_LINKS_LANES_PER_QUAY, 0, 32), (HST_SIZE_LINKS_SPARE_LANES_PER_QUAY, 0, 2),
  (HST_SIZE_LINKS_SPARE_LANES_INTACT, 0, sp), (HST_SIZE_CLOCK_ARITH_MHZ, 0, 1000), (HST_SIZE_CLOCK_TIDE_STEPS_MIN, 0, 1), (HST_SIZE_CLOCK_TIDE_STEPS_MAX, 0, 8),
  (PLT_LIMIT_KILNS_PORT, 0, kp), (PLT_LIMIT_KILNS_STBD, 0, ks), (HST_SIZE_ID_VALID, 0, 1)]

theorem sizeTable_eq {u : State} (r : StartReport) (kp ks : Nat) (whole : u.get HBM_STACK_STATUS_FENCED 0 = 0) :
    ∃ up sp, u.sizeTable r kp ks = u.puts (sizeFlds r kp ks 6 6 up sp) := by
  have eq : ∃ v hp hs up sp, v = u.puts ((sizeFlds r kp ks 0 0 0 0).take 13) ∧ hp = v.stacksUp 0 ∧ hs = v.stacksUp 1 ∧
      u.sizeTable r kp ks = u.puts (sizeFlds r kp ks hp hs up sp) := ⟨_, _, _, _, _, rfl, rfl, rfl, rfl⟩
  obtain ⟨v, hp, hs, up, sp, hv, rfl, rfl, eq⟩ := eq
  have fenced : v.get HBM_STACK_STATUS_FENCED 0 = 0 :=
    hv ▸ (get_puts_other (by simp only [sizeFlds, List.take, List.forall_mem_cons]; decide) u 0).trans whole
  rw [stacksUp_whole fenced, stacksUp_whole fenced] at eq
  exact ⟨up, sp, eq⟩

/-- A field among fields that are all different holds what was written to it. -/
theorem get_puts_mem {l : List (Fld × Nat × Nat)} {f : Fld} {i v : Nat} (apart : (l.map fun p => p.1.ord % 512).Nodup) (listed : (f, i, v) ∈ l) (s : State) :
    (s.puts l).get f i = v % 2 ^ f.width := by
  obtain ⟨j, k, rfl⟩ := List.append_of_mem listed
  refine get_puts_last (fun p hp same => ?_) s
  rw [List.map_append, List.map_cons, List.nodup_append] at apart
  obtain ⟨-, second, -⟩ := apart
  exact (List.nodup_cons.mp second).1 (List.mem_map.mpr ⟨p, hp, same.symm⟩)

/-- The fields of the size table and the limits are all different. -/
theorem sizeFlds_apart (r : StartReport) (kp ks hp hs up sp : Nat) : ((sizeFlds r kp ks hp hs up sp).map fun p => p.1.ord % 512).Nodup := by
  simp only [sizeFlds, List.map_cons, List.map_nil]
  decide

/-- What the size table says, and that it is valid. -/
theorem sizeTable_spec {u : State} {r : StartReport} {kp ks : Nat} (whole : u.get HBM_STACK_STATUS_FENCED 0 = 0) (bin : r.bin ≤ 3) (kp_le : kp ≤ 80)
    (ks_le : ks ≤ 80) : let t := u.sizeTable r kp ks
    t = { u with flds := t.flds } ∧ t.get LHS_START_STEP 0 = u.get LHS_START_STEP 0 ∧ t.get LHS_START_FAILED 0 = u.get LHS_START_FAILED 0 ∧
    t.get HST_SIZE_ID_VALID 0 = 1 ∧ t.get HST_SIZE_ID_BIN 0 = r.bin ∧ t.get HST_SIZE_COMPUTE_KILNS_PORT 0 = kp ∧ t.get HST_SIZE_COMPUTE_KILNS_STBD 0 = ks ∧
    t.get HST_SIZE_COMPUTE_CRANES_PORT 0 = 16 - r.cranesFail.1 ∧ t.get HST_SIZE_COMPUTE_STEVEDORES_STBD 0 = 32 - r.stevedoresFail.2 ∧
    t.get HST_SIZE_MEMORY_HBM_STACKS_PORT 0 = 6 ∧ t.get HST_SIZE_MEMORY_WHS_MIB_STBD 0 = 224 := by
  obtain ⟨up, sp, eq⟩ := sizeTable_eq r kp ks whole
  have small {v : Nat} (le : v ≤ 80) : v % 2 ^ 8 = v := Nat.mod_eq_of_lt (by omega)
  have get {f : Fld} {v : Nat} (listed : (f, 0, v) ∈ sizeFlds r kp ks 6 6 up sp) : (u.puts (sizeFlds r kp ks 6 6 up sp)).get f 0 = v % 2 ^ f.width :=
    get_puts_mem (sizeFlds_apart ..) listed u
  have others {f : Fld} (other : ∀ p ∈ sizeFlds r kp ks 6 6 up sp, f.ord % 512 ≠ p.1.ord % 512) := get_puts_other other u 0
  have frame := puts_frame u (sizeFlds r kp ks 6 6 up sp)
  rw [eq]
  refine ⟨frame, others ?_, others ?_, get (v := 1) ?_, (get ?_).trans (small (by omega)), (get ?_).trans (small kp_le), (get ?_).trans (small ks_le),
    (get ?_).trans (small (by omega)), (get ?_).trans (small (by omega)), get (v := 6) ?_, (get (v := 224) ?_).trans (Nat.mod_eq_of_lt (by decide))⟩
  · simp only [sizeFlds, List.forall_mem_cons]; decide
  · simp only [sizeFlds, List.forall_mem_cons]; decide
  all_goals simp [sizeFlds]

/-! ### The last two steps (R608 to R611) -/

section
variable {s u : State} {r : StartReport}

theorem kilnsLeft_eq (r : StartReport) (d : Nat) : kilnsLeft r [] d = binKilns r.bin - (if d == 0 then r.kilnsFail.1 else r.kilnsFail.2) := rfl

/-- The self-check finds no kiln on a die. -/
theorem finish_noKilns (joined : Passed s u testFlds 5) (runs : s.get LHS_START_FAILED 0 = 0) (valid : s.get HST_SIZE_ID_VALID 0 = 0) (quiet : r.trip = 0)
    (berths : u.dock.berthsFailed = []) (none' : binKilns r.bin ≤ r.kilnsFail.1 ∨ binKilns r.bin ≤ r.kilnsFail.2) : Failed s (u.finish r) 6 6 := by
  have begun := joined.begin (by simp [testFlds]) (n := 6) (by decide)
  have gone : (kilnsLeft r u.dock.berthsFailed 0 == 0 || kilnsLeft r u.dock.berthsFailed 1 == 0) = true := by
    rw [berths, kilnsLeft_eq, kilnsLeft_eq]
    simpa [Nat.sub_eq_zero_iff_le] using none'
  have first : (u.startStep r.trip 6 fun t => if kilnsLeft r u.dock.berthsFailed 0 == 0 || kilnsLeft r u.dock.berthsFailed 1 == 0 then t.startFail 6 else t) =
      (u.put LHS_START_STEP 0 6).startFail 6 :=
    (startStep_runs ((joined.get _ (by decide) 0).trans runs) (by omega)).trans (if_pos gone)
  have fails := startFail_failed (s := s) (cause := 6) (by decide) ((begun.get _ (by decide) 0).trans valid) begun.jobs
  rw [begun.step] at fails
  unfold State.finish
  dsimp only
  rw [first]
  generalize State.startFail _ 6 = t at fails
  rw [startStep_failed (by rw [fails.1]; decide)]
  exact fails

/-- A comparator trips at one of the last two steps. -/
theorem finish_trips (joined : Passed s u testFlds 5) (runs : s.get LHS_START_FAILED 0 = 0) (valid : s.get HST_SIZE_ID_VALID 0 = 0)
    (berths : u.dock.berthsFailed = []) (port : r.kilnsFail.1 < binKilns r.bin) (stbd : r.kilnsFail.2 < binKilns r.bin) (trips : r.trip = 6 ∨ r.trip = 7) :
    Failed s (u.finish r) r.trip 7 := by
  have runs' := (joined.get LHS_START_FAILED (by decide) 0).trans runs
  have valid' := (joined.get HST_SIZE_ID_VALID (by decide) 0).trans valid
  unfold State.finish
  dsimp only
  rcases trips with six | seven
  · have fails := startStep_tripFails (s := s) (trip := r.trip) (work := fun t =>
      if kilnsLeft r u.dock.berthsFailed 0 == 0 || kilnsLeft r u.dock.berthsFailed 1 == 0 then t.startFail 6 else t) runs' six (by decide) valid' joined.jobs
    generalize State.startStep u r.trip 6 _ = t at fails
    rw [startStep_failed (by rw [fails.1]; decide), six]
    exact fails
  · have begun := joined.begin (by simp [testFlds]) (n := 6) (by decide)
    have left : (kilnsLeft r u.dock.berthsFailed 0 == 0 || kilnsLeft r u.dock.berthsFailed 1 == 0) = false := by
      rw [berths, kilnsLeft_eq, kilnsLeft_eq]
      simpa [Nat.sub_eq_zero_iff_le] using And.intro port stbd
    have first : (u.startStep r.trip 6 fun t => if kilnsLeft r u.dock.berthsFailed 0 == 0 || kilnsLeft r u.dock.berthsFailed 1 == 0 then t.startFail 6 else t) =
        u.put LHS_START_STEP 0 6 :=
      (startStep_runs runs' (by omega)).trans (if_neg (by rw [left]; exact Bool.false_ne_true))
    rw [first, seven]
    exact startStep_tripFails ((begun.get _ (by decide) 0).trans runs) rfl (by decide) ((begun.get _ (by decide) 0).trans valid) begun.jobs

/-- With kilns on both dies and no trip the size table is written. -/
theorem finish_eq (joined : Passed s u testFlds 5) (runs : s.get LHS_START_FAILED 0 = 0) (berths : u.dock.berthsFailed = [])
    (port : r.kilnsFail.1 < binKilns r.bin) (stbd : r.kilnsFail.2 < binKilns r.bin) (quiet : r.trip = 0) : ∃ v, Passed s v testFlds 7 ∧
    u.finish r = (v.sizeTable r (binKilns r.bin - r.kilnsFail.1) (binKilns r.bin - r.kilnsFail.2)).logStart := by
  have six := joined.begin (by simp [testFlds]) (n := 6) (by decide)
  have seven := six.begin (by simp [testFlds]) (n := 7) (by decide)
  have left : (kilnsLeft r u.dock.berthsFailed 0 == 0 || kilnsLeft r u.dock.berthsFailed 1 == 0) = false := by
    rw [berths, kilnsLeft_eq, kilnsLeft_eq]
    simpa [Nat.sub_eq_zero_iff_le] using And.intro port stbd
  have first : (u.startStep r.trip 6 fun t => if kilnsLeft r u.dock.berthsFailed 0 == 0 || kilnsLeft r u.dock.berthsFailed 1 == 0 then t.startFail 6 else t) =
      u.put LHS_START_STEP 0 6 :=
    (startStep_runs ((joined.get _ (by decide) 0).trans runs) (by omega)).trans (if_neg (by rw [left]; exact Bool.false_ne_true))
  refine ⟨_, seven, ?_⟩
  unfold State.finish
  dsimp only
  rw [first, startStep_runs ((six.get _ (by decide) 0).trans runs) (by omega), berths, kilnsLeft_eq, kilnsLeft_eq]
  rfl

end

theorem binKilns_le (b : Nat) : binKilns b ≤ 80 := by
  unfold binKilns
  split <;> omega

end Sys2Proof.Machine
end

section
namespace Sys2Proof.Safety

open Sys2Proof.Machine

section
variable {s : State} {r : StartReport}

theorem startUp_run (mode : s.power.mode = .run) (valid : s.get HST_SIZE_ID_VALID 0 = 0) (runs : s.get LHS_START_FAILED 0 = 0) (bin : 1 ≤ r.bin ∧ r.bin ≤ 3) :
    exec (.startUp r) s = if s.get LHS_START_STEP 0 < 3 then .next (s.startUp r) else if s.joinWaits then .next s else .next (s.finish r) :=
  if_neg (by simp [mode, State.flag, valid, runs, bin.1, bin.2])

end

/-- Settles O60: each failing step by the state before it (`Passed`) and the cause that it leaves (`Failed`), and the size table by the fields that it writes. -/
theorem startUpRunsInOrder : Obligations.StartUpRunsInOrder := by
  unfold Obligations.StartUpRunsInOrder
  refine ⟨?goesOn, ?burns, ?steps⟩
  case goesOn =>
    intro s r mode valid runs least most late
    have run := startUp_run mode valid runs ⟨least, most⟩
    rw [if_neg (by omega)] at run
    exact ⟨fun waits => run.trans (if_pos waits), fun waits => run.trans (if_neg (by rw [waits]; exact Bool.false_ne_true))⟩
  case burns =>
    intro s m b r macros bare
    have found : s.found r = [(m, b)] := by
      unfold State.found
      rw [macros, List.filter_cons_of_pos, List.filter_nil]
      rw [Bool.not_eq_true', List.any_eq_false]
      exact fun x hx => by simp [bare x hx]
    have alone : (List.filter (fun n : Repair × Bool => n.1.sameMacro m) [(m, b)]).length = 1 := by
      simp [Repair.sameMacro]
    refine ⟨fun ends => ?_, fun mends auto unused => ?_⟩
    · have kept : (b && (s.burnsFor r).contains (m, b)) = false := by
        rcases ends with rfl | off | ⟨x, hx, same⟩
        · rfl
        · have none' : s.burnsFor r = [] := if_neg (by simp [State.flag, off])
          simp [none']
        · have none' : s.burnsFor r = [] := by
            unfold State.burnsFor
            split
            · rw [found, List.filter_cons_of_neg, List.filter_nil]
              have used : s.dock.burned.any (fun b => b.sameMacro m) = true := List.any_eq_true.mpr ⟨x, hx, same⟩
              simp [used]
            · rfl
          simp [none']
      unfold State.stillFailing
      rw [found, List.filter_cons_of_pos (by
        dsimp only
        rw [kept]
        rfl)]
      rfl
    · subst mends
      have burns : s.burnsFor r = [(m, true)] := by
        unfold State.burnsFor
        rw [if_pos (by simp [State.flag, auto]), found, List.filter_cons_of_pos, List.filter_nil]
        have free : s.dock.burned.any (fun b => b.sameMacro m) = false := List.any_eq_false.mpr fun x hx => by simp [unused x hx]
        simp [alone, free]
      refine ⟨?_, ?_⟩
      · unfold State.stillFailing
        rw [found, List.filter_cons_of_neg (by simp [burns])]
        rfl
      · unfold State.autoRepair
        rw [burns]
        rfl
  case steps =>
    intro s r mode valid runs least most early failed images booted wired offered
    have run : exec (.startUp r) s = .next (s.startUp r) := (startUp_run mode valid runs ⟨least, most⟩).trans (if_pos early)
    have fails {t : State} {step cause : Nat} (eq : s.startUp r = t) (stop : Failed s t step cause) : failed step cause := ⟨t, eq ▸ run, stop⟩
    have one {n : Nat} (eq : n = 1) : n ≠ 0 := by omega
    have boot (good : booted) (quiet : r.trip ≠ 2) : Passed s (s.booted r) bootFlds 2 ∧ (s.booted r).dock = s.dock := by
      obtain ⟨tested, sound, images, noPolicy, -⟩ := good
      exact booted_passed runs sound tested images noPolicy quiet
    have offers : offered = binKilns r.bin := by
      change (if r.bin = 2 then 72 else 80) = if r.bin == 2 then 72 else 80
      simp only [beq_iff_eq]
    have join (w : wired) (quiet : r.trip ≠ 2 ∧ r.trip ≠ 3 ∧ r.trip ≠ 4 ∧ r.trip ≠ 5) :
        Passed s (s.joined r) testFlds 5 ∧ (s.joined r).dock.berthsFailed = [] ∧ s.startUp r = (s.joined r).finish r := by
      obtain ⟨good, repairs, none', noStack, whole, noProfile, alone⟩ := w
      obtain ⟨repaired, -⟩ := repaired_passed (boot good quiet.1).1 runs quiet.2.1 repairs
      obtain ⟨tested, berths⟩ := tested_passed repaired runs quiet.2.2.1 none' noStack whole
      obtain ⟨joined, same⟩ := joined_passed tested runs quiet.2.2.2 noProfile
      exact ⟨joined, (congrArg Dock.berthsFailed same).trans berths, startUp_finishes joined runs alone⟩
    have cold : (s.put LHS_START_COLD 0 (b2n s.power.cold)).get LHS_START_FAILED 0 = 0 := (State.get_put_other (by decide) ..).trans runs
    have atBoot (trips : r.trip = 2) : failed 2 7 := by
      have stop : Failed s (s.booted r) 2 7 :=
        startStep_tripFails cold trips (by decide) ((State.get_put_other (by decide) ..).trans valid) rfl
      exact fails (startUp_of_booted (one stop.1)) stop
    have begun {f : Fld} (other : ∀ g ∈ bootFlds, f.ord % 512 ≠ g.ord % 512) := get_begun other s (b2n s.power.cold) 2 0
    have step : ((s.put LHS_START_COLD 0 (b2n s.power.cold)).put LHS_START_STEP 0 2).get LHS_START_STEP 0 = 2 := State.get_put_self ..
    refine ⟨atBoot, ?selfTest, ?noImage, ?repair, ?macros, ?dies, ?kilns, ?trips, ?succeeds⟩
    case selfTest =>
      intro quiet broken
      have eq := booted_eq (r := r) runs quiet
      have valid' := (begun (f := HST_SIZE_ID_VALID) (by decide)).trans valid
      have error := begun (f := CUS_STATUS_ERROR) (by decide)
      generalize same : (s.put LHS_START_COLD 0 (b2n s.power.cold)).put LHS_START_STEP 0 2 = w at step eq valid' error
      have bad : w.bootStep r = w.customsError := if_pos (by
        rcases broken with tests | error'
        · simp [tests]
        · simp [State.flag, error, error'])
      have stop := startFail_failed (s := s) (t := (w.put CUS_STATUS_ERROR 0 1).put CUS_STATUS_ERROR_SOURCE 0 0xFF) (cause := 1) (by decide)
        ((State.get_put_other (by decide) ..).trans ((State.get_put_other (by decide) ..).trans valid')) (same ▸ rfl)
      rw [(State.get_put_other (by decide) ..).trans ((State.get_put_other (by decide) ..).trans step)] at stop
      have stop' : Failed s (s.booted r) 2 1 := by
        rw [eq, bad]
        exact stop
      exact fails (startUp_of_booted (one stop'.1)) stop'
    case noImage =>
      intro quiet tests sound empty
      have eq := booted_eq (r := r) runs quiet
      have valid' := (begun (f := HST_SIZE_ID_VALID) (by decide)).trans valid
      have error := (begun (f := CUS_STATUS_ERROR) (by decide)).trans sound
      have runs' := (begun (f := LHS_START_FAILED) (by decide)).trans runs
      generalize same : (s.put LHS_START_COLD 0 (b2n s.power.cold)).put LHS_START_STEP 0 2 = w at step eq valid' error runs'
      rw [bootStep_noImage runs' error tests (same ▸ empty)] at eq
      have stop := startFail_failed (s := s) (t := w.measure 1 0) (cause := 2) (by decide) valid' (same ▸ rfl)
      rw [show (w.measure 1 0).get LHS_START_STEP 0 = 2 from step, ← eq] at stop
      exact fails (startUp_of_booted (one stop.1)) stop
    case repair =>
      intro good quiet noImage
      have first := (boot good (by omega)).1
      have begins := first.begin (n := 3) (by simp [bootFlds]) (by decide)
      have eq : s.repaired r = State.startFail ((s.booted r).put LHS_START_STEP 0 3) 3 :=
        (startStep_runs ((first.get _ (by decide) 0).trans runs) (by omega)).trans (if_neg (by rw [noImage]; exact Bool.false_ne_true))
      have stop := startFail_failed (s := s) (cause := 3) (by decide) ((begins.get _ (by decide) 0).trans valid) begins.jobs
      rw [begins.step, ← eq] at stop
      exact fails (startUp_of_repaired (one stop.1)) stop
    case macros =>
      rintro good quiet repairs ⟨m, listed, warehouse, bare, unburned⟩
      obtain ⟨first, dock⟩ := boot good (by omega)
      obtain ⟨second, f, among, inForce⟩ := repaired_passed first runs (by omega) repairs
      have begins := second.begin (n := 4) (by simp [bootFlds]) (by decide)
      have eq : s.tested r = State.testStep ((s.repaired r).put LHS_START_STEP 0 4) r :=
        startStep_runs ((second.get _ (by decide) 0).trans runs) (by omega)
      rw [dock] at inForce
      have still : ∀ x ∈ (s.repaired r).dock.inForce, x.same m.1 = false := fun x hx => bare x (by
        rw [inForce, List.mem_append] at hx
        exact List.mem_append.mpr (hx.imp_left (among x)))
      have stop := testStep_fails (s := s) (u := (s.repaired r).put LHS_START_STEP 0 4) (r := r) listed warehouse still
        (unburned.imp_right (Or.imp_right (begins.get _ (by decide) 0).trans)) ((begins.get _ (by decide) 0).trans valid) begins.jobs
      rw [begins.step, ← eq] at stop
      exact fails (startUp_of_tested (one stop.1)) stop
    case dies =>
      intro good quiet repairs none' failing
      obtain ⟨first, -⟩ := boot good (by omega)
      obtain ⟨second, -⟩ := repaired_passed first runs (by omega) repairs
      have stop := tested_noStacks second runs valid (by omega) none' failing
      exact fails (startUp_of_tested (one stop.1)) stop
    case kilns =>
      intro w quiet gone
      obtain ⟨joined, berths, eq⟩ := join w (by omega)
      rw [offers] at gone
      exact fails eq (finish_noKilns joined runs valid quiet berths gone)
    case trips =>
      intro w port stbd k least most trips
      rw [offers] at port stbd
      subst trips
      by_cases two : r.trip = 2
      · rw [two]
        exact atBoot two
      have first := (boot w.1 two).1
      by_cases three : r.trip = 3
      · have stop : Failed s (s.repaired r) 3 7 := startStep_tripFails ((first.get _ (by decide) 0).trans runs) three (by decide)
          ((first.get _ (by decide) 0).trans valid) first.jobs
        rw [three]
        exact fails (startUp_of_repaired (one stop.1)) stop
      obtain ⟨good, repairs, none', noStack, whole, -⟩ := id w
      have second := (repaired_passed first runs three repairs).1
      by_cases four : r.trip = 4
      · have stop : Failed s (s.tested r) 4 7 := startStep_tripFails ((second.get _ (by decide) 0).trans runs) four (by decide)
          ((second.get _ (by decide) 0).trans valid) second.jobs
        rw [four]
        exact fails (startUp_of_tested (one stop.1)) stop
      have third := (tested_passed second runs four none' noStack whole).1
      by_cases five : r.trip = 5
      · have stop : Failed s (s.joined r) 5 7 := startStep_tripFails ((third.get _ (by decide) 0).trans runs) five (by decide)
          ((third.get _ (by decide) 0).trans valid) third.jobs
        rw [five]
        exact fails (startUp_of_joined (one stop.1)) stop
      obtain ⟨joined, berths, eq⟩ := join w ⟨two, three, four, five⟩
      exact fails eq (finish_trips joined runs valid berths port stbd (by omega))
    case succeeds =>
      intro w quiet port stbd
      rw [offers] at port stbd
      obtain ⟨joined, berths, eq⟩ := join w (by omega)
      obtain ⟨v, passed, finish⟩ := finish_eq joined runs berths port stbd quiet
      obtain ⟨-, -, -, -, whole, -, -⟩ := w
      have le := binKilns_le r.bin
      obtain ⟨frame, step', failed', valid', bin, kp, ks, cranes, stevedores, hbm, whs⟩ := sizeTable_spec (u := v) (r := r)
        (kp := binKilns r.bin - r.kilnsFail.1) (ks := binKilns r.bin - r.kilnsFail.2) ((passed.get _ (by decide) 0).trans whole) most (by omega) (by omega)
      rw [offers]
      refine ⟨_, run.trans (congrArg Host.Outcome.next (eq.trans finish)), ?_⟩
      generalize State.sizeTable v r _ _ = u at *
      have cus : u.cus = v.cus := by rw [frame]
      have mem : u.mem = v.mem := by rw [frame]
      have jobs : u.jobs = v.jobs := by rw [frame]
      refine ⟨step'.trans passed.step, failed'.trans ((passed.get _ (by decide) 0).trans runs), valid', bin, kp, ks, cranes, stevedores, hbm, whs, ?_, ?_,
        mem.trans passed.mem, jobs.trans passed.jobs, fun seven c i one five img => ?_⟩
      · exact (congrArg Customs.drbg cus).trans passed.drbg
      · exact (congrArg Customs.identity cus).trans passed.identity
      · exact (congrArg (fun x : Customs => x.slots.getD c 0) cus).trans (passed.slots seven c i one five img)

end Sys2Proof.Safety
end


section
/-! SUPPORT. A LAYER of one row and one group: what its tiles read is the same throughout, its tables are charged once, its columns enter
together, and its row goes through the output stage. -/

namespace Sys2Proof.Machine

open Sys2Proof.Safety

/-! ### Bytes under reports -/

section
variable {s t : State} (h : Reports s t)
include h

theorem Reports.setOf (a : Nat) : t.setOf a = s.setOf a := by
  have bytes (n : Nat) : t.setBytes n = s.setBytes n := by rw [State.setBytes, h.get (by decide)]; rfl
  have base (n : Nat) : t.setBase n = s.setBase n := by simp only [State.setBase, bytes]
  unfold State.setOf
  simp only [bytes, base]

theorem Reports.byte (a : Nat) : t.byte a = s.byte a := by
  unfold State.byte
  simp only [h.veiled, h.setOf, h.undef, h.mem]

end

/-! ### What a LAYER's work looks at -/

/-- Memory, its tags, marks and origins, and the ready bits are the same. -/
structure Sees (u t : State) : Prop where
  byte : ∀ a, t.byte a = u.byte a
  tags : t.tags = u.tags
  ecc : t.ecc = u.ecc
  origins : t.origins = u.origins
  ready : t.ready = u.ready

section
variable {u t : State} (h : Sees u t)
include h

theorem Sees.num (a n : Nat) : t.num a n = u.num a n := by
  unfold State.num State.bytes
  simp only [h.byte]

theorem Sees.notReady (k : Nat) (x : KCtx) (m : List Nat) : t.notReady k x m = u.notReady k x m := by
  unfold State.notReady State.isReady
  rw [h.ready]

theorem Sees.badWord (w : Nat) : t.badWord w = u.badWord w := by
  unfold State.badWord
  rw [h.ecc]

theorem Sees.firstBad (a n : Nat) : t.firstBad a n = u.firstBad a n := by
  unfold State.firstBad
  simp only [h.badWord]

theorem Sees.slipOf (l : LayerCmd) (o γ i : Nat) : t.slipOf l o γ i = u.slipOf l o γ i := by
  unfold State.slipOf
  simp only [h.byte, h.tags]

theorem Sees.codebookAt (l : LayerCmd) (o i : Nat) : t.codebookAt l o i = u.codebookAt l o i := by
  unfold State.codebookAt
  simp only [h.byte]

theorem Sees.badCodebook (l : LayerCmd) (o i : Nat) : t.badCodebook l o i = u.badCodebook l o i := by
  unfold State.badCodebook
  rw [h.codebookAt]

theorem Sees.chargeRow (l : LayerCmd) (o row γ : Nat) : t.chargeRow l o row γ = u.chargeRow l o row γ := by
  unfold State.chargeRow
  simp only [h.byte]

theorem Sees.tablesOf (l : LayerCmd) (o : Nat) (p : Nat × Nat × Nat) (ch : Charged) : t.tablesOf l o p ch = u.tablesOf l o p ch := by
  unfold State.tablesOf
  simp only [h.codebookAt]

theorem Sees.canCharge (k : Nat) (x : KCtx) (l : LayerCmd) (p : Nat × Nat × Nat) : t.canCharge k x l p = u.canCharge k x l p := by
  unfold State.canCharge
  simp only [h.notReady, h.badCodebook, h.firstBad]

theorem Sees.product (l : LayerCmd) (o i col : Nat) (g : LutGroup) : t.product l o i col g = u.product l o i col g := by
  unfold State.product
  simp only [h.byte]

theorem Sees.columnScale (l : LayerCmd) (a col : Nat) : t.columnScale l a col = u.columnScale l a col := by
  unfold State.columnScale
  simp only [h.num]

theorem Sees.tilesOf (x : KCtx) (rs : List (Nat × Nat)) : t.tilesOf x rs = u.tilesOf x rs := by
  unfold State.tilesOf
  rw [h.origins]

/-- Words without a mark are read with nothing to correct. -/
theorem Sees.touch {rs : List (Nat × Nat)} (unmarked : ∀ p ∈ rs, ∀ n ∈ wordsOf p.1 p.2, Tab.find n u.ecc = none) : t.touch rs = .ok t := by
  have clean : ∀ w ∈ rs.flatMap fun p => wordsOf p.1 p.2, Tab.find w t.ecc = none := fun w hw => by
    obtain ⟨p, hp, hw⟩ := List.mem_flatMap.mp hw
    rw [h.ecc]
    exact unmarked p hp w hw
  unfold State.touch
  dsimp only
  rw [if_neg (by simpa using fun p q hp w hw => badWord_of_unmarked (clean w (List.mem_flatMap.mpr ⟨(p, q), hp, hw⟩))), correctWords_unmarked clean]

end

/-! ### A task on the lookup path -/

/-- Only a task's context, its kiln's tables and counters that no access looks at have changed. -/
structure OnPath (u t : State) (k c : Nat) : Prop where
  frame : t = { u with flds := t.flds, ctxs := t.ctxs, kilns := t.kilns }
  beside : Beside u t
  others : ∀ d, d ≠ 4 * k + c → Tab.find d t.ctxs = Tab.find d u.ctxs

section
variable {u t : State} {k c : Nat} (h : OnPath u t k c)

theorem OnPath.refl (u : State) (k c : Nat) : OnPath u u k c := ⟨rfl, .refl u, fun _ _ => rfl⟩

include h

theorem OnPath.sees : Sees u t := by
  have frame := h.frame
  refine ⟨h.beside.byte, ?_, h.beside.ecc, h.beside.origins, ?_⟩
  · rw [frame]
  · rw [frame]

theorem OnPath.jobs : t.jobs = u.jobs := by rw [h.frame]
theorem OnPath.streams : t.streams = u.streams := by rw [h.frame]

theorem OnPath.putCtx (y : KCtx) : OnPath u (t.putCtx k c y) k c :=
  ⟨congrArg (fun v : State => v.putCtx k c y) h.frame, h.beside.trans ⟨rfl, fun _ _ _ => rfl⟩, fun d other => (find_putCtx t k c y other).trans (h.others d other)⟩

theorem OnPath.putKiln (n : Nat) (q : Kiln) : OnPath u (t.putKiln n q) k c :=
  ⟨congrArg (fun v : State => v.putKiln n q) h.frame, h.beside.trans ⟨rfl, fun _ _ _ => rfl⟩, h.others⟩

theorem OnPath.inc {f : Fld} (unread : f ∈ unreadFlds) (i n : Nat) : OnPath u (t.inc f i n) k c := by
  refine ⟨?_, h.beside.inc unread i n, h.others⟩
  have frame := h.frame
  generalize t.flds = l, t.ctxs = m, t.kilns = q at frame
  subst frame
  rfl

end

/-! ### A LAYER of one row and one group -/

/-- One row, one group, with accumulators from zero to the output stage. -/
structure LayerCmd.Single (l : LayerCmd) : Prop where
  rows : l.rows = 1
  groups : l.groups = 1
  pinned : l.pinned = 0
  accIn : l.accIn = 0
  accOut : l.accOut = 0
  strips : 0 < l.strips
  size : l.G ≤ 128
  block : l.wf.isC4 = false ∨ l.strips = 1

/-- Every tile of the one group of the one row is ready, unmarked and verified, and the group can be charged. -/
structure State.AllIn (u : State) (k : Nat) (x : KCtx) (l : LayerCmd) : Prop where
  charge : u.canCharge k x l (0, 0, 0) = true
  inTime : ∀ i, i < l.strips → u.notReady k x (l.needs 0 0 i) = []
  verified : ∀ i, i < l.strips → u.slipOf l (x.origin k) 0 i = none
  finite : ∀ i, i < l.strips → u.badCodebook l (x.origin k) i = false
  unmarked : ∀ i, i < l.strips → ∀ p ∈ l.reads (x.origin k) 0 0 i, ∀ n ∈ wordsOf p.1 p.2, Tab.find n u.ecc = none

/-- The group's contribution to a column (R121). -/
def State.columnSum (s : State) (l : LayerCmd) (o : Nat) (g : LutGroup) (n : Nat) : Nat :=
  let sc := s.columnScale l (l.scaleAddr o (n / l.wf.stripCols)) (n % l.wf.stripCols)
  groupRescale sc.1 (s.num (l.blockAddr o 0 + 16) 4) g.exp sc.2 (s.product l o (n / l.wf.stripCols) (n % l.wf.stripCols) g).1 g.sum 0

/-- It depends on memory's bytes alone. -/
theorem columnSum_congr {s t : State} (same : ∀ a, t.byte a = s.byte a) (l : LayerCmd) (o : Nat) (g : LutGroup) (n : Nat) :
    t.columnSum l o g n = s.columnSum l o g n := by
  unfold State.columnSum State.columnScale State.product State.num State.bytes
  simp only [same]

theorem stripCols_pos (f : WFmt) : 0 < f.stripCols := by
  unfold WFmt.stripCols
  split <;> omega

theorem firstTile_zero (l : LayerCmd) : l.firstTile 0 = 0 := by
  unfold LayerCmd.firstTile
  rw [Nat.zero_sub, Nat.zero_mul]

section
variable {l : LayerCmd} (one : l.Single)
include one

theorem LayerCmd.Single.accKey (row n : Nat) : l.accKey row n = n := by
  unfold LayerCmd.accKey
  rw [one.accIn, one.accOut]
  rfl

/-- The row's accumulators start at zero. -/
theorem LayerCmd.Single.startRow (x : KCtx) (row : Nat) {n : Nat} (n_lt : n < l.N) : Tab.get (fun _ => 0) (l.startRow x row) n = 0 := by
  have start : l.startRow x row = ((List.range l.N).map fun m => (id m, (fun _ => 0 : Nat → Nat) m)).foldl (fun a e => Tab.insert e.1 e.2 a) x.acc := by
    unfold LayerCmd.startRow
    rw [one.accIn, List.foldl_map]
    simp only [one.accKey]
    rfl
  rw [start]
  exact (get_foldl_insert _ id _ (fun _ _ h => h) _ _ n).trans (if_pos (List.mem_range.mpr n_lt))

end

/-- A column lies in the strip of its number. -/
theorem mem_columns {l : LayerCmd} {i n : Nat} : n ∈ l.columns i ↔ n / l.wf.stripCols = i ∧ n < l.N := by
  have pos := stripCols_pos l.wf
  unfold LayerCmd.columns
  simp only [List.mem_map, List.mem_range]
  constructor
  · rintro ⟨j, hj, rfl⟩
    refine ⟨?_, by omega⟩
    rw [Nat.mul_comm, Nat.mul_add_div pos, Nat.div_eq_of_lt (by omega)]
    omega
  · rintro ⟨rfl, hn⟩
    refine ⟨n % l.wf.stripCols, ?_, ?_⟩
    · have lt := Nat.mod_lt n pos
      have split := Nat.div_add_mod' n l.wf.stripCols
      omega
    · exact Nat.div_add_mod' n l.wf.stripCols

/-- Every column lies in a strip of the LAYER. -/
theorem div_lt_strips {l : LayerCmd} {n : Nat} (n_lt : n < l.N) : n / l.wf.stripCols < l.strips := by
  have pos := stripCols_pos l.wf
  unfold LayerCmd.strips ceilDiv
  rw [Nat.lt_div_iff_mul_lt pos]
  have split := Nat.div_add_mod' n l.wf.stripCols
  omega

/-! ### Charging (R84 to R88) -/

theorem active_exchange (q : Kiln) : q.exchange.active = q.idle := by
  unfold Kiln.exchange Kiln.setIdle Kiln.active Kiln.idle
  cases q.bank <;> rfl

theorem idle_setIdle (q : Kiln) (gs : List LutGroup) : (q.setIdle gs).idle = gs := by
  unfold Kiln.setIdle Kiln.idle
  cases q.bank <;> simp

theorem active_setIdle (q : Kiln) (gs : List LutGroup) : (q.setIdle gs).active = q.active := by
  unfold Kiln.setIdle Kiln.active
  cases q.bank <;> simp

theorem unit_tablesOf (s : State) (l : LayerCmd) (o : Nat) (p : Nat × Nat × Nat) (ch : Charged) : (s.tablesOf l o p ch).unit = p := by
  unfold State.tablesOf
  dsimp only
  cases l.wf <;> rfl

theorem groupTables_le {f : WFmt} {G : Nat} (le : G ≤ 128) : f.groupTables G ≤ f.bankTables := by
  unfold WFmt.groupTables WFmt.bankTables WFmt.isC4
  cases f <;> simp <;> omega

section
variable {u t : State} {k c : Nat} {l : LayerCmd} {x : KCtx}

theorem LayerCmd.Single.unitAt (one : l.Single) {y : KCtx} (row : y.row = 0) (group : y.group = 0) (strip : y.strip < l.strips) :
    l.unitAt y = (0, 0, 0) := by
  unfold LayerCmd.unitAt
  rw [row, group]
  rcases one.block with plain | block
  · simp [plain]
  · rw [show y.strip = 0 by omega, ite_self]

theorem LayerCmd.Single.nextUnit (one : l.Single) : l.nextUnit (0, 0, 0) = none := by
  unfold LayerCmd.nextUnit
  have last : (l.wf.isC4 && decide (0 + 1 < l.strips)) = false := by
    rcases one.block with plain | block
    · simp [plain]
    · simp [block]
  rw [last, one.groups, one.rows]
  rfl

/-- The group's tables as the charger makes them. -/
def State.groupOf (u : State) (k : Nat) (x : KCtx) (l : LayerCmd) : LutGroup := u.tablesOf l (x.origin k) (0, 0, 0) (u.chargeRow l (x.origin k) 0 0)

/-- Where both banks are empty the charger takes the one group, and has then no more to take. -/
theorem chargeIdle_one (one : l.Single) (path : OnPath u t k c) (fresh : l.unitAt (t.ctx k c) = (0, 0, 0)) (idle : (t.kiln k).idle = [])
    (active : (t.kiln k).active = []) (charge : u.canCharge k (t.ctx k c) l (0, 0, 0) = true) (fuel : Nat) :
    OnPath u (t.chargeIdle k c l (fuel + 2)) k c ∧ (t.chargeIdle k c l (fuel + 2)).ctx k c = t.ctx k c ∧
    ((t.chargeIdle k c l (fuel + 2)).kiln k).idle = [u.groupOf k (t.ctx k c) l] := by
  have sees := path.sees
  have first : l.nextCharge (t.kiln k) (t.ctx k c) = some (0, 0, 0) := by
    unfold LayerCmd.nextCharge
    rw [idle, active, fresh]
    rfl
  have can : t.canCharge k (t.ctx k c) l (0, 0, 0) = true := (sees.canCharge ..).trans charge
  have tables : t.tablesOf l ((t.ctx k c).origin k) (0, 0, 0) (t.chargeRow l ((t.ctx k c).origin k) 0 0) = u.groupOf k (t.ctx k c) l := by
    rw [sees.tablesOf, sees.chargeRow]
    rfl
  have done (w : State) (held : (w.kiln k).idle = [u.groupOf k (t.ctx k c) l]) : w.chargeIdle k c l (fuel + 1) = w := by
    rw [State.chargeIdle]
    have none' : l.nextCharge (w.kiln k) (w.ctx k c) = none := by
      unfold LayerCmd.nextCharge
      rw [held]
      change l.nextUnit (u.groupOf k (t.ctx k c) l).unit = none
      rw [State.groupOf, unit_tablesOf, one.nextUnit]
    dsimp only
    rw [none']
  have room : ¬ ((decide (bankCount (t.kiln k).idle + l.wf.groupTables l.G > l.wf.bankTables) || !t.canCharge k (t.ctx k c) l (0, 0, 0)) = true) := by
    have fits := groupTables_le (f := l.wf) one.size
    rw [idle, can]
    simpa [bankCount] using fits
  rw [State.chargeIdle]
  dsimp only
  rw [first]
  dsimp only
  rw [if_neg room, tables, idle, List.nil_append, if_pos (show ((0 : Nat) == 0) = true from rfl)]
  have next (q : Kiln) (a b : Nat) (held : q.idle = [u.groupOf k (t.ctx k c) l]) :
      let w := ((t.putKiln k q).inc KLN_F8_SATURATIONS_COUNT k a).inc KLN_F8_NANS_COUNT k b
      OnPath u (w.chargeIdle k c l (fuel + 1)) k c ∧ (w.chargeIdle k c l (fuel + 1)).ctx k c = t.ctx k c ∧
      ((w.chargeIdle k c l (fuel + 1)).kiln k).idle = [u.groupOf k (t.ctx k c) l] := by
    have here : ((t.putKiln k q).kiln k).idle = [u.groupOf k (t.ctx k c) l] := by
      rw [State.kiln_putKiln, if_pos rfl]
      exact held
    dsimp only
    rw [done (((t.putKiln k q).inc KLN_F8_SATURATIONS_COUNT k a).inc KLN_F8_NANS_COUNT k b) here]
    exact ⟨((path.putKiln k q).inc (by simp [unreadFlds]) k a).inc (by simp [unreadFlds]) k b, rfl, here⟩
  exact next _ _ _ (idle_setIdle (t.kiln k) _)

end

/-! ### The tiles of the group, one after another -/

/-- A context as the tiles of the group find it: so many strips are done, their columns staged. -/
def KCtx.atStrip (x : KCtx) (i : Nat) (staged : List (Nat × Nat)) (acc : Tab Nat) (used : Tiles) : KCtx :=
  { x with strip := i, staged := staged, acc := acc, used := used }

/-- A context whose tiles are all done, with the row's accumulators. -/
def KCtx.grouped (x : KCtx) (acc : Tab Nat) (used : Tiles) : KCtx := { x with strip := 0, staged := [], group := 1, acc := acc, used := used }

/-- A context at the beginning of the LAYER. -/
structure KCtx.Fresh (x : KCtx) : Prop where
  row : x.row = 0
  group : x.group = 0
  undebugged : x.dbgReq = 0

/-- What the strips before one have staged. -/
def State.stagedTo (u : State) (l : LayerCmd) (o : Nat) (g : LutGroup) (i : Nat) : List (Nat × Nat) :=
  ((List.range i).flatMap l.columns).map fun n => (n, u.columnSum l o g n)

theorem stagedTo_succ (u : State) (l : LayerCmd) (o : Nat) (g : LutGroup) (i : Nat) :
    u.stagedTo l o g (i + 1) = u.stagedTo l o g i ++ (l.columns i).map fun n => (n, u.columnSum l o g n) := by
  unfold State.stagedTo
  rw [List.range_succ, List.flatMap_append, List.map_append]
  simp

section
variable {u t : State} {k c i fuel : Nat} {l : LayerCmd} {g : LutGroup} {x : KCtx} {staged : List (Nat × Nat)} {acc : Tab Nat} {used : Tiles}

/-- The first tile of the row starts its accumulators; later ones find them at zero. -/
theorem rowStarted_spec (one : l.Single) (fresh : x.Fresh) (path : OnPath u t k c) (ctx : t.ctx k c = x.atStrip i staged acc used)
    (zero : i = 0 ∨ ∀ n, n < l.N → Tab.get (fun _ => 0) acc n = 0) : ∃ a, (t.rowStarted k c l).ctx k c = x.atStrip i staged a used ∧
    (∀ n, n < l.N → Tab.get (fun _ => 0) a n = 0) ∧ OnPath u (t.rowStarted k c l) k c ∧ (t.rowStarted k c l).kiln k = t.kiln k := by
  unfold State.rowStarted
  rw [ctx]
  split
  · exact ⟨_, State.ctx_putCtx_self .., fun n n_lt => one.startRow _ _ n_lt, path.putCtx _, rfl⟩
  · next later =>
    refine ⟨acc, ctx, zero.resolve_left fun first => later ⟨?_, first⟩, path, rfl⟩
    rw [one.pinned]
    exact fresh.group

/-- A tile whose data is in and good is looked up. -/
theorem runLayer_verified (one : l.Single) (fresh : x.Fresh) (allIn : u.AllIn k x l) (path : OnPath u t k c) (ctx : t.ctx k c = x.atStrip i staged acc used)
    (i_lt : i < l.strips) (start : OnPath u (t.rowStarted k c l) k c) :
    t.runLayer k c l (fuel + 1) = t.lookTile (t.rowStarted k c l) k c l fuel := by
  have row : (t.ctx k c).row = 0 := (congrArg KCtx.row ctx).trans fresh.row
  have group : (t.ctx k c).group = 0 := (congrArg KCtx.group ctx).trans fresh.group
  have strip : (t.ctx k c).strip = i := congrArg KCtx.strip ctx
  have origin : (t.ctx k c).origin k = x.origin k := by rw [ctx]; rfl
  have undebugged : (t.ctx k c).dbgReq = 0 := (congrArg KCtx.dbgReq ctx).trans fresh.undebugged
  have inTime : t.tileLate k c l = [] := by
    unfold State.tileLate
    rw [row, group, strip, path.sees.notReady, ctx]
    exact allIn.inTime i i_lt
  have reads : (t.rowStarted k c l).touch (t.tileReads k c l) = .ok (t.rowStarted k c l) := by
    unfold State.tileReads
    rw [row, group, strip, origin]
    exact start.sees.touch (allIn.unmarked i i_lt)
  have slip : (t.rowStarted k c l).slipOf l ((t.ctx k c).origin k) (t.ctx k c).group (l.firstTile (t.ctx k c).group + (t.ctx k c).strip) = none := by
    rw [group, strip, origin, firstTile_zero, Nat.zero_add, start.sees.slipOf]
    exact allIn.verified i i_lt
  rw [runLayer_tile (by rw [row, one.rows]; decide) (by rw [group, one.groups]; decide) undebugged, inTime, if_neg (by decide), reads]
  dsimp only
  rw [slip]

/-- A column's value is the group's contribution to it. -/
theorem columnValue_eq (one : l.Single) (fresh : x.Fresh) (path : OnPath u t k c) (ctx : t.ctx k c = x.atStrip i staged acc used)
    (zero : ∀ n, n < l.N → Tab.get (fun _ => 0) acc n = 0) {n : Nat} (here : n ∈ l.columns i) :
    t.columnValue k c l g n = u.columnSum l (x.origin k) g n := by
  obtain ⟨rfl, n_lt⟩ := mem_columns.mp here
  have row : (t.ctx k c).row = 0 := (congrArg KCtx.row ctx).trans fresh.row
  have group : (t.ctx k c).group = 0 := (congrArg KCtx.group ctx).trans fresh.group
  have strip : (t.ctx k c).strip = n / l.wf.stripCols := congrArg KCtx.strip ctx
  have origin : (t.ctx k c).origin k = x.origin k := by rw [ctx]; rfl
  have sees := path.sees
  unfold State.columnValue State.addColumn State.columnSum
  rw [row, group, strip, origin, congrArg KCtx.acc ctx]
  dsimp only
  rw [firstTile_zero, Nat.zero_add, one.accKey, sees.product, sees.columnScale, sees.num, show (x.atStrip _ staged acc used).acc = acc from rfl, zero n n_lt]

/-- What a looked-up tile leaves: its columns staged, or with the last one all of them entered. -/
theorem addTile_spec (one : l.Single) (fresh : x.Fresh) (path : OnPath u t k c)
    (ctx : t.ctx k c = x.atStrip i (u.stagedTo l (x.origin k) g i) acc used) (zero : ∀ n, n < l.N → Tab.get (fun _ => 0) acc n = 0) :
    OnPath u (t.addTile k c l g) k c ∧ (t.addTile k c l g).kiln k = t.kiln k ∧
    (i + 1 < l.strips → ∃ b, (t.addTile k c l g).ctx k c = x.atStrip (i + 1) (u.stagedTo l (x.origin k) g (i + 1)) acc b) ∧
    (i + 1 = l.strips → ∃ a b, (t.addTile k c l g).ctx k c = x.grouped a b ∧
      ∀ n, n < l.N → Tab.get (fun _ => 0) a n = u.columnSum l (x.origin k) g n) := by
  have frame : OnPath u (t.addTile k c l g) k c := by
    unfold State.addTile
    exact (path.putCtx _).inc (by simp [unreadFlds]) k _
  have values : ((l.columns i).map fun n => (l.accKey x.row n, t.columnValue k c l g n)) = (l.columns i).map fun n => (n, u.columnSum l (x.origin k) g n) :=
    List.map_congr_left fun n hn => by rw [one.accKey, columnValue_eq one fresh path ctx zero hn]
  have next := ctx_addTile t k c l g
  rw [ctx] at next
  dsimp only [KCtx.atStrip] at next
  rw [values, ← stagedTo_succ] at next
  refine ⟨frame, rfl, fun more => ⟨_, next.trans (if_pos more)⟩, fun last => ?_⟩
  have entered := next.trans (if_neg (by omega))
  rw [fresh.group] at entered
  refine ⟨_, _, entered, fun n n_lt => ?_⟩
  have listed : n ∈ (List.range (i + 1)).flatMap l.columns :=
    List.mem_flatMap.mpr ⟨n / l.wf.stripCols, List.mem_range.mpr (last ▸ div_lt_strips n_lt), mem_columns.mpr ⟨rfl, n_lt⟩⟩
  exact (get_foldl_insert _ id _ (fun _ _ h => h) _ acc n).trans (if_pos listed)

/-- All tiles of the group, from the first strip on: the row's accumulators hold the group's contributions. -/
theorem runLayer_tiles (one : l.Single) (fresh : x.Fresh) (allIn : u.AllIn k x l) (unit : g.unit = (0, 0, 0)) : ∀ (m i : Nat) (t : State) (acc : Tab Nat) (used : Tiles),
    i + m + 1 = l.strips → OnPath u t k c → (t.kiln k).active = [g] → t.ctx k c = x.atStrip i (u.stagedTo l (x.origin k) g i) acc used →
    (i = 0 ∨ ∀ n, n < l.N → Tab.get (fun _ => 0) acc n = 0) → ∃ w a b, t.runLayer k c l (fuel + m + 1) = w.runLayer k c l fuel ∧ OnPath u w k c ∧
      w.ctx k c = x.grouped a b ∧ ∀ n, n < l.N → Tab.get (fun _ => 0) a n = u.columnSum l (x.origin k) g n := by
  intro m
  have look (i : Nat) (t : State) (acc : Tab Nat) (used : Tiles) (fuel : Nat) (i_lt : i < l.strips) (path : OnPath u t k c) (active : (t.kiln k).active = [g])
      (ctx : t.ctx k c = x.atStrip i (u.stagedTo l (x.origin k) g i) acc used) (zero : i = 0 ∨ ∀ n, n < l.N → Tab.get (fun _ => 0) acc n = 0) :
      ∃ w a, t.runLayer k c l (fuel + 1) = (w.addTile k c l g).runLayer k c l fuel ∧ OnPath u w k c ∧ (w.kiln k).active = [g] ∧
        w.ctx k c = x.atStrip i (u.stagedTo l (x.origin k) g i) a used ∧ ∀ n, n < l.N → Tab.get (fun _ => 0) a n = 0 := by
    obtain ⟨a, ctx', zero', start, same⟩ := rowStarted_spec one fresh path ctx zero
    refine ⟨t.rowStarted k c l, a, ?_, start, by rw [same]; exact active, ctx', zero'⟩
    have finite : (t.rowStarted k c l).badCodebook l ((t.ctx k c).origin k) (l.firstTile (t.ctx k c).group + (t.ctx k c).strip) = false := by
      rw [ctx, start.sees.badCodebook, show (x.atStrip i (u.stagedTo l (x.origin k) g i) acc used).group = 0 from fresh.group, firstTile_zero, Nat.zero_add]
      exact allIn.finite i i_lt
    have found : ((t.rowStarted k c l).kiln k).active.find? (fun g => g.unit == l.unitAt (t.ctx k c)) = some g := by
      rw [same, active, one.unitAt (by rw [ctx]; exact fresh.row) (by rw [ctx]; exact fresh.group) (by rw [ctx]; exact i_lt)]
      simp [unit]
    rw [runLayer_verified one fresh allIn path ctx i_lt start]
    unfold State.lookTile
    rw [if_neg (by rw [finite]; exact Bool.false_ne_true), found]
  induction m with
  | zero =>
    intro i t acc used last path active ctx zero
    obtain ⟨w, a, run, path', active', ctx', zero'⟩ := look i t acc used fuel (by omega) path active ctx zero
    obtain ⟨frame, -, -, entered⟩ := addTile_spec one fresh path' ctx' zero'
    obtain ⟨b, d, here, sums⟩ := entered (by omega)
    exact ⟨_, b, d, run, frame, here, sums⟩
  | succ m ih =>
    intro i t acc used last path active ctx zero
    obtain ⟨w, a, run, path', active', ctx', zero'⟩ := look i t acc used (fuel + m + 1) (by omega) path active ctx zero
    obtain ⟨frame, kiln, staged, -⟩ := addTile_spec one fresh path' ctx' zero'
    obtain ⟨b, here⟩ := staged (by omega)
    obtain ⟨v, d, e, rest, done⟩ := ih (i + 1) (w.addTile k c l g) a b (by omega) frame (by rw [kiln]; exact active') here (.inr zero')
    exact ⟨v, d, e, run.trans rest, done⟩

/-- The whole group of a LAYER that comes to empty banks: it is charged, exchanged and looked up. -/
theorem runLayer_group (one : l.Single) (fresh : x.Fresh) (allIn : u.AllIn k x l) (path : OnPath u t k c) (ctx : t.ctx k c = x.atStrip 0 [] acc used)
    (idle : (t.kiln k).idle = []) (active : (t.kiln k).active = []) (first : (t.kiln k).firstBank = true) : ∃ w a b,
    t.runLayer k c l (fuel + l.strips + 1) = w.runLayer k c l fuel ∧ OnPath u w k c ∧ w.ctx k c = x.grouped a b ∧
      ∀ n, n < l.N → Tab.get (fun _ => 0) a n = u.columnSum l (x.origin k) (u.groupOf k x l) n := by
  obtain ⟨a, ctx', zero, start, same⟩ := rowStarted_spec one fresh path ctx (.inl rfl)
  have strips := one.strips
  have group : (t.ctx k c).group = 0 := (congrArg KCtx.group ctx).trans fresh.group
  have origin : (t.ctx k c).origin k = x.origin k := by rw [ctx]; rfl
  have finite : (t.rowStarted k c l).badCodebook l ((t.ctx k c).origin k) (l.firstTile (t.ctx k c).group + (t.ctx k c).strip) = false := by
    rw [origin, group, congrArg KCtx.strip ctx, start.sees.badCodebook, firstTile_zero, Nat.zero_add]
    exact allIn.finite 0 strips
  have unit : l.unitAt ((t.rowStarted k c l).ctx k c) = (0, 0, 0) :=
    one.unitAt (by rw [ctx']; exact fresh.row) (by rw [ctx']; exact fresh.group) (by rw [ctx']; exact strips)
  obtain ⟨charged, here, held⟩ := chargeIdle_one one start unit (by rw [same]; exact idle) (by rw [same]; exact active)
    (by rw [ctx']; exact allIn.charge) 1022
  have tables : u.groupOf k ((t.rowStarted k c l).ctx k c) l = u.groupOf k x l := by rw [ctx']; rfl
  rw [tables] at held
  obtain ⟨m, hm⟩ : ∃ m, l.strips = m + 1 := ⟨l.strips - 1, by omega⟩
  have run : t.runLayer k c l (fuel + l.strips + 1) =
      (((t.rowStarted k c l).chargeIdle k c l 1024).putKiln k (((t.rowStarted k c l).chargeIdle k c l 1024).kiln k).exchange).runLayer k c l (fuel + m + 1) := by
    rw [hm, runLayer_verified one fresh allIn path ctx strips start]
    unfold State.lookTile
    rw [if_neg (by rw [finite]; exact Bool.false_ne_true), same, active]
    dsimp only [List.find?_nil]
    rw [if_pos first]
    rfl
  rw [run]
  generalize State.chargeIdle _ k c l 1024 = v at charged here held ⊢
  refine runLayer_tiles one fresh allIn (unit_tablesOf ..) m 0 _ a used (by omega) (charged.putKiln k _) ?_ (here.trans ctx') (.inl rfl)
  rw [State.kiln_putKiln, if_pos rfl, active_exchange]
  exact held

end

/-! ### The end of the row (R128, R154, R155) -/

section
variable {s t y w : State} {k c row : Nat} {l : LayerCmd} {f : OFmt} {tbl : List Byte}

/-- The outputs of a row that clip. -/
def clipsOf (qs : List (RescaleEntry × Quantised)) : List Nat := (qs.zipIdx.filter fun q => q.1.2.clip).map (·.2)

/-- A context that keeps a further row for the watermark. -/
def KCtx.rowOut (z : KCtx) (row n : Nat) (clips : List Nat) (used : Tiles) : KCtx := { z with rows := z.rows ++ [⟨z.pc, row, n, clips, none, false, used⟩] }

/-- The row goes through the output stage, and is kept for the watermark. -/
theorem outputRow_eq (ofmt : OFmt.ofCode l.ofmt = some f) (noPage : l.clipPage = false)
    (read : t.read (t.taskReq (t.ctx k c)) l.rescale (16 * l.N) = .ok (tbl, y))
    (write : y.write (t.taskReq (t.ctx k c)) (l.out + row * roundUp (l.N * f.bytes) 64) (outputBytes f (l.outputs f (t.ctx k c).acc row tbl)) = .ok w) :
    ∃ n m, let v := (w.inc KLN_OUTPUT_NANS_COUNT k n).inc KLN_RESCALE_RESERVED_COUNT k m
    t.outputRow k c l row = (some (v.putCtx k c ((v.ctx k c).rowOut row l.N (clipsOf (l.outputs f (t.ctx k c).acc row tbl))
      (w.tilesOf (t.ctx k c) (l.rowRanges ((t.ctx k c).origin k) row)))), v) := by
  unfold State.outputRow
  dsimp only
  rw [ofmt, read]
  dsimp only [Option.getD_some]
  rw [write]
  dsimp only
  rw [noPage]
  exact ⟨_, _, rfl⟩

/-- The one row's ring slots are cleared. -/
theorem freeRing_all (rows : l.rows = 1) : s.freeRing k c l 0 = s.clearBits k (s.ctx k c).half (s.ctx k c).base (l.rowSlots 0) := by
  unfold State.freeRing State.clearBits LayerCmd.rowSlots
  dsimp only
  rw [rows, List.filter_eq_self.mpr (by simp), List.foldl_map]
  simp only [Nat.add_assoc]

/-- The slots that a LAYER gives back with its end. -/
def LayerCmd.freed (l : LayerCmd) : List Nat :=
  if l.release then (List.range l.wSlots).map (l.wSlot + ·) ++ (List.range l.sSlots).map (l.sSlot + ·) else []

/-- The lookup path is given up and the command is done. -/
theorem commandDone_freePath {z : KCtx} (F : KCtx → KCtx) (here : F (s.ctx k c) = z) (undebugged : z.dbgReq = 0) :
    ((s.setCtx k c F).putKiln k { ((s.setCtx k c F).kiln k).emptied with path := none }).commandDone k c 64 false =
      (s.putKiln k { (s.kiln k).emptied with path := none }).putCtx k c (cmdDone z 64) := by
  have ctx : ((s.setCtx k c F).putKiln k { ((s.setCtx k c F).kiln k).emptied with path := none }).ctx k c = z :=
    (State.ctx_putCtx_self s k c (F (s.ctx k c))).trans here
  rw [commandDone_eq (by rw [ctx]; exact undebugged), ctx]
  exact putCtx_putCtx (s.putKiln k { (s.kiln k).emptied with path := none }) k c (F (s.ctx k c)) (cmdDone z 64)

/-- A LAYER that holds no accumulators ends. -/
theorem layerEnds_eq (accOut : l.accOut = 0) (undebugged : (s.ctx k c).dbgReq = 0) :
    s.layerEnds k c l = ((s.clearBits k (s.ctx k c).half (s.ctx k c).base l.freed).putKiln k { (s.kiln k).emptied with path := none }).putCtx k c
      (cmdDone { s.ctx k c with held := none, chain := none, acc := [], used := [] } 64) := by
  obtain ⟨frame, -⟩ := clearBits_spec k (s.ctx k c).half (s.ctx k c).base l.freed s
  have freed : (if l.release then ((List.range l.wSlots).map (l.wSlot + ·) ++ (List.range l.sSlots).map (l.sSlot + ·)).foldl
      (fun t i => t.setReady k (s.ctx k c).half ((s.ctx k c).base + i) false) s else s) = s.clearBits k (s.ctx k c).half (s.ctx k c).base l.freed := by
    unfold State.clearBits LayerCmd.freed
    split <;> rfl
  unfold State.layerEnds
  dsimp only
  rw [freed, accOut]
  generalize State.clearBits s k (s.ctx k c).half (s.ctx k c).base l.freed = v at frame
  have ctx : v.ctx k c = s.ctx k c := by rw [frame]; rfl
  have kiln : v.kiln k = s.kiln k := by rw [frame]; rfl
  rw [← kiln]
  exact commandDone_freePath _ (by rw [ctx]; rfl) undebugged

/-- The one row ends once it is through the output stage, in the state p. -/
theorem endRow_eq {p v : State} (one : l.Single) (out : t.outputRow k c l 0 = (some p, v)) : t.endRow k c l 0 =
    (some ((p.freeRing k c l 0).setCtx k c fun z => { z with row := 1, group := 0, acc := [] }),
      (p.freeRing k c l 0).setCtx k c fun z => { z with row := 1, group := 0, acc := [] }) := by
  unfold State.endRow
  dsimp only
  rw [one.accOut, one.accIn, one.pinned, out]
  rfl

/-- The run from the row's end on. -/
theorem runLayer_ends {p v : State} {fuel : Nat} (one : l.Single) (row : (t.ctx k c).row = 0) (group : (t.ctx k c).group = 1)
    (out : t.outputRow k c l 0 = (some p, v)) :
    t.runLayer k c l (fuel + 2) = ((p.freeRing k c l 0).setCtx k c fun z => { z with row := 1, group := 0, acc := [] }).layerEnds k c l := by
  have computed : (l.computed == 0) = false := by
    unfold LayerCmd.computed
    rw [one.groups, one.pinned]
    rfl
  rw [State.runLayer]
  dsimp only
  rw [row, group, if_neg (by rw [one.rows]; decide), if_pos (by rw [one.groups]), computed, if_neg Bool.false_ne_true, endRow_eq one out]
  dsimp only
  generalize State.freeRing p k c l 0 = q
  rw [State.runLayer]
  dsimp only
  rw [if_pos]
  rw [State.setCtx, State.ctx_putCtx_self, one.rows]

/-- A slot's context once its one-row LAYER is done. -/
def KCtx.layerDone (z : KCtx) : KCtx := cmdDone { z with held := none, chain := none, acc := [], used := [] } 64

/-- What the end of the row and of the LAYER leave: the next command, a free path, and slots that are no longer ready. -/
theorem layerEnds_spec {z : KCtx} (one : l.Single) (undebugged : z.dbgReq = 0) :
    let t := (((s.putCtx k c z).freeRing k c l 0).setCtx k c fun y => { y with row := 1, group := 0, acc := [] }).layerEnds k c l
    t = { s with ctxs := t.ctxs, kilns := t.kilns, ready := t.ready } ∧ t.ctx k c = z.layerDone ∧ (t.kiln k).path = none ∧
    (∀ i ∈ l.rowSlots 0 ++ l.freed, t.isReady k z.half (z.base + i) = false) ∧ ∀ d, d ≠ 4 * k + c → Tab.find d t.ctxs = Tab.find d s.ctxs := by
  rw [freeRing_all one.rows, State.ctx_putCtx_self]
  obtain ⟨frame, cleared, -, -⟩ := clearBits_spec k z.half z.base (l.rowSlots 0) (s.putCtx k c z)
  generalize State.clearBits (s.putCtx k c z) k z.half z.base (l.rowSlots 0) = p at frame cleared
  have ctx : p.ctx k c = z := by
    rw [frame]
    exact State.ctx_putCtx_self ..
  obtain ⟨r, rfl⟩ : ∃ r, p = { s.putCtx k c z with ready := r } := ⟨_, frame⟩
  rw [State.setCtx, ctx, layerEnds_eq one.accOut (by rw [State.ctx_putCtx_self]; exact undebugged), State.ctx_putCtx_self]
  dsimp only
  obtain ⟨frame', cleared', stays, -⟩ := clearBits_spec k z.half z.base l.freed
    (State.putCtx { s.putCtx k c z with ready := r } k c { z with row := 1, group := 0, acc := [] })
  generalize State.clearBits _ k z.half z.base l.freed = q at frame' cleared' stays
  obtain ⟨r', rfl⟩ : ∃ r', q = { State.putCtx { s.putCtx k c z with ready := r } k c { z with row := 1, group := 0, acc := [] } with ready := r' } := ⟨_, frame'⟩
  refine ⟨rfl, State.ctx_putCtx_self .., ?_, fun i hi => ?_, fun d other => ?_⟩
  · exact congrArg Kiln.path ((State.kiln_putKiln _ k _ k).trans (if_pos rfl))
  · rcases List.mem_append.mp hi with ring | gone
    · exact stays _ (cleared i ring)
    · exact cleared' i gone
  · exact (find_putCtx _ _ _ _ other).trans ((find_putCtx _ _ _ _ other).trans (find_putCtx _ _ _ _ other))

/-- One row's end and the LAYER's, from the group's sums on. -/
theorem runLayer_rowEnds {u : State} {x : KCtx} {a : Tab Nat} {b : Tiles} {fuel : Nat} (one : l.Single) (fresh : x.Fresh) (path : OnPath u t k c)
    (ctx : t.ctx k c = x.grouped a b) (ofmt : OFmt.ofCode l.ofmt = some f) (noPage : l.clipPage = false)
    (read : u.read (u.taskReq x) l.rescale (16 * l.N) = .ok (tbl, y))
    (write : y.write (u.taskReq x) l.out (outputBytes f (l.outputs f a 0 tbl)) = .ok w) :
    let v := t.runLayer k c l (fuel + 2)
    v.mem = w.mem ∧ v.host = w.host ∧
    v.ctx k c = ((x.grouped a b).rowOut 0 l.N (clipsOf (l.outputs f a 0 tbl)) (u.tilesOf x (l.rowRanges (x.origin k) 0))).layerDone ∧
    (v.kiln k).path = none ∧ (∀ i ∈ l.rowSlots 0 ++ l.freed, v.isReady k x.half (x.base + i) = false) ∧
    (∀ d, d ≠ 4 * k + c → Tab.find d v.ctxs = Tab.find d u.ctxs) ∧ v.streams = u.streams ∧ v.jobs = u.jobs := by
  have req : t.taskReq (t.ctx k c) = u.taskReq x := by
    unfold State.taskReq State.job
    rw [ctx, path.jobs]
    rfl
  obtain ⟨y', read', besideRead⟩ := beside_read path.beside read
  obtain ⟨w', write', besideWrite⟩ := beside_write besideRead write
  have stores : Stores t w' := (reports_read read').stores.trans (stores_write write')
  rw [← req] at read' write'
  obtain ⟨n, m, out⟩ := outputRow_eq (t := t) (w := w') (row := 0) ofmt noPage read' (by
    rw [Nat.zero_mul, Nat.add_zero, congrArg KCtx.acc ctx]
    exact write')
  have tiles : w'.tilesOf (t.ctx k c) (l.rowRanges ((t.ctx k c).origin k) 0) = u.tilesOf x (l.rowRanges (x.origin k) 0) := by
    unfold State.tilesOf
    rw [stores.origins, path.sees.origins, ctx]
    rfl
  have counted : ((w'.inc KLN_OUTPUT_NANS_COUNT k n).inc KLN_RESCALE_RESERVED_COUNT k m).ctx k c = x.grouped a b := (stores.ctx k c).trans ctx
  have others : ∀ d, d ≠ 4 * k + c → Tab.find d ((w'.inc KLN_OUTPUT_NANS_COUNT k n).inc KLN_RESCALE_RESERVED_COUNT k m).ctxs = Tab.find d u.ctxs :=
    fun d other => (congrArg (Tab.find d) stores.ctxs).trans (path.others d other)
  have streams : ((w'.inc KLN_OUTPUT_NANS_COUNT k n).inc KLN_RESCALE_RESERVED_COUNT k m).streams = u.streams := stores.streams.trans path.streams
  have jobs : ((w'.inc KLN_OUTPUT_NANS_COUNT k n).inc KLN_RESCALE_RESERVED_COUNT k m).jobs = u.jobs := stores.jobs.trans path.jobs
  have mem : ((w'.inc KLN_OUTPUT_NANS_COUNT k n).inc KLN_RESCALE_RESERVED_COUNT k m).mem = w.mem := besideWrite.mem
  have host : ((w'.inc KLN_OUTPUT_NANS_COUNT k n).inc KLN_RESCALE_RESERVED_COUNT k m).host = w.host := besideWrite.host
  generalize (w'.inc KLN_OUTPUT_NANS_COUNT k n).inc KLN_RESCALE_RESERVED_COUNT k m = p at out counted others streams jobs mem host
  dsimp only at out
  rw [tiles, counted, congrArg KCtx.acc ctx, show (x.grouped a b).acc = a from rfl] at out
  have run := runLayer_ends (fuel := fuel) one (by rw [ctx]; exact fresh.row) (by rw [ctx]; rfl) out
  obtain ⟨frame, done, free, cleared, kept⟩ := layerEnds_spec (s := p) (k := k) (c := c)
    (z := (x.grouped a b).rowOut 0 l.N (clipsOf (l.outputs f a 0 tbl)) (u.tilesOf x (l.rowRanges (x.origin k) 0))) one fresh.undebugged
  dsimp only
  rw [run]
  generalize State.layerEnds _ k c l = v at frame done free cleared kept
  exact ⟨by rw [frame]; exact mem, by rw [frame]; exact host, done, free, cleared, fun d other => (kept d other).trans (others d other),
    by rw [frame]; exact streams, by rw [frame]; exact jobs⟩

end

/-! ### The row's outputs -/

/-- The outputs of a row whose accumulators are known. -/
theorem outputs_eq {l : LayerCmd} (one : l.Single) {f : OFmt} {tbl : List Byte} {a : Tab Nat} {value : Nat → Nat}
    (sums : ∀ n, n < l.N → Tab.get (fun _ => 0) a n = value n) : l.outputs f a 0 tbl = (List.range l.N).map fun n =>
      (RescaleEntry.ofBits (fieldOf tbl (16 * n) 16), quantise f (RescaleEntry.ofBits (fieldOf tbl (16 * n) 16)).zp
        (outputReal (RescaleEntry.ofBits (fieldOf tbl (16 * n) 16)) (value n))) := by
  unfold LayerCmd.outputs
  refine List.map_congr_left fun n hn => ?_
  dsimp only
  rw [one.accKey, sums n (List.mem_range.mp hn)]

theorem zipIdx_map_range {α : Type} (n : Nat) (F : Nat → α) : ((List.range n).map F).zipIdx = (List.range n).map fun i => (F i, i) := by
  refine List.ext_getElem (by simp) fun i _ _ => ?_
  simp

/-- The columns that clip. -/
theorem clipsOf_map (n : Nat) (F : Nat → RescaleEntry × Quantised) : clipsOf ((List.range n).map F) = (List.range n).filter fun i => (F i).2.clip := by
  unfold clipsOf
  rw [zipIdx_map_range, List.filter_map, List.map_map]
  exact List.map_id _

theorem outputBytes_map (f : OFmt) (n : Nat) (F : Nat → RescaleEntry × Quantised) :
    outputBytes f ((List.range n).map F) = (List.range n).flatMap fun i => leBytes f.bytes (F i).2.code := List.flatMap_map ..

/-! ### Starting a LAYER (R86 to R88, R150) -/

/-- A fresh LAYER's context as it begins. -/
def KCtx.layering (x : KCtx) (v : Nat) : KCtx :=
  { x with begun := true, group := 0, strip := 0, staged := [], watermark := x.row, chain := some x.pc, used := [], st := .running, late := [], cmd := v,
           noswitch := bit v 8, declLen := bits v 16 8 }

/-- A fresh LAYER that carries no accumulators begins, with the table store empty where it takes the path. -/
theorem startLayer_fresh {u : State} {k c v : Nat} {l : LayerCmd} (fields : layerOf v = some l) (fresh : (u.ctx k c).begun = false) (pinned : l.pinned = 0)
    (accIn : l.accIn = 0) (acc : l.accOk (u.ctx k c) = true) (placed : l.placed (u.ctx k c).slots = true) (out : inBerthView l.out = false)
    (rescale : inBerthView l.rescale = false) (noPage : l.clipPage = false) : u.startLayer k c v = ((u.putCtx k c ((u.ctx k c).layering v)).putKiln k
      (if (u.kiln k).path == some c then u.kiln k else { (u.kiln k).emptied with path := some c })).runLayer k c l l.fuel := by
  unfold State.startLayer
  dsimp only
  rw [fields]
  dsimp only
  rw [fresh, acc, placed, out, rescale, noPage, pinned, accIn]
  rfl

/-- What a LAYER's bits allow. -/
theorem layerOf_bounds {v : Nat} {l : LayerCmd} (fields : layerOf v = some l) : l.G ≤ 128 ∧ 0 < l.N := by
  unfold layerOf at fields
  split at fields
  · next f g code size =>
    split at fields
    · cases fields
    · next good =>
      cases fields
      refine ⟨?_, ?_⟩
      · change g ≤ 128
        unfold groupSize at size
        split at size <;> cases size <;> decide
      · exact Nat.pos_of_ne_zero fun (zero : bits v 85 17 = 0) => good (by simp [zero])
  · cases fields

end Sys2Proof.Machine
end

section
/-! The statement about a LAYER that completes. -/

namespace Sys2Proof.Safety

open Sys2Proof.Machine

/-- Settles O29: the one group is charged and looked up (`runLayer_group`), and the row goes through the output stage (`runLayer_rowEnds`). -/
theorem layerWritesItsRow : Obligations.LayerWritesItsRow := by
  unfold Obligations.LayerWritesItsRow
  intro s u y w k c v l f tbl command fields q ofmt may x o fresh row rows groups pinned accIn accOut noPage block accOk placed out rescale charge tiles g acc' cell
    read write
  have reports := reports_of_AtCommand command
  have ctx : u.ctx k c = x := reports.ctx k c
  have kiln : u.kiln k = q := by rw [State.kiln, reports.kilns]; rfl
  have req : u.taskReq x = s.taskReq x := taskReq_of_reports reports x
  obtain ⟨size, columns⟩ := layerOf_bounds fields
  have one : l.Single := ⟨rows, groups, pinned, accIn, accOut, Nat.zero_lt_of_lt (div_lt_strips columns), size, block⟩
  have begins : (x.layering v).Fresh := ⟨row, rfl, dbgReq_of_AtCommand command⟩
  have allIn : u.AllIn k (x.layering v) l := ⟨charge, fun i h => (tiles i h).1, fun i h => (tiles i h).2.1, fun i h => (tiles i h).2.2.1, fun i h => (tiles i h).2.2.2⟩
  have path : OnPath u ((u.putCtx k c (x.layering v)).putKiln k (if q.path == some c then q else { q.emptied with path := some c })) k c :=
    ((OnPath.refl u k c).putCtx _).putKiln _ _
  have empty : let q' := if q.path == some c then q else { q.emptied with path := some c }
      q'.idle = [] ∧ q'.active = [] ∧ q'.firstBank = true := by
    rcases may with ⟨none', -⟩ | ⟨mine, store0, store1, first⟩
    · rw [none']
      exact ⟨by unfold Kiln.idle Kiln.emptied; simp, by unfold Kiln.active Kiln.emptied; simp, rfl⟩
    · rw [mine, if_pos (by simp)]
      exact ⟨by unfold Kiln.idle; rw [store0, store1, ite_self], by unfold Kiln.active; rw [store0, store1, ite_self], first⟩
  have run : exec (.layer k c) s =
      .next (State.runLayer ((u.putCtx k c (x.layering v)).putKiln k (if q.path == some c then q else { q.emptied with path := some c })) k c l l.fuel) := by
    have mayUse : s.mayUse k c opLayer (s.kiln k).path = true := by
      unfold State.mayUse
      rcases may with ⟨none', next⟩ | ⟨mine, -⟩
      · simp [show (s.kiln k).path = none from none', show s.nextOn k opLayer = some c from next]
      · simp [show (s.kiln k).path = some c from mine]
    refine (if_pos mayUse).trans (congrArg Host.Outcome.next ?_)
    have start := startLayer_fresh (u := u) (k := k) (c := c) fields (by rw [ctx]; exact fresh) pinned accIn (by rw [ctx]; exact accOk) (by rw [ctx]; exact placed)
      out rescale noPage
    rw [ctx, kiln] at start
    exact (command_at command (by decide) _).trans start
  obtain ⟨m, strips⟩ : ∃ m, l.strips = m + 1 := ⟨l.strips - 1, by have := one.strips; omega⟩
  have fuel : l.fuel = m + 2 + l.strips + 1 := by
    unfold LayerCmd.fuel
    rw [rows, groups]
    omega
  dsimp only at empty
  obtain ⟨idle, active, first⟩ := empty
  have here : ((u.putCtx k c (x.layering v)).putKiln k (if q.path == some c then q else { q.emptied with path := some c })).kiln k =
    if q.path == some c then q else { q.emptied with path := some c } := (State.kiln_putKiln ..).trans (if_pos rfl)
  have at' : ((u.putCtx k c (x.layering v)).putKiln k (if q.path == some c then q else { q.emptied with path := some c })).ctx k c = x.layering v :=
    State.ctx_putCtx_self ..
  rw [fuel] at run
  generalize (u.putCtx k c (x.layering v)).putKiln k (if q.path == some c then q else { q.emptied with path := some c }) = t at path run here at'
  obtain ⟨t', a, b, looked, path', ctx', sums⟩ := runLayer_group (fuel := m + 2) (acc := x.acc) (used := []) one begins allIn path at' (by rw [here]; exact idle)
    (by rw [here]; exact active) (by rw [here]; exact first)
  have outputs := outputs_eq one (f := f) (tbl := tbl) (value := acc') fun n n_lt => (sums n n_lt).trans (columnSum_congr reports.byte l o g n)
  have bytes : outputBytes f (l.outputs f a 0 tbl) = (List.range l.N).flatMap fun n => leBytes f.bytes (cell n).code := by
    rw [outputs, outputBytes_map]
  have clips : clipsOf (l.outputs f a 0 tbl) = (List.range l.N).filter fun n => (cell n).clip := by
    rw [outputs, clipsOf_map]
  rw [← req] at read write
  rw [← bytes] at write
  obtain ⟨mem, host, done, free, cleared, others, streams, jobs⟩ := runLayer_rowEnds (fuel := m) one begins path' ctx' ofmt noPage read write
  rw [looked] at run
  refine ⟨_, run, mem, host, ?_, ?_, ?_, ?_, ?_, ?_, ?_, free, fun i hi => cleared i (List.mem_append_left _ hi), fun gives i i_lt => cleared _ ?_,
    fun d other => (others d other).trans (by rw [reports.ctxs]), streams.trans reports.streams, jobs.trans reports.jobs⟩
  · rw [done]; rfl
  · rw [done]; rfl
  · rw [done]; rfl
  · rw [done]; rfl
  · rw [done]; rfl
  · rw [done]; rfl
  · rw [done, ← clips]
    rfl
  · refine List.mem_append_right _ ?_
    unfold LayerCmd.freed
    rw [if_pos gives]
    exact List.mem_append_left _ (List.mem_map.mpr ⟨i, List.mem_range.mpr i_lt, rfl⟩)

end Sys2Proof.Safety
end


section
/-! SUPPORT. Hearths: where the elements of a matrix lie, what a block of rows writes, and the blocks of a command one after another. -/

namespace Sys2Proof.Machine

open Sys2Proof.Safety

/-! ### Where elements lie (R173) -/

theorem le_roundUp (a : Nat) {b : Nat} (pos : 0 < b) : a ≤ roundUp a b := by
  unfold roundUp ceilDiv
  have split := Nat.div_add_mod' (a + b - 1) b
  have lt := Nat.mod_lt (a + b - 1) pos
  omega

theorem Mat.row_le_pitch (m : Mat) : m.cols * m.fmt.bytes ≤ m.pitch := le_roundUp _ (by decide)

/-- A byte of an element lies within its row. -/
theorem Mat.at_bounds (m : Mat) {r j i : Nat} (col : j < m.cols) (byte : i < m.fmt.bytes) :
    m.off + r * m.pitch ≤ m.at' r j + i ∧ m.at' r j + i < m.off + (r + 1) * m.pitch := by
  have row := m.row_le_pitch
  have cell : (j + 1) * m.fmt.bytes ≤ m.cols * m.fmt.bytes := Nat.mul_le_mul_right _ col
  unfold Mat.at'
  rw [Nat.add_mul, Nat.one_mul] at cell ⊢
  omega

/-- A byte of an element lies within its matrix. -/
theorem Mat.at_within (m : Mat) {r j i : Nat} (row : r < m.rows) (col : j < m.cols) (byte : i < m.fmt.bytes) :
    m.off ≤ m.at' r j + i ∧ m.at' r j + i < m.off + m.bytes := by
  obtain ⟨low, high⟩ := m.at_bounds (r := r) col byte
  have rows : (r + 1) * m.pitch ≤ m.rows * m.pitch := Nat.mul_le_mul_right _ row
  unfold Mat.bytes
  omega

/-- An element is fixed by its bytes. -/
theorem elem_congr {s t : State} {o : Nat} {m : Mat} {r j : Nat} (same : ∀ i, i < m.fmt.bytes → t.byte (o + (m.at' r j + i)) = s.byte (o + (m.at' r j + i))) :
    t.elem o m r j = s.elem o m r j := by
  unfold State.elem State.num State.bytes
  refine congrArg (fun l => widen m.fmt (leNat l)) (List.map_congr_left fun i hi => ?_)
  rw [Nat.add_assoc]
  exact same i (List.mem_range.mp hi)

theorem meets_false {a b : Mat} (apart : a.meets b = false) : b.off + b.bytes ≤ a.off ∨ a.off + a.bytes ≤ b.off := by
  unfold Mat.meets at apart
  simp only [Bool.and_eq_false_iff, decide_eq_false_iff_not, Nat.not_lt] at apart
  exact apart

/-! ### Writing rows -/

/-- A list of bytes for each column, one after another. -/
theorem getD_flatMap_range {n B : Nat} {F : Nat → List Byte} (len : ∀ j, (F j).length = B) {j i : Nat} (j_lt : j < n) (i_lt : i < B) :
    ((List.range n).flatMap F).getD (j * B + i) 0 = (F j).getD i 0 := by
  have length (n : Nat) : ((List.range n).flatMap F).length = n * B := by
    rw [List.length_flatMap]
    simp [len]
  induction n with
  | zero => omega
  | succ n ih =>
    rw [List.range_succ, List.flatMap_append, List.flatMap_singleton]
    by_cases last : j = n
    · subst last
      rw [List.getD_append_right _ _ _ _ (by rw [length]; omega), length, Nat.add_sub_cancel_left]
    · have below : (j + 1) * B ≤ n * B := Nat.mul_le_mul_right _ (by omega)
      rw [Nat.add_mul, Nat.one_mul] at below
      rw [List.getD_append _ _ _ _ (by rw [length]; omega)]
      exact ih (by omega)

/-- Bytes written one by one, with their places counted from n. -/
theorem foldl_pokeByte_zipIdx (v : View) (a : Nat) (bs : List Byte) (n : Nat) (s : State) :
    (bs.zipIdx n).foldl (fun t e => t.pokeByte v (a + e.2) e.1) s = s.pokeBytes v (a + n) bs := by
  induction bs generalizing n s with
  | nil => rfl
  | cons b bs ih =>
    rw [List.zipIdx_cons, List.foldl_cons, ih]
    rfl

/-- A row of results that loses no word. -/
theorem hearthRow_nil (s : State) (o : Nat) (m : Mat) (row : Nat) (bs : List Byte) :
    s.hearthRow o m row [] bs = s.pokeBytes .normal (o + m.off + row * m.pitch) bs := by
  refine Eq.trans ?_ (foldl_pokeByte_zipIdx .normal (o + m.off + row * m.pitch) bs 0 s)
  unfold State.hearthRow
  simp only [List.contains_nil, Bool.false_eq_true, if_false, Nat.add_assoc]

/-- Rows written at a pitch. -/
def State.putRows (s : State) (a p : Nat) (bytes : Nat → List Byte) (rows : List Nat) : State :=
  rows.foldl (fun t r => t.pokeBytes .normal (a + r * p) (bytes r)) s

theorem putRows_eq (s : State) (a p : Nat) (bytes : Nat → List Byte) (rows : List Nat) :
    s.putRows a p bytes rows = { s with mem := (s.putRows a p bytes rows).mem } := by
  induction rows generalizing s with
  | nil => rfl
  | cons r rows ih => exact (ih _).trans (congrArg (fun t : State => { t with mem := (s.putRows a p bytes (r :: rows)).mem }) (pokeBytes_eq s .normal _ _))

section
variable {s : State} {a p : Nat} {bytes : Nat → List Byte} {rows : List Nat} (unveiled : s.veiled = []) (short : ∀ r, (bytes r).length ≤ p)
include unveiled short

/-- A byte outside the rows keeps its value. -/
theorem memAt_putRows_other {x : Nat} (out : ∀ r ∈ rows, ¬ (a + r * p ≤ x ∧ x < a + (r + 1) * p)) : memAt (s.putRows a p bytes rows) x = memAt s x := by
  induction rows generalizing s with
  | nil => rfl
  | cons r rows ih =>
    have first := out r List.mem_cons_self
    have len := short r
    refine (ih (s := s.pokeBytes .normal (a + r * p) (bytes r)) ?_ fun q hq => out q (List.mem_cons_of_mem _ hq)).trans ?_
    · rw [pokeBytes_eq]
      exact unveiled
    · rw [memAt_pokeBytes unveiled, if_neg]
      rw [Nat.add_mul, Nat.one_mul] at first
      omega

/-- A byte of a written row. -/
theorem memAt_putRows_row {r i : Nat} (listed : r ∈ rows) (i_lt : i < (bytes r).length) : memAt (s.putRows a p bytes rows) (a + r * p + i) = (bytes r).getD i 0 := by
  induction rows generalizing s with
  | nil => cases listed
  | cons q rows ih =>
    have kept : (s.pokeBytes .normal (a + q * p) (bytes q)).veiled = [] := by
      rw [pokeBytes_eq]
      exact unveiled
    by_cases later : r ∈ rows
    · exact ih kept later
    · obtain rfl := (List.mem_cons.mp listed).resolve_right later
      have len := short r
      refine (memAt_putRows_other kept short fun n hn inside => ?_).trans ?_
      · rw [Nat.add_mul, Nat.one_mul] at inside
        rcases Nat.lt_or_gt_of_ne (show n ≠ r from fun same => later (same ▸ hn)) with less | more
        · have le : (n + 1) * p ≤ r * p := Nat.mul_le_mul_right _ less
          rw [Nat.add_mul, Nat.one_mul] at le
          omega
        · have le : (r + 1) * p ≤ n * p := Nat.mul_le_mul_right _ more
          rw [Nat.add_mul, Nat.one_mul] at le
          omega
      · rw [memAt_pokeBytes unveiled, if_pos (by omega), Nat.add_sub_cancel_left]
        rfl

end

/-- The bytes of a row of results. -/
def Mat.rowBytes (m : Mat) (f : Nat → Nat → Nat) (r : Nat) : List Byte :=
  (List.range m.cols).flatMap fun j => leBytes m.fmt.bytes (m.fmt.store (f r j)).1

theorem length_rowBytes (m : Mat) (f : Nat → Nat → Nat) (r : Nat) : (m.rowBytes f r).length = m.cols * m.fmt.bytes := by
  unfold Mat.rowBytes
  rw [List.length_flatMap]
  simp [length_leBytes]

/-- A block of rows that loses no word: its bytes, the saturations counted, and its slots marked. -/
theorem hearthWrite_nil (s : State) (k c o : Nat) (m : Mat) (rows : List Nat) (f : Nat → Nat → Nat) : ∃ n, s.hearthWrite k c o m rows [] f =
    ((s.putRows (o + m.off) m.pitch (m.rowBytes f) rows).inc HTH_SATURATIONS_COUNT k n).setCtx k c fun x => { x with
      hearth := (x.hearth ++ slotsIn m.off m.bytes).dedup } := by
  have none' : (([] : List Nat).filter fun w => rows.contains (8 * w / max 1 m.pitch) && decide (8 * w < m.bytes)).dedup = [] := rfl
  have row : (fun (t : State) r => t.hearthRow o m r [] (((List.range m.cols).map fun j => m.fmt.store (f r j)).flatMap fun v => leBytes m.fmt.bytes v.1)) =
      fun t r => t.pokeBytes .normal (o + m.off + r * m.pitch) (m.rowBytes f r) := by
    funext t r
    rw [hearthRow_nil, List.flatMap_map]
    rfl
  unfold State.hearthWrite
  dsimp only
  rw [none', row, if_pos (by rfl)]
  exact ⟨_, rfl⟩

/-! ### Blocks one after another (R171) -/

/-- The blocks before a row are done: their elements stand in the result, and nothing else has changed but the task's context and fields that count. -/
structure Blocks (s : State) (k c o : Nat) (x : KCtx) (m : Mat) (cell : Nat → Nat → Nat) (t : State) (R : Nat) : Prop where
  whole : 64 ∣ R
  frame : t = { s with mem := t.mem, ctxs := t.ctxs, flds := t.flds }
  ctx : ∃ H, t.ctx k c = { x with row := R, hearth := H } ∧ ∀ i, i ∈ H ↔ i ∈ x.hearth ∨ (0 < R ∧ i ∈ slotsIn m.off m.bytes)
  others : ∀ d, d ≠ 4 * k + c → Tab.find d t.ctxs = Tab.find d s.ctxs
  collision : t.get HTH_STATUS_COLLISION k = s.get HTH_STATUS_COLLISION k
  kept : ∀ a, ¬ (o + m.off ≤ a ∧ a < o + m.off + min R m.rows * m.pitch) → memAt t a = memAt s a
  cells : ∀ r j i, r < R → r < m.rows → j < m.cols → i < m.fmt.bytes →
    memAt t (o + m.at' r j + i) = (leBytes m.fmt.bytes (m.fmt.store (cell r j)).1).getD i 0

section
variable {s t : State} {k c o R : Nat} {x : KCtx} {m : Mat} {cell : Nat → Nat → Nat}

theorem Blocks.start (here : s.ctx k c = x) (row : x.row = 0) : Blocks s k c o x m cell s 0 := by
  refine ⟨⟨0, rfl⟩, rfl, ⟨x.hearth, by rw [here, ← row], fun i => ?_⟩, fun _ _ => rfl, rfl, fun _ _ => rfl, fun r j i none' => ?_⟩
  · simp
  · omega

/-- The rows of a block. -/
theorem mem_rowsOf {n R r : Nat} : r ∈ rowsOf n R ↔ R ≤ r ∧ r < R + 64 ∧ r < n := by
  unfold rowsOf blockRows
  simp only [List.mem_map, List.mem_range]
  constructor
  · rintro ⟨i, hi, rfl⟩
    omega
  · rintro ⟨low, block, high⟩
    exact ⟨r - R, by omega, by omega⟩

/-- A further block, whose elements are those wanted. -/
theorem Blocks.step (blocks : Blocks s k c o x m cell t R) (unveiled : s.veiled = []) {f : Nat → Nat → Nat}
    (agrees : ∀ r j, R ≤ r → r < m.rows → j < m.cols → f r j = cell r j) :
    Blocks s k c o x m cell ((t.hearthWrite k c o m (rowsOf m.rows R) [] f).setCtx k c fun y => { y with row := R + blockRows }) (R + 64) := by
  obtain ⟨n, written⟩ := hearthWrite_nil t k c o m (rowsOf m.rows R) f
  rw [written]
  obtain ⟨H, here, marks⟩ := blocks.ctx
  have veil : t.veiled = [] := by
    rw [blocks.frame]
    exact unveiled
  have short (r : Nat) : (m.rowBytes f r).length ≤ m.pitch := by
    rw [length_rowBytes]
    exact m.row_le_pitch
  have frame := putRows_eq t (o + m.off) m.pitch (m.rowBytes f) (rowsOf m.rows R)
  have outside (a : Nat) := memAt_putRows_other (a := o + m.off) (rows := rowsOf m.rows R) veil short (x := a)
  have inside (r i : Nat) := memAt_putRows_row (a := o + m.off) (rows := rowsOf m.rows R) veil short (r := r) (i := i)
  generalize t.putRows (o + m.off) m.pitch (m.rowBytes f) (rowsOf m.rows R) = u at frame outside inside
  obtain ⟨mem, rfl⟩ : ∃ mem, u = { t with mem := mem } := ⟨_, frame⟩
  have place (r j i : Nat) : o + m.at' r j + i = o + m.off + r * m.pitch + (j * m.fmt.bytes + i) := by
    unfold Mat.at'
    omega
  have first : ((State.inc { t with mem := mem } HTH_SATURATIONS_COUNT k n).ctx k c) = { x with row := R, hearth := H } := here
  refine ⟨Nat.dvd_add blocks.whole ⟨1, rfl⟩, ?_, ⟨(H ++ slotsIn m.off m.bytes).dedup, ?_, fun i => ?_⟩, fun d other => ?_, ?_,
    fun a out => ?_, fun r j i before row col byte => ?_⟩
  · have old := blocks.frame
    generalize t.mem = a, t.ctxs = b, t.flds = e at old
    subst old
    rfl
  · rw [State.setCtx, State.ctx_putCtx_self, State.setCtx, State.ctx_putCtx_self, first]
    rfl
  · rw [List.mem_dedup, List.mem_append, marks]
    constructor
    · rintro ((old | ⟨-, slot⟩) | slot)
      · exact .inl old
      · exact .inr ⟨by omega, slot⟩
      · exact .inr ⟨by omega, slot⟩
    · rintro (old | ⟨-, slot⟩)
      · exact .inl (.inl old)
      · exact .inr slot
  · exact (find_putCtx _ _ _ _ other).trans ((find_putCtx _ _ _ _ other).trans (blocks.others d other))
  · exact (State.get_inc_other (s := { t with mem := mem }) (by decide) ..).trans blocks.collision
  · refine (outside a fun r hr within => out ?_).trans (blocks.kept a fun within => out ?_)
    · obtain ⟨-, block, high⟩ := mem_rowsOf.mp hr
      have le : (r + 1) * m.pitch ≤ min (R + 64) m.rows * m.pitch := Nat.mul_le_mul_right _ (by omega)
      omega
    · have le : min R m.rows * m.pitch ≤ min (R + 64) m.rows * m.pitch := Nat.mul_le_mul_right _ (by omega)
      omega
  · have pitch := m.row_le_pitch
    have cell' : (j + 1) * m.fmt.bytes ≤ m.cols * m.fmt.bytes := Nat.mul_le_mul_right _ col
    rw [Nat.add_mul, Nat.one_mul] at cell'
    by_cases earlier : r < R
    · refine (outside _ fun q hq within => ?_).trans (blocks.cells r j i earlier row col byte)
      have le : (r + 1) * m.pitch ≤ q * m.pitch := Nat.mul_le_mul_right _ (by have := (mem_rowsOf.mp hq).1; omega)
      rw [Nat.add_mul, Nat.one_mul] at le
      rw [place] at within
      omega
    · have listed : r ∈ rowsOf m.rows R := mem_rowsOf.mpr ⟨by omega, before, row⟩
      refine (congrArg (memAt { t with mem := mem }) (place r j i)).trans ((inside r _ listed (by rw [length_rowBytes]; omega)).trans ?_)
      unfold Mat.rowBytes
      rw [getD_flatMap_range (fun _ => length_leBytes ..) col byte, agrees r j (by omega) row col]

/-- Slots that are in time stay so as the hearth writes more of them. -/
theorem hearthLate_mono {s t : State} {y : KCtx} {ms : List Mat} (ready : t.ready = s.ready) (half : y.half = x.half) (base : y.base = x.base)
    (more : ∀ i ∈ x.hearth, i ∈ y.hearth) (inTime : s.hearthLate k x ms = []) : t.hearthLate k y ms = [] := by
  rw [List.eq_nil_iff_forall_not_mem] at inTime ⊢
  intro i late
  refine inTime i ?_
  unfold State.hearthLate State.notReady State.isReady at late ⊢
  simp only [List.mem_dedup, List.mem_filter, Bool.not_eq_true', ready, half, base] at late ⊢
  refine ⟨⟨late.1.1, ?_⟩, late.2⟩
  have fresh := late.1.2
  rw [← Bool.not_eq_true, List.contains_iff_mem] at fresh ⊢
  exact fun old => fresh (more i old)

/-- All blocks of a command whose operands are in time and good. -/
theorem hearthBlocks_runs {ops : Nat → List Mat} {block : Nat → State → State} {done : State → State} {F : State → Nat → Nat → Nat} (unveiled : s.veiled = [])
    (undebugged : x.dbgReq = 0) (origin : x.origin k = o) (inTime : ∀ R, R < m.rows → s.hearthLate k x (ops R) = [])
    (clean : ∀ R, R < m.rows → ∀ p ∈ ops R, ∀ n ∈ wordsOf (o + p.off) p.bytes, Tab.find n s.ecc = none)
    (does : ∀ R t, block R t = t.hearthWrite k c o m (rowsOf m.rows R) [] (F t))
    (agrees : ∀ t R, Blocks s k c o x m cell t R → R < m.rows → ∀ r j, R ≤ r → r < m.rows → j < m.cols → F t r j = cell r j) :
    ∀ (fuel : Nat) (t : State) (R : Nat), Blocks s k c o x m cell t R → m.rows - R < fuel →
      ∃ t' R', State.hearthBlocks k c m.rows ops block done fuel t = done t' ∧ Blocks s k c o x m cell t' R' ∧ m.rows ≤ R' := by
  intro fuel
  induction fuel with
  | zero => intro t R _ none'; omega
  | succ fuel ih =>
    intro t R blocks enough
    obtain ⟨H, here, marks⟩ := blocks.ctx
    have row : (t.ctx k c).row = R := congrArg KCtx.row here
    have place : (t.ctx k c).origin k = o := by
      rw [here]
      exact origin
    rw [State.hearthBlocks]
    dsimp only
    rw [row, place]
    by_cases ends : m.rows ≤ R
    · exact ⟨t, R, if_pos ends, blocks, ends⟩
    · have late : t.hearthLate k (t.ctx k c) (ops R) = [] := by
        rw [here]
        exact hearthLate_mono (s := s) (x := x) (by rw [blocks.frame]) rfl rfl (fun i old => (marks i).mpr (.inl old)) (inTime R (by omega))
      have sees : Sees t t := ⟨fun _ => rfl, rfl, rfl, rfl, rfl⟩
      have touch : t.touch ((ops R).map fun m => (o + m.off, m.bytes)) = .ok t := sees.touch fun p hp n hn => by
        obtain ⟨q, hq, rfl⟩ := List.mem_map.mp hp
        rw [blocks.frame]
        exact clean R (by omega) q hq n hn
      have quiet : ((t.ctx k c).dbgReq == 3 && decide (R + blockRows < m.rows)) = false := by
        rw [here]
        simp [undebugged]
      rw [if_neg ends, late, if_neg (by decide), touch]
      dsimp only
      rw [quiet, if_neg Bool.false_ne_true, does]
      exact ih _ (R + 64) (blocks.step unveiled fun r j low high col => agrees t R blocks (by omega) r j low high col) (by omega)

end

/-! ### Starting and ending a command -/

/-- A task's context while its hearth command runs. -/
def KCtx.hearthing (x : KCtx) (v : Nat) : KCtx := { x with st := .running, begun := true, late := [], noswitch := bit v 8, declLen := bits v 16 8 }

/-- A command has started: only the task's context, its kiln and fields that count have changed. -/
structure Started (u v : State) (k c : Nat) (y : KCtx) : Prop where
  frame : v = { u with ctxs := v.ctxs, kilns := v.kilns, flds := v.flds }
  ctx : v.ctx k c = y
  others : ∀ d, d ≠ 4 * k + c → Tab.find d v.ctxs = Tab.find d u.ctxs
  collision : v.get HTH_STATUS_COLLISION k = u.get HTH_STATUS_COLLISION k

/-- Waiting for the multiply array changes the kiln and a count. -/
theorem mulWait_spec (s : State) (k c wait : Nat) : s.mulWait k c wait = { s with kilns := (s.mulWait k c wait).kilns, flds := (s.mulWait k c wait).flds } ∧
    (s.mulWait k c wait).get HTH_STATUS_COLLISION k = s.get HTH_STATUS_COLLISION k := by
  unfold State.mulWait
  dsimp only
  split
  · split
    · exact ⟨rfl, State.get_inc_other (s := s.putKiln k _) (by decide) ..⟩
    · exact ⟨rfl, rfl⟩
  · exact ⟨rfl, rfl⟩

section
variable {s u v t : State} {k c o R w : Nat} {x y : KCtx} {m : Mat} {cell : Nat → Nat → Nat} {ops : Nat → List Mat} {l : List Nat}

theorem started_hearthStart (ctx : u.ctx k c = x) (f : Kiln → Kiln) : Started u (u.hearthStart k c w f) k c (x.hearthing w) := by
  refine ⟨rfl, ?_, fun d other => find_putCtx _ _ _ _ other, rfl⟩
  rw [← ctx]
  exact State.ctx_putCtx_self ..

theorem started_mulWait (ctx : u.ctx k c = x) (wait : Nat) (f : Kiln → Kiln) : Started u ((u.mulWait k c wait).hearthStart k c w f) k c (x.hearthing w) := by
  obtain ⟨frame, collision⟩ := mulWait_spec u k c wait
  generalize u.mulWait k c wait = a at frame collision
  obtain ⟨q, fs, rfl⟩ : ∃ q fs, a = { u with kilns := q, flds := fs } := ⟨_, _, frame⟩
  obtain ⟨-, here, others, same⟩ := started_hearthStart (u := { u with kilns := q, flds := fs }) (w := w) (show State.ctx _ k c = x from ctx) f
  exact ⟨rfl, here, others, same.trans collision⟩

/-- The command's engine is the task's, whatever its context becomes. -/
theorem hearthStart_spec (f : Kiln → Kiln) (z : KCtx) :
    ((s.hearthStart k c w f).putCtx k c z).ctx k c = z ∧ ((s.hearthStart k c w f).putCtx k c z).kiln k = f (s.kiln k) :=
  ⟨State.ctx_putCtx_self .., (State.kiln_putKiln (s.setCtx k c _) k _ k).trans (if_pos rfl)⟩

theorem Started.memAt (start : Started u v k c y) (a : Nat) : memAt v a = memAt u a := memAt_congr (by rw [start.frame]) (by rw [start.frame]) a

theorem Started.hearthLate (start : Started u v k c y) (half : y.half = x.half) (base : y.base = x.base) (hearth : y.hearth = x.hearth) (ms : List Mat) :
    v.hearthLate k y ms = u.hearthLate k x ms := by
  unfold State.hearthLate State.notReady State.isReady
  rw [half, base, hearth, start.frame]

/-- A block whose data is late makes the task wait. -/
theorem hearthBlocks_late {rows : Nat} {block : Nat → State → State} {done : State → State} (start : Started u v k c y) (row : y.row = 0) (some' : 0 < rows)
    (late : v.hearthLate k y (ops 0) = l) (isLate : l ≠ []) (free : u.fedByHalted k c l = false) (half : y.half = (u.ctx k c).half) :
    State.hearthBlocks k c rows ops block done (rows + 1) v = v.putCtx k c { y with st := .waitTile, late := l } := by
  have fed : v.fedByHalted k c l = false := by
    unfold State.fedByHalted at free ⊢
    rw [start.ctx, half, start.frame]
    exact free
  have waits : State.hearthBlocks k c rows ops block done (rows + 1) v = v.dataLate k c l := by
    rw [State.hearthBlocks]
    dsimp only
    rw [start.ctx, row, late, if_neg (by omega), if_pos (by simpa using isLate)]
  rw [waits, State.dataLate, fed, if_neg Bool.false_ne_true, State.setCtx, start.ctx]

/-- Bytes that the blocks so far have not written are those that stood before the command. -/
theorem Blocks.byte (reports : Reports s u) (start : Started u v k c y) (blocks : Blocks v k c o y m cell t R) (unveiled : s.veiled = []) {a : Nat}
    (out : ¬ (o + m.off ≤ a ∧ a < o + m.off + min R m.rows * m.pitch)) : t.byte a = s.byte a := by
  have veil : t.veiled = [] := by
    rw [blocks.frame, start.frame]
    exact reports.veiled.trans unveiled
  rw [byte_unveiled veil, byte_unveiled unveiled, blocks.kept a out, start.memAt, memAt_congr reports.mem reports.undef]

/-- What a hearth command leaves once its blocks are done and its engine is free. -/
theorem hearth_done (reports : Reports s u) (start : Started u v k c (x.hearthing w)) (blocks : Blocks v k c o (x.hearthing w) m cell t R) (all : m.rows ≤ R)
    (some' : 0 < m.rows) (undebugged : x.dbgReq = 0) (q : Kiln) : let e := (t.putKiln k q).commandDone k c 32 false
    KeepsMemBut s e (o + m.off) m.bytes ∧
    (∀ r j i, r < m.rows → j < m.cols → i < m.fmt.bytes → memAt e (o + m.at' r j + i) = (leBytes m.fmt.bytes (m.fmt.store (cell r j)).1).getD i 0) ∧
    e.ctx k c = { cmdDone x 32 with hearth := (e.ctx k c).hearth } ∧ (∀ i, i ∈ (e.ctx k c).hearth ↔ i ∈ x.hearth ∨ i ∈ slotsIn m.off m.bytes) ∧
    e.kiln k = q ∧ (∀ d, d ≠ 4 * k + c → Tab.find d e.ctxs = Tab.find d s.ctxs) ∧
    e = { u with mem := e.mem, ctxs := e.ctxs, flds := e.flds, kilns := e.kilns } ∧ e.get HTH_STATUS_COLLISION k = u.get HTH_STATUS_COLLISION k := by
  obtain ⟨H, here, marks⟩ := blocks.ctx
  have ctx : (t.putKiln k q).ctx k c = { x.hearthing w with row := R, hearth := H } := here
  have ended : (t.putKiln k q).commandDone k c 32 false = (t.putKiln k q).putCtx k c (cmdDone { x.hearthing w with row := R, hearth := H } 32) := by
    rw [commandDone_eq (by rw [ctx]; exact undebugged), ctx]
  dsimp only
  rw [ended, State.ctx_putCtx_self]
  have same (a : Nat) : memAt v a = memAt s a := (start.memAt a).trans (memAt_congr reports.mem reports.undef a)
  refine ⟨fun a out => ?_, fun r j i row col byte => blocks.cells r j i (by omega) row col byte, rfl, fun i => ?_, ?_, fun d other => ?_, ?_, ?_⟩
  · refine (blocks.kept a fun within => out ?_).trans (same a)
    rw [Nat.min_eq_right all] at within
    exact within
  · refine (marks i).trans (or_congr Iff.rfl ⟨fun h => h.2, fun h => ⟨by omega, h⟩⟩)
  · exact (State.kiln_putKiln t k q k).trans (if_pos rfl)
  · rw [find_putCtx _ _ _ _ other]
    exact (blocks.others d other).trans ((start.others d other).trans (by rw [reports.ctxs]))
  · have old := blocks.frame
    rw [start.frame] at old
    generalize t.mem = a, t.ctxs = b, t.flds = e, v.kilns = g at old
    subst old
    rfl
  · exact blocks.collision.trans start.collision

/-! ### What a block reads -/

section
variable {n : Mat} {r j : Nat} (reports : Reports s u) (start : Started u v k c y) (blocks : Blocks v k c o y m cell t R) (unveiled : s.veiled = [])
include reports start blocks unveiled

/-- An operand that the result does not meet. -/
theorem elem_apart (apart : m.meets n = false) (row : r < n.rows) (col : j < n.cols) : t.elem o n r j = s.elem o n r j := by
  refine elem_congr fun i byte => blocks.byte reports start unveiled fun within => ?_
  obtain ⟨low, high⟩ := n.at_within row col byte
  have le : min R m.rows * m.pitch ≤ m.bytes := Nat.mul_le_mul_right _ (by omega)
  rcases meets_false apart with before | after <;> omega

/-- Rows at the result's own place that no block has written yet. -/
theorem elem_later (off : n.off = m.off) (pitch : n.pitch = m.pitch) (later : R ≤ r) (col : j < n.cols) : t.elem o n r j = s.elem o n r j := by
  refine elem_congr fun i byte => blocks.byte reports start unveiled fun within => ?_
  obtain ⟨low, -⟩ := n.at_bounds (r := r) col byte
  have le : min R m.rows * m.pitch ≤ r * m.pitch := Nat.mul_le_mul_right _ (by omega)
  rw [off, pitch] at low
  omega

/-- Before the first block nothing is written. -/
theorem elem_first (first : R = 0) : t.elem o n r j = s.elem o n r j := by
  refine elem_congr fun i byte => blocks.byte reports start unveiled fun within => ?_
  rw [first, Nat.zero_min, Nat.zero_mul] at within
  omega

end

end

/-- Words of a block of rows are words of the matrix. -/
theorem wordsOf_part {m : Mat} {R o n : Nat} (row : R < m.rows) (word : n ∈ wordsOf (o + (m.part R blockRows).off) (m.part R blockRows).bytes) :
    n ∈ wordsOf (o + m.off) m.bytes := by
  have le : R * m.pitch + min blockRows (m.rows - R) * m.pitch ≤ m.rows * m.pitch := by
    rw [← Nat.add_mul]
    exact Nat.mul_le_mul_right _ (by omega)
  have off : (m.part R blockRows).off = m.off + R * m.pitch := rfl
  have bytes : (m.part R blockRows).bytes = min blockRows (m.rows - R) * m.pitch := rfl
  rw [off, bytes] at word
  generalize min blockRows (m.rows - R) * m.pitch = b at le word
  have some' : 1 ≤ b := Nat.pos_of_ne_zero fun none' => by
    rw [none'] at word
    exact absurd word List.not_mem_nil
  rw [mem_wordsOf_iff some'] at word
  have whole : m.bytes = m.rows * m.pitch := rfl
  rw [mem_wordsOf_iff (by omega), whole]
  omega

/-! ### HMUL (R173, R174) -/

/-- The shapes of an HMUL's operands. -/
theorem hmulOf_shape {v : Nat} {h : HmulCmd} (fields : hmulOf v = some h) : h.a.rows = h.c.rows ∧ h.a.cols = h.k ∧
    (h.bt = true → h.b.rows = h.c.cols ∧ h.b.cols = h.k) ∧ (h.bt = false → h.b.rows = h.k ∧ h.b.cols = h.c.cols) ∧ 0 < h.c.rows := by
  unfold hmulOf at fields
  dsimp only at fields
  split at fields
  · cases fields
  · cases fields
    refine ⟨rfl, rfl, fun turned => ?_, fun plain => ?_, Nat.succ_pos _⟩
    · dsimp only at turned ⊢
      rw [turned, if_pos rfl]
      exact ⟨rfl, rfl⟩
    · dsimp only at plain ⊢
      rw [plain, if_neg Bool.false_ne_true]
      exact ⟨rfl, rfl⟩

/-- An element of A × B is fixed by the operands' elements. -/
theorem hmulCell_congr {s t : State} {v o r j : Nat} {h : HmulCmd} (fields : hmulOf v = some h) (col : j < h.c.cols)
    (a : ∀ i, i < h.a.cols → t.elem o h.a r i = s.elem o h.a r i) (b : ∀ q i, q < h.b.rows → i < h.b.cols → t.elem o h.b q i = s.elem o h.b q i) :
    t.hmulCell o h r j = s.hmulCell o h r j := by
  obtain ⟨-, width, turned, plain, -⟩ := hmulOf_shape fields
  unfold State.hmulCell
  refine congrArg (foldSum h.c.rows h.c.cols h.k h.hfmt h.k) (List.map_congr_left fun i hi => ?_)
  have i_lt := List.mem_range.mp hi
  rw [a i (by omega)]
  cases bt : h.bt with
  | true =>
    obtain ⟨rows, cols⟩ := turned bt
    rw [if_pos rfl, if_pos rfl, b j i (by omega) (by omega)]
  | false =>
    obtain ⟨rows, cols⟩ := plain bt
    rw [if_neg Bool.false_ne_true, if_neg Bool.false_ne_true, b i j (by omega) (by omega)]

/-- An element of an HMUL's result before it is rounded. -/
def State.hmulResult (s : State) (o : Nat) (h : HmulCmd) (r j : Nat) : Nat :=
  if h.accum then add32 (s.elem o h.c r j) (s.hmulCell o h r j) else s.hmulCell o h r j

/-- What a block of an HMUL reads. -/
theorem mem_hmulOps {h : HmulCmd} {R : Nat} {p : Mat} : p ∈ h.ops R ↔ p = h.a.part R blockRows ∨ p = h.b ∨ (h.accum = true ∧ p = h.c.part R blockRows) := by
  unfold HmulCmd.ops
  cases h.accum <;> simp

/-- What an HMUL's matrices must meet. -/
theorem hmul_apart {h : HmulCmd} {slots : Nat} (good : h.ok slots = true) : h.c.meets h.a = false ∧ h.c.meets h.b = false := by
  unfold HmulCmd.ok at good
  simp only [Bool.and_eq_true, Bool.not_eq_true'] at good
  obtain ⟨⟨-, a⟩, b⟩ := good
  exact ⟨a, b⟩

/-! ### HVEC (R173, R176, R177) -/

/-- An element of an HVEC's result before it is rounded. -/
def State.hvecResult (s : State) (o : Nat) (h : HvecCmd) (r j : Nat) : Nat :=
  hvecCell h ((List.range h.src.cols).map fun i => s.hvecIn o h r i) ((List.range h.param.cols).map fun i => s.elem o h.param 0 i) j

theorem mem_hvecOps {h : HvecCmd} {R : Nat} {p : Mat} : p ∈ h.ops R ↔ p = h.src.part R blockRows ∨ (paramRows h.op ≠ 0 ∧ p = h.param) := by
  unfold HvecCmd.ops
  by_cases none' : paramRows h.op = 0 <;> simp [none']

/-- The shapes of an HVEC's operands. -/
theorem hvecOf_shape {v : Nat} {h : HvecCmd} (fields : hvecOf v = some h) : h.dst.rows = h.src.rows ∧ 0 < h.src.rows ∧
    (paramRows h.op = 0 → h.param.cols = 0) ∧ (paramRows h.op ≠ 0 → h.param.rows = 1) := by
  unfold hvecOf at fields
  dsimp only at fields
  split at fields
  · cases fields
  · cases fields
    refine ⟨?_, Nat.succ_pos _, fun none' => ?_, fun some' => ?_⟩
    · dsimp only
      split <;> rfl
    · dsimp only at none' ⊢
      rw [none', Nat.zero_mul]
    · dsimp only at some' ⊢
      rw [if_neg (by simpa using some')]

/-- What an HVEC's matrices must meet. -/
theorem hvec_apart {h : HvecCmd} {slots : Nat} (good : h.ok slots = true) : (h.dst.meets h.src = false ∨ h.dst.off = h.src.off) ∧
    (paramRows h.op ≠ 0 → h.dst.meets h.param = false) := by
  unfold HvecCmd.ok at good
  simp only [Bool.and_eq_true, Bool.or_eq_true, Bool.not_eq_true', beq_iff_eq] at good
  obtain ⟨⟨-, source⟩, params⟩ := good
  exact ⟨source, fun some' => (params.resolve_left some').2⟩

/-- An element of the result is fixed by its row and the parameters. -/
theorem hvecResult_congr {s t : State} {o r j : Nat} {h : HvecCmd} (row : ∀ i, i < h.src.cols → t.elem o h.src r i = s.elem o h.src r i)
    (params : ∀ i, i < h.param.cols → t.elem o h.param 0 i = s.elem o h.param 0 i) : t.hvecResult o h r j = s.hvecResult o h r j := by
  unfold State.hvecResult
  have rows : ((List.range h.src.cols).map fun i => t.hvecIn o h r i) = (List.range h.src.cols).map fun i => s.hvecIn o h r i :=
    List.map_congr_left fun i hi => by
      unfold State.hvecIn
      rw [row i (List.mem_range.mp hi)]
  have pars : ((List.range h.param.cols).map fun i => t.elem o h.param 0 i) = (List.range h.param.cols).map fun i => s.elem o h.param 0 i :=
    List.map_congr_left fun i hi => params i (List.mem_range.mp hi)
  rw [rows, pars]

/-- A free value is the exact one rounded or lies near it. -/
theorem nearUlp_spec (exact : Int) (free : Nat) : nearUlp exact free = ofFx exact ∨ (toFx (nearUlp exact free) - exact).natAbs ≤ (2 * ulpFx exact).natAbs := by
  unfold nearUlp nearFx
  split
  · next near =>
    simp only [Bool.and_eq_true, decide_eq_true_eq] at near
    exact .inr near.2
  · exact .inl rfl

/-- A row of −∞ alone. -/
theorem softmaxCell_infinite {h : HvecCmd} {row : List Nat} (all : ∀ v ∈ row, v = 0xFF800000) (c : Nat) : softmaxCell h row c = 0 := by
  have number : (row.any fun v => (f32 v).isNaN) = false := List.any_eq_false.mpr fun v hv => by
    rw [all v hv]
    decide
  have infinite : infs true row = row.length := by
    unfold infs
    rw [List.countP_eq_length]
    exact fun v hv => by simp [all v hv]
  unfold softmaxCell
  rw [number, if_neg Bool.false_ne_true, infinite, if_pos (by simp)]

end Sys2Proof.Machine
end

section
/-! The statement about hearths. -/

namespace Sys2Proof.Safety

open Sys2Proof.Machine

/-- HMUL, whole: each block's elements are those of the matrices as they stood. -/
theorem hmul_writes {s u : State} {k c wait v : Nat} {h : HmulCmd} (command : AtCommand s k c 0x10 32 v u) (fields : hmulOf v = some h)
    (row : (s.ctx k c).row = 0)
    (good : h.ok (s.ctx k c).slots = true) (inTime : ∀ r, r < h.c.rows → u.hearthLate k (s.ctx k c) (h.ops r) = [])
    (clean : ∀ m ∈ [h.a, h.b] ++ (if h.accum then [h.c] else []), ∀ n ∈ wordsOf ((s.ctx k c).origin k + m.off) m.bytes, Tab.find n u.ecc = none)
    (unveiled : s.veiled = []) : ∃ w t R, u.runHmul k c wait [] v = (t.putKiln k { t.kiln k with mul := none }).commandDone k c 32 false ∧
      Started u w k c ((s.ctx k c).hearthing v) ∧ h.c.rows ≤ R ∧
      Blocks w k c ((s.ctx k c).origin k) ((s.ctx k c).hearthing v) h.c (s.hmulResult ((s.ctx k c).origin k) h) t R := by
  have reports := reports_of_AtCommand command
  have ctx : u.ctx k c = s.ctx k c := reports.ctx k c
  have start := started_mulWait (w := v) ctx wait fun q => { q with mul := some c }
  obtain ⟨height, -, -, -, some'⟩ := hmulOf_shape fields
  obtain ⟨apartA, apartB⟩ := hmul_apart good
  unfold State.runHmul
  dsimp only
  rw [fields, ctx]
  dsimp only
  rw [good, if_neg (by decide)]
  generalize (u.mulWait k c wait).hearthStart k c v _ = w at start
  have veil : w.veiled = [] := by
    rw [start.frame]
    exact reports.veiled.trans unveiled
  have marks : w.ecc = u.ecc := by rw [start.frame]
  have clean' : ∀ R, R < h.c.rows → ∀ p ∈ h.ops R, ∀ n ∈ wordsOf ((s.ctx k c).origin k + p.off) p.bytes, Tab.find n w.ecc = none := by
    intro R R_lt p hp n hn
    rw [marks]
    rcases mem_hmulOps.mp hp with rfl | rfl | ⟨accum, rfl⟩
    · exact clean h.a (by simp) n (wordsOf_part (by omega) hn)
    · exact clean h.b (by simp) n hn
    · exact clean h.c (by simp [accum]) n (wordsOf_part R_lt hn)
  have agrees : ∀ t R, Blocks w k c ((s.ctx k c).origin k) ((s.ctx k c).hearthing v) h.c (s.hmulResult ((s.ctx k c).origin k) h) t R → R < h.c.rows →
      ∀ r j, R ≤ r → r < h.c.rows → j < h.c.cols → t.hmulResult ((s.ctx k c).origin k) h r j = s.hmulResult ((s.ctx k c).origin k) h r j := by
    intro t R blocks R_lt r j low high col
    have cell : t.hmulCell ((s.ctx k c).origin k) h r j = s.hmulCell ((s.ctx k c).origin k) h r j :=
      hmulCell_congr fields col (fun i i_lt => elem_apart reports start blocks unveiled apartA (by omega) i_lt)
        fun q i q_lt i_lt => elem_apart reports start blocks unveiled apartB q_lt i_lt
    unfold State.hmulResult
    rw [cell, elem_later reports start blocks unveiled rfl rfl low col]
  obtain ⟨t, R, run, blocks, all⟩ := hearthBlocks_runs (x := (s.ctx k c).hearthing v) (done := fun t => (t.putKiln k { t.kiln k with mul := none }).commandDone k c 32 false) veil
    (dbgReq_of_AtCommand command) rfl (fun R R_lt => (start.hearthLate rfl rfl rfl _).trans (inTime R R_lt)) clean' (fun _ _ => rfl) agrees (h.c.rows + 1) w 0
    (.start start.ctx (show ((s.ctx k c).hearthing v).row = 0 from row)) (by omega)
  exact ⟨w, t, R, run, start, all, blocks⟩

/-- HVEC, whole: each block's rows are those of the source as they stood. -/
theorem hvec_writes {s u : State} {k c v : Nat} {h : HvecCmd} (command : AtCommand s k c 0x11 32 v u) (fields : hvecOf v = some h)
    (row : (s.ctx k c).row = 0) (good : h.ok (s.ctx k c).slots = true) (inTime : ∀ r, r < h.src.rows → u.hearthLate k (s.ctx k c) (h.ops r) = [])
    (clean : ∀ m ∈ h.src :: (if paramRows h.op = 0 then [] else [h.param]), ∀ n ∈ wordsOf ((s.ctx k c).origin k + m.off) m.bytes, Tab.find n u.ecc = none)
    (unveiled : s.veiled = []) (overlap : h.dst.meets h.src = false ∨ h.dst.pitch = h.src.pitch ∨ h.src.rows ≤ 64) : ∃ w t R,
      u.runHvec k c [] v = (t.putKiln k { t.kiln k with vec := none }).commandDone k c 32 false ∧
      Started u w k c ((s.ctx k c).hearthing v) ∧ h.dst.rows ≤ R ∧
      Blocks w k c ((s.ctx k c).origin k) ((s.ctx k c).hearthing v) h.dst (s.hvecResult ((s.ctx k c).origin k) h) t R := by
  have reports := reports_of_AtCommand command
  have ctx : u.ctx k c = s.ctx k c := reports.ctx k c
  have start := started_hearthStart (w := v) ctx fun q => { q with vec := some c }
  obtain ⟨height, some', noParams, oneRow⟩ := hvecOf_shape fields
  obtain ⟨place, apartP⟩ := hvec_apart good
  unfold State.runHvec
  dsimp only
  rw [fields, ctx]
  dsimp only
  rw [good, if_neg (by decide), ← height]
  rw [← height] at inTime some' overlap
  generalize u.hearthStart k c v _ = w at start
  have veil : w.veiled = [] := by
    rw [start.frame]
    exact reports.veiled.trans unveiled
  have marks : w.ecc = u.ecc := by rw [start.frame]
  have clean' : ∀ R, R < h.dst.rows → ∀ p ∈ h.ops R, ∀ n ∈ wordsOf ((s.ctx k c).origin k + p.off) p.bytes, Tab.find n w.ecc = none := by
    intro R R_lt p hp n hn
    rw [marks]
    rcases mem_hvecOps.mp hp with rfl | ⟨params, rfl⟩
    · exact clean h.src (by simp) n (wordsOf_part (by omega) hn)
    · exact clean h.param (by simp [params]) n hn
  have agrees : ∀ t R, Blocks w k c ((s.ctx k c).origin k) ((s.ctx k c).hearthing v) h.dst (s.hvecResult ((s.ctx k c).origin k) h) t R → R < h.dst.rows →
      ∀ r j, R ≤ r → r < h.dst.rows → j < h.dst.cols → t.hvecResult ((s.ctx k c).origin k) h r j = s.hvecResult ((s.ctx k c).origin k) h r j := by
    intro t R blocks R_lt r j low high col
    refine hvecResult_congr (fun i i_lt => ?_) fun i i_lt => ?_
    · rcases overlap with apart | pitch | small
      · exact elem_apart reports start blocks unveiled apart (by omega) i_lt
      · rcases place with apart | off
        · exact elem_apart reports start blocks unveiled apart (by omega) i_lt
        · exact elem_later reports start blocks unveiled off.symm pitch.symm low i_lt
      · obtain ⟨b, hb⟩ := blocks.whole
        exact elem_first reports start blocks unveiled (by omega)
    · by_cases none' : paramRows h.op = 0
      · rw [noParams none'] at i_lt
        omega
      · exact elem_apart reports start blocks unveiled (apartP none') (by rw [oneRow none']; decide) i_lt
  obtain ⟨t, R, run, blocks, all⟩ := hearthBlocks_runs (x := (s.ctx k c).hearthing v) (done := fun t => (t.putKiln k { t.kiln k with vec := none }).commandDone
    k c 32 false) veil (dbgReq_of_AtCommand command) rfl (fun R R_lt => (start.hearthLate rfl rfl rfl _).trans (inTime R R_lt)) clean' (fun _ _ => rfl) agrees
    (h.dst.rows + 1) w 0 (.start start.ctx (show ((s.ctx k c).hearthing v).row = 0 from row)) (by omega)
  exact ⟨w, t, R, run, start, all, blocks⟩

/-- Settles O30: blocks one after another (`hearthBlocks_runs`), each of rows that no earlier block wrote (`hmul_writes`, `hvec_writes`), and what single
elements of an HVEC are. -/
theorem hearthsWriteTheirResults : Obligations.HearthsWriteTheirResults := by
  unfold Obligations.HearthsWriteTheirResults
  refine ⟨?mul, ?vec, ?cells⟩
  case mul =>
    intro s u k c wait v h command fields may x o row good
    have reports := reports_of_AtCommand command
    have ctx : u.ctx k c = x := reports.ctx k c
    have run : exec (.hmul k c wait []) s = .next (u.runHmul k c wait [] v) :=
      (if_pos may).trans (congrArg Host.Outcome.next (command_at command (by decide) _))
    obtain ⟨-, -, -, -, some'⟩ := hmulOf_shape fields
    refine ⟨?late, ?whole⟩
    case late =>
      intro l late isLate free
      have start := started_mulWait (w := v) ctx wait fun q => { q with mul := some c }
      have waits : u.runHmul k c wait [] v = State.putCtx ((u.mulWait k c wait).hearthStart k c v fun q => { q with mul := some c }) k c
          { x.hearthing v with st := .waitTile, late := l } := by
        unfold State.runHmul
        dsimp only
        rw [fields, ctx]
        dsimp only
        rw [good, if_neg (by decide)]
        exact hearthBlocks_late start row some' ((start.hearthLate rfl rfl rfl _).trans late) isLate free (by rw [ctx]; rfl)
      obtain ⟨here, kiln⟩ := hearthStart_spec (s := u.mulWait k c wait) (k := k) (c := c) (w := v) (fun q => { q with mul := some c })
        { x.hearthing v with st := .waitTile, late := l }
      have mem := start.frame
      generalize (u.mulWait k c wait).hearthStart k c v _ = w at waits here kiln mem
      exact ⟨_, run.trans (congrArg Host.Outcome.next waits), (congrArg KCtx.st here).trans rfl, (congrArg KCtx.late here).trans rfl,
        (congrArg KCtx.pc here).trans rfl, (congrArg Kiln.mul kiln).trans rfl, (congrArg (fun a : State => a.mem) mem).trans reports.mem⟩
    case whole =>
      intro inTime clean unveiled cell
      obtain ⟨w, t, R, whole, start, all, blocks⟩ := hmul_writes (wait := wait) command fields row good inTime clean unveiled
      obtain ⟨mem, cells, here, marks, kiln, others, frame, collision⟩ := hearth_done reports start blocks all some' (dbgReq_of_AtCommand command)
        { t.kiln k with mul := none }
      exact ⟨_, run.trans (congrArg Host.Outcome.next whole), mem, cells, here, marks, congrArg Kiln.mul kiln, others, frame, collision⟩
  case vec =>
    intro s u k c v h command fields may x o row good
    have reports := reports_of_AtCommand command
    have ctx : u.ctx k c = x := reports.ctx k c
    have run : exec (.hvec k c []) s = .next (u.runHvec k c [] v) :=
      (if_pos may).trans (congrArg Host.Outcome.next (command_at command (by decide) _))
    obtain ⟨height, some', -, -⟩ := hvecOf_shape fields
    refine ⟨?late, ?whole⟩
    case late =>
      intro l late isLate free
      have start := started_hearthStart (w := v) ctx fun q => { q with vec := some c }
      have waits : u.runHvec k c [] v = State.putCtx (u.hearthStart k c v fun q => { q with vec := some c }) k c
          { x.hearthing v with st := .waitTile, late := l } := by
        unfold State.runHvec
        dsimp only
        rw [fields, ctx]
        dsimp only
        rw [good, if_neg (by decide)]
        exact hearthBlocks_late start row some' ((start.hearthLate rfl rfl rfl _).trans late) isLate free (by rw [ctx]; rfl)
      obtain ⟨here, kiln⟩ := hearthStart_spec (s := u) (k := k) (c := c) (w := v) (fun q => { q with vec := some c })
        { x.hearthing v with st := .waitTile, late := l }
      have mem := start.frame
      generalize u.hearthStart k c v _ = w at waits here kiln mem
      exact ⟨_, run.trans (congrArg Host.Outcome.next waits), (congrArg KCtx.st here).trans rfl, (congrArg KCtx.late here).trans rfl,
        (congrArg KCtx.pc here).trans rfl, (congrArg Kiln.vec kiln).trans rfl, (congrArg (fun a : State => a.mem) mem).trans reports.mem⟩
    case whole =>
      intro inTime clean unveiled overlap rows par
      obtain ⟨w, t, R, whole, start, all, blocks⟩ := hvec_writes command fields row good inTime clean unveiled overlap
      obtain ⟨mem, cells, here, marks, kiln, others, frame, -⟩ := hearth_done reports start blocks all (by omega) (dbgReq_of_AtCommand command)
        { t.kiln k with vec := none }
      exact ⟨_, run.trans (congrArg Host.Outcome.next whole), mem, cells, here, marks, congrArg Kiln.vec kiln, others, frame⟩
  case cells =>
    intro h row par c
    refine ⟨fun copy => ?_, fun softmax _ all => ?_, fun near finite => ?_⟩
    · unfold hvecCell
      rw [copy]
      rfl
    · unfold hvecCell
      rw [softmax]
      exact softmaxCell_infinite all c
    · have value : ∃ free, hvecCell h row par c = nearUlp (exactFn h.op (row.getD c 0)) free := by
        unfold hvecCell
        rcases near with op | op | op
        all_goals rw [op]; exact ⟨_, if_pos finite⟩
      obtain ⟨free, value⟩ := value
      dsimp only
      rw [value]
      exact nearUlp_spec _ free

end Sys2Proof.Safety
end
